-- ==== Sys2Proof/Word.lean ====
section
/-! DEFINITION. The words of the module and their widths: bytes, 32-bit register words, 64-bit ZHN working
registers, 40-bit control addresses and the 96-bit time value of R46. -/
namespace Sys2Proof

/-- One byte. -/
abbrev Byte := BitVec 8
/-- A half word of 16 bits. -/
abbrev Half := BitVec 16
/-- A 32-bit word: a register, a field-memory word, an instruction. -/
abbrev Word := BitVec 32
/-- A 64-bit value: a ZHN working register, a register pair (R17). -/
abbrev DWord := BitVec 64
/-- An address of the 40-bit control space (R35–R37). -/
abbrev Addr := BitVec 40
/-- A 96-bit time value in the layout of R46: fraction [15:0], nanoseconds [47:16], seconds [95:48]. -/
abbrev Stamp := BitVec 96
/-- A MAC address, 48 bits. -/
abbrev Mac := BitVec 48
/-- An EUI-64. -/
abbrev Eui := BitVec 64

end Sys2Proof
end

