-- ==== Sys2Proof/Machine/Store.lean ====
section
/-! DEFINITION. The sparse map that holds every memory and every indexed array of the module: a list of
(key, value) pairs with keys strictly rising and no pair that equals what an unlisted key reads as. -/
namespace Sys2Proof.Machine

/-- A sparse map from numbers. What an unlisted key reads as is given to each operation as `d`. -/
abbrev Store (α : Type) := List (Nat × α)

/-- The value at key `k`. -/
def sget {α : Type} (d : Nat → α) : Store α → Nat → α
  | [], k => d k
  | (j, v) :: r, k => if j = k then v else sget d r k

/-- Insert or replace the pair of key `k`, keeping the order of the keys. -/
def sput {α : Type} : Store α → Nat → α → Store α
  | [], k, v => [(k, v)]
  | (j, w) :: r, k, v =>
    if k < j then (k, v) :: (j, w) :: r
    else if j = k then (k, v) :: r
    else (j, w) :: sput r k v

/-- Remove key `k`, so that it reads as unlisted. -/
def sdel {α : Type} : Store α → Nat → Store α
  | [], _ => []
  | (j, w) :: r, k => if j = k then sdel r k else (j, w) :: sdel r k

/-- Write `v` at key `k`: a value equal to what an unlisted key reads as removes the pair. -/
def sset {α : Type} [DecidableEq α] (d : Nat → α) (m : Store α) (k : Nat) (v : α) : Store α :=
  if v = d k then sdel m k else sput m k v

/-- Apply `f` to the value at key `k`. -/
def smod {α : Type} [DecidableEq α] (d : Nat → α) (m : Store α) (k : Nat) (f : α → α) : Store α :=
  sset d m k (f (sget d m k))

/-- Every key of `m` lies above `b`, and the keys rise strictly. -/
def skeysAbove {α : Type} : Nat → Store α → Bool
  | _, [] => true
  | b, (j, _) :: r => decide (b < j) && skeysAbove j r

/-- The canonical form: keys strictly rising, no pair equal to what its key reads as when unlisted. -/
def swf {α : Type} [DecidableEq α] (d : Nat → α) (m : Store α) : Bool :=
  (match m with
   | [] => true
   | (j, _) :: r => skeysAbove j r) && m.all (fun e => decide (e.2 ≠ d e.1))

/-- Keys of the listed pairs for which `p` holds, in rising order. -/
def skeys {α : Type} (m : Store α) (p : Nat → α → Bool) : List Nat :=
  (m.filter (fun e => p e.1 e.2)).map (·.1)

/-- The number of listed pairs for which `p` holds. -/
def scount {α : Type} (m : Store α) (p : Nat → α → Bool) : Nat :=
  (m.filter (fun e => p e.1 e.2)).length

/-- What every unlisted byte of a memory reads as: 0. -/
def zeroByte (_ : Nat) : BitVec 8 := 0

end Sys2Proof.Machine
end

