-- ==== Sys2Proof/Machine/Types.lean ====
section
/-! DEFINITION. The records that commands carry and that the state holds: owners, egresses, events of the intake,
sheaf entries, program images, frames as the ports see them, and what the module sends out. -/
namespace Sys2Proof.Machine
open Sys2Proof

/-- The ordering codes of R1. -/
inductive OrderCode where
  | m8e | m9a | mx
  deriving DecidableEq, Repr

/-- The owner of a handle (R161), and of a sheaf context (R83, where `session` does not occur). -/
inductive Owner where
  | engine (l : Nat)
  | session (s : Nat)
  | firmware
  | module
  deriving DecidableEq, Repr

/-- Where a copy of a calendar entry leaves (R305, R307). `noEgress`: a ring that is not enabled (R570). -/
inductive Egress where
  | port (n : Nat)
  | radio (j : Nat)
  | can (c : Nat)
  | chain (n : Nat)
  | stage (n : Nat)
  | noEgress
  deriving DecidableEq, Repr

/-- The states of a copy in the launch calendar (R305). -/
inductive CopySt where
  | waiting | fetched | armed | unarmed | left
  deriving DecidableEq, Repr

/-- The states of a handle (R162). FREE and COMPLETING included. -/
inductive HSt where
  | free | placed | awaiting | held | completing
  deriving DecidableEq, Repr

/-- The states of a sheaf context, coded as FE_SHF_STATUS.STATE in this order (R72, R83). -/
inductive CtxSt where
  | free | opened | checking | checked | failed | committing | pending | applying
  deriving DecidableEq, Repr

/-- One staged entry of a sheaf (R71). -/
structure ShfEntry where
  space : Nat
  addr : Word
  mask : Word
  data : Word
  deriving DecidableEq, Repr

/-- A program image (R123): the header fields the module uses, and the body's words (code, then data). -/
structure Image where
  entry : Nat
  codeWords : Nat
  dataAt : Nat
  body : List Word
  deriving DecidableEq, Repr

/-- A committed sheaf in the configuration journal, with the SHA-256 digest over its entries (R75, R76). -/
structure Committed where
  seq : Nat
  timed : Bool
  when_ : Stamp
  entries : List ShfEntry
  images : List (Nat × Image)
  digest : List Byte
  deriving DecidableEq, Repr

/-- A region of the flash (R322, R325). -/
inductive FlashRegion where
  | log | journal | checkpoint
  | image (n : Fin 2)
  deriving DecidableEq, Repr, Inhabited

/-- What a CKPT frame carries (R336): a sheaf's journal entry; a delta of 64-byte lines of field memory, slot generations
that changed and the highest sheaf number (`all`: the generation of every slot that the sender has not changed since,
when a takeover has advanced them all); a part of a snapshot, its first or last or neither, with the generation of every
slot that it does not list, and the applied images. -/
inductive CkptPart where
  | journal (entry : Committed)
  | delta (lines : List (Nat × List Byte)) (all : Option Nat) (gens : List (Nat × Nat)) (sheaf : Nat)
  | snapshot (first last : Bool) (lines : List (Nat × List Byte)) (base : Nat) (gens : List (Nat × Nat))
      (images : List (Nat × Image))
  deriving DecidableEq, Repr

/-- An intake event (R58). `lead` is word 1 below GEN: the endpoint index, or the field I/O channel. -/
structure IEvent where
  kind : Nat
  unknown : Bool
  dup : Bool
  step : Nat
  gen : Nat
  lead : Nat
  time : Stamp
  p5 : Word
  p6 : Word
  p7 : Word
  deriving DecidableEq, Repr

/-- The body of a field command (R116) with its payload. -/
structure CmdBody where
  code : Nat
  noReply : Bool
  epoch : Nat
  handle : Word
  eui : Eui
  level : Nat
  ramp : Nat
  arg : Word
  gen : Nat
  payload : List Byte
  deriving DecidableEq, Repr

/-- A reply frame's body as the module reads it (R163): the handle answered, the sender's EUI-64, whether the endpoint
accepted, its code, the level in force and the control epoch it has seen. -/
structure Reply where
  handle : Word
  eui : Eui
  accepted : Bool
  result : Word
  level : Nat
  epoch : Nat
  deriving DecidableEq, Repr

/-- An EVENT frame's body as the module reads it: the sender's EUI-64, KIND and payload words 5–7. -/
structure EvBody where
  eui : Eui
  kind : Nat
  p5 : Word
  p6 : Word
  p7 : Word
  deriving DecidableEq, Repr

/-- The regions of a ledger bank (R507). -/
inductive LdgRegion where
  | lifeCycle
  | summaries
  | spares
  | boot
  | metering
  | checkpoint
  | counters
  | production
  deriving DecidableEq, Repr

/-- The tag of a ledger entry: which fact it holds (R507; the tags and the places of facts that R507 does not name are the
model's, assumption 32). -/
inductive LdgTag where
  | intent
  | lcState
  | recipes
  | helper
  | tampers
  | summary (n : Nat)
  | retired (cls el : Nat)
  | plane (k : Nat)
  | wear
  | boot (n : Nat)
  | totals (slot : Nat)
  | sheaf (seq : Nat)
  | checkpoint
  | epoch
  | cycles
  | opMs
  | seqBlock
  | radBlock (j : Nat)
  | utcoff
  | imgSlot (n : Nat)
  | activation
  | policy
  | powerFail
  | identity
  | gaugeCurve
  | calibration
  deriving DecidableEq, Repr

/-- A ledger entry: its tag and the bytes of its body (R508). -/
structure LdgEntry where
  tag : LdgTag
  body : List Byte
  deriving DecidableEq, Repr

/-- An entry that waits to be written, with the access cycle in which it arrived, and whether bank 0's commit word has been
written (R508). -/
structure LdgWrite where
  cycle : Nat × Nat
  entry : LdgEntry
  began : Bool
  deriving DecidableEq, Repr

/-- The copies of an entry that have lost their content at a start (R510). -/
structure LdgLoss where
  tag : LdgTag
  bank0 : Bool
  bank1 : Bool
  deriving DecidableEq, Repr

/-- A copy of an entry in a bank, with its header: write sequence, CRC-32C, commit word (R508). Its length is its body's. -/
structure LdgCopy where
  entry : LdgEntry
  seq : Nat
  crc : Word
  commit : Bool
  deriving DecidableEq, Repr

/-- An entry of the measured-boot ring: the image's hash, its slot, the sequence number of the power cycle's BOOT record
(R349, R507). -/
structure BootEntry where
  hash : BitVec 384
  slot : Nat
  seq : Nat
  deriving DecidableEq, Repr

/-- A record offered to the recorder (R491, R495). -/
structure Offer where
  code : Nat
  sev : Nat
  source : Nat
  body : List Word
  deriving DecidableEq, Repr

/-- A frame as it crosses a port (R192–R203, R270): an identity that stands for its content, its length in bytes with
FCS and tags, addresses, the TCI of an 802.1Q tag, the sequence number of an HSR tag and whether the LSDU size in it
matches, the EtherType after the tags, the DSCP and ECN codepoint of an IPv4 or IPv6 frame and the header checksum of an
IPv4 frame. `badFcs`: its FCS is bad or it contains an uncorrectable codeword (R264); `early`: an uncorrectable codeword or
decode error lies within its first 256 bytes (R210). `body`: what follows the EtherType of a frame whose content the model
makes or reads; the identity stands for that of any other. -/
structure Frame where
  id : Nat
  len : Nat
  dst : Mac
  src : Mac
  tci : Option (BitVec 16)
  hsr : Option (BitVec 16)
  lsduOk : Bool
  etype : BitVec 16
  dscp : Option (BitVec 6)
  ecn : BitVec 2
  ipSum : Option (BitVec 16)
  badFcs : Bool
  early : Bool
  body : List Byte
  deriving DecidableEq, Repr

/-- An HSR tag as the module sends it (R270, R273). -/
structure HsrTag where
  pathId : Nat
  lsdu : Nat
  seq : Nat
  deriving DecidableEq, Repr

/-- A frame as it leaves: the port, or 256 + p for the control port at plot p; length, class, addresses, EtherType, the TCI
and the HSR tag sent, in the order in which they stand after the source address; DSCP, ECN codepoint and IPv4 checksum; the
body; the originTimestamp that the egress wrote into a Sync message (R303); the receive stamp and step epoch of a PTP message
for the control port (R302); whether it was marked CE here (R235), whether its FCS was inverted (R211). -/
structure FrameOut where
  port : Nat
  id : Nat
  len : Nat
  cls : Nat
  dst : Mac
  src : Mac
  tci : Option Nat
  hsr : Option HsrTag
  etype : BitVec 16
  dscp : Option (BitVec 6)
  ecn : BitVec 2
  ipSum : Option (BitVec 16)
  body : List Byte
  origin : Option Stamp
  rxStamp : Option (Stamp × Nat)
  marked : Bool
  stomped : Bool
  deriving DecidableEq, Repr

/-- What owns a cell of a plot: the free list, a stored frame by its number, the replication region, the reassembly slot of
a node (R249). -/
inductive CellOwner where
  | free
  | frame (fid : Nat)
  | repl
  | rsm (node : Nat)
  deriving DecidableEq, Repr

/-- Which frame holds a cell that shows an error (R320): one stored at its ingress, or the copy of one that waits at egress node
`node` in a reassembly slot, or for that node and others in the replication region of its plot. -/
inductive CellHit where
  | stored (fid : Nat)
  | copy (fid node : Nat)
  deriving DecidableEq, Repr

/-- A cell's owner tag and its allocation generation (R249). -/
structure CellTag where
  owner : CellOwner
  gen : Nat
  deriving DecidableEq, Repr

/-- What an upset of the queue state does to a cell of a plot: its tag changes, every structure that lists it loses it, or a
structure lists it as well (R250, R252). -/
inductive Upset where
  | tag (cell : Nat) (t : CellTag)
  | unlist (cell : Nat)
  | list (cell : Nat) (o : CellOwner)
  deriving DecidableEq, Repr

/-- Where a frame enters the fabric: a port, or a plot's attachment of the control port with the port it is for when the
bridge is not to choose one, and the ID of its transmit stamp (R192, R194, R302, R303). `sync`: it is a Sync message. -/
inductive Ingress where
  | port (n : Fin 256)
  | control (plot : Fin 8) (port : Option (Fin 256)) (stampId : Option (BitVec 16)) (sync : Bool)
  deriving DecidableEq, Repr

/-- What the receiver of a port reports (R261, R264): aligned, and its fault signals. -/
structure Receiver where
  aligned : Bool
  los : Bool
  localFault : Bool
  remoteFault : Bool
  deriving DecidableEq, Repr

/-- A source of network time that ends an interval (R300): the PTP master on a port, with its profile (the telecom profile of
G.8275.1 or the default one) and its domain (R296); or the 1PPS input. -/
inductive TimeSource where
  | ptp (n : Fin 256) (telecom : Bool) (domain : Byte)
  | pps
  deriving DecidableEq, Repr

/-- A PTP master heard on a port (R296): the data set of its latest Announce message, with its sender's port identity, the
interval at which it sends them in ticks of operating time, and when the latest two came. -/
structure PtpMaster where
  port : Nat
  domain : Nat
  sender : Nat
  priority1 : Nat
  clockClass : Nat
  accuracy : Nat
  variance : Nat
  priority2 : Nat
  grandmaster : Nat
  steps : Nat
  interval : Nat
  heard : Nat
  before : Option Nat
  deriving DecidableEq, Repr

/-! ## The queue unit -/

/-- The instances of the queue unit (R177): the intake, the completion queue of a session, the bulk queue of a CAN channel, the
UART FIFOs, the feeder queue of an indicator chain. -/
inductive Qu where
  | intake
  | cpl (s : Nat)
  | bulk (c : Nat)
  | uartRx
  | uartTx
  | feed (n : Nat)
  deriving DecidableEq, Repr

/-! ## Messages -/

/-- The form of a GET_INFO: its body is well formed, or not, or the REQUEST has an opcode that R171 does not list (R173). -/
inductive InfoForm where
  | good | malformed | unlisted
  deriving DecidableEq, Repr

/-- A version 1 message of a session (R176): IDENTIFY, or, with `other`, one whose opcode R176 does not name. -/
structure V1Message where
  session : Fin 16
  other : Bool
  deriving DecidableEq, Repr

/-- Epoch and sequence number of a pair frame (R331). -/
structure PairHead where
  epoch : BitVec 32
  seq : BitVec 32
  deriving DecidableEq, Repr

/-- A frame of an endpoint on a ring port (R567, R568): source address, VLAN ID, 0 when untagged, body. -/
structure EndFrame where
  src : Mac
  vid : BitVec 12
  body : List Byte
  deriving DecidableEq, Repr

/-! ## TLS -/

/-- What a client offers in a TLS handshake (R167): the newest version of TLS, whether it goes on only with a pre-shared key (to
resume a session, or to send early data), cipher suite, key exchange group, signature scheme, and its certificate, when it sends
one: the bytes signed and the signature. -/
structure Handshake where
  version : BitVec 16
  psk : Bool
  suite : BitVec 16
  group : BitVec 16
  scheme : BitVec 16
  cert : Option (List Byte × List Byte)
  deriving DecidableEq, Repr

/-- Where a TCP connection comes in (R167): a port, with the VLAN of its frames, or the service port. -/
inductive Access where
  | port (n : Fin 256) (vid : BitVec 12)
  | service
  deriving DecidableEq, Repr

/-- A TLS handshake message from a client (R167): an offer on a new connection to a TCP port, or a KeyUpdate on the connection
of a session, with whether it asks for one in return. -/
inductive TlsMessage where
  | offer (via : Access) (tcp : BitVec 16) (h : Handshake)
  | keyUpdate (session : Fin 16) (asked : Bool)
  deriving DecidableEq, Repr

/-! ## Edge frames and images -/

/-- A CAN frame as it stands on the bus (R443): format bits, data length code, identifier, data, none in a remote frame. -/
structure CanFrame where
  fdf : Bool
  brs : Bool
  esi : Bool
  ide : Bool
  rtr : Bool
  dlc : BitVec 4
  ident : BitVec 29
  data : List Byte
  deriving DecidableEq, Repr

/-- How an attempt to send a CAN frame ends (R449, R450, R458): sent with its stamp, arbitration lost, or an error with its
LEC code, whether it is the stuff error in arbitration that ISO 11898-1 exempts, and how often the channel then met a bit error
in its own error flag or eight more dominant bits; or sent, with an overload flag after it, whether that met a bit error, and how
often eight more dominant bits followed. -/
inductive CanOutcome where
  | sent (stamp : Word)
  | lost
  | error (lec : Fin 7) (arb : Bool) (more : Nat)
  | overload (stamp : Word) (bit : Bool) (more : Nat)
  deriving DecidableEq, Repr

/-- The QL of an ESMC that the module sends (R297): a selected source's code as TIME_SYNCE_STATUS shows it, QL-DNU, QL-eEEC. -/
inductive EsmcQl where
  | source (code : Nat)
  | dnu
  | eEec
  deriving DecidableEq, Repr

/-- What leaves the module, as an observer outside sees it. The list of these in `State` is the model's own. -/
inductive Out where
  /-- An FCP2 message to a session: type, code, tag, handle, body (R167–R175). -/
  | fcp2 (session type code tag : Nat) (handle : Word) (body : List Byte)
  /-- A version 1 response (R176). -/
  | v1 (session status : Nat) (body : List Byte)
  /-- A TLS alert or the end of a handshake (R167). -/
  | tls (established : Bool) (alert : Nat)
  /-- A KeyUpdate on the connection of a session (R167). -/
  | keyUpdate (session : Nat)
  /-- The image service's answer of 8 bytes, after which it closes the connection (R545). -/
  | imageAnswer (body : List Byte)
  /-- A frame transmitted on a port, or delivered to the control port. -/
  | frame (f : FrameOut)
  /-- The frame in transmission on a port is cut off and lost (R262): port, the frame's identity. -/
  | cut (port id : Nat)
  /-- An ESMC on a port with its QL (R297). -/
  | esmc (port : Nat) (ql : EsmcQl)
  /-- The 1PPS output pulse and the ToD message after it (R298, R299). -/
  | pps (width : Nat) (tod : Option (List Byte))
  /-- A radio transmission or beacon. -/
  | radio (transceiver : Nat) (chan : Nat) (dest : Nat) (body : List Byte)
  /-- A CAN frame sent on a channel. -/
  | can (channel : Nat) (frame : CanFrame)
  /-- A UART character sent on the service port. -/
  | uart (ch : Byte)
  /-- A PWM period of a string stage: its counts on, the amplitude k of CURRENT, and whether the stage holds the largest current
  that it can deliver up to that (R463, R464). -/
  | pwm (stage counts k : Nat) (limited : Bool)
  /-- LAT rises on a chain with these words, element 0 first (R466). -/
  | latch (chain : Nat) (words : List Word)
  /-- The field I/O outputs as driven (R460). -/
  | outputs (value : Nat)
  deriving DecidableEq, Repr

end Sys2Proof.Machine
end

