-- ==== Sys2Proof/Syntax.lean ====
section
/-! DEFINITION. The commands of the module: one constructor for each row of the command table, in its order, with the row's
operands. An operand is what the sender of the command, or the world outside, decides. -/
namespace Sys2Proof
open Sys2Proof.Machine

inductive Instr where
  /-- A write to a register that has no row of its own takes effect according to its access code (R10). -/
  | registerWrite (a : Addr) (v : Word)
  /-- An unaligned or narrower access to the register region completes without effect, reads 0 and sets
  SYS_BUS_ERR.ALIGN; outside it the access moves its bytes (R11, R36). `store` is the data of a store. -/
  | unalignedAccess (a : Addr) (bytes : Fin 65) (store : Option (BitVec 512))
  /-- An aligned access to an undecoded register address reads 0 or is discarded and sets SYS_BUS_ERR.UNMAPPED (R12). -/
  | unmappedAccess (a : Addr) (write : Bool) (v : Word)
  /-- A core access to an undecoded memory address raises an access fault and sets UNMAPPED (R36). -/
  | unmappedMemoryAccess (core : Nat) (a : Addr) (write : Bool)
  /-- A store to the boot ROM raises a store access fault and changes nothing (R36). -/
  | bootRomStore (core : Nat) (a : Addr)
  /-- A read of an RC field returns its value and clears it, or sets a PEAK field to the current level (R16). -/
  | rcRead (a : Addr)
  /-- A read of the low word of a 64-bit pair captures the high word into a shadow marked unread (R17). -/
  | pairLowRead (a : Addr)
  /-- A read of the high word returns the unread shadow or the current high word (R17). -/
  | pairHighRead (a : Addr)
  /-- A write of the low word is held until the high word is written (R17). -/
  | pairLowWrite (a : Addr) (v : Word)
  /-- A write of the high word makes it take effect together with the held or current low word (R17). -/
  | pairHighWrite (a : Addr) (v : Word)
  /-- A direct write to an SO register is discarded and sets SYS_BUS_ERR.SO_WRITE (R18). -/
  | soRegisterWrite (a : Addr) (v : Word)
  /-- A write through the FMEM window is accepted or discarded by region and engine state, setting SO_WRITE when
  discarded (R26). -/
  | fmemWindowWrite (w : BitVec 24) (v : Word)
  /-- A register access not acknowledged across a bridge within 1 µs completes without effect and clears the domain's
  OK bit (R30). -/
  | bridgeTimeout (a : BitVec 40) (write : Bool)
  /-- A domain's clock has run 1,024 cycles and its bridge has handshaken both ways, so its SYS_DOMAIN_OK bit sets (R40). -/
  | domainUp (d : Fin 18)
  /-- A domain's clock stops for more than 4 periods, its OK bit clears and a DOMAIN_LOSS event is recorded (R40). -/
  | domainLoss (d : Fin 18)
  /-- The main input has stayed at or above 43 V for 10 ms and start-up begins (R346). -/
  | inputValid
  /-- The regulators come up in order and the power-cycle count is committed to the ledger (R348). -/
  | regulatorsUp
  /-- The boot ROM selects and verifies a firmware image slot and writes the measured-boot hash (R349). -/
  | bootImageSelect
  /-- SDRAM training completes, the ledger is read and the spare inventory is rebuilt (R348). -/
  | sdramTrained (lost : List LdgLoss) (err : BitVec 2)
  /-- The control domain is up with all four cores running firmware and CTRL_UP set (R348). -/
  | ctrlUp (puf : Bool)
  /-- D2 locks and the time base is loaded from the RTC calendar plus the saved UTC offset (R350). -/
  | timeBaseLoad
  /-- The journal, field memory and checkpoint are restored and committed sheaves are applied or restored as pending (R76). -/
  | stateRestore
  /-- Lighting control is running and LIGHT_RUN is set (R348). -/
  | lightRun
  /-- Plot self-tests complete, every plot enters RUN or DEGRADED and enabled ports enter ACQUIRE (R348). -/
  | plotSelfTestDone
  /-- Every enabled ring port is UP and sending supervision, and FWD_RUN is set (R348). -/
  | fwdRun
  /-- An engine stopped by a program exception is restarted 1 ms later with a RESTART event at the head of its list (R63). -/
  | engineRestart (p : Fin 18)
  /-- A hardware-origin engine error sets HW_EXC, records FE_EXCEPTION and starts a harrow pass on the engine; one that names no
  address is correctable and is only counted (R64). -/
  | hwException (p : Fin 18) (k : Fin 4) (addr : Option Word)
  /-- A record's qualifying-time accumulator reaches 60 s and OP_MIN increments (R50). -/
  | opMinIncrement (i : Fin 131072)
  /-- FE_CMD RUN starts or resumes an engine at FE_PC (R68). -/
  | feCmdRun (p : Fin 18)
  /-- FE_CMD HALT stops an engine at the next instruction boundary, ending a blocked WAIT without taking an event (R69). -/
  | feCmdHalt (p : Fin 18)
  /-- FE_CMD STEP executes one instruction and halts (R68). -/
  | feCmdStep (p : Fin 18)
  /-- FE_CMD RESET reloads the engine from its image and halts at the entry point (R68). -/
  | feCmdReset (p : Fin 18)
  /-- A write of FE_CFG.DEBUG takes effect only in life-cycle state SERVICE (R66). -/
  | debugEnable (p : Fin 18)
  /-- A write to FE_PC takes effect only while halted with DEBUG set (R68). -/
  | fePcWrite (p : Fin 18) (v : Word)
  /-- A write to FE_DBG_DATA sets the selected architectural register under debug (R68). -/
  | feDbgDataWrite (p : Fin 18) (v : DWord)
  /-- A read of FE_LS_DATA returns the local-store word and increments the word address (R68). -/
  | feLsDataRead (p : Fin 18)
  /-- A write to FE_LS_DATA changes the running local store under debug and increments the word address (R67). -/
  | feLsDataWrite (p : Fin 18) (v : Word)
  /-- An engine reaching an enabled breakpoint address halts before executing it and sets BRK (R68). -/
  | breakpointHalt (p : Fin 18)
  /-- The OPEN sheaf command takes a FREE context for the owner (R72). -/
  | feShfOpen
  /-- A write to FE_SHF_DATA stages one entry in the selected context or refuses it with POOL_FULL (R72). -/
  | feShfDataWrite (data : Word)
  /-- The CHECK sheaf command starts the check of an OPEN context (R72). -/
  | feShfCheck
  /-- The APPLY sheaf command commits a CHECKED context or refuses it with ORDER, FAR or NOT_CHECKED, rechecking after
  a newer commit (R72). -/
  | feShfApply
  /-- The DISCARD sheaf command frees an OPEN, CHECKED or FAILED context (R72). -/
  | feShfDiscard
  /-- A sheaf check finishes and the context becomes CHECKED, FAILED or COMMITTING (R73). -/
  | checkComplete (c : Fin 8)
  /-- A sheaf's journal and ledger commit flag are written and it becomes APPLYING or PENDING (R75). -/
  | sheafCommit (c : Fin 8)
  /-- The register shadows of a pending sheaf finish loading, applying it if its instant has passed (R80). -/
  | shadowLoadDone (c : Fin 8)
  /-- At a sheaf's apply instant engines are held, entries take effect, images load and SHEAF_APPLIED is posted (R78). -/
  | sheafApplyInstant (c : Fin 8)
  /-- ADD writes the sum of two working registers (R95). -/
  | add (p : Fin 18) (ps : Fin 8) (rd ra rb : Fin 32)
  /-- SUB writes the difference of two working registers (R95). -/
  | sub (p : Fin 18) (ps : Fin 8) (rd ra rb : Fin 32)
  /-- AND writes the bitwise and of two registers (R95). -/
  | and (p : Fin 18) (ps : Fin 8) (rd ra rb : Fin 32)
  /-- OR writes the bitwise or of two registers (R95). -/
  | or (p : Fin 18) (ps : Fin 8) (rd ra rb : Fin 32)
  /-- XOR writes the bitwise exclusive or of two registers (R95). -/
  | xor (p : Fin 18) (ps : Fin 8) (rd ra rb : Fin 32)
  /-- ANDN writes wa and not wb (R95). -/
  | andn (p : Fin 18) (ps : Fin 8) (rd ra rb : Fin 32)
  /-- SLL shifts left by the low six bits of wb (R95). -/
  | sll (p : Fin 18) (ps : Fin 8) (rd ra rb : Fin 32)
  /-- SRL shifts right logically (R95). -/
  | srl (p : Fin 18) (ps : Fin 8) (rd ra rb : Fin 32)
  /-- SRA shifts right arithmetically (R95). -/
  | sra (p : Fin 18) (ps : Fin 8) (rd ra rb : Fin 32)
  /-- MUL writes the low 64 bits of the product (R95). -/
  | mul (p : Fin 18) (ps : Fin 8) (rd ra rb : Fin 32)
  /-- MULH writes the high 64 bits of the signed product (R95). -/
  | mulh (p : Fin 18) (ps : Fin 8) (rd ra rb : Fin 32)
  /-- MULHU writes the high 64 bits of the unsigned product (R95). -/
  | mulhu (p : Fin 18) (ps : Fin 8) (rd ra rb : Fin 32)
  /-- DIV writes the signed quotient with the defined division-by-zero and overflow results (R96). -/
  | div (p : Fin 18) (ps : Fin 8) (rd ra rb : Fin 32)
  /-- DIVU writes the unsigned quotient (R96). -/
  | divu (p : Fin 18) (ps : Fin 8) (rd ra rb : Fin 32)
  /-- REM writes the signed remainder (R96). -/
  | rem (p : Fin 18) (ps : Fin 8) (rd ra rb : Fin 32)
  /-- REMU writes the unsigned remainder (R96). -/
  | remu (p : Fin 18) (ps : Fin 8) (rd ra rb : Fin 32)
  /-- MIN writes the signed minimum (R95). -/
  | min (p : Fin 18) (ps : Fin 8) (rd ra rb : Fin 32)
  /-- MAX writes the signed maximum (R95). -/
  | max (p : Fin 18) (ps : Fin 8) (rd ra rb : Fin 32)
  /-- MINU writes the unsigned minimum (R95). -/
  | minu (p : Fin 18) (ps : Fin 8) (rd ra rb : Fin 32)
  /-- MAXU writes the unsigned maximum (R95). -/
  | maxu (p : Fin 18) (ps : Fin 8) (rd ra rb : Fin 32)
  /-- CLAMP limits wd between wlo and whi (R96). -/
  | clamp (p : Fin 18) (ps : Fin 8) (rd ra rb : Fin 32)
  /-- POPC counts the 1 bits of a register (R95). -/
  | popc (p : Fin 18) (ps : Fin 8) (rd ra : Fin 32)
  /-- CLZ counts leading zero bits (R95). -/
  | clz (p : Fin 18) (ps : Fin 8) (rd ra : Fin 32)
  /-- CTZ counts trailing zero bits (R95). -/
  | ctz (p : Fin 18) (ps : Fin 8) (rd ra : Fin 32)
  /-- LI loads a sign-extended immediate (R97). -/
  | li (p : Fin 18) (ps : Fin 8) (rd : Fin 32) (imm : BitVec 16)
  /-- LIS shifts wd left 16 bits and ors in an immediate (R97). -/
  | lis (p : Fin 18) (ps : Fin 8) (rd : Fin 32) (imm : BitVec 16)
  /-- ADDI adds a sign-extended immediate (R97). -/
  | addi (p : Fin 18) (ps : Fin 8) (rd : Fin 32) (imm : BitVec 16)
  /-- ANDI ands a zero-extended immediate (R97). -/
  | andi (p : Fin 18) (ps : Fin 8) (rd : Fin 32) (imm : BitVec 16)
  /-- ORI ors a zero-extended immediate (R97). -/
  | ori (p : Fin 18) (ps : Fin 8) (rd : Fin 32) (imm : BitVec 16)
  /-- XORI exclusive-ors a zero-extended immediate (R97). -/
  | xori (p : Fin 18) (ps : Fin 8) (rd : Fin 32) (imm : BitVec 16)
  /-- SLLI shifts left by an immediate count (R97). -/
  | slli (p : Fin 18) (ps : Fin 8) (rd : Fin 32) (imm : Fin 64)
  /-- SRLI shifts right logically by an immediate count (R97). -/
  | srli (p : Fin 18) (ps : Fin 8) (rd : Fin 32) (imm : Fin 64)
  /-- SRAI shifts right arithmetically by an immediate count (R97). -/
  | srai (p : Fin 18) (ps : Fin 8) (rd : Fin 32) (imm : Fin 64)
  /-- MULI multiplies by a sign-extended immediate (R97). -/
  | muli (p : Fin 18) (ps : Fin 8) (rd : Fin 32) (imm : BitVec 16)
  /-- MINI takes the signed minimum with an immediate (R97). -/
  | mini (p : Fin 18) (ps : Fin 8) (rd : Fin 32) (imm : BitVec 16)
  /-- MAXI takes the signed maximum with an immediate (R97). -/
  | maxi (p : Fin 18) (ps : Fin 8) (rd : Fin 32) (imm : BitVec 16)
  /-- CMP compares two registers and writes a predicate and optionally its complement (R98). -/
  | cmp (p : Fin 18) (ps : Fin 8) (cond : Fin 16) (pd pn : Fin 8) (ra rb : Fin 32)
  /-- CMPI compares a register with a 10-bit immediate and writes predicates (R98). -/
  | cmpi (p : Fin 18) (ps : Fin 8) (cond : Fin 4) (pd pn : Fin 8) (rd : Fin 32) (imm : BitVec 10)
  /-- PLOG AND combines two predicates (R98). -/
  | plogAnd (p : Fin 18) (ps pd pa pb : Fin 8)
  /-- PLOG OR combines two predicates (R98). -/
  | plogOr (p : Fin 18) (ps pd pa pb : Fin 8)
  /-- PLOG XOR combines two predicates (R98). -/
  | plogXor (p : Fin 18) (ps pd pa pb : Fin 8)
  /-- PLOG ANDN writes pa and not pb (R98). -/
  | plogAndn (p : Fin 18) (ps pd pa pb : Fin 8)
  /-- PLOG NOT writes the complement of pa (R98). -/
  | plogNot (p : Fin 18) (ps pd pa : Fin 8)
  /-- PLOG SET writes 1 to a predicate (R98). -/
  | plogSet (p : Fin 18) (ps pd : Fin 8)
  /-- PLOG CLR writes 0 to a predicate (R98). -/
  | plogClr (p : Fin 18) (ps pd : Fin 8)
  /-- B jumps to a PC-relative target or raises PC_RANGE (R99). -/
  | b (p : Fin 18) (ps : Fin 8) (off : BitVec 21)
  /-- CALL writes the return address into w31 and jumps (R99). -/
  | call (p : Fin 18) (ps : Fin 8) (off : BitVec 21)
  /-- LDL loads from local store (R100). -/
  | ldl (p : Fin 18) (ps : Fin 8) (z : Fin 4) (rd ra : Fin 32) (off : Fin 64)
  /-- STL stores to local store (R100). -/
  | stl (p : Fin 18) (ps : Fin 8) (z : Fin 4) (rb ra : Fin 32) (off : Fin 64)
  /-- LDF loads from field memory (R100). -/
  | ldf (p : Fin 18) (ps : Fin 8) (z : Fin 4) (rd ra : Fin 32) (off : Fin 64)
  /-- STF stores to field memory under the writer rules, raising FIELD_RO on protected bits (R102). -/
  | stf (p : Fin 18) (ps : Fin 8) (z : Fin 4) (rb ra : Fin 32) (off : Fin 64)
  /-- LDE reads a bit field of the record under a cursor (R104). -/
  | lde (p : Fin 18) (ps : Fin 8) (rd : Fin 32) (ec : Fin 4) (word lsb wm1 : Fin 32) (sx : Bool)
  /-- STE writes a bit field of a valid record indivisibly (R104). -/
  | ste (p : Fin 18) (ps : Fin 8) (rb : Fin 32) (ec : Fin 4) (word lsb wm1 : Fin 32)
  /-- ECUR loads a cursor from a register (R106). -/
  | ecur (p : Fin 18) (ps : Fin 8) (ec : Fin 4) (ra : Fin 32)
  /-- ECUR.G loads a cursor with the record's current generation (R106). -/
  | ecurG (p : Fin 18) (ps : Fin 8) (ec : Fin 4) (ra : Fin 32)
  /-- ERD reads a cursor into a register (R106). -/
  | erd (p : Fin 18) (ps : Fin 8) (rd : Fin 32) (ec : Fin 4)
  /-- LDR copies a whole record to local store as of one moment (R106). -/
  | ldr (p : Fin 18) (ps : Fin 8) (ec : Fin 4) (ra : Fin 32)
  /-- SCAN.ROW moves a cursor to the head of a row (R107). -/
  | scanRow (p : Fin 18) (ps pd : Fin 8) (ec : Fin 4) (ra : Fin 32)
  /-- SCAN.NEXT moves a cursor to the next member of its row (R107). -/
  | scanNext (p : Fin 18) (ps pd : Fin 8) (ec : Fin 4)
  /-- SCAN.GRP moves a cursor to the next member of a group (R107). -/
  | scanGrp (p : Fin 18) (ps pd : Fin 8) (ec : Fin 4) (ra : Fin 32)
  /-- GRP.SET sets an endpoint's bit in a group (R108). -/
  | grpSet (p : Fin 18) (ps : Fin 8) (rg ri : Fin 32)
  /-- GRP.CLR clears an endpoint's bit in a group (R108). -/
  | grpClr (p : Fin 18) (ps : Fin 8) (rg ri : Fin 32)
  /-- GRP.TST tests an endpoint's bit in a group (R108). -/
  | grpTst (p : Fin 18) (ps pd : Fin 8) (rg ri : Fin 32)
  /-- GRP.CNT counts the members of a group (R108). -/
  | grpCnt (p : Fin 18) (ps : Fin 8) (rd rg : Fin 32)
  /-- GRP.OR writes the union of two groups (R108). -/
  | grpOr (p : Fin 18) (ps : Fin 8) (rd ra rb : Fin 32)
  /-- GRP.AND writes the intersection of two groups (R108). -/
  | grpAnd (p : Fin 18) (ps : Fin 8) (rd ra rb : Fin 32)
  /-- GRP.ANDN writes one group less another (R108). -/
  | grpAndn (p : Fin 18) (ps : Fin 8) (rd ra rb : Fin 32)
  /-- GRP.COPY copies a group (R108). -/
  | grpCopy (p : Fin 18) (ps : Fin 8) (rd ra : Fin 32)
  /-- GRP.CLRALL empties a group (R108). -/
  | grpClrall (p : Fin 18) (ps : Fin 8) (rd : Fin 32)
  /-- DIMC.P2C converts a level to the nearest dim code (R109). -/
  | dimcP2c (p : Fin 18) (ps : Fin 8) (rd ra : Fin 32)
  /-- DIMC.C2P converts a dim code to its level (R109). -/
  | dimcC2p (p : Fin 18) (ps : Fin 8) (rd ra : Fin 32)
  /-- TNOW reads the time base into a time register tagged with the step epoch (R110). -/
  | tnow (p : Fin 18) (ps : Fin 8) (td : Fin 4)
  /-- TMOV copies a time register (R110). -/
  | tmov (p : Fin 18) (ps : Fin 8) (td ta : Fin 4)
  /-- TADD adds a signed count of a unit to a time value (R110). -/
  | tadd (p : Fin 18) (ps : Fin 8) (td ta : Fin 4) (ra : Fin 32) (unit : Fin 5)
  /-- TDIFF writes the difference of two times in a unit (R110). -/
  | tdiff (p : Fin 18) (ps : Fin 8) (rd : Fin 32) (ta tb : Fin 4) (unit : Fin 5)
  /-- TTAG sets the tag of a time register (R110). -/
  | ttag (p : Fin 18) (ps : Fin 8) (td : Fin 4) (ra : Fin 32)
  /-- TGET reads one part of a time register (R110). -/
  | tget (p : Fin 18) (ps : Fin 8) (rd : Fin 32) (ta part : Fin 4)
  /-- TSET writes one part of a time register or raises TIME_RANGE (R110). -/
  | tset (p : Fin 18) (ps : Fin 8) (td : Fin 4) (ra : Fin 32) (part : Fin 4)
  /-- TCMP compares two time values or their tags into a predicate (R111). -/
  | tcmp (p : Fin 18) (ps : Fin 8) (cond : Fin 4) (pd : Fin 8) (ta tb : Fin 4)
  /-- TLD loads a time value from local store (R111). -/
  | tld (p : Fin 18) (ps : Fin 8) (td : Fin 4) (ra : Fin 32) (imm : BitVec 8)
  /-- TST stores a time value to local store (R111). -/
  | tst (p : Fin 18) (ps : Fin 8) (ta : Fin 4) (ra : Fin 32) (imm : BitVec 8)
  /-- SUN computes solar azimuth and elevation for an instant and site (R112). -/
  | sun (p : Fin 18) (ps : Fin 8) (ra : Fin 32) (ta : Fin 4)
  /-- WAIT takes the oldest event of the engine's list or blocks (R113). -/
  | wait (p : Fin 18) (ps pd : Fin 8) (ra rb : Fin 32)
  /-- An event arrives for an engine blocked in WAIT and WAIT takes it (R113). -/
  | waitResume (p : Fin 18)
  /-- A blocked WAIT's timeout ends and it completes with pd 0 (R113). -/
  | waitTimeout (p : Fin 18)
  /-- EMIT builds a field command, allocates a handle and places it in the launch calendar, or refuses it (R117). -/
  | emit (p : Fin 18) (ps pd : Fin 8) (rb ra : Fin 32) (ec tr : Fin 4)
  /-- DONE completes an open held handle of this engine with the given status (R119). -/
  | done (p : Fin 18) (ps pd : Fin 8) (ra rb : Fin 32)
  /-- STG stages one sheaf entry, opening a context when the engine has none (R120). -/
  | stg (p : Fin 18) (ps pd : Fin 8) (ra rb : Fin 32)
  /-- CHK checks the engine's context and blocks until it is CHECKED or FAILED (R120). -/
  | chk (p : Fin 18) (ps pd : Fin 8)
  /-- APL applies the engine's checked context on commit or at an instant (R120). -/
  | apl (p : Fin 18) (ps pd : Fin 8) (ra : Fin 32) (tr : Fin 4)
  /-- SDROP discards the engine's open context (R120). -/
  | sdrop (p : Fin 18) (ps pd : Fin 8)
  /-- NOP does nothing (R121). -/
  | nop (p : Fin 18) (ps : Fin 8)
  /-- FENCE waits until earlier field-memory stores are visible everywhere (R121). -/
  | fence (p : Fin 18) (ps : Fin 8)
  /-- TRAP raises exception TRAP with a 10-bit code (R121). -/
  | trap (p : Fin 18) (ps : Fin 8) (code : BitVec 10)
  /-- HALT enters HALTED and records FE_HALTED (R121). -/
  | halt (p : Fin 18) (ps : Fin 8)
  /-- RET jumps to the address in w31 (R121). -/
  | ret (p : Fin 18) (ps : Fin 8)
  /-- JR jumps to the address in a register (R121). -/
  | jr (p : Fin 18) (ps : Fin 8) (ra : Fin 32)
  /-- CALLR writes the return address and jumps to a register address (R121). -/
  | callr (p : Fin 18) (ps : Fin 8) (ra : Fin 32)
  /-- MFS reads a status or special register (R89). -/
  | mfs (p : Fin 18) (ps : Fin 8) (rd n : Fin 32)
  /-- MTS writes a scratch special register or raises ILLEGAL (R89). -/
  | mts (p : Fin 18) (ps : Fin 8) (n ra : Fin 32)
  /-- DOUT drives the field I/O outputs selected by a mask (R460). -/
  | dout (p : Fin 18) (ps : Fin 8) (ra : Fin 32)
  /-- A handle's reply timer expires and it completes with NO_REPLY, setting the record's NO_REPLY bit (R162). -/
  | replyTimeout (i : Fin 131072)
  /-- A completing handle's completion is delivered to its owner and the slot is freed (R170). -/
  | completionDeliver (i : Fin 131072)
  /-- A TLS 1.3 handshake on port 7460 completes within the supported subset or fails with an alert (R167). -/
  | tlsHandshake (m : TlsMessage)
  /-- A client's HELLO is answered with WELCOME carrying session, rights and role, or BUSY (R168). -/
  | hello (c : Nat) (v1 : Bool) (mask : Word)
  /-- No HELLO arrives within 10 s of the handshake and the connection is closed (R168). -/
  | helloTimeout (c : Nat)
  /-- After 30 s without a client message the module sends PING (R168). -/
  | pingSend (n : Fin 16)
  /-- A further 30 s pass without a client message and the session is closed (R168). -/
  | sessionTimeout (n : Fin 16)
  /-- A client PONG counts as a message and keeps the session open (R168). -/
  | pong (n : Fin 16)
  /-- A session closes and its open sheaf contexts are discarded (R168). -/
  | close (n : Fin 16) (malformed : Bool)
  /-- The last handle of a closed session completes and its session number is freed (R168). -/
  | sessionFree (n : Fin 16)
  /-- GET_INFO returns identity, role, epochs, sessions and handle use; the form also tells a REQUEST that carries no such command
  (R171, R173). -/
  | getInfo (n : Fin 16) (tag : Word) (form : InfoForm)
  /-- READ_REGS returns 1–256 register words read in ascending order (R171). -/
  | readRegs (n : Fin 16) (tag : Word) (bad : Bool) (a : DWord) (count : Word)
  /-- READ_FMEM returns field-memory bytes read word by word (R171). -/
  | readFmem (n : Fin 16) (tag : Word) (bad : Bool) (off len : Word)
  /-- GET_COUNTS returns clamp counts or handle use (R171). -/
  | getCounts (n : Fin 16) (tag : Word) (bad : Bool) (sel : Word)
  /-- HANDLE_STATUS returns a handle's state or STALE (R164). -/
  | handleStatus (n : Fin 16) (tag : Word) (bad : Bool) (h : Word)
  /-- SUBSCRIBE sets the session's event mask and returns the previous one (R171). -/
  | subscribe (n : Fin 16) (tag : Word) (bad : Bool) (mask : Word)
  /-- SHEAF_OPEN opens one sheaf context for the session (R171). -/
  | sheafOpen (n : Fin 16) (tag : Word) (bad : Bool)
  /-- SHEAF_STAGE stages 1–4,096 entries in the session's context (R171). -/
  | sheafStage (n : Fin 16) (tag : Word) (bad : Bool) (es : List ShfEntry)
  /-- SHEAF_CHECK checks the session's context and completes when CHECKED or FAILED (R171). -/
  | sheafCheck (n : Fin 16) (tag : Word) (bad : Bool)
  /-- SHEAF_APPLY applies the session's context and completes when it has applied (R171). -/
  | sheafApply (n : Fin 16) (tag : Word) (bad timed : Bool) (t : Stamp)
  /-- SHEAF_DISCARD discards the session's context (R171). -/
  | sheafDiscard (n : Fin 16) (tag : Word) (bad : Bool)
  /-- FIELD_CMD places a non-level field command for an endpoint as EMIT does, or refuses it (R172). -/
  | fieldCmd (n : Fin 16) (tag : Word) (bad : Bool) (cursor d0 d1 d2 d3 : Word) (t : Stamp) (payload : List Byte)
  /-- POST_EVENT places a RAW event in a logical engine's list (R171). -/
  | postEvent (n : Fin 16) (tag : Word) (bad : Bool) (l kind p5 p6 p7 : Word)
  /-- SET_QUOTA writes a session's handle quota and returns the previous one (R171). -/
  | setQuota (n : Fin 16) (tag : Word) (bad : Bool) (m quota : Word)
  /-- Version 1 IDENTIFY returns the data of GET_INFO without a handle; another opcode of version 1 is refused (R176). -/
  | identify (m : V1Message)
  /-- Version 1 READ_ENDPOINT returns one endpoint record (R176). -/
  | readEndpoint (n : Fin 16) (i : Word)
  /-- Version 1 READ_COUNTERS returns the clamp counts (R176). -/
  | readCounters (n : Fin 16)
  /-- When event buffer room returns, an ALARM event carrying the discarded count is sent first (R175). -/
  | eventCountAlarm (n : Fin 16) (taken : Fin 1025)
  /-- A read of QU_DATA returns the next word of the oldest item, removing it at its last word, or the idle word (R180). -/
  | quDataRead (u : Qu)
  /-- DROP_PKT removes the item in progress and sets DROPPED (R181). -/
  | dropPkt (u : Qu)
  /-- A watermark write re-evaluates ABOVE at once, validating the pair (R177). -/
  | quWmWrite (u : Qu) (high : Bool) (v : Word)
  /-- A handle quota write takes effect without cancelling anything in flight (R166). -/
  | hndQuotaWrite (m : Option (Fin 16)) (v : Word)
  /-- HOLD_REPORTS is launched to every endpoint, marking the storm start (R186). -/
  | holdReportsLaunch
  /-- SPREAD × 100 ms after the storm start the procedure enters RECOVERING (R186). -/
  | spreadEnd
  /-- One recovery POLL is sent within the rate, in-flight and watermark limits (R188). -/
  | recoveryPoll
  /-- Writing STORM_CTRL.EN 0 returns the procedure to IDLE (R186). -/
  | stormDisable (spread : BitVec 16)
  /-- A frame received on a port is classified, bridged, admitted and queued (R192). -/
  | frameIngress (i : Ingress) (f : Frame)
  /-- A frame crosses the crossbar on the least loaded active plane under credits (R206). -/
  | frameCross (p : Fin 8)
  /-- A frame arriving at the egress plot is released, held or discarded by sequence number (R213). -/
  | frameReassemble (p e c : Fin 8) (q : BitVec 16)
  /-- A missing frame is skipped after FAB_SEQ_TMO and SEQ_SKIP is set (R214). -/
  | seqGapTimeout (p e c : Fin 8)
  /-- An egress port chooses and transmits its next frame with tag edits (R208). -/
  | frameTransmit (n : Fin 264) (begun : Bool)
  /-- A 2 µs handshake timeout removes a plane and unacknowledged frames are resent (R215). -/
  | planeTimeout (k : Fin 9) (begun : List (Nat × Nat × Nat))
  /-- The fallow plane completes its start-up handshake and joins the active set (R319). -/
  | planeJoin (k : Fin 9)
  /-- A dynamic FDB entry is removed after its ageing time (R202). -/
  | fdbAgeOut (vid : BitVec 12) (m : Mac)
  /-- FDB READ loads the key's entry into FAB_FDB_DATA (R227). -/
  | fdbRead
  /-- FDB WRITE_STATIC writes or converts a static entry (R227). -/
  | fdbWriteStatic
  /-- FDB DELETE removes the key's entry (R227). -/
  | fdbDelete
  /-- FDB FLUSH_PORT removes every dynamic entry of a port (R227). -/
  | fdbFlushPort
  /-- FDB FLUSH_VLAN removes every dynamic entry of a VLAN (R227). -/
  | fdbFlushVlan
  /-- FDB FLUSH_ALL removes every dynamic entry (R227). -/
  | fdbFlushAll
  /-- An FDB command finishes, BUSY clears and RESULT is posted (R227). -/
  | fdbCommandDone
  /-- Every 100 µs each active plane's monitor writes its token period (R219). -/
  | speedMeasure (p : Fin 8) (k : Fin 9) (n : Word)
  /-- The core-voltage loop evaluates the worst token period and steps VCORE (R220). -/
  | vloopEvaluate
  /-- An account quota set at or below use sets QUOTA_OVER and OVER_NOW (R238). -/
  | acctQuotaWrite (p : Fin 8) (a : Fin 264) (v : BitVec 17)
  /-- A residue entry is appended to its port once that port is ready (R244). -/
  | residueAppend (n : Fin 264)
  /-- A residue entry waiting TMO µs is dropped (R246). -/
  | residueTimeout (n : Fin 264)
  /-- A sown frame is appended to all its ready target ports in one cycle (R248). -/
  | sownAppend (p e c : Fin 8)
  /-- A gleaner pass captures the cell counts and walks every active cell (R249). -/
  | gleanerPass (p : Fin 8) (tags : List (Nat × CellTag)) (unlisted : List Nat) (listed : List (Nat × CellOwner))
  /-- The leak window reaches 3,600 s and is cleared (R253). -/
  | leakWindowExpire (p : Fin 8)
  /-- A port aligned without fault for 10 ms enters UP (R261). -/
  | linkUp (n : Fin 256)
  /-- An UP port loses alignment or signal or sees a fault and returns to ACQUIRE (R261). -/
  | linkDown (n : Fin 256) (x : Receiver)
  /-- Every 100 ms optical readings are refreshed and RX_LOW evaluated (R264). -/
  | opticsRefresh (n : Fin 256) (bias pwr temp : BitVec 16)
  /-- At the end of each 1 ms window the FEC symbol errors are tested for DEGRADE (R264). -/
  | degradeWindow (n : Fin 256) (corr uncorr sym : Word)
  /-- A frame received on a ring port passes duplicate discard and is forwarded or delivered (R274). -/
  | ringFrameReceive (n : Fin 256) (f : Frame)
  /-- A duplicate-discard entry is removed 40 ms after creation (R276). -/
  | ddEntryExpire (k : Fin 128) (m : Mac) (q : BitVec 16)
  /-- A source record is removed 40 ms after its latest frame (R276). -/
  | ddSourceExpire (k : Fin 128) (m : Mac)
  /-- Every 2 s a supervision frame is sent on each port of each enabled ring (R278). -/
  | supervisionSend (k : Fin 128) (len : BitVec 14)
  /-- A received supervision frame is forwarded, consumed and checked against the node table (R278). -/
  | supervisionReceive (n : Fin 256) (f : Frame)
  /-- 4.5 s without a node's frame on a port clears its VIA bit (R279). -/
  | viaTimeout (k : Fin 128) (j : Fin 17) (a : Bool)
  /-- An entry reaches SKEW_TMO with one port marked and is counted toward GAP_N (R279). -/
  | oneSidedEntry (k : Fin 128) (m : Mac) (q : BitVec 16)
  /-- An endpoint EVENT frame on a ring is matched to its record and enters the intake (R568). -/
  | ringEventFrame (n : Fin 256) (f : EndFrame)
  /-- An endpoint REPLY frame on a ring is matched to a handle (R568). -/
  | ringReplyFrame (n : Fin 256) (f : EndFrame)
  /-- A JOIN frame on a ring enters the intake as a JOIN event (R568). -/
  | ringJoinFrame (n : Fin 256) (src : Mac) (vid : BitVec 12) (b : List Byte)
  /-- A read of TIME_NOW0 captures the time base and step epoch into shadows (R287). -/
  | timeNowRead
  /-- A read of TIME_PPS_IN0 captures the latest input edge registers (R287). -/
  | ppsInRead
  /-- A TIME_INCR write is clamped to ±1,000 ppm and governs increments from the next tick (R286). -/
  | timeIncrWrite (v : DWord)
  /-- SET loads TIME_SET into the time base as a step (R289). -/
  | timeCmdSet
  /-- STEP adds TIME_OFS, advances the step epoch and places TIME_STEP events (R289). -/
  | timeCmdStep
  /-- SLEW starts or replaces a slew of TIME_ADJ at TIME_SLEW (R288). -/
  | timeCmdSlew
  /-- SLEW_STOP ends a slew and clears TIME_ADJ_LEFT (R288). -/
  | timeCmdSlewStop
  /-- The whole of TIME_ADJ has been applied and the slew ends (R288). -/
  | slewDone
  /-- Each sync interval of the selected source moves the servo state and slews or steps (R300). -/
  | syncInterval (src : TimeSource) (off : DWord) (utc : Word)
  /-- The source times out with no other admitted source and the servo enters HOLDOVER (R300). -/
  | sourceLost
  /-- A received ESMC QL updates SyncE candidate selection (R297). -/
  | esmcReceive (n : Fin 256) (ql : Byte)
  /-- The 300 ms hold-off after a QL loss expires and selection acts (R297). -/
  | synceHoldOff (i : Fin 4)
  /-- The 300 s wait-to-restore expires and a recovered candidate becomes selectable (R297). -/
  | synceWaitToRestore (i : Fin 4)
  /-- A rising 1PPS input edge is captured in TIME_PPS_IN (R298). -/
  | ppsInEdge
  /-- A received ToD message is checked by CRC and used or discarded (R298). -/
  | todMessage (l : List Byte)
  /-- 1.1 s without an admitted input edge sets PPS_IN_MISS (R298). -/
  | ppsInMiss
  /-- At each whole second plus offset the output pulse and ToD message are driven (R299). -/
  | ppsOut
  /-- A read of TIME_TS_DATA3p removes the oldest transmit stamp (R303). -/
  | tsDataRead (p : Fin 8)
  /-- A calendar entry reaching its fetch point with store room is released to the fabric (R305). -/
  | calendarFetch (n : Fin 131072)
  /-- A fetched copy reaches its egress and becomes ARMED or UNARMED (R305). -/
  | copyArrive (n : Fin 131072) (k : Fin 2)
  /-- A copy leaves at its launch event, updating handle and record when it is the first (R569). -/
  | copyLaunch (n : Fin 131072) (k : Fin 2)
  /-- Every 1 s the node delay table is refreshed from delay exchanges (R308). -/
  | nodeDelayRefresh (k : Fin 128) (j : Fin 16) (a b : BitVec 20)
  /-- A buffer cell error starts a harrow pass on its bank row (R313). -/
  | cellEccError (p : Fin 8) (bank : Fin 9) (row : Fin 192) (uncorr : Bool) (hit : Option CellHit)
  /-- A laser bias or power fault starts a harrow pass on the laser (R313). -/
  | laserFault (e : Fin 32) (lane : Fin 8)
  /-- A flash read, program or erase failure starts a pass on the block (R313). -/
  | flashError (b : Fin 8448)
  /-- A regulator phase over-current or imbalance starts a pass on the phase (R313). -/
  | phaseFault (n : Fin 18)
  /-- A queue-state parity error starts a queue-manager pass (R313). -/
  | queueParityError (p : Fin 8)
  /-- A harrow pass outcome marks the fault transient or lasting and retires or restores the element (R314); `lost` is `none`
  where the pass succeeds, else the record numbers that the log loses (R322). -/
  | harrowPassDone (cls : Fin 7) (el : BitVec 24) (lost : Option (List (BitVec 64)))
  /-- Once every 24 h every fallow element receives a harrow pass (R317). -/
  | fallowHarrow
  /-- No lease arrives within the slot's boot wait and the module enters CLAIMING (R330). -/
  | bootLeaseTimeout
  /-- A STANDBY module sees no lease for 250 ms and enters CLAIMING (R330). -/
  | leaseTimeout
  /-- Restoration finishes, engines run and the module becomes ACTIVE (R334). -/
  | claimComplete
  /-- 300 ms after fencing the module becomes STANDBY (R330). -/
  | fenceEnd
  /-- Every 50 ms an ACTIVE or CLAIMING module sends a LEASE (R332). -/
  | leaseSend
  /-- Every 50 ms a STANDBY module sends an ECHO (R332). -/
  | echoSend
  /-- A received LEASE with an adequate epoch renews the standby's view (R332). -/
  | lease (h : PairHead) (t : Stamp)
  /-- A received ECHO acknowledges the newest lease (R332). -/
  | echo (e q : BitVec 32)
  /-- The acknowledged lease ages past 200 ms without a ring view and the module fences (R333). -/
  | leaseFence
  /-- A partner frame with a higher epoch fences the module within 10 µs (R333). -/
  | epochFence (e : BitVec 32) (claim : Bool)
  /-- Every 1 s the changed lines and counters are sent to the standby (R336). -/
  | ckptDelta
  /-- Every 10 min a full snapshot is sent to the standby (R336). -/
  | ckptSnapshot
  /-- A received CKPT frame is stored in the checkpoint area and acknowledged (R336). -/
  | ckpt (e q : BitVec 32) (fmt : BitVec 16) (x : CkptPart)
  /-- A received CKPT_ACK marks checkpoint data acknowledged (R336). -/
  | ckptAck (e q : BitVec 32)
  /-- Checkpoint age passes 3,000 ms and CKPT_STALE is set (R336). -/
  | ckptStale
  /-- A beacon is sent to each valid path 0 and 2 endpoint at least every 20 s (R338). -/
  | beaconSend (i : Fin 131072)
  /-- The input below 40 V for 200 µs or PFW_N low for 2 µs starts the shutdown sequence (R354). -/
  | supplyWarning (pfw inLow : Bool)
  /-- SYS_RST_CMD CONTROL resets the control complex (R351). -/
  | rstCmdControl
  /-- SYS_RST_CMD FULL resets everything except the backup domain (R351). -/
  | rstCmdFull
  /-- SYS_RST_CMD SHUTDOWN runs the shutdown steps after letting commits finish (R357). -/
  | rstCmdShutdown (inTime : Bool)
  /-- Writing the kick value restarts the watchdog (R353). -/
  | wdogKick (v : Word)
  /-- The watchdog expires and causes a CONTROL or, at the third, a FULL reset (R353). -/
  | wdogExpire
  /-- The 3,600 s expiry window ends and is cleared (R353). -/
  | wdogWindowEnd
  /-- The cell leaves its voltage range for 100 µs and the charger stops (R360). -/
  | cellRemoved
  /-- A cell present for 2 s sets CELL_INSERTED and charging may resume (R360). Of an absent cell: it is put in (R359). -/
  | cellInserted
  /-- Without main input the cell falls below 2.5 V and is disconnected, losing key RAM (R361). -/
  | cellDisconnect
  /-- State of charge below 90 % starts a constant-current charge (R358). -/
  | chargeStart
  /-- The cell reaches 3.6 V and the charge holds constant voltage (R358). -/
  | chargeCv
  /-- Charge current falls below 10 mA, the charge ends and the count is set full (R358). -/
  | chargeEnd
  /-- Cell temperature outside 0–45 °C pauses the charge (R358). -/
  | chgTemp
  /-- Temperature back within 1–44 °C resumes the charge (R358). -/
  | chgTempResume
  /-- Cell voltage below 2.9 V with charger off marks it empty and zeroes the count (R363). -/
  | cellEmpty
  /-- The cell has rested 10 min and its rest voltage is measured (R362). -/
  | cellAtRest (mv : BitVec 16)
  /-- A PWR_GAUGE_CAP write below CHARGE lowers CHARGE to it (R366). -/
  | gaugeCapWrite (cap : BitVec 24)
  /-- A change of SLOT_ID or PRES_IN updates SYS_PAIR_STATUS without changing the role (R380). -/
  | presenceChange (slotB partner : Bool)
  /-- Every 60 s and at each 60 °C crossing a BASE_TEMP event is recorded (R394). -/
  | baseTemp (t : BitVec 16)
  /-- All 54 channels are sampled together and converted (R400). -/
  | meterSample (raw : List (BitVec 24))
  /-- A busbar's measurement window ends and all its feeder registers and totals update (R403). -/
  | meterWindowEnd (b : Fin 2)
  /-- No crossing accepted for ZC_TMO raises NO_MAINS on the phase (R406). -/
  | noMains (v : Fin 6)
  /-- The eighth sample below threshold ends a transient and a SURGE event is recorded (R407). -/
  | surge (c : Fin 54)
  /-- All three phases of a busbar collapse and the totals are saved (R408). -/
  | collapse (b : Fin 2)
  /-- Every 60 s the energy totals are committed to the ledger (R409). -/
  | totalsSave
  /-- MTR_CMD SAVE_NOW saves the totals (R409). -/
  | saveNow
  /-- MTR_CMD CLEAR zeroes the totals in SERVICE or sets REFUSED (R410). -/
  | clear
  /-- ARM checks the capture interval and arms a timed capture (R411). -/
  | arm
  /-- ARM_SURGE arms a capture triggered by a surge (R412). -/
  | armSurge
  /-- ABORT ends a capture with RESULT ABORTED (R413). -/
  | abort
  /-- The time base reaches START and an armed capture begins taking samples (R411). -/
  | captureStart
  /-- A capture ends at STOP, a step or a full buffer and enters DONE (R413). -/
  | captureStop
  /-- A 24 h period ends and the per-luminaire regression starts (R417). -/
  | estimatePeriodEnd
  /-- Estimates, error bounds and LOW_CONF are written and EST_DONE recorded (R418). -/
  | estDone
  /-- A 400 ms hop slot begins and the transceiver changes channel (R425). -/
  | hopSlot (j : Fin 4)
  /-- A verified Scatter EVENT frame enters the intake (R427). -/
  | scatterEvent (j : Fin 4) (rssi : BitVec 16) (psdu : List Byte)
  /-- A verified Scatter REPLY is matched to a handle (R427). -/
  | scatterReply (j : Fin 4) (rssi : BitVec 16) (psdu : List Byte)
  /-- A node's WAKE resynchronises it and its queued frames are sent (R435). -/
  | scatterWake (j : Fin 4) (rssi : BitVec 16) (psdu : List Byte)
  /-- A Scatter JOIN enters the intake as a JOIN event (R427). -/
  | scatterJoin (j : Fin 4) (rssi : BitVec 16) (psdu : List Byte)
  /-- A 160 µs RSSI measurement ends and the copy transmits or backs off (R431). -/
  | lbtMeasureEnd (j : Fin 4) (mean : BitVec 16)
  /-- A backoff wait ends and the channel is measured again (R431). -/
  | lbtBackoffEnd (j : Fin 4)
  /-- A copy's airtime ends (R433). -/
  | radioTxEnd (j : Fin 4)
  /-- REP_GAP after a copy ends the next copy's listen-before-talk starts (R433). -/
  | repGapExpire (j : Fin 4)
  /-- Budget frees and a waiting copy may start (R432). -/
  | dutyWaitEnd (j : Fin 4)
  /-- A copy waiting 30 s for budget is discarded (R432). -/
  | dutyDrop (j : Fin 4)
  /-- An urgent slot arrives and one fault-class frame is started (R436). -/
  | urgentSlot (j : Fin 4)
  /-- A BEACON is broadcast in an urgent slot at least every 20 s (R437). -/
  | scatterBeacon (j : Fin 4)
  /-- A stronger preamble captures the receiver from the current frame (R439). -/
  | captureLost (j : Fin 4) (a b : BitVec 16)
  /-- A CAN field EVENT frame enters the intake (R447). -/
  | canFieldEvent (c : Fin 8) (f : CanFrame) (stamp : Word)
  /-- A CAN field REPLY frame is matched to a handle (R447). -/
  | canFieldReply (c : Fin 8) (f : CanFrame) (stamp : Word)
  /-- A firmware frame goes to the first matching mailbox or the bulk queue (R454). -/
  | canFirmwareFrame (c : Fin 8) (f : CanFrame) (stamp : Word)
  /-- A pending frame attempts transmission and is retried after loss or error (R449). -/
  | canTxAttempt (c : Fin 8) (o : CanOutcome)
  /-- The channel enters bus-off and discards the frame in transmission (R450). -/
  | busOff (c : Fin 8)
  /-- A field frame waiting 1 s in the field queue is discarded (R450). -/
  | canTxExpire (c : Fin 8)
  /-- CAN_CMD RECOVER starts bus-off recovery (R450). -/
  | recover (c : Fin 8)
  /-- CAN_CMD SNAP captures counter, time base and step epoch (R452). -/
  | snap (c : Fin 8) (cnt : Word)
  /-- CAN_CMD ABORT_TX aborts every transmit buffer (R458). -/
  | abortTx (c : Fin 8)
  /-- At each whole second or step the CAN counter snapshot is captured (R452). -/
  | canSnapshot (cnt : Word)
  /-- A read of CAN_TS_SNAP_CNT captures the snapshot registers (R452). -/
  | snapCntRead (c : Fin 8)
  /-- Setting REQ makes a transmit buffer pending (R458). -/
  | txRequest (c : Fin 8) (b : Fin 4)
  /-- Setting ABORT aborts a transmit buffer after any attempt in progress (R449). -/
  | txAbort (c : Fin 8) (b : Fin 4) (attempt : Option CanOutcome)
  /-- A read of mailbox word 0 locks the mailbox (R455). -/
  | mailboxLock (c : Fin 8) (m : Fin 16)
  /-- A read of the last mailbox word releases it and moves in any shadow frame (R455). -/
  | mailboxRelease (c : Fin 8) (m : Fin 16)
  /-- A write to CAN_BULK_ACK acknowledges handed-over bulk items (R456). -/
  | bulkAck (c : Fin 8) (n : BitVec 10)
  /-- An input state held for its filter time is accepted and a DIO event placed (R459). -/
  | dioInputAccept (chans vals : BitVec 16)
  /-- An output at its current limit for 1 ms is switched off (R462). -/
  | overload (n : Fin 16)
  /-- 1 s after an overload with RETRY the output is switched on again (R462). -/
  | overloadRetry (n : Fin 16)
  /-- A driver reaching its trip switches its output off (R462). -/
  | overTemp (n : Fin 16)
  /-- The driver cools 15 K and the output follows DIO_OUT (R462). -/
  | overTempClear (n : Fin 16)
  /-- An open-wire condition held for 100 ms sets OPEN_WIRE (R462). -/
  | openWire (n : Fin 16)
  /-- The open-wire condition absent for 100 ms clears it (R462). -/
  | openWireClear (n : Fin 16)
  /-- LP_b below 18 V for 1 ms forces the bank's inputs to 0 and outputs off (R462). -/
  | bankLow (b : Fin 4)
  /-- LP_b at or above 19 V for 10 ms clears BANK_LOW (R462). -/
  | bankLowClear (b : Fin 4)
  /-- Each 500 µs string-stage PWM period starts with the code in force under any ramp (R463). -/
  | pwmPeriodStart (j : Fin 4) (vout iout : BitVec 16)
  /-- Headroom below 1.5 V for 2 ms sets HEADROOM and limits the current (R464). -/
  | headroom (j : Fin 4) (mv : BitVec 16)
  /-- Headroom at 2.0 V for 2 ms restores the commanded current (R464). -/
  | headroomClear (j : Fin 4)
  /-- Current below half the setting for 100 ms sets UNDER_CURRENT (R464). -/
  | underCurrent (j : Fin 4) (ma : BitVec 16)
  /-- Current back at half the setting for 100 ms clears UNDER_CURRENT (R464). -/
  | underCurrentClear (j : Fin 4)
  /-- The output at its clamp for 1 ms sets OPEN and stops the stage (R464). -/
  | stringOpen (j : Fin 4)
  /-- The output below 1 V for 2 ms sets SHORT and stops the stage (R464). -/
  | stringShort (j : Fin 4)
  /-- Every REFRESH period a chain refresh frame starts (R469). -/
  | refreshFrame (n : Fin 4)
  /-- A chain frame has been shifted completely and its returned statuses checked (R466). -/
  | frameShifted (n : Fin 4) (ret : List Word)
  /-- LAT rises and elements load their display registers and statuses (R466). -/
  | chainLatch (n : Fin 4)
  /-- The calendar advances one second with roll-over of each field (R478). -/
  | rtcSecond
  /-- A write to RTC_TIME is held until RTC_DATE is written (R479). -/
  | rtcTimeWrite (v : Word)
  /-- A write to RTC_DATE takes effect with any held time and resets the sub-second count (R479). -/
  | rtcDateWrite (v : Word)
  /-- A read of RTC_TIME captures RTC_DATE into a hold (R480). -/
  | rtcTimeRead
  /-- A write to an alarm register re-evaluates that alarm (R482). -/
  | rtcAlarmWrite (a : Fin 2) (ctl : Bool) (v : Word)
  /-- The oscillator stops for 2 ms and the calendar is reset and invalid (R481). -/
  | oscFail
  /-- The RTC temperature sensor is read and the crystal error computed (R484). -/
  | rtcTempRead (t : BitVec 16)
  /-- A 64 s compensation window starts with a new correction N (R485). -/
  | compWindow
  /-- RTC_CMD ALIGN is accepted to wait for the next second or refused (R488). -/
  | align
  /-- At the next whole second the calendar is loaded from network UTC (R487). -/
  | alignExecute
  /-- A record presented to the recorder is numbered and appended or refused (R494). -/
  | recordAccept
  /-- A buffer's segment is written to the log and the buffer becomes EMPTY (R497). -/
  | flushDone
  /-- REC_CMD FLUSH flushes the filling buffer (R497). -/
  | recFlush
  /-- REC_CMD SELECT copies one record into REC_SEL_DATA or reports why not (R504). -/
  | recSelect (bad : Option (BitVec 64))
  /-- REC_CMD COPY starts copying records into SDRAM (R505). -/
  | recCopy (bad : Option (BitVec 64))
  /-- A COPY ends and reports what was copied (R505). -/
  | copyDone
  /-- A write of REC_APP_HDR presents a firmware record or sets APP_BAD (R501). -/
  | appRecord (v : Word)
  /-- The next log block is erased after advancing REC_FIRST_SEQ (R502). -/
  | logErase
  /-- A ledger entry completes in both banks (R508). -/
  | ledgerWriteDone
  /-- A read of REC_LDG_DATA returns a resolved word and increments the address (R511). -/
  | ledgerDataRead (err : BitVec 2)
  /-- Every 60 s operating time is saved in the ledger (R493). -/
  | opMsSave
  /-- SIGN makes an ECDSA or Ed25519 signature with a slot key (R538). -/
  | sign (a b : Byte)
  /-- VERIFY checks a signature against a slot or buffer public key (R538). -/
  | keyVerify (a b : Byte)
  /-- ECDH computes a shared secret into a slot or the buffer (R538). -/
  | ecdh (a b : Byte)
  /-- GCM encrypt runs under a slot key (R538). -/
  | gcmEncrypt (a b : Byte)
  /-- GCM decrypt runs, zeroing the buffer on tag mismatch (R540). -/
  | gcmDecrypt (a b : Byte)
  /-- CCM encrypt runs under a slot key (R538). -/
  | ccmEncrypt (a b : Byte)
  /-- CCM decrypt runs, zeroing the buffer on MIC mismatch (R540). -/
  | ccmDecrypt (a b : Byte)
  /-- SHA-256 hashes the buffer (R538). -/
  | sha256 (a b : Byte)
  /-- SHA-384 hashes the buffer (R538). -/
  | sha384 (a b : Byte)
  /-- HMAC-SHA-256 is computed under a MAC slot (R538). -/
  | hmacSha256 (a b : Byte)
  /-- RANDOM draws bytes from the CTR_DRBG (R542). -/
  | random (a b : Byte)
  /-- DERIVE creates a key by HKDF from the root or a slot (R518). -/
  | derive (a b : Byte)
  /-- GENERATE creates a key from the DRBG (R519). -/
  | generate (a b : Byte)
  /-- IMPORT_PUB validates and stores a public key (R520). -/
  | importPub (a b : Byte)
  /-- IMPORT_WRAPPED unwraps and stores a GCM-wrapped key (R520). -/
  | importWrapped (a b : Byte)
  /-- DESTROY zeroes a slot and its shadows (R521). -/
  | destroy (a b : Byte)
  /-- REPL_VERIFY tests a shadow key against an expected value (R531). -/
  | replVerify (a b : Byte)
  /-- REPL_COMMIT swaps a verified shadow into its slot (R532). -/
  | replCommit (a b : Byte)
  /-- REPL_ABORT discards a shadow (R532). -/
  | replAbort (a b : Byte)
  /-- MB_EXTEND extends the measurement with 48 buffer bytes (R537). -/
  | mbExtend (a b : Byte)
  /-- ATTEST signs the measurement, nonce, state and EUI-64 with slot 0 (R537). -/
  | attest (a b : Byte)
  /-- An undefined operation code returns BAD_OP at once (R538). -/
  | keyUndefinedOp (code : BitVec 6) (a b : Byte)
  /-- A crypto operation's fixed duration ends and its result is posted (R539). -/
  | keyOpDone
  /-- REQUEST_NONCE loads a fresh 64-bit life-cycle nonce (R534). -/
  | requestNonce
  /-- TRANSITION verifies a token and starts a life-cycle transition or refuses it (R534). -/
  | transition
  /-- INTENT, slot destruction, actions and STATE commit complete the transition (R535). -/
  | transitionComplete
  /-- A tamper source is detected and every secret is zeroised within 10 µs (R525). -/
  | tamper (sources : BitVec 7)
  /-- No source active for 1 s with main input clears ZEROISED and generates a new root (R528). -/
  | zeroiseClear
  /-- An entropy health test fails and DRBG draws return NO_ENTROPY (R542). -/
  | entropyFail (test : Fin 2)
  /-- 1,024 passing samples restore ENTROPY_OK (R542). -/
  | entropyRecover
  /-- An image-service client streams an image which is written, verified and answered (R545). -/
  | imageService (h : Handshake) (bytes : List Byte)
  /-- A UART character is received by majority voting and placed in the receive FIFO (R547). -/
  | uartCharacter (samples : BitVec 30)
  /-- A line low for 20 bit times places one BREAK item (R548). -/
  | uartBreak
  /-- A write to SVC_UART_TXDATA inserts a character into the transmit FIFO (R550). -/
  | uartTxdata (ch : Byte)
  /-- The transmitter starts a character when CTS permits (R550). -/
  | uartTxCharacter (cts : Bool)
  /-- OPEN erases the inactive image slot for writing (R554). -/
  | imgOpen
  /-- WRITE copies bytes from SDRAM into the slot (R554). -/
  | imgWrite
  /-- An image slot write completes (R554). -/
  | imgWriteDone
  /-- VERIFY starts the checks of the slot's image (R552). -/
  | imgVerify
  /-- Image verification completes, marking the slot VERIFIED or INVALID (R552). -/
  | imgVerifyDone
  /-- SCHEDULE records an activation instant or returns PAST or FAR (R555). -/
  | schedule
  /-- FORCE activates the verified slot at once (R556). -/
  | force
  /-- CANCEL withdraws a scheduled or deferred activation (R555). -/
  | cancel
  /-- ABORT empties the inactive slot (R554). -/
  | imgAbort
  /-- At the instant with LOCKED the slots swap and a CONTROL reset starts the new image (R557). -/
  | activation
  /-- At each 10 s grid point of a deferred activation the module activates if LOCKED (R556). -/
  | actDeferredCheck
  /-- A write of the confirm key confirms the image and applies the settings rule (R559). -/
  | actConfirm (v : Word)
  /-- No confirmation within 60 s rolls back to the former slot (R558). -/
  | actRollback
  /-- The boot ROM enters UART recovery (R561). -/
  | recovery (brk : Bool)
  /-- Every 5 s the recovery banner is sent until a command arrives (R561). -/
  | recoveryBanner
  /-- Recovery command I receives an image by XMODEM-1K, verifies and activates it (R561). -/
  | recoveryImage (bytes : List Byte)
  /-- Recovery command F performs a FULL reset (R561). -/
  | recoveryReset
  /-- START begins broadcasting an endpoint image (R562). -/
  | efwStart
  /-- STOP ends an endpoint firmware job (R562). -/
  | efwStop
  /-- The next broadcast FW_BLOCK is sent at the configured rate, recording EFW_DONE after the last pass (R562). -/
  | efwBlockSend (radio : Bool)
  /-- ACTIVATE launches a broadcast FW_ACTIVATE on every enabled ring (R563). -/
  | efwActivate
  /-- The SDRAM interface reports loss of training and the D12 bit of SYS_DOMAIN_OK returns to 0 with a DOMAIN_LOSS
  event (R40). -/
  | sdramTrainingLoss
  /-- In ACQUIRE the port's receiver gains alignment and FEC lock without fault, or loses any of them, which starts or
  restarts the 10 ms count towards UP (R261). -/
  | receiverAligned (n : Fin 256) (x : Receiver)
  /-- A token parity error on a crossbar plane starts a class 0 harrow pass, and the plane leaves the active set (R313). -/
  | tokenParityError (k : Fin 9) (begun : List (Nat × Nat × Nat))
  /-- A bus error while the channel receives, or an error frame on the bus, updates the error counters, sets ERR_FRAME
  and may make the channel error-passive (R450). -/
  | canErrorFrame (c : Fin 8) (lec : Fin 7) (eight : Bool)
  /-- A protocol exception event makes the channel integrate to the bus and counts it in CNT_PXE (R443). -/
  | protocolException (c : Fin 8)
  /-- Bus-off recovery completes under ISO 11898-1, RECOVERING clears and the channel returns to error-active with its
  pending frames (R450). -/
  | busOffRecoveryDone (c : Fin 8)
  /-- The 1000BASE-T service port completes auto-negotiation, sets SVC_MAC_STATUS.LINK and LINK_UP (R370). -/
  | svcLinkUp (mdix : Bool)
  /-- The 1000BASE-T service port loses its link, clears LINK and sets LINK_DOWN (R370). -/
  | svcLinkDown
  /-- A received radio frame with a failed FCS or a reserved TYPE is discarded and counted in RX_BAD (R427). -/
  | scatterRxBad (j : Fin 4)
  /-- With the charger off, the cell voltage reaches 3.0 V and EMPTY returns to 0 (R363). -/
  | cellEmptyClear
  deriving DecidableEq, Repr

end Sys2Proof
end

