-- ==== Sys2Proof/Decode.lean ====
section
/-! DEFINITION. Command words. The command table gives no row any bits: commands reach the module as register accesses, frames,
messages, pins and events, not as words. The instruction words of ZHN, which the module's own engines fetch, are decoded in
Machine/ZhnDecode.lean. -/
namespace Sys2Proof

/-- The command that a word of `nbits` bits spells by the table's bits: none, because no row gives bits. -/
def decodeTableWord (_nbits _w : Nat) : Option Instr := none

end Sys2Proof
end

