-- ==== Sys2Proof/Config.lean ====
section
/-! DEFINITION. The free values: what the spec leaves open stands here as a constant without a body, so that no
statement can rest on a value of it. Each is named in the assumption log. -/
namespace Sys2Proof.Config
open Sys2Proof

/-- A fresh value for each use, indexed by the state's counter `freeCtr` (assumption 2). -/
opaque freeWord : Nat → DWord

/-- Whether a certificate, a text and its signature, validates under a public key: the certificate profile stands in no
file of the spec (R168, assumption 4). -/
opaque certValid : List Byte → List Byte → List Byte → Bool
/-- The derivation of the RS0640's label scheme: bytes, EUI-64, PUF root, key information (R522, assumption 4). -/
opaque compatKdf : Nat → List Byte → List Byte → List Byte → List Byte

/-- The fixed latency of a port in ns, transmitting or receiving, as a stamp's correction (R302, assumption 139). -/
opaque portLatency : Nat → Bool → Int

/-- The 16-point curve of the cell's voltage in mV against its state of charge in %, stored at production (R362,
assumption 151). -/
opaque cellCurve : Nat → Nat × Nat
/-- The code of a warning's sources in the POWER_FAIL entry: PFW_N, input voltage, SHUTDOWN (R355, R495, assumption 150). -/
opaque warnSource : Bool → Bool → Bool → Word

/-- The region of a flash block in use beyond the recorder log's, and the erasures of a block by the journal and the checkpoint
area after an operating time in ms, which the spec does not give (R322, R344, assumption 155). -/
opaque flashRegion : Nat → Machine.FlashRegion
opaque flashUse : Nat → Nat → Nat

/-- The CKPT data of R336 that a pair frame carries, whose layout the spec does not give (assumption 147). -/
opaque ckptBytes : Machine.CkptPart → List Byte

/-- The calibration that production puts into the ledger, whose content the spec does not give (R507, assumption 32). -/
opaque calibration : List Byte
/-- A word of a ledger bank, from the resolved entries of its region: the spec lays out no entry's bytes (R507, R511,
assumption 32). -/
opaque ledgerWord : List Machine.LdgCopy → Nat → Word

/-- The rank of a SyncE quality level, the best lowest, and whether a source of that level may be selected: the order of
ITU-T G.8264, which the spec does not reproduce (assumption 28). -/
opaque qlRank : Nat → Nat
opaque qlUsable : Nat → Bool
/-- Whether TIME_ADJ_LEFT, which shows whole nanoseconds, rounds a remainder up (assumption 2). -/
opaque slewRound : Int → Bool

/-- The Taondor life-cycle key and image key of the boot ROM, and the PUF root of this module (R534, R552, R522;
assumption 4). -/
opaque lifeKey : List Byte
opaque imageKey : List Byte
opaque pufRoot : List Byte
/-- The helper data that an enrolment of the PUF gives (R522, assumption 4). -/
opaque pufHelper : List Byte
/-- The type of a key that an operation names while the store is zeroised, which decides its fixed duration (R528,
assumption 175): by operation code. -/
opaque wipedType : Nat → Nat
/-- The MIC length of CCM, 16 when true and 8 when false, which the spec names without saying what selects it; from
KEY_OP_ATTR (assumption 29). -/
opaque ccmLong : Word → Bool

/-- What the counter of R452 counts from at a start, by its operating time (assumption 169). -/
opaque canStart : Nat → BitVec 32

/-- Whether a quotient, or a square root, that is no integer is rounded up in a register (assumption 35). -/
opaque roundUp : Int → Nat → Bool
opaque rootUp : Nat → Bool

end Sys2Proof.Config
end

