-- ==== Sys2Proof/Machine/Bits.lean ====
section
/-! DEFINITION. Bit fields of words (R6), little-endian bytes (R7), sign extension, saturation, and the 96-bit time
value of R46 as a number. -/
namespace Sys2Proof.Machine

/-- The number in `n` bits of `w` from bit `l` up. -/
def getBits (w : Word) (l n : Nat) : Nat := (w.toNat >>> l) % 2 ^ n

/-- `w` with `n` bits from bit `l` up replaced by the low bits of `v`. -/
def setBits (w : Word) (l n v : Nat) : Word :=
  (w &&& ~~~(BitVec.ofNat 32 (2 ^ n - 1) <<< l)) ||| (BitVec.ofNat 32 (v % 2 ^ n) <<< l)

/-- Bit `i` of `w`. -/
def bit (w : Word) (i : Nat) : Bool := w.getLsbD i

/-- A number from a truth value. -/
def b2n (b : Bool) : Nat := if b then 1 else 0

/-- The bits of `old` with those set in `mask` taken from `new`. -/
def mergeMask (old new mask : Word) : Word := (old &&& ~~~mask) ||| (new &&& mask)

/-- `a + 1`, saturating at `m`. -/
def satInc (m a : Nat) : Nat := if a < m then a + 1 else m

/-- `a + b`, saturating at `m`. -/
def satAdd (m a b : Nat) : Nat := if a + b < m then a + b else m

/-- The number that the low `n` bits of `v` stand for in two's complement. -/
def toSigned (n v : Nat) : Int :=
  if v % 2 ^ n < 2 ^ (n - 1) then (v % 2 ^ n : Nat) else (v % 2 ^ n : Nat) - (2 ^ n : Nat)

/-- The low `n` bits of an integer in two's complement. -/
def ofSigned (n : Nat) (v : Int) : Nat := (v % (2 ^ n : Nat)).toNat

/-- Byte `i` of a word, byte 0 lowest (R7). -/
def wordByte (w : Word) (i : Nat) : Byte := BitVec.ofNat 8 (w.toNat >>> (8 * i))

/-- The word whose bytes are `b0` (lowest address) to `b3` (R7). -/
def bytesWord (b0 b1 b2 b3 : Byte) : Word :=
  BitVec.ofNat 32 (b0.toNat + 256 * b1.toNat + 65536 * b2.toNat + 16777216 * b3.toNat)

/-- The number that a list of bytes spells, lowest byte first (R7). -/
def leNat : List Byte → Nat
  | [] => 0
  | b :: r => b.toNat + 256 * leNat r

/-- The low `n` bytes of a number, lowest first (R7). -/
def leBytes : Nat → Nat → List Byte
  | 0, _ => []
  | n + 1, v => BitVec.ofNat 8 v :: leBytes n (v / 256)

/-- The number that a list of bytes spells, highest byte first. -/
def beNat (l : List Byte) : Nat := leNat l.reverse

/-- The low `n` bytes of a number, highest first. -/
def beBytes (n v : Nat) : List Byte := (leBytes n v).reverse

/-- The low 32-bit words of a number, lowest first. -/
def leWords : Nat → Nat → List Word
  | 0, _ => []
  | n + 1, v => BitVec.ofNat 32 v :: leWords n (v / 4294967296)

/-- The bytes of a list of words (R7). -/
def wordsBytes : List Word → List Byte
  | [] => []
  | w :: r => leBytes 4 w.toNat ++ wordsBytes r

/-- Round `a / b` up. -/
def ceilDiv (a b : Nat) : Nat := (a + b - 1) / b

/-- Nanoseconds in a second. -/
def nsPerS : Nat := 1000000000

/-- The seconds of a time value (R46). -/
def stampSec (t : Stamp) : Nat := t.toNat >>> 48
/-- The nanoseconds of a time value (R46). -/
def stampNs (t : Stamp) : Nat := (t.toNat >>> 16) % 2 ^ 32
/-- The fraction of a time value in units of 2⁻¹⁶ ns (R46). -/
def stampFrac (t : Stamp) : Nat := t.toNat % 2 ^ 16

/-- A time value from its parts (R46); the seconds wrap modulo 2⁴⁸ (R110). -/
def mkStamp (sec ns frac : Nat) : Stamp :=
  BitVec.ofNat 96 ((sec % 2 ^ 48) * 2 ^ 48 + (ns % 2 ^ 32) * 2 ^ 16 + frac % 2 ^ 16)

/-- A time value as a count of 2⁻¹⁶ ns. -/
def stampUnits (t : Stamp) : Nat := (stampSec t * nsPerS + stampNs t) * 65536 + stampFrac t

/-- The normalised time value of a count of 2⁻¹⁶ ns, seconds modulo 2⁴⁸ (R110). -/
def unitsStamp (u : Int) : Stamp :=
  let n := (u % ((2 ^ 48 * nsPerS * 65536 : Nat) : Int)).toNat
  mkStamp (n / 65536 / nsPerS) (n / 65536 % nsPerS) (n % 65536)

/-- The three words of a time value, lowest address first (R46). -/
def stampWord (t : Stamp) (i : Nat) : Word := BitVec.ofNat 32 (t.toNat >>> (32 * i))

/-- A time value from its three words (R46). -/
def wordsStamp (a b c : Word) : Stamp := BitVec.ofNat 96 (a.toNat + b.toNat * 2 ^ 32 + c.toNat * 2 ^ 64)

/-- `t` plus a signed number of nanoseconds, normalised (R110). -/
def stampAddNs (t : Stamp) (ns : Int) : Stamp := unitsStamp ((stampUnits t : Int) + ns * 65536)

/-- The low word of a 64-bit pair (R17). -/
def lo32 (d : DWord) : Word := BitVec.ofNat 32 d.toNat
/-- The high word of a 64-bit pair (R17). -/
def hi32 (d : DWord) : Word := BitVec.ofNat 32 (d.toNat >>> 32)
/-- A 64-bit value from its two words (R17). -/
def pair64 (lo hi : Word) : DWord := BitVec.ofNat 64 (lo.toNat + hi.toNat * 4294967296)

/-- The positions of the 1 bits of a number below `2 ^ n`, rising. -/
def onesBelow : Nat → Nat → List Nat
  | 0, _ => []
  | n + 1, v => onesBelow n v ++ (if v.testBit n then [n] else [])

/-- The first `n` naturals from `a`. -/
def rangeFrom (a n : Nat) : List Nat := (List.range n).map (a + ·)

/-- Bytewise step of CRC-32C, reflected polynomial 0x82F63B78 (RFC 3720, R199). -/
def crc32cBit (c : Nat) : Nat := if c % 2 = 1 then (c / 2) ^^^ 0x82F63B78 else c / 2

/-- CRC-32C register after one byte. -/
def crc32cByte (c : Nat) (b : Byte) : Nat :=
  (List.range 8).foldl (fun c _ => crc32cBit c) (c ^^^ b.toNat)

/-- CRC-32C with initial value and final XOR 0xFFFF_FFFF (R199). -/
def crc32c (l : List Byte) : Word := BitVec.ofNat 32 ((l.foldl crc32cByte 0xFFFFFFFF) ^^^ 0xFFFFFFFF)

/-- The register of the CRC-32 of polynomial 0x04C11DB7, reflected, after one byte. -/
def crc32Byte (c : Nat) (b : Byte) : Nat :=
  (List.range 8).foldl (fun c _ => if c % 2 = 1 then (c / 2) ^^^ 0xEDB88320 else c / 2) (c ^^^ b.toNat)
/-- That CRC-32, with initial value and final XOR 0xFFFF_FFFF (PRESUMED, assumption 167). -/
def crc32 (l : List Byte) : Nat := (l.foldl crc32Byte 0xFFFFFFFF) ^^^ 0xFFFFFFFF

/-- CRC-16/CCITT-FALSE: polynomial 0x1021, initial value 0xFFFF (R298). -/
def crc16 (l : List Byte) : Nat :=
  l.foldl (fun c b =>
    (List.range 8).foldl (fun c _ => if c / 32768 % 2 = 1 then (c * 2 % 65536) ^^^ 0x1021 else c * 2 % 65536)
      (c ^^^ (b.toNat * 256))) 0xFFFF

end Sys2Proof.Machine
end

