-- ==== Sys2Proof/Machine/RegTypes.lean ====
section
/-! DEFINITION. What a register map is made of: the blocks of R37, the access codes of R10, a register row, and
the names of a register, of a field of a register, and of a status flag with its event counter (R15). -/
namespace Sys2Proof.Machine

/-- The register blocks of R37. The FMEM window is a memory, not a block of registers. -/
inductive Blk where
  | sys | time | rtc | key | rcd | fe | fab | port | ring | mtr | dio | ind | rad | can | svc | pwr
  deriving DecidableEq, Repr

/-- The access codes of R10. -/
inductive Acc where
  | rw | ro | wo | w1c | w1s | rc | so
  deriving DecidableEq, Repr

/-- One field of a register: its bits, its access code and its reset value. -/
structure FieldRow where
  msb : Nat
  lsb : Nat
  acc : Acc
  reset : Nat
  deriving DecidableEq, Repr

/-- One row of a register map: the offset in its block, the (stride, count) of each instance index, outermost
first, whether the register is SO, and its fields. -/
structure RegRow where
  off : Nat
  dims : List (Nat × Nat)
  so : Bool
  fields : List FieldRow
  deriving DecidableEq, Repr

/-- A register: its block and its offset in the block. -/
structure Reg where
  blk : Blk
  off : Nat
  deriving DecidableEq, Repr

/-- A field of a register: block, offset, lowest bit and width. -/
structure Fld where
  blk : Blk
  off : Nat
  lsb : Nat
  width : Nat
  deriving DecidableEq, Repr

/-- A status flag and its 16-bit event counter (R15): block, offset and bit of the flag, offset and lowest bit of
the counter. -/
structure Evt where
  blk : Blk
  off : Nat
  bit : Nat
  cntOff : Nat
  cntLsb : Nat
  deriving DecidableEq, Repr

end Sys2Proof.Machine
end

