-- ==== Sys2Proof/Machine/RegNames.lean ====
section
/-! DEFINITION. Names for the registers (`R.<register>.reg`), their fields (`R.<register>.<field>`) and the status
flags with their event counters (`E.<register>.<flag>`, R15), as the register-map tables name them. An indexed
register takes its instance numbers as arguments, outermost first. -/
namespace Sys2Proof.Machine

def R.SYS_ID.reg : Reg := ⟨.sys, 0x0⟩
def R.SYS_ID.PART : Fld := ⟨.sys, 0x0, 16, 16⟩
def R.SYS_ID.CODE : Fld := ⟨.sys, 0x0, 12, 4⟩
def R.SYS_ID.STEP : Fld := ⟨.sys, 0x0, 0, 8⟩
def R.SYS_HIER.reg : Reg := ⟨.sys, 0x4⟩
def R.SYS_HIER.FE_TOTAL : Fld := ⟨.sys, 0x4, 24, 8⟩
def R.SYS_HIER.FE_ACTIVE : Fld := ⟨.sys, 0x4, 16, 8⟩
def R.SYS_HIER.PLOTS : Fld := ⟨.sys, 0x4, 8, 8⟩
def R.SYS_HIER.PORTS_PER_PLOT : Fld := ⟨.sys, 0x4, 0, 8⟩
def R.SYS_PLOT_STATE.reg : Reg := ⟨.sys, 0x8⟩
def R.SYS_PLOT_STATE.PLOT7 : Fld := ⟨.sys, 0x8, 28, 4⟩
def R.SYS_PLOT_STATE.PLOT6 : Fld := ⟨.sys, 0x8, 24, 4⟩
def R.SYS_PLOT_STATE.PLOT5 : Fld := ⟨.sys, 0x8, 20, 4⟩
def R.SYS_PLOT_STATE.PLOT4 : Fld := ⟨.sys, 0x8, 16, 4⟩
def R.SYS_PLOT_STATE.PLOT3 : Fld := ⟨.sys, 0x8, 12, 4⟩
def R.SYS_PLOT_STATE.PLOT2 : Fld := ⟨.sys, 0x8, 8, 4⟩
def R.SYS_PLOT_STATE.PLOT1 : Fld := ⟨.sys, 0x8, 4, 4⟩
def R.SYS_PLOT_STATE.PLOT0 : Fld := ⟨.sys, 0x8, 0, 4⟩
def R.SYS_BUS_ERR.reg : Reg := ⟨.sys, 0xc⟩
def R.SYS_BUS_ERR.BRIDGE_TO : Fld := ⟨.sys, 0xc, 3, 1⟩
def R.SYS_BUS_ERR.SO_WRITE : Fld := ⟨.sys, 0xc, 2, 1⟩
def R.SYS_BUS_ERR.UNMAPPED : Fld := ⟨.sys, 0xc, 1, 1⟩
def R.SYS_BUS_ERR.ALIGN : Fld := ⟨.sys, 0xc, 0, 1⟩
def R.SYS_BUS_ERR_ADDR_LO.reg : Reg := ⟨.sys, 0x10⟩
def R.SYS_BUS_ERR_ADDR_LO.ADDR : Fld := ⟨.sys, 0x10, 0, 32⟩
def R.SYS_BUS_ERR_ADDR_HI.reg : Reg := ⟨.sys, 0x14⟩
def R.SYS_BUS_ERR_ADDR_HI.WRITE : Fld := ⟨.sys, 0x14, 8, 1⟩
def R.SYS_BUS_ERR_ADDR_HI.ADDR : Fld := ⟨.sys, 0x14, 0, 8⟩
def R.SYS_BUS_ERR_CNT0.reg : Reg := ⟨.sys, 0x18⟩
def R.SYS_BUS_ERR_CNT0.UNMAPPED_CNT : Fld := ⟨.sys, 0x18, 16, 16⟩
def R.SYS_BUS_ERR_CNT0.ALIGN_CNT : Fld := ⟨.sys, 0x18, 0, 16⟩
def R.SYS_BUS_ERR_CNT1.reg : Reg := ⟨.sys, 0x1c⟩
def R.SYS_BUS_ERR_CNT1.BRIDGE_TO_CNT : Fld := ⟨.sys, 0x1c, 16, 16⟩
def R.SYS_BUS_ERR_CNT1.SO_WRITE_CNT : Fld := ⟨.sys, 0x1c, 0, 16⟩
def R.SYS_DOMAIN_OK.reg : Reg := ⟨.sys, 0x20⟩
def R.SYS_DOMAIN_OK.OK : Fld := ⟨.sys, 0x20, 0, 18⟩
def R.SYS_SPARE0.reg : Reg := ⟨.sys, 0x100⟩
def R.SYS_SPARE0.PLANE_ACTIVE : Fld := ⟨.sys, 0x100, 28, 4⟩
def R.SYS_SPARE0.PLANE_FALLOW : Fld := ⟨.sys, 0x100, 26, 2⟩
def R.SYS_SPARE0.FE_FALLOW : Fld := ⟨.sys, 0x100, 24, 2⟩
def R.SYS_SPARE0.FE_STOPPED : Fld := ⟨.sys, 0x100, 19, 5⟩
def R.SYS_SPARE0.PHASE_ACTIVE : Fld := ⟨.sys, 0x100, 14, 5⟩
def R.SYS_SPARE0.PHASE_FALLOW : Fld := ⟨.sys, 0x100, 12, 2⟩
def R.SYS_SPARE0.BANK_FALLOW : Fld := ⟨.sys, 0x100, 0, 8⟩
def R.SYS_SPARE1.reg : Reg := ⟨.sys, 0x104⟩
def R.SYS_SPARE1.LASER_FALLOW : Fld := ⟨.sys, 0x104, 0, 32⟩
def R.SYS_SPARE2.reg : Reg := ⟨.sys, 0x108⟩
def R.SYS_SPARE2.FLASH_FALLOW : Fld := ⟨.sys, 0x108, 16, 16⟩
def R.SYS_SPARE2.FLASH_RETIRED : Fld := ⟨.sys, 0x108, 0, 16⟩
def R.SYS_FAULT_EVT.reg : Reg := ⟨.sys, 0x110⟩
def R.SYS_FAULT_EVT.ENG_STOP : Fld := ⟨.sys, 0x110, 4, 1⟩
def R.SYS_FAULT_EVT.SPARES_OUT : Fld := ⟨.sys, 0x110, 3, 1⟩
def R.SYS_FAULT_EVT.SPARES_LOW : Fld := ⟨.sys, 0x110, 2, 1⟩
def R.SYS_FAULT_EVT.LASTING : Fld := ⟨.sys, 0x110, 1, 1⟩
def R.SYS_FAULT_EVT.TRANSIENT : Fld := ⟨.sys, 0x110, 0, 1⟩
def R.SYS_FAULT_EVT_CNT0.reg : Reg := ⟨.sys, 0x114⟩
def R.SYS_FAULT_EVT_CNT0.LASTING_CNT : Fld := ⟨.sys, 0x114, 16, 16⟩
def R.SYS_FAULT_EVT_CNT0.TRANSIENT_CNT : Fld := ⟨.sys, 0x114, 0, 16⟩
def R.SYS_FAULT_EVT_CNT1.reg : Reg := ⟨.sys, 0x118⟩
def R.SYS_FAULT_EVT_CNT1.SPARES_OUT_CNT : Fld := ⟨.sys, 0x118, 16, 16⟩
def R.SYS_FAULT_EVT_CNT1.SPARES_LOW_CNT : Fld := ⟨.sys, 0x118, 0, 16⟩
def R.SYS_FAULT_EVT_CNT2.reg : Reg := ⟨.sys, 0x11c⟩
def R.SYS_FAULT_EVT_CNT2.ENG_STOP_CNT : Fld := ⟨.sys, 0x11c, 0, 16⟩
def R.SYS_FAULT_LAST.reg : Reg := ⟨.sys, 0x120⟩
def R.SYS_FAULT_LAST.CLASS : Fld := ⟨.sys, 0x120, 28, 4⟩
def R.SYS_FAULT_LAST.OUTCOME : Fld := ⟨.sys, 0x120, 26, 2⟩
def R.SYS_FAULT_LAST.ELEMENT : Fld := ⟨.sys, 0x120, 0, 24⟩
def R.SYS_HARROW.reg : Reg := ⟨.sys, 0x124⟩
def R.SYS_HARROW.RUNNING : Fld := ⟨.sys, 0x124, 0, 8⟩
def R.SYS_ENG_DROP.reg : Reg := ⟨.sys, 0x128⟩
def R.SYS_ENG_DROP.DROP : Fld := ⟨.sys, 0x128, 0, 32⟩
def R.SYS_WEAR_SEL.reg : Reg := ⟨.sys, 0x130⟩
def R.SYS_WEAR_SEL.ITEM : Fld := ⟨.sys, 0x130, 0, 4⟩
def R.SYS_WEAR_DATA.reg : Reg := ⟨.sys, 0x134⟩
def R.SYS_WEAR_DATA.DATA : Fld := ⟨.sys, 0x134, 0, 32⟩
def R.SYS_PAIR_CFG.reg : Reg := ⟨.sys, 0x200⟩
def R.SYS_PAIR_CFG.EN : Fld := ⟨.sys, 0x200, 31, 1⟩
def R.SYS_PAIR_PEER_MAC_LO.reg : Reg := ⟨.sys, 0x204⟩
def R.SYS_PAIR_PEER_MAC_LO.MAC_LO : Fld := ⟨.sys, 0x204, 0, 32⟩
def R.SYS_PAIR_PEER_MAC_HI.reg : Reg := ⟨.sys, 0x208⟩
def R.SYS_PAIR_PEER_MAC_HI.MAC_HI : Fld := ⟨.sys, 0x208, 0, 16⟩
def R.SYS_PAIR_STATUS.reg : Reg := ⟨.sys, 0x20c⟩
def R.SYS_PAIR_STATUS.ROLE : Fld := ⟨.sys, 0x20c, 29, 3⟩
def R.SYS_PAIR_STATUS.SLOT : Fld := ⟨.sys, 0x20c, 28, 1⟩
def R.SYS_PAIR_STATUS.PRESENT : Fld := ⟨.sys, 0x20c, 27, 1⟩
def R.SYS_PAIR_STATUS.PAIR_LINK : Fld := ⟨.sys, 0x20c, 26, 1⟩
def R.SYS_PAIR_STATUS.RING_VIEW : Fld := ⟨.sys, 0x20c, 25, 1⟩
def R.SYS_PAIR_STATUS.BRIDGE : Fld := ⟨.sys, 0x20c, 24, 1⟩
def R.SYS_PAIR_EPOCH.reg : Reg := ⟨.sys, 0x210⟩
def R.SYS_PAIR_EPOCH.EPOCH : Fld := ⟨.sys, 0x210, 0, 32⟩
def R.SYS_PAIR_LEASE.reg : Reg := ⟨.sys, 0x214⟩
def R.SYS_PAIR_LEASE.AGE_MS : Fld := ⟨.sys, 0x214, 0, 16⟩
def R.SYS_PAIR_CKPT.reg : Reg := ⟨.sys, 0x218⟩
def R.SYS_PAIR_CKPT.AGE_MS : Fld := ⟨.sys, 0x218, 0, 32⟩
def R.SYS_PAIR_EVT.reg : Reg := ⟨.sys, 0x21c⟩
def R.SYS_PAIR_EVT.GHOST_EVICT : Fld := ⟨.sys, 0x21c, 5, 1⟩
def R.SYS_PAIR_EVT.GHOST : Fld := ⟨.sys, 0x21c, 4, 1⟩
def R.SYS_PAIR_EVT.CKPT_STALE : Fld := ⟨.sys, 0x21c, 3, 1⟩
def R.SYS_PAIR_EVT.FENCED : Fld := ⟨.sys, 0x21c, 2, 1⟩
def R.SYS_PAIR_EVT.TAKEOVER : Fld := ⟨.sys, 0x21c, 1, 1⟩
def R.SYS_PAIR_EVT.PAIR_LINK_DOWN : Fld := ⟨.sys, 0x21c, 0, 1⟩
def R.SYS_PAIR_EVT_CNT0.reg : Reg := ⟨.sys, 0x220⟩
def R.SYS_PAIR_EVT_CNT0.TAKEOVER_CNT : Fld := ⟨.sys, 0x220, 16, 16⟩
def R.SYS_PAIR_EVT_CNT0.PAIR_LINK_DOWN_CNT : Fld := ⟨.sys, 0x220, 0, 16⟩
def R.SYS_PAIR_EVT_CNT1.reg : Reg := ⟨.sys, 0x224⟩
def R.SYS_PAIR_EVT_CNT1.CKPT_STALE_CNT : Fld := ⟨.sys, 0x224, 16, 16⟩
def R.SYS_PAIR_EVT_CNT1.FENCED_CNT : Fld := ⟨.sys, 0x224, 0, 16⟩
def R.SYS_PAIR_EVT_CNT2.reg : Reg := ⟨.sys, 0x228⟩
def R.SYS_PAIR_EVT_CNT2.GHOST_EVICT_CNT : Fld := ⟨.sys, 0x228, 16, 16⟩
def R.SYS_PAIR_EVT_CNT2.GHOST_CNT : Fld := ⟨.sys, 0x228, 0, 16⟩
def R.SYS_GHOST_USED.reg : Reg := ⟨.sys, 0x22c⟩
def R.SYS_GHOST_USED.USED : Fld := ⟨.sys, 0x22c, 0, 14⟩
def R.SYS_RST_CAUSE.reg : Reg := ⟨.sys, 0x300⟩
def R.SYS_RST_CAUSE.PFW : Fld := ⟨.sys, 0x300, 7, 1⟩
def R.SYS_RST_CAUSE.IN_LOW : Fld := ⟨.sys, 0x300, 6, 1⟩
def R.SYS_RST_CAUSE.WDOG_CONTROL : Fld := ⟨.sys, 0x300, 5, 1⟩
def R.SYS_RST_CAUSE.WDOG_FULL : Fld := ⟨.sys, 0x300, 4, 1⟩
def R.SYS_RST_CAUSE.CMD_CONTROL : Fld := ⟨.sys, 0x300, 3, 1⟩
def R.SYS_RST_CAUSE.CMD_FULL : Fld := ⟨.sys, 0x300, 2, 1⟩
def R.SYS_RST_CAUSE.SHUTDOWN : Fld := ⟨.sys, 0x300, 1, 1⟩
def R.SYS_RST_CAUSE.POWER_ON : Fld := ⟨.sys, 0x300, 0, 1⟩
def R.SYS_RST_CMD.reg : Reg := ⟨.sys, 0x304⟩
def R.SYS_RST_CMD.KEY : Fld := ⟨.sys, 0x304, 16, 16⟩
def R.SYS_RST_CMD.CMD : Fld := ⟨.sys, 0x304, 0, 4⟩
def R.SYS_PWR_STATUS.reg : Reg := ⟨.sys, 0x308⟩
def R.SYS_PWR_STATUS.FWD_RUN : Fld := ⟨.sys, 0x308, 2, 1⟩
def R.SYS_PWR_STATUS.LIGHT_RUN : Fld := ⟨.sys, 0x308, 1, 1⟩
def R.SYS_PWR_STATUS.CTRL_UP : Fld := ⟨.sys, 0x308, 0, 1⟩
def R.SYS_START_CTRL_MS.reg : Reg := ⟨.sys, 0x30c⟩
def R.SYS_START_CTRL_MS.MS : Fld := ⟨.sys, 0x30c, 0, 32⟩
def R.SYS_START_LIGHT_MS.reg : Reg := ⟨.sys, 0x310⟩
def R.SYS_START_LIGHT_MS.MS : Fld := ⟨.sys, 0x310, 0, 32⟩
def R.SYS_START_FWD_MS.reg : Reg := ⟨.sys, 0x314⟩
def R.SYS_START_FWD_MS.MS : Fld := ⟨.sys, 0x314, 0, 32⟩
def R.SYS_WDOG_CFG.reg : Reg := ⟨.sys, 0x318⟩
def R.SYS_WDOG_CFG.EN : Fld := ⟨.sys, 0x318, 31, 1⟩
def R.SYS_WDOG_CFG.TMO : Fld := ⟨.sys, 0x318, 0, 16⟩
def R.SYS_WDOG_KICK.reg : Reg := ⟨.sys, 0x31c⟩
def R.SYS_WDOG_KICK.KICK : Fld := ⟨.sys, 0x31c, 0, 32⟩
def R.SYS_WDOG_CNT.reg : Reg := ⟨.sys, 0x320⟩
def R.SYS_WDOG_CNT.COUNT : Fld := ⟨.sys, 0x320, 0, 2⟩
def R.SYS_PWR_CYCLES.reg : Reg := ⟨.sys, 0x324⟩
def R.SYS_PWR_CYCLES.CYCLES : Fld := ⟨.sys, 0x324, 0, 32⟩
def R.TIME_NOW0.reg : Reg := ⟨.time, 0x0⟩
def R.TIME_NOW0.NOW0 : Fld := ⟨.time, 0x0, 0, 32⟩
def R.TIME_NOW1.reg : Reg := ⟨.time, 0x4⟩
def R.TIME_NOW1.NOW1 : Fld := ⟨.time, 0x4, 0, 32⟩
def R.TIME_NOW2.reg : Reg := ⟨.time, 0x8⟩
def R.TIME_NOW2.NOW2 : Fld := ⟨.time, 0x8, 0, 32⟩
def R.TIME_NOW_STEP.reg : Reg := ⟨.time, 0xc⟩
def R.TIME_NOW_STEP.STEP : Fld := ⟨.time, 0xc, 0, 8⟩
def R.TIME_INCR_LO.reg : Reg := ⟨.time, 0x10⟩
def R.TIME_INCR_LO.INCR_LO : Fld := ⟨.time, 0x10, 0, 32⟩
def R.TIME_INCR_HI.reg : Reg := ⟨.time, 0x14⟩
def R.TIME_INCR_HI.INCR_HI : Fld := ⟨.time, 0x14, 0, 8⟩
def R.TIME_ADJ.reg : Reg := ⟨.time, 0x18⟩
def R.TIME_ADJ.ADJ : Fld := ⟨.time, 0x18, 0, 32⟩
def R.TIME_SLEW.reg : Reg := ⟨.time, 0x1c⟩
def R.TIME_SLEW.PPM : Fld := ⟨.time, 0x1c, 0, 9⟩
def R.TIME_SET.reg (w : Nat) : Reg := ⟨.time, 0x20 + 0x4 * w⟩
def R.TIME_SET.SET (w : Nat) : Fld := ⟨.time, 0x20 + 0x4 * w, 0, 32⟩
def R.TIME_OFS_LO.reg : Reg := ⟨.time, 0x30⟩
def R.TIME_OFS_LO.OFS : Fld := ⟨.time, 0x30, 0, 32⟩
def R.TIME_OFS_HI.reg : Reg := ⟨.time, 0x34⟩
def R.TIME_OFS_HI.OFS : Fld := ⟨.time, 0x34, 0, 32⟩
def R.TIME_CMD.reg : Reg := ⟨.time, 0x38⟩
def R.TIME_CMD.CMD : Fld := ⟨.time, 0x38, 0, 4⟩
def R.TIME_STATUS.reg : Reg := ⟨.time, 0x40⟩
def R.TIME_STATUS.SLEWING : Fld := ⟨.time, 0x40, 31, 1⟩
def R.TIME_STATUS.STEP : Fld := ⟨.time, 0x40, 0, 8⟩
def R.TIME_ADJ_LEFT.reg : Reg := ⟨.time, 0x44⟩
def R.TIME_ADJ_LEFT.LEFT : Fld := ⟨.time, 0x44, 0, 32⟩
def R.TIME_SYNC.reg : Reg := ⟨.time, 0x48⟩
def R.TIME_SYNC.STATE : Fld := ⟨.time, 0x48, 29, 3⟩
def R.TIME_SYNC.SRC : Fld := ⟨.time, 0x48, 27, 2⟩
def R.TIME_SYNC.PORT : Fld := ⟨.time, 0x48, 0, 9⟩
def R.TIME_UTCOFF.reg : Reg := ⟨.time, 0x4c⟩
def R.TIME_UTCOFF.UTCOFF : Fld := ⟨.time, 0x4c, 0, 32⟩
def R.TIME_SRC_CFG.reg : Reg := ⟨.time, 0x50⟩
def R.TIME_SRC_CFG.MODE : Fld := ⟨.time, 0x50, 0, 2⟩
def R.TIME_EVT.reg : Reg := ⟨.time, 0x60⟩
def R.TIME_EVT.INCR_CLAMP : Fld := ⟨.time, 0x60, 5, 1⟩
def R.TIME_EVT.PPS_IN_MISS : Fld := ⟨.time, 0x60, 4, 1⟩
def R.TIME_EVT.LATE : Fld := ⟨.time, 0x60, 3, 1⟩
def R.TIME_EVT.HOLDOVER : Fld := ⟨.time, 0x60, 2, 1⟩
def R.TIME_EVT.SUSPECT : Fld := ⟨.time, 0x60, 1, 1⟩
def R.TIME_EVT.STEPPED : Fld := ⟨.time, 0x60, 0, 1⟩
def R.TIME_EVT_CNT0.reg : Reg := ⟨.time, 0x64⟩
def R.TIME_EVT_CNT0.SUSPECT_CNT : Fld := ⟨.time, 0x64, 16, 16⟩
def R.TIME_EVT_CNT0.STEPPED_CNT : Fld := ⟨.time, 0x64, 0, 16⟩
def R.TIME_EVT_CNT1.reg : Reg := ⟨.time, 0x68⟩
def R.TIME_EVT_CNT1.LATE_CNT : Fld := ⟨.time, 0x68, 16, 16⟩
def R.TIME_EVT_CNT1.HOLDOVER_CNT : Fld := ⟨.time, 0x68, 0, 16⟩
def R.TIME_EVT_CNT2.reg : Reg := ⟨.time, 0x6c⟩
def R.TIME_EVT_CNT2.INCR_CLAMP_CNT : Fld := ⟨.time, 0x6c, 16, 16⟩
def R.TIME_EVT_CNT2.PPS_IN_MISS_CNT : Fld := ⟨.time, 0x6c, 0, 16⟩
def R.TIME_CAL_CFG.reg : Reg := ⟨.time, 0x80⟩
def R.TIME_CAL_CFG.COMP_EN : Fld := ⟨.time, 0x80, 31, 1⟩
def R.TIME_CAL_CFG.FETCH_LEAD : Fld := ⟨.time, 0x80, 0, 10⟩
def R.TIME_CAL_USED.reg : Reg := ⟨.time, 0x84⟩
def R.TIME_CAL_USED.USED : Fld := ⟨.time, 0x84, 0, 18⟩
def R.TIME_CAL_PEAK.reg : Reg := ⟨.time, 0x88⟩
def R.TIME_CAL_PEAK.PEAK : Fld := ⟨.time, 0x88, 0, 18⟩
def R.TIME_CAL_LATE.reg : Reg := ⟨.time, 0x8c⟩
def R.TIME_CAL_LATE.LATE : Fld := ⟨.time, 0x8c, 0, 32⟩
def R.TIME_PPS_CFG.reg : Reg := ⟨.time, 0xa0⟩
def R.TIME_PPS_CFG.OUT_EN : Fld := ⟨.time, 0xa0, 31, 1⟩
def R.TIME_PPS_CFG.FORCE : Fld := ⟨.time, 0xa0, 30, 1⟩
def R.TIME_PPS_CFG.TOD_EN : Fld := ⟨.time, 0xa0, 29, 1⟩
def R.TIME_PPS_CFG.WIDTH : Fld := ⟨.time, 0xa0, 16, 9⟩
def R.TIME_PPS_CFG.OFFSET : Fld := ⟨.time, 0xa0, 0, 16⟩
def R.TIME_PPS_IN.reg (w : Nat) : Reg := ⟨.time, 0xa4 + 0x4 * w⟩
def R.TIME_PPS_IN.PPS_IN (w : Nat) : Fld := ⟨.time, 0xa4 + 0x4 * w, 0, 32⟩
def R.TIME_PPS_IN_STEP.reg : Reg := ⟨.time, 0xb0⟩
def R.TIME_PPS_IN_STEP.VALID : Fld := ⟨.time, 0xb0, 31, 1⟩
def R.TIME_PPS_IN_STEP.STEP : Fld := ⟨.time, 0xb0, 0, 8⟩
def R.TIME_SYNCE_CFG.reg : Reg := ⟨.time, 0xc0⟩
def R.TIME_SYNCE_CFG.EN : Fld := ⟨.time, 0xc0, 31, 1⟩
def R.TIME_SYNCE_SRC.reg (i : Nat) : Reg := ⟨.time, 0xc4 + 0x4 * i⟩
def R.TIME_SYNCE_SRC.VALID (i : Nat) : Fld := ⟨.time, 0xc4 + 0x4 * i, 31, 1⟩
def R.TIME_SYNCE_SRC.PORT (i : Nat) : Fld := ⟨.time, 0xc4 + 0x4 * i, 0, 8⟩
def R.TIME_SYNCE_STATUS.reg : Reg := ⟨.time, 0xd4⟩
def R.TIME_SYNCE_STATUS.STATE : Fld := ⟨.time, 0xd4, 30, 2⟩
def R.TIME_SYNCE_STATUS.SEL : Fld := ⟨.time, 0xd4, 28, 2⟩
def R.TIME_SYNCE_STATUS.QL : Fld := ⟨.time, 0xd4, 0, 8⟩
def R.TIME_TS_STATUS.reg (p : Nat) : Reg := ⟨.time, 0x100 + 0x10 * p⟩
def R.TIME_TS_STATUS.LEVEL (p : Nat) : Fld := ⟨.time, 0x100 + 0x10 * p, 0, 7⟩
def R.TIME_TS_EVT.reg (p : Nat) : Reg := ⟨.time, 0x104 + 0x10 * p⟩
def R.TIME_TS_EVT.TS_OVF (p : Nat) : Fld := ⟨.time, 0x104 + 0x10 * p, 0, 1⟩
def R.TIME_TS_EVT_CNT.reg (p : Nat) : Reg := ⟨.time, 0x108 + 0x10 * p⟩
def R.TIME_TS_EVT_CNT.TS_OVF_CNT (p : Nat) : Fld := ⟨.time, 0x108 + 0x10 * p, 0, 16⟩
def R.TIME_TS_DATA0.reg (p : Nat) : Reg := ⟨.time, 0x200 + 0x10 * p⟩
def R.TIME_TS_DATA0.ID (p : Nat) : Fld := ⟨.time, 0x200 + 0x10 * p, 16, 16⟩
def R.TIME_TS_DATA0.PORT (p : Nat) : Fld := ⟨.time, 0x200 + 0x10 * p, 8, 8⟩
def R.TIME_TS_DATA0.STEP (p : Nat) : Fld := ⟨.time, 0x200 + 0x10 * p, 0, 8⟩
def R.TIME_TS_DATA123.reg (p w : Nat) : Reg := ⟨.time, 0x204 + 0x10 * p + 0x4 * w⟩
def R.TIME_TS_DATA123.TIME (p w : Nat) : Fld := ⟨.time, 0x204 + 0x10 * p + 0x4 * w, 0, 32⟩
def R.TIME_NODE_DLY_A.reg (k j : Nat) : Reg := ⟨.time, 0x10000 + 0x100 * k + 0x8 * j⟩
def R.TIME_NODE_DLY_A.DLY (k j : Nat) : Fld := ⟨.time, 0x10000 + 0x100 * k + 0x8 * j, 0, 20⟩
def R.TIME_NODE_DLY_B.reg (k j : Nat) : Reg := ⟨.time, 0x10004 + 0x100 * k + 0x8 * j⟩
def R.TIME_NODE_DLY_B.DLY (k j : Nat) : Fld := ⟨.time, 0x10004 + 0x100 * k + 0x8 * j, 0, 20⟩
def R.TIME_PTP_PORT.reg (n : Nat) : Reg := ⟨.time, 0x20000 + 0x4 * n⟩
def R.TIME_PTP_PORT.EN (n : Nat) : Fld := ⟨.time, 0x20000 + 0x4 * n, 31, 1⟩
def R.TIME_PTP_PORT.ONE_STEP (n : Nat) : Fld := ⟨.time, 0x20000 + 0x4 * n, 30, 1⟩
def R.TIME_PTP_PORT.ASYM (n : Nat) : Fld := ⟨.time, 0x20000 + 0x4 * n, 0, 16⟩
def R.RTC_TIME.reg : Reg := ⟨.rtc, 0x0⟩
def R.RTC_TIME.WDAY : Fld := ⟨.rtc, 0x0, 24, 3⟩
def R.RTC_TIME.HOUR : Fld := ⟨.rtc, 0x0, 16, 5⟩
def R.RTC_TIME.MIN : Fld := ⟨.rtc, 0x0, 8, 6⟩
def R.RTC_TIME.SEC : Fld := ⟨.rtc, 0x0, 0, 6⟩
def R.RTC_DATE.reg : Reg := ⟨.rtc, 0x4⟩
def R.RTC_DATE.YEAR : Fld := ⟨.rtc, 0x4, 12, 8⟩
def R.RTC_DATE.MONTH : Fld := ⟨.rtc, 0x4, 8, 4⟩
def R.RTC_DATE.DAY : Fld := ⟨.rtc, 0x4, 0, 5⟩
def R.RTC_SUBSEC.reg : Reg := ⟨.rtc, 0x8⟩
def R.RTC_SUBSEC.SUBSEC : Fld := ⟨.rtc, 0x8, 0, 17⟩
def R.RTC_STATUS.reg : Reg := ⟨.rtc, 0x10⟩
def R.RTC_STATUS.VALID : Fld := ⟨.rtc, 0x10, 31, 1⟩
def R.RTC_STATUS.ON_BATT : Fld := ⟨.rtc, 0x10, 30, 1⟩
def R.RTC_STATUS.ALIGN_WAIT : Fld := ⟨.rtc, 0x10, 29, 1⟩
def R.RTC_TEMP.reg : Reg := ⟨.rtc, 0x14⟩
def R.RTC_TEMP.TEMP : Fld := ⟨.rtc, 0x14, 0, 16⟩
def R.RTC_COMP.reg : Reg := ⟨.rtc, 0x18⟩
def R.RTC_COMP.N : Fld := ⟨.rtc, 0x18, 0, 13⟩
def R.RTC_COMP_PPB.reg : Reg := ⟨.rtc, 0x1c⟩
def R.RTC_COMP_PPB.PPB : Fld := ⟨.rtc, 0x1c, 0, 32⟩
def R.RTC_TRIM.reg : Reg := ⟨.rtc, 0x20⟩
def R.RTC_TRIM.TRIM : Fld := ⟨.rtc, 0x20, 0, 32⟩
def R.RTC_CMD.reg : Reg := ⟨.rtc, 0x24⟩
def R.RTC_CMD.CMD : Fld := ⟨.rtc, 0x24, 0, 4⟩
def R.RTC_EVT.reg : Reg := ⟨.rtc, 0x28⟩
def R.RTC_EVT.ALIGN_REFUSED : Fld := ⟨.rtc, 0x28, 4, 1⟩
def R.RTC_EVT.ALIGNED : Fld := ⟨.rtc, 0x28, 3, 1⟩
def R.RTC_EVT.OSC_FAIL : Fld := ⟨.rtc, 0x28, 2, 1⟩
def R.RTC_EVT.ALM1 : Fld := ⟨.rtc, 0x28, 1, 1⟩
def R.RTC_EVT.ALM0 : Fld := ⟨.rtc, 0x28, 0, 1⟩
def R.RTC_EVT_CNT0.reg : Reg := ⟨.rtc, 0x2c⟩
def R.RTC_EVT_CNT0.ALM1_CNT : Fld := ⟨.rtc, 0x2c, 16, 16⟩
def R.RTC_EVT_CNT0.ALM0_CNT : Fld := ⟨.rtc, 0x2c, 0, 16⟩
def R.RTC_EVT_CNT1.reg : Reg := ⟨.rtc, 0x30⟩
def R.RTC_EVT_CNT1.OSC_FAIL_CNT : Fld := ⟨.rtc, 0x30, 16, 16⟩
def R.RTC_EVT_CNT1.ALIGNED_CNT : Fld := ⟨.rtc, 0x30, 0, 16⟩
def R.RTC_EVT_CNT2.reg : Reg := ⟨.rtc, 0x34⟩
def R.RTC_EVT_CNT2.ALIGN_REFUSED_CNT : Fld := ⟨.rtc, 0x34, 0, 16⟩
def R.RTC_ALM_CMP.reg (a : Nat) : Reg := ⟨.rtc, 0x40 + 0x8 * a⟩
def R.RTC_ALM_CMP.WDAY (a : Nat) : Fld := ⟨.rtc, 0x40 + 0x8 * a, 29, 3⟩
def R.RTC_ALM_CMP.MONTH (a : Nat) : Fld := ⟨.rtc, 0x40 + 0x8 * a, 25, 4⟩
def R.RTC_ALM_CMP.DAY (a : Nat) : Fld := ⟨.rtc, 0x40 + 0x8 * a, 20, 5⟩
def R.RTC_ALM_CMP.HOUR (a : Nat) : Fld := ⟨.rtc, 0x40 + 0x8 * a, 12, 5⟩
def R.RTC_ALM_CMP.MIN (a : Nat) : Fld := ⟨.rtc, 0x40 + 0x8 * a, 6, 6⟩
def R.RTC_ALM_CMP.SEC (a : Nat) : Fld := ⟨.rtc, 0x40 + 0x8 * a, 0, 6⟩
def R.RTC_ALM_CTL.reg (a : Nat) : Reg := ⟨.rtc, 0x44 + 0x8 * a⟩
def R.RTC_ALM_CTL.EN (a : Nat) : Fld := ⟨.rtc, 0x44 + 0x8 * a, 31, 1⟩
def R.RTC_ALM_CTL.IE (a : Nat) : Fld := ⟨.rtc, 0x44 + 0x8 * a, 30, 1⟩
def R.RTC_ALM_CTL.MASK (a : Nat) : Fld := ⟨.rtc, 0x44 + 0x8 * a, 0, 6⟩
def R.RTC_CURVE.reg (k : Nat) : Reg := ⟨.rtc, 0x80 + 0x4 * k⟩
def R.RTC_CURVE.PPB (k : Nat) : Fld := ⟨.rtc, 0x80 + 0x4 * k, 0, 32⟩
def R.KEY_LC_STATUS.reg : Reg := ⟨.key, 0x0⟩
def R.KEY_LC_STATUS.STATE : Fld := ⟨.key, 0x0, 29, 3⟩
def R.KEY_LC_STATUS.TRANSITION : Fld := ⟨.key, 0x0, 28, 1⟩
def R.KEY_LC_STATUS.TARGET : Fld := ⟨.key, 0x0, 25, 3⟩
def R.KEY_LC_STATUS.COMPAT_OK : Fld := ⟨.key, 0x0, 24, 1⟩
def R.KEY_LC_STATUS.FUSES : Fld := ⟨.key, 0x0, 19, 5⟩
def R.KEY_LC_CMD.reg : Reg := ⟨.key, 0x4⟩
def R.KEY_LC_CMD.KEY : Fld := ⟨.key, 0x4, 16, 16⟩
def R.KEY_LC_CMD.CMD : Fld := ⟨.key, 0x4, 0, 4⟩
def R.KEY_LC_NONCE_LO.reg : Reg := ⟨.key, 0x8⟩
def R.KEY_LC_NONCE_LO.NONCE : Fld := ⟨.key, 0x8, 0, 32⟩
def R.KEY_LC_NONCE_HI.reg : Reg := ⟨.key, 0xc⟩
def R.KEY_LC_NONCE_HI.NONCE : Fld := ⟨.key, 0xc, 0, 32⟩
def R.KEY_STATUS.reg : Reg := ⟨.key, 0x10⟩
def R.KEY_STATUS.ZEROISED : Fld := ⟨.key, 0x10, 31, 1⟩
def R.KEY_STATUS.ROOT_VALID : Fld := ⟨.key, 0x10, 30, 1⟩
def R.KEY_STATUS.ENTROPY_OK : Fld := ⟨.key, 0x10, 29, 1⟩
def R.KEY_STATUS.SHADOWS : Fld := ⟨.key, 0x10, 25, 4⟩
def R.KEY_STATUS.SLOTS : Fld := ⟨.key, 0x10, 17, 8⟩
def R.KEY_EVT.reg : Reg := ⟨.key, 0x14⟩
def R.KEY_EVT.ENTROPY_FAIL : Fld := ⟨.key, 0x14, 7, 1⟩
def R.KEY_EVT.PUF_FAIL : Fld := ⟨.key, 0x14, 6, 1⟩
def R.KEY_EVT.REPL_FAIL : Fld := ⟨.key, 0x14, 5, 1⟩
def R.KEY_EVT.REPL_DONE : Fld := ⟨.key, 0x14, 4, 1⟩
def R.KEY_EVT.LC_REFUSED : Fld := ⟨.key, 0x14, 3, 1⟩
def R.KEY_EVT.LC_DONE : Fld := ⟨.key, 0x14, 2, 1⟩
def R.KEY_EVT.KEYS_LOST_POWER : Fld := ⟨.key, 0x14, 1, 1⟩
def R.KEY_EVT.TAMPER : Fld := ⟨.key, 0x14, 0, 1⟩
def R.KEY_EVT_CNT0.reg : Reg := ⟨.key, 0x18⟩
def R.KEY_EVT_CNT0.KEYS_LOST_POWER_CNT : Fld := ⟨.key, 0x18, 16, 16⟩
def R.KEY_EVT_CNT0.TAMPER_CNT : Fld := ⟨.key, 0x18, 0, 16⟩
def R.KEY_EVT_CNT1.reg : Reg := ⟨.key, 0x1c⟩
def R.KEY_EVT_CNT1.LC_REFUSED_CNT : Fld := ⟨.key, 0x1c, 16, 16⟩
def R.KEY_EVT_CNT1.LC_DONE_CNT : Fld := ⟨.key, 0x1c, 0, 16⟩
def R.KEY_EVT_CNT2.reg : Reg := ⟨.key, 0x20⟩
def R.KEY_EVT_CNT2.REPL_FAIL_CNT : Fld := ⟨.key, 0x20, 16, 16⟩
def R.KEY_EVT_CNT2.REPL_DONE_CNT : Fld := ⟨.key, 0x20, 0, 16⟩
def R.KEY_EVT_CNT3.reg : Reg := ⟨.key, 0x24⟩
def R.KEY_EVT_CNT3.ENTROPY_FAIL_CNT : Fld := ⟨.key, 0x24, 16, 16⟩
def R.KEY_EVT_CNT3.PUF_FAIL_CNT : Fld := ⟨.key, 0x24, 0, 16⟩
def R.KEY_TAMP_STATUS.reg : Reg := ⟨.key, 0x30⟩
def R.KEY_TAMP_STATUS.CAUSE : Fld := ⟨.key, 0x30, 16, 7⟩
def R.KEY_TAMP_STATUS.NOW : Fld := ⟨.key, 0x30, 0, 7⟩
def R.KEY_TAMP_CFG.reg : Reg := ⟨.key, 0x34⟩
def R.KEY_TAMP_CFG.LOOP_MASK : Fld := ⟨.key, 0x34, 0, 2⟩
def R.KEY_TAMP_TEMP.reg : Reg := ⟨.key, 0x38⟩
def R.KEY_TAMP_TEMP.TEMP : Fld := ⟨.key, 0x38, 0, 16⟩
def R.KEY_OP_CMD.reg : Reg := ⟨.key, 0x100⟩
def R.KEY_OP_CMD.SLOT_B : Fld := ⟨.key, 0x100, 18, 8⟩
def R.KEY_OP_CMD.SLOT_A : Fld := ⟨.key, 0x100, 10, 8⟩
def R.KEY_OP_CMD.OP : Fld := ⟨.key, 0x100, 0, 6⟩
def R.KEY_OP_LEN.reg : Reg := ⟨.key, 0x104⟩
def R.KEY_OP_LEN.AUX_LEN : Fld := ⟨.key, 0x104, 16, 16⟩
def R.KEY_OP_LEN.IN_LEN : Fld := ⟨.key, 0x104, 0, 13⟩
def R.KEY_OP_ATTR.reg : Reg := ⟨.key, 0x108⟩
def R.KEY_OP_ATTR.TYPE : Fld := ⟨.key, 0x108, 28, 4⟩
def R.KEY_OP_ATTR.USAGE : Fld := ⟨.key, 0x108, 23, 5⟩
def R.KEY_OP_ATTR.TAGS : Fld := ⟨.key, 0x108, 18, 5⟩
def R.KEY_OP_ATTR.EPHEMERAL : Fld := ⟨.key, 0x108, 17, 1⟩
def R.KEY_OP_ATTR.COMPAT : Fld := ⟨.key, 0x108, 16, 1⟩
def R.KEY_OP_LABEL.reg : Reg := ⟨.key, 0x10c⟩
def R.KEY_OP_LABEL.LABEL : Fld := ⟨.key, 0x10c, 0, 32⟩
def R.KEY_OP_STATUS.reg : Reg := ⟨.key, 0x110⟩
def R.KEY_OP_STATUS.BUSY : Fld := ⟨.key, 0x110, 31, 1⟩
def R.KEY_OP_STATUS.RESULT : Fld := ⟨.key, 0x110, 16, 8⟩
def R.KEY_OP_STATUS.OUT_LEN : Fld := ⟨.key, 0x110, 0, 13⟩
def R.KEY_OP_TIME.reg : Reg := ⟨.key, 0x114⟩
def R.KEY_OP_TIME.TIME : Fld := ⟨.key, 0x114, 0, 32⟩
def R.KEY_PUB_SEL.reg : Reg := ⟨.key, 0x118⟩
def R.KEY_PUB_SEL.SLOT : Fld := ⟨.key, 0x118, 0, 7⟩
def R.KEY_BUF.reg (w : Nat) : Reg := ⟨.key, 0x1000 + 0x4 * w⟩
def R.KEY_BUF.DATA (w : Nat) : Fld := ⟨.key, 0x1000 + 0x4 * w, 0, 32⟩
def R.KEY_SLOT_INFO.reg (s : Nat) : Reg := ⟨.key, 0x2000 + 0x10 * s⟩
def R.KEY_SLOT_INFO.VALID (s : Nat) : Fld := ⟨.key, 0x2000 + 0x10 * s, 31, 1⟩
def R.KEY_SLOT_INFO.TYPE (s : Nat) : Fld := ⟨.key, 0x2000 + 0x10 * s, 27, 4⟩
def R.KEY_SLOT_INFO.USAGE (s : Nat) : Fld := ⟨.key, 0x2000 + 0x10 * s, 22, 5⟩
def R.KEY_SLOT_INFO.TAGS (s : Nat) : Fld := ⟨.key, 0x2000 + 0x10 * s, 17, 5⟩
def R.KEY_SLOT_INFO.ORIGIN (s : Nat) : Fld := ⟨.key, 0x2000 + 0x10 * s, 15, 2⟩
def R.KEY_SLOT_INFO.EPHEMERAL (s : Nat) : Fld := ⟨.key, 0x2000 + 0x10 * s, 14, 1⟩
def R.KEY_SLOT_INFO.SHADOW (s : Nat) : Fld := ⟨.key, 0x2000 + 0x10 * s, 13, 1⟩
def R.KEY_SLOT_INFO.VERIFIED (s : Nat) : Fld := ⟨.key, 0x2000 + 0x10 * s, 12, 1⟩
def R.KEY_SLOT_INFO.BITS (s : Nat) : Fld := ⟨.key, 0x2000 + 0x10 * s, 0, 10⟩
def R.KEY_SLOT_LABEL.reg (s : Nat) : Reg := ⟨.key, 0x2004 + 0x10 * s⟩
def R.KEY_SLOT_LABEL.LABEL (s : Nat) : Fld := ⟨.key, 0x2004 + 0x10 * s, 0, 32⟩
def R.KEY_SLOT_GEN.reg (s : Nat) : Reg := ⟨.key, 0x2008 + 0x10 * s⟩
def R.KEY_SLOT_GEN.GEN (s : Nat) : Fld := ⟨.key, 0x2008 + 0x10 * s, 0, 8⟩
def R.KEY_PUB.reg (w : Nat) : Reg := ⟨.key, 0x3000 + 0x4 * w⟩
def R.KEY_PUB.PUB (w : Nat) : Fld := ⟨.key, 0x3000 + 0x4 * w, 0, 32⟩
def R.KEY_MB.reg (w : Nat) : Reg := ⟨.key, 0x3100 + 0x4 * w⟩
def R.KEY_MB.MB (w : Nat) : Fld := ⟨.key, 0x3100 + 0x4 * w, 0, 32⟩
def R.REC_CFG.reg : Reg := ⟨.rcd, 0x0⟩
def R.REC_CFG.FLUSH_SEV : Fld := ⟨.rcd, 0x0, 0, 2⟩
def R.REC_CMD.reg : Reg := ⟨.rcd, 0x4⟩
def R.REC_CMD.CMD : Fld := ⟨.rcd, 0x4, 0, 4⟩
def R.REC_STATUS.reg : Reg := ⟨.rcd, 0x8⟩
def R.REC_STATUS.REFUSING : Fld := ⟨.rcd, 0x8, 31, 1⟩
def R.REC_STATUS.COPY_BUSY : Fld := ⟨.rcd, 0x8, 30, 1⟩
def R.REC_STATUS.B : Fld := ⟨.rcd, 0x8, 2, 2⟩
def R.REC_STATUS.A : Fld := ⟨.rcd, 0x8, 0, 2⟩
def R.REC_EVT.reg : Reg := ⟨.rcd, 0xc⟩
def R.REC_EVT.APP_BAD : Fld := ⟨.rcd, 0xc, 4, 1⟩
def R.REC_EVT.COPY_DONE : Fld := ⟨.rcd, 0xc, 3, 1⟩
def R.REC_EVT.WRAP : Fld := ⟨.rcd, 0xc, 2, 1⟩
def R.REC_EVT.LOG_GAP : Fld := ⟨.rcd, 0xc, 1, 1⟩
def R.REC_EVT.LOST : Fld := ⟨.rcd, 0xc, 0, 1⟩
def R.REC_EVT_CNT0.reg : Reg := ⟨.rcd, 0x10⟩
def R.REC_EVT_CNT0.LOG_GAP_CNT : Fld := ⟨.rcd, 0x10, 16, 16⟩
def R.REC_EVT_CNT0.LOST_CNT : Fld := ⟨.rcd, 0x10, 0, 16⟩
def R.REC_EVT_CNT1.reg : Reg := ⟨.rcd, 0x14⟩
def R.REC_EVT_CNT1.COPY_DONE_CNT : Fld := ⟨.rcd, 0x14, 16, 16⟩
def R.REC_EVT_CNT1.WRAP_CNT : Fld := ⟨.rcd, 0x14, 0, 16⟩
def R.REC_EVT_CNT2.reg : Reg := ⟨.rcd, 0x18⟩
def R.REC_EVT_CNT2.APP_BAD_CNT : Fld := ⟨.rcd, 0x18, 0, 16⟩
def R.REC_FIRST_SEQ_LO.reg : Reg := ⟨.rcd, 0x20⟩
def R.REC_FIRST_SEQ_LO.SEQ : Fld := ⟨.rcd, 0x20, 0, 32⟩
def R.REC_FIRST_SEQ_HI.reg : Reg := ⟨.rcd, 0x24⟩
def R.REC_FIRST_SEQ_HI.SEQ : Fld := ⟨.rcd, 0x24, 0, 32⟩
def R.REC_LAST_SEQ_LO.reg : Reg := ⟨.rcd, 0x28⟩
def R.REC_LAST_SEQ_LO.SEQ : Fld := ⟨.rcd, 0x28, 0, 32⟩
def R.REC_LAST_SEQ_HI.reg : Reg := ⟨.rcd, 0x2c⟩
def R.REC_LAST_SEQ_HI.SEQ : Fld := ⟨.rcd, 0x2c, 0, 32⟩
def R.REC_FLASH_SEQ_LO.reg : Reg := ⟨.rcd, 0x30⟩
def R.REC_FLASH_SEQ_LO.SEQ : Fld := ⟨.rcd, 0x30, 0, 32⟩
def R.REC_FLASH_SEQ_HI.reg : Reg := ⟨.rcd, 0x34⟩
def R.REC_FLASH_SEQ_HI.SEQ : Fld := ⟨.rcd, 0x34, 0, 32⟩
def R.REC_LOST_PEND.reg : Reg := ⟨.rcd, 0x38⟩
def R.REC_LOST_PEND.PEND : Fld := ⟨.rcd, 0x38, 0, 32⟩
def R.REC_LOST_TOTAL.reg : Reg := ⟨.rcd, 0x3c⟩
def R.REC_LOST_TOTAL.TOTAL : Fld := ⟨.rcd, 0x3c, 0, 32⟩
def R.REC_LOG_SIZE.reg : Reg := ⟨.rcd, 0x40⟩
def R.REC_LOG_SIZE.BLOCKS : Fld := ⟨.rcd, 0x40, 0, 9⟩
def R.REC_LOG_GAP_CNT.reg : Reg := ⟨.rcd, 0x44⟩
def R.REC_LOG_GAP_CNT.GAPS : Fld := ⟨.rcd, 0x44, 0, 32⟩
def R.REC_SEL_SEQ_LO.reg : Reg := ⟨.rcd, 0x48⟩
def R.REC_SEL_SEQ_LO.SEQ : Fld := ⟨.rcd, 0x48, 0, 32⟩
def R.REC_SEL_SEQ_HI.reg : Reg := ⟨.rcd, 0x4c⟩
def R.REC_SEL_SEQ_HI.SEQ : Fld := ⟨.rcd, 0x4c, 0, 32⟩
def R.REC_SEL_STATUS.reg : Reg := ⟨.rcd, 0x50⟩
def R.REC_SEL_STATUS.RESULT : Fld := ⟨.rcd, 0x50, 0, 3⟩
def R.REC_COPY_SEQ_LO.reg : Reg := ⟨.rcd, 0x58⟩
def R.REC_COPY_SEQ_LO.SEQ : Fld := ⟨.rcd, 0x58, 0, 32⟩
def R.REC_COPY_SEQ_HI.reg : Reg := ⟨.rcd, 0x5c⟩
def R.REC_COPY_SEQ_HI.SEQ : Fld := ⟨.rcd, 0x5c, 0, 32⟩
def R.REC_COPY_ADDR_LO.reg : Reg := ⟨.rcd, 0x60⟩
def R.REC_COPY_ADDR_LO.ADDR : Fld := ⟨.rcd, 0x60, 0, 32⟩
def R.REC_COPY_ADDR_HI.reg : Reg := ⟨.rcd, 0x64⟩
def R.REC_COPY_ADDR_HI.ADDR : Fld := ⟨.rcd, 0x64, 0, 8⟩
def R.REC_COPY_LEN.reg : Reg := ⟨.rcd, 0x68⟩
def R.REC_COPY_LEN.LEN : Fld := ⟨.rcd, 0x68, 0, 26⟩
def R.REC_COPY_LAST_LO.reg : Reg := ⟨.rcd, 0x70⟩
def R.REC_COPY_LAST_LO.SEQ : Fld := ⟨.rcd, 0x70, 0, 32⟩
def R.REC_COPY_LAST_HI.reg : Reg := ⟨.rcd, 0x74⟩
def R.REC_COPY_LAST_HI.SEQ : Fld := ⟨.rcd, 0x74, 0, 32⟩
def R.REC_COPY_BYTES.reg : Reg := ⟨.rcd, 0x78⟩
def R.REC_COPY_BYTES.BYTES : Fld := ⟨.rcd, 0x78, 0, 26⟩
def R.REC_LDG_STATUS.reg : Reg := ⟨.rcd, 0x80⟩
def R.REC_LDG_STATUS.BUSY : Fld := ⟨.rcd, 0x80, 31, 1⟩
def R.REC_LDG_STATUS.BANK1_OK : Fld := ⟨.rcd, 0x80, 1, 1⟩
def R.REC_LDG_STATUS.BANK0_OK : Fld := ⟨.rcd, 0x80, 0, 1⟩
def R.REC_LDG_EVT.reg : Reg := ⟨.rcd, 0x84⟩
def R.REC_LDG_EVT.REPAIRED : Fld := ⟨.rcd, 0x84, 2, 1⟩
def R.REC_LDG_EVT.BANK1_ERR : Fld := ⟨.rcd, 0x84, 1, 1⟩
def R.REC_LDG_EVT.BANK0_ERR : Fld := ⟨.rcd, 0x84, 0, 1⟩
def R.REC_LDG_EVT_CNT0.reg : Reg := ⟨.rcd, 0x88⟩
def R.REC_LDG_EVT_CNT0.BANK1_ERR_CNT : Fld := ⟨.rcd, 0x88, 16, 16⟩
def R.REC_LDG_EVT_CNT0.BANK0_ERR_CNT : Fld := ⟨.rcd, 0x88, 0, 16⟩
def R.REC_LDG_EVT_CNT1.reg : Reg := ⟨.rcd, 0x8c⟩
def R.REC_LDG_EVT_CNT1.REPAIRED_CNT : Fld := ⟨.rcd, 0x8c, 0, 16⟩
def R.REC_LDG_SEQ_LO.reg : Reg := ⟨.rcd, 0x90⟩
def R.REC_LDG_SEQ_LO.SEQ : Fld := ⟨.rcd, 0x90, 0, 32⟩
def R.REC_LDG_SEQ_HI.reg : Reg := ⟨.rcd, 0x94⟩
def R.REC_LDG_SEQ_HI.SEQ : Fld := ⟨.rcd, 0x94, 0, 32⟩
def R.REC_LDG_ADDR.reg : Reg := ⟨.rcd, 0x98⟩
def R.REC_LDG_ADDR.WORD : Fld := ⟨.rcd, 0x98, 2, 22⟩
def R.REC_LDG_DATA.reg : Reg := ⟨.rcd, 0x9c⟩
def R.REC_LDG_DATA.DATA : Fld := ⟨.rcd, 0x9c, 0, 32⟩
def R.REC_APP_HDR.reg : Reg := ⟨.rcd, 0xa0⟩
def R.REC_APP_HDR.SEV : Fld := ⟨.rcd, 0xa0, 30, 2⟩
def R.REC_APP_HDR.LENGTH : Fld := ⟨.rcd, 0xa0, 16, 11⟩
def R.REC_APP_HDR.CODE : Fld := ⟨.rcd, 0xa0, 0, 16⟩
def R.REC_APP_SRC.reg : Reg := ⟨.rcd, 0xa4⟩
def R.REC_APP_SRC.SOURCE : Fld := ⟨.rcd, 0xa4, 0, 16⟩
def R.REC_SEL_DATA.reg (w : Nat) : Reg := ⟨.rcd, 0x100 + 0x4 * w⟩
def R.REC_SEL_DATA.DATA (w : Nat) : Fld := ⟨.rcd, 0x100 + 0x4 * w, 0, 32⟩
def R.REC_APP_DATA.reg (w : Nat) : Reg := ⟨.rcd, 0x600 + 0x4 * w⟩
def R.REC_APP_DATA.DATA (w : Nat) : Fld := ⟨.rcd, 0x600 + 0x4 * w, 0, 32⟩
def R.FE_CMD.reg (i : Nat) : Reg := ⟨.fe, 0x0 + 0x100000 * i⟩
def R.FE_CMD.CMD (i : Nat) : Fld := ⟨.fe, 0x0 + 0x100000 * i, 0, 4⟩
def R.FE_STATUS.reg (i : Nat) : Reg := ⟨.fe, 0x4 + 0x100000 * i⟩
def R.FE_STATUS.LOGICAL (i : Nat) : Fld := ⟨.fe, 0x4 + 0x100000 * i, 24, 8⟩
def R.FE_STATUS.ROLE (i : Nat) : Fld := ⟨.fe, 0x4 + 0x100000 * i, 20, 4⟩
def R.FE_STATUS.STATE (i : Nat) : Fld := ⟨.fe, 0x4 + 0x100000 * i, 16, 4⟩
def R.FE_CFG.reg (i : Nat) : Reg := ⟨.fe, 0x8 + 0x100000 * i⟩
def R.FE_CFG.EXC_ACT (i : Nat) : Fld := ⟨.fe, 0x8 + 0x100000 * i, 1, 1⟩
def R.FE_CFG.DEBUG (i : Nat) : Fld := ⟨.fe, 0x8 + 0x100000 * i, 0, 1⟩
def R.FE_PC.reg (i : Nat) : Reg := ⟨.fe, 0xc + 0x100000 * i⟩
def R.FE_PC.PC (i : Nat) : Fld := ⟨.fe, 0xc + 0x100000 * i, 0, 16⟩
def R.FE_EXC.reg (i : Nat) : Reg := ⟨.fe, 0x10 + 0x100000 * i⟩
def R.FE_EXC.CODE (i : Nat) : Fld := ⟨.fe, 0x10 + 0x100000 * i, 16, 8⟩
def R.FE_EXC.PC (i : Nat) : Fld := ⟨.fe, 0x10 + 0x100000 * i, 0, 16⟩
def R.FE_EXC_ADDR.reg (i : Nat) : Reg := ⟨.fe, 0x14 + 0x100000 * i⟩
def R.FE_EXC_ADDR.ADDR (i : Nat) : Fld := ⟨.fe, 0x14 + 0x100000 * i, 0, 32⟩
def R.FE_EVT.reg (i : Nat) : Reg := ⟨.fe, 0x18 + 0x100000 * i⟩
def R.FE_EVT.RESTARTED (i : Nat) : Fld := ⟨.fe, 0x18 + 0x100000 * i, 3, 1⟩
def R.FE_EVT.BRK (i : Nat) : Fld := ⟨.fe, 0x18 + 0x100000 * i, 2, 1⟩
def R.FE_EVT.PROG_EXC (i : Nat) : Fld := ⟨.fe, 0x18 + 0x100000 * i, 1, 1⟩
def R.FE_EVT.HW_EXC (i : Nat) : Fld := ⟨.fe, 0x18 + 0x100000 * i, 0, 1⟩
def R.FE_EVT_CNT0.reg (i : Nat) : Reg := ⟨.fe, 0x1c + 0x100000 * i⟩
def R.FE_EVT_CNT0.PROG_EXC_CNT (i : Nat) : Fld := ⟨.fe, 0x1c + 0x100000 * i, 16, 16⟩
def R.FE_EVT_CNT0.HW_EXC_CNT (i : Nat) : Fld := ⟨.fe, 0x1c + 0x100000 * i, 0, 16⟩
def R.FE_EVT_CNT1.reg (i : Nat) : Reg := ⟨.fe, 0x20 + 0x100000 * i⟩
def R.FE_EVT_CNT1.RESTARTED_CNT (i : Nat) : Fld := ⟨.fe, 0x20 + 0x100000 * i, 16, 16⟩
def R.FE_EVT_CNT1.BRK_CNT (i : Nat) : Fld := ⟨.fe, 0x20 + 0x100000 * i, 0, 16⟩
def R.FE_BRK.reg (i b : Nat) : Reg := ⟨.fe, 0x30 + 0x100000 * i + 0x4 * b⟩
def R.FE_BRK.EN (i b : Nat) : Fld := ⟨.fe, 0x30 + 0x100000 * i + 0x4 * b, 31, 1⟩
def R.FE_BRK.ADDR (i b : Nat) : Fld := ⟨.fe, 0x30 + 0x100000 * i + 0x4 * b, 0, 16⟩
def R.FE_WATCH.reg (i : Nat) : Reg := ⟨.fe, 0x40 + 0x100000 * i⟩
def R.FE_WATCH.EN (i : Nat) : Fld := ⟨.fe, 0x40 + 0x100000 * i, 31, 1⟩
def R.FE_WATCH.ON_WRITE (i : Nat) : Fld := ⟨.fe, 0x40 + 0x100000 * i, 30, 1⟩
def R.FE_WATCH.ON_READ (i : Nat) : Fld := ⟨.fe, 0x40 + 0x100000 * i, 29, 1⟩
def R.FE_WATCH.WORD (i : Nat) : Fld := ⟨.fe, 0x40 + 0x100000 * i, 0, 24⟩
def R.FE_DBG_SEL.reg (i : Nat) : Reg := ⟨.fe, 0x50 + 0x100000 * i⟩
def R.FE_DBG_SEL.FILE (i : Nat) : Fld := ⟨.fe, 0x50 + 0x100000 * i, 8, 3⟩
def R.FE_DBG_SEL.PART (i : Nat) : Fld := ⟨.fe, 0x50 + 0x100000 * i, 7, 1⟩
def R.FE_DBG_SEL.INDEX (i : Nat) : Fld := ⟨.fe, 0x50 + 0x100000 * i, 0, 5⟩
def R.FE_DBG_DATA_LO.reg (i : Nat) : Reg := ⟨.fe, 0x54 + 0x100000 * i⟩
def R.FE_DBG_DATA_LO.DATA (i : Nat) : Fld := ⟨.fe, 0x54 + 0x100000 * i, 0, 32⟩
def R.FE_DBG_DATA_HI.reg (i : Nat) : Reg := ⟨.fe, 0x58 + 0x100000 * i⟩
def R.FE_DBG_DATA_HI.DATA (i : Nat) : Fld := ⟨.fe, 0x58 + 0x100000 * i, 0, 32⟩
def R.FE_LS_ADDR.reg (i : Nat) : Reg := ⟨.fe, 0x60 + 0x100000 * i⟩
def R.FE_LS_ADDR.WORD (i : Nat) : Fld := ⟨.fe, 0x60 + 0x100000 * i, 2, 16⟩
def R.FE_LS_DATA.reg (i : Nat) : Reg := ⟨.fe, 0x64 + 0x100000 * i⟩
def R.FE_LS_DATA.DATA (i : Nat) : Fld := ⟨.fe, 0x64 + 0x100000 * i, 0, 32⟩
def R.FE_INSN_LO.reg (i : Nat) : Reg := ⟨.fe, 0x70 + 0x100000 * i⟩
def R.FE_INSN_LO.INSN (i : Nat) : Fld := ⟨.fe, 0x70 + 0x100000 * i, 0, 32⟩
def R.FE_INSN_HI.reg (i : Nat) : Reg := ⟨.fe, 0x74 + 0x100000 * i⟩
def R.FE_INSN_HI.INSN (i : Nat) : Fld := ⟨.fe, 0x74 + 0x100000 * i, 0, 32⟩
def R.FE_ECC_CNT.reg (i : Nat) : Reg := ⟨.fe, 0x78 + 0x100000 * i⟩
def R.FE_ECC_CNT.CORR (i : Nat) : Fld := ⟨.fe, 0x78 + 0x100000 * i, 0, 16⟩
def R.FE_MAP.reg (m : Nat) : Reg := ⟨.fe, 0x80000 + 0x4 * m⟩
def R.FE_MAP.PHYS_3 (m : Nat) : Fld := ⟨.fe, 0x80000 + 0x4 * m, 24, 5⟩
def R.FE_MAP.PHYS_2 (m : Nat) : Fld := ⟨.fe, 0x80000 + 0x4 * m, 16, 5⟩
def R.FE_MAP.PHYS_1 (m : Nat) : Fld := ⟨.fe, 0x80000 + 0x4 * m, 8, 5⟩
def R.FE_MAP.PHYS_0 (m : Nat) : Fld := ⟨.fe, 0x80000 + 0x4 * m, 0, 5⟩
def R.FE_STEER.reg : Reg := ⟨.fe, 0x80010⟩
def R.FE_STEER.DIO : Fld := ⟨.fe, 0x80010, 4, 4⟩
def R.FE_STEER.UNKNOWN : Fld := ⟨.fe, 0x80010, 0, 4⟩
def R.FE_SHF_SEL.reg : Reg := ⟨.fe, 0x80100⟩
def R.FE_SHF_SEL.CTX : Fld := ⟨.fe, 0x80100, 0, 3⟩
def R.FE_SHF_CMD.reg : Reg := ⟨.fe, 0x80104⟩
def R.FE_SHF_CMD.CMD : Fld := ⟨.fe, 0x80104, 0, 4⟩
def R.FE_SHF_STATUS.reg : Reg := ⟨.fe, 0x80108⟩
def R.FE_SHF_STATUS.RESULT : Fld := ⟨.fe, 0x80108, 24, 8⟩
def R.FE_SHF_STATUS.OWNER : Fld := ⟨.fe, 0x80108, 16, 5⟩
def R.FE_SHF_STATUS.STATE : Fld := ⟨.fe, 0x80108, 0, 4⟩
def R.FE_SHF_COUNT.reg : Reg := ⟨.fe, 0x8010c⟩
def R.FE_SHF_COUNT.ENTRIES : Fld := ⟨.fe, 0x8010c, 0, 17⟩
def R.FE_SHF_ADDR.reg : Reg := ⟨.fe, 0x80110⟩
def R.FE_SHF_ADDR.ADDR : Fld := ⟨.fe, 0x80110, 0, 32⟩
def R.FE_SHF_SPACE.reg : Reg := ⟨.fe, 0x80114⟩
def R.FE_SHF_SPACE.SPACE : Fld := ⟨.fe, 0x80114, 0, 2⟩
def R.FE_SHF_MASK.reg : Reg := ⟨.fe, 0x80118⟩
def R.FE_SHF_MASK.MASK : Fld := ⟨.fe, 0x80118, 0, 32⟩
def R.FE_SHF_DATA.reg : Reg := ⟨.fe, 0x8011c⟩
def R.FE_SHF_DATA.DATA : Fld := ⟨.fe, 0x8011c, 0, 32⟩
def R.FE_SHF_WHEN.reg (w : Nat) : Reg := ⟨.fe, 0x80120 + 0x4 * w⟩
def R.FE_SHF_WHEN.WHEN (w : Nat) : Fld := ⟨.fe, 0x80120 + 0x4 * w, 0, 32⟩
def R.FE_SHF_TIMED.reg : Reg := ⟨.fe, 0x8012c⟩
def R.FE_SHF_TIMED.TIMED : Fld := ⟨.fe, 0x8012c, 0, 1⟩
def R.FE_SHF_FAIL.reg : Reg := ⟨.fe, 0x80130⟩
def R.FE_SHF_FAIL.RULE : Fld := ⟨.fe, 0x80130, 24, 8⟩
def R.FE_SHF_FAIL.OTHER : Fld := ⟨.fe, 0x80130, 16, 1⟩
def R.FE_SHF_FAIL.INDEX : Fld := ⟨.fe, 0x80130, 0, 16⟩
def R.FE_SHF_SEQ.reg : Reg := ⟨.fe, 0x80134⟩
def R.FE_SHF_SEQ.SEQ : Fld := ⟨.fe, 0x80134, 0, 32⟩
def R.FE_SHF_EVT.reg : Reg := ⟨.fe, 0x80138⟩
def R.FE_SHF_EVT.BOOT_DISCARD : Fld := ⟨.fe, 0x80138, 5, 1⟩
def R.FE_SHF_EVT.POOL_FULL : Fld := ⟨.fe, 0x80138, 4, 1⟩
def R.FE_SHF_EVT.REFUSED : Fld := ⟨.fe, 0x80138, 3, 1⟩
def R.FE_SHF_EVT.APPLIED_LATE : Fld := ⟨.fe, 0x80138, 2, 1⟩
def R.FE_SHF_EVT.CHK_FAIL : Fld := ⟨.fe, 0x80138, 1, 1⟩
def R.FE_SHF_EVT.APPLIED : Fld := ⟨.fe, 0x80138, 0, 1⟩
def R.FE_SHF_EVT_CNT0.reg : Reg := ⟨.fe, 0x8013c⟩
def R.FE_SHF_EVT_CNT0.CHK_FAIL_CNT : Fld := ⟨.fe, 0x8013c, 16, 16⟩
def R.FE_SHF_EVT_CNT0.APPLIED_CNT : Fld := ⟨.fe, 0x8013c, 0, 16⟩
def R.FE_SHF_EVT_CNT1.reg : Reg := ⟨.fe, 0x80140⟩
def R.FE_SHF_EVT_CNT1.REFUSED_CNT : Fld := ⟨.fe, 0x80140, 16, 16⟩
def R.FE_SHF_EVT_CNT1.APPLIED_LATE_CNT : Fld := ⟨.fe, 0x80140, 0, 16⟩
def R.FE_SHF_EVT_CNT2.reg : Reg := ⟨.fe, 0x80144⟩
def R.FE_SHF_EVT_CNT2.BOOT_DISCARD_CNT : Fld := ⟨.fe, 0x80144, 16, 16⟩
def R.FE_SHF_EVT_CNT2.POOL_FULL_CNT : Fld := ⟨.fe, 0x80144, 0, 16⟩
def R.QU_INTAKE_CMD.reg : Reg := ⟨.fe, 0x80200⟩
def R.QU_INTAKE_CMD.CMD : Fld := ⟨.fe, 0x80200, 0, 4⟩
def R.QU_INTAKE_STATUS.reg : Reg := ⟨.fe, 0x80204⟩
def R.QU_INTAKE_STATUS.ABOVE : Fld := ⟨.fe, 0x80204, 31, 1⟩
def R.QU_INTAKE_STATUS.FULL : Fld := ⟨.fe, 0x80204, 30, 1⟩
def R.QU_INTAKE_STATUS.EMPTY : Fld := ⟨.fe, 0x80204, 29, 1⟩
def R.QU_INTAKE_STATUS.IN_ITEM : Fld := ⟨.fe, 0x80204, 28, 1⟩
def R.QU_INTAKE_STATUS.WM_BAD : Fld := ⟨.fe, 0x80204, 27, 1⟩
def R.QU_INTAKE_STATUS.LEVEL : Fld := ⟨.fe, 0x80204, 0, 17⟩
def R.QU_INTAKE_WM_HIGH.reg : Reg := ⟨.fe, 0x80208⟩
def R.QU_INTAKE_WM_HIGH.HIGH : Fld := ⟨.fe, 0x80208, 0, 17⟩
def R.QU_INTAKE_WM_LOW.reg : Reg := ⟨.fe, 0x8020c⟩
def R.QU_INTAKE_WM_LOW.LOW : Fld := ⟨.fe, 0x8020c, 0, 17⟩
def R.QU_INTAKE_EVT.reg : Reg := ⟨.fe, 0x80210⟩
def R.QU_INTAKE_EVT.OVERFLOW : Fld := ⟨.fe, 0x80210, 3, 1⟩
def R.QU_INTAKE_EVT.DROPPED : Fld := ⟨.fe, 0x80210, 2, 1⟩
def R.QU_INTAKE_EVT.FELL : Fld := ⟨.fe, 0x80210, 1, 1⟩
def R.QU_INTAKE_EVT.ROSE : Fld := ⟨.fe, 0x80210, 0, 1⟩
def R.QU_INTAKE_EVT_CNT0.reg : Reg := ⟨.fe, 0x80214⟩
def R.QU_INTAKE_EVT_CNT0.FELL_CNT : Fld := ⟨.fe, 0x80214, 16, 16⟩
def R.QU_INTAKE_EVT_CNT0.ROSE_CNT : Fld := ⟨.fe, 0x80214, 0, 16⟩
def R.QU_INTAKE_EVT_CNT1.reg : Reg := ⟨.fe, 0x80218⟩
def R.QU_INTAKE_EVT_CNT1.OVERFLOW_CNT : Fld := ⟨.fe, 0x80218, 16, 16⟩
def R.QU_INTAKE_EVT_CNT1.DROPPED_CNT : Fld := ⟨.fe, 0x80218, 0, 16⟩
def R.QU_INTAKE_DATA.reg : Reg := ⟨.fe, 0x8021c⟩
def R.QU_INTAKE_DATA.DATA : Fld := ⟨.fe, 0x8021c, 0, 32⟩
def R.QU_INTAKE_CAP.reg : Reg := ⟨.fe, 0x80220⟩
def R.QU_INTAKE_CAP.CAP : Fld := ⟨.fe, 0x80220, 0, 17⟩
def R.QU_INTAKE_ITEM.reg : Reg := ⟨.fe, 0x80224⟩
def R.QU_INTAKE_ITEM.ITEM : Fld := ⟨.fe, 0x80224, 0, 8⟩
def R.QU_INTAKE_PEAK.reg : Reg := ⟨.fe, 0x80228⟩
def R.QU_INTAKE_PEAK.PEAK : Fld := ⟨.fe, 0x80228, 0, 17⟩
def R.QU_CPL_CMD.reg (s : Nat) : Reg := ⟨.fe, 0x80400 + 0x40 * s⟩
def R.QU_CPL_CMD.CMD (s : Nat) : Fld := ⟨.fe, 0x80400 + 0x40 * s, 0, 4⟩
def R.QU_CPL_STATUS.reg (s : Nat) : Reg := ⟨.fe, 0x80404 + 0x40 * s⟩
def R.QU_CPL_STATUS.ABOVE (s : Nat) : Fld := ⟨.fe, 0x80404 + 0x40 * s, 31, 1⟩
def R.QU_CPL_STATUS.FULL (s : Nat) : Fld := ⟨.fe, 0x80404 + 0x40 * s, 30, 1⟩
def R.QU_CPL_STATUS.EMPTY (s : Nat) : Fld := ⟨.fe, 0x80404 + 0x40 * s, 29, 1⟩
def R.QU_CPL_STATUS.IN_ITEM (s : Nat) : Fld := ⟨.fe, 0x80404 + 0x40 * s, 28, 1⟩
def R.QU_CPL_STATUS.WM_BAD (s : Nat) : Fld := ⟨.fe, 0x80404 + 0x40 * s, 27, 1⟩
def R.QU_CPL_STATUS.LEVEL (s : Nat) : Fld := ⟨.fe, 0x80404 + 0x40 * s, 0, 17⟩
def R.QU_CPL_WM_HIGH.reg (s : Nat) : Reg := ⟨.fe, 0x80408 + 0x40 * s⟩
def R.QU_CPL_WM_HIGH.HIGH (s : Nat) : Fld := ⟨.fe, 0x80408 + 0x40 * s, 0, 17⟩
def R.QU_CPL_WM_LOW.reg (s : Nat) : Reg := ⟨.fe, 0x8040c + 0x40 * s⟩
def R.QU_CPL_WM_LOW.LOW (s : Nat) : Fld := ⟨.fe, 0x8040c + 0x40 * s, 0, 17⟩
def R.QU_CPL_EVT.reg (s : Nat) : Reg := ⟨.fe, 0x80410 + 0x40 * s⟩
def R.QU_CPL_EVT.OVERFLOW (s : Nat) : Fld := ⟨.fe, 0x80410 + 0x40 * s, 3, 1⟩
def R.QU_CPL_EVT.DROPPED (s : Nat) : Fld := ⟨.fe, 0x80410 + 0x40 * s, 2, 1⟩
def R.QU_CPL_EVT.FELL (s : Nat) : Fld := ⟨.fe, 0x80410 + 0x40 * s, 1, 1⟩
def R.QU_CPL_EVT.ROSE (s : Nat) : Fld := ⟨.fe, 0x80410 + 0x40 * s, 0, 1⟩
def R.QU_CPL_EVT_CNT0.reg (s : Nat) : Reg := ⟨.fe, 0x80414 + 0x40 * s⟩
def R.QU_CPL_EVT_CNT0.FELL_CNT (s : Nat) : Fld := ⟨.fe, 0x80414 + 0x40 * s, 16, 16⟩
def R.QU_CPL_EVT_CNT0.ROSE_CNT (s : Nat) : Fld := ⟨.fe, 0x80414 + 0x40 * s, 0, 16⟩
def R.QU_CPL_EVT_CNT1.reg (s : Nat) : Reg := ⟨.fe, 0x80418 + 0x40 * s⟩
def R.QU_CPL_EVT_CNT1.OVERFLOW_CNT (s : Nat) : Fld := ⟨.fe, 0x80418 + 0x40 * s, 16, 16⟩
def R.QU_CPL_EVT_CNT1.DROPPED_CNT (s : Nat) : Fld := ⟨.fe, 0x80418 + 0x40 * s, 0, 16⟩
def R.QU_CPL_DATA.reg (s : Nat) : Reg := ⟨.fe, 0x8041c + 0x40 * s⟩
def R.QU_CPL_DATA.DATA (s : Nat) : Fld := ⟨.fe, 0x8041c + 0x40 * s, 0, 32⟩
def R.QU_CPL_CAP.reg (s : Nat) : Reg := ⟨.fe, 0x80420 + 0x40 * s⟩
def R.QU_CPL_CAP.CAP (s : Nat) : Fld := ⟨.fe, 0x80420 + 0x40 * s, 0, 17⟩
def R.QU_CPL_ITEM.reg (s : Nat) : Reg := ⟨.fe, 0x80424 + 0x40 * s⟩
def R.QU_CPL_ITEM.ITEM (s : Nat) : Fld := ⟨.fe, 0x80424 + 0x40 * s, 0, 8⟩
def R.QU_CPL_PEAK.reg (s : Nat) : Reg := ⟨.fe, 0x80428 + 0x40 * s⟩
def R.QU_CPL_PEAK.PEAK (s : Nat) : Fld := ⟨.fe, 0x80428 + 0x40 * s, 0, 17⟩
def R.HND_INUSE.reg : Reg := ⟨.fe, 0x80800⟩
def R.HND_INUSE.INUSE : Fld := ⟨.fe, 0x80800, 0, 18⟩
def R.HND_ENG_QUOTA.reg : Reg := ⟨.fe, 0x80804⟩
def R.HND_ENG_QUOTA.QUOTA : Fld := ⟨.fe, 0x80804, 0, 18⟩
def R.HND_ENG_INUSE.reg : Reg := ⟨.fe, 0x80808⟩
def R.HND_ENG_INUSE.INUSE : Fld := ⟨.fe, 0x80808, 0, 18⟩
def R.HND_TMO.reg : Reg := ⟨.fe, 0x8080c⟩
def R.HND_TMO.CAN : Fld := ⟨.fe, 0x8080c, 16, 8⟩
def R.HND_TMO.RADIO : Fld := ⟨.fe, 0x8080c, 8, 8⟩
def R.HND_TMO.RING : Fld := ⟨.fe, 0x8080c, 0, 8⟩
def R.HND_EVT.reg : Reg := ⟨.fe, 0x80810⟩
def R.HND_EVT.STALE_REPLY : Fld := ⟨.fe, 0x80810, 2, 1⟩
def R.HND_EVT.NO_HANDLE : Fld := ⟨.fe, 0x80810, 1, 1⟩
def R.HND_EVT.QUOTA : Fld := ⟨.fe, 0x80810, 0, 1⟩
def R.HND_EVT_CNT0.reg : Reg := ⟨.fe, 0x80814⟩
def R.HND_EVT_CNT0.NO_HANDLE_CNT : Fld := ⟨.fe, 0x80814, 16, 16⟩
def R.HND_EVT_CNT0.QUOTA_CNT : Fld := ⟨.fe, 0x80814, 0, 16⟩
def R.HND_EVT_CNT1.reg : Reg := ⟨.fe, 0x80818⟩
def R.HND_EVT_CNT1.STALE_REPLY_CNT : Fld := ⟨.fe, 0x80818, 0, 16⟩
def R.HND_SESS_OVER.reg : Reg := ⟨.fe, 0x8081c⟩
def R.HND_SESS_OVER.OVER : Fld := ⟨.fe, 0x8081c, 0, 16⟩
def R.HND_SESS_QUOTA.reg (s : Nat) : Reg := ⟨.fe, 0x80880 + 0x4 * s⟩
def R.HND_SESS_QUOTA.QUOTA (s : Nat) : Fld := ⟨.fe, 0x80880 + 0x4 * s, 0, 18⟩
def R.HND_SESS_INUSE.reg (s : Nat) : Reg := ⟨.fe, 0x808c0 + 0x4 * s⟩
def R.HND_SESS_INUSE.INUSE (s : Nat) : Fld := ⟨.fe, 0x808c0 + 0x4 * s, 0, 18⟩
def R.STORM_CTRL.reg : Reg := ⟨.fe, 0x80a00⟩
def R.STORM_CTRL.SPREAD : Fld := ⟨.fe, 0x80a00, 16, 16⟩
def R.STORM_CTRL.EN : Fld := ⟨.fe, 0x80a00, 0, 1⟩
def R.STORM_STATUS.reg : Reg := ⟨.fe, 0x80a04⟩
def R.STORM_STATUS.STATE : Fld := ⟨.fe, 0x80a04, 30, 2⟩
def R.STORM_STATUS.LEFT : Fld := ⟨.fe, 0x80a04, 0, 18⟩
def R.STORM_DROPPED.reg : Reg := ⟨.fe, 0x80a08⟩
def R.STORM_DROPPED.DROPPED : Fld := ⟨.fe, 0x80a08, 0, 32⟩
def R.STORM_EVT.reg : Reg := ⟨.fe, 0x80a0c⟩
def R.STORM_EVT.RECOVERED : Fld := ⟨.fe, 0x80a0c, 1, 1⟩
def R.STORM_EVT.STARTED : Fld := ⟨.fe, 0x80a0c, 0, 1⟩
def R.STORM_EVT_CNT.reg : Reg := ⟨.fe, 0x80a10⟩
def R.STORM_EVT_CNT.RECOVERED_CNT : Fld := ⟨.fe, 0x80a10, 16, 16⟩
def R.STORM_EVT_CNT.STARTED_CNT : Fld := ⟨.fe, 0x80a10, 0, 16⟩
def R.FAB_SPEED.reg (p k : Nat) : Reg := ⟨.fab, 0x10 + 0x1000000 * p + 0x4 * k⟩
def R.FAB_SPEED.VALID (p k : Nat) : Fld := ⟨.fab, 0x10 + 0x1000000 * p + 0x4 * k, 31, 1⟩
def R.FAB_SPEED.TOKEN_PS (p k : Nat) : Fld := ⟨.fab, 0x10 + 0x1000000 * p + 0x4 * k, 0, 16⟩
def R.FAB_PCP_MAP.reg (p : Nat) : Reg := ⟨.fab, 0x40 + 0x1000000 * p⟩
def R.FAB_PCP_MAP.CLASS_7 (p : Nat) : Fld := ⟨.fab, 0x40 + 0x1000000 * p, 21, 3⟩
def R.FAB_PCP_MAP.CLASS_6 (p : Nat) : Fld := ⟨.fab, 0x40 + 0x1000000 * p, 18, 3⟩
def R.FAB_PCP_MAP.CLASS_5 (p : Nat) : Fld := ⟨.fab, 0x40 + 0x1000000 * p, 15, 3⟩
def R.FAB_PCP_MAP.CLASS_4 (p : Nat) : Fld := ⟨.fab, 0x40 + 0x1000000 * p, 12, 3⟩
def R.FAB_PCP_MAP.CLASS_3 (p : Nat) : Fld := ⟨.fab, 0x40 + 0x1000000 * p, 9, 3⟩
def R.FAB_PCP_MAP.CLASS_2 (p : Nat) : Fld := ⟨.fab, 0x40 + 0x1000000 * p, 6, 3⟩
def R.FAB_PCP_MAP.CLASS_1 (p : Nat) : Fld := ⟨.fab, 0x40 + 0x1000000 * p, 3, 3⟩
def R.FAB_PCP_MAP.CLASS_0 (p : Nat) : Fld := ⟨.fab, 0x40 + 0x1000000 * p, 0, 3⟩
def R.FAB_DSCP_MAP.reg (p m : Nat) : Reg := ⟨.fab, 0x44 + 0x1000000 * p + 0x4 * m⟩
def R.FAB_DSCP_MAP.CLASS_7 (p m : Nat) : Fld := ⟨.fab, 0x44 + 0x1000000 * p + 0x4 * m, 21, 3⟩
def R.FAB_DSCP_MAP.CLASS_6 (p m : Nat) : Fld := ⟨.fab, 0x44 + 0x1000000 * p + 0x4 * m, 18, 3⟩
def R.FAB_DSCP_MAP.CLASS_5 (p m : Nat) : Fld := ⟨.fab, 0x44 + 0x1000000 * p + 0x4 * m, 15, 3⟩
def R.FAB_DSCP_MAP.CLASS_4 (p m : Nat) : Fld := ⟨.fab, 0x44 + 0x1000000 * p + 0x4 * m, 12, 3⟩
def R.FAB_DSCP_MAP.CLASS_3 (p m : Nat) : Fld := ⟨.fab, 0x44 + 0x1000000 * p + 0x4 * m, 9, 3⟩
def R.FAB_DSCP_MAP.CLASS_2 (p m : Nat) : Fld := ⟨.fab, 0x44 + 0x1000000 * p + 0x4 * m, 6, 3⟩
def R.FAB_DSCP_MAP.CLASS_1 (p m : Nat) : Fld := ⟨.fab, 0x44 + 0x1000000 * p + 0x4 * m, 3, 3⟩
def R.FAB_DSCP_MAP.CLASS_0 (p m : Nat) : Fld := ⟨.fab, 0x44 + 0x1000000 * p + 0x4 * m, 0, 3⟩
def R.FAB_DWRR0.reg (p : Nat) : Reg := ⟨.fab, 0x64 + 0x1000000 * p⟩
def R.FAB_DWRR0.QUANTUM_3 (p : Nat) : Fld := ⟨.fab, 0x64 + 0x1000000 * p, 24, 8⟩
def R.FAB_DWRR0.QUANTUM_2 (p : Nat) : Fld := ⟨.fab, 0x64 + 0x1000000 * p, 16, 8⟩
def R.FAB_DWRR0.QUANTUM_1 (p : Nat) : Fld := ⟨.fab, 0x64 + 0x1000000 * p, 8, 8⟩
def R.FAB_DWRR0.QUANTUM_0 (p : Nat) : Fld := ⟨.fab, 0x64 + 0x1000000 * p, 0, 8⟩
def R.FAB_DWRR1.reg (p : Nat) : Reg := ⟨.fab, 0x68 + 0x1000000 * p⟩
def R.FAB_DWRR1.QUANTUM_5 (p : Nat) : Fld := ⟨.fab, 0x68 + 0x1000000 * p, 8, 8⟩
def R.FAB_DWRR1.QUANTUM_4 (p : Nat) : Fld := ⟨.fab, 0x68 + 0x1000000 * p, 0, 8⟩
def R.FAB_SEQ_TMO.reg (p : Nat) : Reg := ⟨.fab, 0x80 + 0x1000000 * p⟩
def R.FAB_SEQ_TMO.TMO (p : Nat) : Fld := ⟨.fab, 0x80 + 0x1000000 * p, 0, 8⟩
def R.FAB_PORTCFG.reg (p i : Nat) : Reg := ⟨.fab, 0x100 + 0x1000000 * p + 0x4 * i⟩
def R.FAB_PORTCFG.CT_EN (p i : Nat) : Fld := ⟨.fab, 0x100 + 0x1000000 * p + 0x4 * i, 24, 8⟩
def R.FAB_PORTCFG.LEARN (p i : Nat) : Fld := ⟨.fab, 0x100 + 0x1000000 * p + 0x4 * i, 23, 1⟩
def R.FAB_PORTCFG.ACCEPT (p i : Nat) : Fld := ⟨.fab, 0x100 + 0x1000000 * p + 0x4 * i, 20, 2⟩
def R.FAB_PORTCFG.DEF_CLASS (p i : Nat) : Fld := ⟨.fab, 0x100 + 0x1000000 * p + 0x4 * i, 16, 3⟩
def R.FAB_PORTCFG.TRUST (p i : Nat) : Fld := ⟨.fab, 0x100 + 0x1000000 * p + 0x4 * i, 14, 2⟩
def R.FAB_PORTCFG.PVID (p i : Nat) : Fld := ⟨.fab, 0x100 + 0x1000000 * p + 0x4 * i, 0, 12⟩
def R.FAB_EVT.reg (p : Nat) : Reg := ⟨.fab, 0x200 + 0x1000000 * p⟩
def R.FAB_EVT.STOMP (p : Nat) : Fld := ⟨.fab, 0x200 + 0x1000000 * p, 2, 1⟩
def R.FAB_EVT.SEQ_OLD (p : Nat) : Fld := ⟨.fab, 0x200 + 0x1000000 * p, 1, 1⟩
def R.FAB_EVT.SEQ_SKIP (p : Nat) : Fld := ⟨.fab, 0x200 + 0x1000000 * p, 0, 1⟩
def R.FAB_EVT_CNT0.reg (p : Nat) : Reg := ⟨.fab, 0x204 + 0x1000000 * p⟩
def R.FAB_EVT_CNT0.SEQ_OLD_CNT (p : Nat) : Fld := ⟨.fab, 0x204 + 0x1000000 * p, 16, 16⟩
def R.FAB_EVT_CNT0.SEQ_SKIP_CNT (p : Nat) : Fld := ⟨.fab, 0x204 + 0x1000000 * p, 0, 16⟩
def R.FAB_EVT_CNT1.reg (p : Nat) : Reg := ⟨.fab, 0x208 + 0x1000000 * p⟩
def R.FAB_EVT_CNT1.STOMP_CNT (p : Nat) : Fld := ⟨.fab, 0x208 + 0x1000000 * p, 0, 16⟩
def R.FAB_CNT_FCS_ERR.reg (p : Nat) : Reg := ⟨.fab, 0x210 + 0x1000000 * p⟩
def R.FAB_CNT_FCS_ERR.COUNT (p : Nat) : Fld := ⟨.fab, 0x210 + 0x1000000 * p, 0, 32⟩
def R.FAB_CNT_RUNT.reg (p : Nat) : Reg := ⟨.fab, 0x214 + 0x1000000 * p⟩
def R.FAB_CNT_RUNT.COUNT (p : Nat) : Fld := ⟨.fab, 0x214 + 0x1000000 * p, 0, 32⟩
def R.FAB_CNT_OVERSIZE.reg (p : Nat) : Reg := ⟨.fab, 0x218 + 0x1000000 * p⟩
def R.FAB_CNT_OVERSIZE.COUNT (p : Nat) : Fld := ⟨.fab, 0x218 + 0x1000000 * p, 0, 32⟩
def R.FAB_CNT_ACCEPT.reg (p : Nat) : Reg := ⟨.fab, 0x21c + 0x1000000 * p⟩
def R.FAB_CNT_ACCEPT.COUNT (p : Nat) : Fld := ⟨.fab, 0x21c + 0x1000000 * p, 0, 32⟩
def R.FAB_CNT_VLAN_FILTER.reg (p : Nat) : Reg := ⟨.fab, 0x220 + 0x1000000 * p⟩
def R.FAB_CNT_VLAN_FILTER.COUNT (p : Nat) : Fld := ⟨.fab, 0x220 + 0x1000000 * p, 0, 32⟩
def R.FAB_CNT_FIELD_DROP.reg (p : Nat) : Reg := ⟨.fab, 0x224 + 0x1000000 * p⟩
def R.FAB_CNT_FIELD_DROP.COUNT (p : Nat) : Fld := ⟨.fab, 0x224 + 0x1000000 * p, 0, 32⟩
def R.FAB_CNT_CAPPED.reg (p : Nat) : Reg := ⟨.fab, 0x228 + 0x1000000 * p⟩
def R.FAB_CNT_CAPPED.COUNT (p : Nat) : Fld := ⟨.fab, 0x228 + 0x1000000 * p, 0, 32⟩
def R.FAB_CNT_CT_FALLBACK.reg (p : Nat) : Reg := ⟨.fab, 0x22c + 0x1000000 * p⟩
def R.FAB_CNT_CT_FALLBACK.COUNT (p : Nat) : Fld := ⟨.fab, 0x22c + 0x1000000 * p, 0, 32⟩
def R.FAB_VOQ_SEL.reg (p : Nat) : Reg := ⟨.fab, 0x240 + 0x1000000 * p⟩
def R.FAB_VOQ_SEL.PORT (p : Nat) : Fld := ⟨.fab, 0x240 + 0x1000000 * p, 3, 8⟩
def R.FAB_VOQ_SEL.CLASS (p : Nat) : Fld := ⟨.fab, 0x240 + 0x1000000 * p, 0, 3⟩
def R.FAB_VOQ_CELLS.reg (p : Nat) : Reg := ⟨.fab, 0x244 + 0x1000000 * p⟩
def R.FAB_VOQ_CELLS.CELLS (p : Nat) : Fld := ⟨.fab, 0x244 + 0x1000000 * p, 0, 17⟩
def R.FAB_VOQ_FRAMES.reg (p : Nat) : Reg := ⟨.fab, 0x248 + 0x1000000 * p⟩
def R.FAB_VOQ_FRAMES.FRAMES (p : Nat) : Fld := ⟨.fab, 0x248 + 0x1000000 * p, 0, 17⟩
def R.FAB_BUF_ECN.reg (p : Nat) : Reg := ⟨.fab, 0x100000 + 0x1000000 * p⟩
def R.FAB_BUF_ECN.ECN (p : Nat) : Fld := ⟨.fab, 0x100000 + 0x1000000 * p, 0, 8⟩
def R.FAB_BUF_ALPHA.reg (p : Nat) : Reg := ⟨.fab, 0x100004 + 0x1000000 * p⟩
def R.FAB_BUF_ALPHA.ALPHA_7 (p : Nat) : Fld := ⟨.fab, 0x100004 + 0x1000000 * p, 28, 4⟩
def R.FAB_BUF_ALPHA.ALPHA_6 (p : Nat) : Fld := ⟨.fab, 0x100004 + 0x1000000 * p, 24, 4⟩
def R.FAB_BUF_ALPHA.ALPHA_5 (p : Nat) : Fld := ⟨.fab, 0x100004 + 0x1000000 * p, 20, 4⟩
def R.FAB_BUF_ALPHA.ALPHA_4 (p : Nat) : Fld := ⟨.fab, 0x100004 + 0x1000000 * p, 16, 4⟩
def R.FAB_BUF_ALPHA.ALPHA_3 (p : Nat) : Fld := ⟨.fab, 0x100004 + 0x1000000 * p, 12, 4⟩
def R.FAB_BUF_ALPHA.ALPHA_2 (p : Nat) : Fld := ⟨.fab, 0x100004 + 0x1000000 * p, 8, 4⟩
def R.FAB_BUF_ALPHA.ALPHA_1 (p : Nat) : Fld := ⟨.fab, 0x100004 + 0x1000000 * p, 4, 4⟩
def R.FAB_BUF_ALPHA.ALPHA_0 (p : Nat) : Fld := ⟨.fab, 0x100004 + 0x1000000 * p, 0, 4⟩
def R.FAB_BUF_HEADROOM.reg (p : Nat) : Reg := ⟨.fab, 0x100008 + 0x1000000 * p⟩
def R.FAB_BUF_HEADROOM.HEADROOM (p : Nat) : Fld := ⟨.fab, 0x100008 + 0x1000000 * p, 0, 17⟩
def R.FAB_BUF_MC_RES.reg (p : Nat) : Reg := ⟨.fab, 0x10000c + 0x1000000 * p⟩
def R.FAB_BUF_MC_RES.MC_RES (p : Nat) : Fld := ⟨.fab, 0x10000c + 0x1000000 * p, 0, 17⟩
def R.FAB_BUF_VOQ_CAP.reg (p : Nat) : Reg := ⟨.fab, 0x100010 + 0x1000000 * p⟩
def R.FAB_BUF_VOQ_CAP.CAP (p : Nat) : Fld := ⟨.fab, 0x100010 + 0x1000000 * p, 0, 17⟩
def R.FAB_BUF_MC_CFG.reg (p : Nat) : Reg := ⟨.fab, 0x100014 + 0x1000000 * p⟩
def R.FAB_BUF_MC_CFG.TMO (p : Nat) : Fld := ⟨.fab, 0x100014 + 0x1000000 * p, 16, 16⟩
def R.FAB_BUF_MC_CFG.READY (p : Nat) : Fld := ⟨.fab, 0x100014 + 0x1000000 * p, 0, 8⟩
def R.FAB_BUF_TOTAL.reg (p : Nat) : Reg := ⟨.fab, 0x100020 + 0x1000000 * p⟩
def R.FAB_BUF_TOTAL.TOTAL (p : Nat) : Fld := ⟨.fab, 0x100020 + 0x1000000 * p, 0, 17⟩
def R.FAB_BUF_SHARED.reg (p : Nat) : Reg := ⟨.fab, 0x100024 + 0x1000000 * p⟩
def R.FAB_BUF_SHARED.SHARED (p : Nat) : Fld := ⟨.fab, 0x100024 + 0x1000000 * p, 0, 17⟩
def R.FAB_BUF_FREE.reg (p : Nat) : Reg := ⟨.fab, 0x100028 + 0x1000000 * p⟩
def R.FAB_BUF_FREE.FREE (p : Nat) : Fld := ⟨.fab, 0x100028 + 0x1000000 * p, 0, 17⟩
def R.FAB_BUF_FREELIST.reg (p : Nat) : Reg := ⟨.fab, 0x10002c + 0x1000000 * p⟩
def R.FAB_BUF_FREELIST.CELLS (p : Nat) : Fld := ⟨.fab, 0x10002c + 0x1000000 * p, 0, 17⟩
def R.FAB_BUF_VOQ_OWNED.reg (p : Nat) : Reg := ⟨.fab, 0x100030 + 0x1000000 * p⟩
def R.FAB_BUF_VOQ_OWNED.CELLS (p : Nat) : Fld := ⟨.fab, 0x100030 + 0x1000000 * p, 0, 17⟩
def R.FAB_BUF_REPL_OWNED.reg (p : Nat) : Reg := ⟨.fab, 0x100034 + 0x1000000 * p⟩
def R.FAB_BUF_REPL_OWNED.CELLS (p : Nat) : Fld := ⟨.fab, 0x100034 + 0x1000000 * p, 0, 17⟩
def R.FAB_BUF_RSM_OWNED.reg (p : Nat) : Reg := ⟨.fab, 0x100038 + 0x1000000 * p⟩
def R.FAB_BUF_RSM_OWNED.CELLS (p : Nat) : Fld := ⟨.fab, 0x100038 + 0x1000000 * p, 0, 17⟩
def R.FAB_BUF_RESIDUE.reg (p : Nat) : Reg := ⟨.fab, 0x10003c + 0x1000000 * p⟩
def R.FAB_BUF_RESIDUE.ENTRIES (p : Nat) : Fld := ⟨.fab, 0x10003c + 0x1000000 * p, 0, 17⟩
def R.FAB_BUF_EVT.reg (p : Nat) : Reg := ⟨.fab, 0x100040 + 0x1000000 * p⟩
def R.FAB_BUF_EVT.HARROW_TRIG (p : Nat) : Fld := ⟨.fab, 0x100040 + 0x1000000 * p, 5, 1⟩
def R.FAB_BUF_EVT.MISMATCH (p : Nat) : Fld := ⟨.fab, 0x100040 + 0x1000000 * p, 4, 1⟩
def R.FAB_BUF_EVT.LEAK (p : Nat) : Fld := ⟨.fab, 0x100040 + 0x1000000 * p, 3, 1⟩
def R.FAB_BUF_EVT.MIN_SHORT (p : Nat) : Fld := ⟨.fab, 0x100040 + 0x1000000 * p, 2, 1⟩
def R.FAB_BUF_EVT.RESIDUE_DROP (p : Nat) : Fld := ⟨.fab, 0x100040 + 0x1000000 * p, 1, 1⟩
def R.FAB_BUF_EVT.QUOTA_OVER (p : Nat) : Fld := ⟨.fab, 0x100040 + 0x1000000 * p, 0, 1⟩
def R.FAB_BUF_EVT_CNT0.reg (p : Nat) : Reg := ⟨.fab, 0x100044 + 0x1000000 * p⟩
def R.FAB_BUF_EVT_CNT0.RESIDUE_DROP_CNT (p : Nat) : Fld := ⟨.fab, 0x100044 + 0x1000000 * p, 16, 16⟩
def R.FAB_BUF_EVT_CNT0.QUOTA_OVER_CNT (p : Nat) : Fld := ⟨.fab, 0x100044 + 0x1000000 * p, 0, 16⟩
def R.FAB_BUF_EVT_CNT1.reg (p : Nat) : Reg := ⟨.fab, 0x100048 + 0x1000000 * p⟩
def R.FAB_BUF_EVT_CNT1.LEAK_CNT (p : Nat) : Fld := ⟨.fab, 0x100048 + 0x1000000 * p, 16, 16⟩
def R.FAB_BUF_EVT_CNT1.MIN_SHORT_CNT (p : Nat) : Fld := ⟨.fab, 0x100048 + 0x1000000 * p, 0, 16⟩
def R.FAB_BUF_EVT_CNT2.reg (p : Nat) : Reg := ⟨.fab, 0x10004c + 0x1000000 * p⟩
def R.FAB_BUF_EVT_CNT2.HARROW_TRIG_CNT (p : Nat) : Fld := ⟨.fab, 0x10004c + 0x1000000 * p, 16, 16⟩
def R.FAB_BUF_EVT_CNT2.MISMATCH_CNT (p : Nat) : Fld := ⟨.fab, 0x10004c + 0x1000000 * p, 0, 16⟩
def R.FAB_GLN_STATUS.reg (p : Nat) : Reg := ⟨.fab, 0x100050 + 0x1000000 * p⟩
def R.FAB_GLN_STATUS.DEFICIT (p : Nat) : Fld := ⟨.fab, 0x100050 + 0x1000000 * p, 16, 16⟩
def R.FAB_GLN_STATUS.SUSPECTS (p : Nat) : Fld := ⟨.fab, 0x100050 + 0x1000000 * p, 0, 16⟩
def R.FAB_GLN_WINDOW.reg (p : Nat) : Reg := ⟨.fab, 0x100054 + 0x1000000 * p⟩
def R.FAB_GLN_WINDOW.CONFIRMED (p : Nat) : Fld := ⟨.fab, 0x100054 + 0x1000000 * p, 0, 7⟩
def R.FAB_BUF_CNT_DROP_QUOTA.reg (p : Nat) : Reg := ⟨.fab, 0x100060 + 0x1000000 * p⟩
def R.FAB_BUF_CNT_DROP_QUOTA.COUNT (p : Nat) : Fld := ⟨.fab, 0x100060 + 0x1000000 * p, 0, 32⟩
def R.FAB_BUF_CNT_DROP_VOQ.reg (p : Nat) : Reg := ⟨.fab, 0x100064 + 0x1000000 * p⟩
def R.FAB_BUF_CNT_DROP_VOQ.COUNT (p : Nat) : Fld := ⟨.fab, 0x100064 + 0x1000000 * p, 0, 32⟩
def R.FAB_BUF_CNT_DROP_POOL.reg (p : Nat) : Reg := ⟨.fab, 0x100068 + 0x1000000 * p⟩
def R.FAB_BUF_CNT_DROP_POOL.COUNT (p : Nat) : Fld := ⟨.fab, 0x100068 + 0x1000000 * p, 0, 32⟩
def R.FAB_BUF_CNT_DROP_DT.reg (p : Nat) : Reg := ⟨.fab, 0x10006c + 0x1000000 * p⟩
def R.FAB_BUF_CNT_DROP_DT.COUNT (p : Nat) : Fld := ⟨.fab, 0x10006c + 0x1000000 * p, 0, 32⟩
def R.FAB_BUF_CNT_ECN_MARK.reg (p : Nat) : Reg := ⟨.fab, 0x100070 + 0x1000000 * p⟩
def R.FAB_BUF_CNT_ECN_MARK.COUNT (p : Nat) : Fld := ⟨.fab, 0x100070 + 0x1000000 * p, 0, 32⟩
def R.FAB_BUF_CNT_RESIDUE_DROP.reg (p : Nat) : Reg := ⟨.fab, 0x100074 + 0x1000000 * p⟩
def R.FAB_BUF_CNT_RESIDUE_DROP.COUNT (p : Nat) : Fld := ⟨.fab, 0x100074 + 0x1000000 * p, 0, 32⟩
def R.FAB_BUF_CNT_MC_EMPTY.reg (p : Nat) : Reg := ⟨.fab, 0x100078 + 0x1000000 * p⟩
def R.FAB_BUF_CNT_MC_EMPTY.COUNT (p : Nat) : Fld := ⟨.fab, 0x100078 + 0x1000000 * p, 0, 32⟩
def R.FAB_BUF_CNT_LEAK_TOTAL.reg (p : Nat) : Reg := ⟨.fab, 0x10007c + 0x1000000 * p⟩
def R.FAB_BUF_CNT_LEAK_TOTAL.COUNT (p : Nat) : Fld := ⟨.fab, 0x10007c + 0x1000000 * p, 0, 32⟩
def R.FAB_ACCT_QUOTA.reg (p a : Nat) : Reg := ⟨.fab, 0x101000 + 0x1000000 * p + 0x10 * a⟩
def R.FAB_ACCT_QUOTA.QUOTA (p a : Nat) : Fld := ⟨.fab, 0x101000 + 0x1000000 * p + 0x10 * a, 0, 17⟩
def R.FAB_ACCT_MIN.reg (p a : Nat) : Reg := ⟨.fab, 0x101004 + 0x1000000 * p + 0x10 * a⟩
def R.FAB_ACCT_MIN.MIN (p a : Nat) : Fld := ⟨.fab, 0x101004 + 0x1000000 * p + 0x10 * a, 0, 17⟩
def R.FAB_ACCT_USED.reg (p a : Nat) : Reg := ⟨.fab, 0x101008 + 0x1000000 * p + 0x10 * a⟩
def R.FAB_ACCT_USED.OVER_NOW (p a : Nat) : Fld := ⟨.fab, 0x101008 + 0x1000000 * p + 0x10 * a, 31, 1⟩
def R.FAB_ACCT_USED.USED (p a : Nat) : Fld := ⟨.fab, 0x101008 + 0x1000000 * p + 0x10 * a, 0, 17⟩
def R.FAB_ACCT_DROP.reg (p a : Nat) : Reg := ⟨.fab, 0x10100c + 0x1000000 * p + 0x10 * a⟩
def R.FAB_ACCT_DROP.DROP (p a : Nat) : Fld := ⟨.fab, 0x10100c + 0x1000000 * p + 0x10 * a, 0, 32⟩
def R.FAB_PLANES.reg : Reg := ⟨.fab, 0xf00000⟩
def R.FAB_PLANES.PLANE_8 : Fld := ⟨.fab, 0xf00000, 24, 3⟩
def R.FAB_PLANES.PLANE_7 : Fld := ⟨.fab, 0xf00000, 21, 3⟩
def R.FAB_PLANES.PLANE_6 : Fld := ⟨.fab, 0xf00000, 18, 3⟩
def R.FAB_PLANES.PLANE_5 : Fld := ⟨.fab, 0xf00000, 15, 3⟩
def R.FAB_PLANES.PLANE_4 : Fld := ⟨.fab, 0xf00000, 12, 3⟩
def R.FAB_PLANES.PLANE_3 : Fld := ⟨.fab, 0xf00000, 9, 3⟩
def R.FAB_PLANES.PLANE_2 : Fld := ⟨.fab, 0xf00000, 6, 3⟩
def R.FAB_PLANES.PLANE_1 : Fld := ⟨.fab, 0xf00000, 3, 3⟩
def R.FAB_PLANES.PLANE_0 : Fld := ⟨.fab, 0xf00000, 0, 3⟩
def R.FAB_VLOOP_CFG.reg : Reg := ⟨.fab, 0xf00010⟩
def R.FAB_VLOOP_CFG.EN : Fld := ⟨.fab, 0xf00010, 31, 1⟩
def R.FAB_VLOOP_CFG.TARGET_PS : Fld := ⟨.fab, 0xf00010, 0, 16⟩
def R.FAB_VCORE.reg : Reg := ⟨.fab, 0xf00014⟩
def R.FAB_VCORE.AT_MAX : Fld := ⟨.fab, 0xf00014, 31, 1⟩
def R.FAB_VCORE.AT_MIN : Fld := ⟨.fab, 0xf00014, 30, 1⟩
def R.FAB_VCORE.MV : Fld := ⟨.fab, 0xf00014, 0, 12⟩
def R.FAB_SPD_STATUS.reg : Reg := ⟨.fab, 0xf00018⟩
def R.FAB_SPD_STATUS.RISK_NOW : Fld := ⟨.fab, 0xf00018, 31, 1⟩
def R.FAB_SPD_STATUS.LOW_NOW : Fld := ⟨.fab, 0xf00018, 30, 1⟩
def R.FAB_SPD_STATUS.WORST_PLANE : Fld := ⟨.fab, 0xf00018, 20, 4⟩
def R.FAB_SPD_STATUS.WORST_PLOT : Fld := ⟨.fab, 0xf00018, 16, 3⟩
def R.FAB_SPD_STATUS.WORST_PS : Fld := ⟨.fab, 0xf00018, 0, 16⟩
def R.FAB_SPD_EVT.reg : Reg := ⟨.fab, 0xf0001c⟩
def R.FAB_SPD_EVT.SPEED_LOW : Fld := ⟨.fab, 0xf0001c, 1, 1⟩
def R.FAB_SPD_EVT.SPEED_RISK : Fld := ⟨.fab, 0xf0001c, 0, 1⟩
def R.FAB_SPD_EVT_CNT.reg : Reg := ⟨.fab, 0xf00020⟩
def R.FAB_SPD_EVT_CNT.SPEED_LOW_CNT : Fld := ⟨.fab, 0xf00020, 16, 16⟩
def R.FAB_SPD_EVT_CNT.SPEED_RISK_CNT : Fld := ⟨.fab, 0xf00020, 0, 16⟩
def R.FAB_FIELD_VLAN.reg : Reg := ⟨.fab, 0xf00030⟩
def R.FAB_FIELD_VLAN.VID : Fld := ⟨.fab, 0xf00030, 0, 12⟩
def R.FAB_MGMT_VLAN.reg : Reg := ⟨.fab, 0xf00034⟩
def R.FAB_MGMT_VLAN.VID : Fld := ⟨.fab, 0xf00034, 0, 12⟩
def R.FAB_MOD_MAC_LO.reg : Reg := ⟨.fab, 0xf00038⟩
def R.FAB_MOD_MAC_LO.MAC_LO : Fld := ⟨.fab, 0xf00038, 0, 32⟩
def R.FAB_MOD_MAC_HI.reg : Reg := ⟨.fab, 0xf0003c⟩
def R.FAB_MOD_MAC_HI.MAC_HI : Fld := ⟨.fab, 0xf0003c, 0, 16⟩
def R.FAB_FDB_AGE.reg : Reg := ⟨.fab, 0xf00040⟩
def R.FAB_FDB_AGE.AGE : Fld := ⟨.fab, 0xf00040, 0, 20⟩
def R.FAB_FDB_COUNT.reg : Reg := ⟨.fab, 0xf00044⟩
def R.FAB_FDB_COUNT.ENTRIES : Fld := ⟨.fab, 0xf00044, 0, 19⟩
def R.FAB_FDB_KEY_LO.reg : Reg := ⟨.fab, 0xf00050⟩
def R.FAB_FDB_KEY_LO.MAC_LO : Fld := ⟨.fab, 0xf00050, 0, 32⟩
def R.FAB_FDB_KEY_HI.reg : Reg := ⟨.fab, 0xf00054⟩
def R.FAB_FDB_KEY_HI.VID : Fld := ⟨.fab, 0xf00054, 16, 12⟩
def R.FAB_FDB_KEY_HI.MAC_HI : Fld := ⟨.fab, 0xf00054, 0, 16⟩
def R.FAB_FDB_DATA.reg : Reg := ⟨.fab, 0xf00058⟩
def R.FAB_FDB_DATA.VALID : Fld := ⟨.fab, 0xf00058, 31, 1⟩
def R.FAB_FDB_DATA.STATIC : Fld := ⟨.fab, 0xf00058, 30, 1⟩
def R.FAB_FDB_DATA.OWNER : Fld := ⟨.fab, 0xf00058, 24, 3⟩
def R.FAB_FDB_DATA.PORT : Fld := ⟨.fab, 0xf00058, 0, 9⟩
def R.FAB_FDB_CMD.reg : Reg := ⟨.fab, 0xf0005c⟩
def R.FAB_FDB_CMD.CMD : Fld := ⟨.fab, 0xf0005c, 0, 4⟩
def R.FAB_FDB_STATUS.reg : Reg := ⟨.fab, 0xf00060⟩
def R.FAB_FDB_STATUS.BUSY : Fld := ⟨.fab, 0xf00060, 31, 1⟩
def R.FAB_FDB_STATUS.RESULT : Fld := ⟨.fab, 0xf00060, 0, 8⟩
def R.FAB_FDB_EVT.reg : Reg := ⟨.fab, 0xf00064⟩
def R.FAB_FDB_EVT.BUCKET_FULL : Fld := ⟨.fab, 0xf00064, 0, 1⟩
def R.FAB_FDB_EVT_CNT.reg : Reg := ⟨.fab, 0xf00068⟩
def R.FAB_FDB_EVT_CNT.BUCKET_FULL_CNT : Fld := ⟨.fab, 0xf00068, 0, 16⟩
def R.FAB_VLAN_MEMBER.reg (v w : Nat) : Reg := ⟨.fab, 0xf10000 + 0x80 * v + 0x4 * w⟩
def R.FAB_VLAN_MEMBER.MEMBER (v w : Nat) : Fld := ⟨.fab, 0xf10000 + 0x80 * v + 0x4 * w, 0, 32⟩
def R.FAB_VLAN_CFG.reg (v : Nat) : Reg := ⟨.fab, 0xf10020 + 0x80 * v⟩
def R.FAB_VLAN_CFG.VALID (v : Nat) : Fld := ⟨.fab, 0xf10020 + 0x80 * v, 2, 1⟩
def R.FAB_VLAN_CFG.LEARN (v : Nat) : Fld := ⟨.fab, 0xf10020 + 0x80 * v, 1, 1⟩
def R.FAB_VLAN_CFG.CTL_MEMBER (v : Nat) : Fld := ⟨.fab, 0xf10020 + 0x80 * v, 0, 1⟩
def R.FAB_VLAN_RSVD1.reg (v w : Nat) : Reg := ⟨.fab, 0xf10024 + 0x80 * v + 0x4 * w⟩
def R.FAB_VLAN_UNTAG.reg (v w : Nat) : Reg := ⟨.fab, 0xf10040 + 0x80 * v + 0x4 * w⟩
def R.FAB_VLAN_UNTAG.UNTAG (v w : Nat) : Fld := ⟨.fab, 0xf10040 + 0x80 * v + 0x4 * w, 0, 32⟩
def R.FAB_VLAN_RSVD2.reg (v w : Nat) : Reg := ⟨.fab, 0xf10060 + 0x80 * v + 0x4 * w⟩
def R.FAB_MCG_MAC_LO.reg (g : Nat) : Reg := ⟨.fab, 0xfa0000 + 0x40 * g⟩
def R.FAB_MCG_MAC_LO.MAC_LO (g : Nat) : Fld := ⟨.fab, 0xfa0000 + 0x40 * g, 0, 32⟩
def R.FAB_MCG_CFG.reg (g : Nat) : Reg := ⟨.fab, 0xfa0004 + 0x40 * g⟩
def R.FAB_MCG_CFG.VALID (g : Nat) : Fld := ⟨.fab, 0xfa0004 + 0x40 * g, 31, 1⟩
def R.FAB_MCG_CFG.SOWN (g : Nat) : Fld := ⟨.fab, 0xfa0004 + 0x40 * g, 30, 1⟩
def R.FAB_MCG_CFG.VID (g : Nat) : Fld := ⟨.fab, 0xfa0004 + 0x40 * g, 16, 12⟩
def R.FAB_MCG_CFG.MAC_HI (g : Nat) : Fld := ⟨.fab, 0xfa0004 + 0x40 * g, 0, 16⟩
def R.FAB_MCG_CTL.reg (g : Nat) : Reg := ⟨.fab, 0xfa0008 + 0x40 * g⟩
def R.FAB_MCG_CTL.CTL (g : Nat) : Fld := ⟨.fab, 0xfa0008 + 0x40 * g, 0, 1⟩
def R.FAB_MCG_RSVD.reg (g w : Nat) : Reg := ⟨.fab, 0xfa000c + 0x40 * g + 0x4 * w⟩
def R.FAB_MCG_MEMBER.reg (g w : Nat) : Reg := ⟨.fab, 0xfa0020 + 0x40 * g + 0x4 * w⟩
def R.FAB_MCG_MEMBER.MEMBER (g w : Nat) : Fld := ⟨.fab, 0xfa0020 + 0x40 * g + 0x4 * w, 0, 32⟩
def R.PORT_CFG.reg (n : Nat) : Reg := ⟨.port, 0x0 + 0x10000 * n⟩
def R.PORT_CFG.EN (n : Nat) : Fld := ⟨.port, 0x0 + 0x10000 * n, 31, 1⟩
def R.PORT_CFG.ROLE (n : Nat) : Fld := ⟨.port, 0x0 + 0x10000 * n, 26, 2⟩
def R.PORT_CFG.PMD (n : Nat) : Fld := ⟨.port, 0x0 + 0x10000 * n, 24, 2⟩
def R.PORT_CFG.FEC25 (n : Nat) : Fld := ⟨.port, 0x0 + 0x10000 * n, 23, 1⟩
def R.PORT_CFG.PAIR_GATE (n : Nat) : Fld := ⟨.port, 0x0 + 0x10000 * n, 22, 1⟩
def R.PORT_STATUS.reg (n : Nat) : Reg := ⟨.port, 0x4 + 0x10000 * n⟩
def R.PORT_STATUS.STATE (n : Nat) : Fld := ⟨.port, 0x4 + 0x10000 * n, 29, 3⟩
def R.PORT_STATUS.SWAPPED (n : Nat) : Fld := ⟨.port, 0x4 + 0x10000 * n, 28, 1⟩
def R.PORT_STATUS.RX_LOS (n : Nat) : Fld := ⟨.port, 0x4 + 0x10000 * n, 27, 1⟩
def R.PORT_STATUS.LOCAL_FAULT (n : Nat) : Fld := ⟨.port, 0x4 + 0x10000 * n, 26, 1⟩
def R.PORT_STATUS.REMOTE_FAULT (n : Nat) : Fld := ⟨.port, 0x4 + 0x10000 * n, 25, 1⟩
def R.PORT_STATUS.ALIGNED (n : Nat) : Fld := ⟨.port, 0x4 + 0x10000 * n, 24, 1⟩
def R.PORT_EVT.reg (n : Nat) : Reg := ⟨.port, 0x8 + 0x10000 * n⟩
def R.PORT_EVT.TX_FAULT (n : Nat) : Fld := ⟨.port, 0x8 + 0x10000 * n, 5, 1⟩
def R.PORT_EVT.LASER_SWAP (n : Nat) : Fld := ⟨.port, 0x8 + 0x10000 * n, 4, 1⟩
def R.PORT_EVT.RX_LOW (n : Nat) : Fld := ⟨.port, 0x8 + 0x10000 * n, 3, 1⟩
def R.PORT_EVT.DEGRADE (n : Nat) : Fld := ⟨.port, 0x8 + 0x10000 * n, 2, 1⟩
def R.PORT_EVT.LINK_DOWN (n : Nat) : Fld := ⟨.port, 0x8 + 0x10000 * n, 1, 1⟩
def R.PORT_EVT.LINK_UP (n : Nat) : Fld := ⟨.port, 0x8 + 0x10000 * n, 0, 1⟩
def R.PORT_EVT_CNT0.reg (n : Nat) : Reg := ⟨.port, 0xc + 0x10000 * n⟩
def R.PORT_EVT_CNT0.LINK_DOWN_CNT (n : Nat) : Fld := ⟨.port, 0xc + 0x10000 * n, 16, 16⟩
def R.PORT_EVT_CNT0.LINK_UP_CNT (n : Nat) : Fld := ⟨.port, 0xc + 0x10000 * n, 0, 16⟩
def R.PORT_EVT_CNT1.reg (n : Nat) : Reg := ⟨.port, 0x10 + 0x10000 * n⟩
def R.PORT_EVT_CNT1.RX_LOW_CNT (n : Nat) : Fld := ⟨.port, 0x10 + 0x10000 * n, 16, 16⟩
def R.PORT_EVT_CNT1.DEGRADE_CNT (n : Nat) : Fld := ⟨.port, 0x10 + 0x10000 * n, 0, 16⟩
def R.PORT_EVT_CNT2.reg (n : Nat) : Reg := ⟨.port, 0x14 + 0x10000 * n⟩
def R.PORT_EVT_CNT2.TX_FAULT_CNT (n : Nat) : Fld := ⟨.port, 0x14 + 0x10000 * n, 16, 16⟩
def R.PORT_EVT_CNT2.LASER_SWAP_CNT (n : Nat) : Fld := ⟨.port, 0x14 + 0x10000 * n, 0, 16⟩
def R.PORT_DEG_CFG.reg (n : Nat) : Reg := ⟨.port, 0x18 + 0x10000 * n⟩
def R.PORT_DEG_CFG.SYM_THR (n : Nat) : Fld := ⟨.port, 0x18 + 0x10000 * n, 0, 16⟩
def R.PORT_RXLOW_THR.reg (n : Nat) : Reg := ⟨.port, 0x1c + 0x10000 * n⟩
def R.PORT_RXLOW_THR.THR (n : Nat) : Fld := ⟨.port, 0x1c + 0x10000 * n, 0, 16⟩
def R.PORT_OPT0.reg (n : Nat) : Reg := ⟨.port, 0x20 + 0x10000 * n⟩
def R.PORT_OPT0.TX_BIAS (n : Nat) : Fld := ⟨.port, 0x20 + 0x10000 * n, 16, 16⟩
def R.PORT_OPT0.RX_PWR (n : Nat) : Fld := ⟨.port, 0x20 + 0x10000 * n, 0, 16⟩
def R.PORT_OPT1.reg (n : Nat) : Reg := ⟨.port, 0x24 + 0x10000 * n⟩
def R.PORT_OPT1.ENG_TEMP (n : Nat) : Fld := ⟨.port, 0x24 + 0x10000 * n, 0, 16⟩
def R.PORT_RX_OCTETS_LO.reg (n : Nat) : Reg := ⟨.port, 0x40 + 0x10000 * n⟩
def R.PORT_RX_OCTETS_LO.RX_OCTETS (n : Nat) : Fld := ⟨.port, 0x40 + 0x10000 * n, 0, 32⟩
def R.PORT_RX_OCTETS_HI.reg (n : Nat) : Reg := ⟨.port, 0x44 + 0x10000 * n⟩
def R.PORT_RX_OCTETS_HI.RX_OCTETS (n : Nat) : Fld := ⟨.port, 0x44 + 0x10000 * n, 0, 32⟩
def R.PORT_RX_FRAMES_LO.reg (n : Nat) : Reg := ⟨.port, 0x48 + 0x10000 * n⟩
def R.PORT_RX_FRAMES_LO.RX_FRAMES (n : Nat) : Fld := ⟨.port, 0x48 + 0x10000 * n, 0, 32⟩
def R.PORT_RX_FRAMES_HI.reg (n : Nat) : Reg := ⟨.port, 0x4c + 0x10000 * n⟩
def R.PORT_RX_FRAMES_HI.RX_FRAMES (n : Nat) : Fld := ⟨.port, 0x4c + 0x10000 * n, 0, 32⟩
def R.PORT_TX_OCTETS_LO.reg (n : Nat) : Reg := ⟨.port, 0x50 + 0x10000 * n⟩
def R.PORT_TX_OCTETS_LO.TX_OCTETS (n : Nat) : Fld := ⟨.port, 0x50 + 0x10000 * n, 0, 32⟩
def R.PORT_TX_OCTETS_HI.reg (n : Nat) : Reg := ⟨.port, 0x54 + 0x10000 * n⟩
def R.PORT_TX_OCTETS_HI.TX_OCTETS (n : Nat) : Fld := ⟨.port, 0x54 + 0x10000 * n, 0, 32⟩
def R.PORT_TX_FRAMES_LO.reg (n : Nat) : Reg := ⟨.port, 0x58 + 0x10000 * n⟩
def R.PORT_TX_FRAMES_LO.TX_FRAMES (n : Nat) : Fld := ⟨.port, 0x58 + 0x10000 * n, 0, 32⟩
def R.PORT_TX_FRAMES_HI.reg (n : Nat) : Reg := ⟨.port, 0x5c + 0x10000 * n⟩
def R.PORT_TX_FRAMES_HI.TX_FRAMES (n : Nat) : Fld := ⟨.port, 0x5c + 0x10000 * n, 0, 32⟩
def R.PORT_FEC_CORR_LO.reg (n : Nat) : Reg := ⟨.port, 0x60 + 0x10000 * n⟩
def R.PORT_FEC_CORR_LO.FEC_CORR (n : Nat) : Fld := ⟨.port, 0x60 + 0x10000 * n, 0, 32⟩
def R.PORT_FEC_CORR_HI.reg (n : Nat) : Reg := ⟨.port, 0x64 + 0x10000 * n⟩
def R.PORT_FEC_CORR_HI.FEC_CORR (n : Nat) : Fld := ⟨.port, 0x64 + 0x10000 * n, 0, 32⟩
def R.PORT_FEC_UNCORR_LO.reg (n : Nat) : Reg := ⟨.port, 0x68 + 0x10000 * n⟩
def R.PORT_FEC_UNCORR_LO.FEC_UNCORR (n : Nat) : Fld := ⟨.port, 0x68 + 0x10000 * n, 0, 32⟩
def R.PORT_FEC_UNCORR_HI.reg (n : Nat) : Reg := ⟨.port, 0x6c + 0x10000 * n⟩
def R.PORT_FEC_UNCORR_HI.FEC_UNCORR (n : Nat) : Fld := ⟨.port, 0x6c + 0x10000 * n, 0, 32⟩
def R.PORT_FEC_SYM_LO.reg (n : Nat) : Reg := ⟨.port, 0x70 + 0x10000 * n⟩
def R.PORT_FEC_SYM_LO.FEC_SYM (n : Nat) : Fld := ⟨.port, 0x70 + 0x10000 * n, 0, 32⟩
def R.PORT_FEC_SYM_HI.reg (n : Nat) : Reg := ⟨.port, 0x74 + 0x10000 * n⟩
def R.PORT_FEC_SYM_HI.FEC_SYM (n : Nat) : Fld := ⟨.port, 0x74 + 0x10000 * n, 0, 32⟩
def R.PORT_CNT_MACCTL.reg (n : Nat) : Reg := ⟨.port, 0x80 + 0x10000 * n⟩
def R.PORT_CNT_MACCTL.COUNT (n : Nat) : Fld := ⟨.port, 0x80 + 0x10000 * n, 0, 32⟩
def R.PORT_CNT_TAG_OVERSIZE.reg (n : Nat) : Reg := ⟨.port, 0x84 + 0x10000 * n⟩
def R.PORT_CNT_TAG_OVERSIZE.COUNT (n : Nat) : Fld := ⟨.port, 0x84 + 0x10000 * n, 0, 32⟩
def R.PORT_CNT_DOWN_DROP.reg (n : Nat) : Reg := ⟨.port, 0x88 + 0x10000 * n⟩
def R.PORT_CNT_DOWN_DROP.COUNT (n : Nat) : Fld := ⟨.port, 0x88 + 0x10000 * n, 0, 32⟩
def R.PORT_CNT_GATED.reg (n : Nat) : Reg := ⟨.port, 0x8c + 0x10000 * n⟩
def R.PORT_CNT_GATED.COUNT (n : Nat) : Fld := ⟨.port, 0x8c + 0x10000 * n, 0, 32⟩
def R.RING_CFG.reg (r : Nat) : Reg := ⟨.ring, 0x0 + 0x1000 * r⟩
def R.RING_CFG.EN (r : Nat) : Fld := ⟨.ring, 0x0 + 0x1000 * r, 31, 1⟩
def R.RING_CFG.PORT_B (r : Nat) : Fld := ⟨.ring, 0x0 + 0x1000 * r, 8, 8⟩
def R.RING_CFG.PORT_A (r : Nat) : Fld := ⟨.ring, 0x0 + 0x1000 * r, 0, 8⟩
def R.RING_SV_CFG.reg (r : Nat) : Reg := ⟨.ring, 0x4 + 0x1000 * r⟩
def R.RING_SV_CFG.ADDR (r : Nat) : Fld := ⟨.ring, 0x4 + 0x1000 * r, 0, 8⟩
def R.RING_DET_CFG.reg (r : Nat) : Reg := ⟨.ring, 0x8 + 0x1000 * r⟩
def R.RING_DET_CFG.GAP_N (r : Nat) : Fld := ⟨.ring, 0x8 + 0x1000 * r, 16, 8⟩
def R.RING_DET_CFG.SKEW_TMO (r : Nat) : Fld := ⟨.ring, 0x8 + 0x1000 * r, 0, 16⟩
def R.RING_STATUS.reg (r : Nat) : Reg := ⟨.ring, 0xc + 0x1000 * r⟩
def R.RING_STATUS.OPEN (r : Nat) : Fld := ⟨.ring, 0xc + 0x1000 * r, 31, 1⟩
def R.RING_STATUS.LOC_VALID (r : Nat) : Fld := ⟨.ring, 0xc + 0x1000 * r, 30, 1⟩
def R.RING_STATUS.BR_ROLE (r : Nat) : Fld := ⟨.ring, 0xc + 0x1000 * r, 29, 1⟩
def R.RING_STATUS.HI (r : Nat) : Fld := ⟨.ring, 0xc + 0x1000 * r, 8, 5⟩
def R.RING_STATUS.LO (r : Nat) : Fld := ⟨.ring, 0xc + 0x1000 * r, 0, 5⟩
def R.RING_EVT.reg (r : Nat) : Reg := ⟨.ring, 0x10 + 0x1000 * r⟩
def R.RING_EVT.UNKNOWN_NODE (r : Nat) : Fld := ⟨.ring, 0x10 + 0x1000 * r, 4, 1⟩
def R.RING_EVT.NODE_LOST (r : Nat) : Fld := ⟨.ring, 0x10 + 0x1000 * r, 3, 1⟩
def R.RING_EVT.DD_EVICT (r : Nat) : Fld := ⟨.ring, 0x10 + 0x1000 * r, 2, 1⟩
def R.RING_EVT.RING_CLOSED (r : Nat) : Fld := ⟨.ring, 0x10 + 0x1000 * r, 1, 1⟩
def R.RING_EVT.RING_OPEN (r : Nat) : Fld := ⟨.ring, 0x10 + 0x1000 * r, 0, 1⟩
def R.RING_EVT_CNT0.reg (r : Nat) : Reg := ⟨.ring, 0x14 + 0x1000 * r⟩
def R.RING_EVT_CNT0.RING_CLOSED_CNT (r : Nat) : Fld := ⟨.ring, 0x14 + 0x1000 * r, 16, 16⟩
def R.RING_EVT_CNT0.RING_OPEN_CNT (r : Nat) : Fld := ⟨.ring, 0x14 + 0x1000 * r, 0, 16⟩
def R.RING_EVT_CNT1.reg (r : Nat) : Reg := ⟨.ring, 0x18 + 0x1000 * r⟩
def R.RING_EVT_CNT1.NODE_LOST_CNT (r : Nat) : Fld := ⟨.ring, 0x18 + 0x1000 * r, 16, 16⟩
def R.RING_EVT_CNT1.DD_EVICT_CNT (r : Nat) : Fld := ⟨.ring, 0x18 + 0x1000 * r, 0, 16⟩
def R.RING_EVT_CNT2.reg (r : Nat) : Reg := ⟨.ring, 0x1c + 0x1000 * r⟩
def R.RING_EVT_CNT2.UNKNOWN_NODE_CNT (r : Nat) : Fld := ⟨.ring, 0x1c + 0x1000 * r, 0, 16⟩
def R.RING_CNT_DUP.reg (r : Nat) : Reg := ⟨.ring, 0x20 + 0x1000 * r⟩
def R.RING_CNT_DUP.COUNT (r : Nat) : Fld := ⟨.ring, 0x20 + 0x1000 * r, 0, 32⟩
def R.RING_CNT_OWN.reg (r : Nat) : Reg := ⟨.ring, 0x24 + 0x1000 * r⟩
def R.RING_CNT_OWN.COUNT (r : Nat) : Fld := ⟨.ring, 0x24 + 0x1000 * r, 0, 32⟩
def R.RING_CNT_BAD_TAG.reg (r : Nat) : Reg := ⟨.ring, 0x28 + 0x1000 * r⟩
def R.RING_CNT_BAD_TAG.COUNT (r : Nat) : Fld := ⟨.ring, 0x28 + 0x1000 * r, 0, 32⟩
def R.RING_CNT_ONE_SIDED.reg (r : Nat) : Reg := ⟨.ring, 0x2c + 0x1000 * r⟩
def R.RING_CNT_ONE_SIDED.COUNT (r : Nat) : Fld := ⟨.ring, 0x2c + 0x1000 * r, 0, 32⟩
def R.RING_SEQ.reg (r : Nat) : Reg := ⟨.ring, 0x40 + 0x1000 * r⟩
def R.RING_SEQ.SEQ (r : Nat) : Fld := ⟨.ring, 0x40 + 0x1000 * r, 0, 16⟩
def R.RING_DD_USED.reg (r : Nat) : Reg := ⟨.ring, 0x44 + 0x1000 * r⟩
def R.RING_DD_USED.USED (r : Nat) : Fld := ⟨.ring, 0x44 + 0x1000 * r, 0, 17⟩
def R.RING_NODE_MAC_LO.reg (r j : Nat) : Reg := ⟨.ring, 0x100 + 0x1000 * r + 0x10 * j⟩
def R.RING_NODE_MAC_LO.MAC_LO (r j : Nat) : Fld := ⟨.ring, 0x100 + 0x1000 * r + 0x10 * j, 0, 32⟩
def R.RING_NODE_MAC_HI.reg (r j : Nat) : Reg := ⟨.ring, 0x104 + 0x1000 * r + 0x10 * j⟩
def R.RING_NODE_MAC_HI.VALID (r j : Nat) : Fld := ⟨.ring, 0x104 + 0x1000 * r + 0x10 * j, 31, 1⟩
def R.RING_NODE_MAC_HI.PARTNER (r j : Nat) : Fld := ⟨.ring, 0x104 + 0x1000 * r + 0x10 * j, 30, 1⟩
def R.RING_NODE_MAC_HI.MAC_HI (r j : Nat) : Fld := ⟨.ring, 0x104 + 0x1000 * r + 0x10 * j, 0, 16⟩
def R.RING_NODE_STATUS.reg (r j : Nat) : Reg := ⟨.ring, 0x108 + 0x1000 * r + 0x10 * j⟩
def R.RING_NODE_STATUS.VIA_B (r j : Nat) : Fld := ⟨.ring, 0x108 + 0x1000 * r + 0x10 * j, 1, 1⟩
def R.RING_NODE_STATUS.VIA_A (r j : Nat) : Fld := ⟨.ring, 0x108 + 0x1000 * r + 0x10 * j, 0, 1⟩
def R.MTR_CFG.reg : Reg := ⟨.mtr, 0x0⟩
def R.MTR_CFG.EN : Fld := ⟨.mtr, 0x0, 31, 1⟩
def R.MTR_CFG.NOM : Fld := ⟨.mtr, 0x0, 30, 1⟩
def R.MTR_CFG.ZC_TMO : Fld := ⟨.mtr, 0x0, 0, 7⟩
def R.MTR_SURGE_CFG.reg : Reg := ⟨.mtr, 0x4⟩
def R.MTR_SURGE_CFG.V_THR : Fld := ⟨.mtr, 0x4, 16, 16⟩
def R.MTR_SURGE_CFG.I_THR : Fld := ⟨.mtr, 0x4, 0, 16⟩
def R.MTR_COLLAPSE_CFG.reg : Reg := ⟨.mtr, 0x8⟩
def R.MTR_COLLAPSE_CFG.THR : Fld := ⟨.mtr, 0x8, 0, 16⟩
def R.MTR_STATUS.reg : Reg := ⟨.mtr, 0x10⟩
def R.MTR_STATUS.COLLAPSE_NOW : Fld := ⟨.mtr, 0x10, 30, 2⟩
def R.MTR_STATUS.SURGE_V_NOW : Fld := ⟨.mtr, 0x10, 16, 6⟩
def R.MTR_STATUS.NO_MAINS_NOW : Fld := ⟨.mtr, 0x10, 0, 6⟩
def R.MTR_FREQ0.reg : Reg := ⟨.mtr, 0x14⟩
def R.MTR_FREQ0.FREQ : Fld := ⟨.mtr, 0x14, 0, 16⟩
def R.MTR_FREQ1.reg : Reg := ⟨.mtr, 0x18⟩
def R.MTR_FREQ1.FREQ : Fld := ⟨.mtr, 0x18, 0, 16⟩
def R.MTR_WIN_SEQ.reg : Reg := ⟨.mtr, 0x1c⟩
def R.MTR_WIN_SEQ.SEQ1 : Fld := ⟨.mtr, 0x1c, 16, 16⟩
def R.MTR_WIN_SEQ.SEQ0 : Fld := ⟨.mtr, 0x1c, 0, 16⟩
def R.MTR_EVT.reg : Reg := ⟨.mtr, 0x20⟩
def R.MTR_EVT.REFUSED : Fld := ⟨.mtr, 0x20, 6, 1⟩
def R.MTR_EVT.CAP_DONE : Fld := ⟨.mtr, 0x20, 5, 1⟩
def R.MTR_EVT.SAVED : Fld := ⟨.mtr, 0x20, 4, 1⟩
def R.MTR_EVT.CLIP : Fld := ⟨.mtr, 0x20, 3, 1⟩
def R.MTR_EVT.COLLAPSE : Fld := ⟨.mtr, 0x20, 2, 1⟩
def R.MTR_EVT.SURGE : Fld := ⟨.mtr, 0x20, 1, 1⟩
def R.MTR_EVT.NO_MAINS : Fld := ⟨.mtr, 0x20, 0, 1⟩
def R.MTR_EVT_CNT0.reg : Reg := ⟨.mtr, 0x24⟩
def R.MTR_EVT_CNT0.SURGE_CNT : Fld := ⟨.mtr, 0x24, 16, 16⟩
def R.MTR_EVT_CNT0.NO_MAINS_CNT : Fld := ⟨.mtr, 0x24, 0, 16⟩
def R.MTR_EVT_CNT1.reg : Reg := ⟨.mtr, 0x28⟩
def R.MTR_EVT_CNT1.CLIP_CNT : Fld := ⟨.mtr, 0x28, 16, 16⟩
def R.MTR_EVT_CNT1.COLLAPSE_CNT : Fld := ⟨.mtr, 0x28, 0, 16⟩
def R.MTR_EVT_CNT2.reg : Reg := ⟨.mtr, 0x2c⟩
def R.MTR_EVT_CNT2.CAP_DONE_CNT : Fld := ⟨.mtr, 0x2c, 16, 16⟩
def R.MTR_EVT_CNT2.SAVED_CNT : Fld := ⟨.mtr, 0x2c, 0, 16⟩
def R.MTR_EVT_CNT3.reg : Reg := ⟨.mtr, 0x30⟩
def R.MTR_EVT_CNT3.REFUSED_CNT : Fld := ⟨.mtr, 0x30, 0, 16⟩
def R.MTR_CMD.reg : Reg := ⟨.mtr, 0x34⟩
def R.MTR_CMD.CMD : Fld := ⟨.mtr, 0x34, 0, 4⟩
def R.MTR_SAVE_AGE.reg : Reg := ⟨.mtr, 0x38⟩
def R.MTR_SAVE_AGE.AGE_MS : Fld := ⟨.mtr, 0x38, 0, 32⟩
def R.MTR_FDR.reg (f : Nat) : Reg := ⟨.mtr, 0x40 + 0x4 * f⟩
def R.MTR_FDR.EN (f : Nat) : Fld := ⟨.mtr, 0x40 + 0x4 * f, 31, 1⟩
def R.MTR_FDR.BUSBAR (f : Nat) : Fld := ⟨.mtr, 0x40 + 0x4 * f, 30, 1⟩
def R.MTR_FDR.N_EN (f : Nat) : Fld := ⟨.mtr, 0x40 + 0x4 * f, 29, 1⟩
def R.MTR_CH_CAL0.reg (c : Nat) : Reg := ⟨.mtr, 0x100 + 0x8 * c⟩
def R.MTR_CH_CAL0.FS (c : Nat) : Fld := ⟨.mtr, 0x100 + 0x8 * c, 16, 16⟩
def R.MTR_CH_CAL0.GAIN (c : Nat) : Fld := ⟨.mtr, 0x100 + 0x8 * c, 0, 16⟩
def R.MTR_CH_CAL1.reg (c : Nat) : Reg := ⟨.mtr, 0x104 + 0x8 * c⟩
def R.MTR_CH_CAL1.DELAY (c : Nat) : Fld := ⟨.mtr, 0x104 + 0x8 * c, 16, 16⟩
def R.MTR_CH_CAL1.OFFSET (c : Nat) : Fld := ⟨.mtr, 0x104 + 0x8 * c, 0, 16⟩
def R.MTR_HARM_SEL.reg : Reg := ⟨.mtr, 0x300⟩
def R.MTR_HARM_SEL.CH : Fld := ⟨.mtr, 0x300, 8, 6⟩
def R.MTR_HARM_SEL.ORDER : Fld := ⟨.mtr, 0x300, 0, 5⟩
def R.MTR_HARM_DATA.reg : Reg := ⟨.mtr, 0x304⟩
def R.MTR_HARM_DATA.MAG : Fld := ⟨.mtr, 0x304, 16, 16⟩
def R.MTR_HARM_DATA.PHASE : Fld := ⟨.mtr, 0x304, 0, 16⟩
def R.MTR_RESERVED.reg : Reg := ⟨.mtr, 0x308⟩
def R.MTR_EST_CFG.reg : Reg := ⟨.mtr, 0x310⟩
def R.MTR_EST_CFG.EN : Fld := ⟨.mtr, 0x310, 31, 1⟩
def R.MTR_EST_CFG.RIDGE : Fld := ⟨.mtr, 0x310, 17, 10⟩
def R.MTR_EST_CFG.OFFSET : Fld := ⟨.mtr, 0x310, 0, 17⟩
def R.MTR_EST_STATUS.reg : Reg := ⟨.mtr, 0x314⟩
def R.MTR_EST_STATUS.BUSY : Fld := ⟨.mtr, 0x314, 31, 1⟩
def R.MTR_EST_STATUS.LOW : Fld := ⟨.mtr, 0x314, 0, 17⟩
def R.MTR_CAP_CMD.reg : Reg := ⟨.mtr, 0x400⟩
def R.MTR_CAP_CMD.CMD : Fld := ⟨.mtr, 0x400, 0, 4⟩
def R.MTR_CAP_MASK_LO.reg : Reg := ⟨.mtr, 0x404⟩
def R.MTR_CAP_MASK_LO.MASK_LO : Fld := ⟨.mtr, 0x404, 0, 32⟩
def R.MTR_CAP_MASK_HI.reg : Reg := ⟨.mtr, 0x408⟩
def R.MTR_CAP_MASK_HI.MASK_HI : Fld := ⟨.mtr, 0x408, 0, 22⟩
def R.MTR_CAP_START.reg (w : Nat) : Reg := ⟨.mtr, 0x40c + 0x4 * w⟩
def R.MTR_CAP_START.START (w : Nat) : Fld := ⟨.mtr, 0x40c + 0x4 * w, 0, 32⟩
def R.MTR_CAP_STOP.reg (w : Nat) : Reg := ⟨.mtr, 0x418 + 0x4 * w⟩
def R.MTR_CAP_STOP.STOP (w : Nat) : Fld := ⟨.mtr, 0x418 + 0x4 * w, 0, 32⟩
def R.MTR_CAP_TRIG.reg : Reg := ⟨.mtr, 0x424⟩
def R.MTR_CAP_TRIG.LEN : Fld := ⟨.mtr, 0x424, 16, 16⟩
def R.MTR_CAP_TRIG.PRE : Fld := ⟨.mtr, 0x424, 0, 7⟩
def R.MTR_CAP_STATUS.reg : Reg := ⟨.mtr, 0x428⟩
def R.MTR_CAP_STATUS.STATE : Fld := ⟨.mtr, 0x428, 29, 3⟩
def R.MTR_CAP_STATUS.RESULT : Fld := ⟨.mtr, 0x428, 24, 5⟩
def R.MTR_CAP_STATUS.BLOCKS : Fld := ⟨.mtr, 0x428, 0, 17⟩
def R.MTR_CAP_FIRST.reg (w : Nat) : Reg := ⟨.mtr, 0x42c + 0x4 * w⟩
def R.MTR_CAP_FIRST.FIRST (w : Nat) : Fld := ⟨.mtr, 0x42c + 0x4 * w, 0, 32⟩
def R.MTR_CAP_COUNT.reg : Reg := ⟨.mtr, 0x438⟩
def R.MTR_CAP_COUNT.COUNT : Fld := ⟨.mtr, 0x438, 0, 32⟩
def R.MTR_CAP_E_LO.reg (f : Nat) : Reg := ⟨.mtr, 0x480 + 0x8 * f⟩
def R.MTR_CAP_E_LO.E (f : Nat) : Fld := ⟨.mtr, 0x480 + 0x8 * f, 0, 32⟩
def R.MTR_CAP_E_HI.reg (f : Nat) : Reg := ⟨.mtr, 0x484 + 0x8 * f⟩
def R.MTR_CAP_E_HI.E (f : Nat) : Fld := ⟨.mtr, 0x484 + 0x8 * f, 0, 32⟩
def R.MTR_PH_EP_IMP_LO.reg (f q : Nat) : Reg := ⟨.mtr, 0x1000 + 0x100 * f + 0x40 * q⟩
def R.MTR_PH_EP_IMP_LO.EP_IMP (f q : Nat) : Fld := ⟨.mtr, 0x1000 + 0x100 * f + 0x40 * q, 0, 32⟩
def R.MTR_PH_EP_IMP_HI.reg (f q : Nat) : Reg := ⟨.mtr, 0x1004 + 0x100 * f + 0x40 * q⟩
def R.MTR_PH_EP_IMP_HI.EP_IMP (f q : Nat) : Fld := ⟨.mtr, 0x1004 + 0x100 * f + 0x40 * q, 0, 32⟩
def R.MTR_PH_EP_EXP_LO.reg (f q : Nat) : Reg := ⟨.mtr, 0x1008 + 0x100 * f + 0x40 * q⟩
def R.MTR_PH_EP_EXP_LO.EP_EXP (f q : Nat) : Fld := ⟨.mtr, 0x1008 + 0x100 * f + 0x40 * q, 0, 32⟩
def R.MTR_PH_EP_EXP_HI.reg (f q : Nat) : Reg := ⟨.mtr, 0x100c + 0x100 * f + 0x40 * q⟩
def R.MTR_PH_EP_EXP_HI.EP_EXP (f q : Nat) : Fld := ⟨.mtr, 0x100c + 0x100 * f + 0x40 * q, 0, 32⟩
def R.MTR_PH_EQ_POS_LO.reg (f q : Nat) : Reg := ⟨.mtr, 0x1010 + 0x100 * f + 0x40 * q⟩
def R.MTR_PH_EQ_POS_LO.EQ_POS (f q : Nat) : Fld := ⟨.mtr, 0x1010 + 0x100 * f + 0x40 * q, 0, 32⟩
def R.MTR_PH_EQ_POS_HI.reg (f q : Nat) : Reg := ⟨.mtr, 0x1014 + 0x100 * f + 0x40 * q⟩
def R.MTR_PH_EQ_POS_HI.EQ_POS (f q : Nat) : Fld := ⟨.mtr, 0x1014 + 0x100 * f + 0x40 * q, 0, 32⟩
def R.MTR_PH_EQ_NEG_LO.reg (f q : Nat) : Reg := ⟨.mtr, 0x1018 + 0x100 * f + 0x40 * q⟩
def R.MTR_PH_EQ_NEG_LO.EQ_NEG (f q : Nat) : Fld := ⟨.mtr, 0x1018 + 0x100 * f + 0x40 * q, 0, 32⟩
def R.MTR_PH_EQ_NEG_HI.reg (f q : Nat) : Reg := ⟨.mtr, 0x101c + 0x100 * f + 0x40 * q⟩
def R.MTR_PH_EQ_NEG_HI.EQ_NEG (f q : Nat) : Fld := ⟨.mtr, 0x101c + 0x100 * f + 0x40 * q, 0, 32⟩
def R.MTR_PH_ES_LO.reg (f q : Nat) : Reg := ⟨.mtr, 0x1020 + 0x100 * f + 0x40 * q⟩
def R.MTR_PH_ES_LO.ES (f q : Nat) : Fld := ⟨.mtr, 0x1020 + 0x100 * f + 0x40 * q, 0, 32⟩
def R.MTR_PH_ES_HI.reg (f q : Nat) : Reg := ⟨.mtr, 0x1024 + 0x100 * f + 0x40 * q⟩
def R.MTR_PH_ES_HI.ES (f q : Nat) : Fld := ⟨.mtr, 0x1024 + 0x100 * f + 0x40 * q, 0, 32⟩
def R.MTR_PH_IRMS.reg (f q : Nat) : Reg := ⟨.mtr, 0x1028 + 0x100 * f + 0x40 * q⟩
def R.MTR_PH_IRMS.IRMS (f q : Nat) : Fld := ⟨.mtr, 0x1028 + 0x100 * f + 0x40 * q, 0, 32⟩
def R.MTR_PH_VRMS.reg (f q : Nat) : Reg := ⟨.mtr, 0x102c + 0x100 * f + 0x40 * q⟩
def R.MTR_PH_VRMS.VRMS (f q : Nat) : Fld := ⟨.mtr, 0x102c + 0x100 * f + 0x40 * q, 0, 32⟩
def R.MTR_PH_P.reg (f q : Nat) : Reg := ⟨.mtr, 0x1030 + 0x100 * f + 0x40 * q⟩
def R.MTR_PH_P.P (f q : Nat) : Fld := ⟨.mtr, 0x1030 + 0x100 * f + 0x40 * q, 0, 32⟩
def R.MTR_PH_Q.reg (f q : Nat) : Reg := ⟨.mtr, 0x1034 + 0x100 * f + 0x40 * q⟩
def R.MTR_PH_Q.Q (f q : Nat) : Fld := ⟨.mtr, 0x1034 + 0x100 * f + 0x40 * q, 0, 32⟩
def R.MTR_PH_THD_PF.reg (f q : Nat) : Reg := ⟨.mtr, 0x1038 + 0x100 * f + 0x40 * q⟩
def R.MTR_PH_THD_PF.THD_I (f q : Nat) : Fld := ⟨.mtr, 0x1038 + 0x100 * f + 0x40 * q, 16, 16⟩
def R.MTR_PH_THD_PF.PF (f q : Nat) : Fld := ⟨.mtr, 0x1038 + 0x100 * f + 0x40 * q, 0, 16⟩
def R.MTR_PH_FLAGS.reg (f q : Nat) : Reg := ⟨.mtr, 0x103c + 0x100 * f + 0x40 * q⟩
def R.MTR_PH_FLAGS.SEQ (f q : Nat) : Fld := ⟨.mtr, 0x103c + 0x100 * f + 0x40 * q, 16, 16⟩
def R.MTR_PH_FLAGS.NO_MAINS (f q : Nat) : Fld := ⟨.mtr, 0x103c + 0x100 * f + 0x40 * q, 2, 1⟩
def R.MTR_PH_FLAGS.CLIP (f q : Nat) : Fld := ⟨.mtr, 0x103c + 0x100 * f + 0x40 * q, 1, 1⟩
def R.MTR_PH_FLAGS.SURGE (f q : Nat) : Fld := ⟨.mtr, 0x103c + 0x100 * f + 0x40 * q, 0, 1⟩
def R.MTR_TOT_EP_IMP_LO.reg (f : Nat) : Reg := ⟨.mtr, 0x10c0 + 0x100 * f⟩
def R.MTR_TOT_EP_IMP_LO.EP_IMP (f : Nat) : Fld := ⟨.mtr, 0x10c0 + 0x100 * f, 0, 32⟩
def R.MTR_TOT_EP_IMP_HI.reg (f : Nat) : Reg := ⟨.mtr, 0x10c4 + 0x100 * f⟩
def R.MTR_TOT_EP_IMP_HI.EP_IMP (f : Nat) : Fld := ⟨.mtr, 0x10c4 + 0x100 * f, 0, 32⟩
def R.MTR_TOT_EP_EXP_LO.reg (f : Nat) : Reg := ⟨.mtr, 0x10c8 + 0x100 * f⟩
def R.MTR_TOT_EP_EXP_LO.EP_EXP (f : Nat) : Fld := ⟨.mtr, 0x10c8 + 0x100 * f, 0, 32⟩
def R.MTR_TOT_EP_EXP_HI.reg (f : Nat) : Reg := ⟨.mtr, 0x10cc + 0x100 * f⟩
def R.MTR_TOT_EP_EXP_HI.EP_EXP (f : Nat) : Fld := ⟨.mtr, 0x10cc + 0x100 * f, 0, 32⟩
def R.MTR_TOT_EQ_POS_LO.reg (f : Nat) : Reg := ⟨.mtr, 0x10d0 + 0x100 * f⟩
def R.MTR_TOT_EQ_POS_LO.EQ_POS (f : Nat) : Fld := ⟨.mtr, 0x10d0 + 0x100 * f, 0, 32⟩
def R.MTR_TOT_EQ_POS_HI.reg (f : Nat) : Reg := ⟨.mtr, 0x10d4 + 0x100 * f⟩
def R.MTR_TOT_EQ_POS_HI.EQ_POS (f : Nat) : Fld := ⟨.mtr, 0x10d4 + 0x100 * f, 0, 32⟩
def R.MTR_TOT_EQ_NEG_LO.reg (f : Nat) : Reg := ⟨.mtr, 0x10d8 + 0x100 * f⟩
def R.MTR_TOT_EQ_NEG_LO.EQ_NEG (f : Nat) : Fld := ⟨.mtr, 0x10d8 + 0x100 * f, 0, 32⟩
def R.MTR_TOT_EQ_NEG_HI.reg (f : Nat) : Reg := ⟨.mtr, 0x10dc + 0x100 * f⟩
def R.MTR_TOT_EQ_NEG_HI.EQ_NEG (f : Nat) : Fld := ⟨.mtr, 0x10dc + 0x100 * f, 0, 32⟩
def R.MTR_TOT_ES_LO.reg (f : Nat) : Reg := ⟨.mtr, 0x10e0 + 0x100 * f⟩
def R.MTR_TOT_ES_LO.ES (f : Nat) : Fld := ⟨.mtr, 0x10e0 + 0x100 * f, 0, 32⟩
def R.MTR_TOT_ES_HI.reg (f : Nat) : Reg := ⟨.mtr, 0x10e4 + 0x100 * f⟩
def R.MTR_TOT_ES_HI.ES (f : Nat) : Fld := ⟨.mtr, 0x10e4 + 0x100 * f, 0, 32⟩
def R.MTR_TOT_P.reg (f : Nat) : Reg := ⟨.mtr, 0x10e8 + 0x100 * f⟩
def R.MTR_TOT_P.P (f : Nat) : Fld := ⟨.mtr, 0x10e8 + 0x100 * f, 0, 32⟩
def R.MTR_TOT_Q.reg (f : Nat) : Reg := ⟨.mtr, 0x10ec + 0x100 * f⟩
def R.MTR_TOT_Q.Q (f : Nat) : Fld := ⟨.mtr, 0x10ec + 0x100 * f, 0, 32⟩
def R.MTR_TOT_NRMS.reg (f : Nat) : Reg := ⟨.mtr, 0x10f0 + 0x100 * f⟩
def R.MTR_TOT_NRMS.NRMS (f : Nat) : Fld := ⟨.mtr, 0x10f0 + 0x100 * f, 0, 32⟩
def R.MTR_TOT_SEQ.reg (f : Nat) : Reg := ⟨.mtr, 0x10f4 + 0x100 * f⟩
def R.MTR_TOT_SEQ.SEQ (f : Nat) : Fld := ⟨.mtr, 0x10f4 + 0x100 * f, 0, 16⟩
def R.MTR_CAP_BUF.reg (w : Nat) : Reg := ⟨.mtr, 0x800000 + 0x4 * w⟩
def R.MTR_CAP_BUF.DATA (w : Nat) : Fld := ⟨.mtr, 0x800000 + 0x4 * w, 0, 32⟩
def R.DIO_CH_CFG.reg (n : Nat) : Reg := ⟨.dio, 0x0 + 0x4 * n⟩
def R.DIO_CH_CFG.EN (n : Nat) : Fld := ⟨.dio, 0x0 + 0x4 * n, 31, 1⟩
def R.DIO_CH_CFG.DIR (n : Nat) : Fld := ⟨.dio, 0x0 + 0x4 * n, 30, 1⟩
def R.DIO_CH_CFG.TYPE (n : Nat) : Fld := ⟨.dio, 0x0 + 0x4 * n, 29, 1⟩
def R.DIO_CH_CFG.PAR (n : Nat) : Fld := ⟨.dio, 0x0 + 0x4 * n, 24, 2⟩
def R.DIO_CH_CFG.FILTER (n : Nat) : Fld := ⟨.dio, 0x0 + 0x4 * n, 8, 8⟩
def R.DIO_CH_CFG.OW_EN (n : Nat) : Fld := ⟨.dio, 0x0 + 0x4 * n, 7, 1⟩
def R.DIO_CH_CFG.RETRY (n : Nat) : Fld := ⟨.dio, 0x0 + 0x4 * n, 6, 1⟩
def R.DIO_OUT.reg : Reg := ⟨.dio, 0x40⟩
def R.DIO_OUT.OUT : Fld := ⟨.dio, 0x40, 0, 16⟩
def R.DIO_IN.reg : Reg := ⟨.dio, 0x44⟩
def R.DIO_IN.IN : Fld := ⟨.dio, 0x44, 0, 16⟩
def R.DIO_DIAG0.reg : Reg := ⟨.dio, 0x48⟩
def R.DIO_DIAG0.OPEN_WIRE_NOW : Fld := ⟨.dio, 0x48, 16, 16⟩
def R.DIO_DIAG0.OVERLOAD_NOW : Fld := ⟨.dio, 0x48, 0, 16⟩
def R.DIO_DIAG1.reg : Reg := ⟨.dio, 0x4c⟩
def R.DIO_DIAG1.BANK_LOW_NOW : Fld := ⟨.dio, 0x4c, 16, 4⟩
def R.DIO_DIAG1.OVER_TEMP_NOW : Fld := ⟨.dio, 0x4c, 0, 16⟩
def R.DIO_STATUS.reg : Reg := ⟨.dio, 0x50⟩
def R.DIO_STATUS.STANDBY : Fld := ⟨.dio, 0x50, 31, 1⟩
def R.DIO_EVT.reg : Reg := ⟨.dio, 0x54⟩
def R.DIO_EVT.BANK_LOW : Fld := ⟨.dio, 0x54, 3, 1⟩
def R.DIO_EVT.OPEN_WIRE : Fld := ⟨.dio, 0x54, 2, 1⟩
def R.DIO_EVT.OVER_TEMP : Fld := ⟨.dio, 0x54, 1, 1⟩
def R.DIO_EVT.OVERLOAD : Fld := ⟨.dio, 0x54, 0, 1⟩
def R.DIO_EVT_CNT0.reg : Reg := ⟨.dio, 0x58⟩
def R.DIO_EVT_CNT0.OVER_TEMP_CNT : Fld := ⟨.dio, 0x58, 16, 16⟩
def R.DIO_EVT_CNT0.OVERLOAD_CNT : Fld := ⟨.dio, 0x58, 0, 16⟩
def R.DIO_EVT_CNT1.reg : Reg := ⟨.dio, 0x5c⟩
def R.DIO_EVT_CNT1.BANK_LOW_CNT : Fld := ⟨.dio, 0x5c, 16, 16⟩
def R.DIO_EVT_CNT1.OPEN_WIRE_CNT : Fld := ⟨.dio, 0x5c, 0, 16⟩
def R.IND_STR_CFG.reg (s : Nat) : Reg := ⟨.ind, 0x0 + 0x40 * s⟩
def R.IND_STR_CFG.EN (s : Nat) : Fld := ⟨.ind, 0x0 + 0x40 * s, 31, 1⟩
def R.IND_STR_CFG.AON_EN (s : Nat) : Fld := ⟨.ind, 0x0 + 0x40 * s, 30, 1⟩
def R.IND_STR_CFG.AON_CHAIN (s : Nat) : Fld := ⟨.ind, 0x0 + 0x40 * s, 28, 2⟩
def R.IND_STR_CFG.AON_GROUP (s : Nat) : Fld := ⟨.ind, 0x0 + 0x40 * s, 20, 8⟩
def R.IND_STR_CFG.CURRENT (s : Nat) : Fld := ⟨.ind, 0x0 + 0x40 * s, 0, 10⟩
def R.IND_STR_STATUS.reg (s : Nat) : Reg := ⟨.ind, 0x4 + 0x40 * s⟩
def R.IND_STR_STATUS.HEADROOM_NOW (s : Nat) : Fld := ⟨.ind, 0x4 + 0x40 * s, 31, 1⟩
def R.IND_STR_STATUS.UNDER_NOW (s : Nat) : Fld := ⟨.ind, 0x4 + 0x40 * s, 30, 1⟩
def R.IND_STR_STATUS.OPEN_NOW (s : Nat) : Fld := ⟨.ind, 0x4 + 0x40 * s, 29, 1⟩
def R.IND_STR_STATUS.SHORT_NOW (s : Nat) : Fld := ⟨.ind, 0x4 + 0x40 * s, 28, 1⟩
def R.IND_STR_STATUS.AON_HELD (s : Nat) : Fld := ⟨.ind, 0x4 + 0x40 * s, 25, 1⟩
def R.IND_STR_STATUS.CODE (s : Nat) : Fld := ⟨.ind, 0x4 + 0x40 * s, 10, 10⟩
def R.IND_STR_MEAS.reg (s : Nat) : Reg := ⟨.ind, 0x8 + 0x40 * s⟩
def R.IND_STR_MEAS.VOUT (s : Nat) : Fld := ⟨.ind, 0x8 + 0x40 * s, 16, 16⟩
def R.IND_STR_MEAS.IOUT (s : Nat) : Fld := ⟨.ind, 0x8 + 0x40 * s, 0, 16⟩
def R.IND_STR_EVT.reg (s : Nat) : Reg := ⟨.ind, 0xc + 0x40 * s⟩
def R.IND_STR_EVT.SHORT (s : Nat) : Fld := ⟨.ind, 0xc + 0x40 * s, 3, 1⟩
def R.IND_STR_EVT.OPEN (s : Nat) : Fld := ⟨.ind, 0xc + 0x40 * s, 2, 1⟩
def R.IND_STR_EVT.UNDER_CURRENT (s : Nat) : Fld := ⟨.ind, 0xc + 0x40 * s, 1, 1⟩
def R.IND_STR_EVT.HEADROOM (s : Nat) : Fld := ⟨.ind, 0xc + 0x40 * s, 0, 1⟩
def R.IND_STR_EVT_CNT0.reg (s : Nat) : Reg := ⟨.ind, 0x10 + 0x40 * s⟩
def R.IND_STR_EVT_CNT0.UNDER_CURRENT_CNT (s : Nat) : Fld := ⟨.ind, 0x10 + 0x40 * s, 16, 16⟩
def R.IND_STR_EVT_CNT0.HEADROOM_CNT (s : Nat) : Fld := ⟨.ind, 0x10 + 0x40 * s, 0, 16⟩
def R.IND_STR_EVT_CNT1.reg (s : Nat) : Reg := ⟨.ind, 0x14 + 0x40 * s⟩
def R.IND_STR_EVT_CNT1.SHORT_CNT (s : Nat) : Fld := ⟨.ind, 0x14 + 0x40 * s, 16, 16⟩
def R.IND_STR_EVT_CNT1.OPEN_CNT (s : Nat) : Fld := ⟨.ind, 0x14 + 0x40 * s, 0, 16⟩
def R.IND_CH_CFG0.reg (n : Nat) : Reg := ⟨.ind, 0x1000 + 0x100 * n⟩
def R.IND_CH_CFG0.EN (n : Nat) : Fld := ⟨.ind, 0x1000 + 0x100 * n, 31, 1⟩
def R.IND_CH_CFG0.LEN (n : Nat) : Fld := ⟨.ind, 0x1000 + 0x100 * n, 16, 11⟩
def R.IND_CH_CFG0.DIV (n : Nat) : Fld := ⟨.ind, 0x1000 + 0x100 * n, 8, 8⟩
def R.IND_CH_CFG0.RX_DLY (n : Nat) : Fld := ⟨.ind, 0x1000 + 0x100 * n, 0, 8⟩
def R.IND_CH_CFG1.reg (n : Nat) : Reg := ⟨.ind, 0x1004 + 0x100 * n⟩
def R.IND_CH_CFG1.REFRESH (n : Nat) : Fld := ⟨.ind, 0x1004 + 0x100 * n, 0, 16⟩
def R.IND_CH_STATUS.reg (n : Nat) : Reg := ⟨.ind, 0x1008 + 0x100 * n⟩
def R.IND_CH_STATUS.RUN (n : Nat) : Fld := ⟨.ind, 0x1008 + 0x100 * n, 31, 1⟩
def R.IND_CH_STATUS.CHAIN_ERR_NOW (n : Nat) : Fld := ⟨.ind, 0x1008 + 0x100 * n, 30, 1⟩
def R.IND_CH_STATUS.FRAME (n : Nat) : Fld := ⟨.ind, 0x1008 + 0x100 * n, 0, 19⟩
def R.IND_CH_EVT.reg (n : Nat) : Reg := ⟨.ind, 0x100c + 0x100 * n⟩
def R.IND_CH_EVT.FB_LIMIT (n : Nat) : Fld := ⟨.ind, 0x100c + 0x100 * n, 3, 1⟩
def R.IND_CH_EVT.AON_BLANK (n : Nat) : Fld := ⟨.ind, 0x100c + 0x100 * n, 2, 1⟩
def R.IND_CH_EVT.LED_FAIL (n : Nat) : Fld := ⟨.ind, 0x100c + 0x100 * n, 1, 1⟩
def R.IND_CH_EVT.CHAIN_ERR (n : Nat) : Fld := ⟨.ind, 0x100c + 0x100 * n, 0, 1⟩
def R.IND_CH_EVT_CNT0.reg (n : Nat) : Reg := ⟨.ind, 0x1010 + 0x100 * n⟩
def R.IND_CH_EVT_CNT0.LED_FAIL_CNT (n : Nat) : Fld := ⟨.ind, 0x1010 + 0x100 * n, 16, 16⟩
def R.IND_CH_EVT_CNT0.CHAIN_ERR_CNT (n : Nat) : Fld := ⟨.ind, 0x1010 + 0x100 * n, 0, 16⟩
def R.IND_CH_EVT_CNT1.reg (n : Nat) : Reg := ⟨.ind, 0x1014 + 0x100 * n⟩
def R.IND_CH_EVT_CNT1.FB_LIMIT_CNT (n : Nat) : Fld := ⟨.ind, 0x1014 + 0x100 * n, 16, 16⟩
def R.IND_CH_EVT_CNT1.AON_BLANK_CNT (n : Nat) : Fld := ⟨.ind, 0x1014 + 0x100 * n, 0, 16⟩
def R.QU_FEED_CMD.reg (n : Nat) : Reg := ⟨.ind, 0x1040 + 0x100 * n⟩
def R.QU_FEED_CMD.CMD (n : Nat) : Fld := ⟨.ind, 0x1040 + 0x100 * n, 0, 4⟩
def R.QU_FEED_STATUS.reg (n : Nat) : Reg := ⟨.ind, 0x1044 + 0x100 * n⟩
def R.QU_FEED_STATUS.ABOVE (n : Nat) : Fld := ⟨.ind, 0x1044 + 0x100 * n, 31, 1⟩
def R.QU_FEED_STATUS.FULL (n : Nat) : Fld := ⟨.ind, 0x1044 + 0x100 * n, 30, 1⟩
def R.QU_FEED_STATUS.EMPTY (n : Nat) : Fld := ⟨.ind, 0x1044 + 0x100 * n, 29, 1⟩
def R.QU_FEED_STATUS.IN_ITEM (n : Nat) : Fld := ⟨.ind, 0x1044 + 0x100 * n, 28, 1⟩
def R.QU_FEED_STATUS.WM_BAD (n : Nat) : Fld := ⟨.ind, 0x1044 + 0x100 * n, 27, 1⟩
def R.QU_FEED_STATUS.LEVEL (n : Nat) : Fld := ⟨.ind, 0x1044 + 0x100 * n, 0, 17⟩
def R.QU_FEED_WM_HIGH.reg (n : Nat) : Reg := ⟨.ind, 0x1048 + 0x100 * n⟩
def R.QU_FEED_WM_HIGH.HIGH (n : Nat) : Fld := ⟨.ind, 0x1048 + 0x100 * n, 0, 17⟩
def R.QU_FEED_WM_LOW.reg (n : Nat) : Reg := ⟨.ind, 0x104c + 0x100 * n⟩
def R.QU_FEED_WM_LOW.LOW (n : Nat) : Fld := ⟨.ind, 0x104c + 0x100 * n, 0, 17⟩
def R.QU_FEED_EVT.reg (n : Nat) : Reg := ⟨.ind, 0x1050 + 0x100 * n⟩
def R.QU_FEED_EVT.OVERFLOW (n : Nat) : Fld := ⟨.ind, 0x1050 + 0x100 * n, 3, 1⟩
def R.QU_FEED_EVT.DROPPED (n : Nat) : Fld := ⟨.ind, 0x1050 + 0x100 * n, 2, 1⟩
def R.QU_FEED_EVT.FELL (n : Nat) : Fld := ⟨.ind, 0x1050 + 0x100 * n, 1, 1⟩
def R.QU_FEED_EVT.ROSE (n : Nat) : Fld := ⟨.ind, 0x1050 + 0x100 * n, 0, 1⟩
def R.QU_FEED_EVT_CNT0.reg (n : Nat) : Reg := ⟨.ind, 0x1054 + 0x100 * n⟩
def R.QU_FEED_EVT_CNT0.FELL_CNT (n : Nat) : Fld := ⟨.ind, 0x1054 + 0x100 * n, 16, 16⟩
def R.QU_FEED_EVT_CNT0.ROSE_CNT (n : Nat) : Fld := ⟨.ind, 0x1054 + 0x100 * n, 0, 16⟩
def R.QU_FEED_EVT_CNT1.reg (n : Nat) : Reg := ⟨.ind, 0x1058 + 0x100 * n⟩
def R.QU_FEED_EVT_CNT1.OVERFLOW_CNT (n : Nat) : Fld := ⟨.ind, 0x1058 + 0x100 * n, 16, 16⟩
def R.QU_FEED_EVT_CNT1.DROPPED_CNT (n : Nat) : Fld := ⟨.ind, 0x1058 + 0x100 * n, 0, 16⟩
def R.QU_FEED_DATA.reg (n : Nat) : Reg := ⟨.ind, 0x105c + 0x100 * n⟩
def R.QU_FEED_DATA.DATA (n : Nat) : Fld := ⟨.ind, 0x105c + 0x100 * n, 0, 32⟩
def R.QU_FEED_CAP.reg (n : Nat) : Reg := ⟨.ind, 0x1060 + 0x100 * n⟩
def R.QU_FEED_CAP.CAP (n : Nat) : Fld := ⟨.ind, 0x1060 + 0x100 * n, 0, 17⟩
def R.QU_FEED_ITEM.reg (n : Nat) : Reg := ⟨.ind, 0x1064 + 0x100 * n⟩
def R.QU_FEED_ITEM.ITEM (n : Nat) : Fld := ⟨.ind, 0x1064 + 0x100 * n, 0, 8⟩
def R.QU_FEED_PEAK.reg (n : Nat) : Reg := ⟨.ind, 0x1068 + 0x100 * n⟩
def R.QU_FEED_PEAK.PEAK (n : Nat) : Fld := ⟨.ind, 0x1068 + 0x100 * n, 0, 17⟩
def R.IND_FB_CFG.reg (g : Nat) : Reg := ⟨.ind, 0x2000 + 0x10 * g⟩
def R.IND_FB_CFG.EN (g : Nat) : Fld := ⟨.ind, 0x2000 + 0x10 * g, 31, 1⟩
def R.IND_FB_CFG.CHAIN (g : Nat) : Fld := ⟨.ind, 0x2000 + 0x10 * g, 29, 2⟩
def R.IND_FB_CFG.T_G (g : Nat) : Fld := ⟨.ind, 0x2000 + 0x10 * g, 10, 10⟩
def R.IND_FB_CFG.T_R (g : Nat) : Fld := ⟨.ind, 0x2000 + 0x10 * g, 0, 10⟩
def R.IND_FB_SENS.reg (g : Nat) : Reg := ⟨.ind, 0x2004 + 0x10 * g⟩
def R.IND_FB_SENS.SENSOR (g : Nat) : Fld := ⟨.ind, 0x2004 + 0x10 * g, 0, 10⟩
def R.IND_FB_TRIM.reg (g : Nat) : Reg := ⟨.ind, 0x2008 + 0x10 * g⟩
def R.IND_FB_TRIM.TB (g : Nat) : Fld := ⟨.ind, 0x2008 + 0x10 * g, 18, 9⟩
def R.IND_FB_TRIM.TG (g : Nat) : Fld := ⟨.ind, 0x2008 + 0x10 * g, 9, 9⟩
def R.IND_FB_TRIM.TR (g : Nat) : Fld := ⟨.ind, 0x2008 + 0x10 * g, 0, 9⟩
def R.IND_FB_READ0.reg (g : Nat) : Reg := ⟨.ind, 0x200c + 0x10 * g⟩
def R.IND_FB_READ0.G (g : Nat) : Fld := ⟨.ind, 0x200c + 0x10 * g, 16, 16⟩
def R.IND_FB_READ0.R (g : Nat) : Fld := ⟨.ind, 0x200c + 0x10 * g, 0, 16⟩
def R.IND_FB_READ1.reg (g : Nat) : Reg := ⟨.ind, 0x2400 + 0x10 * g⟩
def R.IND_FB_READ1.B (g : Nat) : Fld := ⟨.ind, 0x2400 + 0x10 * g, 0, 16⟩
def R.IND_CH_ECFG.reg (n k : Nat) : Reg := ⟨.ind, 0x10000 + 0x1000 * n + 0x4 * k⟩
def R.IND_CH_ECFG.SENSOR (n k : Nat) : Fld := ⟨.ind, 0x10000 + 0x1000 * n + 0x4 * k, 31, 1⟩
def R.IND_CH_ECFG.FB_EN (n k : Nat) : Fld := ⟨.ind, 0x10000 + 0x1000 * n + 0x4 * k, 22, 1⟩
def R.IND_CH_ECFG.FB_GROUP (n k : Nat) : Fld := ⟨.ind, 0x10000 + 0x1000 * n + 0x4 * k, 16, 6⟩
def R.IND_CH_ECFG.AON_EN (n k : Nat) : Fld := ⟨.ind, 0x10000 + 0x1000 * n + 0x4 * k, 8, 1⟩
def R.IND_CH_ECFG.AON_GROUP (n k : Nat) : Fld := ⟨.ind, 0x10000 + 0x1000 * n + 0x4 * k, 0, 8⟩
def R.IND_CH_ESTAT.reg (n k : Nat) : Reg := ⟨.ind, 0x20000 + 0x1000 * n + 0x4 * k⟩
def R.IND_CH_ESTAT.STATUS (n k : Nat) : Fld := ⟨.ind, 0x20000 + 0x1000 * n + 0x4 * k, 16, 16⟩
def R.IND_CH_ESTAT.CODE (n k : Nat) : Fld := ⟨.ind, 0x20000 + 0x1000 * n + 0x4 * k, 0, 10⟩
def R.IND_CH_EWORD.reg (n k : Nat) : Reg := ⟨.ind, 0x30000 + 0x1000 * n + 0x4 * k⟩
def R.IND_CH_EWORD.WORD (n k : Nat) : Fld := ⟨.ind, 0x30000 + 0x1000 * n + 0x4 * k, 0, 32⟩
def R.IND_CH_AON_HELD.reg (n w : Nat) : Reg := ⟨.ind, 0x40000 + 0x20 * n + 0x4 * w⟩
def R.IND_CH_AON_HELD.HELD (n w : Nat) : Fld := ⟨.ind, 0x40000 + 0x20 * n + 0x4 * w, 0, 32⟩
def R.RAD_CFG.reg (j : Nat) : Reg := ⟨.rad, 0x0 + 0x100000 * j⟩
def R.RAD_CFG.EN (j : Nat) : Fld := ⟨.rad, 0x0 + 0x100000 * j, 31, 1⟩
def R.RAD_CFG.RATE (j : Nat) : Fld := ⟨.rad, 0x0 + 0x100000 * j, 24, 4⟩
def R.RAD_CFG.REGION (j : Nat) : Fld := ⟨.rad, 0x0 + 0x100000 * j, 16, 8⟩
def R.RAD_CFG.CHAN (j : Nat) : Fld := ⟨.rad, 0x0 + 0x100000 * j, 0, 5⟩
def R.RAD_PWR.reg (j : Nat) : Reg := ⟨.rad, 0x4 + 0x100000 * j⟩
def R.RAD_PWR.ANT_GAIN (j : Nat) : Fld := ⟨.rad, 0x4 + 0x100000 * j, 16, 16⟩
def R.RAD_PWR.POWER (j : Nat) : Fld := ⟨.rad, 0x4 + 0x100000 * j, 0, 16⟩
def R.RAD_LBT.reg (j : Nat) : Reg := ⟨.rad, 0x8 + 0x100000 * j⟩
def R.RAD_LBT.THR (j : Nat) : Fld := ⟨.rad, 0x8 + 0x100000 * j, 0, 16⟩
def R.RAD_MAC.reg (j : Nat) : Reg := ⟨.rad, 0xc + 0x100000 * j⟩
def R.RAD_MAC.REP_GAP (j : Nat) : Fld := ⟨.rad, 0xc + 0x100000 * j, 28, 4⟩
def R.RAD_MAC.BO_MAX (j : Nat) : Fld := ⟨.rad, 0xc + 0x100000 * j, 24, 4⟩
def R.RAD_MAC.CAPTURE_DB (j : Nat) : Fld := ⟨.rad, 0xc + 0x100000 * j, 20, 4⟩
def R.RAD_MAC.URG_OFS (j : Nat) : Fld := ⟨.rad, 0xc + 0x100000 * j, 0, 10⟩
def R.RAD_KEY.reg (j : Nat) : Reg := ⟨.rad, 0x10 + 0x100000 * j⟩
def R.RAD_KEY.SLOT (j : Nat) : Fld := ⟨.rad, 0x10 + 0x100000 * j, 0, 7⟩
def R.RAD_HOP.reg (j : Nat) : Reg := ⟨.rad, 0x14 + 0x100000 * j⟩
def R.RAD_HOP.SEED (j : Nat) : Fld := ⟨.rad, 0x14 + 0x100000 * j, 0, 6⟩
def R.RAD_STATUS.reg (j : Nat) : Reg := ⟨.rad, 0x20 + 0x100000 * j⟩
def R.RAD_STATUS.STATE (j : Nat) : Fld := ⟨.rad, 0x20 + 0x100000 * j, 30, 2⟩
def R.RAD_STATUS.STANDBY (j : Nat) : Fld := ⟨.rad, 0x20 + 0x100000 * j, 29, 1⟩
def R.RAD_STATUS.DUTY_HOLD (j : Nat) : Fld := ⟨.rad, 0x20 + 0x100000 * j, 28, 1⟩
def R.RAD_STATUS.CUR_CHAN (j : Nat) : Fld := ⟨.rad, 0x20 + 0x100000 * j, 0, 6⟩
def R.RAD_DUTY.reg (j : Nat) : Reg := ⟨.rad, 0x24 + 0x100000 * j⟩
def R.RAD_DUTY.USED (j : Nat) : Fld := ⟨.rad, 0x24 + 0x100000 * j, 16, 16⟩
def R.RAD_DUTY.LIMIT (j : Nat) : Fld := ⟨.rad, 0x24 + 0x100000 * j, 0, 16⟩
def R.RAD_RSSI.reg (j : Nat) : Reg := ⟨.rad, 0x28 + 0x100000 * j⟩
def R.RAD_RSSI.LAST (j : Nat) : Fld := ⟨.rad, 0x28 + 0x100000 * j, 16, 16⟩
def R.RAD_RSSI.NOW (j : Nat) : Fld := ⟨.rad, 0x28 + 0x100000 * j, 0, 16⟩
def R.RAD_QUEUE.reg (j : Nat) : Reg := ⟨.rad, 0x2c + 0x100000 * j⟩
def R.RAD_QUEUE.PENDING (j : Nat) : Fld := ⟨.rad, 0x2c + 0x100000 * j, 0, 14⟩
def R.RAD_EVT.reg (j : Nat) : Reg := ⟨.rad, 0x30 + 0x100000 * j⟩
def R.RAD_EVT.UNKNOWN_SRC (j : Nat) : Fld := ⟨.rad, 0x30 + 0x100000 * j, 7, 1⟩
def R.RAD_EVT.QUEUE_FULL (j : Nat) : Fld := ⟨.rad, 0x30 + 0x100000 * j, 6, 1⟩
def R.RAD_EVT.DUTY_DROP (j : Nat) : Fld := ⟨.rad, 0x30 + 0x100000 * j, 5, 1⟩
def R.RAD_EVT.DUTY_WAIT (j : Nat) : Fld := ⟨.rad, 0x30 + 0x100000 * j, 4, 1⟩
def R.RAD_EVT.LBT_FAIL (j : Nat) : Fld := ⟨.rad, 0x30 + 0x100000 * j, 3, 1⟩
def R.RAD_EVT.MIC_FAIL (j : Nat) : Fld := ⟨.rad, 0x30 + 0x100000 * j, 2, 1⟩
def R.RAD_EVT.REPLAY (j : Nat) : Fld := ⟨.rad, 0x30 + 0x100000 * j, 1, 1⟩
def R.RAD_EVT.CAPTURE_LOST (j : Nat) : Fld := ⟨.rad, 0x30 + 0x100000 * j, 0, 1⟩
def R.RAD_EVT_CNT0.reg (j : Nat) : Reg := ⟨.rad, 0x34 + 0x100000 * j⟩
def R.RAD_EVT_CNT0.REPLAY_CNT (j : Nat) : Fld := ⟨.rad, 0x34 + 0x100000 * j, 16, 16⟩
def R.RAD_EVT_CNT0.CAPTURE_LOST_CNT (j : Nat) : Fld := ⟨.rad, 0x34 + 0x100000 * j, 0, 16⟩
def R.RAD_EVT_CNT1.reg (j : Nat) : Reg := ⟨.rad, 0x38 + 0x100000 * j⟩
def R.RAD_EVT_CNT1.LBT_FAIL_CNT (j : Nat) : Fld := ⟨.rad, 0x38 + 0x100000 * j, 16, 16⟩
def R.RAD_EVT_CNT1.MIC_FAIL_CNT (j : Nat) : Fld := ⟨.rad, 0x38 + 0x100000 * j, 0, 16⟩
def R.RAD_EVT_CNT2.reg (j : Nat) : Reg := ⟨.rad, 0x3c + 0x100000 * j⟩
def R.RAD_EVT_CNT2.DUTY_DROP_CNT (j : Nat) : Fld := ⟨.rad, 0x3c + 0x100000 * j, 16, 16⟩
def R.RAD_EVT_CNT2.DUTY_WAIT_CNT (j : Nat) : Fld := ⟨.rad, 0x3c + 0x100000 * j, 0, 16⟩
def R.RAD_EVT_CNT3.reg (j : Nat) : Reg := ⟨.rad, 0x40 + 0x100000 * j⟩
def R.RAD_EVT_CNT3.UNKNOWN_SRC_CNT (j : Nat) : Fld := ⟨.rad, 0x40 + 0x100000 * j, 16, 16⟩
def R.RAD_EVT_CNT3.QUEUE_FULL_CNT (j : Nat) : Fld := ⟨.rad, 0x40 + 0x100000 * j, 0, 16⟩
def R.RAD_CNT_RX_FRAMES.reg (j : Nat) : Reg := ⟨.rad, 0x50 + 0x100000 * j⟩
def R.RAD_CNT_RX_FRAMES.COUNT (j : Nat) : Fld := ⟨.rad, 0x50 + 0x100000 * j, 0, 32⟩
def R.RAD_CNT_RX_BAD.reg (j : Nat) : Reg := ⟨.rad, 0x54 + 0x100000 * j⟩
def R.RAD_CNT_RX_BAD.COUNT (j : Nat) : Fld := ⟨.rad, 0x54 + 0x100000 * j, 0, 32⟩
def R.RAD_CNT_RX_DUP.reg (j : Nat) : Reg := ⟨.rad, 0x58 + 0x100000 * j⟩
def R.RAD_CNT_RX_DUP.COUNT (j : Nat) : Fld := ⟨.rad, 0x58 + 0x100000 * j, 0, 32⟩
def R.RAD_CNT_TX_COPIES.reg (j : Nat) : Reg := ⟨.rad, 0x5c + 0x100000 * j⟩
def R.RAD_CNT_TX_COPIES.COUNT (j : Nat) : Fld := ⟨.rad, 0x5c + 0x100000 * j, 0, 32⟩
def R.CAN_CFG.reg (c : Nat) : Reg := ⟨.can, 0x0 + 0x10000 * c⟩
def R.CAN_CFG.EN (c : Nat) : Fld := ⟨.can, 0x0 + 0x10000 * c, 31, 1⟩
def R.CAN_CFG.MODE (c : Nat) : Fld := ⟨.can, 0x0 + 0x10000 * c, 29, 2⟩
def R.CAN_CFG.FIELD_EN (c : Nat) : Fld := ⟨.can, 0x0 + 0x10000 * c, 28, 1⟩
def R.CAN_CFG.AUTO_REC (c : Nat) : Fld := ⟨.can, 0x0 + 0x10000 * c, 27, 1⟩
def R.CAN_CFG.FIELD_MARK (c : Nat) : Fld := ⟨.can, 0x0 + 0x10000 * c, 0, 13⟩
def R.CAN_NBT.reg (c : Nat) : Reg := ⟨.can, 0x4 + 0x10000 * c⟩
def R.CAN_NBT.NSJW (c : Nat) : Fld := ⟨.can, 0x4 + 0x10000 * c, 25, 7⟩
def R.CAN_NBT.NTSEG2 (c : Nat) : Fld := ⟨.can, 0x4 + 0x10000 * c, 18, 7⟩
def R.CAN_NBT.NTSEG1 (c : Nat) : Fld := ⟨.can, 0x4 + 0x10000 * c, 10, 8⟩
def R.CAN_NBT.NBRP (c : Nat) : Fld := ⟨.can, 0x4 + 0x10000 * c, 0, 5⟩
def R.CAN_DBT.reg (c : Nat) : Reg := ⟨.can, 0x8 + 0x10000 * c⟩
def R.CAN_DBT.DSJW (c : Nat) : Fld := ⟨.can, 0x8 + 0x10000 * c, 28, 4⟩
def R.CAN_DBT.DTSEG2 (c : Nat) : Fld := ⟨.can, 0x8 + 0x10000 * c, 24, 4⟩
def R.CAN_DBT.DTSEG1 (c : Nat) : Fld := ⟨.can, 0x8 + 0x10000 * c, 19, 5⟩
def R.CAN_DBT.TDC_EN (c : Nat) : Fld := ⟨.can, 0x8 + 0x10000 * c, 18, 1⟩
def R.CAN_DBT.TDCO (c : Nat) : Fld := ⟨.can, 0x8 + 0x10000 * c, 11, 7⟩
def R.CAN_DBT.DBRP (c : Nat) : Fld := ⟨.can, 0x8 + 0x10000 * c, 0, 5⟩
def R.CAN_RETRY.reg (c : Nat) : Reg := ⟨.can, 0xc + 0x10000 * c⟩
def R.CAN_RETRY.LIMIT (c : Nat) : Fld := ⟨.can, 0xc + 0x10000 * c, 0, 5⟩
def R.CAN_STATUS.reg (c : Nat) : Reg := ⟨.can, 0x10 + 0x10000 * c⟩
def R.CAN_STATUS.STATE (c : Nat) : Fld := ⟨.can, 0x10 + 0x10000 * c, 30, 2⟩
def R.CAN_STATUS.RECOVERING (c : Nat) : Fld := ⟨.can, 0x10 + 0x10000 * c, 29, 1⟩
def R.CAN_STATUS.STANDBY (c : Nat) : Fld := ⟨.can, 0x10 + 0x10000 * c, 28, 1⟩
def R.CAN_STATUS.TEC (c : Nat) : Fld := ⟨.can, 0x10 + 0x10000 * c, 16, 8⟩
def R.CAN_STATUS.REC (c : Nat) : Fld := ⟨.can, 0x10 + 0x10000 * c, 8, 8⟩
def R.CAN_STATUS.LEC (c : Nat) : Fld := ⟨.can, 0x10 + 0x10000 * c, 0, 3⟩
def R.CAN_CMD.reg (c : Nat) : Reg := ⟨.can, 0x14 + 0x10000 * c⟩
def R.CAN_CMD.CMD (c : Nat) : Fld := ⟨.can, 0x14 + 0x10000 * c, 0, 4⟩
def R.CAN_EVT.reg (c : Nat) : Reg := ⟨.can, 0x18 + 0x10000 * c⟩
def R.CAN_EVT.RETRY_EXHAUSTED (c : Nat) : Fld := ⟨.can, 0x18 + 0x10000 * c, 4, 1⟩
def R.CAN_EVT.BUS_OFF (c : Nat) : Fld := ⟨.can, 0x18 + 0x10000 * c, 3, 1⟩
def R.CAN_EVT.PASSIVE (c : Nat) : Fld := ⟨.can, 0x18 + 0x10000 * c, 2, 1⟩
def R.CAN_EVT.MB_OVERRUN (c : Nat) : Fld := ⟨.can, 0x18 + 0x10000 * c, 1, 1⟩
def R.CAN_EVT.ERR_FRAME (c : Nat) : Fld := ⟨.can, 0x18 + 0x10000 * c, 0, 1⟩
def R.CAN_EVT_CNT0.reg (c : Nat) : Reg := ⟨.can, 0x1c + 0x10000 * c⟩
def R.CAN_EVT_CNT0.BUS_OFF_CNT (c : Nat) : Fld := ⟨.can, 0x1c + 0x10000 * c, 16, 16⟩
def R.CAN_EVT_CNT0.RETRY_EXHAUSTED_CNT (c : Nat) : Fld := ⟨.can, 0x1c + 0x10000 * c, 0, 16⟩
def R.CAN_EVT_CNT1.reg (c : Nat) : Reg := ⟨.can, 0x20 + 0x10000 * c⟩
def R.CAN_EVT_CNT1.MB_OVERRUN_CNT (c : Nat) : Fld := ⟨.can, 0x20 + 0x10000 * c, 16, 16⟩
def R.CAN_EVT_CNT1.PASSIVE_CNT (c : Nat) : Fld := ⟨.can, 0x20 + 0x10000 * c, 0, 16⟩
def R.CAN_EVT_CNT2.reg (c : Nat) : Reg := ⟨.can, 0x24 + 0x10000 * c⟩
def R.CAN_EVT_CNT2.ERR_FRAME_CNT (c : Nat) : Fld := ⟨.can, 0x24 + 0x10000 * c, 0, 16⟩
def R.CAN_CNT_STUFF.reg (c : Nat) : Reg := ⟨.can, 0x40 + 0x10000 * c⟩
def R.CAN_CNT_STUFF.COUNT (c : Nat) : Fld := ⟨.can, 0x40 + 0x10000 * c, 0, 32⟩
def R.CAN_CNT_FORM.reg (c : Nat) : Reg := ⟨.can, 0x44 + 0x10000 * c⟩
def R.CAN_CNT_FORM.COUNT (c : Nat) : Fld := ⟨.can, 0x44 + 0x10000 * c, 0, 32⟩
def R.CAN_CNT_ACK.reg (c : Nat) : Reg := ⟨.can, 0x48 + 0x10000 * c⟩
def R.CAN_CNT_ACK.COUNT (c : Nat) : Fld := ⟨.can, 0x48 + 0x10000 * c, 0, 32⟩
def R.CAN_CNT_BIT.reg (c : Nat) : Reg := ⟨.can, 0x4c + 0x10000 * c⟩
def R.CAN_CNT_BIT.COUNT (c : Nat) : Fld := ⟨.can, 0x4c + 0x10000 * c, 0, 32⟩
def R.CAN_CNT_CRC.reg (c : Nat) : Reg := ⟨.can, 0x50 + 0x10000 * c⟩
def R.CAN_CNT_CRC.COUNT (c : Nat) : Fld := ⟨.can, 0x50 + 0x10000 * c, 0, 32⟩
def R.CAN_CNT_PXE.reg (c : Nat) : Reg := ⟨.can, 0x54 + 0x10000 * c⟩
def R.CAN_CNT_PXE.COUNT (c : Nat) : Fld := ⟨.can, 0x54 + 0x10000 * c, 0, 32⟩
def R.CAN_CNT_RX.reg (c : Nat) : Reg := ⟨.can, 0x58 + 0x10000 * c⟩
def R.CAN_CNT_RX.COUNT (c : Nat) : Fld := ⟨.can, 0x58 + 0x10000 * c, 0, 32⟩
def R.CAN_CNT_TX.reg (c : Nat) : Reg := ⟨.can, 0x5c + 0x10000 * c⟩
def R.CAN_CNT_TX.COUNT (c : Nat) : Fld := ⟨.can, 0x5c + 0x10000 * c, 0, 32⟩
def R.CAN_CNT_BAD_FIELD.reg (c : Nat) : Reg := ⟨.can, 0x60 + 0x10000 * c⟩
def R.CAN_CNT_BAD_FIELD.COUNT (c : Nat) : Fld := ⟨.can, 0x60 + 0x10000 * c, 0, 32⟩
def R.CAN_CNT_TX_EXPIRED.reg (c : Nat) : Reg := ⟨.can, 0x64 + 0x10000 * c⟩
def R.CAN_CNT_TX_EXPIRED.COUNT (c : Nat) : Fld := ⟨.can, 0x64 + 0x10000 * c, 0, 32⟩
def R.CAN_TS_NOW.reg (c : Nat) : Reg := ⟨.can, 0x70 + 0x10000 * c⟩
def R.CAN_TS_NOW.NOW (c : Nat) : Fld := ⟨.can, 0x70 + 0x10000 * c, 0, 32⟩
def R.CAN_TS_SNAP_CNT.reg (c : Nat) : Reg := ⟨.can, 0x74 + 0x10000 * c⟩
def R.CAN_TS_SNAP_CNT.CNT (c : Nat) : Fld := ⟨.can, 0x74 + 0x10000 * c, 0, 32⟩
def R.CAN_TS_SNAP_TIME.reg (c w : Nat) : Reg := ⟨.can, 0x78 + 0x10000 * c + 0x4 * w⟩
def R.CAN_TS_SNAP_TIME.TIME (c w : Nat) : Fld := ⟨.can, 0x78 + 0x10000 * c + 0x4 * w, 0, 32⟩
def R.CAN_TS_SNAP_STEP.reg (c : Nat) : Reg := ⟨.can, 0x84 + 0x10000 * c⟩
def R.CAN_TS_SNAP_STEP.STEP (c : Nat) : Fld := ⟨.can, 0x84 + 0x10000 * c, 0, 8⟩
def R.CAN_MB_IRQ.reg (c : Nat) : Reg := ⟨.can, 0x88 + 0x10000 * c⟩
def R.CAN_MB_IRQ.IRQ (c : Nat) : Fld := ⟨.can, 0x88 + 0x10000 * c, 0, 16⟩
def R.QU_BULK_CMD.reg (c : Nat) : Reg := ⟨.can, 0x100 + 0x10000 * c⟩
def R.QU_BULK_CMD.CMD (c : Nat) : Fld := ⟨.can, 0x100 + 0x10000 * c, 0, 4⟩
def R.QU_BULK_STATUS.reg (c : Nat) : Reg := ⟨.can, 0x104 + 0x10000 * c⟩
def R.QU_BULK_STATUS.ABOVE (c : Nat) : Fld := ⟨.can, 0x104 + 0x10000 * c, 31, 1⟩
def R.QU_BULK_STATUS.FULL (c : Nat) : Fld := ⟨.can, 0x104 + 0x10000 * c, 30, 1⟩
def R.QU_BULK_STATUS.EMPTY (c : Nat) : Fld := ⟨.can, 0x104 + 0x10000 * c, 29, 1⟩
def R.QU_BULK_STATUS.IN_ITEM (c : Nat) : Fld := ⟨.can, 0x104 + 0x10000 * c, 28, 1⟩
def R.QU_BULK_STATUS.WM_BAD (c : Nat) : Fld := ⟨.can, 0x104 + 0x10000 * c, 27, 1⟩
def R.QU_BULK_STATUS.LEVEL (c : Nat) : Fld := ⟨.can, 0x104 + 0x10000 * c, 0, 17⟩
def R.QU_BULK_WM_HIGH.reg (c : Nat) : Reg := ⟨.can, 0x108 + 0x10000 * c⟩
def R.QU_BULK_WM_HIGH.HIGH (c : Nat) : Fld := ⟨.can, 0x108 + 0x10000 * c, 0, 17⟩
def R.QU_BULK_WM_LOW.reg (c : Nat) : Reg := ⟨.can, 0x10c + 0x10000 * c⟩
def R.QU_BULK_WM_LOW.LOW (c : Nat) : Fld := ⟨.can, 0x10c + 0x10000 * c, 0, 17⟩
def R.QU_BULK_EVT.reg (c : Nat) : Reg := ⟨.can, 0x110 + 0x10000 * c⟩
def R.QU_BULK_EVT.OVERFLOW (c : Nat) : Fld := ⟨.can, 0x110 + 0x10000 * c, 3, 1⟩
def R.QU_BULK_EVT.DROPPED (c : Nat) : Fld := ⟨.can, 0x110 + 0x10000 * c, 2, 1⟩
def R.QU_BULK_EVT.FELL (c : Nat) : Fld := ⟨.can, 0x110 + 0x10000 * c, 1, 1⟩
def R.QU_BULK_EVT.ROSE (c : Nat) : Fld := ⟨.can, 0x110 + 0x10000 * c, 0, 1⟩
def R.QU_BULK_EVT_CNT0.reg (c : Nat) : Reg := ⟨.can, 0x114 + 0x10000 * c⟩
def R.QU_BULK_EVT_CNT0.FELL_CNT (c : Nat) : Fld := ⟨.can, 0x114 + 0x10000 * c, 16, 16⟩
def R.QU_BULK_EVT_CNT0.ROSE_CNT (c : Nat) : Fld := ⟨.can, 0x114 + 0x10000 * c, 0, 16⟩
def R.QU_BULK_EVT_CNT1.reg (c : Nat) : Reg := ⟨.can, 0x118 + 0x10000 * c⟩
def R.QU_BULK_EVT_CNT1.OVERFLOW_CNT (c : Nat) : Fld := ⟨.can, 0x118 + 0x10000 * c, 16, 16⟩
def R.QU_BULK_EVT_CNT1.DROPPED_CNT (c : Nat) : Fld := ⟨.can, 0x118 + 0x10000 * c, 0, 16⟩
def R.QU_BULK_DATA.reg (c : Nat) : Reg := ⟨.can, 0x11c + 0x10000 * c⟩
def R.QU_BULK_DATA.DATA (c : Nat) : Fld := ⟨.can, 0x11c + 0x10000 * c, 0, 32⟩
def R.QU_BULK_CAP.reg (c : Nat) : Reg := ⟨.can, 0x120 + 0x10000 * c⟩
def R.QU_BULK_CAP.CAP (c : Nat) : Fld := ⟨.can, 0x120 + 0x10000 * c, 0, 17⟩
def R.QU_BULK_ITEM.reg (c : Nat) : Reg := ⟨.can, 0x124 + 0x10000 * c⟩
def R.QU_BULK_ITEM.ITEM (c : Nat) : Fld := ⟨.can, 0x124 + 0x10000 * c, 0, 8⟩
def R.QU_BULK_PEAK.reg (c : Nat) : Reg := ⟨.can, 0x128 + 0x10000 * c⟩
def R.QU_BULK_PEAK.PEAK (c : Nat) : Fld := ⟨.can, 0x128 + 0x10000 * c, 0, 17⟩
def R.CAN_BULK_OWED.reg (c : Nat) : Reg := ⟨.can, 0x140 + 0x10000 * c⟩
def R.CAN_BULK_OWED.OWED (c : Nat) : Fld := ⟨.can, 0x140 + 0x10000 * c, 0, 10⟩
def R.CAN_BULK_ACK.reg (c : Nat) : Reg := ⟨.can, 0x144 + 0x10000 * c⟩
def R.CAN_BULK_ACK.ACK (c : Nat) : Fld := ⟨.can, 0x144 + 0x10000 * c, 0, 10⟩
def R.CAN_TX_CTL.reg (c b : Nat) : Reg := ⟨.can, 0x200 + 0x10000 * c + 0x80 * b⟩
def R.CAN_TX_CTL.REQ (c b : Nat) : Fld := ⟨.can, 0x200 + 0x10000 * c + 0x80 * b, 31, 1⟩
def R.CAN_TX_CTL.ABORT (c b : Nat) : Fld := ⟨.can, 0x200 + 0x10000 * c + 0x80 * b, 30, 1⟩
def R.CAN_TX_CTL.STATUS (c b : Nat) : Fld := ⟨.can, 0x200 + 0x10000 * c + 0x80 * b, 28, 2⟩
def R.CAN_TX_CTL.REASON (c b : Nat) : Fld := ⟨.can, 0x200 + 0x10000 * c + 0x80 * b, 26, 2⟩
def R.CAN_TX_CTL.DLC (c b : Nat) : Fld := ⟨.can, 0x200 + 0x10000 * c + 0x80 * b, 22, 4⟩
def R.CAN_TX_CTL.FDF (c b : Nat) : Fld := ⟨.can, 0x200 + 0x10000 * c + 0x80 * b, 15, 1⟩
def R.CAN_TX_CTL.BRS (c b : Nat) : Fld := ⟨.can, 0x200 + 0x10000 * c + 0x80 * b, 14, 1⟩
def R.CAN_TX_CTL.IDE (c b : Nat) : Fld := ⟨.can, 0x200 + 0x10000 * c + 0x80 * b, 13, 1⟩
def R.CAN_TX_CTL.RTR (c b : Nat) : Fld := ⟨.can, 0x200 + 0x10000 * c + 0x80 * b, 12, 1⟩
def R.CAN_TX_ID.reg (c b : Nat) : Reg := ⟨.can, 0x204 + 0x10000 * c + 0x80 * b⟩
def R.CAN_TX_ID.ID (c b : Nat) : Fld := ⟨.can, 0x204 + 0x10000 * c + 0x80 * b, 0, 29⟩
def R.CAN_TX_TSTAMP.reg (c b : Nat) : Reg := ⟨.can, 0x208 + 0x10000 * c + 0x80 * b⟩
def R.CAN_TX_TSTAMP.TSTAMP (c b : Nat) : Fld := ⟨.can, 0x208 + 0x10000 * c + 0x80 * b, 0, 32⟩
def R.CAN_TX_DATA.reg (c b w : Nat) : Reg := ⟨.can, 0x210 + 0x10000 * c + 0x80 * b + 0x4 * w⟩
def R.CAN_TX_DATA.DATA (c b w : Nat) : Fld := ⟨.can, 0x210 + 0x10000 * c + 0x80 * b + 0x4 * w, 0, 32⟩
def R.CAN_MB_FILT.reg (c m : Nat) : Reg := ⟨.can, 0x400 + 0x10000 * c + 0x80 * m⟩
def R.CAN_MB_FILT.EN (c m : Nat) : Fld := ⟨.can, 0x400 + 0x10000 * c + 0x80 * m, 31, 1⟩
def R.CAN_MB_FILT.IE (c m : Nat) : Fld := ⟨.can, 0x400 + 0x10000 * c + 0x80 * m, 30, 1⟩
def R.CAN_MB_FILT.IDE (c m : Nat) : Fld := ⟨.can, 0x400 + 0x10000 * c + 0x80 * m, 29, 1⟩
def R.CAN_MB_FILT.ID (c m : Nat) : Fld := ⟨.can, 0x400 + 0x10000 * c + 0x80 * m, 0, 29⟩
def R.CAN_MB_MASK.reg (c m : Nat) : Reg := ⟨.can, 0x404 + 0x10000 * c + 0x80 * m⟩
def R.CAN_MB_MASK.MASK (c m : Nat) : Fld := ⟨.can, 0x404 + 0x10000 * c + 0x80 * m, 0, 29⟩
def R.CAN_MB_STAT.reg (c m : Nat) : Reg := ⟨.can, 0x408 + 0x10000 * c + 0x80 * m⟩
def R.CAN_MB_STAT.FULL (c m : Nat) : Fld := ⟨.can, 0x408 + 0x10000 * c + 0x80 * m, 31, 1⟩
def R.CAN_MB_STAT.LOCKED (c m : Nat) : Fld := ⟨.can, 0x408 + 0x10000 * c + 0x80 * m, 30, 1⟩
def R.CAN_MB_STAT.SHADOW (c m : Nat) : Fld := ⟨.can, 0x408 + 0x10000 * c + 0x80 * m, 29, 1⟩
def R.CAN_MB_STAT.OVERRUN (c m : Nat) : Fld := ⟨.can, 0x408 + 0x10000 * c + 0x80 * m, 28, 1⟩
def R.CAN_MB_WORD0.reg (c m : Nat) : Reg := ⟨.can, 0x410 + 0x10000 * c + 0x80 * m⟩
def R.CAN_MB_WORD0.FDF (c m : Nat) : Fld := ⟨.can, 0x410 + 0x10000 * c + 0x80 * m, 20, 1⟩
def R.CAN_MB_WORD0.BRS (c m : Nat) : Fld := ⟨.can, 0x410 + 0x10000 * c + 0x80 * m, 19, 1⟩
def R.CAN_MB_WORD0.ESI (c m : Nat) : Fld := ⟨.can, 0x410 + 0x10000 * c + 0x80 * m, 18, 1⟩
def R.CAN_MB_WORD0.IDE (c m : Nat) : Fld := ⟨.can, 0x410 + 0x10000 * c + 0x80 * m, 17, 1⟩
def R.CAN_MB_WORD0.RTR (c m : Nat) : Fld := ⟨.can, 0x410 + 0x10000 * c + 0x80 * m, 16, 1⟩
def R.CAN_MB_WORD0.DLC (c m : Nat) : Fld := ⟨.can, 0x410 + 0x10000 * c + 0x80 * m, 12, 4⟩
def R.CAN_MB_WORD0.TYPE (c m : Nat) : Fld := ⟨.can, 0x410 + 0x10000 * c + 0x80 * m, 0, 8⟩
def R.CAN_MB_ID.reg (c m : Nat) : Reg := ⟨.can, 0x414 + 0x10000 * c + 0x80 * m⟩
def R.CAN_MB_ID.ID (c m : Nat) : Fld := ⟨.can, 0x414 + 0x10000 * c + 0x80 * m, 0, 29⟩
def R.CAN_MB_STAMP.reg (c m : Nat) : Reg := ⟨.can, 0x418 + 0x10000 * c + 0x80 * m⟩
def R.CAN_MB_STAMP.STAMP (c m : Nat) : Fld := ⟨.can, 0x418 + 0x10000 * c + 0x80 * m, 0, 32⟩
def R.CAN_MB_DATA.reg (c m w : Nat) : Reg := ⟨.can, 0x41c + 0x10000 * c + 0x80 * m + 0x4 * w⟩
def R.CAN_MB_DATA.DATA (c m w : Nat) : Fld := ⟨.can, 0x41c + 0x10000 * c + 0x80 * m + 0x4 * w, 0, 32⟩
def R.SVC_MAC_STATUS.reg : Reg := ⟨.svc, 0x0⟩
def R.SVC_MAC_STATUS.LINK : Fld := ⟨.svc, 0x0, 31, 1⟩
def R.SVC_MAC_STATUS.MDIX : Fld := ⟨.svc, 0x0, 30, 1⟩
def R.SVC_MAC_EVT.reg : Reg := ⟨.svc, 0x4⟩
def R.SVC_MAC_EVT.LINK_DOWN : Fld := ⟨.svc, 0x4, 1, 1⟩
def R.SVC_MAC_EVT.LINK_UP : Fld := ⟨.svc, 0x4, 0, 1⟩
def R.SVC_MAC_EVT_CNT.reg : Reg := ⟨.svc, 0x8⟩
def R.SVC_MAC_EVT_CNT.LINK_DOWN_CNT : Fld := ⟨.svc, 0x8, 16, 16⟩
def R.SVC_MAC_EVT_CNT.LINK_UP_CNT : Fld := ⟨.svc, 0x8, 0, 16⟩
def R.SVC_MAC_RX_FRAMES.reg : Reg := ⟨.svc, 0x10⟩
def R.SVC_MAC_RX_FRAMES.COUNT : Fld := ⟨.svc, 0x10, 0, 32⟩
def R.SVC_MAC_TX_FRAMES.reg : Reg := ⟨.svc, 0x14⟩
def R.SVC_MAC_TX_FRAMES.COUNT : Fld := ⟨.svc, 0x14, 0, 32⟩
def R.SVC_MAC_RX_ERR.reg : Reg := ⟨.svc, 0x18⟩
def R.SVC_MAC_RX_ERR.COUNT : Fld := ⟨.svc, 0x18, 0, 32⟩
def R.SVC_MAC_RX_DROP.reg : Reg := ⟨.svc, 0x1c⟩
def R.SVC_MAC_RX_DROP.COUNT : Fld := ⟨.svc, 0x1c, 0, 32⟩
def R.SVC_UART_CFG.reg : Reg := ⟨.svc, 0x100⟩
def R.SVC_UART_CFG.EN : Fld := ⟨.svc, 0x100, 31, 1⟩
def R.SVC_UART_CFG.CTS_EN : Fld := ⟨.svc, 0x100, 30, 1⟩
def R.SVC_UART_CFG.RTS_EN : Fld := ⟨.svc, 0x100, 29, 1⟩
def R.SVC_UART_CFG.DIV : Fld := ⟨.svc, 0x100, 0, 24⟩
def R.SVC_UART_STATUS.reg : Reg := ⟨.svc, 0x104⟩
def R.SVC_UART_STATUS.RX_ACTIVE : Fld := ⟨.svc, 0x104, 31, 1⟩
def R.SVC_UART_STATUS.TX_BUSY : Fld := ⟨.svc, 0x104, 30, 1⟩
def R.SVC_UART_STATUS.CTS : Fld := ⟨.svc, 0x104, 29, 1⟩
def R.SVC_UART_STATUS.RTS : Fld := ⟨.svc, 0x104, 28, 1⟩
def R.SVC_UART_STATUS.BREAK_NOW : Fld := ⟨.svc, 0x104, 27, 1⟩
def R.SVC_UART_EVT.reg : Reg := ⟨.svc, 0x108⟩
def R.SVC_UART_EVT.BREAK : Fld := ⟨.svc, 0x108, 1, 1⟩
def R.SVC_UART_EVT.FRAME_ERR : Fld := ⟨.svc, 0x108, 0, 1⟩
def R.SVC_UART_EVT_CNT.reg : Reg := ⟨.svc, 0x10c⟩
def R.SVC_UART_EVT_CNT.BREAK_CNT : Fld := ⟨.svc, 0x10c, 16, 16⟩
def R.SVC_UART_EVT_CNT.FRAME_ERR_CNT : Fld := ⟨.svc, 0x10c, 0, 16⟩
def R.SVC_UART_TXDATA.reg : Reg := ⟨.svc, 0x110⟩
def R.SVC_UART_TXDATA.DATA : Fld := ⟨.svc, 0x110, 0, 8⟩
def R.QU_UART_RX_CMD.reg : Reg := ⟨.svc, 0x140⟩
def R.QU_UART_RX_CMD.CMD : Fld := ⟨.svc, 0x140, 0, 4⟩
def R.QU_UART_RX_STATUS.reg : Reg := ⟨.svc, 0x144⟩
def R.QU_UART_RX_STATUS.ABOVE : Fld := ⟨.svc, 0x144, 31, 1⟩
def R.QU_UART_RX_STATUS.FULL : Fld := ⟨.svc, 0x144, 30, 1⟩
def R.QU_UART_RX_STATUS.EMPTY : Fld := ⟨.svc, 0x144, 29, 1⟩
def R.QU_UART_RX_STATUS.IN_ITEM : Fld := ⟨.svc, 0x144, 28, 1⟩
def R.QU_UART_RX_STATUS.WM_BAD : Fld := ⟨.svc, 0x144, 27, 1⟩
def R.QU_UART_RX_STATUS.LEVEL : Fld := ⟨.svc, 0x144, 0, 17⟩
def R.QU_UART_RX_WM_HIGH.reg : Reg := ⟨.svc, 0x148⟩
def R.QU_UART_RX_WM_HIGH.HIGH : Fld := ⟨.svc, 0x148, 0, 17⟩
def R.QU_UART_RX_WM_LOW.reg : Reg := ⟨.svc, 0x14c⟩
def R.QU_UART_RX_WM_LOW.LOW : Fld := ⟨.svc, 0x14c, 0, 17⟩
def R.QU_UART_RX_EVT.reg : Reg := ⟨.svc, 0x150⟩
def R.QU_UART_RX_EVT.OVERFLOW : Fld := ⟨.svc, 0x150, 3, 1⟩
def R.QU_UART_RX_EVT.DROPPED : Fld := ⟨.svc, 0x150, 2, 1⟩
def R.QU_UART_RX_EVT.FELL : Fld := ⟨.svc, 0x150, 1, 1⟩
def R.QU_UART_RX_EVT.ROSE : Fld := ⟨.svc, 0x150, 0, 1⟩
def R.QU_UART_RX_EVT_CNT0.reg : Reg := ⟨.svc, 0x154⟩
def R.QU_UART_RX_EVT_CNT0.FELL_CNT : Fld := ⟨.svc, 0x154, 16, 16⟩
def R.QU_UART_RX_EVT_CNT0.ROSE_CNT : Fld := ⟨.svc, 0x154, 0, 16⟩
def R.QU_UART_RX_EVT_CNT1.reg : Reg := ⟨.svc, 0x158⟩
def R.QU_UART_RX_EVT_CNT1.OVERFLOW_CNT : Fld := ⟨.svc, 0x158, 16, 16⟩
def R.QU_UART_RX_EVT_CNT1.DROPPED_CNT : Fld := ⟨.svc, 0x158, 0, 16⟩
def R.QU_UART_RX_DATA.reg : Reg := ⟨.svc, 0x15c⟩
def R.QU_UART_RX_DATA.DATA : Fld := ⟨.svc, 0x15c, 0, 32⟩
def R.QU_UART_RX_CAP.reg : Reg := ⟨.svc, 0x160⟩
def R.QU_UART_RX_CAP.CAP : Fld := ⟨.svc, 0x160, 0, 17⟩
def R.QU_UART_RX_ITEM.reg : Reg := ⟨.svc, 0x164⟩
def R.QU_UART_RX_ITEM.ITEM : Fld := ⟨.svc, 0x164, 0, 8⟩
def R.QU_UART_RX_PEAK.reg : Reg := ⟨.svc, 0x168⟩
def R.QU_UART_RX_PEAK.PEAK : Fld := ⟨.svc, 0x168, 0, 17⟩
def R.QU_UART_TX_CMD.reg : Reg := ⟨.svc, 0x180⟩
def R.QU_UART_TX_CMD.CMD : Fld := ⟨.svc, 0x180, 0, 4⟩
def R.QU_UART_TX_STATUS.reg : Reg := ⟨.svc, 0x184⟩
def R.QU_UART_TX_STATUS.ABOVE : Fld := ⟨.svc, 0x184, 31, 1⟩
def R.QU_UART_TX_STATUS.FULL : Fld := ⟨.svc, 0x184, 30, 1⟩
def R.QU_UART_TX_STATUS.EMPTY : Fld := ⟨.svc, 0x184, 29, 1⟩
def R.QU_UART_TX_STATUS.IN_ITEM : Fld := ⟨.svc, 0x184, 28, 1⟩
def R.QU_UART_TX_STATUS.WM_BAD : Fld := ⟨.svc, 0x184, 27, 1⟩
def R.QU_UART_TX_STATUS.LEVEL : Fld := ⟨.svc, 0x184, 0, 17⟩
def R.QU_UART_TX_WM_HIGH.reg : Reg := ⟨.svc, 0x188⟩
def R.QU_UART_TX_WM_HIGH.HIGH : Fld := ⟨.svc, 0x188, 0, 17⟩
def R.QU_UART_TX_WM_LOW.reg : Reg := ⟨.svc, 0x18c⟩
def R.QU_UART_TX_WM_LOW.LOW : Fld := ⟨.svc, 0x18c, 0, 17⟩
def R.QU_UART_TX_EVT.reg : Reg := ⟨.svc, 0x190⟩
def R.QU_UART_TX_EVT.OVERFLOW : Fld := ⟨.svc, 0x190, 3, 1⟩
def R.QU_UART_TX_EVT.DROPPED : Fld := ⟨.svc, 0x190, 2, 1⟩
def R.QU_UART_TX_EVT.FELL : Fld := ⟨.svc, 0x190, 1, 1⟩
def R.QU_UART_TX_EVT.ROSE : Fld := ⟨.svc, 0x190, 0, 1⟩
def R.QU_UART_TX_EVT_CNT0.reg : Reg := ⟨.svc, 0x194⟩
def R.QU_UART_TX_EVT_CNT0.FELL_CNT : Fld := ⟨.svc, 0x194, 16, 16⟩
def R.QU_UART_TX_EVT_CNT0.ROSE_CNT : Fld := ⟨.svc, 0x194, 0, 16⟩
def R.QU_UART_TX_EVT_CNT1.reg : Reg := ⟨.svc, 0x198⟩
def R.QU_UART_TX_EVT_CNT1.OVERFLOW_CNT : Fld := ⟨.svc, 0x198, 16, 16⟩
def R.QU_UART_TX_EVT_CNT1.DROPPED_CNT : Fld := ⟨.svc, 0x198, 0, 16⟩
def R.QU_UART_TX_DATA.reg : Reg := ⟨.svc, 0x19c⟩
def R.QU_UART_TX_DATA.DATA : Fld := ⟨.svc, 0x19c, 0, 32⟩
def R.QU_UART_TX_CAP.reg : Reg := ⟨.svc, 0x1a0⟩
def R.QU_UART_TX_CAP.CAP : Fld := ⟨.svc, 0x1a0, 0, 17⟩
def R.QU_UART_TX_ITEM.reg : Reg := ⟨.svc, 0x1a4⟩
def R.QU_UART_TX_ITEM.ITEM : Fld := ⟨.svc, 0x1a4, 0, 8⟩
def R.QU_UART_TX_PEAK.reg : Reg := ⟨.svc, 0x1a8⟩
def R.QU_UART_TX_PEAK.PEAK : Fld := ⟨.svc, 0x1a8, 0, 17⟩
def R.SVC_IMG_CMD.reg : Reg := ⟨.svc, 0x200⟩
def R.SVC_IMG_CMD.CMD : Fld := ⟨.svc, 0x200, 0, 4⟩
def R.SVC_IMG_STATUS.reg : Reg := ⟨.svc, 0x204⟩
def R.SVC_IMG_STATUS.BUSY : Fld := ⟨.svc, 0x204, 31, 1⟩
def R.SVC_IMG_STATUS.RESULT : Fld := ⟨.svc, 0x204, 24, 7⟩
def R.SVC_IMG_STATUS.ACTIVE : Fld := ⟨.svc, 0x204, 23, 1⟩
def R.SVC_IMG_STATUS.SLOT1 : Fld := ⟨.svc, 0x204, 20, 3⟩
def R.SVC_IMG_STATUS.SLOT0 : Fld := ⟨.svc, 0x204, 17, 3⟩
def R.SVC_IMG_SRC_LO.reg : Reg := ⟨.svc, 0x208⟩
def R.SVC_IMG_SRC_LO.SRC : Fld := ⟨.svc, 0x208, 0, 32⟩
def R.SVC_IMG_SRC_HI.reg : Reg := ⟨.svc, 0x20c⟩
def R.SVC_IMG_SRC_HI.SRC : Fld := ⟨.svc, 0x20c, 0, 8⟩
def R.SVC_IMG_LEN.reg : Reg := ⟨.svc, 0x210⟩
def R.SVC_IMG_LEN.LEN : Fld := ⟨.svc, 0x210, 0, 28⟩
def R.SVC_IMG_OFS.reg : Reg := ⟨.svc, 0x214⟩
def R.SVC_IMG_OFS.OFS : Fld := ⟨.svc, 0x214, 0, 28⟩
def R.SVC_IMG_POLICY.reg : Reg := ⟨.svc, 0x218⟩
def R.SVC_IMG_POLICY.COSIGN_REQ : Fld := ⟨.svc, 0x218, 31, 1⟩
def R.SVC_IMG_POLICY.SLOT : Fld := ⟨.svc, 0x218, 0, 7⟩
def R.SVC_IMG_FMT.reg : Reg := ⟨.svc, 0x21c⟩
def R.SVC_IMG_FMT.SEC_EPOCH : Fld := ⟨.svc, 0x21c, 16, 16⟩
def R.SVC_IMG_FMT.FMT : Fld := ⟨.svc, 0x21c, 0, 16⟩
def R.SVC_IMG_VERSION0.reg : Reg := ⟨.svc, 0x220⟩
def R.SVC_IMG_VERSION0.VERSION : Fld := ⟨.svc, 0x220, 0, 32⟩
def R.SVC_IMG_VERSION1.reg : Reg := ⟨.svc, 0x224⟩
def R.SVC_IMG_VERSION1.VERSION : Fld := ⟨.svc, 0x224, 0, 32⟩
def R.SVC_ACT_WHEN.reg (w : Nat) : Reg := ⟨.svc, 0x230 + 0x4 * w⟩
def R.SVC_ACT_WHEN.WHEN (w : Nat) : Fld := ⟨.svc, 0x230 + 0x4 * w, 0, 32⟩
def R.SVC_ACT_STATUS.reg : Reg := ⟨.svc, 0x23c⟩
def R.SVC_ACT_STATUS.STATE : Fld := ⟨.svc, 0x23c, 29, 3⟩
def R.SVC_ACT_STATUS.FMT_CHANGE : Fld := ⟨.svc, 0x23c, 28, 1⟩
def R.SVC_ACT_CONFIRM.reg : Reg := ⟨.svc, 0x240⟩
def R.SVC_ACT_CONFIRM.KEY : Fld := ⟨.svc, 0x240, 0, 32⟩
def R.SVC_EVT.reg : Reg := ⟨.svc, 0x244⟩
def R.SVC_EVT.VERIFIED : Fld := ⟨.svc, 0x244, 0, 1⟩
def R.SVC_EVT.REFUSED : Fld := ⟨.svc, 0x244, 1, 1⟩
def R.SVC_EVT.ACTIVATED : Fld := ⟨.svc, 0x244, 2, 1⟩
def R.SVC_EVT.DEFERRED : Fld := ⟨.svc, 0x244, 3, 1⟩
def R.SVC_EVT.ROLLBACK : Fld := ⟨.svc, 0x244, 4, 1⟩
def R.SVC_EVT.SETTINGS_RESET : Fld := ⟨.svc, 0x244, 5, 1⟩
def R.SVC_EVT.EFW_DONE : Fld := ⟨.svc, 0x244, 6, 1⟩
def R.SVC_EVT_CNT0.reg : Reg := ⟨.svc, 0x248⟩
def R.SVC_EVT_CNT0.REFUSED_CNT : Fld := ⟨.svc, 0x248, 16, 16⟩
def R.SVC_EVT_CNT0.VERIFIED_CNT : Fld := ⟨.svc, 0x248, 0, 16⟩
def R.SVC_EVT_CNT1.reg : Reg := ⟨.svc, 0x24c⟩
def R.SVC_EVT_CNT1.DEFERRED_CNT : Fld := ⟨.svc, 0x24c, 16, 16⟩
def R.SVC_EVT_CNT1.ACTIVATED_CNT : Fld := ⟨.svc, 0x24c, 0, 16⟩
def R.SVC_EVT_CNT2.reg : Reg := ⟨.svc, 0x250⟩
def R.SVC_EVT_CNT2.SETTINGS_RESET_CNT : Fld := ⟨.svc, 0x250, 16, 16⟩
def R.SVC_EVT_CNT2.ROLLBACK_CNT : Fld := ⟨.svc, 0x250, 0, 16⟩
def R.SVC_EVT_CNT3.reg : Reg := ⟨.svc, 0x254⟩
def R.SVC_EVT_CNT3.EFW_DONE_CNT : Fld := ⟨.svc, 0x254, 0, 16⟩
def R.SVC_EFW_CFG.reg : Reg := ⟨.svc, 0x300⟩
def R.SVC_EFW_CFG.RING : Fld := ⟨.svc, 0x300, 31, 1⟩
def R.SVC_EFW_CFG.RADIO : Fld := ⟨.svc, 0x300, 30, 1⟩
def R.SVC_EFW_CFG.PASSES : Fld := ⟨.svc, 0x300, 27, 3⟩
def R.SVC_EFW_CFG.RATE : Fld := ⟨.svc, 0x300, 0, 16⟩
def R.SVC_EFW_SRC.reg : Reg := ⟨.svc, 0x304⟩
def R.SVC_EFW_SRC.SRC : Fld := ⟨.svc, 0x304, 0, 32⟩
def R.SVC_EFW_LEN.reg : Reg := ⟨.svc, 0x308⟩
def R.SVC_EFW_LEN.LEN : Fld := ⟨.svc, 0x308, 0, 24⟩
def R.SVC_EFW_VERSION.reg : Reg := ⟨.svc, 0x30c⟩
def R.SVC_EFW_VERSION.VERSION : Fld := ⟨.svc, 0x30c, 0, 32⟩
def R.SVC_EFW_WHEN.reg (w : Nat) : Reg := ⟨.svc, 0x310 + 0x4 * w⟩
def R.SVC_EFW_WHEN.WHEN (w : Nat) : Fld := ⟨.svc, 0x310 + 0x4 * w, 0, 32⟩
def R.SVC_EFW_CMD.reg : Reg := ⟨.svc, 0x31c⟩
def R.SVC_EFW_CMD.CMD : Fld := ⟨.svc, 0x31c, 0, 4⟩
def R.SVC_EFW_STATUS.reg : Reg := ⟨.svc, 0x320⟩
def R.SVC_EFW_STATUS.STATE : Fld := ⟨.svc, 0x320, 30, 2⟩
def R.SVC_EFW_STATUS.BLOCK : Fld := ⟨.svc, 0x320, 0, 30⟩
def R.PWR_IN_STATUS.reg : Reg := ⟨.pwr, 0x0⟩
def R.PWR_IN_STATUS.PFW : Fld := ⟨.pwr, 0x0, 31, 1⟩
def R.PWR_IN_STATUS.VALID : Fld := ⟨.pwr, 0x0, 30, 1⟩
def R.PWR_IN_STATUS.MV : Fld := ⟨.pwr, 0x0, 0, 16⟩
def R.PWR_IN_POWER.reg : Reg := ⟨.pwr, 0x4⟩
def R.PWR_IN_POWER.POWER : Fld := ⟨.pwr, 0x4, 0, 16⟩
def R.PWR_EVT.reg : Reg := ⟨.pwr, 0x8⟩
def R.PWR_EVT.CHG_TEMP : Fld := ⟨.pwr, 0x8, 4, 1⟩
def R.PWR_EVT.CELL_EMPTY : Fld := ⟨.pwr, 0x8, 3, 1⟩
def R.PWR_EVT.GAUGE_RESYNC : Fld := ⟨.pwr, 0x8, 2, 1⟩
def R.PWR_EVT.CELL_INSERTED : Fld := ⟨.pwr, 0x8, 1, 1⟩
def R.PWR_EVT.CELL_REMOVED : Fld := ⟨.pwr, 0x8, 0, 1⟩
def R.PWR_EVT_CNT0.reg : Reg := ⟨.pwr, 0xc⟩
def R.PWR_EVT_CNT0.CELL_INSERTED_CNT : Fld := ⟨.pwr, 0xc, 16, 16⟩
def R.PWR_EVT_CNT0.CELL_REMOVED_CNT : Fld := ⟨.pwr, 0xc, 0, 16⟩
def R.PWR_EVT_CNT1.reg : Reg := ⟨.pwr, 0x10⟩
def R.PWR_EVT_CNT1.CELL_EMPTY_CNT : Fld := ⟨.pwr, 0x10, 16, 16⟩
def R.PWR_EVT_CNT1.GAUGE_RESYNC_CNT : Fld := ⟨.pwr, 0x10, 0, 16⟩
def R.PWR_EVT_CNT2.reg : Reg := ⟨.pwr, 0x14⟩
def R.PWR_EVT_CNT2.CHG_TEMP_CNT : Fld := ⟨.pwr, 0x14, 0, 16⟩
def R.PWR_CELL_STATUS.reg : Reg := ⟨.pwr, 0x18⟩
def R.PWR_CELL_STATUS.PRESENT : Fld := ⟨.pwr, 0x18, 31, 1⟩
def R.PWR_CELL_STATUS.CHARGING : Fld := ⟨.pwr, 0x18, 30, 1⟩
def R.PWR_CELL_STATUS.CV : Fld := ⟨.pwr, 0x18, 29, 1⟩
def R.PWR_CELL_STATUS.TEMP_HOLD : Fld := ⟨.pwr, 0x18, 28, 1⟩
def R.PWR_CELL_STATUS.EMPTY : Fld := ⟨.pwr, 0x18, 27, 1⟩
def R.PWR_CELL_STATUS.AT_REST : Fld := ⟨.pwr, 0x18, 26, 1⟩
def R.PWR_CELL_STATUS.MV : Fld := ⟨.pwr, 0x18, 0, 16⟩
def R.PWR_CELL_TEMP.reg : Reg := ⟨.pwr, 0x1c⟩
def R.PWR_CELL_TEMP.TEMP : Fld := ⟨.pwr, 0x1c, 0, 16⟩
def R.PWR_CHG_CFG.reg : Reg := ⟨.pwr, 0x20⟩
def R.PWR_CHG_CFG.EN : Fld := ⟨.pwr, 0x20, 0, 1⟩
def R.PWR_GAUGE.reg : Reg := ⟨.pwr, 0x24⟩
def R.PWR_GAUGE.SOC : Fld := ⟨.pwr, 0x24, 24, 8⟩
def R.PWR_GAUGE.CHARGE : Fld := ⟨.pwr, 0x24, 0, 24⟩
def R.PWR_GAUGE_CAP.reg : Reg := ⟨.pwr, 0x28⟩
def R.PWR_GAUGE_CAP.CAP : Fld := ⟨.pwr, 0x28, 0, 24⟩
def R.PWR_GAUGE_REST.reg : Reg := ⟨.pwr, 0x2c⟩
def R.PWR_GAUGE_REST.MIN : Fld := ⟨.pwr, 0x2c, 0, 16⟩
def E.SYS_BUS_ERR.BRIDGE_TO : Evt := ⟨.sys, 0xc, 3, 0x1c, 16⟩
def E.SYS_BUS_ERR.SO_WRITE : Evt := ⟨.sys, 0xc, 2, 0x1c, 0⟩
def E.SYS_BUS_ERR.UNMAPPED : Evt := ⟨.sys, 0xc, 1, 0x18, 16⟩
def E.SYS_BUS_ERR.ALIGN : Evt := ⟨.sys, 0xc, 0, 0x18, 0⟩
def E.SYS_FAULT_EVT.ENG_STOP : Evt := ⟨.sys, 0x110, 4, 0x11c, 0⟩
def E.SYS_FAULT_EVT.SPARES_OUT : Evt := ⟨.sys, 0x110, 3, 0x118, 16⟩
def E.SYS_FAULT_EVT.SPARES_LOW : Evt := ⟨.sys, 0x110, 2, 0x118, 0⟩
def E.SYS_FAULT_EVT.LASTING : Evt := ⟨.sys, 0x110, 1, 0x114, 16⟩
def E.SYS_FAULT_EVT.TRANSIENT : Evt := ⟨.sys, 0x110, 0, 0x114, 0⟩
def E.SYS_PAIR_EVT.GHOST_EVICT : Evt := ⟨.sys, 0x21c, 5, 0x228, 16⟩
def E.SYS_PAIR_EVT.GHOST : Evt := ⟨.sys, 0x21c, 4, 0x228, 0⟩
def E.SYS_PAIR_EVT.CKPT_STALE : Evt := ⟨.sys, 0x21c, 3, 0x224, 16⟩
def E.SYS_PAIR_EVT.FENCED : Evt := ⟨.sys, 0x21c, 2, 0x224, 0⟩
def E.SYS_PAIR_EVT.TAKEOVER : Evt := ⟨.sys, 0x21c, 1, 0x220, 16⟩
def E.SYS_PAIR_EVT.PAIR_LINK_DOWN : Evt := ⟨.sys, 0x21c, 0, 0x220, 0⟩
def E.TIME_EVT.INCR_CLAMP : Evt := ⟨.time, 0x60, 5, 0x6c, 16⟩
def E.TIME_EVT.PPS_IN_MISS : Evt := ⟨.time, 0x60, 4, 0x6c, 0⟩
def E.TIME_EVT.LATE : Evt := ⟨.time, 0x60, 3, 0x68, 16⟩
def E.TIME_EVT.HOLDOVER : Evt := ⟨.time, 0x60, 2, 0x68, 0⟩
def E.TIME_EVT.SUSPECT : Evt := ⟨.time, 0x60, 1, 0x64, 16⟩
def E.TIME_EVT.STEPPED : Evt := ⟨.time, 0x60, 0, 0x64, 0⟩
def E.TIME_TS_EVT.TS_OVF (p : Nat) : Evt := ⟨.time, 0x104 + 0x10 * p, 0, 0x108 + 0x10 * p, 0⟩
def E.RTC_EVT.ALIGN_REFUSED : Evt := ⟨.rtc, 0x28, 4, 0x34, 0⟩
def E.RTC_EVT.ALIGNED : Evt := ⟨.rtc, 0x28, 3, 0x30, 0⟩
def E.RTC_EVT.OSC_FAIL : Evt := ⟨.rtc, 0x28, 2, 0x30, 16⟩
def E.RTC_EVT.ALM1 : Evt := ⟨.rtc, 0x28, 1, 0x2c, 16⟩
def E.RTC_EVT.ALM0 : Evt := ⟨.rtc, 0x28, 0, 0x2c, 0⟩
def E.KEY_EVT.ENTROPY_FAIL : Evt := ⟨.key, 0x14, 7, 0x24, 16⟩
def E.KEY_EVT.PUF_FAIL : Evt := ⟨.key, 0x14, 6, 0x24, 0⟩
def E.KEY_EVT.REPL_FAIL : Evt := ⟨.key, 0x14, 5, 0x20, 16⟩
def E.KEY_EVT.REPL_DONE : Evt := ⟨.key, 0x14, 4, 0x20, 0⟩
def E.KEY_EVT.LC_REFUSED : Evt := ⟨.key, 0x14, 3, 0x1c, 16⟩
def E.KEY_EVT.LC_DONE : Evt := ⟨.key, 0x14, 2, 0x1c, 0⟩
def E.KEY_EVT.KEYS_LOST_POWER : Evt := ⟨.key, 0x14, 1, 0x18, 16⟩
def E.KEY_EVT.TAMPER : Evt := ⟨.key, 0x14, 0, 0x18, 0⟩
def E.REC_EVT.APP_BAD : Evt := ⟨.rcd, 0xc, 4, 0x18, 0⟩
def E.REC_EVT.COPY_DONE : Evt := ⟨.rcd, 0xc, 3, 0x14, 16⟩
def E.REC_EVT.WRAP : Evt := ⟨.rcd, 0xc, 2, 0x14, 0⟩
def E.REC_EVT.LOG_GAP : Evt := ⟨.rcd, 0xc, 1, 0x10, 16⟩
def E.REC_EVT.LOST : Evt := ⟨.rcd, 0xc, 0, 0x10, 0⟩
def E.REC_LDG_EVT.REPAIRED : Evt := ⟨.rcd, 0x84, 2, 0x8c, 0⟩
def E.REC_LDG_EVT.BANK1_ERR : Evt := ⟨.rcd, 0x84, 1, 0x88, 16⟩
def E.REC_LDG_EVT.BANK0_ERR : Evt := ⟨.rcd, 0x84, 0, 0x88, 0⟩
def E.FE_EVT.RESTARTED (i : Nat) : Evt := ⟨.fe, 0x18 + 0x100000 * i, 3, 0x20 + 0x100000 * i, 16⟩
def E.FE_EVT.BRK (i : Nat) : Evt := ⟨.fe, 0x18 + 0x100000 * i, 2, 0x20 + 0x100000 * i, 0⟩
def E.FE_EVT.PROG_EXC (i : Nat) : Evt := ⟨.fe, 0x18 + 0x100000 * i, 1, 0x1c + 0x100000 * i, 16⟩
def E.FE_EVT.HW_EXC (i : Nat) : Evt := ⟨.fe, 0x18 + 0x100000 * i, 0, 0x1c + 0x100000 * i, 0⟩
def E.FE_SHF_EVT.BOOT_DISCARD : Evt := ⟨.fe, 0x80138, 5, 0x80144, 16⟩
def E.FE_SHF_EVT.POOL_FULL : Evt := ⟨.fe, 0x80138, 4, 0x80144, 0⟩
def E.FE_SHF_EVT.REFUSED : Evt := ⟨.fe, 0x80138, 3, 0x80140, 16⟩
def E.FE_SHF_EVT.APPLIED_LATE : Evt := ⟨.fe, 0x80138, 2, 0x80140, 0⟩
def E.FE_SHF_EVT.CHK_FAIL : Evt := ⟨.fe, 0x80138, 1, 0x8013c, 16⟩
def E.FE_SHF_EVT.APPLIED : Evt := ⟨.fe, 0x80138, 0, 0x8013c, 0⟩
def E.QU_INTAKE_EVT.OVERFLOW : Evt := ⟨.fe, 0x80210, 3, 0x80218, 16⟩
def E.QU_INTAKE_EVT.DROPPED : Evt := ⟨.fe, 0x80210, 2, 0x80218, 0⟩
def E.QU_INTAKE_EVT.FELL : Evt := ⟨.fe, 0x80210, 1, 0x80214, 16⟩
def E.QU_INTAKE_EVT.ROSE : Evt := ⟨.fe, 0x80210, 0, 0x80214, 0⟩
def E.QU_CPL_EVT.OVERFLOW (s : Nat) : Evt := ⟨.fe, 0x80410 + 0x40 * s, 3, 0x80418 + 0x40 * s, 16⟩
def E.QU_CPL_EVT.DROPPED (s : Nat) : Evt := ⟨.fe, 0x80410 + 0x40 * s, 2, 0x80418 + 0x40 * s, 0⟩
def E.QU_CPL_EVT.FELL (s : Nat) : Evt := ⟨.fe, 0x80410 + 0x40 * s, 1, 0x80414 + 0x40 * s, 16⟩
def E.QU_CPL_EVT.ROSE (s : Nat) : Evt := ⟨.fe, 0x80410 + 0x40 * s, 0, 0x80414 + 0x40 * s, 0⟩
def E.HND_EVT.STALE_REPLY : Evt := ⟨.fe, 0x80810, 2, 0x80818, 0⟩
def E.HND_EVT.NO_HANDLE : Evt := ⟨.fe, 0x80810, 1, 0x80814, 16⟩
def E.HND_EVT.QUOTA : Evt := ⟨.fe, 0x80810, 0, 0x80814, 0⟩
def E.STORM_EVT.RECOVERED : Evt := ⟨.fe, 0x80a0c, 1, 0x80a10, 16⟩
def E.STORM_EVT.STARTED : Evt := ⟨.fe, 0x80a0c, 0, 0x80a10, 0⟩
def E.FAB_EVT.STOMP (p : Nat) : Evt := ⟨.fab, 0x200 + 0x1000000 * p, 2, 0x208 + 0x1000000 * p, 0⟩
def E.FAB_EVT.SEQ_OLD (p : Nat) : Evt := ⟨.fab, 0x200 + 0x1000000 * p, 1, 0x204 + 0x1000000 * p, 16⟩
def E.FAB_EVT.SEQ_SKIP (p : Nat) : Evt := ⟨.fab, 0x200 + 0x1000000 * p, 0, 0x204 + 0x1000000 * p, 0⟩
def E.FAB_BUF_EVT.HARROW_TRIG (p : Nat) : Evt := ⟨.fab, 0x100040 + 0x1000000 * p, 5, 0x10004c + 0x1000000 * p, 16⟩
def E.FAB_BUF_EVT.MISMATCH (p : Nat) : Evt := ⟨.fab, 0x100040 + 0x1000000 * p, 4, 0x10004c + 0x1000000 * p, 0⟩
def E.FAB_BUF_EVT.LEAK (p : Nat) : Evt := ⟨.fab, 0x100040 + 0x1000000 * p, 3, 0x100048 + 0x1000000 * p, 16⟩
def E.FAB_BUF_EVT.MIN_SHORT (p : Nat) : Evt := ⟨.fab, 0x100040 + 0x1000000 * p, 2, 0x100048 + 0x1000000 * p, 0⟩
def E.FAB_BUF_EVT.RESIDUE_DROP (p : Nat) : Evt := ⟨.fab, 0x100040 + 0x1000000 * p, 1, 0x100044 + 0x1000000 * p, 16⟩
def E.FAB_BUF_EVT.QUOTA_OVER (p : Nat) : Evt := ⟨.fab, 0x100040 + 0x1000000 * p, 0, 0x100044 + 0x1000000 * p, 0⟩
def E.FAB_SPD_EVT.SPEED_LOW : Evt := ⟨.fab, 0xf0001c, 1, 0xf00020, 16⟩
def E.FAB_SPD_EVT.SPEED_RISK : Evt := ⟨.fab, 0xf0001c, 0, 0xf00020, 0⟩
def E.FAB_FDB_EVT.BUCKET_FULL : Evt := ⟨.fab, 0xf00064, 0, 0xf00068, 0⟩
def E.PORT_EVT.TX_FAULT (n : Nat) : Evt := ⟨.port, 0x8 + 0x10000 * n, 5, 0x14 + 0x10000 * n, 16⟩
def E.PORT_EVT.LASER_SWAP (n : Nat) : Evt := ⟨.port, 0x8 + 0x10000 * n, 4, 0x14 + 0x10000 * n, 0⟩
def E.PORT_EVT.RX_LOW (n : Nat) : Evt := ⟨.port, 0x8 + 0x10000 * n, 3, 0x10 + 0x10000 * n, 16⟩
def E.PORT_EVT.DEGRADE (n : Nat) : Evt := ⟨.port, 0x8 + 0x10000 * n, 2, 0x10 + 0x10000 * n, 0⟩
def E.PORT_EVT.LINK_DOWN (n : Nat) : Evt := ⟨.port, 0x8 + 0x10000 * n, 1, 0xc + 0x10000 * n, 16⟩
def E.PORT_EVT.LINK_UP (n : Nat) : Evt := ⟨.port, 0x8 + 0x10000 * n, 0, 0xc + 0x10000 * n, 0⟩
def E.RING_EVT.UNKNOWN_NODE (r : Nat) : Evt := ⟨.ring, 0x10 + 0x1000 * r, 4, 0x1c + 0x1000 * r, 0⟩
def E.RING_EVT.NODE_LOST (r : Nat) : Evt := ⟨.ring, 0x10 + 0x1000 * r, 3, 0x18 + 0x1000 * r, 16⟩
def E.RING_EVT.DD_EVICT (r : Nat) : Evt := ⟨.ring, 0x10 + 0x1000 * r, 2, 0x18 + 0x1000 * r, 0⟩
def E.RING_EVT.RING_CLOSED (r : Nat) : Evt := ⟨.ring, 0x10 + 0x1000 * r, 1, 0x14 + 0x1000 * r, 16⟩
def E.RING_EVT.RING_OPEN (r : Nat) : Evt := ⟨.ring, 0x10 + 0x1000 * r, 0, 0x14 + 0x1000 * r, 0⟩
def E.MTR_EVT.REFUSED : Evt := ⟨.mtr, 0x20, 6, 0x30, 0⟩
def E.MTR_EVT.CAP_DONE : Evt := ⟨.mtr, 0x20, 5, 0x2c, 16⟩
def E.MTR_EVT.SAVED : Evt := ⟨.mtr, 0x20, 4, 0x2c, 0⟩
def E.MTR_EVT.CLIP : Evt := ⟨.mtr, 0x20, 3, 0x28, 16⟩
def E.MTR_EVT.COLLAPSE : Evt := ⟨.mtr, 0x20, 2, 0x28, 0⟩
def E.MTR_EVT.SURGE : Evt := ⟨.mtr, 0x20, 1, 0x24, 16⟩
def E.MTR_EVT.NO_MAINS : Evt := ⟨.mtr, 0x20, 0, 0x24, 0⟩
def E.DIO_EVT.BANK_LOW : Evt := ⟨.dio, 0x54, 3, 0x5c, 16⟩
def E.DIO_EVT.OPEN_WIRE : Evt := ⟨.dio, 0x54, 2, 0x5c, 0⟩
def E.DIO_EVT.OVER_TEMP : Evt := ⟨.dio, 0x54, 1, 0x58, 16⟩
def E.DIO_EVT.OVERLOAD : Evt := ⟨.dio, 0x54, 0, 0x58, 0⟩
def E.IND_STR_EVT.SHORT (s : Nat) : Evt := ⟨.ind, 0xc + 0x40 * s, 3, 0x14 + 0x40 * s, 16⟩
def E.IND_STR_EVT.OPEN (s : Nat) : Evt := ⟨.ind, 0xc + 0x40 * s, 2, 0x14 + 0x40 * s, 0⟩
def E.IND_STR_EVT.UNDER_CURRENT (s : Nat) : Evt := ⟨.ind, 0xc + 0x40 * s, 1, 0x10 + 0x40 * s, 16⟩
def E.IND_STR_EVT.HEADROOM (s : Nat) : Evt := ⟨.ind, 0xc + 0x40 * s, 0, 0x10 + 0x40 * s, 0⟩
def E.IND_CH_EVT.FB_LIMIT (n : Nat) : Evt := ⟨.ind, 0x100c + 0x100 * n, 3, 0x1014 + 0x100 * n, 16⟩
def E.IND_CH_EVT.AON_BLANK (n : Nat) : Evt := ⟨.ind, 0x100c + 0x100 * n, 2, 0x1014 + 0x100 * n, 0⟩
def E.IND_CH_EVT.LED_FAIL (n : Nat) : Evt := ⟨.ind, 0x100c + 0x100 * n, 1, 0x1010 + 0x100 * n, 16⟩
def E.IND_CH_EVT.CHAIN_ERR (n : Nat) : Evt := ⟨.ind, 0x100c + 0x100 * n, 0, 0x1010 + 0x100 * n, 0⟩
def E.QU_FEED_EVT.OVERFLOW (n : Nat) : Evt := ⟨.ind, 0x1050 + 0x100 * n, 3, 0x1058 + 0x100 * n, 16⟩
def E.QU_FEED_EVT.DROPPED (n : Nat) : Evt := ⟨.ind, 0x1050 + 0x100 * n, 2, 0x1058 + 0x100 * n, 0⟩
def E.QU_FEED_EVT.FELL (n : Nat) : Evt := ⟨.ind, 0x1050 + 0x100 * n, 1, 0x1054 + 0x100 * n, 16⟩
def E.QU_FEED_EVT.ROSE (n : Nat) : Evt := ⟨.ind, 0x1050 + 0x100 * n, 0, 0x1054 + 0x100 * n, 0⟩
def E.RAD_EVT.UNKNOWN_SRC (j : Nat) : Evt := ⟨.rad, 0x30 + 0x100000 * j, 7, 0x40 + 0x100000 * j, 16⟩
def E.RAD_EVT.QUEUE_FULL (j : Nat) : Evt := ⟨.rad, 0x30 + 0x100000 * j, 6, 0x40 + 0x100000 * j, 0⟩
def E.RAD_EVT.DUTY_DROP (j : Nat) : Evt := ⟨.rad, 0x30 + 0x100000 * j, 5, 0x3c + 0x100000 * j, 16⟩
def E.RAD_EVT.DUTY_WAIT (j : Nat) : Evt := ⟨.rad, 0x30 + 0x100000 * j, 4, 0x3c + 0x100000 * j, 0⟩
def E.RAD_EVT.LBT_FAIL (j : Nat) : Evt := ⟨.rad, 0x30 + 0x100000 * j, 3, 0x38 + 0x100000 * j, 16⟩
def E.RAD_EVT.MIC_FAIL (j : Nat) : Evt := ⟨.rad, 0x30 + 0x100000 * j, 2, 0x38 + 0x100000 * j, 0⟩
def E.RAD_EVT.REPLAY (j : Nat) : Evt := ⟨.rad, 0x30 + 0x100000 * j, 1, 0x34 + 0x100000 * j, 16⟩
def E.RAD_EVT.CAPTURE_LOST (j : Nat) : Evt := ⟨.rad, 0x30 + 0x100000 * j, 0, 0x34 + 0x100000 * j, 0⟩
def E.CAN_EVT.RETRY_EXHAUSTED (c : Nat) : Evt := ⟨.can, 0x18 + 0x10000 * c, 4, 0x1c + 0x10000 * c, 0⟩
def E.CAN_EVT.BUS_OFF (c : Nat) : Evt := ⟨.can, 0x18 + 0x10000 * c, 3, 0x1c + 0x10000 * c, 16⟩
def E.CAN_EVT.PASSIVE (c : Nat) : Evt := ⟨.can, 0x18 + 0x10000 * c, 2, 0x20 + 0x10000 * c, 0⟩
def E.CAN_EVT.MB_OVERRUN (c : Nat) : Evt := ⟨.can, 0x18 + 0x10000 * c, 1, 0x20 + 0x10000 * c, 16⟩
def E.CAN_EVT.ERR_FRAME (c : Nat) : Evt := ⟨.can, 0x18 + 0x10000 * c, 0, 0x24 + 0x10000 * c, 0⟩
def E.QU_BULK_EVT.OVERFLOW (c : Nat) : Evt := ⟨.can, 0x110 + 0x10000 * c, 3, 0x118 + 0x10000 * c, 16⟩
def E.QU_BULK_EVT.DROPPED (c : Nat) : Evt := ⟨.can, 0x110 + 0x10000 * c, 2, 0x118 + 0x10000 * c, 0⟩
def E.QU_BULK_EVT.FELL (c : Nat) : Evt := ⟨.can, 0x110 + 0x10000 * c, 1, 0x114 + 0x10000 * c, 16⟩
def E.QU_BULK_EVT.ROSE (c : Nat) : Evt := ⟨.can, 0x110 + 0x10000 * c, 0, 0x114 + 0x10000 * c, 0⟩
def E.SVC_MAC_EVT.LINK_DOWN : Evt := ⟨.svc, 0x4, 1, 0x8, 16⟩
def E.SVC_MAC_EVT.LINK_UP : Evt := ⟨.svc, 0x4, 0, 0x8, 0⟩
def E.SVC_UART_EVT.BREAK : Evt := ⟨.svc, 0x108, 1, 0x10c, 16⟩
def E.SVC_UART_EVT.FRAME_ERR : Evt := ⟨.svc, 0x108, 0, 0x10c, 0⟩
def E.QU_UART_RX_EVT.OVERFLOW : Evt := ⟨.svc, 0x150, 3, 0x158, 16⟩
def E.QU_UART_RX_EVT.DROPPED : Evt := ⟨.svc, 0x150, 2, 0x158, 0⟩
def E.QU_UART_RX_EVT.FELL : Evt := ⟨.svc, 0x150, 1, 0x154, 16⟩
def E.QU_UART_RX_EVT.ROSE : Evt := ⟨.svc, 0x150, 0, 0x154, 0⟩
def E.QU_UART_TX_EVT.OVERFLOW : Evt := ⟨.svc, 0x190, 3, 0x198, 16⟩
def E.QU_UART_TX_EVT.DROPPED : Evt := ⟨.svc, 0x190, 2, 0x198, 0⟩
def E.QU_UART_TX_EVT.FELL : Evt := ⟨.svc, 0x190, 1, 0x194, 16⟩
def E.QU_UART_TX_EVT.ROSE : Evt := ⟨.svc, 0x190, 0, 0x194, 0⟩
def E.SVC_EVT.VERIFIED : Evt := ⟨.svc, 0x244, 0, 0x248, 0⟩
def E.SVC_EVT.REFUSED : Evt := ⟨.svc, 0x244, 1, 0x248, 16⟩
def E.SVC_EVT.ACTIVATED : Evt := ⟨.svc, 0x244, 2, 0x24c, 0⟩
def E.SVC_EVT.DEFERRED : Evt := ⟨.svc, 0x244, 3, 0x24c, 16⟩
def E.SVC_EVT.ROLLBACK : Evt := ⟨.svc, 0x244, 4, 0x250, 0⟩
def E.SVC_EVT.SETTINGS_RESET : Evt := ⟨.svc, 0x244, 5, 0x250, 16⟩
def E.SVC_EVT.EFW_DONE : Evt := ⟨.svc, 0x244, 6, 0x254, 0⟩
def E.PWR_EVT.CHG_TEMP : Evt := ⟨.pwr, 0x8, 4, 0x14, 0⟩
def E.PWR_EVT.CELL_EMPTY : Evt := ⟨.pwr, 0x8, 3, 0x10, 16⟩
def E.PWR_EVT.GAUGE_RESYNC : Evt := ⟨.pwr, 0x8, 2, 0x10, 0⟩
def E.PWR_EVT.CELL_INSERTED : Evt := ⟨.pwr, 0x8, 1, 0xc, 16⟩
def E.PWR_EVT.CELL_REMOVED : Evt := ⟨.pwr, 0x8, 0, 0xc, 0⟩

end Sys2Proof.Machine
end

