-- ==== Sys2Proof/Machine/RegMap.lean ====
section
/-! DEFINITION. The register maps of the module: one row per register or register array, block by block, with
every field's position, access code (R10) and reset value. The rows follow the register-map tables of the
chapters: R38 R68 R70 R83 R182–R185 R191 (FE), R226–R228 R255–R257 (FAB), R283, R284, R312, R344, R345, R365,
R366, R421, R422, R442, R458, R474, R475, R490, R512, R544, R565. A field the tables leave out, or mark reserved,
is in no row: it reads 0 and ignores writes (R13). A reset value that a table gives only as "per module", "per
line", "per cause", "per start", "per boot", "production", "from ledger", "from fuses" or "from the backup domain"
stands here as 0 (DESIGN CHOICE, assumption 3). -/
namespace Sys2Proof.Machine
open Acc

/-- Register rows of block SYS, part 0. -/
def regMapSys0 : List RegRow := [
  ⟨0x0, [], false, [⟨31, 16, ro, 0x2560⟩, ⟨15, 12, ro, 0⟩, ⟨7, 0, ro, 1⟩]⟩, -- SYS_ID
  ⟨0x4, [], false, [⟨31, 24, ro, 0x12⟩, ⟨23, 16, ro, 0x10⟩, ⟨15, 8, ro, 8⟩, ⟨7, 0, ro, 0x20⟩]⟩, -- SYS_HIER
  ⟨0x8, [], false, [⟨31, 28, ro, 0⟩, ⟨27, 24, ro, 0⟩, ⟨23, 20, ro, 0⟩, ⟨19, 16, ro, 0⟩, ⟨15, 12, ro, 0⟩, ⟨11, 8, ro, 0⟩, ⟨7, 4, ro, 0⟩, ⟨3, 0, ro, 0⟩]⟩, -- SYS_PLOT_STATE
  ⟨0xc, [], false, [⟨3, 3, w1c, 0⟩, ⟨2, 2, w1c, 0⟩, ⟨1, 1, w1c, 0⟩, ⟨0, 0, w1c, 0⟩]⟩, -- SYS_BUS_ERR
  ⟨0x10, [], false, [⟨31, 0, ro, 0⟩]⟩, -- SYS_BUS_ERR_ADDR_LO
  ⟨0x14, [], false, [⟨8, 8, ro, 0⟩, ⟨7, 0, ro, 0⟩]⟩, -- SYS_BUS_ERR_ADDR_HI
  ⟨0x18, [], false, [⟨31, 16, rc, 0⟩, ⟨15, 0, rc, 0⟩]⟩, -- SYS_BUS_ERR_CNT0
  ⟨0x1c, [], false, [⟨31, 16, rc, 0⟩, ⟨15, 0, rc, 0⟩]⟩, -- SYS_BUS_ERR_CNT1
  ⟨0x20, [], false, [⟨17, 0, ro, 0⟩]⟩, -- SYS_DOMAIN_OK
  ⟨0x100, [], false, [⟨31, 28, ro, 8⟩, ⟨27, 26, ro, 1⟩, ⟨25, 24, ro, 2⟩, ⟨23, 19, ro, 0⟩, ⟨18, 14, ro, 0x10⟩, ⟨13, 12, ro, 2⟩, ⟨7, 0, ro, 0xff⟩]⟩, -- SYS_SPARE0
  ⟨0x104, [], false, [⟨31, 0, ro, 0xffffffff⟩]⟩, -- SYS_SPARE1
  ⟨0x108, [], false, [⟨31, 16, ro, 0x100⟩, ⟨15, 0, ro, 0⟩]⟩, -- SYS_SPARE2
  ⟨0x110, [], false, [⟨4, 4, w1c, 0⟩, ⟨3, 3, w1c, 0⟩, ⟨2, 2, w1c, 0⟩, ⟨1, 1, w1c, 0⟩, ⟨0, 0, w1c, 0⟩]⟩, -- SYS_FAULT_EVT
  ⟨0x114, [], false, [⟨31, 16, rc, 0⟩, ⟨15, 0, rc, 0⟩]⟩, -- SYS_FAULT_EVT_CNT0
  ⟨0x118, [], false, [⟨31, 16, rc, 0⟩, ⟨15, 0, rc, 0⟩]⟩, -- SYS_FAULT_EVT_CNT1
  ⟨0x11c, [], false, [⟨15, 0, rc, 0⟩]⟩, -- SYS_FAULT_EVT_CNT2
  ⟨0x120, [], false, [⟨31, 28, ro, 0⟩, ⟨27, 26, ro, 0⟩, ⟨23, 0, ro, 0⟩]⟩, -- SYS_FAULT_LAST
  ⟨0x124, [], false, [⟨7, 0, ro, 0⟩]⟩, -- SYS_HARROW
  ⟨0x128, [], false, [⟨31, 0, rc, 0⟩]⟩, -- SYS_ENG_DROP
  ⟨0x130, [], false, [⟨3, 0, rw, 0⟩]⟩, -- SYS_WEAR_SEL
  ⟨0x134, [], false, [⟨31, 0, ro, 0⟩]⟩, -- SYS_WEAR_DATA
  ⟨0x200, [], true, [⟨31, 31, so, 0⟩]⟩, -- SYS_PAIR_CFG
  ⟨0x204, [], true, [⟨31, 0, so, 0⟩]⟩, -- SYS_PAIR_PEER_MAC_LO
  ⟨0x208, [], true, [⟨15, 0, so, 0⟩]⟩, -- SYS_PAIR_PEER_MAC_HI
  ⟨0x20c, [], false, [⟨31, 29, ro, 0⟩, ⟨28, 28, ro, 0⟩, ⟨27, 27, ro, 0⟩, ⟨26, 26, ro, 0⟩, ⟨25, 25, ro, 0⟩, ⟨24, 24, ro, 0⟩]⟩, -- SYS_PAIR_STATUS
  ⟨0x210, [], false, [⟨31, 0, ro, 0⟩]⟩, -- SYS_PAIR_EPOCH
  ⟨0x214, [], false, [⟨15, 0, ro, 0xffff⟩]⟩, -- SYS_PAIR_LEASE
  ⟨0x218, [], false, [⟨31, 0, ro, 0xffffffff⟩]⟩, -- SYS_PAIR_CKPT
  ⟨0x21c, [], false, [⟨5, 5, w1c, 0⟩, ⟨4, 4, w1c, 0⟩, ⟨3, 3, w1c, 0⟩, ⟨2, 2, w1c, 0⟩, ⟨1, 1, w1c, 0⟩, ⟨0, 0, w1c, 0⟩]⟩, -- SYS_PAIR_EVT
  ⟨0x220, [], false, [⟨31, 16, rc, 0⟩, ⟨15, 0, rc, 0⟩]⟩, -- SYS_PAIR_EVT_CNT0
  ⟨0x224, [], false, [⟨31, 16, rc, 0⟩, ⟨15, 0, rc, 0⟩]⟩, -- SYS_PAIR_EVT_CNT1
  ⟨0x228, [], false, [⟨31, 16, rc, 0⟩, ⟨15, 0, rc, 0⟩]⟩, -- SYS_PAIR_EVT_CNT2
  ⟨0x22c, [], false, [⟨13, 0, ro, 0⟩]⟩, -- SYS_GHOST_USED
  ⟨0x300, [], false, [⟨7, 7, w1c, 0⟩, ⟨6, 6, w1c, 0⟩, ⟨5, 5, w1c, 0⟩, ⟨4, 4, w1c, 0⟩, ⟨3, 3, w1c, 0⟩, ⟨2, 2, w1c, 0⟩, ⟨1, 1, w1c, 0⟩, ⟨0, 0, w1c, 0⟩]⟩, -- SYS_RST_CAUSE
  ⟨0x304, [], false, [⟨31, 16, wo, 0⟩, ⟨3, 0, wo, 0⟩]⟩, -- SYS_RST_CMD
  ⟨0x308, [], false, [⟨2, 2, ro, 0⟩, ⟨1, 1, ro, 0⟩, ⟨0, 0, ro, 0⟩]⟩, -- SYS_PWR_STATUS
  ⟨0x30c, [], false, [⟨31, 0, ro, 0⟩]⟩, -- SYS_START_CTRL_MS
  ⟨0x310, [], false, [⟨31, 0, ro, 0⟩]⟩, -- SYS_START_LIGHT_MS
  ⟨0x314, [], false, [⟨31, 0, ro, 0⟩]⟩, -- SYS_START_FWD_MS
  ⟨0x318, [], false, [⟨31, 31, rw, 1⟩, ⟨15, 0, rw, 0x64⟩]⟩ ] -- SYS_WDOG_CFG

/-- Register rows of block SYS, part 1. -/
def regMapSys1 : List RegRow := [
  ⟨0x31c, [], false, [⟨31, 0, wo, 0⟩]⟩, -- SYS_WDOG_KICK
  ⟨0x320, [], false, [⟨1, 0, ro, 0⟩]⟩, -- SYS_WDOG_CNT
  ⟨0x324, [], false, [⟨31, 0, ro, 0⟩]⟩ ] -- SYS_PWR_CYCLES

/-- Every register row of block SYS. -/
def regMapSys : List RegRow := regMapSys0 ++ regMapSys1

/-- Register rows of block TIME. -/
def regMapTime : List RegRow := [
  ⟨0x0, [], false, [⟨31, 0, ro, 0⟩]⟩, -- TIME_NOW0
  ⟨0x4, [], false, [⟨31, 0, ro, 0⟩]⟩, -- TIME_NOW1
  ⟨0x8, [], false, [⟨31, 0, ro, 0⟩]⟩, -- TIME_NOW2
  ⟨0xc, [], false, [⟨7, 0, ro, 0⟩]⟩, -- TIME_NOW_STEP
  ⟨0x10, [], false, [⟨31, 0, rw, 0x9999999a⟩]⟩, -- TIME_INCR_LO
  ⟨0x14, [], false, [⟨7, 0, rw, 1⟩]⟩, -- TIME_INCR_HI
  ⟨0x18, [], false, [⟨31, 0, rw, 0⟩]⟩, -- TIME_ADJ
  ⟨0x1c, [], false, [⟨8, 0, rw, 0x1f4⟩]⟩, -- TIME_SLEW
  ⟨0x20, [(0x4, 3)], false, [⟨31, 0, rw, 0⟩]⟩, -- TIME_SET
  ⟨0x30, [], false, [⟨31, 0, rw, 0⟩]⟩, -- TIME_OFS_LO
  ⟨0x34, [], false, [⟨31, 0, rw, 0⟩]⟩, -- TIME_OFS_HI
  ⟨0x38, [], false, [⟨3, 0, wo, 0⟩]⟩, -- TIME_CMD
  ⟨0x40, [], false, [⟨31, 31, ro, 0⟩, ⟨7, 0, ro, 0⟩]⟩, -- TIME_STATUS
  ⟨0x44, [], false, [⟨31, 0, ro, 0⟩]⟩, -- TIME_ADJ_LEFT
  ⟨0x48, [], false, [⟨31, 29, rw, 0⟩, ⟨28, 27, rw, 0⟩, ⟨8, 0, rw, 0x100⟩]⟩, -- TIME_SYNC
  ⟨0x4c, [], false, [⟨31, 0, rw, 0⟩]⟩, -- TIME_UTCOFF
  ⟨0x50, [], false, [⟨1, 0, rw, 0⟩]⟩, -- TIME_SRC_CFG
  ⟨0x60, [], false, [⟨5, 5, w1c, 0⟩, ⟨4, 4, w1c, 0⟩, ⟨3, 3, w1c, 0⟩, ⟨2, 2, w1c, 0⟩, ⟨1, 1, w1c, 0⟩, ⟨0, 0, w1c, 0⟩]⟩, -- TIME_EVT
  ⟨0x64, [], false, [⟨31, 16, rc, 0⟩, ⟨15, 0, rc, 0⟩]⟩, -- TIME_EVT_CNT0
  ⟨0x68, [], false, [⟨31, 16, rc, 0⟩, ⟨15, 0, rc, 0⟩]⟩, -- TIME_EVT_CNT1
  ⟨0x6c, [], false, [⟨31, 16, rc, 0⟩, ⟨15, 0, rc, 0⟩]⟩, -- TIME_EVT_CNT2
  ⟨0x80, [], true, [⟨31, 31, so, 1⟩, ⟨9, 0, so, 0x64⟩]⟩, -- TIME_CAL_CFG
  ⟨0x84, [], false, [⟨17, 0, ro, 0⟩]⟩, -- TIME_CAL_USED
  ⟨0x88, [], false, [⟨17, 0, rc, 0⟩]⟩, -- TIME_CAL_PEAK
  ⟨0x8c, [], false, [⟨31, 0, rc, 0⟩]⟩, -- TIME_CAL_LATE
  ⟨0xa0, [], false, [⟨31, 31, rw, 1⟩, ⟨30, 30, rw, 0⟩, ⟨29, 29, rw, 1⟩, ⟨24, 16, rw, 0x64⟩, ⟨15, 0, rw, 0⟩]⟩, -- TIME_PPS_CFG
  ⟨0xa4, [(0x4, 3)], false, [⟨31, 0, ro, 0⟩]⟩, -- TIME_PPS_IN
  ⟨0xb0, [], false, [⟨31, 31, ro, 0⟩, ⟨7, 0, ro, 0⟩]⟩, -- TIME_PPS_IN_STEP
  ⟨0xc0, [], false, [⟨31, 31, rw, 0⟩]⟩, -- TIME_SYNCE_CFG
  ⟨0xc4, [(0x4, 4)], true, [⟨31, 31, so, 0⟩, ⟨7, 0, so, 0⟩]⟩, -- TIME_SYNCE_SRC
  ⟨0xd4, [], false, [⟨31, 30, ro, 0⟩, ⟨29, 28, ro, 0⟩, ⟨7, 0, ro, 0⟩]⟩, -- TIME_SYNCE_STATUS
  ⟨0x100, [(0x10, 8)], false, [⟨6, 0, ro, 0⟩]⟩, -- TIME_TS_STATUS
  ⟨0x104, [(0x10, 8)], false, [⟨0, 0, w1c, 0⟩]⟩, -- TIME_TS_EVT
  ⟨0x108, [(0x10, 8)], false, [⟨15, 0, rc, 0⟩]⟩, -- TIME_TS_EVT_CNT
  ⟨0x200, [(0x10, 8)], false, [⟨31, 16, ro, 0⟩, ⟨15, 8, ro, 0⟩, ⟨7, 0, ro, 0⟩]⟩, -- TIME_TS_DATA0
  ⟨0x204, [(0x10, 8), (0x4, 3)], false, [⟨31, 0, ro, 0⟩]⟩, -- TIME_TS_DATA123
  ⟨0x10000, [(0x100, 128), (0x8, 17)], false, [⟨19, 0, rw, 0⟩]⟩, -- TIME_NODE_DLY_A
  ⟨0x10004, [(0x100, 128), (0x8, 17)], false, [⟨19, 0, rw, 0⟩]⟩, -- TIME_NODE_DLY_B
  ⟨0x20000, [(0x4, 256)], true, [⟨31, 31, so, 0⟩, ⟨30, 30, so, 0⟩, ⟨15, 0, so, 0⟩]⟩ ] -- TIME_PTP_PORT

/-- Register rows of block RTC. -/
def regMapRtc : List RegRow := [
  ⟨0x0, [], false, [⟨26, 24, rw, 0⟩, ⟨20, 16, rw, 0⟩, ⟨13, 8, rw, 0⟩, ⟨5, 0, rw, 0⟩]⟩, -- RTC_TIME
  ⟨0x4, [], false, [⟨19, 12, rw, 0⟩, ⟨11, 8, rw, 1⟩, ⟨4, 0, rw, 1⟩]⟩, -- RTC_DATE
  ⟨0x8, [], false, [⟨16, 0, ro, 0⟩]⟩, -- RTC_SUBSEC
  ⟨0x10, [], false, [⟨31, 31, ro, 0⟩, ⟨30, 30, ro, 0⟩, ⟨29, 29, ro, 0⟩]⟩, -- RTC_STATUS
  ⟨0x14, [], false, [⟨15, 0, ro, 0⟩]⟩, -- RTC_TEMP
  ⟨0x18, [], false, [⟨12, 0, ro, 0⟩]⟩, -- RTC_COMP
  ⟨0x1c, [], false, [⟨31, 0, ro, 0⟩]⟩, -- RTC_COMP_PPB
  ⟨0x20, [], false, [⟨31, 0, rw, 0⟩]⟩, -- RTC_TRIM
  ⟨0x24, [], false, [⟨3, 0, wo, 0⟩]⟩, -- RTC_CMD
  ⟨0x28, [], false, [⟨4, 4, w1c, 0⟩, ⟨3, 3, w1c, 0⟩, ⟨2, 2, w1c, 0⟩, ⟨1, 1, w1c, 0⟩, ⟨0, 0, w1c, 0⟩]⟩, -- RTC_EVT
  ⟨0x2c, [], false, [⟨31, 16, rc, 0⟩, ⟨15, 0, rc, 0⟩]⟩, -- RTC_EVT_CNT0
  ⟨0x30, [], false, [⟨31, 16, rc, 0⟩, ⟨15, 0, rc, 0⟩]⟩, -- RTC_EVT_CNT1
  ⟨0x34, [], false, [⟨15, 0, rc, 0⟩]⟩, -- RTC_EVT_CNT2
  ⟨0x40, [(0x8, 2)], false, [⟨31, 29, rw, 0⟩, ⟨28, 25, rw, 0⟩, ⟨24, 20, rw, 0⟩, ⟨16, 12, rw, 0⟩, ⟨11, 6, rw, 0⟩, ⟨5, 0, rw, 0⟩]⟩, -- RTC_ALM_CMP
  ⟨0x44, [(0x8, 2)], false, [⟨31, 31, rw, 0⟩, ⟨30, 30, rw, 0⟩, ⟨5, 0, rw, 0x3f⟩]⟩, -- RTC_ALM_CTL
  ⟨0x80, [(0x4, 32)], false, [⟨31, 0, rw, 0⟩]⟩ ] -- RTC_CURVE

/-- Register rows of block KEY. -/
def regMapKey : List RegRow := [
  ⟨0x0, [], false, [⟨31, 29, ro, 0⟩, ⟨28, 28, ro, 0⟩, ⟨27, 25, ro, 0⟩, ⟨24, 24, ro, 0⟩, ⟨23, 19, ro, 0⟩]⟩, -- KEY_LC_STATUS
  ⟨0x4, [], false, [⟨31, 16, wo, 0⟩, ⟨3, 0, wo, 0⟩]⟩, -- KEY_LC_CMD
  ⟨0x8, [], false, [⟨31, 0, ro, 0⟩]⟩, -- KEY_LC_NONCE_LO
  ⟨0xc, [], false, [⟨31, 0, ro, 0⟩]⟩, -- KEY_LC_NONCE_HI
  ⟨0x10, [], false, [⟨31, 31, ro, 0⟩, ⟨30, 30, ro, 0⟩, ⟨29, 29, ro, 0⟩, ⟨28, 25, ro, 0⟩, ⟨24, 17, ro, 0⟩]⟩, -- KEY_STATUS
  ⟨0x14, [], false, [⟨7, 7, w1c, 0⟩, ⟨6, 6, w1c, 0⟩, ⟨5, 5, w1c, 0⟩, ⟨4, 4, w1c, 0⟩, ⟨3, 3, w1c, 0⟩, ⟨2, 2, w1c, 0⟩, ⟨1, 1, w1c, 0⟩, ⟨0, 0, w1c, 0⟩]⟩, -- KEY_EVT
  ⟨0x18, [], false, [⟨31, 16, rc, 0⟩, ⟨15, 0, rc, 0⟩]⟩, -- KEY_EVT_CNT0
  ⟨0x1c, [], false, [⟨31, 16, rc, 0⟩, ⟨15, 0, rc, 0⟩]⟩, -- KEY_EVT_CNT1
  ⟨0x20, [], false, [⟨31, 16, rc, 0⟩, ⟨15, 0, rc, 0⟩]⟩, -- KEY_EVT_CNT2
  ⟨0x24, [], false, [⟨31, 16, rc, 0⟩, ⟨15, 0, rc, 0⟩]⟩, -- KEY_EVT_CNT3
  ⟨0x30, [], false, [⟨22, 16, ro, 0⟩, ⟨6, 0, ro, 0⟩]⟩, -- KEY_TAMP_STATUS
  ⟨0x34, [], false, [⟨1, 0, rw, 0⟩]⟩, -- KEY_TAMP_CFG
  ⟨0x38, [], false, [⟨15, 0, ro, 0⟩]⟩, -- KEY_TAMP_TEMP
  ⟨0x100, [], false, [⟨25, 18, wo, 0xff⟩, ⟨17, 10, wo, 0xff⟩, ⟨5, 0, wo, 0⟩]⟩, -- KEY_OP_CMD
  ⟨0x104, [], false, [⟨31, 16, rw, 0⟩, ⟨12, 0, rw, 0⟩]⟩, -- KEY_OP_LEN
  ⟨0x108, [], false, [⟨31, 28, rw, 0⟩, ⟨27, 23, rw, 0⟩, ⟨22, 18, rw, 0⟩, ⟨17, 17, rw, 0⟩, ⟨16, 16, rw, 0⟩]⟩, -- KEY_OP_ATTR
  ⟨0x10c, [], false, [⟨31, 0, rw, 0⟩]⟩, -- KEY_OP_LABEL
  ⟨0x110, [], false, [⟨31, 31, ro, 0⟩, ⟨23, 16, ro, 0⟩, ⟨12, 0, ro, 0⟩]⟩, -- KEY_OP_STATUS
  ⟨0x114, [], false, [⟨31, 0, ro, 0⟩]⟩, -- KEY_OP_TIME
  ⟨0x118, [], false, [⟨6, 0, rw, 0⟩]⟩, -- KEY_PUB_SEL
  ⟨0x1000, [(0x4, 1024)], false, [⟨31, 0, rw, 0⟩]⟩, -- KEY_BUF
  ⟨0x2000, [(0x10, 128)], false, [⟨31, 31, ro, 0⟩, ⟨30, 27, ro, 0⟩, ⟨26, 22, ro, 0⟩, ⟨21, 17, ro, 0⟩, ⟨16, 15, ro, 0⟩, ⟨14, 14, ro, 0⟩, ⟨13, 13, ro, 0⟩, ⟨12, 12, ro, 0⟩, ⟨9, 0, ro, 0⟩]⟩, -- KEY_SLOT_INFO
  ⟨0x2004, [(0x10, 128)], false, [⟨31, 0, ro, 0⟩]⟩, -- KEY_SLOT_LABEL
  ⟨0x2008, [(0x10, 128)], false, [⟨7, 0, ro, 0⟩]⟩, -- KEY_SLOT_GEN
  ⟨0x3000, [(0x4, 16)], false, [⟨31, 0, ro, 0⟩]⟩, -- KEY_PUB
  ⟨0x3100, [(0x4, 12)], false, [⟨31, 0, ro, 0⟩]⟩ ] -- KEY_MB

/-- Register rows of block RCD. -/
def regMapRcd : List RegRow := [
  ⟨0x0, [], false, [⟨1, 0, rw, 2⟩]⟩, -- REC_CFG
  ⟨0x4, [], false, [⟨3, 0, wo, 0⟩]⟩, -- REC_CMD
  ⟨0x8, [], false, [⟨31, 31, ro, 0⟩, ⟨30, 30, ro, 0⟩, ⟨3, 2, ro, 0⟩, ⟨1, 0, ro, 1⟩]⟩, -- REC_STATUS
  ⟨0xc, [], false, [⟨4, 4, w1c, 0⟩, ⟨3, 3, w1c, 0⟩, ⟨2, 2, w1c, 0⟩, ⟨1, 1, w1c, 0⟩, ⟨0, 0, w1c, 0⟩]⟩, -- REC_EVT
  ⟨0x10, [], false, [⟨31, 16, rc, 0⟩, ⟨15, 0, rc, 0⟩]⟩, -- REC_EVT_CNT0
  ⟨0x14, [], false, [⟨31, 16, rc, 0⟩, ⟨15, 0, rc, 0⟩]⟩, -- REC_EVT_CNT1
  ⟨0x18, [], false, [⟨15, 0, rc, 0⟩]⟩, -- REC_EVT_CNT2
  ⟨0x20, [], false, [⟨31, 0, ro, 0⟩]⟩, -- REC_FIRST_SEQ_LO
  ⟨0x24, [], false, [⟨31, 0, ro, 0⟩]⟩, -- REC_FIRST_SEQ_HI
  ⟨0x28, [], false, [⟨31, 0, ro, 0⟩]⟩, -- REC_LAST_SEQ_LO
  ⟨0x2c, [], false, [⟨31, 0, ro, 0⟩]⟩, -- REC_LAST_SEQ_HI
  ⟨0x30, [], false, [⟨31, 0, ro, 0⟩]⟩, -- REC_FLASH_SEQ_LO
  ⟨0x34, [], false, [⟨31, 0, ro, 0⟩]⟩, -- REC_FLASH_SEQ_HI
  ⟨0x38, [], false, [⟨31, 0, ro, 0⟩]⟩, -- REC_LOST_PEND
  ⟨0x3c, [], false, [⟨31, 0, rc, 0⟩]⟩, -- REC_LOST_TOTAL
  ⟨0x40, [], false, [⟨8, 0, ro, 0x100⟩]⟩, -- REC_LOG_SIZE
  ⟨0x44, [], false, [⟨31, 0, rc, 0⟩]⟩, -- REC_LOG_GAP_CNT
  ⟨0x48, [], false, [⟨31, 0, rw, 0⟩]⟩, -- REC_SEL_SEQ_LO
  ⟨0x4c, [], false, [⟨31, 0, rw, 0⟩]⟩, -- REC_SEL_SEQ_HI
  ⟨0x50, [], false, [⟨2, 0, ro, 0⟩]⟩, -- REC_SEL_STATUS
  ⟨0x58, [], false, [⟨31, 0, rw, 0⟩]⟩, -- REC_COPY_SEQ_LO
  ⟨0x5c, [], false, [⟨31, 0, rw, 0⟩]⟩, -- REC_COPY_SEQ_HI
  ⟨0x60, [], false, [⟨31, 0, rw, 0⟩]⟩, -- REC_COPY_ADDR_LO
  ⟨0x64, [], false, [⟨7, 0, rw, 0⟩]⟩, -- REC_COPY_ADDR_HI
  ⟨0x68, [], false, [⟨25, 0, rw, 0⟩]⟩, -- REC_COPY_LEN
  ⟨0x70, [], false, [⟨31, 0, ro, 0⟩]⟩, -- REC_COPY_LAST_LO
  ⟨0x74, [], false, [⟨31, 0, ro, 0⟩]⟩, -- REC_COPY_LAST_HI
  ⟨0x78, [], false, [⟨25, 0, ro, 0⟩]⟩, -- REC_COPY_BYTES
  ⟨0x80, [], false, [⟨31, 31, ro, 0⟩, ⟨1, 1, ro, 1⟩, ⟨0, 0, ro, 1⟩]⟩, -- REC_LDG_STATUS
  ⟨0x84, [], false, [⟨2, 2, w1c, 0⟩, ⟨1, 1, w1c, 0⟩, ⟨0, 0, w1c, 0⟩]⟩, -- REC_LDG_EVT
  ⟨0x88, [], false, [⟨31, 16, rc, 0⟩, ⟨15, 0, rc, 0⟩]⟩, -- REC_LDG_EVT_CNT0
  ⟨0x8c, [], false, [⟨15, 0, rc, 0⟩]⟩, -- REC_LDG_EVT_CNT1
  ⟨0x90, [], false, [⟨31, 0, ro, 0⟩]⟩, -- REC_LDG_SEQ_LO
  ⟨0x94, [], false, [⟨31, 0, ro, 0⟩]⟩, -- REC_LDG_SEQ_HI
  ⟨0x98, [], false, [⟨23, 2, rw, 0⟩]⟩, -- REC_LDG_ADDR
  ⟨0x9c, [], false, [⟨31, 0, ro, 0⟩]⟩, -- REC_LDG_DATA
  ⟨0xa0, [], false, [⟨31, 30, wo, 0⟩, ⟨26, 16, wo, 0⟩, ⟨15, 0, wo, 0⟩]⟩, -- REC_APP_HDR
  ⟨0xa4, [], false, [⟨15, 0, rw, 0xffff⟩]⟩, -- REC_APP_SRC
  ⟨0x100, [(0x4, 268)], false, [⟨31, 0, ro, 0⟩]⟩, -- REC_SEL_DATA
  ⟨0x600, [(0x4, 256)], false, [⟨31, 0, rw, 0⟩]⟩ ] -- REC_APP_DATA

/-- Register rows of block FE, part 0. -/
def regMapFe0 : List RegRow := [
  ⟨0x0, [(0x100000, 18)], false, [⟨3, 0, wo, 0⟩]⟩, -- FE_CMD
  ⟨0x4, [(0x100000, 18)], false, [⟨31, 24, ro, 0xff⟩, ⟨23, 20, ro, 0⟩, ⟨19, 16, ro, 0⟩]⟩, -- FE_STATUS
  ⟨0x8, [(0x100000, 18)], false, [⟨1, 1, rw, 0⟩, ⟨0, 0, rw, 0⟩]⟩, -- FE_CFG
  ⟨0xc, [(0x100000, 18)], false, [⟨15, 0, rw, 0⟩]⟩, -- FE_PC
  ⟨0x10, [(0x100000, 18)], false, [⟨23, 16, ro, 0⟩, ⟨15, 0, ro, 0⟩]⟩, -- FE_EXC
  ⟨0x14, [(0x100000, 18)], false, [⟨31, 0, ro, 0⟩]⟩, -- FE_EXC_ADDR
  ⟨0x18, [(0x100000, 18)], false, [⟨3, 3, w1c, 0⟩, ⟨2, 2, w1c, 0⟩, ⟨1, 1, w1c, 0⟩, ⟨0, 0, w1c, 0⟩]⟩, -- FE_EVT
  ⟨0x1c, [(0x100000, 18)], false, [⟨31, 16, rc, 0⟩, ⟨15, 0, rc, 0⟩]⟩, -- FE_EVT_CNT0
  ⟨0x20, [(0x100000, 18)], false, [⟨31, 16, rc, 0⟩, ⟨15, 0, rc, 0⟩]⟩, -- FE_EVT_CNT1
  ⟨0x30, [(0x100000, 18), (0x4, 4)], false, [⟨31, 31, rw, 0⟩, ⟨15, 0, rw, 0⟩]⟩, -- FE_BRK
  ⟨0x40, [(0x100000, 18)], false, [⟨31, 31, rw, 0⟩, ⟨30, 30, rw, 0⟩, ⟨29, 29, rw, 0⟩, ⟨23, 0, rw, 0⟩]⟩, -- FE_WATCH
  ⟨0x50, [(0x100000, 18)], false, [⟨10, 8, rw, 0⟩, ⟨7, 7, rw, 0⟩, ⟨4, 0, rw, 0⟩]⟩, -- FE_DBG_SEL
  ⟨0x54, [(0x100000, 18)], false, [⟨31, 0, rw, 0⟩]⟩, -- FE_DBG_DATA_LO
  ⟨0x58, [(0x100000, 18)], false, [⟨31, 0, rw, 0⟩]⟩, -- FE_DBG_DATA_HI
  ⟨0x60, [(0x100000, 18)], false, [⟨17, 2, rw, 0⟩]⟩, -- FE_LS_ADDR
  ⟨0x64, [(0x100000, 18)], false, [⟨31, 0, rw, 0⟩]⟩, -- FE_LS_DATA
  ⟨0x70, [(0x100000, 18)], false, [⟨31, 0, ro, 0⟩]⟩, -- FE_INSN_LO
  ⟨0x74, [(0x100000, 18)], false, [⟨31, 0, ro, 0⟩]⟩, -- FE_INSN_HI
  ⟨0x78, [(0x100000, 18)], false, [⟨15, 0, rc, 0⟩]⟩, -- FE_ECC_CNT
  ⟨0x80000, [(0x4, 4)], false, [⟨28, 24, ro, 0x1f⟩, ⟨20, 16, ro, 0x1f⟩, ⟨12, 8, ro, 0x1f⟩, ⟨4, 0, ro, 0x1f⟩]⟩, -- FE_MAP
  ⟨0x80010, [], false, [⟨7, 4, rw, 0⟩, ⟨3, 0, rw, 0⟩]⟩, -- FE_STEER
  ⟨0x80100, [], false, [⟨2, 0, rw, 0⟩]⟩, -- FE_SHF_SEL
  ⟨0x80104, [], false, [⟨3, 0, wo, 0⟩]⟩, -- FE_SHF_CMD
  ⟨0x80108, [], false, [⟨31, 24, ro, 0⟩, ⟨20, 16, ro, 0x1f⟩, ⟨3, 0, ro, 0⟩]⟩, -- FE_SHF_STATUS
  ⟨0x8010c, [], false, [⟨16, 0, ro, 0⟩]⟩, -- FE_SHF_COUNT
  ⟨0x80110, [], false, [⟨31, 0, rw, 0⟩]⟩, -- FE_SHF_ADDR
  ⟨0x80114, [], false, [⟨1, 0, rw, 0⟩]⟩, -- FE_SHF_SPACE
  ⟨0x80118, [], false, [⟨31, 0, rw, 0xffffffff⟩]⟩, -- FE_SHF_MASK
  ⟨0x8011c, [], false, [⟨31, 0, wo, 0⟩]⟩, -- FE_SHF_DATA
  ⟨0x80120, [(0x4, 3)], false, [⟨31, 0, rw, 0⟩]⟩, -- FE_SHF_WHEN
  ⟨0x8012c, [], false, [⟨0, 0, rw, 0⟩]⟩, -- FE_SHF_TIMED
  ⟨0x80130, [], false, [⟨31, 24, ro, 0⟩, ⟨16, 16, ro, 0⟩, ⟨15, 0, ro, 0⟩]⟩, -- FE_SHF_FAIL
  ⟨0x80134, [], false, [⟨31, 0, ro, 0⟩]⟩, -- FE_SHF_SEQ
  ⟨0x80138, [], false, [⟨5, 5, w1c, 0⟩, ⟨4, 4, w1c, 0⟩, ⟨3, 3, w1c, 0⟩, ⟨2, 2, w1c, 0⟩, ⟨1, 1, w1c, 0⟩, ⟨0, 0, w1c, 0⟩]⟩, -- FE_SHF_EVT
  ⟨0x8013c, [], false, [⟨31, 16, rc, 0⟩, ⟨15, 0, rc, 0⟩]⟩, -- FE_SHF_EVT_CNT0
  ⟨0x80140, [], false, [⟨31, 16, rc, 0⟩, ⟨15, 0, rc, 0⟩]⟩, -- FE_SHF_EVT_CNT1
  ⟨0x80144, [], false, [⟨31, 16, rc, 0⟩, ⟨15, 0, rc, 0⟩]⟩, -- FE_SHF_EVT_CNT2
  ⟨0x80200, [], false, [⟨3, 0, wo, 0⟩]⟩, -- QU_INTAKE_CMD
  ⟨0x80204, [], false, [⟨31, 31, ro, 0⟩, ⟨30, 30, ro, 0⟩, ⟨29, 29, ro, 1⟩, ⟨28, 28, ro, 0⟩, ⟨27, 27, ro, 0⟩, ⟨16, 0, ro, 0⟩]⟩, -- QU_INTAKE_STATUS
  ⟨0x80208, [], false, [⟨16, 0, rw, 0xc000⟩]⟩ ] -- QU_INTAKE_WM_HIGH

/-- Register rows of block FE, part 1. -/
def regMapFe1 : List RegRow := [
  ⟨0x8020c, [], false, [⟨16, 0, rw, 0x4000⟩]⟩, -- QU_INTAKE_WM_LOW
  ⟨0x80210, [], false, [⟨3, 3, w1c, 0⟩, ⟨2, 2, w1c, 0⟩, ⟨1, 1, w1c, 0⟩, ⟨0, 0, w1c, 0⟩]⟩, -- QU_INTAKE_EVT
  ⟨0x80214, [], false, [⟨31, 16, rc, 0⟩, ⟨15, 0, rc, 0⟩]⟩, -- QU_INTAKE_EVT_CNT0
  ⟨0x80218, [], false, [⟨31, 16, rc, 0⟩, ⟨15, 0, rc, 0⟩]⟩, -- QU_INTAKE_EVT_CNT1
  ⟨0x8021c, [], false, [⟨31, 0, ro, 0⟩]⟩, -- QU_INTAKE_DATA
  ⟨0x80220, [], false, [⟨16, 0, ro, 0x10000⟩]⟩, -- QU_INTAKE_CAP
  ⟨0x80224, [], false, [⟨7, 0, ro, 8⟩]⟩, -- QU_INTAKE_ITEM
  ⟨0x80228, [], false, [⟨16, 0, rc, 0⟩]⟩, -- QU_INTAKE_PEAK
  ⟨0x80400, [(0x40, 16)], false, [⟨3, 0, wo, 0⟩]⟩, -- QU_CPL_CMD
  ⟨0x80404, [(0x40, 16)], false, [⟨31, 31, ro, 0⟩, ⟨30, 30, ro, 0⟩, ⟨29, 29, ro, 1⟩, ⟨28, 28, ro, 0⟩, ⟨27, 27, ro, 0⟩, ⟨16, 0, ro, 0⟩]⟩, -- QU_CPL_STATUS
  ⟨0x80408, [(0x40, 16)], false, [⟨16, 0, rw, 0xc00⟩]⟩, -- QU_CPL_WM_HIGH
  ⟨0x8040c, [(0x40, 16)], false, [⟨16, 0, rw, 0x400⟩]⟩, -- QU_CPL_WM_LOW
  ⟨0x80410, [(0x40, 16)], false, [⟨3, 3, w1c, 0⟩, ⟨2, 2, w1c, 0⟩, ⟨1, 1, w1c, 0⟩, ⟨0, 0, w1c, 0⟩]⟩, -- QU_CPL_EVT
  ⟨0x80414, [(0x40, 16)], false, [⟨31, 16, rc, 0⟩, ⟨15, 0, rc, 0⟩]⟩, -- QU_CPL_EVT_CNT0
  ⟨0x80418, [(0x40, 16)], false, [⟨31, 16, rc, 0⟩, ⟨15, 0, rc, 0⟩]⟩, -- QU_CPL_EVT_CNT1
  ⟨0x8041c, [(0x40, 16)], false, [⟨31, 0, ro, 0⟩]⟩, -- QU_CPL_DATA
  ⟨0x80420, [(0x40, 16)], false, [⟨16, 0, ro, 0x1000⟩]⟩, -- QU_CPL_CAP
  ⟨0x80424, [(0x40, 16)], false, [⟨7, 0, ro, 8⟩]⟩, -- QU_CPL_ITEM
  ⟨0x80428, [(0x40, 16)], false, [⟨16, 0, rc, 0⟩]⟩, -- QU_CPL_PEAK
  ⟨0x80800, [], false, [⟨17, 0, ro, 0⟩]⟩, -- HND_INUSE
  ⟨0x80804, [], false, [⟨17, 0, rw, 0x20000⟩]⟩, -- HND_ENG_QUOTA
  ⟨0x80808, [], false, [⟨17, 0, ro, 0⟩]⟩, -- HND_ENG_INUSE
  ⟨0x8080c, [], false, [⟨23, 16, rw, 0xa⟩, ⟨15, 8, rw, 0xfa⟩, ⟨7, 0, rw, 0xa⟩]⟩, -- HND_TMO
  ⟨0x80810, [], false, [⟨2, 2, w1c, 0⟩, ⟨1, 1, w1c, 0⟩, ⟨0, 0, w1c, 0⟩]⟩, -- HND_EVT
  ⟨0x80814, [], false, [⟨31, 16, rc, 0⟩, ⟨15, 0, rc, 0⟩]⟩, -- HND_EVT_CNT0
  ⟨0x80818, [], false, [⟨15, 0, rc, 0⟩]⟩, -- HND_EVT_CNT1
  ⟨0x8081c, [], false, [⟨15, 0, ro, 0⟩]⟩, -- HND_SESS_OVER
  ⟨0x80880, [(0x4, 16)], false, [⟨17, 0, rw, 0x2000⟩]⟩, -- HND_SESS_QUOTA
  ⟨0x808c0, [(0x4, 16)], false, [⟨17, 0, ro, 0⟩]⟩, -- HND_SESS_INUSE
  ⟨0x80a00, [], false, [⟨31, 16, rw, 0xc8⟩, ⟨0, 0, rw, 1⟩]⟩, -- STORM_CTRL
  ⟨0x80a04, [], false, [⟨31, 30, ro, 0⟩, ⟨17, 0, ro, 0⟩]⟩, -- STORM_STATUS
  ⟨0x80a08, [], false, [⟨31, 0, rc, 0⟩]⟩, -- STORM_DROPPED
  ⟨0x80a0c, [], false, [⟨1, 1, w1c, 0⟩, ⟨0, 0, w1c, 0⟩]⟩, -- STORM_EVT
  ⟨0x80a10, [], false, [⟨31, 16, rc, 0⟩, ⟨15, 0, rc, 0⟩]⟩ ] -- STORM_EVT_CNT

/-- Every register row of block FE. -/
def regMapFe : List RegRow := regMapFe0 ++ regMapFe1

/-- Register rows of block FAB, part 0. -/
def regMapFab0 : List RegRow := [
  ⟨0x10, [(0x1000000, 8), (0x4, 9)], false, [⟨31, 31, ro, 0⟩, ⟨15, 0, ro, 0⟩]⟩, -- FAB_SPEED
  ⟨0x40, [(0x1000000, 8)], false, [⟨23, 21, rw, 7⟩, ⟨20, 18, rw, 6⟩, ⟨17, 15, rw, 5⟩, ⟨14, 12, rw, 4⟩, ⟨11, 9, rw, 3⟩, ⟨8, 6, rw, 2⟩, ⟨5, 3, rw, 0⟩, ⟨2, 0, rw, 1⟩]⟩, -- FAB_PCP_MAP
  ⟨0x44, [(0x1000000, 8)], false, [⟨23, 21, rw, 0⟩, ⟨20, 18, rw, 0⟩, ⟨17, 15, rw, 0⟩, ⟨14, 12, rw, 0⟩, ⟨11, 9, rw, 0⟩, ⟨8, 6, rw, 0⟩, ⟨5, 3, rw, 0⟩, ⟨2, 0, rw, 0⟩]⟩, -- FAB_DSCP_MAP
  ⟨0x48, [(0x1000000, 8)], false, [⟨23, 21, rw, 1⟩, ⟨20, 18, rw, 1⟩, ⟨17, 15, rw, 1⟩, ⟨14, 12, rw, 1⟩, ⟨11, 9, rw, 1⟩, ⟨8, 6, rw, 1⟩, ⟨5, 3, rw, 1⟩, ⟨2, 0, rw, 1⟩]⟩, -- FAB_DSCP_MAP
  ⟨0x4c, [(0x1000000, 8)], false, [⟨23, 21, rw, 2⟩, ⟨20, 18, rw, 2⟩, ⟨17, 15, rw, 2⟩, ⟨14, 12, rw, 2⟩, ⟨11, 9, rw, 2⟩, ⟨8, 6, rw, 2⟩, ⟨5, 3, rw, 2⟩, ⟨2, 0, rw, 2⟩]⟩, -- FAB_DSCP_MAP
  ⟨0x50, [(0x1000000, 8)], false, [⟨23, 21, rw, 3⟩, ⟨20, 18, rw, 3⟩, ⟨17, 15, rw, 3⟩, ⟨14, 12, rw, 3⟩, ⟨11, 9, rw, 3⟩, ⟨8, 6, rw, 3⟩, ⟨5, 3, rw, 3⟩, ⟨2, 0, rw, 3⟩]⟩, -- FAB_DSCP_MAP
  ⟨0x54, [(0x1000000, 8)], false, [⟨23, 21, rw, 4⟩, ⟨20, 18, rw, 4⟩, ⟨17, 15, rw, 4⟩, ⟨14, 12, rw, 4⟩, ⟨11, 9, rw, 4⟩, ⟨8, 6, rw, 4⟩, ⟨5, 3, rw, 4⟩, ⟨2, 0, rw, 4⟩]⟩, -- FAB_DSCP_MAP
  ⟨0x58, [(0x1000000, 8)], false, [⟨23, 21, rw, 5⟩, ⟨20, 18, rw, 5⟩, ⟨17, 15, rw, 5⟩, ⟨14, 12, rw, 5⟩, ⟨11, 9, rw, 5⟩, ⟨8, 6, rw, 5⟩, ⟨5, 3, rw, 5⟩, ⟨2, 0, rw, 5⟩]⟩, -- FAB_DSCP_MAP
  ⟨0x5c, [(0x1000000, 8)], false, [⟨23, 21, rw, 6⟩, ⟨20, 18, rw, 6⟩, ⟨17, 15, rw, 6⟩, ⟨14, 12, rw, 6⟩, ⟨11, 9, rw, 6⟩, ⟨8, 6, rw, 6⟩, ⟨5, 3, rw, 6⟩, ⟨2, 0, rw, 6⟩]⟩, -- FAB_DSCP_MAP
  ⟨0x60, [(0x1000000, 8)], false, [⟨23, 21, rw, 7⟩, ⟨20, 18, rw, 7⟩, ⟨17, 15, rw, 7⟩, ⟨14, 12, rw, 7⟩, ⟨11, 9, rw, 7⟩, ⟨8, 6, rw, 7⟩, ⟨5, 3, rw, 7⟩, ⟨2, 0, rw, 7⟩]⟩, -- FAB_DSCP_MAP
  ⟨0x64, [(0x1000000, 8)], false, [⟨31, 24, rw, 4⟩, ⟨23, 16, rw, 4⟩, ⟨15, 8, rw, 4⟩, ⟨7, 0, rw, 4⟩]⟩, -- FAB_DWRR0
  ⟨0x68, [(0x1000000, 8)], false, [⟨15, 8, rw, 4⟩, ⟨7, 0, rw, 4⟩]⟩, -- FAB_DWRR1
  ⟨0x80, [(0x1000000, 8)], false, [⟨7, 0, rw, 0x20⟩]⟩, -- FAB_SEQ_TMO
  ⟨0x100, [(0x1000000, 8), (0x4, 32)], false, [⟨31, 24, rw, 0xff⟩, ⟨23, 23, rw, 1⟩, ⟨21, 20, rw, 0⟩, ⟨18, 16, rw, 0⟩, ⟨15, 14, rw, 0⟩, ⟨11, 0, rw, 1⟩]⟩, -- FAB_PORTCFG
  ⟨0x200, [(0x1000000, 8)], false, [⟨2, 2, w1c, 0⟩, ⟨1, 1, w1c, 0⟩, ⟨0, 0, w1c, 0⟩]⟩, -- FAB_EVT
  ⟨0x204, [(0x1000000, 8)], false, [⟨31, 16, rc, 0⟩, ⟨15, 0, rc, 0⟩]⟩, -- FAB_EVT_CNT0
  ⟨0x208, [(0x1000000, 8)], false, [⟨15, 0, rc, 0⟩]⟩, -- FAB_EVT_CNT1
  ⟨0x210, [(0x1000000, 8)], false, [⟨31, 0, rc, 0⟩]⟩, -- FAB_CNT_FCS_ERR
  ⟨0x214, [(0x1000000, 8)], false, [⟨31, 0, rc, 0⟩]⟩, -- FAB_CNT_RUNT
  ⟨0x218, [(0x1000000, 8)], false, [⟨31, 0, rc, 0⟩]⟩, -- FAB_CNT_OVERSIZE
  ⟨0x21c, [(0x1000000, 8)], false, [⟨31, 0, rc, 0⟩]⟩, -- FAB_CNT_ACCEPT
  ⟨0x220, [(0x1000000, 8)], false, [⟨31, 0, rc, 0⟩]⟩, -- FAB_CNT_VLAN_FILTER
  ⟨0x224, [(0x1000000, 8)], false, [⟨31, 0, rc, 0⟩]⟩, -- FAB_CNT_FIELD_DROP
  ⟨0x228, [(0x1000000, 8)], false, [⟨31, 0, rc, 0⟩]⟩, -- FAB_CNT_CAPPED
  ⟨0x22c, [(0x1000000, 8)], false, [⟨31, 0, rc, 0⟩]⟩, -- FAB_CNT_CT_FALLBACK
  ⟨0x240, [(0x1000000, 8)], false, [⟨10, 3, rw, 0⟩, ⟨2, 0, rw, 0⟩]⟩, -- FAB_VOQ_SEL
  ⟨0x244, [(0x1000000, 8)], false, [⟨16, 0, ro, 0⟩]⟩, -- FAB_VOQ_CELLS
  ⟨0x248, [(0x1000000, 8)], false, [⟨16, 0, ro, 0⟩]⟩, -- FAB_VOQ_FRAMES
  ⟨0x100000, [(0x1000000, 8)], false, [⟨7, 0, rw, 0⟩]⟩, -- FAB_BUF_ECN
  ⟨0x100004, [(0x1000000, 8)], false, [⟨31, 28, rw, 4⟩, ⟨27, 24, rw, 4⟩, ⟨23, 20, rw, 4⟩, ⟨19, 16, rw, 4⟩, ⟨15, 12, rw, 4⟩, ⟨11, 8, rw, 4⟩, ⟨7, 4, rw, 4⟩, ⟨3, 0, rw, 4⟩]⟩, -- FAB_BUF_ALPHA
  ⟨0x100008, [(0x1000000, 8)], true, [⟨16, 0, so, 0x800⟩]⟩, -- FAB_BUF_HEADROOM
  ⟨0x10000c, [(0x1000000, 8)], true, [⟨16, 0, so, 0x1000⟩]⟩, -- FAB_BUF_MC_RES
  ⟨0x100010, [(0x1000000, 8)], false, [⟨16, 0, rw, 0x4000⟩]⟩, -- FAB_BUF_VOQ_CAP
  ⟨0x100014, [(0x1000000, 8)], false, [⟨31, 16, rw, 0x2710⟩, ⟨7, 0, rw, 4⟩]⟩, -- FAB_BUF_MC_CFG
  ⟨0x100020, [(0x1000000, 8)], false, [⟨16, 0, ro, 0x18000⟩]⟩, -- FAB_BUF_TOTAL
  ⟨0x100024, [(0x1000000, 8)], false, [⟨16, 0, ro, 0x128dc⟩]⟩, -- FAB_BUF_SHARED
  ⟨0x100028, [(0x1000000, 8)], false, [⟨16, 0, ro, 0x128dc⟩]⟩, -- FAB_BUF_FREE
  ⟨0x10002c, [(0x1000000, 8)], false, [⟨16, 0, ro, 0x18000⟩]⟩, -- FAB_BUF_FREELIST
  ⟨0x100030, [(0x1000000, 8)], false, [⟨16, 0, ro, 0⟩]⟩, -- FAB_BUF_VOQ_OWNED
  ⟨0x100034, [(0x1000000, 8)], false, [⟨16, 0, ro, 0⟩]⟩ ] -- FAB_BUF_REPL_OWNED

/-- Register rows of block FAB, part 1. -/
def regMapFab1 : List RegRow := [
  ⟨0x100038, [(0x1000000, 8)], false, [⟨16, 0, ro, 0⟩]⟩, -- FAB_BUF_RSM_OWNED
  ⟨0x10003c, [(0x1000000, 8)], false, [⟨16, 0, ro, 0⟩]⟩, -- FAB_BUF_RESIDUE
  ⟨0x100040, [(0x1000000, 8)], false, [⟨5, 5, w1c, 0⟩, ⟨4, 4, w1c, 0⟩, ⟨3, 3, w1c, 0⟩, ⟨2, 2, w1c, 0⟩, ⟨1, 1, w1c, 0⟩, ⟨0, 0, w1c, 0⟩]⟩, -- FAB_BUF_EVT
  ⟨0x100044, [(0x1000000, 8)], false, [⟨31, 16, rc, 0⟩, ⟨15, 0, rc, 0⟩]⟩, -- FAB_BUF_EVT_CNT0
  ⟨0x100048, [(0x1000000, 8)], false, [⟨31, 16, rc, 0⟩, ⟨15, 0, rc, 0⟩]⟩, -- FAB_BUF_EVT_CNT1
  ⟨0x10004c, [(0x1000000, 8)], false, [⟨31, 16, rc, 0⟩, ⟨15, 0, rc, 0⟩]⟩, -- FAB_BUF_EVT_CNT2
  ⟨0x100050, [(0x1000000, 8)], false, [⟨31, 16, ro, 0⟩, ⟨15, 0, ro, 0⟩]⟩, -- FAB_GLN_STATUS
  ⟨0x100054, [(0x1000000, 8)], false, [⟨6, 0, ro, 0⟩]⟩, -- FAB_GLN_WINDOW
  ⟨0x100060, [(0x1000000, 8)], false, [⟨31, 0, rc, 0⟩]⟩, -- FAB_BUF_CNT_DROP_QUOTA
  ⟨0x100064, [(0x1000000, 8)], false, [⟨31, 0, rc, 0⟩]⟩, -- FAB_BUF_CNT_DROP_VOQ
  ⟨0x100068, [(0x1000000, 8)], false, [⟨31, 0, rc, 0⟩]⟩, -- FAB_BUF_CNT_DROP_POOL
  ⟨0x10006c, [(0x1000000, 8)], false, [⟨31, 0, rc, 0⟩]⟩, -- FAB_BUF_CNT_DROP_DT
  ⟨0x100070, [(0x1000000, 8)], false, [⟨31, 0, rc, 0⟩]⟩, -- FAB_BUF_CNT_ECN_MARK
  ⟨0x100074, [(0x1000000, 8)], false, [⟨31, 0, rc, 0⟩]⟩, -- FAB_BUF_CNT_RESIDUE_DROP
  ⟨0x100078, [(0x1000000, 8)], false, [⟨31, 0, rc, 0⟩]⟩, -- FAB_BUF_CNT_MC_EMPTY
  ⟨0x10007c, [(0x1000000, 8)], false, [⟨31, 0, rc, 0⟩]⟩, -- FAB_BUF_CNT_LEAK_TOTAL
  ⟨0x101000, [(0x1000000, 8), (0x10, 264)], false, [⟨16, 0, rw, 0x4000⟩]⟩, -- FAB_ACCT_QUOTA
  ⟨0x101004, [(0x1000000, 8), (0x10, 264)], true, [⟨16, 0, so, 0x10⟩]⟩, -- FAB_ACCT_MIN
  ⟨0x101008, [(0x1000000, 8), (0x10, 264)], false, [⟨31, 31, ro, 0⟩, ⟨16, 0, ro, 0⟩]⟩, -- FAB_ACCT_USED
  ⟨0x10100c, [(0x1000000, 8), (0x10, 264)], false, [⟨31, 0, rc, 0⟩]⟩, -- FAB_ACCT_DROP
  ⟨0xf00000, [], false, [⟨26, 24, ro, 0⟩, ⟨23, 21, ro, 0⟩, ⟨20, 18, ro, 0⟩, ⟨17, 15, ro, 0⟩, ⟨14, 12, ro, 0⟩, ⟨11, 9, ro, 0⟩, ⟨8, 6, ro, 0⟩, ⟨5, 3, ro, 0⟩, ⟨2, 0, ro, 0⟩]⟩, -- FAB_PLANES
  ⟨0xf00010, [], false, [⟨31, 31, rw, 1⟩, ⟨15, 0, rw, 0x352⟩]⟩, -- FAB_VLOOP_CFG
  ⟨0xf00014, [], false, [⟨31, 31, ro, 0⟩, ⟨30, 30, ro, 0⟩, ⟨11, 0, ro, 0x320⟩]⟩, -- FAB_VCORE
  ⟨0xf00018, [], false, [⟨31, 31, ro, 0⟩, ⟨30, 30, ro, 0⟩, ⟨23, 20, ro, 0⟩, ⟨18, 16, ro, 0⟩, ⟨15, 0, ro, 0⟩]⟩, -- FAB_SPD_STATUS
  ⟨0xf0001c, [], false, [⟨1, 1, w1c, 0⟩, ⟨0, 0, w1c, 0⟩]⟩, -- FAB_SPD_EVT
  ⟨0xf00020, [], false, [⟨31, 16, rc, 0⟩, ⟨15, 0, rc, 0⟩]⟩, -- FAB_SPD_EVT_CNT
  ⟨0xf00030, [], false, [⟨11, 0, rw, 0⟩]⟩, -- FAB_FIELD_VLAN
  ⟨0xf00034, [], false, [⟨11, 0, rw, 0⟩]⟩, -- FAB_MGMT_VLAN
  ⟨0xf00038, [], false, [⟨31, 0, ro, 0⟩]⟩, -- FAB_MOD_MAC_LO
  ⟨0xf0003c, [], false, [⟨15, 0, ro, 0⟩]⟩, -- FAB_MOD_MAC_HI
  ⟨0xf00040, [], false, [⟨19, 0, rw, 0x12c⟩]⟩, -- FAB_FDB_AGE
  ⟨0xf00044, [], false, [⟨18, 0, ro, 0⟩]⟩, -- FAB_FDB_COUNT
  ⟨0xf00050, [], false, [⟨31, 0, rw, 0⟩]⟩, -- FAB_FDB_KEY_LO
  ⟨0xf00054, [], false, [⟨27, 16, rw, 0⟩, ⟨15, 0, rw, 0⟩]⟩, -- FAB_FDB_KEY_HI
  ⟨0xf00058, [], false, [⟨31, 31, rw, 0⟩, ⟨30, 30, rw, 0⟩, ⟨26, 24, rw, 0⟩, ⟨8, 0, rw, 0⟩]⟩, -- FAB_FDB_DATA
  ⟨0xf0005c, [], false, [⟨3, 0, wo, 0⟩]⟩, -- FAB_FDB_CMD
  ⟨0xf00060, [], false, [⟨31, 31, ro, 0⟩, ⟨7, 0, ro, 0⟩]⟩, -- FAB_FDB_STATUS
  ⟨0xf00064, [], false, [⟨0, 0, w1c, 0⟩]⟩, -- FAB_FDB_EVT
  ⟨0xf00068, [], false, [⟨15, 0, rc, 0⟩]⟩, -- FAB_FDB_EVT_CNT
  ⟨0xf10000, [(0x80, 4096), (0x4, 8)], true, [⟨31, 0, so, 0⟩]⟩ ] -- FAB_VLAN_MEMBER

/-- Register rows of block FAB, part 2. -/
def regMapFab2 : List RegRow := [
  ⟨0xf10020, [(0x80, 4096)], true, [⟨2, 2, so, 0⟩, ⟨1, 1, so, 0⟩, ⟨0, 0, so, 0⟩]⟩, -- FAB_VLAN_CFG
  ⟨0xf10024, [(0x80, 4096), (0x4, 7)], true, []⟩, -- FAB_VLAN_RSVD1
  ⟨0xf10040, [(0x80, 4096), (0x4, 8)], true, [⟨31, 0, so, 0⟩]⟩, -- FAB_VLAN_UNTAG
  ⟨0xf10060, [(0x80, 4096), (0x4, 8)], true, []⟩, -- FAB_VLAN_RSVD2
  ⟨0xfa0000, [(0x40, 4096)], true, [⟨31, 0, so, 0⟩]⟩, -- FAB_MCG_MAC_LO
  ⟨0xfa0004, [(0x40, 4096)], true, [⟨31, 31, so, 0⟩, ⟨30, 30, so, 0⟩, ⟨27, 16, so, 0⟩, ⟨15, 0, so, 0⟩]⟩, -- FAB_MCG_CFG
  ⟨0xfa0008, [(0x40, 4096)], true, [⟨0, 0, so, 0⟩]⟩, -- FAB_MCG_CTL
  ⟨0xfa000c, [(0x40, 4096), (0x4, 5)], true, []⟩, -- FAB_MCG_RSVD
  ⟨0xfa0020, [(0x40, 4096), (0x4, 8)], true, [⟨31, 0, so, 0⟩]⟩ ] -- FAB_MCG_MEMBER

/-- Every register row of block FAB. -/
def regMapFab : List RegRow := regMapFab0 ++ regMapFab1 ++ regMapFab2

/-- Register rows of block PORT. -/
def regMapPort : List RegRow := [
  ⟨0x0, [(0x10000, 256)], true, [⟨31, 31, so, 0⟩, ⟨27, 26, so, 0⟩, ⟨25, 24, so, 0⟩, ⟨23, 23, so, 0⟩, ⟨22, 22, so, 0⟩]⟩, -- PORT_CFG
  ⟨0x4, [(0x10000, 256)], false, [⟨31, 29, ro, 0⟩, ⟨28, 28, ro, 0⟩, ⟨27, 27, ro, 0⟩, ⟨26, 26, ro, 0⟩, ⟨25, 25, ro, 0⟩, ⟨24, 24, ro, 0⟩]⟩, -- PORT_STATUS
  ⟨0x8, [(0x10000, 256)], false, [⟨5, 5, w1c, 0⟩, ⟨4, 4, w1c, 0⟩, ⟨3, 3, w1c, 0⟩, ⟨2, 2, w1c, 0⟩, ⟨1, 1, w1c, 0⟩, ⟨0, 0, w1c, 0⟩]⟩, -- PORT_EVT
  ⟨0xc, [(0x10000, 256)], false, [⟨31, 16, rc, 0⟩, ⟨15, 0, rc, 0⟩]⟩, -- PORT_EVT_CNT0
  ⟨0x10, [(0x10000, 256)], false, [⟨31, 16, rc, 0⟩, ⟨15, 0, rc, 0⟩]⟩, -- PORT_EVT_CNT1
  ⟨0x14, [(0x10000, 256)], false, [⟨31, 16, rc, 0⟩, ⟨15, 0, rc, 0⟩]⟩, -- PORT_EVT_CNT2
  ⟨0x18, [(0x10000, 256)], false, [⟨15, 0, rw, 0x400⟩]⟩, -- PORT_DEG_CFG
  ⟨0x1c, [(0x10000, 256)], false, [⟨15, 0, rw, 0xfce0⟩]⟩, -- PORT_RXLOW_THR
  ⟨0x20, [(0x10000, 256)], false, [⟨31, 16, ro, 0⟩, ⟨15, 0, ro, 0x8000⟩]⟩, -- PORT_OPT0
  ⟨0x24, [(0x10000, 256)], false, [⟨15, 0, ro, 0⟩]⟩, -- PORT_OPT1
  ⟨0x40, [(0x10000, 256)], false, [⟨31, 0, ro, 0⟩]⟩, -- PORT_RX_OCTETS_LO
  ⟨0x44, [(0x10000, 256)], false, [⟨31, 0, ro, 0⟩]⟩, -- PORT_RX_OCTETS_HI
  ⟨0x48, [(0x10000, 256)], false, [⟨31, 0, ro, 0⟩]⟩, -- PORT_RX_FRAMES_LO
  ⟨0x4c, [(0x10000, 256)], false, [⟨31, 0, ro, 0⟩]⟩, -- PORT_RX_FRAMES_HI
  ⟨0x50, [(0x10000, 256)], false, [⟨31, 0, ro, 0⟩]⟩, -- PORT_TX_OCTETS_LO
  ⟨0x54, [(0x10000, 256)], false, [⟨31, 0, ro, 0⟩]⟩, -- PORT_TX_OCTETS_HI
  ⟨0x58, [(0x10000, 256)], false, [⟨31, 0, ro, 0⟩]⟩, -- PORT_TX_FRAMES_LO
  ⟨0x5c, [(0x10000, 256)], false, [⟨31, 0, ro, 0⟩]⟩, -- PORT_TX_FRAMES_HI
  ⟨0x60, [(0x10000, 256)], false, [⟨31, 0, ro, 0⟩]⟩, -- PORT_FEC_CORR_LO
  ⟨0x64, [(0x10000, 256)], false, [⟨31, 0, ro, 0⟩]⟩, -- PORT_FEC_CORR_HI
  ⟨0x68, [(0x10000, 256)], false, [⟨31, 0, ro, 0⟩]⟩, -- PORT_FEC_UNCORR_LO
  ⟨0x6c, [(0x10000, 256)], false, [⟨31, 0, ro, 0⟩]⟩, -- PORT_FEC_UNCORR_HI
  ⟨0x70, [(0x10000, 256)], false, [⟨31, 0, ro, 0⟩]⟩, -- PORT_FEC_SYM_LO
  ⟨0x74, [(0x10000, 256)], false, [⟨31, 0, ro, 0⟩]⟩, -- PORT_FEC_SYM_HI
  ⟨0x80, [(0x10000, 256)], false, [⟨31, 0, rc, 0⟩]⟩, -- PORT_CNT_MACCTL
  ⟨0x84, [(0x10000, 256)], false, [⟨31, 0, rc, 0⟩]⟩, -- PORT_CNT_TAG_OVERSIZE
  ⟨0x88, [(0x10000, 256)], false, [⟨31, 0, rc, 0⟩]⟩, -- PORT_CNT_DOWN_DROP
  ⟨0x8c, [(0x10000, 256)], false, [⟨31, 0, rc, 0⟩]⟩ ] -- PORT_CNT_GATED

/-- Register rows of block RING. -/
def regMapRing : List RegRow := [
  ⟨0x0, [(0x1000, 128)], true, [⟨31, 31, so, 0⟩, ⟨15, 8, so, 0⟩, ⟨7, 0, so, 0⟩]⟩, -- RING_CFG
  ⟨0x4, [(0x1000, 128)], true, [⟨7, 0, so, 0⟩]⟩, -- RING_SV_CFG
  ⟨0x8, [(0x1000, 128)], false, [⟨23, 16, rw, 8⟩, ⟨15, 0, rw, 0x3e8⟩]⟩, -- RING_DET_CFG
  ⟨0xc, [(0x1000, 128)], false, [⟨31, 31, ro, 0⟩, ⟨30, 30, ro, 0⟩, ⟨29, 29, ro, 0⟩, ⟨12, 8, ro, 0x1f⟩, ⟨4, 0, ro, 0x1e⟩]⟩, -- RING_STATUS
  ⟨0x10, [(0x1000, 128)], false, [⟨4, 4, w1c, 0⟩, ⟨3, 3, w1c, 0⟩, ⟨2, 2, w1c, 0⟩, ⟨1, 1, w1c, 0⟩, ⟨0, 0, w1c, 0⟩]⟩, -- RING_EVT
  ⟨0x14, [(0x1000, 128)], false, [⟨31, 16, rc, 0⟩, ⟨15, 0, rc, 0⟩]⟩, -- RING_EVT_CNT0
  ⟨0x18, [(0x1000, 128)], false, [⟨31, 16, rc, 0⟩, ⟨15, 0, rc, 0⟩]⟩, -- RING_EVT_CNT1
  ⟨0x1c, [(0x1000, 128)], false, [⟨15, 0, rc, 0⟩]⟩, -- RING_EVT_CNT2
  ⟨0x20, [(0x1000, 128)], false, [⟨31, 0, rc, 0⟩]⟩, -- RING_CNT_DUP
  ⟨0x24, [(0x1000, 128)], false, [⟨31, 0, rc, 0⟩]⟩, -- RING_CNT_OWN
  ⟨0x28, [(0x1000, 128)], false, [⟨31, 0, rc, 0⟩]⟩, -- RING_CNT_BAD_TAG
  ⟨0x2c, [(0x1000, 128)], false, [⟨31, 0, rc, 0⟩]⟩, -- RING_CNT_ONE_SIDED
  ⟨0x40, [(0x1000, 128)], false, [⟨15, 0, ro, 0⟩]⟩, -- RING_SEQ
  ⟨0x44, [(0x1000, 128)], false, [⟨16, 0, ro, 0⟩]⟩, -- RING_DD_USED
  ⟨0x100, [(0x1000, 128), (0x10, 17)], true, [⟨31, 0, so, 0⟩]⟩, -- RING_NODE_MAC_LO
  ⟨0x104, [(0x1000, 128), (0x10, 17)], true, [⟨31, 31, so, 0⟩, ⟨30, 30, so, 0⟩, ⟨15, 0, so, 0⟩]⟩, -- RING_NODE_MAC_HI
  ⟨0x108, [(0x1000, 128), (0x10, 17)], false, [⟨1, 1, ro, 0⟩, ⟨0, 0, ro, 0⟩]⟩ ] -- RING_NODE_STATUS

/-- Register rows of block MTR, part 0. -/
def regMapMtr0 : List RegRow := [
  ⟨0x0, [], true, [⟨31, 31, so, 1⟩, ⟨30, 30, so, 0⟩, ⟨6, 0, so, 0x28⟩]⟩, -- MTR_CFG
  ⟨0x4, [], true, [⟨31, 16, so, 0x320⟩, ⟨15, 0, so, 0x3b6⟩]⟩, -- MTR_SURGE_CFG
  ⟨0x8, [], true, [⟨15, 0, so, 0x47e⟩]⟩, -- MTR_COLLAPSE_CFG
  ⟨0x10, [], false, [⟨31, 30, ro, 0⟩, ⟨21, 16, ro, 0⟩, ⟨5, 0, ro, 0⟩]⟩, -- MTR_STATUS
  ⟨0x14, [], false, [⟨15, 0, ro, 0⟩]⟩, -- MTR_FREQ0
  ⟨0x18, [], false, [⟨15, 0, ro, 0⟩]⟩, -- MTR_FREQ1
  ⟨0x1c, [], false, [⟨31, 16, ro, 0⟩, ⟨15, 0, ro, 0⟩]⟩, -- MTR_WIN_SEQ
  ⟨0x20, [], false, [⟨6, 6, w1c, 0⟩, ⟨5, 5, w1c, 0⟩, ⟨4, 4, w1c, 0⟩, ⟨3, 3, w1c, 0⟩, ⟨2, 2, w1c, 0⟩, ⟨1, 1, w1c, 0⟩, ⟨0, 0, w1c, 0⟩]⟩, -- MTR_EVT
  ⟨0x24, [], false, [⟨31, 16, rc, 0⟩, ⟨15, 0, rc, 0⟩]⟩, -- MTR_EVT_CNT0
  ⟨0x28, [], false, [⟨31, 16, rc, 0⟩, ⟨15, 0, rc, 0⟩]⟩, -- MTR_EVT_CNT1
  ⟨0x2c, [], false, [⟨31, 16, rc, 0⟩, ⟨15, 0, rc, 0⟩]⟩, -- MTR_EVT_CNT2
  ⟨0x30, [], false, [⟨15, 0, rc, 0⟩]⟩, -- MTR_EVT_CNT3
  ⟨0x34, [], false, [⟨3, 0, wo, 0⟩]⟩, -- MTR_CMD
  ⟨0x38, [], false, [⟨31, 0, ro, 0xffffffff⟩]⟩, -- MTR_SAVE_AGE
  ⟨0x40, [(0x4, 12)], true, [⟨31, 31, so, 0⟩, ⟨30, 30, so, 0⟩, ⟨29, 29, so, 0⟩]⟩, -- MTR_FDR
  ⟨0x100, [(0x8, 54)], true, [⟨31, 16, so, 0⟩, ⟨15, 0, so, 0⟩]⟩, -- MTR_CH_CAL0
  ⟨0x104, [(0x8, 54)], true, [⟨31, 16, so, 0⟩, ⟨15, 0, so, 0⟩]⟩, -- MTR_CH_CAL1
  ⟨0x300, [], false, [⟨13, 8, rw, 0⟩, ⟨4, 0, rw, 1⟩]⟩, -- MTR_HARM_SEL
  ⟨0x304, [], false, [⟨31, 16, ro, 0⟩, ⟨15, 0, ro, 0⟩]⟩, -- MTR_HARM_DATA
  ⟨0x308, [], false, []⟩, -- MTR_RESERVED
  ⟨0x310, [], true, [⟨31, 31, so, 0⟩, ⟨26, 17, so, 0x32⟩, ⟨16, 0, so, 0⟩]⟩, -- MTR_EST_CFG
  ⟨0x314, [], false, [⟨31, 31, ro, 0⟩, ⟨16, 0, ro, 0⟩]⟩, -- MTR_EST_STATUS
  ⟨0x400, [], false, [⟨3, 0, wo, 0⟩]⟩, -- MTR_CAP_CMD
  ⟨0x404, [], false, [⟨31, 0, rw, 0⟩]⟩, -- MTR_CAP_MASK_LO
  ⟨0x408, [], false, [⟨21, 0, rw, 0⟩]⟩, -- MTR_CAP_MASK_HI
  ⟨0x40c, [(0x4, 3)], false, [⟨31, 0, rw, 0⟩]⟩, -- MTR_CAP_START
  ⟨0x418, [(0x4, 3)], false, [⟨31, 0, rw, 0⟩]⟩, -- MTR_CAP_STOP
  ⟨0x424, [], false, [⟨31, 16, rw, 0x3e8⟩, ⟨6, 0, rw, 0x14⟩]⟩, -- MTR_CAP_TRIG
  ⟨0x428, [], false, [⟨31, 29, ro, 0⟩, ⟨28, 24, ro, 0⟩, ⟨16, 0, ro, 0⟩]⟩, -- MTR_CAP_STATUS
  ⟨0x42c, [(0x4, 3)], false, [⟨31, 0, ro, 0⟩]⟩, -- MTR_CAP_FIRST
  ⟨0x438, [], false, [⟨31, 0, ro, 0⟩]⟩, -- MTR_CAP_COUNT
  ⟨0x480, [(0x8, 12)], false, [⟨31, 0, ro, 0⟩]⟩, -- MTR_CAP_E_LO
  ⟨0x484, [(0x8, 12)], false, [⟨31, 0, ro, 0⟩]⟩, -- MTR_CAP_E_HI
  ⟨0x1000, [(0x100, 12), (0x40, 3)], false, [⟨31, 0, ro, 0⟩]⟩, -- MTR_PH_EP_IMP_LO
  ⟨0x1004, [(0x100, 12), (0x40, 3)], false, [⟨31, 0, ro, 0⟩]⟩, -- MTR_PH_EP_IMP_HI
  ⟨0x1008, [(0x100, 12), (0x40, 3)], false, [⟨31, 0, ro, 0⟩]⟩, -- MTR_PH_EP_EXP_LO
  ⟨0x100c, [(0x100, 12), (0x40, 3)], false, [⟨31, 0, ro, 0⟩]⟩, -- MTR_PH_EP_EXP_HI
  ⟨0x1010, [(0x100, 12), (0x40, 3)], false, [⟨31, 0, ro, 0⟩]⟩, -- MTR_PH_EQ_POS_LO
  ⟨0x1014, [(0x100, 12), (0x40, 3)], false, [⟨31, 0, ro, 0⟩]⟩, -- MTR_PH_EQ_POS_HI
  ⟨0x1018, [(0x100, 12), (0x40, 3)], false, [⟨31, 0, ro, 0⟩]⟩ ] -- MTR_PH_EQ_NEG_LO

/-- Register rows of block MTR, part 1. -/
def regMapMtr1 : List RegRow := [
  ⟨0x101c, [(0x100, 12), (0x40, 3)], false, [⟨31, 0, ro, 0⟩]⟩, -- MTR_PH_EQ_NEG_HI
  ⟨0x1020, [(0x100, 12), (0x40, 3)], false, [⟨31, 0, ro, 0⟩]⟩, -- MTR_PH_ES_LO
  ⟨0x1024, [(0x100, 12), (0x40, 3)], false, [⟨31, 0, ro, 0⟩]⟩, -- MTR_PH_ES_HI
  ⟨0x1028, [(0x100, 12), (0x40, 3)], false, [⟨31, 0, ro, 0⟩]⟩, -- MTR_PH_IRMS
  ⟨0x102c, [(0x100, 12), (0x40, 3)], false, [⟨31, 0, ro, 0⟩]⟩, -- MTR_PH_VRMS
  ⟨0x1030, [(0x100, 12), (0x40, 3)], false, [⟨31, 0, ro, 0⟩]⟩, -- MTR_PH_P
  ⟨0x1034, [(0x100, 12), (0x40, 3)], false, [⟨31, 0, ro, 0⟩]⟩, -- MTR_PH_Q
  ⟨0x1038, [(0x100, 12), (0x40, 3)], false, [⟨31, 16, ro, 0⟩, ⟨15, 0, ro, 0⟩]⟩, -- MTR_PH_THD_PF
  ⟨0x103c, [(0x100, 12), (0x40, 3)], false, [⟨31, 16, ro, 0⟩, ⟨2, 2, ro, 0⟩, ⟨1, 1, ro, 0⟩, ⟨0, 0, ro, 0⟩]⟩, -- MTR_PH_FLAGS
  ⟨0x10c0, [(0x100, 12)], false, [⟨31, 0, ro, 0⟩]⟩, -- MTR_TOT_EP_IMP_LO
  ⟨0x10c4, [(0x100, 12)], false, [⟨31, 0, ro, 0⟩]⟩, -- MTR_TOT_EP_IMP_HI
  ⟨0x10c8, [(0x100, 12)], false, [⟨31, 0, ro, 0⟩]⟩, -- MTR_TOT_EP_EXP_LO
  ⟨0x10cc, [(0x100, 12)], false, [⟨31, 0, ro, 0⟩]⟩, -- MTR_TOT_EP_EXP_HI
  ⟨0x10d0, [(0x100, 12)], false, [⟨31, 0, ro, 0⟩]⟩, -- MTR_TOT_EQ_POS_LO
  ⟨0x10d4, [(0x100, 12)], false, [⟨31, 0, ro, 0⟩]⟩, -- MTR_TOT_EQ_POS_HI
  ⟨0x10d8, [(0x100, 12)], false, [⟨31, 0, ro, 0⟩]⟩, -- MTR_TOT_EQ_NEG_LO
  ⟨0x10dc, [(0x100, 12)], false, [⟨31, 0, ro, 0⟩]⟩, -- MTR_TOT_EQ_NEG_HI
  ⟨0x10e0, [(0x100, 12)], false, [⟨31, 0, ro, 0⟩]⟩, -- MTR_TOT_ES_LO
  ⟨0x10e4, [(0x100, 12)], false, [⟨31, 0, ro, 0⟩]⟩, -- MTR_TOT_ES_HI
  ⟨0x10e8, [(0x100, 12)], false, [⟨31, 0, ro, 0⟩]⟩, -- MTR_TOT_P
  ⟨0x10ec, [(0x100, 12)], false, [⟨31, 0, ro, 0⟩]⟩, -- MTR_TOT_Q
  ⟨0x10f0, [(0x100, 12)], false, [⟨31, 0, ro, 0⟩]⟩, -- MTR_TOT_NRMS
  ⟨0x10f4, [(0x100, 12)], false, [⟨15, 0, ro, 0⟩]⟩, -- MTR_TOT_SEQ
  ⟨0x800000, [(0x4, 2097152)], false, [⟨31, 0, ro, 0⟩]⟩ ] -- MTR_CAP_BUF

/-- Every register row of block MTR. -/
def regMapMtr : List RegRow := regMapMtr0 ++ regMapMtr1

/-- Register rows of block DIO. -/
def regMapDio : List RegRow := [
  ⟨0x0, [(0x4, 16)], true, [⟨31, 31, so, 0⟩, ⟨30, 30, so, 0⟩, ⟨29, 29, so, 0⟩, ⟨25, 24, so, 0⟩, ⟨15, 8, so, 0xa⟩, ⟨7, 7, so, 0⟩, ⟨6, 6, so, 1⟩]⟩, -- DIO_CH_CFG
  ⟨0x40, [], false, [⟨15, 0, ro, 0⟩]⟩, -- DIO_OUT
  ⟨0x44, [], false, [⟨15, 0, ro, 0⟩]⟩, -- DIO_IN
  ⟨0x48, [], false, [⟨31, 16, ro, 0⟩, ⟨15, 0, ro, 0⟩]⟩, -- DIO_DIAG0
  ⟨0x4c, [], false, [⟨19, 16, ro, 0⟩, ⟨15, 0, ro, 0⟩]⟩, -- DIO_DIAG1
  ⟨0x50, [], false, [⟨31, 31, ro, 0⟩]⟩, -- DIO_STATUS
  ⟨0x54, [], false, [⟨3, 3, w1c, 0⟩, ⟨2, 2, w1c, 0⟩, ⟨1, 1, w1c, 0⟩, ⟨0, 0, w1c, 0⟩]⟩, -- DIO_EVT
  ⟨0x58, [], false, [⟨31, 16, rc, 0⟩, ⟨15, 0, rc, 0⟩]⟩, -- DIO_EVT_CNT0
  ⟨0x5c, [], false, [⟨31, 16, rc, 0⟩, ⟨15, 0, rc, 0⟩]⟩ ] -- DIO_EVT_CNT1

/-- Register rows of block IND. -/
def regMapInd : List RegRow := [
  ⟨0x0, [(0x40, 4)], true, [⟨31, 31, so, 0⟩, ⟨30, 30, so, 0⟩, ⟨29, 28, so, 0⟩, ⟨27, 20, so, 0⟩, ⟨9, 0, so, 0⟩]⟩, -- IND_STR_CFG
  ⟨0x4, [(0x40, 4)], false, [⟨31, 31, ro, 0⟩, ⟨30, 30, ro, 0⟩, ⟨29, 29, ro, 0⟩, ⟨28, 28, ro, 0⟩, ⟨25, 25, ro, 0⟩, ⟨19, 10, ro, 0⟩]⟩, -- IND_STR_STATUS
  ⟨0x8, [(0x40, 4)], false, [⟨31, 16, ro, 0⟩, ⟨15, 0, ro, 0⟩]⟩, -- IND_STR_MEAS
  ⟨0xc, [(0x40, 4)], false, [⟨3, 3, w1c, 0⟩, ⟨2, 2, w1c, 0⟩, ⟨1, 1, w1c, 0⟩, ⟨0, 0, w1c, 0⟩]⟩, -- IND_STR_EVT
  ⟨0x10, [(0x40, 4)], false, [⟨31, 16, rc, 0⟩, ⟨15, 0, rc, 0⟩]⟩, -- IND_STR_EVT_CNT0
  ⟨0x14, [(0x40, 4)], false, [⟨31, 16, rc, 0⟩, ⟨15, 0, rc, 0⟩]⟩, -- IND_STR_EVT_CNT1
  ⟨0x1000, [(0x100, 4)], true, [⟨31, 31, so, 0⟩, ⟨26, 16, so, 0⟩, ⟨15, 8, so, 0xa⟩, ⟨7, 0, so, 0⟩]⟩, -- IND_CH_CFG0
  ⟨0x1004, [(0x100, 4)], true, [⟨15, 0, so, 0x50⟩]⟩, -- IND_CH_CFG1
  ⟨0x1008, [(0x100, 4)], false, [⟨31, 31, ro, 0⟩, ⟨30, 30, ro, 0⟩, ⟨18, 0, ro, 0⟩]⟩, -- IND_CH_STATUS
  ⟨0x100c, [(0x100, 4)], false, [⟨3, 3, w1c, 0⟩, ⟨2, 2, w1c, 0⟩, ⟨1, 1, w1c, 0⟩, ⟨0, 0, w1c, 0⟩]⟩, -- IND_CH_EVT
  ⟨0x1010, [(0x100, 4)], false, [⟨31, 16, rc, 0⟩, ⟨15, 0, rc, 0⟩]⟩, -- IND_CH_EVT_CNT0
  ⟨0x1014, [(0x100, 4)], false, [⟨31, 16, rc, 0⟩, ⟨15, 0, rc, 0⟩]⟩, -- IND_CH_EVT_CNT1
  ⟨0x1040, [(0x100, 4)], false, [⟨3, 0, wo, 0⟩]⟩, -- QU_FEED_CMD
  ⟨0x1044, [(0x100, 4)], false, [⟨31, 31, ro, 0⟩, ⟨30, 30, ro, 0⟩, ⟨29, 29, ro, 1⟩, ⟨28, 28, ro, 0⟩, ⟨27, 27, ro, 0⟩, ⟨16, 0, ro, 0⟩]⟩, -- QU_FEED_STATUS
  ⟨0x1048, [(0x100, 4)], false, [⟨16, 0, rw, 0x30⟩]⟩, -- QU_FEED_WM_HIGH
  ⟨0x104c, [(0x100, 4)], false, [⟨16, 0, rw, 0x10⟩]⟩, -- QU_FEED_WM_LOW
  ⟨0x1050, [(0x100, 4)], false, [⟨3, 3, w1c, 0⟩, ⟨2, 2, w1c, 0⟩, ⟨1, 1, w1c, 0⟩, ⟨0, 0, w1c, 0⟩]⟩, -- QU_FEED_EVT
  ⟨0x1054, [(0x100, 4)], false, [⟨31, 16, rc, 0⟩, ⟨15, 0, rc, 0⟩]⟩, -- QU_FEED_EVT_CNT0
  ⟨0x1058, [(0x100, 4)], false, [⟨31, 16, rc, 0⟩, ⟨15, 0, rc, 0⟩]⟩, -- QU_FEED_EVT_CNT1
  ⟨0x105c, [(0x100, 4)], false, [⟨31, 0, ro, 0⟩]⟩, -- QU_FEED_DATA
  ⟨0x1060, [(0x100, 4)], false, [⟨16, 0, ro, 0x40⟩]⟩, -- QU_FEED_CAP
  ⟨0x1064, [(0x100, 4)], false, [⟨7, 0, ro, 4⟩]⟩, -- QU_FEED_ITEM
  ⟨0x1068, [(0x100, 4)], false, [⟨16, 0, rc, 0⟩]⟩, -- QU_FEED_PEAK
  ⟨0x2000, [(0x10, 64)], true, [⟨31, 31, so, 0⟩, ⟨30, 29, so, 0⟩, ⟨19, 10, so, 0⟩, ⟨9, 0, so, 0⟩]⟩, -- IND_FB_CFG
  ⟨0x2004, [(0x10, 64)], true, [⟨9, 0, so, 0⟩]⟩, -- IND_FB_SENS
  ⟨0x2008, [(0x10, 64)], false, [⟨26, 18, ro, 0x100⟩, ⟨17, 9, ro, 0x100⟩, ⟨8, 0, ro, 0x100⟩]⟩, -- IND_FB_TRIM
  ⟨0x200c, [(0x10, 64)], false, [⟨31, 16, ro, 0⟩, ⟨15, 0, ro, 0⟩]⟩, -- IND_FB_READ0
  ⟨0x2400, [(0x10, 64)], false, [⟨15, 0, ro, 0⟩]⟩, -- IND_FB_READ1
  ⟨0x10000, [(0x1000, 4), (0x4, 1024)], true, [⟨31, 31, so, 0⟩, ⟨22, 22, so, 0⟩, ⟨21, 16, so, 0⟩, ⟨8, 8, so, 0⟩, ⟨7, 0, so, 0⟩]⟩, -- IND_CH_ECFG
  ⟨0x20000, [(0x1000, 4), (0x4, 1024)], false, [⟨31, 16, ro, 0⟩, ⟨9, 0, ro, 0x3ff⟩]⟩, -- IND_CH_ESTAT
  ⟨0x30000, [(0x1000, 4), (0x4, 1024)], false, [⟨31, 0, ro, 0⟩]⟩, -- IND_CH_EWORD
  ⟨0x40000, [(0x20, 4), (0x4, 8)], false, [⟨31, 0, ro, 0⟩]⟩ ] -- IND_CH_AON_HELD

/-- Register rows of block RAD. -/
def regMapRad : List RegRow := [
  ⟨0x0, [(0x100000, 4)], true, [⟨31, 31, so, 0⟩, ⟨27, 24, so, 0⟩, ⟨23, 16, so, 0⟩, ⟨4, 0, so, 0⟩]⟩, -- RAD_CFG
  ⟨0x4, [(0x100000, 4)], true, [⟨31, 16, so, 0⟩, ⟨15, 0, so, 0⟩]⟩, -- RAD_PWR
  ⟨0x8, [(0x100000, 4)], true, [⟨15, 0, so, 0xfcae⟩]⟩, -- RAD_LBT
  ⟨0xc, [(0x100000, 4)], true, [⟨31, 28, so, 2⟩, ⟨27, 24, so, 5⟩, ⟨23, 20, so, 0xa⟩, ⟨9, 0, so, 0x64⟩]⟩, -- RAD_MAC
  ⟨0x10, [(0x100000, 4)], true, [⟨6, 0, so, 0⟩]⟩, -- RAD_KEY
  ⟨0x14, [(0x100000, 4)], true, [⟨5, 0, so, 0⟩]⟩, -- RAD_HOP
  ⟨0x20, [(0x100000, 4)], false, [⟨31, 30, ro, 0⟩, ⟨29, 29, ro, 0⟩, ⟨28, 28, ro, 0⟩, ⟨5, 0, ro, 0⟩]⟩, -- RAD_STATUS
  ⟨0x24, [(0x100000, 4)], false, [⟨31, 16, ro, 0⟩, ⟨15, 0, ro, 0⟩]⟩, -- RAD_DUTY
  ⟨0x28, [(0x100000, 4)], false, [⟨31, 16, ro, 0x8000⟩, ⟨15, 0, ro, 0x8000⟩]⟩, -- RAD_RSSI
  ⟨0x2c, [(0x100000, 4)], false, [⟨13, 0, ro, 0⟩]⟩, -- RAD_QUEUE
  ⟨0x30, [(0x100000, 4)], false, [⟨7, 7, w1c, 0⟩, ⟨6, 6, w1c, 0⟩, ⟨5, 5, w1c, 0⟩, ⟨4, 4, w1c, 0⟩, ⟨3, 3, w1c, 0⟩, ⟨2, 2, w1c, 0⟩, ⟨1, 1, w1c, 0⟩, ⟨0, 0, w1c, 0⟩]⟩, -- RAD_EVT
  ⟨0x34, [(0x100000, 4)], false, [⟨31, 16, rc, 0⟩, ⟨15, 0, rc, 0⟩]⟩, -- RAD_EVT_CNT0
  ⟨0x38, [(0x100000, 4)], false, [⟨31, 16, rc, 0⟩, ⟨15, 0, rc, 0⟩]⟩, -- RAD_EVT_CNT1
  ⟨0x3c, [(0x100000, 4)], false, [⟨31, 16, rc, 0⟩, ⟨15, 0, rc, 0⟩]⟩, -- RAD_EVT_CNT2
  ⟨0x40, [(0x100000, 4)], false, [⟨31, 16, rc, 0⟩, ⟨15, 0, rc, 0⟩]⟩, -- RAD_EVT_CNT3
  ⟨0x50, [(0x100000, 4)], false, [⟨31, 0, rc, 0⟩]⟩, -- RAD_CNT_RX_FRAMES
  ⟨0x54, [(0x100000, 4)], false, [⟨31, 0, rc, 0⟩]⟩, -- RAD_CNT_RX_BAD
  ⟨0x58, [(0x100000, 4)], false, [⟨31, 0, rc, 0⟩]⟩, -- RAD_CNT_RX_DUP
  ⟨0x5c, [(0x100000, 4)], false, [⟨31, 0, rc, 0⟩]⟩ ] -- RAD_CNT_TX_COPIES

/-- Register rows of block CAN, part 0. -/
def regMapCan0 : List RegRow := [
  ⟨0x0, [(0x10000, 8)], true, [⟨31, 31, so, 0⟩, ⟨30, 29, so, 0⟩, ⟨28, 28, so, 0⟩, ⟨27, 27, so, 1⟩, ⟨12, 0, so, 0x1b60⟩]⟩, -- CAN_CFG
  ⟨0x4, [(0x10000, 8)], true, [⟨31, 25, so, 0x1f⟩, ⟨24, 18, so, 0x1f⟩, ⟨17, 10, so, 0x7e⟩, ⟨4, 0, so, 0⟩]⟩, -- CAN_NBT
  ⟨0x8, [(0x10000, 8)], true, [⟨31, 28, so, 7⟩, ⟨27, 24, so, 7⟩, ⟨23, 19, so, 0x1e⟩, ⟨18, 18, so, 1⟩, ⟨17, 11, so, 0x20⟩, ⟨4, 0, so, 0⟩]⟩, -- CAN_DBT
  ⟨0xc, [(0x10000, 8)], false, [⟨4, 0, rw, 8⟩]⟩, -- CAN_RETRY
  ⟨0x10, [(0x10000, 8)], false, [⟨31, 30, ro, 0⟩, ⟨29, 29, ro, 0⟩, ⟨28, 28, ro, 0⟩, ⟨23, 16, ro, 0⟩, ⟨15, 8, ro, 0⟩, ⟨2, 0, ro, 0⟩]⟩, -- CAN_STATUS
  ⟨0x14, [(0x10000, 8)], false, [⟨3, 0, wo, 0⟩]⟩, -- CAN_CMD
  ⟨0x18, [(0x10000, 8)], false, [⟨4, 4, w1c, 0⟩, ⟨3, 3, w1c, 0⟩, ⟨2, 2, w1c, 0⟩, ⟨1, 1, w1c, 0⟩, ⟨0, 0, w1c, 0⟩]⟩, -- CAN_EVT
  ⟨0x1c, [(0x10000, 8)], false, [⟨31, 16, rc, 0⟩, ⟨15, 0, rc, 0⟩]⟩, -- CAN_EVT_CNT0
  ⟨0x20, [(0x10000, 8)], false, [⟨31, 16, rc, 0⟩, ⟨15, 0, rc, 0⟩]⟩, -- CAN_EVT_CNT1
  ⟨0x24, [(0x10000, 8)], false, [⟨15, 0, rc, 0⟩]⟩, -- CAN_EVT_CNT2
  ⟨0x40, [(0x10000, 8)], false, [⟨31, 0, rc, 0⟩]⟩, -- CAN_CNT_STUFF
  ⟨0x44, [(0x10000, 8)], false, [⟨31, 0, rc, 0⟩]⟩, -- CAN_CNT_FORM
  ⟨0x48, [(0x10000, 8)], false, [⟨31, 0, rc, 0⟩]⟩, -- CAN_CNT_ACK
  ⟨0x4c, [(0x10000, 8)], false, [⟨31, 0, rc, 0⟩]⟩, -- CAN_CNT_BIT
  ⟨0x50, [(0x10000, 8)], false, [⟨31, 0, rc, 0⟩]⟩, -- CAN_CNT_CRC
  ⟨0x54, [(0x10000, 8)], false, [⟨31, 0, rc, 0⟩]⟩, -- CAN_CNT_PXE
  ⟨0x58, [(0x10000, 8)], false, [⟨31, 0, rc, 0⟩]⟩, -- CAN_CNT_RX
  ⟨0x5c, [(0x10000, 8)], false, [⟨31, 0, rc, 0⟩]⟩, -- CAN_CNT_TX
  ⟨0x60, [(0x10000, 8)], false, [⟨31, 0, rc, 0⟩]⟩, -- CAN_CNT_BAD_FIELD
  ⟨0x64, [(0x10000, 8)], false, [⟨31, 0, rc, 0⟩]⟩, -- CAN_CNT_TX_EXPIRED
  ⟨0x70, [(0x10000, 8)], false, [⟨31, 0, ro, 0⟩]⟩, -- CAN_TS_NOW
  ⟨0x74, [(0x10000, 8)], false, [⟨31, 0, ro, 0⟩]⟩, -- CAN_TS_SNAP_CNT
  ⟨0x78, [(0x10000, 8), (0x4, 3)], false, [⟨31, 0, ro, 0⟩]⟩, -- CAN_TS_SNAP_TIME
  ⟨0x84, [(0x10000, 8)], false, [⟨7, 0, ro, 0⟩]⟩, -- CAN_TS_SNAP_STEP
  ⟨0x88, [(0x10000, 8)], false, [⟨15, 0, ro, 0⟩]⟩, -- CAN_MB_IRQ
  ⟨0x100, [(0x10000, 8)], false, [⟨3, 0, wo, 0⟩]⟩, -- QU_BULK_CMD
  ⟨0x104, [(0x10000, 8)], false, [⟨31, 31, ro, 0⟩, ⟨30, 30, ro, 0⟩, ⟨29, 29, ro, 1⟩, ⟨28, 28, ro, 0⟩, ⟨27, 27, ro, 0⟩, ⟨16, 0, ro, 0⟩]⟩, -- QU_BULK_STATUS
  ⟨0x108, [(0x10000, 8)], false, [⟨16, 0, rw, 0x180⟩]⟩, -- QU_BULK_WM_HIGH
  ⟨0x10c, [(0x10000, 8)], false, [⟨16, 0, rw, 0x80⟩]⟩, -- QU_BULK_WM_LOW
  ⟨0x110, [(0x10000, 8)], false, [⟨3, 3, w1c, 0⟩, ⟨2, 2, w1c, 0⟩, ⟨1, 1, w1c, 0⟩, ⟨0, 0, w1c, 0⟩]⟩, -- QU_BULK_EVT
  ⟨0x114, [(0x10000, 8)], false, [⟨31, 16, rc, 0⟩, ⟨15, 0, rc, 0⟩]⟩, -- QU_BULK_EVT_CNT0
  ⟨0x118, [(0x10000, 8)], false, [⟨31, 16, rc, 0⟩, ⟨15, 0, rc, 0⟩]⟩, -- QU_BULK_EVT_CNT1
  ⟨0x11c, [(0x10000, 8)], false, [⟨31, 0, ro, 0⟩]⟩, -- QU_BULK_DATA
  ⟨0x120, [(0x10000, 8)], false, [⟨16, 0, ro, 0x200⟩]⟩, -- QU_BULK_CAP
  ⟨0x124, [(0x10000, 8)], false, [⟨7, 0, ro, 0x13⟩]⟩, -- QU_BULK_ITEM
  ⟨0x128, [(0x10000, 8)], false, [⟨16, 0, rc, 0⟩]⟩, -- QU_BULK_PEAK
  ⟨0x140, [(0x10000, 8)], false, [⟨9, 0, ro, 0⟩]⟩, -- CAN_BULK_OWED
  ⟨0x144, [(0x10000, 8)], false, [⟨9, 0, wo, 0⟩]⟩, -- CAN_BULK_ACK
  ⟨0x200, [(0x10000, 8), (0x80, 4)], false, [⟨31, 31, w1s, 0⟩, ⟨30, 30, w1s, 0⟩, ⟨29, 28, ro, 0⟩, ⟨27, 26, ro, 0⟩, ⟨25, 22, rw, 0⟩, ⟨15, 15, rw, 0⟩, ⟨14, 14, rw, 0⟩, ⟨13, 13, rw, 0⟩, ⟨12, 12, rw, 0⟩]⟩, -- CAN_TX_CTL
  ⟨0x204, [(0x10000, 8), (0x80, 4)], false, [⟨28, 0, rw, 0⟩]⟩ ] -- CAN_TX_ID

/-- Register rows of block CAN, part 1. -/
def regMapCan1 : List RegRow := [
  ⟨0x208, [(0x10000, 8), (0x80, 4)], false, [⟨31, 0, ro, 0⟩]⟩, -- CAN_TX_TSTAMP
  ⟨0x210, [(0x10000, 8), (0x80, 4), (0x4, 16)], false, [⟨31, 0, rw, 0⟩]⟩, -- CAN_TX_DATA
  ⟨0x400, [(0x10000, 8), (0x80, 16)], false, [⟨31, 31, rw, 0⟩, ⟨30, 30, rw, 0⟩, ⟨29, 29, rw, 0⟩, ⟨28, 0, rw, 0⟩]⟩, -- CAN_MB_FILT
  ⟨0x404, [(0x10000, 8), (0x80, 16)], false, [⟨28, 0, rw, 0x1fffffff⟩]⟩, -- CAN_MB_MASK
  ⟨0x408, [(0x10000, 8), (0x80, 16)], false, [⟨31, 31, ro, 0⟩, ⟨30, 30, ro, 0⟩, ⟨29, 29, ro, 0⟩, ⟨28, 28, w1c, 0⟩]⟩, -- CAN_MB_STAT
  ⟨0x410, [(0x10000, 8), (0x80, 16)], false, [⟨20, 20, ro, 0⟩, ⟨19, 19, ro, 0⟩, ⟨18, 18, ro, 0⟩, ⟨17, 17, ro, 0⟩, ⟨16, 16, ro, 0⟩, ⟨15, 12, ro, 0⟩, ⟨7, 0, ro, 0⟩]⟩, -- CAN_MB_WORD0
  ⟨0x414, [(0x10000, 8), (0x80, 16)], false, [⟨28, 0, ro, 0⟩]⟩, -- CAN_MB_ID
  ⟨0x418, [(0x10000, 8), (0x80, 16)], false, [⟨31, 0, ro, 0⟩]⟩, -- CAN_MB_STAMP
  ⟨0x41c, [(0x10000, 8), (0x80, 16), (0x4, 16)], false, [⟨31, 0, ro, 0⟩]⟩ ] -- CAN_MB_DATA

/-- Every register row of block CAN. -/
def regMapCan : List RegRow := regMapCan0 ++ regMapCan1

/-- Register rows of block SVC, part 0. -/
def regMapSvc0 : List RegRow := [
  ⟨0x0, [], false, [⟨31, 31, ro, 0⟩, ⟨30, 30, ro, 0⟩]⟩, -- SVC_MAC_STATUS
  ⟨0x4, [], false, [⟨1, 1, w1c, 0⟩, ⟨0, 0, w1c, 0⟩]⟩, -- SVC_MAC_EVT
  ⟨0x8, [], false, [⟨31, 16, rc, 0⟩, ⟨15, 0, rc, 0⟩]⟩, -- SVC_MAC_EVT_CNT
  ⟨0x10, [], false, [⟨31, 0, rc, 0⟩]⟩, -- SVC_MAC_RX_FRAMES
  ⟨0x14, [], false, [⟨31, 0, rc, 0⟩]⟩, -- SVC_MAC_TX_FRAMES
  ⟨0x18, [], false, [⟨31, 0, rc, 0⟩]⟩, -- SVC_MAC_RX_ERR
  ⟨0x1c, [], false, [⟨31, 0, rc, 0⟩]⟩, -- SVC_MAC_RX_DROP
  ⟨0x100, [], false, [⟨31, 31, rw, 1⟩, ⟨30, 30, rw, 0⟩, ⟨29, 29, rw, 1⟩, ⟨23, 0, rw, 0x43d1⟩]⟩, -- SVC_UART_CFG
  ⟨0x104, [], false, [⟨31, 31, ro, 0⟩, ⟨30, 30, ro, 0⟩, ⟨29, 29, ro, 0⟩, ⟨28, 28, ro, 0⟩, ⟨27, 27, ro, 0⟩]⟩, -- SVC_UART_STATUS
  ⟨0x108, [], false, [⟨1, 1, w1c, 0⟩, ⟨0, 0, w1c, 0⟩]⟩, -- SVC_UART_EVT
  ⟨0x10c, [], false, [⟨31, 16, rc, 0⟩, ⟨15, 0, rc, 0⟩]⟩, -- SVC_UART_EVT_CNT
  ⟨0x110, [], false, [⟨7, 0, wo, 0⟩]⟩, -- SVC_UART_TXDATA
  ⟨0x140, [], false, [⟨3, 0, wo, 0⟩]⟩, -- QU_UART_RX_CMD
  ⟨0x144, [], false, [⟨31, 31, ro, 0⟩, ⟨30, 30, ro, 0⟩, ⟨29, 29, ro, 1⟩, ⟨28, 28, ro, 0⟩, ⟨27, 27, ro, 0⟩, ⟨16, 0, ro, 0⟩]⟩, -- QU_UART_RX_STATUS
  ⟨0x148, [], false, [⟨16, 0, rw, 0x300⟩]⟩, -- QU_UART_RX_WM_HIGH
  ⟨0x14c, [], false, [⟨16, 0, rw, 0x100⟩]⟩, -- QU_UART_RX_WM_LOW
  ⟨0x150, [], false, [⟨3, 3, w1c, 0⟩, ⟨2, 2, w1c, 0⟩, ⟨1, 1, w1c, 0⟩, ⟨0, 0, w1c, 0⟩]⟩, -- QU_UART_RX_EVT
  ⟨0x154, [], false, [⟨31, 16, rc, 0⟩, ⟨15, 0, rc, 0⟩]⟩, -- QU_UART_RX_EVT_CNT0
  ⟨0x158, [], false, [⟨31, 16, rc, 0⟩, ⟨15, 0, rc, 0⟩]⟩, -- QU_UART_RX_EVT_CNT1
  ⟨0x15c, [], false, [⟨31, 0, ro, 0⟩]⟩, -- QU_UART_RX_DATA
  ⟨0x160, [], false, [⟨16, 0, ro, 0x400⟩]⟩, -- QU_UART_RX_CAP
  ⟨0x164, [], false, [⟨7, 0, ro, 1⟩]⟩, -- QU_UART_RX_ITEM
  ⟨0x168, [], false, [⟨16, 0, rc, 0⟩]⟩, -- QU_UART_RX_PEAK
  ⟨0x180, [], false, [⟨3, 0, wo, 0⟩]⟩, -- QU_UART_TX_CMD
  ⟨0x184, [], false, [⟨31, 31, ro, 0⟩, ⟨30, 30, ro, 0⟩, ⟨29, 29, ro, 1⟩, ⟨28, 28, ro, 0⟩, ⟨27, 27, ro, 0⟩, ⟨16, 0, ro, 0⟩]⟩, -- QU_UART_TX_STATUS
  ⟨0x188, [], false, [⟨16, 0, rw, 0x300⟩]⟩, -- QU_UART_TX_WM_HIGH
  ⟨0x18c, [], false, [⟨16, 0, rw, 0x100⟩]⟩, -- QU_UART_TX_WM_LOW
  ⟨0x190, [], false, [⟨3, 3, w1c, 0⟩, ⟨2, 2, w1c, 0⟩, ⟨1, 1, w1c, 0⟩, ⟨0, 0, w1c, 0⟩]⟩, -- QU_UART_TX_EVT
  ⟨0x194, [], false, [⟨31, 16, rc, 0⟩, ⟨15, 0, rc, 0⟩]⟩, -- QU_UART_TX_EVT_CNT0
  ⟨0x198, [], false, [⟨31, 16, rc, 0⟩, ⟨15, 0, rc, 0⟩]⟩, -- QU_UART_TX_EVT_CNT1
  ⟨0x19c, [], false, [⟨31, 0, ro, 0⟩]⟩, -- QU_UART_TX_DATA
  ⟨0x1a0, [], false, [⟨16, 0, ro, 0x400⟩]⟩, -- QU_UART_TX_CAP
  ⟨0x1a4, [], false, [⟨7, 0, ro, 1⟩]⟩, -- QU_UART_TX_ITEM
  ⟨0x1a8, [], false, [⟨16, 0, rc, 0⟩]⟩, -- QU_UART_TX_PEAK
  ⟨0x200, [], false, [⟨3, 0, wo, 0⟩]⟩, -- SVC_IMG_CMD
  ⟨0x204, [], false, [⟨31, 31, ro, 0⟩, ⟨30, 24, ro, 0⟩, ⟨23, 23, ro, 0⟩, ⟨22, 20, ro, 0⟩, ⟨19, 17, ro, 0⟩]⟩, -- SVC_IMG_STATUS
  ⟨0x208, [], false, [⟨31, 0, rw, 0⟩]⟩, -- SVC_IMG_SRC_LO
  ⟨0x20c, [], false, [⟨7, 0, rw, 0⟩]⟩, -- SVC_IMG_SRC_HI
  ⟨0x210, [], false, [⟨27, 0, rw, 0⟩]⟩, -- SVC_IMG_LEN
  ⟨0x214, [], false, [⟨27, 0, rw, 0⟩]⟩ ] -- SVC_IMG_OFS

/-- Register rows of block SVC, part 1. -/
def regMapSvc1 : List RegRow := [
  ⟨0x218, [], false, [⟨31, 31, rw, 0⟩, ⟨6, 0, rw, 0⟩]⟩, -- SVC_IMG_POLICY
  ⟨0x21c, [], false, [⟨31, 16, ro, 0⟩, ⟨15, 0, ro, 0⟩]⟩, -- SVC_IMG_FMT
  ⟨0x220, [], false, [⟨31, 0, ro, 0⟩]⟩, -- SVC_IMG_VERSION0
  ⟨0x224, [], false, [⟨31, 0, ro, 0⟩]⟩, -- SVC_IMG_VERSION1
  ⟨0x230, [(0x4, 3)], false, [⟨31, 0, rw, 0⟩]⟩, -- SVC_ACT_WHEN
  ⟨0x23c, [], false, [⟨31, 29, ro, 0⟩, ⟨28, 28, ro, 0⟩]⟩, -- SVC_ACT_STATUS
  ⟨0x240, [], false, [⟨31, 0, wo, 0⟩]⟩, -- SVC_ACT_CONFIRM
  ⟨0x244, [], false, [⟨0, 0, w1c, 0⟩, ⟨1, 1, w1c, 0⟩, ⟨2, 2, w1c, 0⟩, ⟨3, 3, w1c, 0⟩, ⟨4, 4, w1c, 0⟩, ⟨5, 5, w1c, 0⟩, ⟨6, 6, w1c, 0⟩]⟩, -- SVC_EVT
  ⟨0x248, [], false, [⟨31, 16, rc, 0⟩, ⟨15, 0, rc, 0⟩]⟩, -- SVC_EVT_CNT0
  ⟨0x24c, [], false, [⟨31, 16, rc, 0⟩, ⟨15, 0, rc, 0⟩]⟩, -- SVC_EVT_CNT1
  ⟨0x250, [], false, [⟨31, 16, rc, 0⟩, ⟨15, 0, rc, 0⟩]⟩, -- SVC_EVT_CNT2
  ⟨0x254, [], false, [⟨15, 0, rc, 0⟩]⟩, -- SVC_EVT_CNT3
  ⟨0x300, [], false, [⟨31, 31, rw, 0⟩, ⟨30, 30, rw, 0⟩, ⟨29, 27, rw, 2⟩, ⟨15, 0, rw, 0x3e8⟩]⟩, -- SVC_EFW_CFG
  ⟨0x304, [], false, [⟨31, 0, rw, 0x2800000⟩]⟩, -- SVC_EFW_SRC
  ⟨0x308, [], false, [⟨23, 0, rw, 0⟩]⟩, -- SVC_EFW_LEN
  ⟨0x30c, [], false, [⟨31, 0, rw, 0⟩]⟩, -- SVC_EFW_VERSION
  ⟨0x310, [(0x4, 3)], false, [⟨31, 0, rw, 0⟩]⟩, -- SVC_EFW_WHEN
  ⟨0x31c, [], false, [⟨3, 0, wo, 0⟩]⟩, -- SVC_EFW_CMD
  ⟨0x320, [], false, [⟨31, 30, ro, 0⟩, ⟨29, 0, ro, 0⟩]⟩ ] -- SVC_EFW_STATUS

/-- Every register row of block SVC. -/
def regMapSvc : List RegRow := regMapSvc0 ++ regMapSvc1

/-- Register rows of block PWR. -/
def regMapPwr : List RegRow := [
  ⟨0x0, [], false, [⟨31, 31, ro, 0⟩, ⟨30, 30, ro, 0⟩, ⟨15, 0, ro, 0⟩]⟩, -- PWR_IN_STATUS
  ⟨0x4, [], false, [⟨15, 0, ro, 0⟩]⟩, -- PWR_IN_POWER
  ⟨0x8, [], false, [⟨4, 4, w1c, 0⟩, ⟨3, 3, w1c, 0⟩, ⟨2, 2, w1c, 0⟩, ⟨1, 1, w1c, 0⟩, ⟨0, 0, w1c, 0⟩]⟩, -- PWR_EVT
  ⟨0xc, [], false, [⟨31, 16, rc, 0⟩, ⟨15, 0, rc, 0⟩]⟩, -- PWR_EVT_CNT0
  ⟨0x10, [], false, [⟨31, 16, rc, 0⟩, ⟨15, 0, rc, 0⟩]⟩, -- PWR_EVT_CNT1
  ⟨0x14, [], false, [⟨15, 0, rc, 0⟩]⟩, -- PWR_EVT_CNT2
  ⟨0x18, [], false, [⟨31, 31, ro, 0⟩, ⟨30, 30, ro, 0⟩, ⟨29, 29, ro, 0⟩, ⟨28, 28, ro, 0⟩, ⟨27, 27, ro, 0⟩, ⟨26, 26, ro, 0⟩, ⟨15, 0, ro, 0⟩]⟩, -- PWR_CELL_STATUS
  ⟨0x1c, [], false, [⟨15, 0, ro, 0⟩]⟩, -- PWR_CELL_TEMP
  ⟨0x20, [], false, [⟨0, 0, rw, 1⟩]⟩, -- PWR_CHG_CFG
  ⟨0x24, [], false, [⟨31, 24, ro, 0⟩, ⟨23, 0, ro, 0⟩]⟩, -- PWR_GAUGE
  ⟨0x28, [], false, [⟨23, 0, rw, 0xaae60⟩]⟩, -- PWR_GAUGE_CAP
  ⟨0x2c, [], false, [⟨15, 0, ro, 0⟩]⟩ ] -- PWR_GAUGE_REST

/-- The register rows of each block. -/
def regMap : Blk → List RegRow
  | .sys => regMapSys
  | .time => regMapTime
  | .rtc => regMapRtc
  | .key => regMapKey
  | .rcd => regMapRcd
  | .fe => regMapFe
  | .fab => regMapFab
  | .port => regMapPort
  | .ring => regMapRing
  | .mtr => regMapMtr
  | .dio => regMapDio
  | .ind => regMapInd
  | .rad => regMapRad
  | .can => regMapCan
  | .svc => regMapSvc
  | .pwr => regMapPwr

end Sys2Proof.Machine
end

