-- ==== Sys2Proof/Machine/State.lean ====
section
/-! DEFINITION. The state of the module as plain data, and `State.reset`: the module before its input is valid.
The registers of each block are one sparse map from offset to word, `regs`; a register's unlisted value is the reset
value of its map. Everything else the spec gives the module stands in one structure for each chapter. -/
namespace Sys2Proof.Machine
open Sys2Proof

/-- No meaning of this model ends in a fault: every command of the table has an effect in every state, an access to
an address that does not exist included (R11, R12, R36), so this type has no constructor. -/
inductive Fault where
  deriving DecidableEq, Repr

/-- Reasons for a refusal. -/
inductive Refusal where
  /-- Raised by an arm of `exec` whose command has no meaning yet. Safe: nothing is claimed of it. -/
  | notModelled (mnemonic : String)
  deriving DecidableEq, Repr

/-! ## Registers -/

/-- Walk the (stride, count) pairs of a register row with what remains of the offset. -/
def dimsHit : List (Nat × Nat) → Nat → Bool
  | [], r => r.beq 0
  | (st, c) :: ds, r => (r / st).blt c && dimsHit ds (r % st)

/-- Whether a row decodes an offset. -/
def rowHit (x : RegRow) (off : Nat) : Bool := x.off.ble off && dimsHit x.dims (off - x.off)

/-- The row that decodes an offset of a block; `none` when no register does (R12). -/
def findRow (b : Blk) (off : Nat) : Option RegRow := (regMap b).find? (fun x => rowHit x off)

/-- The reset word of a row. -/
def rowReset (x : RegRow) : Word :=
  BitVec.ofNat 32 (x.fields.foldl (fun a f => a + f.reset * 2 ^ f.lsb) 0)

/-- The reset value of the register at an offset of a block: what an unlisted register reads as. -/
def regReset (b : Blk) (off : Nat) : Word :=
  match findRow b off with
  | some x => rowReset x
  | none => 0

/-- The register words of every block, keyed by offset in the block. -/
structure Regs where
  sys : Store Word
  time : Store Word
  rtc : Store Word
  key : Store Word
  rcd : Store Word
  fe : Store Word
  fab : Store Word
  port : Store Word
  ring : Store Word
  mtr : Store Word
  dio : Store Word
  ind : Store Word
  rad : Store Word
  can : Store Word
  svc : Store Word
  pwr : Store Word
  deriving DecidableEq, Repr

/-! ## Control space and memories -/

/-- The register interconnect and the memories of the control space (R17, R36, R37). `readData`, `readBytes` and
`coreFault` are the model's own: the data of the latest read that completed, its bytes when it read a memory, and the
latest access-fault exception raised in an application core (core, address, store). -/
structure Bus where
  readData : Word
  readBytes : List Byte
  coreFault : Option (Nat × Nat × Bool)
  /-- Bit d − 1: the clock of domain Dd runs (R40). -/
  clocks : Nat
  /-- High words captured by a read of the low word and not yet read, keyed by the low word's address (R17). -/
  shadow : Store (Option Word)
  /-- Low words held until their high word is written, keyed by the low word's address (R17). -/
  held : Store (Option Word)
  bootRom : Store Byte
  sram : Store Byte
  sdram : Store Byte
  deriving DecidableEq, Repr

/-! ## Field engines -/

/-- A time register of an engine: its value and its step-epoch tag (R88, R110). -/
structure TReg where
  val : Stamp
  tag : Byte
  deriving DecidableEq, Repr

/-- What an engine is blocked in. `wait pd buf left`: WAIT with its predicate, buffer address and timeout in µs
(R113); `chk pd ctx` and `apl pd ctx`: CHK, and APL whose check is repeated (R72), with predicate and context (R120). -/
inductive Blocked where
  | wait (pd : Nat) (buf : Nat) (timeout : Nat)
  | chk (pd : Nat) (ctx : Nat)
  | apl (pd : Nat) (ctx : Nat)
  deriving DecidableEq, Repr

/-- A physical engine beside its registers of R68: local store, register files, special registers of R89. -/
structure Engine where
  ls : Store Byte
  w : Store DWord
  p : Store Bool
  e : Store (BitVec 25)
  t : Store TReg
  s5 : DWord
  s6 : DWord
  s7 : DWord
  s8 : DWord
  tokens : DWord
  insns : DWord
  s12 : DWord
  s13 : DWord
  s14 : DWord
  codeWords : Nat
  blocked : Option Blocked
  /-- RUN or STEP lets the engine pass a breakpoint at the PC once (R68). -/
  passBrk : Bool
  /-- STEP: halt after one instruction (R68). -/
  stepping : Bool
  deriving DecidableEq, Repr

def TReg.zero : TReg := ⟨0, 0⟩

/-- An engine that has not started: nothing listed, every register 0, no image. -/
def Engine.off : Engine :=
  ⟨[], [], [], [], [], 0, 0, 0, 0, 0, 0, 0, 0, 0, 0, none, false, false⟩

/-- The latest event of a record that entered an intake list without DUP (R59). -/
structure DupRef where
  kind : Nat
  p5 : Word
  p6 : Word
  p7 : Word
  time : Stamp
  deriving DecidableEq, Repr

/-- The engine complex: physical engines 0–17, the image store, the clamp counts (R129), the intake lists of the
sixteen logical engines (R57), the references of R59, the accumulators of R50 in ticks, and which logical engines are
stopped for want of silicon (R326). `held` is true between steps 2 and 4 of R78, and after a supply warning. -/
structure Fe where
  eng : Store Engine
  images : Store (Option Image)
  clamps : Store Nat
  lists : Store (List IEvent)
  dupRef : Store (Option DupRef)
  acc : Store Nat
  stopped : List Nat
  intakeOpen : Bool
  held : Bool
  deriving DecidableEq, Repr

/-! ## Sheaves -/

/-- One of the eight sheaf contexts (R72, R83). -/
structure Ctx where
  st : CtxSt
  owner : Option Owner
  /-- The FCP2 session for which firmware opened it (R171). -/
  session : Option Nat
  result : Nat
  entries : List ShfEntry
  addr : Word
  space : Nat
  mask : Word
  /-- The registers FE_SHF_WHEN and FE_SHF_TIMED of the context (R83). -/
  regWhen : Stamp
  regTimed : Bool
  /-- The instant of the sheaf, and whether it is timed, as its APPLY gave them (R72). -/
  when_ : Stamp
  timed : Bool
  failRule : Nat
  failOther : Bool
  failIndex : Nat
  seq : Nat
  /-- Images copied into image staging when the check passed, by logical engine (R72). -/
  images : List (Nat × Image)
  /-- The count of commits when the check passed (R73). -/
  checkedAt : Nat
  /-- CHECKING repeated for an APPLY (R73). -/
  forApply : Bool
  /-- PENDING with its register shadows loaded (R80). -/
  loaded : Bool
  /-- To be discarded when its check ends, because a CONTROL reset found it in CHECKING (R352). -/
  dropAfter : Bool
  /-- It applies after its instant (R77, R80). -/
  late : Bool
  /-- The handle slot of the session command that waits for its check or its apply (R171). -/
  hnd : Option Nat
  deriving DecidableEq, Repr

def Ctx.free : Ctx :=
  ⟨.free, none, none, 0, [], 0, 0, 0xFFFFFFFF, 0, false, 0, false, 0, false, 0, 0, [], 0, false, false, false, false, none⟩

/-- The sheaf mechanism. `lastSeq` is the number last assigned, which the journal keeps (R72). `applied` lists the committed
sheaves that have applied, in the order in which they applied; `waiting` those that have not, in the order in which they
will. `commits` counts the sheaves committed (R73). `torn` is true when power was lost
with a sheaf in COMMITTING (R76). -/
structure Shf where
  ctx : Store Ctx
  lastSeq : Nat
  commits : Nat
  applied : List Committed
  waiting : List Committed
  torn : Bool
  deriving DecidableEq, Repr

/-! ## Handles, calendar, sessions, storms -/

/-- A handle slot (R159–R162). -/
structure Handle where
  st : HSt
  gen : Nat
  owner : Owner
  /-- The target record of a field command: index and GEN of the command's body. -/
  ep : Nat
  epGen : Nat
  eui : Eui
  path : Nat
  addr : Word
  isField : Bool
  hold : Bool
  noReplyCmd : Bool
  late : Bool
  status : Nat
  result : Word
  /-- Completion time, its step epoch, and the position in the order of completions (R168, R169). -/
  time : Stamp
  step : Nat
  order : Nat
  deriving DecidableEq, Repr

def Handle.fresh : Handle :=
  ⟨.free, 1, .module, 0, 0, 0, 0, 0, false, false, false, false, 0, 0, 0, 0, 0⟩

/-- The handle pool: slots, the first slot that has not been allocated since start, and the slots freed since, oldest
first (R160); the count of completions. -/
structure Hnd where
  /-- The generation of a slot that is not listed (R160, R337). -/
  base : Nat
  tab : Store Handle
  freshFrom : Nat
  freed : List Nat
  completed : Nat
  deriving DecidableEq, Repr

/-- A copy of a calendar entry (R304, R305). `gone`: it reached LEFT without leaving (R570). -/
structure Copy where
  egress : Egress
  launch : Stamp
  st : CopySt
  gone : Bool
  deriving DecidableEq, Repr

/-- An entry of the launch calendar (R304, R305). `hsr`: the number of its ring frame, taken at its fetch (R270). -/
structure CalEntry where
  body : CmdBody
  ep : Nat
  path : Nat
  addr : Word
  immediate : Bool
  instant : Stamp
  repeats : Nat
  copies : List Copy
  launched : Bool
  order : Nat
  hsr : Option Nat
  deriving DecidableEq, Repr

/-- The launch calendar (R304–R310): entries by number, and the count of placements. -/
structure Cal where
  tab : Store (Option CalEntry)
  placed : Nat
  deriving DecidableEq, Repr

/-- An FCP2 session (R167–R176). -/
structure Session where
  isOpen : Bool
  control : Bool
  version1 : Bool
  mask : Word
  /-- A PING is outstanding (R168). -/
  pinged : Bool
  /-- Closed, its number kept until its handles have completed (R168). -/
  closing : Bool
  undelivered : Nat
  evLost : Nat
  deriving DecidableEq, Repr

def Session.none : Session := ⟨false, false, false, 0, false, false, 0, 0⟩

/-- Completion items of a session's queue, as the eight words of R184, oldest first; how many words of the oldest
have been read (R180). -/
structure Queue where
  items : List (List Word)
  readWords : Nat
  deriving DecidableEq, Repr

def Queue.empty : Queue := ⟨[], 0⟩

/-- FCP2 sessions, TLS connections before HELLO, and the queue-unit instances (R177–R184). The intake's items are
`Fe.lists`. -/
structure Fcp where
  sess : Store Session
  /-- Connections whose TLS handshake completed and that have sent nothing yet: CONTROL rights or not. -/
  conns : List Bool
  cpl : Store Queue
  /-- Command data of a completion, by handle value (R168, R171). -/
  data : Store (List Byte)
  bulk : Store Queue
  uartRx : Queue
  uartTx : Queue
  /-- The feeder queues of the indicator chains (R469). -/
  feed : Store Queue
  deriving DecidableEq, Repr

/-- The storm procedure beside its registers (R186–R190): the storm start, the recovery list not yet polled, the polls
sent and those that got no reply. -/
structure Storm where
  start : Stamp
  list : List Nat
  polls : Nat
  noReply : Nat
  deriving DecidableEq, Repr

/-! ## Time -/

/-- A transmit timestamp (R303). -/
structure TsEntry where
  id : Nat
  port : Nat
  step : Nat
  time : Stamp
  deriving DecidableEq, Repr

/-- The time base (R285) in units of 2⁻³² ns, the slew in progress (R288) in units of 10⁻⁶ × 2⁻³² ns: what remains,
signed, and what each tick applies; the servo's counters (R300): intervals in the run of the state, the suspect offset in
ns and the intervals that confirmed it; the latest 1PPS input edge (R298); the transmit stamp queues by plot (R303); the
QL received from each SyncE candidate, plus 1, but the one it had while the hold-off after the loss of its QL runs, those
candidates, the candidates that cannot be selected, and whether one has been selected since the last reset (R297); an admitted
source that is measured and not preferred, its port or 0x100 for 1PPS (R300, R312); by plot, how many reads of the stamp registers
still return 0 after a read of an empty queue (R312); the PTP masters heard (R296). -/
structure TimeSt where
  now : Nat
  slewLeft : Int
  slewTick : Nat
  run : Nat
  suspect : Int
  confirms : Nat
  ppsIn : Stamp
  ppsStep : Nat
  ppsValid : Bool
  ts : Store (List TsEntry)
  synceQl : Store Nat
  synceHold : List Nat
  synceDown : List Nat
  synceWas : Bool
  other : Option Nat
  tsDry : Store Nat
  masters : List PtpMaster
  deriving DecidableEq, Repr

/-! ## Spares and pairs -/

/-- A harrow pass in progress: class and element, and whether the element is a fallow one under R317. -/
structure Pass where
  cls : Nat
  el : Nat
  fallow : Bool
  deriving DecidableEq, Repr

/-- Spares beside their registers (R313–R328). Elements are numbered as SYS_FAULT_LAST.ELEMENT numbers them. Times are ticks
of operating time. -/
structure Spares where
  passes : List Pass
  /-- Retired elements: class and element (R314). -/
  retired : List (Nat × Nat)
  /-- Transient faults recorded: class, element, time (R314). -/
  transients : List (Nat × Nat × Nat)
  /-- Errors on elements under a pass, which start nothing: class, element, how many (R315). -/
  counted : List (Nat × Nat × Nat)
  /-- Corrected errors of a bank row: element, time (R313). -/
  corrected : List (Nat × Nat)
  /-- Queue managers whose pass has ended and is judged by the plot's next gleaner pass: plot and the mismatched cells
  (R314). -/
  judged : List (Nat × List Nat)
  /-- Cells that mismatched when a queue manager's pass in progress was started, by plot. -/
  cells : Store (List Nat)
  /-- The fallow bank of each plot, and the fallow regulator phases. -/
  bank : Store Nat
  phases : List Nat
  /-- The physical bank of each eighth of a plot's cell indices, by 8 × plot + eighth (R321). -/
  bankOf : Store Nat
  /-- Held cells that still lie in a replaced bank: plot, that bank, index (R321). -/
  leaving : List (Nat × Nat × Nat)
  /-- Eighths of a plot's indices lost with their bank: plot and eighth (R229). -/
  gone : List (Nat × Nat)
  /-- Banks that are RETIRED: plot and bank (R321). -/
  banksRetired : List (Nat × Nat)
  /-- Planes whose place in the active set is vacant, the longest first (R314, R318). -/
  vacant : List Nat
  /-- Plots without power for want of planes or phases (R324, R327). -/
  plotsOff : List Nat
  /-- Queue managers that install a rebuilt state: plot, and when that ends (R328). -/
  installs : List (Nat × Nat)
  /-- The flash block that holds a block of the 8,192 in use, when another than its own, with the erasures that its region had
  seen when it took over (R318, R322). -/
  flashAt : Store (Nat × Nat)
  /-- Blocks that the recorder log has given up, by their place in the log (R325). -/
  logGone : List Nat
  /-- Regions of the flash that are read-only (R325). -/
  readOnly : List FlashRegion
  /-- Erasures of a flash block by the recorder log, and of the image slots by OPEN (R344). -/
  erases : Store Nat
  slotErases : Nat × Nat
  /-- The time in ticks for which a laser has been on, by 9 × engine + lane, 8 for the fallow laser; the lasers that are on, with
  the time since; when a regulator phase came into service (R344). -/
  laserOn : Store Nat
  laserSince : List (Nat × Nat)
  phaseSince : Store Nat
  deriving DecidableEq, Repr

/-- A ghost entry (R340). -/
structure Ghost where
  eui : Eui
  slot : Nat
  safe : Nat
  /-- The operating time in ticks at the latest GHOST record and at the latest RETIRE (R341). -/
  recorded : Option Nat
  retired : Option Nat
  deriving DecidableEq, Repr

/-- A checkpoint (R336): field-memory bytes, slot generations with that of every slot not listed, applied images, whether
its snapshot is complete. -/
structure Ckpt where
  fmem : Store Byte
  base : Nat
  gens : Store Nat
  images : List (Nat × Image)
  complete : Bool
  deriving DecidableEq, Repr

def Ckpt.empty : Ckpt := ⟨[], 1, [], [], false⟩

/-- The pair unit beside its registers (R330–R341, R380). Ages count operating time in ms. -/
structure Pair where
  leaseSeq : Nat
  ckptSeq : Nat
  /-- The newest lease and CKPT sequence numbers received (R331), and the epochs they carried (R334). -/
  leaseSeen : Nat
  ckptSeen : Nat
  leaseEpoch : Nat
  ckptEpoch : Nat
  /-- Leases sent less than 200 ms ago that no ECHO has acknowledged: number, and when it was sent, in ticks. -/
  leaseSent : List (Nat × Nat)
  /-- When the newest lease was received, and acknowledged; when the newest delta was (R345). -/
  leaseAt : Option Nat
  leaseAcked : Option Nat
  ckptAt : Option Nat
  ckptAcked : Option Nat
  /-- Deltas sent and not acknowledged: their CKPT numbers. -/
  deltaSent : List Nat
  /-- The newest snapshot with the deltas after it, the one before it, and the one that is being received (R336). -/
  ckpt : Ckpt
  older : Ckpt
  building : Ckpt
  /-- Journal entries received from the partner (R336), and the highest sheaf number its deltas carried. -/
  journal : List Committed
  sheafSeen : Nat
  ghosts : List Ghost
  /-- 64-byte lines of field memory written since the last delta (R336). -/
  dirty : List Nat
  /-- PRES_IN as it was read when the module entered BOOT (R380). -/
  fitted : Bool
  deriving DecidableEq, Repr

/-- A record as the recorder holds it (R491). -/
structure RecordE where
  seq : Nat
  offer : Offer
  step : Nat
  opMs : Nat
  cycle : Nat
  ptpValid : Bool
  holdover : Bool
  time : Stamp
  deriving DecidableEq, Repr

/-! ## Power, ledger, identity -/

/-- What survives the loss of all power in the ledger and the flash (R507, R336, R348–R353), beside the structures
that hold it under their own chapters. -/
structure Ledger where
  pwrCycles : Nat
  opMs : Nat
  /-- The first sequence number of the block after the newest reservation (R492). -/
  seqReserved : Nat
  epoch : Nat
  utcoff : Word
  /-- Sources of the warning that ended the previous power cycle: PFW_N, input voltage, SHUTDOWN (R354, R365). -/
  pfw : Bool
  inLow : Bool
  shutdown : Bool
  /-- The POWER_FAIL entry not yet copied to the log (R500). -/
  powerFail : Option (List Word)
  /-- Fault summaries, newest last (R509): the record with the first 24 bytes of its body. -/
  summaries : List RecordE
  /-- Measured-boot entries (R349, R507), newest last. -/
  boots : List BootEntry
  /-- The energy totals of the newest committed save, by register offset (R409, R410). -/
  totals : Store Word
  writeSeq : Nat
  /-- Entries that wait for both banks, in the order in which they are written (R508). -/
  writes : List LdgWrite
  /-- A supply warning has shut the ledger to all but the entries of step 4 of R355 (R511). -/
  shut : Bool
  /-- The copies in bank 0 and in bank 1 (R507). -/
  bank0 : List LdgCopy
  bank1 : List LdgCopy
  /-- How many fault summaries, boots and saves of totals have been written: each goes to the next place of its ring, or to
  the other of its two slots (R507). -/
  ring : Nat × Nat × Nat
  /-- Own checkpoint of field memory and the slot generations (R76, R160, R336), and how many sheaves had applied when it
  was taken. -/
  own : Ckpt
  ownApplied : Nat
  deriving DecidableEq, Repr

/-- The power sequence (R346–R357) and the supply: the step of R348 that the control domain has reached, 0 while the FULL
reset is held and 5 when its firmware runs; whether the time base has been loaded (step 6) and the state restored (step 7)
since the latest FULL reset; whether the input is valid; whether a SHUTDOWN holds the reset (R357); whether the cell's voltage lies
outside its range (R359); whether the cell has been removed and its re-insertion has not yet counted (R360); operating time
at the start in ms, and ticks of the time base since the start (R493) and since the input became valid (R188), and at the
latest restart of the watchdog (R353); the part of a µAh that the gauge has
counted beyond PWR_GAUGE.CHARGE, in µA times ticks of operating time (R362); the operating time in ticks at which the cell came
to rest (R366); whether the main input supplies the always-on domain, which a warning alone does not end (R361); whether KEY_MB
holds the hash of this power cycle's image (R537); whether a CONTROL reset runs steps 3 to 5 once more, so that step 2 is over
(R351). -/
structure Power where
  step : Nat
  timeUp : Bool
  restored : Bool
  inputOk : Bool
  shutHeld : Bool
  absent : Bool
  removed : Bool
  opBase : Nat
  opTicks : Nat
  validTicks : Nat
  kickTicks : Nat
  cellRest : Nat
  restAt : Nat
  mainUp : Bool
  measured : Bool
  again : Bool
  deriving DecidableEq, Repr

/-- The module's identity, set at production (R1, R227), and its presence lines (R380). -/
structure Ident where
  code : OrderCode
  mac : Mac
  slotB : Bool
  partner : Bool
  deriving DecidableEq, Repr

/-! ## The recorder -/

/-- A segment of the log (R502, R503): the flash block it lies in, its bytes with the header, its header, and its records. -/
structure Seg where
  block : Nat
  bytes : Nat
  head : List Byte
  recs : List RecordE
  deriving DecidableEq, Repr

/-- A COPY in progress (R505): the last number and the bytes that it reports when it ends. -/
structure RecCopy where
  last : Nat
  bytes : Nat
  deriving DecidableEq, Repr

/-- The recorder (R491–R506) beside its registers: records offered and not yet taken in, with the access cycle of each, the contents of the two buffers,
the log's segments oldest first, the current block and the bytes used in it, the next number, the OP_MS of the first and of
the last refusal, the selected record, buffers whose flush waits for the other's, the COPY in progress. `closed`: the
final flush of a power cycle has begun (R498). -/
structure Recorder where
  offered : List Offer
  cycles : List (Option (Nat × Nat))
  bufA : List RecordE
  bufB : List RecordE
  log : List Seg
  block : Nat
  used : Nat
  nextSeq : Nat
  isOpen : Bool
  closed : Bool
  lostFirst : Nat
  lostLast : Nat
  finalLost : Nat
  flushAsk : Bool
  copy : Option RecCopy
  deriving DecidableEq, Repr

/-! ## The fabric -/

/-- A frame stored in an ingress plot (R197, R231). `node` is where it entered: a port 0–255, or 256 + p for the control
port's attachment to plot p. `untag` lists the ports that send it untagged, `rings` the HSR sequence number it takes on
each ring into which it is injected, `pass` that it goes on along its ring with its own tag (R270, R273). `list`: the
indices of its cells (R249). `ctlTci`: the tag with which the control port gets it when no VLAN was determined for it (R228).
`rx`: the receive stamp and step epoch of a PTP message (R302). `cal`: the calendar entry whose frame it is (R305). -/
structure FabFrame where
  fr : Frame
  node : Nat
  cls : Nat
  vid : Option Nat
  ct : Bool
  marked : Bool
  cells : Nat
  acct : Nat
  untag : List Nat
  rings : List (Nat × Nat)
  pass : Bool
  stampId : Option Nat
  sync : Bool
  cellErr : Bool
  list : List Nat
  ctlTci : Nat
  rx : Option (Stamp × Nat)
  cal : Option Nat
  deriving DecidableEq, Repr

/-- A part of a frame that waits in a VOQ of plot `plot`: `voq` is the egress node of the VOQ, `dests` the egress plots
with their target nodes (R204, R243, R247). -/
structure VoqPart where
  fid : Nat
  plot : Nat
  voq : Nat
  cls : Nat
  multi : Bool
  sown : Bool
  dests : List (Nat × List Nat)
  deriving DecidableEq, Repr

/-- A frame on its way to, or at, one egress plot (R205, R213). `lead`: it accounts for its tokens on the ingress
plot's link (a sown frame crosses once). `dead`: its arrival is discarded (R215). -/
structure Crossing where
  fid : Nat
  src : Nat
  dst : Nat
  cls : Nat
  seq : Nat
  plane : Nat
  tokens : Nat
  targets : List Nat
  multi : Bool
  sown : Bool
  lead : Bool
  dead : Bool
  frame : FabFrame
  deriving DecidableEq, Repr

/-- An entry of a node's transmit list, or of the replication list of its plot: `real` for a residue entry, not for a
frame that waits behind one (R244, R245). -/
structure TxEntry where
  node : Nat
  src : Nat
  cls : Nat
  fid : Nat
  tokens : Nat
  multi : Bool
  real : Bool
  frame : FabFrame
  deriving DecidableEq, Repr

/-- The state of a deficit weighted round robin over classes 0–5 (R208). -/
structure Drr where
  cur : Nat
  visited : Bool
  deficit : List Nat
  deriving DecidableEq, Repr

def Drr.zero : Drr := ⟨0, false, [0, 0, 0, 0, 0, 0]⟩

/-- A dynamic or static entry of the forwarding database (R199–R202): the node it points to, and the operating time in ticks
at its latest refresh. -/
structure FdbEntry where
  node : Nat
  static : Bool
  stamp : Nat
  deriving DecidableEq, Repr

/-- The fabric beside its registers (R192–R257). Streams are numbered 64 × ingress plot + 8 × egress plot + class;
`vcore` is in units of 0.5 mV; `drr` and `turn` are keyed by plot and, from 8 on, by 8 + node; `granted` is keyed by node
and, for replication credits, by 512 + plot. `cells` are the tags of R249 by plot and index; `fresh`, `unlisted` and `freed`
make the free list of each plot; `repl` and `rsm` list the cells of a plot's replication region and of a node's reassembly
slot. `sending`: the frame in transmission on a port and the operating time in ticks at which it ends (R262). -/
structure Fab where
  frames : Store (Option FabFrame)
  nextFrame : Nat
  waiting : List VoqPart
  flight : List Crossing
  held : List Crossing
  nextSeq : Store Nat
  expect : Store Nat
  tx : List TxEntry
  residue : List TxEntry
  drr : Store Drr
  turn : Store Nat
  granted : Store Nat
  fdb : Store (Option FdbEntry)
  fdbResult : Option Nat
  vcore : Nat
  lowRun : Nat
  suspects : Store (List (Nat × Nat))
  cells : Store CellTag
  fresh : Store Nat
  unlisted : Store (List Nat)
  freed : Store (List Nat)
  repl : Store (List Nat)
  rsm : Store (List Nat)
  sending : Store (Option (Nat × Nat))
  deriving DecidableEq, Repr

/-! ## Rings -/

/-- A duplicate-discard entry (R274, R276–R279): which ports have seen the frame, whether the module sent it, its
creation in 2⁻³² ns, whether it has been counted as one-sided, and how far NEWEST of its source lies beyond its
number. -/
structure DdEntry where
  ring : Nat
  src : Mac
  seq : Nat
  seenA : Bool
  seenB : Bool
  sent : Bool
  born : Nat
  counted : Bool
  beyond : Nat
  deriving DecidableEq, Repr

/-- A source record (R275): the newest sequence number, and the latest frame. -/
structure DdSource where
  ring : Nat
  src : Mac
  newest : Nat
  last : Nat
  deriving DecidableEq, Repr

/-- The run of a node of a ring (R279): consecutive entries that reached SKEW_TMO with only port A, or only port B, marked. -/
structure GapRun where
  ring : Nat
  src : Mac
  onlyA : Nat
  onlyB : Nat
  deriving DecidableEq, Repr

/-- The rings beside their registers: entries and source records by plot, oldest first; the latest supervision frame of
an address without a node entry, by ring, in ticks of operating time (R278); the runs of R279; the supervision number of each
ring. -/
structure RingSt where
  dd : Store (List DdEntry)
  srcs : Store (List DdSource)
  unknown : List (Nat × Mac × Nat)
  runs : List GapRun
  svSeq : Store Nat
  deriving DecidableEq, Repr

/-! ## Metering -/

/-- A candidate crossing (R405): its direction, its interpolated instant in 2⁻¹⁶ ns, samples that carried the new sign. -/
structure Cand where
  rising : Bool
  instant : Nat
  kept : Nat
  deriving DecidableEq, Repr

/-- The zero-crossing detector of a voltage channel (R405, R406): the sign of the latest sample, the candidate, the
latest accepted instant or the start of metering, crossings accepted in time since NO_MAINS, and for L1 the rising
crossings of the window in progress, the instant of the latest rising one, the instant from which its frequency is measured
(0: none) and the periods since. -/
structure Zc where
  negative : Bool
  cand : Option Cand
  last : Nat
  good : Nat
  rising : Nat
  rose : Nat
  first : Nat
  periods : Nat
  deriving DecidableEq, Repr

def Zc.zero : Zc := ⟨false, none, 0, 0, 0, 0, 0, 0⟩

/-- A transient in progress (R407): its first sample instant, the peak raw code, samples, clipped samples, and the
consecutive samples at or below the threshold. -/
structure Trans where
  first : Stamp
  peak : Nat
  samples : Nat
  clipped : Nat
  below : Nat
  deriving DecidableEq, Repr

/-- An armed or running capture (R411–R415): its interval, whether a surge triggers it and whether it has, the step epoch
at ARM, the samples of the block in progress, the stamp of the first sample, their number, the energy of each feeder phase in
units of R402's product, and the stamps of the samples whose energy it does not hold yet. -/
structure Cap where
  start : Stamp
  stop : Stamp
  surge : Bool
  step : Nat
  part : List (List Int)
  first : Option Stamp
  count : Nat
  energy : Store Int
  owed : List Stamp
  full : Bool
  deriving DecidableEq, Repr

/-- The movement of a dim code (R127): from `a` to `b` in `ms` from the launch on. -/
structure Ramp where
  a : Nat
  b : Nat
  ms : Nat
  start : Stamp
  deriving DecidableEq, Repr

/-- Metering beside its registers (R398–R419): the latest samples of the 54 channels as raw codes with their stamps, oldest
first; the samples of each busbar's window in progress; detectors; transients; the marks of the window by feeder phase
source (channel, kind: 0 SURGE, 1 CLIP, 2 NO_MAINS); the shifted samples of the latest complete window by channel, and the
fundamental last measured on each busbar, as periods and the 2⁻¹⁶ ns they took (R402); fractions of energy not yet in a
register, by its offset; the capture; OP_MS at the latest save. For the estimate: dim changes by endpoint, disabled feeders,
the microseconds of missing mains by voltage channel, the records known to have LOW_CONF for the period that has ended, the
launches by endpoint, newest first, and the energy of each slot by 36 times its number and the feeder phase, in units of R402's
product; the number of the period in progress; since when lighting control has run here, and whether a takeover began it; when
the time base last stepped by more than 1 s. Whether a start has loaded the totals (R410), the entries that the ledger writes
up to a save in progress (R409), and the steps of the time base since the latest sample, in 2⁻¹⁶ ns. -/
structure Mtr where
  hist : List (Stamp × List Int)
  len0 : Nat
  len1 : Nat
  zc : Store Zc
  trans : Store (Option Trans)
  marks : List (Nat × Nat)
  win : Store (List Int)
  base : Store (Nat × Nat)
  rest : Store Nat
  cap : Option Cap
  dims : Store Nat
  feedersOff : List Nat
  missing : Store Nat
  saved : Option Nat
  lows : List Nat
  runs : List (Nat × Ramp)
  slots : Store Int
  period : Nat
  since : Option Nat
  took : Bool
  stepped : Option Nat
  loaded : Bool
  stepBy : Int
  deriving DecidableEq, Repr

/-! ## Radio -/

/-- A frame that a transceiver is to send (R426–R437): the body, or `none` for a BEACON; the destination address, the
number of copies, those sent, the calendar entry whose launch it is, whether it is of the fault class, WAKE, the
sender's frame counter once a copy has started, and the operating time in ticks since which a copy has waited for budget. -/
structure RadTx where
  body : Option CmdBody
  dest : Nat
  copies : Nat
  sent : Nat
  cal : Option Nat
  fault : Bool
  wake : Bool
  seq : Option Nat
  held : Option Nat
  deriving DecidableEq, Repr

/-- What a transceiver's transmitter does: nothing, RSSI measurement of attempt b, backoff of attempt b, sending, the gap
between copies, waiting for budget, waiting for the next hop slot. -/
inductive RadPhase where
  | idle
  | lbt (b : Nat)
  | backoff (b : Nat)
  | tx
  | gap
  | duty
  | hop
  deriving DecidableEq, Repr

/-- A node's sequence window (R430): NEWEST and the 32-bit map, none before the first frame; and the node's fallow period
of R435: T in 2⁻¹⁶ ns and SLEEP in units of 100 ms. -/
structure RadNode where
  window : Option (Nat × Nat)
  from_ : Nat
  sleep : Nat
  deriving DecidableEq, Repr

def RadNode.none : RadNode := ⟨.none, 0, 0⟩

/-- A transceiver beside its registers (R423–R440): the frame in progress, the transmit queue, fault-class frames for the
urgent slots, frames queued for sleeping nodes with their endpoint, nodes by endpoint, recent JOINs with their operating
time in ticks, its frame counter and the end of the block reserved in the ledger, airtime bins (second, thirds of a µs). The key
of a queued frame is its endpoint, or for a unit without a record 2²⁴ and its node address. `gapped`: a frame whose next copy waits
for the end of its gap while an urgent-slot frame has the transmitter (R433, R436). -/
structure Rad where
  cur : Option RadTx
  gapped : Option RadTx
  phase : RadPhase
  queue : List RadTx
  urgent : List RadTx
  asleep : List (Nat × RadTx)
  nodes : Store RadNode
  joins : List (Eui × Nat)
  seq : Nat
  seqEnd : Nat
  bins : List (Nat × Nat)
  deriving DecidableEq, Repr

def Rad.off : Rad := ⟨.none, .none, .idle, [], [], [], [], [], 0, 0, []⟩

/-! ## CAN -/

/-- A frame that waits to be sent (R448, R449): the frame, its transmit buffer or none for a field frame, its order of
request, and the failed attempts. -/
structure CanTx where
  frame : CanFrame
  buf : Option Nat
  order : Nat
  fails : Nat
  deriving DecidableEq, Repr

/-- A channel beside its registers (R443–R458): pending frames, the shadow frame words of each mailbox. -/
structure Can where
  pend : List CanTx
  shadow : Store (List Word)
  deriving DecidableEq, Repr

def Can.off : Can := ⟨[], []⟩

/-- A snapshot of the CAN counter (R452). -/
structure CanSnap where
  cnt : Word
  time : Stamp
  step : Nat
  deriving DecidableEq, Repr

/-- The channels, the count of requests, the snapshots newest first, and what the counter has beyond the time since the start
(R452). -/
structure CanSt where
  ch : Store Can
  orders : Nat
  snaps : List CanSnap
  base : Word
  deriving DecidableEq, Repr

/-! ## Indicators -/

/-- A string stage: its commanded code and whether its group is blanked. -/
structure Stage where
  ramp : Ramp
  stopped : Bool
  deriving DecidableEq, Repr

/-- A chain element (R468): the colour, AUX included, the code, and the trims of red, green and blue. -/
structure Elem where
  colour : Word
  ramp : Ramp
  trimR : Nat
  trimG : Nat
  trimB : Nat
  deriving DecidableEq, Repr

def Stage.zero : Stage := ⟨⟨0, 0, 0, 0⟩, false⟩
def Elem.reset : Elem := ⟨0, ⟨1023, 1023, 0, 0⟩, 256, 256, 256⟩

/-- A frame on a chain (R466, R469, R472): the words by element, the instant it latches at (none: at its end), the
calendar copies it carries, whether it blanks, whether it is shifted, and the operating time in ticks at which it started. -/
structure ChFrame where
  words : List Word
  instant : Option Stamp
  copies : List (Nat × Nat)
  blank : Bool
  shifted : Bool
  began : Nat
  deriving DecidableEq, Repr

/-- A chain beside its registers: the frame in progress, consecutive frames with CHAIN_ERR, latches counted for the
feedback cycle, copies fetched and not yet in a frame. -/
structure Chain where
  frame : Option ChFrame
  errs : Nat
  latches : Nat
  fetched : List (Nat × Nat)
  deriving DecidableEq, Repr

def Chain.off : Chain := ⟨.none, 0, 0, []⟩

/-- Stages, elements (1,024 × chain + element), chains, and the output channels that an overload retry has switched on again,
with the operating time in ticks (R462). -/
structure Ind where
  stage : Store Stage
  elem : Store Elem
  chain : Store Chain
  retry : List (Nat × Nat)
  deriving DecidableEq, Repr

/-! ## The RTC -/

/-- The RTC beside its registers (R476–R488): a RTC_TIME write held until RTC_DATE is written, RTC_DATE held by a read of
RTC_TIME, whether each alarm has fired since the latest increment of SEC, the crystal error of the latest temperature
reading in ppb, the bridge's shadow of the register words (R29), and the ticks of operating time at which the half-cycles of
RTC_SUBSEC were last 0 (R490). -/
structure Rtc where
  held : Option Word
  hold : Option Word
  fired0 : Bool
  fired1 : Bool
  err : Int
  shadow : Store Word
  secAt : Int
  deriving DecidableEq, Repr

/-! ## Keys -/

/-- A key slot (R513). A slot of type 0 is empty. -/
structure KeySlot where
  typ : Nat
  usage : Nat
  tags : Nat
  origin : Nat
  eph : Bool
  label : Word
  gen : Nat
  secret : List Byte
  pub : List Byte
  deriving DecidableEq, Repr

def KeySlot.empty : KeySlot := ⟨0, 0, 0, 0, false, 0, 0, [], []⟩

/-- A shadow key (R530). -/
structure Shadow where
  key : KeySlot
  verified : Bool
  deriving DecidableEq, Repr

/-- An operation in progress and what it posts (R539): its code and result, its output, the slots and shadows it
writes, the measurement, the flag it sets (0 none, 1 REPL_DONE, 2 REPL_FAIL), a slot whose replacement is recorded, a
COMPAT recipe. `secret`: it creates a key, or names a slot or the root (R528). -/
structure KeyOp where
  op : Nat
  result : Nat
  out : Option (List Byte)
  slots : List (Nat × KeySlot)
  shadows : List (Nat × Option Shadow)
  mb : Option (List Byte)
  flag : Nat
  replaced : Option Nat
  recipe : Option (Nat × KeySlot)
  secret : Bool
  deriving DecidableEq, Repr

/-- A life-cycle transition in progress (R535): from, to, signer, the token's hash, and whether INTENT is committed. -/
structure Intent where
  src : Nat
  dst : Nat
  signer : Nat
  hash : List Byte
  committed : Bool
  deriving DecidableEq, Repr

/-- The KEY block beside its registers (R513–R544): slots, shadows, root, PUF root, COMPAT recipes and PUF helper data of the ledger, fuses,
the ledger's tamper count, whether the latest tamper still has to be completed, the key RAM marker, the operation in
progress, whether the nonce may be used, the transition in progress. -/
structure Key where
  slots : Store KeySlot
  shadows : Store (Option Shadow)
  root : Option (List Byte)
  puf : Option (List Byte)
  recipes : Store KeySlot
  helper : Option (List Byte)
  fuses : Nat
  tampers : Nat
  inEvent : Bool
  marker : Bool
  op : Option KeyOp
  nonce : Bool
  intent : Option Intent
  state : Nat
  deriving DecidableEq, Repr

/-! ## The service port -/

/-- An image slot (R554): its bytes, how many have been written, and its state. -/
structure ImgSlot where
  bytes : Store Byte
  len : Nat
  st : Nat
  deriving DecidableEq, Repr

def ImgSlot.none : ImgSlot := ⟨[], 0, 0⟩

/-- The SVC block beside its registers (R545–R563): image slots, the active one, the ledger's SEC_EPOCH, the journal's
settings format and SVC_IMG_POLICY, the image command in progress (0 none, 2 WRITE, 3 VERIFY), the activation (state of
SVC_ACT_STATUS and instant), the watchdog expiries since it, whether the boot ROM is in recovery and has had a command, the
cause of a recovery to record plus 1, the endpoint firmware job: pass and block on the rings, pass and block on radio, and the
tick at which the character on TXD ends (R546, R565). -/
structure Svc where
  slot0 : ImgSlot
  slot1 : ImgSlot
  active : Nat
  secEpoch : Nat
  fmt : Nat
  policy : Word
  busy : Nat
  act : Nat
  when_ : Stamp
  wdogs : Nat
  recovery : Bool
  commanded : Bool
  recoveryCause : Nat
  ringPass : Nat
  ringBlock : Nat
  radPass : Nat
  radBlock : Nat
  txTill : Nat
  deriving DecidableEq, Repr

/-! ## The DRBG -/

/-- The CTR_DRBG (R542): requests since the latest reseed, and reseeds. -/
structure Drbg where
  requests : Nat
  reseeds : Nat
  deriving DecidableEq, Repr

/-! ## The whole -/

/-- The module. -/
structure State where
  regs : Regs
  bus : Bus
  fmem : Store Byte
  fe : Fe
  shf : Shf
  hnd : Hnd
  cal : Cal
  fcp : Fcp
  storm : Storm
  time : TimeSt
  spares : Spares
  pair : Pair
  ledger : Ledger
  power : Power
  ident : Ident
  rcd : Recorder
  drbg : Drbg
  fab : Fab
  rings : RingSt
  mtr : Mtr
  rad : Store Rad
  can : CanSt
  ind : Ind
  rtc : Rtc
  key : Key
  svc : Svc
  /-- Everything that left the module, in order (the model's own). -/
  out : List Out
  /-- The next free value (assumption 2; the model's own). -/
  freeCtr : Nat
  /-- Commands that wait, first in, first out. -/
  pending : List Instr
  deriving DecidableEq, Repr

/-- What an unlisted byte of field memory reads as: 0, but for LOCAL_CEIL = 0x3FF and FEEDER = 0xF of an endpoint
record that has never been written (R47). -/
def fmemReset (a : Nat) : Byte :=
  if a < 0x1000000 then
    match a % 128 with
    | 0x18 => 0xFF
    | 0x19 => 0x03
    | 0x50 => 0x0F
    | _ => 0
  else 0

/-- No element retired, no pass in progress (R344): phases 16 and 17 are fallow. -/
def Spares.reset : Spares where
  passes := []
  retired := []
  transients := []
  counted := []
  corrected := []
  judged := []
  cells := []
  bank := []
  phases := [16, 17]
  bankOf := []
  leaving := []
  gone := []
  banksRetired := []
  vacant := []
  plotsOff := []
  installs := []
  flashAt := []
  logGone := []
  readOnly := []
  erases := []
  slotErases := (0, 0)
  laserOn := []
  laserSince := []
  phaseSince := []

/-- An empty fabric: VCORE at 800 mV (R226). -/
def Fab.reset : Fab where
  frames := []
  nextFrame := 0
  waiting := []
  flight := []
  held := []
  nextSeq := []
  expect := []
  tx := []
  residue := []
  drr := []
  turn := []
  granted := []
  fdb := []
  fdbResult := none
  vcore := 1600
  lowRun := 0
  suspects := []
  cells := []
  fresh := []
  unlisted := []
  freed := []
  repl := []
  rsm := []
  sending := []

def Regs.reset : Regs := ⟨[], [], [], [], [], [], [], [], [], [], [], [], [], [], [], []⟩

def State.reset : State where
  regs := Regs.reset
  bus := ⟨0, [], none, 0, [], [], [], [], []⟩
  fmem := []
  fe := ⟨[], [], [], [], [], [], [], false, false⟩
  shf := ⟨[], 0, 0, [], [], false⟩
  hnd := ⟨1, [], 0, [], 0⟩
  cal := ⟨[], 0⟩
  fcp := ⟨[], [], [], [], [], Queue.empty, Queue.empty, []⟩
  storm := ⟨0, [], 0, 0⟩
  time := ⟨0, 0, 0, 0, 0, 0, 0, 0, false, [], [], [], [], false, none, [], []⟩
  spares := Spares.reset
  pair := ⟨0, 0, 0, 0, 0, 0, [], none, none, none, none, [], Ckpt.empty, Ckpt.empty, Ckpt.empty, [], 0, [], [], false⟩
  ledger := ⟨0, 0, 0, 0, 0, false, false, false, none, [], [], [], 0, [], false, [], [], (0, 0, 0), Ckpt.empty, 0⟩
  power := ⟨0, false, false, false, false, false, false, 0, 0, 0, 0, 0, 0, false, false, false⟩
  ident := ⟨.m8e, 0, false, false⟩
  rcd := ⟨[], [], [], [], [], 0, 0, 0, false, false, 0, 0, 0, false, none⟩
  drbg := ⟨0, 0⟩
  fab := Fab.reset
  rings := ⟨[], [], [], [], []⟩
  mtr := ⟨[], 0, 0, [], [], [], [], [], [], none, [], [], [], none, [], [], [], 0, none, false, none, false, 0⟩
  rad := []
  can := ⟨[], 0, [], 0⟩
  ind := ⟨[], [], [], []⟩
  rtc := ⟨none, none, false, false, 0, [], 0⟩
  key := ⟨[], [], none, none, [], none, 0, 0, false, false, none, false, none, 0⟩
  svc := ⟨ImgSlot.none, ImgSlot.none, 0, 0, 0, 0, 0, 0, 0, 0, false, false, 0, 0, 0, 0, 0, 0⟩
  out := []
  freeCtr := 0
  pending := []

end Sys2Proof.Machine
end

