-- ==== Sys2Proof/Machine/Ops.lean ====
section
/-! DEFINITION. The shared operations: registers and their fields, status flags with their counters, records, field
memory and its records, the time base as a reader sees it, free values, and what leaves the module. -/
namespace Sys2Proof.Machine
open Sys2Proof

/-- The outcome of a meaning. -/
abbrev Res := Host.Outcome State Fault Refusal

/-! ## Registers -/

/-- The register words of a block. -/
def regsOf (r : Regs) : Blk → Store Word
  | .sys => r.sys | .time => r.time | .rtc => r.rtc | .key => r.key | .rcd => r.rcd | .fe => r.fe
  | .fab => r.fab | .port => r.port | .ring => r.ring | .mtr => r.mtr | .dio => r.dio | .ind => r.ind
  | .rad => r.rad | .can => r.can | .svc => r.svc | .pwr => r.pwr

/-- Replace the register words of a block. -/
def setRegsOf (r : Regs) (b : Blk) (m : Store Word) : Regs :=
  match b with
  | .sys => { r with sys := m } | .time => { r with time := m } | .rtc => { r with rtc := m }
  | .key => { r with key := m } | .rcd => { r with rcd := m } | .fe => { r with fe := m }
  | .fab => { r with fab := m } | .port => { r with port := m } | .ring => { r with ring := m }
  | .mtr => { r with mtr := m } | .dio => { r with dio := m } | .ind => { r with ind := m }
  | .rad => { r with rad := m } | .can => { r with can := m } | .svc => { r with svc := m }
  | .pwr => { r with pwr := m }

/-- The stored word of a register. -/
def State.rd (s : State) (b : Blk) (off : Nat) : Word := sget (regReset b) (regsOf s.regs b) off

/-- Store a register word. -/
def State.wr (s : State) (b : Blk) (off : Nat) (v : Word) : State :=
  { s with regs := setRegsOf s.regs b (sset (regReset b) (regsOf s.regs b) off v) }

/-- The number in a field of a register. -/
def State.f (s : State) (x : Fld) : Nat := getBits (s.rd x.blk x.off) x.lsb x.width

/-- Set a field of a register. -/
def State.setF (s : State) (x : Fld) (v : Nat) : State :=
  s.wr x.blk x.off (setBits (s.rd x.blk x.off) x.lsb x.width v)

/-- Whether a field is not 0. -/
def State.on (s : State) (x : Fld) : Bool := s.f x != 0

/-- Set bit `i` of a field to `v`. -/
def State.setFBit (s : State) (x : Fld) (i : Nat) (v : Bool) : State :=
  let n := s.f x
  s.setF x (if v then n ||| 2 ^ i else n - (if n.testBit i then 2 ^ i else 0))

/-- The word of a register by its name. -/
def State.r (s : State) (x : Reg) : Word := s.rd x.blk x.off
/-- Set the word of a register by its name. -/
def State.setR (s : State) (x : Reg) (v : Word) : State := s.wr x.blk x.off v

/-- Set a status flag and increment its event counter, which saturates at 0xFFFF (R15). -/
def State.raise (s : State) (e : Evt) : State :=
  let s := s.setF ⟨e.blk, e.off, e.bit, 1⟩ 1
  s.setF ⟨e.blk, e.cntOff, e.cntLsb, 16⟩ (satInc 0xFFFF (s.f ⟨e.blk, e.cntOff, e.cntLsb, 16⟩))

/-- Whether a status flag is set. -/
def State.flag (s : State) (e : Evt) : Bool := s.on ⟨e.blk, e.off, e.bit, 1⟩

/-- Increment a 32-bit counter field, saturating at 0xFFFF_FFFF. -/
def State.count (s : State) (x : Fld) : State := s.setF x (satInc 0xFFFFFFFF (s.f x))

/-- A 64-bit value in two consecutive registers (R17). -/
def State.pairR (s : State) (lo hi : Reg) : Nat := (s.r lo).toNat + (s.r hi).toNat * 4294967296
/-- Set a 64-bit value in two consecutive registers (R17). -/
def State.setPairR (s : State) (lo hi : Reg) (v : Nat) : State :=
  (s.setR lo (BitVec.ofNat 32 v)).setR hi (BitVec.ofNat 32 (v / 4294967296))
/-- Add to a 64-bit counter, wrapping at 2⁶⁴ (R283). -/
def State.addPair (s : State) (lo hi : Reg) (v : Nat) : State := s.setPairR lo hi (s.pairR lo hi + v)

/-- A time value in three consecutive registers, words of R46. -/
def State.stampR (s : State) (x : Nat → Reg) : Stamp := wordsStamp (s.r (x 0)) (s.r (x 1)) (s.r (x 2))
/-- Set a time value in three consecutive registers. -/
def State.setStampR (s : State) (x : Nat → Reg) (t : Stamp) : State :=
  ((s.setR (x 0) (stampWord t 0)).setR (x 1) (stampWord t 1)).setR (x 2) (stampWord t 2)

/-! ## The time base as readers see it -/

/-- The 2⁻³² ns units of a second. -/
def tbSec : Nat := 1000000000 * 4294967296

/-- The time base in the layout of R46: the upper 16 bits of its fraction (R285). -/
def stampOfNow (n : Nat) : Stamp := mkStamp (n / tbSec) (n / 4294967296 % nsPerS) (n % 4294967296 / 65536)

/-- The time base in 2⁻³² ns of a time value. -/
def nowOfStamp (t : Stamp) : Nat := (stampSec t * nsPerS + stampNs t) * 4294967296 + stampFrac t * 65536

/-- The time base now (R46). -/
def State.now (s : State) : Stamp := stampOfNow s.time.now

/-- The current step epoch (R289). -/
def State.stepEpoch (s : State) : Nat := s.f R.TIME_STATUS.STEP

/-- The current control epoch. -/
def State.epoch (s : State) : Nat := s.f R.SYS_PAIR_EPOCH.EPOCH

/-! ## Free values, records, outputs -/

/-- A free value, a new one at each use (assumption 2). -/
def State.free (s : State) : Nat × State :=
  ((Config.freeWord s.freeCtr).toNat, { s with freeCtr := s.freeCtr + 1 })

/-- The access cycle in which the present command falls, for what crosses into the recorder or the ledger (R494, R508): one
command is one access cycle (DEDUCED, assumption 171). -/
def State.cycle (s : State) : Nat × Nat := (s.power.opTicks, s.pending.length)

/-- Offer a record to the recorder (R494, R495). Severities: 0 INFO, 1 NOTICE, 2 ALARM, 3 CRITICAL. -/
def State.record (s : State) (code sev source : Nat) (body : List Word) : State :=
  { s with rcd := { s.rcd with
      offered := s.rcd.offered ++ [⟨code, sev, source, body⟩], cycles := s.rcd.cycles ++ [some s.cycle] } }

/-- The region of an entry (R507). -/
def LdgTag.region : LdgTag → LdgRegion
  | .intent | .lcState | .recipes | .helper | .tampers => .lifeCycle
  | .summary _ => .summaries
  | .retired _ _ | .plane _ | .wear => .spares
  | .boot _ => .boot
  | .totals _ => .metering
  | .sheaf _ | .checkpoint | .epoch => .checkpoint
  | .cycles | .opMs | .seqBlock | .radBlock _ | .utcoff | .imgSlot _ | .activation | .policy | .powerFail => .counters
  | .identity | .gaugeCurve | .calibration => .production

/-- Fold a state change over a list. -/
def foldS {α : Type} (l : List α) (g : α → State → State) (s : State) : State := l.foldl (fun s x => g x s) s
/-- Offset and size of a region in a bank (R507). -/
def LdgRegion.place : LdgRegion → Nat × Nat
  | .lifeCycle => (0x000000, 0x10000)
  | .summaries => (0x010000, 0x40000)
  | .spares => (0x050000, 0x100000)
  | .boot => (0x150000, 0x10000)
  | .metering => (0x160000, 0x20000)
  | .checkpoint => (0x180000, 0x100000)
  | .counters => (0x280000, 0x10000)
  | .production => (0x290000, 0x40000)

/-- The offset of an entry's region. -/
def LdgWrite.base (w : LdgWrite) : Nat := w.entry.tag.region.place.1
/-- An entry takes its place among those that wait: after all, but for those of its own access cycle whose region lies higher
and whose writing has not begun (R508). -/
def ldgInsert (w : LdgWrite) : List LdgWrite → List LdgWrite
  | [] => [w]
  | x :: l => if x.cycle = w.cycle ∧ w.base < x.base ∧ x.began = false then w :: x :: l else x :: ldgInsert w l

/-- Entries being written. -/
def Ledger.busy (l : Ledger) : Nat := l.writes.length

/-- The CRC-32C of an entry, over write sequence, length and body (R508; what it covers is the model's, assumption 32). -/
def LdgEntry.crc (e : LdgEntry) (seq : Nat) : Word := crc32c (leBytes 8 seq ++ leBytes 4 e.body.length ++ e.body)
/-- An entry's copy, complete. -/
def LdgEntry.copy (e : LdgEntry) (seq : Nat) : LdgCopy := ⟨e, seq, e.crc seq, true⟩
/-- The copy of an entry in a bank. -/
def bankGet (l : List LdgCopy) (g : LdgTag) : Option LdgCopy := l.find? (fun c => c.entry.tag == g)
/-- A copy takes the place of the entry's former one. -/
def bankPut (l : List LdgCopy) (c : LdgCopy) : List LdgCopy :=
  if l.any (fun x => x.entry.tag == c.entry.tag) then l.map (fun x => if x.entry.tag = c.entry.tag then c else x) else l ++ [c]

/-- The INTENT entry of a transition in progress is committed. -/
def Key.commitIntent (k : Key) (now : Bool) : Key :=
  { k with intent := k.intent.map (fun (i : Intent) => { i with committed := i.committed || now }) }

/-- The first entry that waits completes in both banks, bank 0 first (R508). A transition's INTENT is committed with it
(R535). -/
def State.ledgerDone (s : State) : State :=
  match s.ledger.writes with
  | [] => s.setF R.REC_LDG_STATUS.BUSY 0
  | w :: l =>
    let c := w.entry.copy (s.ledger.writeSeq - l.length)
    let s := { s with
      ledger := { s.ledger with writes := l, bank0 := bankPut s.ledger.bank0 c, bank1 := bankPut s.ledger.bank1 c }
      key := s.key.commitIntent (w.entry.tag == LdgTag.intent && l.all (fun x => x.entry.tag != LdgTag.intent)) }
    s.setF R.REC_LDG_STATUS.BUSY (b2n (!l.isEmpty))
/-- Every entry that waits completes. -/
def State.ledgerAll (s : State) : State := foldS s.ledger.writes (fun _ s => s.ledgerDone) s

/-- An entry joins those that wait: the write sequence advances and the write is in progress (R508). -/
def State.ledgerAdd (s : State) (w : LdgWrite) : State :=
  let s := { s with ledger := { s.ledger with writeSeq := s.ledger.writeSeq + 1, writes := ldgInsert w s.ledger.writes } }
  (s.setPairR R.REC_LDG_SEQ_LO.reg R.REC_LDG_SEQ_HI.reg s.ledger.writeSeq).setF R.REC_LDG_STATUS.BUSY 1
/-- An entry is given to the ledger, which commits it when its turn has come (R508). -/
def State.ledgerWait (s : State) (g : LdgTag) (b : List Byte) : State := s.ledgerAdd ⟨s.cycle, ⟨g, b⟩, false⟩
/-- An entry is committed within a command that acts on it: those before it complete, and bank 0's commit word is written
(R508, assumption 173). -/
def State.ledgerCommit (s : State) (g : LdgTag) (b : List Byte) : State :=
  let s := s.ledgerAdd ⟨s.cycle, ⟨g, b⟩, true⟩
  let s := foldS ((s.ledger.writes.reverse.dropWhile (fun w => !w.began)).drop 1) (fun _ s => s.ledgerDone) s
  match s.ledger.writes with
  | [] => s
  | w :: l => { s with ledger := { s.ledger with
      bank0 := bankPut s.ledger.bank0 (w.entry.copy (s.ledger.writeSeq - l.length)) } }

/-- Operating time in ms (R493): 625,000 ticks of the time base are 1 ms (R285). -/
def State.opMs (s : State) : Nat := s.power.opBase + s.power.opTicks / 625000

/-- Ticks of operating time: unlike the time base it takes no step, so the spec's durations are counted in it (R493). -/
def State.opTotal (s : State) : Nat := s.power.opBase * 625000 + s.power.opTicks

/-- Send something out of the module. -/
def State.send (s : State) (o : Out) : State := { s with out := s.out ++ [o] }

/-- A word from a number. -/
def w32 (n : Nat) : Word := BitVec.ofNat 32 n

/-! ## Field memory -/

/-- The byte of field memory at an offset. -/
def State.fbyte (s : State) (a : Nat) : Byte := sget fmemReset s.fmem a

/-- The word of field memory at an offset, little-endian (R7). -/
def State.fword (s : State) (a : Nat) : Word :=
  bytesWord (s.fbyte a) (s.fbyte (a + 1)) (s.fbyte (a + 2)) (s.fbyte (a + 3))

/-- Mark the 64-byte line of an address as written since the last delta (R336). -/
def markDirty (d : List Nat) (a : Nat) : List Nat := if d.contains (a / 64) then d else d ++ [a / 64]

/-- Whether a delta carries this address: the endpoint and row tables, groups 1–511 and shared program data (R336). -/
def ckptRegion (a : Nat) : Bool := a < 0x1800000 || (0x1804000 ≤ a && a < 0x2000000) || (0x3000000 ≤ a && a < 0x4000000)

/-- Store a byte of field memory. -/
def State.setFByte (s : State) (a : Nat) (v : Byte) : State :=
  { s with
    fmem := sset fmemReset s.fmem a v
    pair := if ckptRegion a then { s.pair with dirty := markDirty s.pair.dirty a } else s.pair }

/-- Store a word of field memory, little-endian, indivisibly (R7, R25). -/
def State.setFWord (s : State) (a : Nat) (v : Word) : State :=
  (((s.setFByte a (wordByte v 0)).setFByte (a + 1) (wordByte v 1)).setFByte (a + 2) (wordByte v 2)).setFByte
    (a + 3) (wordByte v 3)

/-- `n` bytes of field memory from an offset. -/
def State.fbytes (s : State) (a n : Nat) : List Byte := (List.range n).map (fun i => s.fbyte (a + i))

/-- A field of a record in field memory: byte offset of its word, lowest bit, width (R47, R51). -/
structure RF where
  off : Nat
  lsb : Nat
  width : Nat
  deriving DecidableEq, Repr

/-- The number of endpoint records (R5). -/
def nEndpoints : Nat := 131072
/-- The number of rows (R22). -/
def nRows : Nat := 32768

/-- FMEM offset of endpoint record `i` (R24). -/
def epBase (i : Nat) : Nat := i * 128
/-- FMEM offset of row record `r` (R51). -/
def rowBase (r : Nat) : Nat := 0x1000000 + r * 256
/-- FMEM offset of group bitmap `g` (R53). -/
def grpBase (g : Nat) : Nat := 0x1800000 + g * 0x4000

/-- The fields of an endpoint record (R47). -/
def EP.VALID : RF := ⟨0x00, 31, 1⟩
def EP.PATH : RF := ⟨0x00, 28, 3⟩
def EP.TYPE : RF := ⟨0x00, 24, 4⟩
def EP.GEN : RF := ⟨0x00, 0, 8⟩
def EP.ADDR : RF := ⟨0x04, 0, 32⟩
def EP.EUI_LO : RF := ⟨0x08, 0, 32⟩
def EP.EUI_HI : RF := ⟨0x0C, 0, 32⟩
def EP.ON_ROW : RF := ⟨0x10, 31, 1⟩
def EP.ROW : RF := ⟨0x10, 16, 15⟩
def EP.POS : RF := ⟨0x10, 0, 16⟩
def EP.ENG : RF := ⟨0x14, 20, 4⟩
def EP.NEXT_VALID : RF := ⟨0x14, 17, 1⟩
def EP.NEXT : RF := ⟨0x14, 0, 17⟩
def EP.EFF_CEIL : RF := ⟨0x18, 22, 10⟩
def EP.EFF_FLOOR : RF := ⟨0x18, 12, 10⟩
def EP.LOCAL_CEIL : RF := ⟨0x18, 0, 10⟩
def EP.SAFE : RF := ⟨0x1C, 20, 10⟩
def EP.TGT : RF := ⟨0x1C, 10, 10⟩
def EP.CUR : RF := ⟨0x1C, 0, 10⟩
def EP.FAULT : RF := ⟨0x20, 8, 8⟩
def EP.NEIGH_COMP : RF := ⟨0x20, 6, 1⟩
def EP.RETIRED : RF := ⟨0x20, 5, 1⟩
def EP.GHOST_SEEN : RF := ⟨0x20, 4, 1⟩
def EP.NO_REPLY : RF := ⟨0x20, 3, 1⟩
def EP.LOW_CONF : RF := ⟨0x20, 2, 1⟩
def EP.FAILED : RF := ⟨0x20, 1, 1⟩
def EP.CLAMPED : RF := ⟨0x20, 0, 1⟩
def EP.EPOCH : RF := ⟨0x24, 0, 32⟩
def EP.HANDLE : RF := ⟨0x28, 0, 32⟩
def EP.LAST_CMD (i : Nat) : RF := ⟨0x2C + 4 * i, 0, 32⟩
def EP.LAST_SEEN (i : Nat) : RF := ⟨0x38 + 4 * i, 0, 32⟩
def EP.SEEN_STEP : RF := ⟨0x44, 8, 8⟩
def EP.CMD_STEP : RF := ⟨0x44, 0, 8⟩
def EP.OP_MIN : RF := ⟨0x48, 0, 32⟩
def EP.P_STBY : RF := ⟨0x4C, 16, 16⟩
def EP.P_RATED : RF := ⟨0x4C, 0, 16⟩
def EP.PHASE : RF := ⟨0x50, 4, 2⟩
def EP.FEEDER : RF := ⟨0x50, 0, 4⟩
def EP.E_EST : RF := ⟨0x54, 0, 32⟩
def EP.E_ERR : RF := ⟨0x58, 0, 16⟩
def EP.SENSE : RF := ⟨0x5C, 0, 32⟩
/-- The fields of a row record (R51). -/
def ROW.VALID : RF := ⟨0x00, 31, 1⟩
def ROW.LENGTH : RF := ⟨0x00, 0, 16⟩
def ROW.CEIL : RF := ⟨0x04, 10, 10⟩
def ROW.FLOOR : RF := ⟨0x04, 0, 10⟩
def ROW.HEAD_VALID : RF := ⟨0x08, 17, 1⟩
def ROW.HEAD : RF := ⟨0x08, 0, 17⟩
def ROW.TAIL : RF := ⟨0x0C, 0, 17⟩
def ROW.COUNT : RF := ⟨0x10, 0, 18⟩
def ROW.DEF_SPEED : RF := ⟨0x14, 16, 16⟩
def ROW.LEAD_DIST : RF := ⟨0x14, 0, 16⟩
def ROW.TRAIL_T : RF := ⟨0x18, 16, 16⟩
def ROW.LEAD_T : RF := ⟨0x18, 0, 16⟩
def ROW.CONFIRM_TOL : RF := ⟨0x1C, 16, 16⟩
def ROW.RAMP_T : RF := ⟨0x1C, 0, 16⟩

/-- The number in a field of the record at `base`. -/
def State.m (s : State) (base : Nat) (x : RF) : Nat := getBits (s.fword (base + x.off)) x.lsb x.width

/-- Set a field of the record at `base`. -/
def State.setM (s : State) (base : Nat) (x : RF) (v : Nat) : State :=
  s.setFWord (base + x.off) (setBits (s.fword (base + x.off)) x.lsb x.width v)

/-- A field of endpoint record `i`. -/
def State.ep (s : State) (i : Nat) (x : RF) : Nat := s.m (epBase i) x
/-- Set a field of endpoint record `i`. -/
def State.setEp (s : State) (i : Nat) (x : RF) (v : Nat) : State := s.setM (epBase i) x v
/-- A field of row record `r`. -/
def State.row (s : State) (r : Nat) (x : RF) : Nat := s.m (rowBase r) x
/-- Whether endpoint record `i` is valid. -/
def State.epValid (s : State) (i : Nat) : Bool := s.ep i EP.VALID == 1
/-- The EUI-64 of endpoint record `i`. -/
def State.epEui (s : State) (i : Nat) : Eui := BitVec.ofNat 64 (s.ep i EP.EUI_LO + s.ep i EP.EUI_HI * 4294967296)
/-- Set a 96-bit time value of endpoint record `i` (R46). -/
def State.setEpStamp (s : State) (i : Nat) (x : Nat → RF) (t : Stamp) : State :=
  ((s.setEp i (x 0) (stampWord t 0).toNat).setEp i (x 1) (stampWord t 1).toNat).setEp i (x 2) (stampWord t 2).toNat
/-- A 96-bit time value of endpoint record `i` (R46). -/
def State.epStamp (s : State) (i : Nat) (x : Nat → RF) : Stamp :=
  wordsStamp (w32 (s.ep i (x 0))) (w32 (s.ep i (x 1))) (w32 (s.ep i (x 2)))
/-- The cursor of a record: generation [24:17] and index [16:0] (R88). -/
def cursorOf (gen ep : Nat) : Nat := gen * 131072 + ep

/-- The endpoint indices whose records may be valid, rising: those with a listed word 0. Every other record is as never
written, so invalid. -/
def State.validEps (s : State) : List Nat :=
  (s.fmem.filter (fun c => c.1 < 0x1000000 && c.1 % 128 == 3 && decide (128 ≤ c.2.toNat))).map (fun c => c.1 / 128)

/-- The row numbers whose records are valid, rising. -/
def State.validRows (s : State) : List Nat :=
  (s.fmem.filter (fun c => decide (0x1000000 ≤ c.1 ∧ c.1 < 0x1800000) && c.1 % 256 == 3 && decide (128 ≤ c.2.toNat))).map
    (fun c => (c.1 - 0x1000000) / 256)

/-- The valid endpoint with an EUI-64, lowest index first. -/
def State.epByEui (s : State) (e : Eui) : Option Nat := s.validEps.find? (fun i => s.epEui i = e)

/-- Bit `i` of group `g` (R53). -/
def State.grpBit (s : State) (g i : Nat) : Bool := (s.fbyte (grpBase g + i / 8)).getLsbD (i % 8)

/-- Set bit `i` of group `g`. -/
def State.setGrpBit (s : State) (g i : Nat) (v : Bool) : State :=
  let b := s.fbyte (grpBase g + i / 8)
  let m : Byte := BitVec.ofNat 8 (2 ^ (i % 8))
  s.setFByte (grpBase g + i / 8) (if v then b ||| m else b &&& ~~~m)

/-- The members of a row in NEXT order from HEAD, at most `fuel` of them (R51). -/
def State.chain (s : State) : Nat → Nat → List Nat
  | 0, _ => []
  | n + 1, i => i :: (if s.ep i EP.NEXT_VALID = 1 then s.chain n (s.ep i EP.NEXT) else [])

/-- The members of row `r` in NEXT order. -/
def State.rowMembers (s : State) (r : Nat) : List Nat :=
  if s.row r ROW.HEAD_VALID = 1 then s.chain (s.row r ROW.COUNT) (s.row r ROW.HEAD) else []

/-! ## Engines -/

def engDefault (_ : Nat) : Engine := Engine.off
/-- Physical engine `i`. -/
def State.eng (s : State) (i : Nat) : Engine := sget engDefault s.fe.eng i
/-- Replace physical engine `i`. -/
def State.setEng (s : State) (i : Nat) (e : Engine) : State :=
  { s with fe := { s.fe with eng := sset engDefault s.fe.eng i e } }

/-- The codes of FE_STATUS.ROLE (R68). -/
def roleUnassigned : Nat := 0
def roleActive : Nat := 1
def roleFallow : Nat := 2
def roleHarrow : Nat := 3
def roleRetired : Nat := 4
/-- The codes of FE_STATUS.STATE (R68). -/
def stReset : Nat := 0
def stRun : Nat := 1
def stWait : Nat := 2
def stHalted : Nat := 3
def stException : Nat := 4

/-- The physical engine that runs logical engine `l`; 0x1F none (R70). -/
def State.physOf (s : State) (l : Nat) : Nat :=
  getBits (s.r (R.FE_MAP.reg (l / 4))) (8 * (l % 4)) 5
/-- Assign logical engine `l` in FE_MAP. -/
def State.setPhys (s : State) (l p : Nat) : State :=
  s.setR (R.FE_MAP.reg (l / 4)) (setBits (s.r (R.FE_MAP.reg (l / 4))) (8 * (l % 4)) 5 p)
/-- The logical engine that physical engine `i` runs. -/
def State.logicalOf (s : State) (i : Nat) : Nat := s.f (R.FE_STATUS.LOGICAL i)
/-- Whether logical engine `l` is active: it has a physical engine and is not stopped. -/
def State.engActive (s : State) (l : Nat) : Bool := s.physOf l != 0x1F && !s.fe.stopped.contains l

def listDefault (_ : Nat) : List IEvent := []
/-- The intake list of logical engine `l` (R57). -/
def State.ilist (s : State) (l : Nat) : List IEvent := sget listDefault s.fe.lists l
/-- Replace the intake list of logical engine `l`. -/
def State.setIlist (s : State) (l : Nat) (x : List IEvent) : State :=
  { s with fe := { s.fe with lists := sset listDefault s.fe.lists l x } }
/-- The number of events in the pool of R57. -/
def State.intakeLevel (s : State) : Nat := (s.fe.lists.map (fun e => e.2.length)).foldl (· + ·) 0

/-! ## Handles, calendar, contexts -/

/-- A slot that is not listed: FREE, with the generation `g`. -/
def hndDefault (g : Nat) (_ : Nat) : Handle := { Handle.fresh with gen := g }
/-- Handle slot `i`. -/
def State.hslot (s : State) (i : Nat) : Handle := sget (hndDefault s.hnd.base) s.hnd.tab i
/-- Replace handle slot `i`. -/
def State.setHslot (s : State) (i : Nat) (h : Handle) : State :=
  { s with hnd := { s.hnd with tab := sset (hndDefault s.hnd.base) s.hnd.tab i h } }
/-- The slot of a handle value (R159). -/
def slotOf (h : Word) : Nat := getBits h 0 17
/-- The generation of a handle value (R159). -/
def genOf (h : Word) : Nat := getBits h 17 15
/-- The handle value of a slot and a generation (R159). -/
def handleWord (slot gen : Nat) : Word := w32 (gen * 131072 + slot)
/-- Whether a handle value names an open handle: its slot is not FREE and its generation matches (R164). -/
def State.handleOpen (s : State) (h : Word) : Bool :=
  (s.hslot (slotOf h)).st != .free && (s.hslot (slotOf h)).gen == genOf h
/-- Handles not FREE that an owner holds. -/
def State.heldBy (s : State) (p : Owner → Bool) : Nat := scount s.hnd.tab (fun _ h => h.st != .free && p h.owner)
/-- Whether the owner is a logical engine. -/
def isEngine : Owner → Bool
  | .engine _ => true
  | _ => false

def calDefault (_ : Nat) : Option CalEntry := none
/-- Calendar entry `i`. -/
def State.calE (s : State) (i : Nat) : Option CalEntry := sget calDefault s.cal.tab i
/-- Replace calendar entry `i`. -/
def State.setCal (s : State) (i : Nat) (e : Option CalEntry) : State :=
  { s with cal := { s.cal with tab := sset calDefault s.cal.tab i e } }
/-- Entries of the calendar that are not free (TIME_CAL_USED). -/
def State.calUsed (s : State) : Nat := s.cal.tab.length
/-- The lowest number from `i` on, among `n`, whose key is not listed. -/
def firstFree {α : Type} (m : Store α) : Nat → Nat → Option Nat
  | 0, _ => none
  | n + 1, i => if m.any (fun e => e.1 == i) then firstFree m n (i + 1) else some i

def ctxDefault (_ : Nat) : Ctx := Ctx.free
/-- Sheaf context `c`. -/
def State.ctx (s : State) (c : Nat) : Ctx := sget ctxDefault s.shf.ctx c
/-- Replace sheaf context `c`. -/
def State.setCtx (s : State) (c : Nat) (x : Ctx) : State :=
  { s with shf := { s.shf with ctx := sset ctxDefault s.shf.ctx c x } }

/-! ## Domains, roles -/

/-- Whether the clock of domain D`d` is present and its bridge open (SYS_DOMAIN_OK, R40). -/
def State.domainOk (s : State) (d : Nat) : Bool := (s.f R.SYS_DOMAIN_OK.OK).testBit (d - 1)
/-- Set or clear the bit of domain D`d`. -/
def State.setDomain (s : State) (d : Nat) (v : Bool) : State := s.setFBit R.SYS_DOMAIN_OK.OK (d - 1) v

/-- The codes of SYS_PAIR_STATUS.ROLE (R345). -/
def roleBoot : Nat := 0
def roleStandby : Nat := 1
def roleClaiming : Nat := 2
def rolePairActive : Nat := 3
def roleFenced : Nat := 4
def roleSolo : Nat := 5
/-- The pair role. -/
def State.role (s : State) : Nat := s.f R.SYS_PAIR_STATUS.ROLE
/-- The codes of KEY_LC_STATUS.STATE that other blocks test are defined with the KEY block; SERVICE is here (R66). -/
def State.lcState (s : State) : Nat := s.f R.KEY_LC_STATUS.STATE


/-- Do `g` when `c` holds. -/
def State.when (s : State) (c : Bool) (g : State → State) : State := if c then g s else s

/-! ## The running image (R551, R554) -/

/-- Image slot `n`. -/
def State.imgSlot (s : State) (n : Nat) : ImgSlot := if n = 0 then s.svc.slot0 else s.svc.slot1
/-- `n` bytes of an image from an offset. -/
def ImgSlot.get (x : ImgSlot) (a n : Nat) : List Byte := (List.range n).map (fun i => sget zeroByte x.bytes (a + i))
/-- The word of an image at an offset. -/
def ImgSlot.word (x : ImgSlot) (a : Nat) : Word := BitVec.ofNat 32 (leNat (x.get a 4))
/-- SETTINGS_FMT. -/
def ImgSlot.fmt (x : ImgSlot) : Nat := getBits (x.word 0x0C) 0 16
/-- The settings format of the running image (R551, R560). -/
def State.runFmt (s : State) : Nat := (s.imgSlot s.svc.active).fmt

end Sys2Proof.Machine
end

