-- ==== Sys2Proof/Machine/CanTime.lean ====
section
/-! DEFINITION. The counter of the CAN channels and its snapshots (R452, R453). -/
namespace Sys2Proof.Machine
open Sys2Proof

/-- Counts of 40 MHz since the start: 125 ticks of 1.6 ns are 8 counts (R452). -/
def State.canElapsed (s : State) : Word := w32 (s.power.opTicks * 8 / 125)
/-- The counter now. What it counts from at a start the spec leaves open (assumption 169). -/
def State.canNow (s : State) : Word := Config.canStart s.power.opBase + s.can.base + s.canElapsed

/-- A snapshot of counter, time base and step epoch, with the counter at `cnt`. -/
def State.canSnap (s : State) (cnt : Word) : State :=
  { s with can := { s.can with
      snaps := (⟨cnt, s.now, s.stepEpoch⟩ :: s.can.snaps).take 256
      base := cnt - Config.canStart s.power.opBase - s.canElapsed } }
/-- A snapshot at a whole second or a step of the time base, or by CAN_CMD SNAP (R452). -/
def State.canSnapNow (s : State) : State := s.canSnap s.canNow

/-- A stamp as a time of the time base with its step epoch: by the newest snapshot that precedes it (R453); by the time base
now when there is none. -/
def State.canTime (s : State) (stamp : Word) : Stamp × Nat :=
  match s.can.snaps.find? (fun x => (stamp - x.cnt).toNat < 2 ^ 31) with
  | some x => (stampAddNs x.time (25 * (stamp - x.cnt).toNat : Nat), x.step)
  | none => (s.now, s.stepEpoch)

end Sys2Proof.Machine
end

