-- ==== Sys2Proof/Machine/Estimate.lean ====
section
/-! DEFINITION. The levels of dim codes (R109, R125), the movement of a dim code (R127), the energy that it stands for, and the least-squares problem of the energy
estimate (R417). Exact rational arithmetic; what is rounded is rounded where it enters a register. -/
namespace Sys2Proof.Machine
open Sys2Proof

/-! ## Dim codes (R109, R125) -/

/-- The largest number in [lo, lo + 2ⁿ) that satisfies `f`, when `f lo` holds and `f` is monotone. -/
def searchMax (f : Nat → Bool) : Nat → Nat → Nat
  | 0, lo => lo
  | n + 1, lo => if f (lo + 2 ^ n) then searchMax f n (lo + 2 ^ n) else searchMax f n lo

/-- L(c) of R109 for c = 1–1,023: the largest n with n − ½ ≤ 100 × 1000^((c − 1)/1022), that is
(2n − 1)^1022 ≤ 200^1022 × 1000^(c − 1). L(0) = 0. -/
def dimL (c : Nat) : Nat :=
  if c = 0 then 0
  else searchMax (fun n => Nat.ble ((2 * n - 1) ^ 1022) (200 ^ 1022 * 1000 ^ (c - 1))) 17 100

/-- The highest code whose level is at most `v`. -/
def dimBelow (v : Nat) : Nat := searchMax (fun c => decide (c ≤ 1023) && decide (dimL c ≤ v)) 10 0

/-- P2C (R109): the code whose level is nearest; a tie goes to the higher code. -/
def dimP2c (v : Int) : Nat :=
  if v ≤ 0 then 0
  else if 100000 ≤ v then 1023
  else
    let a := v.toNat
    let lo := dimBelow a
    let up := dimL (lo + 1)
    if up - a ≤ a - dimL lo then dimBelow up else lo

/-! ## Dim codes in motion (R127) -/

/-- The code in force at an instant. Before the launch it is the first code. -/
def Ramp.code (r : Ramp) (t : Nat) : Nat :=
  let el := t - stampUnits r.start
  let full := r.ms * 65536000000
  if full ≤ el then r.b
  else ((r.a : Int) + (2 * ((r.b : Int) - r.a) * el + full) / (2 * full : Nat)).toNat

/-- A command with a level and a ramp launches at `t`: it starts from the code in force. -/
def Ramp.launch (r : Ramp) (level ms : Nat) (t : Stamp) : Ramp := ⟨r.code (stampUnits t), level, ms, t⟩

/-- ∫ L(c(t)) dt over [x, y), none of it before the launch, in 2⁻¹⁶ ns. Code number `j` of the movement is in force from
(2j − 1) to (2j + 1) of 2d parts of the ramp. -/
def Ramp.integral (r : Ramp) (x y : Nat) : Rat :=
  let full := r.ms * 65536000000
  let u := x - stampUnits r.start
  let v := y - stampUnits r.start
  let d := ((r.b : Int) - r.a).natAbs
  let flat : Rat := (dimL r.b * (v - max u full) : Nat)
  if d = 0 then flat + (dimL r.b * (min v full - u) : Nat)
  else
    let part := fun j =>
      dimL (if r.a ≤ r.b then r.a + j else r.a - j) *
        (min (2 * d * min v full) (full * (2 * j + 1)) - max (2 * d * u) (full * (2 * j - 1)))
    flat + (((List.range (d + 1)).map part).sum : Nat) / (2 * d : Nat)

/-- ∫ L(c(t)) dt over [x, y) of launches, the newest first, with the code in force before the oldest of them. -/
def codesIntegral (before : Nat) : List Ramp → Nat → Nat → Rat
  | [], x, y => (dimL before * (y - x) : Nat)
  | r :: l, x, y =>
    let t := stampUnits r.start
    if y ≤ t then codesIntegral before l x y
    else if x < t then codesIntegral before l x t + r.integral t y
    else r.integral x y

/-! ## Least squares (R417) -/

/-- The solution of linear equations in `n` unknowns, each a row of coefficients and the right side; none when they have no
single solution. -/
def solveRows : Nat → List (List Rat) → Option (List Rat)
  | 0, _ => some []
  | n + 1, rows =>
    match rows.find? (fun r => r.headD 0 != 0) with
    | none => none
    | some p =>
      let less := fun r : List Rat => List.zipWith (fun a b => a - r.headD 0 / p.headD 1 * b) r.tail p.tail
      match solveRows n ((rows.erase p).map less) with
      | none => none
      | some xs => some (((p.getD (n + 1) 0) - (List.zipWith (· * ·) p.tail xs).sum) / p.headD 1 :: xs)

def dotRat (a b : List Rat) : Rat := (List.zipWith (· * ·) a b).sum

/-- The matrix of the sum that R417 minimises, for columns with their weight ρ²: products of columns, and on the diagonal the
weight times the square of the column. -/
def ridgeMatrix (cols : List (Rat × List Rat)) : List (List Rat) :=
  cols.zipIdx.map (fun c => cols.zipIdx.map (fun e =>
    dotRat c.1.2 e.1.2 + (if c.2 = e.2 then c.1.1 * dotRat c.1.2 c.1.2 else 0)))

/-- The factors that minimise Σ (y − Σ kᵢ xᵢ)² + Σ wᵢ (kᵢ − 1)² ‖xᵢ‖². -/
def ridgeSolve (cols : List (Rat × List Rat)) (y : List Rat) : Option (List Rat) :=
  solveRows cols.length (List.zipWith (fun r c => r ++ [dotRat c.2 y + c.1 * dotRat c.2 c.2]) (ridgeMatrix cols) cols)

/-- The residual of a solution. -/
def ridgeResidual (cols : List (Rat × List Rat)) (y ks : List Rat) : List Rat :=
  (List.zip cols ks).foldl (fun a c => List.zipWith (fun v x => v - c.2 * x) a c.1.2) y

/-- The variance of factor `j`: the diagonal of the inverse of the matrix, times the residual variance over the degrees of
freedom left (DESIGN CHOICE, assumption 38). -/
def ridgeVar (cols : List (Rat × List Rat)) (y ks : List Rat) (j : Nat) : Option Rat :=
  let unit := (List.range cols.length).map (fun k => if k = j then (1 : Rat) else 0)
  let e := ridgeResidual cols y ks
  if y.length ≤ cols.length then none
  else (solveRows cols.length (List.zipWith (fun r u => r ++ [u]) (ridgeMatrix cols) unit)).map
    (fun z => z.getD j 0 * (dotRat e e / ((y.length - cols.length : Nat) : Rat)))

end Sys2Proof.Machine
end

