-- ==== Sys2Proof/Machine/Queue.lean ====
section
/-! DEFINITION. The event stream to FCP2 sessions (R174, R175) and the queue unit (R177–R184): occupancy,
watermarks, insertion, the read port and DROP_PKT, for each of its instances. -/
namespace Sys2Proof.Machine
open Sys2Proof

/-! ## Sessions and the event stream -/

def sessDefault (_ : Nat) : Session := Session.none
/-- FCP2 session `n`. -/
def State.sess (s : State) (n : Nat) : Session := sget sessDefault s.fcp.sess n
/-- Replace FCP2 session `n`. -/
def State.setSess (s : State) (n : Nat) (x : Session) : State :=
  { s with fcp := { s.fcp with sess := sset sessDefault s.fcp.sess n x } }

/-- The classes of R174 by bit. -/
def evAlarm : Nat := 0
def evSheaf : Nat := 1
def evRole : Nat := 2
def evQueue : Nat := 3
def evStorm : Nat := 4
def evFieldFail : Nat := 5

/-- Hand an event of a class to one session: sent when the session subscribes and fewer than 1,024 events are
undelivered, counted when its buffer is full (R174, R175). `seq` is the 8-byte recorder sequence number. -/
def sessEvent (cls : Nat) (seq : Nat) (body : List Byte) (n : Nat) (s : State) : State :=
  let x := s.sess n
  if x.isOpen && x.mask.getLsbD cls then
    if x.undelivered < 1024 then
      (s.setSess n { x with undelivered := x.undelivered + 1 }).send
        (.fcp2 n 0x06 cls 0 0 (leBytes 8 seq ++ body))
    else s.setSess n { x with evLost := x.evLost + 1 }
  else s

/-- Hand an event of a class to every session (R174). -/
def State.event (s : State) (cls : Nat) (body : List Byte) : State :=
  foldS (List.range 16) (sessEvent cls s.rcd.nextSeq body) s

/-! ## Queue-unit instances -/

/-- Block and offset of an instance's registers. -/
def quReg : Qu → Reg
  | .intake => R.QU_INTAKE_CMD.reg
  | .cpl s => R.QU_CPL_CMD.reg s
  | .bulk c => R.QU_BULK_CMD.reg c
  | .uartRx => R.QU_UART_RX_CMD.reg
  | .uartTx => R.QU_UART_TX_CMD.reg
  | .feed n => R.QU_FEED_CMD.reg n

/-- Words per item (R183, R184, R456, R469, R549, R550). -/
def quItemWords : Qu → Nat
  | .intake => 8 | .cpl _ => 8 | .bulk _ => 19 | .uartRx => 1 | .uartTx => 1 | .feed _ => 4

/-- Capacity in items. -/
def quCap : Qu → Nat
  | .intake => 65536 | .cpl _ => 4096 | .bulk _ => 512 | .uartRx => 1024 | .uartTx => 1024 | .feed _ => 64

def queueDefault (_ : Nat) : Queue := Queue.empty
/-- The items of an instance; the intake's items are the lists of R57. -/
def State.q (s : State) : Qu → Queue
  | .intake => Queue.empty
  | .cpl n => sget queueDefault s.fcp.cpl n
  | .bulk c => sget queueDefault s.fcp.bulk c
  | .uartRx => s.fcp.uartRx
  | .uartTx => s.fcp.uartTx
  | .feed n => sget queueDefault s.fcp.feed n

/-- Replace the items of an instance. -/
def State.setQ (s : State) (u : Qu) (x : Queue) : State :=
  match u with
  | .intake => s
  | .cpl n => { s with fcp := { s.fcp with cpl := sset queueDefault s.fcp.cpl n x } }
  | .bulk c => { s with fcp := { s.fcp with bulk := sset queueDefault s.fcp.bulk c x } }
  | .uartRx => { s with fcp := { s.fcp with uartRx := x } }
  | .uartTx => { s with fcp := { s.fcp with uartTx := x } }
  | .feed n => { s with fcp := { s.fcp with feed := sset queueDefault s.fcp.feed n x } }

/-- Occupancy in items (QU_STATUS.LEVEL); the intake's counts the whole pool (R183). -/
def State.quLevel (s : State) (u : Qu) : Nat :=
  match u with
  | .intake => s.intakeLevel
  | _ => (s.q u).items.length

/-- A field of an instance's registers. -/
def quF (u : Qu) (off lsb width : Nat) : Fld := ⟨(quReg u).blk, (quReg u).off + off, lsb, width⟩
def quAbove (u : Qu) : Fld := quF u 0x04 31 1
def quBad (u : Qu) : Fld := quF u 0x04 27 1
def quPeak (u : Qu) : Fld := quF u 0x28 0 17
def quHigh (u : Qu) : Fld := quF u 0x08 0 17
def quLow (u : Qu) : Fld := quF u 0x0C 0 17
/-- The flags of QU_EVT with their counters (R182). -/
def quRose (u : Qu) : Evt := ⟨(quReg u).blk, (quReg u).off + 0x10, 0, (quReg u).off + 0x14, 0⟩
def quFell (u : Qu) : Evt := ⟨(quReg u).blk, (quReg u).off + 0x10, 1, (quReg u).off + 0x14, 16⟩
def quDropped (u : Qu) : Evt := ⟨(quReg u).blk, (quReg u).off + 0x10, 2, (quReg u).off + 0x18, 0⟩
def quOverflow (u : Qu) : Evt := ⟨(quReg u).blk, (quReg u).off + 0x10, 3, (quReg u).off + 0x18, 16⟩

/-- The pair of watermarks in use (R178): HIGH and LOW, or QU_CAP and QU_CAP − 1 when the pair is not valid. -/
def State.quMarks (s : State) (u : Qu) : Bool × Nat × Nat :=
  let h := s.f (quHigh u)
  let l := s.f (quLow u)
  if l < h && h ≤ quCap u then (false, h, l) else (true, quCap u, quCap u - 1)

/-- The number by which an event of class QUEUE names an instance. -/
def quCode : Qu → Nat
  | .intake => 0 | .cpl s => 0x100 + s | .bulk c => 0x200 + c | .uartRx => 0x300 | .uartTx => 0x301 | .feed n => 0x400 + n

/-- Compare the occupancy with the watermarks: ABOVE, ROSE, FELL, WM_BAD and PEAK (R177, R178, R182). On the intake,
ROSE starts the storm procedure from IDLE when STORM_CTRL.EN is 1 (R186). -/
def State.quEval (s : State) (u : Qu) : State :=
  let m := s.quMarks u
  let n := s.quLevel u
  let was := s.on (quAbove u)
  let s := s.setF (quBad u) (b2n m.1)
  let s := if s.f (quPeak u) < n then s.setF (quPeak u) n else s
  if m.2.1 ≤ n && !was then
    let s := ((s.setF (quAbove u) 1).raise (quRose u)).event evQueue (leBytes 4 (quCode u) ++ leBytes 4 1)
    if u = .intake && s.on R.STORM_CTRL.EN && s.f R.STORM_STATUS.STATE == 0 then
      (s.setF R.STORM_STATUS.STATE 1).raise E.STORM_EVT.STARTED
    else s
  else if n ≤ m.2.2 && was then
    ((s.setF (quAbove u) 0).raise (quFell u)).event evQueue (leBytes 4 (quCode u) ++ leBytes 4 0)
  else s

/-- Offer an item to a queue: appended, or refused with OVERFLOW when the queue is full (R179). -/
def State.quOffer (s : State) (u : Qu) (item : List Word) : State :=
  if s.quLevel u < quCap u then
    (s.setQ u { s.q u with items := (s.q u).items ++ [item] }).quEval u
  else s.raise (quOverflow u)

/-- The first word of the idle item: type 0 and every other bit 1 (R180, R183, R184). For the bulk queue see R456. -/
def idleWord : Word := 0xFFFFFF00

/-- A read of QU_DATA (R180): the next word of the oldest item, which the read of its last word removes; the idle word
when the queue is empty. The intake, the transmit FIFO and the feeders always return the idle word (R183, R469, R550). -/
def State.quRead (s : State) (u : Qu) : Word × State :=
  match u with
  | .intake => (idleWord, s)
  | .uartTx => (idleWord, s)
  | .feed _ => (idleWord, s)
  | _ =>
    match (s.q u).items with
    | [] => (idleWord, s)
    | it :: rest =>
      let k := (s.q u).readWords
      let w := it.getD k 0
      if k + 1 < quItemWords u then (w, s.setQ u ⟨it :: rest, k + 1⟩)
      else (w, (s.setQ u ⟨rest, 0⟩).quEval u)

/-- Whether an item is in progress (QU_STATUS.IN_ITEM). -/
def State.inItem (s : State) (u : Qu) : Bool := (s.q u).readWords != 0

/-- DROP_PKT (R181): removes the item in progress and sets DROPPED; without one it does nothing. On the intake and the
engine-read queues it has no effect (R183, R469, R550). -/
def State.quDrop (s : State) (u : Qu) : State :=
  match u with
  | .intake => s
  | .uartTx => s
  | .feed _ => s
  | _ => if s.inItem u then ((s.setQ u ⟨(s.q u).items.drop 1, 0⟩).quEval u).raise (quDropped u) else s

/-- The word of QU_STATUS. -/
def State.quStatus (s : State) (u : Qu) : Word :=
  let n := s.quLevel u
  w32 (s.f (quAbove u) * 2 ^ 31 + b2n (n == quCap u) * 2 ^ 30 + b2n (n == 0) * 2 ^ 29 + b2n (s.inItem u) * 2 ^ 28
    + b2n (s.quMarks u).1 * 2 ^ 27 + n)

end Sys2Proof.Machine
end

