-- ==== Sys2Proof/Machine/Bus.lean ====
section
/-! DEFINITION. The register interconnect: which block or memory an address of the control space reaches (R35–R37),
bus errors and their capture (R11, R12, R36, R39), domains and bridges (R30, R40, R571), and the 64-bit pairs of
R17. -/
namespace Sys2Proof.Machine
open Sys2Proof

/-! ## The address map -/

/-- Base and last address of each register block (R37). -/
def blkRange : Blk → Nat × Nat
  | .sys => (0x10000000, 0x10FFFFFF)
  | .time => (0x11000000, 0x113FFFFF)
  | .rtc => (0x11400000, 0x11FFFFFF)
  | .key => (0x12000000, 0x12FFFFFF)
  | .rcd => (0x13000000, 0x13FFFFFF)
  | .fe => (0x14000000, 0x151FFFFF)
  | .fab => (0x20000000, 0x27FFFFFF)
  | .port => (0x30000000, 0x30FFFFFF)
  | .ring => (0x38000000, 0x3807FFFF)
  | .mtr => (0x40000000, 0x40FFFFFF)
  | .dio => (0x41000000, 0x41FFFFFF)
  | .ind => (0x42000000, 0x42FFFFFF)
  | .rad => (0x43000000, 0x433FFFFF)
  | .can => (0x44000000, 0x4407FFFF)
  | .svc => (0x45000000, 0x45FFFFFF)
  | .pwr => (0x46000000, 0x46FFFFFF)

/-- Every block. -/
def allBlks : List Blk :=
  [.sys, .time, .rtc, .key, .rcd, .fe, .fab, .port, .ring, .mtr, .dio, .ind, .rad, .can, .svc, .pwr]

/-- The control address of a register. -/
def regAddr (r : Reg) : Nat := (blkRange r.blk).1 + r.off

/-- What an address of the control space reaches. -/
inductive Target where
  /-- A register: block and offset. -/
  | reg (b : Blk) (off : Nat)
  /-- The FMEM window. -/
  | fmem (off : Nat)
  /-- The RAD range of an RS2560-MX (R2). -/
  | radAbsent
  /-- An address of the register region that no block decodes (R12). -/
  | hole
  | bootRom (off : Nat)
  | sram (off : Nat)
  | sdram (off : Nat)
  /-- An address outside the register region that no memory decodes (R36). -/
  | noMemory
  deriving DecidableEq, Repr

/-- The register region (R35). -/
def inRegion (a : Nat) : Bool := decide (0x10000000 ≤ a ∧ a ≤ 0xFFFFFFFF)

/-- What an address reaches (R35–R37, R2). An address in the RAD range of an RS2560-MX reaches `radAbsent` whether or
not RAD defines a register there (DEDUCED, assumption 10). -/
def targetOf (code : OrderCode) (a : Nat) : Target :=
  if inRegion a then
    if 0x16000000 ≤ a ∧ a ≤ 0x19FFFFFF then .fmem (a - 0x16000000)
    else
      match allBlks.find? (fun b => decide ((blkRange b).1 ≤ a ∧ a ≤ (blkRange b).2)) with
      | some b =>
        if b = .rad ∧ code = .mx then .radAbsent
        else match findRow b (a - (blkRange b).1) with
          | some _ => .reg b (a - (blkRange b).1)
          | none => .hole
      | none => .hole
  else if a ≤ 0x3FFFF then .bootRom a
  else if 0x1000000 ≤ a ∧ a ≤ 0x11FFFFF then .sram (a - 0x1000000)
  else if 0x100000000 ≤ a ∧ a ≤ 0x8FFFFFFFF then .sdram (a - 0x100000000)
  else .noMemory

/-- What an address reaches on this module. -/
def State.target (s : State) (a : Addr) : Target := targetOf s.ident.code a.toNat

/-- The clocked domain of a register, `none` for a clockless block (R571). -/
def domainOf (b : Blk) (off : Nat) : Option Nat :=
  match b with
  | .time => some 2
  | .port => some (3 + off / 0x10000 / 32)
  | .mtr => some 13
  | .rtc => some 14
  | .rad => some 15
  | .can => some 16
  | .svc => some 17
  | .dio => some 18
  | .ind => some 18
  | _ => none

/-! ## Bus errors -/

/-- A bus error: its flag is set and counted, and its address and type are captured when all four flags were 0
(R39). -/
def State.busErr (s : State) (e : Evt) (a : Addr) (write : Bool) : State :=
  let clear := getBits (s.r R.SYS_BUS_ERR.reg) 0 4 == 0
  let s := s.raise e
  if clear then
    ((s.setR R.SYS_BUS_ERR_ADDR_LO.reg (w32 a.toNat)).setF R.SYS_BUS_ERR_ADDR_HI.ADDR (a.toNat / 4294967296)).setF
      R.SYS_BUS_ERR_ADDR_HI.WRITE (b2n write)
  else s

/-- The data that a read returns. -/
def State.answer (s : State) (v : Word) : State := { s with bus := { s.bus with readData := v } }

/-- A read that ends without effect returns 0; a write returns nothing. -/
def State.noData (s : State) (write : Bool) : State := if write then s else s.answer 0

/-- The DOMAIN_LOSS event (R40, R495). -/
def State.domainLost (s : State) (d : Nat) : State :=
  (s.setDomain d false).record 0x0101 2 d [0]

/-- An access ended by R30: no effect, a read returns 0, BRIDGE_TO, the domain's bit cleared, DOMAIN_LOSS (R40) when
the bit was 1. -/
def State.bridgeTo (s : State) (d : Nat) (a : Addr) (write : Bool) : State :=
  let was := s.domainOk d
  let s := (s.busErr E.SYS_BUS_ERR.BRIDGE_TO a write).noData write
  if was then s.domainLost d else s

/-- Whether the clock of domain D`d` runs. -/
def State.clockOn (s : State) (d : Nat) : Bool := s.bus.clocks.testBit (d - 1)
/-- Start or stop the clock of domain D`d`. -/
def State.setClock (s : State) (d : Nat) (v : Bool) : State :=
  let n := s.bus.clocks
  { s with bus := { s.bus with
      clocks := if v then n ||| 2 ^ (d - 1) else n - (if n.testBit (d - 1) then 2 ^ (d - 1) else 0) } }

/-- Whether the register at an offset of the RTC is one of its event counters, which are neither calendar nor status and stand
outside the bridge's shadow (R29; DEDUCED, assumption 127). -/
def rtcCounterAt (off : Nat) : Bool := [R.RTC_EVT_CNT0.reg, R.RTC_EVT_CNT1.reg, R.RTC_EVT_CNT2.reg].any (fun x => x.off == off)
/-- Whether an access to a block reaches it: the block is clockless, its domain's clock runs, or the access is a read
of the RTC that its shadow serves (R29, R30, R571). -/
def State.reaches (s : State) (b : Blk) (off : Nat) (write : Bool) : Bool :=
  match domainOf b off with
  | none => true
  | some d => s.clockOn d || (b = .rtc && !write && !rtcCounterAt off)

/-- A direct write to a register through its bridge (R30): `k` when the block is reached. -/
def State.viaWrite (s : State) (r : Reg) (k : State → State) : State :=
  if s.reaches r.blk r.off true then k s
  else s.bridgeTo ((domainOf r.blk r.off).getD 0) (BitVec.ofNat 40 (regAddr r)) true

/-- A direct read of a register through its bridge (R30): `k` when the block is reached. -/
def State.viaRead (s : State) (r : Reg) (k : State → State) : State :=
  if s.reaches r.blk r.off false then k s
  else s.bridgeTo ((domainOf r.blk r.off).getD 0) (BitVec.ofNat 40 (regAddr r)) false

/-- A direct write to an SO register (R18). -/
def State.soWrite (s : State) (r : Reg) : State :=
  s.busErr E.SYS_BUS_ERR.SO_WRITE (BitVec.ofNat 40 (regAddr r)) true

/-! ## Writes and reads by access code (R10, R13) -/

/-- The word that a field's write leaves: RW and WO take the value, W1C clears, W1S sets; RO, RC and SO ignore it. -/
def writeField (data : Word) (w : Word) (x : FieldRow) : Word :=
  let n := x.msb - x.lsb + 1
  let d := getBits data x.lsb n
  let c := getBits w x.lsb n
  match x.acc with
  | .rw => setBits w x.lsb n d
  | .w1c => setBits w x.lsb n (c - (c &&& d))
  | .w1s => setBits w x.lsb n (c ||| d)
  | _ => w

/-- The word that a direct write leaves in a register. -/
def writeWord (x : RegRow) (old data : Word) : Word := x.fields.foldl (writeField data) old

/-- The bits of a register that a sheaf can change: its RW and SO fields (R19). -/
def sheafMask (x : RegRow) : Word :=
  x.fields.foldl (fun w f =>
    if f.acc = .rw ∨ f.acc = .so then w ||| setBits 0 f.lsb (f.msb - f.lsb + 1) (2 ^ (f.msb - f.lsb + 1) - 1) else w) 0

/-- The word that remains after a read: RC fields are cleared (R10, R16). PEAK fields are treated by their owners. -/
def afterRead (x : RegRow) (w : Word) : Word :=
  x.fields.foldl (fun w f => if f.acc = .rc then setBits w f.lsb (f.msb - f.lsb + 1) 0 else w) w

/-- The bits that a read shows: WO fields read 0 (R10), reserved bits 0 (R13). -/
def readMask (x : RegRow) (w : Word) : Word :=
  x.fields.foldl (fun a f =>
    if f.acc = .wo then a else setBits a f.lsb (f.msb - f.lsb + 1) (getBits w f.lsb (f.msb - f.lsb + 1))) 0

/-- A direct write that takes effect by access code alone (R10, R14, R18). -/
def State.plainWrite (s : State) (b : Blk) (off : Nat) (data : Word) : State :=
  match findRow b off with
  | none => s
  | some x => if x.so then s.soWrite ⟨b, off⟩ else s.wr b off (writeWord x (s.rd b off) data)

/-! ## 64-bit pairs (R17) -/

/-- The low words of the 64-bit pairs of each block: offset and (stride, count) of each index. The 64-bit quantities
are those the maps declare as pairs under R17, counters, sequence numbers, energies and addresses; a MAC address in two
registers is none; MTR_CAP_MASK_LO and MTR_CAP_MASK_HI, a channel mask of 54 bits, are one (DEDUCED, assumption 11). -/
def pairLows : Blk → List (Nat × List (Nat × Nat))
  | .sys => [(0x10, [])]
  | .time => [(0x10, []), (0x30, [])]
  | .key => [(0x08, [])]
  | .rcd => [(0x20, []), (0x28, []), (0x30, []), (0x48, []), (0x58, []), (0x60, []), (0x70, []), (0x90, [])]
  | .fe => [(0x54, [(0x100000, 18)]), (0x70, [(0x100000, 18)])]
  | .port => [(0x40, [(0x10000, 256), (8, 7)])]
  | .mtr => [(0x404, []), (0x480, [(8, 12)]), (0x1000, [(0x100, 12), (0x40, 3), (8, 5)]), (0x10C0, [(0x100, 12), (8, 5)])]
  | .svc => [(0x208, [])]
  | _ => []

/-- Whether an offset holds the low word of a pair. -/
def isPairLow (b : Blk) (off : Nat) : Bool :=
  (pairLows b).any (fun p => p.1.ble off && dimsHit p.2 (off - p.1))

/-- The low word's offset of the pair whose high word stands at an offset. -/
def pairLowOf (b : Blk) (off : Nat) : Option Nat := if 4 ≤ off && isPairLow b (off - 4) then some (off - 4) else none

def wordOptDefault (_ : Nat) : Option Word := none
/-- The unread shadow of the pair whose low word lies at a control address. -/
def State.shadowAt (s : State) (a : Nat) : Option Word := sget wordOptDefault s.bus.shadow a
/-- Set or clear the unread shadow of a pair. -/
def State.setShadow (s : State) (a : Nat) (v : Option Word) : State :=
  { s with bus := { s.bus with shadow := sset wordOptDefault s.bus.shadow a v } }
/-- The held low word of a pair. -/
def State.heldAt (s : State) (a : Nat) : Option Word := sget wordOptDefault s.bus.held a
/-- Hold or release the low word of a pair. -/
def State.setHeld (s : State) (a : Nat) (v : Option Word) : State :=
  { s with bus := { s.bus with held := sset wordOptDefault s.bus.held a v } }

end Sys2Proof.Machine
end

