-- ==== Sys2Proof/Machine/Intake.lean ====
section
/-! DEFINITION. Intake events (R57–R61, R566): the words of an event, the pool and its lists, DUP, SENSE and
LAST_SEEN, MODULE events. -/
namespace Sys2Proof.Machine
open Sys2Proof

/-- The eight words of an event (R58). -/
def eventWords (e : IEvent) : List Word :=
  [w32 (e.step % 256 * 65536 + b2n e.dup * 512 + b2n e.unknown * 256 + e.kind % 256),
   w32 (e.gen % 256 * 131072 + e.lead % 131072),
   stampWord e.time 0, stampWord e.time 1, stampWord e.time 2, e.p5, e.p6, e.p7]

/-- The capacity of the pool of R57. -/
def intakeCap : Nat := 65536

/-- Whether the intake takes events and its pool has a free entry (R57, R334). -/
def State.intakeRoom (s : State) : Bool := s.fe.intakeOpen && decide (s.intakeLevel < intakeCap)

/-- A refused event, counted in STORM_DROPPED (R189); OVERFLOW when the pool is full (R179), not while the intake is not
open yet (R334). -/
def State.refuseEvent (s : State) : State :=
  (if s.fe.intakeOpen then s.raise (quOverflow .intake) else s).count R.STORM_DROPPED.DROPPED

/-- Whether logical engine `l` is stopped for want of silicon (R326). -/
def State.engStopped (s : State) (l : Nat) : Bool := s.fe.stopped.contains l

/-- An event for a stopped logical engine is discarded and counted in SYS_ENG_DROP (R326). -/
def State.dropEvent (s : State) : State := s.count R.SYS_ENG_DROP.DROP

/-- Append an event to the list of logical engine `l`; refuse it when the pool is full, discard it when the engine is
stopped (R57, R179, R189, R326). -/
def State.offerEvent (s : State) (l : Nat) (e : IEvent) : State :=
  if s.engStopped l then s.dropEvent
  else if s.intakeRoom then (s.setIlist l (s.ilist l ++ [e])).quEval .intake else s.refuseEvent

/-- Place an event at the head of a list (RESTART, R57). -/
def State.offerHead (s : State) (l : Nat) (e : IEvent) : State :=
  if s.intakeRoom then (s.setIlist l (e :: s.ilist l)).quEval .intake else s.refuseEvent

/-! ## Kinds (R60) -/

def kPresence : Nat := 0x01
def kDaylight : Nat := 0x02
def kFault : Nat := 0x03
def kReport : Nat := 0x04
def kCmdFail : Nat := 0x05
def kCount : Nat := 0x06
def kDio : Nat := 0x07
def kModule : Nat := 0x08
def kJoin : Nat := 0x09

/-- The kinds to which DUP applies (R59). -/
def dupKind (k : Nat) : Bool := (1 ≤ k && k ≤ 7) || (0x80 ≤ k && k ≤ 0xFF)

/-- The kinds an endpoint sends whose word 5 becomes SENSE (R60). -/
def senseKind (k : Nat) : Bool := k == kPresence || k == kDaylight || k == kCount

def dupDefault (_ : Nat) : Option DupRef := none
/-- The reference event of endpoint record `i` (R59). -/
def State.dupRefOf (s : State) (i : Nat) : Option DupRef := sget dupDefault s.fe.dupRef i
/-- Set the reference event of endpoint record `i`. -/
def State.setDupRef (s : State) (i : Nat) (d : DupRef) : State :=
  { s with fe := { s.fe with dupRef := sset dupDefault s.fe.dupRef i (some d) } }

/-- Whether an event repeats the reference of its record: same KIND and payload, its ingress time in [t, t + 10 ms) of
the reference's (R59, R8). -/
def repeatsRef (r : Option DupRef) (kind : Nat) (p5 p6 p7 : Word) (t : Stamp) : Bool :=
  match r with
  | none => false
  | some d =>
    d.kind == kind && d.p5 == p5 && d.p6 == p6 && d.p7 == p7 &&
      decide (stampUnits d.time ≤ stampUnits t ∧ stampUnits t < stampUnits d.time + 10000000 * 65536)

/-- Raise the record's EPOCH to a reported control epoch (R163). -/
def State.seeEpoch (s : State) (i : Nat) (ep : Nat) : State :=
  if s.ep i EP.EPOCH < ep then s.setEp i EP.EPOCH ep else s

/-- Record a frame whose event entered the intake: LAST_SEEN and SEEN_STEP (R47, R188). -/
def State.markSeen (s : State) (i : Nat) (t : Stamp) (step : Nat) : State :=
  (s.setEpStamp i EP.LAST_SEEN t).setEp i EP.SEEN_STEP step

/-- The payload bits that R60 names for a KIND, words 5–7; the others are 0. It names none for a reserved KIND. -/
def payloadBits (kind : Nat) : Word × Word × Word :=
  if 0x80 ≤ kind then (0xFFFFFFFF, 0xFFFFFFFF, 0xFFFFFFFF)
  else match kind with
    | 0x01 => (0xFFFFFFFF, 0xFFFFFF03, 0)
    | 0x02 => (0xFFFFFFFF, 0, 0)
    | 0x03 => (0x0000FFFF, 0xFFFFFFFF, 0)
    | 0x04 => (0x000003FF, 0xFFFFFFFF, 0)
    | 0x05 => (0xFFFFFFFF, 0x0000FFFF, 0)
    | 0x06 => (0xFFFFFFFF, 0xFFFFFFFF, 0)
    | 0x07 => (0x0000FFFF, 0, 0)
    | 0x08 => (0x0000FFFF, 0xFFFFFFFF, 0x0000FFFF)
    | 0x09 => (0xFFFFFFFF, 0xFFFFFFFF, 0xFFFFFFFF)
    | _ => (0, 0, 0)

/-- An event of KIND `kind` from endpoint `i`, whose record is valid (R57–R60): DUP, SENSE, LAST_SEEN, and for a REPORT
the epoch of its word 6 (R163). A refused or discarded event leaves no trace in the record. KIND 0x00, which WAIT never
delivers (R58), enters no list, and one of a reserved KIND 0x0A–0x7F enters it without payload (DESIGN CHOICE, assumption
131). Only an event to which R59 applies becomes its reference: one of another KIND leaves the reference as it is (DESIGN
CHOICE, assumption 161). -/
def State.endpointEvent (s : State) (i kind : Nat) (w5 w6 w7 : Word) (t : Stamp) (step : Nat) : State :=
  let l := s.ep i EP.ENG
  let p5 := w5 &&& (payloadBits kind).1
  let p6 := w6 &&& (payloadBits kind).2.1
  let p7 := w7 &&& (payloadBits kind).2.2
  if kind = 0 then s
  else if s.engStopped l then s.dropEvent
  else if s.intakeRoom then
    let dup := dupKind kind && repeatsRef (s.dupRefOf i) kind p5 p6 p7 t
    let s := if dupKind kind && !dup then s.setDupRef i ⟨kind, p5, p6, p7, t⟩ else s
    let s := if senseKind kind then s.setEp i EP.SENSE p5.toNat else s
    let s := s.markSeen i t step
    let s := if kind == kReport then s.seeEpoch i p6.toNat else s
    s.offerEvent l ⟨kind, false, dup, step, s.ep i EP.GEN, i, t, p5, p6, p7⟩
  else s.refuseEvent

/-- An event from a source without a valid record (R57, R58): UNKNOWN = 1, to FE_STEER.UNKNOWN. KIND 0x00 enters no list
(DESIGN CHOICE, assumption 131). -/
def State.unknownEvent (s : State) (kind : Nat) (p5 p6 p7 : Word) (t : Stamp) (step : Nat) : State :=
  if kind = 0 then s
  else
    let b := payloadBits kind
    s.offerEvent (s.f R.FE_STEER.UNKNOWN) ⟨kind, true, false, step, 0, 0, t, p5 &&& b.1, p6 &&& b.2.1, p7 &&& b.2.2⟩

/-- Word 7 of a JOIN event: path code and path address bits [28:0] (R60). -/
def joinWord (path : Nat) (addr : Word) : Word := w32 (path % 8 + addr.toNat % 2 ^ 29 * 8)

/-- One copy of a MODULE event (R57, R60, R61). -/
def moduleIEvent (code : Nat) (p6 p7 : Word) (t : Stamp) (step : Nat) : IEvent :=
  ⟨kModule, false, false, step, 0, 0, t, w32 code, p6, p7⟩

/-- A MODULE event other than RESTART: one copy for every active logical engine, ascending (R57). -/
def State.moduleEvent (s : State) (code : Nat) (p6 : Word) (t : Stamp) (step : Nat) : State :=
  foldS (List.range 16)
    (fun l s => if s.engActive l then s.offerEvent l (moduleIEvent code p6 0 t step) else s) s

def meSheafApplied : Nat := 0x0001
def meTakeover : Nat := 0x0002
def meTimeStep : Nat := 0x0003
def meRestart : Nat := 0x0004

/-- The RESTART event of logical engine `l` (R57, R60, R61, R63). -/
def State.restartEvent (s : State) (l excCode pc : Nat) : State :=
  s.offerHead l (moduleIEvent meRestart (w32 excCode) (w32 pc) s.now s.stepEpoch)

end Sys2Proof.Machine
end

