-- ==== Sys2Proof/Machine/Handles.lean ====
section
/-! DEFINITION. Handles (R159–R166): allocation under quotas, the states of R162, replies (R163), DONE (R119),
abandonment (R118), and the delivery of completions (R168–R170, R184). -/
namespace Sys2Proof.Machine
open Sys2Proof

/-! ## Statuses (R173) -/

def fsOk : Nat := 0x0000
def fsNoReply : Nat := 0x0001
def fsAbandoned : Nat := 0x0002
def fsStale : Nat := 0x0003
def fsQuota : Nat := 0x0004
def fsNoHandle : Nat := 0x0005
def fsNotPermitted : Nat := 0x0006
def fsBadRequest : Nat := 0x0007
def fsBadAddress : Nat := 0x0008
def fsNoRadio : Nat := 0x0009
def fsStandby : Nat := 0x000A
def fsFenced : Nat := 0x000B
def fsCalFull : Nat := 0x000C
def fsFar : Nat := 0x000D
def fsRejected : Nat := 0x000E
def fsReadOnly : Nat := 0x000F
def fsSheaf : Nat := 0x0010
def fsBusy : Nat := 0x0011
def fsUnknownOp : Nat := 0x0012
def fsQueueFull : Nat := 0x0013
def fsNotSent : Nat := 0x0014

/-! ## Allocation (R160, R165, R166) -/

/-- The number of slots of the pool. -/
def hndSlots : Nat := 131072

/-- The first slot from `i` on, among `n`, that is FREE and has not been freed since the free slots were ordered. -/
def State.freshSlot (s : State) : Nat → Nat → Option Nat
  | 0, _ => none
  | n + 1, i => if (s.hslot i).st = .free && !s.hnd.freed.contains i then some i else s.freshSlot n (i + 1)

/-- The free slot that was freed longest ago (R160). -/
def State.oldestFree (s : State) : Option Nat :=
  match s.freshSlot (hndSlots - s.hnd.freshFrom) s.hnd.freshFrom with
  | some i => some i
  | none => s.hnd.freed.head?

/-- Handles that an owner's quota counts, and the quota (R165). -/
def State.quotaOf (s : State) : Owner → Nat × Nat
  | .session n => (s.heldBy (fun o => o = .session n), s.f (R.HND_SESS_QUOTA.QUOTA n))
  | .engine _ => (s.heldBy isEngine, s.f R.HND_ENG_QUOTA.QUOTA)
  | .firmware => (0, 0)
  | .module => (s.heldBy (fun o => o = .module), 16384)

/-- The outcome of an allocation. -/
inductive Alloc where
  | slot (i : Nat)
  | quota
  | noHandle
  deriving DecidableEq, Repr

/-- What an allocation for an owner answers: the owner's quota first, the pool second (R165). -/
def State.allocTest (s : State) (o : Owner) : Alloc :=
  let q := s.quotaOf o
  if q.2 ≤ q.1 then .quota
  else match s.oldestFree with
    | some i => .slot i
    | none => .noHandle

/-- The flags of a refused allocation (R165). -/
def State.allocFail (s : State) : Alloc → State
  | .quota => s.raise E.HND_EVT.QUOTA
  | .noHandle => s.raise E.HND_EVT.NO_HANDLE
  | .slot _ => s

/-- Take slot `i` off the free slots (R160). -/
def State.takeSlot (s : State) (i : Nat) : State :=
  { s with hnd := { s.hnd with
      freshFrom := if s.hnd.freed.contains i then s.hnd.freshFrom else i + 1
      freed := s.hnd.freed.filter (· != i) } }

/-- Allocate slot `i` for `h`: PLACED, with the slot's generation (R162). -/
def State.allocSlot (s : State) (i : Nat) (h : Handle) : State :=
  (s.takeSlot i).setHslot i { h with st := .placed, gen := (s.hslot i).gen }

/-- The handle value of slot `i`. -/
def State.handleAt (s : State) (i : Nat) : Word := handleWord i (s.hslot i).gen

/-! ## Completion (R162) -/

/-- Enter COMPLETING with a status and a result; the completion time is now. -/
def State.complete (s : State) (i status : Nat) (result : Word) : State :=
  let h := s.hslot i
  let s := s.setHslot i { h with st := .completing, status := status, result := result, time := s.now, step := s.stepEpoch,
                                 order := s.hnd.completed }
  { s with hnd := { s.hnd with completed := s.hnd.completed + 1 } }

/-- The record of the handle's command is valid and its GEN equals the GEN in the command's body (R163). -/
def State.sameRecord (s : State) (h : Handle) : Bool := s.epValid h.ep && s.ep h.ep EP.GEN == h.epGen

/-- States in which a handle is open for DONE and abandonment. -/
def Handle.live (h : Handle) : Bool := h.st = .placed || h.st = .awaiting || h.st = .held

/-- DONE by logical engine `l` (R119): whether it completes the handle, and the state after. -/
def State.hndDone (s : State) (l : Nat) (w : Word) (status : Nat) (result : Word) : Bool × State :=
  let i := slotOf w
  let h := s.hslot i
  if s.handleOpen w && h.live && h.isField && h.hold && h.owner = .engine l then (true, s.complete i status result)
  else (false, s)

/-- ABANDONED for every handle that logical engine `l` holds open with HOLD = 1 (R118, R162). -/
def State.abandon (s : State) (l : Nat) : State :=
  foldS (skeys s.hnd.tab (fun _ h => h.live && h.hold && h.owner = .engine l))
    (fun i s => s.complete i fsAbandoned 0) s

/-- The reply timer of slot `i` expires (R162). -/
def State.replyTimeout (s : State) (i : Nat) : State :=
  let h := s.hslot i
  if h.st = .awaiting then (s.setEp h.ep EP.NO_REPLY 1).complete i fsNoReply 0 else s

/-- A reply that no handle matches; one with 0 carries no handle (R159, R163). -/
def State.staleReply (s : State) (h : Word) : State := if h = 0 then s else s.raise E.HND_EVT.STALE_REPLY

/-- Whether a reply that arrived by `path`, on `ring` for path 0, matches its handle (R163, R568). -/
def State.replyMatches (s : State) (r : Reply) (path ring : Nat) : Bool :=
  let h := s.hslot (slotOf r.handle)
  h.st = .awaiting && h.gen == genOf r.handle && h.eui = r.eui && h.path == path &&
    (path != 0 || getBits (w32 (s.ep h.ep EP.ADDR)) 16 7 == ring)

/-- The REPORT event that delivers the reply to a held command to its engine (R162, R566). -/
def State.heldReport (s : State) (h : Handle) (r : Reply) (t : Stamp) (step : Nat) (l : Nat) : State :=
  let s := if s.intakeRoom && !s.engStopped l && s.sameRecord h then s.markSeen h.ep t step else s
  s.offerEvent l ⟨kReport, false, false, step, h.epGen, h.ep, t, w32 (r.level % 1024), w32 r.epoch, 0⟩

/-- A reply frame with a handle (R162, R163): NO_REPLY cleared and EPOCH raised in the record, then COMPLETING or HELD;
the reply to a recovery poll enters the intake as a REPORT event (R188), which changes no record that another unit has taken since
(R163). -/
def State.reply (s : State) (r : Reply) (path ring : Nat) (t : Stamp) (step : Nat) : State :=
  if s.replyMatches r path ring then
    let i := slotOf r.handle
    let h := s.hslot i
    let s := if s.sameRecord h then (s.setEp h.ep EP.NO_REPLY 0).seeEpoch h.ep r.epoch else s
    match h.owner with
    | .engine l =>
      if h.hold then (s.setHslot i { h with st := .held }).heldReport h r t step l
      else if r.accepted then s.complete i fsOk 0 else s.complete i fsRejected r.result
    | .module =>
      let s := if s.sameRecord h then s.endpointEvent h.ep kReport (w32 (r.level % 1024)) (w32 r.epoch) 0 t step
        else s.heldReport h r t step (s.ep h.ep EP.ENG)
      if r.accepted then s.complete i fsOk 0 else s.complete i fsRejected r.result
    | _ => if r.accepted then s.complete i fsOk 0 else s.complete i fsRejected r.result
  else s.staleReply r.handle

/-! ## Delivery (R160, R168–R170, R184) -/

/-- The next generation of a slot (R160). -/
def nextGen (g : Nat) : Nat := if g ≥ 32767 then 1 else g + 1

/-- Free slot `i`: generation advanced, the record's HANDLE cleared when it holds this handle (R160, R162). -/
def State.freeSlot (s : State) (i : Nat) : State :=
  let h := s.hslot i
  let s := if h.isField && s.ep h.ep EP.HANDLE == (s.handleAt i).toNat then s.setEp h.ep EP.HANDLE 0 else s
  let s := s.setHslot i { Handle.fresh with gen := nextGen h.gen }
  { s with hnd := { s.hnd with freed := s.hnd.freed ++ [i] } }

/-- The completion item of slot `i` (R184). -/
def State.cplItem (s : State) (i : Nat) : List Word :=
  let h := s.hslot i
  [w32 (h.status * 65536 + b2n h.noReplyCmd * 512 + b2n h.late * 256 + 1), s.handleAt i, h.result, w32 h.step,
   stampWord h.time 0, stampWord h.time 1, stampWord h.time 2, 0]

/-- A completion that a closed session no longer takes: counted in OVERFLOW_CNT of its queue, without the flag
(R168, R184). -/
def State.cplDiscard (s : State) (n : Nat) : State :=
  let f : Fld := ⟨(quReg (.cpl n)).blk, (quReg (.cpl n)).off + 0x18, 16, 16⟩
  s.setF f (satInc 0xFFFF (s.f f))

/-- CMD_FAIL to the list of logical engine `l`, and a FIELD_FAIL event when it enters (R170, R174, R566). -/
def State.cmdFail (s : State) (l i : Nat) : State :=
  let h := s.hslot i
  let e : IEvent := ⟨kCmdFail, false, false, s.stepEpoch, h.epGen, h.ep, s.now, s.handleAt i, w32 h.status, 0⟩
  let room := s.intakeRoom && !s.engStopped l
  let s := s.offerEvent l e
  if room then s.event evFieldFail (wordsBytes (eventWords e)) else s

/-- Whether slot `i` is the first of its session to have completed, so that COMPLETIONs keep their order (R169). -/
def State.cplFirst (s : State) (i n : Nat) : Bool :=
  s.hnd.tab.all (fun e => !(e.2.st = .completing && e.2.owner = .session n && decide (e.2.order < (s.hslot i).order)))

/-- Drop the command data kept for a handle. -/
def dataDefault (_ : Nat) : List Byte := []
def State.setData (s : State) (h : Word) (d : List Byte) : State :=
  { s with fcp := { s.fcp with data := sset dataDefault s.fcp.data h.toNat d } }
def State.dataOf (s : State) (h : Word) : List Byte := sget dataDefault s.fcp.data h.toNat

/-- The completion of slot `i` reaches its session: queued and freed, kept while the queue is full, or discarded when
the session is closed (R168, R170). -/
def State.cplSession (s : State) (i n : Nat) : State :=
  if (s.sess n).isOpen then
    if s.cplFirst i n && s.quLevel (.cpl n) < quCap (.cpl n) then
      (s.quOffer (.cpl n) (s.cplItem i)).freeSlot i
    else s
  else ((s.setData (s.handleAt i) []).cplDiscard n).freeSlot i

/-- The COMPLETION message of a completion item read from session `n`'s queue, with the command data it holds (R168,
R184). -/
def State.cplMessage (s : State) (n : Nat) (it : List Word) : State :=
  let w0 := it.getD 0 0
  let hw := it.getD 1 0
  let body := wordsBytes [it.getD 2 0] ++ [BitVec.ofNat 8 (getBits w0 8 2), BitVec.ofNat 8 (it.getD 3 0).toNat, 0, 0] ++
    wordsBytes [it.getD 4 0, it.getD 5 0, it.getD 6 0] ++ s.dataOf hw
  let s := if (s.sess n).isOpen then s.send (.fcp2 n 0x05 (getBits w0 16 16) 0 hw body) else s
  s.setData hw []

/-- A read of QU_DATA (R180). The read of the last word of a completion item lets firmware send its COMPLETION
(R184); that of a bulk item hands it to firmware (R456). -/
def State.quDataRead (s : State) (u : Qu) : Word × State :=
  match u with
  | .cpl n =>
    match (s.q u).items with
    | [] => s.quRead u
    | it :: _ =>
      let last := (s.q u).readWords + 1 == quItemWords u
      let r := s.quRead u
      (r.1, if last then r.2.cplMessage n it else r.2)
  | .bulk c =>
    let last := !(s.q u).items.isEmpty && (s.q u).readWords + 1 == quItemWords u
    let r := s.quRead u
    (r.1, if last then r.2.setF (R.CAN_BULK_OWED.OWED c) (r.2.f (R.CAN_BULK_OWED.OWED c) + 1) else r.2)
  | _ => s.quRead u

end Sys2Proof.Machine
end

