-- ==== Sys2Proof/Machine/Crypto.lean ====
section
/-! DEFINITION. The published algorithms that the spec names without restating them (assumption 4): SHA-256, SHA-384 and
SHA-512 of FIPS 180-4, HMAC and HKDF of RFC 2104 and RFC 5869, AES-256 of FIPS 197 with GCM and CCM, ECDSA and ECDH over
P-256, Ed25519 of RFC 8032 and X25519 of RFC 7748. -/
namespace Sys2Proof.Machine

/-! ## SHA-2 (R123, R518, R537, R538, R551) -/

/-- The largest `r` below `2 ^ n` with `r ^ k ≤ v`, added to `acc`. -/
def floorRoot (k v : Nat) : Nat → Nat → Nat
  | 0, acc => acc
  | n + 1, acc => if (acc + 2 ^ n) ^ k ≤ v then floorRoot k v n (acc + 2 ^ n) else floorRoot k v n acc

/-- The first 80 primes. -/
def shaPrimes : List Nat :=
  [2, 3, 5, 7, 11, 13, 17, 19, 23, 29, 31, 37, 41, 43, 47, 53, 59, 61, 67, 71, 73, 79, 83, 89, 97, 101, 103, 107, 109, 113,
   127, 131, 137, 139, 149, 151, 157, 163, 167, 173] ++
  [179, 181, 191, 193, 197, 199, 211, 223, 227, 229, 233, 239, 241, 251, 257, 263, 269, 271, 277, 281, 283, 293, 307, 311,
   313, 317, 331, 337, 347, 349, 353, 359, 367, 373, 379, 383, 389, 397, 401, 409]

/-- The first `n` bits of the fraction of the square root, or the cube root, of a prime (FIPS 180-4). -/
def rootBits (k n p : Nat) : Nat := floorRoot k (p * 2 ^ (k * n)) (n + 5) 0 % 2 ^ n

/-- The parameters of one of the two compression functions: word width, rounds and the rotations of Σ0, Σ1, σ0, σ1. -/
structure Sha (w : Nat) where
  big0 : Nat × Nat × Nat
  big1 : Nat × Nat × Nat
  small0 : Nat × Nat × Nat
  small1 : Nat × Nat × Nat
  keys : List (BitVec w)

/-- SHA-256's. -/
def sha32 : Sha 32 :=
  ⟨(2, 13, 22), (6, 11, 25), (7, 18, 3), (17, 19, 10), (shaPrimes.take 64).map (fun p => BitVec.ofNat 32 (rootBits 3 32 p))⟩
/-- SHA-384's and SHA-512's. -/
def sha64 : Sha 64 :=
  ⟨(28, 34, 39), (14, 18, 41), (1, 8, 7), (19, 61, 6), shaPrimes.map (fun p => BitVec.ofNat 64 (rootBits 3 64 p))⟩

/-- A function Σ: three rotations. -/
def shaBig {w : Nat} (r : Nat × Nat × Nat) (x : BitVec w) : BitVec w :=
  x.rotateRight r.1 ^^^ x.rotateRight r.2.1 ^^^ x.rotateRight r.2.2
/-- A function σ: two rotations and a shift. -/
def shaSmall {w : Nat} (r : Nat × Nat × Nat) (x : BitVec w) : BitVec w :=
  x.rotateRight r.1 ^^^ x.rotateRight r.2.1 ^^^ (x >>> r.2.2)

/-- The message schedule, latest word first: 16 words of the block, then `n` more. -/
def shaSchedule {w : Nat} (h : Sha w) : Nat → List (BitVec w) → List (BitVec w)
  | 0, l => l
  | n + 1, l =>
    shaSchedule h n ((shaSmall h.small1 (l.getD 1 0) + l.getD 6 0 + shaSmall h.small0 (l.getD 14 0) + l.getD 15 0) :: l)

/-- One round on the eight working words a to h. -/
def shaRound {w : Nat} (x : Sha w) (v : List (BitVec w)) (kw : BitVec w × BitVec w) : List (BitVec w) :=
  match v with
  | [a, b, c, d, e, f, g, h] =>
    let t1 := h + shaBig x.big1 e + ((e &&& f) ^^^ (~~~e &&& g)) + kw.1 + kw.2
    let t2 := shaBig x.big0 a + ((a &&& b) ^^^ (a &&& c) ^^^ (b &&& c))
    [t1 + t2, a, b, c, d + t1, e, f, g]
  | _ => v

/-- The hash value after one block. -/
def shaBlock {w : Nat} (x : Sha w) (hv : List (BitVec w)) (block : List (BitVec w)) : List (BitVec w) :=
  let ws := (shaSchedule x (x.keys.length - 16) block.reverse).reverse
  List.zipWith (· + ·) hv ((x.keys.zip ws).foldl (shaRound x) hv)

/-- A list cut into `k` pieces of `n`. -/
def pieces {α : Type} (n : Nat) : Nat → List α → List (List α)
  | 0, _ => []
  | k + 1, l => l.take n :: pieces n k (l.drop n)

/-- The padded message: a 1 bit, zeros, and the length in bits, to a whole number of blocks of `n` bytes. -/
def shaPad (n : Nat) (m : List Byte) : List Byte :=
  let used := m.length + 1 + n / 8
  m ++ [128] ++ List.replicate (ceilDiv used n * n - used) 0 ++ beBytes (n / 8) (8 * m.length)

/-- The hash of a message from its initial value, in bytes. -/
def shaHash {w : Nat} (x : Sha w) (iv : List (BitVec w)) (m : List Byte) : List Byte :=
  let p := shaPad (2 * w) m
  let blocks := pieces (2 * w) (p.length / (2 * w)) p
  let word (b : List Byte) : BitVec w := BitVec.ofNat w (beNat b)
  let hv := blocks.foldl (fun hv b => shaBlock x hv ((pieces (w / 8) 16 b).map word)) iv
  (hv.map (fun v => beBytes (w / 8) v.toNat)).flatten

/-- SHA-256. -/
def sha256 (m : List Byte) : List Byte :=
  shaHash sha32 ((shaPrimes.take 8).map (fun p => BitVec.ofNat 32 (rootBits 2 32 p))) m
/-- SHA-384. -/
def sha384 (m : List Byte) : List Byte :=
  (shaHash sha64 (((shaPrimes.drop 8).take 8).map (fun p => BitVec.ofNat 64 (rootBits 2 64 p))) m).take 48
/-- SHA-512, which Ed25519 uses. -/
def sha512 (m : List Byte) : List Byte :=
  shaHash sha64 ((shaPrimes.take 8).map (fun p => BitVec.ofNat 64 (rootBits 2 64 p))) m

/-- HMAC-SHA-256 of a message under a key. -/
def hmac256 (key m : List Byte) : List Byte :=
  let k := if 64 < key.length then sha256 key else key
  let k := k ++ List.replicate (64 - k.length) 0
  sha256 (k.map (· ^^^ 0x5C) ++ sha256 (k.map (· ^^^ 0x36) ++ m))

/-- The blocks of HKDF-Expand from number `i` on. -/
def hkdfBlocks (prk info : List Byte) : Nat → Nat → List Byte → List Byte
  | 0, _, _ => []
  | n + 1, i, last =>
    let t := hmac256 prk (last ++ info ++ [BitVec.ofNat 8 i])
    t ++ hkdfBlocks prk info n (i + 1) t
/-- HKDF-SHA-256 of RFC 5869: `n` bytes. -/
def hkdf256 (n : Nat) (salt ikm info : List Byte) : List Byte :=
  (hkdfBlocks (hmac256 salt ikm) info (ceilDiv n 32) 1 []).take n

/-! ## AES-256 (FIPS 197) -/

/-- Multiplication by x in GF(2⁸). -/
def aesTwice (b : Byte) : Byte := if b.msb then (b <<< 1) ^^^ 0x1B else b <<< 1
/-- Multiplication in GF(2⁸) by a number of `n` bits. -/
def aesMul : Nat → Nat → Byte → Byte
  | 0, _, _ => 0
  | n + 1, a, b => (if a % 2 = 1 then b else 0) ^^^ aesMul n (a / 2) (aesTwice b)
/-- A power in GF(2⁸). -/
def aesPow (b : Byte) : Nat → Byte
  | 0 => 1
  | n + 1 => aesMul 8 b.toNat (aesPow b n)
/-- The S-box: the inverse b²⁵⁴, then the affine map. -/
def aesSub (b : Byte) : Byte :=
  let i := aesPow b 254
  i ^^^ i.rotateLeft 1 ^^^ i.rotateLeft 2 ^^^ i.rotateLeft 3 ^^^ i.rotateLeft 4 ^^^ 0x63
/-- The S-box as a table. -/
def aesTable : List Byte := (List.range 256).map (fun i => aesSub (BitVec.ofNat 8 i))
/-- The S-box looked up. -/
def aesBox (b : Byte) : Byte := aesTable.getD b.toNat 0
/-- Two byte strings added. -/
def xorBytes (a b : List Byte) : List Byte := List.zipWith (· ^^^ ·) a b

/-- The key schedule, latest word of four bytes first: word number `i`, `n` words to go. -/
def aesExpand : Nat → Nat → List (List Byte) → List (List Byte)
  | 0, _, l => l
  | n + 1, i, l =>
    let last := l.headD []
    let t :=
      if i % 8 = 0 then xorBytes ((last.drop 1 ++ last.take 1).map aesBox) [aesPow 2 (i / 8 - 1), 0, 0, 0]
      else if i % 8 = 4 then last.map aesBox else last
    aesExpand n (i + 1) (xorBytes (l.getD 7 []) t :: l)
/-- The fifteen round keys of a 256-bit key. -/
def aesKeys (key : List Byte) : List (List Byte) :=
  pieces 16 15 ((aesExpand 52 8 (pieces 4 8 key).reverse).reverse.flatten)

/-- ShiftRows on the 16 bytes of the state, column by column. -/
def aesShift (s : List Byte) : List Byte := (List.range 16).map (fun i => s.getD ((i + 4 * (i % 4)) % 16) 0)
/-- MixColumns. -/
def aesMix (s : List Byte) : List Byte :=
  (List.range 16).map (fun i =>
    let at_ (k : Nat) : Byte := s.getD (i / 4 * 4 + (i + k) % 4) 0
    aesTwice (at_ 0) ^^^ aesTwice (at_ 1) ^^^ at_ 1 ^^^ at_ 2 ^^^ at_ 3)
/-- Encryption of one block of 16 bytes under the round keys of `aesKeys`. -/
def aesBlock (keys : List (List Byte)) (block : List Byte) : List Byte :=
  let s := xorBytes block (keys.headD [])
  let s := ((keys.drop 1).take 13).foldl (fun s k => xorBytes (aesMix (aesShift (s.map aesBox))) k) s
  xorBytes (aesShift (s.map aesBox)) (keys.getD 14 [])

/-- A byte string filled with zeros to whole blocks of 16 bytes, in blocks. -/
def blocks16 (l : List Byte) : List (List Byte) :=
  let n := ceilDiv l.length 16
  pieces 16 n (l ++ List.replicate (16 * n - l.length) 0)
/-- Counter mode: the text added to the encrypted counter blocks, which `ctr` numbers. -/
def aesCtr (keys : List (List Byte)) (ctr : Nat → List Byte) (first : Nat) (text : List Byte) : List Byte :=
  xorBytes text ((List.range (ceilDiv text.length 16)).map (fun i => aesBlock keys (ctr (first + i)))).flatten

/-! ## GCM and CCM (NIST SP 800-38D, SP 800-38C) -/

/-- Multiplication in GF(2¹²⁸) as GCM orders its bits: `y` times the bits of `x` from bit `n - 1` down. -/
def gcmMul (x : Nat) : Nat → Nat → Nat
  | 0, _ => 0
  | n + 1, y => (if x.testBit n then y else 0) ^^^
      gcmMul x n (if y % 2 = 1 then (y / 2) ^^^ (0xE1 * 2 ^ 120) else y / 2)
/-- GHASH under the hash key `h`. -/
def ghash (h : Nat) (l : List (List Byte)) : Nat := l.foldl (fun y b => gcmMul (y ^^^ beNat b) 128 h) 0
/-- The counter blocks of GCM for a 12-byte IV. -/
def gcmCtr (iv : List Byte) (i : Nat) : List Byte := iv ++ beBytes 4 i
/-- The tag of GCM over associated data and cipher text. -/
def gcmTag (keys : List (List Byte)) (iv aad cipher : List Byte) : List Byte :=
  let h := beNat (aesBlock keys (List.replicate 16 0))
  let lens := beBytes 8 (8 * aad.length) ++ beBytes 8 (8 * cipher.length)
  xorBytes (beBytes 16 (ghash h (blocks16 aad ++ blocks16 cipher ++ [lens]))) (aesBlock keys (gcmCtr iv 1))

/-- The counter blocks of CCM for a 13-byte nonce. -/
def ccmCtr (nonce : List Byte) (i : Nat) : List Byte := [1] ++ nonce ++ beBytes 2 i
/-- The MIC of `n` bytes of CCM over associated data and plain text. -/
def ccmTag (keys : List (List Byte)) (n : Nat) (nonce aad text : List Byte) : List Byte :=
  let b0 := [BitVec.ofNat 8 (64 * b2n (aad != []) + 8 * ((n - 2) / 2) + 1)] ++ nonce ++ beBytes 2 text.length
  let head := if aad = [] then [] else blocks16 (beBytes 2 aad.length ++ aad)
  let mac := (b0 :: head ++ blocks16 text).foldl (fun y b => aesBlock keys (xorBytes y b)) (List.replicate 16 0)
  xorBytes (mac.take n) (aesBlock keys (ccmCtr nonce 0))

/-- An AEAD with a tag of `n` bytes: GCM, or CCM. -/
structure Aead where
  ccm : Bool
  tagLen : Nat

/-- Encryption under an AES-256 key: the cipher text and the tag. -/
def Aead.seal (m : Aead) (key nonce aad text : List Byte) : List Byte :=
  let k := aesKeys key
  if m.ccm then aesCtr k (ccmCtr nonce) 1 text ++ ccmTag k m.tagLen nonce aad text
  else
    let c := aesCtr k (gcmCtr nonce) 2 text
    c ++ (gcmTag k nonce aad c).take m.tagLen
/-- Decryption of a cipher text with its tag; `none` when the tag is wrong. -/
def Aead.open? (m : Aead) (key nonce aad data : List Byte) : Option (List Byte) :=
  let k := aesKeys key
  let c := data.take (data.length - m.tagLen)
  let tag := data.drop (data.length - m.tagLen)
  let p := if m.ccm then aesCtr k (ccmCtr nonce) 1 c else aesCtr k (gcmCtr nonce) 2 c
  let want := if m.ccm then ccmTag k m.tagLen nonce aad p else (gcmTag k nonce aad c).take m.tagLen
  if tag = want then some p else none

/-- GCM with its 16-byte tag. -/
def aeadGcm : Aead := ⟨false, 16⟩
/-- CCM with a MIC of `n` bytes. -/
def aeadCcm (n : Nat) : Aead := ⟨true, n⟩

/-! ## Modular arithmetic -/

/-- `b ^ e` modulo `p` for an exponent of `n` bits. -/
def powMod (p : Nat) : Nat → Nat → Nat → Nat
  | 0, _, _ => 1
  | n + 1, b, e =>
    let r := powMod p n (b * b % p) (e / 2)
    if e % 2 = 1 then r * b % p else r
/-- The inverse modulo a prime of at most 256 bits. -/
def invMod (p a : Nat) : Nat := powMod p 256 (a % p) (p - 2)
/-- `a - b` modulo `p`. -/
def subMod (p a b : Nat) : Nat := (a + (p - b % p)) % p

/-- `k` times a point by doubling, for a scalar of `n` bits, in a group with addition `add` and neutral element `zero`. -/
def timesPoint {α : Type} (add : α → α → α) (zero : α) : Nat → Nat → α → α
  | 0, _, _ => zero
  | n + 1, k, q =>
    let r := timesPoint add zero n (k / 2) (add q q)
    if k % 2 = 1 then add r q else r

/-! ## P-256: ECDSA and ECDH (R538, R540) -/

/-- The prime, the order, the coefficient b and the base point of P-256. -/
def p256P : Nat := 0xFFFFFFFF00000001000000000000000000000000FFFFFFFFFFFFFFFFFFFFFFFF
def p256N : Nat := 0xFFFFFFFF00000000FFFFFFFFFFFFFFFFBCE6FAADA7179E84F3B9CAC2FC632551
def p256B : Nat := 0x5AC635D8AA3A93E7B3EBBD55769886BC651D06B0CC53B0F63BCE3C3E27D2604B
def p256G : Nat × Nat :=
  (0x6B17D1F2E12C4247F8BCE6E563A440F277037D812DEB33A0F4A13945D898C296,
   0x4FE342E2FE1A7F9B8EE7EB4A7C0F9E162BCE33576B315ECECBB6406837BF51F5)

/-- The sum of two points; `none` is the point at infinity. -/
def p256Add (a b : Option (Nat × Nat)) : Option (Nat × Nat) :=
  match a, b with
  | none, q => q
  | q, none => q
  | some (x, y), some (u, v) =>
    if x = u ∧ (y + v) % p256P = 0 then none
    else
      let l := if x = u then (3 * x * x + (p256P - 3)) * invMod p256P (2 * y) % p256P
        else subMod p256P v y * invMod p256P (subMod p256P u x) % p256P
      let w := subMod p256P (l * l) (x + u)
      some (w, subMod p256P (l * subMod p256P x w) y)
/-- A multiple of a point. -/
def p256Mul (k : Nat) (q : Option (Nat × Nat)) : Option (Nat × Nat) := timesPoint p256Add none 256 k q

/-- A public key X‖Y as a point. -/
def p256Point (pub : List Byte) : Nat × Nat := (beNat (pub.take 32), beNat (pub.drop 32))
/-- Whether a public key is a point of the curve with coordinates below p (R540). -/
def p256Valid (pub : List Byte) : Bool :=
  let q := p256Point pub
  decide (q.1 < p256P) && decide (q.2 < p256P) &&
    q.2 * q.2 % p256P == (q.1 * q.1 * q.1 + (p256P - 3) * q.1 + p256B) % p256P
/-- The bytes X‖Y of a point. -/
def p256Bytes (q : Option (Nat × Nat)) : List Byte :=
  match q with
  | some (x, y) => beBytes 32 x ++ beBytes 32 y
  | none => List.replicate 64 0
/-- The public key of a private scalar. -/
def p256Pub (secret : List Byte) : List Byte := p256Bytes (p256Mul (beNat secret) (some p256G))
/-- The x-coordinate of a point, 0 at infinity. -/
def p256X (q : Option (Nat × Nat)) : Nat := (q.getD (0, 0)).1

/-- ECDSA over a hash of 32 bytes with the scalar `k` drawn for it: r‖s. -/
def p256Sign (secret hash : List Byte) (k : Nat) : List Byte :=
  let r := p256X (p256Mul k (some p256G)) % p256N
  beBytes 32 r ++ beBytes 32 (invMod p256N k * (beNat hash + r * beNat secret) % p256N)
/-- Whether a signature r‖s over a hash of 32 bytes verifies. -/
def p256Verify (pub hash sig : List Byte) : Bool :=
  let r := beNat (sig.take 32)
  let s := beNat (sig.drop 32)
  if r = 0 ∨ p256N ≤ r ∨ s = 0 ∨ p256N ≤ s then false
  else
    let w := invMod p256N s
    let q := p256Add (p256Mul (beNat hash * w % p256N) (some p256G)) (p256Mul (r * w % p256N) (some (p256Point pub)))
    q.isSome && p256X q % p256N == r
/-- The shared secret of ECDH: the x-coordinate. -/
def p256Ecdh (secret pub : List Byte) : List Byte :=
  beBytes 32 (p256X (p256Mul (beNat secret) (some (p256Point pub))))

/-! ## Ed25519 and X25519 -/

/-- The prime, the order L, the coefficient d and a square root of −1. -/
def edP : Nat := 2 ^ 255 - 19
def edL : Nat := 2 ^ 252 + 27742317777372353535851937790883648493
def edD : Nat := subMod edP 0 (121665 * invMod edP 121666)
def edI : Nat := powMod edP 256 2 ((edP - 1) / 4)

/-- The sum of two points of the twisted Edwards curve −x² + y² = 1 + dx²y². -/
def edAdd (a b : Nat × Nat) : Nat × Nat :=
  let t := edD * (a.1 * b.1 % edP) % edP * (a.2 * b.2 % edP) % edP
  ((a.1 * b.2 + b.1 * a.2) * invMod edP (1 + t) % edP, (a.2 * b.2 + a.1 * b.1) * invMod edP (subMod edP 1 t) % edP)
/-- A multiple of a point. -/
def edMul (k : Nat) (q : Nat × Nat) : Nat × Nat := timesPoint edAdd (0, 1) 256 k q

/-- The x-coordinate of a point with the given y and sign, if there is one (RFC 8032, 5.1.3). -/
def edRecover (y sign : Nat) : Option Nat :=
  let u := subMod edP (y * y) 1
  let v := (edD * (y * y) + 1) % edP
  let q := u * invMod edP v % edP
  let x := powMod edP 256 q ((edP + 3) / 8)
  let x := if x * x % edP = q then x else x * edI % edP
  if x * x % edP ≠ q ∨ (x = 0 ∧ sign = 1) then none
  else some (if x % 2 = sign then x else (edP - x) % edP)
/-- The point that 32 bytes encode. -/
def edDecode (b : List Byte) : Option (Nat × Nat) :=
  let y := leNat b % 2 ^ 255
  if edP ≤ y then none else (edRecover y (leNat b / 2 ^ 255)).map (fun x => (x, y))
/-- The encoding of a point. -/
def edEncode (q : Nat × Nat) : List Byte := leBytes 32 (q.2 + q.1 % 2 * 2 ^ 255)
/-- The base point: y = 4/5 and x even. -/
def edBase : Nat × Nat :=
  let y := 4 * invMod edP 5 % edP
  ((edRecover y 0).getD 0, y)

/-- The clamping of a secret scalar that RFC 7748 and RFC 8032 state. -/
def clampScalar (b : List Byte) : Nat := leNat b % 2 ^ 254 / 8 * 8 + 2 ^ 254
/-- The public key of an Ed25519 secret. -/
def edPub (secret : List Byte) : List Byte := edEncode (edMul (clampScalar ((sha512 secret).take 32)) edBase)
/-- The Ed25519 signature of a message. -/
def edSign (secret m : List Byte) : List Byte :=
  let h := sha512 secret
  let a := clampScalar (h.take 32)
  let pub := edEncode (edMul a edBase)
  let r := leNat (sha512 (h.drop 32 ++ m)) % edL
  let rb := edEncode (edMul r edBase)
  rb ++ leBytes 32 ((r + leNat (sha512 (rb ++ pub ++ m)) % edL * a) % edL)
/-- Whether an Ed25519 signature verifies: [8][S]B = [8]R + [8][k]A, S below L. -/
def edVerify (pub m sig : List Byte) : Bool :=
  match edDecode pub, edDecode (sig.take 32) with
  | some a, some r =>
    let s := leNat (sig.drop 32)
    let k := leNat (sha512 (sig.take 32 ++ pub ++ m)) % edL
    decide (s < edL) && edMul 8 (edMul s edBase) == edMul 8 (edAdd r (edMul k a))
  | _, _ => false
/-- Whether a public key decodes and is of no small order (R540). -/
def edValid (pub : List Byte) : Bool :=
  match edDecode pub with
  | some a => edMul 8 a != (0, 1)
  | none => false

/-- The Montgomery ladder of RFC 7748 from bit `n - 1` of `k` down, on (x2, z2) and (x3, z3). -/
def ladder (x1 k : Nat) : Nat → Nat × Nat → Nat × Nat → Nat
  | 0, p2, _ => p2.1 * invMod edP p2.2 % edP
  | n + 1, p2, p3 =>
    let sw := k.testBit n
    let q2 := if sw then p3 else p2
    let q3 := if sw then p2 else p3
    let a := (q2.1 + q2.2) % edP
    let b := subMod edP q2.1 q2.2
    let aa := a * a % edP
    let bb := b * b % edP
    let e := subMod edP aa bb
    let da := subMod edP q3.1 q3.2 * a % edP
    let cb := (q3.1 + q3.2) * b % edP
    let d := subMod edP da cb
    let r2 := (aa * bb % edP, e * (aa + 121665 * e) % edP)
    let r3 := ((da + cb) * (da + cb) % edP, x1 * (d * d) % edP)
    if sw then ladder x1 k n r3 r2 else ladder x1 k n r2 r3
/-- X25519: a u-coordinate at or above p is reduced (R540). -/
def x25519 (secret u : List Byte) : List Byte :=
  let x := leNat u % 2 ^ 255 % edP
  leBytes 32 (ladder x (clampScalar secret) 255 (1, 0) (x, 1))
/-- The public key of an X25519 secret. -/
def xPub (secret : List Byte) : List Byte := x25519 secret (leBytes 32 9)

end Sys2Proof.Machine
end

