-- ==== Sys2Proof/Machine/Sheaf.lean ====
section
/-! DEFINITION. Sheaf contexts (R72, R73, R83, R120): opening, staging, checking, applying and discarding, for
firmware, FCP2 sessions and logical engines; the register commands FE_SHF_CMD and FE_SHF_DATA; commit (R75, R77) and
the loading of register shadows (R80). The check itself and the apply stand in Checks.lean and Apply.lean. -/
namespace Sys2Proof.Machine
open Sys2Proof

/-! ## Codes (R83, R89) -/

def resOk : Nat := 0x00
def resRule : Nat := 0x01
def resPoolFull : Nat := 0x02
def resNotChecked : Nat := 0x03
def resOrder : Nat := 0x04
def resFar : Nat := 0x05
def resNotPermitted : Nat := 0x06
def resNotOwner : Nat := 0x07
def resNoContext : Nat := 0x80

/-- The code of FE_SHF_STATUS.STATE (R83). -/
def ctxCode : CtxSt → Nat
  | .free => 0 | .opened => 1 | .checking => 2 | .checked => 3 | .failed => 4 | .committing => 5 | .pending => 6
  | .applying => 7

/-- The code of FE_SHF_STATUS.OWNER (R83). -/
def ownerCode : Option Owner → Nat
  | none => 0x1F
  | some (.engine l) => l % 16
  | some _ => 0x10

/-- The capacity of the entry pool. -/
def shfPool : Nat := 65536
/-- Entries staged in all contexts. -/
def State.shfUsed (s : State) : Nat := (s.shf.ctx.map (fun e => e.2.entries.length)).foldl (· + ·) 0

/-- A context that leaves the table's states: FREE, its registers and RESULT kept. -/
def Ctx.release (x : Ctx) : Ctx :=
  { x with st := .free, owner := none, session := none, entries := [], images := [], forApply := false,
           loaded := false, dropAfter := false, late := false, hnd := none }

/-- Apply a change to context `c`. -/
def State.modCtx (s : State) (c : Nat) (f : Ctx → Ctx) : State := s.setCtx c (f (s.ctx c))

/-- A refused command or entry: RESULT, REFUSED, and POOL_FULL for a full pool (R72, R83). -/
def State.shfRefuse (s : State) (c res : Nat) : State :=
  let s := s.modCtx c (fun x => { x with result := res })
  let s := if res = resPoolFull then s.raise E.FE_SHF_EVT.POOL_FULL else s
  s.raise E.FE_SHF_EVT.REFUSED

/-- Whether the context is free or belongs to `o`. -/
def Ctx.mine (x : Ctx) (o : Owner) : Bool := x.st = .free || ownerCode x.owner == ownerCode (some o)

/-- Whether a context is one of the states that count towards an owner's one context (R120). -/
def Ctx.owning (x : Ctx) : Bool := x.st = .opened || x.st = .checking || x.st = .checked || x.st = .failed

/-- The context an engine owns in OPEN, CHECKING, CHECKED or FAILED (R120). -/
def State.ctxOfEngine (s : State) (l : Nat) : Option Nat :=
  (List.range 8).find? (fun c => (s.ctx c).owning && (s.ctx c).owner = some (.engine l))
/-- The context opened for an FCP2 session in those states (R171). -/
def State.ctxOfSession (s : State) (n : Nat) : Option Nat :=
  (List.range 8).find? (fun c => (s.ctx c).owning && (s.ctx c).session = some n)
/-- The lowest-numbered FREE context. -/
def State.freeCtx (s : State) : Option Nat := (List.range 8).find? (fun c => (s.ctx c).st = .free)

/-! ## The commands of R72 -/

/-- OPEN: from FREE, or by its owner from FAILED. -/
def State.shfOpen (s : State) (c : Nat) (o : Owner) (session : Option Nat) : State :=
  let x := s.ctx c
  if !x.mine o then s.shfRefuse c resNotOwner
  else match x.st with
    | .free => s.setCtx c { x.release with st := .opened, owner := some o, session := session, result := resOk }
    | .failed => s.setCtx c { x with st := .opened, entries := [], images := [], result := resOk }
    | _ => s.shfRefuse c resNotPermitted

/-- Stage one entry. -/
def State.shfStage (s : State) (c : Nat) (o : Owner) (e : ShfEntry) : State :=
  let x := s.ctx c
  if !x.mine o then s.shfRefuse c resNotOwner
  else match x.st with
    | .opened | .checked =>
      if shfPool ≤ s.shfUsed then s.shfRefuse c resPoolFull
      else s.setCtx c { x with st := .opened, entries := x.entries ++ [e], images := [], result := resOk }
    | _ => s.shfRefuse c resNotPermitted

/-- CHECK: the check starts; CHECK_COMPLETE ends it. -/
def State.shfCheck (s : State) (c : Nat) (o : Owner) : State :=
  let x := s.ctx c
  if !x.mine o then s.shfRefuse c resNotOwner
  else match x.st with
    | .opened => s.setCtx c { x with st := .checking, forApply := false, dropAfter := false }
    | _ => s.shfRefuse c resNotPermitted

/-- 2⁻¹⁶ ns units of 31 days. -/
def farUnits : Nat := 31 * 86400 * nsPerS * 65536

/-- Whether another context is in COMMITTING: the module enters it for one sheaf at a time (R72). -/
def State.committing (s : State) : Bool := (List.range 8).any (fun c => (s.ctx c).st = .committing)

/-- Enter COMMITTING: the next sequence number is assigned (R72). -/
def State.shfCommitStart (s : State) (c : Nat) : State :=
  let n := s.shf.lastSeq + 1
  let s := s.modCtx c (fun x => { x with st := .committing, seq := n, result := resOk, forApply := false })
  { s with shf := { s.shf with lastSeq := n } }

/-- APPLY, timed or not (R72, R73). Outside CHECKED it is refused with NOT_CHECKED. ORDER is tested first, then FAR;
after another sheaf's commit the check is repeated. While another sheaf is in COMMITTING, that sheaf's commit is one
since the check, so the check is repeated too and ends after it (DEDUCED, assumption 12). -/
def State.shfApply (s : State) (c : Nat) (o : Owner) (timed : Bool) (t : Stamp) : State :=
  let x := s.ctx c
  if !x.mine o then s.shfRefuse c resNotOwner
  else if x.st ≠ .checked then s.shfRefuse c resNotChecked
  else if timed && (List.range 8).any (fun d => (s.ctx d).st = .pending && decide (stampUnits t < stampUnits (s.ctx d).when_))
    then s.shfRefuse c resOrder
  else if timed && decide (stampUnits s.now + farUnits < stampUnits t) then s.shfRefuse c resFar
  else
    let s := s.setCtx c { x with timed := timed, when_ := t }
    if s.shf.commits ≠ x.checkedAt || s.committing then
      s.modCtx c (fun x => { x with st := .checking, forApply := true, dropAfter := false })
    else s.shfCommitStart c

/-- DISCARD: from OPEN, CHECKED or FAILED. -/
def State.shfDiscard (s : State) (c : Nat) (o : Owner) : State :=
  let x := s.ctx c
  if !x.mine o then s.shfRefuse c resNotOwner
  else match x.st with
    | .opened | .checked | .failed => s.setCtx c { x.release with result := resOk }
    | _ => s.shfRefuse c resNotPermitted

/-- Discard contexts that `p` selects: at once in OPEN, CHECKED or FAILED, at the end of the check in CHECKING
(R120, R168, R352). -/
def State.shfDrop (s : State) (p : Ctx → Bool) : State :=
  foldS (List.range 8) (fun c s =>
    let x := s.ctx c
    if p x then
      match x.st with
      | .opened | .checked | .failed => s.setCtx c x.release
      | .checking => s.setCtx c { x with dropAfter := true }
      | _ => s
    else s) s

/-! ## Commit (R75, R77) -/

/-- Whether an instant has been reached. -/
def State.reached (s : State) (t : Stamp) : Bool := decide (stampUnits t ≤ stampUnits s.now)

/-- Put a sheaf that commits among those that have not applied, which stand in the order in which they will apply: behind
all of them, but an untimed one ahead of every one that is pending (R72, R73, R81). -/
def commInsert (pend : Committed → Bool) (x : Committed) : List Committed → List Committed
  | [] => [x]
  | y :: r =>
    if pend y && !x.timed then x :: y :: r else y :: commInsert pend x r

/-- Whether a committed sheaf is still to wait for its instant. -/
def State.stillPending (s : State) (x : Committed) : Bool := x.timed && !s.reached x.when_
/-- Whether a committed sheaf is PENDING in its context. -/
def State.seqPending (s : State) (y : Committed) : Bool :=
  (List.range 8).any (fun d => (s.ctx d).st = .pending && (s.ctx d).seq == y.seq)

/-- The bytes of an entry in the journal: space, address, mask and data as four words (R71; the layout is DESIGN CHOICE,
assumption 179). -/
def ShfEntry.bytes (e : ShfEntry) : List Byte :=
  leBytes 4 e.space ++ leBytes 4 e.addr.toNat ++ leBytes 4 e.mask.toNat ++ leBytes 4 e.data.toNat
/-- The journal entry of a sheaf, with the digest over its entries (R75). -/
def journalEntry (seq : Nat) (timed : Bool) (t : Stamp) (es : List ShfEntry) (images : List (Nat × Image)) : Committed :=
  ⟨seq, timed, t, es, images, sha256 (es.flatMap ShfEntry.bytes)⟩
/-- The journal entry of the sheaf in a context. -/
def Ctx.journal (x : Ctx) : Committed := journalEntry x.seq x.timed x.when_ x.entries x.images

/-- The commit flag of context `c` is written: the sheaf is committed, and APPLYING or PENDING (R72, R75). A timed
sheaf whose instant has passed sets APPLIED_LATE (R77). -/
def State.shfCommit (s : State) (c : Nat) : State :=
  let x := s.ctx c
  if x.st ≠ .committing then s
  else
    let passed := s.reached x.when_
    let late := x.timed && passed
    let s := { s with shf := { s.shf with
      commits := s.shf.commits + 1
      waiting := commInsert s.seqPending x.journal s.shf.waiting } }
    let s := s.setCtx c { x with st := if x.timed && !passed then .pending else .applying, late := late, loaded := false }
    if late then s.raise E.FE_SHF_EVT.APPLIED_LATE else s

/-- Whether no committed sheaf applies ahead of context `c`'s. -/
def State.shfNext (s : State) (c : Nat) : Bool := s.shf.waiting.head?.map (·.seq) == some (s.ctx c).seq

/-- The register shadows of the pending sheaf in context `c` are loaded, which happens after every earlier pending
sheaf has applied; when its instant has arrived before, it applies now and sets APPLIED_LATE (R80). Loading that completes
exactly at the instant counts as late (DESIGN CHOICE, assumption 133). -/
def State.shfLoaded (s : State) (c : Nat) : State :=
  let x := s.ctx c
  if x.st = .pending ∧ x.loaded = false ∧ s.shfNext c = true then
    if s.reached x.when_ then
      (s.setCtx c { x with loaded := true, st := .applying, late := true }).raise E.FE_SHF_EVT.APPLIED_LATE
    else s.setCtx c { x with loaded := true }
  else s

/-! ## The register commands -/

/-- The context that FE_SHF_SEL selects. -/
def State.shfSel (s : State) : Nat := s.f R.FE_SHF_SEL.CTX

/-- Whether sheaf commands are refused because a warning or a SHUTDOWN has begun to end the power cycle (R355, R357). -/
def State.shfBarred (s : State) : Bool := s.power.step == 0

/-- FE_SHF_CMD with code `k` on the selected context (R83). Between an activation and its confirmation APPLY is refused
(R558), after a supply warning every command is (R355). -/
def State.shfCmd (s : State) (k : Nat) : State :=
  let c := s.shfSel
  let x := s.ctx c
  if s.shfBarred && decide (1 ≤ k ∧ k ≤ 4) then s.shfRefuse c resNotPermitted
  else match k with
  | 1 => s.shfOpen c .firmware none
  | 2 => s.shfCheck c .firmware
  | 3 => if s.svc.act = 3 then s.shfRefuse c resNotPermitted else s.shfApply c .firmware x.regTimed x.regWhen
  | 4 => s.shfDiscard c .firmware
  | _ => s

/-- A write of FE_SHF_DATA: it stages the entry formed by SPACE, ADDR, MASK and the written value (R83). -/
def State.shfData (s : State) (v : Word) : State :=
  let x := s.ctx s.shfSel
  if s.shfBarred then s.shfRefuse s.shfSel resNotPermitted
  else s.shfStage s.shfSel .firmware ⟨x.space, x.addr, x.mask, v⟩

/-- FE_SHF_CMD = OPEN. -/
def execFeShfOpen (s : State) : Res := .next (s.shfCmd 1)
/-- FE_SHF_DATA written: an entry is staged. -/
def execFeShfDataWrite (data : Word) (s : State) : Res := .next (s.shfData data)
/-- FE_SHF_CMD = CHECK. -/
def execFeShfCheck (s : State) : Res := .next (s.shfCmd 2)
/-- FE_SHF_CMD = APPLY. -/
def execFeShfApply (s : State) : Res := .next (s.shfCmd 3)
/-- FE_SHF_CMD = DISCARD. -/
def execFeShfDiscard (s : State) : Res := .next (s.shfCmd 4)
/-- The register shadows of context `c` are loaded (R80). -/
def execShadowLoadDone (c : Fin 8) (s : State) : Res := .next (s.shfLoaded c)

end Sys2Proof.Machine
end

