-- ==== Sys2Proof/Machine/Engine.lean ====
section
/-! DEFINITION. Field engines: loading from an image (R42, R43, R88, R124), exceptions of program origin (R63, R85),
restart, and the control and debug registers of R66–R69. -/
namespace Sys2Proof.Machine
open Sys2Proof

/-! ## Field accessors -/

def State.engRole (s : State) (i : Nat) : Nat := s.f (R.FE_STATUS.ROLE i)
def State.engState (s : State) (i : Nat) : Nat := s.f (R.FE_STATUS.STATE i)
def State.setEngRole (s : State) (i v : Nat) : State := s.setF (R.FE_STATUS.ROLE i) v
def State.setEngState (s : State) (i v : Nat) : State := s.setF (R.FE_STATUS.STATE i) v
/-- The program counter of physical engine `i`. -/
def State.pc (s : State) (i : Nat) : Nat := s.f (R.FE_PC.PC i)
def State.setPc (s : State) (i v : Nat) : State := s.setF (R.FE_PC.PC i) v
/-- Apply a change to physical engine `i`. -/
def State.modEng (s : State) (i : Nat) (f : Engine → Engine) : State := s.setEng i (f (s.eng i))
/-- Whether FE_CFG.DEBUG is 1. -/
def State.debug (s : State) (i : Nat) : Bool := s.on (R.FE_CFG.DEBUG i)

def imageDefault (_ : Nat) : Option Image := none
/-- The applied image of logical engine `l` (R42). -/
def State.image (s : State) (l : Nat) : Option Image := sget imageDefault s.fe.images l
def State.setImage (s : State) (l : Nat) (x : Option Image) : State :=
  { s with fe := { s.fe with images := sset imageDefault s.fe.images l x } }

/-! ## Local store (R44) -/

def zeroDW (_ : Nat) : DWord := 0
def falseP (_ : Nat) : Bool := false
def zeroE (_ : Nat) : BitVec 25 := 0
def zeroT (_ : Nat) : TReg := TReg.zero

/-- The bytes of local store that an image loads: code from word 0, data from DATA_AT, 0 elsewhere (R124). -/
def imageBytes (x : Image) : Store Byte :=
  let put (at_ : Nat) (ws : List Word) (m : Store Byte) : Store Byte :=
    ((ws.zipIdx at_).foldl (fun m e => (List.range 4).foldl
      (fun m k => sset zeroByte m (4 * e.2 + k) (wordByte e.1 k)) m) m)
  put x.dataAt (x.body.drop x.codeWords) (put 0 (x.body.take x.codeWords) [])

/-- A byte of local store; addresses use bits [17:0] (R101). -/
def Engine.lsByte (e : Engine) (a : Nat) : Byte := sget zeroByte e.ls (a % 0x40000)
/-- A word of local store. -/
def Engine.lsWord (e : Engine) (a : Nat) : Word :=
  bytesWord (e.lsByte a) (e.lsByte (a + 1)) (e.lsByte (a + 2)) (e.lsByte (a + 3))
/-- Store bytes in local store. -/
def Engine.lsPut (e : Engine) (a : Nat) (l : List Byte) : Engine :=
  { e with ls := (l.zipIdx 0).foldl (fun m b => sset zeroByte m ((a + b.2) % 0x40000) b.1) e.ls }

/-! ## Start and restart (R43, R88) -/

/-- The engine after a load: local store from the image; w, p, e, t, s9, s10, s12 and s13 cleared, w30 set (R43, R88, R89).
R88 does not name s5–s8 and s14, which keep the values of this physical engine (DESIGN CHOICE, assumption 132). -/
def Engine.loaded (e : Engine) (x : Image) : Engine :=
  { e with ls := imageBytes x, w := [(30, 0x40000)], p := [], e := [], t := [], tokens := 0, insns := 0,
           s12 := 0, s13 := 0, codeWords := x.codeWords, blocked := none, passBrk := false, stepping := false }

/-- Load logical engine `l` on physical engine `p` and enter STATE `st` at the image's entry point (R43). A logical
engine without an image has nothing to load: its engine stays in RESET (DEDUCED, assumption 13). -/
def State.engLoad (s : State) (p l st : Nat) : State :=
  match s.image l with
  | none => (s.modEng p (fun _ => Engine.off)).setEngState p stReset
  | some x => ((s.modEng p (fun e => e.loaded x)).setPc p x.entry).setEngState p st

/-- What a restart of a logical engine takes with it: its held handles are abandoned (R118) and its contexts in OPEN,
CHECKED or FAILED discarded (R120). One in CHECKING goes on with its check. -/
def State.engDropAll (s : State) (l : Nat) : State :=
  (s.abandon l).shfDrop (fun x => x.owner = some (.engine l) && x.st != .checking)

/-- Restart logical engine `l` on physical engine `p` by R43 in STATE `st`. RESTARTED is set when a program had run
there since the last reset of the engine (DEDUCED, assumption 13). -/
def State.engRestart (s : State) (p l st : Nat) : State :=
  let was := s.engState p != stReset
  let s := (s.engDropAll l).engLoad p l st
  if was then s.raise (E.FE_EVT.RESTARTED p) else s

/-! ## Exceptions of program origin (R62, R63, R85) -/

def xIllegal : Nat := 0x01
def xLsRange : Nat := 0x02
def xFmemRange : Nat := 0x03
def xStaleCursor : Nat := 0x04
def xFieldRo : Nat := 0x05
def xTrap : Nat := 0x06
def xPcRange : Nat := 0x07
def xEpInvalid : Nat := 0x08
def xGroupRange : Nat := 0x09
def xEpRange : Nat := 0x0A
def xEmitDesc : Nat := 0x0B
def xTimeRange : Nat := 0x0C
def xArgRange : Nat := 0x0D
def xLsEcc : Nat := 0x40
def xFmemEcc : Nat := 0x41
def xHsTimeout : Nat := 0x42
def xRegParity : Nat := 0x43

/-- Record an exception in FE_EXC and FE_EXC_ADDR, and as an FE_EXCEPTION event (R63, R64, R495). -/
def State.excRecord (s : State) (p code : Nat) (addr : Word) : State :=
  let s := ((s.setF (R.FE_EXC.CODE p) code).setF (R.FE_EXC.PC p) (s.pc p)).setR (R.FE_EXC_ADDR.reg p) addr
  s.record 0x0601 2 p [w32 (s.logicalOf p), w32 code, w32 (s.pc p), addr]

/-- An exception of program origin on physical engine `p` (R63, R85): one token; HALTED with EXC_ACT = 1, else
EXCEPTION until ENGINE_RESTART. The instruction changes nothing else. -/
def State.progExc (s : State) (p code : Nat) (addr : Word) : State :=
  let s := (s.excRecord p code addr).raise (E.FE_EVT.PROG_EXC p)
  let s := s.modEng p (fun e => { e with tokens := e.tokens + 1, blocked := none, passBrk := false, stepping := false })
  s.setEngState p (if s.on (R.FE_CFG.EXC_ACT p) then stHalted else stException)

/-- Whether the field engines run: in ACTIVE and in SOLO. A claiming module starts them with its step 6, a standby's are cold, and
a fenced module's have halted (R330, R333, R334). -/
def State.enginesRun (s : State) : Bool := s.role == rolePairActive || s.role == roleSolo

/-- 1 ms after an exception of program origin with EXC_ACT = 0 the engine restarts, with a RESTART event at the head of
its list (R63); an engine that fencing has halted, or that is cold, is not restarted (R333). -/
def State.engineRestart (s : State) (p : Nat) : State :=
  if s.engState p = stException ∧ s.engRole p = roleActive ∧ s.enginesRun = true then
    let l := s.logicalOf p
    let code := s.f (R.FE_EXC.CODE p)
    let pc := s.f (R.FE_EXC.PC p)
    (s.engRestart p l stRun).restartEvent l code pc
  else s

/-- ENGINE_RESTART of physical engine `p`. -/
def execEngineRestart (p : Fin 18) (s : State) : Res := .next (s.engineRestart p)

/-! ## FE_CMD (R66, R68, R69) -/

/-- RUN: start or resume at FE_PC, from HALTED or RESET. An engine in EXCEPTION stays stopped until its restart. It passes a
breakpoint at that PC once (DEDUCED, assumption 14). -/
def State.feRun (s : State) (p : Nat) : State :=
  if s.engRole p = roleActive ∧ (s.engState p = stHalted ∨ s.engState p = stReset) then
    (s.modEng p (fun e => { e with passBrk := true, stepping := false })).setEngState p stRun
  else s

/-- HALT: stop at the next instruction boundary. It ends a WAIT without taking an event (R69); an engine in CHK halts
when CHK ends (R120). -/
def State.feHalt (s : State) (p : Nat) : State :=
  if s.engRole p = roleActive then
    if s.engState p = stWait then (s.modEng p (fun e => { e with blocked := none, stepping := false })).setEngState p stHalted
    else if s.engState p = stRun then
      if (s.eng p).blocked.isSome then s.modEng p (fun e => { e with stepping := true })
      else s.setEngState p stHalted
    else s
  else s

/-- RESET: reload from the image and halt at the entry point (R68). -/
def State.feReset (s : State) (p : Nat) : State :=
  if s.engRole p = roleActive then s.engRestart p (s.logicalOf p) stHalted else s

/-- A direct write of FE_PC: only while HALTED with DEBUG = 1 (R66, R68). -/
def State.fePcWrite (s : State) (p : Nat) (v : Word) : State :=
  if s.engState p = stHalted ∧ s.debug p = true then s.setPc p (getBits v 0 16) else s

/-- A direct write of FE_CFG: DEBUG can become 1 only in the life-cycle state SERVICE (R66). -/
def lcService : Nat := 3
def State.feCfgWrite (s : State) (p : Nat) (v : Word) : State :=
  let s := s.setF (R.FE_CFG.EXC_ACT p) (getBits v 1 1)
  if bit v 0 then (if s.lcState = lcService then s.setF (R.FE_CFG.DEBUG p) 1 else s) else s.setF (R.FE_CFG.DEBUG p) 0

/-! ## Debug access to the register files (R68, R89) -/

/-- The value of s register `n` of physical engine `p` (R89), but for s11. -/
def State.sReg (s : State) (p n : Nat) : DWord :=
  let e := s.eng p
  match n with
  | 0 => BitVec.ofNat 64 (p * 256 + s.logicalOf p % 16)
  | 1 => BitVec.ofNat 64 s.stepEpoch
  | 2 => BitVec.ofNat 64 s.epoch
  | 3 => BitVec.ofNat 64 (s.r R.TIME_UTCOFF.reg).toNat
  | 4 => BitVec.ofNat 64 (s.r R.FE_SHF_SEQ.reg).toNat
  | 5 => e.s5
  | 6 => e.s6
  | 7 => e.s7
  | 8 => e.s8
  | 9 => e.tokens
  | 10 => e.insns
  | 12 => e.s12
  | 13 => e.s13
  | 14 => e.s14
  | 15 => BitVec.ofNat 64 (s.f R.DIO_IN.IN)
  | _ => 0

/-- The 64-bit value that FE_DBG_SEL selects (R68, R89). -/
def State.dbgValue (s : State) (p : Nat) : Nat :=
  let e := s.eng p
  let i := s.f (R.FE_DBG_SEL.INDEX p)
  match s.f (R.FE_DBG_SEL.FILE p) with
  | 0 => (sget zeroDW e.w i).toNat
  | 1 => if i = 0 then 1 else b2n (sget falseP e.p i)
  | 2 => (sget zeroE e.e i).toNat
  | 3 =>
    let t := sget zeroT e.t i
    if s.f (R.FE_DBG_SEL.PART p) = 0 then t.val.toNat % 2 ^ 64
    else t.val.toNat / 2 ^ 64 + t.tag.toNat * 2 ^ 32
  | 4 => (s.sReg p i).toNat
  | _ => 0

/-- Numbers of registers in each file of FE_DBG_SEL.FILE. -/
def dbgCount : Nat → Nat
  | 0 => 32 | 1 => 8 | 2 => 4 | 3 => 4 | 4 => 16 | _ => 0

/-- Set s register `n`; s0–s4, s11 and s15 show state that is not the engine's and take no write (DEDUCED,
assumption 15). -/
def Engine.setS (e : Engine) (n : Nat) (v : DWord) : Engine :=
  match n with
  | 5 => { e with s5 := v } | 6 => { e with s6 := v } | 7 => { e with s7 := v } | 8 => { e with s8 := v }
  | 9 => { e with tokens := v } | 10 => { e with insns := v } | 12 => { e with s12 := v } | 13 => { e with s13 := v }
  | 14 => { e with s14 := v } | _ => e

/-- A write of the 64-bit value FE_DBG_DATA: to the selected register, while HALTED with DEBUG = 1; w0 and p0 are
ignored (R66, R68). -/
def State.dbgWrite (s : State) (p : Nat) (v : Nat) : State :=
  let i := s.f (R.FE_DBG_SEL.INDEX p)
  if s.engState p = stHalted ∧ s.debug p = true ∧ i < dbgCount (s.f (R.FE_DBG_SEL.FILE p)) then
    match s.f (R.FE_DBG_SEL.FILE p) with
    | 0 => if i = 0 then s else s.modEng p (fun e => { e with w := sset zeroDW e.w i (BitVec.ofNat 64 v) })
    | 1 => if i = 0 then s else s.modEng p (fun e => { e with p := sset falseP e.p i (v % 2 == 1) })
    | 2 => s.modEng p (fun e => { e with e := sset zeroE e.e i (BitVec.ofNat 25 v) })
    | 3 =>
      s.modEng p (fun e =>
        let t := sget zeroT e.t i
        let t' : TReg :=
          if s.f (R.FE_DBG_SEL.PART p) = 0 then ⟨BitVec.ofNat 96 (t.val.toNat / 2 ^ 64 * 2 ^ 64 + v % 2 ^ 64), t.tag⟩
          else ⟨BitVec.ofNat 96 (v % 2 ^ 32 * 2 ^ 64 + t.val.toNat % 2 ^ 64), BitVec.ofNat 8 (v / 2 ^ 32)⟩
        { e with t := sset zeroT e.t i t' })
    | _ => s.modEng p (fun e => e.setS i (BitVec.ofNat 64 v))
  else s

/-- FE_LS_ADDR.WORD + 1, wrapping from 0xFFFF to 0 (R68). -/
def State.lsBump (s : State) (p : Nat) : State :=
  s.setF (R.FE_LS_ADDR.WORD p) ((s.f (R.FE_LS_ADDR.WORD p) + 1) % 65536)

/-- A read of FE_LS_DATA: the word at WORD while HALTED, else 0; WORD then increments (R68). -/
def State.lsRead (s : State) (p : Nat) : Word × State :=
  let w := if s.engState p = stHalted then (s.eng p).lsWord (4 * s.f (R.FE_LS_ADDR.WORD p)) else 0
  (w, s.lsBump p)

/-- A write of FE_LS_DATA: it changes the running local store only, and takes effect only while DEBUG = 1 (R66, R67).
An accepted write increments WORD. -/
def State.lsWrite (s : State) (p : Nat) (v : Word) : State :=
  if s.debug p then
    (s.modEng p (fun e => e.lsPut (4 * s.f (R.FE_LS_ADDR.WORD p)) (leBytes 4 v.toNat))).lsBump p
  else s

/-- FE_CMD = RUN. -/
def execFeCmdRun (p : Fin 18) (s : State) : Res := .next (s.feRun p)
/-- FE_CMD = HALT. -/
def execFeCmdHalt (p : Fin 18) (s : State) : Res := .next (s.feHalt p)
/-- FE_CMD = RESET. -/
def execFeCmdReset (p : Fin 18) (s : State) : Res := .next (s.feReset p)
/-- A write of 1 to FE_CFG.DEBUG. -/
def execDebugEnable (p : Fin 18) (s : State) : Res :=
  .next (s.feCfgWrite p (setBits (s.r (R.FE_CFG.reg p)) 0 1 1))
/-- A write of FE_PC. -/
def execFePcWrite (p : Fin 18) (v : Word) (s : State) : Res := .next (s.fePcWrite p v)
/-- A write of FE_DBG_DATA as a pair, low word, then high word, which releases a low word held before (R17). -/
def execFeDbgDataWrite (p : Fin 18) (v : DWord) (s : State) : Res :=
  .next ((s.setHeld (regAddr (R.FE_DBG_DATA_LO.reg p)) none).dbgWrite p v.toNat)
/-- A read of FE_LS_DATA. -/
def execFeLsDataRead (p : Fin 18) (s : State) : Res := .next ((s.lsRead p).2.answer (s.lsRead p).1)
/-- A write of FE_LS_DATA. -/
def execFeLsDataWrite (p : Fin 18) (v : Word) (s : State) : Res := .next (s.lsWrite p v)

end Sys2Proof.Machine
end

