-- ==== Sys2Proof/Machine/Launch.lean ====
section
/-! DEFINITION. The launch calendar (R304–R310): descriptors and permitted codes (R114, R115), placement (R117, R128–R131),
and the states of a copy up to its launch (R305, R569, R570). What a launch does at its egress stands with the egress. -/
namespace Sys2Proof.Machine
open Sys2Proof

/-! ## Descriptors (R114, R115) -/

/-- A descriptor of R114. `reserved` is true when a reserved bit is 1. -/
structure Desc where
  code : Nat
  repeats : Nat
  immediate : Bool
  noReply : Bool
  hold : Bool
  level : Nat
  ramp : Nat
  arg : Word
  plen : Nat
  poff : Nat
  reserved : Bool
  deriving DecidableEq, Repr

/-- The descriptor in four words. -/
def descOf (a b c d : Word) : Desc :=
  { code := getBits a 0 8, repeats := getBits a 30 2, immediate := bit a 26, noReply := bit a 25, hold := bit a 24,
    level := getBits b 0 10, ramp := getBits b 16 16, arg := c, plen := getBits d 16 16, poff := getBits d 0 15,
    reserved := getBits a 27 3 != 0 || getBits a 8 16 != 0 || getBits b 10 6 != 0 || bit d 15 }

def ccSetLevel : Nat := 0x01
def ccSetColour : Nat := 0x02
def ccPoll : Nat := 0x03
def ccSetFallback : Nat := 0x04
def ccFwBlock : Nat := 0x05
def ccFwActivate : Nat := 0x06
def ccConfig : Nat := 0x07
def ccRetire : Nat := 0x08
def ccHoldReports : Nat := 0x09

/-- Whether a code is permitted for an endpoint of a path and a type (R115). -/
def codePermitted (code path type : Nat) : Bool :=
  match code with
  | 0x01 => true
  | 0x02 => type == 4
  | 0x03 => true
  | 0x04 => path ≤ 2
  | 0x05 => path ≤ 1
  | 0x06 => path ≤ 2
  | 0x07 => path ≤ 2
  | c => 0x80 ≤ c && path ≤ 2

/-- The payload limit of a path in bytes (R114). -/
def payloadLimit : Nat → Nat
  | 0 => 1024 | 1 => 160 | 2 => 32 | _ => 0

/-- Whether EMIT raises EMIT_DESC for a descriptor (R114). -/
def descBad (d : Desc) (path type : Nat) : Bool :=
  d.reserved || (d.hold && d.noReply) || (d.plen != 0 && decide (524288 < d.poff * 16 + d.plen)) ||
    decide (payloadLimit path < d.plen) || !codePermitted d.code path type

/-! ## Egresses (R48, R304, R307) -/

/-- Whether ring `k` is enabled. -/
def State.ringOn (s : State) (k : Nat) : Bool := s.on (R.RING_CFG.EN k)
def State.ringA (s : State) (k : Nat) : Nat := s.f (R.RING_CFG.PORT_A k)
def State.ringB (s : State) (k : Nat) : Nat := s.f (R.RING_CFG.PORT_B k)

/-- A launch instant with the node delay of a ring copy taken off, when COMP_EN is 1 (R304). -/
def State.compensated (s : State) (t : Stamp) (dlyNs : Nat) : Stamp :=
  if s.on R.TIME_CAL_CFG.COMP_EN then stampAddNs t (-(dlyNs : Int)) else t

/-- The copies of an entry for a path and an address, all WAITING (R304, R305, R570). -/
def State.copiesFor (s : State) (path : Nat) (addr : Word) (t : Stamp) : List Copy :=
  match path with
  | 0 =>
    let k := getBits addr 16 7
    let j := getBits addr 8 4
    if s.ringOn k then
      [⟨.port (s.ringA k), s.compensated t (s.f (R.TIME_NODE_DLY_A.DLY k j)), .waiting, false⟩,
       ⟨.port (s.ringB k), s.compensated t (s.f (R.TIME_NODE_DLY_B.DLY k j)), .waiting, false⟩]
    else [⟨.noEgress, t, .waiting, false⟩]
  | 1 => [⟨.radio (getBits addr 16 2), t, .waiting, false⟩]
  | 2 => [⟨.can (getBits addr 16 3), t, .waiting, false⟩]
  | _ =>
    if bit addr 31 then [⟨.stage (getBits addr 0 2), t, .waiting, false⟩]
    else [⟨.chain (getBits addr 16 2), t, .waiting, false⟩]

/-! ## Placement (R117, R165, R172) -/

/-- The capacity of the calendar. -/
def calCap : Nat := 131072

/-- Why a placement is refused. -/
inductive Refused where
  | fenced | far | calFull | quota | noHandle
  deriving DecidableEq, Repr

/-- Whether an instant lies more than 300 ms after the time base (R117). -/
def State.tooFar (s : State) (t : Stamp) : Bool := decide (stampUnits s.now + 300000000 * 65536 < stampUnits t)

/-- The module's lighting control is self-fenced (R333). -/
def State.fenced (s : State) : Bool := s.role == roleFenced

/-- The refusals that come before the allocation, in the order of R117. -/
def State.placeTest (s : State) (immediate : Bool) (t : Stamp) : Option Refused :=
  if s.fenced then some .fenced
  else if !immediate && s.tooFar t then some .far
  else if calCap ≤ s.calUsed then some .calFull
  else none

/-- Keep TIME_CAL_PEAK at the highest USED (R312). -/
def State.calPeak (s : State) : State :=
  if s.f R.TIME_CAL_PEAK.PEAK < s.calUsed then s.setF R.TIME_CAL_PEAK.PEAK s.calUsed else s

/-- Place a command for endpoint `i` in slot `slot` of owner `o`: the handle, the calendar entry with the body of R116
and its payload, and the record's HANDLE, and TGT for SET_LEVEL (R117, R128, R130). -/
def State.placeCmd (s : State) (o : Owner) (slot i level : Nat) (d : Desc) (payload : List Byte) (t : Stamp) : State :=
  let path := s.ep i EP.PATH
  let addr := w32 (s.ep i EP.ADDR)
  let gen := s.ep i EP.GEN
  let eui := s.epEui i
  let s := s.allocSlot slot { Handle.fresh with
    owner := o, ep := i, epGen := gen, eui := eui, path := path, addr := addr, isField := true, hold := d.hold,
    noReplyCmd := d.noReply }
  let h := s.handleAt slot
  let instant := if d.immediate then s.now else t
  let body : CmdBody := ⟨d.code, d.noReply, s.epoch, h, eui, level, d.ramp, d.arg, gen, payload⟩
  let e : CalEntry := ⟨body, i, path, addr, d.immediate, instant, d.repeats, s.copiesFor path addr instant, false,
    s.cal.placed, none⟩
  let s := match firstFree s.cal.tab calCap 0 with
    | some n => s.setCal n (some e)
    | none => s
  let s := ({ s with cal := { s.cal with placed := s.cal.placed + 1 } }).calPeak
  let s := s.setEp i EP.HANDLE h.toNat
  if d.code = ccSetLevel then s.setEp i EP.TGT level else s

/-- Place a command or refuse it (R117, R165): the slot, or the refusal with its flags set. -/
def State.place (s : State) (o : Owner) (i level : Nat) (d : Desc) (payload : List Byte) (t : Stamp) :
    Refused ⊕ Nat × State :=
  match s.placeTest d.immediate t with
  | some r => .inl r
  | none =>
    match s.allocTest o with
    | .slot n => .inr (n, s.placeCmd o n i level d payload t)
    | .quota => .inl .quota
    | .noHandle => .inl .noHandle

/-- The HND_EVT flags of a refused placement (R165). -/
def State.placeFlags (s : State) : Refused → State
  | .quota => s.allocFail .quota
  | .noHandle => s.allocFail .noHandle
  | _ => s

/-! ## Copies (R305) -/

/-- The copies of calendar entry `n`. -/
def State.copyOf (s : State) (n k : Nat) : Option Copy :=
  match s.calE n with
  | some e => e.copies[k]?
  | none => none

/-- Replace copy `k` of an entry. -/
def CalEntry.setCopy (e : CalEntry) (k : Nat) (c : Copy) : CalEntry := { e with copies := e.copies.set k c }

/-- Whether a copy holds a place in its egress's store. -/
def Copy.stored (c : Copy) : Bool := c.st = .fetched || c.st = .armed || c.st = .unarmed

/-- Copies that hold a place in the store of an egress. -/
def State.storeUsed (s : State) (g : Egress) : Nat :=
  (s.cal.tab.map (fun e => match e.2 with
    | some x => (x.copies.filter (fun c => c.stored && c.egress = g)).length
    | none => 0)).foldl (· + ·) 0

def canDefault (_ : Nat) : Can := Can.off
/-- CAN channel `c`. -/
def State.canAt (s : State) (c : Nat) : Can := sget canDefault s.can.ch c
/-- The field frames that wait in channel `c` (R448). -/
def State.canField (s : State) (c : Nat) : List CanTx := (s.canAt c).pend.filter (fun x => x.buf.isNone)

/-- Whether the field queue of a channel takes a frame (R448). -/
def State.canRoom (s : State) (c : Nat) : Bool := decide ((s.canField c).length < 64)

/-- Whether an egress has room for one more copy: 64 places at a port (R305), 64 field frames at a CAN channel (R448), 64
items in a chain's feeder queue (R469). -/
def State.storeRoom (s : State) (g : Egress) : Bool :=
  match g with
  | .port _ => decide (s.storeUsed g < 64)
  | .can c => s.canRoom c
  | .chain n => decide (s.quLevel (.feed n) < 64)
  | _ => true

/-- The earliest launch instant of an entry in 2⁻¹⁶ ns. -/
def CalEntry.earliest (e : CalEntry) : Nat :=
  e.copies.foldl (fun m c => if stampUnits c.launch < m then stampUnits c.launch else m) (2 ^ 96)

/-- Whether an entry has reached its fetch point (R305). -/
def State.fetchDue (s : State) (e : CalEntry) : Bool :=
  e.immediate || decide (e.earliest ≤ stampUnits s.now + s.f R.TIME_CAL_CFG.FETCH_LEAD * 1000 * 65536)

/-- Fetch entry `n`: every WAITING copy with an egress is released to it, when each has a place (R305). -/
def State.calFetch (s : State) (n : Nat) : State :=
  match s.calE n with
  | none => s
  | some e =>
    if s.fetchDue e && e.copies.all (fun c => c.st ≠ .waiting || s.storeRoom c.egress) then
      s.setCal n (some { e with copies := e.copies.map (fun c =>
        if c.st = .waiting ∧ c.egress ≠ .noEgress then { c with st := .fetched } else c) })
    else s

/-- Whether `t` lies before the headland of a copy, 20 µs ahead of its launch instant. -/
def beforeHeadland (t : Stamp) (c : Copy) : Bool := decide (stampUnits t + 20000 * 65536 < stampUnits c.launch)

/-- A FETCHED copy reaches its egress: ARMED before its headland, else UNARMED; an IMMEDIATE copy never arms (R305). -/
def State.copyArrive (s : State) (n k : Nat) : State :=
  match s.calE n, s.copyOf n k with
  | some e, some c =>
    if c.st = .fetched then
      s.setCal n (some (e.setCopy k { c with st := if !e.immediate && beforeHeadland s.now c then .armed else .unarmed }))
    else s
  | _, _ => s

/-- The precision of an egress in ns (R307). PMD 3 is 25GBASE-LR (R259). -/
def State.precision (s : State) (g : Egress) : Nat :=
  match g with
  | .port n => if s.f (R.PORT_CFG.PMD n) = 3 then 20 else 8
  | .radio _ => 1000
  | .can _ => 1000
  | _ => 40

/-- Whether a port is UP (PORT_STATUS.STATE, R261). -/
def psUp : Nat := 2
def State.portUp (s : State) (n : Nat) : Bool := s.f (R.PORT_STATUS.STATE n) == psUp

/-- Whether the egress of a copy takes it: a port must be UP; a copy without an egress has none (R305, R570). -/
def State.egressUp (s : State) (g : Egress) : Bool :=
  match g with
  | .port n => s.portUp n
  | .noEgress => false
  | _ => true

def radDefault (_ : Nat) : Rad := Rad.off
/-- Whether a transceiver already holds the frame of calendar entry `n`. -/
def Rad.holds (r : Rad) (n : Nat) : Bool :=
  let h := fun (x : RadTx) => x.cal == some n
  r.cur.any h || r.gapped.any h || r.queue.any h || r.urgent.any h || r.asleep.any (fun e => h e.2)
/-- Whether the transceiver of an egress holds the frame of entry `n`: then the calendar has released it (R435). -/
def State.released (s : State) (g : Egress) (n : Nat) : Bool :=
  match g with
  | .radio j => (sget radDefault s.rad j).holds n
  | _ => false

/-- Whether another copy of the same egress and the same state goes first: an earlier launch instant, then placement
order (R306). One that a transceiver holds has gone (R435). -/
def State.copyBehind (s : State) (e : CalEntry) (c : Copy) : Bool :=
  s.cal.tab.any (fun x => match x.2 with
    | some y => !s.released c.egress x.1 && y.copies.any (fun d => d.egress = c.egress && d.st = c.st &&
        (decide (stampUnits d.launch < stampUnits c.launch) || (stampUnits d.launch == stampUnits c.launch && decide (y.order < e.order))))
    | none => false)

/-- The configured rate of a node in Gbit/s: 25 for 25GBASE-LR (R259). The control port's attachment has none. -/
def State.rateOf (s : State) (n : Nat) : Nat := if n < 256 && s.f (R.PORT_CFG.PMD n) == 3 then 25 else 100
/-- How long a frame occupies port `n`, with its preamble of 8 bytes, in 2⁻¹⁶ ns. -/
def State.wireTime (s : State) (n len : Nat) : Nat := ceilDiv ((len + 8) * 8 * 65536) (s.rateOf n)
/-- Whether port `n` may start a frame now: it would finish before the launch instant of every ARMED copy there (R306). -/
def State.mayStart (s : State) (n len : Nat) : Bool :=
  s.cal.tab.all (fun x => match x.2 with
    | some y => y.copies.all (fun d => d.egress ≠ .port n || d.st ≠ .armed ||
        decide (stampUnits s.now + s.wireTime n len < stampUnits d.launch))
    | none => true)
/-- The bytes of a field frame with its FCS: header, HSR tag, EtherType, body, payload, and the VLAN tag, at least 64
(R567). -/
def fieldLen (vlan plen : Nat) : Nat := max 64 (56 + (if vlan = 0 then 0 else 4) + plen)
/-- Whether an UNARMED copy finds a frame boundary at which it may start (R306). -/
def State.copyFits (s : State) (e : CalEntry) (c : Copy) : Bool :=
  match c.egress with
  | .port n => s.mayStart n (fieldLen (s.f R.FAB_FIELD_VLAN.VID) e.body.payload.length)
  | _ => true
/-- Whether the queue that a launch puts a copy in takes it (R448). -/
def State.copyTaken (s : State) (c : Copy) : Bool :=
  match c.egress with
  | .can k => s.canRoom k
  | _ => true

/-- Whether a copy may leave now (R305, R306, R310, R570). -/
def State.copyDue (s : State) (e : CalEntry) (c : Copy) : Bool :=
  match c.st with
  | .armed => s.reached c.launch && !s.copyBehind e c && s.copyTaken c
  | .unarmed => (e.immediate || s.reached c.launch) && !s.copyBehind e c && s.copyFits e c && s.copyTaken c
  | .waiting => c.egress = .noEgress && s.reached c.launch
  | _ => false

/-- The EUI-64 of a body for every endpoint. -/
def euiAll : Eui := 0xFFFFFFFFFFFFFFFF

/-- Whether the target record is valid with the GEN of the command's body (R569). A broadcast has none. -/
def State.sameTarget (s : State) (e : CalEntry) : Bool :=
  e.body.eui ≠ euiAll && s.epValid e.ep && s.ep e.ep EP.GEN == e.body.gen

def dimsDefault (_ : Nat) : Nat := 0
/-- The code in force at endpoint `i` now (R127): by its latest launch, when that is the one that CUR shows. -/
def State.codeNow (s : State) (i : Nat) : Nat :=
  match s.mtr.runs.find? (fun x => x.1 == i) with
  | some x => if x.2.b = s.ep i EP.CUR then x.2.code (stampUnits s.now) else s.ep i EP.CUR
  | none => s.ep i EP.CUR
/-- A SET_LEVEL launches (R127, R417); one that changes the code in force by at least 16 codes is a dim change (R418). -/
def State.dimChange (s : State) (i level ms : Nat) : State :=
  let c := s.codeNow i
  let n := if 16 ≤ ((level : Int) - c).natAbs then 1 else 0
  { s with mtr := { s.mtr with
      runs := (i, ⟨c, level, ms, s.now⟩) :: s.mtr.runs
      dims := sset dimsDefault s.mtr.dims i (sget dimsDefault s.mtr.dims i + n) } }

/-- The first copy of an entry leaves (R569): record updates, LATE (R309), and the handle's next state (R162). -/
def State.launchFirst (s : State) (e : CalEntry) (c : Copy) : State :=
  let late := !e.immediate && decide (stampUnits c.launch + s.precision c.egress * 65536 < stampUnits s.now)
  let s :=
    if s.sameTarget e then
      let s := (s.setEpStamp e.ep EP.LAST_CMD s.now).setEp e.ep EP.CMD_STEP s.stepEpoch
      if e.body.code = ccSetLevel then (s.dimChange e.ep e.body.level e.body.ramp).setEp e.ep EP.CUR e.body.level else s
    else s
  let s := if late then (s.raise E.TIME_EVT.LATE).count R.TIME_CAL_LATE.LATE else s
  let i := slotOf e.body.handle
  let h := s.hslot i
  if s.handleOpen e.body.handle && h.st = .placed then
    let s := s.setHslot i { h with late := late }
    if e.path = 3 ∨ e.body.noReply = true then s.complete i fsOk 0 else s.setHslot i { h with late := late, st := .awaiting }
  else s

/-- Put copy `k` of entry `n` in LEFT, and free the entry when every copy is there (R305). When every copy was discarded
without leaving, the command completes with NOT_SENT (R570). -/
def State.copyLeft (s : State) (n k : Nat) (e : CalEntry) (c : Copy) (gone : Bool) : State :=
  let e := { (e.setCopy k { c with st := .left, gone := gone }) with launched := e.launched || !gone }
  if e.copies.all (fun c => c.st = .left) then
    let s := s.setCal n none
    if e.launched then s
    else
      let s := if s.sameTarget e then s.setEp e.ep EP.NO_REPLY 1 else s
      if s.handleOpen e.body.handle && (s.hslot (slotOf e.body.handle)).st = .placed then
        s.complete (slotOf e.body.handle) fsNotSent 0
      else s
  else s.setCal n (some e)

end Sys2Proof.Machine
end

