-- ==== Sys2Proof/Machine/Cells.lean ====
section
/-! DEFINITION. The cells of a plot's buffer (R229, R231, R249): indices, the banks that hold them (R321), owner tags and
generations, the free list, and the structures that list cells. -/
namespace Sys2Proof.Machine
open Sys2Proof

/-! ## Nodes, stored frames -/

/-- The plot of a node (R9). Nodes of the fabric are numbered: 0–255 the ports, 256 + p the control port's attachment to
plot p. -/
def plotOf (n : Nat) : Nat := if n < 256 then n / 32 else (n - 256) % 8

def natZero' (_ : Nat) : Nat := 0
def idxDefault (_ : Nat) : List Nat := []
def frameDefault (_ : Nat) : Option FabFrame := none
/-- A frame stored in an ingress plot. -/
def State.fabFrame (s : State) (i : Nat) : Option FabFrame := sget frameDefault s.fab.frames i
/-- Apply a change to the fabric. -/
def State.modFab (s : State) (f : Fab → Fab) : State := { s with fab := f s.fab }
def State.setFrame (s : State) (i : Nat) (x : Option FabFrame) : State :=
  s.modFab (fun b => { b with frames := sset frameDefault b.frames i x })
/-- Apply a change to the spares. -/
def State.modSpares (s : State) (f : Spares → Spares) : State := { s with spares := f s.spares }

/-! ## Indices and banks (R229, R313, R321) -/

/-- Cells of a bank, and of the eight active banks of a plot. -/
def bankCells : Nat := 12288
def plotCells : Nat := 98304
/-- The element number of a bank row, and its parts (R344). -/
def bankEl (plot bank row : Nat) : Nat := plot * 65536 + bank * 4096 + row
def elPlot (el : Nat) : Nat := el / 65536 % 8
def elBank (el : Nat) : Nat := el / 4096 % 16
/-- The physical bank with which eighth `k % 8` of the indices of plot `k / 8` begins its life. -/
def bankDefault (k : Nat) : Nat := k % 8
/-- The bank in which the cell with index `i` of plot `p` lies: a held cell of a replaced bank stays there (R321). -/
def State.physBank (s : State) (p i : Nat) : Nat :=
  match s.spares.leaving.find? (fun x => x.1 == p && x.2.2 == i) with
  | some x => x.2.1
  | none => sget bankDefault s.spares.bankOf (8 * p + i / bankCells)
/-- The bank row of a cell index, of 64 cells (R313). -/
def State.cellRow (s : State) (p i : Nat) : Nat := bankEl p (s.physBank p i) (i % bankCells / 64)
/-- Whether an index of plot `p` is in service: its bank has not been lost without a spare (R229, R325). -/
def State.cellActive (s : State) (p i : Nat) : Bool := decide (i < plotCells) && !s.spares.gone.contains (p, i / bankCells)
/-- Whether a cell is not to be allocated because its row is under a pass (R313). -/
def State.cellWithheld (s : State) (p i : Nat) : Bool :=
  s.spares.passes.any (fun x => x.cls == 1 && !x.fallow && x.el == s.cellRow p i)

/-! ## Tags and lists (R249) -/

def cellKey (p i : Nat) : Nat := p * 131072 + i
def tagDefault (_ : Nat) : CellTag := ⟨.free, 0⟩
/-- The tag of a cell. -/
def State.cellTag (s : State) (p i : Nat) : CellTag := sget tagDefault s.fab.cells (cellKey p i)
def State.setCellTag (s : State) (p i : Nat) (t : CellTag) : State :=
  s.modFab (fun b => { b with cells := sset tagDefault b.cells (cellKey p i) t })
/-- The free list of a plot: the indices from `freshFrom` up that are not among `unlisted`, then `freedCells`, oldest
first. It begins as all indices in rising order, and cells are taken from its head and appended at its end (DESIGN CHOICE
and DEDUCED, assumption 138). -/
def State.freshFrom (s : State) (p : Nat) : Nat := sget natZero' s.fab.fresh p
def State.freedCells (s : State) (p : Nat) : List Nat := sget idxDefault s.fab.freed p
def State.unlisted (s : State) (p : Nat) : List Nat := sget idxDefault s.fab.unlisted p
def State.setFresh (s : State) (p n : Nat) : State := s.modFab (fun b => { b with fresh := sset natZero' b.fresh p n })
def State.setFreed (s : State) (p : Nat) (l : List Nat) : State := s.modFab (fun b => { b with freed := sset idxDefault b.freed p l })
def State.setUnlisted (s : State) (p : Nat) (l : List Nat) : State :=
  s.modFab (fun b => { b with unlisted := sset idxDefault b.unlisted p l })
/-- The cells that the replication region of plot `p` lists, and those of the reassembly slot of node `n`. -/
def State.replCells (s : State) (p : Nat) : List Nat := sget idxDefault s.fab.repl p
def State.rsmCells (s : State) (n : Nat) : List Nat := sget idxDefault s.fab.rsm n
def State.setReplCells (s : State) (p : Nat) (l : List Nat) : State := s.modFab (fun b => { b with repl := sset idxDefault b.repl p l })
def State.setRsmCells (s : State) (n : Nat) (l : List Nat) : State := s.modFab (fun b => { b with rsm := sset idxDefault b.rsm n l })

/-- Whether an index stands in the part of the free list that has never been allocated. -/
def State.cellFresh (s : State) (p i : Nat) : Bool :=
  decide (s.freshFrom p ≤ i) && s.cellActive p i && !(s.unlisted p).contains i
/-- Whether the structure that a tag names lists a cell. -/
def State.cellListed (s : State) (p i : Nat) : CellOwner → Bool
  | .free => s.cellFresh p i || (s.freedCells p).contains i
  | .frame f => match s.fabFrame f with
    | some x => plotOf x.node == p && x.list.contains i
    | none => false
  | .repl => (s.replCells p).contains i
  | .rsm n => plotOf n == p && (s.rsmCells n).contains i

/-- The structures of a plot other than the free list, each with what it lists. -/
def State.cellHolders (s : State) (p : Nat) : List (CellOwner × List Nat) :=
  (s.fab.frames.filterMap (fun e => match e.2 with
    | some x => if plotOf x.node = p then some (CellOwner.frame e.1, x.list) else none
    | none => none)) ++ [(CellOwner.repl, s.replCells p)] ++
  ((s.fab.rsm.filter (fun e => plotOf e.1 == p)).map (fun e => (CellOwner.rsm e.1, e.2)))

/-- The four counts of R249. -/
def State.freeCells (s : State) (p : Nat) : Nat :=
  (((List.range 8).filter (fun b => !s.spares.gone.contains (p, b))).foldl
    (fun n b => n + (bankCells * (b + 1) - max (s.freshFrom p) (bankCells * b))) 0) -
    ((s.unlisted p).filter (fun i => decide (s.freshFrom p ≤ i) && s.cellActive p i)).length + (s.freedCells p).length
def State.voqOwned (s : State) (p : Nat) : Nat :=
  s.fab.frames.foldl (fun n e => match e.2 with
    | some f => if plotOf f.node = p then n + f.list.length else n
    | none => n) 0
def State.replOwned (s : State) (p : Nat) : Nat := (s.replCells p).length
def State.rsmOwned (s : State) (p : Nat) : Nat :=
  s.fab.rsm.foldl (fun n e => if plotOf e.1 = p then n + e.2.length else n) 0

/-! ## Allocation and release -/

/-- Take the next index that has never been allocated and may be; those whose row is under a pass go to the end of the free
list, those out of service leave it. -/
def State.freshTake (p : Nat) : Nat → State → Option Nat × State
  | 0, s => (none, s)
  | n + 1, s =>
    let i := s.freshFrom p
    if plotCells ≤ i then (none, s)
    else
      let s' := s.setFresh p (i + 1)
      if !s.cellFresh p i then State.freshTake p n s'
      else if s.cellWithheld p i then State.freshTake p n (s'.setFreed p (s'.freedCells p ++ [i]))
      else (some i, s')

/-- Allocate a cell to an owner: its generation advances (R249). -/
def State.cellTake (s : State) (p : Nat) (o : CellOwner) : Option Nat × State :=
  let give := fun (i : Nat) (s : State) => (some i, s.setCellTag p i ⟨o, ((s.cellTag p i).gen + 1) % 256⟩)
  let r := State.freshTake p plotCells s
  match r.1 with
  | some i => give i r.2
  | none =>
    match (r.2.freedCells p).find? (fun i => !r.2.cellWithheld p i) with
    | some i => give i (r.2.setFreed p ((r.2.freedCells p).erase i))
    | none => (none, r.2)
/-- Allocate `n` cells to an owner. -/
def State.cellsTake (p : Nat) (o : CellOwner) : Nat → State → List Nat × State
  | 0, s => ([], s)
  | n + 1, s =>
    let r := s.cellTake p o
    let q := State.cellsTake p o n r.2
    (r.1.toList ++ q.1, q.2)

/-- A bank that has been replaced and holds no cell any more is RETIRED (R321). -/
def State.bankEmptied (s : State) (p bank : Nat) : State :=
  if s.spares.leaving.any (fun x => x.1 == p && x.2.1 == bank) then s
  else s.modSpares (fun x => { x with banksRetired := x.banksRetired ++ [(p, bank)] })
/-- Release a cell: it goes to the end of the free list when its index is in service, and an index that still lay in a
replaced bank moves to the new one (R321). -/
def State.cellFree (s : State) (p i : Nat) : State :=
  let s := s.setCellTag p i ⟨.free, (s.cellTag p i).gen⟩
  let s := if s.cellActive p i then s.setFreed p (s.freedCells p ++ [i]) else s
  match s.spares.leaving.find? (fun x => x.1 == p && x.2.2 == i) with
  | some x => (s.modSpares (fun y => { y with leaving := y.leaving.erase x })).bankEmptied p x.2.1
  | none => s
def State.cellsFree (s : State) (p : Nat) (l : List Nat) : State := foldS l (fun i s => s.cellFree p i) s

/-- Bring a region's list to the number of cells that its tokens need: new cells are taken, or the oldest released. -/
def State.regionFit (s : State) (p : Nat) (o : CellOwner) (l : List Nat) (need : Nat) : List Nat × State :=
  if l.length < need then
    let r := State.cellsTake p o (need - l.length) s
    (l ++ r.1, r.2)
  else (l.drop (l.length - need), s.cellsFree p (l.take (l.length - need)))

end Sys2Proof.Machine
end

