-- ==== Sys2Proof/Machine/Fabric.lean ====
section
/-! DEFINITION. The fabric up to the virtual output queues: classification (R192–R194), bridging (R195–R203), the
forwarding database, cut-through (R209, R210), cells and admission (R229–R239), multicast (R240–R242). A frame comes in
whole in one command, and what the spec does at its first cell precedes what it does at its last. -/
namespace Sys2Proof.Machine
open Sys2Proof

/-! ## Ports and nodes -/

/-- The node of the control port's attachment to plot `p`. -/
def ctlNode (p : Nat) : Nat := 256 + p
/-- Local port of a node in its plot (R232). -/
def localOf (n : Nat) : Nat := if n < 256 then n % 32 else 32

/-- The codes of PORT_CFG.ROLE (R265). -/
def prBridge : Nat := 0
def prUplink : Nat := 1
def prRing : Nat := 2
def prPair : Nat := 3
def State.portRole (s : State) (n : Nat) : Nat := s.f (R.PORT_CFG.ROLE n)

/-- The enabled ring of which port `n` is a member. -/
def State.ringOf (s : State) (n : Nat) : Option Nat :=
  if s.portRole n = prRing then (List.range 128).find? (fun k => s.ringOn k && (s.ringA k == n || s.ringB k == n)) else none

/-- The bridge port of a port: PORT_A for both ports of a ring (R266). -/
def State.bridgePort (s : State) (n : Nat) : Nat :=
  match (if n < 256 then s.ringOf n else none) with
  | some k => s.ringA k
  | none => n

/-- MAC addresses: bits [47:40] are the octet sent first (PRESUMED, assumption 18). -/
def macMulticast (m : Mac) : Bool := m.getLsbD 40
def macBroadcast : Mac := BitVec.ofNat 48 (2 ^ 48 - 1)
/-- FAB_MOD_MAC (R227). -/
def State.modMac (s : State) : Mac := s.ident.mac
/-- The EUI-64 of a MAC address: 0xFFFE after its third octet (R227, R340). -/
def euiOfMac (m : Mac) : Eui := BitVec.ofNat 64 (m.toNat / 2 ^ 24 * 2 ^ 40 + 0xFFFE * 2 ^ 24 + m.toNat % 2 ^ 24)

def etPtp : BitVec 16 := 0x88F7
def etHsrSv : BitVec 16 := 0x892F
def etField : BitVec 16 := 0x88B5
def etMacCtl : BitVec 16 := 0x8808
def macAll : Mac := 0xFFFFFFFFFFFF

/-- Ticks in a second (R285). -/
def secTicks : Nat := 625000000

/-- A stamp at port `n`: corrected by the port's fixed latency, and by TIME_PTP_PORT.ASYM, which is added on transmission and
taken off on reception (R302; the sign is PRESUMED, assumption 139). -/
def State.portStamp (s : State) (n : Nat) (tx : Bool) : Stamp :=
  let asym := toSigned 16 (s.f (R.TIME_PTP_PORT.ASYM n))
  stampAddNs s.now (Config.portLatency n tx + if tx then asym else -asym)
/-- Whether a PTP frame is an event message: messageType 0 to 3 (PRESUMED, assumption 139). Of a frame whose content the model
does not know it is taken as one. -/
def Frame.ptpEvent (f : Frame) : Bool := f.etype == etPtp && (f.body.take 1).all (fun b => decide (b.toNat % 16 < 4))

/-! ## VLANs (R195, R228) -/

/-- The VLAN ID of a tag, 0 for none (R195). -/
def Frame.vidIn (f : Frame) : Nat := match f.tci with
  | some t => t.toNat % 4096
  | none => 0
/-- The VLAN of a frame received on port `n`. -/
def State.vidOf (s : State) (n : Nat) (f : Frame) : Nat :=
  if f.vidIn = 0 then s.f (R.FAB_PORTCFG.PVID (n / 32) (n % 32)) else f.vidIn

/-- Whether port `n` is in the member set, or the untagged set, of VLAN `v`; the control port's bit is CTL_MEMBER, and
it is never untagged (R228). -/
def State.vlanMember (s : State) (v n : Nat) : Bool :=
  if n < 256 then bit (s.r (R.FAB_VLAN_MEMBER.reg v (n / 32))) (n % 32) else s.on (R.FAB_VLAN_CFG.CTL_MEMBER v)
def State.vlanUntag (s : State) (v n : Nat) : Bool :=
  n < 256 && bit (s.r (R.FAB_VLAN_UNTAG.reg v (n / 32))) (n % 32)

/-- The outcome of the acceptance of R195. -/
inductive Accept where
  | ok | accept | filter
  deriving DecidableEq, Repr

/-- Acceptance and filtering of a frame on port `n` (R195). -/
def State.acceptOn (s : State) (n : Nat) (f : Frame) : Accept :=
  let a := s.f (R.FAB_PORTCFG.ACCEPT (n / 32) (n % 32))
  let v := s.vidOf n f
  if a = 1 ∧ f.vidIn = 0 then .accept
  else if a = 2 ∧ 1 ≤ f.vidIn ∧ f.vidIn ≤ 4094 then .accept
  else if f.vidIn = 4095 || !s.on (R.FAB_VLAN_CFG.VALID v) || !s.vlanMember v n then .filter
  else .ok

/-! ## Classes (R192, R193) -/

/-- The class that the module gives a frame of its own (R194): 7 for PTP and supervision, 6 for field commands, 5 for
management traffic. -/
def Frame.ownClass (f : Frame) : Nat :=
  if f.etype = etPtp ∨ f.etype = etHsrSv then 7 else if f.etype = etField then 6 else 5

/-- The class of line 4 before the cap, by the port's TRUST mode (R193). -/
def State.trustClass (s : State) (n : Nat) (f : Frame) : Nat :=
  let p := n / 32
  let i := n % 32
  let dflt := s.f (R.FAB_PORTCFG.DEF_CLASS p i)
  let byPcp := match f.tci with
    | some t => getBits (s.r (R.FAB_PCP_MAP.reg p)) (3 * (t.toNat / 8192)) 3
    | none => dflt
  match s.f (R.FAB_PORTCFG.TRUST p i) with
  | 1 => byPcp
  | 2 => match f.dscp with
    | some d => getBits (s.r (R.FAB_DSCP_MAP.reg p (d.toNat / 8))) (3 * (d.toNat % 8)) 3
    | none => byPcp
  | _ => dflt

/-- Whether a frame is one of line 2 of R192 on port `n`. -/
def State.fieldFrame (s : State) (n : Nat) (f : Frame) : Bool :=
  f.etype == etField && (s.ringOf n).isSome && s.f R.FAB_FIELD_VLAN.VID != 0 && s.vidOf n f == s.f R.FAB_FIELD_VLAN.VID

/-! ## The forwarding database (R199–R203) -/

/-- The eight key bytes of R199. -/
def fdbBytes (vid : Nat) (m : Mac) : List Byte := BitVec.ofNat 8 (vid / 256 % 16) :: BitVec.ofNat 8 vid :: beBytes 6 m.toNat
/-- CRC-32C of a key (R199, R240). -/
def fdbCrc (vid : Nat) (m : Mac) : Nat := (crc32c (fdbBytes vid m)).toNat
/-- The key of an entry as a number. -/
def fdbKey (vid : Nat) (m : Mac) : Nat := vid * 2 ^ 48 + m.toNat
def fdbVid (k : Nat) : Nat := k / 2 ^ 48
def fdbMac (k : Nat) : Mac := BitVec.ofNat 48 k
def fdbDefault (_ : Nat) : Option FdbEntry := none
/-- The entry of a key. -/
def State.fdbAt (s : State) (k : Nat) : Option FdbEntry := sget fdbDefault s.fab.fdb k
/-- Replace the entry of a key. -/
def State.setFdb (s : State) (k : Nat) (e : Option FdbEntry) : State :=
  { s with fab := { s.fab with fdb := sset fdbDefault s.fab.fdb k e } }
/-- Whether the four ways of a key's bucket are occupied. -/
def State.fdbFull (s : State) (vid : Nat) (m : Mac) : Bool :=
  let b := fdbCrc vid m % 65536
  4 ≤ (s.fab.fdb.filter (fun e => fdbCrc (fdbVid e.1) (fdbMac e.1) % 65536 == b)).length

/-- Learning a source address on a node (R200, R201). -/
def State.fdbLearn (s : State) (vid : Nat) (m : Mac) (node : Nat) : State :=
  let k := fdbKey vid m
  match s.fdbAt k with
  | some e => if e.static then s else s.setFdb k (some ⟨node, false, s.opTotal⟩)
  | none => if s.fdbFull vid m then s.raise E.FAB_FDB_EVT.BUCKET_FULL else s.setFdb k (some ⟨node, false, s.opTotal⟩)

/-- Remove the dynamic entries for which `p` holds (FLUSH commands of R227, R262). -/
def State.fdbFlush (s : State) (p : Nat → FdbEntry → Bool) : State :=
  { s with fab := { s.fab with fdb := s.fab.fdb.filter (fun e => match e.2 with
      | some x => x.static || !p e.1 x
      | none => false) } }

/-! ## Multicast groups (R240, R241, R257) -/

/-- The MAC key of group `g`. -/
def State.mcgMac (s : State) (g : Nat) : Mac :=
  BitVec.ofNat 48 (s.f (R.FAB_MCG_MAC_LO.MAC_LO g) + s.f (R.FAB_MCG_CFG.MAC_HI g) * 4294967296)
/-- The valid group that a VLAN and a multicast address match, in the four ways of their bucket (R241). -/
def State.mcgFind (s : State) (vid : Nat) (m : Mac) : Option Nat :=
  let b := fdbCrc vid m % 1024
  (rangeFrom (4 * b) 4).find? (fun g => s.on (R.FAB_MCG_CFG.VALID g) && s.f (R.FAB_MCG_CFG.VID g) == vid && s.mcgMac g = m)
/-- Whether a node is a target of group `g`. -/
def State.mcgMember (s : State) (g n : Nat) : Bool :=
  if n < 256 then bit (s.r (R.FAB_MCG_MEMBER.reg g (n / 32))) (n % 32) else s.on (R.FAB_MCG_CTL.CTL g)

/-! ## Destinations (R203, R241, R266) -/

/-- Where the bridge sends a frame. -/
structure Route where
  cls : Nat
  vid : Option Nat
  /-- Targets to each of which it crosses alone. -/
  uni : List Nat
  /-- Targets of a flooded or multicast frame. -/
  multi : List Nat
  sown : Bool
  rings : List (Nat × Nat)
  pass : Bool
  deriving DecidableEq, Repr

/-- Every node the bridge can flood to from plot `p`: the ports and its control attachment. -/
def allNodes (p : Nat) : List Nat := List.range 256 ++ [ctlNode p]

/-- Where a bridged frame goes: to a set of targets, sown or not, to one bridge port, or nowhere; `none` in the last
place counts nothing. -/
inductive Dest where
  | multi (targets : List Nat) (sown : Bool)
  | one (node : Nat)
  | same
  | emptyGroup
  deriving DecidableEq, Repr

/-- Whether a node is bridged: every one but a port with ROLE PAIR (R265). -/
def State.bridged (s : State) (n : Nat) : Bool := !(n < 256 && s.portRole n == prPair)
/-- The destination of a frame of VLAN `v` that entered at a node (R203, R241). A static entry with a reserved PORT
(R227) leads to no node (DESIGN CHOICE, assumption 20), and an entry that names a PAIR port leads nowhere either, since such a
port is not bridged (R265). -/
def State.destOf (s : State) (node v : Nat) (f : Frame) : Dest :=
  let me := s.bridgePort node
  let members := fun (p : Nat → Bool) => (allNodes (plotOf node)).filter (fun t =>
    s.vlanMember v t && s.bridgePort t != me && t != node && p t)
  let flood := Dest.multi (members (fun _ => true)) false
  if f.dst = macBroadcast then flood
  else if macMulticast f.dst then
    match s.mcgFind v f.dst with
    | some g =>
      let t := members (s.mcgMember g)
      if t = [] then .emptyGroup else .multi t (s.on (R.FAB_MCG_CFG.SOWN g))
    | none => flood
  else if f.dst = s.modMac ∧ v = s.f R.FAB_MGMT_VLAN.VID ∧ v ≠ 0 then .one (ctlNode (plotOf node))
  else match s.fdbAt (fdbKey v f.dst) with
    | some e =>
      let at_ := if e.node = 256 then ctlNode (plotOf node) else e.node
      if s.bridgePort at_ = me ∨ 256 < e.node ∨ s.bridged at_ = false then .same else .one at_
    | none => flood

/-- The egress ports of a bridge port: both ports of a ring (R266). -/
def State.egressOf (s : State) (n : Nat) : List Nat :=
  match (if n < 256 then s.ringOf n else none) with
  | some k => [s.ringA k, s.ringB k]
  | none => [n]

/-- Whether the module runs in a pair: EN, and a partner was fitted when the module entered BOOT (R330, R380). -/
def State.paired (s : State) : Bool := s.on R.SYS_PAIR_CFG.EN && s.pair.fitted
/-- Whether the gate of R267 stops a frame between a ring and port `n`. A partner that goes or comes later changes nothing
(R380). -/
def State.gated (s : State) (n : Nat) : Bool :=
  n < 256 && s.paired && (s.portRole n == prBridge || s.portRole n == prUplink) &&
    s.on (R.PORT_CFG.PAIR_GATE n) && !s.on R.SYS_PAIR_STATUS.BRIDGE

/-- Apply the gate to the targets of a frame that entered at `node` (R267): the targets that remain, with GATED counted
on each non-ring port. -/
def State.gateTargets (s : State) (node : Nat) (ts : List Nat) : List Nat × State :=
  let inRing := node < 256 && (s.ringOf node).isSome
  if inRing then
    let stopped := ts.filter s.gated
    (ts.filter (fun t => !s.gated t), foldS stopped (fun t s => s.count (R.PORT_CNT_GATED.COUNT t)) s)
  else if node < 256 && s.gated node then
    let keep := ts.filter (fun t => !(t < 256 && (s.ringOf t).isSome))
    (keep, if keep.length < ts.length then s.count (R.PORT_CNT_GATED.COUNT node) else s)
  else (ts, s)

/-- Number a frame on each ring among its targets (R270): ring and number, with RING_SEQ advanced. -/
def State.ringNumbers (s : State) (ts : List Nat) : List (Nat × Nat) × State :=
  let ks := (List.range 128).filter (fun k => s.ringOn k && (ts.contains (s.ringA k) || ts.contains (s.ringB k)))
  (ks.map (fun k => (k, s.f (R.RING_SEQ.SEQ k))), foldS ks (fun k s => s.setF (R.RING_SEQ.SEQ k) (s.f (R.RING_SEQ.SEQ k) + 1)) s)

/-! ## Cells, regions, accounts (R229–R232, R239) -/

def reasmCells : Nat := 12800
def guardCells : Nat := 1188
/-- An account number's order for R239: classes from 7 down, local ports rising. -/
def acctOrder : List Nat := (List.range 8).flatMap (fun j => (List.range 33).map (fun i => 8 * i + (7 - j)))
def State.acctUsed (s : State) (p a : Nat) : Nat := s.f (R.FAB_ACCT_USED.USED p a)
def State.minSum (s : State) (p : Nat) : Nat := (List.range 264).foldl (fun n a => n + s.f (R.FAB_ACCT_MIN.MIN p a)) 0
/-- Cells of a plot that its first three regions reserve (R230). -/
def State.regionCells (s : State) (p : Nat) : Nat := reasmCells + guardCells + s.f (R.FAB_BUF_MC_RES.MC_RES p)
/-- Cells of a plot that its reservations leave (R230). -/
def State.pastRegions (s : State) (p : Nat) : Nat := s.f (R.FAB_BUF_TOTAL.TOTAL p) - s.regionCells p
/-- Whether the cells of a plot do not cover its reservations and minima (R239). -/
def State.minShort (s : State) (p : Nat) : Bool := decide (s.f (R.FAB_BUF_TOTAL.TOTAL p) < s.regionCells p + s.minSum p)
/-- The minima that are honoured when they are not all covered (R239): accounts in order while cells remain. -/
def State.minGranted (s : State) (p : Nat) : List Nat :=
  (acctOrder.foldl (fun (x : Nat × List Nat) a =>
    let m := s.f (R.FAB_ACCT_MIN.MIN p a)
    if m ≤ x.1 then (x.1 - m, a :: x.2) else x) (s.pastRegions p, [])).2
/-- The minimum of an account as it acts (R239). -/
def State.acctMin (s : State) (p a : Nat) : Nat :=
  if s.minShort p && !(s.minGranted p).contains a then 0 else s.f (R.FAB_ACCT_MIN.MIN p a)
/-- S of R230; 0 under R239. -/
def State.shared (s : State) (p : Nat) : Nat := s.pastRegions p - s.minSum p
/-- F of R232; 0 when the shared use of the plot's accounts exceeds S. -/
def State.sharedFree (s : State) (p : Nat) : Nat :=
  s.shared p - (List.range 264).foldl (fun n a => n + (s.acctUsed p a - s.acctMin p a)) 0
/-- The quota of an account as it acts: at most 98,304 (R256). -/
def State.acctQuota (s : State) (p a : Nat) : Nat := min (s.f (R.FAB_ACCT_QUOTA.QUOTA p a)) 98304

/-- The parts that wait in a VOQ, oldest first (R204). -/
def State.voq (s : State) (p node cls : Nat) : List VoqPart :=
  s.fab.waiting.filter (fun x => x.plot == p && x.voq == node && x.cls == cls)
/-- Cells that a VOQ holds (R233). -/
def State.voqCells (s : State) (p node cls : Nat) : Nat :=
  (s.voq p node cls).foldl (fun n x => n + (match s.fabFrame x.fid with
    | some f => f.cells
    | none => 0)) 0

/-! ## Admission (R233–R236) -/

inductive Admit where
  | yes | marked | quota | voq | pool | dt
  deriving DecidableEq, Repr

/-- The tests of R233 for a frame of class `k` on account `a` of plot `p` with the VOQs it would wait in. -/
def State.admission (s : State) (p a k : Nat) (voqs : List Nat) (f : Frame) : Admit :=
  let used := s.acctUsed p a
  let mn := s.acctMin p a
  let cap := max 1 (s.f (R.FAB_BUF_VOQ_CAP.CAP p))
  if s.acctQuota p a ≤ used then .quota
  else if voqs.any (fun n => decide (cap ≤ s.voqCells p n k)) then .voq
  else if used < mn then .yes
  else
    let fr := s.sharedFree p
    if 6 ≤ k then (if 1 ≤ fr then .yes else .pool)
    else if fr ≤ s.f (R.FAB_BUF_HEADROOM.HEADROOM p) then .pool
    else
      let al := min 7 (getBits (s.r (R.FAB_BUF_ALPHA.reg p)) (4 * k) 4)
      if fr * 2 ^ al < (used - mn + 1) * 16 then
        (if (s.f (R.FAB_BUF_ECN.ECN p)).testBit k && f.dscp.isSome && f.ecn != 0 then .marked else .dt)
      else .yes

/-- The plot counter of a refusal (R233). -/
def admitCount (p : Nat) : Admit → Option Fld
  | .quota => some (R.FAB_BUF_CNT_DROP_QUOTA.COUNT p)
  | .voq => some (R.FAB_BUF_CNT_DROP_VOQ.COUNT p)
  | .pool => some (R.FAB_BUF_CNT_DROP_POOL.COUNT p)
  | .dt => some (R.FAB_BUF_CNT_DROP_DT.COUNT p)
  | _ => none

/-- The number of cells of a frame (R231). -/
def cellsFor (len : Nat) : Nat := ceilDiv len 256

/-- Charge, or release, cells of an account; OVER_NOW clears when USED falls below QUOTA (R232, R238). -/
def State.acctCharge (s : State) (p a n : Nat) : State := s.setF (R.FAB_ACCT_USED.USED p a) (s.acctUsed p a + n)
def State.acctRelease (s : State) (p a n : Nat) : State :=
  let s := s.setF (R.FAB_ACCT_USED.USED p a) (s.acctUsed p a - n)
  if s.acctUsed p a < s.acctQuota p a then s.setF (R.FAB_ACCT_USED.OVER_NOW p a) 0 else s

/-! ## Entering the fabric -/

/-- Whether the class of the ingress port is cut through (FAB_PORTCFG.CT_EN), and whether R210 refuses it. The rates compared are
those of ports: a control port's attachment refuses none for its rate (DESIGN CHOICE, assumption 186). -/
def State.ctOn (s : State) (node cls : Nat) : Bool := node < 256 && (s.f (R.FAB_PORTCFG.CT_EN (node / 32) (node % 32))).testBit cls
def State.ctRefused (s : State) (node : Nat) (f : Frame) (r : Route) : Bool :=
  r.multi != [] || f.early || r.uni.any (fun t => t < 256 && decide (s.rateOf node < s.rateOf t))

/-- The targets of each egress plot. -/
def byPlot (ts : List Nat) : List (Nat × List Nat) :=
  ((List.range 8).map (fun p => (p, ts.filter (fun t => plotOf t == p)))).filter (fun x => x.2 != [])

/-- The lowest-numbered target (R204). -/
def lowest (ts : List Nat) : Nat := ts.foldl min 1000

/-- The parts in which a frame crosses (R204, R243, R247). -/
def routeParts (fid plot : Nat) (r : Route) : List VoqPart :=
  r.uni.map (fun t => ⟨fid, plot, t, r.cls, false, false, [(plotOf t, [t])]⟩) ++
    (if r.multi = [] then []
     else if r.sown then [⟨fid, plot, lowest r.multi, r.cls, true, true, byPlot r.multi⟩]
     else (byPlot r.multi).map (fun x => ⟨fid, plot, lowest x.2, r.cls, true, false, [x]⟩))

/-- The IPv4 header checksum after the ECN codepoint has become CE: one's-complement update (R235; RFC 1624 PRESUMED,
assumption 140). -/
def ceSum (ecn : BitVec 2) (c : BitVec 16) : BitVec 16 :=
  let x := 65535 - c.toNat + (3 - ecn.toNat)
  BitVec.ofNat 16 (65535 - (x % 65536 + x / 65536))
/-- A frame marked CE (R235). -/
def Frame.markCe (f : Frame) : Frame := { f with ecn := 3, ipSum := f.ipSum.map (ceSum f.ecn) }

/-- The tag with which the control port gets a frame for which no VLAN was determined (R228, R198): the received one, or the
ingress port's PVID with PCP = class. -/
def State.ctlTag (s : State) (node cls : Nat) (f : Frame) : Nat :=
  let pvid := s.f (R.FAB_PORTCFG.PVID (node / 32) (node % 32))
  match f.tci with
  | some t => if f.vidIn = 0 then t.toNat / 4096 * 4096 + pvid else t.toNat
  | none => cls * 8192 + pvid

/-- A store-and-forward frame that is too long or has a bad FCS is dropped and counted (R196). -/
def State.badFrame (s : State) (p : Nat) (f : Frame) : State :=
  if 9216 < f.len then s.count (R.FAB_CNT_OVERSIZE.COUNT p)
  else if f.badFcs then s.count (R.FAB_CNT_FCS_ERR.COUNT p) else s

/-- What a sender of the module says of a frame beside its route: the ID of its transmit stamp, that it is a Sync message, the
calendar entry whose frame it is. -/
structure Mark where
  stampId : Option Nat
  sync : Bool
  cal : Option Nat
  deriving DecidableEq, Repr
/-- A frame about which nothing is said. -/
def Mark.none : Mark := ⟨.none, false, .none⟩

/-- A frame admitted to plot `p` and received whole is stored: its cells are charged and allocated, and its parts wait in
their VOQs (R209, R231, R232, R234, R249). -/
def State.storeFrame (s : State) (x : FabFrame) (parts : List VoqPart) : State :=
  let p := plotOf x.node
  let fid := s.fab.nextFrame
  let s := s.acctCharge p x.acct x.cells
  let r := State.cellsTake p (.frame fid) x.cells s
  (r.2.setFrame fid (some { x with list := r.1 })).modFab (fun b => { b with nextFrame := fid + 1, waiting := b.waiting ++ parts })

/-- A classified frame with a destination meets admission and, once received whole, waits in its VOQs (R196, R209,
R231–R234). A frame with a bad FCS or too long that is not cut through is dropped; one that is cut through is cut at
9,216 bytes and goes on (R211). A frame without a destination is received store-and-forward and dropped. -/
def State.enqueue (s : State) (node : Nat) (f : Frame) (r : Route) (m : Mark) : State :=
  let p := plotOf node
  if r.uni = [] ∧ r.multi = [] then s.badFrame p f
  else
    let parts := routeParts s.fab.nextFrame p r
    let on := s.ctOn node r.cls
    let no := s.ctRefused node f r
    let ct := on && !no
    let a := 8 * localOf node + r.cls
    let ad := s.admission p a r.cls (parts.map (·.voq)) f
    match admitCount p ad with
    | some c => (s.count c).count (R.FAB_ACCT_DROP.DROP p a)
    | none =>
      let s := if on && no then s.count (R.FAB_CNT_CT_FALLBACK.COUNT p) else s
      let s := if ad = .marked then s.count (R.FAB_BUF_CNT_ECN_MARK.COUNT p) else s
      let long := decide (9216 < f.len)
      if (long || f.badFcs) && !ct then s.badFrame p f
      else
        let s := if long then s.count (R.FAB_CNT_OVERSIZE.COUNT p) else s
        let len := min f.len 9216
        let mark := decide (ad = .marked ∧ f.ecn ≠ 3)
        let g := if mark then f.markCe else f
        s.storeFrame ⟨{ g with len := len, badFcs := f.badFcs || long }, node, r.cls, r.vid, ct, mark, cellsFor len, a,
          (match r.vid with
            | some v => (r.uni ++ r.multi).filter (s.vlanUntag v)
            | none => []), r.rings, r.pass, m.stampId, m.sync, false, [], s.ctlTag node r.cls f,
          (if node < 256 && f.ptpEvent then some (s.portStamp node false, s.stepEpoch) else none), m.cal⟩ parts

/-- A frame for the control port alone, in a class that the module gives it. -/
def State.toControl (s : State) (node cls : Nat) (vid : Option Nat) (f : Frame) : State :=
  s.enqueue node f ⟨cls, vid, [ctlNode (plotOf node)], [], false, [], false⟩ .none

/-- The module's own multicast frames are sown in four cases (R242). A plot is in TEST with code 1 (R38). -/
def State.ownSown (s : State) : Bool :=
  (List.range 8).any (fun p => getBits (s.r R.SYS_PLOT_STATE.reg) (4 * p) 4 == 1) ||
    s.spares.passes.any (fun x => x.cls == 0) || (List.range 128).any (fun k => s.on (R.RING_STATUS.OPEN k)) ||
    s.f R.SVC_EFW_STATUS.STATE == 1

/-- Bridge a frame of class `cls` in VLAN `v` from a node (R203, R241, R266, R267), with the ports `pass` along which a
ring passes it. A multicast frame of the control port is one of the module's own (R242). A frame from a ring keeps its number in
another (R273); every other takes one of each ring that it enters, whatever tag it came with (R270; DEDUCED,
assumption 183). -/
def State.bridgeTo' (s : State) (node cls v : Nat) (f : Frame) (pass : List Nat) (m : Mark) : State :=
  let go := fun (s : State) (uni multi : List Nat) (sown : Bool) =>
    let n := s.ringNumbers (if node < 256 && (s.ringOf node).isSome then [] else uni ++ multi)
    n.2.enqueue node f ⟨cls, some v, pass ++ uni, multi, sown, n.1, pass != []⟩ m
  match s.destOf node v f with
  | .one t =>
    let g := s.gateTargets node (s.egressOf t)
    go g.2 g.1 [] false
  | .multi ts sown =>
    let g := s.gateTargets node ts
    go g.2 [] g.1 (sown || (256 ≤ node && macMulticast f.dst && s.ownSown))
  | .same => go s [] [] false
  | .emptyGroup => go (s.count (R.FAB_BUF_CNT_MC_EMPTY.COUNT (plotOf node))) [] [] false

/-- Line 4 of R192: acceptance, class, learning and the bridge (R193, R195, R200). -/
def State.bridgeIn (s : State) (n : Nat) (f : Frame) (pass : List Nat) : State :=
  let p := n / 32
  let c := s.trustClass n f
  let s := if 5 < c then s.count (R.FAB_CNT_CAPPED.COUNT p) else s
  match s.acceptOn n f with
  | .accept => s.count (R.FAB_CNT_ACCEPT.COUNT p)
  | .filter => s.count (R.FAB_CNT_VLAN_FILTER.COUNT p)
  | .ok =>
    let v := s.vidOf n f
    let s := if !macMulticast f.src && s.on (R.FAB_PORTCFG.LEARN p (n % 32)) && s.on (R.FAB_VLAN_CFG.LEARN v) then
        s.fdbLearn v f.src (s.bridgePort n) else s
    s.bridgeTo' n (min c 5) v f pass .none

/-- A frame on a port that is not on a ring (R192). -/
def State.plainIn (s : State) (n : Nat) (f : Frame) : State :=
  if f.etype = etPtp ∨ f.etype = etHsrSv then s.toControl n 7 none f
  else if f.etype = etField then s.count (R.FAB_CNT_FIELD_DROP.COUNT (n / 32))
  else s.bridgeIn n f []

/-- Count a received frame (R283). -/
def State.rxCount (s : State) (n : Nat) (f : Frame) : State :=
  (s.addPair (R.PORT_RX_OCTETS_LO.reg n) (R.PORT_RX_OCTETS_HI.reg n) f.len).addPair (R.PORT_RX_FRAMES_LO.reg n)
    (R.PORT_RX_FRAMES_HI.reg n) 1

/-- What every port does first with a frame (R196, R260, R262): `k` gets the frames that go on. -/
def State.portIn (s : State) (n : Nat) (f : Frame) (k : State → State) : State :=
  if !s.portUp n then s
  else
    let s := s.rxCount n f
    if f.etype = etMacCtl then s.count (R.PORT_CNT_MACCTL.COUNT n)
    else if f.len < 64 then s.count (R.FAB_CNT_RUNT.COUNT (n / 32))
    else k s

/-- A frame from the control port (R194): to the port that the module names, or by the bridge, for which its VID must be
that of a valid VLAN of which the control port is a member (R195). The control port has no PVID, so that an untagged frame has
VID 0, which no VLAN has: it is dropped and counted (DESIGN CHOICE, assumption 185). -/
def State.controlIn (s : State) (p : Nat) (port : Option Nat) (f : Frame) (m : Mark) : State :=
  let cls := f.ownClass
  match port with
  | some n =>
    let r := if f.etype = etPtp then ([], s) else s.ringNumbers [n]
    r.2.enqueue (ctlNode p) f ⟨cls, none, [n], [], false, r.1, false⟩ m
  | none =>
    let v := f.vidIn
    if v = 4095 || !s.on (R.FAB_VLAN_CFG.VALID v) || !s.vlanMember v (ctlNode p) then s.count (R.FAB_CNT_VLAN_FILTER.COUNT p)
    else s.bridgeTo' (ctlNode p) cls v f [] m

/-! ## The module's own field frames (R116, R270, R567) -/

/-- The 32-byte body of R116 with its payload. -/
def CmdBody.bytes (b : CmdBody) : List Byte :=
  [0x02, BitVec.ofNat 8 b.code, BitVec.ofNat 8 (b2n b.noReply), 0] ++ leBytes 4 b.epoch ++ leBytes 4 b.handle.toNat ++
  leBytes 8 b.eui.toNat ++ leBytes 2 (b.level % 1024) ++ leBytes 2 b.ramp ++ leBytes 4 b.arg.toNat ++
  leBytes 2 b.payload.length ++ [BitVec.ofNat 8 b.gen, 0] ++ b.payload

/-- A body that the module itself sends: no handle, no reply asked, no payload (R116, R186, R338). -/
def State.ownBody (s : State) (code : Nat) (eui : Eui) (level gen : Nat) (arg : Word) : CmdBody :=
  ⟨code, true, s.epoch, 0, eui, level, 0, arg, gen, []⟩

/-- Bytes padded with zeros to `n`. -/
def padTo (n : Nat) (l : List Byte) : List Byte := l ++ List.replicate (n - l.length) 0
/-- The frame of a body, before the egress adds its HSR tag of 6 bytes, with the zeros that pad it to 64 (R567). -/
def State.fieldFrameOf (s : State) (dst : Mac) (b : CmdBody) : Frame :=
  let v := s.f R.FAB_FIELD_VLAN.VID
  let n := fieldLen v b.payload.length - 6
  ⟨0, n, dst, s.modMac, if v = 0 then none else some (BitVec.ofNat 16 (6 * 8192 + v)), none, true,
    etField, none, 0, none, false, false, padTo (n - (if v = 0 then 18 else 22)) b.bytes⟩

/-- A body goes into ring `k` on both its ports, under one number and in class 6, from the control port's attachment to the
plot of PORT_A (R270, R567; the plot is a DESIGN CHOICE, assumption 141). One for a single node is no multicast frame and
crosses once to each port (R266); one for several is replicated, sown or by drilling (R242). -/
def State.ringFrame (s : State) (k : Nat) (dst : Mac) (b : CmdBody) (q : Nat) (sown : Bool) (cal : Option Nat) : State :=
  s.enqueue (ctlNode (plotOf (s.ringA k))) (s.fieldFrameOf dst b)
    ⟨6, none, if macMulticast dst then [] else [s.ringA k, s.ringB k], if macMulticast dst then [s.ringA k, s.ringB k] else [],
      sown && macMulticast dst, [(k, q)], false⟩ ⟨none, false, cal⟩
/-- Take the next number of ring `k` (R270). -/
def State.ringNext (s : State) (k : Nat) : Nat × State :=
  let q := s.f (R.RING_SEQ.SEQ k)
  (q, s.setF (R.RING_SEQ.SEQ k) (q + 1))
/-- A body of the module's own into an enabled ring. One of several destinations is sown in the cases of R242, or when the
spec says so (`sown`). -/
def State.ringSend (s : State) (k : Nat) (dst : Mac) (b : CmdBody) (sown : Bool) : State :=
  if s.ringOn k then
    let r := s.ringNext k
    r.2.ringFrame k dst b r.1 (sown || s.ownSown) none
  else s

/-! ## FDB commands (R202, R227) -/

/-- The key in FAB_FDB_KEY. -/
def State.fdbKeyVid (s : State) : Nat := s.f R.FAB_FDB_KEY_HI.VID
def State.fdbKeyMac (s : State) : Mac := BitVec.ofNat 48 (s.f R.FAB_FDB_KEY_LO.MAC_LO + s.f R.FAB_FDB_KEY_HI.MAC_HI * 4294967296)
/-- Whether a key is bad: VID 0 or 4,095, or a multicast MAC. -/
def State.fdbBadKey (s : State) : Bool := s.fdbKeyVid == 0 || s.fdbKeyVid == 4095 || macMulticast s.fdbKeyMac

/-- Start a command: BUSY, with the result that FDB_COMMAND_DONE posts. A command written while BUSY is ignored. -/
def State.fdbStart (s : State) (k : State → Nat × State) : State :=
  if s.on R.FAB_FDB_STATUS.BUSY then s
  else
    let r := k s
    (r.2.setF R.FAB_FDB_STATUS.BUSY 1).modFab (fun b => { b with fdbResult := some r.1 })

/-- The word of FAB_FDB_DATA for an entry: PORT of one for the control port shows 0x100, also after a write with a reserved PORT, and
its OWNER the plot of its attachment, modulo 8 (DESIGN CHOICE, assumption 187). -/
def fdbDataWord (e : FdbEntry) : Word :=
  w32 (0x80000000 + b2n e.static * 0x40000000 + plotOf e.node % 8 * 0x1000000 + (if e.node < 256 then e.node else 256))

/-- READ. -/
def State.fdbRead (s : State) : State :=
  s.fdbStart (fun s =>
    if s.fdbBadKey then (3, s)
    else match s.fdbAt (fdbKey s.fdbKeyVid s.fdbKeyMac) with
      | some e => (0, s.setR R.FAB_FDB_DATA.reg (fdbDataWord e))
      | none => (1, s))
/-- WRITE_STATIC: a dynamic entry turns static in place; a full bucket refuses. -/
def State.fdbWriteStatic (s : State) : State :=
  s.fdbStart (fun s =>
    let k := fdbKey s.fdbKeyVid s.fdbKeyMac
    if s.fdbBadKey then (3, s)
    else if (s.fdbAt k).isNone && s.fdbFull s.fdbKeyVid s.fdbKeyMac then (2, s)
    else (0, s.setFdb k (some ⟨s.f R.FAB_FDB_DATA.PORT, true, s.opTotal⟩)))
/-- DELETE. -/
def State.fdbDelete (s : State) : State :=
  s.fdbStart (fun s =>
    let k := fdbKey s.fdbKeyVid s.fdbKeyMac
    if s.fdbBadKey then (3, s) else if (s.fdbAt k).isNone then (1, s) else (0, s.setFdb k none))
/-- FLUSH_PORT, FLUSH_VLAN and FLUSH_ALL. -/
def State.fdbFlushPort (s : State) : State :=
  s.fdbStart (fun s => (0, s.fdbFlush (fun _ e => e.node == s.f R.FAB_FDB_DATA.PORT)))
def State.fdbFlushVlan (s : State) : State := s.fdbStart (fun s => (0, s.fdbFlush (fun k _ => fdbVid k == s.fdbKeyVid)))
def State.fdbFlushAll (s : State) : State := s.fdbStart (fun s => (0, s.fdbFlush (fun _ _ => true)))

/-- FAB_FDB_CMD with a code. -/
def State.fdbCmd (s : State) : Nat → State
  | 1 => s.fdbRead | 2 => s.fdbWriteStatic | 3 => s.fdbDelete | 4 => s.fdbFlushPort | 5 => s.fdbFlushVlan
  | 6 => s.fdbFlushAll | _ => s

/-- The command in progress ends. -/
def State.fdbDone (s : State) : State :=
  match s.fab.fdbResult with
  | some r => ((s.setF R.FAB_FDB_STATUS.BUSY 0).setF R.FAB_FDB_STATUS.RESULT r).modFab (fun b => { b with fdbResult := none })
  | none => s

/-- FDB_READ. -/
def execFdbRead (s : State) : Res := .next s.fdbRead
/-- FDB_WRITE_STATIC. -/
def execFdbWriteStatic (s : State) : Res := .next s.fdbWriteStatic
/-- FDB_DELETE. -/
def execFdbDelete (s : State) : Res := .next s.fdbDelete
/-- FDB_FLUSH_PORT. -/
def execFdbFlushPort (s : State) : Res := .next s.fdbFlushPort
/-- FDB_FLUSH_VLAN. -/
def execFdbFlushVlan (s : State) : Res := .next s.fdbFlushVlan
/-- FDB_FLUSH_ALL. -/
def execFdbFlushAll (s : State) : Res := .next s.fdbFlushAll
/-- FDB_COMMAND_DONE. -/
def execFdbCommandDone (s : State) : Res := .next s.fdbDone
/-- The ageing of a dynamic entry (R202): removed no earlier than FAB_FDB_AGE after its latest refresh. -/
def State.fdbAgeOut (s : State) (vid : Nat) (m : Mac) : State :=
  match s.fdbAt (fdbKey vid m) with
  | some e =>
    let age := s.f R.FAB_FDB_AGE.AGE
    if !e.static && age != 0 && decide (e.stamp + age * secTicks ≤ s.opTotal) then s.setFdb (fdbKey vid m) none else s
  | none => s
/-- FDB_AGE_OUT. -/
def execFdbAgeOut (vid : BitVec 12) (m : Mac) (s : State) : Res := .next (s.fdbAgeOut vid.toNat m)

/-- A write of FAB_ACCT_QUOTA (R238). -/
def State.acctQuotaWrite (s : State) (p a v : Nat) : State :=
  let s := s.setF (R.FAB_ACCT_QUOTA.QUOTA p a) v
  if s.acctQuota p a ≤ s.acctUsed p a then (s.raise (E.FAB_BUF_EVT.QUOTA_OVER p)).setF (R.FAB_ACCT_USED.OVER_NOW p a) 1
  else s.setF (R.FAB_ACCT_USED.OVER_NOW p a) 0
/-- ACCT_QUOTA_WRITE: plot, account, quota. -/
def execAcctQuotaWrite (p : Fin 8) (a : Fin 264) (v : BitVec 17) (s : State) : Res := .next (s.acctQuotaWrite p a v.toNat)

end Sys2Proof.Machine
end

