-- ==== Sys2Proof/Machine/Ghost.lean ====
section
/-! DEFINITION. Ghost units (R340, R341) and the way of endpoint frames into the intake (R57, R568). -/
namespace Sys2Proof.Machine
open Sys2Proof

/-- The capacity of the ghost list. -/
def ghostCap : Nat := 8192

/-- Keep SYS_GHOST_USED. -/
def State.ghostUsed (s : State) : State := s.setF R.SYS_GHOST_USED.USED s.pair.ghosts.length

/-- Add a ghost entry; a full list evicts its oldest (R340). -/
def State.ghostAdd (s : State) (eui : Eui) (slot safe : Nat) : State :=
  let g : Ghost := ⟨eui, slot, safe, none, none⟩
  if s.pair.ghosts.length < ghostCap then ({ s with pair := { s.pair with ghosts := s.pair.ghosts ++ [g] } }).ghostUsed
  else ({ s with pair := { s.pair with ghosts := s.pair.ghosts.drop 1 ++ [g] } }).raise E.SYS_PAIR_EVT.GHOST_EVICT

/-- A unit bound again to a slot leaves the list (R340). -/
def State.ghostBind (s : State) (eui : Eui) : State :=
  ({ s with pair := { s.pair with ghosts := s.pair.ghosts.filter (fun g => g.eui ≠ eui) } }).ghostUsed

/-- The position of the ghost entry of a unit. -/
def State.ghostFind (s : State) (eui : Eui) : Option Nat := s.pair.ghosts.findIdx? (fun g => g.eui = eui)

/-- Whether `sec` seconds of operating time have passed since an instant of it in ticks. -/
def State.passed (s : State) (t : Option Nat) (sec : Nat) : Bool :=
  match t with
  | none => true
  | some n => decide (n + sec * secTicks ≤ s.opTotal)

/-- Whether a ghost's former slot is an endpoint's whose record is valid. -/
def State.ghostSlot (s : State) (g : Ghost) : Bool := decide (g.slot < nEndpoints) && s.epValid g.slot

/-- Replace ghost entry `i`. -/
def State.setGhost (s : State) (i : Nat) (g : Ghost) : State := { s with pair := { s.pair with ghosts := s.pair.ghosts.set i g } }
/-- A frame from ghost entry `i` is noted (R341): GHOST, GHOST_SEEN in the slot's record when that is valid, the record at most
once in 60 s. -/
def State.ghostSeen (s : State) (i : Nat) : State :=
  match s.pair.ghosts[i]? with
  | none => s
  | some g =>
    let s := s.raise E.SYS_PAIR_EVT.GHOST
    let s := if s.ghostSlot g then s.setEp g.slot EP.GHOST_SEEN 1 else s
    if s.passed g.recorded 60 then
      (s.record 0x0F04 1 (g.slot % 65536) [lo32 g.eui, hi32 g.eui, w32 g.slot]).setGhost i { g with recorded := some s.opTotal }
    else s
/-- RETIRE goes to the unit of ghost entry `i` at most once in 10 s, with RETIRED in the slot's record, valid or not (R341).
`send`: how a body goes to the unit on the path by which its frame came. RETIRE has no handle and asks no reply (R116; DEDUCED,
assumption 142). -/
def State.ghostRetire (s : State) (i : Nat) (send : CmdBody → State → State) : State :=
  match s.pair.ghosts[i]? with
  | none => s
  | some g =>
    if s.passed g.retired 10 then
      let s := send (s.ownBody ccRetire g.eui g.safe 0 0) s
      (s.when (decide (g.slot < nEndpoints)) (·.setEp g.slot EP.RETIRED 1)).setGhost i { g with retired := some s.opTotal }
    else s
/-- A frame from ghost entry `i` (R341). -/
def State.ghost (s : State) (i : Nat) (send : CmdBody → State → State) : State := (s.ghostSeen i).ghostRetire i send

/-- An EVENT with its source record, or a ghost, or a source without a valid record (R57, R341, R568), with its ingress time
and step epoch (R58). -/
def State.fieldEvent (s : State) (src : Option Nat) (b : EvBody) (send : CmdBody → State → State) (t : Stamp) (step : Nat) : State :=
  match src with
  | some i => s.endpointEvent i b.kind b.p5 b.p6 b.p7 t step
  | none =>
    match s.ghostFind b.eui with
    | some g => s.ghost g send
    | none => s.unknownEvent b.kind b.p5 b.p6 b.p7 t step

/-- A JOIN of the unit `eui` at an address of a path (R60): the event of its record when one matches, a ghost, or an event
from a source without a valid record (R57, R341; DEDUCED, assumption 125). -/
def State.joinEvent (s : State) (src : Option Nat) (eui : Eui) (path : Nat) (addr : Word) (send : CmdBody → State → State) (t : Stamp)
    (step : Nat) : State :=
  s.fieldEvent src ⟨eui, kJoin, lo32 eui, hi32 eui, joinWord path addr⟩ send t step

/-- A REPLY that arrived by `path` with its source record (R163, R341). One from a source without a valid record matches no
handle on path 0 (R568); on the other paths R163 asks for no record. -/
def State.fieldReply (s : State) (src : Option Nat) (r : Reply) (path ring : Nat) (send : CmdBody → State → State) (t : Stamp)
    (step : Nat) : State :=
  match src with
  | some _ => s.reply r path ring t step
  | none =>
    match s.ghostFind r.eui with
    | some g => s.ghost g send
    | none => if path = 0 then s.staleReply r.handle else s.reply r path ring t step

end Sys2Proof.Machine
end

