-- ==== Sys2Proof/Machine/Dio.lean ====
section
/-! DEFINITION. The field I/O channels (R459–R462): accepted inputs, commanded outputs, diagnostics. -/
namespace Sys2Proof.Machine
open Sys2Proof

/-- Whether channel `n` is an enabled input, or an enabled output. -/
def State.dioIn (s : State) (n : Nat) : Bool := s.on (R.DIO_CH_CFG.EN n) && !s.on (R.DIO_CH_CFG.DIR n)
def State.dioOutCh (s : State) (n : Nat) : Bool := s.on (R.DIO_CH_CFG.EN n) && s.on (R.DIO_CH_CFG.DIR n)

/-- The lead channel of the paralleled group that channel `n` belongs to; `n` itself outside a group (R461). -/
def State.dioLead (s : State) (n : Nat) : Nat :=
  ((List.range n).find? (fun l => s.dioOutCh l && decide (n ≤ l + s.f (R.DIO_CH_CFG.PAR l)))).getD n

/-- The channels of the group whose lead is channel `l` (R461). -/
def State.dioGroup (s : State) (l : Nat) : List Nat := rangeFrom l (s.f (R.DIO_CH_CFG.PAR l) + 1)

/-- A 16-bit mask of the channels below `n` that satisfy `f`. -/
def maskOf (n : Nat) (f : Nat → Bool) : Nat := (List.range n).foldl (fun a i => if f i then a + 2 ^ i else a) 0

/-- Whether the module drives field outputs: ACTIVE, CLAIMING or SOLO (R460). -/
def State.lightRole (s : State) : Bool := s.role == rolePairActive || s.role == roleClaiming || s.role == roleSolo

/-- Whether an overload holds a channel off: its bit is set, and no retry has switched the output on again (R462). -/
def State.dioOver (s : State) (n : Nat) : Bool :=
  (s.f R.DIO_DIAG0.OVERLOAD_NOW).testBit n && s.ind.retry.all (fun e => e.1 != n)
/-- Whether an output is held off by a diagnostic of any channel of its group (R461, R462). -/
def State.dioOff (s : State) (n : Nat) : Bool :=
  (s.dioGroup (s.dioLead n)).any (fun m => s.dioOver m || (s.f R.DIO_DIAG1.OVER_TEMP_NOW).testBit m) ||
    (s.f R.DIO_DIAG1.BANK_LOW_NOW).testBit (n / 4)

/-- The outputs as driven (R460, R462). -/
def State.dioDriven (s : State) : Nat :=
  if s.lightRole then
    maskOf 16 (fun n => s.dioOutCh (s.dioLead n) && (s.f R.DIO_OUT.OUT).testBit n && !s.dioOff n)
  else 0

/-- Drive the outputs as they now stand, when that differs from `was`. -/
def State.dioDrive (s : State) (was : Nat) : State := if s.dioDriven = was then s else s.send (.outputs s.dioDriven)

/-- DIO_OUT shows the lead's state in every member (R461). -/
def State.dioCopy (s : State) : State :=
  s.setF R.DIO_OUT.OUT (maskOf 16 (fun n =>
    let l := s.dioLead n
    (s.f R.DIO_OUT.OUT).testBit (if s.dioOutCh l then l else n)))

/-- DOUT (R460, R461, R121): the masked bits of output channels take their values; a lead carries its members, whose own
bits are ignored; an output switched off and then on leaves OVERLOAD when RETRY is 0 (R462). -/
def State.dout (s : State) (mask vals : Nat) : State :=
  let was := s.dioDriven
  let old := s.f R.DIO_OUT.OUT
  let new := maskOf 16 (fun n =>
    let l := s.dioLead n
    if s.dioOutCh l && mask.testBit l then vals.testBit l else old.testBit n)
  let ovl := s.f R.DIO_DIAG0.OVERLOAD_NOW
  let ovl' := maskOf 16 (fun n =>
    ovl.testBit n && !(!s.on (R.DIO_CH_CFG.RETRY (s.dioLead n)) && !old.testBit n && new.testBit n))
  ((s.setF R.DIO_OUT.OUT new).setF R.DIO_DIAG0.OVERLOAD_NOW ovl').dioDrive was

/-- Input changes accepted in one access cycle (R459): DIO_IN takes them and one DIO event carries them. Word 1 names
one of the changed inputs; which, the spec does not say when there are several (assumption 17). An output channel's
sensed bit changes without an event. A bank whose supply is low reads 0 (R462). -/
def State.dioAccept (s : State) (chans vals : Nat) : State :=
  let old := s.f R.DIO_IN.IN
  let ok := fun n => s.on (R.DIO_CH_CFG.EN n) && chans.testBit n &&
    !(s.dioIn n && (s.f R.DIO_DIAG1.BANK_LOW_NOW).testBit (n / 4)) && (vals.testBit n != old.testBit n)
  let new := maskOf 16 (fun n => if ok n then vals.testBit n else old.testBit n)
  let changed := (List.range 16).filter (fun n => ok n && s.dioIn n)
  let s := s.setF R.DIO_IN.IN new
  match changed with
  | [] => s
  | c :: cs =>
    let r := s.free
    let lead := if cs = [] then c else changed.getD (r.1 % changed.length) c
    let s := if cs = [] then s else r.2
    s.offerEvent (s.f R.FE_STEER.DIO) ⟨kDio, false, false, s.stepEpoch, 0, lead, s.now, w32 new, 0, 0⟩

/-- A DIO_FAULT record of channel `n` with the diagnostic's bit in DIO_EVT (R462, R495). -/
def State.dioFault (s : State) (e : Evt) (n : Nat) : State := (s.raise e).record 0x0A01 2 n [w32 (2 ^ e.bit)]

/-- Set or clear the bits of channel `n`'s group in a diagnostic field (R461). -/
def State.dioMark (s : State) (x : Fld) (n : Nat) (v : Bool) : State :=
  foldS (s.dioGroup (s.dioLead n)) (fun c s => s.setFBit x c v) s

/-- A diagnostic that switches its group off. -/
def State.dioTrip (s : State) (x : Fld) (e : Evt) (n : Nat) : State :=
  if s.dioOutCh (s.dioLead n) then
    let was := s.dioDriven
    ((s.dioMark x n true).dioFault e n).dioDrive was
  else s

/-- Clear a diagnostic of channel `n`'s group; its outputs follow DIO_OUT again. -/
def State.dioUntrip (s : State) (x : Fld) (n : Nat) : State :=
  let was := s.dioDriven
  (s.dioMark x n false).dioDrive was

/-- DIO inputs accepted: a mask of channels and their states. -/
def execDioInputAccept (chans vals : BitVec 16) (s : State) : Res := .next (s.dioAccept chans.toNat vals.toNat)
/-- The channels of a group are no more, or from now on, on a retry. -/
def State.retryOff (s : State) (g : List Nat) : State :=
  { s with ind := { s.ind with retry := s.ind.retry.filter (fun e => !g.contains e.1) } }
def State.retryOn (s : State) (g : List Nat) : State :=
  { s with ind := { s.ind with retry := g.map (fun m => (m, s.power.opTicks)) ++ s.ind.retry } }
/-- OVERLOAD: on a group that is on a retry it recurs. -/
def State.overload (s : State) (n : Nat) : State :=
  if s.dioOutCh (s.dioLead n) then
    ((((s.retryOff (s.dioGroup (s.dioLead n))).dioMark R.DIO_DIAG0.OVERLOAD_NOW n true).dioFault E.DIO_EVT.OVERLOAD n).dioDrive
      s.dioDriven)
  else s
/-- OVERLOAD on output channel `n` (R462). -/
def execOverload (n : Fin 16) (s : State) : Res := .next (s.overload n)
/-- The retry of R462 on channel `n`, 1 s after an overload with RETRY = 1: the output is on again, its bit still set. -/
def State.overRetry (s : State) (n : Nat) : State :=
  if s.on (R.DIO_CH_CFG.RETRY (s.dioLead n)) && s.dioOver n then
    (s.retryOn (s.dioGroup (s.dioLead n))).dioDrive s.dioDriven
  else s
def execOverloadRetry (n : Fin 16) (s : State) : Res := .next (s.overRetry n)
/-- The bits of channels on a retry clear when no overload has recurred within 1 ms of operating time (R462). -/
def State.dioSettle (s : State) : State :=
  let l := (s.ind.retry.filter (fun e => decide (e.2 + 625000 ≤ s.power.opTicks))).map (fun e => e.1)
  if l.isEmpty then s else (foldS l (fun m s => s.setFBit R.DIO_DIAG0.OVERLOAD_NOW m false) s).retryOff l
/-- OVER_TEMP on output channel `n`. -/
def execOverTemp (n : Fin 16) (s : State) : Res := .next (s.dioTrip R.DIO_DIAG1.OVER_TEMP_NOW E.DIO_EVT.OVER_TEMP n)
/-- The driver of channel `n` has cooled by 15 K. -/
def execOverTempClear (n : Fin 16) (s : State) : Res := .next (s.dioUntrip R.DIO_DIAG1.OVER_TEMP_NOW n)
/-- OPEN_WIRE on channel `n`, with OW_EN = 1. -/
def execOpenWire (n : Fin 16) (s : State) : Res :=
  .next (if s.dioOutCh (s.dioLead n) && s.on (R.DIO_CH_CFG.OW_EN (s.dioLead n)) then
    (s.dioMark R.DIO_DIAG0.OPEN_WIRE_NOW n true).dioFault E.DIO_EVT.OPEN_WIRE n else s)
/-- The open-wire condition of channel `n` has been absent for 100 ms. -/
def execOpenWireClear (n : Fin 16) (s : State) : Res := .next (s.dioMark R.DIO_DIAG0.OPEN_WIRE_NOW n false)

/-- BANK_LOW on bank `b` (R462): its inputs read 0 and its outputs are off. The record names the bank's first
channel. -/
def State.bankLow (s : State) (b : Nat) : State :=
  let was := s.dioDriven
  let s := s.setFBit R.DIO_DIAG1.BANK_LOW_NOW b true
  let s := foldS (rangeFrom (4 * b) 4) (fun n s => if s.dioIn n then s.setFBit R.DIO_IN.IN n false else s) s
  (s.dioFault E.DIO_EVT.BANK_LOW (4 * b)).dioDrive was
/-- The supply of bank `b` falls below 18 V for 1 ms. -/
def execBankLow (b : Fin 4) (s : State) : Res := .next (s.bankLow b)
/-- The supply of bank `b` has been at or above 19 V for 10 ms. -/
def execBankLowClear (b : Fin 4) (s : State) : Res :=
  .next ((s.setFBit R.DIO_DIAG1.BANK_LOW_NOW b false).dioDrive s.dioDriven)

end Sys2Proof.Machine
end

