-- ==== Sys2Proof/Machine/Operands.lean ====
section
/-! DEFINITION. Operands of ZHN instructions: the register files of an engine (R88, R89), local-store and field-memory
operands (R100, R101), the writer rules (R47, R51–R54, R56, R102), and cursors (R104–R106). -/
namespace Sys2Proof.Machine
open Sys2Proof

/-! ## Register files -/

/-- w[i]; w0 reads 0. -/
def State.w (s : State) (p i : Nat) : DWord := if i = 0 then 0 else sget zeroDW (s.eng p).w i
/-- Write w[i]; a write to w0 is discarded (R88). -/
def State.setW (s : State) (p i : Nat) (v : DWord) : State :=
  if i = 0 then s else s.modEng p (fun e => { e with w := sset zeroDW e.w i v })
/-- p[i]; p0 reads 1. -/
def State.p (s : State) (p i : Nat) : Bool := if i = 0 then true else sget falseP (s.eng p).p i
/-- Write p[i]; a write to p0 is discarded (R88). -/
def State.setP (s : State) (p i : Nat) (v : Bool) : State :=
  if i = 0 then s else s.modEng p (fun e => { e with p := sset falseP e.p i v })
/-- e[i]. -/
def State.e (s : State) (p i : Nat) : BitVec 25 := sget zeroE (s.eng p).e i
/-- Write e[i]. -/
def State.setE (s : State) (p i : Nat) (v : BitVec 25) : State := s.modEng p (fun e => { e with e := sset zeroE e.e i v })
/-- t[i]. -/
def State.t (s : State) (p i : Nat) : TReg := sget zeroT (s.eng p).t i
/-- Write t[i]. -/
def State.setT (s : State) (p i : Nat) (v : TReg) : State := s.modEng p (fun e => { e with t := sset zeroT e.t i v })

/-- The normalised form of a time value (R110). -/
def normStamp (t : Stamp) : Stamp := unitsStamp (stampUnits t)

/-! ## Outcome of an instruction -/

/-- What an instruction that executes does: it completes with a cost in tokens, the next PC (`none`: the next word), the
field-memory words it loaded (`false`) or stored (`true`), and the state; it halts the engine (HALT); it blocks; or it
raises an exception with the address for FE_EXC_ADDR. -/
inductive ZOut where
  | done (cost : Nat) (npc : Option Nat) (touched : List (Nat × Bool)) (s : State)
  | halt (s : State)
  | block (b : Blocked) (s : State)
  | exc (code : Nat) (addr : Word)

/-- An instruction that completes and goes on with the next word. -/
def zDone (cost : Nat) (s : State) : ZOut := .done cost none [] s

/-! ## Local store (R100, R101) -/

/-- An address from a 64-bit value: bits [17:0] (R101). -/
def lsAddr (v : DWord) : Nat := v.toNat % 0x40000

/-- `n` bytes of local store, lowest first. -/
def State.lsBytes (s : State) (p a n : Nat) : List Byte := (List.range n).map (fun k => (s.eng p).lsByte (a + k))
/-- A word of local store. -/
def State.lsW (s : State) (p a : Nat) : Word := (s.eng p).lsWord a
/-- Store bytes in local store. -/
def State.lsStore (s : State) (p a : Nat) (l : List Byte) : State := s.modEng p (fun e => e.lsPut a l)

/-- The signed 6-bit offset of R100 in bytes for a size code. -/
def memOff (size off6 : Nat) : DWord := BitVec.ofInt 64 (toSigned 6 off6 * (2 ^ size : Nat))

/-! ## Writer rules -/

/-- The bits of an endpoint record's word that an engine may write (R47, writer E). -/
def epWriterMask (w : Nat) : Nat :=
  if w = 0x20 then 0xFF43 else if 0x60 ≤ w && w < 0x80 then 0xFFFFFFFF else 0

/-- The bits of a row record's word that an engine may write (R51, R52). -/
def rowWriterMask (w : Nat) : Nat :=
  if 0x20 ≤ w && w < 0x60 then 0xFFFFFFFF else if 0x80 ≤ w && w < 0xC0 then 0xFF else 0

/-- The bits of the field-memory word at offset `a` that logical engine `l` may change (R47, R51, R52, R54, R56, R102). -/
def storeMask (l a : Nat) : Nat :=
  let a := a / 4 * 4
  if a < 0x1000000 then epWriterMask (a % 128)
  else if a < 0x1800000 then rowWriterMask (a % 256)
  else if a < 0x1804000 then 0
  else if a < 0x2000000 then 0xFFFFFFFF
  else if a < 0x2800000 then (if (a - 0x2000000) / 0x80000 = l then 0xFFFFFFFF else 0)
  else if a < 0x3000000 then 0
  else 0xFFFFFFFF

/-- Whether a store by logical engine `l` that turns the word at `a` from `old` into `new` changes a bit it may not
(R102). -/
def storeRo (l a : Nat) (old new : Word) : Bool := ((old ^^^ new).toNat &&& (0xFFFFFFFF - storeMask l a)) != 0

/-! ## Cursors -/

/-- The index of a cursor. -/
def curIdx (c : BitVec 25) : Nat := c.toNat % 131072
/-- The generation of a cursor. -/
def curGen (c : BitVec 25) : Nat := c.toNat / 131072
/-- A cursor from an index with the record's current GEN. -/
def State.curTo (s : State) (i : Nat) : BitVec 25 := BitVec.ofNat 25 (cursorOf (s.ep i EP.GEN) i)
/-- STALE_CURSOR: the cursor's generation differs from the record's GEN. -/
def State.stale (s : State) (c : BitVec 25) : Bool := s.ep (curIdx c) EP.GEN != curGen c

/-- FE_EXC_ADDR for a field-memory access. -/
def excAt (a : Nat) : Word := w32 a

end Sys2Proof.Machine
end

