-- ==== Sys2Proof/Machine/Flags.lean ====
section
/-! DEFINITION. Predicate results (R98, R111), the results of s5–s8 and s14 (R89), the retirement of an instruction, and
the issue of one (R84–R87, R93, R94, breakpoints and watchpoints of R68). ZHN has no condition flags; predicates and
these status registers take their place. -/
namespace Sys2Proof.Machine
open Sys2Proof

/-! ## Comparisons -/

/-- The condition of CMP with code `c` (R98). -/
def cmpCond (c : Nat) (a b : DWord) : Bool :=
  match c with
  | 0 => a == b
  | 1 => a != b
  | 2 => a.slt b
  | 3 => !a.slt b
  | 4 => a.ult b
  | 5 => !a.ult b
  | _ => (a &&& b) != 0

/-- The condition of CMPI with code `c` against the 10-bit immediate (R98). -/
def cmpiCond (c : Nat) (a : DWord) (imm : Nat) : Bool :=
  let sx : DWord := BitVec.ofInt 64 (toSigned 10 imm)
  match c with
  | 0 => a == sx
  | 1 => a.slt sx
  | 2 => a.ult sx
  | _ => (a &&& BitVec.ofNat 64 (imm % 1024)) != 0

/-- The operation of PLOG with code `c` (R98). -/
def plogOp (c : Nat) (a b : Bool) : Bool :=
  match c with
  | 0 => a && b
  | 1 => a || b
  | 2 => a != b
  | 3 => a && !b
  | 4 => !a
  | 5 => true
  | _ => false

/-- Write pd with the result and, when pn is not 0, pn with its complement (R98). -/
def State.setPredPair (s : State) (p pd pn : Nat) (v : Bool) : State :=
  let s := s.setP p pd v
  if pn = 0 then s else s.setP p pn (!v)

/-! ## Status registers (R89) -/

/-- s5 after a WAIT: events left, saturating, and TAKEN. -/
def State.setS5 (s : State) (p left : Nat) (taken : Bool) : State :=
  s.modEng p (fun e => { e with s5 := BitVec.ofNat 64 ((if left < 0xFFFF then left else 0xFFFF) * 65536 + b2n taken) })
/-- s6 after an EMIT. -/
def State.setS6 (s : State) (p r : Nat) : State := s.modEng p (fun e => { e with s6 := BitVec.ofNat 64 r })
/-- s7 after STG, CHK, APL or SDROP on context `c`: RESULT, CTX and STATE. -/
def State.setS7 (s : State) (p res c : Nat) : State :=
  let st := ctxCode (s.ctx c).st
  s.modEng p (fun e => { e with s7 := BitVec.ofNat 64 (res * 0x1000000 + c % 8 * 65536 + st) })
/-- s7 when there is no context to act on. -/
def State.setS7none (s : State) (p res : Nat) : State := s.modEng p (fun e => { e with s7 := BitVec.ofNat 64 (res * 0x1000000) })
/-- s8 after a failed CHK on context `c`. -/
def State.setS8 (s : State) (p c : Nat) : State :=
  let x := s.ctx c
  s.modEng p (fun e => { e with s8 := BitVec.ofNat 64 (x.failRule * 0x1000000 + b2n x.failOther * 65536 + x.failIndex) })
/-- s14 after a SCAN that wrote 0. -/
def State.setS14 (s : State) (p r : Nat) : State := s.modEng p (fun e => { e with s14 := BitVec.ofNat 64 r })

/-! ## Issue -/

/-- Whether the engine runs and may issue: ACTIVE, RUN, not blocked, not held (R68, R78). -/
def State.issuing (s : State) (p : Nat) : Bool :=
  s.engRole p == roleActive && s.engState p == stRun && (s.eng p).blocked.isNone && !s.fe.held

/-- Whether an enabled breakpoint stands at the PC while DEBUG = 1 (R66, R68). -/
def State.breakHere (s : State) (p : Nat) : Bool :=
  s.debug p && (List.range 4).any (fun b => s.on (R.FE_BRK.EN p b) && s.f (R.FE_BRK.ADDR p b) == s.pc p)

/-- Halt on a breakpoint or watchpoint (R68). -/
def State.breakHalt (s : State) (p : Nat) : State :=
  ((s.modEng p (fun e => { e with stepping := false, passBrk := false })).setEngState p stHalted).raise (E.FE_EVT.BRK p)

/-- Whether the watchpoint matches one of the words an instruction touched (R66, R68). -/
def State.watchHit (s : State) (p : Nat) (touched : List (Nat × Bool)) : Bool :=
  s.debug p && s.on (R.FE_WATCH.EN p) && touched.any (fun x => x.1 == s.f (R.FE_WATCH.WORD p) &&
    (if x.2 then s.on (R.FE_WATCH.ON_WRITE p) else s.on (R.FE_WATCH.ON_READ p)))

/-- An instruction retires: tokens, instruction count, next PC; a STEP or a HALT that waited for it halts the engine
(R84, R87, R89, R68). An instruction whose predicate is 0 counts as retired (DEDUCED, assumption 16). -/
def State.retire (s : State) (p cost npc : Nat) (touched : List (Nat × Bool)) : State :=
  let stepping := (s.eng p).stepping
  let s := (s.modEng p (fun e => { e with
    tokens := e.tokens + BitVec.ofNat 64 cost, insns := e.insns + 1, blocked := none, passBrk := false,
    stepping := false })).setPc p npc
  if s.watchHit p touched then s.breakHalt p
  else if stepping then s.setEngState p stHalted else s

/-- The cost of HALT. -/
def haltCost : Nat := 1

/-- What follows an instruction's outcome. `seq`: the instruction has a next sequential PC, which raises PC_RANGE at or
above CODE_WORDS, after ILLEGAL and before every other cause (R93, R94). -/
def State.zhnEnd (s : State) (p : Nat) (seq : Bool) (o : ZOut) : State :=
  let n := s.pc p + 1
  let past := seq && decide ((s.eng p).codeWords ≤ n)
  match o with
  | .exc c a => if past && c != xIllegal then s.progExc p xPcRange 0 else s.progExc p c a
  | .done cost npc touched s' => if past then s.progExc p xPcRange 0 else s'.retire p cost (npc.getD n) touched
  | .halt s' =>
    if past then s.progExc p xPcRange 0
    else (((s'.retire p haltCost n []).setEngState p stHalted).record 0x0602 0 p [w32 n])
  | .block b s' =>
    if past then s.progExc p xPcRange 0
    else
      let s := s'.modEng p (fun e => { e with blocked := some b, passBrk := false })
      match b with
      | .wait _ _ _ => s.setEngState p stWait
      | _ => s

/-- Physical engine `p` issues an instruction with predicate selector `ps` and effect `f` (R84–R87, R93, R94). An engine
that cannot issue does nothing. One whose PC already lies at or above CODE_WORDS raises PC_RANGE before its predicate and
its breakpoints are looked at (DESIGN CHOICE, assumption 134). After a predicated-off instruction in word 0xFFFF the 16-bit PC is 0
(DESIGN CHOICE, assumption 192). -/
def State.zhn (s : State) (p ps : Nat) (seq : Bool) (f : State → ZOut) : State :=
  if !s.issuing p then s
  else if (s.eng p).codeWords ≤ s.pc p then s.progExc p xPcRange 0
  else if s.breakHere p && !(s.eng p).passBrk then s.breakHalt p
  else if s.p p ps then s.zhnEnd p seq (f s)
  else s.retire p 1 (s.pc p + 1) []

/-- An enabled breakpoint at the PC halts a running engine before the instruction executes (R68). -/
def execBreakpointHalt (p : Fin 18) (s : State) : Res :=
  .next (if s.issuing p && s.breakHere p && !(s.eng p).passBrk then s.breakHalt p else s)

end Sys2Proof.Machine
end

