-- ==== Sys2Proof/Machine/ZhnAlu.lean ====
section
/-! DEFINITION. ZHN integer, logic, immediate, compare, predicate and branch instructions (R95–R99), and RET, JR and
CALLR (R121). Each instruction is one function from operands to its outcome, and one meaning that issues it on a
physical engine under a predicate selector. -/
namespace Sys2Proof.Machine
open Sys2Proof

/-- Write w[rd] and complete. -/
def State.wDone (s : State) (p cost rd : Nat) (v : DWord) : ZOut := zDone cost (s.setW p rd v)

/-- The number of 1 bits among the low `n` bits. -/
def popc : Nat → DWord → Nat
  | 0, _ => 0
  | n + 1, v => popc n v + b2n (v.getLsbD n)

/-- The number of 0 bits from bit `n − 1` down to the first 1 bit. -/
def clz : Nat → DWord → Nat
  | 0, _ => 0
  | n + 1, v => if v.getLsbD n then 0 else clz n v + 1

/-- The number of 0 bits from bit `64 − n` up to the first 1 bit. -/
def ctz : Nat → DWord → Nat
  | 0, _ => 0
  | n + 1, v => if v.getLsbD (63 - n) then 0 else ctz n v + 1

/-- Signed minimum and maximum. -/
def smin (a b : DWord) : DWord := if a.slt b then a else b
def smax (a b : DWord) : DWord := if a.slt b then b else a

/-- Sign extension and zero extension of a 16-bit immediate (R97). -/
def sext16 (n : Nat) : DWord := BitVec.ofInt 64 (toSigned 16 n)
def zext16 (n : Nat) : DWord := BitVec.ofNat 64 (n % 65536)

/-- Signed quotient, truncated towards zero; all ones for a division by zero (R96). -/
def divS (a b : DWord) : DWord := if b = 0 then BitVec.allOnes 64 else BitVec.ofInt 64 (a.toInt.tdiv b.toInt)
/-- Signed remainder with the sign of `a`; `a` for a division by zero (R96). -/
def remS (a b : DWord) : DWord := if b = 0 then a else BitVec.ofInt 64 (a.toInt.tmod b.toInt)
/-- Unsigned quotient and remainder (R96). -/
def divU (a b : DWord) : DWord := if b = 0 then BitVec.allOnes 64 else BitVec.ofNat 64 (a.toNat / b.toNat)
def remU (a b : DWord) : DWord := if b = 0 then a else BitVec.ofNat 64 (a.toNat % b.toNat)

/-- ADD (R95, R96): wd = wa + wb. -/
def zAdd (p rd ra rb : Nat) (s : State) : ZOut :=
  let a := s.w p ra
  let b := s.w p rb
  s.wDone p 1 rd (a + b)
/-- An engine issues ADD. -/
def execAdd (p : Fin 18) (ps : Fin 8) (rd ra rb : Fin 32) (s : State) : Res :=
  .next (s.zhn p ps true (zAdd p rd ra rb))

/-- SUB (R95, R96): wd = wa − wb. -/
def zSub (p rd ra rb : Nat) (s : State) : ZOut :=
  let a := s.w p ra
  let b := s.w p rb
  s.wDone p 1 rd (a - b)
/-- An engine issues SUB. -/
def execSub (p : Fin 18) (ps : Fin 8) (rd ra rb : Fin 32) (s : State) : Res :=
  .next (s.zhn p ps true (zSub p rd ra rb))

/-- AND (R95, R96): wd = wa & wb. -/
def zAnd (p rd ra rb : Nat) (s : State) : ZOut :=
  let a := s.w p ra
  let b := s.w p rb
  s.wDone p 1 rd (a &&& b)
/-- An engine issues AND. -/
def execAnd (p : Fin 18) (ps : Fin 8) (rd ra rb : Fin 32) (s : State) : Res :=
  .next (s.zhn p ps true (zAnd p rd ra rb))

/-- OR (R95, R96): wd = wa or wb. -/
def zOr (p rd ra rb : Nat) (s : State) : ZOut :=
  let a := s.w p ra
  let b := s.w p rb
  s.wDone p 1 rd (a ||| b)
/-- An engine issues OR. -/
def execOr (p : Fin 18) (ps : Fin 8) (rd ra rb : Fin 32) (s : State) : Res :=
  .next (s.zhn p ps true (zOr p rd ra rb))

/-- XOR (R95, R96): wd = wa exclusive-or wb. -/
def zXor (p rd ra rb : Nat) (s : State) : ZOut :=
  let a := s.w p ra
  let b := s.w p rb
  s.wDone p 1 rd (a ^^^ b)
/-- An engine issues XOR. -/
def execXor (p : Fin 18) (ps : Fin 8) (rd ra rb : Fin 32) (s : State) : Res :=
  .next (s.zhn p ps true (zXor p rd ra rb))

/-- ANDN (R95, R96): wd = wa & ~wb. -/
def zAndn (p rd ra rb : Nat) (s : State) : ZOut :=
  let a := s.w p ra
  let b := s.w p rb
  s.wDone p 1 rd (a &&& ~~~b)
/-- An engine issues ANDN. -/
def execAndn (p : Fin 18) (ps : Fin 8) (rd ra rb : Fin 32) (s : State) : Res :=
  .next (s.zhn p ps true (zAndn p rd ra rb))

/-- SLL (R95, R96): wd = wa << wb[5:0]. -/
def zSll (p rd ra rb : Nat) (s : State) : ZOut :=
  let a := s.w p ra
  let b := s.w p rb
  s.wDone p 1 rd (a <<< (b.toNat % 64))
/-- An engine issues SLL. -/
def execSll (p : Fin 18) (ps : Fin 8) (rd ra rb : Fin 32) (s : State) : Res :=
  .next (s.zhn p ps true (zSll p rd ra rb))

/-- SRL (R95, R96): logical right shift by wb[5:0]. -/
def zSrl (p rd ra rb : Nat) (s : State) : ZOut :=
  let a := s.w p ra
  let b := s.w p rb
  s.wDone p 1 rd (a >>> (b.toNat % 64))
/-- An engine issues SRL. -/
def execSrl (p : Fin 18) (ps : Fin 8) (rd ra rb : Fin 32) (s : State) : Res :=
  .next (s.zhn p ps true (zSrl p rd ra rb))

/-- SRA (R95, R96): arithmetic right shift by wb[5:0]. -/
def zSra (p rd ra rb : Nat) (s : State) : ZOut :=
  let a := s.w p ra
  let b := s.w p rb
  s.wDone p 1 rd (a.sshiftRight (b.toNat % 64))
/-- An engine issues SRA. -/
def execSra (p : Fin 18) (ps : Fin 8) (rd ra rb : Fin 32) (s : State) : Res :=
  .next (s.zhn p ps true (zSra p rd ra rb))

/-- MUL (R95, R96): low 64 bits of the product. -/
def zMul (p rd ra rb : Nat) (s : State) : ZOut :=
  let a := s.w p ra
  let b := s.w p rb
  s.wDone p 3 rd (a * b)
/-- An engine issues MUL. -/
def execMul (p : Fin 18) (ps : Fin 8) (rd ra rb : Fin 32) (s : State) : Res :=
  .next (s.zhn p ps true (zMul p rd ra rb))

/-- MULH (R95, R96): high 64 bits of the signed product. -/
def zMulh (p rd ra rb : Nat) (s : State) : ZOut :=
  let a := s.w p ra
  let b := s.w p rb
  s.wDone p 4 rd (BitVec.ofInt 64 (a.toInt * b.toInt / (2 ^ 64 : Nat)))
/-- An engine issues MULH. -/
def execMulh (p : Fin 18) (ps : Fin 8) (rd ra rb : Fin 32) (s : State) : Res :=
  .next (s.zhn p ps true (zMulh p rd ra rb))

/-- MULHU (R95, R96): high 64 bits of the unsigned product. -/
def zMulhu (p rd ra rb : Nat) (s : State) : ZOut :=
  let a := s.w p ra
  let b := s.w p rb
  s.wDone p 4 rd (BitVec.ofNat 64 (a.toNat * b.toNat / 2 ^ 64))
/-- An engine issues MULHU. -/
def execMulhu (p : Fin 18) (ps : Fin 8) (rd ra rb : Fin 32) (s : State) : Res :=
  .next (s.zhn p ps true (zMulhu p rd ra rb))

/-- DIV (R95, R96): signed quotient, truncated towards zero. -/
def zDiv (p rd ra rb : Nat) (s : State) : ZOut :=
  let a := s.w p ra
  let b := s.w p rb
  s.wDone p 34 rd (divS a b)
/-- An engine issues DIV. -/
def execDiv (p : Fin 18) (ps : Fin 8) (rd ra rb : Fin 32) (s : State) : Res :=
  .next (s.zhn p ps true (zDiv p rd ra rb))

/-- DIVU (R95, R96): unsigned quotient. -/
def zDivu (p rd ra rb : Nat) (s : State) : ZOut :=
  let a := s.w p ra
  let b := s.w p rb
  s.wDone p 34 rd (divU a b)
/-- An engine issues DIVU. -/
def execDivu (p : Fin 18) (ps : Fin 8) (rd ra rb : Fin 32) (s : State) : Res :=
  .next (s.zhn p ps true (zDivu p rd ra rb))

/-- REM (R95, R96): signed remainder. -/
def zRem (p rd ra rb : Nat) (s : State) : ZOut :=
  let a := s.w p ra
  let b := s.w p rb
  s.wDone p 34 rd (remS a b)
/-- An engine issues REM. -/
def execRem (p : Fin 18) (ps : Fin 8) (rd ra rb : Fin 32) (s : State) : Res :=
  .next (s.zhn p ps true (zRem p rd ra rb))

/-- REMU (R95, R96): unsigned remainder. -/
def zRemu (p rd ra rb : Nat) (s : State) : ZOut :=
  let a := s.w p ra
  let b := s.w p rb
  s.wDone p 34 rd (remU a b)
/-- An engine issues REMU. -/
def execRemu (p : Fin 18) (ps : Fin 8) (rd ra rb : Fin 32) (s : State) : Res :=
  .next (s.zhn p ps true (zRemu p rd ra rb))

/-- MIN (R95, R96): signed minimum. -/
def zMin (p rd ra rb : Nat) (s : State) : ZOut :=
  let a := s.w p ra
  let b := s.w p rb
  s.wDone p 1 rd (smin a b)
/-- An engine issues MIN. -/
def execMin (p : Fin 18) (ps : Fin 8) (rd ra rb : Fin 32) (s : State) : Res :=
  .next (s.zhn p ps true (zMin p rd ra rb))

/-- MAX (R95, R96): signed maximum. -/
def zMax (p rd ra rb : Nat) (s : State) : ZOut :=
  let a := s.w p ra
  let b := s.w p rb
  s.wDone p 1 rd (smax a b)
/-- An engine issues MAX. -/
def execMax (p : Fin 18) (ps : Fin 8) (rd ra rb : Fin 32) (s : State) : Res :=
  .next (s.zhn p ps true (zMax p rd ra rb))

/-- MINU (R95, R96): unsigned minimum. -/
def zMinu (p rd ra rb : Nat) (s : State) : ZOut :=
  let a := s.w p ra
  let b := s.w p rb
  s.wDone p 1 rd (if a.ult b then a else b)
/-- An engine issues MINU. -/
def execMinu (p : Fin 18) (ps : Fin 8) (rd ra rb : Fin 32) (s : State) : Res :=
  .next (s.zhn p ps true (zMinu p rd ra rb))

/-- MAXU (R95, R96): unsigned maximum. -/
def zMaxu (p rd ra rb : Nat) (s : State) : ZOut :=
  let a := s.w p ra
  let b := s.w p rb
  s.wDone p 1 rd (if a.ult b then b else a)
/-- An engine issues MAXU. -/
def execMaxu (p : Fin 18) (ps : Fin 8) (rd ra rb : Fin 32) (s : State) : Res :=
  .next (s.zhn p ps true (zMaxu p rd ra rb))

/-- CLAMP (R95, R96): wd = max(min(wd, whi), wlo), signed, with wlo = w[ra] and whi = w[rb]. -/
def zClamp (p rd ra rb : Nat) (s : State) : ZOut :=
  let a := s.w p ra
  let b := s.w p rb
  s.wDone p 1 rd (smax (smin (s.w p rd) b) a)
/-- An engine issues CLAMP. -/
def execClamp (p : Fin 18) (ps : Fin 8) (rd ra rb : Fin 32) (s : State) : Res :=
  .next (s.zhn p ps true (zClamp p rd ra rb))

/-- POPC (R95): number of 1 bits of wa. -/
def zPopc (p rd ra : Nat) (s : State) : ZOut :=
  let a := s.w p ra
  s.wDone p 1 rd (BitVec.ofNat 64 (popc 64 a))
/-- An engine issues POPC. -/
def execPopc (p : Fin 18) (ps : Fin 8) (rd ra : Fin 32) (s : State) : Res :=
  .next (s.zhn p ps true (zPopc p rd ra))

/-- CLZ (R95): leading zero bits of wa, 64 for 0. -/
def zClz (p rd ra : Nat) (s : State) : ZOut :=
  let a := s.w p ra
  s.wDone p 1 rd (BitVec.ofNat 64 (clz 64 a))
/-- An engine issues CLZ. -/
def execClz (p : Fin 18) (ps : Fin 8) (rd ra : Fin 32) (s : State) : Res :=
  .next (s.zhn p ps true (zClz p rd ra))

/-- CTZ (R95): trailing zero bits of wa, 64 for 0. -/
def zCtz (p rd ra : Nat) (s : State) : ZOut :=
  let a := s.w p ra
  s.wDone p 1 rd (BitVec.ofNat 64 (ctz 64 a))
/-- An engine issues CTZ. -/
def execCtz (p : Fin 18) (ps : Fin 8) (rd ra : Fin 32) (s : State) : Res :=
  .next (s.zhn p ps true (zCtz p rd ra))

/-! ## Immediates (R97) -/

/-- LI (R97): wd = sext(imm). -/
def zLi (p rd imm : Nat) (s : State) : ZOut := s.wDone p 1 rd (sext16 imm)
/-- An engine issues LI. -/
def execLi (p : Fin 18) (ps : Fin 8) (rd : Fin 32) (imm : BitVec 16) (s : State) : Res :=
  .next (s.zhn p ps true (zLi p rd imm.toNat))

/-- LIS (R97): wd = (wd << 16) or zext(imm). -/
def zLis (p rd imm : Nat) (s : State) : ZOut :=
  let d := s.w p rd
  s.wDone p 1 rd ((d <<< 16) ||| zext16 imm)
/-- An engine issues LIS. -/
def execLis (p : Fin 18) (ps : Fin 8) (rd : Fin 32) (imm : BitVec 16) (s : State) : Res :=
  .next (s.zhn p ps true (zLis p rd imm.toNat))

/-- ADDI (R97): wd = wd + sext(imm). -/
def zAddi (p rd imm : Nat) (s : State) : ZOut :=
  let d := s.w p rd
  s.wDone p 1 rd (d + sext16 imm)
/-- An engine issues ADDI. -/
def execAddi (p : Fin 18) (ps : Fin 8) (rd : Fin 32) (imm : BitVec 16) (s : State) : Res :=
  .next (s.zhn p ps true (zAddi p rd imm.toNat))

/-- ANDI (R97): wd = wd & zext(imm). -/
def zAndi (p rd imm : Nat) (s : State) : ZOut :=
  let d := s.w p rd
  s.wDone p 1 rd (d &&& zext16 imm)
/-- An engine issues ANDI. -/
def execAndi (p : Fin 18) (ps : Fin 8) (rd : Fin 32) (imm : BitVec 16) (s : State) : Res :=
  .next (s.zhn p ps true (zAndi p rd imm.toNat))

/-- ORI (R97): wd = wd or zext(imm). -/
def zOri (p rd imm : Nat) (s : State) : ZOut :=
  let d := s.w p rd
  s.wDone p 1 rd (d ||| zext16 imm)
/-- An engine issues ORI. -/
def execOri (p : Fin 18) (ps : Fin 8) (rd : Fin 32) (imm : BitVec 16) (s : State) : Res :=
  .next (s.zhn p ps true (zOri p rd imm.toNat))

/-- XORI (R97): wd = wd exclusive-or zext(imm). -/
def zXori (p rd imm : Nat) (s : State) : ZOut :=
  let d := s.w p rd
  s.wDone p 1 rd (d ^^^ zext16 imm)
/-- An engine issues XORI. -/
def execXori (p : Fin 18) (ps : Fin 8) (rd : Fin 32) (imm : BitVec 16) (s : State) : Res :=
  .next (s.zhn p ps true (zXori p rd imm.toNat))

/-- SLLI (R97): wd = wd << n. -/
def zSlli (p rd imm : Nat) (s : State) : ZOut :=
  let d := s.w p rd
  s.wDone p 1 rd (d <<< (imm % 64))
/-- An engine issues SLLI. -/
def execSlli (p : Fin 18) (ps : Fin 8) (rd : Fin 32) (imm : Fin 64) (s : State) : Res :=
  .next (s.zhn p ps true (zSlli p rd imm))

/-- SRLI (R97): logical right shift by n. -/
def zSrli (p rd imm : Nat) (s : State) : ZOut :=
  let d := s.w p rd
  s.wDone p 1 rd (d >>> (imm % 64))
/-- An engine issues SRLI. -/
def execSrli (p : Fin 18) (ps : Fin 8) (rd : Fin 32) (imm : Fin 64) (s : State) : Res :=
  .next (s.zhn p ps true (zSrli p rd imm))

/-- SRAI (R97): arithmetic right shift by n. -/
def zSrai (p rd imm : Nat) (s : State) : ZOut :=
  let d := s.w p rd
  s.wDone p 1 rd (d.sshiftRight (imm % 64))
/-- An engine issues SRAI. -/
def execSrai (p : Fin 18) (ps : Fin 8) (rd : Fin 32) (imm : Fin 64) (s : State) : Res :=
  .next (s.zhn p ps true (zSrai p rd imm))

/-- MULI (R97): wd = wd × sext(imm), low 64 bits. -/
def zMuli (p rd imm : Nat) (s : State) : ZOut :=
  let d := s.w p rd
  s.wDone p 3 rd (d * sext16 imm)
/-- An engine issues MULI. -/
def execMuli (p : Fin 18) (ps : Fin 8) (rd : Fin 32) (imm : BitVec 16) (s : State) : Res :=
  .next (s.zhn p ps true (zMuli p rd imm.toNat))

/-- MINI (R97): signed minimum of wd and sext(imm). -/
def zMini (p rd imm : Nat) (s : State) : ZOut :=
  let d := s.w p rd
  s.wDone p 1 rd (smin d (sext16 imm))
/-- An engine issues MINI. -/
def execMini (p : Fin 18) (ps : Fin 8) (rd : Fin 32) (imm : BitVec 16) (s : State) : Res :=
  .next (s.zhn p ps true (zMini p rd imm.toNat))

/-- MAXI (R97): signed maximum of wd and sext(imm). -/
def zMaxi (p rd imm : Nat) (s : State) : ZOut :=
  let d := s.w p rd
  s.wDone p 1 rd (smax d (sext16 imm))
/-- An engine issues MAXI. -/
def execMaxi (p : Fin 18) (ps : Fin 8) (rd : Fin 32) (imm : BitVec 16) (s : State) : Res :=
  .next (s.zhn p ps true (zMaxi p rd imm.toNat))

/-! ## Compare and predicates (R98) -/

/-- CMP (R98): pd = wa cond wb, pn = its complement. ILLEGAL for an undefined condition, and when pd and pn name the
same register other than p0. -/
def zCmp (p cond pd pn ra rb : Nat) (s : State) : ZOut :=
  if 6 < cond || (pd == pn && pd != 0) then .exc xIllegal 0
  else zDone 1 (s.setPredPair p pd pn (cmpCond cond (s.w p ra) (s.w p rb)))
/-- An engine issues CMP. -/
def execCmp (p : Fin 18) (ps : Fin 8) (cond : Fin 16) (pd pn : Fin 8) (ra rb : Fin 32) (s : State) : Res :=
  .next (s.zhn p ps true (zCmp p cond pd pn ra rb))

/-- CMPI (R98): pd = w[rd] cond imm, pn = its complement. -/
def zCmpi (p cond pd pn rd imm : Nat) (s : State) : ZOut :=
  if pd == pn && pd != 0 then .exc xIllegal 0
  else zDone 1 (s.setPredPair p pd pn (cmpiCond cond (s.w p rd) imm))
/-- An engine issues CMPI. -/
def execCmpi (p : Fin 18) (ps : Fin 8) (cond : Fin 4) (pd pn : Fin 8) (rd : Fin 32) (imm : BitVec 10) (s : State) : Res :=
  .next (s.zhn p ps true (zCmpi p cond pd pn rd imm.toNat))

/-- PLOG with code `c` (R98): pd = the operation on p[pa] and p[pb]. -/
def zPlog (c p pd pa pb : Nat) (s : State) : ZOut := zDone 1 (s.setP p pd (plogOp c (s.p p pa) (s.p p pb)))

/-- An engine issues PLOG.AND (R98). -/
def execPlogAnd (p : Fin 18) (ps : Fin 8) (pd pa pb : Fin 8) (s : State) : Res :=
  .next (s.zhn p ps true (zPlog 0 p pd pa pb))

/-- An engine issues PLOG.OR (R98). -/
def execPlogOr (p : Fin 18) (ps : Fin 8) (pd pa pb : Fin 8) (s : State) : Res :=
  .next (s.zhn p ps true (zPlog 1 p pd pa pb))

/-- An engine issues PLOG.XOR (R98). -/
def execPlogXor (p : Fin 18) (ps : Fin 8) (pd pa pb : Fin 8) (s : State) : Res :=
  .next (s.zhn p ps true (zPlog 2 p pd pa pb))

/-- An engine issues PLOG.ANDN (R98). -/
def execPlogAndn (p : Fin 18) (ps : Fin 8) (pd pa pb : Fin 8) (s : State) : Res :=
  .next (s.zhn p ps true (zPlog 3 p pd pa pb))

/-- An engine issues PLOG.NOT (R98). -/
def execPlogNot (p : Fin 18) (ps : Fin 8) (pd pa : Fin 8) (s : State) : Res :=
  .next (s.zhn p ps true (zPlog 4 p pd pa 0))

/-- An engine issues PLOG.SET (R98). -/
def execPlogSet (p : Fin 18) (ps : Fin 8) (pd : Fin 8) (s : State) : Res :=
  .next (s.zhn p ps true (zPlog 5 p pd 0 0))

/-- An engine issues PLOG.CLR (R98). -/
def execPlogClr (p : Fin 18) (ps : Fin 8) (pd : Fin 8) (s : State) : Res :=
  .next (s.zhn p ps true (zPlog 6 p pd 0 0))

/-! ## Branch, call and return (R99, R121) -/

/-- Jump to word `target`, or PC_RANGE at or above CODE_WORDS (R99). -/
def State.zJump (s : State) (p : Nat) (target : Int) (g : State → State) : ZOut :=
  if target < 0 ∨ ((s.eng p).codeWords : Int) ≤ target then .exc xPcRange 0 else .done 2 (some target.toNat) [] (g s)

/-- PC + 1 as the return address in w31. -/
def State.link (s : State) (p : Nat) : State := s.setW p 31 (BitVec.ofNat 64 (s.pc p + 1))

/-- B (R99): to PC + sext(OFF). -/
def zB (p off : Nat) (s : State) : ZOut := s.zJump p ((s.pc p : Int) + toSigned 21 off) id
/-- An engine issues B. -/
def execB (p : Fin 18) (ps : Fin 8) (off : BitVec 21) (s : State) : Res := .next (s.zhn p ps false (zB p off.toNat))

/-- CALL (R99): w31 = PC + 1, to PC + sext(OFF). -/
def zCall (p off : Nat) (s : State) : ZOut := s.zJump p ((s.pc p : Int) + toSigned 21 off) (fun s => s.link p)
/-- An engine issues CALL. -/
def execCall (p : Fin 18) (ps : Fin 8) (off : BitVec 21) (s : State) : Res := .next (s.zhn p ps false (zCall p off.toNat))

/-- RET (R121): PC = w31[15:0]. -/
def zRet (p : Nat) (s : State) : ZOut := s.zJump p ((s.w p 31).toNat % 65536 : Nat) id
/-- An engine issues RET. -/
def execRet (p : Fin 18) (ps : Fin 8) (s : State) : Res := .next (s.zhn p ps false (zRet p))

/-- JR (R121): PC = wa[15:0]. -/
def zJr (p ra : Nat) (s : State) : ZOut := s.zJump p ((s.w p ra).toNat % 65536 : Nat) id
/-- An engine issues JR. -/
def execJr (p : Fin 18) (ps : Fin 8) (ra : Fin 32) (s : State) : Res := .next (s.zhn p ps false (zJr p ra))

/-- CALLR (R121): w31 = PC + 1; PC = wa[15:0], wa as it was before. -/
def zCallr (p ra : Nat) (s : State) : ZOut := s.zJump p ((s.w p ra).toNat % 65536 : Nat) (fun s => s.link p)
/-- An engine issues CALLR. -/
def execCallr (p : Fin 18) (ps : Fin 8) (ra : Fin 32) (s : State) : Res := .next (s.zhn p ps false (zCallr p ra))

end Sys2Proof.Machine
end

