-- ==== Sys2Proof/Machine/ZhnMem.lean ====
section
/-! DEFINITION. ZHN loads and stores (R100–R103), endpoint records and cursors (R104–R106), SCAN (R107), group bitmaps
(R108) and the dim-code conversion (R109). -/
namespace Sys2Proof.Machine
open Sys2Proof

/-- The bytes of an access of size code `z`. -/
def szBytes (z : Nat) : Nat := 2 ^ z

/-- The computed address of a load or store (R100). -/
def State.memAddr (s : State) (p ra z off : Nat) : DWord := s.w p ra + memOff z off

/-- LDL (R100, R101). -/
def zLdl (z p rd ra off : Nat) (s : State) : ZOut :=
  let a := lsAddr (s.memAddr p ra z off)
  if a % szBytes z ≠ 0 then .exc xLsRange (w32 a)
  else zDone 2 (s.setW p rd (BitVec.ofNat 64 (leNat (s.lsBytes p a (szBytes z)))))
/-- An engine issues LDL; `z` is the size code and `off` the 6-bit offset. -/
def execLdl (p : Fin 18) (ps : Fin 8) (z : Fin 4) (rd ra : Fin 32) (off : Fin 64) (s : State) : Res :=
  .next (s.zhn p ps true (zLdl z p rd ra off))

/-- STL (R100, R101). -/
def zStl (z p rb ra off : Nat) (s : State) : ZOut :=
  let a := lsAddr (s.memAddr p ra z off)
  if a % szBytes z ≠ 0 then .exc xLsRange (w32 a)
  else zDone 2 (s.lsStore p a (leBytes (szBytes z) (s.w p rb).toNat))
/-- An engine issues STL. -/
def execStl (p : Fin 18) (ps : Fin 8) (z : Fin 4) (rb ra : Fin 32) (off : Fin 64) (s : State) : Res :=
  .next (s.zhn p ps true (zStl z p rb ra off))

/-- Whether a field-memory access raises FMEM_RANGE: outside field memory, or not aligned to its size (R101). -/
def fmemBad (z : Nat) (a : DWord) : Bool := decide (0x4000000 ≤ a.toNat) || a.toNat % szBytes z != 0

/-- The words that an access of size code `z` at `a` touches. -/
def touchedWords (z a : Nat) (st : Bool) : List (Nat × Bool) :=
  if z = 3 then [(a / 4, st), (a / 4 + 1, st)] else [(a / 4, st)]

/-- A field-memory instruction that completes and goes on: each conflicting access adds up to 4 tokens, so what conflicts add
is a free value (R103, assumption 137). -/
def zField (cost : Nat) (touched : List (Nat × Bool)) (s : State) : ZOut :=
  let r := s.free
  .done (cost + r.1) none touched r.2

/-- LDF (R100, R101). -/
def zLdf (z p rd ra off : Nat) (s : State) : ZOut :=
  let v := s.memAddr p ra z off
  let a := v.toNat
  if fmemBad z v then .exc xFmemRange (w32 a)
  else zField 24 (touchedWords z a false) (s.setW p rd (BitVec.ofNat 64 (leNat (s.fbytes a (szBytes z)))))
/-- An engine issues LDF. -/
def execLdf (p : Fin 18) (ps : Fin 8) (z : Fin 4) (rd ra : Fin 32) (off : Fin 64) (s : State) : Res :=
  .next (s.zhn p ps true (zLdf z p rd ra off))

/-- The word at `a` after the `n` low bytes of `v` are stored from byte offset `k` of the word on. -/
def patchWord (old : Word) (k n v : Nat) : Word :=
  setBits old (8 * k) (8 * n) v

/-- STF (R100–R102): nothing is written when a bit that the engine may not change would change; a double-word store is
two word stores, the lower address first. -/
def zStf (z p rb ra off : Nat) (s : State) : ZOut :=
  let v := s.memAddr p ra z off
  let a := v.toNat
  let d := (s.w p rb).toNat
  let l := s.logicalOf p
  if fmemBad z v then .exc xFmemRange (w32 a)
  else if z = 3 then
    if storeRo l a (s.fword a) (w32 d) || storeRo l (a + 4) (s.fword (a + 4)) (w32 (d / 2 ^ 32)) then .exc xFieldRo (w32 a)
    else zField 6 (touchedWords z a true) ((s.setFWord a (w32 d)).setFWord (a + 4) (w32 (d / 2 ^ 32)))
  else
    let b := a / 4 * 4
    let new := patchWord (s.fword b) (a % 4) (szBytes z) d
    if storeRo l a (s.fword b) new then .exc xFieldRo (w32 a)
    else zField 4 (touchedWords z a true) (s.setFWord b new)
/-- An engine issues STF. -/
def execStf (p : Fin 18) (ps : Fin 8) (z : Fin 4) (rb ra : Fin 32) (off : Fin 64) (s : State) : Res :=
  .next (s.zhn p ps true (zStf z p rb ra off))

/-! ## Endpoint records (R104–R106) -/

/-- LDE (R104): the field of `wm1 + 1` bits from `lsb` of word `word` of the cursor's record; `sx` sign-extends. -/
def zLde (p rd ec word lsb wm1 : Nat) (sx : Bool) (s : State) : ZOut :=
  let c := s.e p ec
  let a := epBase (curIdx c) + 4 * word
  if 32 < lsb + wm1 + 1 then .exc xIllegal 0
  else if s.stale c then .exc xStaleCursor (excAt a)
  else
    let v := getBits (s.fword a) lsb (wm1 + 1)
    zField 24 [(a / 4, false)]
      (s.setW p rd (if sx then BitVec.ofInt 64 (toSigned (wm1 + 1) v) else BitVec.ofNat 64 v))
/-- An engine issues LDE. -/
def execLde (p : Fin 18) (ps : Fin 8) (rd : Fin 32) (ec : Fin 4) (word lsb wm1 : Fin 32) (sx : Bool) (s : State) : Res :=
  .next (s.zhn p ps true (zLde p rd ec word lsb wm1 sx))

/-- STE (R104): FIELD_RO when the field holds a bit that an engine may not write. -/
def zSte (p rb ec word lsb wm1 : Nat) (s : State) : ZOut :=
  let c := s.e p ec
  let a := epBase (curIdx c) + 4 * word
  let m := (2 ^ (wm1 + 1) - 1) * 2 ^ lsb
  if 32 < lsb + wm1 + 1 then .exc xIllegal 0
  else if s.stale c then .exc xStaleCursor (excAt a)
  else if !s.epValid (curIdx c) then .exc xEpInvalid (excAt a)
  else if (m &&& (0xFFFFFFFF - epWriterMask (4 * word))) != 0 then .exc xFieldRo (excAt a)
  else zField 28 [(a / 4, true)] (s.setFWord a (setBits (s.fword a) lsb (wm1 + 1) (s.w p rb).toNat))
/-- An engine issues STE. -/
def execSte (p : Fin 18) (ps : Fin 8) (rb : Fin 32) (ec : Fin 4) (word lsb wm1 : Fin 32) (s : State) : Res :=
  .next (s.zhn p ps true (zSte p rb ec word lsb wm1))

/-- The words from a byte offset of field memory on, as the watchpoint sees an instruction touch them (R68). -/
def wordsFrom (a n : Nat) (st : Bool) : List (Nat × Bool) := (rangeFrom (a / 4) n).map (fun k => (k, st))
/-- SCAN and ECUR load the words in which the fields lie that they go by, GEN of the record they move to among them (R68, R107;
DESIGN CHOICE, assumption 159). -/
def scanRowWords (r : Nat) : List (Nat × Bool) := [(rowBase r / 4, false), ((rowBase r + 8) / 4, false)]
def scanNextWords (i : Nat) : List (Nat × Bool) := (epBase i / 4, false) :: wordsFrom (epBase i + 0x10) 2 false
def genWord (i : Nat) : Nat × Bool := (epBase i / 4, false)

/-- ECUR (R106): e[ec] = wa[24:0]. -/
def zEcur (p ec ra : Nat) (s : State) : ZOut :=
  let v := (s.w p ra).toNat
  if 2 ^ 25 ≤ v then .exc xArgRange 0 else zDone 2 (s.setE p ec (BitVec.ofNat 25 v))
/-- An engine issues ECUR. -/
def execEcur (p : Fin 18) (ps : Fin 8) (ec : Fin 4) (ra : Fin 32) (s : State) : Res :=
  .next (s.zhn p ps true (zEcur p ec ra))

/-- ECUR.G (R106): the index wa[16:0] with the record's current GEN. -/
def zEcurG (p ec ra : Nat) (s : State) : ZOut :=
  let v := (s.w p ra).toNat
  if 2 ^ 17 ≤ v then .exc xArgRange 0 else .done 24 none [genWord v] (s.setE p ec (s.curTo v))
/-- An engine issues ECUR.G. -/
def execEcurG (p : Fin 18) (ps : Fin 8) (ec : Fin 4) (ra : Fin 32) (s : State) : Res :=
  .next (s.zhn p ps true (zEcurG p ec ra))

/-- ERD (R106): wd = zext(e[ec]). -/
def zErd (p rd ec : Nat) (s : State) : ZOut := s.wDone p 1 rd ((s.e p ec).zeroExtend 64)
/-- An engine issues ERD. -/
def execErd (p : Fin 18) (ps : Fin 8) (rd : Fin 32) (ec : Fin 4) (s : State) : Res := .next (s.zhn p ps true (zErd p rd ec))

/-- LDR (R105, R106): the 128 bytes of the cursor's record to local store at wa. -/
def zLdr (p ec ra : Nat) (s : State) : ZOut :=
  let a := lsAddr (s.w p ra)
  let c := s.e p ec
  let b := epBase (curIdx c)
  if a % 4 ≠ 0 then .exc xLsRange (w32 a)
  else if s.stale c then .exc xStaleCursor (excAt b)
  else zField 48 ((rangeFrom (b / 4) 32).map (fun k => (k, false))) (s.lsStore p a (s.fbytes b 128))
/-- An engine issues LDR. -/
def execLdr (p : Fin 18) (ps : Fin 8) (ec : Fin 4) (ra : Fin 32) (s : State) : Res :=
  .next (s.zhn p ps true (zLdr p ec ra))

/-! ## SCAN (R107) -/

def scanEnd : Nat := 0
def scanNotOnRow : Nat := 1
def scanNotFound : Nat := 2
def scanRowInvalid : Nat := 3

/-- The cursor moves to record `i`, with its current GEN: pd = 1. -/
def State.scanTo (s : State) (p pd ec i : Nat) : State := (s.setE p ec (s.curTo i)).setP p pd true
/-- The cursor stays: pd = 0, and s14 gives the reason. -/
def State.scanMiss (s : State) (p pd r : Nat) : State := (s.setP p pd false).setS14 p r

/-- SCAN.ROW (R107). -/
def zScanRow (p pd ec ra : Nat) (s : State) : ZOut :=
  let r := (s.w p ra).toNat
  if 32767 < r then .exc xArgRange 0
  else if s.row r ROW.VALID = 0 then zField 26 (scanRowWords r) (s.scanMiss p pd scanRowInvalid)
  else if s.row r ROW.HEAD_VALID = 0 then zField 26 (scanRowWords r) (s.scanMiss p pd scanEnd)
  else zField 26 (scanRowWords r ++ [genWord (s.row r ROW.HEAD)]) (s.scanTo p pd ec (s.row r ROW.HEAD))
/-- An engine issues SCAN.ROW. -/
def execScanRow (p : Fin 18) (ps pd : Fin 8) (ec : Fin 4) (ra : Fin 32) (s : State) : Res :=
  .next (s.zhn p ps true (zScanRow p pd ec ra))

/-- SCAN.NEXT (R107). -/
def zScanNext (p pd ec : Nat) (s : State) : ZOut :=
  let c := s.e p ec
  let i := curIdx c
  if s.stale c then .exc xStaleCursor (excAt (epBase i))
  else if s.epValid i = false ∨ s.ep i EP.ON_ROW = 0 then zField 26 (scanNextWords i) (s.scanMiss p pd scanNotOnRow)
  else if s.ep i EP.NEXT_VALID = 0 then zField 26 (scanNextWords i) (s.scanMiss p pd scanEnd)
  else zField 26 (scanNextWords i ++ [genWord (s.ep i EP.NEXT)]) (s.scanTo p pd ec (s.ep i EP.NEXT))
/-- An engine issues SCAN.NEXT. -/
def execScanNext (p : Fin 18) (ps pd : Fin 8) (ec : Fin 4) (s : State) : Res :=
  .next (s.zhn p ps true (zScanNext p pd ec))

/-- The listed bytes of group `g`, with their offset in the bitmap; the others are 0. -/
def State.grpBytes (s : State) (g : Nat) : List (Nat × Byte) :=
  (s.fmem.filter (fun c => decide (grpBase g ≤ c.1 ∧ c.1 < grpBase g + 0x4000))).map (fun c => (c.1 - grpBase g, c.2))

/-- The lowest member of group `g` at or above `start`. -/
def State.grpFind (s : State) (g start : Nat) : Option Nat :=
  ((s.grpBytes g).flatMap (fun c => (onesBelow 8 c.2.toNat).map (fun k => 8 * c.1 + k))).find? (fun i => decide (start ≤ i))

/-- U of R107: the 64-byte units from one byte of the bitmap to another, each started unit counted. -/
def grpUnits (first last : Nat) : Nat := ceilDiv (last - first + 1) 64

/-- SCAN.GRP (R107): wg[40:32] the group, wg[16:0] the first index examined. -/
def zScanGrp (p pd ec ra : Nat) (s : State) : ZOut :=
  let v := (s.w p ra).toNat
  let g := v / 2 ^ 32
  let start := v % 2 ^ 32
  if 512 ≤ g ∨ 131072 ≤ start then .exc xArgRange 0
  else match s.grpFind g start with
    | some i => zField (4 + grpUnits (start / 8) (i / 8))
        (wordsFrom (grpBase g + start / 8) (i / 32 - start / 32 + 1) false ++ [genWord i]) (s.scanTo p pd ec i)
    | none => zField (4 + grpUnits (start / 8) 0x3FFF) (wordsFrom (grpBase g + start / 8) (4096 - start / 32) false)
        (s.scanMiss p pd scanNotFound)
/-- An engine issues SCAN.GRP. -/
def execScanGrp (p : Fin 18) (ps pd : Fin 8) (ec : Fin 4) (ra : Fin 32) (s : State) : Res :=
  .next (s.zhn p ps true (zScanGrp p pd ec ra))

/-! ## Group bitmaps (R108) -/

/-- A GRP instruction on one bit: EP_RANGE, then GROUP_RANGE, then FIELD_RO for a write to group 0 (R94, R108). -/
def State.grpBitOp (s : State) (p rg ri : Nat) (wr : Bool) (g : Nat → Nat → ZOut) : ZOut :=
  let n := (s.w p rg).toNat
  let i := (s.w p ri).toNat
  if 131072 ≤ i then .exc xEpRange 0
  else if 512 ≤ n then .exc xGroupRange 0
  else if wr && n == 0 then .exc xFieldRo (excAt (grpBase 0 + i / 32 * 4))
  else g n i

/-- GRP.SET (R108). -/
def zGrpSet (p rg ri : Nat) (s : State) : ZOut :=
  s.grpBitOp p rg ri true (fun g i => zField 24 [((grpBase g + i / 8) / 4, true)] (s.setGrpBit g i true))
/-- An engine issues GRP.SET. -/
def execGrpSet (p : Fin 18) (ps : Fin 8) (rg ri : Fin 32) (s : State) : Res := .next (s.zhn p ps true (zGrpSet p rg ri))

/-- GRP.CLR (R108). -/
def zGrpClr (p rg ri : Nat) (s : State) : ZOut :=
  s.grpBitOp p rg ri true (fun g i => zField 24 [((grpBase g + i / 8) / 4, true)] (s.setGrpBit g i false))
/-- An engine issues GRP.CLR. -/
def execGrpClr (p : Fin 18) (ps : Fin 8) (rg ri : Fin 32) (s : State) : Res := .next (s.zhn p ps true (zGrpClr p rg ri))

/-- GRP.TST (R108). -/
def zGrpTst (p pd rg ri : Nat) (s : State) : ZOut :=
  s.grpBitOp p rg ri false (fun g i => zField 24 [((grpBase g + i / 8) / 4, false)] (s.setP p pd (s.grpBit g i)))
/-- An engine issues GRP.TST. -/
def execGrpTst (p : Fin 18) (ps pd : Fin 8) (rg ri : Fin 32) (s : State) : Res :=
  .next (s.zhn p ps true (zGrpTst p pd rg ri))

/-- The number of members of group `g`. -/
def State.grpCount (s : State) (g : Nat) : Nat := ((s.grpBytes g).map (fun c => (onesBelow 8 c.2.toNat).length)).foldl (· + ·) 0

/-- GRP.CNT (R108). -/
def zGrpCnt (p rd rg : Nat) (s : State) : ZOut :=
  let g := (s.w p rg).toNat
  if 512 ≤ g then .exc xGroupRange 0 else zField 260 (wordsFrom (grpBase g) 4096 false) (s.setW p rd (BitVec.ofNat 64 (s.grpCount g)))
/-- An engine issues GRP.CNT. -/
def execGrpCnt (p : Fin 18) (ps : Fin 8) (rd rg : Fin 32) (s : State) : Res := .next (s.zhn p ps true (zGrpCnt p rd rg))

/-- A whole-bitmap operation, word by word in ascending order (R108): word `k` of group `d` becomes `f` of the words of
groups `a` and `b`. -/
def State.grpWords (s : State) (d a b : Nat) (f : Word → Word → Word) : State :=
  foldS (List.range 4096) (fun k s => s.setFWord (grpBase d + 4 * k) (f (s.fword (grpBase a + 4 * k)) (s.fword (grpBase b + 4 * k)))) s

/-- A whole-bitmap instruction: GROUP_RANGE, then FIELD_RO for group 0 as destination. It loads every word of the groups in the
registers `loads`, and stores every word of its destination (R62, R68). -/
def State.grpAll (s : State) (p cost rd ra rb : Nat) (loads : List Nat) (f : Word → Word → Word) : ZOut :=
  let d := (s.w p rd).toNat
  let a := (s.w p ra).toNat
  let b := (s.w p rb).toNat
  if 512 ≤ d ∨ 512 ≤ a ∨ 512 ≤ b then .exc xGroupRange 0
  else if d = 0 then .exc xFieldRo (excAt (grpBase 0))
  else
    let ld := loads.flatMap (fun r => wordsFrom (grpBase (s.w p r).toNat) 4096 false)
    zField cost (ld ++ wordsFrom (grpBase d) 4096 true) (s.grpWords d a b f)

/-- GRP.OR (R108): group wgd = wga or wgb. -/
def zGrpOr (p rd ra rb : Nat) (s : State) : ZOut := s.grpAll p 520 rd ra rb [ra, rb] (fun a b => a ||| b)
/-- An engine issues GRP.OR. -/
def execGrpOr (p : Fin 18) (ps : Fin 8) (rd ra rb : Fin 32) (s : State) : Res :=
  .next (s.zhn p ps true (zGrpOr p rd ra rb))

/-- GRP.AND (R108): group wgd = wga & wgb. -/
def zGrpAnd (p rd ra rb : Nat) (s : State) : ZOut := s.grpAll p 520 rd ra rb [ra, rb] (fun a b => a &&& b)
/-- An engine issues GRP.AND. -/
def execGrpAnd (p : Fin 18) (ps : Fin 8) (rd ra rb : Fin 32) (s : State) : Res :=
  .next (s.zhn p ps true (zGrpAnd p rd ra rb))

/-- GRP.ANDN (R108): group wgd = wga & ~wgb. -/
def zGrpAndn (p rd ra rb : Nat) (s : State) : ZOut := s.grpAll p 520 rd ra rb [ra, rb] (fun a b => a &&& ~~~b)
/-- An engine issues GRP.ANDN. -/
def execGrpAndn (p : Fin 18) (ps : Fin 8) (rd ra rb : Fin 32) (s : State) : Res :=
  .next (s.zhn p ps true (zGrpAndn p rd ra rb))

/-- GRP.COPY (R108): group wgd = wga. -/
def zGrpCopy (p rd ra : Nat) (s : State) : ZOut := s.grpAll p 520 rd ra ra [ra] (fun a _ => a)
/-- An engine issues GRP.COPY. -/
def execGrpCopy (p : Fin 18) (ps : Fin 8) (rd ra : Fin 32) (s : State) : Res := .next (s.zhn p ps true (zGrpCopy p rd ra))

/-- GRP.CLRALL (R108): group wgd = 0. -/
def zGrpClrall (p rd : Nat) (s : State) : ZOut := s.grpAll p 260 rd rd rd [] (fun _ _ => 0)
/-- An engine issues GRP.CLRALL. -/
def execGrpClrall (p : Fin 18) (ps : Fin 8) (rd : Fin 32) (s : State) : Res := .next (s.zhn p ps true (zGrpClrall p rd))

/-! ## Dim codes (R109, R125) -/

/-- DIMC.P2C (R109). -/
def zDimcP2c (p rd ra : Nat) (s : State) : ZOut := s.wDone p 6 rd (BitVec.ofNat 64 (dimP2c (s.w p ra).toInt))
/-- An engine issues DIMC.P2C. -/
def execDimcP2c (p : Fin 18) (ps : Fin 8) (rd ra : Fin 32) (s : State) : Res := .next (s.zhn p ps true (zDimcP2c p rd ra))

/-- DIMC.C2P (R109). -/
def zDimcC2p (p rd ra : Nat) (s : State) : ZOut :=
  let v := (s.w p ra).toNat
  if 1024 ≤ v then .exc xArgRange 0 else s.wDone p 6 rd (BitVec.ofNat 64 (dimL v))
/-- An engine issues DIMC.C2P. -/
def execDimcC2p (p : Fin 18) (ps : Fin 8) (rd ra : Fin 32) (s : State) : Res := .next (s.zhn p ps true (zDimcC2p p rd ra))

end Sys2Proof.Machine
end

