-- ==== Sys2Proof/Machine/Phasor.lean ====
section
/-! DEFINITION. Phasors of sampled signals (R402): complex numbers in fixed point, the discrete Fourier transform of a window at a
multiple of a frequency, angles. A fraction of 128 bits stands below every value (DESIGN CHOICE, assumption 152). -/
namespace Sys2Proof.Machine
open Sys2Proof

/-- A complex number, in fixed point where its use says so. -/
structure Cx where
  re : Int
  im : Int
  deriving DecidableEq, Repr

/-- One in fixed point. -/
def cxOne : Nat := 2 ^ 128
/-- π in fixed point: its first 128 bits after the point. -/
def cxPi : Nat := 1069028584064966747859680373161870783300

def Cx.mul (a b : Cx) : Cx := ⟨a.re * b.re - a.im * b.im, a.re * b.im + a.im * b.re⟩
def Cx.conj (a : Cx) : Cx := ⟨a.re, -a.im⟩
def Cx.norm (a : Cx) : Nat := a.re.natAbs ^ 2 + a.im.natAbs ^ 2
/-- The product of two values of which the second is in fixed point. -/
def Cx.scale (a b : Cx) : Cx := let p := a.mul b; ⟨p.re / cxOne, p.im / cxOne⟩
/-- A power of a value in fixed point. -/
def Cx.pow (a : Cx) : Nat → Cx
  | 0 => ⟨cxOne, 0⟩
  | n + 1 => (a.pow n).scale a
/-- An exact power. -/
def Cx.power (a : Cx) : Nat → Cx
  | 0 => ⟨1, 0⟩
  | n + 1 => (a.power n).mul a

/-- `n` terms of the series of e^(iθ) from the term `t` of index `k` on, for θ in fixed point. -/
def cxTerms (θ : Int) : Nat → Nat → Cx → Cx
  | 0, _, _ => ⟨0, 0⟩
  | n + 1, k, t =>
    let d : Int := ((k + 1) * cxOne : Nat)
    let r := cxTerms θ n (k + 1) ⟨-(t.im * θ) / d, t.re * θ / d⟩
    ⟨t.re + r.re, t.im + r.im⟩
/-- e^(2πi a / b) in fixed point. -/
def cxTurn (a b : Nat) : Cx := cxTerms ((2 * cxPi * (a % b) / b : Nat) : Int) 80 0 ⟨cxOne, 0⟩

/-- The transform of samples at the frequency whose step from sample to sample is `u`, of length 1, backwards: the sum of the
samples times the powers of `u`, in fixed point. -/
def dft (u : Cx) (l : List Int) : Cx :=
  l.foldr (fun x a => let p := a.scale u; ⟨x * cxOne + p.re, p.im⟩) ⟨0, 0⟩

/-- Whether the angle of `y` is `k` of `n` parts of a turn or more, for `k` below `n`. -/
def angleFrom (n : Nat) (y : Cx) (k : Nat) : Bool :=
  let low := decide (y.im < 0) || (y.im == 0 && decide (y.re < 0))
  if decide (n ≤ 2 * k) != low then low
  else let e := cxTurn k n; decide (0 ≤ e.re * y.im - e.im * y.re)
/-- The angle of a value in parts of a turn of `n`, below 2²⁰, rounded down. -/
def Cx.turnPart (y : Cx) (n : Nat) : Nat := searchMax (fun k => decide (k < n) && angleFrom n y k) 20 0
/-- The angle of a value in hundredths of a degree, 0–35,999, and whether it is exact. -/
def Cx.angle (y : Cx) : Nat × Bool :=
  if y.im = 0 then (if y.re < 0 then 18000 else 0, true)
  else if y.re = 0 then (if y.im < 0 then 27000 else 9000, true)
  else (searchMax (fun k => decide (k < 36000) && angleFrom 36000 y k) 16 0, false)

end Sys2Proof.Machine
end

