-- ==== Sys2Proof/Machine/Sun.lean ====
section
/-! DEFINITION. The position of the Sun's centre (R112), from the Sun's mean elements: geometric longitude with the equation of the
centre, mean obliquity and mean sidereal time, in fixed point (PRESUMED, assumption 8). -/
namespace Sys2Proof.Machine
open Sys2Proof

/-- The units of 2⁻¹⁶ ns of a Julian century. -/
def sunCentury : Int := 36525 * 86400 * 65536000000000
/-- The time since 2000-01-01 12:00 of an instant of UTC from 1970-01-01, in 2⁻¹⁶ ns. -/
def sunTime (u : Nat) : Int := (u : Int) - 946728000 * 65536000000000
/-- `a + b T + c T²` for the century fraction T of a time, times the units of a century. -/
def sunPoly (t a b c : Int) : Int := a * sunCentury + b * t + c * t * t / sunCentury
/-- The angle of so many units of 10⁻⁸ degree, times the units of a century, as a complex number of length 1. -/
def sunTurn (x : Int) : Cx := cxTurn (x % (36000000000 * sunCentury)).toNat (36000000000 * sunCentury).toNat
/-- A value in fixed point times another. -/
def fxMul (a b : Int) : Int := a * b / cxOne

/-- The Sun's true longitude: mean longitude and equation of the centre. -/
def sunLongitude (t : Int) : Cx :=
  let m := sunPoly t 35752911000 3599905029000 (-15370)
  let c := (sunPoly t 191460200 (-481700) (-1400) * (sunTurn m).im + sunPoly t 1999300 (-10100) 0 * (sunTurn (2 * m)).im +
    sunPoly t 28900 0 0 * (sunTurn (3 * m)).im) / cxOne
  sunTurn (sunPoly t 28046646000 3600076983000 30320 + c)
/-- The mean obliquity of the ecliptic. -/
def sunObliquity (t : Int) : Cx := sunTurn (sunPoly t 2343929100 (-1300420) 0)
/-- Local mean sidereal time at a longitude in units of 10⁻⁷ degree. -/
def sunSidereal (t lon : Int) : Cx := sunTurn (sunPoly t 28046061837 1318500077005361 38793 + 10 * lon * sunCentury)

/-- The direction of the Sun at a site, in fixed point: north and east, and up. -/
def sunHorizon (u : Nat) (lon lat : Int) : Cx × Int :=
  let t := sunTime u
  let l := sunLongitude t
  let e := sunObliquity t
  let y := fxMul e.re l.im
  let z := fxMul e.im l.im
  let θ := sunSidereal t lon
  let h := fxMul l.re θ.re + fxMul y θ.im
  let φ := sunTurn (10 * lat * sunCentury)
  (⟨fxMul z φ.re - fxMul h φ.im, fxMul y θ.re - fxMul l.re θ.im⟩, fxMul z φ.im + fxMul h φ.re)

/-- Azimuth in 0.001°, clockwise from true north: an instant in 2⁻¹⁶ ns of UTC from 1970-01-01, longitude and latitude in
10⁻⁷ degree. -/
def sunAzimuth (u : Nat) (lon lat : Int) : Int := (sunHorizon u lon lat).1.turnPart 360000
/-- Elevation in 0.001°, signed. -/
def sunElevation (u : Nat) (lon lat : Int) : Int :=
  let d := sunHorizon u lon lat
  let a : Int := (Cx.mk (searchMax (fun r => decide (r * r ≤ d.1.norm)) 130 0) d.2).turnPart 360000
  if 180000 ≤ a then a - 360000 else a

end Sys2Proof.Machine
end

