-- ==== Sys2Proof/Machine/ZhnSys.lean ====
section
/-! DEFINITION. ZHN time, solar and system instructions (R110–R121): TNOW to TST, SUN, WAIT, EMIT, DONE, the sheaf
instructions, MFS, MTS, DOUT and the rest. -/
namespace Sys2Proof.Machine
open Sys2Proof

/-! ## Time (R110, R111) -/

/-- The size of a unit in 2⁻¹⁶ ns: fraction, ns, µs, ms, s. -/
def unitSize : Nat → Nat
  | 0 => 1 | 1 => 65536 | 2 => 65536000 | 3 => 65536000000 | _ => 65536000000000

/-- TNOW (R110): the time base, tagged with the step epoch. -/
def zTnow (p td : Nat) (s : State) : ZOut := zDone 12 (s.setT p td ⟨s.now, BitVec.ofNat 8 s.stepEpoch⟩)
/-- An engine issues TNOW. -/
def execTnow (p : Fin 18) (ps : Fin 8) (td : Fin 4) (s : State) : Res := .next (s.zhn p ps true (zTnow p td))

/-- TMOV (R110). -/
def zTmov (p td ta : Nat) (s : State) : ZOut := zDone 1 (s.setT p td ⟨normStamp (s.t p ta).val, (s.t p ta).tag⟩)
/-- An engine issues TMOV. -/
def execTmov (p : Fin 18) (ps : Fin 8) (td ta : Fin 4) (s : State) : Res := .next (s.zhn p ps true (zTmov p td ta))

/-- TADD (R110): td = ta + wa × unit, wa signed, with ta's tag. -/
def zTadd (p td ta ra unit : Nat) (s : State) : ZOut :=
  zDone 3 (s.setT p td
    ⟨unitsStamp ((stampUnits (s.t p ta).val : Int) + (s.w p ra).toInt * (unitSize unit : Nat)), (s.t p ta).tag⟩)
/-- An engine issues TADD. -/
def execTadd (p : Fin 18) (ps : Fin 8) (td ta : Fin 4) (ra : Fin 32) (unit : Fin 5) (s : State) : Res :=
  .next (s.zhn p ps true (zTadd p td ta ra unit))

/-- Saturate at the signed 64-bit limits. -/
def sat64 (v : Int) : DWord :=
  if v < -(2 ^ 63 : Nat) then BitVec.ofNat 64 (2 ^ 63)
  else if (2 ^ 63 : Nat) ≤ v then BitVec.ofNat 64 (2 ^ 63 - 1) else BitVec.ofInt 64 v

/-- TDIFF (R110): wd = (ta − tb) in units, truncated towards zero, saturating. -/
def zTdiff (p rd ta tb unit : Nat) (s : State) : ZOut :=
  s.wDone p 6 rd (sat64 (((stampUnits (s.t p ta).val : Int) - stampUnits (s.t p tb).val).tdiv (unitSize unit : Nat)))
/-- An engine issues TDIFF. -/
def execTdiff (p : Fin 18) (ps : Fin 8) (rd : Fin 32) (ta tb : Fin 4) (unit : Fin 5) (s : State) : Res :=
  .next (s.zhn p ps true (zTdiff p rd ta tb unit))

/-- TTAG (R110): the tag of td = wa[7:0]. -/
def zTtag (p td ra : Nat) (s : State) : ZOut :=
  zDone 1 (s.setT p td ⟨normStamp (s.t p td).val, BitVec.ofNat 8 (s.w p ra).toNat⟩)
/-- An engine issues TTAG. -/
def execTtag (p : Fin 18) (ps : Fin 8) (td : Fin 4) (ra : Fin 32) (s : State) : Res := .next (s.zhn p ps true (zTtag p td ra))

/-- A part of a time register: seconds, nanoseconds, fraction, tag. -/
def tPart (t : TReg) : Nat → Nat
  | 0 => stampSec t.val | 1 => stampNs t.val | 2 => stampFrac t.val | _ => t.tag.toNat

/-- TGET (R110). -/
def zTget (p rd ta part : Nat) (s : State) : ZOut := s.wDone p 1 rd (BitVec.ofNat 64 (tPart (s.t p ta) part))
/-- An engine issues TGET. -/
def execTget (p : Fin 18) (ps : Fin 8) (rd : Fin 32) (ta part : Fin 4) (s : State) : Res :=
  .next (s.zhn p ps true (zTget p rd ta part))

/-- The largest value of a part. -/
def tPartMax : Nat → Nat
  | 0 => 2 ^ 48 - 1 | 1 => 999999999 | 2 => 65535 | _ => 255

/-- A time register with one part replaced, normalised (R110). -/
def tSetPart (t : TReg) (part v : Nat) : TReg :=
  match part with
  | 0 => ⟨normStamp (mkStamp v (stampNs t.val) (stampFrac t.val)), t.tag⟩
  | 1 => ⟨normStamp (mkStamp (stampSec t.val) v (stampFrac t.val)), t.tag⟩
  | 2 => ⟨normStamp (mkStamp (stampSec t.val) (stampNs t.val) v), t.tag⟩
  | _ => ⟨normStamp t.val, BitVec.ofNat 8 v⟩

/-- TSET (R110): TIME_RANGE for a value above the part's range. -/
def zTset (p td ra part : Nat) (s : State) : ZOut :=
  let v := (s.w p ra).toNat
  if tPartMax part < v then .exc xTimeRange 0 else zDone 1 (s.setT p td (tSetPart (s.t p td) part v))
/-- An engine issues TSET. -/
def execTset (p : Fin 18) (ps : Fin 8) (td : Fin 4) (ra : Fin 32) (part : Fin 4) (s : State) : Res :=
  .next (s.zhn p ps true (zTset p td ra part))

/-- The condition of TCMP (R111): LT, GE, EQ on the values; TAGEQ on the tags. -/
def tCond (c : Nat) (a b : TReg) : Bool :=
  match c with
  | 0 => decide (a.val.toNat < b.val.toNat)
  | 1 => decide (b.val.toNat ≤ a.val.toNat)
  | 2 => a.val == b.val
  | _ => a.tag == b.tag

/-- TCMP (R111): pd = ta cond tb. -/
def zTcmp (p cond pd ta tb : Nat) (s : State) : ZOut := zDone 2 (s.setP p pd (tCond cond (s.t p ta) (s.t p tb)))
/-- An engine issues TCMP. -/
def execTcmp (p : Fin 18) (ps : Fin 8) (cond : Fin 4) (pd : Fin 8) (ta tb : Fin 4) (s : State) : Res :=
  .next (s.zhn p ps true (zTcmp p cond pd ta tb))

/-- The local-store address of TLD and TST: w[ra] + imm × 4. -/
def State.tAddr (s : State) (p ra imm : Nat) : Nat := lsAddr (s.w p ra + BitVec.ofNat 64 (imm * 4))

/-- TLD (R111): td from 12 bytes of local store, normalised (R110), tagged with s1. -/
def zTld (p td ra imm : Nat) (s : State) : ZOut :=
  let a := s.tAddr p ra imm
  if a % 4 ≠ 0 then .exc xLsRange (w32 a)
  else zDone 4 (s.setT p td ⟨normStamp (wordsStamp (s.lsW p a) (s.lsW p (a + 4)) (s.lsW p (a + 8))), BitVec.ofNat 8 s.stepEpoch⟩)
/-- An engine issues TLD. -/
def execTld (p : Fin 18) (ps : Fin 8) (td : Fin 4) (ra : Fin 32) (imm : BitVec 8) (s : State) : Res :=
  .next (s.zhn p ps true (zTld p td ra imm.toNat))

/-- TST (R111): ta to 12 bytes of local store, without its tag. -/
def zTst (p ta ra imm : Nat) (s : State) : ZOut :=
  let a := s.tAddr p ra imm
  if a % 4 ≠ 0 then .exc xLsRange (w32 a) else zDone 4 (s.lsStore p a (leBytes 12 (s.t p ta).val.toNat))
/-- An engine issues TST. -/
def execTst (p : Fin 18) (ps : Fin 8) (ta : Fin 4) (ra : Fin 32) (imm : BitVec 8) (s : State) : Res :=
  .next (s.zhn p ps true (zTst p ta ra imm.toNat))

/-! ## SUN (R112) -/

/-- UTC seconds of 2000-01-01T00:00:00 and of 2200-01-01T00:00:00 since the epoch of the PTP time scale, leap seconds
not counted: SUN takes UTC as the PTP seconds minus s3, and the PTP epoch is 1970-01-01 (DEDUCED, assumption 8). -/
def sunFirst : Int := 946684800
def sunLast : Int := 7258118400

/-- What SUN's result may differ by from the true position: 20 units of 0.001°, either way (R112). -/
def sunError (n : Nat) : Int := (n % 41 : Nat) - 20
/-- SUN (R112): azimuth and elevation of the Sun's centre, within ±0.02° of the position of Sun.lean for
the instant and the site; azimuth lies in 0–359,999, and beyond ±89° of latitude it is a free value (assumption 8). -/
def zSun (p ra ta : Nat) (s : State) : ZOut :=
  let v := (s.w p ra).toNat
  let lon := toSigned 32 (v / 2 ^ 32)
  let lat := toSigned 32 v
  let t := (s.t p ta).val
  let utc : Int := (stampSec t : Int) - toSigned 32 (s.r R.TIME_UTCOFF.reg).toNat
  if lon < -1800000000 ∨ 1800000000 < lon ∨ lat < -900000000 ∨ 900000000 < lat ∨ utc < sunFirst ∨ sunLast ≤ utc then
    .exc xArgRange 0
  else
    let sub : Int := utc * 65536000000000 + (stampNs t * 65536 + stampFrac t : Nat)
    let a := s.free
    let e := a.2.free
    let az := if lat.natAbs ≤ 890000000 then sunAzimuth sub.toNat lon lat + sunError a.1 else (a.1 : Int)
    let el := sunElevation sub.toNat lon lat + sunError e.1
    e.2.wDone p 180 ra (BitVec.ofNat 64 ((az % 360000).toNat * 2 ^ 32 + ofSigned 32 el))
/-- An engine issues SUN. -/
def execSun (p : Fin 18) (ps : Fin 8) (ra : Fin 32) (ta : Fin 4) (s : State) : Res := .next (s.zhn p ps true (zSun p ra ta))

/-! ## WAIT (R69, R113) -/

/-- Take the oldest event of the engine's list into the buffer at `a` (R113): pd = 1, s5. -/
def State.takeEvent (s : State) (p pd a : Nat) (ev : IEvent) (rest : List IEvent) : State :=
  let l := s.logicalOf p
  let s := (s.setIlist l rest).quEval .intake
  ((s.lsStore p a (wordsBytes (eventWords ev))).setP p pd true).setS5 p rest.length true

/-- WAIT ends without an event (R113): pd = 0, s5. -/
def State.waitNone (s : State) (p pd : Nat) : State :=
  (s.setP p pd false).setS5 p (s.ilist (s.logicalOf p)).length false

/-- WAIT (R113): `ra` names the buffer, `rb` the timeout in µs. With an event it takes it; a timeout of 0 does not block;
otherwise the engine blocks. -/
def zWait (p pd ra rb : Nat) (s : State) : ZOut :=
  let a := lsAddr (s.w p ra)
  let tmo := (s.w p rb).toNat % 2 ^ 32
  if a % 4 ≠ 0 then .exc xLsRange (w32 a)
  else match s.ilist (s.logicalOf p) with
    | ev :: rest => zDone 30 (s.takeEvent p pd a ev rest)
    | [] => if tmo = 0 then zDone 10 (s.waitNone p pd) else .block (.wait pd a tmo) s
/-- An engine issues WAIT. -/
def execWait (p : Fin 18) (ps pd : Fin 8) (ra rb : Fin 32) (s : State) : Res := .next (s.zhn p ps true (zWait p pd ra rb))

/-- A blocked WAIT resumes: the engine leaves WAIT and the instruction retires. -/
def State.unblock (s : State) (p cost : Nat) : State := (s.setEngState p stRun).retire p cost (s.pc p + 1) []

/-- An event has arrived for an engine blocked in WAIT: it takes the event (R113). -/
def State.waitResume (s : State) (p : Nat) : State :=
  match (s.eng p).blocked, s.ilist (s.logicalOf p) with
  | some (.wait pd a _), ev :: rest =>
    if s.engState p = stWait ∧ s.fe.held = false then (s.takeEvent p pd a ev rest).unblock p 30 else s
  | _, _ => s
/-- WAIT_RESUME of physical engine `p`. -/
def execWaitResume (p : Fin 18) (s : State) : Res := .next (s.waitResume p)

/-- The timeout of a blocked WAIT ends with no event (R113). 0xFFFF_FFFF never ends. -/
def State.waitTimeout (s : State) (p : Nat) : State :=
  match (s.eng p).blocked, s.ilist (s.logicalOf p) with
  | some (.wait pd _ tmo), [] =>
    if s.engState p = stWait ∧ s.fe.held = false ∧ tmo ≠ 0xFFFFFFFF then (s.waitNone p pd).unblock p 10 else s
  | _, _ => s
/-- WAIT_TIMEOUT of physical engine `p`. -/
def execWaitTimeout (p : Fin 18) (s : State) : Res := .next (s.waitTimeout p)

/-! ## EMIT (R114, R117, R128–R131) -/

/-- The code of a refused placement in s6 (R117). -/
def emitCode : Refused → Nat
  | .far => 0x01 | .calFull => 0x02 | .quota => 0x03 | .noHandle => 0x03 | .fenced => 0x04

/-- The level that EMIT places for a SET_LEVEL of level `c` to endpoint `i` (R128). -/
def State.clampLevel (s : State) (i c : Nat) : Nat :=
  if s.ep i EP.FAILED = 1 ∧ c = 0 then 0 else min (max c (s.ep i EP.EFF_FLOOR)) (s.ep i EP.EFF_CEIL)

def natZero (_ : Nat) : Nat := 0
/-- The clamp count of logical engine `l` (R129). -/
def State.clampCount (s : State) (l : Nat) : Nat := sget natZero s.fe.clamps l

/-- CLAMPED in the record and the engine's clamp count, when the level was clamped (R129). -/
def State.noteClamp (s : State) (l i : Nat) (clamped : Bool) : State :=
  if clamped then
    let s := s.setEp i EP.CLAMPED 1
    { s with fe := { s.fe with clamps := smod natZero s.fe.clamps l (satInc 0xFFFFFFFF) } }
  else s

/-- EMIT (R114, R117): the descriptor at w[ra], the handle to w[rb], the record of e[ec], the instant t[tr]. What
it reads of the record and of the payload counts as no load for FE_WATCH (DESIGN CHOICE, assumption 188). -/
def zEmit (p pd rb ra ec tr : Nat) (s : State) : ZOut :=
  let a := lsAddr (s.w p ra)
  let c := s.e p ec
  let i := curIdx c
  let l := s.logicalOf p
  let d := descOf (s.lsW p a) (s.lsW p (a + 4)) (s.lsW p (a + 8)) (s.lsW p (a + 12))
  if a % 4 ≠ 0 then .exc xLsRange (w32 a)
  else if s.stale c then .exc xStaleCursor (excAt (epBase i))
  else if !s.epValid i then .exc xEpInvalid (excAt (epBase i))
  else if descBad d (s.ep i EP.PATH) (s.ep i EP.TYPE) then .exc xEmitDesc 0
  else
    let cost := 60 + ceilDiv d.plen 16
    let payload := s.fbytes (0x2000000 + l * 0x80000 + 16 * d.poff) d.plen
    let level := if d.code = ccSetLevel then s.clampLevel i d.level else d.level
    match s.place (.engine l) i level d payload (s.t p tr).val with
    | .inr (n, s') =>
      let s' := s'.noteClamp l i (d.code == ccSetLevel && level != d.level)
      zDone cost (((s'.setW p rb ((s'.handleAt n).zeroExtend 64)).setP p pd true).setS6 p 0)
    | .inl r => zDone cost ((((s.placeFlags r).setW p rb 0).setP p pd false).setS6 p (emitCode r))
/-- An engine issues EMIT. -/
def execEmit (p : Fin 18) (ps pd : Fin 8) (rb ra : Fin 32) (ec tr : Fin 4) (s : State) : Res :=
  .next (s.zhn p ps true (zEmit p pd rb ra ec tr))

/-- DONE (R119). The result w[WB][63:32] goes into the handle; no rule says who reads it, and nothing shows the result of a
handle that an engine owns; bits [63:32] of w[WA], above the handle, do not count (both DESIGN CHOICE, assumption 135). -/
def zDoneH (p pd ra rb : Nat) (s : State) : ZOut :=
  let v := (s.w p rb).toNat
  if v / 65536 % 65536 ≠ 0 then .exc xArgRange 0
  else
    let r := s.hndDone (s.logicalOf p) (w32 (s.w p ra).toNat) (v % 65536) (w32 (v / 2 ^ 32))
    zDone 30 (r.2.setP p pd r.1)
/-- An engine issues DONE. -/
def execDone (p : Fin 18) (ps pd : Fin 8) (ra rb : Fin 32) (s : State) : Res := .next (s.zhn p ps true (zDoneH p pd ra rb))

/-! ## Sheaf instructions (R120) -/

/-- The owner that logical engine `l` is to a context. -/
def engOwner (l : Nat) : Owner := .engine l

/-- STG in context `c`: stage the entry; pd tells whether it was staged. -/
def State.stgIn (s : State) (p pd c : Nat) (e : ShfEntry) : State :=
  let n := (s.ctx c).entries.length
  let s := s.shfStage c (engOwner (s.logicalOf p)) e
  let ok := decide (n < (s.ctx c).entries.length)
  (s.setP p pd ok).setS7 p (s.ctx c).result c

/-- STG (R120): opens the lowest FREE context when the engine has none; NO_CONTEXT when none is FREE. For want of a context
STG, CHK, APL and SDROP set no flag of FE_SHF_EVT (DESIGN CHOICE, assumption 136). -/
def zStg (p pd ra rb : Nat) (s : State) : ZOut :=
  let a := (s.w p ra).toNat
  let b := (s.w p rb).toNat
  let l := s.logicalOf p
  let e : ShfEntry := ⟨b / 2 ^ 32 % 4, w32 b, w32 (a / 2 ^ 32), w32 a⟩
  if 2 ^ 34 ≤ b then .exc xArgRange 0
  else match s.ctxOfEngine l with
    | some c => zDone 30 (s.stgIn p pd c e)
    | none =>
      match s.freeCtx with
      | some c => zDone 30 ((s.shfOpen c (engOwner l) none).stgIn p pd c e)
      | none => zDone 30 ((s.setP p pd false).setS7none p resNoContext)
/-- An engine issues STG; `ra` holds mask and data, `rb` space and address. -/
def execStg (p : Fin 18) (ps pd : Fin 8) (ra rb : Fin 32) (s : State) : Res := .next (s.zhn p ps true (zStg p pd ra rb))

/-- CHK (R120): from OPEN the engine blocks until the check ends; on a CHECKED context NOT_PERMITTED, pd = 1; in another
state NOT_PERMITTED, pd = 0. Without a context pd = 0, and s7 gives NO_CONTEXT with CTX 0 and STATE 0, as SDROP's does
(DESIGN CHOICE, assumption 136). -/
def zChk (p pd : Nat) (s : State) : ZOut :=
  let l := s.logicalOf p
  match s.ctxOfEngine l with
  | none => zDone 10 ((s.setP p pd false).setS7none p resNoContext)
  | some c =>
    let st := (s.ctx c).st
    let s := s.shfCheck c (engOwner l)
    if st = .opened then .block (.chk pd c) s
    else zDone 10 ((s.setP p pd (st = .checked)).setS7 p resNotPermitted c)
/-- An engine issues CHK. -/
def execChk (p : Fin 18) (ps pd : Fin 8) (s : State) : Res := .next (s.zhn p ps true (zChk p pd))

/-- APL (R120): `ra` bit 0 selects timed at t[tr]. It blocks while the check is repeated (R72). Without a context, RESULT is
NOT_CHECKED with CTX 0 and STATE 0 (DESIGN CHOICE, assumption 136). -/
def zApl (p pd ra tr : Nat) (s : State) : ZOut :=
  let v := (s.w p ra).toNat
  let l := s.logicalOf p
  if 2 ≤ v then .exc xArgRange 0
  else match s.ctxOfEngine l with
    | none => zDone 20 ((s.setP p pd false).setS7none p resNotChecked)
    | some c =>
      let was := (s.ctx c).st
      let s := s.shfApply c (engOwner l) (v == 1) (s.t p tr).val
      if was = .checked ∧ (s.ctx c).st = .checking then .block (.apl pd c) s
      else if was = .checked ∧ (s.ctx c).st = .committing then zDone 20 ((s.setP p pd true).setS7 p resOk c)
      else zDone 20 ((s.setP p pd false).setS7 p (s.ctx c).result c)
/-- An engine issues APL. -/
def execApl (p : Fin 18) (ps pd : Fin 8) (ra : Fin 32) (tr : Fin 4) (s : State) : Res :=
  .next (s.zhn p ps true (zApl p pd ra tr))

/-- SDROP (R120): pd = 0 when the engine owns no context in OPEN, CHECKED or FAILED. -/
def zSdrop (p pd : Nat) (s : State) : ZOut :=
  let l := s.logicalOf p
  match s.ctxOfEngine l with
  | none => zDone 10 ((s.setP p pd false).setS7none p resNoContext)
  | some c =>
    let st := (s.ctx c).st
    let s := s.shfDiscard c (engOwner l)
    zDone 10 ((s.setP p pd (st ≠ .checking)).setS7 p (s.ctx c).result c)
/-- An engine issues SDROP. -/
def execSdrop (p : Fin 18) (ps pd : Fin 8) (s : State) : Res := .next (s.zhn p ps true (zSdrop p pd))

/-- The engine blocked in CHK or APL on context `c` goes on when its check has ended (R120): pd, s7 and, for a failure,
s8. -/
def State.chkResume (s : State) (c : Nat) : State :=
  foldS (List.range 18) (fun p s =>
    match (s.eng p).blocked with
    | some (.chk pd k) =>
      if k = c then
        let s := if (s.ctx c).st = .failed then s.setS8 p c else s
        (((s.setP p pd ((s.ctx c).st = .checked)).setS7 p (s.ctx c).result c).retire p 10 (s.pc p + 1) [])
      else s
    | some (.apl pd k) =>
      if k = c then
        let s := if (s.ctx c).st = .failed then s.setS8 p c else s
        (((s.setP p pd ((s.ctx c).st = .committing)).setS7 p (s.ctx c).result c).retire p 20 (s.pc p + 1) [])
      else s
    | _ => s) s

/-! ## System instructions (R121) -/

/-- NOP. -/
def zNop (s : State) : ZOut := zDone 1 s
/-- An engine issues NOP. -/
def execNop (p : Fin 18) (ps : Fin 8) (s : State) : Res := .next (s.zhn p ps true zNop)

/-- FENCE: every store of this model is visible everywhere when its command ends (R45). -/
def zFence (s : State) : ZOut := zDone 1 s
/-- An engine issues FENCE. -/
def execFence (p : Fin 18) (ps : Fin 8) (s : State) : Res := .next (s.zhn p ps true zFence)

/-- TRAP: exception TRAP, its code in FE_EXC_ADDR. -/
def zTrap (code : Nat) (_ : State) : ZOut := .exc xTrap (w32 code)
/-- An engine issues TRAP. In the last word it raises TRAP, and no PC_RANGE for the PC after it (DEDUCED, assumption 191). -/
def execTrap (p : Fin 18) (ps : Fin 8) (code : BitVec 10) (s : State) : Res := .next (s.zhn p ps false (zTrap code.toNat))

/-- HALT: HALTED at the next instruction, FE_HALTED recorded. -/
def zHalt (s : State) : ZOut := .halt s
/-- An engine issues HALT. -/
def execHalt (p : Fin 18) (ps : Fin 8) (s : State) : Res := .next (s.zhn p ps true zHalt)

/-- Draw 64 bits from the DRBG: 0 while ENTROPY_OK is 0, else a free value (R542); every 2²⁰ requests it is
reseeded. -/
def State.drbgDraw (s : State) : Nat × State :=
  if s.on R.KEY_STATUS.ENTROPY_OK then
    let r := s.free
    let d := r.2.drbg
    let d := if d.requests + 1 < 1048576 then { d with requests := d.requests + 1 } else ⟨0, d.reseeds + 1⟩
    (r.1, { r.2 with drbg := d })
  else (0, s)

/-- MFS (R89, R121): wd = s[n]; ILLEGAL for n above 15; s11 draws from the DRBG. -/
def zMfs (p rd n : Nat) (s : State) : ZOut :=
  if 15 < n then .exc xIllegal 0
  else if n = 11 then
    let r := s.drbgDraw
    r.2.wDone p 40 rd (BitVec.ofNat 64 r.1)
  else s.wDone p 2 rd (s.sReg p n)
/-- An engine issues MFS. -/
def execMfs (p : Fin 18) (ps : Fin 8) (rd n : Fin 32) (s : State) : Res := .next (s.zhn p ps true (zMfs p rd n))

/-- MTS (R89): only s12 and s13; ILLEGAL otherwise. -/
def zMts (p n ra : Nat) (s : State) : ZOut :=
  match n with
  | 12 => zDone 2 (s.modEng p (fun e => { e with s12 := s.w p ra }))
  | 13 => zDone 2 (s.modEng p (fun e => { e with s13 := s.w p ra }))
  | _ => .exc xIllegal 0
/-- An engine issues MTS. -/
def execMts (p : Fin 18) (ps : Fin 8) (n ra : Fin 32) (s : State) : Res := .next (s.zhn p ps true (zMts p n ra))

/-- DOUT (R121, R460): wa[31:16] mask, wa[15:0] values. -/
def zDout (p ra : Nat) (s : State) : ZOut :=
  let v := (s.w p ra).toNat
  zDone 8 (s.dout (v / 65536 % 65536) (v % 65536))
/-- An engine issues DOUT. -/
def execDout (p : Fin 18) (ps : Fin 8) (ra : Fin 32) (s : State) : Res := .next (s.zhn p ps true (zDout p ra))

end Sys2Proof.Machine
end

