-- ==== Sys2Proof/Machine/Key.lean ====
section
/-! DEFINITION. The KEY block (R513–R544): slots and shadows, the crypto engine's operations, key creation, replacement,
measured boot, life cycle, tamper, and what start-up finds. The algorithms stand in Crypto.lean (assumption 4). -/
namespace Sys2Proof.Machine
open Sys2Proof

/-! ## Results and types (R513, R541) -/

def krOk : Nat := 0x00
def krInvalidKey : Nat := 0x01
def krInvalidSignature : Nat := 0x02
def krInvalidScalar : Nat := 0x03
def krAuthFail : Nat := 0x04
def krPolicy : Nat := 0x05
def krEmpty : Nat := 0x06
def krType : Nat := 0x07
def krBadLength : Nat := 0x08
def krBusy : Nat := 0x09
def krZeroised : Nat := 0x0A
def krNoEntropy : Nat := 0x0B
def krBadOp : Nat := 0x0C

def ktAes : Nat := 1
def ktSecret : Nat := 2
def ktP256 : Nat := 3
def ktP256Pub : Nat := 4
def ktEd : Nat := 5
def ktEdPub : Nat := 6
def ktX : Nat := 7

/-- Permitted usages of a type as bits SIGN, VERIFY, ENCRYPT, MAC, DERIVE (R513). -/
def typeUsage : Nat → Nat
  | 1 => 4 | 2 => 24 | 3 => 17 | 4 => 2 | 5 => 1 | 6 => 2 | 7 => 16 | _ => 0
/-- Key length of a type in bits (R513). -/
def typeBits : Nat → Nat
  | 0 => 0 | 4 => 512 | _ => 256
def useSign : Nat := 0
def useVerify : Nat := 1
def useEncrypt : Nat := 2
def useMac : Nat := 3
def useDerive : Nat := 4

/-- Life-cycle states (R533); SERVICE is `lcService`. -/
def lcBlank : Nat := 0
def lcProvisioned : Nat := 1
def lcField : Nat := 2
def lcRetired : Nat := 4

/-- The public key of a private key (R513). -/
def publicKey (typ : Nat) (secret : List Byte) : List Byte :=
  if typ = ktP256 then p256Pub secret else if typ = ktEd then edPub secret else xPub secret
/-- Whether a public key passes key validation (R540). -/
def validPoint (typ : Nat) (pub : List Byte) : Bool := if typ = ktP256Pub then p256Valid pub else edValid pub
/-- Whether a signature verifies: ECDSA over a hash, Ed25519 over a message (R538). -/
def verifySig (typ : Nat) (pub m sig : List Byte) : Bool :=
  if typ = ktP256Pub then p256Verify pub m sig else edVerify pub m sig

/-! ## Slots and shadows -/

def slotDefault (_ : Nat) : KeySlot := KeySlot.empty
def shadowDefault (_ : Nat) : Option Shadow := none
/-- Slot `i`; numbers above 127 name no slot and read as empty. -/
def State.kslot (s : State) (i : Nat) : KeySlot := sget slotDefault s.key.slots i
def State.shadow (s : State) (t : Nat) : Option Shadow := sget shadowDefault s.key.shadows t
def KeySlot.valid (k : KeySlot) : Bool := k.typ != 0
def KeySlot.can (k : KeySlot) (u : Nat) : Bool := k.usage.testBit u

/-- Keep the registers that show slot `i` (KEY_SLOTs_INFO, LABEL, GEN) and the counts of KEY_STATUS. -/
def State.showSlot (s : State) (i : Nat) : State :=
  let k := s.kslot i
  let sh := s.shadow i
  let info := b2n k.valid * 2 ^ 31 + k.typ * 2 ^ 27 + k.usage * 2 ^ 22 + k.tags * 2 ^ 17 + k.origin * 2 ^ 15 +
    b2n k.eph * 2 ^ 14 + b2n sh.isSome * 2 ^ 13 + b2n (sh.any (fun x => x.verified)) * 2 ^ 12 + typeBits k.typ
  let s := ((s.setR (R.KEY_SLOT_INFO.reg i) (w32 info)).setR (R.KEY_SLOT_LABEL.reg i) k.label).setF (R.KEY_SLOT_GEN.GEN i) k.gen
  (s.setF R.KEY_STATUS.SLOTS s.key.slots.length).setF R.KEY_STATUS.SHADOWS s.key.shadows.length

/-- Replace slot `i`. -/
def State.setSlot (s : State) (i : Nat) (k : KeySlot) : State :=
  ({ s with key := { s.key with slots := sset slotDefault s.key.slots i k } }).showSlot i
/-- Replace the shadow of slot `t`. -/
def State.setShadowKey (s : State) (t : Nat) (x : Option Shadow) : State :=
  ({ s with key := { s.key with shadows := sset shadowDefault s.key.shadows t x } }).showSlot t
/-- Set or drop the root secret. -/
def State.setRoot (s : State) (r : Option (List Byte)) : State :=
  ({ s with key := { s.key with root := r } }).setF R.KEY_STATUS.ROOT_VALID (b2n r.isSome)
/-- Zero a slot, and its shadow (R521, R532). Its GEN restarts. -/
def State.dropSlot (s : State) (i : Nat) : State := (s.setShadowKey i none).setSlot i KeySlot.empty
/-- The slots that hold keys. -/
def State.heldSlots (s : State) : List Nat := s.key.slots.map (·.1)
/-- Discard every shadow (R532). -/
def State.dropShadows (s : State) : State := foldS (s.key.shadows.map (·.1)) (fun t s => s.setShadowKey t none) s

/-- The life-cycle state is kept in the ledger and shown in KEY_LC_STATUS. -/
def State.setLc (s : State) (v : Nat) : State := ({ s with key := { s.key with state := v } }).setF R.KEY_LC_STATUS.STATE v
/-- The module's EUI-64 in transmission order (R518, R534). -/
def State.euiBytes (s : State) : List Byte := beBytes 8 (euiOfMac s.ident.mac).toNat

/-! ## KEY_BUF -/

/-- Bytes of KEY_BUF (R544). -/
def kbufBytes : Nat := 4096
/-- `n` bytes of KEY_BUF from offset `a`; there is none beyond it. -/
def State.kbuf (s : State) (a n : Nat) : List Byte :=
  (List.range n).map (fun i => if a + i < kbufBytes then wordByte (s.r (R.KEY_BUF.reg ((a + i) / 4))) ((a + i) % 4) else 0)
/-- Store bytes in KEY_BUF from offset 0; those for which it has no place are lost (DESIGN CHOICE, assumption 199). -/
def State.setKbuf (s : State) (l : List Byte) : State :=
  ((l.take kbufBytes).zipIdx 0).foldl (fun s b =>
    s.setR (R.KEY_BUF.reg (b.2 / 4)) (setBits (s.r (R.KEY_BUF.reg (b.2 / 4))) (8 * (b.2 % 4)) 8 b.1.toNat)) s
def zeros (n : Nat) : List Byte := List.replicate n 0
/-- `n` bytes drawn from the DRBG: free values (assumption 2). -/
def State.drawBytes (s : State) (n : Nat) : List Byte × State :=
  ((List.range n).map (fun i => BitVec.ofNat 8 (Config.freeWord (s.freeCtr + i)).toNat),
   { s with freeCtr := s.freeCtr + n, drbg :=
      if s.drbg.requests + 1 < 1048576 then { s.drbg with requests := s.drbg.requests + 1 } else ⟨0, s.drbg.reseeds + 1⟩ })
/-- Reseed the DRBG (R542). -/
def State.reseed (s : State) : State := { s with drbg := ⟨0, s.drbg.reseeds + 1⟩ }

/-! ## Operations (R538–R540) -/

/-- The fixed duration of an operation on a key of a type in units of 10 ns (R538, R540); of SHA-256, SHA-384 and RANDOM, which
depend on no key, their own definitions say it. -/
def keyTime (code typ b16 b64 b128 : Nat) : Nat :=
  match code with
  | 0x01 => if typ = ktP256 then 24000 else 9500 + 3 * b128
  | 0x02 => if typ = ktP256Pub then 18000 else 17000 + 3 * b128
  | 0x03 => if typ = ktP256 then 15000 else 11000
  | 0x04 | 0x05 => 100 + 2 * b16
  | 0x06 | 0x07 => 100 + 4 * b16
  | 0x0A => 100 + 4 * b64
  | 0x10 => if typ = ktP256 then 21000 else 600
  | 0x11 => if typ = ktP256 then 22000 else if typ = ktEd ∨ typ = ktX then 11000 else 200
  | 0x12 => if typ = ktP256Pub then 2000 else 2500
  | 0x13 => 300 + (if typ = ktP256Pub then 2000 else if typ = ktEdPub then 2500 else 0)
  | 0x19 => match typ with
    | 1 => 100 + 2 * b16
    | 2 => 100 + 4 * b64
    | 3 => 22000
    | 4 => 18000
    | 6 => 17000 + 3 * b128
    | _ => 11000
  | 0x14 | 0x1A | 0x1B => 20
  | 0x21 => 24500
  | _ => 50

/-- The inputs of an operation: AUX_LEN, IN_LEN, KEY_OP_ATTR. -/
def State.auxLen (s : State) : Nat := s.f R.KEY_OP_LEN.AUX_LEN
def State.inLen (s : State) : Nat := s.f R.KEY_OP_LEN.IN_LEN
def State.aux (s : State) : List Byte := s.kbuf 0 s.auxLen
def State.input (s : State) : List Byte := s.kbuf s.auxLen s.inLen
/-- AAD and input go beyond KEY_BUF: a length outside the limits (R539). -/
def State.tooLong (s : State) : Bool := decide (kbufBytes < s.auxLen + s.inLen)
/-- The blocks of `n` bytes of input, AAD included. -/
def State.blocks (s : State) (n : Nat) : Nat := ceilDiv (s.auxLen + s.inLen) n

/-- The fixed duration of an operation on a key of a type, with the inputs as they are. -/
def State.opTime (s : State) (code typ : Nat) : Nat := keyTime code typ (s.blocks 16) (s.blocks 64) (s.blocks 128)

/-- What an operation posts: its duration in units of 10 ns with it. -/
abbrev KOut := Nat × KeyOp

/-- An operation that posts a result and nothing else. -/
def kFail (op time result : Nat) (secret : Bool) : KOut := (time, ⟨op, result, none, [], [], none, 0, none, none, secret⟩)
/-- A result that depends on public facts alone is posted after 0.5 µs (R539). -/
def kPublic (op result : Nat) (secret : Bool) : KOut := kFail op 50 result secret
/-- An operation that posts an output. -/
def kOut (op time : Nat) (out : List Byte) (secret : Bool) : KOut := (time, ⟨op, krOk, some out, [], [], none, 0, none, none, secret⟩)
/-- A tag mismatch: AUTH_FAIL after the full time, KEY_BUF zeroed (R540). -/
def kWiped (op time : Nat) : KOut := (time, ⟨op, krAuthFail, some (List.replicate kbufBytes 0), [], [], none, 0, none, none, true⟩)
/-- An operation that writes a slot, or a shadow for a number from 0x80 on. -/
def kWrite (op time b : Nat) (k : KeySlot) : KOut :=
  if b < 128 then (time, ⟨op, krOk, none, [(b, k)], [], none, 0, none, none, true⟩)
  else (time, ⟨op, krOk, none, [], [(b - 128, some ⟨k, false⟩)], none, 0, none, none, true⟩)
/-- Destroy the ephemeral key that served the operation (R519). -/
def State.spend (s : State) (a : Nat) (x : KOut) : KOut :=
  if (s.kslot a).eph then (x.1, { x.2 with slots := x.2.slots ++ [(a, KeySlot.empty)] }) else x

/-- Test slot `a` for an operation: EMPTY, then its type, then its usage (R539). -/
def State.kTest (s : State) (a : Nat) (types : List Nat) (u : Nat) : Option Nat :=
  let k := s.kslot a
  if !k.valid then some krEmpty
  else if !types.contains k.typ then some krType
  else if !k.can u then some krPolicy
  else none

/-- The scalar that ECDSA draws for a signature, from 1 to n − 1: a free value (assumption 4). -/
def State.signScalar (s : State) : Nat := beNat (s.drawBytes 32).1 % (p256N - 1) + 1

/-- SIGN (0x01). -/
def State.opSign (s : State) (a : Nat) : KOut :=
  let k := s.kslot a
  match s.kTest a [ktP256, ktEd] useSign with
  | some r => kPublic 1 r true
  | none =>
    if k.typ = ktP256 ∧ s.inLen ≠ 32 ∨ s.tooLong = true then kPublic 1 krBadLength true
    else s.spend a (kOut 1 (s.opTime 1 k.typ)
      (if k.typ = ktP256 then p256Sign k.secret s.input s.signScalar else edSign k.secret s.input) true)

/-- VERIFY (0x02): the input is the message or hash, then the signature of 64 bytes; with SLOT_A = 0xFF the public key
stands before them, of the type ATTR.TYPE (assumption 29). -/
def State.opVerify (s : State) (a : Nat) : KOut :=
  let k := s.kslot a
  let t := if a = 255 then s.f R.KEY_OP_ATTR.TYPE else k.typ
  let kl := if a = 255 then typeBits t / 8 else 0
  let n := s.inLen - kl - 64
  match (if a = 255 then (if t = ktP256Pub ∨ t = ktEdPub then none else some krType) else s.kTest a [ktP256Pub, ktEdPub] useVerify) with
  | some r => kPublic 2 r (a != 255)
  | none =>
    if s.inLen < kl + 64 ∨ (t = ktP256Pub ∧ n ≠ 32) ∨ s.tooLong = true then kPublic 2 krBadLength (a != 255)
    else
      let time := s.opTime 2 t
      let pub := if a = 255 then s.input.take kl else k.secret
      if a = 255 ∧ validPoint t pub = false then kFail 2 (if t = ktP256Pub then 2000 else 2500) krInvalidKey false
      else
        let ok := verifySig t pub ((s.input.drop kl).take n) ((s.input.drop kl).drop n)
        s.spend a (kFail 2 time (if ok then krOk else krInvalidSignature) (a != 255))

/-! ### Creation (R514, R518–R522, R530) -/

/-- Attributes of the key to create. -/
def State.attrType (s : State) : Nat := s.f R.KEY_OP_ATTR.TYPE
def State.attrUsage (s : State) : Nat := s.f R.KEY_OP_ATTR.USAGE
def State.attrTags (s : State) : Nat := s.f R.KEY_OP_ATTR.TAGS

/-- Why a key cannot be created in slot `b` (R513, R514, R521, R530). -/
def State.createTest (s : State) (b typ usage tags : Nat) : Option Nat :=
  if typ = 0 ∨ 8 ≤ typ then some krType
  else if !tags.testBit s.lcState || tags.testBit 4 || (usage &&& typeUsage typ) != usage then some krPolicy
  else if b = 255 then some krPolicy
  else if b < 128 then
    if (b = 0 ∧ typ ≠ ktP256) ∨ (1 ≤ b ∧ b ≤ 3 ∧ typ ≠ ktP256Pub ∧ typ ≠ ktEdPub) then some krPolicy
    else if (s.kslot b).valid then some krBusy else none
  else
    let t := s.kslot (b - 128)
    if t.typ ≠ typ ∨ t.usage ≠ usage then some krPolicy
    else if s.shadow (b - 128) = none ∧ 8 ≤ s.key.shadows.length then some krBusy else none

/-- A creation that is refused: the type and the usage set are public facts, the rest of the reasons is posted after the operation's
duration (R539). -/
def createFail (op time typ usage r : Nat) : KOut :=
  if r = krType ∨ usage &&& typeUsage typ ≠ usage then kPublic op r true else kFail op time r true

/-- The key of a type from its secret bytes, with the public key kept beside it. -/
def makeKey (typ usage tags origin : Nat) (eph : Bool) (label : Word) (secret : List Byte) : KeySlot :=
  ⟨typ, usage, tags, origin, eph, label, 0, secret,
   if typ = ktP256 ∨ typ = ktEd ∨ typ = ktX then publicKey typ secret
   else if typ = ktP256Pub ∨ typ = ktEdPub then secret else []⟩

/-- The input of HKDF that names a key: LABEL, TYPE, USAGE, TAGS, a zero byte and the context (R518). -/
def deriveInfo (label : Word) (typ usage tags : Nat) (ctx : List Byte) : List Byte :=
  leBytes 4 label.toNat ++ [BitVec.ofNat 8 typ, BitVec.ofNat 8 usage, BitVec.ofNat 8 tags, 0] ++ ctx
/-- The secret bytes that a derivation gives for a key of a type from its 32 or 48 bytes of output (R518). -/
def derivedFrom (out : Nat → List Byte) (typ : Nat) : List Byte :=
  if typ = ktP256 then beBytes 32 (beNat (out 48) % (p256N - 1) + 1) else out 32
/-- The bytes that DERIVE gives for a key of a type: HKDF-SHA-256 with the EUI-64 as salt (R518); under COMPAT the label
scheme of the RS0640, which the spec does not give (R522, assumption 4). -/
def State.derived (s : State) (compat : Bool) (ikm : List Byte) (label : Word) (typ usage tags : Nat) (ctx : List Byte) :
    List Byte :=
  let info := deriveInfo label typ usage tags ctx
  derivedFrom (fun n => if compat then Config.compatKdf n s.euiBytes ikm info else hkdf256 n s.euiBytes ikm info) typ

/-- COMPAT slots (R522): those that hold such a key, and those that are empty and have a recipe, which the next start derives
again (DEDUCED, assumption 176). -/
def State.compatSlots (s : State) : List Nat :=
  (List.range 128).filter (fun i => if (s.kslot i).valid then (s.kslot i).origin == 3 else s.key.recipes.any (fun e => e.1 == i))
/-- The PUF root that a COMPAT derivation uses: reconstructed at the start, or enrolled by the first such derivation (R522). -/
def State.compatRoot (s : State) : Option (List Byte) :=
  match s.key.puf, s.key.helper with
  | some p, _ => some p
  | none, none => some Config.pufRoot
  | none, some _ => none

/-- DERIVE (0x10). -/
def State.opDerive (s : State) (a b : Nat) : KOut :=
  let typ := s.attrType
  let label := s.r R.KEY_OP_LABEL.reg
  let compat := s.on R.KEY_OP_ATTR.COMPAT
  let src : Sum Nat (List Byte) :=
    if compat then
      if s.key.fuses ≥ 16 ∨ 128 ≤ b ∨ (32 ≤ s.compatSlots.length ∧ !s.compatSlots.contains b) then .inl krPolicy
      else match s.compatRoot with
        | some p => .inr p
        | none => .inl krEmpty
    else if a = 255 then
      match s.key.root with
      | some r => .inr r
      | none => .inl krEmpty
    else match s.kTest a [ktSecret] useDerive with
      | some r => .inl r
      | none => .inr (s.kslot a).secret
  let time := s.opTime 0x10 typ
  match src with
  | .inl r => if compat && r == krPolicy then kFail 0x10 time r true else kPublic 0x10 r true
  | .inr ikm =>
    if 56 < s.auxLen then kPublic 0x10 krBadLength true
    else if typ = ktP256Pub ∨ typ = ktEdPub then kPublic 0x10 krType true
    else match s.createTest b typ s.attrUsage s.attrTags with
      | some r => createFail 0x10 time typ s.attrUsage r
      | none =>
        let k := makeKey typ s.attrUsage s.attrTags (if compat then 3 else 0) false label
          (s.derived compat ikm label typ s.attrUsage s.attrTags s.aux)
        let x := kWrite 0x10 time b k
        if compat then (x.1, { x.2 with recipe := some (b, k) }) else s.spend a x

/-- GENERATE (0x11). -/
def State.opGenerate (s : State) (b : Nat) : KOut :=
  let typ := s.attrType
  if typ = ktP256Pub ∨ typ = ktEdPub then kPublic 0x11 krType true
  else match s.createTest b typ s.attrUsage s.attrTags with
    | some r => createFail 0x11 (s.opTime 0x11 typ) typ s.attrUsage r
    | none =>
      let time := s.opTime 0x11 typ
      if !s.on R.KEY_STATUS.ENTROPY_OK then kFail 0x11 time krNoEntropy true
      else
        let d := (s.drawBytes 32).1
        let d := if typ = ktP256 then beBytes 32 (beNat d % (p256N - 1) + 1) else d
        kWrite 0x11 time b (makeKey typ s.attrUsage s.attrTags 1 (s.on R.KEY_OP_ATTR.EPHEMERAL) 0 d)

/-- IMPORT_PUB (0x12). Slots 1–3, not their shadows, take a key in PROVISIONED and SERVICE alone (R520, R530). -/
def State.opImportPub (s : State) (b : Nat) : KOut :=
  let typ := s.attrType
  if typ ≠ ktP256Pub ∧ typ ≠ ktEdPub then kPublic 0x12 krType true
  else if 1 ≤ b ∧ b ≤ 3 ∧ s.lcState ≠ lcProvisioned ∧ s.lcState ≠ lcService then
    createFail 0x12 (s.opTime 0x12 typ) typ s.attrUsage krPolicy
  else match s.createTest b typ s.attrUsage s.attrTags with
    | some r => createFail 0x12 (s.opTime 0x12 typ) typ s.attrUsage r
    | none =>
      let time := s.opTime 0x12 typ
      if s.inLen ≠ typeBits typ / 8 ∨ s.tooLong = true then kPublic 0x12 krBadLength true
      else if validPoint typ s.input then
        kWrite 0x12 time b (makeKey typ s.attrUsage s.attrTags 2 false 0 s.input)
      else kFail 0x12 time krInvalidKey true

/-- The authenticated data of IMPORT_WRAPPED (R520). -/
def State.wrapAad (s : State) : List Byte :=
  leBytes 4 (s.r R.KEY_OP_LABEL.reg).toNat ++ [BitVec.ofNat 8 s.attrType, BitVec.ofNat 8 s.attrUsage, BitVec.ofNat 8 s.attrTags, 0]

/-- IMPORT_WRAPPED (0x13). -/
def State.opImportWrapped (s : State) (a b : Nat) : KOut :=
  let typ := s.attrType
  match s.kTest a [ktAes] useEncrypt with
  | some r => kPublic 0x13 r true
  | none =>
    match s.createTest b typ s.attrUsage s.attrTags with
    | some r => createFail 0x13 (s.opTime 0x13 typ) typ s.attrUsage r
    | none =>
      let time := s.opTime 0x13 typ
      if s.inLen ≠ 28 + typeBits typ / 8 ∨ s.tooLong = true then kPublic 0x13 krBadLength true
      else
        s.spend a (match aeadGcm.open? (s.kslot a).secret (s.input.take 12) s.wrapAad (s.input.drop 12) with
          | none => kWiped 0x13 time
          | some k =>
            if typ = ktP256 ∧ (beNat k = 0 ∨ p256N ≤ beNat k) then kFail 0x13 time krInvalidScalar true
            else if (typ = ktP256Pub ∨ typ = ktEdPub) ∧ validPoint typ k = false then kFail 0x13 time krInvalidKey true
            else kWrite 0x13 time b (makeKey typ s.attrUsage s.attrTags 2 false 0 k))

/-- DESTROY (0x14). -/
def State.opDestroy (a : Nat) : KOut :=
  (20, ⟨0x14, krOk, none, [(a, KeySlot.empty)], [(a, none)], none, 0, none, none, true⟩)

/-- ECDH (0x03). -/
def State.opEcdh (s : State) (a b : Nat) : KOut :=
  let k := s.kslot a
  let time := s.opTime 3 k.typ
  let pubType := if k.typ = ktP256 then ktP256Pub else ktX
  match s.kTest a [ktP256, ktX] useDerive with
  | some r => kPublic 3 r true
  | none =>
    if s.inLen ≠ typeBits pubType / 8 ∨ s.tooLong = true then kPublic 3 krBadLength true
    else if b = 255 ∧ !k.eph then kFail 3 time krPolicy true
    else
      let z := if k.typ = ktP256 then p256Ecdh k.secret s.input else x25519 k.secret s.input
      let bad := if k.typ = ktP256 then !validPoint ktP256Pub s.input else decide (beNat z = 0)
      let badTime := if k.typ = ktP256 then 2000 else time
      if b = 255 then s.spend a (if bad then kFail 3 badTime krInvalidKey true else kOut 3 time z true)
      else match s.createTest b ktSecret s.attrUsage s.attrTags with
        | some r => createFail 3 time ktSecret s.attrUsage r
        | none => s.spend a (if bad then kFail 3 badTime krInvalidKey true
            else kWrite 3 time b (makeKey ktSecret s.attrUsage s.attrTags 0 false 0 z))

/-! ### Ciphers, hashes, random -/

/-- The AEAD unit: mode 0 GCM, 1 CCM with an 8-byte MIC, 2 CCM with a 16-byte MIC; nonce and tag lengths. -/
def aeadNonce (mode : Nat) : Nat := if mode = 0 then 12 else 13
def aeadTag (mode : Nat) : Nat := if mode = 1 then 8 else 16
/-- The AEAD of a mode. -/
def aeadOf (mode : Nat) : Aead := if mode = 0 then aeadGcm else aeadCcm (aeadTag mode)
/-- The CCM mode in use (assumption 29). -/
def State.ccmMode (s : State) : Nat := if Config.ccmLong (s.r R.KEY_OP_ATTR.reg) then 2 else 1

/-- GCM and CCM (0x04–0x07): the input begins with the IV or nonce (assumption 29); the output is the text, on encryption
with the tag. On a mismatch KEY_BUF is zeroed. -/
def State.opAead (s : State) (op a mode : Nat) (enc : Bool) : KOut :=
  let k := s.kslot a
  let n := aeadNonce mode
  let time := s.opTime op k.typ
  match s.kTest a [ktAes] useEncrypt with
  | some r => kPublic op r true
  | none =>
    if s.inLen < n + (if enc then 0 else aeadTag mode) ∨ s.tooLong = true then kPublic op krBadLength true
    else if enc then s.spend a (kOut op time ((aeadOf mode).seal k.secret (s.input.take n) s.aux (s.input.drop n)) true)
    else s.spend a (match (aeadOf mode).open? k.secret (s.input.take n) s.aux (s.input.drop n) with
      | some p => kOut op time p true
      | none => kWiped op time)

/-- SHA-256 and SHA-384 (0x08, 0x09), HMAC-SHA-256 (0x0A). -/
def State.opSha256 (s : State) : KOut :=
  if s.tooLong then kPublic 8 krBadLength false else kOut 8 (50 + 4 * s.blocks 64) (sha256 (s.aux ++ s.input)) false
def State.opSha384 (s : State) : KOut :=
  if s.tooLong then kPublic 9 krBadLength false else kOut 9 (50 + 5 * s.blocks 128) (sha384 (s.aux ++ s.input)) false
def State.opHmac (s : State) (a : Nat) : KOut :=
  match s.kTest a [ktSecret] useMac with
  | some r => kPublic 10 r true
  | none => if s.tooLong then kPublic 10 krBadLength true else s.spend a (kOut 10 (s.opTime 10 ktSecret) (hmac256 (s.kslot a).secret (s.aux ++ s.input)) true)

/-- RANDOM (0x0B): IN_LEN bytes. -/
def State.opRandom (s : State) : KOut :=
  if s.inLen = 0 ∨ 4096 < s.inLen then kPublic 11 krBadLength false
  else if !s.on R.KEY_STATUS.ENTROPY_OK then kFail 11 (100 + 10 * ceilDiv s.inLen 32) krNoEntropy false
  else kOut 11 (100 + 10 * ceilDiv s.inLen 32) (s.drawBytes s.inLen).1 false

/-! ### Replacement (R530–R532), measurement (R537) -/

/-- The test operation of a shadow key and whether it matches (R531), with its duration. -/
def State.replTest (s : State) (k : KeySlot) : Bool × Nat :=
  let want (n : Nat) := s.kbuf (s.auxLen + s.inLen) n
  let ok := match k.typ with
    | 1 =>
      let c := aeadGcm.seal k.secret (s.input.take 12) s.aux (s.input.drop 12)
      decide (c = want c.length)
    | 2 => decide (hmac256 k.secret (s.aux ++ s.input) = want 32)
    | 4 | 6 => verifySig k.typ k.secret (s.input.take (s.inLen - 64)) (s.input.drop (s.inLen - 64))
    | _ => decide (k.pub = want k.pub.length)
  (ok, s.opTime 0x19 k.typ)

/-- The bytes of the expected value that follow the input of a shadow's test operation (R531). -/
def State.replWant (s : State) (k : KeySlot) : Nat :=
  match k.typ with
  | 1 => s.inLen - 12 + 16
  | 2 => 32
  | 4 | 6 => 0
  | _ => k.pub.length
/-- REPL_VERIFY (0x19): a match marks the shadow VERIFIED, a mismatch leaves it unverified (R531). -/
def State.opReplVerify (s : State) (a : Nat) : KOut :=
  match (if 128 ≤ a then s.shadow (a - 128) else none) with
  | none => kPublic 0x19 krEmpty true
  | some x =>
    if kbufBytes < s.auxLen + s.inLen + s.replWant x.key then kPublic 0x19 krBadLength true
    else
    let t := s.replTest x.key
    (t.2, ⟨0x19, krOk, none, [], [(a - 128, some { x with verified := t.1 })], none, if t.1 then 1 else 2,
      none, none, true⟩)
/-- REPL_COMMIT (0x1A). -/
def State.opReplCommit (s : State) (a : Nat) : KOut :=
  match (if 128 ≤ a then s.shadow (a - 128) else none) with
  | none => kPublic 0x1A krEmpty true
  | some x =>
    if x.verified then
      (20, ⟨0x1A, krOk, none, [(a - 128, { x.key with gen := ((s.kslot (a - 128)).gen + 1) % 256 })], [(a - 128, none)], none, 0,
        some (a - 128), none, true⟩)
    else kFail 0x1A 20 krPolicy true
/-- REPL_ABORT (0x1B). -/
def State.opReplAbort (s : State) (a : Nat) : KOut :=
  match (if 128 ≤ a then s.shadow (a - 128) else none) with
  | none => kPublic 0x1B krEmpty true
  | some _ => (20, ⟨0x1B, krOk, none, [], [(a - 128, none)], none, 0, none, none, true⟩)

/-- The measurement in KEY_MB, as 48 bytes. -/
def State.mb (s : State) : List Byte := wordsBytes ((List.range 12).map (fun i => s.r (R.KEY_MB.reg i)))
/-- Set KEY_MB. -/
def State.setMb (s : State) (l : List Byte) : State :=
  foldS (List.range 12) (fun i s => s.setR (R.KEY_MB.reg i) (w32 (leNat ((l.drop (4 * i)).take 4)))) s

/-- MB_EXTEND (0x20). -/
def State.opMbExtend (s : State) : KOut :=
  (150, ⟨0x20, krOk, none, [], [], some (sha384 (s.mb ++ s.kbuf 0 48)), 0, none, none, false⟩)
/-- ATTEST (0x21). -/
def State.opAttest (s : State) : KOut :=
  match s.kTest 0 [ktP256] useSign with
  | some r => kPublic 0x21 r true
  | none => s.spend 0 (kOut 0x21 (s.opTime 0x21 ktP256) (p256Sign (s.kslot 0).secret
      (sha256 (s.mb ++ s.kbuf 0 32 ++ [BitVec.ofNat 8 s.lcState] ++ s.euiBytes)) s.signScalar) true)

/-! ### Issue and end -/

/-- What an operation code does. -/
def State.opOf (s : State) (code a b : Nat) : Option KOut :=
  match code with
  | 0x01 => some (s.opSign a) | 0x02 => some (s.opVerify a) | 0x03 => some (s.opEcdh a b)
  | 0x04 => some (s.opAead 4 a 0 true) | 0x05 => some (s.opAead 5 a 0 false)
  | 0x06 => some (s.opAead 6 a s.ccmMode true) | 0x07 => some (s.opAead 7 a s.ccmMode false)
  | 0x08 => some s.opSha256 | 0x09 => some s.opSha384 | 0x0A => some (s.opHmac a) | 0x0B => some s.opRandom
  | 0x10 => some (s.opDerive a b) | 0x11 => some (s.opGenerate b) | 0x12 => some (s.opImportPub b)
  | 0x13 => some (s.opImportWrapped a b) | 0x14 => some (State.opDestroy a)
  | 0x19 => some (s.opReplVerify a) | 0x1A => some (s.opReplCommit a) | 0x1B => some (s.opReplAbort a)
  | 0x20 => some s.opMbExtend | 0x21 => some s.opAttest
  | _ => none

/-- Post a result at once. -/
def State.opPost (s : State) (time result : Nat) : State :=
  (((s.setF R.KEY_OP_STATUS.BUSY 0).setF R.KEY_OP_STATUS.RESULT result).setF R.KEY_OP_STATUS.OUT_LEN 0).setF R.KEY_OP_TIME.TIME time

/-- The fixed duration of an operation while the store is zeroised (R528): the key that it names is gone, so that its type, where
the duration depends on it, is a free value (assumption 175); a key to create has the type of KEY_OP_ATTR. -/
def State.zeroTime (s : State) (code : Nat) : Nat :=
  s.opTime code (if 0x10 ≤ code ∧ code ≤ 0x13 then s.attrType else Config.wipedType code)

/-- A write of KEY_OP_CMD (R538–R540): ignored while BUSY; BUSY as the result during a life-cycle transition (R535);
BAD_OP for another code. In RETIRED an operation that names a slot or the root returns EMPTY (R533); while ZEROISED it
returns ZEROISED after its duration (R528). Else the operation starts and binds its keys. -/
def State.keyOp (s : State) (code a b : Nat) : State :=
  if s.key.op.isSome then s
  else if s.key.intent.isSome then s.opPost 50 krBusy
  else match s.opOf code a b with
    | none => s.opPost 50 krBadOp
    | some x =>
      let x : KOut :=
        if x.2.secret && s.lcState == lcRetired then kPublic code krEmpty true
        else if x.2.secret && s.on R.KEY_STATUS.ZEROISED then kFail code (s.zeroTime code) krZeroised true
        else x
      let s := { s with freeCtr := s.freeCtr + 4096, key := { s.key with op := some x.2 } }
      let s := if code = 0x0B ∨ code = 0x11 then (s.drawBytes 0).2 else s
      (s.setF R.KEY_OP_STATUS.BUSY 1).setF R.KEY_OP_TIME.TIME x.1

/-- The recipes of the ledger (R522): slot and attributes. -/
def State.recipesCommit (s : State) : State :=
  s.ledgerCommit .recipes (s.key.recipes.flatMap (fun e =>
    leBytes 1 e.1 ++ leBytes 4 e.2.label.toNat ++ leBytes 1 e.2.typ ++ leBytes 1 e.2.usage ++ leBytes 1 e.2.tags))
/-- The module enrols its PUF when the first COMPAT key is derived (R522): the helper data goes to the ledger. -/
def State.pufEnrol (s : State) : State :=
  if s.key.helper.isSome then s
  else (({ s with key := { s.key with puf := some Config.pufRoot, helper := some Config.pufHelper } }).ledgerCommit .helper
    Config.pufHelper).setF R.KEY_LC_STATUS.COMPAT_OK (b2n (decide (s.key.fuses < 16)))

/-- The end of an operation's duration (R539): its result, its output, the slots and shadows it writes, REPL_DONE or
REPL_FAIL, KEY_REPLACED, a COMPAT recipe. -/
def State.opDone (s : State) : State :=
  match s.key.op with
  | none => s
  | some x =>
    let s := { s with key := { s.key with op := none } }
    let s := foldS x.slots (fun e s => if e.2.valid then s.setSlot e.1 e.2 else if e.1 < 128 then s.dropSlot e.1 else s) s
    let s := foldS x.shadows (fun e s => s.setShadowKey e.1 e.2) s
    let s := match x.mb with
      | some l => s.setMb l
      | none => s
    let s := match x.out with
      | some l => s.setKbuf l
      | none => s
    let s := if x.flag = 1 then s.raise E.KEY_EVT.REPL_DONE else if x.flag = 2 then s.raise E.KEY_EVT.REPL_FAIL else s
    let s := match x.replaced with
      | some t => s.record 0x0405 1 t [w32 (s.kslot t).gen, 0]
      | none => s
    let s := match x.recipe with
      | some e => (({ s with key := { s.key with recipes := sset slotDefault s.key.recipes e.1 e.2 } }).pufEnrol).recipesCommit
      | none => s
    ((s.setF R.KEY_OP_STATUS.BUSY 0).setF R.KEY_OP_STATUS.RESULT x.result).setF R.KEY_OP_STATUS.OUT_LEN
      (if x.result = krOk then (x.out.getD []).length else 0)

/-- SIGN. -/
def execSign (a b : Byte) (s : State) : Res := .next (s.keyOp 0x01 a.toNat b.toNat)
/-- VERIFY. -/
def execKeyVerify (a b : Byte) (s : State) : Res := .next (s.keyOp 0x02 a.toNat b.toNat)
/-- ECDH. -/
def execEcdh (a b : Byte) (s : State) : Res := .next (s.keyOp 0x03 a.toNat b.toNat)
/-- GCM encrypt. -/
def execGcmEncrypt (a b : Byte) (s : State) : Res := .next (s.keyOp 0x04 a.toNat b.toNat)
/-- GCM decrypt. -/
def execGcmDecrypt (a b : Byte) (s : State) : Res := .next (s.keyOp 0x05 a.toNat b.toNat)
/-- CCM encrypt. -/
def execCcmEncrypt (a b : Byte) (s : State) : Res := .next (s.keyOp 0x06 a.toNat b.toNat)
/-- CCM decrypt. -/
def execCcmDecrypt (a b : Byte) (s : State) : Res := .next (s.keyOp 0x07 a.toNat b.toNat)
/-- SHA-256. -/
def execSha256 (a b : Byte) (s : State) : Res := .next (s.keyOp 0x08 a.toNat b.toNat)
/-- SHA-384. -/
def execSha384 (a b : Byte) (s : State) : Res := .next (s.keyOp 0x09 a.toNat b.toNat)
/-- HMAC-SHA-256. -/
def execHmacSha256 (a b : Byte) (s : State) : Res := .next (s.keyOp 0x0A a.toNat b.toNat)
/-- RANDOM. -/
def execRandom (a b : Byte) (s : State) : Res := .next (s.keyOp 0x0B a.toNat b.toNat)
/-- DERIVE. -/
def execDerive (a b : Byte) (s : State) : Res := .next (s.keyOp 0x10 a.toNat b.toNat)
/-- GENERATE. -/
def execGenerate (a b : Byte) (s : State) : Res := .next (s.keyOp 0x11 a.toNat b.toNat)
/-- IMPORT_PUB. -/
def execImportPub (a b : Byte) (s : State) : Res := .next (s.keyOp 0x12 a.toNat b.toNat)
/-- IMPORT_WRAPPED. -/
def execImportWrapped (a b : Byte) (s : State) : Res := .next (s.keyOp 0x13 a.toNat b.toNat)
/-- DESTROY. -/
def execDestroy (a b : Byte) (s : State) : Res := .next (s.keyOp 0x14 a.toNat b.toNat)
/-- REPL_VERIFY. -/
def execReplVerify (a b : Byte) (s : State) : Res := .next (s.keyOp 0x19 a.toNat b.toNat)
/-- REPL_COMMIT. -/
def execReplCommit (a b : Byte) (s : State) : Res := .next (s.keyOp 0x1A a.toNat b.toNat)
/-- REPL_ABORT. -/
def execReplAbort (a b : Byte) (s : State) : Res := .next (s.keyOp 0x1B a.toNat b.toNat)
/-- MB_EXTEND. -/
def execMbExtend (a b : Byte) (s : State) : Res := .next (s.keyOp 0x20 a.toNat b.toNat)
/-- ATTEST. -/
def execAttest (a b : Byte) (s : State) : Res := .next (s.keyOp 0x21 a.toNat b.toNat)

/-- Codes of KEY_OP_CMD that R538 does not define. -/
def undefinedOp (code : Nat) : Bool :=
  !([0x01, 0x02, 0x03, 0x04, 0x05, 0x06, 0x07, 0x08, 0x09, 0x0A, 0x0B, 0x10, 0x11, 0x12, 0x13, 0x14, 0x19, 0x1A, 0x1B, 0x20,
    0x21].contains code)
/-- A write of KEY_OP_CMD with a code that R538 does not define. -/
def execKeyUndefinedOp (code : BitVec 6) (a b : Byte) (s : State) : Res :=
  .next (if undefinedOp code.toNat then s.keyOp code.toNat a.toNat b.toNat else s)
/-- KEY_OP_DONE. -/
def execKeyOpDone (s : State) : Res := .next s.opDone

/-! ## Life cycle (R533–R536) -/

/-- KEY_LC_CMD = REQUEST_NONCE: 64 bits of the DRBG. Without entropy no nonce is loaded (R542). -/
def State.requestNonce (s : State) : State :=
  if s.on R.KEY_STATUS.ENTROPY_OK then
    let d := s.drbgDraw
    { (d.2.setPairR R.KEY_LC_NONCE_LO.reg R.KEY_LC_NONCE_HI.reg d.1) with key := { d.2.key with nonce := true } }
  else s
/-- REQUEST_NONCE. -/
def execRequestNonce (s : State) : Res := .next s.requestNonce

/-- The transitions of R533. -/
def lcPermitted (a b : Nat) : Bool :=
  (a == 0 && b == 1) || (a == 1 && b == 2) || (a == 2 && b == 3) || (a == 3 && b == 2) || (a == 3 && b == 1) || (decide (a < 4) && b == 4)

/-- Why a token is refused: 0 field, 1 signature, 2 not permitted (R534, R543). -/
def State.tokenTest (s : State) : Option Nat :=
  let t := s.kbuf 0 84
  let b (i : Nat) : Nat := (t.getD i 0).toNat
  let anchor := s.kslot 1
  if t.take 8 ≠ s.euiBytes ∨ b 8 ≠ s.lcState ∨ 4 < b 9 ∨ 1 < b 10 ∨ b 11 ≠ 0 ∨ !s.key.nonce ∨
      leNat ((t.drop 12).take 8) ≠ s.pairR R.KEY_LC_NONCE_LO.reg R.KEY_LC_NONCE_HI.reg then some 0
  else if !lcPermitted (b 8) (b 9) ∨ (b 10 = 1 ∧ (b 8 = 0 ∧ b 9 = 1 ∨ !anchor.valid)) then some 2
  else if (b 10 = 0 || anchor.typ = ktP256Pub) &&
      p256Verify (if b 10 = 0 then Config.lifeKey else anchor.secret) (sha256 (t.take 20)) ((t.drop 20).take 64) then none
  else some 1

/-- KEY_LC_CMD = TRANSITION (R534, R535 step 1). It consumes the nonce, also while a transition is in progress, when it does
nothing else. An accepted token's INTENT entry, with the SHA-256 that its signature covers, goes to the ledger; it commits when its
entry completes (step 2; assumption 177). -/
def State.lcTransition (s : State) : State :=
  let r := s.tokenTest
  let t := s.kbuf 0 84
  let src := (t.getD 8 0).toNat
  let dst := (t.getD 9 0).toNat
  let signer := (t.getD 10 0).toNat
  let h := sha256 (t.take 20)
  let busy := s.key.intent.isSome
  let s := { s with key := { s.key with nonce := false } }
  if busy then s
  else match r with
    | some why => (s.raise E.KEY_EVT.LC_REFUSED).record 0x0404 2 0xFFFF [w32 src, w32 dst, w32 why]
    | none =>
      let s := ({ s with key := { s.key with intent := some ⟨src, dst, signer, h, false⟩ } }).ledgerWait .intent
        (leBytes 1 src ++ leBytes 1 dst ++ leBytes 1 signer ++ h)
      (s.setF R.KEY_LC_STATUS.TRANSITION 1).setF R.KEY_LC_STATUS.TARGET dst
/-- TRANSITION. -/
def execTransition (s : State) : Res := .next s.lcTransition

/-- A new root secret from the DRBG (R528, R533). -/
def State.newRoot (s : State) : State := (s.drawBytes 32).2.setRoot (some (s.drawBytes 32).1)
/-- Derive slot 0 (R514): P256_PRIV, SIGN, tags 0x0E. -/
def State.deriveSlot0 (s : State) : State :=
  match s.key.root with
  | none => s
  | some r => s.setSlot 0 (makeKey ktP256 1 0x0E 0 false 0 (s.derived false r 0 ktP256 1 0x0E []))

/-- On entry to a state other than SERVICE: FE_CFG.DEBUG returns to 0 and the watchdog is enabled (R66, R353). -/
def State.leaveService (s : State) : State :=
  (foldS (List.range 18) (fun p s => s.setF (R.FE_CFG.DEBUG p) 0) s).setF R.SYS_WDOG_CFG.EN 1

/-- An operation in progress when shadows are discarded writes none, nor a key that `keep` refuses; a commit that has not taken place
leaves the old key in force (R532). -/
def KeyOp.strip (x : KeyOp) (keep : KeySlot → Bool) : KeyOp :=
  if x.replaced.isSome then { x with slots := [], shadows := [], replaced := none, result := krEmpty }
  else { x with shadows := [], slots := x.slots.filter (fun e => !e.2.valid || keep e.2) }
/-- Strip the operation in progress. -/
def State.opStrip (s : State) (keep : KeySlot → Bool) : State :=
  { s with key := { s.key with op := s.key.op.map (fun x => x.strip keep) } }
/-- The slots that a transition zeroes: those without the target's tag; into RETIRED every slot (R533). -/
def State.lcGone (s : State) (i : Intent) : List Nat :=
  s.heldSlots.filter (fun k => i.dst == lcRetired || !(s.kslot k).tags.testBit i.dst)
/-- Step 3 of R535: those slots zeroed, shadows discarded. -/
def State.lcStrip (s : State) (i : Intent) : State :=
  (foldS (s.lcGone i) (fun k s => s.dropSlot k) s.dropShadows).opStrip (fun k => i.dst != lcRetired && k.tags.testBit i.dst)
/-- Step 4 of R535, the actions of R533 on keys: into RETIRED the root and every recipe destroyed; from BLANK a new root; on entry
to PROVISIONED slot 0 derived, unless it is held still (R514; DEDUCED, assumption 178). -/
def State.lcActions (s : State) (i : Intent) : State :=
  let s := if i.dst = lcRetired then (({ s with key := { s.key with recipes := [] } }).recipesCommit).setRoot none else s
  let s := if i.src = lcBlank ∧ i.dst = lcProvisioned then s.newRoot else s
  if i.dst = lcProvisioned ∧ (i.src = lcBlank ∨ (s.kslot 0).valid = false) then s.deriveSlot0 else s
/-- Step 5 of R535: the STATE entry committed, with epoch 0 in it from SERVICE into FIELD (R533), the state changed, LC_DONE,
LC_TRANSITION with the number of slots destroyed. -/
def State.lcEnd (s : State) (i : Intent) (gone : Nat) : State :=
  let s := if i.src = lcService ∧ i.dst = lcField then
      ({ s with ledger := { s.ledger with epoch := 0 } }).setF R.SYS_PAIR_EPOCH.EPOCH 0 else s
  let s := ({ s with key := { s.key with intent := none } }).setF R.KEY_LC_STATUS.TRANSITION 0
  let s := ((s.ledgerCommit .lcState (leBytes 1 i.dst ++ leBytes 4 s.ledger.epoch)).setF R.KEY_LC_STATUS.TARGET 0).setLc i.dst
  let s := if i.dst = lcService then s else s.leaveService
  (s.raise E.KEY_EVT.LC_DONE).record 0x0403 1 0xFFFF [w32 i.src, w32 i.dst, w32 i.signer, w32 gone]

/-- Steps 2–5 of R535. -/
def State.lcComplete (s : State) : State :=
  match s.key.intent with
  | none => s
  | some i => ((s.lcStrip i).lcActions i).lcEnd i (s.lcGone i).length
/-- A supply warning during a transition (R536): before INTENT has committed the old state and every key stand; after it, step 3
runs and the STATE entry is written. -/
def State.lcWarned (s : State) : State :=
  match s.key.intent with
  | none => s
  | some i =>
    if i.committed then (s.lcStrip i).lcEnd i (s.lcGone i).length
    else (({ s with key := { s.key with intent := none } }).setF R.KEY_LC_STATUS.TRANSITION 0).setF R.KEY_LC_STATUS.TARGET 0
/-- TRANSITION_COMPLETE. -/
def execTransitionComplete (s : State) : Res := .next s.lcComplete

/-! ## Tamper (R524–R528) -/

/-- An operation that a tamper found in progress (R525). -/
def KeyOp.wiped (x : KeyOp) : KeyOp :=
  { op := x.op, result := krZeroised, out := x.out.map (fun l => zeros l.length), slots := [], shadows := [], mb := none,
    flag := 0, replaced := none, recipe := none, secret := x.secret }

/-- Zero every secret (R525): slots, shadows, root, PUF root, DRBG; the operation in progress ends with ZEROISED and zero
output. -/
def State.zeroise (s : State) : State :=
  let s := foldS s.heldSlots (fun k s => s.dropSlot k) s.dropShadows
  let s := s.setRoot none
  let s := { s with drbg := ⟨0, 0⟩, key := { s.key with
    puf := none,
    op := s.key.op.map KeyOp.wiped } }
  s.setF R.KEY_STATUS.ZEROISED 1

/-- The ledger's part of a tamper: recipes destroyed, TAMPER recorded, the count incremented (R526). -/
def State.tamperLedger (s : State) (cause : Nat) : State :=
  ({ s with key := { s.key with recipes := [], tampers := s.key.tampers + 1 } }).recipesCommit.ledgerCommit .tampers
    (leBytes 4 (s.key.tampers + 1)) |>.record 0x0401 3 0xFFFF [w32 cause, w32 s.key.fuses]

/-- The sources that count: in SERVICE the masked loops do not (R527). -/
def State.tamperSources (s : State) (sources : Nat) : Nat :=
  sources - (sources &&& if s.lcState = lcService then s.f R.KEY_TAMP_CFG.LOOP_MASK else 0)
/-- Whether a set of active sources is a detection, and not the end of some that were active (DEDUCED, assumption 200). -/
def State.tampered (s : State) (n : Nat) : Bool := n != 0 && (n == s.f R.KEY_TAMP_STATUS.NOW || n &&& s.f R.KEY_TAMP_STATUS.NOW != n)
/-- The sources active now (R524–R527), which NOW shows (R544). Within an event the secrets are zeroed again, and a source is latched
beside the earlier ones. A new event blows a fuse. -/
def State.tamper (s : State) (sources : Nat) : State :=
  let n := s.tamperSources sources
  if !s.tampered n then s.setF R.KEY_TAMP_STATUS.NOW n
  else
    let s := s.zeroise.setF R.KEY_TAMP_STATUS.NOW n
    if s.key.inEvent then (s.setF R.KEY_TAMP_STATUS.CAUSE (s.f R.KEY_TAMP_STATUS.CAUSE ||| n)).raise E.KEY_EVT.TAMPER
    else
      let s := ((s.setF R.KEY_TAMP_STATUS.CAUSE n).raise E.KEY_EVT.TAMPER)
      let f := if s.key.fuses < 16 then s.key.fuses + 1 else 16
      let s := ({ s with key := { s.key with fuses := f, inEvent := true } }).setF R.KEY_LC_STATUS.FUSES f
      let s := if f = 16 then s.setF R.KEY_LC_STATUS.COMPAT_OK 0 else s
      if s.power.inputOk then s.tamperLedger n else s
/-- TAMPER with the sources active now, in the order of KEY_TAMP_STATUS.CAUSE. -/
def execTamper (sources : BitVec 7) (s : State) : Res := .next (s.tamper sources.toNat)

/-- No source has been active for 1 s and the main input is present (R528). Without the main input the event ends and
ZEROISED stays. -/
def State.zeroiseClear (s : State) : State :=
  let s := ({ s with key := { s.key with inEvent := false } }).setF R.KEY_TAMP_STATUS.NOW 0
  if s.power.inputOk ∧ s.on R.KEY_STATUS.ZEROISED = true then
    (({ s.reseed with key := { s.key with marker := true } }).setF R.KEY_STATUS.ZEROISED 0).newRoot
  else s
/-- ZEROISE_CLEAR. -/
def execZeroiseClear (s : State) : Res := .next s.zeroiseClear

/-- An entropy health test fails (R542, R543). -/
def State.entropyFail (s : State) (test : Nat) : State :=
  ((s.setF R.KEY_STATUS.ENTROPY_OK 0).raise E.KEY_EVT.ENTROPY_FAIL).record 0x0407 3 0xFFFF [w32 test, 0]
/-- ENTROPY_FAIL: test 0 repetition count, 1 adaptive proportion. -/
def execEntropyFail (test : Fin 2) (s : State) : Res := .next (s.entropyFail test)
/-- ENTROPY_RECOVER. -/
def execEntropyRecover (s : State) : Res := .next (s.setF R.KEY_STATUS.ENTROPY_OK 1)

/-! ## Resets and start-up (R519, R522, R523, R529, R532, R534) -/

/-- Every reset: ephemeral keys destroyed, shadows discarded, the nonce consumed. -/
def State.keyReset (s : State) : State :=
  let s := foldS (s.heldSlots.filter (fun k => (s.kslot k).eph)) (fun k s => s.dropSlot k) s.dropShadows
  ({ s with key := { s.key with nonce := false } }).opStrip (fun k => !k.eph)

/-- Step 4 of R348: the marker and the fuses are tested (R529); the DRBG is seeded. A tamper is completed for each fuse above the
ledger's count (R526). -/
def State.keyTest (s : State) : State :=
  let s := ((s.setF R.KEY_STATUS.ENTROPY_OK 1).reseed.setF R.KEY_LC_STATUS.STATE s.key.state).setF R.KEY_LC_STATUS.FUSES s.key.fuses
  let s := foldS s.heldSlots (fun k s => s.showSlot k) s
  let s := s.setF R.KEY_STATUS.ROOT_VALID (b2n s.key.root.isSome)
  if s.key.tampers < s.key.fuses then
    foldS (List.range (s.key.fuses - s.key.tampers)) (fun _ s => s.tamperLedger (s.f R.KEY_TAMP_STATUS.CAUSE))
      ((s.raise E.KEY_EVT.TAMPER).setF R.KEY_STATUS.ZEROISED 1)
  else if s.key.marker then s
  else
    let s := foldS s.heldSlots (fun k s => s.dropSlot k) s
    let s := (s.raise E.KEY_EVT.KEYS_LOST_POWER).record 0x0402 3 0xFFFF [0, 0]
    ({ s with key := { s.key with marker := true } }).newRoot

/-- Step 5 of R348: the PUF root is reconstructed from the helper data and every recorded COMPAT slot derived again, unless the
slot holds another key now (R522), or PUF_FAIL (R523). A PUF not enrolled yet has no helper data and no slot (assumption 176). -/
def State.pufStart (s : State) (ok : Bool) : State :=
  if ok then
    if s.key.helper.isNone then s
    else
      let s := { s with key := { s.key with puf := some Config.pufRoot } }
      let s := s.setF R.KEY_LC_STATUS.COMPAT_OK (b2n (decide (s.key.fuses < 16)))
      foldS s.key.recipes (fun e s => if (s.kslot e.1).valid && (s.kslot e.1).origin != 3 then s else s.setSlot e.1 e.2) s
  else
    let s := foldS (s.heldSlots.filter (fun k => (s.kslot k).origin == 3)) (fun k s => s.dropSlot k) s
    ((({ s with key := { s.key with puf := none } }).setF R.KEY_LC_STATUS.COMPAT_OK 0).raise E.KEY_EVT.PUF_FAIL).record 0x0406 2 0xFFFF [0, 0]

end Sys2Proof.Machine
end

