-- ==== Sys2Proof/Machine/Ptp.lean ====
section
/-! DEFINITION. The choice of the PTP master (R296): the Announce messages that the ports receive, and the best-master choice of
IEEE 1588-2019 and ITU-T G.8275.1 among them. The spec names both and restates neither (PRESUMED, assumption 195). -/
namespace Sys2Proof.Machine
open Sys2Proof

/-- The domains of a profile (R296): 24–43 under G.8275.1, 0–127 under the default profile. -/
def ptpDomain (telecom : Bool) (d : Nat) : Bool := if telecom then decide (24 ≤ d ∧ d ≤ 43) else decide (d ≤ 127)
/-- Whether PTP runs on a port: enabled, with ROLE UPLINK, RING or PAIR (R296), and UP, as no other receives (R262). -/
def State.ptpOn (s : State) (n : Nat) : Bool :=
  s.portUp n && s.on (R.TIME_PTP_PORT.EN n) && (s.portRole n == prUplink || s.portRole n == prRing || s.portRole n == prPair)

/-- The big-endian number in `n` bytes of a message from byte `a` on. -/
def ptpField (l : List Byte) (a n : Nat) : Nat := beNat ((l.drop a).take n)
/-- Whether a frame is an Announce message of version 2: untagged (R296), messageType 0xB, at least 64 bytes. -/
def Frame.isAnnounce (f : Frame) : Bool :=
  f.etype == etPtp && f.tci.isNone && f.hsr.isNone && !f.badFcs && decide (64 ≤ f.body.length) &&
    ptpField f.body 0 1 % 16 == 11 && ptpField f.body 1 1 % 16 == 2
/-- The ticks between the Announce messages of a sender: 2ⁿ s for a signed exponent, of at least 2⁻⁷ and at most 2⁷ s. -/
def announceTicks (log : Nat) : Nat :=
  let e := max (-7) (min 7 (toSigned 8 log))
  secTicks * 2 ^ (e + 7).toNat / 128
/-- The data set that an Announce message carries. -/
def Frame.master (f : Frame) (n now : Nat) (before : Option Nat) : PtpMaster :=
  let b := f.body
  ⟨n, ptpField b 4 1, ptpField b 20 10, ptpField b 47 1, ptpField b 48 1, ptpField b 49 1, ptpField b 50 2, ptpField b 52 1,
    ptpField b 53 8, ptpField b 61 2, announceTicks (ptpField b 33 1), now, before⟩

/-- A frame on a port: an Announce message takes the place of the one before it from the same sender. -/
def State.announce (s : State) (n : Nat) (f : Frame) : State :=
  if f.isAnnounce && s.ptpOn n then
    let same := fun (x : PtpMaster) => x.port == n && x.domain == ptpField f.body 4 1 && x.sender == ptpField f.body 20 10
    let before := (s.time.masters.find? same).map (·.heard)
    { s with time := { s.time with
      masters := s.time.masters.filter (fun x => !same x) ++ [f.master n s.opTotal before] } }
  else s

/-- Whether a master counts: its port runs PTP, its latest Announce is not older than three of its intervals, another came at most
four intervals before that, and it is fewer than 255 steps away. -/
def State.masterHeard (s : State) (x : PtpMaster) : Bool :=
  s.ptpOn x.port && decide (s.opTotal ≤ x.heard + 3 * x.interval) && decide (x.steps < 255) &&
    match x.before with
    | some t => decide (x.heard ≤ t + 4 * x.interval)
    | none => false

/-- What the comparison of data sets compares, one after the other, less being better: the default one, and under G.8275.1 without
priority 1, and without the grandmaster's identity for a class of at most 127. -/
def PtpMaster.key (telecom : Bool) (x : PtpMaster) : List Nat :=
  (if telecom then [] else [x.priority1]) ++ [x.clockClass, x.accuracy, x.variance, x.priority2] ++
    (if telecom && decide (x.clockClass ≤ 127) then [] else [x.grandmaster]) ++ [x.steps, x.sender, x.port]
/-- Whether one list of numbers comes before another. -/
def listLt : List Nat → List Nat → Bool
  | a :: l, b :: m => if a < b then true else if b < a then false else listLt l m
  | _, _ => false
/-- The master that the best-master choice of a profile selects in a domain: the best of those that count. -/
def State.bestMaster (s : State) (telecom : Bool) (d : Nat) : Option PtpMaster :=
  (s.time.masters.filter (fun x => x.domain == d && s.masterHeard x)).foldl (fun b x => match b with
    | none => some x
    | some y => if listLt (x.key telecom) (y.key telecom) then some x else some y) none
/-- Whether the master on port `n` is the selected one; with no master heard, the interval itself says so. -/
def State.isMaster (s : State) (telecom : Bool) (d n : Nat) : Bool :=
  match s.bestMaster telecom d with
  | some x => x.port == n
  | none => true

end Sys2Proof.Machine
end

