-- ==== Sys2Proof/Machine/Rings.lean ====
section
/-! DEFINITION. Seamless rings (R269–R281, R567, R568): duplicate discard, source records, supervision, VIA bits and ring
state, and the endpoint frames of rings. -/
namespace Sys2Proof.Machine
open Sys2Proof

/-! ## Node tables (R269) -/

/-- The MAC of node `j` of ring `k`. -/
def State.nodeMac (s : State) (k j : Nat) : Mac :=
  BitVec.ofNat 48 (s.f (R.RING_NODE_MAC_LO.MAC_LO k j) + s.f (R.RING_NODE_MAC_HI.MAC_HI k j) * 4294967296)
def State.nodeValid (s : State) (k j : Nat) : Bool := s.on (R.RING_NODE_MAC_HI.VALID k j)
/-- The valid node positions of ring `k`. -/
def State.nodes (s : State) (k : Nat) : List Nat := (List.range 17).filter (s.nodeValid k)
/-- The position of the valid node with a MAC. -/
def State.nodeOf (s : State) (k : Nat) (m : Mac) : Option Nat := (s.nodes k).find? (fun j => s.nodeMac k j = m)
def State.viaA (s : State) (k j : Nat) : Bool := s.on (R.RING_NODE_STATUS.VIA_A k j)
def State.viaB (s : State) (k j : Nat) : Bool := s.on (R.RING_NODE_STATUS.VIA_B k j)
/-- The VIA field of a side: `true` for port A. -/
def viaFld (k j : Nat) (a : Bool) : Fld := if a then R.RING_NODE_STATUS.VIA_A k j else R.RING_NODE_STATUS.VIA_B k j

/-! ## Ring state (R280, R281) -/

/-- LO of R280. -/
def State.ringLo (s : State) (k : Nat) : Nat :=
  (s.nodes k).foldl (fun a j => if s.viaA k j && !s.viaB k j then j else a) 0x1E
/-- HI of R280. -/
def State.ringHi (s : State) (k : Nat) : Nat := ((s.nodes k).find? (fun j => s.viaB k j && !s.viaA k j)).getD 0x1F
/-- LOC_VALID of R280. A ring without a valid node keeps 0. -/
def State.ringLoc (s : State) (k : Nat) : Bool :=
  let lo := s.ringLo k
  let hi := s.ringHi k
  s.nodes k != [] && (s.nodes k).all (fun j => !(s.viaA k j && s.viaB k j)) &&
    decide ((if lo = 0x1E then 0 else lo + 1) < (if hi = 0x1F then (s.nodes k).length + 1 else hi + 1))
/-- Whether node `j` is lost: both bits 0 while another valid node has a bit at 1. -/
def State.nodeLost (s : State) (k j : Nat) : Bool :=
  s.nodeValid k j && !s.viaA k j && !s.viaB k j && (s.nodes k).any (fun i => s.viaA k i || s.viaB k i)

/-- Bring RING_STATUS up to date after VIA bits or nodes of ring `k` changed from `was` (R280, R281). -/
def State.ringUpdate (was s : State) (k : Nat) : State :=
  let lo := s.ringLo k
  let hi := s.ringHi k
  let loc := s.ringLoc k
  let s' := ((s.setF (R.RING_STATUS.LO k) lo).setF (R.RING_STATUS.HI k) hi).setF (R.RING_STATUS.LOC_VALID k) (b2n loc)
  let split := (s.nodes k).any (fun j => s.viaA k j != s.viaB k j)
  let whole := s.nodes k != [] && (s.nodes k).all (fun j => s.viaA k j && s.viaB k j)
  let s' :=
    if split && !s'.on (R.RING_STATUS.OPEN k) then
      let s' := (s'.setF (R.RING_STATUS.OPEN k) 1).raise (E.RING_EVT.RING_OPEN k)
      s'.record 0x0802 2 k [s'.r (R.RING_STATUS.reg k)]
    else if whole && s'.on (R.RING_STATUS.OPEN k) then
      ((s'.setF (R.RING_STATUS.OPEN k) 0).raise (E.RING_EVT.RING_CLOSED k)).record 0x0804 1 k [0]
    else s'
  let s' := if (s.nodes k).any (fun j => s.nodeLost k j && !was.nodeLost k j) then s'.raise (E.RING_EVT.NODE_LOST k) else s'
  let same := was.on (R.RING_STATUS.LOC_VALID k) && was.f (R.RING_STATUS.LO k) == lo && was.f (R.RING_STATUS.HI k) == hi
  if loc && !same then s'.record 0x0803 1 k [w32 lo, w32 hi] else s'

/-- Set or clear a VIA bit of node `j`. -/
def State.setVia (s : State) (k j : Nat) (a v : Bool) : State := s.ringUpdate (s.setF (viaFld k j a) (b2n v)) k

/-! ## Duplicate discard (R274–R277) -/

def ddDefault (_ : Nat) : List DdEntry := []
def srcDefault (_ : Nat) : List DdSource := []
/-- The plot that holds the entries of ring `k`: that of its PORT_A. -/
def State.ddPlot (s : State) (k : Nat) : Nat := plotOf (s.ringA k)
def State.dd (s : State) (p : Nat) : List DdEntry := sget ddDefault s.rings.dd p
def State.setDd (s : State) (p : Nat) (x : List DdEntry) : State :=
  { s with rings := { s.rings with dd := sset ddDefault s.rings.dd p x } }
def State.srcs (s : State) (p : Nat) : List DdSource := sget srcDefault s.rings.srcs p
def State.setSrcs (s : State) (p : Nat) (x : List DdSource) : State :=
  { s with rings := { s.rings with srcs := sset srcDefault s.rings.srcs p x } }

/-- Whether an entry has a key. -/
def DdEntry.hits (e : DdEntry) (k : Nat) (m : Mac) (q : Nat) : Bool := e.ring == k && e.src == m && e.seq == q
def DdSource.hits (x : DdSource) (k : Nat) (m : Mac) : Bool := x.ring == k && x.src == m
def State.ddFind (s : State) (k : Nat) (m : Mac) (q : Nat) : Option DdEntry := (s.dd (s.ddPlot k)).find? (·.hits k m q)
/-- Replace the entry of a key, or remove it. -/
def State.ddPut (s : State) (k : Nat) (m : Mac) (q : Nat) (f : DdEntry → Option DdEntry) : State :=
  s.setDd (s.ddPlot k) ((s.dd (s.ddPlot k)).filterMap (fun e => if e.hits k m q then f e else some e))
/-- Apply a change to the source record of a source. -/
def State.srcMod (s : State) (k : Nat) (m : Mac) (f : DdSource → DdSource) : State :=
  s.setSrcs (s.ddPlot k) ((s.srcs (s.ddPlot k)).map (fun x => if x.hits k m then f x else x))

def ddCap : Nat := 65536
def srcCap : Nat := 16384

/-- Create an entry; a full table evicts its oldest, with DD_EVICT of the ring that created that one (R276). -/
def State.ddCreate (s : State) (e : DdEntry) : State :=
  let p := s.ddPlot e.ring
  match s.dd p with
  | old :: rest =>
    if (s.dd p).length < ddCap then s.setDd p (s.dd p ++ [e])
    else (s.setDd p (rest ++ [e])).raise (E.RING_EVT.DD_EVICT old.ring)
  | [] => s.setDd p [e]

/-- An accepted frame of a source: its source record is created or NEWEST advances, and entries that NEWEST has left
32,768 or more behind go (R275, R276). The answer is how far NEWEST lies beyond the frame's own number. -/
def State.srcAccept (s : State) (k : Nat) (m : Mac) (q : Nat) : Nat × State :=
  let p := s.ddPlot k
  match (s.srcs p).find? (·.hits k m) with
  | none =>
    let x : DdSource := ⟨k, m, q, s.time.now⟩
    match s.srcs p with
    | old :: rest =>
      if (s.srcs p).length < srcCap then (0, s.setSrcs p (s.srcs p ++ [x]))
      else (0, (s.setSrcs p (rest ++ [x])).raise (E.RING_EVT.DD_EVICT old.ring))
    | [] => (0, s.setSrcs p [x])
  | some x =>
    let d := (q + 65536 - x.newest) % 65536
    if 1 ≤ d ∧ d ≤ 32767 then
      let s := s.srcMod k m (fun x => { x with newest := q })
      (0, s.setDd p ((s.dd p).filterMap (fun e =>
        if e.ring == k && e.src == m then
          (if e.beyond + d < 32768 then some { e with beyond := e.beyond + d } else none)
        else some e)))
    else ((65536 - d) % 65536, s)

/-- The run of a node of ring `k` (R279). -/
def State.gapRun (s : State) (k : Nat) (m : Mac) : GapRun :=
  (s.rings.runs.find? (fun x => x.ring == k && x.src == m)).getD ⟨k, m, 0, 0⟩
/-- Set the run of a node; an ended one is not listed. A source that is no node of the ring has none. -/
def State.setGapRun (s : State) (k : Nat) (m : Mac) (a b : Nat) : State :=
  if (s.nodeOf k m).isSome then
    let l := s.rings.runs.filter (fun x => !(x.ring == k && x.src == m))
    { s with rings := { s.rings with runs := if a = 0 ∧ b = 0 then l else l ++ [⟨k, m, a, b⟩] } }
  else s

/-- A tagged frame arrives on a port of ring `k`, port A when `a` (R274–R276): whether it is accepted. -/
def State.ddReceive (s : State) (k : Nat) (a : Bool) (m : Mac) (q : Nat) : Bool × State :=
  let s := s.srcMod k m (fun x => { x with last := s.time.now })
  let whole := fun (s : State) => s.setGapRun k m 0 0
  match s.ddFind k m q with
  | some e =>
    let seen := if a then e.seenA else e.seenB
    if e.sent then
      let s := s.count (R.RING_CNT_OWN.COUNT k)
      let e' := if a then { e with seenA := true } else { e with seenB := true }
      if e'.seenA && e'.seenB then (false, whole (s.ddPut k m q (fun _ => none)))
      else (false, s.ddPut k m q (fun _ => some e'))
    else if seen then (false, s.count (R.RING_CNT_DUP.COUNT k))
    else (false, whole ((s.count (R.RING_CNT_DUP.COUNT k)).ddPut k m q (fun _ => none)))
  | none =>
    let r := s.srcAccept k m q
    (true, r.2.ddCreate ⟨k, m, q, a, !a, false, s.time.now, false, r.1⟩)

/-- How far NEWEST of a source lies beyond a number; 0 without a record, or when the number is the newer one (R275). -/
def State.srcBeyond (s : State) (k : Nat) (m : Mac) (q : Nat) : Nat :=
  match (s.srcs (s.ddPlot k)).find? (·.hits k m) with
  | some x => let d := (x.newest + 65536 - q) % 65536; if d < 32768 then d else 0
  | none => 0
/-- The module sends a frame into ring `k` (R277). -/
def State.ddSent (s : State) (k : Nat) (m : Mac) (q : Nat) : State :=
  match s.ddFind k m q with
  | some _ => s.ddPut k m q (fun e => some { e with sent := true })
  | none => s.ddCreate ⟨k, m, q, false, false, true, s.time.now, false, s.srcBeyond k m q⟩

/-- An entry is removed 40 ms after its creation (R276), from whatever plot holds it: PORT_A may have moved since. -/
def State.ddExpire (s : State) (k : Nat) (m : Mac) (q : Nat) : State :=
  foldS (List.range 8) (fun p s => s.setDd p ((s.dd p).filter (fun e => !e.hits k m q))) s
/-- DD_ENTRY_EXPIRE. -/
def execDdEntryExpire (k : Fin 128) (m : Mac) (q : BitVec 16) (s : State) : Res := .next (s.ddExpire k m q.toNat)
/-- A source record is removed, with its entries, 40 ms after its latest frame (R276). -/
def State.srcExpire (s : State) (k : Nat) (m : Mac) : State :=
  foldS (List.range 8) (fun p s =>
    (s.setSrcs p ((s.srcs p).filter (fun x => !x.hits k m))).setDd p
      ((s.dd p).filter (fun e => !(e.ring == k && e.src == m)))) s
/-- DD_SOURCE_EXPIRE. -/
def execDdSourceExpire (k : Fin 128) (m : Mac) (s : State) : Res := .next (s.srcExpire k m)

/-! ## VIA bits (R279) -/

/-- A frame whose source is a node arrives on a port of ring `k`. -/
def State.viaSeen (s : State) (k : Nat) (a : Bool) (m : Mac) : State :=
  match s.nodeOf k m with
  | some j => s.setVia k j a true
  | none => s
/-- 4.5 s without a frame of node `j` on a port. -/
def State.viaTimeout (s : State) (k j : Nat) (a : Bool) : State := if s.nodeValid k j then s.setVia k j a false else s
/-- VIA_TIMEOUT: ring, node position, and whether the port is PORT_A. -/
def execViaTimeout (k : Fin 128) (j : Fin 17) (a : Bool) (s : State) : Res := .next (s.viaTimeout k j a)

/-- An entry reaches SKEW_TMO with one port marked (R279): counted; at GAP_N in a row the other port's VIA bit of that
source falls. -/
def State.oneSided (s : State) (k : Nat) (m : Mac) (q : Nat) : State :=
  match s.ddFind k m q with
  | none => s
  | some e =>
    if e.seenA == e.seenB || e.counted then s
    else
      let s := (s.ddPut k m q (fun e => some { e with counted := true })).count (R.RING_CNT_ONE_SIDED.COUNT k)
      let x := s.gapRun k m
      let run := if e.seenA then x.onlyA + 1 else x.onlyB + 1
      let s := if e.seenA then s.setGapRun k m run 0 else s.setGapRun k m 0 run
      match s.nodeOf k m with
      | some j => if max 1 (s.f (R.RING_DET_CFG.GAP_N k)) ≤ run then s.setVia k j (!e.seenA) false else s
      | none => s
/-- ONE_SIDED_ENTRY. -/
def execOneSidedEntry (k : Fin 128) (m : Mac) (q : BitVec 16) (s : State) : Res := .next (s.oneSided k m q.toNat)

/-! ## Supervision (R278) -/

/-- A supervision frame from an address that is in no valid node entry: UNKNOWN_NODE on the first after 60 s without
one. -/
def State.svCheck (s : State) (k : Nat) (m : Mac) : State :=
  if (s.nodeOf k m).isSome then s
  else
    let last := (s.rings.unknown.find? (fun x => x.1 == k && x.2.1 == m)).map (·.2.2)
    let s := if s.passed last 60 then s.raise (E.RING_EVT.UNKNOWN_NODE k) else s
    { s with rings := { s.rings with
        unknown := s.rings.unknown.filter (fun x => !(x.1 == k && x.2.1 == m)) ++ [(k, m, s.opTotal)] } }

/-! ## Frames on ring ports (R271, R192, R203) -/

/-- The ring's other port. -/
def State.otherPort (s : State) (k n : Nat) : Nat := if n = s.ringA k then s.ringB k else s.ringA k

/-- An accepted frame of ring `k` on port `n`: passed along unless it is addressed to the module alone, and handed to the
control port or the bridge by R192. -/
def State.ringTake (s : State) (k n : Nat) (f : Frame) : State :=
  let pass := if f.dst = s.modMac then [] else [s.otherPort k n]
  let ctl := ctlNode (n / 32)
  let go := fun (s : State) (cls : Nat) => s.enqueue n f ⟨cls, none, pass ++ [ctl], [], false, [], pass != []⟩ .none
  if f.etype = etHsrSv then (go s 7).svCheck k f.src
  else if f.etype = etPtp then go s 7
  else if s.fieldFrame n f then go s 6
  else if f.etype = etField then s.count (R.FAB_CNT_FIELD_DROP.COUNT (n / 32))
  else s.bridgeIn n f pass

/-- A frame received on port `n` of ring `k` (R271). -/
def State.ringIn (s : State) (k n : Nat) (f : Frame) : State :=
  let a := n == s.ringA k
  let s := s.viaSeen k a f.src
  match f.hsr with
  | none => if f.etype = etPtp then s.toControl n 7 none f else s.count (R.RING_CNT_BAD_TAG.COUNT k)
  | some q =>
    if !f.lsduOk then s.count (R.RING_CNT_BAD_TAG.COUNT k)
    else
      let r := s.ddReceive k a f.src q.toNat
      if r.1 then r.2.ringTake k n f else r.2

/-- Where a frame received on a port goes (R192, R268, R271). -/
def State.frameTo (s : State) (n : Nat) (f : Frame) : State :=
  if s.portRole n = prPair then s.toControl n (if f.etype = etPtp then 7 else 6) none f
  else match s.ringOf n with
    | some k => s.ringIn k n f
    | none => s.plainIn n f
/-- A frame received on a port; the time service hears the Announce messages among them (R296). -/
def State.frameIn (s : State) (n : Nat) (f : Frame) : State := s.portIn n f (fun s => (s.frameTo n f).announce n f)

/-- FRAME_INGRESS: a frame on a port, or from the control port. -/
def State.frameIngress (s : State) (i : Ingress) (f : Frame) : State :=
  match i with
  | .port n => s.frameIn n f
  | .control p port id sync => s.controlIn p (port.map (·.val)) f ⟨id.map (·.toNat), sync, none⟩
/-- FRAME_INGRESS. -/
def execFrameIngress (i : Ingress) (f : Frame) (s : State) : Res := .next (s.frameIngress i f)
/-- RING_FRAME_RECEIVE: a frame on port `n`, which is a port of an enabled ring. -/
def execRingFrameReceive (n : Fin 256) (f : Frame) (s : State) : Res :=
  .next (if (s.ringOf n).isSome then s.frameIn n f else s)
/-- SUPERVISION_RECEIVE: a supervision frame on port `n` of an enabled ring. -/
def execSupervisionReceive (n : Fin 256) (f : Frame) (s : State) : Res :=
  .next (if (s.ringOf n).isSome then s.frameIn n { f with etype := etHsrSv } else s)

/-- The supervision number of ring `k`, which its next supervision frame carries. -/
def State.svSeqOf (s : State) (k : Nat) : Nat := sget natZero' s.rings.svSeq k
/-- What a supervision frame carries after its EtherType: path 0 and version 1, the supervision number, the record of an HSR node
with its MAC address, the end of the records (IEC 62439-3; PRESUMED, assumption 164), and zeros up to `n` bytes. -/
def State.svBody (s : State) (k n : Nat) : List Byte :=
  padTo n ([0x00, 0x01] ++ beBytes 2 (s.svSeqOf k) ++ [23, 6] ++ beBytes 6 s.modMac.toNat ++ [0, 0])
/-- The supervision frame of ring `k` (R278): to 01-15-4E-00-01-XX, padded to `len` bytes and to at least 64. It is one of the
module's own multicast frames (R242). -/
def State.supervision (s : State) (k len : Nat) : State :=
  if s.ringOn k then
    let n := max 64 len
    let f : Frame := ⟨0, n, BitVec.ofNat 48 (0x01154E000100 + s.f (R.RING_SV_CFG.ADDR k)), s.modMac, none, none, true, etHsrSv,
      none, 0, none, false, false, s.svBody k (n - 18)⟩
    let ts := [s.ringA k, s.ringB k]
    let r := s.ringNext k
    let t := { r.2 with rings := { s.rings with svSeq := sset natZero' s.rings.svSeq k ((s.svSeqOf k + 1) % 65536) } }
    t.enqueue (ctlNode (s.ddPlot k)) f ⟨7, none, [], ts, s.ownSown, [(k, r.1)], false⟩ .none
  else s
/-- SUPERVISION_SEND: ring and the length to which the frame is padded. -/
def execSupervisionSend (k : Fin 128) (len : BitVec 14) (s : State) : Res := .next (s.supervision k len.toNat)

/-! ## Endpoint frames (R568) -/

/-- The record of an endpoint on ring `k`: valid, PATH 0, the EUI-64, and an ADDR that names the ring (R48). -/
def State.ringSource (s : State) (k : Nat) (eui : Eui) : Option Nat :=
  s.validEps.find? (fun i => s.ep i EP.PATH == 0 && s.epEui i == eui && getBits (w32 (s.ep i EP.ADDR)) 16 7 == k)
/-- How RETIRE goes to a unit from which a frame came on ring `k` from a source address: to that address when it is a valid
node's (R567; DEDUCED, assumption 142). -/
def State.ringRetire (s : State) (k : Nat) (src : Mac) (b : CmdBody) (t : State) : State :=
  t.ringSend k (if (s.nodeOf k src).isSome then src else macAll) b false

/-- The body of an endpoint's frame on port `n` of ring `k`, from a source address (R568). -/
def State.endpointBody (s : State) (n k : Nat) (src : Mac) (b : List Byte) : State :=
  let w := fun i => bytesWord (b.getD i 0) (b.getD (i + 1) 0) (b.getD (i + 2) 0) (b.getD (i + 3) 0)
  let eui : Eui := BitVec.ofNat 64 (leNat ((b.drop 4).take 8))
  let rec_ := s.ringSource k eui
  let status := leNat ((b.drop 16).take 2)
  let drop := s.count (R.FAB_CNT_FIELD_DROP.COUNT (n / 32))
  if (b.getD 0 0).toNat ≠ 3 then drop
  else match (b.getD 1 0).toNat with
    | 1 => s.fieldEvent rec_ ⟨eui, (b.getD 12 0).toNat, w 16, w 20, w 24⟩ (s.ringRetire k src) s.now s.stepEpoch
    | 2 => s.fieldReply rec_ ⟨w 12, eui, status == 0, w32 status, leNat ((b.drop 18).take 2) % 1024, (w 20).toNat⟩ 0 k
        (s.ringRetire k src) s.now s.stepEpoch
    | 3 =>
      match s.nodeOf k src with
      | some j => s.joinEvent rec_ eui 0 (w32 (k * 65536 + j * 256 + (b.getD 2 0).toNat % 64)) (s.ringRetire k src) s.now s.stepEpoch
      | none => drop
    | _ => drop

/-- An endpoint's frame of EtherType 0x88B5 that the control port gets from port `n`: source address, VID (0 when it has
none), its 32-byte body. Line 2 of R192 lets it through on an UP port of an enabled ring in FAB_FIELD_VLAN, with that not
0; line 3 drops it. -/
def State.endpointFrame (s : State) (n : Nat) (f : EndFrame) : State :=
  let v := if f.vid = 0 then s.f (R.FAB_PORTCFG.PVID (n / 32) (n % 32)) else f.vid.toNat
  if !s.portUp n then s
  else match s.ringOf n with
    | some k =>
      if s.f R.FAB_FIELD_VLAN.VID ≠ 0 ∧ v = s.f R.FAB_FIELD_VLAN.VID then s.endpointBody n k f.src f.body
      else s.count (R.FAB_CNT_FIELD_DROP.COUNT (n / 32))
    | none => s.count (R.FAB_CNT_FIELD_DROP.COUNT (n / 32))

/-- RING_EVENT_FRAME: an endpoint's frame, whose body says that it is an EVENT. -/
def execRingEventFrame (n : Fin 256) (f : EndFrame) (s : State) : Res := .next (s.endpointFrame n f)
/-- RING_REPLY_FRAME: an endpoint's frame, whose body says that it is a REPLY. -/
def execRingReplyFrame (n : Fin 256) (f : EndFrame) (s : State) : Res := .next (s.endpointFrame n f)
/-- RING_JOIN_FRAME: an endpoint's frame, whose body says that it is a JOIN: the pole node is the position of the source
address; without one the frame is discarded and counted in FAB_CNT_FIELD_DROP of the ingress plot. -/
def execRingJoinFrame (n : Fin 256) (src : Mac) (vid : BitVec 12) (b : List Byte) (s : State) : Res :=
  .next (s.endpointFrame n ⟨src, vid, b⟩)

end Sys2Proof.Machine
end

