-- ==== Sys2Proof/Machine/Radio.lean ====
section
/-! DEFINITION. The sub-gigahertz radio ports and the Scatter MAC (R423–R442). -/
namespace Sys2Proof.Machine
open Sys2Proof

/-- Transceiver `j`. -/
def State.radAt (s : State) (j : Nat) : Rad := sget radDefault s.rad j
/-- Replace transceiver `j`. -/
def State.setRad (s : State) (j : Nat) (x : Rad) : State := { s with rad := sset radDefault s.rad j x }

def radNodeDefault (_ : Nat) : RadNode := RadNode.none
/-- What transceiver `j` knows of the node of endpoint `i`. -/
def State.radNode (s : State) (j i : Nat) : RadNode := sget radNodeDefault (s.radAt j).nodes i
/-- Replace it. -/
def State.setRadNode (s : State) (j i : Nat) (x : RadNode) : State :=
  let r := s.radAt j
  s.setRad j { r with nodes := sset radNodeDefault r.nodes i x }

/-- 2⁻¹⁶ ns in a microsecond and in a millisecond. -/
def unitsUs : Nat := 65536000
def unitsMs : Nat := 65536000000

/-! ## PHY and regions (R423–R425) -/

/-- The transceiver exists, is enabled and has a region (R2, R424). -/
def State.radOn (s : State) (j : Nat) : Bool :=
  s.ident.code != .mx && s.on (R.RAD_CFG.EN j) && s.f (R.RAD_CFG.REGION j) != 0
/-- US_FHSS, which hops. -/
def State.radHops (s : State) (j : Nat) : Bool := s.f (R.RAD_CFG.REGION j) == 0x10
/-- The network key: an AES256 slot with ENCRYPT (R428, R517). -/
def State.radKey (s : State) (j : Nat) : Option (List Byte) :=
  let k := s.kslot (s.f (R.RAD_KEY.SLOT j))
  if k.typ = ktAes ∧ k.usage.testBit 2 = true then some k.secret else none
/-- Airtime of `n` PSDU octets in thirds of a µs, of which a bit takes 60, 30 or 20 (R423). -/
def State.airtime (s : State) (j n : Nat) : Nat := (12 + n) * 8 * 60 / (s.f (R.RAD_CFG.RATE j) + 1)
/-- The hop slot now (R425). -/
def State.hopSlot (s : State) : Nat := stampUnits s.now / (400 * unitsMs)
/-- The channel in use (R424, R425). -/
def State.radChan (s : State) (j : Nat) : Nat :=
  if s.radHops j then (37 * s.hopSlot + s.f (R.RAD_HOP.SEED j)) % 64
  else if s.f (R.RAD_CFG.REGION j) = 1 then s.f (R.RAD_CFG.CHAN j) else 0
/-- The hourly budget in thirds of a µs; none without a limit (R424). -/
def State.radBudget (s : State) (j : Nat) : Option Nat :=
  match s.f (R.RAD_CFG.REGION j) with
  | 1 => some 108000000
  | 2 => some 1080000000
  | _ => none
/-- Airtime of the last 3,600 bins in thirds of a µs (R432). -/
def State.radUsed (s : State) (j : Nat) : Nat :=
  ((s.radAt j).bins.filter (fun b => decide (stampSec s.now < b.1 + 3600))).foldl (fun a b => a + b.2) 0
/-- Whether a copy fits the budget; the last 1 % is open to BEACONs and the fault class (R432). -/
def State.radFits (s : State) (j air : Nat) (fault : Bool) : Bool :=
  match s.radBudget j with
  | none => true
  | some b => decide (s.radUsed j + air ≤ if fault then b else b / 100 * 99)

/-- RAD_STATUS.STATE, DUTY_HOLD and CUR_CHAN as the transmitter stands (R442). -/
def State.radShow (s : State) (j : Nat) : State :=
  let r := s.radAt j
  let s := s.setF (R.RAD_STATUS.DUTY_HOLD j) (b2n (r.phase == .duty || (r.queue ++ r.urgent).any (fun x => x.held.isSome)))
  if s.radOn j then
    let st := match (s.radAt j).phase with
      | .lbt _ => 2
      | .tx => 3
      | _ => 1
    (s.setF (R.RAD_STATUS.STATE j) st).setF (R.RAD_STATUS.CUR_CHAN j) (s.radChan j)
  else (s.setF (R.RAD_STATUS.STATE j) 0).setF (R.RAD_STATUS.CUR_CHAN j) 0

/-- Put the transmitter in a phase. -/
def State.radPhase (s : State) (j : Nat) (p : RadPhase) : State :=
  let r := s.radAt j
  (s.setRad j { r with phase := p }).radShow j

/-- HOP_SLOT is below, with the transmitter. A step of the time base moves the slot with it. -/
def State.urgentNext (s : State) (j t : Nat) : Nat :=
  let ofs := (if 999 < s.f (R.RAD_MAC.URG_OFS j) then 999 else s.f (R.RAD_MAC.URG_OFS j)) * unitsMs
  let sec := nsPerS * 65536
  let base := t / sec * sec + ofs
  if t ≤ base then base else base + sec

/-! ## Frames of the module (R426–R428, R433, R434) -/

/-- PSDU octets of a frame: header, payload, MIC, FCS. -/
def RadTx.psduLen (x : RadTx) : Nat :=
  26 + (match x.body with
    | some b => 32 + b.payload.length
    | none => 17)

/-- Airtime of a copy in thirds of a µs. -/
def State.txAir (s : State) (j : Nat) (x : RadTx) : Nat := s.airtime j x.psduLen

/-- Whether a copy that starts now ends by an instant. -/
def State.endsBy (s : State) (j : Nat) (x : RadTx) (t : Nat) : Bool :=
  decide (3 * stampUnits s.now + s.txAir j x * unitsUs ≤ 3 * t)

/-- Whether its listen-before-talk and its airtime end before an instant (R435). -/
def State.endsBefore (s : State) (j : Nat) (x : RadTx) (t : Nat) : Bool :=
  decide (3 * (stampUnits s.now + 160 * unitsUs) + s.txAir j x * unitsUs < 3 * t)

/-- The gap between copies in units of 10 ms. -/
def State.repGap (s : State) (j : Nat) : Nat := if s.f (R.RAD_MAC.REP_GAP j) = 0 then 1 else s.f (R.RAD_MAC.REP_GAP j)

/-- The time base at the end of the SFD of a frame that starts now: 10 octets later (R423). -/
def State.sfdEnd (s : State) (j : Nat) : Nat :=
  stampUnits s.now + 80 * 1000000 * 65536 / (50 * (s.f (R.RAD_CFG.RATE j) + 1))

/-- The PSDU of a copy with its FCS, a CRC-32 (R423, R426–R428; PRESUMED, assumption 167). -/
def State.radPsdu (s : State) (j : Nat) (x : RadTx) (key : List Byte) : List Byte :=
  let sfd := s.sfdEnd j
  let tin := (s.urgentNext j sfd - sfd) / unitsUs
  let type := if x.body.isSome then 1 else 5
  let head : List Byte := [BitVec.ofNat 8 (type * 16 + b2n x.wake * 4 + 1),
    BitVec.ofNat 8 (x.sent * 64 + (x.copies - 1) * 16 + s.repGap j)] ++
    leBytes 2 x.dest ++ leBytes 2 0 ++ leBytes 4 (x.seq.getD 0) ++ leBytes 3 tin ++ leBytes 1 0
  let text := match x.body with
    | some b => b.bytes
    | none => leBytes 12 (unitsStamp sfd).toNat ++ leBytes 4 s.epoch ++ leBytes 1 s.stepEpoch
  let nonce := leBytes 8 (euiOfMac s.ident.mac).toNat ++ leBytes 4 (x.seq.getD 0) ++ [BitVec.ofNat 8 x.sent]
  let psdu := head ++ (aeadCcm 8).seal key nonce head text
  psdu ++ leBytes 4 (crc32 psdu)

/-! ## The transmitter (R431–R433) -/

/-- Whether transceiver `j` may transmit at all (R440, R517). -/
def State.radAble (s : State) (j : Nat) : Bool := s.lightRole && s.radOn j && (s.radKey j).isSome

/-- A frame is discarded. The handle of one that never left waits for its reply timer (R438). -/
def State.radDrop (s : State) (x : RadTx) : State :=
  match x.cal with
  | none => s
  | some n =>
    match s.calE n with
    | none => s
    | some e =>
      let s := s.setCal n none
      let i := slotOf e.body.handle
      if s.handleOpen e.body.handle && (s.hslot i).st = .placed then s.setHslot i { s.hslot i with st := .awaiting } else s

/-- The next frame counter of transceiver `j`, from a block reserved in the ledger (R430). -/
def State.radSeq (s : State) (j : Nat) : Nat × State :=
  let r := s.radAt j
  if r.seq < r.seqEnd then (r.seq % 2 ^ 32, s.setRad j { r with seq := r.seq + 1 })
  else (r.seq % 2 ^ 32, (s.setRad j { r with seq := r.seq + 1, seqEnd := r.seqEnd + 65536 }).ledgerCommit (.radBlock j)
    (leBytes 8 (r.seqEnd + 65536)))

/-- The launch event of a frame: the start of the first measurement of its first copy (R307, R431, R569). -/
def State.radLaunch (s : State) (x : RadTx) : State :=
  match x.cal with
  | none => s
  | some n =>
    match s.calE n, s.copyOf n 0 with
    | some e, some c => (s.launchFirst e c).copyLeft n 0 e c false
    | _, _ => s

/-- A copy waits for budget from now on. -/
def RadTx.wait (x : RadTx) (now : Nat) : RadTx := { x with held := some (x.held.getD now) }

/-- A copy of the frame in progress wants to start: it waits for budget, or listens before it talks (R431, R432). -/
def State.radCopy (s : State) (j : Nat) (x : RadTx) : State :=
  if s.radFits j (s.txAir j x) x.fault then
    let s := s.radLaunch x
    let x := { x with cal := none, held := none }
    let a := match x.seq with
      | some _ => (x, s)
      | none =>
        let q := s.radSeq j
        ({ x with seq := some q.1 }, q.2)
    let r := a.2.radAt j
    (a.2.setRad j { r with cur := some a.1 }).radPhase j (.lbt 0)
  else
    let r := s.radAt j
    let s := (s.setRad j { r with cur := some (x.wait s.opTotal) }).radPhase j .duty
    s.when x.held.isNone (·.raise (E.RAD_EVT.DUTY_WAIT j))

/-- Whether a frame that the calendar has released has not left and its launch instant lies ahead again, after a step backwards
(R310). -/
def State.radEarly (s : State) (x : RadTx) : Bool :=
  match x.cal with
  | none => false
  | some n =>
    match s.calE n, s.copyOf n 0 with
    | some e, some c => !e.immediate && !s.reached c.launch
    | _, _ => false
/-- The next frame of the queue starts, when nothing is in progress; frames of a transceiver that transmits nothing are
discarded (R432, R440, R517), and one whose instant lies ahead again goes back to the calendar, which releases it at that instant
(R310). -/
def State.radNextN (s : State) (j : Nat) : Nat → State
  | 0 => s
  | n + 1 =>
    let r := s.radAt j
    match r.cur, r.queue with
    | none, x :: q =>
      let s := s.setRad j { r with queue := q }
      if !s.radAble j then (s.radDrop x).radNextN j n else if s.radEarly x then s.radNextN j n else s.radCopy j x
    | _, _ => s
def State.radNext (s : State) (j : Nat) : State := s.radNextN j ((s.radAt j).queue.length + 1)

/-- The transmitter is free: a frame that an urgent-slot frame had interrupted in its gap goes on there, or the next one starts. -/
def State.radFree (s : State) (j : Nat) : State :=
  let r := s.radAt j
  match r.gapped with
  | some y => (s.setRad j { r with cur := some y, gapped := none }).radPhase j .gap
  | none => ((s.setRad j { r with cur := none }).radPhase j .idle).radNext j
/-- The frame in progress ends with this copy, or goes on to its next copy after REP_GAP (R433). -/
def State.radCopyEnd (s : State) (j : Nat) (x : RadTx) : State :=
  let x := { x with sent := x.sent + 1 }
  let r := s.radAt j
  if x.sent < x.copies then (s.setRad j { r with cur := some x }).radPhase j .gap
  else s.radFree j

/-- A frame joins the transmit queue in the order of its launch event. -/
def State.radQueue (s : State) (j : Nat) (x : RadTx) : State :=
  let r := s.radAt j
  (s.setRad j { r with queue := r.queue ++ [x] }).radNext j

/-- A copy is on the air (R432). -/
def State.radSend (s : State) (j : Nat) (x : RadTx) : State :=
  match s.radKey j with
  | none => s
  | some k =>
    let air := s.txAir j x
    let r := s.radAt j
    let sec := stampSec s.now
    let s := s.setRad j { r with bins := r.bins.filter (fun b => sec < b.1 + 3600) ++ [(sec, air)] }
    let s := s.send (.radio j (s.radChan j) x.dest (s.radPsdu j x k))
    (s.count (R.RAD_CNT_TX_COPIES.COUNT j)).radPhase j .tx

/-- LBT_MEASURE_END with the mean RSSI (R431). Under US_FHSS a frame that would cross the end of its slot waits for the
next one (R425). -/
def State.lbtEnd (s : State) (j : Nat) (mean : Int) : State :=
  match (s.radAt j).phase, (s.radAt j).cur with
  | .lbt b, some x =>
    if mean < toSigned 16 (s.f (R.RAD_LBT.THR j)) then
      if s.radHops j && !s.endsBy j x ((s.hopSlot + 1) * 400 * unitsMs) then s.radPhase j .hop
      else if s.radAble j then s.radSend j x else s.radCopyEnd j x
    else
      let m := if s.f (R.RAD_MAC.BO_MAX j) = 0 then 1 else s.f (R.RAD_MAC.BO_MAX j)
      if b < m then s.radPhase j (.backoff (b + 1))
      else (s.raise (E.RAD_EVT.LBT_FAIL j)).radCopyEnd j x
  | _, _ => s
/-- LBT_MEASURE_END. -/
def execLbtMeasureEnd (j : Fin 4) (mean : BitVec 16) (s : State) : Res := .next (s.lbtEnd j (toSigned 16 mean.toNat))

/-- LBT_BACKOFF_END: the next measurement of the same attempt. -/
def State.lbtAgain (s : State) (j : Nat) : State :=
  match (s.radAt j).phase with
  | .backoff b => s.radPhase j (.lbt b)
  | _ => s
def execLbtBackoffEnd (j : Fin 4) (s : State) : Res := .next (s.lbtAgain j)

/-- RADIO_TX_END. -/
def State.radioTxEnd (s : State) (j : Nat) : State :=
  match (s.radAt j).phase, (s.radAt j).cur with
  | .tx, some x => s.radCopyEnd j x
  | _, _ => s
def execRadioTxEnd (j : Fin 4) (s : State) : Res := .next (s.radioTxEnd j)

/-- REP_GAP_EXPIRE: the next copy (R433). That of a frame that an urgent-slot frame has interrupted starts once the transmitter is
free. -/
def State.repGapEnd (s : State) (j : Nat) : State :=
  let r := s.radAt j
  match r.phase, r.cur, r.gapped with
  | .gap, some x, _ => s.radCopy j x
  | _, _, some y => s.setRad j { r with gapped := none, queue := y :: r.queue }
  | _, _, none => s
def execRepGapExpire (j : Fin 4) (s : State) : Res := .next (s.repGapEnd j)

/-- DUTY_WAIT_END: the waiting copy fits (R432). -/
def State.dutyEnd (s : State) (j : Nat) : State :=
  match (s.radAt j).phase, (s.radAt j).cur with
  | .duty, some x =>
    if s.radEarly x then s.radFree j
    else if s.radFits j (s.txAir j x) x.fault then s.radCopy j x else s
  | _, _ => s
def execDutyWaitEnd (j : Fin 4) (s : State) : Res := .next (s.dutyEnd j)

/-- A copy is discarded after its wait; with the last one its frame (R432). -/
def State.copyDrop (s : State) (j : Nat) (x : RadTx) : State :=
  let s := s.raise (E.RAD_EVT.DUTY_DROP j)
  if x.sent + 1 < x.copies then s else s.radDrop x
/-- What is left of a list of waiting frames when its first one loses a copy. -/
def lessCopy (x : RadTx) (rest : List RadTx) : List RadTx :=
  if x.sent + 1 < x.copies then { x with sent := x.sent + 1, held := none } :: rest else rest
/-- The frame that waits for an urgent slot, or first in the queue, and has waited for budget longest loses its copy. -/
def State.urgentDrop (s : State) (j : Nat) (x : RadTx) (rest : List RadTx) : State :=
  let s := s.copyDrop j x
  let r := s.radAt j
  (s.setRad j { r with urgent := lessCopy x rest }).radShow j
def State.queueDrop (s : State) (j : Nat) (x : RadTx) (rest : List RadTx) : State :=
  let s := s.copyDrop j x
  let r := s.radAt j
  (s.setRad j { r with queue := lessCopy x rest }).radShow j
/-- Since when the first of a list of frames has waited for budget. -/
def heldFirst (l : List RadTx) : Option Nat := l.head?.bind (·.held)
/-- The copy that waits for budget with the transmitter, since when. -/
def Rad.heldCur (r : Rad) : Option Nat := if r.phase = .duty then r.cur.map (fun x => x.held.getD 0) else none
/-- Whether a wait began before every one of others. -/
def waitFirst (t : Option Nat) (l : List (Option Nat)) : Bool := t.any (fun a => l.all (fun b => b.all (fun c => decide (a < c))))
/-- DUTY_DROP: the copy that has waited for budget longest is discarded (R432): the one in progress, the first of the queue, which an
urgent-slot frame has put back there, or the first for an urgent slot. -/
def State.dutyDrop (s : State) (j : Nat) : State :=
  let r := s.radAt j
  if waitFirst (heldFirst r.urgent) [r.heldCur, heldFirst r.queue] then
    match r.urgent with
    | u :: rest => s.urgentDrop j u rest
    | [] => s
  else if waitFirst (heldFirst r.queue) [r.heldCur] then
    match r.queue with
    | u :: rest => s.queueDrop j u rest
    | [] => s
  else match (if r.phase = .duty then r.cur else none) with
    | some x => (s.copyDrop j x).radCopyEnd j { x with held := none }
    | none => s
def execDutyDrop (j : Fin 4) (s : State) : Res := .next (s.dutyDrop j)

/-- HOP_SLOT: the channel of the slot; a copy that waited for it listens again (R425). -/
def State.hopBegin (s : State) (j : Nat) : State :=
  if s.radHops j then
    match (s.radAt j).phase with
    | .hop => s.radPhase j (.lbt 0)
    | _ => s.radShow j
  else s
def execHopSlot (j : Fin 4) (s : State) : Res := .next (s.hopBegin j)

/-! ## Urgent slots and beacons (R436, R437) -/

/-- Whether a frame is HOLD_REPORTS, which goes in the first urgent slot that its budget admits (R437). -/
def RadTx.isHold (x : RadTx) : Bool := x.body.any (fun b => b.code == ccHoldReports)
/-- A frame joins those that wait for an urgent slot, behind them, and HOLD_REPORTS before every other. -/
def urgentJoin (x : RadTx) (l : List RadTx) : List RadTx :=
  if x.isHold then l.filter (·.isHold) ++ [x] ++ l.filter (!·.isHold) else l ++ [x]
/-- A BEACON goes before all but HOLD_REPORTS (R437). -/
def beaconJoin (x : RadTx) (l : List RadTx) : List RadTx := l.filter (·.isHold) ++ [x] ++ l.filter (!·.isHold)
/-- A frame waits for an urgent slot. -/
def State.radUrgent (s : State) (j : Nat) (x : RadTx) : State :=
  let r := s.radAt j
  s.setRad j { r with urgent := urgentJoin x r.urgent }

/-- The transmitter without the frame in progress, of which nothing is on the air: it waits first in the queue, and its gap goes on
when it is in one (R433; DESIGN CHOICE, assumption 196). -/
def Rad.yield (r : Rad) : Rad :=
  match r.cur with
  | none => { r with phase := .idle }
  | some c => if r.phase = .gap ∧ r.gapped = none then { r with cur := none, phase := .idle, gapped := some c }
    else { r with cur := none, phase := .idle, queue := c :: r.queue }
/-- An urgent slot: the first waiting frame starts when nothing is on the air, and its own budget admits it; one that does not fit
waits (R432, R436, R437). One whose instant lies ahead again goes back to the calendar (R310). -/
def State.urgentSlot (s : State) (j : Nat) : State :=
  let r := s.radAt j
  match r.urgent with
  | [] => s
  | x :: rest =>
    if !s.radAble j then (s.setRad j { r with urgent := rest }).radDrop x
    else if s.radEarly x then (s.setRad j { r with urgent := rest }).radShow j
    else if r.phase = .tx then s
    else if s.radFits j (s.txAir j x) true then (s.setRad j { r with urgent := rest }.yield).radCopy j x
    else
      let s := s.when x.held.isNone (·.raise (E.RAD_EVT.DUTY_WAIT j))
      (s.setRad j { r with urgent := x.wait s.opTotal :: rest }).radShow j
/-- URGENT_SLOT. -/
def execUrgentSlot (j : Fin 4) (s : State) : Res := .next (s.urgentSlot j)

/-- A BEACON frame. -/
def beaconTx : RadTx := ⟨none, 0xFFFF, 1, 0, none, true, false, none, none⟩
/-- SCATTER_BEACON: a BEACON goes in an urgent slot (R437). -/
def State.scatterBeacon (s : State) (j : Nat) : State :=
  if s.radAble j then
    let r := s.radAt j
    (s.setRad j { r with urgent := beaconJoin beaconTx r.urgent }).urgentSlot j
  else s
/-- SCATTER_BEACON. -/
def execScatterBeacon (j : Fin 4) (s : State) : Res := .next (s.scatterBeacon j)

/-! ## Release of a command by the calendar (R435, R438) -/

/-- The fault class (R436). -/
def State.faultClass (s : State) (b : CmdBody) (i : Nat) : Bool :=
  b.code == ccRetire || b.code == ccHoldReports || (b.code == ccSetLevel && b.level == 0 && s.ep i EP.FAILED == 1)

/-- Queue a frame for a sleeping node under its key (R438). -/
def State.radAsleep (s : State) (j i : Nat) (x : RadTx) : State :=
  let r := s.radAt j
  if r.asleep.length < 8192 then
    (s.setRad j { r with asleep := r.asleep ++ [(i, x)] }).setF (R.RAD_QUEUE.PENDING j) (r.asleep.length + 1)
  else (s.raise (E.RAD_EVT.QUEUE_FULL j)).radDrop x

/-- A frame is launched for a node by the schedule of its latest frame; `cancel` ends the agreement (R435). -/
def State.radHandle (s : State) (j key : Nat) (nd : RadNode) (x : RadTx) (cancel : State → State) : State :=
  let r := stampUnits s.now
  if nd.sleep = 0 then s.radQueue j x
  else if x.fault && decide (nd.from_ ≤ r ∧ r < nd.from_ + nd.sleep * 100 * unitsMs) then s.radUrgent j x
  else if decide (r + 2 * unitsMs < nd.from_) && s.endsBefore j x nd.from_ then
    (cancel s).radQueue j { x with wake := true }
  else s.radAsleep j key x

/-- The calendar releases entry `n` to transceiver `j` at its launch instant (R435). -/
def State.radRelease (s : State) (j n : Nat) (e : CalEntry) : State :=
  if (s.radAt j).holds n then s
  else
    let x : RadTx := ⟨some e.body, getBits e.addr 0 16, e.repeats + 1, 0, some n, s.faultClass e.body e.ep, false, none, none⟩
    if !s.radAble j then s.radDrop x
    else
      let nd := s.radNode j e.ep
      s.radHandle j e.ep nd x (fun s => s.setRadNode j e.ep { nd with sleep := 0 })

/-! ## Reception (R426–R430, R434, R439, R440) -/

/-- The valid path 1 record whose ADDR names a transceiver and a node address. -/
def State.radRecord (s : State) (j src : Nat) : Option Nat :=
  s.validEps.find? (fun i => s.ep i EP.PATH == 1 && getBits (w32 (s.ep i EP.ADDR)) 16 2 == j &&
    getBits (w32 (s.ep i EP.ADDR)) 0 16 == src)

/-- How the window of R430 takes a number. -/
inductive Window where
  | accept (w : Nat × Nat)
  | dup
  | replay
  deriving DecidableEq, Repr

/-- The window after a verified frame with number `n` (R430). Bit k of the map stands for NEWEST − k. -/
def windowStep (w : Option (Nat × Nat)) (n : Nat) : Window :=
  match w with
  | none => .accept (n, 1)
  | some (top, map) =>
    let d := toSigned 32 (n + 4294967296 - top)
    if 0 < d then .accept (n, if 32 ≤ d then 1 else map * 2 ^ d.toNat % 4294967296 + 1)
    else if d < -31 then .replay
    else if map.testBit (-d).toNat then .dup
    else .accept (top, map + 2 ^ (-d).toNat)

/-- A received PSDU opened under an EUI-64 (R428): the payload. -/
def State.radOpen (s : State) (j : Nat) (eui : Eui) (head rest : List Byte) : Option (List Byte) :=
  match s.radKey j with
  | none => none
  | some k =>
    let nonce := leBytes 8 eui.toNat ++ (head.drop 6).take 4 ++ [(head.getD 1 0) >>> 6]
    (aeadCcm 8).open? k nonce head rest

/-- WAKE of a node: its queued frames, and its urgent ones, are sent now with WAKE = 1 (R435). -/
def State.radWake (s : State) (j i src : Nat) : State :=
  let r := s.radAt j
  let mine := (r.asleep.filter (fun e => e.1 == i)).map (fun e => e.2) ++ r.urgent.filter (fun x => x.dest == src && x.body.isSome)
  let left := r.asleep.filter (fun e => e.1 != i)
  let q := mine.map (fun x => { x with wake := true })
  let urg := r.urgent.filter (fun x => !(x.dest == src && x.body.isSome))
  ((s.setRad j { r with asleep := left, urgent := urg, queue := q ++ r.queue }).setF (R.RAD_QUEUE.PENDING j) left.length).radNext j

/-- The record of a unit that announces itself to transceiver `j`: valid, PATH 1, its EUI-64, an ADDR that names the
transceiver (R48). A JOIN has no node address of its own (R426). -/
def State.radSource (s : State) (j : Nat) (eui : Eui) : Option Nat :=
  s.validEps.find? (fun i => s.ep i EP.PATH == 1 && s.epEui i == eui && getBits (w32 (s.ep i EP.ADDR)) 16 2 == j)

/-- What PHASE of a frame's header says of its sender (R434). -/
def State.phaseOf (s : State) (head : List Byte) (nd : RadNode) : RadNode :=
  { nd with from_ := stampUnits s.now + leNat ((head.drop 10).take 3) * unitsUs, sleep := (head.getD 13 0).toNat }
/-- The key under which frames wait for a unit without a record. -/
def ghostKey (addr : Nat) : Nat := 2 ^ 24 + addr
/-- How RETIRE goes to a unit by the header of its frame: a fault-class frame by the schedule that PHASE gives, to every node
when the unit has no address of its own (R341, R426, R435, R436; DEDUCED, assumption 142). -/
def State.radRetire (j : Nat) (head : List Byte) (b : CmdBody) (s : State) : State :=
  let addr := leNat ((head.drop 4).take 2)
  let x : RadTx := ⟨some b, if addr = 0xFFFE then 0xFFFF else addr, 1, 0, none, true, false, none, none⟩
  if s.radAble j then s.radHandle j (ghostKey addr) (s.phaseOf head RadNode.none) x (fun s => s) else s

/-- A JOIN from an EUI-64 is taken at most once in 10 s of operating time, by a table of 256 (R430). -/
def State.radJoin (s : State) (j : Nat) (eui : Eui) (head : List Byte) : State :=
  let r := s.radAt j
  if r.joins.any (fun e => e.1 = eui && decide (s.opTotal < e.2 + 10 * secTicks)) then s
  else
    let l := r.joins.filter (fun e => e.1 ≠ eui) ++ [(eui, s.opTotal)]
    (s.setRad j { r with joins := l.drop (l.length - 256) }).joinEvent (s.radSource j eui) eui 1 (w32 (j * 65536 + 0xFFFE))
      (State.radRetire j head) s.now s.stepEpoch

/-- The payload of a verified and accepted frame (R427). -/
def State.radDeliver (s : State) (j type : Nat) (eui : Eui) (src : Option Nat) (head : List Byte) (p : List Byte) : State :=
  let w := fun k => bytesWord (p.getD k 0) (p.getD (k + 1) 0) (p.getD (k + 2) 0) (p.getD (k + 3) 0)
  let h := fun k => leNat ((p.drop k).take 2)
  match type with
  | 2 => s.fieldEvent src ⟨eui, (p.getD 0 0).toNat, w 1, w 5, w 9⟩ (State.radRetire j head) s.now s.stepEpoch
  | 3 => s.fieldReply src ⟨w 0, eui, h 4 == 0, w32 (h 4), h 6 % 1024, (w 8).toNat⟩ 1 0 (State.radRetire j head) s.now s.stepEpoch
  | 4 =>
    let addr := leNat ((head.drop 4).take 2)
    s.radWake j (src.getD (ghostKey addr)) addr
  | _ => s.radJoin j eui head

/-- The node's schedule from PHASE (R434). -/
def State.radPhaseSeen (s : State) (j i : Nat) (head : List Byte) : State :=
  s.setRadNode j i (s.phaseOf head (s.radNode j i))

/-- Whether a header names this module's transceivers, by version and DST (R426). What else is heard is left alone (DESIGN CHOICE,
assumption 166). -/
def radMine (psdu : List Byte) : Bool :=
  let dst := leNat ((psdu.drop 2).take 2)
  (psdu.getD 0 0).toNat % 4 == 1 && (dst == 0 || dst == 0xFFFF)

/-- A frame of a unit on the ghost list (R341, R429): a WAKE of it releases what waits for it. A module whose role transmits
nothing sends no RETIRE (R440). -/
def State.radGhost (s : State) (j type : Nat) (head : List Byte) (eui : Eui) : State :=
  let addr := leNat ((head.drop 4).take 2)
  let s := s.when (type == 4 && s.lightRole) (·.radWake j (ghostKey addr) addr)
  match s.ghostFind eui with
  | some n => if s.lightRole then s.ghost n (State.radRetire j head) else s.ghostSeen n
  | none => s

/-- A frame of TYPE `type` is received with good FCS (R427–R430, R434, R440): PSDU without FCS, RSSI. The end of its SFD is
the time base now (assumption 21). -/
def State.radReceive (s : State) (j type rssi : Nat) (psdu : List Byte) : State :=
  let fc := (psdu.getD 0 0).toNat
  if !s.radOn j || (s.radAt j).phase == .tx || fc / 16 != type || !radMine psdu then s
  else
    let s := s.count (R.RAD_CNT_RX_FRAMES.COUNT j)
    let ext := fc.testBit 3
    let head := psdu.take (if ext then 22 else 14)
    let rest := psdu.drop (if ext then 22 else 14)
    let addr := leNat ((psdu.drop 4).take 2)
    let rec_ := s.radRecord j addr
    let eui : Option Eui := if ext then some (BitVec.ofNat 64 (leNat ((psdu.drop 14).take 8))) else rec_.map s.epEui
    if (s.radKey j).isNone then s.raise (E.RAD_EVT.MIC_FAIL j) else
    match eui with
    | none => s.raise (E.RAD_EVT.UNKNOWN_SRC j)
    | some eui =>
      let src := if ext then s.validEps.find? (fun i => s.ep i EP.PATH == 1 && s.epEui i = eui) else rec_
      match s.radOpen j eui head rest with
      | none =>
        let l : List Ghost := match src with
          | some i => (s.pair.ghosts.filter (fun g => g.slot == i)).take 4
          | none => []
        match l.find? (fun g => (s.radOpen j g.eui head rest).isSome) with
        | some g => (s.setF (R.RAD_RSSI.LAST j) rssi).radGhost j type head g.eui
        | none => s.raise (E.RAD_EVT.MIC_FAIL j)
      | some p =>
        let s := s.setF (R.RAD_RSSI.LAST j) rssi
        match src with
        | none =>
          if s.lightRole then s.radDeliver j type eui none head p
          else match s.ghostFind eui with
            | some n => s.ghostSeen n
            | none => s
        | some i =>
          let s := s.radPhaseSeen j i head
          match windowStep (s.radNode j i).window (leNat ((head.drop 6).take 4)) with
          | .dup => s.count (R.RAD_CNT_RX_DUP.COUNT j)
          | .replay => s.raise (E.RAD_EVT.REPLAY j)
          | .accept w =>
            let s := s.setRadNode j i { s.radNode j i with window := some w }
            if s.lightRole then s.radDeliver j type eui (some i) head p else s

/-- SCATTER_EVENT. -/
def execScatterEvent (j : Fin 4) (rssi : BitVec 16) (psdu : List Byte) (s : State) : Res :=
  .next (s.radReceive j 2 rssi.toNat psdu)
/-- SCATTER_REPLY. -/
def execScatterReply (j : Fin 4) (rssi : BitVec 16) (psdu : List Byte) (s : State) : Res :=
  .next (s.radReceive j 3 rssi.toNat psdu)
/-- SCATTER_WAKE. -/
def execScatterWake (j : Fin 4) (rssi : BitVec 16) (psdu : List Byte) (s : State) : Res :=
  .next (s.radReceive j 4 rssi.toNat psdu)
/-- SCATTER_JOIN: with EXT = 1 and SRC 0xFFFE (R427). -/
def execScatterJoin (j : Fin 4) (rssi : BitVec 16) (psdu : List Byte) (s : State) : Res :=
  .next (s.radReceive j 6 rssi.toNat psdu)

/-- SCATTER_RX_BAD. A transceiver does not receive while it transmits (R439). -/
def State.radBad (s : State) (j : Nat) : State := if s.radOn j && (s.radAt j).phase != .tx then s.count (R.RAD_CNT_RX_BAD.COUNT j) else s
def execScatterRxBad (j : Fin 4) (s : State) : Res := .next (s.radBad j)

/-- CAPTURE_LOST: a preamble at least CAPTURE_DB stronger captures the receiver (R439); RSSI of frame A and of the preamble
in 0.1 dBm. -/
def State.captureLost (s : State) (j : Nat) (a b : Int) : State :=
  let m := if s.f (R.RAD_MAC.CAPTURE_DB j) < 6 then 6 else s.f (R.RAD_MAC.CAPTURE_DB j)
  if s.radOn j && (s.radAt j).phase != .tx && decide (a + 10 * m ≤ b) then s.raise (E.RAD_EVT.CAPTURE_LOST j) else s
def execCaptureLost (j : Fin 4) (a b : BitVec 16) (s : State) : Res :=
  .next (s.captureLost j (toSigned 16 a.toNat) (toSigned 16 b.toNat))

end Sys2Proof.Machine
end

