-- ==== Sys2Proof/Machine/Can.lean ====
section
/-! DEFINITION. The CAN FD channels (R443–R458): field frames, transmission and errors, timestamps, receive buffers. -/
namespace Sys2Proof.Machine
open Sys2Proof

/-- Replace channel `c`. -/
def State.setCan (s : State) (c : Nat) (x : Can) : State :=
  { s with can := { s.can with ch := sset canDefault s.can.ch c x } }

/-! ## Frames (R443, R445, R458) -/

/-- Data bytes of a data length code: up to 8 for a classical frame. -/
def dlcBytes (fdf : Bool) (dlc : Nat) : Nat :=
  if dlc ≤ 8 then dlc
  else if fdf then [12, 16, 20, 24, 32, 48, 64].getD (dlc - 9) 64 else 8
/-- The data length code of a number of data bytes. -/
def bytesDlc (n : Nat) : Nat :=
  if n ≤ 8 then n else 9 + ([12, 16, 20, 24, 32, 48, 64].findIdx (fun x => n ≤ x))

/-- Data padded with zeros to the next CAN FD data length. -/
def canPad (l : List Byte) : List Byte := l ++ List.replicate (dlcBytes true (bytesDlc l.length) - l.length) 0

/-- The order of ISO 11898-1 arbitration by identifier: its first 11 bits, IDE, the rest; lowest wins (R448). -/
def CanFrame.rank (f : CanFrame) : Nat :=
  if f.ide then f.ident.toNat / 2 ^ 18 * 2 ^ 19 + 2 ^ 18 + f.ident.toNat % 2 ^ 18 else f.ident.toNat % 2 ^ 11 * 2 ^ 19

/-- Word `k` of a list of bytes. -/
def byteWord (l : List Byte) (k : Nat) : Word :=
  bytesWord (l.getD (4 * k) 0) (l.getD (4 * k + 1) 0) (l.getD (4 * k + 2) 0) (l.getD (4 * k + 3) 0)

/-- The nineteen frame words (R458). -/
def CanFrame.words (f : CanFrame) (stamp : Word) : List Word :=
  [w32 (b2n f.fdf * 2 ^ 20 + b2n f.brs * 2 ^ 19 + b2n f.esi * 2 ^ 18 + b2n f.ide * 2 ^ 17 + b2n f.rtr * 2 ^ 16 +
      f.dlc.toNat * 2 ^ 12 + 1),
   w32 f.ident.toNat, stamp] ++ (List.range 16).map (byteWord f.data)

/-- A field frame (R445). -/
def State.isField (s : State) (c : Nat) (f : CanFrame) : Bool :=
  s.on (R.CAN_CFG.FIELD_EN c) && f.fdf && f.ide && f.ident.toNat % 2 ^ 13 == s.f (R.CAN_CFG.FIELD_MARK c)

def fieldType (f : CanFrame) : Nat := f.ident.toNat / 2 ^ 24 % 4
def fieldNode (f : CanFrame) : Nat := f.ident.toNat / 2 ^ 18 % 64
def fieldSub (f : CanFrame) : Nat := f.ident.toNat / 2 ^ 13 % 32

/-- The channel is on the bus: enabled and not bus-off. -/
def State.canUp (s : State) (c : Nat) : Bool := s.on (R.CAN_CFG.EN c) && s.f (R.CAN_STATUS.STATE c) ≤ 1
/-- The mode in which a channel runs: bus monitoring in a role that sends nothing (R451, R458). -/
def State.canMode (s : State) (c : Nat) : Nat :=
  if !s.lightRole || s.f (R.CAN_CFG.MODE c) == 3 then 1 else s.f (R.CAN_CFG.MODE c)
/-- The channel may send: enabled, not in bus monitoring, in a role that sends (R444, R451). -/
def State.canSends (s : State) (c : Nat) : Bool :=
  s.canUp c && s.canMode c != 1

/-! ## Field frames to be sent (R445, R446, R448) -/

/-- A frame becomes pending. -/
def State.canPush (s : State) (c : Nat) (f : CanFrame) (buf : Option Nat) : State :=
  let k := s.canAt c
  let s := s.setCan c { k with pend := k.pend ++ [⟨f, buf, s.can.orders, 0⟩] }
  { s with can := { s.can with orders := s.can.orders + 1 } }

/-- A field frame of the module's own joins the field queue of 64; a full one does not take it (R448; DESIGN CHOICE, assumption
168). -/
def State.canOwn (s : State) (c : Nat) (f : CanFrame) : State := s.when (s.canRoom c) (·.canPush c f none)

/-- The priority of a command (R445). -/
def canPrio (code : Nat) : Nat := if code = ccRetire ∨ code = ccHoldReports then 1 else 3

/-- The field frame of a command for a node; `all` for a BROADCAST (R445, R446). Its ESI is set as it leaves. -/
def State.canFrameOf (s : State) (c : Nat) (b : CmdBody) (node sub : Nat) (all : Bool) : CanFrame :=
  { fdf := true, brs := true, esi := false, ide := true, rtr := false,
    dlc := BitVec.ofNat 4 (bytesDlc b.bytes.length)
    ident := BitVec.ofNat 29 (canPrio b.code * 2 ^ 26 + (if all then 3 * 2 ^ 24 else node * 2 ^ 18 + sub * 2 ^ 13) +
      s.f (R.CAN_CFG.FIELD_MARK c)),
    data := canPad b.bytes }

/-- A BROADCAST on a channel. -/
def State.canBroadcast (s : State) (c : Nat) (b : CmdBody) : State := s.canOwn c (s.canFrameOf c b 0 0 true)

/-- How RETIRE goes to a unit whose frame came from a node and sub-address of a channel (R341; DEDUCED, assumption 142). -/
def State.canRetire (c node sub : Nat) (b : CmdBody) (s : State) : State := s.canOwn c (s.canFrameOf c b node sub false)

/-! ## Timestamps (R452, R453) -/

/-- CAN_SNAPSHOT: at a whole second of the time base, or at a step, with what the counter holds. -/
def execCanSnapshot (cnt : Word) (s : State) : Res := .next (s.canSnap cnt)
/-- SNAP (CAN_CMD), with what the counter holds. -/
def execSnap (c : Fin 8) (cnt : Word) (s : State) : Res := .next (s.viaWrite (R.CAN_CMD.reg c) (fun s => s.canSnap cnt))

/-- A read of CAN_TS_SNAP_CNT captures the newest snapshot (R452). -/
def State.canSnapRead (s : State) (c : Nat) : State :=
  match s.can.snaps with
  | [] => s.answer (s.r (R.CAN_TS_SNAP_CNT.reg c))
  | x :: _ =>
    let s := (s.setR (R.CAN_TS_SNAP_CNT.reg c) x.cnt).setStampR (R.CAN_TS_SNAP_TIME.reg c) x.time
    (s.setF (R.CAN_TS_SNAP_STEP.STEP c) x.step).answer x.cnt
/-- SNAP_CNT_READ. -/
def execSnapCntRead (c : Fin 8) (s : State) : Res :=
  .next (s.viaRead (R.CAN_TS_SNAP_CNT.reg c) (fun s => s.canSnapRead c))

/-! ## Receive buffers (R454–R456) -/

/-- CAN_MB_IRQ: FULL and IE of each mailbox. -/
def State.mbIrq (s : State) (c : Nat) : State :=
  s.setF (R.CAN_MB_IRQ.IRQ c) (maskOf 16 (fun m => s.on (R.CAN_MB_STAT.FULL c m) && s.on (R.CAN_MB_FILT.IE c m)))

/-- Put frame words in a mailbox. -/
def State.mbPut (s : State) (c m : Nat) (w : List Word) : State :=
  let s := (s.setR (R.CAN_MB_WORD0.reg c m) (w.getD 0 0)).setR (R.CAN_MB_ID.reg c m) (w.getD 1 0)
  let s := s.setR (R.CAN_MB_STAMP.reg c m) (w.getD 2 0)
  foldS (List.range 16) (fun k s => s.setR (R.CAN_MB_DATA.reg c m k) (w.getD (3 + k) 0)) s

/-- A mailbox's OVERRUN (R455, R458). -/
def State.mbOverrun (s : State) (c m : Nat) : State :=
  (s.setF (R.CAN_MB_STAT.OVERRUN c m) 1).raise (E.CAN_EVT.MB_OVERRUN c)

def mbShadowDefault (_ : Nat) : List Word := []
/-- A frame arrives at mailbox `m` (R455). -/
def State.mbArrive (s : State) (c m : Nat) (w : List Word) : State :=
  if s.on (R.CAN_MB_STAT.LOCKED c m) then
    let s := if s.on (R.CAN_MB_STAT.SHADOW c m) then s.mbOverrun c m else s
    let x := s.canAt c
    (s.setCan c { x with shadow := sset mbShadowDefault x.shadow m w }).setF (R.CAN_MB_STAT.SHADOW c m) 1
  else
    let s := if s.on (R.CAN_MB_STAT.FULL c m) then s.mbOverrun c m else s
    ((s.mbPut c m w).setF (R.CAN_MB_STAT.FULL c m) 1).mbIrq c

/-- A read of word 0 of a mailbox locks it (R455). -/
def State.mbLock (s : State) (c m : Nat) : State :=
  (s.setF (R.CAN_MB_STAT.LOCKED c m) 1).answer (s.r (R.CAN_MB_WORD0.reg c m))
/-- MAILBOX_LOCK. -/
def execMailboxLock (c : Fin 8) (m : Fin 16) (s : State) : Res :=
  .next (s.viaRead (R.CAN_MB_WORD0.reg c m) (fun s => s.mbLock c m))

/-- A read of the last word of a mailbox releases it; a shadow frame moves in (R455). An empty mailbox shows TYPE 0. -/
def State.mbRelease (s : State) (c m : Nat) : State :=
  let s := (s.answer (s.r (R.CAN_MB_DATA.reg c m 15))).setF (R.CAN_MB_STAT.LOCKED c m) 0
  if s.on (R.CAN_MB_STAT.SHADOW c m) then
    let x := s.canAt c
    let s := s.mbPut c m (sget mbShadowDefault x.shadow m)
    let s := s.setCan c { x with shadow := sset mbShadowDefault x.shadow m [] }
    ((s.setF (R.CAN_MB_STAT.SHADOW c m) 0).setF (R.CAN_MB_STAT.FULL c m) 1).mbIrq c
  else ((s.setF (R.CAN_MB_STAT.FULL c m) 0).setF (R.CAN_MB_WORD0.TYPE c m) 0).mbIrq c
/-- MAILBOX_RELEASE. -/
def execMailboxRelease (c : Fin 8) (m : Fin 16) (s : State) : Res :=
  .next (s.viaRead (R.CAN_MB_DATA.reg c m 15) (fun s => s.mbRelease c m))

/-- Whether a filter matches a frame (R454). -/
def State.mbMatch (s : State) (c m : Nat) (f : CanFrame) : Bool :=
  s.on (R.CAN_MB_FILT.EN c m) && (s.on (R.CAN_MB_FILT.IDE c m) == f.ide) &&
    ((s.f (R.CAN_MB_FILT.ID c m) ^^^ f.ident.toNat) &&& s.f (R.CAN_MB_MASK.MASK c m)) == 0

/-- A frame goes to the first mailbox that matches, or to the bulk queue (R454, R456). -/
def State.canBuffer (s : State) (c : Nat) (f : CanFrame) (stamp : Word) : State :=
  match (List.range 16).find? (fun m => s.mbMatch c m f) with
  | some m => s.mbArrive c m (f.words stamp)
  | none =>
    if s.quLevel (.bulk c) + s.f (R.CAN_BULK_OWED.OWED c) < 512 then s.quOffer (.bulk c) (f.words stamp)
    else s.raise (quOverflow (.bulk c))

/-- A write of CAN_BULK_ACK (R456). -/
def State.bulkAck (s : State) (c n : Nat) : State :=
  s.setF (R.CAN_BULK_OWED.OWED c) (s.f (R.CAN_BULK_OWED.OWED c) - n)
/-- BULK_ACK. -/
def execBulkAck (c : Fin 8) (n : BitVec 10) (s : State) : Res :=
  .next (s.viaWrite (R.CAN_BULK_ACK.reg c) (fun s => s.bulkAck c n.toNat))

/-! ## Reception (R445–R447, R450) -/

/-- The receive error counter after a frame received (ISO 11898-1): one less; from above 127, a value from 119 to 127. -/
def State.recGood (s : State) (c : Nat) : State :=
  let n := s.f (R.CAN_STATUS.REC c)
  if 127 < n then
    let x := s.free
    let s := x.2.setF (R.CAN_STATUS.REC c) (119 + x.1 % 9)
    if s.f (R.CAN_STATUS.TEC c) < 128 && s.f (R.CAN_STATUS.STATE c) == 1 then s.setF (R.CAN_STATUS.STATE c) 0 else s
  else s.setF (R.CAN_STATUS.REC c) (n - 1)

/-- Whether bytes are the body of R116 with its payload, padded with zeros to the next CAN FD data length (R446). -/
def bodyOk (d : List Byte) : Bool :=
  let n := leNat ((d.drop 28).take 2)
  d.getD 0 0 == 2 && decide ((d.getD 2 0).toNat ≤ 1) && d.getD 3 0 == 0 && decide ((d.getD 21 0).toNat < 4) && d.getD 31 0 == 0 &&
    decide (n ≤ 32) && d.length == dlcBytes true (bytesDlc (32 + n)) && (d.drop (32 + n)).all (· == 0)

/-- Whether a field frame meets R446. -/
def fieldOk (f : CanFrame) : Bool :=
  f.brs && match fieldType f with
    | 1 => f.data.length == 24 && ((f.data.drop 1).take 3).all (· == 0)
    | 2 => f.data.length == 24 && (f.data.drop 20).all (· == 0)
    | 0 => bodyOk f.data
    | _ => bodyOk f.data && ((f.data.drop 12).take 8).all (· == 0xFF) && fieldNode f == 0 && fieldSub f == 0

/-- The path address of a field frame's node (R48, R447). -/
def fieldAddr (c : Nat) (f : CanFrame) : Nat := c * 65536 + fieldNode f * 256 + fieldSub f

/-- The valid record that a frame's channel, NODE, SUB and EUI-64 name (R447). -/
def State.canRecord (s : State) (c : Nat) (f : CanFrame) (eui : Eui) : Option Nat :=
  s.validEps.find? (fun i => s.ep i EP.PATH == 2 && s.epEui i = eui &&
    getBits (w32 (s.ep i EP.ADDR)) 16 3 == c && getBits (w32 (s.ep i EP.ADDR)) 8 6 == fieldNode f &&
    getBits (w32 (s.ep i EP.ADDR)) 0 5 == fieldSub f)

/-- EVENT (R446, R447); a JOIN, of a record or not, has the payload of R60 (assumption 125). -/
def State.canEvent (s : State) (c : Nat) (f : CanFrame) (stamp : Word) : State :=
  let eui : Eui := BitVec.ofNat 64 (leNat ((f.data.drop 16).take 8))
  let kind := (f.data.getD 0 0).toNat
  let t := s.canTime stamp
  let src := s.canRecord c f eui
  let send := State.canRetire c (fieldNode f) (fieldSub f)
  if kind = kJoin then s.joinEvent src eui 2 (w32 (fieldAddr c f)) send t.1 t.2
  else s.fieldEvent src ⟨eui, kind, byteWord f.data 1, byteWord f.data 2, byteWord f.data 3⟩ send t.1 t.2

/-- REPLY (R446, R163). -/
def State.canReply (s : State) (c : Nat) (f : CanFrame) (stamp : Word) : State :=
  let eui : Eui := BitVec.ofNat 64 (leNat (f.data.take 8))
  let status := leNat ((f.data.drop 12).take 2)
  let r : Reply := ⟨byteWord f.data 2, eui, status == 0, w32 status, leNat ((f.data.drop 14).take 2) % 1024,
    (byteWord f.data 4).toNat⟩
  let t := s.canTime stamp
  s.fieldReply (s.canRecord c f eui) r 2 0 (State.canRetire c (fieldNode f) (fieldSub f)) t.1 t.2

/-- A frame is received (R445–R447, R451, R454), with its start-of-frame stamp; in loopback none is delivered. A node's frames
are those of TYPE 1 and 2. -/
def State.canReceive (s : State) (c : Nat) (f : CanFrame) (stamp : Word) : State :=
  let s := (s.count (R.CAN_CNT_RX.COUNT c)).recGood c
  if s.canMode c = 2 then s
  else if s.isField c f then
    if !fieldOk f then s.count (R.CAN_CNT_BAD_FIELD.COUNT c)
    else if s.lightRole then
      match fieldType f with
      | 1 => s.canEvent c f stamp
      | 2 => s.canReply c f stamp
      | _ => s
    else s
  else s.canBuffer c f stamp

/-- CAN_FIELD_EVENT. -/
def State.canFieldEvent (s : State) (c : Nat) (f : CanFrame) (stamp : Word) : State :=
  if s.canUp c && s.isField c f && fieldType f == 1 then s.canReceive c f stamp else s
def execCanFieldEvent (c : Fin 8) (f : CanFrame) (stamp : Word) (s : State) : Res := .next (s.canFieldEvent c f stamp)
/-- CAN_FIELD_REPLY. -/
def State.canFieldReply (s : State) (c : Nat) (f : CanFrame) (stamp : Word) : State :=
  if s.canUp c && s.isField c f && fieldType f == 2 then s.canReceive c f stamp else s
def execCanFieldReply (c : Fin 8) (f : CanFrame) (stamp : Word) (s : State) : Res := .next (s.canFieldReply c f stamp)
/-- CAN_FIRMWARE_FRAME: every other frame; a field frame of a TYPE that no node sends only counts. -/
def State.canFirmwareFrame (s : State) (c : Nat) (f : CanFrame) (stamp : Word) : State :=
  if s.canUp c && !(s.isField c f && (fieldType f == 1 || fieldType f == 2)) then s.canReceive c f stamp else s
def execCanFirmwareFrame (c : Fin 8) (f : CanFrame) (stamp : Word) (s : State) : Res := .next (s.canFirmwareFrame c f stamp)

/-! ## Errors (R450, ISO 11898-1) -/

/-- The counter of an error type: 4 and 5 are bit errors. -/
def State.canErr (s : State) (c lec : Nat) : State :=
  let s := if lec = 0 then s else s.setF (R.CAN_STATUS.LEC c) lec
  let s := match lec with
    | 1 => s.count (R.CAN_CNT_STUFF.COUNT c)
    | 2 => s.count (R.CAN_CNT_FORM.COUNT c)
    | 3 => s.count (R.CAN_CNT_ACK.COUNT c)
    | 4 => s.count (R.CAN_CNT_BIT.COUNT c)
    | 5 => s.count (R.CAN_CNT_BIT.COUNT c)
    | 6 => s.count (R.CAN_CNT_CRC.COUNT c)
    | _ => s
  s.raise (E.CAN_EVT.ERR_FRAME c)

/-- A channel starts, or starts again after bus-off: error-active, its counters 0 (R450). -/
def State.canFresh (s : State) (c : Nat) : State :=
  let s := (s.setF (R.CAN_STATUS.RECOVERING c) 0).setF (R.CAN_STATUS.STATE c) 0
  (s.setF (R.CAN_STATUS.TEC c) 0).setF (R.CAN_STATUS.REC c) 0

/-- Error-passive when a counter reaches 128. -/
def State.canPassive (s : State) (c : Nat) : State :=
  if s.f (R.CAN_STATUS.STATE c) = 0 ∧ (128 ≤ s.f (R.CAN_STATUS.TEC c) ∨ 128 ≤ s.f (R.CAN_STATUS.REC c)) then
    (s.setF (R.CAN_STATUS.STATE c) 1).raise (E.CAN_EVT.PASSIVE c)
  else s

/-- CAN_ERROR_FRAME: an error raises the receive error counter by 1. `eight` raises it by 8: with no error type for dominant bits
after its own flag, which belong to the error frame already counted; with one for a bit error in its own flag. -/
def State.canErrorFrame (s : State) (c lec : Nat) (eight : Bool) : State :=
  if s.canUp c then
    let s := if eight && lec == 0 then s else s.canErr c lec
    (s.setF (R.CAN_STATUS.REC c) (min 255 (s.f (R.CAN_STATUS.REC c) + if eight then 8 else 1))).canPassive c
  else s
def execCanErrorFrame (c : Fin 8) (lec : Fin 7) (eight : Bool) (s : State) : Res := .next (s.canErrorFrame c lec eight)

/-- PROTOCOL_EXCEPTION (R443). -/
def State.protocolException (s : State) (c : Nat) : State := if s.canUp c then s.count (R.CAN_CNT_PXE.COUNT c) else s
def execProtocolException (c : Fin 8) (s : State) : Res := .next (s.protocolException c)

/-! ## Transmission (R448–R450, R458) -/

/-- The pending frame that wins arbitration among the channel's own: lowest identifier, then earliest request. -/
def canBest : List CanTx → Option CanTx
  | [] => none
  | x :: l =>
    match canBest l with
    | none => some x
    | some y =>
      if y.frame.rank < x.frame.rank ∨ (y.frame.rank = x.frame.rank ∧ y.order < x.order) then some y else some x

/-- Take a frame off the pending ones. -/
def State.canTake (s : State) (c : Nat) (x : CanTx) : State :=
  let k := s.canAt c
  s.setCan c { k with pend := k.pend.filter (fun y => y.order != x.order) }

/-- A transmit buffer ends: STATUS and REASON; REQ and ABORT return to 0. -/
def State.txEnd (s : State) (c b status reason : Nat) : State :=
  let s := (s.setF (R.CAN_TX_CTL.STATUS c b) status).setF (R.CAN_TX_CTL.REASON c b) reason
  (s.setF (R.CAN_TX_CTL.REQ c b) 0).setF (R.CAN_TX_CTL.ABORT c b) 0

/-- A frame ends without being sent. The handle of a field command waits for its reply timer (R449). -/
def State.canFail (s : State) (c : Nat) (x : CanTx) (reason : Nat) : State :=
  let s := s.canTake c x
  match x.buf with
  | some b => s.txEnd c b 3 reason
  | none => s

/-- The channel is bus-off; recovery starts at once under AUTO_REC (R450). -/
def State.busLeave (s : State) (c : Nat) : State :=
  let s := (s.setF (R.CAN_STATUS.STATE c) 2).raise (E.CAN_EVT.BUS_OFF c)
  if s.on (R.CAN_CFG.AUTO_REC c) then s.setF (R.CAN_STATUS.RECOVERING c) 1 else s

/-- Bus-off during a transmission (R450): the frame in transmission is discarded, and counted with the expired ones (assumption
33). -/
def State.busOff (s : State) (c : Nat) : State :=
  if s.canUp c then
    (match canBest (s.canAt c).pend with
      | some x => (s.canFail c x 2).count (R.CAN_CNT_TX_EXPIRED.COUNT c)
      | none => s).busLeave c
  else s

/-- BUS_OFF: the 8 that takes the transmit error counter past 255 (ISO 11898-1; DEDUCED, assumption 197). -/
def State.busOver (s : State) (c : Nat) : State :=
  if s.canUp c && Nat.ble 248 (s.f (R.CAN_STATUS.TEC c)) then (s.setF (R.CAN_STATUS.TEC c) 255).busOff c else s
def execBusOff (c : Fin 8) (s : State) : Res := .next (s.busOver c)

/-- A failed attempt: the retries, or the end of the frame (R449). -/
def State.canRetry (s : State) (c : Nat) (x : CanTx) : State :=
  if s.f (R.CAN_RETRY.LIMIT c) ≤ x.fails then (s.canFail c x 0).raise (E.CAN_EVT.RETRY_EXHAUSTED c)
  else
    let k := s.canAt c
    s.setCan c { k with pend := k.pend.map (fun y => if y.order = x.order then { y with fails := y.fails + 1 } else y) }

/-- The transmit error counter after a frame sent (ISO 11898-1): one less; both below 128 end error-passive. -/
def State.tecGood (s : State) (c : Nat) : State :=
  let s := s.setF (R.CAN_STATUS.TEC c) (s.f (R.CAN_STATUS.TEC c) - 1)
  if s.f (R.CAN_STATUS.STATE c) == 1 && s.f (R.CAN_STATUS.TEC c) < 128 && s.f (R.CAN_STATUS.REC c) < 128 then
    s.setF (R.CAN_STATUS.STATE c) 0
  else s

/-- A frame is sent (R449, R452), a CAN FD frame with ESI of an error-passive channel (R443); in loopback it does not leave the
module. -/
def State.canSent (s : State) (c : Nat) (x : CanTx) (stamp : Word) : State :=
  let f := { x.frame with esi := x.frame.fdf && s.f (R.CAN_STATUS.STATE c) == 1 }
  let s := (s.canTake c x).count (R.CAN_CNT_TX.COUNT c)
  let s := match x.buf with
    | some b => (s.txEnd c b 2 0).setR (R.CAN_TX_TSTAMP.reg c b) stamp
    | none => s
  s.tecGood c |>.when (s.canMode c == 0) (fun s => s.send (.can c f))

/-- A transmission error: the transmit error counter goes up by 8, but not for an acknowledgement error of an error-passive
channel nor for the stuff error in arbitration that is exempt, and by 8 more for each error in its own flags; above 255 the
channel is bus-off (R450, ISO 11898-1). -/
def State.canTxError (s : State) (c : Nat) (x : CanTx) (lec : Nat) (arb : Bool) (more : Nat) : State :=
  let exempt := (s.f (R.CAN_STATUS.STATE c) == 1 && lec == 3) || (arb && lec == 1)
  let up := (if exempt then 0 else 8) + 8 * more
  let s := s.canErr c lec
  let off := Nat.ble 256 (s.f (R.CAN_STATUS.TEC c) + up)
  let s := (s.setF (R.CAN_STATUS.TEC c) (min 255 (s.f (R.CAN_STATUS.TEC c) + up))).canPassive c
  if off then s.busOff c else s.canRetry c x

/-- An overload flag after a frame sent (ISO 11898-1): 8 for a bit error in it, which is an error frame, and for each run of
dominant bits after it; above 255 the channel is bus-off, with no frame in transmission (R450). -/
def State.canOverload (s : State) (c : Nat) (bit : Bool) (more : Nat) : State :=
  let s := if bit then s.canErr c 5 else s
  let n := s.f (R.CAN_STATUS.TEC c) + 8 * (b2n bit + more)
  let s := (s.setF (R.CAN_STATUS.TEC c) (min 255 n)).canPassive c
  if 256 ≤ n then s.busLeave c else s

/-- An attempt ends (R449, R450). -/
def State.canAttempt (s : State) (c : Nat) (o : CanOutcome) : State :=
  if s.canSends c then
    match canBest (s.canAt c).pend with
    | none => s
    | some x =>
      match o with
      | .sent stamp => s.canSent c x stamp
      | .overload stamp bit more => (s.canSent c x stamp).canOverload c bit more
      | .lost => s.canRetry c x
      | .error lec arb more => s.canTxError c x lec.val arb more
  else s
/-- CAN_TX_ATTEMPT. -/
def execCanTxAttempt (c : Fin 8) (o : CanOutcome) (s : State) : Res := .next (s.canAttempt c o)

/-- The frame that a transmit buffer holds (R458). Its ESI is set as it leaves. -/
def State.txFrame (s : State) (c b : Nat) : CanFrame :=
  let fdf := s.on (R.CAN_TX_CTL.FDF c b)
  let rtr := !fdf && s.on (R.CAN_TX_CTL.RTR c b)
  let n := if rtr then 0 else dlcBytes fdf (s.f (R.CAN_TX_CTL.DLC c b))
  { fdf := fdf, brs := fdf && s.on (R.CAN_TX_CTL.BRS c b), esi := false,
    ide := s.on (R.CAN_TX_CTL.IDE c b), rtr := rtr, dlc := BitVec.ofNat 4 (s.f (R.CAN_TX_CTL.DLC c b)), ident := BitVec.ofNat 29 (s.f (R.CAN_TX_ID.ID c b)),
    data := (wordsBytes ((List.range 16).map (fun k => s.r (R.CAN_TX_DATA.reg c b k)))).take n }

/-- Setting REQ makes the buffer pending; a buffer that is pending stays so (R458). -/
def State.txRequest (s : State) (c b : Nat) : State :=
  if (s.canAt c).pend.any (fun x => x.buf == some b) then s
  else
    let s := ((s.setF (R.CAN_TX_CTL.REQ c b) 1).setF (R.CAN_TX_CTL.STATUS c b) 1).setF (R.CAN_TX_CTL.REASON c b) 0
    s.canPush c (s.txFrame c b) (some b)
/-- TX_REQUEST. -/
def execTxRequest (c : Fin 8) (b : Fin 4) (s : State) : Res :=
  .next (s.viaWrite (R.CAN_TX_CTL.reg c b) (fun s => s.txRequest c b))

/-- Abort of a pending buffer (R449). -/
def State.txAbort (s : State) (c b : Nat) : State :=
  match (s.canAt c).pend.find? (fun x => x.buf == some b) with
  | some x => s.canFail c x 1
  | none => s
/-- TX_ABORT: an attempt in progress ends first (R449). -/
def execTxAbort (c : Fin 8) (b : Fin 4) (attempt : Option CanOutcome) (s : State) : Res :=
  .next (s.viaWrite (R.CAN_TX_CTL.reg c b) (fun s =>
    (match attempt with
      | some o => s.canAttempt c o
      | none => s).txAbort c b))

/-- A write of CAN_TXb_CTL: the RW fields, then REQ and ABORT. -/
def State.txCtlWrite (s : State) (c b : Nat) (v : Word) : State :=
  let r := R.CAN_TX_CTL.reg c b
  let s := s.wr .can r.off (mergeMask (s.r r) v 0x03C0FFFF)
  let s := if bit v 31 then s.txRequest c b else s
  if bit v 30 then s.txAbort c b else s

/-- ABORT_TX: every buffer. -/
def State.abortTx (s : State) (c : Nat) : State := foldS (List.range 4) (fun b s => s.txAbort c b) s
def execAbortTx (c : Fin 8) (s : State) : Res := .next (s.viaWrite (R.CAN_CMD.reg c) (fun s => s.abortTx c))

/-- RECOVER: recovery from bus-off starts (R450). -/
def State.canRecover (s : State) (c : Nat) : State :=
  if s.f (R.CAN_STATUS.STATE c) = 2 then s.setF (R.CAN_STATUS.RECOVERING c) 1 else s
def execRecover (c : Fin 8) (s : State) : Res := .next (s.viaWrite (R.CAN_CMD.reg c) (fun s => s.canRecover c))

/-- BUS_OFF_RECOVERY_DONE. -/
def State.canRecovered (s : State) (c : Nat) : State := if s.on (R.CAN_STATUS.RECOVERING c) then s.canFresh c else s
def execBusOffRecoveryDone (c : Fin 8) (s : State) : Res := .next (s.canRecovered c)

/-- CAN_TX_EXPIRE: the field frame that has waited longest is discarded (R450). -/
def State.canExpire (s : State) (c : Nat) : State :=
  match s.canField c with
  | [] => s
  | x :: _ => (s.canTake c x).count (R.CAN_CNT_TX_EXPIRED.COUNT c)
def execCanTxExpire (c : Fin 8) (s : State) : Res := .next (s.canExpire c)

/-- CAN_CMD by its code. -/
def State.canCmd (s : State) (c v : Nat) : State :=
  match v with
  | 1 => s.canRecover c
  | 2 => s.canSnapNow
  | 3 => s.abortTx c
  | _ => s

/-! ## Field commands (R446, R448) -/

/-- The launch event of a command on a channel (R307, R448, R569). -/
def State.canLaunch (s : State) (c n k : Nat) (e : CalEntry) (x : Copy) : State :=
  let f := s.canFrameOf c e.body (getBits e.addr 8 6) (getBits e.addr 0 5) false
  ((s.canPush c f none).launchFirst e x).copyLeft n k e x false

end Sys2Proof.Machine
end

