-- ==== Sys2Proof/Machine/Crossbar.lean ====
section
/-! DEFINITION. From the virtual output queues to the ports: scheduling (R208), planes and credits (R205–R207, R243,
R247), reassembly (R213, R214), replication (R244–R248), transmission (R198, R211, R262, R270–R272, R277, R302, R303).
A frame crosses in one command and arrives, with all its tokens acknowledged, in another (assumption 21). -/
namespace Sys2Proof.Machine
open Sys2Proof

/-! ## Deficit weighted round robin (R208) -/

def drrDefault (_ : Nat) : Drr := Drr.zero
def State.drrOf (s : State) (k : Nat) : Drr := sget drrDefault s.fab.drr k
def State.setDrr (s : State) (k : Nat) (d : Drr) : State := s.modFab (fun b => { b with drr := sset drrDefault b.drr k d })
/-- The quantum of a class in plot `p` in bytes; 0 acts as 1 (R226). -/
def State.quantum (s : State) (p c : Nat) : Nat :=
  256 * max 1 (if c < 4 then getBits (s.r (R.FAB_DWRR0.reg p)) (8 * c) 8 else getBits (s.r (R.FAB_DWRR1.reg p)) (8 * (c - 4)) 8)

/-- The class served next among those whose head frame's length is given (R208). A class gains its quantum once at each
visit and is served while its deficit covers its head; a class with nothing to send loses its deficit; classes follow
one another from 0 up (DEDUCED, assumption 19). -/
def drrPick (heads quantum : Nat → Option Nat) : Nat → Drr → Option (Nat × Drr)
  | 0, _ => none
  | n + 1, d =>
    let next : Drr := ⟨(d.cur + 1) % 6, false, d.deficit⟩
    match heads d.cur with
    | none => drrPick heads quantum n { next with deficit := d.deficit.set d.cur 0 }
    | some len =>
      let have_ := d.deficit.getD d.cur 0 + (if d.visited then 0 else (quantum d.cur).getD 0)
      if len ≤ have_ then some (d.cur, ⟨d.cur, true, d.deficit.set d.cur (have_ - len)⟩)
      else drrPick heads quantum n { next with deficit := d.deficit.set d.cur have_ }

/-- The class chosen by R208 and the round robin's state after it: 7, then 6, then 0–5. -/
def State.pickClass (s : State) (key p : Nat) (heads : Nat → Option Nat) : Option (Nat × Drr) :=
  if (heads 7).isSome then some (7, s.drrOf key)
  else if (heads 6).isSome then some (6, s.drrOf key)
  else drrPick heads (fun c => some (s.quantum p c)) 256 (s.drrOf key)

/-! ## Planes (R205, R206) -/

/-- The codes of FAB_PLANES. -/
def plOff : Nat := 0
def plActive : Nat := 1
def plFallow : Nat := 2
def plHarrow : Nat := 3
def plRetired : Nat := 4
def State.plane (s : State) (k : Nat) : Nat := getBits (s.r R.FAB_PLANES.reg) (3 * k) 3
def State.setPlane (s : State) (k v : Nat) : State := s.setR R.FAB_PLANES.reg (setBits (s.r R.FAB_PLANES.reg) (3 * k) 3 v)
/-- The active planes, rising. -/
def State.activePlanes (s : State) : List Nat := (List.range 9).filter (fun k => s.plane k == plActive)

/-- Tokens in which a frame crosses (R205). -/
def tokensFor (len : Nat) : Nat := ceilDiv (len - 4) 128

/-- Tokens not yet acknowledged on plot `p`'s link into plane `k` (R206). Those of a sown frame are so until every target
plot holds them (R247): its `lead` crossing, one of those still on their way, stands for them. -/
def State.linkLoad (s : State) (p k : Nat) : Nat :=
  (s.fab.flight.filter (fun x => x.src == p && x.plane == k && x.lead)).foldl (fun n x => n + x.tokens) 0
/-- The active plane with the fewest, the lowest-numbered among equals (R206). -/
def State.choosePlane (s : State) (p : Nat) : Option Nat :=
  s.activePlanes.foldl (fun b k => match b with
    | none => some k
    | some j => if s.linkLoad p k < s.linkLoad p j then some k else some j) none

/-! ## Credits (R207, R243) -/

/-- Reassembly credits of an egress node in tokens: 768, and 1,024 for a control attachment (R207, R230). -/
def reasmCredits (n : Nat) : Nat := if n < 256 then 768 else 1024
/-- Reassembly tokens of a node in use: of unicast frames on their way to it or not yet transmitted. -/
def State.reasmUsed (s : State) (n : Nat) : Nat :=
  ((s.fab.flight ++ s.fab.held).filter (fun x => !x.multi && x.targets == [n])).foldl (fun a x => a + x.tokens) 0 +
    ((s.fab.tx ++ s.fab.residue).filter (fun x => !x.multi && x.node == n)).foldl (fun a x => a + x.tokens) 0
/-- Replication tokens of egress plot `p` in use: a copy keeps its own until its last target has gone (R243). -/
def State.replUsed (s : State) (p : Nat) : Nat :=
  ((s.fab.flight ++ s.fab.held).filter (fun x => x.multi && x.dst == p)).foldl (fun a x => a + x.tokens) 0 +
    (((s.fab.tx ++ s.fab.residue).filter (fun x => x.multi && plotOf x.node == p)).foldl
      (fun (a : Nat × List Nat) x => if a.2.contains x.fid then a else (a.1 + x.tokens, x.fid :: a.2)) (0, [])).1
/-- Replication credits of a plot: two tokens in each cell of its region (R231, R243). -/
def State.replCredits (s : State) (p : Nat) : Nat := 2 * s.f (R.FAB_BUF_MC_RES.MC_RES p)

/-- The first waiting part of every VOQ of a plot and class. -/
def State.voqHeads (s : State) (p c : Nat) : List VoqPart :=
  (s.fab.waiting.filter (fun x => x.plot == p && x.cls == c)).foldl
    (fun a x => if a.any (fun y => y.voq == x.voq) then a else a ++ [x]) []

def State.partLen (s : State) (x : VoqPart) : Nat := match s.fabFrame x.fid with
  | some f => f.fr.len
  | none => 0
def State.partTokens (s : State) (x : VoqPart) : Nat := tokensFor (s.partLen x)

/-- What plot `q` would next send alone to node `n`, in tokens. -/
def State.wants (s : State) (q n : Nat) : Nat :=
  (List.range 8).foldl (fun a c => (s.voqHeads q c).foldl (fun a x => if !x.multi && x.voq == n then max a (s.partTokens x) else a) a) 0
/-- What plot `q` would next send of multicast frames to plot `d`, in tokens. -/
def State.wantsCopy (s : State) (q d : Nat) : Nat :=
  (List.range 8).foldl (fun a c => (s.voqHeads q c).foldl (fun a x =>
    if x.multi && x.dests.any (fun y => y.1 == d) then max a (s.partTokens x) else a) a) 0
/-- The plots before plot `p` in the rotation after the plot that was served last under a key (R207, R243). Before any was, plot 0
counts as served last, so that the first turn is plot 1's (DESIGN CHOICE, assumption 184). -/
def State.beforeInTurn (s : State) (key p : Nat) : List Nat :=
  let last := sget natZero' s.fab.granted key
  ((List.range 8).map (fun i => (last + 1 + i) % 8)).takeWhile (· != p)
/-- The key under which the rotation of a plot's replication credits stands. -/
def replKey (d : Nat) : Nat := 512 + d
/-- Whether the rotation of R207 leaves plot `p` the credits of node `n` that it needs: those of the plots that come
before it after the plot last served are set aside. -/
def State.creditTurn (s : State) (p n need : Nat) : Bool :=
  let ahead := (s.beforeInTurn n p).foldl (fun a q => a + s.wants q n) 0
  decide (ahead + need + s.reasmUsed n ≤ reasmCredits n)
/-- The same for the replication credits of plot `d` (R243). -/
def State.copyTurn (s : State) (p d need : Nat) : Bool :=
  let ahead := (s.beforeInTurn (replKey d) p).foldl (fun a q => a + s.wantsCopy q d) 0
  decide (ahead + need + s.replUsed d ≤ s.replCredits d)

/-- The node at which the frame of a part entered. -/
def State.partNode (s : State) (x : VoqPart) : Option Nat := (s.fabFrame x.fid).map (·.node)
/-- Whether two parts share a target. -/
def VoqPart.meets (x y : VoqPart) : Bool := x.dests.any (fun d => y.dests.any (fun e => d.2.any e.2.contains))
/-- Whether a part must wait for an older one of the same ingress and class that leaves through one of its own egress ports
from another VOQ (R212). -/
def State.outOfOrder (s : State) (x : VoqPart) : Bool :=
  s.fab.waiting.any (fun y => y.plot == x.plot && y.cls == x.cls && decide (y.fid < x.fid) && s.partNode y == s.partNode x &&
    x.meets y)

/-- Whether a VOQ's head can cross now. -/
def State.canCross (s : State) (x : VoqPart) : Bool :=
  !s.outOfOrder x &&
    if x.multi then x.dests.all (fun d => s.copyTurn x.plot d.1 (s.partTokens x)) else s.creditTurn x.plot x.voq (s.partTokens x)

/-- The head that a plot offers in a class: the VOQs in rotation after the one last served (R208). Before any was, VOQ 0 counts as
served last (DESIGN CHOICE, assumption 184). -/
def State.classHead (s : State) (p c : Nat) : Option VoqPart :=
  let l := (s.voqHeads p c).filter s.canCross
  let last := sget natZero' s.fab.turn (8 * p + c)
  let best := fun (l : List VoqPart) => l.foldl (fun b x => match b with
    | none => some x
    | some y => if x.voq < y.voq then some x else some y) (none : Option VoqPart)
  match best (l.filter (fun x => last < x.voq + 1 && x.voq != last)) with
  | some x => some x
  | none => best l

/-! ## Crossing -/

def State.nextSeqOf (s : State) (k : Nat) : Nat := sget natZero' s.fab.nextSeq k
def State.expectOf (s : State) (k : Nat) : Nat := sget natZero' s.fab.expect k
def State.setExpect (s : State) (k v : Nat) : State := s.modFab (fun b => { b with expect := sset natZero' b.expect k (v % 65536) })
/-- The number of a stream (R213). -/
def streamOf (p e c : Nat) : Nat := 64 * p + 8 * e + c

/-- Whether nothing of a stored frame waits or is unacknowledged any more. -/
def State.frameGone (s : State) (fid : Nat) : Bool :=
  !s.fab.waiting.any (·.fid == fid) && !s.fab.flight.any (·.fid == fid)
/-- Release a frame's cells once the egress plots have acknowledged it all (R215, R232). -/
def State.frameFree (s : State) (fid : Nat) : State :=
  match s.fabFrame fid with
  | none => s
  | some f =>
    if s.frameGone fid then ((s.acctRelease (plotOf f.node) f.acct f.cells).setFrame fid none).cellsFree (plotOf f.node) f.list
    else s

/-- The nodes whose reassembly slots hold or need cells. -/
def State.rsmNodes (s : State) : List Nat :=
  (s.fab.rsm.map (·.1) ++ (s.fab.flight ++ s.fab.held).flatMap (·.targets) ++ (s.fab.tx ++ s.fab.residue).map (·.node)).eraseDups
/-- Bring the reassembly slots and the replication regions to the cells that their tokens occupy, two tokens in a cell
(R231; assumption 41). -/
def State.regionsFit (s : State) : State :=
  let s := foldS s.rsmNodes (fun n s =>
    let r := s.regionFit (plotOf n) (.rsm n) (s.rsmCells n) (ceilDiv (s.reasmUsed n) 2)
    r.2.setRsmCells n r.1) s
  foldS (List.range 8) (fun p s =>
    let r := s.regionFit p .repl (s.replCells p) (ceilDiv (s.replUsed p) 2)
    r.2.setReplCells p r.1) s

/-- Part `x` of a frame crosses on plane `k` (R205, R213). -/
def State.crossPart (s : State) (x : VoqPart) (f : FabFrame) (k : Nat) : State :=
  let t := tokensFor f.fr.len
  let s := s.modFab (fun b => { b with waiting := b.waiting.erase x })
  let s := foldS (x.dests.zipIdx 0) (fun d s =>
    let st := streamOf x.plot d.1.1 x.cls
    let c : Crossing := ⟨x.fid, x.plot, d.1.1, x.cls, s.nextSeqOf st, k, t, d.1.2, x.multi, x.sown, d.2 == 0, false, f⟩
    s.modFab (fun b => { b with flight := b.flight ++ [c], nextSeq := sset natZero' b.nextSeq st ((s.nextSeqOf st + 1) % 65536) })) s
  foldS (if x.multi then x.dests.map (fun d => replKey d.1) else [x.voq])
    (fun key s => s.modFab (fun b => { b with granted := sset natZero' b.granted key x.plot })) s

/-- Plot `p` offers its VOQs to the crossbar and one frame crosses (R206–R208). A frame with an uncorrectable cell is
dropped as it is read out and counted in FAB_CNT_FCS_ERR; a cut-through frame goes on and is ended under R211 (R320). -/
def State.frameCross (s : State) (p : Nat) : State :=
  let heads := fun c => (s.classHead p c).map s.partLen
  match s.choosePlane p, s.pickClass p p heads with
  | some k, some (c, d) =>
    match s.classHead p c with
    | none => s
    | some x =>
      match s.fabFrame x.fid with
      | none => s
      | some f =>
        let s := (s.setDrr p d).modFab (fun b => { b with turn := sset natZero' b.turn (8 * p + c) x.voq })
        if f.cellErr && !f.ct then
          ((s.modFab (fun b => { b with waiting := b.waiting.filter (·.fid != x.fid) })).count (R.FAB_CNT_FCS_ERR.COUNT p)).frameFree x.fid
        else (s.crossPart x (if f.cellErr then { f with fr := { f.fr with badFcs := true } } else f) k).regionsFit
  | _, _ => s
/-- FRAME_CROSS of plot `p`. -/
def execFrameCross (p : Fin 8) (s : State) : Res := .next (s.frameCross p)

/-! ## Transmit lists and the replication list (R244–R246) -/

/-- Frames on the transmit list of a node in a class. Those of the launch calendar stand in the node's store (R305), which
always has a place for an arriving one. -/
def State.txCount (s : State) (n c : Nat) : Nat := (s.fab.tx.filter (fun x => x.node == n && x.cls == c && x.frame.cal.isNone)).length
/-- Whether a target is ready (R244). READY 0 acts as 1. -/
def State.txReady (s : State) (n c : Nat) : Bool := decide (s.txCount n c < max 1 (s.f (R.FAB_BUF_MC_CFG.READY (plotOf n))))
/-- Residue entries of a plot. -/
def State.residueCount (s : State) (p : Nat) : Nat := (s.fab.residue.filter (fun x => x.real && plotOf x.node == p)).length
def residueCap : Nat := 16384

/-- Append to a transmit list, behind any entry of the same stream that still waits for the same port (R245). -/
def State.txAppend (s : State) (e : TxEntry) : State :=
  if e.frame.cal.isNone && s.fab.residue.any (fun x => x.node == e.node && x.src == e.src && x.cls == e.cls) then
    s.modFab (fun b => { b with residue := b.residue ++ [{ e with real := false }] })
  else s.modFab (fun b => { b with tx := b.tx ++ [e] })

/-- A dropped residue entry (R246). -/
def State.residueDropped (s : State) (p : Nat) : State :=
  (s.raise (E.FAB_BUF_EVT.RESIDUE_DROP p)).count (R.FAB_BUF_CNT_RESIDUE_DROP.COUNT p)

/-- One copy of a drilled frame at its turn (R244, R246). -/
def State.drill (s : State) (e : TxEntry) : State :=
  let waits := s.fab.residue.any (fun x => x.node == e.node && x.src == e.src && x.cls == e.cls)
  if e.frame.cal.isSome || (s.txReady e.node e.cls && !waits) then s.modFab (fun b => { b with tx := b.tx ++ [e] })
  else if s.residueCount (plotOf e.node) < residueCap then
    s.modFab (fun b => { b with residue := b.residue ++ [{ e with real := true }] })
  else s.residueDropped (plotOf e.node)

/-- Frames that wait behind entries that have gone move to their transmit lists, in order (R245). -/
def State.residueFlow (s : State) : State :=
  let r := s.fab.residue.foldl (fun (a : List TxEntry × List TxEntry) x =>
    if !x.real && !a.1.any (fun y => y.node == x.node && y.src == x.src && y.cls == x.cls) then (a.1, a.2 ++ [x])
    else (a.1 ++ [x], a.2)) ([], [])
  s.modFab (fun b => { b with residue := r.1, tx := b.tx ++ r.2 })

/-- The oldest residue entry of a node. -/
def State.residueHead (s : State) (n : Nat) : Option TxEntry := s.fab.residue.find? (fun x => x.real && x.node == n)
/-- The oldest residue entry of node `n` is appended once the node is ready (R244). -/
def State.residueAppend (s : State) (n : Nat) : State :=
  match s.residueHead n with
  | some e =>
    if s.txReady n e.cls then
      (s.modFab (fun b => { b with residue := b.residue.erase e, tx := b.tx ++ [e] })).residueFlow
    else s
  | none => s
/-- RESIDUE_APPEND at egress node `n`. -/
def execResidueAppend (n : Fin 264) (s : State) : Res := .next (s.residueAppend n).regionsFit
/-- The oldest residue entry of node `n` has waited TMO µs (R246). -/
def State.residueTimeout (s : State) (n : Nat) : State :=
  match s.residueHead n with
  | some e =>
    if s.f (R.FAB_BUF_MC_CFG.TMO (plotOf n)) = 0 then s
    else ((s.modFab (fun b => { b with residue := b.residue.erase e })).residueDropped (plotOf n)).residueFlow
  | none => s
/-- RESIDUE_TIMEOUT at egress node `n`. -/
def execResidueTimeout (n : Fin 264) (s : State) : Res := .next (s.residueTimeout n).regionsFit
/-- The link of port `n` goes down: its residue entries are dropped (R246, R262). -/
def State.residueLinkDown (s : State) (n : Nat) : State :=
  let k := (s.fab.residue.filter (fun x => x.real && x.node == n)).length
  let s := s.modFab (fun b => { b with residue := b.residue.filter (fun x => !(x.real && x.node == n)) })
  ((foldS (List.range k) (fun _ s => s.residueDropped (plotOf n)) s).residueFlow).regionsFit

/-! ## Reassembly (R213, R214, R244, R248) -/

/-- The transmit entry of a frame at one of its targets. -/
def Crossing.at (x : Crossing) (n : Nat) : TxEntry := ⟨n, x.src, x.cls, x.fid, x.tokens, x.multi, false, x.frame⟩

/-- Whether every target of a sown frame whose link is up is ready (R248). -/
def State.sownReady (s : State) (x : Crossing) : Bool :=
  x.frame.cal.isSome || x.targets.all (fun n => (n < 256 && !s.portUp n) || s.txReady n x.cls)

/-- Whether a frame at its turn can be released: a sown one waits for its targets (R248). -/
def State.canRelease (s : State) (x : Crossing) : Bool := !x.sown || x.dead || s.sownReady x

/-- Release a frame at its turn to its targets. A sown frame goes to those whose link is up; a copy of the launch calendar meets
its port at its launch event (R305). -/
def State.release (s : State) (x : Crossing) : State :=
  if x.dead then s
  else if !x.multi then foldS x.targets (fun n s => s.txAppend (x.at n)) s
  else if x.sown && x.frame.cal.isNone then foldS (x.targets.filter (fun n => 256 ≤ n || s.portUp n)) (fun n s => s.txAppend (x.at n)) s
  else foldS x.targets (fun n s => s.drill (x.at n)) s

/-- The held frame of a stream with a number. -/
def State.heldAtSeq (s : State) (p e c q : Nat) : Option Crossing :=
  s.fab.held.find? (fun x => x.src == p && x.dst == e && x.cls == c && x.seq == q)

/-- Release what follows in sequence (R213). -/
def State.drain (p e c : Nat) : Nat → State → State
  | 0, s => s
  | n + 1, s =>
    match s.heldAtSeq p e c (s.expectOf (streamOf p e c)) with
    | some x =>
      if s.canRelease x then
        State.drain p e c n (((s.modFab (fun b => { b with held := b.held.erase x })).release x).setExpect (streamOf p e c) (x.seq + 1))
      else s
    | none => s
def State.drainAll (s : State) (p e c : Nat) : State := State.drain p e c (s.fab.held.length + 1) s

/-- The `lead` of a sown frame that has arrived passes to another of its crossings (R247). -/
def State.passLead (s : State) (x : Crossing) : State :=
  if x.lead && x.sown then
    match s.fab.flight.find? (fun y => y.sown && y.fid == x.fid && y.src == x.src) with
    | some y => s.modFab (fun b => { b with flight := b.flight.map (fun z => if z = y then { z with lead := true } else z) })
    | none => s
  else s

/-- The frame with number `q` of stream (p, e, c) arrives whole at egress plot `e` (R213): all its tokens are
acknowledged. A number that no frame on its way carries is that of a duplicate when R213 calls it old. -/
def State.reassemble (s : State) (p e c q : Nat) : State :=
  let k := streamOf p e c
  let d := (q + 65536 - s.expectOf k) % 65536
  let old := 32768 ≤ d || (s.heldAtSeq p e c q).isSome
  match s.fab.flight.find? (fun x => x.src == p && x.dst == e && x.cls == c && x.seq == q) with
  | some x =>
    let s := ((s.modFab (fun b => { b with flight := b.flight.erase x })).passLead x).frameFree x.fid
    if old then s.raise (E.FAB_EVT.SEQ_OLD e)
    else (s.modFab (fun b => { b with held := b.held ++ [x] })).drainAll p e c
  | none => if old then s.raise (E.FAB_EVT.SEQ_OLD e) else s
/-- FRAME_REASSEMBLE: ingress plot, egress plot, class, sequence number. -/
def execFrameReassemble (p e c : Fin 8) (q : BitVec 16) (s : State) : Res := .next (s.reassemble p e c q.toNat).regionsFit

/-- A missing frame is skipped (R214). -/
def State.seqGap (s : State) (p e c : Nat) : State :=
  let k := streamOf p e c
  if (s.heldAtSeq p e c (s.expectOf k)).isNone && s.fab.held.any (fun x => x.src == p && x.dst == e && x.cls == c) then
    ((s.setExpect k (s.expectOf k + 1)).raise (E.FAB_EVT.SEQ_SKIP e)).drainAll p e c
  else s
/-- SEQ_GAP_TIMEOUT of a stream. -/
def execSeqGapTimeout (p e c : Fin 8) (s : State) : Res := .next (s.seqGap p e c).regionsFit
/-- SOWN_APPEND: a sown frame at its turn in a stream goes to its ready targets (R248). -/
def execSownAppend (p e c : Fin 8) (s : State) : Res := .next (s.drainAll p e c).regionsFit

/-! ## Transmission -/

/-- Enter a transmit stamp in a plot's queue of 64 (R303). -/
def tsDefault (_ : Nat) : List TsEntry := []
def State.tsQueue (s : State) (p : Nat) : List TsEntry := sget tsDefault s.time.ts p
def State.setTsQueue (s : State) (p : Nat) (l : List TsEntry) : State :=
  { s with time := { s.time with ts := sset tsDefault s.time.ts p l } }
def State.txStamp (s : State) (n id : Nat) : State :=
  let p := plotOf n
  if (s.tsQueue p).length < 64 then s.setTsQueue p (s.tsQueue p ++ [⟨id, n, s.stepEpoch, s.portStamp n true⟩])
  else s.raise (E.TIME_TS_EVT.TS_OVF p)

/-- The HSR sequence number with which a frame leaves on port `n` of ring `k` (R270, R273). -/
def FabFrame.hsrOut (f : FabFrame) (k : Nat) : Option Nat :=
  match f.rings.find? (fun x => x.1 == k) with
  | some x => some x.2
  | none => if f.pass || f.fr.hsr.isSome then f.fr.hsr.map (·.toNat) else none

/-- The TCI with which a frame leaves (R198): none when the port is in the untagged set; else the VLAN's VID with the
PCP and DEI received, PCP = class and DEI 0 for a frame received untagged. A frame that R195 does not treat keeps its
tag, and the control port gets it tagged (R228). -/
def FabFrame.tciOut (f : FabFrame) (n : Nat) : Option Nat :=
  match f.vid with
  | none => if n < 256 then f.fr.tci.map (·.toNat) else some f.ctlTci
  | some v =>
    if f.untag.contains n then none
    else some ((match f.fr.tci with
      | some t => t.toNat / 4096 * 4096
      | none => f.cls * 8192) + v)

/-- The length with which a frame leaves: 4 bytes for a VLAN tag, 6 for an HSR tag. -/
def FabFrame.lenOut (f : FabFrame) (tci hsr : Option Nat) : Nat :=
  f.fr.len + 4 * b2n tci.isSome + 6 * b2n hsr.isSome - (4 * b2n f.fr.tci.isSome + 6 * b2n f.fr.hsr.isSome)

/-- The LSDU size of the HSR tag of a frame of `len` bytes: what follows the addresses, the tag of R198 and the tag's own
EtherType, without the FCS (IEC 62439-3; PRESUMED, assumption 143). -/
def lsduSize (len : Nat) (tagged : Bool) : Nat := (len - 18 - 4 * b2n tagged) % 4096

/-- Whether a frame is a Sync message: said so by its sender, or messageType 0 (PRESUMED, assumption 139). -/
def FabFrame.isSync (f : FabFrame) : Bool :=
  f.sync || (f.fr.etype == etPtp && (f.fr.body.take 1).any (fun b => decide (b.toNat % 16 = 0)))
/-- A frame as it leaves node `n` (R198, R235, R270, R273, R302, R303). -/
def State.frameOut (s : State) (n : Nat) (f : FabFrame) (len : Nat) (tci hsr : Option Nat) (stomped : Bool) : FrameOut :=
  ⟨n, f.fr.id, len, f.cls, f.fr.dst, f.fr.src, tci, hsr.map (fun q => ⟨0, lsduSize len tci.isSome, q⟩), f.fr.etype, f.fr.dscp,
    f.fr.ecn, f.fr.ipSum, f.fr.body,
    if n < 256 && f.isSync && s.on (R.TIME_PTP_PORT.ONE_STEP n) then some (s.portStamp n true) else none,
    if n < 256 then none else f.rx, f.marked, stomped⟩

/-- The frame in transmission on a port, until the operating time in ticks at which it ends (R262). -/
def sendingDefault (_ : Nat) : Option (Nat × Nat) := none
def State.sendingAt (s : State) (n : Nat) : Option (Nat × Nat) := sget sendingDefault s.fab.sending n
def State.setSending (s : State) (n : Nat) (x : Option (Nat × Nat)) : State :=
  s.modFab (fun b => { b with sending := sset sendingDefault b.sending n x })
/-- A port that leaves UP cuts off the frame that it is sending (R262). -/
def State.cutOff (s : State) (n : Nat) : State :=
  match s.sendingAt n with
  | some x => (if s.opTotal < x.2 then s.send (.cut n x.1) else s).setSending n none
  | none => s

/-- A port counts a frame that it sends (R283) and is busy with it. -/
def State.portSent (s : State) (n id len : Nat) : State :=
  if n < 256 then
    ((s.addPair (R.PORT_TX_OCTETS_LO.reg n) (R.PORT_TX_OCTETS_HI.reg n) len).addPair (R.PORT_TX_FRAMES_LO.reg n)
      (R.PORT_TX_FRAMES_HI.reg n) 1).setSending n (some (id, s.opTotal + ceilDiv ((len + 8) * 5) (s.rateOf n)))
  else s

/-- The HSR sequence number with which a frame leaves node `n`. -/
def State.hsrAt (s : State) (n : Nat) (f : FabFrame) : Option Nat :=
  match (if n < 256 then s.ringOf n else none) with
  | some k => f.hsrOut k
  | none => none
/-- The frame enters duplicate discard as sent when it leaves into a ring (R277). -/
def State.ringSent (s : State) (n : Nat) (f : FabFrame) : State :=
  match (if n < 256 then s.ringOf n else none), s.hsrAt n f with
  | some k, some q => s.ddSent k f.fr.src q
  | _, _ => s
/-- A transmit stamp for every PTP event message and every frame that is marked for one; a one-step Sync carries its own (R302,
R303). The ID of an event message to which firmware gave none is a free value (assumption 157). -/
def State.stampSent (s : State) (n : Nat) (f : FabFrame) : State :=
  if 256 ≤ n || (f.isSync && s.on (R.TIME_PTP_PORT.ONE_STEP n)) then s
  else match f.stampId with
    | some id => s.txStamp n id
    | none => if f.fr.ptpEvent then s.free.2.txStamp n (s.free.1 % 65536) else s

/-- A frame leaves node `n` with `len` bytes, stomped or not: it enters duplicate discard, is stamped and counted (R198, R211,
R277, R283, R302). -/
def State.leave (s : State) (n : Nat) (f : FabFrame) (len : Nat) (tci hsr : Option Nat) (stomped : Bool) : State :=
  let s := (s.ringSent n f).when stomped (·.raise (E.FAB_EVT.STOMP (plotOf n)))
  let s := (s.stampSent n f).portSent n f.fr.id len
  s.send (.frame (s.frameOut n f len tci hsr stomped))

/-- A frame reaches the transmit stage of node `n` (R198, R211, R262, R270, R272, R277). `begun`: a cut-through frame
whose end turns out bad had begun to leave. A copy with an uncorrectable cell is dropped as it is read out and counted in
FAB_CNT_FCS_ERR of its ingress plot, but a cut-through frame is ended under R211 (R320). -/
def State.transmit (s : State) (e : TxEntry) (begun : Bool) : State :=
  let n := e.node
  let f := if e.frame.cellErr && e.frame.ct then { e.frame with fr := { e.frame.fr with badFcs := true } } else e.frame
  if n < 256 && !s.portUp n then s.count (R.PORT_CNT_DOWN_DROP.COUNT n)
  else if f.cellErr && !f.ct then s.count (R.FAB_CNT_FCS_ERR.COUNT (plotOf f.node))
  else if f.fr.badFcs && !begun then s
  else
    let hsr := s.hsrAt n f
    let tci := f.tciOut n
    let len := f.lenOut tci hsr
    if hsr.isSome && decide (9216 < len) && !f.fr.badFcs then s.count (R.PORT_CNT_TAG_OVERSIZE.COUNT n)
    else s.leave n f len tci hsr f.fr.badFcs

/-- The oldest entry of a transmit list. -/
def State.txHead (s : State) (n c : Nat) : Option TxEntry :=
  s.fab.tx.find? (fun x => x.node == n && x.cls == c && x.frame.cal.isNone)

/-- Node `n` chooses its next frame by R208 and transmits it when it would finish before the earliest ARMED copy's instant
(R306); its credits return (R207, R243). -/
def State.frameTransmit (s : State) (n : Nat) (begun : Bool) : State :=
  let heads := fun c => (s.txHead n c).map (fun x => x.frame.fr.len)
  match s.pickClass (8 + n) (plotOf n) heads with
  | none => s
  | some (c, d) =>
    match s.txHead n c with
    | none => s
    | some e =>
      if s.mayStart n (e.frame.lenOut (e.frame.tciOut n) (s.hsrAt n e.frame)) then
        (((s.setDrr (8 + n) d).modFab (fun b => { b with tx := b.tx.erase e })).transmit e begun).regionsFit
      else s
/-- FRAME_TRANSMIT at egress node `n`. -/
def execFrameTransmit (n : Fin 264) (begun : Bool) (s : State) : Res := .next (s.frameTransmit n begun)

end Sys2Proof.Machine
end

