-- ==== Sys2Proof/Machine/Ind.lean ====
section
/-! DEFINITION. String stages and indicator chains (R463–R475). -/
namespace Sys2Proof.Machine
open Sys2Proof

def stageDefault (_ : Nat) : Stage := Stage.zero
def State.stage (s : State) (j : Nat) : Stage := sget stageDefault s.ind.stage j
def State.setStage (s : State) (j : Nat) (x : Stage) : State :=
  { s with ind := { s.ind with stage := sset stageDefault s.ind.stage j x } }
def elemDefault (_ : Nat) : Elem := Elem.reset
/-- Element `k` of chain `n`. -/
def State.elem (s : State) (n k : Nat) : Elem := sget elemDefault s.ind.elem (1024 * n + k)
def State.setElem (s : State) (n k : Nat) (x : Elem) : State :=
  let s := { s with ind := { s.ind with elem := sset elemDefault s.ind.elem (1024 * n + k) x } }
  s.setF (R.IND_CH_ESTAT.CODE n k) (x.ramp.code (stampUnits s.now))
def chainDefault (_ : Nat) : Chain := Chain.off
def State.chainAt (s : State) (n : Nat) : Chain := sget chainDefault s.ind.chain n
def State.setChain (s : State) (n : Nat) (x : Chain) : State :=
  { s with ind := { s.ind with chain := sset chainDefault s.ind.chain n x } }

/-- Counts on of a code: ⌊L(c) / 4 + ½⌋ (R463). -/
def pwmCounts (c : Nat) : Nat := (dimL c + 2) / 4

/-! ## All-or-nothing groups (R472) -/

/-- Whether group `g` of chain `n` is held dark. -/
def State.held (s : State) (n g : Nat) : Bool := (s.f (R.IND_CH_AON_HELD.HELD n (g / 32))).testBit (g % 32)
def State.setHeldBit (s : State) (n g : Nat) (v : Bool) : State := s.setFBit (R.IND_CH_AON_HELD.HELD n (g / 32)) (g % 32) v
/-- The elements of chain `n`. -/
def State.chLen (s : State) (n : Nat) : Nat := s.f (R.IND_CH_CFG0.LEN n)
def State.elemsOf (s : State) (n : Nat) : List Nat := List.range (s.chLen n)
/-- Member elements and member stages of a group. -/
def State.aonElems (s : State) (n g : Nat) : List Nat :=
  (s.elemsOf n).filter (fun k => s.on (R.IND_CH_ECFG.AON_EN n k) && s.f (R.IND_CH_ECFG.AON_GROUP n k) == g)
def State.aonStages (s : State) (n g : Nat) : List Nat :=
  (List.range 4).filter (fun j => s.on (R.IND_STR_CFG.EN j) && s.on (R.IND_STR_CFG.AON_EN j) &&
    s.f (R.IND_STR_CFG.AON_CHAIN j) == n && s.f (R.IND_STR_CFG.AON_GROUP j) == g)

/-- Whether a stage belongs to a group that is held dark. -/
def State.stageHeld (s : State) (j : Nat) : Bool :=
  s.on (R.IND_STR_CFG.EN j) && s.on (R.IND_STR_CFG.AON_EN j) &&
    s.held (s.f (R.IND_STR_CFG.AON_CHAIN j)) (s.f (R.IND_STR_CFG.AON_GROUP j))
/-- The PWM of a stage as it now stands (R463, R464). -/
def State.pwmOut (s : State) (j : Nat) : State :=
  s.send (.pwm j (pwmCounts (s.f (R.IND_STR_STATUS.CODE j))) (s.f (R.IND_STR_CFG.CURRENT j)) (s.on (R.IND_STR_STATUS.HEADROOM_NOW j)))
/-- A stage goes to code 0 at once. -/
def State.stageDark (s : State) (j : Nat) : State :=
  if s.f (R.IND_STR_STATUS.CODE j) = 0 then s else (s.setF (R.IND_STR_STATUS.CODE j) 0).pwmOut j
/-- AON_HELD of every stage; one whose group has come to be held goes dark at once (R472, R475). -/
def State.aonShow (s : State) : State :=
  foldS (List.range 4) (fun j s =>
    let h := s.stageHeld j
    (s.setF (R.IND_STR_STATUS.AON_HELD j) (b2n h)).when h (·.stageDark j)) s

/-- Whether an element's group is held. -/
def State.elemHeld (s : State) (n k : Nat) : Bool :=
  s.on (R.IND_CH_ECFG.AON_EN n k) && s.held n (s.f (R.IND_CH_ECFG.AON_GROUP n k))

/-! ## Words and frames (R466–R469) -/

/-- Whether an element is the sensor of an enabled feedback group. -/
def State.fbSensor (s : State) (n k : Nat) : Bool :=
  (List.range 64).any (fun g => s.on (R.IND_FB_CFG.EN g) && s.f (R.IND_FB_CFG.CHAIN g) == n && s.f (R.IND_FB_SENS.SENSOR g) == k)

/-- The trim of channel 0 red, 1 green, 2 blue of an element (R468, R471). -/
def State.trimOf (s : State) (n k x : Nat) : Nat :=
  match x with
  | 0 => (s.elem n k).trimR
  | 1 => (s.elem n k).trimG
  | _ => (s.elem n k).trimB

/-- The value sent for a channel (R468). -/
def channelValue (c level trim : Nat) : Nat := min 255 ((2 * c * level * trim + 25600000) / 51200000)

/-- The word of an element at an instant (R467, R468). -/
def State.elemWord (s : State) (n k : Nat) (t : Nat) : Word :=
  let e := s.elem n k
  let l := dimL (e.ramp.code t)
  let v := fun x lsb => channelValue (getBits e.colour lsb 8) l (s.trimOf n k x)
  let filter := if s.on (R.IND_CH_ECFG.SENSOR n k) && s.fbSensor n k then (s.chainAt n).latches % 3 else 3
  w32 (v 0 24 * 2 ^ 24 + v 1 16 * 2 ^ 16 + v 2 8 * 2 ^ 8 + b2n (s.elemHeld n k) * 128 + filter * 32 + getBits e.colour 0 4)

/-- The words of a chain's frame at an instant. -/
def State.chainWords (s : State) (n t : Nat) : List Word := (s.elemsOf n).map (fun k => s.elemWord n k t)

/-- T_f in units of 1/20 of 0.1 µs: (32 × LEN + 5) × DIV (R466). -/
def State.frameTime (s : State) (n : Nat) : Nat := (32 * s.chLen n + 5) * s.f (R.IND_CH_CFG0.DIV n)

/-- IND_CHn_STATUS.FRAME: T_f in units of 0.1 µs; how a part of a unit is rounded the spec does not say. -/
def State.showFrame (s : State) (n : Nat) : State :=
  let t := s.frameTime n
  if t % 20 = 0 then s.setF (R.IND_CH_STATUS.FRAME n) (t / 20)
  else s.free.2.setF (R.IND_CH_STATUS.FRAME n) (t / 20 + s.free.1 % 2)

/-- A frame starts. -/
def State.frameStart (s : State) (n : Nat) (x : ChFrame) : State :=
  ((s.setChain n { s.chainAt n with frame := some x }).setF (R.IND_CH_STATUS.RUN n) 1).showFrame n

/-- What a launched command stores in an element: colour or code (R115, R127, R468). -/
def State.elemStore (s : State) (n k : Nat) (b : CmdBody) (t : Stamp) : State :=
  let e := s.elem n k
  if b.code = ccSetLevel then s.setElem n k { e with ramp := e.ramp.launch b.level b.ramp t }
  else if b.code = ccSetColour then s.setElem n k { e with colour := b.arg }
  else s

/-- The calendar entries and copies of a list that still exist, in placement order. -/
def State.liveCopies (s : State) (l : List (Nat × Nat)) : List (CalEntry × Copy × Nat × Nat) :=
  let x := l.filterMap (fun p => match s.calE p.1, s.copyOf p.1 p.2 with
    | some e, some c => if c.st = .left then none else some (e, c, p.1, p.2)
    | _, _ => none)
  x.foldl (fun acc y =>
    acc.filter (fun z => z.1.order < y.1.order) ++ [y] ++ acc.filter (fun z => !decide (z.1.order < y.1.order))) []

/-- The frame in progress is abandoned without a latch; its copies wait for the next launch frame. -/
def State.frameBack (s : State) (n : Nat) : State :=
  let c := s.chainAt n
  match c.frame with
  | some f => s.setChain n { c with frame := none, fetched := f.copies ++ c.fetched }
  | none => s

/-- A blanking frame: shifted at once, latched at its end (R472). The copies of a launch frame that it displaces wait for
the next launch frame. -/
def State.blankFrame (s : State) (n : Nat) : State :=
  if s.on (R.IND_CH_CFG0.EN n) then
    (s.frameBack n).frameStart n ⟨s.chainWords n (stampUnits s.now), none, [], true, false, s.power.opTicks⟩
  else s
/-- A chain that is disabled runs no frames (R475). -/
def State.chainStop (s : State) (n : Nat) : State := (s.frameBack n).setF (R.IND_CH_STATUS.RUN n) 0

/-- The latch edge that a launch frame started now aims at: its instant, or the frame's end when that lies later (R127,
R469). -/
def State.latchEdge (s : State) (n : Nat) (t : Stamp) : Stamp :=
  let done := stampAddNs s.now (5 * s.frameTime n)
  if stampUnits done ≤ stampUnits t then t else done

/-- What a chain copy puts in the feeder queue (R469). -/
def CalEntry.feedItem (e : CalEntry) : List Word := [e.body.handle, w32 e.body.code, e.addr, e.body.arg]

/-- A launch frame starts when copies wait and no blanking frame and no earlier launch frame is in progress; a refresh frame is
abandoned, and one that has started at this very time takes in what is fetched with it (R469). Its instant is the earliest of
the copies; it carries the copies that lie at or before it. -/
def State.launchFrame (s : State) (n : Nat) : State :=
  let free := match (s.chainAt n).frame with
    | none => true
    | some f => !f.blank && (f.instant.isNone || (!f.shifted && f.began == s.power.opTicks))
  if s.on (R.IND_CH_CFG0.EN n) && free && !(s.liveCopies (s.chainAt n).fetched).isEmpty then
    let s := s.frameBack n
    let c := s.chainAt n
    let l := s.liveCopies c.fetched
    let t := l.foldl (fun m y => if stampUnits y.2.1.launch < stampUnits m then y.2.1.launch else m) (BitVec.allOnes 96)
    let take := l.filter (fun y => stampUnits y.2.1.launch ≤ stampUnits t)
    let keys := take.map (fun y => y.2.2)
    let edge := s.latchEdge n t
    let built := foldS take (fun y s => s.elemStore n (getBits y.1.addr 0 10) y.1.body edge) s
    let words := built.chainWords n (stampUnits edge)
    let q := s.q (.feed n)
    let s := (s.setQ (.feed n) { q with items := take.foldl (fun l y => l.erase y.1.feedItem) q.items }).quEval (.feed n)
    (s.setChain n { c with fetched := c.fetched.filter (fun p => !keys.contains p) }).frameStart n
      ⟨words, some t, keys, false, false, s.power.opTicks⟩
  else s

/-- Chain copies of entry `n` that have just been fetched pass through the feeder (R469). -/
def State.chainFetched (s : State) (n : Nat) : State :=
  match s.calE n with
  | none => s
  | some e =>
    foldS (List.range e.copies.length) (fun k s =>
      match e.copies[k]? with
      | some c =>
        match c.egress with
        | .chain ch =>
          if c.st = .fetched && !(s.chainAt ch).fetched.contains (n, k) then
            let s := s.quOffer (.feed ch) e.feedItem
            (s.setChain ch { s.chainAt ch with fetched := (s.chainAt ch).fetched ++ [(n, k)] }).launchFrame ch
          else s
        | _ => s
      | none => s) s

/-- REFRESH_FRAME: a refresh frame starts, or the launch frame of copies that wait (R469). -/
def State.refreshFrame (s : State) (n : Nat) : State :=
  if s.on (R.IND_CH_CFG0.EN n) && (s.chainAt n).frame.isNone then
    let s := s.launchFrame n
    if (s.chainAt n).frame.isNone then s.frameStart n ⟨s.chainWords n (stampUnits s.now), none, [], false, false, s.power.opTicks⟩ else s
  else s
def execRefreshFrame (n : Fin 4) (s : State) : Res := .next (s.refreshFrame n)

/-! ## Stages (R463–R465) -/

/-- The code that a stage drives: 0 in standby, after a supply warning, after OPEN or SHORT, in a held group (R464, R465,
R472). -/
def State.stageCode (s : State) (j : Nat) : Nat :=
  if s.on (R.IND_STR_CFG.EN j) && s.lightRole && !s.on (R.IND_STR_STATUS.OPEN_NOW j) &&
      !s.on (R.IND_STR_STATUS.SHORT_NOW j) && !s.on (R.IND_STR_STATUS.AON_HELD j) then
    (s.stage j).ramp.code (stampUnits s.now)
  else 0

/-- The stage measures: it is on for 20 µs or more of each period (R464). -/
def State.stageMeasures (s : State) (j : Nat) : Bool := decide (1000 ≤ pwmCounts (s.f (R.IND_STR_STATUS.CODE j)))

/-- A PWM period starts (R463); output voltage in 10 mV and current in mA as the ending period measured them, when it was on
for 20 µs or more (R464). -/
def State.pwmStart (s : State) (j vout iout : Nat) : State :=
  let s := if s.stageMeasures j then
      (s.setF (R.IND_STR_MEAS.VOUT j) vout).setF (R.IND_STR_MEAS.IOUT j) iout
    else s
  (s.setF (R.IND_STR_STATUS.CODE j) (s.stageCode j)).pwmOut j
def execPwmPeriodStart (j : Fin 4) (vout iout : BitVec 16) (s : State) : Res := .next (s.pwmStart j vout.toNat iout.toNat)

/-- The valid record of a stage, and of an element (R48). -/
def State.stageRecord (s : State) (j : Nat) : Option Nat :=
  s.validEps.find? (fun i => s.ep i EP.PATH == 3 && bit (w32 (s.ep i EP.ADDR)) 31 && getBits (w32 (s.ep i EP.ADDR)) 0 2 == j)
def State.elemRecord (s : State) (n k : Nat) : Option Nat :=
  s.validEps.find? (fun i => s.ep i EP.PATH == 3 && !bit (w32 (s.ep i EP.ADDR)) 31 && getBits (w32 (s.ep i EP.ADDR)) 16 2 == n &&
    getBits (w32 (s.ep i EP.ADDR)) 0 10 == k)

/-- A FAULT event for a record, when there is one (R465). -/
def State.faultEvent (s : State) (i : Option Nat) (code w6 : Nat) : State :=
  match i with
  | some i => s.endpointEvent i kFault (w32 code) (w32 w6) 0 s.now s.stepEpoch
  | none => s

/-- Blank group `g` of chain `n` (R472). -/
def State.aonBlank (s : State) (n g : Nat) : State :=
  if s.held n g then s
  else
    let s := ((s.setHeldBit n g true).raise (E.IND_CH_EVT.AON_BLANK n)).record 0x0A03 2 (n * 256 + g) [0]
    let s := s.aonShow
    if (s.aonElems n g).isEmpty then s else s.blankFrame n

/-- OPEN or SHORT of a stage blanks its group (R464, R472). -/
def State.stageFailed (s : State) (j : Nat) : State :=
  let s := (s.stageDark j).record 0x0A02 2 (0x1000 + j) [s.r (R.IND_STR_STATUS.reg j)]
  if s.on (R.IND_STR_CFG.AON_EN j) then s.aonBlank (s.f (R.IND_STR_CFG.AON_CHAIN j)) (s.f (R.IND_STR_CFG.AON_GROUP j)) else s

/-- A condition of R464 is set for the first time. -/
def State.stageSets (s : State) (j : Nat) (now : Fld) (k : State → State) : State :=
  if s.on (R.IND_STR_CFG.EN j) && s.stageMeasures j && !s.on now then k (s.setF now 1) else s

/-- HEADROOM with the headroom in mV. -/
def State.headroom (s : State) (j mv : Nat) : State :=
  s.stageSets j (R.IND_STR_STATUS.HEADROOM_NOW j) (fun s =>
    (s.raise (E.IND_STR_EVT.HEADROOM j)).faultEvent (s.stageRecord j) 0x0101 mv)
def execHeadroom (j : Fin 4) (mv : BitVec 16) (s : State) : Res := .next (s.headroom j mv.toNat)
/-- HEADROOM_CLEAR. -/
def State.headroomClear (s : State) (j : Nat) : State := s.when (s.stageMeasures j) (·.setF (R.IND_STR_STATUS.HEADROOM_NOW j) 0)
def execHeadroomClear (j : Fin 4) (s : State) : Res := .next (s.headroomClear j)
/-- UNDER_CURRENT with the current in mA. -/
def State.underCurrent (s : State) (j ma : Nat) : State :=
  s.stageSets j (R.IND_STR_STATUS.UNDER_NOW j) (fun s =>
    (s.raise (E.IND_STR_EVT.UNDER_CURRENT j)).faultEvent (s.stageRecord j) 0x0102 ma)
def execUnderCurrent (j : Fin 4) (ma : BitVec 16) (s : State) : Res := .next (s.underCurrent j ma.toNat)
/-- UNDER_CURRENT_CLEAR. -/
def State.underClear (s : State) (j : Nat) : State := s.when (s.stageMeasures j) (·.setF (R.IND_STR_STATUS.UNDER_NOW j) 0)
def execUnderCurrentClear (j : Fin 4) (s : State) : Res := .next (s.underClear j)
/-- STRING_OPEN. -/
def State.stringOpen (s : State) (j : Nat) : State :=
  s.stageSets j (R.IND_STR_STATUS.OPEN_NOW j) (fun s =>
    ((s.raise (E.IND_STR_EVT.OPEN j)).faultEvent (s.stageRecord j) 0x0103 0).stageFailed j)
def execStringOpen (j : Fin 4) (s : State) : Res := .next (s.stringOpen j)
/-- STRING_SHORT: with at least 50 mA of 1.5 A × k / 1,023 commanded (R464). -/
def State.stringShort (s : State) (j : Nat) : State :=
  if 1500 * s.f (R.IND_STR_CFG.CURRENT j) < 50 * 1023 then s
  else s.stageSets j (R.IND_STR_STATUS.SHORT_NOW j) (fun s =>
    ((s.raise (E.IND_STR_EVT.SHORT j)).faultEvent (s.stageRecord j) 0x0104 0).stageFailed j)
def execStringShort (j : Fin 4) (s : State) : Res := .next (s.stringShort j)

/-- Stages at code 0, from which they ramp when control resumes (R465). -/
def State.stagesOff (s : State) : State :=
  foldS (List.range 4) (fun j s => (s.setStage j ⟨⟨0, 0, 0, s.now⟩, (s.stage j).stopped⟩).stageDark j) s
/-- The outputs and stages of a state before it that a reset has put out: they go off as it begins (R460, R465). -/
def State.edgesDark (s was : State) : State :=
  (foldS ((List.range 4).filter (fun j => was.f (R.IND_STR_STATUS.CODE j) != 0)) (fun j s => s.pwmOut j) s).dioDrive was.dioDriven

/-! ## Launches (R463, R465, R472) -/

/-- Whether every member of a group is sound: no failed LED, no CHAIN_ERR, no OPEN or SHORT. The status of a sensor element is a
photodiode reading (R467). -/
def State.aonSound (s : State) (n g : Nat) : Bool :=
  (s.aonElems n g).all (fun k => s.on (R.IND_CH_ECFG.SENSOR n k) || getBits (w32 (s.f (R.IND_CH_ESTAT.STATUS n k))) 12 3 == 0) &&
  !s.on (R.IND_CH_STATUS.CHAIN_ERR_NOW n) &&
  (s.aonStages n g).all (fun j => !s.on (R.IND_STR_STATUS.OPEN_NOW j) && !s.on (R.IND_STR_STATUS.SHORT_NOW j))

/-- A SET_LEVEL or SET_COLOUR for a member releases a held group that is sound (R472). -/
def State.aonRelease (s : State) (n g : Nat) : State :=
  if s.held n g && s.aonSound n g then
    (s.setHeldBit n g false).aonShow
  else s

/-- A POLL on path 3 places a REPORT event with the code in force and the control epoch (R465). -/
def State.pollReport (s : State) (i code : Nat) : State :=
  s.endpointEvent i kReport (w32 code) (w32 s.epoch) 0 s.now s.stepEpoch

/-- A command launches at an element. -/
def State.elemLaunch (s : State) (n : Nat) (e : CalEntry) (t : Stamp) : State :=
  let k := getBits e.addr 0 10
  if e.body.code = ccPoll then s.pollReport e.ep ((s.elem n k).ramp.code (stampUnits s.now))
  else
    let s := s.elemStore n k e.body t
    if s.on (R.IND_CH_ECFG.AON_EN n k) then s.aonRelease n (s.f (R.IND_CH_ECFG.AON_GROUP n k)) else s

/-- A command launches at a stage: a SET_LEVEL restarts the PWM period and ends OPEN and SHORT (R463, R464). -/
def State.stageLaunch (s : State) (j : Nat) (e : CalEntry) : State :=
  if e.body.code = ccPoll then s.pollReport e.ep (s.stageCode j)
  else if e.body.code = ccSetLevel then
    let x := s.stage j
    let s := s.setStage j { x with ramp := ⟨s.stageCode j, e.body.level, e.body.ramp, s.now⟩ }
    let s := (s.setF (R.IND_STR_STATUS.OPEN_NOW j) 0).setF (R.IND_STR_STATUS.SHORT_NOW j) 0
    let s := if s.on (R.IND_STR_CFG.AON_EN j) then
        s.aonRelease (s.f (R.IND_STR_CFG.AON_CHAIN j)) (s.f (R.IND_STR_CFG.AON_GROUP j)) else s
    (s.setF (R.IND_STR_STATUS.CODE j) (s.stageCode j)).pwmOut j
  else s

/-! ## Statuses and latches (R466, R467, R470–R472) -/

/-- The returned status of element `k` (R467): its faults as events, and a failed LED of a group member blanks the group. -/
def State.elemStatus (s : State) (n k st : Nat) : State :=
  let sensor := s.on (R.IND_CH_ECFG.SENSOR n k)
  if !sensor && !st.testBit 15 then s
  else
    let old := s.f (R.IND_CH_ESTAT.STATUS n k)
    let s := s.setF (R.IND_CH_ESTAT.STATUS n k) st
    if sensor then
      let f := ((s.chainAt n).latches + 1) % 3
      foldS ((List.range 64).filter (fun g => s.on (R.IND_FB_CFG.EN g) && s.f (R.IND_FB_CFG.CHAIN g) == n &&
          s.f (R.IND_FB_SENS.SENSOR g) == k))
        (fun g s => s.setF (if f = 0 then R.IND_FB_READ0.R g else if f = 1 then R.IND_FB_READ0.G g else R.IND_FB_READ1.B g) st) s
    else
      let bad := st / 4096 % 8
      let newBad := (List.range 3).any (fun b => bad.testBit b && !(old / 4096).testBit b)
      let s := if newBad then
          ((s.raise (E.IND_CH_EVT.LED_FAIL n)).record 0x0A02 2 (n * 1024 + k) [w32 st]).faultEvent (s.elemRecord n k) 0x0201 bad
        else s
      let s := if st.testBit 11 && !old.testBit 11 then s.faultEvent (s.elemRecord n k) 0x0202 0 else s
      if bad != 0 && s.on (R.IND_CH_ECFG.AON_EN n k) then s.aonBlank n (s.f (R.IND_CH_ECFG.AON_GROUP n k)) else s

/-- The enabled groups of a chain. -/
def State.aonGroups (s : State) (n : Nat) : List Nat :=
  (List.range 256).filter (fun g => !(s.aonElems n g).isEmpty || !(s.aonStages n g).isEmpty)

/-- A frame is shifted; DIN returned these words, element LEN − 1 first (R466, R470). -/
def State.frameShifted (s : State) (n : Nat) (ret : List Word) : State :=
  match (s.chainAt n).frame with
  | none => s
  | some f =>
    if f.shifted then s
    else
      let len := s.chLen n
      let good := ret.length == len && ret.all (fun w => getBits w 0 16 == 0x5A5A)
      let errs := if good then 0 else (s.chainAt n).errs + 1
      let s := (s.setChain n { s.chainAt n with errs := errs }).setF (R.IND_CH_STATUS.CHAIN_ERR_NOW n) (b2n (!good))
      let s := if good then foldS (List.range len) (fun i s => s.elemStatus n (len - 1 - i) (getBits (ret.getD i 0) 16 16)) s
        else
          let s := s.raise (E.IND_CH_EVT.CHAIN_ERR n)
          if 2 ≤ errs then foldS (s.aonGroups n) (fun g s => s.aonBlank n g) s else s
      let c := s.chainAt n
      if c.frame = some f then
        foldS f.copies (fun p s => s.copyArrive p.1 p.2) (s.setChain n { c with frame := some { f with shifted := true } })
      else s
/-- FRAME_SHIFTED. -/
def execFrameShifted (n : Fin 4) (ret : List Word) (s : State) : Res := .next (s.frameShifted n ret)

/-- One step of a trim (R471). -/
def trimStep (t m target : Nat) : Nat :=
  let t := if target * 101 < m * 100 then t - 1 else if m * 100 < target * 99 then t + 1 else t
  max 192 (min 320 t)

/-- The member elements of a feedback group, whatever SENSOR says (R471, R475). -/
def State.fbElems (s : State) (n g : Nat) : List Nat :=
  (s.elemsOf n).filter (fun k => s.on (R.IND_CH_ECFG.FB_EN n k) && s.f (R.IND_CH_ECFG.FB_GROUP n k) == g)
/-- Whether a trim is at a limit. -/
def atLimit (t : Nat) : Bool := t == 192 || t == 320
/-- The feedback cycle of group `g` (R471): it moves the trims of every member. IND_FBg_TRIM moves as those of a member that has
been in the group all the time (DESIGN CHOICE, assumption 170). -/
def State.feedback (s : State) (n g : Nat) : State :=
  let r := s.f (R.IND_FB_READ0.R g)
  let gr := s.f (R.IND_FB_READ0.G g)
  let b := s.f (R.IND_FB_READ1.B g)
  let sum := r + gr + b
  if sum < 64 then s
  else
    let tr := s.f (R.IND_FB_CFG.T_R g)
    let tg := s.f (R.IND_FB_CFG.T_G g)
    let fr := fun t => trimStep t (1000 * r / sum) tr
    let fg := fun t => trimStep t (1000 * gr / sum) tg
    let fb := fun t => trimStep t (1000 * b / sum) (1000 - tr - tg)
    let l := s.fbElems n g
    let s := ((s.setF (R.IND_FB_TRIM.TR g) (fr (s.f (R.IND_FB_TRIM.TR g)))).setF (R.IND_FB_TRIM.TG g)
      (fg (s.f (R.IND_FB_TRIM.TG g)))).setF (R.IND_FB_TRIM.TB g) (fb (s.f (R.IND_FB_TRIM.TB g)))
    let s := foldS l (fun k s =>
      let e := s.elem n k
      s.setElem n k { e with trimR := fr e.trimR, trimG := fg e.trimG, trimB := fb e.trimB }) s
    if l.any (fun k => let e := s.elem n k; atLimit e.trimR || atLimit e.trimG || atLimit e.trimB) then s.raise (E.IND_CH_EVT.FB_LIMIT n) else s

/-- LAT rises (R466, R469, R471): a frame that has been shifted, at or after its instant, loads the display registers; its
copies leave. Every third latch runs the feedback cycles. -/
def State.chainLatch (s : State) (n : Nat) : State :=
  match (s.chainAt n).frame with
  | none => s
  | some f =>
    let due := match f.instant with
      | none => true
      | some t => s.reached t
    if f.shifted && due then
      let c := s.chainAt n
      let s := s.setChain n { c with frame := none, latches := c.latches + 1 }
      let s := foldS (List.range f.words.length) (fun k s => s.setR (R.IND_CH_EWORD.reg n k) (f.words.getD k 0)) s
      let s := s.send (.latch n f.words)
      let s := foldS (s.liveCopies f.copies) (fun y s =>
        ((s.elemLaunch n y.1 s.now).launchFirst y.1 y.2.1).copyLeft y.2.2.1 y.2.2.2 y.1 y.2.1 false) s
      let s := if (c.latches + 1) % 3 = 0 then
          foldS ((List.range 64).filter (fun g => s.on (R.IND_FB_CFG.EN g) && s.f (R.IND_FB_CFG.CHAIN g) == n))
            (fun g s => s.feedback n g) s
        else s
      s.launchFrame n
    else s
/-- CHAIN_LATCH. -/
def execChainLatch (n : Fin 4) (s : State) : Res := .next (s.chainLatch n)

end Sys2Proof.Machine
end

