-- ==== Sys2Proof/Machine/Calendar.lean ====
section
/-! DEFINITION. What becomes of calendar entries: fetch, arrival and launch of copies at every kind of egress (R304–R310,
R567, R569, R570), the node delay table (R308), and the operating minutes of R50. -/
namespace Sys2Proof.Machine
open Sys2Proof

/-! ## Field frames on rings (R567) -/

/-- The destination address of a body for the endpoint behind pole node `j` of ring `k`. -/
def State.poleMac (s : State) (k j : Nat) : Mac := if s.nodeValid k j then s.nodeMac k j else macAll

/-! ## Fetch, arrival, launch (R305) -/

/-- The destination of a calendar entry's frame (R567). -/
def State.entryMac (s : State) (e : CalEntry) : Mac :=
  if e.body.eui = euiAll then macAll else s.poleMac (getBits e.addr 16 7) (getBits e.addr 8 4)

/-- The frame of a fetched ring entry takes its number and is released to the fabric in class 6, one stored copy for both
ports (R266, R270, R305). -/
def State.numberEntry (s : State) (n : Nat) : State :=
  match s.calE n with
  | some e =>
    if e.path = 0 ∧ e.hsr = none ∧ e.copies.any Copy.stored = true then
      let k := getBits e.addr 16 7
      let r := s.ringNext k
      let s := r.2.setCal n (some { e with hsr := some r.1 })
      s.ringFrame k (s.entryMac e) e.body r.1 s.ownSown (some n)
    else s
  | none => s

/-- CALENDAR_FETCH of entry `n`. -/
def execCalendarFetch (n : Fin 131072) (s : State) : Res := .next (((s.calFetch n).numberEntry n).chainFetched n)

/-- The frame of entry `n` at port `p`, once it has crossed the fabric. -/
def State.portCopy (s : State) (n p : Nat) : Option TxEntry := s.fab.tx.find? (fun x => x.node == p && x.frame.cal == some n)

/-- Copy `k` of entry `n` reaches its egress: a port's, once its frame has crossed. The copy for a chain arrives with its
frame (R469). -/
def State.arrive (s : State) (n k : Nat) : State :=
  match s.copyOf n k with
  | some c =>
    match c.egress with
    | .chain _ => s
    | .port p => if (s.portCopy n p).isSome then s.copyArrive n k else s
    | _ => s.copyArrive n k
  | none => s
/-- COPY_ARRIVE. -/
def execCopyArrive (n : Fin 131072) (k : Fin 2) (s : State) : Res := .next (s.arrive n k)

/-- The frame of entry `n` reaches the transmit stage of port `p`: it leaves the port's store (R262, R305). -/
def State.portCopySent (s : State) (n p : Nat) : State :=
  match s.portCopy n p with
  | some x => ((s.modFab (fun b => { b with tx := b.tx.erase x })).transmit x false).regionsFit
  | none => if s.portUp p then s else s.count (R.PORT_CNT_DOWN_DROP.COUNT p)

/-- A ring copy reaches the transmit stage of port `p`: it leaves, or is discarded because the port is not UP or the ring is
no longer enabled (R262, R305, R569, R570). -/
def State.launchPort (s : State) (n k p : Nat) (e : CalEntry) (c : Copy) : State :=
  if !s.ringOn (getBits e.addr 16 7) then
    (match s.portCopy n p with
      | some x => (s.modFab (fun b => { b with tx := b.tx.erase x })).regionsFit
      | none => s).copyLeft n k e c true
  else if s.portUp p then
    let s := s.portCopySent n p
    (if e.launched then s else s.launchFirst e c).copyLeft n k e c false
  else (s.portCopySent n p).copyLeft n k e c true

/-- Whether the frame of a FETCHED copy of entry `n` for port `p` is nowhere in the fabric, which refused it at admission or
dropped it for a cell error: such a copy reaches LEFT at its launch instant (DESIGN CHOICE, assumption 146). -/
def State.copyLost (s : State) (n : Nat) (e : CalEntry) (c : Copy) : Bool :=
  match c.egress with
  | .port p => c.st = .fetched && (e.immediate || s.reached c.launch) && (s.portCopy n p).isNone &&
      !s.fab.waiting.any (fun x => (s.fabFrame x.fid).any (·.cal == some n)) &&
      !(s.fab.flight ++ s.fab.held).any (fun x => x.frame.cal == some n && x.targets.contains p)
  | _ => false

/-- Copy `k` of entry `n` leaves at its launch event when it may (R305–R307, R569, R570). -/
def State.copyLaunch (s : State) (n k : Nat) : State :=
  match s.calE n, s.copyOf n k with
  | some e, some c =>
    match c.egress with
    | .chain j => s.chainLatch j
    | g =>
      if s.copyDue e c then
        match g with
        | .port p => s.launchPort n k p e c
        | .radio j => s.radRelease j n e
        | .can j => s.canLaunch j n k e c
        | .stage j => ((s.stageLaunch j e).launchFirst e c).copyLeft n k e c false
        | _ => s.copyLeft n k e c true
      else if s.copyLost n e c then s.copyLeft n k e c true
      else s
  | _, _ => s
/-- COPY_LAUNCH. -/
def execCopyLaunch (n : Fin 131072) (k : Fin 2) (s : State) : Res := .next (s.copyLaunch n k)

/-! ## Node delays (R308) -/

/-- NODE_DELAY_REFRESH: the delays in ns of node `j` of ring `k` from either port, from the delay exchanges. -/
def State.nodeDelay (s : State) (k j : Nat) (a b : Nat) : State :=
  if s.nodeValid k j then (s.setF (R.TIME_NODE_DLY_A.DLY k j) a).setF (R.TIME_NODE_DLY_B.DLY k j) b else s
def execNodeDelayRefresh (k : Fin 128) (j : Fin 16) (a b : BitVec 20) (s : State) : Res :=
  .next (s.nodeDelay k j a.toNat b.toNat)

/-! ## Operating minutes (R50) -/

def accDefault (_ : Nat) : Nat := 0
/-- Ticks of the time base in 60 s (R285). -/
def opMinTicks : Nat := 60000 * 625000
/-- Whether time qualifies for endpoint `i`. -/
def State.qualifies (s : State) (i : Nat) : Bool := s.epValid i && s.ep i EP.CUR != 0 && s.ep i EP.FAILED == 0
/-- The accumulator of endpoint `i`, in ticks. -/
def State.acc (s : State) (i : Nat) : Nat := sget accDefault s.fe.acc i
/-- Set the accumulator of endpoint `i`. -/
def State.setAcc (s : State) (i n : Nat) : State := { s with fe := { s.fe with acc := sset accDefault s.fe.acc i n } }
/-- For each 60 s that the accumulator of endpoint `i` has reached, OP_MIN increments and 60 s is taken from it; the remainder
is kept. -/
def State.opMinTake (s : State) (i : Nat) : State :=
  let n := s.acc i
  if opMinTicks ≤ n then
    (s.setEp i EP.OP_MIN (min 0xFFFFFFFF (s.ep i EP.OP_MIN + n / opMinTicks))).setAcc i (n % opMinTicks)
  else s
/-- Ticks of the time base are added to the accumulators of the records whose time qualifies, and OP_MIN follows. -/
def State.accTicks (s : State) (n : Nat) : State :=
  foldS (s.validEps.filter s.qualifies) (fun i s => (s.setAcc i (s.acc i + n)).opMinTake i) s
/-- The accumulator of endpoint `i` restarts at 0. -/
def State.accClear (s : State) (i : Nat) : State := s.setAcc i 0
/-- The accumulator of endpoint `i`, whose time qualifies, reaches 60 s: the qualifying time that its ticks have not
brought yet has passed with the command (DESIGN CHOICE, assumption 130). -/
def State.opMin (s : State) (i : Nat) : State :=
  if s.qualifies i then (s.setAcc i (max (s.acc i) opMinTicks)).opMinTake i else s
/-- OP_MIN_INCREMENT. -/
def execOpMinIncrement (i : Fin 131072) (s : State) : Res := .next (s.opMin i)

end Sys2Proof.Machine
end

