-- ==== Sys2Proof/Machine/Ports.lean ====
section
/-! DEFINITION. The life of a port's link (R261–R264), the speed monitors and the core-voltage loop (R219–R222, R327). -/
namespace Sys2Proof.Machine
open Sys2Proof

/-! ## Links (R261, R262) -/

/-- The codes of PORT_STATUS.STATE (R283); UP stands in Launch. -/
def psDark : Nat := 0
def psAcquire : Nat := 1
def psFailed : Nat := 3
def State.portState (s : State) (n : Nat) : Nat := s.f (R.PORT_STATUS.STATE n)
/-- The laser of port `n`'s lane, the engine's fallow one once it has been swapped in (R263). -/
def State.portLaser (s : State) (n : Nat) : Nat := 9 * (n / 8) + (if s.on (R.PORT_STATUS.SWAPPED n) then 8 else n % 8)
def laserTicks (_ : Nat) : Nat := 0
/-- Laser `z` is turned on or off; its on-time counts as wear (R344). -/
def State.laserSet (s : State) (z : Nat) (on : Bool) : State :=
  match s.spares.laserSince.find? (fun e => e.1 == z), on with
  | none, true => { s with spares := { s.spares with laserSince := s.spares.laserSince ++ [(z, s.opTotal)] } }
  | some e, false => { s with spares := { s.spares with
      laserSince := s.spares.laserSince.erase e
      laserOn := sset laserTicks s.spares.laserOn z (sget laserTicks s.spares.laserOn z + (s.opTotal - e.2)) } }
  | _, _ => s
/-- A port is in a state; its laser is on in ACQUIRE and UP (R261). -/
def State.setPortState (s : State) (n v : Nat) : State :=
  (s.setF (R.PORT_STATUS.STATE n) v).laserSet (s.portLaser n) (v == psAcquire || v == psUp)
/-- Every laser is off. -/
def State.lasersOff (s : State) : State := foldS (s.spares.laserSince.map (·.1)) (fun z s => s.laserSet z false) s

/-- Whether a PAIR port is UP (R268). -/
def State.pairLinkUp (s : State) : Bool := (List.range 256).any (fun n => s.portRole n == prPair && s.portUp n)
/-- Whether a port with ROLE RING is UP: the ring view of R333. -/
def State.ringView (s : State) : Bool := (List.range 256).any (fun n => s.portRole n == prRing && s.portUp n)
/-- Keep SYS_PAIR_STATUS.PAIR_LINK and RING_VIEW; the fall of PAIR_LINK sets PAIR_LINK_DOWN (R345). -/
def State.pairLinkUpdate (s : State) : State :=
  let was := s.on R.SYS_PAIR_STATUS.PAIR_LINK
  let now := s.pairLinkUp
  let s := (s.setF R.SYS_PAIR_STATUS.PAIR_LINK (b2n now)).setF R.SYS_PAIR_STATUS.RING_VIEW (b2n s.ringView)
  if was && !now then s.raise E.SYS_PAIR_EVT.PAIR_LINK_DOWN else s

/-- Show a receiver's report in PORT_STATUS. -/
def State.setReceiver (s : State) (n : Nat) (x : Receiver) : State :=
  (((s.setF (R.PORT_STATUS.ALIGNED n) (b2n x.aligned)).setF (R.PORT_STATUS.RX_LOS n) (b2n x.los)).setF
    (R.PORT_STATUS.LOCAL_FAULT n) (b2n x.localFault)).setF (R.PORT_STATUS.REMOTE_FAULT n) (b2n x.remoteFault)
/-- Whether every condition of the ACQUIRE line holds together. -/
def State.receiverGood (s : State) (n : Nat) : Bool :=
  s.on (R.PORT_STATUS.ALIGNED n) && !s.on (R.PORT_STATUS.RX_LOS n) && !s.on (R.PORT_STATUS.LOCAL_FAULT n) &&
    !s.on (R.PORT_STATUS.REMOTE_FAULT n)

/-- The actions of R262 when a port leaves UP for another state: the frame in transmission is cut off, the port's dynamic FDB
entries are flushed unless it is a ring port, its residue entries are dropped. -/
def State.leaveActs (s : State) (n v : Nat) : State :=
  let ring := s.portRole n == prRing
  let s := (s.setPortState n v).cutOff n
  let s := if ring then s else s.fdbFlush (fun _ e => e.node == n)
  (s.residueLinkDown n).pairLinkUpdate
/-- A port leaves UP with LINK_DOWN (R261, R262). -/
def State.leaveUp (s : State) (n v : Nat) : State := (s.leaveActs n v).raise (E.PORT_EVT.LINK_DOWN n)

/-- Enter a state from any other. -/
def State.portTo (s : State) (n v : Nat) : State := if s.portUp n then s.leaveUp n v else s.setPortState n v

/-- A port in ACQUIRE has held every condition for 10 ms (R261). -/
def State.linkUp (s : State) (n : Nat) : State :=
  if s.portState n = psAcquire ∧ s.receiverGood n = true then ((s.setPortState n psUp).raise (E.PORT_EVT.LINK_UP n)).pairLinkUpdate
  else s
/-- LINK_UP of port `n`. -/
def execLinkUp (n : Fin 256) (s : State) : Res := .next (s.linkUp n)

/-- An UP port loses alignment or signal or sees a fault; `x` is what its receiver reports then. -/
def State.linkDown (s : State) (n : Nat) (x : Receiver) : State :=
  let s' := s.setReceiver n x
  if s.portUp n && !s'.receiverGood n then s'.leaveUp n psAcquire else s
/-- LINK_DOWN of port `n`. -/
def execLinkDown (n : Fin 256) (x : Receiver) (s : State) : Res := .next (s.linkDown n x)

/-- The receiver of a port gains or loses a condition, which PORT_STATUS shows in every state (R283); one that an UP port loses
takes it out of UP (R261). -/
def State.receiverAligned (s : State) (n : Nat) (x : Receiver) : State :=
  if s.portUp n then s.linkDown n x else s.setReceiver n x
/-- RECEIVER_ALIGNED of port `n`. -/
def execReceiverAligned (n : Fin 256) (x : Receiver) (s : State) : Res := .next (s.receiverAligned n x)

/-- The effective FEC25 of a PORT_CFG word: 0 unless PMD is 3. -/
def cfgFec (w : Word) : Nat := if getBits w 24 2 = 3 then getBits w 23 1 else 0
/-- Whether a changed PORT_CFG restarts the link (R261): PMD, or FEC25 of a port whose PMD is 3 after the apply. -/
def cfgRestarts (old new : Word) : Bool :=
  getBits old 24 2 != getBits new 24 2 || (getBits new 24 2 == 3 && getBits old 23 1 != getBits new 23 1)

/-- A sheaf changed PORT_CFG of port `n` from `old` (R261). -/
def State.portCfgApplied (s : State) (n : Nat) (old : Word) : State :=
  let new := s.r (R.PORT_CFG.reg n)
  let st := s.portState n
  let s :=
    if st = psFailed then s
    else if !bit new 31 then (if st = psDark then s else s.portTo n psDark)
    else if st = psDark then s.setPortState n psAcquire
    else if cfgRestarts old new then s.portTo n psAcquire
    else s
  s.pairLinkUpdate

/-- The lane's laser is retired and no fallow laser can serve it: laser off and TX_FAULT (R261). The line sets no LINK_DOWN. -/
def State.portFail (s : State) (n : Nat) : State :=
  if s.portState n = psFailed then s
  else (if s.portUp n then s.leaveActs n psFailed else s.setPortState n psFailed).raise (E.PORT_EVT.TX_FAULT n)

/-- Plot `p` loses its power: its ports are dark (R324, R327; LINK_DOWN DEDUCED, assumption 144). -/
def State.plotPortsOff (s : State) (p : Nat) : State :=
  foldS (rangeFrom (32 * p) 32) (fun n s => if s.portState n = psFailed ∨ s.portState n = psDark then s else s.portTo n psDark) s
/-- Plot `p` has power again: its enabled ports enter ACQUIRE. -/
def State.plotPortsOn (s : State) (p : Nat) : State :=
  foldS (rangeFrom (32 * p) 32) (fun n s =>
    if s.portState n = psDark && s.on (R.PORT_CFG.EN n) then s.setPortState n psAcquire else s) s

/-! ## Monitoring (R264) -/

/-- The 100 ms refresh: bias, receive power, engine temperature. RX_LOW on a fall below the threshold; 0x8000 is no
measurement, neither below nor a value to fall to (DEDUCED, assumption 22). -/
def State.optics (s : State) (n bias pwr temp : Nat) : State :=
  let thr := toSigned 16 (s.f (R.PORT_RXLOW_THR.THR n))
  let below := fun v => v != 0x8000 && decide (toSigned 16 v < thr)
  let fell := below pwr && !below (s.f (R.PORT_OPT0.RX_PWR n))
  let s := ((s.setF (R.PORT_OPT0.TX_BIAS n) bias).setF (R.PORT_OPT0.RX_PWR n) pwr).setF (R.PORT_OPT1.ENG_TEMP n) temp
  if fell then s.raise (E.PORT_EVT.RX_LOW n) else s
/-- OPTICS_REFRESH of port `n`. -/
def execOpticsRefresh (n : Fin 256) (bias pwr temp : BitVec 16) (s : State) : Res :=
  .next (s.optics n bias.toNat pwr.toNat temp.toNat)

/-- The end of a 1 ms window: codewords corrected, uncorrectable, symbol errors corrected in it. -/
def State.degradeWindow (s : State) (n corr uncorr sym : Nat) : State :=
  let s := ((s.addPair (R.PORT_FEC_CORR_LO.reg n) (R.PORT_FEC_CORR_HI.reg n) corr).addPair (R.PORT_FEC_UNCORR_LO.reg n)
    (R.PORT_FEC_UNCORR_HI.reg n) uncorr).addPair (R.PORT_FEC_SYM_LO.reg n) (R.PORT_FEC_SYM_HI.reg n) sym
  if s.f (R.PORT_DEG_CFG.SYM_THR n) < sym then s.raise (E.PORT_EVT.DEGRADE n) else s
/-- DEGRADE_WINDOW of port `n`. -/
def execDegradeWindow (n : Fin 256) (corr uncorr sym : Word) (s : State) : Res :=
  .next (s.degradeWindow n corr.toNat uncorr.toNat sym.toNat)

/-! ## Speed (R219–R222, R327) -/

/-- The monitor of plot `p` for active plane `k` counted `n` cycles (R219). A count for which TOKEN_PS has no 16-bit value
leaves a free value. -/
def State.speedMeasure (s : State) (p k n : Nat) : State :=
  if s.plane k = plActive then
    let v := ceilDiv 4096000 n
    let r := if n = 0 ∨ 65535 < v then s.free else (v, s)
    (r.2.setF (R.FAB_SPEED.TOKEN_PS p k) r.1).setF (R.FAB_SPEED.VALID p k) 1
  else s
/-- SPEED_MEASURE: plot, plane, cycles. -/
def execSpeedMeasure (p : Fin 8) (k : Fin 9) (n : Word) (s : State) : Res := .next (s.speedMeasure p k n.toNat)

/-- The monitor of a plane that is not active has VALID 0 (R219). -/
def State.monitorOff (s : State) (k : Nat) : State := foldS (List.range 8) (fun p s => s.setF (R.FAB_SPEED.VALID p k) 0) s

/-- The voltage ceiling in 0.5 mV by the active phases (R327). -/
def vcoreCeil (phases : Nat) : Nat :=
  if 16 ≤ phases then 1700 else if phases = 15 then 1640 else if phases = 14 then 1580 else if phases = 13 then 1520 else 1440

/-- Set VCORE, in 0.5 mV. MV shows whole millivolts; how a half shows the spec does not say, so it is a free choice. -/
def State.setVcore (s : State) (v : Nat) : State :=
  let r := if v % 2 = 0 then (0, s) else s.free
  (((r.2.modFab (fun b => { b with vcore := v })).setF R.FAB_VCORE.MV (v / 2 + r.1 % 2)).setF R.FAB_VCORE.AT_MAX
    (b2n (v == 1700))).setF R.FAB_VCORE.AT_MIN (b2n (v == 1440))

/-- Every valid monitor: plot, plane and token period. -/
def State.monitors (s : State) : List (Nat × Nat × Nat) :=
  (List.range 8).flatMap (fun p => ((List.range 9).filter (fun k => s.on (R.FAB_SPEED.VALID p k))).map
    (fun k => (p, k, s.f (R.FAB_SPEED.TOKEN_PS p k))))

/-- One evaluation of the loop (R220–R222, R327). RISK is tested with VCORE as it stands before this evaluation's step
(DEDUCED, assumption 23). Which of several equal monitors gave W is a free choice. -/
def State.vloop (s : State) : State :=
  if s.on R.FAB_VLOOP_CFG.EN && s.monitors != [] then
    let w := s.monitors.foldl (fun a x => max a x.2.2) 0
    let worst := s.monitors.filter (fun x => x.2.2 == w)
    let r := if worst.length = 1 then (0, s) else s.free
    let x := worst.getD (r.1 % worst.length) (0, 0, 0)
    let s := ((r.2.setF R.FAB_SPD_STATUS.WORST_PS w).setF R.FAB_SPD_STATUS.WORST_PLOT x.1).setF R.FAB_SPD_STATUS.WORST_PLANE x.2.1
    let t := s.f R.FAB_VLOOP_CFG.TARGET_PS
    let top := vcoreCeil (s.f R.SYS_SPARE0.PHASE_ACTIVE)
    let v := s.fab.vcore
    let run := if w + 50 < t then s.fab.lowRun + 1 else 0
    let lower := decide (10 ≤ run ∧ 1440 < v)
    let v' := if t < w ∧ v < top then v + 10 else if lower then v - 5 else v
    let s := (s.modFab (fun b => { b with lowRun := if lower then 0 else run })).setVcore (max 1440 (min v' top))
    let risk := decide (v = top ∧ 953 ≤ w)
    let low := decide (1000 < w)
    let s := (s.setF R.FAB_SPD_STATUS.RISK_NOW (b2n risk)).setF R.FAB_SPD_STATUS.LOW_NOW (b2n low)
    let body := [s.r R.FAB_SPD_STATUS.reg, s.r R.FAB_VCORE.reg]
    let s := if risk then (s.raise E.FAB_SPD_EVT.SPEED_RISK).record 0x0701 3 x.1 body else s
    if low then (s.raise E.FAB_SPD_EVT.SPEED_LOW).record 0x0702 3 x.1 body else s
  else s
/-- VLOOP_EVALUATE. -/
def execVloopEvaluate (s : State) : Res := .next s.vloop

end Sys2Proof.Machine
end

