-- ==== Sys2Proof/Machine/Rec.lean ====
section
/-! DEFINITION. The recorder and the reading side of the ledger (R491–R512). -/
namespace Sys2Proof.Machine
open Sys2Proof

/-! ## Records (R491–R493) -/

/-- A record of an offer: the body padded to 8 bytes, stamps and counts as they are now (R491). -/
def State.mkRec (s : State) (o : Offer) : RecordE :=
  let st := s.f R.TIME_SYNC.STATE
  let body := if o.body.length < 2 then o.body ++ List.replicate (2 - o.body.length) 0 else o.body.take 256
  { seq := s.rcd.nextSeq, offer := { o with body := body }, step := s.stepEpoch, opMs := s.opMs,
    cycle := s.f R.SYS_PWR_CYCLES.CYCLES, ptpValid := st == 2 || st == 3, holdover := st == 3, time := s.now }

/-- Bytes of a record with its header (R491). -/
def RecordE.size (r : RecordE) : Nat := 48 + 4 * r.offer.body.length

/-- Bytes 0–39 of a record's header (R491). -/
def RecordE.head (r : RecordE) : List Byte :=
  leBytes 2 (4 * r.offer.body.length) ++ leBytes 2 r.offer.code ++
  leBytes 1 (r.offer.sev % 4 + 4 * b2n r.ptpValid + 8 * b2n r.holdover) ++ leBytes 1 r.step ++ leBytes 2 r.offer.source ++
  leBytes 8 r.seq ++ leBytes 6 r.opMs ++ leBytes 2 0 ++ leBytes 4 r.cycle ++
  (if r.ptpValid then leBytes 12 r.time.toNat else leBytes 12 0)

/-- The bytes of a record (R491). -/
def RecordE.bytes (r : RecordE) : List Byte :=
  r.head ++ leBytes 4 (crc32c (r.head ++ wordsBytes r.offer.body)).toNat ++ leBytes 4 0 ++ wordsBytes r.offer.body

/-! ## Buffers (R496–R499) -/

/-- The states of a buffer in REC_STATUS. -/
def rbEmpty : Nat := 0
def rbFilling : Nat := 1
def rbFull : Nat := 2
def rbFlushing : Nat := 3
/-- Bytes of a buffer. -/
def rbBytes : Nat := 262144

/-- The state of a buffer: B when `b`. -/
def State.rbState (s : State) (b : Bool) : Nat := if b then s.f R.REC_STATUS.B else s.f R.REC_STATUS.A
/-- Set the state of a buffer. -/
def State.setRbState (s : State) (b : Bool) (v : Nat) : State := if b then s.setF R.REC_STATUS.B v else s.setF R.REC_STATUS.A v
/-- The records of a buffer. -/
def State.rbRecs (s : State) (b : Bool) : List RecordE := if b then s.rcd.bufB else s.rcd.bufA
/-- Replace the records of a buffer. -/
def State.setRbRecs (s : State) (b : Bool) (l : List RecordE) : State :=
  if b then { s with rcd := { s.rcd with bufB := l } } else { s with rcd := { s.rcd with bufA := l } }
/-- Bytes of a list of records. -/
def recsBytes (l : List RecordE) : Nat := l.foldl (fun a r => a + r.size) 0
/-- The buffer in a state. -/
def State.rbIn (s : State) (v : Nat) : Option Bool :=
  if s.rbState false = v then some false else if s.rbState true = v then some true else none

/-- REC_STATUS.REFUSING: no buffer is FILLING or EMPTY (R499). -/
def State.rbRefusing (s : State) : State :=
  s.setF R.REC_STATUS.REFUSING (b2n ((s.rbIn rbFilling).isNone && (s.rbIn rbEmpty).isNone))

/-- A trigger reaches a buffer (R497): flushed, or later when the other buffer is FLUSHING. A FULL buffer that waits stays
FULL; a FILLING one stays FILLING, and `flushAsk` says that it waits (DEDUCED from the worked example, assumption 31). A buffer
without records has nothing to flush. -/
def State.rbTrigger (s : State) (b : Bool) : State :=
  if (s.rbRecs b).isEmpty then s
  else if s.rbState (!b) = rbFlushing then
    { s with rcd := { s.rcd with flushAsk := s.rcd.flushAsk || s.rbState b == rbFilling } }
  else s.setRbState b rbFlushing

/-- Reserve the next 2²⁰ numbers when the next number is the first of a block not reserved yet (R492). -/
def State.seqReserve (s : State) : State :=
  if s.ledger.seqReserved ≤ s.rcd.nextSeq then
    ({ s with ledger := { s.ledger with seqReserved := s.ledger.seqReserved + 1048576 } }).ledgerCommit .seqBlock
      (leBytes 8 (s.ledger.seqReserved + 1048576))
  else s

/-- The bytes of a fault summary (R509): SEQ, CODE, FLAGS, SOURCE, OP_MS, CYCLE, the first 24 bytes of the body, 0 to 64. -/
def RecordE.summary (r : RecordE) : List Byte :=
  let l := leBytes 8 r.seq ++ leBytes 2 r.offer.code ++ (r.head.drop 4).take 1 ++ leBytes 2 r.offer.source ++ leBytes 6 r.opMs ++
    leBytes 4 r.cycle ++ (wordsBytes r.offer.body).take 24
  l ++ List.replicate (64 - l.length) 0

/-- The fault summary of a record (R509): ring of 4,096. After a supply warning the ledger takes none (R511). -/
def State.faultSummary (s : State) (r : RecordE) : State :=
  if (2 ≤ r.offer.sev ∨ r.offer.code = 0x0103) ∧ s.ledger.shut = false then
    let l := s.ledger.summaries ++ [{ r with offer := { r.offer with body := r.offer.body.take 6 } }]
    let n := s.ledger.ring.1
    ({ s with ledger := { s.ledger with summaries := l.drop (l.length - 4096), ring := (n + 1, s.ledger.ring.2) } }).ledgerWait
      (.summary (n % 4096)) r.summary
  else s

/-- A record takes the next number and is appended to a FILLING buffer with room (R492, R497, R174). -/
def State.recAppend (s : State) (b : Bool) (o : Offer) : State :=
  let s := s.seqReserve
  let r := s.mkRec o
  let s := s.setRbRecs b (s.rbRecs b ++ [r])
  let s := s.setPairR R.REC_LAST_SEQ_LO.reg R.REC_LAST_SEQ_HI.reg r.seq
  let s := if 2 ≤ o.sev then s.event evAlarm r.bytes else s
  let s := ({ s with rcd := { s.rcd with nextSeq := s.rcd.nextSeq + 1 } }).faultSummary r
  if s.f R.REC_CFG.FLUSH_SEV ≤ o.sev then s.rbTrigger b else s

/-- The LOST record (R499): the count, and OP_MS of the first and of the last refusal. -/
def State.lostOffer (s : State) : Offer :=
  ⟨0x0501, 2, 0xFFFF, [s.r R.REC_LOST_PEND.reg] ++ leWords 2 s.rcd.lostFirst ++ leWords 2 s.rcd.lostLast⟩

/-- An EMPTY buffer becomes FILLING; its first record is LOST when refusals wait (R499). -/
def State.rbStart (s : State) (b : Bool) : State :=
  let s := s.setRbState b rbFilling
  if s.f R.REC_LOST_PEND.PEND = 0 then s
  else
    let o := s.lostOffer
    (s.setF R.REC_LOST_PEND.PEND 0).recAppend b o

/-- A refusal (R499). -/
def State.recRefuse (s : State) : State :=
  let s := if s.f R.REC_LOST_PEND.PEND = 0 then { s with rcd := { s.rcd with lostFirst := s.opMs } } else s
  let s := { s with rcd := { s.rcd with lostLast := s.opMs } }
  ((s.raise E.REC_EVT.LOST).count R.REC_LOST_PEND.PEND).count R.REC_LOST_TOTAL.TOTAL

/-- A record goes to an EMPTY buffer, which becomes FILLING, or is refused. -/
def State.recToEmpty (s : State) (o : Offer) : State :=
  match s.rbIn rbEmpty with
  | some b =>
    let s := s.rbStart b
    if s.rbState b = rbFilling then s.recAppend b o else s.recRefuse
  | none => s.recRefuse

/-- A record is presented (R496, R499, R500). After a supply warning the ledger reserves no further numbers (R511): a record that
would need one is refused (DEDUCED, assumption 173). -/
def State.recTake (s : State) (o : Offer) : State :=
  if s.rcd.closed || (s.ledger.shut && decide (s.ledger.seqReserved ≤ s.rcd.nextSeq)) then { s with rcd := { s.rcd with finalLost := s.rcd.finalLost + 1 } }
  else
    let n := (s.mkRec o).size
    let s := match s.rbIn rbFilling with
      | some b =>
        if recsBytes (s.rbRecs b) + n ≤ rbBytes then s.recAppend b o
        else ((({ s with rcd := { s.rcd with flushAsk := false } }).setRbState b rbFull).rbTrigger b).recToEmpty o
      | none => s.recToEmpty o
    s.rbRefusing

/-- How many of the records that wait crossed in the access cycle of the oldest. -/
def Recorder.together (r : Recorder) : Nat :=
  match r.cycles.head?.join with
  | none => 1
  | some c => max 1 (r.cycles.takeWhile (· == some c)).length
/-- Which of the records that wait is the next: of those that crossed in the oldest one's access cycle the first with the lowest
CODE (R494). -/
def Recorder.front (r : Recorder) : Nat :=
  let l := r.offered.take r.together
  let low := l.foldl (fun m o => min m o.code) ((l.headD ⟨0, 0, 0, []⟩).code)
  (l.findIdx? (fun o => o.code == low)).getD 0

/-- The next of the records that wait reaches the recorder (R494). -/
def State.recAccept (s : State) : State :=
  let i := s.rcd.front
  if s.rcd.isOpen then
    match s.rcd.offered[i]? with
    | none => s
    | some o => ({ s with rcd := { s.rcd with offered := s.rcd.offered.eraseIdx i, cycles := s.rcd.cycles.eraseIdx i } }).recTake o
  else s
/-- RECORD_ACCEPT. -/
def execRecordAccept (s : State) : Res := .next s.recAccept

/-- Every record that waits reaches the recorder. -/
def State.recAcceptAll (s : State) : State := foldS s.rcd.offered (fun _ s => s.recAccept) s

/-! ## The log (R502, R503) -/

/-- The flash block that holds block `b` of the 8,192 in use (R318). -/
def flashHome (b : Nat) : Nat × Nat := (b, 0)
def State.flashBlock (s : State) (b : Nat) : Nat := (sget flashHome s.spares.flashAt b).1
/-- The region of a flash block in use: the first 256 are the log's (DESIGN CHOICE, assumption 155). -/
def flashRegionOf (b : Nat) : FlashRegion := if b < 256 then .log else Config.flashRegion b
/-- Whether a region of the flash is read-only (R325). -/
def State.flashStuck (s : State) (r : FlashRegion) : Bool := s.spares.readOnly.contains r
def erasesDefault (_ : Nat) : Nat := 0

/-- The blocks of the log: 256 less those given up (R325, R502). -/
def State.logBlocks (s : State) : Nat := 256 - s.spares.logGone.length
/-- The block after one in the circle. -/
def State.logNext (s : State) (b : Nat) : Nat :=
  (((List.range 256).map (fun k => (b + 1 + k) % 256)).find? (fun k => !s.spares.logGone.contains k)).getD b

/-- Erase a block: REC_FIRST_SEQ passes its last record (R502). -/
def State.logErase (s : State) (b : Nat) : State :=
  let gone := (s.rcd.log.filter (fun g => g.block == b)).map (fun g => g.recs)
  let q := s.flashBlock b
  let s := { s with
    rcd := { s.rcd with log := s.rcd.log.filter (fun g => g.block != b) }
    spares := { s.spares with erases := sset erasesDefault s.spares.erases q (sget erasesDefault s.spares.erases q + 1) } }
  match gone.flatten.getLast? with
  | some r =>
    let first := max (s.pairR R.REC_FIRST_SEQ_LO.reg R.REC_FIRST_SEQ_HI.reg) (r.seq + 1)
    (s.setPairR R.REC_FIRST_SEQ_LO.reg R.REC_FIRST_SEQ_HI.reg first).raise E.REC_EVT.WRAP
  | none => s
/-- LOG_ERASE of the block after the current one, unless the log is read-only. -/
def execLogErase (s : State) : Res := .next (s.when (!s.flashStuck .log) (fun s => s.logErase (s.logNext s.rcd.block)))

/-- The 32-byte header of a segment: first and last sequence number, record count, byte length, CRC-32C (R503; the widths, and
the zero bytes at its end, are the model's, assumption 172). -/
def segHead (l : List RecordE) : List Byte :=
  let h := leBytes 8 ((l.head?.map RecordE.seq).getD 0) ++ leBytes 8 ((l.getLast?.map RecordE.seq).getD 0) ++ leBytes 4 l.length ++
    leBytes 4 (32 + recsBytes l)
  h ++ leBytes 4 (crc32c h).toNat ++ leBytes 4 0

/-- A segment is written: header and records (R502, R503). -/
def State.logWrite (s : State) (l : List RecordE) : State :=
  let n := 32 + recsBytes l
  let s := if s.rcd.used + n ≤ 4194304 then s
    else
      let b := s.logNext s.rcd.block
      let s := s.logErase b
      { s with rcd := { s.rcd with block := b, used := 0 } }
  let s := { s with rcd := { s.rcd with log := s.rcd.log ++ [⟨s.rcd.block, n, segHead l, l⟩], used := s.rcd.used + n } }
  match l.getLast? with
  | some r => s.setPairR R.REC_FLASH_SEQ_LO.reg R.REC_FLASH_SEQ_HI.reg r.seq
  | none => s

/-- The flush of a buffer ends (R497, R499), unless the log is read-only (R325): it becomes EMPTY, the other
buffer's flush begins when that is FULL or a trigger waited for it, and then the LOST record is taken when refusals wait and no
buffer is FILLING. -/
def State.flushDone (s : State) : State :=
  match s.rbIn rbFlushing with
  | none => s
  | some b =>
    let s := ((s.logWrite (s.rbRecs b)).setRbRecs b []).setRbState b rbEmpty
    let s := if s.rbState (!b) = rbFull then s.setRbState (!b) rbFlushing
      else if s.rcd.flushAsk && s.rbState (!b) == rbFilling then
        ({ s with rcd := { s.rcd with flushAsk := false } }).rbTrigger (!b)
      else s
    let s := if s.f R.REC_LOST_PEND.PEND != 0 && (s.rbIn rbFilling).isNone && !s.rcd.closed then s.rbStart b else s
    s.rbRefusing
/-- FLUSH_DONE. -/
def execFlushDone (s : State) : Res := .next (s.when (!s.flashStuck .log) State.flushDone)

/-- REC_CMD = FLUSH (R497). -/
def State.recFlush (s : State) : State :=
  match s.rbIn rbFilling with
  | some b => (s.rbTrigger b).rbRefusing
  | none => s
/-- REC_FLUSH. -/
def execRecFlush (s : State) : Res := .next s.recFlush

/-- The final flush of R498: what waits is taken in, both buffers are written, no record is accepted any more. -/
def State.recClose (s : State) : State :=
  let old := s.rbIn rbFlushing
  let s := match old with
    | some b => if s.flashStuck .log then s else ((s.logWrite (s.rbRecs b)).setRbRecs b []).setRbState b rbEmpty
    | none => s
  let one (b : Bool) (s : State) : State :=
    if (s.rbRecs b).isEmpty || s.flashStuck .log then s else ((s.logWrite (s.rbRecs b)).setRbRecs b []).setRbState b rbEmpty
  let order := if s.rbState false = rbFull ∨ s.rbState true = rbFilling then [false, true] else [true, false]
  let s := foldS order one s
  { s with rcd := { s.rcd with closed := true, flushAsk := false } }

/-! ## Reading (R503–R505) -/

/-- Every readable record, rising: the log and both buffers (R504). -/
def State.readable (s : State) : List RecordE :=
  let a := s.rcd.bufA
  let b := s.rcd.bufB
  let ab := match a.head?, b.head? with
    | some x, some y => if x.seq < y.seq then a ++ b else b ++ a
    | _, _ => a ++ b
  (s.rcd.log.map (fun g => g.recs)).flatten ++ ab

/-- A segment without the records from a bad one on. -/
def Seg.upTo (g : Seg) (bad : Nat) : Seg := { g with recs := g.recs.filter (fun r => r.seq < bad) }

/-- A record cannot be read correctly (R503): it and the later ones of its segment are lost. -/
def State.logGap (s : State) (bad : Nat) : State :=
  match s.rcd.log.find? (fun g => g.recs.any (fun r => r.seq == bad)) with
  | none => s
  | some g =>
    let lost := g.recs.filter (fun r => bad ≤ r.seq)
    let last := (lost.getLast?.map (fun r => r.seq)).getD bad
    let s := { s with rcd := { s.rcd with log := s.rcd.log.map (fun x => if x = g then g.upTo bad else x) } }
    let s := s.setF R.REC_LOG_GAP_CNT.GAPS (satAdd 0xFFFFFFFF (s.f R.REC_LOG_GAP_CNT.GAPS) lost.length)
    (s.raise E.REC_EVT.LOG_GAP).record 0x0502 2 0xFFFF (leWords 2 bad ++ leWords 2 last)

/-- A block of the log is rewritten into another (R322): the numbers of the records that cannot be read correctly start gaps
(R503). -/
def State.logRewrite (s : State) (b : Nat) (bad : List Nat) : State :=
  foldS bad (fun n s => if s.rcd.log.any (fun g => g.block == b && g.recs.any (fun r => r.seq == n)) then s.logGap n else s) s

/-- Store the words of a record in REC_SEL_DATA. -/
def State.selWords (s : State) (l : List Byte) : State :=
  foldS (List.range (l.length / 4)) (fun i s =>
    s.setR (R.REC_SEL_DATA.reg i) (bytesWord (l.getD (4 * i) 0) (l.getD (4 * i + 1) 0) (l.getD (4 * i + 2) 0) (l.getD (4 * i + 3) 0))) s

/-- REC_CMD = SELECT (R504); `bad`: the number of the first record that the read finds unreadable. -/
def State.recSelect (s : State) (bad : Option (BitVec 64)) : State :=
  let n := s.pairR R.REC_SEL_SEQ_LO.reg R.REC_SEL_SEQ_HI.reg
  let s := match bad with
    | some b => s.logGap b.toNat
    | none => s
  if n < s.pairR R.REC_FIRST_SEQ_LO.reg R.REC_FIRST_SEQ_HI.reg then s.setF R.REC_SEL_STATUS.RESULT 1
  else if s.pairR R.REC_LAST_SEQ_LO.reg R.REC_LAST_SEQ_HI.reg < n then s.setF R.REC_SEL_STATUS.RESULT 2
  else match s.readable.find? (fun r => r.seq == n) with
    | some r => (s.selWords r.bytes).setF R.REC_SEL_STATUS.RESULT 0
    | none => s.setF R.REC_SEL_STATUS.RESULT 3
/-- REC_SELECT. -/
def execRecSelect (bad : Option (BitVec 64)) (s : State) : Res := .next (s.recSelect bad)

/-- What an unlisted byte of control SDRAM reads as. -/
def sdramByte (_ : Nat) : Byte := 0

/-- Bytes are stored in control SDRAM from an address of the control space on; a byte outside it is discarded (R35). -/
def State.toSdram (s : State) (a : Nat) (l : List Byte) : State :=
  { s with bus := { s.bus with sdram :=
      (List.zip (List.range l.length) l).foldl (fun m e =>
        if 0x100000000 ≤ a + e.1 ∧ a + e.1 ≤ 0x8FFFFFFFF then sset sdramByte m (a + e.1 - 0x100000000) e.2 else m) s.bus.sdram } }

/-- The records that a COPY takes: whole, while they fit (R505). -/
def copyFit : List RecordE → Nat → List RecordE
  | [], _ => []
  | r :: l, room => if r.size ≤ room then r :: copyFit l (room - r.size) else []

/-- REC_CMD = COPY (R505); it reports when it ends. A further COPY while one is in progress is no command. -/
def State.recCopy (s : State) (bad : Option (BitVec 64)) : State :=
  if s.on R.REC_STATUS.COPY_BUSY then s
  else
    let s := match bad with
      | some b => s.logGap b.toNat
      | none => s
    let first := s.pairR R.REC_COPY_SEQ_LO.reg R.REC_COPY_SEQ_HI.reg
    let l := copyFit (s.readable.filter (fun r => first ≤ r.seq)) (s.f R.REC_COPY_LEN.LEN)
    let a := (s.r R.REC_COPY_ADDR_LO.reg).toNat / 8 * 8 + s.f R.REC_COPY_ADDR_HI.ADDR * 4294967296
    let bytes := (l.map (fun r => r.bytes)).flatten
    let s := s.toSdram a bytes
    ({ s with rcd := { s.rcd with copy := some ⟨(l.getLast?.map RecordE.seq).getD 0, bytes.length⟩ } }).setF
      R.REC_STATUS.COPY_BUSY 1
/-- REC_COPY. -/
def execRecCopy (bad : Option (BitVec 64)) (s : State) : Res := .next (s.recCopy bad)

/-- The COPY ends. -/
def State.copyDone (s : State) : State :=
  match s.rcd.copy with
  | none => s
  | some c =>
    let s := { s with rcd := { s.rcd with copy := none } }
    let s := (s.setPairR R.REC_COPY_LAST_LO.reg R.REC_COPY_LAST_HI.reg c.last).setF R.REC_COPY_BYTES.BYTES c.bytes
    (s.setF R.REC_STATUS.COPY_BUSY 0).raise E.REC_EVT.COPY_DONE
/-- COPY_DONE. -/
def execCopyDone (s : State) : Res := .next s.copyDone

/-- A write of REC_APP_HDR (R501). A LENGTH that is no multiple of 4 counts up to the next word. -/
def State.appRecord (s : State) (v : Word) : State :=
  let code := getBits v 0 16
  let len := getBits v 16 11
  if code < 0x8000 ∨ len < 8 ∨ 1024 < len then s.raise E.REC_EVT.APP_BAD
  else s.record code (getBits v 30 2) (s.f R.REC_APP_SRC.SOURCE)
    ((List.range (ceilDiv len 4)).map (fun i => s.r (R.REC_APP_DATA.reg i)))
/-- APP_RECORD. -/
def execAppRecord (v : Word) (s : State) : Res := .next (s.appRecord v)

/-! ## The ledger (R507–R511) -/

/-- A copy is valid when its commit word is written and its CRC matches (R510). -/
def LdgCopy.valid (c : LdgCopy) : Bool := c.commit && c.crc == c.entry.crc c.seq
/-- The copy taken of an entry's two (R510): the valid one, of two valid ones the one with the higher write sequence, or none
when the entry was never written. -/
def ledgerPick (a b : Option LdgCopy) : Option LdgCopy :=
  match a.filter LdgCopy.valid, b.filter LdgCopy.valid with
  | some x, some y => some (if x.seq < y.seq then y else x)
  | some x, none => some x
  | none, y => y

/-- The tags of the entries in the banks. -/
def Ledger.tags (l : Ledger) : List LdgTag := ((l.bank0 ++ l.bank1).map (fun c => c.entry.tag)).eraseDups
/-- The resolved entries (R510). -/
def Ledger.resolved (l : Ledger) : List LdgCopy := l.tags.filterMap (fun g => ledgerPick (bankGet l.bank0 g) (bankGet l.bank1 g))
/-- The entries of which a bank lacks the copy taken. -/
def Ledger.torn (l : Ledger) : List LdgTag :=
  l.tags.filter (fun g => (ledgerPick (bankGet l.bank0 g) (bankGet l.bank1 g)).isSome && bankGet l.bank0 g != bankGet l.bank1 g)

/-- LEDGER_WRITE_DONE. -/
def execLedgerWriteDone (s : State) : Res := .next s.ledgerDone

/-- What the ledger holds of an entry: the body of the copy taken (R510). -/
def Ledger.bodyOf (l : Ledger) (g : LdgTag) : Option (List Byte) :=
  (ledgerPick (bankGet l.bank0 g) (bankGet l.bank1 g)).map (fun c => c.entry.body)
/-- The words of a save of totals, from its body (R409). -/
def totalsOf : List Byte → Store Word
  | a :: b :: w0 :: w1 :: w2 :: w3 :: l => (leNat [a, b], bytesWord w0 w1 w2 w3) :: totalsOf l
  | _ => []
/-- The newest save of totals in the banks (R410). -/
def Ledger.savedTotals (l : Ledger) : Store Word :=
  match ledgerPick (bankGet l.bank0 (.totals 0)) (bankGet l.bank1 (.totals 0)),
      ledgerPick (bankGet l.bank0 (.totals 1)) (bankGet l.bank1 (.totals 1)) with
  | some x, some y => totalsOf (if x.seq < y.seq then y.entry.body else x.entry.body)
  | some x, none => totalsOf x.entry.body
  | none, some y => totalsOf y.entry.body
  | none, none => []
/-- An entry that was given to the ledger was never written there: its fact is the one before it. -/
def Ledger.without (l : Ledger) (e : LdgEntry) : Ledger :=
  match e.tag with
  | .opMs => { l with opMs := leNat ((l.bodyOf .opMs).getD []) }
  | .totals _ => { l with totals := l.savedTotals, ring := (l.ring.1, l.ring.2.1, l.ring.2.2 - 1) }
  | .summary _ => { l with summaries := l.summaries.filter (fun r => r.summary != e.body), ring := (l.ring.1 - 1, l.ring.2) }
  | _ => l
/-- The ledger when a FULL reset holds the module: of the entries that wait, one whose commit word is written stands in bank 0;
no other was written (R356, R508). -/
def Ledger.held (l : Ledger) : Ledger :=
  let gone := l.writes.filter (fun w => !w.began)
  gone.foldr (fun w l => l.without w.entry) { l with writes := [], shut := false, writeSeq := l.writeSeq - gone.length }
/-- The ledger at a supply warning: an entry whose commit word is being written completes, the others are refused, and nothing is
accepted but the entries of step 4 of R355 (R356, R511). -/
def State.ledgerWarned (s : State) : State :=
  let s := foldS (s.ledger.writes.filter (fun w => w.began)) (fun _ s => s.ledgerDone) s
  { s with ledger := { s.ledger.held with shut := true } }

/-- Bank 0, or bank 1, shows a read error (R510). -/
def State.bankErr (s : State) (b : Nat) : State :=
  if b = 0 then (s.setF R.REC_LDG_STATUS.BANK0_OK 0).raise E.REC_LDG_EVT.BANK0_ERR
  else (s.setF R.REC_LDG_STATUS.BANK1_OK 0).raise E.REC_LDG_EVT.BANK1_ERR

/-- Copies in a bank lose their content: their CRC does not match (R510). -/
def bankLose (l : List LdgCopy) (gone : LdgTag → Bool) : List LdgCopy :=
  l.map (fun c => if gone c.entry.tag then { c with crc := ~~~(c.entry.crc c.seq) } else c)
/-- The ledger with the copies that a start finds lost. -/
def Ledger.lose (l : Ledger) (lost : List LdgLoss) : Ledger :=
  { l with
    bank0 := bankLose l.bank0 (fun g => lost.any (fun x => x.tag == g && x.bank0))
    bank1 := bankLose l.bank1 (fun g => lost.any (fun x => x.tag == g && x.bank1)) }
/-- The entries of which no bank holds a valid copy. -/
def Ledger.goneEntries (l : Ledger) : List LdgEntry :=
  l.tags.filterMap (fun g => if (l.bodyOf g).isSome then none
    else ((bankGet l.bank0 g).orElse (fun _ => bankGet l.bank1 g)).map (fun c => c.entry))

/-- Every entry is resolved, and both banks hold what was taken; each entry of which a bank lacked it is repaired (R510). `err`:
banks with a read error. -/
def State.ledgerResolve (s : State) (err : Nat) : State :=
  let n := s.ledger.torn.length
  let s := { s with ledger := { s.ledger with bank0 := s.ledger.resolved, bank1 := s.ledger.resolved } }
  let s := foldS (List.range n) (fun _ s => s.raise E.REC_LDG_EVT.REPAIRED) s
  foldS (onesBelow 2 err) (fun b s => s.bankErr b) s

/-- The code of the ordering code in SYS_ID (R38). -/
def orderNum : OrderCode → Nat
  | .m8e => 0
  | .m9a => 1
  | .mx => 2
/-- What production put into the ledger (R507): identity, gauge curve (R362) and calibration. -/
def State.productionEntries (s : State) : List LdgCopy :=
  [(⟨.identity, leBytes 1 (orderNum s.ident.code) ++ beBytes 6 s.ident.mac.toNat⟩ : LdgEntry).copy 0,
   (⟨.gaugeCurve, (List.range 16).flatMap (fun i => leBytes 2 (Config.cellCurve i).1 ++ leBytes 2 (Config.cellCurve i).2)⟩ : LdgEntry).copy 0,
   (⟨.calibration, Config.calibration⟩ : LdgEntry).copy 0]

/-- The region that holds a byte of a bank (R507). -/
def ldgRegionAt (a : Nat) : Option LdgRegion :=
  [LdgRegion.lifeCycle, .summaries, .spares, .boot, .metering, .checkpoint, .counters, .production].find?
    (fun r => decide (r.place.1 ≤ a ∧ a < r.place.1 + r.place.2))

/-- The resolved word at a word address of a bank (R511): from the entries of its region, by a layout that the spec does not
give (assumption 32). -/
def State.ledgerAt (s : State) (w : Nat) : Word :=
  Config.ledgerWord ((s.ledger.resolved ++ s.productionEntries).filter (fun c => some c.entry.tag.region == ldgRegionAt (4 * w))) w

/-- A read of REC_LDG_DATA with the banks that show a read error: the other bank serves it (R510, R511). -/
def State.ledgerRead (s : State) (err : Nat) : State :=
  let s := foldS (onesBelow 2 err) (fun b s => s.bankErr b) s
  let w := s.f R.REC_LDG_ADDR.WORD
  (s.setF R.REC_LDG_ADDR.WORD (w + 1)).answer (s.ledgerAt w)
/-- LEDGER_DATA_READ. -/
def execLedgerDataRead (err : BitVec 2) (s : State) : Res := .next (s.ledgerRead err.toNat)

/-- The bytes of a table of numbers. -/
def tableBytes (m : Store Nat) : List Byte := leBytes 4 m.length ++ m.flatMap (fun e => leBytes 4 e.1 ++ leBytes 8 e.2)
/-- The wear counters (R344): erasures of flash blocks and image slots, laser on-times, when phases came into service. -/
def State.wearBody (s : State) : List Byte :=
  tableBytes s.spares.erases ++ tableBytes [(0, s.spares.slotErases.1), (1, s.spares.slotErases.2)] ++
  tableBytes (s.spares.laserSince.foldl (fun m e => sset erasesDefault m e.1 (sget erasesDefault m e.1 + (s.opTotal - e.2))) s.spares.laserOn) ++
  tableBytes s.spares.phaseSince
/-- Operating time is saved (R493), and with it the wear counters, at moments that R507 does not give (DESIGN CHOICE, assumption
198). -/
def State.opMsSave (s : State) : State :=
  (({ s with ledger := { s.ledger with opMs := s.opMs } }).ledgerWait .opMs (leBytes 8 s.opMs)).ledgerWait .wear s.wearBody
/-- OP_MS_SAVE, between the reading of the ledger at a start and the final saves of a warning (R493, R511). -/
def execOpMsSave (s : State) : Res := .next (s.when (s.rcd.isOpen && !s.rcd.closed) State.opMsSave)

/-- REC_CMD by its code (R512). -/
def State.recCmd (s : State) (v : Nat) : State :=
  match v with
  | 1 => s.recFlush
  | 2 => s.recSelect none
  | 3 => s.recCopy none
  | _ => s

end Sys2Proof.Machine
end

