-- ==== Sys2Proof/Machine/Harrow.lean ====
section
/-! DEFINITION. Harrow passes, spares and degraded operation (R64, R215, R313–R328), and the gleaner (R249–R253). -/
namespace Sys2Proof.Machine
open Sys2Proof

/-! ## Classes and elements (R313, R344) -/

def hcPlane : Nat := 0
def hcBank : Nat := 1
def hcLaser : Nat := 2
def hcEngine : Nat := 3
def hcFlash : Nat := 4
def hcPhase : Nat := 5
def hcQueue : Nat := 6
/-- The element number of a laser, and its parts. -/
def laserEl (engine lane : Nat) : Nat := engine * 256 + lane
def elEngine (el : Nat) : Nat := el / 256 % 32
def elLane (el : Nat) : Nat := el % 8

/-- Keep SYS_HARROW.RUNNING. -/
def State.harrowRunning (s : State) : State := s.setF R.SYS_HARROW.RUNNING s.spares.passes.length

/-! ## Plot states (R38, R324, R327, R328) -/

/-- The codes of SYS_PLOT_STATE. -/
def ptOff : Nat := 0
def ptTest : Nat := 1
def ptRun : Nat := 2
def ptDegraded : Nat := 3
def State.plotState (s : State) (p : Nat) : Nat := getBits (s.r R.SYS_PLOT_STATE.reg) (4 * p) 4
def State.setPlotState (s : State) (p v : Nat) : State :=
  s.setR R.SYS_PLOT_STATE.reg (setBits (s.r R.SYS_PLOT_STATE.reg) (4 * p) 4 v)
/-- 16 µs in ticks: the longest installation of a queue manager's rebuilt state (R313, R320). -/
def installTicks : Nat := 10000
/-- Whether a queue manager's rebuilt state is being installed (R328). -/
def State.installing (s : State) (p : Nat) : Bool := s.spares.installs.any (fun x => x.1 == p && decide (s.opTotal < x.2))
/-- Whether a plot is DEGRADED (R328). -/
def State.plotWeak (s : State) (p : Nat) : Bool :=
  decide (s.activePlanes.length < 8) || decide (s.f (R.FAB_BUF_TOTAL.TOTAL p) < 98304) || s.installing p
/-- Whether plot `p` is without power for want of planes (R324), or of phases: for each phase below 12 one plot from plot 7
down (R327). -/
def State.plotDark (s : State) (p : Nat) : Bool :=
  s.activePlanes == [] || decide (8 ≤ p + (12 - s.f R.SYS_SPARE0.PHASE_ACTIVE))
/-- Bring SYS_PLOT_STATE and the power of the plots up to date (R324, R327, R328). A plot that these rules turned off
comes back once they no longer hold. -/
def State.plotsUpdate (s : State) : State :=
  foldS (List.range 8) (fun p s =>
    let shown := if s.plotWeak p then ptDegraded else ptRun
    if s.spares.plotsOff.contains p then
      if s.plotDark p then s
      else ((s.modSpares (fun x => { x with plotsOff := x.plotsOff.erase p })).setPlotState p shown).plotPortsOn p
    else if s.plotState p = ptOff then s
    else if s.plotDark p then
      ((s.modSpares (fun x => { x with plotsOff := x.plotsOff ++ [p] })).setPlotState p ptOff).plotPortsOff p
    else if s.plotState p = ptTest then s
    else s.setPlotState p shown) s
/-- The installation of a queue manager's rebuilt state ends (R328). -/
def State.installEnd (s : State) : State :=
  let l := s.spares.installs.filter (fun x => decide (s.opTotal < x.2))
  if l.length < s.spares.installs.length then (s.modSpares (fun x => { x with installs := l })).plotsUpdate else s

/-! ## Spare inventory (R318, R323) -/

/-- The last spare of a pool is gone: SPARES_LOW (R323). -/
def State.sparesLow (s : State) (cls pool : Nat) : State := (s.raise E.SYS_FAULT_EVT.SPARES_LOW).record 0x0104 2 cls [w32 pool]
/-- A lasting fault finds its pool empty: SPARES_OUT (R323). -/
def State.sparesOut (s : State) (cls pool : Nat) : State := (s.raise E.SYS_FAULT_EVT.SPARES_OUT).record 0x0105 3 cls [w32 pool]
/-- The pool that a record names when it names none. -/
def noPool : Nat := 0xFFFF

/-- Whether an element is retired. The element of a lane is the laser that serves it: once the fallow laser has been swapped in,
it is that one, which a second retirement of the lane's element ends (R263, R315). -/
def State.isRetired (s : State) (cls el : Nat) : Bool :=
  if cls = hcLaser ∧ s.on (R.PORT_STATUS.SWAPPED (8 * elEngine el + elLane el)) = true then
    decide (2 ≤ s.spares.retired.count (cls, el))
  else s.spares.retired.contains (cls, el)
/-- Whether an element is under a pass or retired. -/
def State.underPass (s : State) (cls el : Nat) : Bool :=
  s.spares.passes.any (fun x => x.cls == cls && x.el == el) || s.isRetired cls el

/-- Whether an element is under a daily pass of R317: a fallow one, which no error has put there. -/
def State.fallowPass (s : State) (cls el : Nat) : Bool := s.spares.passes.any (fun x => x.cls == cls && x.el == el && x.fallow)
/-- The fallow planes, those under a daily pass among them. -/
def State.fallowPlanes (s : State) : List Nat := (List.range 9).filter (fun k => s.plane k == plFallow || s.fallowPass hcPlane k)
/-- Keep the counts of planes in SYS_SPARE0. -/
def State.planeCounts (s : State) : State :=
  (s.setF R.SYS_SPARE0.PLANE_ACTIVE s.activePlanes.length).setF R.SYS_SPARE0.PLANE_FALLOW s.fallowPlanes.length
/-- Keep the count of fallow engines. -/
def State.feCount (s : State) : State :=
  s.setF R.SYS_SPARE0.FE_FALLOW ((List.range 18).filter (fun p => s.engRole p == roleFallow || s.fallowPass hcEngine p)).length

/-! ## Resending (R215) -/

/-- Resend every unacknowledged frame whose plane is not active, in sequence order, on the remaining active planes. -/
def State.resend (s : State) : State :=
  foldS s.fab.flight (fun x s =>
    if x.lead && s.plane x.plane != plActive then
      match s.choosePlane x.src with
      | none => s
      | some k => s.modFab (fun b => { b with flight := b.flight.map (fun y =>
          if y.fid = x.fid ∧ y.src = x.src ∧ y.plane = x.plane ∧ (y.sown = true ∨ y = x) then { y with plane := k } else y) })
    else s) s

/-- Cut-through frames on plane `k` that had begun to leave an egress port, each with that port and the bytes that had left, are
ended there with an inverted FCS, and their resent copies will be discarded (R211, R215). Another copy of such a frame, which
has not begun to leave its own port, crosses again like any frame. -/
def State.stompOn (s : State) (k : Nat) (begun : List (Nat × Nat × Nat)) : State :=
  foldS (s.fab.flight.filter (fun x => x.plane == k && x.frame.ct)) (fun x s =>
    match begun.find? (fun b => b.1 == x.fid && x.targets.contains b.2.1) with
    | none => s
    | some b =>
      let n := b.2.1
      let s := s.leave n x.frame b.2.2 (x.frame.tciOut n) (s.hsrAt n x.frame) true
      s.modFab (fun b => { b with flight := b.flight.map (fun y => if y = x then { y with dead := true } else y) })) s

/-- A plane leaves the active set in every plot and its place is vacant (R215, R319). -/
def State.planeOut (s : State) (k : Nat) (begun : List (Nat × Nat × Nat)) : State :=
  let s := ((s.stompOn k begun).setPlane k plHarrow).monitorOff k
  ((s.modSpares (fun x => { x with vacant := x.vacant ++ [k] })).planeCounts.resend).plotsUpdate

/-- A fallow plane completes its start-up handshake and joins the active set, in the place that has been vacant longest
(R318, R319). -/
def State.planeJoin (s : State) (k : Nat) : State :=
  if s.plane k = plFallow ∧ s.activePlanes.length < 8 then
    (((s.setPlane k plActive).modSpares (fun x => { x with vacant := x.vacant.drop 1 })).planeCounts.resend).plotsUpdate
  else s
/-- PLANE_JOIN of plane `k`. -/
def execPlaneJoin (k : Fin 9) (s : State) : Res := .next (s.planeJoin k)
/-- The planes at a start, as the inventory is rebuilt (R205, R316): one that the ledger says nothing of becomes active while the
active set and its vacant places leave one free, and fallow after that (DESIGN CHOICE, assumption 180). -/
def State.planesStart (s : State) : State :=
  (foldS (List.range 9) (fun k s =>
    if s.plane k = plOff then
      s.setPlane k (if s.activePlanes.length + s.spares.vacant.length < 8 then plActive else plFallow)
    else s) s).planeCounts
/-- The lowest-numbered fallow plane. -/
def State.fallowPlane (s : State) : Option Nat := (List.range 9).find? (fun k => s.plane k == plFallow)

/-! ## Engines (R64, R326) -/

def logicalNone : Nat := 0xFF
/-- A physical engine is retired. -/
def State.engRetire (s : State) (p : Nat) : State :=
  ((((s.setEngRole p roleRetired).setEngState p stReset).setF (R.FE_STATUS.LOGICAL p) logicalNone).setEng p Engine.off)
/-- Logical engine `l` starts on physical engine `q` by R43, with a RESTART event (R64); while the engines do not run it waits
there for its start (R333, R334). -/
def State.engMove (s : State) (l q code pc : Nat) : State :=
  let s := ((s.setPhys l q).setF (R.FE_STATUS.LOGICAL q) l).setEngRole q roleActive
  if s.enginesRun then (s.engRestart q l stRun).restartEvent l code pc
  else (s.setEng q Engine.off).setEngState q stReset
/-- The lowest-numbered fallow engine. -/
def State.fallowEngine (s : State) : Option Nat := (List.range 18).find? (fun p => s.engRole p == roleFallow)
/-- The highest-numbered logical engine that is running (R326). -/
def State.topEngine (s : State) : Option Nat := (List.range 16).reverse.find? s.engActive
/-- A logical engine stops for want of silicon (R326). -/
def State.stopEngine (s : State) (l : Nat) : State :=
  let s := (s.engDropAll l).setPhys l 0x1F
  let s := { s with fe := { s.fe with stopped := s.fe.stopped ++ [l] } }
  (s.raise E.SYS_FAULT_EVT.ENG_STOP).setF R.SYS_SPARE0.FE_STOPPED (s.f R.SYS_SPARE0.FE_STOPPED + 1)

/-- A physical engine fails its pass (R64, R325, R326): whether a spare was brought in. -/
def State.engLasting (s : State) (p : Nat) : Bool × State :=
  let l := s.logicalOf p
  let code := s.f (R.FE_EXC.CODE p)
  let pc := s.f (R.FE_EXC.PC p)
  let s := s.engRetire p
  match s.fallowEngine with
  | some q =>
    let s := (s.engMove l q code pc).feCount
    (true, if s.f R.SYS_SPARE0.FE_FALLOW = 0 then s.sparesLow hcEngine noPool else s)
  | none =>
    let s := (s.setPhys l 0x1F).sparesOut hcEngine noPool
    match (List.range 16).reverse.find? (fun i => (s.engActive i || i == l) && !s.fe.stopped.contains i) with
    | none => (false, s)
    | some h =>
      if h = l then (false, s.stopEngine l)
      else
        let q := s.physOf h
        (false, ((s.stopEngine h).engMove l q code pc))

/-! ## Outcomes (R314, R316, R323, R325) -/

/-- SYS_FAULT_LAST and the HARROW record of an outcome: 0 transient, 1 lasting with a spare, 2 lasting without. -/
def State.outcome (s : State) (cls el out : Nat) : State :=
  let s := ((s.setF R.SYS_FAULT_LAST.CLASS cls).setF R.SYS_FAULT_LAST.OUTCOME out).setF R.SYS_FAULT_LAST.ELEMENT el
  s.record 0x0103 (if out = 0 then 1 else 2) cls [s.r R.SYS_FAULT_LAST.reg]

/-- A pass that succeeds: transient (R314). -/
def State.transient (s : State) (cls el : Nat) : State :=
  ((s.modSpares (fun x => { x with transients := x.transients ++ [(cls, el, s.opTotal)] })).raise E.SYS_FAULT_EVT.TRANSIENT).outcome cls el 0

/-- The fallow bank of a plot, when it has one that can be taken. -/
def State.fallowBank (s : State) (p : Nat) : Option Nat :=
  let b := sget (fun _ => 8) s.spares.bank p
  if (s.f R.SYS_SPARE0.BANK_FALLOW).testBit p && !s.spares.passes.any (fun x => x.cls == hcBank && x.fallow && elPlot x.el == p) then
    some b else none
/-- The eighth of plot `p`'s indices that lie in a bank. -/
def State.bankPart (s : State) (p bank : Nat) : Option Nat :=
  (List.range 8).find? (fun e => sget bankDefault s.spares.bankOf (8 * p + e) == bank && !s.spares.gone.contains (p, e))
/-- The cells of an eighth of plot `p` that the free list does not hold. -/
def State.heldIn (s : State) (p e : Nat) : List Nat :=
  ((s.fab.cells.map (·.1)).filter (fun c => c / 131072 == p && c % 131072 / bankCells == e && !s.cellListed p (c % 131072) .free)).map
    (· % 131072)
/-- Bank `b` takes over the indices of eighth `e`, which lay in bank `old`: the free ones at once, the held ones as they are
released (R321). -/
def State.bankRemap (s : State) (p e old b : Nat) : State :=
  let held := (s.heldIn p e).map (fun i => (p, old, i))
  (s.modSpares (fun x => { x with
    bankOf := sset bankDefault x.bankOf (8 * p + e) b, leaving := x.leaving ++ held })).bankEmptied p old
/-- Eighth `e` of plot `p` is lost with its bank (R229): its free cells leave the free list. -/
def State.bankGone (s : State) (p e : Nat) : State :=
  let s := s.modSpares (fun x => { x with gone := x.gone ++ [(p, e)] })
  let s := s.setFreed p ((s.freedCells p).filter (fun i => i / bankCells != e))
  s.setF (R.FAB_BUF_TOTAL.TOTAL p) (s.f (R.FAB_BUF_TOTAL.TOTAL p) - bankCells)

/-- A bank is lost (R321, R325, R239). A row of a bank that has been replaced already takes no further spare. -/
def State.bankLasting (s : State) (el : Nat) : Bool × State :=
  let p := elPlot el
  match s.bankPart p (elBank el), s.fallowBank p with
  | none, _ => (true, s)
  | some e, some b => (true, ((s.bankRemap p e (elBank el) b).setFBit R.SYS_SPARE0.BANK_FALLOW p false).sparesLow hcBank p)
  | some e, none =>
    let s := s.bankGone p e
    let s := if s.minShort p then s.raise (E.FAB_BUF_EVT.MIN_SHORT p) else s
    (false, (s.sparesOut hcBank p).plotsUpdate)

/-- A laser is lost (R263, R325): the engine's fallow laser is swapped in, an element like any other from then on (R315), or the
port fails. -/
def State.laserLasting (s : State) (el : Nat) : Bool × State :=
  let e := elEngine el
  let n := 8 * e + elLane el
  if (s.f R.SYS_SPARE1.LASER_FALLOW).testBit e then
    let on := s.spares.laserSince.any (fun y => y.1 == s.portLaser n)
    let s := (s.laserSet (s.portLaser n) false).setFBit R.SYS_SPARE1.LASER_FALLOW e false
    let s := ((s.raise (E.PORT_EVT.LASER_SWAP n)).setF (R.PORT_STATUS.SWAPPED n) 1).record 0x0801 1 n [0]
    let s := s.laserSet (s.portLaser n) on
    let s := s.modSpares (fun x => { x with transients := x.transients.filter (fun y => !(y.1 == hcLaser && y.2.1 == el)) })
    (true, s.sparesLow hcLaser e)
  else (false, (s.sparesOut hcLaser e).portFail n)

/-- The block of the 8,192 in use that flash block `q` holds; none for a fallow one. -/
def State.flashHeld (s : State) (q : Nat) : Option Nat :=
  match s.spares.flashAt.find? (fun e => e.2.1 == q && !s.spares.logGone.contains e.1) with
  | some e => some e.1
  | none =>
    if q < 8192 && !s.spares.flashAt.any (fun e => e.1 == q) && !s.spares.logGone.contains q then some q else none
/-- The lowest-numbered fallow flash block: 8,192–8,447 at first (R318, assumption 155). -/
def State.fallowFlash (s : State) : Option Nat :=
  (rangeFrom 8192 256).find? (fun q => !s.spares.flashAt.any (fun e => e.2.1 == q) && !s.underPass hcFlash q)
/-- The erasures of an image slot that a block of its region has seen. -/
def State.regionErases (s : State) (b : Nat) : Nat :=
  match flashRegionOf b with
  | .image n => if n = 0 then s.spares.slotErases.1 else s.spares.slotErases.2
  | _ => 0
/-- Flash block `q` takes over block `b` of those in use (R322). -/
def State.flashMove (s : State) (b q : Nat) : State :=
  s.modSpares (fun x => { x with flashAt := sset flashHome x.flashAt b (q, s.regionErases b) })
/-- The log gives up the block after the current one, which takes over block `b` of those in use (R325; DEDUCED, assumption
155). -/
def State.logGive (s : State) (b : Nat) : State :=
  let g := s.logNext s.rcd.block
  let q := s.flashBlock g
  let s := (s.logErase g).modSpares (fun x => { x with logGone := x.logGone ++ [g] })
  if g = b then s else s.flashMove b q
/-- A region becomes read-only; an image slot becomes unusable, INVALID from then on (R325). -/
def State.regionStuck (s : State) (r : FlashRegion) : State :=
  let s := s.modSpares (fun x => { x with readOnly := if x.readOnly.contains r then x.readOnly else x.readOnly ++ [r] })
  match r with
  | .image n =>
    (if n = 0 then { s with svc := { s.svc with slot0 := { s.svc.slot0 with st := 4 } } }
     else { s with svc := { s.svc with slot1 := { s.svc.slot1 with st := 4 } } }).ledgerCommit (.imgSlot n) (leBytes 1 4)
  | _ => s

/-- A flash block in use is lost (R322, R325). Its content goes to the spare; without one the log gives up a block, down to 64,
and beyond that the region becomes read-only. -/
def State.flashLasting (s : State) (q : Nat) : Bool × State :=
  let s := s.setF R.SYS_SPARE2.FLASH_RETIRED (s.f R.SYS_SPARE2.FLASH_RETIRED + 1)
  match s.flashHeld q, s.fallowFlash with
  | some b, some k =>
    let n := s.f R.SYS_SPARE2.FLASH_FALLOW - 1
    let s := (s.flashMove b k).setF R.SYS_SPARE2.FLASH_FALLOW n
    (true, if n = 0 then s.sparesLow hcFlash noPool else s)
  | some b, none =>
    let s := s.sparesOut hcFlash noPool
    (false, if 64 < s.logBlocks then s.logGive b else s.regionStuck (flashRegionOf b))
  | none, _ => (false, s)

/-- A regulator phase is lost (R327). -/
def State.phaseLasting (s : State) : Bool × State :=
  match s.spares.phases.find? (fun n => !s.fallowPass hcPhase n) with
  | none =>
    let s := s.setF R.SYS_SPARE0.PHASE_ACTIVE (s.f R.SYS_SPARE0.PHASE_ACTIVE - 1)
    (false, (s.sparesOut hcPhase noPool).plotsUpdate)
  | some n =>
    let rest := s.spares.phases.erase n
    let s := (s.modSpares (fun x => { x with
      phases := rest, phaseSince := sset erasesDefault x.phaseSince n s.opTotal })).setF R.SYS_SPARE0.PHASE_FALLOW rest.length
    (true, if rest = [] then s.sparesLow hcPhase noPool else s)

/-- A plane is lost: its place is the fallow plane's, when there is one (R318, R319). SPARES_LOW is judged at the outcome
(DEDUCED, assumption 25). -/
def State.planeLasting (s : State) (k : Nat) : Bool × State :=
  let s := (s.setPlane k plRetired).planeCounts
  let low := fun (s : State) => if s.fallowPlanes = [] then s.sparesLow hcPlane noPool else s
  if s.spares.vacant.contains k then
    match s.fallowPlane with
    | some j => (true, low ((s.modSpares (fun x => { x with vacant := k :: x.vacant.erase k })).planeJoin j))
    | none => (false, (s.sparesOut hcPlane noPool).plotsUpdate)
  else (true, low s)

/-- A lasting fault of an element (R314): retired, written to the ledger (R316), a spare brought in or the module
degraded. -/
def State.lasting (s : State) (cls el : Nat) : State :=
  let s := (s.modSpares (fun x => { x with retired := x.retired ++ [(cls, el)] })).ledgerCommit (.retired cls el) (leBytes 8 s.opMs) |>.raise E.SYS_FAULT_EVT.LASTING
  let r := match cls with
    | 0 => s.planeLasting el
    | 1 => s.bankLasting el
    | 2 => s.laserLasting el
    | 3 => s.engLasting el
    | 4 => s.flashLasting el
    | _ => s.phaseLasting
  r.2.outcome cls el (if r.1 then 1 else 2)

/-- A fallow element fails its pass, a flash block after an error, another its daily one: it is retired and nothing else changes
(R317). OUTCOME has no code for it, so
it is a free choice of the two lasting ones. -/
def State.fallowLasting (s : State) (cls el : Nat) : State :=
  let s := (s.modSpares (fun x => { x with retired := x.retired ++ [(cls, el)] })).ledgerCommit (.retired cls el) (leBytes 8 s.opMs) |>.raise E.SYS_FAULT_EVT.LASTING
  let s := match cls with
    | 0 =>
      let s := (s.setPlane el plRetired).planeCounts
      if s.fallowPlanes = [] then s.sparesLow cls noPool else s
    | 1 => (s.setFBit R.SYS_SPARE0.BANK_FALLOW (elPlot el) false).sparesLow cls (elPlot el)
    | 3 =>
      let s := (s.engRetire el).feCount
      if s.f R.SYS_SPARE0.FE_FALLOW = 0 then s.sparesLow cls noPool else s
    | 4 =>
      let n := s.f R.SYS_SPARE2.FLASH_FALLOW - 1
      let s := (s.setF R.SYS_SPARE2.FLASH_RETIRED (s.f R.SYS_SPARE2.FLASH_RETIRED + 1)).setF R.SYS_SPARE2.FLASH_FALLOW n
      if n = 0 then s.sparesLow cls noPool else s
    | _ =>
      let s := s.modSpares (fun x => { x with phases := x.phases.filter (· != el) })
      let s := s.setF R.SYS_SPARE0.PHASE_FALLOW s.spares.phases.length
      if s.spares.phases = [] then s.sparesLow cls noPool else s
  let r := s.free
  r.2.outcome cls el (1 + r.1 % 2)

/-! ## Starting a pass (R313–R315) -/

/-- 24 h in ticks. -/
def dayTicks : Nat := 86400 * secTicks
/-- Transient faults that an element recorded within 24 h. -/
def State.recentTransients (s : State) (cls el : Nat) : Nat :=
  (s.spares.transients.filter (fun x => x.1 == cls && x.2.1 == el && decide (s.opTotal < x.2.2 + dayTicks))).length

/-- An error on an element under a pass is counted (R315). -/
def State.countError (s : State) (cls el : Nat) : State :=
  s.modSpares (fun x =>
    let n := ((x.counted.find? (fun y => y.1 == cls && y.2.1 == el)).map (·.2.2)).getD 0
    { x with counted := x.counted.filter (fun y => !(y.1 == cls && y.2.1 == el)) ++ [(cls, el, n + 1)] })

/-- Whether an element that shows an error is a fallow one: a flash block. -/
def State.errorFallow (s : State) (cls el : Nat) : Bool := cls == hcFlash && (s.flashHeld el).isNone
/-- An error on an element (R313–R315): a pass starts, unless one is in progress; an element that recorded seven
transient faults within 24 h is treated as lasting, but for a queue manager, which is never retired. While a warning holds the
FULL reset nothing is detected, and nothing commits (R355, R356). -/
def State.harrow (s : State) (cls el : Nat) : State :=
  if s.power.step = 0 then s
  else if s.underPass cls el then s.countError cls el
  else if cls ≠ hcQueue ∧ 7 ≤ s.recentTransients cls el then
    if s.errorFallow cls el then s.fallowLasting cls el else s.lasting cls el
  else (s.modSpares (fun x => { x with passes := x.passes ++ [⟨cls, el, s.errorFallow cls el⟩] })).harrowRunning

/-- An error on an active plane: it leaves the active set at once (R313, R319). -/
def State.planeError (s : State) (k : Nat) (begun : List (Nat × Nat × Nat)) : State :=
  if s.plane k = plActive then (s.planeOut k begun).harrow hcPlane k
  else if s.underPass hcPlane k then s.countError hcPlane k else s
/-- PLANE_TIMEOUT of plane `k`; `begun` names the cut-through frames that had begun to leave, with the bytes
that had left. -/
def execPlaneTimeout (k : Fin 9) (begun : List (Nat × Nat × Nat)) (s : State) : Res := .next (s.planeError k begun)
/-- TOKEN_PARITY_ERROR on plane `k`. -/
def execTokenParityError (k : Fin 9) (begun : List (Nat × Nat × Nat)) (s : State) : Res := .next (s.planeError k begun)

/-- A frame that holds a cell with an uncorrectable error. -/
def FabFrame.spoilt (f : FabFrame) : FabFrame := { f with cellErr := true }
/-- The frame that holds a cell with an uncorrectable error is marked: at its ingress, or as a copy at egress node `n`; the copies
of a multicast frame in a plot are one (R231, R320). -/
def State.cellHit (s : State) : CellHit → State
  | .stored i => match s.fabFrame i with
    | some f => s.setFrame i (some f.spoilt)
    | none => s
  | .copy i n =>
    let mine := fun (e : TxEntry) => e.fid == i && (if e.multi then plotOf e.node == plotOf n else e.node == n)
    let tx := fun (l : List TxEntry) => l.map (fun e => if mine e then { e with frame := e.frame.spoilt } else e)
    s.modFab (fun b => { b with
      held := b.held.map (fun x => if x.fid == i && x.dst == plotOf n && (x.multi || x.targets.contains n) then
        { x with frame := x.frame.spoilt } else x)
      tx := tx b.tx
      residue := tx b.residue })
/-- A cell error (R313, R320): uncorrectable, or the third corrected error of a row within 1 s. `hit` names the frame that holds
the cell. -/
def State.cellError (s : State) (el : Nat) (uncorr : Bool) (hit : Option CellHit) : State :=
  if uncorr then
    let s := match hit with
      | some h => s.cellHit h
      | none => s
    s.harrow hcBank el
  else
    let old := s.spares.corrected.filter (fun x => decide (s.opTotal < x.2 + secTicks))
    let n := (old.filter (fun x => x.1 == el)).length
    let s := s.modSpares (fun x => { x with corrected := old ++ [(el, s.opTotal)] })
    if 2 ≤ n then s.harrow hcBank el else s
/-- CELL_ECC_ERROR: plot, bank, row, whether it is uncorrectable, and the frame that holds the cell. -/
def execCellEccError (p : Fin 8) (bank : Fin 9) (row : Fin 192) (uncorr : Bool) (hit : Option CellHit) (s : State) : Res :=
  .next (s.cellError (bankEl p bank row) uncorr hit)
/-- LASER_FAULT on a lane of an optical engine. -/
def execLaserFault (e : Fin 32) (lane : Fin 8) (s : State) : Res := .next (s.harrow hcLaser (laserEl e lane))
/-- FLASH_ERROR on a block of the 8,448. -/
def execFlashError (b : Fin 8448) (s : State) : Res := .next (s.harrow hcFlash b)
/-- PHASE_FAULT on a regulator phase. -/
def execPhaseFault (n : Fin 18) (s : State) : Res := .next (s.harrow hcPhase n)
/-- QUEUE_PARITY_ERROR in plot `p`. -/
def execQueueParityError (p : Fin 8) (s : State) : Res := .next (s.harrow hcQueue p)

/-- A correctable error of local store or field memory on an engine is corrected and counted in FE_ECC_CNT (R64, R68). -/
def State.feCorrected (s : State) (p : Nat) : State := s.setF (R.FE_ECC_CNT.CORR p) (satInc 0xFFFF (s.f (R.FE_ECC_CNT.CORR p)))
/-- An exception of hardware origin on an active engine (R62, R64): HW_EXC, the record, and a pass. -/
def State.hwException (s : State) (p code : Nat) (addr : Word) : State :=
  if s.engRole p = roleActive then
    let s := (s.excRecord p code addr).raise (E.FE_EVT.HW_EXC p)
    let s := s.modEng p (fun e => { e with blocked := none, passBrk := false, stepping := false })
    ((s.setEngState p stException).setEngRole p roleHarrow).harrow hcEngine p
  else if s.underPass hcEngine p then s.countError hcEngine p
  else s
/-- HW_EXCEPTION: engine, which of codes 0x40–0x43, and the exception's address; no address: the error is correctable, so
that it raises no exception. Only the errors of 0x40 and 0x41 can be (R64): one of the others raises its own, with address 0. -/
def execHwException (p : Fin 18) (k : Fin 4) (addr : Option Word) (s : State) : Res :=
  .next (if addr = none ∧ k.val < 2 then s.feCorrected p else s.hwException p (0x40 + k) (addr.getD 0))

/-- Once every 24 h: a pass on every fallow plane, bank, engine and phase (R317). A plane and an engine show that they are under
a pass, and none is taken as a spare before the pass has ended. -/
def State.fallowHarrow (s : State) : State :=
  let planes := ((List.range 9).filter (fun k => s.plane k == plFallow)).map (fun k => Pass.mk hcPlane k true)
  let banks := ((List.range 8).filter (fun p => (s.f R.SYS_SPARE0.BANK_FALLOW).testBit p)).map
    (fun p => Pass.mk hcBank (bankEl p (sget (fun _ => 8) s.spares.bank p) 0) true)
  let engs := ((List.range 18).filter (fun p => s.engRole p == roleFallow)).map (fun p => Pass.mk hcEngine p true)
  let phases := s.spares.phases.map (fun n => Pass.mk hcPhase n true)
  let new := (planes ++ banks ++ engs ++ phases).filter (fun x => !s.underPass x.cls x.el)
  let s := (s.modSpares (fun x => { x with passes := x.passes ++ new })).harrowRunning
  foldS new (fun x s => if x.cls = hcPlane then s.setPlane x.el plHarrow else if x.cls = hcEngine then s.setEngRole x.el roleHarrow else s) s
/-- FALLOW_HARROW. -/
def execFallowHarrow (s : State) : Res := .next s.fallowHarrow

/-! ## The end of a pass (R314) -/

/-- An engine's pass succeeds: it restarts by R43 with a RESTART event (R64), once the engines run (R333). -/
def State.engBack (s : State) (p : Nat) : State :=
  let l := s.logicalOf p
  let code := s.f (R.FE_EXC.CODE p)
  let pc := s.f (R.FE_EXC.PC p)
  let s := s.setEngRole p roleActive
  if s.enginesRun then (s.engRestart p l stRun).restartEvent l code pc
  else (s.setEng p Engine.off).setEngState p stReset

/-- A plane's pass succeeds: it returns to the active set, or becomes fallow when its place is taken (R314), a change of the
inventory that goes to the ledger (R316). -/
def State.planeBack (s : State) (k : Nat) : State :=
  if s.spares.vacant.contains k then
    (((s.setPlane k plActive).modSpares (fun x => { x with vacant := x.vacant.erase k })).planeCounts.resend).plotsUpdate
  else ((s.setPlane k plFallow).planeCounts).ledgerCommit (.plane k) (leBytes 1 plFallow)
/-- A fallow element's daily pass succeeds: it is fallow again. -/
def State.fallowBack (s : State) (cls el : Nat) : State :=
  if cls = hcPlane then s.setPlane el plFallow else if cls = hcEngine then s.setEngRole el roleFallow else s

/-- Ownership rebuilt from a walk of the plot's cells (R313, R314): each cell stands in the structure that its tag names when
that lists it, else in the first that lists it, else on the free list, and its tag says so (DESIGN CHOICE, assumption
138). -/
def State.rebuildCell (s : State) (p i : Nat) : State :=
  let t := s.cellTag p i
  let o := if t.owner != .free && s.cellListed p i t.owner then t.owner
    else match (s.cellHolders p).find? (fun h => h.2.contains i) with
      | some h => h.1
      | none => .free
  let s := if s.cellListed p i o then s else s.setFreed p (s.freedCells p ++ [i])
  let s := if o = .free then s
    else
      let s := s.setFreed p ((s.freedCells p).filter (· != i))
      if s.freshFrom p ≤ i then s.setUnlisted p ((s.unlisted p).filter (· != i) ++ [i]) else s
  s.setCellTag p i ⟨o, t.gen⟩
/-- Insert a number in a rising list that does not hold it. -/
def insertUp (n : Nat) : List Nat → List Nat
  | [] => [n]
  | m :: l => if n < m then n :: m :: l else if n = m then m :: l else m :: insertUp n l
/-- The numbers of a list in rising order, each once. -/
def insertAll (l : List Nat) : List Nat := l.foldl (fun a n => insertUp n a) []
/-- The active cells of plot `p` in ascending order, but for those that were never allocated and stand as they did at first:
every one below `freshFrom`, and those beyond it that a tag, the free list or a structure names (R249). -/
def State.walkCells (s : State) (p : Nat) : List Nat :=
  let l := ((s.fab.cells.map (·.1)).filter (fun c => c / 131072 == p)).map (· % 131072) ++ s.unlisted p ++ s.freedCells p ++
    (s.cellHolders p).flatMap (·.2)
  (List.range (s.freshFrom p)).filter (s.cellActive p) ++
    insertAll (l.filter (fun i => decide (s.freshFrom p ≤ i) && s.cellActive p i))
def State.rebuild (s : State) (p : Nat) : State := foldS (s.walkCells p) (fun i s => s.rebuildCell p i) s

/-- A queue manager's pass ends: the rebuilt ownership is installed, which shows for 16 µs, and is judged by the plot's next
gleaner pass (R313, R314, R328; the duration is a DESIGN CHOICE, assumption 145). -/
def State.queueDone (s : State) (p : Nat) : State :=
  let s := s.rebuild p
  (s.modSpares (fun y => { y with
    judged := y.judged ++ [(p, sget (fun _ => []) y.cells p)]
    cells := sset (fun _ => []) y.cells p []
    installs := y.installs ++ [(p, s.opTotal + installTicks)] })).plotsUpdate

/-- Records of a retiring log block that cannot be recovered while it is rewritten (R322, R503). -/
def State.flashBad (s : State) (q : Nat) (bad : List Nat) : State :=
  match s.flashHeld q with
  | some b => s.logRewrite b bad
  | none => s

/-- A pass in progress ends (R314): with none it succeeded, and otherwise the list names the records that a retiring log block
loses. No pass ends while a warning holds the FULL reset (R356). -/
def State.passDone (s : State) (cls el : Nat) (lost : Option (List Nat)) : State :=
  match s.spares.passes.find? (fun x => x.cls == cls && x.el == el) with
  | none => s
  | some x =>
    let s := (s.modSpares (fun y => { y with passes := y.passes.erase x })).harrowRunning
    if cls = hcQueue then s.queueDone el
    else if x.fallow then (if lost.isNone then (s.fallowBack cls el).transient cls el else s.fallowLasting cls el)
    else match lost with
      | none => (if cls = hcPlane then s.planeBack el else if cls = hcEngine then s.engBack el else s).transient cls el
      | some bad => (if cls = hcFlash then s.flashBad el bad else s).lasting cls el
/-- HARROW_PASS_DONE: class, element, and of a pass that failed the numbers of unreadable records of a retiring log block. -/
def execHarrowPassDone (cls : Fin 7) (el : BitVec 24) (lost : Option (List (BitVec 64))) (s : State) : Res :=
  .next (s.when (s.power.step != 0) (·.passDone cls el.toNat (lost.map (fun l => l.map (·.toNat)))))

/-! ## The gleaner (R249–R253) -/

def leakDefault (_ : Nat) : List (Nat × Nat) := []
def State.suspects (s : State) (p : Nat) : List (Nat × Nat) := sget leakDefault s.fab.suspects p
def State.setSuspects (s : State) (p : Nat) (l : List (Nat × Nat)) : State :=
  (s.modFab (fun b => { b with suspects := sset leakDefault b.suspects p l })).setF (R.FAB_GLN_STATUS.SUSPECTS p) l.length

/-- Apply a change to the cells that a structure lists. -/
def State.modListed (s : State) (p : Nat) (o : CellOwner) (f : List Nat → List Nat) : State :=
  match o with
  | .free => s.setFreed p (f (s.freedCells p))
  | .frame i => match s.fabFrame i with
    | some x => s.setFrame i (some { x with list := f x.list })
    | none => s
  | .repl => s.setReplCells p (f (s.replCells p))
  | .rsm n => s.setRsmCells n (f (s.rsmCells n))
/-- The upsets of a pass in the order in which they happen: changed tags, cells that every structure loses, cells that a
structure lists as well. -/
def upsetsOf (tags : List (Nat × CellTag)) (unlisted : List Nat) (listed : List (Nat × CellOwner)) : List Upset :=
  tags.map (fun x => .tag x.1 x.2) ++ unlisted.map .unlist ++ listed.map (fun x => .list x.1 x.2)
/-- An upset of the queue state (R250, R252). -/
def State.upset (s : State) (p : Nat) : Upset → State
  | .tag i t => s.setCellTag p i ⟨t.owner, t.gen % 256⟩
  | .unlist i =>
    let s := foldS (CellOwner.free :: (s.cellHolders p).map (·.1)) (fun o s => s.modListed p o (·.filter (· != i))) s
    if s.freshFrom p ≤ i then s.setUnlisted p ((s.unlisted p).filter (· != i) ++ [i]) else s
  | .list i o => s.modListed p o (· ++ [i])

/-- Whether a cell is an orphan: the structure that its tag names does not list it (R250). -/
def State.orphan (s : State) (p i : Nat) : Bool := !s.cellListed p i (s.cellTag p i).owner
/-- How many times the structures of a plot, the free list among them, list a cell. -/
def State.listings (s : State) (p i : Nat) : Nat :=
  b2n (s.cellFresh p i) + (s.freedCells p).count i + (s.cellHolders p).foldl (fun n h => n + h.2.count i) 0
/-- Whether a cell is a mismatch: two structures list it, or one other than the free list while its tag says free (R252). -/
def State.cellClash (s : State) (p i : Nat) : Bool :=
  decide (2 ≤ s.listings p i) || ((s.cellTag p i).owner == .free && (s.cellHolders p).any (fun h => h.2.contains i))

/-- A bank row is treated as having failed its own pass (R314): one that is in progress ends so. A row that has been retired
before, whose bank still holds the cell, fails again and takes no further spare. -/
def State.rowFailed (s : State) (el : Nat) : State :=
  let s := (s.modSpares (fun y => { y with passes := y.passes.filter (fun x => !(x.cls == hcBank && x.el == el)) })).harrowRunning
  if s.isRetired hcBank el then (s.raise E.SYS_FAULT_EVT.LASTING).outcome hcBank el 1 else s.lasting hcBank el

/-- A queue manager's pass with the cells that had mismatched is judged (R314): the rows of those that mismatch again are
treated as failed, or the fault was transient. -/
def State.judgeOne (s : State) (p : Nat) (clash cells : List Nat) : State :=
  let rows := ((cells.filter clash.contains).map (s.cellRow p)).eraseDups
  if rows = [] then s.transient hcQueue p
  else foldS rows (fun el s => s.rowFailed el) s
/-- Every pass of plot `p`'s queue manager that waits for its judgement, in the order in which they ended. -/
def State.judge (s : State) (p : Nat) (clash : List Nat) : State :=
  let mine := s.spares.judged.filter (fun x => x.1 == p)
  foldS mine (fun x s => s.judgeOne p clash x.2) (s.modSpares (fun y => { y with judged := y.judged.filter (fun z => z.1 != p) }))

/-- A confirmed leak (R250, R253): the cell returns to the free list; the 65th within the window starts a pass. -/
def State.leak (s : State) (p i : Nat) : State :=
  let s := (s.raise (E.FAB_BUF_EVT.LEAK p)).count (R.FAB_BUF_CNT_LEAK_TOTAL.COUNT p)
  let s := if s.cellListed p i .free then s.setCellTag p i ⟨.free, (s.cellTag p i).gen⟩ else s.cellFree p i
  let n := s.f (R.FAB_GLN_WINDOW.CONFIRMED p) + 1
  if n < 65 then s.setF (R.FAB_GLN_WINDOW.CONFIRMED p) n
  else ((s.setF (R.FAB_GLN_WINDOW.CONFIRMED p) 0).raise (E.FAB_BUF_EVT.HARROW_TRIG p)).harrow hcQueue p

/-- Mismatches of a pass (R252): each records its cell; a DEFICIT above 0x7FFF has none and names a free value. -/
def State.mismatch (s : State) (p : Nat) (clash : List Nat) (deficit : Bool) : State :=
  let one := fun (s : State) (c : Nat) => (s.raise (E.FAB_BUF_EVT.MISMATCH p)).record 0x0703 2 p [w32 c]
  let s := foldS clash (fun c s => one s c) s
  let s := if deficit then (let r := s.free; one r.2 r.1) else s
  (s.modSpares (fun y => { y with cells := sset (fun _ => []) y.cells p clash })).harrow hcQueue p

/-- The sum of R249. -/
def State.cellSum (s : State) (p : Nat) : Nat := s.freeCells p + s.voqOwned p + s.replOwned p + s.rsmOwned p

/-- A gleaner pass over plot `p`, before which `upsets` have struck the queue state since the pass before (R249–R252): the
counts are captured, the mismatched cells and the orphans found, the suspects of the pass before confirmed or released. -/
def State.gleanerPass (s : State) (p : Nat) (upsets : List Upset) : State :=
  let s := foldS upsets (fun u s => s.upset p u) s
  let lost := s.f (R.FAB_BUF_TOTAL.TOTAL p) - s.cellSum p
  let s := s.setF (R.FAB_GLN_STATUS.DEFICIT p) (min lost 0xFFFF)
  let walk := s.walkCells p
  let clash := walk.filter (s.cellClash p)
  let orphans := (walk.filter (s.orphan p)).map (fun i => (i, (s.cellTag p i).gen))
  let s := s.judge p clash
  let confirmed := (s.suspects p).filter orphans.contains
  let s := foldS confirmed (fun x s => s.leak p x.1) s
  let s := s.setSuspects p ((orphans.filter (fun x => !confirmed.contains x)).take 4096)
  if clash != [] || decide (0x7FFF < lost) then s.mismatch p clash (decide (0x7FFF < lost)) else s
/-- GLEANER_PASS. -/
def execGleanerPass (p : Fin 8) (tags : List (Nat × CellTag)) (unlisted : List Nat) (listed : List (Nat × CellOwner))
    (s : State) : Res := .next (s.gleanerPass p (upsetsOf tags unlisted listed))
/-- The leak window of plot `p` reaches 3,600 s (R253). -/
def execLeakWindowExpire (p : Fin 8) (s : State) : Res := .next (s.setF (R.FAB_GLN_WINDOW.CONFIRMED p) 0)


/-! ## Wear (R344) -/

/-- The erase count of block `b` of those in use. -/
def State.eraseCount (s : State) (b : Nat) : Nat :=
  let h := sget flashHome s.spares.flashAt b
  sget erasesDefault s.spares.erases h.1 + (s.regionErases b - h.2) + Config.flashUse b s.opMs
/-- The flash blocks in use. -/
def State.flashInUse (s : State) : List Nat := (List.range 8192).filter (fun b => !s.spares.logGone.contains b)
/-- The on-time of laser `z` in ticks. -/
def State.laserTime (s : State) (z : Nat) : Nat :=
  sget erasesDefault s.spares.laserOn z + (match s.spares.laserSince.find? (fun e => e.1 == z) with
    | some e => s.opTotal - e.2
    | none => 0)
/-- Ticks in an hour. -/
def hourTicks : Nat := 3600 * secTicks
/-- Wear item `i`; how a mean that is no integer is rounded the spec does not say. -/
def State.wearItem (s : State) (i : Nat) : Nat :=
  let top (l : List Nat) : Nat := l.foldl max 0
  match i with
  | 0 => top (s.flashInUse.map s.eraseCount)
  | 1 =>
    let sum := (s.flashInUse.map s.eraseCount).foldl (· + ·) 0
    let n := s.flashInUse.length
    sum / n + b2n (sum % n != 0 && Config.roundUp sum n)
  | 2 => top ((List.range 288).map s.laserTime) / hourTicks
  | 3 => top (((List.range 18).filter (fun n => !s.spares.phases.contains n && !s.spares.retired.contains (hcPhase, n))).map
      (fun n => s.opTotal - sget erasesDefault s.spares.phaseSince n)) / hourTicks
  | _ => 0

end Sys2Proof.Machine
end

