-- ==== Sys2Proof/Machine/Meter.lean ====
section
/-! DEFINITION. Feeder metering (R398–R422): samples, crossings, transients, windows, totals, captures, estimates. -/
namespace Sys2Proof.Machine
open Sys2Proof

/-- Change the metering state. -/
def State.modMtr (s : State) (f : Mtr → Mtr) : State := { s with mtr := f s.mtr }
/-- The module samples and integrates: metering is enabled, a start has loaded the totals (R410), the input is valid, and no
warning or SHUTDOWN has ended the start (R357, R409). -/
def State.mtrOn (s : State) : Bool := s.on R.MTR_CFG.EN && s.power.inputOk && s.mtr.loaded

/-- Raw code `c` of a sample. -/
def rawOf (x : List Int) (c : Nat) : Int := x.getD c 0
/-- A clipped raw code (R400). -/
def clipped (x : Int) : Bool := x == -8388608 || x == 8388607

/-- The converted value of a raw code: y of R401 times 2³⁹. -/
def State.mtrY (s : State) (c : Nat) (x : Int) : Int :=
  (x - 256 * toSigned 16 (s.f (R.MTR_CH_CAL1.OFFSET c))) * (65536 + toSigned 16 (s.f (R.MTR_CH_CAL0.GAIN c))) *
    (s.f (R.MTR_CH_CAL0.FS c) : Int)

/-- The sample at an index, held at the ends of what is stored. -/
def sampleAt (h : List (Stamp × List Int)) (i : Int) : List Int :=
  ((h[min i.toNat (h.length - 1)]?).map (fun e => e.2)).getD []

/-- The converted and shifted value at index `i`, times 2³⁹ × 1,250 (R401): a later shift by DELAY × 0.1 µs. A sample that
an earlier shift needs and that has not been taken is taken as the newest (assumption 36). -/
def State.shiftY (s : State) (h : List (Stamp × List Int)) (c : Nat) (i : Nat) : Int :=
  let d := toSigned 16 (s.f (R.MTR_CH_CAL1.DELAY c))
  let p := (i : Int) - d / 1250
  let r := d % 1250
  (1250 - r) * s.mtrY c (rawOf (sampleAt h p) c) + r * s.mtrY c (rawOf (sampleAt h (p - 1)) c)

/-- The unit of shifted values: 2³⁹ × 1,250. -/
def mtrK : Nat := 2 ^ 39 * 1250

/-- A quotient in a register: exact, or rounded as the spec leaves it (assumption 35). -/
def regDiv (n : Int) (d : Nat) : Int :=
  if n % (d : Int) = 0 then n / (d : Int) else n / (d : Int) + (if Config.roundUp n d then 1 else 0)
/-- The integer part of a square root. -/
def isqrt (n : Nat) : Nat := searchMax (fun r => decide (r * r ≤ n)) (n.log2 / 2 + 1) 0
/-- A square root in a register. -/
def regSqrt (n : Nat) : Nat := if isqrt n * isqrt n = n then isqrt n else isqrt n + b2n (Config.rootUp n)
/-- The square root of a quotient in a register. -/
def regSqrtDiv (n d : Nat) : Nat :=
  let q := isqrt (n / d)
  if q * q * d = n then q else q + b2n (Config.rootUp n)

/-! ## Crossings (R405, R406) -/

def zcDefault (_ : Nat) : Zc := Zc.zero
/-- The detector of voltage channel `v`. -/
def State.zc (s : State) (v : Nat) : Zc := sget zcDefault s.mtr.zc v
def State.setZc (s : State) (v : Nat) (z : Zc) : State := s.modMtr (fun m => { m with zc := sset zcDefault m.zc v z })

/-- NO_MAINS on a voltage channel. -/
def State.noMains (s : State) (v : Nat) : Bool := (s.f R.MTR_STATUS.NO_MAINS_NOW).testBit v
/-- ZC_TMO in 2⁻¹⁶ ns. -/
def State.zcTmo (s : State) : Nat := s.f R.MTR_CFG.ZC_TMO * 1000000 * 65536

/-- A crossing is accepted (R403, R405, R406). -/
def State.zcAccept (s : State) (v : Nat) (c : Cand) : State :=
  let z := s.zc v
  let inTime := decide (c.instant ≤ z.last + s.zcTmo)
  let good := if inTime then z.good + 1 else 0
  let z := { z with negative := !c.rising, cand := none, last := c.instant, good := good }
  let z := if c.rising then
      { z with rising := z.rising + 1, rose := c.instant, periods := if z.first = 0 then 0 else z.periods + 1,
               first := if z.first = 0 then c.instant else z.first }
    else z
  let s := s.setZc v z
  if s.noMains v && decide (2 ≤ good) then
    ((s.setFBit R.MTR_STATUS.NO_MAINS_NOW v false)).record 0x0902 1 v [0]
  else s

/-- A sample of voltage channel `v`: the earlier sample's value and instant in 2⁻¹⁶ ns, and this value (R405). -/
def State.zcSample (s : State) (v : Nat) (ya : Int) (ta : Nat) (y : Int) : State :=
  let z := s.zc v
  let before := if z.cand.isSome then !z.negative else z.negative
  let neg := if y = 0 then before else decide (y < 0)
  if neg = z.negative then s.setZc v { z with cand := none }
  else
    let c := match z.cand with
      | some c => { c with kept := c.kept + 1 }
      | none => ⟨z.negative, ta + 125000 * 65536 * ya.natAbs / (ya.natAbs + y.natAbs), 1⟩
    if 5 ≤ c.kept then s.zcAccept v c else s.setZc v { z with cand := some c }

/-- A busbar's phases all have NO_MAINS. -/
def State.busNoMains (s : State) (b : Nat) : Bool := (List.range 3).all (fun q => s.noMains (3 * b + q))

/-- Samples of a half-cycle (R408): 80, or 67 for 8.333 ms. -/
def State.halfCycle (s : State) : Nat := if s.on R.MTR_CFG.NOM then 67 else 80

/-- V_rms of phase `q` over the latest half-cycle lies below THR (R408). Before a half-cycle has been sampled there is none. -/
def State.halfLow (s : State) (b q : Nat) : Bool :=
  let n := s.halfCycle
  let h := s.mtr.hist
  let c := 48 + 3 * b + q
  let e := (rangeFrom (h.length - n) (min n h.length)).foldl (fun a i => a + (s.shiftY h c i).natAbs ^ 2) 0
  decide (n ≤ h.length) && decide (e < s.f R.MTR_COLLAPSE_CFG.THR ^ 2 * mtrK ^ 2 * n)

/-- The condition of a collapse of busbar `b` (R408). -/
def State.busLow (s : State) (b : Nat) : Bool := s.busNoMains b || (List.range 3).all (fun q => s.halfLow b q)

/-! ## Totals (R409, R410) -/

/-- Offsets of the low words of the energy totals. -/
def totalLows : List Nat :=
  ((List.range 12).map (fun f => ((List.range 3).map (fun q => (List.range 5).map (fun e => 0x1000 + 0x100 * f + 0x40 * q + 8 * e))).flatten ++
    (List.range 5).map (fun e => 0x10C0 + 0x100 * f + 8 * e))).flatten

/-- Whether an offset holds a word of a total. -/
def isTotal (a : Nat) : Bool := totalLows.any (fun l => a == l || a == l + 4)

/-- The totals as they stand. -/
def State.totalsNow (s : State) : Store Word := s.regs.mtr.filter (fun e => isTotal e.1)
/-- The body of a save. -/
def totalsBody (m : Store Word) : List Byte := m.flatMap (fun e => leBytes 2 e.1 ++ leBytes 4 e.2.toNat)
/-- What a save of the totals holds: also one that waits to be written. -/
def State.totalsKeep (s : State) : State :=
  { s with ledger := { s.ledger with
      totals := s.totalsNow
      writes := s.ledger.writes.map (fun w => if w.entry.tag.region = .metering then
        { w with entry := { w.entry with body := totalsBody s.totalsNow } } else w) } }
/-- A save is being written. -/
def Ledger.saving (l : Ledger) : Bool := l.writes.any (fun w => w.entry.tag.region == .metering)
/-- The totals are committed to the ledger, in the other of the two save slots (R409, R507). -/
def State.totalsCommit (s : State) : State :=
  let n := s.ledger.ring.2.2
  let s := ({ s with ledger := { s.ledger with
    totals := s.totalsNow, ring := (s.ledger.ring.1, s.ledger.ring.2.1, n + 1) } }).ledgerWait (.totals (n % 2)) (totalsBody s.totalsNow)
  (s.modMtr (fun m => { m with saved := some s.opMs })).raise E.MTR_EVT.SAVED
/-- A cause of a save (R409): while a save is being written there is one save, which holds the totals as they stand now (DESIGN
CHOICE, assumption 165). Before a start has loaded the totals there is nothing to save. -/
def State.totalsSave (s : State) : State :=
  if !s.mtr.loaded then s else if s.ledger.saving then s.totalsKeep else s.totalsCommit
/-- TOTALS_SAVE. -/
def execTotalsSave (s : State) : Res := .next s.totalsSave
/-- SAVE_NOW. -/
def execSaveNow (s : State) : Res := .next (s.viaWrite R.MTR_CMD.reg State.totalsSave)

/-- Load every total from the newest save (R410). -/
def State.totalsLoad (s : State) : State :=
  foldS totalLows (fun a s => (s.wr .mtr a (sget (regReset .mtr) s.ledger.totals a)).wr .mtr (a + 4)
    (sget (regReset .mtr) s.ledger.totals (a + 4))) s

/-- CLEAR: every total 0, in SERVICE only (R410). -/
def State.totalsClear (s : State) : State :=
  if s.lcState = lcService then
    let s := foldS totalLows (fun a s => (s.wr .mtr a 0).wr .mtr (a + 4) 0) s
    (s.modMtr (fun m => { m with rest := [] })).totalsCommit
  else s.raise E.MTR_EVT.REFUSED
/-- CLEAR. -/
def execClear (s : State) : Res := .next (s.viaWrite R.MTR_CMD.reg State.totalsClear)

/-- MTR_CMD by its code. -/
def State.mtrCmd (s : State) (v : Nat) : State :=
  match v with
  | 1 => s.totalsSave
  | 2 => s.totalsClear
  | _ => s

/-- COLLAPSE of a busbar. -/
def State.collapse (s : State) (b : Nat) : State :=
  if s.mtrOn && s.busLow b && !(s.f R.MTR_STATUS.COLLAPSE_NOW).testBit b then
    (((s.setFBit R.MTR_STATUS.COLLAPSE_NOW b true).raise E.MTR_EVT.COLLAPSE).record 0x0904 2 b [0]).totalsSave
  else s
/-- COLLAPSE. -/
def execCollapse (b : Fin 2) (s : State) : Res := .next (s.collapse b)

/-- NO_MAINS: no crossing has been accepted for ZC_TMO (R406). -/
def State.noMainsRaise (s : State) (v : Nat) : State :=
  if s.mtrOn && !s.noMains v && decide ((s.zc v).last + s.zcTmo ≤ stampUnits s.now) then
    let s := (s.setFBit R.MTR_STATUS.NO_MAINS_NOW v true).raise E.MTR_EVT.NO_MAINS
    let s := s.setZc v { s.zc v with good := 0 }
    (s.modMtr (fun m => { m with marks := (48 + v, 2) :: m.marks })).record 0x0901 2 v [0]
  else s
/-- NO_MAINS. -/
def execNoMains (v : Fin 6) (s : State) : Res := .next (s.noMainsRaise v)

/-! ## Captures (R411–R415) -/

/-- The channels of the capture mask, ascending. -/
def State.capMask (s : State) : List Nat :=
  onesBelow 54 (s.f R.MTR_CAP_MASK_LO.MASK_LO + s.f R.MTR_CAP_MASK_HI.MASK_HI * 4294967296)

/-- The exponent of a block with peak `p` (R414). -/
def blockExp (p : Nat) : Nat :=
  if p ≤ 32767 then 0 else ((rangeFrom 1 8).find? (fun e => p ≤ 32768 * 2 ^ e)).getD 8

/-- The 33 half-words of a block (R414). -/
def blockWords (l : List Int) : List Nat :=
  let e := blockExp (l.foldl (fun a x => max a x.natAbs) 0)
  (b2n (l.any clipped) * 16 + e) ::
    l.map (fun x => ofSigned 16 (if e = 0 then x else max (-32768) (min 32767 (x / (2 ^ e : Nat)))))

/-- Write a half-word of the capture buffer. -/
def State.capHalf (s : State) (i v : Nat) : State := s.setF ⟨.mtr, 0x800000 + i / 2 * 4, i % 2 * 16, 16⟩ v

/-- Write one block for every masked channel (R415). -/
def State.capWrite (s : State) (part : List (List Int)) : State :=
  let chans := s.capMask
  let part := part ++ List.replicate (32 - part.length) []
  foldS (List.range chans.length) (fun k s =>
    let at_ := s.f R.MTR_CAP_STATUS.BLOCKS * 33
    let l := blockWords (part.map (fun x => x.getD k 0))
    let s := foldS (List.range 33) (fun i s => s.capHalf (at_ + i) (l.getD i 0)) s
    s.setF R.MTR_CAP_STATUS.BLOCKS (s.f R.MTR_CAP_STATUS.BLOCKS + 1)) s

/-- Whether the 8 MiB buffer takes a further block for every masked channel. -/
def State.capRoom (s : State) : Bool :=
  decide ((s.f R.MTR_CAP_STATUS.BLOCKS + s.capMask.length) * 33 ≤ 4194304)

def capZero (_ : Nat) : Int := 0
/-- The energy of feeder `f` over a capture in mWh: its phases that imported (DESIGN CHOICE, assumption 37). -/
def Cap.mWh (c : Cap) (f : Nat) : Nat :=
  let e := (List.range 3).foldl (fun a q => a + max 0 (sget capZero c.energy (3 * f + q))) 0
  (regDiv e (28800000 * mtrK ^ 2)).toNat

/-- How many samples later an earlier shift can reach (R401): DELAY is at least −3,276.8 µs. -/
def shiftReach : Nat := 27
/-- The energies of a capture with the sample at an index of the history added (R402). -/
def State.capAdd (s : State) (st : Store Int) (i : Nat) : Store Int :=
  let h := s.mtr.hist
  let vi := fun f q => s.shiftY h (48 + 3 * s.f (R.MTR_FDR.BUSBAR f) + q) i * s.shiftY h (4 * f + q) i
  ((List.range 12).filter (fun f => s.on (R.MTR_FDR.EN f))).foldl (fun st f =>
    (List.range 3).foldl (fun st q => sset capZero st (3 * f + q) (sget capZero st (3 * f + q) + vi f q)) st) st
/-- The capture's energies take in the samples that they do not hold yet: those whose shift finds the later samples it needs,
and with `all` the others too (assumption 36). -/
def State.capEnergy (s : State) (all : Bool) : State :=
  match s.mtr.cap with
  | none => s
  | some c =>
    let at_ := fun t => s.mtr.hist.findIdx (fun e => e.1 == t)
    let due := c.owed.filter (fun t => all || decide (at_ t + shiftReach < s.mtr.hist.length))
    s.modMtr (fun m => { m with cap := some { c with
      owed := c.owed.filter (fun t => !due.contains t), energy := due.foldl (fun st t => s.capAdd st (at_ t)) c.energy } })

/-- A capture ends with a result (R413). -/
def State.capEnd (s : State) (result : Nat) : State :=
  let s := s.capEnergy true
  match s.mtr.cap with
  | none => s
  | some c =>
    let s := if c.part.isEmpty then s else s.capWrite c.part
    let s := (s.setStampR R.MTR_CAP_FIRST.reg (c.first.getD 0)).setF R.MTR_CAP_COUNT.COUNT c.count
    let s := foldS ((List.range 12).filter (fun f => s.on (R.MTR_FDR.EN f)))
      (fun f s => s.setPairR (R.MTR_CAP_E_LO.reg f) (R.MTR_CAP_E_HI.reg f) (c.mWh f)) s
    let s := (s.setF R.MTR_CAP_STATUS.STATE 3).setF R.MTR_CAP_STATUS.RESULT result
    (s.modMtr (fun m => { m with cap := none })).raise E.MTR_EVT.CAP_DONE

/-- A capture begins: registers of its results. -/
def State.capArm (s : State) (c : Cap) : State :=
  let s := ((s.setF R.MTR_CAP_STATUS.STATE 1).setF R.MTR_CAP_STATUS.RESULT 0).setF R.MTR_CAP_STATUS.BLOCKS 0
  s.modMtr (fun m => { m with cap := some c })

/-- 125 µs in 2⁻¹⁶ ns. -/
def samplePeriod : Nat := 125000 * 65536

/-- The instant of the first sample after now. -/
def State.nextSample (s : State) : Nat :=
  match s.mtr.hist.getLast? with
  | some e => max (stampUnits e.1 + samplePeriod) (stampUnits s.now)
  | none => stampUnits s.now

/-- ARM (R411). -/
def State.capCmdArm (s : State) : State :=
  if s.mtr.cap.isSome then s
  else
    let a := s.stampR R.MTR_CAP_START.reg
    let b := s.stampR R.MTR_CAP_STOP.reg
    if stampUnits b < stampUnits a then s.setF R.MTR_CAP_STATUS.RESULT 1
    else
      let late := decide (samplePeriod ≤ stampUnits b - stampUnits a ∧ stampUnits b ≤ s.nextSample)
      let s := s.capArm ⟨a, b, false, s.stepEpoch, [], none, 0, [], [], false⟩
      if late then s.capEnd 6 else s
/-- ARM. -/
def execArm (s : State) : Res := .next (s.viaWrite R.MTR_CAP_CMD.reg State.capCmdArm)

/-- ARM_SURGE (R412). -/
def State.capCmdSurge (s : State) : State :=
  if s.mtr.cap.isSome then s else s.capArm ⟨0, 0, true, s.stepEpoch, [], none, 0, [], [], false⟩
/-- ARM_SURGE. -/
def execArmSurge (s : State) : Res := .next (s.viaWrite R.MTR_CAP_CMD.reg State.capCmdSurge)

/-- ABORT (R413). -/
def State.capAbort (s : State) : State := s.capEnd 5
/-- ABORT. -/
def execAbort (s : State) : Res := .next (s.viaWrite R.MTR_CAP_CMD.reg State.capAbort)

/-- MTR_CAP_CMD by its code. -/
def State.capCmd (s : State) (v : Nat) : State :=
  match v with
  | 1 => s.capCmdArm
  | 2 => s.capCmdSurge
  | 3 => s.capAbort
  | _ => s

/-- Whether an interval has zero length (R295). -/
def Cap.zeroLen (c : Cap) : Bool := decide (stampUnits c.stop < stampUnits c.start + samplePeriod)

/-- A timed capture reaches START (R411). -/
def State.captureStart (s : State) : State :=
  match s.mtr.cap with
  | none => s
  | some c =>
    if s.f R.MTR_CAP_STATUS.STATE = 1 ∧ c.surge = false ∧ s.reached c.start = true then
      if c.zeroLen then s.capEnd 2 else s.setF R.MTR_CAP_STATUS.STATE 2
    else s
/-- CAPTURE_START. -/
def execCaptureStart (s : State) : Res := .next s.captureStart

/-- A capture takes the sample at an index of the history (R402, R411, R414). -/
def State.capTake (s : State) (i : Nat) : State :=
  match s.mtr.cap, s.mtr.hist[i]? with
  | some c, some e =>
    if s.f R.MTR_CAP_STATUS.STATE = 2 ∧ c.full = false ∧ stampUnits c.start ≤ stampUnits e.1 ∧ stampUnits e.1 < stampUnits c.stop then
      if c.part.isEmpty && !s.capRoom then s.modMtr (fun m => { m with cap := some { c with full := true } })
      else
        let part := c.part ++ [s.capMask.map (rawOf e.2)]
        let c := { c with part := part, first := some (c.first.getD e.1), count := c.count + 1, owed := c.owed ++ [e.1] }
        if 32 ≤ part.length then
          (s.capWrite part).modMtr (fun m => { m with cap := some { c with part := [] } })
        else s.modMtr (fun m => { m with cap := some c })
    else s
  | _, _ => s

/-- A capture ends: at STOP, after a step, or with a full buffer (R411, R413). -/
def State.captureStop (s : State) : State :=
  match s.mtr.cap with
  | none => s
  | some c =>
    if c.step ≠ s.stepEpoch then s.capEnd 4
    else if c.full then s.capEnd 3
    else if s.f R.MTR_CAP_STATUS.STATE = 2 ∧ s.reached c.stop = true then s.capEnd 0
    else s
/-- CAPTURE_STOP. -/
def execCaptureStop (s : State) : Res := .next s.captureStop

/-- The first SURGE sample on a masked channel triggers an armed surge capture; it takes what the last 100 ms hold of its
interval, but for the sample now (R412). -/
def State.capTrigger (s : State) (ch : Nat) : State :=
  match s.mtr.cap with
  | none => s
  | some c =>
    if s.f R.MTR_CAP_STATUS.STATE = 1 ∧ c.surge = true ∧ s.capMask.contains ch = true then
      let pre := min 100 (s.f R.MTR_CAP_TRIG.PRE)
      let a := stampAddNs s.now (-(pre * 1000000 : Nat))
      let b := stampAddNs a (s.f R.MTR_CAP_TRIG.LEN * 1000000 : Nat)
      let s := s.modMtr (fun m => { m with cap := some { c with start := a, stop := b } })
      if s.f R.MTR_CAP_TRIG.LEN = 0 then s.capEnd 2
      else foldS (List.range (s.mtr.hist.length - 1)) (fun i s => s.capTake i) (s.setF R.MTR_CAP_STATUS.STATE 2)
    else s

/-! ## Transients (R407) -/

def transDefault (_ : Nat) : Option Trans := none
/-- The transient in progress on channel `c`. -/
def State.trans (s : State) (c : Nat) : Option Trans := sget transDefault s.mtr.trans c
def State.setTrans (s : State) (c : Nat) (x : Option Trans) : State :=
  let s := s.modMtr (fun m => { m with trans := sset transDefault m.trans c x })
  if 48 ≤ c then s.setFBit R.MTR_STATUS.SURGE_V_NOW (c - 48) x.isSome else s

/-- A sample of channel `c`: magnitude times 2³⁹, whether it clips (R407). -/
def State.surgeSample (s : State) (c mag : Nat) (clip : Bool) : State :=
  let thr := if 48 ≤ c then s.f R.MTR_SURGE_CFG.V_THR else s.f R.MTR_SURGE_CFG.I_THR
  let above := decide (thr * s.f (R.MTR_CH_CAL0.FS c) * 2 ^ 39 < mag * 1000)
  match s.trans c with
  | some t => s.setTrans c (some { t with peak := max t.peak mag, samples := t.samples + 1, clipped := t.clipped + b2n clip,
                                          below := if above then 0 else t.below + 1 })
  | none =>
    if above then
      ((s.setTrans c (some ⟨s.now, mag, 1, b2n clip, 0⟩)).modMtr (fun m => { m with marks := (c, 0) :: m.marks })).capTrigger c
    else s

/-- SURGE: the eighth consecutive sample at or below the threshold ends the transient. Peak in units of FS, duration in µs
from the first sample to the last. -/
def State.surge (s : State) (c : Nat) : State :=
  match s.trans c with
  | none => s
  | some t =>
    if 8 ≤ t.below then
      let s := (s.setTrans c none).raise E.MTR_EVT.SURGE
      s.record 0x0903 1 c [stampWord t.first 0, stampWord t.first 1, stampWord t.first 2,
        w32 (regDiv t.peak (2 ^ 39)).toNat, w32 ((t.samples - 1) * 125), w32 t.clipped]
    else s
/-- SURGE. -/
def execSurge (c : Fin 54) (s : State) : Res := .next (s.surge c)

/-! ## Samples (R400) -/

/-- What the history must keep: the windows in progress, 100 ms for PRE, and the reach of DELAY. -/
def Mtr.keep (m : Mtr) : Nat := max 800 (max m.len0 m.len1) + 64

/-- All 54 channels are sampled. -/
def State.meterSample (s : State) (raw : List Int) : State :=
  if s.mtrOn then
    let prev := s.mtr.hist.getLast?
    let by_ := s.mtr.stepBy
    let s := s.modMtr (fun m =>
      let h := m.hist ++ [(s.now, raw)]
      { m with stepBy := 0, hist := h.drop (h.length - m.keep - 1), len0 := m.len0 + 1, len1 := m.len1 + 1 })
    let clips := (List.range 54).filter (fun c => clipped (rawOf raw c))
    let s := s.modMtr (fun m => { m with marks := (clips.map (fun c => (c, 1))).filter (fun x => !m.marks.contains x) ++ m.marks })
    let s := if clips.isEmpty then s else s.raise E.MTR_EVT.CLIP
    let s := foldS (List.range 6) (fun v s =>
      let y := s.mtrY (48 + v) (rawOf raw (48 + v))
      let s := match prev with
        | some p => s.zcSample v (s.mtrY (48 + v) (rawOf p.2 (48 + v))) ((stampUnits p.1 : Int) + by_).toNat y
        | none => s.setZc v { s.zc v with negative := decide (y < 0) }
      if s.noMains v then
        s.modMtr (fun m => { m with missing := sset dimZero m.missing v (sget dimZero m.missing v + 125) })
      else s) s
    let s := foldS (List.range 54) (fun c s =>
      s.surgeSample c (s.mtrY c (rawOf raw c)).natAbs (clipped (rawOf raw c))) s
    let s := foldS (List.range 2) (fun b s =>
      if (s.f R.MTR_STATUS.COLLAPSE_NOW).testBit b && !s.busLow b then s.setFBit R.MTR_STATUS.COLLAPSE_NOW b false else s) s
    (s.captureStart.capTake (s.mtr.hist.length - 1)).capEnergy false
  else s
where
  dimZero (_ : Nat) : Nat := 0
/-- METER_SAMPLE with the raw codes of channels 0–53. -/
def execMeterSample (raw : List (BitVec 24)) (s : State) : Res :=
  .next (s.meterSample (raw.map (fun x => toSigned 24 x.toNat)))

/-! ## Windows (R402, R403) -/

def restDefault (_ : Nat) : Nat := 0
/-- Add an energy given in units of 1 / (28,800,000 × K²) mWh to the total whose low word lies at an offset; the part
below 1 mWh is kept for the next window (R402). A total never wraps (R422). -/
def State.addEnergy (s : State) (a n : Nat) : State :=
  let d := 28800000 * mtrK ^ 2
  let x := sget restDefault s.mtr.rest a + n
  let s := s.modMtr (fun m => { m with rest := sset restDefault m.rest a (x % d) })
  s.setPairR ⟨.mtr, a⟩ ⟨.mtr, a + 4⟩ (min (2 ^ 64 - 1) (s.pairR ⟨.mtr, a⟩ ⟨.mtr, a + 4⟩ + x / d))

/-- What a window gives for one phase, in units of products of shifted values: sums of v × i, of Q and of S, over the
samples; sums of squares; THD_I in units of 0.01 %, none when it has no value. -/
structure PhaseSums where
  p : Int
  q : Int
  s : Nat
  vv : Nat
  ii : Nat
  thd : Option Nat
  deriving DecidableEq, Repr

/-- The shifted values of channel `c` over the latest `n` samples. -/
def State.winValues (s : State) (c n : Nat) : List Int :=
  let h := s.mtr.hist
  (rangeFrom (h.length - n) (min n h.length)).map (fun i => s.shiftY h c i)

def sumSq (l : List Int) : Nat := l.foldl (fun a x => a + x.natAbs ^ 2) 0

def baseDefault (_ : Nat) : Nat × Nat := (0, 0)
/-- The step of the fundamental measured on busbar `b` from sample to sample, backwards: the one last measured, and the nominal
one before any has been (R402; DESIGN CHOICE, assumption 152). -/
def State.baseStep (s : State) (b : Nat) : Cx :=
  let x := sget baseDefault s.mtr.base b
  (if x.2 = 0 then cxTurn (if s.on R.MTR_CFG.NOM then 60 else 50) 8000 else cxTurn (x.1 * samplePeriod) x.2).conj
/-- Q₁ of voltage and current samples, summed over them (R402): positive when the current lags. -/
def reactive (u : Cx) (v i : List Int) : Int := 2 * ((dft u v).mul (dft u i).conj).im / ((v.length * cxOne ^ 2 : Nat) : Int)
/-- THD of current samples in units of 0.01 %: none when the fundamental is 0 or the register cannot hold it (assumption 152). -/
def thdOf (u : Cx) (i : List Int) : Option Nat :=
  let one := (dft u i).norm
  let n := regSqrtDiv (100000000 * ((rangeFrom 2 30).map (fun h => (dft (u.pow h) i).norm)).sum) one
  if one = 0 ∨ 65535 < n then none else some n
/-- The sums of phase `q` of feeder `f` over `n` samples. -/
def State.phaseSums (s : State) (f q n : Nat) : PhaseSums :=
  let b := s.f (R.MTR_FDR.BUSBAR f)
  let u := s.baseStep b
  let v := s.winValues (48 + 3 * b + q) n
  let i := s.winValues (4 * f + q) n
  let p := (List.zip v i).foldl (fun a x => a + x.1 * x.2) 0
  ⟨p, reactive u v i, regSqrt (sumSq v * sumSq i), sumSq v, sumSq i, thdOf u i⟩

/-- The number of the slot of 60 s in which an instant lies; 1,440 of them are a period (R416, R417). -/
def State.slotOf (s : State) (t : Nat) : Nat :=
  (t + (86400 - s.f R.MTR_EST_CFG.OFFSET) * nsPerS * 65536) / (60 * nsPerS * 65536)
/-- The instant at which a slot starts. -/
def State.slotStart (s : State) (k : Nat) : Nat :=
  60 * nsPerS * 65536 * k - (86400 - s.f R.MTR_EST_CFG.OFFSET) * nsPerS * 65536
/-- The period in which the time base stands. -/
def State.periodNow (s : State) : Nat := s.slotOf (stampUnits s.now) / 1440
def slotZero (_ : Nat) : Int := 0
/-- The import minus export of phase `q` of feeder `f` over a window's samples, each in the slot of its stamp (R417). -/
def State.slotsAdd (s : State) (f q n : Nat) : State :=
  let h := s.mtr.hist
  let ts := (h.drop (h.length - n)).map (fun e => 36 * s.slotOf (stampUnits e.1) + (3 * f + q))
  let p := List.zipWith (· * ·) (s.winValues (48 + 3 * s.f (R.MTR_FDR.BUSBAR f) + q) n) (s.winValues (4 * f + q) n)
  s.modMtr (fun m => { m with slots := (List.zip ts p).foldl (fun st x => sset slotZero st x.1 (sget slotZero st x.1 + x.2)) m.slots })

/-- The energies of a window go to the five totals from an offset on (R402). -/
def State.energies (s : State) (a : Nat) (x : PhaseSums) : State :=
  let s := if 0 ≤ x.p then s.addEnergy a x.p.toNat else s.addEnergy (a + 8) x.p.natAbs
  let s := if 0 ≤ x.q then s.addEnergy (a + 16) x.q.toNat else s.addEnergy (a + 24) x.q.natAbs
  s.addEnergy (a + 32) x.s

/-- A power in units of 0.1 W from a sum over `n` samples. -/
def powerReg (x : Int) (n : Nat) : Nat := ofSigned 32 (regDiv x (100 * n * mtrK ^ 2))

/-- Whether a mark of a kind lies on a channel of a phase. -/
def State.marked (s : State) (f q kind : Nat) : Bool :=
  s.mtr.marks.contains (4 * f + q, kind) || s.mtr.marks.contains (48 + 3 * s.f (R.MTR_FDR.BUSBAR f) + q, kind)

/-- The registers of one phase at a window's end (R403, R422). -/
def State.phaseWrite (s : State) (f q n seq : Nat) (x : PhaseSums) : State :=
  let s := (s.energies (0x1000 + 0x100 * f + 0x40 * q) x).slotsAdd f q n
  let d := n * mtrK ^ 2
  let s := s.setF (R.MTR_PH_IRMS.IRMS f q) (regSqrtDiv (x.ii * 100) d)
  let s := s.setF (R.MTR_PH_VRMS.VRMS f q) (regSqrtDiv (x.vv * 100) d)
  let s := (s.setF (R.MTR_PH_P.P f q) (powerReg x.p n)).setF (R.MTR_PH_Q.Q f q) (powerReg x.q n)
  let r := match x.thd with
    | some v => (v, s)
    | none => s.free
  let s := r.2.setF (R.MTR_PH_THD_PF.THD_I f q) r.1
  let s := s.setF (R.MTR_PH_THD_PF.PF f q) (if x.s = 0 then 0 else ofSigned 16 (regDiv (10000 * x.p) x.s))
  let s := s.setF (R.MTR_PH_FLAGS.SEQ f q) seq
  let v := 3 * s.f (R.MTR_FDR.BUSBAR f) + q
  let s := s.setF (R.MTR_PH_FLAGS.NO_MAINS f q) (b2n (s.noMains v || s.marked f q 2))
  let s := s.setF (R.MTR_PH_FLAGS.CLIP f q) (b2n (s.marked f q 1))
  s.setF (R.MTR_PH_FLAGS.SURGE f q) (b2n (s.marked f q 0 || (s.trans (4 * f + q)).isSome || (s.trans (48 + v)).isSome))

/-- The sum of three phases; each energy is added by its own phase's sign (R402). -/
def State.feederWindow (s : State) (f n seq : Nat) : State :=
  let xs := (List.range 3).map (fun q => s.phaseSums f q n)
  let s := foldS (List.range 3) (fun q s => s.phaseWrite f q n seq (xs.getD q ⟨0, 0, 0, 0, 0, none⟩)) s
  let s := foldS xs (fun x s => s.energies (0x10C0 + 0x100 * f) x) s
  let p := xs.foldl (fun a x => a + x.p) 0
  let q := xs.foldl (fun a x => a + x.q) 0
  let s := (s.setF (R.MTR_TOT_P.P f) (powerReg p n)).setF (R.MTR_TOT_Q.Q f) (powerReg q n)
  let nr := if s.on (R.MTR_FDR.N_EN f) then regSqrtDiv (sumSq (s.winValues (4 * f + 3) n) * 100) (n * mtrK ^ 2) else 0
  (s.setF (R.MTR_TOT_NRMS.NRMS f) nr).setF (R.MTR_TOT_SEQ.SEQ f) seq

def winDefault (_ : Nat) : List Int := []
/-- The samples of the window that has ended on busbar `b`, of its voltages and of the feeders `fs`, for the harmonics. -/
def State.windowKeep (s : State) (b n : Nat) (fs : List Nat) : State :=
  foldS (rangeFrom (48 + 3 * b) 3 ++ fs.flatMap (fun f => rangeFrom (4 * f) 4))
    (fun c s => s.modMtr (fun m => { m with win := sset winDefault m.win c (s.winValues c n) })) s
/-- The busbar of a channel. -/
def State.chanBus (s : State) (c : Nat) : Nat := if 48 ≤ c then (c - 48) / 3 else s.f (R.MTR_FDR.BUSBAR (c / 4))
/-- The harmonic of order `h` of channel `c` in its latest window (R402, R420): magnitude in 0.01 % of the channel's
fundamental, phase in 0.01° beyond `h` times that of the fundamental of the busbar's L1. Without a window both are 0; what has
no value is free (assumption 152). -/
def State.harmonic (s : State) (c h : Nat) : Word × State :=
  let l := sget winDefault s.mtr.win c
  let b := s.chanBus c
  let u := s.baseStep b
  let x := dft (u.pow h) l
  let one := (dft u l).norm
  let mag := regSqrtDiv (100000000 * x.norm) one
  let y := x.mul ((dft u (sget winDefault s.mtr.win (48 + 3 * b))).conj.power h)
  let a := y.angle
  if l = [] then (0, s)
  else
    let m := if one = 0 ∨ 65535 < mag then s.free else (mag, s)
    let p := if y.norm = 0 then m.2.free else ((a.1 + b2n (!a.2 && Config.roundUp y.re y.im.natAbs)) % 36000, m.2)
    (w32 (m.1 % 65536 * 65536 + p.1 % 36000), p.2)

/-- Samples of a busbar's window in progress. -/
def State.winLen (s : State) (b : Nat) : Nat := if b = 0 then s.mtr.len0 else s.mtr.len1

/-- Whether a window of busbar `b` ends (R403): at the tenth, or twelfth, rising crossing of its L1, or after 1,600 samples
with NO_MAINS on it. -/
def State.windowDue (s : State) (b : Nat) : Bool :=
  if s.noMains (3 * b) then decide (1600 ≤ s.winLen b)
  else decide ((if s.on R.MTR_CFG.NOM then 12 else 10) ≤ (s.zc (3 * b)).rising)

/-- Whether a channel belongs to busbar `b`. -/
def State.onBus (s : State) (b c : Nat) : Bool := s.chanBus c == b
/-- The marks with which the next window of busbar `b` begins: transients in progress, and NO_MAINS that still holds (R422). -/
def State.marksOn (s : State) (b : Nat) : List (Nat × Nat) :=
  ((List.range 54).filter (fun c => s.onBus b c && (s.trans c).isSome)).map (fun c => (c, 0)) ++
    ((rangeFrom (3 * b) 3).filter (fun v => s.noMains v)).map (fun v => (48 + v, 2))

/-- METER_WINDOW_END. -/
def State.windowEnd (s : State) (b : Nat) : State :=
  let n := s.winLen b
  if s.windowDue b && n != 0 then
    let seq := ((if b = 0 then s.f R.MTR_WIN_SEQ.SEQ0 else s.f R.MTR_WIN_SEQ.SEQ1) + 1) % 65536
    let s := s.setF (if b = 0 then R.MTR_WIN_SEQ.SEQ0 else R.MTR_WIN_SEQ.SEQ1) seq
    let z := s.zc (3 * b)
    let s := if z.first < z.rose ∧ z.periods ≠ 0 then
        (s.setF (if b = 0 then R.MTR_FREQ0.FREQ else R.MTR_FREQ1.FREQ)
          (regDiv (z.periods * 1000000000000 * 65536 : Nat) (z.rose - z.first)).toNat).modMtr
          (fun m => { m with base := sset baseDefault m.base b (z.periods, z.rose - z.first) })
      else s
    let s := s.setZc (3 * b) { z with rising := 0, periods := 0, first := if z.rising = 0 then 0 else z.rose }
    let fs := (List.range 12).filter (fun f => s.on (R.MTR_FDR.EN f) && s.f (R.MTR_FDR.BUSBAR f) == b)
    let s := foldS fs (fun f s => s.feederWindow f n seq) s
    let s := s.windowKeep b n fs
    s.modMtr (fun m => { m with
      len0 := if b = 0 then 0 else m.len0
      len1 := if b = 0 then m.len1 else 0
      marks := m.marks.filter (fun x => !(s.onBus b x.1)) ++ s.marksOn b })
  else s
def execMeterWindowEnd (b : Fin 2) (s : State) : Res := .next (s.windowEnd b)

/-! ## Estimates (R416–R419) -/

/-- Whether the module estimates endpoint `i`. -/
def State.estimated (s : State) (i : Nat) : Bool :=
  s.ep i EP.TYPE == 0 && decide (s.ep i EP.FEEDER ≤ 11) && s.ep i EP.P_RATED != 0

def countZero (_ : Nat) : Nat := 0
/-- Whether a condition of R418 that the module keeps count of holds for endpoint `i` over the period that began at `start`. -/
def State.lowKnown (s : State) (start i : Nat) : Bool :=
  let f := s.ep i EP.FEEDER
  let v := 3 * s.f (R.MTR_FDR.BUSBAR f) + s.ep i EP.PHASE
  decide (sget countZero s.mtr.dims i < 8) || decide (60000000 < sget countZero s.mtr.missing v) ||
    s.mtr.since.all (fun t => decide (start < t)) || s.mtr.stepped.any (fun t => decide (start ≤ t)) || s.mtr.feedersOff.contains f

/-- Whether the estimate runs for a period that began at `start`: EN, the role, and after a takeover only when the whole period
ran under it (R416, R419). -/
def State.estRuns (s : State) (start : Nat) : Bool :=
  s.on R.MTR_EST_CFG.EN && (s.role == rolePairActive || s.role == roleSolo) &&
    !(s.mtr.took && s.mtr.since.any (fun t => decide (start < t)))

/-- The launches that a period from `start` on needs: those in it, and of each endpoint the latest before it. -/
def runsFrom (start : Nat) : List (Nat × Ramp) → List Nat → List (Nat × Ramp)
  | [], _ => []
  | x :: l, seen =>
    if start ≤ stampUnits x.2.start then x :: runsFrom start l seen
    else if seen.contains x.1 then runsFrom start l seen
    else x :: runsFrom start l (x.1 :: seen)

/-- A period ends and the regression starts (R416, R417). Without a period that has ended nothing does. -/
def State.estimateEnd (s : State) : State :=
  let p := s.periodNow
  if p ≤ s.mtr.period then s
  else
    let start := s.slotStart (1440 * (p - 1))
    let low := s.validEps.filter (fun i => s.estimated i && s.lowKnown start i)
    let off := (List.range 12).filter (fun f => !s.on (R.MTR_FDR.EN f))
    let runs := s.estRuns start
    let s := s.modMtr (fun m => { m with
      dims := [], feedersOff := off, missing := [], lows := low, period := p, runs := runsFrom start m.runs []
      slots := m.slots.filter (fun e => decide (36 * (1440 * (p - 1)) ≤ e.1)) })
    s.when runs (·.setF R.MTR_EST_STATUS.BUSY 1)
/-- ESTIMATE_PERIOD_END. -/
def execEstimatePeriodEnd (s : State) : Res := .next s.estimateEnd

/-- The slots of the period that ended last. -/
def State.estSlots (s : State) : List Nat := rangeFrom (1440 * (s.mtr.period - 1)) 1440
/-- X of endpoint `i` in each slot, in Wh (R417). -/
def State.estX (s : State) (i : Nat) : List Rat :=
  let l := (s.mtr.runs.filter (fun x => x.1 == i)).map (fun x => x.2)
  let before := (l.getLast?.map (fun r => r.a)).getD (s.ep i EP.CUR)
  let w : Rat := ((s.ep i EP.P_RATED : Int) - s.ep i EP.P_STBY : Int)
  s.estSlots.map (fun k => w * codesIntegral before l (s.slotStart k) (s.slotStart (k + 1)) /
    ((10 * 100000 * 3600 * nsPerS * 65536 : Nat) : Rat))
/-- S of endpoint `i` in a slot, in Wh (R417). -/
def State.estS (s : State) (i : Nat) : Rat := ((s.ep i EP.P_STBY : Nat) : Rat) / 600
/-- E of phase `q` of feeder `f` in each slot, in Wh. -/
def State.estE (s : State) (f q : Nat) : List Rat :=
  s.estSlots.map (fun k => ((sget slotZero s.mtr.slots (36 * k + (3 * f + q)) : Int) : Rat) / ((28800000000 * mtrK ^ 2 : Nat) : Rat))

/-- What a period gives for an endpoint: E_EST and E_ERR, none where the rules give no value, and whether the unmetered load
exceeds 5 % of the phase's energy, none where it has no single value. -/
structure Estimate where
  est : Option Nat
  err : Option Nat
  unmetered : Option Bool
  deriving DecidableEq, Repr

/-- A rational in a register (assumption 35). -/
def ratReg (x : Rat) : Option Nat := let n := regDiv x.num x.den; if n < 0 ∨ 2 ^ 32 ≤ n then none else some n.toNat
/-- E_ERR: 1.959964 standard deviations of an estimate, in units of 0.1 % of it, for the variance of its factor and the sum of its
variable term (DESIGN CHOICE, assumption 38). -/
def errReg (est x var : Rat) : Option Nat :=
  if est = 0 then none
  else
    let r := (1959964 * x / (1000 * est)) ^ 2 * var
    some (min 0xFFFF (regSqrtDiv r.num.toNat r.den))

/-- The estimates of the endpoints on phase `q` of feeder `f` (R417, R418). An endpoint that was never lit has no factor. -/
def State.estPhase (s : State) (f q : Nat) : List (Nat × Estimate) :=
  let l := s.validEps.filter (fun i => s.estimated i && s.ep i EP.FEEDER == f && s.ep i EP.PHASE == q)
  let rho : Rat := ((s.f R.MTR_EST_CFG.RIDGE : Nat) : Rat) / 1000
  let xs := l.map (fun i => (i, s.estX i))
  let lit := xs.filter (fun x => x.2.any (fun v => v != 0))
  let e := s.estE f q
  let y := e.map (fun v => v - (l.map (fun i => s.estS i)).sum)
  let cols := (0, e.map (fun _ => (1 : Rat))) :: lit.map (fun x => (rho * rho, x.2))
  match ridgeSolve cols y with
  | none => l.map (fun i => (i, ⟨none, none, none⟩))
  | some ks =>
    let b := ks.headD 0 * 1440
    let much := decide (e.sum.abs < 20 * b.abs)
    l.map (fun i =>
      match lit.findIdx? (fun x => x.1 == i) with
      | none => (i, ⟨ratReg (1440 * s.estS i), errReg (1440 * s.estS i) 0 0, some much⟩)
      | some j =>
        let x := (s.estX i).sum
        let est := 1440 * s.estS i + ks.getD (j + 1) 0 * x
        (i, ⟨ratReg est, (ridgeVar cols y ks (j + 1)).bind (errReg est x), some much⟩))

/-- One record is written at once (R105, R418); what the rules give no value is free (assumption 38). -/
def State.estimateOne (s : State) (i : Nat) (x : Estimate) : State :=
  let e := match x.est with | some v => (v, s) | none => s.free
  let r := match x.err with | some v => (v, e.2) | none => e.2.free
  let u := match x.unmetered with | some v => (b2n v, r.2) | none => r.2.free
  let low := s.mtr.lows.contains i || u.1 % 2 == 1
  let s := ((u.2.setEp i EP.E_EST e.1).setEp i EP.E_ERR r.1).setEp i EP.LOW_CONF (b2n low)
  if low then s.setF R.MTR_EST_STATUS.LOW (s.f R.MTR_EST_STATUS.LOW + 1) else s

/-- The estimates are written (R418). -/
def State.estDone (s : State) : State :=
  if s.on R.MTR_EST_STATUS.BUSY then
    let l := (List.range 36).flatMap (fun k => s.estPhase (k / 3) (k % 3))
    let s := foldS l (fun x s => s.estimateOne x.1 x.2) (s.setF R.MTR_EST_STATUS.LOW 0)
    (s.setF R.MTR_EST_STATUS.BUSY 0).record 0x0905 0 0xFFFF [w32 l.length, w32 (s.f R.MTR_EST_STATUS.LOW)]
  else s
/-- EST_DONE. -/
def execEstDone (s : State) : Res := .next s.estDone

/-- Metering starts: no sample has been taken, and ZC_TMO counts from now (R406). -/
def State.zcStart (s : State) : State :=
  foldS (List.range 6) (fun v s => s.setZc v { Zc.zero with last := stampUnits s.now })
    (s.modMtr (fun m => { m with hist := [], len0 := 0, len1 := 0 }))
/-- Metering at a start-up: the totals of the newest save, and the detectors. -/
def State.mtrStart (s : State) : State :=
  s.totalsLoad.zcStart.modMtr (fun m => { m with
    loaded := true, period := s.periodNow, feedersOff := (List.range 12).filter (fun f => !s.on (R.MTR_FDR.EN f)) })

/-- A new OFFSET begins a period that it did not run through (R416, R418). -/
def State.estOffset (s : State) : State :=
  s.modMtr (fun m => { m with period := s.periodNow, slots := [], stepped := some (stampUnits s.now) })

/-! ## Steps of the time base -/

/-- The time base has moved by a step: what metering times goes on from its instants, moved with it (R406, R417). -/
def State.mtrMoved (s : State) (old : Stamp) : State :=
  let t := stampUnits s.now
  let d := (t : Int) - stampUnits old
  let at_ := fun n : Nat => ((n : Int) + d).toNat
  let s := foldS (List.range 6) (fun v s =>
    let z := s.zc v
    s.setZc v { z with
      last := at_ z.last, rose := at_ z.rose, first := if z.first = 0 then 0 else at_ z.first
      cand := z.cand.map (fun c => { c with instant := at_ c.instant }) }) s
  let late := runsFrom (2 * max t (stampUnits old) + 1) s.mtr.runs []
  s.modMtr (fun m => { m with
    stepBy := m.stepBy + d
    period := min m.period s.periodNow
    slots := m.slots.filter (fun e => decide (e.1 / 36 ≤ s.slotOf t))
    runs := late.map (fun x => (x.1, { x.2 with start := unitsStamp (at_ (stampUnits x.2.start)) })) ++
      m.runs.filter (fun x => !late.contains x && decide (stampUnits x.2.start ≤ t)) })
/-- The time base steps: a capture ends too (R413). -/
def State.mtrStep (s : State) (old : Stamp) : State :=
  let s := (s.capEnd 4).mtrMoved old
  let t := stampUnits s.now
  s.when (decide (nsPerS * 65536 < ((t : Int) - stampUnits old).natAbs)) (·.modMtr (fun m => { m with stepped := some t }))
/-- The time base is loaded at a start: the estimate's periods begin from its value. -/
def State.mtrTimed (s : State) (old : Stamp) : State := (s.mtrMoved old).modMtr (fun m => { m with period := s.periodNow })

end Sys2Proof.Machine
end

