-- ==== Sys2Proof/Machine/Storm.lean ====
section
/-! DEFINITION. Event storms (R186–R191), and the end of handles: reply timers (R162) and the delivery of
completions (R169, R170). -/
namespace Sys2Proof.Machine
open Sys2Proof

def stormIdle : Nat := 0
def stormHolding : Nat := 1
def stormRecovering : Nat := 2
def State.stormState (s : State) : Nat := s.f R.STORM_STATUS.STATE

/-- SPREAD as it acts, in units of 100 ms. -/
def State.spread (s : State) : Nat :=
  let n := s.f R.STORM_CTRL.SPREAD
  if n < 10 then 10 else if 600 < n then 600 else n

/-- The polls in flight: handles of the module. -/
def State.pollsOut (s : State) : Nat := s.heldBy (fun o => o = .module)
/-- LEFT: polls on the recovery list not yet completed, those in flight among them (R191). -/
def State.stormLeft (s : State) : State := s.setF R.STORM_STATUS.LEFT (s.storm.list.length + s.pollsOut)

/-- A body goes to every endpoint: sown on both ports of every enabled ring, on every CAN channel that carries field frames, and
in the urgent slots of every transceiver, where a POLL of this kind is the BEACON frame (R186, R334, R437, R448). -/
def State.broadcast (s : State) (b : CmdBody) : State :=
  let s := foldS (List.range 128) (fun k s => s.ringSend k macAll b true) s
  let s := foldS ((List.range 8).filter (fun c => s.on (R.CAN_CFG.EN c) && s.on (R.CAN_CFG.FIELD_EN c)))
    (fun c s => s.canBroadcast c b) s
  let body := if b.code = ccPoll then none else some b
  foldS ((List.range 4).filter s.radAble) (fun j s => s.radUrgent j ⟨body, 0xFFFF, 1, 0, none, true, false, none, none⟩) s

/-- HOLD_REPORTS is launched: the storm start, and the STORM event STARTED (R174, R186). -/
def State.stormLaunch (s : State) : State :=
  let s := ({ s with storm := ⟨s.now, [], 0, 0⟩ }).stormLeft
  let s := s.broadcast (s.ownBody ccHoldReports euiAll 0 0 (w32 s.spread))
  s.event evStorm (leBytes 4 1 ++ leBytes 12 s.storm.start.toNat)
/-- HOLD_REPORTS_LAUNCH, in HOLDING. -/
def execHoldReportsLaunch (s : State) : Res := .next (s.when (s.stormState == stormHolding) State.stormLaunch)

/-- A claim with EN = 1 leaves IDLE for HOLDING, and is the storm start (R186, R334). -/
def State.stormClaim (s : State) : State :=
  if s.on R.STORM_CTRL.EN && s.stormState == stormIdle then
    ((s.setF R.STORM_STATUS.STATE stormHolding).raise E.STORM_EVT.STARTED).stormLaunch
  else s

/-- Whether a record belongs on the recovery list (R188). -/
def State.unheard (s : State) (i : Nat) : Bool :=
  s.epValid i && decide (s.ep i EP.PATH ≤ 2) && decide (stampUnits (s.epStamp i EP.LAST_SEEN) < stampUnits s.storm.start)

/-- The recovery list: rows in ascending number with their members in NEXT order, then the endpoints on no row (R188). -/
def State.recoveryList (s : State) : List Nat :=
  (s.validRows.flatMap s.rowMembers ++ s.validEps.filter (fun i => s.ep i EP.ON_ROW == 0)).filter s.unheard

/-- Every recovery poll has completed: IDLE, RECOVERED and its event (R174, R186). -/
def State.stormEnd (s : State) : State :=
  if s.stormState == stormRecovering && s.storm.list.isEmpty && s.pollsOut == 0 then
    let s := (s.setF R.STORM_STATUS.STATE stormIdle).raise E.STORM_EVT.RECOVERED
    s.event evStorm (leBytes 4 2 ++ leBytes 4 s.storm.polls ++ leBytes 4 s.storm.noReply)
  else s

/-- SPREAD × 100 ms have passed since the storm start (R186). -/
def State.spreadEnd (s : State) : State :=
  let s := { s with storm := { s.storm with list := s.recoveryList } }
  ((s.setF R.STORM_STATUS.STATE stormRecovering).stormLeft).stormEnd
/-- SPREAD_END, in HOLDING. -/
def execSpreadEnd (s : State) : Res := .next (s.when (s.stormState == stormHolding) State.spreadEnd)

/-- Whether a poll of endpoint `i` may go: a path 0 endpoint waits for FWD_RUN or 25 s (R188). -/
def State.pollable (s : State) (i : Nat) : Bool :=
  s.ep i EP.PATH != 0 || s.on R.SYS_PWR_STATUS.FWD_RUN || decide (25 * 625000000 ≤ s.power.validTicks)

/-- The descriptor of a recovery poll (R114, R188). -/
def pollDesc : Desc := ⟨ccPoll, 0, true, false, false, 0, 0, 0, 0, 0, false⟩

/-- Send one poll to endpoint `i`, which leaves the list. A record that is no longer valid leaves it without a poll. -/
def State.pollOne (s : State) (i : Nat) : State :=
  if s.epValid i then
    match s.place .module i 0 pollDesc [] 0 with
    | .inr (_, s) => { s with storm := { s.storm with list := s.storm.list.erase i, polls := s.storm.polls + 1 } }
    | .inl r => s.placeFlags r
  else ({ s with storm := { s.storm with list := s.storm.list.erase i } }).stormLeft.stormEnd

/-- RECOVERY_POLL: the first endpoint of the list that may be polled (R188). -/
def State.recoveryPoll (s : State) : State :=
  if s.stormState == stormRecovering && !s.on (quAbove .intake) && decide (s.pollsOut < 16384) then
    match s.storm.list.find? s.pollable with
    | some i => s.pollOne i
    | none => s
  else s
def execRecoveryPoll (s : State) : Res := .next s.recoveryPoll

/-- STORM_CTRL.EN becomes 0: back to IDLE, no further polls; those in flight complete (R186). -/
def State.stormStop (s : State) : State :=
  (({ s with storm := { s.storm with list := [] } }).setF R.STORM_STATUS.STATE stormIdle).stormLeft
/-- STORM_DISABLE: a direct write of STORM_CTRL that leaves EN 0. -/
def execStormDisable (spread : BitVec 16) (s : State) : Res :=
  .next (((s.setF R.STORM_CTRL.SPREAD spread.toNat).setF R.STORM_CTRL.EN 0).stormStop)

/-! ## Reply timers and completions -/

/-- REPLY_TIMEOUT of handle slot `i`. -/
def execReplyTimeout (i : Fin 131072) (s : State) : Res := .next (s.replyTimeout i)

/-- The storm procedure consumes the completion of slot `i` (R170, R186). -/
def State.cplModule (s : State) (i : Nat) : State :=
  let no := (s.hslot i).status == fsNoReply
  let s := s.freeSlot i
  if s.stormState == stormRecovering then
    let s := { s with storm := { s.storm with noReply := s.storm.noReply + b2n no } }
    s.stormLeft.stormEnd
  else s.stormLeft

/-- The completion of slot `i` is delivered to its owner (R170). -/
def State.deliver (s : State) (i : Nat) : State :=
  let h := s.hslot i
  if h.st = .completing then
    match h.owner with
    | .session n => s.cplSession i n
    | .engine l => (if h.status = fsOk then s else s.cmdFail l i).freeSlot i
    | .module => s.cplModule i
    | .firmware => s.freeSlot i
  else s
/-- COMPLETION_DELIVER. -/
def execCompletionDeliver (i : Fin 131072) (s : State) : Res := .next (s.deliver i)

end Sys2Proof.Machine
end

