-- ==== Sys2Proof/Machine/Pair.lean ====
section
/-! DEFINITION. Module pairs (R330–R338): roles, leases and echoes, fencing, the claim up to the bridge role, the
checkpoint stream and beacons. The rest of a claim (R334, steps 4 to 7) stands with the restoration of Start.lean. -/
namespace Sys2Proof.Machine
open Sys2Proof

/-- Apply a change to the pair unit. -/
def State.modPair (s : State) (f : Pair → Pair) : State := { s with pair := f s.pair }

/-- Apply a change to the power sequence. -/
def State.modPower (s : State) (f : Power → Power) : State := { s with power := f s.power }

/-! ## Roles (R330, R335, R440, R451, R460, R465) -/

/-- STANDBY of outputs, transceivers and CAN channels (R440, R451, R460). -/
def State.standbyShow (s : State) : State :=
  let off := b2n (!s.lightRole)
  let s := s.setF R.DIO_STATUS.STANDBY off
  let s := foldS (List.range 4) (fun j s => s.setF (R.RAD_STATUS.STANDBY j) off) s
  foldS (List.range 8) (fun c s => s.setF (R.CAN_STATUS.STANDBY c) off) s

/-- Lighting control runs on this module, from now on or not at all; a claim that ends so is a takeover (R416, R418, R419). -/
def Mtr.roleRuns (m : Mtr) (claimed lit : Bool) (now : Nat) : Mtr :=
  if !lit then { m with since := none, took := false }
  else if m.since.isSome then m
  else { m with since := some now, took := claimed }

/-- Enter a role: the bridge role goes with ACTIVE, CLAIMING and SOLO; in every other role the edges stand by, outputs are
off and stages at code 0. The energy estimate runs in ACTIVE and SOLO alone (R416). -/
def State.setRole (s : State) (r : Nat) : State :=
  let drv := s.dioDriven
  let was := s.role == roleClaiming
  let s := s.setF R.SYS_PAIR_STATUS.ROLE r
  let on := b2n s.lightRole
  let s := s.setF R.SYS_PAIR_STATUS.BRIDGE on
  let s := foldS (List.range 128) (fun k s => s.setF (R.RING_STATUS.BR_ROLE k) on) s
  let s := s.standbyShow
  let s := { s with mtr := s.mtr.roleRuns was (r == rolePairActive || r == roleSolo) (stampUnits s.now) }
  let s := s.when s.mtr.since.isNone (·.setF R.MTR_EST_STATUS.BUSY 0)
  (s.when (on == 0) State.stagesOff).dioDrive drv

/-- LIGHT_RUN is set, and SYS_START_LIGHT_MS the first time in a start (R348, R365). -/
def State.lightUp (s : State) : State :=
  let s := s.when (!s.on R.SYS_PWR_STATUS.LIGHT_RUN) (·.setR R.SYS_START_LIGHT_MS.reg (w32 (s.power.opTicks / 625000)))
  s.setF R.SYS_PWR_STATUS.LIGHT_RUN 1

/-- Enter STANDBY. LIGHT_RUN is set, because the partner runs the lighting (R348). -/
def State.enterStandby (s : State) : State := (s.setRole roleStandby).lightUp

/-- The ROLE event: new role and control epoch (R174). -/
def State.roleEvent (s : State) : State := s.event evRole (leBytes 4 s.role ++ leBytes 4 s.epoch)

/-! ## The claim (R334, steps 1 to 3) -/

/-- The highest of the module's own epoch, the last lease's and the checkpoint's. -/
def State.topEpoch (s : State) : Nat := max s.epoch (max s.pair.leaseEpoch s.pair.ckptEpoch)

/-- The claim frame: HOLD_REPORTS with EN = 1, whose launch is a storm start; else a broadcast beacon (R186, R334). -/
def State.claimLaunch (s : State) : State :=
  if s.on R.STORM_CTRL.EN then
    ((s.setF R.STORM_STATUS.STATE stormHolding).raise E.STORM_EVT.STARTED).stormLaunch
  else s.broadcast (s.ownBody ccPoll euiAll 0 0 0)

/-- A new control epoch, committed to the ledger (R334). -/
def State.newEpoch (s : State) (e : Nat) : State :=
  ({ s with ledger := { s.ledger with epoch := e } }).ledgerCommit .epoch (leBytes 4 e) |>.setF R.SYS_PAIR_EPOCH.EPOCH e

/-- The module enters CLAIMING. A claim that would need an epoch above 0xFFFF_FFFF is abandoned before it begins. -/
def State.claim (s : State) : State :=
  if 0xFFFFFFFF ≤ s.topEpoch then (s.record 0x0F03 3 0xFFFF [0]).enterStandby
  else
    let e := s.topEpoch + 1
    let s := (s.setRole roleClaiming).raise E.SYS_PAIR_EVT.TAKEOVER
    ((s.record 0x0F01 2 0xFFFF [w32 e]).newEpoch e).claimLaunch

/-- BOOT_LEASE_TIMEOUT: the slot's boot wait ends without a lease (R330). -/
def execBootLeaseTimeout (s : State) : Res := .next (s.when (s.role == roleBoot && s.paired) State.claim)
/-- LEASE_TIMEOUT: 250 ms without a lease in STANDBY (R330). -/
def execLeaseTimeout (s : State) : Res := .next (s.when (s.role == roleStandby) State.claim)

/-! ## Fencing (R333) -/

/-- Whether the fence conditions apply to the role. -/
def State.fenceable (s : State) : Bool := s.role == rolePairActive || s.role == roleClaiming

/-- The module fences: engines halt, the bridge role is dropped, leases stop with the role. `cond`: 0 lease, 1 higher
epoch (R495). -/
def State.fence (s : State) (cond : Nat) : State :=
  let s := foldS (List.range 18) (fun p s => s.feHalt p) s
  ((s.setRole roleFenced).raise E.SYS_PAIR_EVT.FENCED).record 0x0F02 2 0xFFFF [w32 s.epoch, w32 cond]

/-- LEASE_FENCE: the newest acknowledged lease was sent more than 200 ms ago, and the module has no ring view. -/
def execLeaseFence (s : State) : Res := .next (s.when (s.fenceable && !s.on R.SYS_PAIR_STATUS.RING_VIEW) (·.fence 0))

/-- A 0x88B5 frame of the partner carries an epoch above the module's own (R333). -/
def State.seePartner (s : State) (e : Nat) : State := s.when (s.fenceable && decide (s.epoch < e)) (·.fence 1)

/-- EPOCH_FENCE: the control port receives a 0x88B5 frame from the partner's address with an epoch; `claim`: it is a claim,
which ends BOOT when its epoch is at or above the module's own (R330). -/
def State.epochFence (s : State) (e : Nat) (claim : Bool) : State :=
  if claim && s.role == roleBoot && s.paired && decide (s.epoch ≤ e) then s.enterStandby else s.seePartner e
/-- Whether a port by which the partner's 0x88B5 frames come is UP: PAIR, or RING for a claim (R262, R265, R334). -/
def State.partnerHeard (s : State) : Bool := s.pairLinkUp || s.ringView
/-- EPOCH_FENCE: a frame of the partner with epoch `e`, by a PAIR port or the ring view. -/
def execEpochFence (e : BitVec 32) (claim : Bool) (s : State) : Res := .next (s.when s.partnerHeard (·.epochFence e.toNat claim))

/-- The engines go cold: their logical engines stop, and their lists are empty (R330). -/
def State.enginesCold (s : State) : State :=
  let s := foldS ((List.range 16).filter s.engActive) (fun l s =>
    ((s.engDropAll l).modEng (s.physOf l) (fun _ => Engine.off)).setEngState (s.physOf l) stReset) s
  ({ s with fe := { s.fe with lists := [], dupRef := [], intakeOpen := false } }).quEval .intake

/-- FENCE_END: 300 ms after fencing, STANDBY (R330). -/
def execFenceEnd (s : State) : Res :=
  .next (s.when (s.role == roleFenced) (fun s => s.enginesCold.enterStandby.roleEvent))

/-! ## Leases (R331, R332) -/

/-- The partner's MAC address. -/
def State.peerMac (s : State) : Mac :=
  BitVec.ofNat 48 (s.f R.SYS_PAIR_PEER_MAC_LO.MAC_LO + s.f R.SYS_PAIR_PEER_MAC_HI.MAC_HI * 4294967296)
/-- The PAIR ports that are UP, in rising order (R268). -/
def State.pairPorts (s : State) : List Nat := (List.range 256).filter (fun n => s.portRole n == prPair && s.portUp n)
/-- The 32-byte header of R331 and the CKPT data after it (little-endian DEDUCED, assumption 147). -/
def State.pairBytes (s : State) (type seq : Nat) (data : List Byte) : List Byte :=
  [0x80, BitVec.ofNat 8 type, 0, 0] ++ leBytes 4 s.epoch ++ leBytes 4 seq ++
  [BitVec.ofNat 8 s.role, BitVec.ofNat 8 (b2n (s.on R.SYS_PAIR_STATUS.RING_VIEW)), 0, 0] ++
  wordsBytes [stampWord s.now 0, stampWord s.now 1, stampWord s.now 2] ++ leBytes 4 data.length ++ data
/-- A pair frame (R331): addresses, EtherType and FCS about its bytes. -/
def State.pairFrame (s : State) (type seq : Nat) (data : List Byte) : Frame :=
  let b := s.pairBytes type seq data
  ⟨0, max 64 (18 + b.length), s.peerMac, s.modMac, none, none, true, etField, none, 0, none, false, false, b⟩
/-- A pair frame to PAIR port `n`, in class 6 (R268). -/
def State.pairTo (s : State) (n : Nat) (f : Frame) : State :=
  s.enqueue (ctlNode (plotOf n)) f ⟨6, none, [n], [], false, [], false⟩ .none
/-- A LEASE or ECHO goes to every PAIR port that is UP (R268). -/
def State.pairLease (s : State) (type seq : Nat) : State :=
  let f := s.pairFrame type seq []
  foldS s.pairPorts (fun n t => t.pairTo n f) s
/-- Checkpoint traffic goes to the lower-numbered PAIR port that is UP (R268). -/
def State.pairCkpt (s : State) (type seq : Nat) (data : List Byte) : State :=
  match s.pairPorts.head? with
  | some n => s.pairTo n (s.pairFrame type seq data)
  | none => s
/-- What one CKPT frame holds. -/
def ckptRoom : Nat := 9166
/-- The CKPT data of a part, frame by frame (assumption 147). -/
def ckptData (x : CkptPart) : List (List Byte) :=
  let b := Config.ckptBytes x
  (List.range (max 1 (ceilDiv b.length ckptRoom))).map (fun i => (b.drop (i * ckptRoom)).take ckptRoom)

/-- The ticks for which a lease is fresh: 200 ms (R332). -/
def leaseTicks : Nat := 125000000
/-- LEASE_SEND: every 50 ms in ACTIVE or CLAIMING. -/
def State.leaseSend (s : State) : State :=
  let n := (s.pair.leaseSeq + 1) % 2 ^ 32
  let t := s.opTotal
  let s := s.modPair (fun p => { p with
    leaseSeq := n, leaseSent := p.leaseSent.filter (fun x => decide (t < x.2 + leaseTicks)) ++ [(n, t)] })
  s.pairLease 1 n
def execLeaseSend (s : State) : Res := .next (s.when s.fenceable State.leaseSend)

/-- ECHO_SEND: every 50 ms in STANDBY. -/
def execEchoSend (s : State) : Res :=
  .next (s.when (s.role == roleStandby) (fun s => s.pairLease 2 s.pair.leaseSeen))

/-- Whether a lease is fresh: it was sent, as its TIME says, less than 200 ms ago (R331, R332). -/
def State.leaseFresh (s : State) (t : Stamp) : Bool := decide (stampUnits s.now < stampUnits t + 200 * 1000000 * 65536)
/-- LEASE: epoch, sequence number and TIME. In BOOT an adequate one leads to STANDBY; a STANDBY counts it when its epoch is at or
above its own, and its age starts anew when it is fresh (R330, R332, R345). -/
def State.lease (s : State) (e q : Nat) (t : Stamp) : State :=
  let s := s.seePartner e
  let s := s.when (s.role == roleBoot && s.paired && decide (s.epoch ≤ e)) State.enterStandby
  s.when (s.role == roleStandby && decide (s.epoch ≤ e)) (fun s =>
    s.modPair (fun p => { p with leaseSeen := q, leaseEpoch := e, leaseAt := if s.leaseFresh t then some s.opMs else p.leaseAt }))
/-- LEASE. It comes on a PAIR port, which delivers it only while it is UP (R262, R268). -/
def execLease (h : PairHead) (t : Stamp) (s : State) : Res := .next (s.when s.pairLinkUp (·.lease h.epoch.toNat h.seq.toNat t))

/-- ECHO: epoch and the newest lease number received. A lease that is still fresh counts as acknowledged (R332, R345). -/
def State.echo (s : State) (e q : Nat) : State :=
  let s := s.seePartner e
  s.when (s.fenceable && s.pair.leaseSent.any (fun x => x.1 == q && decide (s.opTotal < x.2 + leaseTicks))) (fun s =>
    s.modPair (fun p => { p with leaseAcked := some s.opMs, leaseSent := (p.leaseSent.dropWhile (fun x => x.1 != q)).drop 1 }))
/-- ECHO, on a PAIR port that is UP. -/
def execEcho (e q : BitVec 32) (s : State) : Res := .next (s.when s.pairLinkUp (·.echo e.toNat q.toNat))

/-! ## Checkpoint (R336) -/

def genDefault (b : Nat) (_ : Nat) : Nat := b
/-- The generation of slot `i` in a checkpoint. -/
def Ckpt.gen (c : Ckpt) (i : Nat) : Nat := sget (genDefault c.base) c.gens i
/-- Set the generation of slot `i`. -/
def Ckpt.setGen (c : Ckpt) (i g : Nat) : Ckpt := { c with gens := sset (genDefault c.base) c.gens i g }
/-- Store 64-byte lines. -/
def Ckpt.putLines (c : Ckpt) (l : List (Nat × List Byte)) : Ckpt :=
  { c with fmem := l.foldl (fun m x => (x.2.zipIdx (64 * x.1)).foldl (fun m b => sset fmemReset m b.2 b.1) m) c.fmem }
/-- Take generations: first those of every slot, then single ones. -/
def Ckpt.putGens (c : Ckpt) (all : Option Nat) (l : List (Nat × Nat)) : Ckpt :=
  let c := match all with
    | some b => { c with base := b, gens := [] }
    | none => c
  l.foldl (fun c x => c.setGen x.1 x.2) c

/-- Lines of field memory by number. -/
def State.lines (s : State) (l : List Nat) : List (Nat × List Byte) := l.map (fun a => (a, s.fbytes (64 * a) 64))

/-- The generations that differ from a checkpoint's, and the one of every other slot when a takeover has changed them. -/
def State.gensSince (s : State) (c : Ckpt) : Option Nat × List (Nat × Nat) :=
  let all := if s.hnd.base = c.base then none else some s.hnd.base
  let c := c.putGens all []
  let ks := (s.hnd.tab.map (·.1) ++ c.gens.map (·.1)).eraseDups
  (all, (ks.filter (fun i => (s.hslot i).gen != c.gen i)).map (fun i => (i, (s.hslot i).gen)))

/-- A delta: what changed since the module's own checkpoint was brought up to date. -/
def State.deltaPart (s : State) : CkptPart :=
  let g := s.gensSince s.ledger.own
  .delta (s.lines s.pair.dirty) g.1 g.2 s.shf.lastSeq

/-- A snapshot: every line of the regions that holds anything, every generation, the applied images. -/
def State.snapshotPart (s : State) : CkptPart :=
  let ls := ((s.fmem.filter (fun c => ckptRegion c.1)).map (fun c => c.1 / 64)).eraseDups
  let gs := (s.hnd.tab.filter (fun e => e.2.gen != s.hnd.base)).map (fun e => (e.1, e.2.gen))
  .snapshot true true (s.lines ls) s.hnd.base gs (s.fe.images.filterMap (fun e => e.2.map (fun x => (e.1, x))))

/-- A checkpoint takes in a part. -/
def Ckpt.take (c : Ckpt) : CkptPart → Ckpt
  | .journal _ => c
  | .delta ls all gs _ => (c.putLines ls).putGens all gs
  | .snapshot first last ls b gs im =>
    let c := if first then Ckpt.empty else c
    let c := (c.putLines ls).putGens (if c.base = b then none else some b) gs
    { c with images := c.images ++ im, complete := last }

/-- The module's own checkpoint takes in a part, and the lines count as written (R76, R160). A read-only checkpoint area takes
nothing (R325). -/
def State.ownTake (s : State) (x : CkptPart) : State :=
  let s := s.modPair (fun p => { p with dirty := [] })
  if s.flashStuck .checkpoint then s
  else ({ s with ledger := { s.ledger with own := { s.ledger.own.take x with complete := true }, ownApplied := s.shf.applied.length } }).ledgerCommit
    .checkpoint (leBytes 4 s.shf.applied.length)

/-- The next CKPT frame. -/
def State.ckptFrame (s : State) (b : List Byte) : State :=
  let n := (s.pair.ckptSeq + 1) % 2 ^ 32
  (s.modPair (fun p => { p with ckptSeq := n })).pairCkpt 3 n b
/-- Send a part in full to the standby, when there is one to send to, in as many frames as it takes; a delta is acknowledged with
its last. -/
def State.ckptSend (s : State) (x : CkptPart) : State :=
  if s.role = rolePairActive then
    let s := foldS (ckptData x) (fun b s => s.ckptFrame b) s
    s.modPair (fun p => { p with
      deltaSent := match x with
        | .delta .. => p.deltaSent ++ [p.ckptSeq]
        | _ => p.deltaSent })
  else s

/-- Whether the module keeps a checkpoint of its lighting control. -/
def State.keepsCkpt (s : State) : Bool := s.role == rolePairActive || s.role == roleSolo

/-- CKPT_DELTA: every 1 s, while firmware runs (R351). -/
def execCkptDelta (s : State) : Res :=
  .next (s.when (s.keepsCkpt && s.power.step == 5) (fun s => let x := s.deltaPart; (s.ckptSend x).ownTake x))
/-- CKPT_SNAPSHOT: every 10 min. -/
def execCkptSnapshot (s : State) : Res :=
  .next (s.when s.keepsCkpt (fun s => let x := s.snapshotPart; (s.ckptSend x).ownTake x))

/-- A part reaches the standby's area. The two newest snapshots are kept; a delta adds to the newest, and to the one being
received. A timed sheaf of the journal is judged pending by this module's own time base at receipt, since an entry carries no mark
of it (DEDUCED, assumption 189). -/
def State.ckptStore (s : State) (x : CkptPart) : State :=
  match x with
  | .journal e => s.modPair (fun p => { p with journal := commInsert s.stillPending e p.journal, sheafSeen := max p.sheafSeen e.seq })
  | .delta _ _ _ q =>
    s.modPair (fun p => { p with
      ckpt := p.ckpt.take x, building := p.building.take x, sheafSeen := max p.sheafSeen q, ckptAt := some s.opMs })
  | .snapshot _ last .. =>
    let b := s.pair.building.take x
    if last then s.modPair (fun p => { p with older := p.ckpt, ckpt := b, building := Ckpt.empty })
    else s.modPair (fun p => { p with building := b })

/-- The region of the flash that keeps a part. -/
def CkptPart.region : CkptPart → FlashRegion
  | .journal _ => .journal
  | _ => .checkpoint

/-- CKPT: epoch, number, the sender's settings format, and what the frame carries. A frame of a partner whose format differs
is discarded (R560), and so is one that a read-only region cannot take (R325). -/
def State.ckptIn (s : State) (e q fmt : Nat) (x : CkptPart) : State :=
  let s := s.seePartner e
  if s.role = roleStandby ∧ fmt = s.runFmt ∧ s.flashStuck x.region = false then
    ((s.modPair (fun p => { p with ckptSeen := q, ckptEpoch := e })).ckptStore x).pairCkpt 4 q []
  else s
/-- CKPT, on a PAIR port that is UP. -/
def execCkpt (e q : BitVec 32) (fmt : BitVec 16) (x : CkptPart) (s : State) : Res :=
  .next (s.when s.pairLinkUp (·.ckptIn e.toNat q.toNat fmt.toNat x))

/-- CKPT_ACK: epoch and the newest CKPT number received. -/
def State.ckptAck (s : State) (e q : Nat) : State :=
  let s := s.seePartner e
  if s.role = rolePairActive then
    let old := s.pair.deltaSent
    let left := old.filter (fun n => decide (q < n))
    s.modPair (fun p => { p with deltaSent := left, ckptAcked := if left.length < old.length then some s.opMs else p.ckptAcked })
  else s
/-- CKPT_ACK, on a PAIR port that is UP. -/
def execCkptAck (e q : BitVec 32) (s : State) : Res := .next (s.when s.pairLinkUp (·.ckptAck e.toNat q.toNat))

/-- CKPT_STALE: SYS_PAIR_CKPT.AGE_MS exceeds 3,000 ms. -/
def execCkptStale (s : State) : Res :=
  .next (s.when (s.role == rolePairActive || s.role == roleStandby) (·.raise E.SYS_PAIR_EVT.CKPT_STALE))

/-- The moments whose ages SYS_PAIR_LEASE and SYS_PAIR_CKPT show: the newest lease and delta acknowledged, in STANDBY, and in BOOT
before a role, those received (R345, assumption 77). -/
def State.leaseSince (s : State) : Option Nat :=
  if s.role = roleStandby ∨ s.role = roleBoot then s.pair.leaseAt else s.pair.leaseAcked
def State.ckptSince (s : State) : Option Nat :=
  if s.role = roleStandby ∨ s.role = roleBoot then s.pair.ckptAt else s.pair.ckptAcked
/-- A saturating age in ms (R345). -/
def State.ageMs (s : State) (m : Nat) (t : Option Nat) : Nat :=
  match t with
  | some a => min m (s.opMs - a)
  | none => m

/-! ## Beacons (R338) -/

/-- Whether logical engine `l` runs. -/
def State.engRuns (s : State) (l : Nat) : Bool :=
  s.engActive l && (s.engState (s.physOf l) == stRun || s.engState (s.physOf l) == stWait)

/-- A beacon to endpoint `i` on path 0 or 2. -/
def State.beacon (s : State) (i : Nat) : State :=
  let a := w32 (s.ep i EP.ADDR)
  let b := s.ownBody ccPoll (s.epEui i) 0 (s.ep i EP.GEN) 0
  if s.ep i EP.PATH = 0 then
    let k := getBits a 16 7
    s.ringSend k (s.poleMac k (getBits a 8 4)) b false
  else if s.ep i EP.PATH = 2 then
    let c := getBits a 16 3
    s.canOwn c (s.canFrameOf c b (getBits a 8 6) (getBits a 0 5) false)
  else s
/-- BEACON_SEND. -/
def execBeaconSend (i : Fin 131072) (s : State) : Res :=
  .next (s.when ((s.role == rolePairActive || s.role == roleSolo) && s.epValid i && s.engRuns (s.ep i EP.ENG)) (·.beacon i))

end Sys2Proof.Machine
end

