-- ==== Sys2Proof/Machine/Gauge.lean ====
section
/-! DEFINITION. The gauge of the backup cell (R358, R362), which the backup domain keeps. -/
namespace Sys2Proof.Machine
open Sys2Proof

/-- SOC follows the count and the capacity (R366). With a capacity of 0 the quotient has no value: it is a free one. -/
def State.showSoc (s : State) : State :=
  let cap := s.f R.PWR_GAUGE_CAP.CAP
  let r := if cap = 0 then s.free else (100 * s.f R.PWR_GAUGE.CHARGE / cap, s)
  r.2.setF R.PWR_GAUGE.SOC r.1
def State.setCharge (s : State) (n : Nat) : State :=
  (({ s with power := { s.power with cellRest := 0 } }).setF R.PWR_GAUGE.CHARGE n).showSoc
/-- One µAh in the unit of the gauge, µA times ticks. -/
def cellUnit : Nat := 3600 * secTicks
/-- Charge goes into the cell, or out of it, in that unit: the gauge counts it, from 0 to PWR_GAUGE_CAP (R362). -/
def State.gaugeCount (s : State) (q : Int) : State :=
  let cap := s.f R.PWR_GAUGE_CAP.CAP
  let n := (((s.f R.PWR_GAUGE.CHARGE * cellUnit + s.power.cellRest : Nat) : Int) + q).toNat
  if cap * cellUnit ≤ n then s.setCharge cap
  else
    let t := { s with power := { s.power with cellRest := n % cellUnit } }
    if n / cellUnit = s.f R.PWR_GAUGE.CHARGE then t else (t.setF R.PWR_GAUGE.CHARGE (n / cellUnit)).showSoc
/-- Ticks of a charge: 100 mA, and in its 3.6 V phase a current from there down to 10 mA, which is a free value (R358). -/
def State.chargeTicks (s : State) (n : Nat) : State :=
  if s.on R.PWR_CELL_STATUS.CHARGING && !s.on R.PWR_CELL_STATUS.TEMP_HOLD then
    if s.on R.PWR_CELL_STATUS.CV then (let r := s.free; r.2.gaugeCount ((10000 * n + r.1 % (90000 * n + 1) : Nat) : Int))
    else s.gaugeCount (100000 * n : Nat)
  else s
/-- One second of the RTC while the main input is absent: the backup domain draws 12 µA from the cell (R361, R362). -/
def State.backupDrain (s : State) : State :=
  if s.power.mainUp || s.power.absent then s else s.gaugeCount (-((12 * secTicks : Nat) : Int))

end Sys2Proof.Machine
end

