-- ==== Sys2Proof/Machine/Tick.lean ====
section
/-! DEFINITION. Ticks: what passes with the time base and with operating time (R50, R188, R285, R288, R297, R362, R452, R493). -/
namespace Sys2Proof.Machine
open Sys2Proof

/-! ## The time base (R285, R286, R288) -/

/-- The units in which the time base wraps: 2⁴⁸ s. -/
def tbWrap : Nat := 2 ^ 48 * tbSec
/-- TIME_INCR in 2⁻³² ns. -/
def State.incr (s : State) : Nat := s.f R.TIME_INCR_LO.INCR_LO + s.f R.TIME_INCR_HI.INCR_HI * 4294967296
def incrMin : Nat := 6865075726
def incrMax : Nat := 6878819622

/-- Set the time base. -/
def State.setNow (s : State) (n : Nat) : State := { s with time := { s.time with now := n % tbWrap } }
/-- The slew in progress: what remains, and what each tick applies. -/
def State.setSlew (s : State) (left : Int) (tick : Nat) : State :=
  { s with time := { s.time with slewLeft := left, slewTick := tick } }.setF R.TIME_STATUS.SLEWING (b2n (left != 0))

/-- The whole 2⁻³² ns that have been applied when `left` remains of an amount that is a whole number of them: the part
below is carried (R288). -/
def slewWhole (left : Int) : Int := if 0 ≤ left then (left + 999999) / 1000000 else -((-left + 999999) / 1000000)

/-- What remains of a slew after ticks that apply `tick` together. -/
def slewAfter (left : Int) (tick : Nat) : Int :=
  if 0 ≤ left then (if left ≤ tick then 0 else left - tick) else (if -(tick : Int) ≤ left then 0 else left + tick)

/-- The time base after `k` ticks, before it wraps (R285, R288). -/
def State.timeAfter (s : State) (k : Nat) : Nat :=
  let l := s.time.slewLeft
  (((s.time.now + k * s.incr : Nat) : Int) + (slewWhole l - slewWhole (slewAfter l (k * s.time.slewTick)))).toNat
/-- `k` ticks of the time base. -/
def State.timeTicks (s : State) (k : Nat) : State :=
  let t := s.setNow (s.timeAfter k)
  if s.time.slewLeft = 0 then t else t.setSlew (slewAfter s.time.slewLeft (k * s.time.slewTick)) s.time.slewTick

/-! ## ESMC that the module sends (R297) -/

/-- The bytes of an ESMC frame with the extended QL TLV, from its destination address to its FCS (PRESUMED, assumption 148). -/
def esmcLen : Nat := 64
/-- The port on which an ESMC arrives counts it as any frame (R283). -/
def State.esmcCount (s : State) (n : Nat) : State :=
  (s.addPair (R.PORT_RX_FRAMES_LO.reg n) (R.PORT_RX_FRAMES_HI.reg n) 1).addPair (R.PORT_RX_OCTETS_LO.reg n)
    (R.PORT_RX_OCTETS_HI.reg n) esmcLen

/-- The QL that the module sends on port `n`: that of the selected source, QL-DNU on its port, QL-eEEC in holdover and
free-run. -/
def State.esmcQl (s : State) (n : Nat) : EsmcQl :=
  if s.f R.TIME_SYNCE_STATUS.STATE ≠ 1 then .eEec
  else if s.f (R.TIME_SYNCE_SRC.PORT (s.f R.TIME_SYNCE_STATUS.SEL)) = n then .dnu
  else .source (s.f R.TIME_SYNCE_STATUS.QL)
/-- An ESMC leaves on every enabled port that is UP (R297): a frame like any other, which the port counts and is busy with. -/
def State.esmcSend (s : State) : State :=
  foldS ((List.range 256).filter (fun n => s.on (R.PORT_CFG.EN n) && s.portUp n))
    (fun n t => ((t.portSent n t.fab.nextFrame esmcLen).modFab (fun b => { b with nextFrame := b.nextFrame + 1 })).send
      (.esmc n (s.esmcQl n))) s

/-! ## Everything that passes with a tick -/

/-- Operating time and the time since the input became valid advance with the input valid, and the gauge counts a charge
(R188, R362, R493). -/
def State.countTicks (s : State) (n : Nat) : State :=
  if s.power.inputOk then
    ({ s with power := { s.power with opTicks := s.power.opTicks + n, validTicks := s.power.validTicks + n } }).chargeTicks n
  else s
/-- `n` ticks without a whole second within them. -/
def State.ticks (s : State) (n : Nat) : State := if n = 0 then s else ((s.countTicks n).accTicks n).timeTicks n

/-- The least number of ticks, of at most `n`, after which the time base has reached second `x`, when it has after `n`. -/
def State.ticksTo (s : State) (n x : Nat) : Nat :=
  n - searchMax (fun j => decide (j ≤ n) && decide (x * tbSec ≤ s.timeAfter (n - j))) 64 0
/-- The numbers of ticks, of `n`, at which the time base passes a whole second; of more than 256 the last, since the counter of
R452 keeps no more snapshots. -/
def State.wholeSeconds (s : State) (n : Nat) : List Nat :=
  let a := s.time.now / tbSec
  let b := s.timeAfter n / tbSec
  (rangeFrom (b + 1 - min 256 (b - a)) (min 256 (b - a))).map (s.ticksTo n)

/-- What follows the ticks of operating time: an overload retry or an installation ends (R328, R462). -/
def State.ticked (s : State) : State := s.dioSettle.installEnd
/-- An ESMC once a second of operating time since `from_` (PRESUMED, assumption 148). -/
def State.esmcBeats (s : State) (from_ : Nat) : State :=
  foldS (List.range (s.power.opTicks / secTicks - from_ / secTicks)) (fun _ s => s.esmcSend) s
/-- `n` ticks pass, with a snapshot of the CAN counter at each whole second of the time base (R452). -/
def State.pass (s : State) (n : Nat) : State :=
  let r := (s.wholeSeconds n).foldl (fun (x : State × Nat) k => ((x.1.ticks (k - x.2)).canSnapNow, k)) (s, 0)
  ((r.1.ticks (n - r.2)).ticked).esmcBeats s.power.opTicks

end Sys2Proof.Machine
end

