-- ==== Sys2Proof/Machine/Time.lean ====
section
/-! DEFINITION. The time base (R285–R292), the time service (R297–R301), 1PPS and ToD (R298, R299), SyncE (R297) and the
transmit stamp queues (R303). -/
namespace Sys2Proof.Machine
open Sys2Proof

/-! ## Slewing and the rate (R286, R288) -/

/-- The rest of a slew passes: as many ticks as it takes (R288). -/
def State.slewRest (s : State) : State :=
  if s.time.slewLeft = 0 then s else s.pass (ceilDiv s.time.slewLeft.natAbs (max 1 s.time.slewTick))
/-- SLEW_DONE. -/
def execSlewDone (s : State) : Res := .next s.slewRest

/-- Both words of TIME_INCR take a value; a low word that a direct write holds is discarded (R17). -/
def State.setIncr (s : State) (c : Nat) : State :=
  ((s.setHeld (regAddr R.TIME_INCR_LO.reg) none).setF R.TIME_INCR_LO.INCR_LO c).setF R.TIME_INCR_HI.INCR_HI (c / 4294967296)
/-- A write of TIME_INCR (R286, R291): clamped, and in force from the tick after the one at which it takes effect. -/
def State.incrWrite (s : State) (v : Nat) : State :=
  let c := max incrMin (min v incrMax)
  let s := s.pass 1
  let s := if c = v then s else s.raise E.TIME_EVT.INCR_CLAMP
  s.setIncr c
/-- TIME_INCR_WRITE: both words of the pair (R17). -/
def execTimeIncrWrite (v : DWord) (s : State) : Res :=
  .next (s.viaWrite R.TIME_INCR_LO.reg (fun s => s.incrWrite (v.toNat % 2 ^ 40)))

/-- A slew of `adj` ns at TIME_SLEW ppm starts or replaces one (R288, R291). -/
def State.slewStart (s : State) (adj : Int) : State :=
  let ppm := max 1 (min 500 (s.f R.TIME_SLEW.PPM))
  let i := s.incr
  (s.pass 1).setSlew (adj * 4294967296 * 1000000) (i * ppm)
/-- SLEW: TIME_ADJ. -/
def State.cmdSlew (s : State) : State := s.slewStart (toSigned 32 (s.f R.TIME_ADJ.ADJ))
/-- SLEW_STOP (R288). -/
def State.cmdSlewStop (s : State) : State := (s.pass 1).setSlew 0 0
/-- TIME_CMD_SLEW. -/
def execTimeCmdSlew (s : State) : Res := .next (s.viaWrite R.TIME_CMD.reg State.cmdSlew)
/-- TIME_CMD_SLEW_STOP. -/
def execTimeCmdSlewStop (s : State) : Res := .next (s.viaWrite R.TIME_CMD.reg State.cmdSlewStop)

/-! ## Steps (R289–R292) -/

/-- Pending sheaves whose instant a forward step has passed apply at that step and set APPLIED_LATE (R292), each in its
turn among the committed ones (R81). -/
def State.stepSheaves (s : State) (old : Stamp) : State :=
  foldS (List.range 8) (fun c s =>
    let x := s.ctx c
    if x.st = .pending ∧ x.loaded = true ∧ stampUnits old < stampUnits x.when_ ∧ stampUnits x.when_ < stampUnits s.now then
      (s.setCtx c { x with late := true }).raise E.FE_SHF_EVT.APPLIED_LATE
    else s) s

/-- A step to `v` (R289): the step epoch, the slew ended, STEPPED with its record, TIME_STEP in every engine's list. -/
def State.timeStep (s : State) (v : Nat) : State :=
  let old := s.now
  let s := (s.setNow v).setSlew 0 0
  let e := (s.stepEpoch + 1) % 256
  let s := (s.setF R.TIME_STATUS.STEP e).raise E.TIME_EVT.STEPPED
  let t := s.now
  let s := (s.mtrStep old).canSnapNow.record 0x0201 1 0xFFFF
    [stampWord old 0, stampWord old 1, stampWord old 2, stampWord t 0, stampWord t 1, stampWord t 2, w32 e]
  (s.moduleEvent meTimeStep (w32 e) t e).stepSheaves old

/-- SET (R289, R291). -/
def State.cmdSet (s : State) : State := s.timeStep (nowOfStamp (s.stampR R.TIME_SET.reg))
/-- A step by a number of ns, at the tick that follows (R291); seconds wrap modulo 2⁴⁸. -/
def State.stepNs (s : State) (ns : Int) : State :=
  let s := s.pass 1
  s.timeStep (((s.time.now : Int) + ns * 4294967296) % (tbWrap : Nat)).toNat
/-- STEP: TIME_OFS. -/
def State.cmdStep (s : State) : State := s.stepNs (toSigned 64 (s.pairR R.TIME_OFS_LO.reg R.TIME_OFS_HI.reg))
/-- TIME_CMD_SET. -/
def execTimeCmdSet (s : State) : Res := .next (s.viaWrite R.TIME_CMD.reg State.cmdSet)
/-- TIME_CMD_STEP. -/
def execTimeCmdStep (s : State) : Res := .next (s.viaWrite R.TIME_CMD.reg State.cmdStep)
/-- TIME_CMD with a code. -/
def State.timeCmd (s : State) : Nat → State
  | 1 => s.cmdSet | 2 => s.cmdStep | 3 => s.cmdSlew | 4 => s.cmdSlewStop | _ => s

/-- TIME_ADJ_LEFT in ns; how a part of a ns rounds the spec does not say (R288). -/
def State.adjLeft (s : State) : Int :=
  let l := s.time.slewLeft
  let u : Int := 4294967296 * 1000000
  let m := l.natAbs / u.natAbs
  let m := if l.natAbs % u.natAbs = 0 then m else if Config.slewRound l then m + 1 else m
  if 0 ≤ l then m else -(m : Int)

/-! ## Reads that capture (R287) -/

/-- A read of TIME_NOW0. -/
def State.nowRead (s : State) : State :=
  let t := s.now
  ((((s.setR R.TIME_NOW0.reg (stampWord t 0)).setR R.TIME_NOW1.reg (stampWord t 1)).setR R.TIME_NOW2.reg (stampWord t 2)).setF
    R.TIME_NOW_STEP.STEP s.stepEpoch).answer (stampWord t 0)
/-- TIME_NOW_READ. -/
def execTimeNowRead (s : State) : Res := .next (s.viaRead R.TIME_NOW0.reg State.nowRead)
/-- A read of TIME_PPS_IN0. -/
def State.ppsInRead (s : State) : State :=
  let t := s.time.ppsIn
  (((s.setStampR R.TIME_PPS_IN.reg t).setF R.TIME_PPS_IN_STEP.VALID (b2n s.time.ppsValid)).setF R.TIME_PPS_IN_STEP.STEP
    s.time.ppsStep).answer (stampWord t 0)
/-- PPS_IN_READ. -/
def execPpsInRead (s : State) : Res := .next (s.viaRead (R.TIME_PPS_IN.reg 0) State.ppsInRead)

/-- A word of the oldest transmit stamp: 0 while the queue is empty (R303, R312). -/
def tsWord (e : TsEntry) : Nat → Word
  | 0 => w32 (e.id * 65536 + e.port % 256 * 256 + e.step % 256)
  | n => stampWord e.time (n - 1)
def State.tsHead (s : State) (p w : Nat) : Word := match s.tsQueue p with
  | [] => 0
  | e :: _ => tsWord e w
/-- How many reads of a plot's stamp registers still return 0 after a read of TIME_TS_DATA0p that found its queue empty. -/
def State.tsDry (s : State) (p : Nat) : Nat := sget natZero' s.time.tsDry p
def State.setTsDry (s : State) (p n : Nat) : State := { s with time := { s.time with tsDry := sset natZero' s.time.tsDry p n } }
/-- A read of a word of TIME_TS_DATA0p–3p (R303, R312): word 0 of an empty queue makes the three reads after it return 0 too,
whatever has come in between; a read of word 3 removes the oldest stamp else. -/
def State.tsRead (s : State) (p : Nat) : Nat → Word × State
  | 0 => (s.tsHead p 0, s.setTsDry p (if s.tsQueue p = [] then 3 else 0))
  | w =>
    if 0 < s.tsDry p then (0, s.setTsDry p (s.tsDry p - 1))
    else (s.tsHead p w, if w = 3 then s.setTsQueue p ((s.tsQueue p).drop 1) else s)
/-- TS_DATA_READ of plot `p`: a read of TIME_TS_DATA3p. -/
def execTsDataRead (p : Fin 8) (s : State) : Res :=
  .next (s.viaRead (R.TIME_TS_DATA123.reg p 2) (fun s => (s.tsRead p 3).2.answer (s.tsRead p 3).1))

/-- TIME_UTCOFF, which the ledger keeps for the next start (R350, R507). -/
def State.setUtcoff (s : State) (v : Word) : State :=
  let s := if s.ledger.utcoff = v then s
    else ({ s with ledger := { s.ledger with utcoff := v } }).ledgerCommit .utcoff (leBytes 4 v.toNat)
  s.setR R.TIME_UTCOFF.reg v

/-! ## The servo (R300, R301) -/

/-- The codes of TIME_SYNC.STATE. -/
def syFreerun : Nat := 0
def syAcquiring : Nat := 1
def syLocked : Nat := 2
def syHoldover : Nat := 3
def sySuspect : Nat := 4
def State.sync (s : State) : Nat := s.f R.TIME_SYNC.STATE
/-- Enter a servo state; a change restarts the run of intervals. -/
def State.setSync (s : State) (v : Nat) : State :=
  let s := if s.sync = v then s else { s with time := { s.time with run := 0 } }
  s.setF R.TIME_SYNC.STATE v

/-- Whether TIME_SRC_CFG admits a source (R312); PTP runs on a PTP master's port, its domain is one of the profile, and it is the
one that the best-master choice selects (R296). -/
def State.admits (s : State) : TimeSource → Bool
  | .ptp n telecom d => s.f R.TIME_SRC_CFG.MODE != 1 && s.ptpOn n && ptpDomain telecom d.toNat && s.isMaster telecom d.toNat n
  | .pps => s.f R.TIME_SRC_CFG.MODE != 0
/-- A source as `TimeSt.other` and TIME_SYNC.PORT number it: its port, 0x100 for 1PPS. -/
def TimeSource.num : TimeSource → Nat
  | .ptp n _ _ => n
  | .pps => 0x100
/-- The source that TIME_SYNC shows. -/
def State.sourceNow (s : State) : Option Nat :=
  if s.f R.TIME_SYNC.SRC = 1 then some (s.f R.TIME_SYNC.PORT) else if s.f R.TIME_SYNC.SRC = 2 then some 0x100 else none
/-- Whether an interval of an admitted source is one of the selected source: unless the source of the kind that TIME_SRC_CFG
prefers is selected (R300, R312). -/
def State.selects (s : State) : TimeSource → Bool
  | .ptp _ _ _ => !(s.f R.TIME_SRC_CFG.MODE == 3 && s.f R.TIME_SYNC.SRC == 2)
  | .pps => !(s.f R.TIME_SRC_CFG.MODE == 2 && s.f R.TIME_SYNC.SRC == 1)
def State.setOther (s : State) (x : Option Nat) : State := { s with time := { s.time with other := x } }
/-- Select the source of number `n`. -/
def State.setSource (s : State) (n : Nat) : State :=
  (s.setF R.TIME_SYNC.SRC (if n = 0x100 then 2 else 1)).setF R.TIME_SYNC.PORT n
/-- A source is selected; one of the other kind that it takes the place of stays as the other one. -/
def State.takeSource (s : State) (n : Nat) : State :=
  let old := s.sourceNow
  let s := s.setSource n
  match old with
  | some m => if (m == 0x100) == (n == 0x100) then s else s.setOther old
  | none => s.setOther none
/-- The admitted source that is left when the selected one is lost (R300, R312). -/
def State.otherSource (s : State) : Option Nat :=
  s.time.other.filter (fun n => if n = 0x100 then s.f R.TIME_SRC_CFG.MODE != 0 else s.f R.TIME_SRC_CFG.MODE != 1)

/-- The line for |offset| ≤ 100 µs: slew by the offset, correct the rate. The corrected TIME_INCR is the time service's
and a free value within the limits of R286. -/
def State.servoSlew (s : State) (off : Int) : State :=
  let r := s.free
  let i := incrMin + r.1 % (incrMax - incrMin + 1)
  let s := (r.2.setR R.TIME_ADJ.reg (w32 (ofSigned 32 (-off)))).slewStart (-off)
  s.setIncr i

def State.setRun (s : State) (n : Nat) : State := { s with time := { s.time with run := n } }

/-- The base free-runs at the last TIME_INCR: a slew in progress ends (R300). -/
def State.freeRun (s : State) : State := s.setSlew 0 s.time.slewTick

/-- An interval handled in ACQUIRING or LOCKED (R300). A step breaks the run of small offsets. -/
def State.servoTrack (s : State) (off : Int) : State :=
  if off < -100000 then ((s.stepNs (-off)).setSync syAcquiring).setRun 0
  else if 100000 < off then
    ({ s with time := { s.time with suspect := off, confirms := 0 } }.freeRun.raise E.TIME_EVT.SUSPECT).setSync sySuspect
  else
    let s := s.servoSlew off
    let small := decide (-1000 ≤ off ∧ off ≤ 1000)
    let n := if (s.sync == syLocked) != small then s.time.run + 1 else 0
    if n < 16 then s.setRun n
    else if s.sync = syLocked then s.setSync syAcquiring else s.setSync syLocked

/-- An interval in SUSPECT (R300). The step is by the offset that was suspect and is now confirmed (DEDUCED,
assumption 26). -/
def State.servoSuspect (s : State) (off : Int) : State :=
  let sus := s.time.suspect
  let near := decide (sus - 10000 ≤ off ∧ off ≤ sus + 10000)
  if near && s.time.confirms == 2 then (s.stepNs (-sus)).setSync syAcquiring
  else if off ≤ 100000 then (s.setSync syAcquiring).servoTrack off
  else if near then { s with time := { s.time with confirms := s.time.confirms + 1 } }
  else { s with time := { s.time with suspect := off, confirms := 0 } }

/-- A sync interval of an admitted source with an offset in ns, time base minus source, and the source's UTC offset
(R300, R301). One that is not selected is only remembered. -/
def State.syncInterval (s : State) (src : TimeSource) (off : Int) (utc : Word) : State :=
  if !s.admits src then s
  else if !s.selects src then s.setOther (some src.num)
  else
    let s := (s.takeSource src.num).setUtcoff utc
    match s.sync with
    | 0 => (s.stepNs (-off)).setSync syAcquiring
    | 3 => (s.setSync syAcquiring).servoTrack off
    | 4 => s.servoSuspect off
    | _ => s.servoTrack off
/-- SYNC_INTERVAL: source, offset in ns (signed), UTC offset. -/
def execSyncInterval (src : TimeSource) (off : DWord) (utc : Word) (s : State) : Res := .next (s.syncInterval src off.toInt utc)

/-- The source is lost (R300): the base free-runs, until the first interval of the other admitted source when there is one.
Else TIME_SYNC names no source (DEDUCED, assumption 27). -/
def State.sourceLost (s : State) : State :=
  if s.sync = syAcquiring ∨ s.sync = syLocked ∨ s.sync = sySuspect then
    match s.otherSource with
    | some n => (s.freeRun.setSource n).setOther none
    | none => (((s.freeRun.setSync syHoldover).setF R.TIME_SYNC.SRC 0).setF R.TIME_SYNC.PORT 0x100).raise E.TIME_EVT.HOLDOVER
  else s
/-- SOURCE_LOST. -/
def execSourceLost (s : State) : Res := .next s.sourceLost

/-! ## SyncE (R297) -/

/-- The candidates that can be selected: configured, with a usable QL, not waiting to be restored. -/
def State.synceCandidates (s : State) : List Nat :=
  (List.range 4).filter (fun i => s.on (R.TIME_SYNCE_SRC.VALID i) && !s.time.synceDown.contains i &&
    sget natZero' s.time.synceQl i != 0 && Config.qlUsable (sget natZero' s.time.synceQl i - 1))

/-- The choice: the best QL, the lowest candidate among equals. Without EN the DPLL locks to D1, which shows as FREERUN
(DEDUCED, assumption 28). -/
def State.synceChoose (s : State) : State :=
  if !s.on R.TIME_SYNCE_CFG.EN then (s.setF R.TIME_SYNCE_STATUS.STATE 0).setF R.TIME_SYNCE_STATUS.QL 0
  else
    let ql := fun i => sget natZero' s.time.synceQl i - 1
    let best := s.synceCandidates.foldl (fun b i => match b with
      | none => some i
      | some j => if Config.qlRank (ql i) < Config.qlRank (ql j) then some i else some j) (none : Option Nat)
    match best with
    | some i =>
      (({ s with time := { s.time with synceWas := true } }.setF R.TIME_SYNCE_STATUS.STATE 1).setF R.TIME_SYNCE_STATUS.SEL i).setF
        R.TIME_SYNCE_STATUS.QL (ql i)
    | none => (s.setF R.TIME_SYNCE_STATUS.STATE (if s.time.synceWas then 2 else 0)).setF R.TIME_SYNCE_STATUS.QL 0
/-- Selection; a choice that changes is announced at once (PRESUMED, assumption 148). -/
def State.synceSelect (s : State) : State :=
  let t := s.synceChoose
  if t.r R.TIME_SYNCE_STATUS.reg = s.r R.TIME_SYNCE_STATUS.reg then t else t.esmcSend

/-- The QL by which candidate `i` is selected. -/
def State.setSynceQl (s : State) (i : Nat) (ql : Option Nat) : State :=
  { s with time := { s.time with
    synceQl := sset natZero' s.time.synceQl i (match ql with
      | some q => q + 1
      | none => 0)
    synceHold := s.time.synceHold.filter (· != i) } }
/-- An ESMC with a QL arrives on a port, whose receiver counts it. A candidate that could be selected and whose QL is lost
keeps its place until the hold-off has passed. -/
def State.esmc (s : State) (n ql : Nat) : State :=
  match (List.range 4).find? (fun i => s.on (R.TIME_SYNCE_SRC.VALID i) && s.f (R.TIME_SYNCE_SRC.PORT i) == n) with
  | none => s
  | some i =>
    if Config.qlUsable ql then (s.setSynceQl i (some ql)).synceSelect
    else if s.synceCandidates.contains i then
      { s with time := { s.time with synceHold := i :: s.time.synceHold.filter (· != i) } }
    else s.setSynceQl i (some ql)
/-- ESMC_RECEIVE: port and QL. A port that is not UP receives nothing (R262). -/
def execEsmcReceive (n : Fin 256) (ql : Byte) (s : State) : Res :=
  .next (s.when (s.portUp n) (fun s => (s.esmcCount n).esmc n ql.toNat))
/-- The hold-off of candidate `i` ends: its QL is lost, and it is out until it is restored. -/
def State.synceHoldOff (s : State) (i : Nat) : State :=
  let s := s.when (s.time.synceHold.contains i) (·.setSynceQl i none)
  ({ s with time := { s.time with synceDown := i :: s.time.synceDown.filter (· != i) } }).synceSelect
/-- SYNCE_HOLD_OFF of a candidate. -/
def execSynceHoldOff (i : Fin 4) (s : State) : Res := .next (s.synceHoldOff i)
/-- The wait-to-restore of candidate `i` ends. -/
def State.synceRestore (s : State) (i : Nat) : State :=
  ({ s with time := { s.time with synceDown := s.time.synceDown.filter (· != i) } }).synceSelect
/-- SYNCE_WAIT_TO_RESTORE of a candidate. -/
def execSynceWaitToRestore (i : Fin 4) (s : State) : Res := .next (s.synceRestore i)

/-! ## 1PPS and ToD (R298, R299) -/

/-- A rising edge of the input. -/
def State.ppsEdge (s : State) : State :=
  { s with time := { s.time with ppsIn := s.now, ppsStep := s.stepEpoch, ppsValid := true } }
/-- PPS_IN_EDGE. -/
def execPpsInEdge (s : State) : Res := .next s.ppsEdge

/-- Whether a ToD message is good: 16 bytes, SYNC, TYPE and CRC. -/
def todGood (l : List Byte) : Bool :=
  l.length == 16 && l.take 3 == [0x5A, 0xA5, 0x01] && leNat (l.drop 14) == crc16 ((l.drop 2).take 12)
/-- A ToD message: with the input as the source, TIME_UTCOFF takes its UTC offset when its flag says that it is valid
(R298, R301). -/
def State.todIn (s : State) (l : List Byte) : State :=
  if todGood l && s.f R.TIME_SYNC.SRC == 2 && (l.getD 11 0).getLsbD 2 then
    s.setUtcoff (w32 (ofSigned 32 (toSigned 16 (leNat ((l.drop 9).take 2)))))
  else s
/-- TOD_MESSAGE. -/
def execTodMessage (l : List Byte) (s : State) : Res := .next (s.todIn l)

/-- 1.1 s pass without an edge while TIME_SRC_CFG admits the input, which is lost as a source (R300). -/
def State.ppsMiss (s : State) : State :=
  if s.admits .pps then
    let s := s.raise E.TIME_EVT.PPS_IN_MISS
    if s.f R.TIME_SYNC.SRC = 2 then s.sourceLost else if s.time.other = some 0x100 then s.setOther none else s
  else s
/-- PPS_IN_MISS. -/
def execPpsInMiss (s : State) : Res := .next s.ppsMiss

/-- The ToD message that describes a pulse at PTP second `sec`: FLAGS and CLASS come from the source's data, which no
register holds, and are free (R298). -/
def State.todOut (s : State) (sec : Nat) : List Byte × State :=
  let r := s.free
  let body := [BitVec.ofNat 8 1] ++ leBytes 6 sec ++ leBytes 2 (s.f R.TIME_UTCOFF.UTCOFF) ++
    [BitVec.ofNat 8 (r.1 % 16), BitVec.ofNat 8 (r.1 / 16), BitVec.ofNat 8 s.stepEpoch]
  ([0x5A, 0xA5] ++ body ++ leBytes 2 (crc16 body), r.2)

/-- A whole second of the time base plus OFFSET (R299). -/
def State.ppsOut (s : State) : State :=
  let drive := s.on R.TIME_PPS_CFG.OUT_EN && (s.on R.TIME_PPS_CFG.FORCE || s.sync == syLocked || s.sync == syHoldover)
  if drive then
    let sec := (((s.time.now : Int) - toSigned 16 (s.f R.TIME_PPS_CFG.OFFSET) * 4294967296) / (tbSec : Nat)).toNat
    if s.on R.TIME_PPS_CFG.TOD_EN then
      let r := s.todOut sec
      r.2.send (.pps (s.f R.TIME_PPS_CFG.WIDTH) (some r.1))
    else s.send (.pps (s.f R.TIME_PPS_CFG.WIDTH) none)
  else s
/-- PPS_OUT. -/
def execPpsOut (s : State) : Res := .next s.ppsOut

end Sys2Proof.Machine
end

