-- ==== Sys2Proof/Machine/Checks.lean ====
section
/-! DEFINITION. The check of a sheaf (R73, R74) with the block rules of R225, R254, R282, R311, R343, R420, R441, R457, R473
and R489: what a sheaf's words would be, which rules the state that results would break, and which failure is reported.
A state here is hypothetical: entries are written into registers and field memory and nothing else happens. -/
namespace Sys2Proof.Machine
open Sys2Proof

/-! ## Entries and what they write (R71) -/

/-- What an entry may write. -/
inductive ShfKey where
  | entry (k : Nat)
  | at_ (space : Nat) (addr : Word)
  | word (off : Nat)
  | ep (i : Nat)
  | row (r : Nat)
  | reg (x : Reg)
  deriving DecidableEq, Repr

/-- Whether staged entry `k` wrote what a key names. -/
def ShfEntry.hits (e : ShfEntry) (k : Nat) : ShfKey → Bool
  | .entry j => j == k
  | .at_ sp a => e.space == sp && e.addr == a
  | .word a => e.space == 1 && e.addr.toNat == a
  | .ep i => e.space == 1 && decide (epBase i ≤ e.addr.toNat ∧ e.addr.toNat < epBase i + 128)
  | .row r => e.space == 1 && decide (rowBase r ≤ e.addr.toNat ∧ e.addr.toNat < rowBase r + 256)
  | .reg x => e.space == 0 && e.addr.toNat == regAddr x

/-- A rule that is broken, and the words, records, rows or images in which. -/
structure Viol where
  rule : Nat
  keys : List ShfKey
  deriving DecidableEq, Repr

/-- A violation when `c` holds. -/
def viol (c : Bool) (rule : Nat) (keys : List ShfKey) : List Viol := if c then [⟨rule, keys⟩] else []

/-- Words of the endpoint table, the row table and groups 0–511 (R24). Group 0 has a rule of its own (R54). -/
def shfWord (a : Nat) : Bool := decide (a < 0x2000000) && a % 4 == 0

/-- Whether an address decodes to a register that a sheaf may stage (R34): not of KEY or REC. An address in the RAD range of an
RS2560-MX, where R2 lets a direct write pass unnoticed, decodes to none, so its entry fails rule 0x01 (DESIGN CHOICE,
assumption 10). -/
def shfReg (code : OrderCode) (a : Nat) : Option (Blk × Nat) :=
  if a % 4 ≠ 0 then none
  else match targetOf code a with
    | .reg b off => if b = .key ∨ b = .rcd then none else some (b, off)
    | _ => none

/-- The word that an entry leaves in a register: RW and SO fields under the mask (R19). -/
def State.shfRegWord (s : State) (b : Blk) (off : Nat) (mask data : Word) : Word :=
  match findRow b off with
  | some x => mergeMask (s.rd b off) data (mask &&& sheafMask x)
  | none => s.rd b off

/-- Write one entry's word. -/
def State.putEntry (s : State) (e : ShfEntry) : State :=
  if e.space = 0 then
    match shfReg s.ident.code e.addr.toNat with
    | some (b, off) => s.wr b off (s.shfRegWord b off e.mask e.data)
    | none => s
  else if e.space = 1 ∧ shfWord e.addr.toNat = true then
    s.setFWord e.addr.toNat (mergeMask (s.fword e.addr.toNat) e.data e.mask)
  else s
/-- Write the words of a list of entries in order. -/
def State.putEntries (s : State) (l : List ShfEntry) : State := l.foldl State.putEntry s

/-! ## Images (R123, R124) -/

/-- The image at an offset of field memory, when it passes every condition of R124. R124's list has no test of CODE_WORDS
against the 65,536 of R123's table; an image of more code words fails here too (DESIGN CHOICE, assumption 162). -/
def State.imageAt (s : State) (off : Nat) : Option Image :=
  let w := fun k => s.fword (off + 4 * k)
  let code := getBits (w 3) 0 17
  let data := getBits (w 4) 0 17
  let dataAt := getBits (w 5) 0 16
  let bss := getBits (w 6) 0 17
  let len := 64 + 4 * (code + data)
  let inside := decide (0x3000000 ≤ off ∧ off + len ≤ 0x4000000) && off % 64 == 0
  let head := w 0 == 0x314E485A && w 1 == 1 && getBits (w 2) 16 16 == 0 && getBits (w 3) 17 15 == 0 &&
    getBits (w 4) 17 15 == 0 && getBits (w 5) 16 16 == 0 && getBits (w 6) 17 15 == 0
  let fits := decide (getBits (w 2) 0 16 < code) &&
    (data + bss == 0 || (decide (code ≤ dataAt) && decide (dataAt + data + bss ≤ 65536)))
  let digest := sha256 (s.fbytes off 32 ++ s.fbytes (off + 64) (4 * (code + data)))
  if inside && head && fits && decide (code ≤ 65536) && digest == s.fbytes (off + 32) 32 then
    some ⟨getBits (w 2) 0 16, code, dataAt, (List.range (code + data)).map (fun k => w (16 + k))⟩
  else none

/-- The entries of space 2 that count: the last staged for each engine (R71), with their positions. -/
def imageEntries (l : List ShfEntry) : List (ShfEntry × Nat) :=
  let z := l.zipIdx 0
  z.filter (fun e => e.1.space == 2 && !(z.any (fun f => f.1.space == 2 && f.1.addr == e.1.addr && decide (e.2 < f.2))))

/-- The images that a sheaf installs, by logical engine. -/
def State.sheafImages (s : State) (l : List ShfEntry) : List (Nat × Image) :=
  (imageEntries l).filterMap (fun e => (s.imageAt e.1.data.toNat).map (fun x => (e.1.addr.toNat, x)))

/-! ## Rules on entries and the words they write: 0x01, 0x02, 0x0C, 0x0D, 0x41, 0x67 -/

/-- M fields of a word of an endpoint record (R47). -/
def mBits (a : Nat) : Word :=
  match a % 128 with
  | 0x18 => 0xFFFFF000 | 0x1C => 0x000FFFFF | 0x20 => 0x0000003C | 0x24 => 0xFFFFFFFF | 0x28 => 0xFFFFFFFF
  | 0x2C => 0xFFFFFFFF | 0x30 => 0xFFFFFFFF | 0x34 => 0xFFFFFFFF | 0x38 => 0xFFFFFFFF | 0x3C => 0xFFFFFFFF
  | 0x40 => 0xFFFFFFFF | 0x44 => 0xFFFFFFFF | 0x48 => 0xFFFFFFFF | 0x54 => 0xFFFFFFFF | 0x58 => 0xFFFFFFFF
  | 0x5C => 0xFFFFFFFF | _ => 0

/-- Bits of ADDR that R48 does not name, by path. -/
def addrReserved (path : Nat) (a : Word) : Word :=
  match path with
  | 0 => 0xFF80F0C0
  | 1 => 0xFFFC0000
  | 2 => 0xFFF8C0E0
  | 3 => if bit a 31 then 0x7FFFFFFC else 0x7FFCFC00
  | _ => 0

/-- Reserved bits of a word of a record, row or link (R47, R48, R51, R52). -/
def State.reservedBits (s : State) (a : Nat) : Word :=
  if a < 0x1000000 then
    match a % 128 with
    | 0x00 => 0x00FFFF00 | 0x04 => addrReserved (s.m (a / 128 * 128) EP.PATH) (s.fword a)
    | 0x14 => 0xFF0C0000 | 0x18 => 0x00000C00 | 0x1C => 0xC0000000 | 0x20 => 0xFFFF0080 | 0x44 => 0xFFFF0000
    | 0x50 => 0xFFFFFFC0 | 0x58 => 0xFFFF0000 | _ => 0
  else if a < 0x1800000 then
    let o := a % 256
    if o = 0x00 then 0x7FFF0000 else if o = 0x04 then 0xFF000000 else if o = 0x08 then 0xFFFC0000
    else if o = 0x0C then 0xFFFE0000 else if o = 0x10 then 0xFFFC0000
    else if 0x60 ≤ o ∧ o < 0x80 then 0xFFFFFFFF
    else if 0x80 ≤ o ∧ o < 0xC0 then 0x00007F00
    else if 0xC0 ≤ o then 0xFFFFFFFF else 0
  else 0

/-- Rules on one entry, which `key` names; `t` is the state after the sheaf. -/
def State.entryRules (t : State) (e : ShfEntry) (key : ShfKey) : List Viol :=
  let a := e.addr.toNat
  let reg := shfReg t.ident.code a
  let okTarget := match e.space with
    | 0 => reg.isSome
    | 1 => shfWord a
    | 2 => true
    | _ => false
  let vlan0 := match reg with
    | some (.fab, off) => decide (0xF10000 ≤ off ∧ off < 0xF10080) || decide (0xF8FF80 ≤ off ∧ off < 0xF90000)
    | _ => false
  let curve := match reg with
    | some (.rtc, off) =>
      decide (0x80 ≤ off ∧ off < 0x100) ||
        (off == 0x20 && decide (50000 < (toSigned 32 (t.r R.RTC_TRIM.reg).toNat).natAbs))
    | _ => false
  viol (!okTarget || e.mask == 0) 0x01 [key] ++
  viol (e.space == 1 && shfWord a && (t.fword a &&& t.reservedBits a) != 0) 0x02 [.word a] ++
  viol (e.space == 1 && (decide (a < 0x1000000) && (e.mask &&& mBits a) != 0 || decide (0x1800000 ≤ a ∧ a < 0x1804000)))
    0x0C [key] ++
  viol (e.space == 0 && vlan0 && (e.data &&& e.mask) != 0) 0x41 [key] ++
  viol (e.space == 0 && curve) 0x67 [key]

/-- Rule 0x0D on the image entries; `s` holds shared program data. -/
def State.imageRules (s : State) (l : List ShfEntry) : List Viol :=
  (imageEntries l).flatMap (fun e => viol (decide (15 < e.1.addr.toNat) || (s.imageAt e.1.data.toNat).isNone) 0x0D [.entry e.2])

/-! ## Rules on endpoint records: 0x03–0x07 -/

/-- Pairs of different members of a list on which a function agrees. -/
def clashes {α : Type} [DecidableEq α] (f : Nat → α) : List Nat → List (Nat × Nat)
  | [] => []
  | i :: r => (r.filter (fun j => f i = f j)).map (fun j => (i, j)) ++ clashes f r

/-- Whether an endpoint is a chain element, or a string stage. -/
def State.isElem (s : State) (i : Nat) : Bool := s.ep i EP.PATH == 3 && !bit (w32 (s.ep i EP.ADDR)) 31
def State.isStage (s : State) (i : Nat) : Bool := s.ep i EP.PATH == 3 && bit (w32 (s.ep i EP.ADDR)) 31

/-- Rules 0x03 and 0x04 on valid record `i`. -/
def State.epRules (s : State) (i : Nat) : List Viol :=
  let ty := s.ep i EP.TYPE
  let p := s.ep i EP.PATH
  let f := s.ep i EP.FEEDER
  let a := w32 (s.ep i EP.ADDR)
  viol (decide (8 < ty) || decide (3 < p) || (decide (0xC ≤ f) && f != 0xF) || s.ep i EP.PHASE == 3 ||
    ((ty == 4 || ty == 5) && !s.isElem i) || (ty == 6 && !s.isStage i)) 0x03 [.ep i] ++
  viol ((a &&& addrReserved p a) != 0 || (p == 1 && s.ident.code == .mx)) 0x04 [.ep i]

/-- The unit of a path to which R23's limit applies: the pole node of a ring, the transceiver, the CAN channel, the chain,
or the string stages. -/
def State.pathUnit (s : State) (i : Nat) : Nat × Nat :=
  let a := w32 (s.ep i EP.ADDR)
  match s.ep i EP.PATH with
  | 0 => (0, getBits a 16 7 * 16 + getBits a 8 4)
  | 1 => (1, getBits a 16 2)
  | 2 => (2, getBits a 16 3)
  | 3 => if bit a 31 then (4, 0) else (3, getBits a 16 2)
  | p => (5 + p, 0)
/-- The endpoints that a unit of a path may have (R23). -/
def pathCap : Nat → Nat
  | 0 => 64 | 1 => 4096 | 2 => 2048 | 3 => 1024 | 4 => 4 | _ => 131072

/-- The state-wide rules on valid records: the limits of R23 by path, shared addresses and EUI-64s. -/
def State.epsRules (s : State) : List Viol :=
  let v := s.validEps
  ((v.map s.pathUnit).eraseDups).flatMap (fun u =>
    let on := v.filter (fun i => s.pathUnit i == u)
    viol (decide (pathCap u.1 < on.length)) 0x04 (on.map .ep)) ++
  (clashes (fun i => (s.ep i EP.PATH, s.ep i EP.ADDR)) v).map (fun x => ⟨0x05, [.ep x.1, .ep x.2]⟩) ++
  (clashes s.epEui v).map (fun x => ⟨0x06, [.ep x.1, .ep x.2]⟩)

/-- Rule 0x07: from state `s` to state `t`. -/
def State.genRules (s t : State) : List Viol :=
  (s.validEps.filter (fun i => t.epValid i && s.epEui i != t.epEui i && t.ep i EP.GEN != (s.ep i EP.GEN + 1) % 256)).map
    (fun i => ⟨0x07, [.ep i]⟩)

/-! ## Rules on rows: 0x08–0x0B -/

/-- The members of row `r` by their records. -/
def State.onRow (s : State) (r : Nat) : List Nat :=
  s.validEps.filter (fun i => s.ep i EP.ON_ROW == 1 && s.ep i EP.ROW == r)

/-- Whether consecutive members lie in order: POS not falling, ties by rising index. -/
def State.inOrder (s : State) : List Nat → Bool
  | i :: j :: r =>
    (decide (s.ep i EP.POS < s.ep j EP.POS) || (s.ep i EP.POS == s.ep j EP.POS && decide (i < j))) && s.inOrder (j :: r)
  | _ => true

/-- Whether the chain of row `r` is as rule 0x09 wants it. -/
def State.rowListOk (s : State) (r : Nat) : Bool :=
  let ms := s.rowMembers r
  let n := s.row r ROW.COUNT
  let good := fun i => s.epValid i && s.ep i EP.ON_ROW == 1 && s.ep i EP.ROW == r && decide (s.ep i EP.POS ≤ s.row r ROW.LENGTH)
  let ended := match ms.getLast? with
    | some z => z == s.row r ROW.TAIL && s.ep z EP.NEXT_VALID == 0
    | none => s.row r ROW.HEAD_VALID == 0
  ms.length == n && ended && ms.all good && s.inOrder ms && (s.onRow r).all ms.contains

/-- Rules 0x08, 0x09 and 0x0A on valid row `r`. -/
def State.rowRules (s : State) (r : Nat) : List Viol :=
  let ms := s.onRow r
  let low := ms.filter (fun i => decide (s.ep i EP.LOCAL_CEIL < s.row r ROW.FLOOR))
  let engs := (ms.map (fun i => s.ep i EP.ENG)).eraseDups
  viol (decide (s.row r ROW.CEIL < s.row r ROW.FLOOR)) 0x08 [.row r] ++
  viol (!low.isEmpty) 0x08 (.row r :: low.map .ep) ++
  viol (!s.rowListOk r) 0x09 (.row r :: (s.rowMembers r ++ ms).map .ep) ++
  viol (decide (1 < engs.length)) 0x0A (ms.map .ep)

/-- The word of link `k` of a row: 0–7 at its start end, 8–15 at its end end. -/
def linkOff (r k : Nat) : Nat := rowBase r + 0x80 + 4 * k
/-- Rule 0x0B on link `k` of valid row `r`. The words that it rests on are the link, the two rows' VALID words, and the links of
the row end that it names (assumption 80). -/
def State.linkRule (s : State) (r k : Nat) : List Viol :=
  let w := s.fword (linkOff r k)
  let t := getBits w 15 15
  let far := getBits w 30 1
  let back := (List.range 8).any (fun j =>
    let v := s.fword (linkOff t (8 * far + j))
    bit v 31 && getBits v 15 15 == r && getBits v 30 1 == k / 8)
  viol (bit w 31 && !(s.row t ROW.VALID == 1 && back)) 0x0B
    ([.word (linkOff r k), .word (rowBase r), .word (rowBase t)] ++ (List.range 8).map (fun j => .word (linkOff t (8 * far + j))))

/-- Valid records that stand on a row that is not valid. -/
def State.strayRules (s : State) : List Viol :=
  (s.validEps.filter (fun i => s.ep i EP.ON_ROW == 1 && s.row (s.ep i EP.ROW) ROW.VALID == 0)).map
    (fun i => ⟨0x09, [.ep i, .row (s.ep i EP.ROW)]⟩)

/-! ## FAB rules (R225, R254) -/

def between (a b n : Nat) : Bool := decide (a ≤ n ∧ n ≤ b)

/-- The rules of the fabric in a sheaf's check (R225). -/
def State.fabRules (s : State) : List Viol :=
  (List.range 8).flatMap (fun p =>
    (List.range 32).flatMap (fun i =>
      viol (s.f (R.FAB_PORTCFG.PVID p i) == 0 || s.f (R.FAB_PORTCFG.PVID p i) == 4095) 0x40 [.reg (R.FAB_PORTCFG.reg p i)]) ++
    viol (!between 8 255 (s.f (R.FAB_SEQ_TMO.TMO p))) 0x44 [.reg (R.FAB_SEQ_TMO.reg p)] ++
    viol (decide (s.f (R.FAB_BUF_TOTAL.TOTAL p) < reasmCells + guardCells + s.f (R.FAB_BUF_MC_RES.MC_RES p) + s.minSum p +
      s.f (R.FAB_BUF_HEADROOM.HEADROOM p))) 0x45
      ([.reg (R.FAB_BUF_MC_RES.reg p), .reg (R.FAB_BUF_HEADROOM.reg p)] ++
        (List.range 264).map (fun a => .reg (R.FAB_ACCT_MIN.reg p a))) ++
    (List.range 264).flatMap (fun a =>
      viol (decide (s.f (R.FAB_ACCT_QUOTA.QUOTA p a) < s.f (R.FAB_ACCT_MIN.MIN p a))) 0x46
        [.reg (R.FAB_ACCT_MIN.reg p a), .reg (R.FAB_ACCT_QUOTA.reg p a)]) ++
    viol (!between 1024 16384 (s.f (R.FAB_BUF_MC_RES.MC_RES p))) 0x47 [.reg (R.FAB_BUF_MC_RES.reg p)]) ++
  viol (s.f R.FAB_FIELD_VLAN.VID == 4095 || s.f R.FAB_MGMT_VLAN.VID == 4095 ||
    (s.f R.FAB_MGMT_VLAN.VID != 0 && s.f R.FAB_MGMT_VLAN.VID == s.f R.FAB_FIELD_VLAN.VID)) 0x42
    [.reg R.FAB_FIELD_VLAN.reg, .reg R.FAB_MGMT_VLAN.reg] ++
  viol (!between 700 950 (s.f R.FAB_VLOOP_CFG.TARGET_PS)) 0x43 [.reg R.FAB_VLOOP_CFG.reg]

/-- The registers of group `g`. -/
def mcgRegs (g : Nat) : List ShfKey := [.reg (R.FAB_MCG_MAC_LO.reg g), .reg (R.FAB_MCG_CFG.reg g)]
def State.mcgVid (s : State) (g : Nat) : Nat := s.f (R.FAB_MCG_CFG.VID g)

/-- The rules of multicast groups (R254). -/
def State.mcgRules (s : State) : List Viol :=
  let gs := (List.range 4096).filter (fun g => s.on (R.FAB_MCG_CFG.VALID g))
  gs.flatMap (fun g =>
    viol (!macMulticast (s.mcgMac g) || s.mcgMac g == macBroadcast || s.mcgVid g == 0 || s.mcgVid g == 4095) 0x48 (mcgRegs g) ++
    viol (fdbCrc (s.mcgVid g) (s.mcgMac g) % 1024 != g / 4) 0x49 (mcgRegs g)) ++
  (clashes (fun g => (s.mcgVid g, s.mcgMac g)) gs).map (fun x => ⟨0x4A, mcgRegs x.1 ++ mcgRegs x.2⟩)

/-! ## Ports and rings (R282) -/

/-- Enabled rings. -/
def State.ringsOn (s : State) : List Nat := (List.range 128).filter s.ringOn
def State.ringNames (s : State) (k n : Nat) : Bool := s.ringA k == n || s.ringB k == n

/-- The rules of R282 on the ports of a ring. -/
def State.ringPortRules (s : State) : List Viol :=
  let ks := s.ringsOn
  ks.flatMap (fun k =>
    let a := s.ringA k
    let b := s.ringB k
    let others := ks.filter (fun j => j != k && (s.ringNames j a || s.ringNames j b))
    viol (a == b) 0x4B [.reg (R.RING_CFG.reg k)] ++
    viol (s.portRole a != prRing) 0x4B [.reg (R.RING_CFG.reg k), .reg (R.PORT_CFG.reg a)] ++
    viol (s.portRole b != prRing) 0x4B [.reg (R.RING_CFG.reg k), .reg (R.PORT_CFG.reg b)] ++
    viol (!others.isEmpty) 0x4B (.reg (R.RING_CFG.reg k) :: others.map (fun j => .reg (R.RING_CFG.reg j)))) ++
  (List.range 256).flatMap (fun n =>
    viol (s.portRole n == prRing && !ks.any (fun k => s.ringNames k n)) 0x4B [.reg (R.PORT_CFG.reg n)])

/-- VLANs, and groups, in which two ports differ. -/
def State.vlanDiff (s : State) (a b : Nat) : List Nat :=
  (List.range 4096).filter (fun v => s.vlanMember v a != s.vlanMember v b || s.vlanUntag v a != s.vlanUntag v b)
def State.mcgDiff (s : State) (a b : Nat) : List Nat := (List.range 4096).filter (fun g => s.mcgMember g a != s.mcgMember g b)
def portKeys (a b : Nat) : List ShfKey := [.reg (R.PORT_CFG.reg a), .reg (R.PORT_CFG.reg b)]

/-- The rules of R282 on the two ports of a ring together. -/
def State.ringMatchRules (s : State) : List Viol :=
  s.ringsOn.flatMap (fun k =>
    let a := s.ringA k
    let b := s.ringB k
    let pmd := s.f (R.PORT_CFG.PMD a)
    let cfg := s.on (R.PORT_CFG.EN a) != s.on (R.PORT_CFG.EN b) || pmd != s.f (R.PORT_CFG.PMD b) ||
      (pmd == 3 && s.on (R.PORT_CFG.FEC25 a) != s.on (R.PORT_CFG.FEC25 b))
    let vs := s.vlanDiff a b
    let gs := s.mcgDiff a b
    viol (cfg || !vs.isEmpty || !gs.isEmpty) 0x4C
      (.reg (R.RING_CFG.reg k) :: portKeys a b ++
        vs.flatMap (fun v => [.reg (R.FAB_VLAN_MEMBER.reg v (a / 32)), .reg (R.FAB_VLAN_MEMBER.reg v (b / 32)),
          .reg (R.FAB_VLAN_UNTAG.reg v (a / 32)), .reg (R.FAB_VLAN_UNTAG.reg v (b / 32))]) ++
        gs.flatMap (fun g => [.reg (R.FAB_MCG_MEMBER.reg g (a / 32)), .reg (R.FAB_MCG_MEMBER.reg g (b / 32))])))

/-- Whether the node table of ring `k` breaks rule 0x4D. -/
def State.nodesBad (s : State) (k : Nat) : Bool :=
  let js := s.nodes k
  let n := js.length
  let ps := js.filter (fun j => s.on (R.RING_NODE_MAC_HI.PARTNER k j))
  js != List.range n || (decide (16 < n) && ps.isEmpty) || decide (1 < ps.length) || ps.any (fun j => j + 1 != n) ||
    js.any (fun j => s.nodeMac k j == 0 || macMulticast (s.nodeMac k j)) || !(clashes (s.nodeMac k) js).isEmpty
def nodeKeys (k : Nat) : List ShfKey :=
  (List.range 17).flatMap (fun j => [.reg (R.RING_NODE_MAC_LO.reg k j), .reg (R.RING_NODE_MAC_HI.reg k j)])
/-- Whether ring `k` has more pole nodes than R22 allows: 16, the partner not counted. -/
def State.poleLimit (s : State) (k : Nat) : Bool :=
  decide (16 < ((s.nodes k).filter (fun j => !s.on (R.RING_NODE_MAC_HI.PARTNER k j))).length)
/-- Rules 0x0E and 0x4D on the node table of every ring: the other limits of R22 cannot be exceeded by what the tables
hold. -/
def State.ringNodeRules (s : State) : List Viol :=
  (List.range 128).flatMap (fun k => viol (s.poleLimit k) 0x0E (nodeKeys k) ++ viol (s.nodesBad k) 0x4D (nodeKeys k))

/-- The rules of R282 on PAIR ports. -/
def State.pairPortRules (s : State) : List Viol :=
  let ps := (List.range 256).filter (fun n => s.portRole n == prPair)
  let on := ps.filter (fun n => s.on (R.PORT_CFG.EN n))
  viol (on.length != 0 && on.length != 2) 0x4E (on.map (fun n => .reg (R.PORT_CFG.reg n))) ++
  ps.flatMap (fun n =>
    let vs := (List.range 4096).filter (fun v => s.vlanMember v n)
    let gs := (List.range 4096).filter (fun g => s.mcgMember g n)
    viol (!vs.isEmpty || !gs.isEmpty) 0x4E (.reg (R.PORT_CFG.reg n) ::
      vs.map (fun v => .reg (R.FAB_VLAN_MEMBER.reg v (n / 32))) ++ gs.map (fun g => .reg (R.FAB_MCG_MEMBER.reg g (n / 32)))))

/-- The rules of R282 on MGMT and its VLAN. -/
def State.mgmtRules (s : State) : List Viol :=
  let v := s.f R.FAB_MGMT_VLAN.VID
  (List.range 256).flatMap (fun n => viol (v != 0 && s.vlanMember v n && s.portRole n != prUplink) 0x4F
    [.reg R.FAB_MGMT_VLAN.reg, .reg (R.FAB_VLAN_MEMBER.reg v (n / 32)), .reg (R.PORT_CFG.reg n)])

/-! ## TIME and the pair (R311, R343) -/

/-- Rules 0x50–0x53 (R311). -/
def State.timeRules (s : State) : List Viol :=
  let src := (List.range 4).filter (fun i => s.on (R.TIME_SYNCE_SRC.VALID i))
  let port := fun i => s.f (R.TIME_SYNCE_SRC.PORT i)
  viol (!between incrMin incrMax s.incr) 0x50 [.reg R.TIME_INCR_LO.reg, .reg R.TIME_INCR_HI.reg] ++
  viol (!between 40 1000 (s.f R.TIME_CAL_CFG.FETCH_LEAD)) 0x51 [.reg R.TIME_CAL_CFG.reg] ++
  viol (!between 1 500 (s.f R.TIME_PPS_CFG.WIDTH)) 0x52 [.reg R.TIME_PPS_CFG.reg] ++
  src.flatMap (fun i => viol (s.portRole (port i) == prBridge) 0x53 [.reg (R.TIME_SYNCE_SRC.reg i), .reg (R.PORT_CFG.reg (port i))]) ++
  (clashes port src).map (fun x => ⟨0x53, [.reg (R.TIME_SYNCE_SRC.reg x.1), .reg (R.TIME_SYNCE_SRC.reg x.2)]⟩)

/-- The rules of the pair (R343). -/
def State.pairRules (s : State) : List Viol :=
  let m := s.peerMac
  let bad := (List.range 128).filter (fun k => (s.nodes k).any (fun j => s.on (R.RING_NODE_MAC_HI.PARTNER k j) && s.nodeMac k j != m))
  viol (s.on R.SYS_PAIR_CFG.EN && (m == 0 || macMulticast m || !bad.isEmpty)) 0x54
    ([.reg R.SYS_PAIR_CFG.reg, .reg R.SYS_PAIR_PEER_MAC_LO.reg, .reg R.SYS_PAIR_PEER_MAC_HI.reg] ++ bad.flatMap nodeKeys)

/-! ## Metering and radio (R420, R441) -/

/-- The channels that a feeder uses: its phases, N when enabled, and the voltages of its busbar. -/
def State.feederChans (s : State) (f : Nat) : List Nat :=
  [4 * f, 4 * f + 1, 4 * f + 2] ++ (if s.on (R.MTR_FDR.N_EN f) then [4 * f + 3] else []) ++
    rangeFrom (48 + 3 * s.f (R.MTR_FDR.BUSBAR f)) 3
/-- Rules 0x56–0x58 (R420). -/
def State.mtrRules (s : State) : List Viol :=
  (List.range 12).flatMap (fun f =>
    (s.feederChans f).flatMap (fun c => viol (s.on (R.MTR_FDR.EN f) && s.f (R.MTR_CH_CAL0.FS c) == 0) 0x55
      [.reg (R.MTR_FDR.reg f), .reg (R.MTR_CH_CAL0.reg c)])) ++
  viol (!between 25 100 (s.f R.MTR_CFG.ZC_TMO)) 0x56 [.reg R.MTR_CFG.reg] ++
  s.validEps.flatMap (fun i =>
    let f := s.ep i EP.FEEDER
    viol (s.ep i EP.TYPE == 0 && decide (f < 12) && !s.on (R.MTR_FDR.EN f)) 0x57 [.ep i, .reg (R.MTR_FDR.reg f)]) ++
  viol (decide (86399 < s.f R.MTR_EST_CFG.OFFSET)) 0x58 [.reg R.MTR_EST_CFG.reg]

/-- A signed 16-bit register field. -/
def State.sf16 (s : State) (x : Fld) : Int := toSigned 16 (s.f x)
/-- Whether a region and a rate are permitted (R424). -/
def regionOk (code : OrderCode) (region rate : Nat) : Bool :=
  match region with
  | 0x00 => true
  | 0x01 => code == .m8e && decide (rate ≤ 1)
  | 0x02 => code == .m8e && decide (rate ≤ 1)
  | 0x10 => code == .m9a && decide (rate ≤ 2)
  | _ => false
/-- Whether power and gain, in 0.1 dB, keep a region's limit (R424). -/
def powerOk (region : Nat) (p g : Int) : Bool :=
  decide (-100 ≤ p ∧ p ≤ 270) &&
    (match region with
     | 0x01 => decide (p + g ≤ 140)
     | 0x02 => decide (p + g ≤ 270)
     | 0x10 => decide (100 * (p + g) + 2150 ≤ 36000)
     | _ => true)
/-- Whether a listen-before-talk threshold lies in a region's range (R424). -/
def thrOk (region : Nat) (t : Int) : Bool :=
  match region with
  | 0x01 => decide (-950 ≤ t ∧ t ≤ -750)
  | 0x02 => decide (-950 ≤ t ∧ t ≤ -750)
  | 0x10 => decide (-1000 ≤ t ∧ t ≤ -600)
  | _ => true

/-- Rules 0x59–0x5E of a sheaf's check (R441): RAD_REGION, RAD_POWER, RAD_LBT, RAD_CHAN, RAD_URG by transceiver, RAD_ADDR by
record. -/
def State.radRules (s : State) : List Viol :=
  (List.range 4).flatMap (fun j =>
    let g := s.f (R.RAD_CFG.REGION j)
    let cfg : ShfKey := .reg (R.RAD_CFG.reg j)
    let u := min 999 (s.f (R.RAD_MAC.URG_OFS j)) % 200
    viol (s.on (R.RAD_CFG.EN j) && !regionOk s.ident.code g (s.f (R.RAD_CFG.RATE j))) 0x59 [cfg] ++
    viol (!powerOk g (s.sf16 (R.RAD_PWR.POWER j)) (s.sf16 (R.RAD_PWR.ANT_GAIN j))) 0x5A [cfg, .reg (R.RAD_PWR.reg j)] ++
    viol (!thrOk g (s.sf16 (R.RAD_LBT.THR j))) 0x5B [cfg, .reg (R.RAD_LBT.reg j)] ++
    viol (g == 0x01 && decide (27 < s.f (R.RAD_CFG.CHAN j))) 0x5C [cfg] ++
    viol (g == 0x10 && !between 50 150 u) 0x5D [cfg, .reg (R.RAD_MAC.reg j)]) ++
  (s.validEps.filter (fun i => s.ep i EP.PATH == 1)).flatMap (fun i =>
    let a := w32 (s.ep i EP.ADDR)
    let n := getBits a 0 16
    let j := getBits a 16 2
    viol (n == 0 || n == 0xFFFE || n == 0xFFFF || !s.on (R.RAD_CFG.EN j)) 0x5E [.ep i, .reg (R.RAD_CFG.reg j)])

/-! ## CAN (R457) -/

/-- Quanta of 80 MHz in a nominal and in a data bit (R444, R458). -/
def State.canNom (s : State) (c : Nat) : Nat :=
  (s.f (R.CAN_NBT.NBRP c) + 1) * (1 + (max 1 (s.f (R.CAN_NBT.NTSEG1 c)) + 1) + (s.f (R.CAN_NBT.NTSEG2 c) + 1))
def State.canDat (s : State) (c : Nat) : Nat :=
  (s.f (R.CAN_DBT.DBRP c) + 1) * (1 + (s.f (R.CAN_DBT.DTSEG1 c) + 1) + (s.f (R.CAN_DBT.DTSEG2 c) + 1))

/-- Rules 0x5F–0x61 (R457). -/
def State.canRules (s : State) : List Viol :=
  (List.range 8).flatMap (fun c =>
    let en := s.on (R.CAN_CFG.EN c)
    let regs : List ShfKey := [.reg (R.CAN_CFG.reg c), .reg (R.CAN_NBT.reg c), .reg (R.CAN_DBT.reg c)]
    let marks := (List.range 16).filter (fun m => s.on (R.CAN_MB_FILT.EN c m) && s.on (R.CAN_MB_FILT.IDE c m) &&
      s.f (R.CAN_MB_MASK.MASK c m) % 8192 == 8191 && s.f (R.CAN_MB_FILT.ID c m) % 8192 == s.f (R.CAN_CFG.FIELD_MARK c))
    viol (en && (decide (s.canNom c < 80) || decide (s.canDat c < 16) || decide (s.canNom c < s.canDat c) ||
      decide (s.f (R.CAN_NBT.NTSEG2 c) < s.f (R.CAN_NBT.NSJW c)) || decide (s.f (R.CAN_DBT.DTSEG2 c) < s.f (R.CAN_DBT.DSJW c))))
      0x5F regs ++
    viol (decide (s.canDat c < 80) && !s.on (R.CAN_DBT.TDC_EN c)) 0x60 regs ++
    viol (decide (1 < marks.length)) 0x61 (.reg (R.CAN_CFG.reg c) ::
      marks.flatMap (fun m => [.reg (R.CAN_MB_FILT.reg c m), .reg (R.CAN_MB_MASK.reg c m)]))) ++
  (s.validEps.filter (fun i => s.ep i EP.PATH == 2)).flatMap (fun i =>
    let c := getBits (w32 (s.ep i EP.ADDR)) 16 3
    viol (!s.on (R.CAN_CFG.EN c) || !s.on (R.CAN_CFG.FIELD_EN c)) 0x61 [.ep i, .reg (R.CAN_CFG.reg c)])

/-! ## DIO and IND (R473) -/

/-- The rules of field I/O (R473). -/
def State.dioRules (s : State) : List Viol :=
  (List.range 16).flatMap (fun n =>
    let m := s.f (R.DIO_CH_CFG.PAR n)
    let ms := rangeFrom (n + 1) m
    let leads := (List.range 16).filter (fun l => l != n && ms.any (fun x => decide (l < x ∧ x ≤ l + s.f (R.DIO_CH_CFG.PAR l))))
    viol (m != 0 && (ms.any (fun x => x / 4 != n / 4 || !s.dioOutCh x || s.f (R.DIO_CH_CFG.PAR x) != 0) || !leads.isEmpty)) 0x62
      ((n :: ms ++ leads).map (fun x => .reg (R.DIO_CH_CFG.reg x))))

/-- Whether a chain has a member of an all-or-nothing group. -/
def State.chainAon (s : State) (n : Nat) : Bool :=
  (s.elemsOf n).any (fun k => s.on (R.IND_CH_ECFG.AON_EN n k)) ||
    (List.range 4).any (fun j => s.on (R.IND_STR_CFG.EN j) && s.on (R.IND_STR_CFG.AON_EN j) && s.f (R.IND_STR_CFG.AON_CHAIN j) == n)

/-- The rules on path 3 record `i`. -/
def State.indEpRules (s : State) (i : Nat) : List Viol :=
  let a := w32 (s.ep i EP.ADDR)
  let n := getBits a 16 2
  let k := getBits a 0 10
  let j := getBits a 0 2
  let ty := s.ep i EP.TYPE
  if bit a 31 then viol (!s.on (R.IND_STR_CFG.EN j)) 0x63 [.ep i, .reg (R.IND_STR_CFG.reg j)]
  else
    viol (!s.on (R.IND_CH_CFG0.EN n) || decide (s.chLen n ≤ k)) 0x63 [.ep i, .reg (R.IND_CH_CFG0.reg n)] ++
    viol ((ty == 5 && !s.on (R.IND_CH_ECFG.SENSOR n k)) || (ty == 4 && s.on (R.IND_CH_ECFG.SENSOR n k))) 0x65
      [.ep i, .reg (R.IND_CH_ECFG.reg n k)]

/-- The rules of string stages and indicator chains (R473). -/
def State.indRules (s : State) : List Viol :=
  (List.range 4).flatMap (fun n =>
    let cfg : List ShfKey := [.reg (R.IND_CH_CFG0.reg n), .reg (R.IND_CH_CFG1.reg n)]
    viol (s.on (R.IND_CH_CFG0.EN n) && (!between 10 200 (s.f (R.IND_CH_CFG0.DIV n)) || !between 1 1024 (s.chLen n))) 0x63 cfg ++
    viol (s.chainAon n && decide (19000 * 200 < 200 * 200 * s.f (R.IND_CH_CFG1.REFRESH n) + s.frameTime n)) 0x64
      (cfg ++ (s.elemsOf n).map (fun k => .reg (R.IND_CH_ECFG.reg n k)) ++ (List.range 4).map (fun j => .reg (R.IND_STR_CFG.reg j)))) ++
  (List.range 64).flatMap (fun g =>
    let n := s.f (R.IND_FB_CFG.CHAIN g)
    let k := s.f (R.IND_FB_SENS.SENSOR g)
    viol (s.on (R.IND_FB_CFG.EN g) && !s.on (R.IND_CH_ECFG.SENSOR n k)) 0x65
      [.reg (R.IND_FB_CFG.reg g), .reg (R.IND_FB_SENS.reg g), .reg (R.IND_CH_ECFG.reg n k)] ++
    viol (s.on (R.IND_FB_CFG.EN g) && decide (1000 < s.f (R.IND_FB_CFG.T_R g) + s.f (R.IND_FB_CFG.T_G g))) 0x66
      [.reg (R.IND_FB_CFG.reg g)]) ++
  (s.validEps.filter (fun i => s.ep i EP.PATH == 3)).flatMap s.indEpRules

/-! ## The whole (R73, R74) -/

/-- Every rule that binds a state, with `s` the state before it. -/
def State.stateRules (s t : State) : List Viol :=
  t.validEps.flatMap t.epRules ++ t.epsRules ++ s.genRules t ++ t.validRows.flatMap t.rowRules ++
    t.validRows.flatMap (fun r => (List.range 16).flatMap (t.linkRule r)) ++ t.strayRules ++
    t.fabRules ++ t.mcgRules ++ t.ringPortRules ++ t.ringMatchRules ++ t.ringNodeRules ++ t.pairPortRules ++ t.mgmtRules ++
    t.timeRules ++ t.pairRules ++ t.mtrRules ++ t.radRules ++ t.canRules ++ t.dioRules ++ t.indRules

/-- A failure as it is reported: whether no entry of the sheaf caused it, the entry, the rule. -/
structure Failure where
  other : Bool
  index : Nat
  rule : Nat
  deriving DecidableEq, Repr

/-- The failure that a violation is: the lowest entry that wrote what is wrong, or OTHER. -/
def failureOf (es : List ShfEntry) (v : Viol) : Failure :=
  match (es.zipIdx 0).find? (fun e => v.keys.any (e.1.hits e.2)) with
  | some e => ⟨false, e.2, v.rule⟩
  | none => ⟨true, 0, v.rule⟩

/-- The order of reports within one state (R74). -/
def Failure.before (a b : Failure) : Bool :=
  if a.other != b.other then !a.other
  else if a.index != b.index then decide (a.index < b.index)
  else decide (a.rule < b.rule)
/-- The failure that is reported among those of one state. -/
def firstFailure (es : List ShfEntry) (vs : List Viol) : Option Failure :=
  (vs.map (failureOf es)).foldl (fun b a => match b with
    | none => some a
    | some x => if a.before x then some a else some x) none

/-- The rules on the entries of a list, in the state `t`: those of the sheaf that is checked by their position, those of
another sheaf by what they name. -/
def State.ownEntryRules (t : State) (es : List ShfEntry) : List Viol := (es.zipIdx 0).flatMap (fun e => t.entryRules e.1 (.entry e.2))
def State.otherEntryRules (t : State) (es : List ShfEntry) : List Viol := es.flatMap (fun e => t.entryRules e (.at_ e.space e.addr))

/-- The failure of a sheaf that is applied to `s`. -/
def State.sheafFailure (s : State) (es : List ShfEntry) : Option Failure :=
  let t := s.putEntries es
  firstFailure es (t.ownEntryRules es ++ s.imageRules es ++ s.stateRules t)

/-- After this sheaf, each pending one in turn: every rule holds again (R73). -/
def laterFailure (es : List ShfEntry) : State → List Committed → Option Failure
  | _, [] => none
  | s, x :: r =>
    let t := s.putEntries x.entries
    match firstFailure es (t.ownEntryRules es ++ s.imageRules es ++ t.otherEntryRules x.entries ++ s.stateRules t) with
    | some f => some f
    | none => laterFailure es t r

/-- The check of a sheaf (R73): the first failure it reports, if any. -/
def State.checkSheaf (s : State) (es : List ShfEntry) : Option Failure :=
  let now := s.shf.waiting.takeWhile (fun x => !s.seqPending x)
  let pend := s.shf.waiting.dropWhile (fun x => !s.seqPending x)
  let base := now.foldl (fun s x => s.putEntries x.entries) s
  let after := pend.foldl (fun s x => s.putEntries x.entries) base
  match after.sheafFailure es with
  | some f => some f
  | none =>
    if pend.isEmpty then none
    else match base.sheafFailure es with
      | some f => some f
      | none => laterFailure es (base.putEntries es) pend

end Sys2Proof.Machine
end

