-- ==== Sys2Proof/Machine/Images.lean ====
section
/-! DEFINITION. Firmware images and their slots (R551–R554), what the SVC registers show of them and of the activation
(R565), and the boot ROM's choice of an image (R349, R537, R553). -/
namespace Sys2Proof.Machine
open Sys2Proof

/-! ## Slots -/

/-- The states of a slot as SVC_IMG_STATUS codes them. -/
def isEmpty : Nat := 0
def isWriting : Nat := 1
def isVerified : Nat := 2
def isActive : Nat := 3
def isInvalid : Nat := 4

/-- Apply a change to the SVC block. -/
def State.modSvc (s : State) (f : Svc → Svc) : State := { s with svc := f s.svc }
def State.setImgSlot (s : State) (n : Nat) (x : ImgSlot) : State :=
  if n = 0 then s.modSvc (fun v => { v with slot0 := x }) else s.modSvc (fun v => { v with slot1 := x })
/-- Set the state of slot `n`, which the ledger keeps. -/
def State.setImgState (s : State) (n v : Nat) : State := (s.setImgSlot n { s.imgSlot n with st := v }).ledgerCommit (.imgSlot n) (leBytes 1 v)
/-- The slot that is not active. -/
def State.otherSlot (s : State) : Nat := 1 - s.svc.active

/-! ## Images (R551) -/

/-- VERSION. -/
def ImgSlot.version (x : ImgSlot) : Word := x.word 0x08
/-- SEC_EPOCH. -/
def ImgSlot.epoch (x : ImgSlot) : Nat := getBits (x.word 0x0C) 16 16
/-- BODY_LEN. -/
def ImgSlot.bodyLen (x : ImgSlot) : Nat := (x.word 0x10).toNat
/-- The body. -/
def ImgSlot.body (x : ImgSlot) : List Byte := x.get 256 x.bodyLen
/-- The measurement of R537. -/
def ImgSlot.measure (x : ImgSlot) : BitVec 384 := BitVec.ofNat 384 (beNat (sha384 (x.get 0 0xC8 ++ x.body)))

/-- Check 1: the header. -/
def ImgSlot.headOk (x : ImgSlot) : Bool :=
  x.word 0 == 0x30454D49 && x.word 4 == 1 && getBits (x.word 0x14) 1 31 == 0 && (x.get 0xC8 56).all (· == 0) &&
    decide (1 ≤ x.bodyLen ∧ x.bodyLen ≤ 268435200) && x.bodyLen + 256 == x.len
/-- Check 2: the digest. -/
def ImgSlot.digestOk (x : ImgSlot) : Bool := x.get 0x18 48 == sha384 x.body
/-- Check 3: the Taondor signature. -/
def ImgSlot.sigOk (x : ImgSlot) : Bool :=
  p256Verify Config.imageKey (sha256 (x.get 0 0x48)) (x.get 0x48 64)
/-- Check 4: the operator's signature, when the policy asks for one. -/
def State.cosignOk (s : State) (x : ImgSlot) : Bool :=
  let k := s.kslot (getBits s.svc.policy 0 7)
  !bit s.svc.policy 31 ||
    (bit (x.word 0x14) 0 && k.typ == ktP256Pub && k.can 1 &&
      p256Verify k.secret (sha256 (x.get 0 0x88)) (x.get 0x88 64))

/-- The results of an image command (R565). -/
def irOk : Nat := 0
def irHeader : Nat := 1
def irDigest : Nat := 2
def irSigT : Nat := 3
def irSigO : Nat := 4
def irEpoch : Nat := 5
def irTooLong : Nat := 6
def irState : Nat := 7
def irPast : Nat := 8
def irFar : Nat := 9

/-- The checks of R552 in order; `cosign`: the operator's signature is asked for here. -/
def State.imgCheck (s : State) (x : ImgSlot) (cosign : Bool) : Nat :=
  if !x.headOk then irHeader
  else if !x.digestOk then irDigest
  else if !x.sigOk then irSigT
  else if cosign && !s.cosignOk x then irSigO
  else if x.epoch < s.svc.secEpoch then irEpoch
  else irOk

/-- Whether the boot ROM accepts slot `n` (R553). -/
def State.bootable (s : State) (n : Nat) : Bool :=
  let x := s.imgSlot n
  (x.st == isActive || x.st == isVerified) && s.imgCheck x false == irOk

/-! ## What the registers show (R565) -/

/-- The slot whose image an activation brings in: the inactive one before it, the active one after it. -/
def State.actSlot (s : State) : Nat := if s.svc.act = 3 then s.svc.active else s.otherSlot

/-- Keep the SVC registers that show the ledger. -/
def State.svcShow (s : State) : State :=
  let s := ((s.setF R.SVC_IMG_STATUS.ACTIVE s.svc.active).setF R.SVC_IMG_STATUS.SLOT0 s.svc.slot0.st).setF R.SVC_IMG_STATUS.SLOT1 s.svc.slot1.st
  let s := (s.setR R.SVC_IMG_VERSION0.reg s.svc.slot0.version).setR R.SVC_IMG_VERSION1.reg s.svc.slot1.version
  let s := ((s.setR R.SVC_IMG_POLICY.reg s.svc.policy).setF R.SVC_IMG_FMT.SEC_EPOCH s.svc.secEpoch).setF R.SVC_IMG_FMT.FMT s.svc.fmt
  let diff := s.svc.act != 0 && (s.imgSlot s.actSlot).fmt != s.svc.fmt
  ((s.setF R.SVC_ACT_STATUS.STATE s.svc.act).setF R.SVC_ACT_STATUS.FMT_CHANGE (b2n diff)).setF R.SVC_IMG_STATUS.BUSY (b2n (s.svc.busy != 0))

/-- A change of SVC_IMG_POLICY, by a write or by a sheaf, which takes effect in SERVICE alone (R552, R565). -/
def State.policyWrite (s : State) (v : Word) : State :=
  if s.lcState = lcService then ((s.modSvc (fun x => { x with policy := v })).ledgerCommit .policy (leBytes 4 v.toNat)).svcShow else s

/-- A record of the SVC block (R564). -/
def State.svcRecord (s : State) (code sev : Nat) (body : List Word) : State := s.record code sev 0xFFFF body

/-! ## The boot ROM (R349, R353, R537) -/

/-- The sequence number of the power cycle's BOOT record: the first of the block after the newest reservation, once the recorder
is open that of the entry before (R492, R494, R507; DEDUCED, assumption 174). -/
def State.bootSeq (s : State) : Nat :=
  match s.rcd.isOpen, s.ledger.boots.getLast? with
  | true, some e => e.seq
  | _, _ => s.ledger.seqReserved
/-- The bytes of a boot entry. -/
def BootEntry.bytes (e : BootEntry) : List Byte := beBytes 48 e.hash.toNat ++ leBytes 1 e.slot ++ leBytes 8 e.seq
/-- An entry of the ring of 256 boots (R349, R507). -/
def State.bootEntry (s : State) (e : BootEntry) : State :=
  let l := s.ledger.boots ++ [e]
  let n := s.ledger.ring.2.1
  ({ s with ledger := { s.ledger with boots := l.drop (l.length - 256), ring := (s.ledger.ring.1, n + 1, s.ledger.ring.2.2) } }).ledgerCommit
    (.boot (n % 256)) e.bytes
/-- The ledger keeps the active slot, the states of both, the activation and the journal's settings format (R507, R557, R565). -/
def State.actCommit (s : State) : State :=
  s.ledgerCommit .activation (leBytes 1 s.svc.active ++ leBytes 1 s.svc.slot0.st ++ leBytes 1 s.svc.slot1.st ++ leBytes 1 s.svc.act ++
    leBytes 12 s.svc.when_.toNat ++ leBytes 2 s.svc.fmt)
/-- The boot ROM accepts slot `n`: it is ACTIVE, measured, and in the ledger's ring of boots. KEY_MB takes the measurement at a
start from a FULL reset (R537). -/
def State.bootFrom (s : State) (n : Nat) : State :=
  let m := (s.imgSlot n).measure
  let s := if (s.imgSlot n).st = isActive then s else s.setImgState n isActive
  let s := if s.svc.active = n then s else (s.modSvc (fun v => { v with active := n })).actCommit
  let s := s.bootEntry ⟨m, n, s.bootSeq⟩
  if s.power.measured then s else (s.modPower (fun p => { p with measured := true })).setMb (beBytes 48 m.toNat)

/-- A slot that failed to verify is marked invalid. -/
def State.bootMark (s : State) (n : Nat) : State :=
  let st := (s.imgSlot n).st
  if (st = isActive ∨ st = isVerified) ∧ !s.bootable n then s.setImgState n isInvalid else s

/-- Recovery (R561): the plots stay OFF. `cause`: 0 no valid slot, 1 break. -/
def State.enterRecovery (s : State) (cause : Nat) : State :=
  s.modSvc (fun v => { v with recovery := true, commanded := false, recoveryCause := cause + 1 })

/-- Step 3 of R348: the active slot first, then the other; without either the module stays here, in recovery. -/
def State.bootSelect (s : State) : State :=
  let a := s.svc.active
  if s.bootable a then (s.bootFrom a).modPower (fun p => { p with step := 3 })
  else
    let s := s.bootMark a
    if s.bootable (1 - a) then (s.bootFrom (1 - a)).modPower (fun p => { p with step := 3 })
    else (s.bootMark (1 - a)).enterRecovery 0

/-- BOOT_IMAGE_SELECT. -/
def execBootImageSelect (s : State) : Res := .next (s.when (s.power.step == 2 && !s.svc.recovery) State.bootSelect)
/-- RECOVERY: no slot passes, each of which is then marked, or RXD held low for at least 100 ms during step 2 (`brk`), which a
CONTROL reset does not run again (R351). -/
def execRecovery (brk : Bool) (s : State) : Res :=
  .next (s.when (s.power.step == 2 && !s.svc.recovery && (if brk then !s.power.again else !(s.bootable 0 || s.bootable 1))) (fun s =>
    if brk then s.enterRecovery 1 else ((s.bootMark s.svc.active).bootMark (1 - s.svc.active)).enterRecovery 0))

end Sys2Proof.Machine
end

