-- ==== Sys2Proof/Machine/Rtc.lean ====
section
/-! DEFINITION. The real-time clock (R476–R490): calendar, alarms, temperature compensation, alignment. -/
namespace Sys2Proof.Machine
open Sys2Proof

/-! ## Calendar (R477, R478) -/

/-- A leap year by its offset from 2000 (R477). -/
def rtcLeap (y : Nat) : Bool := y % 4 == 0 && y != 100
/-- The length of a month (R478); months 0 and 13–15 count as 31 days. -/
def monthLen (y m : Nat) : Nat :=
  if m = 4 ∨ m = 6 ∨ m = 9 ∨ m = 11 then 30 else if m = 2 then (if rtcLeap y then 29 else 28) else 31

/-- One increment of the day, and what it carries into (R478). -/
def State.rtcDay (s : State) : State :=
  let w := s.f R.RTC_TIME.WDAY
  let s := s.setF R.RTC_TIME.WDAY (if 6 ≤ w then 0 else w + 1)
  let y := s.f R.RTC_DATE.YEAR
  let m := s.f R.RTC_DATE.MONTH
  let d := s.f R.RTC_DATE.DAY
  if d < monthLen y m then s.setF R.RTC_DATE.DAY (d + 1)
  else
    let s := s.setF R.RTC_DATE.DAY 1
    if m < 12 then s.setF R.RTC_DATE.MONTH (m + 1)
    else (s.setF R.RTC_DATE.MONTH 1).setF R.RTC_DATE.YEAR (if 255 ≤ y then 0 else y + 1)

/-- The calendar advances one second (R478). -/
def State.rtcStep (s : State) : State :=
  let sec := s.f R.RTC_TIME.SEC
  let min := s.f R.RTC_TIME.MIN
  let hour := s.f R.RTC_TIME.HOUR
  if sec < 59 then s.setF R.RTC_TIME.SEC (sec + 1)
  else
    let s := s.setF R.RTC_TIME.SEC 0
    if min < 59 then s.setF R.RTC_TIME.MIN (min + 1)
    else
      let s := s.setF R.RTC_TIME.MIN 0
      if hour < 23 then s.setF R.RTC_TIME.HOUR (hour + 1) else (s.setF R.RTC_TIME.HOUR 0).rtcDay

/-! ## Alarms (R482, R483) -/

/-- Whether every unmasked field of alarm `a` equals the calendar's. -/
def State.almMatch (s : State) (a : Nat) : Bool :=
  let m := s.f (R.RTC_ALM_CTL.MASK a)
  (m.testBit 0 || s.f (R.RTC_ALM_CMP.SEC a) == s.f R.RTC_TIME.SEC) &&
  (m.testBit 1 || s.f (R.RTC_ALM_CMP.MIN a) == s.f R.RTC_TIME.MIN) &&
  (m.testBit 2 || s.f (R.RTC_ALM_CMP.HOUR a) == s.f R.RTC_TIME.HOUR) &&
  (m.testBit 3 || s.f (R.RTC_ALM_CMP.DAY a) == s.f R.RTC_DATE.DAY) &&
  (m.testBit 4 || s.f (R.RTC_ALM_CMP.MONTH a) == s.f R.RTC_DATE.MONTH) &&
  (m.testBit 5 || s.f (R.RTC_ALM_CMP.WDAY a) == s.f R.RTC_TIME.WDAY)

/-- Whether alarm `a` has fired since the latest increment of SEC, and marking it. -/
def Rtc.fired (r : Rtc) (a : Nat) : Bool := if a = 0 then r.fired0 else r.fired1
def Rtc.fire (r : Rtc) (a : Nat) : Rtc := if a = 0 then { r with fired0 := true } else { r with fired1 := true }

/-- Evaluate alarm `a`; it fires once in a second (R482, R483). -/
def State.almEval (s : State) (a : Nat) : State :=
  if s.on (R.RTC_ALM_CTL.EN a) && s.almMatch a && !s.rtc.fired a then
    let s := { s with rtc := s.rtc.fire a }
    let s := if a = 0 then s.raise E.RTC_EVT.ALM0 else s.raise E.RTC_EVT.ALM1
    if s.power.inputOk then s.record 0x0301 0 a [s.r R.RTC_TIME.reg, s.r R.RTC_DATE.reg] else s
  else s
/-- Evaluate both alarms. -/
def State.alarms (s : State) : State := (s.almEval 0).almEval 1

/-- The half-cycles of the 32.768 kHz oscillator since the count of RTC_SUBSEC was 0, at its nominal rate (R490; DESIGN CHOICE,
assumption 158). -/
def State.halfCycles (s : State) : Nat := min 0x1FFFF (((s.opTotal : Int) - s.rtc.secAt).toNat * 65536 / secTicks)
/-- The count of half-cycles starts again from 0. -/
def State.subsecZero (s : State) : State :=
  { s with rtc := { s.rtc with secAt := s.opTotal } }.setF R.RTC_SUBSEC.SUBSEC 0

/-- The bridge refreshes its shadow: after every increment of the seconds counter and after every write to the RTC
(R29). -/
def State.rtcShow (s : State) : State :=
  let s := s.setF R.RTC_SUBSEC.SUBSEC s.halfCycles
  { s with rtc := { s.rtc with shadow := s.regs.rtc } }
/-- The word of an RTC register in the bridge's shadow (R29). -/
def State.rtcShadow (s : State) (off : Nat) : Word := sget (regReset .rtc) s.rtc.shadow off

/-! ## The second -/

/-- RTC_SECOND: the calendar advances, the alarms are evaluated, the shadow is refreshed. -/
def State.rtcSecond (s : State) : State :=
  let s := s.rtcStep.subsecZero
  ({ s with rtc := { s.rtc with fired0 := false, fired1 := false } }).alarms.rtcShow
/-- RTC_SECOND. -/
def execRtcSecond (s : State) : Res := .next s.rtcSecond.backupDrain

/-! ## Writes and reads (R479, R480, R482) -/

/-- A write of RTC_TIME is held until RTC_DATE is written (R479). -/
def State.rtcTimeWrite (s : State) (v : Word) : State := ({ s with rtc := { s.rtc with held := some v } }).rtcShow
/-- RTC_TIME_WRITE. -/
def execRtcTimeWrite (v : Word) (s : State) : Res := .next (s.viaWrite R.RTC_TIME.reg (fun s => s.rtcTimeWrite v))

/-- An ALIGN that waits ends as refused (R488). -/
def State.alignRefuse (s : State) : State := (s.setF R.RTC_STATUS.ALIGN_WAIT 0).raise E.RTC_EVT.ALIGN_REFUSED

/-- A write of RTC_DATE takes effect with a held time; VALID is set, the sub-second count is 0, an ALIGN that waits is
cancelled (R479, R481, R488). -/
def State.rtcDateWrite (s : State) (v : Word) : State :=
  let s := match s.rtc.held with
    | some t => s.plainWrite .rtc R.RTC_TIME.reg.off t
    | none => s
  let s := { s.plainWrite .rtc R.RTC_DATE.reg.off v with rtc := { s.rtc with held := none } }
  let s := s.subsecZero.setF R.RTC_STATUS.VALID 1
  let s := if s.on R.RTC_STATUS.ALIGN_WAIT then s.alignRefuse else s
  s.alarms.rtcShow
/-- RTC_DATE_WRITE. -/
def execRtcDateWrite (v : Word) (s : State) : Res := .next (s.viaWrite R.RTC_DATE.reg (fun s => s.rtcDateWrite v))

/-- A read of RTC_TIME captures RTC_DATE from the same shadow (R29, R480). -/
def State.rtcTimeRead (s : State) : State :=
  ({ s with rtc := { s.rtc with hold := some (s.rtcShadow R.RTC_DATE.reg.off) } }).answer (s.rtcShadow R.RTC_TIME.reg.off)
/-- RTC_TIME_READ. -/
def execRtcTimeRead (s : State) : Res := .next s.rtcTimeRead

/-- A read of RTC_DATE returns the hold of the latest read of RTC_TIME once (R480). -/
def State.rtcDateRead (s : State) : State :=
  match s.rtc.hold with
  | some d => ({ s with rtc := { s.rtc with hold := none } }).answer d
  | none => s.answer (s.rtcShadow R.RTC_DATE.reg.off)

/-- A write of RTC_ALMa_CMP, or of RTC_ALMa_CTL, evaluates the alarm again (R482). -/
def State.rtcAlarmWrite (s : State) (a : Nat) (ctl : Bool) (v : Word) : State :=
  ((s.plainWrite .rtc (if ctl then (R.RTC_ALM_CTL.reg a).off else (R.RTC_ALM_CMP.reg a).off) v).almEval a).rtcShow
/-- RTC_ALARM_WRITE. -/
def execRtcAlarmWrite (a : Fin 2) (ctl : Bool) (v : Word) (s : State) : Res :=
  .next (s.viaWrite (R.RTC_ALM_CTL.reg a) (fun s => s.rtcAlarmWrite a ctl v))

/-- The calendar that the loss of the backup domain or of the oscillator leaves (R481). -/
def State.rtcLost (s : State) : State :=
  ((s.setR R.RTC_TIME.reg 0).setR R.RTC_DATE.reg 0x101).setF R.RTC_STATUS.VALID 0
/-- OSC_FAIL. -/
def execOscFail (s : State) : Res := .next (s.rtcLost.raise E.RTC_EVT.OSC_FAIL)

/-! ## Temperature compensation (R484, R485) -/

/-- `a / b` rounded to the nearest integer, ties away from zero. -/
def roundAway (a : Int) (b : Nat) : Int :=
  if 0 ≤ a then ((2 * a.toNat + b) / (2 * b) : Nat) else -(((2 * (-a).toNat + b) / (2 * b) : Nat) : Int)

/-- The signed value of curve point `k`. -/
def State.curve (s : State) (k : Nat) : Int := toSigned 32 (s.r (R.RTC_CURVE.reg k)).toNat
/-- RTC_TRIM limited to ±50,000 (R490). -/
def State.trim (s : State) : Int := max (-50000) (min 50000 (toSigned 32 (s.r R.RTC_TRIM.reg).toNat))

/-- The crystal error at a reading in units of 1/256 °C (R484). -/
def State.crystalErr (s : State) (t : Int) : Int :=
  let x := t + 12800
  let e :=
    if x < 0 then s.curve 0
    else if 39680 ≤ x then s.curve 31
    else
      let k := x.toNat / 1280
      let fr := x.toNat % 1280
      roundAway (s.curve k * 1280 + (s.curve (k + 1) - s.curve k) * (fr : Nat)) 1280
  e + s.trim

/-- The temperature sensor is read. -/
def State.rtcTemp (s : State) (t : Nat) : State :=
  let s := s.setF R.RTC_TEMP.TEMP t
  { s with rtc := { s.rtc with err := s.crystalErr (toSigned 16 t) } }
/-- RTC_TEMP_READ. -/
def execRtcTempRead (t : BitVec 16) (s : State) : Res := .next (s.rtcTemp t.toNat)

/-- A 64 s window starts with the correction of the latest reading (R485). -/
def State.compWindow (s : State) : State :=
  let n := max (-2048) (min 2048 (roundAway (s.rtc.err * 4194304) 1000000000))
  (s.setF R.RTC_COMP.N (ofSigned 13 n)).setF R.RTC_COMP_PPB.PPB (ofSigned 32 s.rtc.err)
/-- COMP_WINDOW. -/
def execCompWindow (s : State) : Res := .next s.compWindow

/-! ## Alignment (R487, R488) -/

/-- RTC_CMD = ALIGN. -/
def State.rtcAlign (s : State) : State :=
  if s.on R.RTC_STATUS.ALIGN_WAIT then s
  else if s.sync = syLocked ∨ s.sync = syHoldover then s.setF R.RTC_STATUS.ALIGN_WAIT 1
  else s.raise E.RTC_EVT.ALIGN_REFUSED
/-- ALIGN. -/
def execAlign (s : State) : Res := .next (s.viaWrite R.RTC_CMD.reg (fun s => s.rtcAlign.rtcShow))

/-- Year, month and day of a day number from 1970-01-01, for years from 2000 on. -/
def civil (days : Nat) : Nat × Nat × Nat :=
  let z := days + 719468
  let doe := z % 146097
  let yoe := (doe - doe / 1460 + doe / 36524 - doe / 146096) / 365
  let doy := doe - (365 * yoe + yoe / 4 - yoe / 100)
  let mp := (5 * doy + 2) / 153
  let d := doy - (153 * mp + 2) / 5 + 1
  let m := if mp < 10 then mp + 3 else mp - 9
  (yoe + z / 146097 * 400 + (if m ≤ 2 then 1 else 0), m, d)

/-- Days from 1970-01-01 to a date of the proleptic calendar. -/
def daysOf (y m d : Nat) : Nat :=
  let y := if m ≤ 2 then y - 1 else y
  let doy := (153 * (if 2 < m then m - 3 else m + 9) + 2) / 5 + d - 1
  let yoe := y % 400
  y / 400 * 146097 + (yoe * 365 + yoe / 4 - yoe / 100 + doy) - 719468

/-- The first second of 2000 and the first after 2199, from 1970. -/
def utcFirst : Int := 946684800
def utcEnd : Int := 7258118400

/-- The calendar words of UTC seconds from 1970-01-01, a Thursday. -/
def calWords (u : Nat) : Word × Word :=
  let c := civil (u / 86400)
  let t := u % 86400
  (w32 ((u / 86400 + 4) % 7 * 2 ^ 24 + t / 3600 * 2 ^ 16 + t / 60 % 60 * 2 ^ 8 + t % 60),
   w32 ((c.1 - 2000) % 256 * 2 ^ 12 + c.2.1 * 2 ^ 8 + c.2.2))

/-- At the next whole second the calendar takes network UTC, or the ALIGN is refused (R487, R488). The load counts as a
calendar write for the alarms (DEDUCED, assumption 30). -/
def State.alignExecute (s : State) : State :=
  if s.on R.RTC_STATUS.ALIGN_WAIT then
    let u : Int := (stampSec s.now : Int) - toSigned 32 (s.r R.TIME_UTCOFF.reg).toNat
    if utcFirst ≤ u ∧ u < utcEnd then
      let w := calWords u.toNat
      let s := s.record 0x0302 1 0xFFFF [s.r R.RTC_TIME.reg, s.r R.RTC_DATE.reg, w.1, w.2]
      let s := ((s.setR R.RTC_TIME.reg w.1).setR R.RTC_DATE.reg w.2).subsecZero
      (((s.setF R.RTC_STATUS.ALIGN_WAIT 0).setF R.RTC_STATUS.VALID 1).raise E.RTC_EVT.ALIGNED).alarms
    else s.alignRefuse
  else s
/-- ALIGN_EXECUTE. -/
def execAlignExecute (s : State) : Res := .next s.alignExecute

/-- The UTC seconds from 1970 that the calendar shows; none when it was never set or lies outside 2000–2199 (R350). -/
def State.rtcSeconds (s : State) : Option Nat :=
  let y := 2000 + s.f R.RTC_DATE.YEAR
  if s.on R.RTC_STATUS.VALID ∧ y ≤ 2199 then
    some (daysOf y (s.f R.RTC_DATE.MONTH) (s.f R.RTC_DATE.DAY) * 86400 + s.f R.RTC_TIME.HOUR * 3600 + s.f R.RTC_TIME.MIN * 60 +
      s.f R.RTC_TIME.SEC)
  else none

end Sys2Proof.Machine
end

