-- ==== Sys2Proof/Machine/RegEffect.lean ====
section
/-! DEFINITION. What follows when the RW and SO fields of a register change, whether a direct write or a sheaf changes them
(R19): the registers that show other state, and those whose change acts at once. -/
namespace Sys2Proof.Machine
open Sys2Proof

/-! ## Instances -/

/-- The instance index of an offset of a row, at depth `d`. -/
def dimsIdx : List (Nat × Nat) → Nat → Nat → Nat
  | [], _, _ => 0
  | (st, _) :: _, r, 0 => r / st
  | (st, _) :: ds, r, d + 1 => dimsIdx ds (r % st) d
def RegRow.idx (x : RegRow) (off d : Nat) : Nat := dimsIdx x.dims (off - x.off) d
/-- Whether a row is the one of a register, given by its first instance. -/
def RegRow.is (x : RegRow) (r : Reg) : Bool := x.off == r.off

/-! ## Registers that show other state -/

/-- The RW or SO word of a register as it stands: of the selected context for FE_SHF (R83), the selected register for
FE_DBG_DATA, the addressed word for FE_LS_DATA (R68), the stored word else. -/
def State.wordNow (s : State) (b : Blk) (x : RegRow) (off : Nat) : Word :=
  let c := s.ctx s.shfSel
  let p := x.idx off 0
  if b ≠ .fe then s.rd b off
  else if x.is R.FE_SHF_ADDR.reg then c.addr
  else if x.is R.FE_SHF_SPACE.reg then w32 c.space
  else if x.is R.FE_SHF_MASK.reg then c.mask
  else if x.is (R.FE_SHF_WHEN.reg 0) then stampWord c.regWhen p
  else if x.is R.FE_SHF_TIMED.reg then w32 (b2n c.regTimed)
  else if x.is (R.FE_DBG_DATA_LO.reg 0) then w32 (s.dbgValue p)
  else if x.is (R.FE_DBG_DATA_HI.reg 0) then w32 (s.dbgValue p / 2 ^ 32)
  else if x.is (R.FE_LS_DATA.reg 0) then (s.eng p).lsWord (4 * s.f (R.FE_LS_ADDR.WORD p))
  else s.rd b off

/-- A time value with word `i` replaced. -/
def putStamp (t : Stamp) (i : Nat) (v : Word) : Stamp :=
  wordsStamp (if i = 0 then v else stampWord t 0) (if i = 1 then v else stampWord t 1) (if i = 2 then v else stampWord t 2)

/-- A new word for a register of FE that does not simply hold what is written. -/
def State.feSpecial (s : State) (x : RegRow) (off : Nat) (v : Word) : Option State :=
  let c := s.shfSel
  let p := x.idx off 0
  if x.is R.FE_SHF_ADDR.reg then some (s.modCtx c (fun x => { x with addr := v }))
  else if x.is R.FE_SHF_SPACE.reg then some (s.modCtx c (fun x => { x with space := getBits v 0 2 }))
  else if x.is R.FE_SHF_MASK.reg then some (s.modCtx c (fun x => { x with mask := v }))
  else if x.is (R.FE_SHF_WHEN.reg 0) then some (s.modCtx c (fun x => { x with regWhen := putStamp x.regWhen p v }))
  else if x.is R.FE_SHF_TIMED.reg then some (s.modCtx c (fun x => { x with regTimed := bit v 0 }))
  else if x.is (R.FE_CFG.reg 0) then some (s.feCfgWrite p v)
  else if x.is (R.FE_PC.reg 0) then some (s.fePcWrite p v)
  else if x.is (R.FE_DBG_DATA_LO.reg 0) then some (s.dbgWrite p (s.dbgValue p / 2 ^ 32 * 2 ^ 32 + v.toNat))
  else if x.is (R.FE_DBG_DATA_HI.reg 0) then some (s.dbgWrite p (v.toNat * 2 ^ 32 + s.dbgValue p % 2 ^ 32))
  else if x.is (R.FE_LS_DATA.reg 0) then some (s.lsWrite p v)
  else none

/-- A new word for a register of any block that does not simply hold what is written. SYS_WDOG_CFG.EN becomes 0 in SERVICE
alone (R353); RTC_TIME and RTC_DATE go together (R479); RTC_CURVE changes in SERVICE alone (R490), and so does SVC_IMG_POLICY (R565). -/
def State.special (s : State) (b : Blk) (x : RegRow) (off : Nat) (v : Word) : Option State :=
  match b with
  | .fe => s.feSpecial x off v
  | .sys =>
    if x.is R.SYS_WDOG_CFG.reg && s.lcState != lcService then some (s.setR R.SYS_WDOG_CFG.reg (setBits v 31 1 (s.f R.SYS_WDOG_CFG.EN)))
    else none
  | .rtc =>
    if x.is R.RTC_TIME.reg then some (s.rtcTimeWrite v) else if x.is R.RTC_DATE.reg then some (s.rtcDateWrite v)
    else if x.is (R.RTC_CURVE.reg 0) && s.lcState != lcService then some s.rtcShow else none
  | .svc => if x.is R.SVC_IMG_POLICY.reg then some (s.policyWrite v) else none
  | _ => none

/-! ## Changes that act at once -/

/-- Effects in FE: watermarks are compared again (R177), STORM_CTRL.EN = 0 stops the procedure (R186). -/
def State.feEffect (s : State) (x : RegRow) (off : Nat) : State :=
  if x.is R.QU_INTAKE_WM_HIGH.reg || x.is R.QU_INTAKE_WM_LOW.reg then s.quEval .intake
  else if x.is (R.QU_CPL_WM_HIGH.reg 0) || x.is (R.QU_CPL_WM_LOW.reg 0) then s.quEval (.cpl (x.idx off 0))
  else if x.is R.STORM_CTRL.reg && !s.on R.STORM_CTRL.EN then s.stormStop
  else s

/-- Whether a plot's ports take part in link life: its plot is in RUN or DEGRADED (R261, R348). -/
def State.plotUp (s : State) (p : Nat) : Bool := s.plotState p == ptRun || s.plotState p == ptDegraded

/-- Effects in CAN: entering and leaving operation (R449), mailbox interrupts, watermarks. -/
def State.canEffect (prev s : State) (x : RegRow) (off : Nat) : State :=
  let c := x.idx off 0
  if x.is (R.CAN_CFG.reg 0) then
    if s.on (R.CAN_CFG.EN c) = prev.on (R.CAN_CFG.EN c) then s
    else if s.on (R.CAN_CFG.EN c) then s.canFresh c
    else s.setF (R.CAN_STATUS.STATE c) 3
  else if x.is (R.CAN_MB_FILT.reg 0 0) then s.mbIrq c
  else if x.is (R.QU_BULK_WM_HIGH.reg 0) || x.is (R.QU_BULK_WM_LOW.reg 0) then s.quEval (.bulk c)
  else s

/-- Effects in MTR: metering starts, a disabled feeder leaves its records without an estimate, an estimate that may not run any
more ends (R406, R416, R418). -/
def State.mtrEffect (prev s : State) (x : RegRow) (off : Nat) : State :=
  if x.is R.MTR_CFG.reg then s.when (!prev.on R.MTR_CFG.EN && s.on R.MTR_CFG.EN) State.zcStart
  else if x.is (R.MTR_FDR.reg 0) then
    let f := x.idx off 0
    s.when (prev.on (R.MTR_FDR.EN f) && !s.on (R.MTR_FDR.EN f)) (·.modMtr (fun m => { m with feedersOff := m.feedersOff ++ [f] }))
  else if x.is R.MTR_EST_CFG.reg then
    let s := s.when (!s.on R.MTR_EST_CFG.EN) (·.setF R.MTR_EST_STATUS.BUSY 0)
    s.when (prev.f R.MTR_EST_CFG.OFFSET != s.f R.MTR_EST_CFG.OFFSET) State.estOffset
  else s

/-- A new PWR_GAUGE_CAP: the count does not exceed it (R366). -/
def State.gaugeCap (s : State) : State := s.setCharge (min (s.f R.PWR_GAUGE.CHARGE) (s.f R.PWR_GAUGE_CAP.CAP))
/-- The charger stops. -/
def State.chargeStop (s : State) : State :=
  ((s.setF R.PWR_CELL_STATUS.CHARGING 0).setF R.PWR_CELL_STATUS.CV 0).setF R.PWR_CELL_STATUS.TEMP_HOLD 0

/-- What follows a change of register `off` of block `b`, with `prev` the state before it. -/
def State.regEffect (prev s : State) (b : Blk) (off : Nat) : State :=
  match findRow b off with
  | none => s
  | some x =>
    let n := x.idx off 0
    match b with
    | .fe => s.feEffect x off
    | .fab => if x.is (R.FAB_ACCT_QUOTA.reg 0 0) then s.acctQuotaWrite n (x.idx off 1) (s.f (R.FAB_ACCT_QUOTA.QUOTA n (x.idx off 1))) else s
    | .port =>
      if x.is (R.PORT_CFG.reg 0) then
        if s.plotUp (n / 32) then s.portCfgApplied n (prev.r (R.PORT_CFG.reg n)) else s.pairLinkUpdate
      else s
    | .ring =>
      if x.is (R.RING_CFG.reg 0) || x.is (R.RING_NODE_MAC_LO.reg 0 0) || x.is (R.RING_NODE_MAC_HI.reg 0 0) then prev.ringUpdate s n else s
    | .time =>
      if x.is R.TIME_SYNCE_CFG.reg || x.is (R.TIME_SYNCE_SRC.reg 0) then s.synceSelect
      else if x.is R.TIME_UTCOFF.reg then s.setUtcoff (s.r R.TIME_UTCOFF.reg)
      else s
    | .mtr => State.mtrEffect prev s x off
    | .dio => s.dioCopy.dioDrive prev.dioDriven
    | .ind =>
      if x.is (R.IND_CH_CFG0.reg 0) then if s.on (R.IND_CH_CFG0.EN n) then s.showFrame n else (s.showFrame n).chainStop n
      else if x.is (R.IND_STR_CFG.reg 0) then s.aonShow
      else if x.is (R.QU_FEED_WM_HIGH.reg 0) || x.is (R.QU_FEED_WM_LOW.reg 0) then s.quEval (.feed n)
      else s
    | .rad => s.radShow n
    | .can => State.canEffect prev s x off
    | .svc =>
      if x.is R.QU_UART_RX_WM_HIGH.reg || x.is R.QU_UART_RX_WM_LOW.reg then s.quEval .uartRx
      else if x.is R.QU_UART_TX_WM_HIGH.reg || x.is R.QU_UART_TX_WM_LOW.reg then s.quEval .uartTx
      else s
    | .rtc => (if x.is (R.RTC_ALM_CMP.reg 0) || x.is (R.RTC_ALM_CTL.reg 0) then s.almEval n else s).rtcShow
    | .pwr =>
      if x.is R.PWR_GAUGE_CAP.reg then s.gaugeCap
      else if x.is R.PWR_CHG_CFG.reg && !s.on R.PWR_CHG_CFG.EN then s.chargeStop
      else s
    | _ => s

/-- The RW and SO fields of a register take the word `v`. -/
def State.putReg (s : State) (b : Blk) (x : RegRow) (off : Nat) (v : Word) : State :=
  match s.special b x off v with
  | some t => t
  | none => s.regEffect (s.wr b off v) b off

end Sys2Proof.Machine
end

