-- ==== Sys2Proof/Machine/Apply.lean ====
section
/-! DEFINITION. The end of a sheaf check (R73), the commit (R75–R77) and the apply (R78–R81): register entries with what
follows from them, field memory with R49, R55, R50 and R340, images and engines (R43), and what the module posts. -/
namespace Sys2Proof.Machine
open Sys2Proof

/-! ## Registers -/

/-- One register entry at an apply: under its mask, RW and SO bits alone (R19); a register that shows other state takes its
word there, and a low word held by a direct write to the same pair is discarded (R17). -/
def State.applyReg (s : State) (e : ShfEntry) : State :=
  match shfReg s.ident.code e.addr.toNat with
  | none => s
  | some (b, off) =>
    match findRow b off with
    | none => s
    | some x =>
      let v := mergeMask (s.wordNow b x off) e.data (e.mask &&& sheafMask x)
      let low := if isPairLow b off then some off else pairLowOf b off
      let s := match low with
        | some o => s.setHeld (regAddr ⟨b, o⟩) none
        | none => s
      match s.special b x off v with
      | some t => t
      | none => s.wr b off v

/-- The registers that entries name, once each. -/
def State.regsIn (s : State) (es : List ShfEntry) : List (Blk × Nat) :=
  ((es.filter (·.space == 0)).filterMap (fun e => shfReg s.ident.code e.addr.toNat)).eraseDups

/-- Whether what follows from a register follows from its being set, be it to the value that it holds (R29, R238). -/
def actsAlways (b : Blk) (off : Nat) : Bool :=
  match findRow b off with
  | some x => b == .rtc || (b == .fab && x.is (R.FAB_ACCT_QUOTA.reg 0 0))
  | none => false
/-- The register under whose name the effects of a register are drawn: those of one ring act together (R280). -/
def effectReg (x : Blk × Nat) : Blk × Nat :=
  match findRow x.1 x.2 with
  | some r =>
    if x.1 = .ring && (r.is (R.RING_NODE_MAC_LO.reg 0 0) || r.is (R.RING_NODE_MAC_HI.reg 0 0)) then
      (.ring, (R.RING_CFG.reg (r.idx x.2 0)).off)
    else x
  | none => x

/-- The register entries of a sheaf in order, and then what follows from the changes, once for each register, and once for
each ring. -/
def State.applyRegs (s : State) (es : List ShfEntry) : State :=
  let t := (es.filter (·.space == 0)).foldl State.applyReg s
  let act := (s.regsIn es).filter (fun x => actsAlways x.1 x.2 || s.rd x.1 x.2 != t.rd x.1 x.2)
  foldS (act.map effectReg).eraseDups (fun x t => s.regEffect t x.1 x.2) t

/-! ## Field memory -/

/-- The word of a field-memory entry. -/
def State.applyWord (s : State) (e : ShfEntry) : State := if e.space = 1 then s.putEntry e else s

/-- Endpoint records that entries touch, once each. -/
def epsIn (es : List ShfEntry) : List Nat :=
  ((es.filter (fun e => e.space == 1 && decide (e.addr.toNat < 0x1000000))).map (fun e => e.addr.toNat / 128)).eraseDups
/-- Row records that entries touch, once each. -/
def rowsIn (es : List ShfEntry) : List Nat :=
  ((es.filter (fun e => e.space == 1 && decide (0x1000000 ≤ e.addr.toNat ∧ e.addr.toNat < 0x1800000))).map
    (fun e => (e.addr.toNat - 0x1000000) / 256)).eraseDups

/-- EFF_FLOOR and EFF_CEIL of endpoint `i` (R49). -/
def State.effLimits (s : State) (i : Nat) : State :=
  let ceil := s.ep i EP.LOCAL_CEIL
  if s.ep i EP.ON_ROW = 1 then
    let r := s.ep i EP.ROW
    (s.setEp i EP.EFF_FLOOR (s.row r ROW.FLOOR)).setEp i EP.EFF_CEIL (min (s.row r ROW.CEIL) ceil)
  else (s.setEp i EP.EFF_FLOOR 0).setEp i EP.EFF_CEIL ceil

/-- Whether a sheaf changed what the limits of endpoint `i` derive from. -/
def limitsChanged (a b : State) (i : Nat) : Bool :=
  [EP.VALID, EP.ROW, EP.ON_ROW, EP.LOCAL_CEIL].any (fun x => a.ep i x != b.ep i x)
/-- Whether a sheaf changed the limits or VALID of row `r`. -/
def rowChanged (a b : State) (r : Nat) : Bool := [ROW.VALID, ROW.FLOOR, ROW.CEIL].any (fun x => a.row r x != b.row r x)

/-- R49 for what changed from `a`: the endpoints themselves, and those on rows that changed. -/
def State.limitsApply (a s : State) (es : List ShfEntry) : State :=
  let eps := (epsIn es).filter (limitsChanged a s) ++ ((rowsIn es).filter (rowChanged a s)).flatMap s.onRow
  foldS eps (fun i s => s.effLimits i) s

/-- Group bits of endpoint `i` after VALID may have changed: group 0 shows VALID (R54), and an endpoint made invalid leaves
every group (R55). -/
def State.groupsApply (a s : State) (i : Nat) : State :=
  if s.epValid i then s.setGrpBit 0 i true
  else if a.epValid i then foldS (List.range 512) (fun g s => s.setGrpBit g i false) s
  else s

/-- Endpoint `i` after its record may have changed: its groups, its accumulator (R50), and its nodes' state when another
unit is bound. -/
def State.epApply (a s : State) (i : Nat) : State :=
  let s := State.groupsApply a s i
  let s := if a.ep i EP.GEN = s.ep i EP.GEN then s else s.accClear i
  if a.epEui i = s.epEui i ∧ a.epValid i = s.epValid i then s
  else foldS (List.range 4) (fun j s => s.setRadNode j i RadNode.none) s

/-! ## Ghosts (R340) -/

/-- The MACs of the nodes of every ring, with where they stand. -/
def State.nodeMacs (s : State) : List (Nat × Nat × Mac) :=
  (List.range 128).flatMap (fun k => (s.nodes k).map (fun j => (k, j, s.nodeMac k j)))
/-- The ghost slot of a unit that is no endpoint. -/
def nodeSlot (k j : Nat) : Nat := nEndpoints + 32 * k + j
/-- The ghost slot of the partner. -/
def peerSlot : Nat := nEndpoints + 4096

/-- Units that a sheaf unbinds: EUI-64, slot, SAFE. -/
def unbound (a s : State) (es : List ShfEntry) : List (Eui × Nat × Nat) :=
  ((epsIn es).filter (fun i => a.epValid i && (!s.epValid i || a.epEui i != s.epEui i))).map (fun i => (a.epEui i, i, a.ep i EP.SAFE)) ++
  (a.nodeMacs.filter (fun x => !s.nodeMacs.contains x)).map (fun x => (euiOfMac x.2.2, nodeSlot x.1 x.2.1, 0)) ++
  (if a.peerMac ≠ 0 ∧ a.peerMac ≠ s.peerMac then [(euiOfMac a.peerMac, peerSlot, 0)] else [])
/-- Units that a sheaf binds. -/
def bound (a s : State) (es : List ShfEntry) : List Eui :=
  ((epsIn es).filter (fun i => s.epValid i && (!a.epValid i || a.epEui i != s.epEui i))).map s.epEui ++
  (s.nodeMacs.filter (fun x => !a.nodeMacs.contains x)).map (fun x => euiOfMac x.2.2) ++
  (if s.peerMac ≠ a.peerMac then [euiOfMac s.peerMac] else [])

/-- The ghost list after a sheaf. -/
def State.ghostsApply (a s : State) (es : List ShfEntry) : State :=
  foldS (bound a s es) (fun e s => s.ghostBind e)
    (foldS (unbound a s es) (fun x s => s.ghostAdd x.1 x.2.1 x.2.2) s)

/-! ## The apply (R78) -/

/-- Whether the logical engines run here: the lighting runs, and not in the standby. -/
def State.lighting (s : State) : Bool := (s.role == rolePairActive || s.role == roleSolo) && s.on R.SYS_PWR_STATUS.LIGHT_RUN

/-- An image moves into the image store, and its engine reloads (R43). -/
def State.imageApply (s : State) (x : Nat × Image) : State :=
  let s := s.setImage x.1 (some x.2)
  if s.lighting && s.engActive x.1 then s.engRestart (s.physOf x.1) x.1 stRun else s

/-- Register and field-memory entries, and what follows from them. -/
def State.applyEntries (a : State) (es : List ShfEntry) : State :=
  let s := (a.applyRegs es)
  let s := es.foldl State.applyWord s
  let s := State.limitsApply a s es
  let s := foldS (epsIn es) (fun i s => State.epApply a s i) s
  State.ghostsApply a s es

/-- The whole of a sheaf's entries and images. -/
def State.applySheaf (s : State) (es : List ShfEntry) (images : List (Nat × Image)) : State :=
  foldS images (fun x s => s.imageApply x) (s.applyEntries es)

/-- The committed sheaf of number `q` has applied. -/
def State.journalApplied (s : State) (q : Nat) : State :=
  { s with shf := { s.shf with
      applied := s.shf.applied ++ s.shf.waiting.filter (·.seq == q)
      waiting := s.shf.waiting.filter (·.seq != q) } }

/-- The context is FREE again; its session's SHEAF_APPLY completes with the sequence number (R171). -/
def State.ctxApplied (s : State) (c : Nat) : State :=
  let x := s.ctx c
  let s := s.setCtx c x.release
  match x.hnd with
  | some h => s.complete h fsOk (w32 x.seq)
  | none => s

/-- The sheaf of context `c` applies: entries and images, FE_SHF_SEQ, SHEAF_APPLIED in every list and in the event stream
(R61, R78, R174). -/
def State.shfApplyNow (s : State) (c : Nat) : State :=
  let x := s.ctx c
  let t := if x.timed && !x.late then x.when_ else s.now
  let step := s.stepEpoch
  let s := (s.applySheaf x.entries x.images).journalApplied x.seq
  let s := (s.setR R.FE_SHF_SEQ.reg (w32 x.seq)).raise E.FE_SHF_EVT.APPLIED
  let s := s.moduleEvent meSheafApplied (w32 x.seq) t step
  (s.event evSheaf (leBytes 4 x.seq ++ wordsBytes [stampWord t 0, stampWord t 1, stampWord t 2])).ctxApplied c

/-- Whether the sheaf of context `c` applies now: APPLYING, or PENDING with its shadows loaded at or after its instant, and
no other applies ahead of it (R72, R80, R81). -/
def State.applyDue (s : State) (c : Nat) : Bool :=
  let x := s.ctx c
  (x.st = .applying || (x.st = .pending && x.loaded && s.reached x.when_)) && s.shfNext c

/-- SHEAF_APPLY_INSTANT of context `c`. -/
def execSheafApplyInstant (c : Fin 8) (s : State) : Res := .next (s.when (s.applyDue c) (·.shfApplyNow c))

/-- The context whose committed sheaf stands first and is APPLYING. -/
def State.applyingCtx (s : State) : Option Nat :=
  (List.range 8).find? (fun c => (s.ctx c).st = .applying && s.shfNext c)
/-- Every sheaf that is APPLYING applies, in commit order (R81). -/
def State.applyCommitted (s : State) : State :=
  foldS (List.range 8) (fun _ s =>
    match s.applyingCtx with
    | some c => s.shfApplyNow c
    | none => s) s

/-! ## The commit (R75–R77, R336) -/

/-- The commit flag of context `c`'s sheaf is written to the ledger; the standby receives its journal entry. -/
def State.sheafCommit (s : State) (c : Nat) : State :=
  let x := s.ctx c
  ((s.shfCommit c).ledgerCommit (.sheaf x.seq) (leBytes 4 x.seq)).ckptSend (.journal x.journal)
/-- SHEAF_COMMIT of context `c`. -/
def execSheafCommit (c : Fin 8) (s : State) : Res :=
  .next (s.when ((s.ctx c).st = .committing && !s.flashStuck .journal) (·.sheafCommit c))

/-! ## The end of a check (R73, R74) -/

/-- The session command that waits for context `c`'s check completes. -/
def State.checkReply (s : State) (c status : Nat) (result : Word) (data : List Byte) : State :=
  match (s.ctx c).hnd with
  | some h => ((s.setData (s.handleAt h) data).complete h status result).modCtx c (fun x => { x with hnd := none })
  | none => s

/-- The check of context `c` fails: CHK_FAIL, and for a repeated check, whose APPLY is refused, REFUSED (R72, R83). -/
def State.checkFailed (s : State) (c : Nat) (f : Failure) : State :=
  let again := (s.ctx c).forApply
  let s := s.modCtx c (fun x => { x with
    st := .failed, result := resRule, failRule := f.rule, failOther := f.other, failIndex := f.index, forApply := false })
  let s := (s.raise E.FE_SHF_EVT.CHK_FAIL).when again (·.raise E.FE_SHF_EVT.REFUSED)
  if again then s.checkReply c fsSheaf (w32 resRule) []
  else s.checkReply c fsOk 0 (leBytes 4 resRule ++ leBytes 4 f.rule ++ leBytes 4 f.index)

/-- The check of context `c` passes: its images are copied into staging (R72); a repeated check goes on to COMMITTING.
FE_SHF_FAIL keeps showing the context's latest failure, after this as after an OPEN (DESIGN CHOICE, assumption 160). -/
def State.checkPassed (s : State) (c : Nat) : State :=
  let im := s.sheafImages (s.ctx c).entries
  let again := (s.ctx c).forApply
  let s := s.modCtx c (fun x => { x with st := .checked, result := resOk, images := im, checkedAt := s.shf.commits })
  if again then s.shfCommitStart c
  else s.checkReply c fsOk 0 (leBytes 4 resOk ++ leBytes 4 0 ++ leBytes 4 0)

/-- The check of context `c` ends. A context that is to be discarded is FREE then (R352). -/
def State.checkEnd (s : State) (c : Nat) : State :=
  let x := s.ctx c
  if x.dropAfter then (s.checkReply c fsSheaf (w32 resNotPermitted) []).modCtx c Ctx.release
  else match s.checkSheaf x.entries with
    | some f => (s.checkFailed c f).chkResume c
    | none => (s.checkPassed c).chkResume c

/-- CHECK_COMPLETE of context `c`. A repeated check ends after the commit of a sheaf in COMMITTING (assumption 12). -/
def execCheckComplete (c : Fin 8) (s : State) : Res :=
  .next (s.when ((s.ctx c).st = .checking && !((s.ctx c).forApply && s.committing)) (·.checkEnd c))

end Sys2Proof.Machine
end

