-- ==== Sys2Proof/Machine/Ledger.lean ====
section
/-! DEFINITION. What a start takes from the ledger (R510): each fact from the copy taken of its entry, or as never written. -/
namespace Sys2Proof.Machine
open Sys2Proof

/-- The table that bytes begin with, and the bytes after it. -/
def tableOf (l : List Byte) : Store Nat × List Byte :=
  let n := leNat (l.take 4)
  let l := l.drop 4
  ((List.range n).map (fun i => (leNat ((l.drop (12 * i)).take 4), leNat ((l.drop (12 * i + 4)).take 8))), l.drop (12 * n))
/-- The wear counters that an entry's body holds (R344, R507). -/
def Spares.wearFrom (x : Spares) (b : List Byte) : Spares :=
  let e := tableOf b
  let i := tableOf e.2
  let z := tableOf i.2
  { x with
    erases := e.1, slotErases := (sget erasesDefault i.1 0, sget erasesDefault i.1 1), laserOn := z.1, phaseSince := (tableOf z.2).1 }
/-- The activation that an entry's body holds: slots, their states, the activation, the journal's format (R507, R565). -/
def Svc.actFrom (x : Svc) (b : List Byte) : Svc :=
  let n (i k : Nat) : Nat := leNat ((b.drop i).take k)
  { x with
    active := n 0 1, slot0 := { x.slot0 with st := n 1 1 }, slot1 := { x.slot1 with st := n 2 1 }, act := n 3 1
    when_ := BitVec.ofNat 96 (n 4 12), fmt := n 16 2 }
/-- The state of an image slot from its entry. -/
def Svc.slotFrom (x : Svc) (n v : Nat) : Svc :=
  if n = 0 then { x with slot0 := { x.slot0 with st := v } } else { x with slot1 := { x.slot1 with st := v } }
/-- A change of the facts of the ledger that stand in no other unit. -/
def State.modLedger (s : State) (f : Ledger → Ledger) : State := { s with ledger := f s.ledger }

/-- The fact of an entry of which a copy was taken. A fact that is not read back here changes only with a commit of its
entry. -/
def State.factTake (s : State) (g : LdgTag) (b : List Byte) : State :=
  match g with
  | .opMs => s.modLedger (fun l => { l with opMs := leNat b })
  | .cycles => s.modLedger (fun l => { l with pwrCycles := leNat b })
  | .seqBlock => s.modLedger (fun l => { l with seqReserved := leNat b })
  | .epoch => s.modLedger (fun l => { l with epoch := leNat b })
  | .utcoff => s.modLedger (fun l => { l with utcoff := w32 (leNat b) })
  | .totals _ => s.modLedger (fun l => { l with totals := totalsOf b })
  | .lcState => (s.modLedger (fun l => { l with epoch := leNat (b.drop 1) })).setLc (leNat (b.take 1))
  | .tampers => { s with key := { s.key with tampers := leNat b } }
  | .radBlock j => s.setRad j { s.radAt j with seq := leNat b, seqEnd := leNat b }
  | .policy => s.modSvc (fun x => { x with policy := w32 (leNat b) })
  | .imgSlot n => s.modSvc (·.slotFrom n (leNat b))
  | .activation => s.modSvc (·.actFrom b)
  | .wear => s.modSpares (·.wearFrom b)
  | _ => s

/-- An element whose retirement the ledger does not hold is under a pass again at the start (R316). -/
def State.unretire (s : State) (cls el : Nat) : State :=
  let s := s.modSpares (fun x => { x with retired := x.retired.erase (cls, el), passes := x.passes ++ [⟨cls, el, false⟩] })
  s.when (cls == hcPlane) (·.setPlane el plHarrow)

/-- The fact of an entry that is taken as never written (R510): its value is the one of a module that wrote none. -/
def State.factGone (s : State) (e : LdgEntry) : State :=
  match e.tag with
  | .opMs => s.modLedger (fun l => { l with opMs := 0 })
  | .cycles => s.modLedger (fun l => { l with pwrCycles := 0 })
  | .seqBlock => s.modLedger (fun l => { l with seqReserved := 0 })
  | .epoch => s.modLedger (fun l => { l with epoch := 0 })
  | .utcoff => s.modLedger (fun l => { l with utcoff := 0 })
  | .totals _ => s.modLedger (fun l => { l with totals := l.savedTotals })
  | .summary _ => s.modLedger (fun l => { l with summaries := l.summaries.filter (fun r => r.summary != e.body) })
  | .boot _ => s.modLedger (fun l => { l with boots := l.boots.filter (fun x => x.bytes != e.body) })
  | .powerFail => s.modLedger (fun l => { l with powerFail := none })
  | .checkpoint => s.modLedger (fun l => { l with own := Ckpt.empty, ownApplied := 0 })
  | .sheaf n => { s with shf := { s.shf with
      applied := s.shf.applied.filter (fun x => x.seq != n), waiting := s.shf.waiting.filter (fun x => x.seq != n), torn := true } }
  | .lcState => s.setLc lcBlank
  | .intent => ({ s with key := { s.key with intent := none } }).setF R.KEY_LC_STATUS.TRANSITION 0
  | .recipes => { s with key := { s.key with recipes := [] } }
  | .helper => { s with key := { s.key with helper := none, puf := none } }
  | .tampers => { s with key := { s.key with tampers := 0 } }
  | .radBlock j => s.setRad j { s.radAt j with seq := 0, seqEnd := 0 }
  | .policy => s.modSvc (fun x => { x with policy := 0 })
  | .imgSlot n => s.modSvc (·.slotFrom n isEmpty)
  | .activation => s.modSvc (fun x => { x with active := 0, act := 0, when_ := 0, fmt := 0 })
  | .wear => s.modSpares (fun x => { x with erases := [], slotErases := (0, 0), laserOn := [], phaseSince := [] })
  | .retired cls el => s.unretire cls el
  | .plane k => s.setPlane k plOff
  | .identity => s
  | .gaugeCurve => s
  | .calibration => s

/-- Copies in ascending write sequence. -/
def ldgSort (l : List LdgCopy) : List LdgCopy :=
  l.foldr (fun c l => l.takeWhile (fun x => x.seq < c.seq) ++ c :: l.dropWhile (fun x => x.seq < c.seq)) []

/-- Step 4 of R348: what was being written has completed; every entry is resolved; the facts are those of the copies taken
(R510). `lost`: the copies whose CRC does not match. -/
def State.ledgerStart (s : State) (lost : List LdgLoss) (err : Nat) : State :=
  let s := s.ledgerAll
  let s := s.modLedger (·.lose lost)
  let gone := s.ledger.goneEntries
  let s := s.ledgerResolve err
  let s := foldS gone (fun e s => s.factGone e) s
  foldS (ldgSort s.ledger.bank0) (fun c s => s.factTake c.entry.tag c.entry.body) s

end Sys2Proof.Machine
end

