-- ==== Sys2Proof/Machine/Start.lean ====
section
/-! DEFINITION. Resets and start-up (R41, R76, R160, R346–R353), the start of lighting control (R330, R348), and the last steps
of a claim (R334, R337). -/
namespace Sys2Proof.Machine
open Sys2Proof

/-! ## The FULL reset (R351) -/

/-- Registers that the ledger or the backup domain carries through a FULL reset: the RTC, the tamper status, the gauge's count,
the spare inventory (R316), and which ports run on a fallow laser (R263). -/
def State.keptRegs (s : State) : Regs :=
  let fabKept := fun (a : Nat) => a == R.FAB_PLANES.reg.off || (List.range 8).any (fun p => a == (R.FAB_BUF_TOTAL.reg p).off)
  { Regs.reset with
    rtc := s.regs.rtc
    key := s.regs.key.filter (fun e => e.1 == R.KEY_TAMP_STATUS.reg.off)
    sys := s.regs.sys.filter (fun e => e.1 == R.SYS_SPARE0.reg.off || e.1 == R.SYS_SPARE1.reg.off || e.1 == R.SYS_SPARE2.reg.off ||
      e.1 == R.SYS_HARROW.reg.off)
    fab := s.regs.fab.filter (fun e => fabKept e.1) }

/-- The spares after a FULL reset: what the ledger holds, and the passes whose outcome had not committed (R316). The buffers
are empty, so that a replaced bank holds no cell any more (R321). -/
def Spares.kept (x : Spares) : Spares :=
  { x with
    transients := [], counted := [], corrected := [], judged := [], cells := [], leaving := [], plotsOff := [], installs := []
    banksRetired := x.banksRetired ++ ((x.leaving.map (fun y => (y.1, y.2.1))).eraseDups.filter (fun y => !x.banksRetired.contains y)) }

/-- A transceiver after a FULL reset: its frame counter goes on at the end of the block reserved (R430). -/
def Rad.kept (r : Rad) : Rad := { Rad.off with seq := r.seqEnd, seqEnd := r.seqEnd }

/-- The key block after a FULL reset: key RAM and the ledger stand (R351); ephemeral keys, shadows and the nonce are gone, and a
transition whose INTENT had not committed (R536). -/
def State.keptKey (s : State) : Key :=
  { s.keyReset.key with puf := none, op := none, intent := s.key.intent.filter (fun i => i.committed) }

/-- The SVC block after a FULL reset: flash and ledger stand; a scheduled activation among them (R565). -/
def Svc.kept (x : Svc) : Svc :=
  { x with busy := 0, recovery := false, commanded := false, ringPass := 0, ringBlock := 0, radPass := 0, radBlock := 0, txTill := 0 }

/-- The state that a FULL reset leaves: `causes` in SYS_RST_CAUSE. The tamper monitors run on, so ZEROISED stands
(R524, R528). What the standby's checkpoint area and journal hold lies in
flash and stands (R336, R351). -/
def State.fullReset (s : State) (causes : Nat) : State :=
  let t : State := { State.reset with
    regs := s.keptRegs
    ident := s.ident
    bus := { State.reset.bus with bootRom := s.bus.bootRom }
    ledger := s.ledger.held
    shf := { State.reset.shf with
      applied := s.shf.applied, waiting := s.shf.waiting, lastSeq := s.shf.lastSeq, torn := s.shf.torn || s.committing }
    pair := { State.reset.pair with
      ghosts := s.pair.ghosts, ckptEpoch := s.pair.ckptEpoch, ckpt := s.pair.ckpt, older := s.pair.older
      building := s.pair.building, journal := s.pair.journal, sheafSeen := s.pair.sheafSeen }
    spares := s.lasersOff.spares.kept
    rcd := { State.reset.rcd with log := s.rcd.log, block := s.rcd.block, used := s.rcd.used }
    rad := s.rad.map (fun e => (e.1, e.2.kept))
    rtc := { s.rtc with secAt := s.rtc.secAt - (s.opTotal : Int) }
    key := s.keptKey
    svc := s.svc.kept
    power := { State.reset.power with
      step := 1, inputOk := s.power.inputOk, absent := s.power.absent, removed := s.power.removed
      validTicks := s.power.validTicks, cellRest := s.power.cellRest, mainUp := s.power.mainUp }
    out := s.out
    freeCtr := s.freeCtr
    pending := s.pending }
  let t := foldS ((List.range 256).filter (fun n => s.on (R.PORT_STATUS.SWAPPED n))) (fun n t => t.setF (R.PORT_STATUS.SWAPPED n) 1) t
  let t := (t.setR R.SYS_RST_CAUSE.reg (w32 causes)).setF R.PWR_IN_STATUS.VALID (b2n s.power.inputOk)
  ((t.setF R.PWR_GAUGE.CHARGE (s.f R.PWR_GAUGE.CHARGE)).setF R.KEY_STATUS.ZEROISED (s.f R.KEY_STATUS.ZEROISED)).edgesDark s

/-! ## Steps 1 to 6 of R348 -/

/-- The causes of a start from a valid input (R354, R365). -/
def State.powerCauses (s : State) : Nat :=
  1 + b2n s.ledger.shutdown * 2 + b2n s.ledger.inLow * 0x40 + b2n s.ledger.pfw * 0x80

/-- The input becomes valid while the FULL reset is held (R346, R355, R357). The RTC runs from it again (R490). -/
def State.inputValid (s : State) : State :=
  let c := s.powerCauses
  let s := s.modPower (fun p => { p with inputOk := true, mainUp := true, validTicks := 0 })
  let s := (s.setF R.RTC_STATUS.ON_BATT 0).rtcShow
  ({ s with ledger := { s.ledger with pfw := false, inLow := false, shutdown := false } }).fullReset c
/-- INPUT_VALID: after an absence, which a SHUTDOWN waits for too (R357). -/
def execInputValid (s : State) : Res := .next (s.when (s.power.step == 0 && !s.power.inputOk) State.inputValid)

/-- Step 2: the power-cycle count is committed, and the edges stand by (R440, R451, R460); the cell is seen when its voltage lies within its range (R359). -/
def State.regulatorsUp (s : State) : State :=
  let n := (s.ledger.pwrCycles + 1) % 2 ^ 32
  let s := ({ s with ledger := { s.ledger with pwrCycles := n } }).ledgerCommit .cycles (leBytes 4 n) |>.setR R.SYS_PWR_CYCLES.reg (w32 n)
  let s := s.setF R.PWR_CELL_STATUS.PRESENT (b2n (!s.power.absent))
  s.standbyShow.showSoc.modPower (fun p => { p with step := 2 })
/-- REGULATORS_UP. -/
def execRegulatorsUp (s : State) : Res := .next (s.when (s.power.step == 1) State.regulatorsUp)

/-- SYS_ID. -/
def State.sysId (s : State) : Word := w32 (0x25600000 + orderNum s.ident.code * 4096 + 1)

/-- The first records of a power cycle: BOOT, the POWER_FAIL entry of the one before, and RECOVERY (R494, R500, R561). -/
def State.bootRecords (s : State) : List Offer :=
  [⟨0x0503, 1, 0xFFFF, [s.r R.SYS_RST_CAUSE.reg, s.sysId]⟩] ++
  (match s.ledger.powerFail with
   | some b => [⟨0x0E01, 3, 0xFFFF, b⟩]
   | none => []) ++
  (if s.svc.recoveryCause = 0 then [] else [⟨0x0D08, 2, 0xFFFF, [w32 (s.svc.recoveryCause - 1)]⟩])

/-- The recorder opens: numbers go on after the newest reservation, the log's bounds are found (R492, R494, R502). -/
def State.recOpen (s : State) : State :=
  let all := s.rcd.log.flatMap (fun g => g.recs)
  let first := match all.head? with
    | some r => r.seq
    | none => s.ledger.seqReserved
  let last := match all.getLast? with
    | some r => r.seq
    | none => 0
  let s := ((s.setPairR R.REC_FIRST_SEQ_LO.reg R.REC_FIRST_SEQ_HI.reg first).setPairR R.REC_LAST_SEQ_LO.reg R.REC_LAST_SEQ_HI.reg last).setPairR
    R.REC_FLASH_SEQ_LO.reg R.REC_FLASH_SEQ_HI.reg last
  let s := { s with
    rcd := { s.rcd with
      offered := s.bootRecords ++ s.rcd.offered
      cycles := s.bootRecords.map (fun _ => none) ++ s.rcd.cycles
      nextSeq := s.ledger.seqReserved
      isOpen := true }
    ledger := { s.ledger with powerFail := none } }
  s.modSvc (fun v => { v with recoveryCause := 0 })

/-- What the ledger gives a start (R493, R507): operating time, in which the RTC's latest second stands where it was, epoch, its
write sequence. -/
def State.ledgerLoad (s : State) : State :=
  let n := s.ledger.opMs + 60000
  let s := { s with rtc := { s.rtc with secAt := s.rtc.secAt + ((n : Int) - (s.power.opBase : Int)) * 625000 } }
  let s := s.modPower (fun p => { p with opBase := n })
  (s.setF R.SYS_PAIR_EPOCH.EPOCH s.ledger.epoch).setPairR R.REC_LDG_SEQ_LO.reg R.REC_LDG_SEQ_HI.reg s.ledger.writeSeq

/-- Step 4: SDRAM trained. At a start from a FULL reset the ledger is read, a life-cycle transition that was in progress is
completed (R536), the spare inventory is rebuilt (R316), metering starts, the recorder opens, the key RAM is tested (R529). -/
def State.sdramTrained (s : State) (lost : List LdgLoss) (err : Nat) : State :=
  let s := (s.setClock 12 true).setDomain 12 true
  let s := s.modPower (fun p => { p with step := 4 })
  if s.rcd.isOpen then s
  else (((s.ledgerStart lost err).ledgerLoad.planesStart.recOpen.mtrStart).keyTest).lcComplete
/-- SDRAM_TRAINED; after the start a training restores the domain's bit alone (R40). -/
def execSdramTrained (lost : List LdgLoss) (err : BitVec 2) (s : State) : Res :=
  .next (if s.power.step = 3 then s.sdramTrained lost err.toNat
    else if 4 ≤ s.power.step then (s.setClock 12 true).setDomain 12 true else s)

/-- Step 5: firmware runs, the PUF root is reconstructed and every recorded COMPAT slot is derived again (R522), which a
CONTROL reset repeats (R351). After a FULL reset the plots begin their self-test. -/
def State.ctrlUp (s : State) (puf : Bool) : State :=
  let s := foldS [11, 12, 14, 17] (fun d s => (s.setClock d true).setDomain d true) s
  let s := (s.setF R.SYS_PWR_STATUS.CTRL_UP 1).setR R.SYS_START_CTRL_MS.reg (w32 (s.power.opTicks / 625000))
  let s := ((s.modPower (fun p => { p with step := 5, again := false })).svcShow).pufStart puf
  s.when (!s.power.timeUp) (foldS (List.range 8) (fun p s => s.setPlotState p ptTest))
/-- CTRL_UP: whether the PUF root can be reconstructed. -/
def execCtrlUp (puf : Bool) (s : State) : Res := .next (s.when (s.power.step == 4) (·.ctrlUp puf))

/-- The time base that step 6 loads (R350). -/
def State.loadTime (s : State) : Nat :=
  match s.rtcSeconds with
  | some n => ((n : Int) + toSigned 32 s.ledger.utcoff.toNat).toNat * tbSec
  | none => 0
/-- Step 6: D2 locked, the time base loaded. This is no step of the time base. -/
def State.timeLoad (s : State) : State :=
  let s := foldS [1, 2] (fun d s => (s.setClock d true).setDomain d true) s
  ((s.setNow s.loadTime).mtrTimed s.now).modPower (fun p => { p with timeUp := true })
/-- TIME_BASE_LOAD. -/
def execTimeBaseLoad (s : State) : Res := .next (s.when (s.power.step == 5 && !s.power.timeUp) State.timeLoad)

/-! ## Restoration (R41, R76, R160, R334) -/

/-- Logical engines go to the lowest unretired physical engines; the rest are fallow; an engine whose pass was not decided is
under it again (R41, R316, R326). -/
def State.engAssign (s : State) : State :=
  let live := (List.range 18).filter (fun p => !s.spares.retired.contains (hcEngine, p))
  let under (p : Nat) : Bool := s.spares.passes.any (fun y => y.cls == hcEngine && y.el == p)
  let s := foldS (List.range 18) (fun p s =>
    (s.setEngRole p (if !live.contains p then roleRetired else if under p then roleHarrow else roleFallow)).setF
      (R.FE_STATUS.LOGICAL p) logicalNone) s
  let s := foldS ((live.take 16).zipIdx 0) (fun x s =>
    let role := if under x.1 then roleHarrow else roleActive
    ((s.setPhys x.2 x.1).setF (R.FE_STATUS.LOGICAL x.1) x.2).setEngRole x.1 role) s
  let s := s.modSpares (fun v => { v with passes := v.passes.map (fun y =>
    if y.cls = hcEngine then { y with fallow := !(live.take 16).contains y.el } else y) })
  let off := (List.range 16).filter (fun l => decide (live.length ≤ l))
  let s := { s with fe := { s.fe with stopped := off } }
  (s.setF R.SYS_SPARE0.FE_STOPPED off.length).feCount

/-- Group 0 shows VALID of every record (R54). -/
def State.groupZero (s : State) : State :=
  let s := { s with fmem := s.fmem.filter (fun c => !decide (0x1800000 ≤ c.1 ∧ c.1 < 0x1804000)) }
  foldS s.validEps (fun i s => s.setGrpBit 0 i true) s

/-- Field memory takes the regions of a checkpoint. -/
def State.fmemFrom (s : State) (c : Ckpt) : State :=
  { s with fmem := c.fmem.foldl (fun m b => sset fmemReset m b.1 b.2) (s.fmem.filter (fun x => !ckptRegion x.1)) }

/-- Slot generations from a checkpoint, through `f`: every slot's, those of the slots in use among them (R160, R337). -/
def State.gensFrom (s : State) (c : Ckpt) (f : Nat → Nat) : State :=
  let used := s.hnd.tab.filter (fun e => e.2.st != .free)
  let base := f c.base
  let put (m : Store Handle) (i : Nat) (h : Handle) : Store Handle := sset (hndDefault base) m i h
  let tab := c.gens.foldl (fun m e => put m e.1 { Handle.fresh with gen := f e.2 }) []
  let tab := used.foldl (fun m e => put m e.1 { e.2 with gen := f (c.gen e.1) }) tab
  { s with hnd := { s.hnd with base := base, tab := tab, freshFrom := 0, freed := [] } }

/-- The field-memory entries of a committed sheaf apply as restored state, in place of `a`. -/
def State.restoreMem (s a : State) (x : Committed) : State :=
  let s := x.entries.foldl State.applyWord s
  let s := State.limitsApply a s x.entries
  foldS (epsIn x.entries) (fun i s => State.epApply a s i) s
/-- A committed sheaf applies as restored state: no flag, no counter, no event (R76). `mem`: its field-memory entries too;
`first`: it applies for the first time here, so that units which it binds or unbinds leave or enter the ghost list (R340). -/
def State.restoreSheaf (s : State) (x : Committed) (mem first : Bool) : State :=
  let a := s
  let s := s.applyRegs x.entries
  let s := if mem then s.restoreMem a x else s
  let s := s.when first (fun s => State.ghostsApply a s x.entries)
  let s := foldS x.images (fun y s => s.setImage y.1 (some y.2)) s
  s.setR R.FE_SHF_SEQ.reg (w32 x.seq)

/-- A committed sheaf is restored as pending, in a free context without an owner; with none free it waits on and holds back those
behind it (DESIGN CHOICE, assumption 190). -/
def State.restorePending (s : State) (x : Committed) : State :=
  match s.freeCtx with
  | none => s
  | some c => s.setCtx c { (s.ctx c).release with
      st := .pending, entries := x.entries, images := x.images, seq := x.seq, timed := true, when_ := x.when_ }

/-- The committed sheaves of the module's own journal: those that have applied, again in their order; those that waited and
whose instant has passed; the rest as pending. The checkpoint holds the field memory of the first `ownApplied`. -/
def State.journalRestore (s : State) : State :=
  let done := s.shf.applied
  let due := s.shf.waiting.filter (fun x => !s.stillPending x)
  let wait := s.shf.waiting.filter s.stillPending
  let k := if s.ledger.own.complete then s.ledger.ownApplied else 0
  let s := foldS (done.zipIdx 0) (fun x s => s.restoreSheaf x.1 (decide (k ≤ x.2)) false) s
  let s := foldS due (fun x s => s.restoreSheaf x true true) s
  let s := foldS wait (fun x s => s.restorePending x) s
  let all := done ++ due ++ wait
  { s with shf := { s.shf with
      applied := done ++ due, waiting := wait, commits := all.length, lastSeq := all.foldl (fun m x => max m x.seq) s.shf.lastSeq } }

/-- Step 7: engines assigned, field memory and generations from the checkpoint, the journal, BOOT_DISCARD. The resolution of
the pair role begins, for which PRES_IN is read (R380; the moment DEDUCED, assumption 149). -/
def State.stateRestore (s : State) : State :=
  let s := s.modPair (fun p => { p with fitted := s.ident.partner })
  let s := s.engAssign
  let s := if s.ledger.own.complete then
      let s := foldS s.ledger.own.images (fun y s => s.setImage y.1 (some y.2)) s
      (s.fmemFrom s.ledger.own).gensFrom s.ledger.own (fun g => g)
    else s
  let s := s.groupZero.journalRestore
  let s := s.when s.shf.torn (·.raise E.FE_SHF_EVT.BOOT_DISCARD)
  let s := { s with shf := { s.shf with torn := false } }
  s.ghostUsed.modPower (fun p => { p with restored := true })
/-- STATE_RESTORE. -/
def execStateRestore (s : State) : Res := .next (s.when (s.power.timeUp && !s.power.restored) State.stateRestore)

/-! ## Lighting control -/

/-- Every logical engine that has a physical one starts by R43; the intake takes events. -/
def State.enginesStart (s : State) : State :=
  foldS ((List.range 16).filter (fun l => s.engActive l && s.engRole (s.physOf l) == roleActive))
    (fun l s => s.engRestart (s.physOf l) l stRun) s
def State.intakeOpens (s : State) : State := { s with fe := { s.fe with intakeOpen := true } }

/-- Step 8 for a module without a partner: SOLO (R330). -/
def State.lightSolo (s : State) : State := ((s.setRole roleSolo).intakeOpens.enginesStart).lightUp
/-- LIGHT_RUN. -/
def execLightRun (s : State) : Res :=
  .next (s.when (s.power.restored && s.role == roleBoot && !s.paired) State.lightSolo)

/-- A generation 1,024 ahead, under the wrap of R160 (R337). -/
def genAhead (g : Nat) : Nat := (g - 1 + 1024) % 32767 + 1

/-- The newest complete checkpoint: of the partner's stream, or the module's own. -/
def State.newestCkpt (s : State) : Ckpt :=
  if s.pair.ckpt.complete then s.pair.ckpt else if s.pair.older.complete then s.pair.older else s.ledger.own

/-- The sequence windows of records in which another unit stands than in `a` start empty (R430). -/
def State.windowsFrom (a s : State) : State :=
  foldS (List.range 4) (fun j s => s.setRad j { s.radAt j with
    nodes := (s.radAt j).nodes.filter (fun e => a.epEui e.1 == s.epEui e.1 && a.epValid e.1 == s.epValid e.1) }) s
/-- The restored checkpoint is the module's own from here on, and it holds no other (R336). -/
def State.ckptOwn (s : State) (c : Ckpt) : State :=
  if c.complete then
    { s with
      ledger := { s.ledger with own := c, ownApplied := s.shf.applied.length }
      pair := { s.pair with ckpt := Ckpt.empty, older := Ckpt.empty, building := Ckpt.empty } }
  else s
/-- Whether the newest complete checkpoint is one of the partner's stream. -/
def State.ckptTheirs (s : State) : Bool := s.pair.ckpt.complete || s.pair.older.complete
/-- Field memory from the module's own checkpoint, with the sheaves of its own journal that applied after it (R76). Images and
registers stand as those sheaves left them. -/
def State.ownRestore (s : State) : State :=
  if s.ledger.own.complete then
    State.windowsFrom s (foldS (s.shf.applied.drop s.ledger.ownApplied) (fun x s => s.restoreMem s x) (s.fmemFrom s.ledger.own))
  else s
/-- Steps 4 and 5 of R334: field memory, the replicated journal, handle generations. -/
def State.claimRestore (s : State) : State :=
  let c := s.newestCkpt
  let s := if s.ckptTheirs then
      (State.windowsFrom s (foldS c.images (fun y s => s.setImage y.1 (some y.2)) (s.fmemFrom c))).ckptOwn c
    else s.ownRestore
  let s := s.groupZero.intakeOpens
  let wait := s.pair.journal.filter s.stillPending
  let due := s.pair.journal.filter (fun x => !s.stillPending x)
  let s := foldS due (fun x s => s.restoreSheaf x true true) s
  let s := foldS wait (fun x s => s.restorePending x) s
  let s := { s with
    shf := { s.shf with
      applied := s.shf.applied ++ due
      waiting := s.shf.waiting ++ wait
      lastSeq := s.pair.journal.foldl (fun (m : Nat) (x : Committed) => max m x.seq) (max s.shf.lastSeq s.pair.sheafSeen) }
    pair := { s.pair with journal := [] } }
  (s.gensFrom c genAhead)

/-- Steps 4 to 7 of R334. -/
def State.claimComplete (s : State) : State :=
  let s := s.claimRestore
  let s := { s with fe := { s.fe with acc := [] } }
  let s := s.enginesStart.moduleEvent meTakeover (w32 s.epoch) s.now s.stepEpoch
  ((s.setRole rolePairActive).lightUp).roleEvent
/-- CLAIM_COMPLETE. -/
def execClaimComplete (s : State) : Res :=
  .next (s.when (s.role == roleClaiming && s.power.restored) State.claimComplete)

/-! ## Forwarding (R348, steps 9 and 10) -/

/-- Whether the laser of port `n`'s lane is retired and no fallow laser serves it (R261, R263). -/
def State.laserGone (s : State) (n : Nat) : Bool :=
  s.isRetired hcLaser (laserEl (n / 8) (n % 8))

/-- Plots in TEST enter RUN or DEGRADED, or OFF where the spares say so (R324, R327); their enabled ports enter ACQUIRE. -/
def State.plotsTested (s : State) : State :=
  let ps := (List.range 8).filter (fun p => s.plotState p == ptTest)
  let s := foldS ps (fun p s => s.setPlotState p ptRun) s
  let s := s.plotsUpdate
  let ns := (List.range 256).filter (fun n => ps.contains (n / 32) && s.plotUp (n / 32))
  foldS ns (fun n s =>
    if s.laserGone n then s.portFail n
    else if s.on (R.PORT_CFG.EN n) && s.portState n == psDark then s.setPortState n psAcquire
    else s) s
/-- PLOT_SELF_TEST_DONE. -/
def execPlotSelfTestDone (s : State) : Res := .next (s.when s.power.restored State.plotsTested)

/-- Whether every port of every enabled ring is UP. -/
def State.ringsUp (s : State) : Bool := s.ringsOn.all (fun k => s.portUp (s.ringA k) && s.portUp (s.ringB k))
/-- FWD_RUN. -/
def execFwdRun (s : State) : Res :=
  .next (s.when (s.power.restored && s.ringsUp && !s.on R.SYS_PWR_STATUS.FWD_RUN) (fun s =>
    (s.setF R.SYS_PWR_STATUS.FWD_RUN 1).setR R.SYS_START_FWD_MS.reg (w32 (s.power.opTicks / 625000))))

end Sys2Proof.Machine
end

