-- ==== Sys2Proof/Machine/Reset.lean ====
section
/-! DEFINITION. The end of FCP2 sessions (R168), the CONTROL reset (R351, R352), the commands of SYS_RST_CMD (R351, R357, R365),
the supply warning and the shutdown (R354–R357), the backup cell and its gauge (R358–R366), presence (R380), the base
temperature (R394) and the loss and return of domains (R30, R40). -/
namespace Sys2Proof.Machine
open Sys2Proof

/-! ## The end of a session (R168) -/

/-- The queued completions of session `n` are discarded and counted. -/
def State.cplFlush (s : State) (n : Nat) : State :=
  let items := (s.q (.cpl n)).items
  let s := foldS items (fun it s => (s.setData (it.getD 1 0) []).cplDiscard n) s
  (s.setQ (.cpl n) Queue.empty).quEval (.cpl n)

/-- Handles that session `n` owns. -/
def State.sessHandles (s : State) (n : Nat) : Nat := s.heldBy (fun o => o = .session n)

/-- Session `n` closes: what is queued for it is discarded, its contexts are discarded, and its number is free once every
handle it owns has completed. -/
def State.sessClose (s : State) (n : Nat) : State :=
  if (s.sess n).isOpen then
    let s := (s.cplFlush n).shfDrop (fun x => x.session = some n)
    s.setSess n { Session.none with closing := s.sessHandles n != 0 }
  else s

/-! ## CONTROL reset (R351, R352) -/

/-- What a CONTROL reset takes from the memories of the control complex and from the SVC block, the shadow and the held low
word of its pair included (R17); flash and ledger stand. -/
def State.ctrlClear (s : State) : State :=
  let svc (m : Store (Option Word)) : Store (Option Word) :=
    m.filter (fun e => !decide ((blkRange .svc).1 ≤ e.1 ∧ e.1 ≤ (blkRange .svc).2))
  { s with
    bus := { s.bus with sram := [], sdram := [], shadow := svc s.bus.shadow, held := svc s.bus.held }
    regs := { s.regs with svc := [] }
    fcp := { s.fcp with conns := [], uartRx := Queue.empty, uartTx := Queue.empty }
    svc := { s.svc with busy := 0, ringPass := 0, ringBlock := 0, radPass := 0, radBlock := 0, txTill := 0 } }

/-- The CONTROL reset with cause bit `cause` of SYS_RST_CAUSE: sessions end, firmware's sheaf contexts are discarded, ephemeral
keys are destroyed (R519); start-up runs again from step 3. -/
def State.controlReset (s : State) (cause : Nat) : State :=
  let s := foldS (List.range 16) (fun n s => s.sessClose n) s
  let s := (s.shfDrop (fun x => ownerCode x.owner == 0x10)).ctrlClear.keyReset
  let s := (s.setFBit ⟨.sys, R.SYS_RST_CAUSE.reg.off, 0, 32⟩ cause true).setF R.SYS_PWR_STATUS.CTRL_UP 0
  s.modPower (fun p => { p with step := min p.step 2, again := decide (2 ≤ p.step) })

/-- RST_CMD_CONTROL: SYS_RST_CMD with the key and CMD 1. -/
def State.rstControl (s : State) : State := s.when (s.power.step != 0) (·.controlReset 3)
def execRstCmdControl (s : State) : Res := .next s.rstControl

/-- RST_CMD_FULL: SYS_RST_CMD with the key and CMD 2. -/
def State.rstFull (s : State) : State := s.when (s.power.step != 0) (·.fullReset 4)
def execRstCmdFull (s : State) : Res := .next s.rstFull

/-! ## Supply warning and shutdown (R354–R357) -/

/-- Step 4 of R355: recorder flushed, totals and operating time saved, a life-cycle transition's STATE entry, the POWER_FAIL
entry with the sources of the warning, whose code no rule gives (assumption 150), and the count of records that came after the
final flush began (R500); all in both banks, since the hold-up leaves the time. Before step 4 of R348 the recorder is not
open and nothing has been loaded that could be saved. -/
def State.lastSaves (s : State) : State :=
  let s := s.ledgerWarned
  let s := if s.rcd.isOpen then s.recAcceptAll.recClose else s
  let s := { s with ledger := { s.ledger with shut := false } }
  let s := if s.rcd.isOpen then s.totalsSave.opMsSave.lcWarned.recAcceptAll else s
  let b := [Config.warnSource s.ledger.pfw s.ledger.inLow s.ledger.shutdown, w32 s.rcd.finalLost]
  (({ s with ledger := { s.ledger with powerFail := some b } }).ledgerCommit .powerFail (wordsBytes b)).ledgerAll

/-- Steps 2 to 7 of R355: everything is held in the FULL reset, and the outputs go off. -/
def State.shed (s : State) : State :=
  (s.lastSaves.fullReset 0).modPower (fun p => { p with step := 0 })

/-- The backup domain loses its power: key RAM, RTC, and the count, whose value then the spec does not state (R361, R481). -/
def State.backupLost (s : State) : State :=
  let s := { s.setF R.KEY_STATUS.ZEROISED 0 with
    key := { s.key with slots := [], shadows := [], root := none, marker := false }
    regs := { s.regs with rtc := [] }
    rtc := ⟨none, none, false, false, 0, [], s.opTotal⟩ }
  let r := (s.modPower (fun p => { p with cellRest := 0 })).free
  r.2.setF R.PWR_GAUGE.CHARGE (r.1 % (r.2.f R.PWR_GAUGE_CAP.CAP + 1))

/-- The input is not valid any more (R346). -/
def State.inputLost (s : State) : State := (s.modPower (fun p => { p with inputOk := false })).setF R.PWR_IN_STATUS.VALID 0
/-- The input is absent: the RTC runs on the cell (R490). With no cell in the holder the backup domain has no power (R361). -/
def State.inputGone (s : State) : State :=
  let s := s.inputLost.modPower (fun p => { p with mainUp := false })
  if s.power.absent then s.backupLost else s.setF R.RTC_STATUS.ON_BATT 1

/-- The warning: its sources, for SYS_RST_CAUSE at the next start. One by PFW_N alone leaves the main input up, which goes on
feeding the backup domain until it too falls (R354, R361). -/
def State.warning (s : State) (pfw inLow : Bool) : State :=
  let s := ({ s with ledger := { s.ledger with pfw := pfw, inLow := inLow } }).shed
  (if inLow then s.inputGone else s.inputLost).setF R.PWR_IN_STATUS.PFW (b2n pfw)
/-- SUPPLY_WARNING: PFW_N low for 2 µs, the main input below 40 V for 200 µs, or both. While the FULL reset is held there is
nothing to warn, and the input may become absent (R357, R361). -/
def execSupplyWarning (pfw inLow : Bool) (s : State) : Res :=
  .next (if s.power.step ≠ 0 then s.when (pfw || inLow) (·.warning pfw inLow) else s.when inLow State.inputGone)

/-- SHUTDOWN: a sheaf in COMMITTING commits first when it does so within 100 ms; then the module sheds and waits. -/
def State.shutdown (s : State) (inTime : Bool) : State :=
  let s := if inTime then
      foldS ((List.range 8).filter (fun c => (s.ctx c).st = .committing)) (fun c s => s.sheafCommit c) s
    else s
  (({ s with ledger := { s.ledger with shutdown := true } }).shed).modPower (fun p => { p with shutHeld := true })
/-- RST_CMD_SHUTDOWN; `inTime`: the commit that was in progress ends within 100 ms. -/
def State.rstShutdown (s : State) (inTime : Bool) : State := s.when (s.power.step != 0) (·.shutdown inTime)
def execRstCmdShutdown (inTime : Bool) (s : State) : Res := .next (s.rstShutdown inTime)

/-- A write of SYS_RST_CMD (R365). Whether a commit in progress ends in time is a free value here. -/
def State.rstCmd (s : State) (v : Word) : State :=
  if getBits v 16 16 ≠ 0x7A3C then s
  else match getBits v 0 4 with
    | 1 => s.rstControl
    | 2 => s.rstFull
    | 3 => let r := s.free; r.2.rstShutdown (r.1 % 2 == 1)
    | _ => s

/-! ## The backup cell (R358–R364) -/

/-- A flag of PWR_EVT with its CELL record (R495). -/
def State.cellEvent (s : State) (e : Evt) : State := (s.raise e).record 0x0E02 1 0xFFFF [w32 e.bit]

/-- The cell leaves its voltage range (R359–R361). -/
def State.cellRemoved (s : State) : State :=
  let s := (s.chargeStop.setF R.PWR_CELL_STATUS.PRESENT 0).setF R.PWR_CELL_STATUS.AT_REST 0
  let s := s.modPower (fun p => { p with absent := true, removed := p.removed || p.inputOk })
  if s.power.inputOk then s.cellEvent E.PWR_EVT.CELL_REMOVED else s.when (!s.power.mainUp) State.backupLost
/-- CELL_REMOVED. -/
def execCellRemoved (s : State) : Res := .next (s.when (!s.power.absent) State.cellRemoved)
/-- The voltage of a cell comes within the range: it is present, as PWR shows once the regulators are up (R348, R359). -/
def State.cellSeen (s : State) : State :=
  let s := s.modPower (fun p => { p with absent := false })
  s.setF R.PWR_CELL_STATUS.PRESENT (b2n (decide (2 ≤ s.power.step)))
/-- CELL_INSERTED, first for an absent cell, whose voltage comes within its range (R359), then for one that had been removed
and has been present for 2 s (R360; two commands, DESIGN CHOICE, assumption 151). -/
def execCellInserted (s : State) : Res :=
  .next (if s.power.absent then s.cellSeen
    else s.when (s.power.removed && s.power.inputOk) (fun s =>
      (s.modPower (fun p => { p with removed := false })).cellEvent E.PWR_EVT.CELL_INSERTED))
/-- CELL_DISCONNECT: without main input the cell falls below 2.5 V. -/
def execCellDisconnect (s : State) : Res := .next (s.when (!s.power.mainUp) State.backupLost)

/-- Whether the charger may run: enabled, a cell present whose insertion has counted, the main input valid. -/
def State.chargeable (s : State) : Bool :=
  s.power.inputOk && s.on R.PWR_CHG_CFG.EN && s.on R.PWR_CELL_STATUS.PRESENT && !s.power.removed
/-- CHARGE_START: a state of charge below 90 %. -/
def execChargeStart (s : State) : Res :=
  .next (s.when (s.chargeable && !s.on R.PWR_CELL_STATUS.CHARGING && decide (s.f R.PWR_GAUGE.SOC < 90)) (fun s =>
    (s.setF R.PWR_CELL_STATUS.CHARGING 1).setF R.PWR_CELL_STATUS.AT_REST 0))
/-- CHARGE_CV: the cell reaches 3.6 V. -/
def execChargeCv (s : State) : Res :=
  .next (s.when (s.on R.PWR_CELL_STATUS.CHARGING && !s.on R.PWR_CELL_STATUS.TEMP_HOLD) (·.setF R.PWR_CELL_STATUS.CV 1))
/-- CHARGE_END: the current falls below 10 mA; the count is full (R364). A charge that is paused does not end. -/
def execChargeEnd (s : State) : Res :=
  .next (s.when (s.on R.PWR_CELL_STATUS.CHARGING && s.on R.PWR_CELL_STATUS.CV && !s.on R.PWR_CELL_STATUS.TEMP_HOLD) (fun s =>
    s.chargeStop.setCharge (s.f R.PWR_GAUGE_CAP.CAP)))
/-- CHG_TEMP: the cell temperature leaves 0–45 °C during a charge. -/
def execChgTemp (s : State) : Res :=
  .next (s.when (s.on R.PWR_CELL_STATUS.CHARGING && !s.on R.PWR_CELL_STATUS.TEMP_HOLD) (fun s =>
    (s.setF R.PWR_CELL_STATUS.TEMP_HOLD 1).cellEvent E.PWR_EVT.CHG_TEMP))
/-- CHG_TEMP_RESUME: it is back within 1–44 °C. -/
def execChgTempResume (s : State) : Res := .next (s.setF R.PWR_CELL_STATUS.TEMP_HOLD 0)

/-- The cell is empty, whatever the count shows (R363). -/
def State.cellEmpty (s : State) : State :=
  let was := s.f R.PWR_GAUGE.CHARGE
  let s := ((s.setF R.PWR_CELL_STATUS.EMPTY 1).cellEvent E.PWR_EVT.CELL_EMPTY).setCharge 0
  s.when (was != 0) (·.cellEvent E.PWR_EVT.GAUGE_RESYNC)
/-- CELL_EMPTY: below 2.9 V with the charger off. -/
def execCellEmpty (s : State) : Res :=
  .next (s.when (!s.on R.PWR_CELL_STATUS.CHARGING) State.cellEmpty)
/-- CELL_EMPTY_CLEAR: 3.0 V with the charger off. -/
def execCellEmptyClear (s : State) : Res := .next (s.when (!s.on R.PWR_CELL_STATUS.CHARGING) (·.setF R.PWR_CELL_STATUS.EMPTY 0))

/-- `p` % of the capacity; a quotient that is no integer is rounded in a way the spec does not state (assumption 35). -/
def State.capShare (s : State) (p : Nat) : Nat :=
  let n := p * s.f R.PWR_GAUGE_CAP.CAP
  n / 100 + (if n % 100 != 0 && Config.roundUp n 100 then 1 else 0)
/-- The state of charge in % of a voltage between two points of the curve: on the line through them, rounded down. -/
def curveBetween (a b : Nat × Nat) (mv : Nat) : Nat :=
  if b.1 ≤ a.1 then a.2 else (a.2 * (b.1 - mv) + b.2 * (mv - a.1)) / (b.1 - a.1)
/-- The state of charge that a rest voltage gives on a curve of points (mV, %) by rising voltage: below the first point and
above the last it is theirs (the interpolation is a DESIGN CHOICE, assumption 151). -/
def curveSoc : List (Nat × Nat) → Nat → Nat
  | [], _ => 0
  | [a], _ => a.2
  | a :: b :: l, mv => if mv ≤ a.1 then a.2 else if mv ≤ b.1 then curveBetween a b mv else curveSoc (b :: l) mv
/-- The state of charge of a rest voltage on the 16-point curve that the ledger holds from production (R362). -/
def restSoc (mv : Nat) : Nat := min 100 (curveSoc ((List.range 16).map Config.cellCurve) mv)
/-- CELL_AT_REST: the cell has rested for 10 min; its rest voltage in mV (R362, R364). -/
def State.cellAtRest (s : State) (mv : Nat) : State :=
  let soc := restSoc mv
  let s := s.when (!s.on R.PWR_CELL_STATUS.AT_REST) (fun s =>
    (s.modPower (fun p => { p with restAt := s.opTotal })).setF R.PWR_CELL_STATUS.AT_REST 1)
  s.when (s.f R.PWR_GAUGE.CHARGE == 0 && soc != 0) (fun s => (s.setCharge (s.capShare soc)).cellEvent E.PWR_EVT.GAUGE_RESYNC)
def execCellAtRest (mv : BitVec 16) (s : State) : Res :=
  .next (s.when (!s.on R.PWR_CELL_STATUS.CHARGING) (·.cellAtRest mv.toNat))

/-- GAUGE_CAP_WRITE: a direct write of PWR_GAUGE_CAP (R366). -/
def execGaugeCapWrite (cap : BitVec 24) (s : State) : Res :=
  .next (s.viaWrite R.PWR_GAUGE_CAP.reg (fun s => (s.setF R.PWR_GAUGE_CAP.CAP cap.toNat).gaugeCap))

/-! ## Presence, temperature, domains -/

/-- PRESENCE_CHANGE: SLOT_ID and PRES_IN as debounced (R380). SYS_PAIR_STATUS shows them; the role stays. -/
def execPresenceChange (slotB partner : Bool) (s : State) : Res :=
  .next { s with ident := { s.ident with slotB := slotB, partner := partner } }

/-- BASE_TEMP: the base temperature in units of 1/256 °C; above 60 °C an alarm (R394, R495). -/
def State.baseTemp (s : State) (t : Nat) : State :=
  let v := toSigned 16 t
  s.record 0x0106 (if 15360 < v then 2 else 0) 0xFFFF [w32 (ofSigned 32 v)]
def execBaseTemp (t : BitVec 16) (s : State) : Res := .next (s.baseTemp t.toNat)

/-- DOMAIN_UP: domain D`d + 1` runs and its bridge is open. D12's bit follows the training alone (R40). -/
def execDomainUp (d : Fin 18) (s : State) : Res :=
  .next (s.when (d.val != 11) (fun s => (s.setClock (d + 1) true).setDomain (d + 1) true))
/-- The bit of domain D`d` returns to 0, with a record when it was 1. -/
def State.domainDown (s : State) (d : Nat) : State := s.when (s.domainOk d) (·.domainLost d)
/-- DOMAIN_LOSS: the clock of domain D`d + 1` stops. -/
def execDomainLoss (d : Fin 18) (s : State) : Res := .next ((s.setClock (d + 1) false).domainDown (d + 1))
/-- SDRAM_TRAINING_LOSS. -/
def execSdramTrainingLoss (s : State) : Res := .next (s.domainDown 12)

/-- The domain whose bridge an access to an address crosses. -/
def State.bridgeOf (s : State) (a : Addr) : Option Nat :=
  match s.target a with
  | .reg b off => domainOf b off
  | _ => none
/-- BRIDGE_TIMEOUT: an access to `a` is not acknowledged within 1 µs. -/
def execBridgeTimeout (a : BitVec 40) (write : Bool) (s : State) : Res :=
  .next (match s.bridgeOf a with
    | some d => s.bridgeTo d a write
    | none => s)

end Sys2Proof.Machine
end

