-- ==== Sys2Proof/Machine/Svc.lean ====
section
/-! DEFINITION. The service port and firmware update (R167, R370, R545–R565): TLS, the UART and its FIFOs, image slots and
commands, activation, confirmation and rollback, recovery, endpoint firmware; and the watchdog (R353). -/
namespace Sys2Proof.Machine
open Sys2Proof

/-! ## TLS (R167, R168) -/

/-- The alerts of RFC 8446 by which a handshake fails (PRESUMED, assumption 40). -/
def alertHandshake : Nat := 40
def alertVersion : Nat := 70
def alertUnknownCa : Nat := 48
def alertCertRequired : Nat := 116

/-- Whether a certificate validates under the anchor in key slot `n`. -/
def State.anchors (s : State) (n : Nat) (cert : List Byte × List Byte) : Bool :=
  let k := s.kslot n
  k.valid && k.can useVerify && Config.certValid k.secret cert.1 cert.2

/-- Whether the offer lies in the subset: TLS 1.3 without a pre-shared key, TLS_AES_256_GCM_SHA384, X25519,
ecdsa_secp256r1_sha256 or ed25519. -/
def Handshake.inSubset (h : Handshake) : Bool :=
  h.version == 0x0304 && !h.psk && h.suite == 0x1302 && h.group == 0x001D && (h.scheme == 0x0403 || h.scheme == 0x0807)

/-- The outcome of a handshake: the rights it gives (CONTROL or not), or an alert. -/
def State.tlsTest (s : State) (h : Handshake) : Bool ⊕ Nat :=
  if !h.inSubset then .inr (if h.version = 0x0304 then alertHandshake else alertVersion)
  else match h.cert with
    | none => .inr alertCertRequired
    | some c => if s.anchors 2 c then .inl true else if s.anchors 3 c then .inl false else .inr alertUnknownCa

/-! ## Link of the service port (R370) -/

/-- SVC_LINK_UP; `mdix`: crossover in use. -/
def execSvcLinkUp (mdix : Bool) (s : State) : Res :=
  .next (((s.setF R.SVC_MAC_STATUS.LINK 1).setF R.SVC_MAC_STATUS.MDIX (b2n mdix)).raise E.SVC_MAC_EVT.LINK_UP)
/-- The frames that the service port's MAC has counted, up from what stands in a counter: how many no command says while the link
is up, so that a free value is added, and none while it is down (R565; DESIGN CHOICE, assumption 182). -/
def State.macCount (s : State) (x : Reg) : State :=
  if s.on R.SVC_MAC_STATUS.LINK then
    let r := s.free
    r.2.setR x (w32 (min 0xFFFFFFFF ((r.2.r x).toNat + r.1)))
  else s
/-- The MAC's counters. -/
def macCounters : List Reg := [R.SVC_MAC_RX_FRAMES.reg, R.SVC_MAC_TX_FRAMES.reg, R.SVC_MAC_RX_ERR.reg, R.SVC_MAC_RX_DROP.reg]
/-- SVC_LINK_DOWN. -/
def execSvcLinkDown (s : State) : Res :=
  .next (((foldS macCounters (fun x s => s.macCount x) s).setF R.SVC_MAC_STATUS.LINK 0).raise E.SVC_MAC_EVT.LINK_DOWN)

/-! ## UART (R546–R550) -/

/-- The vote of samples 7, 8 and 9 of bit `k` of a character, start bit 0, stop bit 9. -/
def vote (samples : BitVec 30) (k : Nat) : Bool :=
  let a := samples.getLsbD (3 * k)
  let b := samples.getLsbD (3 * k + 1)
  let c := samples.getLsbD (3 * k + 2)
  (a && b) || (a && c) || (b && c)

/-- The data of a character, bit 0 first. -/
def uartData (samples : BitVec 30) : Nat := (List.range 8).foldl (fun n k => n + b2n (vote samples (k + 1)) * 2 ^ k) 0

/-- A character is received (R547–R549). A start vote that is high is a false start. -/
def State.uartChar (s : State) (samples : BitVec 30) : State :=
  if !s.on R.SVC_UART_CFG.EN || vote samples 0 then s
  else
    let bad := !vote samples 9
    let s := (s.setF R.SVC_UART_STATUS.BREAK_NOW 0).when bad (·.raise E.SVC_UART_EVT.FRAME_ERR)
    s.quOffer .uartRx [w32 (1 + uartData samples * 256 + b2n bad * 65536)]
/-- UART_CHARACTER: samples 7–9 of the start bit, the data bits and the stop bit. -/
def execUartCharacter (samples : BitVec 30) (s : State) : Res := .next (s.uartChar samples)

/-- UART_BREAK: the line has been low for 20 bit times. The character that its low stop vote spoiled came before. -/
def State.uartBreak (s : State) : State :=
  if s.on R.SVC_UART_CFG.EN then
    ((s.setF R.SVC_UART_STATUS.BREAK_NOW 1).raise E.SVC_UART_EVT.BREAK).quOffer .uartRx [w32 (1 + 131072)]
  else s
def execUartBreak (s : State) : Res := .next s.uartBreak

/-- A write of SVC_UART_TXDATA. -/
def State.uartPut (s : State) (ch : Nat) : State := s.quOffer .uartTx [w32 (ch % 256)]
/-- UART_TXDATA. -/
def execUartTxdata (ch : Byte) (s : State) : Res := .next (s.viaWrite R.SVC_UART_TXDATA.reg (·.uartPut ch.toNat))

/-- The ticks of one character, ten bits of 16 × DIV / 256 cycles of 8 ns (R546). -/
def State.uartTicks (s : State) : Nat := ceilDiv (25 * min 17361 (max 667 (s.f R.SVC_UART_CFG.DIV))) 8
/-- The transmitter starts the oldest character when CTS lets it (R550), and is busy until its stop bit ends (R565). -/
def State.uartSend (s : State) (cts : Bool) : State :=
  let s := s.setF R.SVC_UART_STATUS.CTS (b2n cts)
  if s.on R.SVC_UART_CFG.EN && !(s.on R.SVC_UART_CFG.CTS_EN && cts) then
    match (s.q .uartTx).items with
    | it :: rest =>
      let s := s.modSvc (fun v => { v with txTill := s.power.opTicks + s.uartTicks })
      ((s.setQ .uartTx ⟨rest, 0⟩).quEval .uartTx).send (.uart (BitVec.ofNat 8 (it.getD 0 0).toNat))
    | [] => s
  else s
/-- UART_TX_CHARACTER; `cts`: the level of CTS. -/
def execUartTxCharacter (cts : Bool) (s : State) : Res := .next (s.uartSend cts)

/-! ## Image slots (R552, R554) -/

/-- Post the result of an image command. -/
def State.imgResult (s : State) (r : Nat) : State := (s.setF R.SVC_IMG_STATUS.RESULT r).svcShow
/-- Whether an activation is scheduled or deferred. -/
def State.actPending (s : State) : Bool := s.svc.act == 1 || s.svc.act == 2
/-- The bytes of a slot. -/
def slotBytes : Nat := 0x10000000

/-- Whether slot `n` is unusable (R325). -/
def State.slotStuck (s : State) (n : Nat) : Bool := s.flashStuck (if n = 0 then .image 0 else .image 1)
/-- Slot `n` is erased once more (R344). -/
def State.slotErased (s : State) (n : Nat) : State :=
  let x := s.spares.slotErases
  { s with spares := { s.spares with slotErases := if n = 0 then (x.1 + 1, x.2) else (x.1, x.2 + 1) } }

/-- OPEN: the inactive slot is erased. An unusable slot answers STATE (assumption 155). -/
def State.imgOpen (s : State) : State :=
  let n := s.otherSlot
  let st := (s.imgSlot n).st
  if s.svc.busy ≠ 0 then s
  else if s.actPending || s.slotStuck n || !(st == isEmpty || st == isVerified || st == isInvalid) then s.imgResult irState
  else (((s.setImgSlot n ⟨[], 0, isWriting⟩).slotErased n).ledgerCommit (.imgSlot n) (leBytes 1 isWriting)).imgResult irOk
def execImgOpen (s : State) : Res := .next (s.viaWrite R.SVC_IMG_CMD.reg State.imgOpen)

/-- Bytes into a slot from an offset. -/
def ImgSlot.put (x : ImgSlot) (ofs : Nat) (l : List Byte) : ImgSlot :=
  { x with bytes := (l.zipIdx ofs).foldl (fun m b => sset zeroByte m b.2 b.1) x.bytes, len := x.len + l.length }

/-- `n` bytes of control SDRAM from an address of the control space. -/
def State.fromSdram (s : State) (a n : Nat) : List Byte :=
  (List.range n).map (fun i =>
    if 0x100000000 ≤ a + i ∧ a + i ≤ 0x8FFFFFFFF then sget sdramByte s.bus.sdram (a + i - 0x100000000) else 0)

/-- WRITE: bytes are copied from SDRAM; the command ends with IMG_WRITE_DONE. -/
def State.imgWrite (s : State) : State :=
  let n := s.otherSlot
  let ofs := s.f R.SVC_IMG_OFS.OFS
  let len := s.f R.SVC_IMG_LEN.LEN
  if s.svc.busy ≠ 0 then s
  else if (s.imgSlot n).st ≠ isWriting then s.imgResult irState
  else if slotBytes < ofs + len then s.imgResult irTooLong
  else
    let a := s.f R.SVC_IMG_SRC_LO.SRC + s.f R.SVC_IMG_SRC_HI.SRC * 4294967296
    ((s.setImgSlot n ((s.imgSlot n).put ofs (s.fromSdram a len))).modSvc (fun v => { v with busy := 2 })).svcShow
def execImgWrite (s : State) : Res := .next (s.viaWrite R.SVC_IMG_CMD.reg State.imgWrite)

/-- IMG_WRITE_DONE. -/
def State.imgWriteDone (s : State) : State :=
  if s.svc.busy = 2 then (s.modSvc (fun v => { v with busy := 0 })).imgResult irOk else s
def execImgWriteDone (s : State) : Res := .next s.imgWriteDone

/-- VERIFY: the checks start; IMG_VERIFY_DONE ends them. -/
def State.imgVerify (s : State) : State :=
  if s.svc.busy ≠ 0 then s
  else if (s.imgSlot s.otherSlot).st ≠ isWriting then s.imgResult irState
  else (s.modSvc (fun v => { v with busy := 3 })).svcShow
def execImgVerify (s : State) : Res := .next (s.viaWrite R.SVC_IMG_CMD.reg State.imgVerify)

/-- The record of a verification of slot `n` (R552, R564). -/
def State.verifyRecord (s : State) (n r : Nat) : State :=
  if r = irOk then s.svcRecord 0x0D01 1 [w32 n, (s.imgSlot n).version] else s.svcRecord 0x0D02 2 [w32 n, w32 r]
/-- The checks of slot `n` end with result `r`. -/
def State.verified (s : State) (n r : Nat) : State :=
  let s := s.setImgState n (if r = irOk then isVerified else isInvalid)
  ((s.raise (if r = irOk then E.SVC_EVT.VERIFIED else E.SVC_EVT.REFUSED)).verifyRecord n r).imgResult r
/-- IMG_VERIFY_DONE. -/
def State.imgVerifyDone (s : State) : State :=
  if s.svc.busy = 3 then
    let s := s.modSvc (fun v => { v with busy := 0 })
    s.verified s.otherSlot (s.imgCheck (s.imgSlot s.otherSlot) true)
  else s
def execImgVerifyDone (s : State) : Res := .next s.imgVerifyDone

/-- ABORT: the inactive slot is empty. -/
def State.imgAbort (s : State) : State :=
  let n := s.otherSlot
  let st := (s.imgSlot n).st
  if s.svc.busy ≠ 0 then s
  else if s.actPending || s.slotStuck n || !(st == isWriting || st == isVerified || st == isInvalid) then s.imgResult irState
  else ((s.setImgSlot n ImgSlot.none).ledgerCommit (.imgSlot n) (leBytes 1 isEmpty)).imgResult irOk
def execImgAbort (s : State) : Res := .next (s.viaWrite R.SVC_IMG_CMD.reg State.imgAbort)

/-- An image as a byte stream: opened, written, verified (R545). -/
def State.imgStream (s : State) (bytes : List Byte) : State :=
  let s := s.imgOpen
  if s.f R.SVC_IMG_STATUS.RESULT ≠ irOk then s
  else if slotBytes < bytes.length then s.imgResult irTooLong
  else
    let n := s.otherSlot
    let s := s.setImgSlot n ((s.imgSlot n).put 0 bytes)
    s.verified n (s.imgCheck (s.imgSlot n) true)

/-- IMAGE_SERVICE: a client under the control anchor streams an image and is answered. While an image command is in progress
the stream cannot be opened, and the answer shows the result as it stands. -/
def State.imageService (s : State) (h : Handshake) (bytes : List Byte) : State :=
  match s.tlsTest h with
  | .inr a => s.send (.tls false a)
  | .inl false => s.send (.tls false alertUnknownCa)
  | .inl true =>
    let s := if s.svc.busy = 0 then s.imgStream bytes else s
    (s.send (.tls true 0)).send
      (.imageAnswer (leBytes 4 (s.f R.SVC_IMG_STATUS.RESULT) ++ leBytes 4 (s.imgSlot s.otherSlot).version.toNat))
def execImageService (h : Handshake) (bytes : List Byte) (s : State) : Res :=
  .next (s.when (s.power.step == 5) (·.imageService h bytes))

/-! ## Activation (R555–R558) -/

/-- Whether the regulators are up: neither a warning nor a shutdown nor the start before them holds the FULL reset (R348,
R355). -/
def State.running (s : State) : Bool := decide (2 ≤ s.power.step)
/-- The instant in three registers of SVC. -/
def State.actWhen (s : State) : Stamp := s.stampR R.SVC_ACT_WHEN.reg
/-- The words of a time value. -/
def stampBody (t : Stamp) : List Word := [stampWord t 0, stampWord t 1, stampWord t 2]

/-- SCHEDULE. -/
def State.schedule (s : State) : State :=
  let t := s.actWhen
  if s.svc.busy ≠ 0 then s
  else if (s.imgSlot s.otherSlot).st ≠ isVerified ∨ s.svc.act = 3 then s.imgResult irState
  else if stampUnits t < stampUnits s.now + nsPerS * 65536 then s.imgResult irPast
  else if stampUnits s.now + farUnits < stampUnits t then s.imgResult irFar
  else
    let s := (s.modSvc (fun v => { v with act := 1, when_ := t })).actCommit
    (s.svcRecord 0x0D03 1 (w32 s.otherSlot :: stampBody t)).imgResult irOk
def execSchedule (s : State) : Res := .next (s.viaWrite R.SVC_IMG_CMD.reg State.schedule)

/-- CANCEL. -/
def State.actCancel (s : State) : State :=
  if s.svc.busy ≠ 0 then s
  else if s.actPending then ((s.modSvc (fun v => { v with act := 0, when_ := 0 })).actCommit).imgResult irOk
  else s.imgResult irState
def execCancel (s : State) : Res := .next (s.viaWrite R.SVC_IMG_CMD.reg State.actCancel)

/-- The activation of R557: slots swapped, ACTIVATED, CONTROL reset. -/
def State.activate (s : State) (force : Bool) : State :=
  let n := s.otherSlot
  let a := s.svc.active
  let old := (s.imgSlot a).version
  let new := (s.imgSlot n).version
  let s := (s.setImgSlot n { s.imgSlot n with st := isActive }).setImgSlot a { s.imgSlot a with st := isVerified }
  let s := (s.modSvc (fun v => { v with active := n, act := 3, when_ := 0, wdogs := 0 })).actCommit
  ((s.raise E.SVC_EVT.ACTIVATED).svcRecord 0x0D05 1 [old, new, w32 (b2n force)]).controlReset 3

/-- FORCE. -/
def State.force (s : State) : State :=
  if s.svc.busy ≠ 0 then s
  else if (s.imgSlot s.otherSlot).st ≠ isVerified ∨ s.svc.act = 3 then s.imgResult irState
  else (s.imgResult irOk).activate true
def execForce (s : State) : Res := .next (s.viaWrite R.SVC_IMG_CMD.reg State.force)

/-- ACTIVATION: the time base has reached the instant. Without lock the activation is deferred. -/
def State.activation (s : State) : State :=
  if s.svc.act = 1 ∧ s.reached s.svc.when_ = true then
    if s.sync = syLocked then s.activate false
    else
      let s := ((s.modSvc (fun v => { v with act := 2 })).actCommit.raise E.SVC_EVT.DEFERRED).svcShow
      s.svcRecord 0x0D04 2 (stampBody s.svc.when_ ++ [w32 s.sync])
  else s
def execActivation (s : State) : Res := .next (s.when s.running State.activation)

/-- ACT_DEFERRED_CHECK: a grid point I + k × 10 s, k ≥ 1. -/
def execActDeferredCheck (s : State) : Res :=
  .next (s.when (s.running && s.svc.act == 2 && s.reached (stampAddNs s.svc.when_ 10000000000) && s.sync == syLocked) (·.activate false))

/-- A command of SVC_IMG_CMD by its code (R565). -/
def State.imgCmd (s : State) (v : Nat) : State :=
  match v with
  | 1 => s.imgOpen
  | 2 => s.imgWrite
  | 3 => s.imgVerify
  | 4 => s.schedule
  | 5 => s.force
  | 6 => s.actCancel
  | 7 => s.imgAbort
  | _ => s

/-- The slots go back: the new one INVALID, the former one ACTIVE (R558). -/
def State.slotsBack (s : State) : State :=
  let n := s.svc.active
  let a := s.otherSlot
  let s := (s.setImgSlot n { s.imgSlot n with st := isInvalid }).setImgSlot a { s.imgSlot a with st := isActive }
  (s.modSvc (fun v => { v with active := a, act := 0, wdogs := 0 })).actCommit
/-- What a rollback records. -/
def State.rollbackNote (s : State) (version : Word) : State := (s.raise E.SVC_EVT.ROLLBACK).svcRecord 0x0D06 3 [version]
/-- The rollback, with cause bit `cause` of the CONTROL reset. -/
def State.rollback (s : State) (cause : Nat) : State :=
  let v := (s.imgSlot s.svc.active).version
  ((s.slotsBack.controlReset cause).rollbackNote v)
/-- ACT_ROLLBACK: 60 s without a confirmation. While the FULL reset is held nothing runs that could roll back (R355, R356). -/
def execActRollback (s : State) : Res := .next (s.when (s.svc.act == 3 && s.running) (·.rollback 3))

/-! ## Confirmation (R559) -/

/-- Whether a register is in the retained set of R559, or is no setting: time of day and the time service's state, the program
counters of engines. -/
def State.retained (s : State) (b : Blk) (x : RegRow) (off : Nat) : Bool :=
  match b with
  | .key | .rcd => true
  | .fab => x.is R.FAB_MGMT_VLAN.reg || ((x.is (R.FAB_VLAN_MEMBER.reg 0 0) || x.is (R.FAB_VLAN_UNTAG.reg 0 0) || x.is (R.FAB_VLAN_CFG.reg 0)) &&
      x.idx off 0 == s.f R.FAB_MGMT_VLAN.VID)
  | .port => x.is (R.PORT_CFG.reg 0) && (s.portRole (x.idx off 0) == prUplink || s.portRole (x.idx off 0) == prPair)
  | .time => x.is R.TIME_SRC_CFG.reg || x.is (R.TIME_PTP_PORT.reg 0) || x.is R.TIME_SYNCE_CFG.reg || x.is (R.TIME_SYNCE_SRC.reg 0) ||
      x.is R.TIME_PPS_CFG.reg || x.is R.TIME_SYNC.reg || x.is R.TIME_UTCOFF.reg
  | .rtc => x.is R.RTC_TIME.reg || x.is R.RTC_DATE.reg || x.is (R.RTC_CURVE.reg 0)
  | .sys => x.is R.SYS_PAIR_CFG.reg || x.is R.SYS_PAIR_PEER_MAC_LO.reg || x.is R.SYS_PAIR_PEER_MAC_HI.reg
  | .svc => x.is R.SVC_IMG_POLICY.reg
  | .fe => x.is (R.FE_PC.reg 0)
  | _ => false

/-- The entry that sets a listed register back to its reset value. -/
def State.resetEntry (s : State) (b : Blk) (off : Nat) : Option ShfEntry :=
  match findRow b off with
  | some x =>
    if sheafMask x = 0 ∨ s.retained b x off = true then none
    else some ⟨0, w32 (regAddr ⟨b, off⟩), sheafMask x, regReset b off⟩
  | none => none
/-- The entries of the settings reset. -/
def State.resetEntries (s : State) : List ShfEntry :=
  allBlks.flatMap (fun b => (regsOf s.regs b).filterMap (fun e => s.resetEntry b e.1))

/-- The one sheaf of the settings reset: committed and applied with a number of its own, after the sheaves that were
committed before and are APPLYING (R81). -/
def State.settingsReset (s : State) : State :=
  let s := s.applyCommitted
  let es := s.resetEntries
  let n := s.shf.lastSeq + 1
  let s := { s with shf := { s.shf with
    lastSeq := n, commits := s.shf.commits + 1
    applied := s.shf.applied ++ [journalEntry n false 0 es []] } }
  let s := ((s.applySheaf es []).ledgerCommit (.sheaf n) (leBytes 4 n)).ckptSend (.journal (journalEntry n false 0 es []))
  let s := (s.setR R.FE_SHF_SEQ.reg (w32 n)).raise E.FE_SHF_EVT.APPLIED
  let t := s.now
  (s.moduleEvent meSheafApplied (w32 n) t s.stepEpoch).event evSheaf (leBytes 4 n ++ wordsBytes (stampBody t))

/-- A write of SVC_ACT_CONFIRM. -/
def State.actConfirm (s : State) (v : Word) : State :=
  if v = 0x0000C0F1 ∧ s.svc.act = 3 then
    let old := s.svc.fmt
    let new := (s.imgSlot s.svc.active).fmt
    let s := (s.modSvc (fun x => { x with act := 0, wdogs := 0, fmt := new })).actCommit
    if old = new then s.svcShow
    else ((s.settingsReset.raise E.SVC_EVT.SETTINGS_RESET).svcRecord 0x0D07 2 [w32 old, w32 new]).svcShow
  else s
/-- ACT_CONFIRM. -/
def execActConfirm (v : Word) (s : State) : Res := .next (s.viaWrite R.SVC_ACT_CONFIRM.reg (·.actConfirm v))

/-! ## Recovery (R561) -/

/-- The banner. -/
def banner : List Byte :=
  [0x52, 0x53, 0x32, 0x35, 0x36, 0x30, 0x20, 0x52, 0x45, 0x43, 0x4F, 0x56, 0x45, 0x52, 0x59, 0x0D, 0x0A]
/-- RECOVERY_BANNER. -/
def execRecoveryBanner (s : State) : Res :=
  .next (s.when (s.svc.recovery && !s.svc.commanded) (fun s => foldS banner (fun b s => s.send (.uart b)) s))

/-- Command I: an image into the inactive slot, or into slot 0 when neither slot holds one; accepted, it is ACTIVE, the journal
is written in its format from then on (R559; DEDUCED, assumption 181), and the module starts again. -/
def State.recoveryImage (s : State) (bytes : List Byte) : State :=
  let s := s.modSvc (fun v => { v with commanded := true })
  let none_ := fun (x : ImgSlot) => x.st == isInvalid || x.st == isEmpty
  let n := if none_ s.svc.slot0 && none_ s.svc.slot1 then 0 else s.otherSlot
  let s := (s.setImgSlot n (ImgSlot.put ⟨[], 0, isWriting⟩ 0 (bytes.take slotBytes))).slotErased n
  let r := s.imgCheck (s.imgSlot n) true
  if r = irOk then
    let o := 1 - n
    let s := s.setImgSlot n { s.imgSlot n with st := isActive }
    let s := if (s.imgSlot o).st = isActive then s.setImgSlot o { s.imgSlot o with st := isVerified } else s
    ((s.modSvc (fun v => { v with active := n, fmt := (s.imgSlot n).fmt })).actCommit.fullReset 4).verifyRecord n r
  else s.verified n r
/-- RECOVERY_IMAGE. -/
def execRecoveryImage (bytes : List Byte) (s : State) : Res := .next (s.when s.svc.recovery (·.recoveryImage bytes))

/-- A FULL command, which ends a power cycle that a SHUTDOWN had ended (R357, R365). -/
def State.recoveryFull (s : State) : State :=
  let c := 4 + b2n s.ledger.shutdown * 2
  ({ s with ledger := { s.ledger with shutdown := false } }).fullReset c
/-- RECOVERY_RESET: command F, in recovery or while a SHUTDOWN holds the reset (R357). -/
def execRecoveryReset (s : State) : Res :=
  .next (s.when (s.svc.recovery || (s.power.shutHeld && s.power.inputOk)) State.recoveryFull)

/-! ## Endpoint firmware (R562, R563) -/

/-- Blocks of `n` bytes in the image. -/
def State.efwBlocks (s : State) (n : Nat) : Nat := ceilDiv (s.f R.SVC_EFW_LEN.LEN) n
/-- The passes. -/
def State.efwPasses (s : State) : Nat := s.f R.SVC_EFW_CFG.PASSES + 1
/-- Whether the rings', or the radio's, last pass has ended. -/
def State.efwRingDone (s : State) : Bool :=
  !s.on R.SVC_EFW_CFG.RING || s.efwBlocks 1024 == 0 || decide (s.efwPasses ≤ s.svc.ringPass)
def State.efwRadDone (s : State) : Bool :=
  !s.on R.SVC_EFW_CFG.RADIO || s.efwBlocks 128 == 0 || decide (s.efwPasses ≤ s.svc.radPass)
/-- Keep SVC_EFW_STATUS.BLOCK at the next block number. -/
def State.efwShow (s : State) : State :=
  s.setF R.SVC_EFW_STATUS.BLOCK (if s.on R.SVC_EFW_CFG.RING then s.svc.ringBlock else s.svc.radBlock)
/-- The job ends when both have. -/
def State.efwEnd (s : State) : State :=
  if s.efwRingDone && s.efwRadDone then
    let n := if s.on R.SVC_EFW_CFG.RING then s.efwBlocks 1024 else s.efwBlocks 128
    ((s.setF R.SVC_EFW_STATUS.STATE 2).raise E.SVC_EVT.EFW_DONE).svcRecord 0x0D09 1 [w32 n, w32 s.efwPasses]
  else s

/-- START. -/
def State.efwStart (s : State) : State :=
  let s := s.modSvc (fun v => { v with ringPass := 0, ringBlock := 0, radPass := 0, radBlock := 0 })
  ((s.setF R.SVC_EFW_STATUS.STATE 1).efwShow).efwEnd
def execEfwStart (s : State) : Res := .next (s.viaWrite R.SVC_EFW_CMD.reg State.efwStart)
/-- STOP. -/
def State.efwStop (s : State) : State := s.setF R.SVC_EFW_STATUS.STATE 0
def execEfwStop (s : State) : Res := .next (s.viaWrite R.SVC_EFW_CMD.reg State.efwStop)

/-- FW_BLOCK number `k` of blocks of `n` bytes. -/
def State.efwBody (s : State) (k n : Nat) : CmdBody :=
  let len := min n (s.f R.SVC_EFW_LEN.LEN - k * n)
  { s.ownBody ccFwBlock euiAll 0 0 (w32 k) with payload := s.fbytes (s.f R.SVC_EFW_SRC.SRC + k * n) len }

/-- The next block on the rings. -/
def State.efwRing (s : State) : State :=
  if s.efwRingDone then s
  else
    let b := s.efwBody s.svc.ringBlock 1024
    let s := foldS (List.range 128) (fun k s => s.ringSend k macAll b false) s
    let last := s.efwBlocks 1024 ≤ s.svc.ringBlock + 1
    (s.modSvc (fun v => { v with
      ringBlock := if last then 0 else v.ringBlock + 1, ringPass := if last then v.ringPass + 1 else v.ringPass })).efwShow.efwEnd
/-- The next block on the radio. -/
def State.efwRadio (s : State) : State :=
  if s.efwRadDone then s
  else
    let b := s.efwBody s.svc.radBlock 128
    let s := foldS ((List.range 4).filter s.radAble) (fun j s => s.radQueue j ⟨some b, 0xFFFF, 1, 0, none, false, false, none, none⟩) s
    let last := s.efwBlocks 128 ≤ s.svc.radBlock + 1
    (s.modSvc (fun v => { v with
      radBlock := if last then 0 else v.radBlock + 1, radPass := if last then v.radPass + 1 else v.radPass })).efwShow.efwEnd
/-- EFW_BLOCK_SEND on the rings, or on the radio. -/
def execEfwBlockSend (radio : Bool) (s : State) : Res :=
  .next (s.when (s.f R.SVC_EFW_STATUS.STATE == 1) (fun s => if radio then s.efwRadio else s.efwRing))

/-- FW_ACTIVATE into the calendar for ring `k`, or refused under R117. -/
def State.efwActivateRing (s : State) (k : Nat) (t : Stamp) : State :=
  match s.placeTest false t with
  | some _ => s
  | none =>
    let b := s.ownBody ccFwActivate euiAll 0 0 (s.r R.SVC_EFW_VERSION.reg)
    let cs : List Copy := [⟨.port (s.ringA k), t, .waiting, false⟩, ⟨.port (s.ringB k), t, .waiting, false⟩]
    let e : CalEntry := ⟨b, 0, 0, w32 (k * 65536), false, t, 0, cs, false, s.cal.placed, none⟩
    let s := match firstFree s.cal.tab calCap 0 with
      | some n => s.setCal n (some e)
      | none => s
    ({ s with cal := { s.cal with placed := s.cal.placed + 1 } }).calPeak
/-- ACTIVATE: one broadcast on every enabled ring, without a handle. -/
def State.efwActivate (s : State) : State :=
  let t := s.stampR R.SVC_EFW_WHEN.reg
  foldS ((List.range 128).filter s.ringOn) (fun k s => s.efwActivateRing k t) s
def execEfwActivate (s : State) : Res := .next (s.viaWrite R.SVC_EFW_CMD.reg State.efwActivate)

/-- A command of SVC_EFW_CMD by its code. -/
def State.efwCmd (s : State) (v : Nat) : State :=
  match v with
  | 1 => s.efwStart
  | 2 => s.efwStop
  | 3 => s.efwActivate
  | _ => s

/-! ## The watchdog (R353, R558) -/

/-- A write of SYS_WDOG_KICK: the kick value restarts the watchdog. -/
def State.wdogKick (s : State) (v : Word) : State :=
  if v = 0x0000A5C3 then s.modPower (fun p => { p with kickTicks := p.opTicks }) else s
/-- WDOG_KICK. -/
def execWdogKick (v : Word) (s : State) : Res := .next (s.wdogKick v)

/-- An expiry: the first two in a window reset the control complex, the third everything; the second after an activation rolls
it back. -/
def State.wdogExpire (s : State) : State :=
  let n := s.f R.SYS_WDOG_CNT.COUNT + 1
  let back := s.svc.act == 3 && s.svc.wdogs == 1
  let v := (s.imgSlot s.svc.active).version
  let s := if back then s.slotsBack else if s.svc.act = 3 then s.modSvc (fun x => { x with wdogs := x.wdogs + 1 }) else s
  let s := if n < 3 then (s.record 0x0102 2 0xFFFF [w32 n]).controlReset 5 |>.setF R.SYS_WDOG_CNT.COUNT n
    else (s.fullReset 0x10).record 0x0102 2 0xFFFF [w32 n]
  s.when back (·.rollbackNote v)
/-- WDOG_EXPIRE. -/
def execWdogExpire (s : State) : Res :=
  .next (s.when (decide (2 ≤ s.power.step) && s.on R.SYS_WDOG_CFG.EN) State.wdogExpire)
/-- WDOG_WINDOW_END. -/
def execWdogWindowEnd (s : State) : Res := .next (s.setF R.SYS_WDOG_CNT.COUNT 0)

end Sys2Proof.Machine
end

