-- ==== Sys2Proof/Machine/ZhnDecode.lean ====
section
/-! DEFINITION. The instruction words of the ZHN engines (R90–R92) as FE_CMD STEP executes them (R68): the effect of each
word, ILLEGAL for every word that the chapter does not define (R91). -/
namespace Sys2Proof.Machine
open Sys2Proof

/-- The effect of an undefined word. -/
def zIllegal (_ : State) : ZOut := .exc xIllegal 0
/-- An effect when every unused field is 0. -/
def zIf (c : Bool) (f : State → ZOut) : State → ZOut := if c then f else zIllegal

/-- OP 0x00, ALU (R95): the operations of three registers. -/
def zAluOp (p fn d a b : Nat) : State → ZOut :=
  match fn with
  | 0x00 => zAdd p d a b | 0x01 => zSub p d a b | 0x02 => zAnd p d a b | 0x03 => zOr p d a b
  | 0x04 => zXor p d a b | 0x05 => zAndn p d a b | 0x06 => zSll p d a b | 0x07 => zSrl p d a b
  | 0x08 => zSra p d a b | 0x09 => zMul p d a b | 0x0A => zMulh p d a b | 0x0B => zMulhu p d a b
  | 0x0C => zDiv p d a b | 0x0D => zDivu p d a b | 0x0E => zRem p d a b | 0x0F => zRemu p d a b
  | 0x10 => zMin p d a b | 0x11 => zMax p d a b | 0x12 => zMinu p d a b | 0x13 => zMaxu p d a b
  | 0x14 => zClamp p d a b
  | 0x15 => zIf (b == 0) (zPopc p d a) | 0x16 => zIf (b == 0) (zClz p d a) | 0x17 => zIf (b == 0) (zCtz p d a)
  | _ => zIllegal

/-- OP 0x02, PLOG (R98). -/
def zPlogOp (p fn d a b : Nat) : State → ZOut :=
  if 6 < fn ∨ 7 < d ∨ 7 < a ∨ 7 < b then zIllegal
  else if fn = 4 ∧ b ≠ 0 then zIllegal
  else if 5 ≤ fn ∧ (a ≠ 0 ∨ b ≠ 0) then zIllegal
  else zPlog fn p d a b

/-- OP 0x08, GRP (R108). -/
def zGrpOp (p fn d a b : Nat) : State → ZOut :=
  match fn with
  | 0x00 => zIf (d == 0) (zGrpSet p a b)
  | 0x01 => zIf (d == 0) (zGrpClr p a b)
  | 0x02 => zIf (decide (d ≤ 7)) (zGrpTst p d a b)
  | 0x03 => zIf (b == 0) (zGrpCnt p d a)
  | 0x04 => zGrpOr p d a b
  | 0x05 => zGrpAnd p d a b
  | 0x06 => zGrpAndn p d a b
  | 0x07 => zIf (b == 0) (zGrpCopy p d a)
  | 0x08 => zIf (a == 0 && b == 0) (zGrpClrall p d)
  | _ => zIllegal

/-- Format A by major opcode. -/
def zFormatA (op p : Nat) (w : Word) : State → ZOut :=
  let d := getBits w 18 5
  let a := getBits w 13 5
  let b := getBits w 8 5
  let fn := getBits w 0 8
  let z := getBits w 6 2
  let off := getBits w 0 6
  match op with
  | 0x00 => zAluOp p fn d a b
  | 0x01 => zIf (decide (d ≤ 7) && !bit w 4) (zCmp p (getBits w 0 4) d (getBits w 5 3) a b)
  | 0x02 => zPlogOp p fn d a b
  | 0x03 => if fn = 0 then zIf (b == 0) (zDimcP2c p d a) else if fn = 1 then zIf (b == 0) (zDimcC2p p d a) else zIllegal
  | 0x04 => zIf (b == 0) (zLdl z p d a off)
  | 0x05 => zIf (d == 0) (zStl z p b a off)
  | 0x06 => zIf (b == 0) (zLdf z p d a off)
  | 0x07 => zIf (d == 0) (zStf z p b a off)
  | 0x08 => zGrpOp p fn d a b
  | _ => zIllegal

/-- Format I (R97, R98): `k` is the major opcode and SUB together. -/
def zFormatI (op p : Nat) (w : Word) : State → ZOut :=
  let d := getBits w 18 5
  let imm := getBits w 0 16
  match op, getBits w 16 2 with
  | 0x10, 0 => zLi p d imm | 0x10, 1 => zLis p d imm | 0x10, 2 => zAddi p d imm | 0x10, 3 => zAndi p d imm
  | 0x11, 0 => zOri p d imm | 0x11, 1 => zXori p d imm
  | 0x11, 2 => zIf (decide (imm < 64)) (zSlli p d imm) | 0x11, 3 => zIf (decide (imm < 64)) (zSrli p d imm)
  | 0x12, 0 => zIf (decide (imm < 64)) (zSrai p d imm)
  | 0x12, 1 => zMuli p d imm | 0x12, 2 => zMini p d imm | 0x12, 3 => zMaxi p d imm
  | 0x13, c => zCmpi p c (getBits w 13 3) (getBits w 10 3) d (getBits w 0 10)
  | _, _ => zIllegal

/-- Format E (R104–R107). -/
def zFormatE (op p : Nat) (w : Word) : State → ZOut :=
  let a := getBits w 18 5
  let ec := getBits w 16 2
  let word := getBits w 11 5
  let lsb := getBits w 6 5
  let wm1 := getBits w 1 5
  let sub := bit w 0
  let none_ := word == 0 && lsb == 0 && wm1 == 0
  match op with
  | 0x20 => zLde p a ec word lsb wm1 sub
  | 0x21 => zIf (!sub) (zSte p a ec word lsb wm1)
  | 0x22 => zIf none_ (if sub then zEcurG p ec a else zEcur p ec a)
  | 0x23 => zIf (none_ && !sub) (zErd p a ec)
  | 0x24 => zIf (none_ && !sub) (zLdr p ec a)
  | 0x25 =>
    let pd := getBits w 13 3
    let rest := lsb == 0 && wm1 == 0 && !sub
    match getBits w 11 2 with
    | 0 => zIf rest (zScanRow p pd ec a)
    | 1 => zIf (rest && a == 0) (zScanNext p pd ec)
    | 2 => zIf rest (zScanGrp p pd ec a)
    | _ => zIllegal
  | _ => zIllegal

/-- Format T (R110–R112). -/
def zFormatT (op p : Nat) (w : Word) : State → ZOut :=
  let sub := getBits w 20 3
  let td := getBits w 18 2
  let ta := getBits w 16 2
  let a := getBits w 11 5
  let pd := getBits w 8 3
  let imm := getBits w 0 8
  match op with
  | 0x28 =>
    match sub with
    | 0 => zIf (ta == 0 && a == 0 && pd == 0 && imm == 0) (zTnow p td)
    | 1 => zIf (a == 0 && pd == 0 && imm == 0) (zTmov p td ta)
    | 2 => zIf (pd == 0 && decide (imm ≤ 4)) (zTadd p td ta a imm)
    | 3 => zIf (pd == 0 && decide (imm ≤ 4)) (zTdiff p a ta td imm)
    | 4 => zIf (ta == 0 && pd == 0 && imm == 0) (zTtag p td a)
    | 5 => zIf (td == 0 && pd == 0 && decide (imm ≤ 3)) (zTget p a ta imm)
    | 6 => zIf (ta == 0 && pd == 0 && decide (imm ≤ 3)) (zTset p td a imm)
    | _ => zIllegal
  | 0x29 => zIf (a == 0 && imm == 0 && decide (sub ≤ 3)) (zTcmp p sub pd ta td)
  | 0x2A => zIf (sub == 0 && pd == 0 && ta == 0) (zTld p td a imm)
  | 0x2B => zIf (sub == 0 && pd == 0 && td == 0) (zTst p ta a imm)
  | 0x2C => zIf (sub == 0 && td == 0 && pd == 0 && imm == 0) (zSun p a ta)
  | _ => zIllegal

/-- Format X, SYS (R113–R121). -/
def zFormatX (p : Nat) (w : Word) : State → ZOut :=
  let a := getBits w 12 5
  let b := getBits w 7 5
  let ec := getBits w 5 2
  let tr := getBits w 3 2
  let pd := getBits w 0 3
  let ab := a == 0 && b == 0
  let et := ec == 0 && tr == 0
  match getBits w 17 6 with
  | 0x00 => zIf (ab && et && pd == 0) zNop
  | 0x01 => zIf et (zWait p pd a b)
  | 0x02 => zEmit p pd b a ec tr
  | 0x03 => zIf et (zDoneH p pd a b)
  | 0x04 => zIf et (zStg p pd a b)
  | 0x05 => zIf (ab && et) (zChk p pd)
  | 0x06 => zIf (b == 0 && ec == 0) (zApl p pd a tr)
  | 0x07 => zIf (ab && et) (zSdrop p pd)
  | 0x08 => zIf (ab && et && pd == 0) zFence
  | 0x09 => zIf (et && pd == 0) (zTrap (getBits w 7 10))
  | 0x0A => zIf (ab && et && pd == 0) zHalt
  | 0x0B => zIf (ab && et && pd == 0) (zRet p)
  | 0x0C => zIf (b == 0 && et && pd == 0) (zJr p a)
  | 0x0D => zIf (b == 0 && et && pd == 0) (zCallr p a)
  | 0x0E => zIf (et && pd == 0) (zMfs p a b)
  | 0x0F => zIf (et && pd == 0) (zMts p b a)
  | 0x10 => zIf (b == 0 && et && pd == 0) (zDout p a)
  | _ => zIllegal

/-- The effect of an instruction word on physical engine `p` (R92). -/
def zWord (p : Nat) (w : Word) : State → ZOut :=
  let op := getBits w 26 6
  if op ≤ 0x08 then zFormatA op p w
  else if 0x10 ≤ op ∧ op ≤ 0x13 then zFormatI op p w
  else if op = 0x18 then
    match getBits w 21 2 with
    | 0 => zB p (getBits w 0 21)
    | 1 => zCall p (getBits w 0 21)
    | _ => zIllegal
  else if 0x20 ≤ op ∧ op ≤ 0x25 then zFormatE op p w
  else if 0x28 ≤ op ∧ op ≤ 0x2C then zFormatT op p w
  else if op = 0x30 then zFormatX p w
  else zIllegal

/-- Whether a word has a next sequential PC: all but branches, calls, returns, jumps and TRAP (R93). -/
def zSeq (w : Word) : Bool :=
  let op := getBits w 26 6
  let fn := getBits w 17 6
  !(op == 0x18 || (op == 0x30 && (fn == 0x09 || fn == 0x0B || fn == 0x0C || fn == 0x0D)))

/-- Physical engine `p` issues an instruction word. -/
def State.zIssue (s : State) (p : Nat) (w : Word) : State := s.zhn p (getBits w 23 3) (zSeq w) (zWord p w)

/-- FE_CMD STEP: a halted engine with DEBUG = 1 executes the instruction at FE_PC and halts (R66, R68). A WAIT that blocks halts
when it ends (R69). -/
def State.feStep (s : State) (p : Nat) : State :=
  if s.engRole p = roleActive ∧ s.engState p = stHalted ∧ s.debug p = true ∧ s.fe.held = false then
    let s := (s.modEng p (fun e => { e with passBrk := true, stepping := true })).setEngState p stRun
    s.zIssue p ((s.eng p).lsWord (4 * s.pc p))
  else s
/-- FE_CMD_STEP. -/
def execFeCmdStep (p : Fin 18) (s : State) : Res := .next (s.feStep p)

/-- A write of FE_CMD (R68). -/
def State.feCmd (s : State) (p v : Nat) : State :=
  match v with
  | 1 => s.feRun p
  | 2 => s.feHalt p
  | 3 => s.feStep p
  | 4 => s.feReset p
  | _ => s

end Sys2Proof.Machine
end

