-- ==== Sys2Proof/Machine/RegAccess.lean ====
section
/-! DEFINITION. Direct accesses to the control space (R10–R19, R26, R30, R36): what a read of each register shows and does, what a
write does, the 64-bit pairs, and the accesses that end in a bus error. -/
namespace Sys2Proof.Machine
open Sys2Proof

/-! ## What a register shows

A register shows its stored word, but for those of the functions below, which show other state: nothing is kept twice. -/

/-- A free value of 32 bits with the state after it. -/
def State.freeW (s : State) : Word × State := (w32 s.free.1, s.free.2)
/-- The queue-unit instance whose registers hold an offset, and the offset in them (R182). -/
def quAt (b : Blk) (off : Nat) : Option (Qu × Nat) :=
  match b with
  | .fe =>
    if 0x80200 ≤ off ∧ off < 0x8022C then some (.intake, off - 0x80200)
    else if 0x80400 ≤ off ∧ off < 0x80800 then some (.cpl ((off - 0x80400) / 0x40), (off - 0x80400) % 0x40)
    else none
  | .can => if 0x100 ≤ off % 0x10000 ∧ off % 0x10000 < 0x12C then some (.bulk (off / 0x10000), off % 0x10000 - 0x100) else none
  | .svc =>
    if 0x140 ≤ off ∧ off < 0x16C then some (.uartRx, off - 0x140)
    else if 0x180 ≤ off ∧ off < 0x1AC then some (.uartTx, off - 0x180)
    else none
  | .ind =>
    if 0x1040 ≤ off ∧ off < 0x1440 ∧ (off - 0x1040) % 0x100 < 0x2C then
      some (.feed ((off - 0x1040) / 0x100), (off - 0x1040) % 0x100)
    else none
  | _ => none

/-- The registers of a queue-unit instance (R182): QU_STATUS and QU_DATA; the others are stored. -/
def State.seeQu (s : State) (b : Blk) (off : Nat) : Word × State :=
  match quAt b off with
  | some (u, 0x04) => (s.quStatus u, s)
  | some (u, 0x1C) => s.quDataRead u
  | _ => (s.rd b off, s)

/-- SYS: identity (R38), pair status and ages (R345), wear (R344). -/
def State.seeSys (s : State) (x : RegRow) (off : Nat) : Word × State :=
  if x.is R.SYS_ID.reg then (s.sysId, s)
  else if x.is R.SYS_PAIR_STATUS.reg then
    (setBits (setBits (s.r R.SYS_PAIR_STATUS.reg) 28 1 (b2n s.ident.slotB)) 27 1 (b2n s.ident.partner), s)
  else if x.is R.SYS_PAIR_LEASE.reg then (w32 (s.ageMs 0xFFFF s.leaseSince), s)
  else if x.is R.SYS_PAIR_CKPT.reg then (w32 (s.ageMs 0xFFFFFFFF s.ckptSince), s)
  else if x.is R.SYS_WEAR_DATA.reg then (w32 (s.wearItem (s.f R.SYS_WEAR_SEL.ITEM)), s)
  else (s.rd .sys off, s)

/-- TIME (R287, R288, R303, R312). -/
def State.seeTime (s : State) (x : RegRow) (off : Nat) : Word × State :=
  let p := x.idx off 0
  if x.is R.TIME_NOW0.reg then (stampWord s.now 0, s.nowRead)
  else if x.is R.TIME_ADJ_LEFT.reg then (w32 (ofSigned 32 s.adjLeft), s)
  else if x.is R.TIME_CAL_USED.reg then (w32 s.calUsed, s)
  else if x.is (R.TIME_PPS_IN.reg 0) && p == 0 then (stampWord s.time.ppsIn 0, s.ppsInRead)
  else if x.is (R.TIME_TS_STATUS.reg 0) then (setBits (s.rd .time off) 0 7 (s.tsQueue p).length, s)
  else if x.is (R.TIME_TS_DATA0.reg 0) then s.tsRead p 0
  else if x.is (R.TIME_TS_DATA123.reg 0 0) then s.tsRead p (x.idx off 1 + 1)
  else (s.rd .time off, s)

/-- RTC: the bridge's shadow (R29, R480). -/
def State.seeRtc (s : State) (x : RegRow) (off : Nat) : Word × State :=
  if x.is R.RTC_TIME.reg then (s.rtcTimeRead.bus.readData, s.rtcTimeRead)
  else if x.is R.RTC_DATE.reg then (s.rtcDateRead.bus.readData, s.rtcDateRead)
  else if rtcCounterAt off then (s.rd .rtc off, s)
  else (s.rtcShadow off, s)

/-- KEY: the public key of the selected slot (R516), byte by byte in its big-endian order; the temperature of the
tamper sensor, which no rule gives. -/
def State.seeKey (s : State) (x : RegRow) (off : Nat) : Word × State :=
  if x.is (R.KEY_PUB.reg 0) then
    let k := s.kslot (s.f R.KEY_PUB_SEL.SLOT)
    (w32 (leNat ((k.pub.drop (4 * x.idx off 0)).take 4)), s)
  else if x.is R.KEY_TAMP_TEMP.reg then s.freeW
  else (s.rd .key off, s)

/-- REC: the blocks in service (R325), the ledger word read (R511). -/
def State.seeRcd (s : State) (x : RegRow) (off : Nat) : Word × State :=
  if x.is R.REC_LOG_SIZE.reg then (w32 s.logBlocks, s)
  else if x.is R.REC_LDG_DATA.reg then ((s.ledgerRead 0).bus.readData, s.ledgerRead 0)
  else (s.rd .rcd off, s)

/-- The 64 bits that FE_DBG_DATA shows (R68); a read of s11 draws (R89). -/
def State.dbgRead (s : State) (p : Nat) : Nat × State :=
  if s.f (R.FE_DBG_SEL.FILE p) = 4 ∧ s.f (R.FE_DBG_SEL.INDEX p) = 11 then s.drbgDraw else (s.dbgValue p, s)

/-- FE: the selected sheaf context (R83), counters and debug access of an engine (R68), handles in use (R166, R185). The event
counters at 0x13C–0x144 are one set for the module, whatever FE_SHF_SEL says (DESIGN CHOICE, assumption 154). -/
def State.seeFe (s : State) (x : RegRow) (off : Nat) : Word × State :=
  let c := s.ctx s.shfSel
  let p := x.idx off 0
  if x.is R.FE_SHF_STATUS.reg then (w32 (c.result * 2 ^ 24 + ownerCode c.owner * 2 ^ 16 + ctxCode c.st), s)
  else if x.is R.FE_SHF_COUNT.reg then (w32 c.entries.length, s)
  else if x.is R.FE_SHF_FAIL.reg then (w32 (c.failRule * 2 ^ 24 + b2n c.failOther * 2 ^ 16 + c.failIndex), s)
  else if x.is (R.FE_INSN_LO.reg 0) then (lo32 (s.eng p).insns, s)
  else if x.is (R.FE_INSN_HI.reg 0) then (hi32 (s.eng p).insns, s)
  else if x.is (R.FE_DBG_DATA_LO.reg 0) then (w32 (s.dbgRead p).1, (s.dbgRead p).2)
  else if x.is (R.FE_DBG_DATA_HI.reg 0) then (w32 ((s.dbgRead p).1 / 2 ^ 32), (s.dbgRead p).2)
  else if x.is (R.FE_LS_DATA.reg 0) then s.lsRead p
  else if x.is R.HND_INUSE.reg then (w32 (s.heldBy (fun _ => true)), s)
  else if x.is R.HND_ENG_INUSE.reg then (w32 (s.heldBy isEngine), s)
  else if x.is (R.HND_SESS_INUSE.reg 0) then (w32 (s.heldBy (fun o => o = .session p)), s)
  else if x.is R.HND_SESS_OVER.reg then
    (w32 (maskOf 16 (fun n => decide (s.f (R.HND_SESS_QUOTA.QUOTA n) ≤ s.heldBy (fun o => o = .session n)))), s)
  else if (quAt .fe off).isSome then s.seeQu .fe off
  else (s.wordNow .fe x off, s)

/-- FAB: the selected VOQ (R226), the buffer's counts (R255), the module's MAC and the entries of the FDB (R227). -/
def State.seeFab (s : State) (x : RegRow) (off : Nat) : Word × State :=
  let p := x.idx off 0
  let n := s.f (R.FAB_VOQ_SEL.PORT p)
  let c := s.f (R.FAB_VOQ_SEL.CLASS p)
  let v : Nat :=
    if x.is (R.FAB_VOQ_CELLS.reg 0) then s.voqCells p n c
    else if x.is (R.FAB_VOQ_FRAMES.reg 0) then (s.voq p n c).length
    else if x.is (R.FAB_BUF_SHARED.reg 0) then s.shared p
    else if x.is (R.FAB_BUF_FREE.reg 0) then s.sharedFree p
    else if x.is (R.FAB_BUF_FREELIST.reg 0) then s.freeCells p
    else if x.is (R.FAB_BUF_VOQ_OWNED.reg 0) then s.voqOwned p
    else if x.is (R.FAB_BUF_REPL_OWNED.reg 0) then s.replOwned p
    else if x.is (R.FAB_BUF_RSM_OWNED.reg 0) then s.rsmOwned p
    else if x.is (R.FAB_BUF_RESIDUE.reg 0) then s.residueCount p
    else if x.is R.FAB_MOD_MAC_LO.reg then s.ident.mac.toNat
    else if x.is R.FAB_MOD_MAC_HI.reg then s.ident.mac.toNat / 2 ^ 32
    else if x.is R.FAB_FDB_COUNT.reg then s.fab.fdb.length
    else (s.rd .fab off).toNat
  (w32 v, s)

/-- MTR: the age of the latest save (R422), harmonics (R402), the neutral current, 0 with N_EN = 0 (R399). -/
def State.seeMtr (s : State) (x : RegRow) (off : Nat) : Word × State :=
  if x.is R.MTR_SAVE_AGE.reg then (w32 (s.ageMs 0xFFFFFFFF s.mtr.saved), s)
  else if x.is R.MTR_HARM_DATA.reg then
    if s.f R.MTR_HARM_SEL.ORDER = 0 ∨ 53 < s.f R.MTR_HARM_SEL.CH then (0, s)
    else s.harmonic (s.f R.MTR_HARM_SEL.CH) (s.f R.MTR_HARM_SEL.ORDER)
  else if x.is (R.MTR_TOT_NRMS.reg 0) && !s.on (R.MTR_FDR.N_EN (x.idx off 0)) then (0, s)
  else (s.rd .mtr off, s)

/-- RAD: airtime used and its limit in units of 10 ms (R432, R442), the RSSI of a transceiver that receives, the channel. -/
def State.seeRad (s : State) (x : RegRow) (off : Nat) : Word × State :=
  let j := x.idx off 0
  if x.is (R.RAD_DUTY.reg 0) then
    let limit := match s.radBudget j with
      | some b => b / 30000
      | none => if s.f (R.RAD_CFG.REGION j) = 0 then 0 else 0xFFFF
    (w32 (min 0xFFFF (s.radUsed j / 30000) * 65536 + limit), s)
  else if x.is (R.RAD_RSSI.reg 0) && s.radOn j then (setBits (s.rd .rad off) 0 16 s.free.1, s.free.2)
  else if x.is (R.RAD_STATUS.reg 0) then (setBits (s.rd .rad off) 0 6 (if s.radOn j then s.radChan j else 0), s)
  else (s.rd .rad off, s)

/-- CAN: the counter, its snapshots (R452), the mailboxes (R455), the bulk queue (R456). -/
def State.seeCan (s : State) (x : RegRow) (off : Nat) : Word × State :=
  let c := x.idx off 0
  if x.is (R.CAN_TS_NOW.reg 0) then (s.canNow, s)
  else if x.is (R.CAN_TS_SNAP_CNT.reg 0) then ((s.canSnapRead c).bus.readData, s.canSnapRead c)
  else if x.is (R.CAN_MB_WORD0.reg 0 0) then (s.rd .can off, s.mbLock c (x.idx off 1))
  else if x.is (R.CAN_MB_DATA.reg 0 0 0) && x.idx off 2 == 15 then (s.rd .can off, s.mbRelease c (x.idx off 1))
  else s.seeQu .can off

/-- SVC_UART_STATUS (R565): RTS (R549), TX_BUSY while a character is sent; what RXD does between two commands none of them says,
so that with the UART enabled RX_ACTIVE is a free value, and BREAK_NOW one from a break to the next character (DESIGN CHOICE,
assumption 182). -/
def State.uartStatus (s : State) : Word × State :=
  let r := s.free
  let t := r.2
  let line := s.on R.SVC_UART_CFG.EN
  let w := setBits (t.r R.SVC_UART_STATUS.reg) 28 1 (b2n (s.on R.SVC_UART_CFG.RTS_EN && s.on (quAbove .uartRx)))
  let w := setBits w 30 1 (b2n (decide (s.power.opTicks < s.svc.txTill)))
  let w := setBits w 31 1 (b2n (line && r.1.testBit 0))
  (setBits w 27 1 (b2n (s.on R.SVC_UART_STATUS.BREAK_NOW && r.1.testBit 1)), t)
/-- SVC: the UART, the counters of the service port's MAC. -/
def State.seeSvc (s : State) (x : RegRow) (off : Nat) : Word × State :=
  if x.is R.SVC_UART_STATUS.reg then s.uartStatus
  else if macCounters.any (fun y => x.is y) then ((s.macCount ⟨.svc, off⟩).rd .svc off, s.macCount ⟨.svc, off⟩)
  else s.seeQu .svc off

/-- PWR: measured values (R366). -/
def State.seePwr (s : State) (x : RegRow) (off : Nat) : Word × State :=
  if x.is R.PWR_IN_POWER.reg || x.is R.PWR_CELL_TEMP.reg then s.freeW
  else if x.is R.PWR_GAUGE_REST.reg then
    (if s.on R.PWR_CELL_STATUS.AT_REST then w32 (min 0xFFFF ((s.opTotal - s.power.restAt) / (60 * secTicks))) else 0, s)
  else if x.is R.PWR_IN_STATUS.reg || x.is R.PWR_CELL_STATUS.reg then (setBits (s.rd .pwr off) 0 16 s.free.1, s.free.2)
  else (s.rd .pwr off, s)

/-- The word that a read of a register returns before its bits that read 0 are taken away, and what the read does beside
clearing RC fields. -/
def State.see (s : State) (b : Blk) (x : RegRow) (off : Nat) : Word × State :=
  match b with
  | .sys => s.seeSys x off
  | .time => s.seeTime x off
  | .rtc => s.seeRtc x off
  | .key => s.seeKey x off
  | .rcd => s.seeRcd x off
  | .fe => s.seeFe x off
  | .fab => s.seeFab x off
  | .ring =>
    if x.is (R.RING_DD_USED.reg 0) then
      (w32 ((s.dd (s.ddPlot (x.idx off 0))).filter (fun e => e.ring == x.idx off 0)).length, s)
    else (s.rd .ring off, s)
  | .mtr => s.seeMtr x off
  | .rad => s.seeRad x off
  | .can => s.seeCan x off
  | .ind =>
    if x.is (R.IND_CH_ESTAT.reg 0 0) then
      (setBits (s.rd .ind off) 0 10 ((s.elem (x.idx off 0) (x.idx off 1)).ramp.code (stampUnits s.now)), s)
    else s.seeQu .ind off
  | .svc => s.seeSvc x off
  | .pwr => s.seePwr x off
  | _ => (s.rd b off, s)

/-! ## Reads -/

/-- RC fields are cleared, and PEAK fields take the current level (R10, R16, R182, R312). -/
def State.readClears (s : State) (b : Blk) (x : RegRow) (off : Nat) : State :=
  let s := s.wr b off (afterRead x (s.rd b off))
  if b = .time && x.is R.TIME_CAL_PEAK.reg then s.setF R.TIME_CAL_PEAK.PEAK s.calUsed
  else match quAt b off with
    | some (u, 0x28) => s.setF (quPeak u) (s.quLevel u)
    | _ => s

/-- The high word of the pair with its low word at `off`, as it stands. -/
def State.highWord (s : State) (b : Blk) (off : Nat) : Word :=
  match findRow b (off + 4) with
  | some y => readMask y (s.see b y (off + 4)).1
  | none => 0

/-- A read of a register that is reached: the word it shows; the low word of a pair captures the high word, and the high word
is the unread shadow when there is one (R17). -/
def State.regRead (s : State) (b : Blk) (off : Nat) : State :=
  match findRow b off with
  | none => s.answer 0
  | some x =>
    let v := s.see b x off
    let t := v.2.readClears b x off
    let w := readMask x v.1
    if isPairLow b off then
      (t.setShadow (regAddr ⟨b, off⟩) (some (s.highWord b off))).answer w
    else match pairLowOf b off with
      | none => t.answer w
      | some lo =>
        match s.shadowAt (regAddr ⟨b, lo⟩) with
        | some h => (s.setShadow (regAddr ⟨b, lo⟩) none).answer h
        | none => t.answer w

/-- `n` bytes of one of the memories of R36 from an offset on. -/
def memBytes (m : Store Byte) (off n : Nat) : List Byte := (List.range n).map (fun i => sget sdramByte m (off + i))

/-- A read of `n` bytes of a memory (R7, R36): its bytes, lowest address first, and its low 32 bits. -/
def State.memRead (s : State) (m : Store Byte) (off n : Nat) : State :=
  { s with bus := { s.bus with readBytes := memBytes m off n, readData := w32 (leNat (memBytes m off n)) } }

/-- A store to the boot ROM: an access fault in the core, and nothing else (R36). -/
def State.romStore (s : State) (core : Nat) (a : Addr) : State :=
  { s with bus := { s.bus with coreFault := some (core, a.toNat, true) } }
/-- A core's access to an address that no memory decodes (R36). -/
def State.noMem (s : State) (core : Nat) (a : Addr) (write : Bool) : State :=
  { s.busErr E.SYS_BUS_ERR.UNMAPPED a write with bus :=
      { (s.busErr E.SYS_BUS_ERR.UNMAPPED a write).bus with coreFault := some (core, a.toNat, write) } }

/-- Store bytes in control SRAM or SDRAM (R36). -/
def State.memStore (s : State) (sd : Bool) (off : Nat) (l : List Byte) : State :=
  let put := fun (m : Store Byte) => (l.zipIdx 0).foldl (fun m b => sset sdramByte m (off + b.2) b.1) m
  if sd then { s with bus := { s.bus with sdram := put s.bus.sdram } }
  else { s with bus := { s.bus with sram := put s.bus.sram } }

/-- The widths of R36: 1, 2, 4 and 8 bytes and 64-byte lines. -/
def memWidth (n : Nat) : Bool := n == 1 || n == 2 || n == 4 || n == 8 || n == 64

/-- An access of `n` bytes outside the register region (R36). It reaches the memory that decodes its first byte; when no
memory decodes its last byte, the access faults there as one to an undecoded address (DESIGN CHOICE, assumption 128). -/
def State.memAccess (s : State) (core : Nat) (a : Addr) (n : Nat) (write : Bool) (l : List Byte) : State :=
  let z : Addr := BitVec.ofNat 40 (a.toNat + n - 1)
  match s.target a, s.target z with
  | .bootRom off, .bootRom _ => if write then s.romStore core a else s.memRead s.bus.bootRom off n
  | .sram off, .sram _ => if write then s.memStore false off (l.take n) else s.memRead s.bus.sram off n
  | .sdram off, .sdram _ => if write then s.memStore true off (l.take n) else s.memRead s.bus.sdram off n
  | .noMemory, _ => s.noMem core a write
  | _, _ => s.noMem core z write

/-- A read of an aligned address of the control space (R2, R12, R30, R36). -/
def State.busRead (s : State) (a : Addr) : State :=
  match s.target a with
  | .reg b off => s.viaRead ⟨b, off⟩ (fun s => s.regRead b off)
  | .fmem off => s.answer (s.fword off)
  | .radAbsent => s.answer 0
  | .hole => (s.busErr E.SYS_BUS_ERR.UNMAPPED a false).answer 0
  | _ => s.memAccess 0 a 4 false []

/-! ## Writes -/

/-- Whether a row has a field that a write can change or that acts when written. -/
def RegRow.writable (x : RegRow) : Bool := x.fields.any (fun f => f.acc != .ro && f.acc != .rc && f.acc != .so)

/-- Commands of SYS, TIME, RTC, KEY and REC. -/
def State.ctlCommand (s : State) (b : Blk) (x : RegRow) (v : Word) : Option State :=
  let k := getBits v 0 4
  match b with
  | .sys =>
    if x.is R.SYS_RST_CMD.reg then some (s.rstCmd v) else if x.is R.SYS_WDOG_KICK.reg then some (s.wdogKick v) else none
  | .time => if x.is R.TIME_CMD.reg then some (s.timeCmd k) else none
  | .rtc => if x.is R.RTC_CMD.reg then some (if k = 1 then s.rtcAlign else s).rtcShow else none
  | .key =>
    if x.is R.KEY_OP_CMD.reg then some (s.keyOp (getBits v 0 6) (getBits v 10 8) (getBits v 18 8))
    else if x.is R.KEY_LC_CMD.reg then
      some (if getBits v 16 16 ≠ 0x5C3A then s else if k = 1 then s.requestNonce else if k = 2 then s.lcTransition else s)
    else none
  | .rcd =>
    if x.is R.REC_CMD.reg then some (s.recCmd k) else if x.is R.REC_APP_HDR.reg then some (s.appRecord v) else none
  | _ => none

/-- Commands of FE, FAB, MTR, CAN, SVC and of the queue unit. -/
def State.command (s : State) (b : Blk) (x : RegRow) (off : Nat) (v : Word) : Option State :=
  let k := getBits v 0 4
  let n := x.idx off 0
  match quAt b off with
  | some (u, 0) => some (if k = 1 then s.quDrop u else s)
  | _ =>
    match b with
    | .fe =>
      if x.is (R.FE_CMD.reg 0) then some (s.feCmd n k)
      else if x.is R.FE_SHF_CMD.reg then some (s.shfCmd k)
      else if x.is R.FE_SHF_DATA.reg then some (s.shfData v)
      else none
    | .fab => if x.is R.FAB_FDB_CMD.reg then some (s.fdbCmd k) else none
    | .mtr =>
      if x.is R.MTR_CMD.reg then some (s.mtrCmd k) else if x.is R.MTR_CAP_CMD.reg then some (s.capCmd k) else none
    | .can =>
      if x.is (R.CAN_CMD.reg 0) then some (s.canCmd n k)
      else if x.is (R.CAN_BULK_ACK.reg 0) then some (s.bulkAck n (getBits v 0 10))
      else if x.is (R.CAN_TX_CTL.reg 0 0) then some (s.txCtlWrite n (x.idx off 1) v)
      else none
    | .svc =>
      if x.is R.SVC_UART_TXDATA.reg then some (s.uartPut (getBits v 0 8))
      else if x.is R.SVC_IMG_CMD.reg then some (s.imgCmd k)
      else if x.is R.SVC_ACT_CONFIRM.reg then some (s.actConfirm v)
      else if x.is R.SVC_EFW_CMD.reg then some (s.efwCmd k)
      else none
    | _ => s.ctlCommand b x v

/-- A write of a register by its access code (R10, R13, R14), with what follows it. -/
def State.codeWrite (s : State) (b : Blk) (off : Nat) (v : Word) : State :=
  match findRow b off with
  | none => s
  | some x => if x.writable then s.putReg b x off (writeWord x (s.wordNow b x off) v) else s

/-- Both words of a pair take effect together (R17). -/
def State.pairWrite (s : State) (b : Blk) (lo : Nat) (l h : Word) : State :=
  let s := s.setHeld (regAddr ⟨b, lo⟩) none
  if (⟨b, lo⟩ : Reg) = R.TIME_INCR_LO.reg then s.incrWrite (l.toNat + h.toNat % 256 * 2 ^ 32)
  else match b with
    | .fe => if lo % 0x100000 = 0x54 then s.dbgWrite (lo / 0x100000) (l.toNat + h.toNat * 2 ^ 32) else s
    | _ => (s.codeWrite b lo l).codeWrite b (lo + 4) h

/-- A write of a register that is reached (R10, R17, R18). -/
def State.regWrite (s : State) (b : Blk) (off : Nat) (v : Word) : State :=
  match findRow b off with
  | none => s
  | some x =>
    if x.so then s.soWrite ⟨b, off⟩
    else if !x.writable then s.when (b == .rtc) State.rtcShow
    else if isPairLow b off then s.setHeld (regAddr ⟨b, off⟩) (some v)
    else match pairLowOf b off with
      | some lo =>
        match findRow b lo with
        | some y => s.pairWrite b lo ((s.heldAt (regAddr ⟨b, lo⟩)).getD (s.wordNow b y lo)) v
        | none => s
      | none =>
        match s.command b x off v with
        | some t => t
        | none => s.codeWrite b off v

/-- Whether any field engine is running: in RUN or blocked in WAIT (R26). -/
def State.anyEngine (s : State) : Bool :=
  (List.range 18).any (fun p => s.engState p == stRun || s.engState p == stWait)

/-- An accepted write through the FMEM window: group 0 keeps showing VALID (R54), and a unit that it binds leaves the ghost
list (R340). -/
def State.fmemStore (s : State) (off : Nat) (v : Word) : State :=
  let t := s.setFWord off v
  if off < 0x1000000 then
    let i := off / 128
    let t := t.setGrpBit 0 i (t.epValid i)
    if t.epValid i && (!s.epValid i || t.epEui i != s.epEui i) then t.ghostBind (t.epEui i) else t
  else t

/-- A write through the FMEM window (R26, R54). -/
def State.fmemWrite (s : State) (a : Addr) (off : Nat) (v : Word) : State :=
  let group0 := decide (0x1800000 ≤ off ∧ off < 0x1804000)
  if group0 || (decide (off < 0x2000000) && s.anyEngine) then s.busErr E.SYS_BUS_ERR.SO_WRITE a true
  else s.fmemStore off v

/-- A 32-bit write of an aligned address of the control space (R2, R12, R30, R36). -/
def State.busWrite (s : State) (a : Addr) (v : Word) : State :=
  match s.target a with
  | .reg b off => s.viaWrite ⟨b, off⟩ (fun s => s.regWrite b off v)
  | .fmem off => s.fmemWrite a off v
  | .radAbsent => s
  | .hole => s.busErr E.SYS_BUS_ERR.UNMAPPED a true
  | _ => s.memAccess 0 a 4 true (leBytes 4 v.toNat)

/-- An access of the register region that is unaligned or narrower than 32 bits (R11). -/
def State.misaligned (s : State) (a : Addr) (write : Bool) : State :=
  (s.busErr E.SYS_BUS_ERR.ALIGN a write).noData write

/-- An access of width `bytes` as the interconnect takes it (R11). R11 names the unaligned and the narrower accesses of the
register region; one that is wider than 32 bits, 8 bytes or a line, ends the same way (DESIGN CHOICE, assumption 129). -/
def State.regionAccess (s : State) (a : Addr) (bytes : Nat) (write : Bool) (k : State → State) : State :=
  if inRegion a.toNat && (a.toNat % 4 != 0 || bytes != 4) then s.misaligned a write else k s

/-! ## The commands -/

/-- REGISTER_WRITE: a direct 32-bit write. -/
def execRegisterWrite (a : Addr) (v : Word) (s : State) : Res :=
  .next (s.regionAccess a 4 true (fun s => s.busWrite a v))

/-- UNALIGNED_ACCESS: an access of any width. In the register region R11 ends it unless it is an aligned one of 32 bits, which
is a register access as usual; outside the region an access of one of the widths of R36 reaches the memories, and one of
another width, which no core makes, is nothing. `store`: what is written, none for a read. -/
def State.anyAccess (s : State) (a : Addr) (bytes : Nat) (store : Option (BitVec 512)) : State :=
  let data := (store.getD 0).toNat
  s.regionAccess a bytes store.isSome (fun s =>
    if inRegion a.toNat then (if store.isSome then s.busWrite a (w32 data) else s.busRead a)
    else if memWidth bytes then s.memAccess 0 a bytes store.isSome (leBytes bytes data)
    else s)
def execUnalignedAccess (a : Addr) (bytes : Fin 65) (store : Option (BitVec 512)) (s : State) : Res :=
  .next (s.anyAccess a bytes.val store)

/-- UNMAPPED_ACCESS: an aligned access of the register region that no block decodes (R12). An address that some block decodes is
accessed as usual. -/
def execUnmappedAccess (a : Addr) (write : Bool) (v : Word) (s : State) : Res :=
  .next (s.regionAccess a 4 write (fun s =>
    match s.target a with
    | .hole => if write then s.busWrite a v else s.busRead a
    | _ => s))

/-- UNMAPPED_MEMORY_ACCESS by an application core (R36). -/
def execUnmappedMemoryAccess (core : Nat) (a : Addr) (write : Bool) (s : State) : Res :=
  .next (match s.target a with
    | .noMemory => s.noMem core a write
    | _ => s)

/-- BOOT_ROM_STORE by an application core (R36). -/
def execBootRomStore (core : Nat) (a : Addr) (s : State) : Res :=
  .next (match s.target a with
    | .bootRom _ => s.romStore core a
    | _ => s)

/-- RC_READ: a direct 32-bit read (R10, R16). -/
def execRcRead (a : Addr) (s : State) : Res := .next (s.regionAccess a 4 false (fun s => s.busRead a))

/-- PAIR_LOW_READ (R17). -/
def execPairLowRead (a : Addr) (s : State) : Res := .next (s.regionAccess a 4 false (fun s => s.busRead a))

/-- PAIR_HIGH_READ (R17). -/
def execPairHighRead (a : Addr) (s : State) : Res := .next (s.regionAccess a 4 false (fun s => s.busRead a))

/-- PAIR_LOW_WRITE (R17). -/
def execPairLowWrite (a : Addr) (v : Word) (s : State) : Res := .next (s.regionAccess a 4 true (fun s => s.busWrite a v))

/-- PAIR_HIGH_WRITE (R17). -/
def execPairHighWrite (a : Addr) (v : Word) (s : State) : Res := .next (s.regionAccess a 4 true (fun s => s.busWrite a v))

/-- SO_REGISTER_WRITE (R18). -/
def execSoRegisterWrite (a : Addr) (v : Word) (s : State) : Res := .next (s.regionAccess a 4 true (fun s => s.busWrite a v))

/-- FMEM_WINDOW_WRITE at a word offset of field memory (R26). -/
def execFmemWindowWrite (w : BitVec 24) (v : Word) (s : State) : Res :=
  .next (s.fmemWrite (BitVec.ofNat 40 (0x16000000 + 4 * w.toNat)) (4 * w.toNat) v)

end Sys2Proof.Machine
end

