-- ==== Sys2Proof/Machine/Fcp2.lean ====
section
/-! DEFINITION. FCP2 (R167–R176): connections and sessions, requests with their ACCEPTs and completions, version 1; and the
queue unit's read port, DROP_PKT, watermarks and the handle quotas (R166, R177–R181). -/
namespace Sys2Proof.Machine
open Sys2Proof

/-! ## Connections and sessions (R167, R168, R176) -/

/-- The TCP port of FCP2. -/
def fcpPort : BitVec 16 := 7460
/-- Whether FCP2 can be reached: over an UPLINK port that is UP, in the management VLAN, or over the service port. Before the
control domain runs nothing listens. -/
def State.fcpReached (s : State) (via : Access) : Bool :=
  s.power.step == 5 && match via with
    | .port n vid => s.portUp n && s.portRole n == prUplink && vid != 0 && vid.toNat == s.f R.FAB_MGMT_VLAN.VID
    | .service => s.on R.SVC_MAC_STATUS.LINK
/-- A client's offer is accepted with the rights of its certificate, or fails with an alert. -/
def State.tlsOffer (s : State) (via : Access) (tcp : BitVec 16) (h : Handshake) : State :=
  if !s.fcpReached via || tcp != fcpPort then s
  else match s.tlsTest h with
    | .inl rights => ({ s with fcp := { s.fcp with conns := s.fcp.conns ++ [rights] } }).send (.tls true 0)
    | .inr alert => s.send (.tls false alert)
/-- TLS_HANDSHAKE: an offer, or a KeyUpdate, which is answered when it asks for that. -/
def execTlsHandshake (m : TlsMessage) (s : State) : Res :=
  .next (match m with
    | .offer via tcp h => s.tlsOffer via tcp h
    | .keyUpdate n asked => s.when ((s.sess n).isOpen && asked) (·.send (.keyUpdate n)))

/-- Whether the module controls the lighting, as WELCOME and GET_INFO give its role (R168). -/
def State.controls (s : State) : Bool := s.role == rolePairActive || s.role == roleSolo
/-- The body of WELCOME for session `n` (R168). -/
def State.welcome (s : State) (n : Nat) : List Byte :=
  [BitVec.ofNat 8 n, BitVec.ofNat 8 (b2n (s.sess n).control), BitVec.ofNat 8 (b2n s.controls), 0] ++ leBytes 4 s.epoch ++
    leBytes 4 (s.f (R.HND_SESS_QUOTA.QUOTA n)) ++ [0, 0, 0, 0] ++ leBytes 8 (euiOfMac s.ident.mac).toNat

/-- The lowest session number that is neither open nor kept (R168). -/
def State.freeSession (s : State) : Option Nat := (List.range 16).find? (fun n => !(s.sess n).isOpen && !(s.sess n).closing)
/-- Take connection `c` from those that have not sent anything. -/
def State.dropConn (s : State) (c : Nat) : State := { s with fcp := { s.fcp with conns := s.fcp.conns.eraseIdx c } }

/-- The first message on connection `c`: HELLO with its event mask, or, with `v1`, any version 1 message, which opens a session
with READ rights and no WELCOME (R168, R176). Reserved mask bits are dropped. -/
def State.hello (s : State) (c : Nat) (v1 : Bool) (mask : Word) : State :=
  match s.fcp.conns[c]? with
  | none => s
  | some rights =>
    let s := s.dropConn c
    match s.freeSession with
    | none => if v1 then s else s.send (.fcp2 16 0x02 fsBusy 0 0 [])
    | some n =>
      let s := s.setSess n { Session.none with
        isOpen := true, control := rights && !v1, version1 := v1, mask := if v1 then 0 else w32 (mask.toNat % 64) }
      if v1 then s else s.send (.fcp2 n 0x02 fsOk 0 0 (s.welcome n))
/-- HELLO. -/
def execHello (c : Nat) (v1 : Bool) (mask : Word) (s : State) : Res := .next (s.hello c v1 mask)
/-- HELLO_TIMEOUT: connection `c` is closed. -/
def execHelloTimeout (c : Nat) (s : State) : Res := .next (s.dropConn c)

/-- Change an open session. -/
def State.modSess (s : State) (n : Nat) (f : Session → Session) : State :=
  if (s.sess n).isOpen then s.setSess n (f (s.sess n)) else s
/-- PING_SEND to session `n`. -/
def State.pingSend (s : State) (n : Nat) : State :=
  if (s.sess n).isOpen && !(s.sess n).pinged then (s.modSess n (fun x => { x with pinged := true })).send (.fcp2 n 0x07 0 0 0 []) else s
def execPingSend (n : Fin 16) (s : State) : Res := .next (s.pingSend n)
/-- SESSION_TIMEOUT: 30 s after a PING without a message. -/
def State.sessTimeout (s : State) (n : Nat) : State := if (s.sess n).pinged then s.sessClose n else s
def execSessionTimeout (n : Fin 16) (s : State) : Res := .next (s.sessTimeout n)
/-- PONG. -/
def execPong (n : Fin 16) (s : State) : Res := .next (s.modSess n (fun x => { x with pinged := false }))
/-- CLOSE: the client closes, or, with `malformed`, it has sent a message with a reserved TYPE or a LENGTH above 1,048,576, which
the module answers with CLOSE (R168). -/
def State.close (s : State) (n : Nat) (malformed : Bool) : State :=
  let s := if malformed && (s.sess n).isOpen then s.send (.fcp2 n 0x09 fsBadRequest 0 0 []) else s
  s.sessClose n
def execClose (n : Fin 16) (malformed : Bool) (s : State) : Res := .next (s.close n malformed)
/-- SESSION_FREE: the number of a closed session without handles is free again. -/
def State.sessFree (s : State) (n : Nat) : State :=
  if (s.sess n).closing && s.sessHandles n == 0 then s.setSess n Session.none else s
def execSessionFree (n : Fin 16) (s : State) : Res := .next (s.sessFree n)

/-- EVENT_COUNT_ALARM: the transport of session `n` has taken `taken` events; when room returns, one ALARM event carries the
count of those discarded (R175). -/
def State.eventTaken (s : State) (n taken : Nat) : State :=
  let x := s.sess n
  if !x.isOpen then s
  else
    let left := x.undelivered - taken
    if x.evLost ≠ 0 && left < 1024 then
      (s.setSess n { x with undelivered := left + 1, evLost := 0 }).send
        (.fcp2 n 0x06 evAlarm 0 0 (leBytes 8 s.rcd.nextSeq ++ leBytes 4 x.evLost))
    else s.setSess n { x with undelivered := left }
def execEventCountAlarm (n : Fin 16) (taken : Fin 1025) (s : State) : Res := .next (s.eventTaken n taken)

/-! ## Requests (R169, R171, R173) -/

/-- An ACCEPT that refuses a request. -/
def State.refuse (s : State) (n : Nat) (tag : Word) (status : Nat) : State := s.send (.fcp2 n 0x04 status tag.toNat 0 [])
/-- The refusals that do not depend on the body's content: rights first (DESIGN CHOICE, assumption 194), STANDBY for CONTROL
commands, which a claim accepts only at its last step (R334; the status DEDUCED, assumption 153), FENCED for those that act on
the lighting, a malformed body (R171, R173). -/
def State.reqTest (s : State) (n : Nat) (control lighting bad : Bool) : Option Nat :=
  if control && !(s.sess n).control then some fsNotPermitted
  else if control && (s.role == roleStandby || s.role == roleClaiming) then some fsStandby
  else if lighting && s.fenced then some fsFenced
  else if bad then some fsBadRequest
  else none
/-- The status of a refused allocation. -/
def Alloc.status : Alloc → Nat
  | .quota => fsQuota
  | .noHandle => fsNoHandle
  | .slot _ => fsOk
/-- A new handle of session `n` in slot `i`, and the ACCEPT that carries it (R169). -/
def State.acceptIn (s : State) (n : Nat) (tag : Word) (i : Nat) : State :=
  let s := s.allocSlot i { Handle.fresh with owner := .session n }
  s.send (.fcp2 n 0x04 fsOk tag.toNat (s.handleAt i) [])
/-- The session is alive: a message has come (R168). A version 1 session answers READ_ONLY (R176). -/
def State.onSession (s : State) (n : Nat) (k : State → State) : State :=
  if !(s.sess n).isOpen then s
  else
    let s := s.modSess n (fun x => { x with pinged := false })
    if (s.sess n).version1 then s.send (.v1 n fsReadOnly []) else k s

/-- A REQUEST on session `n`: refused by the first test that fails, `err` being what the body's content gives, or accepted
with a new handle, after which `k` runs with its slot. -/
def State.request (s : State) (n : Nat) (tag : Word) (control lighting bad : Bool) (err : State → Option Nat)
    (k : Nat → State → State) : State :=
  s.onSession n (fun s =>
    match s.reqTest n control lighting bad with
    | some e => s.refuse n tag e
    | none =>
      match err s with
      | some e => s.refuse n tag e
      | none =>
        match s.allocTest (.session n) with
        | .slot i => k i (s.acceptIn n tag i)
        | a => (s.allocFail a).refuse n tag a.status)

/-- The handle in slot `i` completes with a status, a result and command data. -/
def State.finish (s : State) (i status : Nat) (result : Word) (data : List Byte) : State :=
  (s.setData (s.handleAt i) data).complete i status result
/-- It completes with OK and data. -/
def State.finishData (s : State) (i : Nat) (data : List Byte) : State := s.finish i fsOk 0 data

/-- The data of GET_INFO (R171). -/
def State.info (s : State) : List Byte :=
  wordsBytes [s.sysId, s.r R.SYS_HIER.reg, w32 (b2n s.controls), w32 s.epoch, w32 s.stepEpoch,
    w32 ((List.range 16).filter (fun n => (s.sess n).isOpen)).length, w32 (s.heldBy (fun _ => true))]
/-- The clamp counts of the sixteen logical engines (R129). -/
def State.clampData (s : State) : List Byte := wordsBytes ((List.range 16).map (fun l => w32 (s.clampCount l)))
/-- Handle use: each session's, then the engines' (R171). -/
def State.useData (s : State) : List Byte :=
  wordsBytes ((List.range 16).map (fun n => w32 (s.sessHandles n)) ++ [w32 (s.heldBy isEngine)])

/-- GET_INFO; a REQUEST whose opcode R171 does not list is refused (that this row carries it is a DESIGN CHOICE, assumption
153). -/
def execGetInfo (n : Fin 16) (tag : Word) (form : InfoForm) (s : State) : Res :=
  .next (if form = .unlisted then s.onSession n (·.refuse n tag fsUnknownOp)
    else s.request n tag false false (form = .malformed) (fun _ => none) (fun i s => s.finishData i s.info))

/-- `count` register words from an address, rising, each by a direct read (R11, R12, R17). -/
def State.readRegs (a : Nat) : Nat → State → List Word × State
  | 0, s => ([], s)
  | c + 1, s =>
    let t := s.regionAccess (BitVec.ofNat 40 a) 4 false (fun s => s.busRead (BitVec.ofNat 40 a))
    let r := State.readRegs (a + 4) c t
    (t.bus.readData :: r.1, r.2)
/-- READ_REGS: a count outside 1–256 is malformed; the words lie in the register region. -/
def execReadRegs (n : Fin 16) (tag : Word) (bad : Bool) (a : DWord) (count : Word) (s : State) : Res :=
  .next (s.request n tag false false (bad || count.toNat == 0 || decide (256 < count.toNat))
    (fun _ => if 0x10000000 ≤ a.toNat ∧ a.toNat + 4 * count.toNat ≤ 0x100000000 then none else some fsBadAddress)
    (fun i s =>
      let r := State.readRegs a.toNat count.toNat s
      r.2.finishData i (wordsBytes r.1)))

/-- READ_FMEM: whole words inside field memory. -/
def execReadFmem (n : Fin 16) (tag : Word) (bad : Bool) (off len : Word) (s : State) : Res :=
  .next (s.request n tag false false (bad || len.toNat % 4 != 0 || len.toNat == 0 || decide (65536 < len.toNat))
    (fun _ => if off.toNat % 4 = 0 ∧ off.toNat + len.toNat ≤ 0x4000000 then none else some fsBadAddress)
    (fun i s => s.finishData i (s.fbytes off.toNat len.toNat)))

/-- GET_COUNTS: selector 0 the clamp counts, 1 the handle use. -/
def execGetCounts (n : Fin 16) (tag : Word) (bad : Bool) (sel : Word) (s : State) : Res :=
  .next (s.request n tag false false (bad || decide (1 < sel.toNat)) (fun _ => none)
    (fun i s => s.finishData i (if sel = 0 then s.clampData else s.useData)))

/-- The codes of R171's HANDLE_STATUS. -/
def hstCode : HSt → Nat
  | .placed => 1 | .awaiting => 2 | .held => 3 | .completing => 4 | .free => 0
/-- HANDLE_STATUS: STALE under R164. -/
def execHandleStatus (n : Fin 16) (tag : Word) (bad : Bool) (h : Word) (s : State) : Res :=
  .next (s.request n tag false false bad (fun s => if s.handleOpen h then none else some fsStale)
    (fun i t => t.finish i fsOk (w32 (hstCode (s.hslot (slotOf h)).st)) []))

/-- SUBSCRIBE: reserved mask bits must be 0 (R174). -/
def execSubscribe (n : Fin 16) (tag : Word) (bad : Bool) (mask : Word) (s : State) : Res :=
  .next (s.request n tag false false (bad || decide (63 < mask.toNat)) (fun _ => none)
    (fun i s =>
      let prev := (s.sess n).mask
      (s.modSess n (fun x => { x with mask := mask })).finish i fsOk prev []))

/-! ## Sheaf commands (R171, R72) -/

/-- A SHEAF refusal as a completion. -/
def State.finishSheaf (s : State) (i res : Nat) : State := s.finish i fsSheaf (w32 res) []

/-- SHEAF_OPEN: the session's own context is opened again when it has FAILED; another only when the session has none. -/
def State.sheafOpen (s : State) (n i : Nat) : State :=
  match s.ctxOfSession n with
  | some c =>
    let t := s.shfOpen c .firmware (some n)
    if (s.ctx c).st = .failed then t.finish i fsOk (w32 c) [] else t.finishSheaf i (t.ctx c).result
  | none =>
    match s.freeCtx with
    | some c => (s.shfOpen c .firmware (some n)).finish i fsOk (w32 c) []
    | none => s.finishSheaf i resNoContext
def execSheafOpen (n : Fin 16) (tag : Word) (bad : Bool) (s : State) : Res :=
  .next (s.request n tag true false bad (fun _ => none) (fun i s => s.sheafOpen n i))

/-- Stage entries in context `c` until one is refused: the state, and whether all were staged. -/
def State.stageAll (c : Nat) : List ShfEntry → State → Bool × State
  | [], s => (true, s)
  | e :: es, s =>
    let before := (s.ctx c).entries.length
    let t := s.shfStage c .firmware e
    if (t.ctx c).entries.length = before + 1 then State.stageAll c es t else (false, t)
/-- SHEAF_STAGE: entries staged before a refusal stay. -/
def State.sheafStage (s : State) (n i : Nat) (es : List ShfEntry) : State :=
  match s.ctxOfSession n with
  | none => s.finishSheaf i resNotPermitted
  | some c =>
    let r := State.stageAll c es s
    if r.1 then r.2.finish i fsOk (w32 es.length) [] else r.2.finishSheaf i (r.2.ctx c).result
def execSheafStage (n : Fin 16) (tag : Word) (bad : Bool) (es : List ShfEntry) (s : State) : Res :=
  .next (s.request n tag true false (bad || es.isEmpty || decide (4096 < es.length)) (fun _ => none) (fun i s => s.sheafStage n i es))

/-- SHEAF_CHECK: completes when the check ends. -/
def State.sheafCheck (s : State) (n i : Nat) : State :=
  match s.ctxOfSession n with
  | none => s.finishSheaf i resNotPermitted
  | some c =>
    let t := s.shfCheck c .firmware
    if (s.ctx c).st = .opened then t.modCtx c (fun x => { x with hnd := some i }) else t.finishSheaf i (t.ctx c).result
def execSheafCheck (n : Fin 16) (tag : Word) (bad : Bool) (s : State) : Res :=
  .next (s.request n tag true false bad (fun _ => none) (fun i s => s.sheafCheck n i))

/-- SHEAF_APPLY: completes when the sheaf has applied, or at once with the refusal; between an activation and its confirmation
it is refused (R558). -/
def State.sheafApply (s : State) (n i : Nat) (timed : Bool) (t : Stamp) : State :=
  match s.ctxOfSession n with
  | none => s.finishSheaf i resNotChecked
  | some c =>
    let u := if s.svc.act = 3 then s.shfRefuse c resNotPermitted else s.shfApply c .firmware timed t
    if (s.ctx c).st = .checked ∧ (u.ctx c).st ≠ .checked then u.modCtx c (fun x => { x with hnd := some i })
    else u.finishSheaf i (u.ctx c).result
def execSheafApply (n : Fin 16) (tag : Word) (bad timed : Bool) (t : Stamp) (s : State) : Res :=
  .next (s.request n tag true false bad (fun _ => none) (fun i s => s.sheafApply n i timed t))

/-- SHEAF_DISCARD. -/
def State.sheafDiscard (s : State) (n i : Nat) : State :=
  match s.ctxOfSession n with
  | none => s.finishSheaf i resNotPermitted
  | some c =>
    let u := s.shfDiscard c .firmware
    if (u.ctx c).st = .free then u.finish i fsOk 0 [] else u.finishSheaf i (u.ctx c).result
def execSheafDiscard (n : Fin 16) (tag : Word) (bad : Bool) (s : State) : Res :=
  .next (s.request n tag true false bad (fun _ => none) (fun i s => s.sheafDiscard n i))

/-! ## Field commands and events (R171, R172) -/

/-- The codes that FIELD_CMD accepts. -/
def fieldCode (c : Nat) : Bool := (3 ≤ c && c ≤ 7) || 0x80 ≤ c

/-- Tests 2 to 4 of R172. -/
def State.fieldTest (s : State) (cursor : Word) (d : Desc) (payload : List Byte) : Option Nat :=
  let i := getBits cursor 0 17
  if getBits cursor 25 7 ≠ 0 ∨ s.ep i EP.GEN ≠ getBits cursor 17 8 ∨ s.epValid i = false then some fsBadAddress
  else if !fieldCode d.code || d.hold then some fsNotPermitted
  else if d.reserved || payload.length != d.plen || decide (payloadLimit (s.ep i EP.PATH) < d.plen) then some fsBadRequest
  else if !codePermitted d.code (s.ep i EP.PATH) (s.ep i EP.TYPE) then some fsNotPermitted
  else none

/-- The status of a refused placement. -/
def Refused.status : Refused → Nat
  | .fenced => fsFenced | .far => fsFar | .calFull => fsCalFull | .quota => fsQuota | .noHandle => fsNoHandle

/-- Test 5 of R172 and the placement. On an RS2560-MX a command for a radio endpoint takes a handle and completes with
NO_RADIO (R2). -/
def State.fieldPlace (s : State) (n : Nat) (tag : Word) (i : Nat) (d : Desc) (payload : List Byte) (t : Stamp) : State :=
  if s.ident.code = .mx ∧ s.ep i EP.PATH = 1 then
    match s.allocTest (.session n) with
    | .slot h => (s.acceptIn n tag h).finish h fsNoRadio 0 []
    | a => (s.allocFail a).refuse n tag a.status
  else
    match s.place (.session n) i d.level d payload t with
    | .inr (h, u) => u.send (.fcp2 n 0x04 fsOk tag.toNat (u.handleAt h) [])
    | .inl r => (s.placeFlags r).refuse n tag r.status

/-- FIELD_CMD (R172). -/
def State.fieldCmd (s : State) (n : Nat) (tag : Word) (bad : Bool) (cursor : Word) (d : Desc) (t : Stamp) (payload : List Byte) : State :=
  s.onSession n (fun s =>
    match s.reqTest n true true bad with
    | some e => s.refuse n tag e
    | none =>
      match s.fieldTest cursor d payload with
      | some e => s.refuse n tag e
      | none => s.fieldPlace n tag (getBits cursor 0 17) d payload t)
def execFieldCmd (n : Fin 16) (tag : Word) (bad : Bool) (cursor d0 d1 d2 d3 : Word) (t : Stamp) (payload : List Byte) (s : State) : Res :=
  .next (s.fieldCmd n tag bad cursor (descOf d0 d1 d2 d3) t payload)

/-- POST_EVENT: a RAW event for logical engine `l` (R566). -/
def State.postEvent (s : State) (i l kind : Nat) (p5 p6 p7 : Word) : State :=
  let room := s.intakeRoom && !s.engStopped l
  let s := s.offerEvent l ⟨kind, false, false, s.stepEpoch, 0, 0, s.now, p5, p6, p7⟩
  s.finish i (if room then fsOk else fsQueueFull) 0 []
def execPostEvent (n : Fin 16) (tag : Word) (bad : Bool) (l kind p5 p6 p7 : Word) (s : State) : Res :=
  .next (s.request n tag true true (bad || decide (kind.toNat < 0x80) || decide (0xFF < kind.toNat))
    (fun _ => if l.toNat < 16 then none else some fsBadAddress) (fun i s => s.postEvent i l.toNat kind.toNat p5 p6 p7))

/-- SET_QUOTA (R166). -/
def execSetQuota (n : Fin 16) (tag : Word) (bad : Bool) (m quota : Word) (s : State) : Res :=
  .next (s.request n tag true false bad (fun _ => if m.toNat < 16 ∧ quota.toNat ≤ 131072 then none else some fsBadAddress)
    (fun i s =>
      let prev := s.f (R.HND_SESS_QUOTA.QUOTA m.toNat)
      (s.setF (R.HND_SESS_QUOTA.QUOTA m.toNat) quota.toNat).finish i fsOk (w32 prev) []))

/-! ## Version 1 (R176) -/

/-- A version 1 response on a version 1 session. -/
def State.v1Answer (s : State) (n : Nat) (status : Nat) (body : List Byte) : State :=
  if (s.sess n).isOpen && (s.sess n).version1 then (s.modSess n (fun x => { x with pinged := false })).send (.v1 n status body) else s
/-- IDENTIFY; any other version 1 message whose opcode R176 does not name is refused (that this row carries it is a DESIGN
CHOICE, assumption 153). -/
def execIdentify (m : V1Message) (s : State) : Res :=
  .next (if m.other then s.v1Answer m.session fsReadOnly [] else s.v1Answer m.session fsOk s.info)
/-- READ_ENDPOINT. -/
def execReadEndpoint (n : Fin 16) (i : Word) (s : State) : Res :=
  .next (if i.toNat < nEndpoints then s.v1Answer n fsOk (s.fbytes (epBase i.toNat) 128) else s.v1Answer n fsBadAddress [])
/-- READ_COUNTERS. -/
def execReadCounters (n : Fin 16) (s : State) : Res := .next (s.v1Answer n fsOk s.clampData)

/-! ## The queue unit and the quotas (R166, R177–R181) -/

/-- QU_DATA_READ of an instance. -/
def execQuDataRead (u : Qu) (s : State) : Res :=
  .next (s.viaRead (quReg u) (fun s => let r := s.quDataRead u; r.2.answer r.1))
/-- DROP_PKT of an instance. -/
def execDropPkt (u : Qu) (s : State) : Res := .next (s.viaWrite (quReg u) (fun s => s.quDrop u))
/-- QU_WM_WRITE: QU_WM_HIGH, or QU_WM_LOW, of an instance is written, and the marks are compared at once (R177, R178). -/
def execQuWmWrite (u : Qu) (high : Bool) (v : Word) (s : State) : Res :=
  .next (s.viaWrite (quReg u) (fun s => s.codeWrite (quReg u).blk ((quReg u).off + if high then 0x08 else 0x0C) v))
/-- HND_QUOTA_WRITE: the quota of session `m`, or the engines' (R166). -/
def execHndQuotaWrite (m : Option (Fin 16)) (v : Word) (s : State) : Res :=
  .next (match m with
    | some n => s.codeWrite .fe (R.HND_SESS_QUOTA.reg n).off v
    | none => s.codeWrite .fe R.HND_ENG_QUOTA.reg.off v)

end Sys2Proof.Machine
end

