-- ==== Sys2Proof/Machine/Dispatch.lean ====
section
/-! DEFINITION. The command dispatch: one arm for each constructor of `Instr`. -/
namespace Sys2Proof.Machine
open Sys2Proof

def exec (i : Instr) (s : State) : Host.Outcome State Fault Refusal :=
  match i with
  | .registerWrite a v => Sys2Proof.Machine.execRegisterWrite a v s
  | .unalignedAccess a bytes store => Sys2Proof.Machine.execUnalignedAccess a bytes store s
  | .unmappedAccess a write v => Sys2Proof.Machine.execUnmappedAccess a write v s
  | .unmappedMemoryAccess core a write => Sys2Proof.Machine.execUnmappedMemoryAccess core a write s
  | .bootRomStore core a => Sys2Proof.Machine.execBootRomStore core a s
  | .rcRead a => Sys2Proof.Machine.execRcRead a s
  | .pairLowRead a => Sys2Proof.Machine.execPairLowRead a s
  | .pairHighRead a => Sys2Proof.Machine.execPairHighRead a s
  | .pairLowWrite a v => Sys2Proof.Machine.execPairLowWrite a v s
  | .pairHighWrite a v => Sys2Proof.Machine.execPairHighWrite a v s
  | .soRegisterWrite a v => Sys2Proof.Machine.execSoRegisterWrite a v s
  | .fmemWindowWrite w v => Sys2Proof.Machine.execFmemWindowWrite w v s
  | .bridgeTimeout a write => Sys2Proof.Machine.execBridgeTimeout a write s
  | .domainUp d => Sys2Proof.Machine.execDomainUp d s
  | .domainLoss d => Sys2Proof.Machine.execDomainLoss d s
  | .inputValid => Sys2Proof.Machine.execInputValid s
  | .regulatorsUp => Sys2Proof.Machine.execRegulatorsUp s
  | .bootImageSelect => Sys2Proof.Machine.execBootImageSelect s
  | .sdramTrained lost err => Sys2Proof.Machine.execSdramTrained lost err s
  | .ctrlUp puf => Sys2Proof.Machine.execCtrlUp puf s
  | .timeBaseLoad => Sys2Proof.Machine.execTimeBaseLoad s
  | .stateRestore => Sys2Proof.Machine.execStateRestore s
  | .lightRun => Sys2Proof.Machine.execLightRun s
  | .plotSelfTestDone => Sys2Proof.Machine.execPlotSelfTestDone s
  | .fwdRun => Sys2Proof.Machine.execFwdRun s
  | .engineRestart p => Sys2Proof.Machine.execEngineRestart p s
  | .hwException p k addr => Sys2Proof.Machine.execHwException p k addr s
  | .opMinIncrement x => Sys2Proof.Machine.execOpMinIncrement x s
  | .feCmdRun p => Sys2Proof.Machine.execFeCmdRun p s
  | .feCmdHalt p => Sys2Proof.Machine.execFeCmdHalt p s
  | .feCmdStep p => Sys2Proof.Machine.execFeCmdStep p s
  | .feCmdReset p => Sys2Proof.Machine.execFeCmdReset p s
  | .debugEnable p => Sys2Proof.Machine.execDebugEnable p s
  | .fePcWrite p v => Sys2Proof.Machine.execFePcWrite p v s
  | .feDbgDataWrite p v => Sys2Proof.Machine.execFeDbgDataWrite p v s
  | .feLsDataRead p => Sys2Proof.Machine.execFeLsDataRead p s
  | .feLsDataWrite p v => Sys2Proof.Machine.execFeLsDataWrite p v s
  | .breakpointHalt p => Sys2Proof.Machine.execBreakpointHalt p s
  | .feShfOpen => Sys2Proof.Machine.execFeShfOpen s
  | .feShfDataWrite data => Sys2Proof.Machine.execFeShfDataWrite data s
  | .feShfCheck => Sys2Proof.Machine.execFeShfCheck s
  | .feShfApply => Sys2Proof.Machine.execFeShfApply s
  | .feShfDiscard => Sys2Proof.Machine.execFeShfDiscard s
  | .checkComplete c => Sys2Proof.Machine.execCheckComplete c s
  | .sheafCommit c => Sys2Proof.Machine.execSheafCommit c s
  | .shadowLoadDone c => Sys2Proof.Machine.execShadowLoadDone c s
  | .sheafApplyInstant c => Sys2Proof.Machine.execSheafApplyInstant c s
  | .add p ps rd ra rb => Sys2Proof.Machine.execAdd p ps rd ra rb s
  | .sub p ps rd ra rb => Sys2Proof.Machine.execSub p ps rd ra rb s
  | .and p ps rd ra rb => Sys2Proof.Machine.execAnd p ps rd ra rb s
  | .or p ps rd ra rb => Sys2Proof.Machine.execOr p ps rd ra rb s
  | .xor p ps rd ra rb => Sys2Proof.Machine.execXor p ps rd ra rb s
  | .andn p ps rd ra rb => Sys2Proof.Machine.execAndn p ps rd ra rb s
  | .sll p ps rd ra rb => Sys2Proof.Machine.execSll p ps rd ra rb s
  | .srl p ps rd ra rb => Sys2Proof.Machine.execSrl p ps rd ra rb s
  | .sra p ps rd ra rb => Sys2Proof.Machine.execSra p ps rd ra rb s
  | .mul p ps rd ra rb => Sys2Proof.Machine.execMul p ps rd ra rb s
  | .mulh p ps rd ra rb => Sys2Proof.Machine.execMulh p ps rd ra rb s
  | .mulhu p ps rd ra rb => Sys2Proof.Machine.execMulhu p ps rd ra rb s
  | .div p ps rd ra rb => Sys2Proof.Machine.execDiv p ps rd ra rb s
  | .divu p ps rd ra rb => Sys2Proof.Machine.execDivu p ps rd ra rb s
  | .rem p ps rd ra rb => Sys2Proof.Machine.execRem p ps rd ra rb s
  | .remu p ps rd ra rb => Sys2Proof.Machine.execRemu p ps rd ra rb s
  | .min p ps rd ra rb => Sys2Proof.Machine.execMin p ps rd ra rb s
  | .max p ps rd ra rb => Sys2Proof.Machine.execMax p ps rd ra rb s
  | .minu p ps rd ra rb => Sys2Proof.Machine.execMinu p ps rd ra rb s
  | .maxu p ps rd ra rb => Sys2Proof.Machine.execMaxu p ps rd ra rb s
  | .clamp p ps rd ra rb => Sys2Proof.Machine.execClamp p ps rd ra rb s
  | .popc p ps rd ra => Sys2Proof.Machine.execPopc p ps rd ra s
  | .clz p ps rd ra => Sys2Proof.Machine.execClz p ps rd ra s
  | .ctz p ps rd ra => Sys2Proof.Machine.execCtz p ps rd ra s
  | .li p ps rd imm => Sys2Proof.Machine.execLi p ps rd imm s
  | .lis p ps rd imm => Sys2Proof.Machine.execLis p ps rd imm s
  | .addi p ps rd imm => Sys2Proof.Machine.execAddi p ps rd imm s
  | .andi p ps rd imm => Sys2Proof.Machine.execAndi p ps rd imm s
  | .ori p ps rd imm => Sys2Proof.Machine.execOri p ps rd imm s
  | .xori p ps rd imm => Sys2Proof.Machine.execXori p ps rd imm s
  | .slli p ps rd imm => Sys2Proof.Machine.execSlli p ps rd imm s
  | .srli p ps rd imm => Sys2Proof.Machine.execSrli p ps rd imm s
  | .srai p ps rd imm => Sys2Proof.Machine.execSrai p ps rd imm s
  | .muli p ps rd imm => Sys2Proof.Machine.execMuli p ps rd imm s
  | .mini p ps rd imm => Sys2Proof.Machine.execMini p ps rd imm s
  | .maxi p ps rd imm => Sys2Proof.Machine.execMaxi p ps rd imm s
  | .cmp p ps cond pd pn ra rb => Sys2Proof.Machine.execCmp p ps cond pd pn ra rb s
  | .cmpi p ps cond pd pn rd imm => Sys2Proof.Machine.execCmpi p ps cond pd pn rd imm s
  | .plogAnd p ps pd pa pb => Sys2Proof.Machine.execPlogAnd p ps pd pa pb s
  | .plogOr p ps pd pa pb => Sys2Proof.Machine.execPlogOr p ps pd pa pb s
  | .plogXor p ps pd pa pb => Sys2Proof.Machine.execPlogXor p ps pd pa pb s
  | .plogAndn p ps pd pa pb => Sys2Proof.Machine.execPlogAndn p ps pd pa pb s
  | .plogNot p ps pd pa => Sys2Proof.Machine.execPlogNot p ps pd pa s
  | .plogSet p ps pd => Sys2Proof.Machine.execPlogSet p ps pd s
  | .plogClr p ps pd => Sys2Proof.Machine.execPlogClr p ps pd s
  | .b p ps off => Sys2Proof.Machine.execB p ps off s
  | .call p ps off => Sys2Proof.Machine.execCall p ps off s
  | .ldl p ps z rd ra off => Sys2Proof.Machine.execLdl p ps z rd ra off s
  | .stl p ps z rb ra off => Sys2Proof.Machine.execStl p ps z rb ra off s
  | .ldf p ps z rd ra off => Sys2Proof.Machine.execLdf p ps z rd ra off s
  | .stf p ps z rb ra off => Sys2Proof.Machine.execStf p ps z rb ra off s
  | .lde p ps rd ec word lsb wm1 sx => Sys2Proof.Machine.execLde p ps rd ec word lsb wm1 sx s
  | .ste p ps rb ec word lsb wm1 => Sys2Proof.Machine.execSte p ps rb ec word lsb wm1 s
  | .ecur p ps ec ra => Sys2Proof.Machine.execEcur p ps ec ra s
  | .ecurG p ps ec ra => Sys2Proof.Machine.execEcurG p ps ec ra s
  | .erd p ps rd ec => Sys2Proof.Machine.execErd p ps rd ec s
  | .ldr p ps ec ra => Sys2Proof.Machine.execLdr p ps ec ra s
  | .scanRow p ps pd ec ra => Sys2Proof.Machine.execScanRow p ps pd ec ra s
  | .scanNext p ps pd ec => Sys2Proof.Machine.execScanNext p ps pd ec s
  | .scanGrp p ps pd ec ra => Sys2Proof.Machine.execScanGrp p ps pd ec ra s
  | .grpSet p ps rg ri => Sys2Proof.Machine.execGrpSet p ps rg ri s
  | .grpClr p ps rg ri => Sys2Proof.Machine.execGrpClr p ps rg ri s
  | .grpTst p ps pd rg ri => Sys2Proof.Machine.execGrpTst p ps pd rg ri s
  | .grpCnt p ps rd rg => Sys2Proof.Machine.execGrpCnt p ps rd rg s
  | .grpOr p ps rd ra rb => Sys2Proof.Machine.execGrpOr p ps rd ra rb s
  | .grpAnd p ps rd ra rb => Sys2Proof.Machine.execGrpAnd p ps rd ra rb s
  | .grpAndn p ps rd ra rb => Sys2Proof.Machine.execGrpAndn p ps rd ra rb s
  | .grpCopy p ps rd ra => Sys2Proof.Machine.execGrpCopy p ps rd ra s
  | .grpClrall p ps rd => Sys2Proof.Machine.execGrpClrall p ps rd s
  | .dimcP2c p ps rd ra => Sys2Proof.Machine.execDimcP2c p ps rd ra s
  | .dimcC2p p ps rd ra => Sys2Proof.Machine.execDimcC2p p ps rd ra s
  | .tnow p ps td => Sys2Proof.Machine.execTnow p ps td s
  | .tmov p ps td ta => Sys2Proof.Machine.execTmov p ps td ta s
  | .tadd p ps td ta ra unit => Sys2Proof.Machine.execTadd p ps td ta ra unit s
  | .tdiff p ps rd ta tb unit => Sys2Proof.Machine.execTdiff p ps rd ta tb unit s
  | .ttag p ps td ra => Sys2Proof.Machine.execTtag p ps td ra s
  | .tget p ps rd ta part => Sys2Proof.Machine.execTget p ps rd ta part s
  | .tset p ps td ra part => Sys2Proof.Machine.execTset p ps td ra part s
  | .tcmp p ps cond pd ta tb => Sys2Proof.Machine.execTcmp p ps cond pd ta tb s
  | .tld p ps td ra imm => Sys2Proof.Machine.execTld p ps td ra imm s
  | .tst p ps ta ra imm => Sys2Proof.Machine.execTst p ps ta ra imm s
  | .sun p ps ra ta => Sys2Proof.Machine.execSun p ps ra ta s
  | .wait p ps pd ra rb => Sys2Proof.Machine.execWait p ps pd ra rb s
  | .waitResume p => Sys2Proof.Machine.execWaitResume p s
  | .waitTimeout p => Sys2Proof.Machine.execWaitTimeout p s
  | .emit p ps pd rb ra ec tr => Sys2Proof.Machine.execEmit p ps pd rb ra ec tr s
  | .done p ps pd ra rb => Sys2Proof.Machine.execDone p ps pd ra rb s
  | .stg p ps pd ra rb => Sys2Proof.Machine.execStg p ps pd ra rb s
  | .chk p ps pd => Sys2Proof.Machine.execChk p ps pd s
  | .apl p ps pd ra tr => Sys2Proof.Machine.execApl p ps pd ra tr s
  | .sdrop p ps pd => Sys2Proof.Machine.execSdrop p ps pd s
  | .nop p ps => Sys2Proof.Machine.execNop p ps s
  | .fence p ps => Sys2Proof.Machine.execFence p ps s
  | .trap p ps code => Sys2Proof.Machine.execTrap p ps code s
  | .halt p ps => Sys2Proof.Machine.execHalt p ps s
  | .ret p ps => Sys2Proof.Machine.execRet p ps s
  | .jr p ps ra => Sys2Proof.Machine.execJr p ps ra s
  | .callr p ps ra => Sys2Proof.Machine.execCallr p ps ra s
  | .mfs p ps rd n => Sys2Proof.Machine.execMfs p ps rd n s
  | .mts p ps n ra => Sys2Proof.Machine.execMts p ps n ra s
  | .dout p ps ra => Sys2Proof.Machine.execDout p ps ra s
  | .replyTimeout x => Sys2Proof.Machine.execReplyTimeout x s
  | .completionDeliver x => Sys2Proof.Machine.execCompletionDeliver x s
  | .tlsHandshake m => Sys2Proof.Machine.execTlsHandshake m s
  | .hello c v1 mask => Sys2Proof.Machine.execHello c v1 mask s
  | .helloTimeout c => Sys2Proof.Machine.execHelloTimeout c s
  | .pingSend n => Sys2Proof.Machine.execPingSend n s
  | .sessionTimeout n => Sys2Proof.Machine.execSessionTimeout n s
  | .pong n => Sys2Proof.Machine.execPong n s
  | .close n malformed => Sys2Proof.Machine.execClose n malformed s
  | .sessionFree n => Sys2Proof.Machine.execSessionFree n s
  | .getInfo n tag form => Sys2Proof.Machine.execGetInfo n tag form s
  | .readRegs n tag bad a count => Sys2Proof.Machine.execReadRegs n tag bad a count s
  | .readFmem n tag bad off len => Sys2Proof.Machine.execReadFmem n tag bad off len s
  | .getCounts n tag bad sel => Sys2Proof.Machine.execGetCounts n tag bad sel s
  | .handleStatus n tag bad h => Sys2Proof.Machine.execHandleStatus n tag bad h s
  | .subscribe n tag bad mask => Sys2Proof.Machine.execSubscribe n tag bad mask s
  | .sheafOpen n tag bad => Sys2Proof.Machine.execSheafOpen n tag bad s
  | .sheafStage n tag bad es => Sys2Proof.Machine.execSheafStage n tag bad es s
  | .sheafCheck n tag bad => Sys2Proof.Machine.execSheafCheck n tag bad s
  | .sheafApply n tag bad timed t => Sys2Proof.Machine.execSheafApply n tag bad timed t s
  | .sheafDiscard n tag bad => Sys2Proof.Machine.execSheafDiscard n tag bad s
  | .fieldCmd n tag bad cursor d0 d1 d2 d3 t payload => Sys2Proof.Machine.execFieldCmd n tag bad cursor d0 d1 d2 d3 t payload s
  | .postEvent n tag bad l kind p5 p6 p7 => Sys2Proof.Machine.execPostEvent n tag bad l kind p5 p6 p7 s
  | .setQuota n tag bad m quota => Sys2Proof.Machine.execSetQuota n tag bad m quota s
  | .identify m => Sys2Proof.Machine.execIdentify m s
  | .readEndpoint n x => Sys2Proof.Machine.execReadEndpoint n x s
  | .readCounters n => Sys2Proof.Machine.execReadCounters n s
  | .eventCountAlarm n taken => Sys2Proof.Machine.execEventCountAlarm n taken s
  | .quDataRead u => Sys2Proof.Machine.execQuDataRead u s
  | .dropPkt u => Sys2Proof.Machine.execDropPkt u s
  | .quWmWrite u high v => Sys2Proof.Machine.execQuWmWrite u high v s
  | .hndQuotaWrite m v => Sys2Proof.Machine.execHndQuotaWrite m v s
  | .holdReportsLaunch => Sys2Proof.Machine.execHoldReportsLaunch s
  | .spreadEnd => Sys2Proof.Machine.execSpreadEnd s
  | .recoveryPoll => Sys2Proof.Machine.execRecoveryPoll s
  | .stormDisable spread => Sys2Proof.Machine.execStormDisable spread s
  | .frameIngress x f => Sys2Proof.Machine.execFrameIngress x f s
  | .frameCross p => Sys2Proof.Machine.execFrameCross p s
  | .frameReassemble p e c q => Sys2Proof.Machine.execFrameReassemble p e c q s
  | .seqGapTimeout p e c => Sys2Proof.Machine.execSeqGapTimeout p e c s
  | .frameTransmit n begun => Sys2Proof.Machine.execFrameTransmit n begun s
  | .planeTimeout k begun => Sys2Proof.Machine.execPlaneTimeout k begun s
  | .planeJoin k => Sys2Proof.Machine.execPlaneJoin k s
  | .fdbAgeOut vid m => Sys2Proof.Machine.execFdbAgeOut vid m s
  | .fdbRead => Sys2Proof.Machine.execFdbRead s
  | .fdbWriteStatic => Sys2Proof.Machine.execFdbWriteStatic s
  | .fdbDelete => Sys2Proof.Machine.execFdbDelete s
  | .fdbFlushPort => Sys2Proof.Machine.execFdbFlushPort s
  | .fdbFlushVlan => Sys2Proof.Machine.execFdbFlushVlan s
  | .fdbFlushAll => Sys2Proof.Machine.execFdbFlushAll s
  | .fdbCommandDone => Sys2Proof.Machine.execFdbCommandDone s
  | .speedMeasure p k n => Sys2Proof.Machine.execSpeedMeasure p k n s
  | .vloopEvaluate => Sys2Proof.Machine.execVloopEvaluate s
  | .acctQuotaWrite p a v => Sys2Proof.Machine.execAcctQuotaWrite p a v s
  | .residueAppend n => Sys2Proof.Machine.execResidueAppend n s
  | .residueTimeout n => Sys2Proof.Machine.execResidueTimeout n s
  | .sownAppend p e c => Sys2Proof.Machine.execSownAppend p e c s
  | .gleanerPass p tags unlisted listed => Sys2Proof.Machine.execGleanerPass p tags unlisted listed s
  | .leakWindowExpire p => Sys2Proof.Machine.execLeakWindowExpire p s
  | .linkUp n => Sys2Proof.Machine.execLinkUp n s
  | .linkDown n x => Sys2Proof.Machine.execLinkDown n x s
  | .opticsRefresh n bias pwr temp => Sys2Proof.Machine.execOpticsRefresh n bias pwr temp s
  | .degradeWindow n corr uncorr sym => Sys2Proof.Machine.execDegradeWindow n corr uncorr sym s
  | .ringFrameReceive n f => Sys2Proof.Machine.execRingFrameReceive n f s
  | .ddEntryExpire k m q => Sys2Proof.Machine.execDdEntryExpire k m q s
  | .ddSourceExpire k m => Sys2Proof.Machine.execDdSourceExpire k m s
  | .supervisionSend k len => Sys2Proof.Machine.execSupervisionSend k len s
  | .supervisionReceive n f => Sys2Proof.Machine.execSupervisionReceive n f s
  | .viaTimeout k j a => Sys2Proof.Machine.execViaTimeout k j a s
  | .oneSidedEntry k m q => Sys2Proof.Machine.execOneSidedEntry k m q s
  | .ringEventFrame n f => Sys2Proof.Machine.execRingEventFrame n f s
  | .ringReplyFrame n f => Sys2Proof.Machine.execRingReplyFrame n f s
  | .ringJoinFrame n src vid b => Sys2Proof.Machine.execRingJoinFrame n src vid b s
  | .timeNowRead => Sys2Proof.Machine.execTimeNowRead s
  | .ppsInRead => Sys2Proof.Machine.execPpsInRead s
  | .timeIncrWrite v => Sys2Proof.Machine.execTimeIncrWrite v s
  | .timeCmdSet => Sys2Proof.Machine.execTimeCmdSet s
  | .timeCmdStep => Sys2Proof.Machine.execTimeCmdStep s
  | .timeCmdSlew => Sys2Proof.Machine.execTimeCmdSlew s
  | .timeCmdSlewStop => Sys2Proof.Machine.execTimeCmdSlewStop s
  | .slewDone => Sys2Proof.Machine.execSlewDone s
  | .syncInterval src off utc => Sys2Proof.Machine.execSyncInterval src off utc s
  | .sourceLost => Sys2Proof.Machine.execSourceLost s
  | .esmcReceive n ql => Sys2Proof.Machine.execEsmcReceive n ql s
  | .synceHoldOff x => Sys2Proof.Machine.execSynceHoldOff x s
  | .synceWaitToRestore x => Sys2Proof.Machine.execSynceWaitToRestore x s
  | .ppsInEdge => Sys2Proof.Machine.execPpsInEdge s
  | .todMessage l => Sys2Proof.Machine.execTodMessage l s
  | .ppsInMiss => Sys2Proof.Machine.execPpsInMiss s
  | .ppsOut => Sys2Proof.Machine.execPpsOut s
  | .tsDataRead p => Sys2Proof.Machine.execTsDataRead p s
  | .calendarFetch n => Sys2Proof.Machine.execCalendarFetch n s
  | .copyArrive n k => Sys2Proof.Machine.execCopyArrive n k s
  | .copyLaunch n k => Sys2Proof.Machine.execCopyLaunch n k s
  | .nodeDelayRefresh k j a b => Sys2Proof.Machine.execNodeDelayRefresh k j a b s
  | .cellEccError p bank row uncorr hit => Sys2Proof.Machine.execCellEccError p bank row uncorr hit s
  | .laserFault e lane => Sys2Proof.Machine.execLaserFault e lane s
  | .flashError b => Sys2Proof.Machine.execFlashError b s
  | .phaseFault n => Sys2Proof.Machine.execPhaseFault n s
  | .queueParityError p => Sys2Proof.Machine.execQueueParityError p s
  | .harrowPassDone cls el lost => Sys2Proof.Machine.execHarrowPassDone cls el lost s
  | .fallowHarrow => Sys2Proof.Machine.execFallowHarrow s
  | .bootLeaseTimeout => Sys2Proof.Machine.execBootLeaseTimeout s
  | .leaseTimeout => Sys2Proof.Machine.execLeaseTimeout s
  | .claimComplete => Sys2Proof.Machine.execClaimComplete s
  | .fenceEnd => Sys2Proof.Machine.execFenceEnd s
  | .leaseSend => Sys2Proof.Machine.execLeaseSend s
  | .echoSend => Sys2Proof.Machine.execEchoSend s
  | .lease h t => Sys2Proof.Machine.execLease h t s
  | .echo e q => Sys2Proof.Machine.execEcho e q s
  | .leaseFence => Sys2Proof.Machine.execLeaseFence s
  | .epochFence e claim => Sys2Proof.Machine.execEpochFence e claim s
  | .ckptDelta => Sys2Proof.Machine.execCkptDelta s
  | .ckptSnapshot => Sys2Proof.Machine.execCkptSnapshot s
  | .ckpt e q fmt x => Sys2Proof.Machine.execCkpt e q fmt x s
  | .ckptAck e q => Sys2Proof.Machine.execCkptAck e q s
  | .ckptStale => Sys2Proof.Machine.execCkptStale s
  | .beaconSend x => Sys2Proof.Machine.execBeaconSend x s
  | .supplyWarning pfw inLow => Sys2Proof.Machine.execSupplyWarning pfw inLow s
  | .rstCmdControl => Sys2Proof.Machine.execRstCmdControl s
  | .rstCmdFull => Sys2Proof.Machine.execRstCmdFull s
  | .rstCmdShutdown inTime => Sys2Proof.Machine.execRstCmdShutdown inTime s
  | .wdogKick v => Sys2Proof.Machine.execWdogKick v s
  | .wdogExpire => Sys2Proof.Machine.execWdogExpire s
  | .wdogWindowEnd => Sys2Proof.Machine.execWdogWindowEnd s
  | .cellRemoved => Sys2Proof.Machine.execCellRemoved s
  | .cellInserted => Sys2Proof.Machine.execCellInserted s
  | .cellDisconnect => Sys2Proof.Machine.execCellDisconnect s
  | .chargeStart => Sys2Proof.Machine.execChargeStart s
  | .chargeCv => Sys2Proof.Machine.execChargeCv s
  | .chargeEnd => Sys2Proof.Machine.execChargeEnd s
  | .chgTemp => Sys2Proof.Machine.execChgTemp s
  | .chgTempResume => Sys2Proof.Machine.execChgTempResume s
  | .cellEmpty => Sys2Proof.Machine.execCellEmpty s
  | .cellAtRest mv => Sys2Proof.Machine.execCellAtRest mv s
  | .gaugeCapWrite cap => Sys2Proof.Machine.execGaugeCapWrite cap s
  | .presenceChange slotB partner => Sys2Proof.Machine.execPresenceChange slotB partner s
  | .baseTemp t => Sys2Proof.Machine.execBaseTemp t s
  | .meterSample raw => Sys2Proof.Machine.execMeterSample raw s
  | .meterWindowEnd b => Sys2Proof.Machine.execMeterWindowEnd b s
  | .noMains v => Sys2Proof.Machine.execNoMains v s
  | .surge c => Sys2Proof.Machine.execSurge c s
  | .collapse b => Sys2Proof.Machine.execCollapse b s
  | .totalsSave => Sys2Proof.Machine.execTotalsSave s
  | .saveNow => Sys2Proof.Machine.execSaveNow s
  | .clear => Sys2Proof.Machine.execClear s
  | .arm => Sys2Proof.Machine.execArm s
  | .armSurge => Sys2Proof.Machine.execArmSurge s
  | .abort => Sys2Proof.Machine.execAbort s
  | .captureStart => Sys2Proof.Machine.execCaptureStart s
  | .captureStop => Sys2Proof.Machine.execCaptureStop s
  | .estimatePeriodEnd => Sys2Proof.Machine.execEstimatePeriodEnd s
  | .estDone => Sys2Proof.Machine.execEstDone s
  | .hopSlot j => Sys2Proof.Machine.execHopSlot j s
  | .scatterEvent j rssi psdu => Sys2Proof.Machine.execScatterEvent j rssi psdu s
  | .scatterReply j rssi psdu => Sys2Proof.Machine.execScatterReply j rssi psdu s
  | .scatterWake j rssi psdu => Sys2Proof.Machine.execScatterWake j rssi psdu s
  | .scatterJoin j rssi psdu => Sys2Proof.Machine.execScatterJoin j rssi psdu s
  | .lbtMeasureEnd j mean => Sys2Proof.Machine.execLbtMeasureEnd j mean s
  | .lbtBackoffEnd j => Sys2Proof.Machine.execLbtBackoffEnd j s
  | .radioTxEnd j => Sys2Proof.Machine.execRadioTxEnd j s
  | .repGapExpire j => Sys2Proof.Machine.execRepGapExpire j s
  | .dutyWaitEnd j => Sys2Proof.Machine.execDutyWaitEnd j s
  | .dutyDrop j => Sys2Proof.Machine.execDutyDrop j s
  | .urgentSlot j => Sys2Proof.Machine.execUrgentSlot j s
  | .scatterBeacon j => Sys2Proof.Machine.execScatterBeacon j s
  | .captureLost j a b => Sys2Proof.Machine.execCaptureLost j a b s
  | .canFieldEvent c f stamp => Sys2Proof.Machine.execCanFieldEvent c f stamp s
  | .canFieldReply c f stamp => Sys2Proof.Machine.execCanFieldReply c f stamp s
  | .canFirmwareFrame c f stamp => Sys2Proof.Machine.execCanFirmwareFrame c f stamp s
  | .canTxAttempt c o => Sys2Proof.Machine.execCanTxAttempt c o s
  | .busOff c => Sys2Proof.Machine.execBusOff c s
  | .canTxExpire c => Sys2Proof.Machine.execCanTxExpire c s
  | .recover c => Sys2Proof.Machine.execRecover c s
  | .snap c cnt => Sys2Proof.Machine.execSnap c cnt s
  | .abortTx c => Sys2Proof.Machine.execAbortTx c s
  | .canSnapshot cnt => Sys2Proof.Machine.execCanSnapshot cnt s
  | .snapCntRead c => Sys2Proof.Machine.execSnapCntRead c s
  | .txRequest c b => Sys2Proof.Machine.execTxRequest c b s
  | .txAbort c b attempt => Sys2Proof.Machine.execTxAbort c b attempt s
  | .mailboxLock c m => Sys2Proof.Machine.execMailboxLock c m s
  | .mailboxRelease c m => Sys2Proof.Machine.execMailboxRelease c m s
  | .bulkAck c n => Sys2Proof.Machine.execBulkAck c n s
  | .dioInputAccept chans vals => Sys2Proof.Machine.execDioInputAccept chans vals s
  | .overload n => Sys2Proof.Machine.execOverload n s
  | .overloadRetry n => Sys2Proof.Machine.execOverloadRetry n s
  | .overTemp n => Sys2Proof.Machine.execOverTemp n s
  | .overTempClear n => Sys2Proof.Machine.execOverTempClear n s
  | .openWire n => Sys2Proof.Machine.execOpenWire n s
  | .openWireClear n => Sys2Proof.Machine.execOpenWireClear n s
  | .bankLow b => Sys2Proof.Machine.execBankLow b s
  | .bankLowClear b => Sys2Proof.Machine.execBankLowClear b s
  | .pwmPeriodStart j vout iout => Sys2Proof.Machine.execPwmPeriodStart j vout iout s
  | .headroom j mv => Sys2Proof.Machine.execHeadroom j mv s
  | .headroomClear j => Sys2Proof.Machine.execHeadroomClear j s
  | .underCurrent j ma => Sys2Proof.Machine.execUnderCurrent j ma s
  | .underCurrentClear j => Sys2Proof.Machine.execUnderCurrentClear j s
  | .stringOpen j => Sys2Proof.Machine.execStringOpen j s
  | .stringShort j => Sys2Proof.Machine.execStringShort j s
  | .refreshFrame n => Sys2Proof.Machine.execRefreshFrame n s
  | .frameShifted n ret => Sys2Proof.Machine.execFrameShifted n ret s
  | .chainLatch n => Sys2Proof.Machine.execChainLatch n s
  | .rtcSecond => Sys2Proof.Machine.execRtcSecond s
  | .rtcTimeWrite v => Sys2Proof.Machine.execRtcTimeWrite v s
  | .rtcDateWrite v => Sys2Proof.Machine.execRtcDateWrite v s
  | .rtcTimeRead => Sys2Proof.Machine.execRtcTimeRead s
  | .rtcAlarmWrite a ctl v => Sys2Proof.Machine.execRtcAlarmWrite a ctl v s
  | .oscFail => Sys2Proof.Machine.execOscFail s
  | .rtcTempRead t => Sys2Proof.Machine.execRtcTempRead t s
  | .compWindow => Sys2Proof.Machine.execCompWindow s
  | .align => Sys2Proof.Machine.execAlign s
  | .alignExecute => Sys2Proof.Machine.execAlignExecute s
  | .recordAccept => Sys2Proof.Machine.execRecordAccept s
  | .flushDone => Sys2Proof.Machine.execFlushDone s
  | .recFlush => Sys2Proof.Machine.execRecFlush s
  | .recSelect bad => Sys2Proof.Machine.execRecSelect bad s
  | .recCopy bad => Sys2Proof.Machine.execRecCopy bad s
  | .copyDone => Sys2Proof.Machine.execCopyDone s
  | .appRecord v => Sys2Proof.Machine.execAppRecord v s
  | .logErase => Sys2Proof.Machine.execLogErase s
  | .ledgerWriteDone => Sys2Proof.Machine.execLedgerWriteDone s
  | .ledgerDataRead err => Sys2Proof.Machine.execLedgerDataRead err s
  | .opMsSave => Sys2Proof.Machine.execOpMsSave s
  | .sign a b => Sys2Proof.Machine.execSign a b s
  | .keyVerify a b => Sys2Proof.Machine.execKeyVerify a b s
  | .ecdh a b => Sys2Proof.Machine.execEcdh a b s
  | .gcmEncrypt a b => Sys2Proof.Machine.execGcmEncrypt a b s
  | .gcmDecrypt a b => Sys2Proof.Machine.execGcmDecrypt a b s
  | .ccmEncrypt a b => Sys2Proof.Machine.execCcmEncrypt a b s
  | .ccmDecrypt a b => Sys2Proof.Machine.execCcmDecrypt a b s
  | .sha256 a b => Sys2Proof.Machine.execSha256 a b s
  | .sha384 a b => Sys2Proof.Machine.execSha384 a b s
  | .hmacSha256 a b => Sys2Proof.Machine.execHmacSha256 a b s
  | .random a b => Sys2Proof.Machine.execRandom a b s
  | .derive a b => Sys2Proof.Machine.execDerive a b s
  | .generate a b => Sys2Proof.Machine.execGenerate a b s
  | .importPub a b => Sys2Proof.Machine.execImportPub a b s
  | .importWrapped a b => Sys2Proof.Machine.execImportWrapped a b s
  | .destroy a b => Sys2Proof.Machine.execDestroy a b s
  | .replVerify a b => Sys2Proof.Machine.execReplVerify a b s
  | .replCommit a b => Sys2Proof.Machine.execReplCommit a b s
  | .replAbort a b => Sys2Proof.Machine.execReplAbort a b s
  | .mbExtend a b => Sys2Proof.Machine.execMbExtend a b s
  | .attest a b => Sys2Proof.Machine.execAttest a b s
  | .keyUndefinedOp code a b => Sys2Proof.Machine.execKeyUndefinedOp code a b s
  | .keyOpDone => Sys2Proof.Machine.execKeyOpDone s
  | .requestNonce => Sys2Proof.Machine.execRequestNonce s
  | .transition => Sys2Proof.Machine.execTransition s
  | .transitionComplete => Sys2Proof.Machine.execTransitionComplete s
  | .tamper sources => Sys2Proof.Machine.execTamper sources s
  | .zeroiseClear => Sys2Proof.Machine.execZeroiseClear s
  | .entropyFail test => Sys2Proof.Machine.execEntropyFail test s
  | .entropyRecover => Sys2Proof.Machine.execEntropyRecover s
  | .imageService h bytes => Sys2Proof.Machine.execImageService h bytes s
  | .uartCharacter samples => Sys2Proof.Machine.execUartCharacter samples s
  | .uartBreak => Sys2Proof.Machine.execUartBreak s
  | .uartTxdata ch => Sys2Proof.Machine.execUartTxdata ch s
  | .uartTxCharacter cts => Sys2Proof.Machine.execUartTxCharacter cts s
  | .imgOpen => Sys2Proof.Machine.execImgOpen s
  | .imgWrite => Sys2Proof.Machine.execImgWrite s
  | .imgWriteDone => Sys2Proof.Machine.execImgWriteDone s
  | .imgVerify => Sys2Proof.Machine.execImgVerify s
  | .imgVerifyDone => Sys2Proof.Machine.execImgVerifyDone s
  | .schedule => Sys2Proof.Machine.execSchedule s
  | .force => Sys2Proof.Machine.execForce s
  | .cancel => Sys2Proof.Machine.execCancel s
  | .imgAbort => Sys2Proof.Machine.execImgAbort s
  | .activation => Sys2Proof.Machine.execActivation s
  | .actDeferredCheck => Sys2Proof.Machine.execActDeferredCheck s
  | .actConfirm v => Sys2Proof.Machine.execActConfirm v s
  | .actRollback => Sys2Proof.Machine.execActRollback s
  | .recovery brk => Sys2Proof.Machine.execRecovery brk s
  | .recoveryBanner => Sys2Proof.Machine.execRecoveryBanner s
  | .recoveryImage bytes => Sys2Proof.Machine.execRecoveryImage bytes s
  | .recoveryReset => Sys2Proof.Machine.execRecoveryReset s
  | .efwStart => Sys2Proof.Machine.execEfwStart s
  | .efwStop => Sys2Proof.Machine.execEfwStop s
  | .efwBlockSend radio => Sys2Proof.Machine.execEfwBlockSend radio s
  | .efwActivate => Sys2Proof.Machine.execEfwActivate s
  | .sdramTrainingLoss => Sys2Proof.Machine.execSdramTrainingLoss s
  | .receiverAligned n x => Sys2Proof.Machine.execReceiverAligned n x s
  | .tokenParityError k begun => Sys2Proof.Machine.execTokenParityError k begun s
  | .canErrorFrame c lec eight => Sys2Proof.Machine.execCanErrorFrame c lec eight s
  | .protocolException c => Sys2Proof.Machine.execProtocolException c s
  | .busOffRecoveryDone c => Sys2Proof.Machine.execBusOffRecoveryDone c s
  | .svcLinkUp mdix => Sys2Proof.Machine.execSvcLinkUp mdix s
  | .svcLinkDown => Sys2Proof.Machine.execSvcLinkDown s
  | .scatterRxBad j => Sys2Proof.Machine.execScatterRxBad j s
  | .cellEmptyClear => Sys2Proof.Machine.execCellEmptyClear s

end Sys2Proof.Machine
end

