-- ==== Sys2Proof/Machine/Idle.lean ====
section
/-! DEFINITION. What passes while no command waits: one tick (R285). -/
namespace Sys2Proof.Machine
open Sys2Proof

/-- One tick of D2, while its clock runs (DESIGN CHOICE, assumption 1); without it operating time counts alone. -/
def State.idle (s : State) : State := if s.clockOn 2 then s.pass 1 else (s.countTicks 1).ticked

end Sys2Proof.Machine
end

