-- ==== Sys2Proof/Machine/Ozdon.lean ====
section
/-! DEFINITION. The Ozdon lighting library (R132–R158): what its routines do between one WAIT and the next, with the corridors and the
pending work that it keeps in its private table. The library is a program of the engines, so no command of the table calls these
functions: a program image does, instruction by instruction. They act on the module through the field memory and EMIT alone. -/
namespace Sys2Proof.Machine
open Sys2Proof

/-! ## Library state (R133, R135, R136, R153) -/

def ROW.CLO_F0 : RF := ⟨0x20, 20, 8⟩
def ROW.NB_RAISE : RF := ⟨0x20, 10, 10⟩
def ROW.CRD_LEVEL : RF := ⟨0x20, 0, 10⟩
def ROW.CLO_LIFE : RF := ⟨0x24, 0, 16⟩
def ROW.DUE_LO : RF := ⟨0x28, 0, 32⟩
def ROW.DUE_HI : RF := ⟨0x2C, 0, 32⟩
/-- Traffic threshold `k`. -/
def ROW.Q (k : Nat) : RF := ⟨0x30 + 4 * (k / 2), 16 * (k % 2), 16⟩
/-- Adaptive code `k`; the highest step uses A3. -/
def ROW.A (k : Nat) : RF := if 3 ≤ k then ⟨0x3C, 0, 10⟩ else ⟨0x38, 10 * k, 10⟩
def EP.DOWN_PLACED : RF := ⟨0x60, 30, 1⟩
def EP.HELD : RF := ⟨0x60, 10, 10⟩
def EP.SCHED : RF := ⟨0x60, 0, 10⟩
def EP.HOLD_LO : RF := ⟨0x64, 0, 32⟩
def EP.HOLD_HI : RF := ⟨0x68, 0, 32⟩
def EP.DL_VALID : RF := ⟨0x6C, 31, 1⟩
def EP.DL_SENSOR : RF := ⟨0x6C, 0, 17⟩
def EP.E_TARGET : RF := ⟨0x60, 16, 16⟩
def EP.E_FULL : RF := ⟨0x60, 0, 16⟩
def EP.D : RF := ⟨0x64, 16, 10⟩
def EP.K_DAY : RF := ⟨0x64, 0, 16⟩
def EP.DL_GROUP : RF := ⟨0x68, 0, 9⟩
/-- Junction link `j` at the end end, or the start end, of a row (R52). -/
def ROW.LINK (atEnd : Bool) (j : Nat) : RF := ⟨(if atEnd then 0xA0 else 0x80) + 4 * j, 0, 32⟩
def ROW.TURN (atEnd : Bool) (j : Nat) : RF := ⟨(if atEnd then 0xA0 else 0x80) + 4 * j, 0, 8⟩

/-- A corridor (R139–R148). Instants are ns of the time base, as HOLD counts them. `up`: it runs towards increasing position.
`conf`: the confirming sensor with t_conf and tol. `placed`: members already placed. A child names its parent and its link. -/
structure Corridor where
  id : Nat
  eng : Nat
  row : Nat
  up : Bool
  x0 : Nat
  t0 : Int
  v : Nat
  ext : Nat
  level : Nat
  conf : Option (Nat × Int × Int)
  placed : List Nat
  parent : Option Nat
  link : Option (Nat × Bool × Nat)
  deriving DecidableEq, Repr

/-- A command that EMIT refused, with its launch instant (R134). -/
structure Retry where
  eng : Nat
  ep : Nat
  level : Nat
  ramp : Nat
  instant : Int
  deriving DecidableEq, Repr

/-- The library's private state: the offset in field memory of the area of logical engine 0, corridors, the next corridor number,
retries, the traffic step of each row, daylight sensors whose reading is invalid. -/
structure Lib where
  base : Nat
  cors : List Corridor
  nextId : Nat
  retries : List Retry
  steps : Store Nat
  lapsed : List Nat
  deriving DecidableEq, Repr

/-- The library with the module it runs on. -/
structure Oz where
  lib : Lib
  s : State
  deriving DecidableEq, Repr

def Oz.modS (x : Oz) (f : State → State) : Oz := { x with s := f x.s }
def Oz.modLib (x : Oz) (f : Lib → Lib) : Oz := { x with lib := f x.lib }
def foldOz {α : Type} (l : List α) (f : α → Oz → Oz) (x : Oz) : Oz := l.foldl (fun x a => f a x) x

/-- The area of logical engine `l` in shared program data (R133). -/
def Oz.area (x : Oz) (l : Nat) : Nat := x.lib.base + l * 0x40000

/-- Header counter `k` of engine `l`: STARTED, CONFIRMED, CANCELLED, FULL, LATE, REFUSED (R133). -/
def Oz.count (x : Oz) (l k : Nat) : Oz :=
  let a := x.area l + 4 * k
  x.modS (fun s => s.setFWord a (w32 (satInc 0xFFFFFFFF (s.fword a).toNat)))

/-- The time base in ns. -/
def State.nowNs (s : State) : Int := ((s.time.now / 4294967296 : Nat) : Int)
/-- A time value in ns. -/
def stampNsOf (t : Stamp) : Int := ((stampSec t * nsPerS + stampNs t : Nat) : Int)
/-- The time value of an instant in ns. -/
def nsStamp (n : Int) : Stamp := mkStamp (n.toNat / nsPerS) (n.toNat % nsPerS) 0
def State.hold (s : State) (i : Nat) : Int := ((s.ep i EP.HOLD_LO + s.ep i EP.HOLD_HI * 4294967296 : Nat) : Int)
def State.setHold (s : State) (i : Nat) (n : Int) : State :=
  (s.setEp i EP.HOLD_LO (n.toNat % 4294967296)).setEp i EP.HOLD_HI (n.toNat / 4294967296)
def msNs : Int := 1000000

/-- A luminaire or a string stage (R133). -/
def State.isLum (s : State) (i : Nat) : Bool := s.epValid i && (s.ep i EP.TYPE == 0 || s.ep i EP.TYPE == 6)
/-- The luminaire members of a row in NEXT order. -/
def State.lums (s : State) (r : Nat) : List Nat := (s.rowMembers r).filter s.isLum
/-- The logical engine that serves a row: that of its members (rule 0x0A of R74); a row without members has none. -/
def State.rowEng (s : State) (r : Nat) : Option Nat := (s.rowMembers r).head?.map (fun i => s.ep i EP.ENG)
/-- The rows that logical engine `l` serves. -/
def State.rowsOf (s : State) (l : Nat) : List Nat := s.validRows.filter (fun r => s.rowEng r == some l)
/-- The library of logical engine `l` places commands for luminaires that are members of a row which `l` serves (R133). -/
def State.serves (s : State) (l i : Nat) : Bool := s.isLum i && s.ep i EP.ON_ROW == 1 && s.ep i EP.ENG == l

/-! ## Composing a level (R137, R138, R155) -/

/-- Whether the reading of a daylight sensor is valid (R154). -/
def State.dayValid (s : State) (d : Nat) : Bool := decide (s.nowNs - stampNsOf (s.epStamp d EP.LAST_SEEN) < 300 * (nsPerS : Int))

/-- The constant-light code of c3 for endpoint `i` on row `r` (R155). -/
def State.constLight (s : State) (i r c3 : Nat) : Nat :=
  let h := s.ep i EP.OP_MIN / 60
  let life := s.row r ROW.CLO_LIFE * 100
  let f0 := s.row r ROW.CLO_F0 * 10
  let f : Int := (f0 : Int) + (1000 - (f0 : Int)) * (min h life : Nat) / (life : Int)
  dimP2c ((dimL c3 : Int) * f / 1000)

/-- c5 of R137 with the corridor code `cH`. -/
def Oz.compose (x : Oz) (i cH : Nat) : Nat :=
  let s := x.s
  let r := s.ep i EP.ROW
  let onRow := s.ep i EP.ON_ROW == 1
  let sched := s.ep i EP.SCHED
  let cB := if onRow && s.row r (ROW.A 0) != 0 && sched != 0 then s.row r (ROW.A (sget natZero x.lib.steps r)) else sched
  let c1 := max cB cH
  let d := s.ep i EP.DL_SENSOR
  let c2 := if s.ep i EP.DL_VALID == 1 && s.ep d EP.E_FULL != 0 && s.dayValid d then min c1 (s.ep d EP.D) else c1
  let c3 := if s.ep i EP.NEIGH_COMP == 1 && onRow && c2 != 0 then min (c2 + s.row r ROW.NB_RAISE) 1023 else c2
  let c4 := if onRow && s.row r ROW.CLO_F0 != 0 && s.row r ROW.CLO_LIFE != 0 && c3 != 0 then s.constLight i r c3 else c3
  if s.ep i EP.FAILED == 1 then 0 else c4
/-- c_H of R137. -/
def State.heldNow (s : State) (i : Nat) : Nat := if s.nowNs < s.hold i then s.ep i EP.HELD else 0

/-- The descriptor of a library command. -/
def libDesc (immediate : Bool) (level ramp : Nat) : Desc :=
  ⟨ccSetLevel, 0, immediate, false, false, level, min ramp 65535, 0, 0, 0, false⟩

/-- EMIT of SET_LEVEL for endpoint `i` by engine `l`, at an instant or at once; `due` is the command's own launch instant,
by which a refused one is tried again (R128, R129, R134). -/
def Oz.emitDue (x : Oz) (l i c5 ramp : Nat) (instant : Option Int) (due : Int) : Oz :=
  let level := x.s.clampLevel i c5
  match x.s.place (.engine l) i level (libDesc instant.isNone c5 ramp) [] (nsStamp (instant.getD x.s.nowNs)) with
  | .inr (_, s') => { x with s := s'.noteClamp l i (level != c5) }
  | .inl .fenced => x
  | .inl .far => x
  | .inl r =>
    ((x.modS (fun s => s.placeFlags r)).count l 5).modLib (fun b => { b with retries := b.retries ++ [⟨l, i, c5, ramp, due⟩] })
/-- EMIT whose launch instant is its own. -/
def Oz.emit (x : Oz) (l i c5 ramp : Nat) (instant : Option Int) : Oz := x.emitDue l i c5 ramp instant (instant.getD x.s.nowNs)

/-- Compose endpoint `i` with `cH` and emit when c_out differs from the target `tgt` (R133, R138). -/
def Oz.placeOver (x : Oz) (tgt l i cH ramp : Nat) (instant : Option Int) : Oz :=
  let c5 := x.compose i cH
  if x.s.serves l i && x.s.clampLevel i c5 != tgt then x.emit l i c5 ramp instant else x
/-- Compose endpoint `i` with `cH` and emit when c_out differs from TGT. -/
def Oz.place (x : Oz) (l i cH ramp : Nat) (instant : Option Int) : Oz := x.placeOver (x.s.ep i EP.TGT) l i cH ramp instant
/-- RAMP_T of the row of endpoint `i`. -/
def State.rampOf (s : State) (i : Nat) : Nat := if s.ep i EP.ON_ROW = 1 then s.row (s.ep i EP.ROW) ROW.RAMP_T else 0
/-- Compose and emit at once with the row's ramp. -/
def Oz.recompose (x : Oz) (l i : Nat) : Oz := x.place l i (x.s.heldNow i) (x.s.rampOf i) none

/-- The schedule code of luminaire `i`, and its composition (R132). -/
def Oz.setBase (x : Oz) (l i code ramp : Nat) : Oz :=
  let x := x.modS (fun s => s.setEp i EP.SCHED code)
  x.place l i (x.s.heldNow i) ramp none

/-! ## Corridors (R139–R148) -/

/-- Δ(δ) in ns: whole µs (R141). -/
def travelNs (d v : Nat) : Int := (10000000 * d / v : Nat) * 1000
/-- The signed distance of position `p` ahead of a corridor's origin. -/
def ahead (up : Bool) (x0 p : Nat) : Int := if up then (p : Int) - x0 else (x0 : Int) - p

/-- Place a covered luminaire's dim-up, against the target `tgt` (R143). LATE counts when t_on has passed, be the composed
code the target or not; a luminaire for which `merge` asks no dim-up is not counted (DESIGN CHOICE, assumption 163). -/
def Oz.dimUp (x : Oz) (l i : Nat) (tOn tL : Int) (tgt cH : Nat) : Oz :=
  let now := x.s.nowNs
  let ramp := x.s.rampOf i
  if now < tL then x.placeOver tgt l i cH ramp (some tL)
  else
    let x := if tOn ≤ now then x.count l 4 else x
    x.placeOver tgt l i cH (min ramp ((tOn - now) / msNs).toNat) none

/-- Merge a request for level `ck` until `tHold` into luminaire `i`, and place its dim-up with `up`, which takes the target
that the composed code is held against and HELD' (R144). The re-assertion after a placed dim-down and the dim-up beside it
are both held against the target that stood before them. -/
def Oz.merge (x : Oz) (l i ck : Nat) (tHold : Int) (up : Nat → Nat → Oz → Oz) : Oz :=
  let tgt := x.s.ep i EP.TGT
  let heldA := x.s.heldNow i
  let old := x.s.hold i
  let held := max heldA ck
  let hold := if old < tHold then tHold else old
  let down := x.s.ep i EP.DOWN_PLACED
  let x := x.modS (fun s => (s.setEp i EP.HELD held).setHold i hold)
  if down = 0 then up tgt held x
  else if old < hold then
    let x := (x.placeOver tgt l i held 0 (some (old + msNs))).modS (fun s => s.setEp i EP.DOWN_PLACED 0)
    if heldA < ck then up tgt held x else x
  else x

/-- The instants of a covered luminaire at distance `d`: t_on, t_L and t_hold (R142). -/
def Corridor.instants (c : Corridor) (s : State) (d : Nat) : Int × Int × Int :=
  let arr := c.t0 + travelNs d c.v
  let on := arr - s.row c.row ROW.LEAD_T * msNs
  (on, on - s.row c.row ROW.RAMP_T * msNs, arr + s.row c.row ROW.TRAIL_T * 100 * msNs)
/-- The luminaires that a corridor covers (R141). -/
def Corridor.covered (c : Corridor) (s : State) : List Nat :=
  (s.lums c.row).filter (fun i => let d := ahead c.up c.x0 (s.ep i EP.POS); decide (0 ≤ d ∧ d ≤ c.ext))

/-- Place what is due of corridor `c`: members whose t_L is at most 250 ms ahead (R143). -/
def Oz.serve (x : Oz) (c : Corridor) : Oz :=
  let due := (c.covered x.s).filter (fun i =>
    !c.placed.contains i && decide ((c.instants x.s (ahead c.up c.x0 (x.s.ep i EP.POS)).toNat).2.1 - x.s.nowNs ≤ 250 * msNs))
  let x := foldOz due (fun i x =>
    let t := c.instants x.s (ahead c.up c.x0 (x.s.ep i EP.POS)).toNat
    x.merge c.eng i c.level t.2.2 (fun tgt held x => x.dimUp c.eng i t.1 t.2.1 tgt held)) x
  x.modLib (fun b => { b with cors := b.cors.map (fun y => if y.id = c.id then { y with placed := y.placed ++ due } else y) })

/-- The nearest presence sensor of a row with lo ≤ δ ≤ hi; of two at one distance the first in NEXT order (DESIGN CHOICE,
assumption 163). -/
def State.confSensor (s : State) (r : Nat) (up : Bool) (x0 : Nat) (lo hi : Int) : Option Nat :=
  ((s.rowMembers r).filter (fun i => s.ep i EP.TYPE == 1 || s.ep i EP.TYPE == 3)).foldl (fun (b : Option Nat) i =>
    let d := ahead up x0 (s.ep i EP.POS)
    if lo ≤ d ∧ d ≤ hi then
      match b with
      | none => some i
      | some j => if d < ahead up x0 (s.ep j EP.POS) then some i else some j
    else b) none

/-- t_conf and tol of a confirming sensor (R146). -/
def State.confOf (s : State) (r : Nat) (up : Bool) (x0 v : Nat) (t0 : Int) (i : Nat) : Nat × Int × Int :=
  let d := travelNs (ahead up x0 (s.ep i EP.POS)).toNat v
  (i, t0 + d, s.row r ROW.CONFIRM_TOL * msNs + d / 1000 / 8 * 1000)

/-- Corridors of engine `l`, children included (R151). -/
def Oz.used (x : Oz) (l : Nat) : Nat := (x.lib.cors.filter (fun c => c.eng == l)).length
/-- The table of a logical engine holds this many corridors (R151). -/
def corCap : Nat := 4096
/-- Add a corridor of engine `l` and place what is due at once. A child that finds the table full is dropped. -/
def Oz.add (x : Oz) (l : Nat) (c : Corridor) : Oz :=
  if corCap ≤ x.used l then x
  else ((x.modLib (fun b => { b with cors := b.cors ++ [{ c with eng := l }] })).count l 0).serve c

/-! ### Postings (R150) -/

/-- A posting to another logical engine: a child, a confirmed turn into link `j` at an end of a row, or the cancellation of the
children of a corridor but one. -/
inductive Post where
  | child (c : Corridor)
  | turned (row : Nat) (atEnd : Bool) (j : Nat)
  | cancel (parent : Nat) (except : Option Nat)
  deriving DecidableEq, Repr

/-- An optional number in a word: 0 for none, else one more. -/
def optWord : Option Nat → Nat
  | none => 0
  | some n => n + 1
def wordOpt (n : Nat) : Option Nat := if n = 0 then none else some (n - 1)
/-- The two words of a signed 64-bit number. -/
def intWords (v : Int) : List Nat := [ofSigned 64 v % 4294967296, ofSigned 64 v / 4294967296]
def wordsInt (lo hi : Nat) : Int := toSigned 64 (lo + hi * 4294967296)
/-- The word of a link: row, end and number. -/
def linkWord : Option (Nat × Bool × Nat) → Nat
  | none => 0
  | some (r, e, j) => 1 + 2 * (j + 8 * (b2n e + 2 * r))
def wordLink (n : Nat) : Option (Nat × Bool × Nat) :=
  if n = 0 then none else some (n / 32, (n / 16) % 2 == 1, (n / 2) % 8)

/-- The words of a posting; the first, never 0, says its kind. Their layout is the library's own (R133, assumption 43). -/
def Post.words : Post → List Nat
  | .child c =>
    let f := c.conf.getD (0, 0, 0)
    [1 + 4 * b2n c.up, c.id, c.row, c.x0] ++ intWords c.t0 ++ [c.v, c.ext, c.level, optWord (c.conf.map (·.1))] ++
      intWords f.2.1 ++ intWords f.2.2 ++ [optWord c.parent, linkWord c.link]
  | .turned r e j => [2, linkWord (some (r, e, j))]
  | .cancel p e => [3, p, optWord e]
/-- The posting that 16 words spell for engine `l`. -/
def Post.ofWords (l : Nat) (w : List Nat) : Option Post :=
  let g (k : Nat) : Nat := w.getD k 0
  match g 0 % 4 with
  | 1 => some (.child ⟨g 1, l, g 2, g 0 / 4 == 1, g 3, wordsInt (g 4) (g 5), g 6, g 7, g 8,
      (wordOpt (g 9)).map (fun i => (i, wordsInt (g 10) (g 11), wordsInt (g 12) (g 13))), [], wordOpt (g 14), wordLink (g 15)⟩)
  | 2 => (wordLink (g 1)).map (fun x => .turned x.1 x.2.1 x.2.2)
  | 3 => some (.cancel (g 1) (wordOpt (g 2)))
  | _ => none

/-- The postings of an area stand in its last quarter, 16 words each. -/
def postSlots : Nat := 1024
def Oz.postAt (x : Oz) (l k : Nat) : Nat := x.area l + 0x30000 + 64 * k
/-- The slots of engine `l`'s area that hold postings. -/
def Oz.postsHeld (x : Oz) (l : Nat) : List Nat := (List.range postSlots).filter (fun k => x.s.fword (x.postAt l k) != 0)
/-- Post to engine `l`: the words after the first, FENCE, the first word, FENCE. FENCE itself changes nothing here, since
every store of this model is visible when it is made (R45). A posting that finds no slot is dropped. -/
def Oz.post (x : Oz) (l : Nat) (p : Post) : Oz :=
  let k := match (x.postsHeld l).getLast? with
    | none => 0
    | some k => k + 1
  if k < postSlots then
    let at_ := x.postAt l k
    x.modS (fun s => (foldS ((p.words.zipIdx 0).drop 1) (fun w s => s.setFWord (at_ + 4 * w.2) (w32 w.1)) s).setFWord at_
      (w32 (p.words.headD 0)))
  else x
/-- The postings to engine `l`, oldest first. -/
def Oz.posted (x : Oz) (l : Nat) : List Post :=
  (x.postsHeld l).filterMap (fun k =>
    Post.ofWords l ((List.range 16).map (fun w => (x.s.fword (x.postAt l k + 4 * w)).toNat)))
/-- Clear the postings to engine `l`. -/
def Oz.clearPosts (x : Oz) (l : Nat) : Oz :=
  foldOz (x.postsHeld l) (fun k x => x.modS (fun s => foldS (List.range 16) (fun w s => s.setFWord (x.postAt l k + 4 * w) 0) s)) x

/-- A child's level (R148). -/
def childLevel (ck f turn turnMax : Nat) : Nat :=
  if ck ≤ f ∨ turnMax = 0 then ck else f + ((ck - f) * turn * 2 + turnMax) / (2 * turnMax)
/-- The valid links at an end of a row: number and word. -/
def State.links (s : State) (r : Nat) (atEnd : Bool) : List (Nat × Word) :=
  ((List.range 8).map (fun j => (j, w32 (s.row r (ROW.LINK atEnd j))))).filter (fun x => bit x.2 31)

/-- Spill corridor `c` at the junction ahead when its extent passes the row's end (R148). A child in another engine's row is
posted (R150); a row without members has no engine, and its child stays here. -/
def Oz.spill (x : Oz) (l : Nat) (c : Corridor) : Oz :=
  let s := x.s
  let dEnd := if c.up then s.row c.row ROW.LENGTH - c.x0 else c.x0
  if c.ext ≤ dEnd then x
  else
    let ls := s.links c.row c.up
    let top := ls.foldl (fun m y => max m (getBits y.2 0 8)) 0
    foldOz ls (fun y x =>
      let r := getBits y.2 15 15
      let up := !bit y.2 30
      let x0 := if up then 0 else s.row r ROW.LENGTH
      let t0 := c.t0 + travelNs dEnd c.v
      let ext := c.ext - dEnd
      let conf := (s.confSensor r up x0 0 ext).map (s.confOf r up x0 c.v t0)
      let eng := (s.rowEng r).getD l
      let child : Corridor := ⟨x.lib.nextId, eng, r, up, x0, t0, c.v, ext,
        childLevel c.level (s.row r ROW.FLOOR) (getBits y.2 0 8) top, conf, [], some c.id, some (c.row, c.up, y.1)⟩
      let x := x.modLib (fun b => { b with nextId := b.nextId + 1 })
      if eng = l then x.add l child else x.post eng (.child child)) x

/-- c_k of a row (R139). -/
def State.corridorLevel (s : State) (r : Nat) : Nat :=
  if s.row r ROW.CRD_LEVEL = 0 then s.row r ROW.CEIL else s.row r ROW.CRD_LEVEL

/-- A corridor to seed on row `r` (R139, R141). -/
def Oz.seedOf (x : Oz) (l r : Nat) (up : Bool) (x0 : Nat) (t0 : Int) (v : Nat) : Corridor :=
  let s := x.s
  let lead := s.row r ROW.LEAD_DIST
  let sensor := s.confSensor r up x0 1 lead
  let ext := match sensor with
    | some i => (ahead up x0 (s.ep i EP.POS)).toNat + lead
    | none => lead
  ⟨x.lib.nextId, l, r, up, x0, t0, v, ext, s.corridorLevel r, sensor.map (s.confOf r up x0 v t0), [], none, none⟩
/-- Seed the corridors of a PRESENCE event, then spill them (R139, R148). -/
def Oz.seed (x : Oz) (l r : Nat) (ups : List Bool) (x0 : Nat) (t0 : Int) (v : Nat) : Oz :=
  let y := ups.foldl (fun (y : Oz × List Corridor) up =>
    let c := y.1.seedOf l r up x0 t0 v
    ((y.1.modLib (fun b => { b with nextId := b.nextId + 1 })).add l c, y.2 ++ [c])) (x, [])
  foldOz y.2 (fun c x => x.spill l c) y.1

/-- A stationary object (R140). -/
def Oz.still (x : Oz) (l r x0 : Nat) (t0 : Int) : Oz :=
  let lead := x.s.row r ROW.LEAD_DIST
  let tHold := t0 + x.s.row r ROW.TRAIL_T * 100 * msNs
  foldOz ((x.s.lums r).filter (fun i => decide (ahead true x0 (x.s.ep i EP.POS) ≤ lead ∧ -(lead : Int) ≤ ahead true x0 (x.s.ep i EP.POS))))
    (fun i x => x.merge l i (x.s.corridorLevel r) tHold (fun tgt held x => x.placeOver tgt l i held (x.s.rampOf i) none)) x

/-! ## Confirmation (R146, R147, R149) -/

/-- Cancel the corridors of engine `l` that `p` selects (R147). -/
def Oz.drop (x : Oz) (l : Nat) (p : Corridor → Bool) : Oz :=
  let q := fun (c : Corridor) => c.eng == l && p c
  (foldOz (x.lib.cors.filter q) (fun _ x => x.count l 2) x).modLib (fun b => { b with cors := b.cors.filter (fun c => !q c) })
/-- The other engines that serve the rows which the valid links at an end of row `r` name. -/
def State.linkEngines (s : State) (l r : Nat) (atEnd : Bool) : List Nat :=
  (((s.links r atEnd).filterMap (fun y => s.rowEng (getBits y.2 15 15))).filter (· != l)).eraseDups
/-- Cancel the children of corridor `p`, spilled at an end of row `r`, but one: those of engine `l` at once, those of another
engine by a posting (R149, R150). -/
def Oz.cancelChildren (x : Oz) (l p r : Nat) (atEnd : Bool) (except : Option Nat) : Oz :=
  foldOz (x.s.linkEngines l r atEnd) (fun m x => x.post m (.cancel p except))
    (x.drop l (fun c => c.parent == some p && some c.id != except))
/-- Whether corridor `c` has spilled. -/
def Corridor.spilled (c : Corridor) (s : State) : Bool :=
  c.parent.isNone && decide ((if c.up then s.row c.row ROW.LENGTH - c.x0 else c.x0) < c.ext)
/-- Corridors of engine `l` are cancelled, with their children. -/
def Oz.cancel (x : Oz) (l : Nat) (p : Corridor → Bool) : Oz :=
  let gone := x.lib.cors.filter (fun c => c.eng == l && p c)
  foldOz (gone.filter (fun c => c.spilled x.s)) (fun c x => x.cancelChildren l c.id c.row c.up none) (x.drop l p)

/-- The turning ratios after a confirmed turn into link `j` (R149). -/
def State.learn (s : State) (r : Nat) (atEnd : Bool) (j : Nat) : State :=
  foldS (s.links r atEnd) (fun y s =>
    let t := getBits y.2 0 8
    s.setM (rowBase r) (ROW.TURN atEnd y.1) (if y.1 = j then t + ceilDiv (255 - t) 16 else t - ceilDiv t 16)) s

/-- Corridor `c` is confirmed: it ends; children of a parent end with it; a child's siblings are cancelled and the ratios are
learned by the engine of the parent's row (R149, R150). -/
def Oz.confirm (x : Oz) (l : Nat) (c : Corridor) : Oz :=
  let x := (x.count l 1).modLib (fun b => { b with cors := b.cors.filter (fun y => y.id != c.id) })
  match c.parent, c.link with
  | some p, some (r, e, j) =>
    let x := x.cancelChildren l p r e (some c.id)
    if x.s.rowEng r = some l then x.modS (fun s => s.learn r e j)
    else match x.s.rowEng r with
      | some m => x.post m (.turned r e j)
      | none => x
  | _, _ => if c.spilled x.s then x.cancelChildren l c.id c.row c.up none else x

/-- The corridor that a PRESENCE event from sensor `i` confirms: of those whose window holds its time and whose direction
agrees, the one with the earliest t_conf (R146); of two with one t_conf the older in the table (DESIGN CHOICE, assumption
163). -/
def Oz.confirmable (x : Oz) (l i dir : Nat) (t : Int) : Option Corridor :=
  (x.lib.cors.filter (fun c => c.eng == l && (dir == 0 || dir == 3 || c.up == (dir == 1)) && (match c.conf with
    | some (k, tc, tol) => k == i && decide (tc - tol ≤ t ∧ t < tc + tol)
    | none => false))).foldl (fun (b : Option Corridor) c =>
      match b, c.conf with
      | some d, some (_, tc, _) => if tc < (match d.conf with | some (_, td, _) => td | none => tc) then some c else some d
      | none, _ => some c
      | some d, none => some d) none

/-- The directions of the corridors that a PRESENCE event seeds: towards increasing position or not (R139). -/
def seedDirs (dir : Nat) : List Bool := if dir = 1 then [true] else if dir = 2 then [false] else [true, false]
/-- lt_event on PRESENCE (R139, R140, R146, R151). The table is full when it holds as many corridors as it may, or, after the
confirmation, has no room for every corridor that the event seeds; then the event is stationary and neither seeds nor
confirms: a table that a confirmation takes a corridor out of has room. An event of a source on no row seeds none, so it meets no
full table: it counts no FULL and may confirm (DEDUCED, assumption 193). -/
def Oz.presence (x : Oz) (l : Nat) (e : IEvent) : Oz :=
  let s := x.s
  let i := e.lead
  let r := s.ep i EP.ROW
  let dir := getBits e.p6 0 2
  let t0 := stampNsOf e.time
  let pos := getBits e.p5 0 16
  let x0 := if s.row r ROW.LENGTH < pos then s.ep i EP.POS else pos
  let sp := getBits e.p5 16 16
  let v := if sp = 0xFFFF then s.row r ROW.DEF_SPEED * 25 / 9 else sp
  let onRow := s.ep i EP.ON_ROW == 1
  if onRow && decide (corCap ≤ x.used l) then (x.count l 3).still l r x0 t0
  else
    let x := match x.confirmable l i dir t0 with
      | some c => x.confirm l c
      | none => x
    if !onRow then x
    else if v < 30 then x.still l r x0 t0
    else if corCap < x.used l + (seedDirs dir).length then (x.count l 3).still l r x0 t0
    else x.seed l r (seedDirs dir) x0 t0 v

/-! ## Traffic, daylight, failures, changes at one instant (R152–R158) -/

/-- The step that flow `q` reaches: thresholds before the first zero that it meets (R152). -/
def State.stepUp (s : State) (r q : Nat) : Nat :=
  let qs := ((List.range 4).map (fun k => s.row r (ROW.Q k))).takeWhile (· != 0)
  (qs.filter (fun t => decide (t ≤ q))).length
/-- The step after falling from `k` under the hysteresis of R152. -/
def State.stepDown (s : State) (r q : Nat) : Nat → Nat
  | 0 => 0
  | k + 1 => if q < s.row r (ROW.Q k) * 9 / 10 then s.stepDown r q k else k + 1
/-- lt_event on COUNT (R152). -/
def Oz.traffic (x : Oz) (l : Nat) (e : IEvent) : Oz :=
  let s := x.s
  let r := s.ep e.lead EP.ROW
  if s.ep e.lead EP.ON_ROW = 0 ∨ s.row r (ROW.A 0) = 0 ∨ e.p6 = 0 then x
  else
    let q := e.p5.toNat * 3600 / e.p6.toNat
    let k := sget natZero x.lib.steps r
    let k' := max (s.stepUp r q) (s.stepDown r q k)
    if k' = k then x
    else foldOz (s.lums r) (fun i x => x.recompose l i) (x.modLib (fun b => { b with steps := sset natZero b.steps r k' }))

/-- The members of a group. -/
def State.members (s : State) (g : Nat) : List Nat := s.validEps.filter (fun i => s.grpBit g i)
/-- lt_event on DAYLIGHT (R154). -/
def Oz.daylight (x : Oz) (l : Nat) (e : IEvent) : Oz :=
  let s := x.s
  let d := e.lead
  let full := s.ep d EP.E_FULL
  if full = 0 ∨ (s.ep d EP.TYPE ≠ 2 ∧ s.ep d EP.TYPE ≠ 3) then x
  else
    let p : Int := ((s.ep d EP.E_TARGET : Int) - (s.ep d EP.K_DAY * e.p5.toNat / 1000 : Nat)) * 100000 / (full : Int)
    let new := if p ≤ 0 then 0 else dimP2c p
    if ((new : Int) - s.ep d EP.D).natAbs < 4 then x
    else foldOz (s.members (s.ep d EP.DL_GROUP)) (fun i x => x.recompose l i) (x.modS (fun s => s.setEp d EP.D new))

/-- The nearest luminaire that has not failed, before and after `i` in a row's order (R156). -/
def State.nearest (s : State) (r i : Nat) : List Nat :=
  let m := s.lums r
  let ok := fun j => s.ep j EP.FAILED == 0
  ((m.takeWhile (· != i)).reverse.find? ok).toList ++ (((m.dropWhile (· != i)).drop 1).find? ok).toList
/-- Whether a luminaire has a failed one as its nearest luminaire member on either side. -/
def State.besideFailed (s : State) (r i : Nat) : Bool :=
  let m := s.lums r
  ((m.takeWhile (· != i)).getLast?.toList ++ ((m.dropWhile (· != i)).drop 1).head?.toList).any (fun j => s.ep j EP.FAILED == 1)
/-- A luminaire with FAILED = 1 (R156): code 0 for it, and its neighbours raised. -/
def Oz.failed (x : Oz) (l i : Nat) : Oz :=
  if x.s.isLum i && x.s.ep i EP.FAILED == 1 then
    let r := x.s.ep i EP.ROW
    let ns := if x.s.ep i EP.ON_ROW = 1 then x.s.nearest r i else []
    let x := if x.s.serves l i && x.s.ep i EP.TGT != 0 then x.emit l i 0 0 none else x
    foldOz ns (fun j x => (x.modS (fun s => s.setEp j EP.NEIGH_COMP 1)).recompose l j) x
  else x
/-- The luminaires of a row with NEIGH_COMP that no longer have a failed nearest luminaire (R156). -/
def State.relieved (s : State) (r : Nat) : List Nat := (s.lums r).filter (fun j => s.ep j EP.NEIGH_COMP == 1 && !s.besideFailed r j)
/-- NEIGH_COMP of luminaires is cleared. -/
def State.relieve (s : State) (l : List Nat) : State := foldS l (fun j s => s.setEp j EP.NEIGH_COMP 0) s
/-- A luminaire is marked failed. -/
def Oz.markFailed (x : Oz) (l i : Nat) : Oz := (x.modS (fun s => s.setEp i EP.FAILED 1)).failed l i
/-- A repair: NEIGH_COMP is cleared on former neighbours, then the repaired luminaire and those neighbours are composed. -/
def Oz.repair (x : Oz) (l i : Nat) : Oz :=
  let x := x.modS (fun s => s.setEp i EP.FAILED 0)
  let ns := if x.s.ep i EP.ON_ROW = 1 then x.s.relieved (x.s.ep i EP.ROW) else []
  foldOz (i :: ns.filter (· != i)) (fun j x => x.recompose l j) (x.modS (fun s => s.relieve ns))

/-- σ of R157. -/
def State.spacing (s : State) (i : Nat) : Nat :=
  let a := w32 (s.ep i EP.ADDR)
  if s.ep i EP.PATH = 0 then getBits a 8 4 * 80 + getBits a 0 6 else 0
/-- lt_event on SHEAF_APPLIED (R157): t_B and the timed commands. -/
def Oz.sheafApplied (x : Oz) (l : Nat) (e : IEvent) : Oz :=
  let tB := stampNsOf e.time / (10 * msNs) * (10 * msNs) + 250 * msNs
  let x := foldOz (x.s.rowsOf l) (fun r x => x.modS (fun s => s.relieve (s.relieved r))) x
  foldOz (x.s.rowsOf l) (fun r x =>
    foldOz (x.s.lums r) (fun i x => x.place l i (x.s.heldNow i) (x.s.rampOf i) (some (tB + 2000 * (x.s.spacing i : Int)))) x) x

/-- The instants at which work on row `r` is pending: corridors to place, to confirm or to cancel, holds to end, refused
commands to try again (R134, R143, R145, R147). -/
def Oz.pendingOn (x : Oz) (r : Nat) : List Int :=
  let s := x.s
  ((x.lib.cors.filter (fun c => c.row == r)).flatMap (fun c =>
    ((c.covered s).filter (fun i => !c.placed.contains i)).map (fun i =>
      (c.instants s (ahead c.up c.x0 (s.ep i EP.POS)).toNat).2.1 - 250 * msNs) ++
    (match c.conf with
      | some (_, tc, tol) => [tc + tol]
      | none => []))) ++
  (s.lums r).flatMap (fun i =>
    if s.ep i EP.DOWN_PLACED = 1 then [s.hold i + msNs] else if s.ep i EP.HELD ≠ 0 then [s.hold i - 250 * msNs] else []) ++
  (x.lib.retries.filter (fun y => s.ep y.ep EP.ROW == r && s.ep y.ep EP.ON_ROW == 1)).map (fun y => y.instant)
/-- NEXT_DUE of row `r`: the earliest instant of pending work in the form of HOLD, 0 without any (R135, assumption 43). -/
def Oz.showDue (x : Oz) (r : Nat) : Oz :=
  let due : Int := match x.pendingOn r with
    | [] => 0
    | t :: l => l.foldl min t
  let n := ofSigned 64 due
  if x.s.row r ROW.DUE_LO + x.s.row r ROW.DUE_HI * 4294967296 = n then x
  else x.modS (fun s => (s.setM (rowBase r) ROW.DUE_LO (n % 4294967296)).setM (rowBase r) ROW.DUE_HI (n / 4294967296))
/-- NEXT_DUE of every row that engine `l` serves. -/
def Oz.showDues (x : Oz) (l : Nat) : Oz := foldOz (x.s.rowsOf l) (fun r x => x.showDue r) x

/-- lt_init of logical engine `l`: its table is empty, and no work of its corridors is pending. Whether the counters of its
header restart the spec does not say; they do (DESIGN CHOICE, assumption 43). The traffic step of a row, which R152 sets to 0
only without a COUNT event, is kept (DESIGN CHOICE, assumption 163). -/
def Oz.ltInit (x : Oz) (base l : Nat) : Oz :=
  let x := x.modLib (fun b => { b with
    base := base, cors := b.cors.filter (fun c => c.eng != l), retries := b.retries.filter (fun r => r.eng != l) })
  (x.modS (fun s => foldS (List.range 65536) (fun k s => s.setFWord (x.area l + 4 * k) 0) s)).showDues l
/-- lt_base (R132). -/
def Oz.ltBase (x : Oz) (l i code ramp : Nat) : Oz := (x.setBase l i code ramp).showDues l
/-- lt_base_row (R132). -/
def Oz.ltBaseRow (x : Oz) (l r code ramp : Nat) : Oz :=
  (foldOz (x.s.lums r) (fun i x => x.setBase l i code ramp) x).showDues l
/-- lt_fail. -/
def Oz.ltFail (x : Oz) (l i : Nat) : Oz := (x.markFailed l i).showDues l
/-- lt_repair. -/
def Oz.ltRepair (x : Oz) (l i : Nat) : Oz := (x.repair l i).showDues l

/-- lt_event of logical engine `l` (R133). -/
def Oz.ltEvent (x : Oz) (l : Nat) (e : IEvent) : Oz :=
  (if e.dup then x
  else if e.kind = kModule then (if getBits e.p5 0 16 = 1 then x.sheafApplied l e else x)
  else if e.unknown then x
  else if e.kind = kPresence then x.presence l e
  else if e.kind = kDaylight then x.daylight l e
  else if e.kind = kCount then x.traffic l e
  else if e.kind = kFault then x.failed l e.lead
  else x).showDues l

/-! ## lt_tick (R134, R143, R145, R147, R150, R154) -/

/-- Refused commands of engine `l` less than 1 s past their instant are tried again, where `l` still serves the luminaire's row
(R133). A retry emits the level as it was composed: it is not held against TGT again, it is made for a corridor that has been
cancelled since too, and a command that EMIT refuses with FAR is not tried again (DESIGN CHOICE, assumption 163). -/
def Oz.retry (x : Oz) (l : Nat) : Oz :=
  let mine := x.lib.retries.filter (fun r => r.eng == l)
  let x := x.modLib (fun b => { b with retries := b.retries.filter (fun r => r.eng != l) })
  foldOz (mine.filter (fun r => x.s.serves l r.ep && decide (x.s.nowNs - r.instant < nsPerS)))
    (fun r x => x.emitDue l r.ep r.level r.ramp (if r.instant ≤ x.s.nowNs then none else some r.instant) r.instant) x
/-- Dim-downs, and the end of holds (R145). -/
def Oz.holds (x : Oz) (l : Nat) : Oz :=
  foldOz ((x.s.rowsOf l).flatMap x.s.lums) (fun i x =>
    let now := x.s.nowNs
    let x := if x.s.ep i EP.HELD ≠ 0 ∧ x.s.ep i EP.DOWN_PLACED = 0 ∧ x.s.hold i - now ≤ 250 * msNs then
        (x.place l i 0 (x.s.rampOf i) (some (x.s.hold i))).modS (fun s => s.setEp i EP.DOWN_PLACED 1)
      else x
    if (x.s.ep i EP.HELD ≠ 0 ∨ x.s.ep i EP.DOWN_PLACED = 1) ∧ x.s.hold i + msNs ≤ now then
      x.modS (fun s => (s.setEp i EP.HELD 0).setEp i EP.DOWN_PLACED 0)
    else x) x
/-- Readings that have become invalid since the last tick: their groups are composed without the cap (R154). The sensor's own
engine alone does so, and places commands only for members whose row it serves (R133): a member on another engine's row waits
for that engine's next composition, here as in `daylight` (DESIGN CHOICE, assumption 163). -/
def Oz.lapses (x : Oz) (l : Nat) : Oz :=
  let mine := fun d => (x.s.ep d EP.TYPE == 2 || x.s.ep d EP.TYPE == 3) && x.s.ep d EP.ENG == l
  let ds := x.s.validEps.filter (fun d => mine d && x.s.ep d EP.E_FULL != 0 && !x.s.dayValid d)
  let new := ds.filter (fun d => !x.lib.lapsed.contains d)
  let x := x.modLib (fun b => { b with lapsed := b.lapsed.filter (fun d => !mine d) ++ ds })
  foldOz new (fun d x => foldOz (x.s.members (x.s.ep d EP.DL_GROUP)) (fun i x => x.recompose l i) x) x
/-- Corridors without a confirming sensor end once every covered luminaire is placed (R147). -/
def Oz.spent (x : Oz) (l : Nat) : Oz :=
  x.modLib (fun b => { b with cors := b.cors.filter (fun c =>
    !(c.eng == l && c.conf.isNone && (c.covered x.s).all (fun i => c.placed.contains i))) })

/-- A posting to engine `l` is taken up (R150). -/
def Oz.adopt (x : Oz) (l : Nat) : Post → Oz
  | .child c => x.add l c
  | .turned r e j => x.modS (fun s => s.learn r e j)
  | .cancel p e => x.drop l (fun c => c.parent == some p && some c.id != e)

/-- lt_tick of logical engine `l`: retries, postings, cancellations, placements, ended corridors, holds, lapsed readings, in
this order, which the spec leaves open; a corridor past t_conf + tol, or wholly placed, leaves the table here and not before,
so until then an event can confirm it and it counts for a full table (DESIGN CHOICE, assumption 163). -/
def Oz.ltTick (x : Oz) (l : Nat) : Oz :=
  let x := x.retry l
  let x := foldOz (x.posted l) (fun p x => x.adopt l p) (x.clearPosts l)
  let now := x.s.nowNs
  let x := x.cancel l (fun c => match c.conf with
    | some (_, tc, tol) => decide (tc + tol ≤ now)
    | none => false)
  let x := foldOz (x.lib.cors.filter (fun c => c.eng == l)) (fun c x => x.serve c) x
  (((x.spent l).holds l).lapses l).showDues l

end Sys2Proof.Machine
end

