-- ==== Sys2Proof/Machine/ZhnEncode.lean ====
section
/-! DEFINITION. An encoder of ZHN instructions (R90–R92), written from the formats and the tables of R95–R121. The engines' words
have no bits in the opcode table, whose rows are commands; FE_CMD STEP executes words, and this file spells the commands
as words. -/
namespace Sys2Proof.Machine
open Sys2Proof

/-- Format A (R90): OP[31:26], PS[25:23], D[22:18], A[17:13], B[12:8], FN[7:0]. -/
def fmtA (op ps d a b fn : Nat) : Word := w32 (op * 2 ^ 26 + ps * 2 ^ 23 + d * 2 ^ 18 + a * 2 ^ 13 + b * 2 ^ 8 + fn)
/-- Format I (R90): D[22:18], SUB[17:16], IMM[15:0]. -/
def fmtI (op ps d sub imm : Nat) : Word := w32 (op * 2 ^ 26 + ps * 2 ^ 23 + d * 2 ^ 18 + sub * 2 ^ 16 + imm)
/-- Format B (R99): SUB[22:21], OFF[20:0], with OP 0x18. -/
def fmtB (ps sub off : Nat) : Word := w32 (0x18 * 2 ^ 26 + ps * 2 ^ 23 + sub * 2 ^ 21 + off)
/-- Format E (R104): R[22:18], EC[17:16], WORD[15:11], LSB[10:6], WM1[5:1], SUB[0]. -/
def fmtE (op ps r ec word lsb wm1 sub : Nat) : Word :=
  w32 (op * 2 ^ 26 + ps * 2 ^ 23 + r * 2 ^ 18 + ec * 2 ^ 16 + word * 2 ^ 11 + lsb * 2 ^ 6 + wm1 * 2 + sub)
/-- Format T (R110): SUB[22:20], TD[19:18], TA[17:16], A[15:11], PD[10:8], IMM[7:0]. -/
def fmtT (op ps sub td ta a pd imm : Nat) : Word :=
  w32 (op * 2 ^ 26 + ps * 2 ^ 23 + sub * 2 ^ 20 + td * 2 ^ 18 + ta * 2 ^ 16 + a * 2 ^ 11 + pd * 2 ^ 8 + imm)
/-- Format X (R113): FN[22:17], A[16:12], B[11:7], EC[6:5], TR[4:3], PD[2:0], with OP 0x30. -/
def fmtX (ps fn a b ec tr pd : Nat) : Word :=
  w32 (0x30 * 2 ^ 26 + ps * 2 ^ 23 + fn * 2 ^ 17 + a * 2 ^ 12 + b * 2 ^ 7 + ec * 2 ^ 5 + tr * 2 ^ 3 + pd)

/-- The physical engine and the word of a ZHN instruction; no other command has one. -/
def encodeZhn : Instr → Option (Fin 18 × Word)
  | .add p ps rd ra rb => some (p, fmtA 0x00 ps rd ra rb 0x00)
  | .sub p ps rd ra rb => some (p, fmtA 0x00 ps rd ra rb 0x01)
  | .and p ps rd ra rb => some (p, fmtA 0x00 ps rd ra rb 0x02)
  | .or p ps rd ra rb => some (p, fmtA 0x00 ps rd ra rb 0x03)
  | .xor p ps rd ra rb => some (p, fmtA 0x00 ps rd ra rb 0x04)
  | .andn p ps rd ra rb => some (p, fmtA 0x00 ps rd ra rb 0x05)
  | .sll p ps rd ra rb => some (p, fmtA 0x00 ps rd ra rb 0x06)
  | .srl p ps rd ra rb => some (p, fmtA 0x00 ps rd ra rb 0x07)
  | .sra p ps rd ra rb => some (p, fmtA 0x00 ps rd ra rb 0x08)
  | .mul p ps rd ra rb => some (p, fmtA 0x00 ps rd ra rb 0x09)
  | .mulh p ps rd ra rb => some (p, fmtA 0x00 ps rd ra rb 0x0A)
  | .mulhu p ps rd ra rb => some (p, fmtA 0x00 ps rd ra rb 0x0B)
  | .div p ps rd ra rb => some (p, fmtA 0x00 ps rd ra rb 0x0C)
  | .divu p ps rd ra rb => some (p, fmtA 0x00 ps rd ra rb 0x0D)
  | .rem p ps rd ra rb => some (p, fmtA 0x00 ps rd ra rb 0x0E)
  | .remu p ps rd ra rb => some (p, fmtA 0x00 ps rd ra rb 0x0F)
  | .min p ps rd ra rb => some (p, fmtA 0x00 ps rd ra rb 0x10)
  | .max p ps rd ra rb => some (p, fmtA 0x00 ps rd ra rb 0x11)
  | .minu p ps rd ra rb => some (p, fmtA 0x00 ps rd ra rb 0x12)
  | .maxu p ps rd ra rb => some (p, fmtA 0x00 ps rd ra rb 0x13)
  | .clamp p ps rd ra rb => some (p, fmtA 0x00 ps rd ra rb 0x14)
  | .popc p ps rd ra => some (p, fmtA 0x00 ps rd ra 0 0x15)
  | .clz p ps rd ra => some (p, fmtA 0x00 ps rd ra 0 0x16)
  | .ctz p ps rd ra => some (p, fmtA 0x00 ps rd ra 0 0x17)
  | .li p ps rd imm => some (p, fmtI 0x10 ps rd 0 imm.toNat)
  | .lis p ps rd imm => some (p, fmtI 0x10 ps rd 1 imm.toNat)
  | .addi p ps rd imm => some (p, fmtI 0x10 ps rd 2 imm.toNat)
  | .andi p ps rd imm => some (p, fmtI 0x10 ps rd 3 imm.toNat)
  | .ori p ps rd imm => some (p, fmtI 0x11 ps rd 0 imm.toNat)
  | .xori p ps rd imm => some (p, fmtI 0x11 ps rd 1 imm.toNat)
  | .slli p ps rd imm => some (p, fmtI 0x11 ps rd 2 imm)
  | .srli p ps rd imm => some (p, fmtI 0x11 ps rd 3 imm)
  | .srai p ps rd imm => some (p, fmtI 0x12 ps rd 0 imm)
  | .muli p ps rd imm => some (p, fmtI 0x12 ps rd 1 imm.toNat)
  | .mini p ps rd imm => some (p, fmtI 0x12 ps rd 2 imm.toNat)
  | .maxi p ps rd imm => some (p, fmtI 0x12 ps rd 3 imm.toNat)
  | .cmp p ps cond pd pn ra rb => some (p, fmtA 0x01 ps pd ra rb (pn * 32 + cond))
  | .cmpi p ps cond pd pn rd imm => some (p, fmtI 0x13 ps rd cond (pd * 8192 + pn * 1024 + imm.toNat))
  | .plogAnd p ps pd pa pb => some (p, fmtA 0x02 ps pd pa pb 0)
  | .plogOr p ps pd pa pb => some (p, fmtA 0x02 ps pd pa pb 1)
  | .plogXor p ps pd pa pb => some (p, fmtA 0x02 ps pd pa pb 2)
  | .plogAndn p ps pd pa pb => some (p, fmtA 0x02 ps pd pa pb 3)
  | .plogNot p ps pd pa => some (p, fmtA 0x02 ps pd pa 0 4)
  | .plogSet p ps pd => some (p, fmtA 0x02 ps pd 0 0 5)
  | .plogClr p ps pd => some (p, fmtA 0x02 ps pd 0 0 6)
  | .b p ps off => some (p, fmtB ps 0 off.toNat)
  | .call p ps off => some (p, fmtB ps 1 off.toNat)
  | .ldl p ps z rd ra off => some (p, fmtA 0x04 ps rd ra 0 (z * 64 + off))
  | .stl p ps z rb ra off => some (p, fmtA 0x05 ps 0 ra rb (z * 64 + off))
  | .ldf p ps z rd ra off => some (p, fmtA 0x06 ps rd ra 0 (z * 64 + off))
  | .stf p ps z rb ra off => some (p, fmtA 0x07 ps 0 ra rb (z * 64 + off))
  | .lde p ps rd ec word lsb wm1 sx => some (p, fmtE 0x20 ps rd ec word lsb wm1 (b2n sx))
  | .ste p ps rb ec word lsb wm1 => some (p, fmtE 0x21 ps rb ec word lsb wm1 0)
  | .ecur p ps ec ra => some (p, fmtE 0x22 ps ra ec 0 0 0 0)
  | .ecurG p ps ec ra => some (p, fmtE 0x22 ps ra ec 0 0 0 1)
  | .erd p ps rd ec => some (p, fmtE 0x23 ps rd ec 0 0 0 0)
  | .ldr p ps ec ra => some (p, fmtE 0x24 ps ra ec 0 0 0 0)
  | .scanRow p ps pd ec ra => some (p, fmtE 0x25 ps ra ec (pd * 4) 0 0 0)
  | .scanNext p ps pd ec => some (p, fmtE 0x25 ps 0 ec (pd * 4 + 1) 0 0 0)
  | .scanGrp p ps pd ec ra => some (p, fmtE 0x25 ps ra ec (pd * 4 + 2) 0 0 0)
  | .grpSet p ps rg ri => some (p, fmtA 0x08 ps 0 rg ri 0)
  | .grpClr p ps rg ri => some (p, fmtA 0x08 ps 0 rg ri 1)
  | .grpTst p ps pd rg ri => some (p, fmtA 0x08 ps pd rg ri 2)
  | .grpCnt p ps rd rg => some (p, fmtA 0x08 ps rd rg 0 3)
  | .grpOr p ps rd ra rb => some (p, fmtA 0x08 ps rd ra rb 4)
  | .grpAnd p ps rd ra rb => some (p, fmtA 0x08 ps rd ra rb 5)
  | .grpAndn p ps rd ra rb => some (p, fmtA 0x08 ps rd ra rb 6)
  | .grpCopy p ps rd ra => some (p, fmtA 0x08 ps rd ra 0 7)
  | .grpClrall p ps rd => some (p, fmtA 0x08 ps rd 0 0 8)
  | .dimcP2c p ps rd ra => some (p, fmtA 0x03 ps rd ra 0 0)
  | .dimcC2p p ps rd ra => some (p, fmtA 0x03 ps rd ra 0 1)
  | .tnow p ps td => some (p, fmtT 0x28 ps 0 td 0 0 0 0)
  | .tmov p ps td ta => some (p, fmtT 0x28 ps 1 td ta 0 0 0)
  | .tadd p ps td ta ra unit => some (p, fmtT 0x28 ps 2 td ta ra 0 unit)
  | .tdiff p ps rd ta tb unit => some (p, fmtT 0x28 ps 3 tb ta rd 0 unit)
  | .ttag p ps td ra => some (p, fmtT 0x28 ps 4 td 0 ra 0 0)
  | .tget p ps rd ta part => some (p, fmtT 0x28 ps 5 0 ta rd 0 part)
  | .tset p ps td ra part => some (p, fmtT 0x28 ps 6 td 0 ra 0 part)
  | .tcmp p ps cond pd ta tb => some (p, fmtT 0x29 ps cond tb ta 0 pd 0)
  | .tld p ps td ra imm => some (p, fmtT 0x2A ps 0 td 0 ra 0 imm.toNat)
  | .tst p ps ta ra imm => some (p, fmtT 0x2B ps 0 0 ta ra 0 imm.toNat)
  | .sun p ps ra ta => some (p, fmtT 0x2C ps 0 0 ta ra 0 0)
  | .nop p ps => some (p, fmtX ps 0x00 0 0 0 0 0)
  | .wait p ps pd ra rb => some (p, fmtX ps 0x01 ra rb 0 0 pd)
  | .emit p ps pd rb ra ec tr => some (p, fmtX ps 0x02 ra rb ec tr pd)
  | .done p ps pd ra rb => some (p, fmtX ps 0x03 ra rb 0 0 pd)
  | .stg p ps pd ra rb => some (p, fmtX ps 0x04 ra rb 0 0 pd)
  | .chk p ps pd => some (p, fmtX ps 0x05 0 0 0 0 pd)
  | .apl p ps pd ra tr => some (p, fmtX ps 0x06 ra 0 0 tr pd)
  | .sdrop p ps pd => some (p, fmtX ps 0x07 0 0 0 0 pd)
  | .fence p ps => some (p, fmtX ps 0x08 0 0 0 0 0)
  | .trap p ps code => some (p, fmtX ps 0x09 (code.toNat / 32) (code.toNat % 32) 0 0 0)
  | .halt p ps => some (p, fmtX ps 0x0A 0 0 0 0 0)
  | .ret p ps => some (p, fmtX ps 0x0B 0 0 0 0 0)
  | .jr p ps ra => some (p, fmtX ps 0x0C ra 0 0 0 0)
  | .callr p ps ra => some (p, fmtX ps 0x0D ra 0 0 0 0)
  | .mfs p ps rd n => some (p, fmtX ps 0x0E rd n 0 0 0)
  | .mts p ps n ra => some (p, fmtX ps 0x0F ra n 0 0 0)
  | .dout p ps ra => some (p, fmtX ps 0x10 ra 0 0 0 0)
  | _ => none

end Sys2Proof.Machine
end

