-- ==== Sys2Proof/Safety.lean ====
section
/-! DEFINITION. What counts as a safe run, in the terms that statements use: the outcomes that go on, and the canonical form of
the sparse maps that hold the module's arrays. -/
namespace Sys2Proof.Safety
open Sys2Proof Sys2Proof.Machine

/-- An outcome with a next state. -/
def goesOn (o : Host.Outcome State Fault Refusal) : Prop := ∃ t, o = .next t

/-- The next state of an outcome has a property. -/
def nextHas (o : Host.Outcome State Fault Refusal) (p : State → Prop) : Prop := ∃ t, o = .next t ∧ p t

/-- Keys strictly rise, and no entry equals what an unlisted key reads as: equal maps are equal lists. -/
def canonical {α : Type} [DecidableEq α] (d : Nat → α) (m : Store α) : Prop := swf d m = true

/-- Physical engine `p` executes its next instruction under predicate selector `ps`: it is ACTIVE in RUN, neither blocked nor
held, no enabled breakpoint stops it, the predicate is 1, and this word and the next one lie within the code (R84, R86,
R93, R68). -/
def runs (s : State) (p ps : Nat) : Prop :=
  s.issuing p = true ∧ s.pc p + 1 < (s.eng p).codeWords ∧ (s.breakHere p = false ∨ (s.eng p).passBrk = true) ∧ s.p p ps = true

/-- As `runs`, for an instruction without a next sequential word (R93). -/
def jumps (s : State) (p ps : Nat) : Prop :=
  s.issuing p = true ∧ s.pc p < (s.eng p).codeWords ∧ (s.breakHere p = false ∨ (s.eng p).passBrk = true) ∧ s.p p ps = true

/-- The instruction on engine `p` completes after it touched these field-memory words (`true`: stored). -/
def goOnAt (s t : State) (p cost : Nat) (touched : List (Nat × Bool)) : Host.Outcome State Fault Refusal :=
  .next (t.retire p cost (s.pc p + 1) touched)

/-- The instruction on engine `p` completes: `t` retires with `cost` tokens and goes on with the word after the PC of `s`. -/
def goOn (s t : State) (p cost : Nat) : Host.Outcome State Fault Refusal := .next (t.retire p cost (s.pc p + 1) [])

/-- A field-memory instruction on engine `p` completes: as `goOnAt`, after a free value has been drawn for the tokens that
conflicting accesses add to the cost of R103 (assumption 137). -/
def goOnField (s t : State) (p cost : Nat) (touched : List (Nat × Bool)) : Host.Outcome State Fault Refusal :=
  .next (t.free.2.retire p (cost + t.free.1) (s.pc p + 1) touched)

/-- No physical engine but `p` has changed: its registers and local store, its PC, its STATE. -/
def otherEngines (s t : State) (p : Nat) : Prop :=
  ∀ q : Fin 18, q.val ≠ p → t.eng q = s.eng q ∧ t.pc q = s.pc q ∧ t.engState q = s.engState q

/-- A session of version 2 is open and its request passes the tests that do not look at its body (R171, R173): CONTROL rights
and no STANDBY, nor a claim under way (R334), for a CONTROL command, no FENCED for one that acts on the lighting. -/
def mayAsk (s : State) (n : Nat) (control lighting : Bool) : Prop :=
  (s.sess n).isOpen = true ∧ (s.sess n).version1 = false ∧
  (control = true → (s.sess n).control = true ∧ s.role ≠ roleStandby ∧ s.role ≠ roleClaiming) ∧
  (lighting = true → s.fenced = false)

/-- The state after the ACCEPT of a request on session `n` with the new handle of slot `i` (R168, R169). -/
def accepted (s : State) (n : Nat) (tag : Word) (i : Nat) : State :=
  (s.modSess n (fun x => { x with pinged := false })).acceptIn n tag i

/-- The state after a request on session `n` is refused with a status. -/
def refused (s : State) (n : Nat) (tag : Word) (status : Nat) : State :=
  (s.modSess n (fun x => { x with pinged := false })).refuse n tag status

end Sys2Proof.Safety
end

