-- ==== Sys2Proof/WellFormed.lean ====
section
/-! DEFINITION. Well-formed commands. The operand types admit little that the module cannot meet; what they admit beyond that
is excluded here. Every command has its meaning whether or not it is well formed. -/
namespace Sys2Proof
open Sys2Proof.Machine

/-- The instance exists: sixteen sessions, eight CAN channels, four indicator chains (R183, R184, R456, R469). -/
def quWf : Qu → Bool
  | .cpl n => n < 16
  | .bulk c => c < 8
  | .feed n => n < 4
  | .intake | .uartRx | .uartTx => true

/-- The data lengths of a CAN FD frame, by data length code (R443). -/
def canLengths : List Nat := [0, 1, 2, 3, 4, 5, 6, 7, 8, 12, 16, 20, 24, 32, 48, 64]
/-- The data bytes that a frame's length code says: none in a remote frame, at most 8 in a classical one. -/
def canLength (f : CanFrame) : Nat :=
  if f.rtr then 0 else if f.fdf then canLengths.getD f.dlc.toNat 0 else min 8 f.dlc.toNat

/-- A frame that can stand on a CAN bus (R443): its data has the length of its code, a classic frame has no BRS or ESI, a remote
frame is classic; a base identifier has 11 bits. -/
def canWf (f : CanFrame) : Bool :=
  f.data.length == canLength f && (f.fdf || (!f.brs && !f.esi)) && (!f.rtr || !f.fdf) &&
    (f.ide || decide (f.ident.toNat < 2048))

/-- A command that can reach the module. -/
def Instr.wf : Instr → Bool
  | .quDataRead u | .dropPkt u | .quWmWrite u _ _ => quWf u
  | .meterSample raw => raw.length == 54
  | .canFieldEvent _ f _ | .canFieldReply _ f _ | .canFirmwareFrame _ f _ => canWf f
  | _ => true

end Sys2Proof
end

