-- ==== Sys2Proof/Certificates/Slice0/Obligations.lean ====
section
/-! DEFINITION. The statements for the provers. Each says which rules of the spec it comes from; what is the model's own choice is
named with its entry of the assumption log. -/
open Sys2Proof Sys2Proof.Machine Sys2Proof.Safety

/-! ## The queue -/

/-- The queue of a block: `step` takes the front command off and runs it. With an empty queue one tick passes, which is the
model's choice (assumption 1). -/
def Obligations.StepRunsFront : Prop :=
  (∀ (c : Instr) (s : State) (cs : List Instr), step { s with pending := c :: cs } = exec c { s with pending := cs }) ∧
  (∀ s : State, s.pending = [] → step s = .next s.idle)

/-! ## Direct accesses (chapters 1 and 2) -/

/-- R11, R12, R18: the bus error, and an answer of 0 to a read, are the whole effect. That an access of the register region wider
than 32 bits ends so too is the model's choice (assumption 129). -/
def Obligations.BusErrorAccess : Prop :=
  (∀ (s : State) (a : Addr) (n : Fin 65) (w : Option (BitVec 512)), inRegion a.toNat = true → (a.toNat % 4 ≠ 0 ∨ n.val ≠ 4) →
      exec (.unalignedAccess a n w) s = .next ((s.busErr E.SYS_BUS_ERR.ALIGN a w.isSome).noData w.isSome)) ∧
  (∀ (s : State) (a : Addr) (w : Bool) (v : Word), inRegion a.toNat = true → a.toNat % 4 = 0 → s.target a = .hole →
    exec (.unmappedAccess a w v) s = .next ((s.busErr E.SYS_BUS_ERR.UNMAPPED a w).noData w)) ∧
  (∀ (s : State) (a : Addr) (v : Word) (b : Blk) (off : Nat) (x : RegRow), a.toNat % 4 = 0 → s.target a = .reg b off →
    s.reaches b off true = true → findRow b off = some x → x.so = true → exec (.soRegisterWrite a v) s =
      .next (s.busErr E.SYS_BUS_ERR.SO_WRITE (BitVec.ofNat 40 (regAddr ⟨b, off⟩)) true)) ∧
  (∀ (s : State) (a : Addr) (w : Bool) (e : Evt),
    e = E.SYS_BUS_ERR.ALIGN ∨ e = E.SYS_BUS_ERR.UNMAPPED ∨ e = E.SYS_BUS_ERR.BRIDGE_TO ∨ e = E.SYS_BUS_ERR.SO_WRITE →
    (s.busErr e a w).flag e = true ∧ (s.noData false).bus.readData = 0 ∧
    (∀ (b : Blk) (o : Nat), b ≠ .sys ∨ o ∉ [0x0C, 0x10, 0x14, 0x18, 0x1C] → (s.busErr e a w).rd b o = s.rd b o) ∧
    { s.busErr e a w with regs := s.regs } = s)

/-- R39: what `busErr` captures, and when. -/
def Obligations.BusErrorCapture : Prop :=
  ∀ (s : State) (a : Addr) (w : Bool) (e : Evt),
    e = E.SYS_BUS_ERR.ALIGN ∨ e = E.SYS_BUS_ERR.UNMAPPED ∨ e = E.SYS_BUS_ERR.BRIDGE_TO ∨ e = E.SYS_BUS_ERR.SO_WRITE →
    (getBits (s.r R.SYS_BUS_ERR.reg) 0 4 = 0 →
      (s.busErr e a w).r R.SYS_BUS_ERR_ADDR_LO.reg = a.setWidth 32 ∧
      (s.busErr e a w).f R.SYS_BUS_ERR_ADDR_HI.ADDR = a.toNat / 2 ^ 32 ∧
      (s.busErr e a w).f R.SYS_BUS_ERR_ADDR_HI.WRITE = b2n w) ∧
    (getBits (s.r R.SYS_BUS_ERR.reg) 0 4 ≠ 0 →
      (s.busErr e a w).r R.SYS_BUS_ERR_ADDR_LO.reg = s.r R.SYS_BUS_ERR_ADDR_LO.reg ∧
      (s.busErr e a w).r R.SYS_BUS_ERR_ADDR_HI.reg = s.r R.SYS_BUS_ERR_ADDR_HI.reg)

/-- R17. `highWord` is the high word as it stands; the pair of TIME_INCR acts through `incrWrite` and that of FE_DBG_DATA through
`dbgWrite`, every other one through the write of each word by its access code. A write of both words at once, by a command or by the time service
(`setIncr`), releases a low word held before. -/
def Obligations.PairAccess : Prop :=
  (∀ (s : State) (a : Addr) (b : Blk) (off : Nat) (x : RegRow), a.toNat % 4 = 0 → s.target a = .reg b off →
    s.reaches b off false = true → findRow b off = some x → isPairLow b off = true →
    ∃ t, exec (.pairLowRead a) s = .next t ∧ t.bus.readData = readMask x (s.see b x off).1 ∧
      t.shadowAt (regAddr ⟨b, off⟩) = some (s.highWord b off)) ∧
  (∀ (s : State) (a : Addr) (b : Blk) (lo : Nat) (x : RegRow), a.toNat % 4 = 0 → s.target a = .reg b (lo + 4) →
    s.reaches b (lo + 4) false = true → findRow b (lo + 4) = some x → isPairLow b (lo + 4) = false → isPairLow b lo = true →
    (∀ h, s.shadowAt (regAddr ⟨b, lo⟩) = some h →
      exec (.pairHighRead a) s = .next ((s.setShadow (regAddr ⟨b, lo⟩) none).answer h)) ∧
    (s.shadowAt (regAddr ⟨b, lo⟩) = none →
      ∃ t, exec (.pairHighRead a) s = .next t ∧ t.bus.readData = s.highWord b lo)) ∧
  (∀ (s : State) (a : Addr) (b : Blk) (off : Nat) (x : RegRow) (v : Word), a.toNat % 4 = 0 → s.target a = .reg b off →
    s.reaches b off true = true → findRow b off = some x → x.so = false → x.writable = true → isPairLow b off = true →
    exec (.pairLowWrite a v) s = .next (s.setHeld (regAddr ⟨b, off⟩) (some v)) ∧
    (s.setHeld (regAddr ⟨b, off⟩) (some v)).heldAt (regAddr ⟨b, off⟩) = some v) ∧
  (∀ (s : State) (a : Addr) (b : Blk) (lo : Nat) (x y : RegRow) (v : Word), a.toNat % 4 = 0 → s.target a = .reg b (lo + 4) →
    s.reaches b (lo + 4) true = true → findRow b (lo + 4) = some x → x.so = false → x.writable = true →
    isPairLow b (lo + 4) = false → isPairLow b lo = true → findRow b lo = some y →
    let l := (s.heldAt (regAddr ⟨b, lo⟩)).getD (s.wordNow b y lo)
    let s' := s.setHeld (regAddr ⟨b, lo⟩) none
    (b ≠ .fe → (⟨b, lo⟩ : Reg) ≠ R.TIME_INCR_LO.reg →
      exec (.pairHighWrite a v) s = .next ((s'.codeWrite b lo l).codeWrite b (lo + 4) v)) ∧
    ((⟨b, lo⟩ : Reg) = R.TIME_INCR_LO.reg →
      exec (.pairHighWrite a v) s = .next (s'.incrWrite (l.toNat + v.toNat % 256 * 2 ^ 32))) ∧
    (b = .fe → lo % 0x100000 = 0x54 →
      exec (.pairHighWrite a v) s = .next (s'.dbgWrite (lo / 0x100000) (l.toNat + v.toNat * 2 ^ 32)))) ∧
  (∀ (s : State) (v : DWord), s.reaches R.TIME_INCR_LO.reg.blk R.TIME_INCR_LO.reg.off true = true →
    exec (.timeIncrWrite v) s = .next (s.incrWrite (v.toNat % 2 ^ 40))) ∧
  (∀ (s : State) (n : Nat), (s.incrWrite n).heldAt (regAddr R.TIME_INCR_LO.reg) = none ∧
    (s.setIncr n).heldAt (regAddr R.TIME_INCR_LO.reg) = none) ∧
  (∀ (s : State) (p : Fin 18) (v : DWord),
    exec (.feDbgDataWrite p v) s = .next ((s.setHeld (regAddr (R.FE_DBG_DATA_LO.reg p)) none).dbgWrite p v.toNat))

/-- R10: `writeWord` and `afterRead` say the codes; `special` and `regEffect` are the identity for a register that neither shows
other state nor acts when it changes. -/
def Obligations.AccessCodes : Prop :=
  (∀ (s : State) (a : Addr) (v : Word) (b : Blk) (off : Nat) (x : RegRow), a.toNat % 4 = 0 → s.target a = .reg b off →
    s.reaches b off true = true → findRow b off = some x → x.so = false → x.writable = true → isPairLow b off = false →
    pairLowOf b off = none → s.command b x off v = none →
    exec (.registerWrite a v) s = .next (s.putReg b x off (writeWord x (s.wordNow b x off) v)) ∧
    (s.special b x off (writeWord x (s.wordNow b x off) v) = none →
      (∀ s' : State, State.regEffect s s' b off = s') →
      exec (.registerWrite a v) s = .next (s.wr b off (writeWord x (s.wordNow b x off) v)))) ∧
  (∀ (s : State) (a : Addr) (b : Blk) (off : Nat) (x : RegRow), a.toNat % 4 = 0 → s.target a = .reg b off →
    s.reaches b off false = true → findRow b off = some x → isPairLow b off = false → pairLowOf b off = none →
    exec (.rcRead a) s = .next (((s.see b x off).2.readClears b x off).answer (readMask x (s.see b x off).1))) ∧
  (∀ (w v : Word) (l n m : Nat) (r : Nat), l ≤ m → m < 32 → n = m - l + 1 →
    getBits (writeField v w ⟨m, l, .rw, r⟩) l n = getBits v l n ∧
    getBits (writeField v w ⟨m, l, .w1s, r⟩) l n = getBits w l n ||| getBits v l n ∧
    getBits (writeField v w ⟨m, l, .w1c, r⟩) l n = getBits w l n - (getBits w l n &&& getBits v l n) ∧
    writeField v w ⟨m, l, .ro, r⟩ = w ∧ writeField v w ⟨m, l, .rc, r⟩ = w ∧ writeField v w ⟨m, l, .so, r⟩ = w)

/-- R11, R26, R36. The stored word reads back, and no other byte outside group 0 changes. Outside the register region an access
of each width of R36 moves its bytes, lowest address first, and a store changes no other byte of the memory. That such an access
may have any alignment (assumption 128), what counts as a running engine and that SYS_GHOST_USED follows a store (105), and
`coreFault` as the fault in the core (116) are the model's choices. -/
def Obligations.MemoryAccess : Prop :=
  (∀ (s : State) (a : Addr) (n : Fin 65) (d : BitVec 512) (o : Nat), inRegion a.toNat = false → n.val ∈ [1, 2, 4, 8, 64] →
    (s.target a = .sdram o → s.target (BitVec.ofNat 40 (a.toNat + n.val - 1)) = .sdram (o + n.val - 1) →
      (∃ t, exec (.unalignedAccess a n (some d)) s = .next t ∧ t.bus.sram = s.bus.sram ∧ t.fmem = s.fmem ∧ t.regs = s.regs ∧
        ∀ k, sget sdramByte t.bus.sdram k =
          if o ≤ k ∧ k < o + n.val then BitVec.ofNat 8 (d.toNat / 2 ^ (8 * (k - o))) else sget sdramByte s.bus.sdram k) ∧
      ∃ t, exec (.unalignedAccess a n none) s = .next t ∧ t.bus.readBytes = memBytes s.bus.sdram o n ∧
        t.bus.sdram = s.bus.sdram ∧ t.bus.sram = s.bus.sram ∧ t.fmem = s.fmem ∧ t.regs = s.regs) ∧
    (s.target a = .sram o → s.target (BitVec.ofNat 40 (a.toNat + n.val - 1)) = .sram (o + n.val - 1) →
      (∃ t, exec (.unalignedAccess a n (some d)) s = .next t ∧ t.bus.sdram = s.bus.sdram ∧ t.fmem = s.fmem ∧ t.regs = s.regs ∧
        ∀ k, sget sdramByte t.bus.sram k =
          if o ≤ k ∧ k < o + n.val then BitVec.ofNat 8 (d.toNat / 2 ^ (8 * (k - o))) else sget sdramByte s.bus.sram k) ∧
      ∃ t, exec (.unalignedAccess a n none) s = .next t ∧ t.bus.readBytes = memBytes s.bus.sram o n ∧
        t.bus.sdram = s.bus.sdram ∧ t.bus.sram = s.bus.sram ∧ t.fmem = s.fmem ∧ t.regs = s.regs)) ∧
  (∀ (s : State) (core : Nat) (a : Addr) (w : Bool), s.target a = .noMemory →
    ∃ t, exec (.unmappedMemoryAccess core a w) s = .next t ∧ t.bus.coreFault = some (core, a.toNat, w) ∧
      t.flag E.SYS_BUS_ERR.UNMAPPED = true ∧ t.fmem = s.fmem ∧ t.bus.sram = s.bus.sram ∧ t.bus.sdram = s.bus.sdram) ∧
  (∀ (s : State) (core : Nat) (a : Addr) (off : Nat), s.target a = .bootRom off →
    exec (.bootRomStore core a) s = .next { s with bus := { s.bus with coreFault := some (core, a.toNat, true) } }) ∧
  (∀ (s : State) (w : BitVec 24) (v : Word), (0x1800000 ≤ 4 * w.toNat ∧ 4 * w.toNat < 0x1804000) ∨
      (4 * w.toNat < 0x2000000 ∧ s.anyEngine = true) →
    exec (.fmemWindowWrite w v) s =
      .next (s.busErr E.SYS_BUS_ERR.SO_WRITE (BitVec.ofNat 40 (0x16000000 + 4 * w.toNat)) true)) ∧
  (∀ (s : State) (w : BitVec 24) (v : Word), ¬ (0x1800000 ≤ 4 * w.toNat ∧ 4 * w.toNat < 0x1804000) →
      ¬ (4 * w.toNat < 0x2000000 ∧ s.anyEngine = true) →
    ∃ t, exec (.fmemWindowWrite w v) s = .next t ∧ t.fword (4 * w.toNat) = v ∧
      (∀ a, (a < 4 * w.toNat ∨ 4 * w.toNat + 4 ≤ a) → ¬ (0x1800000 ≤ a ∧ a < 0x1804000) → t.fbyte a = s.fbyte a) ∧
      (∀ b o, b ≠ .sys ∨ o ≠ R.SYS_GHOST_USED.reg.off → t.rd b o = s.rd b o))

/-- R30, R40. -/
def Obligations.Domains : Prop :=
  (∀ (s : State) (a : BitVec 40) (w : Bool) (d : Nat), s.bridgeOf a = some d → 1 ≤ d → d ≤ 18 →
    ∃ t, exec (.bridgeTimeout a w) s = .next t ∧ t.flag E.SYS_BUS_ERR.BRIDGE_TO = true ∧ t.domainOk d = false ∧
      (w = false → t.bus.readData = 0) ∧
      (s.domainOk d = true → t.rcd.offered = s.rcd.offered ++ [⟨0x0101, 2, d, [0]⟩]) ∧
      (s.domainOk d = false → t.rcd = s.rcd)) ∧
  (∀ (s : State) (d : Fin 18), d.val ≠ 11 →
    ∃ t, exec (.domainUp d) s = .next t ∧ t.domainOk (d + 1) = true ∧ t.clockOn (d + 1) = true ∧
      (∀ e : Nat, 1 ≤ e → e ≤ 18 → e ≠ d.val + 1 → t.domainOk e = s.domainOk e) ∧ t.rcd = s.rcd) ∧
  (∀ (s : State) (d : Fin 18),
    ∃ t, exec (.domainLoss d) s = .next t ∧ t.domainOk (d + 1) = false ∧ t.clockOn (d + 1) = false ∧
      (s.domainOk (d + 1) = true → t.rcd.offered = s.rcd.offered ++ [⟨0x0101, 2, d + 1, [0]⟩]) ∧
      (∀ e : Nat, 1 ≤ e → e ≤ 18 → e ≠ d.val + 1 → t.domainOk e = s.domainOk e)) ∧
  (∀ s : State, s.domainOk 12 = true →
    exec .sdramTrainingLoss s = .next ((s.setDomain 12 false).record 0x0101 2 12 [0]))

/-! ## Start-up and engines (chapters 2 and 11) -/

/-- R346–R350, R330, R354, R365: completion of the start-up events with what each leaves. START_FWD_MS as ticks since the start is
the model's choice (assumption 91), and so are the planes of a start (`planesStart`, assumption 180) and the order in which the
ledger is read (`ledgerStart`, assumption 173). -/
def Obligations.StartUp : Prop :=
  (∀ s : State, s.power.step = 0 → s.power.inputOk = false → ∃ t, exec .inputValid s = .next t ∧ t.power.step = 1 ∧
    t.power.inputOk = true ∧ t.power.mainUp = true ∧
    t.r R.SYS_RST_CAUSE.reg =
      w32 (1 + b2n s.ledger.shutdown * 2 + b2n s.ledger.inLow * 0x40 + b2n s.ledger.pfw * 0x80) ∧
    t.ledger.pfw = false ∧ t.ledger.inLow = false ∧ t.ledger.shutdown = false ∧
    t.fmem = [] ∧ t.svc = s.svc.kept ∧ t.f R.PWR_IN_STATUS.VALID = 1 ∧ t.on R.RTC_STATUS.ON_BATT = false ∧
    t.r R.RTC_TIME.reg = s.r R.RTC_TIME.reg ∧ t.r R.RTC_DATE.reg = s.r R.RTC_DATE.reg ∧ t.rtc.held = s.rtc.held ∧
    t.rtc.hold = s.rtc.hold ∧ t.rtc.secAt = s.rtc.secAt - (s.opTotal : Int)) ∧
  (∀ s : State, s.power.step = 1 → ∃ t, exec .regulatorsUp s = .next t ∧ t.power.step = 2 ∧
    t.ledger.pwrCycles = (s.ledger.pwrCycles + 1) % 2 ^ 32 ∧ t.ledger.writeSeq = s.ledger.writeSeq + 1) ∧
  (∀ s : State, s.power.step = 2 → s.svc.recovery = false →
    let a := s.svc.active
    (s.bootable a = true →
      exec .bootImageSelect s = .next ((s.bootFrom a).modPower (fun p => { p with step := 3 }))) ∧
    (s.bootable a = false → (s.bootMark a).bootable (1 - a) = true →
      exec .bootImageSelect s = .next (((s.bootMark a).bootFrom (1 - a)).modPower (fun p => { p with step := 3 }))) ∧
    (s.bootable a = false → (s.bootMark a).bootable (1 - a) = false →
      exec .bootImageSelect s = .next (((s.bootMark a).bootMark (1 - a)).enterRecovery 0))) ∧
  (∀ (s : State) (l : List LdgLoss) (e : BitVec 2), s.power.step = 3 →
    (s.rcd.isOpen = true → exec (.sdramTrained l e) s =
      .next (((s.setClock 12 true).setDomain 12 true).modPower (fun p => { p with step := 4 }))) ∧
    (s.rcd.isOpen = false → exec (.sdramTrained l e) s =
      .next ((((((s.setClock 12 true).setDomain 12 true).modPower (fun p => { p with step := 4 })).ledgerStart l
        e.toNat).ledgerLoad.planesStart.recOpen.mtrStart).keyTest).lcComplete)) ∧
  (∀ (s : State) (puf : Bool), s.power.step = 4 → ∃ t, exec (.ctrlUp puf) s = .next t ∧
    t.power.step = 5 ∧ t.f R.SYS_PWR_STATUS.CTRL_UP = 1) ∧
  (∀ s : State, s.power.step = 5 → s.power.timeUp = false → ∃ t, exec .timeBaseLoad s = .next t ∧ t.power.timeUp = true ∧
    t.time.now = s.loadTime % tbWrap ∧ t.flag E.TIME_EVT.STEPPED = s.flag E.TIME_EVT.STEPPED ∧ t.fe = s.fe) ∧
  (∀ s : State, s.power.timeUp = true → s.power.restored = false → ∃ t, exec .stateRestore s = .next t ∧
    t.power.restored = true ∧ t.shf.torn = false) ∧
  (∀ s : State, s.power.restored = true → s.role = roleBoot → s.paired = false →
    exec .lightRun s = .next (((s.setRole roleSolo).intakeOpens.enginesStart).lightUp)) ∧
  (∀ s : State, s.power.restored = true → exec .plotSelfTestDone s = .next s.plotsTested) ∧
  (∀ s : State, s.power.restored = true → s.ringsUp = true → s.on R.SYS_PWR_STATUS.FWD_RUN = false →
    exec .fwdRun s = .next ((s.setF R.SYS_PWR_STATUS.FWD_RUN 1).setR R.SYS_START_FWD_MS.reg (w32 (s.power.opTicks / 625000))))

/-- R63, R64, R66–R69, R333: completion of the engine control commands. That RUN and STEP pass a breakpoint at their PC once is the
model's reading (assumption 14), and so is a hardware exception without an address as the corrected error (assumption 153). -/
def Obligations.EngineControl : Prop :=
  (∀ (s : State) (p : Fin 18), s.engRole p = roleActive → s.engState p = stHalted → exec (.feCmdRun p) s =
    .next ((s.modEng p (fun e => { e with passBrk := true, stepping := false })).setEngState p stRun)) ∧
  (∀ (s : State) (p : Fin 18), s.engRole p = roleActive → s.engState p = stWait → ∃ t, exec (.feCmdHalt p) s = .next t ∧
    t.engState p = stHalted ∧ t.pc p = s.pc p ∧ t.fe.lists = s.fe.lists ∧ (t.eng p).blocked = none ∧ otherEngines s t p) ∧
  (∀ (s : State) (p : Fin 18), s.engRole p = roleActive → s.engState p = stRun → (s.eng p).blocked = none →
    exec (.feCmdHalt p) s = .next (s.setEngState p stHalted)) ∧
  (∀ (s : State) (p : Fin 18), s.engRole p = roleActive → s.engState p = stHalted → s.debug p = true → s.fe.held = false →
    exec (.feCmdStep p) s = .next
      (((s.modEng p (fun e => { e with passBrk := true, stepping := true })).setEngState p stRun).zIssue p
        ((s.eng p).lsWord (4 * s.pc p)))) ∧
  (∀ (s : State) (p : Fin 18), s.engRole p = roleActive →
    exec (.feCmdReset p) s = .next (s.engRestart p (s.logicalOf p) stHalted)) ∧
  (∀ (s : State) (p : Fin 18), s.lcState = lcService → ∃ t, exec (.debugEnable p) s = .next t ∧ t.debug p = true ∧
    t.fe = s.fe ∧ otherEngines s t p) ∧
  (∀ (s : State) (p : Fin 18), s.lcState ≠ lcService → s.debug p = false → ∃ t, exec (.debugEnable p) s = .next t ∧
    t.debug p = false ∧ t.fe = s.fe ∧ otherEngines s t p) ∧
  (∀ (s : State) (p : Fin 18) (v : Word), s.engState p = stHalted → s.debug p = true →
    exec (.fePcWrite p v) s = .next (s.setPc p (getBits v 0 16))) ∧
  (∀ (s : State) (p : Fin 18) (v : DWord) (i : Nat), s.engState p = stHalted → s.debug p = true →
    s.f (R.FE_DBG_SEL.FILE p) = 0 → s.f (R.FE_DBG_SEL.INDEX p) = i → 1 ≤ i →
    ∃ t, exec (.feDbgDataWrite p v) s = .next t ∧ t.w p i = v ∧ t.regs = s.regs ∧ t.fmem = s.fmem ∧ otherEngines s t p ∧
      ∀ q j, (q ≠ p.val ∨ j ≠ i) → t.w q j = s.w q j) ∧
  (∀ (s : State) (p : Fin 18), s.engState p = stHalted → ∃ t, exec (.feLsDataRead p) s = .next t ∧
    t.bus.readData = (s.eng p).lsWord (4 * s.f (R.FE_LS_ADDR.WORD p)) ∧
    t.f (R.FE_LS_ADDR.WORD p) = (s.f (R.FE_LS_ADDR.WORD p) + 1) % 65536 ∧ t.fe = s.fe) ∧
  (∀ (s : State) (p : Fin 18) (v : Word), s.debug p = true → ∃ t, exec (.feLsDataWrite p v) s = .next t ∧
    (t.eng p).lsWord (4 * s.f (R.FE_LS_ADDR.WORD p)) = v ∧ t.fe.images = s.fe.images ∧ otherEngines s t p ∧
    t.f (R.FE_LS_ADDR.WORD p) = (s.f (R.FE_LS_ADDR.WORD p) + 1) % 65536) ∧
  (∀ (s : State) (p : Fin 18), s.issuing p = true → s.breakHere p = true → (s.eng p).passBrk = false →
    ∃ t, exec (.breakpointHalt p) s = .next t ∧ t.engState p = stHalted ∧ t.flag (E.FE_EVT.BRK p) = true ∧
      t.pc p = s.pc p ∧ otherEngines s t p ∧ ∀ i, t.w p i = s.w p i) ∧
  (∀ (s : State) (p : Fin 18), s.engState p = stException → s.engRole p = roleActive → s.role = 3 ∨ s.role = 5 → exec (.engineRestart p) s =
    .next ((s.engRestart p (s.logicalOf p) stRun).restartEvent (s.logicalOf p) (s.f (R.FE_EXC.CODE p)) (s.f (R.FE_EXC.PC p)))) ∧
  (∀ (s : State) (p : Fin 18), s.role ≠ 3 → s.role ≠ 5 → exec (.engineRestart p) s = .next s) ∧
  (∀ (s : State) (p : Fin 18) (k : Fin 4) (a : Word), s.power.step ≠ 0 → s.engRole p = roleActive → s.underPass hcEngine p = false →
    s.recentTransients hcEngine p < 7 → ∃ t, exec (.hwException p k (some a)) s = .next t ∧ t.engRole p = roleHarrow ∧
      t.f (R.FE_EXC.CODE p) = 0x40 + k ∧ ⟨hcEngine, p, false⟩ ∈ t.spares.passes) ∧
  (∀ (s : State) (p : Fin 18) (k : Fin 4), k.val < 2 → ∃ t, exec (.hwException p k none) s = .next t ∧
    t.f (R.FE_ECC_CNT.CORR p) = satInc 0xFFFF (s.f (R.FE_ECC_CNT.CORR p)) ∧ t.fe = s.fe ∧ t.spares = s.spares ∧
    ∀ b o, (⟨b, o⟩ : Reg) ≠ R.FE_ECC_CNT.reg p → t.rd b o = s.rd b o) ∧
  (∀ (s : State) (i : Fin 131072), s.qualifies i = true → ∃ t, exec (.opMinIncrement i) s = .next t ∧
    t.ep i EP.OP_MIN = satInc 0xFFFFFFFF (s.ep i EP.OP_MIN) ∧ t.regs = s.regs)

/-! ## Sheaves (chapter 3) -/

/-- R72, R83: the commands of FE_SHF_CMD on the selected context, their results, and the refusal of every command in every state that
the table of R72 does not list for it; R355: after a supply warning each of them is refused; R558: so is APPLY before a
confirmation. `shfRefuse` is what a refusal changes. That an APPLY while another sheaf is in COMMITTING repeats its check is the
model's reading (assumption 12). -/
def Obligations.SheafCommands : Prop :=
  (∀ (s : State) (v : Word) (i : Instr), i ∈ [.feShfOpen, .feShfCheck, .feShfApply, .feShfDiscard, .feShfDataWrite v] →
    s.power.step = 0 → exec i s = .next (s.shfRefuse s.shfSel resNotPermitted) ∧
      (s.shfRefuse s.shfSel resNotPermitted).flag E.FE_SHF_EVT.REFUSED = true) ∧
  (∀ (s : State) (c res : Nat), let t := s.shfRefuse c res
    t.ctx c = { s.ctx c with result := res } ∧ (∀ d, d ≠ c → t.ctx d = s.ctx d) ∧ t.flag E.FE_SHF_EVT.REFUSED = true ∧
    (res = resPoolFull → t.flag E.FE_SHF_EVT.POOL_FULL = true) ∧ t.shf.lastSeq = s.shf.lastSeq ∧
    { t with regs := s.regs, shf := s.shf } = s) ∧
  (∀ (s : State) (v : Word) (i : Instr) (ok : List CtxSt), (i, ok) ∈ [(.feShfOpen, [CtxSt.free, .failed]), (.feShfCheck, [.opened]),
      (.feShfDataWrite v, [.opened, .checked]), (.feShfDiscard, [.opened, .checked, .failed])] → s.power.step ≠ 0 →
    ((s.ctx s.shfSel).st = .free ∨ (s.ctx s.shfSel).owner = some .firmware) → (s.ctx s.shfSel).st ∉ ok →
    exec i s = .next (s.shfRefuse s.shfSel resNotPermitted)) ∧
  (∀ s : State, s.power.step ≠ 0 →
    ((s.ctx s.shfSel).st = .free ∨ (s.ctx s.shfSel).owner = some .firmware) → (s.ctx s.shfSel).st ≠ .checked →
    s.svc.act ≠ 3 → exec .feShfApply s = .next (s.shfRefuse s.shfSel resNotChecked)) ∧
  (∀ s : State, s.power.step ≠ 0 → s.svc.act = 3 → exec .feShfApply s = .next (s.shfRefuse s.shfSel resNotPermitted)) ∧
  (∀ (s : State) (v : Word) (l : Nat) (i : Instr), i ∈ [.feShfOpen, .feShfCheck, .feShfApply, .feShfDiscard, .feShfDataWrite v] →
    s.power.step ≠ 0 → s.svc.act ≠ 3 → (s.ctx s.shfSel).st ≠ .free → (s.ctx s.shfSel).owner = some (.engine l) →
    exec i s = .next (s.shfRefuse s.shfSel resNotOwner)) ∧
  (∀ s : State, s.power.step ≠ 0 → (s.ctx s.shfSel).st = .free → ∃ t, exec .feShfOpen s = .next t ∧
    (t.ctx s.shfSel).st = .opened ∧ (t.ctx s.shfSel).owner = some .firmware ∧ (t.ctx s.shfSel).entries = [] ∧ t.regs = s.regs ∧
      t.fmem = s.fmem ∧
    ∀ c, c ≠ s.shfSel → t.ctx c = s.ctx c) ∧
  (∀ s : State, s.power.step ≠ 0 → (s.ctx s.shfSel).st = .failed → (s.ctx s.shfSel).owner = some .firmware →
    ∃ t, exec .feShfOpen s = .next t ∧ (t.ctx s.shfSel).st = .opened ∧ (t.ctx s.shfSel).owner = some .firmware ∧
      (t.ctx s.shfSel).entries = [] ∧ (t.ctx s.shfSel).result = resOk ∧ t.regs = s.regs ∧ t.fmem = s.fmem ∧
      ∀ c, c ≠ s.shfSel → t.ctx c = s.ctx c) ∧
  (∀ (s : State) (v : Word) (x : Ctx), s.power.step ≠ 0 → s.ctx s.shfSel = x → (x.st = .opened ∨ x.st = .checked) →
    x.owner = some .firmware → s.shfUsed < shfPool → ∃ t, exec (.feShfDataWrite v) s = .next t ∧ (t.ctx s.shfSel).st = .opened ∧
      (t.ctx s.shfSel).entries = x.entries ++ [⟨x.space, x.addr, x.mask, v⟩] ∧ (t.ctx s.shfSel).result = resOk ∧
      t.regs = s.regs ∧ ∀ c, c ≠ s.shfSel → t.ctx c = s.ctx c) ∧
  (∀ (s : State) (v : Word) (x : Ctx), s.power.step ≠ 0 → s.ctx s.shfSel = x → (x.st = .opened ∨ x.st = .checked) →
    x.owner = some .firmware → shfPool ≤ s.shfUsed → ∃ t, exec (.feShfDataWrite v) s = .next t ∧ (t.ctx s.shfSel).st = x.st ∧
      (t.ctx s.shfSel).entries = x.entries ∧ (t.ctx s.shfSel).result = resPoolFull ∧ t.flag E.FE_SHF_EVT.POOL_FULL = true ∧
      t.flag E.FE_SHF_EVT.REFUSED = true) ∧
  (∀ s : State, s.power.step ≠ 0 → (s.ctx s.shfSel).st = .opened → (s.ctx s.shfSel).owner = some .firmware →
    ∃ t, exec .feShfCheck s = .next t ∧ (t.ctx s.shfSel).st = .checking ∧ (t.ctx s.shfSel).entries = (s.ctx s.shfSel).entries ∧
      t.regs = s.regs ∧
    ∀ c, c ≠ s.shfSel → t.ctx c = s.ctx c) ∧
  (∀ (s : State) (x : Ctx), s.power.step ≠ 0 → s.ctx s.shfSel = x → x.st = .checked → x.owner = some .firmware →
    s.svc.act ≠ 3 →
    let late := ∃ d, d < 8 ∧ (s.ctx d).st = .pending ∧ stampUnits x.regWhen < stampUnits (s.ctx d).when_
    let far := stampUnits s.now + farUnits < stampUnits x.regWhen
    (x.regTimed = true → late → exec .feShfApply s = .next (s.shfRefuse s.shfSel resOrder)) ∧
    (x.regTimed = true → ¬late → far → exec .feShfApply s = .next (s.shfRefuse s.shfSel resFar)) ∧
    (x.regTimed = false ∨ (¬late ∧ ¬far) →
      (s.shf.commits = x.checkedAt → s.committing = false → ∃ t, exec .feShfApply s = .next t ∧
        (t.ctx s.shfSel).st = .committing ∧ (t.ctx s.shfSel).seq = s.shf.lastSeq + 1 ∧ t.shf.lastSeq = s.shf.lastSeq + 1 ∧
        (t.ctx s.shfSel).timed = x.regTimed ∧ (t.ctx s.shfSel).when_ = x.regWhen ∧ (t.ctx s.shfSel).entries = x.entries ∧
        t.regs = s.regs ∧ t.fmem = s.fmem ∧ ∀ c, c ≠ s.shfSel → t.ctx c = s.ctx c) ∧
      (s.shf.commits ≠ x.checkedAt ∨ s.committing = true → ∃ t, exec .feShfApply s = .next t ∧
        (t.ctx s.shfSel).st = .checking ∧ (t.ctx s.shfSel).forApply = true ∧ (t.ctx s.shfSel).entries = x.entries ∧
        t.shf.lastSeq = s.shf.lastSeq ∧ t.regs = s.regs ∧ t.fmem = s.fmem ∧ ∀ c, c ≠ s.shfSel → t.ctx c = s.ctx c))) ∧
  (∀ (s : State) (x : Ctx), s.power.step ≠ 0 → s.ctx s.shfSel = x → (x.st = .opened ∨ x.st = .checked ∨ x.st = .failed) →
    x.owner = some .firmware → ∃ t, exec .feShfDiscard s = .next t ∧ (t.ctx s.shfSel).st = .free ∧ (t.ctx s.shfSel).entries = [] ∧
      (t.ctx s.shfSel).owner = none ∧ t.regs = s.regs ∧ ∀ c, c ≠ s.shfSel → t.ctx c = s.ctx c) ∧
  (∀ s : State, s.power.step ≠ 0 → (s.ctx s.shfSel).st = .pending → (s.ctx s.shfSel).owner = some .firmware → ∃ t,
    exec .feShfDiscard s = .next t ∧ (t.ctx s.shfSel).st = .pending ∧ (t.ctx s.shfSel).result = resNotPermitted ∧
      (t.ctx s.shfSel).entries = (s.ctx s.shfSel).entries)

/-- R72, R73, R75, R77, R78, R80, R325. That shadows whose loading completes exactly at the instant count as late is the model's
choice (assumption 133), and so is the layout of the entries that the digest of R75 covers (179). -/
def Obligations.SheafLife : Prop :=
  (∀ (s : State) (c : Fin 8) (x : Ctx), s.ctx c = x → x.st = .checking → x.forApply = false → x.dropAfter = false → x.hnd = none →
    (∀ p, p < 18 → (s.eng p).blocked = none) →
    ∃ t, exec (.checkComplete c) s = .next t ∧ match s.checkSheaf x.entries with
      | none => (t.ctx c).st = .checked ∧ (t.ctx c).result = resOk ∧ (t.ctx c).entries = x.entries ∧
          (t.ctx c).checkedAt = s.shf.commits ∧ t.regs = s.regs
      | some f => (t.ctx c).st = .failed ∧ (t.ctx c).result = resRule ∧ (t.ctx c).failRule = f.rule ∧
          (t.ctx c).failIndex = f.index ∧ t.flag E.FE_SHF_EVT.CHK_FAIL = true) ∧
  (∀ (s : State) (c : Fin 8) (x : Ctx), s.ctx c = x → x.st = .committing → s.flashStuck .journal = false →
    exec (.sheafCommit c) s =
      .next (((s.shfCommit c).ledgerCommit (.sheaf x.seq) (leBytes 4 x.seq)).ckptSend (.journal x.journal)) ∧
    ((s.shfCommit c).ctx c).st = (if x.timed = true ∧ s.reached x.when_ = false then CtxSt.pending else CtxSt.applying) ∧
    (s.shfCommit c).shf.commits = s.shf.commits + 1 ∧
    (∃ y ∈ (s.shfCommit c).shf.waiting, y.seq = x.seq ∧ y.timed = x.timed ∧ y.entries = x.entries ∧ y.images = x.images ∧
      y.digest = sha256 (x.entries.flatMap ShfEntry.bytes)) ∧
    (x.timed = true → s.reached x.when_ = true → (s.shfCommit c).flag E.FE_SHF_EVT.APPLIED_LATE = true)) ∧
  (∀ (s : State) (c : Fin 8) (x : Ctx), s.ctx c = x → x.st = .pending → x.loaded = false → s.shfNext c = true →
    (s.reached x.when_ = false → ∃ t, exec (.shadowLoadDone c) s = .next t ∧ (t.ctx c).st = .pending ∧ (t.ctx c).loaded = true ∧
      t.regs = s.regs) ∧
    (s.reached x.when_ = true → ∃ t, exec (.shadowLoadDone c) s = .next t ∧ (t.ctx c).st = .applying ∧
      t.flag E.FE_SHF_EVT.APPLIED_LATE = true)) ∧
  (∀ (s : State) (c : Fin 8), s.applyDue c = true → exec (.sheafApplyInstant c) s = .next (s.shfApplyNow c) ∧
    ((s.shfApplyNow c).ctx c).st = .free ∧ (s.shfApplyNow c).flag E.FE_SHF_EVT.APPLIED = true ∧
    (s.shfApplyNow c).r R.FE_SHF_SEQ.reg = w32 (s.ctx c).seq ∧
    ∀ (a m v : Word), (s.ctx c).entries = [⟨1, a, m, v⟩] → (s.ctx c).images = [] → 0x1804000 ≤ a.toNat →
      shfWord a.toNat = true → (s.shfApplyNow c).fword a.toNat = mergeMask (s.fword a.toNat) v m)

/-! ## ZHN instructions (chapter 4) -/

/-- R95: one clause per row of the table. `goOn` retires the instruction. -/
def Obligations.AluResult : Prop :=
  ∀ (s : State) (p : Fin 18) (ps : Fin 8) (rd ra rb : Fin 32), runs s p ps →
    let a := s.w p ra
    let b := s.w p rb
    let d := s.w p rd
    let n := b.toNat % 64
    let wr := fun (cost : Nat) (v : DWord) => goOn s (s.setW p rd v) p cost
    exec (.add p ps rd ra rb) s = wr 1 (a + b) ∧
    exec (.sub p ps rd ra rb) s = wr 1 (a - b) ∧
    exec (.and p ps rd ra rb) s = wr 1 (a &&& b) ∧
    exec (.or p ps rd ra rb) s = wr 1 (a ||| b) ∧
    exec (.xor p ps rd ra rb) s = wr 1 (a ^^^ b) ∧
    exec (.andn p ps rd ra rb) s = wr 1 (a &&& ~~~b) ∧
    exec (.sll p ps rd ra rb) s = wr 1 (BitVec.ofNat 64 (a.toNat * 2 ^ n)) ∧
    exec (.srl p ps rd ra rb) s = wr 1 (BitVec.ofNat 64 (a.toNat / 2 ^ n)) ∧
    exec (.sra p ps rd ra rb) s = wr 1 (BitVec.ofInt 64 (a.toInt / 2 ^ n)) ∧
    exec (.mul p ps rd ra rb) s = wr 3 (BitVec.ofNat 64 (a.toNat * b.toNat)) ∧
    exec (.mulh p ps rd ra rb) s = wr 4 (BitVec.ofInt 64 (a.toInt * b.toInt / 2 ^ 64)) ∧
    exec (.mulhu p ps rd ra rb) s = wr 4 (BitVec.ofNat 64 (a.toNat * b.toNat / 2 ^ 64)) ∧
    (b ≠ 0 → exec (.div p ps rd ra rb) s = wr 34 (BitVec.ofInt 64 (a.toInt.tdiv b.toInt)) ∧
      exec (.divu p ps rd ra rb) s = wr 34 (BitVec.ofNat 64 (a.toNat / b.toNat)) ∧
      exec (.rem p ps rd ra rb) s = wr 34 (BitVec.ofInt 64 (a.toInt.tmod b.toInt)) ∧
      exec (.remu p ps rd ra rb) s = wr 34 (BitVec.ofNat 64 (a.toNat % b.toNat))) ∧
    exec (.min p ps rd ra rb) s = wr 1 (BitVec.ofInt 64 (min a.toInt b.toInt)) ∧
    exec (.max p ps rd ra rb) s = wr 1 (BitVec.ofInt 64 (max a.toInt b.toInt)) ∧
    exec (.minu p ps rd ra rb) s = wr 1 (BitVec.ofNat 64 (min a.toNat b.toNat)) ∧
    exec (.maxu p ps rd ra rb) s = wr 1 (BitVec.ofNat 64 (max a.toNat b.toNat)) ∧
    exec (.clamp p ps rd ra rb) s = wr 1 (BitVec.ofInt 64 (max (min d.toInt b.toInt) a.toInt)) ∧
    exec (.popc p ps rd ra) s = wr 1 (BitVec.ofNat 64 ((List.range 64).countP (fun k => a.getLsbD k))) ∧
    (∀ k : Nat, k < 64 → a.getLsbD k = true →
      ((∀ j, k < j → j < 64 → a.getLsbD j = false) → exec (.clz p ps rd ra) s = wr 1 (BitVec.ofNat 64 (63 - k))) ∧
      ((∀ j, j < k → a.getLsbD j = false) → exec (.ctz p ps rd ra) s = wr 1 (BitVec.ofNat 64 k))) ∧
    (a = 0 → exec (.clz p ps rd ra) s = wr 1 64 ∧ exec (.ctz p ps rd ra) s = wr 1 64)

/-- R96, over the instructions' next states. -/
def Obligations.IntegerCorners : Prop :=
  ∀ (s : State) (p : Fin 18) (ps : Fin 8) (rd ra rb : Fin 32) (imm : BitVec 16), runs s p ps →
    let a := s.w p ra
    let b := s.w p rb
    let d := s.w p rd
    let wr := fun (cost : Nat) (v : DWord) => goOn s (s.setW p rd v) p cost
    exec (.add p ps rd ra rb) s = wr 1 (BitVec.ofInt 64 (a.toInt + b.toInt)) ∧
    exec (.add p ps rd ra rb) s = wr 1 (BitVec.ofNat 64 (a.toNat + b.toNat)) ∧
    exec (.sub p ps rd ra rb) s = wr 1 (BitVec.ofInt 64 (a.toInt - b.toInt)) ∧
    exec (.mul p ps rd ra rb) s = wr 3 (BitVec.ofInt 64 (a.toInt * b.toInt)) ∧
    exec (.addi p ps rd imm) s = wr 1 (BitVec.ofInt 64 (d.toInt + imm.toInt)) ∧
    exec (.muli p ps rd imm) s = wr 3 (BitVec.ofInt 64 (d.toInt * imm.toInt)) ∧
    (b = 0 → exec (.div p ps rd ra rb) s = wr 34 (BitVec.allOnes 64) ∧ exec (.divu p ps rd ra rb) s = wr 34 (BitVec.allOnes 64) ∧
      exec (.rem p ps rd ra rb) s = wr 34 a ∧ exec (.remu p ps rd ra rb) s = wr 34 a) ∧
    (a.toInt = -2 ^ 63 → b.toInt = -1 → exec (.div p ps rd ra rb) s = wr 34 (BitVec.ofInt 64 (-2 ^ 63)) ∧
      exec (.rem p ps rd ra rb) s = wr 34 0) ∧
    (b.toInt < a.toInt → exec (.clamp p ps rd ra rb) s = wr 1 a)

/-- R97: one clause per row of the table. -/
def Obligations.ImmediateResult : Prop :=
  ∀ (s : State) (p : Fin 18) (ps : Fin 8) (rd : Fin 32) (imm : BitVec 16) (n : Fin 64), runs s p ps →
    let d := s.w p rd
    let sx := imm.signExtend 64
    let zx := imm.setWidth 64
    let wr := fun (cost : Nat) (v : DWord) => goOn s (s.setW p rd v) p cost
    exec (.li p ps rd imm) s = wr 1 sx ∧
    exec (.lis p ps rd imm) s = wr 1 ((d <<< 16) ||| zx) ∧
    exec (.addi p ps rd imm) s = wr 1 (d + sx) ∧
    exec (.andi p ps rd imm) s = wr 1 (d &&& zx) ∧
    exec (.ori p ps rd imm) s = wr 1 (d ||| zx) ∧
    exec (.xori p ps rd imm) s = wr 1 (d ^^^ zx) ∧
    exec (.slli p ps rd n) s = wr 1 (BitVec.ofNat 64 (d.toNat * 2 ^ n.val)) ∧
    exec (.srli p ps rd n) s = wr 1 (BitVec.ofNat 64 (d.toNat / 2 ^ n.val)) ∧
    exec (.srai p ps rd n) s = wr 1 (BitVec.ofInt 64 (d.toInt / 2 ^ n.val)) ∧
    exec (.muli p ps rd imm) s = wr 3 (d * sx) ∧
    exec (.mini p ps rd imm) s = wr 1 (BitVec.ofInt 64 (min d.toInt imm.toInt)) ∧
    exec (.maxi p ps rd imm) s = wr 1 (BitVec.ofInt 64 (max d.toInt imm.toInt))

/-- R98. The list gives the condition of each code. -/
def Obligations.PredicateResult : Prop :=
  ∀ (s : State) (p : Fin 18) (ps pd pn pa pb : Fin 8) (ra rb : Fin 32) (imm : BitVec 10), runs s p ps →
    let a := s.w p ra
    let b := s.w p rb
    let sx := imm.signExtend 64
    let x := s.p p pa
    let y := s.p p pb
    let both := fun (v : Bool) => if pn.val = 0 then s.setP p pd v else (s.setP p pd v).setP p pn (!v)
    (∀ (c : Fin 16) (v : Bool), [decide (a = b), decide (a ≠ b), decide (a.toInt < b.toInt), decide (b.toInt ≤ a.toInt),
        decide (a.toNat < b.toNat), decide (b.toNat ≤ a.toNat), decide (a &&& b ≠ 0)][c.val]? = some v →
      (pd ≠ pn ∨ pd = 0) → exec (.cmp p ps c pd pn ra rb) s = goOn s (both v) p 1) ∧
    (∀ c : Fin 16, 6 < c.val ∨ (pd = pn ∧ pd ≠ 0) →
      exec (.cmp p ps c pd pn ra rb) s = .next (s.progExc p 0x01 0)) ∧
    (∀ (c : Fin 4) (v : Bool), [decide (a = sx), decide (a.toInt < imm.toInt), decide (a.toNat < sx.toNat),
        decide (a &&& imm.setWidth 64 ≠ 0)][c.val]? = some v → (pd ≠ pn ∨ pd = 0) →
      exec (.cmpi p ps c pd pn ra imm) s = goOn s (both v) p 1) ∧
    (pd = pn → pd ≠ 0 → ∀ c : Fin 4, exec (.cmpi p ps c pd pn ra imm) s = .next (s.progExc p 0x01 0)) ∧
    exec (.plogAnd p ps pd pa pb) s = goOn s (s.setP p pd (x && y)) p 1 ∧
    exec (.plogOr p ps pd pa pb) s = goOn s (s.setP p pd (x || y)) p 1 ∧
    exec (.plogXor p ps pd pa pb) s = goOn s (s.setP p pd (xor x y)) p 1 ∧
    exec (.plogAndn p ps pd pa pb) s = goOn s (s.setP p pd (x && !y)) p 1 ∧
    exec (.plogNot p ps pd pa) s = goOn s (s.setP p pd (!x)) p 1 ∧
    exec (.plogSet p ps pd) s = goOn s (s.setP p pd true) p 1 ∧
    exec (.plogClr p ps pd) s = goOn s (s.setP p pd false) p 1

/-- R99, R121. -/
def Obligations.BranchResult : Prop :=
  ∀ (s : State) (p : Fin 18) (ps : Fin 8) (off : BitVec 21) (ra : Fin 32), jumps s p ps →
    let go := fun (t : State) (n : Nat) => Host.Outcome.next (t.retire p 2 n [])
    let out := Host.Outcome.next (s.progExc p 0x07 0)
    let l := s.setW p 31 (BitVec.ofNat 64 (s.pc p + 1))
    let cw := (s.eng p).codeWords
    (∀ n : Nat, (n : Int) = (s.pc p : Int) + off.toInt → n < cw →
      exec (.b p ps off) s = go s n ∧ exec (.call p ps off) s = go l n) ∧
    (((s.pc p : Int) + off.toInt < 0 ∨ (cw : Int) ≤ (s.pc p : Int) + off.toInt) →
      exec (.b p ps off) s = out ∧ exec (.call p ps off) s = out) ∧
    (∀ n : Nat, n = (s.w p 31).toNat % 65536 → (n < cw → exec (.ret p ps) s = go s n) ∧ (cw ≤ n → exec (.ret p ps) s = out)) ∧
    (∀ n : Nat, n = (s.w p ra).toNat % 65536 →
      (n < cw → exec (.jr p ps ra) s = go s n ∧ exec (.callr p ps ra) s = go l n) ∧
      (cw ≤ n → exec (.jr p ps ra) s = out ∧ exec (.callr p ps ra) s = out))

/-- R84–R86, R89: the frame of every ZHN instruction whose statement ends in `goOn`. -/
def Obligations.RetireFrame : Prop :=
  ∀ (s : State) (p : Fin 18) (cost npc : Nat) (touched : List (Nat × Bool)), npc < 65536 →
    let t := s.retire p cost npc touched
    t.pc p = npc ∧ (t.eng p).tokens = (s.eng p).tokens + BitVec.ofNat 64 cost ∧ (t.eng p).insns = (s.eng p).insns + 1 ∧
    (∀ q i, t.w q i = s.w q i ∧ t.p q i = s.p q i ∧ t.e q i = s.e q i ∧ t.t q i = s.t q i) ∧
    (t.eng p).ls = (s.eng p).ls ∧ (t.eng p).codeWords = (s.eng p).codeWords ∧
    [(t.eng p).s5, (t.eng p).s6, (t.eng p).s7, (t.eng p).s8, (t.eng p).s12, (t.eng p).s13, (t.eng p).s14] =
      [(s.eng p).s5, (s.eng p).s6, (s.eng p).s7, (s.eng p).s8, (s.eng p).s12, (s.eng p).s13, (s.eng p).s14] ∧
    (∀ q : Nat, q ≠ p.val → t.eng q = s.eng q) ∧
    { t with regs := s.regs, fe := s.fe } = s ∧ t.fe.lists = s.fe.lists ∧ t.fe.images = s.fe.images ∧
    (s.watchHit p touched = true → t.engState p = stHalted ∧ t.flag (E.FE_EVT.BRK p) = true) ∧
    (s.watchHit p touched = false →
      t.engState p = (if (s.eng p).stepping = true then stHalted else s.engState p) ∧
      ∀ (b : Blk) (o : Nat), (⟨b, o⟩ : Reg) ≠ R.FE_PC.reg p → (⟨b, o⟩ : Reg) ≠ R.FE_STATUS.reg p → t.rd b o = s.rd b o)

/-- R88. `engLoad` is the load of R43 that every start and restart makes. That w0 reads 0 and p0 reads 1 is R89's. -/
def Obligations.RegisterFiles : Prop :=
  (∀ (s : State) (p : Fin 18) (i : Fin 32) (v : DWord), s.setW p 0 v = s ∧ s.w p 0 = 0 ∧
    (i.val ≠ 0 → (s.setW p i v).w p i = v) ∧
    (∀ q j : Nat, (q ≠ p.val ∨ j ≠ i.val) → (s.setW p i v).w q j = s.w q j) ∧
    { s.setW p i v with fe := s.fe } = s ∧
    (∀ q j : Nat, (s.setW p i v).p q j = s.p q j ∧ (s.setW p i v).e q j = s.e q j ∧ (s.setW p i v).t q j = s.t q j)) ∧
  (∀ (s : State) (p : Fin 18) (i : Fin 8) (v : Bool), s.setP p 0 v = s ∧ s.p p 0 = true ∧
    (i.val ≠ 0 → (s.setP p i v).p p i = v) ∧
    (∀ q j : Nat, (q ≠ p.val ∨ j ≠ i.val) → (s.setP p i v).p q j = s.p q j) ∧
    (∀ q j : Nat, (s.setP p i v).w q j = s.w q j ∧ (s.setP p i v).e q j = s.e q j ∧ (s.setP p i v).t q j = s.t q j)) ∧
  (∀ (s : State) (p : Fin 18) (i : Fin 4) (v : BitVec 25) (x : TReg),
    (s.setE p i v).e p i = v ∧ (s.setT p i x).t p i = x ∧
    (∀ q j : Nat, (q ≠ p.val ∨ j ≠ i.val) → (s.setE p i v).e q j = s.e q j ∧ (s.setT p i x).t q j = s.t q j)) ∧
  (∀ (s : State) (p : Fin 18) (l st : Nat) (x : Image), s.image l = some x → x.entry < 65536 → st < 8 →
    let t := s.engLoad p l st
    (∀ i : Nat, t.w p i = if i = 30 then 0x40000 else 0) ∧ (∀ i : Nat, i ≠ 0 → t.p p i = false) ∧
    (∀ i : Nat, t.e p i = 0 ∧ t.t p i = TReg.zero) ∧ (t.eng p).s12 = 0 ∧ (t.eng p).s13 = 0 ∧
    t.pc p = x.entry ∧ t.engState p = st)

/-- R87, for every command that has a word. That s10 counts such an instruction, as `retire` does, is the model's choice
(assumption 16). -/
def Obligations.PredicatedOff : Prop :=
  ∀ (i : Instr) (s : State) (p : Fin 18) (w : Word), encodeZhn i = some (p, w) → s.issuing p = true →
    s.pc p < (s.eng p).codeWords → (s.breakHere p = false ∨ (s.eng p).passBrk = true) →
    (s.p p (getBits w 23 3) = false → exec i s = .next (s.retire p 1 (s.pc p + 1) [])) ∧
    (s.p p (getBits w 23 3) = true → exec i s = .next (s.zhnEnd p (zSeq w) (zWord p w s)))

/-- R90–R92: decoding undoes encoding, at every value of every operand. -/
def Obligations.WordsAreCommands : Prop :=
  ∀ (i : Instr) (s : State) (p : Fin 18) (w : Word), encodeZhn i = some (p, w) → exec i s = .next (s.zIssue p w)

/-- R62, R63, R85, R93, R94. That a PC at or above CODE_WORDS raises PC_RANGE before anything else is looked at is the model's
choice (assumption 134), and that TRAP in the last word raises TRAP its reading (191). -/
def Obligations.ProgramExceptions : Prop :=
  (∀ (s : State) (p : Fin 18) (code : Nat) (a : Word), code < 256 → s.engRole p = roleActive →
    let t := s.progExc p code a
    t.f (R.FE_EXC.CODE p) = code ∧ t.f (R.FE_EXC.PC p) = s.pc p ∧ t.r (R.FE_EXC_ADDR.reg p) = a ∧ t.pc p = s.pc p ∧
    t.flag (E.FE_EVT.PROG_EXC p) = true ∧ (t.eng p).tokens = (s.eng p).tokens + 1 ∧ (t.eng p).insns = (s.eng p).insns ∧
    t.engState p = (if s.on (R.FE_CFG.EXC_ACT p) then stHalted else stException) ∧
    (∀ q i, t.w q i = s.w q i ∧ t.p q i = s.p q i ∧ t.e q i = s.e q i ∧ t.t q i = s.t q i) ∧
    (t.eng p).ls = (s.eng p).ls ∧ t.fmem = s.fmem ∧ t.hnd = s.hnd ∧ t.cal = s.cal ∧ t.shf = s.shf) ∧
  (∀ (i : Instr) (s : State) (p : Fin 18) (w : Word), encodeZhn i = some (p, w) → s.issuing p = true →
    (s.eng p).codeWords ≤ s.pc p → exec i s = .next (s.progExc p 0x07 0)) ∧
  (∀ (i : Instr) (s : State) (p : Fin 18) (w : Word), encodeZhn i = some (p, w) → jumps s p (getBits w 23 3) →
    zSeq w = true → s.pc p + 1 = (s.eng p).codeWords → (∀ a, zWord p w s ≠ .exc 0x01 a) →
    exec i s = .next (s.progExc p 0x07 0)) ∧
  (∀ (s : State) (p : Fin 18) (ps : Fin 8) (code : BitVec 10), jumps s p ps →
    exec (.trap p ps code) s = .next (s.progExc p 0x06 (code.setWidth 32)))

/-- R100–R103. `memAddr` is the address the meaning computes; `szBytes z` is the size in bytes. What conflicting accesses add to a
cost is a free value, since their number is not shown (`goOnField`, assumption 137). -/
def Obligations.LoadStore : Prop :=
  (∀ (s : State) (p : Fin 18) (ps : Fin 8) (z : Fin 4) (rd ra rb : Fin 32) (off : Fin 64), runs s p ps →
    let v := s.memAddr p ra z off
    let l := lsAddr v
    let a := v.toNat
    let n := szBytes z
    v = BitVec.ofInt 64 ((s.w p ra).toInt + toSigned 6 off * 2 ^ z.val) ∧ l = a % 0x40000 ∧ n = 2 ^ z.val ∧
    (l % n = 0 →
      exec (.ldl p ps z rd ra off) s = goOn s (s.setW p rd (BitVec.ofNat 64 (leNat (s.lsBytes p l n)))) p 2 ∧
      exec (.stl p ps z rb ra off) s = goOn s (s.lsStore p l (leBytes n (s.w p rb).toNat)) p 2) ∧
    (l % n ≠ 0 →
      exec (.ldl p ps z rd ra off) s = .next (s.progExc p 0x02 (w32 l)) ∧
      exec (.stl p ps z rb ra off) s = .next (s.progExc p 0x02 (w32 l))) ∧
    (a < 0x4000000 → a % n = 0 →
      exec (.ldf p ps z rd ra off) s =
        goOnField s (s.setW p rd (BitVec.ofNat 64 (leNat (s.fbytes a n)))) p 24 (touchedWords z a false) ∧
      (z.val < 3 → storeRo (s.logicalOf p) (a / 4 * 4) (s.fword (a / 4 * 4))
          (patchWord (s.fword (a / 4 * 4)) (a % 4) n (s.w p rb).toNat) = false →
        exec (.stf p ps z rb ra off) s = goOnField s (s.setFWord (a / 4 * 4)
          (patchWord (s.fword (a / 4 * 4)) (a % 4) n (s.w p rb).toNat)) p 4 (touchedWords z a true)) ∧
      (z = 3 → storeRo (s.logicalOf p) a (s.fword a) ((s.w p rb).setWidth 32) = false →
        storeRo (s.logicalOf p) (a + 4) (s.fword (a + 4)) ((s.w p rb >>> 32).setWidth 32) = false →
        exec (.stf p ps z rb ra off) s = goOnField s ((s.setFWord a ((s.w p rb).setWidth 32)).setFWord (a + 4)
          ((s.w p rb >>> 32).setWidth 32)) p 6 (touchedWords z a true)) ∧
      (z.val < 3 → storeRo (s.logicalOf p) (a / 4 * 4) (s.fword (a / 4 * 4))
          (patchWord (s.fword (a / 4 * 4)) (a % 4) n (s.w p rb).toNat) = true →
        exec (.stf p ps z rb ra off) s = .next (s.progExc p 0x05 (w32 a))) ∧
      (z = 3 → storeRo (s.logicalOf p) a (s.fword a) ((s.w p rb).setWidth 32) = true ∨
          storeRo (s.logicalOf p) (a + 4) (s.fword (a + 4)) ((s.w p rb >>> 32).setWidth 32) = true →
        exec (.stf p ps z rb ra off) s = .next (s.progExc p 0x05 (w32 a)))) ∧
    (0x4000000 ≤ a ∨ a % n ≠ 0 →
      exec (.ldf p ps z rd ra off) s = .next (s.progExc p 0x03 (w32 a)) ∧
      exec (.stf p ps z rb ra off) s = .next (s.progExc p 0x03 (w32 a)))) ∧
  (∀ (s : State) (p : Fin 18) (z : Fin 4) (l k : Nat) (v : DWord), l < 0x40000 → l % szBytes z = 0 → k < 0x40000 →
    let t := s.lsStore p l (leBytes (szBytes z) v.toNat)
    (l ≤ k → k < l + szBytes z → (t.eng p).lsByte k = BitVec.ofNat 8 (v.toNat / 256 ^ (k - l))) ∧
    (k < l ∨ l + szBytes z ≤ k → (t.eng p).lsByte k = (s.eng p).lsByte k) ∧
    { t with fe := s.fe } = s ∧ (∀ q i, t.w q i = s.w q i) ∧ ∀ q : Nat, q ≠ p.val → t.eng q = s.eng q) ∧
  (∀ (s : State) (z : Fin 4) (a k : Nat) (v : DWord), z.val < 3 → a < 0x4000000 → a % szBytes z = 0 →
    let t := s.setFWord (a / 4 * 4) (patchWord (s.fword (a / 4 * 4)) (a % 4) (szBytes z) v.toNat)
    (a ≤ k → k < a + szBytes z → t.fbyte k = BitVec.ofNat 8 (v.toNat / 256 ^ (k - a))) ∧
    (k < a ∨ a + szBytes z ≤ k → t.fbyte k = s.fbyte k) ∧ { t with fmem := s.fmem, pair := { t.pair with dirty := s.pair.dirty } } = s)

/-- R103–R107: completion of each instruction, and its exceptions in their order. What conflicting accesses add to a cost is a free
value (assumption 137). Which words of field memory a SCAN
or an ECUR loads for the watchpoint of R68 is the model's choice (assumption 159). -/
def Obligations.RecordsAndCursors : Prop :=
  ∀ (s : State) (p : Fin 18) (ps pd : Fin 8) (r : Fin 32) (ec : Fin 4) (word lsb wm1 : Fin 32), runs s p ps →
    let c := s.e p ec
    let i := curIdx c
    let a := epBase i + 4 * word.val
    let n := wm1.val + 1
    let v := s.w p r
    (lsb.val + n ≤ 32 → s.ep i EP.GEN = curGen c →
      exec (.lde p ps r ec word lsb wm1 false) s =
        goOnField s (s.setW p r (BitVec.ofNat 64 (getBits (s.fword a) lsb n))) p 24 [(a / 4, false)] ∧
      exec (.lde p ps r ec word lsb wm1 true) s =
        goOnField s (s.setW p r (BitVec.ofInt 64 (toSigned n (getBits (s.fword a) lsb n)))) p 24 [(a / 4, false)] ∧
      (s.epValid i = true → (∀ k : Nat, lsb.val ≤ k → k < lsb.val + n → (epWriterMask (4 * word.val)).testBit k = true) →
        exec (.ste p ps r ec word lsb wm1) s =
          goOnField s (s.setFWord a (setBits (s.fword a) lsb n v.toNat)) p 28 [(a / 4, true)]) ∧
      (s.epValid i = false → exec (.ste p ps r ec word lsb wm1) s = .next (s.progExc p 0x08 (w32 a))) ∧
      (s.epValid i = true → (∃ k : Nat, lsb.val ≤ k ∧ k < lsb.val + n ∧ (epWriterMask (4 * word.val)).testBit k = false) →
        exec (.ste p ps r ec word lsb wm1) s = .next (s.progExc p 0x05 (w32 a)))) ∧
    (lsb.val + n ≤ 32 → s.ep i EP.GEN ≠ curGen c →
      (∀ sx, exec (.lde p ps r ec word lsb wm1 sx) s = .next (s.progExc p 0x04 (w32 a))) ∧
      exec (.ste p ps r ec word lsb wm1) s = .next (s.progExc p 0x04 (w32 a))) ∧
    (32 < lsb.val + n → (∀ sx, exec (.lde p ps r ec word lsb wm1 sx) s = .next (s.progExc p 0x01 0)) ∧
      exec (.ste p ps r ec word lsb wm1) s = .next (s.progExc p 0x01 0)) ∧
    (2 ^ 25 ≤ v.toNat → exec (.ecur p ps ec r) s = .next (s.progExc p 0x0D 0)) ∧
    (2 ^ 17 ≤ v.toNat → exec (.ecurG p ps ec r) s = .next (s.progExc p 0x0D 0)) ∧
    (lsAddr v % 4 ≠ 0 → exec (.ldr p ps ec r) s = .next (s.progExc p 0x02 (w32 (lsAddr v)))) ∧
    (lsAddr v % 4 = 0 → s.ep i EP.GEN ≠ curGen c → exec (.ldr p ps ec r) s = .next (s.progExc p 0x04 (w32 (epBase i)))) ∧
    (32767 < v.toNat → exec (.scanRow p ps pd ec r) s = .next (s.progExc p 0x0D 0)) ∧
    (s.ep i EP.GEN ≠ curGen c → exec (.scanNext p ps pd ec) s = .next (s.progExc p 0x04 (w32 (epBase i)))) ∧
    (512 ≤ v.toNat / 2 ^ 32 ∨ 131072 ≤ v.toNat % 2 ^ 32 → exec (.scanGrp p ps pd ec r) s = .next (s.progExc p 0x0D 0)) ∧
    (v.toNat < 2 ^ 25 → exec (.ecur p ps ec r) s = goOn s (s.setE p ec (v.setWidth 25)) p 2) ∧
    (v.toNat < 2 ^ 17 → exec (.ecurG p ps ec r) s =
        goOnAt s (s.setE p ec (s.curTo v.toNat)) p 24 [genWord v.toNat] ∧
      curIdx (s.curTo v.toNat) = v.toNat ∧ curGen (s.curTo v.toNat) = s.ep v.toNat EP.GEN) ∧
    exec (.erd p ps r ec) s = goOn s (s.setW p r (c.setWidth 64)) p 1 ∧
    (lsAddr v % 4 = 0 → s.ep i EP.GEN = curGen c → exec (.ldr p ps ec r) s =
      goOnField s (s.lsStore p (lsAddr v) (s.fbytes (epBase i) 128)) p 48
        ((rangeFrom (epBase i / 4) 32).map (fun k => (k, false)))) ∧
    (v.toNat ≤ 32767 →
      (s.row v.toNat ROW.VALID = 0 → exec (.scanRow p ps pd ec r) s = goOnField s ((s.setP p pd false).setS14 p 3) p 26
        (scanRowWords v.toNat)) ∧
      (s.row v.toNat ROW.VALID ≠ 0 → s.row v.toNat ROW.HEAD_VALID = 0 →
        exec (.scanRow p ps pd ec r) s = goOnField s ((s.setP p pd false).setS14 p 0) p 26 (scanRowWords v.toNat)) ∧
      (s.row v.toNat ROW.VALID ≠ 0 → s.row v.toNat ROW.HEAD_VALID ≠ 0 → exec (.scanRow p ps pd ec r) s =
        goOnField s ((s.setE p ec (s.curTo (s.row v.toNat ROW.HEAD))).setP p pd true) p 26
          (scanRowWords v.toNat ++ [genWord (s.row v.toNat ROW.HEAD)]))) ∧
    (s.ep i EP.GEN = curGen c →
      ((s.epValid i = false ∨ s.ep i EP.ON_ROW = 0) →
        exec (.scanNext p ps pd ec) s = goOnField s ((s.setP p pd false).setS14 p 1) p 26 (scanNextWords i)) ∧
      (s.epValid i = true → s.ep i EP.ON_ROW ≠ 0 → s.ep i EP.NEXT_VALID = 0 →
        exec (.scanNext p ps pd ec) s = goOnField s ((s.setP p pd false).setS14 p 0) p 26 (scanNextWords i)) ∧
      (s.epValid i = true → s.ep i EP.ON_ROW ≠ 0 → s.ep i EP.NEXT_VALID ≠ 0 → exec (.scanNext p ps pd ec) s =
        goOnField s ((s.setE p ec (s.curTo (s.ep i EP.NEXT))).setP p pd true) p 26
          (scanNextWords i ++ [genWord (s.ep i EP.NEXT)]))) ∧
    (∀ g m : Nat, v.toNat = g * 2 ^ 32 + m → g < 512 → m < 131072 → canonical fmemReset s.fmem →
      (∀ j : Nat, m ≤ j → j < 131072 → s.grpBit g j = true → (∀ k, m ≤ k → k < j → s.grpBit g k = false) →
        exec (.scanGrp p ps pd ec r) s =
          goOnField s ((s.setE p ec (s.curTo j)).setP p pd true) p (4 + ceilDiv (j / 8 - m / 8 + 1) 64)
            (wordsFrom (grpBase g + m / 8) (j / 32 - m / 32 + 1) false ++ [genWord j])) ∧
      ((∀ k, m ≤ k → k < 131072 → s.grpBit g k = false) → exec (.scanGrp p ps pd ec r) s =
        goOnField s ((s.setP p pd false).setS14 p 2) p (4 + ceilDiv (16383 - m / 8 + 1) 64)
          (wordsFrom (grpBase g + m / 8) (4096 - m / 32) false)))

/-- R108, R62. What conflicting accesses add to a cost is a free value (assumption 137). -/
def Obligations.GroupInstructions : Prop :=
  (∀ (s : State) (p : Fin 18) (ps pd : Fin 8) (rg ri : Fin 32), runs s p ps →
    let g := (s.w p rg).toNat
    let i := (s.w p ri).toNat
    let at_ := fun (w : Bool) => [((grpBase g + i / 8) / 4, w)]
    (g < 512 → i < 131072 →
      (g ≠ 0 → exec (.grpSet p ps rg ri) s = goOnField s (s.setGrpBit g i true) p 24 (at_ true) ∧
        exec (.grpClr p ps rg ri) s = goOnField s (s.setGrpBit g i false) p 24 (at_ true)) ∧
      exec (.grpTst p ps pd rg ri) s = goOnField s (s.setP p pd (s.grpBit g i)) p 24 (at_ false)) ∧
    (g < 512 → canonical fmemReset s.fmem → exec (.grpCnt p ps ri rg) s = goOnField s (s.setW p ri
      (BitVec.ofNat 64 ((List.range 131072).countP (fun k => s.grpBit g k)))) p 260 (wordsFrom (grpBase g) 4096 false)) ∧
    (131072 ≤ i → exec (.grpSet p ps rg ri) s = .next (s.progExc p 0x0A 0) ∧
      exec (.grpClr p ps rg ri) s = .next (s.progExc p 0x0A 0) ∧ exec (.grpTst p ps pd rg ri) s = .next (s.progExc p 0x0A 0)) ∧
    (i < 131072 → 512 ≤ g → exec (.grpSet p ps rg ri) s = .next (s.progExc p 0x09 0) ∧
      exec (.grpClr p ps rg ri) s = .next (s.progExc p 0x09 0) ∧ exec (.grpTst p ps pd rg ri) s = .next (s.progExc p 0x09 0)) ∧
    (512 ≤ g → exec (.grpCnt p ps ri rg) s = .next (s.progExc p 0x09 0)) ∧
    (i < 131072 → g = 0 → exec (.grpSet p ps rg ri) s = .next (s.progExc p 0x05 (w32 (grpBase 0 + i / 32 * 4))) ∧
      exec (.grpClr p ps rg ri) s = .next (s.progExc p 0x05 (w32 (grpBase 0 + i / 32 * 4))))) ∧
  (∀ (s : State) (g i h j : Nat) (v : Bool), g < 512 → i < 131072 → h < 512 → j < 131072 →
    (s.setGrpBit g i v).grpBit h j = (if h = g ∧ j = i then v else s.grpBit h j) ∧
    { s.setGrpBit g i v with fmem := s.fmem, pair := { (s.setGrpBit g i v).pair with dirty := s.pair.dirty } } = s) ∧
  (∀ (s : State) (p : Fin 18) (ps : Fin 8) (rd ra rb : Fin 32), runs s p ps →
    let d := (s.w p rd).toNat
    let a := (s.w p ra).toNat
    let b := (s.w p rb).toNat
    let loads := fun (l : List Nat) => l.flatMap (fun g => wordsFrom (grpBase g) 4096 false)
    let whole := fun (o : Host.Outcome State Fault Refusal) (cost : Nat) (l : List Nat) (f : Bool → Bool → Bool) =>
      ∃ t, o = goOnField s t p cost (loads l ++ wordsFrom (grpBase d) 4096 true) ∧ (∀ k : Nat, k < 131072 → t.grpBit d k = f (s.grpBit a k) (s.grpBit b k)) ∧
        (∀ x : Nat, x < grpBase d ∨ grpBase d + 0x4000 ≤ x → t.fbyte x = s.fbyte x) ∧
          { t with fmem := s.fmem, pair := { t.pair with dirty := s.pair.dirty } } = s
    (0 < d → d < 512 → a < 512 → b < 512 →
      whole (exec (.grpOr p ps rd ra rb) s) 520 [a, b] (fun x y => x || y) ∧
      whole (exec (.grpAnd p ps rd ra rb) s) 520 [a, b] (fun x y => x && y) ∧
      whole (exec (.grpAndn p ps rd ra rb) s) 520 [a, b] (fun x y => x && !y)) ∧
    (0 < d → d < 512 → a < 512 → whole (exec (.grpCopy p ps rd ra) s) 520 [a] (fun x _ => x)) ∧
    (0 < d → d < 512 → whole (exec (.grpClrall p ps rd) s) 260 [] (fun _ _ => false)) ∧
    (512 ≤ d ∨ 512 ≤ a ∨ 512 ≤ b → exec (.grpOr p ps rd ra rb) s = .next (s.progExc p 0x09 0) ∧
      exec (.grpAnd p ps rd ra rb) s = .next (s.progExc p 0x09 0) ∧ exec (.grpAndn p ps rd ra rb) s = .next (s.progExc p 0x09 0)) ∧
    (512 ≤ d ∨ 512 ≤ a → exec (.grpCopy p ps rd ra) s = .next (s.progExc p 0x09 0)) ∧
    (512 ≤ d → exec (.grpClrall p ps rd) s = .next (s.progExc p 0x09 0)) ∧
    (d = 0 → exec (.grpClrall p ps rd) s = .next (s.progExc p 0x05 (w32 (grpBase 0))) ∧
      (a < 512 → exec (.grpCopy p ps rd ra) s = .next (s.progExc p 0x05 (w32 (grpBase 0)))) ∧
      (a < 512 → b < 512 → exec (.grpOr p ps rd ra rb) s = .next (s.progExc p 0x05 (w32 (grpBase 0))) ∧
        exec (.grpAnd p ps rd ra rb) s = .next (s.progExc p 0x05 (w32 (grpBase 0))) ∧
        exec (.grpAndn p ps rd ra rb) s = .next (s.progExc p 0x05 (w32 (grpBase 0))))))

/-- R109; `dimL` is characterised by integers, since 2·L(c) − 1 ≤ 200 × 1000^((c − 1)/1022) < 2·L(c) + 1. -/
def Obligations.DimCodes : Prop :=
  (∀ (s : State) (p : Fin 18) (ps : Fin 8) (rd ra : Fin 32), runs s p ps →
    ((s.w p ra).toNat < 1024 →
      exec (.dimcC2p p ps rd ra) s = goOn s (s.setW p rd (BitVec.ofNat 64 (dimL (s.w p ra).toNat))) p 6) ∧
    (1024 ≤ (s.w p ra).toNat → exec (.dimcC2p p ps rd ra) s = .next (s.progExc p 0x0D 0)) ∧
    exec (.dimcP2c p ps rd ra) s = goOn s (s.setW p rd (BitVec.ofNat 64 (dimP2c (s.w p ra).toInt))) p 6) ∧
  dimL 0 = 0 ∧ dimL 1 = 100 ∧ dimL 1023 = 100000 ∧ dimL 887 = 39883 ∧ dimL 888 = 40153 ∧
  (∀ c : Nat, 1 ≤ c → c ≤ 1023 → (2 * dimL c - 1) ^ 1022 ≤ 200 ^ 1022 * 1000 ^ (c - 1) ∧
    200 ^ 1022 * 1000 ^ (c - 1) < (2 * dimL c + 1) ^ 1022) ∧
  (∀ v : Int, 0 < v → v < 100000 → dimP2c v ≤ 1023 ∧ ∀ k : Nat, k ≤ 1023 →
    (v - dimL (dimP2c v)).natAbs ≤ (v - dimL k).natAbs ∧
    ((v - dimL (dimP2c v)).natAbs = (v - dimL k).natAbs → k ≤ dimP2c v)) ∧
  (∀ v : Int, v ≤ 0 → dimP2c v = 0) ∧ (∀ v : Int, 100000 ≤ v → dimP2c v = 1023) ∧ dimP2c 40000 = 887

/-- R110–R112. SUN's result lies within 0.02° of the Sun's position as Sun.lean computes it (assumption 8). -/
def Obligations.TimeInstructions : Prop :=
  ∀ (s : State) (p : Fin 18) (ps pd : Fin 8) (r : Fin 32) (td ta : Fin 4) (unit : Fin 5) (part : Fin 4) (imm : BitVec 8),
    runs s p ps →
    let x := s.t p ta
    let y := s.t p td
    let v := s.w p r
    let size := [1, 65536, 65536000, 65536000000, 65536000000000].getD unit.val 0
    let parts := fun (z : TReg) => [stampSec z.val, stampNs z.val, stampFrac z.val, z.tag.toNat]
    exec (.tnow p ps td) s = goOn s (s.setT p td ⟨s.now, BitVec.ofNat 8 s.stepEpoch⟩) p 12 ∧
    exec (.tmov p ps td ta) s = goOn s (s.setT p td ⟨unitsStamp (stampUnits x.val), x.tag⟩) p 1 ∧
    exec (.tadd p ps td ta r unit) s =
      goOn s (s.setT p td ⟨unitsStamp (stampUnits x.val + v.toInt * (size : Nat)), x.tag⟩) p 3 ∧
    (∀ q : Int, q = ((stampUnits x.val : Int) - stampUnits y.val).tdiv (size : Nat) →
      (-2 ^ 63 ≤ q → q < 2 ^ 63 → exec (.tdiff p ps r ta td unit) s = goOn s (s.setW p r (BitVec.ofInt 64 q)) p 6) ∧
      (q < -2 ^ 63 → exec (.tdiff p ps r ta td unit) s = goOn s (s.setW p r (BitVec.ofInt 64 (-2 ^ 63))) p 6) ∧
      (2 ^ 63 ≤ q → exec (.tdiff p ps r ta td unit) s = goOn s (s.setW p r (BitVec.ofInt 64 (2 ^ 63 - 1))) p 6)) ∧
    exec (.ttag p ps td r) s = goOn s (s.setT p td ⟨unitsStamp (stampUnits y.val), v.setWidth 8⟩) p 1 ∧
    exec (.tget p ps r ta part) s = goOn s (s.setW p r (BitVec.ofNat 64 ((parts x).getD part.val 0))) p 1 ∧
    (v.toNat ≤ [2 ^ 48 - 1, 999999999, 65535, 255].getD part.val 0 →
      ∃ (z : TReg) (a b c g : Nat), exec (.tset p ps td r part) s = goOn s (s.setT p td z) p 1 ∧
        (parts y).set part.val v.toNat = [a, b, c, g] ∧ z.tag.toNat = g ∧
        z.val = unitsStamp (((a * 1000000000 + b) * 65536 + c : Nat) : Int) ∧
        (stampNs y.val < 1000000000 → parts z = (parts y).set part.val v.toNat)) ∧
    ([2 ^ 48 - 1, 999999999, 65535, 255].getD part.val 0 < v.toNat →
      exec (.tset p ps td r part) s = .next (s.progExc p 0x0C 0)) ∧
    (∀ (c : Fin 4) (b : Bool), [decide (x.val.toNat < y.val.toNat), decide (y.val.toNat ≤ x.val.toNat), decide (x.val = y.val),
        decide (x.tag = y.tag)][c.val]? = some b → exec (.tcmp p ps c pd ta td) s = goOn s (s.setP p pd b) p 2) ∧
    (∀ a : Nat, a = lsAddr (v + BitVec.ofNat 64 (4 * imm.toNat)) →
      (a % 4 = 0 →
        exec (.tld p ps td r imm) s = goOn s (s.setT p td ⟨unitsStamp (stampUnits (wordsStamp (s.lsW p a) (s.lsW p (a + 4))
          (s.lsW p (a + 8)))), BitVec.ofNat 8 s.stepEpoch⟩) p 4 ∧
        exec (.tst p ps ta r imm) s = goOn s (s.lsStore p a (leBytes 12 x.val.toNat)) p 4) ∧
      (a % 4 ≠ 0 → exec (.tld p ps td r imm) s = .next (s.progExc p 0x02 (w32 a)) ∧
        exec (.tst p ps ta r imm) s = .next (s.progExc p 0x02 (w32 a)))) ∧
    (∀ lon lat utc : Int, lon = (v.extractLsb' 32 32).toInt → lat = (v.extractLsb' 0 32).toInt →
      utc = (stampSec x.val : Int) - (s.r R.TIME_UTCOFF.reg).toInt →
      (lon.natAbs ≤ 1800000000 → lat.natAbs ≤ 900000000 → 946684800 ≤ utc → utc < 7258118400 →
        ∃ (d : DWord) (e f : Int), exec (.sun p ps r ta) s =
            goOn s (({ s with freeCtr := s.freeCtr + 2 } : State).setW p r d) p 180 ∧
          (d.extractLsb' 32 32).toNat < 360000 ∧ e.natAbs ≤ 20 ∧ f.natAbs ≤ 20 ∧
          (let u := (utc * 65536000000000 + (stampNs x.val * 65536 + stampFrac x.val : Nat)).toNat;
            (lat.natAbs ≤ 890000000 → ((d.extractLsb' 32 32).toNat : Int) = (sunAzimuth u lon lat + e) % 360000) ∧
            d.extractLsb' 0 32 = BitVec.ofInt 32 (sunElevation u lon lat + f))) ∧
      (1800000000 < lon.natAbs ∨ 900000000 < lat.natAbs ∨ utc < 946684800 ∨ 7258118400 ≤ utc →
        exec (.sun p ps r ta) s = .next (s.progExc p 0x0D 0)))

/-- R113. -/
def Obligations.WaitResult : Prop :=
  (∀ (s : State) (p : Fin 18) (ps pd : Fin 8) (ra rb : Fin 32), runs s p ps →
    let a := lsAddr (s.w p ra)
    let tmo := (s.w p rb).toNat % 2 ^ 32
    (a % 4 = 0 → ∀ ev rest, s.ilist (s.logicalOf p) = ev :: rest →
      exec (.wait p ps pd ra rb) s = goOn s (s.takeEvent p pd a ev rest) p 30) ∧
    (a % 4 = 0 → s.ilist (s.logicalOf p) = [] →
      (tmo = 0 → exec (.wait p ps pd ra rb) s = goOn s (s.waitNone p pd) p 10) ∧
      (tmo ≠ 0 → ∃ t, exec (.wait p ps pd ra rb) s = .next t ∧ t.engState p = stWait ∧ t.pc p = s.pc p ∧
        (t.eng p).blocked = some (.wait pd a tmo) ∧ t.fmem = s.fmem ∧ t.fe.lists = s.fe.lists ∧
        ∀ q i, t.w q i = s.w q i ∧ t.p q i = s.p q i)) ∧
    (a % 4 ≠ 0 → exec (.wait p ps pd ra rb) s = .next (s.progExc p 0x02 (w32 a)))) ∧
  (∀ (s : State) (p : Fin 18) (pd a : Nat) (ev : IEvent) (rest : List IEvent), a < 0x40000 → a % 4 = 0 →
    let t := s.takeEvent p pd a ev rest
    t.ilist (s.logicalOf p) = rest ∧ (pd ≠ 0 → t.p p pd = true) ∧
    (t.eng p).s5 = BitVec.ofNat 64 (min rest.length 0xFFFF * 65536 + 1) ∧
    (∀ k : Nat, k < 8 → t.lsW p (a + 4 * k) = (eventWords ev).getD k 0) ∧ ∀ i, t.w p i = s.w p i) ∧
  (∀ (s : State) (p pd : Nat), (pd ≠ 0 → (s.waitNone p pd).p p pd = false) ∧ (s.waitNone p pd).fe.lists = s.fe.lists ∧
    ((s.waitNone p pd).eng p).ls = (s.eng p).ls) ∧
  (∀ (s : State) (p : Fin 18) (pd a tmo : Nat), (s.eng p).blocked = some (.wait pd a tmo) → s.engState p = stWait →
    s.fe.held = false →
    (∀ ev rest, s.ilist (s.logicalOf p) = ev :: rest →
      exec (.waitResume p) s = .next ((s.takeEvent p pd a ev rest).unblock p 30)) ∧
    (s.ilist (s.logicalOf p) = [] → tmo ≠ 0xFFFFFFFF → exec (.waitTimeout p) s = .next ((s.waitNone p pd).unblock p 10)) ∧
    (tmo = 0xFFFFFFFF → exec (.waitTimeout p) s = .next s))

/-- R114, R117, R119, R128–R130. `payload` is what the descriptor names of the build area. That DONE ignores the bits of wa above 31
is the model's choice (assumption 135). -/
def Obligations.EmitAndDone : Prop :=
  (∀ (s : State) (p : Fin 18) (ps pd : Fin 8) (rb ra : Fin 32) (ec tr : Fin 4), runs s p ps →
    let a := lsAddr (s.w p ra)
    let i := curIdx (s.e p ec)
    let l := s.logicalOf p
    let d := descOf (s.lsW p a) (s.lsW p (a + 4)) (s.lsW p (a + 8)) (s.lsW p (a + 12))
    let cost := 60 + (d.plen + 15) / 16
    let payload := s.fbytes (0x2000000 + l * 0x80000 + 16 * d.poff) d.plen
    let level := if d.code = 0x01 then s.clampLevel i d.level else d.level
    let t := (s.t p tr).val
    a % 4 = 0 → s.ep i EP.GEN = curGen (s.e p ec) → s.epValid i = true →
    (descBad d (s.ep i EP.PATH) (s.ep i EP.TYPE) = true →
      exec (.emit p ps pd rb ra ec tr) s = .next (s.progExc p 0x0B 0)) ∧
    (descBad d (s.ep i EP.PATH) (s.ep i EP.TYPE) = false →
      (∀ n : Nat, s.fenced = false → (d.immediate = true ∨ s.tooFar t = false) → s.calUsed < 131072 →
        s.allocTest (.engine l) = .slot n →
        ∃ u, exec (.emit p ps pd rb ra ec tr) s = goOn s u p cost ∧
          u = (((((s.placeCmd (.engine l) n i level d payload t).noteClamp l i (d.code == 0x01 && level != d.level)).setW p rb
            ((s.handleAt n).setWidth 64)).setP p pd true).setS6 p 0)) ∧
      (∀ (r : Refused) (code : Nat), (r, code) ∈ [(Refused.fenced, 4), (.far, 1), (.calFull, 2), (.quota, 3), (.noHandle, 3)] →
        s.place (.engine l) i level d payload t = .inl r →
        exec (.emit p ps pd rb ra ec tr) s = goOn s ((((s.placeFlags r).setW p rb 0).setP p pd false).setS6 p code) p cost))) ∧
  (∀ (s : State) (o : Owner) (i level : Nat) (d : Desc) (payload : List Byte) (t : Stamp),
    let far := !d.immediate && s.tooFar t
    (s.fenced = true → s.place o i level d payload t = .inl .fenced) ∧
    (s.fenced = false → far = true → s.place o i level d payload t = .inl .far) ∧
    (s.fenced = false → far = false → 131072 ≤ s.calUsed → s.place o i level d payload t = .inl .calFull) ∧
    (s.fenced = false → far = false → s.calUsed < 131072 → s.allocTest o = .quota →
      s.place o i level d payload t = .inl .quota) ∧
    (s.fenced = false → far = false → s.calUsed < 131072 → s.allocTest o = .noHandle →
      s.place o i level d payload t = .inl .noHandle)) ∧
  (∀ (s : State) (o : Owner) (n i level : Nat) (d : Desc) (payload : List Byte) (t : Stamp), n < 131072 → i < 131072 →
    level < 1024 →
    let u := s.placeCmd o n i level d payload t
    (u.hslot n).st = .placed ∧ (u.hslot n).owner = o ∧ (u.hslot n).ep = i ∧ (u.hslot n).hold = d.hold ∧
    u.handleAt n = s.handleAt n ∧ u.ep i EP.HANDLE = (s.handleAt n).toNat ∧
    (d.code = 0x01 → u.ep i EP.TGT = level) ∧ (∀ m : Nat, m ≠ n → u.hslot m = s.hslot m)) ∧
  (∀ (s : State) (p : Fin 18) (ps pd : Fin 8) (ra rb : Fin 32), runs s p ps →
    let v := s.w p rb
    let w : Word := (s.w p ra).setWidth 32
    let h := s.hslot (slotOf w)
    v.toNat / 65536 % 65536 = 0 →
    (s.handleOpen w = true → h.live = true → h.isField = true → h.hold = true → h.owner = .engine (s.logicalOf p) →
      exec (.done p ps pd ra rb) s = goOn s ((s.complete (slotOf w) (v.toNat % 65536) ((v >>> 32).setWidth 32)).setP p pd true)
        p 30) ∧
    ((s.handleOpen w = false ∨ h.live = false ∨ h.isField = false ∨ h.hold = false ∨ h.owner ≠ .engine (s.logicalOf p)) →
      exec (.done p ps pd ra rb) s = goOn s (s.setP p pd false) p 30))

/-- R120, on the state of R72. The results of CHK, SDROP and APL without a context are the model's choice (assumption 136). -/
def Obligations.SheafInstructions : Prop :=
  ∀ (s : State) (p : Fin 18) (ps pd : Fin 8) (ra rb : Fin 32) (tr : Fin 4), runs s p ps →
    let l := s.logicalOf p
    let a := (s.w p ra).toNat
    let b := (s.w p rb).toNat
    let e : ShfEntry := ⟨b / 2 ^ 32, w32 b, w32 (a / 2 ^ 32), w32 a⟩
    (b < 2 ^ 34 → ∀ c, s.ctxOfEngine l = some c → exec (.stg p ps pd ra rb) s = goOn s (s.stgIn p pd c e) p 30) ∧
    (b < 2 ^ 34 → s.ctxOfEngine l = none → ∀ c, s.freeCtx = some c →
      exec (.stg p ps pd ra rb) s = goOn s ((s.shfOpen c (.engine l) none).stgIn p pd c e) p 30) ∧
    (b < 2 ^ 34 → s.ctxOfEngine l = none → s.freeCtx = none →
      exec (.stg p ps pd ra rb) s = goOn s ((s.setP p pd false).setS7none p resNoContext) p 30) ∧
    (2 ^ 34 ≤ b → exec (.stg p ps pd ra rb) s = .next (s.progExc p 0x0D 0)) ∧
    (s.ctxOfEngine l = none →
      exec (.chk p ps pd) s = goOn s ((s.setP p pd false).setS7none p resNoContext) p 10 ∧
      exec (.sdrop p ps pd) s = goOn s ((s.setP p pd false).setS7none p resNoContext) p 10 ∧
      (a < 2 → exec (.apl p ps pd ra tr) s = goOn s ((s.setP p pd false).setS7none p resNotChecked) p 20)) ∧
    (∀ c, s.ctxOfEngine l = some c → (s.ctx c).owner = some (.engine l) →
      ((s.ctx c).st = .opened → ∃ t, exec (.chk p ps pd) s = .next t ∧ (t.ctx c).st = .checking ∧
        (t.eng p).blocked = some (.chk pd c) ∧ t.pc p = s.pc p) ∧
      ((s.ctx c).st = .checked → exec (.chk p ps pd) s =
        goOn s (((s.shfCheck c (.engine l)).setP p pd true).setS7 p resNotPermitted c) p 10) ∧
      (a = 0 → (s.ctx c).st = .checked → s.svc.act ≠ 3 → (s.ctx c).checkedAt = s.shf.commits → s.committing = false →
        ∃ t, exec (.apl p ps pd ra tr) s = goOn s t p 20 ∧ (t.ctx c).st = .committing ∧ (pd ≠ 0 → t.p p pd = true)) ∧
      (a < 2 → (s.ctx c).st = .opened → ∃ t, exec (.apl p ps pd ra tr) s = goOn s t p 20 ∧
        (t.ctx c).entries = (s.ctx c).entries ∧ (pd ≠ 0 → t.p p pd = false)) ∧
      (((s.ctx c).st = .opened ∨ (s.ctx c).st = .checked ∨ (s.ctx c).st = .failed) →
        ∃ t, exec (.sdrop p ps pd) s = goOn s t p 10 ∧ (t.ctx c).st = .free ∧ (pd ≠ 0 → t.p p pd = true))) ∧
    (2 ≤ a → exec (.apl p ps pd ra tr) s = .next (s.progExc p 0x0D 0))

/-- R121, R460, R461. The bits of a draw with entropy are free (assumption 2). `dioLead` is the lead of a channel's group, and
`dioDriven` the outputs as driven. -/
def Obligations.SystemInstructions : Prop :=
  (∀ (s : State) (p : Fin 18) (ps : Fin 8) (r n : Fin 32), runs s p ps →
    let v := s.w p r
    let e := s.eng p
    exec (.nop p ps) s = goOn s s p 1 ∧ exec (.fence p ps) s = goOn s s p 1 ∧
    (∃ t, exec (.halt p ps) s = .next t ∧ t.engState p = stHalted ∧ t.pc p = (s.pc p + 1) % 65536 ∧
      (t.eng p).tokens = e.tokens + 1 ∧ t.rcd.offered = s.rcd.offered ++ [⟨0x0602, 0, p.val, [w32 (s.pc p + 1)]⟩] ∧
      ∀ q i, t.w q i = s.w q i) ∧
    (∀ (k : Nat) (x : DWord), (k, x) ∈ [(0, BitVec.ofNat 64 (p.val * 256 + s.logicalOf p % 16)), (1, BitVec.ofNat 64 s.stepEpoch),
        (2, BitVec.ofNat 64 s.epoch), (3, (s.r R.TIME_UTCOFF.reg).setWidth 64), (4, (s.r R.FE_SHF_SEQ.reg).setWidth 64),
        (5, e.s5), (6, e.s6), (7, e.s7), (8, e.s8), (9, e.tokens), (10, e.insns), (12, e.s12), (13, e.s13), (14, e.s14),
        (15, BitVec.ofNat 64 (s.f R.DIO_IN.IN))] → n.val = k →
      exec (.mfs p ps r n) s = goOn s (s.setW p r x) p 2) ∧
    (n.val = 11 → s.on R.KEY_STATUS.ENTROPY_OK = false → exec (.mfs p ps r n) s = goOn s (s.setW p r 0) p 40) ∧
    (n.val = 11 → s.on R.KEY_STATUS.ENTROPY_OK = true → ∃ (t : State) (x : DWord), exec (.mfs p ps r n) s = goOn s (t.setW p r x) p 40 ∧
      t.regs = s.regs ∧ t.fe = s.fe ∧ t.fmem = s.fmem) ∧
    (15 < n.val → exec (.mfs p ps r n) s = .next (s.progExc p 0x01 0)) ∧
    (n.val = 12 → exec (.mts p ps n r) s = goOn s (s.modEng p (fun e => { e with s12 := v })) p 2) ∧
    (n.val = 13 → exec (.mts p ps n r) s = goOn s (s.modEng p (fun e => { e with s13 := v })) p 2) ∧
    (n.val ≠ 12 → n.val ≠ 13 → exec (.mts p ps n r) s = .next (s.progExc p 0x01 0)) ∧
    exec (.dout p ps r) s = goOn s (s.dout (v.toNat / 65536 % 65536) (v.toNat % 65536)) p 8) ∧
  (∀ (s : State) (mask vals : Nat), let t := s.dout mask vals
    (∀ n : Nat, n < 16 → let l := s.dioLead n
      let old := (s.f R.DIO_OUT.OUT).testBit n
      let new := if s.dioOutCh l = true ∧ mask.testBit l = true then vals.testBit l else old
      (t.f R.DIO_OUT.OUT).testBit n = new ∧
      (t.f R.DIO_DIAG0.OVERLOAD_NOW).testBit n = ((s.f R.DIO_DIAG0.OVERLOAD_NOW).testBit n &&
        (s.on (R.DIO_CH_CFG.RETRY l) || old || !new))) ∧
    (∀ n : Nat, n < 16 → t.dioDriven.testBit n =
      (t.lightRole && t.dioOutCh (t.dioLead n) && (t.f R.DIO_OUT.OUT).testBit n && !t.dioOff n)) ∧
    t.out = (if t.dioDriven = s.dioDriven then s.out else s.out ++ [.outputs t.dioDriven]) ∧
    (∀ (b : Blk) (o : Nat), (⟨b, o⟩ : Reg) ≠ R.DIO_OUT.reg → (⟨b, o⟩ : Reg) ≠ R.DIO_DIAG0.reg → t.rd b o = s.rd b o) ∧
    { t with regs := s.regs, out := s.out } = s)

/-! ## Handles, sessions, queues and storms (chapter 5) -/

/-- R162, R168–R170. -/
def Obligations.HandleEnd : Prop :=
  (∀ (s : State) (i : Fin 131072) (h : Handle), s.hslot i = h → h.st = .awaiting → h.ep < 131072 →
    exec (.replyTimeout i) s = .next ((s.setEp h.ep EP.NO_REPLY 1).complete i fsNoReply 0) ∧
    (let t := (s.setEp h.ep EP.NO_REPLY 1).complete i fsNoReply 0
     t.ep h.ep EP.NO_REPLY = 1 ∧ (t.hslot i).st = .completing ∧ (t.hslot i).status = 1 ∧ (t.hslot i).owner = h.owner ∧
      (t.hslot i).time = s.now ∧ t.regs = s.regs ∧ ∀ j : Nat, j ≠ i.val → t.hslot j = s.hslot j)) ∧
  (∀ (s : State) (i : Fin 131072) (n : Nat), (s.hslot i).st = .completing → (s.hslot i).owner = .session n →
    ((s.sess n).isOpen = true → s.cplFirst i n = true → s.quLevel (.cpl n) < 4096 →
      exec (.completionDeliver i) s = .next ((s.quOffer (.cpl n) (s.cplItem i)).freeSlot i)) ∧
    ((s.sess n).isOpen = true → (s.cplFirst i n = false ∨ 4096 ≤ s.quLevel (.cpl n)) →
      exec (.completionDeliver i) s = .next s) ∧
    ((s.sess n).isOpen = false →
      exec (.completionDeliver i) s = .next (((s.setData (s.handleAt i) []).cplDiscard n).freeSlot i))) ∧
  (∀ (s : State) (i : Fin 131072) (l : Nat), (s.hslot i).st = .completing → (s.hslot i).owner = .engine l →
    ((s.hslot i).status = 0 → exec (.completionDeliver i) s = .next (s.freeSlot i)) ∧
    ((s.hslot i).status ≠ 0 → exec (.completionDeliver i) s = .next ((s.cmdFail l i).freeSlot i))) ∧
  (∀ (s : State) (i : Fin 131072), (s.hslot i).st = .completing → (s.hslot i).owner = .firmware →
    exec (.completionDeliver i) s = .next (s.freeSlot i)) ∧
  (∀ (s : State) (i : Fin 131072), (s.hslot i).st = .completing → (s.hslot i).owner = .module → s.stormState ≠ stormRecovering →
    exec (.completionDeliver i) s = .next (s.freeSlot i)) ∧
  (∀ (s : State) (i : Nat), (s.hslot i).ep < 131072 → (s.hslot i).gen < 32768 →
    ((s.freeSlot i).hslot i).st = .free ∧
    ((s.freeSlot i).hslot i).gen = (if (s.hslot i).gen = 32767 then 1 else (s.hslot i).gen + 1) ∧
    ((s.hslot i).isField = true → s.ep (s.hslot i).ep EP.HANDLE = (s.handleAt i).toNat →
      (s.freeSlot i).ep (s.hslot i).ep EP.HANDLE = 0) ∧
    (∀ j, j ≠ i → (s.freeSlot i).hslot j = s.hslot j) ∧ (s.freeSlot i).regs = s.regs)

/-- R167, R168, R175, R176. The low six bits of a HELLO's mask (assumption 106), the first version 1 message that opens the session (107)
and the layout of the alarm (110) are the model's choices. -/
def Obligations.SessionCommands : Prop :=
  (∀ (s : State) (via : Access) (h : Handshake), s.fcpReached via = true →
    ∃ t, exec (.tlsHandshake (.offer via 7460 h)) s = .next t ∧ match s.tlsTest h with
      | .inl r => t.fcp.conns = s.fcp.conns ++ [r] ∧ t.out = s.out ++ [.tls true 0] ∧ t.regs = s.regs
      | .inr a => t = s.send (.tls false a)) ∧
  (∀ (s : State) (via : Access) (port : BitVec 16) (h : Handshake), s.fcpReached via = false ∨ port ≠ 7460 →
    exec (.tlsHandshake (.offer via port h)) s = .next s) ∧
  (∀ (s : State) (n : Fin 256) (v : BitVec 12), (s.fcpReached (.port n v) = true ↔ s.power.step = 5 ∧ s.portUp n = true ∧
      s.portRole n = prUplink ∧ v ≠ 0 ∧ v.toNat = s.f R.FAB_MGMT_VLAN.VID)) ∧
  (∀ s : State, (s.fcpReached .service = true ↔ s.power.step = 5 ∧ s.on R.SVC_MAC_STATUS.LINK = true)) ∧
  (∀ (s : State) (n : Fin 16), (s.sess n).isOpen = true → exec (.tlsHandshake (.keyUpdate n true)) s =
      .next (s.send (.keyUpdate n)) ∧ exec (.tlsHandshake (.keyUpdate n false)) s = .next s) ∧
  (∀ (s : State) (h : Handshake) (c : List Byte × List Byte), h.cert = some c →
    (s.tlsTest h = .inl true ↔ h.inSubset = true ∧ s.anchors 2 c = true) ∧
    (s.tlsTest h = .inl false ↔ h.inSubset = true ∧ s.anchors 2 c = false ∧ s.anchors 3 c = true)) ∧
  (∀ (s : State) (c : Nat) (mask : Word) (r : Bool), s.fcp.conns[c]? = some r →
    (∀ n : Nat, s.freeSession = some n →
      (∃ t, exec (.hello c false mask) s = .next t ∧ (t.sess n).isOpen = true ∧ (t.sess n).control = r ∧
        (t.sess n).version1 = false ∧ (t.sess n).mask = mask &&& 0x3F ∧ t.fcp.conns = s.fcp.conns.eraseIdx c ∧
        (∃ b, t.out = s.out ++ [.fcp2 n 0x02 0 0 0 b]) ∧ t.regs = s.regs ∧ ∀ m, m ≠ n → t.sess m = s.sess m) ∧
      (∃ t, exec (.hello c true mask) s = .next t ∧ (t.sess n).isOpen = true ∧ (t.sess n).control = false ∧
        (t.sess n).version1 = true ∧ t.out = s.out)) ∧
    (s.freeSession = none → exec (.hello c false mask) s = .next ((s.dropConn c).send (.fcp2 16 0x02 0x11 0 0 []))) ∧
    exec (.helloTimeout c) s = .next (s.dropConn c)) ∧
  (∀ (s : State) (n : Fin 16), (s.sess n).isOpen = true →
    ((s.sess n).pinged = false → ∃ t, exec (.pingSend n) s = .next t ∧ (t.sess n).pinged = true ∧
      t.out = s.out ++ [.fcp2 n 0x07 0 0 0 []]) ∧
    (∃ t, exec (.pong n) s = .next t ∧ (t.sess n).pinged = false ∧ (t.sess n).isOpen = true ∧ t.out = s.out) ∧
    ((s.sess n).pinged = true → exec (.sessionTimeout n) s = .next (s.sessClose n)) ∧
    exec (.close n false) s = .next (s.sessClose n) ∧
    exec (.close n true) s = .next ((s.send (.fcp2 n 0x09 0x07 0 0 [])).sessClose n) ∧
    ((s.sessClose n).sess n).isOpen = false ∧ ((s.sessClose n).sess n).closing = ((s.sessClose n).sessHandles n != 0) ∧
    (∀ (k : Fin 1025), (s.sess n).evLost ≠ 0 → (s.sess n).undelivered - k.val < 1024 → ∃ t,
      exec (.eventCountAlarm n k) s = .next t ∧ (t.sess n).evLost = 0 ∧
      t.out = s.out ++ [.fcp2 n 0x06 0 0 0 (leBytes 8 s.rcd.nextSeq ++ leBytes 4 (s.sess n).evLost)])) ∧
  (∀ (s : State) (n : Fin 16), (s.sess n).closing = true → s.sessHandles n = 0 → ∃ t, exec (.sessionFree n) s = .next t ∧
    t.sess n = Session.none ∧ t.regs = s.regs ∧ ∀ m : Nat, m ≠ n.val → t.sess m = s.sess m)

/-- R169, R171, R173. `accepted` is the state after the ACCEPT. The layout of the data of READ_REGS and READ_FMEM and BAD_ADDRESS outside the
region (assumption 102), the rows that carry an unlisted opcode (153) and the rights tested before the role (194) are the model's
choices. -/
def Obligations.RequestCommands : Prop :=
  (∀ (s : State) (n : Fin 16) (tag : Word) (i : Nat), s.allocTest (.session n) = .slot i → mayAsk s n false false →
    let u := accepted s n tag i
    exec (.getInfo n tag .good) s = .next (u.finishData i u.info) ∧
    (∀ (a : DWord) (c : Word), 1 ≤ c.toNat → c.toNat ≤ 256 → 0x10000000 ≤ a.toNat → a.toNat + 4 * c.toNat ≤ 0x100000000 →
      ∃ t, exec (.readRegs n tag false a c) s = .next t ∧ (State.readRegs a.toNat c.toNat u).1.length = c.toNat ∧
        t = (State.readRegs a.toNat c.toNat u).2.finishData i (wordsBytes (State.readRegs a.toNat c.toNat u).1)) ∧
    (∀ off len : Word, off.toNat % 4 = 0 → len.toNat % 4 = 0 → 0 < len.toNat → len.toNat ≤ 65536 →
      off.toNat + len.toNat ≤ 0x4000000 →
      exec (.readFmem n tag false off len) s = .next (u.finishData i (u.fbytes off.toNat len.toNat))) ∧
    exec (.getCounts n tag false 0) s = .next (u.finishData i u.clampData) ∧
    exec (.getCounts n tag false 1) s = .next (u.finishData i u.useData) ∧
    (∀ (h : Word) (st : HSt) (c : Nat), (st, c) ∈ [(HSt.placed, 1), (.awaiting, 2), (.held, 3), (.completing, 4)] →
      s.handleOpen h = true → (s.hslot (slotOf h)).st = st →
      exec (.handleStatus n tag false h) s = .next (u.finish i 0 (w32 c) [])) ∧
    (∀ m : Word, m.toNat < 64 → ∃ t, exec (.subscribe n tag false m) s = .next t ∧ (t.sess n).mask = m ∧
      (t.hslot i).st = .completing ∧ (t.hslot i).result = (s.sess n).mask)) ∧
  (∀ (s : State) (n : Fin 16) (tag : Word) (i : Nat), s.allocTest (.session n) = .slot i → mayAsk s n true false →
    ∀ m q : Word, m.toNat < 16 → q.toNat ≤ 131072 → ∃ t, exec (.setQuota n tag false m q) s = .next t ∧
      t.f (R.HND_SESS_QUOTA.QUOTA m.toNat) = q.toNat ∧ (t.hslot i).result = w32 (s.f (R.HND_SESS_QUOTA.QUOTA m.toNat)) ∧
      (t.hslot i).status = 0) ∧
  (∀ (s : State) (n : Fin 16) (tag : Word) (i : Nat), s.allocTest (.session n) = .slot i → mayAsk s n true true →
    ∀ l kind p5 p6 p7 : Word, l.toNat < 16 → 0x80 ≤ kind.toNat → kind.toNat ≤ 0xFF →
      exec (.postEvent n tag false l kind p5 p6 p7) s = .next ((accepted s n tag i).postEvent i l.toNat kind.toNat p5 p6 p7)) ∧
  (∀ (s : State) (n : Fin 16) (tag : Word), mayAsk s n false false →
    exec (.getInfo n tag .malformed) s = .next (refused s n tag 0x07) ∧
    exec (.getInfo n tag .unlisted) s = .next (refused s n tag 0x12) ∧
    (s.allocTest (.session n) = .quota → exec (.getInfo n tag .good) s =
      .next (((s.modSess n (fun x => { x with pinged := false })).raise E.HND_EVT.QUOTA).refuse n tag 0x04)) ∧
    (s.allocTest (.session n) = .noHandle → exec (.getInfo n tag .good) s =
      .next (((s.modSess n (fun x => { x with pinged := false })).raise E.HND_EVT.NO_HANDLE).refuse n tag 0x05)) ∧
    (∀ a c : Word, 1 ≤ c.toNat → c.toNat ≤ 256 → a.toNat < 0x10000000 →
      exec (.readRegs n tag false (a.setWidth 64) c) s = .next (refused s n tag 0x08)) ∧
    (∀ h : Word, s.handleOpen h = false → exec (.handleStatus n tag false h) s = .next (refused s n tag 0x03)) ∧
    ((s.sess n).control = false → ∀ m q, exec (.setQuota n tag false m q) s = .next (refused s n tag 0x06)) ∧
    ((s.sess n).control = true → s.role = roleStandby ∨ s.role = roleClaiming →
      ∀ m q, exec (.setQuota n tag false m q) s = .next (refused s n tag 0x0A)) ∧
    ((s.sess n).control = true → s.role = roleFenced →
      ∀ l k a b c, exec (.postEvent n tag false l k a b c) s = .next (refused s n tag 0x0B)))

/-- R171, R172: each request on its accepted handle `i`. The sheaf commands of a session without a context (assumption 109) and NO_RADIO
after the ACCEPT (108) are the model's choices. -/
def Obligations.SheafAndFieldRequests : Prop :=
  (∀ (s : State) (n : Fin 16) (tag : Word) (i : Nat), s.allocTest (.session n) = .slot i → mayAsk s n true false →
    let u := accepted s n tag i
    (s.ctxOfSession n = none → ∀ c, s.freeCtx = some c → exec (.sheafOpen n tag false) s =
      .next ((u.shfOpen c .firmware (some n)).finish i 0 (w32 c) [])) ∧
    (s.ctxOfSession n = none → s.freeCtx = none → exec (.sheafOpen n tag false) s = .next (u.finish i 0x10 (w32 resNoContext) [])) ∧
    (s.ctxOfSession n = none →
      (∀ es : List ShfEntry, 0 < es.length → es.length ≤ 4096 →
        exec (.sheafStage n tag false es) s = .next (u.finish i 0x10 (w32 resNotPermitted) [])) ∧
      exec (.sheafCheck n tag false) s = .next (u.finish i 0x10 (w32 resNotPermitted) []) ∧
      (∀ b t, exec (.sheafApply n tag false b t) s = .next (u.finish i 0x10 (w32 resNotChecked) [])) ∧
      exec (.sheafDiscard n tag false) s = .next (u.finish i 0x10 (w32 resNotPermitted) [])) ∧
    (∀ c, s.ctxOfSession n = some c → (s.ctx c).owner = some .firmware →
      ((s.ctx c).st = .failed → exec (.sheafOpen n tag false) s =
        .next ((u.shfOpen c .firmware (some n)).finish i 0 (w32 c) [])) ∧
      (∀ e : ShfEntry, ((s.ctx c).st = .opened ∨ (s.ctx c).st = .checked) → s.shfUsed < shfPool → ∃ t,
        exec (.sheafStage n tag false [e]) s = .next t ∧ (t.ctx c).entries = (s.ctx c).entries ++ [e] ∧
        (t.hslot i).st = .completing ∧ (t.hslot i).status = 0 ∧ (t.hslot i).result = 1) ∧
      ((s.ctx c).st = .opened → ∃ t, exec (.sheafCheck n tag false) s = .next t ∧ (t.ctx c).st = .checking ∧
        (t.ctx c).hnd = some i ∧ (t.hslot i).st = .placed) ∧
      ((s.ctx c).st = .checked → s.svc.act ≠ 3 → (s.ctx c).checkedAt = s.shf.commits → s.committing = false →
        ∀ w, ∃ t, exec (.sheafApply n tag false false w) s = .next t ∧ (t.ctx c).st = .committing ∧ (t.ctx c).hnd = some i) ∧
      (((s.ctx c).st = .opened ∨ (s.ctx c).st = .checked ∨ (s.ctx c).st = .failed) → ∃ t,
        exec (.sheafDiscard n tag false) s = .next t ∧ (t.ctx c).st = .free ∧ (t.hslot i).status = 0 ∧
        (t.hslot i).st = .completing))) ∧
  (∀ (s : State) (n : Fin 16) (tag cursor d0 d1 d2 d3 : Word) (t : Stamp) (data : List Byte), mayAsk s n true true →
    let d := descOf d0 d1 d2 d3
    let i := getBits cursor 0 17
    let path := s.ep i EP.PATH
    let run := exec (.fieldCmd n tag false cursor d0 d1 d2 d3 t data) s
    let here := getBits cursor 25 7 = 0 ∧ s.ep i EP.GEN = getBits cursor 17 8 ∧ s.epValid i = true
    let ok := here ∧ fieldCode d.code = true ∧ d.hold = false ∧ d.reserved = false ∧ data.length = d.plen ∧
      d.plen ≤ payloadLimit path ∧ codePermitted d.code path (s.ep i EP.TYPE) = true
    (¬ here → run = .next (refused s n tag 0x08)) ∧
    (here → (fieldCode d.code = false ∨ d.hold = true) → run = .next (refused s n tag 0x06)) ∧
    (here → fieldCode d.code = true → d.hold = false → (d.reserved = true ∨ data.length ≠ d.plen ∨ payloadLimit path < d.plen) →
      run = .next (refused s n tag 0x07)) ∧
    (ok → s.ident.code = .mx → path = 1 → ∀ h : Nat, s.allocTest (.session n) = .slot h →
      run = .next ((accepted s n tag h).finish h 0x09 0 [])) ∧
    (ok → (s.ident.code ≠ .mx ∨ path ≠ 1) →
      let u := s.modSess n (fun x => { x with pinged := false })
      (∀ h : Nat, (d.immediate = true ∨ s.tooFar t = false) → s.calUsed < 131072 → s.allocTest (.session n) = .slot h →
        ∃ v, run = .next v ∧ (v.hslot h).st = .placed ∧ (v.hslot h).owner = .session n ∧ (v.hslot h).ep = i ∧
          v.out = s.out ++ [.fcp2 n 0x04 0 tag.toNat (s.handleAt h) []]) ∧
      (∀ r : Refused, s.place (.session n) i d.level d data t = .inl r →
        run = .next ((u.placeFlags r).refuse n tag r.status)))) ∧
  (∀ (s : State) (n : Fin 16) (t : Word) (form : InfoForm), (s.sess n).isOpen = true → (s.sess n).version1 = true → ∃ u,
    exec (.getInfo n t form) s = .next u ∧ u.out = s.out ++ [.v1 n 0x0F []] ∧ u.hnd = s.hnd)

/-- R166, R176–R181, R183. -/
def Obligations.QueueCommands : Prop :=
  (∀ (s : State) (n : Fin 16), (s.sess n).isOpen = true → (s.sess n).version1 = true →
    let u := s.modSess n (fun x => { x with pinged := false })
    exec (.identify ⟨n, false⟩) s = .next (u.send (.v1 n 0 s.info)) ∧
    exec (.identify ⟨n, true⟩) s = .next (u.send (.v1 n 0x0F [])) ∧
    (∀ i : Word, i.toNat < 131072 → exec (.readEndpoint n i) s = .next (u.send (.v1 n 0 (s.fbytes (128 * i.toNat) 128)))) ∧
    (∀ i : Word, 131072 ≤ i.toNat → exec (.readEndpoint n i) s = .next (u.send (.v1 n 0x08 []))) ∧
    exec (.readCounters n) s = .next (u.send (.v1 n 0 s.clampData))) ∧
  (∀ (s : State) (u : Qu), s.reaches (quReg u).blk (quReg u).off false = true →
    ((s.q u).items = [] ∨ u = .uartTx ∨ (∃ n, u = .feed n) →
      exec (.quDataRead u) s = .next (s.answer 0xFFFFFF00)) ∧
    (∀ it rest, (s.q u).items = it :: rest → u = .uartRx ∨ (∃ n, u = .cpl n) ∨ (∃ n, u = .bulk n) →
      ((s.q u).readWords + 1 < quItemWords u → exec (.quDataRead u) s =
        .next ((s.setQ u ⟨it :: rest, (s.q u).readWords + 1⟩).answer (it.getD (s.q u).readWords 0))) ∧
      ((s.q u).readWords + 1 = quItemWords u → ∃ t, exec (.quDataRead u) s = .next t ∧
        t.bus.readData = it.getD (s.q u).readWords 0 ∧ t.q u = ⟨rest, 0⟩))) ∧
  (∀ (s : State) (u : Qu), s.reaches (quReg u).blk (quReg u).off true = true →
    (u = .uartRx ∨ (∃ n, u = .cpl n) ∨ (∃ n, u = .bulk n) → (s.q u).readWords ≠ 0 → ∃ t, exec (.dropPkt u) s = .next t ∧
      t.q u = ⟨(s.q u).items.drop 1, 0⟩ ∧ t.flag (quDropped u) = true) ∧
    ((s.q u).readWords = 0 → exec (.dropPkt u) s = .next s) ∧
    (∀ (h : Bool) (v : Word), quWf u = true → exec (.quWmWrite u h v) s =
      .next (s.codeWrite (quReg u).blk ((quReg u).off + if h then 0x08 else 0x0C) v)) ∧
    (∀ v : Word, u = .uartRx → v.toNat < 131072 → ∃ t, exec (.quWmWrite u true v) s = .next t ∧ t.f (quHigh u) = v.toNat)) ∧
  (∀ (s : State) (n : Fin 16) (v : Word), v.toNat ≤ 131072 →
    (∃ t, exec (.hndQuotaWrite (some n) v) s = .next t ∧ t.f (R.HND_SESS_QUOTA.QUOTA n) = v.toNat ∧ t.fmem = s.fmem ∧ t.hnd = s.hnd) ∧
    (∃ t, exec (.hndQuotaWrite none v) s = .next t ∧ t.f R.HND_ENG_QUOTA.QUOTA = v.toNat ∧ t.fmem = s.fmem ∧ t.hnd = s.hnd))

/-- R186, R188, R191. `b` is the body of HOLD_REPORTS: it enters both ports of every enabled ring under the ring's next number, joins
the field queue of every CAN channel that carries field frames and has room, and goes before all else into the urgent slots of every
transceiver (R437). That a full field queue does not take it is the model's choice (assumption 168), as is the plot at which a
ring's frame enters (141). -/
def Obligations.StormProcedure : Prop :=
  (∀ s : State, s.stormState = 1 →
    let b : CmdBody := ⟨0x09, true, s.epoch, 0, euiAll, 0, 0, w32 (max 10 (min 600 (s.f R.STORM_CTRL.SPREAD))), 0, []⟩
    let go := fun (c : Nat) => s.on (R.CAN_CFG.EN c) = true ∧ s.on (R.CAN_CFG.FIELD_EN c) = true ∧ (s.canField c).length < 64
    ∃ t, exec .holdReportsLaunch s = .next t ∧ t.storm.start = s.now ∧ t.storm.list = [] ∧ t.stormState = 1 ∧ t.hnd = s.hnd ∧
    t.fmem = s.fmem ∧ t.f R.STORM_STATUS.LEFT = s.pollsOut % 2 ^ 18 ∧
    t.fab = (foldS (List.range 128) (fun k v => v.ringSend k macAll b true) ({ s with storm := ⟨s.now, [], 0, 0⟩ }).stormLeft).fab ∧
    (∀ k, k < 128 → t.f (R.RING_SEQ.SEQ k) =
      if s.ringOn k = true then (s.f (R.RING_SEQ.SEQ k) + 1) % 65536 else s.f (R.RING_SEQ.SEQ k)) ∧
    (∀ c, c < 8 → (go c → ∃ x, (t.canAt c).pend = (s.canAt c).pend ++ [x] ∧ x.buf = none ∧ x.fails = 0 ∧ x.frame.fdf = true ∧
        x.frame.ide = true ∧ x.frame.rtr = false ∧ x.frame.data = canPad b.bytes ∧
        x.frame.ident = BitVec.ofNat 29 (2 ^ 26 + 3 * 2 ^ 24 + s.f (R.CAN_CFG.FIELD_MARK c))) ∧
      (¬ go c → t.canAt c = s.canAt c)) ∧
    (∀ j, j < 4 → (s.radAble j = true → t.radAt j = { s.radAt j with urgent := (s.radAt j).urgent.filter (·.isHold) ++
        [⟨some b, 0xFFFF, 1, 0, none, true, false, none, none⟩] ++ (s.radAt j).urgent.filter (!·.isHold) }) ∧
      (s.radAble j = false → t.radAt j = s.radAt j))) ∧
  (∀ (s : State) (k : Nat) (b : CmdBody), (s.ringOn k = false → s.ringSend k macAll b true = s) ∧
    (s.ringOn k = true → s.ringSend k macAll b true =
      (s.setF (R.RING_SEQ.SEQ k) (s.f (R.RING_SEQ.SEQ k) + 1)).enqueue (256 + plotOf (s.ringA k)) (s.fieldFrameOf macAll b)
        ⟨6, none, [], [s.ringA k, s.ringB k], true, [(k, s.f (R.RING_SEQ.SEQ k))], false⟩ Mark.none)) ∧
  (∀ (s : State) (d : Mac) (b : CmdBody), let f := s.fieldFrameOf d b
    f.etype = 0x88B5 ∧ f.dst = d ∧ f.src = s.modMac ∧ f.body.take b.bytes.length = b.bytes ∧
    (∀ x ∈ f.body.drop b.bytes.length, x = 0) ∧ b.bytes.length = 32 + b.payload.length ∧
    f.tci = (if s.f R.FAB_FIELD_VLAN.VID = 0 then none else some (BitVec.ofNat 16 (6 * 8192 + s.f R.FAB_FIELD_VLAN.VID)))) ∧
  (∀ s : State, s.stormState ≠ 1 → exec .holdReportsLaunch s = .next s ∧ exec .spreadEnd s = .next s) ∧
  (∀ s : State, s.stormState = 1 → ∃ t, exec .spreadEnd s = .next t ∧
    t.f R.STORM_STATUS.LEFT = (s.recoveryList.length + s.pollsOut) % 2 ^ 18 ∧
    (s.recoveryList ≠ [] → t.stormState = 2 ∧ t.storm.list = s.recoveryList) ∧
    (s.recoveryList = [] → s.pollsOut = 0 → t.stormState = 0 ∧ t.flag E.STORM_EVT.RECOVERED = true) ∧
    t.hnd = s.hnd ∧ t.fmem = s.fmem) ∧
  (∀ (s : State) (i : Nat), s.stormState = 2 → s.on (quAbove .intake) = false → s.pollsOut < 16384 →
    s.storm.list.find? s.pollable = some i → s.epValid i = true → s.fenced = false → s.calUsed < 131072 →
    ∀ n : Nat, s.allocTest .module = .slot n → ∃ t, exec .recoveryPoll s = .next t ∧ t.storm.list = s.storm.list.erase i ∧
      t.storm.polls = s.storm.polls + 1 ∧ (t.hslot n).st = .placed ∧ (t.hslot n).owner = .module ∧ (t.hslot n).ep = i) ∧
  (∀ (s : State) (spread : BitVec 16), ∃ t, exec (.stormDisable spread) s = .next t ∧ t.stormState = 0 ∧
    t.f R.STORM_CTRL.EN = 0 ∧ t.f R.STORM_STATUS.LEFT = s.pollsOut % 2 ^ 18 ∧ t.storm.list = [] ∧ t.f R.STORM_CTRL.SPREAD = spread.toNat ∧
    t.hnd = s.hnd ∧ t.fmem = s.fmem)

/-! ## Fabric, links and rings (chapters 6 and 7) -/

/-- R192–R203, R241, R260, R262, R268, R283. That an entry for a PAIR port, or one with a reserved PORT, leads nowhere is the model's
choice (assumption 20), as are the runt before the class, and learning from a frame with a bad FCS (44), and VID 0 for an untagged
frame of the control port (185). `announce` is the time service's ear (195); `w` counts the cap of the class at 5. -/
def Obligations.FrameEntry : Prop :=
  (∀ (s : State) (n : Fin 256) (f : Frame), s.portUp n = false → exec (.frameIngress (.port n) f) s = .next s) ∧
  (∀ (s : State) (n : Fin 256) (f : Frame), s.portUp n = true →
    let u := s.rxCount n f
    let run := exec (.frameIngress (.port n) f) s
    let data := f.etype ≠ 0x8808 ∧ 64 ≤ f.len
    let w := if 5 < u.trustClass n f then u.count (R.FAB_CNT_CAPPED.COUNT (n.val / 32)) else u
    let cls := min (u.trustClass n f) 5
    let v := w.vidOf n f
    (f.etype = 0x8808 → run = .next (u.count (R.PORT_CNT_MACCTL.COUNT n))) ∧
    (f.etype ≠ 0x8808 → f.len < 64 → run = .next (u.count (R.FAB_CNT_RUNT.COUNT (n.val / 32)))) ∧
    (data → s.portRole n = 3 → f.etype = 0x88F7 → run = .next ((u.toControl n 7 none f).announce n f)) ∧
    (data → s.portRole n = 3 → f.etype ≠ 0x88F7 → run = .next (u.toControl n 6 none f)) ∧
    (data → s.portRole n ≠ 3 → ∀ k, s.ringOf n = some k → run = .next ((u.ringIn k n f).announce n f)) ∧
    (data → s.portRole n ≠ 3 → s.ringOf n = none →
      (f.etype = 0x88F7 → run = .next ((u.toControl n 7 none f).announce n f)) ∧
      (f.etype = 0x892F → run = .next (u.toControl n 7 none f)) ∧
      (f.etype = 0x88B5 → run = .next (u.count (R.FAB_CNT_FIELD_DROP.COUNT (n.val / 32)))) ∧
      (f.etype ≠ 0x88F7 → f.etype ≠ 0x892F → f.etype ≠ 0x88B5 →
        (w.acceptOn n f = .accept → run = .next (w.count (R.FAB_CNT_ACCEPT.COUNT (n.val / 32)))) ∧
        (w.acceptOn n f = .filter → run = .next (w.count (R.FAB_CNT_VLAN_FILTER.COUNT (n.val / 32)))) ∧
        (w.acceptOn n f = .ok →
          (macMulticast f.src = true ∨ w.on (R.FAB_PORTCFG.LEARN (n.val / 32) (n.val % 32)) = false ∨
              w.on (R.FAB_VLAN_CFG.LEARN v) = false → run = .next (w.bridgeTo' n cls v f [] Mark.none)) ∧
          (macMulticast f.src = false → w.on (R.FAB_PORTCFG.LEARN (n.val / 32) (n.val % 32)) = true →
            w.on (R.FAB_VLAN_CFG.LEARN v) = true →
            run = .next ((w.fdbLearn v f.src n).bridgeTo' n cls v f [] Mark.none)))))) ∧
  (∀ (s : State) (p : Fin 8) (f : Frame) (id : Option (BitVec 16)) (sync : Bool),
    let run := exec (.frameIngress (.control p none id sync) f) s
    let v := f.vidIn
    let cls := if f.etype = 0x88F7 ∨ f.etype = 0x892F then 7 else if f.etype = 0x88B5 then 6 else 5
    let m : Mark := ⟨id.map (·.toNat), sync, none⟩
    (v = 4095 ∨ s.on (R.FAB_VLAN_CFG.VALID v) = false ∨ s.vlanMember v (256 + p.val) = false →
      run = .next (s.count (R.FAB_CNT_VLAN_FILTER.COUNT p))) ∧
    (v ≠ 4095 → s.on (R.FAB_VLAN_CFG.VALID v) = true → s.vlanMember v (256 + p.val) = true →
      run = .next (s.bridgeTo' (256 + p.val) cls v f [] m)) ∧
    (∀ n : Fin 256, let named := exec (.frameIngress (.control p (some n) id sync) f) s
      (f.etype = 0x88F7 → named = .next (s.enqueue (256 + p.val) f ⟨7, none, [n], [], false, [], false⟩ m)) ∧
      (f.etype ≠ 0x88F7 → (∀ k, k < 128 → s.ringOn k = true → s.ringA k ≠ n ∧ s.ringB k ≠ n) →
        named = .next (s.enqueue (256 + p.val) f ⟨cls, none, [n], [], false, [], false⟩ m)) ∧
      (f.etype ≠ 0x88F7 → ∀ k, k < 128 →
        (∀ j, j < 128 → (s.ringOn j = true ∧ (s.ringA j = n ∨ s.ringB j = n) ↔ j = k)) →
        named = .next ((s.setF (R.RING_SEQ.SEQ k) (s.f (R.RING_SEQ.SEQ k) + 1)).enqueue (256 + p.val) f
          ⟨cls, none, [n], [], false, [(k, s.f (R.RING_SEQ.SEQ k))], false⟩ m)))) ∧
  (∀ (s : State) (n v : Nat) (f : Frame), n < 264 →
    let me := s.bridgePort n
    let ctl := 256 + plotOf n
    let others := (allNodes (plotOf n)).filter (fun t => s.vlanMember v t && s.bridgePort t != me && t != n)
    (f.dst = macBroadcast → s.destOf n v f = .multi others false) ∧
    (macMulticast f.dst = true → f.dst ≠ macBroadcast →
      (s.mcgFind v f.dst = none → s.destOf n v f = .multi others false) ∧
      (∀ g, s.mcgFind v f.dst = some g → s.destOf n v f = if others.filter (s.mcgMember g) = [] then .emptyGroup
        else .multi (others.filter (s.mcgMember g)) (s.on (R.FAB_MCG_CFG.SOWN g)))) ∧
    (macMulticast f.dst = false → f.dst = s.modMac ∧ v = s.f R.FAB_MGMT_VLAN.VID ∧ v ≠ 0 → s.destOf n v f = .one ctl) ∧
    (macMulticast f.dst = false → ¬ (f.dst = s.modMac ∧ v = s.f R.FAB_MGMT_VLAN.VID ∧ v ≠ 0) →
      (s.fdbAt (fdbKey v f.dst) = none → s.destOf n v f = .multi others false) ∧
      (∀ e, s.fdbAt (fdbKey v f.dst) = some e →
        (e.node < 256 → s.destOf n v f = if s.bridgePort e.node = me ∨ s.bridged e.node = false then .same else .one e.node) ∧
        (e.node = 256 → s.destOf n v f = if n = ctl then .same else .one ctl) ∧
        (256 < e.node → s.destOf n v f = .same))))

/-- R231–R235, for a frame of at most 9,216 bytes with a good FCS and a class that is not cut through. -/
def Obligations.FrameAdmission : Prop :=
  ∀ (s : State) (node : Nat) (f : Frame) (r : Route) (m : Mark), node < 264 → r.cls < 8 →
    (r.uni ≠ [] ∨ r.multi ≠ []) → s.ctOn node r.cls = false → f.badFcs = false → f.len ≤ 9216 →
    let p := plotOf node
    let a := 8 * localOf node + r.cls
    let ps := routeParts s.fab.nextFrame p r
    let ad := s.admission p a r.cls (ps.map (·.voq)) f
    let t := s.enqueue node f r m
    (ad = .quota → t = (s.count (R.FAB_BUF_CNT_DROP_QUOTA.COUNT p)).count (R.FAB_ACCT_DROP.DROP p a)) ∧
    (ad = .voq → t = (s.count (R.FAB_BUF_CNT_DROP_VOQ.COUNT p)).count (R.FAB_ACCT_DROP.DROP p a)) ∧
    (ad = .pool → t = (s.count (R.FAB_BUF_CNT_DROP_POOL.COUNT p)).count (R.FAB_ACCT_DROP.DROP p a)) ∧
    (ad = .dt → t = (s.count (R.FAB_BUF_CNT_DROP_DT.COUNT p)).count (R.FAB_ACCT_DROP.DROP p a)) ∧
    (ad = .yes → t.fab.waiting = s.fab.waiting ++ ps ∧ t.fab.nextFrame = s.fab.nextFrame + 1 ∧
      (∃ x, t.fabFrame s.fab.nextFrame = some x ∧ x.fr = f ∧ x.node = node ∧ x.cls = r.cls ∧ x.cells = (f.len + 255) / 256 ∧
        x.acct = a) ∧
      (s.acctUsed p a + (f.len + 255) / 256 < 131072 → t.acctUsed p a = s.acctUsed p a + (f.len + 255) / 256) ∧
      t.fmem = s.fmem ∧ t.rcd = s.rcd) ∧
    (s.acctQuota p a ≤ s.acctUsed p a → ad = .quota)

/-- R205–R214, R244–R248, R262, R270, R306, R320. `frameOut` is the frame that leaves; `mayStart` is the test of R306. That a frame
crosses whole in one command and arrives in another is the model's choice (assumption 21). -/
def Obligations.FramePassage : Prop :=
  (∀ (s : State) (p : Fin 8) (k c : Nat) (d : Drr) (x : VoqPart) (f : FabFrame), s.choosePlane p = some k →
    s.pickClass p p (fun c => (s.classHead p c).map s.partLen) = some (c, d) → s.classHead p c = some x →
    s.fabFrame x.fid = some f →
    (f.cellErr = false ∨ f.ct = true → (x.dests.map (·.1)).Nodup → (∀ y ∈ x.dests, y.1 < 8) →
      let g := if f.cellErr = true then { f with fr := { f.fr with badFcs := true } } else f
      ∃ t, exec (.frameCross p) s = .next t ∧ t.fab.waiting = s.fab.waiting.erase x ∧ t.drrOf p = d ∧
      t.fab.flight = s.fab.flight ++ (x.dests.zipIdx 0).map (fun y => ⟨x.fid, x.plot, y.1.1, x.cls,
        s.nextSeqOf (64 * x.plot + 8 * y.1.1 + x.cls), k, tokensFor f.fr.len, y.1.2, x.multi, x.sown, y.2 == 0, false, g⟩) ∧
      ∀ y ∈ x.dests, t.nextSeqOf (64 * x.plot + 8 * y.1 + x.cls) = (s.nextSeqOf (64 * x.plot + 8 * y.1 + x.cls) + 1) % 65536) ∧
    (f.cellErr = true → f.ct = false → ∃ t, exec (.frameCross p) s = .next t ∧ t.fab.flight = s.fab.flight ∧
      t.fab.waiting = s.fab.waiting.filter (fun y => y.fid != x.fid) ∧
      t.f (R.FAB_CNT_FCS_ERR.COUNT p) = satInc 0xFFFFFFFF (s.f (R.FAB_CNT_FCS_ERR.COUNT p)))) ∧
  (∀ (s : State) (p : Fin 8), (s.choosePlane p = none ∨ s.pickClass p p (fun c => (s.classHead p c).map s.partLen) = none) →
    exec (.frameCross p) s = .next s) ∧
  (∀ (s : State) (p e c : Fin 8) (x : Crossing), x.seq < 65536 →
    s.fab.flight.find? (fun y => y.src == p.val && y.dst == e.val && y.cls == c.val && y.seq == x.seq) = some x →
    let k := 64 * p.val + 8 * e.val + c.val
    let u := ((s.modFab (fun b => { b with flight := b.flight.erase x })).passLead x).frameFree x.fid
    let run := exec (.frameReassemble p e c (BitVec.ofNat 16 x.seq)) s
    let behind := (x.seq + 65536 - s.expectOf k) % 65536
    (x.seq = s.expectOf k → (∀ y ∈ s.fab.held, ¬ (y.src = p.val ∧ y.dst = e.val ∧ y.cls = c.val)) →
      (u.canRelease x = true → run = .next (((u.release x).setExpect k (x.seq + 1)).regionsFit)) ∧
      (u.canRelease x = false → run = .next (u.modFab (fun b => { b with held := b.held ++ [x] })).regionsFit)) ∧
    (0 < behind → behind < 32768 → s.heldAtSeq p e c x.seq = none → s.heldAtSeq p e c (s.expectOf k) = none →
      run = .next (u.modFab (fun b => { b with held := b.held ++ [x] })).regionsFit) ∧
    (32768 ≤ behind ∨ (s.heldAtSeq p e c x.seq).isSome = true → run = .next (u.raise (E.FAB_EVT.SEQ_OLD e)).regionsFit) ∧
    (u.canRelease x = true ↔ x.sown = false ∨ x.dead = true ∨ x.frame.cal.isSome = true ∨
      ∀ n ∈ x.targets, (n < 256 ∧ u.portUp n = false) ∨ u.txReady n x.cls = true)) ∧
  (∀ (s : State) (x : Crossing) (n : Nat), x.targets = [n] →
    (x.dead = true → s.release x = s) ∧
    (x.dead = false → x.multi = false → s.release x = s.txAppend (x.at n)) ∧
    (x.dead = false → x.multi = true → x.sown = false ∨ x.frame.cal.isSome = true → s.release x = s.drill (x.at n)) ∧
    (x.dead = false → x.multi = true → x.sown = true → x.frame.cal = none →
      s.release x = if n < 256 ∧ s.portUp n = false then s else s.txAppend (x.at n))) ∧
  (∀ (s : State) (e : TxEntry),
    let waits := s.fab.residue.any (fun x => x.node == e.node && x.src == e.src && x.cls == e.cls)
    ((waits = false ∨ e.frame.cal.isSome = true) → s.txAppend e = s.modFab (fun b => { b with tx := b.tx ++ [e] })) ∧
    (waits = true → e.frame.cal = none →
      s.txAppend e = s.modFab (fun b => { b with residue := b.residue ++ [{ e with real := false }] })) ∧
    (e.frame.cal.isSome = true ∨ (s.txReady e.node e.cls = true ∧ waits = false) →
      s.drill e = s.modFab (fun b => { b with tx := b.tx ++ [e] })) ∧
    (e.frame.cal = none → (s.txReady e.node e.cls = false ∨ waits = true) →
      (s.residueCount (plotOf e.node) < 16384 →
        s.drill e = s.modFab (fun b => { b with residue := b.residue ++ [{ e with real := true }] })) ∧
      (16384 ≤ s.residueCount (plotOf e.node) → s.drill e = s.residueDropped (plotOf e.node)))) ∧
  (∀ (s : State) (p e c : Fin 8) (q : BitVec 16), s.heldAtSeq p e c q.toNat = none →
    (q.toNat + 65536 - s.expectOf (64 * p.val + 8 * e.val + c.val)) % 65536 < 32768 →
    s.fab.flight.find? (fun y => y.src == p.val && y.dst == e.val && y.cls == c.val && y.seq == q.toNat) = none →
    exec (.frameReassemble p e c q) s = .next s.regionsFit) ∧
  (∀ (s : State) (p e c : Fin 8) (x : Crossing), s.fab.held = [] → s.fab.residue = [] →
    s.fab.flight.find? (fun y => y.src == p.val && y.dst == e.val && y.cls == c.val && y.seq == x.seq) = some x →
    x.seq = s.expectOf (64 * p.val + 8 * e.val + c.val) → x.seq < 65536 → x.dead = false → x.multi = false → x.sown = false →
    ∃ t, exec (.frameReassemble p e c (BitVec.ofNat 16 x.seq)) s = .next t ∧ t.fab.flight = s.fab.flight.erase x ∧ t.fab.held = [] ∧
      t.fab.tx = s.fab.tx ++ x.targets.map x.at ∧
      t.expectOf (64 * p.val + 8 * e.val + c.val) = (x.seq + 1) % 65536) ∧
  (∀ (s : State) (p e c : Fin 8) (q : BitVec 16), 32768 ≤ (q.toNat + 65536 - s.expectOf (64 * p.val + 8 * e.val + c.val)) % 65536 →
    ∃ t, exec (.frameReassemble p e c q) s = .next t ∧ t.flag (E.FAB_EVT.SEQ_OLD e) = true ∧ t.fab.tx = s.fab.tx ∧
      t.fab.held = s.fab.held) ∧
  (∀ (s : State) (p e c : Fin 8), s.heldAtSeq p e c (s.expectOf (streamOf p e c)) = none →
    s.fab.held.any (fun x => x.src == p.val && x.dst == e.val && x.cls == c.val) = true →
    exec (.seqGapTimeout p e c) s = .next ((((s.setExpect (streamOf p e c) (s.expectOf (streamOf p e c) + 1)).raise
      (E.FAB_EVT.SEQ_SKIP e)).drainAll p e c).regionsFit) ∧
  (∀ (s : State) (p e c : Fin 8), ((s.heldAtSeq p e c (s.expectOf (streamOf p e c))).isSome = true ∨
      s.fab.held.any (fun x => x.src == p.val && x.dst == e.val && x.cls == c.val) = false) →
    exec (.seqGapTimeout p e c) s = .next s.regionsFit) ∧
  (∀ (s : State) (p e c : Fin 8), (∀ x, s.heldAtSeq p e c (s.expectOf (streamOf p e c)) = some x → s.canRelease x = false) →
    exec (.sownAppend p e c) s = .next s.regionsFit) ∧
  (∀ (s : State) (p e c : Fin 8) (x : Crossing), s.fab.held = [x] → s.fab.residue = [] → x.src = p → x.dst = e → x.cls = c →
    x.seq = s.expectOf (64 * p.val + 8 * e.val + c.val) → x.sown = true → x.multi = true → x.dead = false →
    s.sownReady x = true → ∃ t, exec (.sownAppend p e c) s = .next t ∧ t.fab.held = [] ∧
      (x.frame.cal = none →
        t.fab.tx = s.fab.tx ++ (x.targets.filter (fun n => decide (256 ≤ n) || s.portUp n)).map x.at) ∧
      (x.frame.cal ≠ none → t.fab.tx = s.fab.tx ++ x.targets.map x.at)) ∧
  (∀ (s : State) (n : Fin 264), s.residueHead n = none → exec (.residueAppend n) s = .next s.regionsFit ∧
    exec (.residueTimeout n) s = .next s.regionsFit) ∧
  (∀ (s : State) (n : Fin 264) (e : TxEntry), s.residueHead n = some e →
    (s.txReady n e.cls = false → exec (.residueAppend n) s = .next s.regionsFit) ∧
    (s.f (R.FAB_BUF_MC_CFG.TMO (plotOf n)) = 0 → exec (.residueTimeout n) s = .next s.regionsFit) ∧
    (s.txReady n e.cls = true → exec (.residueAppend n) s =
      .next ((s.modFab (fun b => { b with residue := b.residue.erase e, tx := b.tx ++ [e] })).residueFlow.regionsFit)) ∧
    (s.f (R.FAB_BUF_MC_CFG.TMO (plotOf n)) ≠ 0 → exec (.residueTimeout n) s =
      .next (((s.modFab (fun b => { b with residue := b.residue.erase e })).residueDropped (plotOf n)).residueFlow.regionsFit))) ∧
  (∀ (s : State) (n : Fin 264) (c : Nat) (d : Drr) (e : TxEntry) (begun : Bool),
    s.pickClass (8 + n) (plotOf n) (fun c => (s.txHead n c).map (fun x => x.frame.fr.len)) = some (c, d) →
    s.txHead n c = some e →
    let hsr := s.hsrAt n e.frame
    let tci := e.frame.tciOut n
    let len := e.frame.lenOut tci hsr
    let bad := e.frame.fr.badFcs || e.frame.cellErr
    let f := if e.frame.cellErr = true then { e.frame with fr := { e.frame.fr with badFcs := true } } else e.frame
    (s.mayStart n len = false → exec (.frameTransmit n begun) s = .next s) ∧
    (s.mayStart n len = true → ∃ t, exec (.frameTransmit n begun) s = .next t ∧ t.fab.tx = s.fab.tx.erase e ∧
      (n.val < 256 → s.portUp n = false → t.out = s.out ∧ t.f (R.PORT_CNT_DOWN_DROP.COUNT n) =
        satInc 0xFFFFFFFF (s.f (R.PORT_CNT_DOWN_DROP.COUNT n))) ∧
      (256 ≤ n.val ∨ s.portUp n = true → e.frame.cellErr = true → e.frame.ct = false → e.frame.node < 264 → t.out = s.out ∧
        t.f (R.FAB_CNT_FCS_ERR.COUNT (plotOf e.frame.node)) =
          satInc 0xFFFFFFFF (s.f (R.FAB_CNT_FCS_ERR.COUNT (plotOf e.frame.node)))) ∧
      (256 ≤ n.val ∨ s.portUp n = true → (e.frame.cellErr = false ∨ e.frame.ct = true) →
        (bad = true → begun = false → t.out = s.out) ∧
        (bad = true → begun = true → t.flag (E.FAB_EVT.STOMP (plotOf n)) = true) ∧
        (bad = false ∨ begun = true → (hsr = none ∨ len ≤ 9216 ∨ bad = true) →
          t.out = s.out ++ [.frame (s.frameOut n f len tci hsr bad)]) ∧
        (bad = false → hsr.isSome = true → 9216 < len → t.out = s.out ∧ t.f (R.PORT_CNT_TAG_OVERSIZE.COUNT n) =
          satInc 0xFFFFFFFF (s.f (R.PORT_CNT_TAG_OVERSIZE.COUNT n))))))) ∧
  (∀ (s : State) (n : Fin 264) (begun : Bool),
    s.pickClass (8 + n) (plotOf n) (fun c => (s.txHead n c).map (fun x => x.frame.fr.len)) = none →
    exec (.frameTransmit n begun) s = .next s)

/-- R199–R202, R227, R238. That a command's effect is whole at once and only RESULT waits for FDB_COMMAND_DONE is the model's choice
(assumption 47), as is the PORT that a READ shows for a reserved one, and its OWNER (187). -/
def Obligations.ForwardingDatabase : Prop :=
  (∀ (s : State), s.on R.FAB_FDB_STATUS.BUSY = false →
    let k := fdbKey s.fdbKeyVid s.fdbKeyMac
    let busy := fun (u : State) (r : Nat) => (u.setF R.FAB_FDB_STATUS.BUSY 1).modFab (fun b => { b with fdbResult := some r })
    (s.fdbBadKey = true → exec .fdbRead s = .next (busy s 3) ∧ exec .fdbWriteStatic s = .next (busy s 3) ∧
      exec .fdbDelete s = .next (busy s 3)) ∧
    (s.fdbBadKey = false →
      (∀ e, s.fdbAt k = some e → exec .fdbRead s = .next (busy (s.setR R.FAB_FDB_DATA.reg (fdbDataWord e)) 0) ∧
        exec .fdbDelete s = .next (busy (s.setFdb k none) 0)) ∧
      (s.fdbAt k = none → exec .fdbRead s = .next (busy s 1) ∧ exec .fdbDelete s = .next (busy s 1)) ∧
      (s.fdbAt k = none → s.fdbFull s.fdbKeyVid s.fdbKeyMac = true → exec .fdbWriteStatic s = .next (busy s 2)) ∧
      ((s.fdbAt k ≠ none ∨ s.fdbFull s.fdbKeyVid s.fdbKeyMac = false) → ∃ t, exec .fdbWriteStatic s = .next t ∧
        (∃ e, t.fdbAt k = some e ∧ e.static = true ∧ e.node = s.f R.FAB_FDB_DATA.PORT) ∧
        (∀ j, j ≠ k → t.fdbAt j = s.fdbAt j) ∧ t.fab.fdbResult = some 0)) ∧
    (exec .fdbFlushPort s = .next (busy (s.fdbFlush (fun _ e => e.node == s.f R.FAB_FDB_DATA.PORT)) 0)) ∧
    (exec .fdbFlushVlan s = .next (busy (s.fdbFlush (fun k _ => fdbVid k == s.fdbKeyVid)) 0)) ∧
    (exec .fdbFlushAll s = .next (busy (s.fdbFlush (fun _ _ => true)) 0))) ∧
  (∀ (s : State) (p : Nat → FdbEntry → Bool) (k : Nat), canonical fdbDefault s.fab.fdb →
    (s.fdbFlush p).fdbAt k = (s.fdbAt k).filter (fun e => e.static || !p k e)) ∧
  (∀ s : State, s.on R.FAB_FDB_STATUS.BUSY = true → exec .fdbRead s = .next s ∧ exec .fdbWriteStatic s = .next s ∧
    exec .fdbDelete s = .next s ∧ exec .fdbFlushPort s = .next s ∧ exec .fdbFlushVlan s = .next s ∧ exec .fdbFlushAll s = .next s) ∧
  (∀ (s : State) (r : Nat), s.fab.fdbResult = some r → r < 4 → ∃ t, exec .fdbCommandDone s = .next t ∧
    t.on R.FAB_FDB_STATUS.BUSY = false ∧ t.f R.FAB_FDB_STATUS.RESULT = r ∧ t.fab.fdb = s.fab.fdb) ∧
  (∀ (s : State) (v : BitVec 12) (m : Mac) (e : FdbEntry), s.fdbAt (fdbKey v.toNat m) = some e → e.static = false →
    s.f R.FAB_FDB_AGE.AGE ≠ 0 →
    (e.stamp + s.f R.FAB_FDB_AGE.AGE * secTicks ≤ s.opTotal → exec (.fdbAgeOut v m) s = .next (s.setFdb (fdbKey v.toNat m) none)) ∧
    (s.opTotal < e.stamp + s.f R.FAB_FDB_AGE.AGE * secTicks → exec (.fdbAgeOut v m) s = .next s)) ∧
  (∀ (s : State) (p : Fin 8) (a : Fin 264) (v : BitVec 17), ∃ t, exec (.acctQuotaWrite p a v) s = .next t ∧
    t.f (R.FAB_ACCT_QUOTA.QUOTA p a) = v.toNat ∧
    (min v.toNat 98304 ≤ s.acctUsed p a → t.on (R.FAB_ACCT_USED.OVER_NOW p a) = true ∧ t.flag (E.FAB_BUF_EVT.QUOTA_OVER p) = true) ∧
    (s.acctUsed p a < min v.toNat 98304 → t.on (R.FAB_ACCT_USED.OVER_NOW p a) = false) ∧ t.fab = s.fab ∧ t.fmem = s.fmem)

/-- R219–R222, R249–R253, R314, R327. A count of fewer than 63 cycles has no TOKEN_PS in 16 bits, and leaves a free value. That RISK is
tested with VCORE as it stands before the step is the model's reading (assumption 23). -/
def Obligations.SpeedAndGleaner : Prop :=
  (∀ (s : State) (p : Fin 8) (k : Fin 9) (n : Word), s.plane k = plActive → ∃ t,
    exec (.speedMeasure p k n) s = .next t ∧ t.on (R.FAB_SPEED.VALID p k) = true ∧
    (63 ≤ n.toNat → t.f (R.FAB_SPEED.TOKEN_PS p k) = (4096000 + n.toNat - 1) / n.toNat) ∧ t.fab = s.fab ∧
    ∀ (q : Fin 8) (j : Fin 9), q ≠ p ∨ j ≠ k → t.r (R.FAB_SPEED.reg q j) = s.r (R.FAB_SPEED.reg q j)) ∧
  (∀ (s : State) (p : Fin 8) (k : Fin 9) (n : Word), s.plane k ≠ plActive → exec (.speedMeasure p k n) s = .next s) ∧
  (∀ s : State, s.on R.FAB_VLOOP_CFG.EN = true → s.monitors ≠ [] →
    let w := s.monitors.foldl (fun a x => max a x.2.2) 0
    let top := vcoreCeil (s.f R.SYS_SPARE0.PHASE_ACTIVE)
    let v := s.fab.vcore
    let tgt := s.f R.FAB_VLOOP_CFG.TARGET_PS
    ∃ t, exec .vloopEvaluate s = .next t ∧ t.f R.FAB_SPD_STATUS.WORST_PS = w ∧ 1440 ≤ t.fab.vcore ∧
      (t.f R.FAB_SPD_STATUS.WORST_PLOT, t.f R.FAB_SPD_STATUS.WORST_PLANE, w) ∈ s.monitors ∧
      (1440 ≤ v → v ≤ top → t.fab.vcore ≤ top ∧
        (t.fab.vcore % 2 = 0 → t.f R.FAB_VCORE.MV = t.fab.vcore / 2) ∧
        (t.on R.FAB_VCORE.AT_MAX = true ↔ t.fab.vcore = 1700) ∧ (t.on R.FAB_VCORE.AT_MIN = true ↔ t.fab.vcore = 1440) ∧
        (tgt < w → t.fab.vcore = min (v + 10) top) ∧
        (w ≤ tgt → (s.fab.lowRun + 1 < 10 ∨ tgt ≤ w + 50) → t.fab.vcore = v) ∧
        (w + 50 < tgt → 10 ≤ s.fab.lowRun + 1 → t.fab.vcore = max (v - 5) 1440)) ∧
      t.on R.FAB_SPD_STATUS.RISK_NOW = decide (v = top ∧ 953 ≤ w) ∧ t.on R.FAB_SPD_STATUS.LOW_NOW = decide (1000 < w) ∧
      (v = top → 953 ≤ w → t.flag E.FAB_SPD_EVT.SPEED_RISK = true) ∧
      (1000 < w → t.flag E.FAB_SPD_EVT.SPEED_LOW = true)) ∧
  (∀ s : State, s.on R.FAB_VLOOP_CFG.EN = false ∨ s.monitors = [] → exec .vloopEvaluate s = .next s) ∧
  (∀ (s : State) (p : Fin 8),
    let lost := s.f (R.FAB_BUF_TOTAL.TOTAL p) - s.cellSum p
    let walk := s.walkCells p
    let clash := walk.filter (s.cellClash p)
    let orphans := (walk.filter (s.orphan p)).map (fun i => (i, (s.cellTag p i).gen))
    let u := (s.setF (R.FAB_GLN_STATUS.DEFICIT p) (min lost 0xFFFF)).judge p clash
    let sure := (u.suspects p).filter orphans.contains
    let v := (foldS sure (fun x v => v.leak p x.1) u).setSuspects p ((orphans.filter (fun x => !sure.contains x)).take 4096)
    exec (.gleanerPass p [] [] []) s =
      .next (if clash = [] ∧ lost ≤ 0x7FFF then v else v.mismatch p clash (decide (0x7FFF < lost)))) ∧
  (∀ (s : State) (p : Fin 8) (clash : List Nat),
    ((∀ x ∈ s.spares.judged, x.1 ≠ p.val) → s.judge p clash = s) ∧
    (∀ l, s.spares.judged = l.map (fun c => (p.val, c)) →
      s.judge p clash = foldS l (fun c v => v.judgeOne p clash c) { s with spares := { s.spares with judged := [] } }) ∧
    (∀ cells, s.spares.judged = [(p.val, cells)] → let u := { s with spares := { s.spares with judged := [] } }
      (cells.filter clash.contains = [] → s.judge p clash = u.transient 6 p) ∧
      (∀ c, cells.filter clash.contains = [c] → s.judge p clash = u.rowFailed (u.cellRow p c)))) ∧
  (∀ (s : State) (el : Nat), (∀ x ∈ s.spares.passes, ¬ (x.cls = 1 ∧ x.el = el)) →
    (s.isRetired 1 el = false → s.rowFailed el = s.harrowRunning.lasting 1 el) ∧
    (s.isRetired 1 el = true → s.rowFailed el = (s.harrowRunning.raise E.SYS_FAULT_EVT.LASTING).outcome 1 el 1)) ∧
  (∀ (s : State) (p : Fin 8) (c : Nat), let t := s.leak p c
    let n := s.f (R.FAB_GLN_WINDOW.CONFIRMED p) + 1
    t.flag (E.FAB_BUF_EVT.LEAK p) = true ∧
    t.f (R.FAB_BUF_CNT_LEAK_TOTAL.COUNT p) = satInc 0xFFFFFFFF (s.f (R.FAB_BUF_CNT_LEAK_TOTAL.COUNT p)) ∧
    (t.cellTag p c).owner = .free ∧ (s.cellActive p c = true → t.cellListed p c .free = true) ∧
    (n < 65 → t.f (R.FAB_GLN_WINDOW.CONFIRMED p) = n ∧ t.spares.passes = s.spares.passes) ∧
    (65 ≤ n → t.f (R.FAB_GLN_WINDOW.CONFIRMED p) = 0 ∧ t.flag (E.FAB_BUF_EVT.HARROW_TRIG p) = true ∧
      (s.power.step ≠ 0 → t.underPass hcQueue p = true))) ∧
  (∀ (s : State) (p : Fin 8), (∀ x ∈ s.spares.judged, x.1 ≠ p.val) →
    let lost := s.f (R.FAB_BUF_TOTAL.TOTAL p) - s.cellSum p
    let walk := s.walkCells p
    let clash := walk.filter (s.cellClash p)
    let orphans := (walk.filter (s.orphan p)).map (fun i => (i, (s.cellTag p i).gen))
    (clash = [] → lost ≤ 0x7FFF → orphans.length ≤ 4096 → s.suspects p = [] → ∃ t, exec (.gleanerPass p [] [] []) s = .next t ∧
      t.suspects p = orphans ∧ t.f (R.FAB_GLN_STATUS.DEFICIT p) = lost ∧ t.f (R.FAB_GLN_STATUS.SUSPECTS p) = orphans.length ∧
      t.spares = s.spares ∧ ∀ i, t.cellTag p i = s.cellTag p i) ∧
    (∀ c g : Nat, clash = [] → lost ≤ 0x7FFF → s.suspects p = [(c, g)] → (c, g) ∈ orphans →
      s.f (R.FAB_GLN_WINDOW.CONFIRMED p) < 64 → ∃ t, exec (.gleanerPass p [] [] []) s = .next t ∧
        t.flag (E.FAB_BUF_EVT.LEAK p) = true ∧ (t.cellTag p c).owner = .free ∧ t.cellListed p c .free = true ∧
        (c, g) ∉ t.suspects p ∧ t.f (R.FAB_GLN_WINDOW.CONFIRMED p) = s.f (R.FAB_GLN_WINDOW.CONFIRMED p) + 1) ∧
    (clash ≠ [] → s.suspects p = [] → s.underPass hcQueue p = false → s.power.step ≠ 0 → ∃ t, exec (.gleanerPass p [] [] []) s = .next t ∧
      t.flag (E.FAB_BUF_EVT.MISMATCH p) = true ∧ t.underPass hcQueue p = true ∧
      ∀ c ∈ clash, ⟨0x0703, 2, p.val, [w32 c]⟩ ∈ t.rcd.offered) ∧
    (0x7FFF < lost → s.suspects p = [] → s.underPass hcQueue p = false → s.power.step ≠ 0 → ∃ t w,
      exec (.gleanerPass p [] [] []) s = .next t ∧ t.flag (E.FAB_BUF_EVT.MISMATCH p) = true ∧ t.underPass hcQueue p = true ∧
      ⟨0x0703, 2, p.val, [w]⟩ ∈ t.rcd.offered)) ∧
  (∀ (s : State) (p : Fin 8) (tags : List (Nat × CellTag)) (un : List Nat) (ls : List (Nat × CellOwner)),
    exec (.gleanerPass p tags un ls) s =
      exec (.gleanerPass p [] [] []) (foldS (upsetsOf tags un ls) (fun u s => s.upset p u) s)) ∧
  (∀ (s : State) (p : Fin 8), exec (.leakWindowExpire p) s = .next (s.setF (R.FAB_GLN_WINDOW.CONFIRMED p) 0))

/-- R261–R264. -/
def Obligations.LinkEvents : Prop :=
  (∀ (s : State) (n : Fin 256), s.portState n = 1 → s.receiverGood n = true → ∃ t, exec (.linkUp n) s = .next t ∧
    t.portState n = 2 ∧ t.flag (E.PORT_EVT.LINK_UP n) = true ∧ t.fab = s.fab ∧ ∀ m : Fin 256, m ≠ n → t.portState m = s.portState m) ∧
  (∀ (s : State) (n : Fin 256) (x : Receiver), s.portState n = 2 → x ≠ ⟨true, false, false, false⟩ → ∃ t,
    exec (.linkDown n x) s = .next t ∧ t.portState n = 1 ∧ t.flag (E.PORT_EVT.LINK_DOWN n) = true ∧
    (∀ e, e ∈ t.fab.residue → ¬ (e.real = true ∧ e.node = n)) ∧
    (s.portRole n ≠ 2 → ∀ k e, (k, some e) ∈ t.fab.fdb → e.node = n.val → e.static = true)) ∧
  (∀ (s : State) (n : Fin 256) (x : Receiver), (s.portUp n = false → exec (.receiverAligned n x) s = .next (s.setReceiver n x)) ∧
    (s.portUp n = true → exec (.receiverAligned n x) s = exec (.linkDown n x) s) ∧
    (s.setReceiver n x).receiverGood n = decide (x = ⟨true, false, false, false⟩)) ∧
  (∀ (s : State) (n : Fin 256) (b pw t : BitVec 16), ∃ u, exec (.opticsRefresh n b pw t) s = .next u ∧
    u.f (R.PORT_OPT0.TX_BIAS n) = b.toNat ∧ u.f (R.PORT_OPT0.RX_PWR n) = pw.toNat ∧ u.f (R.PORT_OPT1.ENG_TEMP n) = t.toNat ∧
    (pw ≠ 0x8000 → pw.toInt < toSigned 16 (s.f (R.PORT_RXLOW_THR.THR n)) →
      toSigned 16 (s.f (R.PORT_RXLOW_THR.THR n)) ≤ toSigned 16 (s.f (R.PORT_OPT0.RX_PWR n)) →
      u.flag (E.PORT_EVT.RX_LOW n) = true)) ∧
  (∀ (s : State) (n : Fin 256) (c u y : Word), ∃ t, exec (.degradeWindow n c u y) s = .next t ∧
    (s.f (R.PORT_DEG_CFG.SYM_THR n) < y.toNat → t.flag (E.PORT_EVT.DEGRADE n) = true) ∧
    (y.toNat ≤ s.f (R.PORT_DEG_CFG.SYM_THR n) → t.flag (E.PORT_EVT.DEGRADE n) = s.flag (E.PORT_EVT.DEGRADE n)) ∧ t.fab = s.fab)

/-- R271–R281, R567, R568. `announce` is the time service's ear (assumption 195). That a supervision frame enters at the attachment of
PORT_A's plot is the model's choice (141), as is its number, taken at the command (46), and its layout (164). -/
def Obligations.RingFrames : Prop :=
  (∀ (s : State) (n : Fin 256) (k : Nat) (f : Frame), s.portUp n = true → s.ringOf n = some k → f.etype ≠ 0x8808 → 64 ≤ f.len →
    exec (.ringFrameReceive n f) s = .next (((s.rxCount n f).ringIn k n f).announce n f) ∧
    (f.etype = 0x892F → exec (.supervisionReceive n f) s = .next ((s.rxCount n f).ringIn k n f))) ∧
  (∀ (s : State) (k n : Nat) (f : Frame), s.nodeOf k f.src = none →
    (f.hsr = none → f.etype ≠ 0x88F7 → s.ringIn k n f = s.count (R.RING_CNT_BAD_TAG.COUNT k)) ∧
    (f.hsr ≠ none → f.lsduOk = false → s.ringIn k n f = s.count (R.RING_CNT_BAD_TAG.COUNT k)) ∧
    (∀ q, f.hsr = some q → f.lsduOk = true → s.ringIn k n f =
      (if (s.ddReceive k (n == s.ringA k) f.src q.toNat).1 = true then
        (s.ddReceive k (n == s.ringA k) f.src q.toNat).2.ringTake k n f
      else (s.ddReceive k (n == s.ringA k) f.src q.toNat).2))) ∧
  (∀ (s : State) (k q : Nat) (a : Bool) (m : Mac), k < 128 → q < 65536 → s.dd (s.ddPlot k) = [] → s.srcs (s.ddPlot k) = [] →
    (s.ddReceive k a m q).1 = true ∧
    (s.ddReceive k a m q).2.dd (s.ddPlot k) = [⟨k, m, q, a, !a, false, s.time.now, false, 0⟩]) ∧
  (∀ (s : State) (k q : Nat) (a : Bool) (m : Mac) (e : DdEntry), k < 128 → s.dd (s.ddPlot k) = [e] → e.hits k m q = true →
    e.sent = false →
    ((if a then e.seenA else e.seenB) = false → (s.ddReceive k a m q).1 = false ∧ (s.ddReceive k a m q).2.dd (s.ddPlot k) = [] ∧
      (s.ddReceive k a m q).2.f (R.RING_CNT_DUP.COUNT k) = satInc 0xFFFFFFFF (s.f (R.RING_CNT_DUP.COUNT k))) ∧
    ((if a then e.seenA else e.seenB) = true → (s.ddReceive k a m q).1 = false ∧
      (s.ddReceive k a m q).2.dd (s.ddPlot k) = [e])) ∧
  (∀ (s : State) (k : Fin 128) (m : Mac) (q : BitVec 16),
    (∃ t, exec (.ddEntryExpire k m q) s = .next t ∧ (∀ p, p < 8 → t.dd p = (s.dd p).filter (fun e => !e.hits k m q.toNat)) ∧
      t.regs = s.regs ∧ t.fab = s.fab) ∧
    (∃ t, exec (.ddSourceExpire k m) s = .next t ∧ (∀ p, p < 8 → t.srcs p = (s.srcs p).filter (fun x => !x.hits k m) ∧
      t.dd p = (s.dd p).filter (fun e => !(e.ring == k.val && e.src == m))) ∧ t.regs = s.regs)) ∧
  (∀ (s : State) (k : Fin 128) (len : BitVec 14), s.ringOn k = true → ∃ (f : Frame) (u t : State), exec (.supervisionSend k len) s = .next t ∧
    t = u.enqueue (256 + s.ddPlot k) f
      ⟨7, none, [], [s.ringA k, s.ringB k], s.ownSown, [(k, s.f (R.RING_SEQ.SEQ k))], false⟩ Mark.none ∧
    f.etype = 0x892F ∧ f.src = s.modMac ∧ f.len = max 64 len.toNat ∧ f.body = s.svBody k (f.len - 18) ∧
    u.f (R.RING_SEQ.SEQ k) = (s.f (R.RING_SEQ.SEQ k) + 1) % 65536 ∧ u.svSeqOf k = (s.svSeqOf k + 1) % 65536 ∧ u.fab = s.fab) ∧
  (∀ (s : State) (k : Fin 128) (j : Fin 17) (a : Bool), s.nodeValid k j = true → ∃ t, exec (.viaTimeout k j a) s = .next t ∧
    (if a then t.viaA k j else t.viaB k j) = false ∧ (if a then t.viaB k j else t.viaA k j) = (if a then s.viaB k j else s.viaA k j)) ∧
  (∀ (s : State) (k : Fin 128) (m : Mac) (q : BitVec 16) (e : DdEntry), s.ddFind k m q.toNat = some e → e.seenA ≠ e.seenB →
    e.counted = false → s.nodeOf k m = none → ∃ t, exec (.oneSidedEntry k m q) s = .next t ∧
    t.f (R.RING_CNT_ONE_SIDED.COUNT k) = satInc 0xFFFFFFFF (s.f (R.RING_CNT_ONE_SIDED.COUNT k)) ∧ t.rcd = s.rcd) ∧
  (∀ (s : State) (n : Fin 256) (src : Mac) (v : BitVec 12) (b : List Byte) (k : Nat) (i : Instr),
    i ∈ [.ringEventFrame n ⟨src, v, b⟩, .ringReplyFrame n ⟨src, v, b⟩, .ringJoinFrame n src v b] →
    let drop := s.count (R.FAB_CNT_FIELD_DROP.COUNT (n.val / 32))
    let vid := if v = 0 then s.f (R.FAB_PORTCFG.PVID (n.val / 32) (n.val % 32)) else v.toNat
    let w := fun j => bytesWord (b.getD j 0) (b.getD (j + 1) 0) (b.getD (j + 2) 0) (b.getD (j + 3) 0)
    let eui : Eui := BitVec.ofNat 64 (leNat ((b.drop 4).take 8))
    let rec_ := s.ringSource k eui
    let status := leNat ((b.drop 16).take 2)
    (s.portUp n = false → exec i s = .next s) ∧
    (s.portUp n = true → s.ringOf n = none → exec i s = .next drop) ∧
    (s.portUp n = true → s.f R.FAB_FIELD_VLAN.VID = 0 ∨ vid ≠ s.f R.FAB_FIELD_VLAN.VID → exec i s = .next drop) ∧
    (s.portUp n = true → s.ringOf n = some k → s.f R.FAB_FIELD_VLAN.VID ≠ 0 → vid = s.f R.FAB_FIELD_VLAN.VID →
      (b.getD 0 0 ≠ 3 ∨ b.getD 1 0 ∉ [1, 2, 3] → exec i s = .next drop) ∧
      (b.getD 0 0 = 3 →
        (b.getD 1 0 = 1 → exec i s = .next (s.fieldEvent rec_ ⟨eui, (b.getD 12 0).toNat, w 16, w 20, w 24⟩ (s.ringRetire k src)
          s.now s.stepEpoch)) ∧
        (b.getD 1 0 = 2 → exec i s = .next (s.fieldReply rec_ ⟨w 12, eui, status == 0, w32 status,
          leNat ((b.drop 18).take 2) % 1024, (w 20).toNat⟩ 0 k (s.ringRetire k src) s.now s.stepEpoch)) ∧
        (b.getD 1 0 = 3 →
          (∀ j, s.nodeOf k src = some j → exec i s = .next (s.joinEvent rec_ eui 0
            (w32 (k * 65536 + j * 256 + (b.getD 2 0).toNat % 64)) (s.ringRetire k src) s.now s.stepEpoch)) ∧
          (s.nodeOf k src = none → exec i s = .next drop)))))

/-! ## Time and timed launch (chapter 8) -/

/-- R285–R288, R303. A tick adds `incr`; the slew's remainder is kept in millionths of 2⁻³² ns. -/
def Obligations.TimeBase : Prop :=
  (∀ s : State, s.reaches R.TIME_NOW0.reg.blk R.TIME_NOW0.reg.off false = true → ∃ t, exec .timeNowRead s = .next t ∧
    t.bus.readData = stampWord s.now 0 ∧ t.r R.TIME_NOW1.reg = stampWord s.now 1 ∧ t.r R.TIME_NOW2.reg = stampWord s.now 2 ∧
    t.f R.TIME_NOW_STEP.STEP = s.stepEpoch ∧ t.time = s.time) ∧
  (∀ s : State, s.reaches (R.TIME_PPS_IN.reg 0).blk (R.TIME_PPS_IN.reg 0).off false = true → ∃ t, exec .ppsInRead s = .next t ∧
    t.bus.readData = stampWord s.time.ppsIn 0 ∧ t.r (R.TIME_PPS_IN.reg 1) = stampWord s.time.ppsIn 1 ∧
    t.r (R.TIME_PPS_IN.reg 2) = stampWord s.time.ppsIn 2 ∧ t.on R.TIME_PPS_IN_STEP.VALID = s.time.ppsValid ∧ t.time = s.time) ∧
  (∀ (s : State) (p : Fin 8), s.reaches (R.TIME_TS_DATA123.reg p 2).blk (R.TIME_TS_DATA123.reg p 2).off false = true →
    (s.tsDry p = 0 → ∃ t, exec (.tsDataRead p) s = .next t ∧ t.tsQueue p = (s.tsQueue p).drop 1 ∧
      (s.tsQueue p = [] → t.bus.readData = 0) ∧ (∀ e l, s.tsQueue p = e :: l → t.bus.readData = stampWord e.time 2)) ∧
    (0 < s.tsDry p → ∃ t, exec (.tsDataRead p) s = .next t ∧ t.tsQueue p = s.tsQueue p ∧ t.bus.readData = 0 ∧
      t.tsDry p = s.tsDry p - 1)) ∧
  (∀ (s : State) (v : DWord), s.reaches R.TIME_INCR_LO.reg.blk R.TIME_INCR_LO.reg.off true = true →
    let x := v.toNat % 2 ^ 40
    ∃ t, exec (.timeIncrWrite v) s = .next t ∧ t.incr = max 6865075726 (min x 6878819622) ∧
      (x < 6865075726 ∨ 6878819622 < x → t.flag E.TIME_EVT.INCR_CLAMP = true) ∧
      (s.time.slewLeft = 0 → t.time.now = (s.time.now + s.incr) % tbWrap)) ∧
  (∀ s : State, s.reaches R.TIME_CMD.reg.blk R.TIME_CMD.reg.off true = true → s.time.slewLeft = 0 →
    (∃ t, exec .timeCmdSlew s = .next t ∧ t.time.slewLeft = toSigned 32 (s.f R.TIME_ADJ.ADJ) * 4294967296 * 1000000 ∧
      t.time.slewTick = s.incr * max 1 (min 500 (s.f R.TIME_SLEW.PPM)) ∧ t.time.now = (s.time.now + s.incr) % tbWrap) ∧
    (∃ t, exec .timeCmdSlewStop s = .next t ∧ t.time.slewLeft = 0 ∧ t.on R.TIME_STATUS.SLEWING = false)) ∧
  (∀ s : State, (s.time.slewLeft = 0 → exec .slewDone s = .next s) ∧ (s.time.slewLeft ≠ 0 → exec .slewDone s =
    .next (s.pass ((s.time.slewLeft.natAbs + max 1 s.time.slewTick - 1) / max 1 s.time.slewTick)))) ∧
  (∀ (s : State) (ns : Int), s.time.slewLeft = ns * 4294967296 * 1000000 → 0 < ns → 0 < s.time.slewTick →
    ∃ t, exec .slewDone s = .next t ∧ t.time.slewLeft = 0 ∧ t.on R.TIME_STATUS.SLEWING = false ∧ ∃ n : Nat,
      (t.time.now : Int) = (s.time.now + n * s.incr + ns * 4294967296) % (tbWrap : Nat) ∧
      ns * 4294967296 * 1000000 ≤ n * s.time.slewTick ∧ (n - 1 : Int) * s.time.slewTick < ns * 4294967296 * 1000000)

/-- R285, R289–R292. Under R291 a STEP acts at the tick that follows. `pass` lets ticks pass: without a whole second of the time base
within them, `ticks` all at once, then what follows them. -/
def Obligations.TimeSteps : Prop :=
  (∀ s : State, s.reaches R.TIME_CMD.reg.blk R.TIME_CMD.reg.off true = true →
    (∃ t, exec .timeCmdSet s = .next t ∧ t.flag E.TIME_EVT.STEPPED = true ∧ t.time.slewLeft = 0 ∧ t.hnd = s.hnd) ∧
    (∃ t, exec .timeCmdStep s = .next t ∧ t.flag E.TIME_EVT.STEPPED = true ∧ t.time.slewLeft = 0 ∧
      (s.spares.installs = [] → t.hnd = s.hnd)) ∧
    exec .timeCmdSet s = .next (s.timeStep (nowOfStamp (s.stampR R.TIME_SET.reg))) ∧
    exec .timeCmdStep s = .next ((s.pass 1).timeStep
      ((((s.pass 1).time.now : Int) + toSigned 64 (s.pairR R.TIME_OFS_LO.reg R.TIME_OFS_HI.reg) * 4294967296) %
        (tbWrap : Nat)).toNat)) ∧
  (∀ (s : State) (v : Nat), v < tbWrap → let t := s.timeStep v
    let e := (s.stepEpoch + 1) % 256
    t.time.now = v ∧ t.stepEpoch = e ∧ t.time.slewLeft = 0 ∧ t.on R.TIME_STATUS.SLEWING = false ∧
    t.flag E.TIME_EVT.STEPPED = true ∧ t.hnd = s.hnd ∧ t.cal = s.cal ∧ t.rtc = s.rtc ∧
    ⟨0x0201, 1, 0xFFFF, [stampWord s.now 0, stampWord s.now 1, stampWord s.now 2, stampWord t.now 0, stampWord t.now 1,
      stampWord t.now 2, w32 e]⟩ ∈ t.rcd.offered ∧
    (s.fe.intakeOpen = true → s.intakeLevel + 16 ≤ 65536 → canonical listDefault s.fe.lists →
      ∀ l, l < 16 → t.ilist l = if s.engActive l = true then s.ilist l ++ [⟨0x08, false, false, e, 0, 0, t.now, 3, w32 e, 0⟩]
        else s.ilist l) ∧
    (stampUnits t.now ≤ stampUnits s.now → t.shf = s.shf) ∧
    (∀ c, c < 8 → let x := s.ctx c
      let passed := x.st = .pending ∧ x.loaded = true ∧ stampUnits s.now < stampUnits x.when_ ∧ stampUnits x.when_ < stampUnits t.now
      (passed → t.ctx c = { x with late := true } ∧ t.flag E.FE_SHF_EVT.APPLIED_LATE = true) ∧ (¬ passed → t.ctx c = x))) ∧
  (∀ (s : State) (k : Nat), (s.timeTicks k).time.now = s.timeAfter k % tbWrap ∧
    (s.time.slewLeft = 0 → s.timeTicks k = { s with time := { s.time with now := (s.time.now + k * s.incr) % tbWrap } })) ∧
  (∀ (s : State) (n : Nat), s.wholeSeconds n = [] → s.pass n = ((s.ticks n).ticked).esmcBeats s.power.opTicks) ∧
  (∀ s : State, s.time.slewLeft = 0 → (s.pass 1).time.now = (s.time.now + s.incr) % tbWrap)

/-- R296, R300, R301. Which offset the step out of SUSPECT uses is the model's reading (assumption 26), and so is that TIME_SYNC names
the other source at a loss with STATE kept, or none (27). The ledger's UTC offset follows at once (89). `selects` is the preference of
TIME_SRC_CFG, `otherSource` the admitted source that is left (R312); a PTP master is admitted when the best-master choice selects it
(assumptions 121 and 195), and `announce` keeps the Announce messages for that choice. -/
def Obligations.TimeService : Prop :=
  (∀ (s : State) (n : Nat) (f : Frame), (f.isAnnounce = false ∨ s.ptpOn n = false → s.announce n f = s) ∧
    (f.isAnnounce = true → s.ptpOn n = true → let t := s.announce n f
      { t with time := s.time } = s ∧ t.time.now = s.time.now ∧
      (∃ x ∈ t.time.masters, x.port = n ∧ x.domain = ptpField f.body 4 1 ∧ x.sender = ptpField f.body 20 10 ∧ x.heard = s.opTotal))) ∧
  (∀ (s : State) (n : Fin 256) (telecom : Bool) (d : Byte), s.admits (.ptp n telecom d) = true ↔
    s.f R.TIME_SRC_CFG.MODE ≠ 1 ∧ s.portUp n = true ∧ s.on (R.TIME_PTP_PORT.EN n) = true ∧ s.portRole n ∈ [1, 2, 3] ∧
    (if telecom = true then 24 ≤ d.toNat ∧ d.toNat ≤ 43 else d.toNat ≤ 127) ∧ s.isMaster telecom d.toNat n = true) ∧
  (∀ (s : State) (src : TimeSource) (off : DWord) (utc : Word), s.admits src = false → exec (.syncInterval src off utc) s = .next s) ∧
  (∀ (s : State) (src : TimeSource) (off : DWord) (utc : Word), s.admits src = true → s.selects src = false →
    exec (.syncInterval src off utc) s = .next (s.setOther (some src.num))) ∧
  (∀ (s : State) (src : TimeSource) (off : DWord) (utc : Word), s.admits src = true → s.selects src = true →
    let u := (s.takeSource src.num).setUtcoff utc
    let o := off.toInt
    let run := exec (.syncInterval src off utc) s
    (s.sync = 0 → run = .next ((u.stepNs (-o)).setSync 1)) ∧
    (s.sync = 1 ∨ s.sync = 2 →
      (o < -100000 → run = .next (((u.stepNs (-o)).setSync 1).setRun 0)) ∧
      (100000 < o → ∃ t, run = .next t ∧ t.sync = 4 ∧ t.flag E.TIME_EVT.SUSPECT = true ∧ t.time.suspect = o ∧
        t.time.now = s.time.now ∧ t.time.slewLeft = 0) ∧
      (-100000 ≤ o → o ≤ 100000 → ∃ t, run = .next t ∧ t.r R.TIME_ADJ.reg = BitVec.ofInt 32 (-o) ∧
        incrMin ≤ t.incr ∧ t.incr ≤ incrMax ∧ t.time.slewLeft = -o * 4294967296 * 1000000)) ∧
    (s.sync = 1 → -1000 ≤ o → o ≤ 1000 →
      (s.time.run = 15 → ∃ t, run = .next t ∧ t.sync = 2) ∧ (s.time.run < 15 → ∃ t, run = .next t ∧ t.sync = 1 ∧
        t.time.run = s.time.run + 1)) ∧
    (s.sync = 2 → (o < -1000 ∨ 1000 < o) → -100000 ≤ o → o ≤ 100000 → s.time.run = 15 → ∃ t, run = .next t ∧ t.sync = 1) ∧
    (s.sync = 4 → s.time.confirms = 2 → s.time.suspect - 10000 ≤ o → o ≤ s.time.suspect + 10000 →
      run = .next ((u.stepNs (-s.time.suspect)).setSync 1)) ∧
    u.f R.TIME_SYNC.SRC = (if src.num = 0x100 then 2 else 1) ∧ u.f R.TIME_SYNC.PORT = src.num ∧
    u.r R.TIME_UTCOFF.reg = utc ∧ u.ledger.utcoff = utc) ∧
  (∀ (s : State) (n : Nat), (s.sync = 1 ∨ s.sync = 2 ∨ s.sync = 4) → s.otherSource = some n →
    exec .sourceLost s = .next ((s.freeRun.setSource n).setOther none)) ∧
  (∀ s : State, (s.sync = 1 ∨ s.sync = 2 ∨ s.sync = 4) → s.otherSource = none → ∃ t, exec .sourceLost s = .next t ∧ t.sync = 3 ∧
    t.flag E.TIME_EVT.HOLDOVER = true ∧ t.time.now = s.time.now ∧ t.time.slewLeft = 0) ∧
  (∀ s : State, (s.sync = 0 ∨ s.sync = 3) → exec .sourceLost s = .next s)

/-- R297–R299. The ranking of quality levels is free (assumption 28). That the ledger's UTC offset follows the register at once is the
model's choice (89, 173). -/
def Obligations.SyncESignals : Prop :=
  (∀ (s : State) (i : Fin 4) (ql : Byte), s.on (R.TIME_SYNCE_SRC.VALID i) = true →
    (∀ j : Fin 4, j < i → s.on (R.TIME_SYNCE_SRC.VALID j) = false) →
    ∀ n : Fin 256, s.f (R.TIME_SYNCE_SRC.PORT i) = n → s.portUp n = true → ∃ t, exec (.esmcReceive n ql) s = .next t ∧
      t.time.now = s.time.now ∧
      (Config.qlUsable ql.toNat = true ∨ i.val ∉ s.synceCandidates → sget natZero' t.time.synceQl i = ql.toNat + 1) ∧
      (Config.qlUsable ql.toNat = false → i.val ∈ s.synceCandidates →
        t.time.synceQl = s.time.synceQl ∧ i.val ∈ t.time.synceHold)) ∧
  (∀ (s : State) (n : Fin 256) (ql : Byte), s.portUp n = false → exec (.esmcReceive n ql) s = .next s) ∧
  (∀ (s : State) (i : Fin 4),
    (∃ t, exec (.synceHoldOff i) s = .next t ∧ i.val ∈ t.time.synceDown ∧ i.val ∉ t.synceCandidates) ∧
    (∃ t, exec (.synceWaitToRestore i) s = .next t ∧ i.val ∉ t.time.synceDown ∧ t.time.synceQl = s.time.synceQl)) ∧
  (∀ s : State, s.on R.TIME_SYNCE_CFG.EN = true → s.synceCandidates = [] → s.synceSelect.f R.TIME_SYNCE_STATUS.STATE =
    (if s.time.synceWas = true then 2 else 0)) ∧
  (∀ s : State, ∃ t, exec .ppsInEdge s = .next t ∧ t.time.ppsIn = s.now ∧ t.time.ppsStep = s.stepEpoch ∧
    t.time.ppsValid = true ∧ t.regs = s.regs) ∧
  (∀ (s : State) (l : List Byte), (todGood l = true → s.f R.TIME_SYNC.SRC = 2 → (l.getD 11 0).getLsbD 2 = true → ∃ t,
      exec (.todMessage l) s = .next t ∧ t.r R.TIME_UTCOFF.reg = BitVec.ofInt 32 (toSigned 16 (leNat ((l.drop 9).take 2))) ∧
      t.ledger.utcoff = t.r R.TIME_UTCOFF.reg) ∧
    ((todGood l = false ∨ s.f R.TIME_SYNC.SRC ≠ 2) → exec (.todMessage l) s = .next s)) ∧
  (∀ s : State, (s.f R.TIME_SRC_CFG.MODE ≠ 0 →
      (s.f R.TIME_SYNC.SRC = 2 → exec .ppsInMiss s = .next (s.raise E.TIME_EVT.PPS_IN_MISS).sourceLost) ∧
      (s.f R.TIME_SYNC.SRC ≠ 2 → s.time.other = some 0x100 →
        exec .ppsInMiss s = .next ((s.raise E.TIME_EVT.PPS_IN_MISS).setOther none)) ∧
      (s.f R.TIME_SYNC.SRC ≠ 2 → s.time.other ≠ some 0x100 → exec .ppsInMiss s = .next (s.raise E.TIME_EVT.PPS_IN_MISS))) ∧
    (s.f R.TIME_SRC_CFG.MODE = 0 → exec .ppsInMiss s = .next s)) ∧
  (∀ s : State, s.on R.TIME_PPS_CFG.OUT_EN = true → (s.on R.TIME_PPS_CFG.FORCE = true ∨ s.sync = 2 ∨ s.sync = 3) →
    (s.on R.TIME_PPS_CFG.TOD_EN = false → exec .ppsOut s = .next (s.send (.pps (s.f R.TIME_PPS_CFG.WIDTH) none))) ∧
    (s.on R.TIME_PPS_CFG.TOD_EN = true → ∃ t l, exec .ppsOut s = .next t ∧
      t.out = s.out ++ [.pps (s.f R.TIME_PPS_CFG.WIDTH) (some l)] ∧ l.length = 16 ∧ todGood l = true ∧ t.regs = s.regs)) ∧
  (∀ s : State, s.on R.TIME_PPS_CFG.OUT_EN = false → exec .ppsOut s = .next s)

/-- R304–R309, R469, R567, R569, R570. `launchFirst` is what the first copy that leaves does; `portCopy` is a copy's frame in the
fabric. That a copy whose frame the fabric lost reaches LEFT at its launch instant (`copyLost`) is the model's choice (assumption
146), as is the plot at which a ring's frame enters (141). -/
def Obligations.LaunchCalendar : Prop :=
  (∀ (s : State) (n : Fin 131072) (e : CalEntry), s.calE n = some e → s.fetchDue e = true →
    e.copies.all (fun c => c.st ≠ .waiting || s.storeRoom c.egress) = true →
    let x : CalEntry := { e with copies := e.copies.map (fun c => if c.st = .waiting then { c with st := .fetched } else c) }
    (e.path ≠ 0 → e.copies.all (fun c => (match c.egress with | .radio _ => true | .can _ => true | .stage _ => true | _ => false)) = true →
      ∃ t, exec (.calendarFetch n) s = .next t ∧ t.calE n = some x ∧ t.regs = s.regs ∧ t.fab = s.fab ∧ t.hnd = s.hnd) ∧
    (e.path = 0 → e.hsr = none → e.copies.all (fun c => (match c.egress with | .port _ => true | _ => false)) = true →
      e.copies.any (fun c => c.st = .waiting) = true →
      let k := getBits e.addr 16 7
      let q := s.f (R.RING_SEQ.SEQ k)
      let mac := if e.body.eui = euiAll then macAll else s.poleMac k (getBits e.addr 8 4)
      let both := [s.ringA k, s.ringB k]
      exec (.calendarFetch n) s = .next ((((s.setCal n (some x)).setF (R.RING_SEQ.SEQ k) (q + 1)).setCal n
        (some { x with hsr := some q })).enqueue (256 + plotOf (s.ringA k)) (s.fieldFrameOf mac e.body)
          ⟨6, none, if macMulticast mac = true then [] else both, if macMulticast mac = true then both else [],
            s.ownSown && macMulticast mac, [(k, q)], false⟩ ⟨none, false, some n.val⟩)) ∧
    (∀ (c : Copy) (j : Nat), e.path ≠ 0 → e.copies = [c] → c.egress = .chain j → c.st = .waiting →
      let u := (s.setCal n (some x)).quOffer (.feed j) x.feedItem
      (n.val, 0) ∉ (s.chainAt j).fetched → exec (.calendarFetch n) s =
        .next ((u.setChain j { u.chainAt j with fetched := (u.chainAt j).fetched ++ [(n.val, 0)] }).launchFrame j))) ∧
  (∀ (s : State) (n : Fin 131072), (s.calE n = none → exec (.calendarFetch n) s = .next s) ∧
    (∀ e, s.calE n = some e → e.copies.any Copy.stored = false →
      (s.fetchDue e = false ∨ e.copies.all (fun c => c.st ≠ .waiting || s.storeRoom c.egress) = false) →
      exec (.calendarFetch n) s = .next s)) ∧
  (∀ (s : State) (n : Fin 131072) (k : Fin 2) (e : CalEntry) (c : Copy), s.calE n = some e → e.copies[k.val]? = some c →
    (∀ j, c.egress = .chain j → exec (.copyLaunch n k) s = .next (s.chainLatch j)) ∧
    (s.copyDue e c = true →
      (∀ j, c.egress = .radio j → exec (.copyLaunch n k) s = .next (s.radRelease j n e)) ∧
      (∀ j, c.egress = .can j → exec (.copyLaunch n k) s = .next (s.canLaunch j n k e c)) ∧
      (∀ j, c.egress = .stage j → exec (.copyLaunch n k) s =
        .next (((s.stageLaunch j e).launchFirst e c).copyLeft n k e c false))) ∧
    (s.copyDue e c = false → (∀ j, c.egress ≠ .chain j) → (∀ p, c.egress ≠ .port p) → exec (.copyLaunch n k) s = .next s)) ∧
  (∀ (s : State) (n : Fin 131072) (k : Fin 2) (e : CalEntry) (c : Copy), s.calE n = some e → e.copies[k.val]? = some c →
    c.st = .fetched → (∀ j, c.egress ≠ .chain j) → (∀ p, c.egress = .port p → (s.portCopy n p).isSome = true) →
    ∃ t, exec (.copyArrive n k) s = .next t ∧
      t.copyOf n k = some { c with st :=
        if e.immediate = false ∧ stampUnits s.now + 20000 * 65536 < stampUnits c.launch then .armed else .unarmed } ∧
      t.regs = s.regs ∧ t.hnd = s.hnd) ∧
  (∀ (s : State) (n : Fin 131072) (k : Fin 2) (e : CalEntry) (c : Copy) (p : Nat), s.calE n = some e →
    e.copies[k.val]? = some c → c.egress = .port p → s.copyDue e c = true →
    let on := s.ringOn (getBits e.addr 16 7)
    (on = true → ∀ x, s.portCopy n p = some x →
      let u := ((s.modFab (fun b => { b with tx := b.tx.erase x })).transmit x false).regionsFit
      (s.portUp p = true →
        exec (.copyLaunch n k) s = .next ((if e.launched then u else u.launchFirst e c).copyLeft n k e c false)) ∧
      (s.portUp p = false → exec (.copyLaunch n k) s = .next (u.copyLeft n k e c true))) ∧
    (on = true → s.portUp p = true → s.portCopy n p = none →
      exec (.copyLaunch n k) s = .next ((if e.launched then s else s.launchFirst e c).copyLeft n k e c false)) ∧
    (on = true → s.portUp p = false → s.portCopy n p = none → exec (.copyLaunch n k) s =
      .next ((s.count (R.PORT_CNT_DOWN_DROP.COUNT p)).copyLeft n k e c true)) ∧
    (on = false → s.portCopy n p = none → exec (.copyLaunch n k) s = .next (s.copyLeft n k e c true)) ∧
    (on = false → ∀ x, s.portCopy n p = some x → exec (.copyLaunch n k) s =
      .next ((s.modFab (fun b => { b with tx := b.tx.erase x })).regionsFit.copyLeft n k e c true))) ∧
  (∀ (s : State) (n : Fin 131072) (k : Fin 2) (e : CalEntry) (c : Copy) (p : Nat), s.calE n = some e →
    e.copies[k.val]? = some c → c.egress = .port p → s.copyDue e c = false →
    (s.copyLost n e c = false → exec (.copyLaunch n k) s = .next s) ∧
    (s.copyLost n e c = true → exec (.copyLaunch n k) s = .next (s.copyLeft n k e c true))) ∧
  (∀ (s : State) (e : CalEntry) (c : Copy) (p : Nat), c.egress = .port p → c.st = .unarmed →
    s.mayStart p (fieldLen (s.f R.FAB_FIELD_VLAN.VID) e.body.payload.length) = false → s.copyDue e c = false) ∧
  (∀ (s : State) (e : CalEntry) (c : Copy), e.ep < 131072 → s.sameTarget e = true → e.body.code = 0x01 → e.body.level < 1024 →
    (s.launchFirst e c).ep e.ep EP.CUR = e.body.level ∧ (s.launchFirst e c).ep e.ep EP.CMD_STEP = s.stepEpoch ∧
    (s.launchFirst e c).epStamp e.ep EP.LAST_CMD = s.now) ∧
  (∀ (s : State) (e : CalEntry) (c : Copy), e.ep < 131072 →
    let i := slotOf e.body.handle
    let late := !e.immediate && decide (stampUnits c.launch + s.precision c.egress * 65536 < stampUnits s.now)
    s.handleOpen e.body.handle = true → (s.hslot i).st = .placed →
    ((s.launchFirst e c).hslot i).late = late ∧ (late = true → (s.launchFirst e c).flag E.TIME_EVT.LATE = true) ∧
    (e.path = 3 ∨ e.body.noReply = true → ((s.launchFirst e c).hslot i).st = .completing ∧
      ((s.launchFirst e c).hslot i).status = 0) ∧
    (e.path ≠ 3 → e.body.noReply = false → ((s.launchFirst e c).hslot i).st = .awaiting)) ∧
  (∀ (s : State) (n : Nat) (e : CalEntry) (c : Copy), e.copies = [c] → e.launched = false → s.sameTarget e = false →
    s.handleOpen e.body.handle = true → (s.hslot (slotOf e.body.handle)).st = .placed →
    let t := s.copyLeft n 0 e c true
    t.calE n = none ∧ (t.hslot (slotOf e.body.handle)).st = .completing ∧
    (t.hslot (slotOf e.body.handle)).status = fsNotSent) ∧
  (∀ (s : State) (k : Fin 128) (j : Fin 16) (a b : BitVec 20), s.nodeValid k j = true → ∃ t,
    exec (.nodeDelayRefresh k j a b) s = .next t ∧ t.f (R.TIME_NODE_DLY_A.DLY k j) = a.toNat ∧
    t.f (R.TIME_NODE_DLY_B.DLY k j) = b.toNat ∧ t.time = s.time ∧ t.cal = s.cal)

/-! ## Harrow passes and module pairs (chapters 9 and 10) -/

/-- R313–R315, R317, R319, R320, R323. That a queue manager's pass installs its rebuilt state for 10,000 ticks (`opTotal + 10000`) is the
model's choice (assumption 145). -/
def Obligations.HarrowPasses : Prop :=
  (∀ (s : State) (cls el : Nat), s.power.step = 0 → s.harrow cls el = s) ∧
  (∀ (s : State) (cls el : Nat), s.power.step ≠ 0 → s.underPass cls el = true → s.harrow cls el = s.countError cls el ∧
    { s.countError cls el with spares := s.spares } = s ∧ (s.countError cls el).spares.passes = s.spares.passes ∧
    (s.countError cls el).spares.retired = s.spares.retired ∧ ∃ n, 0 < n ∧ (cls, el, n) ∈ (s.countError cls el).spares.counted) ∧
  (∀ (s : State) (cls el : Nat), s.power.step ≠ 0 → s.underPass cls el = false → (cls = 6 ∨ s.recentTransients cls el < 7) →
    (s.harrow cls el).spares.passes = s.spares.passes ++ [⟨cls, el, s.errorFallow cls el⟩] ∧
    (s.harrow cls el).f R.SYS_HARROW.RUNNING = (s.spares.passes.length + 1) % 256 ∧
    (s.harrow cls el).spares.retired = s.spares.retired ∧ (s.harrow cls el).time = s.time) ∧
  (∀ (s : State) (cls el : Nat), s.power.step ≠ 0 → s.underPass cls el = false → cls ≠ 6 → 7 ≤ s.recentTransients cls el →
    (s.errorFallow cls el = false → s.harrow cls el = s.lasting cls el) ∧
    (s.errorFallow cls el = true → s.harrow cls el = s.fallowLasting cls el)) ∧
  (∀ (s : State) (cls el : Nat), cls ≠ 4 → s.errorFallow cls el = false) ∧
  (∀ (s : State) (k : Fin 9) (l : List (Nat × Nat × Nat)),
    (s.plane k = plActive → exec (.planeTimeout k l) s = .next ((s.planeOut k l).harrow 0 k) ∧
      exec (.tokenParityError k l) s = .next ((s.planeOut k l).harrow 0 k)) ∧
    (s.plane k ≠ plActive → s.underPass 0 k = true → exec (.planeTimeout k l) s = .next (s.countError 0 k) ∧
      exec (.tokenParityError k l) s = .next (s.countError 0 k)) ∧
    (s.plane k ≠ plActive → s.underPass 0 k = false → exec (.planeTimeout k l) s = .next s ∧
      exec (.tokenParityError k l) s = .next s) ∧
    (s.plane k = plFallow → s.activePlanes.length < 8 → exec (.planeJoin k) s =
      .next (((s.setPlane k plActive).modSpares (fun x => { x with vacant := x.vacant.drop 1 })).planeCounts.resend.plotsUpdate)) ∧
    (s.plane k ≠ plFallow ∨ 8 ≤ s.activePlanes.length → exec (.planeJoin k) s = .next s)) ∧
  (∀ (s : State) (e : Fin 32) (l : Fin 8) (b : Fin 8448) (n : Fin 18) (p : Fin 8),
    exec (.laserFault e l) s = .next (s.harrow 2 (e.val * 256 + l.val)) ∧ exec (.flashError b) s = .next (s.harrow 4 b) ∧
    exec (.phaseFault n) s = .next (s.harrow 5 n) ∧ exec (.queueParityError p) s = .next (s.harrow 6 p)) ∧
  (∀ (s : State) (p : Fin 8) (bank : Fin 9) (row : Fin 192),
    let el := p.val * 65536 + bank.val * 4096 + row.val
    let late := s.spares.corrected.filter (fun x => decide (s.opTotal < x.2 + secTicks))
    let u := { s with spares := { s.spares with corrected := late ++ [(el, s.opTotal)] } }
    exec (.cellEccError p bank row true none) s = .next (s.harrow 1 el) ∧
    (∀ i f, s.fabFrame i = some f → exec (.cellEccError p bank row true (some (.stored i))) s =
      .next ((s.setFrame i (some { f with cellErr := true })).harrow 1 el)) ∧
    (∀ h, exec (.cellEccError p bank row true (some h)) s = .next ((s.cellHit h).harrow 1 el)) ∧
    ((late.filter (fun x => x.1 == el)).length < 2 → exec (.cellEccError p bank row false none) s = .next u) ∧
    (2 ≤ (late.filter (fun x => x.1 == el)).length → exec (.cellEccError p bank row false none) s = .next (u.harrow 1 el))) ∧
  (∀ (s : State) (cls : Fin 7) (el : BitVec 24) (lost : Option (List (BitVec 64))),
    (∀ x ∈ s.spares.passes, ¬(x.cls = cls.val ∧ x.el = el.toNat)) → exec (.harrowPassDone cls el lost) s = .next s) ∧
  (∀ (s : State) (cls : Fin 7) (el : BitVec 24) (x : Pass) (bad : List (BitVec 64)),
    s.spares.passes.find? (fun y => y.cls == cls.val && y.el == el.toNat) = some x →
    (s.power.step = 0 → ∀ lost, exec (.harrowPassDone cls el lost) s = .next s) ∧
    (s.power.step ≠ 0 →
    let u := ({ s with spares := { s.spares with passes := s.spares.passes.erase x } }).harrowRunning
    let n := el.toNat
    (cls.val ≠ 6 → x.fallow = false →
      exec (.harrowPassDone cls el (some bad)) s =
        .next ((if cls.val = 4 then u.flashBad n (bad.map (·.toNat)) else u).lasting cls n) ∧
      exec (.harrowPassDone cls el none) s =
        .next ((if cls.val = 0 then u.planeBack n else if cls.val = 3 then u.engBack n else u).transient cls n)) ∧
    (cls.val ≠ 6 → x.fallow = true →
      exec (.harrowPassDone cls el (some bad)) s = .next (u.fallowLasting cls n) ∧
      exec (.harrowPassDone cls el none) s = .next ((u.fallowBack cls n).transient cls n)) ∧
    (cls.val = 6 → ∀ lost, ∃ t, exec (.harrowPassDone cls el lost) s = .next t ∧ t = u.queueDone n ∧
      t.spares.retired = s.spares.retired ∧ n ∈ t.spares.judged.map (·.1) ∧ (n, s.opTotal + 10000) ∈ t.spares.installs))) ∧
  (∀ (s : State) (cls el : Nat), cls < 7 → el < 2 ^ 24 →
    let t := s.transient cls el
    t.flag E.SYS_FAULT_EVT.TRANSIENT = true ∧ (cls, el, s.opTotal) ∈ t.spares.transients ∧ t.f R.SYS_FAULT_LAST.CLASS = cls ∧
    t.f R.SYS_FAULT_LAST.OUTCOME = 0 ∧ t.f R.SYS_FAULT_LAST.ELEMENT = el) ∧
  (∀ (s : State) (cls el : Nat), cls < 6 → el < 2 ^ 24 →
    let t := s.lasting cls el
    t.f R.SYS_FAULT_LAST.CLASS = cls ∧ t.f R.SYS_FAULT_LAST.ELEMENT = el ∧
    (t.f R.SYS_FAULT_LAST.OUTCOME = 1 ∨ t.f R.SYS_FAULT_LAST.OUTCOME = 2)) ∧
  (∀ s : State, ∃ t, exec .fallowHarrow s = .next t ∧ t.spares.retired = s.spares.retired ∧
    (∀ x ∈ s.spares.passes, x ∈ t.spares.passes) ∧
    (∀ k, k < 9 → s.plane k = plFallow → s.underPass 0 k = false → ⟨0, k, true⟩ ∈ t.spares.passes ∧ t.plane k = plHarrow) ∧
    (∀ p, p < 18 → s.engRole p = roleFallow → s.underPass 3 p = false → ⟨3, p, true⟩ ∈ t.spares.passes ∧
      t.engRole p = roleHarrow) ∧
    (∀ n ∈ s.spares.phases, s.underPass 5 n = false → ⟨5, n, true⟩ ∈ t.spares.passes))

/-- R330, R333–R335. Roles: 0 BOOT, 1 STANDBY, 2 CLAIMING, 3 ACTIVE, 4 FENCED, 5 SOLO. No claim at the last epoch (assumption 73), the
engines cold after fencing (74) and the presence read at stateRestore (149) are the model's choices. -/
def Obligations.PairRoles : Prop :=
  (∀ (s : State) (r : Nat), r < 8 → (s.setRole r).role = r ∧
    ((s.setRole r).on R.SYS_PAIR_STATUS.BRIDGE = true ↔ r = 2 ∨ r = 3 ∨ r = 5)) ∧
  (∀ s : State, (s.role = 0 → s.paired = true → exec .bootLeaseTimeout s = .next s.claim) ∧
    (s.role ≠ 0 ∨ s.paired = false → exec .bootLeaseTimeout s = .next s) ∧
    (s.role = 1 → exec .leaseTimeout s = .next s.claim) ∧ (s.role ≠ 1 → exec .leaseTimeout s = .next s)) ∧
  (∀ s : State, let e := max s.epoch (max s.pair.leaseEpoch s.pair.ckptEpoch)
    (e < 0xFFFFFFFF → s.claim = (((((s.setRole 2).raise E.SYS_PAIR_EVT.TAKEOVER).record 0x0F01 2 0xFFFF [w32 (e + 1)]).newEpoch
      (e + 1)).claimLaunch)) ∧
    (0xFFFFFFFF ≤ e → s.claim = (s.record 0x0F03 3 0xFFFF [0]).enterStandby)) ∧
  (∀ (s : State) (e : Nat), e < 2 ^ 32 → (s.newEpoch e).epoch = e ∧ (s.newEpoch e).ledger.epoch = e ∧
    (s.newEpoch e).ledger.writeSeq = s.ledger.writeSeq + 1) ∧
  (∀ s : State, s.on R.STORM_CTRL.EN = false → s.claimLaunch = s.broadcast ⟨0x03, true, s.epoch, 0, euiAll, 0, 0, 0, 0, []⟩) ∧
  (∀ s : State, let may := s.role = 3 ∨ s.role = 2
    (may → s.on R.SYS_PAIR_STATUS.RING_VIEW = false → exec .leaseFence s = .next (s.fence 0)) ∧
    (¬may ∨ s.on R.SYS_PAIR_STATUS.RING_VIEW = true → exec .leaseFence s = .next s) ∧
    (∀ (e : BitVec 32) (c : Bool), s.pairLinkUp = false → s.ringView = false → exec (.epochFence e c) s = .next s) ∧
    (∀ e : BitVec 32, s.pairLinkUp = true ∨ s.ringView = true →
      (may → s.epoch < e.toNat → exec (.epochFence e false) s = .next (s.fence 1)) ∧
      (¬may ∨ e.toNat ≤ s.epoch → exec (.epochFence e false) s = .next s) ∧
      (s.role = 0 → s.paired = true → s.epoch ≤ e.toNat → exec (.epochFence e true) s = .next s.enterStandby))) ∧
  (∀ (s : State) (c : Nat), (s.fence c).role = 4 ∧ (s.fence c).flag E.SYS_PAIR_EVT.FENCED = true) ∧
  (∀ s : State, (s.role = 4 → exec .fenceEnd s = .next s.enginesCold.enterStandby.roleEvent) ∧
    (s.role ≠ 4 → exec .fenceEnd s = .next s) ∧
    s.enterStandby.role = 1 ∧ s.enterStandby.on R.SYS_PWR_STATUS.LIGHT_RUN = true ∧
    s.enginesCold.fe.lists = [] ∧ s.enginesCold.fe.intakeOpen = false) ∧
  (∀ s : State, (s.role = 2 → s.power.restored = true → exec .claimComplete s = .next s.claimComplete) ∧
    (s.role ≠ 2 ∨ s.power.restored = false → exec .claimComplete s = .next s) ∧
    s.claimComplete.role = 3 ∧ s.claimComplete.on R.SYS_PWR_STATUS.LIGHT_RUN = true) ∧
  (∀ s : State, s.paired = (s.on R.SYS_PAIR_CFG.EN && s.pair.fitted) ∧ s.stateRestore.pair.fitted = s.ident.partner ∧
    s.lightUp.on R.SYS_PWR_STATUS.LIGHT_RUN = true ∧ s.lightUp.role = s.role)

/-- R268, R331, R332, R336, R338, R345, R351, R560. The layout of CKPT data (assumption 147), the own checkpoint in SOLO (75), a part of
another settings format discarded (76) and ages in operating time with CKPT_STALE only in ACTIVE and STANDBY (77) are the model's
choices. -/
def Obligations.PairStreams : Prop :=
  (∀ s : State, s.fenceable = true → let n := (s.pair.leaseSeq + 1) % 2 ^ 32
    ∃ t, exec .leaseSend s = .next t ∧ t.pair.leaseSeq = n ∧ (n, s.opTotal) ∈ t.pair.leaseSent ∧
      t = ({ s with pair := t.pair } : State).pairLease 1 n) ∧
  (∀ s : State, (s.fenceable = true ↔ s.role = 3 ∨ s.role = 2) ∧ (s.fenceable = false → exec .leaseSend s = .next s)) ∧
  (∀ s : State, (s.role = 1 → exec .echoSend s = .next (s.pairLease 2 s.pair.leaseSeen)) ∧
    (s.role ≠ 1 → exec .echoSend s = .next s)) ∧
  (∀ (s : State) (type q : Nat) (data : List Byte), type < 256 → q < 2 ^ 32 →
    let f := s.pairFrame type q data
    let go := fun (u : State) (n : Nat) (g : Frame) => u.enqueue (256 + n / 32) g ⟨6, none, [n], [], false, [], false⟩ Mark.none
    f.dst = s.peerMac ∧ f.src = s.modMac ∧ f.etype = 0x88B5 ∧ f.tci = none ∧ f.body.length = 32 + data.length ∧
    f.body.drop 32 = data ∧ f.body.getD 0 0 = 0x80 ∧ (f.body.getD 1 0).toNat = type ∧
    leNat ((f.body.drop 8).take 4) = q ∧
    (s.pairPorts = [] → s.pairLease type q = s ∧ s.pairCkpt type q data = s) ∧
    (∀ n, s.pairPorts = [n] → s.pairLease type q = go s n (s.pairFrame type q [])) ∧
    (∀ n m, s.pairPorts = [n, m] →
      s.pairLease type q = go (go s n (s.pairFrame type q [])) m (s.pairFrame type q [])) ∧
    (∀ n l, s.pairPorts = n :: l → s.pairCkpt type q data = go s n f)) ∧
  (∀ (x : CkptPart), (ckptData x).flatten = Config.ckptBytes x ∧ (∀ b ∈ ckptData x, b.length ≤ 9166) ∧ ckptData x ≠ []) ∧
  (∀ (s : State) (x : CkptPart), s.pair.ckptSeq < 2 ^ 32 →
    (s.role = 3 → (s.ckptSend x).pair.ckptSeq = (s.pair.ckptSeq + (ckptData x).length) % 2 ^ 32) ∧ (s.role ≠ 3 → s.ckptSend x = s)) ∧
  (∀ (s : State) (e q : BitVec 32) (fmt : BitVec 16) (x : CkptPart) (w : Stamp), s.pairLinkUp = false →
    exec (.lease ⟨e, q⟩ w) s = .next s ∧ exec (.echo e q) s = .next s ∧ exec (.ckpt e q fmt x) s = .next s ∧
    exec (.ckptAck e q) s = .next s) ∧
  (∀ (s : State) (e q : BitVec 32) (w : Stamp), s.pairLinkUp = true → s.role = 1 →
    (s.epoch ≤ e.toNat → exec (.lease ⟨e, q⟩ w) s = .next { s with pair := { s.pair with
      leaseSeen := q.toNat, leaseEpoch := e.toNat,
      leaseAt := if stampUnits s.now < stampUnits w + 200000000 * 65536 then some s.opMs else s.pair.leaseAt } }) ∧
    (e.toNat < s.epoch → exec (.lease ⟨e, q⟩ w) s = .next s)) ∧
  (∀ (s : State) (e q : BitVec 32) (w : Stamp), (s.role = 5 → exec (.lease ⟨e, q⟩ w) s = .next s) ∧
    (s.pairLinkUp = true → s.fenceable = true → s.epoch < e.toNat → ∃ t, exec (.echo e q) s = .next t ∧ t.role = 4)) ∧
  (∀ (s : State) (e q : BitVec 32), s.pairLinkUp = true → s.fenceable = true → e.toNat ≤ s.epoch →
    ((∃ m, (q.toNat, m) ∈ s.pair.leaseSent ∧ s.opTotal < m + 125000000) → ∃ t, exec (.echo e q) s = .next t ∧
      t.pair.leaseAcked = some s.opMs ∧ t.pair.leaseAt = s.pair.leaseAt ∧ t.regs = s.regs) ∧
    ((∀ m, (q.toNat, m) ∈ s.pair.leaseSent → m + 125000000 ≤ s.opTotal) → exec (.echo e q) s = .next s)) ∧
  (∀ s : State, (s.role = 3 ∨ s.role = 5 →
      (s.power.step = 5 → exec .ckptDelta s = .next ((s.ckptSend s.deltaPart).ownTake s.deltaPart)) ∧
      (s.power.step ≠ 5 → exec .ckptDelta s = .next s) ∧
      exec .ckptSnapshot s = .next ((s.ckptSend s.snapshotPart).ownTake s.snapshotPart)) ∧
    (s.role ≠ 3 → s.role ≠ 5 → exec .ckptDelta s = .next s ∧ exec .ckptSnapshot s = .next s)) ∧
  (∀ (s : State) (x : CkptPart), (s.ownTake x).pair.dirty = [] ∧
    (s.flashStuck .checkpoint = false → (s.ownTake x).ledger.own.complete = true ∧
      (s.ownTake x).ledger.ownApplied = s.shf.applied.length) ∧
    (s.flashStuck .checkpoint = true → (s.ownTake x).ledger = s.ledger)) ∧
  (∀ (s : State) (e q : BitVec 32) (fmt : BitVec 16) (x : CkptPart), s.pairLinkUp = true → s.role = 1 →
    (fmt.toNat = s.runFmt → s.flashStuck x.region = false → ∃ t, exec (.ckpt e q fmt x) s = .next t ∧
      t.pair.ckptSeen = q.toNat ∧ t.pair.ckptEpoch = e.toNat ∧ t = ({ s with pair := t.pair } : State).pairCkpt 4 q.toNat []) ∧
    (fmt.toNat ≠ s.runFmt ∨ s.flashStuck x.region = true → exec (.ckpt e q fmt x) s = .next s)) ∧
  (∀ (s : State) (e q : BitVec 32), s.pairLinkUp = true → s.role = 3 → e.toNat ≤ s.epoch → ∃ t, exec (.ckptAck e q) s = .next t ∧
    (∀ n, n ∈ t.pair.deltaSent ↔ n ∈ s.pair.deltaSent ∧ q.toNat < n) ∧ t.regs = s.regs ∧
    ((∃ n ∈ s.pair.deltaSent, n ≤ q.toNat) → t.pair.ckptAcked = some s.opMs) ∧
    ((∀ n ∈ s.pair.deltaSent, q.toNat < n) → t.pair.ckptAcked = s.pair.ckptAcked)) ∧
  (∀ s : State, (s.role = 1 ∨ s.role = 0 → s.leaseSince = s.pair.leaseAt ∧ s.ckptSince = s.pair.ckptAt) ∧
    (s.role ≠ 1 → s.role ≠ 0 → s.leaseSince = s.pair.leaseAcked ∧ s.ckptSince = s.pair.ckptAcked)) ∧
  (∀ s : State, (s.role = 3 ∨ s.role = 1 → exec .ckptStale s = .next (s.raise E.SYS_PAIR_EVT.CKPT_STALE)) ∧
    (s.role ≠ 3 → s.role ≠ 1 → exec .ckptStale s = .next s)) ∧
  (∀ (s : State) (i : Fin 131072), (s.role = 3 ∨ s.role = 5 → s.epValid i = true → s.engRuns (s.ep i EP.ENG) = true →
      exec (.beaconSend i) s = .next (s.beacon i)) ∧
    (s.role ≠ 3 → s.role ≠ 5 → exec (.beaconSend i) s = .next s)) ∧
  (∀ (s : State) (i : Nat), s.ep i EP.PATH = 0 → s.beacon i =
    (let k := getBits (w32 (s.ep i EP.ADDR)) 16 7
     s.ringSend k (s.poleMac k (getBits (w32 (s.ep i EP.ADDR)) 8 4))
       ⟨0x03, true, s.epoch, 0, s.epEui i, 0, 0, 0, s.ep i EP.GEN, []⟩ false))

/-! ## Power, resets, the backup cell and metering (chapters 11 and 13) -/

/-- R351–R366, R380, R394. How SOC rounds with an inexact share is the model's reading (assumption 35), as are the two parts of
CELL_INSERTED and the line between the points of the rest curve (151), and PRESENT shown with the supply (86). No rule gives the code
of a warning's source, a free value of Config (150). -/
def Obligations.SupplyAndCell : Prop :=
  (∀ (s : State) (a b : Bool), (s.power.step ≠ 0 → (a = true ∨ b = true) → ∃ t, exec (.supplyWarning a b) s = .next t ∧
      t.power.step = 0 ∧ t.power.inputOk = false ∧ t.on R.PWR_IN_STATUS.VALID = false ∧ t.on R.PWR_IN_STATUS.PFW = a) ∧
    (s.power.step = 0 → exec (.supplyWarning a false) s = .next s ∧ ∃ t, exec (.supplyWarning a true) s = .next t ∧
      t.power.step = 0 ∧ t.power.inputOk = false ∧ t.on R.PWR_IN_STATUS.VALID = false ∧
      (s.power.absent = true → t.key.slots = [])) ∧
    exec (.supplyWarning false false) s = .next s) ∧
  (∀ s : State, (s.power.step ≠ 0 → exec .rstCmdControl s = .next (s.controlReset 3) ∧
      exec .rstCmdFull s = .next (s.fullReset 4) ∧
      ∀ b, ∃ t, exec (.rstCmdShutdown b) s = .next t ∧ t.power.step = 0 ∧ t.power.shutHeld = true) ∧
    (s.power.step = 0 → exec .rstCmdControl s = .next s ∧ exec .rstCmdFull s = .next s ∧
      ∀ b, exec (.rstCmdShutdown b) s = .next s)) ∧
  (∀ (s : State) (i : Instr) (a b c : Bool), s.power.step ≠ 0 →
    ((∃ x y, i = .supplyWarning x y ∧ (x = true ∨ y = true) ∧ a = x ∧ b = y ∧ c = s.ledger.shutdown) ∨
      (∃ x, i = .rstCmdShutdown x ∧ a = s.ledger.pfw ∧ b = s.ledger.inLow ∧ c = true)) →
    ∃ t n, exec i s = .next t ∧ t.ledger.powerFail = some [Config.warnSource a b c, w32 n] ∧ t.ledger.writes = [] ∧
      t.ledger.pfw = a ∧ t.ledger.inLow = b ∧ t.ledger.shutdown = c ∧
      (s.rcd.isOpen = true → t.ledger.opMs = s.opMs) ∧
      (s.rcd.isOpen = true → s.mtr.loaded = true → t.ledger.totals = s.totalsNow)) ∧
  (∀ (s : State) (c : Nat), c < 8 → let t := s.controlReset c
    t.power.step = min s.power.step 2 ∧ t.on R.SYS_PWR_STATUS.CTRL_UP = false ∧ (t.r R.SYS_RST_CAUSE.reg).getLsbD c = true ∧
    t.bus.sram = [] ∧ t.bus.sdram = [] ∧ t.key.nonce = false) ∧
  (∀ (s : State) (c : Nat), let t := s.fullReset c
    t.power.step = 1 ∧ t.r R.SYS_RST_CAUSE.reg = w32 c ∧ t.fmem = State.reset.fmem ∧ t.time = State.reset.time ∧
    t.hnd = State.reset.hnd ∧ t.rtc = { s.rtc with secAt := s.rtc.secAt - (s.opTotal : Int) } ∧ t.rcd.log = s.rcd.log ∧ t.pending = s.pending ∧
    t.f R.PWR_GAUGE.CHARGE = s.f R.PWR_GAUGE.CHARGE) ∧
  (∀ s : State, exec (.wdogKick 0x0000A5C3) s = .next { s with power := { s.power with kickTicks := s.power.opTicks } } ∧
    (∀ v, v ≠ 0x0000A5C3 → exec (.wdogKick v) s = .next s) ∧
    exec .wdogWindowEnd s = .next (s.setF R.SYS_WDOG_CNT.COUNT 0)) ∧
  (∀ s : State, let n := s.f R.SYS_WDOG_CNT.COUNT + 1
    (2 ≤ s.power.step → s.on R.SYS_WDOG_CFG.EN = true → s.svc.act ≠ 3 →
      (n < 3 → exec .wdogExpire s =
        .next (((s.record 0x0102 2 0xFFFF [w32 n]).controlReset 5).setF R.SYS_WDOG_CNT.COUNT n)) ∧
      (3 ≤ n → exec .wdogExpire s = .next ((s.fullReset 0x10).record 0x0102 2 0xFFFF [w32 n]))) ∧
    (s.on R.SYS_WDOG_CFG.EN = false → exec .wdogExpire s = .next s)) ∧
  (∀ s : State, (s.power.absent = true → exec .cellRemoved s = .next s) ∧
    (s.power.absent = false → s.power.inputOk = true → ∃ t, exec .cellRemoved s = .next t ∧ t.power.absent = true ∧
      t.power.removed = true ∧ t.flag E.PWR_EVT.CELL_REMOVED = true ∧ t.on R.PWR_CELL_STATUS.PRESENT = false ∧
      t.on R.PWR_CELL_STATUS.CHARGING = false ∧ t.key = s.key) ∧
    (s.power.absent = false → s.power.inputOk = false → ∃ t, exec .cellRemoved s = .next t ∧ t.power.absent = true ∧
      t.power.removed = s.power.removed ∧ (s.power.mainUp = true → t.key = s.key ∧ t.rtc = s.rtc) ∧
      (s.power.mainUp = false → t.key.slots = [] ∧ t.key.root = none)) ∧
    (s.power.mainUp = false → ∃ t, exec .cellDisconnect s = .next t ∧ t.key.slots = [] ∧ t.key.root = none ∧
      t.on R.RTC_STATUS.VALID = false) ∧
    (s.power.mainUp = true → exec .cellDisconnect s = .next s) ∧
    (s.power.absent = true → ∃ t, exec .cellInserted s = .next t ∧ t.power.absent = false ∧
      t.power.removed = s.power.removed ∧ (t.on R.PWR_CELL_STATUS.PRESENT = true ↔ 2 ≤ s.power.step)) ∧
    (s.power.removed = true → s.power.absent = false → s.power.inputOk = true → ∃ t, exec .cellInserted s = .next t ∧
      t.power.removed = false ∧ t.flag E.PWR_EVT.CELL_INSERTED = true) ∧
    (s.power.absent = false → s.power.removed = false ∨ s.power.inputOk = false → exec .cellInserted s = .next s)) ∧
  (∀ s : State, (s.chargeable = true → s.on R.PWR_CELL_STATUS.CHARGING = false → s.f R.PWR_GAUGE.SOC < 90 → ∃ t,
      exec .chargeStart s = .next t ∧ t.on R.PWR_CELL_STATUS.CHARGING = true ∧ t.on R.PWR_CELL_STATUS.AT_REST = false) ∧
    (s.chargeable = false ∨ 90 ≤ s.f R.PWR_GAUGE.SOC → exec .chargeStart s = .next s) ∧
    (s.on R.PWR_CELL_STATUS.CHARGING = true → s.on R.PWR_CELL_STATUS.TEMP_HOLD = false →
      exec .chargeCv s = .next (s.setF R.PWR_CELL_STATUS.CV 1) ∧ ∃ t, exec .chgTemp s = .next t ∧
      t.on R.PWR_CELL_STATUS.TEMP_HOLD = true ∧ t.flag E.PWR_EVT.CHG_TEMP = true) ∧
    exec .chgTempResume s = .next (s.setF R.PWR_CELL_STATUS.TEMP_HOLD 0) ∧
    (s.on R.PWR_CELL_STATUS.CHARGING = true → s.on R.PWR_CELL_STATUS.CV = true → s.on R.PWR_CELL_STATUS.TEMP_HOLD = false →
      ∃ t, exec .chargeEnd s = .next t ∧ t.on R.PWR_CELL_STATUS.CHARGING = false ∧
        t.f R.PWR_GAUGE.CHARGE = s.f R.PWR_GAUGE_CAP.CAP) ∧
    (s.on R.PWR_CELL_STATUS.TEMP_HOLD = true → exec .chargeEnd s = .next s ∧ exec .chargeCv s = .next s)) ∧
  (∀ s : State, s.on R.PWR_CELL_STATUS.CHARGING = false →
    (∃ t, exec .cellEmpty s = .next t ∧ t.on R.PWR_CELL_STATUS.EMPTY = true ∧
      t.f R.PWR_GAUGE.CHARGE = 0 ∧ t.flag E.PWR_EVT.CELL_EMPTY = true ∧
      (s.f R.PWR_GAUGE.CHARGE ≠ 0 → t.flag E.PWR_EVT.GAUGE_RESYNC = true)) ∧
    exec .cellEmptyClear s = .next (s.setF R.PWR_CELL_STATUS.EMPTY 0) ∧
    ∀ mv : BitVec 16, ∃ t, exec (.cellAtRest mv) s = .next t ∧ t.on R.PWR_CELL_STATUS.AT_REST = true ∧
      (s.f R.PWR_GAUGE.CHARGE ≠ 0 → t.f R.PWR_GAUGE.CHARGE = s.f R.PWR_GAUGE.CHARGE) ∧
      (s.f R.PWR_GAUGE.CHARGE = 0 → restSoc mv.toNat * s.f R.PWR_GAUGE_CAP.CAP % 100 = 0 →
        t.f R.PWR_GAUGE.CHARGE = restSoc mv.toNat * s.f R.PWR_GAUGE_CAP.CAP / 100)) ∧
  (∀ (s : State) (c : BitVec 24), s.reaches R.PWR_GAUGE_CAP.reg.blk R.PWR_GAUGE_CAP.reg.off true = true → c ≠ 0 → ∃ t,
    exec (.gaugeCapWrite c) s = .next t ∧ t.f R.PWR_GAUGE_CAP.CAP = c.toNat ∧
    t.f R.PWR_GAUGE.CHARGE = min (s.f R.PWR_GAUGE.CHARGE) c.toNat ∧
    t.f R.PWR_GAUGE.SOC = 100 * min (s.f R.PWR_GAUGE.CHARGE) c.toNat / c.toNat) ∧
  (∀ (s : State) (a b : Bool) (x : BitVec 16),
    exec (.presenceChange a b) s = .next { s with ident := { s.ident with slotB := a, partner := b } } ∧
    exec (.baseTemp x) s = .next (s.record 0x0106 (if 15360 < x.toInt then 2 else 0) 0xFFFF [x.signExtend 32]))

/-- R402, R403, R406–R413, R416, R418. -/
def Obligations.Metering : Prop :=
  (∀ (s : State) (x : List (BitVec 24)), (s.mtrOn = false → exec (.meterSample x) s = .next s) ∧
    (s.mtrOn = true → ∃ t, exec (.meterSample x) s = .next t ∧
      t.mtr.hist.getLast? = some (s.now, x.map (fun y => toSigned 24 y.toNat)) ∧ t.mtr.len0 = s.mtr.len0 + 1 ∧
      t.mtr.len1 = s.mtr.len1 + 1)) ∧
  (∀ s : State, s.mtrOn = (s.on R.MTR_CFG.EN && s.power.inputOk && s.mtr.loaded)) ∧
  (∀ (s : State) (b : Fin 2), (s.windowDue b = false ∨ s.winLen b = 0 → exec (.meterWindowEnd b) s = .next s) ∧
    (s.windowDue b = true → s.winLen b ≠ 0 → ∃ t, exec (.meterWindowEnd b) s = .next t ∧ t.winLen b = 0 ∧
      t.winLen (1 - b.val) = s.winLen (1 - b.val) ∧ t.mtr.hist = s.mtr.hist ∧
      t.f R.MTR_WIN_SEQ.SEQ0 = (if b.val = 0 then (s.f R.MTR_WIN_SEQ.SEQ0 + 1) % 65536 else s.f R.MTR_WIN_SEQ.SEQ0) ∧
      t.f R.MTR_WIN_SEQ.SEQ1 = (if b.val = 1 then (s.f R.MTR_WIN_SEQ.SEQ1 + 1) % 65536 else s.f R.MTR_WIN_SEQ.SEQ1))) ∧
  (∀ (s : State) (a n : Nat), let d := 28800000 * mtrK ^ 2
    let x := sget restDefault s.mtr.rest a + n
    sget restDefault (s.addEnergy a n).mtr.rest a = x % d ∧
    (s.addEnergy a n).pairR ⟨.mtr, a⟩ ⟨.mtr, a + 4⟩ =
      min (2 ^ 64 - 1) (s.pairR ⟨.mtr, a⟩ ⟨.mtr, a + 4⟩ + x / d)) ∧
  (∀ (s : State) (v : Fin 6), let due := (s.zc v).last + s.zcTmo ≤ stampUnits s.now
    (s.mtrOn = true → s.noMains v = false → due → ∃ t, exec (.noMains v) s = .next t ∧ t.noMains v = true ∧
      t.flag E.MTR_EVT.NO_MAINS = true ∧ (t.zc v).good = 0) ∧
    (s.mtrOn = false ∨ s.noMains v = true ∨ ¬due → exec (.noMains v) s = .next s)) ∧
  (∀ (s : State) (b : Fin 2), let now := (s.f R.MTR_STATUS.COLLAPSE_NOW).testBit b
    (s.mtrOn = true → s.busLow b = true → now = false → exec (.collapse b) s = .next
      (((s.setFBit R.MTR_STATUS.COLLAPSE_NOW b true).raise E.MTR_EVT.COLLAPSE).record 0x0904 2 b [0]).totalsSave) ∧
    (s.mtrOn = false ∨ s.busLow b = false ∨ now = true → exec (.collapse b) s = .next s)) ∧
  (∀ (s : State) (c : Fin 54), (s.trans c = none → exec (.surge c) s = .next s) ∧ ∀ x, s.trans c = some x →
    (x.below < 8 → exec (.surge c) s = .next s) ∧
    (8 ≤ x.below → ∃ t, exec (.surge c) s = .next t ∧ t.trans c = none ∧ t.flag E.MTR_EVT.SURGE = true)) ∧
  (∀ s : State, exec .totalsSave s = .next s.totalsSave ∧ (s.mtr.loaded = false → s.totalsSave = s) ∧
    (s.mtr.loaded = true → s.totalsSave.ledger.totals = s.regs.mtr.filter (fun e => isTotal e.1) ∧
      (s.ledger.saving = false → s.totalsSave.mtr.saved = some s.opMs ∧ s.totalsSave.flag E.MTR_EVT.SAVED = true ∧
        s.totalsSave.ledger.writeSeq = s.ledger.writeSeq + 1 ∧ s.totalsSave.ledger.saving = true) ∧
      (s.ledger.saving = true → s.totalsSave.ledger.writeSeq = s.ledger.writeSeq ∧ s.totalsSave.regs = s.regs))) ∧
  (∀ s : State, s.reaches R.MTR_CMD.reg.blk R.MTR_CMD.reg.off true = true → exec .saveNow s = .next s.totalsSave ∧
    (s.lcState = lcService → ∃ t, exec .clear s = .next t ∧ t.mtr.rest = [] ∧ t.flag E.MTR_EVT.SAVED = true) ∧
    (s.lcState ≠ lcService → exec .clear s = .next (s.raise E.MTR_EVT.REFUSED))) ∧
  (∀ s : State, s.reaches R.MTR_CAP_CMD.reg.blk R.MTR_CAP_CMD.reg.off true = true →
    (s.mtr.cap.isSome = true → exec .arm s = .next s ∧ exec .armSurge s = .next s ∧ exec .abort s = .next (s.capEnd 5)) ∧
    (s.mtr.cap = none →
      let a := s.stampR R.MTR_CAP_START.reg
      let b := s.stampR R.MTR_CAP_STOP.reg
      exec .abort s = .next s ∧
      (∃ t, exec .armSurge s = .next t ∧ t.f R.MTR_CAP_STATUS.STATE = 1 ∧ (∃ c, t.mtr.cap = some c ∧ c.surge = true)) ∧
      (stampUnits b < stampUnits a → exec .arm s = .next (s.setF R.MTR_CAP_STATUS.RESULT 1)) ∧
      (stampUnits a ≤ stampUnits b → s.nextSample < stampUnits b → ∃ t, exec .arm s = .next t ∧
        t.f R.MTR_CAP_STATUS.STATE = 1 ∧ ∃ c, t.mtr.cap = some c ∧ c.start = a ∧ c.stop = b ∧ c.surge = false))) ∧
  (∀ (s : State) (c : Cap) (r : Nat), s.mtr.cap = some c → r < 32 → let t := s.capEnd r
    t.f R.MTR_CAP_STATUS.STATE = 3 ∧ t.f R.MTR_CAP_STATUS.RESULT = r ∧ t.mtr.cap = none ∧ t.flag E.MTR_EVT.CAP_DONE = true) ∧
  (∀ (s : State) (c : Cap), s.mtr.cap = some c →
    (s.f R.MTR_CAP_STATUS.STATE = 1 → c.surge = false → s.reached c.start = true →
      exec .captureStart s = .next (if c.zeroLen = true then s.capEnd 2 else s.setF R.MTR_CAP_STATUS.STATE 2)) ∧
    (s.reached c.start = false → exec .captureStart s = .next s) ∧
    (c.step ≠ s.stepEpoch → exec .captureStop s = .next (s.capEnd 4)) ∧
    (c.step = s.stepEpoch → c.full = true → exec .captureStop s = .next (s.capEnd 3)) ∧
    (c.step = s.stepEpoch → c.full = false → s.f R.MTR_CAP_STATUS.STATE = 2 → s.reached c.stop = true →
      exec .captureStop s = .next (s.capEnd 0))) ∧
  (∀ s : State, s.mtr.cap = none → exec .captureStart s = .next s ∧ exec .captureStop s = .next s) ∧
  (∀ s : State, let start := s.slotStart (1440 * (s.periodNow - 1))
    (s.periodNow ≤ s.mtr.period → exec .estimatePeriodEnd s = .next s) ∧
    (s.mtr.period < s.periodNow → ∃ t, exec .estimatePeriodEnd s = .next t ∧ t.mtr.dims = [] ∧ t.mtr.missing = [] ∧
      t.mtr.period = s.periodNow ∧ (s.estRuns start = true → t.on R.MTR_EST_STATUS.BUSY = true) ∧
      (s.estRuns start = false → t.regs = s.regs)) ∧
    (s.estRuns start = true ↔ s.on R.MTR_EST_CFG.EN = true ∧ (s.role = 3 ∨ s.role = 5) ∧
      (s.mtr.took = false ∨ ∀ x, s.mtr.since = some x → x ≤ start))) ∧
  (∀ s : State, (s.on R.MTR_EST_STATUS.BUSY = false → exec .estDone s = .next s) ∧
    (s.on R.MTR_EST_STATUS.BUSY = true → ∃ t, exec .estDone s = .next t ∧ t.on R.MTR_EST_STATUS.BUSY = false))

/-! ## The sub-gigahertz radio (chapter 14) -/

/-- R310, R425–R440. `radSend`, `radCopy`, `radCopyEnd` and `radDeliver` are the transmitter's and receiver's own steps. A maximum of at
least 1 for BO_MAX (assumption 64), RX_FRAMES counting frames that fail verification (62), `radPhaseSeen` (63), frames for others
left alone (166) and how an urgent slot takes the transmitter (`Rad.yield`, 196) are the model's choices. -/
def Obligations.ScatterMac : Prop :=
  (∀ (s : State) (j : Fin 4) (mean : BitVec 16) (b : Nat) (x : RadTx), (s.radAt j).phase = .lbt b → (s.radAt j).cur = some x →
    let thr := toSigned 16 (s.f (R.RAD_LBT.THR j))
    let cross := 3 * ((s.hopSlot + 1) * 400 * unitsMs) < 3 * stampUnits s.now + s.txAir j x * unitsUs
    (mean.toInt < thr → s.radHops j = true → cross → ∃ t, exec (.lbtMeasureEnd j mean) s = .next t ∧ (t.radAt j).phase = .hop ∧
      (t.radAt j).cur = some x) ∧
    (mean.toInt < thr → (s.radHops j = false ∨ ¬cross) → s.radAble j = true → exec (.lbtMeasureEnd j mean) s = .next (s.radSend j x)) ∧
    (thr ≤ mean.toInt → b < max 1 (s.f (R.RAD_MAC.BO_MAX j)) → ∃ t, exec (.lbtMeasureEnd j mean) s = .next t ∧
      (t.radAt j).phase = .backoff (b + 1) ∧ (t.radAt j).cur = some x) ∧
    (thr ≤ mean.toInt → max 1 (s.f (R.RAD_MAC.BO_MAX j)) ≤ b →
      exec (.lbtMeasureEnd j mean) s = .next ((s.raise (E.RAD_EVT.LBT_FAIL j)).radCopyEnd j x))) ∧
  (∀ (s : State) (j : Fin 4), (∀ b, (s.radAt j).phase = .backoff b → ∃ t, exec (.lbtBackoffEnd j) s = .next t ∧
      (t.radAt j).phase = .lbt b ∧ (t.radAt j).cur = (s.radAt j).cur) ∧
    ((∀ b, (s.radAt j).phase ≠ .backoff b) → exec (.lbtBackoffEnd j) s = .next s) ∧
    ((∀ b, (s.radAt j).phase ≠ .lbt b) → ∀ m, exec (.lbtMeasureEnd j m) s = .next s) ∧
    ((s.radAt j).phase ≠ .tx → exec (.radioTxEnd j) s = .next s) ∧
    ((s.radAt j).phase ≠ .gap → ((s.radAt j).gapped = none → exec (.repGapExpire j) s = .next s) ∧
      (∀ y, (s.radAt j).gapped = some y → exec (.repGapExpire j) s =
        .next (s.setRad j { s.radAt j with gapped := none, queue := y :: (s.radAt j).queue }))) ∧
    ((s.radAt j).phase ≠ .duty → exec (.dutyWaitEnd j) s = .next s ∧
      (heldFirst (s.radAt j).urgent = none → heldFirst (s.radAt j).queue = none → exec (.dutyDrop j) s = .next s) ∧
      (∀ u l a, (s.radAt j).urgent = u :: l → u.held = some a → (∀ c, heldFirst (s.radAt j).queue = some c → a < c) →
        exec (.dutyDrop j) s = .next (s.urgentDrop j u l)) ∧
      (∀ u l c, (s.radAt j).queue = u :: l → u.held = some c → (∀ a, heldFirst (s.radAt j).urgent = some a → c ≤ a) →
        exec (.dutyDrop j) s = .next (s.queueDrop j u l)))) ∧
  (∀ (s : State) (j : Fin 4) (x : RadTx), (s.radAt j).cur = some x →
    ((s.radAt j).phase = .tx → exec (.radioTxEnd j) s = .next (s.radCopyEnd j x)) ∧
    ((s.radAt j).phase = .gap → exec (.repGapExpire j) s = .next (s.radCopy j x)) ∧
    ((s.radAt j).phase = .duty → let w := x.held.getD 0
      (s.radEarly x = true → exec (.dutyWaitEnd j) s = .next (s.radFree j)) ∧
      (s.radEarly x = false → s.radFits j (s.txAir j x) x.fault = true → exec (.dutyWaitEnd j) s = .next (s.radCopy j x)) ∧
      (s.radEarly x = false → s.radFits j (s.txAir j x) x.fault = false → exec (.dutyWaitEnd j) s = .next s) ∧
      ((∀ a, heldFirst (s.radAt j).urgent = some a → w ≤ a) → (∀ c, heldFirst (s.radAt j).queue = some c → w ≤ c) →
        exec (.dutyDrop j) s = .next ((s.copyDrop j x).radCopyEnd j { x with held := none })) ∧
      (∀ u l a, (s.radAt j).urgent = u :: l → u.held = some a → a < w →
        (∀ c, heldFirst (s.radAt j).queue = some c → a < c) → exec (.dutyDrop j) s = .next (s.urgentDrop j u l)) ∧
      (∀ u l c, (s.radAt j).queue = u :: l → u.held = some c → c < w →
        (∀ a, heldFirst (s.radAt j).urgent = some a → c ≤ a) → exec (.dutyDrop j) s = .next (s.queueDrop j u l)))) ∧
  (∀ (s : State) (j : Nat) (x : RadTx) (l : List RadTx),
    (x.sent + 1 < x.copies → s.copyDrop j x = s.raise (E.RAD_EVT.DUTY_DROP j) ∧
      lessCopy x l = { x with sent := x.sent + 1, held := none } :: l) ∧
    (x.copies ≤ x.sent + 1 → s.copyDrop j x = (s.raise (E.RAD_EVT.DUTY_DROP j)).radDrop x ∧ lessCopy x l = l) ∧
    ((s.urgentDrop j x l).radAt j).urgent = lessCopy x l ∧ ((s.queueDrop j x l).radAt j).queue = lessCopy x l) ∧
  (∀ (s : State) (j : Nat) (x : RadTx), x.sent + 1 < x.copies → ((s.radCopyEnd j x).radAt j).phase = .gap ∧
    ((s.radCopyEnd j x).radAt j).cur = some { x with sent := x.sent + 1 }) ∧
  (∀ (s : State) (j : Nat) (x : RadTx), x.copies ≤ x.sent + 1 → s.radCopyEnd j x = s.radFree j) ∧
  (∀ (s : State) (j : Nat), let t := (s.radFree j).radAt j
    (∀ y, (s.radAt j).gapped = some y → t.phase = .gap ∧ t.cur = some y ∧ t.gapped = none) ∧
    ((s.radAt j).gapped = none → (s.radAt j).queue = [] → t.phase = .idle ∧ t.cur = none)) ∧
  (∀ (s : State) (j : Fin 4) (x : RadTx),
    (s.radFits j (s.txAir j x) x.fault = false → ((s.radCopy j x).radAt j).phase = .duty ∧
      ((s.radCopy j x).radAt j).cur = some (x.wait s.opTotal) ∧ (s.radCopy j x).on (R.RAD_STATUS.DUTY_HOLD j) = true ∧
      (s.radCopy j x).flag (E.RAD_EVT.DUTY_WAIT j) = (x.held.isNone || s.flag (E.RAD_EVT.DUTY_WAIT j))) ∧
    (s.radFits j (s.txAir j x) x.fault = true → x.cal = none → x.seq.isSome = true →
      ((s.radCopy j x).radAt j).phase = .lbt 0 ∧ ((s.radCopy j x).radAt j).cur = some { x with held := none }) ∧
    (∀ t : Nat, (x.wait t).held = some (x.held.getD t))) ∧
  (∀ (s : State) (j : Fin 4) (x : RadTx) (k : List Byte), s.radKey j = some k → ((s.radSend j x).radAt j).phase = .tx ∧
    (s.radSend j x).out.length = s.out.length + 1) ∧
  (∀ (s : State) (j : Fin 4), (s.radHops j = false → exec (.hopSlot j) s = .next s) ∧
    (s.radHops j = true → (s.radAt j).phase = .hop → ∃ t, exec (.hopSlot j) s = .next t ∧ (t.radAt j).phase = .lbt 0 ∧
      (t.radAt j).cur = (s.radAt j).cur)) ∧
  (∀ (s : State) (j : Fin 4), let r := s.radAt j
    (r.urgent = [] → exec (.urgentSlot j) s = .next s) ∧ (∀ x l, r.urgent = x :: l →
      (s.radAble j = false → exec (.urgentSlot j) s = .next ((s.setRad j { r with urgent := l }).radDrop x)) ∧
      (s.radAble j = true → s.radEarly x = true → exec (.urgentSlot j) s = .next ((s.setRad j { r with urgent := l }).radShow j)) ∧
      (s.radAble j = true → s.radEarly x = false →
        (r.phase = .tx → exec (.urgentSlot j) s = .next s) ∧
        (r.phase = .idle → r.cur = none → s.radFits j (s.txAir j x) true = true →
          exec (.urgentSlot j) s = .next ((s.setRad j { r with urgent := l }).radCopy j x)) ∧
        (r.phase ≠ .tx → s.radFits j (s.txAir j x) true = true → exec (.urgentSlot j) s =
          .next ((s.setRad j (Rad.yield { r with urgent := l })).radCopy j x)) ∧
        (r.phase ≠ .tx → s.radFits j (s.txAir j x) true = false → ∃ t, exec (.urgentSlot j) s = .next t ∧
          (t.radAt j).urgent = x.wait s.opTotal :: l ∧ (t.radAt j).cur = r.cur ∧ t.on (R.RAD_STATUS.DUTY_HOLD j) = true ∧
          t.flag (E.RAD_EVT.DUTY_WAIT j) = (x.held.isNone || s.flag (E.RAD_EVT.DUTY_WAIT j))))) ∧
    (s.radAble j = false → exec (.scatterBeacon j) s = .next s) ∧
    (let b : RadTx := ⟨none, 0xFFFF, 1, 0, none, true, false, none, none⟩
     s.radAble j = true → exec (.scatterBeacon j) s = .next
        ((s.setRad j { r with urgent := r.urgent.filter (·.isHold) ++ [b] ++ r.urgent.filter (!·.isHold) }).urgentSlot j) ∧
      (r.phase = .tx → r.urgent.filter (·.isHold) = [] →
        exec (.scatterBeacon j) s = .next (s.setRad j { r with urgent := b :: r.urgent })))) ∧
  (∀ (r : Rad) (c : RadTx), r.cur = some c →
    (r.phase = .gap → r.gapped = none → r.yield = { r with cur := none, phase := .idle, gapped := some c }) ∧
    (r.phase ≠ .gap ∨ r.gapped.isSome = true → r.yield = { r with cur := none, phase := .idle, queue := c :: r.queue })) ∧
  (∀ (s : State) (j : Fin 4) (q : BitVec 16) (d : List Byte), (s.radOn j = false ∨ (s.radAt j).phase = .tx) →
    exec (.scatterEvent j q d) s = .next s ∧ exec (.scatterReply j q d) s = .next s ∧ exec (.scatterWake j q d) s = .next s ∧
    exec (.scatterJoin j q d) s = .next s) ∧
  (∀ (s : State) (j : Fin 4) (q : BitVec 16) (d : List Byte) (type : Nat), s.radOn j = true → (s.radAt j).phase ≠ .tx →
    (d.getD 0 0).toNat / 16 = type → (d.getD 0 0).getLsbD 3 = false →
    (radMine d = false → exec (.scatterEvent j q d) s = .next s ∧ exec (.scatterReply j q d) s = .next s ∧
      exec (.scatterWake j q d) s = .next s ∧ exec (.scatterJoin j q d) s = .next s) ∧
    (radMine d = true →
    let run := if type = 2 then exec (.scatterEvent j q d) s else if type = 3 then exec (.scatterReply j q d) s
      else if type = 4 then exec (.scatterWake j q d) s else exec (.scatterJoin j q d) s
    let v := s.count (R.RAD_CNT_RX_FRAMES.COUNT j)
    let addr := leNat ((d.drop 4).take 2)
    type = 2 ∨ type = 3 ∨ type = 4 ∨ type = 6 →
    (s.radKey j = none → run = .next (v.raise (E.RAD_EVT.MIC_FAIL j))) ∧
    ((s.radKey j).isSome = true → v.radRecord j addr = none → run = .next (v.raise (E.RAD_EVT.UNKNOWN_SRC j))) ∧
    (∀ i, (s.radKey j).isSome = true → v.radRecord j addr = some i →
      (v.radOpen j (v.epEui i) (d.take 14) (d.drop 14) = none → (∀ g ∈ v.pair.ghosts, g.slot ≠ i) →
        run = .next (v.raise (E.RAD_EVT.MIC_FAIL j))) ∧
      (∀ p, v.radOpen j (v.epEui i) (d.take 14) (d.drop 14) = some p →
        let u := (v.setF (R.RAD_RSSI.LAST j) q.toNat).radPhaseSeen j i (d.take 14)
        let n := leNat ((d.drop 6).take 4)
        (windowStep (u.radNode j i).window n = .dup → run = .next (u.count (R.RAD_CNT_RX_DUP.COUNT j))) ∧
        (windowStep (u.radNode j i).window n = .replay → run = .next (u.raise (E.RAD_EVT.REPLAY j))) ∧
        (∀ w, windowStep (u.radNode j i).window n = .accept w →
          let x := u.setRadNode j i { u.radNode j i with window := some w }
          (s.lightRole = true → run = .next (x.radDeliver j type (v.epEui i) (some i) (d.take 14) p)) ∧
          (s.lightRole = false → run = .next x))) ∧
      (∀ g, v.radOpen j (v.epEui i) (d.take 14) (d.drop 14) = none → ((v.pair.ghosts.filter (fun g => g.slot == i)).take 4).find?
          (fun g => (v.radOpen j g.eui (d.take 14) (d.drop 14)).isSome) = some g →
        run = .next ((v.setF (R.RAD_RSSI.LAST j) q.toNat).radGhost j type (d.take 14) g.eui))))) ∧
  (∀ (s : State) (j : Fin 4) (q : BitVec 16) (d : List Byte) (type : Nat), s.radOn j = true → (s.radAt j).phase ≠ .tx →
    (d.getD 0 0).toNat / 16 = type → (d.getD 0 0).getLsbD 3 = true → radMine d = true → (s.radKey j).isSome = true →
    type = 2 ∨ type = 3 ∨ type = 4 ∨ type = 6 →
    let run := if type = 2 then exec (.scatterEvent j q d) s else if type = 3 then exec (.scatterReply j q d) s
      else if type = 4 then exec (.scatterWake j q d) s else exec (.scatterJoin j q d) s
    let v := s.count (R.RAD_CNT_RX_FRAMES.COUNT j)
    let eui : Eui := BitVec.ofNat 64 (leNat ((d.drop 14).take 8))
    v.validEps.find? (fun i => v.ep i EP.PATH == 1 && v.epEui i = eui) = none →
    (v.radOpen j eui (d.take 22) (d.drop 22) = none → run = .next (v.raise (E.RAD_EVT.MIC_FAIL j))) ∧
    (∀ p, v.radOpen j eui (d.take 22) (d.drop 22) = some p → s.lightRole = true →
      run = .next ((v.setF (R.RAD_RSSI.LAST j) q.toNat).radDeliver j type eui none (d.take 22) p))) ∧
  (∀ d : List Byte, radMine d = true ↔ (d.getD 0 0).toNat % 4 = 1 ∧ (leNat ((d.drop 2).take 2) = 0 ∨
    leNat ((d.drop 2).take 2) = 0xFFFF)) ∧
  (∀ n m : Nat, n < 2 ^ 32 → windowStep none n = .accept (n, 1) ∧ (m % 2 = 1 → windowStep (some (n, m)) n = .dup) ∧
    (∀ k, 32 ≤ k → k < 2 ^ 31 → windowStep (some (n, m)) ((n + (2 ^ 32 - k)) % 2 ^ 32) = .replay) ∧
    (∀ k, 32 ≤ k → k < 2 ^ 31 → windowStep (some (n, m)) ((n + k) % 2 ^ 32) = .accept ((n + k) % 2 ^ 32, 1))) ∧
  (∀ (s : State) (j : Fin 4) (a b : BitVec 16), let m := max 6 (s.f (R.RAD_MAC.CAPTURE_DB j))
    (s.radOn j = true → (s.radAt j).phase ≠ .tx → a.toInt + 10 * m ≤ b.toInt →
      exec (.captureLost j a b) s = .next (s.raise (E.RAD_EVT.CAPTURE_LOST j))) ∧
    (b.toInt < a.toInt + 10 * m → exec (.captureLost j a b) s = .next s) ∧
    (s.radOn j = true → (s.radAt j).phase ≠ .tx → exec (.scatterRxBad j) s = .next (s.count (R.RAD_CNT_RX_BAD.COUNT j))) ∧
    (s.radOn j = false ∨ (s.radAt j).phase = .tx → exec (.scatterRxBad j) s = .next s))

/-! ## The CAN FD channels (chapter 14) -/

/-- R443–R458. `canReceive`, `canSent`, `canRetry` and `canTxError` are the steps of reception and of an attempt. That BUS_OFF acts
only where an error can take TEC past 255, and an overload flag as an outcome of an attempt (assumption 197), and that a bus-off
discards the frame in transmission with the expired ones (33), are the model's reading. -/
def Obligations.CanChannels : Prop :=
  (∀ (s : State) (c : Fin 8) (f : CanFrame) (w : Word),
    (s.canUp c = false → exec (.canFieldEvent c f w) s = .next s ∧ exec (.canFieldReply c f w) s = .next s ∧
      exec (.canFirmwareFrame c f w) s = .next s) ∧
    (s.canUp c = true → s.isField c f = true → (fieldType f = 1 → exec (.canFieldEvent c f w) s = .next (s.canReceive c f w)) ∧
      (fieldType f = 2 → exec (.canFieldReply c f w) s = .next (s.canReceive c f w))) ∧
    (s.canUp c = true → s.isField c f = false → exec (.canFirmwareFrame c f w) s = .next (s.canReceive c f w) ∧
      exec (.canFieldEvent c f w) s = .next s ∧ exec (.canFieldReply c f w) s = .next s)) ∧
  (∀ (s : State) (c : Fin 8) (f : CanFrame) (w : Word), let u := (s.count (R.CAN_CNT_RX.COUNT c)).recGood c
    u.canMode c = (if u.lightRole = false ∨ u.f (R.CAN_CFG.MODE c) = 3 then 1 else u.f (R.CAN_CFG.MODE c)) ∧
    (u.canMode c = 2 → s.canReceive c f w = u) ∧
    (u.canMode c ≠ 2 → u.isField c f = true → fieldOk f = false → s.canReceive c f w = u.count (R.CAN_CNT_BAD_FIELD.COUNT c)) ∧
    (u.canMode c ≠ 2 → u.isField c f = true → fieldOk f = true → u.lightRole = true →
      (fieldType f = 1 → s.canReceive c f w = u.canEvent c f w) ∧ (fieldType f = 2 → s.canReceive c f w = u.canReply c f w)) ∧
    (u.isField c f = true → fieldOk f = true → u.lightRole = false → s.canReceive c f w = u) ∧
    (u.canMode c ≠ 2 → u.isField c f = false → s.canReceive c f w = u.canBuffer c f w) ∧
    (s.f (R.CAN_STATUS.REC c) ≤ 127 → u.f (R.CAN_STATUS.REC c) = s.f (R.CAN_STATUS.REC c) - 1) ∧
    (127 < s.f (R.CAN_STATUS.REC c) → 119 ≤ u.f (R.CAN_STATUS.REC c) ∧ u.f (R.CAN_STATUS.REC c) ≤ 127)) ∧
  (∀ (s : State) (c : Fin 8) (f : CanFrame) (w : Word),
    (∀ m, m < 16 → s.mbMatch c m f = true → (∀ k, k < m → s.mbMatch c k f = false) →
      s.canBuffer c f w = s.mbArrive c m (f.words w)) ∧
    ((∀ m, m < 16 → s.mbMatch c m f = false) →
      (s.quLevel (.bulk c) + s.f (R.CAN_BULK_OWED.OWED c) < 512 → s.canBuffer c f w = s.quOffer (.bulk c) (f.words w)) ∧
      (512 ≤ s.quLevel (.bulk c) + s.f (R.CAN_BULK_OWED.OWED c) → s.canBuffer c f w = s.raise (quOverflow (.bulk c))))) ∧
  (∀ (s : State) (c : Fin 8) (m : Fin 16) (w : List Word), let t := s.mbArrive c m w
    (s.on (R.CAN_MB_STAT.LOCKED c m) = false → t.on (R.CAN_MB_STAT.FULL c m) = true ∧ t.r (R.CAN_MB_ID.reg c m) = w.getD 1 0 ∧
      (s.on (R.CAN_MB_STAT.FULL c m) = true → t.on (R.CAN_MB_STAT.OVERRUN c m) = true ∧ t.flag (E.CAN_EVT.MB_OVERRUN c) = true)) ∧
    (s.on (R.CAN_MB_STAT.LOCKED c m) = true → t.on (R.CAN_MB_STAT.SHADOW c m) = true ∧
      sget mbShadowDefault (t.canAt c).shadow m = w ∧ t.r (R.CAN_MB_ID.reg c m) = s.r (R.CAN_MB_ID.reg c m))) ∧
  (∀ (s : State) (c : Fin 8) (m : Fin 16),
    (s.reaches (R.CAN_MB_WORD0.reg c m).blk (R.CAN_MB_WORD0.reg c m).off false = true → ∃ t, exec (.mailboxLock c m) s = .next t ∧
      t.on (R.CAN_MB_STAT.LOCKED c m) = true ∧ t.bus.readData = s.r (R.CAN_MB_WORD0.reg c m)) ∧
    (s.reaches (R.CAN_MB_DATA.reg c m 15).blk (R.CAN_MB_DATA.reg c m 15).off false = true → ∃ t,
      exec (.mailboxRelease c m) s = .next t ∧ t.on (R.CAN_MB_STAT.LOCKED c m) = false ∧
      t.on (R.CAN_MB_STAT.SHADOW c m) = false ∧ t.on (R.CAN_MB_STAT.FULL c m) = s.on (R.CAN_MB_STAT.SHADOW c m) ∧
      t.bus.readData = s.r (R.CAN_MB_DATA.reg c m 15) ∧ (s.on (R.CAN_MB_STAT.SHADOW c m) = true →
        t.r (R.CAN_MB_ID.reg c m) = (sget mbShadowDefault (s.canAt c).shadow m).getD 1 0))) ∧
  (∀ (s : State) (c : Fin 8) (b : Fin 4), s.reaches (R.CAN_TX_CTL.reg c b).blk (R.CAN_TX_CTL.reg c b).off true = true →
    ((∃ x ∈ (s.canAt c).pend, x.buf = some b.val) → exec (.txRequest c b) s = .next s) ∧
    ((∀ x ∈ (s.canAt c).pend, x.buf ≠ some b.val) → exec (.txAbort c b none) s = .next s ∧ ∃ t, exec (.txRequest c b) s = .next t ∧
      t.on (R.CAN_TX_CTL.REQ c b) = true ∧ t.f (R.CAN_TX_CTL.STATUS c b) = 1 ∧ t.f (R.CAN_TX_CTL.REASON c b) = 0 ∧
      ∃ x, (t.canAt c).pend = (s.canAt c).pend ++ [x] ∧ x.buf = some b.val ∧ x.fails = 0) ∧
    (∀ x, (s.canAt c).pend.find? (fun y => y.buf == some b.val) = some x → ∃ t, exec (.txAbort c b none) s = .next t ∧
      t.f (R.CAN_TX_CTL.STATUS c b) = 3 ∧ t.f (R.CAN_TX_CTL.REASON c b) = 1 ∧ t.on (R.CAN_TX_CTL.REQ c b) = false ∧
      (t.canAt c).pend = (s.canAt c).pend.filter (fun y => y.order != x.order)) ∧
    (∀ o, exec (.txAbort c b (some o)) s = .next ((s.canAttempt c o).txAbort c b))) ∧
  (∀ f g : CanFrame, f.ide = g.ide → f.ident = g.ident → f.rank = g.rank) ∧
  (∀ (l : List CanTx) (x : CanTx), canBest l = some x → x ∈ l ∧
    ∀ y ∈ l, x.frame.rank < y.frame.rank ∨ (x.frame.rank = y.frame.rank ∧ x.order ≤ y.order)) ∧
  (∀ (s : State) (c : Fin 8) (o : CanOutcome), (s.canSends c = false ∨ (s.canAt c).pend = []) →
    exec (.canTxAttempt c o) s = .next s) ∧
  (∀ (s : State) (c : Fin 8) (x : CanTx), s.canSends c = true → canBest (s.canAt c).pend = some x →
    (∀ w, ∃ t, exec (.canTxAttempt c (.sent w)) s = .next t ∧ t.f (R.CAN_STATUS.TEC c) = s.f (R.CAN_STATUS.TEC c) - 1 ∧
      (∀ b : Fin 4, x.buf = some b.val → t.r (R.CAN_TX_TSTAMP.reg c b) = w ∧ t.f (R.CAN_TX_CTL.STATUS c b) = 2) ∧
      (s.canMode c = 0 → t.out = s.out ++
        [.can c { x.frame with esi := x.frame.fdf && s.f (R.CAN_STATUS.STATE c) == 1 }])) ∧
    (∀ (w : Word) (bit : Bool) (more : Nat), let up := s.f (R.CAN_STATUS.TEC c) - 1 + 8 * (b2n bit + more)
      ∃ t, exec (.canTxAttempt c (.overload w bit more)) s = .next t ∧ t.f (R.CAN_STATUS.TEC c) = min 255 up ∧
      t.f (R.CAN_CNT_TX.COUNT c) = (s.count (R.CAN_CNT_TX.COUNT c)).f (R.CAN_CNT_TX.COUNT c) ∧
      (t.canAt c).pend = (s.canAt c).pend.filter (fun y => y.order != x.order) ∧
      (256 ≤ up → t.f (R.CAN_STATUS.STATE c) = 2 ∧ t.flag (E.CAN_EVT.BUS_OFF c) = true) ∧
      (bit = true → t.flag (E.CAN_EVT.ERR_FRAME c) = true)) ∧
    (x.fails < s.f (R.CAN_RETRY.LIMIT c) → ∃ t, exec (.canTxAttempt c .lost) s = .next t ∧ t.regs = s.regs ∧
      (t.canAt c).pend.length = (s.canAt c).pend.length) ∧
    (s.f (R.CAN_RETRY.LIMIT c) ≤ x.fails → exec (.canTxAttempt c .lost) s =
      .next ((s.canFail c x 0).raise (E.CAN_EVT.RETRY_EXHAUSTED c))) ∧
    (∀ (e : Fin 7) (arb : Bool) (more : Nat),
      let up := (if (s.f (R.CAN_STATUS.STATE c) = 1 ∧ e.val = 3) ∨ (arb = true ∧ e.val = 1) then 0 else 8) + 8 * more
      ∃ t, exec (.canTxAttempt c (.error e arb more)) s = .next t ∧ t.flag (E.CAN_EVT.ERR_FRAME c) = true ∧
      (s.f (R.CAN_STATUS.TEC c) + up < 256 → t.f (R.CAN_STATUS.TEC c) = s.f (R.CAN_STATUS.TEC c) + up) ∧
      (256 ≤ s.f (R.CAN_STATUS.TEC c) + up → t.f (R.CAN_STATUS.STATE c) = 2 ∧ t.flag (E.CAN_EVT.BUS_OFF c) = true))) ∧
  (∀ (s : State) (c : Fin 8), (s.canUp c = false → exec (.busOff c) s = .next s ∧ exec (.protocolException c) s = .next s ∧
      ∀ e b, exec (.canErrorFrame c e b) s = .next s) ∧
    (s.canUp c = true → (248 ≤ s.f (R.CAN_STATUS.TEC c) → ∃ t, exec (.busOff c) s = .next t ∧ t.f (R.CAN_STATUS.STATE c) = 2 ∧
        t.f (R.CAN_STATUS.TEC c) = 255 ∧ t.flag (E.CAN_EVT.BUS_OFF c) = true ∧
        (s.on (R.CAN_CFG.AUTO_REC c) = true → t.on (R.CAN_STATUS.RECOVERING c) = true) ∧
        ∀ x, canBest (s.canAt c).pend = some x → (t.canAt c).pend = (s.canAt c).pend.filter (fun y => y.order != x.order)) ∧
      (s.f (R.CAN_STATUS.TEC c) < 248 → exec (.busOff c) s = .next s) ∧
      exec (.protocolException c) s = .next (s.count (R.CAN_CNT_PXE.COUNT c)) ∧
      ∀ (e : Fin 7) (b : Bool), ∃ t, exec (.canErrorFrame c e b) s = .next t ∧
        t.flag (E.CAN_EVT.ERR_FRAME c) = (!(b && e.val == 0) || s.flag (E.CAN_EVT.ERR_FRAME c)) ∧
        t.f (R.CAN_STATUS.LEC c) = (if e.val = 0 then s.f (R.CAN_STATUS.LEC c) else e.val) ∧
        t.f (R.CAN_STATUS.REC c) = min 255 (s.f (R.CAN_STATUS.REC c) + if b = true then 8 else 1)) ∧
    (s.on (R.CAN_STATUS.RECOVERING c) = true → ∃ t, exec (.busOffRecoveryDone c) s = .next t ∧
      t.f (R.CAN_STATUS.STATE c) = 0 ∧ t.f (R.CAN_STATUS.TEC c) = 0 ∧ t.f (R.CAN_STATUS.REC c) = 0) ∧
    (s.on (R.CAN_STATUS.RECOVERING c) = false → exec (.busOffRecoveryDone c) s = .next s) ∧
    (s.canField c = [] → exec (.canTxExpire c) s = .next s) ∧
    (∀ x l, s.canField c = x :: l → exec (.canTxExpire c) s = .next ((s.canTake c x).count (R.CAN_CNT_TX_EXPIRED.COUNT c)))) ∧
  (∀ (s : State) (c : Fin 8), s.reaches (R.CAN_CMD.reg c).blk (R.CAN_CMD.reg c).off true = true →
    (s.f (R.CAN_STATUS.STATE c) = 2 → exec (.recover c) s = .next (s.setF (R.CAN_STATUS.RECOVERING c) 1)) ∧
    (s.f (R.CAN_STATUS.STATE c) ≠ 2 → exec (.recover c) s = .next s) ∧
    ((s.canAt c).pend = [] → exec (.abortTx c) s = .next s) ∧
    exec (.abortTx c) s = .next ((((s.txAbort c 0).txAbort c 1).txAbort c 2).txAbort c 3) ∧
    (∀ w, ∃ t, exec (.snap c w) s = .next t ∧ t.can.snaps.head? = some ⟨w, s.now, s.stepEpoch⟩ ∧ t.canNow = w ∧
      t.regs = s.regs)) ∧
  (∀ (s : State) (c : Nat) (f : CanFrame), (64 ≤ (s.canField c).length → s.canOwn c f = s) ∧
    ((s.canField c).length < 64 → s.canOwn c f = s.canPush c f none)) ∧
  (∀ (s : State) (w : Word), ∃ t, exec (.canSnapshot w) s = .next t ∧ t.can.snaps.head? = some ⟨w, s.now, s.stepEpoch⟩ ∧
    t.canNow = w ∧ t.can.ch = s.can.ch ∧ t.regs = s.regs) ∧
  (∀ (s : State) (c : Fin 8) (x : CanSnap) (l : List CanSnap), s.can.snaps = x :: l →
    s.reaches (R.CAN_TS_SNAP_CNT.reg c).blk (R.CAN_TS_SNAP_CNT.reg c).off false = true → ∃ t, exec (.snapCntRead c) s = .next t ∧
    t.bus.readData = x.cnt ∧ t.r (R.CAN_TS_SNAP_TIME.reg c 0) = stampWord x.time 0 ∧
    t.f (R.CAN_TS_SNAP_STEP.STEP c) = x.step % 256 ∧ t.can = s.can) ∧
  (∀ (s : State) (c : Fin 8) (n : BitVec 10), s.reaches (R.CAN_BULK_ACK.reg c).blk (R.CAN_BULK_ACK.reg c).off true = true →
    ∃ t, exec (.bulkAck c n) s = .next t ∧ t.f (R.CAN_BULK_OWED.OWED c) = s.f (R.CAN_BULK_OWED.OWED c) - n.toNat)

/-! ## Field I/O, stages and chains (chapter 15) -/

/-- R459–R472. That a refresh frame's words are those at the frame's start is the model's reading (assumption 68). -/
def Obligations.FieldOutputs : Prop :=
  (∀ (s : State) (n : Fin 16) (vals : BitVec 16), s.dioIn n = true → (s.f R.DIO_DIAG1.BANK_LOW_NOW).testBit (n.val / 4) = false →
    vals.getLsbD n ≠ (s.f R.DIO_IN.IN).testBit n →
    let new := maskOf 16 (fun k => if k = n.val then vals.getLsbD n else (s.f R.DIO_IN.IN).testBit k)
    let u := s.setF R.DIO_IN.IN new
    exec (.dioInputAccept (BitVec.ofNat 16 (2 ^ n.val)) vals) s =
      .next (u.offerEvent (s.f R.FE_STEER.DIO) ⟨kDio, false, false, s.stepEpoch, 0, n, s.now, w32 new, 0, 0⟩)) ∧
  (∀ (s : State) (n : Fin 16), s.dioOutCh (s.dioLead n) = false → exec (.overload n) s = .next s ∧ exec (.overTemp n) s = .next s ∧
    exec (.openWire n) s = .next s) ∧
  (∀ (s : State) (n : Fin 16), s.dioOutCh (s.dioLead n) = true → ∃ t u v, exec (.overload n) s = .next t ∧
    exec (.overTemp n) s = .next u ∧ exec (.overTempClear n) s = .next v ∧
    t.flag E.DIO_EVT.OVERLOAD = true ∧ u.flag E.DIO_EVT.OVER_TEMP = true ∧
    ∀ m ∈ s.dioGroup (s.dioLead n), m < 16 → (t.f R.DIO_DIAG0.OVERLOAD_NOW).testBit m = true ∧ t.dioDriven.testBit m = false ∧
      (u.f R.DIO_DIAG1.OVER_TEMP_NOW).testBit m = true ∧ u.dioDriven.testBit m = false ∧
      (v.f R.DIO_DIAG1.OVER_TEMP_NOW).testBit m = false) ∧
  (∀ (s : State) (n : Fin 16), (s.on (R.DIO_CH_CFG.RETRY (s.dioLead n)) = false ∨ s.dioOver n = false →
      exec (.overloadRetry n) s = .next s) ∧
    (s.on (R.DIO_CH_CFG.RETRY (s.dioLead n)) = true → s.dioOver n = true → ∃ t, exec (.overloadRetry n) s = .next t ∧
      t.f R.DIO_DIAG0.OVERLOAD_NOW = s.f R.DIO_DIAG0.OVERLOAD_NOW ∧ ∀ m ∈ s.dioGroup (s.dioLead n),
        (m, s.power.opTicks) ∈ t.ind.retry ∧ t.dioOver m = false) ∧
    ((∀ e ∈ s.ind.retry, s.power.opTicks < e.2 + 625000) → s.dioSettle = s) ∧
    (∀ e ∈ s.ind.retry, e.1 < 16 → e.2 + 625000 ≤ s.power.opTicks →
      (s.dioSettle.f R.DIO_DIAG0.OVERLOAD_NOW).testBit e.1 = false ∧ ∀ x ∈ s.dioSettle.ind.retry, x.1 ≠ e.1) ∧
    (s.dioOutCh (s.dioLead n) = true → s.on (R.DIO_CH_CFG.OW_EN (s.dioLead n)) = true → ∃ t, exec (.openWire n) s = .next t ∧
      t.flag E.DIO_EVT.OPEN_WIRE = true ∧ t.out = s.out ∧
      ∀ m ∈ s.dioGroup (s.dioLead n), m < 16 → (t.f R.DIO_DIAG0.OPEN_WIRE_NOW).testBit m = true) ∧
    (∃ t, exec (.openWireClear n) s = .next t ∧ t.out = s.out ∧
      ∀ m ∈ s.dioGroup (s.dioLead n), (t.f R.DIO_DIAG0.OPEN_WIRE_NOW).testBit m = false)) ∧
  (∀ (s : State) (b : Fin 4), (∃ t, exec (.bankLow b) s = .next t ∧ (t.f R.DIO_DIAG1.BANK_LOW_NOW).testBit b = true ∧
      t.flag E.DIO_EVT.BANK_LOW = true ∧ (∀ n : Fin 16, n.val / 4 = b.val → t.dioDriven.testBit n = false ∧
        (s.dioIn n = true → (t.f R.DIO_IN.IN).testBit n = false))) ∧
    (∃ t, exec (.bankLowClear b) s = .next t ∧ (t.f R.DIO_DIAG1.BANK_LOW_NOW).testBit b = false)) ∧
  (∀ (s : State) (j : Fin 4) (v i : BitVec 16), ∃ t, exec (.pwmPeriodStart j v i) s = .next t ∧
    t.f (R.IND_STR_STATUS.CODE j) = s.stageCode j % 1024 ∧ t.out = s.out ++ [.pwm j (pwmCounts (s.stageCode j % 1024))
      (s.f (R.IND_STR_CFG.CURRENT j)) (s.on (R.IND_STR_STATUS.HEADROOM_NOW j))] ∧
    (1000 ≤ pwmCounts (s.f (R.IND_STR_STATUS.CODE j)) → t.f (R.IND_STR_MEAS.VOUT j) = v.toNat ∧ t.f (R.IND_STR_MEAS.IOUT j) = i.toNat) ∧
    (pwmCounts (s.f (R.IND_STR_STATUS.CODE j)) < 1000 → t.r (R.IND_STR_MEAS.reg j) = s.r (R.IND_STR_MEAS.reg j))) ∧
  (∀ (s : State) (j : Nat), (s.on (R.IND_STR_CFG.EN j) = false ∨ s.lightRole = false ∨ s.on (R.IND_STR_STATUS.OPEN_NOW j) = true ∨
    s.on (R.IND_STR_STATUS.SHORT_NOW j) = true ∨ s.on (R.IND_STR_STATUS.AON_HELD j) = true) → s.stageCode j = 0) ∧
  (∀ (s : State) (j : Fin 4) (x : BitVec 16), s.on (R.IND_STR_CFG.EN j) = true → 1000 ≤ pwmCounts (s.f (R.IND_STR_STATUS.CODE j)) →
    let h := (s.setF (R.IND_STR_STATUS.HEADROOM_NOW j) 1).raise (E.IND_STR_EVT.HEADROOM j)
    let u := (s.setF (R.IND_STR_STATUS.UNDER_NOW j) 1).raise (E.IND_STR_EVT.UNDER_CURRENT j)
    let o := (s.setF (R.IND_STR_STATUS.OPEN_NOW j) 1).raise (E.IND_STR_EVT.OPEN j)
    let d := (s.setF (R.IND_STR_STATUS.SHORT_NOW j) 1).raise (E.IND_STR_EVT.SHORT j)
    (s.on (R.IND_STR_STATUS.HEADROOM_NOW j) = false → exec (.headroom j x) s = .next (h.faultEvent (h.stageRecord j) 0x0101 x.toNat)) ∧
    (s.on (R.IND_STR_STATUS.UNDER_NOW j) = false →
      exec (.underCurrent j x) s = .next (u.faultEvent (u.stageRecord j) 0x0102 x.toNat)) ∧
    (s.on (R.IND_STR_STATUS.OPEN_NOW j) = false → exec (.stringOpen j) s =
      .next ((o.faultEvent (o.stageRecord j) 0x0103 0).stageFailed j)) ∧
    (s.on (R.IND_STR_STATUS.SHORT_NOW j) = false → 50 * 1023 ≤ 1500 * s.f (R.IND_STR_CFG.CURRENT j) → exec (.stringShort j) s =
      .next ((d.faultEvent (d.stageRecord j) 0x0104 0).stageFailed j)) ∧
    (1500 * s.f (R.IND_STR_CFG.CURRENT j) < 50 * 1023 → exec (.stringShort j) s = .next s) ∧
    (s.on (R.IND_STR_STATUS.OPEN_NOW j) = true → exec (.stringOpen j) s = .next s)) ∧
  (∀ (s : State) (j : Fin 4) (x : BitVec 16), (s.on (R.IND_STR_CFG.EN j) = false → exec (.headroom j x) s = .next s ∧
      exec (.underCurrent j x) s = .next s ∧ exec (.stringOpen j) s = .next s ∧ exec (.stringShort j) s = .next s) ∧
    (1000 ≤ pwmCounts (s.f (R.IND_STR_STATUS.CODE j)) →
      exec (.headroomClear j) s = .next (s.setF (R.IND_STR_STATUS.HEADROOM_NOW j) 0) ∧
      exec (.underCurrentClear j) s = .next (s.setF (R.IND_STR_STATUS.UNDER_NOW j) 0)) ∧
    (pwmCounts (s.f (R.IND_STR_STATUS.CODE j)) < 1000 → exec (.headroom j x) s = .next s ∧ exec (.underCurrent j x) s = .next s ∧
      exec (.stringOpen j) s = .next s ∧ exec (.stringShort j) s = .next s ∧ exec (.headroomClear j) s = .next s ∧
      exec (.underCurrentClear j) s = .next s) ∧
      (s.stageFailed j).f (R.IND_STR_STATUS.CODE j) = 0) ∧
  (∀ (s : State) (n : Fin 4), (s.on (R.IND_CH_CFG0.EN n) = false ∨ (s.chainAt n).frame.isSome = true →
      exec (.refreshFrame n) s = .next s) ∧
    (s.on (R.IND_CH_CFG0.EN n) = true → (s.chainAt n).frame = none → (s.chainAt n).fetched = [] → ∃ t,
      exec (.refreshFrame n) s = .next t ∧
      (t.chainAt n).frame = some ⟨s.chainWords n (stampUnits s.now), none, [], false, false, s.power.opTicks⟩ ∧
      t.on (R.IND_CH_STATUS.RUN n) = true)) ∧
  (∀ (s : State) (n : Fin 4) (l : List Word), ((s.chainAt n).frame = none → exec (.frameShifted n l) s = .next s ∧
      exec (.chainLatch n) s = .next s) ∧ ∀ f, (s.chainAt n).frame = some f →
    (f.shifted = true → exec (.frameShifted n l) s = .next s) ∧ (f.shifted = false → exec (.chainLatch n) s = .next s) ∧
    (∀ t, f.instant = some t → s.reached t = false → exec (.chainLatch n) s = .next s) ∧
    (f.shifted = false → f.copies = [] → (s.chainAt n).errs = 0 → l.length ≠ s.chLen n → ∃ t, exec (.frameShifted n l) s = .next t ∧
      t.on (R.IND_CH_STATUS.CHAIN_ERR_NOW n) = true ∧ t.flag (E.IND_CH_EVT.CHAIN_ERR n) = true ∧ (t.chainAt n).errs = 1 ∧
      (t.chainAt n).frame = some { f with shifted := true }) ∧
    (f.shifted = true → f.instant = none → f.copies = [] → (s.chainAt n).fetched = [] → ((s.chainAt n).latches + 1) % 3 ≠ 0 →
      ∃ t, exec (.chainLatch n) s = .next t ∧ (t.chainAt n).frame = none ∧ (t.chainAt n).latches = (s.chainAt n).latches + 1 ∧
        t.out = s.out ++ [.latch n f.words] ∧ (∀ k : Nat, k < f.words.length → t.r (R.IND_CH_EWORD.reg n k) = f.words.getD k 0))) ∧
  (∀ t m g : Nat, 192 ≤ trimStep t m g ∧ trimStep t m g ≤ 320 ∧
    (192 < t → t ≤ 320 → g * 101 < m * 100 → trimStep t m g = t - 1) ∧
    (192 ≤ t → t < 320 → m * 100 < g * 99 → trimStep t m g = t + 1) ∧
    (192 ≤ t → t ≤ 320 → m * 100 ≤ g * 101 → g * 99 ≤ m * 100 → trimStep t m g = t)) ∧
  (∀ (s : State) (n g : Nat), s.f (R.IND_FB_READ0.R g) + s.f (R.IND_FB_READ0.G g) + s.f (R.IND_FB_READ1.B g) < 64 → s.feedback n g = s)

/-! ## The real-time clock and the recorder (chapter 16) -/

/-- R477–R488, R491–R512. How a quotient rounds in the compensation follows R485. The entry of the first write complete in both banks
(assumption 173), what a read of the ledger answers (32), the head of a segment (172), what counts as offered together (171), a
closed or shut recorder that refuses (173) and the wear counters saved with OP_MS (198) are the model's choices. -/
def Obligations.ClockAndRecorder : Prop :=
  (∀ s : State, let u := s.rtcStep
    (∃ t, exec .rtcSecond s = .next t ∧ t.r R.RTC_TIME.reg = u.r R.RTC_TIME.reg ∧ t.r R.RTC_DATE.reg = u.r R.RTC_DATE.reg ∧
      t.f R.RTC_SUBSEC.SUBSEC = 0 ∧ t.rtc.shadow = t.regs.rtc) ∧
    (s.f R.RTC_TIME.SEC < 59 → u.f R.RTC_TIME.SEC = s.f R.RTC_TIME.SEC + 1 ∧ u.f R.RTC_TIME.MIN = s.f R.RTC_TIME.MIN ∧
      u.r R.RTC_DATE.reg = s.r R.RTC_DATE.reg) ∧
    (59 ≤ s.f R.RTC_TIME.SEC → s.f R.RTC_TIME.MIN < 59 → u.f R.RTC_TIME.SEC = 0 ∧
      u.f R.RTC_TIME.MIN = s.f R.RTC_TIME.MIN + 1 ∧ u.f R.RTC_TIME.HOUR = s.f R.RTC_TIME.HOUR) ∧
    (59 ≤ s.f R.RTC_TIME.SEC → 59 ≤ s.f R.RTC_TIME.MIN → s.f R.RTC_TIME.HOUR < 23 → u.f R.RTC_TIME.SEC = 0 ∧
      u.f R.RTC_TIME.MIN = 0 ∧ u.f R.RTC_TIME.HOUR = s.f R.RTC_TIME.HOUR + 1 ∧ u.r R.RTC_DATE.reg = s.r R.RTC_DATE.reg) ∧
    (59 ≤ s.f R.RTC_TIME.SEC → 59 ≤ s.f R.RTC_TIME.MIN → 23 ≤ s.f R.RTC_TIME.HOUR → u.f R.RTC_TIME.HOUR = 0 ∧
      u.r R.RTC_DATE.reg = s.rtcDay.r R.RTC_DATE.reg ∧ u.f R.RTC_TIME.WDAY = s.rtcDay.f R.RTC_TIME.WDAY)) ∧
  (∀ s : State, let u := s.rtcDay
    let n := monthLen (s.f R.RTC_DATE.YEAR) (s.f R.RTC_DATE.MONTH)
    u.f R.RTC_TIME.WDAY = (if 6 ≤ s.f R.RTC_TIME.WDAY then 0 else s.f R.RTC_TIME.WDAY + 1) ∧
    (s.f R.RTC_DATE.DAY < n → u.f R.RTC_DATE.DAY = s.f R.RTC_DATE.DAY + 1 ∧ u.f R.RTC_DATE.MONTH = s.f R.RTC_DATE.MONTH ∧
      u.f R.RTC_DATE.YEAR = s.f R.RTC_DATE.YEAR) ∧
    (n ≤ s.f R.RTC_DATE.DAY → s.f R.RTC_DATE.MONTH < 12 → u.f R.RTC_DATE.DAY = 1 ∧
      u.f R.RTC_DATE.MONTH = s.f R.RTC_DATE.MONTH + 1 ∧ u.f R.RTC_DATE.YEAR = s.f R.RTC_DATE.YEAR) ∧
    (n ≤ s.f R.RTC_DATE.DAY → 12 ≤ s.f R.RTC_DATE.MONTH → u.f R.RTC_DATE.DAY = 1 ∧ u.f R.RTC_DATE.MONTH = 1 ∧
      u.f R.RTC_DATE.YEAR = (s.f R.RTC_DATE.YEAR + 1) % 256)) ∧
  (∀ (s : State) (v : Word), s.reaches R.RTC_TIME.reg.blk R.RTC_TIME.reg.off true = true →
    s.reaches R.RTC_DATE.reg.blk R.RTC_DATE.reg.off true = true →
    (∃ t, exec (.rtcTimeWrite v) s = .next t ∧ t.rtc.held = some v ∧ t.rtc.shadow = t.regs.rtc ∧
      t.f R.RTC_SUBSEC.SUBSEC = s.halfCycles ∧ t.r R.RTC_TIME.reg = s.r R.RTC_TIME.reg ∧ t.r R.RTC_DATE.reg = s.r R.RTC_DATE.reg) ∧
    ∃ t, exec (.rtcDateWrite v) s = .next t ∧ t.rtc.held = none ∧ t.rtc.shadow = t.regs.rtc ∧ t.on R.RTC_STATUS.VALID = true ∧
      t.f R.RTC_SUBSEC.SUBSEC = 0 ∧
      t.f R.RTC_DATE.DAY = getBits v 0 5 ∧ t.f R.RTC_DATE.MONTH = getBits v 8 4 ∧ t.on R.RTC_STATUS.ALIGN_WAIT = false ∧
      (s.on R.RTC_STATUS.ALIGN_WAIT = true → t.flag E.RTC_EVT.ALIGN_REFUSED = true) ∧
      (s.rtc.held = none → t.r R.RTC_TIME.reg = s.r R.RTC_TIME.reg) ∧
      (∀ w, s.rtc.held = some w → t.f R.RTC_TIME.SEC = getBits w 0 6 ∧ t.f R.RTC_TIME.HOUR = getBits w 16 5)) ∧
  (∀ s : State, ∃ t, exec .rtcTimeRead s = .next t ∧ t.bus.readData = s.rtcShadow R.RTC_TIME.reg.off ∧
    t.rtc.hold = some (s.rtcShadow R.RTC_DATE.reg.off) ∧ t.regs = s.regs ∧
    (s.rtc.shadow = s.regs.rtc → t.bus.readData = s.r R.RTC_TIME.reg ∧ t.rtc.hold = some (s.r R.RTC_DATE.reg))) ∧
  (∀ (s : State) (a : Fin 2) (v : Word), s.reaches (R.RTC_ALM_CTL.reg a).blk (R.RTC_ALM_CTL.reg a).off true = true →
    exec (.rtcAlarmWrite a true v) s = .next ((s.plainWrite .rtc (R.RTC_ALM_CTL.reg a).off v).almEval a).rtcShow ∧
    exec (.rtcAlarmWrite a false v) s = .next ((s.plainWrite .rtc (R.RTC_ALM_CMP.reg a).off v).almEval a).rtcShow) ∧
  (∀ (s : State) (a : Fin 2), ((s.on (R.RTC_ALM_CTL.EN a) = false ∨ s.almMatch a = false ∨ s.rtc.fired a = true) → s.almEval a = s) ∧
    (s.on (R.RTC_ALM_CTL.EN a) = true → s.almMatch a = true → s.rtc.fired a = false → (s.almEval a).rtc.fired a = true ∧
      (s.almEval a).flag (if a.val = 0 then E.RTC_EVT.ALM0 else E.RTC_EVT.ALM1) = true)) ∧
  (∀ s : State, ∃ t, exec .oscFail s = .next t ∧ t.r R.RTC_TIME.reg = 0 ∧ t.r R.RTC_DATE.reg = 0x101 ∧
    t.on R.RTC_STATUS.VALID = false ∧ t.flag E.RTC_EVT.OSC_FAIL = true) ∧
  (∀ (s : State) (x : BitVec 16), (∃ t, exec (.rtcTempRead x) s = .next t ∧ t.f R.RTC_TEMP.TEMP = x.toNat ∧
      t.rtc.err = s.crystalErr x.toInt) ∧
    (∃ t, exec .compWindow s = .next t ∧ t.f R.RTC_COMP_PPB.PPB = ofSigned 32 s.rtc.err ∧
      t.f R.RTC_COMP.N = ofSigned 13 (max (-2048) (min 2048 (roundAway (s.rtc.err * 4194304) 1000000000)))) ∧
    (∀ k : Fin 32, s.crystalErr ((k.val : Int) * 1280 - 12800) = s.curve k + s.trim) ∧
    (x.toInt < -12800 → s.crystalErr x.toInt = s.curve 0 + s.trim)) ∧
  (∀ s : State, s.reaches R.RTC_CMD.reg.blk R.RTC_CMD.reg.off true = true →
    (s.on R.RTC_STATUS.ALIGN_WAIT = true → exec .align s = .next s.rtcShow) ∧
    (s.on R.RTC_STATUS.ALIGN_WAIT = false →
      (s.sync = 2 ∨ s.sync = 3 → exec .align s = .next (s.setF R.RTC_STATUS.ALIGN_WAIT 1).rtcShow) ∧
      (s.sync ≠ 2 → s.sync ≠ 3 → exec .align s = .next (s.raise E.RTC_EVT.ALIGN_REFUSED).rtcShow))) ∧
  (∀ s : State, let u : Int := (stampSec s.now : Int) - toSigned 32 (s.r R.TIME_UTCOFF.reg).toNat
    (s.on R.RTC_STATUS.ALIGN_WAIT = false → exec .alignExecute s = .next s) ∧
    (s.on R.RTC_STATUS.ALIGN_WAIT = true → (u < 946684800 ∨ 7258118400 ≤ u) →
      exec .alignExecute s = .next ((s.setF R.RTC_STATUS.ALIGN_WAIT 0).raise E.RTC_EVT.ALIGN_REFUSED)) ∧
    (s.on R.RTC_STATUS.ALIGN_WAIT = true → 946684800 ≤ u → u < 7258118400 → ∃ t, exec .alignExecute s = .next t ∧
      t.r R.RTC_TIME.reg = (calWords u.toNat).1 ∧ t.r R.RTC_DATE.reg = (calWords u.toNat).2 ∧
      t.on R.RTC_STATUS.ALIGN_WAIT = false ∧ t.on R.RTC_STATUS.VALID = true ∧ t.flag E.RTC_EVT.ALIGNED = true)) ∧
  (∀ r : Recorder, r.offered ≠ [] → r.front < r.together ∧ ∃ o, r.offered[r.front]? = some o ∧
    ∀ x ∈ r.offered.take r.together, o.code ≤ x.code) ∧
  (∀ (s : State) (o : Offer), (s.rcd.isOpen = false ∨ s.rcd.offered = [] → exec .recordAccept s = .next s) ∧
    (s.rcd.isOpen = true → s.rcd.offered[s.rcd.front]? = some o → exec .recordAccept s = .next (({ s with rcd := { s.rcd with
      offered := s.rcd.offered.eraseIdx s.rcd.front, cycles := s.rcd.cycles.eraseIdx s.rcd.front } }).recTake o)) ∧
    (s.rcd.closed = true ∨ (s.ledger.shut = true ∧ s.ledger.seqReserved ≤ s.rcd.nextSeq) →
      s.recTake o = { s with rcd := { s.rcd with finalLost := s.rcd.finalLost + 1 } }) ∧
    (s.rcd.closed = false → (s.ledger.shut = false ∨ s.rcd.nextSeq < s.ledger.seqReserved) → s.f R.REC_STATUS.A = 1 → recsBytes s.rcd.bufA + (s.mkRec o).size ≤ 262144 →
      (s.recTake o).rcd.bufA = s.rcd.bufA ++ [s.mkRec o] ∧ (s.recTake o).rcd.nextSeq = s.rcd.nextSeq + 1) ∧
    (s.rcd.closed = false → (s.ledger.shut = false ∨ s.rcd.nextSeq < s.ledger.seqReserved) → 2 ≤ s.f R.REC_STATUS.A →
      2 ≤ s.f R.REC_STATUS.B → (s.recTake o).flag E.REC_EVT.LOST = true ∧
      (s.recTake o).f R.REC_LOST_PEND.PEND = satInc 0xFFFFFFFF (s.f R.REC_LOST_PEND.PEND) ∧ (s.recTake o).rcd.bufA = s.rcd.bufA)) ∧
  (∀ s : State, (s.f R.REC_STATUS.A ≠ 1 → s.f R.REC_STATUS.B ≠ 1 → exec .recFlush s = .next s) ∧
    (s.f R.REC_STATUS.A = 1 → s.f R.REC_STATUS.B ≠ 3 → s.rcd.bufA ≠ [] → ∃ t, exec .recFlush s = .next t ∧
      t.f R.REC_STATUS.A = 3 ∧ t.rcd = s.rcd) ∧
    (s.f R.REC_STATUS.A ≠ 3 → s.f R.REC_STATUS.B ≠ 3 → exec .flushDone s = .next s) ∧
    (s.flashStuck .log = true → exec .flushDone s = .next s ∧ exec .logErase s = .next s) ∧
    (s.flashStuck .log = false → s.f R.REC_STATUS.A = 3 → s.rcd.used + (32 + recsBytes s.rcd.bufA) ≤ 4194304 →
      ∃ t, exec .flushDone s = .next t ∧
      t.rcd.log = s.rcd.log ++ [⟨s.rcd.block, 32 + recsBytes s.rcd.bufA, segHead s.rcd.bufA, s.rcd.bufA⟩] ∧ t.rcd.block = s.rcd.block)) ∧
  (∀ s : State, let n := s.pairR R.REC_SEL_SEQ_LO.reg R.REC_SEL_SEQ_HI.reg
    let first := s.pairR R.REC_FIRST_SEQ_LO.reg R.REC_FIRST_SEQ_HI.reg
    let last := s.pairR R.REC_LAST_SEQ_LO.reg R.REC_LAST_SEQ_HI.reg
    ∃ t, exec (.recSelect none) s = .next t ∧ t.rcd = s.rcd ∧ (n < first → t.f R.REC_SEL_STATUS.RESULT = 1) ∧
      (first ≤ n → last < n → t.f R.REC_SEL_STATUS.RESULT = 2) ∧
      (first ≤ n → n ≤ last → t.f R.REC_SEL_STATUS.RESULT = if s.readable.any (fun r => r.seq == n) = true then 0 else 3)) ∧
  (∀ s : State, (s.on R.REC_STATUS.COPY_BUSY = true → exec (.recCopy none) s = .next s) ∧
    (s.on R.REC_STATUS.COPY_BUSY = false → ∃ t c, exec (.recCopy none) s = .next t ∧ t.rcd.copy = some c ∧
      c.bytes ≤ s.f R.REC_COPY_LEN.LEN ∧ t.on R.REC_STATUS.COPY_BUSY = true) ∧
    (s.rcd.copy = none → exec .copyDone s = .next s) ∧
    (∀ c, s.rcd.copy = some c → ∃ t, exec .copyDone s = .next t ∧ t.f R.REC_COPY_BYTES.BYTES = c.bytes % 2 ^ 26 ∧
      t.on R.REC_STATUS.COPY_BUSY = false ∧ t.flag E.REC_EVT.COPY_DONE = true ∧ t.rcd.copy = none)) ∧
  (∀ (s : State) (v : Word), let code := getBits v 0 16
    let len := getBits v 16 11
    ((code < 0x8000 ∨ len < 8 ∨ 1024 < len) → exec (.appRecord v) s = .next (s.raise E.REC_EVT.APP_BAD)) ∧
    (0x8000 ≤ code → 8 ≤ len → len ≤ 1024 → len % 4 = 0 → exec (.appRecord v) s = .next (s.record code (getBits v 30 2)
      (s.f R.REC_APP_SRC.SOURCE) ((List.range (len / 4)).map (fun i => s.r (R.REC_APP_DATA.reg i)))))) ∧
  (∀ s : State, s.flashStuck .log = false → ∃ t, exec .logErase s = .next t ∧
    t.rcd.log = s.rcd.log.filter (fun g => g.block != s.logNext s.rcd.block) ∧ t.rcd.bufA = s.rcd.bufA ∧ t.rcd.bufB = s.rcd.bufB) ∧
  (∀ s : State, (∃ t, exec .ledgerWriteDone s = .next t ∧ t.ledger.busy = s.ledger.busy - 1 ∧
      (t.on R.REC_LDG_STATUS.BUSY = true ↔ 1 < s.ledger.busy) ∧ ∀ w l, s.ledger.writes = w :: l → t.ledger.writes = l ∧
        ∃ c : LdgCopy, c.entry = w.entry ∧ c.valid = true ∧ bankGet t.ledger.bank0 w.entry.tag = some c ∧
          bankGet t.ledger.bank1 w.entry.tag = some c) ∧
    (∃ t, exec (.ledgerDataRead 0) s = .next t ∧ t.f R.REC_LDG_ADDR.WORD = (s.f R.REC_LDG_ADDR.WORD + 1) % 2 ^ 22 ∧
      t.bus.readData = s.ledgerAt (s.f R.REC_LDG_ADDR.WORD) ∧ t.ledger = s.ledger) ∧
    (∃ t, exec (.ledgerDataRead 1) s = .next t ∧ t.on R.REC_LDG_STATUS.BANK0_OK = false ∧
      t.flag E.REC_LDG_EVT.BANK0_ERR = true) ∧
    (s.rcd.isOpen = true → s.rcd.closed = false → ∃ t, exec .opMsSave s = .next t ∧ t.ledger.opMs = s.opMs ∧
      t.ledger.writeSeq = s.ledger.writeSeq + 2 ∧ t.rcd = s.rcd ∧ (∃ w ∈ t.ledger.writes, w.entry = ⟨.opMs, leBytes 8 s.opMs⟩) ∧
      ∃ w ∈ t.ledger.writes, w.entry = ⟨.wear, s.wearBody⟩) ∧
    (s.rcd.isOpen = false ∨ s.rcd.closed = true → exec .opMsSave s = .next s))

/-! ## Keys and life cycle (chapter 17) -/

/-- R513, R525–R542. The codes of results are those of R541: 5 POLICY, 6 EMPTY, 7 TYPE, 8 BAD_LENGTH, 9 BUSY, 10 ZEROISED, 12 BAD_OP.
An undefined operation that posts at once (assumption 53), a nonce without entropy (54), the time of an operation while zeroised
(175), the INTENT hash and its commit (177), slot 0 and the warning (178), what a stripped commit posts (199) and TAMPER's operand
as the sources active now (200) are the model's choices. -/
def Obligations.KeyBlock : Prop :=
  (∀ (s : State) (a b : Byte), let op := fun n => Host.Outcome.next (s.keyOp n a.toNat b.toNat)
    exec (.sign a b) s = op 0x01 ∧ exec (.keyVerify a b) s = op 0x02 ∧ exec (.ecdh a b) s = op 0x03 ∧
    exec (.gcmEncrypt a b) s = op 0x04 ∧ exec (.gcmDecrypt a b) s = op 0x05 ∧ exec (.ccmEncrypt a b) s = op 0x06 ∧
    exec (.ccmDecrypt a b) s = op 0x07 ∧ exec (.sha256 a b) s = op 0x08 ∧ exec (.sha384 a b) s = op 0x09 ∧
    exec (.hmacSha256 a b) s = op 0x0A ∧ exec (.random a b) s = op 0x0B ∧ exec (.derive a b) s = op 0x10 ∧
    exec (.generate a b) s = op 0x11 ∧ exec (.importPub a b) s = op 0x12 ∧ exec (.importWrapped a b) s = op 0x13 ∧
    exec (.destroy a b) s = op 0x14 ∧ exec (.replVerify a b) s = op 0x19 ∧ exec (.replCommit a b) s = op 0x1A ∧
    exec (.replAbort a b) s = op 0x1B ∧ exec (.mbExtend a b) s = op 0x20 ∧ exec (.attest a b) s = op 0x21) ∧
  (∀ (s : State) (c a b : Nat), let t := s.keyOp c a b
    t.key.slots = s.key.slots ∧ t.key.shadows = s.key.shadows ∧ (s.key.op.isSome = true → t = s) ∧
    (s.key.op = none → s.key.intent.isSome = true → t.f R.KEY_OP_STATUS.RESULT = 9 ∧ t.on R.KEY_OP_STATUS.BUSY = false ∧
      t.key.op = none) ∧
    (∀ x, s.key.op = none → s.key.intent = none → s.opOf c a b = some x → t.on R.KEY_OP_STATUS.BUSY = true ∧
      (s.lcState ≠ lcRetired → s.on R.KEY_STATUS.ZEROISED = false → t.key.op = some x.2 ∧
        t.f R.KEY_OP_TIME.TIME = x.1 % 2 ^ 32) ∧
      (x.2.secret = true → s.lcState = lcRetired → ∃ y, t.key.op = some y ∧ y.result = 6 ∧ y.slots = [] ∧ y.out = none) ∧
      (x.2.secret = true → s.lcState ≠ lcRetired → s.on R.KEY_STATUS.ZEROISED = true → ∃ y, t.key.op = some y ∧
        y.result = 10 ∧ y.slots = [] ∧ y.out = none ∧ t.f R.KEY_OP_TIME.TIME = s.zeroTime c % 2 ^ 32))) ∧
  (∀ (s : State) (c : BitVec 6) (a b : Byte), (undefinedOp c.toNat = false → exec (.keyUndefinedOp c a b) s = .next s) ∧
    (undefinedOp c.toNat = true → s.key.op = none → s.key.intent = none → ∃ t, exec (.keyUndefinedOp c a b) s = .next t ∧
      t.f R.KEY_OP_STATUS.RESULT = 12 ∧ t.on R.KEY_OP_STATUS.BUSY = false ∧ t.key = s.key)) ∧
  (∀ s : State, (s.key.op = none → exec .keyOpDone s = .next s) ∧ ∀ x, s.key.op = some x → ∃ t, exec .keyOpDone s = .next t ∧
    t.key.op = none ∧ t.on R.KEY_OP_STATUS.BUSY = false ∧ t.f R.KEY_OP_STATUS.RESULT = x.result % 256 ∧
    (x.result ≠ 0 → t.f R.KEY_OP_STATUS.OUT_LEN = 0) ∧ (x.slots = [] → x.shadows = [] → t.key.slots = s.key.slots) ∧
    (∀ (i : Nat) (k : KeySlot), x.slots = [(i, k)] → x.shadows = [] → k.valid = true → t.kslot i = k) ∧
    (∀ i : Nat, i < 128 → x.slots = [(i, KeySlot.empty)] → x.shadows = [] → t.kslot i = KeySlot.empty ∧ t.shadow i = none) ∧
    (x.flag = 1 → t.flag E.KEY_EVT.REPL_DONE = true) ∧ (x.flag = 2 → t.flag E.KEY_EVT.REPL_FAIL = true)) ∧
  (∀ (s : State) (a : Nat) (l : List Nat) (u : Nat), let k := s.kslot a
    (k.typ = 0 → s.kTest a l u = some 6) ∧ (k.typ ≠ 0 → k.typ ∉ l → s.kTest a l u = some 7) ∧
    (k.typ ≠ 0 → k.typ ∈ l → k.usage.testBit u = false → s.kTest a l u = some 5) ∧
    (k.typ ≠ 0 → k.typ ∈ l → k.usage.testBit u = true → s.kTest a l u = none)) ∧
  (∀ (s : State) (a : Nat), let k := s.kslot a
    (k.typ = ktP256 → k.usage.testBit 0 = true → s.inLen = 32 → s.tooLong = false → (s.opSign a).2.result = 0 ∧ (s.opSign a).1 = 24000 ∧
      (s.opSign a).2.out = some (p256Sign k.secret s.input s.signScalar)) ∧
    (k.typ = ktP256 → k.usage.testBit 0 = true → (s.inLen ≠ 32 ∨ s.tooLong = true) → (s.opSign a).2.result = 8 ∧
      (s.opSign a).2.out = none) ∧
    (s.tooLong = true ↔ 4096 < s.auxLen + s.inLen) ∧
    (s.tooLong = false → s.opSha256.2.out = some (sha256 (s.aux ++ s.input)) ∧ s.opSha384.2.out = some (sha384 (s.aux ++ s.input))) ∧
    (s.tooLong = true → s.opSha256.2.result = 8 ∧ s.opSha384.2.result = 8 ∧ s.opSha256.2.out = none ∧
      (k.typ = ktSecret → k.usage.testBit useMac = true → (s.opHmac a).2.result = 8) ∧
      (k.typ = ktEdPub → k.usage.testBit useVerify = true → a ≠ 255 → (s.opVerify a).2.result = 8)) ∧
    (∀ x, s.shadow a = some x →
      (s.auxLen + s.inLen + s.replWant x.key ≤ 4096 →
        (s.opReplVerify (a + 128)).2.shadows = [(a, some { x with verified := (s.replTest x.key).1 })]) ∧
      (4096 < s.auxLen + s.inLen + s.replWant x.key → (s.opReplVerify (a + 128)).2.result = 8 ∧
        (s.opReplVerify (a + 128)).2.shadows = [])) ∧
    (k.typ = ktP256 → k.usage.testBit 0 = true → k.eph = true → (0, KeySlot.empty) ∈ (s.opAttest).2.slots ∨ a ≠ 0) ∧
    (∀ x, s.shadow a = some x → x.verified = true → (s.opReplCommit (a + 128)).2.slots =
      [(a, { x.key with gen := ((s.kslot a).gen + 1) % 256 })]) ∧
    (∀ x, s.shadow a = some x → x.verified = false → (s.opReplCommit (a + 128)).2.result = 5 ∧
      (s.opReplCommit (a + 128)).1 = 20 ∧ (s.opReplCommit (a + 128)).2.slots = [])) ∧
  (∀ (s : State) (l : List Byte) (i : Nat), (l.length ≤ 4 * i ∨ 1024 ≤ i →
      (s.setKbuf l).r (R.KEY_BUF.reg i) = s.r (R.KEY_BUF.reg i)) ∧
    (∀ x, l[i]? = some x → i < 4096 → (s.setKbuf l).kbuf i 1 = [x]) ∧ (4096 ≤ i → s.kbuf i 1 = [0])) ∧
  (∀ (x : KeyOp) (keep : KeySlot → Bool), (x.strip keep).shadows = [] ∧ (x.strip keep).replaced = none ∧
    (∀ e ∈ (x.strip keep).slots, e ∈ x.slots ∧ (e.2.valid = true → keep e.2 = true)) ∧
    (x.replaced.isSome = true → (x.strip keep).slots = [] ∧ (x.strip keep).result = 6)) ∧
  (∀ s : State, s.keyReset.key.op = s.key.op.map (fun x => x.strip (fun k => !k.eph)) ∧ s.keyReset.key.nonce = false ∧
    ∀ k : Nat, s.keyReset.shadow k = none) ∧
  (∀ s : State, (s.on R.KEY_STATUS.ENTROPY_OK = false → exec .requestNonce s = .next s) ∧
    (s.on R.KEY_STATUS.ENTROPY_OK = true → ∃ t, exec .requestNonce s = .next t ∧ t.key.nonce = true ∧ t.key.slots = s.key.slots) ∧
    (s.key.intent.isSome = true → exec .transition s = .next { s with key := { s.key with nonce := false } }) ∧
    (s.key.intent = none → ∃ t, exec .transition s = .next t ∧ t.key.nonce = false ∧ t.key.state = s.key.state ∧
      (∀ w, s.tokenTest = some w → t.key.intent = none ∧ t.flag E.KEY_EVT.LC_REFUSED = true) ∧
      (s.tokenTest = none → t.on R.KEY_LC_STATUS.TRANSITION = true ∧ ∃ i, t.key.intent = some i ∧
        i.dst = ((s.kbuf 0 84).getD 9 0).toNat ∧ i.hash = sha256 ((s.kbuf 0 84).take 20) ∧ i.committed = false ∧
        ∃ w ∈ t.ledger.writes, w.entry.tag = .intent)) ∧
    (∀ w l i, s.key.intent = some i → s.ledger.writes = w :: l → w.entry.tag = .intent → (∀ x ∈ l, x.entry.tag ≠ .intent) →
      ∃ t, exec .ledgerWriteDone s = .next t ∧ t.key.intent = some { i with committed := true }) ∧
    (∀ i, s.key.intent = some i → i.committed = false → s.lcWarned.key = { s.key with intent := none })) ∧
  (∀ s : State, (s.key.intent = none → exec .transitionComplete s = .next s) ∧ ∀ i, s.key.intent = some i → ∃ t,
    exec .transitionComplete s = .next t ∧ t.key.intent = none ∧ t.key.state = i.dst ∧ t.flag E.KEY_EVT.LC_DONE = true ∧
    t.on R.KEY_LC_STATUS.TRANSITION = false ∧ (i.src ≠ lcBlank →
      ∀ k : Nat, ((s.kslot k).tags.testBit i.dst = false ∨ i.dst = lcRetired) → (i.dst = lcProvisioned → k ≠ 0) →
      t.kslot k = KeySlot.empty) ∧ (i.dst = lcProvisioned → s.key.root.isSome = true → (t.kslot 0).valid = true) ∧
    (i.dst = lcRetired → t.key.root = none) ∧
    t.key.op = s.key.op.map (fun x => x.strip (fun k => i.dst != lcRetired && k.tags.testBit i.dst))) ∧
  (∀ (s : State) (x : BitVec 7), let n := s.tamperSources x.toNat
    (s.lcState ≠ lcService → n = x.toNat) ∧ (n = 0 → s.tampered n = false) ∧
    (n ≠ 0 → n = s.f R.KEY_TAMP_STATUS.NOW → s.tampered n = true) ∧
    (n ≠ 0 → n &&& s.f R.KEY_TAMP_STATUS.NOW ≠ n → s.tampered n = true) ∧
    (n ≠ s.f R.KEY_TAMP_STATUS.NOW → n &&& s.f R.KEY_TAMP_STATUS.NOW = n → s.tampered n = false) ∧
    (s.tampered n = false → exec (.tamper x) s = .next (s.setF R.KEY_TAMP_STATUS.NOW n)) ∧
    (s.tampered n = true → ∃ t, exec (.tamper x) s = .next t ∧ t.on R.KEY_STATUS.ZEROISED = true ∧ t.f R.KEY_TAMP_STATUS.NOW = n ∧
      (∀ k : Nat, t.kslot k = KeySlot.empty) ∧ t.key.root = none ∧ t.key.puf = none ∧
      (s.key.inEvent = true → t.key.fuses = s.key.fuses ∧ t.flag E.KEY_EVT.TAMPER = true ∧
        t.f R.KEY_TAMP_STATUS.CAUSE = (s.f R.KEY_TAMP_STATUS.CAUSE ||| n)) ∧ (s.key.inEvent = false → t.key.inEvent = true ∧
        t.key.fuses = min 16 (s.key.fuses + 1) ∧ t.f R.KEY_TAMP_STATUS.CAUSE = n ∧ t.flag E.KEY_EVT.TAMPER = true))) ∧
  (∀ s : State, ∃ t, exec .zeroiseClear s = .next t ∧ t.key.inEvent = false ∧ t.f R.KEY_TAMP_STATUS.NOW = 0 ∧
    (s.power.inputOk = true → s.on R.KEY_STATUS.ZEROISED = true → t.on R.KEY_STATUS.ZEROISED = false ∧ t.key.root.isSome = true) ∧
    (s.power.inputOk = false → t.on R.KEY_STATUS.ZEROISED = s.on R.KEY_STATUS.ZEROISED ∧ t.key.root = s.key.root)) ∧
  (∀ (s : State) (n : Fin 2), (∃ t, exec (.entropyFail n) s = .next t ∧ t.on R.KEY_STATUS.ENTROPY_OK = false ∧
      t.flag E.KEY_EVT.ENTROPY_FAIL = true) ∧ exec .entropyRecover s = .next (s.setF R.KEY_STATUS.ENTROPY_OK 1))

/-! ## The service port and firmware (chapter 18) -/

/-- R167, R353, R370, R545–R565. The alert numbers of a failed handshake (assumption 40), an unusable slot that answers STATE (155), a
slot's length as the sum of its LENGTHs (92), SCHEDULE again while scheduled (93), the break's item (98), the journal's format after
recovery (181) and the counts of the port's MAC (182) are the model's choices. -/
def Obligations.ServicePort : Prop :=
  (∀ (s : State) (x : Bool), exec (.svcLinkUp x) s =
      .next (((s.setF R.SVC_MAC_STATUS.LINK 1).setF R.SVC_MAC_STATUS.MDIX (b2n x)).raise E.SVC_MAC_EVT.LINK_UP) ∧
    (s.on R.SVC_MAC_STATUS.LINK = false →
      exec .svcLinkDown s = .next ((s.setF R.SVC_MAC_STATUS.LINK 0).raise E.SVC_MAC_EVT.LINK_DOWN)) ∧
    ∃ t, exec .svcLinkDown s = .next t ∧ t.on R.SVC_MAC_STATUS.LINK = false ∧ t.flag E.SVC_MAC_EVT.LINK_DOWN = true ∧
      t.svc = s.svc ∧ ∀ r ∈ macCounters, (s.r r).toNat ≤ (t.r r).toNat) ∧
  (∀ (s : State) (x : BitVec 30), (s.on R.SVC_UART_CFG.EN = false ∨ vote x 0 = true → exec (.uartCharacter x) s = .next s) ∧
    (s.on R.SVC_UART_CFG.EN = true → vote x 0 = false →
      (vote x 9 = true → exec (.uartCharacter x) s =
        .next ((s.setF R.SVC_UART_STATUS.BREAK_NOW 0).quOffer .uartRx [w32 (1 + uartData x * 256)])) ∧
      (vote x 9 = false → exec (.uartCharacter x) s = .next (((s.setF R.SVC_UART_STATUS.BREAK_NOW 0).raise
        E.SVC_UART_EVT.FRAME_ERR).quOffer .uartRx [w32 (1 + uartData x * 256 + 65536)])))) ∧
  (∀ (s : State) (ch : Byte), (s.on R.SVC_UART_CFG.EN = false → exec .uartBreak s = .next s ∧
      ∀ c, exec (.uartTxCharacter c) s = .next (s.setF R.SVC_UART_STATUS.CTS (b2n c))) ∧
    (s.on R.SVC_UART_CFG.EN = true → exec .uartBreak s =
      .next (((s.setF R.SVC_UART_STATUS.BREAK_NOW 1).raise E.SVC_UART_EVT.BREAK).quOffer .uartRx [0x20001])) ∧
    (s.on R.SVC_UART_CFG.EN = true → s.on R.SVC_UART_CFG.CTS_EN = false → (s.q .uartTx).items = [[ch.setWidth 32]] →
      exec (.uartTxCharacter true) s = .next (((((s.setF R.SVC_UART_STATUS.CTS 1).modSvc (fun v =>
        { v with txTill := s.power.opTicks + s.uartTicks })).setQ .uartTx ⟨[], 0⟩).quEval .uartTx).send (.uart ch))) ∧
    (s.on R.SVC_UART_CFG.EN = true → s.on R.SVC_UART_CFG.CTS_EN = false → (s.q .uartTx).items = [] →
      exec (.uartTxCharacter true) s = .next (s.setF R.SVC_UART_STATUS.CTS 1)) ∧
    (s.on R.SVC_UART_CFG.CTS_EN = true → exec (.uartTxCharacter true) s = .next (s.setF R.SVC_UART_STATUS.CTS 1)) ∧
    (s.reaches R.SVC_UART_TXDATA.reg.blk R.SVC_UART_TXDATA.reg.off true = true →
      exec (.uartTxdata ch) s = .next (s.quOffer .uartTx [ch.setWidth 32]))) ∧
  (∀ s : State, s.reaches R.SVC_IMG_CMD.reg.blk R.SVC_IMG_CMD.reg.off true = true →
    let n := s.otherSlot
    let st := (s.imgSlot n).st
    (s.svc.busy ≠ 0 → exec .imgOpen s = .next s ∧ exec .imgWrite s = .next s ∧ exec .imgVerify s = .next s ∧
      exec .schedule s = .next s ∧ exec .force s = .next s ∧ exec .cancel s = .next s ∧ exec .imgAbort s = .next s) ∧
    (s.svc.busy = 0 →
      (s.actPending = false → s.slotStuck n = false → (st = 0 ∨ st = 2 ∨ st = 4) → ∃ t, exec .imgOpen s = .next t ∧
        t.imgSlot n = ⟨[], 0, 1⟩ ∧ t.f R.SVC_IMG_STATUS.RESULT = 0) ∧
      (s.actPending = true ∨ s.slotStuck n = true ∨ st = 1 ∨ st = 3 → exec .imgOpen s = .next (s.imgResult 7)) ∧
      (s.actPending = false → s.slotStuck n = false → (st = 1 ∨ st = 2 ∨ st = 4) → ∃ t, exec .imgAbort s = .next t ∧
        t.imgSlot n = ImgSlot.none ∧
        t.f R.SVC_IMG_STATUS.RESULT = 0) ∧
      (st ≠ 1 → exec .imgWrite s = .next (s.imgResult 7) ∧ exec .imgVerify s = .next (s.imgResult 7)) ∧
      (st = 1 → slotBytes < s.f R.SVC_IMG_OFS.OFS + s.f R.SVC_IMG_LEN.LEN → exec .imgWrite s = .next (s.imgResult 6)) ∧
      (st = 1 → s.f R.SVC_IMG_OFS.OFS + s.f R.SVC_IMG_LEN.LEN ≤ slotBytes → ∃ t, exec .imgWrite s = .next t ∧ t.svc.busy = 2 ∧
        (t.imgSlot n).len = (s.imgSlot n).len + s.f R.SVC_IMG_LEN.LEN ∧ (t.imgSlot n).st = 1) ∧
      (st = 1 → ∃ t, exec .imgVerify s = .next t ∧ t.svc.busy = 3 ∧ t.imgSlot n = s.imgSlot n) ∧
      (st ≠ 2 → exec .schedule s = .next (s.imgResult 7) ∧ exec .force s = .next (s.imgResult 7)) ∧
      (st = 2 → s.svc.act ≠ 3 → exec .force s = .next ((s.imgResult 0).activate true) ∧
        (stampUnits s.actWhen < stampUnits s.now + nsPerS * 65536 → exec .schedule s = .next (s.imgResult 8)) ∧
        (stampUnits s.now + nsPerS * 65536 ≤ stampUnits s.actWhen → stampUnits s.now + farUnits < stampUnits s.actWhen →
          exec .schedule s = .next (s.imgResult 9)) ∧
        (stampUnits s.now + nsPerS * 65536 ≤ stampUnits s.actWhen → stampUnits s.actWhen ≤ stampUnits s.now + farUnits →
          ∃ t, exec .schedule s = .next t ∧ t.svc.act = 1 ∧ t.svc.when_ = s.actWhen ∧ t.f R.SVC_IMG_STATUS.RESULT = 0)) ∧
      (s.actPending = true → ∃ t, exec .cancel s = .next t ∧ t.svc.act = 0 ∧ t.f R.SVC_IMG_STATUS.RESULT = 0) ∧
      (s.actPending = false → exec .cancel s = .next (s.imgResult 7)))) ∧
  (∀ s : State, (s.svc.busy ≠ 2 → exec .imgWriteDone s = .next s) ∧ (s.svc.busy = 2 → ∃ t, exec .imgWriteDone s = .next t ∧
      t.svc.busy = 0 ∧ t.f R.SVC_IMG_STATUS.RESULT = 0) ∧
    (s.svc.busy ≠ 3 → exec .imgVerifyDone s = .next s) ∧ (s.svc.busy = 3 → let r := s.imgCheck (s.imgSlot s.otherSlot) true
      ∃ t, exec .imgVerifyDone s = .next t ∧ t.svc.busy = 0 ∧ t.f R.SVC_IMG_STATUS.RESULT = r ∧
        (t.imgSlot s.otherSlot).st = (if r = 0 then 2 else 4) ∧ (r = 0 → t.flag E.SVC_EVT.VERIFIED = true) ∧
        (r ≠ 0 → t.flag E.SVC_EVT.REFUSED = true))) ∧
  (∀ (s : State) (v : Word), (s.lcState ≠ lcService → s.policyWrite v = s) ∧
    (s.lcState = lcService → (s.policyWrite v).svc.policy = v ∧ (s.policyWrite v).r R.SVC_IMG_POLICY.reg = v)) ∧
  (∀ (s : State) (x : ImgSlot), (x.headOk = true → 1 ≤ x.bodyLen ∧ x.bodyLen ≤ 268435200 ∧ x.len = 256 + x.bodyLen) ∧
    (x.headOk = false → s.imgCheck x true = 1) ∧ (x.headOk = true → x.digestOk = false →
    s.imgCheck x true = 2) ∧
    (x.headOk = true → x.digestOk = true → x.sigOk = false → s.imgCheck x true = 3) ∧
    (x.headOk = true → x.digestOk = true → x.sigOk = true → (s.cosignOk x = false → s.imgCheck x true = 4) ∧
      (s.cosignOk x = true → s.imgCheck x true = if x.epoch < s.svc.secEpoch then 5 else 0))) ∧
  (∀ (s : State) (b : Bool), s.svc.active ≤ 1 → let t := s.activate b
    t.svc.active = 1 - s.svc.active ∧ t.svc.act = 3 ∧ (t.imgSlot (1 - s.svc.active)).st = 3 ∧ (t.imgSlot s.svc.active).st = 2) ∧
  (∀ s : State, s.power.step < 2 → exec .activation s = .next s ∧ exec .actDeferredCheck s = .next s ∧
    exec .actRollback s = .next s) ∧
  (∀ s : State, (2 ≤ s.power.step → s.svc.act = 1 → s.reached s.svc.when_ = true →
      (s.sync = 2 → exec .activation s = .next (s.activate false)) ∧
      (s.sync ≠ 2 → ∃ t, exec .activation s = .next t ∧ t.svc.act = 2 ∧ t.flag E.SVC_EVT.DEFERRED = true ∧
        t.svc.active = s.svc.active)) ∧
    (s.svc.act ≠ 1 ∨ s.reached s.svc.when_ = false → exec .activation s = .next s) ∧
    (2 ≤ s.power.step → s.svc.act = 2 → s.reached (stampAddNs s.svc.when_ 10000000000) = true → s.sync = 2 →
      exec .actDeferredCheck s = .next (s.activate false)) ∧
    (s.svc.act ≠ 2 ∨ s.sync ≠ 2 → exec .actDeferredCheck s = .next s)) ∧
  (∀ (s : State) (v : Word), s.reaches R.SVC_ACT_CONFIRM.reg.blk R.SVC_ACT_CONFIRM.reg.off true = true →
    (v ≠ 0x0000C0F1 ∨ s.svc.act ≠ 3 → exec (.actConfirm v) s = .next s) ∧
    (s.svc.act = 3 → s.svc.fmt = (s.imgSlot s.svc.active).fmt → ∃ t, exec (.actConfirm 0x0000C0F1) s = .next t ∧ t.svc.act = 0 ∧
      t.svc.active = s.svc.active ∧ t.shf = s.shf) ∧
    (s.svc.act = 3 → s.svc.fmt ≠ (s.imgSlot s.svc.active).fmt → ∃ t, exec (.actConfirm 0x0000C0F1) s = .next t ∧
      t.flag E.SVC_EVT.SETTINGS_RESET = true)) ∧
  (∀ s : State, (s.svc.act ≠ 3 → exec .actRollback s = .next s) ∧ (2 ≤ s.power.step → s.svc.act = 3 → s.svc.active ≤ 1 →
    ∃ t, exec .actRollback s = .next t ∧
      t.svc.act = 0 ∧ t.svc.active = 1 - s.svc.active ∧ (t.imgSlot s.svc.active).st = 4 ∧ t.flag E.SVC_EVT.ROLLBACK = true)) ∧
  (∀ (s : State) (l : List Byte), (s.svc.recovery = true → s.svc.commanded = false → exec .recoveryBanner s =
      .next { s with out := s.out ++ banner.map Out.uart }) ∧
    (s.svc.recovery = false ∨ s.svc.commanded = true → exec .recoveryBanner s = .next s) ∧
    (s.svc.recovery = false → exec (.recoveryImage l) s = .next s) ∧
    (∀ n : Nat, n = (if (s.svc.slot0.st = 0 ∨ s.svc.slot0.st = 4) ∧ (s.svc.slot1.st = 0 ∨ s.svc.slot1.st = 4) then 0 else s.otherSlot) →
      let x := ImgSlot.put ⟨[], 0, 1⟩ 0 (l.take 0x10000000)
      (s.imgCheck x true = 0 → (s.recoveryImage l).svc.active = n ∧ (s.recoveryImage l).svc.fmt = x.fmt ∧
        ((s.recoveryImage l).imgSlot n).st = 3) ∧
      (s.imgCheck x true ≠ 0 → (s.recoveryImage l).svc.active = s.svc.active ∧ (s.recoveryImage l).svc.fmt = s.svc.fmt)) ∧
    (s.svc.recovery = true → exec (.recoveryImage l) s = .next (s.recoveryImage l) ∧ exec .recoveryReset s = .next s.recoveryFull) ∧
    (s.power.shutHeld = true → s.power.inputOk = true → exec .recoveryReset s = .next s.recoveryFull) ∧
    (s.svc.recovery = false → (s.power.shutHeld = false ∨ s.power.inputOk = false) → exec .recoveryReset s = .next s) ∧
    s.recoveryFull.power.step = 1 ∧ s.recoveryFull.r R.SYS_RST_CAUSE.reg = (if s.ledger.shutdown = true then 6 else 4)) ∧
  (∀ s : State, (s.power.step ≠ 2 ∨ s.svc.recovery = true → ∀ b, exec (.recovery b) s = .next s) ∧
    (s.power.again = true → exec (.recovery true) s = .next s) ∧
    (s.power.step = 2 → s.svc.recovery = false → s.power.again = false → ∃ t, exec (.recovery true) s = .next t ∧ t.svc.recovery = true ∧
      t.svc.commanded = false ∧ t.power.step = 2 ∧ t.svc.slot0 = s.svc.slot0 ∧ t.svc.slot1 = s.svc.slot1) ∧
    (s.power.step = 2 → s.svc.recovery = false → s.bootable 0 = false → s.bootable 1 = false → ∃ t,
      exec (.recovery false) s = .next t ∧ t.svc.recovery = true ∧ t.svc.commanded = false ∧ t.power.step = 2) ∧
    (s.bootable 0 = true ∨ s.bootable 1 = true → exec (.recovery false) s = .next s)) ∧
  (∀ s : State, s.reaches R.SVC_EFW_CMD.reg.blk R.SVC_EFW_CMD.reg.off true = true →
    (∃ t, exec .efwStart s = .next t ∧ t.svc.ringPass = 0 ∧ t.svc.ringBlock = 0 ∧ t.svc.radPass = 0 ∧ t.svc.radBlock = 0 ∧
      (s.on R.SVC_EFW_CFG.RING = true → 0 < s.f R.SVC_EFW_LEN.LEN → t.f R.SVC_EFW_STATUS.STATE = 1)) ∧
    exec .efwStop s = .next (s.setF R.SVC_EFW_STATUS.STATE 0) ∧
    (∃ t, exec .efwActivate s = .next t ∧ t.hnd = s.hnd ∧ t.svc = s.svc ∧ t.out = s.out) ∧
    ((∀ k, k < 128 → s.ringOn k = false) → exec .efwActivate s = .next s) ∧ (s.fenced = true → exec .efwActivate s = .next s) ∧
    (s.tooFar (s.stampR R.SVC_EFW_WHEN.reg) = true → exec .efwActivate s = .next s) ∧
    (∀ k n : Nat, (List.range 128).filter s.ringOn = [k] → s.fenced = false → s.tooFar (s.stampR R.SVC_EFW_WHEN.reg) = false →
      s.calUsed < 131072 → firstFree s.cal.tab 131072 0 = some n → ∃ t e, exec .efwActivate s = .next t ∧ t.calE n = some e ∧
        e.body = s.ownBody 0x06 euiAll 0 0 (s.r R.SVC_EFW_VERSION.reg) ∧ e.instant = s.stampR R.SVC_EFW_WHEN.reg ∧
        e.hsr = none ∧ e.copies.map (fun c => c.egress) = [.port (s.ringA k), .port (s.ringB k)] ∧
        e.launched = false)) ∧
  (∀ (s : State) (b : Bool), (s.f R.SVC_EFW_STATUS.STATE ≠ 1 → exec (.efwBlockSend b) s = .next s) ∧
    (s.f R.SVC_EFW_STATUS.STATE = 1 → (s.efwRingDone = true → exec (.efwBlockSend false) s = .next s) ∧
      (s.efwRadDone = true → exec (.efwBlockSend true) s = .next s) ∧
      (s.efwRingDone = false → ∃ t, exec (.efwBlockSend false) s = .next t ∧
        (s.svc.ringBlock + 1 < s.efwBlocks 1024 → t.svc.ringBlock = s.svc.ringBlock + 1 ∧ t.svc.ringPass = s.svc.ringPass) ∧
        (s.efwBlocks 1024 ≤ s.svc.ringBlock + 1 → t.svc.ringBlock = 0 ∧ t.svc.ringPass = s.svc.ringPass + 1)) ∧
      (s.efwRadDone = false → ∃ t, exec (.efwBlockSend true) s = .next t ∧
        (s.svc.radBlock + 1 < s.efwBlocks 128 → t.svc.radBlock = s.svc.radBlock + 1 ∧ t.svc.radPass = s.svc.radPass)))) ∧
  (∀ (s : State) (h : Handshake) (l : List Byte), (s.power.step ≠ 5 → exec (.imageService h l) s = .next s) ∧ (s.power.step = 5 →
    (∀ a, s.tlsTest h = .inr a → exec (.imageService h l) s = .next (s.send (.tls false a))) ∧
    (s.tlsTest h = .inl false → exec (.imageService h l) s = .next (s.send (.tls false alertUnknownCa))) ∧
    (s.tlsTest h = .inl true → s.svc.busy = 0 → exec (.imageService h l) s =
      .next (let t := s.imgStream l
             (t.send (.tls true 0)).send (.imageAnswer (leBytes 4 (t.f R.SVC_IMG_STATUS.RESULT) ++
               leBytes 4 (t.imgSlot t.otherSlot).version.toNat))))) ∧
    (∀ c, h.inSubset = true → h.cert = some c → s.anchors 2 c = true → s.tlsTest h = .inl true) ∧
    (h.inSubset = false → s.tlsTest h = .inr (if h.version = 0x0304 then alertHandshake else alertVersion)))

/-! ## The canonical form of the arrays -/

/-- The form itself is the model's; R7, R25 and R36 give the memory, R54 group 0, R199 the database, R336 what a
checkpoint carries. Every command, and every step, keeps both arrays in it: sheaves at their instants, the launch calendar's, frames,
checkpoints, restores, resets and the database's commands among them. -/
def Obligations.CanonicalForm : Prop :=
  (canonical fmemReset State.reset.fmem ∧ canonical fdbDefault State.reset.fab.fdb) ∧
  (∀ (i : Instr) (s : State), canonical fmemReset s.fmem → canonical fdbDefault s.fab.fdb →
    nextHas (exec i s) (fun t => canonical fmemReset t.fmem ∧ canonical fdbDefault t.fab.fdb)) ∧
  (∀ s : State, canonical fmemReset s.fmem → canonical fdbDefault s.fab.fdb →
    nextHas (step s) (fun t => canonical fmemReset t.fmem ∧ canonical fdbDefault t.fab.fdb)) ∧
  (∀ (i : Instr) (s : State), (encodeZhn i).isSome = true → canonical fmemReset s.fmem →
    nextHas (exec i s) (fun t => canonical fmemReset t.fmem)) ∧
  (∀ (a : BitVec 24) (v : Word) (s : State), canonical fmemReset s.fmem →
    nextHas (exec (.fmemWindowWrite a v) s) (fun t => canonical fmemReset t.fmem)) ∧
  (∀ (c : Ckpt) (s : State), canonical fmemReset s.fmem →
    canonical fmemReset (s.fmemFrom c).fmem ∧ canonical fmemReset s.groupZero.fmem) ∧
  (∀ (s : State) (k : Nat) (e : Option FdbEntry) (p : Nat → FdbEntry → Bool), canonical fdbDefault s.fab.fdb →
    canonical fdbDefault (s.setFdb k e).fab.fdb ∧ canonical fdbDefault (s.fdbFlush p).fab.fdb)
end

