-- ==== Sys2Proof/Laws/Bits.lean ====
section
/-! SUPPORT. The laws of bit fields: a field reads what was put in it, and another field of the same word is left alone. -/
namespace Sys2Proof.Machine

theorem getBits_lt (w : Word) (l n : Nat) : getBits w l n < 2 ^ n := Nat.mod_lt _ (Nat.two_pow_pos n)

theorem getBits_testBit (w : Word) (l n i : Nat) : (getBits w l n).testBit i = (decide (i < n) && w.getLsbD (l + i)) := by
  simp [getBits, Nat.testBit_mod_two_pow, Nat.testBit_shiftRight, BitVec.testBit_toNat]

theorem setBits_getLsbD (w : Word) (l n v i : Nat) (h : l + n ≤ 32) :
    (setBits w l n v).getLsbD i = if l ≤ i ∧ i < l + n then v.testBit (i - l) else w.getLsbD i := by
  simp only [setBits, BitVec.getLsbD_or, BitVec.getLsbD_and, BitVec.getLsbD_not, BitVec.getLsbD_shiftLeft,
    BitVec.getLsbD_ofNat, Nat.testBit_two_pow_sub_one, Nat.testBit_mod_two_pow]
  by_cases h1 : l ≤ i ∧ i < l + n
  · have a : i < 32 := by omega
    have b : ¬ i < l := by omega
    have c : i - l < n := by omega
    have e : i - l < 32 := by omega
    simp [h1, a, b, c, e]
  · by_cases a : i < 32
    · by_cases b : i < l
      · simp [h1, a, b]
      · have c : ¬ i - l < n := by omega
        simp [h1, a, b, c]
    · have : w.getLsbD i = false := BitVec.getLsbD_of_ge w i (by omega)
      simp [h1, a, this]

theorem getBits_setBits_same (w : Word) (l n v : Nat) (h : l + n ≤ 32) : getBits (setBits w l n v) l n = v % 2 ^ n := by
  apply Nat.eq_of_testBit_eq
  intro i
  rw [getBits_testBit, setBits_getLsbD _ _ _ _ _ h, Nat.testBit_mod_two_pow]
  by_cases hi : i < n
  · simp [hi]
  · simp [hi]

theorem getBits_setBits_ne (w : Word) (l n v l' n' : Nat) (h : l + n ≤ 32) (d : l + n ≤ l' ∨ l' + n' ≤ l) :
    getBits (setBits w l n v) l' n' = getBits w l' n' := by
  apply Nat.eq_of_testBit_eq
  intro i
  rw [getBits_testBit, getBits_testBit, setBits_getLsbD _ _ _ _ _ h]
  by_cases hi : i < n'
  · have : ¬ (l ≤ l' + i ∧ l' + i < l + n) := by omega
    simp [hi, this]
  · simp [hi]

theorem toSigned_range (n v : Nat) : -(2 ^ (n - 1) : Nat) ≤ toSigned n v ∨ n = 0 := by
  rcases Nat.eq_zero_or_pos n with h | h
  · exact .inr h
  · left
    have e : 2 ^ n = 2 * 2 ^ (n - 1) := by rw [← Nat.pow_succ']; congr; omega
    unfold toSigned; split <;> omega

theorem b2n_le (b : Bool) : b2n b ≤ 1 := by cases b <;> decide

/-- Taking away a bit that is set clears it and no other. -/
theorem sub_two_pow_testBit (n i j : Nat) :
    (n - (if n.testBit i then 2 ^ i else 0)).testBit j = (n.testBit j && decide (j ≠ i)) := by
  by_cases h : n.testBit i = true
  · have hb : n % 2 ^ i < 2 ^ i := Nat.mod_lt _ (Nat.two_pow_pos i)
    have hodd : n / 2 ^ i % 2 = 1 := by
      have := h
      rw [Nat.testBit_eq_decide_div_mod_eq] at this
      simpa using this
    have hn : n = 2 ^ i * (2 * (n / 2 ^ i / 2) + 1) + n % 2 ^ i := by
      have e : 2 * (n / 2 ^ i / 2) + 1 = n / 2 ^ i := by omega
      rw [e]; exact (Nat.div_add_mod n (2 ^ i)).symm
    generalize n % 2 ^ i = b at hn hb
    generalize n / 2 ^ i / 2 = c at hn
    rw [if_pos h]
    have hm : n - 2 ^ i = 2 ^ i * (2 * c) + b := by rw [hn, Nat.mul_add]; omega
    rw [hm, hn, Nat.two_pow_add_eq_or_of_lt hb, Nat.two_pow_add_eq_or_of_lt hb]
    simp only [Nat.testBit_or, Nat.testBit_two_pow_mul]
    by_cases hj : j = i
    · subst hj
      simp [Nat.testBit_lt_two_pow hb]
    · by_cases hl : i ≤ j
      · obtain ⟨k, rfl⟩ : ∃ k, j = i + (k + 1) := ⟨j - i - 1, by omega⟩
        have e1 : i + (k + 1) - i = k + 1 := by omega
        have e2 : (2 * c) / 2 = c := by omega
        have e3 : (2 * c + 1) / 2 = c := by omega
        simp [e1, Nat.testBit_succ, e2, e3]
      · simp [hl, hj]
  · rw [if_neg h, Nat.sub_zero]
    by_cases hj : j = i
    · subst hj; simp [Bool.not_eq_true] at h; simp [h]
    · simp [hj]

theorem or_two_pow_testBit (n i j : Nat) : (n ||| 2 ^ i).testBit j = (n.testBit j || decide (j = i)) := by
  rw [Nat.testBit_or, Nat.testBit_two_pow]
  congr 1
  exact decide_eq_decide.mpr ⟨Eq.symm, Eq.symm⟩

@[simp] theorem leBytes_length (n v : Nat) : (leBytes n v).length = n := by
  induction n generalizing v with
  | zero => rfl
  | succ n ih => simp [leBytes, ih]

@[simp] theorem wordsBytes_length (l : List Word) : (wordsBytes l).length = 4 * l.length := by
  induction l with
  | nil => rfl
  | cons w r ih => simp [wordsBytes, ih]; omega

end Sys2Proof.Machine
end

