-- ==== Sys2Proof/Laws/State.lean ====
section
/-! SUPPORT. What each named update of `State` leaves alone: one lemma for each field and update, so that no later proof unfolds
a record update. -/
namespace Sys2Proof.Machine

/-! `State.wr` -/
@[simp] theorem State.wr_bus (s : State) (b : Blk) (o : Nat) (v : Word) : (s.wr b o v).bus = s.bus := rfl
@[simp] theorem State.wr_fmem (s : State) (b : Blk) (o : Nat) (v : Word) : (s.wr b o v).fmem = s.fmem := rfl
@[simp] theorem State.wr_fe (s : State) (b : Blk) (o : Nat) (v : Word) : (s.wr b o v).fe = s.fe := rfl
@[simp] theorem State.wr_shf (s : State) (b : Blk) (o : Nat) (v : Word) : (s.wr b o v).shf = s.shf := rfl
@[simp] theorem State.wr_hnd (s : State) (b : Blk) (o : Nat) (v : Word) : (s.wr b o v).hnd = s.hnd := rfl
@[simp] theorem State.wr_cal (s : State) (b : Blk) (o : Nat) (v : Word) : (s.wr b o v).cal = s.cal := rfl
@[simp] theorem State.wr_fcp (s : State) (b : Blk) (o : Nat) (v : Word) : (s.wr b o v).fcp = s.fcp := rfl
@[simp] theorem State.wr_storm (s : State) (b : Blk) (o : Nat) (v : Word) : (s.wr b o v).storm = s.storm := rfl
@[simp] theorem State.wr_time (s : State) (b : Blk) (o : Nat) (v : Word) : (s.wr b o v).time = s.time := rfl
@[simp] theorem State.wr_spares (s : State) (b : Blk) (o : Nat) (v : Word) : (s.wr b o v).spares = s.spares := rfl
@[simp] theorem State.wr_pair (s : State) (b : Blk) (o : Nat) (v : Word) : (s.wr b o v).pair = s.pair := rfl
@[simp] theorem State.wr_ledger (s : State) (b : Blk) (o : Nat) (v : Word) : (s.wr b o v).ledger = s.ledger := rfl
@[simp] theorem State.wr_power (s : State) (b : Blk) (o : Nat) (v : Word) : (s.wr b o v).power = s.power := rfl
@[simp] theorem State.wr_ident (s : State) (b : Blk) (o : Nat) (v : Word) : (s.wr b o v).ident = s.ident := rfl
@[simp] theorem State.wr_rcd (s : State) (b : Blk) (o : Nat) (v : Word) : (s.wr b o v).rcd = s.rcd := rfl
@[simp] theorem State.wr_drbg (s : State) (b : Blk) (o : Nat) (v : Word) : (s.wr b o v).drbg = s.drbg := rfl
@[simp] theorem State.wr_fab (s : State) (b : Blk) (o : Nat) (v : Word) : (s.wr b o v).fab = s.fab := rfl
@[simp] theorem State.wr_rings (s : State) (b : Blk) (o : Nat) (v : Word) : (s.wr b o v).rings = s.rings := rfl
@[simp] theorem State.wr_mtr (s : State) (b : Blk) (o : Nat) (v : Word) : (s.wr b o v).mtr = s.mtr := rfl
@[simp] theorem State.wr_rad (s : State) (b : Blk) (o : Nat) (v : Word) : (s.wr b o v).rad = s.rad := rfl
@[simp] theorem State.wr_can (s : State) (b : Blk) (o : Nat) (v : Word) : (s.wr b o v).can = s.can := rfl
@[simp] theorem State.wr_ind (s : State) (b : Blk) (o : Nat) (v : Word) : (s.wr b o v).ind = s.ind := rfl
@[simp] theorem State.wr_rtc (s : State) (b : Blk) (o : Nat) (v : Word) : (s.wr b o v).rtc = s.rtc := rfl
@[simp] theorem State.wr_key (s : State) (b : Blk) (o : Nat) (v : Word) : (s.wr b o v).key = s.key := rfl
@[simp] theorem State.wr_svc (s : State) (b : Blk) (o : Nat) (v : Word) : (s.wr b o v).svc = s.svc := rfl
@[simp] theorem State.wr_out (s : State) (b : Blk) (o : Nat) (v : Word) : (s.wr b o v).out = s.out := rfl
@[simp] theorem State.wr_freeCtr (s : State) (b : Blk) (o : Nat) (v : Word) : (s.wr b o v).freeCtr = s.freeCtr := rfl
@[simp] theorem State.wr_pending (s : State) (b : Blk) (o : Nat) (v : Word) : (s.wr b o v).pending = s.pending := rfl

/-! `State.setF` -/
@[simp] theorem State.setF_bus (s : State) (x : Fld) (v : Nat) : (s.setF x v).bus = s.bus := by simp only [State.setF, State.wr_bus]
@[simp] theorem State.setF_fmem (s : State) (x : Fld) (v : Nat) : (s.setF x v).fmem = s.fmem := by simp only [State.setF, State.wr_fmem]
@[simp] theorem State.setF_fe (s : State) (x : Fld) (v : Nat) : (s.setF x v).fe = s.fe := by simp only [State.setF, State.wr_fe]
@[simp] theorem State.setF_shf (s : State) (x : Fld) (v : Nat) : (s.setF x v).shf = s.shf := by simp only [State.setF, State.wr_shf]
@[simp] theorem State.setF_hnd (s : State) (x : Fld) (v : Nat) : (s.setF x v).hnd = s.hnd := by simp only [State.setF, State.wr_hnd]
@[simp] theorem State.setF_cal (s : State) (x : Fld) (v : Nat) : (s.setF x v).cal = s.cal := by simp only [State.setF, State.wr_cal]
@[simp] theorem State.setF_fcp (s : State) (x : Fld) (v : Nat) : (s.setF x v).fcp = s.fcp := by simp only [State.setF, State.wr_fcp]
@[simp] theorem State.setF_storm (s : State) (x : Fld) (v : Nat) : (s.setF x v).storm = s.storm := by simp only [State.setF, State.wr_storm]
@[simp] theorem State.setF_time (s : State) (x : Fld) (v : Nat) : (s.setF x v).time = s.time := by simp only [State.setF, State.wr_time]
@[simp] theorem State.setF_spares (s : State) (x : Fld) (v : Nat) : (s.setF x v).spares = s.spares := by simp only [State.setF, State.wr_spares]
@[simp] theorem State.setF_pair (s : State) (x : Fld) (v : Nat) : (s.setF x v).pair = s.pair := by simp only [State.setF, State.wr_pair]
@[simp] theorem State.setF_ledger (s : State) (x : Fld) (v : Nat) : (s.setF x v).ledger = s.ledger := by simp only [State.setF, State.wr_ledger]
@[simp] theorem State.setF_power (s : State) (x : Fld) (v : Nat) : (s.setF x v).power = s.power := by simp only [State.setF, State.wr_power]
@[simp] theorem State.setF_ident (s : State) (x : Fld) (v : Nat) : (s.setF x v).ident = s.ident := by simp only [State.setF, State.wr_ident]
@[simp] theorem State.setF_rcd (s : State) (x : Fld) (v : Nat) : (s.setF x v).rcd = s.rcd := by simp only [State.setF, State.wr_rcd]
@[simp] theorem State.setF_drbg (s : State) (x : Fld) (v : Nat) : (s.setF x v).drbg = s.drbg := by simp only [State.setF, State.wr_drbg]
@[simp] theorem State.setF_fab (s : State) (x : Fld) (v : Nat) : (s.setF x v).fab = s.fab := by simp only [State.setF, State.wr_fab]
@[simp] theorem State.setF_rings (s : State) (x : Fld) (v : Nat) : (s.setF x v).rings = s.rings := by simp only [State.setF, State.wr_rings]
@[simp] theorem State.setF_mtr (s : State) (x : Fld) (v : Nat) : (s.setF x v).mtr = s.mtr := by simp only [State.setF, State.wr_mtr]
@[simp] theorem State.setF_rad (s : State) (x : Fld) (v : Nat) : (s.setF x v).rad = s.rad := by simp only [State.setF, State.wr_rad]
@[simp] theorem State.setF_can (s : State) (x : Fld) (v : Nat) : (s.setF x v).can = s.can := by simp only [State.setF, State.wr_can]
@[simp] theorem State.setF_ind (s : State) (x : Fld) (v : Nat) : (s.setF x v).ind = s.ind := by simp only [State.setF, State.wr_ind]
@[simp] theorem State.setF_rtc (s : State) (x : Fld) (v : Nat) : (s.setF x v).rtc = s.rtc := by simp only [State.setF, State.wr_rtc]
@[simp] theorem State.setF_key (s : State) (x : Fld) (v : Nat) : (s.setF x v).key = s.key := by simp only [State.setF, State.wr_key]
@[simp] theorem State.setF_svc (s : State) (x : Fld) (v : Nat) : (s.setF x v).svc = s.svc := by simp only [State.setF, State.wr_svc]
@[simp] theorem State.setF_out (s : State) (x : Fld) (v : Nat) : (s.setF x v).out = s.out := by simp only [State.setF, State.wr_out]
@[simp] theorem State.setF_freeCtr (s : State) (x : Fld) (v : Nat) : (s.setF x v).freeCtr = s.freeCtr := by simp only [State.setF, State.wr_freeCtr]
@[simp] theorem State.setF_pending (s : State) (x : Fld) (v : Nat) : (s.setF x v).pending = s.pending := by simp only [State.setF, State.wr_pending]

/-! `State.setR` -/
@[simp] theorem State.setR_bus (s : State) (x : Reg) (v : Word) : (s.setR x v).bus = s.bus := by simp only [State.setR, State.wr_bus]
@[simp] theorem State.setR_fmem (s : State) (x : Reg) (v : Word) : (s.setR x v).fmem = s.fmem := by simp only [State.setR, State.wr_fmem]
@[simp] theorem State.setR_fe (s : State) (x : Reg) (v : Word) : (s.setR x v).fe = s.fe := by simp only [State.setR, State.wr_fe]
@[simp] theorem State.setR_shf (s : State) (x : Reg) (v : Word) : (s.setR x v).shf = s.shf := by simp only [State.setR, State.wr_shf]
@[simp] theorem State.setR_hnd (s : State) (x : Reg) (v : Word) : (s.setR x v).hnd = s.hnd := by simp only [State.setR, State.wr_hnd]
@[simp] theorem State.setR_cal (s : State) (x : Reg) (v : Word) : (s.setR x v).cal = s.cal := by simp only [State.setR, State.wr_cal]
@[simp] theorem State.setR_fcp (s : State) (x : Reg) (v : Word) : (s.setR x v).fcp = s.fcp := by simp only [State.setR, State.wr_fcp]
@[simp] theorem State.setR_storm (s : State) (x : Reg) (v : Word) : (s.setR x v).storm = s.storm := by simp only [State.setR, State.wr_storm]
@[simp] theorem State.setR_time (s : State) (x : Reg) (v : Word) : (s.setR x v).time = s.time := by simp only [State.setR, State.wr_time]
@[simp] theorem State.setR_spares (s : State) (x : Reg) (v : Word) : (s.setR x v).spares = s.spares := by simp only [State.setR, State.wr_spares]
@[simp] theorem State.setR_pair (s : State) (x : Reg) (v : Word) : (s.setR x v).pair = s.pair := by simp only [State.setR, State.wr_pair]
@[simp] theorem State.setR_ledger (s : State) (x : Reg) (v : Word) : (s.setR x v).ledger = s.ledger := by simp only [State.setR, State.wr_ledger]
@[simp] theorem State.setR_power (s : State) (x : Reg) (v : Word) : (s.setR x v).power = s.power := by simp only [State.setR, State.wr_power]
@[simp] theorem State.setR_ident (s : State) (x : Reg) (v : Word) : (s.setR x v).ident = s.ident := by simp only [State.setR, State.wr_ident]
@[simp] theorem State.setR_rcd (s : State) (x : Reg) (v : Word) : (s.setR x v).rcd = s.rcd := by simp only [State.setR, State.wr_rcd]
@[simp] theorem State.setR_drbg (s : State) (x : Reg) (v : Word) : (s.setR x v).drbg = s.drbg := by simp only [State.setR, State.wr_drbg]
@[simp] theorem State.setR_fab (s : State) (x : Reg) (v : Word) : (s.setR x v).fab = s.fab := by simp only [State.setR, State.wr_fab]
@[simp] theorem State.setR_rings (s : State) (x : Reg) (v : Word) : (s.setR x v).rings = s.rings := by simp only [State.setR, State.wr_rings]
@[simp] theorem State.setR_mtr (s : State) (x : Reg) (v : Word) : (s.setR x v).mtr = s.mtr := by simp only [State.setR, State.wr_mtr]
@[simp] theorem State.setR_rad (s : State) (x : Reg) (v : Word) : (s.setR x v).rad = s.rad := by simp only [State.setR, State.wr_rad]
@[simp] theorem State.setR_can (s : State) (x : Reg) (v : Word) : (s.setR x v).can = s.can := by simp only [State.setR, State.wr_can]
@[simp] theorem State.setR_ind (s : State) (x : Reg) (v : Word) : (s.setR x v).ind = s.ind := by simp only [State.setR, State.wr_ind]
@[simp] theorem State.setR_rtc (s : State) (x : Reg) (v : Word) : (s.setR x v).rtc = s.rtc := by simp only [State.setR, State.wr_rtc]
@[simp] theorem State.setR_key (s : State) (x : Reg) (v : Word) : (s.setR x v).key = s.key := by simp only [State.setR, State.wr_key]
@[simp] theorem State.setR_svc (s : State) (x : Reg) (v : Word) : (s.setR x v).svc = s.svc := by simp only [State.setR, State.wr_svc]
@[simp] theorem State.setR_out (s : State) (x : Reg) (v : Word) : (s.setR x v).out = s.out := by simp only [State.setR, State.wr_out]
@[simp] theorem State.setR_freeCtr (s : State) (x : Reg) (v : Word) : (s.setR x v).freeCtr = s.freeCtr := by simp only [State.setR, State.wr_freeCtr]
@[simp] theorem State.setR_pending (s : State) (x : Reg) (v : Word) : (s.setR x v).pending = s.pending := by simp only [State.setR, State.wr_pending]

/-! `State.setFBit` -/
@[simp] theorem State.setFBit_bus (s : State) (x : Fld) (i : Nat) (v : Bool) : (s.setFBit x i v).bus = s.bus := by simp only [State.setFBit, State.setF_bus]
@[simp] theorem State.setFBit_fmem (s : State) (x : Fld) (i : Nat) (v : Bool) : (s.setFBit x i v).fmem = s.fmem := by simp only [State.setFBit, State.setF_fmem]
@[simp] theorem State.setFBit_fe (s : State) (x : Fld) (i : Nat) (v : Bool) : (s.setFBit x i v).fe = s.fe := by simp only [State.setFBit, State.setF_fe]
@[simp] theorem State.setFBit_shf (s : State) (x : Fld) (i : Nat) (v : Bool) : (s.setFBit x i v).shf = s.shf := by simp only [State.setFBit, State.setF_shf]
@[simp] theorem State.setFBit_hnd (s : State) (x : Fld) (i : Nat) (v : Bool) : (s.setFBit x i v).hnd = s.hnd := by simp only [State.setFBit, State.setF_hnd]
@[simp] theorem State.setFBit_cal (s : State) (x : Fld) (i : Nat) (v : Bool) : (s.setFBit x i v).cal = s.cal := by simp only [State.setFBit, State.setF_cal]
@[simp] theorem State.setFBit_fcp (s : State) (x : Fld) (i : Nat) (v : Bool) : (s.setFBit x i v).fcp = s.fcp := by simp only [State.setFBit, State.setF_fcp]
@[simp] theorem State.setFBit_storm (s : State) (x : Fld) (i : Nat) (v : Bool) : (s.setFBit x i v).storm = s.storm := by simp only [State.setFBit, State.setF_storm]
@[simp] theorem State.setFBit_time (s : State) (x : Fld) (i : Nat) (v : Bool) : (s.setFBit x i v).time = s.time := by simp only [State.setFBit, State.setF_time]
@[simp] theorem State.setFBit_spares (s : State) (x : Fld) (i : Nat) (v : Bool) : (s.setFBit x i v).spares = s.spares := by simp only [State.setFBit, State.setF_spares]
@[simp] theorem State.setFBit_pair (s : State) (x : Fld) (i : Nat) (v : Bool) : (s.setFBit x i v).pair = s.pair := by simp only [State.setFBit, State.setF_pair]
@[simp] theorem State.setFBit_ledger (s : State) (x : Fld) (i : Nat) (v : Bool) : (s.setFBit x i v).ledger = s.ledger := by simp only [State.setFBit, State.setF_ledger]
@[simp] theorem State.setFBit_power (s : State) (x : Fld) (i : Nat) (v : Bool) : (s.setFBit x i v).power = s.power := by simp only [State.setFBit, State.setF_power]
@[simp] theorem State.setFBit_ident (s : State) (x : Fld) (i : Nat) (v : Bool) : (s.setFBit x i v).ident = s.ident := by simp only [State.setFBit, State.setF_ident]
@[simp] theorem State.setFBit_rcd (s : State) (x : Fld) (i : Nat) (v : Bool) : (s.setFBit x i v).rcd = s.rcd := by simp only [State.setFBit, State.setF_rcd]
@[simp] theorem State.setFBit_drbg (s : State) (x : Fld) (i : Nat) (v : Bool) : (s.setFBit x i v).drbg = s.drbg := by simp only [State.setFBit, State.setF_drbg]
@[simp] theorem State.setFBit_fab (s : State) (x : Fld) (i : Nat) (v : Bool) : (s.setFBit x i v).fab = s.fab := by simp only [State.setFBit, State.setF_fab]
@[simp] theorem State.setFBit_rings (s : State) (x : Fld) (i : Nat) (v : Bool) : (s.setFBit x i v).rings = s.rings := by simp only [State.setFBit, State.setF_rings]
@[simp] theorem State.setFBit_mtr (s : State) (x : Fld) (i : Nat) (v : Bool) : (s.setFBit x i v).mtr = s.mtr := by simp only [State.setFBit, State.setF_mtr]
@[simp] theorem State.setFBit_rad (s : State) (x : Fld) (i : Nat) (v : Bool) : (s.setFBit x i v).rad = s.rad := by simp only [State.setFBit, State.setF_rad]
@[simp] theorem State.setFBit_can (s : State) (x : Fld) (i : Nat) (v : Bool) : (s.setFBit x i v).can = s.can := by simp only [State.setFBit, State.setF_can]
@[simp] theorem State.setFBit_ind (s : State) (x : Fld) (i : Nat) (v : Bool) : (s.setFBit x i v).ind = s.ind := by simp only [State.setFBit, State.setF_ind]
@[simp] theorem State.setFBit_rtc (s : State) (x : Fld) (i : Nat) (v : Bool) : (s.setFBit x i v).rtc = s.rtc := by simp only [State.setFBit, State.setF_rtc]
@[simp] theorem State.setFBit_key (s : State) (x : Fld) (i : Nat) (v : Bool) : (s.setFBit x i v).key = s.key := by simp only [State.setFBit, State.setF_key]
@[simp] theorem State.setFBit_svc (s : State) (x : Fld) (i : Nat) (v : Bool) : (s.setFBit x i v).svc = s.svc := by simp only [State.setFBit, State.setF_svc]
@[simp] theorem State.setFBit_out (s : State) (x : Fld) (i : Nat) (v : Bool) : (s.setFBit x i v).out = s.out := by simp only [State.setFBit, State.setF_out]
@[simp] theorem State.setFBit_freeCtr (s : State) (x : Fld) (i : Nat) (v : Bool) : (s.setFBit x i v).freeCtr = s.freeCtr := by simp only [State.setFBit, State.setF_freeCtr]
@[simp] theorem State.setFBit_pending (s : State) (x : Fld) (i : Nat) (v : Bool) : (s.setFBit x i v).pending = s.pending := by simp only [State.setFBit, State.setF_pending]

/-! `State.raise` -/
@[simp] theorem State.raise_bus (s : State) (e : Evt) : (s.raise e).bus = s.bus := by simp only [State.raise, State.setF_bus]
@[simp] theorem State.raise_fmem (s : State) (e : Evt) : (s.raise e).fmem = s.fmem := by simp only [State.raise, State.setF_fmem]
@[simp] theorem State.raise_fe (s : State) (e : Evt) : (s.raise e).fe = s.fe := by simp only [State.raise, State.setF_fe]
@[simp] theorem State.raise_shf (s : State) (e : Evt) : (s.raise e).shf = s.shf := by simp only [State.raise, State.setF_shf]
@[simp] theorem State.raise_hnd (s : State) (e : Evt) : (s.raise e).hnd = s.hnd := by simp only [State.raise, State.setF_hnd]
@[simp] theorem State.raise_cal (s : State) (e : Evt) : (s.raise e).cal = s.cal := by simp only [State.raise, State.setF_cal]
@[simp] theorem State.raise_fcp (s : State) (e : Evt) : (s.raise e).fcp = s.fcp := by simp only [State.raise, State.setF_fcp]
@[simp] theorem State.raise_storm (s : State) (e : Evt) : (s.raise e).storm = s.storm := by simp only [State.raise, State.setF_storm]
@[simp] theorem State.raise_time (s : State) (e : Evt) : (s.raise e).time = s.time := by simp only [State.raise, State.setF_time]
@[simp] theorem State.raise_spares (s : State) (e : Evt) : (s.raise e).spares = s.spares := by simp only [State.raise, State.setF_spares]
@[simp] theorem State.raise_pair (s : State) (e : Evt) : (s.raise e).pair = s.pair := by simp only [State.raise, State.setF_pair]
@[simp] theorem State.raise_ledger (s : State) (e : Evt) : (s.raise e).ledger = s.ledger := by simp only [State.raise, State.setF_ledger]
@[simp] theorem State.raise_power (s : State) (e : Evt) : (s.raise e).power = s.power := by simp only [State.raise, State.setF_power]
@[simp] theorem State.raise_ident (s : State) (e : Evt) : (s.raise e).ident = s.ident := by simp only [State.raise, State.setF_ident]
@[simp] theorem State.raise_rcd (s : State) (e : Evt) : (s.raise e).rcd = s.rcd := by simp only [State.raise, State.setF_rcd]
@[simp] theorem State.raise_drbg (s : State) (e : Evt) : (s.raise e).drbg = s.drbg := by simp only [State.raise, State.setF_drbg]
@[simp] theorem State.raise_fab (s : State) (e : Evt) : (s.raise e).fab = s.fab := by simp only [State.raise, State.setF_fab]
@[simp] theorem State.raise_rings (s : State) (e : Evt) : (s.raise e).rings = s.rings := by simp only [State.raise, State.setF_rings]
@[simp] theorem State.raise_mtr (s : State) (e : Evt) : (s.raise e).mtr = s.mtr := by simp only [State.raise, State.setF_mtr]
@[simp] theorem State.raise_rad (s : State) (e : Evt) : (s.raise e).rad = s.rad := by simp only [State.raise, State.setF_rad]
@[simp] theorem State.raise_can (s : State) (e : Evt) : (s.raise e).can = s.can := by simp only [State.raise, State.setF_can]
@[simp] theorem State.raise_ind (s : State) (e : Evt) : (s.raise e).ind = s.ind := by simp only [State.raise, State.setF_ind]
@[simp] theorem State.raise_rtc (s : State) (e : Evt) : (s.raise e).rtc = s.rtc := by simp only [State.raise, State.setF_rtc]
@[simp] theorem State.raise_key (s : State) (e : Evt) : (s.raise e).key = s.key := by simp only [State.raise, State.setF_key]
@[simp] theorem State.raise_svc (s : State) (e : Evt) : (s.raise e).svc = s.svc := by simp only [State.raise, State.setF_svc]
@[simp] theorem State.raise_out (s : State) (e : Evt) : (s.raise e).out = s.out := by simp only [State.raise, State.setF_out]
@[simp] theorem State.raise_freeCtr (s : State) (e : Evt) : (s.raise e).freeCtr = s.freeCtr := by simp only [State.raise, State.setF_freeCtr]
@[simp] theorem State.raise_pending (s : State) (e : Evt) : (s.raise e).pending = s.pending := by simp only [State.raise, State.setF_pending]

/-! `State.count` -/
@[simp] theorem State.count_bus (s : State) (x : Fld) : (s.count x).bus = s.bus := by simp only [State.count, State.setF_bus]
@[simp] theorem State.count_fmem (s : State) (x : Fld) : (s.count x).fmem = s.fmem := by simp only [State.count, State.setF_fmem]
@[simp] theorem State.count_fe (s : State) (x : Fld) : (s.count x).fe = s.fe := by simp only [State.count, State.setF_fe]
@[simp] theorem State.count_shf (s : State) (x : Fld) : (s.count x).shf = s.shf := by simp only [State.count, State.setF_shf]
@[simp] theorem State.count_hnd (s : State) (x : Fld) : (s.count x).hnd = s.hnd := by simp only [State.count, State.setF_hnd]
@[simp] theorem State.count_cal (s : State) (x : Fld) : (s.count x).cal = s.cal := by simp only [State.count, State.setF_cal]
@[simp] theorem State.count_fcp (s : State) (x : Fld) : (s.count x).fcp = s.fcp := by simp only [State.count, State.setF_fcp]
@[simp] theorem State.count_storm (s : State) (x : Fld) : (s.count x).storm = s.storm := by simp only [State.count, State.setF_storm]
@[simp] theorem State.count_time (s : State) (x : Fld) : (s.count x).time = s.time := by simp only [State.count, State.setF_time]
@[simp] theorem State.count_spares (s : State) (x : Fld) : (s.count x).spares = s.spares := by simp only [State.count, State.setF_spares]
@[simp] theorem State.count_pair (s : State) (x : Fld) : (s.count x).pair = s.pair := by simp only [State.count, State.setF_pair]
@[simp] theorem State.count_ledger (s : State) (x : Fld) : (s.count x).ledger = s.ledger := by simp only [State.count, State.setF_ledger]
@[simp] theorem State.count_power (s : State) (x : Fld) : (s.count x).power = s.power := by simp only [State.count, State.setF_power]
@[simp] theorem State.count_ident (s : State) (x : Fld) : (s.count x).ident = s.ident := by simp only [State.count, State.setF_ident]
@[simp] theorem State.count_rcd (s : State) (x : Fld) : (s.count x).rcd = s.rcd := by simp only [State.count, State.setF_rcd]
@[simp] theorem State.count_drbg (s : State) (x : Fld) : (s.count x).drbg = s.drbg := by simp only [State.count, State.setF_drbg]
@[simp] theorem State.count_fab (s : State) (x : Fld) : (s.count x).fab = s.fab := by simp only [State.count, State.setF_fab]
@[simp] theorem State.count_rings (s : State) (x : Fld) : (s.count x).rings = s.rings := by simp only [State.count, State.setF_rings]
@[simp] theorem State.count_mtr (s : State) (x : Fld) : (s.count x).mtr = s.mtr := by simp only [State.count, State.setF_mtr]
@[simp] theorem State.count_rad (s : State) (x : Fld) : (s.count x).rad = s.rad := by simp only [State.count, State.setF_rad]
@[simp] theorem State.count_can (s : State) (x : Fld) : (s.count x).can = s.can := by simp only [State.count, State.setF_can]
@[simp] theorem State.count_ind (s : State) (x : Fld) : (s.count x).ind = s.ind := by simp only [State.count, State.setF_ind]
@[simp] theorem State.count_rtc (s : State) (x : Fld) : (s.count x).rtc = s.rtc := by simp only [State.count, State.setF_rtc]
@[simp] theorem State.count_key (s : State) (x : Fld) : (s.count x).key = s.key := by simp only [State.count, State.setF_key]
@[simp] theorem State.count_svc (s : State) (x : Fld) : (s.count x).svc = s.svc := by simp only [State.count, State.setF_svc]
@[simp] theorem State.count_out (s : State) (x : Fld) : (s.count x).out = s.out := by simp only [State.count, State.setF_out]
@[simp] theorem State.count_freeCtr (s : State) (x : Fld) : (s.count x).freeCtr = s.freeCtr := by simp only [State.count, State.setF_freeCtr]
@[simp] theorem State.count_pending (s : State) (x : Fld) : (s.count x).pending = s.pending := by simp only [State.count, State.setF_pending]

/-! `State.setPairR` -/
@[simp] theorem State.setPairR_bus (s : State) (x y : Reg) (v : Nat) : (s.setPairR x y v).bus = s.bus := by simp only [State.setPairR, State.setR_bus]
@[simp] theorem State.setPairR_fmem (s : State) (x y : Reg) (v : Nat) : (s.setPairR x y v).fmem = s.fmem := by simp only [State.setPairR, State.setR_fmem]
@[simp] theorem State.setPairR_fe (s : State) (x y : Reg) (v : Nat) : (s.setPairR x y v).fe = s.fe := by simp only [State.setPairR, State.setR_fe]
@[simp] theorem State.setPairR_shf (s : State) (x y : Reg) (v : Nat) : (s.setPairR x y v).shf = s.shf := by simp only [State.setPairR, State.setR_shf]
@[simp] theorem State.setPairR_hnd (s : State) (x y : Reg) (v : Nat) : (s.setPairR x y v).hnd = s.hnd := by simp only [State.setPairR, State.setR_hnd]
@[simp] theorem State.setPairR_cal (s : State) (x y : Reg) (v : Nat) : (s.setPairR x y v).cal = s.cal := by simp only [State.setPairR, State.setR_cal]
@[simp] theorem State.setPairR_fcp (s : State) (x y : Reg) (v : Nat) : (s.setPairR x y v).fcp = s.fcp := by simp only [State.setPairR, State.setR_fcp]
@[simp] theorem State.setPairR_storm (s : State) (x y : Reg) (v : Nat) : (s.setPairR x y v).storm = s.storm := by simp only [State.setPairR, State.setR_storm]
@[simp] theorem State.setPairR_time (s : State) (x y : Reg) (v : Nat) : (s.setPairR x y v).time = s.time := by simp only [State.setPairR, State.setR_time]
@[simp] theorem State.setPairR_spares (s : State) (x y : Reg) (v : Nat) : (s.setPairR x y v).spares = s.spares := by simp only [State.setPairR, State.setR_spares]
@[simp] theorem State.setPairR_pair (s : State) (x y : Reg) (v : Nat) : (s.setPairR x y v).pair = s.pair := by simp only [State.setPairR, State.setR_pair]
@[simp] theorem State.setPairR_ledger (s : State) (x y : Reg) (v : Nat) : (s.setPairR x y v).ledger = s.ledger := by simp only [State.setPairR, State.setR_ledger]
@[simp] theorem State.setPairR_power (s : State) (x y : Reg) (v : Nat) : (s.setPairR x y v).power = s.power := by simp only [State.setPairR, State.setR_power]
@[simp] theorem State.setPairR_ident (s : State) (x y : Reg) (v : Nat) : (s.setPairR x y v).ident = s.ident := by simp only [State.setPairR, State.setR_ident]
@[simp] theorem State.setPairR_rcd (s : State) (x y : Reg) (v : Nat) : (s.setPairR x y v).rcd = s.rcd := by simp only [State.setPairR, State.setR_rcd]
@[simp] theorem State.setPairR_drbg (s : State) (x y : Reg) (v : Nat) : (s.setPairR x y v).drbg = s.drbg := by simp only [State.setPairR, State.setR_drbg]
@[simp] theorem State.setPairR_fab (s : State) (x y : Reg) (v : Nat) : (s.setPairR x y v).fab = s.fab := by simp only [State.setPairR, State.setR_fab]
@[simp] theorem State.setPairR_rings (s : State) (x y : Reg) (v : Nat) : (s.setPairR x y v).rings = s.rings := by simp only [State.setPairR, State.setR_rings]
@[simp] theorem State.setPairR_mtr (s : State) (x y : Reg) (v : Nat) : (s.setPairR x y v).mtr = s.mtr := by simp only [State.setPairR, State.setR_mtr]
@[simp] theorem State.setPairR_rad (s : State) (x y : Reg) (v : Nat) : (s.setPairR x y v).rad = s.rad := by simp only [State.setPairR, State.setR_rad]
@[simp] theorem State.setPairR_can (s : State) (x y : Reg) (v : Nat) : (s.setPairR x y v).can = s.can := by simp only [State.setPairR, State.setR_can]
@[simp] theorem State.setPairR_ind (s : State) (x y : Reg) (v : Nat) : (s.setPairR x y v).ind = s.ind := by simp only [State.setPairR, State.setR_ind]
@[simp] theorem State.setPairR_rtc (s : State) (x y : Reg) (v : Nat) : (s.setPairR x y v).rtc = s.rtc := by simp only [State.setPairR, State.setR_rtc]
@[simp] theorem State.setPairR_key (s : State) (x y : Reg) (v : Nat) : (s.setPairR x y v).key = s.key := by simp only [State.setPairR, State.setR_key]
@[simp] theorem State.setPairR_svc (s : State) (x y : Reg) (v : Nat) : (s.setPairR x y v).svc = s.svc := by simp only [State.setPairR, State.setR_svc]
@[simp] theorem State.setPairR_out (s : State) (x y : Reg) (v : Nat) : (s.setPairR x y v).out = s.out := by simp only [State.setPairR, State.setR_out]
@[simp] theorem State.setPairR_freeCtr (s : State) (x y : Reg) (v : Nat) : (s.setPairR x y v).freeCtr = s.freeCtr := by simp only [State.setPairR, State.setR_freeCtr]
@[simp] theorem State.setPairR_pending (s : State) (x y : Reg) (v : Nat) : (s.setPairR x y v).pending = s.pending := by simp only [State.setPairR, State.setR_pending]

/-! `State.addPair` -/
@[simp] theorem State.addPair_bus (s : State) (x y : Reg) (v : Nat) : (s.addPair x y v).bus = s.bus := by simp only [State.addPair, State.setPairR_bus]
@[simp] theorem State.addPair_fmem (s : State) (x y : Reg) (v : Nat) : (s.addPair x y v).fmem = s.fmem := by simp only [State.addPair, State.setPairR_fmem]
@[simp] theorem State.addPair_fe (s : State) (x y : Reg) (v : Nat) : (s.addPair x y v).fe = s.fe := by simp only [State.addPair, State.setPairR_fe]
@[simp] theorem State.addPair_shf (s : State) (x y : Reg) (v : Nat) : (s.addPair x y v).shf = s.shf := by simp only [State.addPair, State.setPairR_shf]
@[simp] theorem State.addPair_hnd (s : State) (x y : Reg) (v : Nat) : (s.addPair x y v).hnd = s.hnd := by simp only [State.addPair, State.setPairR_hnd]
@[simp] theorem State.addPair_cal (s : State) (x y : Reg) (v : Nat) : (s.addPair x y v).cal = s.cal := by simp only [State.addPair, State.setPairR_cal]
@[simp] theorem State.addPair_fcp (s : State) (x y : Reg) (v : Nat) : (s.addPair x y v).fcp = s.fcp := by simp only [State.addPair, State.setPairR_fcp]
@[simp] theorem State.addPair_storm (s : State) (x y : Reg) (v : Nat) : (s.addPair x y v).storm = s.storm := by simp only [State.addPair, State.setPairR_storm]
@[simp] theorem State.addPair_time (s : State) (x y : Reg) (v : Nat) : (s.addPair x y v).time = s.time := by simp only [State.addPair, State.setPairR_time]
@[simp] theorem State.addPair_spares (s : State) (x y : Reg) (v : Nat) : (s.addPair x y v).spares = s.spares := by simp only [State.addPair, State.setPairR_spares]
@[simp] theorem State.addPair_pair (s : State) (x y : Reg) (v : Nat) : (s.addPair x y v).pair = s.pair := by simp only [State.addPair, State.setPairR_pair]
@[simp] theorem State.addPair_ledger (s : State) (x y : Reg) (v : Nat) : (s.addPair x y v).ledger = s.ledger := by simp only [State.addPair, State.setPairR_ledger]
@[simp] theorem State.addPair_power (s : State) (x y : Reg) (v : Nat) : (s.addPair x y v).power = s.power := by simp only [State.addPair, State.setPairR_power]
@[simp] theorem State.addPair_ident (s : State) (x y : Reg) (v : Nat) : (s.addPair x y v).ident = s.ident := by simp only [State.addPair, State.setPairR_ident]
@[simp] theorem State.addPair_rcd (s : State) (x y : Reg) (v : Nat) : (s.addPair x y v).rcd = s.rcd := by simp only [State.addPair, State.setPairR_rcd]
@[simp] theorem State.addPair_drbg (s : State) (x y : Reg) (v : Nat) : (s.addPair x y v).drbg = s.drbg := by simp only [State.addPair, State.setPairR_drbg]
@[simp] theorem State.addPair_fab (s : State) (x y : Reg) (v : Nat) : (s.addPair x y v).fab = s.fab := by simp only [State.addPair, State.setPairR_fab]
@[simp] theorem State.addPair_rings (s : State) (x y : Reg) (v : Nat) : (s.addPair x y v).rings = s.rings := by simp only [State.addPair, State.setPairR_rings]
@[simp] theorem State.addPair_mtr (s : State) (x y : Reg) (v : Nat) : (s.addPair x y v).mtr = s.mtr := by simp only [State.addPair, State.setPairR_mtr]
@[simp] theorem State.addPair_rad (s : State) (x y : Reg) (v : Nat) : (s.addPair x y v).rad = s.rad := by simp only [State.addPair, State.setPairR_rad]
@[simp] theorem State.addPair_can (s : State) (x y : Reg) (v : Nat) : (s.addPair x y v).can = s.can := by simp only [State.addPair, State.setPairR_can]
@[simp] theorem State.addPair_ind (s : State) (x y : Reg) (v : Nat) : (s.addPair x y v).ind = s.ind := by simp only [State.addPair, State.setPairR_ind]
@[simp] theorem State.addPair_rtc (s : State) (x y : Reg) (v : Nat) : (s.addPair x y v).rtc = s.rtc := by simp only [State.addPair, State.setPairR_rtc]
@[simp] theorem State.addPair_key (s : State) (x y : Reg) (v : Nat) : (s.addPair x y v).key = s.key := by simp only [State.addPair, State.setPairR_key]
@[simp] theorem State.addPair_svc (s : State) (x y : Reg) (v : Nat) : (s.addPair x y v).svc = s.svc := by simp only [State.addPair, State.setPairR_svc]
@[simp] theorem State.addPair_out (s : State) (x y : Reg) (v : Nat) : (s.addPair x y v).out = s.out := by simp only [State.addPair, State.setPairR_out]
@[simp] theorem State.addPair_freeCtr (s : State) (x y : Reg) (v : Nat) : (s.addPair x y v).freeCtr = s.freeCtr := by simp only [State.addPair, State.setPairR_freeCtr]
@[simp] theorem State.addPair_pending (s : State) (x y : Reg) (v : Nat) : (s.addPair x y v).pending = s.pending := by simp only [State.addPair, State.setPairR_pending]

/-! `State.setStampR` -/
@[simp] theorem State.setStampR_bus (s : State) (x : Nat → Reg) (t : Stamp) : (s.setStampR x t).bus = s.bus := by simp only [State.setStampR, State.setR_bus]
@[simp] theorem State.setStampR_fmem (s : State) (x : Nat → Reg) (t : Stamp) : (s.setStampR x t).fmem = s.fmem := by simp only [State.setStampR, State.setR_fmem]
@[simp] theorem State.setStampR_fe (s : State) (x : Nat → Reg) (t : Stamp) : (s.setStampR x t).fe = s.fe := by simp only [State.setStampR, State.setR_fe]
@[simp] theorem State.setStampR_shf (s : State) (x : Nat → Reg) (t : Stamp) : (s.setStampR x t).shf = s.shf := by simp only [State.setStampR, State.setR_shf]
@[simp] theorem State.setStampR_hnd (s : State) (x : Nat → Reg) (t : Stamp) : (s.setStampR x t).hnd = s.hnd := by simp only [State.setStampR, State.setR_hnd]
@[simp] theorem State.setStampR_cal (s : State) (x : Nat → Reg) (t : Stamp) : (s.setStampR x t).cal = s.cal := by simp only [State.setStampR, State.setR_cal]
@[simp] theorem State.setStampR_fcp (s : State) (x : Nat → Reg) (t : Stamp) : (s.setStampR x t).fcp = s.fcp := by simp only [State.setStampR, State.setR_fcp]
@[simp] theorem State.setStampR_storm (s : State) (x : Nat → Reg) (t : Stamp) : (s.setStampR x t).storm = s.storm := by simp only [State.setStampR, State.setR_storm]
@[simp] theorem State.setStampR_time (s : State) (x : Nat → Reg) (t : Stamp) : (s.setStampR x t).time = s.time := by simp only [State.setStampR, State.setR_time]
@[simp] theorem State.setStampR_spares (s : State) (x : Nat → Reg) (t : Stamp) : (s.setStampR x t).spares = s.spares := by simp only [State.setStampR, State.setR_spares]
@[simp] theorem State.setStampR_pair (s : State) (x : Nat → Reg) (t : Stamp) : (s.setStampR x t).pair = s.pair := by simp only [State.setStampR, State.setR_pair]
@[simp] theorem State.setStampR_ledger (s : State) (x : Nat → Reg) (t : Stamp) : (s.setStampR x t).ledger = s.ledger := by simp only [State.setStampR, State.setR_ledger]
@[simp] theorem State.setStampR_power (s : State) (x : Nat → Reg) (t : Stamp) : (s.setStampR x t).power = s.power := by simp only [State.setStampR, State.setR_power]
@[simp] theorem State.setStampR_ident (s : State) (x : Nat → Reg) (t : Stamp) : (s.setStampR x t).ident = s.ident := by simp only [State.setStampR, State.setR_ident]
@[simp] theorem State.setStampR_rcd (s : State) (x : Nat → Reg) (t : Stamp) : (s.setStampR x t).rcd = s.rcd := by simp only [State.setStampR, State.setR_rcd]
@[simp] theorem State.setStampR_drbg (s : State) (x : Nat → Reg) (t : Stamp) : (s.setStampR x t).drbg = s.drbg := by simp only [State.setStampR, State.setR_drbg]
@[simp] theorem State.setStampR_fab (s : State) (x : Nat → Reg) (t : Stamp) : (s.setStampR x t).fab = s.fab := by simp only [State.setStampR, State.setR_fab]
@[simp] theorem State.setStampR_rings (s : State) (x : Nat → Reg) (t : Stamp) : (s.setStampR x t).rings = s.rings := by simp only [State.setStampR, State.setR_rings]
@[simp] theorem State.setStampR_mtr (s : State) (x : Nat → Reg) (t : Stamp) : (s.setStampR x t).mtr = s.mtr := by simp only [State.setStampR, State.setR_mtr]
@[simp] theorem State.setStampR_rad (s : State) (x : Nat → Reg) (t : Stamp) : (s.setStampR x t).rad = s.rad := by simp only [State.setStampR, State.setR_rad]
@[simp] theorem State.setStampR_can (s : State) (x : Nat → Reg) (t : Stamp) : (s.setStampR x t).can = s.can := by simp only [State.setStampR, State.setR_can]
@[simp] theorem State.setStampR_ind (s : State) (x : Nat → Reg) (t : Stamp) : (s.setStampR x t).ind = s.ind := by simp only [State.setStampR, State.setR_ind]
@[simp] theorem State.setStampR_rtc (s : State) (x : Nat → Reg) (t : Stamp) : (s.setStampR x t).rtc = s.rtc := by simp only [State.setStampR, State.setR_rtc]
@[simp] theorem State.setStampR_key (s : State) (x : Nat → Reg) (t : Stamp) : (s.setStampR x t).key = s.key := by simp only [State.setStampR, State.setR_key]
@[simp] theorem State.setStampR_svc (s : State) (x : Nat → Reg) (t : Stamp) : (s.setStampR x t).svc = s.svc := by simp only [State.setStampR, State.setR_svc]
@[simp] theorem State.setStampR_out (s : State) (x : Nat → Reg) (t : Stamp) : (s.setStampR x t).out = s.out := by simp only [State.setStampR, State.setR_out]
@[simp] theorem State.setStampR_freeCtr (s : State) (x : Nat → Reg) (t : Stamp) : (s.setStampR x t).freeCtr = s.freeCtr := by simp only [State.setStampR, State.setR_freeCtr]
@[simp] theorem State.setStampR_pending (s : State) (x : Nat → Reg) (t : Stamp) : (s.setStampR x t).pending = s.pending := by simp only [State.setStampR, State.setR_pending]

/-! `State.setDomain` -/
@[simp] theorem State.setDomain_bus (s : State) (d : Nat) (v : Bool) : (s.setDomain d v).bus = s.bus := by simp only [State.setDomain, State.setFBit_bus]
@[simp] theorem State.setDomain_fmem (s : State) (d : Nat) (v : Bool) : (s.setDomain d v).fmem = s.fmem := by simp only [State.setDomain, State.setFBit_fmem]
@[simp] theorem State.setDomain_fe (s : State) (d : Nat) (v : Bool) : (s.setDomain d v).fe = s.fe := by simp only [State.setDomain, State.setFBit_fe]
@[simp] theorem State.setDomain_shf (s : State) (d : Nat) (v : Bool) : (s.setDomain d v).shf = s.shf := by simp only [State.setDomain, State.setFBit_shf]
@[simp] theorem State.setDomain_hnd (s : State) (d : Nat) (v : Bool) : (s.setDomain d v).hnd = s.hnd := by simp only [State.setDomain, State.setFBit_hnd]
@[simp] theorem State.setDomain_cal (s : State) (d : Nat) (v : Bool) : (s.setDomain d v).cal = s.cal := by simp only [State.setDomain, State.setFBit_cal]
@[simp] theorem State.setDomain_fcp (s : State) (d : Nat) (v : Bool) : (s.setDomain d v).fcp = s.fcp := by simp only [State.setDomain, State.setFBit_fcp]
@[simp] theorem State.setDomain_storm (s : State) (d : Nat) (v : Bool) : (s.setDomain d v).storm = s.storm := by simp only [State.setDomain, State.setFBit_storm]
@[simp] theorem State.setDomain_time (s : State) (d : Nat) (v : Bool) : (s.setDomain d v).time = s.time := by simp only [State.setDomain, State.setFBit_time]
@[simp] theorem State.setDomain_spares (s : State) (d : Nat) (v : Bool) : (s.setDomain d v).spares = s.spares := by simp only [State.setDomain, State.setFBit_spares]
@[simp] theorem State.setDomain_pair (s : State) (d : Nat) (v : Bool) : (s.setDomain d v).pair = s.pair := by simp only [State.setDomain, State.setFBit_pair]
@[simp] theorem State.setDomain_ledger (s : State) (d : Nat) (v : Bool) : (s.setDomain d v).ledger = s.ledger := by simp only [State.setDomain, State.setFBit_ledger]
@[simp] theorem State.setDomain_power (s : State) (d : Nat) (v : Bool) : (s.setDomain d v).power = s.power := by simp only [State.setDomain, State.setFBit_power]
@[simp] theorem State.setDomain_ident (s : State) (d : Nat) (v : Bool) : (s.setDomain d v).ident = s.ident := by simp only [State.setDomain, State.setFBit_ident]
@[simp] theorem State.setDomain_rcd (s : State) (d : Nat) (v : Bool) : (s.setDomain d v).rcd = s.rcd := by simp only [State.setDomain, State.setFBit_rcd]
@[simp] theorem State.setDomain_drbg (s : State) (d : Nat) (v : Bool) : (s.setDomain d v).drbg = s.drbg := by simp only [State.setDomain, State.setFBit_drbg]
@[simp] theorem State.setDomain_fab (s : State) (d : Nat) (v : Bool) : (s.setDomain d v).fab = s.fab := by simp only [State.setDomain, State.setFBit_fab]
@[simp] theorem State.setDomain_rings (s : State) (d : Nat) (v : Bool) : (s.setDomain d v).rings = s.rings := by simp only [State.setDomain, State.setFBit_rings]
@[simp] theorem State.setDomain_mtr (s : State) (d : Nat) (v : Bool) : (s.setDomain d v).mtr = s.mtr := by simp only [State.setDomain, State.setFBit_mtr]
@[simp] theorem State.setDomain_rad (s : State) (d : Nat) (v : Bool) : (s.setDomain d v).rad = s.rad := by simp only [State.setDomain, State.setFBit_rad]
@[simp] theorem State.setDomain_can (s : State) (d : Nat) (v : Bool) : (s.setDomain d v).can = s.can := by simp only [State.setDomain, State.setFBit_can]
@[simp] theorem State.setDomain_ind (s : State) (d : Nat) (v : Bool) : (s.setDomain d v).ind = s.ind := by simp only [State.setDomain, State.setFBit_ind]
@[simp] theorem State.setDomain_rtc (s : State) (d : Nat) (v : Bool) : (s.setDomain d v).rtc = s.rtc := by simp only [State.setDomain, State.setFBit_rtc]
@[simp] theorem State.setDomain_key (s : State) (d : Nat) (v : Bool) : (s.setDomain d v).key = s.key := by simp only [State.setDomain, State.setFBit_key]
@[simp] theorem State.setDomain_svc (s : State) (d : Nat) (v : Bool) : (s.setDomain d v).svc = s.svc := by simp only [State.setDomain, State.setFBit_svc]
@[simp] theorem State.setDomain_out (s : State) (d : Nat) (v : Bool) : (s.setDomain d v).out = s.out := by simp only [State.setDomain, State.setFBit_out]
@[simp] theorem State.setDomain_freeCtr (s : State) (d : Nat) (v : Bool) : (s.setDomain d v).freeCtr = s.freeCtr := by simp only [State.setDomain, State.setFBit_freeCtr]
@[simp] theorem State.setDomain_pending (s : State) (d : Nat) (v : Bool) : (s.setDomain d v).pending = s.pending := by simp only [State.setDomain, State.setFBit_pending]

/-! `State.setPhys` -/
@[simp] theorem State.setPhys_bus (s : State) (l p : Nat) : (s.setPhys l p).bus = s.bus := by simp only [State.setPhys, State.setR_bus]
@[simp] theorem State.setPhys_fmem (s : State) (l p : Nat) : (s.setPhys l p).fmem = s.fmem := by simp only [State.setPhys, State.setR_fmem]
@[simp] theorem State.setPhys_fe (s : State) (l p : Nat) : (s.setPhys l p).fe = s.fe := by simp only [State.setPhys, State.setR_fe]
@[simp] theorem State.setPhys_shf (s : State) (l p : Nat) : (s.setPhys l p).shf = s.shf := by simp only [State.setPhys, State.setR_shf]
@[simp] theorem State.setPhys_hnd (s : State) (l p : Nat) : (s.setPhys l p).hnd = s.hnd := by simp only [State.setPhys, State.setR_hnd]
@[simp] theorem State.setPhys_cal (s : State) (l p : Nat) : (s.setPhys l p).cal = s.cal := by simp only [State.setPhys, State.setR_cal]
@[simp] theorem State.setPhys_fcp (s : State) (l p : Nat) : (s.setPhys l p).fcp = s.fcp := by simp only [State.setPhys, State.setR_fcp]
@[simp] theorem State.setPhys_storm (s : State) (l p : Nat) : (s.setPhys l p).storm = s.storm := by simp only [State.setPhys, State.setR_storm]
@[simp] theorem State.setPhys_time (s : State) (l p : Nat) : (s.setPhys l p).time = s.time := by simp only [State.setPhys, State.setR_time]
@[simp] theorem State.setPhys_spares (s : State) (l p : Nat) : (s.setPhys l p).spares = s.spares := by simp only [State.setPhys, State.setR_spares]
@[simp] theorem State.setPhys_pair (s : State) (l p : Nat) : (s.setPhys l p).pair = s.pair := by simp only [State.setPhys, State.setR_pair]
@[simp] theorem State.setPhys_ledger (s : State) (l p : Nat) : (s.setPhys l p).ledger = s.ledger := by simp only [State.setPhys, State.setR_ledger]
@[simp] theorem State.setPhys_power (s : State) (l p : Nat) : (s.setPhys l p).power = s.power := by simp only [State.setPhys, State.setR_power]
@[simp] theorem State.setPhys_ident (s : State) (l p : Nat) : (s.setPhys l p).ident = s.ident := by simp only [State.setPhys, State.setR_ident]
@[simp] theorem State.setPhys_rcd (s : State) (l p : Nat) : (s.setPhys l p).rcd = s.rcd := by simp only [State.setPhys, State.setR_rcd]
@[simp] theorem State.setPhys_drbg (s : State) (l p : Nat) : (s.setPhys l p).drbg = s.drbg := by simp only [State.setPhys, State.setR_drbg]
@[simp] theorem State.setPhys_fab (s : State) (l p : Nat) : (s.setPhys l p).fab = s.fab := by simp only [State.setPhys, State.setR_fab]
@[simp] theorem State.setPhys_rings (s : State) (l p : Nat) : (s.setPhys l p).rings = s.rings := by simp only [State.setPhys, State.setR_rings]
@[simp] theorem State.setPhys_mtr (s : State) (l p : Nat) : (s.setPhys l p).mtr = s.mtr := by simp only [State.setPhys, State.setR_mtr]
@[simp] theorem State.setPhys_rad (s : State) (l p : Nat) : (s.setPhys l p).rad = s.rad := by simp only [State.setPhys, State.setR_rad]
@[simp] theorem State.setPhys_can (s : State) (l p : Nat) : (s.setPhys l p).can = s.can := by simp only [State.setPhys, State.setR_can]
@[simp] theorem State.setPhys_ind (s : State) (l p : Nat) : (s.setPhys l p).ind = s.ind := by simp only [State.setPhys, State.setR_ind]
@[simp] theorem State.setPhys_rtc (s : State) (l p : Nat) : (s.setPhys l p).rtc = s.rtc := by simp only [State.setPhys, State.setR_rtc]
@[simp] theorem State.setPhys_key (s : State) (l p : Nat) : (s.setPhys l p).key = s.key := by simp only [State.setPhys, State.setR_key]
@[simp] theorem State.setPhys_svc (s : State) (l p : Nat) : (s.setPhys l p).svc = s.svc := by simp only [State.setPhys, State.setR_svc]
@[simp] theorem State.setPhys_out (s : State) (l p : Nat) : (s.setPhys l p).out = s.out := by simp only [State.setPhys, State.setR_out]
@[simp] theorem State.setPhys_freeCtr (s : State) (l p : Nat) : (s.setPhys l p).freeCtr = s.freeCtr := by simp only [State.setPhys, State.setR_freeCtr]
@[simp] theorem State.setPhys_pending (s : State) (l p : Nat) : (s.setPhys l p).pending = s.pending := by simp only [State.setPhys, State.setR_pending]

/-! `State.record` -/
@[simp] theorem State.record_regs (s : State) (c v n : Nat) (b : List Word) : (s.record c v n b).regs = s.regs := rfl
@[simp] theorem State.record_bus (s : State) (c v n : Nat) (b : List Word) : (s.record c v n b).bus = s.bus := rfl
@[simp] theorem State.record_fmem (s : State) (c v n : Nat) (b : List Word) : (s.record c v n b).fmem = s.fmem := rfl
@[simp] theorem State.record_fe (s : State) (c v n : Nat) (b : List Word) : (s.record c v n b).fe = s.fe := rfl
@[simp] theorem State.record_shf (s : State) (c v n : Nat) (b : List Word) : (s.record c v n b).shf = s.shf := rfl
@[simp] theorem State.record_hnd (s : State) (c v n : Nat) (b : List Word) : (s.record c v n b).hnd = s.hnd := rfl
@[simp] theorem State.record_cal (s : State) (c v n : Nat) (b : List Word) : (s.record c v n b).cal = s.cal := rfl
@[simp] theorem State.record_fcp (s : State) (c v n : Nat) (b : List Word) : (s.record c v n b).fcp = s.fcp := rfl
@[simp] theorem State.record_storm (s : State) (c v n : Nat) (b : List Word) : (s.record c v n b).storm = s.storm := rfl
@[simp] theorem State.record_time (s : State) (c v n : Nat) (b : List Word) : (s.record c v n b).time = s.time := rfl
@[simp] theorem State.record_spares (s : State) (c v n : Nat) (b : List Word) : (s.record c v n b).spares = s.spares := rfl
@[simp] theorem State.record_pair (s : State) (c v n : Nat) (b : List Word) : (s.record c v n b).pair = s.pair := rfl
@[simp] theorem State.record_ledger (s : State) (c v n : Nat) (b : List Word) : (s.record c v n b).ledger = s.ledger := rfl
@[simp] theorem State.record_power (s : State) (c v n : Nat) (b : List Word) : (s.record c v n b).power = s.power := rfl
@[simp] theorem State.record_ident (s : State) (c v n : Nat) (b : List Word) : (s.record c v n b).ident = s.ident := rfl
@[simp] theorem State.record_drbg (s : State) (c v n : Nat) (b : List Word) : (s.record c v n b).drbg = s.drbg := rfl
@[simp] theorem State.record_fab (s : State) (c v n : Nat) (b : List Word) : (s.record c v n b).fab = s.fab := rfl
@[simp] theorem State.record_rings (s : State) (c v n : Nat) (b : List Word) : (s.record c v n b).rings = s.rings := rfl
@[simp] theorem State.record_mtr (s : State) (c v n : Nat) (b : List Word) : (s.record c v n b).mtr = s.mtr := rfl
@[simp] theorem State.record_rad (s : State) (c v n : Nat) (b : List Word) : (s.record c v n b).rad = s.rad := rfl
@[simp] theorem State.record_can (s : State) (c v n : Nat) (b : List Word) : (s.record c v n b).can = s.can := rfl
@[simp] theorem State.record_ind (s : State) (c v n : Nat) (b : List Word) : (s.record c v n b).ind = s.ind := rfl
@[simp] theorem State.record_rtc (s : State) (c v n : Nat) (b : List Word) : (s.record c v n b).rtc = s.rtc := rfl
@[simp] theorem State.record_key (s : State) (c v n : Nat) (b : List Word) : (s.record c v n b).key = s.key := rfl
@[simp] theorem State.record_svc (s : State) (c v n : Nat) (b : List Word) : (s.record c v n b).svc = s.svc := rfl
@[simp] theorem State.record_out (s : State) (c v n : Nat) (b : List Word) : (s.record c v n b).out = s.out := rfl
@[simp] theorem State.record_freeCtr (s : State) (c v n : Nat) (b : List Word) : (s.record c v n b).freeCtr = s.freeCtr := rfl
@[simp] theorem State.record_pending (s : State) (c v n : Nat) (b : List Word) : (s.record c v n b).pending = s.pending := rfl

/-! `State.ledgerAdd`, `State.ledgerDone`, `State.ledgerCommit` and `State.ledgerWait` -/
/-- A fold of state changes keeps what each of them keeps. -/
theorem foldS_keeps {α β : Type} (f : State → β) (g : α → State → State) (h : ∀ x s, f (g x s) = f s) (l : List α) (s : State) :
    f (foldS l g s) = f s := by
  unfold foldS
  induction l generalizing s with
  | nil => rfl
  | cons x l ih => simp only [List.foldl_cons, ih, h]
@[simp] theorem State.ledgerAdd_bus (s : State) (w : LdgWrite) : (s.ledgerAdd w).bus = s.bus := by simp only [State.ledgerAdd, State.setF_bus, State.setPairR_bus]
@[simp] theorem State.ledgerAdd_fmem (s : State) (w : LdgWrite) : (s.ledgerAdd w).fmem = s.fmem := by simp only [State.ledgerAdd, State.setF_fmem, State.setPairR_fmem]
@[simp] theorem State.ledgerAdd_fe (s : State) (w : LdgWrite) : (s.ledgerAdd w).fe = s.fe := by simp only [State.ledgerAdd, State.setF_fe, State.setPairR_fe]
@[simp] theorem State.ledgerAdd_shf (s : State) (w : LdgWrite) : (s.ledgerAdd w).shf = s.shf := by simp only [State.ledgerAdd, State.setF_shf, State.setPairR_shf]
@[simp] theorem State.ledgerAdd_hnd (s : State) (w : LdgWrite) : (s.ledgerAdd w).hnd = s.hnd := by simp only [State.ledgerAdd, State.setF_hnd, State.setPairR_hnd]
@[simp] theorem State.ledgerAdd_cal (s : State) (w : LdgWrite) : (s.ledgerAdd w).cal = s.cal := by simp only [State.ledgerAdd, State.setF_cal, State.setPairR_cal]
@[simp] theorem State.ledgerAdd_fcp (s : State) (w : LdgWrite) : (s.ledgerAdd w).fcp = s.fcp := by simp only [State.ledgerAdd, State.setF_fcp, State.setPairR_fcp]
@[simp] theorem State.ledgerAdd_storm (s : State) (w : LdgWrite) : (s.ledgerAdd w).storm = s.storm := by simp only [State.ledgerAdd, State.setF_storm, State.setPairR_storm]
@[simp] theorem State.ledgerAdd_time (s : State) (w : LdgWrite) : (s.ledgerAdd w).time = s.time := by simp only [State.ledgerAdd, State.setF_time, State.setPairR_time]
@[simp] theorem State.ledgerAdd_spares (s : State) (w : LdgWrite) : (s.ledgerAdd w).spares = s.spares := by simp only [State.ledgerAdd, State.setF_spares, State.setPairR_spares]
@[simp] theorem State.ledgerAdd_pair (s : State) (w : LdgWrite) : (s.ledgerAdd w).pair = s.pair := by simp only [State.ledgerAdd, State.setF_pair, State.setPairR_pair]
@[simp] theorem State.ledgerAdd_power (s : State) (w : LdgWrite) : (s.ledgerAdd w).power = s.power := by simp only [State.ledgerAdd, State.setF_power, State.setPairR_power]
@[simp] theorem State.ledgerAdd_ident (s : State) (w : LdgWrite) : (s.ledgerAdd w).ident = s.ident := by simp only [State.ledgerAdd, State.setF_ident, State.setPairR_ident]
@[simp] theorem State.ledgerAdd_rcd (s : State) (w : LdgWrite) : (s.ledgerAdd w).rcd = s.rcd := by simp only [State.ledgerAdd, State.setF_rcd, State.setPairR_rcd]
@[simp] theorem State.ledgerAdd_drbg (s : State) (w : LdgWrite) : (s.ledgerAdd w).drbg = s.drbg := by simp only [State.ledgerAdd, State.setF_drbg, State.setPairR_drbg]
@[simp] theorem State.ledgerAdd_fab (s : State) (w : LdgWrite) : (s.ledgerAdd w).fab = s.fab := by simp only [State.ledgerAdd, State.setF_fab, State.setPairR_fab]
@[simp] theorem State.ledgerAdd_rings (s : State) (w : LdgWrite) : (s.ledgerAdd w).rings = s.rings := by simp only [State.ledgerAdd, State.setF_rings, State.setPairR_rings]
@[simp] theorem State.ledgerAdd_mtr (s : State) (w : LdgWrite) : (s.ledgerAdd w).mtr = s.mtr := by simp only [State.ledgerAdd, State.setF_mtr, State.setPairR_mtr]
@[simp] theorem State.ledgerAdd_rad (s : State) (w : LdgWrite) : (s.ledgerAdd w).rad = s.rad := by simp only [State.ledgerAdd, State.setF_rad, State.setPairR_rad]
@[simp] theorem State.ledgerAdd_can (s : State) (w : LdgWrite) : (s.ledgerAdd w).can = s.can := by simp only [State.ledgerAdd, State.setF_can, State.setPairR_can]
@[simp] theorem State.ledgerAdd_ind (s : State) (w : LdgWrite) : (s.ledgerAdd w).ind = s.ind := by simp only [State.ledgerAdd, State.setF_ind, State.setPairR_ind]
@[simp] theorem State.ledgerAdd_rtc (s : State) (w : LdgWrite) : (s.ledgerAdd w).rtc = s.rtc := by simp only [State.ledgerAdd, State.setF_rtc, State.setPairR_rtc]
@[simp] theorem State.ledgerAdd_key (s : State) (w : LdgWrite) : (s.ledgerAdd w).key = s.key := by simp only [State.ledgerAdd, State.setF_key, State.setPairR_key]
@[simp] theorem State.ledgerAdd_svc (s : State) (w : LdgWrite) : (s.ledgerAdd w).svc = s.svc := by simp only [State.ledgerAdd, State.setF_svc, State.setPairR_svc]
@[simp] theorem State.ledgerAdd_out (s : State) (w : LdgWrite) : (s.ledgerAdd w).out = s.out := by simp only [State.ledgerAdd, State.setF_out, State.setPairR_out]
@[simp] theorem State.ledgerAdd_freeCtr (s : State) (w : LdgWrite) : (s.ledgerAdd w).freeCtr = s.freeCtr := by simp only [State.ledgerAdd, State.setF_freeCtr, State.setPairR_freeCtr]
@[simp] theorem State.ledgerAdd_pending (s : State) (w : LdgWrite) : (s.ledgerAdd w).pending = s.pending := by simp only [State.ledgerAdd, State.setF_pending, State.setPairR_pending]
@[simp] theorem State.ledgerDone_bus (s : State) : s.ledgerDone.bus = s.bus := by unfold State.ledgerDone; split <;> simp only [State.setF_bus]
@[simp] theorem State.ledgerDone_fmem (s : State) : s.ledgerDone.fmem = s.fmem := by unfold State.ledgerDone; split <;> simp only [State.setF_fmem]
@[simp] theorem State.ledgerDone_fe (s : State) : s.ledgerDone.fe = s.fe := by unfold State.ledgerDone; split <;> simp only [State.setF_fe]
@[simp] theorem State.ledgerDone_shf (s : State) : s.ledgerDone.shf = s.shf := by unfold State.ledgerDone; split <;> simp only [State.setF_shf]
@[simp] theorem State.ledgerDone_hnd (s : State) : s.ledgerDone.hnd = s.hnd := by unfold State.ledgerDone; split <;> simp only [State.setF_hnd]
@[simp] theorem State.ledgerDone_cal (s : State) : s.ledgerDone.cal = s.cal := by unfold State.ledgerDone; split <;> simp only [State.setF_cal]
@[simp] theorem State.ledgerDone_fcp (s : State) : s.ledgerDone.fcp = s.fcp := by unfold State.ledgerDone; split <;> simp only [State.setF_fcp]
@[simp] theorem State.ledgerDone_storm (s : State) : s.ledgerDone.storm = s.storm := by unfold State.ledgerDone; split <;> simp only [State.setF_storm]
@[simp] theorem State.ledgerDone_time (s : State) : s.ledgerDone.time = s.time := by unfold State.ledgerDone; split <;> simp only [State.setF_time]
@[simp] theorem State.ledgerDone_spares (s : State) : s.ledgerDone.spares = s.spares := by unfold State.ledgerDone; split <;> simp only [State.setF_spares]
@[simp] theorem State.ledgerDone_pair (s : State) : s.ledgerDone.pair = s.pair := by unfold State.ledgerDone; split <;> simp only [State.setF_pair]
@[simp] theorem State.ledgerDone_power (s : State) : s.ledgerDone.power = s.power := by unfold State.ledgerDone; split <;> simp only [State.setF_power]
@[simp] theorem State.ledgerDone_ident (s : State) : s.ledgerDone.ident = s.ident := by unfold State.ledgerDone; split <;> simp only [State.setF_ident]
@[simp] theorem State.ledgerDone_rcd (s : State) : s.ledgerDone.rcd = s.rcd := by unfold State.ledgerDone; split <;> simp only [State.setF_rcd]
@[simp] theorem State.ledgerDone_drbg (s : State) : s.ledgerDone.drbg = s.drbg := by unfold State.ledgerDone; split <;> simp only [State.setF_drbg]
@[simp] theorem State.ledgerDone_fab (s : State) : s.ledgerDone.fab = s.fab := by unfold State.ledgerDone; split <;> simp only [State.setF_fab]
@[simp] theorem State.ledgerDone_rings (s : State) : s.ledgerDone.rings = s.rings := by unfold State.ledgerDone; split <;> simp only [State.setF_rings]
@[simp] theorem State.ledgerDone_mtr (s : State) : s.ledgerDone.mtr = s.mtr := by unfold State.ledgerDone; split <;> simp only [State.setF_mtr]
@[simp] theorem State.ledgerDone_rad (s : State) : s.ledgerDone.rad = s.rad := by unfold State.ledgerDone; split <;> simp only [State.setF_rad]
@[simp] theorem State.ledgerDone_can (s : State) : s.ledgerDone.can = s.can := by unfold State.ledgerDone; split <;> simp only [State.setF_can]
@[simp] theorem State.ledgerDone_ind (s : State) : s.ledgerDone.ind = s.ind := by unfold State.ledgerDone; split <;> simp only [State.setF_ind]
@[simp] theorem State.ledgerDone_rtc (s : State) : s.ledgerDone.rtc = s.rtc := by unfold State.ledgerDone; split <;> simp only [State.setF_rtc]
@[simp] theorem State.ledgerDone_svc (s : State) : s.ledgerDone.svc = s.svc := by unfold State.ledgerDone; split <;> simp only [State.setF_svc]
@[simp] theorem State.ledgerDone_out (s : State) : s.ledgerDone.out = s.out := by unfold State.ledgerDone; split <;> simp only [State.setF_out]
@[simp] theorem State.ledgerDone_freeCtr (s : State) : s.ledgerDone.freeCtr = s.freeCtr := by unfold State.ledgerDone; split <;> simp only [State.setF_freeCtr]
@[simp] theorem State.ledgerDone_pending (s : State) : s.ledgerDone.pending = s.pending := by unfold State.ledgerDone; split <;> simp only [State.setF_pending]
/-- What `ledgerCommit` leaves alone: whatever `ledgerAdd`, `ledgerDone` and a change of bank 0 leave alone. -/
theorem State.ledgerCommit_keeps {β : Type} (f : State → β) (ha : ∀ s w, f (State.ledgerAdd s w) = f s)
    (hd : ∀ s, f (State.ledgerDone s) = f s) (hb : ∀ (s : State) l, f { s with ledger := { s.ledger with bank0 := l } } = f s)
    (s : State) (g : LdgTag) (b : List Byte) : f (s.ledgerCommit g b) = f s := by
  have tail (t : State) : f (match t.ledger.writes with
      | [] => t
      | w :: l => { t with ledger := { t.ledger with
          bank0 := bankPut t.ledger.bank0 (w.entry.copy (t.ledger.writeSeq - l.length)) } }) = f t := by
    cases t.ledger.writes with
    | nil => rfl
    | cons w l => exact hb t _
  exact (tail _).trans ((foldS_keeps f _ (fun _ s => hd s) _ _).trans (ha s _))
@[simp] theorem State.ledgerCommit_bus (s : State) (g : LdgTag) (b : List Byte) : (s.ledgerCommit g b).bus = s.bus := State.ledgerCommit_keeps (·.bus) State.ledgerAdd_bus State.ledgerDone_bus (fun _ _ => rfl) s g b
@[simp] theorem State.ledgerCommit_fmem (s : State) (g : LdgTag) (b : List Byte) : (s.ledgerCommit g b).fmem = s.fmem := State.ledgerCommit_keeps (·.fmem) State.ledgerAdd_fmem State.ledgerDone_fmem (fun _ _ => rfl) s g b
@[simp] theorem State.ledgerCommit_fe (s : State) (g : LdgTag) (b : List Byte) : (s.ledgerCommit g b).fe = s.fe := State.ledgerCommit_keeps (·.fe) State.ledgerAdd_fe State.ledgerDone_fe (fun _ _ => rfl) s g b
@[simp] theorem State.ledgerCommit_shf (s : State) (g : LdgTag) (b : List Byte) : (s.ledgerCommit g b).shf = s.shf := State.ledgerCommit_keeps (·.shf) State.ledgerAdd_shf State.ledgerDone_shf (fun _ _ => rfl) s g b
@[simp] theorem State.ledgerCommit_hnd (s : State) (g : LdgTag) (b : List Byte) : (s.ledgerCommit g b).hnd = s.hnd := State.ledgerCommit_keeps (·.hnd) State.ledgerAdd_hnd State.ledgerDone_hnd (fun _ _ => rfl) s g b
@[simp] theorem State.ledgerCommit_cal (s : State) (g : LdgTag) (b : List Byte) : (s.ledgerCommit g b).cal = s.cal := State.ledgerCommit_keeps (·.cal) State.ledgerAdd_cal State.ledgerDone_cal (fun _ _ => rfl) s g b
@[simp] theorem State.ledgerCommit_fcp (s : State) (g : LdgTag) (b : List Byte) : (s.ledgerCommit g b).fcp = s.fcp := State.ledgerCommit_keeps (·.fcp) State.ledgerAdd_fcp State.ledgerDone_fcp (fun _ _ => rfl) s g b
@[simp] theorem State.ledgerCommit_storm (s : State) (g : LdgTag) (b : List Byte) : (s.ledgerCommit g b).storm = s.storm := State.ledgerCommit_keeps (·.storm) State.ledgerAdd_storm State.ledgerDone_storm (fun _ _ => rfl) s g b
@[simp] theorem State.ledgerCommit_time (s : State) (g : LdgTag) (b : List Byte) : (s.ledgerCommit g b).time = s.time := State.ledgerCommit_keeps (·.time) State.ledgerAdd_time State.ledgerDone_time (fun _ _ => rfl) s g b
@[simp] theorem State.ledgerCommit_spares (s : State) (g : LdgTag) (b : List Byte) : (s.ledgerCommit g b).spares = s.spares := State.ledgerCommit_keeps (·.spares) State.ledgerAdd_spares State.ledgerDone_spares (fun _ _ => rfl) s g b
@[simp] theorem State.ledgerCommit_pair (s : State) (g : LdgTag) (b : List Byte) : (s.ledgerCommit g b).pair = s.pair := State.ledgerCommit_keeps (·.pair) State.ledgerAdd_pair State.ledgerDone_pair (fun _ _ => rfl) s g b
@[simp] theorem State.ledgerCommit_power (s : State) (g : LdgTag) (b : List Byte) : (s.ledgerCommit g b).power = s.power := State.ledgerCommit_keeps (·.power) State.ledgerAdd_power State.ledgerDone_power (fun _ _ => rfl) s g b
@[simp] theorem State.ledgerCommit_ident (s : State) (g : LdgTag) (b : List Byte) : (s.ledgerCommit g b).ident = s.ident := State.ledgerCommit_keeps (·.ident) State.ledgerAdd_ident State.ledgerDone_ident (fun _ _ => rfl) s g b
@[simp] theorem State.ledgerCommit_rcd (s : State) (g : LdgTag) (b : List Byte) : (s.ledgerCommit g b).rcd = s.rcd := State.ledgerCommit_keeps (·.rcd) State.ledgerAdd_rcd State.ledgerDone_rcd (fun _ _ => rfl) s g b
@[simp] theorem State.ledgerCommit_drbg (s : State) (g : LdgTag) (b : List Byte) : (s.ledgerCommit g b).drbg = s.drbg := State.ledgerCommit_keeps (·.drbg) State.ledgerAdd_drbg State.ledgerDone_drbg (fun _ _ => rfl) s g b
@[simp] theorem State.ledgerCommit_fab (s : State) (g : LdgTag) (b : List Byte) : (s.ledgerCommit g b).fab = s.fab := State.ledgerCommit_keeps (·.fab) State.ledgerAdd_fab State.ledgerDone_fab (fun _ _ => rfl) s g b
@[simp] theorem State.ledgerCommit_rings (s : State) (g : LdgTag) (b : List Byte) : (s.ledgerCommit g b).rings = s.rings := State.ledgerCommit_keeps (·.rings) State.ledgerAdd_rings State.ledgerDone_rings (fun _ _ => rfl) s g b
@[simp] theorem State.ledgerCommit_mtr (s : State) (g : LdgTag) (b : List Byte) : (s.ledgerCommit g b).mtr = s.mtr := State.ledgerCommit_keeps (·.mtr) State.ledgerAdd_mtr State.ledgerDone_mtr (fun _ _ => rfl) s g b
@[simp] theorem State.ledgerCommit_rad (s : State) (g : LdgTag) (b : List Byte) : (s.ledgerCommit g b).rad = s.rad := State.ledgerCommit_keeps (·.rad) State.ledgerAdd_rad State.ledgerDone_rad (fun _ _ => rfl) s g b
@[simp] theorem State.ledgerCommit_can (s : State) (g : LdgTag) (b : List Byte) : (s.ledgerCommit g b).can = s.can := State.ledgerCommit_keeps (·.can) State.ledgerAdd_can State.ledgerDone_can (fun _ _ => rfl) s g b
@[simp] theorem State.ledgerCommit_ind (s : State) (g : LdgTag) (b : List Byte) : (s.ledgerCommit g b).ind = s.ind := State.ledgerCommit_keeps (·.ind) State.ledgerAdd_ind State.ledgerDone_ind (fun _ _ => rfl) s g b
@[simp] theorem State.ledgerCommit_rtc (s : State) (g : LdgTag) (b : List Byte) : (s.ledgerCommit g b).rtc = s.rtc := State.ledgerCommit_keeps (·.rtc) State.ledgerAdd_rtc State.ledgerDone_rtc (fun _ _ => rfl) s g b
@[simp] theorem State.ledgerCommit_svc (s : State) (g : LdgTag) (b : List Byte) : (s.ledgerCommit g b).svc = s.svc := State.ledgerCommit_keeps (·.svc) State.ledgerAdd_svc State.ledgerDone_svc (fun _ _ => rfl) s g b
@[simp] theorem State.ledgerCommit_out (s : State) (g : LdgTag) (b : List Byte) : (s.ledgerCommit g b).out = s.out := State.ledgerCommit_keeps (·.out) State.ledgerAdd_out State.ledgerDone_out (fun _ _ => rfl) s g b
@[simp] theorem State.ledgerCommit_freeCtr (s : State) (g : LdgTag) (b : List Byte) : (s.ledgerCommit g b).freeCtr = s.freeCtr := State.ledgerCommit_keeps (·.freeCtr) State.ledgerAdd_freeCtr State.ledgerDone_freeCtr (fun _ _ => rfl) s g b
@[simp] theorem State.ledgerCommit_pending (s : State) (g : LdgTag) (b : List Byte) : (s.ledgerCommit g b).pending = s.pending := State.ledgerCommit_keeps (·.pending) State.ledgerAdd_pending State.ledgerDone_pending (fun _ _ => rfl) s g b
@[simp] theorem State.ledgerWait_bus (s : State) (g : LdgTag) (b : List Byte) : (s.ledgerWait g b).bus = s.bus := State.ledgerAdd_bus s _
@[simp] theorem State.ledgerWait_fmem (s : State) (g : LdgTag) (b : List Byte) : (s.ledgerWait g b).fmem = s.fmem := State.ledgerAdd_fmem s _
@[simp] theorem State.ledgerWait_fe (s : State) (g : LdgTag) (b : List Byte) : (s.ledgerWait g b).fe = s.fe := State.ledgerAdd_fe s _
@[simp] theorem State.ledgerWait_shf (s : State) (g : LdgTag) (b : List Byte) : (s.ledgerWait g b).shf = s.shf := State.ledgerAdd_shf s _
@[simp] theorem State.ledgerWait_hnd (s : State) (g : LdgTag) (b : List Byte) : (s.ledgerWait g b).hnd = s.hnd := State.ledgerAdd_hnd s _
@[simp] theorem State.ledgerWait_cal (s : State) (g : LdgTag) (b : List Byte) : (s.ledgerWait g b).cal = s.cal := State.ledgerAdd_cal s _
@[simp] theorem State.ledgerWait_fcp (s : State) (g : LdgTag) (b : List Byte) : (s.ledgerWait g b).fcp = s.fcp := State.ledgerAdd_fcp s _
@[simp] theorem State.ledgerWait_storm (s : State) (g : LdgTag) (b : List Byte) : (s.ledgerWait g b).storm = s.storm := State.ledgerAdd_storm s _
@[simp] theorem State.ledgerWait_time (s : State) (g : LdgTag) (b : List Byte) : (s.ledgerWait g b).time = s.time := State.ledgerAdd_time s _
@[simp] theorem State.ledgerWait_spares (s : State) (g : LdgTag) (b : List Byte) : (s.ledgerWait g b).spares = s.spares := State.ledgerAdd_spares s _
@[simp] theorem State.ledgerWait_pair (s : State) (g : LdgTag) (b : List Byte) : (s.ledgerWait g b).pair = s.pair := State.ledgerAdd_pair s _
@[simp] theorem State.ledgerWait_power (s : State) (g : LdgTag) (b : List Byte) : (s.ledgerWait g b).power = s.power := State.ledgerAdd_power s _
@[simp] theorem State.ledgerWait_ident (s : State) (g : LdgTag) (b : List Byte) : (s.ledgerWait g b).ident = s.ident := State.ledgerAdd_ident s _
@[simp] theorem State.ledgerWait_rcd (s : State) (g : LdgTag) (b : List Byte) : (s.ledgerWait g b).rcd = s.rcd := State.ledgerAdd_rcd s _
@[simp] theorem State.ledgerWait_drbg (s : State) (g : LdgTag) (b : List Byte) : (s.ledgerWait g b).drbg = s.drbg := State.ledgerAdd_drbg s _
@[simp] theorem State.ledgerWait_fab (s : State) (g : LdgTag) (b : List Byte) : (s.ledgerWait g b).fab = s.fab := State.ledgerAdd_fab s _
@[simp] theorem State.ledgerWait_rings (s : State) (g : LdgTag) (b : List Byte) : (s.ledgerWait g b).rings = s.rings := State.ledgerAdd_rings s _
@[simp] theorem State.ledgerWait_mtr (s : State) (g : LdgTag) (b : List Byte) : (s.ledgerWait g b).mtr = s.mtr := State.ledgerAdd_mtr s _
@[simp] theorem State.ledgerWait_rad (s : State) (g : LdgTag) (b : List Byte) : (s.ledgerWait g b).rad = s.rad := State.ledgerAdd_rad s _
@[simp] theorem State.ledgerWait_can (s : State) (g : LdgTag) (b : List Byte) : (s.ledgerWait g b).can = s.can := State.ledgerAdd_can s _
@[simp] theorem State.ledgerWait_ind (s : State) (g : LdgTag) (b : List Byte) : (s.ledgerWait g b).ind = s.ind := State.ledgerAdd_ind s _
@[simp] theorem State.ledgerWait_rtc (s : State) (g : LdgTag) (b : List Byte) : (s.ledgerWait g b).rtc = s.rtc := State.ledgerAdd_rtc s _
@[simp] theorem State.ledgerWait_key (s : State) (g : LdgTag) (b : List Byte) : (s.ledgerWait g b).key = s.key := State.ledgerAdd_key s _
@[simp] theorem State.ledgerWait_svc (s : State) (g : LdgTag) (b : List Byte) : (s.ledgerWait g b).svc = s.svc := State.ledgerAdd_svc s _
@[simp] theorem State.ledgerWait_out (s : State) (g : LdgTag) (b : List Byte) : (s.ledgerWait g b).out = s.out := State.ledgerAdd_out s _
@[simp] theorem State.ledgerWait_freeCtr (s : State) (g : LdgTag) (b : List Byte) : (s.ledgerWait g b).freeCtr = s.freeCtr := State.ledgerAdd_freeCtr s _
@[simp] theorem State.ledgerWait_pending (s : State) (g : LdgTag) (b : List Byte) : (s.ledgerWait g b).pending = s.pending := State.ledgerAdd_pending s _

/-! `State.send` -/
@[simp] theorem State.send_regs (s : State) (o : Out) : (s.send o).regs = s.regs := rfl
@[simp] theorem State.send_bus (s : State) (o : Out) : (s.send o).bus = s.bus := rfl
@[simp] theorem State.send_fmem (s : State) (o : Out) : (s.send o).fmem = s.fmem := rfl
@[simp] theorem State.send_fe (s : State) (o : Out) : (s.send o).fe = s.fe := rfl
@[simp] theorem State.send_shf (s : State) (o : Out) : (s.send o).shf = s.shf := rfl
@[simp] theorem State.send_hnd (s : State) (o : Out) : (s.send o).hnd = s.hnd := rfl
@[simp] theorem State.send_cal (s : State) (o : Out) : (s.send o).cal = s.cal := rfl
@[simp] theorem State.send_fcp (s : State) (o : Out) : (s.send o).fcp = s.fcp := rfl
@[simp] theorem State.send_storm (s : State) (o : Out) : (s.send o).storm = s.storm := rfl
@[simp] theorem State.send_time (s : State) (o : Out) : (s.send o).time = s.time := rfl
@[simp] theorem State.send_spares (s : State) (o : Out) : (s.send o).spares = s.spares := rfl
@[simp] theorem State.send_pair (s : State) (o : Out) : (s.send o).pair = s.pair := rfl
@[simp] theorem State.send_ledger (s : State) (o : Out) : (s.send o).ledger = s.ledger := rfl
@[simp] theorem State.send_power (s : State) (o : Out) : (s.send o).power = s.power := rfl
@[simp] theorem State.send_ident (s : State) (o : Out) : (s.send o).ident = s.ident := rfl
@[simp] theorem State.send_rcd (s : State) (o : Out) : (s.send o).rcd = s.rcd := rfl
@[simp] theorem State.send_drbg (s : State) (o : Out) : (s.send o).drbg = s.drbg := rfl
@[simp] theorem State.send_fab (s : State) (o : Out) : (s.send o).fab = s.fab := rfl
@[simp] theorem State.send_rings (s : State) (o : Out) : (s.send o).rings = s.rings := rfl
@[simp] theorem State.send_mtr (s : State) (o : Out) : (s.send o).mtr = s.mtr := rfl
@[simp] theorem State.send_rad (s : State) (o : Out) : (s.send o).rad = s.rad := rfl
@[simp] theorem State.send_can (s : State) (o : Out) : (s.send o).can = s.can := rfl
@[simp] theorem State.send_ind (s : State) (o : Out) : (s.send o).ind = s.ind := rfl
@[simp] theorem State.send_rtc (s : State) (o : Out) : (s.send o).rtc = s.rtc := rfl
@[simp] theorem State.send_key (s : State) (o : Out) : (s.send o).key = s.key := rfl
@[simp] theorem State.send_svc (s : State) (o : Out) : (s.send o).svc = s.svc := rfl
@[simp] theorem State.send_freeCtr (s : State) (o : Out) : (s.send o).freeCtr = s.freeCtr := rfl
@[simp] theorem State.send_pending (s : State) (o : Out) : (s.send o).pending = s.pending := rfl

/-! `State.setFByte` -/
@[simp] theorem State.setFByte_regs (s : State) (a : Nat) (v : Byte) : (s.setFByte a v).regs = s.regs := rfl
@[simp] theorem State.setFByte_bus (s : State) (a : Nat) (v : Byte) : (s.setFByte a v).bus = s.bus := rfl
@[simp] theorem State.setFByte_fe (s : State) (a : Nat) (v : Byte) : (s.setFByte a v).fe = s.fe := rfl
@[simp] theorem State.setFByte_shf (s : State) (a : Nat) (v : Byte) : (s.setFByte a v).shf = s.shf := rfl
@[simp] theorem State.setFByte_hnd (s : State) (a : Nat) (v : Byte) : (s.setFByte a v).hnd = s.hnd := rfl
@[simp] theorem State.setFByte_cal (s : State) (a : Nat) (v : Byte) : (s.setFByte a v).cal = s.cal := rfl
@[simp] theorem State.setFByte_fcp (s : State) (a : Nat) (v : Byte) : (s.setFByte a v).fcp = s.fcp := rfl
@[simp] theorem State.setFByte_storm (s : State) (a : Nat) (v : Byte) : (s.setFByte a v).storm = s.storm := rfl
@[simp] theorem State.setFByte_time (s : State) (a : Nat) (v : Byte) : (s.setFByte a v).time = s.time := rfl
@[simp] theorem State.setFByte_spares (s : State) (a : Nat) (v : Byte) : (s.setFByte a v).spares = s.spares := rfl
@[simp] theorem State.setFByte_ledger (s : State) (a : Nat) (v : Byte) : (s.setFByte a v).ledger = s.ledger := rfl
@[simp] theorem State.setFByte_power (s : State) (a : Nat) (v : Byte) : (s.setFByte a v).power = s.power := rfl
@[simp] theorem State.setFByte_ident (s : State) (a : Nat) (v : Byte) : (s.setFByte a v).ident = s.ident := rfl
@[simp] theorem State.setFByte_rcd (s : State) (a : Nat) (v : Byte) : (s.setFByte a v).rcd = s.rcd := rfl
@[simp] theorem State.setFByte_drbg (s : State) (a : Nat) (v : Byte) : (s.setFByte a v).drbg = s.drbg := rfl
@[simp] theorem State.setFByte_fab (s : State) (a : Nat) (v : Byte) : (s.setFByte a v).fab = s.fab := rfl
@[simp] theorem State.setFByte_rings (s : State) (a : Nat) (v : Byte) : (s.setFByte a v).rings = s.rings := rfl
@[simp] theorem State.setFByte_mtr (s : State) (a : Nat) (v : Byte) : (s.setFByte a v).mtr = s.mtr := rfl
@[simp] theorem State.setFByte_rad (s : State) (a : Nat) (v : Byte) : (s.setFByte a v).rad = s.rad := rfl
@[simp] theorem State.setFByte_can (s : State) (a : Nat) (v : Byte) : (s.setFByte a v).can = s.can := rfl
@[simp] theorem State.setFByte_ind (s : State) (a : Nat) (v : Byte) : (s.setFByte a v).ind = s.ind := rfl
@[simp] theorem State.setFByte_rtc (s : State) (a : Nat) (v : Byte) : (s.setFByte a v).rtc = s.rtc := rfl
@[simp] theorem State.setFByte_key (s : State) (a : Nat) (v : Byte) : (s.setFByte a v).key = s.key := rfl
@[simp] theorem State.setFByte_svc (s : State) (a : Nat) (v : Byte) : (s.setFByte a v).svc = s.svc := rfl
@[simp] theorem State.setFByte_out (s : State) (a : Nat) (v : Byte) : (s.setFByte a v).out = s.out := rfl
@[simp] theorem State.setFByte_freeCtr (s : State) (a : Nat) (v : Byte) : (s.setFByte a v).freeCtr = s.freeCtr := rfl
@[simp] theorem State.setFByte_pending (s : State) (a : Nat) (v : Byte) : (s.setFByte a v).pending = s.pending := rfl

/-! `State.setFWord` -/
@[simp] theorem State.setFWord_regs (s : State) (a : Nat) (v : Word) : (s.setFWord a v).regs = s.regs := by simp only [State.setFWord, State.setFByte_regs]
@[simp] theorem State.setFWord_bus (s : State) (a : Nat) (v : Word) : (s.setFWord a v).bus = s.bus := by simp only [State.setFWord, State.setFByte_bus]
@[simp] theorem State.setFWord_fe (s : State) (a : Nat) (v : Word) : (s.setFWord a v).fe = s.fe := by simp only [State.setFWord, State.setFByte_fe]
@[simp] theorem State.setFWord_shf (s : State) (a : Nat) (v : Word) : (s.setFWord a v).shf = s.shf := by simp only [State.setFWord, State.setFByte_shf]
@[simp] theorem State.setFWord_hnd (s : State) (a : Nat) (v : Word) : (s.setFWord a v).hnd = s.hnd := by simp only [State.setFWord, State.setFByte_hnd]
@[simp] theorem State.setFWord_cal (s : State) (a : Nat) (v : Word) : (s.setFWord a v).cal = s.cal := by simp only [State.setFWord, State.setFByte_cal]
@[simp] theorem State.setFWord_fcp (s : State) (a : Nat) (v : Word) : (s.setFWord a v).fcp = s.fcp := by simp only [State.setFWord, State.setFByte_fcp]
@[simp] theorem State.setFWord_storm (s : State) (a : Nat) (v : Word) : (s.setFWord a v).storm = s.storm := by simp only [State.setFWord, State.setFByte_storm]
@[simp] theorem State.setFWord_time (s : State) (a : Nat) (v : Word) : (s.setFWord a v).time = s.time := by simp only [State.setFWord, State.setFByte_time]
@[simp] theorem State.setFWord_spares (s : State) (a : Nat) (v : Word) : (s.setFWord a v).spares = s.spares := by simp only [State.setFWord, State.setFByte_spares]
@[simp] theorem State.setFWord_ledger (s : State) (a : Nat) (v : Word) : (s.setFWord a v).ledger = s.ledger := by simp only [State.setFWord, State.setFByte_ledger]
@[simp] theorem State.setFWord_power (s : State) (a : Nat) (v : Word) : (s.setFWord a v).power = s.power := by simp only [State.setFWord, State.setFByte_power]
@[simp] theorem State.setFWord_ident (s : State) (a : Nat) (v : Word) : (s.setFWord a v).ident = s.ident := by simp only [State.setFWord, State.setFByte_ident]
@[simp] theorem State.setFWord_rcd (s : State) (a : Nat) (v : Word) : (s.setFWord a v).rcd = s.rcd := by simp only [State.setFWord, State.setFByte_rcd]
@[simp] theorem State.setFWord_drbg (s : State) (a : Nat) (v : Word) : (s.setFWord a v).drbg = s.drbg := by simp only [State.setFWord, State.setFByte_drbg]
@[simp] theorem State.setFWord_fab (s : State) (a : Nat) (v : Word) : (s.setFWord a v).fab = s.fab := by simp only [State.setFWord, State.setFByte_fab]
@[simp] theorem State.setFWord_rings (s : State) (a : Nat) (v : Word) : (s.setFWord a v).rings = s.rings := by simp only [State.setFWord, State.setFByte_rings]
@[simp] theorem State.setFWord_mtr (s : State) (a : Nat) (v : Word) : (s.setFWord a v).mtr = s.mtr := by simp only [State.setFWord, State.setFByte_mtr]
@[simp] theorem State.setFWord_rad (s : State) (a : Nat) (v : Word) : (s.setFWord a v).rad = s.rad := by simp only [State.setFWord, State.setFByte_rad]
@[simp] theorem State.setFWord_can (s : State) (a : Nat) (v : Word) : (s.setFWord a v).can = s.can := by simp only [State.setFWord, State.setFByte_can]
@[simp] theorem State.setFWord_ind (s : State) (a : Nat) (v : Word) : (s.setFWord a v).ind = s.ind := by simp only [State.setFWord, State.setFByte_ind]
@[simp] theorem State.setFWord_rtc (s : State) (a : Nat) (v : Word) : (s.setFWord a v).rtc = s.rtc := by simp only [State.setFWord, State.setFByte_rtc]
@[simp] theorem State.setFWord_key (s : State) (a : Nat) (v : Word) : (s.setFWord a v).key = s.key := by simp only [State.setFWord, State.setFByte_key]
@[simp] theorem State.setFWord_svc (s : State) (a : Nat) (v : Word) : (s.setFWord a v).svc = s.svc := by simp only [State.setFWord, State.setFByte_svc]
@[simp] theorem State.setFWord_out (s : State) (a : Nat) (v : Word) : (s.setFWord a v).out = s.out := by simp only [State.setFWord, State.setFByte_out]
@[simp] theorem State.setFWord_freeCtr (s : State) (a : Nat) (v : Word) : (s.setFWord a v).freeCtr = s.freeCtr := by simp only [State.setFWord, State.setFByte_freeCtr]
@[simp] theorem State.setFWord_pending (s : State) (a : Nat) (v : Word) : (s.setFWord a v).pending = s.pending := by simp only [State.setFWord, State.setFByte_pending]

/-! `State.setM` -/
@[simp] theorem State.setM_regs (s : State) (a : Nat) (x : RF) (v : Nat) : (s.setM a x v).regs = s.regs := by simp only [State.setM, State.setFWord_regs]
@[simp] theorem State.setM_bus (s : State) (a : Nat) (x : RF) (v : Nat) : (s.setM a x v).bus = s.bus := by simp only [State.setM, State.setFWord_bus]
@[simp] theorem State.setM_fe (s : State) (a : Nat) (x : RF) (v : Nat) : (s.setM a x v).fe = s.fe := by simp only [State.setM, State.setFWord_fe]
@[simp] theorem State.setM_shf (s : State) (a : Nat) (x : RF) (v : Nat) : (s.setM a x v).shf = s.shf := by simp only [State.setM, State.setFWord_shf]
@[simp] theorem State.setM_hnd (s : State) (a : Nat) (x : RF) (v : Nat) : (s.setM a x v).hnd = s.hnd := by simp only [State.setM, State.setFWord_hnd]
@[simp] theorem State.setM_cal (s : State) (a : Nat) (x : RF) (v : Nat) : (s.setM a x v).cal = s.cal := by simp only [State.setM, State.setFWord_cal]
@[simp] theorem State.setM_fcp (s : State) (a : Nat) (x : RF) (v : Nat) : (s.setM a x v).fcp = s.fcp := by simp only [State.setM, State.setFWord_fcp]
@[simp] theorem State.setM_storm (s : State) (a : Nat) (x : RF) (v : Nat) : (s.setM a x v).storm = s.storm := by simp only [State.setM, State.setFWord_storm]
@[simp] theorem State.setM_time (s : State) (a : Nat) (x : RF) (v : Nat) : (s.setM a x v).time = s.time := by simp only [State.setM, State.setFWord_time]
@[simp] theorem State.setM_spares (s : State) (a : Nat) (x : RF) (v : Nat) : (s.setM a x v).spares = s.spares := by simp only [State.setM, State.setFWord_spares]
@[simp] theorem State.setM_ledger (s : State) (a : Nat) (x : RF) (v : Nat) : (s.setM a x v).ledger = s.ledger := by simp only [State.setM, State.setFWord_ledger]
@[simp] theorem State.setM_power (s : State) (a : Nat) (x : RF) (v : Nat) : (s.setM a x v).power = s.power := by simp only [State.setM, State.setFWord_power]
@[simp] theorem State.setM_ident (s : State) (a : Nat) (x : RF) (v : Nat) : (s.setM a x v).ident = s.ident := by simp only [State.setM, State.setFWord_ident]
@[simp] theorem State.setM_rcd (s : State) (a : Nat) (x : RF) (v : Nat) : (s.setM a x v).rcd = s.rcd := by simp only [State.setM, State.setFWord_rcd]
@[simp] theorem State.setM_drbg (s : State) (a : Nat) (x : RF) (v : Nat) : (s.setM a x v).drbg = s.drbg := by simp only [State.setM, State.setFWord_drbg]
@[simp] theorem State.setM_fab (s : State) (a : Nat) (x : RF) (v : Nat) : (s.setM a x v).fab = s.fab := by simp only [State.setM, State.setFWord_fab]
@[simp] theorem State.setM_rings (s : State) (a : Nat) (x : RF) (v : Nat) : (s.setM a x v).rings = s.rings := by simp only [State.setM, State.setFWord_rings]
@[simp] theorem State.setM_mtr (s : State) (a : Nat) (x : RF) (v : Nat) : (s.setM a x v).mtr = s.mtr := by simp only [State.setM, State.setFWord_mtr]
@[simp] theorem State.setM_rad (s : State) (a : Nat) (x : RF) (v : Nat) : (s.setM a x v).rad = s.rad := by simp only [State.setM, State.setFWord_rad]
@[simp] theorem State.setM_can (s : State) (a : Nat) (x : RF) (v : Nat) : (s.setM a x v).can = s.can := by simp only [State.setM, State.setFWord_can]
@[simp] theorem State.setM_ind (s : State) (a : Nat) (x : RF) (v : Nat) : (s.setM a x v).ind = s.ind := by simp only [State.setM, State.setFWord_ind]
@[simp] theorem State.setM_rtc (s : State) (a : Nat) (x : RF) (v : Nat) : (s.setM a x v).rtc = s.rtc := by simp only [State.setM, State.setFWord_rtc]
@[simp] theorem State.setM_key (s : State) (a : Nat) (x : RF) (v : Nat) : (s.setM a x v).key = s.key := by simp only [State.setM, State.setFWord_key]
@[simp] theorem State.setM_svc (s : State) (a : Nat) (x : RF) (v : Nat) : (s.setM a x v).svc = s.svc := by simp only [State.setM, State.setFWord_svc]
@[simp] theorem State.setM_out (s : State) (a : Nat) (x : RF) (v : Nat) : (s.setM a x v).out = s.out := by simp only [State.setM, State.setFWord_out]
@[simp] theorem State.setM_freeCtr (s : State) (a : Nat) (x : RF) (v : Nat) : (s.setM a x v).freeCtr = s.freeCtr := by simp only [State.setM, State.setFWord_freeCtr]
@[simp] theorem State.setM_pending (s : State) (a : Nat) (x : RF) (v : Nat) : (s.setM a x v).pending = s.pending := by simp only [State.setM, State.setFWord_pending]

/-! `State.setEp` -/
@[simp] theorem State.setEp_regs (s : State) (i : Nat) (x : RF) (v : Nat) : (s.setEp i x v).regs = s.regs := by simp only [State.setEp, State.setM_regs]
@[simp] theorem State.setEp_bus (s : State) (i : Nat) (x : RF) (v : Nat) : (s.setEp i x v).bus = s.bus := by simp only [State.setEp, State.setM_bus]
@[simp] theorem State.setEp_fe (s : State) (i : Nat) (x : RF) (v : Nat) : (s.setEp i x v).fe = s.fe := by simp only [State.setEp, State.setM_fe]
@[simp] theorem State.setEp_shf (s : State) (i : Nat) (x : RF) (v : Nat) : (s.setEp i x v).shf = s.shf := by simp only [State.setEp, State.setM_shf]
@[simp] theorem State.setEp_hnd (s : State) (i : Nat) (x : RF) (v : Nat) : (s.setEp i x v).hnd = s.hnd := by simp only [State.setEp, State.setM_hnd]
@[simp] theorem State.setEp_cal (s : State) (i : Nat) (x : RF) (v : Nat) : (s.setEp i x v).cal = s.cal := by simp only [State.setEp, State.setM_cal]
@[simp] theorem State.setEp_fcp (s : State) (i : Nat) (x : RF) (v : Nat) : (s.setEp i x v).fcp = s.fcp := by simp only [State.setEp, State.setM_fcp]
@[simp] theorem State.setEp_storm (s : State) (i : Nat) (x : RF) (v : Nat) : (s.setEp i x v).storm = s.storm := by simp only [State.setEp, State.setM_storm]
@[simp] theorem State.setEp_time (s : State) (i : Nat) (x : RF) (v : Nat) : (s.setEp i x v).time = s.time := by simp only [State.setEp, State.setM_time]
@[simp] theorem State.setEp_spares (s : State) (i : Nat) (x : RF) (v : Nat) : (s.setEp i x v).spares = s.spares := by simp only [State.setEp, State.setM_spares]
@[simp] theorem State.setEp_ledger (s : State) (i : Nat) (x : RF) (v : Nat) : (s.setEp i x v).ledger = s.ledger := by simp only [State.setEp, State.setM_ledger]
@[simp] theorem State.setEp_power (s : State) (i : Nat) (x : RF) (v : Nat) : (s.setEp i x v).power = s.power := by simp only [State.setEp, State.setM_power]
@[simp] theorem State.setEp_ident (s : State) (i : Nat) (x : RF) (v : Nat) : (s.setEp i x v).ident = s.ident := by simp only [State.setEp, State.setM_ident]
@[simp] theorem State.setEp_rcd (s : State) (i : Nat) (x : RF) (v : Nat) : (s.setEp i x v).rcd = s.rcd := by simp only [State.setEp, State.setM_rcd]
@[simp] theorem State.setEp_drbg (s : State) (i : Nat) (x : RF) (v : Nat) : (s.setEp i x v).drbg = s.drbg := by simp only [State.setEp, State.setM_drbg]
@[simp] theorem State.setEp_fab (s : State) (i : Nat) (x : RF) (v : Nat) : (s.setEp i x v).fab = s.fab := by simp only [State.setEp, State.setM_fab]
@[simp] theorem State.setEp_rings (s : State) (i : Nat) (x : RF) (v : Nat) : (s.setEp i x v).rings = s.rings := by simp only [State.setEp, State.setM_rings]
@[simp] theorem State.setEp_mtr (s : State) (i : Nat) (x : RF) (v : Nat) : (s.setEp i x v).mtr = s.mtr := by simp only [State.setEp, State.setM_mtr]
@[simp] theorem State.setEp_rad (s : State) (i : Nat) (x : RF) (v : Nat) : (s.setEp i x v).rad = s.rad := by simp only [State.setEp, State.setM_rad]
@[simp] theorem State.setEp_can (s : State) (i : Nat) (x : RF) (v : Nat) : (s.setEp i x v).can = s.can := by simp only [State.setEp, State.setM_can]
@[simp] theorem State.setEp_ind (s : State) (i : Nat) (x : RF) (v : Nat) : (s.setEp i x v).ind = s.ind := by simp only [State.setEp, State.setM_ind]
@[simp] theorem State.setEp_rtc (s : State) (i : Nat) (x : RF) (v : Nat) : (s.setEp i x v).rtc = s.rtc := by simp only [State.setEp, State.setM_rtc]
@[simp] theorem State.setEp_key (s : State) (i : Nat) (x : RF) (v : Nat) : (s.setEp i x v).key = s.key := by simp only [State.setEp, State.setM_key]
@[simp] theorem State.setEp_svc (s : State) (i : Nat) (x : RF) (v : Nat) : (s.setEp i x v).svc = s.svc := by simp only [State.setEp, State.setM_svc]
@[simp] theorem State.setEp_out (s : State) (i : Nat) (x : RF) (v : Nat) : (s.setEp i x v).out = s.out := by simp only [State.setEp, State.setM_out]
@[simp] theorem State.setEp_freeCtr (s : State) (i : Nat) (x : RF) (v : Nat) : (s.setEp i x v).freeCtr = s.freeCtr := by simp only [State.setEp, State.setM_freeCtr]
@[simp] theorem State.setEp_pending (s : State) (i : Nat) (x : RF) (v : Nat) : (s.setEp i x v).pending = s.pending := by simp only [State.setEp, State.setM_pending]

/-! `State.setEpStamp` -/
@[simp] theorem State.setEpStamp_regs (s : State) (i : Nat) (x : Nat → RF) (t : Stamp) : (s.setEpStamp i x t).regs = s.regs := by simp only [State.setEpStamp, State.setEp_regs]
@[simp] theorem State.setEpStamp_bus (s : State) (i : Nat) (x : Nat → RF) (t : Stamp) : (s.setEpStamp i x t).bus = s.bus := by simp only [State.setEpStamp, State.setEp_bus]
@[simp] theorem State.setEpStamp_fe (s : State) (i : Nat) (x : Nat → RF) (t : Stamp) : (s.setEpStamp i x t).fe = s.fe := by simp only [State.setEpStamp, State.setEp_fe]
@[simp] theorem State.setEpStamp_shf (s : State) (i : Nat) (x : Nat → RF) (t : Stamp) : (s.setEpStamp i x t).shf = s.shf := by simp only [State.setEpStamp, State.setEp_shf]
@[simp] theorem State.setEpStamp_hnd (s : State) (i : Nat) (x : Nat → RF) (t : Stamp) : (s.setEpStamp i x t).hnd = s.hnd := by simp only [State.setEpStamp, State.setEp_hnd]
@[simp] theorem State.setEpStamp_cal (s : State) (i : Nat) (x : Nat → RF) (t : Stamp) : (s.setEpStamp i x t).cal = s.cal := by simp only [State.setEpStamp, State.setEp_cal]
@[simp] theorem State.setEpStamp_fcp (s : State) (i : Nat) (x : Nat → RF) (t : Stamp) : (s.setEpStamp i x t).fcp = s.fcp := by simp only [State.setEpStamp, State.setEp_fcp]
@[simp] theorem State.setEpStamp_storm (s : State) (i : Nat) (x : Nat → RF) (t : Stamp) : (s.setEpStamp i x t).storm = s.storm := by simp only [State.setEpStamp, State.setEp_storm]
@[simp] theorem State.setEpStamp_time (s : State) (i : Nat) (x : Nat → RF) (t : Stamp) : (s.setEpStamp i x t).time = s.time := by simp only [State.setEpStamp, State.setEp_time]
@[simp] theorem State.setEpStamp_spares (s : State) (i : Nat) (x : Nat → RF) (t : Stamp) : (s.setEpStamp i x t).spares = s.spares := by simp only [State.setEpStamp, State.setEp_spares]
@[simp] theorem State.setEpStamp_ledger (s : State) (i : Nat) (x : Nat → RF) (t : Stamp) : (s.setEpStamp i x t).ledger = s.ledger := by simp only [State.setEpStamp, State.setEp_ledger]
@[simp] theorem State.setEpStamp_power (s : State) (i : Nat) (x : Nat → RF) (t : Stamp) : (s.setEpStamp i x t).power = s.power := by simp only [State.setEpStamp, State.setEp_power]
@[simp] theorem State.setEpStamp_ident (s : State) (i : Nat) (x : Nat → RF) (t : Stamp) : (s.setEpStamp i x t).ident = s.ident := by simp only [State.setEpStamp, State.setEp_ident]
@[simp] theorem State.setEpStamp_rcd (s : State) (i : Nat) (x : Nat → RF) (t : Stamp) : (s.setEpStamp i x t).rcd = s.rcd := by simp only [State.setEpStamp, State.setEp_rcd]
@[simp] theorem State.setEpStamp_drbg (s : State) (i : Nat) (x : Nat → RF) (t : Stamp) : (s.setEpStamp i x t).drbg = s.drbg := by simp only [State.setEpStamp, State.setEp_drbg]
@[simp] theorem State.setEpStamp_fab (s : State) (i : Nat) (x : Nat → RF) (t : Stamp) : (s.setEpStamp i x t).fab = s.fab := by simp only [State.setEpStamp, State.setEp_fab]
@[simp] theorem State.setEpStamp_rings (s : State) (i : Nat) (x : Nat → RF) (t : Stamp) : (s.setEpStamp i x t).rings = s.rings := by simp only [State.setEpStamp, State.setEp_rings]
@[simp] theorem State.setEpStamp_mtr (s : State) (i : Nat) (x : Nat → RF) (t : Stamp) : (s.setEpStamp i x t).mtr = s.mtr := by simp only [State.setEpStamp, State.setEp_mtr]
@[simp] theorem State.setEpStamp_rad (s : State) (i : Nat) (x : Nat → RF) (t : Stamp) : (s.setEpStamp i x t).rad = s.rad := by simp only [State.setEpStamp, State.setEp_rad]
@[simp] theorem State.setEpStamp_can (s : State) (i : Nat) (x : Nat → RF) (t : Stamp) : (s.setEpStamp i x t).can = s.can := by simp only [State.setEpStamp, State.setEp_can]
@[simp] theorem State.setEpStamp_ind (s : State) (i : Nat) (x : Nat → RF) (t : Stamp) : (s.setEpStamp i x t).ind = s.ind := by simp only [State.setEpStamp, State.setEp_ind]
@[simp] theorem State.setEpStamp_rtc (s : State) (i : Nat) (x : Nat → RF) (t : Stamp) : (s.setEpStamp i x t).rtc = s.rtc := by simp only [State.setEpStamp, State.setEp_rtc]
@[simp] theorem State.setEpStamp_key (s : State) (i : Nat) (x : Nat → RF) (t : Stamp) : (s.setEpStamp i x t).key = s.key := by simp only [State.setEpStamp, State.setEp_key]
@[simp] theorem State.setEpStamp_svc (s : State) (i : Nat) (x : Nat → RF) (t : Stamp) : (s.setEpStamp i x t).svc = s.svc := by simp only [State.setEpStamp, State.setEp_svc]
@[simp] theorem State.setEpStamp_out (s : State) (i : Nat) (x : Nat → RF) (t : Stamp) : (s.setEpStamp i x t).out = s.out := by simp only [State.setEpStamp, State.setEp_out]
@[simp] theorem State.setEpStamp_freeCtr (s : State) (i : Nat) (x : Nat → RF) (t : Stamp) : (s.setEpStamp i x t).freeCtr = s.freeCtr := by simp only [State.setEpStamp, State.setEp_freeCtr]
@[simp] theorem State.setEpStamp_pending (s : State) (i : Nat) (x : Nat → RF) (t : Stamp) : (s.setEpStamp i x t).pending = s.pending := by simp only [State.setEpStamp, State.setEp_pending]

/-! `State.setGrpBit` -/
@[simp] theorem State.setGrpBit_regs (s : State) (g i : Nat) (v : Bool) : (s.setGrpBit g i v).regs = s.regs := by simp only [State.setGrpBit, State.setFByte_regs]
@[simp] theorem State.setGrpBit_bus (s : State) (g i : Nat) (v : Bool) : (s.setGrpBit g i v).bus = s.bus := by simp only [State.setGrpBit, State.setFByte_bus]
@[simp] theorem State.setGrpBit_fe (s : State) (g i : Nat) (v : Bool) : (s.setGrpBit g i v).fe = s.fe := by simp only [State.setGrpBit, State.setFByte_fe]
@[simp] theorem State.setGrpBit_shf (s : State) (g i : Nat) (v : Bool) : (s.setGrpBit g i v).shf = s.shf := by simp only [State.setGrpBit, State.setFByte_shf]
@[simp] theorem State.setGrpBit_hnd (s : State) (g i : Nat) (v : Bool) : (s.setGrpBit g i v).hnd = s.hnd := by simp only [State.setGrpBit, State.setFByte_hnd]
@[simp] theorem State.setGrpBit_cal (s : State) (g i : Nat) (v : Bool) : (s.setGrpBit g i v).cal = s.cal := by simp only [State.setGrpBit, State.setFByte_cal]
@[simp] theorem State.setGrpBit_fcp (s : State) (g i : Nat) (v : Bool) : (s.setGrpBit g i v).fcp = s.fcp := by simp only [State.setGrpBit, State.setFByte_fcp]
@[simp] theorem State.setGrpBit_storm (s : State) (g i : Nat) (v : Bool) : (s.setGrpBit g i v).storm = s.storm := by simp only [State.setGrpBit, State.setFByte_storm]
@[simp] theorem State.setGrpBit_time (s : State) (g i : Nat) (v : Bool) : (s.setGrpBit g i v).time = s.time := by simp only [State.setGrpBit, State.setFByte_time]
@[simp] theorem State.setGrpBit_spares (s : State) (g i : Nat) (v : Bool) : (s.setGrpBit g i v).spares = s.spares := by simp only [State.setGrpBit, State.setFByte_spares]
@[simp] theorem State.setGrpBit_ledger (s : State) (g i : Nat) (v : Bool) : (s.setGrpBit g i v).ledger = s.ledger := by simp only [State.setGrpBit, State.setFByte_ledger]
@[simp] theorem State.setGrpBit_power (s : State) (g i : Nat) (v : Bool) : (s.setGrpBit g i v).power = s.power := by simp only [State.setGrpBit, State.setFByte_power]
@[simp] theorem State.setGrpBit_ident (s : State) (g i : Nat) (v : Bool) : (s.setGrpBit g i v).ident = s.ident := by simp only [State.setGrpBit, State.setFByte_ident]
@[simp] theorem State.setGrpBit_rcd (s : State) (g i : Nat) (v : Bool) : (s.setGrpBit g i v).rcd = s.rcd := by simp only [State.setGrpBit, State.setFByte_rcd]
@[simp] theorem State.setGrpBit_drbg (s : State) (g i : Nat) (v : Bool) : (s.setGrpBit g i v).drbg = s.drbg := by simp only [State.setGrpBit, State.setFByte_drbg]
@[simp] theorem State.setGrpBit_fab (s : State) (g i : Nat) (v : Bool) : (s.setGrpBit g i v).fab = s.fab := by simp only [State.setGrpBit, State.setFByte_fab]
@[simp] theorem State.setGrpBit_rings (s : State) (g i : Nat) (v : Bool) : (s.setGrpBit g i v).rings = s.rings := by simp only [State.setGrpBit, State.setFByte_rings]
@[simp] theorem State.setGrpBit_mtr (s : State) (g i : Nat) (v : Bool) : (s.setGrpBit g i v).mtr = s.mtr := by simp only [State.setGrpBit, State.setFByte_mtr]
@[simp] theorem State.setGrpBit_rad (s : State) (g i : Nat) (v : Bool) : (s.setGrpBit g i v).rad = s.rad := by simp only [State.setGrpBit, State.setFByte_rad]
@[simp] theorem State.setGrpBit_can (s : State) (g i : Nat) (v : Bool) : (s.setGrpBit g i v).can = s.can := by simp only [State.setGrpBit, State.setFByte_can]
@[simp] theorem State.setGrpBit_ind (s : State) (g i : Nat) (v : Bool) : (s.setGrpBit g i v).ind = s.ind := by simp only [State.setGrpBit, State.setFByte_ind]
@[simp] theorem State.setGrpBit_rtc (s : State) (g i : Nat) (v : Bool) : (s.setGrpBit g i v).rtc = s.rtc := by simp only [State.setGrpBit, State.setFByte_rtc]
@[simp] theorem State.setGrpBit_key (s : State) (g i : Nat) (v : Bool) : (s.setGrpBit g i v).key = s.key := by simp only [State.setGrpBit, State.setFByte_key]
@[simp] theorem State.setGrpBit_svc (s : State) (g i : Nat) (v : Bool) : (s.setGrpBit g i v).svc = s.svc := by simp only [State.setGrpBit, State.setFByte_svc]
@[simp] theorem State.setGrpBit_out (s : State) (g i : Nat) (v : Bool) : (s.setGrpBit g i v).out = s.out := by simp only [State.setGrpBit, State.setFByte_out]
@[simp] theorem State.setGrpBit_freeCtr (s : State) (g i : Nat) (v : Bool) : (s.setGrpBit g i v).freeCtr = s.freeCtr := by simp only [State.setGrpBit, State.setFByte_freeCtr]
@[simp] theorem State.setGrpBit_pending (s : State) (g i : Nat) (v : Bool) : (s.setGrpBit g i v).pending = s.pending := by simp only [State.setGrpBit, State.setFByte_pending]

/-! `State.setEng` -/
@[simp] theorem State.setEng_regs (s : State) (i : Nat) (e : Engine) : (s.setEng i e).regs = s.regs := rfl
@[simp] theorem State.setEng_bus (s : State) (i : Nat) (e : Engine) : (s.setEng i e).bus = s.bus := rfl
@[simp] theorem State.setEng_fmem (s : State) (i : Nat) (e : Engine) : (s.setEng i e).fmem = s.fmem := rfl
@[simp] theorem State.setEng_shf (s : State) (i : Nat) (e : Engine) : (s.setEng i e).shf = s.shf := rfl
@[simp] theorem State.setEng_hnd (s : State) (i : Nat) (e : Engine) : (s.setEng i e).hnd = s.hnd := rfl
@[simp] theorem State.setEng_cal (s : State) (i : Nat) (e : Engine) : (s.setEng i e).cal = s.cal := rfl
@[simp] theorem State.setEng_fcp (s : State) (i : Nat) (e : Engine) : (s.setEng i e).fcp = s.fcp := rfl
@[simp] theorem State.setEng_storm (s : State) (i : Nat) (e : Engine) : (s.setEng i e).storm = s.storm := rfl
@[simp] theorem State.setEng_time (s : State) (i : Nat) (e : Engine) : (s.setEng i e).time = s.time := rfl
@[simp] theorem State.setEng_spares (s : State) (i : Nat) (e : Engine) : (s.setEng i e).spares = s.spares := rfl
@[simp] theorem State.setEng_pair (s : State) (i : Nat) (e : Engine) : (s.setEng i e).pair = s.pair := rfl
@[simp] theorem State.setEng_ledger (s : State) (i : Nat) (e : Engine) : (s.setEng i e).ledger = s.ledger := rfl
@[simp] theorem State.setEng_power (s : State) (i : Nat) (e : Engine) : (s.setEng i e).power = s.power := rfl
@[simp] theorem State.setEng_ident (s : State) (i : Nat) (e : Engine) : (s.setEng i e).ident = s.ident := rfl
@[simp] theorem State.setEng_rcd (s : State) (i : Nat) (e : Engine) : (s.setEng i e).rcd = s.rcd := rfl
@[simp] theorem State.setEng_drbg (s : State) (i : Nat) (e : Engine) : (s.setEng i e).drbg = s.drbg := rfl
@[simp] theorem State.setEng_fab (s : State) (i : Nat) (e : Engine) : (s.setEng i e).fab = s.fab := rfl
@[simp] theorem State.setEng_rings (s : State) (i : Nat) (e : Engine) : (s.setEng i e).rings = s.rings := rfl
@[simp] theorem State.setEng_mtr (s : State) (i : Nat) (e : Engine) : (s.setEng i e).mtr = s.mtr := rfl
@[simp] theorem State.setEng_rad (s : State) (i : Nat) (e : Engine) : (s.setEng i e).rad = s.rad := rfl
@[simp] theorem State.setEng_can (s : State) (i : Nat) (e : Engine) : (s.setEng i e).can = s.can := rfl
@[simp] theorem State.setEng_ind (s : State) (i : Nat) (e : Engine) : (s.setEng i e).ind = s.ind := rfl
@[simp] theorem State.setEng_rtc (s : State) (i : Nat) (e : Engine) : (s.setEng i e).rtc = s.rtc := rfl
@[simp] theorem State.setEng_key (s : State) (i : Nat) (e : Engine) : (s.setEng i e).key = s.key := rfl
@[simp] theorem State.setEng_svc (s : State) (i : Nat) (e : Engine) : (s.setEng i e).svc = s.svc := rfl
@[simp] theorem State.setEng_out (s : State) (i : Nat) (e : Engine) : (s.setEng i e).out = s.out := rfl
@[simp] theorem State.setEng_freeCtr (s : State) (i : Nat) (e : Engine) : (s.setEng i e).freeCtr = s.freeCtr := rfl
@[simp] theorem State.setEng_pending (s : State) (i : Nat) (e : Engine) : (s.setEng i e).pending = s.pending := rfl

/-! `State.setIlist` -/
@[simp] theorem State.setIlist_regs (s : State) (l : Nat) (x : List IEvent) : (s.setIlist l x).regs = s.regs := rfl
@[simp] theorem State.setIlist_bus (s : State) (l : Nat) (x : List IEvent) : (s.setIlist l x).bus = s.bus := rfl
@[simp] theorem State.setIlist_fmem (s : State) (l : Nat) (x : List IEvent) : (s.setIlist l x).fmem = s.fmem := rfl
@[simp] theorem State.setIlist_shf (s : State) (l : Nat) (x : List IEvent) : (s.setIlist l x).shf = s.shf := rfl
@[simp] theorem State.setIlist_hnd (s : State) (l : Nat) (x : List IEvent) : (s.setIlist l x).hnd = s.hnd := rfl
@[simp] theorem State.setIlist_cal (s : State) (l : Nat) (x : List IEvent) : (s.setIlist l x).cal = s.cal := rfl
@[simp] theorem State.setIlist_fcp (s : State) (l : Nat) (x : List IEvent) : (s.setIlist l x).fcp = s.fcp := rfl
@[simp] theorem State.setIlist_storm (s : State) (l : Nat) (x : List IEvent) : (s.setIlist l x).storm = s.storm := rfl
@[simp] theorem State.setIlist_time (s : State) (l : Nat) (x : List IEvent) : (s.setIlist l x).time = s.time := rfl
@[simp] theorem State.setIlist_spares (s : State) (l : Nat) (x : List IEvent) : (s.setIlist l x).spares = s.spares := rfl
@[simp] theorem State.setIlist_pair (s : State) (l : Nat) (x : List IEvent) : (s.setIlist l x).pair = s.pair := rfl
@[simp] theorem State.setIlist_ledger (s : State) (l : Nat) (x : List IEvent) : (s.setIlist l x).ledger = s.ledger := rfl
@[simp] theorem State.setIlist_power (s : State) (l : Nat) (x : List IEvent) : (s.setIlist l x).power = s.power := rfl
@[simp] theorem State.setIlist_ident (s : State) (l : Nat) (x : List IEvent) : (s.setIlist l x).ident = s.ident := rfl
@[simp] theorem State.setIlist_rcd (s : State) (l : Nat) (x : List IEvent) : (s.setIlist l x).rcd = s.rcd := rfl
@[simp] theorem State.setIlist_drbg (s : State) (l : Nat) (x : List IEvent) : (s.setIlist l x).drbg = s.drbg := rfl
@[simp] theorem State.setIlist_fab (s : State) (l : Nat) (x : List IEvent) : (s.setIlist l x).fab = s.fab := rfl
@[simp] theorem State.setIlist_rings (s : State) (l : Nat) (x : List IEvent) : (s.setIlist l x).rings = s.rings := rfl
@[simp] theorem State.setIlist_mtr (s : State) (l : Nat) (x : List IEvent) : (s.setIlist l x).mtr = s.mtr := rfl
@[simp] theorem State.setIlist_rad (s : State) (l : Nat) (x : List IEvent) : (s.setIlist l x).rad = s.rad := rfl
@[simp] theorem State.setIlist_can (s : State) (l : Nat) (x : List IEvent) : (s.setIlist l x).can = s.can := rfl
@[simp] theorem State.setIlist_ind (s : State) (l : Nat) (x : List IEvent) : (s.setIlist l x).ind = s.ind := rfl
@[simp] theorem State.setIlist_rtc (s : State) (l : Nat) (x : List IEvent) : (s.setIlist l x).rtc = s.rtc := rfl
@[simp] theorem State.setIlist_key (s : State) (l : Nat) (x : List IEvent) : (s.setIlist l x).key = s.key := rfl
@[simp] theorem State.setIlist_svc (s : State) (l : Nat) (x : List IEvent) : (s.setIlist l x).svc = s.svc := rfl
@[simp] theorem State.setIlist_out (s : State) (l : Nat) (x : List IEvent) : (s.setIlist l x).out = s.out := rfl
@[simp] theorem State.setIlist_freeCtr (s : State) (l : Nat) (x : List IEvent) : (s.setIlist l x).freeCtr = s.freeCtr := rfl
@[simp] theorem State.setIlist_pending (s : State) (l : Nat) (x : List IEvent) : (s.setIlist l x).pending = s.pending := rfl

/-! `State.setHslot` -/
@[simp] theorem State.setHslot_regs (s : State) (i : Nat) (h : Handle) : (s.setHslot i h).regs = s.regs := rfl
@[simp] theorem State.setHslot_bus (s : State) (i : Nat) (h : Handle) : (s.setHslot i h).bus = s.bus := rfl
@[simp] theorem State.setHslot_fmem (s : State) (i : Nat) (h : Handle) : (s.setHslot i h).fmem = s.fmem := rfl
@[simp] theorem State.setHslot_fe (s : State) (i : Nat) (h : Handle) : (s.setHslot i h).fe = s.fe := rfl
@[simp] theorem State.setHslot_shf (s : State) (i : Nat) (h : Handle) : (s.setHslot i h).shf = s.shf := rfl
@[simp] theorem State.setHslot_cal (s : State) (i : Nat) (h : Handle) : (s.setHslot i h).cal = s.cal := rfl
@[simp] theorem State.setHslot_fcp (s : State) (i : Nat) (h : Handle) : (s.setHslot i h).fcp = s.fcp := rfl
@[simp] theorem State.setHslot_storm (s : State) (i : Nat) (h : Handle) : (s.setHslot i h).storm = s.storm := rfl
@[simp] theorem State.setHslot_time (s : State) (i : Nat) (h : Handle) : (s.setHslot i h).time = s.time := rfl
@[simp] theorem State.setHslot_spares (s : State) (i : Nat) (h : Handle) : (s.setHslot i h).spares = s.spares := rfl
@[simp] theorem State.setHslot_pair (s : State) (i : Nat) (h : Handle) : (s.setHslot i h).pair = s.pair := rfl
@[simp] theorem State.setHslot_ledger (s : State) (i : Nat) (h : Handle) : (s.setHslot i h).ledger = s.ledger := rfl
@[simp] theorem State.setHslot_power (s : State) (i : Nat) (h : Handle) : (s.setHslot i h).power = s.power := rfl
@[simp] theorem State.setHslot_ident (s : State) (i : Nat) (h : Handle) : (s.setHslot i h).ident = s.ident := rfl
@[simp] theorem State.setHslot_rcd (s : State) (i : Nat) (h : Handle) : (s.setHslot i h).rcd = s.rcd := rfl
@[simp] theorem State.setHslot_drbg (s : State) (i : Nat) (h : Handle) : (s.setHslot i h).drbg = s.drbg := rfl
@[simp] theorem State.setHslot_fab (s : State) (i : Nat) (h : Handle) : (s.setHslot i h).fab = s.fab := rfl
@[simp] theorem State.setHslot_rings (s : State) (i : Nat) (h : Handle) : (s.setHslot i h).rings = s.rings := rfl
@[simp] theorem State.setHslot_mtr (s : State) (i : Nat) (h : Handle) : (s.setHslot i h).mtr = s.mtr := rfl
@[simp] theorem State.setHslot_rad (s : State) (i : Nat) (h : Handle) : (s.setHslot i h).rad = s.rad := rfl
@[simp] theorem State.setHslot_can (s : State) (i : Nat) (h : Handle) : (s.setHslot i h).can = s.can := rfl
@[simp] theorem State.setHslot_ind (s : State) (i : Nat) (h : Handle) : (s.setHslot i h).ind = s.ind := rfl
@[simp] theorem State.setHslot_rtc (s : State) (i : Nat) (h : Handle) : (s.setHslot i h).rtc = s.rtc := rfl
@[simp] theorem State.setHslot_key (s : State) (i : Nat) (h : Handle) : (s.setHslot i h).key = s.key := rfl
@[simp] theorem State.setHslot_svc (s : State) (i : Nat) (h : Handle) : (s.setHslot i h).svc = s.svc := rfl
@[simp] theorem State.setHslot_out (s : State) (i : Nat) (h : Handle) : (s.setHslot i h).out = s.out := rfl
@[simp] theorem State.setHslot_freeCtr (s : State) (i : Nat) (h : Handle) : (s.setHslot i h).freeCtr = s.freeCtr := rfl
@[simp] theorem State.setHslot_pending (s : State) (i : Nat) (h : Handle) : (s.setHslot i h).pending = s.pending := rfl

/-! `State.setCal` -/
@[simp] theorem State.setCal_regs (s : State) (i : Nat) (e : Option CalEntry) : (s.setCal i e).regs = s.regs := rfl
@[simp] theorem State.setCal_bus (s : State) (i : Nat) (e : Option CalEntry) : (s.setCal i e).bus = s.bus := rfl
@[simp] theorem State.setCal_fmem (s : State) (i : Nat) (e : Option CalEntry) : (s.setCal i e).fmem = s.fmem := rfl
@[simp] theorem State.setCal_fe (s : State) (i : Nat) (e : Option CalEntry) : (s.setCal i e).fe = s.fe := rfl
@[simp] theorem State.setCal_shf (s : State) (i : Nat) (e : Option CalEntry) : (s.setCal i e).shf = s.shf := rfl
@[simp] theorem State.setCal_hnd (s : State) (i : Nat) (e : Option CalEntry) : (s.setCal i e).hnd = s.hnd := rfl
@[simp] theorem State.setCal_fcp (s : State) (i : Nat) (e : Option CalEntry) : (s.setCal i e).fcp = s.fcp := rfl
@[simp] theorem State.setCal_storm (s : State) (i : Nat) (e : Option CalEntry) : (s.setCal i e).storm = s.storm := rfl
@[simp] theorem State.setCal_time (s : State) (i : Nat) (e : Option CalEntry) : (s.setCal i e).time = s.time := rfl
@[simp] theorem State.setCal_spares (s : State) (i : Nat) (e : Option CalEntry) : (s.setCal i e).spares = s.spares := rfl
@[simp] theorem State.setCal_pair (s : State) (i : Nat) (e : Option CalEntry) : (s.setCal i e).pair = s.pair := rfl
@[simp] theorem State.setCal_ledger (s : State) (i : Nat) (e : Option CalEntry) : (s.setCal i e).ledger = s.ledger := rfl
@[simp] theorem State.setCal_power (s : State) (i : Nat) (e : Option CalEntry) : (s.setCal i e).power = s.power := rfl
@[simp] theorem State.setCal_ident (s : State) (i : Nat) (e : Option CalEntry) : (s.setCal i e).ident = s.ident := rfl
@[simp] theorem State.setCal_rcd (s : State) (i : Nat) (e : Option CalEntry) : (s.setCal i e).rcd = s.rcd := rfl
@[simp] theorem State.setCal_drbg (s : State) (i : Nat) (e : Option CalEntry) : (s.setCal i e).drbg = s.drbg := rfl
@[simp] theorem State.setCal_fab (s : State) (i : Nat) (e : Option CalEntry) : (s.setCal i e).fab = s.fab := rfl
@[simp] theorem State.setCal_rings (s : State) (i : Nat) (e : Option CalEntry) : (s.setCal i e).rings = s.rings := rfl
@[simp] theorem State.setCal_mtr (s : State) (i : Nat) (e : Option CalEntry) : (s.setCal i e).mtr = s.mtr := rfl
@[simp] theorem State.setCal_rad (s : State) (i : Nat) (e : Option CalEntry) : (s.setCal i e).rad = s.rad := rfl
@[simp] theorem State.setCal_can (s : State) (i : Nat) (e : Option CalEntry) : (s.setCal i e).can = s.can := rfl
@[simp] theorem State.setCal_ind (s : State) (i : Nat) (e : Option CalEntry) : (s.setCal i e).ind = s.ind := rfl
@[simp] theorem State.setCal_rtc (s : State) (i : Nat) (e : Option CalEntry) : (s.setCal i e).rtc = s.rtc := rfl
@[simp] theorem State.setCal_key (s : State) (i : Nat) (e : Option CalEntry) : (s.setCal i e).key = s.key := rfl
@[simp] theorem State.setCal_svc (s : State) (i : Nat) (e : Option CalEntry) : (s.setCal i e).svc = s.svc := rfl
@[simp] theorem State.setCal_out (s : State) (i : Nat) (e : Option CalEntry) : (s.setCal i e).out = s.out := rfl
@[simp] theorem State.setCal_freeCtr (s : State) (i : Nat) (e : Option CalEntry) : (s.setCal i e).freeCtr = s.freeCtr := rfl
@[simp] theorem State.setCal_pending (s : State) (i : Nat) (e : Option CalEntry) : (s.setCal i e).pending = s.pending := rfl

/-! `State.setCtx` -/
@[simp] theorem State.setCtx_regs (s : State) (c : Nat) (x : Ctx) : (s.setCtx c x).regs = s.regs := rfl
@[simp] theorem State.setCtx_bus (s : State) (c : Nat) (x : Ctx) : (s.setCtx c x).bus = s.bus := rfl
@[simp] theorem State.setCtx_fmem (s : State) (c : Nat) (x : Ctx) : (s.setCtx c x).fmem = s.fmem := rfl
@[simp] theorem State.setCtx_fe (s : State) (c : Nat) (x : Ctx) : (s.setCtx c x).fe = s.fe := rfl
@[simp] theorem State.setCtx_hnd (s : State) (c : Nat) (x : Ctx) : (s.setCtx c x).hnd = s.hnd := rfl
@[simp] theorem State.setCtx_cal (s : State) (c : Nat) (x : Ctx) : (s.setCtx c x).cal = s.cal := rfl
@[simp] theorem State.setCtx_fcp (s : State) (c : Nat) (x : Ctx) : (s.setCtx c x).fcp = s.fcp := rfl
@[simp] theorem State.setCtx_storm (s : State) (c : Nat) (x : Ctx) : (s.setCtx c x).storm = s.storm := rfl
@[simp] theorem State.setCtx_time (s : State) (c : Nat) (x : Ctx) : (s.setCtx c x).time = s.time := rfl
@[simp] theorem State.setCtx_spares (s : State) (c : Nat) (x : Ctx) : (s.setCtx c x).spares = s.spares := rfl
@[simp] theorem State.setCtx_pair (s : State) (c : Nat) (x : Ctx) : (s.setCtx c x).pair = s.pair := rfl
@[simp] theorem State.setCtx_ledger (s : State) (c : Nat) (x : Ctx) : (s.setCtx c x).ledger = s.ledger := rfl
@[simp] theorem State.setCtx_power (s : State) (c : Nat) (x : Ctx) : (s.setCtx c x).power = s.power := rfl
@[simp] theorem State.setCtx_ident (s : State) (c : Nat) (x : Ctx) : (s.setCtx c x).ident = s.ident := rfl
@[simp] theorem State.setCtx_rcd (s : State) (c : Nat) (x : Ctx) : (s.setCtx c x).rcd = s.rcd := rfl
@[simp] theorem State.setCtx_drbg (s : State) (c : Nat) (x : Ctx) : (s.setCtx c x).drbg = s.drbg := rfl
@[simp] theorem State.setCtx_fab (s : State) (c : Nat) (x : Ctx) : (s.setCtx c x).fab = s.fab := rfl
@[simp] theorem State.setCtx_rings (s : State) (c : Nat) (x : Ctx) : (s.setCtx c x).rings = s.rings := rfl
@[simp] theorem State.setCtx_mtr (s : State) (c : Nat) (x : Ctx) : (s.setCtx c x).mtr = s.mtr := rfl
@[simp] theorem State.setCtx_rad (s : State) (c : Nat) (x : Ctx) : (s.setCtx c x).rad = s.rad := rfl
@[simp] theorem State.setCtx_can (s : State) (c : Nat) (x : Ctx) : (s.setCtx c x).can = s.can := rfl
@[simp] theorem State.setCtx_ind (s : State) (c : Nat) (x : Ctx) : (s.setCtx c x).ind = s.ind := rfl
@[simp] theorem State.setCtx_rtc (s : State) (c : Nat) (x : Ctx) : (s.setCtx c x).rtc = s.rtc := rfl
@[simp] theorem State.setCtx_key (s : State) (c : Nat) (x : Ctx) : (s.setCtx c x).key = s.key := rfl
@[simp] theorem State.setCtx_svc (s : State) (c : Nat) (x : Ctx) : (s.setCtx c x).svc = s.svc := rfl
@[simp] theorem State.setCtx_out (s : State) (c : Nat) (x : Ctx) : (s.setCtx c x).out = s.out := rfl
@[simp] theorem State.setCtx_freeCtr (s : State) (c : Nat) (x : Ctx) : (s.setCtx c x).freeCtr = s.freeCtr := rfl
@[simp] theorem State.setCtx_pending (s : State) (c : Nat) (x : Ctx) : (s.setCtx c x).pending = s.pending := rfl

/-! A free value -/
@[simp] theorem State.free_regs (s : State) : s.free.2.regs = s.regs := rfl
@[simp] theorem State.free_bus (s : State) : s.free.2.bus = s.bus := rfl
@[simp] theorem State.free_fmem (s : State) : s.free.2.fmem = s.fmem := rfl
@[simp] theorem State.free_fe (s : State) : s.free.2.fe = s.fe := rfl
@[simp] theorem State.free_shf (s : State) : s.free.2.shf = s.shf := rfl
@[simp] theorem State.free_hnd (s : State) : s.free.2.hnd = s.hnd := rfl
@[simp] theorem State.free_cal (s : State) : s.free.2.cal = s.cal := rfl
@[simp] theorem State.free_fcp (s : State) : s.free.2.fcp = s.fcp := rfl
@[simp] theorem State.free_storm (s : State) : s.free.2.storm = s.storm := rfl
@[simp] theorem State.free_time (s : State) : s.free.2.time = s.time := rfl
@[simp] theorem State.free_spares (s : State) : s.free.2.spares = s.spares := rfl
@[simp] theorem State.free_pair (s : State) : s.free.2.pair = s.pair := rfl
@[simp] theorem State.free_ledger (s : State) : s.free.2.ledger = s.ledger := rfl
@[simp] theorem State.free_power (s : State) : s.free.2.power = s.power := rfl
@[simp] theorem State.free_ident (s : State) : s.free.2.ident = s.ident := rfl
@[simp] theorem State.free_rcd (s : State) : s.free.2.rcd = s.rcd := rfl
@[simp] theorem State.free_drbg (s : State) : s.free.2.drbg = s.drbg := rfl
@[simp] theorem State.free_fab (s : State) : s.free.2.fab = s.fab := rfl
@[simp] theorem State.free_rings (s : State) : s.free.2.rings = s.rings := rfl
@[simp] theorem State.free_mtr (s : State) : s.free.2.mtr = s.mtr := rfl
@[simp] theorem State.free_rad (s : State) : s.free.2.rad = s.rad := rfl
@[simp] theorem State.free_can (s : State) : s.free.2.can = s.can := rfl
@[simp] theorem State.free_ind (s : State) : s.free.2.ind = s.ind := rfl
@[simp] theorem State.free_rtc (s : State) : s.free.2.rtc = s.rtc := rfl
@[simp] theorem State.free_key (s : State) : s.free.2.key = s.key := rfl
@[simp] theorem State.free_svc (s : State) : s.free.2.svc = s.svc := rfl
@[simp] theorem State.free_out (s : State) : s.free.2.out = s.out := rfl
@[simp] theorem State.free_pending (s : State) : s.free.2.pending = s.pending := rfl
@[simp] theorem State.free_freeCtr (s : State) : s.free.2.freeCtr = s.freeCtr + 1 := rfl

/-! What the updates write -/
@[simp] theorem State.send_out (s : State) (o : Out) : (s.send o).out = s.out ++ [o] := rfl
@[simp] theorem State.record_offered (s : State) (c v n : Nat) (b : List Word) :
    (s.record c v n b).rcd.offered = s.rcd.offered ++ [⟨c, v, n, b⟩] := rfl
/-! The ledger commits a transition's INTENT and changes nothing else of the KEY block. -/
@[simp] theorem State.ledgerDone_key_slots (s : State) : s.ledgerDone.key.slots = s.key.slots := by
  unfold State.ledgerDone
  split <;> simp only [State.setF_key, Key.commitIntent]
@[simp] theorem State.ledgerDone_key_shadows (s : State) : s.ledgerDone.key.shadows = s.key.shadows := by
  unfold State.ledgerDone
  split <;> simp only [State.setF_key, Key.commitIntent]
@[simp] theorem State.ledgerDone_key_root (s : State) : s.ledgerDone.key.root = s.key.root := by
  unfold State.ledgerDone
  split <;> simp only [State.setF_key, Key.commitIntent]
@[simp] theorem State.ledgerDone_key_puf (s : State) : s.ledgerDone.key.puf = s.key.puf := by
  unfold State.ledgerDone
  split <;> simp only [State.setF_key, Key.commitIntent]
@[simp] theorem State.ledgerDone_key_recipes (s : State) : s.ledgerDone.key.recipes = s.key.recipes := by
  unfold State.ledgerDone
  split <;> simp only [State.setF_key, Key.commitIntent]
@[simp] theorem State.ledgerDone_key_helper (s : State) : s.ledgerDone.key.helper = s.key.helper := by
  unfold State.ledgerDone
  split <;> simp only [State.setF_key, Key.commitIntent]
@[simp] theorem State.ledgerDone_key_fuses (s : State) : s.ledgerDone.key.fuses = s.key.fuses := by
  unfold State.ledgerDone
  split <;> simp only [State.setF_key, Key.commitIntent]
@[simp] theorem State.ledgerDone_key_tampers (s : State) : s.ledgerDone.key.tampers = s.key.tampers := by
  unfold State.ledgerDone
  split <;> simp only [State.setF_key, Key.commitIntent]
@[simp] theorem State.ledgerDone_key_inEvent (s : State) : s.ledgerDone.key.inEvent = s.key.inEvent := by
  unfold State.ledgerDone
  split <;> simp only [State.setF_key, Key.commitIntent]
@[simp] theorem State.ledgerDone_key_marker (s : State) : s.ledgerDone.key.marker = s.key.marker := by
  unfold State.ledgerDone
  split <;> simp only [State.setF_key, Key.commitIntent]
@[simp] theorem State.ledgerDone_key_op (s : State) : s.ledgerDone.key.op = s.key.op := by
  unfold State.ledgerDone
  split <;> simp only [State.setF_key, Key.commitIntent]
@[simp] theorem State.ledgerDone_key_nonce (s : State) : s.ledgerDone.key.nonce = s.key.nonce := by
  unfold State.ledgerDone
  split <;> simp only [State.setF_key, Key.commitIntent]
@[simp] theorem State.ledgerDone_key_state (s : State) : s.ledgerDone.key.state = s.key.state := by
  unfold State.ledgerDone
  split <;> simp only [State.setF_key, Key.commitIntent]
@[simp] theorem State.ledgerCommit_key_slots (s : State) (g : LdgTag) (b : List Byte) : (s.ledgerCommit g b).key.slots = s.key.slots :=
  State.ledgerCommit_keeps (·.key.slots) (fun _ _ => by simp only [State.ledgerAdd_key]) State.ledgerDone_key_slots (fun _ _ => rfl) s g b
@[simp] theorem State.ledgerCommit_key_shadows (s : State) (g : LdgTag) (b : List Byte) : (s.ledgerCommit g b).key.shadows = s.key.shadows :=
  State.ledgerCommit_keeps (·.key.shadows) (fun _ _ => by simp only [State.ledgerAdd_key]) State.ledgerDone_key_shadows (fun _ _ => rfl) s g b
@[simp] theorem State.ledgerCommit_key_root (s : State) (g : LdgTag) (b : List Byte) : (s.ledgerCommit g b).key.root = s.key.root :=
  State.ledgerCommit_keeps (·.key.root) (fun _ _ => by simp only [State.ledgerAdd_key]) State.ledgerDone_key_root (fun _ _ => rfl) s g b
@[simp] theorem State.ledgerCommit_key_puf (s : State) (g : LdgTag) (b : List Byte) : (s.ledgerCommit g b).key.puf = s.key.puf :=
  State.ledgerCommit_keeps (·.key.puf) (fun _ _ => by simp only [State.ledgerAdd_key]) State.ledgerDone_key_puf (fun _ _ => rfl) s g b
@[simp] theorem State.ledgerCommit_key_recipes (s : State) (g : LdgTag) (b : List Byte) : (s.ledgerCommit g b).key.recipes = s.key.recipes :=
  State.ledgerCommit_keeps (·.key.recipes) (fun _ _ => by simp only [State.ledgerAdd_key]) State.ledgerDone_key_recipes (fun _ _ => rfl) s g b
@[simp] theorem State.ledgerCommit_key_helper (s : State) (g : LdgTag) (b : List Byte) : (s.ledgerCommit g b).key.helper = s.key.helper :=
  State.ledgerCommit_keeps (·.key.helper) (fun _ _ => by simp only [State.ledgerAdd_key]) State.ledgerDone_key_helper (fun _ _ => rfl) s g b
@[simp] theorem State.ledgerCommit_key_fuses (s : State) (g : LdgTag) (b : List Byte) : (s.ledgerCommit g b).key.fuses = s.key.fuses :=
  State.ledgerCommit_keeps (·.key.fuses) (fun _ _ => by simp only [State.ledgerAdd_key]) State.ledgerDone_key_fuses (fun _ _ => rfl) s g b
@[simp] theorem State.ledgerCommit_key_tampers (s : State) (g : LdgTag) (b : List Byte) : (s.ledgerCommit g b).key.tampers = s.key.tampers :=
  State.ledgerCommit_keeps (·.key.tampers) (fun _ _ => by simp only [State.ledgerAdd_key]) State.ledgerDone_key_tampers (fun _ _ => rfl) s g b
@[simp] theorem State.ledgerCommit_key_inEvent (s : State) (g : LdgTag) (b : List Byte) : (s.ledgerCommit g b).key.inEvent = s.key.inEvent :=
  State.ledgerCommit_keeps (·.key.inEvent) (fun _ _ => by simp only [State.ledgerAdd_key]) State.ledgerDone_key_inEvent (fun _ _ => rfl) s g b
@[simp] theorem State.ledgerCommit_key_marker (s : State) (g : LdgTag) (b : List Byte) : (s.ledgerCommit g b).key.marker = s.key.marker :=
  State.ledgerCommit_keeps (·.key.marker) (fun _ _ => by simp only [State.ledgerAdd_key]) State.ledgerDone_key_marker (fun _ _ => rfl) s g b
@[simp] theorem State.ledgerCommit_key_op (s : State) (g : LdgTag) (b : List Byte) : (s.ledgerCommit g b).key.op = s.key.op :=
  State.ledgerCommit_keeps (·.key.op) (fun _ _ => by simp only [State.ledgerAdd_key]) State.ledgerDone_key_op (fun _ _ => rfl) s g b
@[simp] theorem State.ledgerCommit_key_nonce (s : State) (g : LdgTag) (b : List Byte) : (s.ledgerCommit g b).key.nonce = s.key.nonce :=
  State.ledgerCommit_keeps (·.key.nonce) (fun _ _ => by simp only [State.ledgerAdd_key]) State.ledgerDone_key_nonce (fun _ _ => rfl) s g b
@[simp] theorem State.ledgerCommit_key_state (s : State) (g : LdgTag) (b : List Byte) : (s.ledgerCommit g b).key.state = s.key.state :=
  State.ledgerCommit_keeps (·.key.state) (fun _ _ => by simp only [State.ledgerAdd_key]) State.ledgerDone_key_state (fun _ _ => rfl) s g b
@[simp] theorem State.ledgerAdd_writeSeq (s : State) (w : LdgWrite) : (s.ledgerAdd w).ledger.writeSeq = s.ledger.writeSeq + 1 := by
  simp only [State.ledgerAdd, State.setF_ledger, State.setPairR_ledger]
@[simp] theorem State.ledgerDone_writeSeq (s : State) : s.ledgerDone.ledger.writeSeq = s.ledger.writeSeq := by
  unfold State.ledgerDone
  split <;> simp only [State.setF_ledger]
@[simp] theorem State.ledgerCommit_writeSeq (s : State) (g : LdgTag) (b : List Byte) :
    (s.ledgerCommit g b).ledger.writeSeq = s.ledger.writeSeq + 1 := by
  have tail (t : State) : (match t.ledger.writes with
      | [] => t
      | w :: l => { t with ledger := { t.ledger with
          bank0 := bankPut t.ledger.bank0 (w.entry.copy (t.ledger.writeSeq - l.length)) } }).ledger.writeSeq = t.ledger.writeSeq := by
    cases t.ledger.writes with
    | nil => rfl
    | cons w l => rfl
  exact (tail _).trans ((foldS_keeps (fun s => s.ledger.writeSeq) _ (fun _ s => s.ledgerDone_writeSeq) _ _).trans
    (State.ledgerAdd_writeSeq s _))
@[simp] theorem State.ledgerWait_writeSeq (s : State) (g : LdgTag) (b : List Byte) :
    (s.ledgerWait g b).ledger.writeSeq = s.ledger.writeSeq + 1 := State.ledgerAdd_writeSeq s _
/-- An insertion adds one entry. -/
theorem ldgInsert_length (w : LdgWrite) (l : List LdgWrite) : (ldgInsert w l).length = l.length + 1 := by
  induction l with
  | nil => rfl
  | cons x l ih => simp only [ldgInsert]; split <;> simp [ih]
@[simp] theorem State.ledgerAdd_busy (s : State) (w : LdgWrite) : (s.ledgerAdd w).ledger.busy = s.ledger.busy + 1 := by
  simp only [State.ledgerAdd, State.setF_ledger, State.setPairR_ledger, Ledger.busy, ldgInsert_length]
@[simp] theorem State.ledgerDone_busy (s : State) : s.ledgerDone.ledger.busy = s.ledger.busy - 1 := by
  unfold State.ledgerDone
  split <;> simp_all [State.setF_ledger, Ledger.busy]


theorem State.when_keeps {β : Type} (g : State → β) (s : State) (c : Bool) (f : State → State) (h : g (f s) = g s) :
    g (s.when c f) = g s := by
  cases c <;> simp [State.when, h]

end Sys2Proof.Machine
end

