-- ==== Sys2Proof/Laws/Store.lean ====
section
/-! SUPPORT. The laws of the sparse maps: a read after a write gives the value written, a write leaves every other key alone
(both for every list, canonical or not), and every write keeps the canonical form. -/
namespace Sys2Proof.Machine

variable {α : Type}

theorem sget_sput_same (d : Nat → α) (m : Store α) (k : Nat) (v : α) : sget d (sput m k v) k = v := by
  induction m with
  | nil => simp [sput, sget]
  | cons e r ih =>
    obtain ⟨j, w⟩ := e
    simp only [sput]
    split
    · simp [sget]
    · split
      · simp [sget]
      · simp [sget, *]

theorem sget_sput_ne (d : Nat → α) (m : Store α) (k i : Nat) (v : α) (h : i ≠ k) : sget d (sput m k v) i = sget d m i := by
  induction m with
  | nil => simp [sput, sget, Ne.symm h]
  | cons e r ih =>
    obtain ⟨j, w⟩ := e
    simp only [sput]
    split
    · simp [sget, Ne.symm h]
    · split
      · rename_i hj; subst hj; simp [sget, Ne.symm h]
      · simp [sget, ih]

theorem sget_sdel_same (d : Nat → α) (m : Store α) (k : Nat) : sget d (sdel m k) k = d k := by
  induction m with
  | nil => rfl
  | cons e r ih =>
    obtain ⟨j, w⟩ := e
    simp only [sdel]
    split
    · exact ih
    · simp [sget, *]

theorem sget_sdel_ne (d : Nat → α) (m : Store α) (k i : Nat) (h : i ≠ k) : sget d (sdel m k) i = sget d m i := by
  induction m with
  | nil => rfl
  | cons e r ih =>
    obtain ⟨j, w⟩ := e
    simp only [sdel]
    split
    · rename_i hj; subst hj; simp [sget, Ne.symm h, ih]
    · simp [sget, ih]

variable [DecidableEq α]

@[simp] theorem sget_sset_same (d : Nat → α) (m : Store α) (k : Nat) (v : α) : sget d (sset d m k v) k = v := by
  unfold sset; split
  · rename_i h; rw [sget_sdel_same, h]
  · exact sget_sput_same d m k v

theorem sget_sset_ne (d : Nat → α) (m : Store α) (k i : Nat) (v : α) (h : i ≠ k) : sget d (sset d m k v) i = sget d m i := by
  unfold sset; split
  · exact sget_sdel_ne d m k i h
  · exact sget_sput_ne d m k i v h

/-- A read after a write. -/
theorem sget_sset (d : Nat → α) (m : Store α) (k i : Nat) (v : α) :
    sget d (sset d m k v) i = if i = k then v else sget d m i := by
  split
  · rename_i h; subst h; simp
  · exact sget_sset_ne d m k i v ‹_›

/-! ## The canonical form -/

theorem skeysAbove_weaken {b c : Nat} (h : c ≤ b) : ∀ {m : Store α}, skeysAbove b m = true → skeysAbove c m = true
  | [], _ => rfl
  | (j, _) :: r, hm => by
    simp only [skeysAbove, Bool.and_eq_true, decide_eq_true_eq] at hm ⊢
    exact ⟨by omega, hm.2⟩

theorem skeysAbove_sput {b k : Nat} (v : α) (h : b < k) : ∀ {m : Store α}, skeysAbove b m = true → skeysAbove b (sput m k v) = true
  | [], _ => by simp [sput, skeysAbove, h]
  | (j, w) :: r, hm => by
    simp only [skeysAbove, Bool.and_eq_true, decide_eq_true_eq] at hm
    simp only [sput]
    split
    · simp [skeysAbove, *]
    · split
      · rename_i hj; subst hj; simp [skeysAbove, *]
      · have hk : j < k := by omega
        simp [skeysAbove, hm.1, skeysAbove_sput v hk hm.2]

theorem skeysAbove_sdel (k : Nat) : ∀ {b : Nat} {m : Store α}, skeysAbove b m = true → skeysAbove b (sdel m k) = true
  | _, [], _ => rfl
  | b, (j, w) :: r, hm => by
    simp only [skeysAbove, Bool.and_eq_true, decide_eq_true_eq] at hm
    simp only [sdel]
    split
    · exact skeysAbove_weaken (Nat.le_of_lt hm.1) (skeysAbove_sdel k hm.2)
    · simp [skeysAbove, hm.1, skeysAbove_sdel k hm.2]

theorem sput_all (p : Nat × α → Bool) (k : Nat) (v : α) (hv : p (k, v) = true) :
    ∀ {m : Store α}, m.all p = true → (sput m k v).all p = true
  | [], _ => by simp [sput, hv]
  | (j, w) :: r, hm => by
    rw [List.all_cons, Bool.and_eq_true] at hm
    simp only [sput]
    split
    · rw [List.all_cons, List.all_cons, hv, hm.1, hm.2]; rfl
    · split
      · rw [List.all_cons, hv, hm.2]; rfl
      · rw [List.all_cons, hm.1, sput_all p k v hv hm.2]; rfl

theorem sdel_all (p : Nat × α → Bool) (k : Nat) : ∀ {m : Store α}, m.all p = true → (sdel m k).all p = true
  | [], _ => rfl
  | (j, w) :: r, hm => by
    rw [List.all_cons, Bool.and_eq_true] at hm
    simp only [sdel]
    split
    · exact sdel_all p k hm.2
    · rw [List.all_cons, hm.1, sdel_all p k hm.2]; rfl

/-- Keys strictly rising, whatever the first is. -/
def srising : Store α → Bool
  | [] => true
  | (j, _) :: r => skeysAbove j r

theorem swf_iff (d : Nat → α) (m : Store α) :
    swf d m = true ↔ srising m = true ∧ m.all (fun e => decide (e.2 ≠ d e.1)) = true := by
  cases m <;> simp [swf, srising]

theorem srising_sput (k : Nat) (v : α) : ∀ {m : Store α}, srising m = true → srising (sput m k v) = true
  | [], _ => rfl
  | (j, w) :: r, hm => by
    simp only [sput]
    split
    · simp only [srising, skeysAbove, Bool.and_eq_true, decide_eq_true_eq]; exact ⟨‹_›, hm⟩
    · split
      · rename_i hj; subst hj; exact hm
      · exact skeysAbove_sput v (by omega) hm

theorem srising_of_above {b : Nat} : ∀ {m : Store α}, skeysAbove b m = true → srising m = true
  | [], _ => rfl
  | (_, _) :: _, h => by simp only [skeysAbove, Bool.and_eq_true] at h; exact h.2

theorem srising_sdel (k : Nat) : ∀ {m : Store α}, srising m = true → srising (sdel m k) = true
  | [], _ => rfl
  | (j, w) :: r, hm => by
    simp only [sdel]
    split
    · exact srising_of_above (skeysAbove_sdel k hm)
    · exact skeysAbove_sdel k hm

/-- Every write keeps the canonical form. -/
theorem swf_sset (d : Nat → α) (m : Store α) (k : Nat) (v : α) (h : swf d m = true) : swf d (sset d m k v) = true := by
  rw [swf_iff] at h ⊢
  unfold sset; split
  · exact ⟨srising_sdel k h.1, sdel_all _ k h.2⟩
  · exact ⟨srising_sput k v h.1, sput_all _ k v (by simpa using ‹_›) h.2⟩

theorem swf_smod (d : Nat → α) (m : Store α) (k : Nat) (f : α → α) (h : swf d m = true) : swf d (smod d m k f) = true :=
  swf_sset d m k _ h

@[simp] theorem swf_nil (d : Nat → α) : swf d [] = true := rfl

/-- Keeping only some pairs keeps the canonical form. -/
theorem skeysAbove_filter (p : Nat × α → Bool) : ∀ {b : Nat} {m : Store α}, skeysAbove b m = true → skeysAbove b (m.filter p) = true
  | _, [], _ => rfl
  | b, (j, w) :: r, hm => by
    simp only [skeysAbove, Bool.and_eq_true, decide_eq_true_eq] at hm
    rw [List.filter_cons]
    split
    · simp [skeysAbove, hm.1, skeysAbove_filter p hm.2]
    · exact skeysAbove_weaken (Nat.le_of_lt hm.1) (skeysAbove_filter p hm.2)

theorem swf_filter (d : Nat → α) (p : Nat × α → Bool) (m : Store α) (h : swf d m = true) : swf d (m.filter p) = true := by
  rw [swf_iff] at h ⊢
  refine ⟨?_, ?_⟩
  · cases m with
    | nil => rfl
    | cons e r =>
      rw [List.filter_cons]
      split
      · exact skeysAbove_filter p h.1
      · exact srising_of_above (skeysAbove_filter p h.1)
  · rw [List.all_eq_true] at h ⊢
    exact fun e he => h.2 e (List.mem_filter.mp he).1

/-- A key at or below a bound under which nothing is listed reads as unlisted. -/
theorem sget_below (d : Nat → α) : ∀ {b : Nat} {m : Store α} (k : Nat), k ≤ b → skeysAbove b m = true → sget d m k = d k
  | _, [], _, _, _ => rfl
  | b, (j, w) :: r, k, hk, hm => by
    simp only [skeysAbove, Bool.and_eq_true, decide_eq_true_eq] at hm
    have : j ≠ k := by omega
    simp [sget, this, sget_below d k (by omega) hm.2]

end Sys2Proof.Machine
end

