-- ==== Sys2Proof/Laws/Fmem.lean ====
section
/-! SUPPORT. The laws of field memory (R7, R25): bytes and words read what was stored last, other bytes are left alone, and every
store keeps the canonical form. -/
namespace Sys2Proof.Machine

/-- A byte read after a byte store. -/
theorem State.fbyte_setFByte (s : State) (a i : Nat) (v : Byte) :
    (s.setFByte a v).fbyte i = if i = a then v else s.fbyte i := by
  simp only [State.setFByte, State.fbyte]; exact sget_sset _ _ _ _ _

/-- Bytes depend on field memory alone. -/
theorem State.fbyte_congr {s t : State} (h : s.fmem = t.fmem) (i : Nat) : s.fbyte i = t.fbyte i := by
  simp only [State.fbyte, h]
theorem State.fword_congr {s t : State} (h : s.fmem = t.fmem) (i : Nat) : s.fword i = t.fword i := by
  simp only [State.fword, State.fbyte, h]
theorem State.m_congr {s t : State} (h : s.fmem = t.fmem) (b : Nat) (x : RF) : s.m b x = t.m b x := by
  simp only [State.m, State.fword_congr h]
theorem State.ep_congr {s t : State} (h : s.fmem = t.fmem) (i : Nat) (x : RF) : s.ep i x = t.ep i x := State.m_congr h _ _

/-- A word store leaves the bytes outside the word alone. -/
theorem State.fbyte_setFWord_ne (s : State) (a i : Nat) (v : Word) (h : i < a ∨ a + 4 ≤ i) :
    (s.setFWord a v).fbyte i = s.fbyte i := by
  simp only [State.setFWord, State.fbyte_setFByte]
  rw [if_neg (by omega), if_neg (by omega), if_neg (by omega), if_neg (by omega)]

theorem bytesWord_wordByte (v : Word) : bytesWord (wordByte v 0) (wordByte v 1) (wordByte v 2) (wordByte v 3) = v := by
  apply BitVec.eq_of_toNat_eq
  have := v.isLt
  simp [bytesWord, wordByte, Nat.shiftRight_eq_div_pow]
  omega

/-- A word read after a word store. -/
@[simp] theorem State.fword_setFWord_same (s : State) (a : Nat) (v : Word) : (s.setFWord a v).fword a = v := by
  simp only [State.setFWord, State.fword, State.fbyte_setFByte]
  simp
  exact bytesWord_wordByte v

theorem State.fword_setFWord_ne (s : State) (a b : Nat) (v : Word) (h : b + 4 ≤ a ∨ a + 4 ≤ b) :
    (s.setFWord a v).fword b = s.fword b := by
  simp only [State.fword]
  rw [State.fbyte_setFWord_ne _ _ _ _ (by omega), State.fbyte_setFWord_ne _ _ _ _ (by omega),
    State.fbyte_setFWord_ne _ _ _ _ (by omega), State.fbyte_setFWord_ne _ _ _ _ (by omega)]

/-- A field of a record reads what was put in it. -/
theorem State.m_setM_same (s : State) (b : Nat) (x : RF) (v : Nat) (h : x.lsb + x.width ≤ 32) :
    (s.setM b x v).m b x = v % 2 ^ x.width := by
  simp only [State.m, State.setM, State.fword_setFWord_same]
  exact getBits_setBits_same _ _ _ _ h

/-- A field of a record keeps its value when a field that shares no bit with it is set; words are aligned. -/
theorem State.m_setM_ne (s : State) (b c : Nat) (x y : RF) (v : Nat) (h : x.lsb + x.width ≤ 32)
    (d : c + y.off + 4 ≤ b + x.off ∨ b + x.off + 4 ≤ c + y.off ∨
      (c + y.off = b + x.off ∧ (x.lsb + x.width ≤ y.lsb ∨ y.lsb + y.width ≤ x.lsb))) :
    (s.setM b x v).m c y = s.m c y := by
  simp only [State.m, State.setM]
  rcases d with d | d | ⟨e, d⟩
  · rw [State.fword_setFWord_ne _ _ _ _ (by omega)]
  · rw [State.fword_setFWord_ne _ _ _ _ (by omega)]
  · rw [e, State.fword_setFWord_same]
    exact getBits_setBits_ne _ _ _ _ _ _ h d

/-- Every byte store keeps the canonical form. -/
theorem State.setFByte_canonical (s : State) (a : Nat) (v : Byte) (h : swf fmemReset s.fmem = true) :
    swf fmemReset (s.setFByte a v).fmem = true := swf_sset _ _ _ _ h
theorem State.setFWord_canonical (s : State) (a : Nat) (v : Word) (h : swf fmemReset s.fmem = true) :
    swf fmemReset (s.setFWord a v).fmem = true := by
  simp only [State.setFWord]
  exact State.setFByte_canonical _ _ _ (State.setFByte_canonical _ _ _ (State.setFByte_canonical _ _ _
    (State.setFByte_canonical _ _ _ h)))

/-- Setting a bit of a group changes that bit alone (R53, R108). -/
theorem State.grpBit_setGrpBit (s : State) (g i : Nat) (v : Bool) : (s.setGrpBit g i v).grpBit g i = v := by
  have h : i % 8 < 8 := Nat.mod_lt _ (by decide)
  simp only [State.setGrpBit, State.grpBit, State.fbyte_setFByte, if_true]
  generalize s.fbyte (grpBase g + i / 8) = b
  generalize i % 8 = k at h
  interval_cases k <;> cases v <;> simp

end Sys2Proof.Machine
end

