-- ==== Sys2Proof/Laws/Parts.lean ====
section
/-! SUPPORT. What an update of one part of the state (`modFab` and the like) writes, and that it leaves every other part alone. -/
namespace Sys2Proof.Machine

/-! `State.modFab` -/
@[simp] theorem State.modFab_regs (s : State) (g : Fab → Fab) : (s.modFab g).regs = s.regs := rfl
@[simp] theorem State.modFab_bus (s : State) (g : Fab → Fab) : (s.modFab g).bus = s.bus := rfl
@[simp] theorem State.modFab_fmem (s : State) (g : Fab → Fab) : (s.modFab g).fmem = s.fmem := rfl
@[simp] theorem State.modFab_fe (s : State) (g : Fab → Fab) : (s.modFab g).fe = s.fe := rfl
@[simp] theorem State.modFab_shf (s : State) (g : Fab → Fab) : (s.modFab g).shf = s.shf := rfl
@[simp] theorem State.modFab_hnd (s : State) (g : Fab → Fab) : (s.modFab g).hnd = s.hnd := rfl
@[simp] theorem State.modFab_cal (s : State) (g : Fab → Fab) : (s.modFab g).cal = s.cal := rfl
@[simp] theorem State.modFab_fcp (s : State) (g : Fab → Fab) : (s.modFab g).fcp = s.fcp := rfl
@[simp] theorem State.modFab_storm (s : State) (g : Fab → Fab) : (s.modFab g).storm = s.storm := rfl
@[simp] theorem State.modFab_time (s : State) (g : Fab → Fab) : (s.modFab g).time = s.time := rfl
@[simp] theorem State.modFab_spares (s : State) (g : Fab → Fab) : (s.modFab g).spares = s.spares := rfl
@[simp] theorem State.modFab_pair (s : State) (g : Fab → Fab) : (s.modFab g).pair = s.pair := rfl
@[simp] theorem State.modFab_ledger (s : State) (g : Fab → Fab) : (s.modFab g).ledger = s.ledger := rfl
@[simp] theorem State.modFab_power (s : State) (g : Fab → Fab) : (s.modFab g).power = s.power := rfl
@[simp] theorem State.modFab_ident (s : State) (g : Fab → Fab) : (s.modFab g).ident = s.ident := rfl
@[simp] theorem State.modFab_rcd (s : State) (g : Fab → Fab) : (s.modFab g).rcd = s.rcd := rfl
@[simp] theorem State.modFab_drbg (s : State) (g : Fab → Fab) : (s.modFab g).drbg = s.drbg := rfl
@[simp] theorem State.modFab_fab (s : State) (g : Fab → Fab) : (s.modFab g).fab = g s.fab := rfl
@[simp] theorem State.modFab_rings (s : State) (g : Fab → Fab) : (s.modFab g).rings = s.rings := rfl
@[simp] theorem State.modFab_mtr (s : State) (g : Fab → Fab) : (s.modFab g).mtr = s.mtr := rfl
@[simp] theorem State.modFab_rad (s : State) (g : Fab → Fab) : (s.modFab g).rad = s.rad := rfl
@[simp] theorem State.modFab_can (s : State) (g : Fab → Fab) : (s.modFab g).can = s.can := rfl
@[simp] theorem State.modFab_ind (s : State) (g : Fab → Fab) : (s.modFab g).ind = s.ind := rfl
@[simp] theorem State.modFab_rtc (s : State) (g : Fab → Fab) : (s.modFab g).rtc = s.rtc := rfl
@[simp] theorem State.modFab_key (s : State) (g : Fab → Fab) : (s.modFab g).key = s.key := rfl
@[simp] theorem State.modFab_svc (s : State) (g : Fab → Fab) : (s.modFab g).svc = s.svc := rfl
@[simp] theorem State.modFab_out (s : State) (g : Fab → Fab) : (s.modFab g).out = s.out := rfl
@[simp] theorem State.modFab_freeCtr (s : State) (g : Fab → Fab) : (s.modFab g).freeCtr = s.freeCtr := rfl
@[simp] theorem State.modFab_pending (s : State) (g : Fab → Fab) : (s.modFab g).pending = s.pending := rfl

/-! `State.modSpares` -/
@[simp] theorem State.modSpares_regs (s : State) (g : Spares → Spares) : (s.modSpares g).regs = s.regs := rfl
@[simp] theorem State.modSpares_bus (s : State) (g : Spares → Spares) : (s.modSpares g).bus = s.bus := rfl
@[simp] theorem State.modSpares_fmem (s : State) (g : Spares → Spares) : (s.modSpares g).fmem = s.fmem := rfl
@[simp] theorem State.modSpares_fe (s : State) (g : Spares → Spares) : (s.modSpares g).fe = s.fe := rfl
@[simp] theorem State.modSpares_shf (s : State) (g : Spares → Spares) : (s.modSpares g).shf = s.shf := rfl
@[simp] theorem State.modSpares_hnd (s : State) (g : Spares → Spares) : (s.modSpares g).hnd = s.hnd := rfl
@[simp] theorem State.modSpares_cal (s : State) (g : Spares → Spares) : (s.modSpares g).cal = s.cal := rfl
@[simp] theorem State.modSpares_fcp (s : State) (g : Spares → Spares) : (s.modSpares g).fcp = s.fcp := rfl
@[simp] theorem State.modSpares_storm (s : State) (g : Spares → Spares) : (s.modSpares g).storm = s.storm := rfl
@[simp] theorem State.modSpares_time (s : State) (g : Spares → Spares) : (s.modSpares g).time = s.time := rfl
@[simp] theorem State.modSpares_spares (s : State) (g : Spares → Spares) : (s.modSpares g).spares = g s.spares := rfl
@[simp] theorem State.modSpares_pair (s : State) (g : Spares → Spares) : (s.modSpares g).pair = s.pair := rfl
@[simp] theorem State.modSpares_ledger (s : State) (g : Spares → Spares) : (s.modSpares g).ledger = s.ledger := rfl
@[simp] theorem State.modSpares_power (s : State) (g : Spares → Spares) : (s.modSpares g).power = s.power := rfl
@[simp] theorem State.modSpares_ident (s : State) (g : Spares → Spares) : (s.modSpares g).ident = s.ident := rfl
@[simp] theorem State.modSpares_rcd (s : State) (g : Spares → Spares) : (s.modSpares g).rcd = s.rcd := rfl
@[simp] theorem State.modSpares_drbg (s : State) (g : Spares → Spares) : (s.modSpares g).drbg = s.drbg := rfl
@[simp] theorem State.modSpares_fab (s : State) (g : Spares → Spares) : (s.modSpares g).fab = s.fab := rfl
@[simp] theorem State.modSpares_rings (s : State) (g : Spares → Spares) : (s.modSpares g).rings = s.rings := rfl
@[simp] theorem State.modSpares_mtr (s : State) (g : Spares → Spares) : (s.modSpares g).mtr = s.mtr := rfl
@[simp] theorem State.modSpares_rad (s : State) (g : Spares → Spares) : (s.modSpares g).rad = s.rad := rfl
@[simp] theorem State.modSpares_can (s : State) (g : Spares → Spares) : (s.modSpares g).can = s.can := rfl
@[simp] theorem State.modSpares_ind (s : State) (g : Spares → Spares) : (s.modSpares g).ind = s.ind := rfl
@[simp] theorem State.modSpares_rtc (s : State) (g : Spares → Spares) : (s.modSpares g).rtc = s.rtc := rfl
@[simp] theorem State.modSpares_key (s : State) (g : Spares → Spares) : (s.modSpares g).key = s.key := rfl
@[simp] theorem State.modSpares_svc (s : State) (g : Spares → Spares) : (s.modSpares g).svc = s.svc := rfl
@[simp] theorem State.modSpares_out (s : State) (g : Spares → Spares) : (s.modSpares g).out = s.out := rfl
@[simp] theorem State.modSpares_freeCtr (s : State) (g : Spares → Spares) : (s.modSpares g).freeCtr = s.freeCtr := rfl
@[simp] theorem State.modSpares_pending (s : State) (g : Spares → Spares) : (s.modSpares g).pending = s.pending := rfl

/-! `State.modPair` -/
@[simp] theorem State.modPair_regs (s : State) (g : Pair → Pair) : (s.modPair g).regs = s.regs := rfl
@[simp] theorem State.modPair_bus (s : State) (g : Pair → Pair) : (s.modPair g).bus = s.bus := rfl
@[simp] theorem State.modPair_fmem (s : State) (g : Pair → Pair) : (s.modPair g).fmem = s.fmem := rfl
@[simp] theorem State.modPair_fe (s : State) (g : Pair → Pair) : (s.modPair g).fe = s.fe := rfl
@[simp] theorem State.modPair_shf (s : State) (g : Pair → Pair) : (s.modPair g).shf = s.shf := rfl
@[simp] theorem State.modPair_hnd (s : State) (g : Pair → Pair) : (s.modPair g).hnd = s.hnd := rfl
@[simp] theorem State.modPair_cal (s : State) (g : Pair → Pair) : (s.modPair g).cal = s.cal := rfl
@[simp] theorem State.modPair_fcp (s : State) (g : Pair → Pair) : (s.modPair g).fcp = s.fcp := rfl
@[simp] theorem State.modPair_storm (s : State) (g : Pair → Pair) : (s.modPair g).storm = s.storm := rfl
@[simp] theorem State.modPair_time (s : State) (g : Pair → Pair) : (s.modPair g).time = s.time := rfl
@[simp] theorem State.modPair_spares (s : State) (g : Pair → Pair) : (s.modPair g).spares = s.spares := rfl
@[simp] theorem State.modPair_pair (s : State) (g : Pair → Pair) : (s.modPair g).pair = g s.pair := rfl
@[simp] theorem State.modPair_ledger (s : State) (g : Pair → Pair) : (s.modPair g).ledger = s.ledger := rfl
@[simp] theorem State.modPair_power (s : State) (g : Pair → Pair) : (s.modPair g).power = s.power := rfl
@[simp] theorem State.modPair_ident (s : State) (g : Pair → Pair) : (s.modPair g).ident = s.ident := rfl
@[simp] theorem State.modPair_rcd (s : State) (g : Pair → Pair) : (s.modPair g).rcd = s.rcd := rfl
@[simp] theorem State.modPair_drbg (s : State) (g : Pair → Pair) : (s.modPair g).drbg = s.drbg := rfl
@[simp] theorem State.modPair_fab (s : State) (g : Pair → Pair) : (s.modPair g).fab = s.fab := rfl
@[simp] theorem State.modPair_rings (s : State) (g : Pair → Pair) : (s.modPair g).rings = s.rings := rfl
@[simp] theorem State.modPair_mtr (s : State) (g : Pair → Pair) : (s.modPair g).mtr = s.mtr := rfl
@[simp] theorem State.modPair_rad (s : State) (g : Pair → Pair) : (s.modPair g).rad = s.rad := rfl
@[simp] theorem State.modPair_can (s : State) (g : Pair → Pair) : (s.modPair g).can = s.can := rfl
@[simp] theorem State.modPair_ind (s : State) (g : Pair → Pair) : (s.modPair g).ind = s.ind := rfl
@[simp] theorem State.modPair_rtc (s : State) (g : Pair → Pair) : (s.modPair g).rtc = s.rtc := rfl
@[simp] theorem State.modPair_key (s : State) (g : Pair → Pair) : (s.modPair g).key = s.key := rfl
@[simp] theorem State.modPair_svc (s : State) (g : Pair → Pair) : (s.modPair g).svc = s.svc := rfl
@[simp] theorem State.modPair_out (s : State) (g : Pair → Pair) : (s.modPair g).out = s.out := rfl
@[simp] theorem State.modPair_freeCtr (s : State) (g : Pair → Pair) : (s.modPair g).freeCtr = s.freeCtr := rfl
@[simp] theorem State.modPair_pending (s : State) (g : Pair → Pair) : (s.modPair g).pending = s.pending := rfl

/-! `State.modPower` -/
@[simp] theorem State.modPower_regs (s : State) (g : Power → Power) : (s.modPower g).regs = s.regs := rfl
@[simp] theorem State.modPower_bus (s : State) (g : Power → Power) : (s.modPower g).bus = s.bus := rfl
@[simp] theorem State.modPower_fmem (s : State) (g : Power → Power) : (s.modPower g).fmem = s.fmem := rfl
@[simp] theorem State.modPower_fe (s : State) (g : Power → Power) : (s.modPower g).fe = s.fe := rfl
@[simp] theorem State.modPower_shf (s : State) (g : Power → Power) : (s.modPower g).shf = s.shf := rfl
@[simp] theorem State.modPower_hnd (s : State) (g : Power → Power) : (s.modPower g).hnd = s.hnd := rfl
@[simp] theorem State.modPower_cal (s : State) (g : Power → Power) : (s.modPower g).cal = s.cal := rfl
@[simp] theorem State.modPower_fcp (s : State) (g : Power → Power) : (s.modPower g).fcp = s.fcp := rfl
@[simp] theorem State.modPower_storm (s : State) (g : Power → Power) : (s.modPower g).storm = s.storm := rfl
@[simp] theorem State.modPower_time (s : State) (g : Power → Power) : (s.modPower g).time = s.time := rfl
@[simp] theorem State.modPower_spares (s : State) (g : Power → Power) : (s.modPower g).spares = s.spares := rfl
@[simp] theorem State.modPower_pair (s : State) (g : Power → Power) : (s.modPower g).pair = s.pair := rfl
@[simp] theorem State.modPower_ledger (s : State) (g : Power → Power) : (s.modPower g).ledger = s.ledger := rfl
@[simp] theorem State.modPower_power (s : State) (g : Power → Power) : (s.modPower g).power = g s.power := rfl
@[simp] theorem State.modPower_ident (s : State) (g : Power → Power) : (s.modPower g).ident = s.ident := rfl
@[simp] theorem State.modPower_rcd (s : State) (g : Power → Power) : (s.modPower g).rcd = s.rcd := rfl
@[simp] theorem State.modPower_drbg (s : State) (g : Power → Power) : (s.modPower g).drbg = s.drbg := rfl
@[simp] theorem State.modPower_fab (s : State) (g : Power → Power) : (s.modPower g).fab = s.fab := rfl
@[simp] theorem State.modPower_rings (s : State) (g : Power → Power) : (s.modPower g).rings = s.rings := rfl
@[simp] theorem State.modPower_mtr (s : State) (g : Power → Power) : (s.modPower g).mtr = s.mtr := rfl
@[simp] theorem State.modPower_rad (s : State) (g : Power → Power) : (s.modPower g).rad = s.rad := rfl
@[simp] theorem State.modPower_can (s : State) (g : Power → Power) : (s.modPower g).can = s.can := rfl
@[simp] theorem State.modPower_ind (s : State) (g : Power → Power) : (s.modPower g).ind = s.ind := rfl
@[simp] theorem State.modPower_rtc (s : State) (g : Power → Power) : (s.modPower g).rtc = s.rtc := rfl
@[simp] theorem State.modPower_key (s : State) (g : Power → Power) : (s.modPower g).key = s.key := rfl
@[simp] theorem State.modPower_svc (s : State) (g : Power → Power) : (s.modPower g).svc = s.svc := rfl
@[simp] theorem State.modPower_out (s : State) (g : Power → Power) : (s.modPower g).out = s.out := rfl
@[simp] theorem State.modPower_freeCtr (s : State) (g : Power → Power) : (s.modPower g).freeCtr = s.freeCtr := rfl
@[simp] theorem State.modPower_pending (s : State) (g : Power → Power) : (s.modPower g).pending = s.pending := rfl

/-! `State.modSvc` -/
@[simp] theorem State.modSvc_regs (s : State) (g : Svc → Svc) : (s.modSvc g).regs = s.regs := rfl
@[simp] theorem State.modSvc_bus (s : State) (g : Svc → Svc) : (s.modSvc g).bus = s.bus := rfl
@[simp] theorem State.modSvc_fmem (s : State) (g : Svc → Svc) : (s.modSvc g).fmem = s.fmem := rfl
@[simp] theorem State.modSvc_fe (s : State) (g : Svc → Svc) : (s.modSvc g).fe = s.fe := rfl
@[simp] theorem State.modSvc_shf (s : State) (g : Svc → Svc) : (s.modSvc g).shf = s.shf := rfl
@[simp] theorem State.modSvc_hnd (s : State) (g : Svc → Svc) : (s.modSvc g).hnd = s.hnd := rfl
@[simp] theorem State.modSvc_cal (s : State) (g : Svc → Svc) : (s.modSvc g).cal = s.cal := rfl
@[simp] theorem State.modSvc_fcp (s : State) (g : Svc → Svc) : (s.modSvc g).fcp = s.fcp := rfl
@[simp] theorem State.modSvc_storm (s : State) (g : Svc → Svc) : (s.modSvc g).storm = s.storm := rfl
@[simp] theorem State.modSvc_time (s : State) (g : Svc → Svc) : (s.modSvc g).time = s.time := rfl
@[simp] theorem State.modSvc_spares (s : State) (g : Svc → Svc) : (s.modSvc g).spares = s.spares := rfl
@[simp] theorem State.modSvc_pair (s : State) (g : Svc → Svc) : (s.modSvc g).pair = s.pair := rfl
@[simp] theorem State.modSvc_ledger (s : State) (g : Svc → Svc) : (s.modSvc g).ledger = s.ledger := rfl
@[simp] theorem State.modSvc_power (s : State) (g : Svc → Svc) : (s.modSvc g).power = s.power := rfl
@[simp] theorem State.modSvc_ident (s : State) (g : Svc → Svc) : (s.modSvc g).ident = s.ident := rfl
@[simp] theorem State.modSvc_rcd (s : State) (g : Svc → Svc) : (s.modSvc g).rcd = s.rcd := rfl
@[simp] theorem State.modSvc_drbg (s : State) (g : Svc → Svc) : (s.modSvc g).drbg = s.drbg := rfl
@[simp] theorem State.modSvc_fab (s : State) (g : Svc → Svc) : (s.modSvc g).fab = s.fab := rfl
@[simp] theorem State.modSvc_rings (s : State) (g : Svc → Svc) : (s.modSvc g).rings = s.rings := rfl
@[simp] theorem State.modSvc_mtr (s : State) (g : Svc → Svc) : (s.modSvc g).mtr = s.mtr := rfl
@[simp] theorem State.modSvc_rad (s : State) (g : Svc → Svc) : (s.modSvc g).rad = s.rad := rfl
@[simp] theorem State.modSvc_can (s : State) (g : Svc → Svc) : (s.modSvc g).can = s.can := rfl
@[simp] theorem State.modSvc_ind (s : State) (g : Svc → Svc) : (s.modSvc g).ind = s.ind := rfl
@[simp] theorem State.modSvc_rtc (s : State) (g : Svc → Svc) : (s.modSvc g).rtc = s.rtc := rfl
@[simp] theorem State.modSvc_key (s : State) (g : Svc → Svc) : (s.modSvc g).key = s.key := rfl
@[simp] theorem State.modSvc_svc (s : State) (g : Svc → Svc) : (s.modSvc g).svc = g s.svc := rfl
@[simp] theorem State.modSvc_out (s : State) (g : Svc → Svc) : (s.modSvc g).out = s.out := rfl
@[simp] theorem State.modSvc_freeCtr (s : State) (g : Svc → Svc) : (s.modSvc g).freeCtr = s.freeCtr := rfl
@[simp] theorem State.modSvc_pending (s : State) (g : Svc → Svc) : (s.modSvc g).pending = s.pending := rfl

/-! `State.modMtr` -/
@[simp] theorem State.modMtr_regs (s : State) (g : Mtr → Mtr) : (s.modMtr g).regs = s.regs := rfl
@[simp] theorem State.modMtr_bus (s : State) (g : Mtr → Mtr) : (s.modMtr g).bus = s.bus := rfl
@[simp] theorem State.modMtr_fmem (s : State) (g : Mtr → Mtr) : (s.modMtr g).fmem = s.fmem := rfl
@[simp] theorem State.modMtr_fe (s : State) (g : Mtr → Mtr) : (s.modMtr g).fe = s.fe := rfl
@[simp] theorem State.modMtr_shf (s : State) (g : Mtr → Mtr) : (s.modMtr g).shf = s.shf := rfl
@[simp] theorem State.modMtr_hnd (s : State) (g : Mtr → Mtr) : (s.modMtr g).hnd = s.hnd := rfl
@[simp] theorem State.modMtr_cal (s : State) (g : Mtr → Mtr) : (s.modMtr g).cal = s.cal := rfl
@[simp] theorem State.modMtr_fcp (s : State) (g : Mtr → Mtr) : (s.modMtr g).fcp = s.fcp := rfl
@[simp] theorem State.modMtr_storm (s : State) (g : Mtr → Mtr) : (s.modMtr g).storm = s.storm := rfl
@[simp] theorem State.modMtr_time (s : State) (g : Mtr → Mtr) : (s.modMtr g).time = s.time := rfl
@[simp] theorem State.modMtr_spares (s : State) (g : Mtr → Mtr) : (s.modMtr g).spares = s.spares := rfl
@[simp] theorem State.modMtr_pair (s : State) (g : Mtr → Mtr) : (s.modMtr g).pair = s.pair := rfl
@[simp] theorem State.modMtr_ledger (s : State) (g : Mtr → Mtr) : (s.modMtr g).ledger = s.ledger := rfl
@[simp] theorem State.modMtr_power (s : State) (g : Mtr → Mtr) : (s.modMtr g).power = s.power := rfl
@[simp] theorem State.modMtr_ident (s : State) (g : Mtr → Mtr) : (s.modMtr g).ident = s.ident := rfl
@[simp] theorem State.modMtr_rcd (s : State) (g : Mtr → Mtr) : (s.modMtr g).rcd = s.rcd := rfl
@[simp] theorem State.modMtr_drbg (s : State) (g : Mtr → Mtr) : (s.modMtr g).drbg = s.drbg := rfl
@[simp] theorem State.modMtr_fab (s : State) (g : Mtr → Mtr) : (s.modMtr g).fab = s.fab := rfl
@[simp] theorem State.modMtr_rings (s : State) (g : Mtr → Mtr) : (s.modMtr g).rings = s.rings := rfl
@[simp] theorem State.modMtr_mtr (s : State) (g : Mtr → Mtr) : (s.modMtr g).mtr = g s.mtr := rfl
@[simp] theorem State.modMtr_rad (s : State) (g : Mtr → Mtr) : (s.modMtr g).rad = s.rad := rfl
@[simp] theorem State.modMtr_can (s : State) (g : Mtr → Mtr) : (s.modMtr g).can = s.can := rfl
@[simp] theorem State.modMtr_ind (s : State) (g : Mtr → Mtr) : (s.modMtr g).ind = s.ind := rfl
@[simp] theorem State.modMtr_rtc (s : State) (g : Mtr → Mtr) : (s.modMtr g).rtc = s.rtc := rfl
@[simp] theorem State.modMtr_key (s : State) (g : Mtr → Mtr) : (s.modMtr g).key = s.key := rfl
@[simp] theorem State.modMtr_svc (s : State) (g : Mtr → Mtr) : (s.modMtr g).svc = s.svc := rfl
@[simp] theorem State.modMtr_out (s : State) (g : Mtr → Mtr) : (s.modMtr g).out = s.out := rfl
@[simp] theorem State.modMtr_freeCtr (s : State) (g : Mtr → Mtr) : (s.modMtr g).freeCtr = s.freeCtr := rfl
@[simp] theorem State.modMtr_pending (s : State) (g : Mtr → Mtr) : (s.modMtr g).pending = s.pending := rfl

end Sys2Proof.Machine
end

