-- ==== Sys2Proof/Laws/Regs.lean ====
section
/-! SUPPORT. The laws of registers, fields and status flags. `Regs.f` and the like read and write the register words alone: the
lemmas `State.f_eq` … bring a read of a state to that form, where an update that leaves `regs` alone has disappeared. -/
namespace Sys2Proof.Machine

/-! ## Reads and writes of the register words -/

def Regs.rd (r : Regs) (b : Blk) (o : Nat) : Word := sget (regReset b) (regsOf r b) o
def Regs.wr (r : Regs) (b : Blk) (o : Nat) (v : Word) : Regs := setRegsOf r b (sset (regReset b) (regsOf r b) o v)
def Regs.f (r : Regs) (x : Fld) : Nat := getBits (r.rd x.blk x.off) x.lsb x.width
def Regs.setF (r : Regs) (x : Fld) (v : Nat) : Regs := r.wr x.blk x.off (setBits (r.rd x.blk x.off) x.lsb x.width v)

theorem State.rd_eq (s : State) (b : Blk) (o : Nat) : s.rd b o = s.regs.rd b o := rfl
theorem State.f_eq (s : State) (x : Fld) : s.f x = s.regs.f x := rfl
theorem State.r_eq (s : State) (x : Reg) : s.r x = s.regs.rd x.blk x.off := rfl
theorem State.on_eq (s : State) (x : Fld) : s.on x = (s.regs.f x != 0) := rfl
theorem State.flag_eq (s : State) (e : Evt) : s.flag e = (s.regs.f ⟨e.blk, e.off, e.bit, 1⟩ != 0) := rfl

theorem State.wr_regs (s : State) (b : Blk) (o : Nat) (v : Word) : (s.wr b o v).regs = s.regs.wr b o v := rfl
theorem State.setF_regs (s : State) (x : Fld) (v : Nat) : (s.setF x v).regs = s.regs.setF x v := rfl
theorem State.setR_regs (s : State) (x : Reg) (v : Word) : (s.setR x v).regs = s.regs.wr x.blk x.off v := rfl

theorem regsOf_setRegsOf_same (r : Regs) (b : Blk) (m : Store Word) : regsOf (setRegsOf r b m) b = m := by cases b <;> rfl
theorem regsOf_setRegsOf_ne (r : Regs) (b c : Blk) (m : Store Word) (h : b ≠ c) :
    regsOf (setRegsOf r b m) c = regsOf r c := by
  cases b <;> cases c <;> first | rfl | exact absurd rfl h

/-- A register read after a register write. -/
theorem Regs.rd_wr (r : Regs) (b c : Blk) (o p : Nat) (v : Word) :
    (r.wr b o v).rd c p = if b = c ∧ o = p then v else r.rd c p := by
  unfold Regs.rd Regs.wr
  by_cases h : b = c
  · subst h
    rw [regsOf_setRegsOf_same, sget_sset]
    by_cases h : o = p
    · subst h; simp
    · simp [h, Ne.symm h]
  · rw [regsOf_setRegsOf_ne _ _ _ _ h]; simp [h]

@[simp] theorem Regs.rd_wr_same (r : Regs) (b : Blk) (o : Nat) (v : Word) : (r.wr b o v).rd b o = v := by simp [Regs.rd_wr]

/-- The field lies in a 32-bit word. -/
abbrev Fld.fits (x : Fld) : Prop := x.lsb + x.width ≤ 32
/-- Two fields share no bit. -/
abbrev Fld.apart (x y : Fld) : Prop := x.blk ≠ y.blk ∨ x.off ≠ y.off ∨ x.lsb + x.width ≤ y.lsb ∨ y.lsb + y.width ≤ x.lsb

/-- A field reads what was put in it. -/
theorem Regs.f_setF_same (r : Regs) (x : Fld) (v : Nat) (h : x.fits) : (r.setF x v).f x = v % 2 ^ x.width := by
  simp only [Regs.f, Regs.setF, Regs.rd_wr_same]
  exact getBits_setBits_same _ _ _ _ h

/-- A field keeps its value when a field apart from it is set. -/
theorem Regs.f_setF_ne (r : Regs) (x y : Fld) (v : Nat) (h : x.fits) (d : x.apart y) : (r.setF x v).f y = r.f y := by
  simp only [Regs.f, Regs.setF, Regs.rd_wr]
  by_cases e : x.blk = y.blk ∧ x.off = y.off
  · rw [if_pos e, e.1, e.2]
    refine getBits_setBits_ne _ _ _ _ _ _ h ?_
    unfold Fld.apart at d
    rcases d with d | d | d
    · exact absurd e.1 d
    · exact absurd e.2 d
    · exact d
  · rw [if_neg e]

/-- A register keeps its word when a field of another register is set. -/
theorem Regs.rd_setF_ne (r : Regs) (x : Fld) (b : Blk) (o v : Nat) (d : x.blk ≠ b ∨ x.off ≠ o) :
    (r.setF x v).rd b o = r.rd b o := by
  simp only [Regs.setF, Regs.rd_wr]
  rw [if_neg]
  rintro ⟨h1, h2⟩
  rcases d with d | d
  · exact d h1
  · exact d h2

/-- A field keeps its value when another register is written. -/
theorem Regs.f_wr_ne (r : Regs) (b : Blk) (o : Nat) (y : Fld) (v : Word) (d : b ≠ y.blk ∨ o ≠ y.off) :
    (r.wr b o v).f y = r.f y := by
  simp only [Regs.f, Regs.rd_wr]
  rw [if_neg]
  rintro ⟨h1, h2⟩
  rcases d with d | d
  · exact d h1
  · exact d h2

theorem Regs.f_wr_same (r : Regs) (y : Fld) (v : Word) : (r.wr y.blk y.off v).f y = getBits v y.lsb y.width := by
  simp [Regs.f]

theorem Regs.f_lt (r : Regs) (x : Fld) : r.f x < 2 ^ x.width := getBits_lt _ _ _

/-! ## The same on states -/

theorem State.f_setF_same (s : State) (x : Fld) (v : Nat) (h : x.fits) : (s.setF x v).f x = v % 2 ^ x.width :=
  Regs.f_setF_same s.regs x v h
theorem State.f_setF_ne (s : State) (x y : Fld) (v : Nat) (h : x.fits) (d : x.apart y) : (s.setF x v).f y = s.f y :=
  Regs.f_setF_ne s.regs x y v h d
theorem State.f_lt (s : State) (x : Fld) : s.f x < 2 ^ x.width := getBits_lt _ _ _

/-- A bit of a field after `setFBit`. -/
theorem State.setFBit_testBit (s : State) (x : Fld) (i j : Nat) (v : Bool) (h : x.fits) (hi : i < x.width) (hj : j < x.width) :
    ((s.setFBit x i v).f x).testBit j = if j = i then v else (s.f x).testBit j := by
  simp only [State.setFBit]
  rw [State.f_setF_same _ _ _ h, Nat.testBit_mod_two_pow]
  cases v
  · simp only [Bool.false_eq_true, if_false, sub_two_pow_testBit]
    by_cases e : j = i <;> simp [hj, hi, e]
  · simp only [if_true, or_two_pow_testBit]
    by_cases e : j = i <;> simp [hj, hi, e]

/-- The bit of a domain (R40). -/
theorem State.domainOk_setDomain (s : State) (d e : Nat) (v : Bool) (hd : 1 ≤ d) (hd' : d ≤ 18) (he : 1 ≤ e) (he' : e ≤ 18) :
    (s.setDomain d v).domainOk e = if e = d then v else s.domainOk e := by
  simp only [State.setDomain, State.domainOk]
  rw [State.setFBit_testBit _ _ _ _ _ (by decide) (by simp [R.SYS_DOMAIN_OK.OK]; omega) (by simp [R.SYS_DOMAIN_OK.OK]; omega)]
  by_cases h : e = d
  · simp [h]
  · rw [if_neg h, if_neg (by omega)]

/-- `raise` sets the flag and saturates the counter (R15); the two fields are apart. -/
theorem State.flag_raise (s : State) (e : Evt) (h : e.bit < 32) (h' : e.cntLsb ≤ 16)
    (d : e.off ≠ e.cntOff ∨ e.cntLsb + 16 ≤ e.bit ∨ e.bit + 1 ≤ e.cntLsb) : (s.raise e).flag e = true := by
  have a : (⟨e.blk, e.cntOff, e.cntLsb, 16⟩ : Fld).fits := by simp only [Fld.fits]; omega
  have b : (⟨e.blk, e.cntOff, e.cntLsb, 16⟩ : Fld).apart ⟨e.blk, e.off, e.bit, 1⟩ := by
    rcases d with d | d | d
    · exact .inr (.inl (Ne.symm d))
    · exact .inr (.inr (.inl d))
    · exact .inr (.inr (.inr d))
  have c : (⟨e.blk, e.off, e.bit, 1⟩ : Fld).fits := h
  simp only [State.raise, State.flag, State.on]
  rw [State.f_setF_ne _ _ _ _ a b, State.f_setF_same _ _ _ c]
  rfl

theorem State.f_raise_ne (s : State) (e : Evt) (y : Fld) (h : e.bit < 32) (h' : e.cntLsb ≤ 16)
    (d : (⟨e.blk, e.off, e.bit, 1⟩ : Fld).apart y) (d' : (⟨e.blk, e.cntOff, e.cntLsb, 16⟩ : Fld).apart y) :
    (s.raise e).f y = s.f y := by
  have a : (⟨e.blk, e.cntOff, e.cntLsb, 16⟩ : Fld).fits := by simp only [Fld.fits]; omega
  have c : (⟨e.blk, e.off, e.bit, 1⟩ : Fld).fits := h
  simp only [State.raise]
  rw [State.f_setF_ne _ _ _ _ a d', State.f_setF_ne _ _ _ _ c d]

end Sys2Proof.Machine
end

