-- ==== Sys2Proof/Tests/Slice0.lean ====
section
/-! SUPPORT. Tests: ill-formed commands, the spec's worked examples, and, for every statement with hypotheses, states and
operands that meet the hypotheses of each of its clauses. A witness that turns on an opaque value is given for the value
that its premise names. -/
set_option Elab.async false
set_option linter.unusedVariables false
set_option linter.unusedSimpArgs false
namespace Sys2Proof.Tests
open Sys2Proof Sys2Proof.Machine Sys2Proof.Safety

/-! ## Small states -/

/-- The state after reset. -/
def z : State := State.reset
/-- A row of the register map. -/
def row (b : Blk) (off : Nat) : RegRow := (findRow b off).getD ⟨0, [], false, []⟩
/-- Engine 0 ACTIVE in a state. -/
def act0 (st : Nat) : State := (z.setEngRole 0 roleActive).setEngState 0 st
/-- A start-up step. -/
def atStep (n : Nat) : State := z.modPower (fun p => { p with step := n })
/-- The state restored. -/
def up : State := z.modPower (fun p => { p with step := 5, timeUp := true, restored := true, inputOk := true })
/-- Every clock runs. -/
def clk (s : State) : State := { s with bus := { s.bus with clocks := 0x3FFFF } }
/-- A bus error flag is set. -/
def berr : State := z.raise E.SYS_BUS_ERR.ALIGN
/-- Sheaf context 0 as given. -/
def ctx0 (x : Ctx) : State := ({ z with power := { z.power with step := 5 } } : State).setCtx 0 x
def fw (st : CtxSt) : Ctx := { Ctx.free with st := st, owner := some .firmware }
/-- Context 0 with a committed sheaf, next to apply. -/
def ctxW (x : Ctx) : State :=
  let s := ctx0 x
  { s with shf := { s.shf with waiting := [x.journal] } }
/-- Context 0 OPEN with staged entries. -/
def full (l : List ShfEntry) : State := ctx0 { fw .opened with entries := l }
theorem full_shf (l : List ShfEntry) : (full l).shf.ctx = [(0, { fw .opened with entries := l })] := by
  have h : ({ fw .opened with entries := l } : Ctx) ≠ ctxDefault 0 := by simp [fw, ctxDefault, Ctx.free]
  simp [full, ctx0, State.setCtx, sset, h, sput, z, State.reset]
theorem full_ctx (l : List ShfEntry) : (full l).ctx 0 = { fw .opened with entries := l } := by
  simp [State.ctx, full_shf, sget]
theorem full_used (l : List ShfEntry) : (full l).shfUsed = l.length := by simp [State.shfUsed, full_shf]
theorem full_step (l : List ShfEntry) : (full l).power.step = 5 := rfl
theorem full_sel (l : List ShfEntry) : (full l).shfSel = 0 := rfl
/-- Engine 0 in RUN at PC `n` of 100 words; w1 is −2⁶³, w2 −1, w3 2¹⁷ + 1, p1 is 1. -/
def run0 (n : Nat) : State :=
  ((act0 stRun).modEng 0 (fun e => { e with codeWords := 100, w := [(1, 2 ^ 63), (2, -1), (3, 131073), (4, 5)], p := [(1, true)] })).setPc 0 n
/-- Endpoint 0 valid, on row 0, without a successor; row 32767 valid with endpoint 0 as its head. -/
def rec0 : State :=
  ((((run0 0).setEp 0 EP.VALID 1).setEp 0 EP.ON_ROW 1).setM (rowBase 32767) ROW.VALID 1).setM (rowBase 32767) ROW.HEAD_VALID 1
/-- A state with a register of engine 0 set. -/
def wreg (s : State) (i : Nat) (v : DWord) : State := s.setW 0 i v
/-- Words of the endpoint record that an engine may write whole (R47). -/
theorem wide_ok (k : Nat) (_ : (0 : Fin 32).val ≤ k) (h : k < (0 : Fin 32).val + ((31 : Fin 32).val + 1)) :
    (epWriterMask (4 * (31 : Fin 32).val)).testBit k = true := by
  exact (by decide +kernel : ∀ k : Nat, k < 32 → (epWriterMask 124).testBit k = true) k h
/-- An event in the list of engine 0's logical engine. -/
def ev0 : IEvent := ⟨1, false, false, 0, 0, 0, 0, 0, 0, 0⟩
def evs : State := (run0 0).setIlist ((run0 0).logicalOf 0) [ev0]
/-- Engine 0 blocked in WAIT. -/
def waits (tmo : Nat) : State := (act0 stWait).modEng 0 (fun e => { e with blocked := some (.wait 1 0 tmo) })
/-- Engine 0 with an EMIT descriptor of POLL at local-store address 0 and endpoint 0 valid. -/
def emits : State := rec0.lsStore 0 0 (wordsBytes [0x04000003])
/-- The handle of slot 1 as given, and engine 0 with its value in w5. -/
def slot1 (h : Handle) : State := wreg ((run0 0).setHslot 1 h) 5 ((((run0 0).setHslot 1 h).handleAt 1).setWidth 64)
/-- Context 0 of engine 0's logical engine. -/
def ectx (st : CtxSt) : State :=
  (run0 0).setCtx 0 { Ctx.free with st := st, owner := some (.engine ((run0 0).logicalOf 0)) }
def desc0 : Desc := ⟨1, 0, true, false, false, 0, 0, 0, 0, 0, false⟩
/-- Every calendar entry is used. -/
def calFull : State := { z with cal := ⟨List.replicate 131072 (0, none), 0⟩ }
theorem calFull_used : calFull.calUsed = 131072 := List.length_replicate
/-- Handle slot 131071 in a state, and slot 0 for the session tests. -/
def slotS (h : Handle) : State := z.setHslot 131071 h
def cpl (o : Owner) : Handle := { Handle.fresh with st := .completing, owner := o }
/-- Session 0 open, with or without CONTROL rights, of version 1 or not. -/
def sess (control v1 : Bool) : State := z.setSess 0 { Session.none with isOpen := true, control := control, version1 := v1 }
/-- The same on a given state. -/
def withSess (s : State) : State := s.setSess 0 { Session.none with isOpen := true, control := true }
/-- A sheaf context of session 0. -/
def sctx (st : CtxSt) : State := (sess true false).setCtx 0 { fw st with session := some 0 }
/-- Session 0 and endpoint 0 valid. -/
def field0 : State := withSess (z.setEp 0 EP.VALID 1)
/-- The storm procedure in a state, with endpoint 0 valid. -/
def stormAt (n : Nat) : State := (z.setEp 0 EP.VALID 1).setF R.STORM_STATUS.STATE n
/-- A frame of 64 bytes without a tag, and a state with a port UP. -/
def fr0 : Frame := ⟨0, 64, 2, 4, none, none, false, 0x0800, none, 0, none, false, false, []⟩
def pup (n : Nat) : State := z.setPortState n 2
/-- Port 255 is also a member of the valid VLAN 5. -/
def vlan5 : State := ((pup 255).setF (R.FAB_VLAN_CFG.VALID 5) 1).setR (R.FAB_VLAN_MEMBER.reg 5 7) 0x80000000
/-- A frame of a class to egress node 0, alone. -/
def rt (c : Nat) : Route := ⟨c, none, [0], [], false, [], false⟩
def ff0 : FabFrame := ⟨fr0, 0, 0, none, false, false, 1, 0, [], [], false, none, false, false, [], 0, none, none⟩
/-- Cells of plot 0 past its reservations. -/
def pool (n : Nat) : State := (z.setF (R.FAB_BUF_TOTAL.TOTAL 0) (12800 + 1188 + 4096 + 4224 + n)).setF (R.FAB_BUF_HEADROOM.HEADROOM 0) 0
/-- A frame that crosses, or waits at its egress. -/
def cr0 : Crossing := ⟨0, 0, 7, 6, 0, 8, 1, [224], false, false, true, false, ff0⟩
def tx0 : TxEntry := ⟨0, 0, 7, 0, 1, false, true, ff0⟩
/-- A sown frame for port 224, and `n` residue entries. -/
def crS : Crossing := { cr0 with multi := true, sown := true }
def resid (n : Nat) : State := z.modFab (fun b => { b with residue := List.replicate n tx0 })
theorem resid_count : (resid 16384).residueCount (plotOf tx0.node) = 16384 := by
  have h : (resid 16384).fab.residue = List.replicate 16384 tx0 := rfl
  rw [State.residueCount, h, List.filter_replicate_of_pos (by decide), List.length_replicate]
theorem resid_any : (resid 16384).fab.residue.any (fun x => x.node == tx0.node && x.src == tx0.src && x.cls == tx0.cls) = true := by
  have h : (resid 16384).fab.residue = List.replicate 16384 tx0 := rfl
  rw [h, List.any_replicate]; decide
/-- One in whose cells an error was found. -/
def txe : TxEntry := { tx0 with frame := { ff0 with cellErr := true, node := 263 } }
/-- Ring 0 on ports 254 and 255, both UP. -/
def ring0 : State :=
  (((((((z.setF (R.RING_CFG.EN 0) 1).setF (R.RING_CFG.PORT_A 0) 254).setF (R.RING_CFG.PORT_B 0) 255).setF (R.PORT_CFG.ROLE 254) 2).setF
    (R.PORT_CFG.ROLE 255) 2).setPortState 254 2).setPortState 255 2).setF (R.RING_NODE_MAC_HI.VALID 0 16) 1
def dd0 : DdEntry := ⟨0, 4, 65535, true, false, false, 0, false, 0⟩
def fdb0 : FdbEntry := ⟨255, false, 0⟩
/-- The FDB's command registers with VID 1 and a MAC. -/
def fdbKey0 (m : Nat) : State := (z.setF R.FAB_FDB_KEY_HI.VID 1).setF R.FAB_FDB_KEY_LO.MAC_LO m
/-- PTP port 255 is enabled, the servo is in a state. -/
def adm (n : Nat) : State := (((pup 255).setF (R.TIME_PTP_PORT.EN 255) 1).setF (R.PORT_CFG.ROLE 255) prUplink).setF R.TIME_SYNC.STATE n
/-- SyncE candidate 3 is port 255, which is UP. -/
def synce3 : State := ((pup 255).setF (R.TIME_SYNCE_SRC.VALID 3) 1).setF (R.TIME_SYNCE_SRC.PORT 3) 255
/-- A calendar entry with given copies, and the state that holds it as entry 131071. -/
def body0 : CmdBody := ⟨1, false, 0, handleWord 1 5, 7, 1023, 0, 0, 0, []⟩
def cal0 (cs : List Copy) : CalEntry := ⟨body0, 131071, 0, 0, true, 0, 0, cs, false, 0, none⟩
def cals (s : State) (e : CalEntry) : State := s.setCal 131071 (some e)
def cp (g : Egress) (x : CopySt) : Copy := ⟨g, 0, x, false⟩
/-- Slot 1 is PLACED with the generation of `body0`. -/
def placed : State := z.setHslot 1 { Handle.fresh with st := .placed, gen := 5 }
/-- The module in a role. -/
def rl (n : Nat) : State := z.setF R.SYS_PAIR_STATUS.ROLE n
/-- A PAIR port is UP. -/
def pl (s : State) : State := (s.setPortState 255 2).setF (R.PORT_CFG.ROLE 255) 3
/-- Power in a start-up step. -/
def pwr (n : Nat) : State := z.modPower (fun p => { p with step := n, inputOk := true, mainUp := true })
/-- A charged and fitted cell. -/
def cell : State := ((pwr 5).setF R.PWR_CHG_CFG.EN 1).setF R.PWR_CELL_STATUS.PRESENT 1
/-- The time base in units of 2⁻³² ns. -/
def tAt (n : Nat) (s : State) : State := { s with time := { s.time with now := n } }
/-- Busbar 1 without mains; the second day of a module in a state, with estimates on. -/
def busLow1 : State := { (pwr 5).setF R.MTR_CFG.EN 1 with mtr := { z.mtr with loaded := true } }.setF R.MTR_STATUS.NO_MAINS_NOW 0x3F
def day1 (s : State) : State := tAt (172800 * tbSec) (s.setF R.MTR_EST_CFG.EN 1)
/-- Metering on, and a change of its state. -/
def mtr1 : State := { (pwr 5).setF R.MTR_CFG.EN 1 with mtr := { z.mtr with loaded := true } }
def mtrs (f : Mtr → Mtr) : State := { clk z with mtr := f z.mtr }
def cap0 : Cap := ⟨0, 0, false, 0, [], none, 0, [], [], false⟩
/-- Transceiver 0 of US_FHSS or EU868 on, with its key in slot 0, in the role ACTIVE. -/
def rad0 (region : Nat) : State :=
  let s := ((rl 3).setF (R.RAD_CFG.EN 0) 1).setF (R.RAD_CFG.REGION 0) region
  { s with key := { s.key with slots := [(0, { KeySlot.empty with typ := ktAes, usage := 4, secret := List.replicate 32 0 })] } }
def radS (s : State) (r : Rad) : State := s.setRad 0 r
def rtx : RadTx := ⟨none, 0xFFFF, 2, 0, none, true, false, some 0, none⟩
def radC (ph : RadPhase) : Rad := { Rad.off with cur := some rtx, phase := ph }
/-- An urgent copy held since `n` beside the copy held since 8. -/
def rtxH (n : Nat) : RadTx := { rtx with held := some n }
def radH (n : Nat) : State := radS (rad0 1) { Rad.off with cur := some (rtxH 8), phase := .duty, urgent := [rtxH n] }
/-- Endpoint 0 at SCATTER address 1 of transceiver 0. -/
def radE : State := ((((rad0 2).setEp 0 EP.VALID 1).setEp 0 EP.PATH 1).setEp 0 EP.ADDR 1)
/-- A SCATTER EVENT frame of address 1 with number 5, without a payload, and its MIC under the key of `rad0` and EUI 0 (RFC 3610;
the kernel does not evaluate it); endpoint 0's window in a state. -/
def sdat : List Byte := [0x21, 0, 0, 0, 1, 0, 5, 0, 0, 0, 0, 0, 0, 0, 52, 81, 222, 134, 195, 248, 253, 12]
/-- A SCATTER JOIN frame with EXT = 1; a GHOST at the address of endpoint 0. -/
def sext : List Byte := [0x69] ++ sdat.drop 1 ++ List.replicate 8 0
def gh0 : Ghost := ⟨7, 0, 0, none, none⟩
def radG : State := radE.modPair (fun p => { p with ghosts := [gh0] })
def radN (w : Option (Nat × Nat)) : State := radE.setRadNode 0 0 ⟨w, 0, 0⟩
def radV (w : Option (Nat × Nat)) : State := (radN w).count (R.RAD_CNT_RX_FRAMES.COUNT 0)
/-- CAN channel 7 on the bus in the role ACTIVE; a field frame of a type, and an ordinary frame. -/
def can7 : State := ((rl 3).setF (R.CAN_CFG.EN 7) 1).setF (R.CAN_STATUS.STATE 7) 0
def can7f : State := can7.setF (R.CAN_CFG.FIELD_EN 7) 1
def cf (type : Nat) : CanFrame :=
  ⟨true, true, false, true, false, 12, BitVec.ofNat 29 (type * 2 ^ 24 + z.f (R.CAN_CFG.FIELD_MARK 7)), List.replicate 24 0⟩
def cfo : CanFrame := ⟨false, false, false, false, false, 1, 0x7FF, [1]⟩
def ctx7 : CanTx := ⟨cfo, some 3, 0, 0⟩
def ctxf : CanTx := ⟨cf 1, none, 0, 255⟩
def canP (s : State) (l : List CanTx) : State := s.setCan 7 ⟨l, []⟩
/-- The state of channel 7. -/
def canSt (n : Nat) : State := (clk z).setF (R.CAN_STATUS.STATE 7) n
/-- Stage `j` enabled with a code in force. -/
def stage (j : Nat) : State := (z.setF (R.IND_STR_CFG.EN j) 1).setF (R.IND_STR_STATUS.CODE j) 1023
/-- Chain 3 with a frame, RTC fields, recorder fields. -/
def chn (c : Chain) : State := z.setChain 3 c
def chf : ChFrame := ⟨[], none, [], false, false, 0⟩
def rtc (y mo d h mi sec : Nat) : State :=
  (((((z.setF R.RTC_DATE.YEAR y).setF R.RTC_DATE.MONTH mo).setF R.RTC_DATE.DAY d).setF R.RTC_TIME.HOUR h).setF R.RTC_TIME.MIN mi).setF
    R.RTC_TIME.SEC sec
def rec_ (a b : Nat) (f : Recorder → Recorder) : State :=
  ({ z with rcd := f z.rcd }.setF R.REC_STATUS.A a).setF R.REC_STATUS.B b
/-- One ledger entry waits. -/
def wait1 (g : LdgTag) : State := { z with ledger := { z.ledger with writes := [⟨(0, 0), ⟨g, []⟩, false⟩] } }
/-- The KEY block and the service port with a change. -/
def keyS (f : Key → Key) : State := { z with key := f z.key }
def svcS (f : Svc → Svc) : State := { clk z with svc := f z.svc }
def kop : KeyOp := ⟨1, 0, none, [], [], none, 0, none, none, false⟩
/-- A transition from BLANK to PROVISIONED whose INTENT waits. -/
def int0 : Intent := ⟨0, 1, 0, [], false⟩
def kp256 : KeySlot := { KeySlot.empty with typ := ktP256, usage := 1 }
/-- The control domain runs. -/
def runs2 (s : State) : State := s.modPower (fun p => { p with step := 2 })
/-- An image of one body byte with a good header. -/
def imgA : ImgSlot := ⟨[(0, 0x49), (1, 0x4D), (2, 0x45), (3, 0x30), (4, 1), (16, 1)], 257, 1⟩
/-- The inactive slot in a state. -/
def img1 (st : Nat) : State := svcS (fun v => { v with slot1 := ⟨[], 0, st⟩ })
/-- An image like it with a good digest. -/
def imgB : ImgSlot := { imgA with bytes := imgA.bytes ++ (List.range 48).map (fun k => (24 + k, [0xBE, 0xC0, 0x21, 0xB4, 0xF3, 0x68, 0xE3, 0x06, 0x91, 0x34, 0xE0, 0x12, 0xC2, 0xB4, 0x30, 0x70, 0x83, 0xD3, 0xA9, 0xBD, 0xD2, 0x06, 0xE2, 0x4E, 0x5F, 0x0D, 0x86, 0xE1, 0x3D, 0x66, 0x36, 0x65, 0x59, 0x33, 0xEC, 0x2B, 0x41, 0x34, 0x65, 0x96, 0x68, 0x17, 0xA9, 0xC2, 0x08, 0xA1, 0x17, 0x17].getD k 0)) }
/-- A handshake in the subset; the certificates of CONTROL rights are verified by slot 2, others by slot 3. -/
def hs (c : Option (List Byte × List Byte)) : Handshake := ⟨0x0304, false, 0x1302, 0x001D, 0x0403, c⟩
def anch (i : Nat) : State := { atStep 5 with key := { z.key with slots := [(i, { KeySlot.empty with typ := ktP256Pub, usage := 2 })] } }

/-- The operating time in ticks. -/
def opAt (n : Nat) (s : State) : State := s.modPower (fun p => { p with opTicks := n })

/-- A copy for port 0 is ARMED at an instant that is now. -/
def busy0 (s : State) : State := s.setCal 131071 (some (cal0 [cp (.port 0) .armed]))
/-- Cell 5 of plot 7 is owned by no structure that lists it; the free list lists it twice. -/
def leak7 : State := z.setCellTag 7 5 ⟨.repl, 0⟩
def clash7 : State := z.setFreed 7 [5]
/-- The frame of entry 131071's copy waits at port 255. -/
def txc : TxEntry := { tx0 with node := 255, frame := { ff0 with cal := some 131071 } }
def withTx (s : State) : State := s.modFab (fun b => { b with tx := [txc] })
/-- An endpoint's frame body of a TYPE, and ring 0 with the field VLAN 5. -/
def ebody (v type : Byte) : List Byte := [v, type] ++ List.replicate 30 0
def ringF : State := ring0.setF R.FAB_FIELD_VLAN.VID 5

/-! ## Well-formedness -/

theorem test_wf_session : Instr.wf (.quDataRead (.cpl 16)) = false := by decide
theorem test_wf_channel : Instr.wf (.dropPkt (.bulk 8)) = false := by decide
theorem test_wf_chain : Instr.wf (.quWmWrite (.feed 4) 0 0) = false := by decide
theorem test_wf_sample : Instr.wf (.meterSample []) = false := by decide
theorem test_wf_can_length : Instr.wf (.canFieldEvent 0 { cf 1 with data := List.replicate 9 0 } 0) = false := by decide +kernel
theorem test_wf_can_classic : Instr.wf (.canFieldReply 0 { cfo with brs := true } 0) = false := by decide +kernel
theorem test_wf_can_classic_data : Instr.wf (.canFieldReply 0 { cfo with data := List.replicate 12 0 } 0) = false := by decide +kernel
theorem test_wf_can_remote : Instr.wf (.canFirmwareFrame 0 { cfo with rtr := true } 0) = false := by decide +kernel
theorem test_wf_can_identifier : Instr.wf (.canFirmwareFrame 0 { cfo with ident := 0x800 } 0) = false := by decide +kernel
theorem test_wf_good : Instr.wf (.canFirmwareFrame 0 cfo 0) = true ∧ Instr.wf (.quDataRead (.cpl 15)) = true := by decide +kernel

/-! ## The spec's worked examples -/

/-- Chapter 0: port 137 lies in plot 4. -/
theorem test_plot_of_port : plotOf 137 = 4 := by decide
/-- Chapter 1: the record of endpoint 100,000. -/
theorem test_record_address : epBase 100000 = 0xC35000 := by decide
/-- Chapter 3: the five assembled instructions. -/
theorem test_word_add : encodeZhn (.add 0 0 5 6 7) = some (0, 0x0014C700) := by decide +kernel
theorem test_word_lde : encodeZhn (.lde 0 2 9 1 7 0 9 false) = some (0, 0x81253812) := by decide +kernel
theorem test_word_cmpi : encodeZhn (.cmpi 0 0 1 3 4 9 200) = some (0, 0x4C2570C8) := by decide +kernel
theorem test_word_b : encodeZhn (.b 0 3 0x1FFFFB) = some (0, 0x619FFFFB) := by decide +kernel
theorem test_word_emit : encodeZhn (.emit 0 0 5 13 12 1 2) = some (0, 0xC004C6B5) := by decide +kernel
/-- Chapter 3: L(887), and the code of 40 %. -/
theorem test_dim_level : dimL 887 = 39883 := by decide +kernel
theorem test_dim_code : dimP2c 40000 = 887 := by decide +kernel
/-- Chapter 7: S with the reset reservations. -/
theorem test_shared_cells : z.shared 5 = 75996 := by decide +kernel
/-- Chapter 13: the exponent of a block with peak 1,000,000. -/
theorem test_block_exponent : blockExp 1000000 = 5 := by decide
/-- Chapter 17: the correction at −27.30 °C. -/
theorem test_rtc_correction : roundAway (-43410 * 4194304) 1000000000 = -182 := by decide

/-! ## One step -/

theorem test_idle_keeps_out : (step z) = .next z.idle := rfl
theorem test_front_first : step { z with pending := [.slewDone, .rtcSecond] } = exec .slewDone { z with pending := [.rtcSecond] } := rfl
theorem test_reset_queue : z.pending = [] := rfl
/-- R47: LOCAL_CEIL and FEEDER of a record that nothing has written. -/
theorem test_record_reset : z.ep 131071 EP.LOCAL_CEIL = 0x3FF ∧ z.ep 131071 EP.FEEDER = 0xF := by decide +kernel

/-! ## Witnesses -/

theorem test_witness_StepRunsFront :
    ∃ s : State, s.pending = [] :=
  ⟨z, by decide +kernel⟩

theorem test_witness_BusErrorAccess :
    (∃ (s : State) (a : Addr) (n : Fin 65) (w : Option (BitVec 512)), inRegion a.toNat = true ∧ (a.toNat % 4 ≠ 0 ∨ n.val ≠ 4)) ∧
    (∃ (s : State) (a : Addr) (w : Bool) (v : Word), inRegion a.toNat = true ∧ a.toNat % 4 = 0 ∧ s.target a = .hole) ∧
    (∃ (s : State) (a : Addr) (v : Word) (b : Blk) (off : Nat) (x : RegRow), a.toNat % 4 = 0 ∧ s.target a = .reg b off ∧ s.reaches b off true = true ∧ findRow b off = some x ∧ x.so = true) ∧
    (∃ (s : State) (a : Addr) (w : Bool) (e : Evt), ∃ (b : Blk) (o : Nat), (e = E.SYS_BUS_ERR.ALIGN ∨ e = E.SYS_BUS_ERR.UNMAPPED ∨ e = E.SYS_BUS_ERR.BRIDGE_TO ∨ e = E.SYS_BUS_ERR.SO_WRITE) ∧ (b ≠ .sys ∨ o ∉ [0x0C, 0x10, 0x14, 0x18, 0x1C])) :=
  ⟨⟨z, 0x10000001, 4, some 0, by decide +kernel⟩,
   ⟨z, 0xFFFFFFFC, true, 0, by decide +kernel⟩,
   ⟨z, 0x10000200, 0, .sys, 0x200, row .sys 0x200, by decide +kernel⟩,
   ⟨z, 0, true, E.SYS_BUS_ERR.ALIGN, .time, 0, by decide +kernel⟩⟩

theorem test_witness_BusErrorCapture :
    (∃ (s : State) (a : Addr) (w : Bool) (e : Evt), (e = E.SYS_BUS_ERR.ALIGN ∨ e = E.SYS_BUS_ERR.UNMAPPED ∨ e = E.SYS_BUS_ERR.BRIDGE_TO ∨ e = E.SYS_BUS_ERR.SO_WRITE) ∧ getBits (s.r R.SYS_BUS_ERR.reg) 0 4 = 0) ∧
    (∃ (s : State) (a : Addr) (w : Bool) (e : Evt), (e = E.SYS_BUS_ERR.ALIGN ∨ e = E.SYS_BUS_ERR.UNMAPPED ∨ e = E.SYS_BUS_ERR.BRIDGE_TO ∨ e = E.SYS_BUS_ERR.SO_WRITE) ∧ getBits (s.r R.SYS_BUS_ERR.reg) 0 4 ≠ 0) :=
  ⟨⟨z, 0, true, E.SYS_BUS_ERR.ALIGN, by decide +kernel⟩,
   ⟨berr, 0, true, E.SYS_BUS_ERR.ALIGN, by decide +kernel⟩⟩

theorem test_witness_PairAccess :
    (∃ (s : State) (a : Addr) (b : Blk) (off : Nat) (x : RegRow), a.toNat % 4 = 0 ∧ s.target a = .reg b off ∧ s.reaches b off false = true ∧ findRow b off = some x ∧ isPairLow b off = true) ∧
    (∃ (s : State) (a : Addr) (b : Blk) (lo : Nat) (x : RegRow), ∃ h, a.toNat % 4 = 0 ∧ s.target a = .reg b (lo + 4) ∧ s.reaches b (lo + 4) false = true ∧ findRow b (lo + 4) = some x ∧ isPairLow b (lo + 4) = false ∧ isPairLow b lo = true ∧ s.shadowAt (regAddr ⟨b, lo⟩) = some h) ∧
    (∃ (s : State) (a : Addr) (b : Blk) (lo : Nat) (x : RegRow), a.toNat % 4 = 0 ∧ s.target a = .reg b (lo + 4) ∧ s.reaches b (lo + 4) false = true ∧ findRow b (lo + 4) = some x ∧ isPairLow b (lo + 4) = false ∧ isPairLow b lo = true ∧ s.shadowAt (regAddr ⟨b, lo⟩) = none) ∧
    (∃ (s : State) (a : Addr) (b : Blk) (off : Nat) (x : RegRow) (v : Word), a.toNat % 4 = 0 ∧ s.target a = .reg b off ∧ s.reaches b off true = true ∧ findRow b off = some x ∧ x.so = false ∧ x.writable = true ∧ isPairLow b off = true) ∧
    (∃ (s : State) (a : Addr) (b : Blk) (lo : Nat) (x y : RegRow) (v : Word), a.toNat % 4 = 0 ∧ s.target a = .reg b (lo + 4) ∧ s.reaches b (lo + 4) true = true ∧ findRow b (lo + 4) = some x ∧ x.so = false ∧ x.writable = true ∧ isPairLow b (lo + 4) = false ∧ isPairLow b lo = true ∧ findRow b lo = some y ∧ b ≠ .fe ∧ (⟨b, lo⟩ : Reg) ≠ R.TIME_INCR_LO.reg) ∧
    (∃ (s : State) (a : Addr) (b : Blk) (lo : Nat) (x y : RegRow) (v : Word), a.toNat % 4 = 0 ∧ s.target a = .reg b (lo + 4) ∧ s.reaches b (lo + 4) true = true ∧ findRow b (lo + 4) = some x ∧ x.so = false ∧ x.writable = true ∧ isPairLow b (lo + 4) = false ∧ isPairLow b lo = true ∧ findRow b lo = some y ∧ (⟨b, lo⟩ : Reg) = R.TIME_INCR_LO.reg) ∧
    (∃ (s : State) (a : Addr) (b : Blk) (lo : Nat) (x y : RegRow) (v : Word), a.toNat % 4 = 0 ∧ s.target a = .reg b (lo + 4) ∧ s.reaches b (lo + 4) true = true ∧ findRow b (lo + 4) = some x ∧ x.so = false ∧ x.writable = true ∧ isPairLow b (lo + 4) = false ∧ isPairLow b lo = true ∧ findRow b lo = some y ∧ b = .fe ∧ lo % 0x100000 = 0x54) ∧
    (∃ (s : State) (v : DWord), s.reaches R.TIME_INCR_LO.reg.blk R.TIME_INCR_LO.reg.off true = true) :=
  ⟨⟨z, 0x14000054, .fe, 0x54, row .fe 0x54, by decide +kernel⟩,
   ⟨z.setShadow (regAddr ⟨.fe, 0x54⟩) (some 7), 0x14000058, .fe, 0x54, row .fe 0x58, 7, by decide +kernel⟩,
   ⟨z, 0x14000058, .fe, 0x54, row .fe 0x58, by decide +kernel⟩,
   ⟨z, 0x14000054, .fe, 0x54, row .fe 0x54, 0, by decide +kernel⟩,
   ⟨clk z, 0x45000208 + 4, .svc, 0x208, row .svc 0x20C, row .svc 0x208, 0, by decide +kernel⟩,
   ⟨clk z, 0x11000000 + BitVec.ofNat 40 R.TIME_INCR_LO.reg.off + 4, .time, R.TIME_INCR_LO.reg.off, row .time (R.TIME_INCR_LO.reg.off + 4), row .time R.TIME_INCR_LO.reg.off, 0, by decide +kernel⟩,
   ⟨z, 0x14000058, .fe, 0x54, row .fe 0x58, row .fe 0x54, 0, by decide +kernel⟩,
   ⟨clk z, 0xFFFFFFFFFFFFFFFF, by decide +kernel⟩⟩

theorem test_witness_AccessCodes :
    (∃ (s : State) (a : Addr) (v : Word) (b : Blk) (off : Nat) (x : RegRow), (a.toNat % 4 = 0 ∧ s.target a = .reg b off ∧ s.reaches b off true = true ∧ findRow b off = some x ∧ x.so = false ∧ x.writable = true ∧ isPairLow b off = false ∧ pairLowOf b off = none ∧ s.command b x off v = none ∧ s.special b x off (writeWord x (s.wordNow b x off) v) = none) ∧ (∀ s' : State, State.regEffect s s' b off = s')) ∧
    (∃ (s : State) (a : Addr) (b : Blk) (off : Nat) (x : RegRow), a.toNat % 4 = 0 ∧ s.target a = .reg b off ∧ s.reaches b off false = true ∧ findRow b off = some x ∧ isPairLow b off = false ∧ pairLowOf b off = none) ∧
    (∃ (w v : Word) (l n m : Nat) (r : Nat), l ≤ m ∧ m < 32 ∧ n = m - l + 1) :=
  ⟨⟨clk z, 0x45000004, 0, .svc, 4, row .svc 4, by decide +kernel, fun _ => rfl⟩,
   ⟨z, 0x1000000C, .sys, 0x0C, row .sys 0x0C, by decide +kernel⟩,
   ⟨0, 0, 31, 1, 31, 0, by decide +kernel⟩⟩

theorem test_witness_MemoryAccess :
    (∃ (s : State) (a : Addr) (n : Fin 65) (d : BitVec 512) (o : Nat), inRegion a.toNat = false ∧ n.val ∈ [1, 2, 4, 8, 64] ∧ s.target a = .sdram o ∧ s.target (BitVec.ofNat 40 (a.toNat + n.val - 1)) = .sdram (o + n.val - 1)) ∧
    (∃ (s : State) (a : Addr) (n : Fin 65) (d : BitVec 512) (o : Nat), inRegion a.toNat = false ∧ n.val ∈ [1, 2, 4, 8, 64] ∧ s.target a = .sram o ∧ s.target (BitVec.ofNat 40 (a.toNat + n.val - 1)) = .sram (o + n.val - 1)) ∧
    (∃ (s : State) (core : Nat) (a : Addr) (w : Bool), s.target a = .noMemory) ∧
    (∃ (s : State) (core : Nat) (a : Addr) (off : Nat), s.target a = .bootRom off) ∧
    (∃ (s : State) (w : BitVec 24) (v : Word), ((0x1800000 ≤ 4 * w.toNat ∧ 4 * w.toNat < 0x1804000) ∨ (4 * w.toNat < 0x2000000 ∧ s.anyEngine = true))) ∧
    (∃ (s : State) (w : BitVec 24) (v : Word), ¬ (0x1800000 ≤ 4 * w.toNat ∧ 4 * w.toNat < 0x1804000) ∧ ¬ (4 * w.toNat < 0x2000000 ∧ s.anyEngine = true)) :=
  ⟨⟨z, 0x8FFFFFFC0, 64, 0, 0x7FFFFFFC0, by decide +kernel⟩,
   ⟨z, 0x11FFFFF, 1, 0xFF, 0x1FFFFF, by decide +kernel⟩,
   ⟨z, 0, 0x0FFFFFFF, true, by decide +kernel⟩,
   ⟨z, 0, 0x3FFFF, 0x3FFFF, by decide +kernel⟩,
   ⟨z, 0x600000, 0, by decide +kernel⟩,
   ⟨z, 0x601000, 0, by decide +kernel⟩⟩

theorem test_witness_Domains :
    (∃ (s : State) (a : BitVec 40) (w : Bool) (d : Nat), s.bridgeOf a = some d ∧ 1 ≤ d ∧ d ≤ 18) ∧
    (∃ (s : State) (d : Fin 18), d.val ≠ 11) ∧
    (∃ s : State, s.domainOk 12 = true) :=
  ⟨⟨z, 0x11000000, true, 2, by decide +kernel⟩,
   ⟨z, 17, by decide +kernel⟩,
   ⟨z.setDomain 12 true, by decide +kernel⟩⟩

theorem test_witness_StartUp :
    (∃ s : State, s.power.step = 0 ∧ s.power.inputOk = false) ∧
    (∃ s : State, s.power.step = 1) ∧
    (∀ x : ImgSlot, x.st = isActive → z.imgCheck x false = irOk → ∃ s : State, s.power.step = 2 ∧ s.svc.recovery = false ∧ s.bootable s.svc.active = true) ∧
    (∀ x : ImgSlot, x.st = isActive → z.imgCheck x false = irOk → ∃ s : State, s.power.step = 2 ∧ s.svc.recovery = false ∧ s.bootable s.svc.active = false ∧ (s.bootMark s.svc.active).bootable (1 - s.svc.active) = true) ∧
    (∃ s : State, s.power.step = 2 ∧ s.svc.recovery = false ∧ s.bootable (s.svc.active) = false ∧ (s.bootMark (s.svc.active)).bootable (1 - (s.svc.active)) = false) ∧
    (∃ (s : State) (l : List LdgLoss) (e : BitVec 2), s.power.step = 3 ∧ s.rcd.isOpen = true) ∧
    (∃ (s : State) (l : List LdgLoss) (e : BitVec 2), s.power.step = 3 ∧ s.rcd.isOpen = false) ∧
    (∃ (s : State) (puf : Bool), s.power.step = 4) ∧
    (∃ s : State, s.power.step = 5 ∧ s.power.timeUp = false) ∧
    (∃ s : State, s.power.timeUp = true ∧ s.power.restored = false) ∧
    (∃ s : State, s.power.restored = true ∧ s.role = roleBoot ∧ s.paired = false) ∧
    (∃ s : State, s.power.restored = true ∧ s.ringsUp = true ∧ s.on R.SYS_PWR_STATUS.FWD_RUN = false) :=
  ⟨⟨z, by decide +kernel⟩,
   ⟨atStep 1, by decide +kernel⟩,
   fun x h1 h2 => ⟨{ atStep 2 with svc := { z.svc with slot0 := x } }, rfl, rfl, by show ((x.st == isActive || x.st == isVerified) && z.imgCheck x false == irOk) = true; rw [h2, h1]; rfl⟩,
   fun x h1 h2 => ⟨{ atStep 2 with svc := { z.svc with slot1 := x } }, rfl, rfl, rfl, by show ((x.st == isActive || x.st == isVerified) && z.imgCheck x false == irOk) = true; rw [h2, h1]; rfl⟩,
   ⟨atStep 2, by decide +kernel⟩,
   ⟨{ atStep 3 with rcd := { z.rcd with isOpen := true } }, [], 0, by decide +kernel⟩,
   ⟨atStep 3, [⟨.intent, true, true⟩], 0, by decide +kernel⟩,
   ⟨(atStep 4).modPower (fun p => { p with timeUp := true }), true, by decide +kernel⟩,
   ⟨atStep 5, by decide +kernel⟩,
   ⟨z.modPower (fun p => { p with timeUp := true }), by decide +kernel⟩,
   ⟨up, by decide +kernel⟩,
   ⟨up, by decide +kernel⟩⟩

theorem test_witness_EngineControl :
    (∃ (s : State) (p : Fin 18), s.engRole p = roleActive ∧ s.engState p = stWait) ∧
    (∃ (s : State) (p : Fin 18), s.engRole p = roleActive ∧ s.engState p = stRun ∧ (s.eng p).blocked = none) ∧
    (∃ (s : State) (p : Fin 18), s.engRole p = roleActive ∧ s.engState p = stHalted ∧ s.debug p = true ∧ s.fe.held = false) ∧
    (∃ (s : State) (p : Fin 18), s.lcState = lcService) ∧
    (∃ (s : State) (p : Fin 18), s.lcState ≠ lcService ∧ s.debug p = false) ∧
    (∃ (s : State) (p : Fin 18) (v : Word), s.engState p = stHalted ∧ s.debug p = true) ∧
    (∃ (s : State) (p : Fin 18) (v : DWord) (i : Nat), s.engState p = stHalted ∧ s.debug p = true ∧ s.f (R.FE_DBG_SEL.FILE p) = 0 ∧ s.f (R.FE_DBG_SEL.INDEX p) = i ∧ 1 ≤ i) ∧
    (∃ (s : State) (p : Fin 18), s.issuing p = true ∧ s.breakHere p = true ∧ (s.eng p).passBrk = false) ∧
    (∃ (s : State) (p : Fin 18), s.engState p = stException ∧ s.engRole p = roleActive ∧ (s.role = 3 ∨ s.role = 5)) ∧
    (∃ (s : State) (p : Fin 18), s.role ≠ 3 ∧ s.role ≠ 5) ∧
    (∃ (s : State) (p : Fin 18) (k : Fin 4) (a : Word), s.power.step ≠ 0 ∧ s.engRole p = roleActive ∧ s.underPass hcEngine p = false ∧ s.recentTransients hcEngine p < 7) ∧
    (∃ (s : State) (p : Fin 18) (k : Fin 4), k.val < 2) ∧
    (∃ (s : State) (i : Fin 131072), s.qualifies i = true) :=
  ⟨⟨act0 stWait, 0, by decide +kernel⟩,
   ⟨act0 stRun, 0, by decide +kernel⟩,
   ⟨(act0 stHalted).setF (R.FE_CFG.DEBUG 0) 1, 0, by decide +kernel⟩,
   ⟨z.setF R.KEY_LC_STATUS.STATE lcService, 0, by decide +kernel⟩,
   ⟨z, 0, by decide +kernel⟩,
   ⟨((z.setEngState 17 stHalted).setF (R.FE_CFG.DEBUG 17) 1), 17, 0, by decide +kernel⟩,
   ⟨(((z.setEngState 17 stHalted).setF (R.FE_CFG.DEBUG 17) 1).setF (R.FE_DBG_SEL.INDEX 17) 31), 17, 0, 31, by decide +kernel⟩,
   ⟨((act0 stRun).setF (R.FE_CFG.DEBUG 0) 1).setF (R.FE_BRK.EN 0 3) 1, 0, by decide +kernel⟩,
   ⟨(act0 stException).setF R.SYS_PAIR_STATUS.ROLE 5, 0, by decide +kernel⟩,
   ⟨act0 stException, 17, by decide +kernel⟩,
   ⟨(act0 stRun).modPower (fun p => { p with step := 5 }), 0, 3, 0, by decide +kernel⟩,
   ⟨act0 stRun, 17, 1, by decide +kernel⟩,
   ⟨(z.setM 0 EP.VALID 1).setM 0 EP.CUR 1023, 0, by decide +kernel⟩⟩

theorem test_witness_SheafCommands :
    (∃ (s : State) (v : Word) (i : Instr), i ∈ [.feShfOpen, .feShfCheck, .feShfApply, .feShfDiscard, .feShfDataWrite v] ∧ s.power.step = 0) ∧
    (∃ s : State, s.power.step ≠ 0 ∧ (s.ctx s.shfSel).st = .free) ∧
    (∃ (s : State) (v : Word) (x : Ctx), s.power.step ≠ 0 ∧ s.ctx s.shfSel = x ∧ (x.st = .opened ∨ x.st = .checked) ∧ x.owner = some .firmware ∧ s.shfUsed < shfPool) ∧
    (∃ (s : State) (v : Word) (x : Ctx), s.power.step ≠ 0 ∧ s.ctx s.shfSel = x ∧ (x.st = .opened ∨ x.st = .checked) ∧ x.owner = some .firmware ∧ shfPool ≤ s.shfUsed) ∧
    (∃ s : State, s.power.step ≠ 0 ∧ (s.ctx s.shfSel).st = .opened ∧ (s.ctx s.shfSel).owner = some .firmware) ∧
    (∃ (s : State) (x : Ctx), s.power.step ≠ 0 ∧ s.ctx s.shfSel = x ∧ x.st = .checked ∧ x.owner = some .firmware ∧ s.svc.act ≠ 3 ∧ (x.regTimed = false ∨ (¬ (∃ d, d < 8 ∧ (s.ctx d).st = .pending ∧ stampUnits x.regWhen < stampUnits (s.ctx d).when_) ∧ ¬ stampUnits s.now + farUnits < stampUnits x.regWhen)) ∧ s.shf.commits = x.checkedAt ∧ s.committing = false) ∧
    (∃ (s : State) (x : Ctx), s.power.step ≠ 0 ∧ s.ctx s.shfSel = x ∧ x.st = .checked ∧ x.owner = some .firmware ∧ s.svc.act ≠ 3 ∧ (x.regTimed = false ∨ (¬ (∃ d, d < 8 ∧ (s.ctx d).st = .pending ∧ stampUnits x.regWhen < stampUnits (s.ctx d).when_) ∧ ¬ stampUnits s.now + farUnits < stampUnits x.regWhen)) ∧ s.shf.commits ≠ x.checkedAt) ∧
    (∃ (s : State) (x : Ctx), s.power.step ≠ 0 ∧ s.ctx s.shfSel = x ∧ (x.st = .opened ∨ x.st = .checked ∨ x.st = .failed) ∧ x.owner = some .firmware) ∧
    (∃ s : State, s.power.step ≠ 0 ∧ (s.ctx s.shfSel).st = .pending ∧ (s.ctx s.shfSel).owner = some .firmware) ∧
    (∃ (s : State) (v : Word) (i : Instr) (ok : List CtxSt), (i, ok) ∈ [(.feShfOpen, [CtxSt.free, .failed]), (.feShfCheck, [.opened]), (.feShfDataWrite v, [.opened, .checked]), (.feShfDiscard, [.opened, .checked, .failed])] ∧ s.power.step ≠ 0 ∧ ((s.ctx s.shfSel).st = .free ∨ (s.ctx s.shfSel).owner = some .firmware) ∧ (s.ctx s.shfSel).st ∉ ok) ∧
    (∃ s : State, s.power.step ≠ 0 ∧ ((s.ctx s.shfSel).st = .free ∨ (s.ctx s.shfSel).owner = some .firmware) ∧ (s.ctx s.shfSel).st ≠ .checked ∧ s.svc.act ≠ 3) ∧
    (∃ s : State, s.power.step ≠ 0 ∧ s.svc.act = 3) ∧
    (∃ (s : State) (v : Word) (l : Nat) (i : Instr), i ∈ [.feShfOpen, .feShfCheck, .feShfApply, .feShfDiscard, .feShfDataWrite v] ∧ s.power.step ≠ 0 ∧ s.svc.act ≠ 3 ∧ (s.ctx s.shfSel).st ≠ .free ∧ (s.ctx s.shfSel).owner = some (.engine l)) ∧
    (∃ s : State, s.power.step ≠ 0 ∧ (s.ctx s.shfSel).st = .failed ∧ (s.ctx s.shfSel).owner = some .firmware) ∧
    (∃ (s : State) (x : Ctx), s.power.step ≠ 0 ∧ s.ctx s.shfSel = x ∧ x.st = .checked ∧ x.owner = some .firmware ∧ s.svc.act ≠ 3 ∧ x.regTimed = true ∧ (∃ d, d < 8 ∧ (s.ctx d).st = .pending ∧ stampUnits x.regWhen < stampUnits (s.ctx d).when_)) ∧
    (∃ (s : State) (x : Ctx), s.power.step ≠ 0 ∧ s.ctx s.shfSel = x ∧ x.st = .checked ∧ x.owner = some .firmware ∧ s.svc.act ≠ 3 ∧ x.regTimed = true ∧ ¬ (∃ d, d < 8 ∧ (s.ctx d).st = .pending ∧ stampUnits x.regWhen < stampUnits (s.ctx d).when_) ∧ stampUnits s.now + farUnits < stampUnits x.regWhen) ∧
    (∃ (s : State) (x : Ctx), s.power.step ≠ 0 ∧ s.ctx s.shfSel = x ∧ x.st = .checked ∧ x.owner = some .firmware ∧ s.svc.act ≠ 3 ∧ (x.regTimed = false ∨ (¬ (∃ d, d < 8 ∧ (s.ctx d).st = .pending ∧ stampUnits x.regWhen < stampUnits (s.ctx d).when_) ∧ ¬ stampUnits s.now + farUnits < stampUnits x.regWhen)) ∧ (s.shf.commits ≠ x.checkedAt ∨ s.committing = true)) :=
  ⟨⟨z, 5, .feShfDataWrite 5, by decide +kernel⟩,
   ⟨ctx0 Ctx.free, by decide +kernel⟩,
   ⟨ctx0 (fw .opened), 5, fw .opened, by decide +kernel⟩,
   ⟨full (List.replicate 65536 ⟨0, 0, 0, 0⟩), 0, (full (List.replicate 65536 ⟨0, 0, 0, 0⟩)).ctx 0, by rw [full_step]; decide, by rw [full_sel], by rw [full_ctx]; exact Or.inl rfl, by rw [full_ctx]; rfl, by rw [full_used, List.length_replicate]; decide⟩,
   ⟨ctx0 (fw .opened), by decide +kernel⟩,
   ⟨ctx0 (fw .checked), fw .checked, by decide +kernel⟩,
   ⟨ctx0 { fw .checked with checkedAt := 1 }, { fw .checked with checkedAt := 1 }, by decide +kernel⟩,
   ⟨ctx0 (fw .failed), fw .failed, by decide +kernel⟩,
   ⟨ctx0 (fw .pending), by decide +kernel⟩,
   ⟨ctx0 Ctx.free, 5, .feShfDataWrite 5, [.opened, .checked], by decide +kernel⟩,
   ⟨ctx0 (fw .opened), by decide +kernel⟩,
   ⟨{ ctx0 (fw .checked) with svc := { z.svc with act := 3 } }, by decide +kernel⟩,
   ⟨(ectx .opened).modPower (fun p => { p with step := 5 }), 0, (run0 0).logicalOf 0, .feShfApply, by decide +kernel⟩,
   ⟨ctx0 (fw .failed), by decide +kernel⟩,
   ⟨(ctx0 { fw .checked with regTimed := true }).setCtx 7 { fw .pending with timed := true, when_ := 0x100000000 }, { fw .checked with regTimed := true }, by decide +kernel⟩,
   ⟨ctx0 { fw .checked with regTimed := true, regWhen := mkStamp 2678401 0 0 }, { fw .checked with regTimed := true, regWhen := mkStamp 2678401 0 0 }, by decide +kernel⟩,
   ⟨(ctx0 { fw .checked with regTimed := true }).setCtx 7 (fw .committing), { fw .checked with regTimed := true }, by decide +kernel⟩⟩

theorem test_witness_SheafLife :
    (∃ (s : State) (c : Fin 8) (x : Ctx), s.ctx c = x ∧ x.st = .checking ∧ x.forApply = false ∧ x.dropAfter = false ∧ x.hnd = none ∧ (∀ p, p < 18 → (s.eng p).blocked = none)) ∧
    (∃ (s : State) (c : Fin 8) (x : Ctx), s.ctx c = x ∧ x.st = .committing ∧ s.flashStuck .journal = false ∧ x.timed = true ∧ s.reached x.when_ = true) ∧
    (∃ (s : State) (c : Fin 8) (x : Ctx), s.ctx c = x ∧ x.st = .pending ∧ x.loaded = false ∧ s.shfNext c = true ∧ s.reached x.when_ = false) ∧
    (∃ (s : State) (c : Fin 8) (x : Ctx), s.ctx c = x ∧ x.st = .pending ∧ x.loaded = false ∧ s.shfNext c = true ∧ s.reached x.when_ = true) ∧
    (∃ (s : State) (c : Fin 8), ∃ (a m v : Word), s.applyDue c = true ∧ (s.ctx c).entries = [⟨1, a, m, v⟩] ∧ (s.ctx c).images = [] ∧ 0x1804000 ≤ a.toNat ∧ shfWord a.toNat = true) :=
  ⟨⟨ctx0 (fw .checking), 0, fw .checking, by decide +kernel⟩,
   ⟨ctx0 { fw .committing with timed := true }, 0, { fw .committing with timed := true }, by decide +kernel⟩,
   ⟨ctxW { fw .pending with timed := true, when_ := 0xFFFFFFFFFFFFFFFF }, 0, { fw .pending with timed := true, when_ := 0xFFFFFFFFFFFFFFFF }, by decide +kernel⟩,
   ⟨ctxW { fw .pending with timed := true }, 0, { fw .pending with timed := true }, by decide +kernel⟩,
   ⟨ctxW { fw .applying with entries := [⟨1, 0x1FFFFFC, 0xFFFFFFFF, 0⟩] }, 0, 0x1FFFFFC, 0xFFFFFFFF, 0, by decide +kernel⟩⟩

theorem test_witness_AluResult :
    (∃ (s : State) (p : Fin 18) (ps : Fin 8) (rd ra rb : Fin 32), runs s p ps ∧ (s.w p rb) ≠ 0) ∧
    (∃ (s : State) (p : Fin 18) (ps : Fin 8) (rd ra rb : Fin 32), ∃ k : Nat, runs s p ps ∧ k < 64 ∧ (s.w p ra).getLsbD k = true ∧ (∀ j, k < j → j < 64 → (s.w p ra).getLsbD j = false)) ∧
    (∃ (s : State) (p : Fin 18) (ps : Fin 8) (rd ra rb : Fin 32), ∃ k : Nat, runs s p ps ∧ k < 64 ∧ (s.w p ra).getLsbD k = true ∧ (∀ j, j < k → (s.w p ra).getLsbD j = false)) ∧
    (∃ (s : State) (p : Fin 18) (ps : Fin 8) (rd ra rb : Fin 32), runs s p ps ∧ (s.w p ra) = 0) :=
  ⟨⟨run0 0, 0, 1, 5, 1, 2, by unfold runs; decide +kernel⟩,
   ⟨run0 0, 0, 0, 5, 1, 2, 63, by unfold runs; decide +kernel, by decide, by decide +kernel, fun j h1 h2 => by omega⟩,
   ⟨run0 0, 0, 0, 5, 2, 2, 0, by unfold runs; decide +kernel, by decide, by decide +kernel, fun j h => by omega⟩,
   ⟨run0 98, 0, 0, 0, 0, 0, by unfold runs; decide +kernel⟩⟩

theorem test_witness_IntegerCorners :
    (∃ (s : State) (p : Fin 18) (ps : Fin 8) (rd ra rb : Fin 32) (imm : BitVec 16), runs s p ps ∧ (s.w p rb) = 0) ∧
    (∃ (s : State) (p : Fin 18) (ps : Fin 8) (rd ra rb : Fin 32) (imm : BitVec 16), runs s p ps ∧ (s.w p ra).toInt = -2 ^ 63 ∧ (s.w p rb).toInt = -1) ∧
    (∃ (s : State) (p : Fin 18) (ps : Fin 8) (rd ra rb : Fin 32) (imm : BitVec 16), runs s p ps ∧ (s.w p rb).toInt < (s.w p ra).toInt) :=
  ⟨⟨run0 0, 0, 0, 5, 1, 0, 0, by unfold runs; decide +kernel⟩,
   ⟨run0 0, 0, 0, 31, 1, 2, 0, by unfold runs; decide +kernel⟩,
   ⟨run0 0, 0, 0, 31, 2, 1, 0, by unfold runs; decide +kernel⟩⟩

theorem test_witness_ImmediateResult :
    ∃ (s : State) (p : Fin 18) (ps : Fin 8) (rd : Fin 32) (imm : BitVec 16) (n : Fin 64), runs s p ps :=
  ⟨run0 0, 0, 0, 31, 0xFFFF, 63, by unfold runs; decide +kernel⟩

theorem test_witness_PredicateResult :
    (∃ (s : State) (p : Fin 18) (ps pd pn pa pb : Fin 8) (ra rb : Fin 32) (imm : BitVec 10), ∃ (c : Fin 16) (v : Bool), runs s p ps ∧ [decide ((s.w p ra) = (s.w p rb)), decide ((s.w p ra) ≠ (s.w p rb)), decide ((s.w p ra).toInt < (s.w p rb).toInt), decide ((s.w p rb).toInt ≤ (s.w p ra).toInt), decide ((s.w p ra).toNat < (s.w p rb).toNat), decide ((s.w p rb).toNat ≤ (s.w p ra).toNat), decide ((s.w p ra) &&& (s.w p rb) ≠ 0)][c.val]? = some v ∧ (pd ≠ pn ∨ pd = 0)) ∧
    (∃ (s : State) (p : Fin 18) (ps pd pn pa pb : Fin 8) (ra rb : Fin 32) (imm : BitVec 10), ∃ c : Fin 16, runs s p ps ∧ (6 < c.val ∨ (pd = pn ∧ pd ≠ 0))) ∧
    (∃ (s : State) (p : Fin 18) (ps pd pn pa pb : Fin 8) (ra rb : Fin 32) (imm : BitVec 10), ∃ (c : Fin 4) (v : Bool), runs s p ps ∧ [decide ((s.w p ra) = (imm.signExtend 64)), decide ((s.w p ra).toInt < imm.toInt), decide ((s.w p ra).toNat < (imm.signExtend 64).toNat), decide ((s.w p ra) &&& imm.setWidth 64 ≠ 0)][c.val]? = some v ∧ (pd ≠ pn ∨ pd = 0)) ∧
    (∃ (s : State) (p : Fin 18) (ps pd pn pa pb : Fin 8) (ra rb : Fin 32) (imm : BitVec 10), runs s p ps ∧ pd = pn ∧ pd ≠ 0) :=
  ⟨⟨run0 0, 0, 0, 7, 6, 1, 2, 1, 2, 0x3FF, 6, true, by unfold runs; decide +kernel⟩,
   ⟨run0 0, 0, 0, 7, 7, 1, 2, 1, 2, 0x3FF, 7, by unfold runs; decide +kernel⟩,
   ⟨run0 0, 0, 0, 0, 0, 1, 2, 1, 2, 0x3FF, 3, false, by unfold runs; decide +kernel⟩,
   ⟨run0 0, 0, 0, 7, 7, 1, 2, 1, 2, 0x3FF, by unfold runs; decide +kernel⟩⟩

theorem test_witness_BranchResult :
    (∃ (s : State) (p : Fin 18) (ps : Fin 8) (off : BitVec 21) (ra : Fin 32), ∃ n : Nat, jumps s p ps ∧ (n : Int) = (s.pc p : Int) + off.toInt ∧ n < ((s.eng p).codeWords)) ∧
    (∃ (s : State) (p : Fin 18) (ps : Fin 8) (off : BitVec 21) (ra : Fin 32), jumps s p ps ∧ ((s.pc p : Int) + off.toInt < 0 ∨ (((s.eng p).codeWords) : Int) ≤ (s.pc p : Int) + off.toInt)) ∧
    (∃ (s : State) (p : Fin 18) (ps : Fin 8) (off : BitVec 21) (ra : Fin 32), ∃ n : Nat, jumps s p ps ∧ n = (s.w p 31).toNat % 65536 ∧ n < ((s.eng p).codeWords)) ∧
    (∃ (s : State) (p : Fin 18) (ps : Fin 8) (off : BitVec 21) (ra : Fin 32), ∃ n : Nat, jumps s p ps ∧ n = (s.w p 31).toNat % 65536 ∧ ((s.eng p).codeWords) ≤ n) ∧
    (∃ (s : State) (p : Fin 18) (ps : Fin 8) (off : BitVec 21) (ra : Fin 32), ∃ n : Nat, jumps s p ps ∧ n = (s.w p ra).toNat % 65536 ∧ n < ((s.eng p).codeWords)) ∧
    (∃ (s : State) (p : Fin 18) (ps : Fin 8) (off : BitVec 21) (ra : Fin 32), ∃ n : Nat, jumps s p ps ∧ n = (s.w p ra).toNat % 65536 ∧ ((s.eng p).codeWords) ≤ n) :=
  ⟨⟨run0 0, 0, 0, 99, 1, 99, by unfold jumps; decide +kernel⟩,
   ⟨run0 0, 0, 0, 0x1FFFFF, 1, by unfold jumps; decide +kernel⟩,
   ⟨run0 0, 0, 0, 0, 1, 0, by unfold jumps; decide +kernel⟩,
   ⟨(run0 0).setW 0 31 100, 0, 0, 0, 1, 100, by unfold jumps; decide +kernel⟩,
   ⟨run0 0, 0, 0, 0, 3, 1, by unfold jumps; decide +kernel⟩,
   ⟨(run0 0).setW 0 1 100, 0, 0, 0, 1, 100, by unfold jumps; decide +kernel⟩⟩

theorem test_witness_RetireFrame :
    (∃ (s : State) (p : Fin 18) (cost npc : Nat) (touched : List (Nat × Bool)), ∃ q : Nat, npc < 65536 ∧ q ≠ p.val) ∧
    (∃ (s : State) (p : Fin 18) (cost npc : Nat) (touched : List (Nat × Bool)), npc < 65536 ∧ s.watchHit p touched = true) ∧
    (∃ (s : State) (p : Fin 18) (cost npc : Nat) (touched : List (Nat × Bool)), ∃ (b : Blk) (o : Nat), npc < 65536 ∧ s.watchHit p touched = false ∧ (⟨b, o⟩ : Reg) ≠ R.FE_PC.reg p ∧ (⟨b, o⟩ : Reg) ≠ R.FE_STATUS.reg p) :=
  ⟨⟨z, 0, 1, 65535, [], 1, by decide +kernel⟩,
   ⟨(((act0 stRun).setF (R.FE_CFG.DEBUG 0) 1).setF (R.FE_WATCH.EN 0) 1).setF (R.FE_WATCH.ON_WRITE 0) 1, 0, 1, 0, [(0, true)], by decide +kernel⟩,
   ⟨z, 0, 1, 0, [], .sys, 0, by decide +kernel⟩⟩

theorem test_witness_RegisterFiles :
    (∃ (s : State) (p : Fin 18) (i : Fin 32) (v : DWord), i.val ≠ 0) ∧
    (∃ (s : State) (p : Fin 18) (i : Fin 32) (v : DWord), ∃ q j : Nat, (q ≠ p.val ∨ j ≠ i.val)) ∧
    (∃ (s : State) (p : Fin 18) (i : Fin 8) (v : Bool), i.val ≠ 0) ∧
    (∃ (s : State) (p : Fin 18) (i : Fin 8) (v : Bool), ∃ q j : Nat, (q ≠ p.val ∨ j ≠ i.val)) ∧
    (∃ (s : State) (p : Fin 18) (i : Fin 4) (v : BitVec 25) (x : TReg), ∃ q j : Nat, (q ≠ p.val ∨ j ≠ i.val)) ∧
    (∃ (s : State) (p : Fin 18) (l st : Nat) (x : Image), ∃ i : Nat, s.image l = some x ∧ x.entry < 65536 ∧ st < 8 ∧ i ≠ 0) :=
  ⟨⟨z, 17, 31, 0, by decide +kernel⟩,
   ⟨z, 17, 31, 0, 17, 0, by decide +kernel⟩,
   ⟨z, 17, 7, true, by decide +kernel⟩,
   ⟨z, 17, 7, true, 0, 7, by decide +kernel⟩,
   ⟨z, 17, 3, 0, TReg.zero, 17, 2, by decide +kernel⟩,
   ⟨z.setImage 15 (some ⟨65535, 0, 0, []⟩), 17, 15, 7, ⟨65535, 0, 0, []⟩, 1, by decide +kernel⟩⟩

theorem test_witness_PredicatedOff :
    (∃ (i : Instr) (s : State) (p : Fin 18) (w : Word), encodeZhn i = some (p, w) ∧ s.issuing p = true ∧ s.pc p < (s.eng p).codeWords ∧ (s.breakHere p = false ∨ (s.eng p).passBrk = true) ∧ s.p p (getBits w 23 3) = false) ∧
    (∃ (i : Instr) (s : State) (p : Fin 18) (w : Word), encodeZhn i = some (p, w) ∧ s.issuing p = true ∧ s.pc p < (s.eng p).codeWords ∧ (s.breakHere p = false ∨ (s.eng p).passBrk = true) ∧ s.p p (getBits w 23 3) = true) :=
  ⟨⟨.add 0 2 5 6 7, run0 99, 0, 0x0114C700, by decide +kernel⟩,
   ⟨.add 0 1 5 6 7, run0 99, 0, 0x0094C700, by decide +kernel⟩⟩

theorem test_witness_WordsAreCommands :
    ∃ (i : Instr) (s : State) (p : Fin 18) (w : Word), encodeZhn i = some (p, w) :=
  ⟨.add 17 0 5 6 7, z, 17, 0x0014C700, by decide +kernel⟩

theorem test_witness_ProgramExceptions :
    (∃ (s : State) (p : Fin 18) (code : Nat) (a : Word), code < 256 ∧ s.engRole p = roleActive) ∧
    (∃ (i : Instr) (s : State) (p : Fin 18) (w : Word), encodeZhn i = some (p, w) ∧ s.issuing p = true ∧ (s.eng p).codeWords ≤ s.pc p) ∧
    (∃ (i : Instr) (s : State) (p : Fin 18) (w : Word), encodeZhn i = some (p, w) ∧ jumps s p (getBits w 23 3) ∧ zSeq w = true ∧ s.pc p + 1 = (s.eng p).codeWords ∧ (∀ a, zWord p w s ≠ .exc 0x01 a)) ∧
    (∃ (s : State) (p : Fin 18) (ps : Fin 8) (code : BitVec 10), jumps s p ps) :=
  ⟨⟨act0 stRun, 0, 0xFF, 0, by decide +kernel⟩,
   ⟨.add 0 1 5 6 7, run0 100, 0, 0x0094C700, by decide +kernel⟩,
   ⟨.add 0 1 5 6 7, run0 99, 0, 0x0094C700, by decide +kernel, by unfold jumps; decide +kernel, by decide +kernel, by decide +kernel, fun a => by show zWord 0 0x0094C700 (run0 99) ≠ _; nofun⟩,
   ⟨run0 99, 0, 1, 0x3FF, by unfold jumps; decide +kernel⟩⟩

theorem test_witness_LoadStore :
    (∃ (s : State) (p : Fin 18) (ps : Fin 8) (z : Fin 4) (rd ra rb : Fin 32) (off : Fin 64), runs s p ps ∧ (lsAddr (s.memAddr p ra z off)) % (szBytes z) = 0) ∧
    (∃ (s : State) (p : Fin 18) (ps : Fin 8) (z : Fin 4) (rd ra rb : Fin 32) (off : Fin 64), runs s p ps ∧ (lsAddr (s.memAddr p ra z off)) % (szBytes z) ≠ 0) ∧
    (∃ (s : State) (p : Fin 18) (ps : Fin 8) (z : Fin 4) (rd ra rb : Fin 32) (off : Fin 64), runs s p ps ∧ ((s.memAddr p ra z off).toNat) < 0x4000000 ∧ ((s.memAddr p ra z off).toNat) % (szBytes z) = 0 ∧ z.val < 3 ∧ storeRo (s.logicalOf p) (((s.memAddr p ra z off).toNat) / 4 * 4) (s.fword (((s.memAddr p ra z off).toNat) / 4 * 4)) (patchWord (s.fword (((s.memAddr p ra z off).toNat) / 4 * 4)) (((s.memAddr p ra z off).toNat) % 4) (szBytes z) (s.w p rb).toNat) = false) ∧
    (∃ (s : State) (p : Fin 18) (ps : Fin 8) (z : Fin 4) (rd ra rb : Fin 32) (off : Fin 64), runs s p ps ∧ ((s.memAddr p ra z off).toNat) < 0x4000000 ∧ ((s.memAddr p ra z off).toNat) % (szBytes z) = 0 ∧ z = 3 ∧ storeRo (s.logicalOf p) ((s.memAddr p ra z off).toNat) (s.fword ((s.memAddr p ra z off).toNat)) ((s.w p rb).setWidth 32) = false ∧ storeRo (s.logicalOf p) (((s.memAddr p ra z off).toNat) + 4) (s.fword (((s.memAddr p ra z off).toNat) + 4)) ((s.w p rb >>> 32).setWidth 32) = false) ∧
    (∃ (s : State) (p : Fin 18) (ps : Fin 8) (z : Fin 4) (rd ra rb : Fin 32) (off : Fin 64), runs s p ps ∧ ((s.memAddr p ra z off).toNat) < 0x4000000 ∧ ((s.memAddr p ra z off).toNat) % (szBytes z) = 0 ∧ z.val < 3 ∧ storeRo (s.logicalOf p) (((s.memAddr p ra z off).toNat) / 4 * 4) (s.fword (((s.memAddr p ra z off).toNat) / 4 * 4)) (patchWord (s.fword (((s.memAddr p ra z off).toNat) / 4 * 4)) (((s.memAddr p ra z off).toNat) % 4) (szBytes z) (s.w p rb).toNat) = true) ∧
    (∃ (s : State) (p : Fin 18) (ps : Fin 8) (z : Fin 4) (rd ra rb : Fin 32) (off : Fin 64), runs s p ps ∧ (0x4000000 ≤ ((s.memAddr p ra z off).toNat) ∨ ((s.memAddr p ra z off).toNat) % (szBytes z) ≠ 0)) ∧
    (∃ (s : State) (p : Fin 18) (z : Fin 4) (l k : Nat) (v : DWord), l < 0x40000 ∧ l % szBytes z = 0 ∧ k < 0x40000 ∧ l ≤ k ∧ k < l + szBytes z) ∧
    (∃ (s : State) (p : Fin 18) (z : Fin 4) (l k : Nat) (v : DWord), l < 0x40000 ∧ l % szBytes z = 0 ∧ k < 0x40000 ∧ (k < l ∨ l + szBytes z ≤ k)) ∧
    (∃ (s : State) (p : Fin 18) (z : Fin 4) (l k : Nat) (v : DWord), ∃ q : Nat, l < 0x40000 ∧ l % szBytes z = 0 ∧ k < 0x40000 ∧ q ≠ p.val) ∧
    (∃ (s : State) (z : Fin 4) (a k : Nat) (v : DWord), z.val < 3 ∧ a < 0x4000000 ∧ a % szBytes z = 0 ∧ a ≤ k ∧ k < a + szBytes z) ∧
    (∃ (s : State) (z : Fin 4) (a k : Nat) (v : DWord), z.val < 3 ∧ a < 0x4000000 ∧ a % szBytes z = 0 ∧ (k < a ∨ a + szBytes z ≤ k)) ∧
    (∃ (s : State) (p : Fin 18) (ps : Fin 8) (z : Fin 4) (rd ra rb : Fin 32) (off : Fin 64), runs s p ps ∧ (s.memAddr p ra z off).toNat < 0x4000000 ∧ (s.memAddr p ra z off).toNat % szBytes z = 0 ∧ z = 3 ∧ (storeRo (s.logicalOf p) (s.memAddr p ra z off).toNat (s.fword (s.memAddr p ra z off).toNat) ((s.w p rb).setWidth 32) = true ∨ storeRo (s.logicalOf p) ((s.memAddr p ra z off).toNat + 4) (s.fword ((s.memAddr p ra z off).toNat + 4)) ((s.w p rb >>> 32).setWidth 32) = true)) :=
  ⟨⟨run0 0, 0, 0, 3, 5, 0, 2, 63, by unfold runs; decide +kernel⟩,
   ⟨run0 0, 0, 0, 3, 5, 4, 2, 0, by unfold runs; decide +kernel⟩,
   ⟨wreg (run0 0) 5 0x3FFFFFF, 0, 0, 0, 5, 5, 2, 0, by unfold runs; decide +kernel⟩,
   ⟨wreg (run0 0) 5 0x3FFFFF8, 0, 0, 3, 5, 5, 2, 0, by unfold runs; decide +kernel⟩,
   ⟨wreg (run0 0) 5 0x1800000, 0, 0, 0, 5, 5, 2, 0, by unfold runs; decide +kernel⟩,
   ⟨wreg (run0 0) 5 0x4000000, 0, 0, 0, 5, 5, 2, 0, by unfold runs; decide +kernel⟩,
   ⟨z, 0, 3, 0x3FFF8, 0x3FFFF, 0, by decide +kernel⟩,
   ⟨z, 0, 3, 8, 16, 0, by decide +kernel⟩,
   ⟨z, 17, 0, 0x3FFFF, 0, 0, 0, by decide +kernel⟩,
   ⟨z, 2, 0x3FFFFFC, 0x3FFFFFF, 0, by decide +kernel⟩,
   ⟨z, 0, 1, 0, 0, by decide +kernel⟩,
   ⟨wreg (run0 0) 5 0x1800000, 0, 0, 3, 5, 5, 2, 0, by unfold runs; decide +kernel⟩⟩

theorem test_witness_RecordsAndCursors :
    (∃ (s : State) (p : Fin 18) (ps pd : Fin 8) (r : Fin 32) (ec : Fin 4) (word lsb wm1 : Fin 32), runs s p ps ∧ lsb.val + (wm1.val + 1) ≤ 32 ∧ s.ep (curIdx (s.e p ec)) EP.GEN = curGen (s.e p ec) ∧ s.epValid (curIdx (s.e p ec)) = true ∧ (∀ k : Nat, lsb.val ≤ k → k < lsb.val + (wm1.val + 1) → (epWriterMask (4 * word.val)).testBit k = true)) ∧
    (∃ (s : State) (p : Fin 18) (ps pd : Fin 8) (r : Fin 32) (ec : Fin 4) (word lsb wm1 : Fin 32), runs s p ps ∧ lsb.val + (wm1.val + 1) ≤ 32 ∧ s.ep (curIdx (s.e p ec)) EP.GEN = curGen (s.e p ec) ∧ s.epValid (curIdx (s.e p ec)) = false) ∧
    (∃ (s : State) (p : Fin 18) (ps pd : Fin 8) (r : Fin 32) (ec : Fin 4) (word lsb wm1 : Fin 32), ∃ k : Nat, runs s p ps ∧ lsb.val + (wm1.val + 1) ≤ 32 ∧ s.ep (curIdx (s.e p ec)) EP.GEN = curGen (s.e p ec) ∧ s.epValid (curIdx (s.e p ec)) = true ∧ lsb.val ≤ k ∧ k < lsb.val + (wm1.val + 1) ∧ (epWriterMask (4 * word.val)).testBit k = false) ∧
    (∃ (s : State) (p : Fin 18) (ps pd : Fin 8) (r : Fin 32) (ec : Fin 4) (word lsb wm1 : Fin 32), runs s p ps ∧ lsb.val + (wm1.val + 1) ≤ 32 ∧ s.ep (curIdx (s.e p ec)) EP.GEN ≠ curGen (s.e p ec)) ∧
    (∃ (s : State) (p : Fin 18) (ps pd : Fin 8) (r : Fin 32) (ec : Fin 4) (word lsb wm1 : Fin 32), runs s p ps ∧ 32 < lsb.val + (wm1.val + 1)) ∧
    (∃ (s : State) (p : Fin 18) (ps pd : Fin 8) (r : Fin 32) (ec : Fin 4) (word lsb wm1 : Fin 32), runs s p ps ∧ (s.w p r).toNat < 2 ^ 25) ∧
    (∃ (s : State) (p : Fin 18) (ps pd : Fin 8) (r : Fin 32) (ec : Fin 4) (word lsb wm1 : Fin 32), runs s p ps ∧ (s.w p r).toNat < 2 ^ 17) ∧
    (∃ (s : State) (p : Fin 18) (ps pd : Fin 8) (r : Fin 32) (ec : Fin 4) (word lsb wm1 : Fin 32), runs s p ps ∧ lsAddr (s.w p r) % 4 = 0 ∧ s.ep (curIdx (s.e p ec)) EP.GEN = curGen (s.e p ec)) ∧
    (∃ (s : State) (p : Fin 18) (ps pd : Fin 8) (r : Fin 32) (ec : Fin 4) (word lsb wm1 : Fin 32), runs s p ps ∧ (s.w p r).toNat ≤ 32767 ∧ s.row (s.w p r).toNat ROW.VALID = 0) ∧
    (∃ (s : State) (p : Fin 18) (ps pd : Fin 8) (r : Fin 32) (ec : Fin 4) (word lsb wm1 : Fin 32), runs s p ps ∧ (s.w p r).toNat ≤ 32767 ∧ s.row (s.w p r).toNat ROW.VALID ≠ 0 ∧ s.row (s.w p r).toNat ROW.HEAD_VALID = 0) ∧
    (∃ (s : State) (p : Fin 18) (ps pd : Fin 8) (r : Fin 32) (ec : Fin 4) (word lsb wm1 : Fin 32), runs s p ps ∧ (s.w p r).toNat ≤ 32767 ∧ s.row (s.w p r).toNat ROW.VALID ≠ 0 ∧ s.row (s.w p r).toNat ROW.HEAD_VALID ≠ 0) ∧
    (∃ (s : State) (p : Fin 18) (ps pd : Fin 8) (r : Fin 32) (ec : Fin 4) (word lsb wm1 : Fin 32), runs s p ps ∧ s.ep (curIdx (s.e p ec)) EP.GEN = curGen (s.e p ec) ∧ (s.epValid (curIdx (s.e p ec)) = false ∨ s.ep (curIdx (s.e p ec)) EP.ON_ROW = 0)) ∧
    (∃ (s : State) (p : Fin 18) (ps pd : Fin 8) (r : Fin 32) (ec : Fin 4) (word lsb wm1 : Fin 32), runs s p ps ∧ s.ep (curIdx (s.e p ec)) EP.GEN = curGen (s.e p ec) ∧ s.epValid (curIdx (s.e p ec)) = true ∧ s.ep (curIdx (s.e p ec)) EP.ON_ROW ≠ 0 ∧ s.ep (curIdx (s.e p ec)) EP.NEXT_VALID = 0) ∧
    (∃ (s : State) (p : Fin 18) (ps pd : Fin 8) (r : Fin 32) (ec : Fin 4) (word lsb wm1 : Fin 32), runs s p ps ∧ s.ep (curIdx (s.e p ec)) EP.GEN = curGen (s.e p ec) ∧ s.epValid (curIdx (s.e p ec)) = true ∧ s.ep (curIdx (s.e p ec)) EP.ON_ROW ≠ 0 ∧ s.ep (curIdx (s.e p ec)) EP.NEXT_VALID ≠ 0) ∧
    (∃ (s : State) (p : Fin 18) (ps pd : Fin 8) (r : Fin 32) (ec : Fin 4) (word lsb wm1 : Fin 32), ∃ g m : Nat, ∃ j : Nat, runs s p ps ∧ (s.w p r).toNat = g * 2 ^ 32 + m ∧ g < 512 ∧ m < 131072 ∧ canonical fmemReset s.fmem ∧ m ≤ j ∧ j < 131072 ∧ s.grpBit g j = true ∧ (∀ k, m ≤ k → k < j → s.grpBit g k = false)) ∧
    (∃ (s : State) (p : Fin 18) (ps pd : Fin 8) (r : Fin 32) (ec : Fin 4) (word lsb wm1 : Fin 32), ∃ g m : Nat, runs s p ps ∧ (s.w p r).toNat = g * 2 ^ 32 + m ∧ g < 512 ∧ m < 131072 ∧ canonical fmemReset s.fmem ∧ (∀ k, m ≤ k → k < 131072 → s.grpBit g k = false)) ∧
    (∃ (s : State) (p : Fin 18) (ps pd : Fin 8) (r : Fin 32) (ec : Fin 4), runs s p ps ∧ 2 ^ 25 ≤ (s.w p r).toNat) ∧
    (∃ (s : State) (p : Fin 18) (ps pd : Fin 8) (r : Fin 32) (ec : Fin 4), runs s p ps ∧ 2 ^ 17 ≤ (s.w p r).toNat) ∧
    (∃ (s : State) (p : Fin 18) (ps pd : Fin 8) (r : Fin 32) (ec : Fin 4), runs s p ps ∧ lsAddr (s.w p r) % 4 ≠ 0) ∧
    (∃ (s : State) (p : Fin 18) (ps pd : Fin 8) (r : Fin 32) (ec : Fin 4), runs s p ps ∧ lsAddr (s.w p r) % 4 = 0 ∧ s.ep (curIdx (s.e p ec)) EP.GEN ≠ curGen (s.e p ec)) ∧
    (∃ (s : State) (p : Fin 18) (ps pd : Fin 8) (r : Fin 32) (ec : Fin 4), runs s p ps ∧ 32767 < (s.w p r).toNat) ∧
    (∃ (s : State) (p : Fin 18) (ps pd : Fin 8) (r : Fin 32) (ec : Fin 4), runs s p ps ∧ s.ep (curIdx (s.e p ec)) EP.GEN ≠ curGen (s.e p ec)) ∧
    (∃ (s : State) (p : Fin 18) (ps pd : Fin 8) (r : Fin 32) (ec : Fin 4), runs s p ps ∧ 512 ≤ (s.w p r).toNat / 2 ^ 32) ∧
    (∃ (s : State) (p : Fin 18) (ps pd : Fin 8) (r : Fin 32) (ec : Fin 4), runs s p ps ∧ 131072 ≤ (s.w p r).toNat % 2 ^ 32) :=
  ⟨⟨rec0, 0, 0, 1, 5, 3, 31, 0, 31, by unfold runs; decide +kernel, by decide, by decide +kernel, by decide +kernel, wide_ok⟩,
   ⟨run0 0, 0, 0, 1, 5, 3, 31, 0, 31, by unfold runs; decide +kernel⟩,
   ⟨rec0, 0, 0, 1, 5, 3, 0, 0, 0, 0, by unfold runs; decide +kernel⟩,
   ⟨(rec0).setE 0 3 0x1FFFFFF, 0, 0, 1, 5, 3, 0, 0, 0, by unfold runs; decide +kernel⟩,
   ⟨rec0, 0, 0, 1, 5, 3, 0, 31, 1, by unfold runs; decide +kernel⟩,
   ⟨wreg rec0 5 0x1FFFFFF, 0, 0, 1, 5, 3, 0, 0, 0, by unfold runs; decide +kernel⟩,
   ⟨wreg rec0 5 0x1FFFF, 0, 0, 1, 5, 3, 0, 0, 0, by unfold runs; decide +kernel⟩,
   ⟨wreg rec0 5 0x3FFFC, 0, 0, 1, 5, 3, 0, 0, 0, by unfold runs; decide +kernel⟩,
   ⟨rec0, 0, 0, 1, 0, 3, 0, 0, 0, by unfold runs; decide +kernel⟩,
   ⟨(wreg rec0 5 32767).setM (rowBase 32767) ROW.HEAD_VALID 0, 0, 0, 1, 5, 3, 0, 0, 0, by unfold runs; decide +kernel⟩,
   ⟨wreg rec0 5 32767, 0, 0, 1, 5, 3, 0, 0, 0, by unfold runs; decide +kernel⟩,
   ⟨run0 0, 0, 0, 1, 5, 3, 0, 0, 0, by unfold runs; decide +kernel⟩,
   ⟨rec0, 0, 0, 1, 5, 3, 0, 0, 0, by unfold runs; decide +kernel⟩,
   ⟨rec0.setEp 0 EP.NEXT_VALID 1, 0, 0, 1, 5, 3, 0, 0, 0, by unfold runs; decide +kernel⟩,
   ⟨(wreg rec0 5 (511 * 2 ^ 32 + 131071)).setGrpBit 511 131071 true, 0, 0, 1, 5, 3, 0, 0, 0, 511, 131071, 131071, by unfold runs; decide +kernel, by decide +kernel, by decide, by decide, by show swf _ _ = true; decide +kernel, by decide, by decide, by decide +kernel, fun k h1 h2 => by omega⟩,
   ⟨wreg rec0 5 (511 * 2 ^ 32 + 131071), 0, 0, 1, 5, 3, 0, 0, 0, 511, 131071, by unfold runs; decide +kernel, by decide +kernel, by decide, by decide, by show swf _ _ = true; decide +kernel, fun k h1 h2 => by obtain rfl : k = 131071 := (by omega); decide +kernel⟩,
   ⟨wreg rec0 5 0x2000000, 0, 0, 1, 5, 3, by unfold runs; decide +kernel⟩,
   ⟨wreg rec0 5 0x20000, 0, 0, 1, 5, 3, by unfold runs; decide +kernel⟩,
   ⟨wreg rec0 5 3, 0, 0, 1, 5, 3, by unfold runs; decide +kernel⟩,
   ⟨(wreg rec0 5 4).setE 0 3 0x1FFFFFF, 0, 0, 1, 5, 3, by unfold runs; decide +kernel⟩,
   ⟨wreg rec0 5 32768, 0, 0, 1, 5, 3, by unfold runs; decide +kernel⟩,
   ⟨rec0.setE 0 3 0x1FFFFFF, 0, 0, 1, 5, 3, by unfold runs; decide +kernel⟩,
   ⟨wreg rec0 5 (512 * 2 ^ 32), 0, 0, 1, 5, 3, by unfold runs; decide +kernel⟩,
   ⟨wreg rec0 5 131072, 0, 0, 1, 5, 3, by unfold runs; decide +kernel⟩⟩

theorem test_witness_GroupInstructions :
    (∃ (s : State) (p : Fin 18) (ps pd : Fin 8) (rg ri : Fin 32), runs s p ps ∧ ((s.w p rg).toNat) < 512 ∧ ((s.w p ri).toNat) < 131072 ∧ ((s.w p rg).toNat) ≠ 0) ∧
    (∃ (s : State) (p : Fin 18) (ps pd : Fin 8) (rg ri : Fin 32), runs s p ps ∧ ((s.w p rg).toNat) < 512 ∧ canonical fmemReset s.fmem) ∧
    (∃ (s : State) (p : Fin 18) (ps pd : Fin 8) (rg ri : Fin 32), runs s p ps ∧ 131072 ≤ ((s.w p ri).toNat)) ∧
    (∃ (s : State) (p : Fin 18) (ps pd : Fin 8) (rg ri : Fin 32), runs s p ps ∧ ((s.w p ri).toNat) < 131072 ∧ 512 ≤ ((s.w p rg).toNat)) ∧
    (∃ (s : State) (p : Fin 18) (ps pd : Fin 8) (rg ri : Fin 32), runs s p ps ∧ ((s.w p ri).toNat) < 131072 ∧ ((s.w p rg).toNat) = 0) ∧
    (∃ (s : State) (g i h j : Nat) (v : Bool), g < 512 ∧ i < 131072 ∧ h < 512 ∧ j < 131072) ∧
    (∃ (s : State) (p : Fin 18) (ps : Fin 8) (rd ra rb : Fin 32), runs s p ps ∧ 0 < ((s.w p rd).toNat) ∧ ((s.w p rd).toNat) < 512 ∧ ((s.w p ra).toNat) < 512 ∧ ((s.w p rb).toNat) < 512) ∧
    (∃ (s : State) (p : Fin 18) (ps : Fin 8) (rd ra rb : Fin 32), runs s p ps ∧ (512 ≤ ((s.w p rd).toNat) ∨ 512 ≤ ((s.w p ra).toNat))) ∧
    (∃ (s : State) (p : Fin 18) (ps : Fin 8) (rg : Fin 32), runs s p ps ∧ 512 ≤ (s.w p rg).toNat) ∧
    (∃ (s : State) (p : Fin 18) (ps : Fin 8) (rd ra rb : Fin 32), runs s p ps ∧ 512 ≤ (s.w p rb).toNat) ∧
    (∃ (s : State) (p : Fin 18) (ps : Fin 8) (rd ra rb : Fin 32), runs s p ps ∧ (s.w p rd).toNat = 0 ∧ (s.w p ra).toNat < 512 ∧ (s.w p rb).toNat < 512) :=
  ⟨⟨wreg (wreg (run0 0) 5 511) 6 131071, 0, 0, 1, 5, 6, by unfold runs; decide +kernel⟩,
   ⟨wreg (wreg (run0 0) 5 511) 6 131071, 0, 0, 1, 5, 6, by unfold runs; decide +kernel, by decide +kernel, by show swf _ _ = true; decide +kernel⟩,
   ⟨wreg (wreg (run0 0) 5 512) 6 131072, 0, 0, 1, 5, 6, by unfold runs; decide +kernel⟩,
   ⟨wreg (wreg (run0 0) 5 512) 6 131071, 0, 0, 1, 5, 6, by unfold runs; decide +kernel⟩,
   ⟨run0 0, 0, 0, 1, 0, 0, by unfold runs; decide +kernel⟩,
   ⟨z, 511, 131071, 0, 0, true, by decide +kernel⟩,
   ⟨wreg (run0 0) 5 511, 0, 0, 5, 5, 5, by unfold runs; decide +kernel⟩,
   ⟨wreg (run0 0) 5 512, 0, 0, 5, 5, 5, by unfold runs; decide +kernel⟩,
   ⟨wreg (run0 0) 5 512, 0, 0, 5, by unfold runs; decide +kernel⟩,
   ⟨wreg (wreg (run0 0) 5 511) 6 512, 0, 0, 5, 5, 6, by unfold runs; decide +kernel⟩,
   ⟨wreg (run0 0) 5 511, 0, 0, 0, 5, 5, by unfold runs; decide +kernel⟩⟩

theorem test_witness_DimCodes :
    (∃ (s : State) (p : Fin 18) (ps : Fin 8) (rd ra : Fin 32), runs s p ps ∧ (s.w p ra).toNat < 1024) ∧
    (∃ (s : State) (p : Fin 18) (ps : Fin 8) (rd ra : Fin 32), runs s p ps ∧ 1024 ≤ (s.w p ra).toNat) ∧
    (∃ c : Nat, 1 ≤ c ∧ c ≤ 1023) ∧
    (∃ v : Int, ∃ k : Nat, 0 < v ∧ v < 100000 ∧ k ≤ 1023 ∧ (v - dimL (dimP2c v)).natAbs = (v - dimL k).natAbs) ∧
    (∃ v : Int, v ≤ 0) ∧
    (∃ v : Int, 100000 ≤ v) :=
  ⟨⟨wreg (run0 0) 5 1023, 0, 0, 5, 5, by unfold runs; decide +kernel⟩,
   ⟨wreg (run0 0) 5 1024, 0, 0, 5, 5, by unfold runs; decide +kernel⟩,
   ⟨1023, by decide +kernel⟩,
   ⟨99999, 1023, by decide +kernel⟩,
   ⟨0, by decide +kernel⟩,
   ⟨100000, by decide +kernel⟩⟩

theorem test_witness_TimeInstructions :
    (∃ (s : State) (p : Fin 18) (ps pd : Fin 8) (r : Fin 32) (td ta : Fin 4) (unit : Fin 5) (part : Fin 4) (imm : BitVec 8), ∃ q : Int, runs s p ps ∧ q = ((stampUnits (s.t p ta).val : Int) - stampUnits (s.t p td).val).tdiv (([1, 65536, 65536000, 65536000000, 65536000000000].getD unit.val 0) : Nat) ∧ -2 ^ 63 ≤ q ∧ q < 2 ^ 63) ∧
    (∃ (s : State) (p : Fin 18) (ps pd : Fin 8) (r : Fin 32) (td ta : Fin 4) (unit : Fin 5) (part : Fin 4) (imm : BitVec 8), ∃ q : Int, runs s p ps ∧ q = ((stampUnits (s.t p ta).val : Int) - stampUnits (s.t p td).val).tdiv (([1, 65536, 65536000, 65536000000, 65536000000000].getD unit.val 0) : Nat) ∧ q < -2 ^ 63) ∧
    (∃ (s : State) (p : Fin 18) (ps pd : Fin 8) (r : Fin 32) (td ta : Fin 4) (unit : Fin 5) (part : Fin 4) (imm : BitVec 8), ∃ q : Int, runs s p ps ∧ q = ((stampUnits (s.t p ta).val : Int) - stampUnits (s.t p td).val).tdiv (([1, 65536, 65536000, 65536000000, 65536000000000].getD unit.val 0) : Nat) ∧ 2 ^ 63 ≤ q) ∧
    (∃ (s : State) (p : Fin 18) (ps pd : Fin 8) (r : Fin 32) (td ta : Fin 4) (unit : Fin 5) (part : Fin 4) (imm : BitVec 8), runs s p ps ∧ (s.w p r).toNat ≤ [2 ^ 48 - 1, 999999999, 65535, 255].getD part.val 0 ∧ stampNs (s.t p td).val < 1000000000) ∧
    (∃ (s : State) (p : Fin 18) (ps pd : Fin 8) (r : Fin 32) (td ta : Fin 4) (unit : Fin 5) (part : Fin 4) (imm : BitVec 8), runs s p ps ∧ [2 ^ 48 - 1, 999999999, 65535, 255].getD part.val 0 < (s.w p r).toNat) ∧
    (∃ (s : State) (p : Fin 18) (ps pd : Fin 8) (r : Fin 32) (td ta : Fin 4) (unit : Fin 5) (part : Fin 4) (imm : BitVec 8), ∃ (c : Fin 4) (b : Bool), runs s p ps ∧ [decide ((s.t p ta).val.toNat < (s.t p td).val.toNat), decide ((s.t p td).val.toNat ≤ (s.t p ta).val.toNat), decide ((s.t p ta).val = (s.t p td).val), decide ((s.t p ta).tag = (s.t p td).tag)][c.val]? = some b) ∧
    (∃ (s : State) (p : Fin 18) (ps pd : Fin 8) (r : Fin 32) (td ta : Fin 4) (unit : Fin 5) (part : Fin 4) (imm : BitVec 8), ∃ a : Nat, runs s p ps ∧ a = lsAddr ((s.w p r) + BitVec.ofNat 64 (4 * imm.toNat)) ∧ a % 4 = 0) ∧
    (∃ (s : State) (p : Fin 18) (ps pd : Fin 8) (r : Fin 32) (td ta : Fin 4) (unit : Fin 5) (part : Fin 4) (imm : BitVec 8), ∃ a : Nat, runs s p ps ∧ a = lsAddr ((s.w p r) + BitVec.ofNat 64 (4 * imm.toNat)) ∧ a % 4 ≠ 0) ∧
    (∃ (s : State) (p : Fin 18) (ps pd : Fin 8) (r : Fin 32) (td ta : Fin 4) (unit : Fin 5) (part : Fin 4) (imm : BitVec 8), ∃ lon lat utc : Int, runs s p ps ∧ lon = ((s.w p r).extractLsb' 32 32).toInt ∧ lat = ((s.w p r).extractLsb' 0 32).toInt ∧ utc = (stampSec (s.t p ta).val : Int) - (s.r R.TIME_UTCOFF.reg).toInt ∧ lon.natAbs ≤ 1800000000 ∧ lat.natAbs ≤ 900000000 ∧ 946684800 ≤ utc ∧ utc < 7258118400) ∧
    (∃ (s : State) (p : Fin 18) (ps pd : Fin 8) (r : Fin 32) (td ta : Fin 4) (unit : Fin 5) (part : Fin 4) (imm : BitVec 8), ∃ lon lat utc : Int, runs s p ps ∧ lon = ((s.w p r).extractLsb' 32 32).toInt ∧ lat = ((s.w p r).extractLsb' 0 32).toInt ∧ utc = (stampSec (s.t p ta).val : Int) - (s.r R.TIME_UTCOFF.reg).toInt ∧ (1800000000 < lon.natAbs ∨ 900000000 < lat.natAbs ∨ utc < 946684800 ∨ 7258118400 ≤ utc)) :=
  ⟨⟨run0 0, 0, 0, 0, 5, 0, 1, 4, 0, 0, 0, by unfold runs; decide +kernel⟩,
   ⟨(run0 0).setT 0 0 ⟨BitVec.allOnes 96, 0⟩, 0, 0, 0, 5, 0, 1, 0, 0, 0, -(stampUnits (BitVec.allOnes 96) : Int), by unfold runs; decide +kernel⟩,
   ⟨(run0 0).setT 0 1 ⟨BitVec.allOnes 96, 0⟩, 0, 0, 0, 5, 0, 1, 0, 0, 0, stampUnits (BitVec.allOnes 96), by unfold runs; decide +kernel⟩,
   ⟨wreg (run0 0) 5 65535, 0, 0, 0, 5, 0, 1, 0, 2, 0, by unfold runs; decide +kernel⟩,
   ⟨wreg (run0 0) 5 256, 0, 0, 0, 5, 0, 1, 0, 3, 0, by unfold runs; decide +kernel⟩,
   ⟨run0 0, 0, 0, 0, 5, 0, 1, 0, 0, 0, 3, true, by unfold runs; decide +kernel⟩,
   ⟨run0 0, 0, 0, 0, 0, 0, 1, 0, 0, 255, 1020, by unfold runs; decide +kernel⟩,
   ⟨run0 0, 0, 0, 0, 4, 0, 1, 0, 0, 255, 1025, by unfold runs; decide +kernel⟩,
   ⟨(run0 0).setT 0 1 ⟨mkStamp 946684800 0 0, 0⟩, 0, 0, 0, 0, 0, 1, 0, 0, 0, 0, 0, 946684800, by unfold runs; decide +kernel⟩,
   ⟨(run0 0).setT 0 1 ⟨mkStamp 946684799 0 0, 0⟩, 0, 0, 0, 0, 0, 1, 0, 0, 0, 0, 0, 946684799, by unfold runs; decide +kernel⟩⟩

theorem test_witness_WaitResult :
    (∃ (s : State) (p : Fin 18) (ps pd : Fin 8) (ra rb : Fin 32), ∃ ev rest, runs s p ps ∧ (lsAddr (s.w p ra)) % 4 = 0 ∧ s.ilist (s.logicalOf p) = ev :: rest) ∧
    (∃ (s : State) (p : Fin 18) (ps pd : Fin 8) (ra rb : Fin 32), runs s p ps ∧ (lsAddr (s.w p ra)) % 4 = 0 ∧ s.ilist (s.logicalOf p) = [] ∧ ((s.w p rb).toNat % 2 ^ 32) = 0) ∧
    (∃ (s : State) (p : Fin 18) (ps pd : Fin 8) (ra rb : Fin 32), runs s p ps ∧ (lsAddr (s.w p ra)) % 4 = 0 ∧ s.ilist (s.logicalOf p) = [] ∧ ((s.w p rb).toNat % 2 ^ 32) ≠ 0) ∧
    (∃ (s : State) (p : Fin 18) (ps pd : Fin 8) (ra rb : Fin 32), runs s p ps ∧ (lsAddr (s.w p ra)) % 4 ≠ 0) ∧
    (∃ (s : State) (p : Fin 18) (pd a : Nat) (ev : IEvent) (rest : List IEvent), a < 0x40000 ∧ a % 4 = 0 ∧ pd ≠ 0) ∧
    (∃ (s : State) (p : Fin 18) (pd a : Nat) (ev : IEvent) (rest : List IEvent), ∃ k : Nat, a < 0x40000 ∧ a % 4 = 0 ∧ k < 8) ∧
    (∃ (s : State) (p pd : Nat), pd ≠ 0) ∧
    (∃ (s : State) (p : Fin 18) (pd a tmo : Nat), ∃ ev rest, (s.eng p).blocked = some (.wait pd a tmo) ∧ s.engState p = stWait ∧ s.fe.held = false ∧ s.ilist (s.logicalOf p) = ev :: rest) ∧
    (∃ (s : State) (p : Fin 18) (pd a tmo : Nat), (s.eng p).blocked = some (.wait pd a tmo) ∧ s.engState p = stWait ∧ s.fe.held = false ∧ s.ilist (s.logicalOf p) = [] ∧ tmo ≠ 0xFFFFFFFF) ∧
    (∃ (s : State) (p : Fin 18) (pd a tmo : Nat), (s.eng p).blocked = some (.wait pd a tmo) ∧ s.engState p = stWait ∧ s.fe.held = false ∧ tmo = 0xFFFFFFFF) :=
  ⟨⟨evs, 0, 0, 1, 0, 0, ev0, [], by unfold runs; decide +kernel⟩,
   ⟨run0 0, 0, 0, 1, 0, 0, by unfold runs; decide +kernel⟩,
   ⟨run0 0, 0, 0, 1, 0, 2, by unfold runs; decide +kernel⟩,
   ⟨run0 0, 0, 0, 1, 4, 0, by unfold runs; decide +kernel⟩,
   ⟨z, 0, 7, 0x3FFFC, ev0, [], by decide, by decide, by decide⟩,
   ⟨z, 0, 7, 0x3FFFC, ev0, [], 7, by decide +kernel⟩,
   ⟨z, 0, 7, by decide +kernel⟩,
   ⟨(waits 5).setIlist ((waits 5).logicalOf 0) [ev0], 0, 1, 0, 5, ev0, [], by decide +kernel⟩,
   ⟨waits 5, 0, 1, 0, 5, by decide +kernel⟩,
   ⟨waits 0xFFFFFFFF, 0, 1, 0, 0xFFFFFFFF, by decide +kernel⟩⟩

theorem test_witness_EmitAndDone :
    (∃ (s : State) (p : Fin 18) (ps pd : Fin 8) (rb ra : Fin 32) (ec tr : Fin 4), runs s p ps ∧ (lsAddr (s.w p ra)) % 4 = 0 ∧ s.ep (curIdx (s.e p ec)) EP.GEN = curGen (s.e p ec) ∧ s.epValid (curIdx (s.e p ec)) = true ∧ descBad (descOf (s.lsW p (lsAddr (s.w p ra))) (s.lsW p ((lsAddr (s.w p ra)) + 4)) (s.lsW p ((lsAddr (s.w p ra)) + 8)) (s.lsW p ((lsAddr (s.w p ra)) + 12))) (s.ep (curIdx (s.e p ec)) EP.PATH) (s.ep (curIdx (s.e p ec)) EP.TYPE) = true) ∧
    (∃ (s : State) (p : Fin 18) (ps pd : Fin 8) (rb ra : Fin 32) (ec tr : Fin 4), ∃ n : Nat, runs s p ps ∧ (lsAddr (s.w p ra)) % 4 = 0 ∧ s.ep (curIdx (s.e p ec)) EP.GEN = curGen (s.e p ec) ∧ s.epValid (curIdx (s.e p ec)) = true ∧ descBad (descOf (s.lsW p (lsAddr (s.w p ra))) (s.lsW p ((lsAddr (s.w p ra)) + 4)) (s.lsW p ((lsAddr (s.w p ra)) + 8)) (s.lsW p ((lsAddr (s.w p ra)) + 12))) (s.ep (curIdx (s.e p ec)) EP.PATH) (s.ep (curIdx (s.e p ec)) EP.TYPE) = false ∧ s.fenced = false ∧ ((descOf (s.lsW p (lsAddr (s.w p ra))) (s.lsW p ((lsAddr (s.w p ra)) + 4)) (s.lsW p ((lsAddr (s.w p ra)) + 8)) (s.lsW p ((lsAddr (s.w p ra)) + 12))).immediate = true ∨ s.tooFar ((s.t p tr).val) = false) ∧ s.calUsed < 131072 ∧ s.allocTest (.engine (s.logicalOf p)) = .slot n) ∧
    (∃ (s : State) (p : Fin 18) (ps pd : Fin 8) (rb ra : Fin 32) (ec tr : Fin 4), ∃ (r : Refused) (code : Nat), runs s p ps ∧ (lsAddr (s.w p ra)) % 4 = 0 ∧ s.ep (curIdx (s.e p ec)) EP.GEN = curGen (s.e p ec) ∧ s.epValid (curIdx (s.e p ec)) = true ∧ descBad (descOf (s.lsW p (lsAddr (s.w p ra))) (s.lsW p ((lsAddr (s.w p ra)) + 4)) (s.lsW p ((lsAddr (s.w p ra)) + 8)) (s.lsW p ((lsAddr (s.w p ra)) + 12))) (s.ep (curIdx (s.e p ec)) EP.PATH) (s.ep (curIdx (s.e p ec)) EP.TYPE) = false ∧ (r, code) ∈ [(Refused.fenced, 4), (.far, 1), (.calFull, 2), (.quota, 3), (.noHandle, 3)] ∧ s.place (.engine (s.logicalOf p)) (curIdx (s.e p ec)) (if (descOf (s.lsW p (lsAddr (s.w p ra))) (s.lsW p ((lsAddr (s.w p ra)) + 4)) (s.lsW p ((lsAddr (s.w p ra)) + 8)) (s.lsW p ((lsAddr (s.w p ra)) + 12))).code = 0x01 then s.clampLevel (curIdx (s.e p ec)) (descOf (s.lsW p (lsAddr (s.w p ra))) (s.lsW p ((lsAddr (s.w p ra)) + 4)) (s.lsW p ((lsAddr (s.w p ra)) + 8)) (s.lsW p ((lsAddr (s.w p ra)) + 12))).level else (descOf (s.lsW p (lsAddr (s.w p ra))) (s.lsW p ((lsAddr (s.w p ra)) + 4)) (s.lsW p ((lsAddr (s.w p ra)) + 8)) (s.lsW p ((lsAddr (s.w p ra)) + 12))).level) (descOf (s.lsW p (lsAddr (s.w p ra))) (s.lsW p ((lsAddr (s.w p ra)) + 4)) (s.lsW p ((lsAddr (s.w p ra)) + 8)) (s.lsW p ((lsAddr (s.w p ra)) + 12))) (s.fbytes (0x2000000 + (s.logicalOf p) * 0x80000 + 16 * (descOf (s.lsW p (lsAddr (s.w p ra))) (s.lsW p ((lsAddr (s.w p ra)) + 4)) (s.lsW p ((lsAddr (s.w p ra)) + 8)) (s.lsW p ((lsAddr (s.w p ra)) + 12))).poff) (descOf (s.lsW p (lsAddr (s.w p ra))) (s.lsW p ((lsAddr (s.w p ra)) + 4)) (s.lsW p ((lsAddr (s.w p ra)) + 8)) (s.lsW p ((lsAddr (s.w p ra)) + 12))).plen) ((s.t p tr).val) = .inl r) ∧
    (∃ (s : State) (o : Owner) (i level : Nat) (d : Desc) (payload : List Byte) (t : Stamp), s.fenced = true) ∧
    (∃ (s : State) (o : Owner) (i level : Nat) (d : Desc) (payload : List Byte) (t : Stamp), s.fenced = false ∧ (!d.immediate && s.tooFar t) = true) ∧
    (∃ (s : State) (o : Owner) (i level : Nat) (d : Desc) (payload : List Byte) (t : Stamp), s.fenced = false ∧ (!d.immediate && s.tooFar t) = false ∧ 131072 ≤ s.calUsed) ∧
    (∃ (s : State) (o : Owner) (i level : Nat) (d : Desc) (payload : List Byte) (t : Stamp), s.fenced = false ∧ (!d.immediate && s.tooFar t) = false ∧ s.calUsed < 131072 ∧ s.allocTest o = .quota) ∧
    (∃ (s : State) (o : Owner) (i level : Nat) (d : Desc) (payload : List Byte) (t : Stamp), s.fenced = false ∧ (!d.immediate && s.tooFar t) = false ∧ s.calUsed < 131072 ∧ s.allocTest o = .noHandle) ∧
    (∃ (s : State) (o : Owner) (n i level : Nat) (d : Desc) (payload : List Byte) (t : Stamp), n < 131072 ∧ i < 131072 ∧ level < 1024 ∧ d.code = 0x01) ∧
    (∃ (s : State) (o : Owner) (n i level : Nat) (d : Desc) (payload : List Byte) (t : Stamp), ∃ m : Nat, n < 131072 ∧ i < 131072 ∧ level < 1024 ∧ m ≠ n) ∧
    (∃ (s : State) (p : Fin 18) (ps pd : Fin 8) (ra rb : Fin 32), runs s p ps ∧ (s.w p rb).toNat / 65536 % 65536 = 0 ∧ s.handleOpen ((s.w p ra).setWidth 32) = true ∧ (s.hslot (slotOf ((s.w p ra).setWidth 32))).live = true ∧ (s.hslot (slotOf ((s.w p ra).setWidth 32))).isField = true ∧ (s.hslot (slotOf ((s.w p ra).setWidth 32))).hold = true ∧ (s.hslot (slotOf ((s.w p ra).setWidth 32))).owner = .engine (s.logicalOf p)) ∧
    (∃ (s : State) (p : Fin 18) (ps pd : Fin 8) (ra rb : Fin 32), runs s p ps ∧ (s.w p rb).toNat / 65536 % 65536 = 0 ∧ (s.handleOpen ((s.w p ra).setWidth 32) = false ∨ (s.hslot (slotOf ((s.w p ra).setWidth 32))).live = false ∨ (s.hslot (slotOf ((s.w p ra).setWidth 32))).isField = false ∨ (s.hslot (slotOf ((s.w p ra).setWidth 32))).hold = false ∨ (s.hslot (slotOf ((s.w p ra).setWidth 32))).owner ≠ .engine (s.logicalOf p))) :=
  ⟨⟨rec0, 0, 0, 1, 5, 0, 3, 0, by unfold runs; decide +kernel⟩,
   ⟨emits, 0, 0, 1, 5, 0, 3, 0, 0, by unfold runs; decide +kernel⟩,
   ⟨emits.setRole roleFenced, 0, 0, 1, 5, 0, 3, 0, .fenced, 4, by unfold runs; decide +kernel, by decide +kernel, by decide +kernel, by decide +kernel, by decide +kernel, by decide, rfl⟩,
   ⟨z.setRole roleFenced, .module, 0, 0, desc0, [], 0, by decide +kernel⟩,
   ⟨z, .module, 0, 0, { desc0 with immediate := false }, [], mkStamp 0 300000000 1, by decide +kernel⟩,
   ⟨calFull, .module, 0, 0, desc0, [], 0, by decide +kernel, by decide +kernel, Nat.le_of_eq calFull_used.symm⟩,
   ⟨z, .firmware, 0, 0, desc0, [], 0, by decide +kernel⟩,
   ⟨{ z with hnd := { z.hnd with freshFrom := 131072 } }, .module, 0, 0, desc0, [], 0, by decide +kernel⟩,
   ⟨z, .module, 131071, 131071, 1023, desc0, [], 0, by decide +kernel⟩,
   ⟨z, .module, 131071, 131071, 1023, desc0, [], 0, 0, by decide +kernel⟩,
   ⟨slot1 { Handle.fresh with st := .held, isField := true, hold := true, owner := .engine ((run0 0).logicalOf 0) }, 0, 0, 1, 5, 0, by unfold runs; decide +kernel⟩,
   ⟨run0 0, 0, 0, 1, 5, 0, by unfold runs; decide +kernel⟩⟩

theorem test_witness_SheafInstructions :
    (∃ (s : State) (p : Fin 18) (ps pd : Fin 8) (ra rb : Fin 32) (tr : Fin 4), ∃ c, runs s p ps ∧ ((s.w p rb).toNat) < 2 ^ 34 ∧ s.ctxOfEngine (s.logicalOf p) = some c) ∧
    (∃ (s : State) (p : Fin 18) (ps pd : Fin 8) (ra rb : Fin 32) (tr : Fin 4), ∃ c, runs s p ps ∧ ((s.w p rb).toNat) < 2 ^ 34 ∧ s.ctxOfEngine (s.logicalOf p) = none ∧ s.freeCtx = some c) ∧
    (∃ (s : State) (p : Fin 18) (ps pd : Fin 8) (ra rb : Fin 32) (tr : Fin 4), runs s p ps ∧ ((s.w p rb).toNat) < 2 ^ 34 ∧ s.ctxOfEngine (s.logicalOf p) = none ∧ s.freeCtx = none) ∧
    (∃ (s : State) (p : Fin 18) (ps pd : Fin 8) (ra rb : Fin 32) (tr : Fin 4), runs s p ps ∧ 2 ^ 34 ≤ ((s.w p rb).toNat)) ∧
    (∃ (s : State) (p : Fin 18) (ps pd : Fin 8) (ra rb : Fin 32) (tr : Fin 4), runs s p ps ∧ s.ctxOfEngine (s.logicalOf p) = none ∧ ((s.w p ra).toNat) < 2) ∧
    (∃ (s : State) (p : Fin 18) (ps pd : Fin 8) (ra rb : Fin 32) (tr : Fin 4), ∃ c, runs s p ps ∧ s.ctxOfEngine (s.logicalOf p) = some c ∧ (s.ctx c).owner = some (.engine (s.logicalOf p)) ∧ ((s.w p ra).toNat) = 0 ∧ (s.ctx c).st = .checked ∧ s.svc.act ≠ 3 ∧ (s.ctx c).checkedAt = s.shf.commits ∧ s.committing = false) ∧
    (∃ (s : State) (p : Fin 18) (ps pd : Fin 8) (ra rb : Fin 32) (tr : Fin 4), ∃ c, runs s p ps ∧ s.ctxOfEngine (s.logicalOf p) = some c ∧ (s.ctx c).owner = some (.engine (s.logicalOf p)) ∧ ((s.w p ra).toNat) < 2 ∧ (s.ctx c).st = .opened) ∧
    (∃ (s : State) (p : Fin 18) (ps pd : Fin 8) (ra rb : Fin 32) (tr : Fin 4), ∃ c, runs s p ps ∧ s.ctxOfEngine (s.logicalOf p) = some c ∧ (s.ctx c).owner = some (.engine (s.logicalOf p)) ∧ ((s.ctx c).st = .opened ∨ (s.ctx c).st = .checked ∨ (s.ctx c).st = .failed)) ∧
    (∃ (s : State) (p : Fin 18) (ps pd : Fin 8) (ra rb : Fin 32) (tr : Fin 4), runs s p ps ∧ 2 ≤ ((s.w p ra).toNat)) :=
  ⟨⟨ectx .opened, 0, 0, 1, 0, 0, 0, 0, by unfold runs; decide +kernel⟩,
   ⟨wreg (run0 0) 5 (2 ^ 34 - 1), 0, 0, 1, 0, 5, 0, 0, by unfold runs; decide +kernel⟩,
   ⟨foldS (List.range 8) (fun c s => s.setCtx c (fw .opened)) (run0 0), 0, 0, 1, 0, 0, 0, by unfold runs; decide +kernel⟩,
   ⟨wreg (run0 0) 5 (2 ^ 34), 0, 0, 1, 0, 5, 0, by unfold runs; decide +kernel⟩,
   ⟨wreg (run0 0) 5 1, 0, 0, 1, 5, 5, 0, by unfold runs; decide +kernel⟩,
   ⟨ectx .checked, 0, 0, 1, 0, 0, 0, 0, by unfold runs; decide +kernel⟩,
   ⟨wreg (ectx .opened) 5 1, 0, 0, 1, 5, 0, 0, 0, by unfold runs; decide +kernel⟩,
   ⟨ectx .failed, 0, 0, 1, 5, 0, 0, 0, by unfold runs; decide +kernel⟩,
   ⟨wreg (run0 0) 5 2, 0, 0, 1, 5, 0, 0, by unfold runs; decide +kernel⟩⟩

theorem test_witness_SystemInstructions :
    (∃ (s : State) (p : Fin 18) (ps : Fin 8) (r n : Fin 32), ∃ (k : Nat) (x : DWord), runs s p ps ∧ (k, x) ∈ [(0, BitVec.ofNat 64 (p.val * 256 + s.logicalOf p % 16)), (1, BitVec.ofNat 64 s.stepEpoch), (2, BitVec.ofNat 64 s.epoch), (3, (s.r R.TIME_UTCOFF.reg).setWidth 64), (4, (s.r R.FE_SHF_SEQ.reg).setWidth 64), (5, (s.eng p).s5), (6, (s.eng p).s6), (7, (s.eng p).s7), (8, (s.eng p).s8), (9, (s.eng p).tokens), (10, (s.eng p).insns), (12, (s.eng p).s12), (13, (s.eng p).s13), (14, (s.eng p).s14), (15, BitVec.ofNat 64 (s.f R.DIO_IN.IN))] ∧ n.val = k) ∧
    (∃ (s : State) (p : Fin 18) (ps : Fin 8) (r n : Fin 32), runs s p ps ∧ n.val = 11 ∧ s.on R.KEY_STATUS.ENTROPY_OK = false) ∧
    (∃ (s : State) (p : Fin 18) (ps : Fin 8) (r n : Fin 32), runs s p ps ∧ n.val = 11 ∧ s.on R.KEY_STATUS.ENTROPY_OK = true) ∧
    (∃ (s : State) (p : Fin 18) (ps : Fin 8) (r n : Fin 32), runs s p ps ∧ 15 < n.val) ∧
    (∃ (s : State) (p : Fin 18) (ps : Fin 8) (r n : Fin 32), runs s p ps ∧ n.val = 12) ∧
    (∃ (s : State) (p : Fin 18) (ps : Fin 8) (r n : Fin 32), runs s p ps ∧ n.val = 13) ∧
    (∃ (s : State) (p : Fin 18) (ps : Fin 8) (r n : Fin 32), runs s p ps ∧ n.val ≠ 12 ∧ n.val ≠ 13) :=
  ⟨⟨run0 0, 0, 0, 5, 15, 15, 0, by unfold runs; decide +kernel⟩,
   ⟨run0 0, 0, 0, 5, 11, by unfold runs; decide +kernel⟩,
   ⟨(run0 0).setF R.KEY_STATUS.ENTROPY_OK 1, 0, 0, 5, 11, by unfold runs; decide +kernel⟩,
   ⟨run0 0, 0, 0, 5, 16, by unfold runs; decide +kernel⟩,
   ⟨run0 0, 0, 0, 5, 12, by unfold runs; decide +kernel⟩,
   ⟨run0 0, 0, 0, 5, 13, by unfold runs; decide +kernel⟩,
   ⟨run0 0, 0, 0, 5, 11, by unfold runs; decide +kernel⟩⟩

theorem test_witness_HandleEnd :
    (∃ (s : State) (i : Fin 131072) (h : Handle), ∃ j : Nat, s.hslot i = h ∧ h.st = .awaiting ∧ h.ep < 131072 ∧ j ≠ i.val) ∧
    (∃ (s : State) (i : Fin 131072) (n : Nat), (s.hslot i).st = .completing ∧ (s.hslot i).owner = .session n ∧ (s.sess n).isOpen = true ∧ s.cplFirst i n = true ∧ s.quLevel (.cpl n) < 4096) ∧
    (∃ (s : State) (i : Fin 131072) (n : Nat), (s.hslot i).st = .completing ∧ (s.hslot i).owner = .session n ∧ (s.sess n).isOpen = true ∧ (s.cplFirst i n = false ∨ 4096 ≤ s.quLevel (.cpl n))) ∧
    (∃ (s : State) (i : Fin 131072) (n : Nat), (s.hslot i).st = .completing ∧ (s.hslot i).owner = .session n ∧ (s.sess n).isOpen = false) ∧
    (∃ (s : State) (i : Fin 131072) (l : Nat), (s.hslot i).st = .completing ∧ (s.hslot i).owner = .engine l ∧ (s.hslot i).status = 0) ∧
    (∃ (s : State) (i : Fin 131072) (l : Nat), (s.hslot i).st = .completing ∧ (s.hslot i).owner = .engine l ∧ (s.hslot i).status ≠ 0) ∧
    (∃ (s : State) (i : Fin 131072), (s.hslot i).st = .completing ∧ (s.hslot i).owner = .firmware) ∧
    (∃ (s : State) (i : Fin 131072), (s.hslot i).st = .completing ∧ (s.hslot i).owner = .module ∧ s.stormState ≠ stormRecovering) ∧
    (∃ (s : State) (i : Nat), (s.hslot i).ep < 131072 ∧ (s.hslot i).gen < 32768 ∧ (s.hslot i).isField = true ∧ s.ep (s.hslot i).ep EP.HANDLE = (s.handleAt i).toNat) ∧
    (∃ (s : State) (i : Nat), ∃ j, (s.hslot i).ep < 131072 ∧ (s.hslot i).gen < 32768 ∧ j ≠ i) :=
  ⟨⟨slotS { Handle.fresh with st := .awaiting, ep := 131071 }, 131071, { Handle.fresh with st := .awaiting, ep := 131071 }, 0, by decide +kernel⟩,
   ⟨(withSess (slotS (cpl (.session 0)))), 131071, 0, by decide +kernel⟩,
   ⟨(withSess ((slotS (cpl (.session 0))).setHslot 0 { cpl (.session 0) with order := 1 })), 0, 0, by decide +kernel⟩,
   ⟨slotS (cpl (.session 15)), 131071, 15, by decide +kernel⟩,
   ⟨slotS (cpl (.engine 15)), 131071, 15, by decide +kernel⟩,
   ⟨slotS { cpl (.engine 15) with status := 1 }, 131071, 15, by decide +kernel⟩,
   ⟨slotS (cpl .firmware), 131071, by decide +kernel⟩,
   ⟨slotS (cpl .module), 131071, by decide +kernel⟩,
   ⟨(slotS { Handle.fresh with st := .completing, gen := 32767, ep := 131071, isField := true }).setEp 131071 EP.HANDLE (handleWord 131071 32767).toNat, 131071, by decide +kernel⟩,
   ⟨z, 131071, 0, by decide +kernel⟩⟩

theorem test_witness_SessionCommands :
    (∃ (s : State) (via : Access) (h : Handshake), s.fcpReached via = true) ∧
    (∃ (s : State) (via : Access) (port : BitVec 16) (h : Handshake), (s.fcpReached via = false ∨ port ≠ 7460)) ∧
    (∃ (s : State) (n : Fin 256) (v : BitVec 12), s.fcpReached (.port n v) = true ∧ s.power.step = 5) ∧
    (∃ (s : State) (n : Fin 16), (s.sess n).isOpen = true) ∧
    (∃ (s : State) (h : Handshake) (c : List Byte × List Byte), h.cert = some c) ∧
    (∃ (s : State) (c : Nat) (mask : Word) (r : Bool), ∃ n : Nat, s.fcp.conns[c]? = some r ∧ s.freeSession = some n) ∧
    (∃ (s : State) (c : Nat) (mask : Word) (r : Bool), s.fcp.conns[c]? = some r ∧ s.freeSession = none) ∧
    (∃ (s : State) (n : Fin 16), (s.sess n).isOpen = true ∧ (s.sess n).pinged = false) ∧
    (∃ (s : State) (n : Fin 16), (s.sess n).isOpen = true ∧ (s.sess n).pinged = true) ∧
    (∃ (s : State) (n : Fin 16), ∃ (k : Fin 1025), (s.sess n).isOpen = true ∧ (s.sess n).evLost ≠ 0 ∧ (s.sess n).undelivered - k.val < 1024) ∧
    (∃ (s : State) (n : Fin 16), (s.sess n).closing = true ∧ s.sessHandles n = 0) :=
  ⟨⟨(atStep 5).setF R.SVC_MAC_STATUS.LINK 1, .service, hs none, by decide +kernel⟩,
   ⟨z, .service, 7460, hs none, by decide +kernel⟩,
   ⟨(({ pup 255 with power := { z.power with step := 5 } }).setF (R.PORT_CFG.ROLE 255) prUplink).setF R.FAB_MGMT_VLAN.VID 4094, 255, 4094, by decide +kernel⟩,
   ⟨sess true false, 0, by decide +kernel⟩,
   ⟨z, hs (some ([], [])), ([], []), by decide +kernel⟩,
   ⟨{ z with fcp := { z.fcp with conns := [true] } }, 0, 0x3F, true, 0, by decide +kernel⟩,
   ⟨foldS (List.range 16) (fun n s => s.setSess n { Session.none with isOpen := true }) { z with fcp := { z.fcp with conns := [true] } }, 0, 0x3F, true, by decide +kernel⟩,
   ⟨sess true false, 0, by decide +kernel⟩,
   ⟨z.setSess 15 { Session.none with isOpen := true, pinged := true }, 15, by decide +kernel⟩,
   ⟨z.setSess 15 { Session.none with isOpen := true, evLost := 1, undelivered := 1024 }, 15, 1, by decide +kernel⟩,
   ⟨z.setSess 15 { Session.none with closing := true }, 15, by decide +kernel⟩⟩

theorem test_witness_RequestCommands :
    (∃ (s : State) (n : Fin 16) (tag : Word) (i : Nat), ∃ (a : DWord) (c : Word), s.allocTest (.session n) = .slot i ∧ mayAsk s n false false ∧ 1 ≤ c.toNat ∧ c.toNat ≤ 256 ∧ 0x10000000 ≤ a.toNat ∧ a.toNat + 4 * c.toNat ≤ 0x100000000) ∧
    (∃ (s : State) (n : Fin 16) (tag : Word) (i : Nat), ∃ off len : Word, s.allocTest (.session n) = .slot i ∧ mayAsk s n false false ∧ off.toNat % 4 = 0 ∧ len.toNat % 4 = 0 ∧ 0 < len.toNat ∧ len.toNat ≤ 65536 ∧ off.toNat + len.toNat ≤ 0x4000000) ∧
    (∃ (s : State) (n : Fin 16) (tag : Word) (i : Nat), ∃ (h : Word) (st : HSt) (c : Nat), s.allocTest (.session n) = .slot i ∧ mayAsk s n false false ∧ (st, c) ∈ [(HSt.placed, 1), (.awaiting, 2), (.held, 3), (.completing, 4)] ∧ s.handleOpen h = true ∧ (s.hslot (slotOf h)).st = st) ∧
    (∃ (s : State) (n : Fin 16) (tag : Word) (i : Nat), ∃ m : Word, s.allocTest (.session n) = .slot i ∧ mayAsk s n false false ∧ m.toNat < 64) ∧
    (∃ (s : State) (n : Fin 16) (tag : Word) (i : Nat), ∃ m q : Word, s.allocTest (.session n) = .slot i ∧ mayAsk s n true false ∧ m.toNat < 16 ∧ q.toNat ≤ 131072) ∧
    (∃ (s : State) (n : Fin 16) (tag : Word) (i : Nat), ∃ l kind p5 p6 p7 : Word, s.allocTest (.session n) = .slot i ∧ mayAsk s n true true ∧ l.toNat < 16 ∧ 0x80 ≤ kind.toNat ∧ kind.toNat ≤ 0xFF) ∧
    (∃ (s : State) (n : Fin 16) (tag : Word), mayAsk s n false false ∧ s.allocTest (.session n) = .quota) ∧
    (∃ (s : State) (n : Fin 16) (tag : Word), mayAsk s n false false ∧ s.allocTest (.session n) = .noHandle) ∧
    (∃ (s : State) (n : Fin 16) (tag : Word), ∃ a c : Word, mayAsk s n false false ∧ 1 ≤ c.toNat ∧ c.toNat ≤ 256 ∧ a.toNat < 0x10000000) ∧
    (∃ (s : State) (n : Fin 16) (tag : Word), ∃ h : Word, mayAsk s n false false ∧ s.handleOpen h = false) ∧
    (∃ (s : State) (n : Fin 16) (tag : Word), mayAsk s n false false ∧ (s.sess n).control = false) ∧
    (∃ (s : State) (n : Fin 16) (tag : Word), mayAsk s n false false ∧ (s.sess n).control = true ∧ (s.role = roleStandby ∨ s.role = roleClaiming)) ∧
    (∃ (s : State) (n : Fin 16) (tag : Word), mayAsk s n false false ∧ (s.sess n).control = true ∧ s.role = roleFenced) :=
  ⟨⟨sess false false, 0, 0, 0, 0x10000000, 256, by unfold mayAsk; decide +kernel⟩,
   ⟨sess false false, 0, 0, 0, 0x3FF0000, 65536, by unfold mayAsk; decide +kernel⟩,
   ⟨(sess false false).setHslot 131071 (cpl .firmware), 0, 0, 0, ((sess false false).setHslot 131071 (cpl .firmware)).handleAt 131071, .completing, 4, by unfold mayAsk; decide +kernel⟩,
   ⟨sess false false, 0, 0, 0, 63, by unfold mayAsk; decide +kernel⟩,
   ⟨sess true false, 0, 0, 0, 15, 131072, by unfold mayAsk; decide +kernel⟩,
   ⟨sess true false, 0, 0, 0, 15, 0xFF, 0, 0, 0, by unfold mayAsk; decide +kernel⟩,
   ⟨(sess true false).setF (R.HND_SESS_QUOTA.QUOTA 0) 0, 0, 0, by unfold mayAsk; decide +kernel⟩,
   ⟨withSess { z with hnd := { z.hnd with freshFrom := 131072 } }, 0, 0, by unfold mayAsk; decide +kernel⟩,
   ⟨sess true false, 0, 0, 0x0FFFFFFF, 256, by unfold mayAsk; decide +kernel⟩,
   ⟨sess true false, 0, 0, 0, by unfold mayAsk; decide +kernel⟩,
   ⟨sess false false, 0, 0, by unfold mayAsk; decide +kernel⟩,
   ⟨withSess (z.setRole roleClaiming), 0, 0, by unfold mayAsk; decide +kernel⟩,
   ⟨withSess (z.setRole roleFenced), 0, 0, by unfold mayAsk; decide +kernel⟩⟩

theorem test_witness_SheafAndFieldRequests :
    (∃ (s : State) (n : Fin 16) (tag : Word) (i : Nat), ∃ c, s.allocTest (.session n) = .slot i ∧ mayAsk s n true false ∧ s.ctxOfSession n = none ∧ s.freeCtx = some c) ∧
    (∃ (s : State) (n : Fin 16) (tag : Word) (i : Nat), s.allocTest (.session n) = .slot i ∧ mayAsk s n true false ∧ s.ctxOfSession n = none ∧ s.freeCtx = none) ∧
    (∃ (s : State) (n : Fin 16) (tag : Word) (i : Nat), ∃ es : List ShfEntry, s.allocTest (.session n) = .slot i ∧ mayAsk s n true false ∧ s.ctxOfSession n = none ∧ 0 < es.length ∧ es.length ≤ 4096) ∧
    (∃ (s : State) (n : Fin 16) (tag : Word) (i : Nat), ∃ c, s.allocTest (.session n) = .slot i ∧ mayAsk s n true false ∧ s.ctxOfSession n = some c ∧ (s.ctx c).owner = some .firmware ∧ (s.ctx c).st = .failed) ∧
    (∃ (s : State) (n : Fin 16) (tag : Word) (i : Nat), ∃ c, s.allocTest (.session n) = .slot i ∧ mayAsk s n true false ∧ s.ctxOfSession n = some c ∧ (s.ctx c).owner = some .firmware ∧ ((s.ctx c).st = .opened ∨ (s.ctx c).st = .checked) ∧ s.shfUsed < shfPool) ∧
    (∃ (s : State) (n : Fin 16) (tag : Word) (i : Nat), ∃ c, s.allocTest (.session n) = .slot i ∧ mayAsk s n true false ∧ s.ctxOfSession n = some c ∧ (s.ctx c).owner = some .firmware ∧ (s.ctx c).st = .opened) ∧
    (∃ (s : State) (n : Fin 16) (tag : Word) (i : Nat), ∃ c, s.allocTest (.session n) = .slot i ∧ mayAsk s n true false ∧ s.ctxOfSession n = some c ∧ (s.ctx c).owner = some .firmware ∧ (s.ctx c).st = .checked ∧ s.svc.act ≠ 3 ∧ (s.ctx c).checkedAt = s.shf.commits ∧ s.committing = false) ∧
    (∃ (s : State) (n : Fin 16) (tag : Word) (i : Nat), ∃ c, s.allocTest (.session n) = .slot i ∧ mayAsk s n true false ∧ s.ctxOfSession n = some c ∧ (s.ctx c).owner = some .firmware ∧ ((s.ctx c).st = .opened ∨ (s.ctx c).st = .checked ∨ (s.ctx c).st = .failed)) ∧
    (∃ (s : State) (n : Fin 16) (tag cursor d0 d1 d2 d3 : Word) (t : Stamp) (data : List Byte), mayAsk s n true true ∧ ¬ (getBits cursor 25 7 = 0 ∧ s.ep (getBits cursor 0 17) EP.GEN = getBits cursor 17 8 ∧ s.epValid (getBits cursor 0 17) = true)) ∧
    (∃ (s : State) (n : Fin 16) (tag cursor d0 d1 d2 d3 : Word) (t : Stamp) (data : List Byte), mayAsk s n true true ∧ (getBits cursor 25 7 = 0 ∧ s.ep (getBits cursor 0 17) EP.GEN = getBits cursor 17 8 ∧ s.epValid (getBits cursor 0 17) = true) ∧ (fieldCode (descOf d0 d1 d2 d3).code = false ∨ (descOf d0 d1 d2 d3).hold = true)) ∧
    (∃ (s : State) (n : Fin 16) (tag cursor d0 d1 d2 d3 : Word) (t : Stamp) (data : List Byte), mayAsk s n true true ∧ (getBits cursor 25 7 = 0 ∧ s.ep (getBits cursor 0 17) EP.GEN = getBits cursor 17 8 ∧ s.epValid (getBits cursor 0 17) = true) ∧ fieldCode (descOf d0 d1 d2 d3).code = true ∧ (descOf d0 d1 d2 d3).hold = false ∧ ((descOf d0 d1 d2 d3).reserved = true ∨ data.length ≠ (descOf d0 d1 d2 d3).plen ∨ payloadLimit (s.ep (getBits cursor 0 17) EP.PATH) < (descOf d0 d1 d2 d3).plen)) ∧
    (∃ (s : State) (n : Fin 16) (tag cursor d0 d1 d2 d3 : Word) (t : Stamp) (data : List Byte), ∃ h : Nat, mayAsk s n true true ∧ ((getBits cursor 25 7 = 0 ∧ s.ep (getBits cursor 0 17) EP.GEN = getBits cursor 17 8 ∧ s.epValid (getBits cursor 0 17) = true) ∧ fieldCode (descOf d0 d1 d2 d3).code = true ∧ (descOf d0 d1 d2 d3).hold = false ∧ (descOf d0 d1 d2 d3).reserved = false ∧ data.length = (descOf d0 d1 d2 d3).plen ∧ (descOf d0 d1 d2 d3).plen ≤ payloadLimit (s.ep (getBits cursor 0 17) EP.PATH) ∧ codePermitted (descOf d0 d1 d2 d3).code (s.ep (getBits cursor 0 17) EP.PATH) (s.ep (getBits cursor 0 17) EP.TYPE) = true) ∧ s.ident.code = .mx ∧ (s.ep (getBits cursor 0 17) EP.PATH) = 1 ∧ s.allocTest (.session n) = .slot h) ∧
    (∃ (s : State) (n : Fin 16) (tag cursor d0 d1 d2 d3 : Word) (t : Stamp) (data : List Byte), ∃ h : Nat, mayAsk s n true true ∧ ((getBits cursor 25 7 = 0 ∧ s.ep (getBits cursor 0 17) EP.GEN = getBits cursor 17 8 ∧ s.epValid (getBits cursor 0 17) = true) ∧ fieldCode (descOf d0 d1 d2 d3).code = true ∧ (descOf d0 d1 d2 d3).hold = false ∧ (descOf d0 d1 d2 d3).reserved = false ∧ data.length = (descOf d0 d1 d2 d3).plen ∧ (descOf d0 d1 d2 d3).plen ≤ payloadLimit (s.ep (getBits cursor 0 17) EP.PATH) ∧ codePermitted (descOf d0 d1 d2 d3).code (s.ep (getBits cursor 0 17) EP.PATH) (s.ep (getBits cursor 0 17) EP.TYPE) = true) ∧ (s.ident.code ≠ .mx ∨ (s.ep (getBits cursor 0 17) EP.PATH) ≠ 1) ∧ ((descOf d0 d1 d2 d3).immediate = true ∨ s.tooFar t = false) ∧ s.calUsed < 131072 ∧ s.allocTest (.session n) = .slot h) ∧
    (∃ (s : State) (n : Fin 16) (tag cursor d0 d1 d2 d3 : Word) (t : Stamp) (data : List Byte), ∃ r : Refused, mayAsk s n true true ∧ ((getBits cursor 25 7 = 0 ∧ s.ep (getBits cursor 0 17) EP.GEN = getBits cursor 17 8 ∧ s.epValid (getBits cursor 0 17) = true) ∧ fieldCode (descOf d0 d1 d2 d3).code = true ∧ (descOf d0 d1 d2 d3).hold = false ∧ (descOf d0 d1 d2 d3).reserved = false ∧ data.length = (descOf d0 d1 d2 d3).plen ∧ (descOf d0 d1 d2 d3).plen ≤ payloadLimit (s.ep (getBits cursor 0 17) EP.PATH) ∧ codePermitted (descOf d0 d1 d2 d3).code (s.ep (getBits cursor 0 17) EP.PATH) (s.ep (getBits cursor 0 17) EP.TYPE) = true) ∧ (s.ident.code ≠ .mx ∨ (s.ep (getBits cursor 0 17) EP.PATH) ≠ 1) ∧ s.place (.session n) (getBits cursor 0 17) (descOf d0 d1 d2 d3).level (descOf d0 d1 d2 d3) data t = .inl r) ∧
    (∃ (s : State) (n : Fin 16) (c t : Word), (s.sess n).isOpen = true ∧ (s.sess n).version1 = true) :=
  ⟨⟨sess true false, 0, 0, 0, 0, by unfold mayAsk; decide +kernel⟩,
   ⟨withSess (foldS (List.range 8) (fun c s => s.setCtx c (fw .opened)) z), 0, 0, 0, by unfold mayAsk; decide +kernel⟩,
   ⟨sess true false, 0, 0, 0, [⟨0, 0, 0, 0⟩], by unfold mayAsk; decide +kernel⟩,
   ⟨sctx .failed, 0, 0, 0, 0, by unfold mayAsk; decide +kernel⟩,
   ⟨sctx .checked, 0, 0, 0, 0, by unfold mayAsk; decide +kernel⟩,
   ⟨sctx .opened, 0, 0, 0, 0, by unfold mayAsk; decide +kernel⟩,
   ⟨sctx .checked, 0, 0, 0, 0, by unfold mayAsk; decide +kernel⟩,
   ⟨sctx .failed, 0, 0, 0, 0, by unfold mayAsk; decide +kernel⟩,
   ⟨sess true false, 0, 0, 0, 0, 0, 0, 0, 0, [], by unfold mayAsk; decide +kernel⟩,
   ⟨field0, 0, 0, 0, 2, 0, 0, 0, 0, [], by unfold mayAsk; decide +kernel⟩,
   ⟨field0, 0, 0, 0, 0x04000003, 0, 0, 0x10000, 0, [], by unfold mayAsk; decide +kernel⟩,
   ⟨withSess { (z.setEp 0 EP.VALID 1).setEp 0 EP.PATH 1 with ident := { z.ident with code := .mx } }, 0, 0, 0, 0x04000003, 0, 0, 0, 0, [], 0, by unfold mayAsk; decide +kernel⟩,
   ⟨field0, 0, 0, 0, 0x04000003, 0, 0, 0, 0, [], 0, by unfold mayAsk; decide +kernel⟩,
   ⟨field0.setF (R.HND_SESS_QUOTA.QUOTA 0) 0, 0, 0, 0, 0x04000003, 0, 0, 0, 0, [], .quota, by unfold mayAsk; decide +kernel, by decide +kernel, by decide +kernel, rfl⟩,
   ⟨sess true true, 0, 0, 0, by decide +kernel⟩⟩

theorem test_witness_QueueCommands :
    (∃ (s : State) (n : Fin 16), ∃ i : Word, (s.sess n).isOpen = true ∧ (s.sess n).version1 = true ∧ i.toNat < 131072) ∧
    (∃ (s : State) (n : Fin 16), ∃ i : Word, (s.sess n).isOpen = true ∧ (s.sess n).version1 = true ∧ 131072 ≤ i.toNat) ∧
    (∃ (s : State) (u : Qu), s.reaches (quReg u).blk (quReg u).off false = true ∧ ((s.q u).items = [] ∨ u = .uartTx ∨ (∃ n, u = .feed n))) ∧
    (∃ (s : State) (u : Qu), ∃ it rest, s.reaches (quReg u).blk (quReg u).off false = true ∧ (s.q u).items = it :: rest ∧ (u = .uartRx ∨ (∃ n, u = .cpl n) ∨ (∃ n, u = .bulk n)) ∧ (s.q u).readWords + 1 < quItemWords u) ∧
    (∃ (s : State) (u : Qu), ∃ it rest, s.reaches (quReg u).blk (quReg u).off false = true ∧ (s.q u).items = it :: rest ∧ (u = .uartRx ∨ (∃ n, u = .cpl n) ∨ (∃ n, u = .bulk n)) ∧ (s.q u).readWords + 1 = quItemWords u) ∧
    (∃ (s : State) (u : Qu), s.reaches (quReg u).blk (quReg u).off true = true ∧ (u = .uartRx ∨ (∃ n, u = .cpl n) ∨ (∃ n, u = .bulk n)) ∧ (s.q u).readWords ≠ 0) ∧
    (∃ (s : State) (u : Qu), s.reaches (quReg u).blk (quReg u).off true = true ∧ (s.q u).readWords = 0) ∧
    (∃ (s : State) (u : Qu), ∃ (h : Bool) (v : Word), s.reaches (quReg u).blk (quReg u).off true = true ∧ quWf u = true) ∧
    (∃ (s : State) (u : Qu), ∃ v : Word, s.reaches (quReg u).blk (quReg u).off true = true ∧ u = .uartRx ∧ v.toNat < 131072) ∧
    (∃ (s : State) (n : Fin 16) (v : Word), v.toNat ≤ 131072) :=
  ⟨⟨sess true true, 0, 131071, by decide +kernel⟩,
   ⟨sess true true, 0, 131072, by decide +kernel⟩,
   ⟨z, .intake, by decide +kernel, Or.inl rfl⟩,
   ⟨z.setQ (.cpl 15) ⟨[[], []], 6⟩, .cpl 15, [], [[]], by decide +kernel, by decide +kernel, Or.inr (Or.inl ⟨15, rfl⟩), by decide +kernel⟩,
   ⟨z.setQ (.cpl 15) ⟨[[], []], 7⟩, .cpl 15, [], [[]], by decide +kernel, by decide +kernel, Or.inr (Or.inl ⟨15, rfl⟩), by decide +kernel⟩,
   ⟨(clk z).setQ (.bulk 7) ⟨[[]], 18⟩, .bulk 7, by decide +kernel, Or.inr (Or.inr ⟨7, rfl⟩), by decide +kernel⟩,
   ⟨z, .intake, by decide +kernel⟩,
   ⟨z, .cpl 15, true, 0, by decide +kernel⟩,
   ⟨clk z, .uartRx, 131071, by decide +kernel⟩,
   ⟨z, 15, 131072, by decide +kernel⟩⟩

theorem test_witness_StormProcedure :
    (∃ s : State, s.stormState = 1) ∧
    (∃ s : State, s.stormState = 1 ∧ s.recoveryList ≠ []) ∧
    (∃ s : State, s.stormState = 1 ∧ s.recoveryList = [] ∧ s.pollsOut = 0) ∧
    (∃ (s : State) (i : Nat), ∃ n : Nat, s.stormState = 2 ∧ s.on (quAbove .intake) = false ∧ s.pollsOut < 16384 ∧ s.storm.list.find? s.pollable = some i ∧ s.epValid i = true ∧ s.fenced = false ∧ s.calUsed < 131072 ∧ s.allocTest .module = .slot n) ∧
    (∃ (s : State) (c : Nat), s.stormState = 1 ∧ c < 8 ∧ (s.on (R.CAN_CFG.EN c) = true ∧ s.on (R.CAN_CFG.FIELD_EN c) = true ∧ (s.canField c).length < 64)) ∧
    (∃ (s : State) (c : Nat), s.stormState = 1 ∧ c < 8 ∧ ¬ (s.on (R.CAN_CFG.EN c) = true ∧ s.on (R.CAN_CFG.FIELD_EN c) = true ∧ (s.canField c).length < 64)) ∧
    (∃ (s : State) (j : Nat), s.stormState = 1 ∧ j < 4 ∧ s.radAble j = true) ∧
    (∃ (s : State) (j : Nat), s.stormState = 1 ∧ j < 4 ∧ s.radAble j = false) ∧
    (∃ (s : State) (k : Nat) (b : CmdBody), s.ringOn k = true) ∧
    (∃ (s : State) (k : Nat) (b : CmdBody), s.ringOn k = false) ∧
    (∃ s : State, s.stormState ≠ 1) :=
  ⟨⟨stormAt 1, by decide +kernel⟩,
   ⟨{ stormAt 1 with storm := ⟨mkStamp 1 0 0, [], 0, 0⟩ }, by decide +kernel⟩,
   ⟨stormAt 1, by decide +kernel⟩,
   ⟨{ (stormAt 2).setF R.SYS_PWR_STATUS.FWD_RUN 1 with storm := ⟨mkStamp 1 0 0, [0], 0, 0⟩ }, 0, 0, by decide +kernel⟩,
   ⟨(can7f.setEp 0 EP.VALID 1).setF R.STORM_STATUS.STATE 1, 7, by decide +kernel⟩,
   ⟨stormAt 1, 7, by decide +kernel⟩,
   ⟨(rad0 1).setF R.STORM_STATUS.STATE 1, 0, by decide +kernel⟩,
   ⟨(rad0 1).setF R.STORM_STATUS.STATE 1, 3, by decide +kernel⟩,
   ⟨ring0, 0, body0, by decide +kernel⟩,
   ⟨ring0, 127, body0, by decide +kernel⟩,
   ⟨stormAt 2, by decide +kernel⟩⟩

theorem test_witness_FrameEntry :
    (∃ (s : State) (n : Fin 256) (f : Frame), s.portUp n = false) ∧
    (∃ (s : State) (n : Fin 256) (f : Frame), s.portUp n = true ∧ f.etype = 0x8808) ∧
    (∃ (s : State) (n : Fin 256) (f : Frame), s.portUp n = true ∧ f.etype ≠ 0x8808 ∧ f.len < 64) ∧
    (∃ (s : State) (n : Fin 256) (f : Frame), s.portUp n = true ∧ (f.etype ≠ 0x8808 ∧ 64 ≤ f.len) ∧ s.portRole n = 3 ∧ f.etype = 0x88F7) ∧
    (∃ (s : State) (n : Fin 256) (f : Frame), s.portUp n = true ∧ (f.etype ≠ 0x8808 ∧ 64 ≤ f.len) ∧ s.portRole n = 3 ∧ f.etype ≠ 0x88F7) ∧
    (∃ (s : State) (n : Fin 256) (f : Frame), s.portUp n = true ∧ (f.etype ≠ 0x8808 ∧ 64 ≤ f.len) ∧ s.portRole n ≠ 3 ∧ s.ringOf n = none ∧ f.etype = 0x892F) ∧
    (∃ (s : State) (n : Fin 256) (f : Frame), s.portUp n = true ∧ (f.etype ≠ 0x8808 ∧ 64 ≤ f.len) ∧ s.portRole n ≠ 3 ∧ s.ringOf n = none ∧ f.etype = 0x88B5) ∧
    (∃ (s : State) (n : Fin 256) (f : Frame), s.portUp n = true ∧ (f.etype ≠ 0x8808 ∧ 64 ≤ f.len) ∧ s.portRole n ≠ 3 ∧ s.ringOf n = none ∧ f.etype ≠ 0x88F7 ∧ f.etype ≠ 0x892F ∧ f.etype ≠ 0x88B5 ∧ (if 5 < (s.rxCount n f).trustClass n f then (s.rxCount n f).count (R.FAB_CNT_CAPPED.COUNT (n.val / 32)) else s.rxCount n f).acceptOn n f = .accept) ∧
    (∃ (s : State) (n : Fin 256) (f : Frame), s.portUp n = true ∧ (f.etype ≠ 0x8808 ∧ 64 ≤ f.len) ∧ s.portRole n ≠ 3 ∧ s.ringOf n = none ∧ f.etype ≠ 0x88F7 ∧ f.etype ≠ 0x892F ∧ f.etype ≠ 0x88B5 ∧ (if 5 < (s.rxCount n f).trustClass n f then (s.rxCount n f).count (R.FAB_CNT_CAPPED.COUNT (n.val / 32)) else s.rxCount n f).acceptOn n f = .filter) ∧
    (∃ (s : State) (n : Fin 256) (f : Frame), s.portUp n = true ∧ (f.etype ≠ 0x8808 ∧ 64 ≤ f.len) ∧ s.portRole n ≠ 3 ∧ s.ringOf n = none ∧ f.etype ≠ 0x88F7 ∧ f.etype ≠ 0x892F ∧ f.etype ≠ 0x88B5 ∧ (if 5 < (s.rxCount n f).trustClass n f then (s.rxCount n f).count (R.FAB_CNT_CAPPED.COUNT (n.val / 32)) else s.rxCount n f).acceptOn n f = .ok ∧ (macMulticast f.src = true ∨ (if 5 < (s.rxCount n f).trustClass n f then (s.rxCount n f).count (R.FAB_CNT_CAPPED.COUNT (n.val / 32)) else s.rxCount n f).on (R.FAB_PORTCFG.LEARN (n.val / 32) (n.val % 32)) = false)) ∧
    (∃ (s : State) (n : Fin 256) (f : Frame), s.portUp n = true ∧ (f.etype ≠ 0x8808 ∧ 64 ≤ f.len) ∧ s.portRole n ≠ 3 ∧ s.ringOf n = none ∧ f.etype ≠ 0x88F7 ∧ f.etype ≠ 0x892F ∧ f.etype ≠ 0x88B5 ∧ (if 5 < (s.rxCount n f).trustClass n f then (s.rxCount n f).count (R.FAB_CNT_CAPPED.COUNT (n.val / 32)) else s.rxCount n f).acceptOn n f = .ok ∧ macMulticast f.src = false ∧ (if 5 < (s.rxCount n f).trustClass n f then (s.rxCount n f).count (R.FAB_CNT_CAPPED.COUNT (n.val / 32)) else s.rxCount n f).on (R.FAB_PORTCFG.LEARN (n.val / 32) (n.val % 32)) = true ∧ (if 5 < (s.rxCount n f).trustClass n f then (s.rxCount n f).count (R.FAB_CNT_CAPPED.COUNT (n.val / 32)) else s.rxCount n f).on (R.FAB_VLAN_CFG.LEARN ((if 5 < (s.rxCount n f).trustClass n f then (s.rxCount n f).count (R.FAB_CNT_CAPPED.COUNT (n.val / 32)) else s.rxCount n f).vidOf n f)) = true) ∧
    (∃ (s : State) (p : Fin 8) (f : Frame) (id : Option (BitVec 16)) (sync : Bool), (f.vidIn = 4095 ∨ s.on (R.FAB_VLAN_CFG.VALID f.vidIn) = false ∨ s.vlanMember f.vidIn (256 + p.val) = false)) ∧
    (∃ (s : State) (p : Fin 8) (f : Frame) (id : Option (BitVec 16)) (sync : Bool), f.vidIn ≠ 4095 ∧ s.on (R.FAB_VLAN_CFG.VALID f.vidIn) = true ∧ s.vlanMember f.vidIn (256 + p.val) = true) ∧
    (∃ (s : State) (p : Fin 8) (f : Frame) (id : Option (BitVec 16)) (sync : Bool), f.etype = 0x88F7) ∧
    (∃ (s : State) (n v : Nat) (f : Frame), n < 264 ∧ f.dst = macBroadcast) ∧
    (∃ (s : State) (n v : Nat) (f : Frame), n < 264 ∧ macMulticast f.dst = false ∧ ¬ (f.dst = s.modMac ∧ v = s.f R.FAB_MGMT_VLAN.VID ∧ v ≠ 0) ∧ s.fdbAt (fdbKey v f.dst) = none) ∧
    (∃ (s : State) (n v : Nat) (f : Frame), ∃ e, n < 264 ∧ macMulticast f.dst = false ∧ ¬ (f.dst = s.modMac ∧ v = s.f R.FAB_MGMT_VLAN.VID ∧ v ≠ 0) ∧ s.fdbAt (fdbKey v f.dst) = some e ∧ e.node < 256) ∧
    (∃ (s : State) (n : Fin 256) (k : Nat) (f : Frame), s.portUp n = true ∧ (f.etype ≠ 0x8808 ∧ 64 ≤ f.len) ∧ s.portRole n ≠ 3 ∧ s.ringOf n = some k) ∧
    (∃ (s : State) (n : Fin 256) (f : Frame), s.portUp n = true ∧ (f.etype ≠ 0x8808 ∧ 64 ≤ f.len) ∧ s.portRole n ≠ 3 ∧ s.ringOf n = none ∧ f.etype = 0x88F7) ∧
    (∃ (s : State) (n : Fin 256) (f : Frame), s.portUp n = true ∧ (f.etype ≠ 0x8808 ∧ 64 ≤ f.len) ∧ s.portRole n ≠ 3 ∧ s.ringOf n = none ∧ f.etype ≠ 0x88F7 ∧ f.etype ≠ 0x892F ∧ f.etype ≠ 0x88B5 ∧ 5 < (s.rxCount n f).trustClass n f ∧ (if 5 < (s.rxCount n f).trustClass n f then (s.rxCount n f).count (R.FAB_CNT_CAPPED.COUNT (n.val / 32)) else s.rxCount n f).acceptOn n f = .ok) ∧
    (∃ (s : State) (n : Fin 256) (f : Frame), s.portUp n = true ∧ (f.etype ≠ 0x8808 ∧ 64 ≤ f.len) ∧ s.portRole n ≠ 3 ∧ s.ringOf n = none ∧ f.etype ≠ 0x88F7 ∧ f.etype ≠ 0x892F ∧ f.etype ≠ 0x88B5 ∧ (if 5 < (s.rxCount n f).trustClass n f then (s.rxCount n f).count (R.FAB_CNT_CAPPED.COUNT (n.val / 32)) else s.rxCount n f).acceptOn n f = .ok ∧ (if 5 < (s.rxCount n f).trustClass n f then (s.rxCount n f).count (R.FAB_CNT_CAPPED.COUNT (n.val / 32)) else s.rxCount n f).on (R.FAB_VLAN_CFG.LEARN ((if 5 < (s.rxCount n f).trustClass n f then (s.rxCount n f).count (R.FAB_CNT_CAPPED.COUNT (n.val / 32)) else s.rxCount n f).vidOf n f)) = false) ∧
    (∃ (s : State) (n : Fin 256) (f : Frame), f.etype ≠ 0x88F7 ∧ (∀ k, k < 128 → s.ringOn k = true → s.ringA k ≠ n ∧ s.ringB k ≠ n)) ∧
    (∃ (s : State) (n : Fin 256) (f : Frame) (k : Nat), f.etype ≠ 0x88F7 ∧ k < 128 ∧ (∀ j, j < 128 → (s.ringOn j = true ∧ (s.ringA j = n ∨ s.ringB j = n) ↔ j = k))) ∧
    (∃ (s : State) (n v : Nat) (f : Frame), n < 264 ∧ macMulticast f.dst = true ∧ f.dst ≠ macBroadcast ∧ s.mcgFind v f.dst = none) ∧
    (∃ (s : State) (n v g : Nat) (f : Frame), n < 264 ∧ macMulticast f.dst = true ∧ f.dst ≠ macBroadcast ∧ s.mcgFind v f.dst = some g) ∧
    (∃ (s : State) (n v : Nat) (f : Frame), n < 264 ∧ macMulticast f.dst = false ∧ f.dst = s.modMac ∧ v = s.f R.FAB_MGMT_VLAN.VID ∧ v ≠ 0) ∧
    (∃ (s : State) (n v : Nat) (f : Frame) (e : FdbEntry), n < 264 ∧ macMulticast f.dst = false ∧ ¬ (f.dst = s.modMac ∧ v = s.f R.FAB_MGMT_VLAN.VID ∧ v ≠ 0) ∧ s.fdbAt (fdbKey v f.dst) = some e ∧ e.node = 256) ∧
    (∃ (s : State) (n v : Nat) (f : Frame) (e : FdbEntry), n < 264 ∧ macMulticast f.dst = false ∧ ¬ (f.dst = s.modMac ∧ v = s.f R.FAB_MGMT_VLAN.VID ∧ v ≠ 0) ∧ s.fdbAt (fdbKey v f.dst) = some e ∧ 256 < e.node) :=
  ⟨⟨z, 255, fr0, by decide +kernel⟩,
   ⟨pup 255, 255, { fr0 with etype := 0x8808 }, by decide +kernel⟩,
   ⟨pup 255, 255, { fr0 with len := 63 }, by decide +kernel⟩,
   ⟨(pup 255).setF (R.PORT_CFG.ROLE 255) 3, 255, { fr0 with etype := 0x88F7 }, by decide +kernel⟩,
   ⟨(pup 255).setF (R.PORT_CFG.ROLE 255) 3, 255, fr0, by decide +kernel⟩,
   ⟨pup 0, 0, { fr0 with etype := 0x892F }, by decide +kernel⟩,
   ⟨pup 0, 0, { fr0 with etype := 0x88B5 }, by decide +kernel⟩,
   ⟨(pup 255).setF (R.FAB_PORTCFG.ACCEPT 7 31) 1, 255, fr0, by decide +kernel⟩,
   ⟨pup 255, 255, fr0, by decide +kernel⟩,
   ⟨vlan5.setF (R.FAB_PORTCFG.LEARN 7 31) 0, 255, { fr0 with tci := some 5 }, by decide +kernel⟩,
   ⟨(vlan5.setF (R.FAB_PORTCFG.LEARN 7 31) 1).setF (R.FAB_VLAN_CFG.LEARN 5) 1, 255, { fr0 with tci := some 5 }, by decide +kernel⟩,
   ⟨z, 7, { fr0 with tci := some 4095 }, none, true, by decide +kernel⟩,
   ⟨vlan5.setF (R.FAB_VLAN_CFG.CTL_MEMBER 5) 1, 7, { fr0 with tci := some 5 }, none, true, by decide +kernel⟩,
   ⟨z, 7, { fr0 with etype := 0x88F7 }, none, true, by decide +kernel⟩,
   ⟨z, 255, 4094, { fr0 with dst := macBroadcast }, by decide +kernel⟩,
   ⟨z, 255, 1, fr0, by decide +kernel⟩,
   ⟨z.setFdb (fdbKey 1 2) (some fdb0), 255, 1, fr0, fdb0, by decide +kernel⟩,
   ⟨ring0, 255, 0, fr0, by decide +kernel⟩,
   ⟨pup 0, 0, { fr0 with etype := 0x88F7 }, by decide +kernel⟩,
   ⟨(vlan5.setF (R.FAB_PORTCFG.TRUST 7 31) 1).setR (R.FAB_PCP_MAP.reg 7) 7, 255, { fr0 with tci := some 5 }, by decide +kernel⟩,
   ⟨(vlan5.setF (R.FAB_PORTCFG.LEARN 7 31) 1).setF (R.FAB_VLAN_CFG.LEARN 5) 0, 255, { fr0 with tci := some 5 }, by decide +kernel⟩,
   ⟨z, 255, fr0, by decide +kernel⟩,
   ⟨ring0, 255, fr0, 0, by decide +kernel⟩,
   ⟨z, 255, 5, { fr0 with dst := 0x01005E000001 }, by decide +kernel⟩,
   ⟨(((z.setF (R.FAB_MCG_CFG.VALID 796) 1).setF (R.FAB_MCG_CFG.VID 796) 5).setF (R.FAB_MCG_CFG.MAC_HI 796) 0x0100).setF (R.FAB_MCG_MAC_LO.MAC_LO 796) 0x5E000001, 263, 5, 796, { fr0 with dst := 0x01005E000001 }, by decide +kernel⟩,
   ⟨z.setF R.FAB_MGMT_VLAN.VID 4094, 263, 4094, { fr0 with dst := z.modMac }, by decide +kernel⟩,
   ⟨z.setFdb (fdbKey 1 2) (some { fdb0 with node := 256 }), 263, 1, fr0, { fdb0 with node := 256 }, by decide +kernel⟩,
   ⟨z.setFdb (fdbKey 1 2) (some { fdb0 with node := 257 }), 255, 1, fr0, { fdb0 with node := 257 }, by decide +kernel⟩⟩

theorem test_witness_FrameAdmission :
    (∃ (s : State) (node : Nat) (f : Frame) (r : Route) (m : Mark), node < 264 ∧ r.cls < 8 ∧ (r.uni ≠ [] ∨ r.multi ≠ []) ∧ s.ctOn node r.cls = false ∧ f.badFcs = false ∧ f.len ≤ 9216 ∧ (s.admission (plotOf node) (8 * localOf node + r.cls) r.cls ((routeParts s.fab.nextFrame (plotOf node) r).map (·.voq)) f) = .quota) ∧
    (∃ (s : State) (node : Nat) (f : Frame) (r : Route) (m : Mark), node < 264 ∧ r.cls < 8 ∧ (r.uni ≠ [] ∨ r.multi ≠ []) ∧ s.ctOn node r.cls = false ∧ f.badFcs = false ∧ f.len ≤ 9216 ∧ (s.admission (plotOf node) (8 * localOf node + r.cls) r.cls ((routeParts s.fab.nextFrame (plotOf node) r).map (·.voq)) f) = .voq) ∧
    (∃ (s : State) (node : Nat) (f : Frame) (r : Route) (m : Mark), node < 264 ∧ r.cls < 8 ∧ (r.uni ≠ [] ∨ r.multi ≠ []) ∧ s.ctOn node r.cls = false ∧ f.badFcs = false ∧ f.len ≤ 9216 ∧ (s.admission (plotOf node) (8 * localOf node + r.cls) r.cls ((routeParts s.fab.nextFrame (plotOf node) r).map (·.voq)) f) = .pool) ∧
    (∃ (s : State) (node : Nat) (f : Frame) (r : Route) (m : Mark), node < 264 ∧ r.cls < 8 ∧ (r.uni ≠ [] ∨ r.multi ≠ []) ∧ s.ctOn node r.cls = false ∧ f.badFcs = false ∧ f.len ≤ 9216 ∧ (s.admission (plotOf node) (8 * localOf node + r.cls) r.cls ((routeParts s.fab.nextFrame (plotOf node) r).map (·.voq)) f) = .dt) ∧
    (∃ (s : State) (node : Nat) (f : Frame) (r : Route) (m : Mark), node < 264 ∧ r.cls < 8 ∧ (r.uni ≠ [] ∨ r.multi ≠ []) ∧ s.ctOn node r.cls = false ∧ f.badFcs = false ∧ f.len ≤ 9216 ∧ (s.admission (plotOf node) (8 * localOf node + r.cls) r.cls ((routeParts s.fab.nextFrame (plotOf node) r).map (·.voq)) f) = .yes ∧ s.acctUsed (plotOf node) (8 * localOf node + r.cls) + (f.len + 255) / 256 < 131072) ∧
    (∃ (s : State) (node : Nat) (f : Frame) (r : Route) (m : Mark), node < 264 ∧ r.cls < 8 ∧ (r.uni ≠ [] ∨ r.multi ≠ []) ∧ s.ctOn node r.cls = false ∧ f.badFcs = false ∧ f.len ≤ 9216 ∧ s.acctQuota (plotOf node) (8 * localOf node + r.cls) ≤ s.acctUsed (plotOf node) (8 * localOf node + r.cls)) :=
  ⟨⟨z.setF (R.FAB_ACCT_QUOTA.QUOTA 0 256) 0, 256, fr0, rt 0, Mark.none, by decide +kernel⟩,
   ⟨(z.setF (R.FAB_BUF_VOQ_CAP.CAP 0) 1).modFab (fun b => { b with frames := [(0, some ff0)], waiting := [⟨0, 0, 0, 0, false, false, [(0, [0])]⟩], nextFrame := 1 }), 256, fr0, rt 0, Mark.none, by decide +kernel⟩,
   ⟨(pool 0).setF (R.FAB_ACCT_USED.USED 0 263) 16, 256, fr0, rt 7, Mark.none, by decide +kernel⟩,
   ⟨(pool 2).setF (R.FAB_ACCT_USED.USED 0 256) 17, 256, fr0, rt 0, Mark.none, by decide +kernel⟩,
   ⟨z, 256, { fr0 with len := 9216 }, rt 0, Mark.none, by decide +kernel⟩,
   ⟨z.setF (R.FAB_ACCT_USED.USED 7 263) 16384, 263, fr0, rt 7, Mark.none, by decide +kernel⟩⟩

theorem test_witness_FramePassage :
    (∃ (s : State) (p : Fin 8) (k c : Nat) (d : Drr) (x : VoqPart) (f : FabFrame), s.choosePlane p = some k ∧ s.pickClass p p (fun c => (s.classHead p c).map s.partLen) = some (c, d) ∧ s.classHead p c = some x ∧ s.fabFrame x.fid = some f ∧ f.cellErr = false ∧ (x.dests.map (·.1)).Nodup ∧ ∀ y ∈ x.dests, y.1 < 8) ∧
    (∃ (s : State) (p e c : Fin 8) (x : Crossing), s.fab.held = [] ∧ s.fab.residue = [] ∧ s.fab.flight.find? (fun y => y.src == p.val && y.dst == e.val && y.cls == c.val && y.seq == x.seq) = some x ∧ x.seq = s.expectOf (64 * p.val + 8 * e.val + c.val) ∧ x.seq < 65536 ∧ x.dead = false ∧ x.multi = false ∧ x.sown = false) ∧
    (∃ (s : State) (p e c : Fin 8) (q : BitVec 16), 32768 ≤ (q.toNat + 65536 - s.expectOf (64 * p.val + 8 * e.val + c.val)) % 65536) ∧
    (∃ (s : State) (p e c : Fin 8), s.heldAtSeq p e c (s.expectOf (streamOf p e c)) = none ∧ s.fab.held.any (fun x => x.src == p.val && x.dst == e.val && x.cls == c.val) = true) ∧
    (∃ (s : State) (p e c : Fin 8) (x : Crossing), s.fab.held = [x] ∧ s.fab.residue = [] ∧ x.src = p ∧ x.dst = e ∧ x.cls = c ∧ x.seq = s.expectOf (64 * p.val + 8 * e.val + c.val) ∧ x.sown = true ∧ x.multi = true ∧ x.dead = false ∧ s.sownReady x = true ∧ x.frame.cal = none) ∧
    (∃ (s : State) (p e c : Fin 8) (x : Crossing), s.fab.held = [x] ∧ s.fab.residue = [] ∧ x.src = p ∧ x.dst = e ∧ x.cls = c ∧ x.seq = s.expectOf (64 * p.val + 8 * e.val + c.val) ∧ x.sown = true ∧ x.multi = true ∧ x.dead = false ∧ s.sownReady x = true ∧ x.frame.cal ≠ none) ∧
    (∃ (s : State) (n : Fin 264) (e : TxEntry), s.residueHead n = some e ∧ s.txReady n e.cls = true) ∧
    (∃ (s : State) (n : Fin 264) (e : TxEntry), s.residueHead n = some e ∧ s.f (R.FAB_BUF_MC_CFG.TMO (plotOf n)) ≠ 0) ∧
    (∃ (s : State) (n : Fin 264) (c : Nat) (d : Drr) (e : TxEntry) (begun : Bool), s.pickClass (8 + n) (plotOf n) (fun c => (s.txHead n c).map (fun x => x.frame.fr.len)) = some (c, d) ∧ s.txHead n c = some e ∧ s.mayStart n (e.frame.lenOut (e.frame.tciOut n) (s.hsrAt n e.frame)) = false) ∧
    (∃ (s : State) (n : Fin 264) (c : Nat) (d : Drr) (e : TxEntry) (begun : Bool), s.pickClass (8 + n) (plotOf n) (fun c => (s.txHead n c).map (fun x => x.frame.fr.len)) = some (c, d) ∧ s.txHead n c = some e ∧ s.mayStart n (e.frame.lenOut (e.frame.tciOut n) (s.hsrAt n e.frame)) = true ∧ n.val < 256 ∧ s.portUp n = false) ∧
    (∃ (s : State) (n : Fin 264) (c : Nat) (d : Drr) (e : TxEntry) (begun : Bool), s.pickClass (8 + n) (plotOf n) (fun c => (s.txHead n c).map (fun x => x.frame.fr.len)) = some (c, d) ∧ s.txHead n c = some e ∧ s.mayStart n (e.frame.lenOut (e.frame.tciOut n) (s.hsrAt n e.frame)) = true ∧ (256 ≤ n.val ∨ (s.portUp n = true ∧ s.ringOf n = none)) ∧ e.frame.fr.badFcs = false ∧ e.frame.cellErr = false) ∧
    (∃ (s : State) (n : Fin 264) (c : Nat) (d : Drr) (e : TxEntry) (begun : Bool), s.pickClass (8 + n) (plotOf n) (fun c => (s.txHead n c).map (fun x => x.frame.fr.len)) = some (c, d) ∧ s.txHead n c = some e ∧ s.mayStart n (e.frame.lenOut (e.frame.tciOut n) (s.hsrAt n e.frame)) = true ∧ (256 ≤ n.val ∨ s.portUp n = true) ∧ e.frame.cellErr = true ∧ e.frame.ct = false ∧ e.frame.node < 264) ∧
    (∃ (s : State) (p : Fin 8) (k c : Nat) (d : Drr) (x : VoqPart) (f : FabFrame), s.choosePlane p = some k ∧ s.pickClass p p (fun c => (s.classHead p c).map s.partLen) = some (c, d) ∧ s.classHead p c = some x ∧ s.fabFrame x.fid = some f ∧ f.cellErr = true ∧ f.ct = true ∧ (x.dests.map (·.1)).Nodup ∧ ∀ y ∈ x.dests, y.1 < 8) ∧
    (∃ (s : State) (p : Fin 8) (k c : Nat) (d : Drr) (x : VoqPart) (f : FabFrame), s.choosePlane p = some k ∧ s.pickClass p p (fun c => (s.classHead p c).map s.partLen) = some (c, d) ∧ s.classHead p c = some x ∧ s.fabFrame x.fid = some f ∧ f.cellErr = true ∧ f.ct = false) ∧
    (∃ (s : State) (p : Fin 8), s.choosePlane p = none) ∧
    (∃ (s : State) (p : Fin 8), s.pickClass p p (fun c => (s.classHead p c).map s.partLen) = none) ∧
    (∃ (s : State) (p e c : Fin 8) (x : Crossing), x.seq < 65536 ∧ s.fab.flight.find? (fun y => y.src == p.val && y.dst == e.val && y.cls == c.val && y.seq == x.seq) = some x ∧ x.seq = s.expectOf (64 * p.val + 8 * e.val + c.val) ∧ (∀ y ∈ s.fab.held, ¬ (y.src = p.val ∧ y.dst = e.val ∧ y.cls = c.val)) ∧ (((s.modFab (fun b => { b with flight := b.flight.erase x })).passLead x).frameFree x.fid).canRelease x = true) ∧
    (∃ (s : State) (p e c : Fin 8) (x : Crossing), x.seq < 65536 ∧ s.fab.flight.find? (fun y => y.src == p.val && y.dst == e.val && y.cls == c.val && y.seq == x.seq) = some x ∧ x.seq = s.expectOf (64 * p.val + 8 * e.val + c.val) ∧ (∀ y ∈ s.fab.held, ¬ (y.src = p.val ∧ y.dst = e.val ∧ y.cls = c.val)) ∧ (((s.modFab (fun b => { b with flight := b.flight.erase x })).passLead x).frameFree x.fid).canRelease x = false) ∧
    (∃ (s : State) (p e c : Fin 8) (x : Crossing), x.seq < 65536 ∧ s.fab.flight.find? (fun y => y.src == p.val && y.dst == e.val && y.cls == c.val && y.seq == x.seq) = some x ∧ 0 < (x.seq + 65536 - s.expectOf (64 * p.val + 8 * e.val + c.val)) % 65536 ∧ (x.seq + 65536 - s.expectOf (64 * p.val + 8 * e.val + c.val)) % 65536 < 32768 ∧ s.heldAtSeq p e c x.seq = none ∧ s.heldAtSeq p e c (s.expectOf (64 * p.val + 8 * e.val + c.val)) = none) ∧
    (∃ (s : State) (p e c : Fin 8) (x : Crossing), x.seq < 65536 ∧ s.fab.flight.find? (fun y => y.src == p.val && y.dst == e.val && y.cls == c.val && y.seq == x.seq) = some x ∧ 32768 ≤ (x.seq + 65536 - s.expectOf (64 * p.val + 8 * e.val + c.val)) % 65536) ∧
    (∃ (s : State) (p e c : Fin 8) (x : Crossing), x.seq < 65536 ∧ s.fab.flight.find? (fun y => y.src == p.val && y.dst == e.val && y.cls == c.val && y.seq == x.seq) = some x ∧ (s.heldAtSeq p e c x.seq).isSome = true) ∧
    (∃ (x : Crossing) (n : Nat), x.targets = [n] ∧ x.dead = true) ∧
    (∃ (x : Crossing) (n : Nat), x.targets = [n] ∧ x.dead = false ∧ x.multi = false) ∧
    (∃ (x : Crossing) (n : Nat), x.targets = [n] ∧ x.dead = false ∧ x.multi = true ∧ x.sown = false) ∧
    (∃ (x : Crossing) (n : Nat), x.targets = [n] ∧ x.dead = false ∧ x.multi = true ∧ x.sown = true ∧ x.frame.cal = none) ∧
    (∃ (s : State) (e : TxEntry), s.fab.residue.any (fun x => x.node == e.node && x.src == e.src && x.cls == e.cls) = true ∧ e.frame.cal = none ∧ s.residueCount (plotOf e.node) < 16384) ∧
    (∃ (s : State) (e : TxEntry), s.fab.residue.any (fun x => x.node == e.node && x.src == e.src && x.cls == e.cls) = false ∧ s.txReady e.node e.cls = true) ∧
    (∃ (s : State) (e : TxEntry), e.frame.cal.isSome = true) ∧
    (∃ (s : State) (e : TxEntry), e.frame.cal = none ∧ s.fab.residue.any (fun x => x.node == e.node && x.src == e.src && x.cls == e.cls) = true ∧ 16384 ≤ s.residueCount (plotOf e.node)) ∧
    (∃ (s : State) (p e c : Fin 8) (q : BitVec 16), s.heldAtSeq p e c q.toNat = none ∧ (q.toNat + 65536 - s.expectOf (64 * p.val + 8 * e.val + c.val)) % 65536 < 32768 ∧ s.fab.flight.find? (fun y => y.src == p.val && y.dst == e.val && y.cls == c.val && y.seq == q.toNat) = none) ∧
    (∃ (s : State) (p e c : Fin 8), (s.heldAtSeq p e c (s.expectOf (streamOf p e c))).isSome = true) ∧
    (∃ (s : State) (p e c : Fin 8), s.fab.held.any (fun x => x.src == p.val && x.dst == e.val && x.cls == c.val) = false) ∧
    (∃ (s : State) (p e c : Fin 8), (∀ x, s.heldAtSeq p e c (s.expectOf (streamOf p e c)) = some x → s.canRelease x = false)) ∧
    (∃ (s : State) (n : Fin 264), s.residueHead n = none) ∧
    (∃ (s : State) (n : Fin 264) (e : TxEntry), s.residueHead n = some e ∧ s.txReady n e.cls = false) ∧
    (∃ (s : State) (n : Fin 264) (e : TxEntry), s.residueHead n = some e ∧ s.f (R.FAB_BUF_MC_CFG.TMO (plotOf n)) = 0) ∧
    (∃ (s : State) (n : Fin 264) (c : Nat) (d : Drr) (e : TxEntry) (begun : Bool), s.pickClass (8 + n) (plotOf n) (fun c => (s.txHead n c).map (fun x => x.frame.fr.len)) = some (c, d) ∧ s.txHead n c = some e ∧ s.mayStart n (e.frame.lenOut (e.frame.tciOut n) (s.hsrAt n e.frame)) = true ∧ (256 ≤ n.val ∨ s.portUp n = true) ∧ (e.frame.cellErr = false ∨ e.frame.ct = true) ∧ (e.frame.fr.badFcs || e.frame.cellErr) = true ∧ begun = false) ∧
    (∃ (s : State) (n : Fin 264) (c : Nat) (d : Drr) (e : TxEntry) (begun : Bool), s.pickClass (8 + n) (plotOf n) (fun c => (s.txHead n c).map (fun x => x.frame.fr.len)) = some (c, d) ∧ s.txHead n c = some e ∧ s.mayStart n (e.frame.lenOut (e.frame.tciOut n) (s.hsrAt n e.frame)) = true ∧ (256 ≤ n.val ∨ s.portUp n = true) ∧ (e.frame.cellErr = false ∨ e.frame.ct = true) ∧ (e.frame.fr.badFcs || e.frame.cellErr) = true ∧ begun = true) ∧
    (∃ (s : State) (n : Fin 264) (c : Nat) (d : Drr) (e : TxEntry) (begun : Bool), s.pickClass (8 + n) (plotOf n) (fun c => (s.txHead n c).map (fun x => x.frame.fr.len)) = some (c, d) ∧ s.txHead n c = some e ∧ s.mayStart n (e.frame.lenOut (e.frame.tciOut n) (s.hsrAt n e.frame)) = true ∧ (256 ≤ n.val ∨ s.portUp n = true) ∧ (e.frame.cellErr = false ∨ e.frame.ct = true) ∧ (e.frame.fr.badFcs || e.frame.cellErr) = false ∧ s.hsrAt n e.frame = none) ∧
    (∃ (s : State) (n : Fin 264) (c : Nat) (d : Drr) (e : TxEntry) (begun : Bool), s.pickClass (8 + n) (plotOf n) (fun c => (s.txHead n c).map (fun x => x.frame.fr.len)) = some (c, d) ∧ s.txHead n c = some e ∧ s.mayStart n (e.frame.lenOut (e.frame.tciOut n) (s.hsrAt n e.frame)) = true ∧ (256 ≤ n.val ∨ s.portUp n = true) ∧ (e.frame.cellErr = false ∨ e.frame.ct = true) ∧ (e.frame.fr.badFcs || e.frame.cellErr) = false ∧ (s.hsrAt n e.frame).isSome = true ∧ e.frame.lenOut (e.frame.tciOut n) (s.hsrAt n e.frame) ≤ 9216) ∧
    (∃ (s : State) (n : Fin 264) (c : Nat) (d : Drr) (e : TxEntry) (begun : Bool), s.pickClass (8 + n) (plotOf n) (fun c => (s.txHead n c).map (fun x => x.frame.fr.len)) = some (c, d) ∧ s.txHead n c = some e ∧ s.mayStart n (e.frame.lenOut (e.frame.tciOut n) (s.hsrAt n e.frame)) = true ∧ (256 ≤ n.val ∨ s.portUp n = true) ∧ (e.frame.cellErr = false ∨ e.frame.ct = true) ∧ (e.frame.fr.badFcs || e.frame.cellErr) = false ∧ (s.hsrAt n e.frame).isSome = true ∧ 9216 < e.frame.lenOut (e.frame.tciOut n) (s.hsrAt n e.frame)) ∧
    (∃ (s : State) (n : Fin 264) (begun : Bool), s.pickClass (8 + n) (plotOf n) (fun c => (s.txHead n c).map (fun x => x.frame.fr.len)) = none) :=
  ⟨⟨(z.setPlane 8 1).modFab (fun b => { b with frames := [(0, some ff0)], waiting := [⟨0, 0, 0, 7, false, false, [(0, [0])]⟩] }), 0, 8, 7, Drr.zero, ⟨0, 0, 0, 7, false, false, [(0, [0])]⟩, ff0, by decide +kernel⟩,
   ⟨z.modFab (fun b => { b with flight := [cr0] }), 0, 7, 6, cr0, by decide +kernel⟩,
   ⟨z, 0, 0, 0, 32768, by decide +kernel⟩,
   ⟨z.modFab (fun b => { b with held := [{ cr0 with seq := 1 }] }), 0, 7, 6, by decide +kernel⟩,
   ⟨z.modFab (fun b => { b with held := [{ cr0 with multi := true, sown := true }] }), 0, 7, 6, { cr0 with multi := true, sown := true }, by decide +kernel⟩,
   ⟨z.modFab (fun b => { b with held := [{ cr0 with multi := true, sown := true, frame := { ff0 with cal := some 0 } }] }), 0, 7, 6, { cr0 with multi := true, sown := true, frame := { ff0 with cal := some 0 } }, by decide +kernel⟩,
   ⟨z.modFab (fun b => { b with residue := [tx0] }), 0, tx0, by decide +kernel⟩,
   ⟨z.modFab (fun b => { b with residue := [tx0] }), 0, tx0, by decide +kernel⟩,
   ⟨busy0 (z.modFab (fun b => { b with tx := [tx0] })), 0, 7, Drr.zero, tx0, true, by decide +kernel⟩,
   ⟨z.modFab (fun b => { b with tx := [tx0] }), 0, 7, Drr.zero, tx0, true, by decide +kernel⟩,
   ⟨(pup 0).modFab (fun b => { b with tx := [tx0] }), 0, 7, Drr.zero, tx0, true, by decide +kernel⟩,
   ⟨(pup 0).modFab (fun b => { b with tx := [txe] }), 0, 7, Drr.zero, txe, true, by decide +kernel⟩,
   ⟨(z.setPlane 8 1).modFab (fun b => { b with frames := [(0, some { ff0 with cellErr := true, ct := true })], waiting := [⟨0, 0, 0, 7, false, false, [(0, [0])]⟩] }), 0, 8, 7, Drr.zero, ⟨0, 0, 0, 7, false, false, [(0, [0])]⟩, { ff0 with cellErr := true, ct := true }, by decide +kernel⟩,
   ⟨(z.setPlane 8 1).modFab (fun b => { b with frames := [(0, some { ff0 with cellErr := true })], waiting := [⟨0, 0, 0, 7, false, false, [(0, [0])]⟩] }), 0, 8, 7, Drr.zero, ⟨0, 0, 0, 7, false, false, [(0, [0])]⟩, { ff0 with cellErr := true }, by decide +kernel⟩,
   ⟨z, 7, by decide +kernel⟩,
   ⟨z, 7, by decide +kernel⟩,
   ⟨z.modFab (fun b => { b with flight := [cr0] }), 0, 7, 6, cr0, by decide +kernel⟩,
   ⟨(pup 224).modFab (fun b => { b with flight := [crS], tx := List.replicate 16 { tx0 with node := 224, cls := 6 } }), 0, 7, 6, crS, by decide +kernel⟩,
   ⟨z.modFab (fun b => { b with flight := [{ cr0 with seq := 32767 }] }), 0, 7, 6, { cr0 with seq := 32767 }, by decide +kernel⟩,
   ⟨z.modFab (fun b => { b with flight := [{ cr0 with seq := 32768 }] }), 0, 7, 6, { cr0 with seq := 32768 }, by decide +kernel⟩,
   ⟨z.modFab (fun b => { b with flight := [{ cr0 with seq := 1 }], held := [{ cr0 with seq := 1 }] }), 0, 7, 6, { cr0 with seq := 1 }, by decide +kernel⟩,
   ⟨{ cr0 with dead := true }, 224, by decide +kernel⟩,
   ⟨cr0, 224, by decide +kernel⟩,
   ⟨{ cr0 with multi := true }, 224, by decide +kernel⟩,
   ⟨{ cr0 with multi := true, sown := true }, 224, by decide +kernel⟩,
   ⟨z.modFab (fun b => { b with residue := [tx0] }), tx0, by decide +kernel⟩,
   ⟨z, tx0, by decide +kernel⟩,
   ⟨z, txc, by decide +kernel⟩,
   ⟨resid 16384, tx0, by decide, resid_any, by rw [resid_count]⟩,
   ⟨z, 7, 7, 7, 32767, by decide +kernel⟩,
   ⟨z.modFab (fun b => { b with held := [cr0] }), 0, 7, 6, by decide +kernel⟩,
   ⟨z, 0, 7, 6, by decide +kernel⟩,
   ⟨z, 0, 7, 6, fun x h => by cases (by decide +kernel : z.heldAtSeq 0 7 6 (z.expectOf (streamOf 0 7 6)) = none).symm.trans h⟩,
   ⟨z, 263, by decide +kernel⟩,
   ⟨z.modFab (fun b => { b with residue := [tx0], tx := List.replicate 16 tx0 }), 0, tx0, by decide +kernel⟩,
   ⟨(z.modFab (fun b => { b with residue := [tx0] })).setF (R.FAB_BUF_MC_CFG.TMO 0) 0, 0, tx0, by decide +kernel⟩,
   ⟨(pup 0).modFab (fun b => { b with tx := [{ tx0 with frame := { ff0 with fr := { fr0 with badFcs := true } } }] }), 0, 7, Drr.zero, { tx0 with frame := { ff0 with fr := { fr0 with badFcs := true } } }, false, by decide +kernel⟩,
   ⟨(pup 0).modFab (fun b => { b with tx := [{ tx0 with frame := { ff0 with cellErr := true, ct := true } }] }), 0, 7, Drr.zero, { tx0 with frame := { ff0 with cellErr := true, ct := true } }, true, by decide +kernel⟩,
   ⟨(pup 0).modFab (fun b => { b with tx := [tx0] }), 0, 7, Drr.zero, tx0, true, by decide +kernel⟩,
   ⟨ring0.modFab (fun b => { b with tx := [{ tx0 with node := 255, frame := { ff0 with rings := [(0, 5)] } }] }), 255, 7, Drr.zero, { tx0 with node := 255, frame := { ff0 with rings := [(0, 5)] } }, true, by decide +kernel⟩,
   ⟨ring0.modFab (fun b => { b with tx := [{ tx0 with node := 255, frame := { ff0 with fr := { fr0 with len := 9216 }, rings := [(0, 5)] } }] }), 255, 7, Drr.zero, { tx0 with node := 255, frame := { ff0 with fr := { fr0 with len := 9216 }, rings := [(0, 5)] } }, true, by decide +kernel⟩,
   ⟨z, 263, true, by decide +kernel⟩⟩

theorem test_witness_ForwardingDatabase :
    (∃ (s : State), s.on R.FAB_FDB_STATUS.BUSY = false ∧ s.fdbBadKey = true) ∧
    (∃ (s : State), ∃ e, s.on R.FAB_FDB_STATUS.BUSY = false ∧ s.fdbBadKey = false ∧ s.fdbAt (fdbKey s.fdbKeyVid s.fdbKeyMac) = some e) ∧
    (∃ (s : State), s.on R.FAB_FDB_STATUS.BUSY = false ∧ s.fdbBadKey = false ∧ s.fdbAt (fdbKey s.fdbKeyVid s.fdbKeyMac) = none ∧ s.fdbFull s.fdbKeyVid s.fdbKeyMac = true) ∧
    (∃ (s : State), s.on R.FAB_FDB_STATUS.BUSY = false ∧ s.fdbBadKey = false ∧ (s.fdbAt (fdbKey s.fdbKeyVid s.fdbKeyMac) ≠ none ∨ s.fdbFull s.fdbKeyVid s.fdbKeyMac = false)) ∧
    (∃ (s : State) (p : Nat → FdbEntry → Bool) (k : Nat), canonical fdbDefault s.fab.fdb) ∧
    (∃ s : State, s.on R.FAB_FDB_STATUS.BUSY = true) ∧
    (∃ (s : State) (r : Nat), s.fab.fdbResult = some r ∧ r < 4) ∧
    (∃ (s : State) (v : BitVec 12) (m : Mac) (e : FdbEntry), s.fdbAt (fdbKey v.toNat m) = some e ∧ e.static = false ∧ s.f R.FAB_FDB_AGE.AGE ≠ 0 ∧ e.stamp + s.f R.FAB_FDB_AGE.AGE * secTicks ≤ s.opTotal) ∧
    (∃ (s : State) (v : BitVec 12) (m : Mac) (e : FdbEntry), s.fdbAt (fdbKey v.toNat m) = some e ∧ e.static = false ∧ s.f R.FAB_FDB_AGE.AGE ≠ 0 ∧ s.opTotal < e.stamp + s.f R.FAB_FDB_AGE.AGE * secTicks) ∧
    (∃ s : State, s.on R.FAB_FDB_STATUS.BUSY = false ∧ s.fdbBadKey = false ∧ s.fdbAt (fdbKey s.fdbKeyVid s.fdbKeyMac) = none) :=
  ⟨⟨z, by decide +kernel⟩,
   ⟨(fdbKey0 2).setFdb (fdbKey 1 2) (some fdb0), fdb0, by decide +kernel⟩,
   ⟨(fdbKey0 2).modFab (fun b => { b with fdb := [19858, 135778, 155634, 271554].map (fun m => (2 ^ 48 + m, some fdb0)) }), by decide +kernel⟩,
   ⟨fdbKey0 2, by decide +kernel⟩,
   ⟨z, fun _ _ => true, 0, by show swf _ _ = true; decide +kernel⟩,
   ⟨z.setF R.FAB_FDB_STATUS.BUSY 1, by decide +kernel⟩,
   ⟨z.modFab (fun b => { b with fdbResult := some 3 }), 3, by decide +kernel⟩,
   ⟨(z.setFdb (fdbKey 1 2) (some fdb0)) |> opAt (300 * secTicks), 1, 2, fdb0, by decide +kernel⟩,
   ⟨(z.setFdb (fdbKey 1 2) (some fdb0)) |> opAt (300 * secTicks - 1), 1, 2, fdb0, by decide +kernel⟩,
   ⟨fdbKey0 2, by decide +kernel⟩⟩

theorem test_witness_SpeedAndGleaner :
    (∃ (s : State) (p : Fin 8) (k : Fin 9) (n : Word), s.plane k = plActive ∧ 63 ≤ n.toNat) ∧
    (∃ (s : State) (p : Fin 8) (k : Fin 9) (n : Word), s.plane k ≠ plActive) ∧
    (∃ s : State, s.on R.FAB_VLOOP_CFG.EN = true ∧ s.monitors ≠ []) ∧
    (∃ s : State, s.on R.FAB_VLOOP_CFG.EN = false) ∧
    (∃ (s : State) (p : Fin 8), (∀ x ∈ s.spares.judged, x.1 ≠ p.val) ∧ ((s.walkCells p).filter (s.cellClash p)) = [] ∧ (s.f (R.FAB_BUF_TOTAL.TOTAL p) - s.cellSum p) ≤ 0x7FFF ∧ (((s.walkCells p).filter (s.orphan p)).map (fun i => (i, (s.cellTag p i).gen))).length ≤ 4096 ∧ s.suspects p = []) ∧
    (∃ (s : State) (p : Fin 8), ∃ c g : Nat, (∀ x ∈ s.spares.judged, x.1 ≠ p.val) ∧ ((s.walkCells p).filter (s.cellClash p)) = [] ∧ (s.f (R.FAB_BUF_TOTAL.TOTAL p) - s.cellSum p) ≤ 0x7FFF ∧ s.suspects p = [(c, g)] ∧ (c, g) ∈ (((s.walkCells p).filter (s.orphan p)).map (fun i => (i, (s.cellTag p i).gen))) ∧ s.f (R.FAB_GLN_WINDOW.CONFIRMED p) < 64) ∧
    (∃ (s : State) (p : Fin 8), (∀ x ∈ s.spares.judged, x.1 ≠ p.val) ∧ ((s.walkCells p).filter (s.cellClash p)) ≠ [] ∧ s.suspects p = [] ∧ s.underPass hcQueue p = false ∧ s.power.step ≠ 0) ∧
    (∃ (s : State) (p : Fin 8) (k : Fin 9) (n : Word), s.plane k = plActive ∧ n.toNat < 63) ∧
    (∃ s : State, s.on R.FAB_VLOOP_CFG.EN = true ∧ s.monitors ≠ [] ∧ s.f R.FAB_VLOOP_CFG.TARGET_PS < s.monitors.foldl (fun a x => max a x.2.2) 0) ∧
    (∃ s : State, s.on R.FAB_VLOOP_CFG.EN = true ∧ s.monitors ≠ [] ∧ s.monitors.foldl (fun a x => max a x.2.2) 0 ≤ s.f R.FAB_VLOOP_CFG.TARGET_PS ∧ s.fab.lowRun + 1 < 10) ∧
    (∃ s : State, s.on R.FAB_VLOOP_CFG.EN = true ∧ s.monitors ≠ [] ∧ s.monitors.foldl (fun a x => max a x.2.2) 0 + 50 < s.f R.FAB_VLOOP_CFG.TARGET_PS ∧ 10 ≤ s.fab.lowRun + 1) ∧
    (∃ s : State, s.on R.FAB_VLOOP_CFG.EN = true ∧ s.monitors ≠ [] ∧ s.fab.vcore = vcoreCeil (s.f R.SYS_SPARE0.PHASE_ACTIVE) ∧ 953 ≤ s.monitors.foldl (fun a x => max a x.2.2) 0 ∧ 1000 < s.monitors.foldl (fun a x => max a x.2.2) 0) ∧
    (∃ s : State, s.monitors = []) ∧
    (∃ (s : State) (p : Fin 8), ∀ x ∈ s.spares.judged, x.1 ≠ p.val) ∧
    (∃ (s : State) (p : Fin 8) (l : List (List Nat)), s.spares.judged = l.map (fun c => (p.val, c))) ∧
    (∃ (s : State) (p : Fin 8) (clash cells : List Nat), s.spares.judged = [(p.val, cells)] ∧ cells.filter clash.contains = []) ∧
    (∃ (s : State) (p : Fin 8) (clash cells : List Nat) (c : Nat), s.spares.judged = [(p.val, cells)] ∧ cells.filter clash.contains = [c]) ∧
    (∃ (s : State) (el : Nat), (∀ x ∈ s.spares.passes, ¬ (x.cls = 1 ∧ x.el = el)) ∧ s.isRetired 1 el = false) ∧
    (∃ (s : State) (el : Nat), (∀ x ∈ s.spares.passes, ¬ (x.cls = 1 ∧ x.el = el)) ∧ s.isRetired 1 el = true) ∧
    (∃ (s : State) (p : Fin 8), s.f (R.FAB_GLN_WINDOW.CONFIRMED p) + 1 < 65) ∧
    (∃ (s : State) (p : Fin 8), 65 ≤ s.f (R.FAB_GLN_WINDOW.CONFIRMED p) + 1 ∧ s.power.step ≠ 0) ∧
    (∃ (s : State) (p : Fin 8), (∀ x ∈ s.spares.judged, x.1 ≠ p.val) ∧ 0x7FFF < s.f (R.FAB_BUF_TOTAL.TOTAL p) - s.cellSum p ∧ s.suspects p = [] ∧ s.underPass hcQueue p = false ∧ s.power.step ≠ 0) :=
  ⟨⟨z.setPlane 8 1, 7, 8, 63, by decide +kernel⟩,
   ⟨z, 7, 8, 63, by decide +kernel⟩,
   ⟨(z.setF R.FAB_VLOOP_CFG.EN 1).setF (R.FAB_SPEED.VALID 7 8) 1, by decide +kernel⟩,
   ⟨z.setF R.FAB_VLOOP_CFG.EN 0, by decide +kernel⟩,
   ⟨z, 7, by decide +kernel⟩,
   ⟨leak7.modFab (fun b => { b with suspects := [(7, [(5, 0)])] }), 7, 5, 0, by decide +kernel⟩,
   ⟨clash7.modPower (fun p => { p with step := 2 }), 7, by decide +kernel⟩,
   ⟨z.setPlane 8 1, 7, 8, 62, by decide +kernel⟩,
   ⟨((z.setF R.FAB_VLOOP_CFG.EN 1).setF (R.FAB_SPEED.VALID 7 8) 1).setF (R.FAB_SPEED.TOKEN_PS 7 8) 65535, by decide +kernel⟩,
   ⟨(z.setF R.FAB_VLOOP_CFG.EN 1).setF (R.FAB_SPEED.VALID 7 8) 1, by decide +kernel⟩,
   ⟨((z.setF R.FAB_VLOOP_CFG.EN 1).setF (R.FAB_SPEED.VALID 7 8) 1).modFab (fun b => { b with lowRun := 9 }), by decide +kernel⟩,
   ⟨(((z.setF R.FAB_VLOOP_CFG.EN 1).setF (R.FAB_SPEED.VALID 7 8) 1).setF (R.FAB_SPEED.TOKEN_PS 7 8) 1001).modFab (fun b => { b with vcore := vcoreCeil (((z.setF R.FAB_VLOOP_CFG.EN 1).setF (R.FAB_SPEED.VALID 7 8) 1).f R.SYS_SPARE0.PHASE_ACTIVE) }), by decide +kernel⟩,
   ⟨z, by decide +kernel⟩,
   ⟨{ z with spares := { z.spares with judged := [(6, [5])] } }, 7, by decide +kernel⟩,
   ⟨{ z with spares := { z.spares with judged := [(7, [5]), (7, [6])] } }, 7, [[5], [6]], by decide +kernel⟩,
   ⟨{ z with spares := { z.spares with judged := [(7, [5])] } }, 7, [], [5], by decide +kernel⟩,
   ⟨{ z with spares := { z.spares with judged := [(7, [5, 6])] } }, 7, [6], [5, 6], 6, by decide +kernel⟩,
   ⟨z, 5, by decide +kernel⟩,
   ⟨{ z with spares := { z.spares with retired := [(1, 5)] } }, 5, by decide +kernel⟩,
   ⟨z.setF (R.FAB_GLN_WINDOW.CONFIRMED 7) 63, 7, by decide +kernel⟩,
   ⟨(atStep 5).setF (R.FAB_GLN_WINDOW.CONFIRMED 7) 64, 7, by decide +kernel⟩,
   ⟨(atStep 5).setFresh 7 40000, 7, by decide +kernel⟩⟩

theorem test_witness_LinkEvents :
    (∃ (s : State) (n : Fin 256), s.portState n = 1 ∧ s.receiverGood n = true) ∧
    (∃ (s : State) (n : Fin 256) (x : Receiver), s.portState n = 2 ∧ x ≠ ⟨true, false, false, false⟩) ∧
    (∃ (s : State) (n : Fin 256) (x : Receiver), s.portUp n = false) ∧
    (∃ (s : State) (n : Fin 256) (x : Receiver), s.portUp n = true) :=
  ⟨⟨(z.setPortState 255 1).setF (R.PORT_STATUS.ALIGNED 255) 1, 255, by decide +kernel⟩,
   ⟨pup 255, 255, ⟨true, true, false, false⟩, by decide +kernel⟩,
   ⟨z.setPortState 255 1, 255, ⟨true, false, false, false⟩, by decide +kernel⟩,
   ⟨pup 255, 255, ⟨true, false, true, false⟩, by decide +kernel⟩⟩

theorem test_witness_RingFrames :
    (∃ (s : State) (n : Fin 256) (k : Nat) (f : Frame), s.portUp n = true ∧ s.ringOf n = some k ∧ f.etype ≠ 0x8808 ∧ 64 ≤ f.len ∧ f.etype = 0x892F) ∧
    (∃ (s : State) (k n : Nat) (f : Frame), s.nodeOf k f.src = none ∧ f.hsr = none ∧ f.etype ≠ 0x88F7) ∧
    (∃ (s : State) (k n : Nat) (f : Frame), s.nodeOf k f.src = none ∧ f.hsr ≠ none ∧ f.lsduOk = false) ∧
    (∃ (s : State) (k n : Nat) (f : Frame), ∃ q, s.nodeOf k f.src = none ∧ f.hsr = some q ∧ f.lsduOk = true) ∧
    (∃ (s : State) (k q : Nat) (a : Bool) (m : Mac), k < 128 ∧ q < 65536 ∧ s.dd (s.ddPlot k) = [] ∧ s.srcs (s.ddPlot k) = []) ∧
    (∃ (s : State) (k q : Nat) (a : Bool) (m : Mac) (e : DdEntry), k < 128 ∧ s.dd (s.ddPlot k) = [e] ∧ e.hits k m q = true ∧ e.sent = false ∧ (if a then e.seenA else e.seenB) = false) ∧
    (∃ (s : State) (k q : Nat) (a : Bool) (m : Mac) (e : DdEntry), k < 128 ∧ s.dd (s.ddPlot k) = [e] ∧ e.hits k m q = true ∧ e.sent = false ∧ (if a then e.seenA else e.seenB) = true) ∧
    (∃ (s : State) (k : Fin 128) (len : BitVec 14), s.ringOn k = true) ∧
    (∃ (s : State) (k : Fin 128) (j : Fin 17) (a : Bool), s.nodeValid k j = true) ∧
    (∃ (s : State) (k : Fin 128) (m : Mac) (q : BitVec 16) (e : DdEntry), s.ddFind k m q.toNat = some e ∧ e.seenA ≠ e.seenB ∧ e.counted = false ∧ s.nodeOf k m = none) ∧
    (∃ (s : State) (n : Fin 256) (src : Mac) (v : BitVec 12) (b : List Byte) (k : Nat) (i : Instr), i ∈ [.ringEventFrame n ⟨src, v, b⟩, .ringReplyFrame n ⟨src, v, b⟩, .ringJoinFrame n src v b] ∧ s.portUp n = false) ∧
    (∃ (s : State) (n : Fin 256) (src : Mac) (v : BitVec 12) (b : List Byte) (k : Nat) (i : Instr), i ∈ [.ringEventFrame n ⟨src, v, b⟩, .ringReplyFrame n ⟨src, v, b⟩, .ringJoinFrame n src v b] ∧ s.portUp n = true ∧ s.ringOf n = none) ∧
    (∃ (s : State) (n : Fin 256) (src : Mac) (v : BitVec 12) (b : List Byte) (k : Nat) (i : Instr), i ∈ [.ringEventFrame n ⟨src, v, b⟩, .ringReplyFrame n ⟨src, v, b⟩, .ringJoinFrame n src v b] ∧ s.portUp n = true ∧ (s.f R.FAB_FIELD_VLAN.VID = 0 ∨ (if v = 0 then s.f (R.FAB_PORTCFG.PVID (n.val / 32) (n.val % 32)) else v.toNat) ≠ s.f R.FAB_FIELD_VLAN.VID)) ∧
    (∃ (s : State) (n : Fin 256) (src : Mac) (v : BitVec 12) (b : List Byte) (k : Nat) (i : Instr), i ∈ [.ringEventFrame n ⟨src, v, b⟩, .ringReplyFrame n ⟨src, v, b⟩, .ringJoinFrame n src v b] ∧ s.portUp n = true ∧ s.ringOf n = some k ∧ s.f R.FAB_FIELD_VLAN.VID ≠ 0 ∧ (if v = 0 then s.f (R.FAB_PORTCFG.PVID (n.val / 32) (n.val % 32)) else v.toNat) = s.f R.FAB_FIELD_VLAN.VID ∧ (b.getD 0 0 ≠ 3 ∨ b.getD 1 0 ∉ [1, 2, 3])) ∧
    (∃ (s : State) (n : Fin 256) (src : Mac) (v : BitVec 12) (b : List Byte) (k : Nat) (i : Instr), i ∈ [.ringEventFrame n ⟨src, v, b⟩, .ringReplyFrame n ⟨src, v, b⟩, .ringJoinFrame n src v b] ∧ s.portUp n = true ∧ s.ringOf n = some k ∧ s.f R.FAB_FIELD_VLAN.VID ≠ 0 ∧ (if v = 0 then s.f (R.FAB_PORTCFG.PVID (n.val / 32) (n.val % 32)) else v.toNat) = s.f R.FAB_FIELD_VLAN.VID ∧ b.getD 0 0 = 3 ∧ b.getD 1 0 = 1) ∧
    (∃ (s : State) (n : Fin 256) (src : Mac) (v : BitVec 12) (b : List Byte) (k : Nat) (i : Instr), i ∈ [.ringEventFrame n ⟨src, v, b⟩, .ringReplyFrame n ⟨src, v, b⟩, .ringJoinFrame n src v b] ∧ s.portUp n = true ∧ s.ringOf n = some k ∧ s.f R.FAB_FIELD_VLAN.VID ≠ 0 ∧ (if v = 0 then s.f (R.FAB_PORTCFG.PVID (n.val / 32) (n.val % 32)) else v.toNat) = s.f R.FAB_FIELD_VLAN.VID ∧ b.getD 0 0 = 3 ∧ b.getD 1 0 = 2) ∧
    (∃ (s : State) (n : Fin 256) (src : Mac) (v : BitVec 12) (b : List Byte) (k : Nat) (i : Instr), ∃ j, i ∈ [.ringEventFrame n ⟨src, v, b⟩, .ringReplyFrame n ⟨src, v, b⟩, .ringJoinFrame n src v b] ∧ s.portUp n = true ∧ s.ringOf n = some k ∧ s.f R.FAB_FIELD_VLAN.VID ≠ 0 ∧ (if v = 0 then s.f (R.FAB_PORTCFG.PVID (n.val / 32) (n.val % 32)) else v.toNat) = s.f R.FAB_FIELD_VLAN.VID ∧ b.getD 0 0 = 3 ∧ b.getD 1 0 = 3 ∧ s.nodeOf k src = some j) ∧
    (∃ (s : State) (n : Fin 256) (src : Mac) (v : BitVec 12) (b : List Byte) (k : Nat) (i : Instr), i ∈ [.ringEventFrame n ⟨src, v, b⟩, .ringReplyFrame n ⟨src, v, b⟩, .ringJoinFrame n src v b] ∧ s.portUp n = true ∧ s.ringOf n = some k ∧ s.f R.FAB_FIELD_VLAN.VID ≠ 0 ∧ (if v = 0 then s.f (R.FAB_PORTCFG.PVID (n.val / 32) (n.val % 32)) else v.toNat) = s.f R.FAB_FIELD_VLAN.VID ∧ b.getD 0 0 = 3 ∧ b.getD 1 0 = 3 ∧ s.nodeOf k src = none) :=
  ⟨⟨ring0, 255, 0, { fr0 with etype := 0x892F }, by decide +kernel⟩,
   ⟨ring0, 0, 255, fr0, by decide +kernel⟩,
   ⟨ring0, 0, 255, { fr0 with hsr := some 65535 }, by decide +kernel⟩,
   ⟨ring0, 0, 255, { fr0 with hsr := some 65535, lsduOk := true }, 65535, by decide +kernel⟩,
   ⟨ring0, 0, 65535, true, 4, by decide +kernel⟩,
   ⟨{ ring0 with rings := { ring0.rings with dd := [(7, [dd0])] } }, 0, 65535, false, 4, dd0, by decide +kernel⟩,
   ⟨{ ring0 with rings := { ring0.rings with dd := [(7, [dd0])] } }, 0, 65535, true, 4, dd0, by decide +kernel⟩,
   ⟨ring0, 0, 16383, by decide +kernel⟩,
   ⟨ring0, 0, 16, true, by decide +kernel⟩,
   ⟨{ ring0 with rings := { ring0.rings with dd := [(7, [dd0])] } }, 0, 4, 65535, dd0, by decide +kernel⟩,
   ⟨z, 255, 0, 5, ebody 3 1, 0, .ringEventFrame 255 ⟨0, 5, (ebody 3 1)⟩, by decide +kernel⟩,
   ⟨pup 255, 255, 0, 5, ebody 3 2, 0, .ringReplyFrame 255 ⟨0, 5, (ebody 3 2)⟩, by decide +kernel⟩,
   ⟨ringF, 255, 0, 0, ebody 3 3, 0, .ringJoinFrame 255 0 0 (ebody 3 3), by decide +kernel⟩,
   ⟨ringF, 255, 0, 5, ebody 3 4, 0, .ringReplyFrame 255 ⟨0, 5, (ebody 3 4)⟩, by decide +kernel⟩,
   ⟨ringF, 255, 0, 5, ebody 3 1, 0, .ringReplyFrame 255 ⟨0, 5, (ebody 3 1)⟩, by decide +kernel⟩,
   ⟨ringF, 255, 0, 5, ebody 3 2, 0, .ringEventFrame 255 ⟨0, 5, (ebody 3 2)⟩, by decide +kernel⟩,
   ⟨ringF, 255, 0, 5, ebody 3 3, 0, .ringJoinFrame 255 0 5 (ebody 3 3), 16, by decide +kernel⟩,
   ⟨ringF, 255, 4, 5, ebody 3 3, 0, .ringEventFrame 255 ⟨4, 5, (ebody 3 3)⟩, by decide +kernel⟩⟩

theorem test_witness_TimeBase :
    (∃ s : State, s.reaches R.TIME_NOW0.reg.blk R.TIME_NOW0.reg.off false = true) ∧
    (∃ s : State, s.reaches (R.TIME_PPS_IN.reg 0).blk (R.TIME_PPS_IN.reg 0).off false = true) ∧
    (∃ (s : State) (p : Fin 8), s.reaches (R.TIME_TS_DATA123.reg p 2).blk (R.TIME_TS_DATA123.reg p 2).off false = true ∧ s.tsDry p = 0) ∧
    (∃ (s : State) (p : Fin 8), s.reaches (R.TIME_TS_DATA123.reg p 2).blk (R.TIME_TS_DATA123.reg p 2).off false = true ∧ 0 < s.tsDry p) ∧
    (∃ (s : State) (v : DWord), s.reaches R.TIME_INCR_LO.reg.blk R.TIME_INCR_LO.reg.off true = true) ∧
    (∃ s : State, s.reaches R.TIME_CMD.reg.blk R.TIME_CMD.reg.off true = true ∧ s.time.slewLeft = 0) ∧
    (∃ (s : State) (ns : Int), s.time.slewLeft = ns * 4294967296 * 1000000 ∧ 0 < ns ∧ 0 < s.time.slewTick) ∧
    (∃ s : State, s.time.slewLeft = 0) ∧
    (∃ s : State, s.time.slewLeft ≠ 0) :=
  ⟨⟨clk z, by decide +kernel⟩,
   ⟨clk z, by decide +kernel⟩,
   ⟨clk z, 7, by decide +kernel⟩,
   ⟨{ clk z with time := { z.time with tsDry := [(7, 3)] } }, 7, by decide +kernel⟩,
   ⟨clk z, 0xFFFFFFFFFFFFFFFF, by decide +kernel⟩,
   ⟨clk z, by decide +kernel⟩,
   ⟨{ z with time := { z.time with slewLeft := 5 * 4294967296 * 1000000, slewTick := 1 } }, 5, by decide +kernel⟩,
   ⟨z, by decide +kernel⟩,
   ⟨{ z with time := { z.time with slewLeft := -1 } }, by decide +kernel⟩⟩

theorem test_witness_TimeSteps :
    (∃ s : State, s.reaches R.TIME_CMD.reg.blk R.TIME_CMD.reg.off true = true) ∧
    (∃ (s : State) (v : Nat), v < tbWrap) ∧
    (∃ s : State, s.time.slewLeft = 0) ∧
    (∃ s : State, s.reaches R.TIME_CMD.reg.blk R.TIME_CMD.reg.off true = true ∧ s.spares.installs = []) ∧
    (∃ (s : State) (v : Nat), v < tbWrap ∧ s.fe.intakeOpen = true ∧ s.intakeLevel + 16 ≤ 65536 ∧ canonical listDefault s.fe.lists) ∧
    (∃ (s : State) (v : Nat), v < tbWrap ∧ stampUnits (s.timeStep v).now ≤ stampUnits s.now) ∧
    (∃ (s : State) (v c : Nat), v < tbWrap ∧ c < 8 ∧ ((s.ctx c).st = .pending ∧ (s.ctx c).loaded = true ∧ stampUnits s.now < stampUnits (s.ctx c).when_ ∧ stampUnits (s.ctx c).when_ < stampUnits (s.timeStep v).now)) ∧
    (∃ (s : State) (v c : Nat), v < tbWrap ∧ c < 8 ∧ ¬ ((s.ctx c).st = .pending ∧ (s.ctx c).loaded = true ∧ stampUnits s.now < stampUnits (s.ctx c).when_ ∧ stampUnits (s.ctx c).when_ < stampUnits (s.timeStep v).now)) ∧
    (∃ (s : State) (n : Nat), s.wholeSeconds n = []) :=
  ⟨⟨clk z, by decide +kernel⟩,
   ⟨z, tbWrap - 1, by decide +kernel⟩,
   ⟨z, by decide +kernel⟩,
   ⟨clk z, by decide +kernel⟩,
   ⟨{ z with fe := { z.fe with intakeOpen := true } }, 5, by decide, by decide +kernel, by decide +kernel, by show swf _ _ = true; decide +kernel⟩,
   ⟨tAt (5 * tbSec) z, 4 * tbSec, by decide +kernel⟩,
   ⟨ctx0 { fw .pending with timed := true, loaded := true, when_ := mkStamp 1 0 0 }, 2 * tbSec, 0, by decide +kernel⟩,
   ⟨z, 2 * tbSec, 7, by decide +kernel⟩,
   ⟨z, 5, by decide +kernel⟩⟩

theorem test_witness_TimeService :
    (∃ (s : State) (src : TimeSource) (off : DWord) (utc : Word), s.admits src = false) ∧
    (∃ (s : State) (src : TimeSource) (off : DWord) (utc : Word), s.admits src = true ∧ s.selects src = false) ∧
    (∃ (s : State) (src : TimeSource) (off : DWord) (utc : Word), s.admits src = true ∧ s.selects src = true ∧ s.sync = 0) ∧
    (∃ (s : State) (src : TimeSource) (off : DWord) (utc : Word), s.admits src = true ∧ s.selects src = true ∧ (s.sync = 1 ∨ s.sync = 2) ∧ (off.toInt) < -100000) ∧
    (∃ (s : State) (src : TimeSource) (off : DWord) (utc : Word), s.admits src = true ∧ s.selects src = true ∧ (s.sync = 1 ∨ s.sync = 2) ∧ 100000 < (off.toInt)) ∧
    (∃ (s : State) (src : TimeSource) (off : DWord) (utc : Word), s.admits src = true ∧ s.selects src = true ∧ (s.sync = 1 ∨ s.sync = 2) ∧ -100000 ≤ (off.toInt) ∧ (off.toInt) ≤ 100000) ∧
    (∃ (s : State) (src : TimeSource) (off : DWord) (utc : Word), s.admits src = true ∧ s.selects src = true ∧ s.sync = 1 ∧ -1000 ≤ (off.toInt) ∧ (off.toInt) ≤ 1000 ∧ s.time.run = 15) ∧
    (∃ (s : State) (src : TimeSource) (off : DWord) (utc : Word), s.admits src = true ∧ s.selects src = true ∧ s.sync = 1 ∧ -1000 ≤ (off.toInt) ∧ (off.toInt) ≤ 1000 ∧ s.time.run < 15) ∧
    (∃ (s : State) (src : TimeSource) (off : DWord) (utc : Word), s.admits src = true ∧ s.selects src = true ∧ s.sync = 2 ∧ ((off.toInt) < -1000 ∨ 1000 < (off.toInt)) ∧ -100000 ≤ (off.toInt) ∧ (off.toInt) ≤ 100000 ∧ s.time.run = 15) ∧
    (∃ (s : State) (src : TimeSource) (off : DWord) (utc : Word), s.admits src = true ∧ s.selects src = true ∧ s.sync = 4 ∧ s.time.confirms = 2 ∧ s.time.suspect - 10000 ≤ (off.toInt) ∧ (off.toInt) ≤ s.time.suspect + 10000) ∧
    (∃ (s : State) (n : Nat), (s.sync = 1 ∨ s.sync = 2 ∨ s.sync = 4) ∧ s.otherSource = some n) ∧
    (∃ s : State, (s.sync = 1 ∨ s.sync = 2 ∨ s.sync = 4) ∧ s.otherSource = none) ∧
    (∃ s : State, (s.sync = 0 ∨ s.sync = 3)) ∧
    (∃ (s : State) (n : Nat) (f : Frame), f.isAnnounce = false) ∧
    (∃ (s : State) (n : Nat) (f : Frame), f.isAnnounce = true ∧ s.ptpOn n = false) ∧
    (∃ (s : State) (n : Nat) (f : Frame), f.isAnnounce = true ∧ s.ptpOn n = true) :=
  ⟨⟨z, .ptp 255 true 24, 0, 0, by decide +kernel⟩,
   ⟨((adm 2).setF R.TIME_SRC_CFG.MODE 3).setSource 0x100, .ptp 255 true 43, 0, 0, by decide +kernel⟩,
   ⟨adm 0, .ptp 255 true 24, 0, 0, by decide +kernel⟩,
   ⟨adm 1, .ptp 255 true 24, -100001, 0, by decide +kernel⟩,
   ⟨adm 2, .ptp 255 true 24, 100001, 0, by decide +kernel⟩,
   ⟨adm 2, .ptp 255 true 24, 100000, 0, by decide +kernel⟩,
   ⟨{ adm 1 with time := { (adm 1).time with run := 15 } }, .ptp 255 true 24, -1000, 0, by decide +kernel⟩,
   ⟨{ adm 1 with time := { (adm 1).time with run := 14 } }, .ptp 255 true 24, 1000, 0, by decide +kernel⟩,
   ⟨{ adm 2 with time := { (adm 2).time with run := 15 } }, .ptp 255 true 24, 1001, 0, by decide +kernel⟩,
   ⟨{ adm 4 with time := { (adm 4).time with confirms := 2, suspect := 200000 } }, .ptp 255 true 24, 190000, 0, by decide +kernel⟩,
   ⟨((adm 4).setF R.TIME_SRC_CFG.MODE 2).setOther (some 0x100), 0x100, by decide +kernel⟩,
   ⟨adm 4, by decide +kernel⟩,
   ⟨adm 3, by decide +kernel⟩,
   ⟨z, 255, fr0, by decide +kernel⟩,
   ⟨z, 255, { fr0 with etype := 0x88F7, body := [0x0B, 2] ++ List.replicate 62 0 }, by decide +kernel⟩,
   ⟨adm 0, 255, { fr0 with etype := 0x88F7, body := [0x0B, 2] ++ List.replicate 62 0 }, by decide +kernel⟩⟩

theorem test_witness_SyncESignals :
    (∃ (s : State) (i : Fin 4) (ql : Byte), ∃ n : Fin 256, s.on (R.TIME_SYNCE_SRC.VALID i) = true ∧ (∀ j : Fin 4, j < i → s.on (R.TIME_SYNCE_SRC.VALID j) = false) ∧ s.f (R.TIME_SYNCE_SRC.PORT i) = n ∧ s.portUp n = true ∧ (Config.qlUsable ql.toNat = true ∨ i.val ∉ s.synceCandidates)) ∧
    (∀ q : Nat, Config.qlUsable q = true → Config.qlUsable 255 = false → ∃ (s : State) (i : Fin 4) (ql : Byte), ∃ n : Fin 256, s.on (R.TIME_SYNCE_SRC.VALID i) = true ∧ (∀ j : Fin 4, j < i → s.on (R.TIME_SYNCE_SRC.VALID j) = false) ∧ s.f (R.TIME_SYNCE_SRC.PORT i) = n ∧ s.portUp n = true ∧ Config.qlUsable ql.toNat = false ∧ i.val ∈ s.synceCandidates) ∧
    (∃ (s : State) (n : Fin 256) (ql : Byte), s.portUp n = false) ∧
    (∃ s : State, s.on R.TIME_SYNCE_CFG.EN = true ∧ s.synceCandidates = []) ∧
    (∃ (s : State) (l : List Byte), todGood l = true ∧ s.f R.TIME_SYNC.SRC = 2 ∧ (l.getD 11 0).getLsbD 2 = true) ∧
    (∃ (s : State) (l : List Byte), (todGood l = false ∨ s.f R.TIME_SYNC.SRC ≠ 2)) ∧
    (∃ s : State, s.f R.TIME_SRC_CFG.MODE ≠ 0 ∧ s.f R.TIME_SYNC.SRC = 2) ∧
    (∃ s : State, s.f R.TIME_SRC_CFG.MODE ≠ 0 ∧ s.f R.TIME_SYNC.SRC ≠ 2 ∧ s.time.other = some 0x100) ∧
    (∃ s : State, s.f R.TIME_SRC_CFG.MODE ≠ 0 ∧ s.f R.TIME_SYNC.SRC ≠ 2 ∧ s.time.other ≠ some 0x100) ∧
    (∃ s : State, s.f R.TIME_SRC_CFG.MODE = 0) ∧
    (∃ s : State, s.on R.TIME_PPS_CFG.OUT_EN = true ∧ (s.on R.TIME_PPS_CFG.FORCE = true ∨ s.sync = 2 ∨ s.sync = 3) ∧ s.on R.TIME_PPS_CFG.TOD_EN = false) ∧
    (∃ s : State, s.on R.TIME_PPS_CFG.OUT_EN = true ∧ (s.on R.TIME_PPS_CFG.FORCE = true ∨ s.sync = 2 ∨ s.sync = 3) ∧ s.on R.TIME_PPS_CFG.TOD_EN = true) ∧
    (∃ s : State, s.on R.TIME_PPS_CFG.OUT_EN = false) :=
  ⟨⟨synce3, 3, 0, 255, by decide +kernel, by decide +kernel, by decide +kernel, by decide +kernel, Or.inr (by decide +kernel)⟩,
   fun q h1 h2 => ⟨{ synce3 with time := { z.time with synceQl := [(3, q + 1)] } }, 3, 255, 255,
    (by decide +kernel : synce3.on (R.TIME_SYNCE_SRC.VALID 3) = true), (by decide +kernel : ∀ j : Fin 4, j < 3 → synce3.on (R.TIME_SYNCE_SRC.VALID j) = false),
    (by decide +kernel : synce3.f (R.TIME_SYNCE_SRC.PORT 3) = 255), (by decide +kernel : synce3.portUp 255 = true), h2,
    List.mem_filter.mpr ⟨by decide, by show (synce3.on (R.TIME_SYNCE_SRC.VALID 3) && true && true && Config.qlUsable q) = true; rw [h1]; decide +kernel⟩⟩,
   ⟨z, 255, 0, by decide +kernel⟩,
   ⟨z.setF R.TIME_SYNCE_CFG.EN 1, by decide +kernel⟩,
   ⟨z.setF R.TIME_SYNC.SRC 2, [0x5A, 0xA5, 1, 0, 0, 0, 0, 0, 0, 0, 0, 4, 0, 0, 0x4C, 0x5B], by decide +kernel⟩,
   ⟨z, [], by decide +kernel⟩,
   ⟨(z.setF R.TIME_SRC_CFG.MODE 2).setF R.TIME_SYNC.SRC 2, by decide +kernel⟩,
   ⟨(z.setF R.TIME_SRC_CFG.MODE 2).setOther (some 0x100), by decide +kernel⟩,
   ⟨z.setF R.TIME_SRC_CFG.MODE 1, by decide +kernel⟩,
   ⟨z, by decide +kernel⟩,
   ⟨(z.setF R.TIME_PPS_CFG.TOD_EN 0).setF R.TIME_SYNC.STATE 3, by decide +kernel⟩,
   ⟨z.setF R.TIME_SYNC.STATE 2, by decide +kernel⟩,
   ⟨z.setF R.TIME_PPS_CFG.OUT_EN 0, by decide +kernel⟩⟩

theorem test_witness_LaunchCalendar :
    (∃ (s : State) (n : Fin 131072) (e : CalEntry), s.calE n = some e ∧ e.path ≠ 0 ∧ s.fetchDue e = true ∧ e.copies.all (fun c => c.st ≠ .waiting || s.storeRoom c.egress) = true ∧ e.copies.all (fun c => (match c.egress with | .radio _ => true | .can _ => true | .stage _ => true | _ => false)) = true) ∧
    (∃ (s : State) (n : Fin 131072) (k : Fin 2) (e : CalEntry) (c : Copy), s.calE n = some e ∧ e.copies[k.val]? = some c ∧ c.st = .fetched ∧ (∀ j, c.egress ≠ .chain j) ∧ (∀ p, c.egress = .port p → (s.portCopy n p).isSome = true)) ∧
    (∃ (s : State) (n : Fin 131072) (k : Fin 2) (e : CalEntry) (c : Copy) (p : Nat), ∃ x, s.calE n = some e ∧ e.copies[k.val]? = some c ∧ c.egress = .port p ∧ s.copyDue e c = true ∧ s.ringOn (getBits e.addr 16 7) = true ∧ s.portUp p = true ∧ s.portCopy n p = some x) ∧
    (∃ (s : State) (n : Fin 131072) (k : Fin 2) (e : CalEntry) (c : Copy) (p : Nat), s.calE n = some e ∧ e.copies[k.val]? = some c ∧ c.egress = .port p ∧ s.copyDue e c = true ∧ s.ringOn (getBits e.addr 16 7) = true ∧ s.portUp p = true ∧ s.portCopy n p = none) ∧
    (∃ (s : State) (n : Fin 131072) (k : Fin 2) (e : CalEntry) (c : Copy) (p : Nat), ∃ x, s.calE n = some e ∧ e.copies[k.val]? = some c ∧ c.egress = .port p ∧ s.copyDue e c = true ∧ s.ringOn (getBits e.addr 16 7) = true ∧ s.portUp p = false ∧ s.portCopy n p = some x) ∧
    (∃ (s : State) (n : Fin 131072) (k : Fin 2) (e : CalEntry) (c : Copy) (p : Nat), s.calE n = some e ∧ e.copies[k.val]? = some c ∧ c.egress = .port p ∧ s.copyDue e c = true ∧ s.ringOn (getBits e.addr 16 7) = true ∧ s.portUp p = false ∧ s.portCopy n p = none) ∧
    (∃ (s : State) (n : Fin 131072) (k : Fin 2) (e : CalEntry) (c : Copy) (p : Nat), s.calE n = some e ∧ e.copies[k.val]? = some c ∧ c.egress = .port p ∧ s.copyDue e c = true ∧ s.ringOn (getBits e.addr 16 7) = false ∧ s.portCopy n p = none) ∧
    (∃ (s : State) (n : Fin 131072) (k : Fin 2) (e : CalEntry) (c : Copy) (p : Nat), ∃ x, s.calE n = some e ∧ e.copies[k.val]? = some c ∧ c.egress = .port p ∧ s.copyDue e c = true ∧ s.ringOn (getBits e.addr 16 7) = false ∧ s.portCopy n p = some x) ∧
    (∃ (s : State) (n : Fin 131072) (k : Fin 2) (e : CalEntry) (c : Copy) (p : Nat), s.calE n = some e ∧ e.copies[k.val]? = some c ∧ c.egress = .port p ∧ s.copyDue e c = false ∧ s.copyLost n e c = false) ∧
    (∃ (s : State) (n : Fin 131072) (k : Fin 2) (e : CalEntry) (c : Copy) (p : Nat), s.calE n = some e ∧ e.copies[k.val]? = some c ∧ c.egress = .port p ∧ s.copyDue e c = false ∧ s.copyLost n e c = true) ∧
    (∃ (s : State) (e : CalEntry) (c : Copy) (p : Nat), c.egress = .port p ∧ c.st = .unarmed ∧ s.mayStart p (fieldLen (s.f R.FAB_FIELD_VLAN.VID) e.body.payload.length) = false) ∧
    (∃ (s : State) (e : CalEntry) (c : Copy), e.ep < 131072 ∧ s.sameTarget e = true ∧ e.body.code = 0x01 ∧ e.body.level < 1024) ∧
    (∃ (s : State) (e : CalEntry) (c : Copy), e.ep < 131072 ∧ s.handleOpen e.body.handle = true ∧ (s.hslot (slotOf e.body.handle)).st = .placed ∧ (!e.immediate && decide (stampUnits c.launch + s.precision c.egress * 65536 < stampUnits s.now)) = true) ∧
    (∃ (s : State) (e : CalEntry) (c : Copy), e.ep < 131072 ∧ s.handleOpen e.body.handle = true ∧ (s.hslot (slotOf e.body.handle)).st = .placed ∧ (e.path = 3 ∨ e.body.noReply = true)) ∧
    (∃ (s : State) (e : CalEntry) (c : Copy), e.ep < 131072 ∧ s.handleOpen e.body.handle = true ∧ (s.hslot (slotOf e.body.handle)).st = .placed ∧ e.path ≠ 3 ∧ e.body.noReply = false) ∧
    (∃ (s : State) (n : Nat) (e : CalEntry) (c : Copy), e.copies = [c] ∧ e.launched = false ∧ s.sameTarget e = false ∧ s.handleOpen e.body.handle = true ∧ (s.hslot (slotOf e.body.handle)).st = .placed) ∧
    (∃ (s : State) (k : Fin 128) (j : Fin 16) (a b : BitVec 20), s.nodeValid k j = true) ∧
    (∃ (s : State) (n : Fin 131072) (e : CalEntry), s.calE n = some e ∧ s.fetchDue e = true ∧ e.copies.all (fun c => c.st ≠ .waiting || s.storeRoom c.egress) = true ∧ e.path = 0 ∧ e.hsr = none ∧ e.copies.all (fun c => (match c.egress with | .port _ => true | _ => false)) = true ∧ e.copies.any (fun c => c.st = .waiting) = true) ∧
    (∃ (c : Copy) (j : Nat) (s : State) (n : Fin 131072) (e : CalEntry), s.calE n = some e ∧ s.fetchDue e = true ∧ e.copies.all (fun c => c.st ≠ .waiting || s.storeRoom c.egress) = true ∧ e.path ≠ 0 ∧ e.copies = [c] ∧ c.egress = .chain j ∧ c.st = .waiting ∧ (n.val, 0) ∉ (s.chainAt j).fetched) ∧
    (∃ (s : State) (n : Fin 131072), s.calE n = none) ∧
    (∃ (s : State) (n : Fin 131072) (e : CalEntry), s.calE n = some e ∧ e.copies.any Copy.stored = false ∧ s.fetchDue e = false) ∧
    (∃ (s : State) (n : Fin 131072) (e : CalEntry), s.calE n = some e ∧ e.copies.any Copy.stored = false ∧ e.copies.all (fun c => c.st ≠ .waiting || s.storeRoom c.egress) = false) ∧
    (∃ (s : State) (n : Fin 131072) (k : Fin 2) (e : CalEntry) (c : Copy) (j : Nat), s.calE n = some e ∧ e.copies[k.val]? = some c ∧ c.egress = .chain j) ∧
    (∃ (s : State) (n : Fin 131072) (k : Fin 2) (e : CalEntry) (c : Copy) (j : Nat), s.calE n = some e ∧ e.copies[k.val]? = some c ∧ s.copyDue e c = true ∧ c.egress = .radio j) ∧
    (∃ (s : State) (n : Fin 131072) (k : Fin 2) (e : CalEntry) (c : Copy) (j : Nat), s.calE n = some e ∧ e.copies[k.val]? = some c ∧ s.copyDue e c = true ∧ c.egress = .can j) ∧
    (∃ (s : State) (n : Fin 131072) (k : Fin 2) (e : CalEntry) (c : Copy) (j : Nat), s.calE n = some e ∧ e.copies[k.val]? = some c ∧ s.copyDue e c = true ∧ c.egress = .stage j) ∧
    (∃ (s : State) (n : Fin 131072) (k : Fin 2) (e : CalEntry) (c : Copy), s.calE n = some e ∧ e.copies[k.val]? = some c ∧ s.copyDue e c = false ∧ (∀ j, c.egress ≠ .chain j) ∧ (∀ p, c.egress ≠ .port p)) :=
  ⟨⟨cals z { cal0 [cp (.radio 0) .waiting] with path := 1 }, 131071, { cal0 [cp (.radio 0) .waiting] with path := 1 }, by decide +kernel⟩,
   ⟨cals (withTx z) (cal0 [cp (.port 254) .fetched, cp (.port 255) .fetched]), 131071, 1, cal0 [cp (.port 254) .fetched, cp (.port 255) .fetched], cp (.port 255) .fetched, by decide +kernel, by decide +kernel, by decide +kernel,
    (by intro j h; cases h), by intro p h; cases h; decide +kernel⟩,
   ⟨cals (withTx ring0) (cal0 [cp (.port 254) .left, cp (.port 255) .unarmed]), 131071, 1, cal0 [cp (.port 254) .left, cp (.port 255) .unarmed], cp (.port 255) .unarmed, 255, txc, by decide +kernel⟩,
   ⟨cals (ring0) (cal0 [cp (.port 254) .left, cp (.port 255) .unarmed]), 131071, 1, cal0 [cp (.port 254) .left, cp (.port 255) .unarmed], cp (.port 255) .unarmed, 255, by decide +kernel⟩,
   ⟨cals (withTx (ring0.setPortState 255 0)) (cal0 [cp (.port 254) .left, cp (.port 255) .unarmed]), 131071, 1, cal0 [cp (.port 254) .left, cp (.port 255) .unarmed], cp (.port 255) .unarmed, 255, txc, by decide +kernel⟩,
   ⟨cals (ring0.setPortState 255 0) (cal0 [cp (.port 254) .left, cp (.port 255) .unarmed]), 131071, 1, cal0 [cp (.port 254) .left, cp (.port 255) .unarmed], cp (.port 255) .unarmed, 255, by decide +kernel⟩,
   ⟨cals (z) (cal0 [cp (.port 254) .left, cp (.port 255) .unarmed]), 131071, 1, cal0 [cp (.port 254) .left, cp (.port 255) .unarmed], cp (.port 255) .unarmed, 255, by decide +kernel⟩,
   ⟨cals (withTx z) (cal0 [cp (.port 254) .left, cp (.port 255) .unarmed]), 131071, 1, cal0 [cp (.port 254) .left, cp (.port 255) .unarmed], cp (.port 255) .unarmed, 255, txc, by decide +kernel⟩,
   ⟨cals (withTx z) (cal0 [cp (.port 255) .fetched]), 131071, 0, cal0 [cp (.port 255) .fetched], cp (.port 255) .fetched, 255, by decide +kernel⟩,
   ⟨cals (z) (cal0 [cp (.port 255) .fetched]), 131071, 0, cal0 [cp (.port 255) .fetched], cp (.port 255) .fetched, 255, by decide +kernel⟩,
   ⟨busy0 z, cal0 [], cp (.port 0) .unarmed, 0, by decide +kernel⟩,
   ⟨z.setEp 131071 EP.VALID 1, cal0 [], cp (.radio 0) .left, by decide +kernel⟩,
   ⟨placed |> tAt (tbSec), { cal0 [] with immediate := false }, cp (.radio 0) .left, by decide +kernel⟩,
   ⟨placed, { cal0 [] with path := 3 }, cp (.radio 0) .left, by decide +kernel⟩,
   ⟨placed, cal0 [], cp (.radio 0) .left, by decide +kernel⟩,
   ⟨placed, 131071, cal0 [cp (.radio 0) .left], cp (.radio 0) .left, by decide +kernel⟩,
   ⟨z.setF (R.RING_NODE_MAC_HI.VALID 127 15) 1, 127, 15, 0, 0xFFFFF, by decide +kernel⟩,
   ⟨cals ring0 (cal0 [cp (.port 254) .waiting, cp (.port 255) .waiting]), 131071, cal0 [cp (.port 254) .waiting, cp (.port 255) .waiting], by decide +kernel⟩,
   ⟨cp (.chain 3) .waiting, 3, cals z { cal0 [cp (.chain 3) .waiting] with path := 1 }, 131071, { cal0 [cp (.chain 3) .waiting] with path := 1 }, by decide +kernel⟩,
   ⟨z, 131071, by decide +kernel⟩,
   ⟨cals z { cal0 [{ cp (.radio 0) .waiting with launch := mkStamp 100 0 0 }] with immediate := false }, 131071, { cal0 [{ cp (.radio 0) .waiting with launch := mkStamp 100 0 0 }] with immediate := false }, by decide +kernel⟩,
   ⟨cals (canP z (List.replicate 64 ctxf)) { cal0 [cp (.can 7) .waiting] with path := 2 }, 131071, { cal0 [cp (.can 7) .waiting] with path := 2 }, by decide +kernel⟩,
   ⟨cals z { cal0 [cp (.chain 3) .unarmed] with path := 1 }, 131071, 0, { cal0 [cp (.chain 3) .unarmed] with path := 1 }, cp (.chain 3) .unarmed, 3, by decide +kernel⟩,
   ⟨cals (rad0 2) { cal0 [cp (.radio 0) .unarmed] with path := 1 }, 131071, 0, { cal0 [cp (.radio 0) .unarmed] with path := 1 }, cp (.radio 0) .unarmed, 0, by decide +kernel⟩,
   ⟨cals can7f { cal0 [cp (.can 7) .unarmed] with path := 1 }, 131071, 0, { cal0 [cp (.can 7) .unarmed] with path := 1 }, cp (.can 7) .unarmed, 7, by decide +kernel⟩,
   ⟨cals z { cal0 [cp (.stage 5) .unarmed] with path := 1 }, 131071, 0, { cal0 [cp (.stage 5) .unarmed] with path := 1 }, cp (.stage 5) .unarmed, 5, by decide +kernel⟩,
   ⟨cals z { cal0 [cp (.radio 0) .fetched] with path := 1 }, 131071, 0, { cal0 [cp (.radio 0) .fetched] with path := 1 }, cp (.radio 0) .fetched, by decide +kernel, by decide +kernel, by decide +kernel, (fun j h => by cases h), fun p h => by cases h⟩⟩

theorem test_witness_HarrowPasses :
    (∃ (s : State) (cls el : Nat), s.power.step = 0) ∧
    (∃ (s : State) (cls el : Nat), s.power.step ≠ 0 ∧ s.underPass cls el = true) ∧
    (∃ (s : State) (cls el : Nat), s.power.step ≠ 0 ∧ s.underPass cls el = false ∧ (cls = 6 ∨ s.recentTransients cls el < 7)) ∧
    (∃ (s : State) (cls el : Nat), s.power.step ≠ 0 ∧ s.underPass cls el = false ∧ cls ≠ 6 ∧ 7 ≤ s.recentTransients cls el ∧ s.errorFallow cls el = false) ∧
    (∃ (s : State) (cls el : Nat), s.power.step ≠ 0 ∧ s.underPass cls el = false ∧ cls ≠ 6 ∧ 7 ≤ s.recentTransients cls el ∧ s.errorFallow cls el = true) ∧
    (∃ (s : State) (cls el : Nat), cls ≠ 4) ∧
    (∃ (s : State) (k : Fin 9) (l : List (Nat × Nat × Nat)), s.plane k = plActive) ∧
    (∃ (s : State) (k : Fin 9) (l : List (Nat × Nat × Nat)), s.plane k ≠ plActive ∧ s.underPass 0 k = true) ∧
    (∃ (s : State) (k : Fin 9) (l : List (Nat × Nat × Nat)), s.plane k ≠ plActive ∧ s.underPass 0 k = false) ∧
    (∃ (s : State) (k : Fin 9) (l : List (Nat × Nat × Nat)), s.plane k = plFallow ∧ s.activePlanes.length < 8) ∧
    (∃ (s : State) (k : Fin 9) (l : List (Nat × Nat × Nat)), (s.plane k ≠ plFallow ∨ 8 ≤ s.activePlanes.length)) ∧
    (∃ (s : State) (p : Fin 8) (bank : Fin 9) (row : Fin 192), ((s.spares.corrected.filter (fun x => decide (s.opTotal < x.2 + secTicks))).filter (fun x => x.1 == (p.val * 65536 + bank.val * 4096 + row.val))).length < 2) ∧
    (∃ (s : State) (p : Fin 8) (bank : Fin 9) (row : Fin 192), 2 ≤ ((s.spares.corrected.filter (fun x => decide (s.opTotal < x.2 + secTicks))).filter (fun x => x.1 == (p.val * 65536 + bank.val * 4096 + row.val))).length) ∧
    (∃ (s : State) (p : Fin 8) (bank : Fin 9) (row : Fin 192), ∃ i f, s.fabFrame i = some f) ∧
    (∃ (s : State) (cls : Fin 7) (el : BitVec 24) (lost : Option (List (BitVec 64))), (∀ x ∈ s.spares.passes, ¬(x.cls = cls.val ∧ x.el = el.toNat))) ∧
    (∃ (s : State) (cls : Fin 7) (el : BitVec 24) (x : Pass) (bad : List (BitVec 64)), s.spares.passes.find? (fun y => y.cls == cls.val && y.el == el.toNat) = some x ∧ s.power.step = 0) ∧
    (∃ (s : State) (cls : Fin 7) (el : BitVec 24) (x : Pass) (bad : List (BitVec 64)), s.spares.passes.find? (fun y => y.cls == cls.val && y.el == el.toNat) = some x ∧ s.power.step ≠ 0 ∧ cls.val ≠ 6 ∧ x.fallow = false) ∧
    (∃ (s : State) (cls : Fin 7) (el : BitVec 24) (x : Pass) (bad : List (BitVec 64)), s.spares.passes.find? (fun y => y.cls == cls.val && y.el == el.toNat) = some x ∧ s.power.step ≠ 0 ∧ cls.val ≠ 6 ∧ x.fallow = true) ∧
    (∃ (s : State) (cls : Fin 7) (el : BitVec 24) (x : Pass) (bad : List (BitVec 64)), s.spares.passes.find? (fun y => y.cls == cls.val && y.el == el.toNat) = some x ∧ s.power.step ≠ 0 ∧ cls.val = 6) ∧
    (∃ (s : State) (cls el : Nat), cls < 7 ∧ el < 2 ^ 24) ∧
    (∃ (s : State) (cls el : Nat), cls < 6 ∧ el < 2 ^ 24) :=
  ⟨⟨z, 6, 7, by decide +kernel⟩,
   ⟨{ atStep 2 with spares := { z.spares with retired := [(0, 8)] } }, 0, 8, by decide +kernel⟩,
   ⟨atStep 2, 6, 7, by decide +kernel⟩,
   ⟨{ atStep 2 with spares := { z.spares with transients := List.replicate 7 (0, 8, 0) } }, 0, 8, by decide +kernel⟩,
   ⟨{ atStep 2 with spares := { z.spares with transients := List.replicate 7 (4, 8447, 0) } }, 4, 8447, by decide +kernel⟩,
   ⟨z, 5, 0, by decide +kernel⟩,
   ⟨z.setPlane 8 1, 8, [], by decide +kernel⟩,
   ⟨{ z with spares := { z.spares with passes := [⟨0, 8, false⟩] } }, 8, [(0, 0, 0)], by decide +kernel⟩,
   ⟨z, 8, [], by decide +kernel⟩,
   ⟨z.setPlane 8 2, 8, [], by decide +kernel⟩,
   ⟨z, 8, [], by decide +kernel⟩,
   ⟨z, 7, 8, 191, by decide +kernel⟩,
   ⟨{ z with spares := { z.spares with corrected := [(7 * 65536 + 8 * 4096 + 191, 0), (7 * 65536 + 8 * 4096 + 191, 0)] } }, 7, 8, 191, by decide +kernel⟩,
   ⟨z.setFrame 0 (some ff0), 7, 8, 191, 0, ff0, by decide +kernel⟩,
   ⟨z, 6, 0xFFFFFF, some [], by decide +kernel⟩,
   ⟨{ z with spares := { z.spares with passes := [⟨0, 8, false⟩] } }, 0, 8, ⟨0, 8, false⟩, [0], by decide +kernel⟩,
   ⟨{ atStep 2 with spares := { z.spares with passes := [⟨0, 8, false⟩] } }, 0, 8, ⟨0, 8, false⟩, [0], by decide +kernel⟩,
   ⟨{ atStep 2 with spares := { z.spares with passes := [⟨5, 17, true⟩] } }, 5, 17, ⟨5, 17, true⟩, [0], by decide +kernel⟩,
   ⟨{ atStep 2 with spares := { z.spares with passes := [⟨6, 7, false⟩] } }, 6, 7, ⟨6, 7, false⟩, [0], by decide +kernel⟩,
   ⟨z, 6, 0xFFFFFF, by decide +kernel⟩,
   ⟨z, 5, 0xFFFFFF, by decide +kernel⟩⟩

theorem test_witness_PairRoles :
    (∃ (s : State) (r : Nat), r < 8) ∧
    (∃ s : State, (s.role ≠ 0 ∨ s.paired = false)) ∧
    (∃ s : State, s.role = 1) ∧
    (∃ s : State, s.role ≠ 1) ∧
    (∃ s : State, (max s.epoch (max s.pair.leaseEpoch s.pair.ckptEpoch)) < 0xFFFFFFFF) ∧
    (∃ s : State, 0xFFFFFFFF ≤ (max s.epoch (max s.pair.leaseEpoch s.pair.ckptEpoch))) ∧
    (∃ (s : State) (e : Nat), e < 2 ^ 32) ∧
    (∃ s : State, s.on R.STORM_CTRL.EN = false) ∧
    (∃ s : State, (s.role = 3 ∨ s.role = 2) ∧ s.on R.SYS_PAIR_STATUS.RING_VIEW = false) ∧
    (∃ s : State, (¬(s.role = 3 ∨ s.role = 2) ∨ s.on R.SYS_PAIR_STATUS.RING_VIEW = true)) ∧
    (∃ (s : State) (e : BitVec 32) (c : Bool), s.pairLinkUp = false ∧ s.ringView = false) ∧
    (∃ s : State, ∃ e : BitVec 32, (s.pairLinkUp = true ∨ s.ringView = true) ∧ (s.role = 3 ∨ s.role = 2) ∧ s.epoch < e.toNat) ∧
    (∃ s : State, ∃ e : BitVec 32, (s.pairLinkUp = true ∨ s.ringView = true) ∧ (¬(s.role = 3 ∨ s.role = 2) ∨ e.toNat ≤ s.epoch)) ∧
    (∃ s : State, ∃ e : BitVec 32, (s.pairLinkUp = true ∨ s.ringView = true) ∧ s.role = 0 ∧ s.paired = true ∧ s.epoch ≤ e.toNat) ∧
    (∃ s : State, s.role = 4) ∧
    (∃ s : State, s.role ≠ 4) ∧
    (∃ s : State, s.role = 2 ∧ s.power.restored = true) ∧
    (∃ s : State, (s.role ≠ 2 ∨ s.power.restored = false)) :=
  ⟨⟨z, 7, by decide +kernel⟩,
   ⟨z, by decide +kernel⟩,
   ⟨rl 1, by decide +kernel⟩,
   ⟨z, by decide +kernel⟩,
   ⟨z, by decide +kernel⟩,
   ⟨z.setF R.SYS_PAIR_EPOCH.EPOCH 0xFFFFFFFF, by decide +kernel⟩,
   ⟨z, 0xFFFFFFFF, by decide +kernel⟩,
   ⟨z.setF R.STORM_CTRL.EN 0, by decide +kernel⟩,
   ⟨rl 2, by decide +kernel⟩,
   ⟨z, by decide +kernel⟩,
   ⟨z, 0xFFFFFFFF, true, by decide +kernel⟩,
   ⟨pl (rl 3), 0xFFFFFFFF, by decide +kernel⟩,
   ⟨pl z, 0, by decide +kernel⟩,
   ⟨((pl z).setF R.SYS_PAIR_CFG.EN 1).modPair (fun p => { p with fitted := true }), 0, by decide +kernel⟩,
   ⟨rl 4, by decide +kernel⟩,
   ⟨z, by decide +kernel⟩,
   ⟨(rl 2).modPower (fun p => { p with restored := true }), by decide +kernel⟩,
   ⟨z, by decide +kernel⟩⟩

theorem test_witness_PairStreams :
    (∃ s : State, s.fenceable = true) ∧
    (∃ s : State, s.fenceable = false) ∧
    (∃ s : State, s.role = 1) ∧
    (∃ s : State, s.role ≠ 1) ∧
    (∃ (s : State) (type q : Nat) (data : List Byte), type < 256 ∧ q < 2 ^ 32 ∧ s.pairPorts = []) ∧
    (∃ (s : State) (type q : Nat) (data : List Byte), ∃ n, type < 256 ∧ q < 2 ^ 32 ∧ s.pairPorts = [n]) ∧
    (∃ (s : State) (type q : Nat) (data : List Byte), ∃ n m, type < 256 ∧ q < 2 ^ 32 ∧ s.pairPorts = [n, m]) ∧
    (∃ (s : State) (x : CkptPart), s.pair.ckptSeq < 2 ^ 32 ∧ s.role = 3) ∧
    (∃ (s : State) (x : CkptPart), s.pair.ckptSeq < 2 ^ 32 ∧ s.role ≠ 3) ∧
    (∃ (s : State) (e q : BitVec 32) (fmt : BitVec 16) (x : CkptPart) (w : Stamp), s.pairLinkUp = false) ∧
    (∃ (s : State) (e q : BitVec 32) (w : Stamp), s.pairLinkUp = true ∧ s.role = 1 ∧ s.epoch ≤ e.toNat) ∧
    (∃ (s : State) (e q : BitVec 32) (w : Stamp), s.pairLinkUp = true ∧ s.role = 1 ∧ e.toNat < s.epoch) ∧
    (∃ (s : State) (e q : BitVec 32) (w : Stamp), s.role = 5) ∧
    (∃ (s : State) (e q : BitVec 32) (w : Stamp), s.pairLinkUp = true ∧ s.fenceable = true ∧ s.epoch < e.toNat) ∧
    (∃ (s : State) (e q : BitVec 32) (w : Stamp), s.pairLinkUp = true ∧ s.fenceable = true ∧ e.toNat ≤ s.epoch ∧ (∃ m, (q.toNat, m) ∈ s.pair.leaseSent ∧ s.opTotal < m + 125000000)) ∧
    (∃ (s : State) (e q : BitVec 32) (w : Stamp), s.pairLinkUp = true ∧ s.fenceable = true ∧ e.toNat ≤ s.epoch ∧ (∀ m, (q.toNat, m) ∈ s.pair.leaseSent → m + 125000000 ≤ s.opTotal)) ∧
    (∃ s : State, (s.role = 3 ∨ s.role = 5) ∧ s.power.step = 5) ∧
    (∃ s : State, (s.role = 3 ∨ s.role = 5) ∧ s.power.step ≠ 5) ∧
    (∃ s : State, s.role ≠ 3 ∧ s.role ≠ 5) ∧
    (∃ (s : State) (x : CkptPart), s.flashStuck .checkpoint = false) ∧
    (∃ (s : State) (x : CkptPart), s.flashStuck .checkpoint = true) ∧
    (∃ (s : State) (e q : BitVec 32) (fmt : BitVec 16) (x : CkptPart), s.pairLinkUp = true ∧ s.role = 1 ∧ fmt.toNat = s.runFmt ∧ s.flashStuck x.region = false) ∧
    (∃ (s : State) (e q : BitVec 32) (fmt : BitVec 16) (x : CkptPart), s.pairLinkUp = true ∧ s.role = 1 ∧ (fmt.toNat ≠ s.runFmt ∨ s.flashStuck x.region = true)) ∧
    (∃ (s : State) (e q : BitVec 32), s.pairLinkUp = true ∧ s.role = 3 ∧ e.toNat ≤ s.epoch) ∧
    (∃ s : State, (s.role = 3 ∨ s.role = 1)) ∧
    (∃ s : State, s.role ≠ 3 ∧ s.role ≠ 1) ∧
    (∃ (s : State) (i : Fin 131072), (s.role = 3 ∨ s.role = 5) ∧ s.epValid i = true ∧ s.engRuns (s.ep i EP.ENG) = true) ∧
    (∃ (s : State) (i : Fin 131072), s.role ≠ 3 ∧ s.role ≠ 5) ∧
    (∃ (s : State) (i : Nat), s.ep i EP.PATH = 0) ∧
    (∃ (s : State) (e q : BitVec 32), s.pairLinkUp = true ∧ s.role = 3 ∧ e.toNat ≤ s.epoch ∧ (∃ n ∈ s.pair.deltaSent, n ≤ q.toNat)) ∧
    (∃ (s : State) (e q : BitVec 32), s.pairLinkUp = true ∧ s.role = 3 ∧ e.toNat ≤ s.epoch ∧ (∀ n ∈ s.pair.deltaSent, q.toNat < n)) ∧
    (∃ s : State, (s.role = 1 ∨ s.role = 0)) ∧
    (∃ s : State, s.role ≠ 1 ∧ s.role ≠ 0) :=
  ⟨⟨rl 2, by decide +kernel⟩,
   ⟨z, by decide +kernel⟩,
   ⟨rl 1, by decide +kernel⟩,
   ⟨z, by decide +kernel⟩,
   ⟨z, 255, 0, [], by decide +kernel⟩,
   ⟨(pup 255).setF (R.PORT_CFG.ROLE 255) 3, 1, 0xFFFFFFFF, [], 255, by decide +kernel⟩,
   ⟨(((pup 255).setF (R.PORT_CFG.ROLE 255) 3).setPortState 0 2).setF (R.PORT_CFG.ROLE 0) 3, 1, 0, [], 0, 255, by decide +kernel⟩,
   ⟨rl 3, .delta [] none [] 0, by decide +kernel⟩,
   ⟨rl 5, .delta [] none [] 0, by decide +kernel⟩,
   ⟨rl 1, 0, 0, 0, .delta [] none [] 0, 0, by decide +kernel⟩,
   ⟨pl (rl 1), 0, 0, 0, by decide +kernel⟩,
   ⟨(pl (rl 1)).setF R.SYS_PAIR_EPOCH.EPOCH 1, 0, 0, 0, by decide +kernel⟩,
   ⟨rl 5, 0, 0, 0, by decide +kernel⟩,
   ⟨pl (rl 3), 1, 0, 0, by decide +kernel⟩,
   ⟨(pl (rl 2)).modPair (fun p => { p with leaseSent := [(0xFFFFFFFF, 0)] }), 0, 0xFFFFFFFF, 0, by decide +kernel, by decide +kernel, by decide +kernel, ⟨0, by decide +kernel⟩⟩,
   ⟨pl (rl 2), 0, 0, 0, by decide +kernel, by decide +kernel, by decide +kernel, fun m h => (List.not_mem_nil (by rwa [show (pl (rl 2)).pair.leaseSent = [] from by decide +kernel] at h)).elim⟩,
   ⟨(rl 5).modPower (fun p => { p with step := 5 }), by decide +kernel⟩,
   ⟨rl 5, by decide +kernel⟩,
   ⟨z, by decide +kernel⟩,
   ⟨z, .delta [] none [] 0, by decide +kernel⟩,
   ⟨z.modSpares (fun x => { x with readOnly := [.checkpoint] }), .delta [] none [] 0, by decide +kernel⟩,
   ⟨pl (rl 1), 0, 0, 0, .delta [] none [] 0, by decide +kernel⟩,
   ⟨pl (rl 1), 0, 0, 1, .delta [] none [] 0, by decide +kernel⟩,
   ⟨pl (rl 3), 0, 0, by decide +kernel⟩,
   ⟨rl 1, by decide +kernel⟩,
   ⟨z, by decide +kernel⟩,
   ⟨((((rl 5).setEp 131071 EP.VALID 1).setPhys 0 0).setEngRole 0 roleActive).setEngState 0 stRun, 131071, by decide +kernel⟩,
   ⟨z, 0, by decide +kernel⟩,
   ⟨z, 131071, by decide +kernel⟩,
   ⟨(pl (rl 3)).modPair (fun p => { p with deltaSent := [5] }), 0, 5, by decide +kernel⟩,
   ⟨(pl (rl 3)).modPair (fun p => { p with deltaSent := [5] }), 0, 4, by decide +kernel⟩,
   ⟨z, by decide +kernel⟩,
   ⟨rl 3, by decide +kernel⟩⟩

theorem test_witness_SupplyAndCell :
    (∃ (s : State) (a b : Bool), s.power.step ≠ 0 ∧ (a = true ∨ b = true)) ∧
    (∃ (s : State) (a b : Bool), s.power.step = 0 ∧ s.power.absent = true) ∧
    (∃ s : State, s.power.step ≠ 0) ∧
    (∃ s : State, s.power.step = 0) ∧
    (∃ (s : State) (c : Nat), c < 8) ∧
    (∃ s : State, ∃ v, v ≠ 0x0000A5C3) ∧
    (∃ s : State, 2 ≤ s.power.step ∧ s.on R.SYS_WDOG_CFG.EN = true ∧ s.svc.act ≠ 3 ∧ (s.f R.SYS_WDOG_CNT.COUNT + 1) < 3) ∧
    (∃ s : State, 2 ≤ s.power.step ∧ s.on R.SYS_WDOG_CFG.EN = true ∧ s.svc.act ≠ 3 ∧ 3 ≤ (s.f R.SYS_WDOG_CNT.COUNT + 1)) ∧
    (∃ s : State, s.on R.SYS_WDOG_CFG.EN = false) ∧
    (∃ s : State, s.power.absent = true) ∧
    (∃ s : State, s.power.absent = false ∧ s.power.inputOk = true) ∧
    (∃ s : State, s.power.absent = false ∧ s.power.inputOk = false ∧ s.power.mainUp = true) ∧
    (∃ s : State, s.power.absent = false ∧ s.power.inputOk = false ∧ s.power.mainUp = false) ∧
    (∃ s : State, s.power.mainUp = false) ∧
    (∃ s : State, s.power.mainUp = true) ∧
    (∃ s : State, s.power.removed = true ∧ s.power.absent = false ∧ s.power.inputOk = true) ∧
    (∃ s : State, s.power.absent = false ∧ (s.power.removed = false ∨ s.power.inputOk = false)) ∧
    (∃ s : State, s.chargeable = true ∧ s.on R.PWR_CELL_STATUS.CHARGING = false ∧ s.f R.PWR_GAUGE.SOC < 90) ∧
    (∃ s : State, (s.chargeable = false ∨ 90 ≤ s.f R.PWR_GAUGE.SOC)) ∧
    (∃ s : State, s.on R.PWR_CELL_STATUS.CHARGING = true ∧ s.on R.PWR_CELL_STATUS.TEMP_HOLD = false) ∧
    (∃ s : State, s.on R.PWR_CELL_STATUS.CHARGING = true ∧ s.on R.PWR_CELL_STATUS.CV = true ∧ s.on R.PWR_CELL_STATUS.TEMP_HOLD = false) ∧
    (∃ s : State, s.on R.PWR_CELL_STATUS.TEMP_HOLD = true) ∧
    (∃ s : State, s.on R.PWR_CELL_STATUS.CHARGING = false) ∧
    (∃ (s : State) (mv : BitVec 16), s.on R.PWR_CELL_STATUS.CHARGING = false ∧ s.f R.PWR_GAUGE.CHARGE = 0 ∧ restSoc mv.toNat * s.f R.PWR_GAUGE_CAP.CAP % 100 = 0) ∧
    (∃ (s : State) (c : BitVec 24), s.reaches R.PWR_GAUGE_CAP.reg.blk R.PWR_GAUGE_CAP.reg.off true = true ∧ c ≠ 0) ∧
    (∃ (s : State) (i : Instr) (a b c x y : Bool), s.power.step ≠ 0 ∧ i = .supplyWarning x y ∧ (x = true ∨ y = true) ∧ a = x ∧ b = y ∧ c = s.ledger.shutdown ∧ s.rcd.isOpen = true ∧ s.mtr.loaded = true) ∧
    (∃ (s : State) (i : Instr) (a b c x : Bool), s.power.step ≠ 0 ∧ i = .rstCmdShutdown x ∧ a = s.ledger.pfw ∧ b = s.ledger.inLow ∧ c = true ∧ s.rcd.isOpen = true ∧ s.mtr.loaded = true) :=
  ⟨⟨pwr 5, false, true, by decide +kernel⟩,
   ⟨(pwr 0).modPower (fun p => { p with absent := true }), true, true, by decide +kernel⟩,
   ⟨pwr 5, by decide +kernel⟩,
   ⟨pwr 0, by decide +kernel⟩,
   ⟨z, 7, by decide +kernel⟩,
   ⟨z, 0, by decide +kernel⟩,
   ⟨(pwr 2).setF R.SYS_WDOG_CFG.EN 1, by decide +kernel⟩,
   ⟨((pwr 5).setF R.SYS_WDOG_CFG.EN 1).setF R.SYS_WDOG_CNT.COUNT 2, by decide +kernel⟩,
   ⟨(pwr 5).setF R.SYS_WDOG_CFG.EN 0, by decide +kernel⟩,
   ⟨z.modPower (fun p => { p with absent := true }), by decide +kernel⟩,
   ⟨pwr 5, by decide +kernel⟩,
   ⟨z.modPower (fun p => { p with absent := false, inputOk := false, mainUp := true }), by decide +kernel⟩,
   ⟨z.modPower (fun p => { p with absent := false, inputOk := false, mainUp := false }), by decide +kernel⟩,
   ⟨z.modPower (fun p => { p with mainUp := false }), by decide +kernel⟩,
   ⟨pwr 0, by decide +kernel⟩,
   ⟨(pwr 5).modPower (fun p => { p with removed := true, absent := false }), by decide +kernel⟩,
   ⟨z, by decide +kernel⟩,
   ⟨cell.setF R.PWR_GAUGE.SOC 89, by decide +kernel⟩,
   ⟨cell.setF R.PWR_GAUGE.SOC 90, by decide +kernel⟩,
   ⟨cell.setF R.PWR_CELL_STATUS.CHARGING 1, by decide +kernel⟩,
   ⟨(cell.setF R.PWR_CELL_STATUS.CHARGING 1).setF R.PWR_CELL_STATUS.CV 1, by decide +kernel⟩,
   ⟨cell.setF R.PWR_CELL_STATUS.TEMP_HOLD 1, by decide +kernel⟩,
   ⟨cell.setF R.PWR_CELL_STATUS.CHARGING 0, by decide +kernel⟩,
   ⟨cell.setF R.PWR_GAUGE_CAP.CAP 100, 3000, by decide +kernel, by decide +kernel,
    by rw [show (cell.setF R.PWR_GAUGE_CAP.CAP 100).f R.PWR_GAUGE_CAP.CAP = 100 by decide +kernel]; exact Nat.mul_mod_left _ _⟩,
   ⟨clk z, 0xFFFFFF, by decide +kernel⟩,
   ⟨{ pwr 5 with rcd := { z.rcd with isOpen := true }, mtr := { z.mtr with loaded := true } }, .supplyWarning true false, true, false, false, true, false, by decide +kernel⟩,
   ⟨{ pwr 5 with rcd := { z.rcd with isOpen := true }, mtr := { z.mtr with loaded := true } }, .rstCmdShutdown true, false, false, true, true, by decide +kernel⟩⟩

theorem test_witness_Metering :
    (∃ (s : State) (x : List (BitVec 24)), s.mtrOn = false) ∧
    (∃ (s : State) (x : List (BitVec 24)), s.mtrOn = true) ∧
    (∃ (s : State) (b : Fin 2), (s.windowDue b = false ∨ s.winLen b = 0)) ∧
    (∃ (s : State) (b : Fin 2), s.windowDue b = true ∧ s.winLen b ≠ 0) ∧
    (∃ (s : State) (v : Fin 6), s.mtrOn = true ∧ s.noMains v = false ∧ ((s.zc v).last + s.zcTmo ≤ stampUnits s.now)) ∧
    (∃ (s : State) (v : Fin 6), (s.mtrOn = false ∨ s.noMains v = true ∨ ¬((s.zc v).last + s.zcTmo ≤ stampUnits s.now))) ∧
    (∃ (s : State) (b : Fin 2), s.mtrOn = true ∧ s.busLow b = true ∧ ((s.f R.MTR_STATUS.COLLAPSE_NOW).testBit b) = false) ∧
    (∃ (s : State) (b : Fin 2), (s.mtrOn = false ∨ s.busLow b = false ∨ ((s.f R.MTR_STATUS.COLLAPSE_NOW).testBit b) = true)) ∧
    (∃ (s : State) (c : Fin 54), s.trans c = none) ∧
    (∃ (s : State) (c : Fin 54), ∃ x, s.trans c = some x ∧ x.below < 8) ∧
    (∃ (s : State) (c : Fin 54), ∃ x, s.trans c = some x ∧ 8 ≤ x.below) ∧
    (∃ s : State, s.mtr.loaded = false) ∧
    (∃ s : State, s.mtr.loaded = true ∧ s.ledger.saving = false) ∧
    (∃ s : State, s.mtr.loaded = true ∧ s.ledger.saving = true) ∧
    (∃ s : State, s.reaches R.MTR_CMD.reg.blk R.MTR_CMD.reg.off true = true ∧ s.lcState = lcService) ∧
    (∃ s : State, s.reaches R.MTR_CMD.reg.blk R.MTR_CMD.reg.off true = true ∧ s.lcState ≠ lcService) ∧
    (∃ s : State, s.reaches R.MTR_CAP_CMD.reg.blk R.MTR_CAP_CMD.reg.off true = true ∧ s.mtr.cap.isSome = true) ∧
    (∃ s : State, s.reaches R.MTR_CAP_CMD.reg.blk R.MTR_CAP_CMD.reg.off true = true ∧ s.mtr.cap = none ∧ stampUnits (s.stampR R.MTR_CAP_STOP.reg) < stampUnits (s.stampR R.MTR_CAP_START.reg)) ∧
    (∃ s : State, s.reaches R.MTR_CAP_CMD.reg.blk R.MTR_CAP_CMD.reg.off true = true ∧ s.mtr.cap = none ∧ stampUnits (s.stampR R.MTR_CAP_START.reg) ≤ stampUnits (s.stampR R.MTR_CAP_STOP.reg) ∧ s.nextSample < stampUnits (s.stampR R.MTR_CAP_STOP.reg)) ∧
    (∃ (s : State) (c : Cap) (r : Nat), s.mtr.cap = some c ∧ r < 32) ∧
    (∃ (s : State) (c : Cap), s.mtr.cap = some c ∧ s.f R.MTR_CAP_STATUS.STATE = 1 ∧ c.surge = false ∧ s.reached c.start = true) ∧
    (∃ (s : State) (c : Cap), s.mtr.cap = some c ∧ s.reached c.start = false) ∧
    (∃ (s : State) (c : Cap), s.mtr.cap = some c ∧ c.step ≠ s.stepEpoch) ∧
    (∃ (s : State) (c : Cap), s.mtr.cap = some c ∧ c.step = s.stepEpoch ∧ c.full = true) ∧
    (∃ (s : State) (c : Cap), s.mtr.cap = some c ∧ c.step = s.stepEpoch ∧ c.full = false ∧ s.f R.MTR_CAP_STATUS.STATE = 2 ∧ s.reached c.stop = true) ∧
    (∃ s : State, s.mtr.cap = none) ∧
    (∃ s : State, s.periodNow ≤ s.mtr.period) ∧
    (∃ s : State, s.mtr.period < s.periodNow ∧ s.estRuns (s.slotStart (1440 * (s.periodNow - 1))) = true) ∧
    (∃ s : State, s.mtr.period < s.periodNow ∧ s.estRuns (s.slotStart (1440 * (s.periodNow - 1))) = false) ∧
    (∃ s : State, s.on R.MTR_EST_STATUS.BUSY = false) ∧
    (∃ s : State, s.on R.MTR_EST_STATUS.BUSY = true) :=
  ⟨⟨z.setF R.MTR_CFG.EN 0, [], by decide +kernel⟩,
   ⟨mtr1, [], by decide +kernel⟩,
   ⟨z, 1, by decide +kernel⟩,
   ⟨mtrs (fun m => { m with len1 := 1600, zc := [(3, { Zc.zero with rising := 12 })] }), 1, by decide +kernel⟩,
   ⟨{ mtr1 with time := { z.time with now := tbSec } }, 5, by decide +kernel⟩,
   ⟨z, 5, by decide +kernel⟩,
   ⟨busLow1, 1, by decide +kernel⟩,
   ⟨z.setF R.MTR_STATUS.COLLAPSE_NOW 2, 1, by decide +kernel⟩,
   ⟨z, 53, by decide +kernel⟩,
   ⟨mtrs (fun m => { m with trans := [(53, some ⟨0, 0, 0, 0, 7⟩)] }), 53, ⟨0, 0, 0, 0, 7⟩, by decide +kernel⟩,
   ⟨mtrs (fun m => { m with trans := [(53, some ⟨0, 0, 0, 0, 8⟩)] }), 53, ⟨0, 0, 0, 0, 8⟩, by decide +kernel⟩,
   ⟨z, by decide +kernel⟩,
   ⟨mtr1, by decide +kernel⟩,
   ⟨mtr1.totalsSave, by decide +kernel⟩,
   ⟨(clk z).setF R.KEY_LC_STATUS.STATE lcService, by decide +kernel⟩,
   ⟨(clk z).setF R.KEY_LC_STATUS.STATE 0, by decide +kernel⟩,
   ⟨mtrs (fun m => { m with cap := some cap0 }), by decide +kernel⟩,
   ⟨(clk z).setStampR R.MTR_CAP_START.reg (mkStamp 1 0 0), by decide +kernel⟩,
   ⟨(clk z).setStampR R.MTR_CAP_STOP.reg (mkStamp 1 0 0), by decide +kernel⟩,
   ⟨mtrs (fun m => { m with cap := some cap0 }), cap0, 31, by decide +kernel⟩,
   ⟨(mtrs (fun m => { m with cap := some cap0 })).setF R.MTR_CAP_STATUS.STATE 1, cap0, by decide +kernel⟩,
   ⟨mtrs (fun m => { m with cap := some { cap0 with start := mkStamp 1 0 0 } }), { cap0 with start := mkStamp 1 0 0 }, by decide +kernel⟩,
   ⟨mtrs (fun m => { m with cap := some { cap0 with step := 1 } }), { cap0 with step := 1 }, by decide +kernel⟩,
   ⟨mtrs (fun m => { m with cap := some { cap0 with full := true } }), { cap0 with full := true }, by decide +kernel⟩,
   ⟨(mtrs (fun m => { m with cap := some cap0 })).setF R.MTR_CAP_STATUS.STATE 2, cap0, by decide +kernel⟩,
   ⟨z, by decide +kernel⟩,
   ⟨mtrs (fun m => { m with period := 1 }), by decide +kernel⟩,
   ⟨day1 (rl 5), by decide +kernel⟩,
   ⟨day1 z, by decide +kernel⟩,
   ⟨z, by decide +kernel⟩,
   ⟨z.setF R.MTR_EST_STATUS.BUSY 1, by decide +kernel⟩⟩

theorem test_witness_ScatterMac :
    (∃ (s : State) (j : Fin 4) (mean : BitVec 16) (b : Nat) (x : RadTx), (s.radAt j).phase = .lbt b ∧ (s.radAt j).cur = some x ∧ mean.toInt < (toSigned 16 (s.f (R.RAD_LBT.THR j))) ∧ s.radHops j = true ∧ (3 * ((s.hopSlot + 1) * 400 * unitsMs) < 3 * stampUnits s.now + s.txAir j x * unitsUs)) ∧
    (∃ (s : State) (j : Fin 4) (mean : BitVec 16) (b : Nat) (x : RadTx), (s.radAt j).phase = .lbt b ∧ (s.radAt j).cur = some x ∧ mean.toInt < (toSigned 16 (s.f (R.RAD_LBT.THR j))) ∧ (s.radHops j = false ∨ ¬(3 * ((s.hopSlot + 1) * 400 * unitsMs) < 3 * stampUnits s.now + s.txAir j x * unitsUs)) ∧ s.radAble j = true) ∧
    (∃ (s : State) (j : Fin 4) (mean : BitVec 16) (b : Nat) (x : RadTx), (s.radAt j).phase = .lbt b ∧ (s.radAt j).cur = some x ∧ (toSigned 16 (s.f (R.RAD_LBT.THR j))) ≤ mean.toInt ∧ b < max 1 (s.f (R.RAD_MAC.BO_MAX j))) ∧
    (∃ (s : State) (j : Fin 4) (mean : BitVec 16) (b : Nat) (x : RadTx), (s.radAt j).phase = .lbt b ∧ (s.radAt j).cur = some x ∧ (toSigned 16 (s.f (R.RAD_LBT.THR j))) ≤ mean.toInt ∧ max 1 (s.f (R.RAD_MAC.BO_MAX j)) ≤ b) ∧
    (∃ (s : State) (j : Fin 4), ∃ b, (s.radAt j).phase = .backoff b) ∧
    (∃ (s : State) (j : Fin 4), (∀ b, (s.radAt j).phase ≠ .backoff b)) ∧
    (∃ (s : State) (j : Fin 4), (∀ b, (s.radAt j).phase ≠ .lbt b)) ∧
    (∃ (s : State) (j : Fin 4), (s.radAt j).phase ≠ .tx) ∧
    (∃ (s : State) (j : Fin 4), (s.radAt j).phase ≠ .gap ∧ (s.radAt j).gapped = none) ∧
    (∃ (s : State) (j : Fin 4), (s.radAt j).phase ≠ .duty ∧ heldFirst (s.radAt j).urgent = none ∧ heldFirst (s.radAt j).queue = none) ∧
    (∃ (s : State) (j : Fin 4) (x : RadTx), (s.radAt j).cur = some x ∧ (s.radAt j).phase = .tx) ∧
    (∃ (s : State) (j : Fin 4) (x : RadTx), (s.radAt j).cur = some x ∧ (s.radAt j).phase = .gap) ∧
    (∃ (s : State) (j : Fin 4) (x : RadTx), (s.radAt j).cur = some x ∧ (s.radAt j).phase = .duty ∧ s.radEarly x = false ∧ s.radFits j (s.txAir j x) x.fault = true) ∧
    (∃ (s : State) (j : Fin 4) (x : RadTx), (s.radAt j).cur = some x ∧ (s.radAt j).phase = .duty ∧ s.radEarly x = false ∧ s.radFits j (s.txAir j x) x.fault = false) ∧
    (∃ (s : State) (j : Nat) (x : RadTx), x.sent + 1 < x.copies) ∧
    (∃ (s : State) (j : Fin 4) (x : RadTx), s.radFits j (s.txAir j x) x.fault = false) ∧
    (∃ (s : State) (j : Fin 4) (x : RadTx), s.radFits j (s.txAir j x) x.fault = true ∧ x.cal = none ∧ x.seq.isSome = true) ∧
    (∃ (s : State) (j : Fin 4) (x : RadTx) (k : List Byte), s.radKey j = some k) ∧
    (∃ (s : State) (j : Fin 4), s.radHops j = false) ∧
    (∃ (s : State) (j : Fin 4), s.radHops j = true ∧ (s.radAt j).phase = .hop) ∧
    (∃ (s : State) (j : Fin 4), (s.radAt j).urgent = []) ∧
    (∃ (s : State) (j : Fin 4), ∃ x l, (s.radAt j).urgent = x :: l ∧ s.radAble j = false) ∧
    (∃ (s : State) (j : Fin 4), ∃ x l, (s.radAt j).urgent = x :: l ∧ s.radAble j = true ∧ s.radEarly x = false ∧ (s.radAt j).phase = .idle ∧ (s.radAt j).cur = none ∧ s.radFits j (s.txAir j x) true = true) ∧
    (∃ (s : State) (j : Fin 4), ∃ x l, (s.radAt j).urgent = x :: l ∧ s.radAble j = true ∧ s.radEarly x = false ∧ (s.radAt j).phase ≠ .tx ∧ s.radFits j (s.txAir j x) true = false) ∧
    (∃ (s : State) (j : Fin 4), ∃ x l, (s.radAt j).urgent = x :: l ∧ s.radAble j = true ∧ s.radEarly x = false ∧ (s.radAt j).phase = .tx) ∧
    (∃ (s : State) (j : Fin 4), s.radAble j = false) ∧
    (∃ (s : State) (j : Fin 4), s.radAble j = true ∧ (s.radAt j).phase = .tx ∧ (s.radAt j).urgent.filter (·.isHold) = []) ∧
    (∃ (s : State) (j : Fin 4) (q : BitVec 16) (d : List Byte), (s.radOn j = false ∨ (s.radAt j).phase = .tx)) ∧
    (∃ (s : State) (j : Fin 4) (q : BitVec 16) (d : List Byte) (type : Nat), s.radOn j = true ∧ (s.radAt j).phase ≠ .tx ∧ (d.getD 0 0).toNat / 16 = type ∧ (d.getD 0 0).getLsbD 3 = false ∧ radMine d = false) ∧
    (∃ (s : State) (j : Fin 4) (q : BitVec 16) (d : List Byte) (type : Nat), s.radOn j = true ∧ (s.radAt j).phase ≠ .tx ∧ (d.getD 0 0).toNat / 16 = type ∧ (d.getD 0 0).getLsbD 3 = false ∧ radMine d = true ∧ (type = 2 ∨ type = 3 ∨ type = 4 ∨ type = 6) ∧ s.radKey j = none) ∧
    (∃ (s : State) (j : Fin 4) (q : BitVec 16) (d : List Byte) (type : Nat), s.radOn j = true ∧ (s.radAt j).phase ≠ .tx ∧ (d.getD 0 0).toNat / 16 = type ∧ (d.getD 0 0).getLsbD 3 = false ∧ radMine d = true ∧ (type = 2 ∨ type = 3 ∨ type = 4 ∨ type = 6) ∧ (s.radKey j).isSome = true ∧ (s.count (R.RAD_CNT_RX_FRAMES.COUNT j)).radRecord j (leNat ((d.drop 4).take 2)) = none) ∧
    (radE.radOpen 0 (radE.epEui 0) (sdat.take 14) [] = none → (∃ (s : State) (j : Fin 4) (q : BitVec 16) (d : List Byte) (type : Nat), ∃ i, s.radOn j = true ∧ (s.radAt j).phase ≠ .tx ∧ (d.getD 0 0).toNat / 16 = type ∧ (d.getD 0 0).getLsbD 3 = false ∧ radMine d = true ∧ (type = 2 ∨ type = 3 ∨ type = 4 ∨ type = 6) ∧ (s.radKey j).isSome = true ∧ (s.count (R.RAD_CNT_RX_FRAMES.COUNT j)).radRecord j (leNat ((d.drop 4).take 2)) = some i ∧ (s.count (R.RAD_CNT_RX_FRAMES.COUNT j)).radOpen j ((s.count (R.RAD_CNT_RX_FRAMES.COUNT j)).epEui i) (d.take 14) (d.drop 14) = none ∧ (∀ g ∈ (s.count (R.RAD_CNT_RX_FRAMES.COUNT j)).pair.ghosts, g.slot ≠ i))) ∧
    (∀ p, (radV (some (5, 1))).radOpen 0 ((radV (some (5, 1))).epEui 0) (sdat.take 14) (sdat.drop 14) = some p → ∃ (s : State) (j : Fin 4) (q : BitVec 16) (d : List Byte) (type : Nat), ∃ i, s.radOn j = true ∧ (s.radAt j).phase ≠ .tx ∧ (d.getD 0 0).toNat / 16 = type ∧ (d.getD 0 0).getLsbD 3 = false ∧ radMine d = true ∧ (type = 2 ∨ type = 3 ∨ type = 4 ∨ type = 6) ∧ (s.radKey j).isSome = true ∧ (s.count (R.RAD_CNT_RX_FRAMES.COUNT j)).radRecord j (leNat ((d.drop 4).take 2)) = some i ∧ (s.count (R.RAD_CNT_RX_FRAMES.COUNT j)).radOpen j ((s.count (R.RAD_CNT_RX_FRAMES.COUNT j)).epEui i) (d.take 14) (d.drop 14) = some p ∧ windowStep ((((s.count (R.RAD_CNT_RX_FRAMES.COUNT j)).setF (R.RAD_RSSI.LAST j) q.toNat).radPhaseSeen j i (d.take 14)).radNode j i).window (leNat ((d.drop 6).take 4)) = .dup) ∧
    (∀ p, (radV (some (40, 1))).radOpen 0 ((radV (some (40, 1))).epEui 0) (sdat.take 14) (sdat.drop 14) = some p → ∃ (s : State) (j : Fin 4) (q : BitVec 16) (d : List Byte) (type : Nat), ∃ i, s.radOn j = true ∧ (s.radAt j).phase ≠ .tx ∧ (d.getD 0 0).toNat / 16 = type ∧ (d.getD 0 0).getLsbD 3 = false ∧ radMine d = true ∧ (type = 2 ∨ type = 3 ∨ type = 4 ∨ type = 6) ∧ (s.radKey j).isSome = true ∧ (s.count (R.RAD_CNT_RX_FRAMES.COUNT j)).radRecord j (leNat ((d.drop 4).take 2)) = some i ∧ (s.count (R.RAD_CNT_RX_FRAMES.COUNT j)).radOpen j ((s.count (R.RAD_CNT_RX_FRAMES.COUNT j)).epEui i) (d.take 14) (d.drop 14) = some p ∧ windowStep ((((s.count (R.RAD_CNT_RX_FRAMES.COUNT j)).setF (R.RAD_RSSI.LAST j) q.toNat).radPhaseSeen j i (d.take 14)).radNode j i).window (leNat ((d.drop 6).take 4)) = .replay) ∧
    (∀ p, (radV (none)).radOpen 0 ((radV (none)).epEui 0) (sdat.take 14) (sdat.drop 14) = some p → ∃ (s : State) (j : Fin 4) (q : BitVec 16) (d : List Byte) (type : Nat), ∃ i, ∃ w, s.radOn j = true ∧ (s.radAt j).phase ≠ .tx ∧ (d.getD 0 0).toNat / 16 = type ∧ (d.getD 0 0).getLsbD 3 = false ∧ radMine d = true ∧ (type = 2 ∨ type = 3 ∨ type = 4 ∨ type = 6) ∧ (s.radKey j).isSome = true ∧ (s.count (R.RAD_CNT_RX_FRAMES.COUNT j)).radRecord j (leNat ((d.drop 4).take 2)) = some i ∧ (s.count (R.RAD_CNT_RX_FRAMES.COUNT j)).radOpen j ((s.count (R.RAD_CNT_RX_FRAMES.COUNT j)).epEui i) (d.take 14) (d.drop 14) = some p ∧ windowStep ((((s.count (R.RAD_CNT_RX_FRAMES.COUNT j)).setF (R.RAD_RSSI.LAST j) q.toNat).radPhaseSeen j i (d.take 14)).radNode j i).window (leNat ((d.drop 6).take 4)) = .accept w ∧ s.lightRole = true) ∧
    (∃ n m : Nat, n < 2 ^ 32 ∧ m % 2 = 1) ∧
    (∃ n m : Nat, ∃ k, n < 2 ^ 32 ∧ 32 ≤ k ∧ k < 2 ^ 31) ∧
    (∃ (s : State) (j : Fin 4) (a b : BitVec 16), s.radOn j = true ∧ (s.radAt j).phase ≠ .tx ∧ a.toInt + 10 * (max 6 (s.f (R.RAD_MAC.CAPTURE_DB j))) ≤ b.toInt) ∧
    (∃ (s : State) (j : Fin 4) (a b : BitVec 16), b.toInt < a.toInt + 10 * (max 6 (s.f (R.RAD_MAC.CAPTURE_DB j)))) ∧
    (∃ (s : State) (j : Fin 4) (a b : BitVec 16), s.radOn j = true ∧ (s.radAt j).phase ≠ .tx) ∧
    (∃ (s : State) (j : Fin 4) (a b : BitVec 16), (s.radOn j = false ∨ (s.radAt j).phase = .tx)) ∧
    (∃ (s : State) (j : Fin 4), (s.radAt j).phase ≠ .gap ∧ ∃ y, (s.radAt j).gapped = some y) ∧
    (∃ (s : State) (j : Fin 4) (u : RadTx) (l : List RadTx) (a : Nat), (s.radAt j).phase ≠ .duty ∧ (s.radAt j).urgent = u :: l ∧ u.held = some a ∧ (∀ c, heldFirst (s.radAt j).queue = some c → a < c)) ∧
    (∃ (s : State) (j : Fin 4) (u : RadTx) (l : List RadTx) (c : Nat), (s.radAt j).phase ≠ .duty ∧ (s.radAt j).queue = u :: l ∧ u.held = some c ∧ (∀ a, heldFirst (s.radAt j).urgent = some a → c ≤ a)) ∧
    (∃ (s : State) (j : Fin 4) (x : RadTx), (s.radAt j).cur = some x ∧ (s.radAt j).phase = .duty ∧ s.radEarly x = true) ∧
    (∃ (s : State) (j : Fin 4) (x : RadTx), (s.radAt j).cur = some x ∧ (s.radAt j).phase = .duty ∧ (∀ a, heldFirst (s.radAt j).urgent = some a → x.held.getD 0 ≤ a) ∧ (∀ c, heldFirst (s.radAt j).queue = some c → x.held.getD 0 ≤ c)) ∧
    (∃ (s : State) (j : Fin 4) (x u : RadTx) (l : List RadTx) (a : Nat), (s.radAt j).cur = some x ∧ (s.radAt j).phase = .duty ∧ (s.radAt j).urgent = u :: l ∧ u.held = some a ∧ a < x.held.getD 0 ∧ (∀ c, heldFirst (s.radAt j).queue = some c → a < c)) ∧
    (∃ (s : State) (j : Fin 4) (x u : RadTx) (l : List RadTx) (c : Nat), (s.radAt j).cur = some x ∧ (s.radAt j).phase = .duty ∧ (s.radAt j).queue = u :: l ∧ u.held = some c ∧ c < x.held.getD 0 ∧ (∀ a, heldFirst (s.radAt j).urgent = some a → c ≤ a)) ∧
    (∃ x : RadTx, x.copies ≤ x.sent + 1) ∧
    (∃ (s : State) (j : Nat) (y : RadTx), (s.radAt j).gapped = some y) ∧
    (∃ (s : State) (j : Nat), (s.radAt j).gapped = none ∧ (s.radAt j).queue = []) ∧
    (∃ (s : State) (j : Fin 4) (x : RadTx) (l : List RadTx), (s.radAt j).urgent = x :: l ∧ s.radAble j = true ∧ s.radEarly x = true) ∧
    (∃ (s : State) (j : Fin 4) (x : RadTx) (l : List RadTx), (s.radAt j).urgent = x :: l ∧ s.radAble j = true ∧ s.radEarly x = false ∧ (s.radAt j).phase ≠ .tx ∧ s.radFits j (s.txAir j x) true = true) ∧
    (∃ (s : State) (j : Fin 4), s.radAble j = true) ∧
    (∃ (r : Rad) (c : RadTx), r.cur = some c ∧ r.phase = .gap ∧ r.gapped = none) ∧
    (∃ (r : Rad) (c : RadTx), r.cur = some c ∧ r.phase ≠ .gap) ∧
    (∃ (r : Rad) (c : RadTx), r.cur = some c ∧ r.gapped.isSome = true) ∧
    (∀ p, ((radV none).setF R.SYS_PAIR_STATUS.ROLE 1).radOpen 0 (((radV none).setF R.SYS_PAIR_STATUS.ROLE 1).epEui 0) (sdat.take 14) (sdat.drop 14) = some p → ∃ (s : State) (j : Fin 4) (q : BitVec 16) (d : List Byte) (type : Nat), ∃ i, ∃ w, s.radOn j = true ∧ (s.radAt j).phase ≠ .tx ∧ (d.getD 0 0).toNat / 16 = type ∧ (d.getD 0 0).getLsbD 3 = false ∧ radMine d = true ∧ (type = 2 ∨ type = 3 ∨ type = 4 ∨ type = 6) ∧ (s.radKey j).isSome = true ∧ (s.count (R.RAD_CNT_RX_FRAMES.COUNT j)).radRecord j (leNat ((d.drop 4).take 2)) = some i ∧ (s.count (R.RAD_CNT_RX_FRAMES.COUNT j)).radOpen j ((s.count (R.RAD_CNT_RX_FRAMES.COUNT j)).epEui i) (d.take 14) (d.drop 14) = some p ∧ windowStep ((((s.count (R.RAD_CNT_RX_FRAMES.COUNT j)).setF (R.RAD_RSSI.LAST j) q.toNat).radPhaseSeen j i (d.take 14)).radNode j i).window (leNat ((d.drop 6).take 4)) = .accept w ∧ s.lightRole = false) ∧
    ((radG.count (R.RAD_CNT_RX_FRAMES.COUNT 0)).radOpen 0 ((radG.count (R.RAD_CNT_RX_FRAMES.COUNT 0)).epEui 0) (sdat.take 14) (sdat.drop 14) = none → (((radG.count (R.RAD_CNT_RX_FRAMES.COUNT 0)).radOpen 0 gh0.eui (sdat.take 14) (sdat.drop 14)).isSome = true) → ∃ (i : Nat) (g : Ghost) (s : State) (j : Fin 4) (q : BitVec 16) (d : List Byte) (type : Nat), s.radOn j = true ∧ (s.radAt j).phase ≠ .tx ∧ (d.getD 0 0).toNat / 16 = type ∧ (d.getD 0 0).getLsbD 3 = false ∧ radMine d = true ∧ (type = 2 ∨ type = 3 ∨ type = 4 ∨ type = 6) ∧ (s.radKey j).isSome = true ∧ (s.count (R.RAD_CNT_RX_FRAMES.COUNT j)).radRecord j (leNat ((d.drop 4).take 2)) = some i ∧ (s.count (R.RAD_CNT_RX_FRAMES.COUNT j)).radOpen j ((s.count (R.RAD_CNT_RX_FRAMES.COUNT j)).epEui i) (d.take 14) (d.drop 14) = none ∧ (((s.count (R.RAD_CNT_RX_FRAMES.COUNT j)).pair.ghosts.filter (fun g => g.slot == i)).take 4).find? (fun g => ((s.count (R.RAD_CNT_RX_FRAMES.COUNT j)).radOpen j g.eui (d.take 14) (d.drop 14)).isSome) = some g) ∧
    (((rad0 2).count (R.RAD_CNT_RX_FRAMES.COUNT 0)).radOpen 0 (BitVec.ofNat 64 (leNat ((sext.drop 14).take 8))) (sext.take 22) (sext.drop 22) = none → ∃ (s : State) (j : Fin 4) (q : BitVec 16) (d : List Byte) (type : Nat), s.radOn j = true ∧ (s.radAt j).phase ≠ .tx ∧ (d.getD 0 0).toNat / 16 = type ∧ (d.getD 0 0).getLsbD 3 = true ∧ radMine d = true ∧ (s.radKey j).isSome = true ∧ (type = 2 ∨ type = 3 ∨ type = 4 ∨ type = 6) ∧ (s.count (R.RAD_CNT_RX_FRAMES.COUNT j)).validEps.find? (fun i => (s.count (R.RAD_CNT_RX_FRAMES.COUNT j)).ep i EP.PATH == 1 && (s.count (R.RAD_CNT_RX_FRAMES.COUNT j)).epEui i = (BitVec.ofNat 64 (leNat ((d.drop 14).take 8)))) = none ∧ (s.count (R.RAD_CNT_RX_FRAMES.COUNT j)).radOpen j (BitVec.ofNat 64 (leNat ((d.drop 14).take 8))) (d.take 22) (d.drop 22) = none) ∧
    (∀ p, ((rad0 2).count (R.RAD_CNT_RX_FRAMES.COUNT 0)).radOpen 0 (BitVec.ofNat 64 (leNat ((sext.drop 14).take 8))) (sext.take 22) (sext.drop 22) = some p → ∃ (s : State) (j : Fin 4) (q : BitVec 16) (d : List Byte) (type : Nat), s.radOn j = true ∧ (s.radAt j).phase ≠ .tx ∧ (d.getD 0 0).toNat / 16 = type ∧ (d.getD 0 0).getLsbD 3 = true ∧ radMine d = true ∧ (s.radKey j).isSome = true ∧ (type = 2 ∨ type = 3 ∨ type = 4 ∨ type = 6) ∧ (s.count (R.RAD_CNT_RX_FRAMES.COUNT j)).validEps.find? (fun i => (s.count (R.RAD_CNT_RX_FRAMES.COUNT j)).ep i EP.PATH == 1 && (s.count (R.RAD_CNT_RX_FRAMES.COUNT j)).epEui i = (BitVec.ofNat 64 (leNat ((d.drop 14).take 8)))) = none ∧ (s.count (R.RAD_CNT_RX_FRAMES.COUNT j)).radOpen j (BitVec.ofNat 64 (leNat ((d.drop 14).take 8))) (d.take 22) (d.drop 22) = some p ∧ s.lightRole = true) :=
  ⟨⟨radS ((rad0 0x10) |> tAt (399999999 * 4294967296)) (radC (.lbt 0)), 0, -1000, 0, rtx, by decide +kernel⟩,
   ⟨radS (rad0 2) (radC (.lbt 0)), 0, -1000, 0, rtx, by decide +kernel⟩,
   ⟨radS (rad0 2) (radC (.lbt 4)), 0, 0, 4, rtx, by decide +kernel⟩,
   ⟨radS (rad0 2) (radC (.lbt 5)), 0, 0, 5, rtx, by decide +kernel⟩,
   ⟨radS z (radC (.backoff 5)), 0, 5, by decide +kernel⟩,
   ⟨z, 3, fun b h => by rw [show (z.radAt ((3 : Fin 4) : Nat)).phase = RadPhase.idle from by decide +kernel] at h; cases h⟩,
   ⟨z, 3, fun b h => by rw [show (z.radAt ((3 : Fin 4) : Nat)).phase = RadPhase.idle from by decide +kernel] at h; cases h⟩,
   ⟨z, 3, by decide +kernel⟩,
   ⟨z, 3, by decide +kernel⟩,
   ⟨z, 3, by decide +kernel⟩,
   ⟨radS z (radC .tx), 0, rtx, by decide +kernel⟩,
   ⟨radS z (radC .gap), 0, rtx, by decide +kernel⟩,
   ⟨radS (rad0 2) (radC .duty), 0, rtx, by decide +kernel⟩,
   ⟨(rad0 1).setRad 0 { radC .duty with bins := [(0, 108000000)] }, 0, rtx, by decide +kernel⟩,
   ⟨z, 0, rtx, by decide +kernel⟩,
   ⟨(rad0 1).setRad 0 { radC .duty with bins := [(0, 108000000)] }, 0, rtx, by decide +kernel⟩,
   ⟨rad0 2, 0, rtx, by decide +kernel⟩,
   ⟨rad0 2, 0, rtx, List.replicate 32 0, by decide +kernel⟩,
   ⟨z, 0, by decide +kernel⟩,
   ⟨radS (rad0 0x10) (radC .hop), 0, by decide +kernel⟩,
   ⟨z, 0, by decide +kernel⟩,
   ⟨radS z { Rad.off with urgent := [rtx] }, 0, rtx, [], by decide +kernel⟩,
   ⟨radS (rad0 2) { Rad.off with urgent := [rtx] }, 0, rtx, [], by decide +kernel⟩,
   ⟨(rad0 1).setRad 0 { Rad.off with bins := [(0, 108000000)], urgent := [rtx] }, 0, rtx, [], by decide +kernel⟩,
   ⟨radS (rad0 2) { radC .tx with urgent := [rtx] }, 0, rtx, [], by decide +kernel⟩,
   ⟨z, 3, by decide +kernel⟩,
   ⟨radS (rad0 2) (radC .tx), 0, by decide +kernel⟩,
   ⟨z, 3, 0, [], by decide +kernel⟩,
   ⟨rad0 2, 0, 0, sdat.set 2 5, 2, by decide +kernel⟩,
   ⟨(rad0 2).setF (R.RAD_KEY.SLOT 0) 1, 0, 0, sdat, 2, by decide +kernel⟩,
   ⟨rad0 2, 0, 0, sdat, 2, by decide +kernel⟩,
   fun h => ⟨radE, 0, 0, sdat.take 14, 2, 0, by decide +kernel, by decide +kernel, by decide +kernel, by decide +kernel, by decide +kernel, by decide +kernel, by decide +kernel, by decide +kernel, h, by decide +kernel⟩,
   fun p h => ⟨radN (some (5, 1)), 0, 0, sdat, 2, 0, by decide +kernel, by decide +kernel, by decide +kernel, by decide +kernel, by decide +kernel, by decide +kernel, by decide +kernel, by decide +kernel, h, by decide +kernel⟩,
   fun p h => ⟨radN (some (40, 1)), 0, 0, sdat, 2, 0, by decide +kernel, by decide +kernel, by decide +kernel, by decide +kernel, by decide +kernel, by decide +kernel, by decide +kernel, by decide +kernel, h, by decide +kernel⟩,
   fun p h => ⟨radN (none), 0, 0, sdat, 2, 0, (5, 1), by decide +kernel, by decide +kernel, by decide +kernel, by decide +kernel, by decide +kernel, by decide +kernel, by decide +kernel, by decide +kernel, h, by decide +kernel, by decide +kernel⟩,
   ⟨0, 1, by decide +kernel⟩,
   ⟨0, 1, 32, by decide +kernel⟩,
   ⟨rad0 2, 0, 0, 100, by decide +kernel⟩,
   ⟨z, 0, 0, 0, by decide +kernel⟩,
   ⟨rad0 2, 0, 0, 0, by decide +kernel⟩,
   ⟨z, 3, 0, 0, by decide +kernel⟩,
   ⟨radS z { Rad.off with gapped := some rtx }, 0, by decide +kernel, rtx, by decide +kernel⟩,
   ⟨radS (rad0 1) { Rad.off with urgent := [rtxH 7], queue := [rtxH 8] }, 0, rtxH 7, [], 7, by decide +kernel, by decide +kernel, by decide +kernel, (fun a h => by rw [(by decide +kernel : heldFirst ((radS (rad0 1) { Rad.off with urgent := [rtxH 7], queue := [rtxH 8] }).radAt ((0 : Fin 4) : Nat)).queue = some 8)] at h; cases h; decide)⟩,
   ⟨radS (rad0 1) { Rad.off with urgent := [rtxH 8], queue := [rtxH 8] }, 0, rtxH 8, [], 8, by decide +kernel, by decide +kernel, by decide +kernel, (fun a h => by rw [(by decide +kernel : heldFirst ((radS (rad0 1) { Rad.off with urgent := [rtxH 8], queue := [rtxH 8] }).radAt ((0 : Fin 4) : Nat)).urgent = some 8)] at h; cases h; decide)⟩,
   ⟨radS (cals (rad0 2) { cal0 [{ cp (.radio 0) .left with launch := mkStamp 100 0 0 }] with immediate := false, path := 1 }) { Rad.off with cur := some { rtx with cal := some 131071 }, phase := .duty }, 0, { rtx with cal := some 131071 }, by decide +kernel⟩,
   ⟨radS (rad0 1) { Rad.off with cur := some (rtxH 8), phase := .duty, urgent := [rtxH 8], queue := [rtxH 8] }, 0, rtxH 8, by decide +kernel, by decide +kernel, (fun a h => by rw [(by decide +kernel : heldFirst ((radS (rad0 1) { Rad.off with cur := some (rtxH 8), phase := .duty, urgent := [rtxH 8], queue := [rtxH 8] }).radAt ((0 : Fin 4) : Nat)).urgent = some 8)] at h; cases h; decide), (fun a h => by rw [(by decide +kernel : heldFirst ((radS (rad0 1) { Rad.off with cur := some (rtxH 8), phase := .duty, urgent := [rtxH 8], queue := [rtxH 8] }).radAt ((0 : Fin 4) : Nat)).queue = some 8)] at h; cases h; decide)⟩,
   ⟨radS (rad0 1) { Rad.off with cur := some (rtxH 8), phase := .duty, urgent := [rtxH 7], queue := [rtxH 8] }, 0, rtxH 8, rtxH 7, [], 7, by decide +kernel, by decide +kernel, by decide +kernel, by decide +kernel, by decide +kernel, (fun a h => by rw [(by decide +kernel : heldFirst ((radS (rad0 1) { Rad.off with cur := some (rtxH 8), phase := .duty, urgent := [rtxH 7], queue := [rtxH 8] }).radAt ((0 : Fin 4) : Nat)).queue = some 8)] at h; cases h; decide)⟩,
   ⟨radS (rad0 1) { Rad.off with cur := some (rtxH 8), phase := .duty, urgent := [rtxH 7], queue := [rtxH 7] }, 0, rtxH 8, rtxH 7, [], 7, by decide +kernel, by decide +kernel, by decide +kernel, by decide +kernel, by decide +kernel, (fun a h => by rw [(by decide +kernel : heldFirst ((radS (rad0 1) { Rad.off with cur := some (rtxH 8), phase := .duty, urgent := [rtxH 7], queue := [rtxH 7] }).radAt ((0 : Fin 4) : Nat)).urgent = some 7)] at h; cases h; decide)⟩,
   ⟨{ rtx with sent := 1 }, by decide +kernel⟩,
   ⟨radS z { Rad.off with gapped := some rtx }, 0, rtx, by decide +kernel⟩,
   ⟨z, 0, by decide +kernel⟩,
   ⟨radS (cals (rad0 2) { cal0 [{ cp (.radio 0) .left with launch := mkStamp 100 0 0 }] with immediate := false, path := 1 }) { Rad.off with urgent := [{ rtx with cal := some 131071 }] }, 0, { rtx with cal := some 131071 }, [], by decide +kernel⟩,
   ⟨radS (rad0 2) { radC (.lbt 0) with urgent := [rtx] }, 0, rtx, [], by decide +kernel⟩,
   ⟨rad0 2, 0, by decide +kernel⟩,
   ⟨radC .gap, rtx, by decide +kernel⟩,
   ⟨radC (.lbt 0), rtx, by decide +kernel⟩,
   ⟨{ radC .gap with gapped := some rtx }, rtx, by decide +kernel⟩,
   fun p h => ⟨(radN none).setF R.SYS_PAIR_STATUS.ROLE 1, 0, 0, sdat, 2, 0, (5, 1), by decide +kernel, by decide +kernel, by decide +kernel, by decide +kernel, by decide +kernel, by decide +kernel, by decide +kernel, by decide +kernel, h, by decide +kernel, by decide +kernel⟩,
   fun h k => ⟨0, gh0, radG, 0, 0, sdat, 2, by decide +kernel, by decide +kernel, by decide +kernel, by decide +kernel, by decide +kernel, by decide +kernel, by decide +kernel, by decide +kernel, h, by
    have e : ((radG.count (R.RAD_CNT_RX_FRAMES.COUNT 0)).pair.ghosts.filter (fun g => g.slot == 0)).take 4 = [gh0] := by decide +kernel
    exact (congrArg (List.find? _) e).trans (List.find?_cons_of_pos k)⟩,
   fun h => ⟨rad0 2, 0, 0, sext, 6, by decide +kernel, by decide +kernel, by decide +kernel, by decide +kernel, by decide +kernel, by decide +kernel, by decide +kernel, by decide +kernel, h⟩,
   fun p h => ⟨rad0 2, 0, 0, sext, 6, by decide +kernel, by decide +kernel, by decide +kernel, by decide +kernel, by decide +kernel, by decide +kernel, by decide +kernel, by decide +kernel, h, by decide +kernel⟩⟩

theorem test_witness_CanChannels :
    (∃ (s : State) (c : Fin 8) (f : CanFrame) (w : Word), s.canUp c = false) ∧
    (∃ (s : State) (c : Fin 8) (f : CanFrame) (w : Word), s.canUp c = true ∧ s.isField c f = true ∧ fieldType f = 1) ∧
    (∃ (s : State) (c : Fin 8) (f : CanFrame) (w : Word), s.canUp c = true ∧ s.isField c f = true ∧ fieldType f = 2) ∧
    (∃ (s : State) (c : Fin 8) (f : CanFrame) (w : Word), s.canUp c = true ∧ s.isField c f = false) ∧
    (∃ (s : State) (c : Fin 8) (f : CanFrame) (w : Word), ((s.count (R.CAN_CNT_RX.COUNT c)).recGood c).canMode c = 2) ∧
    (∃ (s : State) (c : Fin 8) (f : CanFrame) (w : Word), ((s.count (R.CAN_CNT_RX.COUNT c)).recGood c).canMode c ≠ 2 ∧ ((s.count (R.CAN_CNT_RX.COUNT c)).recGood c).isField c f = true ∧ fieldOk f = false) ∧
    (∃ (s : State) (c : Fin 8) (f : CanFrame) (w : Word), ((s.count (R.CAN_CNT_RX.COUNT c)).recGood c).canMode c ≠ 2 ∧ ((s.count (R.CAN_CNT_RX.COUNT c)).recGood c).isField c f = true ∧ fieldOk f = true ∧ ((s.count (R.CAN_CNT_RX.COUNT c)).recGood c).lightRole = true ∧ fieldType f = 1) ∧
    (∃ (s : State) (c : Fin 8) (f : CanFrame) (w : Word), ((s.count (R.CAN_CNT_RX.COUNT c)).recGood c).canMode c ≠ 2 ∧ ((s.count (R.CAN_CNT_RX.COUNT c)).recGood c).isField c f = true ∧ fieldOk f = true ∧ ((s.count (R.CAN_CNT_RX.COUNT c)).recGood c).lightRole = true ∧ fieldType f = 2) ∧
    (∃ (s : State) (c : Fin 8) (f : CanFrame) (w : Word), ((s.count (R.CAN_CNT_RX.COUNT c)).recGood c).isField c f = true ∧ fieldOk f = true ∧ ((s.count (R.CAN_CNT_RX.COUNT c)).recGood c).lightRole = false) ∧
    (∃ (s : State) (c : Fin 8) (f : CanFrame) (w : Word), ((s.count (R.CAN_CNT_RX.COUNT c)).recGood c).canMode c ≠ 2 ∧ ((s.count (R.CAN_CNT_RX.COUNT c)).recGood c).isField c f = false) ∧
    (∃ (s : State) (c : Fin 8) (f : CanFrame) (w : Word), s.f (R.CAN_STATUS.REC c) ≤ 127) ∧
    (∃ (s : State) (c : Fin 8) (f : CanFrame) (w : Word), 127 < s.f (R.CAN_STATUS.REC c)) ∧
    (∃ (s : State) (c : Fin 8) (f : CanFrame) (w : Word), ∃ m, m < 16 ∧ s.mbMatch c m f = true ∧ (∀ k, k < m → s.mbMatch c k f = false)) ∧
    (∃ (s : State) (c : Fin 8) (f : CanFrame) (w : Word), (∀ m, m < 16 → s.mbMatch c m f = false) ∧ s.quLevel (.bulk c) + s.f (R.CAN_BULK_OWED.OWED c) < 512) ∧
    (∃ (s : State) (c : Fin 8) (f : CanFrame) (w : Word), (∀ m, m < 16 → s.mbMatch c m f = false) ∧ 512 ≤ s.quLevel (.bulk c) + s.f (R.CAN_BULK_OWED.OWED c)) ∧
    (∃ (s : State) (c : Fin 8) (m : Fin 16) (w : List Word), s.on (R.CAN_MB_STAT.LOCKED c m) = false ∧ s.on (R.CAN_MB_STAT.FULL c m) = true) ∧
    (∃ (s : State) (c : Fin 8) (m : Fin 16) (w : List Word), s.on (R.CAN_MB_STAT.LOCKED c m) = true) ∧
    (∃ (s : State) (c : Fin 8) (m : Fin 16), s.reaches (R.CAN_MB_WORD0.reg c m).blk (R.CAN_MB_WORD0.reg c m).off false = true) ∧
    (∃ (s : State) (c : Fin 8) (m : Fin 16), s.reaches (R.CAN_MB_DATA.reg c m 15).blk (R.CAN_MB_DATA.reg c m 15).off false = true) ∧
    (∃ (s : State) (c : Fin 8) (b : Fin 4), s.reaches (R.CAN_TX_CTL.reg c b).blk (R.CAN_TX_CTL.reg c b).off true = true ∧ (∃ x ∈ (s.canAt c).pend, x.buf = some b.val)) ∧
    (∃ (s : State) (c : Fin 8) (b : Fin 4), s.reaches (R.CAN_TX_CTL.reg c b).blk (R.CAN_TX_CTL.reg c b).off true = true ∧ (∀ x ∈ (s.canAt c).pend, x.buf ≠ some b.val)) ∧
    (∃ (s : State) (c : Fin 8) (b : Fin 4), ∃ x, s.reaches (R.CAN_TX_CTL.reg c b).blk (R.CAN_TX_CTL.reg c b).off true = true ∧ (s.canAt c).pend.find? (fun y => y.buf == some b.val) = some x) ∧
    (∃ (l : List CanTx) (x : CanTx), canBest l = some x) ∧
    (∃ (l : List CanTx) (x : CanTx), ∃ y ∈ l, canBest l = some x) ∧
    (∃ (s : State) (c : Fin 8) (o : CanOutcome), (s.canSends c = false ∨ (s.canAt c).pend = [])) ∧
    (∃ (s : State) (c : Fin 8) (x : CanTx), s.canSends c = true ∧ canBest (s.canAt c).pend = some x ∧ x.fails < s.f (R.CAN_RETRY.LIMIT c)) ∧
    (∃ (s : State) (c : Fin 8) (x : CanTx), s.canSends c = true ∧ canBest (s.canAt c).pend = some x ∧ s.f (R.CAN_RETRY.LIMIT c) ≤ x.fails) ∧
    (∃ (s : State) (c : Fin 8) (x : CanTx), ∃ (e : Fin 7) (arb : Bool) (more : Nat), s.canSends c = true ∧ canBest (s.canAt c).pend = some x ∧ s.f (R.CAN_STATUS.TEC c) + (if (s.f (R.CAN_STATUS.STATE c) = 1 ∧ e.val = 3) ∨ (arb = true ∧ e.val = 1) then 0 else 8) + 8 * more < 256) ∧
    (∃ (s : State) (c : Fin 8) (x : CanTx), ∃ (e : Fin 7) (arb : Bool) (more : Nat), s.canSends c = true ∧ canBest (s.canAt c).pend = some x ∧ 256 ≤ s.f (R.CAN_STATUS.TEC c) + (if (s.f (R.CAN_STATUS.STATE c) = 1 ∧ e.val = 3) ∨ (arb = true ∧ e.val = 1) then 0 else 8) + 8 * more) ∧
    (∃ (s : State) (c : Fin 8), s.canUp c = false) ∧
    (∃ (s : State) (c : Fin 8), s.canUp c = true ∧ 248 ≤ s.f (R.CAN_STATUS.TEC c)) ∧
    (∃ (s : State) (c : Fin 8), ∃ (e : Fin 7) (b : Bool), s.canUp c = true) ∧
    (∃ (s : State) (c : Fin 8), s.on (R.CAN_STATUS.RECOVERING c) = true) ∧
    (∃ (s : State) (c : Fin 8), s.on (R.CAN_STATUS.RECOVERING c) = false) ∧
    (∃ (s : State) (c : Fin 8), s.canField c = []) ∧
    (∃ (s : State) (c : Fin 8), ∃ x l, s.canField c = x :: l) ∧
    (∃ (s : State) (c : Fin 8), s.reaches (R.CAN_CMD.reg c).blk (R.CAN_CMD.reg c).off true = true ∧ s.f (R.CAN_STATUS.STATE c) = 2) ∧
    (∃ (s : State) (c : Fin 8), s.reaches (R.CAN_CMD.reg c).blk (R.CAN_CMD.reg c).off true = true ∧ s.f (R.CAN_STATUS.STATE c) ≠ 2) ∧
    (∃ (s : State) (c : Fin 8), s.reaches (R.CAN_CMD.reg c).blk (R.CAN_CMD.reg c).off true = true ∧ (s.canAt c).pend = []) ∧
    (∃ (s : State) (c : Nat) (f : CanFrame), 64 ≤ (s.canField c).length) ∧
    (∃ (s : State) (c : Nat) (f : CanFrame), (s.canField c).length < 64) ∧
    (∃ (s : State) (c : Fin 8) (x : CanSnap) (l : List CanSnap), s.can.snaps = x :: l ∧ s.reaches (R.CAN_TS_SNAP_CNT.reg c).blk (R.CAN_TS_SNAP_CNT.reg c).off false = true) ∧
    (∃ (s : State) (c : Fin 8) (n : BitVec 10), s.reaches (R.CAN_BULK_ACK.reg c).blk (R.CAN_BULK_ACK.reg c).off true = true) ∧
    (∃ (s : State) (c : Fin 8), s.canUp c = true ∧ s.f (R.CAN_STATUS.TEC c) < 248) ∧
    (∃ (s : State) (c : Fin 8), s.canUp c = true ∧ 248 ≤ s.f (R.CAN_STATUS.TEC c) ∧ s.on (R.CAN_CFG.AUTO_REC c) = true ∧ ∃ x, canBest (s.canAt c).pend = some x) ∧
    (∃ f g : CanFrame, f.ide = g.ide ∧ f.ident = g.ident) ∧
    (∃ (s : State) (c : Fin 8) (x : CanTx), s.canSends c = true ∧ canBest (s.canAt c).pend = some x) ∧
    (∃ (s : State) (c : Fin 8) (x : CanTx), s.canSends c = true ∧ canBest (s.canAt c).pend = some x ∧ s.canMode c = 0) ∧
    (∃ (s : State) (c : Fin 8) (x : CanTx) (bit : Bool) (more : Nat), s.canSends c = true ∧ canBest (s.canAt c).pend = some x ∧ 256 ≤ s.f (R.CAN_STATUS.TEC c) - 1 + 8 * (b2n bit + more) ∧ bit = true) :=
  ⟨⟨z, 7, cfo, 0, by decide +kernel⟩,
   ⟨can7f, 7, cf 1, 0, by decide +kernel⟩,
   ⟨can7f, 7, cf 2, 0, by decide +kernel⟩,
   ⟨can7, 7, cfo, 0, by decide +kernel⟩,
   ⟨can7f.setF (R.CAN_CFG.MODE 7) 2, 7, cf 1, 0, by decide +kernel⟩,
   ⟨can7f, 7, { cf 3 with data := List.replicate 32 0 }, 0, by decide +kernel⟩,
   ⟨can7f, 7, cf 1, 0, by decide +kernel⟩,
   ⟨can7f, 7, cf 2, 0, by decide +kernel⟩,
   ⟨can7f.setF R.SYS_PAIR_STATUS.ROLE 1, 7, cf 2, 0, by decide +kernel⟩,
   ⟨can7, 7, cfo, 0, by decide +kernel⟩,
   ⟨can7.setF (R.CAN_STATUS.REC 7) 127, 7, cfo, 0, by decide +kernel⟩,
   ⟨can7.setF (R.CAN_STATUS.REC 7) 128, 7, cfo, 0, by decide +kernel⟩,
   ⟨((can7.setF (R.CAN_MB_FILT.EN 7 15) 1).setF (R.CAN_MB_FILT.IDE 7 15) 0).setF (R.CAN_MB_MASK.MASK 7 15) 0, 7, cfo, 0, 15, by decide +kernel⟩,
   ⟨can7.setF (R.CAN_BULK_OWED.OWED 7) 511, 7, cfo, 0, by decide +kernel⟩,
   ⟨can7.setF (R.CAN_BULK_OWED.OWED 7) 512, 7, cfo, 0, by decide +kernel⟩,
   ⟨z.setF (R.CAN_MB_STAT.FULL 7 15) 1, 7, 15, [], by decide +kernel⟩,
   ⟨z.setF (R.CAN_MB_STAT.LOCKED 7 15) 1, 7, 15, [], by decide +kernel⟩,
   ⟨clk z, 7, 15, by decide +kernel⟩,
   ⟨clk z, 7, 15, by decide +kernel⟩,
   ⟨canP (clk z) [ctx7], 7, 3, by decide +kernel, ⟨ctx7, by decide +kernel, by decide +kernel⟩⟩,
   ⟨clk z, 7, 3, by decide +kernel⟩,
   ⟨canP (clk z) [ctx7], 7, 3, ctx7, by decide +kernel⟩,
   ⟨[ctx7], ctx7, by decide +kernel⟩,
   ⟨[ctx7, ctxf], ctxf, ctxf, by decide +kernel, by decide +kernel⟩,
   ⟨z, 7, .lost, by decide +kernel⟩,
   ⟨canP can7 [ctx7], 7, ctx7, by decide +kernel⟩,
   ⟨(canP can7 [ctxf]).setF (R.CAN_RETRY.LIMIT 7) 5, 7, ctxf, by decide +kernel⟩,
   ⟨(canP can7 [ctx7]).setF (R.CAN_STATUS.TEC 7) 255, 7, ctx7, 1, true, 0, by decide +kernel⟩,
   ⟨(canP can7 [ctx7]).setF (R.CAN_STATUS.TEC 7) 240, 7, ctx7, 6, false, 1, by decide +kernel⟩,
   ⟨z, 7, by decide +kernel⟩,
   ⟨can7.setF (R.CAN_STATUS.TEC 7) 248, 7, by decide +kernel⟩,
   ⟨can7, 7, 6, true, by decide +kernel⟩,
   ⟨z.setF (R.CAN_STATUS.RECOVERING 7) 1, 7, by decide +kernel⟩,
   ⟨z, 7, by decide +kernel⟩,
   ⟨z, 7, by decide +kernel⟩,
   ⟨canP z [ctxf], 7, ctxf, [], by decide +kernel⟩,
   ⟨canSt 2, 7, by decide +kernel⟩,
   ⟨canSt 3, 7, by decide +kernel⟩,
   ⟨clk z, 7, by decide +kernel⟩,
   ⟨canP z (List.replicate 64 ctxf), 7, cfo, by decide +kernel⟩,
   ⟨canP z (List.replicate 63 ctxf), 7, cfo, by decide +kernel⟩,
   ⟨{ clk z with can := { z.can with snaps := [⟨0, 0, 0⟩] } }, 7, ⟨0, 0, 0⟩, [], by decide +kernel⟩,
   ⟨clk z, 7, 1023, by decide +kernel⟩,
   ⟨can7.setF (R.CAN_STATUS.TEC 7) 247, 7, by decide +kernel⟩,
   ⟨((canP can7 [ctx7]).setF (R.CAN_STATUS.TEC 7) 255).setF (R.CAN_CFG.AUTO_REC 7) 1, 7, by decide +kernel, by decide +kernel, by decide +kernel, ctx7, by decide +kernel⟩,
   ⟨cfo, { cfo with rtr := true, data := [] }, by decide +kernel⟩,
   ⟨canP can7 [ctx7], 7, ctx7, by decide +kernel⟩,
   ⟨canP can7 [ctx7], 7, ctx7, by decide +kernel⟩,
   ⟨(canP can7 [ctx7]).setF (R.CAN_STATUS.TEC 7) 249, 7, ctx7, true, 0, by decide +kernel⟩⟩

theorem test_witness_FieldOutputs :
    (∃ (s : State) (n : Fin 16) (vals : BitVec 16), s.dioIn n = true ∧ (s.f R.DIO_DIAG1.BANK_LOW_NOW).testBit (n.val / 4) = false ∧ vals.getLsbD n ≠ (s.f R.DIO_IN.IN).testBit n) ∧
    (∃ (s : State) (n : Fin 16), s.dioOutCh (s.dioLead n) = false) ∧
    (∃ (s : State) (n : Fin 16), (s.on (R.DIO_CH_CFG.RETRY (s.dioLead n)) = false ∨ s.dioOver n = false)) ∧
    (∃ (s : State) (n : Fin 16), s.on (R.DIO_CH_CFG.RETRY (s.dioLead n)) = true ∧ s.dioOver n = true) ∧
    (∃ (s : State) (n : Fin 16), (∀ e ∈ s.ind.retry, s.power.opTicks < e.2 + 625000)) ∧
    (∃ (s : State) (n : Fin 16), ∃ e ∈ s.ind.retry, e.1 < 16 ∧ e.2 + 625000 ≤ s.power.opTicks) ∧
    (∃ (s : State) (j : Fin 4) (v i : BitVec 16), 1000 ≤ pwmCounts (s.f (R.IND_STR_STATUS.CODE j))) ∧
    (∃ (s : State) (j : Fin 4) (v i : BitVec 16), pwmCounts (s.f (R.IND_STR_STATUS.CODE j)) < 1000) ∧
    (∃ (s : State) (n : Fin 16), s.dioOutCh (s.dioLead n) = true ∧ s.on (R.DIO_CH_CFG.OW_EN (s.dioLead n)) = true) ∧
    (∃ (s : State) (j : Nat), (s.on (R.IND_STR_CFG.EN j) = false ∨ s.lightRole = false ∨ s.on (R.IND_STR_STATUS.OPEN_NOW j) = true ∨ s.on (R.IND_STR_STATUS.SHORT_NOW j) = true ∨ s.on (R.IND_STR_STATUS.AON_HELD j) = true)) ∧
    (∃ (s : State) (j : Fin 4) (x : BitVec 16), s.on (R.IND_STR_CFG.EN j) = true ∧ 1000 ≤ pwmCounts (s.f (R.IND_STR_STATUS.CODE j)) ∧ s.on (R.IND_STR_STATUS.HEADROOM_NOW j) = false) ∧
    (∃ (s : State) (j : Fin 4) (x : BitVec 16), s.on (R.IND_STR_CFG.EN j) = true ∧ 1000 ≤ pwmCounts (s.f (R.IND_STR_STATUS.CODE j)) ∧ s.on (R.IND_STR_STATUS.UNDER_NOW j) = false) ∧
    (∃ (s : State) (j : Fin 4) (x : BitVec 16), s.on (R.IND_STR_CFG.EN j) = true ∧ 1000 ≤ pwmCounts (s.f (R.IND_STR_STATUS.CODE j)) ∧ s.on (R.IND_STR_STATUS.OPEN_NOW j) = false) ∧
    (∃ (s : State) (j : Fin 4) (x : BitVec 16), s.on (R.IND_STR_CFG.EN j) = true ∧ 1000 ≤ pwmCounts (s.f (R.IND_STR_STATUS.CODE j)) ∧ s.on (R.IND_STR_STATUS.SHORT_NOW j) = false ∧ 50 * 1023 ≤ 1500 * s.f (R.IND_STR_CFG.CURRENT j)) ∧
    (∃ (s : State) (j : Fin 4) (x : BitVec 16), s.on (R.IND_STR_CFG.EN j) = true ∧ 1000 ≤ pwmCounts (s.f (R.IND_STR_STATUS.CODE j)) ∧ 1500 * s.f (R.IND_STR_CFG.CURRENT j) < 50 * 1023) ∧
    (∃ (s : State) (j : Fin 4) (x : BitVec 16), s.on (R.IND_STR_CFG.EN j) = true ∧ 1000 ≤ pwmCounts (s.f (R.IND_STR_STATUS.CODE j)) ∧ s.on (R.IND_STR_STATUS.OPEN_NOW j) = true) ∧
    (∃ (s : State) (j : Fin 4) (x : BitVec 16), s.on (R.IND_STR_CFG.EN j) = false) ∧
    (∃ (s : State) (j : Fin 4) (x : BitVec 16), 1000 ≤ pwmCounts (s.f (R.IND_STR_STATUS.CODE j))) ∧
    (∃ (s : State) (j : Fin 4) (x : BitVec 16), pwmCounts (s.f (R.IND_STR_STATUS.CODE j)) < 1000) ∧
    (∃ (s : State) (n : Fin 4), (s.on (R.IND_CH_CFG0.EN n) = false ∨ (s.chainAt n).frame.isSome = true)) ∧
    (∃ (s : State) (n : Fin 4), s.on (R.IND_CH_CFG0.EN n) = true ∧ (s.chainAt n).frame = none ∧ (s.chainAt n).fetched = []) ∧
    (∃ (s : State) (n : Fin 4) (l : List Word), (s.chainAt n).frame = none) ∧
    (∃ (s : State) (n : Fin 4) (l : List Word), ∃ f, ∃ t, (s.chainAt n).frame = some f ∧ f.instant = some t ∧ s.reached t = false) ∧
    (∃ (s : State) (n : Fin 4) (l : List Word), ∃ f, (s.chainAt n).frame = some f ∧ f.shifted = false ∧ f.copies = [] ∧ (s.chainAt n).errs = 0 ∧ l.length ≠ s.chLen n) ∧
    (∃ (s : State) (n : Fin 4) (l : List Word), ∃ f, (s.chainAt n).frame = some f ∧ f.shifted = true ∧ f.instant = none ∧ f.copies = [] ∧ (s.chainAt n).fetched = [] ∧ ((s.chainAt n).latches + 1) % 3 ≠ 0) ∧
    (∃ t m g : Nat, 192 < t ∧ t ≤ 320 ∧ g * 101 < m * 100) ∧
    (∃ t m g : Nat, 192 ≤ t ∧ t < 320 ∧ m * 100 < g * 99) ∧
    (∃ t m g : Nat, 192 ≤ t ∧ t ≤ 320 ∧ m * 100 ≤ g * 101 ∧ g * 99 ≤ m * 100) ∧
    (∃ (s : State) (n g : Nat), s.f (R.IND_FB_READ0.R g) + s.f (R.IND_FB_READ0.G g) + s.f (R.IND_FB_READ1.B g) < 64) :=
  ⟨⟨z.setF (R.DIO_CH_CFG.EN 15) 1, 15, 0x8000, by decide +kernel⟩,
   ⟨z, 15, by decide +kernel⟩,
   ⟨z.setF (R.DIO_CH_CFG.RETRY 15) 0, 15, by decide +kernel⟩,
   ⟨(z.setF (R.DIO_CH_CFG.RETRY 15) 1).setF R.DIO_DIAG0.OVERLOAD_NOW 0x8000, 15, by decide +kernel⟩,
   ⟨opAt 624999 { z with ind := { z.ind with retry := [(15, 0)] } }, 15, by decide +kernel⟩,
   ⟨opAt 625000 { z with ind := { z.ind with retry := [(15, 0)] } }, 15, (15, 0), by decide +kernel, by decide +kernel⟩,
   ⟨stage 3, 3, 0, 0, by decide +kernel⟩,
   ⟨z, 3, 0, 0, by decide +kernel⟩,
   ⟨((z.setF (R.DIO_CH_CFG.EN 15) 1).setF (R.DIO_CH_CFG.DIR 15) 1).setF (R.DIO_CH_CFG.OW_EN 15) 1, 15, by decide +kernel⟩,
   ⟨z, 3, by decide +kernel⟩,
   ⟨stage 3, 3, 0, by decide +kernel⟩,
   ⟨stage 3, 3, 0, by decide +kernel⟩,
   ⟨stage 3, 3, 0, by decide +kernel⟩,
   ⟨(stage 3).setF (R.IND_STR_CFG.CURRENT 3) 35, 3, 0, by decide +kernel⟩,
   ⟨(stage 3).setF (R.IND_STR_CFG.CURRENT 3) 34, 3, 0, by decide +kernel⟩,
   ⟨(stage 3).setF (R.IND_STR_STATUS.OPEN_NOW 3) 1, 3, 0, by decide +kernel⟩,
   ⟨z, 3, 0, by decide +kernel⟩,
   ⟨stage 3, 3, 0, by decide +kernel⟩,
   ⟨z, 3, 0, by decide +kernel⟩,
   ⟨z, 3, by decide +kernel⟩,
   ⟨z.setF (R.IND_CH_CFG0.EN 3) 1, 3, by decide +kernel⟩,
   ⟨z, 3, [], by decide +kernel⟩,
   ⟨chn { Chain.off with frame := some { chf with instant := some (mkStamp 1 0 0) } }, 3, [], { chf with instant := some (mkStamp 1 0 0) }, mkStamp 1 0 0, by decide +kernel⟩,
   ⟨chn { Chain.off with frame := some chf }, 3, List.replicate 1025 0, chf, by decide +kernel⟩,
   ⟨chn { Chain.off with frame := some { chf with shifted := true } }, 3, [], { chf with shifted := true }, by decide +kernel⟩,
   ⟨320, 102, 100, by decide +kernel⟩,
   ⟨192, 98, 100, by decide +kernel⟩,
   ⟨320, 100, 101, by decide +kernel⟩,
   ⟨z, 3, 1023, by decide +kernel⟩⟩

theorem test_witness_ClockAndRecorder :
    (∃ s : State, s.f R.RTC_TIME.SEC < 59) ∧
    (∃ s : State, 59 ≤ s.f R.RTC_TIME.SEC ∧ s.f R.RTC_TIME.MIN < 59) ∧
    (∃ s : State, 59 ≤ s.f R.RTC_TIME.SEC ∧ 59 ≤ s.f R.RTC_TIME.MIN ∧ s.f R.RTC_TIME.HOUR < 23) ∧
    (∃ s : State, 59 ≤ s.f R.RTC_TIME.SEC ∧ 59 ≤ s.f R.RTC_TIME.MIN ∧ 23 ≤ s.f R.RTC_TIME.HOUR) ∧
    (∃ s : State, s.f R.RTC_DATE.DAY < (monthLen (s.f R.RTC_DATE.YEAR) (s.f R.RTC_DATE.MONTH))) ∧
    (∃ s : State, (monthLen (s.f R.RTC_DATE.YEAR) (s.f R.RTC_DATE.MONTH)) ≤ s.f R.RTC_DATE.DAY ∧ s.f R.RTC_DATE.MONTH < 12) ∧
    (∃ s : State, (monthLen (s.f R.RTC_DATE.YEAR) (s.f R.RTC_DATE.MONTH)) ≤ s.f R.RTC_DATE.DAY ∧ 12 ≤ s.f R.RTC_DATE.MONTH) ∧
    (∃ (s : State) (v : Word), s.reaches R.RTC_TIME.reg.blk R.RTC_TIME.reg.off true = true ∧ s.reaches R.RTC_DATE.reg.blk R.RTC_DATE.reg.off true = true) ∧
    (∃ s : State, s.rtc.shadow = s.regs.rtc) ∧
    (∃ (s : State) (a : Fin 2) (v : Word), s.reaches (R.RTC_ALM_CTL.reg a).blk (R.RTC_ALM_CTL.reg a).off true = true) ∧
    (∃ (s : State) (a : Fin 2), (s.on (R.RTC_ALM_CTL.EN a) = false ∨ s.almMatch a = false ∨ s.rtc.fired a = true)) ∧
    (∃ (s : State) (a : Fin 2), s.on (R.RTC_ALM_CTL.EN a) = true ∧ s.almMatch a = true ∧ s.rtc.fired a = false) ∧
    (∃ (s : State) (x : BitVec 16), x.toInt < -12800) ∧
    (∃ s : State, s.reaches R.RTC_CMD.reg.blk R.RTC_CMD.reg.off true = true ∧ s.on R.RTC_STATUS.ALIGN_WAIT = true) ∧
    (∃ s : State, s.reaches R.RTC_CMD.reg.blk R.RTC_CMD.reg.off true = true ∧ s.on R.RTC_STATUS.ALIGN_WAIT = false ∧ (s.sync = 2 ∨ s.sync = 3)) ∧
    (∃ s : State, s.reaches R.RTC_CMD.reg.blk R.RTC_CMD.reg.off true = true ∧ s.on R.RTC_STATUS.ALIGN_WAIT = false ∧ s.sync ≠ 2 ∧ s.sync ≠ 3) ∧
    (∃ s : State, s.on R.RTC_STATUS.ALIGN_WAIT = false) ∧
    (∃ s : State, s.on R.RTC_STATUS.ALIGN_WAIT = true ∧ (((stampSec s.now : Int) - toSigned 32 (s.r R.TIME_UTCOFF.reg).toNat) < 946684800 ∨ 7258118400 ≤ ((stampSec s.now : Int) - toSigned 32 (s.r R.TIME_UTCOFF.reg).toNat))) ∧
    (∃ s : State, s.on R.RTC_STATUS.ALIGN_WAIT = true ∧ 946684800 ≤ ((stampSec s.now : Int) - toSigned 32 (s.r R.TIME_UTCOFF.reg).toNat) ∧ ((stampSec s.now : Int) - toSigned 32 (s.r R.TIME_UTCOFF.reg).toNat) < 7258118400) ∧
    (∃ r : Recorder, r.offered ≠ []) ∧
    (∃ (s : State) (o : Offer), (s.rcd.isOpen = false ∨ s.rcd.offered = [])) ∧
    (∃ (s : State) (o : Offer), s.rcd.isOpen = true ∧ s.rcd.offered[s.rcd.front]? = some o) ∧
    (∃ (s : State) (o : Offer), s.rcd.closed = true) ∧
    (∃ (s : State) (o : Offer), s.rcd.closed = false ∧ (s.ledger.shut = false ∨ s.rcd.nextSeq < s.ledger.seqReserved) ∧ s.f R.REC_STATUS.A = 1 ∧ recsBytes s.rcd.bufA + (s.mkRec o).size ≤ 262144) ∧
    (∃ (s : State) (o : Offer), s.rcd.closed = false ∧ (s.ledger.shut = false ∨ s.rcd.nextSeq < s.ledger.seqReserved) ∧ 2 ≤ s.f R.REC_STATUS.A ∧ 2 ≤ s.f R.REC_STATUS.B) ∧
    (∃ s : State, s.f R.REC_STATUS.A ≠ 1 ∧ s.f R.REC_STATUS.B ≠ 1) ∧
    (∃ s : State, s.f R.REC_STATUS.A = 1 ∧ s.f R.REC_STATUS.B ≠ 3 ∧ s.rcd.bufA ≠ []) ∧
    (∃ s : State, s.f R.REC_STATUS.A ≠ 3 ∧ s.f R.REC_STATUS.B ≠ 3) ∧
    (∃ s : State, s.flashStuck .log = true) ∧
    (∃ s : State, s.flashStuck .log = false ∧ s.f R.REC_STATUS.A = 3 ∧ s.rcd.used + (32 + recsBytes s.rcd.bufA) ≤ 4194304) ∧
    (∃ s : State, s.on R.REC_STATUS.COPY_BUSY = true) ∧
    (∃ s : State, s.on R.REC_STATUS.COPY_BUSY = false) ∧
    (∃ s : State, s.rcd.copy = none) ∧
    (∃ s : State, ∃ c, s.rcd.copy = some c) ∧
    (∃ (s : State) (v : Word), ((getBits v 0 16) < 0x8000 ∨ (getBits v 16 11) < 8 ∨ 1024 < (getBits v 16 11))) ∧
    (∃ (s : State) (v : Word), 0x8000 ≤ (getBits v 0 16) ∧ 8 ≤ (getBits v 16 11) ∧ (getBits v 16 11) ≤ 1024 ∧ (getBits v 16 11) % 4 = 0) ∧
    (∃ s : State, s.flashStuck .log = false) ∧
    (∃ s : State, ∃ w l, s.ledger.writes = w :: l) ∧
    (∃ s : State, s.rcd.isOpen = true ∧ s.rcd.closed = false) ∧
    (∃ s : State, (s.rcd.isOpen = false ∨ s.rcd.closed = true)) ∧
    (∃ s : State, s.ledger.shut = true ∧ s.ledger.seqReserved ≤ s.rcd.nextSeq) :=
  ⟨⟨rtc 24 2 29 23 59 58, by decide +kernel⟩,
   ⟨rtc 24 2 29 23 58 59, by decide +kernel⟩,
   ⟨rtc 24 2 29 22 59 59, by decide +kernel⟩,
   ⟨rtc 24 2 29 23 59 59, by decide +kernel⟩,
   ⟨rtc 24 2 28 23 59 59, by decide +kernel⟩,
   ⟨rtc 24 2 29 23 59 59, by decide +kernel⟩,
   ⟨rtc 24 12 31 23 59 59, by decide +kernel⟩,
   ⟨clk z, 0, by decide +kernel⟩,
   ⟨z, by decide +kernel⟩,
   ⟨clk z, 1, 0, by decide +kernel⟩,
   ⟨z, 1, by decide +kernel⟩,
   ⟨(z.setF (R.RTC_ALM_CTL.EN 1) 1).setF (R.RTC_ALM_CTL.MASK 1) 0x3F, 1, by decide +kernel⟩,
   ⟨z, -12801, by decide +kernel⟩,
   ⟨(clk z).setF R.RTC_STATUS.ALIGN_WAIT 1, by decide +kernel⟩,
   ⟨(clk z).setF R.TIME_SYNC.STATE 3, by decide +kernel⟩,
   ⟨clk z, by decide +kernel⟩,
   ⟨z, by decide +kernel⟩,
   ⟨z.setF R.RTC_STATUS.ALIGN_WAIT 1, by decide +kernel⟩,
   ⟨(z.setF R.RTC_STATUS.ALIGN_WAIT 1) |> tAt (946684800 * tbSec), by decide +kernel⟩,
   ⟨{ z.rcd with offered := [⟨0, 0, 0, []⟩] }, by decide +kernel⟩,
   ⟨z, ⟨0, 0, 0, []⟩, by decide +kernel⟩,
   ⟨rec_ 1 1 (fun r => { r with isOpen := true, offered := [⟨5, 0, 0, []⟩, ⟨4, 0, 0, []⟩], cycles := [some (0, 0), some (0, 0)] }), ⟨4, 0, 0, []⟩, by decide +kernel⟩,
   ⟨rec_ 1 1 (fun r => { r with closed := true }), ⟨0, 0, 0, []⟩, by decide +kernel⟩,
   ⟨rec_ 1 0 (fun r => { r with closed := false }), ⟨0, 0, 0, []⟩, by decide +kernel⟩,
   ⟨rec_ 2 3 (fun r => { r with closed := false }), ⟨0, 0, 0, []⟩, by decide +kernel⟩,
   ⟨rec_ 0 0 id, by decide +kernel⟩,
   ⟨rec_ 1 0 (fun r => { r with bufA := [z.mkRec ⟨0, 0, 0, []⟩] }), by decide +kernel⟩,
   ⟨rec_ 0 0 id, by decide +kernel⟩,
   ⟨z.modSpares (fun x => { x with readOnly := [.log] }), by decide +kernel⟩,
   ⟨rec_ 3 0 (fun r => { r with used := 0 }), by decide +kernel⟩,
   ⟨z.setF R.REC_STATUS.COPY_BUSY 1, by decide +kernel⟩,
   ⟨z, by decide +kernel⟩,
   ⟨z, by decide +kernel⟩,
   ⟨{ z with rcd := { z.rcd with copy := some ⟨0, 0⟩ } }, ⟨0, 0⟩, by decide +kernel⟩,
   ⟨z, 0x00077FFF, by decide +kernel⟩,
   ⟨z, 0x0400FFFF, by decide +kernel⟩,
   ⟨z, by decide +kernel⟩,
   ⟨wait1 (.sheaf 0), ⟨(0, 0), ⟨.sheaf 0, []⟩, false⟩, [], by decide +kernel⟩,
   ⟨rec_ 0 0 (fun r => { r with isOpen := true }), by decide +kernel⟩,
   ⟨z, by decide +kernel⟩,
   ⟨{ z with ledger := { z.ledger with shut := true, seqReserved := 0 } }, by decide +kernel⟩⟩

theorem test_witness_KeyBlock :
    (∃ (s : State) (c a b : Nat), s.key.op.isSome = true) ∧
    (∃ (s : State) (c a b : Nat), s.key.op = none ∧ s.key.intent.isSome = true) ∧
    (∃ (s : State) (c a b : Nat), ∃ x, s.key.op = none ∧ s.key.intent = none ∧ s.opOf c a b = some x ∧ s.lcState ≠ lcRetired ∧ s.on R.KEY_STATUS.ZEROISED = false) ∧
    (∃ (s : State) (c a b : Nat), ∃ x, s.key.op = none ∧ s.key.intent = none ∧ s.opOf c a b = some x ∧ x.2.secret = true ∧ s.lcState = lcRetired) ∧
    (∃ (s : State) (c a b : Nat), ∃ x, s.key.op = none ∧ s.key.intent = none ∧ s.opOf c a b = some x ∧ x.2.secret = true ∧ s.lcState ≠ lcRetired ∧ s.on R.KEY_STATUS.ZEROISED = true) ∧
    (∃ (s : State) (c : BitVec 6) (a b : Byte), undefinedOp c.toNat = false) ∧
    (∃ (s : State) (c : BitVec 6) (a b : Byte), undefinedOp c.toNat = true ∧ s.key.op = none ∧ s.key.intent = none) ∧
    (∃ s : State, s.key.op = none) ∧
    (∃ s : State, ∃ x, s.key.op = some x) ∧
    (∃ (s : State) (a : Nat) (l : List Nat) (u : Nat), (s.kslot a).typ = 0) ∧
    (∃ (s : State) (a : Nat) (l : List Nat) (u : Nat), (s.kslot a).typ ≠ 0 ∧ (s.kslot a).typ ∉ l) ∧
    (∃ (s : State) (a : Nat) (l : List Nat) (u : Nat), (s.kslot a).typ ≠ 0 ∧ (s.kslot a).typ ∈ l ∧ (s.kslot a).usage.testBit u = false) ∧
    (∃ (s : State) (a : Nat) (l : List Nat) (u : Nat), (s.kslot a).typ ≠ 0 ∧ (s.kslot a).typ ∈ l ∧ (s.kslot a).usage.testBit u = true) ∧
    (∃ (s : State) (a : Nat), (s.kslot a).typ = ktP256 ∧ (s.kslot a).usage.testBit 0 = true ∧ s.inLen = 32 ∧ s.tooLong = false) ∧
    (∃ (s : State) (a : Nat), (s.kslot a).typ = ktP256 ∧ (s.kslot a).usage.testBit 0 = true ∧ s.inLen ≠ 32) ∧
    (∃ (s : State) (a : Nat), (s.kslot a).typ = ktP256 ∧ (s.kslot a).usage.testBit 0 = true ∧ (s.kslot a).eph = true) ∧
    (∃ (s : State) (a : Nat), ∃ x, s.shadow a = some x ∧ x.verified = true) ∧
    (∃ (s : State) (a : Nat), ∃ x, s.shadow a = some x ∧ x.verified = false) ∧
    (∃ s : State, s.on R.KEY_STATUS.ENTROPY_OK = false) ∧
    (∃ s : State, s.on R.KEY_STATUS.ENTROPY_OK = true) ∧
    (∃ s : State, s.key.intent.isSome = true) ∧
    (∃ s : State, s.key.intent = none) ∧
    (∃ s : State, ∃ w l i, s.key.intent = some i ∧ s.ledger.writes = w :: l ∧ w.entry.tag = .intent ∧ (∀ x ∈ l, x.entry.tag ≠ .intent)) ∧
    (∃ s : State, ∃ i, s.key.intent = some i ∧ i.committed = false) ∧
    (∃ s : State, ∃ i, s.key.intent = some i ∧ i.src ≠ lcBlank) ∧
    (∃ s : State, ∃ i, s.key.intent = some i ∧ i.dst = lcProvisioned ∧ s.key.root.isSome = true) ∧
    (∃ s : State, ∃ i, s.key.intent = some i ∧ i.dst = lcRetired) ∧
    (∃ (s : State) (x : BitVec 7), s.tampered (s.tamperSources x.toNat) = true ∧ s.key.inEvent = true) ∧
    (∃ (s : State) (x : BitVec 7), s.tampered (s.tamperSources x.toNat) = true ∧ s.key.inEvent = false) ∧
    (∃ s : State, s.power.inputOk = true ∧ s.on R.KEY_STATUS.ZEROISED = true) ∧
    (∃ s : State, s.power.inputOk = false) ∧
    (∃ (s : State) (a : Nat), (s.kslot a).typ = ktP256 ∧ (s.kslot a).usage.testBit 0 = true ∧ s.tooLong = true) ∧
    (∃ (s : State) (a : Nat), s.tooLong = false) ∧
    (∃ (s : State) (a : Nat), s.tooLong = true ∧ (s.kslot a).typ = ktSecret ∧ (s.kslot a).usage.testBit useMac = true) ∧
    (∃ (s : State) (a : Nat), s.tooLong = true ∧ (s.kslot a).typ = ktEdPub ∧ (s.kslot a).usage.testBit useVerify = true ∧ a ≠ 255) ∧
    (∃ (s : State) (a : Nat), ∃ x, s.shadow a = some x ∧ s.auxLen + s.inLen + s.replWant x.key ≤ 4096) ∧
    (∃ (s : State) (a : Nat), ∃ x, s.shadow a = some x ∧ 4096 < s.auxLen + s.inLen + s.replWant x.key) ∧
    (∃ (l : List Byte) (i : Nat), l.length ≤ 4 * i) ∧
    (∃ (l : List Byte) (i : Nat), 1024 ≤ i) ∧
    (∃ (l : List Byte) (i : Nat) (x : Byte), l[i]? = some x ∧ i < 4096) ∧
    (∃ i : Nat, 4096 ≤ i) ∧
    (∃ x : KeyOp, ∃ e ∈ (x.strip (fun _ => true)).slots, e.2.valid = true) ∧
    (∃ x : KeyOp, x.replaced.isSome = true) ∧
    (∃ (s : State) (x : BitVec 7), s.lcState ≠ lcService) ∧
    (∃ (s : State) (x : BitVec 7), s.tamperSources x.toNat = 0) ∧
    (∃ (s : State) (x : BitVec 7), s.tamperSources x.toNat ≠ 0 ∧ s.tamperSources x.toNat = s.f R.KEY_TAMP_STATUS.NOW) ∧
    (∃ (s : State) (x : BitVec 7), s.tamperSources x.toNat ≠ 0 ∧ s.tamperSources x.toNat &&& s.f R.KEY_TAMP_STATUS.NOW ≠ s.tamperSources x.toNat) ∧
    (∃ (s : State) (x : BitVec 7), s.tamperSources x.toNat ≠ s.f R.KEY_TAMP_STATUS.NOW ∧ s.tamperSources x.toNat &&& s.f R.KEY_TAMP_STATUS.NOW = s.tamperSources x.toNat) ∧
    (∃ (s : State) (x : BitVec 7), s.tampered (s.tamperSources x.toNat) = false) ∧
    (∃ (s : State) (x : BitVec 7), s.tampered (s.tamperSources x.toNat) = true) :=
  ⟨⟨keyS (fun k => { k with op := some kop }), 1, 0, 0, by decide +kernel⟩,
   ⟨keyS (fun k => { k with intent := some int0 }), 1, 0, 0, by decide +kernel⟩,
   ⟨z, 0x14, 255, 0, State.opDestroy 255, by decide +kernel⟩,
   ⟨z.setF R.KEY_LC_STATUS.STATE lcRetired, 0x14, 255, 0, State.opDestroy 255, by decide +kernel⟩,
   ⟨z.setF R.KEY_STATUS.ZEROISED 1, 0x14, 255, 0, State.opDestroy 255, by decide +kernel⟩,
   ⟨z, 0x21, 0, 0, by decide +kernel⟩,
   ⟨z, 0x3F, 255, 255, by decide +kernel⟩,
   ⟨z, by decide +kernel⟩,
   ⟨keyS (fun k => { k with op := some kop }), kop, by decide +kernel⟩,
   ⟨z, 127, [ktP256], 0, by decide +kernel⟩,
   ⟨keyS (fun k => { k with slots := [(127, kp256)] }), 127, [ktAes], 0, by decide +kernel⟩,
   ⟨keyS (fun k => { k with slots := [(127, kp256)] }), 127, [ktP256], 1, by decide +kernel⟩,
   ⟨keyS (fun k => { k with slots := [(127, kp256)] }), 127, [ktP256], 0, by decide +kernel⟩,
   ⟨(keyS (fun k => { k with slots := [(127, kp256)] })).setF R.KEY_OP_LEN.IN_LEN 32, 127, by decide +kernel⟩,
   ⟨(keyS (fun k => { k with slots := [(127, kp256)] })).setF R.KEY_OP_LEN.IN_LEN 31, 127, by decide +kernel⟩,
   ⟨keyS (fun k => { k with slots := [(0, { kp256 with eph := true })] }), 0, by decide +kernel⟩,
   ⟨keyS (fun k => { k with shadows := [(127, some ⟨kp256, true⟩)] }), 127, ⟨kp256, true⟩, by decide +kernel⟩,
   ⟨keyS (fun k => { k with shadows := [(127, some ⟨kp256, false⟩)] }), 127, ⟨kp256, false⟩, by decide +kernel⟩,
   ⟨z, by decide +kernel⟩,
   ⟨z.setF R.KEY_STATUS.ENTROPY_OK 1, by decide +kernel⟩,
   ⟨keyS (fun k => { k with intent := some int0 }), by decide +kernel⟩,
   ⟨z, by decide +kernel⟩,
   ⟨{ wait1 .intent with key := { z.key with intent := some int0 } }, ⟨(0, 0), ⟨.intent, []⟩, false⟩, [], int0, by decide +kernel⟩,
   ⟨keyS (fun k => { k with intent := some int0 }), int0, by decide +kernel⟩,
   ⟨keyS (fun k => { k with intent := some { int0 with src := lcField } }), { int0 with src := lcField }, by decide +kernel⟩,
   ⟨keyS (fun k => { k with intent := some { int0 with dst := lcProvisioned }, root := some [] }), { int0 with dst := lcProvisioned }, by decide +kernel⟩,
   ⟨keyS (fun k => { k with intent := some { int0 with dst := lcRetired } }), { int0 with dst := lcRetired }, by decide +kernel⟩,
   ⟨keyS (fun k => { k with inEvent := true }), 127, by decide +kernel⟩,
   ⟨z, 127, by decide +kernel⟩,
   ⟨(pwr 1).setF R.KEY_STATUS.ZEROISED 1, by decide +kernel⟩,
   ⟨z, by decide +kernel⟩,
   ⟨((keyS (fun k => { k with slots := [(127, kp256)], shadows := [(127, some ⟨kp256, false⟩)] })).setF R.KEY_OP_LEN.IN_LEN 4097), 127, by decide +kernel⟩,
   ⟨z, 127, by decide +kernel⟩,
   ⟨((keyS (fun k => { k with slots := [(127, { KeySlot.empty with typ := ktSecret, usage := 31 })], shadows := [(127, some ⟨kp256, false⟩)] })).setF R.KEY_OP_LEN.IN_LEN 4097), 127, by decide +kernel⟩,
   ⟨((keyS (fun k => { k with slots := [(127, { KeySlot.empty with typ := ktEdPub, usage := 31 })], shadows := [(127, some ⟨kp256, false⟩)] })).setF R.KEY_OP_LEN.IN_LEN 4097), 127, by decide +kernel⟩,
   ⟨keyS (fun k => { k with shadows := [(127, some ⟨kp256, false⟩)] }), 127, ⟨kp256, false⟩, by decide +kernel⟩,
   ⟨((keyS (fun k => { k with slots := [(127, kp256)], shadows := [(127, some ⟨kp256, false⟩)] })).setF R.KEY_OP_LEN.IN_LEN 4097), 127, ⟨kp256, false⟩, by decide +kernel⟩,
   ⟨[1], 1, by decide +kernel⟩,
   ⟨[1], 1024, by decide +kernel⟩,
   ⟨[1], 0, 1, by decide +kernel⟩,
   ⟨4096, by decide +kernel⟩,
   ⟨{ kop with slots := [(5, kp256)] }, (5, kp256), by decide +kernel, by decide +kernel⟩,
   ⟨{ kop with replaced := some (5) }, by decide +kernel⟩,
   ⟨z, 127, by decide +kernel⟩,
   ⟨z, 0, by decide +kernel⟩,
   ⟨z.setF R.KEY_TAMP_STATUS.NOW 127, 127, by decide +kernel⟩,
   ⟨z.setF R.KEY_TAMP_STATUS.NOW 64, 127, by decide +kernel⟩,
   ⟨z.setF R.KEY_TAMP_STATUS.NOW 127, 64, by decide +kernel⟩,
   ⟨z, 0, by decide +kernel⟩,
   ⟨z, 127, by decide +kernel⟩⟩

theorem test_witness_ServicePort :
    (∃ (s : State) (x : BitVec 30), (s.on R.SVC_UART_CFG.EN = false ∨ vote x 0 = true)) ∧
    (∃ (s : State) (x : BitVec 30), s.on R.SVC_UART_CFG.EN = true ∧ vote x 0 = false ∧ vote x 9 = true) ∧
    (∃ (s : State) (x : BitVec 30), s.on R.SVC_UART_CFG.EN = true ∧ vote x 0 = false ∧ vote x 9 = false) ∧
    (∃ (s : State) (ch : Byte), s.on R.SVC_UART_CFG.EN = false) ∧
    (∃ (s : State) (ch : Byte), s.on R.SVC_UART_CFG.EN = true ∧ s.on R.SVC_UART_CFG.CTS_EN = false ∧ (s.q .uartTx).items = [[ch.setWidth 32]]) ∧
    (∃ (s : State) (ch : Byte), s.on R.SVC_UART_CFG.CTS_EN = true) ∧
    (∃ (s : State) (ch : Byte), s.reaches R.SVC_UART_TXDATA.reg.blk R.SVC_UART_TXDATA.reg.off true = true) ∧
    (∃ s : State, s.reaches R.SVC_IMG_CMD.reg.blk R.SVC_IMG_CMD.reg.off true = true ∧ s.svc.busy ≠ 0) ∧
    (∃ s : State, s.reaches R.SVC_IMG_CMD.reg.blk R.SVC_IMG_CMD.reg.off true = true ∧ s.svc.busy = 0 ∧ s.actPending = false ∧ s.slotStuck s.otherSlot = false ∧ (((s.imgSlot (s.otherSlot)).st) = 0 ∨ ((s.imgSlot (s.otherSlot)).st) = 2 ∨ ((s.imgSlot (s.otherSlot)).st) = 4)) ∧
    (∃ s : State, s.reaches R.SVC_IMG_CMD.reg.blk R.SVC_IMG_CMD.reg.off true = true ∧ s.svc.busy = 0 ∧ (s.actPending = true ∨ s.slotStuck s.otherSlot = true ∨ ((s.imgSlot (s.otherSlot)).st) = 1 ∨ ((s.imgSlot (s.otherSlot)).st) = 3)) ∧
    (∃ s : State, s.reaches R.SVC_IMG_CMD.reg.blk R.SVC_IMG_CMD.reg.off true = true ∧ s.svc.busy = 0 ∧ s.actPending = false ∧ s.slotStuck s.otherSlot = false ∧ (((s.imgSlot (s.otherSlot)).st) = 1 ∨ ((s.imgSlot (s.otherSlot)).st) = 2 ∨ ((s.imgSlot (s.otherSlot)).st) = 4)) ∧
    (∃ s : State, s.reaches R.SVC_IMG_CMD.reg.blk R.SVC_IMG_CMD.reg.off true = true ∧ s.svc.busy = 0 ∧ ((s.imgSlot (s.otherSlot)).st) ≠ 1) ∧
    (∃ s : State, s.reaches R.SVC_IMG_CMD.reg.blk R.SVC_IMG_CMD.reg.off true = true ∧ s.svc.busy = 0 ∧ ((s.imgSlot (s.otherSlot)).st) = 1 ∧ slotBytes < s.f R.SVC_IMG_OFS.OFS + s.f R.SVC_IMG_LEN.LEN) ∧
    (∃ s : State, s.reaches R.SVC_IMG_CMD.reg.blk R.SVC_IMG_CMD.reg.off true = true ∧ s.svc.busy = 0 ∧ ((s.imgSlot (s.otherSlot)).st) = 1 ∧ s.f R.SVC_IMG_OFS.OFS + s.f R.SVC_IMG_LEN.LEN ≤ slotBytes) ∧
    (∃ s : State, s.reaches R.SVC_IMG_CMD.reg.blk R.SVC_IMG_CMD.reg.off true = true ∧ s.svc.busy = 0 ∧ ((s.imgSlot (s.otherSlot)).st) ≠ 2) ∧
    (∃ s : State, s.reaches R.SVC_IMG_CMD.reg.blk R.SVC_IMG_CMD.reg.off true = true ∧ s.svc.busy = 0 ∧ ((s.imgSlot (s.otherSlot)).st) = 2 ∧ s.svc.act ≠ 3 ∧ stampUnits s.actWhen < stampUnits s.now + nsPerS * 65536) ∧
    (∃ s : State, s.reaches R.SVC_IMG_CMD.reg.blk R.SVC_IMG_CMD.reg.off true = true ∧ s.svc.busy = 0 ∧ ((s.imgSlot (s.otherSlot)).st) = 2 ∧ s.svc.act ≠ 3 ∧ stampUnits s.now + nsPerS * 65536 ≤ stampUnits s.actWhen ∧ stampUnits s.now + farUnits < stampUnits s.actWhen) ∧
    (∃ s : State, s.reaches R.SVC_IMG_CMD.reg.blk R.SVC_IMG_CMD.reg.off true = true ∧ s.svc.busy = 0 ∧ ((s.imgSlot (s.otherSlot)).st) = 2 ∧ s.svc.act ≠ 3 ∧ stampUnits s.now + nsPerS * 65536 ≤ stampUnits s.actWhen ∧ stampUnits s.actWhen ≤ stampUnits s.now + farUnits) ∧
    (∃ s : State, s.reaches R.SVC_IMG_CMD.reg.blk R.SVC_IMG_CMD.reg.off true = true ∧ s.svc.busy = 0 ∧ s.actPending = true) ∧
    (∃ s : State, s.svc.busy ≠ 2) ∧
    (∃ s : State, s.svc.busy = 2) ∧
    (∃ s : State, s.svc.busy ≠ 3) ∧
    (∃ s : State, s.svc.busy = 3) ∧
    (∃ (s : State) (x : ImgSlot), x.headOk = false) ∧
    (∃ (s : State) (x : ImgSlot), x.headOk = true ∧ x.digestOk = false) ∧
    (imgB.sigOk = false → ∃ (s : State) (x : ImgSlot), x.headOk = true ∧ x.digestOk = true ∧ x.sigOk = false) ∧
    (imgB.sigOk = true → ∃ (s : State) (x : ImgSlot), x.headOk = true ∧ x.digestOk = true ∧ x.sigOk = true ∧ s.cosignOk x = false) ∧
    (imgB.sigOk = true → ∃ (s : State) (x : ImgSlot), x.headOk = true ∧ x.digestOk = true ∧ x.sigOk = true ∧ s.cosignOk x = true) ∧
    (∃ (s : State) (b : Bool), s.svc.active ≤ 1) ∧
    (∃ s : State, s.power.step < 2) ∧
    (∃ s : State, 2 ≤ s.power.step ∧ s.svc.act = 1 ∧ s.reached s.svc.when_ = true ∧ s.sync = 2) ∧
    (∃ s : State, 2 ≤ s.power.step ∧ s.svc.act = 1 ∧ s.reached s.svc.when_ = true ∧ s.sync ≠ 2) ∧
    (∃ s : State, (s.svc.act ≠ 1 ∨ s.reached s.svc.when_ = false)) ∧
    (∃ s : State, 2 ≤ s.power.step ∧ s.svc.act = 2 ∧ s.reached (stampAddNs s.svc.when_ 10000000000) = true ∧ s.sync = 2) ∧
    (∃ s : State, (s.svc.act ≠ 2 ∨ s.sync ≠ 2)) ∧
    (∃ (s : State) (v : Word), s.reaches R.SVC_ACT_CONFIRM.reg.blk R.SVC_ACT_CONFIRM.reg.off true = true ∧ (v ≠ 0x0000C0F1 ∨ s.svc.act ≠ 3)) ∧
    (∃ (s : State) (v : Word), s.reaches R.SVC_ACT_CONFIRM.reg.blk R.SVC_ACT_CONFIRM.reg.off true = true ∧ s.svc.act = 3 ∧ s.svc.fmt = (s.imgSlot s.svc.active).fmt) ∧
    (∃ (s : State) (v : Word), s.reaches R.SVC_ACT_CONFIRM.reg.blk R.SVC_ACT_CONFIRM.reg.off true = true ∧ s.svc.act = 3 ∧ s.svc.fmt ≠ (s.imgSlot s.svc.active).fmt) ∧
    (∃ s : State, 2 ≤ s.power.step ∧ s.svc.act = 3 ∧ s.svc.active ≤ 1) ∧
    (∃ (s : State) (l : List Byte), s.svc.recovery = true ∧ s.svc.commanded = false) ∧
    (∃ (s : State) (l : List Byte), (s.svc.recovery = false ∨ s.svc.commanded = true)) ∧
    (∃ (s : State) (l : List Byte), s.power.shutHeld = true ∧ s.power.inputOk = true) ∧
    (∃ (s : State) (l : List Byte), s.svc.recovery = false ∧ (s.power.shutHeld = false ∨ s.power.inputOk = false)) ∧
    (∃ s : State, (s.power.step ≠ 2 ∨ s.svc.recovery = true)) ∧
    (∃ s : State, s.power.step = 2 ∧ s.svc.recovery = false ∧ s.bootable 0 = false ∧ s.bootable 1 = false) ∧
    (∀ x : ImgSlot, x.st = isActive → z.imgCheck x false = irOk → ∃ s : State, (s.bootable 0 = true ∨ s.bootable 1 = true)) ∧
    (∃ s : State, s.reaches R.SVC_EFW_CMD.reg.blk R.SVC_EFW_CMD.reg.off true = true ∧ (∀ k, k < 128 → s.ringOn k = false)) ∧
    (∃ s : State, s.reaches R.SVC_EFW_CMD.reg.blk R.SVC_EFW_CMD.reg.off true = true ∧ s.fenced = true) ∧
    (∃ s : State, s.reaches R.SVC_EFW_CMD.reg.blk R.SVC_EFW_CMD.reg.off true = true ∧ s.tooFar (s.stampR R.SVC_EFW_WHEN.reg) = true) ∧
    (∃ s : State, ∃ k n : Nat, s.reaches R.SVC_EFW_CMD.reg.blk R.SVC_EFW_CMD.reg.off true = true ∧ (List.range 128).filter s.ringOn = [k] ∧ s.fenced = false ∧ s.tooFar (s.stampR R.SVC_EFW_WHEN.reg) = false ∧ s.calUsed < 131072 ∧ firstFree s.cal.tab 131072 0 = some n) ∧
    (∃ (s : State) (b : Bool), s.f R.SVC_EFW_STATUS.STATE ≠ 1) ∧
    (∃ (s : State) (b : Bool), s.f R.SVC_EFW_STATUS.STATE = 1 ∧ s.efwRingDone = true) ∧
    (∃ (s : State) (b : Bool), s.f R.SVC_EFW_STATUS.STATE = 1 ∧ s.efwRadDone = true) ∧
    (∃ (s : State) (b : Bool), s.f R.SVC_EFW_STATUS.STATE = 1 ∧ s.efwRingDone = false) ∧
    (∃ (s : State) (b : Bool), s.f R.SVC_EFW_STATUS.STATE = 1 ∧ s.efwRadDone = false) ∧
    (∃ (s : State) (h : Handshake) (l : List Byte), s.power.step ≠ 5) ∧
    (∃ (s : State) (h : Handshake) (l : List Byte), ∃ a, s.power.step = 5 ∧ s.tlsTest h = .inr a) ∧
    (Config.certValid [] [1] [] = true → ∃ (s : State) (h : Handshake) (l : List Byte), s.power.step = 5 ∧ s.tlsTest h = .inl false) ∧
    (Config.certValid [] [1] [] = true → ∃ (s : State) (h : Handshake) (l : List Byte), s.power.step = 5 ∧ s.tlsTest h = .inl true ∧ s.svc.busy = 0) ∧
    (Config.certValid [] [1] [] = true → ∃ (s : State) (h : Handshake) (l : List Byte), ∃ c, h.inSubset = true ∧ h.cert = some c ∧ s.anchors 2 c = true) ∧
    (∃ (s : State) (h : Handshake) (l : List Byte), h.inSubset = false) ∧
    (∃ s : State, s.on R.SVC_MAC_STATUS.LINK = false) ∧
    (∃ s : State, ∃ r ∈ macCounters, (s.r r).toNat = 0) ∧
    (∃ s : State, s.on R.SVC_UART_CFG.EN = true ∧ s.on R.SVC_UART_CFG.CTS_EN = false ∧ (s.q .uartTx).items = []) ∧
    (∃ s : State, s.lcState ≠ lcService) ∧
    (∃ s : State, s.lcState = lcService) ∧
    (∃ x : ImgSlot, x.headOk = true) ∧
    (∀ l : List Byte, z.imgCheck (ImgSlot.put ⟨[], 0, 1⟩ 0 (l.take 0x10000000)) true = 0 → ∃ (s : State) (n : Nat), n = (if ((s.svc.slot0.st = 0 ∨ s.svc.slot0.st = 4) ∧ (s.svc.slot1.st = 0 ∨ s.svc.slot1.st = 4)) then 0 else s.otherSlot) ∧ s.imgCheck (ImgSlot.put ⟨[], 0, 1⟩ 0 (l.take 0x10000000)) true = 0) ∧
    (∃ (s : State) (l : List Byte) (n : Nat), n = (if ((s.svc.slot0.st = 0 ∨ s.svc.slot0.st = 4) ∧ (s.svc.slot1.st = 0 ∨ s.svc.slot1.st = 4)) then 0 else s.otherSlot) ∧ s.imgCheck (ImgSlot.put ⟨[], 0, 1⟩ 0 (l.take 0x10000000)) true ≠ 0) ∧
    (∃ s : State, s.power.again = true) ∧
    (∃ s : State, s.power.step = 2 ∧ s.svc.recovery = false ∧ s.power.again = false) :=
  ⟨⟨z, 7, by decide +kernel⟩,
   ⟨z, 0x38000000, by decide +kernel⟩,
   ⟨z, 0, by decide +kernel⟩,
   ⟨z.setF R.SVC_UART_CFG.EN 0, 0, by decide +kernel⟩,
   ⟨(z.setF R.SVC_UART_CFG.CTS_EN 0).setQ .uartTx ⟨[[255]], 0⟩, 255, by decide +kernel⟩,
   ⟨z.setF R.SVC_UART_CFG.CTS_EN 1, 0, by decide +kernel⟩,
   ⟨clk z, 255, by decide +kernel⟩,
   ⟨svcS (fun v => { v with busy := 3 }), by decide +kernel⟩,
   ⟨img1 4, by decide +kernel⟩,
   ⟨img1 3, by decide +kernel⟩,
   ⟨img1 1, by decide +kernel⟩,
   ⟨img1 3, by decide +kernel⟩,
   ⟨((img1 1).setF R.SVC_IMG_OFS.OFS 0xFFFFFFF).setF R.SVC_IMG_LEN.LEN 2, by decide +kernel⟩,
   ⟨((img1 1).setF R.SVC_IMG_OFS.OFS 0xFFFFFFF).setF R.SVC_IMG_LEN.LEN 1, by decide +kernel⟩,
   ⟨img1 1, by decide +kernel⟩,
   ⟨img1 2, by decide +kernel⟩,
   ⟨(img1 2).setStampR R.SVC_ACT_WHEN.reg (mkStamp (31 * 86400 + 1) 0 0), by decide +kernel⟩,
   ⟨(img1 2).setStampR R.SVC_ACT_WHEN.reg (mkStamp (31 * 86400) 0 0), by decide +kernel⟩,
   ⟨svcS (fun v => { v with act := 2 }), by decide +kernel⟩,
   ⟨z, by decide +kernel⟩,
   ⟨svcS (fun v => { v with busy := 2 }), by decide +kernel⟩,
   ⟨z, by decide +kernel⟩,
   ⟨svcS (fun v => { v with busy := 3 }), by decide +kernel⟩,
   ⟨z, ImgSlot.none, by decide +kernel⟩,
   ⟨z, imgA, by decide +kernel⟩,
   fun k => ⟨z, imgB, by decide +kernel, by decide +kernel, k⟩,
   fun k => ⟨svcS (fun v => { v with policy := 0x80000000 }), imgB, by decide +kernel, by decide +kernel, k, by decide +kernel⟩,
   fun k => ⟨z, imgB, by decide +kernel, by decide +kernel, k, by decide +kernel⟩,
   ⟨svcS (fun v => { v with active := 1 }), true, by decide +kernel⟩,
   ⟨z, by decide +kernel⟩,
   ⟨runs2 ((svcS (fun v => { v with act := 1 })).setF R.TIME_SYNC.STATE 2), by decide +kernel⟩,
   ⟨runs2 (svcS (fun v => { v with act := 1 })), by decide +kernel⟩,
   ⟨z, by decide +kernel⟩,
   ⟨runs2 ((svcS (fun v => { v with act := 2, when_ := 0 })).setF R.TIME_SYNC.STATE 2) |> tAt (10 * tbSec), by decide +kernel⟩,
   ⟨z, by decide +kernel⟩,
   ⟨clk z, 0, by decide +kernel⟩,
   ⟨svcS (fun v => { v with act := 3 }), 0x0000C0F1, by decide +kernel⟩,
   ⟨svcS (fun v => { v with act := 3, fmt := 1 }), 0x0000C0F1, by decide +kernel⟩,
   ⟨runs2 (svcS (fun v => { v with act := 3, active := 1 })), by decide +kernel⟩,
   ⟨svcS (fun v => { v with recovery := true }), [], by decide +kernel⟩,
   ⟨z, [], by decide +kernel⟩,
   ⟨(pwr 0).modPower (fun p => { p with shutHeld := true }), [], by decide +kernel⟩,
   ⟨z, [], by decide +kernel⟩,
   ⟨z, by decide +kernel⟩,
   ⟨atStep 2, by decide +kernel⟩,
   fun x h1 h2 => ⟨{ atStep 2 with svc := { z.svc with slot0 := x } }, Or.inl (by show ((x.st == isActive || x.st == isVerified) && z.imgCheck x false == irOk) = true; rw [h2, h1]; rfl)⟩,
   ⟨clk z, by decide +kernel⟩,
   ⟨(clk z).setF R.SYS_PAIR_STATUS.ROLE 4, by decide +kernel⟩,
   ⟨(clk z).setStampR R.SVC_EFW_WHEN.reg (mkStamp 1 0 0), by decide +kernel⟩,
   ⟨clk ring0, 0, 0, by decide +kernel⟩,
   ⟨z, true, by decide +kernel⟩,
   ⟨z.setF R.SVC_EFW_STATUS.STATE 1, true, by decide +kernel⟩,
   ⟨z.setF R.SVC_EFW_STATUS.STATE 1, true, by decide +kernel⟩,
   ⟨((z.setF R.SVC_EFW_STATUS.STATE 1).setF R.SVC_EFW_CFG.RING 1).setF R.SVC_EFW_LEN.LEN 1, false, by decide +kernel⟩,
   ⟨((z.setF R.SVC_EFW_STATUS.STATE 1).setF R.SVC_EFW_CFG.RADIO 1).setF R.SVC_EFW_LEN.LEN 1, false, by decide +kernel⟩,
   ⟨z, hs none, [], by decide +kernel⟩,
   ⟨atStep 5, hs none, [], 116, by decide +kernel⟩,
   fun v => ⟨anch 3, hs (some ([1], [])), [], by decide +kernel, by
      have a : (anch 3).anchors 2 ([1], []) = false := by decide +kernel
      have b : (anch 3).anchors 3 ([1], []) = true := (congrArg (fun x => true && true && x) v).trans rfl
      have c : (hs (some ([1], []))).inSubset = true := by decide +kernel
      simp only [State.tlsTest, c, hs, a, b]; rfl⟩,
   fun v => ⟨anch 2, hs (some ([1], [])), [], by decide +kernel, by
      have b : (anch 2).anchors 2 ([1], []) = true := (congrArg (fun x => true && true && x) v).trans rfl
      have c : (hs (some ([1], []))).inSubset = true := by decide +kernel
      simp only [State.tlsTest, c, hs, b]; rfl, by decide +kernel⟩,
   fun v => ⟨anch 2, hs (some ([1], [])), [], ([1], []), by decide +kernel, rfl, (congrArg (fun x => true && true && x) v).trans rfl⟩,
   ⟨z, ⟨0x0303, true, 0, 0, 0, none⟩, [], by decide +kernel⟩,
   ⟨z, by decide +kernel⟩,
   ⟨z, R.SVC_MAC_RX_DROP.reg, by decide +kernel, by decide +kernel⟩,
   ⟨z.setF R.SVC_UART_CFG.CTS_EN 0, by decide +kernel⟩,
   ⟨z, by decide +kernel⟩,
   ⟨z.setF R.KEY_LC_STATUS.STATE lcService, by decide +kernel⟩,
   ⟨imgA, by decide +kernel⟩,
   fun l h => ⟨z, _, rfl, h⟩,
   ⟨z, [], 0, by decide +kernel⟩,
   ⟨(atStep 2).modPower (fun p => { p with again := true }), by decide +kernel⟩,
   ⟨atStep 2, by decide +kernel⟩⟩

theorem test_witness_CanonicalForm :
    (∃ (i : Instr) (s : State), (encodeZhn i).isSome = true ∧ canonical fmemReset s.fmem) ∧
    (∃ (a : BitVec 24) (v : Word) (s : State), canonical fmemReset s.fmem) ∧
    (∃ (c : Ckpt) (s : State), canonical fmemReset s.fmem) ∧
    (∃ (s : State) (k : Nat) (e : Option FdbEntry) (p : Nat → FdbEntry → Bool), canonical fdbDefault s.fab.fdb) ∧
    (∃ (i : Instr) (s : State), canonical fmemReset s.fmem ∧ canonical fdbDefault s.fab.fdb) ∧
    (∃ s : State, canonical fmemReset s.fmem ∧ canonical fdbDefault s.fab.fdb) :=
  ⟨⟨.add 17 0 5 6 7, z, by decide +kernel, by show swf _ _ = true; decide +kernel⟩,
   ⟨0x123456, 0xFFFFFFFF, z, by show swf _ _ = true; decide +kernel⟩,
   ⟨Ckpt.empty, z, by show swf _ _ = true; decide +kernel⟩,
   ⟨z, 5, some fdb0, fun _ _ => true, by show swf _ _ = true; decide +kernel⟩,
   ⟨.calendarFetch 131071, (z.setFdb 5 (some fdb0)).setGrpBit 511 131071 true, by show swf _ _ = true; decide +kernel, by show swf _ _ = true; decide +kernel⟩,
   ⟨{ z with pending := [.sheafApplyInstant 7] }, by show swf _ _ = true; decide +kernel, by show swf _ _ = true; decide +kernel⟩⟩

end Sys2Proof.Tests
end

section
/-! SUPPORT. The canonical form of the arrays (O60) as a property of a state that every function of the model keeps: how it passes
through the ways in which the model puts its functions together, and the few stores that reach the arrays. `db` says whether
the forwarding database is meant too, since a ZHN instruction keeps field memory canonical whatever the database holds. -/
namespace Sys2Proof.Machine
open Sys2Proof Sys2Proof.Safety

/-- Field memory is canonical and, where `db` is set, the forwarding database is too. -/
def State.Canon (db : Bool) (s : State) : Prop :=
  canonical fmemReset s.fmem ∧ (db = true → canonical fdbDefault s.fab.fdb)

/-- An outcome goes on with a state whose arrays are canonical. -/
def CanonNext (db : Bool) (o : Res) : Prop := nextHas o (State.Canon db)

/-- A state that may be absent has canonical arrays when it is there. -/
def CanonOpt (db : Bool) (o : Option State) : Prop := ∀ t, o = some t → t.Canon db

/-- The state that an instruction's outcome carries, if any, has canonical arrays. -/
def ZOut.Canon (db : Bool) : ZOut → Prop
  | .done _ _ _ s | .halt s | .block _ s => s.Canon db
  | .exc _ _ => True

-- One thread for the many short proofs: elaborated at the same time they take more memory than the check allows.
set_option Elab.async false
variable {db : Bool} {s t : State}

/-- The same arrays, whatever else of the state changes. -/
theorem State.Canon.frame {regs bus fe shf hnd cal fcp storm time spares pair ledger power ident rcd drbg rings mtr rad can
    ind rtc key svc out freeCtr pending} (h : s.Canon db) : State.Canon db { s with
      regs := regs, bus := bus, fe := fe, shf := shf, hnd := hnd, cal := cal, fcp := fcp, storm := storm, time := time,
      spares := spares, pair := pair, ledger := ledger, power := power, ident := ident, rcd := rcd, drbg := drbg,
      rings := rings, mtr := mtr, rad := rad, can := can, ind := ind, rtc := rtc, key := key, svc := svc, out := out,
      freeCtr := freeCtr, pending := pending } := h

/-! ## Branches, pairs, folds and outcomes -/

theorem State.Canon.ite {c : Prop} [Decidable c] (hs : s.Canon db) (ht : t.Canon db) : (if c then s else t).Canon db :=
  iteInduction (fun _ => hs) fun _ => ht

theorem State.Canon.snd {α : Type} {x : α} (h : s.Canon db) : (x, s).2.Canon db := h

theorem State.Canon.ite_snd {α : Type} {c : Prop} [Decidable c] {x y : α × State} (hx : x.2.Canon db)
    (hy : y.2.Canon db) : (if c then x else y).2.Canon db :=
  iteInduction (motive := fun z : α × State => z.2.Canon db) (fun _ => hx) fun _ => hy

theorem State.Canon.foldl {α : Type} {l : List α} {g : State → α → State}
    (hg : ∀ t, t.Canon db → ∀ x, (g t x).Canon db) (h : s.Canon db) : (l.foldl g s).Canon db := by
  induction l generalizing s with
  | nil => exact h
  | cons x l ih => exact ih (hg s h x)

theorem CanonNext.next (h : s.Canon db) : CanonNext db (.next s) := ⟨s, rfl, h⟩

theorem CanonNext.ite {c : Prop} [Decidable c] {o p : Res} (ho : CanonNext db o) (hp : CanonNext db p) :
    CanonNext db (if c then o else p) :=
  iteInduction (fun _ => ho) fun _ => hp

theorem CanonOpt.ofSome (h : s.Canon db) : CanonOpt db (some s) := by rintro _ ⟨⟩; exact h

theorem CanonOpt.ofNone : CanonOpt db none := by simp [CanonOpt]

theorem CanonOpt.ite {c : Prop} [Decidable c] {o p : Option State} (ho : CanonOpt db o) (hp : CanonOpt db p) :
    CanonOpt db (if c then o else p) :=
  iteInduction (fun _ => ho) fun _ => hp

theorem ZOut.Canon.done {c : Nat} {n : Option Nat} {l : List (Nat × Bool)} (h : s.Canon db) :
    (ZOut.done c n l s).Canon db := h

theorem ZOut.Canon.halt (h : s.Canon db) : (ZOut.halt s).Canon db := h

theorem ZOut.Canon.block {b : Blocked} (h : s.Canon db) : (ZOut.block b s).Canon db := h

theorem ZOut.Canon.exc {c : Nat} {a : Word} : (ZOut.exc c a).Canon db := trivial

theorem ZOut.Canon.ite {c : Prop} [Decidable c] {x y : ZOut} (hx : x.Canon db) (hy : y.Canon db) :
    (if c then x else y).Canon db :=
  iteInduction (fun _ => hx) fun _ => hy

/-- An instruction's effect keeps the arrays canonical. -/
def ZKeeps (db : Bool) (f : State → ZOut) : Prop := ∀ s : State, s.Canon db → (f s).Canon db

theorem ZKeeps.ite {c : Prop} [Decidable c] {f g : State → ZOut} (hf : ZKeeps db f) (hg : ZKeeps db g) :
    ZKeeps db (if c then f else g) :=
  iteInduction (fun _ => hf) fun _ => hg

/-! ## The stores of which the arrays are made -/

theorem State.Canon.setFByte {a : Nat} {v : Byte} (h : s.Canon db) : (s.setFByte a v).Canon db :=
  ⟨s.setFByte_canonical a v h.1, h.2⟩

theorem State.Canon.setFdb {k : Nat} {e : Option FdbEntry} (h : s.Canon db) : (s.setFdb k e).Canon db :=
  ⟨h.1, fun hd => swf_sset _ _ _ _ (h.2 hd)⟩

theorem State.Canon.fdbFlush {p : Nat → FdbEntry → Bool} (h : s.Canon db) : (s.fdbFlush p).Canon db :=
  ⟨h.1, fun hd => swf_filter _ _ _ (h.2 hd)⟩

/-- Stores into a canonical memory, one after another. -/
theorem swf_foldl_sset {α β : Type} [DecidableEq α] {f : Nat → α} {k : β → Nat} {v : β → α} {l : List β} {m : Store α}
    (h : swf f m = true) : swf f (l.foldl (fun m b => sset f m (k b) (v b)) m) = true := by
  induction l generalizing m with
  | nil => exact h
  | cons b l ih => exact ih (swf_sset _ _ _ _ h)

theorem State.Canon.fmemFrom {c : Ckpt} (h : s.Canon db) : (s.fmemFrom c).Canon db :=
  ⟨swf_foldl_sset (swf_filter _ _ _ h.1), h.2⟩

/-- A change of the fabric that leaves the database alone. -/
theorem State.Canon.modFab {f : Fab → Fab} (h : s.Canon db) (hf : ∀ b, (f b).fdb = b.fdb := by intro; rfl) :
    (s.modFab f).Canon db :=
  ⟨h.1, fun hd => (hf s.fab).symm ▸ h.2 hd⟩

theorem State.Canon.reset : State.reset.Canon db := ⟨rfl, fun _ => rfl⟩

end Sys2Proof.Machine
end

section
/-! SUPPORT. Every function of the model that gives a state keeps the arrays canonical: one lemma for each, under the name of its
file and in the order of the model, by the lemmas of the functions that it calls. -/
namespace Sys2Proof.Machine
open Sys2Proof Sys2Proof.Safety

set_option Elab.async false
variable {db : Bool} {s t : State}

/-! ## Ops -/

theorem State.Canon.wr {b : Blk} {off : Nat} {v : Word} (hs : s.Canon db) : (s.wr b off v).Canon db := hs.frame
theorem State.Canon.setF {x : Fld} {v : Nat} (hs : s.Canon db) : (s.setF x v).Canon db := hs.wr
theorem State.Canon.setFBit {x : Fld} {i : Nat} {v : Bool} (hs : s.Canon db) : (s.setFBit x i v).Canon db := hs.setF
theorem State.Canon.setR {x : Reg} {v : Word} (hs : s.Canon db) : (s.setR x v).Canon db := hs.wr
theorem State.Canon.raise {e : Evt} (hs : s.Canon db) : (s.raise e).Canon db := hs.setF.setF
theorem State.Canon.count {x : Fld} (hs : s.Canon db) : (s.count x).Canon db := hs.setF
theorem State.Canon.setPairR {lo hi : Reg} {v : Nat} (hs : s.Canon db) : (s.setPairR lo hi v).Canon db := hs.setR.setR
theorem State.Canon.addPair {lo hi : Reg} {v : Nat} (hs : s.Canon db) : (s.addPair lo hi v).Canon db := hs.setPairR
theorem State.Canon.setStampR {x : Nat → Reg} {t : Stamp} (hs : s.Canon db) : (s.setStampR x t).Canon db :=
  hs.setR.setR.setR
theorem State.Canon.free (hs : s.Canon db) : s.free.2.Canon db := .snd hs.frame
theorem State.Canon.record {code sev source : Nat} {body : List Word} (hs : s.Canon db) :
    (s.record code sev source body).Canon db :=
  hs.frame
theorem foldS_canon {α : Type} {l : List α} {g : α → State → State}
    (hg : ∀ x, ∀ t : State, t.Canon db → (g x t).Canon db) (hs : s.Canon db) : (foldS l g s).Canon db :=
  .foldl (fun _ hu _ => hg _ _ hu) hs

theorem State.Canon.ledgerDone (hs : s.Canon db) : s.ledgerDone.Canon db := by
  dsimp only [State.ledgerDone]
  split
  exacts [hs.setF, hs.frame.setF]

theorem State.Canon.ledgerAll (hs : s.Canon db) : s.ledgerAll.Canon db := foldS_canon (fun _ _ hu => hu.ledgerDone) hs
theorem State.Canon.ledgerAdd {w : LdgWrite} (hs : s.Canon db) : (s.ledgerAdd w).Canon db := hs.frame.setPairR.setF
theorem State.Canon.ledgerWait {g : LdgTag} {b : List Byte} (hs : s.Canon db) : (s.ledgerWait g b).Canon db :=
  hs.ledgerAdd

theorem State.Canon.ledgerCommit {g : LdgTag} {b : List Byte} (hs : s.Canon db) : (s.ledgerCommit g b).Canon db := by
  unfold State.ledgerCommit
  extract_lets s₁ s₂
  have h₁ : s₁.Canon db := hs.ledgerAdd
  have h₂ : s₂.Canon db := foldS_canon (fun _ _ hu => hu.ledgerDone) h₁
  split
  exacts [h₂, h₂.frame]

theorem State.Canon.send {o : Out} (hs : s.Canon db) : (s.send o).Canon db := hs.frame
theorem State.Canon.setFWord {a : Nat} {v : Word} (hs : s.Canon db) : (s.setFWord a v).Canon db :=
  hs.setFByte.setFByte.setFByte.setFByte
theorem State.Canon.setM {base : Nat} {x : RF} {v : Nat} (hs : s.Canon db) : (s.setM base x v).Canon db := hs.setFWord
theorem State.Canon.setEp {i : Nat} {x : RF} {v : Nat} (hs : s.Canon db) : (s.setEp i x v).Canon db := hs.setM
theorem State.Canon.setEpStamp {i : Nat} {x : Nat → RF} {t : Stamp} (hs : s.Canon db) : (s.setEpStamp i x t).Canon db :=
  hs.setEp.setEp.setEp
theorem State.Canon.setGrpBit {g i : Nat} {v : Bool} (hs : s.Canon db) : (s.setGrpBit g i v).Canon db := hs.setFByte
theorem State.Canon.setEng {i : Nat} {e : Engine} (hs : s.Canon db) : (s.setEng i e).Canon db := hs.frame
theorem State.Canon.setPhys {l p : Nat} (hs : s.Canon db) : (s.setPhys l p).Canon db := hs.setR
theorem State.Canon.setIlist {l : Nat} {x : List IEvent} (hs : s.Canon db) : (s.setIlist l x).Canon db := hs.frame
theorem State.Canon.setHslot {i : Nat} {h : Handle} (hs : s.Canon db) : (s.setHslot i h).Canon db := hs.frame
theorem State.Canon.setCal {i : Nat} {e : Option CalEntry} (hs : s.Canon db) : (s.setCal i e).Canon db := hs.frame
theorem State.Canon.setCtx {c : Nat} {x : Ctx} (hs : s.Canon db) : (s.setCtx c x).Canon db := hs.frame
theorem State.Canon.setDomain {d : Nat} {v : Bool} (hs : s.Canon db) : (s.setDomain d v).Canon db := hs.setFBit
theorem State.Canon.when {c : Bool} {g : State → State} (hs : s.Canon db)
    (hg : ∀ t : State, t.Canon db → (g t).Canon db) : (s.when c g).Canon db :=
  .ite (hg _ hs) hs

/-! ## CanTime -/

theorem State.Canon.canSnap {cnt : Word} (hs : s.Canon db) : (s.canSnap cnt).Canon db := hs.frame
theorem State.Canon.canSnapNow (hs : s.Canon db) : s.canSnapNow.Canon db := hs.canSnap

/-! ## Queue -/

theorem State.Canon.setSess {n : Nat} {x : Session} (hs : s.Canon db) : (s.setSess n x).Canon db := hs.frame
theorem sessEvent_canon {cls seq : Nat} {body : List Byte} {n : Nat} (hs : s.Canon db) :
    (sessEvent cls seq body n s).Canon db :=
  .ite (.ite hs.setSess.send hs.setSess) hs
theorem State.Canon.event {cls : Nat} {body : List Byte} (hs : s.Canon db) : (s.event cls body).Canon db :=
  foldS_canon (fun _ _ hu => sessEvent_canon hu) hs

theorem State.Canon.setQ {u : Qu} {x : Queue} (hs : s.Canon db) : (s.setQ u x).Canon db := by
  dsimp only [State.setQ]
  split
  · exact hs
  · exact hs.frame
  · exact hs.frame
  · exact hs.frame
  · exact hs.frame
  · exact hs.frame

theorem State.Canon.quEval {u : Qu} (hs : s.Canon db) : (s.quEval u).Canon db := by
  unfold State.quEval
  extract_lets _ _ _ s₁ s₂ s₃
  have h₁ : s₁.Canon db := hs.setF
  have h₂ : s₂.Canon db := .ite h₁.setF h₁
  have h₃ : s₃.Canon db := h₂.setF.raise.event
  exact .ite (.ite h₃.setF.raise h₃) (.ite h₂.setF.raise.event h₂)

theorem State.Canon.quOffer {u : Qu} {item : List Word} (hs : s.Canon db) : (s.quOffer u item).Canon db :=
  .ite hs.setQ.quEval hs.raise

theorem State.Canon.quRead {u : Qu} (hs : s.Canon db) : (s.quRead u).2.Canon db := by
  dsimp only [State.quRead]
  split
  · exact .snd hs
  · exact .snd hs
  · exact .snd hs
  · split
    exacts [.snd hs, .ite_snd (.snd hs.setQ) (.snd hs.setQ.quEval)]

theorem State.Canon.quDrop {u : Qu} (hs : s.Canon db) : (s.quDrop u).Canon db := by
  dsimp only [State.quDrop]
  split
  · exact hs
  · exact hs
  · exact hs
  · exact .ite hs.setQ.quEval.raise hs

/-! ## Bus -/

theorem State.Canon.busErr {e : Evt} {a : Addr} {write : Bool} (hs : s.Canon db) : (s.busErr e a write).Canon db :=
  .ite hs.raise.setR.setF.setF hs.raise
theorem State.Canon.answer {v : Word} (hs : s.Canon db) : (s.answer v).Canon db := hs.frame
theorem State.Canon.noData {write : Bool} (hs : s.Canon db) : (s.noData write).Canon db := .ite hs hs.answer
theorem State.Canon.domainLost {d : Nat} (hs : s.Canon db) : (s.domainLost d).Canon db := hs.setDomain.record
theorem State.Canon.bridgeTo {d : Nat} {a : Addr} {write : Bool} (hs : s.Canon db) : (s.bridgeTo d a write).Canon db :=
  .ite hs.busErr.noData.domainLost hs.busErr.noData
theorem State.Canon.setClock {d : Nat} {v : Bool} (hs : s.Canon db) : (s.setClock d v).Canon db := hs.frame
theorem State.Canon.viaWrite {r : Reg} {k : State → State} (hs : s.Canon db)
    (hk : ∀ t : State, t.Canon db → (k t).Canon db) : (s.viaWrite r k).Canon db :=
  .ite (hk _ hs) hs.bridgeTo
theorem State.Canon.viaRead {r : Reg} {k : State → State} (hs : s.Canon db)
    (hk : ∀ t : State, t.Canon db → (k t).Canon db) : (s.viaRead r k).Canon db :=
  .ite (hk _ hs) hs.bridgeTo
theorem State.Canon.soWrite {r : Reg} (hs : s.Canon db) : (s.soWrite r).Canon db := hs.busErr

theorem State.Canon.plainWrite {b : Blk} {off : Nat} {data : Word} (hs : s.Canon db) :
    (s.plainWrite b off data).Canon db := by
  dsimp only [State.plainWrite]
  split
  exacts [hs, .ite hs.soWrite hs.wr]

theorem State.Canon.setShadow {a : Nat} {v : Option Word} (hs : s.Canon db) : (s.setShadow a v).Canon db := hs.frame
theorem State.Canon.setHeld {a : Nat} {v : Option Word} (hs : s.Canon db) : (s.setHeld a v).Canon db := hs.frame

/-! ## Intake -/

theorem State.Canon.refuseEvent (hs : s.Canon db) : s.refuseEvent.Canon db := .count (.ite hs.raise hs)
theorem State.Canon.dropEvent (hs : s.Canon db) : s.dropEvent.Canon db := hs.count
theorem State.Canon.offerEvent {l : Nat} {e : IEvent} (hs : s.Canon db) : (s.offerEvent l e).Canon db :=
  .ite hs.dropEvent (.ite hs.setIlist.quEval hs.refuseEvent)
theorem State.Canon.offerHead {l : Nat} {e : IEvent} (hs : s.Canon db) : (s.offerHead l e).Canon db :=
  .ite hs.setIlist.quEval hs.refuseEvent
theorem State.Canon.setDupRef {i : Nat} {d : DupRef} (hs : s.Canon db) : (s.setDupRef i d).Canon db := hs.frame
theorem State.Canon.seeEpoch {i ep : Nat} (hs : s.Canon db) : (s.seeEpoch i ep).Canon db := .ite hs.setEp hs
theorem State.Canon.markSeen {i : Nat} {t : Stamp} {step : Nat} (hs : s.Canon db) : (s.markSeen i t step).Canon db :=
  hs.setEpStamp.setEp

theorem State.Canon.endpointEvent {i kind : Nat} {w5 w6 w7 : Word} {t : Stamp} {step : Nat} (hs : s.Canon db) :
    (s.endpointEvent i kind w5 w6 w7 t step).Canon db := by
  unfold State.endpointEvent
  extract_lets _ _ _ _ _ s₁ s₂ s₃ s₄
  have h₁ : s₁.Canon db := .ite hs.setDupRef hs
  have h₂ : s₂.Canon db := .ite h₁.setEp h₁
  have h₃ : s₃.Canon db := h₂.markSeen
  have h₄ : s₄.Canon db := .ite h₃.seeEpoch h₃
  exact .ite hs (.ite hs.dropEvent (.ite h₄.offerEvent hs.refuseEvent))

theorem State.Canon.unknownEvent {kind : Nat} {p5 p6 p7 : Word} {t : Stamp} {step : Nat} (hs : s.Canon db) :
    (s.unknownEvent kind p5 p6 p7 t step).Canon db :=
  .ite hs hs.offerEvent
theorem State.Canon.moduleEvent {code : Nat} {p6 : Word} {t : Stamp} {step : Nat} (hs : s.Canon db) :
    (s.moduleEvent code p6 t step).Canon db :=
  foldS_canon (fun _ _ hu => .ite hu.offerEvent hu) hs
theorem State.Canon.restartEvent {l excCode pc : Nat} (hs : s.Canon db) : (s.restartEvent l excCode pc).Canon db :=
  hs.offerHead

/-! ## Handles -/

theorem State.Canon.allocFail {x : Alloc} (hs : s.Canon db) : (s.allocFail x).Canon db := by
  dsimp only [State.allocFail]
  split
  exacts [hs.raise, hs.raise, hs]

theorem State.Canon.takeSlot {i : Nat} (hs : s.Canon db) : (s.takeSlot i).Canon db := hs.frame
theorem State.Canon.allocSlot {i : Nat} {h : Handle} (hs : s.Canon db) : (s.allocSlot i h).Canon db :=
  hs.takeSlot.setHslot
theorem State.Canon.complete {i status : Nat} {result : Word} (hs : s.Canon db) :
    (s.complete i status result).Canon db :=
  hs.setHslot.frame
theorem State.Canon.hndDone {l : Nat} {w : Word} {status : Nat} {result : Word} (hs : s.Canon db) :
    (s.hndDone l w status result).2.Canon db :=
  .ite_snd (.snd hs.complete) (.snd hs)
theorem State.Canon.abandon {l : Nat} (hs : s.Canon db) : (s.abandon l).Canon db :=
  foldS_canon (fun _ _ hu => hu.complete) hs
theorem State.Canon.replyTimeout {i : Nat} (hs : s.Canon db) : (s.replyTimeout i).Canon db := .ite hs.setEp.complete hs
theorem State.Canon.staleReply {h : Word} (hs : s.Canon db) : (s.staleReply h).Canon db := .ite hs hs.raise
theorem State.Canon.heldReport {h : Handle} {r : Reply} {t : Stamp} {step l : Nat} (hs : s.Canon db) :
    (s.heldReport h r t step l).Canon db :=
  .offerEvent (.ite hs.markSeen hs)

theorem State.Canon.reply {r : Reply} {path ring : Nat} {t : Stamp} {step : Nat} (hs : s.Canon db) :
    (s.reply r path ring t step).Canon db := by
  unfold State.reply
  extract_lets _ _ s₁ s₂
  have h₁ : s₁.Canon db := .ite hs.setEp.seeEpoch hs
  have h₂ : s₂.Canon db := .ite h₁.endpointEvent h₁.heldReport
  refine .ite ?_ hs.staleReply
  split
  · exact .ite h₁.setHslot.heldReport (.ite h₁.complete h₁.complete)
  · exact .ite h₂.complete h₂.complete
  · exact .ite h₁.complete h₁.complete

theorem State.Canon.freeSlot {i : Nat} (hs : s.Canon db) : (s.freeSlot i).Canon db :=
  .frame (.setHslot (.ite hs.setEp hs))
theorem State.Canon.cplDiscard {n : Nat} (hs : s.Canon db) : (s.cplDiscard n).Canon db := hs.setF
theorem State.Canon.cmdFail {l i : Nat} (hs : s.Canon db) : (s.cmdFail l i).Canon db :=
  .ite hs.offerEvent.event hs.offerEvent
theorem State.Canon.setData {h : Word} {d : List Byte} (hs : s.Canon db) : (s.setData h d).Canon db := hs.frame
theorem State.Canon.cplSession {i n : Nat} (hs : s.Canon db) : (s.cplSession i n).Canon db :=
  .ite (.ite hs.quOffer.freeSlot hs) hs.setData.cplDiscard.freeSlot
theorem State.Canon.cplMessage {n : Nat} {it : List Word} (hs : s.Canon db) : (s.cplMessage n it).Canon db :=
  .setData (.ite hs.send hs)

theorem State.Canon.quDataRead {u : Qu} (hs : s.Canon db) : (s.quDataRead u).2.Canon db := by
  dsimp only [State.quDataRead]
  split
  · split
    exacts [hs.quRead, .snd (.ite hs.quRead.cplMessage hs.quRead)]
  · exact .snd (.ite hs.quRead.setF hs.quRead)
  · exact hs.quRead

/-! ## Sheaf -/

theorem State.Canon.modCtx {c : Nat} {f : Ctx → Ctx} (hs : s.Canon db) : (s.modCtx c f).Canon db := hs.setCtx
theorem State.Canon.shfRefuse {c res : Nat} (hs : s.Canon db) : (s.shfRefuse c res).Canon db :=
  .raise (.ite hs.modCtx.raise hs.modCtx)

theorem State.Canon.shfOpen {c : Nat} {o : Owner} {session : Option Nat} (hs : s.Canon db) :
    (s.shfOpen c o session).Canon db := by
  dsimp only [State.shfOpen]
  refine .ite hs.shfRefuse ?_
  split
  exacts [hs.setCtx, hs.setCtx, hs.shfRefuse]

theorem State.Canon.shfStage {c : Nat} {o : Owner} {e : ShfEntry} (hs : s.Canon db) : (s.shfStage c o e).Canon db := by
  dsimp only [State.shfStage]
  refine .ite hs.shfRefuse ?_
  split
  · exact .ite hs.shfRefuse hs.setCtx
  · exact .ite hs.shfRefuse hs.setCtx
  · exact hs.shfRefuse

theorem State.Canon.shfCheck {c : Nat} {o : Owner} (hs : s.Canon db) : (s.shfCheck c o).Canon db := by
  dsimp only [State.shfCheck]
  refine .ite hs.shfRefuse ?_
  split
  exacts [hs.setCtx, hs.shfRefuse]

theorem State.Canon.shfCommitStart {c : Nat} (hs : s.Canon db) : (s.shfCommitStart c).Canon db := hs.modCtx.frame

theorem State.Canon.shfApply {c : Nat} {o : Owner} {timed : Bool} {t : Stamp} (hs : s.Canon db) :
    (s.shfApply c o timed t).Canon db := by
  unfold State.shfApply
  extract_lets _ s₁
  have h₁ : s₁.Canon db := hs.setCtx
  exact .ite hs.shfRefuse (.ite hs.shfRefuse (.ite hs.shfRefuse (.ite hs.shfRefuse (.ite h₁.modCtx h₁.shfCommitStart))))

theorem State.Canon.shfDiscard {c : Nat} {o : Owner} (hs : s.Canon db) : (s.shfDiscard c o).Canon db := by
  dsimp only [State.shfDiscard]
  refine .ite hs.shfRefuse ?_
  split
  · exact hs.setCtx
  · exact hs.setCtx
  · exact hs.setCtx
  · exact hs.shfRefuse

theorem State.Canon.shfDrop {p : Ctx → Bool} (hs : s.Canon db) : (s.shfDrop p).Canon db := by
  dsimp only [State.shfDrop]
  refine foldS_canon (fun _ _ hu => .ite ?_ hu) hs
  split
  · exact hu.setCtx
  · exact hu.setCtx
  · exact hu.setCtx
  · exact hu.setCtx
  · exact hu

theorem State.Canon.shfCommit {c : Nat} (hs : s.Canon db) : (s.shfCommit c).Canon db :=
  .ite hs (.ite hs.frame.setCtx.raise hs.frame.setCtx)
theorem State.Canon.shfLoaded {c : Nat} (hs : s.Canon db) : (s.shfLoaded c).Canon db :=
  .ite (.ite hs.setCtx.raise hs.setCtx) hs

theorem State.Canon.shfCmd {k : Nat} (hs : s.Canon db) : (s.shfCmd k).Canon db := by
  dsimp only [State.shfCmd]
  refine .ite hs.shfRefuse ?_
  split
  · exact hs.shfOpen
  · exact hs.shfCheck
  · exact .ite hs.shfRefuse hs.shfApply
  · exact hs.shfDiscard
  · exact hs

theorem State.Canon.shfData {v : Word} (hs : s.Canon db) : (s.shfData v).Canon db := .ite hs.shfRefuse hs.shfStage

/-! ## Engine -/

theorem State.Canon.setEngRole {i v : Nat} (hs : s.Canon db) : (s.setEngRole i v).Canon db := hs.setF
theorem State.Canon.setEngState {i v : Nat} (hs : s.Canon db) : (s.setEngState i v).Canon db := hs.setF
theorem State.Canon.setPc {i v : Nat} (hs : s.Canon db) : (s.setPc i v).Canon db := hs.setF
theorem State.Canon.modEng {i : Nat} {f : Engine → Engine} (hs : s.Canon db) : (s.modEng i f).Canon db := hs.setEng
theorem State.Canon.setImage {l : Nat} {x : Option Image} (hs : s.Canon db) : (s.setImage l x).Canon db := hs.frame

theorem State.Canon.engLoad {p l st : Nat} (hs : s.Canon db) : (s.engLoad p l st).Canon db := by
  dsimp only [State.engLoad]
  split
  exacts [hs.modEng.setEngState, hs.modEng.setPc.setEngState]

theorem State.Canon.engDropAll {l : Nat} (hs : s.Canon db) : (s.engDropAll l).Canon db := hs.abandon.shfDrop
theorem State.Canon.engRestart {p l st : Nat} (hs : s.Canon db) : (s.engRestart p l st).Canon db :=
  .ite hs.engDropAll.engLoad.raise hs.engDropAll.engLoad
theorem State.Canon.excRecord {p code : Nat} {addr : Word} (hs : s.Canon db) : (s.excRecord p code addr).Canon db :=
  hs.setF.setF.setR.record
theorem State.Canon.progExc {p code : Nat} {addr : Word} (hs : s.Canon db) : (s.progExc p code addr).Canon db :=
  hs.excRecord.raise.modEng.setEngState
theorem State.Canon.engineRestart {p : Nat} (hs : s.Canon db) : (s.engineRestart p).Canon db :=
  .ite hs.engRestart.restartEvent hs
theorem State.Canon.feRun {p : Nat} (hs : s.Canon db) : (s.feRun p).Canon db := .ite hs.modEng.setEngState hs
theorem State.Canon.feHalt {p : Nat} (hs : s.Canon db) : (s.feHalt p).Canon db :=
  .ite (.ite hs.modEng.setEngState (.ite (.ite hs.modEng hs.setEngState) hs)) hs
theorem State.Canon.feReset {p : Nat} (hs : s.Canon db) : (s.feReset p).Canon db := .ite hs.engRestart hs
theorem State.Canon.fePcWrite {p : Nat} {v : Word} (hs : s.Canon db) : (s.fePcWrite p v).Canon db := .ite hs.setPc hs
theorem State.Canon.feCfgWrite {p : Nat} {v : Word} (hs : s.Canon db) : (s.feCfgWrite p v).Canon db :=
  .ite (.ite hs.setF.setF hs.setF) hs.setF.setF

theorem State.Canon.dbgWrite {p v : Nat} (hs : s.Canon db) : (s.dbgWrite p v).Canon db := by
  dsimp only [State.dbgWrite]
  refine .ite ?_ hs
  split
  · exact .ite hs hs.modEng
  · exact .ite hs hs.modEng
  · exact hs.modEng
  · exact hs.modEng
  · exact hs.modEng

theorem State.Canon.lsBump {p : Nat} (hs : s.Canon db) : (s.lsBump p).Canon db := hs.setF
theorem State.Canon.lsRead {p : Nat} (hs : s.Canon db) : (s.lsRead p).2.Canon db := .snd hs.lsBump
theorem State.Canon.lsWrite {p : Nat} {v : Word} (hs : s.Canon db) : (s.lsWrite p v).Canon db :=
  .ite hs.modEng.lsBump hs

/-! ## Launch -/

theorem State.Canon.calPeak (hs : s.Canon db) : s.calPeak.Canon db := .ite hs.setF hs

theorem State.Canon.placeCmd {o : Owner} {slot i level : Nat} {d : Desc} {payload : List Byte} {t : Stamp}
    (hs : s.Canon db) : (s.placeCmd o slot i level d payload t).Canon db := by
  unfold State.placeCmd
  extract_lets _ _ _ _ _ s₁ _ _ _ _ s₂ _ s₃ s₄
  have h₁ : s₁.Canon db := hs.allocSlot
  have h₂ : s₂.Canon db := by
    unfold s₂
    split
    exacts [h₁.setCal, h₁]
  have h₃ : s₃.Canon db := h₂.frame.calPeak
  have h₄ : s₄.Canon db := h₃.setEp
  exact .ite h₄.setEp h₄

theorem State.Canon.place {o : Owner} {i level n : Nat} {d : Desc} {payload : List Byte} {x : Stamp} (hs : s.Canon db)
    (e : s.place o i level d payload x = .inr (n, t)) : t.Canon db := by
  dsimp only [State.place] at e
  split at e
  · cases e
  · split at e <;> cases e
    exact hs.placeCmd

theorem State.Canon.placeFlags {x : Refused} (hs : s.Canon db) : (s.placeFlags x).Canon db := by
  dsimp only [State.placeFlags]
  split
  exacts [hs.allocFail, hs.allocFail, hs]

theorem State.Canon.calFetch {n : Nat} (hs : s.Canon db) : (s.calFetch n).Canon db := by
  dsimp only [State.calFetch]
  split
  exacts [hs, .ite hs.setCal hs]

theorem State.Canon.copyArrive {n k : Nat} (hs : s.Canon db) : (s.copyArrive n k).Canon db := by
  dsimp only [State.copyArrive]
  split
  exacts [.ite hs.setCal hs, hs]

theorem State.Canon.dimChange {i level ms : Nat} (hs : s.Canon db) : (s.dimChange i level ms).Canon db := hs.frame

theorem State.Canon.launchFirst {e : CalEntry} {c : Copy} (hs : s.Canon db) : (s.launchFirst e c).Canon db := by
  unfold State.launchFirst
  extract_lets _ s₁ s₂ s₃ _ _ s₄
  have h₁ : s₁.Canon db := hs.setEpStamp.setEp
  have h₂ : s₂.Canon db := .ite (.ite h₁.dimChange.setEp h₁) hs
  have h₃ : s₃.Canon db := .ite h₂.raise.count h₂
  have h₄ : s₄.Canon db := h₃.setHslot
  exact .ite (.ite h₄.complete h₄.setHslot) h₃

theorem State.Canon.copyLeft {n k : Nat} {e : CalEntry} {c : Copy} {gone : Bool} (hs : s.Canon db) :
    (s.copyLeft n k e c gone).Canon db := by
  unfold State.copyLeft
  extract_lets _ _ s₁ s₂
  have h₁ : s₁.Canon db := hs.setCal
  have h₂ : s₂.Canon db := .ite h₁.setEp h₁
  exact .ite (.ite h₁ (.ite h₂.complete h₂)) hs.setCal

/-! ## Cells -/

theorem State.Canon.setFrame {i : Nat} {x : Option FabFrame} (hs : s.Canon db) : (s.setFrame i x).Canon db := hs.modFab
theorem State.Canon.modSpares {f : Spares → Spares} (hs : s.Canon db) : (s.modSpares f).Canon db := hs.frame
theorem State.Canon.setCellTag {p i : Nat} {t : CellTag} (hs : s.Canon db) : (s.setCellTag p i t).Canon db := hs.modFab
theorem State.Canon.setFresh {p n : Nat} (hs : s.Canon db) : (s.setFresh p n).Canon db := hs.modFab
theorem State.Canon.setFreed {p : Nat} {l : List Nat} (hs : s.Canon db) : (s.setFreed p l).Canon db := hs.modFab
theorem State.Canon.setUnlisted {p : Nat} {l : List Nat} (hs : s.Canon db) : (s.setUnlisted p l).Canon db := hs.modFab
theorem State.Canon.setReplCells {p : Nat} {l : List Nat} (hs : s.Canon db) : (s.setReplCells p l).Canon db := hs.modFab
theorem State.Canon.setRsmCells {n : Nat} {l : List Nat} (hs : s.Canon db) : (s.setRsmCells n l).Canon db := hs.modFab

theorem State.Canon.freshTake {p n : Nat} (hs : s.Canon db) : (State.freshTake p n s).2.Canon db := by
  induction n generalizing s with
  | zero => exact hs
  | succ n ih => exact .ite_snd hs (.ite_snd (ih hs.setFresh) (.ite_snd (ih hs.setFresh.setFreed) hs.setFresh))

theorem State.Canon.cellTake {p : Nat} {o : CellOwner} (hs : s.Canon db) : (s.cellTake p o).2.Canon db := by
  dsimp only [State.cellTake]
  split
  · exact .snd hs.freshTake.setCellTag
  · split
    exacts [.snd hs.freshTake.setFreed.setCellTag, .snd hs.freshTake]

theorem State.Canon.cellsTake {p n : Nat} {o : CellOwner} (hs : s.Canon db) : (State.cellsTake p o n s).2.Canon db := by
  induction n generalizing s with
  | zero => exact hs
  | succ n ih => exact ih hs.cellTake

theorem State.Canon.bankEmptied {p bank : Nat} (hs : s.Canon db) : (s.bankEmptied p bank).Canon db :=
  .ite hs hs.modSpares

theorem State.Canon.cellFree {p i : Nat} (hs : s.Canon db) : (s.cellFree p i).Canon db := by
  dsimp only [State.cellFree]
  split
  · exact .bankEmptied (.modSpares (.ite hs.setCellTag.setFreed hs.setCellTag))
  · exact .ite hs.setCellTag.setFreed hs.setCellTag

theorem State.Canon.cellsFree {p : Nat} {l : List Nat} (hs : s.Canon db) : (s.cellsFree p l).Canon db :=
  foldS_canon (fun _ _ hu => hu.cellFree) hs
theorem State.Canon.regionFit {p : Nat} {o : CellOwner} {l : List Nat} {need : Nat} (hs : s.Canon db) :
    (s.regionFit p o l need).2.Canon db :=
  .ite_snd (.snd hs.cellsTake) (.snd hs.cellsFree)

/-! ## Fabric -/

theorem State.Canon.fdbLearn {vid : Nat} {m : Mac} {node : Nat} (hs : s.Canon db) :
    (s.fdbLearn vid m node).Canon db := by
  dsimp only [State.fdbLearn]
  split
  exacts [.ite hs hs.setFdb, .ite hs.raise hs.setFdb]

theorem State.Canon.gateTargets {node : Nat} {ts : List Nat} (hs : s.Canon db) : (s.gateTargets node ts).2.Canon db :=
  .ite_snd (.snd (foldS_canon (fun _ _ hu => hu.count) hs)) (.ite_snd (.snd (.ite hs.count hs)) (.snd hs))
theorem State.Canon.ringNumbers {ts : List Nat} (hs : s.Canon db) : (s.ringNumbers ts).2.Canon db :=
  .snd (foldS_canon (fun _ _ hu => hu.setF) hs)
theorem State.Canon.acctCharge {p a n : Nat} (hs : s.Canon db) : (s.acctCharge p a n).Canon db := hs.setF
theorem State.Canon.acctRelease {p a n : Nat} (hs : s.Canon db) : (s.acctRelease p a n).Canon db :=
  .ite hs.setF.setF hs.setF
theorem State.Canon.badFrame {p : Nat} {f : Frame} (hs : s.Canon db) : (s.badFrame p f).Canon db :=
  .ite hs.count (.ite hs.count hs)
theorem State.Canon.storeFrame {x : FabFrame} {parts : List VoqPart} (hs : s.Canon db) :
    (s.storeFrame x parts).Canon db :=
  hs.acctCharge.cellsTake.setFrame.modFab

theorem State.Canon.enqueue {node : Nat} {f : Frame} {r : Route} {m : Mark} (hs : s.Canon db) :
    (s.enqueue node f r m).Canon db := by
  unfold State.enqueue
  extract_lets _ _ _ _ _ _ _ s₁ s₂ _ s₃
  have h₁ : s₁.Canon db := .ite hs.count hs
  have h₂ : s₂.Canon db := .ite h₁.count h₁
  have h₃ : s₃.Canon db := .ite h₂.count h₂
  refine .ite hs.badFrame ?_
  split
  exacts [hs.count.count, .ite h₂.badFrame h₃.storeFrame]

theorem State.Canon.toControl {node cls : Nat} {vid : Option Nat} {f : Frame} (hs : s.Canon db) :
    (s.toControl node cls vid f).Canon db :=
  hs.enqueue

theorem State.Canon.bridgeTo' {node cls v : Nat} {f : Frame} {pass : List Nat} {m : Mark} (hs : s.Canon db) :
    (s.bridgeTo' node cls v f pass m).Canon db := by
  dsimp only [State.bridgeTo']
  split
  · exact hs.gateTargets.ringNumbers.enqueue
  · exact hs.gateTargets.ringNumbers.enqueue
  · exact hs.ringNumbers.enqueue
  · exact hs.count.ringNumbers.enqueue

theorem State.Canon.bridgeIn {n : Nat} {f : Frame} {pass : List Nat} (hs : s.Canon db) :
    (s.bridgeIn n f pass).Canon db := by
  unfold State.bridgeIn
  extract_lets _ _ s₁ _ s₂
  have h₁ : s₁.Canon db := .ite hs.count hs
  have h₂ : s₂.Canon db := .ite h₁.fdbLearn h₁
  split
  exacts [h₁.count, h₁.count, h₂.bridgeTo']

theorem State.Canon.plainIn {n : Nat} {f : Frame} (hs : s.Canon db) : (s.plainIn n f).Canon db :=
  .ite hs.toControl (.ite hs.count hs.bridgeIn)
theorem State.Canon.rxCount {n : Nat} {f : Frame} (hs : s.Canon db) : (s.rxCount n f).Canon db := hs.addPair.addPair
theorem State.Canon.portIn {n : Nat} {f : Frame} {k : State → State} (hs : s.Canon db)
    (hk : ∀ t : State, t.Canon db → (k t).Canon db) : (s.portIn n f k).Canon db :=
  .ite hs (.ite hs.rxCount.count (.ite hs.rxCount.count (hk _ hs.rxCount)))

theorem State.Canon.controlIn {p : Nat} {port : Option Nat} {f : Frame} {m : Mark} (hs : s.Canon db) :
    (s.controlIn p port f m).Canon db := by
  dsimp only [State.controlIn]
  split
  exacts [.enqueue (.ite_snd (.snd hs) hs.ringNumbers), .ite hs.count hs.bridgeTo']

theorem State.Canon.ringFrame {k : Nat} {dst : Mac} {b : CmdBody} {q : Nat} {sown : Bool} {cal : Option Nat}
    (hs : s.Canon db) : (s.ringFrame k dst b q sown cal).Canon db :=
  hs.enqueue
theorem State.Canon.ringNext {k : Nat} (hs : s.Canon db) : (s.ringNext k).2.Canon db := .snd hs.setF
theorem State.Canon.ringSend {k : Nat} {dst : Mac} {b : CmdBody} {sown : Bool} (hs : s.Canon db) :
    (s.ringSend k dst b sown).Canon db :=
  .ite hs.ringNext.ringFrame hs
theorem State.Canon.fdbStart {k : State → Nat × State} (hs : s.Canon db)
    (hk : ∀ t : State, t.Canon db → (k t).2.Canon db) : (s.fdbStart k).Canon db :=
  .ite hs (.modFab (.setF (hk _ hs)))

theorem State.Canon.fdbRead (hs : s.Canon db) : s.fdbRead.Canon db := by
  dsimp only [State.fdbRead]
  refine hs.fdbStart (fun _ hu => .ite_snd (.snd hu) ?_)
  split
  exacts [.snd hu.setR, .snd hu]

theorem State.Canon.fdbWriteStatic (hs : s.Canon db) : s.fdbWriteStatic.Canon db :=
  hs.fdbStart (fun _ hu => .ite_snd (.snd hu) (.ite_snd (.snd hu) (.snd hu.setFdb)))
theorem State.Canon.fdbDelete (hs : s.Canon db) : s.fdbDelete.Canon db :=
  hs.fdbStart (fun _ hu => .ite_snd (.snd hu) (.ite_snd (.snd hu) (.snd hu.setFdb)))
theorem State.Canon.fdbFlushPort (hs : s.Canon db) : s.fdbFlushPort.Canon db := hs.fdbStart (fun _ hu => hu.fdbFlush)
theorem State.Canon.fdbFlushVlan (hs : s.Canon db) : s.fdbFlushVlan.Canon db := hs.fdbStart (fun _ hu => hu.fdbFlush)
theorem State.Canon.fdbFlushAll (hs : s.Canon db) : s.fdbFlushAll.Canon db := hs.fdbStart (fun _ hu => hu.fdbFlush)

theorem State.Canon.fdbCmd {x : Nat} (hs : s.Canon db) : (s.fdbCmd x).Canon db := by
  dsimp only [State.fdbCmd]
  split
  · exact hs.fdbRead
  · exact hs.fdbWriteStatic
  · exact hs.fdbDelete
  · exact hs.fdbFlushPort
  · exact hs.fdbFlushVlan
  · exact hs.fdbFlushAll
  · exact hs

theorem State.Canon.fdbDone (hs : s.Canon db) : s.fdbDone.Canon db := by
  dsimp only [State.fdbDone]
  split
  exacts [hs.setF.setF.modFab, hs]

theorem State.Canon.fdbAgeOut {vid : Nat} {m : Mac} (hs : s.Canon db) : (s.fdbAgeOut vid m).Canon db := by
  dsimp only [State.fdbAgeOut]
  split
  exacts [.ite hs.setFdb hs, hs]

theorem State.Canon.acctQuotaWrite {p a v : Nat} (hs : s.Canon db) : (s.acctQuotaWrite p a v).Canon db :=
  .ite hs.setF.raise.setF hs.setF.setF

/-! ## Ghost -/

theorem State.Canon.ghostUsed (hs : s.Canon db) : s.ghostUsed.Canon db := hs.setF
theorem State.Canon.ghostAdd {eui : Eui} {slot safe : Nat} (hs : s.Canon db) : (s.ghostAdd eui slot safe).Canon db :=
  .ite hs.frame.ghostUsed hs.frame.raise
theorem State.Canon.ghostBind {eui : Eui} (hs : s.Canon db) : (s.ghostBind eui).Canon db := hs.frame.ghostUsed
theorem State.Canon.setGhost {i : Nat} {g : Ghost} (hs : s.Canon db) : (s.setGhost i g).Canon db := hs.frame

theorem State.Canon.ghostSeen {i : Nat} (hs : s.Canon db) : (s.ghostSeen i).Canon db := by
  dsimp only [State.ghostSeen]
  split
  · exact hs
  · exact .ite (.setGhost (.record (.ite hs.raise.setEp hs.raise))) (.ite hs.raise.setEp hs.raise)

theorem State.Canon.ghostRetire {i : Nat} {send : CmdBody → State → State} (hs : s.Canon db)
    (hsend : ∀ x, ∀ t : State, t.Canon db → (send x t).Canon db) : (s.ghostRetire i send).Canon db := by
  dsimp only [State.ghostRetire]
  split
  exacts [hs, .ite (.setGhost (.when (hsend _ _ hs) (fun _ hu => hu.setEp))) hs]

theorem State.Canon.ghost {i : Nat} {send : CmdBody → State → State} (hs : s.Canon db)
    (hsend : ∀ x, ∀ t : State, t.Canon db → (send x t).Canon db) : (s.ghost i send).Canon db :=
  hs.ghostSeen.ghostRetire hsend

theorem State.Canon.fieldEvent {src : Option Nat} {b : EvBody} {send : CmdBody → State → State} {t : Stamp} {step : Nat}
    (hs : s.Canon db) (hsend : ∀ x, ∀ t : State, t.Canon db → (send x t).Canon db) :
    (s.fieldEvent src b send t step).Canon db := by
  dsimp only [State.fieldEvent]
  split
  · exact hs.endpointEvent
  · split
    exacts [hs.ghost hsend, hs.unknownEvent]

theorem State.Canon.joinEvent {src : Option Nat} {eui : Eui} {path : Nat} {addr : Word} {send : CmdBody → State → State}
    {t : Stamp} {step : Nat} (hs : s.Canon db) (hsend : ∀ x, ∀ t : State, t.Canon db → (send x t).Canon db) :
    (s.joinEvent src eui path addr send t step).Canon db :=
  hs.fieldEvent hsend

theorem State.Canon.fieldReply {src : Option Nat} {r : Reply} {path ring : Nat} {send : CmdBody → State → State}
    {t : Stamp} {step : Nat} (hs : s.Canon db) (hsend : ∀ x, ∀ t : State, t.Canon db → (send x t).Canon db) :
    (s.fieldReply src r path ring send t step).Canon db := by
  dsimp only [State.fieldReply]
  split
  · exact hs.reply
  · split
    exacts [hs.ghost hsend, .ite hs.staleReply hs.reply]

/-! ## Dio -/

theorem State.Canon.dioDrive {was : Nat} (hs : s.Canon db) : (s.dioDrive was).Canon db := .ite hs hs.send
theorem State.Canon.dioCopy (hs : s.Canon db) : s.dioCopy.Canon db := hs.setF
theorem State.Canon.dout {mask vals : Nat} (hs : s.Canon db) : (s.dout mask vals).Canon db := hs.setF.setF.dioDrive

theorem State.Canon.dioAccept {chans vals : Nat} (hs : s.Canon db) : (s.dioAccept chans vals).Canon db := by
  dsimp only [State.dioAccept]
  split
  exacts [hs.setF, .offerEvent (.ite hs.setF hs.setF.free)]

theorem State.Canon.dioFault {e : Evt} {n : Nat} (hs : s.Canon db) : (s.dioFault e n).Canon db := hs.raise.record
theorem State.Canon.dioMark {x : Fld} {n : Nat} {v : Bool} (hs : s.Canon db) : (s.dioMark x n v).Canon db :=
  foldS_canon (fun _ _ hu => hu.setFBit) hs
theorem State.Canon.dioTrip {x : Fld} {e : Evt} {n : Nat} (hs : s.Canon db) : (s.dioTrip x e n).Canon db :=
  .ite hs.dioMark.dioFault.dioDrive hs
theorem State.Canon.dioUntrip {x : Fld} {n : Nat} (hs : s.Canon db) : (s.dioUntrip x n).Canon db := hs.dioMark.dioDrive
theorem State.Canon.retryOff {g : List Nat} (hs : s.Canon db) : (s.retryOff g).Canon db := hs.frame
theorem State.Canon.retryOn {g : List Nat} (hs : s.Canon db) : (s.retryOn g).Canon db := hs.frame
theorem State.Canon.overload {n : Nat} (hs : s.Canon db) : (s.overload n).Canon db :=
  .ite hs.retryOff.dioMark.dioFault.dioDrive hs
theorem State.Canon.overRetry {n : Nat} (hs : s.Canon db) : (s.overRetry n).Canon db := .ite hs.retryOn.dioDrive hs
theorem State.Canon.dioSettle (hs : s.Canon db) : s.dioSettle.Canon db :=
  .ite hs (.retryOff (foldS_canon (fun _ _ hu => hu.setFBit) hs))
theorem State.Canon.bankLow {b : Nat} (hs : s.Canon db) : (s.bankLow b).Canon db :=
  .dioDrive (.dioFault (foldS_canon (fun _ _ hu => .ite hu.setFBit hu) hs.setFBit))

/-! ## Operands -/

theorem State.Canon.setW {p i : Nat} {v : DWord} (hs : s.Canon db) : (s.setW p i v).Canon db := .ite hs hs.modEng
theorem State.Canon.setP {p i : Nat} {v : Bool} (hs : s.Canon db) : (s.setP p i v).Canon db := .ite hs hs.modEng
theorem State.Canon.setE {p i : Nat} {v : BitVec 25} (hs : s.Canon db) : (s.setE p i v).Canon db := hs.modEng
theorem State.Canon.setT {p i : Nat} {v : TReg} (hs : s.Canon db) : (s.setT p i v).Canon db := hs.modEng
theorem zDone_canon {cost : Nat} (hs : s.Canon db) : (zDone cost s).Canon db := .done hs
theorem State.Canon.lsStore {p a : Nat} {l : List Byte} (hs : s.Canon db) : (s.lsStore p a l).Canon db := hs.modEng

/-! ## Flags -/

theorem State.Canon.setPredPair {p pd pn : Nat} {v : Bool} (hs : s.Canon db) : (s.setPredPair p pd pn v).Canon db :=
  .ite hs.setP hs.setP.setP
theorem State.Canon.setS5 {p left : Nat} {taken : Bool} (hs : s.Canon db) : (s.setS5 p left taken).Canon db := hs.modEng
theorem State.Canon.setS6 {p r : Nat} (hs : s.Canon db) : (s.setS6 p r).Canon db := hs.modEng
theorem State.Canon.setS7 {p res c : Nat} (hs : s.Canon db) : (s.setS7 p res c).Canon db := hs.modEng
theorem State.Canon.setS7none {p res : Nat} (hs : s.Canon db) : (s.setS7none p res).Canon db := hs.modEng
theorem State.Canon.setS8 {p c : Nat} (hs : s.Canon db) : (s.setS8 p c).Canon db := hs.modEng
theorem State.Canon.setS14 {p r : Nat} (hs : s.Canon db) : (s.setS14 p r).Canon db := hs.modEng
theorem State.Canon.breakHalt {p : Nat} (hs : s.Canon db) : (s.breakHalt p).Canon db := hs.modEng.setEngState.raise
theorem State.Canon.retire {p cost npc : Nat} {touched : List (Nat × Bool)} (hs : s.Canon db) :
    (s.retire p cost npc touched).Canon db :=
  .ite hs.modEng.setPc.breakHalt (.ite hs.modEng.setPc.setEngState hs.modEng.setPc)

theorem State.Canon.zhnEnd {p : Nat} {seq : Bool} {o : ZOut} (hs : s.Canon db) (ho : o.Canon db) :
    (s.zhnEnd p seq o).Canon db := by
  cases o with
  | exc c a => exact .ite hs.progExc hs.progExc
  | done cost npc touched u => exact .ite hs.progExc (State.Canon.retire ho)
  | halt u => exact .ite hs.progExc (State.Canon.retire ho).setEngState.record
  | block b u =>
    refine .ite hs.progExc ?_
    split
    · exact (State.Canon.modEng ho).setEngState
    · exact State.Canon.modEng ho

theorem State.Canon.zhn {p ps : Nat} {seq : Bool} {f : State → ZOut} (hs : s.Canon db)
    (hf : ∀ t : State, t.Canon db → (f t).Canon db) : (s.zhn p ps seq f).Canon db :=
  .ite hs (.ite hs.progExc (.ite hs.breakHalt (.ite (hs.zhnEnd (hf _ hs)) hs.retire)))

/-! ## ZhnAlu -/

theorem State.Canon.wDone {p cost rd : Nat} {v : DWord} (hs : s.Canon db) : (s.wDone p cost rd v).Canon db :=
  zDone_canon hs.setW
theorem zAdd_canon {p rd ra rb : Nat} (hs : s.Canon db) : (zAdd p rd ra rb s).Canon db := hs.wDone
theorem zSub_canon {p rd ra rb : Nat} (hs : s.Canon db) : (zSub p rd ra rb s).Canon db := hs.wDone
theorem zAnd_canon {p rd ra rb : Nat} (hs : s.Canon db) : (zAnd p rd ra rb s).Canon db := hs.wDone
theorem zOr_canon {p rd ra rb : Nat} (hs : s.Canon db) : (zOr p rd ra rb s).Canon db := hs.wDone
theorem zXor_canon {p rd ra rb : Nat} (hs : s.Canon db) : (zXor p rd ra rb s).Canon db := hs.wDone
theorem zAndn_canon {p rd ra rb : Nat} (hs : s.Canon db) : (zAndn p rd ra rb s).Canon db := hs.wDone
theorem zSll_canon {p rd ra rb : Nat} (hs : s.Canon db) : (zSll p rd ra rb s).Canon db := hs.wDone
theorem zSrl_canon {p rd ra rb : Nat} (hs : s.Canon db) : (zSrl p rd ra rb s).Canon db := hs.wDone
theorem zSra_canon {p rd ra rb : Nat} (hs : s.Canon db) : (zSra p rd ra rb s).Canon db := hs.wDone
theorem zMul_canon {p rd ra rb : Nat} (hs : s.Canon db) : (zMul p rd ra rb s).Canon db := hs.wDone
theorem zMulh_canon {p rd ra rb : Nat} (hs : s.Canon db) : (zMulh p rd ra rb s).Canon db := hs.wDone
theorem zMulhu_canon {p rd ra rb : Nat} (hs : s.Canon db) : (zMulhu p rd ra rb s).Canon db := hs.wDone
theorem zDiv_canon {p rd ra rb : Nat} (hs : s.Canon db) : (zDiv p rd ra rb s).Canon db := hs.wDone
theorem zDivu_canon {p rd ra rb : Nat} (hs : s.Canon db) : (zDivu p rd ra rb s).Canon db := hs.wDone
theorem zRem_canon {p rd ra rb : Nat} (hs : s.Canon db) : (zRem p rd ra rb s).Canon db := hs.wDone
theorem zRemu_canon {p rd ra rb : Nat} (hs : s.Canon db) : (zRemu p rd ra rb s).Canon db := hs.wDone
theorem zMin_canon {p rd ra rb : Nat} (hs : s.Canon db) : (zMin p rd ra rb s).Canon db := hs.wDone
theorem zMax_canon {p rd ra rb : Nat} (hs : s.Canon db) : (zMax p rd ra rb s).Canon db := hs.wDone
theorem zMinu_canon {p rd ra rb : Nat} (hs : s.Canon db) : (zMinu p rd ra rb s).Canon db := hs.wDone
theorem zMaxu_canon {p rd ra rb : Nat} (hs : s.Canon db) : (zMaxu p rd ra rb s).Canon db := hs.wDone
theorem zClamp_canon {p rd ra rb : Nat} (hs : s.Canon db) : (zClamp p rd ra rb s).Canon db := hs.wDone
theorem zPopc_canon {p rd ra : Nat} (hs : s.Canon db) : (zPopc p rd ra s).Canon db := hs.wDone
theorem zClz_canon {p rd ra : Nat} (hs : s.Canon db) : (zClz p rd ra s).Canon db := hs.wDone
theorem zCtz_canon {p rd ra : Nat} (hs : s.Canon db) : (zCtz p rd ra s).Canon db := hs.wDone
theorem zLi_canon {p rd imm : Nat} (hs : s.Canon db) : (zLi p rd imm s).Canon db := hs.wDone
theorem zLis_canon {p rd imm : Nat} (hs : s.Canon db) : (zLis p rd imm s).Canon db := hs.wDone
theorem zAddi_canon {p rd imm : Nat} (hs : s.Canon db) : (zAddi p rd imm s).Canon db := hs.wDone
theorem zAndi_canon {p rd imm : Nat} (hs : s.Canon db) : (zAndi p rd imm s).Canon db := hs.wDone
theorem zOri_canon {p rd imm : Nat} (hs : s.Canon db) : (zOri p rd imm s).Canon db := hs.wDone
theorem zXori_canon {p rd imm : Nat} (hs : s.Canon db) : (zXori p rd imm s).Canon db := hs.wDone
theorem zSlli_canon {p rd imm : Nat} (hs : s.Canon db) : (zSlli p rd imm s).Canon db := hs.wDone
theorem zSrli_canon {p rd imm : Nat} (hs : s.Canon db) : (zSrli p rd imm s).Canon db := hs.wDone
theorem zSrai_canon {p rd imm : Nat} (hs : s.Canon db) : (zSrai p rd imm s).Canon db := hs.wDone
theorem zMuli_canon {p rd imm : Nat} (hs : s.Canon db) : (zMuli p rd imm s).Canon db := hs.wDone
theorem zMini_canon {p rd imm : Nat} (hs : s.Canon db) : (zMini p rd imm s).Canon db := hs.wDone
theorem zMaxi_canon {p rd imm : Nat} (hs : s.Canon db) : (zMaxi p rd imm s).Canon db := hs.wDone
theorem zCmp_canon {p cond pd pn ra rb : Nat} (hs : s.Canon db) : (zCmp p cond pd pn ra rb s).Canon db :=
  .ite .exc (zDone_canon hs.setPredPair)
theorem zCmpi_canon {p cond pd pn rd imm : Nat} (hs : s.Canon db) : (zCmpi p cond pd pn rd imm s).Canon db :=
  .ite .exc (zDone_canon hs.setPredPair)
theorem zPlog_canon {c p pd pa pb : Nat} (hs : s.Canon db) : (zPlog c p pd pa pb s).Canon db := zDone_canon hs.setP
theorem State.Canon.zJump {p : Nat} {target : Int} {g : State → State} (hs : s.Canon db)
    (hg : ∀ t : State, t.Canon db → (g t).Canon db) : (s.zJump p target g).Canon db :=
  .ite .exc (.done (hg _ hs))
theorem State.Canon.link {p : Nat} (hs : s.Canon db) : (s.link p).Canon db := hs.setW
theorem zB_canon {p off : Nat} (hs : s.Canon db) : (zB p off s).Canon db := hs.zJump (fun _ hu => hu)
theorem zCall_canon {p off : Nat} (hs : s.Canon db) : (zCall p off s).Canon db := hs.zJump (fun _ hu => hu.link)
theorem zRet_canon {p : Nat} (hs : s.Canon db) : (zRet p s).Canon db := hs.zJump (fun _ hu => hu)
theorem zJr_canon {p ra : Nat} (hs : s.Canon db) : (zJr p ra s).Canon db := hs.zJump (fun _ hu => hu)
theorem zCallr_canon {p ra : Nat} (hs : s.Canon db) : (zCallr p ra s).Canon db := hs.zJump (fun _ hu => hu.link)

/-! ## ZhnMem -/

theorem zLdl_canon {z p rd ra off : Nat} (hs : s.Canon db) : (zLdl z p rd ra off s).Canon db :=
  .ite .exc (zDone_canon hs.setW)
theorem zStl_canon {z p rb ra off : Nat} (hs : s.Canon db) : (zStl z p rb ra off s).Canon db :=
  .ite .exc (zDone_canon hs.lsStore)
theorem zField_canon {cost : Nat} {touched : List (Nat × Bool)} (hs : s.Canon db) : (zField cost touched s).Canon db :=
  .done hs.free
theorem zLdf_canon {z p rd ra off : Nat} (hs : s.Canon db) : (zLdf z p rd ra off s).Canon db :=
  .ite .exc (zField_canon hs.setW)
theorem zStf_canon {z p rb ra off : Nat} (hs : s.Canon db) : (zStf z p rb ra off s).Canon db :=
  .ite .exc (.ite (.ite .exc (zField_canon hs.setFWord.setFWord)) (.ite .exc (zField_canon hs.setFWord)))
theorem zLde_canon {p rd ec word lsb wm1 : Nat} {sx : Bool} (hs : s.Canon db) :
    (zLde p rd ec word lsb wm1 sx s).Canon db :=
  .ite .exc (.ite .exc (zField_canon hs.setW))
theorem zSte_canon {p rb ec word lsb wm1 : Nat} (hs : s.Canon db) : (zSte p rb ec word lsb wm1 s).Canon db :=
  .ite .exc (.ite .exc (.ite .exc (.ite .exc (zField_canon hs.setFWord))))
theorem zEcur_canon {p ec ra : Nat} (hs : s.Canon db) : (zEcur p ec ra s).Canon db := .ite .exc (zDone_canon hs.setE)
theorem zEcurG_canon {p ec ra : Nat} (hs : s.Canon db) : (zEcurG p ec ra s).Canon db := .ite .exc (.done hs.setE)
theorem zErd_canon {p rd ec : Nat} (hs : s.Canon db) : (zErd p rd ec s).Canon db := hs.wDone
theorem zLdr_canon {p ec ra : Nat} (hs : s.Canon db) : (zLdr p ec ra s).Canon db :=
  .ite .exc (.ite .exc (zField_canon hs.lsStore))
theorem State.Canon.scanTo {p pd ec i : Nat} (hs : s.Canon db) : (s.scanTo p pd ec i).Canon db := hs.setE.setP
theorem State.Canon.scanMiss {p pd r : Nat} (hs : s.Canon db) : (s.scanMiss p pd r).Canon db := hs.setP.setS14
theorem zScanRow_canon {p pd ec ra : Nat} (hs : s.Canon db) : (zScanRow p pd ec ra s).Canon db :=
  .ite .exc (.ite (zField_canon hs.scanMiss) (.ite (zField_canon hs.scanMiss) (zField_canon hs.scanTo)))
theorem zScanNext_canon {p pd ec : Nat} (hs : s.Canon db) : (zScanNext p pd ec s).Canon db :=
  .ite .exc (.ite (zField_canon hs.scanMiss) (.ite (zField_canon hs.scanMiss) (zField_canon hs.scanTo)))

theorem zScanGrp_canon {p pd ec ra : Nat} (hs : s.Canon db) : (zScanGrp p pd ec ra s).Canon db := by
  dsimp only [zScanGrp]
  refine .ite .exc ?_
  split
  exacts [zField_canon hs.scanTo, zField_canon hs.scanMiss]

theorem State.Canon.grpBitOp {p rg ri : Nat} {wr : Bool} {g : Nat → Nat → ZOut} (hg : ∀ x, ∀ x1, (g x x1).Canon db) :
    (s.grpBitOp p rg ri wr g).Canon db :=
  .ite .exc (.ite .exc (.ite .exc (hg _ _)))
theorem zGrpSet_canon {p rg ri : Nat} (hs : s.Canon db) : (zGrpSet p rg ri s).Canon db :=
  State.Canon.grpBitOp (fun _ _ => zField_canon hs.setGrpBit)
theorem zGrpClr_canon {p rg ri : Nat} (hs : s.Canon db) : (zGrpClr p rg ri s).Canon db :=
  State.Canon.grpBitOp (fun _ _ => zField_canon hs.setGrpBit)
theorem zGrpTst_canon {p pd rg ri : Nat} (hs : s.Canon db) : (zGrpTst p pd rg ri s).Canon db :=
  State.Canon.grpBitOp (fun _ _ => zField_canon hs.setP)
theorem zGrpCnt_canon {p rd rg : Nat} (hs : s.Canon db) : (zGrpCnt p rd rg s).Canon db :=
  .ite .exc (zField_canon hs.setW)
theorem State.Canon.grpWords {d a b : Nat} {f : Word → Word → Word} (hs : s.Canon db) : (s.grpWords d a b f).Canon db :=
  foldS_canon (fun _ _ hu => hu.setFWord) hs
theorem State.Canon.grpAll {p cost rd ra rb : Nat} {loads : List Nat} {f : Word → Word → Word} (hs : s.Canon db) :
    (s.grpAll p cost rd ra rb loads f).Canon db :=
  .ite .exc (.ite .exc (zField_canon hs.grpWords))
theorem zGrpOr_canon {p rd ra rb : Nat} (hs : s.Canon db) : (zGrpOr p rd ra rb s).Canon db := hs.grpAll
theorem zGrpAnd_canon {p rd ra rb : Nat} (hs : s.Canon db) : (zGrpAnd p rd ra rb s).Canon db := hs.grpAll
theorem zGrpAndn_canon {p rd ra rb : Nat} (hs : s.Canon db) : (zGrpAndn p rd ra rb s).Canon db := hs.grpAll
theorem zGrpCopy_canon {p rd ra : Nat} (hs : s.Canon db) : (zGrpCopy p rd ra s).Canon db := hs.grpAll
theorem zGrpClrall_canon {p rd : Nat} (hs : s.Canon db) : (zGrpClrall p rd s).Canon db := hs.grpAll
theorem zDimcP2c_canon {p rd ra : Nat} (hs : s.Canon db) : (zDimcP2c p rd ra s).Canon db := hs.wDone
theorem zDimcC2p_canon {p rd ra : Nat} (hs : s.Canon db) : (zDimcC2p p rd ra s).Canon db := .ite .exc hs.wDone

/-! ## ZhnSys -/

theorem zTnow_canon {p td : Nat} (hs : s.Canon db) : (zTnow p td s).Canon db := zDone_canon hs.setT
theorem zTmov_canon {p td ta : Nat} (hs : s.Canon db) : (zTmov p td ta s).Canon db := zDone_canon hs.setT
theorem zTadd_canon {p td ta ra unit : Nat} (hs : s.Canon db) : (zTadd p td ta ra unit s).Canon db :=
  zDone_canon hs.setT
theorem zTdiff_canon {p rd ta tb unit : Nat} (hs : s.Canon db) : (zTdiff p rd ta tb unit s).Canon db := hs.wDone
theorem zTtag_canon {p td ra : Nat} (hs : s.Canon db) : (zTtag p td ra s).Canon db := zDone_canon hs.setT
theorem zTget_canon {p rd ta part : Nat} (hs : s.Canon db) : (zTget p rd ta part s).Canon db := hs.wDone
theorem zTset_canon {p td ra part : Nat} (hs : s.Canon db) : (zTset p td ra part s).Canon db :=
  .ite .exc (zDone_canon hs.setT)
theorem zTcmp_canon {p cond pd ta tb : Nat} (hs : s.Canon db) : (zTcmp p cond pd ta tb s).Canon db :=
  zDone_canon hs.setP
theorem zTld_canon {p td ra imm : Nat} (hs : s.Canon db) : (zTld p td ra imm s).Canon db :=
  .ite .exc (zDone_canon hs.setT)
theorem zTst_canon {p ta ra imm : Nat} (hs : s.Canon db) : (zTst p ta ra imm s).Canon db :=
  .ite .exc (zDone_canon hs.lsStore)
theorem zSun_canon {p ra ta : Nat} (hs : s.Canon db) : (zSun p ra ta s).Canon db := .ite .exc hs.free.free.wDone
theorem State.Canon.takeEvent {p pd a : Nat} {ev : IEvent} {rest : List IEvent} (hs : s.Canon db) :
    (s.takeEvent p pd a ev rest).Canon db :=
  hs.setIlist.quEval.lsStore.setP.setS5
theorem State.Canon.waitNone {p pd : Nat} (hs : s.Canon db) : (s.waitNone p pd).Canon db := hs.setP.setS5

theorem zWait_canon {p pd ra rb : Nat} (hs : s.Canon db) : (zWait p pd ra rb s).Canon db := by
  dsimp only [zWait]
  refine .ite .exc ?_
  split
  exacts [zDone_canon hs.takeEvent, .ite (zDone_canon hs.waitNone) (.block hs)]

theorem State.Canon.unblock {p cost : Nat} (hs : s.Canon db) : (s.unblock p cost).Canon db := hs.setEngState.retire

theorem State.Canon.waitResume {p : Nat} (hs : s.Canon db) : (s.waitResume p).Canon db := by
  dsimp only [State.waitResume]
  split
  exacts [.ite hs.takeEvent.unblock hs, hs]

theorem State.Canon.waitTimeout {p : Nat} (hs : s.Canon db) : (s.waitTimeout p).Canon db := by
  dsimp only [State.waitTimeout]
  split
  exacts [.ite hs.waitNone.unblock hs, hs]

theorem State.Canon.noteClamp {l i : Nat} {clamped : Bool} (hs : s.Canon db) : (s.noteClamp l i clamped).Canon db :=
  .ite hs.setEp.frame hs

theorem zEmit_canon {p pd rb ra ec tr : Nat} (hs : s.Canon db) : (zEmit p pd rb ra ec tr s).Canon db := by
  dsimp only [zEmit]
  refine .ite .exc (.ite .exc (.ite .exc (.ite .exc ?_)))
  split
  · exact zDone_canon (hs.place ‹_›).noteClamp.setW.setP.setS6
  · exact zDone_canon hs.placeFlags.setW.setP.setS6

theorem zDoneH_canon {p pd ra rb : Nat} (hs : s.Canon db) : (zDoneH p pd ra rb s).Canon db :=
  .ite .exc (zDone_canon hs.hndDone.setP)
theorem State.Canon.stgIn {p pd c : Nat} {e : ShfEntry} (hs : s.Canon db) : (s.stgIn p pd c e).Canon db :=
  hs.shfStage.setP.setS7

theorem zStg_canon {p pd ra rb : Nat} (hs : s.Canon db) : (zStg p pd ra rb s).Canon db := by
  dsimp only [zStg]
  refine .ite .exc ?_
  split
  · exact zDone_canon hs.stgIn
  · split
    exacts [zDone_canon hs.shfOpen.stgIn, zDone_canon hs.setP.setS7none]

theorem zChk_canon {p pd : Nat} (hs : s.Canon db) : (zChk p pd s).Canon db := by
  dsimp only [zChk]
  split
  · exact zDone_canon hs.setP.setS7none
  · exact .ite (.block hs.shfCheck) (zDone_canon hs.shfCheck.setP.setS7)

theorem zApl_canon {p pd ra tr : Nat} (hs : s.Canon db) : (zApl p pd ra tr s).Canon db := by
  dsimp only [zApl]
  refine .ite .exc ?_
  split
  · exact zDone_canon hs.setP.setS7none
  · exact .ite (.block hs.shfApply) (.ite (zDone_canon hs.shfApply.setP.setS7) (zDone_canon hs.shfApply.setP.setS7))

theorem zSdrop_canon {p pd : Nat} (hs : s.Canon db) : (zSdrop p pd s).Canon db := by
  dsimp only [zSdrop]
  split
  exacts [zDone_canon hs.setP.setS7none, zDone_canon hs.shfDiscard.setP.setS7]

theorem State.Canon.chkResume {c : Nat} (hs : s.Canon db) : (s.chkResume c).Canon db := by
  dsimp only [State.chkResume]
  refine foldS_canon (fun _ _ hu => ?_) hs
  split
  · exact .ite (.retire (.setS7 (.setP (.ite hu.setS8 hu)))) hu
  · exact .ite (.retire (.setS7 (.setP (.ite hu.setS8 hu)))) hu
  · exact hu

theorem zNop_canon (hs : s.Canon db) : (zNop s).Canon db := zDone_canon hs
theorem zFence_canon (hs : s.Canon db) : (zFence s).Canon db := zDone_canon hs
theorem zTrap_canon {code : Nat} {x : State} : (zTrap code x).Canon db := .exc
theorem zHalt_canon (hs : s.Canon db) : (zHalt s).Canon db := .halt hs
theorem State.Canon.drbgDraw (hs : s.Canon db) : s.drbgDraw.2.Canon db := .ite_snd (.snd hs.free.frame) (.snd hs)
theorem zMfs_canon {p rd n : Nat} (hs : s.Canon db) : (zMfs p rd n s).Canon db :=
  .ite .exc (.ite hs.drbgDraw.wDone hs.wDone)

theorem zMts_canon {p n ra : Nat} (hs : s.Canon db) : (zMts p n ra s).Canon db := by
  dsimp only [zMts]
  split
  exacts [zDone_canon hs.modEng, zDone_canon hs.modEng, .exc]

theorem zDout_canon {p ra : Nat} (hs : s.Canon db) : (zDout p ra s).Canon db := zDone_canon hs.dout

/-! ## Key -/

theorem State.Canon.showSlot {i : Nat} (hs : s.Canon db) : (s.showSlot i).Canon db := hs.setR.setR.setF.setF.setF
theorem State.Canon.setSlot {i : Nat} {k : KeySlot} (hs : s.Canon db) : (s.setSlot i k).Canon db := hs.frame.showSlot
theorem State.Canon.setShadowKey {t : Nat} {x : Option Shadow} (hs : s.Canon db) : (s.setShadowKey t x).Canon db :=
  hs.frame.showSlot
theorem State.Canon.setRoot {r : Option (List Byte)} (hs : s.Canon db) : (s.setRoot r).Canon db := hs.frame.setF
theorem State.Canon.dropSlot {i : Nat} (hs : s.Canon db) : (s.dropSlot i).Canon db := hs.setShadowKey.setSlot
theorem State.Canon.dropShadows (hs : s.Canon db) : s.dropShadows.Canon db :=
  foldS_canon (fun _ _ hu => hu.setShadowKey) hs
theorem State.Canon.setLc {v : Nat} (hs : s.Canon db) : (s.setLc v).Canon db := hs.frame.setF
theorem State.Canon.setKbuf {l : List Byte} (hs : s.Canon db) : (s.setKbuf l).Canon db :=
  .foldl (fun _ hu _ => hu.setR) hs
theorem State.Canon.drawBytes {n : Nat} (hs : s.Canon db) : (s.drawBytes n).2.Canon db := .snd hs.frame
theorem State.Canon.reseed (hs : s.Canon db) : s.reseed.Canon db := hs.frame
theorem State.Canon.setMb {l : List Byte} (hs : s.Canon db) : (s.setMb l).Canon db :=
  foldS_canon (fun _ _ hu => hu.setR) hs
theorem State.Canon.opPost {time result : Nat} (hs : s.Canon db) : (s.opPost time result).Canon db :=
  hs.setF.setF.setF.setF

theorem State.Canon.keyOp {code a b : Nat} (hs : s.Canon db) : (s.keyOp code a b).Canon db := by
  dsimp only [State.keyOp]
  refine .ite hs (.ite hs.opPost ?_)
  split
  exacts [hs.opPost, .setF (.setF (.ite hs.frame.drawBytes hs.frame))]

theorem State.Canon.recipesCommit (hs : s.Canon db) : s.recipesCommit.Canon db := hs.ledgerCommit
theorem State.Canon.pufEnrol (hs : s.Canon db) : s.pufEnrol.Canon db := .ite hs hs.frame.ledgerCommit.setF

theorem State.Canon.opDone (hs : s.Canon db) : s.opDone.Canon db := by
  unfold State.opDone
  split
  · exact hs
  extract_lets _ s₁ s₂ s₃ s₄ s₅ s₆ s₇ _ s₈
  have h₂ : s₂.Canon db := foldS_canon (fun _ _ hu => .ite hu.setSlot (.ite hu.dropSlot hu)) hs.frame
  have h₃ : s₃.Canon db := foldS_canon (fun _ _ hu => hu.setShadowKey) h₂
  have h₄ : s₄.Canon db := by
    unfold s₄
    split
    exacts [h₃.setMb, h₃]
  have h₅ : s₅.Canon db := by
    unfold s₅
    split
    exacts [h₄.setKbuf, h₄]
  have h₆ : s₆.Canon db := .ite h₅.raise (.ite h₅.raise h₅)
  have h₇ : s₇.Canon db := by
    unfold s₇
    split
    exacts [h₆.record, h₆]
  have h₈ : s₈.Canon db := by
    unfold s₈
    split
    exacts [h₇.frame.pufEnrol.recipesCommit, h₇]
  exact h₈.setF.setF.setF

theorem State.Canon.requestNonce (hs : s.Canon db) : s.requestNonce.Canon db := .ite hs.drbgDraw.setPairR.frame hs

theorem State.Canon.lcTransition (hs : s.Canon db) : s.lcTransition.Canon db := by
  dsimp only [State.lcTransition]
  refine .ite hs.frame ?_
  split
  exacts [hs.frame.raise.record, hs.frame.frame.ledgerWait.setF.setF]

theorem State.Canon.newRoot (hs : s.Canon db) : s.newRoot.Canon db := hs.drawBytes.setRoot

theorem State.Canon.deriveSlot0 (hs : s.Canon db) : s.deriveSlot0.Canon db := by
  dsimp only [State.deriveSlot0]
  split
  exacts [hs, hs.setSlot]

theorem State.Canon.leaveService (hs : s.Canon db) : s.leaveService.Canon db :=
  .setF (foldS_canon (fun _ _ hu => hu.setF) hs)
theorem State.Canon.opStrip {keep : KeySlot → Bool} (hs : s.Canon db) : (s.opStrip keep).Canon db := hs.frame
theorem State.Canon.lcStrip {i : Intent} (hs : s.Canon db) : (s.lcStrip i).Canon db :=
  .opStrip (foldS_canon (fun _ _ hu => hu.dropSlot) hs.dropShadows)

theorem State.Canon.lcActions {i : Intent} (hs : s.Canon db) : (s.lcActions i).Canon db := by
  unfold State.lcActions
  extract_lets _ s₁ s₂
  have h₁ : s₁.Canon db := .ite hs.frame.recipesCommit.setRoot hs
  have h₂ : s₂.Canon db := .ite h₁.newRoot h₁
  exact .ite h₂.deriveSlot0 h₂

theorem State.Canon.lcEnd {i : Intent} {gone : Nat} (hs : s.Canon db) : (s.lcEnd i gone).Canon db := by
  unfold State.lcEnd
  extract_lets _ s₁ _ s₂ s₃ s₄
  have h₁ : s₁.Canon db := .ite hs.frame.setF hs
  have h₂ : s₂.Canon db := h₁.frame.setF
  have h₃ : s₃.Canon db := h₂.ledgerCommit.setF.setLc
  have h₄ : s₄.Canon db := .ite h₃ h₃.leaveService
  exact h₄.raise.record

theorem State.Canon.lcComplete (hs : s.Canon db) : s.lcComplete.Canon db := by
  dsimp only [State.lcComplete]
  split
  exacts [hs, hs.lcStrip.lcActions.lcEnd]

theorem State.Canon.lcWarned (hs : s.Canon db) : s.lcWarned.Canon db := by
  dsimp only [State.lcWarned]
  split
  exacts [hs, .ite hs.lcStrip.lcEnd hs.frame.setF.setF]

theorem State.Canon.zeroise (hs : s.Canon db) : s.zeroise.Canon db :=
  .setF (.frame (.setRoot (foldS_canon (fun _ _ hu => hu.dropSlot) hs.dropShadows)))
theorem State.Canon.tamperLedger {cause : Nat} (hs : s.Canon db) : (s.tamperLedger cause).Canon db :=
  hs.frame.recipesCommit.ledgerCommit.record

theorem State.Canon.tamper {sources : Nat} (hs : s.Canon db) : (s.tamper sources).Canon db := by
  unfold State.tamper
  extract_lets _ s₁ s₂ _ _ s₃ s₄
  have h₁ : s₁.Canon db := hs.zeroise.setF
  have h₂ : s₂.Canon db := h₁.setF.raise
  have h₃ : s₃.Canon db := h₂.frame.setF
  have h₄ : s₄.Canon db := .ite h₃.setF h₃
  exact .ite hs.setF (.ite h₁.setF.raise (.ite h₄.tamperLedger h₄))

theorem State.Canon.zeroiseClear (hs : s.Canon db) : s.zeroiseClear.Canon db :=
  .ite hs.frame.setF.reseed.frame.setF.newRoot hs.frame.setF
theorem State.Canon.entropyFail {test : Nat} (hs : s.Canon db) : (s.entropyFail test).Canon db := hs.setF.raise.record
theorem State.Canon.keyReset (hs : s.Canon db) : s.keyReset.Canon db :=
  .opStrip (.frame (foldS_canon (fun _ _ hu => hu.dropSlot) hs.dropShadows))

theorem State.Canon.keyTest (hs : s.Canon db) : s.keyTest.Canon db := by
  unfold State.keyTest
  extract_lets s₁ s₂ s₃ s₄ s₅
  have h₁ : s₁.Canon db := hs.setF.reseed.setF.setF
  have h₂ : s₂.Canon db := foldS_canon (fun _ _ hu => hu.showSlot) h₁
  have h₃ : s₃.Canon db := h₂.setF
  have h₄ : s₄.Canon db := foldS_canon (fun _ _ hu => hu.dropSlot) h₃
  have h₅ : s₅.Canon db := h₄.raise.record
  exact .ite (foldS_canon (fun _ _ hu => hu.tamperLedger) h₃.raise.setF) (.ite h₃ h₅.frame.newRoot)

theorem State.Canon.pufStart {ok : Bool} (hs : s.Canon db) : (s.pufStart ok).Canon db := by
  unfold State.pufStart
  extract_lets _ s₁ s₂ s₃
  have h₁ : s₁.Canon db := hs.frame
  have h₂ : s₂.Canon db := h₁.setF
  have h₃ : s₃.Canon db := foldS_canon (fun _ _ hu => hu.dropSlot) hs
  exact .ite (.ite hs (foldS_canon (fun _ _ hu => .ite hu hu.setSlot) h₂)) h₃.frame.setF.raise.record

/-! ## Ptp -/

theorem State.Canon.announce {n : Nat} {f : Frame} (hs : s.Canon db) : (s.announce n f).Canon db := .ite hs.frame hs

/-! ## Rings -/

theorem State.Canon.ringUpdate {was : State} {k : Nat} (ho : s.Canon db) : (was.ringUpdate s k).Canon db := by
  unfold State.ringUpdate
  extract_lets _ _ _ s₁ _ _ s₂ s₃ s₄
  have h₁ : s₁.Canon db := ho.setF.setF.setF
  have h₂ : s₂.Canon db := h₁.setF.raise
  have h₃ : s₃.Canon db := .ite h₂.record (.ite h₁.setF.raise.record h₁)
  have h₄ : s₄.Canon db := .ite h₃.raise h₃
  exact .ite h₄.record h₄

theorem State.Canon.setVia {k j : Nat} {a v : Bool} (hs : s.Canon db) : (s.setVia k j a v).Canon db :=
  hs.setF.ringUpdate
theorem State.Canon.setDd {p : Nat} {x : List DdEntry} (hs : s.Canon db) : (s.setDd p x).Canon db := hs.frame
theorem State.Canon.setSrcs {p : Nat} {x : List DdSource} (hs : s.Canon db) : (s.setSrcs p x).Canon db := hs.frame
theorem State.Canon.ddPut {k : Nat} {m : Mac} {q : Nat} {f : DdEntry → Option DdEntry} (hs : s.Canon db) :
    (s.ddPut k m q f).Canon db :=
  hs.setDd
theorem State.Canon.srcMod {k : Nat} {m : Mac} {f : DdSource → DdSource} (hs : s.Canon db) :
    (s.srcMod k m f).Canon db :=
  hs.setSrcs

theorem State.Canon.ddCreate {e : DdEntry} (hs : s.Canon db) : (s.ddCreate e).Canon db := by
  dsimp only [State.ddCreate]
  split
  exacts [.ite hs.setDd hs.setDd.raise, hs.setDd]

theorem State.Canon.srcAccept {k : Nat} {m : Mac} {q : Nat} (hs : s.Canon db) : (s.srcAccept k m q).2.Canon db := by
  unfold State.srcAccept
  extract_lets _ _ s₁
  have h₁ : s₁.Canon db := hs.srcMod
  split
  · split
    exacts [.ite_snd (.snd hs.setSrcs) (.snd hs.setSrcs.raise), .snd hs.setSrcs]
  · exact .ite_snd (.snd h₁.setDd) (.snd hs)

theorem State.Canon.setGapRun {k : Nat} {m : Mac} {a b : Nat} (hs : s.Canon db) : (s.setGapRun k m a b).Canon db :=
  .ite hs.frame hs

theorem State.Canon.ddReceive {k : Nat} {a : Bool} {m : Mac} {q : Nat} (hs : s.Canon db) :
    (s.ddReceive k a m q).2.Canon db := by
  dsimp only [State.ddReceive]
  split
  · exact .ite_snd (.ite_snd (.snd hs.srcMod.count.ddPut.setGapRun) (.snd hs.srcMod.count.ddPut))
      (.ite_snd (.snd hs.srcMod.count) (.snd hs.srcMod.count.ddPut.setGapRun))
  · exact .snd hs.srcMod.srcAccept.ddCreate

theorem State.Canon.ddSent {k : Nat} {m : Mac} {q : Nat} (hs : s.Canon db) : (s.ddSent k m q).Canon db := by
  dsimp only [State.ddSent]
  split
  exacts [hs.ddPut, hs.ddCreate]

theorem State.Canon.ddExpire {k : Nat} {m : Mac} {q : Nat} (hs : s.Canon db) : (s.ddExpire k m q).Canon db :=
  foldS_canon (fun _ _ hu => hu.setDd) hs
theorem State.Canon.srcExpire {k : Nat} {m : Mac} (hs : s.Canon db) : (s.srcExpire k m).Canon db :=
  foldS_canon (fun _ _ hu => hu.setSrcs.setDd) hs

theorem State.Canon.viaSeen {k : Nat} {a : Bool} {m : Mac} (hs : s.Canon db) : (s.viaSeen k a m).Canon db := by
  dsimp only [State.viaSeen]
  split
  exacts [hs.setVia, hs]

theorem State.Canon.viaTimeout {k j : Nat} {a : Bool} (hs : s.Canon db) : (s.viaTimeout k j a).Canon db :=
  .ite hs.setVia hs

theorem State.Canon.oneSided {k : Nat} {m : Mac} {q : Nat} (hs : s.Canon db) : (s.oneSided k m q).Canon db := by
  unfold State.oneSided
  split
  · exact hs
  refine .ite hs ?_
  extract_lets s₁ _ _ s₂
  have h₁ : s₁.Canon db := hs.ddPut.count
  have h₂ : s₂.Canon db := .ite h₁.setGapRun h₁.setGapRun
  split
  exacts [.ite h₂.setVia h₂, h₂]

theorem State.Canon.svCheck {k : Nat} {m : Mac} (hs : s.Canon db) : (s.svCheck k m).Canon db :=
  .ite hs (.frame (.ite hs.raise hs))
theorem State.Canon.ringTake {k n : Nat} {f : Frame} (hs : s.Canon db) : (s.ringTake k n f).Canon db :=
  .ite hs.enqueue.svCheck (.ite hs.enqueue (.ite hs.enqueue (.ite hs.count hs.bridgeIn)))

theorem State.Canon.ringIn {k n : Nat} {f : Frame} (hs : s.Canon db) : (s.ringIn k n f).Canon db := by
  dsimp only [State.ringIn]
  split
  · exact .ite hs.viaSeen.toControl hs.viaSeen.count
  · exact .ite hs.viaSeen.count (.ite hs.viaSeen.ddReceive.ringTake hs.viaSeen.ddReceive)

theorem State.Canon.frameTo {n : Nat} {f : Frame} (hs : s.Canon db) : (s.frameTo n f).Canon db := by
  dsimp only [State.frameTo]
  refine .ite hs.toControl ?_
  split
  exacts [hs.ringIn, hs.plainIn]

theorem State.Canon.frameIn {n : Nat} {f : Frame} (hs : s.Canon db) : (s.frameIn n f).Canon db :=
  hs.portIn (fun _ hu => hu.frameTo.announce)

theorem State.Canon.frameIngress {i : Ingress} {f : Frame} (hs : s.Canon db) : (s.frameIngress i f).Canon db := by
  dsimp only [State.frameIngress]
  split
  exacts [hs.frameIn, hs.controlIn]

theorem State.Canon.supervision {k len : Nat} (hs : s.Canon db) : (s.supervision k len).Canon db :=
  .ite hs.ringNext.frame.enqueue hs
theorem State.Canon.ringRetire {k : Nat} {src : Mac} {b : CmdBody} {t : State} (ho : t.Canon db) :
    (s.ringRetire k src b t).Canon db :=
  ho.ringSend

theorem State.Canon.endpointBody {n k : Nat} {src : Mac} {b : List Byte} (hs : s.Canon db) :
    (s.endpointBody n k src b).Canon db := by
  unfold State.endpointBody
  extract_lets _ _ _ _ s₁
  have h₁ : s₁.Canon db := hs.count
  refine .ite h₁ ?_
  split
  · exact hs.fieldEvent (fun _ _ hu => hu.ringRetire)
  · exact hs.fieldReply (fun _ _ hv => hv.ringRetire)
  · split
    exacts [hs.joinEvent (fun _ _ hw => hw.ringRetire), h₁]
  · exact h₁

theorem State.Canon.endpointFrame {n : Nat} {f : EndFrame} (hs : s.Canon db) : (s.endpointFrame n f).Canon db := by
  dsimp only [State.endpointFrame]
  refine .ite hs ?_
  split
  exacts [.ite hs.endpointBody hs.count, hs.count]

/-! ## Radio -/

theorem State.Canon.setRad {j : Nat} {x : Rad} (hs : s.Canon db) : (s.setRad j x).Canon db := hs.frame
theorem State.Canon.setRadNode {j i : Nat} {x : RadNode} (hs : s.Canon db) : (s.setRadNode j i x).Canon db := hs.setRad
theorem State.Canon.radShow {j : Nat} (hs : s.Canon db) : (s.radShow j).Canon db :=
  .ite hs.setF.setF.setF hs.setF.setF.setF
theorem State.Canon.radPhase {j : Nat} {p : RadPhase} (hs : s.Canon db) : (s.radPhase j p).Canon db := hs.setRad.radShow

theorem State.Canon.radDrop {x : RadTx} (hs : s.Canon db) : (s.radDrop x).Canon db := by
  dsimp only [State.radDrop]
  split
  · exact hs
  · split
    exacts [hs, .ite hs.setCal.setHslot hs.setCal]

theorem State.Canon.radSeq {j : Nat} (hs : s.Canon db) : (s.radSeq j).2.Canon db :=
  .ite_snd (.snd hs.setRad) (.snd hs.setRad.ledgerCommit)

theorem State.Canon.radLaunch {x : RadTx} (hs : s.Canon db) : (s.radLaunch x).Canon db := by
  dsimp only [State.radLaunch]
  split
  · exact hs
  · split
    exacts [hs.launchFirst.copyLeft, hs]

theorem State.Canon.radCopy {j : Nat} {x : RadTx} (hs : s.Canon db) : (s.radCopy j x).Canon db := by
  dsimp only [State.radCopy]
  refine .ite (.radPhase (.setRad ?_)) (hs.setRad.radPhase.when (fun _ hu => hu.raise))
  split
  exacts [.snd hs.radLaunch, .snd hs.radLaunch.radSeq]

theorem State.Canon.radNextN {j n : Nat} (hs : s.Canon db) : (s.radNextN j n).Canon db := by
  induction n generalizing s with
  | zero => exact hs
  | succ n ih =>
    dsimp only [State.radNextN]
    split
    · exact .ite (ih hs.setRad.radDrop) (.ite (ih hs.setRad) hs.setRad.radCopy)
    · exact hs

theorem State.Canon.radNext {j : Nat} (hs : s.Canon db) : (s.radNext j).Canon db := hs.radNextN

theorem State.Canon.radFree {j : Nat} (hs : s.Canon db) : (s.radFree j).Canon db := by
  dsimp only [State.radFree]
  split
  exacts [hs.setRad.radPhase, hs.setRad.radPhase.radNext]

theorem State.Canon.radCopyEnd {j : Nat} {x : RadTx} (hs : s.Canon db) : (s.radCopyEnd j x).Canon db :=
  .ite hs.setRad.radPhase hs.radFree
theorem State.Canon.radQueue {j : Nat} {x : RadTx} (hs : s.Canon db) : (s.radQueue j x).Canon db := hs.setRad.radNext

theorem State.Canon.radSend {j : Nat} {x : RadTx} (hs : s.Canon db) : (s.radSend j x).Canon db := by
  dsimp only [State.radSend]
  split
  exacts [hs, hs.setRad.send.count.radPhase]

theorem State.Canon.lbtEnd {j : Nat} {mean : Int} (hs : s.Canon db) : (s.lbtEnd j mean).Canon db := by
  dsimp only [State.lbtEnd]
  split
  · exact .ite (.ite hs.radPhase (.ite hs.radSend hs.radCopyEnd)) (.ite hs.radPhase hs.raise.radCopyEnd)
  · exact hs

theorem State.Canon.lbtAgain {j : Nat} (hs : s.Canon db) : (s.lbtAgain j).Canon db := by
  dsimp only [State.lbtAgain]
  split
  exacts [hs.radPhase, hs]

theorem State.Canon.radioTxEnd {j : Nat} (hs : s.Canon db) : (s.radioTxEnd j).Canon db := by
  dsimp only [State.radioTxEnd]
  split
  exacts [hs.radCopyEnd, hs]

theorem State.Canon.repGapEnd {j : Nat} (hs : s.Canon db) : (s.repGapEnd j).Canon db := by
  dsimp only [State.repGapEnd]
  split
  exacts [hs.radCopy, hs.setRad, hs]

theorem State.Canon.dutyEnd {j : Nat} (hs : s.Canon db) : (s.dutyEnd j).Canon db := by
  dsimp only [State.dutyEnd]
  split
  exacts [.ite hs.radFree (.ite hs.radCopy hs), hs]

theorem State.Canon.copyDrop {j : Nat} {x : RadTx} (hs : s.Canon db) : (s.copyDrop j x).Canon db :=
  .ite hs.raise hs.raise.radDrop
theorem State.Canon.urgentDrop {j : Nat} {x : RadTx} {rest : List RadTx} (hs : s.Canon db) :
    (s.urgentDrop j x rest).Canon db :=
  hs.copyDrop.setRad.radShow
theorem State.Canon.queueDrop {j : Nat} {x : RadTx} {rest : List RadTx} (hs : s.Canon db) :
    (s.queueDrop j x rest).Canon db :=
  hs.copyDrop.setRad.radShow

theorem State.Canon.dutyDrop {j : Nat} (hs : s.Canon db) : (s.dutyDrop j).Canon db := by
  dsimp only [State.dutyDrop]
  refine .ite ?_ (.ite ?_ ?_)
  · split
    exacts [hs.urgentDrop, hs]
  · split
    exacts [hs.queueDrop, hs]
  · split
    exacts [hs.copyDrop.radCopyEnd, hs]

theorem State.Canon.hopBegin {j : Nat} (hs : s.Canon db) : (s.hopBegin j).Canon db := by
  dsimp only [State.hopBegin]
  refine .ite ?_ hs
  split
  exacts [hs.radPhase, hs.radShow]

theorem State.Canon.radUrgent {j : Nat} {x : RadTx} (hs : s.Canon db) : (s.radUrgent j x).Canon db := hs.setRad

theorem State.Canon.urgentSlot {j : Nat} (hs : s.Canon db) : (s.urgentSlot j).Canon db := by
  dsimp only [State.urgentSlot]
  split
  · exact hs
  · exact .ite hs.setRad.radDrop (.ite hs.setRad.radShow (.ite hs (.ite hs.setRad.radCopy
      (.radShow (.setRad (hs.when (fun _ hu => hu.raise)))))))

theorem State.Canon.scatterBeacon {j : Nat} (hs : s.Canon db) : (s.scatterBeacon j).Canon db :=
  .ite hs.setRad.urgentSlot hs
theorem State.Canon.radAsleep {j i : Nat} {x : RadTx} (hs : s.Canon db) : (s.radAsleep j i x).Canon db :=
  .ite hs.setRad.setF hs.raise.radDrop
theorem State.Canon.radHandle {j key : Nat} {nd : RadNode} {x : RadTx} {cancel : State → State} (hs : s.Canon db)
    (hcancel : ∀ t : State, t.Canon db → (cancel t).Canon db) : (s.radHandle j key nd x cancel).Canon db :=
  .ite hs.radQueue (.ite hs.radUrgent (.ite (.radQueue (hcancel _ hs)) hs.radAsleep))
theorem State.Canon.radRelease {j n : Nat} {e : CalEntry} (hs : s.Canon db) : (s.radRelease j n e).Canon db :=
  .ite hs (.ite hs.radDrop (hs.radHandle (fun _ hu => hu.setRadNode)))
theorem State.Canon.radWake {j i src : Nat} (hs : s.Canon db) : (s.radWake j i src).Canon db := hs.setRad.setF.radNext
theorem State.Canon.radRetire {j : Nat} {head : List Byte} {b : CmdBody} (hs : s.Canon db) :
    (State.radRetire j head b s).Canon db :=
  .ite (hs.radHandle (fun _ hu => hu)) hs
theorem State.Canon.radJoin {j : Nat} {eui : Eui} {head : List Byte} (hs : s.Canon db) :
    (s.radJoin j eui head).Canon db :=
  .ite hs (hs.setRad.joinEvent (fun _ _ hu => hu.radRetire))

theorem State.Canon.radDeliver {j type : Nat} {eui : Eui} {src : Option Nat} {head p : List Byte} (hs : s.Canon db) :
    (s.radDeliver j type eui src head p).Canon db := by
  dsimp only [State.radDeliver]
  split
  · exact hs.fieldEvent (fun _ _ hu => hu.radRetire)
  · exact hs.fieldReply (fun _ _ hv => hv.radRetire)
  · exact hs.radWake
  · exact hs.radJoin

theorem State.Canon.radPhaseSeen {j i : Nat} {head : List Byte} (hs : s.Canon db) :
    (s.radPhaseSeen j i head).Canon db :=
  hs.setRadNode

theorem State.Canon.radGhost {j type : Nat} {head : List Byte} {eui : Eui} (hs : s.Canon db) :
    (s.radGhost j type head eui).Canon db := by
  unfold State.radGhost
  extract_lets _ s₁
  have h₁ : s₁.Canon db := hs.when (fun _ hu => hu.radWake)
  split
  exacts [.ite (h₁.ghost (fun _ _ hu => hu.radRetire)) h₁.ghostSeen, h₁]

theorem State.Canon.radReceive {j type rssi : Nat} {psdu : List Byte} (hs : s.Canon db) :
    (s.radReceive j type rssi psdu).Canon db := by
  dsimp only [State.radReceive]
  refine .ite hs (.ite hs.count.raise ?_)
  split
  · exact hs.count.raise
  · split
    · split
      exacts [hs.count.setF.radGhost, hs.count.raise]
    · split
      · refine .ite hs.count.setF.radDeliver ?_
        split
        exacts [hs.count.setF.ghostSeen, hs.count.setF]
      · split
        · exact hs.count.setF.radPhaseSeen.count
        · exact hs.count.setF.radPhaseSeen.raise
        · exact .ite hs.count.setF.radPhaseSeen.setRadNode.radDeliver hs.count.setF.radPhaseSeen.setRadNode

theorem State.Canon.radBad {j : Nat} (hs : s.Canon db) : (s.radBad j).Canon db := .ite hs.count hs
theorem State.Canon.captureLost {j : Nat} {a b : Int} (hs : s.Canon db) : (s.captureLost j a b).Canon db :=
  .ite hs.raise hs

/-! ## Can -/

theorem State.Canon.setCan {c : Nat} {x : Can} (hs : s.Canon db) : (s.setCan c x).Canon db := hs.frame
theorem State.Canon.canPush {c : Nat} {f : CanFrame} {buf : Option Nat} (hs : s.Canon db) :
    (s.canPush c f buf).Canon db :=
  hs.setCan.frame
theorem State.Canon.canOwn {c : Nat} {f : CanFrame} (hs : s.Canon db) : (s.canOwn c f).Canon db :=
  hs.when (fun _ hu => hu.canPush)
theorem State.Canon.canBroadcast {c : Nat} {b : CmdBody} (hs : s.Canon db) : (s.canBroadcast c b).Canon db := hs.canOwn
theorem State.Canon.canRetire {c node sub : Nat} {b : CmdBody} (hs : s.Canon db) :
    (State.canRetire c node sub b s).Canon db :=
  hs.canOwn

theorem State.Canon.canSnapRead {c : Nat} (hs : s.Canon db) : (s.canSnapRead c).Canon db := by
  dsimp only [State.canSnapRead]
  split
  exacts [hs.answer, hs.setR.setStampR.setF.answer]

theorem State.Canon.mbIrq {c : Nat} (hs : s.Canon db) : (s.mbIrq c).Canon db := hs.setF
theorem State.Canon.mbPut {c m : Nat} {w : List Word} (hs : s.Canon db) : (s.mbPut c m w).Canon db :=
  foldS_canon (fun _ _ hu => hu.setR) hs.setR.setR.setR
theorem State.Canon.mbOverrun {c m : Nat} (hs : s.Canon db) : (s.mbOverrun c m).Canon db := hs.setF.raise
theorem State.Canon.mbArrive {c m : Nat} {w : List Word} (hs : s.Canon db) : (s.mbArrive c m w).Canon db :=
  .ite (.setF (.setCan (.ite hs.mbOverrun hs))) (.mbIrq (.setF (.mbPut (.ite hs.mbOverrun hs))))
theorem State.Canon.mbLock {c m : Nat} (hs : s.Canon db) : (s.mbLock c m).Canon db := hs.setF.answer
theorem State.Canon.mbRelease {c m : Nat} (hs : s.Canon db) : (s.mbRelease c m).Canon db :=
  .ite hs.answer.setF.mbPut.setCan.setF.setF.mbIrq hs.answer.setF.setF.setF.mbIrq

theorem State.Canon.canBuffer {c : Nat} {f : CanFrame} {stamp : Word} (hs : s.Canon db) :
    (s.canBuffer c f stamp).Canon db := by
  dsimp only [State.canBuffer]
  split
  exacts [hs.mbArrive, .ite hs.quOffer hs.raise]

theorem State.Canon.bulkAck {c n : Nat} (hs : s.Canon db) : (s.bulkAck c n).Canon db := hs.setF
theorem State.Canon.recGood {c : Nat} (hs : s.Canon db) : (s.recGood c).Canon db :=
  .ite (.ite hs.free.setF.setF hs.free.setF) hs.setF
theorem State.Canon.canEvent {c : Nat} {f : CanFrame} {stamp : Word} (hs : s.Canon db) :
    (s.canEvent c f stamp).Canon db :=
  .ite (hs.joinEvent (fun _ _ hu => hu.canRetire)) (hs.fieldEvent (fun _ _ hv => hv.canRetire))
theorem State.Canon.canReply {c : Nat} {f : CanFrame} {stamp : Word} (hs : s.Canon db) :
    (s.canReply c f stamp).Canon db :=
  hs.fieldReply (fun _ _ hu => hu.canRetire)

theorem State.Canon.canReceive {c : Nat} {f : CanFrame} {stamp : Word} (hs : s.Canon db) :
    (s.canReceive c f stamp).Canon db := by
  unfold State.canReceive
  extract_lets s₁
  have h₁ : s₁.Canon db := hs.count.recGood
  refine .ite h₁ (.ite (.ite h₁.count (.ite ?_ h₁)) h₁.canBuffer)
  split
  exacts [h₁.canEvent, h₁.canReply, h₁]

theorem State.Canon.canFieldEvent {c : Nat} {f : CanFrame} {stamp : Word} (hs : s.Canon db) :
    (s.canFieldEvent c f stamp).Canon db :=
  .ite hs.canReceive hs
theorem State.Canon.canFieldReply {c : Nat} {f : CanFrame} {stamp : Word} (hs : s.Canon db) :
    (s.canFieldReply c f stamp).Canon db :=
  .ite hs.canReceive hs
theorem State.Canon.canFirmwareFrame {c : Nat} {f : CanFrame} {stamp : Word} (hs : s.Canon db) :
    (s.canFirmwareFrame c f stamp).Canon db :=
  .ite hs.canReceive hs

theorem State.Canon.canErr {c lec : Nat} (hs : s.Canon db) : (s.canErr c lec).Canon db := by
  dsimp only [State.canErr]
  refine .raise ?_
  split
  · exact .count (.ite hs hs.setF)
  · exact .count (.ite hs hs.setF)
  · exact .count (.ite hs hs.setF)
  · exact .count (.ite hs hs.setF)
  · exact .count (.ite hs hs.setF)
  · exact .count (.ite hs hs.setF)
  · exact .ite hs hs.setF

theorem State.Canon.canFresh {c : Nat} (hs : s.Canon db) : (s.canFresh c).Canon db := hs.setF.setF.setF.setF
theorem State.Canon.canPassive {c : Nat} (hs : s.Canon db) : (s.canPassive c).Canon db := .ite hs.setF.raise hs
theorem State.Canon.canErrorFrame {c lec : Nat} {eight : Bool} (hs : s.Canon db) :
    (s.canErrorFrame c lec eight).Canon db :=
  .ite (.canPassive (.setF (.ite hs hs.canErr))) hs
theorem State.Canon.protocolException {c : Nat} (hs : s.Canon db) : (s.protocolException c).Canon db := .ite hs.count hs
theorem State.Canon.canTake {c : Nat} {x : CanTx} (hs : s.Canon db) : (s.canTake c x).Canon db := hs.setCan
theorem State.Canon.txEnd {c b status reason : Nat} (hs : s.Canon db) : (s.txEnd c b status reason).Canon db :=
  hs.setF.setF.setF.setF

theorem State.Canon.canFail {c : Nat} {x : CanTx} {reason : Nat} (hs : s.Canon db) :
    (s.canFail c x reason).Canon db := by
  unfold State.canFail
  extract_lets s₁
  have h₁ : s₁.Canon db := hs.canTake
  split
  exacts [h₁.txEnd, h₁]

theorem State.Canon.busLeave {c : Nat} (hs : s.Canon db) : (s.busLeave c).Canon db :=
  .ite hs.setF.raise.setF hs.setF.raise

theorem State.Canon.busOff {c : Nat} (hs : s.Canon db) : (s.busOff c).Canon db := by
  dsimp only [State.busOff]
  refine .ite (.busLeave ?_) hs
  split
  exacts [hs.canFail.count, hs]

theorem State.Canon.busOver {c : Nat} (hs : s.Canon db) : (s.busOver c).Canon db := .ite hs.setF.busOff hs
theorem State.Canon.canRetry {c : Nat} {x : CanTx} (hs : s.Canon db) : (s.canRetry c x).Canon db :=
  .ite hs.canFail.raise hs.setCan
theorem State.Canon.tecGood {c : Nat} (hs : s.Canon db) : (s.tecGood c).Canon db := .ite hs.setF.setF hs.setF

theorem State.Canon.canSent {c : Nat} {x : CanTx} {stamp : Word} (hs : s.Canon db) :
    (s.canSent c x stamp).Canon db := by
  unfold State.canSent
  extract_lets _ _ s₁ s₂
  have h₁ : s₁.Canon db := hs.canTake.count
  have h₂ : s₂.Canon db := by
    unfold s₂
    split
    exacts [h₁.txEnd.setR, h₁]
  exact h₂.tecGood.when (fun _ hu => hu.send)

theorem State.Canon.canTxError {c : Nat} {x : CanTx} {lec : Nat} {arb : Bool} {more : Nat} (hs : s.Canon db) :
    (s.canTxError c x lec arb more).Canon db :=
  .ite hs.canErr.setF.canPassive.busOff hs.canErr.setF.canPassive.canRetry

theorem State.Canon.canOverload {c : Nat} {bit : Bool} {more : Nat} (hs : s.Canon db) :
    (s.canOverload c bit more).Canon db := by
  unfold State.canOverload
  extract_lets s₁ _ s₂
  have h₁ : s₁.Canon db := .ite hs.canErr hs
  have h₂ : s₂.Canon db := h₁.setF.canPassive
  exact .ite h₂.busLeave h₂

theorem State.Canon.canAttempt {c : Nat} {o : CanOutcome} (hs : s.Canon db) : (s.canAttempt c o).Canon db := by
  dsimp only [State.canAttempt]
  refine .ite ?_ hs
  split
  · exact hs
  · split
    · exact hs.canSent
    · exact hs.canSent.canOverload
    · exact hs.canRetry
    · exact hs.canTxError

theorem State.Canon.txRequest {c b : Nat} (hs : s.Canon db) : (s.txRequest c b).Canon db :=
  .ite hs hs.setF.setF.setF.canPush

theorem State.Canon.txAbort {c b : Nat} (hs : s.Canon db) : (s.txAbort c b).Canon db := by
  dsimp only [State.txAbort]
  split
  exacts [hs.canFail, hs]

theorem execTxAbort_canon {c : Fin 8} {b : Fin 4} {attempt : Option CanOutcome} (hs : s.Canon db) :
    CanonNext db (execTxAbort c b attempt s) := by
  dsimp only [execTxAbort]
  refine .next (hs.viaWrite (fun _ hu => .txAbort ?_))
  split
  exacts [hu.canAttempt, hu]

theorem State.Canon.txCtlWrite {c b : Nat} {v : Word} (hs : s.Canon db) : (s.txCtlWrite c b v).Canon db :=
  .ite (.txAbort (.ite hs.wr.txRequest hs.wr)) (.ite hs.wr.txRequest hs.wr)
theorem State.Canon.abortTx {c : Nat} (hs : s.Canon db) : (s.abortTx c).Canon db :=
  foldS_canon (fun _ _ hu => hu.txAbort) hs
theorem State.Canon.canRecover {c : Nat} (hs : s.Canon db) : (s.canRecover c).Canon db := .ite hs.setF hs
theorem State.Canon.canRecovered {c : Nat} (hs : s.Canon db) : (s.canRecovered c).Canon db := .ite hs.canFresh hs

theorem State.Canon.canExpire {c : Nat} (hs : s.Canon db) : (s.canExpire c).Canon db := by
  dsimp only [State.canExpire]
  split
  exacts [hs, hs.canTake.count]

theorem State.Canon.canCmd {c v : Nat} (hs : s.Canon db) : (s.canCmd c v).Canon db := by
  dsimp only [State.canCmd]
  split
  · exact hs.canRecover
  · exact hs.canSnapNow
  · exact hs.abortTx
  · exact hs

theorem State.Canon.canLaunch {c n k : Nat} {e : CalEntry} {x : Copy} (hs : s.Canon db) :
    (s.canLaunch c n k e x).Canon db :=
  hs.canPush.launchFirst.copyLeft

/-! ## Crossbar -/

theorem State.Canon.setDrr {k : Nat} {d : Drr} (hs : s.Canon db) : (s.setDrr k d).Canon db := hs.modFab
theorem State.Canon.setPlane {k v : Nat} (hs : s.Canon db) : (s.setPlane k v).Canon db := hs.setR
theorem State.Canon.setExpect {k v : Nat} (hs : s.Canon db) : (s.setExpect k v).Canon db := hs.modFab

theorem State.Canon.frameFree {fid : Nat} (hs : s.Canon db) : (s.frameFree fid).Canon db := by
  dsimp only [State.frameFree]
  split
  exacts [hs, .ite hs.acctRelease.setFrame.cellsFree hs]

theorem State.Canon.regionsFit (hs : s.Canon db) : s.regionsFit.Canon db :=
  foldS_canon (fun _ _ hu => hu.regionFit.setReplCells) (foldS_canon (fun _ _ hv => hv.regionFit.setRsmCells) hs)
theorem State.Canon.crossPart {x : VoqPart} {f : FabFrame} {k : Nat} (hs : s.Canon db) : (s.crossPart x f k).Canon db :=
  foldS_canon (fun _ _ hu => hu.modFab) (foldS_canon (fun _ _ hv => hv.modFab) hs.modFab)

theorem State.Canon.frameCross {p : Nat} (hs : s.Canon db) : (s.frameCross p).Canon db := by
  dsimp only [State.frameCross]
  split
  · split
    · exact hs
    · split
      · exact hs
      · exact .ite hs.setDrr.modFab.modFab.count.frameFree hs.setDrr.modFab.crossPart.regionsFit
  · exact hs

theorem State.Canon.txAppend {e : TxEntry} (hs : s.Canon db) : (s.txAppend e).Canon db := .ite hs.modFab hs.modFab
theorem State.Canon.residueDropped {p : Nat} (hs : s.Canon db) : (s.residueDropped p).Canon db := hs.raise.count
theorem State.Canon.drill {e : TxEntry} (hs : s.Canon db) : (s.drill e).Canon db :=
  .ite hs.modFab (.ite hs.modFab hs.residueDropped)
theorem State.Canon.residueFlow (hs : s.Canon db) : s.residueFlow.Canon db := hs.modFab

theorem State.Canon.residueAppend {n : Nat} (hs : s.Canon db) : (s.residueAppend n).Canon db := by
  dsimp only [State.residueAppend]
  split
  exacts [.ite hs.modFab.residueFlow hs, hs]

theorem State.Canon.residueTimeout {n : Nat} (hs : s.Canon db) : (s.residueTimeout n).Canon db := by
  dsimp only [State.residueTimeout]
  split
  exacts [.ite hs hs.modFab.residueDropped.residueFlow, hs]

theorem State.Canon.residueLinkDown {n : Nat} (hs : s.Canon db) : (s.residueLinkDown n).Canon db :=
  .regionsFit (.residueFlow (foldS_canon (fun _ _ hu => hu.residueDropped) hs.modFab))
theorem State.Canon.release {x : Crossing} (hs : s.Canon db) : (s.release x).Canon db :=
  .ite hs (.ite (foldS_canon (fun _ _ hu => hu.txAppend) hs) (.ite (foldS_canon (fun _ _ hv => hv.txAppend) hs)
    (foldS_canon (fun _ _ hw => hw.drill) hs)))

theorem State.Canon.drain {p e c n : Nat} (hs : s.Canon db) : (State.drain p e c n s).Canon db := by
  induction n generalizing s with
  | zero => exact hs
  | succ n ih =>
    dsimp only [State.drain]
    split
    · exact .ite (ih hs.modFab.release.setExpect) hs
    · exact hs

theorem State.Canon.drainAll {p e c : Nat} (hs : s.Canon db) : (s.drainAll p e c).Canon db := hs.drain

theorem State.Canon.passLead {x : Crossing} (hs : s.Canon db) : (s.passLead x).Canon db := by
  dsimp only [State.passLead]
  refine .ite ?_ hs
  split
  exacts [hs.modFab, hs]

theorem State.Canon.reassemble {p e c q : Nat} (hs : s.Canon db) : (s.reassemble p e c q).Canon db := by
  dsimp only [State.reassemble]
  split
  · exact .ite hs.modFab.passLead.frameFree.raise hs.modFab.passLead.frameFree.modFab.drainAll
  · exact .ite hs.raise hs

theorem State.Canon.seqGap {p e c : Nat} (hs : s.Canon db) : (s.seqGap p e c).Canon db :=
  .ite hs.setExpect.raise.drainAll hs
theorem State.Canon.setTsQueue {p : Nat} {l : List TsEntry} (hs : s.Canon db) : (s.setTsQueue p l).Canon db := hs.frame
theorem State.Canon.txStamp {n id : Nat} (hs : s.Canon db) : (s.txStamp n id).Canon db := .ite hs.setTsQueue hs.raise
theorem State.Canon.setSending {n : Nat} {x : Option (Nat × Nat)} (hs : s.Canon db) : (s.setSending n x).Canon db :=
  hs.modFab

theorem State.Canon.cutOff {n : Nat} (hs : s.Canon db) : (s.cutOff n).Canon db := by
  dsimp only [State.cutOff]
  split
  exacts [.setSending (.ite hs.send hs), hs]

theorem State.Canon.portSent {n id len : Nat} (hs : s.Canon db) : (s.portSent n id len).Canon db :=
  .ite hs.addPair.addPair.setSending hs

theorem State.Canon.ringSent {n : Nat} {f : FabFrame} (hs : s.Canon db) : (s.ringSent n f).Canon db := by
  dsimp only [State.ringSent]
  split
  exacts [hs.ddSent, hs]

theorem State.Canon.stampSent {n : Nat} {f : FabFrame} (hs : s.Canon db) : (s.stampSent n f).Canon db := by
  dsimp only [State.stampSent]
  refine .ite hs ?_
  split
  exacts [hs.txStamp, .ite hs.free.txStamp hs]

theorem State.Canon.leave {n : Nat} {f : FabFrame} {len : Nat} {tci hsr : Option Nat} {stomped : Bool}
    (hs : s.Canon db) : (s.leave n f len tci hsr stomped).Canon db :=
  .send (.portSent (.stampSent (hs.ringSent.when (fun _ hu => hu.raise))))
theorem State.Canon.transmit {e : TxEntry} {begun : Bool} (hs : s.Canon db) : (s.transmit e begun).Canon db :=
  .ite hs.count (.ite hs.count (.ite hs (.ite hs.count hs.leave)))

theorem State.Canon.frameTransmit {n : Nat} {begun : Bool} (hs : s.Canon db) : (s.frameTransmit n begun).Canon db := by
  dsimp only [State.frameTransmit]
  split
  · exact hs
  · split
    exacts [hs, .ite hs.setDrr.modFab.transmit.regionsFit hs]

/-! ## Ind -/

theorem State.Canon.setStage {j : Nat} {x : Stage} (hs : s.Canon db) : (s.setStage j x).Canon db := hs.frame
theorem State.Canon.setElem {n k : Nat} {x : Elem} (hs : s.Canon db) : (s.setElem n k x).Canon db := hs.frame.setF
theorem State.Canon.setChain {n : Nat} {x : Chain} (hs : s.Canon db) : (s.setChain n x).Canon db := hs.frame
theorem State.Canon.setHeldBit {n g : Nat} {v : Bool} (hs : s.Canon db) : (s.setHeldBit n g v).Canon db := hs.setFBit
theorem State.Canon.pwmOut {j : Nat} (hs : s.Canon db) : (s.pwmOut j).Canon db := hs.send
theorem State.Canon.stageDark {j : Nat} (hs : s.Canon db) : (s.stageDark j).Canon db := .ite hs hs.setF.pwmOut
theorem State.Canon.aonShow (hs : s.Canon db) : s.aonShow.Canon db :=
  foldS_canon (fun _ _ hu => hu.setF.when (fun _ hv => hv.stageDark)) hs
theorem State.Canon.showFrame {n : Nat} (hs : s.Canon db) : (s.showFrame n).Canon db := .ite hs.setF hs.free.setF
theorem State.Canon.frameStart {n : Nat} {x : ChFrame} (hs : s.Canon db) : (s.frameStart n x).Canon db :=
  hs.setChain.setF.showFrame
theorem State.Canon.elemStore {n k : Nat} {b : CmdBody} {t : Stamp} (hs : s.Canon db) :
    (s.elemStore n k b t).Canon db :=
  .ite hs.setElem (.ite hs.setElem hs)

theorem State.Canon.frameBack {n : Nat} (hs : s.Canon db) : (s.frameBack n).Canon db := by
  dsimp only [State.frameBack]
  split
  exacts [hs.setChain, hs]

theorem State.Canon.blankFrame {n : Nat} (hs : s.Canon db) : (s.blankFrame n).Canon db :=
  .ite hs.frameBack.frameStart hs
theorem State.Canon.chainStop {n : Nat} (hs : s.Canon db) : (s.chainStop n).Canon db := hs.frameBack.setF
theorem State.Canon.launchFrame {n : Nat} (hs : s.Canon db) : (s.launchFrame n).Canon db :=
  .ite hs.frameBack.setQ.quEval.setChain.frameStart hs

theorem State.Canon.chainFetched {n : Nat} (hs : s.Canon db) : (s.chainFetched n).Canon db := by
  dsimp only [State.chainFetched]
  split
  · exact hs
  · refine foldS_canon (fun _ _ hu => ?_) hs
    split
    · split
      exacts [.ite hu.quOffer.setChain.launchFrame hu, hu]
    · exact hu

theorem State.Canon.refreshFrame {n : Nat} (hs : s.Canon db) : (s.refreshFrame n).Canon db :=
  .ite (.ite hs.launchFrame.frameStart hs.launchFrame) hs
theorem State.Canon.pwmStart {j vout iout : Nat} (hs : s.Canon db) : (s.pwmStart j vout iout).Canon db :=
  .pwmOut (.setF (.ite hs.setF.setF hs))

theorem State.Canon.faultEvent {i : Option Nat} {code w6 : Nat} (hs : s.Canon db) :
    (s.faultEvent i code w6).Canon db := by
  dsimp only [State.faultEvent]
  split
  exacts [hs.endpointEvent, hs]

theorem State.Canon.aonBlank {n g : Nat} (hs : s.Canon db) : (s.aonBlank n g).Canon db :=
  .ite hs (.ite hs.setHeldBit.raise.record.aonShow hs.setHeldBit.raise.record.aonShow.blankFrame)
theorem State.Canon.stageFailed {j : Nat} (hs : s.Canon db) : (s.stageFailed j).Canon db :=
  .ite hs.stageDark.record.aonBlank hs.stageDark.record
theorem State.Canon.stageSets {j : Nat} {now : Fld} {k : State → State} (hs : s.Canon db)
    (hk : ∀ t : State, t.Canon db → (k t).Canon db) : (s.stageSets j now k).Canon db :=
  .ite (hk _ hs.setF) hs
theorem State.Canon.headroom {j mv : Nat} (hs : s.Canon db) : (s.headroom j mv).Canon db :=
  hs.stageSets (fun _ hu => hu.raise.faultEvent)
theorem State.Canon.headroomClear {j : Nat} (hs : s.Canon db) : (s.headroomClear j).Canon db :=
  hs.when (fun _ hu => hu.setF)
theorem State.Canon.underCurrent {j ma : Nat} (hs : s.Canon db) : (s.underCurrent j ma).Canon db :=
  hs.stageSets (fun _ hu => hu.raise.faultEvent)
theorem State.Canon.underClear {j : Nat} (hs : s.Canon db) : (s.underClear j).Canon db := hs.when (fun _ hu => hu.setF)
theorem State.Canon.stringOpen {j : Nat} (hs : s.Canon db) : (s.stringOpen j).Canon db :=
  hs.stageSets (fun _ hu => hu.raise.faultEvent.stageFailed)
theorem State.Canon.stringShort {j : Nat} (hs : s.Canon db) : (s.stringShort j).Canon db :=
  .ite hs (hs.stageSets (fun _ hu => hu.raise.faultEvent.stageFailed))
theorem State.Canon.stagesOff (hs : s.Canon db) : s.stagesOff.Canon db :=
  foldS_canon (fun _ _ hu => hu.setStage.stageDark) hs
theorem State.Canon.edgesDark {was : State} (hs : s.Canon db) : (s.edgesDark was).Canon db :=
  .dioDrive (foldS_canon (fun _ _ hu => hu.pwmOut) hs)
theorem State.Canon.aonRelease {n g : Nat} (hs : s.Canon db) : (s.aonRelease n g).Canon db :=
  .ite hs.setHeldBit.aonShow hs
theorem State.Canon.pollReport {i code : Nat} (hs : s.Canon db) : (s.pollReport i code).Canon db := hs.endpointEvent
theorem State.Canon.elemLaunch {n : Nat} {e : CalEntry} {t : Stamp} (hs : s.Canon db) : (s.elemLaunch n e t).Canon db :=
  .ite hs.pollReport (.ite hs.elemStore.aonRelease hs.elemStore)
theorem State.Canon.stageLaunch {j : Nat} {e : CalEntry} (hs : s.Canon db) : (s.stageLaunch j e).Canon db :=
  .ite hs.pollReport (.ite (.pwmOut (.setF (.ite hs.setStage.setF.setF.aonRelease hs.setStage.setF.setF))) hs)

theorem State.Canon.elemStatus {n k st : Nat} (hs : s.Canon db) : (s.elemStatus n k st).Canon db := by
  unfold State.elemStatus
  extract_lets _ _ s₁ _ _ _ s₂ s₃
  have h₁ : s₁.Canon db := hs.setF
  have h₂ : s₂.Canon db := .ite h₁.raise.record.faultEvent h₁
  have h₃ : s₃.Canon db := .ite h₂.faultEvent h₂
  exact .ite hs (.ite (foldS_canon (fun _ _ hu => hu.setF) h₁) (.ite h₃.aonBlank h₃))

theorem State.Canon.frameShifted {n : Nat} {ret : List Word} (hs : s.Canon db) : (s.frameShifted n ret).Canon db := by
  unfold State.frameShifted
  extract_lets _ _ _ _ s₁ s₂ s₃
  have h₁ : s₁.Canon db := hs.setChain.setF
  have h₂ : s₂.Canon db := h₁.raise
  have h₃ : s₃.Canon db := .ite (foldS_canon (fun _ _ hu => hu.elemStatus) h₁)
    (.ite (foldS_canon (fun _ _ hv => hv.aonBlank) h₂) h₂)
  split
  · exact hs
  · exact .ite hs (.ite (foldS_canon (fun _ _ hu => hu.copyArrive) h₃.setChain) h₃)

theorem State.Canon.feedback {n g : Nat} (hs : s.Canon db) : (s.feedback n g).Canon db := by
  unfold State.feedback
  extract_lets _ _ _ _ _ _ _ _ _ _ s₁ s₂
  have h₁ : s₁.Canon db := hs.setF.setF.setF
  have h₂ : s₂.Canon db := foldS_canon (fun _ _ hu => hu.setElem) h₁
  exact .ite hs (.ite h₂.raise h₂)

theorem State.Canon.chainLatch {n : Nat} (hs : s.Canon db) : (s.chainLatch n).Canon db := by
  unfold State.chainLatch
  split
  · exact hs
  refine .ite ?_ hs
  extract_lets _ s₁ s₂ s₃ s₄ s₅
  have h₂ : s₂.Canon db := foldS_canon (fun _ _ hu => hu.setR) hs.setChain
  have h₄ : s₄.Canon db := foldS_canon (fun _ _ hu => hu.elemLaunch.launchFirst.copyLeft) h₂.send
  have h₅ : s₅.Canon db := .ite (foldS_canon (fun _ _ hu => hu.feedback) h₄) h₄
  exact h₅.launchFrame

/-! ## Calendar -/

theorem State.Canon.numberEntry {n : Nat} (hs : s.Canon db) : (s.numberEntry n).Canon db := by
  dsimp only [State.numberEntry]
  split
  exacts [.ite hs.ringNext.setCal.ringFrame hs, hs]

theorem State.Canon.arrive {n k : Nat} (hs : s.Canon db) : (s.arrive n k).Canon db := by
  dsimp only [State.arrive]
  split
  · split
    exacts [hs, .ite hs.copyArrive hs, hs.copyArrive]
  · exact hs

theorem State.Canon.portCopySent {n p : Nat} (hs : s.Canon db) : (s.portCopySent n p).Canon db := by
  dsimp only [State.portCopySent]
  split
  exacts [hs.modFab.transmit.regionsFit, .ite hs hs.count]

theorem State.Canon.launchPort {n k p : Nat} {e : CalEntry} {c : Copy} (hs : s.Canon db) :
    (s.launchPort n k p e c).Canon db := by
  unfold State.launchPort
  extract_lets s₁
  have h₁ : s₁.Canon db := hs.portCopySent
  refine .ite (.copyLeft ?_) (.ite (.copyLeft (.ite h₁ h₁.launchFirst)) hs.portCopySent.copyLeft)
  split
  exacts [hs.modFab.regionsFit, hs]

theorem State.Canon.copyLaunch {n k : Nat} (hs : s.Canon db) : (s.copyLaunch n k).Canon db := by
  dsimp only [State.copyLaunch]
  split
  · split
    · exact hs.chainLatch
    · refine .ite ?_ (.ite hs.copyLeft hs)
      split
      · exact hs.launchPort
      · exact hs.radRelease
      · exact hs.canLaunch
      · exact hs.stageLaunch.launchFirst.copyLeft
      · exact hs.copyLeft
  · exact hs

theorem State.Canon.nodeDelay {k j a b : Nat} (hs : s.Canon db) : (s.nodeDelay k j a b).Canon db := .ite hs.setF.setF hs
theorem State.Canon.setAcc {i n : Nat} (hs : s.Canon db) : (s.setAcc i n).Canon db := hs.frame
theorem State.Canon.opMinTake {i : Nat} (hs : s.Canon db) : (s.opMinTake i).Canon db := .ite hs.setEp.setAcc hs
theorem State.Canon.accTicks {n : Nat} (hs : s.Canon db) : (s.accTicks n).Canon db :=
  foldS_canon (fun _ _ hu => hu.setAcc.opMinTake) hs
theorem State.Canon.accClear {i : Nat} (hs : s.Canon db) : (s.accClear i).Canon db := hs.setAcc
theorem State.Canon.opMin {i : Nat} (hs : s.Canon db) : (s.opMin i).Canon db := .ite hs.setAcc.opMinTake hs

/-! ## Ports -/

theorem State.Canon.laserSet {z : Nat} {on : Bool} (hs : s.Canon db) : (s.laserSet z on).Canon db := by
  dsimp only [State.laserSet]
  split
  exacts [hs.frame, hs.frame, hs]

theorem State.Canon.setPortState {n v : Nat} (hs : s.Canon db) : (s.setPortState n v).Canon db := hs.setF.laserSet
theorem State.Canon.lasersOff (hs : s.Canon db) : s.lasersOff.Canon db := foldS_canon (fun _ _ hu => hu.laserSet) hs
theorem State.Canon.pairLinkUpdate (hs : s.Canon db) : s.pairLinkUpdate.Canon db := .ite hs.setF.setF.raise hs.setF.setF
theorem State.Canon.setReceiver {n : Nat} {x : Receiver} (hs : s.Canon db) : (s.setReceiver n x).Canon db :=
  hs.setF.setF.setF.setF
theorem State.Canon.leaveActs {n v : Nat} (hs : s.Canon db) : (s.leaveActs n v).Canon db :=
  .pairLinkUpdate (.residueLinkDown (.ite hs.setPortState.cutOff hs.setPortState.cutOff.fdbFlush))
theorem State.Canon.leaveUp {n v : Nat} (hs : s.Canon db) : (s.leaveUp n v).Canon db := hs.leaveActs.raise
theorem State.Canon.portTo {n v : Nat} (hs : s.Canon db) : (s.portTo n v).Canon db := .ite hs.leaveUp hs.setPortState
theorem State.Canon.linkUp {n : Nat} (hs : s.Canon db) : (s.linkUp n).Canon db :=
  .ite hs.setPortState.raise.pairLinkUpdate hs
theorem State.Canon.linkDown {n : Nat} {x : Receiver} (hs : s.Canon db) : (s.linkDown n x).Canon db :=
  .ite hs.setReceiver.leaveUp hs
theorem State.Canon.receiverAligned {n : Nat} {x : Receiver} (hs : s.Canon db) : (s.receiverAligned n x).Canon db :=
  .ite hs.linkDown hs.setReceiver
theorem State.Canon.portCfgApplied {n : Nat} {old : Word} (hs : s.Canon db) : (s.portCfgApplied n old).Canon db :=
  .pairLinkUpdate (.ite hs (.ite (.ite hs hs.portTo) (.ite hs.setPortState (.ite hs.portTo hs))))
theorem State.Canon.portFail {n : Nat} (hs : s.Canon db) : (s.portFail n).Canon db :=
  .ite hs (.raise (.ite hs.leaveActs hs.setPortState))
theorem State.Canon.plotPortsOff {p : Nat} (hs : s.Canon db) : (s.plotPortsOff p).Canon db :=
  foldS_canon (fun _ _ hu => .ite hu hu.portTo) hs
theorem State.Canon.plotPortsOn {p : Nat} (hs : s.Canon db) : (s.plotPortsOn p).Canon db :=
  foldS_canon (fun _ _ hu => .ite hu.setPortState hu) hs
theorem State.Canon.optics {n bias pwr temp : Nat} (hs : s.Canon db) : (s.optics n bias pwr temp).Canon db :=
  .ite hs.setF.setF.setF.raise hs.setF.setF.setF
theorem State.Canon.degradeWindow {n corr uncorr sym : Nat} (hs : s.Canon db) :
    (s.degradeWindow n corr uncorr sym).Canon db :=
  .ite hs.addPair.addPair.addPair.raise hs.addPair.addPair.addPair
theorem State.Canon.speedMeasure {p k n : Nat} (hs : s.Canon db) : (s.speedMeasure p k n).Canon db :=
  .ite (.setF (.setF (.ite_snd hs.free (.snd hs)))) hs
theorem State.Canon.monitorOff {k : Nat} (hs : s.Canon db) : (s.monitorOff k).Canon db :=
  foldS_canon (fun _ _ hu => hu.setF) hs
theorem State.Canon.setVcore {v : Nat} (hs : s.Canon db) : (s.setVcore v).Canon db :=
  .setF (.setF (.setF (.modFab (.ite_snd (.snd hs) hs.free))))

theorem State.Canon.vloop (hs : s.Canon db) : s.vloop.Canon db := by
  unfold State.vloop
  extract_lets _ _ r₁ _ s₂ _ _ _ _ _ _ s₃ _ _ s₄ _ s₅
  have h₁ : r₁.2.Canon db := .ite_snd (.snd hs) hs.free
  have h₂ : s₂.Canon db := h₁.setF.setF.setF
  have h₃ : s₃.Canon db := h₂.modFab.setVcore
  have h₄ : s₄.Canon db := h₃.setF.setF
  have h₅ : s₅.Canon db := .ite h₄.raise.record h₄
  exact .ite (.ite h₅.raise.record h₅) hs

/-! ## Rec -/

theorem State.Canon.setRbState {b : Bool} {v : Nat} (hs : s.Canon db) : (s.setRbState b v).Canon db :=
  .ite hs.setF hs.setF
theorem State.Canon.setRbRecs {b : Bool} {l : List RecordE} (hs : s.Canon db) : (s.setRbRecs b l).Canon db :=
  .ite hs.frame hs.frame
theorem State.Canon.rbRefusing (hs : s.Canon db) : s.rbRefusing.Canon db := hs.setF
theorem State.Canon.rbTrigger {b : Bool} (hs : s.Canon db) : (s.rbTrigger b).Canon db :=
  .ite hs (.ite hs.frame hs.setRbState)
theorem State.Canon.seqReserve (hs : s.Canon db) : s.seqReserve.Canon db := .ite hs.frame.ledgerCommit hs
theorem State.Canon.faultSummary {r : RecordE} (hs : s.Canon db) : (s.faultSummary r).Canon db :=
  .ite hs.frame.ledgerWait hs

theorem State.Canon.recAppend {b : Bool} {o : Offer} (hs : s.Canon db) : (s.recAppend b o).Canon db := by
  unfold State.recAppend
  extract_lets s₁ _ s₂ s₃ s₄ _ s₅
  have h₁ : s₁.Canon db := hs.seqReserve
  have h₂ : s₂.Canon db := h₁.setRbRecs
  have h₃ : s₃.Canon db := h₂.setPairR
  have h₄ : s₄.Canon db := .ite h₃.event h₃
  have h₅ : s₅.Canon db := h₄.frame.faultSummary
  exact .ite h₅.rbTrigger h₅

theorem State.Canon.rbStart {b : Bool} (hs : s.Canon db) : (s.rbStart b).Canon db :=
  .ite hs.setRbState hs.setRbState.setF.recAppend
theorem State.Canon.recRefuse (hs : s.Canon db) : s.recRefuse.Canon db :=
  .count (.count (.raise (.frame (.ite hs.frame hs))))

theorem State.Canon.recToEmpty {o : Offer} (hs : s.Canon db) : (s.recToEmpty o).Canon db := by
  dsimp only [State.recToEmpty]
  split
  exacts [.ite hs.rbStart.recAppend hs.rbStart.recRefuse, hs.recRefuse]

theorem State.Canon.recTake {o : Offer} (hs : s.Canon db) : (s.recTake o).Canon db := by
  dsimp only [State.recTake]
  refine .ite hs.frame (.rbRefusing ?_)
  split
  exacts [.ite hs.recAppend hs.frame.setRbState.rbTrigger.recToEmpty, hs.recToEmpty]

theorem State.Canon.recAccept (hs : s.Canon db) : s.recAccept.Canon db := by
  dsimp only [State.recAccept]
  refine .ite ?_ hs
  split
  exacts [hs, hs.frame.recTake]

theorem State.Canon.recAcceptAll (hs : s.Canon db) : s.recAcceptAll.Canon db :=
  foldS_canon (fun _ _ hu => hu.recAccept) hs

theorem State.Canon.logErase {b : Nat} (hs : s.Canon db) : (s.logErase b).Canon db := by
  dsimp only [State.logErase]
  split
  exacts [hs.frame.setPairR.raise, hs.frame]

theorem State.Canon.logWrite {l : List RecordE} (hs : s.Canon db) : (s.logWrite l).Canon db := by
  dsimp only [State.logWrite]
  split
  · exact .setPairR (.frame (.ite hs hs.logErase.frame))
  · exact .frame (.ite hs hs.logErase.frame)

theorem State.Canon.flushDone (hs : s.Canon db) : s.flushDone.Canon db := by
  dsimp only [State.flushDone]
  split
  · exact hs
  · exact .rbRefusing (.ite (.rbStart (.ite hs.logWrite.setRbRecs.setRbState.setRbState
      (.ite hs.logWrite.setRbRecs.setRbState.frame.rbTrigger hs.logWrite.setRbRecs.setRbState)))
      (.ite hs.logWrite.setRbRecs.setRbState.setRbState (.ite hs.logWrite.setRbRecs.setRbState.frame.rbTrigger
      hs.logWrite.setRbRecs.setRbState)))

theorem State.Canon.recFlush (hs : s.Canon db) : s.recFlush.Canon db := by
  dsimp only [State.recFlush]
  split
  exacts [hs.rbTrigger.rbRefusing, hs]

theorem State.Canon.recClose (hs : s.Canon db) : s.recClose.Canon db := by
  dsimp only [State.recClose]
  refine .frame (foldS_canon (fun _ _ hu => .ite hu hu.logWrite.setRbRecs.setRbState) ?_)
  split
  exacts [.ite hs hs.logWrite.setRbRecs.setRbState, hs]

theorem State.Canon.logGap {bad : Nat} (hs : s.Canon db) : (s.logGap bad).Canon db := by
  dsimp only [State.logGap]
  split
  exacts [hs, hs.frame.setF.raise.record]

theorem State.Canon.logRewrite {b : Nat} {bad : List Nat} (hs : s.Canon db) : (s.logRewrite b bad).Canon db :=
  foldS_canon (fun _ _ hu => .ite hu.logGap hu) hs
theorem State.Canon.selWords {l : List Byte} (hs : s.Canon db) : (s.selWords l).Canon db :=
  foldS_canon (fun _ _ hu => hu.setR) hs

theorem State.Canon.recSelect {bad : Option (BitVec 64)} (hs : s.Canon db) : (s.recSelect bad).Canon db := by
  dsimp only [State.recSelect]
  refine .ite (.setF ?_) (.ite (.setF ?_) ?_)
  · split
    exacts [hs.logGap, hs]
  · split
    exacts [hs.logGap, hs]
  · split
    · refine .setF (.selWords ?_)
      split
      exacts [hs.logGap, hs]
    · refine .setF ?_
      split
      exacts [hs.logGap, hs]

theorem State.Canon.toSdram {a : Nat} {l : List Byte} (hs : s.Canon db) : (s.toSdram a l).Canon db := hs.frame

theorem State.Canon.recCopy {bad : Option (BitVec 64)} (hs : s.Canon db) : (s.recCopy bad).Canon db := by
  dsimp only [State.recCopy]
  refine .ite hs (.setF (.frame (.toSdram ?_)))
  split
  exacts [hs.logGap, hs]

theorem State.Canon.copyDone (hs : s.Canon db) : s.copyDone.Canon db := by
  dsimp only [State.copyDone]
  split
  exacts [hs, hs.frame.setPairR.setF.setF.raise]

theorem State.Canon.appRecord {v : Word} (hs : s.Canon db) : (s.appRecord v).Canon db := .ite hs.raise hs.record
theorem State.Canon.ledgerWarned (hs : s.Canon db) : s.ledgerWarned.Canon db :=
  .frame (foldS_canon (fun _ _ hu => hu.ledgerDone) hs)
theorem State.Canon.bankErr {b : Nat} (hs : s.Canon db) : (s.bankErr b).Canon db := .ite hs.setF.raise hs.setF.raise
theorem State.Canon.ledgerResolve {err : Nat} (hs : s.Canon db) : (s.ledgerResolve err).Canon db :=
  foldS_canon (fun _ _ hu => hu.bankErr) (foldS_canon (fun _ _ hv => hv.raise) hs.frame)
theorem State.Canon.ledgerRead {err : Nat} (hs : s.Canon db) : (s.ledgerRead err).Canon db :=
  .answer (.setF (foldS_canon (fun _ _ hu => hu.bankErr) hs))
theorem State.Canon.opMsSave (hs : s.Canon db) : s.opMsSave.Canon db := hs.frame.ledgerWait.ledgerWait

theorem State.Canon.recCmd {v : Nat} (hs : s.Canon db) : (s.recCmd v).Canon db := by
  dsimp only [State.recCmd]
  split
  · exact hs.recFlush
  · exact hs.recSelect
  · exact hs.recCopy
  · exact hs

/-! ## Harrow -/

theorem State.Canon.harrowRunning (hs : s.Canon db) : s.harrowRunning.Canon db := hs.setF
theorem State.Canon.setPlotState {p v : Nat} (hs : s.Canon db) : (s.setPlotState p v).Canon db := hs.setR
theorem State.Canon.plotsUpdate (hs : s.Canon db) : s.plotsUpdate.Canon db :=
  foldS_canon (fun _ _ hu => .ite (.ite hu hu.modSpares.setPlotState.plotPortsOn)
    (.ite hu (.ite hu.modSpares.setPlotState.plotPortsOff (.ite hu hu.setPlotState)))) hs
theorem State.Canon.installEnd (hs : s.Canon db) : s.installEnd.Canon db := .ite hs.modSpares.plotsUpdate hs
theorem State.Canon.sparesLow {cls pool : Nat} (hs : s.Canon db) : (s.sparesLow cls pool).Canon db := hs.raise.record
theorem State.Canon.sparesOut {cls pool : Nat} (hs : s.Canon db) : (s.sparesOut cls pool).Canon db := hs.raise.record
theorem State.Canon.planeCounts (hs : s.Canon db) : s.planeCounts.Canon db := hs.setF.setF
theorem State.Canon.feCount (hs : s.Canon db) : s.feCount.Canon db := hs.setF

theorem State.Canon.resend (hs : s.Canon db) : s.resend.Canon db := by
  dsimp only [State.resend]
  refine foldS_canon (fun _ _ hu => .ite ?_ hu) hs
  split
  exacts [hu, hu.modFab]

theorem State.Canon.stompOn {k : Nat} {begun : List (Nat × Nat × Nat)} (hs : s.Canon db) :
    (s.stompOn k begun).Canon db := by
  dsimp only [State.stompOn]
  refine foldS_canon (fun _ _ hu => ?_) hs
  split
  exacts [hu, hu.leave.modFab]

theorem State.Canon.planeOut {k : Nat} {begun : List (Nat × Nat × Nat)} (hs : s.Canon db) :
    (s.planeOut k begun).Canon db :=
  hs.stompOn.setPlane.monitorOff.modSpares.planeCounts.resend.plotsUpdate
theorem State.Canon.planeJoin {k : Nat} (hs : s.Canon db) : (s.planeJoin k).Canon db :=
  .ite hs.setPlane.modSpares.planeCounts.resend.plotsUpdate hs
theorem State.Canon.planesStart (hs : s.Canon db) : s.planesStart.Canon db :=
  .planeCounts (foldS_canon (fun _ _ hu => .ite hu.setPlane hu) hs)
theorem State.Canon.engRetire {p : Nat} (hs : s.Canon db) : (s.engRetire p).Canon db :=
  hs.setEngRole.setEngState.setF.setEng
theorem State.Canon.engMove {l q code pc : Nat} (hs : s.Canon db) : (s.engMove l q code pc).Canon db :=
  .ite hs.setPhys.setF.setEngRole.engRestart.restartEvent hs.setPhys.setF.setEngRole.setEng.setEngState
theorem State.Canon.stopEngine {l : Nat} (hs : s.Canon db) : (s.stopEngine l).Canon db :=
  hs.engDropAll.setPhys.frame.raise.setF

theorem State.Canon.engLasting {p : Nat} (hs : s.Canon db) : (s.engLasting p).2.Canon db := by
  unfold State.engLasting
  extract_lets _ _ _ s₁ s₂
  have h₁ : s₁.Canon db := hs.engRetire
  have h₂ : s₂.Canon db := h₁.setPhys.sparesOut
  split
  · exact .snd (.ite h₁.engMove.feCount.sparesLow h₁.engMove.feCount)
  · split
    exacts [.snd h₂, .ite_snd (.snd h₂.stopEngine) (.snd h₂.stopEngine.engMove)]

theorem State.Canon.outcome {cls el out : Nat} (hs : s.Canon db) : (s.outcome cls el out).Canon db :=
  hs.setF.setF.setF.record
theorem State.Canon.transient {cls el : Nat} (hs : s.Canon db) : (s.transient cls el).Canon db :=
  hs.modSpares.raise.outcome
theorem State.Canon.bankRemap {p e old b : Nat} (hs : s.Canon db) : (s.bankRemap p e old b).Canon db :=
  hs.modSpares.bankEmptied
theorem State.Canon.bankGone {p e : Nat} (hs : s.Canon db) : (s.bankGone p e).Canon db := hs.modSpares.setFreed.setF

theorem State.Canon.bankLasting {el : Nat} (hs : s.Canon db) : (s.bankLasting el).2.Canon db := by
  dsimp only [State.bankLasting]
  split
  · exact .snd hs
  · exact .snd hs.bankRemap.setFBit.sparesLow
  · exact .snd (.plotsUpdate (.sparesOut (.ite hs.bankGone.raise hs.bankGone)))

theorem State.Canon.laserLasting {el : Nat} (hs : s.Canon db) : (s.laserLasting el).2.Canon db :=
  .ite_snd (.snd hs.laserSet.setFBit.raise.setF.record.laserSet.modSpares.sparesLow) (.snd hs.sparesOut.portFail)
theorem State.Canon.flashMove {b q : Nat} (hs : s.Canon db) : (s.flashMove b q).Canon db := hs.modSpares
theorem State.Canon.logGive {b : Nat} (hs : s.Canon db) : (s.logGive b).Canon db :=
  .ite hs.logErase.modSpares hs.logErase.modSpares.flashMove

theorem State.Canon.regionStuck {r : FlashRegion} (hs : s.Canon db) : (s.regionStuck r).Canon db := by
  dsimp only [State.regionStuck]
  split
  exacts [.ledgerCommit (.ite hs.modSpares.frame hs.modSpares.frame), hs.modSpares]

theorem State.Canon.flashLasting {q : Nat} (hs : s.Canon db) : (s.flashLasting q).2.Canon db := by
  dsimp only [State.flashLasting]
  split
  · exact .snd (.ite hs.setF.flashMove.setF.sparesLow hs.setF.flashMove.setF)
  · exact .snd (.ite hs.setF.sparesOut.logGive hs.setF.sparesOut.regionStuck)
  · exact .snd hs.setF

theorem State.Canon.phaseLasting (hs : s.Canon db) : s.phaseLasting.2.Canon db := by
  dsimp only [State.phaseLasting]
  split
  · exact .snd hs.setF.sparesOut.plotsUpdate
  · exact .snd (.ite hs.modSpares.setF.sparesLow hs.modSpares.setF)

theorem State.Canon.planeLasting {k : Nat} (hs : s.Canon db) : (s.planeLasting k).2.Canon db := by
  dsimp only [State.planeLasting]
  refine .ite_snd ?_ (.snd (.ite hs.setPlane.planeCounts.sparesLow hs.setPlane.planeCounts))
  split
  · exact .snd (.ite hs.setPlane.planeCounts.modSpares.planeJoin.sparesLow hs.setPlane.planeCounts.modSpares.planeJoin)
  · exact .snd hs.setPlane.planeCounts.sparesOut.plotsUpdate

theorem State.Canon.lasting {cls el : Nat} (hs : s.Canon db) : (s.lasting cls el).Canon db := by
  dsimp only [State.lasting]
  refine .outcome ?_
  split
  · exact hs.modSpares.ledgerCommit.raise.planeLasting
  · exact hs.modSpares.ledgerCommit.raise.bankLasting
  · exact hs.modSpares.ledgerCommit.raise.laserLasting
  · exact hs.modSpares.ledgerCommit.raise.engLasting
  · exact hs.modSpares.ledgerCommit.raise.flashLasting
  · exact hs.modSpares.ledgerCommit.raise.phaseLasting

theorem State.Canon.fallowLasting {cls el : Nat} (hs : s.Canon db) : (s.fallowLasting cls el).Canon db := by
  unfold State.fallowLasting
  extract_lets s₁ s₂ s₃ _ s₄ s₅ s₆ s₇ r₈
  have h₁ : s₁.Canon db := hs.modSpares.ledgerCommit.raise
  have h₂ : s₂.Canon db := h₁.setPlane.planeCounts
  have h₃ : s₃.Canon db := h₁.engRetire.feCount
  have h₄ : s₄.Canon db := h₁.setF.setF
  have h₅ : s₅.Canon db := h₁.modSpares
  have h₆ : s₆.Canon db := h₅.setF
  have h₇ : s₇.Canon db := by
    unfold s₇
    split
    · exact .ite h₂.sparesLow h₂
    · exact h₁.setFBit.sparesLow
    · exact .ite h₃.sparesLow h₃
    · exact .ite h₄.sparesLow h₄
    · exact .ite h₆.sparesLow h₆
  have h₈ : r₈.2.Canon db := h₇.free
  exact h₈.outcome

theorem State.Canon.countError {cls el : Nat} (hs : s.Canon db) : (s.countError cls el).Canon db := hs.modSpares
theorem State.Canon.harrow {cls el : Nat} (hs : s.Canon db) : (s.harrow cls el).Canon db :=
  .ite hs (.ite hs.countError (.ite (.ite hs.fallowLasting hs.lasting) hs.modSpares.harrowRunning))
theorem State.Canon.planeError {k : Nat} {begun : List (Nat × Nat × Nat)} (hs : s.Canon db) :
    (s.planeError k begun).Canon db :=
  .ite hs.planeOut.harrow (.ite hs.countError hs)

theorem State.Canon.cellHit {x : CellHit} (hs : s.Canon db) : (s.cellHit x).Canon db := by
  dsimp only [State.cellHit]
  split
  · split
    exacts [hs.setFrame, hs]
  · exact hs.modFab

theorem State.Canon.cellError {el : Nat} {uncorr : Bool} {hit : Option CellHit} (hs : s.Canon db) :
    (s.cellError el uncorr hit).Canon db := by
  unfold State.cellError
  extract_lets s₁ _ _ s₂
  have h₁ : s₁.Canon db := by
    unfold s₁
    split
    exacts [hs.cellHit, hs]
  have h₂ : s₂.Canon db := hs.modSpares
  exact .ite h₁.harrow (.ite h₂.harrow h₂)

theorem State.Canon.feCorrected {p : Nat} (hs : s.Canon db) : (s.feCorrected p).Canon db := hs.setF
theorem State.Canon.hwException {p code : Nat} {addr : Word} (hs : s.Canon db) : (s.hwException p code addr).Canon db :=
  .ite hs.excRecord.raise.modEng.setEngState.setEngRole.harrow (.ite hs.countError hs)
theorem State.Canon.fallowHarrow (hs : s.Canon db) : s.fallowHarrow.Canon db :=
  foldS_canon (fun _ _ hu => .ite hu.setPlane (.ite hu.setEngRole hu)) hs.modSpares.harrowRunning
theorem State.Canon.engBack {p : Nat} (hs : s.Canon db) : (s.engBack p).Canon db :=
  .ite hs.setEngRole.engRestart.restartEvent hs.setEngRole.setEng.setEngState
theorem State.Canon.planeBack {k : Nat} (hs : s.Canon db) : (s.planeBack k).Canon db :=
  .ite hs.setPlane.modSpares.planeCounts.resend.plotsUpdate hs.setPlane.planeCounts.ledgerCommit
theorem State.Canon.fallowBack {cls el : Nat} (hs : s.Canon db) : (s.fallowBack cls el).Canon db :=
  .ite hs.setPlane (.ite hs.setEngRole hs)

theorem State.Canon.rebuildCell {p i : Nat} (hs : s.Canon db) : (s.rebuildCell p i).Canon db := by
  unfold State.rebuildCell
  extract_lets _ _ s₁ s₂ s₃
  have h₁ : s₁.Canon db := .ite hs hs.setFreed
  have h₂ : s₂.Canon db := h₁.setFreed
  have h₃ : s₃.Canon db := .ite h₁ (.ite h₂.setUnlisted h₂)
  exact h₃.setCellTag

theorem State.Canon.rebuild {p : Nat} (hs : s.Canon db) : (s.rebuild p).Canon db :=
  foldS_canon (fun _ _ hu => hu.rebuildCell) hs
theorem State.Canon.queueDone {p : Nat} (hs : s.Canon db) : (s.queueDone p).Canon db := hs.rebuild.modSpares.plotsUpdate

theorem State.Canon.flashBad {q : Nat} {bad : List Nat} (hs : s.Canon db) : (s.flashBad q bad).Canon db := by
  dsimp only [State.flashBad]
  split
  exacts [hs.logRewrite, hs]

theorem State.Canon.passDone {cls el : Nat} {lost : Option (List Nat)} (hs : s.Canon db) :
    (s.passDone cls el lost).Canon db := by
  dsimp only [State.passDone]
  split
  · exact hs
  · refine .ite hs.modSpares.harrowRunning.queueDone (.ite (.ite hs.modSpares.harrowRunning.fallowBack.transient
      hs.modSpares.harrowRunning.fallowLasting) ?_)
    split
    · exact .transient (.ite hs.modSpares.harrowRunning.planeBack (.ite hs.modSpares.harrowRunning.engBack
        hs.modSpares.harrowRunning))
    · exact .lasting (.ite hs.modSpares.harrowRunning.flashBad hs.modSpares.harrowRunning)

theorem State.Canon.setSuspects {p : Nat} {l : List (Nat × Nat)} (hs : s.Canon db) : (s.setSuspects p l).Canon db :=
  hs.modFab.setF

theorem State.Canon.modListed {p : Nat} {o : CellOwner} {f : List Nat → List Nat} (hs : s.Canon db) :
    (s.modListed p o f).Canon db := by
  dsimp only [State.modListed]
  split
  · exact hs.setFreed
  · split
    exacts [hs.setFrame, hs]
  · exact hs.setReplCells
  · exact hs.setRsmCells

theorem State.Canon.upset {p : Nat} {x : Upset} (hs : s.Canon db) : (s.upset p x).Canon db := by
  dsimp only [State.upset]
  split
  · exact hs.setCellTag
  · exact .ite (.setUnlisted (foldS_canon (fun _ _ hu => hu.modListed) hs)) (foldS_canon (fun _ _ hv => hv.modListed)
      hs)
  · exact hs.modListed

theorem State.Canon.rowFailed {el : Nat} (hs : s.Canon db) : (s.rowFailed el).Canon db :=
  .ite hs.modSpares.harrowRunning.raise.outcome hs.modSpares.harrowRunning.lasting
theorem State.Canon.judgeOne {p : Nat} {clash cells : List Nat} (hs : s.Canon db) :
    (s.judgeOne p clash cells).Canon db :=
  .ite hs.transient (foldS_canon (fun _ _ hu => hu.rowFailed) hs)
theorem State.Canon.judge {p : Nat} {clash : List Nat} (hs : s.Canon db) : (s.judge p clash).Canon db :=
  foldS_canon (fun _ _ hu => hu.judgeOne) hs.modSpares

theorem State.Canon.leak {p i : Nat} (hs : s.Canon db) : (s.leak p i).Canon db := by
  unfold State.leak
  extract_lets s₁ s₂
  have h₁ : s₁.Canon db := hs.raise.count
  have h₂ : s₂.Canon db := .ite h₁.setCellTag h₁.cellFree
  exact .ite h₂.setF h₂.setF.raise.harrow

theorem State.Canon.mismatch {p : Nat} {clash : List Nat} {deficit : Bool} (hs : s.Canon db) :
    (s.mismatch p clash deficit).Canon db :=
  .harrow (.modSpares (.ite (.record (.raise (.free (foldS_canon (fun _ _ hu => hu.raise.record) hs))))
    (foldS_canon (fun _ _ hv => hv.raise.record) hs)))

theorem State.Canon.gleanerPass {p : Nat} {upsets : List Upset} (hs : s.Canon db) :
    (s.gleanerPass p upsets).Canon db := by
  unfold State.gleanerPass
  extract_lets s₁ _ s₂ _ _ _ s₃ _ s₄ s₅
  have h₁ : s₁.Canon db := foldS_canon (fun _ _ hu => hu.upset) hs
  have h₂ : s₂.Canon db := h₁.setF
  have h₃ : s₃.Canon db := h₂.judge
  have h₄ : s₄.Canon db := foldS_canon (fun _ _ hu => hu.leak) h₃
  have h₅ : s₅.Canon db := h₄.setSuspects
  exact .ite h₅.mismatch h₅

/-! ## Meter -/

theorem State.Canon.modMtr {f : Mtr → Mtr} (hs : s.Canon db) : (s.modMtr f).Canon db := hs.frame
theorem State.Canon.setZc {v : Nat} {z : Zc} (hs : s.Canon db) : (s.setZc v z).Canon db := hs.modMtr
theorem State.Canon.zcAccept {v : Nat} {c : Cand} (hs : s.Canon db) : (s.zcAccept v c).Canon db :=
  .ite hs.setZc.setFBit.record hs.setZc
theorem State.Canon.zcSample {v : Nat} {ya : Int} {ta : Nat} {y : Int} (hs : s.Canon db) :
    (s.zcSample v ya ta y).Canon db :=
  .ite hs.setZc (.ite hs.zcAccept hs.setZc)
theorem State.Canon.totalsKeep (hs : s.Canon db) : s.totalsKeep.Canon db := hs.frame
theorem State.Canon.totalsCommit (hs : s.Canon db) : s.totalsCommit.Canon db := hs.frame.ledgerWait.modMtr.raise
theorem State.Canon.totalsSave (hs : s.Canon db) : s.totalsSave.Canon db := .ite hs (.ite hs.totalsKeep hs.totalsCommit)
theorem State.Canon.totalsLoad (hs : s.Canon db) : s.totalsLoad.Canon db := foldS_canon (fun _ _ hu => hu.wr.wr) hs
theorem State.Canon.totalsClear (hs : s.Canon db) : s.totalsClear.Canon db :=
  .ite (.totalsCommit (.modMtr (foldS_canon (fun _ _ hu => hu.wr.wr) hs))) hs.raise

theorem State.Canon.mtrCmd {v : Nat} (hs : s.Canon db) : (s.mtrCmd v).Canon db := by
  dsimp only [State.mtrCmd]
  split
  exacts [hs.totalsSave, hs.totalsClear, hs]

theorem State.Canon.collapse {b : Nat} (hs : s.Canon db) : (s.collapse b).Canon db :=
  .ite hs.setFBit.raise.record.totalsSave hs
theorem State.Canon.noMainsRaise {v : Nat} (hs : s.Canon db) : (s.noMainsRaise v).Canon db :=
  .ite hs.setFBit.raise.setZc.modMtr.record hs
theorem State.Canon.capHalf {i v : Nat} (hs : s.Canon db) : (s.capHalf i v).Canon db := hs.setF
theorem State.Canon.capWrite {part : List (List Int)} (hs : s.Canon db) : (s.capWrite part).Canon db :=
  foldS_canon (fun _ _ hu => .setF (foldS_canon (fun _ _ hv => hv.capHalf) hu)) hs

theorem State.Canon.capEnergy {all : Bool} (hs : s.Canon db) : (s.capEnergy all).Canon db := by
  dsimp only [State.capEnergy]
  split
  exacts [hs, hs.modMtr]

theorem State.Canon.capEnd {result : Nat} (hs : s.Canon db) : (s.capEnd result).Canon db := by
  unfold State.capEnd
  extract_lets s₁
  have h₁ : s₁.Canon db := hs.capEnergy
  split
  · exact h₁
  · exact .raise (.modMtr (.setF (.setF (foldS_canon (fun _ _ hu => hu.setPairR)
      (.setF (.setStampR (.ite h₁ h₁.capWrite)))))))

theorem State.Canon.capArm {c : Cap} (hs : s.Canon db) : (s.capArm c).Canon db := hs.setF.setF.setF.modMtr
theorem State.Canon.capCmdArm (hs : s.Canon db) : s.capCmdArm.Canon db :=
  .ite hs (.ite hs.setF (.ite hs.capArm.capEnd hs.capArm))
theorem State.Canon.capCmdSurge (hs : s.Canon db) : s.capCmdSurge.Canon db := .ite hs hs.capArm
theorem State.Canon.capAbort (hs : s.Canon db) : s.capAbort.Canon db := hs.capEnd

theorem State.Canon.capCmd {v : Nat} (hs : s.Canon db) : (s.capCmd v).Canon db := by
  dsimp only [State.capCmd]
  split
  · exact hs.capCmdArm
  · exact hs.capCmdSurge
  · exact hs.capAbort
  · exact hs

theorem State.Canon.captureStart (hs : s.Canon db) : s.captureStart.Canon db := by
  dsimp only [State.captureStart]
  split
  exacts [hs, .ite (.ite hs.capEnd hs.setF) hs]

theorem State.Canon.capTake {i : Nat} (hs : s.Canon db) : (s.capTake i).Canon db := by
  dsimp only [State.capTake]
  split
  exacts [.ite (.ite hs.modMtr (.ite hs.capWrite.modMtr hs.modMtr)) hs, hs]

theorem State.Canon.captureStop (hs : s.Canon db) : s.captureStop.Canon db := by
  dsimp only [State.captureStop]
  split
  exacts [hs, .ite hs.capEnd (.ite hs.capEnd (.ite hs.capEnd hs))]

theorem State.Canon.capTrigger {ch : Nat} (hs : s.Canon db) : (s.capTrigger ch).Canon db := by
  dsimp only [State.capTrigger]
  split
  · exact hs
  · exact .ite (.ite hs.modMtr.capEnd (foldS_canon (fun _ _ hu => hu.capTake) hs.modMtr.setF)) hs

theorem State.Canon.setTrans {c : Nat} {x : Option Trans} (hs : s.Canon db) : (s.setTrans c x).Canon db :=
  .ite hs.modMtr.setFBit hs.modMtr

theorem State.Canon.surgeSample {c mag : Nat} {clip : Bool} (hs : s.Canon db) :
    (s.surgeSample c mag clip).Canon db := by
  dsimp only [State.surgeSample]
  split
  exacts [hs.setTrans, .ite hs.setTrans.modMtr.capTrigger hs]

theorem State.Canon.surge {c : Nat} (hs : s.Canon db) : (s.surge c).Canon db := by
  dsimp only [State.surge]
  split
  exacts [hs, .ite hs.setTrans.raise.record hs]

theorem State.Canon.meterSample {raw : List Int} (hs : s.Canon db) : (s.meterSample raw).Canon db := by
  unfold State.meterSample
  extract_lets prev _ s₁ _ s₂ s₃ s₄ s₅ s₆
  have h₂ : s₂.Canon db := hs.modMtr.modMtr
  have h₃ : s₃.Canon db := .ite h₂ h₂.raise
  have h₄ : s₄.Canon db := by
    refine foldS_canon (fun v u hu => ?_) h₃
    extract_lets y _ w
    have hw : w.Canon db := by
      unfold w prev
      split
      exacts [hu.zcSample, hu.setZc]
    exact .ite hw.modMtr hw
  have h₅ : s₅.Canon db := foldS_canon (fun _ _ hu => hu.surgeSample) h₄
  have h₆ : s₆.Canon db := foldS_canon (fun _ _ hu => .ite hu.setFBit hu) h₅
  exact .ite h₆.captureStart.capTake.capEnergy hs

theorem State.Canon.addEnergy {a n : Nat} (hs : s.Canon db) : (s.addEnergy a n).Canon db := hs.modMtr.setPairR
theorem State.Canon.slotsAdd {f q n : Nat} (hs : s.Canon db) : (s.slotsAdd f q n).Canon db := hs.modMtr
theorem State.Canon.energies {a : Nat} {x : PhaseSums} (hs : s.Canon db) : (s.energies a x).Canon db :=
  .addEnergy (.ite (.addEnergy (.ite hs.addEnergy hs.addEnergy)) (.addEnergy (.ite hs.addEnergy hs.addEnergy)))

theorem State.Canon.phaseWrite {f q n seq : Nat} {x : PhaseSums} (hs : s.Canon db) :
    (s.phaseWrite f q n seq x).Canon db := by
  unfold State.phaseWrite
  extract_lets s₁ _ s₂ s₃ s₄ r₅ s₆ s₇ s₈ _ s₉ s₁₀
  have h₁ : s₁.Canon db := hs.energies.slotsAdd
  have h₂ : s₂.Canon db := h₁.setF
  have h₃ : s₃.Canon db := h₂.setF
  have h₄ : s₄.Canon db := h₃.setF.setF
  have h₅ : r₅.2.Canon db := by
    unfold r₅
    split
    exacts [.snd h₄, h₄.free]
  have h₆ : s₆.Canon db := h₅.setF
  have h₇ : s₇.Canon db := h₆.setF
  have h₈ : s₈.Canon db := h₇.setF
  have h₉ : s₉.Canon db := h₈.setF
  have h₁₀ : s₁₀.Canon db := h₉.setF
  exact h₁₀.setF

theorem State.Canon.feederWindow {f n seq : Nat} (hs : s.Canon db) : (s.feederWindow f n seq).Canon db :=
  .setF (.setF (.setF (.setF (foldS_canon (fun _ _ hu => hu.energies) (foldS_canon (fun _ _ hv => hv.phaseWrite) hs)))))
theorem State.Canon.windowKeep {b n : Nat} {fs : List Nat} (hs : s.Canon db) : (s.windowKeep b n fs).Canon db :=
  foldS_canon (fun _ _ hu => hu.modMtr) hs
theorem State.Canon.harmonic {c h : Nat} (hs : s.Canon db) : (s.harmonic c h).2.Canon db :=
  .ite_snd (.snd hs) (.snd (.ite_snd (.free (.ite_snd hs.free (.snd hs))) (.snd (.ite_snd hs.free (.snd hs)))))
theorem State.Canon.windowEnd {b : Nat} (hs : s.Canon db) : (s.windowEnd b).Canon db :=
  .ite (.modMtr (.windowKeep (foldS_canon (fun _ _ hu => hu.feederWindow) (.setZc (.ite hs.setF.setF.modMtr hs.setF)))))
    hs
theorem State.Canon.estimateEnd (hs : s.Canon db) : s.estimateEnd.Canon db :=
  .ite hs (hs.modMtr.when (fun _ hu => hu.setF))

theorem State.Canon.estimateOne {i : Nat} {x : Estimate} (hs : s.Canon db) : (s.estimateOne i x).Canon db := by
  unfold State.estimateOne
  extract_lets r₁ r₂ r₃ _ s₄
  have h₁ : r₁.2.Canon db := by
    unfold r₁
    split
    exacts [.snd hs, hs.free]
  have h₂ : r₂.2.Canon db := by
    unfold r₂
    split
    exacts [.snd h₁, h₁.free]
  have h₃ : r₃.2.Canon db := by
    unfold r₃
    split
    exacts [.snd h₂, h₂.free]
  have h₄ : s₄.Canon db := h₃.setEp.setEp.setEp
  exact .ite h₄.setF h₄

theorem State.Canon.estDone (hs : s.Canon db) : s.estDone.Canon db :=
  .ite (.record (.setF (foldS_canon (fun _ _ hu => hu.estimateOne) hs.setF))) hs
theorem State.Canon.zcStart (hs : s.Canon db) : s.zcStart.Canon db := foldS_canon (fun _ _ hu => hu.setZc) hs.modMtr
theorem State.Canon.mtrStart (hs : s.Canon db) : s.mtrStart.Canon db := hs.totalsLoad.zcStart.modMtr
theorem State.Canon.estOffset (hs : s.Canon db) : s.estOffset.Canon db := hs.modMtr
theorem State.Canon.mtrMoved {old : Stamp} (hs : s.Canon db) : (s.mtrMoved old).Canon db :=
  .modMtr (foldS_canon (fun _ _ hu => hu.setZc) hs)
theorem State.Canon.mtrStep {old : Stamp} (hs : s.Canon db) : (s.mtrStep old).Canon db :=
  hs.capEnd.mtrMoved.when (fun _ hu => hu.modMtr)
theorem State.Canon.mtrTimed {old : Stamp} (hs : s.Canon db) : (s.mtrTimed old).Canon db := hs.mtrMoved.modMtr

/-! ## Storm -/

theorem State.Canon.stormLeft (hs : s.Canon db) : s.stormLeft.Canon db := hs.setF

theorem State.Canon.broadcast {b : CmdBody} (hs : s.Canon db) : (s.broadcast b).Canon db := by
  unfold State.broadcast
  extract_lets s₁ s₂
  have h₁ : s₁.Canon db := foldS_canon (fun _ _ hu => hu.ringSend) hs
  have h₂ : s₂.Canon db := foldS_canon (fun _ _ hu => hu.canBroadcast) h₁
  exact foldS_canon (fun _ _ hu => hu.radUrgent) h₂

theorem State.Canon.stormLaunch (hs : s.Canon db) : s.stormLaunch.Canon db := hs.frame.stormLeft.broadcast.event
theorem State.Canon.stormEnd (hs : s.Canon db) : s.stormEnd.Canon db := .ite hs.setF.raise.event hs
theorem State.Canon.spreadEnd (hs : s.Canon db) : s.spreadEnd.Canon db := hs.frame.setF.stormLeft.stormEnd

theorem State.Canon.pollOne {i : Nat} (hs : s.Canon db) : (s.pollOne i).Canon db := by
  dsimp only [State.pollOne]
  refine .ite ?_ hs.frame.stormLeft.stormEnd
  split
  · exact (hs.place ‹_›).frame
  · exact hs.placeFlags

theorem State.Canon.recoveryPoll (hs : s.Canon db) : s.recoveryPoll.Canon db := by
  dsimp only [State.recoveryPoll]
  refine .ite ?_ hs
  split
  exacts [hs.pollOne, hs]

theorem State.Canon.stormStop (hs : s.Canon db) : s.stormStop.Canon db := hs.frame.setF.stormLeft
theorem State.Canon.cplModule {i : Nat} (hs : s.Canon db) : (s.cplModule i).Canon db :=
  .ite hs.freeSlot.frame.stormLeft.stormEnd hs.freeSlot.stormLeft

theorem State.Canon.deliver {i : Nat} (hs : s.Canon db) : (s.deliver i).Canon db := by
  dsimp only [State.deliver]
  refine .ite ?_ hs
  split
  · exact hs.cplSession
  · exact .freeSlot (.ite hs hs.cmdFail)
  · exact hs.cplModule
  · exact hs.freeSlot

/-! ## Pair -/

theorem State.Canon.modPair {f : Pair → Pair} (hs : s.Canon db) : (s.modPair f).Canon db := hs.frame
theorem State.Canon.modPower {f : Power → Power} (hs : s.Canon db) : (s.modPower f).Canon db := hs.frame
theorem State.Canon.standbyShow (hs : s.Canon db) : s.standbyShow.Canon db :=
  foldS_canon (fun _ _ hu => hu.setF) (foldS_canon (fun _ _ hv => hv.setF) hs.setF)

theorem State.Canon.setRole {r : Nat} (hs : s.Canon db) : (s.setRole r).Canon db := by
  unfold State.setRole
  extract_lets _ _ s₁ _ s₂ s₃ s₄ s₅ s₆
  have h₁ : s₁.Canon db := hs.setF
  have h₂ : s₂.Canon db := h₁.setF
  have h₃ : s₃.Canon db := foldS_canon (fun _ _ hu => hu.setF) h₂
  have h₄ : s₄.Canon db := h₃.standbyShow
  have h₅ : s₅.Canon db := h₄.frame
  have h₆ : s₆.Canon db := h₅.when (fun _ hu => hu.setF)
  exact .dioDrive (h₆.when (fun _ hu => hu.stagesOff))

theorem State.Canon.lightUp (hs : s.Canon db) : s.lightUp.Canon db := .setF (hs.when (fun _ hu => hu.setR))
theorem State.Canon.enterStandby (hs : s.Canon db) : s.enterStandby.Canon db := hs.setRole.lightUp
theorem State.Canon.roleEvent (hs : s.Canon db) : s.roleEvent.Canon db := hs.event
theorem State.Canon.claimLaunch (hs : s.Canon db) : s.claimLaunch.Canon db :=
  .ite hs.setF.raise.stormLaunch hs.broadcast
theorem State.Canon.newEpoch {e : Nat} (hs : s.Canon db) : (s.newEpoch e).Canon db := hs.frame.ledgerCommit.setF
theorem State.Canon.claim (hs : s.Canon db) : s.claim.Canon db :=
  .ite hs.record.enterStandby hs.setRole.raise.record.newEpoch.claimLaunch
theorem State.Canon.fence {cond : Nat} (hs : s.Canon db) : (s.fence cond).Canon db :=
  .record (.raise (.setRole (foldS_canon (fun _ _ hu => hu.feHalt) hs)))
theorem State.Canon.seePartner {e : Nat} (hs : s.Canon db) : (s.seePartner e).Canon db := hs.when (fun _ hu => hu.fence)
theorem State.Canon.epochFence {e : Nat} {claim : Bool} (hs : s.Canon db) : (s.epochFence e claim).Canon db :=
  .ite hs.enterStandby hs.seePartner
theorem State.Canon.enginesCold (hs : s.Canon db) : s.enginesCold.Canon db :=
  .quEval (.frame (foldS_canon (fun _ _ hu => hu.engDropAll.modEng.setEngState) hs))
theorem State.Canon.pairTo {n : Nat} {f : Frame} (hs : s.Canon db) : (s.pairTo n f).Canon db := hs.enqueue
theorem State.Canon.pairLease {type seq : Nat} (hs : s.Canon db) : (s.pairLease type seq).Canon db :=
  foldS_canon (fun _ _ hu => hu.pairTo) hs

theorem State.Canon.pairCkpt {type seq : Nat} {data : List Byte} (hs : s.Canon db) :
    (s.pairCkpt type seq data).Canon db := by
  dsimp only [State.pairCkpt]
  split
  exacts [hs.pairTo, hs]

theorem State.Canon.leaseSend (hs : s.Canon db) : s.leaseSend.Canon db := hs.modPair.pairLease
theorem State.Canon.lease {e q : Nat} {t : Stamp} (hs : s.Canon db) : (s.lease e q t).Canon db :=
  .when (hs.seePartner.when (fun _ hu => hu.enterStandby)) (fun _ hv => hv.modPair)
theorem State.Canon.echo {e q : Nat} (hs : s.Canon db) : (s.echo e q).Canon db :=
  hs.seePartner.when (fun _ hu => hu.modPair)
theorem State.Canon.ownTake {x : CkptPart} (hs : s.Canon db) : (s.ownTake x).Canon db :=
  .ite hs.modPair hs.modPair.frame.ledgerCommit
theorem State.Canon.ckptFrame {b : List Byte} (hs : s.Canon db) : (s.ckptFrame b).Canon db := hs.modPair.pairCkpt
theorem State.Canon.ckptSend {x : CkptPart} (hs : s.Canon db) : (s.ckptSend x).Canon db :=
  .ite (.modPair (foldS_canon (fun _ _ hu => hu.ckptFrame) hs)) hs

theorem State.Canon.ckptStore {x : CkptPart} (hs : s.Canon db) : (s.ckptStore x).Canon db := by
  dsimp only [State.ckptStore]
  split
  exacts [hs.modPair, hs.modPair, .ite hs.modPair hs.modPair]

theorem State.Canon.ckptIn {e q fmt : Nat} {x : CkptPart} (hs : s.Canon db) : (s.ckptIn e q fmt x).Canon db :=
  .ite hs.seePartner.modPair.ckptStore.pairCkpt hs.seePartner
theorem State.Canon.ckptAck {e q : Nat} (hs : s.Canon db) : (s.ckptAck e q).Canon db :=
  .ite hs.seePartner.modPair hs.seePartner
theorem State.Canon.beacon {i : Nat} (hs : s.Canon db) : (s.beacon i).Canon db := .ite hs.ringSend (.ite hs.canOwn hs)

/-! ## Gauge -/

theorem State.Canon.showSoc (hs : s.Canon db) : s.showSoc.Canon db := .setF (.ite_snd hs.free (.snd hs))
theorem State.Canon.setCharge {n : Nat} (hs : s.Canon db) : (s.setCharge n).Canon db := hs.frame.setF.showSoc
theorem State.Canon.gaugeCount {q : Int} (hs : s.Canon db) : (s.gaugeCount q).Canon db :=
  .ite hs.setCharge (.ite hs.frame hs.frame.setF.showSoc)
theorem State.Canon.chargeTicks {n : Nat} (hs : s.Canon db) : (s.chargeTicks n).Canon db :=
  .ite (.ite hs.free.gaugeCount hs.gaugeCount) hs
theorem State.Canon.backupDrain (hs : s.Canon db) : s.backupDrain.Canon db := .ite hs hs.gaugeCount

/-! ## Tick -/

theorem State.Canon.setNow {n : Nat} (hs : s.Canon db) : (s.setNow n).Canon db := hs.frame
theorem State.Canon.setSlew {left : Int} {tick : Nat} (hs : s.Canon db) : (s.setSlew left tick).Canon db :=
  hs.frame.setF
theorem State.Canon.timeTicks {k : Nat} (hs : s.Canon db) : (s.timeTicks k).Canon db := .ite hs.setNow hs.setNow.setSlew
theorem State.Canon.esmcCount {n : Nat} (hs : s.Canon db) : (s.esmcCount n).Canon db := hs.addPair.addPair
theorem State.Canon.esmcSend (hs : s.Canon db) : s.esmcSend.Canon db :=
  foldS_canon (fun _ _ hu => hu.portSent.modFab.send) hs
theorem State.Canon.countTicks {n : Nat} (hs : s.Canon db) : (s.countTicks n).Canon db := .ite hs.frame.chargeTicks hs
theorem State.Canon.ticks {n : Nat} (hs : s.Canon db) : (s.ticks n).Canon db := .ite hs hs.countTicks.accTicks.timeTicks
theorem State.Canon.ticked (hs : s.Canon db) : s.ticked.Canon db := hs.dioSettle.installEnd
theorem State.Canon.esmcBeats {from_ : Nat} (hs : s.Canon db) : (s.esmcBeats from_).Canon db :=
  foldS_canon (fun _ _ hu => hu.esmcSend) hs

theorem State.Canon.pass {n : Nat} (hs : s.Canon db) : (s.pass n).Canon db := by
  refine State.Canon.esmcBeats (State.Canon.ticked (State.Canon.ticks ?_))
  generalize s.wholeSeconds n = l
  generalize (0 : Nat) = k
  induction l generalizing s k with
  | nil => exact hs
  | cons x l ih => exact ih hs.ticks.canSnapNow _

/-! ## Time -/

theorem State.Canon.slewRest (hs : s.Canon db) : s.slewRest.Canon db := .ite hs hs.pass
theorem State.Canon.setIncr {c : Nat} (hs : s.Canon db) : (s.setIncr c).Canon db := hs.setHeld.setF.setF
theorem State.Canon.incrWrite {v : Nat} (hs : s.Canon db) : (s.incrWrite v).Canon db :=
  .setIncr (.ite hs.pass hs.pass.raise)
theorem State.Canon.slewStart {adj : Int} (hs : s.Canon db) : (s.slewStart adj).Canon db := hs.pass.setSlew
theorem State.Canon.cmdSlew (hs : s.Canon db) : s.cmdSlew.Canon db := hs.slewStart
theorem State.Canon.cmdSlewStop (hs : s.Canon db) : s.cmdSlewStop.Canon db := hs.pass.setSlew
theorem State.Canon.stepSheaves {old : Stamp} (hs : s.Canon db) : (s.stepSheaves old).Canon db :=
  foldS_canon (fun _ _ hu => .ite hu.setCtx.raise hu) hs
theorem State.Canon.timeStep {v : Nat} (hs : s.Canon db) : (s.timeStep v).Canon db :=
  hs.setNow.setSlew.setF.raise.mtrStep.canSnapNow.record.moduleEvent.stepSheaves
theorem State.Canon.cmdSet (hs : s.Canon db) : s.cmdSet.Canon db := hs.timeStep
theorem State.Canon.stepNs {ns : Int} (hs : s.Canon db) : (s.stepNs ns).Canon db := hs.pass.timeStep
theorem State.Canon.cmdStep (hs : s.Canon db) : s.cmdStep.Canon db := hs.stepNs

theorem State.Canon.timeCmd {x : Nat} (hs : s.Canon db) : (s.timeCmd x).Canon db := by
  dsimp only [State.timeCmd]
  split
  · exact hs.cmdSet
  · exact hs.cmdStep
  · exact hs.cmdSlew
  · exact hs.cmdSlewStop
  · exact hs

theorem State.Canon.nowRead (hs : s.Canon db) : s.nowRead.Canon db := hs.setR.setR.setR.setF.answer
theorem State.Canon.ppsInRead (hs : s.Canon db) : s.ppsInRead.Canon db := hs.setStampR.setF.setF.answer
theorem State.Canon.setTsDry {p n : Nat} (hs : s.Canon db) : (s.setTsDry p n).Canon db := hs.frame

theorem State.Canon.tsRead {p x : Nat} (hs : s.Canon db) : (s.tsRead p x).2.Canon db := by
  dsimp only [State.tsRead]
  split
  · exact .snd hs.setTsDry
  · exact .ite_snd (.snd hs.setTsDry) (.snd (.ite hs.setTsQueue hs))

theorem State.Canon.setUtcoff {v : Word} (hs : s.Canon db) : (s.setUtcoff v).Canon db :=
  .setR (.ite hs hs.frame.ledgerCommit)
theorem State.Canon.setSync {v : Nat} (hs : s.Canon db) : (s.setSync v).Canon db := .setF (.ite hs hs.frame)
theorem State.Canon.setOther {x : Option Nat} (hs : s.Canon db) : (s.setOther x).Canon db := hs.frame
theorem State.Canon.setSource {n : Nat} (hs : s.Canon db) : (s.setSource n).Canon db := hs.setF.setF

theorem State.Canon.takeSource {n : Nat} (hs : s.Canon db) : (s.takeSource n).Canon db := by
  dsimp only [State.takeSource]
  split
  exacts [.ite hs.setSource hs.setSource.setOther, hs.setSource.setOther]

theorem State.Canon.servoSlew {off : Int} (hs : s.Canon db) : (s.servoSlew off).Canon db :=
  hs.free.setR.slewStart.setIncr
theorem State.Canon.setRun {n : Nat} (hs : s.Canon db) : (s.setRun n).Canon db := hs.frame
theorem State.Canon.freeRun (hs : s.Canon db) : s.freeRun.Canon db := hs.setSlew

theorem State.Canon.servoTrack {off : Int} (hs : s.Canon db) : (s.servoTrack off).Canon db := by
  unfold State.servoTrack
  extract_lets _ s₁
  have h₁ : s₁.Canon db := hs.servoSlew
  exact .ite hs.stepNs.setSync.setRun (.ite hs.frame.freeRun.raise.setSync (.ite h₁.setRun (.ite h₁.setSync
    h₁.setSync)))

theorem State.Canon.servoSuspect {off : Int} (hs : s.Canon db) : (s.servoSuspect off).Canon db :=
  .ite hs.stepNs.setSync (.ite hs.setSync.servoTrack (.ite hs.frame hs.frame))

theorem State.Canon.syncInterval {src : TimeSource} {off : Int} {utc : Word} (hs : s.Canon db) :
    (s.syncInterval src off utc).Canon db := by
  unfold State.syncInterval
  extract_lets s₁
  have h₁ : s₁.Canon db := hs.takeSource.setUtcoff
  refine .ite hs (.ite hs.setOther ?_)
  split
  · exact h₁.stepNs.setSync
  · exact h₁.setSync.servoTrack
  · exact h₁.servoSuspect
  · exact h₁.servoTrack

theorem State.Canon.sourceLost (hs : s.Canon db) : s.sourceLost.Canon db := by
  dsimp only [State.sourceLost]
  refine .ite ?_ hs
  split
  exacts [hs.freeRun.setSource.setOther, hs.freeRun.setSync.setF.setF.raise]

theorem State.Canon.synceChoose (hs : s.Canon db) : s.synceChoose.Canon db := by
  dsimp only [State.synceChoose]
  refine .ite hs.setF.setF ?_
  split
  exacts [hs.frame.setF.setF.setF, hs.setF.setF]

theorem State.Canon.synceSelect (hs : s.Canon db) : s.synceSelect.Canon db :=
  .ite hs.synceChoose hs.synceChoose.esmcSend
theorem State.Canon.setSynceQl {i : Nat} {ql : Option Nat} (hs : s.Canon db) : (s.setSynceQl i ql).Canon db := hs.frame

theorem State.Canon.esmc {n ql : Nat} (hs : s.Canon db) : (s.esmc n ql).Canon db := by
  dsimp only [State.esmc]
  split
  exacts [hs, .ite hs.setSynceQl.synceSelect (.ite hs.frame hs.setSynceQl)]

theorem State.Canon.synceHoldOff {i : Nat} (hs : s.Canon db) : (s.synceHoldOff i).Canon db :=
  .synceSelect (.frame (hs.when (fun _ hu => hu.setSynceQl)))
theorem State.Canon.synceRestore {i : Nat} (hs : s.Canon db) : (s.synceRestore i).Canon db := hs.frame.synceSelect
theorem State.Canon.ppsEdge (hs : s.Canon db) : s.ppsEdge.Canon db := hs.frame
theorem State.Canon.todIn {l : List Byte} (hs : s.Canon db) : (s.todIn l).Canon db := .ite hs.setUtcoff hs
theorem State.Canon.ppsMiss (hs : s.Canon db) : s.ppsMiss.Canon db :=
  .ite (.ite hs.raise.sourceLost (.ite hs.raise.setOther hs.raise)) hs
theorem State.Canon.todOut {sec : Nat} (hs : s.Canon db) : (s.todOut sec).2.Canon db := .snd hs.free
theorem State.Canon.ppsOut (hs : s.Canon db) : s.ppsOut.Canon db := .ite (.ite hs.todOut.send hs.send) hs

/-! ## Checks -/

theorem State.Canon.putEntry {e : ShfEntry} (hs : s.Canon db) : (s.putEntry e).Canon db := by
  dsimp only [State.putEntry]
  refine .ite ?_ (.ite hs.setFWord hs)
  split
  exacts [hs.wr, hs]

theorem State.Canon.putEntries {l : List ShfEntry} (hs : s.Canon db) : (s.putEntries l).Canon db :=
  .foldl (fun _ hu _ => hu.putEntry) hs

/-! ## Images -/

theorem State.Canon.modSvc {f : Svc → Svc} (hs : s.Canon db) : (s.modSvc f).Canon db := hs.frame
theorem State.Canon.setImgSlot {n : Nat} {x : ImgSlot} (hs : s.Canon db) : (s.setImgSlot n x).Canon db :=
  .ite hs.modSvc hs.modSvc
theorem State.Canon.setImgState {n v : Nat} (hs : s.Canon db) : (s.setImgState n v).Canon db :=
  hs.setImgSlot.ledgerCommit
theorem State.Canon.svcShow (hs : s.Canon db) : s.svcShow.Canon db :=
  hs.setF.setF.setF.setR.setR.setR.setF.setF.setF.setF.setF
theorem State.Canon.policyWrite {v : Word} (hs : s.Canon db) : (s.policyWrite v).Canon db :=
  .ite hs.modSvc.ledgerCommit.svcShow hs
theorem State.Canon.svcRecord {code sev : Nat} {body : List Word} (hs : s.Canon db) :
    (s.svcRecord code sev body).Canon db :=
  hs.record
theorem State.Canon.bootEntry {e : BootEntry} (hs : s.Canon db) : (s.bootEntry e).Canon db := hs.frame.ledgerCommit
theorem State.Canon.actCommit (hs : s.Canon db) : s.actCommit.Canon db := hs.ledgerCommit

theorem State.Canon.bootFrom {n : Nat} (hs : s.Canon db) : (s.bootFrom n).Canon db := by
  unfold State.bootFrom
  extract_lets _ s₁ s₂ s₃
  have h₁ : s₁.Canon db := .ite hs hs.setImgState
  have h₂ : s₂.Canon db := .ite h₁ h₁.modSvc.actCommit
  have h₃ : s₃.Canon db := h₂.bootEntry
  exact .ite h₃ h₃.modPower.setMb

theorem State.Canon.bootMark {n : Nat} (hs : s.Canon db) : (s.bootMark n).Canon db := .ite hs.setImgState hs
theorem State.Canon.enterRecovery {cause : Nat} (hs : s.Canon db) : (s.enterRecovery cause).Canon db := hs.modSvc
theorem State.Canon.bootSelect (hs : s.Canon db) : s.bootSelect.Canon db :=
  .ite hs.bootFrom.modPower (.ite hs.bootMark.bootFrom.modPower hs.bootMark.bootMark.enterRecovery)

/-! ## Rtc -/

theorem State.Canon.rtcDay (hs : s.Canon db) : s.rtcDay.Canon db :=
  .ite hs.setF.setF (.ite hs.setF.setF.setF hs.setF.setF.setF.setF)
theorem State.Canon.rtcStep (hs : s.Canon db) : s.rtcStep.Canon db :=
  .ite hs.setF (.ite hs.setF.setF (.ite hs.setF.setF.setF hs.setF.setF.setF.rtcDay))
theorem State.Canon.almEval {a : Nat} (hs : s.Canon db) : (s.almEval a).Canon db :=
  .ite (.ite (.record (.ite hs.frame.raise hs.frame.raise)) (.ite hs.frame.raise hs.frame.raise)) hs
theorem State.Canon.alarms (hs : s.Canon db) : s.alarms.Canon db := hs.almEval.almEval
theorem State.Canon.subsecZero (hs : s.Canon db) : s.subsecZero.Canon db := hs.frame.setF
theorem State.Canon.rtcShow (hs : s.Canon db) : s.rtcShow.Canon db := hs.setF.frame
theorem State.Canon.rtcSecond (hs : s.Canon db) : s.rtcSecond.Canon db := hs.rtcStep.subsecZero.frame.alarms.rtcShow
theorem State.Canon.rtcTimeWrite {v : Word} (hs : s.Canon db) : (s.rtcTimeWrite v).Canon db := hs.frame.rtcShow
theorem State.Canon.alignRefuse (hs : s.Canon db) : s.alignRefuse.Canon db := hs.setF.raise

theorem State.Canon.rtcDateWrite {v : Word} (hs : s.Canon db) : (s.rtcDateWrite v).Canon db := by
  unfold State.rtcDateWrite
  extract_lets s₁ s₂ _ s₃ s₄ s₅
  have h₁ : s₁.Canon db := by
    unfold s₁
    split
    exacts [hs.plainWrite, hs]
  have h₂ : s₂.Canon db := h₁.plainWrite
  have h₃ : s₃.Canon db := h₂.frame
  have h₄ : s₄.Canon db := h₃.subsecZero.setF
  have h₅ : s₅.Canon db := .ite h₄.alignRefuse h₄
  exact h₅.alarms.rtcShow

theorem State.Canon.rtcTimeRead (hs : s.Canon db) : s.rtcTimeRead.Canon db := hs.frame.answer

theorem State.Canon.rtcDateRead (hs : s.Canon db) : s.rtcDateRead.Canon db := by
  dsimp only [State.rtcDateRead]
  split
  exacts [hs.frame.answer, hs.answer]

theorem State.Canon.rtcAlarmWrite {a : Nat} {ctl : Bool} {v : Word} (hs : s.Canon db) :
    (s.rtcAlarmWrite a ctl v).Canon db :=
  hs.plainWrite.almEval.rtcShow
theorem State.Canon.rtcLost (hs : s.Canon db) : s.rtcLost.Canon db := hs.setR.setR.setF
theorem State.Canon.rtcTemp {t : Nat} (hs : s.Canon db) : (s.rtcTemp t).Canon db := hs.setF.frame
theorem State.Canon.compWindow (hs : s.Canon db) : s.compWindow.Canon db := hs.setF.setF
theorem State.Canon.rtcAlign (hs : s.Canon db) : s.rtcAlign.Canon db := .ite hs (.ite hs.setF hs.raise)
theorem State.Canon.alignExecute (hs : s.Canon db) : s.alignExecute.Canon db :=
  .ite (.ite hs.record.setR.setR.subsecZero.setF.setF.raise.alarms hs.alignRefuse) hs

/-! ## RegEffect -/

theorem State.Canon.feSpecial {x : RegRow} {off : Nat} {v : Word} (hs : s.Canon db) :
    CanonOpt db (s.feSpecial x off v) :=
  .ite (.ofSome hs.modCtx) (.ite (.ofSome hs.modCtx) (.ite (.ofSome hs.modCtx) (.ite (.ofSome hs.modCtx)
    (.ite (.ofSome hs.modCtx) (.ite (.ofSome hs.feCfgWrite) (.ite (.ofSome hs.fePcWrite) (.ite (.ofSome hs.dbgWrite)
    (.ite (.ofSome hs.dbgWrite) (.ite (.ofSome hs.lsWrite) .ofNone)))))))))

theorem State.Canon.special {b : Blk} {x : RegRow} {off : Nat} {v : Word} (hs : s.Canon db) :
    CanonOpt db (s.special b x off v) := by
  dsimp only [State.special]
  split
  · exact hs.feSpecial
  · exact .ite (.ofSome hs.setR) .ofNone
  · exact .ite (.ofSome hs.rtcTimeWrite) (.ite (.ofSome hs.rtcDateWrite) (.ite (.ofSome hs.rtcShow) .ofNone))
  · exact .ite (.ofSome hs.policyWrite) .ofNone
  · exact .ofNone

theorem State.Canon.feEffect {x : RegRow} {off : Nat} (hs : s.Canon db) : (s.feEffect x off).Canon db :=
  .ite hs.quEval (.ite hs.quEval (.ite hs.stormStop hs))
theorem State.Canon.canEffect {prev : State} {x : RegRow} {off : Nat} (ho : s.Canon db) :
    (prev.canEffect s x off).Canon db :=
  .ite (.ite ho (.ite ho.canFresh ho.setF)) (.ite ho.mbIrq (.ite ho.quEval ho))

theorem State.Canon.mtrEffect {prev : State} {x : RegRow} {off : Nat} (ho : s.Canon db) :
    (prev.mtrEffect s x off).Canon db := by
  unfold State.mtrEffect
  extract_lets _ s₁
  have h₁ : s₁.Canon db := ho.when (fun _ hu => hu.setF)
  exact .ite (ho.when (fun _ hu => hu.zcStart)) (.ite (ho.when (fun _ hv => hv.modMtr))
    (.ite (h₁.when (fun _ hw => hw.estOffset)) ho))

theorem State.Canon.gaugeCap (hs : s.Canon db) : s.gaugeCap.Canon db := hs.setCharge
theorem State.Canon.chargeStop (hs : s.Canon db) : s.chargeStop.Canon db := hs.setF.setF.setF

theorem State.Canon.regEffect {prev : State} {b : Blk} {off : Nat} (ho : s.Canon db) :
    (prev.regEffect s b off).Canon db := by
  dsimp only [State.regEffect]
  split
  · exact ho
  · split
    · exact ho.feEffect
    · exact .ite ho.acctQuotaWrite ho
    · exact .ite (.ite ho.portCfgApplied ho.pairLinkUpdate) ho
    · exact .ite ho.ringUpdate ho
    · exact .ite ho.synceSelect (.ite ho.setUtcoff ho)
    · exact ho.mtrEffect
    · exact ho.dioCopy.dioDrive
    · exact .ite (.ite ho.showFrame ho.showFrame.chainStop) (.ite ho.aonShow (.ite ho.quEval ho))
    · exact ho.radShow
    · exact ho.canEffect
    · exact .ite ho.quEval (.ite ho.quEval ho)
    · exact .rtcShow (.ite ho.almEval ho)
    · exact .ite ho.gaugeCap (.ite ho.chargeStop ho)
    · exact ho

theorem State.Canon.putReg {b : Blk} {x : RegRow} {off : Nat} {v : Word} (hs : s.Canon db) :
    (s.putReg b x off v).Canon db := by
  dsimp only [State.putReg]
  split
  · rename_i e1; have h1 := hs.special _ e1
    exact h1
  · exact hs.wr.regEffect

/-! ## Apply -/

theorem State.Canon.applyReg {e : ShfEntry} (hs : s.Canon db) : (s.applyReg e).Canon db := by
  unfold State.applyReg
  split
  · exact hs
  split
  · exact hs
  extract_lets v low u
  have hu : u.Canon db := by
    unfold u low
    split
    exacts [hs.setHeld, hs]
  split
  · exact hu.special _ ‹_›
  · exact hu.wr

theorem State.Canon.applyRegs {es : List ShfEntry} (hs : s.Canon db) : (s.applyRegs es).Canon db :=
  foldS_canon (fun _ _ hu => hu.regEffect) (.foldl (fun _ hv _ => hv.applyReg) hs)
theorem State.Canon.applyWord {e : ShfEntry} (hs : s.Canon db) : (s.applyWord e).Canon db := .ite hs.putEntry hs
theorem State.Canon.effLimits {i : Nat} (hs : s.Canon db) : (s.effLimits i).Canon db :=
  .ite hs.setEp.setEp hs.setEp.setEp
theorem State.Canon.limitsApply {a : State} {es : List ShfEntry} (ho : s.Canon db) : (a.limitsApply s es).Canon db :=
  foldS_canon (fun _ _ hu => hu.effLimits) ho
theorem State.Canon.groupsApply {a : State} {i : Nat} (ho : s.Canon db) : (a.groupsApply s i).Canon db :=
  .ite ho.setGrpBit (.ite (foldS_canon (fun _ _ hu => hu.setGrpBit) ho) ho)

theorem State.Canon.epApply {a : State} {i : Nat} (ho : s.Canon db) : (a.epApply s i).Canon db := by
  unfold State.epApply
  extract_lets s₁ s₂
  have h₁ : s₁.Canon db := ho.groupsApply
  have h₂ : s₂.Canon db := .ite h₁ h₁.accClear
  exact .ite h₂ (foldS_canon (fun _ _ hu => hu.setRadNode) h₂)

theorem State.Canon.ghostsApply {a : State} {es : List ShfEntry} (ho : s.Canon db) : (a.ghostsApply s es).Canon db :=
  foldS_canon (fun _ _ hu => hu.ghostBind) (foldS_canon (fun _ _ hv => hv.ghostAdd) ho)
theorem State.Canon.imageApply {x : Nat × Image} (hs : s.Canon db) : (s.imageApply x).Canon db :=
  .ite hs.setImage.engRestart hs.setImage
theorem State.Canon.applyEntries {a : State} {es : List ShfEntry} (hs : a.Canon db) : (a.applyEntries es).Canon db :=
  .ghostsApply (foldS_canon (fun _ _ hu => hu.epApply) (.limitsApply (.foldl (fun _ hv _ => hv.applyWord)
    hs.applyRegs)))
theorem State.Canon.applySheaf {es : List ShfEntry} {images : List (Nat × Image)} (hs : s.Canon db) :
    (s.applySheaf es images).Canon db :=
  foldS_canon (fun _ _ hu => hu.imageApply) hs.applyEntries
theorem State.Canon.journalApplied {q : Nat} (hs : s.Canon db) : (s.journalApplied q).Canon db := hs.frame

theorem State.Canon.ctxApplied {c : Nat} (hs : s.Canon db) : (s.ctxApplied c).Canon db := by
  dsimp only [State.ctxApplied]
  split
  exacts [hs.setCtx.complete, hs.setCtx]

theorem State.Canon.shfApplyNow {c : Nat} (hs : s.Canon db) : (s.shfApplyNow c).Canon db := by
  unfold State.shfApplyNow
  extract_lets x u e s₁ s₂ s₃
  have h₁ : s₁.Canon db := hs.applySheaf.journalApplied
  have h₂ : s₂.Canon db := h₁.setR.raise
  have h₃ : s₃.Canon db := h₂.moduleEvent
  exact h₃.event.ctxApplied

theorem State.Canon.applyCommitted (hs : s.Canon db) : s.applyCommitted.Canon db := by
  dsimp only [State.applyCommitted]
  refine foldS_canon (fun _ _ hu => ?_) hs
  split
  exacts [hu.shfApplyNow, hu]

theorem State.Canon.sheafCommit {c : Nat} (hs : s.Canon db) : (s.sheafCommit c).Canon db :=
  hs.shfCommit.ledgerCommit.ckptSend

theorem State.Canon.checkReply {c status : Nat} {result : Word} {data : List Byte} (hs : s.Canon db) :
    (s.checkReply c status result data).Canon db := by
  dsimp only [State.checkReply]
  split
  exacts [hs.setData.complete.modCtx, hs]

theorem State.Canon.checkFailed {c : Nat} {f : Failure} (hs : s.Canon db) : (s.checkFailed c f).Canon db := by
  unfold State.checkFailed
  extract_lets _ s₁ s₂
  have h₁ : s₁.Canon db := hs.modCtx
  have h₂ : s₂.Canon db := h₁.raise.when (fun _ hu => hu.raise)
  exact .ite h₂.checkReply h₂.checkReply

theorem State.Canon.checkPassed {c : Nat} (hs : s.Canon db) : (s.checkPassed c).Canon db :=
  .ite hs.modCtx.shfCommitStart hs.modCtx.checkReply

theorem State.Canon.checkEnd {c : Nat} (hs : s.Canon db) : (s.checkEnd c).Canon db := by
  dsimp only [State.checkEnd]
  refine .ite hs.checkReply.modCtx ?_
  split
  exacts [hs.checkFailed.chkResume, hs.checkPassed.chkResume]

/-! ## Ledger -/

theorem State.Canon.modLedger {f : Ledger → Ledger} (hs : s.Canon db) : (s.modLedger f).Canon db := hs.frame

theorem State.Canon.factTake {g : LdgTag} {b : List Byte} (hs : s.Canon db) : (s.factTake g b).Canon db := by
  dsimp only [State.factTake]
  split
  · exact hs.modLedger
  · exact hs.modLedger
  · exact hs.modLedger
  · exact hs.modLedger
  · exact hs.modLedger
  · exact hs.modLedger
  · exact hs.modLedger.setLc
  · exact hs.frame
  · exact hs.setRad
  · exact hs.modSvc
  · exact hs.modSvc
  · exact hs.modSvc
  · exact hs.modSpares
  · exact hs

theorem State.Canon.unretire {cls el : Nat} (hs : s.Canon db) : (s.unretire cls el).Canon db :=
  hs.modSpares.when (fun _ hu => hu.setPlane)

theorem State.Canon.factGone {e : LdgEntry} (hs : s.Canon db) : (s.factGone e).Canon db := by
  dsimp only [State.factGone]
  split
  · exact hs.modLedger
  · exact hs.modLedger
  · exact hs.modLedger
  · exact hs.modLedger
  · exact hs.modLedger
  · exact hs.modLedger
  · exact hs.modLedger
  · exact hs.modLedger
  · exact hs.modLedger
  · exact hs.modLedger
  · exact hs.frame
  · exact hs.setLc
  · exact hs.frame.setF
  · exact hs.frame
  · exact hs.frame
  · exact hs.frame
  · exact hs.setRad
  · exact hs.modSvc
  · exact hs.modSvc
  · exact hs.modSvc
  · exact hs.modSpares
  · exact hs.unretire
  · exact hs.setPlane
  · exact hs
  · exact hs
  · exact hs

theorem State.Canon.ledgerStart {lost : List LdgLoss} {err : Nat} (hs : s.Canon db) :
    (s.ledgerStart lost err).Canon db :=
  foldS_canon (fun _ _ hu => hu.factTake) (foldS_canon (fun _ _ hv => hv.factGone) hs.ledgerAll.modLedger.ledgerResolve)

/-! ## Start -/

theorem State.Canon.fullReset {causes : Nat} : (s.fullReset causes).Canon db :=
  .edgesDark (.setF (.setF (.setF (.setR (foldS_canon (fun _ _ hu => hu.setF) (.frame .reset))))))
theorem State.Canon.inputValid : s.inputValid.Canon db := .fullReset
theorem State.Canon.regulatorsUp (hs : s.Canon db) : s.regulatorsUp.Canon db :=
  hs.frame.ledgerCommit.setR.setF.standbyShow.showSoc.modPower
theorem State.Canon.recOpen (hs : s.Canon db) : s.recOpen.Canon db := hs.setPairR.setPairR.setPairR.frame.modSvc
theorem State.Canon.ledgerLoad (hs : s.Canon db) : s.ledgerLoad.Canon db := hs.frame.modPower.setF.setPairR

theorem State.Canon.sdramTrained {lost : List LdgLoss} {err : Nat} (hs : s.Canon db) :
    (s.sdramTrained lost err).Canon db := by
  unfold State.sdramTrained
  extract_lets s₁ s₂
  have h₁ : s₁.Canon db := hs.setClock.setDomain
  have h₂ : s₂.Canon db := h₁.modPower
  exact .ite h₂ h₂.ledgerStart.ledgerLoad.planesStart.recOpen.mtrStart.keyTest.lcComplete

theorem State.Canon.ctrlUp {puf : Bool} (hs : s.Canon db) : (s.ctrlUp puf).Canon db := by
  unfold State.ctrlUp
  extract_lets s₁ s₂ s₃
  have h₁ : s₁.Canon db := foldS_canon (fun _ _ hu => hu.setClock.setDomain) hs
  have h₂ : s₂.Canon db := h₁.setF.setR
  have h₃ : s₃.Canon db := h₂.modPower.svcShow.pufStart
  exact h₃.when (fun _ hu => foldS_canon (fun _ _ hv => hv.setPlotState) hu)

theorem State.Canon.timeLoad (hs : s.Canon db) : s.timeLoad.Canon db :=
  .modPower (.mtrTimed (.setNow (foldS_canon (fun _ _ hu => hu.setClock.setDomain) hs)))

theorem State.Canon.engAssign (hs : s.Canon db) : s.engAssign.Canon db := by
  unfold State.engAssign
  extract_lets _ _ s₁ s₂ s₃ _ _ s₄
  have h₁ : s₁.Canon db := foldS_canon (fun _ _ hu => hu.setEngRole.setF) hs
  have h₂ : s₂.Canon db := foldS_canon (fun _ _ hu => hu.setPhys.setF.setEngRole) h₁
  have h₃ : s₃.Canon db := h₂.modSpares
  have h₄ : s₄.Canon db := h₃.frame
  exact h₄.setF.feCount

theorem State.Canon.groupZero (hs : s.Canon db) : s.groupZero.Canon db :=
  foldS_canon (fun _ _ hs => hs.setGrpBit) ⟨swf_filter _ _ _ hs.1, hs.2⟩
theorem State.Canon.gensFrom {c : Ckpt} {f : Nat → Nat} (hs : s.Canon db) : (s.gensFrom c f).Canon db := hs.frame
theorem State.Canon.restoreMem {a : State} {x : Committed} (hs : s.Canon db) : (s.restoreMem a x).Canon db :=
  foldS_canon (fun _ _ hu => hu.epApply) (.limitsApply (.foldl (fun _ hv _ => hv.applyWord) hs))

theorem State.Canon.restoreSheaf {x : Committed} {mem first : Bool} (hs : s.Canon db) :
    (s.restoreSheaf x mem first).Canon db := by
  unfold State.restoreSheaf
  extract_lets _ s₁ s₂ s₃ s₄
  have h₁ : s₁.Canon db := hs.applyRegs
  have h₂ : s₂.Canon db := .ite h₁.restoreMem h₁
  have h₃ : s₃.Canon db := h₂.when (fun _ hu => hu.ghostsApply)
  have h₄ : s₄.Canon db := foldS_canon (fun _ _ hu => hu.setImage) h₃
  exact h₄.setR

theorem State.Canon.restorePending {x : Committed} (hs : s.Canon db) : (s.restorePending x).Canon db := by
  dsimp only [State.restorePending]
  split
  exacts [hs, hs.setCtx]

theorem State.Canon.journalRestore (hs : s.Canon db) : s.journalRestore.Canon db := by
  unfold State.journalRestore
  extract_lets _ _ _ _ s₁ s₂ s₃
  have h₁ : s₁.Canon db := foldS_canon (fun _ _ hu => hu.restoreSheaf) hs
  have h₂ : s₂.Canon db := foldS_canon (fun _ _ hu => hu.restoreSheaf) h₁
  have h₃ : s₃.Canon db := foldS_canon (fun _ _ hu => hu.restorePending) h₂
  exact h₃.frame

theorem State.Canon.stateRestore (hs : s.Canon db) : s.stateRestore.Canon db := by
  unfold State.stateRestore
  extract_lets s₁ s₂ s₃ s₄ s₅ s₆ _ s₇
  have h₁ : s₁.Canon db := hs.modPair
  have h₂ : s₂.Canon db := h₁.engAssign
  have h₃ : s₃.Canon db := foldS_canon (fun _ _ hu => hu.setImage) h₂
  have h₄ : s₄.Canon db := .ite h₃.fmemFrom.gensFrom h₂
  have h₅ : s₅.Canon db := h₄.groupZero.journalRestore
  have h₆ : s₆.Canon db := h₅.when (fun _ hu => hu.raise)
  have h₇ : s₇.Canon db := h₆.frame
  exact h₇.ghostUsed.modPower

theorem State.Canon.enginesStart (hs : s.Canon db) : s.enginesStart.Canon db :=
  foldS_canon (fun _ _ hu => hu.engRestart) hs
theorem State.Canon.intakeOpens (hs : s.Canon db) : s.intakeOpens.Canon db := hs.frame
theorem State.Canon.lightSolo (hs : s.Canon db) : s.lightSolo.Canon db := hs.setRole.intakeOpens.enginesStart.lightUp
theorem State.Canon.windowsFrom {a : State} (ho : s.Canon db) : (a.windowsFrom s).Canon db :=
  foldS_canon (fun _ _ hu => hu.setRad) ho
theorem State.Canon.ckptOwn {c : Ckpt} (hs : s.Canon db) : (s.ckptOwn c).Canon db := .ite hs.frame hs
theorem State.Canon.ownRestore (hs : s.Canon db) : s.ownRestore.Canon db :=
  .ite (.windowsFrom (foldS_canon (fun _ _ hu => hu.restoreMem) hs.fmemFrom)) hs

theorem State.Canon.claimRestore (hs : s.Canon db) : s.claimRestore.Canon db := by
  unfold State.claimRestore
  extract_lets _ s₁ s₂ _ _ s₃ s₄ _ _ s₅
  have h₁ : s₁.Canon db := .ite (.ckptOwn (.windowsFrom (foldS_canon (fun _ _ hu => hu.setImage) hs.fmemFrom)))
    hs.ownRestore
  have h₂ : s₂.Canon db := h₁.groupZero.intakeOpens
  have h₃ : s₃.Canon db := foldS_canon (fun _ _ hu => hu.restoreSheaf) h₂
  have h₄ : s₄.Canon db := foldS_canon (fun _ _ hu => hu.restorePending) h₃
  have h₅ : s₅.Canon db := h₄.frame
  exact h₅.gensFrom

theorem State.Canon.claimComplete (hs : s.Canon db) : s.claimComplete.Canon db :=
  hs.claimRestore.frame.enginesStart.moduleEvent.setRole.lightUp.roleEvent

theorem State.Canon.plotsTested (hs : s.Canon db) : s.plotsTested.Canon db := by
  unfold State.plotsTested
  extract_lets _ s₁ s₂
  have h₁ : s₁.Canon db := foldS_canon (fun _ _ hu => hu.setPlotState) hs
  have h₂ : s₂.Canon db := h₁.plotsUpdate
  exact foldS_canon (fun _ _ hu => .ite hu.portFail (.ite hu.setPortState hu)) h₂

/-! ## Reset -/

theorem State.Canon.cplFlush {n : Nat} (hs : s.Canon db) : (s.cplFlush n).Canon db :=
  .quEval (.setQ (foldS_canon (fun _ _ hu => hu.setData.cplDiscard) hs))
theorem State.Canon.sessClose {n : Nat} (hs : s.Canon db) : (s.sessClose n).Canon db :=
  .ite hs.cplFlush.shfDrop.setSess hs
theorem State.Canon.ctrlClear (hs : s.Canon db) : s.ctrlClear.Canon db := hs.frame

theorem State.Canon.controlReset {cause : Nat} (hs : s.Canon db) : (s.controlReset cause).Canon db := by
  unfold State.controlReset
  extract_lets s₁ s₂ s₃
  have h₁ : s₁.Canon db := foldS_canon (fun _ _ hs => hs.sessClose) hs
  have h₂ : s₂.Canon db := h₁.shfDrop.ctrlClear.keyReset
  have h₃ : s₃.Canon db := h₂.setFBit.setF
  exact h₃.modPower

theorem State.Canon.rstControl (hs : s.Canon db) : s.rstControl.Canon db := hs.when (fun _ hu => hu.controlReset)
theorem State.Canon.rstFull (hs : s.Canon db) : s.rstFull.Canon db := hs.when (fun _ _ => .fullReset)

theorem State.Canon.lastSaves (hs : s.Canon db) : s.lastSaves.Canon db := by
  unfold State.lastSaves
  extract_lets s₁ s₂ _ s₃ s₄
  have h₁ : s₁.Canon db := hs.ledgerWarned
  have h₂ : s₂.Canon db := .ite h₁.recAcceptAll.recClose h₁
  have h₃ : s₃.Canon db := h₂.frame
  have h₄ : s₄.Canon db := .ite h₃.totalsSave.opMsSave.lcWarned.recAcceptAll h₃
  exact h₄.frame.ledgerCommit.ledgerAll

theorem State.Canon.shed : s.shed.Canon db := .modPower .fullReset
theorem State.Canon.backupLost (hs : s.Canon db) : s.backupLost.Canon db := hs.setF.frame.modPower.free.setF
theorem State.Canon.inputLost (hs : s.Canon db) : s.inputLost.Canon db := hs.modPower.setF
theorem State.Canon.inputGone (hs : s.Canon db) : s.inputGone.Canon db :=
  .ite hs.inputLost.modPower.backupLost hs.inputLost.modPower.setF
theorem State.Canon.warning {pfw inLow : Bool} : (s.warning pfw inLow).Canon db :=
  .setF (.ite (.inputGone .shed) (.inputLost .shed))
theorem State.Canon.shutdown {inTime : Bool} : (s.shutdown inTime).Canon db := .modPower .shed
theorem State.Canon.rstShutdown {inTime : Bool} (hs : s.Canon db) : (s.rstShutdown inTime).Canon db :=
  hs.when (fun _ _ => .shutdown)

theorem State.Canon.rstCmd {v : Word} (hs : s.Canon db) : (s.rstCmd v).Canon db := by
  dsimp only [State.rstCmd]
  refine .ite hs ?_
  split
  · exact hs.rstControl
  · exact hs.rstFull
  · exact hs.free.rstShutdown
  · exact hs

theorem State.Canon.cellEvent {e : Evt} (hs : s.Canon db) : (s.cellEvent e).Canon db := hs.raise.record
theorem State.Canon.cellRemoved (hs : s.Canon db) : s.cellRemoved.Canon db :=
  .ite hs.chargeStop.setF.setF.modPower.cellEvent (hs.chargeStop.setF.setF.modPower.when (fun _ hu => hu.backupLost))
theorem State.Canon.cellSeen (hs : s.Canon db) : s.cellSeen.Canon db := hs.modPower.setF
theorem State.Canon.cellEmpty (hs : s.Canon db) : s.cellEmpty.Canon db :=
  hs.setF.cellEvent.setCharge.when (fun _ hu => hu.cellEvent)
theorem State.Canon.cellAtRest {mv : Nat} (hs : s.Canon db) : (s.cellAtRest mv).Canon db :=
  .when (hs.when (fun _ hu => hu.modPower.setF)) (fun _ hv => hv.setCharge.cellEvent)
theorem State.Canon.baseTemp {t : Nat} (hs : s.Canon db) : (s.baseTemp t).Canon db := hs.record
theorem State.Canon.domainDown {d : Nat} (hs : s.Canon db) : (s.domainDown d).Canon db :=
  hs.when (fun _ hu => hu.domainLost)

theorem execBridgeTimeout_canon {a : BitVec 40} {write : Bool} (hs : s.Canon db) :
    CanonNext db (execBridgeTimeout a write s) := by
  dsimp only [execBridgeTimeout]
  refine .next ?_
  split
  exacts [hs.bridgeTo, hs]

/-! ## Svc -/

theorem State.Canon.macCount {x : Reg} (hs : s.Canon db) : (s.macCount x).Canon db := .ite hs.free.setR hs
theorem State.Canon.uartChar {samples : BitVec 30} (hs : s.Canon db) : (s.uartChar samples).Canon db :=
  .ite hs (.quOffer (hs.setF.when (fun _ hu => hu.raise)))
theorem State.Canon.uartBreak (hs : s.Canon db) : s.uartBreak.Canon db := .ite hs.setF.raise.quOffer hs
theorem State.Canon.uartPut {ch : Nat} (hs : s.Canon db) : (s.uartPut ch).Canon db := hs.quOffer

theorem State.Canon.uartSend {cts : Bool} (hs : s.Canon db) : (s.uartSend cts).Canon db := by
  dsimp only [State.uartSend]
  refine .ite ?_ hs.setF
  split
  exacts [hs.setF.modSvc.setQ.quEval.send, hs.setF]

theorem State.Canon.imgResult {r : Nat} (hs : s.Canon db) : (s.imgResult r).Canon db := hs.setF.svcShow
theorem State.Canon.slotErased {n : Nat} (hs : s.Canon db) : (s.slotErased n).Canon db := hs.frame
theorem State.Canon.imgOpen (hs : s.Canon db) : s.imgOpen.Canon db :=
  .ite hs (.ite hs.imgResult hs.setImgSlot.slotErased.ledgerCommit.imgResult)
theorem State.Canon.imgWrite (hs : s.Canon db) : s.imgWrite.Canon db :=
  .ite hs (.ite hs.imgResult (.ite hs.imgResult hs.setImgSlot.modSvc.svcShow))
theorem State.Canon.imgWriteDone (hs : s.Canon db) : s.imgWriteDone.Canon db := .ite hs.modSvc.imgResult hs
theorem State.Canon.imgVerify (hs : s.Canon db) : s.imgVerify.Canon db := .ite hs (.ite hs.imgResult hs.modSvc.svcShow)
theorem State.Canon.verifyRecord {n r : Nat} (hs : s.Canon db) : (s.verifyRecord n r).Canon db :=
  .ite hs.svcRecord hs.svcRecord
theorem State.Canon.verified {n r : Nat} (hs : s.Canon db) : (s.verified n r).Canon db :=
  hs.setImgState.raise.verifyRecord.imgResult
theorem State.Canon.imgVerifyDone (hs : s.Canon db) : s.imgVerifyDone.Canon db := .ite hs.modSvc.verified hs
theorem State.Canon.imgAbort (hs : s.Canon db) : s.imgAbort.Canon db :=
  .ite hs (.ite hs.imgResult hs.setImgSlot.ledgerCommit.imgResult)
theorem State.Canon.imgStream {bytes : List Byte} (hs : s.Canon db) : (s.imgStream bytes).Canon db :=
  .ite hs.imgOpen (.ite hs.imgOpen.imgResult hs.imgOpen.setImgSlot.verified)

theorem State.Canon.imageService {h : Handshake} {bytes : List Byte} (hs : s.Canon db) :
    (s.imageService h bytes).Canon db := by
  unfold State.imageService
  extract_lets s₁
  have h₁ : s₁.Canon db := .ite hs.imgStream hs
  split
  exacts [hs.send, hs.send, h₁.send.send]

theorem State.Canon.schedule (hs : s.Canon db) : s.schedule.Canon db :=
  .ite hs (.ite hs.imgResult (.ite hs.imgResult (.ite hs.imgResult hs.modSvc.actCommit.svcRecord.imgResult)))
theorem State.Canon.actCancel (hs : s.Canon db) : s.actCancel.Canon db :=
  .ite hs (.ite hs.modSvc.actCommit.imgResult hs.imgResult)
theorem State.Canon.activate {force : Bool} (hs : s.Canon db) : (s.activate force).Canon db :=
  hs.setImgSlot.setImgSlot.modSvc.actCommit.raise.svcRecord.controlReset
theorem State.Canon.force (hs : s.Canon db) : s.force.Canon db := .ite hs (.ite hs.imgResult hs.imgResult.activate)
theorem State.Canon.activation (hs : s.Canon db) : s.activation.Canon db :=
  .ite (.ite hs.activate hs.modSvc.actCommit.raise.svcShow.svcRecord) hs

theorem State.Canon.imgCmd {v : Nat} (hs : s.Canon db) : (s.imgCmd v).Canon db := by
  dsimp only [State.imgCmd]
  split
  · exact hs.imgOpen
  · exact hs.imgWrite
  · exact hs.imgVerify
  · exact hs.schedule
  · exact hs.force
  · exact hs.actCancel
  · exact hs.imgAbort
  · exact hs

theorem State.Canon.slotsBack (hs : s.Canon db) : s.slotsBack.Canon db := hs.setImgSlot.setImgSlot.modSvc.actCommit
theorem State.Canon.rollbackNote {version : Word} (hs : s.Canon db) : (s.rollbackNote version).Canon db :=
  hs.raise.svcRecord
theorem State.Canon.rollback {cause : Nat} (hs : s.Canon db) : (s.rollback cause).Canon db :=
  hs.slotsBack.controlReset.rollbackNote
theorem State.Canon.settingsReset (hs : s.Canon db) : s.settingsReset.Canon db :=
  hs.applyCommitted.frame.applySheaf.ledgerCommit.ckptSend.setR.raise.moduleEvent.event
theorem State.Canon.actConfirm {v : Word} (hs : s.Canon db) : (s.actConfirm v).Canon db :=
  .ite (.ite hs.modSvc.actCommit.svcShow hs.modSvc.actCommit.settingsReset.raise.svcRecord.svcShow) hs
theorem State.Canon.recoveryImage {bytes : List Byte} (hs : s.Canon db) : (s.recoveryImage bytes).Canon db :=
  .ite (.verifyRecord .fullReset) hs.modSvc.setImgSlot.slotErased.verified
theorem State.Canon.recoveryFull : s.recoveryFull.Canon db := .fullReset
theorem State.Canon.efwShow (hs : s.Canon db) : s.efwShow.Canon db := hs.setF
theorem State.Canon.efwEnd (hs : s.Canon db) : s.efwEnd.Canon db := .ite hs.setF.raise.svcRecord hs
theorem State.Canon.efwStart (hs : s.Canon db) : s.efwStart.Canon db := hs.modSvc.setF.efwShow.efwEnd
theorem State.Canon.efwStop (hs : s.Canon db) : s.efwStop.Canon db := hs.setF
theorem State.Canon.efwRing (hs : s.Canon db) : s.efwRing.Canon db :=
  .ite hs (.efwEnd (.efwShow (.modSvc (foldS_canon (fun _ _ hu => hu.ringSend) hs))))
theorem State.Canon.efwRadio (hs : s.Canon db) : s.efwRadio.Canon db :=
  .ite hs (.efwEnd (.efwShow (.modSvc (foldS_canon (fun _ _ hu => hu.radQueue) hs))))

theorem State.Canon.efwActivateRing {k : Nat} {t : Stamp} (hs : s.Canon db) : (s.efwActivateRing k t).Canon db := by
  unfold State.efwActivateRing
  extract_lets _ _ _ s₁
  have h₁ : s₁.Canon db := by
    unfold s₁
    split
    exacts [hs.setCal, hs]
  split
  exacts [hs, h₁.frame.calPeak]

theorem State.Canon.efwActivate (hs : s.Canon db) : s.efwActivate.Canon db :=
  foldS_canon (fun _ _ hu => hu.efwActivateRing) hs

theorem State.Canon.efwCmd {v : Nat} (hs : s.Canon db) : (s.efwCmd v).Canon db := by
  dsimp only [State.efwCmd]
  split
  · exact hs.efwStart
  · exact hs.efwStop
  · exact hs.efwActivate
  · exact hs

theorem State.Canon.wdogKick {v : Word} (hs : s.Canon db) : (s.wdogKick v).Canon db := .ite hs.modPower hs

theorem State.Canon.wdogExpire (hs : s.Canon db) : s.wdogExpire.Canon db := by
  unfold State.wdogExpire
  extract_lets _ _ _ s₁ s₂
  have h₁ : s₁.Canon db := .ite hs.slotsBack (.ite hs.modSvc hs)
  have h₂ : s₂.Canon db := .ite h₁.record.controlReset.setF (.record .fullReset)
  exact h₂.when (fun _ hu => hu.rollbackNote)

/-! ## ZhnDecode -/

theorem zIllegal_canon : ZKeeps db zIllegal := fun _ _ => .exc

theorem zIf_canon {c : Bool} {f : State → ZOut} (hf : ZKeeps db f) : ZKeeps db (zIf c f) := by
  unfold zIf; split
  · exact hf
  · exact zIllegal_canon

theorem zAluOp_canon {p fn d a b : Nat} : ZKeeps db (zAluOp p fn d a b) := by
  dsimp only [zAluOp]
  split
  · exact fun _ => zAdd_canon
  · exact fun _ => zSub_canon
  · exact fun _ => zAnd_canon
  · exact fun _ => zOr_canon
  · exact fun _ => zXor_canon
  · exact fun _ => zAndn_canon
  · exact fun _ => zSll_canon
  · exact fun _ => zSrl_canon
  · exact fun _ => zSra_canon
  · exact fun _ => zMul_canon
  · exact fun _ => zMulh_canon
  · exact fun _ => zMulhu_canon
  · exact fun _ => zDiv_canon
  · exact fun _ => zDivu_canon
  · exact fun _ => zRem_canon
  · exact fun _ => zRemu_canon
  · exact fun _ => zMin_canon
  · exact fun _ => zMax_canon
  · exact fun _ => zMinu_canon
  · exact fun _ => zMaxu_canon
  · exact fun _ => zClamp_canon
  · exact zIf_canon (fun _ => zPopc_canon)
  · exact zIf_canon (fun _ => zClz_canon)
  · exact zIf_canon (fun _ => zCtz_canon)
  · exact zIllegal_canon

theorem zPlogOp_canon {p fn d a b : Nat} : ZKeeps db (zPlogOp p fn d a b) :=
  .ite zIllegal_canon (.ite zIllegal_canon (.ite zIllegal_canon (fun _ => zPlog_canon)))

theorem zGrpOp_canon {p fn d a b : Nat} : ZKeeps db (zGrpOp p fn d a b) := by
  dsimp only [zGrpOp]
  split
  · exact zIf_canon (fun _ => zGrpSet_canon)
  · exact zIf_canon (fun _ => zGrpClr_canon)
  · exact zIf_canon (fun _ => zGrpTst_canon)
  · exact zIf_canon (fun _ => zGrpCnt_canon)
  · exact fun _ => zGrpOr_canon
  · exact fun _ => zGrpAnd_canon
  · exact fun _ => zGrpAndn_canon
  · exact zIf_canon (fun _ => zGrpCopy_canon)
  · exact zIf_canon (fun _ => zGrpClrall_canon)
  · exact zIllegal_canon

theorem zFormatA_canon {op p : Nat} {w : Word} : ZKeeps db (zFormatA op p w) := by
  dsimp only [zFormatA]
  split
  · exact zAluOp_canon
  · exact zIf_canon (fun _ => zCmp_canon)
  · exact zPlogOp_canon
  · exact .ite (zIf_canon (fun _ => zDimcP2c_canon)) (.ite (zIf_canon (fun _ => zDimcC2p_canon)) zIllegal_canon)
  · exact zIf_canon (fun _ => zLdl_canon)
  · exact zIf_canon (fun _ => zStl_canon)
  · exact zIf_canon (fun _ => zLdf_canon)
  · exact zIf_canon (fun _ => zStf_canon)
  · exact zGrpOp_canon
  · exact zIllegal_canon

theorem zFormatI_canon {op p : Nat} {w : Word} : ZKeeps db (zFormatI op p w) := by
  dsimp only [zFormatI]
  split
  · exact fun _ => zLi_canon
  · exact fun _ => zLis_canon
  · exact fun _ => zAddi_canon
  · exact fun _ => zAndi_canon
  · exact fun _ => zOri_canon
  · exact fun _ => zXori_canon
  · exact zIf_canon (fun _ => zSlli_canon)
  · exact zIf_canon (fun _ => zSrli_canon)
  · exact zIf_canon (fun _ => zSrai_canon)
  · exact fun _ => zMuli_canon
  · exact fun _ => zMini_canon
  · exact fun _ => zMaxi_canon
  · exact fun _ => zCmpi_canon
  · exact zIllegal_canon

theorem zFormatE_canon {op p : Nat} {w : Word} : ZKeeps db (zFormatE op p w) := by
  dsimp only [zFormatE]
  split
  · exact fun _ => zLde_canon
  · exact zIf_canon (fun _ => zSte_canon)
  · exact zIf_canon (.ite (fun _ => zEcurG_canon) (fun _ => zEcur_canon))
  · exact zIf_canon (fun _ => zErd_canon)
  · exact zIf_canon (fun _ => zLdr_canon)
  · split
    · exact zIf_canon (fun _ => zScanRow_canon)
    · exact zIf_canon (fun _ => zScanNext_canon)
    · exact zIf_canon (fun _ => zScanGrp_canon)
    · exact zIllegal_canon
  · exact zIllegal_canon

theorem zFormatT_canon {op p : Nat} {w : Word} : ZKeeps db (zFormatT op p w) := by
  dsimp only [zFormatT]
  split
  · split
    · exact zIf_canon (fun _ => zTnow_canon)
    · exact zIf_canon (fun _ => zTmov_canon)
    · exact zIf_canon (fun _ => zTadd_canon)
    · exact zIf_canon (fun _ => zTdiff_canon)
    · exact zIf_canon (fun _ => zTtag_canon)
    · exact zIf_canon (fun _ => zTget_canon)
    · exact zIf_canon (fun _ => zTset_canon)
    · exact zIllegal_canon
  · exact zIf_canon (fun _ => zTcmp_canon)
  · exact zIf_canon (fun _ => zTld_canon)
  · exact zIf_canon (fun _ => zTst_canon)
  · exact zIf_canon (fun _ => zSun_canon)
  · exact zIllegal_canon

theorem zFormatX_canon {p : Nat} {w : Word} : ZKeeps db (zFormatX p w) := by
  dsimp only [zFormatX]
  split
  · exact zIf_canon (fun _ => zNop_canon)
  · exact zIf_canon (fun _ => zWait_canon)
  · exact fun _ => zEmit_canon
  · exact zIf_canon (fun _ => zDoneH_canon)
  · exact zIf_canon (fun _ => zStg_canon)
  · exact zIf_canon (fun _ => zChk_canon)
  · exact zIf_canon (fun _ => zApl_canon)
  · exact zIf_canon (fun _ => zSdrop_canon)
  · exact zIf_canon (fun _ => zFence_canon)
  · exact zIf_canon (fun _ _ => zTrap_canon)
  · exact zIf_canon (fun _ => zHalt_canon)
  · exact zIf_canon (fun _ => zRet_canon)
  · exact zIf_canon (fun _ => zJr_canon)
  · exact zIf_canon (fun _ => zCallr_canon)
  · exact zIf_canon (fun _ => zMfs_canon)
  · exact zIf_canon (fun _ => zMts_canon)
  · exact zIf_canon (fun _ => zDout_canon)
  · exact zIllegal_canon

theorem zWord_canon {p : Nat} {w : Word} : ZKeeps db (zWord p w) := by
  dsimp only [zWord]
  refine .ite zFormatA_canon (.ite zFormatI_canon (.ite ?_ (.ite zFormatE_canon (.ite zFormatT_canon
    (.ite zFormatX_canon zIllegal_canon)))))
  split
  exacts [fun _ hs => zB_canon hs, fun _ hs => zCall_canon hs, zIllegal_canon]

theorem State.Canon.zIssue {p : Nat} {w : Word} (hs : s.Canon db) : (s.zIssue p w).Canon db :=
  hs.zhn (fun _ hu => zWord_canon _ hu)
theorem State.Canon.feStep {p : Nat} (hs : s.Canon db) : (s.feStep p).Canon db := .ite hs.modEng.setEngState.zIssue hs

theorem State.Canon.feCmd {p v : Nat} (hs : s.Canon db) : (s.feCmd p v).Canon db := by
  dsimp only [State.feCmd]
  split
  · exact hs.feRun
  · exact hs.feHalt
  · exact hs.feStep
  · exact hs.feReset
  · exact hs

/-! ## RegAccess -/

theorem State.Canon.freeW (hs : s.Canon db) : s.freeW.2.Canon db := .snd hs.free

theorem State.Canon.seeQu {b : Blk} {off : Nat} (hs : s.Canon db) : (s.seeQu b off).2.Canon db := by
  dsimp only [State.seeQu]
  split
  exacts [.snd hs, hs.quDataRead, .snd hs]

theorem State.Canon.seeSys {x : RegRow} {off : Nat} (hs : s.Canon db) : (s.seeSys x off).2.Canon db :=
  .ite_snd (.snd hs) (.ite_snd (.snd hs) (.ite_snd (.snd hs) (.ite_snd (.snd hs) (.ite_snd (.snd hs) (.snd hs)))))
theorem State.Canon.seeTime {x : RegRow} {off : Nat} (hs : s.Canon db) : (s.seeTime x off).2.Canon db :=
  .ite_snd (.snd hs.nowRead) (.ite_snd (.snd hs) (.ite_snd (.snd hs) (.ite_snd (.snd hs.ppsInRead) (.ite_snd (.snd hs)
    (.ite_snd hs.tsRead (.ite_snd hs.tsRead (.snd hs)))))))
theorem State.Canon.seeRtc {x : RegRow} {off : Nat} (hs : s.Canon db) : (s.seeRtc x off).2.Canon db :=
  .ite_snd (.snd hs.rtcTimeRead) (.ite_snd (.snd hs.rtcDateRead) (.ite_snd (.snd hs) (.snd hs)))
theorem State.Canon.seeKey {x : RegRow} {off : Nat} (hs : s.Canon db) : (s.seeKey x off).2.Canon db :=
  .ite_snd (.snd hs) (.ite_snd hs.freeW (.snd hs))
theorem State.Canon.seeRcd {x : RegRow} {off : Nat} (hs : s.Canon db) : (s.seeRcd x off).2.Canon db :=
  .ite_snd (.snd hs) (.ite_snd (.snd hs.ledgerRead) (.snd hs))
theorem State.Canon.dbgRead {p : Nat} (hs : s.Canon db) : (s.dbgRead p).2.Canon db := .ite_snd hs.drbgDraw (.snd hs)

theorem State.Canon.seeFe {x : RegRow} {off : Nat} (hs : s.Canon db) : (s.seeFe x off).2.Canon db :=
  .ite_snd (.snd hs) (.ite_snd (.snd hs) (.ite_snd (.snd hs) (.ite_snd (.snd hs) (.ite_snd (.snd hs)
    (.ite_snd (.snd hs.dbgRead) (.ite_snd (.snd hs.dbgRead) (.ite_snd hs.lsRead (.ite_snd (.snd hs) (.ite_snd (.snd hs)
    (.ite_snd (.snd hs) (.ite_snd (.snd hs) (.ite_snd hs.seeQu (.snd hs)))))))))))))

theorem State.Canon.seeFab {x : RegRow} {off : Nat} (hs : s.Canon db) : (s.seeFab x off).2.Canon db := .snd hs
theorem State.Canon.seeMtr {x : RegRow} {off : Nat} (hs : s.Canon db) : (s.seeMtr x off).2.Canon db :=
  .ite_snd (.snd hs) (.ite_snd (.ite_snd (.snd hs) hs.harmonic) (.ite_snd (.snd hs) (.snd hs)))
theorem State.Canon.seeRad {x : RegRow} {off : Nat} (hs : s.Canon db) : (s.seeRad x off).2.Canon db :=
  .ite_snd (.snd hs) (.ite_snd (.snd hs.free) (.ite_snd (.snd hs) (.snd hs)))
theorem State.Canon.seeCan {x : RegRow} {off : Nat} (hs : s.Canon db) : (s.seeCan x off).2.Canon db :=
  .ite_snd (.snd hs) (.ite_snd (.snd hs.canSnapRead) (.ite_snd (.snd hs.mbLock) (.ite_snd (.snd hs.mbRelease)
    hs.seeQu)))
theorem State.Canon.uartStatus (hs : s.Canon db) : s.uartStatus.2.Canon db := .snd hs.free
theorem State.Canon.seeSvc {x : RegRow} {off : Nat} (hs : s.Canon db) : (s.seeSvc x off).2.Canon db :=
  .ite_snd hs.uartStatus (.ite_snd (.snd hs.macCount) hs.seeQu)
theorem State.Canon.seePwr {x : RegRow} {off : Nat} (hs : s.Canon db) : (s.seePwr x off).2.Canon db :=
  .ite_snd hs.freeW (.ite_snd (.snd hs) (.ite_snd (.snd hs.free) (.snd hs)))

theorem State.Canon.see {b : Blk} {x : RegRow} {off : Nat} (hs : s.Canon db) : (s.see b x off).2.Canon db := by
  dsimp only [State.see]
  split
  · exact hs.seeSys
  · exact hs.seeTime
  · exact hs.seeRtc
  · exact hs.seeKey
  · exact hs.seeRcd
  · exact hs.seeFe
  · exact hs.seeFab
  · exact .ite_snd (.snd hs) (.snd hs)
  · exact hs.seeMtr
  · exact hs.seeRad
  · exact hs.seeCan
  · exact .ite_snd (.snd hs) hs.seeQu
  · exact hs.seeSvc
  · exact hs.seePwr
  · exact .snd hs

theorem State.Canon.readClears {b : Blk} {x : RegRow} {off : Nat} (hs : s.Canon db) :
    (s.readClears b x off).Canon db := by
  unfold State.readClears
  extract_lets s₁
  have h₁ : s₁.Canon db := hs.wr
  refine .ite h₁.setF ?_
  split
  exacts [h₁.setF, h₁]

theorem State.Canon.regRead {b : Blk} {off : Nat} (hs : s.Canon db) : (s.regRead b off).Canon db := by
  dsimp only [State.regRead]
  split
  · exact hs.answer
  · refine .ite hs.see.readClears.setShadow.answer ?_
    split
    · exact hs.see.readClears.answer
    · split
      exacts [hs.setShadow.answer, hs.see.readClears.answer]

theorem State.Canon.memRead {m : Store Byte} {off n : Nat} (hs : s.Canon db) : (s.memRead m off n).Canon db := hs.frame
theorem State.Canon.romStore {core : Nat} {a : Addr} (hs : s.Canon db) : (s.romStore core a).Canon db := hs.frame
theorem State.Canon.noMem {core : Nat} {a : Addr} {write : Bool} (hs : s.Canon db) : (s.noMem core a write).Canon db :=
  hs.busErr.frame
theorem State.Canon.memStore {sd : Bool} {off : Nat} {l : List Byte} (hs : s.Canon db) :
    (s.memStore sd off l).Canon db :=
  .ite hs.frame hs.frame

theorem State.Canon.memAccess {core : Nat} {a : Addr} {n : Nat} {write : Bool} {l : List Byte} (hs : s.Canon db) :
    (s.memAccess core a n write l).Canon db := by
  dsimp only [State.memAccess]
  split
  · exact .ite hs.romStore hs.memRead
  · exact .ite hs.memStore hs.memRead
  · exact .ite hs.memStore hs.memRead
  · exact hs.noMem
  · exact hs.noMem

theorem State.Canon.busRead {a : Addr} (hs : s.Canon db) : (s.busRead a).Canon db := by
  dsimp only [State.busRead]
  split
  · exact hs.viaRead (fun _ hu => hu.regRead)
  · exact hs.answer
  · exact hs.answer
  · exact hs.busErr.answer
  · exact hs.memAccess

theorem State.Canon.ctlCommand {b : Blk} {x : RegRow} {v : Word} (hs : s.Canon db) :
    CanonOpt db (s.ctlCommand b x v) := by
  dsimp only [State.ctlCommand]
  split
  · exact .ite (.ofSome hs.rstCmd) (.ite (.ofSome hs.wdogKick) .ofNone)
  · exact .ite (.ofSome hs.timeCmd) .ofNone
  · exact .ite (.ofSome (.rtcShow (.ite hs.rtcAlign hs))) .ofNone
  · exact .ite (.ofSome hs.keyOp) (.ite (.ofSome (.ite hs (.ite hs.requestNonce (.ite hs.lcTransition hs)))) .ofNone)
  · exact .ite (.ofSome hs.recCmd) (.ite (.ofSome hs.appRecord) .ofNone)
  · exact .ofNone

theorem State.Canon.command {b : Blk} {x : RegRow} {off : Nat} {v : Word} (hs : s.Canon db) :
    CanonOpt db (s.command b x off v) := by
  dsimp only [State.command]
  split
  · exact .ofSome (.ite hs.quDrop hs)
  · split
    · exact .ite (.ofSome hs.feCmd) (.ite (.ofSome hs.shfCmd) (.ite (.ofSome hs.shfData) .ofNone))
    · exact .ite (.ofSome hs.fdbCmd) .ofNone
    · exact .ite (.ofSome hs.mtrCmd) (.ite (.ofSome hs.capCmd) .ofNone)
    · exact .ite (.ofSome hs.canCmd) (.ite (.ofSome hs.bulkAck) (.ite (.ofSome hs.txCtlWrite) .ofNone))
    · exact .ite (.ofSome hs.uartPut) (.ite (.ofSome hs.imgCmd) (.ite (.ofSome hs.actConfirm) (.ite (.ofSome hs.efwCmd)
        .ofNone)))
    · exact hs.ctlCommand

theorem State.Canon.codeWrite {b : Blk} {off : Nat} {v : Word} (hs : s.Canon db) : (s.codeWrite b off v).Canon db := by
  dsimp only [State.codeWrite]
  split
  exacts [hs, .ite hs.putReg hs]

theorem State.Canon.pairWrite {b : Blk} {lo : Nat} {l h : Word} (hs : s.Canon db) :
    (s.pairWrite b lo l h).Canon db := by
  unfold State.pairWrite
  extract_lets s₁
  have h₁ : s₁.Canon db := hs.setHeld
  refine .ite h₁.incrWrite ?_
  split
  exacts [.ite h₁.dbgWrite h₁, h₁.codeWrite.codeWrite]

theorem State.Canon.regWrite {b : Blk} {off : Nat} {v : Word} (hs : s.Canon db) : (s.regWrite b off v).Canon db := by
  dsimp only [State.regWrite]
  split
  · exact hs
  · refine .ite hs.soWrite (.ite (hs.when (fun _ hu => hu.rtcShow)) (.ite hs.setHeld ?_))
    split
    · split
      exacts [hs.pairWrite, hs]
    · split
      · rename_i e2; have h2 := hs.command _ e2
        exact h2
      · exact hs.codeWrite

theorem State.Canon.fmemStore {off : Nat} {v : Word} (hs : s.Canon db) : (s.fmemStore off v).Canon db :=
  .ite (.ite hs.setFWord.setGrpBit.ghostBind hs.setFWord.setGrpBit) hs.setFWord
theorem State.Canon.fmemWrite {a : Addr} {off : Nat} {v : Word} (hs : s.Canon db) : (s.fmemWrite a off v).Canon db :=
  .ite hs.busErr hs.fmemStore

theorem State.Canon.busWrite {a : Addr} {v : Word} (hs : s.Canon db) : (s.busWrite a v).Canon db := by
  dsimp only [State.busWrite]
  split
  · exact hs.viaWrite (fun _ hu => hu.regWrite)
  · exact hs.fmemWrite
  · exact hs
  · exact hs.busErr
  · exact hs.memAccess

theorem State.Canon.misaligned {a : Addr} {write : Bool} (hs : s.Canon db) : (s.misaligned a write).Canon db :=
  hs.busErr.noData
theorem State.Canon.regionAccess {a : Addr} {bytes : Nat} {write : Bool} {k : State → State} (hs : s.Canon db)
    (hk : ∀ t : State, t.Canon db → (k t).Canon db) : (s.regionAccess a bytes write k).Canon db :=
  .ite hs.misaligned (hk _ hs)
theorem State.Canon.anyAccess {a : Addr} {bytes : Nat} {store : Option (BitVec 512)} (hs : s.Canon db) :
    (s.anyAccess a bytes store).Canon db :=
  hs.regionAccess (fun _ hu => .ite (.ite hu.busWrite hu.busRead) (.ite hu.memAccess hu))

theorem execUnmappedAccess_canon {a : Addr} {write : Bool} {v : Word} (hs : s.Canon db) :
    CanonNext db (execUnmappedAccess a write v s) := by
  dsimp only [execUnmappedAccess]
  refine .next (hs.regionAccess (fun _ hu => ?_))
  split
  exacts [.ite hu.busWrite hu.busRead, hu]

theorem execUnmappedMemoryAccess_canon {core : Nat} {a : Addr} {write : Bool} (hs : s.Canon db) :
    CanonNext db (execUnmappedMemoryAccess core a write s) := by
  dsimp only [execUnmappedMemoryAccess]
  refine .next ?_
  split
  exacts [hs.noMem, hs]

theorem execBootRomStore_canon {core : Nat} {a : Addr} (hs : s.Canon db) :
    CanonNext db (execBootRomStore core a s) := by
  dsimp only [execBootRomStore]
  refine .next ?_
  split
  exacts [hs.romStore, hs]

/-! ## Fcp2 -/

theorem State.Canon.tlsOffer {via : Access} {tcp : BitVec 16} {h : Handshake} (hs : s.Canon db) :
    (s.tlsOffer via tcp h).Canon db := by
  dsimp only [State.tlsOffer]
  refine .ite hs ?_
  split
  exacts [hs.frame.send, hs.send]

theorem execTlsHandshake_canon {m : TlsMessage} (hs : s.Canon db) : CanonNext db (execTlsHandshake m s) := by
  dsimp only [execTlsHandshake]
  refine .next ?_
  split
  exacts [hs.tlsOffer, hs.when (fun _ hu => hu.send)]

theorem State.Canon.dropConn {c : Nat} (hs : s.Canon db) : (s.dropConn c).Canon db := hs.frame

theorem State.Canon.hello {c : Nat} {v1 : Bool} {mask : Word} (hs : s.Canon db) : (s.hello c v1 mask).Canon db := by
  unfold State.hello
  extract_lets s₁
  have h₁ : s₁.Canon db := hs.dropConn
  split
  · exact hs
  · split
    exacts [.ite h₁ h₁.send, .ite h₁.setSess h₁.setSess.send]

theorem State.Canon.modSess {n : Nat} {f : Session → Session} (hs : s.Canon db) : (s.modSess n f).Canon db :=
  .ite hs.setSess hs
theorem State.Canon.pingSend {n : Nat} (hs : s.Canon db) : (s.pingSend n).Canon db := .ite hs.modSess.send hs
theorem State.Canon.sessTimeout {n : Nat} (hs : s.Canon db) : (s.sessTimeout n).Canon db := .ite hs.sessClose hs
theorem State.Canon.close {n : Nat} {malformed : Bool} (hs : s.Canon db) : (s.close n malformed).Canon db :=
  .sessClose (.ite hs.send hs)
theorem State.Canon.sessFree {n : Nat} (hs : s.Canon db) : (s.sessFree n).Canon db := .ite hs.setSess hs
theorem State.Canon.eventTaken {n taken : Nat} (hs : s.Canon db) : (s.eventTaken n taken).Canon db :=
  .ite hs (.ite hs.setSess.send hs.setSess)
theorem State.Canon.refuse {n : Nat} {tag : Word} {status : Nat} (hs : s.Canon db) : (s.refuse n tag status).Canon db :=
  hs.send
theorem State.Canon.acceptIn {n : Nat} {tag : Word} {i : Nat} (hs : s.Canon db) : (s.acceptIn n tag i).Canon db :=
  hs.allocSlot.send
theorem State.Canon.onSession {n : Nat} {k : State → State} (hs : s.Canon db)
    (hk : ∀ t : State, t.Canon db → (k t).Canon db) : (s.onSession n k).Canon db :=
  .ite hs (.ite hs.modSess.send (hk _ hs.modSess))

theorem State.Canon.request {n : Nat} {tag : Word} {control lighting bad : Bool} {err : State → Option Nat}
    {k : Nat → State → State} (hs : s.Canon db) (hk : ∀ x, ∀ t : State, t.Canon db → (k x t).Canon db) :
    (s.request n tag control lighting bad err k).Canon db := by
  dsimp only [State.request]
  refine hs.onSession (fun _ hu => ?_)
  split
  · exact hu.refuse
  · split
    · exact hu.refuse
    · split
      exacts [hk _ _ hu.acceptIn, hu.allocFail.refuse]

theorem State.Canon.finish {i status : Nat} {result : Word} {data : List Byte} (hs : s.Canon db) :
    (s.finish i status result data).Canon db :=
  hs.setData.complete
theorem State.Canon.finishData {i : Nat} {data : List Byte} (hs : s.Canon db) : (s.finishData i data).Canon db :=
  hs.finish

theorem State.Canon.readRegs {a n : Nat} (hs : s.Canon db) : (State.readRegs a n s).2.Canon db := by
  induction n generalizing a s with
  | zero => exact hs
  | succ n ih => exact ih (hs.regionAccess fun _ hs => hs.busRead)

theorem State.Canon.finishSheaf {i res : Nat} (hs : s.Canon db) : (s.finishSheaf i res).Canon db := hs.finish

theorem State.Canon.sheafOpen {n i : Nat} (hs : s.Canon db) : (s.sheafOpen n i).Canon db := by
  dsimp only [State.sheafOpen]
  split
  · exact .ite hs.shfOpen.finish hs.shfOpen.finishSheaf
  · split
    exacts [hs.shfOpen.finish, hs.finishSheaf]

theorem State.Canon.stageAll {c : Nat} {l : List ShfEntry} (hs : s.Canon db) : (State.stageAll c l s).2.Canon db := by
  induction l generalizing s with
  | nil => exact hs
  | cons e l ih => exact .ite_snd (ih hs.shfStage) hs.shfStage

theorem State.Canon.sheafStage {n i : Nat} {es : List ShfEntry} (hs : s.Canon db) : (s.sheafStage n i es).Canon db := by
  dsimp only [State.sheafStage]
  split
  exacts [hs.finishSheaf, .ite hs.stageAll.finish hs.stageAll.finishSheaf]

theorem State.Canon.sheafCheck {n i : Nat} (hs : s.Canon db) : (s.sheafCheck n i).Canon db := by
  dsimp only [State.sheafCheck]
  split
  exacts [hs.finishSheaf, .ite hs.shfCheck.modCtx hs.shfCheck.finishSheaf]

theorem State.Canon.sheafApply {n i : Nat} {timed : Bool} {t : Stamp} (hs : s.Canon db) :
    (s.sheafApply n i timed t).Canon db := by
  dsimp only [State.sheafApply]
  split
  · exact hs.finishSheaf
  · exact .ite (.modCtx (.ite hs.shfRefuse hs.shfApply)) (.finishSheaf (.ite hs.shfRefuse hs.shfApply))

theorem State.Canon.sheafDiscard {n i : Nat} (hs : s.Canon db) : (s.sheafDiscard n i).Canon db := by
  dsimp only [State.sheafDiscard]
  split
  exacts [hs.finishSheaf, .ite hs.shfDiscard.finish hs.shfDiscard.finishSheaf]

theorem State.Canon.fieldPlace {n i : Nat} {tag : Word} {x : Desc} {payload : List Byte} {w : Stamp} (hs : s.Canon db) :
    (s.fieldPlace n tag i x payload w).Canon db := by
  dsimp only [State.fieldPlace]
  refine .ite ?_ ?_
  · split
    · exact hs.acceptIn.finish
    · exact hs.allocFail.refuse
  · split
    · exact (hs.place ‹_›).send
    · exact hs.placeFlags.refuse

theorem State.Canon.fieldCmd {n : Nat} {tag : Word} {bad : Bool} {cursor : Word} {d : Desc} {t : Stamp}
    {payload : List Byte} (hs : s.Canon db) : (s.fieldCmd n tag bad cursor d t payload).Canon db := by
  dsimp only [State.fieldCmd]
  refine hs.onSession (fun _ hu => ?_)
  split
  · exact hu.refuse
  · split
    exacts [hu.refuse, hu.fieldPlace]

theorem State.Canon.postEvent {i l kind : Nat} {p5 p6 p7 : Word} (hs : s.Canon db) :
    (s.postEvent i l kind p5 p6 p7).Canon db :=
  hs.offerEvent.finish
theorem State.Canon.v1Answer {n status : Nat} {body : List Byte} (hs : s.Canon db) :
    (s.v1Answer n status body).Canon db :=
  .ite hs.modSess.send hs

theorem execHndQuotaWrite_canon {m : Option (Fin 16)} {v : Word} (hs : s.Canon db) :
    CanonNext db (execHndQuotaWrite m v s) := by
  dsimp only [execHndQuotaWrite]
  refine .next ?_
  split <;> exact hs.codeWrite

/-! ## Idle -/

theorem State.Canon.idle (hs : s.Canon db) : s.idle.Canon db := .ite hs.pass hs.countTicks.ticked

/-! ## The command dispatch and the step -/

/-- Every command goes on, and keeps the arrays canonical. -/
theorem exec_canon (i : Instr) (hs : s.Canon db) : CanonNext db (exec i s) :=
  match i with
  | .registerWrite .. => .next (hs.regionAccess (fun _ hu => hu.busWrite))
  | .unalignedAccess .. => .next hs.anyAccess
  | .unmappedAccess .. => execUnmappedAccess_canon hs
  | .unmappedMemoryAccess .. => execUnmappedMemoryAccess_canon hs
  | .bootRomStore .. => execBootRomStore_canon hs
  | .rcRead .. => .next (hs.regionAccess (fun _ hu => hu.busRead))
  | .pairLowRead .. => .next (hs.regionAccess (fun _ hu => hu.busRead))
  | .pairHighRead .. => .next (hs.regionAccess (fun _ hu => hu.busRead))
  | .pairLowWrite .. => .next (hs.regionAccess (fun _ hu => hu.busWrite))
  | .pairHighWrite .. => .next (hs.regionAccess (fun _ hu => hu.busWrite))
  | .soRegisterWrite .. => .next (hs.regionAccess (fun _ hu => hu.busWrite))
  | .fmemWindowWrite .. => .next hs.fmemWrite
  | .bridgeTimeout .. => execBridgeTimeout_canon hs
  | .domainUp .. => .next (hs.when (fun _ hu => hu.setClock.setDomain))
  | .domainLoss .. => .next hs.setClock.domainDown
  | .inputValid => .next (hs.when (fun _ _ => .inputValid))
  | .regulatorsUp => .next (hs.when (fun _ hu => hu.regulatorsUp))
  | .bootImageSelect => .next (hs.when (fun _ hu => hu.bootSelect))
  | .sdramTrained .. => .next (.ite hs.sdramTrained (.ite hs.setClock.setDomain hs))
  | .ctrlUp .. => .next (hs.when (fun _ hu => hu.ctrlUp))
  | .timeBaseLoad => .next (hs.when (fun _ hu => hu.timeLoad))
  | .stateRestore => .next (hs.when (fun _ hu => hu.stateRestore))
  | .lightRun => .next (hs.when (fun _ hu => hu.lightSolo))
  | .plotSelfTestDone => .next (hs.when (fun _ hu => hu.plotsTested))
  | .fwdRun => .next (hs.when (fun _ hu => hu.setF.setR))
  | .engineRestart .. => .next hs.engineRestart
  | .hwException .. => .next (.ite hs.feCorrected hs.hwException)
  | .opMinIncrement .. => .next hs.opMin
  | .feCmdRun .. => .next hs.feRun
  | .feCmdHalt .. => .next hs.feHalt
  | .feCmdStep .. => .next hs.feStep
  | .feCmdReset .. => .next hs.feReset
  | .debugEnable .. => .next hs.feCfgWrite
  | .fePcWrite .. => .next hs.fePcWrite
  | .feDbgDataWrite .. => .next hs.setHeld.dbgWrite
  | .feLsDataRead .. => .next hs.lsRead.answer
  | .feLsDataWrite .. => .next hs.lsWrite
  | .breakpointHalt .. => .next (.ite hs.breakHalt hs)
  | .feShfOpen => .next hs.shfCmd
  | .feShfDataWrite .. => .next hs.shfData
  | .feShfCheck => .next hs.shfCmd
  | .feShfApply => .next hs.shfCmd
  | .feShfDiscard => .next hs.shfCmd
  | .checkComplete .. => .next (hs.when (fun _ hu => hu.checkEnd))
  | .sheafCommit .. => .next (hs.when (fun _ hu => hu.sheafCommit))
  | .shadowLoadDone .. => .next hs.shfLoaded
  | .sheafApplyInstant .. => .next (hs.when (fun _ hu => hu.shfApplyNow))
  | .add .. => .next (hs.zhn (fun _ => zAdd_canon))
  | .sub .. => .next (hs.zhn (fun _ => zSub_canon))
  | .and .. => .next (hs.zhn (fun _ => zAnd_canon))
  | .or .. => .next (hs.zhn (fun _ => zOr_canon))
  | .xor .. => .next (hs.zhn (fun _ => zXor_canon))
  | .andn .. => .next (hs.zhn (fun _ => zAndn_canon))
  | .sll .. => .next (hs.zhn (fun _ => zSll_canon))
  | .srl .. => .next (hs.zhn (fun _ => zSrl_canon))
  | .sra .. => .next (hs.zhn (fun _ => zSra_canon))
  | .mul .. => .next (hs.zhn (fun _ => zMul_canon))
  | .mulh .. => .next (hs.zhn (fun _ => zMulh_canon))
  | .mulhu .. => .next (hs.zhn (fun _ => zMulhu_canon))
  | .div .. => .next (hs.zhn (fun _ => zDiv_canon))
  | .divu .. => .next (hs.zhn (fun _ => zDivu_canon))
  | .rem .. => .next (hs.zhn (fun _ => zRem_canon))
  | .remu .. => .next (hs.zhn (fun _ => zRemu_canon))
  | .min .. => .next (hs.zhn (fun _ => zMin_canon))
  | .max .. => .next (hs.zhn (fun _ => zMax_canon))
  | .minu .. => .next (hs.zhn (fun _ => zMinu_canon))
  | .maxu .. => .next (hs.zhn (fun _ => zMaxu_canon))
  | .clamp .. => .next (hs.zhn (fun _ => zClamp_canon))
  | .popc .. => .next (hs.zhn (fun _ => zPopc_canon))
  | .clz .. => .next (hs.zhn (fun _ => zClz_canon))
  | .ctz .. => .next (hs.zhn (fun _ => zCtz_canon))
  | .li .. => .next (hs.zhn (fun _ => zLi_canon))
  | .lis .. => .next (hs.zhn (fun _ => zLis_canon))
  | .addi .. => .next (hs.zhn (fun _ => zAddi_canon))
  | .andi .. => .next (hs.zhn (fun _ => zAndi_canon))
  | .ori .. => .next (hs.zhn (fun _ => zOri_canon))
  | .xori .. => .next (hs.zhn (fun _ => zXori_canon))
  | .slli .. => .next (hs.zhn (fun _ => zSlli_canon))
  | .srli .. => .next (hs.zhn (fun _ => zSrli_canon))
  | .srai .. => .next (hs.zhn (fun _ => zSrai_canon))
  | .muli .. => .next (hs.zhn (fun _ => zMuli_canon))
  | .mini .. => .next (hs.zhn (fun _ => zMini_canon))
  | .maxi .. => .next (hs.zhn (fun _ => zMaxi_canon))
  | .cmp .. => .next (hs.zhn (fun _ => zCmp_canon))
  | .cmpi .. => .next (hs.zhn (fun _ => zCmpi_canon))
  | .plogAnd .. => .next (hs.zhn (fun _ => zPlog_canon))
  | .plogOr .. => .next (hs.zhn (fun _ => zPlog_canon))
  | .plogXor .. => .next (hs.zhn (fun _ => zPlog_canon))
  | .plogAndn .. => .next (hs.zhn (fun _ => zPlog_canon))
  | .plogNot .. => .next (hs.zhn (fun _ => zPlog_canon))
  | .plogSet .. => .next (hs.zhn (fun _ => zPlog_canon))
  | .plogClr .. => .next (hs.zhn (fun _ => zPlog_canon))
  | .b .. => .next (hs.zhn (fun _ => zB_canon))
  | .call .. => .next (hs.zhn (fun _ => zCall_canon))
  | .ldl .. => .next (hs.zhn (fun _ => zLdl_canon))
  | .stl .. => .next (hs.zhn (fun _ => zStl_canon))
  | .ldf .. => .next (hs.zhn (fun _ => zLdf_canon))
  | .stf .. => .next (hs.zhn (fun _ => zStf_canon))
  | .lde .. => .next (hs.zhn (fun _ => zLde_canon))
  | .ste .. => .next (hs.zhn (fun _ => zSte_canon))
  | .ecur .. => .next (hs.zhn (fun _ => zEcur_canon))
  | .ecurG .. => .next (hs.zhn (fun _ => zEcurG_canon))
  | .erd .. => .next (hs.zhn (fun _ => zErd_canon))
  | .ldr .. => .next (hs.zhn (fun _ => zLdr_canon))
  | .scanRow .. => .next (hs.zhn (fun _ => zScanRow_canon))
  | .scanNext .. => .next (hs.zhn (fun _ => zScanNext_canon))
  | .scanGrp .. => .next (hs.zhn (fun _ => zScanGrp_canon))
  | .grpSet .. => .next (hs.zhn (fun _ => zGrpSet_canon))
  | .grpClr .. => .next (hs.zhn (fun _ => zGrpClr_canon))
  | .grpTst .. => .next (hs.zhn (fun _ => zGrpTst_canon))
  | .grpCnt .. => .next (hs.zhn (fun _ => zGrpCnt_canon))
  | .grpOr .. => .next (hs.zhn (fun _ => zGrpOr_canon))
  | .grpAnd .. => .next (hs.zhn (fun _ => zGrpAnd_canon))
  | .grpAndn .. => .next (hs.zhn (fun _ => zGrpAndn_canon))
  | .grpCopy .. => .next (hs.zhn (fun _ => zGrpCopy_canon))
  | .grpClrall .. => .next (hs.zhn (fun _ => zGrpClrall_canon))
  | .dimcP2c .. => .next (hs.zhn (fun _ => zDimcP2c_canon))
  | .dimcC2p .. => .next (hs.zhn (fun _ => zDimcC2p_canon))
  | .tnow .. => .next (hs.zhn (fun _ => zTnow_canon))
  | .tmov .. => .next (hs.zhn (fun _ => zTmov_canon))
  | .tadd .. => .next (hs.zhn (fun _ => zTadd_canon))
  | .tdiff .. => .next (hs.zhn (fun _ => zTdiff_canon))
  | .ttag .. => .next (hs.zhn (fun _ => zTtag_canon))
  | .tget .. => .next (hs.zhn (fun _ => zTget_canon))
  | .tset .. => .next (hs.zhn (fun _ => zTset_canon))
  | .tcmp .. => .next (hs.zhn (fun _ => zTcmp_canon))
  | .tld .. => .next (hs.zhn (fun _ => zTld_canon))
  | .tst .. => .next (hs.zhn (fun _ => zTst_canon))
  | .sun .. => .next (hs.zhn (fun _ => zSun_canon))
  | .wait .. => .next (hs.zhn (fun _ => zWait_canon))
  | .waitResume .. => .next hs.waitResume
  | .waitTimeout .. => .next hs.waitTimeout
  | .emit .. => .next (hs.zhn (fun _ => zEmit_canon))
  | .done .. => .next (hs.zhn (fun _ => zDoneH_canon))
  | .stg .. => .next (hs.zhn (fun _ => zStg_canon))
  | .chk .. => .next (hs.zhn (fun _ => zChk_canon))
  | .apl .. => .next (hs.zhn (fun _ => zApl_canon))
  | .sdrop .. => .next (hs.zhn (fun _ => zSdrop_canon))
  | .nop .. => .next (hs.zhn (fun _ => zNop_canon))
  | .fence .. => .next (hs.zhn (fun _ => zFence_canon))
  | .trap .. => .next (hs.zhn (fun _ _ => zTrap_canon))
  | .halt .. => .next (hs.zhn (fun _ => zHalt_canon))
  | .ret .. => .next (hs.zhn (fun _ => zRet_canon))
  | .jr .. => .next (hs.zhn (fun _ => zJr_canon))
  | .callr .. => .next (hs.zhn (fun _ => zCallr_canon))
  | .mfs .. => .next (hs.zhn (fun _ => zMfs_canon))
  | .mts .. => .next (hs.zhn (fun _ => zMts_canon))
  | .dout .. => .next (hs.zhn (fun _ => zDout_canon))
  | .replyTimeout .. => .next hs.replyTimeout
  | .completionDeliver .. => .next hs.deliver
  | .tlsHandshake .. => execTlsHandshake_canon hs
  | .hello .. => .next hs.hello
  | .helloTimeout .. => .next hs.dropConn
  | .pingSend .. => .next hs.pingSend
  | .sessionTimeout .. => .next hs.sessTimeout
  | .pong .. => .next hs.modSess
  | .close .. => .next hs.close
  | .sessionFree .. => .next hs.sessFree
  | .getInfo .. => .next (.ite (hs.onSession (fun _ hu => hu.refuse)) (hs.request (fun _ _ hv => hv.finishData)))
  | .readRegs .. => .next (hs.request (fun _ _ hu => hu.readRegs.finishData))
  | .readFmem .. => .next (hs.request (fun _ _ hu => hu.finishData))
  | .getCounts .. => .next (hs.request (fun _ _ hu => hu.finishData))
  | .handleStatus .. => .next (hs.request (fun _ _ hu => hu.finish))
  | .subscribe .. => .next (hs.request (fun _ _ hu => hu.modSess.finish))
  | .sheafOpen .. => .next (hs.request (fun _ _ hu => hu.sheafOpen))
  | .sheafStage .. => .next (hs.request (fun _ _ hu => hu.sheafStage))
  | .sheafCheck .. => .next (hs.request (fun _ _ hu => hu.sheafCheck))
  | .sheafApply .. => .next (hs.request (fun _ _ hu => hu.sheafApply))
  | .sheafDiscard .. => .next (hs.request (fun _ _ hu => hu.sheafDiscard))
  | .fieldCmd .. => .next hs.fieldCmd
  | .postEvent .. => .next (hs.request (fun _ _ hu => hu.postEvent))
  | .setQuota .. => .next (hs.request (fun _ _ hu => hu.setF.finish))
  | .identify .. => .next (.ite hs.v1Answer hs.v1Answer)
  | .readEndpoint .. => .next (.ite hs.v1Answer hs.v1Answer)
  | .readCounters .. => .next hs.v1Answer
  | .eventCountAlarm .. => .next hs.eventTaken
  | .quDataRead .. => .next (hs.viaRead (fun _ hu => hu.quDataRead.answer))
  | .dropPkt .. => .next (hs.viaWrite (fun _ hu => hu.quDrop))
  | .quWmWrite .. => .next (hs.viaWrite (fun _ hu => hu.codeWrite))
  | .hndQuotaWrite .. => execHndQuotaWrite_canon hs
  | .holdReportsLaunch => .next (hs.when (fun _ hu => hu.stormLaunch))
  | .spreadEnd => .next (hs.when (fun _ hu => hu.spreadEnd))
  | .recoveryPoll => .next hs.recoveryPoll
  | .stormDisable .. => .next hs.setF.setF.stormStop
  | .frameIngress .. => .next hs.frameIngress
  | .frameCross .. => .next hs.frameCross
  | .frameReassemble .. => .next hs.reassemble.regionsFit
  | .seqGapTimeout .. => .next hs.seqGap.regionsFit
  | .frameTransmit .. => .next hs.frameTransmit
  | .planeTimeout .. => .next hs.planeError
  | .planeJoin .. => .next hs.planeJoin
  | .fdbAgeOut .. => .next hs.fdbAgeOut
  | .fdbRead => .next hs.fdbRead
  | .fdbWriteStatic => .next hs.fdbWriteStatic
  | .fdbDelete => .next hs.fdbDelete
  | .fdbFlushPort => .next hs.fdbFlushPort
  | .fdbFlushVlan => .next hs.fdbFlushVlan
  | .fdbFlushAll => .next hs.fdbFlushAll
  | .fdbCommandDone => .next hs.fdbDone
  | .speedMeasure .. => .next hs.speedMeasure
  | .vloopEvaluate => .next hs.vloop
  | .acctQuotaWrite .. => .next hs.acctQuotaWrite
  | .residueAppend .. => .next hs.residueAppend.regionsFit
  | .residueTimeout .. => .next hs.residueTimeout.regionsFit
  | .sownAppend .. => .next hs.drainAll.regionsFit
  | .gleanerPass .. => .next hs.gleanerPass
  | .leakWindowExpire .. => .next hs.setF
  | .linkUp .. => .next hs.linkUp
  | .linkDown .. => .next hs.linkDown
  | .opticsRefresh .. => .next hs.optics
  | .degradeWindow .. => .next hs.degradeWindow
  | .ringFrameReceive .. => .next (.ite hs.frameIn hs)
  | .ddEntryExpire .. => .next hs.ddExpire
  | .ddSourceExpire .. => .next hs.srcExpire
  | .supervisionSend .. => .next hs.supervision
  | .supervisionReceive .. => .next (.ite hs.frameIn hs)
  | .viaTimeout .. => .next hs.viaTimeout
  | .oneSidedEntry .. => .next hs.oneSided
  | .ringEventFrame .. => .next hs.endpointFrame
  | .ringReplyFrame .. => .next hs.endpointFrame
  | .ringJoinFrame .. => .next hs.endpointFrame
  | .timeNowRead => .next (hs.viaRead (fun _ hu => hu.nowRead))
  | .ppsInRead => .next (hs.viaRead (fun _ hu => hu.ppsInRead))
  | .timeIncrWrite .. => .next (hs.viaWrite (fun _ hu => hu.incrWrite))
  | .timeCmdSet => .next (hs.viaWrite (fun _ hu => hu.cmdSet))
  | .timeCmdStep => .next (hs.viaWrite (fun _ hu => hu.cmdStep))
  | .timeCmdSlew => .next (hs.viaWrite (fun _ hu => hu.cmdSlew))
  | .timeCmdSlewStop => .next (hs.viaWrite (fun _ hu => hu.cmdSlewStop))
  | .slewDone => .next hs.slewRest
  | .syncInterval .. => .next hs.syncInterval
  | .sourceLost => .next hs.sourceLost
  | .esmcReceive .. => .next (hs.when (fun _ hu => hu.esmcCount.esmc))
  | .synceHoldOff .. => .next hs.synceHoldOff
  | .synceWaitToRestore .. => .next hs.synceRestore
  | .ppsInEdge => .next hs.ppsEdge
  | .todMessage .. => .next hs.todIn
  | .ppsInMiss => .next hs.ppsMiss
  | .ppsOut => .next hs.ppsOut
  | .tsDataRead .. => .next (hs.viaRead (fun _ hu => hu.tsRead.answer))
  | .calendarFetch .. => .next hs.calFetch.numberEntry.chainFetched
  | .copyArrive .. => .next hs.arrive
  | .copyLaunch .. => .next hs.copyLaunch
  | .nodeDelayRefresh .. => .next hs.nodeDelay
  | .cellEccError .. => .next hs.cellError
  | .laserFault .. => .next hs.harrow
  | .flashError .. => .next hs.harrow
  | .phaseFault .. => .next hs.harrow
  | .queueParityError .. => .next hs.harrow
  | .harrowPassDone .. => .next (hs.when (fun _ hu => hu.passDone))
  | .fallowHarrow => .next hs.fallowHarrow
  | .bootLeaseTimeout => .next (hs.when (fun _ hu => hu.claim))
  | .leaseTimeout => .next (hs.when (fun _ hu => hu.claim))
  | .claimComplete => .next (hs.when (fun _ hu => hu.claimComplete))
  | .fenceEnd => .next (hs.when (fun _ hu => hu.enginesCold.enterStandby.roleEvent))
  | .leaseSend => .next (hs.when (fun _ hu => hu.leaseSend))
  | .echoSend => .next (hs.when (fun _ hu => hu.pairLease))
  | .lease .. => .next (hs.when (fun _ hu => hu.lease))
  | .echo .. => .next (hs.when (fun _ hu => hu.echo))
  | .leaseFence => .next (hs.when (fun _ hu => hu.fence))
  | .epochFence .. => .next (hs.when (fun _ hu => hu.epochFence))
  | .ckptDelta => .next (hs.when (fun _ hu => hu.ckptSend.ownTake))
  | .ckptSnapshot => .next (hs.when (fun _ hu => hu.ckptSend.ownTake))
  | .ckpt .. => .next (hs.when (fun _ hu => hu.ckptIn))
  | .ckptAck .. => .next (hs.when (fun _ hu => hu.ckptAck))
  | .ckptStale => .next (hs.when (fun _ hu => hu.raise))
  | .beaconSend .. => .next (hs.when (fun _ hu => hu.beacon))
  | .supplyWarning .. => .next (.ite (hs.when (fun _ _ => .warning)) (hs.when (fun _ hv => hv.inputGone)))
  | .rstCmdControl => .next hs.rstControl
  | .rstCmdFull => .next hs.rstFull
  | .rstCmdShutdown .. => .next hs.rstShutdown
  | .wdogKick .. => .next hs.wdogKick
  | .wdogExpire => .next (hs.when (fun _ hu => hu.wdogExpire))
  | .wdogWindowEnd => .next hs.setF
  | .cellRemoved => .next (hs.when (fun _ hu => hu.cellRemoved))
  | .cellInserted => .next (.ite hs.cellSeen (hs.when (fun _ hu => hu.modPower.cellEvent)))
  | .cellDisconnect => .next (hs.when (fun _ hu => hu.backupLost))
  | .chargeStart => .next (hs.when (fun _ hu => hu.setF.setF))
  | .chargeCv => .next (hs.when (fun _ hu => hu.setF))
  | .chargeEnd => .next (hs.when (fun _ hu => hu.chargeStop.setCharge))
  | .chgTemp => .next (hs.when (fun _ hu => hu.setF.cellEvent))
  | .chgTempResume => .next hs.setF
  | .cellEmpty => .next (hs.when (fun _ hu => hu.cellEmpty))
  | .cellAtRest .. => .next (hs.when (fun _ hu => hu.cellAtRest))
  | .gaugeCapWrite .. => .next (hs.viaWrite (fun _ hu => hu.setF.gaugeCap))
  | .presenceChange .. => .next hs.frame
  | .baseTemp .. => .next hs.baseTemp
  | .meterSample .. => .next hs.meterSample
  | .meterWindowEnd .. => .next hs.windowEnd
  | .noMains .. => .next hs.noMainsRaise
  | .surge .. => .next hs.surge
  | .collapse .. => .next hs.collapse
  | .totalsSave => .next hs.totalsSave
  | .saveNow => .next (hs.viaWrite (fun _ hu => hu.totalsSave))
  | .clear => .next (hs.viaWrite (fun _ hu => hu.totalsClear))
  | .arm => .next (hs.viaWrite (fun _ hu => hu.capCmdArm))
  | .armSurge => .next (hs.viaWrite (fun _ hu => hu.capCmdSurge))
  | .abort => .next (hs.viaWrite (fun _ hu => hu.capAbort))
  | .captureStart => .next hs.captureStart
  | .captureStop => .next hs.captureStop
  | .estimatePeriodEnd => .next hs.estimateEnd
  | .estDone => .next hs.estDone
  | .hopSlot .. => .next hs.hopBegin
  | .scatterEvent .. => .next hs.radReceive
  | .scatterReply .. => .next hs.radReceive
  | .scatterWake .. => .next hs.radReceive
  | .scatterJoin .. => .next hs.radReceive
  | .lbtMeasureEnd .. => .next hs.lbtEnd
  | .lbtBackoffEnd .. => .next hs.lbtAgain
  | .radioTxEnd .. => .next hs.radioTxEnd
  | .repGapExpire .. => .next hs.repGapEnd
  | .dutyWaitEnd .. => .next hs.dutyEnd
  | .dutyDrop .. => .next hs.dutyDrop
  | .urgentSlot .. => .next hs.urgentSlot
  | .scatterBeacon .. => .next hs.scatterBeacon
  | .captureLost .. => .next hs.captureLost
  | .canFieldEvent .. => .next hs.canFieldEvent
  | .canFieldReply .. => .next hs.canFieldReply
  | .canFirmwareFrame .. => .next hs.canFirmwareFrame
  | .canTxAttempt .. => .next hs.canAttempt
  | .busOff .. => .next hs.busOver
  | .canTxExpire .. => .next hs.canExpire
  | .recover .. => .next (hs.viaWrite (fun _ hu => hu.canRecover))
  | .snap .. => .next (hs.viaWrite (fun _ hu => hu.canSnap))
  | .abortTx .. => .next (hs.viaWrite (fun _ hu => hu.abortTx))
  | .canSnapshot .. => .next hs.canSnap
  | .snapCntRead .. => .next (hs.viaRead (fun _ hu => hu.canSnapRead))
  | .txRequest .. => .next (hs.viaWrite (fun _ hu => hu.txRequest))
  | .txAbort .. => execTxAbort_canon hs
  | .mailboxLock .. => .next (hs.viaRead (fun _ hu => hu.mbLock))
  | .mailboxRelease .. => .next (hs.viaRead (fun _ hu => hu.mbRelease))
  | .bulkAck .. => .next (hs.viaWrite (fun _ hu => hu.bulkAck))
  | .dioInputAccept .. => .next hs.dioAccept
  | .overload .. => .next hs.overload
  | .overloadRetry .. => .next hs.overRetry
  | .overTemp .. => .next hs.dioTrip
  | .overTempClear .. => .next hs.dioUntrip
  | .openWire .. => .next (.ite hs.dioMark.dioFault hs)
  | .openWireClear .. => .next hs.dioMark
  | .bankLow .. => .next hs.bankLow
  | .bankLowClear .. => .next hs.setFBit.dioDrive
  | .pwmPeriodStart .. => .next hs.pwmStart
  | .headroom .. => .next hs.headroom
  | .headroomClear .. => .next hs.headroomClear
  | .underCurrent .. => .next hs.underCurrent
  | .underCurrentClear .. => .next hs.underClear
  | .stringOpen .. => .next hs.stringOpen
  | .stringShort .. => .next hs.stringShort
  | .refreshFrame .. => .next hs.refreshFrame
  | .frameShifted .. => .next hs.frameShifted
  | .chainLatch .. => .next hs.chainLatch
  | .rtcSecond => .next hs.rtcSecond.backupDrain
  | .rtcTimeWrite .. => .next (hs.viaWrite (fun _ hu => hu.rtcTimeWrite))
  | .rtcDateWrite .. => .next (hs.viaWrite (fun _ hu => hu.rtcDateWrite))
  | .rtcTimeRead => .next hs.rtcTimeRead
  | .rtcAlarmWrite .. => .next (hs.viaWrite (fun _ hu => hu.rtcAlarmWrite))
  | .oscFail => .next hs.rtcLost.raise
  | .rtcTempRead .. => .next hs.rtcTemp
  | .compWindow => .next hs.compWindow
  | .align => .next (hs.viaWrite (fun _ hu => hu.rtcAlign.rtcShow))
  | .alignExecute => .next hs.alignExecute
  | .recordAccept => .next hs.recAccept
  | .flushDone => .next (hs.when (fun _ hu => hu.flushDone))
  | .recFlush => .next hs.recFlush
  | .recSelect .. => .next hs.recSelect
  | .recCopy .. => .next hs.recCopy
  | .copyDone => .next hs.copyDone
  | .appRecord .. => .next hs.appRecord
  | .logErase => .next (hs.when (fun _ hu => hu.logErase))
  | .ledgerWriteDone => .next hs.ledgerDone
  | .ledgerDataRead .. => .next hs.ledgerRead
  | .opMsSave => .next (hs.when (fun _ hu => hu.opMsSave))
  | .sign .. => .next hs.keyOp
  | .keyVerify .. => .next hs.keyOp
  | .ecdh .. => .next hs.keyOp
  | .gcmEncrypt .. => .next hs.keyOp
  | .gcmDecrypt .. => .next hs.keyOp
  | .ccmEncrypt .. => .next hs.keyOp
  | .ccmDecrypt .. => .next hs.keyOp
  | .sha256 .. => .next hs.keyOp
  | .sha384 .. => .next hs.keyOp
  | .hmacSha256 .. => .next hs.keyOp
  | .random .. => .next hs.keyOp
  | .derive .. => .next hs.keyOp
  | .generate .. => .next hs.keyOp
  | .importPub .. => .next hs.keyOp
  | .importWrapped .. => .next hs.keyOp
  | .destroy .. => .next hs.keyOp
  | .replVerify .. => .next hs.keyOp
  | .replCommit .. => .next hs.keyOp
  | .replAbort .. => .next hs.keyOp
  | .mbExtend .. => .next hs.keyOp
  | .attest .. => .next hs.keyOp
  | .keyUndefinedOp .. => .next (.ite hs.keyOp hs)
  | .keyOpDone => .next hs.opDone
  | .requestNonce => .next hs.requestNonce
  | .transition => .next hs.lcTransition
  | .transitionComplete => .next hs.lcComplete
  | .tamper .. => .next hs.tamper
  | .zeroiseClear => .next hs.zeroiseClear
  | .entropyFail .. => .next hs.entropyFail
  | .entropyRecover => .next hs.setF
  | .imageService .. => .next (hs.when (fun _ hu => hu.imageService))
  | .uartCharacter .. => .next hs.uartChar
  | .uartBreak => .next hs.uartBreak
  | .uartTxdata .. => .next (hs.viaWrite (fun _ hu => hu.uartPut))
  | .uartTxCharacter .. => .next hs.uartSend
  | .imgOpen => .next (hs.viaWrite (fun _ hu => hu.imgOpen))
  | .imgWrite => .next (hs.viaWrite (fun _ hu => hu.imgWrite))
  | .imgWriteDone => .next hs.imgWriteDone
  | .imgVerify => .next (hs.viaWrite (fun _ hu => hu.imgVerify))
  | .imgVerifyDone => .next hs.imgVerifyDone
  | .schedule => .next (hs.viaWrite (fun _ hu => hu.schedule))
  | .force => .next (hs.viaWrite (fun _ hu => hu.force))
  | .cancel => .next (hs.viaWrite (fun _ hu => hu.actCancel))
  | .imgAbort => .next (hs.viaWrite (fun _ hu => hu.imgAbort))
  | .activation => .next (hs.when (fun _ hu => hu.activation))
  | .actDeferredCheck => .next (hs.when (fun _ hu => hu.activate))
  | .actConfirm .. => .next (hs.viaWrite (fun _ hu => hu.actConfirm))
  | .actRollback => .next (hs.when (fun _ hu => hu.rollback))
  | .recovery .. => .next (hs.when (fun _ hu => .ite hu.enterRecovery hu.bootMark.bootMark.enterRecovery))
  | .recoveryBanner => .next (hs.when (fun _ hu => foldS_canon (fun _ _ hv => hv.send) hu))
  | .recoveryImage .. => .next (hs.when (fun _ hu => hu.recoveryImage))
  | .recoveryReset => .next (hs.when (fun _ _ => .recoveryFull))
  | .efwStart => .next (hs.viaWrite (fun _ hu => hu.efwStart))
  | .efwStop => .next (hs.viaWrite (fun _ hu => hu.efwStop))
  | .efwBlockSend .. => .next (hs.when (fun _ hu => .ite hu.efwRadio hu.efwRing))
  | .efwActivate => .next (hs.viaWrite (fun _ hu => hu.efwActivate))
  | .sdramTrainingLoss => .next hs.domainDown
  | .receiverAligned .. => .next hs.receiverAligned
  | .tokenParityError .. => .next hs.planeError
  | .canErrorFrame .. => .next hs.canErrorFrame
  | .protocolException .. => .next hs.protocolException
  | .busOffRecoveryDone .. => .next hs.canRecovered
  | .svcLinkUp .. => .next hs.setF.setF.raise
  | .svcLinkDown => .next (.raise (.setF (foldS_canon (fun _ _ hu => hu.macCount) hs)))
  | .scatterRxBad .. => .next hs.radBad
  | .cellEmptyClear => .next (hs.when (fun _ hu => hu.setF))

/-- Every step goes on, and keeps the arrays canonical. -/
theorem step_canon (hs : s.Canon db) : CanonNext db (step s) := by
  unfold step
  split
  · exact .next hs.idle
  · exact exec_canon _ hs.frame

/-- What an outcome with canonical arrays says of both arrays. -/
theorem CanonNext.both {o : Res} (h : CanonNext true o) :
    nextHas o (fun t => canonical fmemReset t.fmem ∧ canonical fdbDefault t.fab.fdb) :=
  let ⟨t, e, hm, hf⟩ := h
  ⟨t, e, hm, hf rfl⟩

/-- What an outcome says of field memory alone. -/
theorem CanonNext.fmem {o : Res} (h : CanonNext false o) : nextHas o (fun t => canonical fmemReset t.fmem) :=
  let ⟨t, e, hm, _⟩ := h
  ⟨t, e, hm⟩

/-- Field memory alone is canonical. -/
theorem State.Canon.ofFmem (h : canonical fmemReset s.fmem) : s.Canon false := ⟨h, nofun⟩

end Sys2Proof.Machine
end

section
open Sys2Proof Sys2Proof.Machine Sys2Proof.Safety

/-- Settles O60: every function of the model keeps the two arrays canonical, one lemma each, up to `exec` and `step`. -/
theorem canonicalForm : Obligations.CanonicalForm := by
  unfold Obligations.CanonicalForm
  refine ⟨⟨rfl, rfl⟩, fun i s hm hf => ?_, fun s hm hf => ?_, fun i s _ hm => ?_, fun a v s hm => ?_, fun c s hm => ?_,
    fun s k e p hf => ?_⟩
  · exact (exec_canon i ⟨hm, fun _ => hf⟩).both
  · exact (step_canon ⟨hm, fun _ => hf⟩).both
  · exact (exec_canon i (.ofFmem hm)).fmem
  · exact (exec_canon (.fmemWindowWrite a v) (.ofFmem hm)).fmem
  · exact ⟨(State.Canon.ofFmem hm).fmemFrom.1, (State.Canon.ofFmem hm).groupZero.1⟩
  · exact ⟨swf_sset _ _ _ _ hf, swf_filter _ _ _ hf⟩
end

section
/-! SUPPORT. Direct accesses of the register region case by case: what an aligned access of a word reaches, what a read of a reached
register does for each word of a pair and outside pairs (R10, R17), and what a write does (R10, R17, R18). -/
namespace Sys2Proof.Machine
open Sys2Proof

variable {s : State} {a : Addr} {b : Blk} {off lo : Nat} {x y : RegRow}

/-! ## How an access arrives -/

/-- R11 does not touch an aligned access of a word. -/
theorem State.regionAccess_word (w : Bool) (k : State → State) (ha : a.toNat % 4 = 0) : s.regionAccess a 4 w k = k s := by
  simp [State.regionAccess, ha]

/-- R11 ends an unaligned access of the register region, and one that is not of a word. -/
theorem State.regionAccess_misaligned {n : Nat} (w : Bool) (k : State → State) (hr : inRegion a.toNat = true)
    (h : a.toNat % 4 ≠ 0 ∨ n ≠ 4) : s.regionAccess a n w k = s.misaligned a w := by
  simp [State.regionAccess, hr, h]

theorem State.anyAccess_misaligned (s : State) {n : Nat} (w : Option (BitVec 512)) (hr : inRegion a.toNat = true)
    (h : a.toNat % 4 ≠ 0 ∨ n ≠ 4) : s.anyAccess a n w = s.misaligned a w.isSome := by
  unfold State.anyAccess
  exact State.regionAccess_misaligned _ _ hr h

/-- R11 does not touch an access outside the register region. -/
theorem State.regionAccess_outside (n : Nat) (w : Bool) (k : State → State) (hr : inRegion a.toNat = false) :
    s.regionAccess a n w k = k s := by
  simp [State.regionAccess, hr]

theorem State.busRead_reg (ht : s.target a = .reg b off) (hr : s.reaches b off false = true) :
    s.busRead a = s.regRead b off := by
  simp [State.busRead, ht, State.viaRead, hr]

theorem State.busWrite_reg (v : Word) (ht : s.target a = .reg b off) (hr : s.reaches b off true = true) :
    s.busWrite a v = s.regWrite b off v := by
  simp [State.busWrite, ht, State.viaWrite, hr]

theorem State.busRead_hole (ht : s.target a = .hole) : s.busRead a = (s.busErr E.SYS_BUS_ERR.UNMAPPED a false).answer 0 := by
  simp [State.busRead, ht]

theorem State.busWrite_hole (v : Word) (ht : s.target a = .hole) : s.busWrite a v = s.busErr E.SYS_BUS_ERR.UNMAPPED a true := by
  simp [State.busWrite, ht]

/-! ## The words of a pair -/

/-- Four bytes above the low word of a pair stands its high word. -/
theorem pairLowOf_high (h : isPairLow b lo = true) : pairLowOf b (lo + 4) = some lo := by
  simp [pairLowOf, h]

@[simp] theorem State.shadowAt_setShadow (s : State) (k : Nat) (v : Option Word) : (s.setShadow k v).shadowAt k = v :=
  sget_sset_same ..

@[simp] theorem State.heldAt_setHeld (s : State) (k : Nat) (v : Option Word) : (s.setHeld k v).heldAt k = v :=
  sget_sset_same ..

@[simp] theorem State.readData_answer (s : State) (v : Word) : (s.answer v).bus.readData = v := rfl

@[simp] theorem State.shadowAt_answer (s : State) (v : Word) (k : Nat) : (s.answer v).shadowAt k = s.shadowAt k := rfl

/-- The high word as it stands is what a read of its register shows. -/
theorem State.highWord_eq (hf : findRow b (lo + 4) = some y) :
    s.highWord b lo = readMask y (s.see b y (lo + 4)).1 := by
  simp [State.highWord, hf]

/-! ## Reads of a reached register -/

theorem State.regRead_low (hf : findRow b off = some x) (hp : isPairLow b off = true) :
    s.regRead b off = ((((s.see b x off).2.readClears b x off).setShadow (regAddr ⟨b, off⟩) (some (s.highWord b off))).answer
      (readMask x (s.see b x off).1)) := by
  simp [State.regRead, hf, hp]

theorem State.regRead_high_shadowed {h : Word} (hf : findRow b (lo + 4) = some x) (hn : isPairLow b (lo + 4) = false)
    (hp : isPairLow b lo = true) (hs : s.shadowAt (regAddr ⟨b, lo⟩) = some h) :
    s.regRead b (lo + 4) = (s.setShadow (regAddr ⟨b, lo⟩) none).answer h := by
  simp [State.regRead, hf, hn, pairLowOf_high hp, hs]

theorem State.regRead_high_current (hf : findRow b (lo + 4) = some x) (hn : isPairLow b (lo + 4) = false)
    (hp : isPairLow b lo = true) (hs : s.shadowAt (regAddr ⟨b, lo⟩) = none) :
    s.regRead b (lo + 4) = ((s.see b x (lo + 4)).2.readClears b x (lo + 4)).answer (s.highWord b lo) := by
  simp [State.regRead, hf, hn, pairLowOf_high hp, hs, State.highWord_eq hf]

theorem State.regRead_single (hf : findRow b off = some x) (hn : isPairLow b off = false) (hp : pairLowOf b off = none) :
    s.regRead b off = ((s.see b x off).2.readClears b x off).answer (readMask x (s.see b x off).1) := by
  simp [State.regRead, hf, hn, hp]

/-! ## Writes of a reached register -/

theorem State.regWrite_so (v : Word) (hf : findRow b off = some x) (hso : x.so = true) :
    s.regWrite b off v = s.soWrite ⟨b, off⟩ := by
  simp [State.regWrite, hf, hso]

theorem State.regWrite_low (v : Word) (hf : findRow b off = some x) (hso : x.so = false) (hw : x.writable = true)
    (hp : isPairLow b off = true) : s.regWrite b off v = s.setHeld (regAddr ⟨b, off⟩) (some v) := by
  simp [State.regWrite, hf, hso, hw, hp]

theorem State.regWrite_high (v : Word) (hf : findRow b (lo + 4) = some x) (hso : x.so = false) (hw : x.writable = true)
    (hn : isPairLow b (lo + 4) = false) (hp : isPairLow b lo = true) (hy : findRow b lo = some y) :
    s.regWrite b (lo + 4) v = s.pairWrite b lo ((s.heldAt (regAddr ⟨b, lo⟩)).getD (s.wordNow b y lo)) v := by
  simp [State.regWrite, hf, hso, hw, hn, pairLowOf_high hp, hy]

theorem State.regWrite_single (v : Word) (hf : findRow b off = some x) (hso : x.so = false) (hw : x.writable = true)
    (hn : isPairLow b off = false) (hp : pairLowOf b off = none) (hc : s.command b x off v = none) :
    s.regWrite b off v = s.putReg b x off (writeWord x (s.wordNow b x off) v) := by
  simp [State.regWrite, hf, hso, hw, hn, hp, hc, State.codeWrite]

/-- A register whose new word shows nowhere else and which acts on no change simply holds the word. -/
theorem State.putReg_plain {w : Word} (hsp : s.special b x off w = none) (he : ∀ t : State, State.regEffect s t b off = t) :
    s.putReg b x off w = s.wr b off w := by
  simp [State.putReg, hsp, he]

/-! ## Both words of a pair at once -/

theorem State.pairWrite_plain (l h : Word) (hb : b ≠ .fe) (hi : (⟨b, lo⟩ : Reg) ≠ R.TIME_INCR_LO.reg) :
    s.pairWrite b lo l h = ((s.setHeld (regAddr ⟨b, lo⟩) none).codeWrite b lo l).codeWrite b (lo + 4) h := by
  simp only [State.pairWrite, if_neg hi]

theorem State.pairWrite_incr (l h : Word) (hi : (⟨b, lo⟩ : Reg) = R.TIME_INCR_LO.reg) :
    s.pairWrite b lo l h = (s.setHeld (regAddr ⟨b, lo⟩) none).incrWrite (l.toNat + h.toNat % 256 * 2 ^ 32) := by
  simp only [State.pairWrite, if_pos hi]

theorem State.pairWrite_dbg (l h : Word) (hlo : lo % 0x100000 = 0x54) :
    s.pairWrite .fe lo l h = (s.setHeld (regAddr ⟨.fe, lo⟩) none).dbgWrite (lo / 0x100000) (l.toNat + h.toNat * 2 ^ 32) := by
  have hi : (⟨.fe, lo⟩ : Reg) ≠ R.TIME_INCR_LO.reg := by simp [R.TIME_INCR_LO.reg]
  simp only [State.pairWrite, if_neg hi, if_pos hlo]

/-- Both words of TIME_INCR take a value, and the low word held before is released. -/
theorem State.heldAt_setIncr (s : State) (n : Nat) : (s.setIncr n).heldAt (regAddr R.TIME_INCR_LO.reg) = none :=
  s.heldAt_setHeld (regAddr R.TIME_INCR_LO.reg) none

theorem State.heldAt_incrWrite (s : State) (n : Nat) : (s.incrWrite n).heldAt (regAddr R.TIME_INCR_LO.reg) = none :=
  State.heldAt_setIncr _ _

end Sys2Proof.Machine
end

section
open Sys2Proof Sys2Proof.Machine

/-- Settles O4: an access of a reached pair is `regRead` or `regWrite` of its word, taken case by case. -/
theorem pairAccess : Obligations.PairAccess := by
  unfold Obligations.PairAccess
  refine ⟨fun s a b off x ha ht hr hf hp => ?_, fun s a b lo x ha ht hr hf hn hp => ?_,
    fun s a b off x v ha ht hr hf hso hw hp => ?_, fun s a b lo x y v ha ht hr hf hso hw hn hp hy => ?_,
    fun s v hr => ?_, fun s n => ⟨s.heldAt_incrWrite n, s.heldAt_setIncr n⟩, fun _ _ _ => rfl⟩
  · have h : exec (.pairLowRead a) s = .next (s.regRead b off) :=
      congrArg _ ((State.regionAccess_word _ _ ha).trans (State.busRead_reg ht hr))
    rw [State.regRead_low hf hp] at h
    exact ⟨_, h, by simp, by simp⟩
  · have h : exec (.pairHighRead a) s = .next (s.regRead b (lo + 4)) :=
      congrArg _ ((State.regionAccess_word _ _ ha).trans (State.busRead_reg ht hr))
    refine ⟨fun w hs => ?_, fun hs => ⟨_, h, ?_⟩⟩
    · rw [h, State.regRead_high_shadowed hf hn hp hs]
    · rw [State.regRead_high_current hf hn hp hs, State.readData_answer]
  · have h : exec (.pairLowWrite a v) s = .next (s.regWrite b off v) :=
      congrArg _ ((State.regionAccess_word _ _ ha).trans (State.busWrite_reg v ht hr))
    exact ⟨by rw [h, State.regWrite_low v hf hso hw hp], by simp⟩
  · have h : exec (.pairHighWrite a v) s = .next (s.regWrite b (lo + 4) v) :=
      congrArg _ ((State.regionAccess_word _ _ ha).trans (State.busWrite_reg v ht hr))
    rw [h, State.regWrite_high v hf hso hw hn hp hy]
    refine ⟨fun hb hi => ?_, fun hi => ?_, fun hb hlo => ?_⟩
    · rw [State.pairWrite_plain _ _ hb hi]
    · rw [State.pairWrite_incr _ _ hi]
    · subst hb
      rw [State.pairWrite_dbg _ _ hlo]
  · show Host.Outcome.next (s.viaWrite _ _) = _
    rw [State.viaWrite, if_pos hr]

end

section
/-! SUPPORT. The bus error (R39): which of its registers change, that its flag rises, and that it changes no other part of the
state. -/
namespace Sys2Proof.Machine
open Sys2Proof

/-- The four bus errors of R39. -/
def BusErrEvt (e : Evt) : Prop :=
  e = E.SYS_BUS_ERR.ALIGN ∨ e = E.SYS_BUS_ERR.UNMAPPED ∨ e = E.SYS_BUS_ERR.BRIDGE_TO ∨ e = E.SYS_BUS_ERR.SO_WRITE

/-- Where the flag and the counter of a bus error stand. -/
theorem BusErrEvt.place {e : Evt} (h : BusErrEvt e) :
    e.blk = .sys ∧ e.off = 0x0C ∧ (e.cntOff = 0x18 ∨ e.cntOff = 0x1C) ∧ e.bit < 32 ∧ e.cntLsb ≤ 16 := by
  rcases h with rfl | rfl | rfl | rfl <;> decide

theorem State.rd_setF_ne (s : State) (x : Fld) (v : Nat) {b : Blk} {o : Nat} (d : x.blk ≠ b ∨ x.off ≠ o) :
    (s.setF x v).rd b o = s.rd b o :=
  Regs.rd_setF_ne s.regs x b o v d

theorem State.f_setR_ne (s : State) (r : Reg) (v : Word) {y : Fld} (d : r.blk ≠ y.blk ∨ r.off ≠ y.off) :
    (s.setR r v).f y = s.f y :=
  Regs.f_wr_ne s.regs r.blk r.off y v d

theorem State.rd_setR_ne (s : State) (r : Reg) (v : Word) {b : Blk} {o : Nat} (d : r.blk ≠ b ∨ r.off ≠ o) :
    (s.setR r v).rd b o = s.rd b o := by
  refine (Regs.rd_wr ..).trans (if_neg ?_)
  rintro ⟨hb, ho⟩
  exact d.elim (· hb) (· ho)

/-- An event changes the words of its flag and of its counter alone. -/
theorem State.rd_raise_ne (s : State) (e : Evt) {b : Blk} {o : Nat} (hf : e.blk ≠ b ∨ e.off ≠ o)
    (hc : e.blk ≠ b ∨ e.cntOff ≠ o) : (s.raise e).rd b o = s.rd b o := by
  unfold State.raise
  rw [State.rd_setF_ne _ _ _ hc, State.rd_setF_ne _ _ _ hf]

/-- A bus error is its event, and the capture when no flag was set before. -/
theorem State.busErr_cases (s : State) (e : Evt) (a : Addr) (w : Bool) :
    s.busErr e a w = s.raise e ∨
    s.busErr e a w = (((s.raise e).setR R.SYS_BUS_ERR_ADDR_LO.reg (w32 a.toNat)).setF R.SYS_BUS_ERR_ADDR_HI.ADDR
      (a.toNat / 4294967296)).setF R.SYS_BUS_ERR_ADDR_HI.WRITE (b2n w) := by
  by_cases h : (getBits (s.r R.SYS_BUS_ERR.reg) 0 4 == 0) = true
  · exact .inr (if_pos h)
  · exact .inl (if_neg h)

/-- Registers apart from the flags, the capture and the counters keep their words. -/
theorem State.rd_busErr_ne (s : State) {e : Evt} (he : BusErrEvt e) (a : Addr) (w : Bool) {b : Blk} {o : Nat}
    (h : b ≠ .sys ∨ o ∉ [0x0C, 0x10, 0x14, 0x18, 0x1C]) : (s.busErr e a w).rd b o = s.rd b o := by
  obtain ⟨hb, hoff, hcnt, _, _⟩ := he.place
  have apart {p : Nat} (hp : p ∈ [0x0C, 0x10, 0x14, 0x18, 0x1C]) : Blk.sys ≠ b ∨ p ≠ o :=
    h.imp Ne.symm (fun ho hpo => ho (hpo ▸ hp))
  have raised : (s.raise e).rd b o = s.rd b o := by
    refine State.rd_raise_ne s e ?_ ?_
    · rw [hb, hoff]
      exact apart (by decide)
    · rw [hb]
      rcases hcnt with hc | hc <;> rw [hc] <;> exact apart (by decide)
  rcases s.busErr_cases e a w with h' | h' <;> rw [h']
  · exact raised
  · rw [State.rd_setF_ne _ _ _ (apart (by decide)), State.rd_setF_ne _ _ _ (apart (by decide)),
      State.rd_setR_ne _ _ _ (apart (by decide)), raised]

/-- The flag of a bus error is set after it. -/
theorem State.flag_busErr (s : State) {e : Evt} (he : BusErrEvt e) (a : Addr) (w : Bool) : (s.busErr e a w).flag e = true := by
  obtain ⟨hb, hoff, hcnt, hbit, hlsb⟩ := he.place
  have raised : (s.raise e).flag e = true := State.flag_raise s e hbit hlsb (.inl (by omega))
  rcases s.busErr_cases e a w with h' | h' <;> rw [h']
  · exact raised
  · have hi (x : Fld) (hx : x.off = 0x14) : x.apart ⟨e.blk, e.off, e.bit, 1⟩ := .inr (.inl (by simp [hx, hoff]))
    simp only [State.flag, State.on] at raised ⊢
    rw [State.f_setF_ne _ _ _ _ (by decide) (hi _ rfl), State.f_setF_ne _ _ _ _ (by decide) (hi _ rfl),
      State.f_setR_ne _ _ _ (.inr (by simp [hoff, R.SYS_BUS_ERR_ADDR_LO.reg])), raised]

/-- A bus error changes registers alone. -/
theorem State.busErr_frame (s : State) (e : Evt) (a : Addr) (w : Bool) : { s.busErr e a w with regs := s.regs } = s := by
  rcases s.busErr_cases e a w with h | h <;> rw [h] <;> rfl

end Sys2Proof.Machine
end

section
open Sys2Proof Sys2Proof.Machine

/-- Settles O2: each of the three accesses is the bus error by the way it arrives, and the bus error has the effect of R39. -/
theorem busErrorAccess : Obligations.BusErrorAccess := by
  unfold Obligations.BusErrorAccess
  refine ⟨fun s a n w hr h => ?_, fun s a w v hr ha ht => ?_, fun s a v b off x ha ht hr hf hso => ?_, fun s a w e he =>
    ⟨s.flag_busErr he a w, rfl, fun _ _ h => s.rd_busErr_ne he a w h, s.busErr_frame e a w⟩⟩
  · exact congrArg _ (s.anyAccess_misaligned w hr h)
  · refine congrArg _ ((State.regionAccess_word _ _ ha).trans ?_)
    cases w with
    | false => simp only [ht]; exact State.busRead_hole ht
    | true => simp only [ht]; exact State.busWrite_hole v ht
  · exact congrArg _ ((State.regionAccess_word _ _ ha).trans
      ((State.busWrite_reg v ht hr).trans (State.regWrite_so v hf hso)))

end

section
/-! SUPPORT. What a write leaves in a field, by its access code (R10). -/
namespace Sys2Proof.Machine
open Sys2Proof

/-- A number that fits a field reads back from it. -/
theorem getBits_setBits_fit (w : Word) {l m v : Nat} (hl : l ≤ m) (hm : m < 32) (hv : v < 2 ^ (m - l + 1)) :
    getBits (setBits w l (m - l + 1) v) l (m - l + 1) = v :=
  (getBits_setBits_same _ _ _ _ (by omega)).trans (Nat.mod_eq_of_lt hv)

theorem getBits_writeField_rw (v w : Word) {l m : Nat} (r : Nat) (hl : l ≤ m) (hm : m < 32) :
    getBits (writeField v w ⟨m, l, .rw, r⟩) l (m - l + 1) = getBits v l (m - l + 1) :=
  getBits_setBits_fit w hl hm (getBits_lt ..)

theorem getBits_writeField_w1s (v w : Word) {l m : Nat} (r : Nat) (hl : l ≤ m) (hm : m < 32) :
    getBits (writeField v w ⟨m, l, .w1s, r⟩) l (m - l + 1) = getBits w l (m - l + 1) ||| getBits v l (m - l + 1) :=
  getBits_setBits_fit w hl hm (Nat.or_lt_two_pow (getBits_lt ..) (getBits_lt ..))

theorem getBits_writeField_w1c (v w : Word) {l m : Nat} (r : Nat) (hl : l ≤ m) (hm : m < 32) :
    getBits (writeField v w ⟨m, l, .w1c, r⟩) l (m - l + 1) =
      getBits w l (m - l + 1) - (getBits w l (m - l + 1) &&& getBits v l (m - l + 1)) :=
  getBits_setBits_fit w hl hm (Nat.lt_of_le_of_lt (Nat.sub_le ..) (getBits_lt ..))

end Sys2Proof.Machine
end

section
open Sys2Proof Sys2Proof.Machine

/-- Settles O5: a reached register outside the pairs, and each access code by what it leaves in a field. -/
theorem accessCodes : Obligations.AccessCodes := by
  unfold Obligations.AccessCodes
  refine ⟨fun s a v b off x ha ht hr hf hso hw hn hp hc => ?_, fun s a b off x ha ht hr hf hn hp => ?_,
    fun w v l n m r hl hm hn => ?_⟩
  · have h : exec (.registerWrite a v) s = .next (s.putReg b x off (writeWord x (s.wordNow b x off) v)) :=
      congrArg _ ((State.regionAccess_word _ _ ha).trans
        ((State.busWrite_reg v ht hr).trans (State.regWrite_single v hf hso hw hn hp hc)))
    exact ⟨h, fun hsp he => by rw [h, State.putReg_plain hsp he]⟩
  · exact congrArg _ ((State.regionAccess_word _ _ ha).trans
      ((State.busRead_reg ht hr).trans (State.regRead_single hf hn hp)))
  · subst hn
    exact ⟨getBits_writeField_rw v w r hl hm, getBits_writeField_w1s v w r hl hm, getBits_writeField_w1c v w r hl hm,
      rfl, rfl, rfl⟩

end

section
/-! SUPPORT. The memories of the control space (R36) and the FMEM window (R26): what an access outside the register region reaches,
which bytes a store changes, and what an accepted write through the window leaves alone. -/
namespace Sys2Proof.Machine
open Sys2Proof

variable {s : State} {a : Addr} {n o z core off : Nat} {write : Bool} {l : List Byte}

/-! ## Bytes in a memory -/

/-- Bytes stored one after another from a key on are read from there, and every other key keeps its byte. -/
theorem sget_foldl_sset (l : List Byte) (m : Store Byte) (o i k : Nat) :
    sget sdramByte ((l.zipIdx i).foldl (fun m b => sset sdramByte m (o + b.2) b.1) m) k =
      if o + i ≤ k ∧ k < o + i + l.length then l.getD (k - (o + i)) 0 else sget sdramByte m k := by
  induction l generalizing m i with
  | nil => exact (if_neg (by simp)).symm
  | cons b r ih =>
    rw [List.zipIdx_cons, List.foldl_cons, ih, sget_sset, List.length_cons]
    rcases Nat.lt_trichotomy k (o + i) with h | h | h
    · rw [if_neg (by omega), if_neg (by omega), if_neg (by omega)]
    · subst h
      rw [if_neg (by omega), if_pos rfl, if_pos (by omega), Nat.sub_self, List.getD_cons_zero]
    · obtain ⟨j, rfl⟩ : ∃ j, k = o + i + (j + 1) := ⟨k - (o + i) - 1, by omega⟩
      have h1 : o + i + (j + 1) - (o + (i + 1)) = j := by omega
      have h2 : o + i + (j + 1) - (o + i) = j + 1 := by omega
      rw [h1, h2, List.getD_cons_succ, if_neg (show o + i + (j + 1) ≠ o + i by omega)]
      exact if_congr (by omega) rfl rfl

/-- The bytes of a number, lowest first. -/
theorem leBytes_getD {j : Nat} (v : Nat) (h : j < n) : (leBytes n v).getD j 0 = BitVec.ofNat 8 (v / 2 ^ (8 * j)) := by
  induction j generalizing n v with
  | zero =>
    obtain ⟨n, rfl⟩ := Nat.exists_eq_succ_of_ne_zero (Nat.ne_of_gt h)
    simp [leBytes]
  | succ j ih =>
    obtain ⟨n, rfl⟩ := Nat.exists_eq_succ_of_ne_zero (Nat.ne_of_gt (Nat.zero_lt_of_lt h))
    have hd : v / 256 / 2 ^ (8 * j) = v / 2 ^ (8 * (j + 1)) := by
      rw [Nat.div_div_eq_div_mul, Nat.mul_add, Nat.pow_add, Nat.mul_comm]
    rw [leBytes, List.getD_cons_succ, ih _ (Nat.lt_of_succ_lt_succ h), hd]

/-- What each byte of the SDRAM is after a store of a number. -/
theorem State.sdram_memStore (s : State) (o n v k : Nat) :
    sget sdramByte (s.memStore true o ((leBytes n v).take n)).bus.sdram k =
      if o ≤ k ∧ k < o + n then BitVec.ofNat 8 (v / 2 ^ (8 * (k - o))) else sget sdramByte s.bus.sdram k := by
  refine (sget_foldl_sset _ _ o 0 k).trans ?_
  rw [List.take_of_length_le (by simp), leBytes_length, Nat.add_zero]
  by_cases h : o ≤ k ∧ k < o + n
  · rw [if_pos h, if_pos h, leBytes_getD _ (by omega)]
  · rw [if_neg h, if_neg h]

/-- What each byte of the SRAM is after a store of a number. -/
theorem State.sram_memStore (s : State) (o n v k : Nat) :
    sget sdramByte (s.memStore false o ((leBytes n v).take n)).bus.sram k =
      if o ≤ k ∧ k < o + n then BitVec.ofNat 8 (v / 2 ^ (8 * (k - o))) else sget sdramByte s.bus.sram k :=
  State.sdram_memStore { s with bus := { s.bus with sdram := s.bus.sram } } o n v k

/-! ## What an access reaches -/

/-- Outside the register region an access of a width of R36 is one to the memories. -/
theorem State.anyAccess_outside (s : State) (w : Option (BitVec 512)) (hr : inRegion a.toNat = false) (hn : memWidth n = true) :
    s.anyAccess a n w = s.memAccess 0 a n w.isSome (leBytes n (w.getD 0).toNat) := by
  unfold State.anyAccess
  rw [State.regionAccess_outside _ _ _ hr]
  simp [hr, hn]

theorem State.memAccess_sdram (ht : s.target a = .sdram o) (hz : s.target (BitVec.ofNat 40 (a.toNat + n - 1)) = .sdram z) :
    s.memAccess core a n write l = if write then s.memStore true o (l.take n) else s.memRead s.bus.sdram o n := by
  simp [State.memAccess, ht, hz]

theorem State.memAccess_sram (ht : s.target a = .sram o) (hz : s.target (BitVec.ofNat 40 (a.toNat + n - 1)) = .sram z) :
    s.memAccess core a n write l = if write then s.memStore false o (l.take n) else s.memRead s.bus.sram o n := by
  simp [State.memAccess, ht, hz]

/-- A bus error leaves the memories alone. -/
theorem State.busErr_fmem (s : State) (e : Evt) (a : Addr) (w : Bool) : (s.busErr e a w).fmem = s.fmem := by
  have h := congrArg State.fmem (s.busErr_frame e a w)
  exact h

theorem State.busErr_bus (s : State) (e : Evt) (a : Addr) (w : Bool) : (s.busErr e a w).bus = s.bus := by
  have h := congrArg State.bus (s.busErr_frame e a w)
  exact h

theorem State.noMem_fmem (s : State) (core : Nat) (a : Addr) (w : Bool) : (s.noMem core a w).fmem = s.fmem :=
  s.busErr_fmem ..

/-- An access that no memory decodes leaves the bus alone, but for the fault in the core. -/
theorem State.noMem_bus (s : State) (core : Nat) (a : Addr) (w : Bool) :
    (s.noMem core a w).bus = { s.bus with coreFault := some (core, a.toNat, w) } :=
  congrArg (fun m : Bus => { m with coreFault := some (core, a.toNat, w) }) (s.busErr_bus ..)

theorem execUnmappedMemoryAccess_noMemory (w : Bool) (ht : s.target a = .noMemory) :
    execUnmappedMemoryAccess core a w s = .next (s.noMem core a w) := by
  simp only [execUnmappedMemoryAccess, ht]

theorem execBootRomStore_bootRom (ht : s.target a = .bootRom off) : execBootRomStore core a s = .next (s.romStore core a) := by
  simp only [execBootRomStore, ht]

/-! ## The FMEM window -/

/-- Whether R26 discards a write through the window at an offset. -/
def State.windowClosed (s : State) (off : Nat) : Prop :=
  (0x1800000 ≤ off ∧ off < 0x1804000) ∨ (off < 0x2000000 ∧ s.anyEngine = true)

theorem State.fmemWrite_closed (v : Word) (h : s.windowClosed off) :
    s.fmemWrite a off v = s.busErr E.SYS_BUS_ERR.SO_WRITE a true := by
  unfold State.fmemWrite
  exact if_pos (by simpa [State.windowClosed] using h)

theorem State.fmemWrite_open (v : Word) (h : ¬ s.windowClosed off) : s.fmemWrite a off v = s.fmemStore off v := by
  unfold State.fmemWrite
  exact if_neg (by simpa [State.windowClosed] using h)

/-- A bit of a group lies in one byte. -/
theorem State.fbyte_setGrpBit_ne (s : State) {g i k : Nat} (v : Bool) (h : k ≠ grpBase g + i / 8) :
    (s.setGrpBit g i v).fbyte k = s.fbyte k := by
  simp only [State.setGrpBit, State.fbyte_setFByte, if_neg h]

/-- The bit of an endpoint in group 0 lies in the bytes of group 0. -/
theorem grpBase_zero_range {off : Nat} (h : off < 0x1000000) :
    0x1800000 ≤ grpBase 0 + off / 128 / 8 ∧ grpBase 0 + off / 128 / 8 < 0x1804000 := by
  unfold grpBase
  omega

theorem State.rd_ghostBind_ne (s : State) (e : Eui) {b : Blk} {o : Nat} (h : b ≠ .sys ∨ o ≠ R.SYS_GHOST_USED.reg.off) :
    (s.ghostBind e).rd b o = s.rd b o :=
  State.rd_setF_ne _ _ _ (h.imp Ne.symm Ne.symm)

/-- What an accepted write through the window is: its word, and within the endpoint table the unit's bit of group 0 and, where
it binds a unit, the ghost list. -/
theorem State.fmemStore_cases (s : State) (off : Nat) (v : Word) :
    s.fmemStore off v = s.setFWord off v ∨
    (off < 0x1000000 ∧ ∃ (x : Bool) (e : Eui), s.fmemStore off v = (s.setFWord off v).setGrpBit 0 (off / 128) x ∨
      s.fmemStore off v = ((s.setFWord off v).setGrpBit 0 (off / 128) x).ghostBind e) := by
  by_cases h : off < 0x1000000
  · simp only [State.fmemStore, if_pos h]
    split
    · exact .inr ⟨h, _, _, .inr rfl⟩
    · exact .inr ⟨h, _, 0, .inl rfl⟩
  · exact .inl (if_neg h)

/-- The field memory after an accepted write is that of its word, but for group 0 when it lies in the endpoint table. -/
theorem State.fbyte_fmemStore (s : State) (off : Nat) (v : Word) {k : Nat}
    (h : off < 0x1000000 → ¬ (0x1800000 ≤ k ∧ k < 0x1804000)) : (s.fmemStore off v).fbyte k = (s.setFWord off v).fbyte k := by
  rcases s.fmemStore_cases off v with e | ⟨hoff, x, u, e | e⟩
  · rw [e]
  all_goals
    have hk : k ≠ grpBase 0 + off / 128 / 8 := fun hk => h hoff (hk ▸ grpBase_zero_range hoff)
    rw [e]
    exact State.fbyte_setGrpBit_ne _ x hk

theorem State.fword_fmemStore (s : State) (off : Nat) (v : Word) : (s.fmemStore off v).fword off = v := by
  have h (i : Nat) (hi : i < 4) : (s.fmemStore off v).fbyte (off + i) = (s.setFWord off v).fbyte (off + i) :=
    s.fbyte_fmemStore off v (fun _ => by omega)
  refine Eq.trans ?_ (State.fword_setFWord_same s off v)
  have h0 := h 0 (by decide)
  rw [Nat.add_zero] at h0
  simp only [State.fword, h0, h 1 (by decide), h 2 (by decide), h 3 (by decide)]

/-- An accepted write through the window changes no register but SYS_GHOST_USED. -/
theorem State.rd_fmemStore_ne (s : State) (off : Nat) (v : Word) {b : Blk} {o : Nat}
    (h : b ≠ .sys ∨ o ≠ R.SYS_GHOST_USED.reg.off) : (s.fmemStore off v).rd b o = s.rd b o := by
  rcases s.fmemStore_cases off v with e | ⟨-, x, u, e | e⟩ <;> rw [e]
  · rfl
  · rfl
  · exact State.rd_ghostBind_ne _ u h

end Sys2Proof.Machine
end

section
open Sys2Proof Sys2Proof.Machine

/-- Settles O6: an access outside the register region is one to the memories, and one through the FMEM window is discarded or
stored. -/
theorem memoryAccess : Obligations.MemoryAccess := by
  unfold Obligations.MemoryAccess
  refine ⟨fun s a n d o hr hn => ?_, fun s core a w ht => ?_, fun s core a off ht => ?_, fun s w v h => ?_, fun s w v hg he => ?_⟩
  · have hw : memWidth n = true := by
      simp only [List.mem_cons, List.not_mem_nil, or_false] at hn
      simpa [memWidth, or_assoc] using hn
    have access (w : Option (BitVec 512)) : exec (.unalignedAccess a n w) s =
        .next (s.memAccess 0 a n w.isSome (leBytes n (w.getD 0).toNat)) := congrArg _ (s.anyAccess_outside w hr hw)
    refine ⟨fun ht hz => ?_, fun ht hz => ?_⟩
    · simp only [State.memAccess_sdram ht hz] at access
      exact ⟨⟨_, access (some d), rfl, rfl, rfl, s.sdram_memStore o n d.toNat⟩, _, access none, rfl, rfl, rfl, rfl, rfl⟩
    · simp only [State.memAccess_sram ht hz] at access
      exact ⟨⟨_, access (some d), rfl, rfl, rfl, s.sram_memStore o n d.toNat⟩, _, access none, rfl, rfl, rfl, rfl, rfl⟩
  · refine ⟨_, execUnmappedMemoryAccess_noMemory w ht, rfl, s.flag_busErr (.inr (.inl rfl)) a w, s.noMem_fmem .., ?_, ?_⟩ <;> rw [s.noMem_bus]
  · exact execBootRomStore_bootRom ht
  · exact congrArg _ (State.fmemWrite_closed v h)
  · have h : exec (.fmemWindowWrite w v) s = .next (s.fmemStore (4 * w.toNat) v) :=
      congrArg _ (State.fmemWrite_open v (fun hc => hc.elim hg he))
    refine ⟨_, h, s.fword_fmemStore _ v, fun a ha hna => ?_, fun b o hb => s.rd_fmemStore_ne _ v hb⟩
    rw [s.fbyte_fmemStore _ v (fun _ => hna), State.fbyte_setFWord_ne _ _ _ _ ha]

end

section
/-! SUPPORT. What a bus error captures and when (R39). -/
namespace Sys2Proof.Machine
open Sys2Proof

/-- With no flag set before, a bus error is its event and the capture of its address and access type. -/
theorem State.busErr_of_flags_clear (s : State) (e : Evt) (a : Addr) (w : Bool)
    (h : getBits (s.r R.SYS_BUS_ERR.reg) 0 4 = 0) :
    s.busErr e a w = (((s.raise e).setR R.SYS_BUS_ERR_ADDR_LO.reg (w32 a.toNat)).setF R.SYS_BUS_ERR_ADDR_HI.ADDR
      (a.toNat / 2 ^ 32)).setF R.SYS_BUS_ERR_ADDR_HI.WRITE (b2n w) :=
  if_pos (beq_iff_eq.mpr h)

/-- With a flag set before, a bus error is its event alone. -/
theorem State.busErr_of_flag_set (s : State) (e : Evt) (a : Addr) (w : Bool)
    (h : getBits (s.r R.SYS_BUS_ERR.reg) 0 4 ≠ 0) : s.busErr e a w = s.raise e :=
  if_neg (by simpa using h)

/-- The event of a bus error changes no word of the block but that of the flags and those of the counters. -/
theorem BusErrEvt.rd_raise {e : Evt} (he : BusErrEvt e) (s : State) {o : Nat} (ho : o ∉ [0x0C, 0x18, 0x1C]) :
    (s.raise e).rd .sys o = s.rd .sys o := by
  obtain ⟨-, hoff, hcnt, -, -⟩ := he.place
  simp only [List.mem_cons, List.not_mem_nil, or_false, not_or] at ho
  exact State.rd_raise_ne s e (.inr (by omega)) (.inr (by omega))

theorem State.r_setR_same (s : State) (x : Reg) (v : Word) : (s.setR x v).r x = v := Regs.rd_wr_same ..

/-- A field reads a number that it can hold as it was put in. -/
theorem State.f_setF_fit (s : State) {x : Fld} {v : Nat} (h : x.fits) (hv : v < 2 ^ x.width) : (s.setF x v).f x = v :=
  (s.f_setF_same x v h).trans (Nat.mod_eq_of_lt hv)

end Sys2Proof.Machine
end

section
open Sys2Proof Sys2Proof.Machine

/-- Settles O3: the capture is written after the flag, and without it the event leaves both registers of the capture alone. -/
theorem busErrorCapture : Obligations.BusErrorCapture := by
  unfold Obligations.BusErrorCapture
  refine fun s a w e he => ⟨fun hclear => ?_, fun hset => ?_⟩
  · rw [s.busErr_of_flags_clear e a w hclear]
    refine ⟨?_, ?_, ?_⟩
    · rw [State.r, State.rd_setF_ne _ _ _ (.inr (by decide)), State.rd_setF_ne _ _ _ (.inr (by decide)), ← State.r,
        State.r_setR_same]
      exact BitVec.ofNat_toNat 32 a
    · have high : a.toNat / 2 ^ 32 < 2 ^ 8 := by omega
      rw [State.f_setF_ne _ _ _ _ (by decide) (.inr (.inr (by decide)))]
      exact State.f_setF_fit _ (by decide) high
    · exact State.f_setF_fit _ (by decide) (Nat.lt_succ_of_le (b2n_le w))
  · rw [s.busErr_of_flag_set e a w hset]
    exact ⟨BusErrEvt.rd_raise he s (by decide), BusErrEvt.rd_raise he s (by decide)⟩

/-- Settles O1: `step` is a match on the queue. -/
theorem stepRunsFront : Obligations.StepRunsFront := by
  unfold Obligations.StepRunsFront
  refine ⟨fun c s cs => rfl, fun s hempty => ?_⟩
  rw [step, hempty]

end

section
/-! SUPPORT. The clocks and the bits of the domains (R40), and an access that its bridge ends (R30). -/
namespace Sys2Proof.Machine
open Sys2Proof

/-! ## Clocks -/

/-- A started clock runs and a stopped one does not. -/
@[simp] theorem State.clockOn_setClock_same (s : State) (d : Nat) (v : Bool) : (s.setClock d v).clockOn d = v := by
  cases v with
  | true => simp [State.setClock, State.clockOn]
  | false => simpa [State.setClock, State.clockOn] using sub_two_pow_testBit s.bus.clocks (d - 1) (d - 1)

@[simp] theorem State.domainOk_setClock (s : State) (d e : Nat) (v : Bool) : (s.setClock d v).domainOk e = s.domainOk e := rfl

@[simp] theorem State.setClock_rcd (s : State) (d : Nat) (v : Bool) : (s.setClock d v).rcd = s.rcd := rfl

/-- The bit of a domain shows no clock by itself. -/
@[simp] theorem State.clockOn_setDomain (s : State) (d e : Nat) (v : Bool) : (s.setDomain d v).clockOn e = s.clockOn e := by
  simp only [State.clockOn, State.setDomain_bus]

/-! ## The loss of a domain -/

theorem State.domainDown_up {s : State} {d : Nat} (h : s.domainOk d = true) : s.domainDown d = s.domainLost d := if_pos h

theorem State.domainDown_down {s : State} {d : Nat} (h : s.domainOk d = false) : s.domainDown d = s :=
  if_neg (Bool.eq_false_iff.mp h)

/-- A loss clears the bit of its domain and no other. -/
theorem State.domainOk_domainDown (s : State) {d e : Nat} (hd : 1 ≤ d ∧ d ≤ 18) (he : 1 ≤ e ∧ e ≤ 18) :
    (s.domainDown d).domainOk e = if e = d then false else s.domainOk e := by
  cases h : s.domainOk d with
  | true =>
    rw [State.domainDown_up h]
    exact s.domainOk_setDomain d e false hd.1 hd.2 he.1 he.2
  | false =>
    rw [State.domainDown_down h]
    split
    · next hed => rw [hed, h]
    · rfl

@[simp] theorem State.domainDown_bus (s : State) (d : Nat) : (s.domainDown d).bus = s.bus :=
  s.when_keeps State.bus _ _ (s.setDomain_bus d false)

/-- The record of DOMAIN_LOSS stands after the records offered before. -/
theorem State.domainDown_offered {s : State} {d : Nat} (h : s.domainOk d = true) :
    (s.domainDown d).rcd.offered = s.rcd.offered ++ [⟨0x0101, 2, d, [0]⟩] := by
  rw [State.domainDown_up h, State.domainLost, State.record_offered, State.setDomain_rcd]

/-- A loss changes no flag outside SYS_DOMAIN_OK. -/
theorem State.flag_domainDown (s : State) (d : Nat) {e : Evt} (h : e.off ≠ 0x20) : (s.domainDown d).flag e = s.flag e :=
  s.when_keeps (·.flag e) _ _
    (congrArg (· != 0) (s.f_setF_ne R.SYS_DOMAIN_OK.OK ⟨e.blk, e.off, e.bit, 1⟩ _ (by decide) (.inr (.inl h.symm))))

/-! ## An access that its bridge ends -/

/-- A bus error changes the bit of no domain. -/
theorem State.domainOk_busErr (s : State) {e : Evt} (he : BusErrEvt e) (a : Addr) (w : Bool) (d : Nat) :
    (s.busErr e a w).domainOk d = s.domainOk d :=
  congrArg (fun v : Word => (getBits v 0 18).testBit (d - 1)) (s.rd_busErr_ne he a w (.inr (by decide)))

theorem State.busErr_rcd (s : State) (e : Evt) (a : Addr) (w : Bool) : (s.busErr e a w).rcd = s.rcd := by
  have h := congrArg State.rcd (s.busErr_frame e a w)
  exact h

theorem busErrEvt_bridgeTo : BusErrEvt E.SYS_BUS_ERR.BRIDGE_TO := .inr (.inr (.inl rfl))

/-- What R30 does before it clears the domain's bit: the bus error, and the answer of 0 to a read. -/
def State.bridgeErr (s : State) (a : Addr) (w : Bool) : State := (s.busErr E.SYS_BUS_ERR.BRIDGE_TO a w).noData w

theorem State.bridgeErr_domainOk (s : State) (a : Addr) (w : Bool) (d : Nat) :
    (s.bridgeErr a w).domainOk d = s.domainOk d := by
  cases w <;> exact s.domainOk_busErr busErrEvt_bridgeTo a _ d

theorem State.bridgeErr_rcd (s : State) (a : Addr) (w : Bool) : (s.bridgeErr a w).rcd = s.rcd := by
  cases w <;> exact s.busErr_rcd ..

theorem State.bridgeErr_flag (s : State) (a : Addr) (w : Bool) : (s.bridgeErr a w).flag E.SYS_BUS_ERR.BRIDGE_TO = true := by
  cases w <;> exact s.flag_busErr busErrEvt_bridgeTo a _

theorem State.bridgeErr_readData (s : State) (a : Addr) : (s.bridgeErr a false).bus.readData = 0 := rfl

/-- An access ended by R30 is its error and the loss of the domain. -/
theorem State.bridgeTo_eq (s : State) (d : Nat) (a : Addr) (w : Bool) :
    s.bridgeTo d a w = (s.bridgeErr a w).domainDown d := by
  rw [State.domainDown, s.bridgeErr_domainOk]
  rfl

theorem execBridgeTimeout_crossing {s : State} {a : Addr} {d : Nat} (w : Bool) (h : s.bridgeOf a = some d) :
    execBridgeTimeout a w s = .next ((s.bridgeErr a w).domainDown d) := by
  rw [execBridgeTimeout, h, ← State.bridgeTo_eq]

/-- A domain other than D12 comes up with its clock and its bit (R40). -/
theorem execDomainUp_of_ne (s : State) {d : Fin 18} (h : d.val ≠ 11) :
    execDomainUp d s = .next ((s.setClock (d + 1) true).setDomain (d + 1) true) :=
  congrArg _ (if_pos (by simpa using h))

end Sys2Proof.Machine
end

section
open Sys2Proof Sys2Proof.Machine

/-- Settles O7: an access that its bridge ends, a stopped clock and a loss of training each end in `domainDown`, by what it does
to a domain whose bit was 1 and to one whose bit was 0. -/
theorem domains : Obligations.Domains := by
  unfold Obligations.Domains
  refine ⟨fun s a w d hb h1 h18 => ?_, fun s d hd => ?_, fun s d => ?_, fun s h => ?_⟩
  · have ok : (s.bridgeErr a w).domainOk d = s.domainOk d := s.bridgeErr_domainOk a w d
    refine ⟨_, execBridgeTimeout_crossing w hb, ?_, ?_, fun hw => ?_, fun hup => ?_, fun hdown => ?_⟩
    · rw [State.flag_domainDown _ d (by decide), s.bridgeErr_flag]
    · rw [State.domainOk_domainDown _ ⟨h1, h18⟩ ⟨h1, h18⟩, if_pos rfl]
    · rw [hw, State.domainDown_bus, s.bridgeErr_readData]
    · rw [State.domainDown_offered (ok.trans hup), s.bridgeErr_rcd]
    · rw [State.domainDown_down (ok.trans hdown), s.bridgeErr_rcd]
  · have range : 1 ≤ d.val + 1 ∧ d.val + 1 ≤ 18 := ⟨by omega, by omega⟩
    have bit (e : Nat) (h1 : 1 ≤ e) (h18 : e ≤ 18) :=
      (s.setClock (d + 1) true).domainOk_setDomain (d + 1) e true range.1 range.2 h1 h18
    refine ⟨_, execDomainUp_of_ne s hd, ?_, ?_, fun e h1 h18 hne => ?_, ?_⟩
    · rw [bit _ range.1 range.2, if_pos rfl]
    · rw [State.clockOn_setDomain, State.clockOn_setClock_same]
    · rw [bit e h1 h18, if_neg hne, State.domainOk_setClock]
    · rw [State.setDomain_rcd, State.setClock_rcd]
  · have range : 1 ≤ d.val + 1 ∧ d.val + 1 ≤ 18 := ⟨by omega, by omega⟩
    refine ⟨(s.setClock (d + 1) false).domainDown (d + 1), rfl, ?_, ?_, fun hup => ?_, fun e h1 h18 hne => ?_⟩
    · rw [State.domainOk_domainDown _ range range, if_pos rfl]
    · rw [State.clockOn, State.domainDown_bus, ← State.clockOn, State.clockOn_setClock_same]
    · rw [State.domainDown_offered ((s.domainOk_setClock ..).trans hup), State.setClock_rcd]
    · rw [State.domainOk_domainDown _ range ⟨h1, h18⟩, if_neg hne, State.domainOk_setClock]
  · exact congrArg _ (State.domainDown_up h)

end

section
/-! SUPPORT. The physical engines: what each update of one leaves alone, the retirement of an instruction (R84–R87) and a halt at a
breakpoint or watchpoint (R68). -/
namespace Sys2Proof.Machine
open Sys2Proof

/-! ## The engines as a map -/

theorem State.eng_setEng (s : State) (p q : Nat) (e : Engine) : (s.setEng p e).eng q = if q = p then e else s.eng q :=
  sget_sset ..

theorem State.eng_modEng (s : State) (p q : Nat) (f : Engine → Engine) :
    (s.modEng p f).eng q = if q = p then f (s.eng p) else s.eng q :=
  s.eng_setEng p q _

@[simp] theorem State.eng_modEng_same (s : State) (p : Nat) (f : Engine → Engine) : (s.modEng p f).eng p = f (s.eng p) :=
  sget_sset_same ..

theorem State.eng_modEng_ne (s : State) {p q : Nat} (f : Engine → Engine) (h : q ≠ p) : (s.modEng p f).eng q = s.eng q :=
  sget_sset_ne _ _ _ _ _ h

/-- A change of an engine is a change of the engines' part of the state, and there of nothing but the engines. -/
theorem State.modEng_frame (s : State) (p : Nat) (f : Engine → Engine) : { s.modEng p f with fe := s.fe } = s := rfl

@[simp] theorem State.modEng_regs (s : State) (p : Nat) (f : Engine → Engine) : (s.modEng p f).regs = s.regs := rfl
@[simp] theorem State.modEng_lists (s : State) (p : Nat) (f : Engine → Engine) : (s.modEng p f).fe.lists = s.fe.lists := rfl
@[simp] theorem State.modEng_images (s : State) (p : Nat) (f : Engine → Engine) : (s.modEng p f).fe.images = s.fe.images := rfl
@[simp] theorem State.rd_modEng (s : State) (p : Nat) (f : Engine → Engine) (b : Blk) (o : Nat) :
    (s.modEng p f).rd b o = s.rd b o := rfl
@[simp] theorem State.f_modEng (s : State) (p : Nat) (f : Engine → Engine) (x : Fld) : (s.modEng p f).f x = s.f x := rfl
@[simp] theorem State.on_modEng (s : State) (p : Nat) (f : Engine → Engine) (x : Fld) : (s.modEng p f).on x = s.on x := rfl
@[simp] theorem State.pc_modEng (s : State) (p q : Nat) (f : Engine → Engine) : (s.modEng p f).pc q = s.pc q := rfl
@[simp] theorem State.engState_modEng (s : State) (p q : Nat) (f : Engine → Engine) :
    (s.modEng p f).engState q = s.engState q := rfl
@[simp] theorem State.engRole_modEng (s : State) (p q : Nat) (f : Engine → Engine) :
    (s.modEng p f).engRole q = s.engRole q := rfl
@[simp] theorem State.logicalOf_modEng (s : State) (p q : Nat) (f : Engine → Engine) :
    (s.modEng p f).logicalOf q = s.logicalOf q := rfl

/-- Writes of registers leave the engines alone. -/
@[simp] theorem State.eng_setF (s : State) (x : Fld) (v q : Nat) : (s.setF x v).eng q = s.eng q := rfl
@[simp] theorem State.eng_setR (s : State) (x : Reg) (v : Word) (q : Nat) : (s.setR x v).eng q = s.eng q := rfl
@[simp] theorem State.eng_raise (s : State) (e : Evt) (q : Nat) : (s.raise e).eng q = s.eng q := rfl
@[simp] theorem State.eng_setPc (s : State) (p v q : Nat) : (s.setPc p v).eng q = s.eng q := rfl
@[simp] theorem State.eng_setEngState (s : State) (p v q : Nat) : (s.setEngState p v).eng q = s.eng q := rfl
@[simp] theorem State.eng_record (s : State) (c v n q : Nat) (b : List Word) : (s.record c v n b).eng q = s.eng q := rfl

/-- The register files of an engine that keeps them read as before. -/
theorem State.files_congr {s t : State} {q : Nat} (hw : (t.eng q).w = (s.eng q).w) (hp : (t.eng q).p = (s.eng q).p)
    (he : (t.eng q).e = (s.eng q).e) (ht : (t.eng q).t = (s.eng q).t) (i : Nat) :
    t.w q i = s.w q i ∧ t.p q i = s.p q i ∧ t.e q i = s.e q i ∧ t.t q i = s.t q i := by
  simp only [State.w, State.p, State.e, State.t, hw, hp, he, ht, and_self]

/-! ## What lies outside the registers and the engines -/

/-- The state without its registers and its engines. -/
def State.core (s : State) : State := { s with regs := Regs.reset, fe := { s.fe with eng := [] } }

/-- States that agree outside registers and engines: the registers of one and the engines' part of the other give the other. -/
theorem State.core_eq {s t : State} (h : t.core = s.core) :
    { t with regs := s.regs, fe := s.fe } = s ∧ t.fe.lists = s.fe.lists ∧ t.fe.images = s.fe.images :=
  ⟨congrArg (fun u : State => { u with regs := s.regs, fe := s.fe }) h, congrArg (·.fe.lists) h, congrArg (·.fe.images) h⟩

@[simp] theorem State.core_modEng (s : State) (p : Nat) (f : Engine → Engine) : (s.modEng p f).core = s.core := rfl
@[simp] theorem State.core_setF (s : State) (x : Fld) (v : Nat) : (s.setF x v).core = s.core := rfl
@[simp] theorem State.core_raise (s : State) (e : Evt) : (s.raise e).core = s.core := by simp [State.raise]
@[simp] theorem State.core_setPc (s : State) (p v : Nat) : (s.setPc p v).core = s.core := s.core_setF ..
@[simp] theorem State.core_setEngState (s : State) (p v : Nat) : (s.setEngState p v).core = s.core := s.core_setF ..

/-! ## FE_PC and FE_STATUS -/

theorem State.f_setPc_ne (s : State) (p v : Nat) {x : Fld} (h : x.off ≠ 0xc + 0x100000 * p) : (s.setPc p v).f x = s.f x :=
  s.f_setF_ne (R.FE_PC.PC p) x v (by simp [Fld.fits, R.FE_PC.PC]) (.inr (.inl h.symm))

theorem State.pc_setPc (s : State) (p v : Nat) : (s.setPc p v).pc p = v % 65536 :=
  s.f_setF_same (R.FE_PC.PC p) v (by simp [Fld.fits, R.FE_PC.PC])

theorem State.engState_setEngState (s : State) (p v : Nat) : (s.setEngState p v).engState p = v % 16 :=
  s.f_setF_same (R.FE_STATUS.STATE p) v (by simp [Fld.fits, R.FE_STATUS.STATE])

@[simp] theorem State.engState_halted (s : State) (p : Nat) : (s.setEngState p stHalted).engState p = stHalted :=
  s.engState_setEngState p stHalted

theorem State.f_setEngState_ne (s : State) (p v : Nat) {x : Fld} (h : x.off ≠ 0x4 + 0x100000 * p) :
    (s.setEngState p v).f x = s.f x :=
  s.f_setF_ne (R.FE_STATUS.STATE p) x v (by simp [Fld.fits, R.FE_STATUS.STATE]) (.inr (.inl h.symm))

@[simp] theorem State.engState_setPc (s : State) (p q v : Nat) : (s.setPc p v).engState q = s.engState q :=
  s.f_setPc_ne p v (by simp only [R.FE_STATUS.STATE]; omega)

@[simp] theorem State.pc_setEngState (s : State) (p q v : Nat) : (s.setEngState p v).pc q = s.pc q :=
  s.f_setEngState_ne p v (by simp only [R.FE_PC.PC]; omega)

theorem State.pc_setPc_ne (s : State) {p q : Nat} (v : Nat) (h : q ≠ p) : (s.setPc p v).pc q = s.pc q :=
  s.f_setPc_ne p v (by simp only [R.FE_PC.PC]; omega)

theorem State.engState_setEngState_ne (s : State) {p q : Nat} (v : Nat) (h : q ≠ p) :
    (s.setEngState p v).engState q = s.engState q :=
  s.f_setEngState_ne p v (by simp only [R.FE_STATUS.STATE]; omega)

theorem State.rd_setPc_ne (s : State) (p v : Nat) {b : Blk} {o : Nat} (h : (⟨b, o⟩ : Reg) ≠ R.FE_PC.reg p) :
    (s.setPc p v).rd b o = s.rd b o := by
  refine s.rd_setF_ne _ _ (not_and_or.mp fun ⟨hb, ho⟩ => h ?_)
  rw [← hb, ← ho]
  rfl

theorem State.rd_setEngState_ne (s : State) (p v : Nat) {b : Blk} {o : Nat} (h : (⟨b, o⟩ : Reg) ≠ R.FE_STATUS.reg p) :
    (s.setEngState p v).rd b o = s.rd b o := by
  refine s.rd_setF_ne _ _ (not_and_or.mp fun ⟨hb, ho⟩ => h ?_)
  rw [← hb, ← ho]
  rfl

/-! ## The events of an engine -/

/-- An event of engine `p` changes the words of its flag and of its counter, in which no other field of the engine stands. -/
theorem State.f_raise_off (s : State) (e : Evt) {x : Fld} (hf : e.off ≠ x.off) (hc : e.cntOff ≠ x.off) :
    (s.raise e).f x = s.f x :=
  congrArg (getBits · x.lsb x.width) (s.rd_raise_ne e (.inr hf) (.inr hc))

theorem State.flag_brk (s : State) (p : Nat) : (s.raise (E.FE_EVT.BRK p)).flag (E.FE_EVT.BRK p) = true :=
  s.flag_raise _ (by simp [E.FE_EVT.BRK]) (by simp [E.FE_EVT.BRK]) (.inl (by simp [E.FE_EVT.BRK]))

@[simp] theorem State.pc_raise_brk (s : State) (p q : Nat) : (s.raise (E.FE_EVT.BRK p)).pc q = s.pc q :=
  s.f_raise_off _ (by simp only [E.FE_EVT.BRK, R.FE_PC.PC]; omega) (by simp only [E.FE_EVT.BRK, R.FE_PC.PC]; omega)

@[simp] theorem State.engState_raise_brk (s : State) (p q : Nat) :
    (s.raise (E.FE_EVT.BRK p)).engState q = s.engState q :=
  s.f_raise_off _ (by simp only [E.FE_EVT.BRK, R.FE_STATUS.STATE]; omega)
    (by simp only [E.FE_EVT.BRK, R.FE_STATUS.STATE]; omega)

/-! ## A halt at a breakpoint or watchpoint -/

/-- The engine after such a halt. -/
theorem State.eng_breakHalt (s : State) (p q : Nat) :
    (s.breakHalt p).eng q = if q = p then { s.eng p with stepping := false, passBrk := false } else s.eng q := by
  rw [State.breakHalt, State.eng_raise, State.eng_setEngState, State.eng_modEng]

@[simp] theorem State.core_breakHalt (s : State) (p : Nat) : (s.breakHalt p).core = s.core := by simp [State.breakHalt]

@[simp] theorem State.flag_breakHalt (s : State) (p : Nat) : (s.breakHalt p).flag (E.FE_EVT.BRK p) = true := State.flag_brk _ p

@[simp] theorem State.engState_breakHalt (s : State) (p : Nat) : (s.breakHalt p).engState p = stHalted := by
  rw [State.breakHalt, State.engState_raise_brk, State.engState_halted]

@[simp] theorem State.pc_breakHalt (s : State) (p q : Nat) : (s.breakHalt p).pc q = s.pc q := by
  rw [State.breakHalt, State.pc_raise_brk, State.pc_setEngState, State.pc_modEng]

theorem State.engState_breakHalt_ne (s : State) {p q : Nat} (h : q ≠ p) : (s.breakHalt p).engState q = s.engState q := by
  rw [State.breakHalt, State.engState_raise_brk, State.engState_setEngState_ne _ _ h, State.engState_modEng]

/-! ## Retirement -/

/-- An engine whose instruction has retired: tokens and instructions counted, nothing blocked, stepped or passed. -/
def Engine.retired (e : Engine) (cost : Nat) : Engine :=
  { e with tokens := e.tokens + BitVec.ofNat 64 cost, insns := e.insns + 1, blocked := none, passBrk := false,
           stepping := false }

/-- What a retirement does before it looks at the watchpoint and at STEP. -/
def State.advance (s : State) (p cost npc : Nat) : State := (s.modEng p (fun e => e.retired cost)).setPc p npc

theorem State.eng_advance (s : State) (p cost npc q : Nat) :
    (s.advance p cost npc).eng q = if q = p then (s.eng p).retired cost else s.eng q := by
  rw [State.advance, State.eng_setPc, State.eng_modEng]

/-- The watchpoint does not look at the PC. -/
theorem State.watchHit_advance (s : State) (p cost npc : Nat) (l : List (Nat × Bool)) :
    (s.advance p cost npc).watchHit p l = s.watchHit p l := by
  have keep {x : Fld} (h : x.off ≠ 0xc + 0x100000 * p) : (s.advance p cost npc).f x = s.f x := State.f_setPc_ne _ p npc h
  have hcfg := keep (x := R.FE_CFG.DEBUG p) (by simp [R.FE_CFG.DEBUG])
  have hen := keep (x := R.FE_WATCH.EN p) (by simp [R.FE_WATCH.EN])
  have hword := keep (x := R.FE_WATCH.WORD p) (by simp [R.FE_WATCH.WORD])
  have hwr := keep (x := R.FE_WATCH.ON_WRITE p) (by simp [R.FE_WATCH.ON_WRITE])
  have hrd := keep (x := R.FE_WATCH.ON_READ p) (by simp [R.FE_WATCH.ON_READ])
  simp only [State.watchHit, State.debug, State.on, hcfg, hen, hword, hwr, hrd]

/-- A retirement in its three cases. -/
theorem State.retire_eq (s : State) (p cost npc : Nat) (l : List (Nat × Bool)) :
    s.retire p cost npc l =
      if s.watchHit p l = true then (s.advance p cost npc).breakHalt p
      else if (s.eng p).stepping = true then (s.advance p cost npc).setEngState p stHalted else s.advance p cost npc := by
  rw [← s.watchHit_advance p cost npc l]
  rfl

/-- Every case leaves the engines as `advance` does. -/
theorem State.eng_retire (s : State) (p cost npc q : Nat) (l : List (Nat × Bool)) :
    (s.retire p cost npc l).eng q = if q = p then (s.eng p).retired cost else s.eng q := by
  rw [State.retire_eq]
  split
  · rw [State.eng_breakHalt, s.eng_advance p cost npc p, if_pos rfl, State.eng_advance]
    split <;> rfl
  · split
    · rw [State.eng_setEngState, State.eng_advance]
    · rw [State.eng_advance]

@[simp] theorem State.eng_retire_same (s : State) (p cost npc : Nat) (l : List (Nat × Bool)) :
    (s.retire p cost npc l).eng p = (s.eng p).retired cost := by
  rw [State.eng_retire, if_pos rfl]

theorem State.eng_retire_ne (s : State) {p q : Nat} (cost npc : Nat) (l : List (Nat × Bool)) (h : q ≠ p) :
    (s.retire p cost npc l).eng q = s.eng q := by
  rw [State.eng_retire, if_neg h]

/-- A retirement changes registers and the engines alone. -/
@[simp] theorem State.core_retire (s : State) (p cost npc : Nat) (l : List (Nat × Bool)) :
    (s.retire p cost npc l).core = s.core := by
  rw [State.retire_eq]
  split
  · simp [State.advance]
  · split <;> simp [State.advance]

theorem State.pc_retire (s : State) (p cost npc : Nat) (l : List (Nat × Bool)) :
    (s.retire p cost npc l).pc p = npc % 65536 := by
  rw [State.retire_eq]
  split
  · rw [State.pc_breakHalt, State.advance, State.pc_setPc]
  · split
    · rw [State.pc_setEngState, State.advance, State.pc_setPc]
    · rw [State.advance, State.pc_setPc]

/-- A watchpoint that matches halts the engine with BRK. -/
theorem State.retire_watched (s : State) {p : Nat} (cost npc : Nat) {l : List (Nat × Bool)} (h : s.watchHit p l = true) :
    s.retire p cost npc l = (s.advance p cost npc).breakHalt p := by
  rw [State.retire_eq, if_pos h]

theorem State.retire_unwatched (s : State) {p : Nat} (cost npc : Nat) {l : List (Nat × Bool)} (h : s.watchHit p l = false) :
    s.retire p cost npc l =
      if (s.eng p).stepping = true then (s.advance p cost npc).setEngState p stHalted else s.advance p cost npc := by
  rw [State.retire_eq, h, if_neg (by decide)]

theorem State.engState_retire_unwatched (s : State) {p : Nat} (cost npc : Nat) {l : List (Nat × Bool)}
    (h : s.watchHit p l = false) :
    (s.retire p cost npc l).engState p = if (s.eng p).stepping = true then stHalted else s.engState p := by
  rw [s.retire_unwatched cost npc h]
  split
  · rw [State.engState_halted]
  · rw [State.advance, State.engState_setPc, State.engState_modEng]

/-- Without a watchpoint only FE_PC and FE_STATUS change. -/
theorem State.rd_retire_unwatched (s : State) {p : Nat} (cost npc : Nat) {l : List (Nat × Bool)} (h : s.watchHit p l = false)
    {b : Blk} {o : Nat} (hpc : (⟨b, o⟩ : Reg) ≠ R.FE_PC.reg p) (hst : (⟨b, o⟩ : Reg) ≠ R.FE_STATUS.reg p) :
    (s.retire p cost npc l).rd b o = s.rd b o := by
  rw [s.retire_unwatched cost npc h]
  split
  · rw [State.rd_setEngState_ne _ _ _ hst, State.advance, State.rd_setPc_ne _ _ _ hpc, State.rd_modEng]
  · rw [State.advance, State.rd_setPc_ne _ _ _ hpc, State.rd_modEng]

end Sys2Proof.Machine
end

section
open Sys2Proof Sys2Proof.Machine

/-- Settles O17: a retirement is `advance`, followed by a halt when the watchpoint matches or a STEP has ended. -/
theorem retireFrame : Obligations.RetireFrame := by
  unfold Obligations.RetireFrame
  intro s p cost npc touched hpc
  obtain ⟨frame, lists, images⟩ := State.core_eq (s.core_retire p cost npc touched)
  have same := s.eng_retire_same p cost npc touched
  have files (q i : Nat) : (s.retire p cost npc touched).w q i = s.w q i ∧ (s.retire p cost npc touched).p q i = s.p q i ∧
      (s.retire p cost npc touched).e q i = s.e q i ∧ (s.retire p cost npc touched).t q i = s.t q i := by
    by_cases hq : q = p
    · subst hq
      exact State.files_congr (by rw [same]; rfl) (by rw [same]; rfl) (by rw [same]; rfl) (by rw [same]; rfl) i
    · have h := s.eng_retire_ne cost npc touched hq
      exact State.files_congr (by rw [h]) (by rw [h]) (by rw [h]) (by rw [h]) i
  refine ⟨(s.pc_retire p cost npc touched).trans (Nat.mod_eq_of_lt hpc), ?_, ?_, files, ?_, ?_, ?_,
    fun q hq => s.eng_retire_ne cost npc touched hq, frame, lists, images, fun hw => ?_,
    fun hw => ⟨s.engState_retire_unwatched cost npc hw, fun b o hb ho => s.rd_retire_unwatched cost npc hw hb ho⟩⟩
  · rw [same]; rfl
  · rw [same]; rfl
  · rw [same]; rfl
  · rw [same]; rfl
  · rw [same]; rfl
  · rw [s.retire_watched cost npc hw]
    exact ⟨State.engState_breakHalt _ _, State.flag_breakHalt _ _⟩

end

section
/-! SUPPORT. The issue of an instruction (R84–R87, R93, R94) on an engine that executes it: what follows each outcome. -/
namespace Sys2Proof.Machine
open Sys2Proof Sys2Proof.Safety

variable {s t : State} {p ps : Nat} {q : Bool} {f : State → ZOut}

/-- On an engine that executes, an instruction has its effect. -/
theorem zhn_of_runs (h : runs s p ps) : s.zhn p ps q f = s.zhnEnd p q (f s) := by
  obtain ⟨hi, hpc, hb, hp⟩ := h
  have hc : ¬ (s.eng p).codeWords ≤ s.pc p := by omega
  have hk : (s.breakHere p && !(s.eng p).passBrk) = false := by rcases hb with hb | hb <;> simp [hb]
  simp [State.zhn, hi, hc, hk, hp]

/-- So has one without a next sequential word on an engine whose PC lies within the code. -/
theorem zhn_of_jumps (h : jumps s p ps) : s.zhn p ps q f = s.zhnEnd p q (f s) := by
  obtain ⟨hi, hpc, hb, hp⟩ := h
  have hc : ¬ (s.eng p).codeWords ≤ s.pc p := by omega
  have hk : (s.breakHere p && !(s.eng p).passBrk) = false := by rcases hb with hb | hb <;> simp [hb]
  simp [State.zhn, hi, hc, hk, hp]

/-- The next word lies within the code, so no PC_RANGE takes the outcome's place. -/
theorem notPast (h : runs s p ps) : (q && decide ((s.eng p).codeWords ≤ s.pc p + 1)) = false := by
  obtain ⟨-, hpc, -, -⟩ := h
  simp [hpc]

theorem zhn_exc {c : Nat} {a : Word} (h : runs s p ps) (hf : f s = .exc c a) : s.zhn p ps q f = s.progExc p c a := by
  rw [zhn_of_runs h, hf, State.zhnEnd, notPast h]
  rfl

theorem zhn_done {cost : Nat} {l : List (Nat × Bool)} (h : runs s p ps) (hf : f s = .done cost none l t) :
    s.zhn p ps q f = t.retire p cost (s.pc p + 1) l := by
  rw [zhn_of_runs h, hf, State.zhnEnd, notPast h]
  rfl

theorem zhn_halt (h : runs s p ps) (hf : f s = .halt t) :
    s.zhn p ps q f =
      ((t.retire p haltCost (s.pc p + 1) []).setEngState p stHalted).record 0x0602 0 p [w32 (s.pc p + 1)] := by
  rw [zhn_of_runs h, hf, State.zhnEnd, notPast h]
  rfl

/-- The engine blocks in CHK or APL. -/
theorem zhn_block {b : Blocked} (h : runs s p ps) (hf : f s = .block b t) (hb : ∀ pd a n, b ≠ .wait pd a n) :
    s.zhn p ps q f = t.modEng p (fun e => { e with blocked := some b, passBrk := false }) := by
  rw [zhn_of_runs h, hf, State.zhnEnd, notPast h]
  cases b with
  | wait pd a n => exact absurd rfl (hb pd a n)
  | chk pd c => rfl
  | apl pd c => rfl

/-- The engine blocks in WAIT, and enters that state. -/
theorem zhn_wait {pd a n : Nat} (h : runs s p ps) (hf : f s = .block (.wait pd a n) t) :
    s.zhn p ps q f = (t.modEng p (fun e => { e with blocked := some (.wait pd a n), passBrk := false })).setEngState p stWait := by
  rw [zhn_of_runs h, hf, State.zhnEnd, notPast h]
  rfl

/-! The outcomes as the statements write them. -/

theorem next_exc {c : Nat} {a : Word} (h : runs s p ps) (hf : f s = .exc c a) :
    (.next (s.zhn p ps q f) : Res) = .next (s.progExc p c a) :=
  congrArg _ (zhn_exc h hf)

theorem next_wait {pd a n : Nat} (h : runs s p ps) (hf : f s = .block (.wait pd a n) t) :
    (.next (s.zhn p ps q f) : Res) = .next ((t.modEng p (fun e => { e with
      blocked := some (.wait pd a n), passBrk := false })).setEngState p stWait) :=
  congrArg _ (zhn_wait h hf)

theorem next_block {b : Blocked} (h : runs s p ps) (hf : f s = .block b t) (hb : ∀ pd a n, b ≠ .wait pd a n) :
    (.next (s.zhn p ps q f) : Res) = .next (t.modEng p (fun e => { e with blocked := some b, passBrk := false })) :=
  congrArg _ (zhn_block h hf hb)

theorem next_halt (h : runs s p ps) (hf : f s = .halt t) :
    (.next (s.zhn p ps q f) : Res) = .next
      (((t.retire p haltCost (s.pc p + 1) []).setEngState p stHalted).record 0x0602 0 p [w32 (s.pc p + 1)]) :=
  congrArg _ (zhn_halt h hf)

theorem next_goOn {cost : Nat} (h : runs s p ps) (hf : f s = zDone cost t) : .next (s.zhn p ps q f) = goOn s t p cost :=
  congrArg _ (zhn_done h hf)

theorem next_goOnAt {cost : Nat} {l : List (Nat × Bool)} (h : runs s p ps) (hf : f s = .done cost none l t) :
    .next (s.zhn p ps q f) = goOnAt s t p cost l :=
  congrArg _ (zhn_done h hf)

theorem next_goOnField {cost : Nat} {l : List (Nat × Bool)} (h : runs s p ps) (hf : f s = zField cost l t) :
    .next (s.zhn p ps q f) = goOnField s t p cost l :=
  congrArg _ (zhn_done h hf)

end Sys2Proof.Machine
end

section
/-! SUPPORT. Bytes in local store (R101) and in field memory (R7, R102): what a byte reads as after a store, and what a store leaves
alone. -/
namespace Sys2Proof.Machine
open Sys2Proof

/-! ## Stores one after another -/

section
variable {α : Type} [DecidableEq α] (d : Nat → α) (g : Nat → Nat)

/-- A key that none of the stores names keeps its value. -/
theorem sget_foldl_sset_ne {x : Nat} (l : List α) (n : Nat) (m : Store α) (h : ∀ j < l.length, g (n + j) ≠ x) :
    sget d ((l.zipIdx n).foldl (fun m b => sset d m (g b.2) b.1) m) x = sget d m x := by
  induction l generalizing n m with
  | nil => rfl
  | cons v l ih =>
    rw [List.zipIdx_cons, List.foldl_cons, ih]
    · exact sget_sset_ne _ _ _ _ _ (h 0 (by simp)).symm
    · intro j hj
      rw [Nat.add_right_comm, Nat.add_assoc]
      exact h (j + 1) (by simpa using hj)

/-- A key that one of them names takes that value. -/
theorem sget_foldl_sset_get (l : List α) (n j : Nat) (m : Store α) (hj : j < l.length)
    (h : ∀ i < l.length, g (n + i) = g (n + j) → i = j) :
    sget d ((l.zipIdx n).foldl (fun m b => sset d m (g b.2) b.1) m) (g (n + j)) = l[j] := by
  induction l generalizing n j m with
  | nil => exact absurd hj (by simp)
  | cons v l ih =>
    rw [List.zipIdx_cons, List.foldl_cons]
    cases j with
    | zero =>
      rw [sget_foldl_sset_ne, Nat.add_zero, sget_sset_same, List.getElem_cons_zero]
      intro i hi he
      rw [Nat.add_right_comm, Nat.add_assoc] at he
      exact absurd (h (i + 1) (by simpa using hi) he) (Nat.succ_ne_zero i)
    | succ j =>
      have e (i : Nat) : n + 1 + i = n + (i + 1) := by omega
      rw [← e j, ih (n + 1) j _ (by simpa using hj), List.getElem_cons_succ]
      intro i hi he
      have := h (i + 1) (by simpa using hi) (by rw [← e i, ← e j, he])
      omega

end

/-! ## Local store -/

/-- Bytes stored in local store read back, from the address on and around its end (R101). -/
theorem Engine.lsByte_lsPut (e : Engine) (a : Nat) {l : List Byte} {j : Nat} (hl : l.length ≤ 0x40000) (hj : j < l.length) :
    (e.lsPut a l).lsByte (a + j) = l[j] := by
  have h := sget_foldl_sset_get zeroByte (fun i => (a + i) % 0x40000) l 0 j e.ls hj (by omega)
  simpa [Engine.lsByte, Engine.lsPut] using h

theorem Engine.lsByte_lsPut_ne (e : Engine) (a : Nat) (l : List Byte) {k : Nat}
    (h : ∀ j < l.length, (a + j) % 0x40000 ≠ k % 0x40000) : (e.lsPut a l).lsByte k = e.lsByte k :=
  sget_foldl_sset_ne zeroByte (fun i => (a + i) % 0x40000) l 0 e.ls (by simpa using h)

/-- Byte `j` of a number, lowest first. -/
theorem leBytes_getElem (n v j : Nat) (h : j < (leBytes n v).length) :
    (leBytes n v)[j] = BitVec.ofNat 8 (v / 256 ^ j) := by
  induction n generalizing v j with
  | zero => exact absurd h (by simp)
  | succ n ih =>
    cases j with
    | zero => simp [leBytes]
    | succ j =>
      rw [leBytes] at h
      simp only [leBytes, List.getElem_cons_succ]
      rw [ih _ _ (by simpa using h), Nat.div_div_eq_div_mul, Nat.pow_succ']

theorem leBytes_four (w : Word) : leBytes 4 w.toNat = [wordByte w 0, wordByte w 1, wordByte w 2, wordByte w 3] := by
  simp [leBytes, wordByte, Nat.shiftRight_eq_div_pow, Nat.div_div_eq_div_mul]

/-- Byte `i` of word `k` of a list of words. -/
theorem wordsBytes_getElem (l : List Word) {k i : Nat} (hk : k < l.length) (hi : i < 4)
    (h : 4 * k + i < (wordsBytes l).length) : (wordsBytes l)[4 * k + i] = wordByte l[k] i := by
  induction l generalizing k with
  | nil => exact absurd hk (by simp)
  | cons w l ih =>
    simp only [wordsBytes, leBytes_four]
    cases k with
    | zero => interval_cases i <;> rfl
    | succ k =>
      have e : 4 * (k + 1) + i = 4 * k + i + 4 := by omega
      have hk' : k < l.length := by simpa using hk
      simp only [e, List.cons_append, List.nil_append, List.getElem_cons_succ]
      exact ih hk' (by rw [wordsBytes_length]; omega)

/-- A word stored in local store reads back. -/
theorem Engine.lsWord_lsPut (e : Engine) (a : Nat) {l : List Word} {k : Nat} (hl : l.length ≤ 0x10000) (hk : k < l.length) :
    (e.lsPut a (wordsBytes l)).lsWord (a + 4 * k) = l[k] := by
  have len : (wordsBytes l).length = 4 * l.length := wordsBytes_length l
  have get (i : Nat) (hi : i < 4) : (e.lsPut a (wordsBytes l)).lsByte (a + 4 * k + i) = wordByte l[k] i := by
    have hj : 4 * k + i < (wordsBytes l).length := by omega
    rw [Nat.add_assoc, Engine.lsByte_lsPut e a (by omega) hj, wordsBytes_getElem l hk hi]
  rw [Engine.lsWord, ← Nat.add_zero (a + 4 * k), get 0 (by omega), get 1 (by omega), get 2 (by omega), get 3 (by omega),
    bytesWord_wordByte]

/-! ## Field memory -/

/-- Byte `i` of a word is its bits from 8 i on. -/
theorem wordByte_getLsbD (w : Word) (i j : Nat) : (wordByte w i).getLsbD j = (decide (j < 8) && w.getLsbD (8 * i + j)) := by
  simp [wordByte, BitVec.getLsbD_ofNat, Nat.testBit_shiftRight, BitVec.testBit_toNat]

/-- Bytes stored in a word take their places and leave the others. -/
theorem wordByte_setBits (old : Word) {o n : Nat} (v i : Nat) (h : o + n ≤ 4) :
    wordByte (setBits old (8 * o) (8 * n) v) i =
      if o ≤ i ∧ i < o + n then BitVec.ofNat 8 (v / 256 ^ (i - o)) else wordByte old i := by
  apply BitVec.eq_of_getLsbD_eq
  intro j hj
  rw [wordByte_getLsbD, setBits_getLsbD _ _ _ _ _ (by omega)]
  by_cases hi : o ≤ i ∧ i < o + n
  · have hb : 8 * o ≤ 8 * i + j ∧ 8 * i + j < 8 * o + 8 * n := by omega
    have hp : (256 : Nat) ^ (i - o) = 2 ^ (8 * (i - o)) := by rw [Nat.pow_mul]
    rw [if_pos hi, if_pos hb, BitVec.getLsbD_ofNat, hp, Nat.testBit_div_two_pow]
    congr 2
    omega
  · have hb : ¬ (8 * o ≤ 8 * i + j ∧ 8 * i + j < 8 * o + 8 * n) := by omega
    rw [if_neg hi, if_neg hb, wordByte_getLsbD]

theorem wordByte_bytesWord (b0 b1 b2 b3 : Byte) {i : Nat} (h : i < 4) :
    wordByte (bytesWord b0 b1 b2 b3) i = [b0, b1, b2, b3][i] := by
  apply BitVec.eq_of_toNat_eq
  have h0 := b0.isLt
  have h1 := b1.isLt
  have h2 := b2.isLt
  have h3 := b3.isLt
  interval_cases i <;> simp [wordByte, bytesWord, Nat.shiftRight_eq_div_pow] <;> omega

theorem State.wordByte_fword (s : State) (a : Nat) {i : Nat} (h : i < 4) : wordByte (s.fword a) i = s.fbyte (a + i) := by
  rw [State.fword, wordByte_bytesWord _ _ _ _ h]
  interval_cases i <;> rfl

/-- A byte read after a word store. -/
theorem State.fbyte_setFWord (s : State) (a k : Nat) (v : Word) :
    (s.setFWord a v).fbyte k = if a ≤ k ∧ k < a + 4 then wordByte v (k - a) else s.fbyte k := by
  split
  next h =>
    obtain ⟨i, rfl⟩ := Nat.exists_eq_add_of_le h.1
    have hi : i < 4 := by omega
    rw [← State.wordByte_fword _ _ hi, State.fword_setFWord_same, Nat.add_sub_cancel_left]
  next h => exact s.fbyte_setFWord_ne a k v (by omega)

/-! ## What a store to field memory leaves alone -/

/-- The state without field memory and the lines that the next delta carries. -/
def State.unmem (s : State) : State := { s with fmem := [], pair := { s.pair with dirty := [] } }

theorem State.unmem_eq {s t : State} (h : t.unmem = s.unmem) :
    { t with fmem := s.fmem, pair := { t.pair with dirty := s.pair.dirty } } = s :=
  congrArg (fun u : State => { u with fmem := s.fmem, pair := { u.pair with dirty := s.pair.dirty } }) h

@[simp] theorem State.unmem_setFByte (s : State) (a : Nat) (v : Byte) : (s.setFByte a v).unmem = s.unmem := by
  unfold State.setFByte
  split <;> rfl

@[simp] theorem State.unmem_setFWord (s : State) (a : Nat) (v : Word) : (s.setFWord a v).unmem = s.unmem := by
  simp only [State.setFWord, State.unmem_setFByte]

end Sys2Proof.Machine
end

section
/-! SUPPORT. The address of a load or store (R100, R101), and STF by its size and the writer rule (R102). -/
namespace Sys2Proof.Machine
open Sys2Proof Sys2Proof.Safety

theorem State.memAddr_eq (s : State) (p ra z off : Nat) :
    s.memAddr p ra z off = BitVec.ofInt 64 ((s.w p ra).toInt + toSigned 6 off * 2 ^ z) := by
  rw [State.memAddr, memOff, BitVec.ofInt_add, BitVec.ofInt_toInt, Nat.cast_pow, Nat.cast_ofNat]

theorem w32_toNat (v : DWord) : w32 v.toNat = v.setWidth 32 := BitVec.ofNat_toNat 32 v

theorem w32_high (v : DWord) : w32 (v.toNat / 2 ^ 32) = (v >>> 32).setWidth 32 := by
  rw [← w32_toNat, BitVec.toNat_ushiftRight, Nat.shiftRight_eq_div_pow]

/-- What raises FMEM_RANGE. -/
theorem fmemBad_iff (z : Nat) (a : DWord) : fmemBad z a = true ↔ 0x4000000 ≤ a.toNat ∨ a.toNat % szBytes z ≠ 0 := by
  simp [fmemBad]

theorem fmemBad_aligned {z : Nat} {a : DWord} (h : a.toNat < 0x4000000) (hz : a.toNat % szBytes z = 0) :
    ¬ fmemBad z a = true := by
  rw [fmemBad_iff]
  omega

/-- The sizes. -/
theorem szBytes_cases (z : Fin 4) : szBytes z = 1 ∨ szBytes z = 2 ∨ szBytes z = 4 ∨ szBytes z = 8 := by
  revert z
  decide

theorem szBytes_word {z : Fin 4} (h : z.val < 3) : szBytes z = 1 ∨ szBytes z = 2 ∨ szBytes z = 4 := by
  revert z
  decide

/-- An aligned access ends at the end of local store at the latest. -/
theorem szBytes_inLs {z : Fin 4} {l : Nat} (hl : l < 0x40000) (h : l % szBytes z = 0) : l + szBytes z ≤ 0x40000 := by
  rcases szBytes_cases z with e | e | e | e <;> rw [e] at h ⊢ <;> omega

/-- An aligned access of up to a word lies in one word. -/
theorem szBytes_inWord {z : Fin 4} {a : Nat} (hz : z.val < 3) (h : a % szBytes z = 0) : a % 4 + szBytes z ≤ 4 := by
  rcases szBytes_word hz with e | e | e <;> rw [e] at h ⊢ <;> omega

/-- The writer rule goes by the word in which an address lies. -/
theorem storeRo_word (l a : Nat) (old new : Word) : storeRo l (a / 4 * 4) old new = storeRo l a old new := by
  have h : a / 4 * 4 / 4 * 4 = a / 4 * 4 := by omega
  rw [storeRo, storeRo, storeMask, storeMask, h]

section
variable {s : State} {p z rb ra off : Nat}

theorem zStf_range (h : fmemBad z (s.memAddr p ra z off) = true) :
    zStf z p rb ra off s = .exc xFmemRange (w32 (s.memAddr p ra z off).toNat) := if_pos h

/-- STF of up to a word, whose word at `b` becomes `new`. -/
theorem zStf_word {a b : Nat} {new : Word} (h : ¬ fmemBad z (s.memAddr p ra z off) = true) (hz : z ≠ 3)
    (ha : (s.memAddr p ra z off).toNat = a) (hb : a / 4 * 4 = b)
    (hn : patchWord (s.fword b) (a % 4) (szBytes z) (s.w p rb).toNat = new) :
    zStf z p rb ra off s = if storeRo (s.logicalOf p) b (s.fword b) new = true then .exc xFieldRo (w32 a)
      else zField 4 (touchedWords z a true) (s.setFWord b new) := by
  subst hn hb ha
  rw [zStf, if_neg h, if_neg hz, storeRo_word]

/-- STF of a double word. -/
theorem zStf_double {a : Nat} (h : ¬ fmemBad z (s.memAddr p ra z off) = true) (hz : z = 3)
    (ha : (s.memAddr p ra z off).toNat = a) : zStf z p rb ra off s =
      if (storeRo (s.logicalOf p) a (s.fword a) ((s.w p rb).setWidth 32) ||
          storeRo (s.logicalOf p) (a + 4) (s.fword (a + 4)) ((s.w p rb >>> 32).setWidth 32)) = true then .exc xFieldRo (w32 a)
      else zField 6 (touchedWords z a true)
        ((s.setFWord a ((s.w p rb).setWidth 32)).setFWord (a + 4) ((s.w p rb >>> 32).setWidth 32)) := by
  subst ha
  rw [zStf, if_neg h, if_pos hz, w32_toNat, w32_high]

end

end Sys2Proof.Machine
end

section
open Sys2Proof Sys2Proof.Machine Sys2Proof.Safety

/-- Settles O22: each instruction takes the branch that its address, its size and the writer rule select, and the bytes of a
store read back. -/
theorem loadStore : Obligations.LoadStore := by
  unfold Obligations.LoadStore
  refine ⟨fun s p ps z rd ra rb off h => ?_, fun s p z l k v hl hz hk => ?_, fun s z a k v hz ha hal => ?_⟩
  · refine ⟨s.memAddr_eq .., rfl, rfl, fun hl => ⟨?_, ?_⟩, fun hl => ⟨?_, ?_⟩, fun ha hz => ?_, fun hbad => ?_⟩
    · exact next_goOn h (f := zLdl z p rd ra off) (if_neg (not_not.mpr hl))
    · exact next_goOn h (f := zStl z p rb ra off) (if_neg (not_not.mpr hl))
    · exact next_exc h (f := zLdl z p rd ra off) (if_pos hl)
    · exact next_exc h (f := zStl z p rb ra off) (if_pos hl)
    · have ok := fmemBad_aligned ha hz
      refine ⟨next_goOnField h (f := zLdf z p rd ra off) (if_neg ok), fun hs hro => ?_, fun hs hlo hhi => ?_, fun hs hro => ?_,
        fun hs hro => ?_⟩
      · refine next_goOnField h (f := zStf z p rb ra off) ((zStf_word ok (by omega) rfl rfl rfl).trans (if_neg ?_))
        exact Bool.eq_false_iff.mp hro
      · refine next_goOnField h (f := zStf z p rb ra off) ((zStf_double ok (congrArg _ hs) rfl).trans (if_neg ?_))
        rw [hlo, hhi]
        decide
      · exact next_exc h (f := zStf z p rb ra off) ((zStf_word ok (by omega) rfl rfl rfl).trans (if_pos hro))
      · refine next_exc h (f := zStf z p rb ra off) ((zStf_double ok (congrArg _ hs) rfl).trans (if_pos ?_))
        rwa [Bool.or_eq_true]
    · have bad := (fmemBad_iff _ _).mpr hbad
      exact ⟨next_exc h (f := zLdf z p rd ra off) (if_pos bad), next_exc h (f := zStf z p rb ra off) (zStf_range bad)⟩
  · have inLs := szBytes_inLs hl hz
    have len : (leBytes (szBytes z) v.toNat).length = szBytes z := leBytes_length ..
    refine ⟨fun h1 h2 => ?_, fun hout => ?_, rfl, fun q i => ?_, fun q hq => s.eng_modEng_ne _ hq⟩
    · obtain ⟨j, rfl⟩ := Nat.exists_eq_add_of_le h1
      rw [State.lsStore, State.eng_modEng_same, Engine.lsByte_lsPut _ _ (by omega) (by omega), leBytes_getElem,
        Nat.add_sub_cancel_left]
    · rw [State.lsStore, State.eng_modEng_same, Engine.lsByte_lsPut_ne]
      intro j hj
      rw [len] at hj
      omega
    · simp only [State.w, State.lsStore, State.eng_modEng]
      split
      · rfl
      · split
        · next hq => rw [hq]; rfl
        · rfl
  · have fit := szBytes_inWord hz hal
    refine ⟨fun h1 h2 => ?_, fun hout => ?_, State.unmem_eq (State.unmem_setFWord ..)⟩
    · rw [State.fbyte_setFWord, if_pos (by omega), patchWord, wordByte_setBits _ _ _ fit, if_pos (by omega)]
      congr 3
      omega
    · rw [State.fbyte_setFWord]
      split
      next hin =>
        rw [patchWord, wordByte_setBits _ _ _ fit, if_neg (by omega), State.wordByte_fword _ _ (by omega)]
        congr 1
        omega
      · rfl

end

section
/-! SUPPORT. The register files (R88) and the queue unit's watermarks (R177, R178) as WAIT (R113) meets them. -/
namespace Sys2Proof.Machine
open Sys2Proof

/-! ## What the watermarks leave alone -/

theorem keeps_ite {β : Type} {g : State → β} {c : Prop} [Decidable c] {s t : State} {b : β} (hs : g s = b) (ht : g t = b) :
    g (if c then s else t) = b :=
  iteInduction (motive := fun u => g u = b) (fun _ => hs) fun _ => ht

theorem State.event_keeps {β : Type} (g : State → β) (hsess : ∀ s n x, g (State.setSess s n x) = g s)
    (hsend : ∀ s o, g (State.send s o) = g s) (s : State) (cls : Nat) (body : List Byte) : g (s.event cls body) = g s := by
  refine foldS_keeps g _ (fun n t => ?_) _ _
  unfold sessEvent
  dsimp only
  split
  · split
    · rw [hsend, hsess]
    · rw [hsess]
  · rfl

/-- The registers that the watermarks of a queue write: its own, and those of the storm procedure. -/
def quField (u : Qu) (b : Blk) (o : Nat) : Prop := b = (quReg u).blk ∧ (quReg u).off ≤ o ∨ b = .fe ∧ 0x80a00 ≤ o

/-- Whatever those registers, sessions and the output do not reach stays. -/
theorem State.quEval_keeps {β : Type} (g : State → β) (s : State) (u : Qu)
    (hset : ∀ s x v, quField u x.blk x.off → g (State.setF s x v) = g s)
    (hev : ∀ s cls body, g (State.event s cls body) = g s) : g (s.quEval u) = g s := by
  have hraise (t : State) (e : Evt) (h : quField u e.blk e.off) (h' : quField u e.blk e.cntOff) : g (t.raise e) = g t := by
    rw [State.raise, hset _ _ _ h', hset _ _ _ h]
  have own (n l k : Nat) : quField u (quF u n l k).blk (quF u n l k).off := .inl ⟨rfl, Nat.le_add_right _ _⟩
  have rose (t : State) : g (t.raise (quRose u)) = g t := hraise _ _ (.inl ⟨rfl, Nat.le_add_right _ _⟩) (.inl ⟨rfl, Nat.le_add_right _ _⟩)
  have fell (t : State) : g (t.raise (quFell u)) = g t := hraise _ _ (.inl ⟨rfl, Nat.le_add_right _ _⟩) (.inl ⟨rfl, Nat.le_add_right _ _⟩)
  have started (t : State) : g (t.raise E.STORM_EVT.STARTED) = g t := hraise _ _ (.inr (by decide)) (.inr (by decide))
  have peak (t : State) (c : Prop) [Decidable c] (n : Nat) : g (if c then t.setF (quPeak u) n else t) = g t :=
    keeps_ite (hset _ _ _ (own ..)) rfl
  have base (t : State) (c : Prop) [Decidable c] (m n : Nat) :
      g (if c then (t.setF (quBad u) m).setF (quPeak u) n else t.setF (quBad u) m) = g t :=
    (peak _ c n).trans (hset _ _ _ (own ..))
  refine keeps_ite (keeps_ite ?_ ?_) (keeps_ite ?_ ?_)
  · rw [started, hset _ R.STORM_STATUS.STATE _ (.inr (by decide)), hev, rose, hset _ (quAbove u) _ (own ..)]
    exact base ..
  · rw [hev, rose, hset _ (quAbove u) _ (own ..)]
    exact base ..
  · rw [hev, fell, hset _ (quAbove u) _ (own ..)]
    exact base ..
  · exact base ..

@[simp] theorem State.event_fe (s : State) (cls : Nat) (body : List Byte) : (s.event cls body).fe = s.fe :=
  State.event_keeps (·.fe) (fun _ _ _ => rfl) (fun _ _ => rfl) s cls body

@[simp] theorem State.quEval_fe (s : State) (u : Qu) : (s.quEval u).fe = s.fe :=
  State.quEval_keeps (·.fe) s u (fun _ _ _ _ => rfl) State.event_fe

/-! ## The register files -/

/-- What an engine shows goes by the engines alone. -/
theorem State.eng_congr {s t : State} (h : t.fe = s.fe) (q : Nat) : t.eng q = s.eng q := by
  rw [State.eng, h]
  rfl

/-- A change of an engine that leaves its register files alone leaves every register file alone. -/
theorem State.files_modEng (s : State) (p : Nat) (f : Engine → Engine) (hw : ∀ e, (f e).w = e.w) (hp : ∀ e, (f e).p = e.p)
    (he : ∀ e, (f e).e = e.e) (ht : ∀ e, (f e).t = e.t) (q i : Nat) :
    (s.modEng p f).w q i = s.w q i ∧ (s.modEng p f).p q i = s.p q i ∧ (s.modEng p f).e q i = s.e q i ∧
      (s.modEng p f).t q i = s.t q i := by
  by_cases h : q = p
  · subst h
    have same := s.eng_modEng_same q f
    exact State.files_congr (by rw [same, hw]) (by rw [same, hp]) (by rw [same, he]) (by rw [same, ht]) i
  · have ne := s.eng_modEng_ne f h
    exact State.files_congr (by rw [ne]) (by rw [ne]) (by rw [ne]) (by rw [ne]) i

/-- An engine with predicate register `i` written; p0 takes no write (R88). -/
def Engine.putP (e : Engine) (i : Nat) (v : Bool) : Engine := if i = 0 then e else { e with p := sset falseP e.p i v }

theorem State.eng_setP (s : State) (p q i : Nat) (v : Bool) :
    (s.setP p i v).eng q = if q = p then (s.eng p).putP i v else s.eng q := by
  unfold State.setP Engine.putP
  split
  · split
    · next h => rw [h]
    · rfl
  · rw [State.eng_modEng]

@[simp] theorem State.eng_setP_same (s : State) (p i : Nat) (v : Bool) : (s.setP p i v).eng p = (s.eng p).putP i v := by
  rw [State.eng_setP, if_pos rfl]

theorem State.eng_setP_ne (s : State) {p q : Nat} (i : Nat) (v : Bool) (h : q ≠ p) : (s.setP p i v).eng q = s.eng q := by
  rw [State.eng_setP, if_neg h]

/-- Everything of the engine but its predicate registers stays. -/
theorem Engine.putP_frame (e : Engine) (i : Nat) (v : Bool) : { e.putP i v with p := e.p } = e := by
  unfold Engine.putP
  split <;> rfl

@[simp] theorem Engine.putP_w (e : Engine) (i : Nat) (v : Bool) : (e.putP i v).w = e.w := congrArg (·.w) (e.putP_frame i v)
@[simp] theorem Engine.putP_ls (e : Engine) (i : Nat) (v : Bool) : (e.putP i v).ls = e.ls := congrArg (·.ls) (e.putP_frame i v)

/-- Everything of the state but the engines stays. -/
theorem State.setP_keeps {β : Type} (g : State → β) (h : ∀ s p f, g (State.modEng s p f) = g s) (s : State) (p i : Nat) (v : Bool) :
    g (s.setP p i v) = g s := by
  unfold State.setP
  split
  · rfl
  · exact h ..

@[simp] theorem State.setP_lists (s : State) (p i : Nat) (v : Bool) : (s.setP p i v).fe.lists = s.fe.lists :=
  State.setP_keeps (·.fe.lists) (fun _ _ _ => rfl) s p i v

/-- A predicate that is written reads back. -/
theorem State.p_of_eng {s : State} {p i : Nat} {e : Engine} {v : Bool} (h : (s.eng p).p = (e.putP i v).p) (hi : i ≠ 0) :
    s.p p i = v := by
  rw [State.p, if_neg hi, h, Engine.putP, if_neg hi, sget_sset_same]

theorem State.w_congr {s t : State} {q : Nat} (h : (t.eng q).w = (s.eng q).w) (i : Nat) : t.w q i = s.w q i := by
  rw [State.w, h]
  rfl

/-! ## WAIT -/

@[simp] theorem State.ilist_setIlist (s : State) (l : Nat) (x : List IEvent) : (s.setIlist l x).ilist l = x := sget_sset_same ..

theorem State.ilist_congr {s t : State} (h : t.fe.lists = s.fe.lists) (l : Nat) : t.ilist l = s.ilist l := by
  rw [State.ilist, h]
  rfl

/-- The engine after it has taken an event: the event's words in its local store, its predicate 1, and s5. -/
theorem State.eng_takeEvent (s : State) (p pd a : Nat) (ev : IEvent) (rest : List IEvent) :
    (s.takeEvent p pd a ev rest).eng p =
      { ((s.eng p).lsPut a (wordsBytes (eventWords ev))).putP pd true with
        s5 := BitVec.ofNat 64 ((if rest.length < 0xFFFF then rest.length else 0xFFFF) * 65536 + b2n true) } := by
  have h : ((s.setIlist (s.logicalOf p) rest).quEval .intake).eng p = s.eng p :=
    State.eng_congr (State.quEval_fe ..) p
  rw [State.takeEvent, State.setS5, State.eng_modEng_same, State.eng_setP_same, State.lsStore, State.eng_modEng_same, h]

/-- The event leaves its list. -/
theorem State.ilist_takeEvent (s : State) (p pd a : Nat) (ev : IEvent) (rest : List IEvent) :
    (s.takeEvent p pd a ev rest).ilist (s.logicalOf p) = rest := by
  refine (State.ilist_congr ?_ _).trans (s.ilist_setIlist (s.logicalOf p) rest)
  rw [State.takeEvent, State.setS5, State.modEng_lists, State.setP_lists, State.lsStore, State.modEng_lists, State.quEval_fe]

theorem State.eng_waitNone (s : State) (p pd : Nat) :
    (s.waitNone p pd).eng p = { (s.eng p).putP pd false with
      s5 := BitVec.ofNat 64 ((if (s.ilist (s.logicalOf p)).length < 0xFFFF then (s.ilist (s.logicalOf p)).length else 0xFFFF) *
        65536 + b2n false) } := by
  rw [State.waitNone, State.setS5, State.eng_modEng_same, State.eng_setP_same]

section
variable {s : State} {p pd ra rb : Nat}

theorem zWait_unaligned (h : lsAddr (s.w p ra) % 4 ≠ 0) :
    zWait p pd ra rb s = .exc xLsRange (w32 (lsAddr (s.w p ra))) := if_pos h

theorem zWait_event {ev : IEvent} {rest : List IEvent} (h : lsAddr (s.w p ra) % 4 = 0)
    (hl : s.ilist (s.logicalOf p) = ev :: rest) :
    zWait p pd ra rb s = zDone 30 (s.takeEvent p pd (lsAddr (s.w p ra)) ev rest) := by
  rw [zWait, if_neg (not_not.mpr h), hl]

/-- Without an event WAIT ends at once for a timeout of 0, and otherwise blocks. -/
theorem zWait_empty (h : lsAddr (s.w p ra) % 4 = 0) (hl : s.ilist (s.logicalOf p) = []) :
    zWait p pd ra rb s = if (s.w p rb).toNat % 2 ^ 32 = 0 then zDone 10 (s.waitNone p pd)
      else .block (.wait pd (lsAddr (s.w p ra)) ((s.w p rb).toNat % 2 ^ 32)) s := by
  rw [zWait, if_neg (not_not.mpr h), hl]

end

section
variable {s : State} {p pd a tmo : Nat}

theorem State.waitResume_event {ev : IEvent} {rest : List IEvent} (hb : (s.eng p).blocked = some (.wait pd a tmo))
    (hw : s.engState p = stWait) (hh : s.fe.held = false) (hl : s.ilist (s.logicalOf p) = ev :: rest) :
    s.waitResume p = (s.takeEvent p pd a ev rest).unblock p 30 := by
  simp only [State.waitResume, hb, hl, hw, hh, and_self, if_true]

theorem State.waitTimeout_ends (hb : (s.eng p).blocked = some (.wait pd a tmo)) (hw : s.engState p = stWait)
    (hh : s.fe.held = false) (hl : s.ilist (s.logicalOf p) = []) (ht : tmo ≠ 0xFFFFFFFF) :
    s.waitTimeout p = (s.waitNone p pd).unblock p 10 := by
  simp [State.waitTimeout, hb, hl, hw, hh, ht]

/-- A timeout of 0xFFFF_FFFF never ends. -/
theorem State.waitTimeout_never (hb : (s.eng p).blocked = some (.wait pd a 0xFFFFFFFF)) : s.waitTimeout p = s := by
  cases hl : s.ilist (s.logicalOf p) with
  | nil => simp [State.waitTimeout, hb, hl]
  | cons ev rest => simp only [State.waitTimeout, hb, hl]

end

end Sys2Proof.Machine
end

section
open Sys2Proof Sys2Proof.Machine Sys2Proof.Safety

/-- Settles O27: WAIT by its alignment, its list and its timeout, and what taking an event or none leaves behind. -/
theorem waitResult : Obligations.WaitResult := by
  unfold Obligations.WaitResult
  refine ⟨fun s p ps pd ra rb h => ⟨fun ha ev rest hl => ?_, fun ha hl => ⟨fun ht => ?_, fun ht => ?_⟩, fun ha => ?_⟩,
    fun s p pd a ev rest _ _ => ?_, fun s p pd => ?_, fun s p pd a tmo hb hw hh => ?_⟩
  · exact next_goOn h (f := zWait p pd ra rb) (zWait_event ha hl)
  · exact next_goOn h (f := zWait p pd ra rb) ((zWait_empty ha hl).trans (if_pos ht))
  · have blocks := (zWait_empty (pd := pd) (rb := rb) ha hl).trans (if_neg ht)
    refine ⟨_, next_wait h (f := zWait p pd ra rb) blocks, State.engState_setEngState .., ?_, ?_, rfl, rfl,
      fun q i => ?_⟩
    · rw [State.pc_setEngState, State.pc_modEng]
    · rw [State.eng_setEngState, State.eng_modEng_same]
    · obtain ⟨hw, hp, -, -⟩ := State.files_modEng s p (fun e => { e with
          blocked := some (.wait pd (lsAddr (s.w p ra)) ((s.w p rb).toNat % 2 ^ 32)), passBrk := false })
        (fun _ => rfl) (fun _ => rfl) (fun _ => rfl) (fun _ => rfl) q i
      exact ⟨hw, hp⟩
  · exact next_exc h (f := zWait p pd ra rb) (zWait_unaligned ha)
  · have eng := s.eng_takeEvent p pd a ev rest
    refine ⟨s.ilist_takeEvent .., State.p_of_eng (by rw [eng]), ?_, fun k hk => ?_, State.w_congr ?_⟩
    · have sat : (if rest.length < 0xFFFF then rest.length else 0xFFFF) = min rest.length 0xFFFF := by
        split <;> omega
      rw [eng, sat]
      rfl
    · have len : (eventWords ev).length = 8 := rfl
      have word := (s.eng p).lsWord_lsPut a (l := eventWords ev) (k := k) (by omega) (by omega)
      rw [List.getD_eq_getElem _ _ (by omega), ← word, State.lsW, eng]
      simp only [Engine.lsWord, Engine.lsByte, Engine.putP_ls]
    · rw [eng, Engine.putP_w]
      rfl
  · have eng := s.eng_waitNone p pd
    refine ⟨State.p_of_eng (by rw [eng]), ?_, ?_⟩
    · rw [State.waitNone, State.setS5, State.modEng_lists, State.setP_lists]
    · rw [eng, Engine.putP_ls]
  · refine ⟨fun ev rest hl => ?_, fun hl ht => ?_, fun ht => ?_⟩
    · exact congrArg _ (State.waitResume_event hb hw hh hl)
    · exact congrArg _ (State.waitTimeout_ends hb hw hh hl ht)
    · subst ht
      exact congrArg _ (State.waitTimeout_never hb)

end

section
/-! SUPPORT. Group bitmaps (R53, R107, R108): the listed bytes of a canonical field memory give the members of a group in rising
order, and a whole-bitmap operation works word by word. -/
namespace Sys2Proof.Machine
open Sys2Proof

/-! ## Listed pairs of a canonical store -/

section
variable {α : Type} {d : Nat → α}

theorem skeysAbove_lt {b : Nat} {m : Store α} (h : skeysAbove b m = true) : ∀ e ∈ m, b < e.1 := by
  induction m generalizing b with
  | nil => simp
  | cons e r ih =>
    obtain ⟨hb, hr⟩ : b < e.1 ∧ skeysAbove e.1 r = true := by simpa [skeysAbove] using h
    exact List.forall_mem_cons.mpr ⟨hb, fun x hx => hb.trans (ih hr x hx)⟩

theorem pairwise_of_skeysAbove {b : Nat} {m : Store α} (h : skeysAbove b m = true) : m.Pairwise (fun x y => x.1 < y.1) := by
  induction m generalizing b with
  | nil => exact .nil
  | cons e r ih =>
    obtain ⟨-, hr⟩ : b < e.1 ∧ skeysAbove e.1 r = true := by simpa [skeysAbove] using h
    exact .cons (skeysAbove_lt hr) (ih hr)

/-- The keys of a canonical store rise. -/
theorem pairwise_of_srising {m : Store α} (h : srising m = true) : m.Pairwise (fun x y => x.1 < y.1) := by
  cases m with
  | nil => exact .nil
  | cons e r => exact .cons (skeysAbove_lt h) (pairwise_of_skeysAbove h)

/-- A listed pair reads back. -/
theorem sget_of_mem {m : Store α} (h : m.Pairwise (fun x y => x.1 < y.1)) {k : Nat} {v : α} (hm : (k, v) ∈ m) :
    sget d m k = v := by
  induction m with
  | nil => exact absurd hm (by simp)
  | cons e r ih =>
    obtain ⟨j, w⟩ := e
    rw [List.pairwise_cons] at h
    rcases List.mem_cons.mp hm with he | he
    · cases he
      exact if_pos rfl
    · exact (if_neg (h.1 _ he).ne).trans (ih h.2 he)

/-- What does not read as unlisted is listed. -/
theorem mem_of_sget_ne {m : Store α} {k : Nat} (h : sget d m k ≠ d k) : (k, sget d m k) ∈ m := by
  induction m with
  | nil => exact absurd rfl h
  | cons e r ih =>
    obtain ⟨j, w⟩ := e
    by_cases hj : j = k
    · subst hj
      exact List.mem_cons.mpr (.inl (by rw [sget, if_pos rfl]))
    · rw [sget, if_neg hj] at h ⊢
      exact List.mem_cons_of_mem _ (ih h)

end

/-! ## The members of a group -/

theorem mem_onesBelow {n v k : Nat} : k ∈ onesBelow n v ↔ k < n ∧ v.testBit k = true := by
  induction n with
  | zero => simp [onesBelow]
  | succ n ih =>
    rw [onesBelow, List.mem_append, ih]
    by_cases h : v.testBit n = true
    · rw [if_pos h, List.mem_singleton]
      constructor
      · rintro (⟨hk, hb⟩ | rfl)
        · exact ⟨by omega, hb⟩
        · exact ⟨by omega, h⟩
      · rintro ⟨hk, hb⟩
        rcases Nat.lt_succ_iff_lt_or_eq.mp hk with hk | hk
        · exact .inl ⟨hk, hb⟩
        · exact .inr hk
    · rw [if_neg h]
      constructor
      · rintro (⟨hk, hb⟩ | hk)
        · exact ⟨by omega, hb⟩
        · exact absurd hk (by simp)
      · rintro ⟨hk, hb⟩
        rcases Nat.lt_succ_iff_lt_or_eq.mp hk with hk | hk
        · exact .inl ⟨hk, hb⟩
        · exact absurd (hk ▸ hb) h

theorem onesBelow_pairwise (n v : Nat) : (onesBelow n v).Pairwise (· < ·) := by
  induction n with
  | zero => exact .nil
  | succ n ih =>
    rw [onesBelow, List.pairwise_append]
    refine ⟨ih, ?_, fun x hx y hy => ?_⟩
    · split
      · exact List.pairwise_singleton ..
      · exact .nil
    · have hx' := (mem_onesBelow.mp hx).1
      split at hy
      · rw [List.mem_singleton] at hy
        omega
      · exact absurd hy (by simp)

/-- The members of group `g` as its listed bytes give them. -/
def State.grpMembers (s : State) (g : Nat) : List Nat :=
  (s.grpBytes g).flatMap (fun c => (onesBelow 8 c.2.toNat).map (fun k => 8 * c.1 + k))

theorem State.grpFind_eq (s : State) (g start : Nat) :
    s.grpFind g start = (s.grpMembers g).find? (fun i => decide (start ≤ i)) := rfl

theorem State.grpCount_eq (s : State) (g : Nat) : s.grpCount g = (s.grpMembers g).length := by
  rw [State.grpCount, State.grpMembers, List.length_flatMap, List.sum_eq_foldl]
  simp only [List.length_map]

/-- A byte of the bitmaps that was never written is 0. -/
theorem fmemReset_grp (g i : Nat) : fmemReset (grpBase g + i) = 0 := by
  rw [fmemReset, if_neg (by rw [grpBase]; omega)]

section
variable {s : State} {g : Nat} (h : Safety.canonical fmemReset s.fmem)
include h

/-- The members are those whose bit is set. -/
theorem State.mem_grpMembers {i : Nat} : i ∈ s.grpMembers g ↔ i < 131072 ∧ s.grpBit g i = true := by
  have rising := pairwise_of_srising ((swf_iff _ _).mp h).1
  simp only [State.grpMembers, State.grpBytes, List.mem_flatMap, List.mem_map, List.mem_filter, decide_eq_true_eq,
    mem_onesBelow, State.grpBit, State.fbyte]
  constructor
  · rintro ⟨_, ⟨⟨a, v⟩, ⟨hm, hlo, hhi⟩, rfl⟩, k, ⟨hk, hb⟩, rfl⟩
    dsimp only at hlo hhi hb ⊢
    have e : grpBase g + (8 * (a - grpBase g) + k) / 8 = a := by omega
    refine ⟨by omega, ?_⟩
    rw [e, sget_of_mem rising hm, show (8 * (a - grpBase g) + k) % 8 = k by omega, ← BitVec.testBit_toNat, hb]
  · rintro ⟨hi, hb⟩
    have ne : sget fmemReset s.fmem (grpBase g + i / 8) ≠ fmemReset (grpBase g + i / 8) := by
      rw [fmemReset_grp]
      intro he
      rw [he] at hb
      simp at hb
    refine ⟨(i / 8, sget fmemReset s.fmem (grpBase g + i / 8)), ⟨_, ⟨mem_of_sget_ne ne, by dsimp only; omega⟩, by simp⟩,
      i % 8, ⟨by omega, ?_⟩, by dsimp only; omega⟩
    rwa [BitVec.testBit_toNat]

/-- They come in rising order. -/
theorem State.grpMembers_pairwise : (s.grpMembers g).Pairwise (· < ·) := by
  have rising := pairwise_of_srising ((swf_iff _ _).mp h).1
  have bytes : (s.grpBytes g).Pairwise (fun x y => x.1 < y.1) := by
    rw [State.grpBytes, List.pairwise_map]
    refine List.Pairwise.imp_of_mem ?_ (rising.filter _)
    intro x y hx hy hlt
    have hxb := (List.mem_filter.mp hx).2
    rw [decide_eq_true_eq] at hxb
    dsimp only
    omega
  rw [State.grpMembers, List.pairwise_flatMap]
  refine ⟨fun c _ => ?_, bytes.imp fun {x y} hlt i hi j hj => ?_⟩
  · rw [List.pairwise_map]
    exact (onesBelow_pairwise _ _).imp fun hlt => by omega
  · obtain ⟨k, hk, rfl⟩ := List.mem_map.mp hi
    obtain ⟨l, _, rfl⟩ := List.mem_map.mp hj
    have := (mem_onesBelow.mp hk).1
    omega

theorem State.grpMembers_eq : s.grpMembers g = (List.range 131072).filter (fun i => s.grpBit g i) := by
  refine (State.grpMembers_pairwise h).eq_of_mem_iff (List.pairwise_lt_range.filter _) fun i => ?_
  rw [State.mem_grpMembers h, List.mem_filter, List.mem_range]

/-- The count of a group's members counts its bits. -/
theorem State.grpCount_countP : s.grpCount g = (List.range 131072).countP (fun i => s.grpBit g i) := by
  rw [State.grpCount_eq, State.grpMembers_eq h, List.countP_eq_length_filter]

/-- The search finds the lowest member at or above the start. -/
theorem State.grpFind_some {m j : Nat} (hm : m ≤ j) (hj : j < 131072) (hb : s.grpBit g j = true)
    (hn : ∀ k, m ≤ k → k < j → s.grpBit g k = false) : s.grpFind g m = some j := by
  rw [State.grpFind_eq, State.grpMembers_eq h, List.find?_filter, List.find?_range_eq_some]
  refine ⟨by simp [hb, hm], List.mem_range.mpr hj, fun k hk => ?_⟩
  by_cases hmk : m ≤ k
  · simp [hn k hmk hk]
  · simp [hmk]

theorem State.grpFind_none {m : Nat} (hn : ∀ k, m ≤ k → k < 131072 → s.grpBit g k = false) : s.grpFind g m = none := by
  rw [State.grpFind_eq, State.grpMembers_eq h, List.find?_filter, List.find?_range_eq_none]
  intro k hk
  by_cases hmk : m ≤ k
  · simp [hn k hmk hk]
  · simp [hmk]

end

/-! ## One bit -/

/-- Bits of the bitmaps stand in different bytes or at different places of one. -/
theorem State.grpBit_setGrpBit_eq (s : State) {g i h j : Nat} (v : Bool) (hi : i < 131072) (hj : j < 131072) :
    (s.setGrpBit g i v).grpBit h j = if h = g ∧ j = i then v else s.grpBit h j := by
  by_cases e : h = g ∧ j = i
  · obtain ⟨rfl, rfl⟩ := e
    rw [if_pos ⟨rfl, rfl⟩, State.grpBit_setGrpBit]
  · rw [if_neg e, State.setGrpBit, State.grpBit, State.fbyte_setFByte, State.grpBit]
    by_cases hb : grpBase h + j / 8 = grpBase g + i / 8
    · have hk : j % 8 ≠ i % 8 := by
        simp only [grpBase] at hb
        omega
      have hj8 : j % 8 < 8 := Nat.mod_lt _ (by decide)
      rw [if_pos hb, hb]
      cases v
      · rw [if_neg (by decide)]
        simp only [BitVec.getLsbD_and, BitVec.getLsbD_not, BitVec.getLsbD_ofNat, Nat.testBit_two_pow, hk.symm, hj8,
          decide_true, decide_false, Bool.and_false, Bool.not_false, Bool.and_true]
      · rw [if_pos rfl]
        simp only [BitVec.getLsbD_or, BitVec.getLsbD_ofNat, Nat.testBit_two_pow, hk.symm, decide_false, Bool.and_false,
          Bool.or_false]
    · rw [if_neg hb]

theorem State.unmem_setGrpBit (s : State) (g i : Nat) (v : Bool) : (s.setGrpBit g i v).unmem = s.unmem :=
  State.unmem_setFByte ..

/-! ## Word by word -/

/-- A bit of a group in the word in which it stands. -/
theorem State.grpBit_word (s : State) (g i : Nat) :
    s.grpBit g i = (s.fword (grpBase g + 4 * (i / 32))).getLsbD (i % 32) := by
  have h := wordByte_getLsbD (s.fword (grpBase g + 4 * (i / 32))) (i / 8 % 4) (i % 8)
  rw [State.wordByte_fword _ _ (Nat.mod_lt _ (by decide)), decide_eq_true (Nat.mod_lt i (by decide)), Bool.true_and] at h
  rw [State.grpBit, show grpBase g + i / 8 = grpBase g + 4 * (i / 32) + i / 8 % 4 by omega, h]
  congr 1
  omega

/-- The first `n` words of a whole-bitmap operation. -/
def State.grpWordsTo (s : State) (d a b : Nat) (f : Word → Word → Word) (n : Nat) : State :=
  foldS (List.range n) (fun k s => s.setFWord (grpBase d + 4 * k) (f (s.fword (grpBase a + 4 * k)) (s.fword (grpBase b + 4 * k)))) s

theorem State.grpWordsTo_succ (s : State) (d a b : Nat) (f : Word → Word → Word) (n : Nat) :
    s.grpWordsTo d a b f (n + 1) = (s.grpWordsTo d a b f n).setFWord (grpBase d + 4 * n)
      (f ((s.grpWordsTo d a b f n).fword (grpBase a + 4 * n)) ((s.grpWordsTo d a b f n).fword (grpBase b + 4 * n))) := by
  simp only [State.grpWordsTo, foldS, List.range_succ, List.foldl_append, List.foldl_cons, List.foldl_nil]

section
variable (s : State) (d a b : Nat) (f : Word → Word → Word)

/-- The bytes outside the words written stay. -/
theorem State.fbyte_grpWordsTo_ne {n x : Nat} (h : x < grpBase d ∨ grpBase d + 4 * n ≤ x) :
    (s.grpWordsTo d a b f n).fbyte x = s.fbyte x := by
  induction n with
  | zero => rfl
  | succ n ih =>
    rw [State.grpWordsTo_succ, State.fbyte_setFWord_ne _ _ _ _ (by omega), ih (by omega)]

/-- So does, in any group, the word at a place that is still to come: it lies in another group or behind those written. -/
theorem State.fword_grpWordsTo_ahead (g : Nat) {n k : Nat} (hn : n ≤ 4096) (h : n ≤ k) (hk : k < 4096) :
    (s.grpWordsTo d a b f n).fword (grpBase g + 4 * k) = s.fword (grpBase g + 4 * k) := by
  have ne (i : Nat) (hi : i < 4) : (s.grpWordsTo d a b f n).fbyte (grpBase g + 4 * k + i) = s.fbyte (grpBase g + 4 * k + i) := by
    refine s.fbyte_grpWordsTo_ne d a b f ?_
    simp only [grpBase]
    omega
  rw [State.fword, State.fword, ← Nat.add_zero (grpBase g + 4 * k), ne 0 (by omega), ne 1 (by omega), ne 2 (by omega),
    ne 3 (by omega)]

/-- A word written is the operation on the words as they were. -/
theorem State.fword_grpWordsTo {n k : Nat} (hn : n ≤ 4096) (h : k < n) :
    (s.grpWordsTo d a b f n).fword (grpBase d + 4 * k) = f (s.fword (grpBase a + 4 * k)) (s.fword (grpBase b + 4 * k)) := by
  induction n with
  | zero => exact absurd h (by omega)
  | succ n ih =>
    rw [State.grpWordsTo_succ]
    rcases Nat.lt_succ_iff_lt_or_eq.mp h with hk | rfl
    · rw [State.fword_setFWord_ne _ _ _ _ (by omega), ih (by omega) hk]
    · rw [State.fword_setFWord_same, s.fword_grpWordsTo_ahead d a b f a (by omega) le_rfl (by omega),
        s.fword_grpWordsTo_ahead d a b f b (by omega) le_rfl (by omega)]

theorem State.unmem_grpWords : (s.grpWords d a b f).unmem = s.unmem :=
  foldS_keeps State.unmem _ (fun _ t => t.unmem_setFWord _ _) _ _

/-- Every bit of the destination is the operation on the bits of the operands. -/
theorem State.grpBit_grpWords {g : Bool → Bool → Bool}
    (hf : ∀ (x y : Word) (i : Nat), i < 32 → (f x y).getLsbD i = g (x.getLsbD i) (y.getLsbD i)) {k : Nat} (hk : k < 131072) :
    (s.grpWords d a b f).grpBit d k = g (s.grpBit a k) (s.grpBit b k) := by
  have h := s.fword_grpWordsTo d a b f (n := 4096) (k := k / 32) le_rfl (by omega)
  rw [State.grpBit_word, s.grpBit_word a, s.grpBit_word b, ← hf _ _ _ (Nat.mod_lt _ (by decide)), ← h]
  rfl

/-- What a whole-bitmap operation leaves: the destination's bits, every byte outside it, and the rest of the state. -/
theorem State.grpWords_spec {g : Bool → Bool → Bool}
    (hf : ∀ (x y : Word) (i : Nat), i < 32 → (f x y).getLsbD i = g (x.getLsbD i) (y.getLsbD i)) :
    let t := s.grpWords d a b f
    (∀ k : Nat, k < 131072 → t.grpBit d k = g (s.grpBit a k) (s.grpBit b k)) ∧
    (∀ x : Nat, x < grpBase d ∨ grpBase d + 0x4000 ≤ x → t.fbyte x = s.fbyte x) ∧
    { t with fmem := s.fmem, pair := { t.pair with dirty := s.pair.dirty } } = s :=
  ⟨fun _ hk => s.grpBit_grpWords d a b f hf hk, fun _ hx => s.fbyte_grpWordsTo_ne d a b f (n := 4096) hx,
    State.unmem_eq (s.unmem_grpWords d a b f)⟩

end

/-! ## The instructions by their operands -/

section
variable {s : State} {p rg ri rd ra rb : Nat} {wr : Bool} {g : Nat → Nat → ZOut}

theorem State.grpBitOp_done (hg : (s.w p rg).toNat < 512) (hi : (s.w p ri).toNat < 131072)
    (hw : wr = true → (s.w p rg).toNat ≠ 0) : s.grpBitOp p rg ri wr g = g (s.w p rg).toNat (s.w p ri).toNat := by
  have h0 : ¬ (wr && (s.w p rg).toNat == 0) = true := by
    rw [Bool.and_eq_true, beq_iff_eq]
    exact fun h => hw h.1 h.2
  rw [State.grpBitOp, if_neg (by omega), if_neg (by omega), if_neg h0]

theorem State.grpBitOp_epRange (hi : 131072 ≤ (s.w p ri).toNat) : s.grpBitOp p rg ri wr g = .exc xEpRange 0 := if_pos hi

theorem State.grpBitOp_groupRange (hi : (s.w p ri).toNat < 131072) (hg : 512 ≤ (s.w p rg).toNat) :
    s.grpBitOp p rg ri wr g = .exc xGroupRange 0 := by
  rw [State.grpBitOp, if_neg (by omega), if_pos hg]

theorem State.grpBitOp_fieldRo (hi : (s.w p ri).toNat < 131072) (hg : (s.w p rg).toNat = 0) :
    s.grpBitOp p rg ri true g = .exc xFieldRo (w32 (grpBase 0 + (s.w p ri).toNat / 32 * 4)) := by
  rw [State.grpBitOp, if_neg (by omega), if_neg (by omega), if_pos (by rw [hg]; rfl)]
  rfl

variable {cost : Nat} {loads : List Nat} {f : Word → Word → Word}

theorem State.grpAll_done (hd : 0 < (s.w p rd).toNat) (hd' : (s.w p rd).toNat < 512) (ha : (s.w p ra).toNat < 512)
    (hb : (s.w p rb).toNat < 512) :
    s.grpAll p cost rd ra rb loads f =
      zField cost ((loads.map (fun r => (s.w p r).toNat)).flatMap (fun g => wordsFrom (grpBase g) 4096 false) ++
        wordsFrom (grpBase (s.w p rd).toNat) 4096 true) (s.grpWords (s.w p rd).toNat (s.w p ra).toNat (s.w p rb).toNat f) := by
  rw [State.grpAll, if_neg (by omega), if_neg (by omega), List.flatMap_map]

theorem State.grpAll_groupRange (h : 512 ≤ (s.w p rd).toNat ∨ 512 ≤ (s.w p ra).toNat ∨ 512 ≤ (s.w p rb).toNat) :
    s.grpAll p cost rd ra rb loads f = .exc xGroupRange 0 := if_pos h

theorem State.grpAll_fieldRo (hd : (s.w p rd).toNat = 0) (ha : (s.w p ra).toNat < 512) (hb : (s.w p rb).toNat < 512) :
    s.grpAll p cost rd ra rb loads f = .exc xFieldRo (w32 (grpBase 0)) := by
  rw [State.grpAll, if_neg (by omega), if_pos hd]
  rfl

end

end Sys2Proof.Machine
end

section
open Sys2Proof Sys2Proof.Machine Sys2Proof.Safety

/-- Settles O24: an instruction on one bit is `grpBitOp`, one on whole groups `grpAll`, each by its operands; the count goes by
the members that a canonical field memory lists. -/
theorem groupInstructions : Obligations.GroupInstructions := by
  unfold Obligations.GroupInstructions
  refine ⟨fun s p ps pd rg ri h => ?_, fun s g i k j v _ hi _ hj =>
    ⟨s.grpBit_setGrpBit_eq v hi hj, State.unmem_eq (s.unmem_setGrpBit g i v)⟩, fun s p ps rd ra rb h => ?_⟩
  · refine ⟨fun hg hi => ⟨fun h0 => ⟨?_, ?_⟩, ?_⟩, fun hg hc => ?_, fun hi => ⟨?_, ?_, ?_⟩, fun hi hg => ⟨?_, ?_, ?_⟩,
      fun hg => ?_, fun hi hg => ⟨?_, ?_⟩⟩
    · exact next_goOnField h (f := zGrpSet p rg ri) (State.grpBitOp_done hg hi fun _ => h0)
    · exact next_goOnField h (f := zGrpClr p rg ri) (State.grpBitOp_done hg hi fun _ => h0)
    · exact next_goOnField h (f := zGrpTst p pd rg ri) (State.grpBitOp_done hg hi (absurd · (by decide)))
    · rw [← State.grpCount_countP hc]
      exact next_goOnField h (f := zGrpCnt p ri rg) (if_neg (by omega))
    · exact next_exc h (f := zGrpSet p rg ri) (State.grpBitOp_epRange hi)
    · exact next_exc h (f := zGrpClr p rg ri) (State.grpBitOp_epRange hi)
    · exact next_exc h (f := zGrpTst p pd rg ri) (State.grpBitOp_epRange hi)
    · exact next_exc h (f := zGrpSet p rg ri) (State.grpBitOp_groupRange hi hg)
    · exact next_exc h (f := zGrpClr p rg ri) (State.grpBitOp_groupRange hi hg)
    · exact next_exc h (f := zGrpTst p pd rg ri) (State.grpBitOp_groupRange hi hg)
    · exact next_exc h (f := zGrpCnt p ri rg) (if_pos hg)
    · exact next_exc h (f := zGrpSet p rg ri) (State.grpBitOp_fieldRo hi hg)
    · exact next_exc h (f := zGrpClr p rg ri) (State.grpBitOp_fieldRo hi hg)
  · refine ⟨fun h0 hd ha hb => ⟨?_, ?_, ?_⟩, fun h0 hd ha => ?_, fun h0 hd => ?_, fun hr => ⟨?_, ?_, ?_⟩, fun hr => ?_,
      fun hr => ?_, fun h0 => ⟨?_, fun ha => ?_, fun ha hb => ⟨?_, ?_, ?_⟩⟩⟩
    · exact ⟨_, next_goOnField h (f := zGrpOr p rd ra rb) (State.grpAll_done h0 hd ha hb),
        State.grpWords_spec _ _ _ _ _ fun _ _ _ _ => BitVec.getLsbD_or⟩
    · exact ⟨_, next_goOnField h (f := zGrpAnd p rd ra rb) (State.grpAll_done h0 hd ha hb),
        State.grpWords_spec _ _ _ _ _ fun _ _ _ _ => BitVec.getLsbD_and⟩
    · exact ⟨_, next_goOnField h (f := zGrpAndn p rd ra rb) (State.grpAll_done h0 hd ha hb),
        State.grpWords_spec _ _ _ _ (fun a b => a &&& ~~~b) (g := fun x y => x && !y) fun x y i hi => by simp [hi]⟩
    · exact ⟨_, next_goOnField h (f := zGrpCopy p rd ra) (State.grpAll_done h0 hd ha ha),
        State.grpWords_spec _ _ _ _ (fun a _ => a) (g := fun x _ => x) fun _ _ _ _ => rfl⟩
    · exact ⟨_, next_goOnField h (f := zGrpClrall p rd) (State.grpAll_done h0 hd hd hd),
        State.grpWords_spec _ _ _ _ (fun _ _ => 0) (g := fun _ _ => false) fun _ _ _ _ => BitVec.getLsbD_zero⟩
    · exact next_exc h (f := zGrpOr p rd ra rb) (State.grpAll_groupRange hr)
    · exact next_exc h (f := zGrpAnd p rd ra rb) (State.grpAll_groupRange hr)
    · exact next_exc h (f := zGrpAndn p rd ra rb) (State.grpAll_groupRange hr)
    · exact next_exc h (f := zGrpCopy p rd ra) (State.grpAll_groupRange (by omega))
    · exact next_exc h (f := zGrpClrall p rd) (State.grpAll_groupRange (.inl hr))
    · exact next_exc h (f := zGrpClrall p rd) (State.grpAll_fieldRo h0 (by omega) (by omega))
    · exact next_exc h (f := zGrpCopy p rd ra) (State.grpAll_fieldRo h0 ha ha)
    · exact next_exc h (f := zGrpOr p rd ra rb) (State.grpAll_fieldRo h0 ha hb)
    · exact next_exc h (f := zGrpAnd p rd ra rb) (State.grpAll_fieldRo h0 ha hb)
    · exact next_exc h (f := zGrpAndn p rd ra rb) (State.grpAll_fieldRo h0 ha hb)

end

section
/-! SUPPORT. Cursors and fields of endpoint records (R104–R106), and the instructions on them by their cursor and operands. -/
namespace Sys2Proof.Machine
open Sys2Proof Sys2Proof.Safety

/-! ## Cursors -/

theorem State.stale_eq_true {s : State} {c : BitVec 25} : s.stale c = true ↔ s.ep (curIdx c) EP.GEN ≠ curGen c := by
  simp [State.stale]

theorem State.stale_eq_false {s : State} {c : BitVec 25} (h : s.ep (curIdx c) EP.GEN = curGen c) : ¬ s.stale c = true := by
  rw [State.stale_eq_true]
  exact not_not.mpr h

/-- A cursor made for a record names it, with its generation. -/
theorem State.cursor_curTo (s : State) {i : Nat} (h : i < 131072) :
    curIdx (s.curTo i) = i ∧ curGen (s.curTo i) = s.ep i EP.GEN := by
  have gen : s.ep i EP.GEN < 256 := getBits_lt ..
  simp only [State.curTo, curIdx, curGen, cursorOf, BitVec.toNat_ofNat]
  omega

/-! ## The writer rule on a field -/

theorem epWriterMask_lt (w : Nat) : epWriterMask w < 2 ^ 32 := by
  unfold epWriterMask
  split
  · decide
  · split <;> decide

/-- A field holds a bit that is not in the mask exactly when the field's bits meet the mask's complement. -/
theorem fieldMask_ne_zero {l n m : Nat} (hm : m < 2 ^ 32) (h : l + n ≤ 32) :
    ((2 ^ n - 1) * 2 ^ l &&& (0xFFFFFFFF - m)) ≠ 0 ↔ ∃ k, l ≤ k ∧ k < l + n ∧ m.testBit k = false := by
  have bits (k : Nat) : ((2 ^ n - 1) * 2 ^ l &&& (0xFFFFFFFF - m)).testBit k =
      (decide (l ≤ k ∧ k < l + n) && !m.testBit k) := by
    have compl : (0xFFFFFFFF - m).testBit k = (decide (k < 32) && !m.testBit k) := by
      rw [← Nat.testBit_two_pow_sub_succ hm]
      congr 1
      omega
    rw [Nat.testBit_and, Nat.testBit_mul_two_pow, Nat.testBit_two_pow_sub_one, compl]
    by_cases hk : l ≤ k ∧ k < l + n
    · have h1 : k - l < n := by omega
      have h2 : k < 32 := by omega
      simp [hk, h1, h2]
    · have h1 : ¬ (l ≤ k ∧ k - l < n) := by omega
      rw [decide_eq_false hk, Bool.false_and]
      rcases Decidable.not_and_iff_or_not.mp h1 with h1 | h1 <;> simp [h1]
  constructor
  · intro hne
    obtain ⟨k, hk⟩ := Nat.exists_testBit_of_ne_zero hne
    rw [bits, Bool.and_eq_true, decide_eq_true_eq, Bool.not_eq_true'] at hk
    exact ⟨k, hk.1.1, hk.1.2, hk.2⟩
  · rintro ⟨k, hl, hn, hb⟩ he
    have := bits k
    rw [he, decide_eq_true ⟨hl, hn⟩, hb, Nat.zero_testBit] at this
    exact absurd this (by decide)

/-! ## The instructions by their cursor and operands -/

section
variable {s : State} {p pd r ec word lsb wm1 : Nat} {sx : Bool}

theorem zLde_illegal (h : 32 < lsb + (wm1 + 1)) : zLde p r ec word lsb wm1 sx s = .exc xIllegal 0 := if_pos h

theorem zLde_stale (h : lsb + (wm1 + 1) ≤ 32) (hg : s.ep (curIdx (s.e p ec)) EP.GEN ≠ curGen (s.e p ec)) :
    zLde p r ec word lsb wm1 sx s = .exc xStaleCursor (w32 (epBase (curIdx (s.e p ec)) + 4 * word)) := by
  rw [zLde, if_neg (by omega), if_pos (State.stale_eq_true.mpr hg)]
  rfl

theorem zLde_field (h : lsb + (wm1 + 1) ≤ 32) (hg : s.ep (curIdx (s.e p ec)) EP.GEN = curGen (s.e p ec)) :
    zLde p r ec word lsb wm1 sx s =
      let a := epBase (curIdx (s.e p ec)) + 4 * word
      let v := getBits (s.fword a) lsb (wm1 + 1)
      zField 24 [(a / 4, false)]
        (s.setW p r (if sx then BitVec.ofInt 64 (toSigned (wm1 + 1) v) else BitVec.ofNat 64 v)) := by
  rw [zLde, if_neg (by omega), if_neg (State.stale_eq_false hg)]

theorem zSte_illegal (h : 32 < lsb + (wm1 + 1)) : zSte p r ec word lsb wm1 s = .exc xIllegal 0 := if_pos h

theorem zSte_stale (h : lsb + (wm1 + 1) ≤ 32) (hg : s.ep (curIdx (s.e p ec)) EP.GEN ≠ curGen (s.e p ec)) :
    zSte p r ec word lsb wm1 s = .exc xStaleCursor (w32 (epBase (curIdx (s.e p ec)) + 4 * word)) := by
  rw [zSte, if_neg (by omega), if_pos (State.stale_eq_true.mpr hg)]
  rfl

/-- STE on a current cursor: EP_INVALID, then FIELD_RO, then the field. -/
theorem zSte_current (h : lsb + (wm1 + 1) ≤ 32) (hg : s.ep (curIdx (s.e p ec)) EP.GEN = curGen (s.e p ec)) :
    zSte p r ec word lsb wm1 s =
      let a := epBase (curIdx (s.e p ec)) + 4 * word
      if s.epValid (curIdx (s.e p ec)) = false then .exc xEpInvalid (w32 a)
      else if ((2 ^ (wm1 + 1) - 1) * 2 ^ lsb &&& (0xFFFFFFFF - epWriterMask (4 * word))) ≠ 0 then .exc xFieldRo (w32 a)
      else zField 28 [(a / 4, true)] (s.setFWord a (setBits (s.fword a) lsb (wm1 + 1) (s.w p r).toNat)) := by
  rw [zSte, if_neg (by omega), if_neg (State.stale_eq_false hg)]
  simp only [Bool.not_eq_true', bne_iff_ne]
  rfl

theorem zLdr_current (h : lsAddr (s.w p r) % 4 = 0) (hg : s.ep (curIdx (s.e p ec)) EP.GEN = curGen (s.e p ec)) :
    zLdr p ec r s =
      let b := epBase (curIdx (s.e p ec))
      zField 48 ((rangeFrom (b / 4) 32).map (fun k => (k, false))) (s.lsStore p (lsAddr (s.w p r)) (s.fbytes b 128)) := by
  rw [zLdr, if_neg (not_not.mpr h), if_neg (State.stale_eq_false hg)]

theorem zLdr_stale (h : lsAddr (s.w p r) % 4 = 0) (hg : s.ep (curIdx (s.e p ec)) EP.GEN ≠ curGen (s.e p ec)) :
    zLdr p ec r s = .exc xStaleCursor (w32 (epBase (curIdx (s.e p ec)))) := by
  rw [zLdr, if_neg (not_not.mpr h), if_pos (State.stale_eq_true.mpr hg)]
  rfl

/-- SCAN.ROW of a row number in range: an invalid row, an empty one, and one with a head. -/
theorem zScanRow_row (h : (s.w p r).toNat ≤ 32767) :
    zScanRow p pd ec r s =
      let n := (s.w p r).toNat
      if s.row n ROW.VALID = 0 then zField 26 (scanRowWords n) (s.scanMiss p pd scanRowInvalid)
      else if s.row n ROW.HEAD_VALID = 0 then zField 26 (scanRowWords n) (s.scanMiss p pd scanEnd)
      else zField 26 (scanRowWords n ++ [genWord (s.row n ROW.HEAD)]) (s.scanTo p pd ec (s.row n ROW.HEAD)) :=
  if_neg (by omega)

/-- SCAN.NEXT on a current cursor: a record on no row, the last of its row, and one with a next. -/
theorem zScanNext_current (hg : s.ep (curIdx (s.e p ec)) EP.GEN = curGen (s.e p ec)) :
    zScanNext p pd ec s =
      let i := curIdx (s.e p ec)
      if s.epValid i = false ∨ s.ep i EP.ON_ROW = 0 then zField 26 (scanNextWords i) (s.scanMiss p pd scanNotOnRow)
      else if s.ep i EP.NEXT_VALID = 0 then zField 26 (scanNextWords i) (s.scanMiss p pd scanEnd)
      else zField 26 (scanNextWords i ++ [genWord (s.ep i EP.NEXT)]) (s.scanTo p pd ec (s.ep i EP.NEXT)) :=
  if_neg (State.stale_eq_false hg)

theorem zScanGrp_some {g m j : Nat} (hv : (s.w p r).toNat = g * 2 ^ 32 + m) (hg : g < 512) (hm : m < 131072)
    (h : s.grpFind g m = some j) :
    zScanGrp p pd ec r s = zField (4 + ceilDiv (j / 8 - m / 8 + 1) 64)
      (wordsFrom (grpBase g + m / 8) (j / 32 - m / 32 + 1) false ++ [genWord j]) (s.scanTo p pd ec j) := by
  have e1 : (g * 2 ^ 32 + m) / 2 ^ 32 = g := by omega
  have e2 : (g * 2 ^ 32 + m) % 2 ^ 32 = m := by omega
  rw [zScanGrp, hv, e1, e2, if_neg (by omega), h]
  rfl

theorem zScanGrp_none {g m : Nat} (hv : (s.w p r).toNat = g * 2 ^ 32 + m) (hg : g < 512) (hm : m < 131072)
    (h : s.grpFind g m = none) :
    zScanGrp p pd ec r s = zField (4 + ceilDiv (16383 - m / 8 + 1) 64)
      (wordsFrom (grpBase g + m / 8) (4096 - m / 32) false) (s.scanMiss p pd scanNotFound) := by
  have e1 : (g * 2 ^ 32 + m) / 2 ^ 32 = g := by omega
  have e2 : (g * 2 ^ 32 + m) % 2 ^ 32 = m := by omega
  rw [zScanGrp, hv, e1, e2, if_neg (by omega), h]
  rfl

end

end Sys2Proof.Machine
end

section
open Sys2Proof Sys2Proof.Machine Sys2Proof.Safety

/-- Settles O23: each instruction by its cursor's generation and its operands; SCAN.GRP goes by the members that a canonical field
memory lists. -/
theorem recordsAndCursors : Obligations.RecordsAndCursors := by
  unfold Obligations.RecordsAndCursors
  intro s p ps pd r ec word lsb wm1 h
  refine ⟨fun hf hg => ⟨?_, ?_, fun hv hm => ?_, fun hv => ?_, fun hv hm => ?_⟩, fun hf hg => ⟨fun sx => ?_, ?_⟩,
    fun hf => ⟨fun sx => ?_, ?_⟩, fun hv => ?_, fun hv => ?_, fun ha => ?_, fun ha hg => ?_, fun hv => ?_, fun hg => ?_,
    fun hv => ?_, fun hv => ?_, fun hv => ⟨?_, s.cursor_curTo hv⟩, ?_, fun ha hg => ?_,
    fun hr => ⟨fun h0 => ?_, fun h1 h0 => ?_, fun h1 h2 => ?_⟩, fun hg => ⟨fun h0 => ?_, fun h1 h2 h0 => ?_, fun h1 h2 h3 => ?_⟩,
    fun g m hv hg hm hc => ⟨fun j hmj hj hb hn => ?_, fun hn => ?_⟩⟩
  · exact next_goOnField h (f := zLde p r ec word lsb wm1 false) (zLde_field hf hg)
  · exact next_goOnField h (f := zLde p r ec word lsb wm1 true) (zLde_field hf hg)
  · refine next_goOnField h (f := zSte p r ec word lsb wm1) ((zSte_current hf hg).trans
      ((if_neg (by rw [hv]; decide)).trans (if_neg ?_)))
    rw [fieldMask_ne_zero (epWriterMask_lt _) hf]
    rintro ⟨k, hl, hu, hb⟩
    exact absurd (hm k hl hu) (Bool.eq_false_iff.mp hb)
  · exact next_exc h (f := zSte p r ec word lsb wm1) ((zSte_current hf hg).trans (if_pos hv))
  · exact next_exc h (f := zSte p r ec word lsb wm1) ((zSte_current hf hg).trans
      ((if_neg (by rw [hv]; decide)).trans (if_pos ((fieldMask_ne_zero (epWriterMask_lt _) hf).mpr hm))))
  · exact next_exc h (f := zLde p r ec word lsb wm1 sx) (zLde_stale hf hg)
  · exact next_exc h (f := zSte p r ec word lsb wm1) (zSte_stale hf hg)
  · exact next_exc h (f := zLde p r ec word lsb wm1 sx) (zLde_illegal hf)
  · exact next_exc h (f := zSte p r ec word lsb wm1) (zSte_illegal hf)
  · exact next_exc h (f := zEcur p ec r) (if_pos hv)
  · exact next_exc h (f := zEcurG p ec r) (if_pos hv)
  · exact next_exc h (f := zLdr p ec r) (if_pos ha)
  · exact next_exc h (f := zLdr p ec r) (zLdr_stale ha hg)
  · exact next_exc h (f := zScanRow p pd ec r) (if_pos hv)
  · exact next_exc h (f := zScanNext p pd ec) (if_pos (State.stale_eq_true.mpr hg))
  · exact next_exc h (f := zScanGrp p pd ec r) (if_pos hv)
  · refine next_goOn h (f := zEcur p ec r) ((if_neg (by omega)).trans ?_)
    rw [BitVec.ofNat_toNat]
  · exact next_goOnAt h (f := zEcurG p ec r) (if_neg (by omega))
  · exact next_goOn h (f := zErd p r ec) rfl
  · exact next_goOnField h (f := zLdr p ec r) (zLdr_current ha hg)
  · exact next_goOnField h (f := zScanRow p pd ec r) ((zScanRow_row hr).trans (if_pos h0))
  · exact next_goOnField h (f := zScanRow p pd ec r) ((zScanRow_row hr).trans ((if_neg h1).trans (if_pos h0)))
  · exact next_goOnField h (f := zScanRow p pd ec r) ((zScanRow_row hr).trans ((if_neg h1).trans (if_neg h2)))
  · exact next_goOnField h (f := zScanNext p pd ec) ((zScanNext_current hg).trans (if_pos h0))
  · have on : ¬ (s.epValid (curIdx (s.e p ec)) = false ∨ s.ep (curIdx (s.e p ec)) EP.ON_ROW = 0) := by simp [h1, h2]
    exact next_goOnField h (f := zScanNext p pd ec) ((zScanNext_current hg).trans ((if_neg on).trans (if_pos h0)))
  · have on : ¬ (s.epValid (curIdx (s.e p ec)) = false ∨ s.ep (curIdx (s.e p ec)) EP.ON_ROW = 0) := by simp [h1, h2]
    exact next_goOnField h (f := zScanNext p pd ec) ((zScanNext_current hg).trans ((if_neg on).trans (if_neg h3)))
  · exact next_goOnField h (f := zScanGrp p pd ec r) (zScanGrp_some hv hg hm (State.grpFind_some hc hmj hj hb hn))
  · exact next_goOnField h (f := zScanGrp p pd ec r) (zScanGrp_none hv hg hm (State.grpFind_none hc hn))

end

section
/-! SUPPORT. Time values (R46, R110) and SUN (R112): the parts of a time value, the signed numbers in a word, and the results of the
instructions on time registers. -/
namespace Sys2Proof.Machine
open Sys2Proof Sys2Proof.Safety

/-! ## The parts of a time value -/

section
variable {a b c : Nat}

/-- A time value made of parts in range as a number. -/
theorem mkStamp_toNat (ha : a < 2 ^ 48) (hb : b < 2 ^ 32) (hc : c < 2 ^ 16) :
    (mkStamp a b c).toNat = a * 2 ^ 48 + b * 2 ^ 16 + c := by
  rw [mkStamp, BitVec.toNat_ofNat, Nat.mod_eq_of_lt ha, Nat.mod_eq_of_lt hb, Nat.mod_eq_of_lt hc, Nat.mod_eq_of_lt]
  omega

theorem stampParts_mkStamp (ha : a < 2 ^ 48) (hb : b < 2 ^ 32) (hc : c < 2 ^ 16) :
    stampSec (mkStamp a b c) = a ∧ stampNs (mkStamp a b c) = b ∧ stampFrac (mkStamp a b c) = c := by
  simp only [stampSec, stampNs, stampFrac, mkStamp_toNat ha hb hc, Nat.shiftRight_eq_div_pow]
  omega

theorem stampUnits_mkStamp (ha : a < 2 ^ 48) (hb : b < 2 ^ 32) (hc : c < 2 ^ 16) :
    stampUnits (mkStamp a b c) = (a * 1000000000 + b) * 65536 + c := by
  obtain ⟨hs, hn, hf⟩ := stampParts_mkStamp ha hb hc
  rw [stampUnits, hs, hn, hf, nsPerS]

/-- The normalised value of a count that nanoseconds in range have made has the parts that made it. -/
theorem stampParts_unitsStamp (ha : a < 2 ^ 48) (hb : b < 1000000000) (hc : c < 2 ^ 16) :
    let t := unitsStamp (((a * 1000000000 + b) * 65536 + c : Nat) : Int)
    stampSec t = a ∧ stampNs t = b ∧ stampFrac t = c := by
  have small : (((a * 1000000000 + b) * 65536 + c : Nat) : Int) % ((2 ^ 48 * nsPerS * 65536 : Nat) : Int) =
      (((a * 1000000000 + b) * 65536 + c : Nat) : Int) := by
    refine Int.emod_eq_of_lt (by omega) (Int.ofNat_lt.mpr ?_)
    rw [nsPerS]
    omega
  have e1 : ((a * 1000000000 + b) * 65536 + c) / 65536 / nsPerS = a := by rw [nsPerS]; omega
  have e2 : ((a * 1000000000 + b) * 65536 + c) / 65536 % nsPerS = b := by rw [nsPerS]; omega
  have e3 : ((a * 1000000000 + b) * 65536 + c) % 65536 = c := by omega
  rw [unitsStamp, small]
  simp only [Int.toNat_natCast, e1, e2, e3]
  exact stampParts_mkStamp ha (by omega) hc

end

theorem stampSec_lt (t : Stamp) : stampSec t < 2 ^ 48 := by
  rw [stampSec, Nat.shiftRight_eq_div_pow]
  omega

theorem stampNs_lt (t : Stamp) : stampNs t < 2 ^ 32 := Nat.mod_lt _ (by decide)
theorem stampFrac_lt (t : Stamp) : stampFrac t < 2 ^ 16 := Nat.mod_lt _ (by decide)

theorem stampUnits_eq (t : Stamp) : stampUnits t = (stampSec t * 1000000000 + stampNs t) * 65536 + stampFrac t := rfl

/-! ## Parts of a time register -/

/-- The four parts of a time register. -/
def TReg.parts (z : TReg) : List Nat := [stampSec z.val, stampNs z.val, stampFrac z.val, z.tag.toNat]

theorem tPart_eq (z : TReg) (k : Fin 4) : tPart z k = z.parts.getD k 0 := by
  fin_cases k <;> rfl

theorem tPartMax_eq (k : Fin 4) : tPartMax k = [2 ^ 48 - 1, 999999999, 65535, 255].getD k 0 := by
  revert k
  decide

theorem unitSize_eq (k : Fin 5) : unitSize k = [1, 65536, 65536000, 65536000000, 65536000000000].getD k 0 := by
  revert k
  decide

/-- The register whose value counts seconds, nanoseconds and fraction, with a tag. -/
def TReg.ofParts (a b c : Nat) (g : Byte) : TReg := ⟨unitsStamp (((a * 1000000000 + b) * 65536 + c : Nat) : Int), g⟩

theorem TReg.parts_ofParts {a b c : Nat} (g : Byte) (ha : a < 2 ^ 48) (hb : b < 1000000000) (hc : c < 2 ^ 16) :
    (TReg.ofParts a b c g).parts = [a, b, c, g.toNat] := by
  obtain ⟨hs, hn, hf⟩ := stampParts_unitsStamp ha hb hc
  rw [TReg.parts, TReg.ofParts, hs, hn, hf]

/-- TSET replaces one part of a time register and normalises the value. -/
theorem tSetPart_eq (y : TReg) (k : Fin 4) {v : Nat} (hv : v ≤ tPartMax k) :
    ∃ a b c g, tSetPart y k v = TReg.ofParts a b c g ∧ y.parts.set k v = [a, b, c, g.toNat] ∧
      (stampNs y.val < 1000000000 → (tSetPart y k v).parts = [a, b, c, g.toNat]) := by
  have hs := stampSec_lt y.val
  have hn := stampNs_lt y.val
  have hf := stampFrac_lt y.val
  have norm {a b c : Nat} (ha : a < 2 ^ 48) (hb : b < 2 ^ 32) (hc : c < 2 ^ 16) :
      normStamp (mkStamp a b c) = unitsStamp (((a * 1000000000 + b) * 65536 + c : Nat) : Int) := by
    rw [normStamp, stampUnits_mkStamp ha hb hc]
  fin_cases k
  · replace hv : v < 2 ^ 48 := Nat.lt_succ_of_le hv
    have e : tSetPart y 0 v = TReg.ofParts v (stampNs y.val) (stampFrac y.val) y.tag := congrArg (TReg.mk · y.tag) (norm hv hn hf)
    exact ⟨_, _, _, _, e, rfl, fun h => (congrArg _ e).trans (TReg.parts_ofParts _ hv h hf)⟩
  · replace hv : v < 1000000000 := Nat.lt_succ_of_le hv
    have e : tSetPart y 1 v = TReg.ofParts (stampSec y.val) v (stampFrac y.val) y.tag :=
      congrArg (TReg.mk · y.tag) (norm hs (by omega) hf)
    exact ⟨_, _, _, _, e, rfl, fun _ => (congrArg _ e).trans (TReg.parts_ofParts _ hs hv hf)⟩
  · replace hv : v < 2 ^ 16 := Nat.lt_succ_of_le hv
    have e : tSetPart y 2 v = TReg.ofParts (stampSec y.val) (stampNs y.val) v y.tag :=
      congrArg (TReg.mk · y.tag) (norm hs hn hv)
    exact ⟨_, _, _, _, e, rfl, fun h => (congrArg _ e).trans (TReg.parts_ofParts _ hs h hv)⟩
  · have hv8 : (BitVec.ofNat 8 v).toNat = v := Nat.mod_eq_of_lt (Nat.lt_succ_of_le hv)
    have e : tSetPart y 3 v = TReg.ofParts (stampSec y.val) (stampNs y.val) (stampFrac y.val) (BitVec.ofNat 8 v) := rfl
    refine ⟨_, _, _, _, e, ?_, fun h => (congrArg _ e).trans (TReg.parts_ofParts _ hs h hf)⟩
    rw [hv8]
    rfl

/-! ## Saturation and conditions -/

theorem sat64_low {q : Int} (h : q < -2 ^ 63) : sat64 q = BitVec.ofInt 64 (-2 ^ 63) := by
  rw [sat64, if_pos (by simpa using h)]
  rfl

theorem sat64_high {q : Int} (h : 2 ^ 63 ≤ q) : sat64 q = BitVec.ofInt 64 (2 ^ 63 - 1) := by
  have h1 : ¬ q < -((2 ^ 63 : Nat) : Int) := by push_cast; omega
  have h2 : ((2 ^ 63 : Nat) : Int) ≤ q := by push_cast; omega
  rw [sat64, if_neg h1, if_pos h2]
  rfl

theorem sat64_mid {q : Int} (h : -2 ^ 63 ≤ q) (h' : q < 2 ^ 63) : sat64 q = BitVec.ofInt 64 q := by
  have h1 : ¬ q < -((2 ^ 63 : Nat) : Int) := by push_cast; omega
  have h2 : ¬ ((2 ^ 63 : Nat) : Int) ≤ q := by push_cast; omega
  rw [sat64, if_neg h1, if_neg h2]

theorem tCond_eq (x y : TReg) (c : Fin 4) :
    [decide (x.val.toNat < y.val.toNat), decide (y.val.toNat ≤ x.val.toNat), decide (x.val = y.val),
      decide (x.tag = y.tag)][c.val]? = some (tCond c x y) := by
  fin_cases c
  · rfl
  · rfl
  · exact congrArg some (beq_eq_decide x.val y.val).symm
  · exact congrArg some (beq_eq_decide x.tag y.tag).symm

/-! ## SUN -/

/-- The signed value of a word. -/
theorem toSigned_toInt (w : Word) : toSigned 32 w.toNat = w.toInt := by
  rw [toSigned, BitVec.toInt_eq_toNat_cond, Nat.mod_eq_of_lt w.isLt]
  split <;> split <;> omega

theorem toSigned_mod (v : Nat) : toSigned 32 (v % 2 ^ 32) = toSigned 32 v := by
  rw [toSigned, toSigned, Nat.mod_mod]

/-- The low and the high half of a working register. -/
theorem extract_low (v : DWord) : (v.extractLsb' 0 32).toNat = v.toNat % 2 ^ 32 := by simp [BitVec.extractLsb'_toNat]
theorem extract_high (v : DWord) : (v.extractLsb' 32 32).toNat = v.toNat / 2 ^ 32 := by
  have := v.isLt
  rw [BitVec.extractLsb'_toNat, Nat.shiftRight_eq_div_pow]
  exact Nat.mod_eq_of_lt (by omega)

theorem toSigned_low (v : DWord) : toSigned 32 v.toNat = (v.extractLsb' 0 32).toInt := by
  rw [← toSigned_toInt, extract_low, toSigned_mod]
theorem toSigned_high (v : DWord) : toSigned 32 (v.toNat / 2 ^ 32) = (v.extractLsb' 32 32).toInt := by
  rw [← toSigned_toInt, extract_high]

/-- Two halves put together. -/
theorem halves_toNat {a b : Nat} (ha : a < 2 ^ 32) (hb : b < 2 ^ 32) : (BitVec.ofNat 64 (a * 2 ^ 32 + b)).toNat = a * 2 ^ 32 + b := by
  rw [BitVec.toNat_ofNat]
  omega

theorem ofSigned_lt (v : Int) : ofSigned 32 v < 2 ^ 32 := by
  rw [ofSigned]
  omega

theorem ofNat_ofSigned (v : Int) : BitVec.ofNat 32 (ofSigned 32 v) = BitVec.ofInt 32 v := by
  apply BitVec.eq_of_toNat_eq
  rw [BitVec.toNat_ofNat, BitVec.toNat_ofInt, Nat.mod_eq_of_lt (ofSigned_lt v)]
  rfl

theorem sunError_le (n : Nat) : (sunError n).natAbs ≤ 20 := by
  rw [sunError]
  omega

/-- SUN's result: an azimuth in range above an elevation. -/
def sunResult (az el : Int) : DWord := BitVec.ofNat 64 ((az % 360000).toNat * 2 ^ 32 + ofSigned 32 el)

theorem sunResult_high (az el : Int) : (((sunResult az el).extractLsb' 32 32).toNat : Int) = az % 360000 := by
  have hb := ofSigned_lt el
  rw [extract_high, sunResult, halves_toNat (by omega) hb]
  omega

theorem sunResult_high_lt (az el : Int) : ((sunResult az el).extractLsb' 32 32).toNat < 360000 := by
  have := sunResult_high az el
  omega

theorem sunResult_low (az el : Int) : (sunResult az el).extractLsb' 0 32 = BitVec.ofInt 32 el := by
  rw [← ofNat_ofSigned]
  apply BitVec.eq_of_toNat_eq
  have hb := ofSigned_lt el
  rw [extract_low, sunResult, halves_toNat (by omega) hb, BitVec.toNat_ofNat]
  omega

section
variable {s : State} {p ra ta : Nat} {lon lat utc : Int}
  (hlon : lon = ((s.w p ra).extractLsb' 32 32).toInt) (hlat : lat = ((s.w p ra).extractLsb' 0 32).toInt)
  (hutc : utc = (stampSec (s.t p ta).val : Int) - (s.r R.TIME_UTCOFF.reg).toInt)
include hlon hlat hutc

theorem zSun_range (h : 1800000000 < lon.natAbs ∨ 900000000 < lat.natAbs ∨ utc < 946684800 ∨ 7258118400 ≤ utc) :
    zSun p ra ta s = .exc xArgRange 0 := by
  rw [zSun, toSigned_high, toSigned_low, toSigned_toInt, ← hlon, ← hlat, ← hutc]
  refine if_pos ?_
  rw [sunFirst, sunLast]
  omega

/-- SUN in range: both results are free within the error, and the azimuth beyond 89° of latitude is free altogether. -/
theorem zSun_result (h : lon.natAbs ≤ 1800000000) (h' : lat.natAbs ≤ 900000000) (hf : 946684800 ≤ utc)
    (hl : utc < 7258118400) :
    let u := (utc * 65536000000000 + (stampNs (s.t p ta).val * 65536 + stampFrac (s.t p ta).val : Nat)).toNat
    ∃ az e f : Int, zSun p ra ta s =
        zDone 180 (({ s with freeCtr := s.freeCtr + 2 } : State).setW p ra (sunResult az (sunElevation u lon lat + f))) ∧
      e.natAbs ≤ 20 ∧ f.natAbs ≤ 20 ∧ (lat.natAbs ≤ 890000000 → az = sunAzimuth u lon lat + e) := by
  intro u
  refine ⟨if lat.natAbs ≤ 890000000 then sunAzimuth u lon lat + sunError s.free.1 else (s.free.1 : Int), sunError s.free.1,
    sunError s.free.2.free.1, ?_, sunError_le _, sunError_le _, fun hl => if_pos hl⟩
  rw [zSun, toSigned_high, toSigned_low, toSigned_toInt, ← hlon, ← hlat, ← hutc, if_neg]
  · rfl
  · rw [sunFirst, sunLast]
    omega

end

end Sys2Proof.Machine
end

section
open Sys2Proof Sys2Proof.Machine Sys2Proof.Safety

/-- Settles O26: each instruction by its operands; TSET replaces a part and normalises, SUN puts both results in one register. -/
theorem timeInstructions : Obligations.TimeInstructions := by
  unfold Obligations.TimeInstructions
  intro s p ps pd r td ta unit part imm h
  refine ⟨?_, ?_, ?_, fun q hq => ⟨fun h1 h2 => ?_, fun h1 => ?_, fun h1 => ?_⟩, ?_, ?_, fun hv => ?_, fun hv => ?_,
    fun c b hb => ?_, fun a ha => ⟨fun h4 => ⟨?_, ?_⟩, fun h4 => ⟨?_, ?_⟩⟩,
    fun lon lat utc hlon hlat hutc => ⟨fun h1 h2 h3 h4 => ?_, fun hr => ?_⟩⟩
  · exact next_goOn h (f := zTnow p td) rfl
  · exact next_goOn h (f := zTmov p td ta) rfl
  · rw [← unitSize_eq]
    exact next_goOn h (f := zTadd p td ta r unit) rfl
  · rw [← unitSize_eq] at hq
    exact next_goOn h (f := zTdiff p r ta td unit) (by rw [zTdiff, ← hq, sat64_mid h1 h2]; rfl)
  · rw [← unitSize_eq] at hq
    exact next_goOn h (f := zTdiff p r ta td unit) (by rw [zTdiff, ← hq, sat64_low h1]; rfl)
  · rw [← unitSize_eq] at hq
    exact next_goOn h (f := zTdiff p r ta td unit) (by rw [zTdiff, ← hq, sat64_high h1]; rfl)
  · exact next_goOn h (f := zTtag p td r) (by rw [zTtag, BitVec.ofNat_toNat]; rfl)
  · exact next_goOn h (f := zTget p r ta part) (by rw [zTget, tPart_eq]; rfl)
  · rw [← tPartMax_eq] at hv
    obtain ⟨a, b, c, g, hz, hset, hparts⟩ := tSetPart_eq (s.t p td) part hv
    exact ⟨_, a, b, c, g.toNat, next_goOn h (f := zTset p td r part) (if_neg (by omega)), hset, by rw [hz]; rfl,
      by rw [hz]; rfl, fun hn => (hparts hn).trans hset.symm⟩
  · rw [← tPartMax_eq] at hv
    exact next_exc h (f := zTset p td r part) (if_pos hv)
  · rw [tCond_eq, Option.some.injEq] at hb
    rw [← hb]
    exact next_goOn h (f := zTcmp p c pd ta td) rfl
  · rw [Nat.mul_comm] at ha
    subst ha
    exact next_goOn h (f := zTld p td r imm.toNat) (if_neg (not_not.mpr h4))
  · rw [Nat.mul_comm] at ha
    subst ha
    exact next_goOn h (f := zTst p ta r imm.toNat) (if_neg (not_not.mpr h4))
  · rw [Nat.mul_comm] at ha
    subst ha
    exact next_exc h (f := zTld p td r imm.toNat) (if_pos h4)
  · rw [Nat.mul_comm] at ha
    subst ha
    exact next_exc h (f := zTst p ta r imm.toNat) (if_pos h4)
  · obtain ⟨az, e, f, hz, he, hf, haz⟩ := zSun_result hlon hlat hutc h1 h2 h3 h4
    refine ⟨_, e, f, next_goOn h (f := zSun p r ta) hz, sunResult_high_lt .., he, hf, fun hl => ?_, sunResult_low ..⟩
    rw [sunResult_high, haz hl]
  · exact next_exc h (f := zSun p r ta) (zSun_range hlon hlat hutc hr)

end

section
/-! SUPPORT. The field outputs (R460–R462) as DOUT leaves them, and the system registers that MFS reads (R89, R542). -/
namespace Sys2Proof.Machine
open Sys2Proof Sys2Proof.Safety

/-! ## Masks -/

theorem maskOf_succ (n : Nat) (f : Nat → Bool) : maskOf (n + 1) f = if f n then maskOf n f + 2 ^ n else maskOf n f := by
  rw [maskOf, List.range_succ, List.foldl_append]
  rfl

theorem maskOf_lt (n : Nat) (f : Nat → Bool) : maskOf n f < 2 ^ n := by
  induction n with
  | zero => exact Nat.one_pos
  | succ n ih =>
    rw [maskOf_succ, Nat.pow_succ]
    split <;> omega

/-- The bits of a mask are those that it is made for. -/
theorem maskOf_testBit (n : Nat) (f : Nat → Bool) (i : Nat) : (maskOf n f).testBit i = (decide (i < n) && f i) := by
  induction n with
  | zero => simp [maskOf]
  | succ n ih =>
    have above : (maskOf n f + 2 ^ n).testBit i = (decide (i = n) || (maskOf n f).testBit i) := by
      have h := Nat.two_pow_add_eq_or_of_lt (maskOf_lt n f) 1
      rw [Nat.mul_one] at h
      rw [Nat.add_comm, h, Nat.testBit_or, Nat.testBit_two_pow]
      congr 1
      exact decide_eq_decide.mpr eq_comm
    have step : (maskOf (n + 1) f).testBit i = ((decide (i = n) && f n) || (maskOf n f).testBit i) := by
      rw [maskOf_succ]
      split
      next h => rw [above, h, Bool.and_true]
      next h => simp [h]
    rw [step, ih]
    by_cases hi : i = n
    · subst hi
      simp
    · have lt : i < n + 1 ↔ i < n := by omega
      simp only [hi, lt, decide_false, Bool.false_and, Bool.false_or]

/-! ## DOUT -/

section
variable (s : State) (mask vals : Nat)

/-- The bits of DIO_OUT that DOUT leaves (R460, R461). -/
def State.doutBit (n : Nat) : Bool :=
  if s.dioOutCh (s.dioLead n) && mask.testBit (s.dioLead n) then vals.testBit (s.dioLead n) else (s.f R.DIO_OUT.OUT).testBit n

/-- The bits of the overload diagnostic that DOUT leaves (R462). -/
def State.doutOver (n : Nat) : Bool :=
  (s.f R.DIO_DIAG0.OVERLOAD_NOW).testBit n &&
    !(!s.on (R.DIO_CH_CFG.RETRY (s.dioLead n)) && !(s.f R.DIO_OUT.OUT).testBit n && (maskOf 16 (s.doutBit mask vals)).testBit n)

/-- DOUT before it drives the outputs. -/
def State.doutSet : State :=
  (s.setF R.DIO_OUT.OUT (maskOf 16 (s.doutBit mask vals))).setF R.DIO_DIAG0.OVERLOAD_NOW (maskOf 16 (s.doutOver mask vals))

theorem State.dout_eq : s.dout mask vals = (s.doutSet mask vals).dioDrive s.dioDriven := rfl

/-- Driving the outputs changes what has left the module alone. -/
theorem State.dioDrive_frame (was : Nat) : { s.dioDrive was with out := s.out } = s := by
  unfold State.dioDrive
  split <;> rfl

@[simp] theorem State.dioDrive_regs (was : Nat) : (s.dioDrive was).regs = s.regs :=
  congrArg (·.regs) (s.dioDrive_frame was)

theorem State.out_dioDrive (was : Nat) :
    (s.dioDrive was).out = if s.dioDriven = was then s.out else s.out ++ [.outputs s.dioDriven] :=
  apply_ite State.out ..

/-- The outputs as driven go by the registers and the retries, which driving leaves alone. -/
@[simp] theorem State.dioDriven_dioDrive (was : Nat) : (s.dioDrive was).dioDriven = s.dioDriven := by
  unfold State.dioDrive
  split <;> rfl

theorem State.dioDriven_testBit {n : Nat} (h : n < 16) :
    s.dioDriven.testBit n =
      (s.lightRole && s.dioOutCh (s.dioLead n) && (s.f R.DIO_OUT.OUT).testBit n && !s.dioOff n) := by
  unfold State.dioDriven
  split
  next hr => simp [maskOf_testBit, h, hr]
  next hr => simp [hr]

theorem State.f_dout (x : Fld) : (s.dout mask vals).f x = (s.doutSet mask vals).f x :=
  congrArg (fun r : Regs => r.f x) (State.dioDrive_regs ..)

/-- A field of 16 bits takes a mask whole. -/
theorem State.f_setF_mask (x : Fld) (f : Nat → Bool) (hw : x.width = 16) (h : x.fits) :
    (s.setF x (maskOf 16 f)).f x = maskOf 16 f := by
  rw [State.f_setF_same _ _ _ h, hw, Nat.mod_eq_of_lt (maskOf_lt 16 f)]

theorem State.out_doutSet {n : Nat} (h : n < 16) :
    ((s.doutSet mask vals).f R.DIO_OUT.OUT).testBit n = s.doutBit mask vals n := by
  rw [State.doutSet, State.f_setF_ne _ _ _ _ (by decide) (by decide), State.f_setF_mask _ _ _ rfl (by decide),
    maskOf_testBit, decide_eq_true h, Bool.true_and]

theorem State.over_doutSet {n : Nat} (h : n < 16) :
    ((s.doutSet mask vals).f R.DIO_DIAG0.OVERLOAD_NOW).testBit n = s.doutOver mask vals n := by
  rw [State.doutSet, State.f_setF_mask _ _ _ rfl (by decide), maskOf_testBit,
    decide_eq_true h, Bool.true_and]

theorem State.rd_dout_ne {b : Blk} {o : Nat} (h : (⟨b, o⟩ : Reg) ≠ R.DIO_OUT.reg) (h' : (⟨b, o⟩ : Reg) ≠ R.DIO_DIAG0.reg) :
    (s.dout mask vals).rd b o = s.rd b o := by
  have apart {x : Fld} {r : Reg} (hx : (⟨x.blk, x.off⟩ : Reg) = r) (hr : (⟨b, o⟩ : Reg) ≠ r) : x.blk ≠ b ∨ x.off ≠ o :=
    not_and_or.mp fun ⟨hb, ho⟩ => hr (by rw [← hx, hb, ho])
  calc (s.dout mask vals).rd b o
    _ = (s.doutSet mask vals).rd b o := congrArg (fun r : Regs => r.rd b o) (State.dioDrive_regs ..)
    _ = s.rd b o := by rw [State.doutSet, State.rd_setF_ne _ _ _ (apart rfl h'), State.rd_setF_ne _ _ _ (apart rfl h)]

end

/-! ## MFS -/

section
variable {s : State} {p rd n : Nat}

theorem zMfs_register (h : n ≤ 15) (h' : n ≠ 11) : zMfs p rd n s = zDone 2 (s.setW p rd (s.sReg p n)) := by
  rw [zMfs, if_neg (by omega), if_neg h']
  rfl

theorem zMfs_draw : zMfs p rd 11 s = zDone 40 (s.drbgDraw.2.setW p rd (BitVec.ofNat 64 s.drbgDraw.1)) := rfl

theorem State.drbgDraw_off (h : s.on R.KEY_STATUS.ENTROPY_OK = false) : s.drbgDraw = (0, s) := by
  rw [State.drbgDraw, h]
  rfl

/-- A draw changes the generator and the count of free values alone. -/
theorem State.drbgDraw_frame (s : State) :
    s.drbgDraw.2.regs = s.regs ∧ s.drbgDraw.2.fe = s.fe ∧ s.drbgDraw.2.fmem = s.fmem := by
  unfold State.drbgDraw
  split <;> exact ⟨rfl, rfl, rfl⟩

theorem zMts_other (h : n ≠ 12) (h' : n ≠ 13) : zMts p n rd s = .exc xIllegal 0 := by
  unfold zMts
  split
  · exact absurd rfl h
  · exact absurd rfl h'
  · rfl

end

end Sys2Proof.Machine
end

section
open Sys2Proof Sys2Proof.Machine Sys2Proof.Safety

/-- Settles O30: each instruction by its operands, and DOUT as `doutSet` followed by the drive of the outputs. -/
theorem systemInstructions : Obligations.SystemInstructions := by
  unfold Obligations.SystemInstructions
  refine ⟨fun s p ps r n h => ?_, fun s mask vals => ?_⟩
  · refine ⟨?_, ?_, ?_, fun k x hk hn => ?_, fun hn he => ?_, fun hn he => ?_, fun hn => ?_, fun hn => ?_, fun hn => ?_,
      fun h12 h13 => ?_, ?_⟩
    · exact next_goOn h (f := zNop) rfl
    · exact next_goOn h (f := zFence) rfl
    · refine ⟨_, next_halt h (f := zHalt) rfl, State.engState_halted .., ?_, ?_, ?_, fun q i => State.w_congr ?_ i⟩
      · exact (State.pc_setEngState ..).trans (State.pc_retire ..)
      · rw [State.eng_record, State.eng_setEngState, State.eng_retire_same]
        rfl
      · have rcd : (s.retire p haltCost (s.pc p + 1) []).rcd = s.rcd := congrArg (·.rcd) (s.core_retire p haltCost _ [])
        rw [State.record_offered, State.setEngState, State.setF_rcd, rcd]
      · rw [State.eng_record, State.eng_setEngState, State.eng_retire]
        split
        · next hq => rw [hq]; rfl
        · rfl
    · have reg : x = s.sReg p k ∧ k ≤ 15 ∧ k ≠ 11 := by
        simp only [List.mem_cons, Prod.mk.injEq, List.not_mem_nil, or_false] at hk
        rcases hk with ⟨rfl, rfl⟩ | ⟨rfl, rfl⟩ | ⟨rfl, rfl⟩ | ⟨rfl, rfl⟩ | ⟨rfl, rfl⟩ | ⟨rfl, rfl⟩ | ⟨rfl, rfl⟩ | ⟨rfl, rfl⟩ |
          ⟨rfl, rfl⟩ | ⟨rfl, rfl⟩ | ⟨rfl, rfl⟩ | ⟨rfl, rfl⟩ | ⟨rfl, rfl⟩ | ⟨rfl, rfl⟩ | ⟨rfl, rfl⟩ <;>
        exact ⟨by simp [State.sReg], by decide, by decide⟩
      obtain ⟨rfl, hle, hne⟩ := reg
      subst hn
      exact next_goOn h (f := zMfs p r n) (zMfs_register hle hne)
    · have draw : zMfs p r n s = zDone 40 (s.setW p r 0) := by
        rw [hn, zMfs_draw, State.drbgDraw_off he]
        rfl
      exact next_goOn h (f := zMfs p r n) draw
    · exact ⟨_, _, next_goOn h (f := zMfs p r n) (by rw [hn, zMfs_draw]), s.drbgDraw_frame⟩
    · exact next_exc h (f := zMfs p r n) (if_pos hn)
    · exact next_goOn h (f := zMts p n r) (by rw [hn]; rfl)
    · exact next_goOn h (f := zMts p n r) (by rw [hn]; rfl)
    · exact next_exc h (f := zMts p n r) (zMts_other h12 h13)
    · exact next_goOn h (f := zDout p r) rfl
  · have frame : { s.dout mask vals with regs := s.regs, out := s.out } = s :=
      congrArg (fun u : State => { u with regs := s.regs }) (State.dioDrive_frame (s.doutSet mask vals) s.dioDriven)
    refine ⟨fun n hn => ?_, fun n hn => State.dioDriven_testBit _ hn, ?_, fun b o h h' => State.rd_dout_ne s mask vals h h',
      frame⟩
    · have hout := (congrArg (·.testBit n) (s.f_dout mask vals R.DIO_OUT.OUT)).trans (s.out_doutSet mask vals hn)
      have hover := (congrArg (·.testBit n) (s.f_dout mask vals R.DIO_DIAG0.OVERLOAD_NOW)).trans (s.over_doutSet mask vals hn)
      have bit : s.doutBit mask vals n = if s.dioOutCh (s.dioLead n) = true ∧ mask.testBit (s.dioLead n) = true then
          vals.testBit (s.dioLead n) else (s.f R.DIO_OUT.OUT).testBit n := by
        simp only [State.doutBit, Bool.and_eq_true]
      refine ⟨hout.trans bit, hover.trans ?_⟩
      rw [← bit, State.doutOver, maskOf_testBit, decide_eq_true hn, Bool.true_and]
      simp only [Bool.not_and, Bool.not_not]
    · rw [State.dout_eq, State.out_dioDrive, State.dioDriven_dioDrive]
      rfl

end

section
/-! SUPPORT. The instruction words (R90–R92): the fields of each format read back, and a command that has a word is the issue of that
word. -/
namespace Sys2Proof.Machine
open Sys2Proof

/-! ## The fields of the formats -/

/-- The bits of a word made of a number that fits. -/
theorem getBits_w32 {n : Nat} (l k : Nat) (h : n < 2 ^ 32) : getBits (w32 n) l k = n / 2 ^ l % 2 ^ k := by
  rw [getBits, w32, BitVec.toNat_ofNat, Nat.mod_eq_of_lt h, Nat.shiftRight_eq_div_pow]

theorem bit_w32 {n : Nat} (i : Nat) (h : n < 2 ^ 32) : bit (w32 n) i = decide (n / 2 ^ i % 2 = 1) := by
  rw [bit, w32, BitVec.getLsbD_ofNat, Nat.testBit_eq_decide_div_mod_eq]
  by_cases hi : i < 32
  · simp [hi]
  · have : n / 2 ^ i = 0 := Nat.div_eq_of_lt (h.trans_le (Nat.pow_le_pow_right (by decide) (by omega)))
    simp [hi, this]

theorem zIf_of {c : Bool} (f : State → ZOut) (h : c = true) : zIf c f = f := by rw [h]; rfl

variable {s : State} {p ps op : Nat} {f : State → ZOut} {q : Bool}

/-- A word's predicate selector and its effect make its issue. -/
theorem zIssue_of_fields {w : Word} (hps : getBits w 23 3 = ps) (hf : zWord p w = f) (hq : zSeq w = q) :
    (.next (s.zhn p ps q f) : Res) = .next (s.zIssue p w) := by
  rw [State.zIssue, hps, hf, hq]

section
variable {d a b fn : Nat}

/-- Format A, read by its fields. -/
def zFieldsA (op p d a b fn : Nat) : State → ZOut :=
  match op with
  | 0x00 => zAluOp p fn d a b
  | 0x01 => zIf (decide (d ≤ 7) && !(decide (fn / 16 % 2 = 1))) (zCmp p (fn % 16) d (fn / 32) a b)
  | 0x02 => zPlogOp p fn d a b
  | 0x03 => if fn = 0 then zIf (b == 0) (zDimcP2c p d a) else if fn = 1 then zIf (b == 0) (zDimcC2p p d a) else zIllegal
  | 0x04 => zIf (b == 0) (zLdl (fn / 64) p d a (fn % 64))
  | 0x05 => zIf (d == 0) (zStl (fn / 64) p b a (fn % 64))
  | 0x06 => zIf (b == 0) (zLdf (fn / 64) p d a (fn % 64))
  | 0x07 => zIf (d == 0) (zStf (fn / 64) p b a (fn % 64))
  | 0x08 => zGrpOp p fn d a b
  | _ => zIllegal

theorem issueA (hf : zFieldsA op p d a b fn = f) (hop : op ≤ 8 := by omega) (hps : ps < 8 := by omega)
    (hd : d < 32 := by omega) (ha : a < 32 := by omega) (hb : b < 32 := by omega) (hfn : fn < 256 := by omega) :
    (.next (s.zhn p ps true f) : Res) = .next (s.zIssue p (fmtA op ps d a b fn)) := by
  have h26 : getBits (fmtA op ps d a b fn) 26 6 = op := by rw [fmtA, getBits_w32 _ _ (by omega)]; omega
  have h23 : getBits (fmtA op ps d a b fn) 23 3 = ps := by rw [fmtA, getBits_w32 _ _ (by omega)]; omega
  have h18 : getBits (fmtA op ps d a b fn) 18 5 = d := by rw [fmtA, getBits_w32 _ _ (by omega)]; omega
  have h13 : getBits (fmtA op ps d a b fn) 13 5 = a := by rw [fmtA, getBits_w32 _ _ (by omega)]; omega
  have h8 : getBits (fmtA op ps d a b fn) 8 5 = b := by rw [fmtA, getBits_w32 _ _ (by omega)]; omega
  have h0 : getBits (fmtA op ps d a b fn) 0 8 = fn := by rw [fmtA, getBits_w32 _ _ (by omega)]; omega
  have h5 : getBits (fmtA op ps d a b fn) 5 3 = fn / 32 := by rw [fmtA, getBits_w32 _ _ (by omega)]; omega
  have h6 : getBits (fmtA op ps d a b fn) 6 2 = fn / 64 := by rw [fmtA, getBits_w32 _ _ (by omega)]; omega
  have h04 : getBits (fmtA op ps d a b fn) 0 4 = fn % 16 := by rw [fmtA, getBits_w32 _ _ (by omega)]; omega
  have h06 : getBits (fmtA op ps d a b fn) 0 6 = fn % 64 := by rw [fmtA, getBits_w32 _ _ (by omega)]; omega
  have h4 : bit (fmtA op ps d a b fn) 4 = decide (fn / 16 % 2 = 1) := by
    rw [fmtA, bit_w32 _ (by omega)]
    exact decide_eq_decide.2 (by omega)
  refine zIssue_of_fields h23 (hf ▸ ?_) ?_
  · simp only [zWord, zFormatA, h26, h18, h13, h8, h0, h5, h6, h04, h06, h4, if_pos hop]
    rfl
  · have h1 : op ≠ 0x18 := by omega
    have h2 : op ≠ 0x30 := by omega
    simp [zSeq, h26, h1, h2]

end

section
variable {d sub imm : Nat}

/-- Format I, read by its fields. -/
def zFieldsI (op p d sub imm : Nat) : State → ZOut :=
  match op, sub with
  | 0x10, 0 => zLi p d imm | 0x10, 1 => zLis p d imm | 0x10, 2 => zAddi p d imm | 0x10, 3 => zAndi p d imm
  | 0x11, 0 => zOri p d imm | 0x11, 1 => zXori p d imm
  | 0x11, 2 => zIf (decide (imm < 64)) (zSlli p d imm) | 0x11, 3 => zIf (decide (imm < 64)) (zSrli p d imm)
  | 0x12, 0 => zIf (decide (imm < 64)) (zSrai p d imm)
  | 0x12, 1 => zMuli p d imm | 0x12, 2 => zMini p d imm | 0x12, 3 => zMaxi p d imm
  | 0x13, c => zCmpi p c (imm / 8192) (imm / 1024 % 8) d (imm % 1024)
  | _, _ => zIllegal

theorem issueI (hf : zFieldsI op p d sub imm = f) (hop : 0x10 ≤ op ∧ op ≤ 0x13 := by omega) (hps : ps < 8 := by omega)
    (hd : d < 32 := by omega) (hsub : sub < 4 := by omega) (himm : imm < 65536 := by omega) :
    (.next (s.zhn p ps true f) : Res) = .next (s.zIssue p (fmtI op ps d sub imm)) := by
  have h26 : getBits (fmtI op ps d sub imm) 26 6 = op := by rw [fmtI, getBits_w32 _ _ (by omega)]; omega
  have h23 : getBits (fmtI op ps d sub imm) 23 3 = ps := by rw [fmtI, getBits_w32 _ _ (by omega)]; omega
  have h18 : getBits (fmtI op ps d sub imm) 18 5 = d := by rw [fmtI, getBits_w32 _ _ (by omega)]; omega
  have h16 : getBits (fmtI op ps d sub imm) 16 2 = sub := by rw [fmtI, getBits_w32 _ _ (by omega)]; omega
  have h0 : getBits (fmtI op ps d sub imm) 0 16 = imm := by rw [fmtI, getBits_w32 _ _ (by omega)]; omega
  have h13 : getBits (fmtI op ps d sub imm) 13 3 = imm / 8192 := by rw [fmtI, getBits_w32 _ _ (by omega)]; omega
  have h10 : getBits (fmtI op ps d sub imm) 10 3 = imm / 1024 % 8 := by rw [fmtI, getBits_w32 _ _ (by omega)]; omega
  have h010 : getBits (fmtI op ps d sub imm) 0 10 = imm % 1024 := by rw [fmtI, getBits_w32 _ _ (by omega)]; omega
  refine zIssue_of_fields h23 (hf ▸ ?_) ?_
  · have h1 : ¬ op ≤ 8 := by omega
    simp only [zWord, zFormatI, h26, h18, h16, h0, h13, h10, h010, if_neg h1, if_pos hop]
    rfl
  · have h1 : op ≠ 0x18 := by omega
    have h2 : op ≠ 0x30 := by omega
    simp [zSeq, h26, h1, h2]

end

theorem issueB {sub off : Nat} (hf : (if sub = 0 then zB p off else zCall p off) = f) (hps : ps < 8 := by omega)
    (hsub : sub < 2 := by omega) (hoff : off < 2097152 := by omega) :
    (.next (s.zhn p ps false f) : Res) = .next (s.zIssue p (fmtB ps sub off)) := by
  have h26 : getBits (fmtB ps sub off) 26 6 = 0x18 := by rw [fmtB, getBits_w32 _ _ (by omega)]; omega
  have h23 : getBits (fmtB ps sub off) 23 3 = ps := by rw [fmtB, getBits_w32 _ _ (by omega)]; omega
  have h21 : getBits (fmtB ps sub off) 21 2 = sub := by rw [fmtB, getBits_w32 _ _ (by omega)]; omega
  have h0 : getBits (fmtB ps sub off) 0 21 = off := by rw [fmtB, getBits_w32 _ _ (by omega)]; omega
  refine zIssue_of_fields h23 (hf ▸ ?_) (by simp [zSeq, h26])
  interval_cases sub <;> simp [zWord, h26, h21, h0]

section
variable {r ec word lsb wm1 sub : Nat}

/-- Format E, read by its fields. -/
def zFieldsE (op p r ec word lsb wm1 : Nat) (sub : Bool) : State → ZOut :=
  let none_ := word == 0 && lsb == 0 && wm1 == 0
  match op with
  | 0x20 => zLde p r ec word lsb wm1 sub
  | 0x21 => zIf (!sub) (zSte p r ec word lsb wm1)
  | 0x22 => zIf none_ (if sub then zEcurG p ec r else zEcur p ec r)
  | 0x23 => zIf (none_ && !sub) (zErd p r ec)
  | 0x24 => zIf (none_ && !sub) (zLdr p ec r)
  | 0x25 =>
    let rest := lsb == 0 && wm1 == 0 && !sub
    match word % 4 with
    | 0 => zIf rest (zScanRow p (word / 4) ec r)
    | 1 => zIf (rest && r == 0) (zScanNext p (word / 4) ec)
    | 2 => zIf rest (zScanGrp p (word / 4) ec r)
    | _ => zIllegal
  | _ => zIllegal

theorem issueE (hf : zFieldsE op p r ec word lsb wm1 (decide (sub = 1)) = f) (hop : 0x20 ≤ op ∧ op ≤ 0x25 := by omega)
    (hps : ps < 8 := by omega) (hr : r < 32 := by omega) (hec : ec < 4 := by omega) (hword : word < 32 := by omega)
    (hlsb : lsb < 32 := by omega) (hwm1 : wm1 < 32 := by omega) (hsub : sub < 2 := by omega) :
    (.next (s.zhn p ps true f) : Res) = .next (s.zIssue p (fmtE op ps r ec word lsb wm1 sub)) := by
  have h26 : getBits (fmtE op ps r ec word lsb wm1 sub) 26 6 = op := by rw [fmtE, getBits_w32 _ _ (by omega)]; omega
  have h23 : getBits (fmtE op ps r ec word lsb wm1 sub) 23 3 = ps := by rw [fmtE, getBits_w32 _ _ (by omega)]; omega
  have h18 : getBits (fmtE op ps r ec word lsb wm1 sub) 18 5 = r := by rw [fmtE, getBits_w32 _ _ (by omega)]; omega
  have h16 : getBits (fmtE op ps r ec word lsb wm1 sub) 16 2 = ec := by rw [fmtE, getBits_w32 _ _ (by omega)]; omega
  have h11 : getBits (fmtE op ps r ec word lsb wm1 sub) 11 5 = word := by rw [fmtE, getBits_w32 _ _ (by omega)]; omega
  have h6 : getBits (fmtE op ps r ec word lsb wm1 sub) 6 5 = lsb := by rw [fmtE, getBits_w32 _ _ (by omega)]; omega
  have h1 : getBits (fmtE op ps r ec word lsb wm1 sub) 1 5 = wm1 := by rw [fmtE, getBits_w32 _ _ (by omega)]; omega
  have h13 : getBits (fmtE op ps r ec word lsb wm1 sub) 13 3 = word / 4 := by rw [fmtE, getBits_w32 _ _ (by omega)]; omega
  have h112 : getBits (fmtE op ps r ec word lsb wm1 sub) 11 2 = word % 4 := by rw [fmtE, getBits_w32 _ _ (by omega)]; omega
  have h0 : bit (fmtE op ps r ec word lsb wm1 sub) 0 = decide (sub = 1) := by
    rw [fmtE, bit_w32 _ (by omega)]
    exact decide_eq_decide.2 (by omega)
  refine zIssue_of_fields h23 (hf ▸ ?_) ?_
  · have n1 : ¬ op ≤ 8 := by omega
    have n2 : ¬ (0x10 ≤ op ∧ op ≤ 0x13) := by omega
    have n3 : op ≠ 0x18 := by omega
    simp only [zWord, zFormatE, h26, h18, h16, h11, h6, h1, h13, h112, h0, if_neg n1, if_neg n2, if_neg n3, if_pos hop]
    rfl
  · have h1 : op ≠ 0x18 := by omega
    have h2 : op ≠ 0x30 := by omega
    simp [zSeq, h26, h1, h2]

end

section
variable {sub td ta a pd imm : Nat}

/-- Format T, read by its fields. -/
def zFieldsT (op p sub td ta a pd imm : Nat) : State → ZOut :=
  match op with
  | 0x28 =>
    match sub with
    | 0 => zIf (ta == 0 && a == 0 && pd == 0 && imm == 0) (zTnow p td)
    | 1 => zIf (a == 0 && pd == 0 && imm == 0) (zTmov p td ta)
    | 2 => zIf (pd == 0 && decide (imm ≤ 4)) (zTadd p td ta a imm)
    | 3 => zIf (pd == 0 && decide (imm ≤ 4)) (zTdiff p a ta td imm)
    | 4 => zIf (ta == 0 && pd == 0 && imm == 0) (zTtag p td a)
    | 5 => zIf (td == 0 && pd == 0 && decide (imm ≤ 3)) (zTget p a ta imm)
    | 6 => zIf (ta == 0 && pd == 0 && decide (imm ≤ 3)) (zTset p td a imm)
    | _ => zIllegal
  | 0x29 => zIf (a == 0 && imm == 0 && decide (sub ≤ 3)) (zTcmp p sub pd ta td)
  | 0x2A => zIf (sub == 0 && pd == 0 && ta == 0) (zTld p td a imm)
  | 0x2B => zIf (sub == 0 && pd == 0 && td == 0) (zTst p ta a imm)
  | 0x2C => zIf (sub == 0 && td == 0 && pd == 0 && imm == 0) (zSun p a ta)
  | _ => zIllegal

theorem issueT (hf : zFieldsT op p sub td ta a pd imm = f) (hop : 0x28 ≤ op ∧ op ≤ 0x2C := by omega)
    (hps : ps < 8 := by omega) (hsub : sub < 8 := by omega) (htd : td < 4 := by omega) (hta : ta < 4 := by omega)
    (ha : a < 32 := by omega) (hpd : pd < 8 := by omega) (himm : imm < 256 := by omega) :
    (.next (s.zhn p ps true f) : Res) = .next (s.zIssue p (fmtT op ps sub td ta a pd imm)) := by
  have h26 : getBits (fmtT op ps sub td ta a pd imm) 26 6 = op := by rw [fmtT, getBits_w32 _ _ (by omega)]; omega
  have h23 : getBits (fmtT op ps sub td ta a pd imm) 23 3 = ps := by rw [fmtT, getBits_w32 _ _ (by omega)]; omega
  have h20 : getBits (fmtT op ps sub td ta a pd imm) 20 3 = sub := by rw [fmtT, getBits_w32 _ _ (by omega)]; omega
  have h18 : getBits (fmtT op ps sub td ta a pd imm) 18 2 = td := by rw [fmtT, getBits_w32 _ _ (by omega)]; omega
  have h16 : getBits (fmtT op ps sub td ta a pd imm) 16 2 = ta := by rw [fmtT, getBits_w32 _ _ (by omega)]; omega
  have h11 : getBits (fmtT op ps sub td ta a pd imm) 11 5 = a := by rw [fmtT, getBits_w32 _ _ (by omega)]; omega
  have h8 : getBits (fmtT op ps sub td ta a pd imm) 8 3 = pd := by rw [fmtT, getBits_w32 _ _ (by omega)]; omega
  have h0 : getBits (fmtT op ps sub td ta a pd imm) 0 8 = imm := by rw [fmtT, getBits_w32 _ _ (by omega)]; omega
  refine zIssue_of_fields h23 (hf ▸ ?_) ?_
  · have n1 : ¬ op ≤ 8 := by omega
    have n2 : ¬ (0x10 ≤ op ∧ op ≤ 0x13) := by omega
    have n3 : op ≠ 0x18 := by omega
    have n4 : ¬ (0x20 ≤ op ∧ op ≤ 0x25) := by omega
    simp only [zWord, zFormatT, h26, h20, h18, h16, h11, h8, h0, if_neg n1, if_neg n2, if_neg n3, if_neg n4, if_pos hop]
    rfl
  · have h1 : op ≠ 0x18 := by omega
    have h2 : op ≠ 0x30 := by omega
    simp [zSeq, h26, h1, h2]

end

section
variable {fn a b ec tr pd : Nat}

/-- Format X, read by its fields. -/
def zFieldsX (p fn a b ec tr pd : Nat) : State → ZOut :=
  let ab := a == 0 && b == 0
  let et := ec == 0 && tr == 0
  match fn with
  | 0x00 => zIf (ab && et && pd == 0) zNop
  | 0x01 => zIf et (zWait p pd a b)
  | 0x02 => zEmit p pd b a ec tr
  | 0x03 => zIf et (zDoneH p pd a b)
  | 0x04 => zIf et (zStg p pd a b)
  | 0x05 => zIf (ab && et) (zChk p pd)
  | 0x06 => zIf (b == 0 && ec == 0) (zApl p pd a tr)
  | 0x07 => zIf (ab && et) (zSdrop p pd)
  | 0x08 => zIf (ab && et && pd == 0) zFence
  | 0x09 => zIf (et && pd == 0) (zTrap (a * 32 + b))
  | 0x0A => zIf (ab && et && pd == 0) zHalt
  | 0x0B => zIf (ab && et && pd == 0) (zRet p)
  | 0x0C => zIf (b == 0 && et && pd == 0) (zJr p a)
  | 0x0D => zIf (b == 0 && et && pd == 0) (zCallr p a)
  | 0x0E => zIf (et && pd == 0) (zMfs p a b)
  | 0x0F => zIf (et && pd == 0) (zMts p b a)
  | 0x10 => zIf (b == 0 && et && pd == 0) (zDout p a)
  | _ => zIllegal

/-- TRAP, RET, JR and CALLR have no next sequential word (R93). -/
def seqX (fn : Nat) : Bool := !(fn == 0x09 || fn == 0x0B || fn == 0x0C || fn == 0x0D)

theorem issueX (hf : zFieldsX p fn a b ec tr pd = f) (hq : seqX fn = q) (hps : ps < 8 := by omega)
    (hfn : fn < 64 := by omega) (ha : a < 32 := by omega) (hb : b < 32 := by omega) (hec : ec < 4 := by omega)
    (htr : tr < 4 := by omega) (hpd : pd < 8 := by omega) :
    (.next (s.zhn p ps q f) : Res) = .next (s.zIssue p (fmtX ps fn a b ec tr pd)) := by
  have h26 : getBits (fmtX ps fn a b ec tr pd) 26 6 = 0x30 := by rw [fmtX, getBits_w32 _ _ (by omega)]; omega
  have h23 : getBits (fmtX ps fn a b ec tr pd) 23 3 = ps := by rw [fmtX, getBits_w32 _ _ (by omega)]; omega
  have h17 : getBits (fmtX ps fn a b ec tr pd) 17 6 = fn := by rw [fmtX, getBits_w32 _ _ (by omega)]; omega
  have h12 : getBits (fmtX ps fn a b ec tr pd) 12 5 = a := by rw [fmtX, getBits_w32 _ _ (by omega)]; omega
  have h7 : getBits (fmtX ps fn a b ec tr pd) 7 5 = b := by rw [fmtX, getBits_w32 _ _ (by omega)]; omega
  have h710 : getBits (fmtX ps fn a b ec tr pd) 7 10 = a * 32 + b := by rw [fmtX, getBits_w32 _ _ (by omega)]; omega
  have h5 : getBits (fmtX ps fn a b ec tr pd) 5 2 = ec := by rw [fmtX, getBits_w32 _ _ (by omega)]; omega
  have h3 : getBits (fmtX ps fn a b ec tr pd) 3 2 = tr := by rw [fmtX, getBits_w32 _ _ (by omega)]; omega
  have h0 : getBits (fmtX ps fn a b ec tr pd) 0 3 = pd := by rw [fmtX, getBits_w32 _ _ (by omega)]; omega
  refine zIssue_of_fields h23 (hf ▸ ?_) (by simp [zSeq, h26, h17, ← hq, seqX])
  simp only [zWord, zFormatX, h26, h17, h12, h7, h710, h5, h3, h0]
  rfl

end

/-! ## A command that has a word is the issue of that word -/

/-! Two operands in one field. -/

theorem zOff_div (z : Nat) (off : Fin 64) : (z * 64 + off.val) / 64 = z := by omega
theorem cmpFn_fields (pn : Nat) (cond : Fin 16) : (pn * 32 + cond.val) / 32 = pn ∧ (pn * 32 + cond.val) % 16 = cond.val ∧
    (pn * 32 + cond.val) / 16 % 2 = 0 := by omega
theorem cmpiImm_fields (pd : Nat) (pn : Fin 8) (imm : BitVec 10) :
    (pd * 8192 + pn.val * 1024 + imm.toNat) / 8192 = pd ∧ (pd * 8192 + pn.val * 1024 + imm.toNat) / 1024 % 8 = pn.val ∧
      (pd * 8192 + pn.val * 1024 + imm.toNat) % 1024 = imm.toNat := by omega
theorem scanWord_fields (pd : Nat) : (pd * 4 + 1) / 4 = pd ∧ (pd * 4 + 2) / 4 = pd := by omega
theorem b2n_eq_one (b : Bool) : decide (b2n b = 1) = b := by cases b <;> rfl
theorem b2n_lt_two (b : Bool) : b2n b < 2 := by cases b <;> decide

/-- An instruction that has a word. -/
theorem exec_of_encodeZhn (i : Instr) (s : State) : (encodeZhn i).elim True fun e => exec i s = .next (s.zIssue e.1 e.2) := by
  cases i with
  | add p ps rd ra rb | sub p ps rd ra rb | and p ps rd ra rb | or p ps rd ra rb | xor p ps rd ra rb | andn p ps rd ra rb
  | sll p ps rd ra rb | srl p ps rd ra rb | sra p ps rd ra rb | mul p ps rd ra rb | mulh p ps rd ra rb | mulhu p ps rd ra rb
  | div p ps rd ra rb | divu p ps rd ra rb | rem p ps rd ra rb | remu p ps rd ra rb | min p ps rd ra rb | max p ps rd ra rb
  | minu p ps rd ra rb | maxu p ps rd ra rb | clamp p ps rd ra rb | popc p ps rd ra | clz p ps rd ra | ctz p ps rd ra
  | grpSet p ps rg ri | grpClr p ps rg ri | grpCnt p ps rd rg | grpOr p ps rd ra rb | grpAnd p ps rd ra rb
  | grpAndn p ps rd ra rb | grpCopy p ps rd ra | grpClrall p ps rd | dimcP2c p ps rd ra
  | dimcC2p p ps rd ra => exact issueA rfl
  | li p ps rd imm | lis p ps rd imm | addi p ps rd imm | andi p ps rd imm | ori p ps rd imm | xori p ps rd imm
  | muli p ps rd imm | mini p ps rd imm | maxi p ps rd imm => exact issueI rfl
  | b p ps off | call p ps off => exact issueB rfl
  | ste p ps rb ec word lsb wm1 | ecur p ps ec ra | ecurG p ps ec ra | erd p ps rd ec | ldr p ps ec ra => exact issueE rfl
  | tnow p ps td | tmov p ps td ta | ttag p ps td ra | tld p ps td ra imm | tst p ps ta ra imm
  | sun p ps ra ta => exact issueT rfl
  | nop p ps | wait p ps pd ra rb | emit p ps pd rb ra ec tr | done p ps pd ra rb | stg p ps pd ra rb | chk p ps pd
  | apl p ps pd ra tr | sdrop p ps pd | fence p ps | halt p ps | ret p ps | jr p ps ra | callr p ps ra | mfs p ps rd n
  | mts p ps n ra | dout p ps ra => exact issueX rfl rfl
  | cmp p ps cond pd pn ra rb =>
    exact issueA (by simpa [zFieldsA, cmpFn_fields] using zIf_of _ (decide_eq_true (show pd.val ≤ 7 by omega)))
  | plogAnd p ps pd pa pb | plogOr p ps pd pa pb | plogXor p ps pd pa pb
  | plogAndn p ps pd pa pb => exact issueA (if_neg (by omega))
  | plogNot p ps pd pa | plogSet p ps pd | plogClr p ps pd => exact issueA (by simp [zFieldsA, zPlogOp]; omega)
  | ldl p ps z rd ra off | stl p ps z rb ra off | ldf p ps z rd ra off
  | stf p ps z rb ra off => exact issueA (by simp [zFieldsA, zIf, zOff_div, Nat.mod_eq_of_lt off.isLt])
  | grpTst p ps pd rg ri => exact issueA (zIf_of _ (decide_eq_true (show pd.val ≤ 7 by omega)))
  | slli p ps rd imm | srli p ps rd imm | srai p ps rd imm => exact issueI (zIf_of _ (decide_eq_true imm.isLt))
  | cmpi p ps cond pd pn rd imm => exact issueI (by simp [zFieldsI, cmpiImm_fields])
  | lde p ps rd ec word lsb wm1 sx => exact issueE (by simp [zFieldsE, b2n_eq_one]) (hsub := b2n_lt_two sx)
  | scanRow p ps pd ec ra | scanNext p ps pd ec
  | scanGrp p ps pd ec ra => exact issueE (by simp [zFieldsE, zIf, scanWord_fields])
  | tadd p ps td ta ra unit
  | tdiff p ps rd ta tb unit => exact issueT (zIf_of _ (decide_eq_true (show unit.val ≤ 4 by omega)))
  | tget p ps rd ta part | tset p ps td ra part => exact issueT (zIf_of _ (decide_eq_true (show part.val ≤ 3 by omega)))
  | tcmp p ps cond pd ta tb => exact issueT (zIf_of _ (decide_eq_true (show cond.val ≤ 3 by omega)))
  | trap p ps code => exact issueX (by simp [zFieldsX, zIf, Nat.div_add_mod']) rfl
  | _ => exact trivial

end Sys2Proof.Machine
end

section
/-! SUPPORT. Exceptions of program origin (R62, R63, R85): what one records, and what it leaves alone. -/
namespace Sys2Proof.Machine
open Sys2Proof Sys2Proof.Safety

@[simp] theorem State.f_record (s : State) (c v n : Nat) (b : List Word) (x : Fld) : (s.record c v n b).f x = s.f x := rfl
@[simp] theorem State.r_record (s : State) (c v n : Nat) (b : List Word) (x : Reg) : (s.record c v n b).r x = s.r x := rfl
@[simp] theorem State.core_setR (s : State) (x : Reg) (v : Word) : (s.setR x v).core = s.core := rfl

variable (s : State) (p code : Nat) (a : Word)

/-- A field of another register than those that an exception writes. -/
theorem State.f_progExc_ne {x : Fld} (hst : x.off ≠ 0x4 + 0x100000 * p) (hexc : x.off ≠ 0x10 + 0x100000 * p)
    (haddr : x.off ≠ 0x14 + 0x100000 * p) (hevt : x.off ≠ 0x18 + 0x100000 * p) (hcnt : x.off ≠ 0x1c + 0x100000 * p) :
    (s.progExc p code a).f x = s.f x := by
  rw [State.progExc, State.f_setEngState_ne _ _ _ hst, State.f_modEng, State.f_raise_off _ _ hevt.symm hcnt.symm,
    State.excRecord, State.f_record, State.f_setR_ne _ _ _ (.inr haddr.symm),
    State.f_setF_ne _ _ _ _ (by simp [Fld.fits, R.FE_EXC.PC]) (.inr (.inl hexc.symm)),
    State.f_setF_ne _ _ _ _ (by simp [Fld.fits, R.FE_EXC.CODE]) (.inr (.inl hexc.symm))]

@[simp] theorem State.pc_progExc : (s.progExc p code a).pc p = s.pc p := by
  apply State.f_progExc_ne <;> simp only [R.FE_PC.PC] <;> omega

/-- FE_EXC and FE_EXC_ADDR as the record of the exception leaves them. -/
theorem State.rd_progExc_exc {o : Nat} (h : o = 0x10 + 0x100000 * p ∨ o = 0x14 + 0x100000 * p) :
    (s.progExc p code a).rd .fe o = (s.excRecord p code a).rd .fe o := by
  rw [State.progExc, State.rd_setEngState_ne _ _ _ (by simp [R.FE_STATUS.reg]; omega), State.rd_modEng,
    State.rd_raise_ne _ _ (.inr (by simp only [E.FE_EVT.PROG_EXC]; omega)) (.inr (by simp only [E.FE_EVT.PROG_EXC]; omega))]

theorem State.excCode_progExc (h : code < 256) : (s.progExc p code a).f (R.FE_EXC.CODE p) = code := by
  calc (s.progExc p code a).f (R.FE_EXC.CODE p)
      = (s.excRecord p code a).f (R.FE_EXC.CODE p) := congrArg (getBits · 16 8) (s.rd_progExc_exc p code a (.inl rfl))
    _ = ((s.setF (R.FE_EXC.CODE p) code).setF (R.FE_EXC.PC p) (s.pc p)).f (R.FE_EXC.CODE p) := by
        rw [State.excRecord, State.f_record]
        exact State.f_setR_ne _ _ _ (.inr (by simp [R.FE_EXC_ADDR.reg, R.FE_EXC.CODE]))
    _ = (s.setF (R.FE_EXC.CODE p) code).f (R.FE_EXC.CODE p) :=
        State.f_setF_ne _ _ _ _ (by simp [Fld.fits, R.FE_EXC.PC]) (by simp [Fld.apart, R.FE_EXC.PC, R.FE_EXC.CODE])
    _ = code := State.f_setF_fit _ (by simp [Fld.fits, R.FE_EXC.CODE]) h

theorem State.excPc_progExc : (s.progExc p code a).f (R.FE_EXC.PC p) = s.pc p := by
  calc (s.progExc p code a).f (R.FE_EXC.PC p)
      = (s.excRecord p code a).f (R.FE_EXC.PC p) := congrArg (getBits · 0 16) (s.rd_progExc_exc p code a (.inl rfl))
    _ = ((s.setF (R.FE_EXC.CODE p) code).setF (R.FE_EXC.PC p) (s.pc p)).f (R.FE_EXC.PC p) := by
        rw [State.excRecord, State.f_record]
        exact State.f_setR_ne _ _ _ (.inr (by simp [R.FE_EXC_ADDR.reg, R.FE_EXC.PC]))
    _ = s.pc p := State.f_setF_fit _ (by simp [Fld.fits, R.FE_EXC.PC]) (s.f_lt (R.FE_PC.PC p))

theorem State.excAddr_progExc : (s.progExc p code a).r (R.FE_EXC_ADDR.reg p) = a := by
  have h : (s.progExc p code a).r (R.FE_EXC_ADDR.reg p) = (s.excRecord p code a).r (R.FE_EXC_ADDR.reg p) :=
    s.rd_progExc_exc p code a (.inr rfl)
  rw [h, State.excRecord, State.r_record, State.r_setR_same]

theorem State.flag_progExc : (s.progExc p code a).flag (E.FE_EVT.PROG_EXC p) = true := by
  rw [State.progExc, State.flag, State.on, State.f_setEngState_ne _ _ _ (by simp [E.FE_EVT.PROG_EXC]), State.f_modEng]
  exact State.flag_raise _ (E.FE_EVT.PROG_EXC p) (by simp [E.FE_EVT.PROG_EXC]) (by simp [E.FE_EVT.PROG_EXC])
    (.inl (by simp [E.FE_EVT.PROG_EXC]))

/-- The EXC_ACT that the exception goes by is that of the state before it. -/
theorem State.engState_progExc : (s.progExc p code a).engState p = if s.on (R.FE_CFG.EXC_ACT p) then stHalted else stException := by
  have h : ((s.excRecord p code a).raise (E.FE_EVT.PROG_EXC p)).f (R.FE_CFG.EXC_ACT p) = s.f (R.FE_CFG.EXC_ACT p) := by
    rw [State.f_raise_off _ _ (by simp [E.FE_EVT.PROG_EXC, R.FE_CFG.EXC_ACT]) (by simp [E.FE_EVT.PROG_EXC, R.FE_CFG.EXC_ACT]),
      State.excRecord, State.f_record, State.f_setR_ne _ _ _ (.inr (by simp [R.FE_EXC_ADDR.reg, R.FE_CFG.EXC_ACT])),
      State.f_setF_ne _ _ _ _ (by simp [Fld.fits, R.FE_EXC.PC]) (.inr (.inl (by simp [R.FE_EXC.PC, R.FE_CFG.EXC_ACT]))),
      State.f_setF_ne _ _ _ _ (by simp [Fld.fits, R.FE_EXC.CODE]) (.inr (.inl (by simp [R.FE_EXC.CODE, R.FE_CFG.EXC_ACT])))]
  rw [State.progExc, State.engState_setEngState, State.on_modEng, State.on, State.on, h]
  split <;> rfl

theorem State.eng_progExc (q : Nat) : (s.progExc p code a).eng q = if q = p then
    { s.eng p with tokens := (s.eng p).tokens + 1, blocked := none, passBrk := false, stepping := false } else s.eng q := by
  rw [State.progExc, State.eng_setEngState, State.eng_modEng]
  rfl

theorem State.files_progExc (q i : Nat) :
    (s.progExc p code a).w q i = s.w q i ∧ (s.progExc p code a).p q i = s.p q i ∧
      (s.progExc p code a).e q i = s.e q i ∧ (s.progExc p code a).t q i = s.t q i := by
  have h := s.eng_progExc p code a q
  by_cases hq : q = p
  · subst hq
    rw [if_pos rfl] at h
    exact State.files_congr (by rw [h]) (by rw [h]) (by rw [h]) (by rw [h]) i
  · rw [if_neg hq] at h
    exact State.files_congr (by rw [h]) (by rw [h]) (by rw [h]) (by rw [h]) i

/-- Beside registers and engines an exception only offers its record. -/
theorem State.core_progExc : { (s.progExc p code a).core with rcd := s.rcd } = s.core := by
  rw [State.progExc, State.core_setEngState, State.core_modEng, State.core_raise, State.excRecord]
  rfl

/-- An engine whose next word lies beyond the code raises PC_RANGE whatever the instruction, unless that is undefined (R93). -/
theorem zhnEnd_past {o : ZOut} (hpc : (s.eng p).codeWords ≤ s.pc p + 1) (ho : ∀ a, o ≠ .exc xIllegal a) :
    s.zhnEnd p true o = s.progExc p xPcRange 0 := by
  have past : (true && decide ((s.eng p).codeWords ≤ s.pc p + 1)) = true := by simpa using hpc
  unfold State.zhnEnd
  dsimp only
  rw [past]
  cases o with
  | done cost npc l t => rfl
  | halt t => rfl
  | block b t => rfl
  | exc c a =>
    have hc : c ≠ xIllegal := fun h => ho a (by rw [h])
    exact if_pos (by simpa using hc)

end Sys2Proof.Machine
end

section
open Sys2Proof Sys2Proof.Machine Sys2Proof.Safety

/-- Settles O21: an exception records itself and touches nothing beyond the engine's counters; PC_RANGE is settled at the issue of
the instruction's word. -/
theorem programExceptions : Obligations.ProgramExceptions := by
  unfold Obligations.ProgramExceptions
  have issue {i : Instr} {s : State} {p : Fin 18} {w : Word} (h : encodeZhn i = some (p, w)) :
      exec i s = .next (s.zIssue p w) := by
    have := exec_of_encodeZhn i s
    rwa [h] at this
  refine ⟨fun s p code a hcode _ => ?_, fun i s p w h hi hpc => ?_, fun i s p w h hj hseq hpc hne => ?_, fun s p ps code hj => ?_⟩
  · have eng := s.eng_progExc p code a p
    rw [if_pos rfl] at eng
    have core := s.core_progExc p code a
    exact ⟨s.excCode_progExc p code a hcode, s.excPc_progExc p code a, s.excAddr_progExc p code a, s.pc_progExc p code a,
      s.flag_progExc p code a, by rw [eng], by rw [eng], s.engState_progExc p code a, fun q i => s.files_progExc p code a q i,
      by rw [eng], (congrArg (fun t : State => t.fmem) core :), (congrArg (fun t : State => t.hnd) core :),
      (congrArg (fun t : State => t.cal) core :), (congrArg (fun t : State => t.shf) core :)⟩
  · rw [issue h, State.zIssue, State.zhn, hi, if_neg (by decide), if_pos hpc]
    rfl
  · rw [issue h, State.zIssue, zhn_of_jumps hj, hseq, zhnEnd_past s p hpc.ge hne]
    rfl
  · have addr : w32 code.toNat = code.setWidth 32 := BitVec.ofNat_toNat 32 code
    refine congrArg _ ((zhn_of_jumps hj).trans ?_)
    rw [← addr]
    rfl

end

section
/-! SUPPORT. Operating minutes (R50): the minutes that an accumulator holds, and a state in which one holds two. -/
namespace Sys2Proof.Machine
open Sys2Proof

/-- Endpoint 0 is lit, and its accumulator holds 120 s. -/
def twoMinutes : State := ((State.reset.setEp 0 EP.VALID 1).setEp 0 EP.CUR 1).setAcc 0 (2 * opMinTicks)

theorem twoMinutes_qualifies : twoMinutes.qualifies 0 = true := by decide +kernel

/-- OP_MIN takes both minutes at once. -/
theorem twoMinutes_opMin : (twoMinutes.opMin 0).ep 0 EP.OP_MIN = 2 := by decide +kernel

theorem twoMinutes_minute : satInc 0xFFFFFFFF (twoMinutes.ep 0 EP.OP_MIN) = 1 := by decide +kernel

end Sys2Proof.Machine
end

section
open Sys2Proof Sys2Proof.Machine

/-- Refutes O9: OP_MIN_INCREMENT adds every whole minute that the accumulator holds, and the statement puts no bound on that. With
120 s in it OP_MIN goes from 0 to 2. -/
theorem not_engineControl : ¬ Obligations.EngineControl := by
  unfold Obligations.EngineControl
  rintro ⟨-, -, -, -, -, -, -, -, -, -, -, -, -, -, -, -, minutes⟩
  obtain ⟨t, ht, hmin, -⟩ := minutes twoMinutes 0 twoMinutes_qualifies
  obtain rfl : twoMinutes.opMin 0 = t := by simpa using (show (.next (twoMinutes.opMin 0) : Res) = .next t from ht)
  have : 2 = 1 := twoMinutes_opMin.symm.trans (hmin.trans twoMinutes_minute)
  omega

end

section
/-! SUPPORT. Sheaf contexts (R72, R83): each command in each state of the context, and what a refusal changes. -/
namespace Sys2Proof.Machine
open Sys2Proof

/-! ## The contexts as a map -/

theorem State.ctx_setCtx (s : State) (c d : Nat) (x : Ctx) : (s.setCtx c x).ctx d = if d = c then x else s.ctx d := sget_sset ..

@[simp] theorem State.ctx_setCtx_same (s : State) (c : Nat) (x : Ctx) : (s.setCtx c x).ctx c = x := sget_sset_same ..

theorem State.ctx_setCtx_ne (s : State) {c d : Nat} (x : Ctx) (h : d ≠ c) : (s.setCtx c x).ctx d = s.ctx d :=
  sget_sset_ne _ _ _ _ _ h

@[simp] theorem State.ctx_modCtx_same (s : State) (c : Nat) (f : Ctx → Ctx) : (s.modCtx c f).ctx c = f (s.ctx c) := sget_sset_same ..

theorem State.ctx_modCtx_ne (s : State) {c d : Nat} (f : Ctx → Ctx) (h : d ≠ c) : (s.modCtx c f).ctx d = s.ctx d :=
  sget_sset_ne _ _ _ _ _ h

/-- What a context shows goes by the sheaves' part of the state alone. -/
theorem State.ctx_congr {s t : State} (h : t.shf = s.shf) (c : Nat) : t.ctx c = s.ctx c := by
  rw [State.ctx, h]
  rfl

@[simp] theorem State.ctx_raise (s : State) (e : Evt) (c : Nat) : (s.raise e).ctx c = s.ctx c := State.ctx_congr (State.raise_shf ..) c

/-! ## A refusal -/

section
variable (s : State) (c res : Nat)

theorem State.shfRefuse_shf : (s.shfRefuse c res).shf = (s.modCtx c (fun x => { x with result := res })).shf := by
  unfold State.shfRefuse
  dsimp only
  split <;> simp only [State.raise_shf]

@[simp] theorem State.ctx_shfRefuse_same : (s.shfRefuse c res).ctx c = { s.ctx c with result := res } :=
  (State.ctx_congr (s.shfRefuse_shf c res) c).trans (s.ctx_modCtx_same c _)

theorem State.ctx_shfRefuse_ne {d : Nat} (h : d ≠ c) : (s.shfRefuse c res).ctx d = s.ctx d :=
  (State.ctx_congr (s.shfRefuse_shf c res) d).trans (s.ctx_modCtx_ne _ h)

theorem State.flag_refused : (s.shfRefuse c res).flag E.FE_SHF_EVT.REFUSED = true :=
  State.flag_raise _ _ (by decide) (by decide) (.inl (by decide))

/-- POOL_FULL and REFUSED are two bits of one register, with counters of their own. -/
theorem State.flag_poolFull (h : res = resPoolFull) : (s.shfRefuse c res).flag E.FE_SHF_EVT.POOL_FULL = true := by
  have keep (t : State) : (t.raise E.FE_SHF_EVT.REFUSED).flag E.FE_SHF_EVT.POOL_FULL = t.flag E.FE_SHF_EVT.POOL_FULL := by
    rw [State.flag, State.on, State.f_raise_ne _ _ _ (by decide) (by decide) (by decide) (by decide)]
    rfl
  rw [State.shfRefuse, if_pos h, keep]
  exact State.flag_raise _ _ (by decide) (by decide) (.inl (by decide))

/-- A refusal changes registers and the sheaves alone. -/
theorem State.shfRefuse_frame : { s.shfRefuse c res with regs := s.regs, shf := s.shf } = s := by
  have h : (s.shfRefuse c res).core = (s.modCtx c (fun x => { x with result := res })).core := by
    unfold State.shfRefuse
    dsimp only
    split <;> simp only [State.core_raise]
  have hfe : (s.shfRefuse c res).fe = s.fe := by
    unfold State.shfRefuse
    dsimp only
    split <;> simp only [State.raise_fe] <;> rfl
  have := congrArg (fun u : State => { u with regs := s.regs, shf := s.shf, fe := s.fe }) h
  refine Eq.trans ?_ this
  rw [← hfe]
  rfl

end

/-! ## Whose a context is -/

theorem Ctx.mine_of_free {x : Ctx} {o : Owner} (h : x.st = .free) : x.mine o = true := by simp [Ctx.mine, h]
theorem Ctx.mine_of_owner {x : Ctx} {o : Owner} (h : x.owner = some o) : x.mine o = true := by simp [Ctx.mine, h]
/-- An engine's code is below firmware's. -/
theorem Ctx.mine_firmware_of_engine {x : Ctx} {l : Nat} (hs : x.st ≠ .free) (h : x.owner = some (.engine l)) :
    x.mine .firmware = false := by
  have : l % 16 ≠ 0x10 := by omega
  simp [Ctx.mine, hs, h, ownerCode, this]

/-! ## The commands in each state -/

section
variable {s : State} {c : Nat} {o : Owner} {n : Option Nat} {e : ShfEntry} {timed : Bool} {t : Stamp}

theorem State.shfOpen_notOwner (h : (s.ctx c).mine o = false) : s.shfOpen c o n = s.shfRefuse c resNotOwner := by
  simp [State.shfOpen, h]
theorem State.shfStage_notOwner (h : (s.ctx c).mine o = false) : s.shfStage c o e = s.shfRefuse c resNotOwner := by
  simp [State.shfStage, h]
theorem State.shfCheck_notOwner (h : (s.ctx c).mine o = false) : s.shfCheck c o = s.shfRefuse c resNotOwner := by
  simp [State.shfCheck, h]
theorem State.shfApply_notOwner (h : (s.ctx c).mine o = false) : s.shfApply c o timed t = s.shfRefuse c resNotOwner := by
  simp [State.shfApply, h]
theorem State.shfDiscard_notOwner (h : (s.ctx c).mine o = false) : s.shfDiscard c o = s.shfRefuse c resNotOwner := by
  simp [State.shfDiscard, h]

theorem State.shfOpen_free (h : (s.ctx c).st = .free) : s.shfOpen c o n =
    s.setCtx c { (s.ctx c).release with st := .opened, owner := some o, session := n, result := resOk } := by
  simp [State.shfOpen, Ctx.mine_of_free h, h]

variable (hm : (s.ctx c).mine o = true)
include hm

theorem State.shfOpen_failed (h : (s.ctx c).st = .failed) : s.shfOpen c o n =
    s.setCtx c { s.ctx c with st := .opened, entries := [], images := [], result := resOk } := by
  simp [State.shfOpen, hm, h]

theorem State.shfOpen_refused (h : (s.ctx c).st ∉ [CtxSt.free, .failed]) : s.shfOpen c o n = s.shfRefuse c resNotPermitted := by
  simp only [State.shfOpen, hm, Bool.not_true, Bool.false_eq_true, if_false]
  split
  · next hs => exact absurd (by simp [hs]) h
  · next hs => exact absurd (by simp [hs]) h
  · rfl

theorem State.shfStage_staged (h : (s.ctx c).st = .opened ∨ (s.ctx c).st = .checked) (hp : s.shfUsed < shfPool) :
    s.shfStage c o e = s.setCtx c
      { s.ctx c with st := .opened, entries := (s.ctx c).entries ++ [e], images := [], result := resOk } := by
  rcases h with h | h <;> simp [State.shfStage, hm, h, Nat.not_le.2 hp]

theorem State.shfStage_full (h : (s.ctx c).st = .opened ∨ (s.ctx c).st = .checked) (hp : shfPool ≤ s.shfUsed) :
    s.shfStage c o e = s.shfRefuse c resPoolFull := by
  rcases h with h | h <;> simp [State.shfStage, hm, h, hp]

theorem State.shfStage_refused (h : (s.ctx c).st ∉ [CtxSt.opened, .checked]) :
    s.shfStage c o e = s.shfRefuse c resNotPermitted := by
  simp only [State.shfStage, hm, Bool.not_true, Bool.false_eq_true, if_false]
  split
  · next hs => exact absurd (by simp [hs]) h
  · next hs => exact absurd (by simp [hs]) h
  · rfl

theorem State.shfCheck_opened (h : (s.ctx c).st = .opened) :
    s.shfCheck c o = s.setCtx c { s.ctx c with st := .checking, forApply := false, dropAfter := false } := by
  simp [State.shfCheck, hm, h]

theorem State.shfCheck_refused (h : (s.ctx c).st ≠ .opened) : s.shfCheck c o = s.shfRefuse c resNotPermitted := by
  simp only [State.shfCheck, hm, Bool.not_true, Bool.false_eq_true, if_false]

theorem State.shfDiscard_freed (h : (s.ctx c).st = .opened ∨ (s.ctx c).st = .checked ∨ (s.ctx c).st = .failed) :
    s.shfDiscard c o = s.setCtx c { (s.ctx c).release with result := resOk } := by
  rcases h with h | h | h <;> simp [State.shfDiscard, hm, h]

theorem State.shfDiscard_refused (h : (s.ctx c).st ∉ [CtxSt.opened, .checked, .failed]) :
    s.shfDiscard c o = s.shfRefuse c resNotPermitted := by
  simp only [State.shfDiscard, hm, Bool.not_true, Bool.false_eq_true, if_false]
  split
  · next hs => exact absurd (by simp [hs]) h
  · next hs => exact absurd (by simp [hs]) h
  · next hs => exact absurd (by simp [hs]) h
  · rfl

theorem State.shfApply_notChecked (h : (s.ctx c).st ≠ .checked) : s.shfApply c o timed t = s.shfRefuse c resNotChecked := by
  simp [State.shfApply, hm, h]

end

/-- A change of a context that leaves its state alone leaves what is COMMITTING alone. -/
theorem State.committing_setCtx {s : State} {c : Nat} {x : Ctx} (h : x.st = (s.ctx c).st) :
    (s.setCtx c x).committing = s.committing := by
  have (d : Nat) : ((s.setCtx c x).ctx d).st = (s.ctx d).st := by
    rw [State.ctx_setCtx]
    split
    · next hd => rw [hd, h]
    · rfl
  simp only [State.committing, this]

/-- An instant before that of a pending sheaf (R72). -/
def State.beforePending (s : State) (t : Stamp) : Prop :=
  ∃ d, d < 8 ∧ (s.ctx d).st = .pending ∧ stampUnits t < stampUnits (s.ctx d).when_

section
variable {s : State} {c : Nat} {o : Owner} {timed : Bool} {t : Stamp}
variable (hm : (s.ctx c).mine o = true) (hc : (s.ctx c).st = .checked)

theorem State.beforePending_iff : ((List.range 8).any fun d =>
    decide ((s.ctx d).st = .pending) && decide (stampUnits t < stampUnits (s.ctx d).when_)) = true ↔ s.beforePending t := by
  simp [State.beforePending]

include hm hc

theorem State.shfApply_order (ht : timed = true) (h : s.beforePending t) : s.shfApply c o timed t = s.shfRefuse c resOrder := by
  have := State.beforePending_iff.2 h
  simp only [State.shfApply, hm, hc, ht, this, Bool.not_true, Bool.false_eq_true, if_false, ne_eq, not_true_eq_false, Bool.true_and, if_true]

theorem State.shfApply_far (ht : timed = true) (h : ¬ s.beforePending t) (hf : stampUnits s.now + farUnits < stampUnits t) :
    s.shfApply c o timed t = s.shfRefuse c resFar := by
  have := mt State.beforePending_iff.1 h
  simp only [State.shfApply, hm, hc, ht, this, hf, Bool.not_true, Bool.false_eq_true, if_false, ne_eq, not_true_eq_false, Bool.true_and,
    decide_true, if_true]

/-- The instant passes both tests: the APPLY goes on with the instant and the mode in the context. -/
theorem State.shfApply_taken (h : timed = false ∨ ¬ s.beforePending t ∧ ¬ stampUnits s.now + farUnits < stampUnits t) :
    s.shfApply c o timed t =
      if s.shf.commits ≠ (s.ctx c).checkedAt || s.committing then
        (s.setCtx c { s.ctx c with timed := timed, when_ := t }).modCtx c
          (fun x => { x with st := .checking, forApply := true, dropAfter := false })
      else (s.setCtx c { s.ctx c with timed := timed, when_ := t }).shfCommitStart c := by
  have com : (s.setCtx c { s.ctx c with timed := timed, when_ := t }).committing = s.committing := State.committing_setCtx rfl
  rw [← com]
  unfold State.shfApply
  rcases h with h | ⟨hp, hf⟩
  · simp only [hm, hc, h, Bool.not_true, Bool.false_eq_true, if_false, ne_eq, not_true_eq_false, Bool.false_and]
    rfl
  · have := mt State.beforePending_iff.1 hp
    simp only [hm, hc, this, hf, Bool.not_true, Bool.false_eq_true, if_false, ne_eq, not_true_eq_false, decide_false, Bool.and_false]
    rfl

/-- No sheaf has committed since the check, and none is COMMITTING. -/
theorem State.shfApply_commits (h : timed = false ∨ ¬ s.beforePending t ∧ ¬ stampUnits s.now + farUnits < stampUnits t)
    (hn : s.shf.commits = (s.ctx c).checkedAt) (hq : s.committing = false) :
    s.shfApply c o timed t = (s.setCtx c { s.ctx c with timed := timed, when_ := t }).shfCommitStart c := by
  rw [State.shfApply_taken hm hc h, if_neg (by simp [hn, hq])]

/-- Otherwise the check is repeated. -/
theorem State.shfApply_again (h : timed = false ∨ ¬ s.beforePending t ∧ ¬ stampUnits s.now + farUnits < stampUnits t)
    (hn : s.shf.commits ≠ (s.ctx c).checkedAt ∨ s.committing = true) :
    s.shfApply c o timed t = (s.setCtx c { s.ctx c with timed := timed, when_ := t }).modCtx c
      (fun x => { x with st := .checking, forApply := true, dropAfter := false }) := by
  rw [State.shfApply_taken hm hc h, if_pos (by simpa using hn)]

end

/-! ## COMMITTING -/

/-- Beside the number the context alone changes. -/
theorem State.ctx_shfCommitStart (s : State) (c d : Nat) : (s.shfCommitStart c).ctx d =
    (s.modCtx c (fun x => { x with st := .committing, seq := s.shf.lastSeq + 1, result := resOk, forApply := false })).ctx d := rfl

theorem State.ctx_shfCommitStart_ne (s : State) {c d : Nat} (h : d ≠ c) : (s.shfCommitStart c).ctx d = s.ctx d := by
  rw [State.ctx_shfCommitStart, s.ctx_modCtx_ne _ h]

end Sys2Proof.Machine
end

section
/-! SUPPORT. The register commands of FE_SHF_CMD and FE_SHF_DATA (R83) before and after a supply warning. -/
namespace Sys2Proof.Machine
open Sys2Proof

section
variable {s : State}

theorem State.shfBarred_of_off (h : s.power.step = 0) : s.shfBarred = true := by simp [State.shfBarred, h]
theorem State.shfBarred_of_on (h : s.power.step ≠ 0) : s.shfBarred = false := by simp [State.shfBarred, h]

theorem State.shfCmd_barred {k : Nat} (h : s.power.step = 0) (hk : 1 ≤ k ∧ k ≤ 4) :
    s.shfCmd k = s.shfRefuse s.shfSel resNotPermitted := by
  simp [State.shfCmd, State.shfBarred_of_off h, hk]

theorem State.shfData_barred {v : Word} (h : s.power.step = 0) : s.shfData v = s.shfRefuse s.shfSel resNotPermitted :=
  if_pos (State.shfBarred_of_off h)

variable (h : s.power.step ≠ 0)
include h

theorem State.shfCmd_open : s.shfCmd 1 = s.shfOpen s.shfSel .firmware none := by simp [State.shfCmd, State.shfBarred_of_on h]
theorem State.shfCmd_check : s.shfCmd 2 = s.shfCheck s.shfSel .firmware := by simp [State.shfCmd, State.shfBarred_of_on h]
theorem State.shfCmd_apply (ha : s.svc.act ≠ 3) : s.shfCmd 3 =
    s.shfApply s.shfSel .firmware (s.ctx s.shfSel).regTimed (s.ctx s.shfSel).regWhen := by
  simp [State.shfCmd, State.shfBarred_of_on h, ha]
theorem State.shfCmd_apply_unconfirmed (ha : s.svc.act = 3) : s.shfCmd 3 = s.shfRefuse s.shfSel resNotPermitted := by
  simp [State.shfCmd, State.shfBarred_of_on h, ha]
theorem State.shfCmd_discard : s.shfCmd 4 = s.shfDiscard s.shfSel .firmware := by simp [State.shfCmd, State.shfBarred_of_on h]
theorem State.shfData_on (v : Word) : s.shfData v = s.shfStage s.shfSel .firmware
    ⟨(s.ctx s.shfSel).space, (s.ctx s.shfSel).addr, (s.ctx s.shfSel).mask, v⟩ :=
  if_neg (by simp [State.shfBarred_of_on h])

end

/-- The selected context is free, or firmware's. -/
theorem Ctx.mine_firmware {x : Ctx} (h : x.st = .free ∨ x.owner = some .firmware) : x.mine .firmware = true :=
  h.elim Ctx.mine_of_free Ctx.mine_of_owner

end Sys2Proof.Machine
end

section
open Sys2Proof Sys2Proof.Machine

/-- Settles O10: each command is the operation of R72 on the selected context, whose equation in each state gives the clause. -/
theorem sheafCommands : Obligations.SheafCommands := by
  unfold Obligations.SheafCommands
  refine ⟨fun s v i hi hp => ?_, fun s c res => ?_, fun s v i ok hi hp hm hs => ?_, fun s hp hm hs ha => ?_, fun s hp ha => ?_,
    fun s v l i hi hp ha hs ho => ?_, fun s hp hs => ?_, fun s hp hs ho => ?_, fun s v x hp hx hs ho hu => ?_,
    fun s v x hp hx hs ho hu => ?_, fun s hp hs ho => ?_, fun s x hp hx hs ho ha => ?_, fun s x hp hx hs ho => ?_,
    fun s hp hs ho => ?_⟩
  · refine ⟨?_, s.flag_refused _ _⟩
    simp only [List.mem_cons, List.not_mem_nil, or_false] at hi
    rcases hi with rfl | rfl | rfl | rfl | rfl
    · exact congrArg _ (State.shfCmd_barred hp (by decide))
    · exact congrArg _ (State.shfCmd_barred hp (by decide))
    · exact congrArg _ (State.shfCmd_barred hp (by decide))
    · exact congrArg _ (State.shfCmd_barred hp (by decide))
    · exact congrArg _ (State.shfData_barred hp)
  · exact ⟨s.ctx_shfRefuse_same c res, fun d hd => s.ctx_shfRefuse_ne c res hd, s.flag_refused c res, s.flag_poolFull c res,
      congrArg (·.lastSeq) (s.shfRefuse_shf c res), s.shfRefuse_frame c res⟩
  · have hm := Ctx.mine_firmware hm
    simp only [List.mem_cons, List.not_mem_nil, or_false, Prod.mk.injEq] at hi
    rcases hi with ⟨rfl, rfl⟩ | ⟨rfl, rfl⟩ | ⟨rfl, rfl⟩ | ⟨rfl, rfl⟩
    · exact congrArg _ ((State.shfCmd_open hp).trans (State.shfOpen_refused hm hs))
    · exact congrArg _ ((State.shfCmd_check hp).trans (State.shfCheck_refused hm (by simpa using hs)))
    · exact congrArg _ ((State.shfData_on hp v).trans (State.shfStage_refused hm hs))
    · exact congrArg _ ((State.shfCmd_discard hp).trans (State.shfDiscard_refused hm hs))
  · exact congrArg _ ((State.shfCmd_apply hp ha).trans (State.shfApply_notChecked (Ctx.mine_firmware hm) hs))
  · exact congrArg _ (State.shfCmd_apply_unconfirmed hp ha)
  · have hm := Ctx.mine_firmware_of_engine hs ho
    simp only [List.mem_cons, List.not_mem_nil, or_false] at hi
    rcases hi with rfl | rfl | rfl | rfl | rfl
    · exact congrArg _ ((State.shfCmd_open hp).trans (State.shfOpen_notOwner hm))
    · exact congrArg _ ((State.shfCmd_check hp).trans (State.shfCheck_notOwner hm))
    · exact congrArg _ ((State.shfCmd_apply hp ha).trans (State.shfApply_notOwner hm))
    · exact congrArg _ ((State.shfCmd_discard hp).trans (State.shfDiscard_notOwner hm))
    · exact congrArg _ ((State.shfData_on hp v).trans (State.shfStage_notOwner hm))
  · refine ⟨_, congrArg Host.Outcome.next ((State.shfCmd_open hp).trans (State.shfOpen_free hs)), ?_⟩
    rw [State.ctx_setCtx_same]
    exact ⟨rfl, rfl, rfl, rfl, rfl, fun c hc => s.ctx_setCtx_ne _ hc⟩
  · refine ⟨_, congrArg Host.Outcome.next ((State.shfCmd_open hp).trans (State.shfOpen_failed (Ctx.mine_of_owner ho) hs)), ?_⟩
    rw [State.ctx_setCtx_same]
    exact ⟨rfl, ho, rfl, rfl, rfl, rfl, fun c hc => s.ctx_setCtx_ne _ hc⟩
  · subst hx
    refine ⟨_, congrArg Host.Outcome.next ((State.shfData_on hp v).trans (State.shfStage_staged (Ctx.mine_of_owner ho) hs hu)), ?_⟩
    rw [State.ctx_setCtx_same]
    exact ⟨rfl, rfl, rfl, rfl, fun c hc => s.ctx_setCtx_ne _ hc⟩
  · subst hx
    refine ⟨_, congrArg Host.Outcome.next ((State.shfData_on hp v).trans (State.shfStage_full (Ctx.mine_of_owner ho) hs hu)), ?_⟩
    rw [State.ctx_shfRefuse_same]
    exact ⟨rfl, rfl, rfl, s.flag_poolFull _ _ rfl, s.flag_refused _ _⟩
  · refine ⟨_, congrArg Host.Outcome.next ((State.shfCmd_check hp).trans (State.shfCheck_opened (Ctx.mine_of_owner ho) hs)), ?_⟩
    rw [State.ctx_setCtx_same]
    exact ⟨rfl, rfl, rfl, fun c hc => s.ctx_setCtx_ne _ hc⟩
  · subst hx
    have hm := Ctx.mine_of_owner ho
    have apply := State.shfCmd_apply hp ha
    refine ⟨fun ht hl => congrArg _ (apply.trans (State.shfApply_order hm hs ht hl)),
      fun ht hl hf => congrArg _ (apply.trans (State.shfApply_far hm hs ht hl hf)), fun hgo => ?_⟩
    refine ⟨fun hc hcom => ⟨_, congrArg Host.Outcome.next (apply.trans (State.shfApply_commits hm hs hgo hc hcom)), ?_⟩,
      fun hc => ⟨_, congrArg Host.Outcome.next (apply.trans (State.shfApply_again hm hs hgo hc)), ?_⟩⟩
    · rw [State.ctx_shfCommitStart, State.ctx_modCtx_same, State.ctx_setCtx_same]
      exact ⟨rfl, rfl, rfl, rfl, rfl, rfl, rfl, rfl,
        fun c hc => (State.ctx_shfCommitStart_ne _ hc).trans (s.ctx_setCtx_ne _ hc)⟩
    · rw [State.ctx_modCtx_same, State.ctx_setCtx_same]
      exact ⟨rfl, rfl, rfl, rfl, rfl, rfl, fun c hc => (State.ctx_modCtx_ne _ _ hc).trans (s.ctx_setCtx_ne _ hc)⟩
  · subst hx
    refine ⟨_, congrArg Host.Outcome.next ((State.shfCmd_discard hp).trans (State.shfDiscard_freed (Ctx.mine_of_owner ho) hs)), ?_⟩
    rw [State.ctx_setCtx_same]
    exact ⟨rfl, rfl, rfl, rfl, fun c hc => s.ctx_setCtx_ne _ hc⟩
  · refine ⟨_, congrArg Host.Outcome.next ((State.shfCmd_discard hp).trans (State.shfDiscard_refused (Ctx.mine_of_owner ho) (by simp [hs]))), ?_⟩
    rw [State.ctx_shfRefuse_same]
    exact ⟨hs, rfl, rfl⟩

end

section
/-! SUPPORT. The sheaf instructions (R120) in each state of the engine's context. -/
namespace Sys2Proof.Machine
open Sys2Proof

/-! ## Results in predicates and s7 -/

/-- A result that leaves the contexts alone. -/
theorem State.ctx_result (s : State) (p pd res c d : Nat) (v : Bool) : ((s.setP p pd v).setS7 p res c).ctx d = s.ctx d :=
  State.ctx_congr (State.setP_keeps (·.shf) (fun _ _ _ => rfl) s p pd v) d

/-- The predicate that a result writes. -/
theorem State.p_result (s : State) {p pd : Nat} (res c : Nat) (v : Bool) (h : pd ≠ 0) :
    ((s.setP p pd v).setS7 p res c).p p pd = v := by
  refine State.p_of_eng (e := s.eng p) ?_ h
  rw [State.setS7, State.eng_modEng_same, State.eng_setP_same]

section
variable {s : State} {p pd ra rb tr c : Nat}

/-- The entry of an STG, whose space is two bits (R71, R120). -/
def stgEntry (a b : Nat) : ShfEntry := ⟨b / 2 ^ 32, w32 b, w32 (a / 2 ^ 32), w32 a⟩

theorem stgEntry_space {a b : Nat} (h : b < 2 ^ 34) : (⟨b / 2 ^ 32 % 4, w32 b, w32 (a / 2 ^ 32), w32 a⟩ : ShfEntry) = stgEntry a b := by
  have : b / 2 ^ 32 % 4 = b / 2 ^ 32 := by omega
  rw [this]
  rfl

theorem zStg_range (h : 2 ^ 34 ≤ (s.w p rb).toNat) : zStg p pd ra rb s = .exc xArgRange 0 := if_pos h

theorem zStg_own (h : (s.w p rb).toNat < 2 ^ 34) (hc : s.ctxOfEngine (s.logicalOf p) = some c) :
    zStg p pd ra rb s = zDone 30 (s.stgIn p pd c (stgEntry (s.w p ra).toNat (s.w p rb).toNat)) := by
  simp only [zStg, if_neg (Nat.not_le.2 h), hc, stgEntry_space h]

theorem zStg_opens (h : (s.w p rb).toNat < 2 ^ 34) (hn : s.ctxOfEngine (s.logicalOf p) = none) (hc : s.freeCtx = some c) :
    zStg p pd ra rb s = zDone 30 ((s.shfOpen c (.engine (s.logicalOf p)) none).stgIn p pd c
      (stgEntry (s.w p ra).toNat (s.w p rb).toNat)) := by
  simp only [zStg, if_neg (Nat.not_le.2 h), hn, hc, stgEntry_space h]
  rfl

theorem zStg_none (h : (s.w p rb).toNat < 2 ^ 34) (hn : s.ctxOfEngine (s.logicalOf p) = none) (hc : s.freeCtx = none) :
    zStg p pd ra rb s = zDone 30 ((s.setP p pd false).setS7none p resNoContext) := by
  simp only [zStg, if_neg (Nat.not_le.2 h), hn, hc]

theorem zChk_none (hn : s.ctxOfEngine (s.logicalOf p) = none) :
    zChk p pd s = zDone 10 ((s.setP p pd false).setS7none p resNoContext) := by
  simp only [zChk, hn]

theorem zChk_opened (hc : s.ctxOfEngine (s.logicalOf p) = some c) (hs : (s.ctx c).st = .opened) :
    zChk p pd s = .block (.chk pd c) (s.shfCheck c (.engine (s.logicalOf p))) := by
  simp only [zChk, hc, hs, if_true]
  rfl

theorem zChk_checked (hc : s.ctxOfEngine (s.logicalOf p) = some c) (hs : (s.ctx c).st = .checked) :
    zChk p pd s = zDone 10 (((s.shfCheck c (.engine (s.logicalOf p))).setP p pd true).setS7 p resNotPermitted c) := by
  simp only [zChk, hc, hs, reduceCtorEq, if_false, decide_true]
  rfl

theorem zApl_range (h : 2 ≤ (s.w p ra).toNat) : zApl p pd ra tr s = .exc xArgRange 0 := if_pos h

theorem zApl_none (h : (s.w p ra).toNat < 2) (hn : s.ctxOfEngine (s.logicalOf p) = none) :
    zApl p pd ra tr s = zDone 20 ((s.setP p pd false).setS7none p resNotChecked) := by
  simp only [zApl, if_neg (Nat.not_le.2 h), hn]

/-- An APL that commits. -/
theorem zApl_commits (h : (s.w p ra).toNat < 2) (hc : s.ctxOfEngine (s.logicalOf p) = some c) (hs : (s.ctx c).st = .checked)
    {t : State} (ht : s.shfApply c (.engine (s.logicalOf p)) ((s.w p ra).toNat == 1) (s.t p tr).val = t)
    (hst : (t.ctx c).st = .committing) : zApl p pd ra tr s = zDone 20 ((t.setP p pd true).setS7 p resOk c) := by
  subst ht
  simp only [zApl, if_neg (Nat.not_le.2 h), hc, engOwner, hs, hst, reduceCtorEq, and_false, and_self, if_false, if_true]

/-- An APL of a context that is not CHECKED. -/
theorem zApl_refused (h : (s.w p ra).toNat < 2) (hc : s.ctxOfEngine (s.logicalOf p) = some c) (hs : (s.ctx c).st ≠ .checked)
    {t : State} (ht : s.shfApply c (.engine (s.logicalOf p)) ((s.w p ra).toNat == 1) (s.t p tr).val = t) :
    zApl p pd ra tr s = zDone 20 ((t.setP p pd false).setS7 p (t.ctx c).result c) := by
  subst ht
  simp only [zApl, if_neg (Nat.not_le.2 h), hc, engOwner, hs, false_and, if_false]

theorem zSdrop_none (hn : s.ctxOfEngine (s.logicalOf p) = none) :
    zSdrop p pd s = zDone 10 ((s.setP p pd false).setS7none p resNoContext) := by
  simp only [zSdrop, hn]

theorem zSdrop_own (hc : s.ctxOfEngine (s.logicalOf p) = some c) (hs : (s.ctx c).st ≠ .checking)
    {t : State} (ht : s.shfDiscard c (.engine (s.logicalOf p)) = t) :
    zSdrop p pd s = zDone 10 ((t.setP p pd true).setS7 p (t.ctx c).result c) := by
  subst ht
  simp only [zSdrop, hc, engOwner, hs, ne_eq, not_false_eq_true, decide_true]

end
end Sys2Proof.Machine
end

section
open Sys2Proof Sys2Proof.Machine Sys2Proof.Safety

/-- Settles O29: the effect of each instruction in each state of the engine's context, and the retirement or the block of its
outcome. -/
theorem sheafInstructions : Obligations.SheafInstructions := by
  unfold Obligations.SheafInstructions
  intro s p ps pd ra rb tr h
  refine ⟨fun hb c hc => next_goOn h (f := zStg p pd ra rb) (zStg_own hb hc),
    fun hb hn c hc => next_goOn h (f := zStg p pd ra rb) (zStg_opens hb hn hc),
    fun hb hn hc => next_goOn h (f := zStg p pd ra rb) (zStg_none hb hn hc),
    fun hb => next_exc h (f := zStg p pd ra rb) (zStg_range hb),
    fun hn => ⟨next_goOn h (f := zChk p pd) (zChk_none hn), next_goOn h (f := zSdrop p pd) (zSdrop_none hn),
      fun ha => next_goOn h (f := zApl p pd ra tr) (zApl_none ha hn)⟩,
    fun c hc ho => ?_, fun ha => next_exc h (f := zApl p pd ra tr) (zApl_range ha)⟩
  have hm := Ctx.mine_of_owner ho
  refine ⟨fun hs => ?_, fun hs => next_goOn h (f := zChk p pd) (zChk_checked hc hs), fun ha hs _ hk hq => ?_, fun ha hs => ?_,
    fun hs => ?_⟩
  · refine ⟨_, next_block h (f := zChk p pd) (zChk_opened hc hs) (by simp), ?_⟩
    have check := State.shfCheck_opened hm hs
    rw [check, State.eng_modEng_same, State.pc_modEng]
    exact ⟨congrArg (·.st) (s.ctx_setCtx_same c _), rfl, rfl⟩
  · have timed : ((s.w p ra).toNat == 1) = false := by rw [ha]; rfl
    have st : ((s.shfApply c (.engine (s.logicalOf p)) ((s.w p ra).toNat == 1) (s.t p tr).val).ctx c).st = .committing := by
      rw [State.shfApply_commits hm hs (.inl timed) hk.symm hq, State.ctx_shfCommitStart, State.ctx_modCtx_same]
    refine ⟨_, next_goOn h (f := zApl p pd ra tr) (zApl_commits (by omega) hc hs rfl st), ?_, fun hd => State.p_result _ _ _ _ (Fin.val_ne_zero_iff.2 hd)⟩
    rw [State.ctx_result, st]
  · have hs' : (s.ctx c).st ≠ .checked := by simp [hs]
    refine ⟨_, next_goOn h (f := zApl p pd ra tr) (zApl_refused ha hc hs' (State.shfApply_notChecked hm hs')), ?_,
      fun hd => State.p_result _ _ _ _ (Fin.val_ne_zero_iff.2 hd)⟩
    rw [State.ctx_result, State.ctx_shfRefuse_same]
  · have hs' : (s.ctx c).st ≠ .checking := by rcases hs with h | h | h <;> simp [h]
    refine ⟨_, next_goOn h (f := zSdrop p pd) (zSdrop_own hc hs' (State.shfDiscard_freed hm hs)), ?_,
      fun hd => State.p_result _ _ _ _ (Fin.val_ne_zero_iff.2 hd)⟩
    rw [State.ctx_result, State.ctx_setCtx_same]
    rfl

end

section
/-! SUPPORT. The life of a sheaf (R73, R75, R77, R78, R80): what the end of a check, the commit, the loading of shadows and the
apply leave alone. -/
namespace Sys2Proof.Machine
open Sys2Proof

/-! ## What a MODULE event leaves alone -/

/-- Whatever registers of the intake and beyond, the lists, sessions and the output do not reach stays. -/
theorem State.moduleEvent_keeps {β : Type} (g : State → β) (hset : ∀ s x v, (x.blk = .fe → 0x80200 ≤ x.off) → g (State.setF s x v) = g s)
    (hlist : ∀ s l x, g (State.setIlist s l x) = g s) (hev : ∀ s cls body, g (State.event s cls body) = g s)
    (s : State) (code : Nat) (p6 : Word) (t : Stamp) (step : Nat) : g (s.moduleEvent code p6 t step) = g s := by
  have count (u : State) (x : Fld) (h : x.blk = .fe → 0x80200 ≤ x.off) : g (u.count x) = g u := hset _ _ _ h
  have full (u : State) : g (u.raise (quOverflow .intake)) = g u := by
    rw [State.raise, hset _ _ _ (by decide), hset _ _ _ (by decide)]
  have marks (u : State) : g (u.quEval .intake) = g u :=
    State.quEval_keeps g u .intake
      (fun _ x _ h => hset _ _ _ fun _ => h.elim (fun h => h.2) fun h => le_trans (by decide) h.2) hev
  have offer (u : State) (l : Nat) (e : IEvent) : g (u.offerEvent l e) = g u := by
    refine keeps_ite (count _ _ (by decide)) (keeps_ite ?_ ?_)
    · rw [marks, hlist]
    · rw [State.refuseEvent, count _ _ (by decide)]
      exact keeps_ite (full u) rfl
  exact foldS_keeps g _ (fun l u => keeps_ite (offer ..) rfl) _ _

section
variable (s : State) (code : Nat) (p6 : Word) (t : Stamp) (step : Nat)

@[simp] theorem State.event_regs (cls : Nat) (body : List Byte) : (s.event cls body).regs = s.regs :=
  State.event_keeps (·.regs) (fun _ _ _ => rfl) (fun _ _ => rfl) s cls body
@[simp] theorem State.event_fmem (cls : Nat) (body : List Byte) : (s.event cls body).fmem = s.fmem :=
  State.event_keeps (·.fmem) (fun _ _ _ => rfl) (fun _ _ => rfl) s cls body
@[simp] theorem State.event_rd (cls : Nat) (body : List Byte) (b : Blk) (o : Nat) : (s.event cls body).rd b o = s.rd b o := by
  rw [State.rd, State.event_regs]
  rfl

@[simp] theorem State.moduleEvent_fmem : (s.moduleEvent code p6 t step).fmem = s.fmem :=
  State.moduleEvent_keeps (·.fmem) (fun _ _ _ _ => State.setF_fmem ..) (fun _ _ _ => rfl) State.event_fmem s code p6 t step

theorem State.rd_moduleEvent {o : Nat} (h : o < 0x80200) : (s.moduleEvent code p6 t step).rd .fe o = s.rd .fe o :=
  State.moduleEvent_keeps (·.rd .fe o)
    (fun u x v hx => u.rd_setF_ne x v (by
      by_cases hb : x.blk = .fe
      · have := hx hb
        exact .inr (by omega)
      · exact .inl hb))
    (fun _ _ _ => rfl) (fun u cls body => u.event_rd cls body .fe o) s code p6 t step

end

/-! ## The end of a check -/

theorem foldS_nil {α : Type} (g : α → State → State) (s : State) : foldS [] g s = s := rfl

/-- A fold of changes none of which changes the state. -/
theorem foldS_fixed {α : Type} {g : α → State → State} {s : State} {l : List α} (h : ∀ x ∈ l, g x s = s) : foldS l g s = s := by
  induction l with
  | nil => rfl
  | cons x l ih =>
    have tail := ih fun y hy => h y (List.mem_cons_of_mem _ hy)
    rw [foldS, List.foldl_cons, h x List.mem_cons_self]
    exact tail

/-- No engine waits for the check. -/
theorem State.chkResume_idle {s : State} (c : Nat) (h : ∀ p, p < 18 → (s.eng p).blocked = none) : s.chkResume c = s := by
  refine foldS_fixed fun p hp => ?_
  simp only [h p (List.mem_range.1 hp)]

section
variable {s : State} {c : Nat}

/-- No session waits for the check. -/
theorem State.checkReply_none (h : (s.ctx c).hnd = none) (status : Nat) (result : Word) (data : List Byte) :
    s.checkReply c status result data = s := by
  rw [State.checkReply, h]

/-- A check that passes, and is not one repeated for an APPLY. -/
theorem State.checkPassed_first (hf : (s.ctx c).forApply = false) (hh : (s.ctx c).hnd = none) : s.checkPassed c =
    s.modCtx c (fun x => { x with st := .checked, result := resOk, images := s.sheafImages (s.ctx c).entries,
                                  checkedAt := s.shf.commits }) := by
  rw [State.checkPassed, hf]
  refine State.checkReply_none ?_ _ _ _
  rw [State.ctx_modCtx_same]
  exact hh

/-- A check that fails. -/
theorem State.checkFailed_first (f : Failure) (hf : (s.ctx c).forApply = false) (hh : (s.ctx c).hnd = none) : s.checkFailed c f =
    (s.modCtx c (fun x => { x with st := .failed, result := resRule, failRule := f.rule, failOther := f.other,
                                   failIndex := f.index, forApply := false })).raise E.FE_SHF_EVT.CHK_FAIL := by
  rw [State.checkFailed, hf]
  refine State.checkReply_none ?_ _ _ _
  rw [State.when, if_neg (by decide), State.ctx_raise, State.ctx_modCtx_same]
  exact hh

end
/-! ## The commit -/

/-- A sheaf that commits stands among those that have not applied. -/
theorem mem_commInsert (pend : Committed → Bool) (x : Committed) (l : List Committed) : x ∈ commInsert pend x l := by
  induction l with
  | nil => exact List.mem_singleton_self x
  | cons y r ih =>
    rw [commInsert]
    split
    · exact List.mem_cons_self
    · exact List.mem_cons_of_mem _ ih

section
variable {s : State} {c : Nat} (h : (s.ctx c).st = .committing)
include h

theorem State.shfCommit_shf : (s.shfCommit c).shf = ((({ s with shf := { s.shf with
    commits := s.shf.commits + 1, waiting := commInsert s.seqPending (s.ctx c).journal s.shf.waiting } } : State).setCtx c
      { s.ctx c with st := if (s.ctx c).timed && !s.reached (s.ctx c).when_ then .pending else .applying,
                     late := (s.ctx c).timed && s.reached (s.ctx c).when_, loaded := false })).shf := by
  unfold State.shfCommit
  dsimp only
  rw [if_neg (by simp [h])]
  split
  · exact State.raise_shf ..
  · rfl

/-- A timed sheaf whose instant has passed is late. -/
theorem State.flag_shfCommit (ht : (s.ctx c).timed = true) (hr : s.reached (s.ctx c).when_ = true) :
    (s.shfCommit c).flag E.FE_SHF_EVT.APPLIED_LATE = true := by
  unfold State.shfCommit
  dsimp only
  rw [if_neg (by simp [h]), if_pos (by simp [ht, hr])]
  exact State.flag_raise _ _ (by decide) (by decide) (.inl (by decide))

end

/-! ## The loading of shadows -/

section
variable {s : State} {c : Nat} (h : (s.ctx c).st = .pending ∧ (s.ctx c).loaded = false ∧ s.shfNext c = true)
include h

theorem State.shfLoaded_early (hr : s.reached (s.ctx c).when_ = false) :
    s.shfLoaded c = s.setCtx c { s.ctx c with loaded := true } := by
  rw [State.shfLoaded, if_pos h, if_neg (by simp [hr])]

theorem State.shfLoaded_late (hr : s.reached (s.ctx c).when_ = true) : s.shfLoaded c =
    (s.setCtx c { s.ctx c with loaded := true, st := .applying, late := true }).raise E.FE_SHF_EVT.APPLIED_LATE := by
  rw [State.shfLoaded, if_pos h, if_pos hr]

end

/-! ## The apply -/

section
variable (s : State) (c : Nat)

@[simp] theorem State.complete_regs (i status : Nat) (r : Word) : (s.complete i status r).regs = s.regs := rfl
@[simp] theorem State.complete_fmem (i status : Nat) (r : Word) : (s.complete i status r).fmem = s.fmem := rfl
@[simp] theorem State.complete_shf (i status : Nat) (r : Word) : (s.complete i status r).shf = s.shf := rfl

/-- The end of an apply frees the context, and touches neither registers nor field memory. -/
theorem State.ctxApplied_keeps {β : Type} (g : State → β) (hctx : ∀ s c x, g (State.setCtx s c x) = g s)
    (hcpl : ∀ s i status r, g (State.complete s i status r) = g s) : g (s.ctxApplied c) = g s := by
  unfold State.ctxApplied
  dsimp only
  split
  · rw [hcpl, hctx]
  · rw [hctx]

theorem State.ctxApplied_shf : (s.ctxApplied c).shf = (s.setCtx c (s.ctx c).release).shf := by
  unfold State.ctxApplied
  dsimp only
  split
  · rw [State.complete_shf]
  · rfl

@[simp] theorem State.ctx_ctxApplied : (s.ctxApplied c).ctx c = (s.ctx c).release :=
  (State.ctx_congr (s.ctxApplied_shf c) c).trans (s.ctx_setCtx_same c _)

/-- The state in which the sheaf's entries, its number and its flag stand, before the module posts it. -/
def State.applyShown (s : State) (c : Nat) : State :=
  (((s.applySheaf (s.ctx c).entries (s.ctx c).images).journalApplied (s.ctx c).seq).setR R.FE_SHF_SEQ.reg
    (w32 (s.ctx c).seq)).raise E.FE_SHF_EVT.APPLIED

/-- The instant that the posts name. -/
def State.appliedAt (s : State) (c : Nat) : Stamp := if (s.ctx c).timed && !(s.ctx c).late then (s.ctx c).when_ else s.now

theorem State.shfApplyNow_eq : s.shfApplyNow c =
    (((s.applyShown c).moduleEvent meSheafApplied (w32 (s.ctx c).seq) (s.appliedAt c) s.stepEpoch).event evSheaf
      (leBytes 4 (s.ctx c).seq ++ wordsBytes [stampWord (s.appliedAt c) 0, stampWord (s.appliedAt c) 1,
        stampWord (s.appliedAt c) 2])).ctxApplied c := rfl

@[simp] theorem State.ctxApplied_rd (b : Blk) (o : Nat) : (s.ctxApplied c).rd b o = s.rd b o :=
  s.ctxApplied_keeps c (·.rd b o) (fun _ _ _ => rfl) (fun _ _ _ _ => rfl)
@[simp] theorem State.ctxApplied_fmem : (s.ctxApplied c).fmem = s.fmem :=
  s.ctxApplied_keeps c (·.fmem) (fun _ _ _ => rfl) (fun _ _ _ _ => rfl)

theorem State.ctx_shfApplyNow : ((s.shfApplyNow c).ctx c).st = .free := by
  rw [State.shfApplyNow_eq, State.ctx_ctxApplied]
  rfl

/-- Registers below the intake's are those of `applyShown`. -/
theorem State.rd_shfApplyNow {o : Nat} (h : o < 0x80200) : (s.shfApplyNow c).rd .fe o = (s.applyShown c).rd .fe o := by
  rw [State.shfApplyNow_eq, State.ctxApplied_rd, State.event_rd, State.rd_moduleEvent _ _ _ _ _ h]

theorem State.f_shfApplyNow {x : Fld} (hb : x.blk = .fe) (h : x.off < 0x80200) : (s.shfApplyNow c).f x = (s.applyShown c).f x := by
  rw [State.f, State.f, hb, State.rd_shfApplyNow s c h]

theorem State.fmem_shfApplyNow : (s.shfApplyNow c).fmem = (s.applySheaf (s.ctx c).entries (s.ctx c).images).fmem := by
  rw [State.shfApplyNow_eq, State.ctxApplied_fmem, State.event_fmem, State.moduleEvent_fmem, State.applyShown, State.raise_fmem,
    State.setR_fmem]
  rfl

theorem State.flag_shfApplyNow : (s.shfApplyNow c).flag E.FE_SHF_EVT.APPLIED = true := by
  have h : (s.applyShown c).flag E.FE_SHF_EVT.APPLIED = true := State.flag_raise _ _ (by decide) (by decide) (.inl (by decide))
  rw [← h, State.flag, State.on, s.f_shfApplyNow c rfl (by decide), ← State.on, ← State.flag]

theorem State.seq_shfApplyNow : (s.shfApplyNow c).r R.FE_SHF_SEQ.reg = w32 (s.ctx c).seq := by
  have set (t : State) (v : Word) : ((t.setR R.FE_SHF_SEQ.reg v).raise E.FE_SHF_EVT.APPLIED).r R.FE_SHF_SEQ.reg = v := by
    rw [State.r, State.rd_raise_ne _ _ (.inr (by decide)) (.inr (by decide)), ← State.r, State.r_setR_same]
  have shown : (s.shfApplyNow c).r R.FE_SHF_SEQ.reg = (s.applyShown c).r R.FE_SHF_SEQ.reg := s.rd_shfApplyNow c (by decide)
  rw [shown, State.applyShown, set]

end

/-! Units go by registers and by endpoint records. -/

theorem State.nodeMacs_congr {s t : State} (h : t.regs = s.regs) : t.nodeMacs = s.nodeMacs := by
  have f (x : Fld) : t.f x = s.f x := by simp only [State.f, State.rd, h]
  have valid : t.nodeValid = s.nodeValid := by
    funext k j
    simp only [State.nodeValid, State.on, f]
  simp only [State.nodeMacs, State.nodes, valid, State.nodeMac, f]
theorem State.peerMac_congr {s t : State} (h : t.regs = s.regs) : t.peerMac = s.peerMac := by
  simp only [State.peerMac, State.f, State.rd, h]

section
variable {s t : State} {es : List ShfEntry} (he : epsIn es = []) (h : t.regs = s.regs)
include he h

theorem bound_records : bound s t es = [] := by
  simp [bound, he, State.nodeMacs_congr h, State.peerMac_congr h]
theorem unbound_records : unbound s t es = [] := by
  simp [unbound, he, State.nodeMacs_congr h, State.peerMac_congr h]

end

/-- One word beyond the records touches nothing else (R78). -/
theorem State.applySheaf_word (s : State) {a m v : Word} (ha : 0x1804000 ≤ a.toNat) (hw : shfWord a.toNat = true) :
    s.applySheaf [⟨1, a, m, v⟩] [] = s.setFWord a.toNat (mergeMask (s.fword a.toNat) v m) := by
  have regs : s.applyRegs [⟨1, a, m, v⟩] = s := by simp [State.applyRegs, State.regsIn, foldS]
  have eps : epsIn [⟨1, a, m, v⟩] = [] := by
    have : ¬ a.toNat < 0x1000000 := by omega
    simp [epsIn, this]
  have rows : rowsIn [⟨1, a, m, v⟩] = [] := by
    have : ¬ a.toNat < 0x1800000 := by omega
    simp [rowsIn, this]
  have entry : s.putEntry ⟨1, a, m, v⟩ = s.setFWord a.toNat (mergeMask (s.fword a.toNat) v m) := by
    rw [State.putEntry, if_neg (by simp), if_pos ⟨rfl, hw⟩]
  generalize ht : s.setFWord a.toNat (mergeMask (s.fword a.toNat) v m) = t at entry
  have regsT : t.regs = s.regs := by rw [← ht, State.setFWord_regs]
  have word : List.foldl State.applyWord s [⟨1, a, m, v⟩] = t := by
    rw [List.foldl_cons, List.foldl_nil, State.applyWord, if_pos rfl, entry]
  have limits : State.limitsApply s t [⟨1, a, m, v⟩] = t := by
    rw [State.limitsApply, eps, rows, List.filter_nil, List.filter_nil, List.flatMap_nil, List.append_nil, foldS_nil]
  have ghosts : State.ghostsApply s t [⟨1, a, m, v⟩] = t := by
    rw [State.ghostsApply, bound_records eps regsT, unbound_records eps regsT, foldS_nil, foldS_nil]
  rw [State.applySheaf, State.applyEntries, regs, word, limits, eps, foldS_nil, foldS_nil, ghosts]

end Sys2Proof.Machine
end

section
open Sys2Proof Sys2Proof.Machine

/-- Settles O11: the equation of each step of a sheaf's life, and what the module's posts leave alone. -/
theorem sheafLife : Obligations.SheafLife := by
  unfold Obligations.SheafLife
  refine ⟨fun s c x hx hs hf hd hh hb => ?_, fun s c x hx hs hj => ?_, fun s c x hx hs hl hn => ?_, fun s c hdue => ?_⟩
  · subst hx
    have go : exec (.checkComplete c) s = .next (s.checkEnd c) := congrArg Host.Outcome.next (if_pos (by simp [hs, hf]))
    refine ⟨_, go, ?_⟩
    unfold State.checkEnd
    dsimp only
    rw [if_neg (by simp [hd])]
    cases hc : s.checkSheaf (s.ctx c).entries with
    | none =>
      dsimp only
      rw [State.checkPassed_first hf hh, State.chkResume_idle c (by exact hb), State.ctx_modCtx_same]
      exact ⟨rfl, rfl, rfl, rfl, rfl⟩
    | some f =>
      dsimp only
      rw [State.checkFailed_first f hf hh, State.chkResume_idle c (by exact hb), State.ctx_raise, State.ctx_modCtx_same]
      exact ⟨rfl, rfl, rfl, rfl, State.flag_raise _ _ (by decide) (by decide) (.inl (by decide))⟩
  · subst hx
    have shf := State.shfCommit_shf hs
    have ctx := (State.ctx_congr shf c).trans (State.ctx_setCtx_same ..)
    refine ⟨?_, ?_, congrArg (·.commits) shf, ⟨(s.ctx c).journal, ?_, rfl, rfl, rfl, rfl, rfl⟩, State.flag_shfCommit hs⟩
    · exact congrArg Host.Outcome.next (if_pos (by simp [hs, hj]))
    · rw [ctx]
      cases (s.ctx c).timed <;> cases s.reached (s.ctx c).when_ <;> rfl
    · rw [shf]
      exact mem_commInsert ..
  · subst hx
    refine ⟨fun hr => ⟨_, congrArg Host.Outcome.next (State.shfLoaded_early ⟨hs, hl, hn⟩ hr), ?_⟩,
      fun hr => ⟨_, congrArg Host.Outcome.next (State.shfLoaded_late ⟨hs, hl, hn⟩ hr), ?_⟩⟩
    · rw [State.ctx_setCtx_same]
      exact ⟨hs, rfl, rfl⟩
    · rw [State.ctx_raise, State.ctx_setCtx_same]
      exact ⟨rfl, State.flag_raise _ _ (by decide) (by decide) (.inl (by decide))⟩
  · refine ⟨congrArg Host.Outcome.next (if_pos hdue), s.ctx_shfApplyNow c, s.flag_shfApplyNow c, s.seq_shfApplyNow c,
      fun a m v he hi ha hw => ?_⟩
    rw [State.fword_congr (s.fmem_shfApplyNow c), he, hi, s.applySheaf_word ha hw, State.fword_setFWord_same]

end

section
/-! SUPPORT. Placement of a command (R117, R128–R131, R165) and DONE (R119). -/
namespace Sys2Proof.Machine
open Sys2Proof

/-! ## Whether a placement is refused -/

section
variable {s : State} {o : Owner} {i level : Nat} {d : Desc} {payload : List Byte} {t : Stamp}

theorem State.placeTest_fenced {m : Bool} (h : s.fenced = true) : s.placeTest m t = some .fenced := if_pos h
theorem State.placeTest_far {m : Bool} (h : s.fenced = false) (hf : (!m && s.tooFar t) = true) : s.placeTest m t = some .far := by
  rw [State.placeTest, h, hf, if_neg (by decide), if_pos rfl]
theorem State.placeTest_full {m : Bool} (h : s.fenced = false) (hf : (!m && s.tooFar t) = false) (hc : calCap ≤ s.calUsed) :
    s.placeTest m t = some .calFull := by
  rw [State.placeTest, h, hf, if_neg (by decide), if_neg (by decide), if_pos hc]
theorem State.placeTest_none {m : Bool} (h : s.fenced = false) (hf : (!m && s.tooFar t) = false) (hc : s.calUsed < calCap) :
    s.placeTest m t = none := by
  rw [State.placeTest, h, hf, if_neg (by decide), if_neg (by decide), if_neg (Nat.not_le.2 hc)]

theorem State.place_refused {r : Refused} (h : s.placeTest d.immediate t = some r) : s.place o i level d payload t = .inl r := by
  rw [State.place, h]
theorem State.place_quota (h : s.placeTest d.immediate t = none) (ha : s.allocTest o = .quota) :
    s.place o i level d payload t = .inl .quota := by
  rw [State.place, h, ha]
theorem State.place_noHandle (h : s.placeTest d.immediate t = none) (ha : s.allocTest o = .noHandle) :
    s.place o i level d payload t = .inl .noHandle := by
  rw [State.place, h, ha]
theorem State.place_slot {n : Nat} (h : s.placeTest d.immediate t = none) (ha : s.allocTest o = .slot n) :
    s.place o i level d payload t = .inr (n, s.placeCmd o n i level d payload t) := by
  rw [State.place, h, ha]

end

/-! ## The handle and the record of a placed command -/

theorem State.hslot_setHslot (s : State) (i j : Nat) (h : Handle) : (s.setHslot i h).hslot j = if j = i then h else s.hslot j :=
  sget_sset ..

/-- What a slot shows goes by the handles' part of the state alone. -/
theorem State.hslot_congr {s t : State} (h : t.hnd = s.hnd) (i : Nat) : t.hslot i = s.hslot i := by
  rw [State.hslot, h]
  rfl

theorem State.hslot_allocSlot (s : State) (n m : Nat) (h : Handle) : (s.allocSlot n h).hslot m =
    if m = n then { h with st := .placed, gen := (s.hslot n).gen } else s.hslot m := by
  rw [State.allocSlot, State.hslot_setHslot]
  rfl

/-- The handle of a field command, before its slot gives it state and generation. -/
def State.cmdHandle (s : State) (o : Owner) (i : Nat) (d : Desc) : Handle :=
  { Handle.fresh with
    owner := o, ep := i, epGen := s.ep i EP.GEN, eui := s.epEui i, path := s.ep i EP.PATH, addr := w32 (s.ep i EP.ADDR),
    isField := true, hold := d.hold, noReplyCmd := d.noReply }

/-- Beside its handle a placement changes the calendar, its registers, and the record. -/
theorem State.placeCmd_keeps {β : Type} (g : State → β) (hcal : ∀ (s : State) c, g { s with cal := c } = g s)
    (hset : ∀ s x v, g (State.setF s x v) = g s) (hep : ∀ s i x v, g (State.setEp s i x v) = g s)
    (s : State) (o : Owner) (n i level : Nat) (d : Desc) (payload : List Byte) (t : Stamp) :
    g (s.placeCmd o n i level d payload t) = g (s.allocSlot n (s.cmdHandle o i d)) := by
  have peak (u : State) : g u.calPeak = g u := keeps_ite (hset ..) rfl
  unfold State.placeCmd
  dsimp only
  refine keeps_ite ((hep ..).trans ?_) ?_
  all_goals
    rw [hep, peak, hcal]
    split
    · exact hcal ..
    · rfl

section
variable (s : State) (o : Owner) (n i level : Nat) (d : Desc) (payload : List Byte) (t : Stamp)

@[simp] theorem State.placeCmd_hnd : (s.placeCmd o n i level d payload t).hnd = (s.allocSlot n (s.cmdHandle o i d)).hnd :=
  State.placeCmd_keeps (·.hnd) (fun _ _ => rfl) (fun _ _ _ => rfl) (fun _ _ _ _ => State.setEp_hnd ..) s o n i level d payload t

theorem State.hslot_placeCmd (m : Nat) : (s.placeCmd o n i level d payload t).hslot m =
    if m = n then { s.cmdHandle o i d with st := .placed, gen := (s.hslot n).gen } else s.hslot m :=
  (State.hslot_congr (s.placeCmd_hnd o n i level d payload t) m).trans (s.hslot_allocSlot n m _)

@[simp] theorem State.handleAt_placeCmd : (s.placeCmd o n i level d payload t).handleAt n = s.handleAt n := by
  rw [State.handleAt, State.hslot_placeCmd, if_pos rfl]
  rfl

/-- The last changes are those of the record. -/
theorem State.placeCmd_record : ∃ u : State, s.placeCmd o n i level d payload t =
    if d.code = ccSetLevel then (u.setEp i EP.HANDLE (s.handleAt n).toNat).setEp i EP.TGT level
    else u.setEp i EP.HANDLE (s.handleAt n).toNat := by
  have gen : (s.allocSlot n (s.cmdHandle o i d)).handleAt n = s.handleAt n := by
    rw [State.handleAt, State.hslot_allocSlot, if_pos rfl]
    rfl
  rw [← gen]
  exact ⟨_, rfl⟩

theorem State.ep_placeCmd_handle : (s.placeCmd o n i level d payload t).ep i EP.HANDLE = (s.handleAt n).toNat := by
  have set (u : State) : (u.setEp i EP.HANDLE (s.handleAt n).toNat).ep i EP.HANDLE = (s.handleAt n).toNat :=
    (State.m_setM_same _ _ _ _ (by decide)).trans (Nat.mod_eq_of_lt (s.handleAt n).isLt)
  obtain ⟨u, hu⟩ := s.placeCmd_record o n i level d payload t
  rw [hu]
  split
  · exact (State.m_setM_ne _ _ _ _ _ _ (by decide) (.inr (.inl (by simp only [EP.TGT, EP.HANDLE]; omega)))).trans (set u)
  · exact set u

theorem State.ep_placeCmd_level (hc : d.code = ccSetLevel) (hl : level < 1024) :
    (s.placeCmd o n i level d payload t).ep i EP.TGT = level := by
  obtain ⟨u, hu⟩ := s.placeCmd_record o n i level d payload t
  rw [hu, if_pos hc]
  exact (State.m_setM_same _ _ _ _ (by decide)).trans (Nat.mod_eq_of_lt hl)

end

/-- A clamp is noted in the record and the engine's count; handles stay. -/
@[simp] theorem State.noteClamp_hnd (s : State) (l i : Nat) (b : Bool) : (s.noteClamp l i b).hnd = s.hnd := by
  unfold State.noteClamp
  split
  · exact State.setEp_hnd s i EP.CLAMPED 1
  · rfl

@[simp] theorem State.handleAt_noteClamp (s : State) (l i n : Nat) (b : Bool) : (s.noteClamp l i b).handleAt n = s.handleAt n := by
  rw [State.handleAt, State.hslot_congr (s.noteClamp_hnd l i b)]
  rfl

/-! ## EMIT -/

/-- The descriptor that w[ra] addresses. -/
def State.emitDesc (s : State) (p ra : Nat) : Desc :=
  descOf (s.lsW p (lsAddr (s.w p ra))) (s.lsW p (lsAddr (s.w p ra) + 4)) (s.lsW p (lsAddr (s.w p ra) + 8))
    (s.lsW p (lsAddr (s.w p ra) + 12))
/-- The payload that it names in the build area of the engine. -/
def State.emitPayload (s : State) (p : Nat) (d : Desc) : List Byte :=
  s.fbytes (0x2000000 + s.logicalOf p * 0x80000 + 16 * d.poff) d.plen
/-- The level that EMIT places. -/
def State.emitLevel (s : State) (i : Nat) (d : Desc) : Nat := if d.code = ccSetLevel then s.clampLevel i d.level else d.level

section
variable {s : State} {p pd rb ra ec tr : Nat} (ha : lsAddr (s.w p ra) % 4 = 0)
  (hg : s.ep (curIdx (s.e p ec)) EP.GEN = curGen (s.e p ec)) (hv : s.epValid (curIdx (s.e p ec)) = true)
include ha hg hv

theorem zEmit_badDesc (hd : descBad (s.emitDesc p ra) (s.ep (curIdx (s.e p ec)) EP.PATH) (s.ep (curIdx (s.e p ec)) EP.TYPE) = true) :
    zEmit p pd rb ra ec tr s = .exc xEmitDesc 0 := by
  unfold zEmit
  dsimp only
  rw [if_neg (by simp [ha]), if_neg (by simp [State.stale, hg]), if_neg (by simp [hv])]
  exact if_pos hd

variable (hd : descBad (s.emitDesc p ra) (s.ep (curIdx (s.e p ec)) EP.PATH) (s.ep (curIdx (s.e p ec)) EP.TYPE) = false)
include hd

theorem zEmit_placed {n : Nat} {u : State} (hp : s.place (.engine (s.logicalOf p)) (curIdx (s.e p ec))
      (s.emitLevel (curIdx (s.e p ec)) (s.emitDesc p ra)) (s.emitDesc p ra) (s.emitPayload p (s.emitDesc p ra)) (s.t p tr).val =
      .inr (n, u)) : zEmit p pd rb ra ec tr s = zDone (60 + ceilDiv (s.emitDesc p ra).plen 16)
    ((((u.noteClamp (s.logicalOf p) (curIdx (s.e p ec)) ((s.emitDesc p ra).code == ccSetLevel &&
      s.emitLevel (curIdx (s.e p ec)) (s.emitDesc p ra) != (s.emitDesc p ra).level)).setW p rb
        ((u.handleAt n).setWidth 64)).setP p pd true).setS6 p 0) := by
  have none : ¬ descBad (s.emitDesc p ra) (s.ep (curIdx (s.e p ec)) EP.PATH) (s.ep (curIdx (s.e p ec)) EP.TYPE) = true := by
    simp [hd]
  unfold zEmit
  dsimp only
  rw [if_neg (by simp [ha]), if_neg (by simp [State.stale, hg]), if_neg (by simp [hv])]
  refine (if_neg none).trans ?_
  rw [← State.emitDesc, ← State.emitPayload, ← State.emitLevel]
  rw [hp]
  dsimp only
  rw [State.handleAt_noteClamp]

theorem zEmit_refused {r : Refused} (hp : s.place (.engine (s.logicalOf p)) (curIdx (s.e p ec))
      (s.emitLevel (curIdx (s.e p ec)) (s.emitDesc p ra)) (s.emitDesc p ra) (s.emitPayload p (s.emitDesc p ra)) (s.t p tr).val =
      .inl r) : zEmit p pd rb ra ec tr s = zDone (60 + ceilDiv (s.emitDesc p ra).plen 16)
    ((((s.placeFlags r).setW p rb 0).setP p pd false).setS6 p (emitCode r)) := by
  have none : ¬ descBad (s.emitDesc p ra) (s.ep (curIdx (s.e p ec)) EP.PATH) (s.ep (curIdx (s.e p ec)) EP.TYPE) = true := by
    simp [hd]
  unfold zEmit
  dsimp only
  rw [if_neg (by simp [ha]), if_neg (by simp [State.stale, hg]), if_neg (by simp [hv])]
  refine (if_neg none).trans ?_
  rw [← State.emitDesc, ← State.emitPayload, ← State.emitLevel, hp]

end

/-! ## DONE -/

section
variable {s : State} {p pd ra rb : Nat} (hv : (s.w p rb).toNat / 65536 % 65536 = 0)
include hv

theorem zDoneH_eq : zDoneH p pd ra rb s = zDone 30
    ((s.hndDone (s.logicalOf p) ((s.w p ra).setWidth 32) ((s.w p rb).toNat % 65536) ((s.w p rb >>> 32).setWidth 32)).2.setP p pd
      (s.hndDone (s.logicalOf p) ((s.w p ra).setWidth 32) ((s.w p rb).toNat % 65536) ((s.w p rb >>> 32).setWidth 32)).1) := by
  rw [zDoneH, if_neg (by simp [hv]), w32_toNat, w32_high]

end

section
variable {s : State} {l status : Nat} {w r : Word}

theorem hndDone_held (ho : s.handleOpen w = true) (hl : (s.hslot (slotOf w)).live = true)
    (hf : (s.hslot (slotOf w)).isField = true) (hh : (s.hslot (slotOf w)).hold = true)
    (hw : (s.hslot (slotOf w)).owner = .engine l) : s.hndDone l w status r = (true, s.complete (slotOf w) status r) :=
  if_pos (by simp [ho, hl, hf, hh, hw])

theorem hndDone_other (h : s.handleOpen w = false ∨ (s.hslot (slotOf w)).live = false ∨
    (s.hslot (slotOf w)).isField = false ∨ (s.hslot (slotOf w)).hold = false ∨ (s.hslot (slotOf w)).owner ≠ .engine l) :
    s.hndDone l w status r = (false, s) := by
  refine if_neg ?_
  rcases h with h | h | h | h | h <;> simp [h]

end

end Sys2Proof.Machine
end

section
open Sys2Proof Sys2Proof.Machine Sys2Proof.Safety

/-- Settles O28: EMIT and DONE by their equations, the refusals in the order of `placeTest` and `allocTest`, and what a placement
writes. -/
theorem emitAndDone : Obligations.EmitAndDone := by
  unfold Obligations.EmitAndDone
  refine ⟨fun s p ps pd rb ra ec tr h => ?_, fun s o i level d payload t => ?_, fun s o n i level d payload t hn hi hl => ?_,
    fun s p ps pd ra rb h => ?_⟩
  · intro a i l d cost payload level t ha hg hv
    refine ⟨fun hd => next_exc h (f := zEmit p pd rb ra ec tr) (zEmit_badDesc ha hg hv hd), fun hd => ⟨?_, ?_⟩⟩
    · intro n hf ht hc hs
      have near : (!d.immediate && s.tooFar t) = false := by rcases ht with ht | ht <;> simp [ht]
      have place : s.place (.engine l) i level d payload t = .inr (n, s.placeCmd (.engine l) n i level d payload t) :=
        State.place_slot (State.placeTest_none hf near hc) hs
      refine ⟨_, next_goOn h (f := zEmit p pd rb ra ec tr) (zEmit_placed ha hg hv hd place), ?_⟩
      rw [State.handleAt_placeCmd]
      rfl
    · intro r code hr hp
      have emit := next_goOn h (q := true) (f := zEmit p pd rb ra ec tr) (zEmit_refused ha hg hv hd hp)
      have hcode : emitCode r = code := by
        simp only [List.mem_cons, List.not_mem_nil, or_false, Prod.mk.injEq] at hr
        rcases hr with ⟨rfl, rfl⟩ | ⟨rfl, rfl⟩ | ⟨rfl, rfl⟩ | ⟨rfl, rfl⟩ | ⟨rfl, rfl⟩ <;> rfl
      rw [← hcode]
      exact emit
  · intro far
    exact ⟨fun hf => State.place_refused (State.placeTest_fenced hf), fun hf hr => State.place_refused (State.placeTest_far hf hr),
      fun hf hr hc => State.place_refused (State.placeTest_full hf hr hc),
      fun hf hr hc ha => State.place_quota (State.placeTest_none hf hr hc) ha,
      fun hf hr hc ha => State.place_noHandle (State.placeTest_none hf hr hc) ha⟩
  · intro u
    have slot : u.hslot n = { s.cmdHandle o i d with st := .placed, gen := (s.hslot n).gen } :=
      (s.hslot_placeCmd o n i level d payload t n).trans (if_pos rfl)
    exact ⟨congrArg (·.st) slot, congrArg (·.owner) slot, congrArg (·.ep) slot, congrArg (·.hold) slot,
      s.handleAt_placeCmd o n i level d payload t, s.ep_placeCmd_handle o n i level d payload t,
      fun hc => s.ep_placeCmd_level o n i level d payload t hc hl,
      fun m hm => (s.hslot_placeCmd o n i level d payload t m).trans (if_neg hm)⟩
  · intro v w hslot hv
    refine ⟨fun ho hl hf hh hw => next_goOn h (f := zDoneH p pd ra rb) ?_, fun hno => next_goOn h (f := zDoneH p pd ra rb) ?_⟩
    · rw [zDoneH_eq hv, hndDone_held ho hl hf hh hw]
    · rw [zDoneH_eq hv, hndDone_other hno]

end

section
/-! SUPPORT. Requests of a session (R169, R171–R173): what a heard message and an ACCEPT leave alone, and the way of a request through
its tests. -/
namespace Sys2Proof.Machine
open Sys2Proof Sys2Proof.Safety

/-! ## A session that is heard -/

/-- The session has sent a message: its PING is answered. -/
def State.heard (s : State) (n : Nat) : State := s.modSess n (fun x => { x with pinged := false })

/-- That changes the session alone. -/
theorem State.heard_eq (s : State) (n : Nat) : ∃ f, s.heard n = { s with fcp := f } := by
  unfold State.heard State.modSess
  split
  · exact ⟨_, rfl⟩
  · exact ⟨s.fcp, rfl⟩

theorem State.heard_keeps {β : Type} (g : State → β) (h : ∀ (s : State) f, g { s with fcp := f } = g s) (s : State) (n : Nat) :
    g (s.heard n) = g s := by
  obtain ⟨f, hf⟩ := s.heard_eq n
  rw [hf, h]

theorem State.sess_heard {s : State} {n : Nat} (h : (s.sess n).isOpen = true) : (s.heard n).sess n = { s.sess n with pinged := false } := by
  rw [State.heard, State.modSess, if_pos h]
  exact sget_sset_same ..

section
variable (s : State) (n : Nat)

@[simp] theorem State.heard_shf : (s.heard n).shf = s.shf := State.heard_keeps (·.shf) (fun _ _ => rfl) s n
@[simp] theorem State.heard_hnd : (s.heard n).hnd = s.hnd := State.heard_keeps (·.hnd) (fun _ _ => rfl) s n
@[simp] theorem State.heard_regs : (s.heard n).regs = s.regs := State.heard_keeps (·.regs) (fun _ _ => rfl) s n
@[simp] theorem State.heard_fmem : (s.heard n).fmem = s.fmem := State.heard_keeps (·.fmem) (fun _ _ => rfl) s n
@[simp] theorem State.heard_svc : (s.heard n).svc = s.svc := State.heard_keeps (·.svc) (fun _ _ => rfl) s n
@[simp] theorem State.heard_ident : (s.heard n).ident = s.ident := State.heard_keeps (·.ident) (fun _ _ => rfl) s n
@[simp] theorem State.heard_out : (s.heard n).out = s.out := State.heard_keeps (·.out) (fun _ _ => rfl) s n
@[simp] theorem State.role_heard : (s.heard n).role = s.role := State.heard_keeps (·.role) (fun _ _ => rfl) s n
@[simp] theorem State.fenced_heard : (s.heard n).fenced = s.fenced := State.heard_keeps (·.fenced) (fun _ _ => rfl) s n
@[simp] theorem State.placeTest_heard (m : Bool) (t : Stamp) : (s.heard n).placeTest m t = s.placeTest m t :=
  State.heard_keeps (·.placeTest m t) (fun _ _ => rfl) s n

end

/-! ## Allocation goes by handles and quotas -/

theorem State.freshSlot_congr {s t : State} (h : t.hnd = s.hnd) (n i : Nat) : t.freshSlot n i = s.freshSlot n i := by
  induction n generalizing i with
  | zero => rfl
  | succ n ih => rw [State.freshSlot, State.freshSlot, ih, State.hslot_congr h, h]

theorem State.allocTest_congr {s t : State} (h : t.hnd = s.hnd) (hr : t.regs = s.regs) (o : Owner) : t.allocTest o = s.allocTest o := by
  have f (x : Fld) : t.f x = s.f x := by simp only [State.f, State.rd, hr]
  have quota : t.quotaOf o = s.quotaOf o := by cases o <;> simp only [State.quotaOf, State.heldBy, h, f]
  have free : t.oldestFree = s.oldestFree := by simp only [State.oldestFree, State.freshSlot_congr h, h]
  simp only [State.allocTest, quota, free]

/-! ## The tests of a request -/

section
variable {s : State} {n : Nat} {tag : Word} {control lighting : Bool}

theorem State.reqTest_none (h : mayAsk s n control lighting) : (s.heard n).reqTest n control lighting false = none := by
  obtain ⟨hopen, -, hcontrol, hlight⟩ := h
  have session := State.sess_heard hopen
  rw [State.reqTest, session, State.role_heard, State.fenced_heard]
  have c1 : ¬ (control && !(s.sess n).control) = true := by
    cases control with
    | false => simp
    | true => simp [(hcontrol rfl).1]
  have c2 : ¬ (control && (s.role == roleStandby || s.role == roleClaiming)) = true := by
    cases control with
    | false => simp
    | true => simp [(hcontrol rfl).2]
  have c3 : ¬ (lighting && s.fenced) = true := by
    cases lighting with
    | false => simp
    | true => simp [hlight rfl]
  exact (if_neg c1).trans ((if_neg c2).trans ((if_neg c3).trans rfl))

/-- A message on a session of version 2. -/
theorem State.onSession_open {k : State → State} (h : mayAsk s n control lighting) : s.onSession n k = k (s.heard n) := by
  obtain ⟨hopen, hv, -, -⟩ := h
  have v : ((s.heard n).sess n).version1 = false := by rw [State.sess_heard hopen]; exact hv
  unfold State.onSession
  dsimp only
  rw [hopen, if_neg (by decide), ← State.heard]
  exact if_neg (by simp [v])

/-- A message on a session of version 1 (R176). -/
theorem State.onSession_v1 {k : State → State} (ho : (s.sess n).isOpen = true) (hv : (s.sess n).version1 = true) :
    s.onSession n k = (s.heard n).send (.v1 n fsReadOnly []) := by
  have v : ((s.heard n).sess n).version1 = true := by rw [State.sess_heard ho]; exact hv
  unfold State.onSession
  dsimp only
  rw [ho, if_neg (by decide), ← State.heard]
  exact if_pos v

/-- A request that no test refuses is accepted with a handle. -/
theorem State.request_accepted {err : State → Option Nat} {k : Nat → State → State} {i : Nat} (h : mayAsk s n control lighting)
    (he : err (s.heard n) = none) (ha : s.allocTest (.session n) = .slot i) :
    s.request n tag control lighting false err k = k i (accepted s n tag i) := by
  have alloc : (s.heard n).allocTest (.session n) = .slot i :=
    (State.allocTest_congr (s.heard_hnd n) (s.heard_regs n) _).trans ha
  rw [State.request, State.onSession_open h]
  simp only [State.reqTest_none h, he, alloc]
  rfl

end

theorem State.st_shfCommitStart (s : State) (c : Nat) : ((s.shfCommitStart c).ctx c).st = .committing := by
  rw [State.ctx_shfCommitStart, State.ctx_modCtx_same]

/-! ## The accepted request -/

section
variable (s : State) (n i : Nat) (tag : Word)

@[simp] theorem accepted_shf : (accepted s n tag i).shf = s.shf := s.heard_shf n
@[simp] theorem accepted_svc : (accepted s n tag i).svc = s.svc := s.heard_svc n

@[simp] theorem ctx_accepted (c : Nat) : (accepted s n tag i).ctx c = s.ctx c := State.ctx_congr (accepted_shf s n i tag) c

/-- What goes by the sheaves' part of the state alone. -/
theorem ctxOfSession_accepted : (accepted s n tag i).ctxOfSession n = s.ctxOfSession n := by
  simp only [State.ctxOfSession, ctx_accepted]
theorem freeCtx_accepted : (accepted s n tag i).freeCtx = s.freeCtx := by simp only [State.freeCtx, ctx_accepted]
theorem committing_accepted : (accepted s n tag i).committing = s.committing := by simp only [State.committing, ctx_accepted]
theorem shfUsed_accepted : (accepted s n tag i).shfUsed = s.shfUsed := by simp only [State.shfUsed, accepted_shf]

/-- The new handle. -/
theorem hslot_accepted : ((accepted s n tag i).hslot i).st = .placed := by
  have h : (accepted s n tag i).hslot i = ((s.heard n).allocSlot i { Handle.fresh with owner := .session n }).hslot i := rfl
  rw [h, State.hslot_allocSlot, if_pos rfl]

end

section
variable (s : State) (i status : Nat) (r : Word) (data : List Byte)

/-- A handle that completes (R162). -/
theorem State.hslot_complete (j : Nat) : (s.complete i status r).hslot j = if j = i then { s.hslot i with
    st := .completing, status := status, result := r, time := s.now, step := s.stepEpoch, order := s.hnd.completed }
    else s.hslot j :=
  s.hslot_setHslot i j { s.hslot i with
    st := .completing, status := status, result := r, time := s.now, step := s.stepEpoch, order := s.hnd.completed }

/-- The end of a request completes its handle and keeps its data. -/
@[simp] theorem State.finish_shf : (s.finish i status r data).shf = s.shf := rfl
@[simp] theorem State.ctx_finish (c : Nat) : (s.finish i status r data).ctx c = s.ctx c := rfl
theorem State.hslot_finish : ((s.finish i status r data).hslot i).st = .completing ∧
    ((s.finish i status r data).hslot i).status = status ∧ ((s.finish i status r data).hslot i).result = r := by
  rw [State.finish, State.hslot_complete, if_pos rfl]
  exact ⟨rfl, rfl, rfl⟩

end

/-! ## Sheaf requests on a context -/

section
variable {s : State} {n i c : Nat}

theorem State.sheafOpen_failed (hc : s.ctxOfSession n = some c) (hs : (s.ctx c).st = .failed) :
    s.sheafOpen n i = (s.shfOpen c .firmware (some n)).finish i fsOk (w32 c) [] := by
  simp only [State.sheafOpen, hc, hs, if_true]
theorem State.sheafOpen_free (hn : s.ctxOfSession n = none) (hc : s.freeCtx = some c) :
    s.sheafOpen n i = (s.shfOpen c .firmware (some n)).finish i fsOk (w32 c) [] := by
  simp only [State.sheafOpen, hn, hc]
theorem State.sheafOpen_none (hn : s.ctxOfSession n = none) (hc : s.freeCtx = none) :
    s.sheafOpen n i = s.finish i fsSheaf (w32 resNoContext) [] := by
  simp only [State.sheafOpen, hn, hc, State.finishSheaf]

theorem State.sheafStage_none (hn : s.ctxOfSession n = none) (es : List ShfEntry) :
    s.sheafStage n i es = s.finish i fsSheaf (w32 resNotPermitted) [] := by
  simp only [State.sheafStage, hn, State.finishSheaf]
theorem State.sheafCheck_none (hn : s.ctxOfSession n = none) : s.sheafCheck n i = s.finish i fsSheaf (w32 resNotPermitted) [] := by
  simp only [State.sheafCheck, hn, State.finishSheaf]
theorem State.sheafApply_none (hn : s.ctxOfSession n = none) (b : Bool) (t : Stamp) :
    s.sheafApply n i b t = s.finish i fsSheaf (w32 resNotChecked) [] := by
  simp only [State.sheafApply, hn, State.finishSheaf]
theorem State.sheafDiscard_none (hn : s.ctxOfSession n = none) :
    s.sheafDiscard n i = s.finish i fsSheaf (w32 resNotPermitted) [] := by
  simp only [State.sheafDiscard, hn, State.finishSheaf]

variable (hc : s.ctxOfSession n = some c)
include hc

/-- One entry is staged. -/
theorem State.sheafStage_one {e : ShfEntry} {t : State} (ht : s.shfStage c .firmware e = t)
    (he : (t.ctx c).entries = (s.ctx c).entries ++ [e]) : s.sheafStage n i [e] = t.finish i fsOk (w32 1) [] := by
  have len : (t.ctx c).entries.length = (s.ctx c).entries.length + 1 := by rw [he, List.length_append]; rfl
  have all : State.stageAll c [e] s = (true, t) := by
    rw [State.stageAll, ht]
    exact if_pos len
  simp only [State.sheafStage, hc, all, if_true]
  rfl

theorem State.sheafCheck_opened (hs : (s.ctx c).st = .opened) :
    s.sheafCheck n i = (s.shfCheck c .firmware).modCtx c (fun x => { x with hnd := some i }) := by
  simp only [State.sheafCheck, hc, hs, if_true]

/-- The APPLY goes on, and its handle waits. -/
theorem State.sheafApply_taken {b : Bool} {t : Stamp} {u : State} (ha : s.svc.act ≠ 3) (hs : (s.ctx c).st = .checked)
    (hu : s.shfApply c .firmware b t = u) (hst : (u.ctx c).st ≠ .checked) :
    s.sheafApply n i b t = u.modCtx c (fun x => { x with hnd := some i }) := by
  simp only [State.sheafApply, hc, if_neg ha, hu]
  exact if_pos ⟨hs, hst⟩

theorem State.sheafDiscard_freed {u : State} (hu : s.shfDiscard c .firmware = u) (hst : (u.ctx c).st = .free) :
    s.sheafDiscard n i = u.finish i fsOk 0 [] := by
  simp only [State.sheafDiscard, hc, hu, hst, if_true]

end

end Sys2Proof.Machine
end

section
/-! SUPPORT. FIELD_CMD (R172): its tests in their order, and its placement. -/
namespace Sys2Proof.Machine
open Sys2Proof Sys2Proof.Safety

/-! ## The tests of the command -/

/-- The cursor names a valid record of its generation. -/
def State.fieldHere (s : State) (cursor : Word) : Prop :=
  getBits cursor 25 7 = 0 ∧ s.ep (getBits cursor 0 17) EP.GEN = getBits cursor 17 8 ∧ s.epValid (getBits cursor 0 17) = true

section
variable {s : State} {cursor : Word} {d : Desc} {data : List Byte}

theorem State.fieldTest_address (h : ¬ s.fieldHere cursor) : s.fieldTest cursor d data = some fsBadAddress := by
  refine if_pos ?_
  by_contra hn
  simp only [not_or, not_not, Bool.not_eq_false] at hn
  exact h hn

variable (h : s.fieldHere cursor)
include h

theorem State.fieldTest_here : s.fieldTest cursor d data =
    if !fieldCode d.code || d.hold then some fsNotPermitted
    else if d.reserved || data.length != d.plen || decide (payloadLimit (s.ep (getBits cursor 0 17) EP.PATH) < d.plen) then
      some fsBadRequest
    else if !codePermitted d.code (s.ep (getBits cursor 0 17) EP.PATH) (s.ep (getBits cursor 0 17) EP.TYPE) then
      some fsNotPermitted
    else none := by
  obtain ⟨hbits, hgen, hvalid⟩ := h
  refine if_neg ?_
  simp [hbits, hgen, hvalid]

theorem State.fieldTest_code (hc : fieldCode d.code = false ∨ d.hold = true) :
    s.fieldTest cursor d data = some fsNotPermitted := by
  rw [State.fieldTest_here h]
  exact if_pos (by rcases hc with hc | hc <;> simp [hc])

theorem State.fieldTest_body (hc : fieldCode d.code = true) (hh : d.hold = false) (hb : d.reserved = true ∨
    data.length ≠ d.plen ∨ payloadLimit (s.ep (getBits cursor 0 17) EP.PATH) < d.plen) :
    s.fieldTest cursor d data = some fsBadRequest := by
  rw [State.fieldTest_here h, if_neg (by simp [hc, hh])]
  exact if_pos (by rcases hb with hb | hb | hb <;> simp [hb])

theorem State.fieldTest_none (hc : fieldCode d.code = true) (hh : d.hold = false) (hr : d.reserved = false)
    (hl : data.length = d.plen) (hp : d.plen ≤ payloadLimit (s.ep (getBits cursor 0 17) EP.PATH))
    (hk : codePermitted d.code (s.ep (getBits cursor 0 17) EP.PATH) (s.ep (getBits cursor 0 17) EP.TYPE) = true) :
    s.fieldTest cursor d data = none := by
  rw [State.fieldTest_here h, if_neg (by simp [hc, hh]), if_neg (by simp [hr, hl, hp])]
  exact if_neg (by simp [hk])

end

/-! ## The way of the command -/

section
variable {s : State} {n : Nat} {tag cursor : Word} {d : Desc} {t : Stamp} {data : List Byte}

/-- The tests look at field memory. -/
theorem State.fieldTest_heard : (s.heard n).fieldTest cursor d data = s.fieldTest cursor d data :=
  State.heard_keeps (·.fieldTest cursor d data) (fun _ _ => rfl) s n

variable (h : mayAsk s n true true)
include h

theorem State.fieldCmd_refused {e : Nat} (he : s.fieldTest cursor d data = some e) :
    s.fieldCmd n tag false cursor d t data = (s.heard n).refuse n tag e := by
  rw [State.fieldCmd, State.onSession_open h]
  simp only [State.reqTest_none h, State.fieldTest_heard, he]

theorem State.fieldCmd_taken (he : s.fieldTest cursor d data = none) :
    s.fieldCmd n tag false cursor d t data = (s.heard n).fieldPlace n tag (getBits cursor 0 17) d data t := by
  rw [State.fieldCmd, State.onSession_open h]
  simp only [State.reqTest_none h, State.fieldTest_heard, he]

end

section
variable {s : State} {n i h : Nat} {tag : Word} {d : Desc} {t : Stamp} {data : List Byte}

/-- On an RS2560-MX a command for a radio endpoint only takes a handle. -/
theorem State.fieldPlace_noRadio (hm : s.ident.code = .mx) (hp : s.ep i EP.PATH = 1) (ha : s.allocTest (.session n) = .slot h) :
    s.fieldPlace n tag i d data t = (s.acceptIn n tag h).finish h fsNoRadio 0 [] := by
  rw [State.fieldPlace, if_pos ⟨hm, hp⟩, ha]

variable (hp : ¬ (s.ident.code = .mx ∧ s.ep i EP.PATH = 1))
include hp

theorem State.fieldPlace_placed {u : State} (hu : s.place (.session n) i d.level d data t = .inr (h, u)) :
    s.fieldPlace n tag i d data t = u.send (.fcp2 n 0x04 fsOk tag.toNat (u.handleAt h) []) := by
  rw [State.fieldPlace, if_neg hp, hu]

theorem State.fieldPlace_refused {r : Refused} (hr : s.place (.session n) i d.level d data t = .inl r) :
    s.fieldPlace n tag i d data t = (s.placeFlags r).refuse n tag r.status := by
  rw [State.fieldPlace, if_neg hp, hr]

end

@[simp] theorem State.handleAt_heard (s : State) (n i : Nat) : (s.heard n).handleAt i = s.handleAt i := by
  rw [State.handleAt, State.hslot_congr (s.heard_hnd n)]
  rfl

theorem State.out_send (s : State) (o : Out) : (s.send o).out = s.out ++ [o] := rfl

@[simp] theorem State.placeCmd_out (s : State) (o : Owner) (n i level : Nat) (d : Desc) (data : List Byte) (t : Stamp) :
    (s.placeCmd o n i level d data t).out = s.out :=
  State.placeCmd_keeps (·.out) (fun _ _ => rfl) (fun _ _ _ => State.setF_out ..) (fun _ _ _ _ => State.setEp_out ..) s o n i level d
    data t

/-- Whether a placement is refused does not go by the session. -/
theorem State.place_heard {s : State} {n i level : Nat} {o : Owner} {d : Desc} {data : List Byte} {t : Stamp} {r : Refused}
    (h : s.place o i level d data t = .inl r) : (s.heard n).place o i level d data t = .inl r := by
  have alloc : (s.heard n).allocTest o = s.allocTest o := State.allocTest_congr (s.heard_hnd n) (s.heard_regs n) o
  rw [State.place, State.placeTest_heard, alloc]
  rw [State.place] at h
  cases hp : s.placeTest d.immediate t with
  | some r' =>
    rw [hp] at h
    simpa using h
  | none =>
    cases ha : s.allocTest o with
    | slot k => simp [hp, ha] at h
    | quota => simpa [hp, ha] using h
    | noHandle => simpa [hp, ha] using h

end Sys2Proof.Machine
end

section
open Sys2Proof Sys2Proof.Machine Sys2Proof.Safety

/-- Settles O34: the way of each request through its tests, and its effect on its context or its placement. -/
theorem sheafAndFieldRequests : Obligations.SheafAndFieldRequests := by
  unfold Obligations.SheafAndFieldRequests
  refine ⟨fun s n tag i ha hask => ?_, fun s n tag cursor d0 d1 d2 d3 t data hask => ?_, fun s n t form ho hv => ?_⟩
  · intro u
    have go {k : Nat → State → State} : s.request n tag true false false (fun _ => none) k = k i u :=
      State.request_accepted hask rfl ha
    have own : u.ctxOfSession n = s.ctxOfSession n := ctxOfSession_accepted s n i tag
    have ctx (c : Nat) : u.ctx c = s.ctx c := ctx_accepted s n i tag c
    refine ⟨fun hn c hc => ?_, fun hn hc => ?_, fun hn => ⟨fun es h0 h1 => ?_, ?_, fun b t => ?_, ?_⟩, fun c hc ho => ?_⟩
    · exact congrArg Host.Outcome.next (go.trans (State.sheafOpen_free (own.trans hn) ((freeCtx_accepted s n i tag).trans hc)))
    · exact congrArg Host.Outcome.next (go.trans (State.sheafOpen_none (own.trans hn) ((freeCtx_accepted s n i tag).trans hc)))
    · have bad : (false || es.isEmpty || decide (4096 < es.length)) = false := by
        cases es with
        | nil => exact absurd h0 (lt_irrefl 0)
        | cons e es => simpa using h1
      refine congrArg Host.Outcome.next ?_
      rw [bad]
      exact go.trans (State.sheafStage_none (own.trans hn) es)
    · exact congrArg Host.Outcome.next (go.trans (State.sheafCheck_none (own.trans hn)))
    · exact congrArg Host.Outcome.next (go.trans (State.sheafApply_none (own.trans hn) b t))
    · exact congrArg Host.Outcome.next (go.trans (State.sheafDiscard_none (own.trans hn)))
    · have hc : u.ctxOfSession n = some c := own.trans hc
      have hm : (u.ctx c).mine .firmware = true := by rw [ctx]; exact Ctx.mine_of_owner ho
      refine ⟨fun hs => ?_, fun e hs hp => ?_, fun hs => ?_, fun hs hact hk hq w => ?_, fun hs => ?_⟩
      · rw [← ctx] at hs
        exact congrArg Host.Outcome.next (go.trans (State.sheafOpen_failed hc hs))
      · rw [← ctx] at hs ⊢
        have stage := State.shfStage_staged (e := e) hm hs ((shfUsed_accepted s n i tag).trans_lt hp)
        have entries := congrArg (·.entries) (u.ctx_setCtx_same c
          { u.ctx c with st := .opened, entries := (u.ctx c).entries ++ [e], images := [], result := resOk })
        exact ⟨_, congrArg Host.Outcome.next (go.trans (State.sheafStage_one hc stage entries)), entries, State.hslot_finish ..⟩
      · rw [← ctx] at hs
        refine ⟨_, congrArg Host.Outcome.next (go.trans (State.sheafCheck_opened hc hs)), ?_⟩
        rw [State.shfCheck_opened hm hs, State.ctx_modCtx_same, State.ctx_setCtx_same]
        exact ⟨rfl, rfl, hslot_accepted s n i tag⟩
      · rw [← ctx] at hs hk
        have apply := State.shfApply_commits (t := w) hm hs (.inl rfl)
          ((congrArg (·.commits) (accepted_shf s n i tag)).trans hk.symm) ((committing_accepted s n i tag).trans hq)
        have act : u.svc.act ≠ 3 := by rw [show u.svc = s.svc from accepted_svc s n i tag]; exact hact
        have st := State.st_shfCommitStart (u.setCtx c { u.ctx c with timed := false, when_ := w }) c
        refine ⟨_, congrArg Host.Outcome.next (go.trans (State.sheafApply_taken hc act hs apply (by rw [st]; simp))), ?_⟩
        rw [State.ctx_modCtx_same]
        exact ⟨st, rfl⟩
      · rw [← ctx] at hs
        have free := congrArg (·.st) (u.ctx_setCtx_same c { (u.ctx c).release with result := resOk })
        have done := u.setCtx c { (u.ctx c).release with result := resOk } |>.hslot_finish i fsOk 0 []
        exact ⟨_, congrArg Host.Outcome.next (go.trans (State.sheafDiscard_freed hc (State.shfDiscard_freed hm hs) free)), free,
          done.2.1, done.1⟩
  · intro d i path run here ok
    have refuse {e : Nat} (he : s.fieldTest cursor d data = some e) : run = .next (refused s n tag e) :=
      congrArg Host.Outcome.next (State.fieldCmd_refused hask he)
    have taken (h : ok) : run = .next ((s.heard n).fieldPlace n tag i d data t) := by
      obtain ⟨hhere, hc, hh, hr, hl, hp, hk⟩ := h
      exact congrArg Host.Outcome.next (State.fieldCmd_taken hask (State.fieldTest_none hhere hc hh hr hl hp hk))
    have hpath : (s.heard n).ep i EP.PATH = path := State.ep_congr (s.heard_fmem n) i EP.PATH
    refine ⟨fun hn => refuse (State.fieldTest_address hn), fun hh hc => refuse (State.fieldTest_code hh hc),
      fun hh hc hhold hb => refuse (State.fieldTest_body hh hc hhold hb), fun hok hm hp h ha => ?_, fun hok hr => ?_⟩
    · have alloc : (s.heard n).allocTest (.session n) = .slot h :=
        (State.allocTest_congr (s.heard_hnd n) (s.heard_regs n) _).trans ha
      rw [taken hok]
      exact congrArg Host.Outcome.next (State.fieldPlace_noRadio (by rw [State.heard_ident, hm]) (hpath.trans hp) alloc)
    · have radio : ¬ ((s.heard n).ident.code = .mx ∧ (s.heard n).ep i EP.PATH = 1) := by
        rw [State.heard_ident, hpath]
        exact fun h => hr.elim (fun h' => h' h.1) fun h' => h' h.2
      refine ⟨fun h ht hcal ha => ?_, fun r hp => ?_⟩
      · obtain ⟨-, -, -, hlight⟩ := hask
        have near : (!d.immediate && s.tooFar t) = false := by rcases ht with ht | ht <;> simp [ht]
        have test := (s.placeTest_heard n d.immediate t).trans (State.placeTest_none (hlight rfl) near hcal)
        have place := State.place_slot (i := i) (level := d.level) (payload := data) test
          ((State.allocTest_congr (s.heard_hnd n) (s.heard_regs n) _).trans ha)
        refine ⟨_, (taken hok).trans (congrArg Host.Outcome.next (State.fieldPlace_placed radio place)), ?_⟩
        have slot := ((s.heard n).hslot_placeCmd (.session n) h i d.level d data t h).trans (if_pos rfl)
        refine ⟨congrArg (·.st) slot, congrArg (·.owner) slot, congrArg (·.ep) slot, ?_⟩
        rw [State.handleAt_placeCmd, State.handleAt_heard, State.out_send, State.placeCmd_out, State.heard_out]
        rfl
      · rw [taken hok]
        exact congrArg Host.Outcome.next (State.fieldPlace_refused radio (State.place_heard hp))
  · have v1 {k : State → State} : s.onSession n k = (s.heard n).send (.v1 n fsReadOnly []) := State.onSession_v1 ho hv
    have out : ((s.heard n).send (.v1 n fsReadOnly [])).out = s.out ++ [.v1 n fsReadOnly []] := by
      rw [State.out_send, State.heard_out]
    refine ⟨_, congrArg Host.Outcome.next ?_, out, s.heard_hnd n⟩
    split
    · exact v1
    · exact v1

end

section
/-! SUPPORT. Fetch, arrival and departure of calendar copies (R305, R306, R569, R570), one equation per kind of egress. -/
namespace Sys2Proof.Machine
open Sys2Proof

/-! ## The calendar's entries -/

theorem State.calE_setCal (s : State) (n m : Nat) (e : Option CalEntry) : (s.setCal n e).calE m = if m = n then e else s.calE m :=
  sget_sset ..

@[simp] theorem State.calE_setCal_same (s : State) (n : Nat) (e : Option CalEntry) : (s.setCal n e).calE n = e :=
  sget_sset_same ..

/-- What the calendar shows goes by its part of the state alone. -/
theorem State.calE_congr {s t : State} (h : t.cal = s.cal) (n : Nat) : t.calE n = s.calE n := by rw [State.calE, h]; rfl

/-- The copies of an entry with those that wait released to their egresses. -/
def CalEntry.fetched (e : CalEntry) : CalEntry :=
  { e with copies := e.copies.map (fun c => if c.st = .waiting then { c with st := .fetched } else c) }

/-- An entry's waiting copies go to their egresses now: it is due and each has a place (R305). -/
def State.fetchable (s : State) (e : CalEntry) : Bool :=
  s.fetchDue e && e.copies.all (fun c => c.st ≠ .waiting || s.storeRoom c.egress)

section
variable {s : State} {n k : Nat} {e : CalEntry} {c : Copy}

theorem State.copyOf_eq (h : s.calE n = some e) : s.copyOf n k = e.copies[k]? := by rw [State.copyOf, h]

theorem CalEntry.mem_fetched_egress (hc : c ∈ e.fetched.copies) : ∃ d ∈ e.copies, c.egress = d.egress := by
  obtain ⟨d, hd, rfl⟩ := List.mem_map.1 hc
  refine ⟨d, hd, ?_⟩
  split <;> rfl

/-! ## The fetch -/

/-- Every copy has an egress: the fetch releases all that wait. -/
theorem State.calFetch_due (h : s.calE n = some e) (hd : s.fetchable e = true) (hg : ∀ c ∈ e.copies, c.egress ≠ .noEgress) :
    s.calFetch n = s.setCal n (some e.fetched) := by
  have same : e.copies.map (fun c => if c.st = .waiting ∧ c.egress ≠ .noEgress then { c with st := .fetched } else c) =
      e.fetched.copies :=
    List.map_congr_left fun c hc => by simp only [hg c hc, ne_eq, not_false_eq_true, and_true]
  rw [State.calFetch, h]
  dsimp only
  rw [same]
  exact if_pos hd

theorem State.calFetch_undue (h : s.calE n = some e) (hd : s.fetchable e = false) : s.calFetch n = s := by
  rw [State.calFetch, h]
  dsimp only
  exact if_neg (by rw [show (s.fetchDue e && _) = false from hd]; decide)

theorem State.calFetch_none (h : s.calE n = none) : s.calFetch n = s := by rw [State.calFetch, h]

/-- Only the frame of a ring entry that holds places takes a number, and only once. -/
theorem State.numberEntry_skip (h : ∀ e, s.calE n = some e → e.path ≠ 0 ∨ e.copies.any Copy.stored = false) : s.numberEntry n = s := by
  unfold State.numberEntry
  split
  next e he =>
    refine if_neg ?_
    rintro ⟨hp, -, ha⟩
    rcases h e he with h | h
    · exact h hp
    · rw [h] at ha
      cases ha
  next => rfl

/-- Without a fetched copy for a chain nothing goes to a feeder. -/
theorem State.chainFetched_skip (h : ∀ e, s.calE n = some e → ∀ c ∈ e.copies, ∀ j, c.egress = .chain j → c.st ≠ .fetched) :
    s.chainFetched n = s := by
  unfold State.chainFetched
  split
  next => rfl
  next e he =>
    refine foldS_fixed fun k _ => ?_
    split
    next c hc =>
      split
      next j hj => exact if_neg (by simp [h e he c (List.mem_of_getElem? hc) j hj])
      next => rfl
    next => rfl

/-- The one copy of an entry, just fetched for a chain that has not taken it, passes through the feeder (R469). -/
theorem State.chainFetched_one {j : Nat} (h : s.calE n = some e) (hc : e.copies = [c]) (hg : c.egress = .chain j)
    (hs : c.st = .fetched) (hf : (n, 0) ∉ (s.chainAt j).fetched) :
    let u := s.quOffer (.feed j) e.feedItem
    s.chainFetched n = (u.setChain j { u.chainAt j with fetched := (u.chainAt j).fetched ++ [(n, 0)] }).launchFrame j := by
  have fresh : (decide (c.st = .fetched) && !(s.chainAt j).fetched.contains (n, 0)) = true := by simp [hs, hf]
  rw [State.chainFetched, h]
  dsimp only
  rw [hc]
  simp only [List.length_singleton, List.range_one, foldS, List.foldl_cons, List.foldl_nil, List.getElem?_cons_zero, hg]
  exact if_pos fresh

end

/-! ## What a frame's admission leaves alone -/

theorem State.freshTake_cal (p n : Nat) (s : State) : (State.freshTake p n s).2.cal = s.cal := by
  induction n generalizing s with
  | zero => rfl
  | succ n ih =>
    unfold State.freshTake
    dsimp only
    split
    · rfl
    · split
      · exact ih _
      · split
        · exact ih _
        · rfl

theorem State.cellTake_cal (s : State) (p : Nat) (o : CellOwner) : (s.cellTake p o).2.cal = s.cal := by
  have take := State.freshTake_cal p plotCells s
  unfold State.cellTake
  dsimp only
  split
  · exact take
  · split
    · exact take
    · exact take

theorem State.cellsTake_cal (p : Nat) (o : CellOwner) (n : Nat) (s : State) : (State.cellsTake p o n s).2.cal = s.cal := by
  induction n generalizing s with
  | zero => rfl
  | succ n ih => exact (ih _).trans (s.cellTake_cal p o)

theorem State.storeFrame_cal (s : State) (x : FabFrame) (parts : List VoqPart) : (s.storeFrame x parts).cal = s.cal :=
  (State.cellsTake_cal _ _ _ _).trans (s.setF_cal ..)

theorem State.badFrame_cal (s : State) (p : Nat) (f : Frame) : (s.badFrame p f).cal = s.cal :=
  keeps_ite (s.count_cal _) (keeps_ite (s.count_cal _) rfl)

@[simp] theorem State.enqueue_cal (s : State) (node : Nat) (f : Frame) (r : Route) (m : Mark) : (s.enqueue node f r m).cal = s.cal := by
  unfold State.enqueue
  extract_lets _ _ _ _ _ _ _ s₁ s₂ _ s₃
  have h₁ : s₁.cal = s.cal := keeps_ite (s.count_cal _) rfl
  have h₂ : s₂.cal = s.cal := keeps_ite ((s₁.count_cal _).trans h₁) h₁
  have h₃ : s₃.cal = s.cal := keeps_ite ((s₂.count_cal _).trans h₂) h₂
  refine keeps_ite (s.badFrame_cal ..) ?_
  split
  · rw [State.count_cal, State.count_cal]
  · exact keeps_ite ((State.badFrame_cal ..).trans h₂) ((State.storeFrame_cal ..).trans h₃)

/-! ## The number of a ring entry's frame -/

section
variable (s : State) (k v : Nat)

/-- The ring's number stands at 0x40 of its registers; those that the frame goes by stand elsewhere. -/
theorem State.f_setSeq_ne {x : Fld} (h : x.blk = .ring → x.off % 0x1000 ≠ 0x40) : (s.setF (R.RING_SEQ.SEQ k) v).f x = s.f x := by
  refine s.f_setF_ne _ _ v (show 0 + 16 ≤ 32 by decide) ?_
  by_cases hb : x.blk = .ring
  · have := h hb
    exact .inr (.inl (by simp only [R.RING_SEQ.SEQ]; omega))
  · exact .inl (Ne.symm hb)

theorem State.on_setSeq_ne {x : Fld} (h : x.blk = .ring → x.off % 0x1000 ≠ 0x40) : (s.setF (R.RING_SEQ.SEQ k) v).on x = s.on x := by
  rw [State.on, State.f_setSeq_ne s k v h]
  rfl

theorem State.ringA_setSeq (j : Nat) : (s.setF (R.RING_SEQ.SEQ k) v).ringA j = s.ringA j :=
  s.f_setSeq_ne k v fun _ => by simp only [R.RING_CFG.PORT_A]; omega

theorem State.ringB_setSeq (j : Nat) : (s.setF (R.RING_SEQ.SEQ k) v).ringB j = s.ringB j :=
  s.f_setSeq_ne k v fun _ => by simp only [R.RING_CFG.PORT_B]; omega

theorem State.nodeValid_setSeq (i j : Nat) : (s.setF (R.RING_SEQ.SEQ k) v).nodeValid i j = s.nodeValid i j :=
  s.on_setSeq_ne k v fun _ => by simp only [R.RING_NODE_MAC_HI.VALID]; omega

theorem State.nodeMac_setSeq (i : Nat) {j : Nat} (hj : j < 17) : (s.setF (R.RING_SEQ.SEQ k) v).nodeMac i j = s.nodeMac i j := by
  rw [State.nodeMac, s.f_setSeq_ne k v (x := R.RING_NODE_MAC_LO.MAC_LO i j) fun _ => by simp only [R.RING_NODE_MAC_LO.MAC_LO]; omega,
    s.f_setSeq_ne k v (x := R.RING_NODE_MAC_HI.MAC_HI i j) fun _ => by simp only [R.RING_NODE_MAC_HI.MAC_HI]; omega]
  rfl

theorem State.poleMac_setSeq (i : Nat) {j : Nat} (hj : j < 17) : (s.setF (R.RING_SEQ.SEQ k) v).poleMac i j = s.poleMac i j := by
  rw [State.poleMac, s.nodeValid_setSeq k v i j, s.nodeMac_setSeq k v i hj]
  rfl

theorem State.fieldFrameOf_setSeq (dst : Mac) (b : CmdBody) : (s.setF (R.RING_SEQ.SEQ k) v).fieldFrameOf dst b = s.fieldFrameOf dst b := by
  rw [State.fieldFrameOf, s.f_setSeq_ne k v (x := R.FAB_FIELD_VLAN.VID) fun h => by cases h]
  rfl

theorem State.ownSown_setSeq : (s.setF (R.RING_SEQ.SEQ k) v).ownSown = s.ownSown := by
  have plots : (s.setF (R.RING_SEQ.SEQ k) v).r R.SYS_PLOT_STATE.reg = s.r R.SYS_PLOT_STATE.reg := s.rd_setF_ne _ v (.inl fun h => by cases h)
  have opens (j : Nat) : (s.setF (R.RING_SEQ.SEQ k) v).on (R.RING_STATUS.OPEN j) = s.on (R.RING_STATUS.OPEN j) :=
    s.on_setSeq_ne k v fun _ => by simp only [R.RING_STATUS.OPEN]; omega
  rw [State.ownSown, plots, s.f_setSeq_ne k v (x := R.SVC_EFW_STATUS.STATE) fun h => by cases h]
  simp only [opens]
  rfl

end

/-- A ring entry whose frame has no number yet takes the ring's and its frame enters the fabric for both ports. -/
theorem State.numberEntry_ring {s : State} {n : Nat} {e : CalEntry} (h : s.calE n = some e) (hp : e.path = 0) (hh : e.hsr = none)
    (ha : e.copies.any Copy.stored = true) :
    let k := getBits e.addr 16 7
    let q := s.f (R.RING_SEQ.SEQ k)
    let mac := s.entryMac e
    let both := [s.ringA k, s.ringB k]
    s.numberEntry n = ((s.setF (R.RING_SEQ.SEQ k) (q + 1)).setCal n (some { e with hsr := some q })).enqueue
      (256 + plotOf (s.ringA k)) (s.fieldFrameOf mac e.body)
      ⟨6, none, if macMulticast mac = true then [] else both, if macMulticast mac = true then both else [],
        s.ownSown && macMulticast mac, [(k, q)], false⟩ ⟨none, false, some n⟩ := by
  intro k q mac both
  let u := (s.setF (R.RING_SEQ.SEQ k) (q + 1)).setCal n (some { e with hsr := some q })
  have hA : u.ringA k = s.ringA k := s.ringA_setSeq k (q + 1) k
  have hB : u.ringB k = s.ringB k := s.ringB_setSeq k (q + 1) k
  have hmac : u.entryMac e = mac := by
    refine ite_congr rfl (fun _ => rfl) fun _ => ?_
    exact s.poleMac_setSeq k (q + 1) _ (Nat.lt_trans (getBits_lt e.addr 8 4) (by decide))
  have hframe : u.fieldFrameOf mac e.body = s.fieldFrameOf mac e.body := s.fieldFrameOf_setSeq k (q + 1) mac e.body
  have hsown : u.ownSown = s.ownSown := s.ownSown_setSeq k (q + 1)
  have number : s.numberEntry n = u.ringFrame k (u.entryMac e) e.body q u.ownSown (some n) := by
    rw [State.numberEntry, h]
    exact if_pos ⟨hp, hh, ha⟩
  rw [number, State.ringFrame, hmac, hframe, hsown, hA, hB]
  rfl

/-! ## Arrival and departure of a copy -/

section
variable {s : State} {n k p j : Nat} {e : CalEntry} {c : Copy}

theorem State.arrive_copy (hc : s.copyOf n k = some c) (hch : ∀ j, c.egress ≠ .chain j)
    (hp : ∀ p, c.egress = .port p → (s.portCopy n p).isSome = true) : s.arrive n k = s.copyArrive n k := by
  rw [State.arrive, hc]
  dsimp only
  split
  next j hj => exact absurd hj (hch j)
  next p hg => exact if_pos (hp p hg)
  next => rfl

theorem State.copyArrive_fetched (h : s.calE n = some e) (hc : s.copyOf n k = some c) (hs : c.st = .fetched) :
    s.copyArrive n k = s.setCal n (some (e.setCopy k
      { c with st := if !e.immediate && beforeHeadland s.now c then .armed else .unarmed })) := by
  rw [State.copyArrive, h, hc]
  exact if_pos hs

theorem State.copyLaunch_chain (h : s.calE n = some e) (hc : s.copyOf n k = some c) (hg : c.egress = .chain j) :
    s.copyLaunch n k = s.chainLatch j := by
  rw [State.copyLaunch, h, hc]
  simp only [hg]

theorem State.copyLaunch_due_radio (h : s.calE n = some e) (hc : s.copyOf n k = some c) (hg : c.egress = .radio j)
    (hd : s.copyDue e c = true) : s.copyLaunch n k = s.radRelease j n e := by
  rw [State.copyLaunch, h, hc]
  simp only [hg]
  exact if_pos hd

theorem State.copyLaunch_due_can (h : s.calE n = some e) (hc : s.copyOf n k = some c) (hg : c.egress = .can j)
    (hd : s.copyDue e c = true) : s.copyLaunch n k = s.canLaunch j n k e c := by
  rw [State.copyLaunch, h, hc]
  simp only [hg]
  exact if_pos hd

theorem State.copyLaunch_due_stage (h : s.calE n = some e) (hc : s.copyOf n k = some c) (hg : c.egress = .stage j)
    (hd : s.copyDue e c = true) :
    s.copyLaunch n k = ((s.stageLaunch j e).launchFirst e c).copyLeft n k e c false := by
  rw [State.copyLaunch, h, hc]
  simp only [hg]
  exact if_pos hd

theorem State.copyLaunch_due_port (h : s.calE n = some e) (hc : s.copyOf n k = some c) (hg : c.egress = .port p)
    (hd : s.copyDue e c = true) : s.copyLaunch n k = s.launchPort n k p e c := by
  rw [State.copyLaunch, h, hc]
  simp only [hg]
  exact if_pos hd

/-- A copy that may not leave now stays, unless the fabric lost its frame. -/
theorem State.copyLaunch_undue (h : s.calE n = some e) (hc : s.copyOf n k = some c) (hch : ∀ j, c.egress ≠ .chain j)
    (hd : s.copyDue e c = false) : s.copyLaunch n k = if s.copyLost n e c then s.copyLeft n k e c true else s := by
  rw [State.copyLaunch, h, hc]
  dsimp only
  split
  next j hj => exact absurd hj (hch j)
  next => rw [if_neg (by rw [hd]; decide)]

theorem State.copyLost_noPort (hp : ∀ p, c.egress ≠ .port p) : s.copyLost n e c = false := by
  unfold State.copyLost
  split
  next p hg => exact absurd hg (hp p)
  next => rfl

/-- An UNARMED copy waits while its frame would reach into an ARMED copy's instant (R306). -/
theorem State.copyDue_unfit (hs : c.st = .unarmed) (hf : s.copyFits e c = false) : s.copyDue e c = false := by
  rw [State.copyDue, hs]
  simp only [hf, Bool.and_false, Bool.false_and]

/-! ## A ring copy at its port -/

theorem State.launchPort_disabled (hr : s.ringOn (getBits e.addr 16 7) = false) :
    s.launchPort n k p e c = (match s.portCopy n p with
      | some x => (s.modFab (fun b => { b with tx := b.tx.erase x })).regionsFit
      | none => s).copyLeft n k e c true :=
  if_pos (by rw [hr]; rfl)

theorem State.launchPort_up (hr : s.ringOn (getBits e.addr 16 7) = true) (hu : s.portUp p = true) :
    s.launchPort n k p e c = (if e.launched then s.portCopySent n p else (s.portCopySent n p).launchFirst e c).copyLeft n k e c false := by
  rw [State.launchPort, hr, hu]
  rfl

theorem State.launchPort_down (hr : s.ringOn (getBits e.addr 16 7) = true) (hu : s.portUp p = false) :
    s.launchPort n k p e c = (s.portCopySent n p).copyLeft n k e c true := by
  rw [State.launchPort, hr, hu]
  rfl

theorem State.portCopySent_some {x : TxEntry} (hx : s.portCopy n p = some x) :
    s.portCopySent n p = ((s.modFab (fun b => { b with tx := b.tx.erase x })).transmit x false).regionsFit := by
  rw [State.portCopySent, hx]

theorem State.portCopySent_up (hx : s.portCopy n p = none) (hu : s.portUp p = true) : s.portCopySent n p = s := by
  rw [State.portCopySent, hx]
  exact if_pos hu

theorem State.portCopySent_down (hx : s.portCopy n p = none) (hu : s.portUp p = false) :
    s.portCopySent n p = s.count (R.PORT_CNT_DOWN_DROP.COUNT p) := by
  rw [State.portCopySent, hx]
  exact if_neg (by rw [hu]; decide)

end
end Sys2Proof.Machine
end

section
/-! SUPPORT. What the first copy that leaves does to the record, the LATE event and the handle (R162, R309, R569), and the end
of an entry of which no copy left (R570). -/
namespace Sys2Proof.Machine
open Sys2Proof

/-! ## Time values of a record -/

/-- A time value from its own three words (R46). -/
theorem wordsStamp_stampWord (t : Stamp) : wordsStamp (stampWord t 0) (stampWord t 1) (stampWord t 2) = t := by
  refine BitVec.eq_of_toNat_eq ?_
  have ht := t.isLt
  simp only [wordsStamp, stampWord, BitVec.toNat_ofNat, Nat.shiftRight_eq_div_pow]
  omega

theorem w32_toNat_word (w : Word) : w32 w.toNat = w := BitVec.eq_of_toNat_eq (Nat.mod_eq_of_lt w.isLt)

section
variable (s : State) (i : Nat) {x y : RF} (v : Nat)

theorem State.ep_setEp_same (h : x.lsb + x.width ≤ 32) (hv : v < 2 ^ x.width) : (s.setEp i x v).ep i x = v :=
  (State.m_setM_same _ _ _ _ h).trans (Nat.mod_eq_of_lt hv)

/-- A field of another word of the record keeps its value. -/
theorem State.ep_setEp_ne (h : x.lsb + x.width ≤ 32) (ho : x.off + 4 ≤ y.off ∨ y.off + 4 ≤ x.off) :
    (s.setEp i x v).ep i y = s.ep i y :=
  State.m_setM_ne _ _ _ _ _ _ h (by omega)

theorem State.epStamp_congr {s t : State} (h : t.fmem = s.fmem) (i : Nat) (x : Nat → RF) : t.epStamp i x = s.epStamp i x := by
  simp only [State.epStamp, State.ep_congr h]

/-- The time of the last command reads as it was put in. -/
theorem State.epStamp_setEpStamp (t : Stamp) : (s.setEpStamp i EP.LAST_CMD t).epStamp i EP.LAST_CMD = t := by
  have fits (k : Nat) : (stampWord t k).toNat < 2 ^ 32 := (stampWord t k).isLt
  have w2 : (s.setEpStamp i EP.LAST_CMD t).ep i (EP.LAST_CMD 2) = (stampWord t 2).toNat := State.ep_setEp_same _ i _ (by decide) (fits 2)
  have w1 : (s.setEpStamp i EP.LAST_CMD t).ep i (EP.LAST_CMD 1) = (stampWord t 1).toNat :=
    (State.ep_setEp_ne _ i _ (by decide) (by decide)).trans (State.ep_setEp_same _ i _ (by decide) (fits 1))
  have w0 : (s.setEpStamp i EP.LAST_CMD t).ep i (EP.LAST_CMD 0) = (stampWord t 0).toNat :=
    (State.ep_setEp_ne _ i _ (by decide) (by decide)).trans
      ((State.ep_setEp_ne _ i _ (by decide) (by decide)).trans (State.ep_setEp_same _ i _ (by decide) (fits 0)))
  rw [State.epStamp, w0, w1, w2]
  simp only [w32_toNat_word, wordsStamp_stampWord]

end

/-! ## The first copy leaves (R569) -/

/-- The record shows the command. -/
def State.launchRecord (s : State) (e : CalEntry) : State :=
  if s.sameTarget e then
    let s := (s.setEpStamp e.ep EP.LAST_CMD s.now).setEp e.ep EP.CMD_STEP s.stepEpoch
    if e.body.code = ccSetLevel then (s.dimChange e.ep e.body.level e.body.ramp).setEp e.ep EP.CUR e.body.level else s
  else s

/-- The copy leaves later than the precision of its egress allows (R307, R309). -/
def State.lateLaunch (s : State) (e : CalEntry) (c : Copy) : Bool :=
  !e.immediate && decide (stampUnits c.launch + s.precision c.egress * 65536 < stampUnits s.now)

/-- A late launch is flagged and counted (R309). -/
def State.noteLate (s : State) (late : Bool) : State :=
  if late then (s.raise E.TIME_EVT.LATE).count R.TIME_CAL_LATE.LATE else s

/-- The handle waits for its reply, or completes (R162). -/
def State.launchHandle (s : State) (e : CalEntry) (late : Bool) : State :=
  let i := Machine.slotOf e.body.handle
  let h := s.hslot i
  if s.handleOpen e.body.handle && h.st = .placed then
    let s := s.setHslot i { h with late := late }
    if e.path = 3 ∨ e.body.noReply = true then s.complete i fsOk 0 else s.setHslot i { h with late := late, st := .awaiting }
  else s

theorem State.launchFirst_eq (s : State) (e : CalEntry) (c : Copy) : s.launchFirst e c =
    ((s.launchRecord e).noteLate (s.lateLaunch e c)).launchHandle e (s.lateLaunch e c) := rfl

section
variable (s : State) (e : CalEntry) (late : Bool)

@[simp] theorem State.dimChange_fmem (i level ms : Nat) : (s.dimChange i level ms).fmem = s.fmem := rfl
@[simp] theorem State.dimChange_hnd (i level ms : Nat) : (s.dimChange i level ms).hnd = s.hnd := rfl

@[simp] theorem State.launchRecord_hnd : (s.launchRecord e).hnd = s.hnd :=
  keeps_ite (keeps_ite (by rw [State.setEp_hnd, State.dimChange_hnd, State.setEp_hnd, State.setEpStamp_hnd])
    (by rw [State.setEp_hnd, State.setEpStamp_hnd])) rfl

@[simp] theorem State.noteLate_hnd : (s.noteLate late).hnd = s.hnd :=
  keeps_ite (by rw [State.count_hnd, State.raise_hnd]) rfl

@[simp] theorem State.noteLate_fmem : (s.noteLate late).fmem = s.fmem :=
  keeps_ite (by rw [State.count_fmem, State.raise_fmem]) rfl

theorem State.flag_noteLate : (s.noteLate true).flag E.TIME_EVT.LATE = true :=
  (congrArg (· != 0) ((s.raise E.TIME_EVT.LATE).f_setF_ne R.TIME_CAL_LATE.LATE ⟨.time, 0x60, 3, 1⟩ _ (by decide) (by decide)) :).trans
    (s.flag_raise E.TIME_EVT.LATE (by decide) (by decide) (by decide))

theorem State.launchHandle_fmem : (s.launchHandle e late).fmem = s.fmem :=
  keeps_ite (keeps_ite (State.complete_fmem ..) rfl) rfl

theorem State.launchHandle_regs : (s.launchHandle e late).regs = s.regs :=
  keeps_ite (keeps_ite (State.complete_regs ..) rfl) rfl

theorem State.launchFirst_fmem (c : Copy) : (s.launchFirst e c).fmem = (s.launchRecord e).fmem := by
  rw [State.launchFirst_eq, State.launchHandle_fmem, State.noteLate_fmem]

end

section
variable {s : State} {e : CalEntry}

/-- The record shows the level, the epoch and the instant of a SET_LEVEL that launches. -/
theorem State.launchRecord_level (ht : s.sameTarget e = true) (hc : e.body.code = ccSetLevel) (hl : e.body.level < 1024) :
    (s.launchRecord e).ep e.ep EP.CUR = e.body.level ∧ (s.launchRecord e).ep e.ep EP.CMD_STEP = s.stepEpoch ∧
    (s.launchRecord e).epStamp e.ep EP.LAST_CMD = s.now := by
  let u := (s.setEpStamp e.ep EP.LAST_CMD s.now).setEp e.ep EP.CMD_STEP s.stepEpoch
  let v := u.dimChange e.ep e.body.level e.body.ramp
  have eq : s.launchRecord e = v.setEp e.ep EP.CUR e.body.level := by
    rw [State.launchRecord, if_pos ht]
    exact if_pos hc
  rw [eq]
  refine ⟨v.ep_setEp_same e.ep _ (by decide) hl, ?_, ?_⟩
  · calc (v.setEp e.ep EP.CUR e.body.level).ep e.ep EP.CMD_STEP
        = v.ep e.ep EP.CMD_STEP := v.ep_setEp_ne e.ep _ (by decide) (by decide)
      _ = u.ep e.ep EP.CMD_STEP := State.ep_congr (u.dimChange_fmem ..) _ _
      _ = s.stepEpoch := State.ep_setEp_same _ e.ep _ (by decide) (s.f_lt R.TIME_STATUS.STEP)
  · have stays (t : State) (x : RF) (n : Nat) (hx : x.lsb + x.width ≤ 32)
        (ho : ∀ k < 3, x.off + 4 ≤ (EP.LAST_CMD k).off ∨ (EP.LAST_CMD k).off + 4 ≤ x.off) :
        (t.setEp e.ep x n).epStamp e.ep EP.LAST_CMD = t.epStamp e.ep EP.LAST_CMD := by
      simp only [State.epStamp, t.ep_setEp_ne e.ep n hx (ho 0 (by decide)), t.ep_setEp_ne e.ep n hx (ho 1 (by decide)),
        t.ep_setEp_ne e.ep n hx (ho 2 (by decide))]
    rw [stays _ _ _ (by decide) (by decide), State.epStamp_congr (u.dimChange_fmem ..), stays _ _ _ (by decide) (by decide),
      State.epStamp_setEpStamp]

/-- The handle of a command that asks no reply, or for a module's own output, completes. -/
theorem State.launchHandle_complete {late : Bool} (ho : s.handleOpen e.body.handle = true)
    (hs : (s.hslot (Machine.slotOf e.body.handle)).st = .placed) (hr : e.path = 3 ∨ e.body.noReply = true) :
    ((s.launchHandle e late).hslot (Machine.slotOf e.body.handle)).st = .completing ∧
    ((s.launchHandle e late).hslot (Machine.slotOf e.body.handle)).status = 0 ∧
    ((s.launchHandle e late).hslot (Machine.slotOf e.body.handle)).late = late := by
  have eq : s.launchHandle e late = (s.setHslot (Machine.slotOf e.body.handle)
      { s.hslot (Machine.slotOf e.body.handle) with late := late }).complete (Machine.slotOf e.body.handle) fsOk 0 := by
    rw [State.launchHandle, if_pos (by rw [ho, hs]; rfl)]
    exact if_pos hr
  rw [eq, State.hslot_complete, if_pos rfl, State.hslot_setHslot, if_pos rfl]
  exact ⟨rfl, rfl, rfl⟩

/-- The handle of another command waits for the reply. -/
theorem State.launchHandle_await {late : Bool} (ho : s.handleOpen e.body.handle = true)
    (hs : (s.hslot (Machine.slotOf e.body.handle)).st = .placed) (hp : e.path ≠ 3) (hr : e.body.noReply = false) :
    ((s.launchHandle e late).hslot (Machine.slotOf e.body.handle)).st = .awaiting ∧
    ((s.launchHandle e late).hslot (Machine.slotOf e.body.handle)).late = late := by
  have eq : ∃ u : State, s.launchHandle e late =
      u.setHslot (Machine.slotOf e.body.handle) { s.hslot (Machine.slotOf e.body.handle) with late := late, st := .awaiting } := by
    rw [State.launchHandle, if_pos (by rw [ho, hs]; rfl)]
    exact ⟨_, if_neg (by simp [hp, hr])⟩
  obtain ⟨u, hu⟩ := eq
  rw [hu, State.hslot_setHslot, if_pos rfl]
  exact ⟨rfl, rfl⟩

theorem State.handleOpen_congr {s t : State} (h : t.hnd = s.hnd) (w : Word) : t.handleOpen w = s.handleOpen w := by
  simp only [State.handleOpen, State.hslot_congr h]

/-- The entry once copy `k` has left. -/
def CalEntry.withLeft (e : CalEntry) (k : Nat) (c : Copy) (gone : Bool) : CalEntry :=
  { e.setCopy k { c with st := .left, gone := gone } with launched := e.launched || !gone }

/-- The command of an entry of which no copy left ends (R570). -/
def State.endUnsent (s : State) (e : CalEntry) : State :=
  let s := if s.sameTarget e then s.setEp e.ep EP.NO_REPLY 1 else s
  if s.handleOpen e.body.handle && (s.hslot (Machine.slotOf e.body.handle)).st = .placed then
    s.complete (Machine.slotOf e.body.handle) fsNotSent 0
  else s

theorem State.copyLeft_unsent {n k : Nat} {c : Copy} {gone : Bool} (ha : (e.withLeft k c gone).copies.all (fun c => c.st = .left) = true)
    (hl : (e.withLeft k c gone).launched = false) : s.copyLeft n k e c gone = (s.setCal n none).endUnsent (e.withLeft k c gone) :=
  (if_pos ha).trans (if_neg (hl.trans_ne Bool.false_ne_true))

theorem State.endUnsent_open (ht : s.sameTarget e = false) (ho : s.handleOpen e.body.handle = true)
    (hs : (s.hslot (Machine.slotOf e.body.handle)).st = .placed) :
    s.endUnsent e = s.complete (Machine.slotOf e.body.handle) fsNotSent 0 := by
  rw [State.endUnsent, ht]
  exact if_pos ((Bool.and_eq_true_iff ..).2 ⟨ho, decide_eq_true hs⟩)

/-- The one copy of an entry is discarded: the entry is free and its command completes with NOT_SENT. -/
theorem State.copyLeft_notSent {n : Nat} {c : Copy} (hc : e.copies = [c]) (hl : e.launched = false) (ht : s.sameTarget e = false)
    (ho : s.handleOpen e.body.handle = true) (hs : (s.hslot (Machine.slotOf e.body.handle)).st = .placed) :
    s.copyLeft n 0 e c true = (s.setCal n none).complete (Machine.slotOf e.body.handle) fsNotSent 0 := by
  have left : (e.withLeft 0 c true).copies = [{ c with st := .left, gone := true }] := by
    rw [CalEntry.withLeft, CalEntry.setCopy, hc]
    rfl
  rw [State.copyLeft_unsent (by rw [left]; rfl) (by rw [CalEntry.withLeft, hl]; rfl)]
  exact State.endUnsent_open (s := s.setCal n none) (e := e.withLeft 0 c true) ht ho hs

end

/-! ## Node delays (R308) -/

section
variable {s : State} {k j a b : Nat}

theorem State.nodeDelay_valid (h : s.nodeValid k j = true) :
    s.nodeDelay k j a b = (s.setF (R.TIME_NODE_DLY_A.DLY k j) a).setF (R.TIME_NODE_DLY_B.DLY k j) b := if_pos h

theorem State.f_nodeDelay_a (h : s.nodeValid k j = true) (ha : a < 2 ^ 20) :
    (s.nodeDelay k j a b).f (R.TIME_NODE_DLY_A.DLY k j) = a := by
  have apart : (R.TIME_NODE_DLY_B.DLY k j).apart (R.TIME_NODE_DLY_A.DLY k j) :=
    .inr (.inl (by simp only [R.TIME_NODE_DLY_A.DLY, R.TIME_NODE_DLY_B.DLY]; omega))
  have fits : 0 + 20 ≤ 32 := by decide
  rw [State.nodeDelay_valid h]
  exact (State.f_setF_ne _ _ _ b fits apart).trans (s.f_setF_fit fits ha)

theorem State.f_nodeDelay_b (h : s.nodeValid k j = true) (hb : b < 2 ^ 20) :
    (s.nodeDelay k j a b).f (R.TIME_NODE_DLY_B.DLY k j) = b := by
  rw [State.nodeDelay_valid h]
  exact State.f_setF_fit _ (show 0 + 20 ≤ 32 by decide) hb

end
end Sys2Proof.Machine
end

section
/-! SUPPORT. What a fetch of a due entry does, by the kinds of egress of its copies (R305, R469), and what a copy is once it has
arrived. -/
namespace Sys2Proof.Machine
open Sys2Proof

section
variable {s : State} {n : Fin 131072} {e : CalEntry}

theorem calendarFetch_due (he : s.calE n = some e) (hd : s.fetchable e = true) (hg : ∀ c ∈ e.copies, c.egress ≠ .noEgress) :
    exec (.calendarFetch n) s = .next (((s.setCal n (some e.fetched)).numberEntry n).chainFetched n) :=
  congrArg (fun t : State => Host.Outcome.next ((t.numberEntry n).chainFetched n)) (State.calFetch_due he hd hg)

/-- The frame of an entry off the rings takes no number. -/
theorem State.numberEntry_offRing (hp : e.path ≠ 0) :
    (s.setCal n (some e.fetched)).numberEntry n = s.setCal n (some e.fetched) :=
  State.numberEntry_skip fun x hx => .inl (by
    obtain rfl := Option.some.inj ((s.calE_setCal_same n _).symm.trans hx)
    exact hp)

/-- An entry off the rings and the chains only has its copies released. -/
theorem calendarFetch_plain (he : s.calE n = some e) (hd : s.fetchable e = true) (hg : ∀ c ∈ e.copies, c.egress ≠ .noEgress)
    (hp : e.path ≠ 0) (hch : ∀ c ∈ e.copies, ∀ j, c.egress ≠ .chain j) :
    exec (.calendarFetch n) s = .next (s.setCal n (some e.fetched)) := by
  have noChain : (s.setCal n (some e.fetched)).chainFetched n = s.setCal n (some e.fetched) :=
    State.chainFetched_skip fun x hx c hc j hj => by
      obtain rfl := Option.some.inj ((s.calE_setCal_same n _).symm.trans hx)
      obtain ⟨d, hd, hcd⟩ := CalEntry.mem_fetched_egress hc
      exact absurd (hcd.symm.trans hj) (hch d hd j)
  rw [calendarFetch_due he hd hg, State.numberEntry_offRing hp, noChain]

/-- A copy that waited holds a place once it is fetched. -/
theorem CalEntry.fetched_stored (h : e.copies.any (fun c => c.st = .waiting) = true) : e.fetched.copies.any Copy.stored = true := by
  obtain ⟨c, hc, hw⟩ := List.any_eq_true.1 h
  refine List.any_eq_true.2 ⟨_, List.mem_map_of_mem hc, ?_⟩
  rw [if_pos (of_decide_eq_true hw)]
  rfl

/-- A ring entry's copies are released and its frame, numbered, enters the fabric for both ports. -/
theorem calendarFetch_ring (he : s.calE n = some e) (hd : s.fetchable e = true)
    (hg : ∀ c ∈ e.copies, ∃ p, c.egress = .port p) (hp : e.path = 0) (hh : e.hsr = none)
    (hw : e.copies.any (fun c => c.st = .waiting) = true) :
    let k := getBits e.addr 16 7
    let q := s.f (R.RING_SEQ.SEQ k)
    let mac := s.entryMac e
    let both := [s.ringA k, s.ringB k]
    exec (.calendarFetch n) s = .next ((((s.setCal n (some e.fetched)).setF (R.RING_SEQ.SEQ k) (q + 1)).setCal n
      (some { e.fetched with hsr := some q })).enqueue (256 + plotOf (s.ringA k)) (s.fieldFrameOf mac e.body)
        ⟨6, none, if macMulticast mac = true then [] else both, if macMulticast mac = true then both else [],
          s.ownSown && macMulticast mac, [(k, q)], false⟩ ⟨none, false, some n.val⟩) := by
  intro k q mac both
  have egress {c : Copy} (hc : c ∈ e.copies) : ∀ g, (∀ p, g ≠ .port p) → c.egress ≠ g := by
    obtain ⟨p, hcp⟩ := hg c hc
    exact fun g hne hcg => hne p (hcg.symm.trans hcp)
  have number := State.numberEntry_ring (s.calE_setCal_same n (some e.fetched)) hp hh (CalEntry.fetched_stored hw)
  refine (calendarFetch_due he hd fun c hc => egress hc _ (by simp)).trans (congrArg Host.Outcome.next ?_)
  rw [number]
  refine State.chainFetched_skip fun x hx c hc j hj => ?_
  rw [State.calE_congr (State.enqueue_cal ..), State.calE_setCal_same] at hx
  obtain rfl := Option.some.inj hx
  obtain ⟨d, hd, hcd⟩ := CalEntry.mem_fetched_egress hc
  exact absurd (hcd.symm.trans hj) (egress hd _ (by simp))

/-- The one copy of an entry, for a chain, is released and passes through the feeder. -/
theorem calendarFetch_chain {c : Copy} {j : Nat} (he : s.calE n = some e) (hd : s.fetchable e = true) (hp : e.path ≠ 0)
    (hc : e.copies = [c]) (hg : c.egress = .chain j) (hw : c.st = .waiting) (hf : (n.val, 0) ∉ (s.chainAt j).fetched) :
    let u := (s.setCal n (some e.fetched)).quOffer (.feed j) e.fetched.feedItem
    exec (.calendarFetch n) s =
      .next ((u.setChain j { u.chainAt j with fetched := (u.chainAt j).fetched ++ [(n.val, 0)] }).launchFrame j) := by
  intro u
  have copies : e.fetched.copies = [{ c with st := .fetched }] := by
    rw [CalEntry.fetched, hc, List.map_singleton, if_pos hw]
  rw [calendarFetch_due he hd (fun d hd => by
    obtain rfl := List.mem_singleton.1 (hc ▸ hd)
    rw [hg]
    simp), State.numberEntry_offRing hp]
  exact congrArg Host.Outcome.next (State.chainFetched_one (s.calE_setCal_same n _) copies hg rfl hf)

/-- An entry none of whose copies holds a place, and which is not fetched now, stays as it is. -/
theorem calendarFetch_undue (he : s.calE n = some e) (hns : e.copies.any Copy.stored = false) (hd : s.fetchable e = false) :
    exec (.calendarFetch n) s = .next s := by
  have same {x : CalEntry} (hx : s.calE n = some x) : x = e := Option.some.inj (hx.symm.trans he)
  have noNumber : s.numberEntry n = s := State.numberEntry_skip fun x hx => .inr (by rw [same hx]; exact hns)
  have noChain : s.chainFetched n = s := State.chainFetched_skip fun x hx c hc _ _ hst => by
    rw [same hx] at hc
    have := List.any_eq_false.1 hns c hc
    exact this (by rw [Copy.stored, hst]; rfl)
  refine congrArg Host.Outcome.next (?_ : ((s.calFetch n).numberEntry n).chainFetched n = s)
  rw [State.calFetch_undue he hd, noNumber, noChain]

theorem calendarFetch_free (he : s.calE n = none) : exec (.calendarFetch n) s = .next s := by
  have no {x : CalEntry} (hx : s.calE n = some x) : False := by
    rw [he] at hx
    cases hx
  refine congrArg Host.Outcome.next (?_ : ((s.calFetch n).numberEntry n).chainFetched n = s)
  rw [State.calFetch_none he, State.numberEntry_skip fun x hx => (no hx).elim, State.chainFetched_skip fun x hx => (no hx).elim]

end

theorem CalEntry.getElem_setCopy {e : CalEntry} {k : Nat} {c : Copy} (h : e.copies[k]? = some c) (d : Copy) :
    (e.setCopy k d).copies[k]? = some d := by
  obtain ⟨hk, -⟩ := List.getElem?_eq_some_iff.1 h
  rw [CalEntry.setCopy, List.getElem?_set_self hk]

end Sys2Proof.Machine
end

section
open Sys2Proof Sys2Proof.Machine Sys2Proof.Safety

/-- Settles O48: the fetch and the launch by one equation per kind of egress, and `launchFirst` as its three parts: record,
LATE, handle. -/
theorem launchCalendar : Obligations.LaunchCalendar := by
  unfold Obligations.LaunchCalendar
  refine ⟨fun s n e he hdue hroom => ?_, fun s n => ⟨fun he => ?_, fun e he hns hno => ?_⟩, fun s n k e c he hk => ?_,
    fun s n k e c he hk hst hch hport => ?_, fun s n k e c p he hk hg hd => ?_, fun s n k e c p he hk hg hd => ?_,
    fun s e c p hg hst hfit => ?_, fun s e c _ ht hcode hl => ?_, fun s e c _ => ?_, fun s n e c hc hl ht ho hs => ?_,
    fun s k j a b hv => ?_⟩
  · have hd : s.fetchable e = true := (Bool.and_eq_true_iff ..).2 ⟨hdue, hroom⟩
    intro x
    refine ⟨fun hp hall => ?_, fun hp hh hall hw => ?_, fun c j hp hc hg hw => ?_⟩
    · have kind {c : Copy} (hc : c ∈ e.copies) {g : Egress} (hg : g = .noEgress ∨ ∃ j, g = .chain j) : c.egress ≠ g := by
        have := List.all_eq_true.1 hall c hc
        rintro rfl
        rcases hg with h | ⟨j, h⟩ <;> simp [h] at this
      exact ⟨_, calendarFetch_plain he hd (fun c hc => kind hc (.inl rfl)) hp (fun c hc j => kind hc (.inr ⟨j, rfl⟩)),
        s.calE_setCal_same n _, rfl, rfl, rfl⟩
    · refine calendarFetch_ring he hd (fun c hc => ?_) hp hh hw
      have := List.all_eq_true.1 hall c hc
      split at this
      next p h => exact ⟨p, h⟩
      next => cases this
    · intro u hf
      exact calendarFetch_chain he hd hp hc hg hw hf
  · exact calendarFetch_free he
  · exact calendarFetch_undue he hns (Bool.and_eq_false_iff.2 hno)
  · have hc : s.copyOf n k = some c := (State.copyOf_eq he).trans hk
    refine ⟨fun j hg => congrArg Host.Outcome.next (State.copyLaunch_chain he hc hg),
      fun hd => ⟨fun j hg => congrArg Host.Outcome.next (State.copyLaunch_due_radio he hc hg hd),
        fun j hg => congrArg Host.Outcome.next (State.copyLaunch_due_can he hc hg hd),
        fun j hg => congrArg Host.Outcome.next (State.copyLaunch_due_stage he hc hg hd)⟩, fun hd hch hp => ?_⟩
    have stays : s.copyLaunch n k = s := by
      rw [State.copyLaunch_undue he hc hch hd, State.copyLost_noPort hp]
      rfl
    exact congrArg Host.Outcome.next stays
  · have hc : s.copyOf n k = some c := (State.copyOf_eq he).trans hk
    have arrived := (State.arrive_copy hc hch hport).trans (State.copyArrive_fetched he hc hst)
    refine ⟨_, congrArg Host.Outcome.next arrived, ?_, rfl, rfl⟩
    rw [State.copyOf_eq (s.calE_setCal_same n _), CalEntry.getElem_setCopy hk]
    simp only [beforeHeadland, Bool.and_eq_true, Bool.not_eq_true', decide_eq_true_eq]
  · have hc : s.copyOf n k = some c := (State.copyOf_eq he).trans hk
    have launch := State.copyLaunch_due_port he hc hg hd
    refine ⟨fun hr x hx => ⟨fun hu => congrArg Host.Outcome.next ?_, fun hu => congrArg Host.Outcome.next ?_⟩,
      fun hr hu hx => congrArg Host.Outcome.next ?_, fun hr hu hx => congrArg Host.Outcome.next ?_,
      fun hr hx => congrArg Host.Outcome.next ?_, fun hr x hx => congrArg Host.Outcome.next ?_⟩
    · rw [launch, State.launchPort_up hr hu, State.portCopySent_some hx]
    · rw [launch, State.launchPort_down hr hu, State.portCopySent_some hx]
    · rw [launch, State.launchPort_up hr hu, State.portCopySent_up hx hu]
    · rw [launch, State.launchPort_down hr hu, State.portCopySent_down hx hu]
    · rw [launch, State.launchPort_disabled hr, hx]
    · rw [launch, State.launchPort_disabled hr, hx]
  · have hc : s.copyOf n k = some c := (State.copyOf_eq he).trans hk
    have launch := State.copyLaunch_undue he hc (fun j hj => by rw [hg] at hj; cases hj) hd
    refine ⟨fun hl => congrArg Host.Outcome.next ?_, fun hl => congrArg Host.Outcome.next ?_⟩
    · rw [launch, hl]
      rfl
    · rw [launch, hl]
      rfl
  · exact State.copyDue_unfit hst (by rw [State.copyFits, hg]; exact hfit)
  · obtain ⟨hcur, hstep, hcmd⟩ := State.launchRecord_level ht hcode hl
    have mem := s.launchFirst_fmem e c
    exact ⟨(State.ep_congr mem _ _).trans hcur, (State.ep_congr mem _ _).trans hstep, (State.epStamp_congr mem _ _).trans hcmd⟩
  · intro i late ho hs
    let u := (s.launchRecord e).noteLate late
    have hnd : u.hnd = s.hnd := (State.noteLate_hnd ..).trans (s.launchRecord_hnd e)
    have opened : u.handleOpen e.body.handle = true := (State.handleOpen_congr hnd _).trans ho
    have placed : (u.hslot i).st = .placed := (congrArg Handle.st (State.hslot_congr hnd i)).trans hs
    have eq : s.launchFirst e c = u.launchHandle e late := s.launchFirst_eq e c
    rw [eq]
    refine ⟨?_, fun hl => ?_, fun hr => ?_, fun hp hr => ?_⟩
    · by_cases hr : e.path = 3 ∨ e.body.noReply = true
      · exact (State.launchHandle_complete opened placed hr).2.2
      · rw [not_or, Bool.not_eq_true] at hr
        exact (State.launchHandle_await opened placed hr.1 hr.2).2
    · rw [State.flag, State.on, State.f_eq, State.launchHandle_regs]
      exact hl ▸ State.flag_noteLate (s.launchRecord e)
    · obtain ⟨hst, hstatus, -⟩ := State.launchHandle_complete (late := late) opened placed hr
      exact ⟨hst, hstatus⟩
    · exact (State.launchHandle_await opened placed hp hr).1
  · intro t
    have left : t = (s.setCal n none).complete (slotOf e.body.handle) fsNotSent 0 := State.copyLeft_notSent hc hl ht ho hs
    rw [left]
    refine ⟨(State.calE_congr rfl n).trans (s.calE_setCal_same n none), ?_, ?_⟩
    · rw [State.hslot_complete, if_pos rfl]
    · rw [State.hslot_complete, if_pos rfl]
  · refine ⟨_, rfl, State.f_nodeDelay_a hv a.isLt, State.f_nodeDelay_b hv b.isLt, ?_, ?_⟩
    · rw [State.nodeDelay_valid hv, State.setF_time, State.setF_time]
    · rw [State.nodeDelay_valid hv, State.setF_cal, State.setF_cal]

end

section
/-! SUPPORT. A command and its word (R90–R92), and an instruction whose predicate is 0 (R87). -/
namespace Sys2Proof.Machine
open Sys2Proof

theorem exec_eq_zIssue {i : Instr} {p : Fin 18} {w : Word} (s : State) (h : encodeZhn i = some (p, w)) :
    exec i s = .next (s.zIssue p w) := by
  have := exec_of_encodeZhn i s
  rwa [h] at this

/-- On an engine that can issue, with its PC within the code and no breakpoint to halt at, the predicate decides. -/
theorem zhn_of_issuing {s : State} {p ps : Nat} {q : Bool} {f : State → ZOut} (hi : s.issuing p = true)
    (hpc : s.pc p < (s.eng p).codeWords) (hb : s.breakHere p = false ∨ (s.eng p).passBrk = true) :
    s.zhn p ps q f = if s.p p ps then s.zhnEnd p q (f s) else s.retire p 1 (s.pc p + 1) [] := by
  have hk : (s.breakHere p && !(s.eng p).passBrk) = false := by rcases hb with hb | hb <;> simp [hb]
  simp only [State.zhn, hi, hk, Nat.not_le.mpr hpc, Bool.not_true, Bool.false_eq_true, if_false]

end Sys2Proof.Machine
end

section
open Sys2Proof Sys2Proof.Machine Sys2Proof.Safety

/-- Settles O20: each format's fields read back, so that the issue of a command's word is the command. -/
theorem wordsAreCommands : Obligations.WordsAreCommands := by
  unfold Obligations.WordsAreCommands
  exact fun _ s _ _ h => exec_eq_zIssue s h

/-- Settles O19: the predicate of the command's word decides between its effect and a bare retirement. -/
theorem predicatedOff : Obligations.PredicatedOff := by
  unfold Obligations.PredicatedOff
  intro i s p w h hi hpc hb
  have issue : exec i s = .next (if s.p p (getBits w 23 3) then s.zhnEnd p (zSeq w) (zWord p w s)
      else s.retire p 1 (s.pc p + 1) []) :=
    (exec_eq_zIssue s h).trans (congrArg _ (zhn_of_issuing hi hpc hb))
  refine ⟨fun off => ?_, fun on => ?_⟩
  · rw [issue, off]
    rfl
  · rw [issue, on]
    rfl

end

section
/-! SUPPORT. The register files of an engine (R88, R89): what a write of one register changes and leaves alone, and the load of an
image. -/
namespace Sys2Proof.Machine
open Sys2Proof

section
variable {α : Type} (s : State) (p : Nat) {f : Engine → Engine} (g : Engine → Store α)

/-- A change of an engine that writes one register of a file, seen in that file of any engine. -/
theorem State.sget_modEng [DecidableEq α] (d : Nat → α) {i : Nat} {v : α} (hf : ∀ e, g (f e) = sset d (g e) i v) (q j : Nat) :
    sget d (g ((s.modEng p f).eng q)) j = if q = p ∧ j = i then v else sget d (g (s.eng q)) j := by
  rw [State.eng_modEng]
  by_cases h : q = p
  · subst h
    simp only [if_true, true_and, hf, sget_sset]
  · simp only [h, if_false, false_and]

/-- A file that a change of an engine does not name. -/
theorem State.file_modEng_keeps (hf : ∀ e, g (f e) = g e) (q : Nat) : g ((s.modEng p f).eng q) = g (s.eng q) := by
  rw [State.eng_modEng]
  split
  · next h => rw [hf, h]
  · rfl

end

section
variable {f : Engine → Engine} (s : State) (p q j : Nat)

theorem State.w_modEng_keeps (hf : ∀ e, (f e).w = e.w) : (s.modEng p f).w q j = s.w q j :=
  State.w_congr (State.file_modEng_keeps s p (·.w) hf q) j

theorem State.p_modEng_keeps (hf : ∀ e, (f e).p = e.p) : (s.modEng p f).p q j = s.p q j := by
  rw [State.p, State.file_modEng_keeps s p (·.p) hf, State.p]

theorem State.e_modEng_keeps (hf : ∀ e, (f e).e = e.e) : (s.modEng p f).e q j = s.e q j := by
  rw [State.e, State.file_modEng_keeps s p (·.e) hf, State.e]

theorem State.t_modEng_keeps (hf : ∀ e, (f e).t = e.t) : (s.modEng p f).t q j = s.t q j := by
  rw [State.t, State.file_modEng_keeps s p (·.t) hf, State.t]

end

section
variable (s : State) (p q i j : Nat)

@[simp] theorem State.setW_zero (v : DWord) : s.setW p 0 v = s := rfl
@[simp] theorem State.setP_zero (v : Bool) : s.setP p 0 v = s := rfl
@[simp] theorem State.w_zero : s.w p 0 = 0 := rfl
@[simp] theorem State.p_zero : s.p p 0 = true := rfl

theorem State.w_setW {i : Nat} (hi : i ≠ 0) (v : DWord) :
    (s.setW p i v).w q j = if q = p ∧ j = i then v else s.w q j := by
  rw [State.setW, if_neg hi, State.w, State.w, State.sget_modEng s p (·.w) zeroDW fun _ => rfl]
  by_cases hj : j = 0
  · rw [if_pos hj, if_pos hj, if_neg (by omega)]
  · rw [if_neg hj, if_neg hj]

theorem State.p_setP {i : Nat} (hi : i ≠ 0) (v : Bool) :
    (s.setP p i v).p q j = if q = p ∧ j = i then v else s.p q j := by
  rw [State.setP, if_neg hi, State.p, State.p, State.sget_modEng s p (·.p) falseP fun _ => rfl]
  by_cases hj : j = 0
  · rw [if_pos hj, if_pos hj, if_neg (by omega)]
  · rw [if_neg hj, if_neg hj]

theorem State.e_setE (v : BitVec 25) : (s.setE p i v).e q j = if q = p ∧ j = i then v else s.e q j :=
  State.sget_modEng s p (·.e) zeroE (fun _ => rfl) q j

theorem State.t_setT (v : TReg) : (s.setT p i v).t q j = if q = p ∧ j = i then v else s.t q j :=
  State.sget_modEng s p (·.t) zeroT (fun _ => rfl) q j

theorem State.w_setW_ne (v : DWord) (h : q ≠ p ∨ j ≠ i) : (s.setW p i v).w q j = s.w q j := by
  by_cases hi : i = 0
  · subst hi
    rfl
  · rw [State.w_setW s p q j hi, if_neg (by tauto)]

theorem State.p_setP_ne (v : Bool) (h : q ≠ p ∨ j ≠ i) : (s.setP p i v).p q j = s.p q j := by
  by_cases hi : i = 0
  · subst hi
    rfl
  · rw [State.p_setP s p q j hi, if_neg (by tauto)]

theorem State.setW_frame (v : DWord) : { s.setW p i v with fe := s.fe } = s := by
  unfold State.setW
  split <;> rfl

/-- A write of a working register leaves the other files alone. -/
theorem State.files_setW (v : DWord) :
    (s.setW p i v).p q j = s.p q j ∧ (s.setW p i v).e q j = s.e q j ∧ (s.setW p i v).t q j = s.t q j := by
  unfold State.setW
  split
  · exact ⟨rfl, rfl, rfl⟩
  · exact ⟨s.p_modEng_keeps p q j fun _ => rfl, s.e_modEng_keeps p q j fun _ => rfl, s.t_modEng_keeps p q j fun _ => rfl⟩

/-- So does a write of a predicate register. -/
theorem State.files_setP (v : Bool) :
    (s.setP p i v).w q j = s.w q j ∧ (s.setP p i v).e q j = s.e q j ∧ (s.setP p i v).t q j = s.t q j := by
  unfold State.setP
  split
  · exact ⟨rfl, rfl, rfl⟩
  · exact ⟨s.w_modEng_keeps p q j fun _ => rfl, s.e_modEng_keeps p q j fun _ => rfl, s.t_modEng_keeps p q j fun _ => rfl⟩

end

section
variable {s : State} {l : Nat} {x : Image} (p st : Nat) (h : s.image l = some x)
include h

theorem State.engLoad_image :
    s.engLoad p l st = ((s.modEng p (fun e => e.loaded x)).setPc p x.entry).setEngState p st := by
  rw [State.engLoad, h]

theorem State.eng_engLoad : (s.engLoad p l st).eng p = (s.eng p).loaded x := by
  rw [State.engLoad_image p st h, State.eng_setEngState, State.eng_setPc, State.eng_modEng_same]

theorem State.pc_engLoad : (s.engLoad p l st).pc p = x.entry % 65536 := by
  rw [State.engLoad_image p st h, State.pc_setEngState, State.pc_setPc]

theorem State.engState_engLoad : (s.engLoad p l st).engState p = st % 16 := by
  rw [State.engLoad_image p st h, State.engState_setEngState]

/-- Of the working registers only w30 is not 0 after a load. -/
theorem State.w_engLoad (i : Nat) : (s.engLoad p l st).w p i = if i = 30 then 0x40000 else 0 := by
  rw [State.w, State.eng_engLoad p st h]
  simp only [Engine.loaded, sget, zeroDW, eq_comm (a := 30)]
  by_cases hi : i = 0
  · subst hi
    rfl
  · rw [if_neg hi]

end

end Sys2Proof.Machine
end

section
open Sys2Proof Sys2Proof.Machine

/-- Settles O18: a write of a register is one pair of one file of one engine, and a load replaces the files. -/
theorem registerFiles : Obligations.RegisterFiles := by
  unfold Obligations.RegisterFiles
  refine ⟨fun s p i v => ⟨s.setW_zero p v, s.w_zero p, fun hi => ?_, fun q j h => s.w_setW_ne p q i j v h, s.setW_frame p i v,
      fun q j => s.files_setW p q i j v⟩,
    fun s p i v => ⟨s.setP_zero p v, s.p_zero p, fun hi => ?_, fun q j h => s.p_setP_ne p q i j v h,
      fun q j => s.files_setP p q i j v⟩,
    fun s p i v x => ⟨?_, ?_, fun q j h => ⟨?_, ?_⟩⟩, fun s p l st x hx hentry hst => ?_⟩
  · rw [s.w_setW p p i hi, if_pos ⟨rfl, rfl⟩]
  · rw [s.p_setP p p i hi, if_pos ⟨rfl, rfl⟩]
  · rw [State.e_setE, if_pos ⟨rfl, rfl⟩]
  · rw [State.t_setT, if_pos ⟨rfl, rfl⟩]
  · rw [State.e_setE, if_neg (by tauto)]
  · rw [State.t_setT, if_neg (by tauto)]
  · have eng := State.eng_engLoad p st hx
    refine ⟨State.w_engLoad p st hx, fun i hi => ?_, fun i => ⟨?_, ?_⟩, by rw [eng]; rfl, by rw [eng]; rfl, ?_, ?_⟩
    · rw [State.p, if_neg hi, eng]
      rfl
    · rw [State.e, eng]
      rfl
    · rw [State.t, eng]
      rfl
    · rw [State.pc_engLoad p st hx, Nat.mod_eq_of_lt hentry]
    · rw [State.engState_engLoad p st hx, Nat.mod_eq_of_lt (by omega)]

end

section
/-! SUPPORT. The words of the ALU and of the immediates (R95–R98) as exact integers: what each operation of the model stands for,
signed and unsigned. -/
namespace Sys2Proof.Machine
open Sys2Proof Sys2Proof.Safety

section
variable {a b : DWord} {n : Nat}

theorem eq_ofInt_of_toInt {z : Int} (h : a.toInt = z) : a = BitVec.ofInt 64 z := by rw [← h, BitVec.ofInt_toInt]
theorem eq_ofNat_of_toNat (h : a.toNat = n) : a = BitVec.ofNat 64 n := by rw [← h, BitVec.ofNat_toNat, BitVec.setWidth_eq]

end

section
variable (a b : DWord) (n : Nat)

/-! ## Wrapping arithmetic (R96) -/

theorem add_eq_ofInt : a + b = BitVec.ofInt 64 (a.toInt + b.toInt) := by
  rw [BitVec.ofInt_add, BitVec.ofInt_toInt, BitVec.ofInt_toInt]
theorem sub_eq_ofInt : a - b = BitVec.ofInt 64 (a.toInt - b.toInt) := by
  rw [Int.sub_eq_add_neg, BitVec.ofInt_add, BitVec.ofInt_neg, BitVec.ofInt_toInt, BitVec.ofInt_toInt, BitVec.sub_eq_add_neg]
theorem mul_eq_ofInt : a * b = BitVec.ofInt 64 (a.toInt * b.toInt) := by
  rw [BitVec.ofInt_mul, BitVec.ofInt_toInt, BitVec.ofInt_toInt]
theorem add_eq_ofNat : a + b = BitVec.ofNat 64 (a.toNat + b.toNat) := by
  rw [BitVec.ofNat_add, ← eq_ofNat_of_toNat rfl, ← eq_ofNat_of_toNat rfl]
theorem mul_eq_ofNat : a * b = BitVec.ofNat 64 (a.toNat * b.toNat) := by
  rw [BitVec.ofNat_mul, ← eq_ofNat_of_toNat rfl, ← eq_ofNat_of_toNat rfl]

/-! ## Shifts -/

theorem shiftLeft_eq_ofNat : a <<< n = BitVec.ofNat 64 (a.toNat * 2 ^ n) := by
  apply BitVec.eq_of_toNat_eq
  rw [BitVec.toNat_shiftLeft, BitVec.toNat_ofNat, Nat.shiftLeft_eq]
theorem ushiftRight_eq_ofNat : a >>> n = BitVec.ofNat 64 (a.toNat / 2 ^ n) :=
  eq_ofNat_of_toNat (by rw [BitVec.toNat_ushiftRight, Nat.shiftRight_eq_div_pow])
theorem sshiftRight_eq_ofInt : a.sshiftRight n = BitVec.ofInt 64 (a.toInt / 2 ^ n) :=
  eq_ofInt_of_toInt (by rw [BitVec.toInt_sshiftRight, Int.shiftRight_eq_div_pow, Nat.cast_pow, Nat.cast_ofNat])

/-! ## Minima and maxima -/

theorem toInt_smin : (smin a b).toInt = min a.toInt b.toInt := by
  simp only [smin, BitVec.slt_iff_toInt_lt, min_def]
  split <;> split <;> omega
theorem toInt_smax : (smax a b).toInt = max a.toInt b.toInt := by
  simp only [smax, BitVec.slt_iff_toInt_lt, max_def]
  split <;> split <;> omega
theorem toNat_umin : (if a.ult b then a else b).toNat = min a.toNat b.toNat := by
  simp only [BitVec.ult_iff_lt, BitVec.lt_def, min_def]
  split <;> split <;> omega
theorem toNat_umax : (if a.ult b then b else a).toNat = max a.toNat b.toNat := by
  simp only [BitVec.ult_iff_lt, BitVec.lt_def, max_def]
  split <;> split <;> omega

theorem toInt_clamp (d : DWord) : (smax (smin d b) a).toInt = max (min d.toInt b.toInt) a.toInt := by
  rw [toInt_smax, toInt_smin]

end

/-! ## Quotients and remainders (R96) -/

section
variable {a b : DWord}

theorem div_of_ne_zero (h : b ≠ 0) : divS a b = BitVec.ofInt 64 (a.toInt.tdiv b.toInt) ∧
    divU a b = BitVec.ofNat 64 (a.toNat / b.toNat) ∧ remS a b = BitVec.ofInt 64 (a.toInt.tmod b.toInt) ∧
    remU a b = BitVec.ofNat 64 (a.toNat % b.toNat) :=
  ⟨if_neg h, if_neg h, if_neg h, if_neg h⟩

theorem div_zero_word : divS a 0 = BitVec.allOnes 64 ∧ divU a 0 = BitVec.allOnes 64 ∧ remS a 0 = a ∧ remU a 0 = a :=
  ⟨rfl, rfl, rfl, rfl⟩

/-- The one quotient that does not fit: −2⁶³ by −1. -/
theorem div_overflow (ha : a.toInt = -2 ^ 63) (hb : b.toInt = -1) :
    divS a b = BitVec.ofInt 64 (-2 ^ 63) ∧ remS a b = 0 := by
  have hne : b ≠ 0 := by
    rintro rfl
    simp at hb
  rw [divS, remS, if_neg hne, if_neg hne, ha, hb]
  decide

end

/-! ## Counts of bits -/

theorem popc_eq_countP (v : DWord) (n : Nat) : popc n v = (List.range n).countP (fun k => v.getLsbD k) := by
  induction n with
  | zero => rfl
  | succ n ih => rw [popc, ih, List.range_succ, List.countP_append, List.countP_singleton, b2n]

section
variable {v : DWord} {k n : Nat}

/-- The highest 1 bit of the low `n`. -/
theorem clz_of_highest (hk : k < n) (hv : v.getLsbD k = true) (h : ∀ j, k < j → j < n → v.getLsbD j = false) :
    clz n v = n - 1 - k := by
  induction n with
  | zero => omega
  | succ n ih =>
    rcases Nat.lt_succ_iff_lt_or_eq.mp hk with hk' | rfl
    · rw [clz, h n hk' n.lt_succ_self, ih hk' fun j hj hjn => h j hj (by omega)]
      simp only [Bool.false_eq_true, if_false]
      omega
    · rw [clz, hv, if_pos rfl]
      omega

/-- The lowest 1 bit from bit `64 − n` up. -/
theorem ctz_of_lowest (hn : n ≤ 64) (hk : 64 - n ≤ k) (hk' : k < 64) (hv : v.getLsbD k = true)
    (h : ∀ j, j < k → v.getLsbD j = false) : ctz n v = k - (64 - n) := by
  induction n with
  | zero => omega
  | succ n ih =>
    rcases Nat.eq_or_lt_of_le hk with hk | hk
    · have e : 63 - n = k := by omega
      rw [ctz, e, hv, if_pos rfl]
      omega
    · rw [ctz, h (63 - n) (by omega), ih (by omega) (by omega)]
      simp only [Bool.false_eq_true, if_false]
      omega

theorem clz_zero (n : Nat) : clz n 0 = n := by
  induction n with
  | zero => rfl
  | succ n ih => simpa [clz] using ih

theorem ctz_zero (n : Nat) : ctz n 0 = n := by
  induction n with
  | zero => rfl
  | succ n ih => simpa [ctz] using ih

end

/-! ## Immediates (R97, R98) -/

theorem toSigned_eq_toInt {n : Nat} (hn : 0 < n) (x : BitVec n) : toSigned n x.toNat = x.toInt := by
  have e : 2 ^ n = 2 * 2 ^ (n - 1) := by rw [← Nat.pow_succ', Nat.succ_eq_add_one, Nat.sub_add_cancel hn]
  rw [toSigned, BitVec.toInt_eq_toNat_cond, Nat.mod_eq_of_lt x.isLt]
  split <;> split <;> omega

theorem ofInt_toSigned {n : Nat} (hn : 0 < n) (x : BitVec n) : BitVec.ofInt 64 (toSigned n x.toNat) = x.signExtend 64 := by
  rw [toSigned_eq_toInt hn]
  rfl

theorem sext16_eq (imm : BitVec 16) : sext16 imm.toNat = imm.signExtend 64 := ofInt_toSigned (by decide) imm

theorem zext16_eq (imm : BitVec 16) : zext16 imm.toNat = imm.setWidth 64 := by
  rw [zext16, Nat.mod_eq_of_lt imm.isLt, BitVec.ofNat_toNat]

theorem toInt_sext16 (imm : BitVec 16) : (sext16 imm.toNat).toInt = imm.toInt := by
  rw [sext16_eq, BitVec.toInt_signExtend_of_le (by decide)]

/-! ## An instruction that writes a working register -/

section
variable {s : State} {p ps cost rd : Nat} {q : Bool} {f : State → ZOut} {v v' : DWord}

/-- One that writes `v` writes any other expression of the same word. -/
theorem next_wDone (h : runs s p ps) (hf : f s = s.wDone p cost rd v) (hv : v = v') :
    (.next (s.zhn p ps q f) : Res) = goOn s (s.setW p rd v') p cost :=
  hv ▸ next_goOn h hf

end

end Sys2Proof.Machine
end

section
open Sys2Proof Sys2Proof.Machine Sys2Proof.Safety

/-- Settles O13: each result of the model is the low 64 bits of the exact one, and the corners are the divisions' own. -/
theorem integerCorners : Obligations.IntegerCorners := by
  unfold Obligations.IntegerCorners
  intro s p ps rd ra rb imm hr a b d wr
  refine ⟨next_wDone hr rfl (add_eq_ofInt a b), next_wDone hr rfl (add_eq_ofNat a b), next_wDone hr rfl (sub_eq_ofInt a b),
    next_wDone hr rfl (mul_eq_ofInt a b), next_wDone hr rfl ?_, next_wDone hr rfl ?_, fun hb => ?_, fun ha hb => ?_,
    fun hlt => next_wDone hr rfl ?_⟩
  · rw [add_eq_ofInt, toInt_sext16]
  · rw [mul_eq_ofInt, toInt_sext16]
  · obtain ⟨hdiv, hdivu, hrem, hremu⟩ := div_zero_word (a := a)
    exact ⟨next_wDone hr rfl ((congrArg (divS a) hb).trans hdiv), next_wDone hr rfl ((congrArg (divU a) hb).trans hdivu),
      next_wDone hr rfl ((congrArg (remS a) hb).trans hrem), next_wDone hr rfl ((congrArg (remU a) hb).trans hremu)⟩
  · obtain ⟨hdiv, hrem⟩ := div_overflow ha hb
    exact ⟨next_wDone hr rfl hdiv, next_wDone hr rfl hrem⟩
  · apply BitVec.eq_of_toInt_eq
    rw [toInt_clamp]
    exact max_eq_right ((min_le_right _ _).trans hlt.le)

/-- Settles O12: one row of the table after the other. -/
theorem aluResult : Obligations.AluResult := by
  unfold Obligations.AluResult
  intro s p ps rd ra rb hr a b d n wr
  refine ⟨next_goOn hr rfl, next_goOn hr rfl, next_goOn hr rfl, next_goOn hr rfl, next_goOn hr rfl, next_goOn hr rfl,
    next_wDone hr rfl (shiftLeft_eq_ofNat a n), next_wDone hr rfl (ushiftRight_eq_ofNat a n),
    next_wDone hr rfl (sshiftRight_eq_ofInt a n), next_wDone hr rfl (mul_eq_ofNat a b), next_goOn hr rfl, next_goOn hr rfl,
    fun hb => ?_, next_wDone hr rfl (eq_ofInt_of_toInt (toInt_smin a b)), next_wDone hr rfl (eq_ofInt_of_toInt (toInt_smax a b)),
    next_wDone hr rfl (eq_ofNat_of_toNat (toNat_umin a b)), next_wDone hr rfl (eq_ofNat_of_toNat (toNat_umax a b)),
    next_wDone hr rfl (eq_ofInt_of_toInt (toInt_clamp a b d)), next_wDone hr rfl (congrArg _ (popc_eq_countP a 64)),
    fun k hk hak => ⟨fun high => ?_, fun low => ?_⟩, fun ha => ⟨?_, ?_⟩⟩
  · obtain ⟨hdiv, hdivu, hrem, hremu⟩ := div_of_ne_zero (a := a) hb
    exact ⟨next_wDone hr rfl hdiv, next_wDone hr rfl hdivu, next_wDone hr rfl hrem, next_wDone hr rfl hremu⟩
  · exact next_wDone hr rfl (congrArg _ (clz_of_highest hk hak high))
  · exact next_wDone hr rfl (congrArg _ (ctz_of_lowest le_rfl (Nat.zero_le k) hk hak low))
  · exact next_wDone hr rfl (congrArg (BitVec.ofNat 64) ((congrArg (clz 64) ha).trans (clz_zero 64)))
  · exact next_wDone hr rfl (congrArg (BitVec.ofNat 64) ((congrArg (ctz 64) ha).trans (ctz_zero 64)))

/-- Settles O14: one row of the table after the other, with the immediate sign- or zero-extended. -/
theorem immediateResult : Obligations.ImmediateResult := by
  unfold Obligations.ImmediateResult
  intro s p ps rd imm n hr d sx zx wr
  have hsx : sext16 imm.toNat = sx := sext16_eq imm
  have hzx : zext16 imm.toNat = zx := zext16_eq imm
  have hn : n.val % 64 = n := Nat.mod_eq_of_lt n.isLt
  refine ⟨next_wDone hr rfl hsx, next_wDone hr rfl (congrArg _ hzx), next_wDone hr rfl (congrArg _ hsx),
    next_wDone hr rfl (congrArg _ hzx), next_wDone hr rfl (congrArg _ hzx), next_wDone hr rfl (congrArg _ hzx),
    next_wDone hr rfl ?_, next_wDone hr rfl ?_, next_wDone hr rfl ?_, next_wDone hr rfl (congrArg _ hsx),
    next_wDone hr rfl (eq_ofInt_of_toInt ?_), next_wDone hr rfl (eq_ofInt_of_toInt ?_)⟩
  · rw [hn, shiftLeft_eq_ofNat]
  · rw [hn, ushiftRight_eq_ofNat]
  · rw [hn, sshiftRight_eq_ofInt]
  · rw [toInt_smin, toInt_sext16]
  · rw [toInt_smax, toInt_sext16]

end

section
/-! SUPPORT. Conditions of the compares (R98) and the targets of the jumps (R99, R121). -/
namespace Sys2Proof.Machine
open Sys2Proof Sys2Proof.Safety

/-! ## Conditions -/

theorem bne_eq_decide_ne (a b : DWord) : (a != b) = decide (a ≠ b) := by
  rw [bne, beq_eq_decide, decide_not]

theorem not_decide_lt {α : Type} [LinearOrder α] (x y : α) : (!decide (x < y)) = decide (y ≤ x) := by
  rw [← decide_not]
  exact decide_eq_decide.mpr not_lt

/-- The conditions of CMP, in the order of their codes. -/
theorem cmpCond_eq (a b : DWord) {c : Nat} (hc : c ≤ 6) :
    [decide (a = b), decide (a ≠ b), decide (a.toInt < b.toInt), decide (b.toInt ≤ a.toInt), decide (a.toNat < b.toNat),
      decide (b.toNat ≤ a.toNat), decide (a &&& b ≠ 0)][c]? = some (cmpCond c a b) := by
  interval_cases c
  · exact congrArg some (beq_eq_decide a b).symm
  · exact congrArg some (bne_eq_decide_ne a b).symm
  · rfl
  · exact congrArg some (not_decide_lt a.toInt b.toInt).symm
  · rfl
  · exact congrArg some (not_decide_lt a.toNat b.toNat).symm
  · exact congrArg some (bne_eq_decide_ne (a &&& b) 0).symm

/-- Those of CMPI. -/
theorem cmpiCond_eq (a : DWord) (imm : BitVec 10) {c : Nat} (hc : c ≤ 3) :
    [decide (a = imm.signExtend 64), decide (a.toInt < imm.toInt), decide (a.toNat < (imm.signExtend 64).toNat),
      decide (a &&& imm.setWidth 64 ≠ 0)][c]? = some (cmpiCond c a imm.toNat) := by
  have hsx : BitVec.ofInt 64 (toSigned 10 imm.toNat) = imm.signExtend 64 := ofInt_toSigned (by decide) imm
  have hzx : BitVec.ofNat 64 (imm.toNat % 1024) = imm.setWidth 64 := by rw [Nat.mod_eq_of_lt imm.isLt, BitVec.ofNat_toNat]
  have hint : (imm.signExtend 64).toInt = imm.toInt := BitVec.toInt_signExtend_of_le (by decide)
  rw [← hint, ← hsx, ← hzx]
  interval_cases c
  · exact congrArg some (beq_eq_decide a _).symm
  · rfl
  · rfl
  · exact congrArg some (bne_eq_decide_ne _ 0).symm

/-! ## Compares by their operands -/

section
variable {s : State} {p cond pd pn ra rb imm : Nat}

theorem zCmp_illegal (h : 6 < cond ∨ (pd = pn ∧ pd ≠ 0)) : zCmp p cond pd pn ra rb s = .exc xIllegal 0 :=
  if_pos (by simpa using h)

theorem zCmp_done (hc : cond ≤ 6) (h : pd ≠ pn ∨ pd = 0) :
    zCmp p cond pd pn ra rb s = zDone 1 (s.setPredPair p pd pn (cmpCond cond (s.w p ra) (s.w p rb))) :=
  if_neg (by simp; omega)

theorem zCmpi_illegal (h : pd = pn) (h' : pd ≠ 0) : zCmpi p cond pd pn ra imm s = .exc xIllegal 0 :=
  if_pos (by simpa using ⟨h, h'⟩)

theorem zCmpi_done (h : pd ≠ pn ∨ pd = 0) :
    zCmpi p cond pd pn ra imm s = zDone 1 (s.setPredPair p pd pn (cmpiCond cond (s.w p ra) imm)) :=
  if_neg (by simp; omega)

end

/-! ## Jumps -/

theorem zB_eq (s : State) (p : Nat) (off : BitVec 21) : zB p off.toNat s = s.zJump p (s.pc p + off.toInt) id := by
  rw [zB, toSigned_eq_toInt (by decide)]

theorem zCall_eq (s : State) (p : Nat) (off : BitVec 21) :
    zCall p off.toNat s = s.zJump p (s.pc p + off.toInt) (fun s => s.link p) := by
  rw [zCall, toSigned_eq_toInt (by decide)]

section
variable {s t : State} {p ps n : Nat} {z : Int} {f : State → ZOut} {g : State → State}

/-- A jump to a word of the code retires there; every other target raises PC_RANGE. -/
theorem next_jump (h : jumps s p ps) (hf : f s = s.zJump p z g) (hg : g s = t) (hz : z = n)
    (hn : n < (s.eng p).codeWords) : (.next (s.zhn p ps false f) : Res) = .next (t.retire p 2 n []) := by
  have inside : ¬ ((n : Int) < 0 ∨ ((s.eng p).codeWords : Int) ≤ n) := by omega
  rw [zhn_of_jumps h, hf, hz, State.zJump, if_neg inside, hg]
  rfl

theorem next_jump_range (h : jumps s p ps) (hf : f s = s.zJump p z g) (hz : z < 0 ∨ ((s.eng p).codeWords : Int) ≤ z) :
    (.next (s.zhn p ps false f) : Res) = .next (s.progExc p 0x07 0) := by
  rw [zhn_of_jumps h, hf, State.zJump, if_pos hz]
  rfl

end

end Sys2Proof.Machine
end

section
open Sys2Proof Sys2Proof.Machine Sys2Proof.Safety

/-- Settles O15: a compare by its operands and its condition, and PLOG code by code. -/
theorem predicateResult : Obligations.PredicateResult := by
  unfold Obligations.PredicateResult
  intro s p ps pd pn pa pb ra rb imm hr a b sx x y both
  have apart (h : pd ≠ pn ∨ pd = 0) : pd.val ≠ pn.val ∨ pd.val = 0 := by omega
  refine ⟨fun c v hv hne => ?_, fun c h => next_exc hr (zCmp_illegal (by omega)), fun c v hv hne => ?_,
    fun h h' c => next_exc hr (zCmpi_illegal (by omega) (by omega)), next_goOn hr rfl, next_goOn hr rfl, ?_,
    next_goOn hr rfl, next_goOn hr rfl, next_goOn hr rfl, next_goOn hr rfl⟩
  · have hc : c.val ≤ 6 := Nat.le_of_lt_succ (List.getElem?_eq_some_iff.mp hv).1
    rw [cmpCond_eq a b hc] at hv
    obtain rfl := Option.some.inj hv
    exact next_goOn hr (zCmp_done hc (apart hne))
  · rw [cmpiCond_eq a imm (Nat.le_of_lt_succ c.isLt)] at hv
    obtain rfl := Option.some.inj hv
    exact next_goOn hr (zCmpi_done (apart hne))
  · exact next_goOn hr rfl

/-- Settles O16: every instruction is a jump to its target, by whether that lies in the code. -/
theorem branchResult : Obligations.BranchResult := by
  unfold Obligations.BranchResult
  intro s p ps off ra hj go out l cw
  refine ⟨fun n hn hcw => ⟨next_jump hj (zB_eq s p off) rfl hn.symm hcw, next_jump hj (zCall_eq s p off) rfl hn.symm hcw⟩,
    fun h => ⟨next_jump_range hj (zB_eq s p off) h, next_jump_range hj (zCall_eq s p off) h⟩,
    fun n hn => ⟨fun h => ?_, fun h => ?_⟩, fun n hn => ⟨fun h => ⟨?_, ?_⟩, fun h => ⟨?_, ?_⟩⟩⟩
  · exact next_jump hj rfl rfl (congrArg _ hn.symm) h
  · exact next_jump_range hj rfl (.inr (by omega))
  · exact next_jump hj rfl rfl (congrArg _ hn.symm) h
  · exact next_jump hj rfl rfl (congrArg _ hn.symm) h
  · exact next_jump_range hj rfl (.inr (by omega))
  · exact next_jump_range hj rfl (.inr (by omega))

end

section
/-! SUPPORT. The levels of dim codes (R109): L(c) by its two integer bounds, and the search for the nearest level. -/
namespace Sys2Proof.Machine
open Sys2Proof

/-- The search keeps `f` at its lower end and its negation at its upper end. -/
theorem searchMax_spec {f : Nat → Bool} {n lo : Nat} (h : f lo = true) (h' : f (lo + 2 ^ n) = false) :
    f (searchMax f n lo) = true ∧ f (searchMax f n lo + 1) = false ∧ lo ≤ searchMax f n lo := by
  induction n generalizing lo with
  | zero => exact ⟨h, h', le_rfl⟩
  | succ n ih =>
    rw [searchMax]
    by_cases hm : f (lo + 2 ^ n) = true
    · rw [if_pos hm]
      obtain ⟨at_, above, le⟩ := ih hm (by rwa [Nat.add_assoc, ← Nat.two_mul, ← Nat.pow_succ'])
      exact ⟨at_, above, (Nat.le_add_right ..).trans le⟩
    · rw [if_neg hm]
      exact ih h (Bool.not_eq_true _ ▸ hm)

/-! ## Levels -/

/-- The power in which R109's levels are compared. -/
def dimRaise (n : Nat) : Nat := n ^ 1022

theorem dimRaise_mono {m n : Nat} (h : m ≤ n) : dimRaise m ≤ dimRaise n := pow_le_pow_left' h 1022
theorem dimRaise_strict {m n : Nat} (h : m < n) : dimRaise m < dimRaise n :=
  pow_lt_pow_left₀ h (Nat.zero_le m) (by decide)
theorem lt_of_dimRaise_lt {m n : Nat} (h : dimRaise m < dimRaise n) : m < n :=
  lt_of_pow_lt_pow_left₀ 1022 (Nat.zero_le n) h
theorem dimRaise_mul (m n : Nat) : dimRaise (m * n) = dimRaise m * dimRaise n := by
  simp only [dimRaise, mul_pow]

/-- 2·L(c) raised lies next to this number. -/
def dimPower (c : Nat) : Nat := dimRaise 200 * 1000 ^ (c - 1)

theorem dimPower_mono {c d : Nat} (h : c ≤ d) : dimPower c ≤ dimPower d :=
  Nat.mul_le_mul_left _ (Nat.pow_le_pow_right (by decide) (by omega))

theorem dimPower_one : dimPower 1 = dimRaise 200 := by rw [dimPower, Nat.sub_self, Nat.pow_zero, Nat.mul_one]
theorem dimPower_last : dimPower (1022 + 1) = dimRaise (200 * 1000) := by
  rw [dimPower, Nat.add_sub_cancel, dimRaise_mul, dimRaise, dimRaise]

theorem dimL_zero : dimL 0 = 0 := rfl

theorem dimL_search {c : Nat} (h : c ≠ 0) :
    dimL c = searchMax (fun n => Nat.ble (dimRaise (2 * n - 1)) (dimPower c)) 17 100 := if_neg h

theorem dimL_bounds {c : Nat} (h : 1 ≤ c) (h' : c ≤ 1023) :
    dimRaise (2 * dimL c - 1) ≤ dimPower c ∧ dimPower c < dimRaise (2 * dimL c + 1) := by
  have start : dimRaise (2 * 100 - 1) ≤ dimPower c :=
    (dimRaise_mono (by decide)).trans (dimPower_one.ge.trans (dimPower_mono h))
  have stop : dimPower c < dimRaise (2 * (100 + 2 ^ 17) - 1) :=
    (dimPower_mono h').trans_lt (dimPower_last.trans_lt (dimRaise_strict (by decide)))
  obtain ⟨at_, above, -⟩ := searchMax_spec (f := fun n => Nat.ble (dimRaise (2 * n - 1)) (dimPower c)) (n := 17) (lo := 100)
    (Nat.ble_eq_true_of_le start) (Bool.eq_false_iff.mpr fun h => stop.not_ge (Nat.le_of_ble_eq_true h))
  rw [← dimL_search (by omega)] at at_ above
  refine ⟨Nat.le_of_ble_eq_true at_, Nat.lt_of_not_le fun h => ?_⟩
  exact absurd (above.symm.trans (Nat.ble_eq_true_of_le h)) (by decide)

/-- Bounds that overlap leave no other level. -/
theorem le_of_dimBounds {m n x y : Nat} (hm : dimRaise (2 * m - 1) ≤ x) (hxy : x ≤ y) (hn : y < dimRaise (2 * n + 1)) :
    m ≤ n := by
  have := lt_of_dimRaise_lt (hm.trans_lt (hxy.trans_lt hn))
  omega

theorem dimL_eq {c n : Nat} (h : 1 ≤ c) (h' : c ≤ 1023) (hlo : dimRaise (2 * n - 1) ≤ dimPower c)
    (hhi : dimPower c < dimRaise (2 * n + 1)) : dimL c = n := by
  obtain ⟨lo, hi⟩ := dimL_bounds h h'
  exact le_antisymm (le_of_dimBounds lo le_rfl hhi) (le_of_dimBounds hlo le_rfl hi)

theorem dimL_mono {c d : Nat} (h : c ≤ d) (hd : d ≤ 1023) : dimL c ≤ dimL d := by
  rcases Nat.eq_zero_or_pos c with rfl | hc
  · exact Nat.zero_le _
  · exact le_of_dimBounds (dimL_bounds hc (h.trans hd)).1 (dimPower_mono h) (dimL_bounds (hc.trans_le h) hd).2

theorem dimL_one : dimL 1 = 100 :=
  dimL_eq le_rfl (by decide) ((dimRaise_mono (by decide)).trans dimPower_one.ge)
    (dimPower_one.trans_lt (dimRaise_strict (by decide)))

theorem dimL_last : dimL 1023 = 100000 :=
  dimL_eq (by decide) le_rfl ((dimRaise_mono (by decide)).trans dimPower_last.ge)
    (dimPower_last.trans_lt (dimRaise_strict (by decide)))

/-! The levels about 40 %. -/

theorem dimL_887 : dimL 887 = 39883 := dimL_eq (by decide) (by decide) (by decide +kernel) (by decide +kernel)
theorem dimL_888 : dimL 888 = 40153 := dimL_eq (by decide) (by decide) (by decide +kernel) (by decide +kernel)

/-! ## The nearest level -/

/-- The highest code whose level is at most `v`. -/
theorem dimBelow_spec (v : Nat) :
    dimBelow v ≤ 1023 ∧ dimL (dimBelow v) ≤ v ∧ ∀ k, k ≤ 1023 → dimL k ≤ v → k ≤ dimBelow v := by
  obtain ⟨at_, above, -⟩ := searchMax_spec (f := fun c => decide (c ≤ 1023) && decide (dimL c ≤ v)) (n := 10) (lo := 0)
    (by simp [dimL_zero]) (by simp)
  rw [← dimBelow] at at_ above
  simp only [Bool.and_eq_true, Bool.and_eq_false_iff, decide_eq_true_eq, decide_eq_false_iff_not] at at_ above
  refine ⟨at_.1, at_.2, fun k hk hkv => Nat.le_of_not_lt fun hlt => ?_⟩
  have : dimL (dimBelow v + 1) ≤ dimL k := dimL_mono hlt hk
  omega

theorem dimP2c_nonpos {v : Int} (h : v ≤ 0) : dimP2c v = 0 := if_pos h

theorem dimP2c_full {v : Int} (h : 100000 ≤ v) : dimP2c v = 1023 := by rw [dimP2c, if_neg (by omega), if_pos h]

theorem dimP2c_between {a : Nat} (h : 0 < a) (h' : a < 100000) :
    dimP2c a = if dimL (dimBelow a + 1) - a ≤ a - dimL (dimBelow a) then dimBelow (dimL (dimBelow a + 1)) else dimBelow a := by
  rw [dimP2c, if_neg (by omega), if_neg (by omega), Int.toNat_natCast]

/-- Between the lowest and the highest level: the level of the code is nearest, and no higher code is as near. -/
theorem dimP2c_nearest {a : Nat} (h : 0 < a) (h' : a < 100000) : dimP2c a ≤ 1023 ∧ ∀ k, k ≤ 1023 →
    ((a : Int) - dimL (dimP2c a)).natAbs ≤ ((a : Int) - dimL k).natAbs ∧
    (((a : Int) - dimL (dimP2c a)).natAbs = ((a : Int) - dimL k).natAbs → k ≤ dimP2c a) := by
  rw [dimP2c_between h h']
  obtain ⟨hlo, hle, hmax⟩ := dimBelow_spec a
  generalize dimBelow a = lo at *
  have hlt : lo < 1023 := by
    refine lt_of_le_of_ne hlo fun e => ?_
    rw [e, dimL_last] at hle
    omega
  have hup : a < dimL (lo + 1) := Nat.lt_of_not_le fun hn => by
    have := hmax (lo + 1) hlt hn
    omega
  have below {k : Nat} (hk : k ≤ lo) : dimL k ≤ dimL lo := dimL_mono hk hlo
  have above {k : Nat} (hk : lo < k) (hk' : k ≤ 1023) : dimL (lo + 1) ≤ dimL k := dimL_mono hk hk'
  split
  next near =>
    obtain ⟨hp, hpl, hpmax⟩ := dimBelow_spec (dimL (lo + 1))
    have hpu := above (hpmax (lo + 1) hlt le_rfl) hp
    refine ⟨hp, fun k hk => ?_⟩
    rcases Nat.lt_or_ge lo k with hkl | hkl
    · have hku := above hkl hk
      exact ⟨by omega, fun e => hpmax k hk (by omega)⟩
    · have hkl' := below hkl
      have := hpmax (lo + 1) hlt le_rfl
      omega
  next far =>
    refine ⟨hlo, fun k hk => ?_⟩
    rcases Nat.lt_or_ge lo k with hkl | hkl
    · have := above hkl hk
      omega
    · have := below hkl
      omega

/-- The code of 40 %. -/
theorem dimP2c_40000 : dimP2c 40000 = 887 := by
  obtain ⟨hlo, hle, hmax⟩ := dimBelow_spec 40000
  have below : dimBelow 40000 = 887 := by
    refine le_antisymm (Nat.le_of_not_lt fun hlt => ?_) (hmax 887 (by decide) (by rw [dimL_887]; decide))
    have := dimL_mono hlt hlo
    rw [dimL_888] at this
    omega
  refine (dimP2c_between (a := 40000) (by decide) (by decide)).trans ?_
  rw [below, dimL_887, dimL_888]
  rfl

end Sys2Proof.Machine
end

section
open Sys2Proof Sys2Proof.Machine Sys2Proof.Safety

/-- Settles O25: C2P by its range, and P2C by the search between two neighbouring levels. -/
theorem dimCodes : Obligations.DimCodes := by
  unfold Obligations.DimCodes
  refine ⟨fun s p ps rd ra hr => ⟨fun h => ?_, fun h => ?_, next_goOn hr rfl⟩, dimL_zero, dimL_one, dimL_last, dimL_887,
    dimL_888, fun c h h' => dimL_bounds h h', fun v h h' => ?_, fun v h => dimP2c_nonpos h, fun v h => dimP2c_full h,
    dimP2c_40000⟩
  · exact next_goOn hr (if_neg (by omega))
  · exact next_exc hr (if_pos h)
  · obtain ⟨a, rfl⟩ := Int.eq_ofNat_of_zero_le h.le
    exact dimP2c_nearest (by omega) (by omega)

end

section
/-! SUPPORT. Requests that read or set up (R166, R171, R173, R174): the tests that refuse one, in their order, and what the handle of an
accepted one completes with. -/
namespace Sys2Proof.Machine
open Sys2Proof Sys2Proof.Safety

/-! ## What the tests find on a session that is heard -/

section
variable {s : State} {n : Nat} {lighting bad : Bool}

theorem State.reqTest_control (ho : (s.sess n).isOpen = true) : (s.heard n).reqTest n true lighting bad =
    if !(s.sess n).control then some fsNotPermitted
    else if s.role == roleStandby || s.role == roleClaiming then some fsStandby
    else if lighting && s.role == roleFenced then some fsFenced
    else if bad then some fsBadRequest
    else none := by
  simp only [State.reqTest, State.sess_heard ho, State.role_heard, State.fenced, Bool.true_and]

variable (ho : (s.sess n).isOpen = true)
include ho

theorem State.reqTest_noRights (hc : (s.sess n).control = false) :
    (s.heard n).reqTest n true lighting bad = some fsNotPermitted := by
  rw [State.reqTest_control ho]
  exact if_pos (by rw [hc]; rfl)

variable (hc : (s.sess n).control = true)
include hc

theorem State.reqTest_standby (hr : s.role = roleStandby ∨ s.role = roleClaiming) :
    (s.heard n).reqTest n true lighting bad = some fsStandby := by
  rw [State.reqTest_control ho, if_neg (by simp [hc])]
  exact if_pos (by simpa using hr)

theorem State.reqTest_fenced (hr : s.role = roleFenced) : (s.heard n).reqTest n true true bad = some fsFenced := by
  rw [State.reqTest_control ho, if_neg (by simp [hc]), if_neg (by rw [hr]; decide)]
  exact if_pos (by simp [hr])

end

/-! ## The way of a request, by the test that refuses it -/

section
variable {s : State} {n : Nat} {tag : Word} {control lighting bad : Bool} {err : State → Option Nat} {k : Nat → State → State}

theorem State.request_refused {e : Nat} (h : mayAsk s n false false)
    (he : (s.heard n).reqTest n control lighting bad = some e) :
    s.request n tag control lighting bad err k = refused s n tag e := by
  rw [State.request, State.onSession_open h]
  simp only [he]
  rfl

variable (h : mayAsk s n control lighting) (hb : bad = false)
include h hb

theorem State.request_badBody {e : Nat} (he : err (s.heard n) = some e) :
    s.request n tag control lighting bad err k = refused s n tag e := by
  subst hb
  rw [State.request, State.onSession_open h]
  simp only [State.reqTest_none h, he]
  rfl

theorem State.request_noSlot {a : Alloc} (he : err (s.heard n) = none) (ha : s.allocTest (.session n) = a)
    (hno : ∀ i, a ≠ .slot i) :
    s.request n tag control lighting bad err k = ((s.heard n).allocFail a).refuse n tag a.status := by
  subst hb
  have alloc : (s.heard n).allocTest (.session n) = a := (State.allocTest_congr (s.heard_hnd n) (s.heard_regs n) _).trans ha
  rw [State.request, State.onSession_open h]
  cases a with
  | slot i => exact absurd rfl (hno i)
  | quota => simp only [State.reqTest_none h, he, alloc]
  | noHandle => simp only [State.reqTest_none h, he, alloc]

/-- `State.request_accepted` where the test of the body's form is still to be evaluated. -/
theorem State.request_taken {i : Nat} (he : err (s.heard n) = none) (ha : s.allocTest (.session n) = .slot i) :
    s.request n tag control lighting bad err k = k i (accepted s n tag i) := by
  subst hb
  exact State.request_accepted h he ha

end

/-! ## The commands that GET_INFO's row carries -/

theorem exec_getInfo_listed {s : State} {n : Fin 16} {tag : Word} {form : InfoForm} (h : form ≠ .unlisted) :
    exec (.getInfo n tag form) s =
      .next (s.request n tag false false (form = .malformed) (fun _ => none) (fun i s => s.finishData i s.info)) :=
  congrArg Host.Outcome.next (if_neg h)

theorem exec_getInfo_unlisted (s : State) (n : Fin 16) (tag : Word) :
    exec (.getInfo n tag .unlisted) s = .next (s.onSession n (·.refuse n tag fsUnknownOp)) :=
  congrArg Host.Outcome.next (if_pos rfl)

/-! ## What an accepted request works on -/

theorem State.sess_modSess {s : State} {n : Nat} {f : Session → Session} (h : (s.sess n).isOpen = true) :
    (s.modSess n f).sess n = f (s.sess n) := by
  rw [State.modSess, if_pos h]
  exact sget_sset_same ..

theorem sess_accepted {s : State} {n i : Nat} {tag : Word} (h : (s.sess n).isOpen = true) :
    (accepted s n tag i).sess n = { s.sess n with pinged := false } := State.sess_heard h

theorem f_accepted (s : State) (n i : Nat) (tag : Word) (x : Fld) : (accepted s n tag i).f x = s.f x := by
  have regs : (accepted s n tag i).regs = s.regs := s.heard_regs n
  rw [State.f, State.rd, regs]
  rfl

theorem State.handleOpen_heard (s : State) (n : Nat) (h : Word) : (s.heard n).handleOpen h = s.handleOpen h :=
  State.handleOpen_congr (s.heard_hnd n) h

/-- READ_REGS reads as many words as it is asked for. -/
theorem State.readRegs_length (c a : Nat) (s : State) : (State.readRegs a c s).1.length = c := by
  induction c generalizing a s with
  | zero => rfl
  | succ c ih => exact congrArg (· + 1) (ih ..)

/-- A quota that fits its field reads back. -/
theorem State.quota_setF (s : State) (m : Nat) {q : Nat} (h : q ≤ 131072) :
    (s.setF (R.HND_SESS_QUOTA.QUOTA m) q).f (R.HND_SESS_QUOTA.QUOTA m) = q :=
  s.f_setF_fit (x := R.HND_SESS_QUOTA.QUOTA m) (show 0 + 18 ≤ 32 by decide) (show q < 2 ^ 18 by omega)

theorem hstCode_of_mem {st : HSt} {c : Nat} (h : (st, c) ∈ [(HSt.placed, 1), (.awaiting, 2), (.held, 3), (.completing, 4)]) :
    hstCode st = c := by
  simp only [List.mem_cons, List.not_mem_nil, or_false, Prod.mk.injEq] at h
  obtain ⟨rfl, rfl⟩ | ⟨rfl, rfl⟩ | ⟨rfl, rfl⟩ | ⟨rfl, rfl⟩ := h <;> rfl

end Sys2Proof.Machine
end

section
open Sys2Proof Sys2Proof.Machine Sys2Proof.Safety

/-- Settles O33: each request by its way through the tests, and what its handle completes with. -/
theorem requestCommands : Obligations.RequestCommands := by
  unfold Obligations.RequestCommands
  refine ⟨fun s n tag i ha hask => ?_, fun s n tag i ha hask m q hm hq => ?_, fun s n tag i ha hask l kind p5 p6 p7 hl hlo hhi => ?_,
    fun s n tag hask => ?_⟩
  · intro u
    have hopen : (s.sess n).isOpen = true := hask.1
    refine ⟨?_, fun a c h0 h1 hlo hhi => ?_, fun off len ho hl h0 h1 hin => ?_, ?_, ?_, fun h st c hmem hh hst => ?_, fun m hm => ?_⟩
    · exact (exec_getInfo_listed (by decide)).trans (congrArg Host.Outcome.next (State.request_accepted hask rfl ha))
    · exact ⟨_, congrArg Host.Outcome.next (State.request_taken hask (by simp; omega) (if_pos ⟨hlo, hhi⟩) ha),
        State.readRegs_length .., rfl⟩
    · exact congrArg Host.Outcome.next (State.request_taken hask (by simp [hl]; omega) (if_pos ⟨ho, hin⟩) ha)
    · exact congrArg Host.Outcome.next (State.request_accepted hask rfl ha)
    · exact congrArg Host.Outcome.next (State.request_accepted hask rfl ha)
    · rw [← hstCode_of_mem hmem, ← hst]
      exact congrArg Host.Outcome.next (State.request_taken hask rfl (if_pos ((s.handleOpen_heard n h).trans hh)) ha)
    · have session : u.sess n = { s.sess n with pinged := false } := sess_accepted hopen
      refine ⟨_, congrArg Host.Outcome.next (State.request_taken hask (by simp; omega) rfl ha), ?_⟩
      obtain ⟨st, -, result⟩ := (u.modSess n (fun x => { x with mask := m })).hslot_finish i fsOk (u.sess n).mask []
      exact ⟨congrArg (·.mask) (State.sess_modSess (by rw [session]; exact hopen)), st,
        result.trans (congrArg (·.mask) session)⟩
  · refine ⟨_, congrArg Host.Outcome.next (State.request_taken hask rfl (if_pos ⟨hm, hq⟩) ha), ?_⟩
    obtain ⟨-, status, result⟩ := State.hslot_finish ((accepted s n tag i).setF (R.HND_SESS_QUOTA.QUOTA m.toNat) q.toNat) i fsOk
      (w32 ((accepted s n tag i).f (R.HND_SESS_QUOTA.QUOTA m.toNat))) []
    exact ⟨State.quota_setF _ _ hq, result.trans (congrArg w32 (f_accepted ..)), status⟩
  · exact congrArg Host.Outcome.next (State.request_taken hask (by simp; omega) (if_pos hl) ha)
  · have hopen : (s.sess n).isOpen = true := hask.1
    refine ⟨?_, ?_, fun ha => ?_, fun ha => ?_, fun a c h0 h1 hlo => ?_, fun h hh => ?_, fun hc m q => ?_, fun hc hr m q => ?_,
      fun hc hr l kind a b c => ?_⟩
    · exact (exec_getInfo_listed (by decide)).trans (congrArg Host.Outcome.next (State.request_refused hask rfl))
    · exact (exec_getInfo_unlisted s n tag).trans (congrArg Host.Outcome.next (State.onSession_open hask))
    · exact (exec_getInfo_listed (by decide)).trans (congrArg Host.Outcome.next (State.request_noSlot hask rfl rfl ha (by simp)))
    · exact (exec_getInfo_listed (by decide)).trans (congrArg Host.Outcome.next (State.request_noSlot hask rfl rfl ha (by simp)))
    · have below : ¬ (0x10000000 ≤ (a.setWidth 64).toNat ∧ (a.setWidth 64).toNat + 4 * c.toNat ≤ 0x100000000) := by
        rw [BitVec.toNat_setWidth_of_le (by decide)]
        omega
      exact congrArg Host.Outcome.next (State.request_badBody hask (by simp; omega) (if_neg below))
    · have stale : ¬ (s.heard n).handleOpen h = true := by rw [State.handleOpen_heard, hh]; decide
      exact congrArg Host.Outcome.next (State.request_badBody hask rfl (if_neg stale))
    · exact congrArg Host.Outcome.next (State.request_refused hask (State.reqTest_noRights hopen hc))
    · exact congrArg Host.Outcome.next (State.request_refused hask (State.reqTest_standby hopen hc hr))
    · exact congrArg Host.Outcome.next (State.request_refused hask (State.reqTest_fenced hopen hc hr))

end

section
/-! SUPPORT. A recovery poll that completes once its storm is over (R170, R186, R191): its slot is freed, and STORM_LEFT counts the
polls anew. -/
namespace Sys2Proof.Machine
open Sys2Proof

theorem State.freeSlot_regs (s : State) (i : Nat) : (s.freeSlot i).regs = s.regs := by
  have cleared (c : Prop) [Decidable c] (v : Nat) : (if c then s.setEp (s.hslot i).ep EP.HANDLE v else s).regs = s.regs :=
    keeps_ite (s.setEp_regs ..) rfl
  exact cleared ..

theorem State.deliver_module {s : State} {i : Nat} (hst : (s.hslot i).st = .completing) (ho : (s.hslot i).owner = .module)
    (hs : (s.freeSlot i).stormState ≠ stormRecovering) : s.deliver i = (s.freeSlot i).stormLeft := by
  rw [State.deliver, if_pos hst, ho]
  exact if_neg (by simpa using hs)

/-- LEFT shows the polls on the list and those in flight (R191). -/
theorem State.f_stormLeft (s : State) : s.stormLeft.f R.STORM_STATUS.LEFT = (s.storm.list.length + s.pollsOut) % 2 ^ 18 :=
  s.f_setF_same R.STORM_STATUS.LEFT _ (by decide)

/-- The storm procedure was stopped with one poll in flight, to which the reply has now come. -/
def pollOutlivesStorm : State :=
  (State.reset.setHslot 0 { Handle.fresh with st := .awaiting, owner := .module }).stormStop.complete 0 fsOk 0

theorem pollOutlivesStorm_slot : (pollOutlivesStorm.hslot 0).st = .completing ∧ (pollOutlivesStorm.hslot 0).owner = .module ∧
    pollOutlivesStorm.stormState ≠ stormRecovering := by decide +kernel

/-- The stop counted the poll as not completed; once its slot is freed no poll is left. -/
theorem pollOutlivesStorm_left : pollOutlivesStorm.f R.STORM_STATUS.LEFT = 1 ∧
    (pollOutlivesStorm.freeSlot 0).storm.list = [] ∧ (pollOutlivesStorm.freeSlot 0).pollsOut = 0 := by decide +kernel

end Sys2Proof.Machine
end

section
open Sys2Proof Sys2Proof.Machine

/-- Refutes O31: a completion of the module's own outside RECOVERING does more than free its slot. It also counts STORM_LEFT anew,
which goes from 1 to 0 when the last poll of a stopped storm completes. -/
theorem not_handleEnd : ¬ Obligations.HandleEnd := by
  unfold Obligations.HandleEnd
  rintro ⟨-, -, -, -, modules, -⟩
  let s := pollOutlivesStorm
  obtain ⟨hst, ho, hs⟩ := pollOutlivesStorm_slot
  obtain ⟨hleft, hlist, hpolls⟩ := pollOutlivesStorm_left
  have freed (x : Fld) : (s.freeSlot 0).f x = s.f x := by rw [State.f_eq, State.freeSlot_regs, ← State.f_eq]
  have recounts : s.deliver 0 = (s.freeSlot 0).stormLeft := State.deliver_module hst ho (by rw [State.stormState, freed]; exact hs)
  have same : (s.freeSlot 0).stormLeft = s.freeSlot 0 := recounts.symm.trans (Host.Outcome.next.inj (modules s 0 hst ho hs))
  have : 0 = 1 := calc
    0 = (s.freeSlot 0).stormLeft.f R.STORM_STATUS.LEFT := by rw [State.f_stormLeft, hlist, hpolls]; rfl
    _ = (s.freeSlot 0).f R.STORM_STATUS.LEFT := by rw [same]
    _ = 1 := (freed _).trans hleft
  omega

end

section
/-! SUPPORT. What a frame's admission to the fabric writes (R196, R231–R239): the fabric's own part of the state, and counters and
accounts of FAB. What a ring's frame of the module writes beside that (R270): the ring's number. -/
namespace Sys2Proof.Machine
open Sys2Proof

theorem admitCount_blk {p : Nat} {a : Admit} {c : Fld} (h : admitCount p a = some c) : c.blk = .fab := by
  cases a with
  | yes => cases h
  | marked => cases h
  | quota => obtain rfl := Option.some.inj h; rfl
  | voq => obtain rfl := Option.some.inj h; rfl
  | pool => obtain rfl := Option.some.inj h; rfl
  | dt => obtain rfl := Option.some.inj h; rfl

section
variable {β : Type} {g : State → β} (hfab : ∀ (s : State) f, g (s.modFab f) = g s)
include hfab

theorem State.freshTake_keeps (p n : Nat) (s : State) : g (State.freshTake p n s).2 = g s := by
  induction n generalizing s with
  | zero => rfl
  | succ n ih =>
    unfold State.freshTake
    dsimp only
    split
    · rfl
    · have fresh : g (s.setFresh p (s.freshFrom p + 1)) = g s := hfab ..
      split
      · exact (ih _).trans fresh
      · split
        · exact (ih _).trans ((hfab ..).trans fresh)
        · exact fresh

theorem State.cellTake_keeps (s : State) (p : Nat) (o : CellOwner) : g (s.cellTake p o).2 = g s := by
  have take := State.freshTake_keeps hfab p plotCells s
  have tag (t : State) (i : Nat) (x : CellTag) : g (t.setCellTag p i x) = g t := hfab ..
  have freed (t : State) (l : List Nat) : g (t.setFreed p l) = g t := hfab ..
  unfold State.cellTake
  dsimp only
  split
  · exact (tag ..).trans take
  · split
    · exact (tag ..).trans ((freed ..).trans take)
    · exact take

theorem State.cellsTake_keeps (p : Nat) (o : CellOwner) (n : Nat) (s : State) : g (State.cellsTake p o n s).2 = g s := by
  induction n generalizing s with
  | zero => rfl
  | succ n ih => exact (ih _).trans (State.cellTake_keeps hfab s p o)

variable (hset : ∀ (s : State) x v, x.blk = .fab → g (s.setF x v) = g s)
include hset

theorem State.storeFrame_keeps (s : State) (x : FabFrame) (parts : List VoqPart) : g (s.storeFrame x parts) = g s := by
  have frame (t : State) (i : Nat) (y : Option FabFrame) : g (t.setFrame i y) = g t := hfab ..
  have charge : g (s.acctCharge (plotOf x.node) x.acct x.cells) = g s := hset _ _ _ rfl
  unfold State.storeFrame
  dsimp only
  rw [hfab, frame, State.cellsTake_keeps hfab, charge]

theorem State.enqueue_keeps (s : State) (node : Nat) (f : Frame) (r : Route) (m : Mark) : g (s.enqueue node f r m) = g s := by
  have bad (t : State) (p : Nat) : g (t.badFrame p f) = g t := keeps_ite (hset _ _ _ rfl) (keeps_ite (hset _ _ _ rfl) rfl)
  unfold State.enqueue
  extract_lets _ _ _ _ _ _ _ s₁ s₂ _ s₃
  have h₁ : g s₁ = g s := keeps_ite (hset _ _ _ rfl) rfl
  have h₂ : g s₂ = g s := keeps_ite ((hset _ _ _ rfl).trans h₁) h₁
  have h₃ : g s₃ = g s := keeps_ite ((hset _ _ _ rfl).trans h₂) h₂
  refine keeps_ite (bad ..) ?_
  split
  next c hc => exact (hset _ _ _ rfl).trans (hset _ _ _ (admitCount_blk hc))
  next => exact keeps_ite ((bad ..).trans h₂) ((State.storeFrame_keeps hfab hset ..).trans h₃)

theorem State.ringSend_keeps {k : Nat} (hseq : ∀ (s : State) v, g (s.setF (R.RING_SEQ.SEQ k) v) = g s) (s : State) (dst : Mac)
    (b : CmdBody) (sown : Bool) : g (s.ringSend k dst b sown) = g s :=
  keeps_ite ((State.enqueue_keeps hfab hset ..).trans (hseq ..)) rfl

end

/-! ## A body of the module's own, sown on a ring -/

section
variable {s : State} {k : Nat} {b : CmdBody}

theorem State.ringSend_off {dst : Mac} {sown : Bool} (h : s.ringOn k = false) : s.ringSend k dst b sown = s :=
  if_neg (by rw [h]; decide)

/-- The frame enters at the plot of PORT_A, for both ports and under the ring's number, which advances. -/
theorem State.ringSend_sown (h : s.ringOn k = true) : s.ringSend k macAll b true =
    (s.setF (R.RING_SEQ.SEQ k) (s.f (R.RING_SEQ.SEQ k) + 1)).enqueue (256 + plotOf (s.ringA k)) (s.fieldFrameOf macAll b)
      ⟨6, none, [], [s.ringA k, s.ringB k], true, [(k, s.f (R.RING_SEQ.SEQ k))], false⟩ Mark.none := by
  let q := s.f (R.RING_SEQ.SEQ k)
  have sent : s.ringSend k macAll b true = (s.setF (R.RING_SEQ.SEQ k) (q + 1)).ringFrame k macAll b q true none := if_pos h
  rw [sent, State.ringFrame, s.fieldFrameOf_setSeq k (q + 1), s.ringA_setSeq k (q + 1), s.ringB_setSeq k (q + 1)]
  rfl

theorem State.f_setF_blk (s : State) {x y : Fld} (v : Nat) (h : x.blk ≠ y.blk) : (s.setF x v).f y = s.f y :=
  congrArg (getBits · y.lsb y.width) (s.rd_setF_ne x v (.inl h))

/-- The fabric's counters are not the rings' registers. -/
theorem State.f_ring_fab {x y : Fld} (hy : y.blk = .ring) (s : State) (v : Nat) (hx : x.blk = .fab) : (s.setF x v).f y = s.f y :=
  s.f_setF_blk v (by rw [hx, hy]; decide)

theorem State.seq_ringSend_same (s : State) (k : Nat) (b : CmdBody) : (s.ringSend k macAll b true).f (R.RING_SEQ.SEQ k) =
    if s.ringOn k = true then (s.f (R.RING_SEQ.SEQ k) + 1) % 65536 else s.f (R.RING_SEQ.SEQ k) := by
  cases h : s.ringOn k with
  | false => rw [State.ringSend_off h, if_neg (by decide)]
  | true =>
    rw [State.ringSend_sown h, if_pos rfl]
    exact (State.enqueue_keeps (g := (·.f (R.RING_SEQ.SEQ k))) (fun _ _ => rfl) (fun s _ v => s.f_ring_fab rfl v) ..).trans
      (s.f_setF_same (R.RING_SEQ.SEQ k) _ (show 0 + 16 ≤ 32 by decide))

theorem State.seq_ringSend_ne (s : State) (b : CmdBody) {j : Nat} (h : j ≠ k) :
    (s.ringSend j macAll b true).f (R.RING_SEQ.SEQ k) = s.f (R.RING_SEQ.SEQ k) :=
  State.ringSend_keeps (g := (·.f (R.RING_SEQ.SEQ k))) (fun _ _ => rfl) (fun s _ v => s.f_ring_fab rfl v)
    (fun s v => s.f_setF_ne _ _ v (show 0 + 16 ≤ 32 by decide) (.inr (.inl (by simp only [R.RING_SEQ.SEQ]; omega)))) s _ b true

theorem State.ringOn_ringSend (s : State) (b : CmdBody) (j : Nat) : (s.ringSend j macAll b true).ringOn k = s.ringOn k :=
  State.ringSend_keeps (g := (·.ringOn k)) (fun _ _ => rfl) (fun s _ v h => congrArg (· != 0) (s.f_ring_fab rfl v h))
    (fun s v => s.on_setSeq_ne j v fun _ => by simp only [R.RING_CFG.EN]; omega) s _ b true

end

/-! ## The frame of a body (R116, R567) -/

theorem CmdBody.length_bytes (b : CmdBody) : b.bytes.length = 32 + b.payload.length := by
  simp only [CmdBody.bytes, List.length_append, List.length_cons, List.length_nil, leBytes_length]

/-- The body of the frame is that of the command, with zeros behind it. -/
theorem padTo_take_drop (n : Nat) (l : List Byte) : (padTo n l).take l.length = l ∧ ∀ x ∈ (padTo n l).drop l.length, x = 0 := by
  rw [padTo, List.take_left, List.drop_left]
  exact ⟨rfl, fun x hx => List.eq_of_mem_replicate hx⟩

end Sys2Proof.Machine
end

section
/-! SUPPORT. A body that goes to every endpoint (R186, R334, R437, R448): to every ring, CAN channel and transceiver in turn, each of
which is served once and left alone by the others. -/
namespace Sys2Proof.Machine
open Sys2Proof

/-! ## Folds over indices that each have a part of the state -/

theorem foldS_keeps_mem {α β : Type} {f : State → β} {g : α → State → State} {l : List α} (h : ∀ x ∈ l, ∀ s, f (g x s) = f s) (s : State) :
    f (foldS l g s) = f s := by
  unfold foldS
  induction l generalizing s with
  | nil => rfl
  | cons x l ih =>
    rw [List.foldl_cons, ih fun y hy => h y (List.mem_cons_of_mem x hy), h x List.mem_cons_self]

/-- What the other indices keep comes to index `k` as it was, and stays as `k` leaves it. -/
theorem foldS_at {α : Type} {g : α → State → State} {k : α} {l : List α} (hl : l.Nodup) (hk : k ∈ l) (s : State) :
    ∃ u : State, ∀ {β : Type} (f : State → β), (∀ j ≠ k, ∀ s, f (g j s) = f s) →
      f u = f s ∧ f (foldS l g s) = f (g k u) := by
  obtain ⟨before, after, rfl⟩ := List.append_of_mem hk
  rw [List.nodup_append] at hl
  obtain ⟨-, hafter, hne⟩ := hl
  refine ⟨foldS before g s, fun f hf => ⟨?_, ?_⟩⟩
  · exact foldS_keeps_mem (fun j hj => hf j (hne j hj k List.mem_cons_self)) s
  · rw [foldS, List.foldl_append, List.foldl_cons]
    exact foldS_keeps_mem (fun j hj => hf j fun h => (List.nodup_cons.1 hafter).1 (h ▸ hj)) _

/-! ## The three parts of a broadcast -/

/-- The body is sown on every ring. -/
def State.toRings (s : State) (b : CmdBody) : State := foldS (List.range 128) (fun k s => s.ringSend k macAll b true) s
/-- The CAN channels that carry field frames. -/
def State.fieldChannels (s : State) : List Nat :=
  (List.range 8).filter (fun c => s.on (R.CAN_CFG.EN c) && s.on (R.CAN_CFG.FIELD_EN c))
/-- The body goes to those channels. -/
def State.toChannels (s : State) (b : CmdBody) : State := foldS s.fieldChannels (fun c s => s.canBroadcast c b) s
/-- A frame goes to the transceivers that may transmit. -/
def State.toRadios (s : State) (x : RadTx) : State := foldS ((List.range 4).filter s.radAble) (fun j s => s.radUrgent j x) s

theorem State.broadcast_eq (s : State) {b : CmdBody} (h : b.code ≠ ccPoll) : s.broadcast b =
    ((s.toRings b).toChannels b).toRadios ⟨some b, 0xFFFF, 1, 0, none, true, false, none, none⟩ := by
  unfold State.broadcast
  dsimp only
  rw [if_neg h]
  rfl

section
variable {β : Type} {g : State → β} (s : State) (b : CmdBody)

theorem State.toRings_keeps (hfab : ∀ (s : State) f, g (s.modFab f) = g s)
    (hset : ∀ (s : State) x v, x.blk = .fab ∨ x.blk = .ring → g (s.setF x v) = g s) : g (s.toRings b) = g s :=
  foldS_keeps g _ (fun _ t => State.ringSend_keeps hfab (fun _ _ _ h => hset _ _ _ (.inl h)) (fun _ _ => hset _ _ _ (.inr rfl)) t ..) _ s

theorem State.canBroadcast_keeps (hcan : ∀ (s : State) f, g { s with can := f } = g s) (c : Nat) : g (s.canBroadcast c b) = g s :=
  keeps_ite ((hcan ..).trans (hcan ..)) rfl

theorem State.toChannels_keeps (hcan : ∀ (s : State) f, g { s with can := f } = g s) : g (s.toChannels b) = g s :=
  foldS_keeps g _ (fun c t => t.canBroadcast_keeps b hcan c) _ s

theorem State.toRadios_keeps (hrad : ∀ (s : State) f, g { s with rad := f } = g s) (x : RadTx) : g (s.toRadios x) = g s :=
  foldS_keeps g _ (fun _ _ => hrad ..) _ s

end

/-! ## Rings -/

/-- Each enabled ring's number advances by one. -/
theorem State.seq_toRings (s : State) (b : CmdBody) {k : Nat} (hk : k < 128) : (s.toRings b).f (R.RING_SEQ.SEQ k) =
    if s.ringOn k = true then (s.f (R.RING_SEQ.SEQ k) + 1) % 65536 else s.f (R.RING_SEQ.SEQ k) := by
  obtain ⟨u, hu⟩ := foldS_at (g := fun k s => s.ringSend k macAll b true) List.nodup_range (List.mem_range.2 hk) s
  obtain ⟨hseq, hlast⟩ := hu (·.f (R.RING_SEQ.SEQ k)) fun j hj t => t.seq_ringSend_ne b hj
  obtain ⟨hon, -⟩ := hu (·.ringOn k) fun j _ t => t.ringOn_ringSend b j
  rw [← hseq, ← hon]
  exact hlast.trans (u.seq_ringSend_same k b)

theorem State.f_toRings (s : State) (b : CmdBody) {x : Fld} (hf : x.blk ≠ .fab) (hr : x.blk ≠ .ring) : (s.toRings b).f x = s.f x :=
  s.toRings_keeps (g := (·.f x)) b (fun _ _ => rfl) fun s _ v h => s.f_setF_blk v fun e => h.elim (fun h => hf (e ▸ h)) fun h => hr (e ▸ h)

/-! ## CAN channels -/

theorem State.canAt_setCan (s : State) (c d : Nat) (x : Can) : (s.setCan c x).canAt d = if d = c then x else s.canAt d := sget_sset ..

/-- A frame that a channel's field queue takes waits behind the others. -/
theorem State.canAt_canOwn_room {s : State} {c : Nat} {f : CanFrame} (h : (s.canField c).length < 64) :
    (s.canOwn c f).canAt c = { s.canAt c with pend := (s.canAt c).pend ++ [⟨f, none, s.can.orders, 0⟩] } := by
  have taken : s.canOwn c f = s.canPush c f none := if_pos (decide_eq_true h)
  rw [taken]
  exact (s.canAt_setCan ..).trans (if_pos rfl)

theorem State.canOwn_full {s : State} {c : Nat} {f : CanFrame} (h : ¬ (s.canField c).length < 64) : s.canOwn c f = s :=
  if_neg (by rw [State.canRoom, decide_eq_false h]; decide)

theorem State.canAt_canBroadcast_ne (s : State) (b : CmdBody) {c d : Nat} (h : d ≠ c) : (s.canBroadcast d b).canAt c = s.canAt c :=
  keeps_ite (g := (·.canAt c)) ((s.canAt_setCan d c _).trans (if_neg h.symm)) rfl

theorem State.canFrameOf_congr {s t : State} (h : t.regs = s.regs) (c : Nat) (b : CmdBody) (node sub : Nat) (all : Bool) :
    t.canFrameOf c b node sub all = s.canFrameOf c b node sub all := by
  simp only [State.canFrameOf, State.f, State.rd, h]

/-- A channel without a place, or one that carries no field frames, stays as it is. -/
theorem State.canAt_toChannels_none {s : State} {b : CmdBody} {c : Nat}
    (h : ¬ (c ∈ s.fieldChannels ∧ (s.canField c).length < 64)) : (s.toChannels b).canAt c = s.canAt c := by
  by_cases hc : c ∈ s.fieldChannels
  · obtain ⟨u, hu⟩ := foldS_at (g := fun c s => s.canBroadcast c b) (List.nodup_range.filter _) hc s
    obtain ⟨hat, hlast⟩ := hu (·.canAt c) fun j hj t => t.canAt_canBroadcast_ne b hj
    have full : ¬ (u.canField c).length < 64 := by
      rw [State.canField, hat]
      exact fun hroom => h ⟨hc, hroom⟩
    have stays : u.canBroadcast c b = u := State.canOwn_full full
    exact (hlast.trans (congrArg (·.canAt c) stays)).trans hat
  · exact foldS_keeps_mem (f := (·.canAt c)) (fun j hj t => t.canAt_canBroadcast_ne b fun e => hc (e ▸ hj)) s

/-- A channel with a place for the frame takes it. -/
theorem State.canAt_toChannels_some {s : State} {b : CmdBody} {c : Nat} (hc : c ∈ s.fieldChannels) (h : (s.canField c).length < 64) :
    ∃ n, (s.toChannels b).canAt c = { s.canAt c with pend := (s.canAt c).pend ++ [⟨s.canFrameOf c b 0 0 true, none, n, 0⟩] } := by
  obtain ⟨u, hu⟩ := foldS_at (g := fun c s => s.canBroadcast c b) (List.nodup_range.filter _) hc s
  obtain ⟨hat, hlast⟩ := hu (·.canAt c) fun j hj t => t.canAt_canBroadcast_ne b hj
  obtain ⟨hregs, -⟩ := hu (·.regs) fun j _ t => t.canBroadcast_keeps b (fun _ _ => rfl) j
  have room : (u.canField c).length < 64 := by
    rw [State.canField, hat]
    exact h
  refine ⟨u.can.orders, hlast.trans ?_⟩
  rw [← hat, ← State.canFrameOf_congr hregs]
  exact State.canAt_canOwn_room room

/-! ## Transceivers -/

theorem State.radAt_setRad (s : State) (i j : Nat) (x : Rad) : (s.setRad i x).radAt j = if j = i then x else s.radAt j := sget_sset ..

theorem State.radAt_toRadios {s : State} {x : RadTx} {j : Nat} (hj : j < 4) : (s.toRadios x).radAt j =
    if s.radAble j = true then { s.radAt j with urgent := urgentJoin x (s.radAt j).urgent } else s.radAt j := by
  have other (i : Nat) (h : i ≠ j) (t : State) : (t.radUrgent i x).radAt j = t.radAt j := (t.radAt_setRad i j _).trans (if_neg h.symm)
  split
  next ha =>
    obtain ⟨u, hu⟩ := foldS_at (g := fun j s => s.radUrgent j x) (List.nodup_range.filter s.radAble)
      (List.mem_filter.2 ⟨List.mem_range.2 hj, ha⟩) s
    obtain ⟨hat, hlast⟩ := hu (·.radAt j) other
    rw [← hat]
    exact hlast.trans ((u.radAt_setRad j j _).trans (if_pos rfl))
  next ha =>
    exact foldS_keeps_mem (f := (·.radAt j)) (fun i hi t => other i (fun e => ha (e ▸ (List.mem_filter.1 hi).2)) t) s

/-- Whether a transceiver may transmit goes by its own registers, the module's role and the keys. -/
theorem State.radAble_setF (s : State) {x : Fld} (v : Nat) (j : Nat) (h : x.blk ≠ .sys) (hr : x.blk ≠ .rad) :
    (s.setF x v).radAble j = s.radAble j := by
  have role : (s.setF x v).role = s.role := s.f_setF_blk v h
  have own {y : Fld} (hy : y.blk = .rad) : (s.setF x v).f y = s.f y := s.f_setF_blk v (by rw [hy]; exact hr)
  have light : (s.setF x v).lightRole = s.lightRole := by rw [State.lightRole, role]; rfl
  have on : (s.setF x v).radOn j = s.radOn j := by
    rw [State.radOn, State.on, own (y := R.RAD_CFG.EN j) rfl, own (y := R.RAD_CFG.REGION j) rfl, State.setF_ident]
    rfl
  have key : (s.setF x v).radKey j = s.radKey j := by
    rw [State.radKey, own (y := R.RAD_KEY.SLOT j) rfl, State.kslot, State.setF_key]
    rfl
  rw [State.radAble, light, on, key]
  rfl

/-! ## What the broadcast as a whole leaves alone -/

theorem State.broadcast_keeps {β : Type} {g : State → β} (hfab : ∀ (s : State) f, g (s.modFab f) = g s)
    (hset : ∀ (s : State) x v, x.blk = .fab ∨ x.blk = .ring → g (s.setF x v) = g s)
    (hcan : ∀ (s : State) f, g { s with can := f } = g s) (hrad : ∀ (s : State) f, g { s with rad := f } = g s)
    (s : State) {b : CmdBody} (h : b.code ≠ ccPoll) : g (s.broadcast b) = g s := by
  rw [State.broadcast_eq s h, State.toRadios_keeps _ hrad, State.toChannels_keeps _ b hcan, State.toRings_keeps s b hfab hset]

end Sys2Proof.Machine
end

section
/-! SUPPORT. The steps of the storm procedure (R186, R188, R191): its launch, the end of SPREAD, a recovery poll, and its stop. -/
namespace Sys2Proof.Machine
open Sys2Proof

/-! ## The launch -/

/-- The storm begins now, with an empty list. -/
def State.stormStart (s : State) : State := ({ s with storm := ⟨s.now, [], 0, 0⟩ }).stormLeft
/-- The body of HOLD_REPORTS (R186). -/
def State.holdReports (s : State) : CmdBody :=
  ⟨0x09, true, s.epoch, 0, euiAll, 0, 0, w32 (max 10 (min 600 (s.f R.STORM_CTRL.SPREAD))), 0, []⟩

theorem State.holdReports_code (s : State) : s.holdReports.code ≠ ccPoll := by simp [State.holdReports, ccPoll]

theorem State.spread_eq (s : State) : s.spread = max 10 (min 600 (s.f R.STORM_CTRL.SPREAD)) := by
  unfold State.spread
  dsimp only
  split_ifs with h10 h600
  · omega
  · omega
  · omega

theorem State.stormStart_keeps {β : Type} {g : State → β} (hstorm : ∀ (s : State) x, g { s with storm := x } = g s)
    (hset : ∀ (s : State) v, g (s.setF R.STORM_STATUS.LEFT v) = g s) (s : State) : g s.stormStart = g s := (hset ..).trans (hstorm ..)

theorem State.f_stormStart (s : State) {x : Fld} (h : R.STORM_STATUS.LEFT.apart x) : s.stormStart.f x = s.f x :=
  State.stormStart_keeps (g := (·.f x)) (fun _ _ => rfl) (fun t v => t.f_setF_ne R.STORM_STATUS.LEFT x v (by decide) h) s

/-- The polls of an earlier storm that are still out. -/
theorem State.left_stormStart (s : State) : s.stormStart.f R.STORM_STATUS.LEFT = s.pollsOut % 2 ^ 18 := by
  have polls (x : Storm) : ({ s with storm := x } : State).pollsOut = s.pollsOut := rfl
  rw [State.stormStart, State.f_stormLeft, polls]
  exact congrArg (· % 2 ^ 18) (Nat.zero_add _)

theorem State.stormStart_holdReports (s : State) :
    s.stormStart.ownBody ccHoldReports euiAll 0 0 (w32 s.stormStart.spread) = s.holdReports := by
  have epoch : s.stormStart.epoch = s.epoch := s.f_stormStart (by decide)
  rw [State.ownBody, epoch, State.spread_eq, s.f_stormStart (x := R.STORM_CTRL.SPREAD) (by decide)]
  rfl

theorem State.stormLaunch_eq (s : State) : ∃ body, s.stormLaunch = (s.stormStart.broadcast s.holdReports).event evStorm body := by
  rw [← s.stormStart_holdReports]
  exact ⟨_, rfl⟩

theorem State.stormLaunch_keeps {β : Type} {g : State → β} (hsess : ∀ (s : State) n x, g (s.setSess n x) = g s)
    (hsend : ∀ (s : State) o, g (s.send o) = g s) (s : State) : g s.stormLaunch = g (s.stormStart.broadcast s.holdReports) := by
  obtain ⟨body, h⟩ := s.stormLaunch_eq
  rw [h]
  exact State.event_keeps g hsess hsend _ evStorm body

/-- What the launch does not send or count stays as the start leaves it. -/
theorem State.stormLaunch_start {β : Type} {g : State → β} (hsess : ∀ (s : State) n x, g (s.setSess n x) = g s)
    (hsend : ∀ (s : State) o, g (s.send o) = g s) (hfab : ∀ (s : State) f, g (s.modFab f) = g s)
    (hset : ∀ (s : State) x v, x.blk = .fab ∨ x.blk = .ring → g (s.setF x v) = g s)
    (hcan : ∀ (s : State) f, g { s with can := f } = g s) (hrad : ∀ (s : State) f, g { s with rad := f } = g s)
    (s : State) : g s.stormLaunch = g s.stormStart :=
  (s.stormLaunch_keeps hsess hsend).trans (State.broadcast_keeps hfab hset hcan hrad _ s.holdReports_code)

theorem State.f_stormLaunch (s : State) {x : Fld} (hf : x.blk ≠ .fab) (hr : x.blk ≠ .ring) : s.stormLaunch.f x = s.stormStart.f x :=
  s.stormLaunch_start (g := (·.f x)) (fun _ _ _ => rfl) (fun _ _ => rfl) (fun _ _ => rfl)
    (fun t _ v h => t.f_setF_blk v fun e => h.elim (fun h => hf (e ▸ h)) fun h => hr (e ▸ h)) (fun _ _ => rfl) (fun _ _ => rfl)

theorem State.hnd_stormLaunch (s : State) : s.stormLaunch.hnd = s.hnd :=
  (s.stormLaunch_start (g := (·.hnd)) (fun _ _ _ => rfl) (fun _ _ => rfl) (fun _ _ => rfl) (fun _ _ _ _ => State.setF_hnd ..)
    (fun _ _ => rfl) (fun _ _ => rfl)).trans (State.stormStart_keeps (g := (·.hnd)) (fun _ _ => rfl) (fun _ _ => State.setF_hnd ..) s)

theorem State.fmem_stormLaunch (s : State) : s.stormLaunch.fmem = s.fmem :=
  (s.stormLaunch_start (g := (·.fmem)) (fun _ _ _ => rfl) (fun _ _ => rfl) (fun _ _ => rfl) (fun _ _ _ _ => State.setF_fmem ..)
    (fun _ _ => rfl) (fun _ _ => rfl)).trans (State.stormStart_keeps (g := (·.fmem)) (fun _ _ => rfl) (fun _ _ => State.setF_fmem ..) s)

theorem holdReportsLaunch_holding {s : State} (h : s.stormState = 1) : exec .holdReportsLaunch s = .next s.stormLaunch :=
  congrArg Host.Outcome.next (if_pos (by rw [h]; rfl))

theorem holdReportsLaunch_other {s : State} (h : s.stormState ≠ 1) : exec .holdReportsLaunch s = .next s :=
  congrArg Host.Outcome.next (if_neg (by simpa [stormHolding] using h))

/-! Each part of the broadcast leaves what it serves as it stands at the end. -/

section
variable (s : State)

theorem State.stormLaunch_parts {β : Type} {g : State → β} (hsess : ∀ (s : State) n x, g (s.setSess n x) = g s)
    (hsend : ∀ (s : State) o, g (s.send o) = g s) :
    g s.stormLaunch = g (((s.stormStart.toRings s.holdReports).toChannels s.holdReports).toRadios
      ⟨some s.holdReports, 0xFFFF, 1, 0, none, true, false, none, none⟩) :=
  (s.stormLaunch_keeps hsess hsend).trans (congrArg g (s.stormStart.broadcast_eq s.holdReports_code))

theorem State.fab_stormLaunch : s.stormLaunch.fab = (s.stormStart.toRings s.holdReports).fab :=
  (s.stormLaunch_parts (g := (·.fab)) (fun _ _ _ => rfl) fun _ _ => rfl).trans
    ((State.toRadios_keeps (g := (·.fab)) _ (fun _ _ => rfl) _).trans (State.toChannels_keeps (g := (·.fab)) _ _ fun _ _ => rfl))

theorem State.seq_stormLaunch {k : Nat} (hk : k < 128) : s.stormLaunch.f (R.RING_SEQ.SEQ k) =
    if s.ringOn k = true then (s.f (R.RING_SEQ.SEQ k) + 1) % 65536 else s.f (R.RING_SEQ.SEQ k) := by
  let g (t : State) := t.f (R.RING_SEQ.SEQ k)
  have rings : s.stormLaunch.f (R.RING_SEQ.SEQ k) = (s.stormStart.toRings s.holdReports).f (R.RING_SEQ.SEQ k) :=
    (s.stormLaunch_parts (g := g) (fun _ _ _ => rfl) fun _ _ => rfl).trans
      ((State.toRadios_keeps (g := g) _ (fun _ _ => rfl) _).trans (State.toChannels_keeps (g := g) _ _ fun _ _ => rfl))
  have before (x : Fld) (h : x.blk = .ring) : s.stormStart.f x = s.f x := s.f_stormStart (.inl (by rw [h]; decide))
  have on : s.stormStart.ringOn k = s.ringOn k := congrArg (· != 0) (before (R.RING_CFG.EN k) rfl)
  rw [rings, State.seq_toRings _ _ hk, on, before _ rfl]

/-- What the CAN channels find when their turn comes. -/
theorem State.channels_atStart : (s.stormStart.toRings s.holdReports).can = s.can ∧
    ∀ x : Fld, x.blk = .can → (s.stormStart.toRings s.holdReports).f x = s.f x :=
  ⟨(State.toRings_keeps (g := (·.can)) _ _ (fun _ _ => rfl) fun _ _ _ _ => State.setF_can ..).trans
      (State.stormStart_keeps (g := (·.can)) (fun _ _ => rfl) (fun _ _ => State.setF_can ..) s),
    fun x h => (State.f_toRings _ _ (by rw [h]; decide) (by rw [h]; decide)).trans (s.f_stormStart (.inl (by rw [h]; decide)))⟩

/-- A channel takes the frame when it carries field frames and has room. -/
def State.takesField (s : State) (c : Nat) : Prop :=
  s.on (R.CAN_CFG.EN c) = true ∧ s.on (R.CAN_CFG.FIELD_EN c) = true ∧ (s.canField c).length < 64

/-- HOLD_REPORTS goes with priority 1, as a broadcast (R445). -/
theorem State.ident_holdReports (c : Nat) : (s.canFrameOf c s.holdReports 0 0 true).ident =
    BitVec.ofNat 29 (2 ^ 26 + 3 * 2 ^ 24 + s.f (R.CAN_CFG.FIELD_MARK c)) := by
  have prio : canPrio s.holdReports.code = 1 := if_pos (.inr rfl)
  rw [State.canFrameOf, prio, Nat.one_mul]
  rfl

theorem State.takesField_iff {c : Nat} (hc : c < 8) : s.takesField c ↔
    c ∈ (s.stormStart.toRings s.holdReports).fieldChannels ∧ ((s.stormStart.toRings s.holdReports).canField c).length < 64 := by
  obtain ⟨hcan, hf⟩ := s.channels_atStart
  have on (x : Fld) (h : x.blk = .can) : (s.stormStart.toRings s.holdReports).on x = s.on x := congrArg (· != 0) (hf x h)
  rw [State.fieldChannels, List.mem_filter, List.mem_range, on _ rfl, on _ rfl, State.canField, State.canAt, hcan, Bool.and_eq_true,
    and_iff_right hc, and_assoc]
  rfl

theorem State.can_stormLaunch : s.stormLaunch.can = ((s.stormStart.toRings s.holdReports).toChannels s.holdReports).can :=
  (s.stormLaunch_parts (g := (·.can)) (fun _ _ _ => rfl) fun _ _ => rfl).trans
    (State.toRadios_keeps (g := (·.can)) _ (fun _ _ => rfl) _)

theorem State.canAt_stormLaunch_taken {c : Nat} (hc : c < 8) (h : s.takesField c) :
    ∃ n, (s.stormLaunch.canAt c).pend = (s.canAt c).pend ++ [⟨s.canFrameOf c s.holdReports 0 0 true, none, n, 0⟩] := by
  obtain ⟨hcan, hf⟩ := s.channels_atStart
  obtain ⟨hin, hroom⟩ := (s.takesField_iff hc).1 h
  obtain ⟨n, hat⟩ := State.canAt_toChannels_some (b := s.holdReports) hin hroom
  refine ⟨n, ?_⟩
  rw [State.canFrameOf, hf (R.CAN_CFG.FIELD_MARK c) rfl] at hat
  rw [State.canAt, s.can_stormLaunch]
  exact (congrArg Can.pend hat).trans (by rw [State.canAt, hcan]; rfl)

theorem State.canAt_stormLaunch_other {c : Nat} (hc : c < 8) (h : ¬ s.takesField c) : s.stormLaunch.canAt c = s.canAt c := by
  obtain ⟨hcan, -⟩ := s.channels_atStart
  rw [State.canAt, s.can_stormLaunch]
  exact (State.canAt_toChannels_none fun hin => h ((s.takesField_iff hc).2 hin)).trans (by rw [State.canAt, hcan]; rfl)

/-- The transceivers find what the start of the storm, the rings and the channels leave alone. -/
theorem State.radios_atStart {β : Type} {g : State → β} (hcan : ∀ (s : State) f, g { s with can := f } = g s)
    (hfab : ∀ (s : State) f, g (s.modFab f) = g s) (hstorm : ∀ (s : State) x, g { s with storm := x } = g s)
    (hset : ∀ (s : State) x v, x.blk ≠ .sys → x.blk ≠ .rad → g (s.setF x v) = g s) :
    g ((s.stormStart.toRings s.holdReports).toChannels s.holdReports) = g s :=
  (State.toChannels_keeps _ _ hcan).trans ((State.toRings_keeps _ _ hfab fun t x v h => hset t x v
    (by rcases h with h | h <;> simp [h]) (by rcases h with h | h <;> simp [h])).trans
    (State.stormStart_keeps hstorm (fun t v => hset t R.STORM_STATUS.LEFT v (by decide) (by decide)) s))

theorem State.radAt_stormLaunch {j : Nat} (hj : j < 4) : s.stormLaunch.radAt j = if s.radAble j = true then
      { s.radAt j with urgent := urgentJoin ⟨some s.holdReports, 0xFFFF, 1, 0, none, true, false, none, none⟩ (s.radAt j).urgent }
    else s.radAt j := by
  have able := s.radios_atStart (g := (·.radAble j)) (fun _ _ => rfl) (fun _ _ => rfl) (fun _ _ => rfl) fun t _ v => t.radAble_setF v j
  have state := s.radios_atStart (g := (·.radAt j)) (fun _ _ => rfl) (fun _ _ => rfl) (fun _ _ => rfl) fun _ _ _ _ _ => rfl
  rw [s.stormLaunch_parts (g := (·.radAt j)) (fun _ _ _ => rfl) fun _ _ => rfl, State.radAt_toRadios hj, able, state]

end

/-! ## The end of SPREAD -/

/-- The procedure recovers the endpoints on its list. -/
def State.recovering (s : State) : State :=
  (({ s with storm := { s.storm with list := s.recoveryList } }).setF R.STORM_STATUS.STATE stormRecovering).stormLeft

theorem spreadEnd_holding {s : State} (h : s.stormState = 1) : exec .spreadEnd s = .next s.recovering.stormEnd :=
  congrArg Host.Outcome.next (if_pos (by rw [h]; rfl))

theorem spreadEnd_other {s : State} (h : s.stormState ≠ 1) : exec .spreadEnd s = .next s :=
  congrArg Host.Outcome.next (if_neg (by simpa [stormHolding] using h))

theorem State.stormState_recovering (s : State) : s.recovering.stormState = stormRecovering :=
  (State.f_setF_ne _ R.STORM_STATUS.LEFT R.STORM_STATUS.STATE _ (by decide) (by decide)).trans
    (State.f_setF_fit _ (x := R.STORM_STATUS.STATE) (by decide) (by decide))

theorem State.left_recovering (s : State) : s.recovering.f R.STORM_STATUS.LEFT = (s.recoveryList.length + s.pollsOut) % 2 ^ 18 :=
  State.f_stormLeft _

section
variable {s : State}

/-- The list or the polls in flight keep the procedure in RECOVERING. -/
theorem State.stormEnd_goesOn (h : s.storm.list ≠ [] ∨ s.pollsOut ≠ 0) : s.stormEnd = s := by
  refine if_neg ?_
  rcases h with h | h
  · simp [h]
  · simp [h]

theorem State.stormEnd_idle (hs : s.stormState = stormRecovering) (hl : s.storm.list = []) (hp : s.pollsOut = 0) :
    ∃ body, s.stormEnd = ((s.setF R.STORM_STATUS.STATE stormIdle).raise E.STORM_EVT.RECOVERED).event evStorm body :=
  ⟨_, if_pos (by rw [hs, hl, hp]; rfl)⟩

end

/-- The end of the procedure leaves LEFT, the handles and the records alone. -/
theorem State.stormEnd_keeps {β : Type} {g : State → β} (hset : ∀ (s : State) v, g (s.setF R.STORM_STATUS.STATE v) = g s)
    (hraise : ∀ s : State, g (s.raise E.STORM_EVT.RECOVERED) = g s) (hsess : ∀ (s : State) n x, g (s.setSess n x) = g s)
    (hsend : ∀ (s : State) o, g (s.send o) = g s) (s : State) : g s.stormEnd = g s :=
  keeps_ite ((State.event_keeps g hsess hsend ..).trans ((hraise _).trans (hset ..))) rfl

theorem State.left_stormEnd (s : State) : s.stormEnd.f R.STORM_STATUS.LEFT = s.f R.STORM_STATUS.LEFT :=
  s.stormEnd_keeps (g := (·.f R.STORM_STATUS.LEFT)) (fun t v => t.f_setF_ne R.STORM_STATUS.STATE _ v (by decide) (by decide))
    (fun t => t.f_raise_off E.STORM_EVT.RECOVERED (by decide) (by decide)) (fun _ _ _ => rfl) (fun _ _ => rfl)

/-! ## A recovery poll, and the stop -/

theorem State.recoveryPoll_first {s : State} {i : Nat} (hs : s.stormState = 2) (ha : s.on (quAbove .intake) = false)
    (hp : s.pollsOut < 16384) (hi : s.storm.list.find? s.pollable = some i) : s.recoveryPoll = s.pollOne i := by
  rw [State.recoveryPoll, if_pos (by rw [hs, ha, decide_eq_true hp]; rfl), hi]

/-- The poll is placed as a command of the module's own, and its endpoint leaves the list. -/
theorem State.pollOne_placed {s : State} {i n : Nat} (hv : s.epValid i = true) (hf : s.fenced = false) (hc : s.calUsed < 131072)
    (ha : s.allocTest .module = .slot n) : s.pollOne i = { s.placeCmd .module n i 0 pollDesc [] 0 with
      storm := { s.storm with list := s.storm.list.erase i, polls := s.storm.polls + 1 } } := by
  have storm : (s.placeCmd .module n i 0 pollDesc [] 0).storm = s.storm :=
    State.placeCmd_keeps (·.storm) (fun _ _ => rfl) (fun _ _ _ => State.setF_storm ..) (fun _ _ _ _ => State.setEp_storm ..) s ..
  have place := State.place_slot (i := i) (level := 0) (payload := []) (d := pollDesc) (t := 0)
    (State.placeTest_none (m := pollDesc.immediate) hf rfl hc) ha
  rw [State.pollOne, if_pos hv, place]
  dsimp only
  rw [storm]

theorem State.hslot_pollOne {s : State} {i n : Nat} (hv : s.epValid i = true) (hf : s.fenced = false) (hc : s.calUsed < 131072)
    (ha : s.allocTest .module = .slot n) :
    (s.pollOne i).hslot n = { s.cmdHandle .module i pollDesc with st := .placed, gen := (s.hslot n).gen } := by
  have hnd : (s.pollOne i).hnd = (s.placeCmd .module n i 0 pollDesc [] 0).hnd := by rw [State.pollOne_placed hv hf hc ha]
  exact (State.hslot_congr hnd n).trans ((s.hslot_placeCmd .module n i 0 pollDesc [] 0 n).trans (if_pos rfl))

theorem State.f_stormStop_ne (s : State) {x : Fld} (h : R.STORM_STATUS.STATE.apart x) (h' : R.STORM_STATUS.LEFT.apart x) :
    s.stormStop.f x = s.f x :=
  (State.f_setF_ne _ R.STORM_STATUS.LEFT x _ (by decide) h').trans (State.f_setF_ne _ R.STORM_STATUS.STATE x _ (by decide) h)

theorem State.stormState_stormStop (s : State) : s.stormStop.stormState = 0 :=
  (State.f_setF_ne _ R.STORM_STATUS.LEFT R.STORM_STATUS.STATE _ (by decide) (by decide)).trans
    (State.f_setF_fit _ (x := R.STORM_STATUS.STATE) (by decide) (by decide))

end Sys2Proof.Machine
end

section
open Sys2Proof Sys2Proof.Machine

/-- Settles O36: the launch by its three parts (rings, CAN channels, transceivers), and the other steps by their equations. -/
theorem stormProcedure : Obligations.StormProcedure := by
  unfold Obligations.StormProcedure
  refine ⟨fun s hs => ?_, fun s k b => ⟨State.ringSend_off, State.ringSend_sown⟩, fun s d b => ?_,
    fun s hs => ⟨holdReportsLaunch_other hs, spreadEnd_other hs⟩, fun s hs => ?_, fun s i hs ha hp hi hv hf hc n hn => ?_,
    fun s spread => ?_⟩
  · intro b go
    have start : s.stormLaunch.storm = ⟨s.now, [], 0, 0⟩ := s.stormLaunch_start (g := (·.storm)) (fun _ _ _ => rfl) (fun _ _ => rfl)
      (fun _ _ => rfl) (fun _ _ _ _ => State.setF_storm ..) (fun _ _ => rfl) (fun _ _ => rfl)
    have feReg {x : Fld} (h : x.blk = .fe) : s.stormLaunch.f x = s.stormStart.f x :=
      s.f_stormLaunch (by rw [h]; decide) (by rw [h]; decide)
    refine ⟨s.stormLaunch, holdReportsLaunch_holding hs, by rw [start], by rw [start],
      (feReg rfl).trans ((s.f_stormStart (by decide)).trans hs), s.hnd_stormLaunch, s.fmem_stormLaunch,
      (feReg rfl).trans s.left_stormStart, s.fab_stormLaunch, fun k hk => s.seq_stormLaunch hk,
      fun c hc => ⟨fun hgo => ?_, s.canAt_stormLaunch_other hc⟩, fun j hj => ⟨fun ha => ?_, fun ha => ?_⟩⟩
    · obtain ⟨n, hpend⟩ := s.canAt_stormLaunch_taken hc hgo
      exact ⟨⟨s.canFrameOf c b 0 0 true, none, n, 0⟩, hpend, rfl, rfl, rfl, rfl, rfl, rfl, s.ident_holdReports c⟩
    · exact (s.radAt_stormLaunch hj).trans (if_pos ha)
    · exact (s.radAt_stormLaunch hj).trans (if_neg (by rw [ha]; decide))
  · intro f
    obtain ⟨taken, rest⟩ := padTo_take_drop (f.len - (if s.f R.FAB_FIELD_VLAN.VID = 0 then 18 else 22)) b.bytes
    exact ⟨rfl, rfl, rfl, taken, rest, b.length_bytes, rfl⟩
  · let u := s.recovering
    refine ⟨u.stormEnd, spreadEnd_holding hs, u.left_stormEnd.trans s.left_recovering, fun hl => ?_, fun hl hp => ?_, ?_, ?_⟩
    · rw [State.stormEnd_goesOn (.inl hl)]
      exact ⟨s.stormState_recovering, rfl⟩
    · obtain ⟨body, h⟩ := State.stormEnd_idle s.stormState_recovering hl hp
      let v := u.setF R.STORM_STATUS.STATE stormIdle
      have idle : v.stormState = 0 := u.f_setF_fit (x := R.STORM_STATUS.STATE) (by decide) (by decide)
      rw [h, State.stormState, State.flag_eq, State.f_eq, State.event_regs, ← State.f_eq, ← State.flag_eq]
      exact ⟨(State.f_raise_off _ E.STORM_EVT.RECOVERED (by decide) (by decide)).trans idle,
        State.flag_raise _ _ (by decide) (by decide) (by decide)⟩
    · exact u.stormEnd_keeps (g := (·.hnd)) (fun _ _ => State.setF_hnd ..) (fun _ => State.raise_hnd ..) (fun _ _ _ => rfl) fun _ _ => rfl
    · exact u.stormEnd_keeps (g := (·.fmem)) (fun _ _ => State.setF_fmem ..) (fun _ => State.raise_fmem ..) (fun _ _ _ => rfl) fun _ _ => rfl
  · have slot := State.hslot_pollOne hv hf hc hn
    have storm := congrArg State.storm (State.pollOne_placed hv hf hc hn)
    exact ⟨s.pollOne i, congrArg Host.Outcome.next (State.recoveryPoll_first hs ha hp hi), congrArg Storm.list storm,
      congrArg Storm.polls storm, congrArg Handle.st slot, congrArg Handle.owner slot, congrArg Handle.ep slot⟩
  · let u := (s.setF R.STORM_CTRL.SPREAD spread.toNat).setF R.STORM_CTRL.EN 0
    refine ⟨u.stormStop, rfl, u.stormState_stormStop, ?_, ?_, rfl, ?_, ?_, ?_⟩
    · exact (u.f_stormStop_ne (by decide) (by decide)).trans (State.f_setF_fit _ (x := R.STORM_CTRL.EN) (by decide) (by decide))
    · exact (State.f_stormLeft _).trans (congrArg (· % 2 ^ 18) (Nat.zero_add _))
    · exact (u.f_stormStop_ne (by decide) (by decide)).trans ((State.f_setF_ne _ R.STORM_CTRL.EN _ _ (by decide) (by decide)).trans
        (s.f_setF_fit (x := R.STORM_CTRL.SPREAD) (by decide) spread.isLt))
    · simp only [State.stormStop, State.stormLeft, State.setF_hnd, u]
    · simp only [State.stormStop, State.stormLeft, State.setF_fmem, u]

end

section
/-! SUPPORT. Connections and sessions (R167, R168, R175, R176): what opens one, what keeps it, and what its end leaves. -/
namespace Sys2Proof.Machine
open Sys2Proof

theorem State.sess_setSess (s : State) (n m : Nat) (x : Session) : (s.setSess n x).sess m = if m = n then x else s.sess m := sget_sset ..

@[simp] theorem State.sess_setSess_same (s : State) (n : Nat) (x : Session) : (s.setSess n x).sess n = x := sget_sset_same ..

/-! ## Connections -/

section
variable {s : State} {via : Access} {port : BitVec 16} {h : Handshake}

theorem State.tlsOffer_unheard (hn : s.fcpReached via = false ∨ port ≠ 7460) : s.tlsOffer via port h = s := by
  refine if_pos (Bool.or_eq_true_iff.2 ?_)
  rcases hn with hn | hn
  · exact .inl (by rw [hn]; rfl)
  · exact .inr (bne_iff_ne.2 hn)

theorem State.tlsOffer_reached (hr : s.fcpReached via = true) : s.tlsOffer via 7460 h = match s.tlsTest h with
    | .inl rights => ({ s with fcp := { s.fcp with conns := s.fcp.conns ++ [rights] } } : State).send (.tls true 0)
    | .inr alert => s.send (.tls false alert) := if_neg (by rw [hr]; decide)

theorem State.fcpReached_port {n : Fin 256} {v : BitVec 12} : s.fcpReached (.port n v) = true ↔ s.power.step = 5 ∧ s.portUp n = true ∧
    s.portRole n = prUplink ∧ v ≠ 0 ∧ v.toNat = s.f R.FAB_MGMT_VLAN.VID := by
  simp only [State.fcpReached, Bool.and_eq_true, beq_iff_eq, bne_iff_ne, and_assoc]

theorem State.fcpReached_service : s.fcpReached .service = true ↔ s.power.step = 5 ∧ s.on R.SVC_MAC_STATUS.LINK = true := by
  simp only [State.fcpReached, Bool.and_eq_true, beq_iff_eq]

variable {c : List Byte × List Byte} (hc : h.cert = some c)
include hc

/-- An offer outside the subset ends with an alert; the anchors give the rights of another one. -/
theorem State.tlsTest_cert : s.tlsTest h = if h.inSubset = true then
      if s.anchors 2 c = true then .inl true else if s.anchors 3 c = true then .inl false else .inr alertUnknownCa
    else .inr (if h.version = 0x0304 then alertHandshake else alertVersion) := by
  rw [State.tlsTest, hc]
  cases h.inSubset with
  | false => rfl
  | true => rfl

theorem State.tlsTest_control : s.tlsTest h = .inl true ↔ h.inSubset = true ∧ s.anchors 2 c = true := by
  rw [State.tlsTest_cert hc]
  split_ifs with hs h2 h3
  · simp [hs, h2]
  · simp [h2]
  · simp [h2]
  · simp [hs]

theorem State.tlsTest_read : s.tlsTest h = .inl false ↔ h.inSubset = true ∧ s.anchors 2 c = false ∧ s.anchors 3 c = true := by
  rw [State.tlsTest_cert hc]
  split_ifs with hs h2 h3
  · simp [h2]
  · simp [hs, h2, h3]
  · simp [h3]
  · simp [hs]

end

/-! ## The first message -/

/-- Reserved bits of an event mask are dropped. -/
theorem w32_mod_mask (m : Word) : w32 (m.toNat % 64) = m &&& 0x3F := by
  refine BitVec.eq_of_toNat_eq ?_
  have := m.isLt
  rw [BitVec.toNat_and, w32, BitVec.toNat_ofNat, show (0x3F : Word).toNat = 2 ^ 6 - 1 from rfl, Nat.and_two_pow_sub_one_eq_mod]
  omega

section
variable {s : State} {c : Nat} {r : Bool} (hc : s.fcp.conns[c]? = some r)
include hc

theorem State.hello_none (hn : s.freeSession = none) (v1 : Bool) (mask : Word) :
    s.hello c v1 mask = if v1 then s.dropConn c else (s.dropConn c).send (.fcp2 16 0x02 fsBusy 0 0 []) := by
  have free : (s.dropConn c).freeSession = none := hn
  rw [State.hello, hc]
  dsimp only
  rw [free]

variable {n : Nat} (hn : s.freeSession = some n) (mask : Word)
include hn

/-- HELLO opens the session with the connection's rights and gets WELCOME. -/
theorem State.hello_v2 : ∃ body, s.hello c false mask = ((s.dropConn c).setSess n
    { Session.none with isOpen := true, control := r, mask := mask &&& 0x3F }).send (.fcp2 n 0x02 fsOk 0 0 body) := by
  have free : (s.dropConn c).freeSession = some n := hn
  rw [State.hello, hc, ← w32_mod_mask]
  dsimp only
  rw [free, Bool.not_false, Bool.and_true]
  exact ⟨_, rfl⟩

/-- A version 1 message opens it without rights and without WELCOME. -/
theorem State.hello_v1 :
    s.hello c true mask = (s.dropConn c).setSess n { Session.none with isOpen := true, version1 := true } := by
  have free : (s.dropConn c).freeSession = some n := hn
  rw [State.hello, hc]
  dsimp only
  rw [free, Bool.not_true, Bool.and_false]
  rfl

end

/-! ## The life of a session -/

section
variable {s : State} {n : Nat}

theorem State.sessFree_done (hc : (s.sess n).closing = true) (hh : s.sessHandles n = 0) : s.sessFree n = s.setSess n Session.none :=
  if_pos (by rw [hc, hh]; rfl)

theorem State.sessTimeout_pinged (hp : (s.sess n).pinged = true) : s.sessTimeout n = s.sessClose n := if_pos hp

variable (ho : (s.sess n).isOpen = true)
include ho

theorem State.close_malformed : s.close n true = (s.send (.fcp2 n 0x09 fsBadRequest 0 0 [])).sessClose n := by
  rw [State.close, ho]
  rfl

theorem State.pingSend_silent (hp : (s.sess n).pinged = false) :
    s.pingSend n = (s.setSess n { s.sess n with pinged := true }).send (.fcp2 n 0x07 0 0 0 []) := by
  rw [State.pingSend, ho, hp, State.modSess, if_pos ho]
  rfl

/-- The session is closed, and keeps its number while it has handles. -/
theorem State.sess_sessClose : ((s.sessClose n).sess n) = { Session.none with closing := (s.sessClose n).sessHandles n != 0 } := by
  obtain ⟨u, hu⟩ : ∃ u : State, s.sessClose n = u.setSess n { Session.none with closing := u.sessHandles n != 0 } := ⟨_, if_pos ho⟩
  have handles (x : Session) : (u.setSess n x).sessHandles n = u.sessHandles n := rfl
  rw [hu, State.sess_setSess_same, handles]

/-- The count of the events lost goes out when the transport has room (R175). -/
theorem State.eventTaken_room {k : Nat} (hl : (s.sess n).evLost ≠ 0) (hk : (s.sess n).undelivered - k < 1024) :
    s.eventTaken n k = (s.setSess n { s.sess n with undelivered := (s.sess n).undelivered - k + 1, evLost := 0 }).send
      (.fcp2 n 0x06 evAlarm 0 0 (leBytes 8 s.rcd.nextSeq ++ leBytes 4 (s.sess n).evLost)) := by
  rw [State.eventTaken]
  dsimp only
  rw [ho, if_neg (by decide), if_pos (by simp [hl, hk])]

end

end Sys2Proof.Machine
end

section
open Sys2Proof Sys2Proof.Machine

/-- Settles O32: an offer by the tests it passes, the first message by the session it finds, and a session's life by the equation of
each of its commands. -/
theorem sessionCommands : Obligations.SessionCommands := by
  unfold Obligations.SessionCommands
  refine ⟨fun s via h hr => ?_, fun s via port h hn => congrArg Host.Outcome.next (State.tlsOffer_unheard hn),
    fun s n v => State.fcpReached_port, fun s => State.fcpReached_service, fun s n ho => ⟨?_, ?_⟩,
    fun s h c hc => ⟨State.tlsTest_control hc, State.tlsTest_read hc⟩, fun s c mask r hc => ⟨fun n hn => ⟨?_, ?_⟩, fun hn => ?_, rfl⟩,
    fun s n ho => ⟨fun hp => ?_, ?_, fun hp => congrArg Host.Outcome.next (State.sessTimeout_pinged hp), rfl,
      congrArg Host.Outcome.next (State.close_malformed ho), ?_, ?_, fun k hl hk => ?_⟩, fun s n hc hh => ?_⟩
  · refine ⟨_, congrArg Host.Outcome.next (State.tlsOffer_reached hr), ?_⟩
    cases s.tlsTest h with
    | inl rights => exact ⟨rfl, rfl, rfl⟩
    | inr alert => rfl
  · exact congrArg Host.Outcome.next (if_pos (by rw [ho]; rfl))
  · exact congrArg Host.Outcome.next (if_neg (by simp))
  · obtain ⟨body, hello⟩ := State.hello_v2 hc hn mask
    have session (m : Nat) := (s.dropConn c).sess_setSess n m { Session.none with isOpen := true, control := r, mask := mask &&& 0x3F }
    have opened := (session n).trans (if_pos rfl)
    exact ⟨_, congrArg Host.Outcome.next hello, congrArg Session.isOpen opened, congrArg Session.control opened,
      congrArg Session.version1 opened, congrArg Session.mask opened, rfl, ⟨body, rfl⟩, rfl,
      fun m hm => (session m).trans (if_neg hm)⟩
  · have opened := (s.dropConn c).sess_setSess_same n { Session.none with isOpen := true, version1 := true }
    exact ⟨_, congrArg Host.Outcome.next (State.hello_v1 hc hn mask), congrArg Session.isOpen opened, congrArg Session.control opened,
      congrArg Session.version1 opened, rfl⟩
  · exact congrArg Host.Outcome.next (State.hello_none hc hn false mask)
  · exact ⟨_, congrArg Host.Outcome.next (State.pingSend_silent ho hp), congrArg Session.pinged (s.sess_setSess_same n _), rfl⟩
  · have heard := State.sess_heard ho
    exact ⟨s.heard n, rfl, congrArg Session.pinged heard, (congrArg Session.isOpen heard).trans ho, s.heard_out n⟩
  · exact congrArg Session.isOpen (State.sess_sessClose ho)
  · exact congrArg Session.closing (State.sess_sessClose ho)
  · exact ⟨_, congrArg Host.Outcome.next (State.eventTaken_room ho hl hk), congrArg Session.evLost (s.sess_setSess_same n _), rfl⟩
  · exact ⟨_, congrArg Host.Outcome.next (State.sessFree_done hc hh), s.sess_setSess_same n _, rfl,
      fun m hm => (s.sess_setSess n m _).trans (if_neg hm)⟩

end

section
/-! SUPPORT. Version 1 answers (R176), the read port of a queue and DROP_PKT (R180, R181), and the registers that hold one number
(R166, R177). -/
namespace Sys2Proof.Machine
open Sys2Proof

theorem State.v1Answer_v1 {s : State} {n : Nat} (ho : (s.sess n).isOpen = true) (hv : (s.sess n).version1 = true) (status : Nat)
    (body : List Byte) : s.v1Answer n status body = (s.heard n).send (.v1 n status body) := if_pos (by rw [ho, hv]; rfl)

theorem State.viaRead_reached {s : State} {r : Reg} (h : s.reaches r.blk r.off false = true) (k : State → State) : s.viaRead r k = k s :=
  if_pos h
theorem State.viaWrite_reached {s : State} {r : Reg} (h : s.reaches r.blk r.off true = true) (k : State → State) : s.viaWrite r k = k s :=
  if_pos h

/-! ## The items of a queue -/

/-- The queues that a core reads item by item. -/
def Qu.readable (u : Qu) : Prop := u = .uartRx ∨ (∃ n, u = .cpl n) ∨ (∃ n, u = .bulk n)

/-- What a queue holds goes by the queues' part of the state alone. -/
theorem State.q_congr {s t : State} (h : t.fcp = s.fcp) (u : Qu) : t.q u = s.q u := by
  cases u <;> simp only [State.q, h]

theorem State.q_setQ_same (s : State) {u : Qu} (hu : u.readable) (x : Queue) : (s.setQ u x).q u = x := by
  obtain rfl | ⟨n, rfl⟩ | ⟨n, rfl⟩ := hu
  · rfl
  · exact sget_sset_same ..
  · exact sget_sset_same ..

@[simp] theorem State.q_event (s : State) (cls : Nat) (body : List Byte) (u : Qu) : (s.event cls body).q u = s.q u :=
  State.event_keeps (·.q u) (fun _ _ _ => by cases u <;> rfl) (fun _ _ => by cases u <;> rfl) s cls body

@[simp] theorem State.q_quEval (s : State) (u v : Qu) : (s.quEval u).q v = s.q v :=
  State.quEval_keeps (·.q v) s u (fun _ _ _ _ => State.q_congr (State.setF_fcp ..) v) fun t cls body => t.q_event cls body v

@[simp] theorem State.q_cplMessage (s : State) (n : Nat) (it : List Word) (u : Qu) : (s.cplMessage n it).q u = s.q u := by
  have data (t : State) (w : Word) (d : List Byte) : (t.setData w d).q u = t.q u := by cases u <;> rfl
  exact (data ..).trans (keeps_ite (g := (·.q u)) (State.q_congr (State.send_fcp ..) u) rfl)

/-! ## The read port -/

section
variable {s : State} {u : Qu}

theorem State.quDataRead_idle (h : (s.q u).items = [] ∨ u = .uartTx ∨ (∃ n, u = .feed n)) : s.quDataRead u = (0xFFFFFF00, s) := by
  obtain h | rfl | ⟨n, rfl⟩ := h
  · cases u with
    | intake => rfl
    | uartTx => rfl
    | feed n => rfl
    | cpl n => simp [State.quDataRead, State.quRead, h, idleWord]
    | bulk n => simp [State.quDataRead, State.quRead, h, idleWord]
    | uartRx => simp [State.quDataRead, State.quRead, h, idleWord]
  · rfl
  · rfl

variable {it : List Word} {rest : List (List Word)} (hu : u.readable) (hi : (s.q u).items = it :: rest)
include hu hi

theorem State.quRead_item : s.quRead u = (it.getD (s.q u).readWords 0,
    if (s.q u).readWords + 1 < quItemWords u then s.setQ u ⟨it :: rest, (s.q u).readWords + 1⟩ else (s.setQ u ⟨rest, 0⟩).quEval u) := by
  obtain rfl | ⟨n, rfl⟩ | ⟨n, rfl⟩ := hu
  all_goals
    unfold State.quRead
    dsimp only
    rw [hi]
    dsimp only
    split <;> rfl

/-- A word before the last one leaves the item in progress. -/
theorem State.quDataRead_next (hk : (s.q u).readWords + 1 < quItemWords u) :
    s.quDataRead u = (it.getD (s.q u).readWords 0, s.setQ u ⟨it :: rest, (s.q u).readWords + 1⟩) := by
  have read := State.quRead_item hu hi
  rw [if_pos hk] at read
  have last : ((s.q u).readWords + 1 == quItemWords u) = false := beq_eq_false_iff_ne.2 hk.ne
  obtain rfl | ⟨n, rfl⟩ | ⟨n, rfl⟩ := hu
  · exact read
  · rw [State.quDataRead, hi]
    dsimp only
    rw [last, read]
    rfl
  · rw [State.quDataRead, last, Bool.and_false, read]
    rfl

/-- The read of the last word removes the item. -/
theorem State.quDataRead_last (hk : (s.q u).readWords + 1 = quItemWords u) :
    ∃ t, s.quDataRead u = (it.getD (s.q u).readWords 0, t) ∧ t.q u = ⟨rest, 0⟩ := by
  have read := State.quRead_item hu hi
  rw [if_neg hk.not_lt] at read
  have removed : ((s.setQ u ⟨rest, 0⟩).quEval u).q u = ⟨rest, 0⟩ := (State.q_quEval ..).trans (s.q_setQ_same hu _)
  obtain rfl | ⟨n, rfl⟩ | ⟨n, rfl⟩ := hu
  · exact ⟨_, read, removed⟩
  · rw [State.quDataRead, hi]
    dsimp only
    rw [read]
    exact ⟨_, rfl, keeps_ite (g := (·.q (.cpl n))) ((State.q_cplMessage ..).trans removed) removed⟩
  · rw [State.quDataRead, read]
    exact ⟨_, rfl, keeps_ite (g := (·.q (.bulk n))) ((State.q_congr (State.setF_fcp ..) _).trans removed) removed⟩

end

/-! ## DROP_PKT -/

section
variable {s : State} {u : Qu}

theorem State.quDrop_none (h : (s.q u).readWords = 0) : s.quDrop u = s := by
  have idle : ¬ s.inItem u = true := by simp [State.inItem, h]
  cases u with
  | intake => rfl
  | uartTx => rfl
  | feed n => rfl
  | cpl n => exact if_neg idle
  | bulk n => exact if_neg idle
  | uartRx => exact if_neg idle

theorem State.quDrop_item (hu : u.readable) (h : (s.q u).readWords ≠ 0) :
    s.quDrop u = ((s.setQ u ⟨(s.q u).items.drop 1, 0⟩).quEval u).raise (quDropped u) := by
  have busy : s.inItem u = true := bne_iff_ne.2 h
  obtain rfl | ⟨n, rfl⟩ | ⟨n, rfl⟩ := hu
  · exact if_pos busy
  · exact if_pos busy
  · exact if_pos busy

theorem State.flag_quDropped (s : State) (u : Qu) : (s.raise (quDropped u)).flag (quDropped u) = true :=
  s.flag_raise (quDropped u) (show 2 < 32 by decide) (Nat.zero_le 16) (.inl (by simp only [quDropped]; omega))

end

/-! ## Registers that hold one number -/

theorem getBits_whole {v : Word} {n : Nat} (h : v.toNat < 2 ^ n) : getBits v 0 n = v.toNat := Nat.mod_eq_of_lt h

/-- A write of a register with one RW field from bit 0 puts the number in that field, with what follows the change. -/
theorem State.codeWrite_number {s : State} {b : Blk} {off m d : Nat} {row : RegRow} (hf : findRow b off = some row)
    (hrow : row.fields = [⟨m, 0, .rw, d⟩]) (hsp : ∀ w, s.special b row off w = none) (hnow : s.wordNow b row off = s.rd b off) (v : Word) :
    s.codeWrite b off v = State.regEffect s (s.setF ⟨b, off, 0, m + 1⟩ (getBits v 0 (m + 1))) b off := by
  have writable : row.writable = true := by rw [RegRow.writable, hrow]; rfl
  have word : writeWord row (s.rd b off) v = setBits (s.rd b off) 0 (m + 1) (getBits v 0 (m + 1)) := by rw [writeWord, hrow]; rfl
  rw [State.codeWrite, hf]
  dsimp only
  rw [if_pos writable, hnow, word, State.putReg, hsp]
  rfl

/-! ### Quotas -/

def sessQuotaRow : RegRow := ⟨0x80880, [(0x4, 16)], false, [⟨17, 0, .rw, 0x2000⟩]⟩
def engQuotaRow : RegRow := ⟨0x80804, [], false, [⟨17, 0, .rw, 0x20000⟩]⟩

theorem findRow_sessQuota : ∀ n : Fin 16, findRow .fe (R.HND_SESS_QUOTA.reg n).off = some sessQuotaRow := by decide +kernel
theorem findRow_engQuota : findRow .fe R.HND_ENG_QUOTA.reg.off = some engQuotaRow := by decide +kernel

/-- Nothing follows a change of a quota. -/
theorem State.codeWrite_sessQuota (s : State) (n : Fin 16) (v : Word) :
    s.codeWrite .fe (R.HND_SESS_QUOTA.reg n).off v = s.setF (R.HND_SESS_QUOTA.QUOTA n) (getBits v 0 18) := by
  rw [State.codeWrite_number (findRow_sessQuota n) rfl (fun _ => rfl) rfl, State.regEffect, findRow_sessQuota]
  rfl

theorem State.codeWrite_engQuota (s : State) (v : Word) :
    s.codeWrite .fe R.HND_ENG_QUOTA.reg.off v = s.setF R.HND_ENG_QUOTA.QUOTA (getBits v 0 18) := by
  rw [State.codeWrite_number findRow_engQuota rfl (fun _ => rfl) rfl, State.regEffect, findRow_engQuota]
  rfl

/-! ### The upper watermark of the receive FIFO -/

def uartRxHighRow : RegRow := ⟨0x148, [], false, [⟨16, 0, .rw, 0x300⟩]⟩

theorem findRow_uartRxHigh : findRow .svc 0x148 = some uartRxHighRow := by decide +kernel

/-- The marks are compared at once. -/
theorem State.codeWrite_uartRxHigh (s : State) (v : Word) :
    s.codeWrite .svc 0x148 v = (s.setF (quHigh .uartRx) (getBits v 0 17)).quEval .uartRx := by
  rw [State.codeWrite_number findRow_uartRxHigh rfl (fun _ => rfl) rfl, State.regEffect, findRow_uartRxHigh]
  rfl

/-- The comparison does not change the mark. -/
theorem State.f_quHigh_quEval (s : State) : (s.quEval .uartRx).f (quHigh .uartRx) = s.f (quHigh .uartRx) := by
  have field (t : State) (x : Fld) (n : Nat) (hx : x.fits) (hd : x.apart (quHigh .uartRx)) :
      (t.setF x n).f (quHigh .uartRx) = t.f (quHigh .uartRx) := t.f_setF_ne x _ n hx hd
  have event (t : State) (cls : Nat) (body : List Byte) : (t.event cls body).f (quHigh .uartRx) = t.f (quHigh .uartRx) := by
    rw [State.f_eq, State.event_regs, ← State.f_eq]
  have rose (t : State) : (t.raise (quRose .uartRx)).f (quHigh .uartRx) = t.f (quHigh .uartRx) :=
    t.f_raise_off _ (by decide) (by decide)
  have fell (t : State) : (t.raise (quFell .uartRx)).f (quHigh .uartRx) = t.f (quHigh .uartRx) :=
    t.f_raise_off _ (by decide) (by decide)
  have above (t : State) (n : Nat) := field t (quAbove .uartRx) n (by decide) (by decide)
  have base (c : Prop) [Decidable c] (m n : Nat) : (if c then (s.setF (quBad .uartRx) m).setF (quPeak .uartRx) n
      else s.setF (quBad .uartRx) m).f (quHigh .uartRx) = s.f (quHigh .uartRx) :=
    have bad := field s (quBad .uartRx) m (by decide) (by decide)
    keeps_ite (g := (·.f (quHigh .uartRx))) ((field _ (quPeak .uartRx) n (by decide) (by decide)).trans bad) bad
  refine keeps_ite (g := (·.f (quHigh .uartRx))) ?_ (keeps_ite (g := (·.f (quHigh .uartRx))) ?_ (base ..))
  · exact (event ..).trans ((rose _).trans ((above ..).trans (base ..)))
  · exact (event ..).trans ((fell _).trans ((above ..).trans (base ..)))

end Sys2Proof.Machine
end

section
open Sys2Proof Sys2Proof.Machine

/-- Settles O35: version 1 by its answers, the read port and DROP_PKT by the item in progress, and each register that holds a number by
its field. -/
theorem queueCommands : Obligations.QueueCommands := by
  unfold Obligations.QueueCommands
  refine ⟨fun s n ho hv => ?_, fun s u hr => ⟨fun hi => ?_, fun it rest hi hu => ⟨fun hk => ?_, fun hk => ?_⟩⟩,
    fun s u hr => ⟨fun hu hk => ?_, fun hk => ?_, fun h v _ => ?_, fun v hu hv => ?_⟩, fun s n v hv => ⟨?_, ?_⟩⟩
  · intro u
    have answer (status : Nat) (body : List Byte) : s.v1Answer n status body = u.send (.v1 n status body) :=
      State.v1Answer_v1 ho hv status body
    refine ⟨?_, ?_, fun i hi => ?_, fun i hi => ?_, congrArg Host.Outcome.next (answer ..)⟩
    · exact congrArg Host.Outcome.next (answer ..)
    · exact congrArg Host.Outcome.next (answer ..)
    · refine congrArg Host.Outcome.next ((if_pos hi).trans ?_)
      rw [answer, epBase, Nat.mul_comm]
      rfl
    · exact congrArg Host.Outcome.next ((if_neg hi.not_gt).trans (answer ..))
  · refine congrArg Host.Outcome.next ((State.viaRead_reached hr _).trans ?_)
    rw [State.quDataRead_idle hi]
  · refine congrArg Host.Outcome.next ((State.viaRead_reached hr _).trans ?_)
    rw [State.quDataRead_next hu hi hk]
  · obtain ⟨t, read, queue⟩ := State.quDataRead_last hu hi hk
    refine ⟨t.answer (it.getD (s.q u).readWords 0), congrArg Host.Outcome.next ((State.viaRead_reached hr _).trans ?_), rfl,
      (State.q_congr rfl u).trans queue⟩
    rw [read]
  · refine ⟨_, congrArg Host.Outcome.next ((State.viaWrite_reached hr _).trans (State.quDrop_item hu hk)), ?_, State.flag_quDropped ..⟩
    exact (State.q_congr (State.raise_fcp ..) u).trans ((State.q_quEval ..).trans (s.q_setQ_same hu _))
  · exact congrArg Host.Outcome.next ((State.viaWrite_reached hr _).trans (State.quDrop_none hk))
  · exact congrArg Host.Outcome.next (State.viaWrite_reached hr _)
  · subst hu
    refine ⟨_, congrArg Host.Outcome.next ((State.viaWrite_reached hr _).trans (s.codeWrite_uartRxHigh v)), ?_⟩
    rw [State.f_quHigh_quEval, getBits_whole hv]
    exact s.f_setF_fit (x := quHigh .uartRx) (by decide) hv
  · have small : v.toNat < 2 ^ 18 := by omega
    refine ⟨_, congrArg Host.Outcome.next (s.codeWrite_sessQuota n v), ?_, State.setF_fmem .., State.setF_hnd ..⟩
    rw [getBits_whole small, State.quota_setF _ _ hv]
  · have small : v.toNat < 2 ^ 18 := by omega
    refine ⟨_, congrArg Host.Outcome.next (s.codeWrite_engQuota v), ?_, State.setF_fmem .., State.setF_hnd ..⟩
    rw [getBits_whole small]
    exact s.f_setF_fit (x := R.HND_ENG_QUOTA.QUOTA) (by decide) small

end

section
/-! SUPPORT. What the cells' allocation and release write (R231, R249, R321): owner tags, free lists, the lists of regions and slots,
and the banks that empty. The rest of the state goes through them as it was. -/
namespace Sys2Proof.Machine
open Sys2Proof

/-- The state without its cells: tags, free lists, the lists of regions and slots, and the replaced banks. -/
def State.offCells (s : State) : State := { s with
  fab := { s.fab with cells := [], fresh := [], unlisted := [], freed := [], repl := [], rsm := [] }
  spares := { s.spares with leaving := [], banksRetired := [] } }

theorem State.offCells_freshTake (p n : Nat) (s : State) : (State.freshTake p n s).2.offCells = s.offCells := by
  induction n generalizing s with
  | zero => rfl
  | succ n ih =>
    unfold State.freshTake
    dsimp only
    split
    · rfl
    · split
      · exact ih _
      · split
        · exact ih _
        · rfl

theorem State.offCells_cellTake (s : State) (p : Nat) (o : CellOwner) : (s.cellTake p o).2.offCells = s.offCells := by
  have take := State.offCells_freshTake p plotCells s
  have tag (t : State) (i : Nat) (x : CellTag) : (t.setCellTag p i x).offCells = t.offCells := rfl
  have freed (t : State) (l : List Nat) : (t.setFreed p l).offCells = t.offCells := rfl
  unfold State.cellTake
  dsimp only
  split
  · exact (tag ..).trans take
  · split
    · exact (tag ..).trans ((freed ..).trans take)
    · exact take

theorem State.offCells_cellsTake (p : Nat) (o : CellOwner) (n : Nat) (s : State) :
    (State.cellsTake p o n s).2.offCells = s.offCells := by
  induction n generalizing s with
  | zero => rfl
  | succ n ih => exact (ih _).trans (s.offCells_cellTake p o)

theorem State.offCells_bankEmptied (s : State) (p bank : Nat) : (s.bankEmptied p bank).offCells = s.offCells :=
  keeps_ite (g := State.offCells) rfl rfl

theorem State.offCells_cellFree (s : State) (p i : Nat) : (s.cellFree p i).offCells = s.offCells := by
  unfold State.cellFree
  extract_lets u v
  have freed : v.offCells = s.offCells := keeps_ite (g := State.offCells) rfl rfl
  split
  · exact (State.offCells_bankEmptied ..).trans freed
  · exact freed

theorem State.offCells_cellsFree (s : State) (p : Nat) (l : List Nat) : (s.cellsFree p l).offCells = s.offCells :=
  foldS_keeps State.offCells _ (fun i t => t.offCells_cellFree p i) l s

theorem State.offCells_regionFit (s : State) (p : Nat) (o : CellOwner) (l : List Nat) (need : Nat) :
    (s.regionFit p o l need).2.offCells = s.offCells := by
  unfold State.regionFit
  split
  · exact State.offCells_cellsTake ..
  · exact State.offCells_cellsFree ..

theorem State.offCells_regionsFit (s : State) : s.regionsFit.offCells = s.offCells := by
  have rsm (t : State) (n : Nat) (l : List Nat) : (t.setRsmCells n l).offCells = t.offCells := rfl
  have repl (t : State) (p : Nat) (l : List Nat) : (t.setReplCells p l).offCells = t.offCells := rfl
  unfold State.regionsFit
  dsimp only
  refine (foldS_keeps State.offCells _ (fun p t => ?_) _ _).trans (foldS_keeps State.offCells _ (fun n t => ?_) _ _)
  · rw [repl, State.offCells_regionFit]
  · rw [rsm, State.offCells_regionFit]

/-- What does not look at the cells is the same in states that differ in the cells alone. -/
theorem State.keeps_of_offCells {β : Type} {s t : State} (h : t.offCells = s.offCells) (g : State → β)
    (hg : ∀ u : State, g u.offCells = g u) : g t = g s := by
  rw [← hg t, h, hg s]

theorem State.regionsFit_keeps {β : Type} (g : State → β) (hg : ∀ u : State, g u.offCells = g u) (s : State) : g s.regionsFit = g s :=
  State.keeps_of_offCells s.offCells_regionsFit g hg

end Sys2Proof.Machine
end

section
/-! SUPPORT. Admission to a plot (R231–R235): a refusal changes two counters, and a good frame that is admitted is stored. -/
namespace Sys2Proof.Machine
open Sys2Proof

/-! ## A frame that is stored -/

theorem State.waiting_storeFrame (s : State) (x : FabFrame) (parts : List VoqPart) :
    (s.storeFrame x parts).fab.waiting = s.fab.waiting ++ parts :=
  congrArg (· ++ parts) (State.keeps_of_offCells (State.offCells_cellsTake (plotOf x.node) (.frame s.fab.nextFrame) x.cells
    (s.acctCharge (plotOf x.node) x.acct x.cells)) (·.fab.waiting) fun _ => rfl)

theorem State.fabFrame_setFrame (s : State) (i : Nat) (x : Option FabFrame) : (s.setFrame i x).fabFrame i = x := sget_sset_same ..

theorem State.fabFrame_storeFrame (s : State) (x : FabFrame) (parts : List VoqPart) :
    ∃ l, (s.storeFrame x parts).fabFrame s.fab.nextFrame = some { x with list := l } :=
  let c := State.cellsTake (plotOf x.node) (.frame s.fab.nextFrame) x.cells (s.acctCharge (plotOf x.node) x.acct x.cells)
  ⟨c.1, c.2.fabFrame_setFrame s.fab.nextFrame (some { x with list := c.1 })⟩

theorem State.acctUsed_storeFrame (s : State) {x : FabFrame} (parts : List VoqPart)
    (h : s.acctUsed (plotOf x.node) x.acct + x.cells < 131072) :
    (s.storeFrame x parts).acctUsed (plotOf x.node) x.acct = s.acctUsed (plotOf x.node) x.acct + x.cells := by
  let u := s.acctCharge (plotOf x.node) x.acct x.cells
  have taken : (s.storeFrame x parts).acctUsed (plotOf x.node) x.acct = u.acctUsed (plotOf x.node) x.acct :=
    State.keeps_of_offCells (State.offCells_cellsTake (plotOf x.node) (.frame s.fab.nextFrame) x.cells u)
      (·.acctUsed (plotOf x.node) x.acct) fun _ => rfl
  exact taken.trans (s.f_setF_fit (x := R.FAB_ACCT_USED.USED (plotOf x.node) x.acct) (show 0 + 17 ≤ 32 by decide) h)

/-! ## Admission -/

section
variable {s : State} {node : Nat} {f : Frame} {r : Route}

/-- The admission of a frame with a route from a node. -/
def State.admissionOf (s : State) (node : Nat) (f : Frame) (r : Route) : Admit :=
  s.admission (plotOf node) (8 * localOf node + r.cls) r.cls ((routeParts s.fab.nextFrame (plotOf node) r).map (·.voq)) f

variable (hr : r.uni ≠ [] ∨ r.multi ≠ [])
include hr

theorem State.enqueue_refused {c : Fld} (h : admitCount (plotOf node) (s.admissionOf node f r) = some c) (m : Mark) :
    s.enqueue node f r m = (s.count c).count (R.FAB_ACCT_DROP.DROP (plotOf node) (8 * localOf node + r.cls)) := by
  unfold State.admissionOf at h
  unfold State.enqueue
  dsimp only
  rw [if_neg (by tauto), h]

/-- A good frame that is not cut through is stored as it came, with its cells and its account. -/
theorem State.enqueue_admitted (had : s.admissionOf node f r = .yes) (hct : s.ctOn node r.cls = false) (hfcs : f.badFcs = false)
    (hlen : f.len ≤ 9216) (m : Mark) : ∃ x : FabFrame,
    s.enqueue node f r m = s.storeFrame x (routeParts s.fab.nextFrame (plotOf node) r) ∧ x.fr = f ∧ x.node = node ∧ x.cls = r.cls ∧
      x.cells = (f.len + 255) / 256 ∧ x.acct = 8 * localOf node + r.cls := by
  unfold State.admissionOf at had
  have long : decide (9216 < f.len) = false := decide_eq_false (by omega)
  unfold State.enqueue
  dsimp only
  rw [if_neg (by tauto), had, hct, long, hfcs]
  refine ⟨_, rfl, ?_, rfl, rfl, ?_, rfl⟩
  · show ({ f with len := min f.len 9216, badFcs := false } : Frame) = f
    rw [Nat.min_eq_left hlen, ← hfcs]
  · show ceilDiv (min f.len 9216) 256 = _
    rw [Nat.min_eq_left hlen]
    rfl

end

theorem State.admission_quota {s : State} {p a : Nat} (h : s.acctQuota p a ≤ s.acctUsed p a) (k : Nat) (voqs : List Nat) (f : Frame) :
    s.admission p a k voqs f = .quota := if_pos h

end Sys2Proof.Machine
end

section
open Sys2Proof Sys2Proof.Machine

/-- Settles O38: a refusal by its counter, an admitted frame by what storing it writes. -/
theorem frameAdmission : Obligations.FrameAdmission := by
  unfold Obligations.FrameAdmission
  intro s node f r m _ _ hr hct hfcs hlen p a ps ad t
  have refused {c : Fld} (h : admitCount p ad = some c) : t = (s.count c).count (R.FAB_ACCT_DROP.DROP p a) :=
    State.enqueue_refused hr h m
  refine ⟨fun h => refused (by rw [h]; rfl), fun h => refused (by rw [h]; rfl), fun h => refused (by rw [h]; rfl),
    fun h => refused (by rw [h]; rfl), fun h => ?_, fun h => State.admission_quota h ..⟩
  obtain ⟨x, eq, hx, hnode, hcls, hcells, hacct⟩ := State.enqueue_admitted hr h hct hfcs hlen m
  have stored : t = s.storeFrame x ps := eq
  have keeps {β : Type} (g : State → β) (hfab : ∀ (s : State) f, g (s.modFab f) = g s)
      (hset : ∀ (s : State) x v, x.blk = .fab → g (s.setF x v) = g s) : g t = g s := by
    rw [stored]
    exact State.storeFrame_keeps hfab hset ..
  refine ⟨?_, ?_, ?_, fun hroom => ?_, keeps (·.fmem) (fun _ _ => rfl) fun _ _ _ _ => rfl,
    keeps (·.rcd) (fun _ _ => rfl) fun _ _ _ _ => rfl⟩
  · rw [stored]
    exact s.waiting_storeFrame x ps
  · rw [stored]
    rfl
  · obtain ⟨l, hl⟩ := s.fabFrame_storeFrame x ps
    rw [stored]
    exact ⟨_, hl, hx, hnode, hcls, hcells, hacct⟩
  · have plot : plotOf x.node = p := congrArg plotOf hnode
    have charged := s.acctUsed_storeFrame (x := x) ps
    rw [plot, hacct, hcells] at charged
    rw [stored]
    exact charged hroom

end

section
/-! SUPPORT. The forwarding database as a map (R199), its commands (R202, R227), and a write of an account's quota (R238). -/
namespace Sys2Proof.Machine
open Sys2Proof

/-! ## The entries -/

/-- A canonical map from which entries are removed reads, at every key, as the entry there when it stays. -/
theorem sget_filter {α : Type} [DecidableEq α] (d : Nat → α) (q : Nat × α → Bool) (k : Nat) : ∀ {m : Store α}, srising m = true →
    sget d (m.filter q) k = if q (k, sget d m k) = true then sget d m k else d k
  | [], _ => (ite_self _).symm
  | (j, v) :: r, h => by
    have ih := sget_filter d q k (srising_of_above h)
    rw [List.filter_cons]
    by_cases hj : j = k
    · subst hj
      rw [sget_below d j (Nat.le_refl j) h, ite_self] at ih
      by_cases hq : q (j, v) = true
      · simp [sget, hq]
      · simp [sget, hq, ih]
    · split
      · simpa [sget, hj] using ih
      · simpa [sget, hj] using ih

theorem State.fdbAt_fdbFlush {s : State} (h : swf fdbDefault s.fab.fdb = true) (p : Nat → FdbEntry → Bool) (k : Nat) :
    (s.fdbFlush p).fdbAt k = (s.fdbAt k).filter fun e => e.static || !p k e := by
  refine (sget_filter fdbDefault _ k ((swf_iff ..).1 h).1).trans ?_
  change (if (match s.fdbAt k with | some x => x.static || !p k x | none => false) = true then s.fdbAt k else none) = _
  cases s.fdbAt k with
  | none => rfl
  | some e => rfl

theorem State.fdbAt_setFdb (s : State) (k j : Nat) (e : Option FdbEntry) : (s.setFdb k e).fdbAt j = if j = k then e else s.fdbAt j :=
  sget_sset ..

/-! ## Commands -/

section
variable {s : State}

/-- A command is in progress, and will post a result. -/
def State.fdbBusy (s : State) (r : Nat) : State :=
  (s.setF R.FAB_FDB_STATUS.BUSY 1).modFab (fun b => { b with fdbResult := some r })

theorem State.fdbAt_fdbBusy (s : State) (r k : Nat) : (s.fdbBusy r).fdbAt k = s.fdbAt k := rfl

theorem State.fdbStart_busy (h : s.on R.FAB_FDB_STATUS.BUSY = true) (k : State → Nat × State) : s.fdbStart k = s := if_pos h

section
variable (h : s.on R.FAB_FDB_STATUS.BUSY = false)
include h

theorem State.fdbStart_idle (k : State → Nat × State) : s.fdbStart k = (k s).2.fdbBusy (k s).1 := if_neg (by rw [h]; decide)

theorem State.fdb_badKey (hb : s.fdbBadKey = true) :
    s.fdbRead = s.fdbBusy 3 ∧ s.fdbWriteStatic = s.fdbBusy 3 ∧ s.fdbDelete = s.fdbBusy 3 := by
  refine ⟨?_, ?_, ?_⟩
  · rw [State.fdbRead, State.fdbStart_idle h, if_pos hb]
  · rw [State.fdbWriteStatic, State.fdbStart_idle h]
    simp only [if_pos hb]
  · rw [State.fdbDelete, State.fdbStart_idle h]
    simp only [if_pos hb]

section
variable (hb : s.fdbBadKey = false)
include hb

theorem State.fdbRead_eq : s.fdbRead = match s.fdbAt (fdbKey s.fdbKeyVid s.fdbKeyMac) with
    | some e => (s.setR R.FAB_FDB_DATA.reg (fdbDataWord e)).fdbBusy 0
    | none => s.fdbBusy 1 := by
  rw [State.fdbRead, State.fdbStart_idle h]
  simp only [hb, Bool.false_eq_true, if_false]
  cases s.fdbAt (fdbKey s.fdbKeyVid s.fdbKeyMac) <;> rfl

theorem State.fdbDelete_eq : s.fdbDelete = match s.fdbAt (fdbKey s.fdbKeyVid s.fdbKeyMac) with
    | some _ => (s.setFdb (fdbKey s.fdbKeyVid s.fdbKeyMac) none).fdbBusy 0
    | none => s.fdbBusy 1 := by
  rw [State.fdbDelete, State.fdbStart_idle h]
  simp only [hb, Bool.false_eq_true, if_false]
  cases s.fdbAt (fdbKey s.fdbKeyVid s.fdbKeyMac) <;> rfl

theorem State.fdbWriteStatic_full (hn : s.fdbAt (fdbKey s.fdbKeyVid s.fdbKeyMac) = none)
    (hf : s.fdbFull s.fdbKeyVid s.fdbKeyMac = true) : s.fdbWriteStatic = s.fdbBusy 2 := by
  rw [State.fdbWriteStatic, State.fdbStart_idle h]
  simp only [hb, hn, hf, Bool.false_eq_true, if_false, Option.isNone_none, Bool.and_self, if_true]

theorem State.fdbWriteStatic_taken
    (hr : s.fdbAt (fdbKey s.fdbKeyVid s.fdbKeyMac) ≠ none ∨ s.fdbFull s.fdbKeyVid s.fdbKeyMac = false) : s.fdbWriteStatic =
      (s.setFdb (fdbKey s.fdbKeyVid s.fdbKeyMac) (some ⟨s.f R.FAB_FDB_DATA.PORT, true, s.opTotal⟩)).fdbBusy 0 := by
  have room : ((s.fdbAt (fdbKey s.fdbKeyVid s.fdbKeyMac)).isNone && s.fdbFull s.fdbKeyVid s.fdbKeyMac) = false := by
    rw [Bool.and_eq_false_iff]
    exact hr.imp_left fun hn => by rwa [Option.isNone_eq_false_iff, Option.isSome_iff_ne_none]
  rw [State.fdbWriteStatic, State.fdbStart_idle h]
  simp only [hb, room, Bool.false_eq_true, if_false]

end

end

theorem State.fdbDone_posts {r : Nat} (h : s.fab.fdbResult = some r) : s.fdbDone =
    ((s.setF R.FAB_FDB_STATUS.BUSY 0).setF R.FAB_FDB_STATUS.RESULT r).modFab (fun b => { b with fdbResult := none }) := by
  rw [State.fdbDone, h]

theorem State.fdbAgeOut_dynamic {vid : Nat} {m : Mac} {e : FdbEntry} (he : s.fdbAt (fdbKey vid m) = some e) (hs : e.static = false)
    (ha : s.f R.FAB_FDB_AGE.AGE ≠ 0) : s.fdbAgeOut vid m =
      if e.stamp + s.f R.FAB_FDB_AGE.AGE * secTicks ≤ s.opTotal then s.setFdb (fdbKey vid m) none else s := by
  rw [State.fdbAgeOut, he]
  simp [hs, ha]

end

/-! ## A write of a quota -/

section
variable (s : State) (p : Fin 8) (a : Fin 264) (v : BitVec 17)

/-- What stands beside the field OVER_NOW and the event QUOTA_OVER stays when a quota is judged. -/
def State.quotaJudged (s : State) (p a : Nat) (late : Bool) : State :=
  if late then (s.raise (E.FAB_BUF_EVT.QUOTA_OVER p)).setF (R.FAB_ACCT_USED.OVER_NOW p a) 1
  else s.setF (R.FAB_ACCT_USED.OVER_NOW p a) 0

theorem State.acctQuotaWrite_eq : s.acctQuotaWrite p a v.toNat = (s.setF (R.FAB_ACCT_QUOTA.QUOTA p a) v.toNat).quotaJudged p a
    (decide (min v.toNat 98304 ≤ s.acctUsed p a)) := by
  have quota : (s.setF (R.FAB_ACCT_QUOTA.QUOTA p a) v.toNat).f (R.FAB_ACCT_QUOTA.QUOTA p a) = v.toNat :=
    s.f_setF_fit (show 0 + 17 ≤ 32 by decide) v.isLt
  have used : (s.setF (R.FAB_ACCT_QUOTA.QUOTA p a) v.toNat).acctUsed p a = s.acctUsed p a :=
    s.f_setF_ne _ _ _ (show 0 + 17 ≤ 32 by decide) (.inr (.inl (by simp only [R.FAB_ACCT_QUOTA.QUOTA, R.FAB_ACCT_USED.USED]; omega)))
  unfold State.acctQuotaWrite State.quotaJudged
  simp only [State.acctQuota, quota, used, decide_eq_true_eq]

variable (late : Bool)

theorem State.quota_quotaJudged : (s.quotaJudged p a late).f (R.FAB_ACCT_QUOTA.QUOTA p a) = s.f (R.FAB_ACCT_QUOTA.QUOTA p a) := by
  have other (t : State) (n : Nat) : (t.setF (R.FAB_ACCT_USED.OVER_NOW p a) n).f (R.FAB_ACCT_QUOTA.QUOTA p a) =
      t.f (R.FAB_ACCT_QUOTA.QUOTA p a) :=
    t.f_setF_ne _ _ _ (show 31 + 1 ≤ 32 by decide) (.inr (.inl (by simp only [R.FAB_ACCT_QUOTA.QUOTA, R.FAB_ACCT_USED.OVER_NOW]; omega)))
  have raised : (s.raise (E.FAB_BUF_EVT.QUOTA_OVER p)).f (R.FAB_ACCT_QUOTA.QUOTA p a) = s.f (R.FAB_ACCT_QUOTA.QUOTA p a) :=
    s.f_raise_off _ (by simp only [E.FAB_BUF_EVT.QUOTA_OVER, R.FAB_ACCT_QUOTA.QUOTA]; omega)
      (by simp only [E.FAB_BUF_EVT.QUOTA_OVER, R.FAB_ACCT_QUOTA.QUOTA]; omega)
  exact keeps_ite (g := (·.f (R.FAB_ACCT_QUOTA.QUOTA p a))) ((other ..).trans raised) (other ..)

theorem State.overNow_quotaJudged : (s.quotaJudged p a late).on (R.FAB_ACCT_USED.OVER_NOW p a) = late := by
  have set (t : State) (n : Nat) : (t.setF (R.FAB_ACCT_USED.OVER_NOW p a) n).f (R.FAB_ACCT_USED.OVER_NOW p a) = n % 2 :=
    t.f_setF_same _ n (show 31 + 1 ≤ 32 by decide)
  cases late with
  | true => exact congrArg (· != 0) (set ..)
  | false => exact congrArg (· != 0) (set ..)

theorem State.flag_quotaJudged : (s.quotaJudged p a true).flag (E.FAB_BUF_EVT.QUOTA_OVER p) = true := by
  have raised : (s.raise (E.FAB_BUF_EVT.QUOTA_OVER p)).flag (E.FAB_BUF_EVT.QUOTA_OVER p) = true :=
    s.flag_raise _ (show 0 < 32 by decide) (show 0 ≤ 16 by decide) (.inl (by simp only [E.FAB_BUF_EVT.QUOTA_OVER]; omega))
  refine (congrArg (· != 0) (State.f_setF_ne _ _ _ _ (show 31 + 1 ≤ 32 by decide) (.inr (.inl ?_)))).trans raised
  simp only [E.FAB_BUF_EVT.QUOTA_OVER, R.FAB_ACCT_USED.OVER_NOW]
  omega

theorem State.quotaJudged_fab : (s.quotaJudged p a late).fab = s.fab := by cases late <;> rfl
theorem State.quotaJudged_fmem : (s.quotaJudged p a late).fmem = s.fmem := by cases late <;> rfl

end

end Sys2Proof.Machine
end

section
open Sys2Proof Sys2Proof.Machine

/-- Settles O40: each command by what it posts, the entries by the map, the quota by its judgement. -/
theorem forwardingDatabase : Obligations.ForwardingDatabase := by
  unfold Obligations.ForwardingDatabase
  refine ⟨fun s hi => ?_, fun s p k h => State.fdbAt_fdbFlush h p k, fun s hb => ?_, fun s r hr h4 => ?_,
    fun s v m e he hs ha => ⟨fun hold => ?_, fun hnew => ?_⟩, fun s p a v => ?_⟩
  · intro k busy
    refine ⟨fun hb => ?_, fun hb => ⟨fun e he => ⟨?_, ?_⟩, fun hn => ⟨?_, ?_⟩, fun hn hf => ?_, fun hr => ?_⟩, ?_, ?_, ?_⟩
    · obtain ⟨read, write, delete⟩ := State.fdb_badKey hi hb
      exact ⟨congrArg Host.Outcome.next read, congrArg Host.Outcome.next write, congrArg Host.Outcome.next delete⟩
    · exact congrArg Host.Outcome.next (by rw [State.fdbRead_eq hi hb, he]; rfl)
    · exact congrArg Host.Outcome.next (by rw [State.fdbDelete_eq hi hb, he]; rfl)
    · exact congrArg Host.Outcome.next (by rw [State.fdbRead_eq hi hb, hn]; rfl)
    · exact congrArg Host.Outcome.next (by rw [State.fdbDelete_eq hi hb, hn]; rfl)
    · exact congrArg Host.Outcome.next (State.fdbWriteStatic_full hi hb hn hf)
    · refine ⟨_, congrArg Host.Outcome.next (State.fdbWriteStatic_taken hi hb hr),
        ⟨⟨s.f R.FAB_FDB_DATA.PORT, true, s.opTotal⟩, ?_, rfl, rfl⟩, fun j hj => ?_, rfl⟩
      · rw [State.fdbAt_fdbBusy, State.fdbAt_setFdb, if_pos rfl]
      · rw [State.fdbAt_fdbBusy, State.fdbAt_setFdb, if_neg hj]
    · exact congrArg Host.Outcome.next (State.fdbStart_idle hi _)
    · exact congrArg Host.Outcome.next (State.fdbStart_idle hi _)
    · exact congrArg Host.Outcome.next (State.fdbStart_idle hi _)
  · have ignored (k : State → Nat × State) : Host.Outcome.next (s.fdbStart k) = (.next s : Res) :=
      congrArg Host.Outcome.next (State.fdbStart_busy hb k)
    exact ⟨ignored _, ignored _, ignored _, ignored _, ignored _, ignored _⟩
  · refine ⟨_, congrArg Host.Outcome.next (State.fdbDone_posts hr), ?_, ?_, rfl⟩
    · refine congrArg (· != 0) ((State.f_setF_ne _ R.FAB_FDB_STATUS.RESULT R.FAB_FDB_STATUS.BUSY r (by decide) ?_).trans
        (s.f_setF_fit (v := 0) (by decide) (by decide)))
      exact .inr (.inr (.inl (by decide)))
    · exact State.f_setF_fit _ (by decide) (show r < 2 ^ 8 by omega)
  · exact congrArg Host.Outcome.next ((State.fdbAgeOut_dynamic he hs ha).trans (if_pos hold))
  · exact congrArg Host.Outcome.next ((State.fdbAgeOut_dynamic he hs ha).trans (if_neg hnew.not_ge))
  · refine ⟨_, congrArg Host.Outcome.next (s.acctQuotaWrite_eq p a v), ?_, fun h => ?_, fun h => ?_, ?_, ?_⟩
    · rw [State.quota_quotaJudged]
      exact s.f_setF_fit (show 0 + 17 ≤ 32 by decide) v.isLt
    · rw [decide_eq_true h]
      exact ⟨State.overNow_quotaJudged .., State.flag_quotaJudged ..⟩
    · rw [decide_eq_false h.not_ge]
      exact State.overNow_quotaJudged ..
    · exact State.quotaJudged_fab ..
    · exact State.quotaJudged_fmem ..

end

section
/-! SUPPORT. A frame that enters the fabric (R192–R196, R200, R260, R268): what every port does first with it, its lines of
classification, and the frames of the control port. -/
namespace Sys2Proof.Machine
open Sys2Proof

section
variable {s : State} {n : Nat} {f : Frame}

/-! ## What the counters of a port leave alone -/

theorem State.rd_addPair_ne (s : State) (lo hi : Reg) (v : Nat) {b : Blk} {o : Nat} (hl : lo.blk ≠ b ∨ lo.off ≠ o)
    (hh : hi.blk ≠ b ∨ hi.off ≠ o) : (s.addPair lo hi v).rd b o = s.rd b o :=
  (State.rd_setR_ne _ _ _ hh).trans (State.rd_setR_ne _ _ _ hl)

/-- Received frames and octets are counted in registers of the port alone, above its configuration and status. -/
theorem State.rd_rxCount_ne (s : State) (n : Nat) (f : Frame) {b : Blk} {o : Nat} (h : b ≠ .port ∨ o % 0x10000 < 0x40) :
    (s.rxCount n f).rd b o = s.rd b o := by
  have apart {k : Nat} (hk : 0x40 ≤ k ∧ k < 0x10000) : Blk.port ≠ b ∨ k + 0x10000 * n ≠ o :=
    h.imp Ne.symm fun ho he => by omega
  refine (State.rd_addPair_ne _ _ _ _ ?_ ?_).trans (State.rd_addPair_ne _ _ _ _ ?_ ?_)
  · exact apart (k := 0x48) (by decide)
  · exact apart (k := 0x4c) (by decide)
  · exact apart (k := 0x40) (by decide)
  · exact apart (k := 0x44) (by decide)

theorem State.portRole_rxCount (s : State) (n m : Nat) (f : Frame) : (s.rxCount n f).portRole m = s.portRole m :=
  congrArg (getBits · 26 2) (s.rd_rxCount_ne n f (.inr (show (0x0 + 0x10000 * m) % 0x10000 < 0x40 by omega)))

theorem State.ringOf_congr {t : State} {m : Nat} (hrole : t.portRole m = s.portRole m) (hring : ∀ x : Fld, x.blk = .ring → t.f x = s.f x) :
    t.ringOf m = s.ringOf m := by
  have hon (k : Nat) : t.ringOn k = s.ringOn k := congrArg (· != 0) (hring _ rfl)
  have ha (k : Nat) : t.ringA k = s.ringA k := hring _ rfl
  have hb (k : Nat) : t.ringB k = s.ringB k := hring _ rfl
  simp only [State.ringOf, hrole, hon, ha, hb]

theorem State.ringOf_rxCount (s : State) (n m : Nat) (f : Frame) : (s.rxCount n f).ringOf m = s.ringOf m :=
  State.ringOf_congr (s.portRole_rxCount n m f) fun x hx => congrArg (getBits · x.lsb x.width) (s.rd_rxCount_ne n f (.inl (by rw [hx]; decide)))

theorem State.bridgePort_offRing (h : s.ringOf n = none) : s.bridgePort n = n := by
  rw [State.bridgePort, h, ite_self]

theorem State.bridgePort_control (s : State) (h : 256 ≤ n) : s.bridgePort n = n := by
  rw [State.bridgePort, if_neg (by omega)]

theorem State.bridgePort_lt (s : State) (h : n < 256) : s.bridgePort n < 256 := by
  unfold State.bridgePort
  split
  · exact State.f_lt ..
  · exact h

/-! ## First steps -/

theorem State.portIn_down (h : s.portUp n = false) (k : State → State) : s.portIn n f k = s := if_pos (by rw [h]; rfl)

section
variable (h : s.portUp n = true)
include h

theorem State.portIn_up (k : State → State) : s.portIn n f k =
    if f.etype = etMacCtl then (s.rxCount n f).count (R.PORT_CNT_MACCTL.COUNT n)
    else if f.len < 64 then (s.rxCount n f).count (R.FAB_CNT_RUNT.COUNT (n / 32)) else k (s.rxCount n f) :=
  if_neg (by rw [h]; decide)

theorem State.frameIn_data (hm : f.etype ≠ etMacCtl) (hl : 64 ≤ f.len) :
    s.frameIn n f = ((s.rxCount n f).frameTo n f).announce n f := by
  rw [State.frameIn, State.portIn_up h, if_neg hm, if_neg hl.not_gt]

end

/-- Announce messages are PTP messages. -/
theorem State.announce_other (h : f.etype ≠ etPtp) (s : State) : s.announce n f = s :=
  if_neg (by rw [Frame.isAnnounce, beq_false_of_ne h]; simp)

/-! ## The lines of classification -/

theorem State.frameTo_pair (h : s.portRole n = prPair) : s.frameTo n f = s.toControl n (if f.etype = etPtp then 7 else 6) none f :=
  if_pos h

theorem State.frameTo_ring {k : Nat} (h : s.portRole n ≠ prPair) (hk : s.ringOf n = some k) : s.frameTo n f = s.ringIn k n f := by
  rw [State.frameTo, if_neg h, hk]

theorem State.frameTo_plain (h : s.portRole n ≠ prPair) (hk : s.ringOf n = none) : s.frameTo n f = s.plainIn n f := by
  rw [State.frameTo, if_neg h, hk]

theorem State.plainIn_control (h : f.etype = etPtp ∨ f.etype = etHsrSv) : s.plainIn n f = s.toControl n 7 none f := if_pos h

theorem State.plainIn_field (h : f.etype = etField) : s.plainIn n f = s.count (R.FAB_CNT_FIELD_DROP.COUNT (n / 32)) := by
  rw [State.plainIn, if_neg (by rw [h]; decide), if_pos h]

theorem State.plainIn_other (hp : f.etype ≠ etPtp) (hs : f.etype ≠ etHsrSv) (hf : f.etype ≠ etField) :
    s.plainIn n f = s.bridgeIn n f [] := by
  rw [State.plainIn, if_neg (not_or.2 ⟨hp, hs⟩), if_neg hf]

/-- A class above 5 is capped, and counted (R193). -/
def State.capped (s : State) (n : Nat) (f : Frame) : State :=
  if 5 < s.trustClass n f then s.count (R.FAB_CNT_CAPPED.COUNT (n / 32)) else s

theorem State.ringOf_capped (s : State) (n m : Nat) (f : Frame) : (s.capped n f).ringOf m = s.ringOf m :=
  keeps_ite (g := (·.ringOf m)) (State.ringOf_congr rfl fun _ h => s.f_ring_fab h _ rfl) rfl

/-- Whether a frame's source is learned (R200). -/
def State.learns (s : State) (n : Nat) (f : Frame) : Bool :=
  !macMulticast f.src && s.on (R.FAB_PORTCFG.LEARN (n / 32) (n % 32)) && s.on (R.FAB_VLAN_CFG.LEARN (s.vidOf n f))

theorem State.bridgeIn_eq (s : State) (n : Nat) (f : Frame) (pass : List Nat) : s.bridgeIn n f pass =
    match (s.capped n f).acceptOn n f with
    | .accept => (s.capped n f).count (R.FAB_CNT_ACCEPT.COUNT (n / 32))
    | .filter => (s.capped n f).count (R.FAB_CNT_VLAN_FILTER.COUNT (n / 32))
    | .ok => (if (s.capped n f).learns n f then
        (s.capped n f).fdbLearn ((s.capped n f).vidOf n f) f.src ((s.capped n f).bridgePort n) else s.capped n f).bridgeTo' n
          (min (s.trustClass n f) 5) ((s.capped n f).vidOf n f) f pass .none := rfl

theorem State.bridgeIn_accept (h : (s.capped n f).acceptOn n f = .accept) (pass : List Nat) :
    s.bridgeIn n f pass = (s.capped n f).count (R.FAB_CNT_ACCEPT.COUNT (n / 32)) := by
  rw [State.bridgeIn_eq, h]

theorem State.bridgeIn_filter (h : (s.capped n f).acceptOn n f = .filter) (pass : List Nat) :
    s.bridgeIn n f pass = (s.capped n f).count (R.FAB_CNT_VLAN_FILTER.COUNT (n / 32)) := by
  rw [State.bridgeIn_eq, h]

theorem State.bridgeIn_unlearned (h : (s.capped n f).acceptOn n f = .ok) (hl : (s.capped n f).learns n f = false) (pass : List Nat) :
    s.bridgeIn n f pass = (s.capped n f).bridgeTo' n (min (s.trustClass n f) 5) ((s.capped n f).vidOf n f) f pass .none := by
  rw [State.bridgeIn_eq, h, hl]
  rfl

theorem State.bridgeIn_learned (h : (s.capped n f).acceptOn n f = .ok) (hl : (s.capped n f).learns n f = true)
    (hk : s.ringOf n = none) (pass : List Nat) : s.bridgeIn n f pass =
      ((s.capped n f).fdbLearn ((s.capped n f).vidOf n f) f.src n).bridgeTo' n (min (s.trustClass n f) 5)
        ((s.capped n f).vidOf n f) f pass .none := by
  rw [State.bridgeIn_eq, h, hl, State.bridgePort_offRing ((s.ringOf_capped n n f).trans hk)]
  rfl

/-! ## Frames of the control port -/

theorem State.ringNumbers_none {ts : List Nat} (h : ∀ k, k < 128 → s.ringOn k = true → s.ringA k ∉ ts ∧ s.ringB k ∉ ts) :
    s.ringNumbers ts = ([], s) := by
  have none : (List.range 128).filter (fun k => s.ringOn k && (ts.contains (s.ringA k) || ts.contains (s.ringB k))) = [] := by
    rw [List.filter_eq_nil_iff]
    intro k hk
    cases hon : s.ringOn k with
    | false => simp
    | true =>
      obtain ⟨ha, hb⟩ := h k (List.mem_range.1 hk) hon
      simp [ha, hb]
  rw [State.ringNumbers, none]
  rfl

theorem State.ringNumbers_one {ts : List Nat} {k : Nat} (hk : k < 128)
    (h : ∀ j, j < 128 → (s.ringOn j = true ∧ (s.ringA j ∈ ts ∨ s.ringB j ∈ ts) ↔ j = k)) :
    s.ringNumbers ts = ([(k, s.f (R.RING_SEQ.SEQ k))], s.setF (R.RING_SEQ.SEQ k) (s.f (R.RING_SEQ.SEQ k) + 1)) := by
  have one : (List.range 128).filter (fun k => s.ringOn k && (ts.contains (s.ringA k) || ts.contains (s.ringB k))) = [k] := calc
    _ = (List.range 128).filter (· == k) := by
      refine List.filter_congr fun j hj => ?_
      rw [Bool.eq_iff_iff]
      simpa using h j (List.mem_range.1 hj)
    _ = [k] := by
      rw [List.filter_beq, List.count_eq_one_of_mem List.nodup_range (List.mem_range.2 hk)]
      rfl
  rw [State.ringNumbers, one]
  rfl

section
variable {p : Nat} {m : Mark}

theorem State.controlIn_filtered
    (h : f.vidIn = 4095 ∨ s.on (R.FAB_VLAN_CFG.VALID f.vidIn) = false ∨ s.vlanMember f.vidIn (ctlNode p) = false) :
    s.controlIn p none f m = s.count (R.FAB_CNT_VLAN_FILTER.COUNT p) :=
  if_pos (by simpa [or_assoc] using h)

theorem State.controlIn_bridged (hv : f.vidIn ≠ 4095) (hon : s.on (R.FAB_VLAN_CFG.VALID f.vidIn) = true)
    (hm : s.vlanMember f.vidIn (ctlNode p) = true) :
    s.controlIn p none f m = s.bridgeTo' (ctlNode p) f.ownClass f.vidIn f [] m :=
  if_neg (by simp [hv, hon, hm])

theorem State.controlIn_named_ptp (h : f.etype = etPtp) :
    s.controlIn p (some n) f m = s.enqueue (ctlNode p) f ⟨7, none, [n], [], false, [], false⟩ m := by
  have cls : f.ownClass = 7 := if_pos (.inl h)
  simp only [State.controlIn, if_pos h, cls]

theorem State.controlIn_named (h : f.etype ≠ etPtp) : s.controlIn p (some n) f m =
    (s.ringNumbers [n]).2.enqueue (ctlNode p) f ⟨f.ownClass, none, [n], [], false, (s.ringNumbers [n]).1, false⟩ m := by
  simp only [State.controlIn, if_neg h]

end

end

end Sys2Proof.Machine
end

section
/-! SUPPORT. Where the bridge sends a frame (R203, R241, R266). -/
namespace Sys2Proof.Machine
open Sys2Proof

theorem macMulticast_broadcast : macMulticast macBroadcast = true := by decide

section
variable {s : State} {n v : Nat} {f : Frame}

/-- The nodes of a VLAN beside the bridge port of entry. -/
def State.floodTargets (s : State) (n v : Nat) : List Nat :=
  (allNodes (plotOf n)).filter (fun t => s.vlanMember v t && s.bridgePort t != s.bridgePort n && t != n)

/-- Where a frame to a multicast address goes, by the group that is found for it. -/
def State.groupDest (s : State) (n v : Nat) : Option Nat → Dest
  | some g => if (s.floodTargets n v).filter (s.mcgMember g) = [] then .emptyGroup
    else .multi ((s.floodTargets n v).filter (s.mcgMember g)) (s.on (R.FAB_MCG_CFG.SOWN g))
  | none => .multi (s.floodTargets n v) false

/-- Where a frame to a unicast address goes, by the entry that is found for it. -/
def State.entryDest (s : State) (n v : Nat) : Option FdbEntry → Dest
  | some e =>
    let t := if e.node = 256 then ctlNode (plotOf n) else e.node
    if s.bridgePort t = s.bridgePort n ∨ 256 < e.node ∨ s.bridged t = false then .same else .one t
  | none => .multi (s.floodTargets n v) false

theorem State.destOf_eq (s : State) (n v : Nat) (f : Frame) : s.destOf n v f =
    if f.dst = macBroadcast then .multi (s.floodTargets n v) false
    else if macMulticast f.dst then s.groupDest n v (s.mcgFind v f.dst)
    else if f.dst = s.modMac ∧ v = s.f R.FAB_MGMT_VLAN.VID ∧ v ≠ 0 then .one (ctlNode (plotOf n))
    else s.entryDest n v (s.fdbAt (fdbKey v f.dst)) := by
  have all : (allNodes (plotOf n)).filter (fun t => s.vlanMember v t && s.bridgePort t != s.bridgePort n && t != n && true) =
      s.floodTargets n v := List.filter_congr fun t _ => Bool.and_true _
  have group (g : Nat) : (allNodes (plotOf n)).filter
      (fun t => s.vlanMember v t && s.bridgePort t != s.bridgePort n && t != n && s.mcgMember g t) =
      (s.floodTargets n v).filter (s.mcgMember g) :=
    (List.filter_congr fun t _ => Bool.and_comm _ _).trans List.filter_filter.symm
  unfold State.destOf
  cases s.mcgFind v f.dst <;> cases s.fdbAt (fdbKey v f.dst) <;> simp only [all, group] <;> rfl

theorem State.destOf_broadcast (h : f.dst = macBroadcast) : s.destOf n v f = .multi (s.floodTargets n v) false := by
  rw [State.destOf_eq, if_pos h]

theorem State.destOf_multicast (h : macMulticast f.dst = true) (hb : f.dst ≠ macBroadcast) :
    s.destOf n v f = s.groupDest n v (s.mcgFind v f.dst) := by
  rw [State.destOf_eq, if_neg hb, if_pos h]

section
variable (h : macMulticast f.dst = false)
include h

theorem State.destOf_unicast : s.destOf n v f = if f.dst = s.modMac ∧ v = s.f R.FAB_MGMT_VLAN.VID ∧ v ≠ 0 then .one (ctlNode (plotOf n))
    else s.entryDest n v (s.fdbAt (fdbKey v f.dst)) := by
  have hb : f.dst ≠ macBroadcast := fun hb => by rw [hb, macMulticast_broadcast] at h; cases h
  rw [State.destOf_eq, if_neg hb, if_neg (by rw [h]; decide)]

variable (hm : ¬ (f.dst = s.modMac ∧ v = s.f R.FAB_MGMT_VLAN.VID ∧ v ≠ 0))
include hm

theorem State.destOf_unknown (hn : s.fdbAt (fdbKey v f.dst) = none) : s.destOf n v f = .multi (s.floodTargets n v) false := by
  rw [State.destOf_unicast h, if_neg hm, hn]
  rfl

variable {e : FdbEntry} (he : s.fdbAt (fdbKey v f.dst) = some e)
include he

theorem State.destOf_port (hp : e.node < 256) : s.destOf n v f =
    if s.bridgePort e.node = s.bridgePort n ∨ s.bridged e.node = false then .same else .one e.node := by
  have real : ¬ 256 < e.node := by omega
  rw [State.destOf_unicast h, if_neg hm, he]
  simp only [State.entryDest, if_neg hp.ne, real, false_or]

theorem State.destOf_reserved (hp : 256 < e.node) : s.destOf n v f = .same := by
  rw [State.destOf_unicast h, if_neg hm, he]
  simp only [State.entryDest, hp, true_or, or_true, if_true]

/-- An entry for the control port leads to its attachment to the plot of entry, but not back into it. -/
theorem State.destOf_control (hn : n < 264) (hp : e.node = 256) :
    s.destOf n v f = if n = ctlNode (plotOf n) then .same else .one (ctlNode (plotOf n)) := by
  have attached : 256 ≤ ctlNode (plotOf n) := Nat.le_add_right ..
  have bridged : s.bridged (ctlNode (plotOf n)) = true := by
    rw [State.bridged, decide_eq_false (by omega)]
    rfl
  have same : s.bridgePort (ctlNode (plotOf n)) = s.bridgePort n ↔ n = ctlNode (plotOf n) := by
    rw [s.bridgePort_control attached]
    by_cases h256 : n < 256
    · have := s.bridgePort_lt h256
      omega
    · rw [s.bridgePort_control (by omega)]
      exact eq_comm
  rw [State.destOf_unicast h, if_neg hm, he]
  simp only [State.entryDest, hp, if_true, bridged, same, Nat.lt_irrefl, Bool.true_eq_false, or_false]

end

end

end Sys2Proof.Machine
end

section
open Sys2Proof Sys2Proof.Machine

/-- Settles O37: a frame on a port by the lines of R192, one of the control port by R194, the bridge by R203. -/
theorem frameEntry : Obligations.FrameEntry := by
  unfold Obligations.FrameEntry
  refine ⟨fun s n f h => congrArg Host.Outcome.next (show s.frameIn n f = s from State.portIn_down h _), fun s n f hup => ?_, fun s p f id sync => ?_,
    fun s n v f hn => ?_⟩
  · intro u run data w cls v
    have entry {t : State} (ht : s.frameIn n f = t) : run = .next t := congrArg Host.Outcome.next ht
    refine ⟨fun hm => ?_, fun hm hl => ?_, fun hd hr hp => ?_, fun hd hr hp => ?_, fun hd hr k hk => ?_, fun hd hr hk => ?_⟩
    · exact entry ((State.portIn_up hup _).trans (if_pos hm))
    · exact entry ((State.portIn_up hup _).trans ((if_neg hm).trans (if_pos hl)))
    all_goals
      have go {t : State} (ht : u.frameTo n f = t) : run = .next (t.announce n f) :=
        entry ((State.frameIn_data hup hd.1 hd.2).trans (congrArg (·.announce n.val f) ht))
      have quiet {t : State} (hp : f.etype ≠ 0x88F7) (ht : u.frameTo n f = t) : run = .next t :=
        (go ht).trans (congrArg Host.Outcome.next (t.announce_other hp))
      have role : u.portRole n = s.portRole n := s.portRole_rxCount n n f
      have ring : u.ringOf n = s.ringOf n := s.ringOf_rxCount n n f
    · exact go ((State.frameTo_pair (role.trans hr)).trans (congrArg (u.toControl n · none f) (if_pos hp)))
    · exact quiet hp ((State.frameTo_pair (role.trans hr)).trans (congrArg (u.toControl n · none f) (if_neg hp)))
    · exact go (State.frameTo_ring (role.trans_ne hr) (ring.trans hk))
    · have plain : u.frameTo n f = u.plainIn n f := State.frameTo_plain (role.trans_ne hr) (ring.trans hk)
      refine ⟨fun hp => go (plain.trans (State.plainIn_control (.inl hp))),
        fun hs => quiet (by rw [hs]; decide) (plain.trans (State.plainIn_control (.inr hs))),
        fun hf => quiet (by rw [hf]; decide) (plain.trans (State.plainIn_field hf)), fun hp hs hf => ?_⟩
      have bridged {t : State} (ht : u.bridgeIn n f [] = t) : run = .next t :=
        quiet hp (plain.trans ((State.plainIn_other hp hs hf).trans ht))
      refine ⟨fun ha => bridged (State.bridgeIn_accept ha _), fun ha => bridged (State.bridgeIn_filter ha _),
        fun ha => ⟨fun hl => bridged (State.bridgeIn_unlearned ha ?_ _), fun hs hp hv =>
          bridged (State.bridgeIn_learned ha ?_ (ring.trans hk) _)⟩⟩
      · show (!macMulticast f.src && w.on (R.FAB_PORTCFG.LEARN (n.val / 32) (n.val % 32)) && w.on (R.FAB_VLAN_CFG.LEARN v)) = false
        rcases hl with h | h | h <;> simp [h]
      · show (!macMulticast f.src && w.on (R.FAB_PORTCFG.LEARN (n.val / 32) (n.val % 32)) && w.on (R.FAB_VLAN_CFG.LEARN v)) = true
        simp [hs, hp, hv]
  · intro run v cls m
    refine ⟨fun h => congrArg Host.Outcome.next (State.controlIn_filtered h),
      fun hv hon hm => congrArg Host.Outcome.next (State.controlIn_bridged hv hon hm), fun n => ?_⟩
    intro named
    refine ⟨fun hp => congrArg Host.Outcome.next (State.controlIn_named_ptp hp), fun hp hno => ?_, fun hp k hk hone => ?_⟩
    · have numbers : s.ringNumbers [n.val] = ([], s) :=
        State.ringNumbers_none fun k hk hon => by simpa using hno k hk hon
      have sent := State.controlIn_named (s := s) (n := n.val) (p := p.val) (m := m) hp
      rw [numbers] at sent
      exact congrArg Host.Outcome.next sent
    · have numbers := State.ringNumbers_one (s := s) (ts := [n.val]) hk fun j hj => by simpa using hone j hj
      have sent := State.controlIn_named (s := s) (n := n.val) (p := p.val) (m := m) hp
      rw [numbers] at sent
      exact congrArg Host.Outcome.next sent
  · intro me ctl others
    refine ⟨State.destOf_broadcast, fun hm hb => ⟨fun hg => ?_, fun g hg => ?_⟩, fun hu hmod => ?_, fun hu hmod =>
      ⟨State.destOf_unknown hu hmod, fun e he => ⟨State.destOf_port hu hmod he, State.destOf_control hu hmod he hn,
        State.destOf_reserved hu hmod he⟩⟩⟩
    · rw [State.destOf_multicast hm hb, hg]
      rfl
    · rw [State.destOf_multicast hm hb, hg]
      rfl
    · exact (State.destOf_unicast hu).trans (if_pos hmod)

end

section
/-! SUPPORT. Harrow passes (R313–R317, R320, R323): errors on an element, the end of a pass, its outcome, the daily pass. -/
namespace Sys2Proof.Machine
open Sys2Proof

/-- What one element of a list brings about, and every one keeps, holds after the fold. -/
theorem foldS_reaches {α : Type} {g : α → State → State} {P : State → Prop} {l : List α} {x : α} (hx : x ∈ l)
    (hset : ∀ s, P (g x s)) (hkeep : ∀ y ∈ l, ∀ s, P s → P (g y s)) (s : State) : P (foldS l g s) := by
  induction l generalizing s with
  | nil => cases hx
  | cons y l ih =>
    have later (t : State) (ht : P t) : P (foldS l g t) :=
      List.foldlRecOn l _ ht fun u hu z hz => hkeep z (List.mem_cons_of_mem y hz) u hu
    rcases List.mem_cons.1 hx with rfl | hx
    · exact later _ (hset s)
    · exact ih hx (fun z hz => hkeep z (List.mem_cons_of_mem y hz)) _

section
variable {s : State} {cls el : Nat}

/-! ## Errors -/

theorem State.harrow_off (h : s.power.step = 0) : s.harrow cls el = s := if_pos h

theorem State.mem_counted (s : State) (cls el : Nat) : ∃ n, 0 < n ∧ (cls, el, n) ∈ (s.countError cls el).spares.counted :=
  ⟨_, Nat.succ_pos _, List.mem_append_right _ (List.mem_singleton.2 rfl)⟩

section
variable (h : s.power.step ≠ 0)
include h

theorem State.harrow_underPass (hu : s.underPass cls el = true) : s.harrow cls el = s.countError cls el := by
  rw [State.harrow, if_neg h, if_pos hu]

theorem State.harrow_starts (hu : s.underPass cls el = false) (ht : cls = hcQueue ∨ s.recentTransients cls el < 7) :
    s.harrow cls el = (s.modSpares fun x => { x with passes := x.passes ++ [⟨cls, el, s.errorFallow cls el⟩] }).harrowRunning := by
  rw [State.harrow, if_neg h, if_neg (by rw [hu]; decide), if_neg (by omega)]

theorem State.harrow_seventh (hu : s.underPass cls el = false) (hc : cls ≠ hcQueue) (ht : 7 ≤ s.recentTransients cls el) :
    s.harrow cls el = if s.errorFallow cls el then s.fallowLasting cls el else s.lasting cls el := by
  rw [State.harrow, if_neg h, if_neg (by rw [hu]; decide), if_pos ⟨hc, ht⟩]

end

theorem State.running_harrowRunning (s : State) : s.harrowRunning.f R.SYS_HARROW.RUNNING = s.spares.passes.length % 256 :=
  s.f_setF_same _ _ (by decide)

theorem State.errorFallow_other (h : cls ≠ hcFlash) : s.errorFallow cls el = false := by
  rw [State.errorFallow, beq_false_of_ne h, Bool.false_and]

/-! ## Planes -/

section
variable {k : Nat} {begun : List (Nat × Nat × Nat)}

theorem State.planeError_active (h : s.plane k = plActive) : s.planeError k begun = (s.planeOut k begun).harrow hcPlane k := if_pos h

theorem State.planeError_underPass (h : s.plane k ≠ plActive) (hu : s.underPass hcPlane k = true) :
    s.planeError k begun = s.countError hcPlane k := by
  rw [State.planeError, if_neg h, if_pos hu]

theorem State.planeError_idle (h : s.plane k ≠ plActive) (hu : s.underPass hcPlane k = false) : s.planeError k begun = s := by
  rw [State.planeError, if_neg h, if_neg (by rw [hu]; decide)]

theorem State.plane_setPlane (s : State) {j : Nat} (hj : j < 9) (hk : k < 9) {v : Nat} (hv : v < 8) :
    (s.setPlane j v).plane k = if k = j then v else s.plane k := by
  unfold State.plane State.setPlane
  rw [State.r_setR_same]
  by_cases h : k = j
  · subst h
    rw [if_pos rfl, getBits_setBits_same _ _ _ _ (by omega), Nat.mod_eq_of_lt (show v < 2 ^ 3 from hv)]
  · rw [if_neg h, getBits_setBits_ne _ _ _ _ _ _ (by omega) (by omega)]

end

/-! ## Cells -/

/-- The corrected errors of less than a second ago (R313). -/
def State.lateCorrected (s : State) : List (Nat × Nat) := s.spares.corrected.filter (fun x => decide (s.opTotal < x.2 + secTicks))

theorem State.cellError_corrected (s : State) (el : Nat) (hit : Option CellHit) : s.cellError el false hit =
    if 2 ≤ (s.lateCorrected.filter (fun x => x.1 == el)).length then
      (s.modSpares fun x => { x with corrected := s.lateCorrected ++ [(el, s.opTotal)] }).harrow hcBank el
    else s.modSpares fun x => { x with corrected := s.lateCorrected ++ [(el, s.opTotal)] } := rfl

theorem State.cellHit_stored {i : Nat} {f : FabFrame} (h : s.fabFrame i = some f) :
    s.cellHit (.stored i) = s.setFrame i (some { f with cellErr := true }) := by
  rw [State.cellHit, h]
  rfl

/-! ## The end of a pass -/

theorem State.passDone_none {lost : Option (List Nat)} (h : ∀ x ∈ s.spares.passes, ¬ (x.cls = cls ∧ x.el = el)) :
    s.passDone cls el lost = s := by
  have none : s.spares.passes.find? (fun x => x.cls == cls && x.el == el) = none :=
    List.find?_eq_none.2 fun x hx => by simpa using h x hx
  rw [State.passDone, none]

/-- A pass that ends is no longer in progress. -/
def State.passEnded (s : State) (x : Pass) : State := (s.modSpares fun y => { y with passes := y.passes.erase x }).harrowRunning

section
variable {x : Pass} (h : s.spares.passes.find? (fun x => x.cls == cls && x.el == el) = some x) {lost : Option (List Nat)}
include h

theorem State.passDone_queue (hc : cls = hcQueue) : s.passDone cls el lost = (s.passEnded x).queueDone el := by
  rw [State.passDone, h]
  exact if_pos hc

theorem State.passDone_fallow (hc : cls ≠ hcQueue) (hf : x.fallow = true) : s.passDone cls el lost =
    if lost.isNone then ((s.passEnded x).fallowBack cls el).transient cls el else (s.passEnded x).fallowLasting cls el := by
  rw [State.passDone, h]
  exact (if_neg hc).trans (if_pos hf)

theorem State.passDone_error (hc : cls ≠ hcQueue) (hf : x.fallow = false) : s.passDone cls el lost =
    match lost with
    | none => (if cls = hcPlane then (s.passEnded x).planeBack el
        else if cls = hcEngine then (s.passEnded x).engBack el else s.passEnded x).transient cls el
    | some bad => (if cls = hcFlash then (s.passEnded x).flashBad el bad else s.passEnded x).lasting cls el := by
  rw [State.passDone, h]
  exact (if_neg hc).trans ((if_neg (by rw [hf]; decide)).trans (by cases lost <;> rfl))

end

theorem exec_harrowPassDone_on {c : Fin 7} {e : BitVec 24} {lost : Option (List (BitVec 64))} (h : s.power.step ≠ 0) :
    exec (.harrowPassDone c e lost) s = .next (s.passDone c e.toNat (lost.map fun l => l.map (·.toNat))) :=
  congrArg Host.Outcome.next (if_pos (bne_iff_ne.2 h))

theorem exec_harrowPassDone_off {c : Fin 7} {e : BitVec 24} {lost : Option (List (BitVec 64))} (h : s.power.step = 0) :
    exec (.harrowPassDone c e lost) s = .next s :=
  congrArg Host.Outcome.next (if_neg (by rw [h]; decide))

/-! ## Outcomes -/

theorem State.fault_outcome (s : State) {out : Nat} (hc : cls < 16) (he : el < 2 ^ 24) (ho : out < 4) :
    (s.outcome cls el out).f R.SYS_FAULT_LAST.CLASS = cls ∧ (s.outcome cls el out).f R.SYS_FAULT_LAST.ELEMENT = el ∧
      (s.outcome cls el out).f R.SYS_FAULT_LAST.OUTCOME = out := by
  refine ⟨?_, ?_, ?_⟩
  · refine (State.f_setF_ne _ R.SYS_FAULT_LAST.ELEMENT R.SYS_FAULT_LAST.CLASS _ (by decide) (.inr (.inr (.inl (by decide))))).trans ?_
    refine (State.f_setF_ne _ R.SYS_FAULT_LAST.OUTCOME R.SYS_FAULT_LAST.CLASS _ (by decide) (.inr (.inr (.inl (by decide))))).trans ?_
    exact s.f_setF_fit (by decide) hc
  · exact State.f_setF_fit _ (x := R.SYS_FAULT_LAST.ELEMENT) (by decide) he
  · refine (State.f_setF_ne _ R.SYS_FAULT_LAST.ELEMENT R.SYS_FAULT_LAST.OUTCOME _ (by decide) (.inr (.inr (.inl (by decide))))).trans ?_
    exact State.f_setF_fit _ (by decide) ho

theorem State.rd_outcome_ne (s : State) (cls el out : Nat) {b : Blk} {o : Nat} (h : Blk.sys ≠ b ∨ 0x120 ≠ o) :
    (s.outcome cls el out).rd b o = s.rd b o :=
  (State.rd_setF_ne _ R.SYS_FAULT_LAST.ELEMENT _ h).trans ((State.rd_setF_ne _ R.SYS_FAULT_LAST.OUTCOME _ h).trans
    (State.rd_setF_ne _ R.SYS_FAULT_LAST.CLASS _ h))

theorem State.flag_transient (s : State) (cls el : Nat) : (s.transient cls el).flag E.SYS_FAULT_EVT.TRANSIENT = true :=
  (congrArg (fun w => getBits w 0 1 != 0) (State.rd_outcome_ne _ cls el 0 (.inr (by decide)))).trans
    (State.flag_raise _ E.SYS_FAULT_EVT.TRANSIENT (by decide) (by decide) (.inl (by decide)))

theorem State.outcome_spares (s : State) (cls el out : Nat) : (s.outcome cls el out).spares = s.spares := rfl

theorem State.mem_transients (s : State) (cls el : Nat) : (cls, el, s.opTotal) ∈ (s.transient cls el).spares.transients := by
  rw [State.transient, State.outcome_spares, State.raise_spares]
  exact List.mem_append_right _ (List.mem_singleton.2 rfl)

/-- A lasting fault ends in its outcome, with a spare or without. -/
theorem State.lasting_outcome (s : State) (cls el : Nat) : ∃ (u : State) (spare : Bool),
    s.lasting cls el = u.outcome cls el (if spare then 1 else 2) := ⟨_, _, rfl⟩

/-! ## The daily pass -/

/-- The passes that the day starts (R317). -/
def State.dailyPasses (s : State) : List Pass :=
  (((List.range 9).filter (fun k => s.plane k == plFallow)).map (fun k => Pass.mk hcPlane k true) ++
    ((List.range 8).filter (fun p => (s.f R.SYS_SPARE0.BANK_FALLOW).testBit p)).map
      (fun p => Pass.mk hcBank (bankEl p (sget (fun _ => 8) s.spares.bank p) 0) true) ++
    ((List.range 18).filter (fun p => s.engRole p == roleFallow)).map (fun p => Pass.mk hcEngine p true) ++
    s.spares.phases.map (fun n => Pass.mk hcPhase n true)).filter (fun x => !s.underPass x.cls x.el)

/-- A plane and an engine show that they are under a pass. -/
def Pass.shown (x : Pass) (s : State) : State :=
  if x.cls = hcPlane then s.setPlane x.el plHarrow else if x.cls = hcEngine then s.setEngRole x.el roleHarrow else s

theorem State.fallowHarrow_spares (s : State) : s.fallowHarrow.spares = { s.spares with passes := s.spares.passes ++ s.dailyPasses } :=
  foldS_keeps (·.spares) Pass.shown (fun _ _ => keeps_ite (g := (·.spares)) rfl (keeps_ite (g := (·.spares)) rfl rfl)) _ _

section
variable {x : Pass}

theorem State.mem_dailyPasses : x ∈ s.dailyPasses ↔ s.underPass x.cls x.el = false ∧
    ((∃ k, (k < 9 ∧ s.plane k = plFallow) ∧ ⟨hcPlane, k, true⟩ = x) ∨
      (∃ p, (p < 8 ∧ (s.f R.SYS_SPARE0.BANK_FALLOW).testBit p = true) ∧
        ⟨hcBank, bankEl p (sget (fun _ => 8) s.spares.bank p) 0, true⟩ = x) ∨
      (∃ p, (p < 18 ∧ s.engRole p = roleFallow) ∧ ⟨hcEngine, p, true⟩ = x) ∨
      ∃ n, n ∈ s.spares.phases ∧ ⟨hcPhase, n, true⟩ = x) := by
  simp only [State.dailyPasses, List.mem_filter, List.mem_append, List.mem_map, List.mem_range, beq_iff_eq, Bool.not_eq_true',
    or_assoc, and_comm]

theorem State.el_of_dailyPlane (hx : x ∈ s.dailyPasses) (hc : x.cls = hcPlane) : x.el < 9 := by
  rcases (State.mem_dailyPasses.1 hx).2 with ⟨k, ⟨hk, -⟩, rfl⟩ | ⟨p, -, rfl⟩ | ⟨p, -, rfl⟩ | ⟨n, -, rfl⟩
  · exact hk
  · cases hc
  · cases hc
  · cases hc

theorem State.plane_shown (hx : x ∈ s.dailyPasses) {k : Nat} (hk : k < 9) (t : State) :
    (x.shown t).plane k = if x.cls = hcPlane ∧ k = x.el then plHarrow else t.plane k := by
  by_cases hc : x.cls = hcPlane
  · rw [Pass.shown, if_pos hc, State.plane_setPlane t (State.el_of_dailyPlane hx hc) hk (by decide)]
    simp only [hc, true_and]
  · have other : ¬ (x.cls = hcPlane ∧ k = x.el) := fun h => hc h.1
    have role : (t.setEngRole x.el roleHarrow).plane k = t.plane k :=
      congrArg (getBits · (3 * k) 3) (t.rd_setF_ne (R.FE_STATUS.ROLE x.el) _ (.inl (show Blk.fe ≠ Blk.fab by decide)))
    rw [if_neg other, Pass.shown, if_neg hc]
    exact keeps_ite (g := (·.plane k)) role rfl

theorem State.engRole_shown (p : Nat) (t : State) :
    (x.shown t).engRole p = if x.cls = hcEngine ∧ p = x.el then roleHarrow else t.engRole p := by
  by_cases hc : x.cls = hcPlane
  · have other : ¬ (x.cls = hcEngine ∧ p = x.el) := fun h => absurd (hc.symm.trans h.1) (by decide)
    rw [if_neg other, Pass.shown, if_pos hc]
    exact t.f_setR_ne _ _ (y := R.FE_STATUS.ROLE p) (.inl (show Blk.fab ≠ Blk.fe by decide))
  · rw [Pass.shown, if_neg hc]
    by_cases he : x.cls = hcEngine ∧ p = x.el
    · obtain ⟨he, rfl⟩ := he
      rw [if_pos he, if_pos ⟨he, rfl⟩]
      exact t.f_setF_same (R.FE_STATUS.ROLE x.el) roleHarrow (show 20 + 4 ≤ 32 by decide)
    · rw [if_neg he]
      by_cases hx : x.cls = hcEngine
      · have hp : p ≠ x.el := fun h => he ⟨hx, h⟩
        rw [if_pos hx]
        exact t.f_setF_ne _ _ _ (show 20 + 4 ≤ 32 by decide) (.inr (.inl (by simp only [R.FE_STATUS.ROLE]; omega)))
      · rw [if_neg hx]

end

theorem State.daily_plane {k : Nat} (hk : k < 9) (hp : s.plane k = plFallow) (hu : s.underPass hcPlane k = false) :
    ⟨hcPlane, k, true⟩ ∈ s.dailyPasses ∧ s.fallowHarrow.plane k = plHarrow := by
  have mem : ⟨hcPlane, k, true⟩ ∈ s.dailyPasses := State.mem_dailyPasses.2 ⟨hu, .inl ⟨k, ⟨hk, hp⟩, rfl⟩⟩
  refine ⟨mem, foldS_reaches (g := Pass.shown) (P := fun t => t.plane k = plHarrow) mem (fun t => ?_) (fun y hy t ht => ?_) _⟩
  · rw [State.plane_shown mem hk, if_pos ⟨rfl, rfl⟩]
  · rw [State.plane_shown hy hk, ht, ite_self]

theorem State.daily_engine {p : Nat} (hp : p < 18) (hr : s.engRole p = roleFallow) (hu : s.underPass hcEngine p = false) :
    ⟨hcEngine, p, true⟩ ∈ s.dailyPasses ∧ s.fallowHarrow.engRole p = roleHarrow := by
  have mem : ⟨hcEngine, p, true⟩ ∈ s.dailyPasses := State.mem_dailyPasses.2 ⟨hu, .inr (.inr (.inl ⟨p, ⟨hp, hr⟩, rfl⟩))⟩
  refine ⟨mem, foldS_reaches (g := Pass.shown) (P := fun t => t.engRole p = roleHarrow) mem (fun t => ?_) (fun y _ t ht => ?_) _⟩
  · rw [State.engRole_shown, if_pos ⟨rfl, rfl⟩]
  · rw [State.engRole_shown, ht, ite_self]

end

end Sys2Proof.Machine
end

section
/-! SUPPORT. What a change of a plot's power leaves alone among the spares (R324, R327, R328): lasers and replaced banks change, and
the plots that are off. -/
namespace Sys2Proof.Machine
open Sys2Proof

/-- The spares without the lasers that are on, the plots that are off and the banks that empty. -/
def State.steady (s : State) : Spares :=
  { s.spares with laserSince := [], laserOn := [], plotsOff := [], leaving := [], banksRetired := [] }

theorem State.steady_congr {s t : State} (h : t.spares = s.spares) : t.steady = s.steady := by rw [State.steady, h, State.steady]

theorem State.steady_raise (s : State) (e : Evt) : (s.raise e).steady = s.steady := State.steady_congr (s.raise_spares e)

theorem State.steady_lasers (s : State) (since : List (Nat × Nat)) (on : Store Nat) :
    State.steady { s with spares := { s.spares with laserSince := since, laserOn := on } } = s.steady := rfl

theorem State.steady_laserSet (s : State) (z : Nat) (on : Bool) : (s.laserSet z on).steady = s.steady := by
  unfold State.laserSet
  split
  · exact s.steady_lasers _ _
  · exact s.steady_lasers _ _
  · rfl

theorem State.steady_setPortState (s : State) (n v : Nat) : (s.setPortState n v).steady = s.steady := State.steady_laserSet ..

theorem State.steady_cutOff (s : State) (n : Nat) : (s.cutOff n).steady = s.steady := by
  unfold State.cutOff
  split
  · exact keeps_ite (g := fun t : State => (t.setSending n none).steady) rfl rfl
  · rfl

theorem State.steady_residueLinkDown (s : State) (n : Nat) : (s.residueLinkDown n).steady = s.steady := by
  have dropped (x : Nat) (t : State) : (t.residueDropped (plotOf n)).steady = t.steady :=
    State.steady_congr ((State.count_spares ..).trans (State.raise_spares ..))
  exact (State.regionsFit_keeps State.steady (fun _ => rfl) _).trans (foldS_keeps State.steady _ dropped _ _)

theorem State.steady_pairLinkUpdate (s : State) : s.pairLinkUpdate.steady = s.steady :=
  keeps_ite (g := State.steady) (State.steady_raise ..) rfl

theorem State.steady_leaveActs (s : State) (n v : Nat) : (s.leaveActs n v).steady = s.steady := by
  unfold State.leaveActs
  extract_lets ring u w
  have cut : u.steady = s.steady := (State.steady_cutOff ..).trans (s.steady_setPortState n v)
  have flushed : w.steady = u.steady := keeps_ite (g := State.steady) rfl rfl
  rw [State.steady_pairLinkUpdate, State.steady_residueLinkDown, flushed, cut]

theorem State.steady_portTo (s : State) (n v : Nat) : (s.portTo n v).steady = s.steady :=
  keeps_ite (g := State.steady) ((State.steady_raise ..).trans (s.steady_leaveActs n v)) (s.steady_setPortState n v)

theorem State.steady_plotPortsOff (s : State) (p : Nat) : (s.plotPortsOff p).steady = s.steady :=
  foldS_keeps State.steady _ (fun n t => keeps_ite (g := State.steady) rfl (t.steady_portTo n psDark)) _ s

theorem State.steady_plotPortsOn (s : State) (p : Nat) : (s.plotPortsOn p).steady = s.steady :=
  foldS_keeps State.steady _ (fun n t => keeps_ite (g := State.steady) (t.steady_setPortState n psAcquire) rfl) _ s

theorem State.steady_plotsUpdate (s : State) : s.plotsUpdate.steady = s.steady := by
  refine foldS_keeps State.steady _ (fun p t => ?_) _ s
  refine keeps_ite (keeps_ite rfl ?_) (keeps_ite rfl (keeps_ite ?_ (keeps_ite rfl rfl)))
  · exact State.steady_plotPortsOn ..
  · exact State.steady_plotPortsOff ..

/-! ## The end of a queue manager's pass -/

theorem State.offCells_rebuildCell (s : State) (p i : Nat) : (s.rebuildCell p i).offCells = s.offCells := by
  have freed (t : State) (l : List Nat) : (t.setFreed p l).offCells = t.offCells := rfl
  have listed (t : State) (l : List Nat) : (t.setUnlisted p l).offCells = t.offCells := rfl
  have tag (t : State) (x : CellTag) : (t.setCellTag p i x).offCells = t.offCells := rfl
  unfold State.rebuildCell
  dsimp only
  rw [tag]
  refine (keeps_ite (g := State.offCells) rfl ?_).trans (keeps_ite (g := State.offCells) rfl (freed ..))
  exact keeps_ite (g := State.offCells) ((listed ..).trans (freed ..)) (freed ..)

theorem State.offCells_rebuild (s : State) (p : Nat) : (s.rebuild p).offCells = s.offCells :=
  foldS_keeps State.offCells _ (fun i t => t.offCells_rebuildCell p i) _ s

/-- A queue manager's pass that ends waits for its judgement, and its rebuilt state is being installed. -/
theorem State.queueDone_spares (s : State) (p : Nat) : (s.queueDone p).spares.retired = s.spares.retired ∧
    p ∈ (s.queueDone p).spares.judged.map (·.1) ∧ (p, s.opTotal + installTicks) ∈ (s.queueDone p).spares.installs := by
  let u := s.rebuild p
  let w := u.modSpares fun y => { y with
    judged := y.judged ++ [(p, sget (fun _ => []) y.cells p)], cells := sset (fun _ => []) y.cells p []
    installs := y.installs ++ [(p, u.opTotal + installTicks)] }
  have steady : (s.queueDone p).steady = w.steady := w.steady_plotsUpdate
  have installed {β : Type} (g : Spares → β) (hg : ∀ t : State, g t.steady = g t.spares) : g (s.queueDone p).spares = g w.spares := by
    rw [← hg, steady, hg]
  have built {β : Type} (g : State → β) (hg : ∀ u : State, g u.offCells = g u) : g u = g s :=
    State.keeps_of_offCells (s.offCells_rebuild p) g hg
  refine ⟨(installed (·.retired) fun _ => rfl).trans (built (·.spares.retired) fun _ => rfl), ?_, ?_⟩
  · rw [installed (·.judged) fun _ => rfl]
    exact List.mem_map.2 ⟨_, List.mem_append_right _ (List.mem_singleton.2 rfl), rfl⟩
  · rw [installed (·.installs) fun _ => rfl, ← built State.opTotal fun _ => rfl]
    exact List.mem_append_right _ (List.mem_singleton.2 rfl)

end Sys2Proof.Machine
end

section
open Sys2Proof Sys2Proof.Machine

/-- Settles O49: errors, the end of a pass and the daily pass, each by its cases. -/
theorem harrowPasses : Obligations.HarrowPasses := by
  unfold Obligations.HarrowPasses
  refine ⟨fun s cls el h => State.harrow_off h, fun s cls el h hu => ⟨State.harrow_underPass h hu, rfl, rfl, rfl, s.mem_counted cls el⟩,
    fun s cls el h hu ht => ?_, fun s cls el h hu hc ht => ⟨fun hf => ?_, fun hf => ?_⟩, fun s cls el h => State.errorFallow_other h,
    fun s k l => ⟨fun h => ?_, fun h hu => ?_, fun h hu => ?_, fun h hl => ?_, fun h => ?_⟩, fun s e l b n p => ⟨rfl, rfl, rfl, rfl⟩,
    fun s p bank row => ?_, fun s cls el lost h => ?_, fun s cls el x bad hx => ⟨fun hs lost => exec_harrowPassDone_off hs, fun hs => ?_⟩,
    fun s cls el hc he => ?_, fun s cls el hc he => ?_, fun s => ⟨_, rfl, ?_⟩⟩
  · rw [State.harrow_starts h hu ht]
    refine ⟨rfl, ?_, rfl, rfl⟩
    rw [State.running_harrowRunning, State.modSpares_spares, List.length_append]
    rfl
  · rw [State.harrow_seventh h hu hc ht, hf]
    rfl
  · rw [State.harrow_seventh h hu hc ht, hf]
    rfl
  · have out := congrArg (Host.Outcome.next : State → Res) (State.planeError_active (begun := l) h)
    exact ⟨out, out⟩
  · have counted := congrArg (Host.Outcome.next : State → Res) (State.planeError_underPass (begun := l) h hu)
    exact ⟨counted, counted⟩
  · have idle := congrArg (Host.Outcome.next : State → Res) (State.planeError_idle (begun := l) h hu)
    exact ⟨idle, idle⟩
  · exact congrArg Host.Outcome.next (if_pos ⟨h, hl⟩)
  · exact congrArg Host.Outcome.next (if_neg (by omega))
  · intro el late u
    refine ⟨rfl, fun i f hf => ?_, fun h => rfl, fun h => ?_, fun h => ?_⟩
    · exact congrArg (fun t : State => Host.Outcome.next (t.harrow 1 el)) (State.cellHit_stored hf)
    · exact congrArg Host.Outcome.next ((s.cellError_corrected el none).trans (if_neg h.not_ge))
    · exact congrArg Host.Outcome.next ((s.cellError_corrected el none).trans (if_pos h))
  · by_cases hs : s.power.step = 0
    · exact exec_harrowPassDone_off hs
    · exact (exec_harrowPassDone_on hs).trans (congrArg Host.Outcome.next (State.passDone_none h))
  · intro u n
    refine ⟨fun hc hf => ⟨?_, ?_⟩, fun hc hf => ⟨?_, ?_⟩, fun hc lost => ⟨u.queueDone n, ?_, rfl, ?_⟩⟩
    · exact (exec_harrowPassDone_on hs).trans (congrArg Host.Outcome.next (State.passDone_error hx hc hf))
    · exact (exec_harrowPassDone_on hs).trans (congrArg Host.Outcome.next (State.passDone_error hx hc hf))
    · exact (exec_harrowPassDone_on hs).trans (congrArg Host.Outcome.next (State.passDone_fallow hx hc hf))
    · exact (exec_harrowPassDone_on hs).trans (congrArg Host.Outcome.next (State.passDone_fallow hx hc hf))
    · exact (exec_harrowPassDone_on hs).trans (congrArg Host.Outcome.next (State.passDone_queue hx hc))
    · exact u.queueDone_spares n
  · intro t
    obtain ⟨hcls, hel, hout⟩ := State.fault_outcome (cls := cls) (el := el) ((s.modSpares fun x => { x with
      transients := x.transients ++ [(cls, el, s.opTotal)] }).raise E.SYS_FAULT_EVT.TRANSIENT) (by omega) he (show 0 < 4 by decide)
    exact ⟨s.flag_transient cls el, s.mem_transients cls el, hcls, hout, hel⟩
  · intro t
    obtain ⟨u, spare, eq⟩ := s.lasting_outcome cls el
    obtain ⟨hcls, hel, hout⟩ := u.fault_outcome (cls := cls) (out := if spare then 1 else 2) (by omega) he (by split <;> decide)
    have ht : t = u.outcome cls el (if spare then 1 else 2) := eq
    rw [ht]
    refine ⟨hcls, hel, ?_⟩
    rw [hout]
    cases spare
    · exact .inr rfl
    · exact .inl rfl
  · have kept (x : Pass) : x ∈ s.fallowHarrow.spares.passes ↔ x ∈ s.spares.passes ∨ x ∈ s.dailyPasses := by
      rw [s.fallowHarrow_spares]
      exact List.mem_append
    refine ⟨by rw [s.fallowHarrow_spares], fun x hx => (kept x).2 (.inl hx), fun k hk hp hu => ?_, fun p hp hr hu => ?_, fun n hn hu =>
      (kept _).2 (.inr (State.mem_dailyPasses.2 ⟨hu, .inr (.inr (.inr ⟨n, hn, rfl⟩))⟩))⟩
    · obtain ⟨started, shown⟩ := State.daily_plane hk hp hu
      exact ⟨(kept _).2 (.inr started), shown⟩
    · obtain ⟨started, shown⟩ := State.daily_engine hp hr hu
      exact ⟨(kept _).2 (.inr started), shown⟩

end

section
/-! SUPPORT. The speed monitors and the core-voltage loop (R219–R222, R327): what a measurement writes, which monitor is the worst,
the steps of VCORE, and the flags of an evaluation. -/
namespace Sys2Proof.Machine
open Sys2Proof

/-! ## A measurement -/

section
variable {s : State} {p k n : Nat}

/-- A measurement writes VALID and a period, which is the quotient where that has 16 bits. -/
theorem State.speedMeasure_active (h : s.plane k = plActive) (n : Nat) : ∃ (u : State) (v : Nat),
    s.speedMeasure p k n = (u.setF (R.FAB_SPEED.TOKEN_PS p k) v).setF (R.FAB_SPEED.VALID p k) 1 ∧
      (63 ≤ n → v = ceilDiv 4096000 n ∧ v < 65536) ∧ u.fab = s.fab ∧ u.regs = s.regs := by
  unfold State.speedMeasure
  dsimp only
  rw [if_pos h]
  by_cases hf : n = 0 ∨ 65535 < ceilDiv 4096000 n
  · have small : ¬ 63 ≤ n := fun hn => by
      have fits : ceilDiv 4096000 n < 65536 := Nat.div_lt_of_lt_mul (by omega)
      omega
    rw [if_pos hf]
    exact ⟨_, _, rfl, fun hn => absurd hn small, rfl, rfl⟩
  · rw [if_neg hf]
    exact ⟨_, _, rfl, fun _ => ⟨rfl, by omega⟩, rfl, rfl⟩

end

/-! ## The worst monitor -/

/-- A fold by `max` ends at a value of the list, or at the first value, above all of them. -/
theorem exists_foldl_max {α : Type} (f : α → Nat) : ∀ (l : List α) (a : Nat),
    (∃ x ∈ l, f x = l.foldl (fun a x => max a (f x)) a) ∨ (l.foldl (fun a x => max a (f x)) a = a ∧ ∀ x ∈ l, f x < a)
  | [], a => .inr ⟨rfl, nofun⟩
  | x :: l, a => by
    rw [List.foldl_cons]
    rcases exists_foldl_max f l (max a (f x)) with ⟨y, hy, e⟩ | ⟨e, lt⟩
    · exact .inl ⟨y, List.mem_cons_of_mem x hy, e⟩
    · by_cases h : a ≤ f x
      · exact .inl ⟨x, List.mem_cons_self, by rw [e, max_eq_right h]⟩
      · rw [max_eq_left (by omega)] at lt e ⊢
        exact .inr ⟨e, List.forall_mem_cons.2 ⟨by omega, lt⟩⟩

/-- The worst token period of the valid monitors. -/
def State.worstPs (s : State) : Nat := s.monitors.foldl (fun a x => max a x.2.2) 0

section
variable {s : State}

theorem State.mem_monitors {x : Nat × Nat × Nat} (h : x ∈ s.monitors) : x.1 < 8 ∧ x.2.1 < 9 ∧ x.2.2 < 65536 := by
  unfold State.monitors at h
  simp only [List.mem_flatMap, List.mem_map, List.mem_filter, List.mem_range] at h
  obtain ⟨p, hp, k, ⟨hk, -⟩, rfl⟩ := h
  exact ⟨hp, hk, s.f_lt (R.FAB_SPEED.TOKEN_PS p k)⟩

/-- Whichever of the worst monitors is drawn is a monitor with the worst period. -/
theorem State.mem_worst (h : s.monitors ≠ []) (n : Nat) :
    let worst := s.monitors.filter (fun x => x.2.2 == s.worstPs)
    let x := worst.getD (n % worst.length) (0, 0, 0)
    x ∈ s.monitors ∧ x.2.2 = s.worstPs := by
  intro worst x
  have some : ∃ y ∈ s.monitors, y.2.2 = s.worstPs := by
    rcases exists_foldl_max (fun y : Nat × Nat × Nat => y.2.2) s.monitors 0 with attained | ⟨-, below⟩
    · exact attained
    · obtain ⟨y, hy⟩ := List.exists_mem_of_ne_nil _ h
      exact absurd (below y hy) (Nat.not_lt_zero _)
  obtain ⟨y, hy, e⟩ := some
  have nonempty : 0 < worst.length := List.length_pos_of_mem (List.mem_filter.2 ⟨hy, beq_iff_eq.2 e⟩)
  have drawn : x ∈ worst := by
    have hx : x = worst[n % worst.length]'(Nat.mod_lt _ nonempty) := List.getD_eq_getElem ..
    rw [hx]
    exact List.getElem_mem _
  obtain ⟨mem, val⟩ := List.mem_filter.1 drawn
  exact ⟨mem, beq_iff_eq.1 val⟩

/-! ## The steps of VCORE -/

/-- Whether the voltage is lowered: after ten low periods in a row, above the floor. -/
def vcoreLower (v w tgt low : Nat) : Bool := decide (10 ≤ (if w + 50 < tgt then low + 1 else 0) ∧ 1440 < v)

/-- VCORE after an evaluation, in 0.5 mV: a step up, a step down or none, held between the floor and the ceiling. -/
def vcoreStep (v w tgt low top : Nat) : Nat :=
  max 1440 (min (if tgt < w ∧ v < top then v + 10 else if vcoreLower v w tgt low then v - 5 else v) top)

section
variable {v w tgt low top : Nat}

theorem vcoreCeil_bounds (n : Nat) : 1440 ≤ vcoreCeil n ∧ vcoreCeil n ≤ 1700 := by
  unfold vcoreCeil
  split_ifs <;> decide

theorem vcoreStep_ge : 1440 ≤ vcoreStep v w tgt low top := le_max_left ..

theorem vcoreStep_le (ht : 1440 ≤ top) : vcoreStep v w tgt low top ≤ top := max_le ht (min_le_right ..)

section
variable (hv : 1440 ≤ v) (hvt : v ≤ top)
include hv hvt

theorem vcoreStep_raise (h : tgt < w) : vcoreStep v w tgt low top = min (v + 10) top := by
  have keep : vcoreLower v w tgt low = false := decide_eq_false (by rw [if_neg (by omega)]; omega)
  unfold vcoreStep
  rw [keep]
  by_cases c : v < top
  · rw [if_pos ⟨h, c⟩]
    omega
  · rw [if_neg (fun d => c d.2), if_neg (by decide)]
    omega

theorem vcoreStep_keep (h : w ≤ tgt) (hl : low + 1 < 10 ∨ tgt ≤ w + 50) : vcoreStep v w tgt low top = v := by
  have keep : vcoreLower v w tgt low = false := decide_eq_false (by split_ifs <;> omega)
  unfold vcoreStep
  rw [keep, if_neg (by omega), if_neg (by decide)]
  omega

theorem vcoreStep_lower (h : w + 50 < tgt) (hl : 10 ≤ low + 1) : vcoreStep v w tgt low top = max (v - 5) 1440 := by
  unfold vcoreStep vcoreLower
  rw [if_neg (by omega), if_pos h]
  by_cases h1 : 1440 < v
  · rw [decide_eq_true ⟨hl, h1⟩, if_pos rfl]
    omega
  · rw [decide_eq_false (fun c => h1 c.2), if_neg (by decide)]
    omega

end

end

/-! ## What an evaluation writes -/

section
variable (s : State) (v : Nat)

/-- The state in which VCORE is `v`, but for what the registers show of it. -/
theorem State.setVcore_eq : ∃ (u : State) (h : Nat), (v % 2 = 0 → h = 0) ∧ u.fab = s.fab ∧ u.regs = s.regs ∧
    s.setVcore v = (((u.modFab fun b => { b with vcore := v }).setF R.FAB_VCORE.MV (v / 2 + h % 2)).setF R.FAB_VCORE.AT_MAX
      (b2n (v == 1700))).setF R.FAB_VCORE.AT_MIN (b2n (v == 1440)) := by
  unfold State.setVcore
  by_cases h : v % 2 = 0
  · rw [if_pos h]
    exact ⟨s, 0, fun _ => rfl, rfl, rfl, rfl⟩
  · rw [if_neg h]
    exact ⟨s.free.2, s.free.1, fun he => absurd he h, rfl, rfl, rfl⟩

theorem State.setVcore_fab : (s.setVcore v).fab = { s.fab with vcore := v } := by
  obtain ⟨u, h, -, hfab, -, e⟩ := s.setVcore_eq v
  rw [e, ← hfab]
  rfl

theorem State.rd_setVcore_ne {b : Blk} {o : Nat} (d : Blk.fab ≠ b ∨ 0xf00014 ≠ o) : (s.setVcore v).rd b o = s.rd b o := by
  obtain ⟨u, h, -, -, hregs, e⟩ := s.setVcore_eq v
  rw [e, State.rd_setF_ne _ R.FAB_VCORE.AT_MIN _ d, State.rd_setF_ne _ R.FAB_VCORE.AT_MAX _ d,
    State.rd_setF_ne _ R.FAB_VCORE.MV _ d]
  exact congrArg (fun r : Regs => r.rd b o) hregs

theorem b2n_lt (c : Bool) : b2n c < 2 ^ 1 := by cases c <;> decide

theorem State.on_b2n (s : State) (x : Fld) (c : Bool) (h : s.f x = b2n c) : s.on x = c := by
  rw [State.on, h]
  cases c <;> rfl

theorem State.setVcore_shown : ((s.setVcore v).on R.FAB_VCORE.AT_MIN = (v == 1440)) ∧ ((s.setVcore v).on R.FAB_VCORE.AT_MAX = (v == 1700)) ∧
    (v % 2 = 0 → v < 8192 → (s.setVcore v).f R.FAB_VCORE.MV = v / 2) := by
  obtain ⟨u, h, hh, -, -, e⟩ := s.setVcore_eq v
  rw [e]
  refine ⟨State.on_b2n _ _ _ (State.f_setF_fit _ (by decide) (b2n_lt _)), State.on_b2n _ _ _ ?_, fun he hv => ?_⟩
  · rw [State.f_setF_ne _ _ R.FAB_VCORE.AT_MAX _ (by decide) (by decide)]
    exact State.f_setF_fit _ (by decide) (b2n_lt _)
  · rw [State.f_setF_ne _ _ R.FAB_VCORE.MV _ (by decide) (by decide), State.f_setF_ne _ _ R.FAB_VCORE.MV _ (by decide) (by decide), hh he]
    exact State.f_setF_fit _ (by decide) (show v / 2 + 0 < 2 ^ 12 by omega)

end

end

/-! ## An evaluation -/

/-- The worst monitor is shown. -/
def State.vloopShown (s : State) (w : Nat) (x : Nat × Nat × Nat) : State :=
  ((s.setF R.FAB_SPD_STATUS.WORST_PS w).setF R.FAB_SPD_STATUS.WORST_PLOT x.1).setF R.FAB_SPD_STATUS.WORST_PLANE x.2.1
/-- VCORE steps. -/
def State.vloopStepped (s : State) (low v : Nat) : State := (s.modFab fun b => { b with lowRun := low }).setVcore v
/-- The margins are judged. -/
def State.vloopJudged (s : State) (risk low : Bool) : State :=
  (s.setF R.FAB_SPD_STATUS.RISK_NOW (b2n risk)).setF R.FAB_SPD_STATUS.LOW_NOW (b2n low)
/-- A margin is reported. -/
def State.vloopReported (s : State) (e : Evt) (code source : Nat) (body : List Word) (c : Bool) : State :=
  if c then (s.raise e).record code 3 source body else s

/-- The evaluation by the worst monitor `x`, whose period is `w`. -/
def State.vloopEvaluated (s : State) (w : Nat) (x : Nat × Nat × Nat) : State :=
  let tgt := s.f R.FAB_VLOOP_CFG.TARGET_PS
  let top := vcoreCeil (s.f R.SYS_SPARE0.PHASE_ACTIVE)
  let v := s.fab.vcore
  let run := if vcoreLower v w tgt s.fab.lowRun then 0 else if w + 50 < tgt then s.fab.lowRun + 1 else 0
  let risk := decide (v = top ∧ 953 ≤ w)
  let low := decide (1000 < w)
  let u := (s.vloopStepped run (vcoreStep v w tgt s.fab.lowRun top)).vloopJudged risk low
  let body := [u.r R.FAB_SPD_STATUS.reg, u.r R.FAB_VCORE.reg]
  (u.vloopReported E.FAB_SPD_EVT.SPEED_RISK 0x0701 x.1 body risk).vloopReported E.FAB_SPD_EVT.SPEED_LOW 0x0702 x.1 body low

theorem State.vloop_eq {s : State} (hen : s.on R.FAB_VLOOP_CFG.EN = true) (hm : s.monitors ≠ []) :
    ∃ (u : State) (x : Nat × Nat × Nat), x ∈ s.monitors ∧ x.2.2 = s.worstPs ∧ u.fab = s.fab ∧ u.regs = s.regs ∧
      s.vloop = (u.vloopShown s.worstPs x).vloopEvaluated s.worstPs x := by
  let worst := s.monitors.filter (fun x => x.2.2 == s.worstPs)
  let r := if worst.length = 1 then (0, s) else s.free
  have drawn : r.2.fab = s.fab ∧ r.2.regs = s.regs := by
    show (if worst.length = 1 then (0, s) else s.free).2.fab = _ ∧ (if worst.length = 1 then (0, s) else s.free).2.regs = _
    split <;> exact ⟨rfl, rfl⟩
  obtain ⟨mem, val⟩ := State.mem_worst hm r.1
  exact ⟨r.2, _, mem, val, drawn.1, drawn.2, if_pos (by rw [hen, Bool.true_and, bne_iff_ne]; exact hm)⟩

/-! ## What an evaluation shows -/

section
variable (s : State) (w : Nat) (x : Nat × Nat × Nat)

theorem State.f_vloopShown_ne {y : Fld} (d : Blk.fab ≠ y.blk ∨ 0xf00018 ≠ y.off) : (s.vloopShown w x).f y = s.f y :=
  congrArg (getBits · y.lsb y.width) ((State.rd_setF_ne _ R.FAB_SPD_STATUS.WORST_PLANE _ d).trans
    ((State.rd_setF_ne _ R.FAB_SPD_STATUS.WORST_PLOT _ d).trans (State.rd_setF_ne _ R.FAB_SPD_STATUS.WORST_PS _ d)))

theorem State.vloopShown_shows (hw : w < 65536) (hp : x.1 < 8) (hk : x.2.1 < 9) :
    (s.vloopShown w x).f R.FAB_SPD_STATUS.WORST_PS = w ∧ (s.vloopShown w x).f R.FAB_SPD_STATUS.WORST_PLOT = x.1 ∧
      (s.vloopShown w x).f R.FAB_SPD_STATUS.WORST_PLANE = x.2.1 := by
  refine ⟨?_, ?_, State.f_setF_fit _ (by decide) (show x.2.1 < 2 ^ 4 by omega)⟩
  · refine (State.f_setF_ne _ R.FAB_SPD_STATUS.WORST_PLANE R.FAB_SPD_STATUS.WORST_PS _ (by decide) (by decide)).trans ?_
    refine (State.f_setF_ne _ R.FAB_SPD_STATUS.WORST_PLOT R.FAB_SPD_STATUS.WORST_PS _ (by decide) (by decide)).trans ?_
    exact State.f_setF_fit _ (by decide) hw
  · refine (State.f_setF_ne _ R.FAB_SPD_STATUS.WORST_PLANE R.FAB_SPD_STATUS.WORST_PLOT _ (by decide) (by decide)).trans ?_
    exact State.f_setF_fit _ (by decide) hp

theorem State.rd_vloopStepped_ne (low v : Nat) {b : Blk} {o : Nat} (d : Blk.fab ≠ b ∨ 0xf00014 ≠ o) :
    (s.vloopStepped low v).rd b o = s.rd b o := State.rd_setVcore_ne _ _ d

theorem State.f_vloopStepped_ne (low v : Nat) {y : Fld} (d : Blk.fab ≠ y.blk ∨ 0xf00014 ≠ y.off) :
    (s.vloopStepped low v).f y = s.f y := congrArg (getBits · y.lsb y.width) (s.rd_vloopStepped_ne low v d)

theorem State.vloopStepped_vcore (low v : Nat) : (s.vloopStepped low v).fab.vcore = v := by
  rw [State.vloopStepped, State.setVcore_fab]

section
variable (risk low : Bool)

theorem State.vloopJudged_fab : (s.vloopJudged risk low).fab = s.fab := (State.setF_fab ..).trans (State.setF_fab ..)

theorem State.f_vloopJudged_ne {y : Fld} (d : R.FAB_SPD_STATUS.RISK_NOW.apart y) (d' : R.FAB_SPD_STATUS.LOW_NOW.apart y) :
    (s.vloopJudged risk low).f y = s.f y :=
  (State.f_setF_ne _ _ _ _ (by decide) d').trans (State.f_setF_ne _ _ _ _ (by decide) d)

theorem State.vloopJudged_shows : (s.vloopJudged risk low).on R.FAB_SPD_STATUS.RISK_NOW = risk ∧
    (s.vloopJudged risk low).on R.FAB_SPD_STATUS.LOW_NOW = low :=
  ⟨State.on_b2n _ _ _ ((State.f_setF_ne _ _ R.FAB_SPD_STATUS.RISK_NOW _ (by decide) (by decide)).trans
    (State.f_setF_fit _ (by decide) (b2n_lt _))), State.on_b2n _ _ _ (State.f_setF_fit _ (by decide) (b2n_lt _))⟩

end

section
variable (e : Evt) (code n : Nat) (body : List Word) (c : Bool)

theorem State.f_vloopReported_ne {y : Fld} (d : e.off ≠ y.off) (d' : e.cntOff ≠ y.off) :
    (s.vloopReported e code n body c).f y = s.f y :=
  keeps_ite (g := (·.f y)) (s.f_raise_off e d d') rfl

theorem State.vloopReported_fab : (s.vloopReported e code n body c).fab = s.fab := keeps_ite (g := (·.fab)) (s.raise_fab e) rfl

end

theorem State.flag_vloopReported {e : Evt} (h : e = E.FAB_SPD_EVT.SPEED_RISK ∨ e = E.FAB_SPD_EVT.SPEED_LOW) (code n : Nat) (body : List Word) :
    (s.vloopReported e code n body true).flag e = true := by
  show (s.raise e).flag e = true
  rcases h with rfl | rfl
  · exact s.flag_raise _ (by decide) (by decide) (.inl (by decide))
  · exact s.flag_raise _ (by decide) (by decide) (.inl (by decide))

/-- A report of the low margin leaves the flag of the other. -/
theorem State.risk_vloopReported (code n : Nat) (body : List Word) (c : Bool) :
    (s.vloopReported E.FAB_SPD_EVT.SPEED_LOW code n body c).flag E.FAB_SPD_EVT.SPEED_RISK = s.flag E.FAB_SPD_EVT.SPEED_RISK := by
  have raised : (s.raise E.FAB_SPD_EVT.SPEED_LOW).f ⟨.fab, 0xf0001c, 0, 1⟩ = s.f ⟨.fab, 0xf0001c, 0, 1⟩ :=
    s.f_raise_ne _ _ (by decide) (by decide) (by decide) (by decide)
  exact congrArg (· != 0) (keeps_ite (g := (·.f ⟨.fab, 0xf0001c, 0, 1⟩)) raised rfl)

/-- The steps of an evaluation: VCORE, the margins, and their reports. -/
theorem State.vloopEvaluated_eq : ∃ (run : Nat) (body : List Word),
    s.vloopEvaluated w x = (((s.vloopStepped run (vcoreStep s.fab.vcore w (s.f R.FAB_VLOOP_CFG.TARGET_PS) s.fab.lowRun
      (vcoreCeil (s.f R.SYS_SPARE0.PHASE_ACTIVE)))).vloopJudged
        (decide (s.fab.vcore = vcoreCeil (s.f R.SYS_SPARE0.PHASE_ACTIVE) ∧ 953 ≤ w)) (decide (1000 < w))).vloopReported
          E.FAB_SPD_EVT.SPEED_RISK 0x0701 x.1 body
            (decide (s.fab.vcore = vcoreCeil (s.f R.SYS_SPARE0.PHASE_ACTIVE) ∧ 953 ≤ w))).vloopReported
              E.FAB_SPD_EVT.SPEED_LOW 0x0702 x.1 body (decide (1000 < w)) := ⟨_, _, rfl⟩

end

/-- What an evaluation leaves: VCORE after its step, the worst monitor, the margins, and their events. -/
theorem State.vloop_spec {s : State} (hen : s.on R.FAB_VLOOP_CFG.EN = true) (hm : s.monitors ≠ []) :
    let w := s.worstPs
    let top := vcoreCeil (s.f R.SYS_SPARE0.PHASE_ACTIVE)
    let v := vcoreStep s.fab.vcore w (s.f R.FAB_VLOOP_CFG.TARGET_PS) s.fab.lowRun top
    ∃ x ∈ s.monitors, x.2.2 = w ∧
      (s.vloop.f R.FAB_SPD_STATUS.WORST_PS = w ∧ s.vloop.f R.FAB_SPD_STATUS.WORST_PLOT = x.1 ∧
        s.vloop.f R.FAB_SPD_STATUS.WORST_PLANE = x.2.1) ∧
      (s.vloop.fab.vcore = v ∧ s.vloop.on R.FAB_VCORE.AT_MIN = (v == 1440) ∧ s.vloop.on R.FAB_VCORE.AT_MAX = (v == 1700) ∧
        (v % 2 = 0 → v < 8192 → s.vloop.f R.FAB_VCORE.MV = v / 2)) ∧
      (s.vloop.on R.FAB_SPD_STATUS.RISK_NOW = decide (s.fab.vcore = top ∧ 953 ≤ w) ∧
        s.vloop.on R.FAB_SPD_STATUS.LOW_NOW = decide (1000 < w)) ∧
      (s.fab.vcore = top → 953 ≤ w → s.vloop.flag E.FAB_SPD_EVT.SPEED_RISK = true) ∧
      (1000 < w → s.vloop.flag E.FAB_SPD_EVT.SPEED_LOW = true) := by
  intro w top v
  obtain ⟨u, x, mem, val, hfab, hregs, eq⟩ := State.vloop_eq hen hm
  obtain ⟨hp, hk, hw⟩ := State.mem_monitors mem
  have before {y : Fld} (d : Blk.fab ≠ y.blk ∨ 0xf00018 ≠ y.off) : (u.vloopShown w x).f y = s.f y := by
    rw [u.f_vloopShown_ne w x d, State.f_eq, State.f_eq, hregs]
  obtain ⟨run, body, steps⟩ := (u.vloopShown w x).vloopEvaluated_eq w x
  rw [show (u.vloopShown w x).fab = s.fab from hfab, before (y := R.FAB_VLOOP_CFG.TARGET_PS) (by decide),
    before (y := R.SYS_SPARE0.PHASE_ACTIVE) (by decide)] at steps
  let stepped := (u.vloopShown w x).vloopStepped run v
  let judged := stepped.vloopJudged (decide (s.fab.vcore = top ∧ 953 ≤ w)) (decide (1000 < w))
  have eq := eq.trans steps
  have shown {y : Fld} (h : y.off = 0xf00018 ∨ y.off = 0xf00014) : s.vloop.f y = judged.f y := by
    have apart : 0xf0001c ≠ y.off ∧ 0xf00020 ≠ y.off := by omega
    exact (congrArg (·.f y) eq).trans ((State.f_vloopReported_ne _ _ _ _ _ _ apart.1 apart.2).trans
      (State.f_vloopReported_ne _ _ _ _ _ _ apart.1 apart.2))
  have worst {y : Fld} (h : y.off = 0xf00018) (d : R.FAB_SPD_STATUS.RISK_NOW.apart y) (d' : R.FAB_SPD_STATUS.LOW_NOW.apart y) :
      s.vloop.f y = (u.vloopShown w x).f y :=
    (shown (.inl h)).trans ((stepped.f_vloopJudged_ne _ _ d d').trans ((u.vloopShown w x).f_vloopStepped_ne _ _ (.inr (by omega))))
  have core {y : Fld} (h : y.off = 0xf00014) : s.vloop.f y = stepped.f y :=
    (shown (.inr h)).trans (stepped.f_vloopJudged_ne _ _ (.inr (.inl (by rw [h]; decide))) (.inr (.inl (by rw [h]; decide))))
  obtain ⟨ps, plot, plane⟩ := u.vloopShown_shows w x (by have h : x.2.2 = w := val; omega) hp hk
  obtain ⟨hmin, hmax, hmv⟩ := ((u.vloopShown w x).modFab fun b => { b with lowRun := run }).setVcore_shown v
  obtain ⟨hrisk, hlow⟩ := stepped.vloopJudged_shows (decide (s.fab.vcore = top ∧ 953 ≤ w)) (decide (1000 < w))
  refine ⟨x, mem, val, ⟨?_, ?_, ?_⟩, ⟨?_, ?_, ?_, fun he hv => (core rfl).trans (hmv he hv)⟩, ⟨?_, ?_⟩, fun hv hr => ?_, fun hl => ?_⟩
  · exact (worst rfl (by decide) (by decide)).trans ps
  · exact (worst rfl (by decide) (by decide)).trans plot
  · exact (worst rfl (by decide) (by decide)).trans plane
  · rw [eq, State.vloopReported_fab, State.vloopReported_fab, State.vloopJudged_fab, State.vloopStepped_vcore]
  · exact (congrArg (· != 0) (core (y := R.FAB_VCORE.AT_MIN) rfl)).trans hmin
  · exact (congrArg (· != 0) (core (y := R.FAB_VCORE.AT_MAX) rfl)).trans hmax
  · exact (congrArg (· != 0) (shown (y := R.FAB_SPD_STATUS.RISK_NOW) (.inl rfl))).trans hrisk
  · exact (congrArg (· != 0) (shown (y := R.FAB_SPD_STATUS.LOW_NOW) (.inl rfl))).trans hlow
  · rw [eq, State.risk_vloopReported, decide_eq_true (⟨hv, hr⟩ : s.fab.vcore = top ∧ 953 ≤ w)]
    exact State.flag_vloopReported _ (.inl rfl) ..
  · rw [eq, decide_eq_true hl]
    exact State.flag_vloopReported _ (.inr rfl) ..

end Sys2Proof.Machine
end

section
/-! SUPPORT. The gleaner (R249–R253, R314): what a confirmed leak and a mismatch write, how a queue manager's pass is judged, and a
pass over a plot. -/
namespace Sys2Proof.Machine
open Sys2Proof

section
variable {s : State} {p c : Nat}

/-! ## An error of a queue manager -/

/-- The passes in progress and the errors counted during them. -/
def State.setPasses (s : State) (l : List Pass) (m : List (Nat × Nat × Nat)) : State :=
  s.modSpares fun x => { x with passes := l, counted := m }

/-- A pass of a queue manager writes the spares and the count of passes alone. -/
theorem State.harrowQueue_keeps {β : Type} {g : State → β} (hspares : ∀ (s : State) l m, g (s.setPasses l m) = g s)
    (hrunning : ∀ s : State, g s.harrowRunning = g s) (s : State) (p : Nat) : g (s.harrow hcQueue p) = g s := by
  unfold State.harrow
  rw [if_neg (show ¬ (hcQueue ≠ hcQueue ∧ 7 ≤ s.recentTransients hcQueue p) from fun h => h.1 rfl)]
  exact keeps_ite rfl (keeps_ite (hspares s s.spares.passes _) ((hrunning _).trans (hspares s _ s.spares.counted)))

/-- An error leaves the queue manager under a pass: the one that it starts, or the one in progress. -/
theorem State.underPass_harrowQueue (h : s.power.step ≠ 0) : (s.harrow hcQueue p).underPass hcQueue p = true := by
  by_cases hu : s.underPass hcQueue p = true
  · rw [State.harrow_underPass h hu]
    exact hu
  · rw [State.harrow_starts h (Bool.eq_false_iff.2 hu) (.inl rfl)]
    refine Bool.or_eq_true_iff.2 (.inl (List.any_eq_true.2 ⟨_, List.mem_append_right _ (List.mem_singleton.2 rfl), ?_⟩))
    simp

/-! ## A confirmed leak -/

theorem State.f_count_same (s : State) {x : Fld} (h : x.fits) (hw : x.width = 32) : (s.count x).f x = satInc 0xFFFFFFFF (s.f x) := by
  refine s.f_setF_fit h ?_
  rw [hw, satInc]
  split <;> omega

/-- The leak is counted. -/
def State.leakCounted (s : State) (p : Nat) : State := (s.raise (E.FAB_BUF_EVT.LEAK p)).count (R.FAB_BUF_CNT_LEAK_TOTAL.COUNT p)
/-- Its cell is free again. -/
def State.leakFreed (s : State) (p c : Nat) : State :=
  if s.cellListed p c .free then s.setCellTag p c ⟨.free, (s.cellTag p c).gen⟩ else s.cellFree p c

theorem State.cellTag_setCellTag (s : State) (p c : Nat) (t : CellTag) : (s.setCellTag p c t).cellTag p c = t := sget_sset_same ..

theorem State.bankEmptied_fab (s : State) (p bank : Nat) : (s.bankEmptied p bank).fab = s.fab := keeps_ite (g := (·.fab)) rfl rfl

/-- What a cell's release leaves in the fabric: its tag, and its place on the free list. -/
theorem State.cellFree_fab (s : State) (p c : Nat) : (s.cellFree p c).fab =
    (if s.cellActive p c then (s.setCellTag p c ⟨.free, (s.cellTag p c).gen⟩).setFreed p (s.freedCells p ++ [c])
      else s.setCellTag p c ⟨.free, (s.cellTag p c).gen⟩).fab := by
  unfold State.cellFree
  extract_lets tagged freed
  have last : freed.fab = (if s.cellActive p c then tagged.setFreed p (s.freedCells p ++ [c]) else tagged).fab := rfl
  split
  · exact (State.bankEmptied_fab ..).trans last
  · exact last

theorem State.owner_leakFreed (s : State) (p c : Nat) : ((s.leakFreed p c).cellTag p c).owner = .free := by
  have tagged : ((s.setCellTag p c ⟨.free, (s.cellTag p c).gen⟩).cellTag p c).owner = .free :=
    congrArg CellTag.owner (s.cellTag_setCellTag p c _)
  unfold State.leakFreed
  split
  · exact tagged
  · refine (congrArg (fun b : Fab => (sget tagDefault b.cells (cellKey p c)).owner) (s.cellFree_fab p c)).trans ?_
    split
    · exact tagged
    · exact tagged

theorem State.listed_leakFreed (h : s.cellActive p c = true) : (s.leakFreed p c).cellListed p c .free = true := by
  unfold State.leakFreed
  split
  next hl => exact hl
  next =>
    refine Bool.or_eq_true_iff.2 (.inr (List.contains_iff_mem.2 ?_))
    show c ∈ sget idxDefault (s.cellFree p c).fab.freed p
    rw [s.cellFree_fab, if_pos h]
    show c ∈ sget idxDefault (sset idxDefault s.fab.freed p _) p
    rw [sget_sset_same]
    exact List.mem_append_right _ (List.mem_singleton.2 rfl)

theorem State.offCells_leakFreed (s : State) (p c : Nat) : (s.leakFreed p c).offCells = s.offCells :=
  keeps_ite (g := State.offCells) rfl (s.offCells_cellFree p c)

/-- The release of a leaked cell writes no register. -/
theorem State.f_leakFreed (s : State) (p c : Nat) (x : Fld) : (s.leakFreed p c).f x = s.f x :=
  State.keeps_of_offCells (s.offCells_leakFreed p c) (·.f x) fun _ => rfl

/-! The words of a plot's buffer events, of its window and of its counter of leaks are different ones. -/

theorem State.f_leakCounted_window (s : State) (p : Nat) : (s.leakCounted p).f (R.FAB_GLN_WINDOW.CONFIRMED p) =
    s.f (R.FAB_GLN_WINDOW.CONFIRMED p) := by
  refine (State.f_setF_ne _ _ _ _ (show 0 + 32 ≤ 32 by decide) (.inr (.inl ?_))).trans (s.f_raise_off _ ?_ ?_)
  all_goals simp only [R.FAB_BUF_CNT_LEAK_TOTAL.COUNT, R.FAB_GLN_WINDOW.CONFIRMED, E.FAB_BUF_EVT.LEAK]; omega

theorem State.f_leakCounted_total (s : State) (p : Nat) : (s.leakCounted p).f (R.FAB_BUF_CNT_LEAK_TOTAL.COUNT p) =
    satInc 0xFFFFFFFF (s.f (R.FAB_BUF_CNT_LEAK_TOTAL.COUNT p)) := by
  have raised : (s.raise (E.FAB_BUF_EVT.LEAK p)).f (R.FAB_BUF_CNT_LEAK_TOTAL.COUNT p) = s.f (R.FAB_BUF_CNT_LEAK_TOTAL.COUNT p) := by
    refine s.f_raise_off _ ?_ ?_
    all_goals simp only [R.FAB_BUF_CNT_LEAK_TOTAL.COUNT, E.FAB_BUF_EVT.LEAK]; omega
  rw [State.leakCounted, State.f_count_same _ (show 0 + 32 ≤ 32 by decide) rfl, raised]

theorem State.flag_leakCounted (s : State) (p : Nat) : (s.leakCounted p).flag (E.FAB_BUF_EVT.LEAK p) = true := by
  have raised : (s.raise (E.FAB_BUF_EVT.LEAK p)).flag (E.FAB_BUF_EVT.LEAK p) = true :=
    s.flag_raise _ (show 3 < 32 by decide) (show 16 ≤ 16 by decide) (.inl (by simp only [E.FAB_BUF_EVT.LEAK]; omega))
  refine (congrArg (· != 0) (State.f_setF_ne _ _ _ _ (show 0 + 32 ≤ 32 by decide) (.inr (.inl ?_)))).trans raised
  simp only [R.FAB_BUF_CNT_LEAK_TOTAL.COUNT, E.FAB_BUF_EVT.LEAK]
  omega

/-- The state of a leak that has been counted and whose cell is free. -/
def State.leaked (s : State) (p c : Nat) : State := (s.leakCounted p).leakFreed p c

theorem State.window_leaked (s : State) (p c : Nat) : (s.leaked p c).f (R.FAB_GLN_WINDOW.CONFIRMED p) = s.f (R.FAB_GLN_WINDOW.CONFIRMED p) :=
  (State.f_leakFreed ..).trans (s.f_leakCounted_window p)

theorem State.leak_few (h : s.f (R.FAB_GLN_WINDOW.CONFIRMED p) + 1 < 65) :
    s.leak p c = (s.leaked p c).setF (R.FAB_GLN_WINDOW.CONFIRMED p) (s.f (R.FAB_GLN_WINDOW.CONFIRMED p) + 1) := by
  rw [← s.window_leaked p c] at h ⊢
  exact if_pos h

theorem State.leak_many (h : 65 ≤ s.f (R.FAB_GLN_WINDOW.CONFIRMED p) + 1) : s.leak p c =
    (((s.leaked p c).setF (R.FAB_GLN_WINDOW.CONFIRMED p) 0).raise (E.FAB_BUF_EVT.HARROW_TRIG p)).harrow hcQueue p := by
  rw [← s.window_leaked p c] at h
  exact if_neg h.not_gt

/-- What no window, no event HARROW_TRIG and no pass writes is as the counted leak with its free cell leaves it. -/
theorem State.leak_keeps {β : Type} {g : State → β} (hset : ∀ (s : State) v, g (s.setF (R.FAB_GLN_WINDOW.CONFIRMED p) v) = g s)
    (hraise : ∀ s : State, g (s.raise (E.FAB_BUF_EVT.HARROW_TRIG p)) = g s) (hspares : ∀ (s : State) l m, g (s.setPasses l m) = g s)
    (hrunning : ∀ s : State, g s.harrowRunning = g s) (s : State) (c : Nat) : g (s.leak p c) = g (s.leaked p c) := by
  by_cases h : s.f (R.FAB_GLN_WINDOW.CONFIRMED p) + 1 < 65
  · rw [State.leak_few h, hset]
  · rw [State.leak_many (by omega), State.harrowQueue_keeps hspares hrunning, hraise, hset]

/-- A field of a plot's buffer registers that the window and the event HARROW_TRIG leave alone. -/
theorem State.f_leak (s : State) (c : Nat) {x : Fld} (hb : x.blk = .fab) (hw : 0x100054 + 0x1000000 * p ≠ x.off)
    (he : (⟨.fab, 0x100040 + 0x1000000 * p, 5, 1⟩ : Fld).apart x) (hc : 0x10004c + 0x1000000 * p ≠ x.off) :
    (s.leak p c).f x = (s.leaked p c).f x :=
  State.leak_keeps (g := (·.f x)) (fun s v => s.f_setF_ne _ _ _ (show 0 + 7 ≤ 32 by decide) (.inr (.inl hw)))
    (fun s => s.f_raise_ne _ _ (show 5 < 32 by decide) (show 16 ≤ 16 by decide) he (.inr (.inl hc))) (fun _ _ _ => rfl)
    (fun s => s.f_setF_blk _ (by rw [hb]; decide)) s c

/-- What a confirmed leak leaves (R250, R253). -/
theorem State.leak_spec (s : State) (p c : Nat) : (s.leak p c).flag (E.FAB_BUF_EVT.LEAK p) = true ∧
    (s.leak p c).f (R.FAB_BUF_CNT_LEAK_TOTAL.COUNT p) = satInc 0xFFFFFFFF (s.f (R.FAB_BUF_CNT_LEAK_TOTAL.COUNT p)) ∧
    ((s.leak p c).cellTag p c).owner = .free ∧ (s.cellActive p c = true → (s.leak p c).cellListed p c .free = true) := by
  have cells {β : Type} (g : State → β) (hset : ∀ (s : State) v, g (s.setF (R.FAB_GLN_WINDOW.CONFIRMED p) v) = g s)
      (hraise : ∀ s : State, g (s.raise (E.FAB_BUF_EVT.HARROW_TRIG p)) = g s) (hspares : ∀ (s : State) l m, g (s.setPasses l m) = g s)
      (hrunning : ∀ s : State, g s.harrowRunning = g s) : g (s.leak p c) = g (s.leaked p c) :=
    State.leak_keeps hset hraise hspares hrunning s c
  refine ⟨?_, ?_, ?_, fun h => ?_⟩
  · refine (congrArg (· != 0) (s.f_leak c (x := ⟨.fab, 0x100040 + 0x1000000 * p, 3, 1⟩) rfl ?_ ?_ ?_)).trans
      ((congrArg (· != 0) (State.f_leakFreed ..)).trans (s.flag_leakCounted p))
    · show 0x100054 + 0x1000000 * p ≠ 0x100040 + 0x1000000 * p
      omega
    · exact .inr (.inr (.inr (show 3 + 1 ≤ 5 by decide)))
    · show 0x10004c + 0x1000000 * p ≠ 0x100040 + 0x1000000 * p
      omega
  · refine (s.f_leak c rfl ?_ (.inr (.inl ?_)) ?_).trans ((State.f_leakFreed ..).trans (s.f_leakCounted_total p))
    all_goals simp only [R.FAB_BUF_CNT_LEAK_TOTAL.COUNT]; omega
  · rw [cells (fun t => (t.cellTag p c).owner) (fun _ _ => rfl) (fun _ => rfl) (fun _ _ _ => rfl) fun _ => rfl]
    exact State.owner_leakFreed ..
  · rw [cells (fun t => t.cellListed p c .free) (fun _ _ => rfl) (fun _ => rfl) (fun _ _ _ => rfl) fun _ => rfl]
    exact State.listed_leakFreed h

/-- Up to the 64th of a window, a leak counts and starts nothing. -/
theorem State.leak_few_spec (h : s.f (R.FAB_GLN_WINDOW.CONFIRMED p) + 1 < 65) :
    (s.leak p c).f (R.FAB_GLN_WINDOW.CONFIRMED p) = s.f (R.FAB_GLN_WINDOW.CONFIRMED p) + 1 ∧
      (s.leak p c).spares.passes = s.spares.passes := by
  rw [State.leak_few h]
  refine ⟨State.f_setF_fit _ (show 0 + 7 ≤ 32 by decide) (show _ < 2 ^ 7 by omega), ?_⟩
  have freed : (s.leaked p c).spares.passes = (s.leakCounted p).spares.passes :=
    State.keeps_of_offCells (State.offCells_leakFreed ..) (·.spares.passes) fun _ => rfl
  exact freed.trans (congrArg Spares.passes ((State.count_spares ..).trans (s.raise_spares _)))

/-- The 65th of a window restarts the window and starts a pass of the queue manager. -/
theorem State.leak_many_spec (h : 65 ≤ s.f (R.FAB_GLN_WINDOW.CONFIRMED p) + 1) :
    (s.leak p c).f (R.FAB_GLN_WINDOW.CONFIRMED p) = 0 ∧ (s.leak p c).flag (E.FAB_BUF_EVT.HARROW_TRIG p) = true ∧
      (s.power.step ≠ 0 → (s.leak p c).underPass hcQueue p = true) := by
  rw [State.leak_many h]
  have harrow (u : State) (x : Fld) (hx : x.blk = .fab) : (u.harrow hcQueue p).f x = u.f x :=
    State.harrowQueue_keeps (g := (·.f x)) (fun _ _ _ => rfl) (fun s => s.f_setF_blk _ (by rw [hx]; decide)) u p
  refine ⟨?_, ?_, fun hp => State.underPass_harrowQueue ?_⟩
  · refine (harrow _ _ rfl).trans ((State.f_raise_off _ _ ?_ ?_).trans (State.f_setF_fit _ (show 0 + 7 ≤ 32 by decide) (show 0 < 2 ^ 7 by decide)))
    all_goals simp only [E.FAB_BUF_EVT.HARROW_TRIG, R.FAB_GLN_WINDOW.CONFIRMED]; omega
  · refine (congrArg (· != 0) (harrow _ ⟨.fab, 0x100040 + 0x1000000 * p, 5, 1⟩ rfl)).trans ?_
    exact State.flag_raise _ (E.FAB_BUF_EVT.HARROW_TRIG p) (show 5 < 32 by decide) (show 16 ≤ 16 by decide)
      (.inl (by simp only [E.FAB_BUF_EVT.HARROW_TRIG]; omega))
  · have freed : (s.leaked p c).power = (s.leakCounted p).power :=
      State.keeps_of_offCells (State.offCells_leakFreed ..) (·.power) fun _ => rfl
    rw [State.raise_power, State.setF_power, freed]
    exact fun he => hp he

/-! ## The judgement of a queue manager's pass -/

theorem State.judge_none (h : ∀ x ∈ s.spares.judged, x.1 ≠ p) (clash : List Nat) : s.judge p clash = s := by
  have mine : s.spares.judged.filter (fun x => x.1 == p) = [] := List.filter_eq_nil_iff.2 fun x hx => by simpa using h x hx
  have others : s.spares.judged.filter (fun x => x.1 != p) = s.spares.judged := List.filter_eq_self.2 fun x hx => by simpa using h x hx
  have rest : s.modSpares (fun y => { y with judged := y.judged.filter (fun z => z.1 != p) }) = s := by
    show { s with spares := { s.spares with judged := s.spares.judged.filter (fun z => z.1 != p) } } = s
    rw [others]
  unfold State.judge
  rw [mine, rest]
  rfl

theorem State.judge_all {l : List (List Nat)} (h : s.spares.judged = l.map fun c => (p, c)) (clash : List Nat) :
    s.judge p clash = foldS l (fun c v => v.judgeOne p clash c) { s with spares := { s.spares with judged := [] } } := by
  have mine : s.spares.judged.filter (fun x => x.1 == p) = s.spares.judged := List.filter_eq_self.2 fun x hx => by
    rw [h] at hx
    obtain ⟨c, -, rfl⟩ := List.mem_map.1 hx
    exact beq_self_eq_true p
  have others : s.spares.judged.filter (fun x => x.1 != p) = [] := List.filter_eq_nil_iff.2 fun x hx => by
    rw [h] at hx
    obtain ⟨c, -, rfl⟩ := List.mem_map.1 hx
    simp
  have rest : s.modSpares (fun y => { y with judged := y.judged.filter (fun z => z.1 != p) }) =
      { s with spares := { s.spares with judged := [] } } := by
    show { s with spares := { s.spares with judged := s.spares.judged.filter (fun z => z.1 != p) } } = _
    rw [others]
  unfold State.judge
  rw [mine, rest, h]
  exact List.foldl_map

theorem State.judgeOne_none {clash cells : List Nat} (h : cells.filter clash.contains = []) :
    s.judgeOne p clash cells = s.transient hcQueue p := by
  rw [State.judgeOne, h]
  rfl

theorem State.judgeOne_one {clash cells : List Nat} (h : cells.filter clash.contains = [c]) :
    s.judgeOne p clash cells = s.rowFailed (s.cellRow p c) := by
  rw [State.judgeOne, h]
  rfl

theorem State.rowFailed_eq {el : Nat} (h : ∀ x ∈ s.spares.passes, ¬ (x.cls = 1 ∧ x.el = el)) : s.rowFailed el =
    if s.isRetired hcBank el then (s.harrowRunning.raise E.SYS_FAULT_EVT.LASTING).outcome hcBank el 1
    else s.harrowRunning.lasting hcBank el := by
  have all : s.spares.passes.filter (fun x => !(x.cls == hcBank && x.el == el)) = s.spares.passes :=
    List.filter_eq_self.2 fun x hx => by
      have := h x hx
      simpa [hcBank, -not_and, not_and_or] using this
  have same : s.harrowRunning.isRetired hcBank el = s.isRetired hcBank el := rfl
  have rest : s.modSpares (fun y => { y with passes := y.passes.filter (fun x => !(x.cls == hcBank && x.el == el)) }) = s := by
    show { s with spares := { s.spares with passes := s.spares.passes.filter (fun x => !(x.cls == hcBank && x.el == el)) } } = s
    rw [all]
  unfold State.rowFailed
  rw [rest]
  exact if_congr (by rw [same]) rfl rfl

/-! ## Mismatches -/

/-- One mismatched cell, or an excessive deficit, is reported. -/
def State.mismatched (s : State) (p : Nat) (w : Word) : State := (s.raise (E.FAB_BUF_EVT.MISMATCH p)).record 0x0703 2 p [w]

theorem State.mismatched_offered (s : State) (p : Nat) (w : Word) :
    (s.mismatched p w).rcd.offered = s.rcd.offered ++ [⟨0x0703, 2, p, [w]⟩] := by
  rw [State.mismatched, State.record_offered, State.raise_rcd]

theorem State.flag_mismatched (s : State) (p : Nat) (w : Word) : (s.mismatched p w).flag (E.FAB_BUF_EVT.MISMATCH p) = true := by
  have raised : (s.raise (E.FAB_BUF_EVT.MISMATCH p)).flag (E.FAB_BUF_EVT.MISMATCH p) = true :=
    s.flag_raise _ (show 4 < 32 by decide) (show 0 ≤ 16 by decide) (.inl (by simp only [E.FAB_BUF_EVT.MISMATCH]; omega))
  exact (congrArg (· != 0) (State.f_record ..)).trans raised

/-- What the deficit and the mismatched cells report, in turn. -/
def State.mismatches (s : State) (p : Nat) (clash : List Nat) (deficit : Bool) : State :=
  let t := foldS clash (fun c s => s.mismatched p (w32 c)) s
  if deficit then t.free.2.mismatched p (w32 t.free.1) else t

theorem State.mismatch_eq (s : State) (p : Nat) (clash : List Nat) (deficit : Bool) : s.mismatch p clash deficit =
    ((s.mismatches p clash deficit).modSpares fun y => { y with cells := sset (fun _ => []) y.cells p clash }).harrow hcQueue p := rfl

theorem State.mismatches_keeps {β : Type} {g : State → β} (h : ∀ (s : State) w, g (s.mismatched p w) = g s)
    (hfree : ∀ s : State, g s.free.2 = g s) (s : State) (clash : List Nat) (deficit : Bool) : g (s.mismatches p clash deficit) = g s := by
  have cells : g (foldS clash (fun c s => s.mismatched p (w32 c)) s) = g s := foldS_keeps g _ (fun c t => h t (w32 c)) clash s
  exact keeps_ite ((h ..).trans ((hfree _).trans cells)) cells

/-- Once one is reported, the flag stands. -/
theorem State.flag_mismatches (s : State) {clash : List Nat} {deficit : Bool} (h : clash ≠ [] ∨ deficit = true) :
    (s.mismatches p clash deficit).flag (E.FAB_BUF_EVT.MISMATCH p) = true := by
  cases deficit with
  | true => exact State.flag_mismatched ..
  | false =>
    obtain ⟨c, hc⟩ := List.exists_mem_of_ne_nil clash (h.resolve_right (by decide))
    exact foldS_reaches (g := fun c s => s.mismatched p (w32 c)) (P := fun t => t.flag (E.FAB_BUF_EVT.MISMATCH p) = true) hc (fun t => t.flag_mismatched p _)
      (fun _ _ t _ => t.flag_mismatched p _) s

theorem State.mismatches_cell (s : State) {clash : List Nat} (hc : c ∈ clash) (deficit : Bool) :
    ⟨0x0703, 2, p, [w32 c]⟩ ∈ (s.mismatches p clash deficit).rcd.offered := by
  have reported : ⟨0x0703, 2, p, [w32 c]⟩ ∈ (foldS clash (fun c s => s.mismatched p (w32 c)) s).rcd.offered := by
    refine foldS_reaches (g := fun c s => s.mismatched p (w32 c)) (P := fun t => ⟨0x0703, 2, p, [w32 c]⟩ ∈ t.rcd.offered) hc
      (fun t => ?_) (fun _ _ t ht => ?_) s
    · rw [State.mismatched_offered]
      exact List.mem_append_right _ (List.mem_singleton.2 rfl)
    · rw [State.mismatched_offered]
      exact List.mem_append_left _ ht
  cases deficit with
  | false => exact reported
  | true =>
    show _ ∈ (State.mismatched _ p _).rcd.offered
    rw [State.mismatched_offered]
    exact List.mem_append_left _ reported

theorem State.mismatches_deficit (s : State) (p : Nat) (clash : List Nat) :
    ∃ w, ⟨0x0703, 2, p, [w]⟩ ∈ (s.mismatches p clash true).rcd.offered := by
  refine ⟨w32 (foldS clash (fun c s => s.mismatched p (w32 c)) s).free.1, ?_⟩
  show _ ∈ (State.mismatched _ p _).rcd.offered
  rw [State.mismatched_offered]
  exact List.mem_append_right _ (List.mem_singleton.2 rfl)

theorem State.power_mismatched (s : State) (p : Nat) (w : Word) : (s.mismatched p w).power = s.power := by
  rw [State.mismatched, State.record_power, State.raise_power]

/-- What a mismatch leaves (R252). -/
theorem State.mismatch_spec (s : State) {clash : List Nat} {deficit : Bool} (h : clash ≠ [] ∨ deficit = true) (hp : s.power.step ≠ 0) :
    (s.mismatch p clash deficit).flag (E.FAB_BUF_EVT.MISMATCH p) = true ∧ (s.mismatch p clash deficit).underPass hcQueue p = true ∧
      (s.mismatch p clash deficit).rcd.offered = (s.mismatches p clash deficit).rcd.offered := by
  rw [State.mismatch_eq]
  refine ⟨?_, State.underPass_harrowQueue ?_, ?_⟩
  · exact (State.harrowQueue_keeps (g := (·.flag (E.FAB_BUF_EVT.MISMATCH p))) (fun _ _ _ => rfl)
      (fun s => congrArg (· != 0) (s.f_setF_blk (y := ⟨.fab, 0x100040 + 0x1000000 * p, 4, 1⟩) _ (show Blk.sys ≠ Blk.fab by decide))) _ p).trans
        (s.flag_mismatches h)
  · have power : (s.mismatches p clash deficit).power = s.power :=
      State.mismatches_keeps (g := (·.power)) (fun s w => s.power_mismatched p w) (fun _ => rfl) s clash deficit
    rwa [← power] at hp
  · exact State.harrowQueue_keeps (g := (·.rcd.offered)) (fun _ _ _ => rfl) (fun _ => rfl) _ p

/-! ## A pass over a plot -/

/-- The cells that the counts of R249 miss. -/
def State.gleanLost (s : State) (p : Nat) : Nat := s.f (R.FAB_BUF_TOTAL.TOTAL p) - s.cellSum p
/-- The mismatched cells of a plot. -/
def State.clashes (s : State) (p : Nat) : List Nat := (s.walkCells p).filter (s.cellClash p)
/-- The orphans of a plot, each with its generation. -/
def State.orphans (s : State) (p : Nat) : List (Nat × Nat) := ((s.walkCells p).filter (s.orphan p)).map (fun i => (i, (s.cellTag p i).gen))

/-- The pass after the count and the judgement: suspects of the pass before are confirmed, and the other orphans suspected. -/
def State.gleaned (s : State) (p : Nat) (orphans : List (Nat × Nat)) : State :=
  let sure := (s.suspects p).filter orphans.contains
  (foldS sure (fun x v => v.leak p x.1) s).setSuspects p ((orphans.filter (fun x => !sure.contains x)).take 4096)

/-- The state in which the deficit is shown. -/
def State.deficitShown (s : State) (p : Nat) : State := s.setF (R.FAB_GLN_STATUS.DEFICIT p) (min (s.gleanLost p) 0xFFFF)

theorem State.clashes_deficitShown (s : State) (p : Nat) : (s.deficitShown p).clashes p = s.clashes p := rfl
theorem State.orphans_deficitShown (s : State) (p : Nat) : (s.deficitShown p).orphans p = s.orphans p := rfl

theorem State.gleanerPass_eq (s : State) (p : Nat) : s.gleanerPass p [] =
    if s.clashes p = [] ∧ s.gleanLost p ≤ 0x7FFF then ((s.deficitShown p).judge p (s.clashes p)).gleaned p (s.orphans p)
    else (((s.deficitShown p).judge p (s.clashes p)).gleaned p (s.orphans p)).mismatch p (s.clashes p) (decide (0x7FFF < s.gleanLost p)) := by
  have pass : s.gleanerPass p [] = if ((s.deficitShown p).clashes p != [] || decide (0x7FFF < s.gleanLost p)) = true then
      (((s.deficitShown p).judge p ((s.deficitShown p).clashes p)).gleaned p ((s.deficitShown p).orphans p)).mismatch p
        ((s.deficitShown p).clashes p) (decide (0x7FFF < s.gleanLost p))
      else ((s.deficitShown p).judge p ((s.deficitShown p).clashes p)).gleaned p ((s.deficitShown p).orphans p) := rfl
  rw [pass, s.clashes_deficitShown, s.orphans_deficitShown]
  by_cases h : s.clashes p = [] ∧ s.gleanLost p ≤ 0x7FFF
  · rw [if_pos h, if_neg]
    simp only [h.1, Bool.or_eq_true, bne_iff_ne, decide_eq_true_eq]
    exact fun hh => hh.elim (· rfl) h.2.not_gt
  · rw [if_neg h, if_pos]
    simp only [Bool.or_eq_true, bne_iff_ne, decide_eq_true_eq]
    exact (not_and_or.1 h).imp_right Nat.lt_of_not_le

theorem mem_insertUp {n x : Nat} : ∀ {l : List Nat}, x ∈ insertUp n l → x = n ∨ x ∈ l
  | [], h => .inl (List.mem_singleton.1 h)
  | m :: l, h => by
    unfold insertUp at h
    split at h
    · exact List.mem_cons.1 h
    · split at h
      · exact .inr h
      · rcases List.mem_cons.1 h with rfl | h
        · exact .inr List.mem_cons_self
        · exact (mem_insertUp h).imp_right (List.mem_cons_of_mem m)

theorem mem_insertAll {x : Nat} {l : List Nat} (h : x ∈ insertAll l) : x ∈ l := by
  have all (a : List Nat) (hx : x ∈ l.foldl (fun a n => insertUp n a) a) : x ∈ a ∨ x ∈ l := by
    clear h
    induction l generalizing a with
    | nil => exact .inl hx
    | cons n l ih =>
      rcases ih _ hx with ha | hl
      · exact (mem_insertUp ha).elim (fun e => .inr (e ▸ List.mem_cons_self)) .inl
      · exact .inr (List.mem_cons_of_mem n hl)
  exact (all [] h).resolve_left List.not_mem_nil

/-- The pass walks active cells alone. -/
theorem State.cellActive_of_walk (h : c ∈ s.walkCells p) : s.cellActive p c = true := by
  unfold State.walkCells at h
  rcases List.mem_append.1 h with h | h
  · exact (List.mem_filter.1 h).2
  · exact (Bool.and_eq_true_iff.1 (List.mem_filter.1 (mem_insertAll h)).2).2

theorem State.cellActive_of_orphan {g : Nat} (h : (c, g) ∈ s.orphans p) : s.cellActive p c = true := by
  obtain ⟨i, hi, e⟩ := List.mem_map.1 h
  obtain rfl : i = c := congrArg Prod.fst e
  exact State.cellActive_of_walk (List.mem_filter.1 hi).1

theorem State.suspects_setSuspects (s : State) (p : Nat) (l : List (Nat × Nat)) : (s.setSuspects p l).suspects p = l := sget_sset_same ..

theorem State.cellTag_setSuspects (s : State) (p : Nat) (l : List (Nat × Nat)) (q i : Nat) : (s.setSuspects p l).cellTag q i = s.cellTag q i := rfl
theorem State.cellListed_setSuspects (s : State) (p : Nat) (l : List (Nat × Nat)) (q i : Nat) :
    (s.setSuspects p l).cellListed q i .free = s.cellListed q i .free := rfl

/-- The suspects stand in a word of their own. -/
theorem State.f_setSuspects_ne (s : State) (p : Nat) (l : List (Nat × Nat)) {x : Fld} (h : 0x100050 + 0x1000000 * p ≠ x.off) :
    (s.setSuspects p l).f x = s.f x := State.f_setF_ne _ _ _ _ (show 0 + 16 ≤ 32 by decide) (.inr (.inl h))

/-- Without suspects of the pass before, a pass confirms none. -/
theorem State.gleaned_none (h : s.suspects p = []) (orphans : List (Nat × Nat)) :
    s.gleaned p orphans = s.setSuspects p (orphans.take 4096) := by
  have all : orphans.filter (fun x => !([] : List (Nat × Nat)).contains x) = orphans := List.filter_eq_self.2 fun _ _ => rfl
  unfold State.gleaned
  rw [h, List.filter_nil]
  simp only [all]
  rfl

/-- A suspect that is an orphan still, with the same generation, is confirmed. -/
theorem State.gleaned_one {x : Nat × Nat} (h : s.suspects p = [x]) {orphans : List (Nat × Nat)} (hx : x ∈ orphans) :
    s.gleaned p orphans = (s.leak p x.1).setSuspects p ((orphans.filter (fun y => !([x].contains y))).take 4096) := by
  unfold State.gleaned
  rw [h, List.filter_cons_of_pos (by rwa [List.contains_iff_mem]), List.filter_nil]
  rfl

theorem State.deficit_setSuspects (s : State) (p : Nat) (l : List (Nat × Nat)) :
    (s.setSuspects p l).f (R.FAB_GLN_STATUS.DEFICIT p) = s.f (R.FAB_GLN_STATUS.DEFICIT p) :=
  State.f_setF_ne _ (R.FAB_GLN_STATUS.SUSPECTS p) (R.FAB_GLN_STATUS.DEFICIT p) _ (show 0 + 16 ≤ 32 by decide)
    (.inr (.inr (.inl (show 0 + 16 ≤ 16 by decide))))

theorem State.count_setSuspects (s : State) (p : Nat) {l : List (Nat × Nat)} (h : l.length < 65536) :
    (s.setSuspects p l).f (R.FAB_GLN_STATUS.SUSPECTS p) = l.length := State.f_setF_fit _ (show 0 + 16 ≤ 32 by decide) h

theorem State.deficit_deficitShown (h : s.gleanLost p < 65536) : (s.deficitShown p).f (R.FAB_GLN_STATUS.DEFICIT p) = s.gleanLost p := by
  rw [State.deficitShown, Nat.min_eq_left (by omega)]
  exact State.f_setF_fit _ (show 16 + 16 ≤ 32 by decide) h

/-- The deficit stands in another word than the window. -/
theorem State.window_deficitShown (s : State) (p : Nat) :
    (s.deficitShown p).f (R.FAB_GLN_WINDOW.CONFIRMED p) = s.f (R.FAB_GLN_WINDOW.CONFIRMED p) :=
  State.f_setF_ne _ _ _ _ (show 16 + 16 ≤ 32 by decide) (.inr (.inl (by simp only [R.FAB_GLN_STATUS.DEFICIT, R.FAB_GLN_WINDOW.CONFIRMED]; omega)))

end

end Sys2Proof.Machine
end

section
open Sys2Proof Sys2Proof.Machine

/-- Settles O41: a measurement by what it writes, the loop by VCORE's step, the gleaner by its judgement, its leaks and its
mismatches. -/
theorem speedAndGleaner : Obligations.SpeedAndGleaner := by
  unfold Obligations.SpeedAndGleaner
  refine ⟨fun s p k n h => ?_, fun s p k n h => congrArg Host.Outcome.next (if_neg h), fun s hen hm => ?_, fun s h => ?_, fun s p => ?_,
    fun s p clash => ⟨fun h => State.judge_none h clash, fun l h => State.judge_all h clash, fun cells h => ?_⟩, fun s el h =>
    ⟨fun hr => (State.rowFailed_eq h).trans (if_neg (by rw [show s.isRetired hcBank el = false from hr]; decide)),
      fun hr => (State.rowFailed_eq h).trans (if_pos hr)⟩, fun s p c => ?_, fun s p hj => ?_, fun s p tags un ls => rfl, fun s p => rfl⟩
  · obtain ⟨u, v, eq, fits, hfab, hregs⟩ := State.speedMeasure_active (p := p) h n.toNat
    refine ⟨_, congrArg Host.Outcome.next eq, ?_, fun hn => ?_, ?_, fun q j hqj => ?_⟩
    · exact congrArg (· != 0) (State.f_setF_fit _ (x := R.FAB_SPEED.VALID p k) (v := 1) (show 31 + 1 ≤ 32 by decide) (show 1 < 2 ^ 1 by decide))
    · obtain ⟨hv, small⟩ := fits hn
      refine (State.f_setF_ne _ _ _ _ (show 31 + 1 ≤ 32 by decide) (.inr (.inr (.inr (show 0 + 16 ≤ 31 by decide))))).trans ?_
      exact (State.f_setF_fit _ (show 0 + 16 ≤ 32 by decide) small).trans hv
    · rw [State.setF_fab, State.setF_fab, hfab]
    · have apart : 0x10 + 0x1000000 * p.val + 0x4 * k.val ≠ 0x10 + 0x1000000 * q.val + 0x4 * j.val := by omega
      refine (State.rd_setF_ne _ (R.FAB_SPEED.VALID p k) _ (.inr apart)).trans
        ((State.rd_setF_ne _ (R.FAB_SPEED.TOKEN_PS p k) _ (.inr apart)).trans ?_)
      exact congrArg (fun g : Regs => g.rd .fab (0x10 + 0x1000000 * q.val + 0x4 * j.val)) hregs
  · intro w top v tgt
    obtain ⟨x, mem, val, ⟨ps, plot, plane⟩, ⟨vcore, low, high, mv⟩, margins⟩ := State.vloop_spec hen hm
    obtain ⟨floor, ceil⟩ := vcoreCeil_bounds (s.f R.SYS_SPARE0.PHASE_ACTIVE)
    have below : vcoreStep v w tgt s.fab.lowRun top ≤ top := vcoreStep_le floor
    refine ⟨s.vloop, rfl, ps, vcore ▸ vcoreStep_ge, ?_, fun hv hvt => ?_, margins.1.1, margins.1.2, margins.2⟩
    · rw [plot, plane]
      exact (show x.2.2 = w from val) ▸ mem
    · rw [vcore]
      exact ⟨below, fun he => mv he (lt_of_le_of_lt below (by omega)), by rw [high, beq_iff_eq], by rw [low, beq_iff_eq],
        vcoreStep_raise hv hvt, vcoreStep_keep hv hvt, vcoreStep_lower hv hvt⟩
  · refine congrArg Host.Outcome.next (if_neg ?_)
    rcases h with h | h <;> simp [h]
  · exact congrArg Host.Outcome.next (s.gleanerPass_eq p)
  · intro u
    have judged := State.judge_all (s := s) (p := p) (l := [cells]) h clash
    exact ⟨fun hn => judged.trans (State.judgeOne_none hn), fun c hc => judged.trans (State.judgeOne_one hc)⟩
  · intro t n
    obtain ⟨hflag, htotal, howner, hlisted⟩ := s.leak_spec p c
    exact ⟨hflag, htotal, howner, hlisted, fun h => State.leak_few_spec h, fun h => State.leak_many_spec h⟩
  · intro lost walk clash orphans
    have pass := s.gleanerPass_eq p
    rw [State.judge_none (s := s.deficitShown p) hj] at pass
    have run {t : State} (ht : s.gleanerPass p [] = t) : exec (.gleanerPass p [] [] []) s = .next t := congrArg Host.Outcome.next ht
    refine ⟨fun hc hl ho hs => ?_, fun c g hc hl hs ho hn => ?_, fun hc hs _ hp => ?_, fun hl hs _ hp => ?_⟩
    · rw [if_pos ⟨hc, hl⟩, State.gleaned_none (s := s.deficitShown p) hs, List.take_of_length_le (show (s.orphans p).length ≤ 4096 from ho)] at pass
      refine ⟨_, run pass, State.suspects_setSuspects .., ?_, State.count_setSuspects _ _ (show orphans.length < 65536 by omega), rfl, fun i => rfl⟩
      exact (State.deficit_setSuspects ..).trans (State.deficit_deficitShown (lt_of_le_of_lt hl (by decide)))
    · rw [if_pos ⟨hc, hl⟩, State.gleaned_one (s := s.deficitShown p) hs (show (c, g) ∈ s.orphans p from ho)] at pass
      have window := s.window_deficitShown p
      obtain ⟨hflag, -, howner, hlisted⟩ := (s.deficitShown p).leak_spec p c
      obtain ⟨hcount, -⟩ := State.leak_few_spec (s := s.deficitShown p) (p := p) (c := c) (by omega)
      have active : s.cellActive p c = true := State.cellActive_of_orphan ho
      refine ⟨_, run pass, ?_, ?_, ?_, ?_, ?_⟩
      · refine (congrArg (· != 0) (State.f_setSuspects_ne _ _ _ ?_)).trans hflag
        simp only [E.FAB_BUF_EVT.LEAK]
        omega
      · rw [State.cellTag_setSuspects]
        exact howner
      · rw [State.cellListed_setSuspects]
        exact hlisted active
      · rw [State.suspects_setSuspects]
        intro hm
        simpa using (List.mem_filter.1 (List.mem_of_mem_take hm)).2
      · refine (State.f_setSuspects_ne _ _ _ ?_).trans (hcount.trans (by rw [window]))
        simp only [R.FAB_GLN_WINDOW.CONFIRMED]
        omega
    · rw [if_neg fun h => hc h.1, State.gleaned_none (s := s.deficitShown p) hs] at pass
      obtain ⟨hflag, hunder, hoffered⟩ := State.mismatch_spec (p := p) ((s.deficitShown p).setSuspects p (orphans.take 4096))
        (clash := clash) (deficit := decide (0x7FFF < lost)) (.inl hc) hp
      refine ⟨_, run pass, hflag, hunder, fun c hcl => ?_⟩
      exact hoffered ▸ State.mismatches_cell _ hcl _
    · rw [if_neg fun h => h.2.not_gt hl, State.gleaned_none (s := s.deficitShown p) hs, decide_eq_true (show 0x7FFF < s.gleanLost p from hl)] at pass
      obtain ⟨hflag, hunder, hoffered⟩ := State.mismatch_spec (p := p) ((s.deficitShown p).setSuspects p (orphans.take 4096))
        (clash := clash) (deficit := true) (.inr rfl) hp
      obtain ⟨w, hw⟩ := ((s.deficitShown p).setSuspects p (orphans.take 4096)).mismatches_deficit p clash
      exact ⟨_, w, run pass, hflag, hunder, hoffered ▸ hw⟩

end

section
/-! SUPPORT. A frame crosses (R205–R208, R213, R320): the number of each of its crossings, and the release of its cells. -/
namespace Sys2Proof.Machine
open Sys2Proof

/-! ## The release of a stored frame -/

theorem State.acctRelease_fab (s : State) (p a n : Nat) : (s.acctRelease p a n).fab = s.fab :=
  keeps_ite (g := (·.fab)) ((State.setF_fab ..).trans (State.setF_fab ..)) (State.setF_fab ..)

/-- An account's use stands at 8 in the 16 bytes of its registers. -/
theorem State.f_acctRelease_ne (s : State) (p a n : Nat) {x : Fld} (h : x.blk ≠ .fab ∨ x.off % 16 ≠ 8) :
    (s.acctRelease p a n).f x = s.f x := by
  have used (lsb w : Nat) (t : State) (v : Nat) : (t.setF ⟨.fab, 0x101008 + 0x1000000 * p + 0x10 * a, lsb, w⟩ v).f x = t.f x :=
    congrArg (getBits · x.lsb x.width) (t.rd_setF_ne _ v (h.imp Ne.symm fun ho he => by
      have : (0x101008 + 0x1000000 * p + 0x10 * a) % 16 = 8 := by omega
      exact ho (he ▸ this)))
  exact keeps_ite (g := (·.f x)) ((used 31 1 ..).trans (used 0 17 ..)) (used 0 17 ..)

/-- What the cells, the accounts and the stored frames do not touch stays when a frame is released. -/
theorem State.frameFree_keeps {β : Type} {g : State → β} (hoff : ∀ u : State, g u.offCells = g u)
    (hacct : ∀ (s : State) p a n, g (s.acctRelease p a n) = g s) (hframe : ∀ (s : State) i x, g (s.setFrame i x) = g s)
    (s : State) (fid : Nat) : g (s.frameFree fid) = g s := by
  unfold State.frameFree
  split
  · rfl
  · refine keeps_ite ?_ rfl
    exact (State.keeps_of_offCells (State.offCells_cellsFree ..) g hoff).trans ((hframe ..).trans (hacct ..))

/-- What of the fabric the release of a frame leaves alone. -/
theorem State.frameFree_fab {β : Type} (g : Fab → β) (hoff : ∀ u : State, g u.offCells.fab = g u.fab)
    (hframe : ∀ (s : State) i x, g (s.setFrame i x).fab = g s.fab) (s : State) (fid : Nat) : g (s.frameFree fid).fab = g s.fab :=
  State.frameFree_keeps (g := fun s => g s.fab) hoff (fun s p a n => congrArg g (s.acctRelease_fab p a n)) hframe s fid

/-! ## The crossings of a frame -/

section
variable (x : VoqPart) (f : FabFrame) (k : Nat)

/-- The crossing of a part to one of its destinations, under the next number of the stream. -/
def State.crossing (s : State) (d : (Nat × List Nat) × Nat) : Crossing :=
  ⟨x.fid, x.plot, d.1.1, x.cls, s.nextSeqOf (streamOf x.plot d.1.1 x.cls), k, tokensFor f.fr.len, d.1.2, x.multi, x.sown, d.2 == 0, false, f⟩

/-- The part leaves for one of its destinations. -/
def State.crossTo (d : (Nat × List Nat) × Nat) (s : State) : State :=
  s.modFab fun b => { b with
    flight := b.flight ++ [s.crossing x f k d]
    nextSeq := sset natZero' b.nextSeq (streamOf x.plot d.1.1 x.cls) ((s.nextSeqOf (streamOf x.plot d.1.1 x.cls) + 1) % 65536) }

/-- A credit key's turn has been the part's plot's. -/
def State.grantTo (key : Nat) (s : State) : State := s.modFab fun b => { b with granted := sset natZero' b.granted key x.plot }

theorem State.crossPart_eq (s : State) : s.crossPart x f k =
    foldS (if x.multi then x.dests.map (fun d => replKey d.1) else [x.voq]) (State.grantTo x)
      (foldS (x.dests.zipIdx 0) (State.crossTo x f k) (s.modFab fun b => { b with waiting := b.waiting.erase x })) := rfl

variable {x f k}

theorem State.nextSeq_crossTo (s : State) (d : (Nat × List Nat) × Nat) (j : Nat) : (s.crossTo x f k d).nextSeqOf j =
    if j = streamOf x.plot d.1.1 x.cls then (s.nextSeqOf j + 1) % 65536 else s.nextSeqOf j := by
  refine (sget_sset ..).trans ?_
  split
  next h => rw [h]
  next => rfl

theorem streamOf_inj {p c a b : Nat} (h : streamOf p a c = streamOf p b c) : a = b := by
  unfold streamOf at h
  omega

/-- The crossings to different plots: each in flight in turn, under the next number of its stream, which advances. -/
theorem State.foldS_crossTo : ∀ (l : List ((Nat × List Nat) × Nat)) (s : State), (l.map (·.1.1)).Nodup →
    (foldS l (State.crossTo x f k) s).fab.flight = s.fab.flight ++ l.map (s.crossing x f k) ∧
      (∀ y ∈ l, (foldS l (State.crossTo x f k) s).nextSeqOf (streamOf x.plot y.1.1 x.cls) =
        (s.nextSeqOf (streamOf x.plot y.1.1 x.cls) + 1) % 65536) ∧
      ∀ j, (∀ y ∈ l, streamOf x.plot y.1.1 x.cls ≠ j) → (foldS l (State.crossTo x f k) s).nextSeqOf j = s.nextSeqOf j
  | [], s, _ => ⟨(List.append_nil _).symm, nofun, fun _ _ => rfl⟩
  | d :: l, s, h => by
    obtain ⟨hd, hl⟩ := List.nodup_cons.1 h
    have apart (y) (hy : y ∈ l) : streamOf x.plot y.1.1 x.cls ≠ streamOf x.plot d.1.1 x.cls :=
      fun e => hd (List.mem_map.2 ⟨y, hy, streamOf_inj e⟩)
    have other (y) (hy : y ∈ l) : (s.crossTo x f k d).nextSeqOf (streamOf x.plot y.1.1 x.cls) = s.nextSeqOf (streamOf x.plot y.1.1 x.cls) :=
      (s.nextSeq_crossTo d _).trans (if_neg (apart y hy))
    obtain ⟨flight, seqs, rest⟩ := foldS_crossTo l (s.crossTo x f k d) hl
    refine ⟨?_, fun y hy => ?_, fun j hj => ?_⟩
    · have same : l.map ((s.crossTo x f k d).crossing x f k) = l.map (s.crossing x f k) :=
        List.map_congr_left fun y hy => by rw [State.crossing, other y hy, State.crossing]
      refine flight.trans ?_
      rw [same, List.map_cons]
      exact List.append_assoc s.fab.flight [s.crossing x f k d] _
    · rcases List.mem_cons.1 hy with rfl | hy
      · exact (rest _ apart).trans ((s.nextSeq_crossTo y _).trans (if_pos rfl))
      · rw [show foldS (d :: l) (State.crossTo x f k) s = foldS l (State.crossTo x f k) (s.crossTo x f k d) from rfl, seqs y hy, other y hy]
    · exact (rest j fun y hy => hj y (List.mem_cons_of_mem d hy)).trans
        ((s.nextSeq_crossTo d j).trans (if_neg (Ne.symm (hj d List.mem_cons_self))))

/-- What a part's way across leaves: nothing of it waits, its crossings are in flight, and its streams have advanced. -/
theorem State.crossPart_spec (s : State) (h : (x.dests.map (·.1)).Nodup) :
    (s.crossPart x f k).fab.waiting = s.fab.waiting.erase x ∧
      (s.crossPart x f k).fab.flight = s.fab.flight ++ (x.dests.zipIdx 0).map (s.crossing x f k) ∧
      (∀ y ∈ x.dests, (s.crossPart x f k).nextSeqOf (streamOf x.plot y.1 x.cls) = (s.nextSeqOf (streamOf x.plot y.1 x.cls) + 1) % 65536) ∧
      (s.crossPart x f k).fab.drr = s.fab.drr := by
  have plots : ((x.dests.zipIdx 0).map (·.1.1)).Nodup := by
    rw [← List.zipIdx_map_fst 0 x.dests, List.map_map] at h
    exact h
  obtain ⟨flight, seqs, -⟩ := State.foldS_crossTo (x := x) (f := f) (k := k) (x.dests.zipIdx 0)
    (s.modFab fun b => { b with waiting := b.waiting.erase x }) plots
  have granted {β : Type} (g : State → β) (hg : ∀ key t, g (State.grantTo x key t) = g t) (l : List Nat) (t : State) :
      g (foldS l (State.grantTo x) t) = g t := foldS_keeps g _ hg l t
  have crossed {β : Type} (g : State → β) (hg : ∀ d t, g (State.crossTo x f k d t) = g t) (t : State) :
      g (foldS (x.dests.zipIdx 0) (State.crossTo x f k) t) = g t := foldS_keeps g _ hg _ t
  rw [State.crossPart_eq]
  refine ⟨?_, ?_, fun y hy => ?_, ?_⟩
  · exact (granted (·.fab.waiting) (fun _ _ => rfl) ..).trans (crossed (·.fab.waiting) (fun _ _ => rfl) _)
  · exact (granted (·.fab.flight) (fun _ _ => rfl) ..).trans flight
  · rw [granted (·.nextSeqOf (streamOf x.plot y.1 x.cls)) fun _ _ => rfl]
    obtain ⟨z, hz, rfl⟩ := List.mem_map.1 ((List.zipIdx_map_fst 0 x.dests).symm ▸ hy)
    exact seqs z hz
  · exact (granted (·.fab.drr) (fun _ _ => rfl) ..).trans (crossed (·.fab.drr) (fun _ _ => rfl) _)

end

/-! ## The choice -/

section
variable {s : State} {p k c : Nat} {d : Drr} {x : VoqPart} {f : FabFrame}

/-- The round robin and the rotation have advanced past a part that is served. -/
def State.served (s : State) (p c : Nat) (d : Drr) (x : VoqPart) : State :=
  (s.setDrr p d).modFab fun b => { b with turn := sset natZero' b.turn (8 * p + c) x.voq }

/-- The lengths of the heads among which a plot chooses. -/
def State.partHeads (s : State) (p c : Nat) : Option Nat := (s.classHead p c).map s.partLen

theorem State.frameCross_chosen (hk : s.choosePlane p = some k) (hc : s.pickClass p p (s.partHeads p) = some (c, d))
    (hx : s.classHead p c = some x) (hf : s.fabFrame x.fid = some f) : s.frameCross p =
      if f.cellErr && !f.ct then (((s.served p c d x).modFab fun b => { b with waiting := b.waiting.filter (·.fid != x.fid) }).count
        (R.FAB_CNT_FCS_ERR.COUNT p)).frameFree x.fid
      else ((s.served p c d x).crossPart x (if f.cellErr then { f with fr := { f.fr with badFcs := true } } else f) k).regionsFit := by
  unfold State.partHeads at hc
  unfold State.frameCross
  simp only [hk, hc, hx, hf]
  rfl

theorem State.frameCross_none (h : s.choosePlane p = none ∨ s.pickClass p p (s.partHeads p) = none) : s.frameCross p = s := by
  unfold State.partHeads at h
  unfold State.frameCross
  rcases h with h | h
  · simp only [h]
  · simp only [h]
    cases s.choosePlane p with
    | none => rfl
    | some k => rfl

theorem State.drrOf_served : (s.served p c d x).drrOf p = d := sget_sset_same ..

/-- A stored frame with an uncorrectable cell is dropped as it is read out, and counted. -/
theorem State.frameCross_spoilt (hk : s.choosePlane p = some k) (hc : s.pickClass p p (s.partHeads p) = some (c, d))
    (hx : s.classHead p c = some x) (hf : s.fabFrame x.fid = some f) (he : f.cellErr = true) (ht : f.ct = false) :
    (s.frameCross p).fab.flight = s.fab.flight ∧ (s.frameCross p).fab.waiting = s.fab.waiting.filter (fun y => y.fid != x.fid) ∧
      (s.frameCross p).f (R.FAB_CNT_FCS_ERR.COUNT p) = satInc 0xFFFFFFFF (s.f (R.FAB_CNT_FCS_ERR.COUNT p)) := by
  rw [State.frameCross_chosen hk hc hx hf, if_pos (by rw [he, ht]; rfl)]
  refine ⟨?_, ?_, ?_⟩
  · rw [State.frameFree_fab (·.flight) (fun _ => rfl) fun _ _ _ => rfl, State.count_fab]
    rfl
  · rw [State.frameFree_fab (·.waiting) (fun _ => rfl) fun _ _ _ => rfl, State.count_fab]
    rfl
  · refine (State.frameFree_keeps (g := (·.f (R.FAB_CNT_FCS_ERR.COUNT p))) (fun _ => rfl) (fun t q a n => t.f_acctRelease_ne q a n (.inr ?_))
      (fun _ _ _ => rfl) ..).trans (State.f_count_same _ (show 0 + 32 ≤ 32 by decide) rfl)
    simp only [R.FAB_CNT_FCS_ERR.COUNT]
    omega

end

end Sys2Proof.Machine
end

section
/-! SUPPORT. A frame arrives (R213, R214, R244–R248): its stream's order, its targets' transmit lists, and the replication list. -/
namespace Sys2Proof.Machine
open Sys2Proof

section
variable {s : State}

/-! ## Transmit lists and the residue -/

/-- Whether an entry waits behind an older one of its stream for the same port. -/
def State.waitsBehind (s : State) (e : TxEntry) : Bool :=
  s.fab.residue.any (fun x => x.node == e.node && x.src == e.src && x.cls == e.cls)

theorem State.waitsBehind_nil (h : s.fab.residue = []) (e : TxEntry) : s.waitsBehind e = false := by
  rw [State.waitsBehind, h]
  rfl

theorem State.txAppend_sent {e : TxEntry} (h : s.waitsBehind e = false ∨ e.frame.cal.isSome = true) :
    s.txAppend e = s.modFab fun b => { b with tx := b.tx ++ [e] } := by
  refine if_neg ?_
  rcases h with h | h
  · rw [show s.fab.residue.any _ = false from h, Bool.and_false]
    decide
  · rw [Option.isNone_eq_false_iff.2 h, Bool.false_and]
    decide

theorem State.txAppend_waits {e : TxEntry} (h : s.waitsBehind e = true) (hc : e.frame.cal = none) :
    s.txAppend e = s.modFab fun b => { b with residue := b.residue ++ [{ e with real := false }] } :=
  if_pos (by rw [show s.fab.residue.any _ = true from h, hc]; rfl)

theorem State.drill_sent {e : TxEntry} (h : e.frame.cal.isSome = true ∨ (s.txReady e.node e.cls = true ∧ s.waitsBehind e = false)) :
    s.drill e = s.modFab fun b => { b with tx := b.tx ++ [e] } := by
  refine if_pos ?_
  rcases h with h | ⟨hr, hw⟩
  · rw [h, Bool.true_or]
  · rw [hr, show s.fab.residue.any _ = false from hw]
    exact Bool.or_true _

theorem State.drill_waits {e : TxEntry} (hc : e.frame.cal = none) (h : s.txReady e.node e.cls = false ∨ s.waitsBehind e = true) :
    s.drill e = if s.residueCount (plotOf e.node) < residueCap then
      s.modFab fun b => { b with residue := b.residue ++ [{ e with real := true }] } else s.residueDropped (plotOf e.node) := by
  refine if_neg ?_
  rcases h with h | h
  · rw [hc, h]
    exact Bool.false_ne_true
  · rw [hc, show s.fab.residue.any _ = true from h, Bool.not_true, Bool.and_false]
    decide

/-- Without a residue, entries are appended in turn. -/
theorem State.foldS_append {g : Nat → State → State} {at_ : Nat → TxEntry} :
    ∀ (l : List Nat) (s : State), s.fab.residue = [] → (∀ (n : Nat) (t : State), t.fab.residue = [] →
      g n t = t.modFab fun b => { b with tx := b.tx ++ [at_ n] }) →
      (foldS l g s).fab.tx = s.fab.tx ++ l.map at_
  | [], s, _, _ => (List.append_nil _).symm
  | n :: l, s, hs, hg => by
    have step := hg n s hs
    refine (foldS_append l (g n s) (by rw [step]; exact hs) hg).trans ?_
    rw [step, List.map_cons]
    exact List.append_assoc s.fab.tx [at_ n] _

/-! ## A frame at its turn -/

section
variable {x : Crossing}

theorem State.release_dead (h : x.dead = true) : s.release x = s := if_pos h

theorem State.release_unicast (hd : x.dead = false) (hm : x.multi = false) :
    s.release x = foldS x.targets (fun n s => s.txAppend (x.at n)) s :=
  (if_neg (by rw [hd]; decide)).trans (if_pos (by rw [hm]; rfl))

theorem State.release_sown (hd : x.dead = false) (hm : x.multi = true) (hs : x.sown = true) (hc : x.frame.cal = none) :
    s.release x = foldS (x.targets.filter (fun n => 256 ≤ n || s.portUp n)) (fun n s => s.txAppend (x.at n)) s :=
  (if_neg (by rw [hd]; decide)).trans ((if_neg (by rw [hm]; decide)).trans (if_pos (by rw [hs, hc]; rfl)))

theorem State.release_drilled (hd : x.dead = false) (hm : x.multi = true) (hs : x.sown = false ∨ x.frame.cal.isSome = true) :
    s.release x = foldS x.targets (fun n s => s.drill (x.at n)) s := by
  refine (if_neg (by rw [hd]; decide)).trans ((if_neg (by rw [hm]; decide)).trans (if_neg ?_))
  rcases hs with hs | hs
  · rw [hs]
    exact Bool.false_ne_true
  · rw [Option.isNone_eq_false_iff.2 hs, Bool.and_false]
    decide

/-- A release writes transmit lists, the residue and the event of a dropped entry. -/
theorem State.release_keeps {β : Type} {g : State → β} (hfab : ∀ (s : State) (f : Fab → Fab), (∀ b, (f b).held = b.held ∧
    (f b).flight = b.flight ∧ (f b).expect = b.expect) → g (s.modFab f) = g s)
    (hdrop : ∀ (s : State) p, g (s.residueDropped p) = g s) (s : State) (x : Crossing) : g (s.release x) = g s := by
  have append (n : Nat) (t : State) : g (t.txAppend (x.at n)) = g t :=
    keeps_ite (hfab _ _ fun _ => ⟨rfl, rfl, rfl⟩) (hfab _ _ fun _ => ⟨rfl, rfl, rfl⟩)
  have drill (n : Nat) (t : State) : g (t.drill (x.at n)) = g t :=
    keeps_ite (hfab _ _ fun _ => ⟨rfl, rfl, rfl⟩) (keeps_ite (hfab _ _ fun _ => ⟨rfl, rfl, rfl⟩) (hdrop ..))
  exact keeps_ite rfl (keeps_ite (foldS_keeps g _ append _ _)
    (keeps_ite (foldS_keeps g _ append _ _) (foldS_keeps g _ drill _ _)))

theorem State.residueDropped_fab (s : State) (p : Nat) : (s.residueDropped p).fab = s.fab :=
  (State.count_fab ..).trans (State.raise_fab ..)

/-- A release leaves the frames in flight, the held ones and the expected numbers. -/
theorem State.release_order (s : State) (x : Crossing) : (s.release x).fab.held = s.fab.held ∧
    (s.release x).fab.flight = s.fab.flight ∧ (s.release x).fab.expect = s.fab.expect :=
  ⟨State.release_keeps (g := (·.fab.held)) (fun s _ hf => (hf s.fab).1) (fun s p => congrArg Fab.held (s.residueDropped_fab p)) s x,
    State.release_keeps (g := (·.fab.flight)) (fun s _ hf => (hf s.fab).2.1) (fun s p => congrArg Fab.flight (s.residueDropped_fab p)) s x,
    State.release_keeps (g := (·.fab.expect)) (fun s _ hf => (hf s.fab).2.2) (fun s p => congrArg Fab.expect (s.residueDropped_fab p)) s x⟩

theorem State.canRelease_iff : s.canRelease x = true ↔ x.sown = false ∨ x.dead = true ∨ x.frame.cal.isSome = true ∨
    ∀ n ∈ x.targets, (n < 256 ∧ s.portUp n = false) ∨ s.txReady n x.cls = true := by
  simp only [State.canRelease, State.sownReady, Bool.or_eq_true, Bool.not_eq_true', List.all_eq_true, Bool.and_eq_true,
    decide_eq_true_eq, or_assoc]

end

/-! ## The order of a stream -/

section
variable {p e c q : Nat} {x : Crossing}

theorem State.drain_none (h : s.heldAtSeq p e c (s.expectOf (streamOf p e c)) = none) : ∀ n, State.drain p e c n s = s
  | 0 => rfl
  | n + 1 => by rw [State.drain, h]

theorem State.drain_waits (h : s.heldAtSeq p e c (s.expectOf (streamOf p e c)) = some x) (hr : s.canRelease x = false) :
    ∀ n, State.drain p e c n s = s
  | 0 => rfl
  | n + 1 => by
    rw [State.drain, h]
    exact if_neg (by rw [hr]; decide)

theorem State.drain_released (h : s.heldAtSeq p e c (s.expectOf (streamOf p e c)) = some x) (hr : s.canRelease x = true) (n : Nat) :
    State.drain p e c (n + 1) s = State.drain p e c n
      (((s.modFab fun b => { b with held := b.held.erase x }).release x).setExpect (streamOf p e c) (x.seq + 1)) := by
  rw [State.drain, h]
  exact if_pos hr

/-- Whether a number is an old one of its stream (R213). -/
def State.oldSeq (s : State) (p e c q : Nat) : Bool :=
  decide (32768 ≤ (q + 65536 - s.expectOf (streamOf p e c)) % 65536) || (s.heldAtSeq p e c q).isSome

theorem State.oldSeq_new (h : (q + 65536 - s.expectOf (streamOf p e c)) % 65536 < 32768) (hn : s.heldAtSeq p e c q = none) :
    s.oldSeq p e c q = false := by
  rw [State.oldSeq, hn, decide_eq_false h.not_ge]
  rfl

theorem State.oldSeq_old (h : 32768 ≤ (q + 65536 - s.expectOf (streamOf p e c)) % 65536 ∨ (s.heldAtSeq p e c q).isSome = true) :
    s.oldSeq p e c q = true := Bool.or_eq_true_iff.2 (h.imp_left decide_eq_true)

/-- The crossing of a number that is in flight. -/
def State.inFlight (s : State) (p e c q : Nat) : Option Crossing :=
  s.fab.flight.find? (fun x => x.src == p && x.dst == e && x.cls == c && x.seq == q)

/-- A frame has arrived whole: it is in flight no more, and its cells are free. -/
def State.arrived (s : State) (x : Crossing) : State :=
  ((s.modFab fun b => { b with flight := b.flight.erase x }).passLead x).frameFree x.fid

/-- A frame is held for its turn. -/
def State.keepBack (s : State) (x : Crossing) : State := s.modFab fun b => { b with held := b.held ++ [x] }

theorem State.reassemble_none (h : s.inFlight p e c q = none) :
    s.reassemble p e c q = if s.oldSeq p e c q then s.raise (E.FAB_EVT.SEQ_OLD e) else s := by
  unfold State.inFlight at h
  unfold State.reassemble State.oldSeq
  simp only [h, Bool.or_eq_true, decide_eq_true_eq]

theorem State.reassemble_some (h : s.inFlight p e c q = some x) : s.reassemble p e c q =
    if s.oldSeq p e c q then (s.arrived x).raise (E.FAB_EVT.SEQ_OLD e) else ((s.arrived x).keepBack x).drainAll p e c := by
  unfold State.inFlight at h
  unfold State.reassemble State.oldSeq
  simp only [h, Bool.or_eq_true, decide_eq_true_eq]
  rfl

theorem State.passLead_keeps {β : Type} {g : State → β} (h : ∀ (s : State) l, g (s.modFab fun b => { b with flight := l }) = g s)
    (s : State) (x : Crossing) : g (s.passLead x) = g s := by
  unfold State.passLead
  split
  · split
    · exact h s _
    · rfl
  · rfl

theorem State.passLead_drilled (h : x.sown = false) : s.passLead x = s := if_neg (by rw [h, Bool.and_false]; decide)

/-- An arrival leaves the frames held for their turn, the expected numbers, the transmit lists and the residue. -/
theorem State.arrived_keeps {β : Type} (g : Fab → β) (hoff : ∀ u : State, g u.offCells.fab = g u.fab)
    (hframe : ∀ (s : State) i x, g (s.setFrame i x).fab = g s.fab) (hflight : ∀ (b : Fab) l, g { b with flight := l } = g b)
    (s : State) (x : Crossing) : g (s.arrived x).fab = g s.fab :=
  (State.frameFree_fab g hoff hframe ..).trans
    ((State.passLead_keeps (g := fun t => g t.fab) (fun t l => hflight t.fab l) ..).trans (hflight ..))

theorem State.held_arrived (s : State) (x : Crossing) : (s.arrived x).fab.held = s.fab.held :=
  State.arrived_keeps Fab.held (fun _ => rfl) (fun _ _ _ => rfl) (fun _ _ => rfl) s x
theorem State.expect_arrived (s : State) (x : Crossing) : (s.arrived x).fab.expect = s.fab.expect :=
  State.arrived_keeps Fab.expect (fun _ => rfl) (fun _ _ _ => rfl) (fun _ _ => rfl) s x
theorem State.tx_arrived (s : State) (x : Crossing) : (s.arrived x).fab.tx = s.fab.tx :=
  State.arrived_keeps Fab.tx (fun _ => rfl) (fun _ _ _ => rfl) (fun _ _ => rfl) s x
theorem State.residue_arrived (s : State) (x : Crossing) : (s.arrived x).fab.residue = s.fab.residue :=
  State.arrived_keeps Fab.residue (fun _ => rfl) (fun _ _ _ => rfl) (fun _ _ => rfl) s x

theorem State.flight_arrived (h : x.sown = false) : (s.arrived x).fab.flight = s.fab.flight.erase x := by
  rw [State.arrived, State.passLead_drilled h]
  exact State.frameFree_fab Fab.flight (fun _ => rfl) (fun _ _ _ => rfl) ..

/-- The crossing of a number stands in the stream. -/
theorem State.key_inFlight (h : s.inFlight p e c q = some x) : x.src = p ∧ x.dst = e ∧ x.cls = c ∧ x.seq = q := by
  simpa [and_assoc] using List.find?_some h

/-- No frame of a stream is held. -/
def State.noneHeld (s : State) (p e c : Nat) : Prop := ∀ y ∈ s.fab.held, ¬ (y.src = p ∧ y.dst = e ∧ y.cls = c)

theorem State.heldAtSeq_none (h : s.noneHeld p e c) (q : Nat) : s.heldAtSeq p e c q = none :=
  List.find?_eq_none.2 fun y hy hk => h y hy (by
    simp only [Bool.and_eq_true, beq_iff_eq] at hk
    exact and_assoc.1 hk.1)

theorem State.heldAtSeq_keepBack (s : State) (x : Crossing) (q : Nat) : (s.keepBack x).heldAtSeq p e c q =
    (s.heldAtSeq p e c q).or (if x.src = p ∧ x.dst = e ∧ x.cls = c ∧ x.seq = q then some x else none) := by
  refine List.find?_append.trans (congrArg (Option.or _) ?_)
  rw [List.find?_singleton]
  simp only [Bool.and_eq_true, beq_iff_eq, and_assoc]

theorem State.expectOf_keepBack (s : State) (x : Crossing) (k : Nat) : (s.keepBack x).expectOf k = s.expectOf k := rfl

/-- A frame that is held and taken again leaves the list as it was. -/
theorem State.keepBack_taken (h : x ∉ s.fab.held) : (s.keepBack x).modFab (fun b => { b with held := b.held.erase x }) = s := by
  have list : (s.fab.held ++ [x]).erase x = s.fab.held := by
    rw [List.erase_append_right _ h, List.erase_cons_head, List.append_nil]
  show { s with fab := { s.fab with held := (s.fab.held ++ [x]).erase x } } = s
  rw [list]

/-- A frame that arrives alone at its turn is released when it can be, and held else. -/
theorem State.drainAll_alone (hx : x.src = p ∧ x.dst = e ∧ x.cls = c) (ht : x.seq = s.expectOf (streamOf p e c)) (h : s.noneHeld p e c) :
    (s.canRelease x = true → (s.keepBack x).drainAll p e c = (s.release x).setExpect (streamOf p e c) (x.seq + 1)) ∧
      (s.canRelease x = false → (s.keepBack x).drainAll p e c = s.keepBack x) := by
  have turn : (s.keepBack x).heldAtSeq p e c ((s.keepBack x).expectOf (streamOf p e c)) = some x := by
    refine (s.heldAtSeq_keepBack x _).trans ?_
    rw [State.heldAtSeq_none h, if_pos ⟨hx.1, hx.2.1, hx.2.2, ht⟩]
    rfl
  refine ⟨fun hr => ?_, fun hr => State.drain_waits turn hr _⟩
  have mem : x ∉ s.fab.held := fun hm => h x hm hx
  refine (State.drain_released turn hr _).trans ?_
  rw [State.keepBack_taken mem]
  refine State.drain_none (State.heldAtSeq_none ?_ _) _
  intro y hy
  exact h y ((s.release_order x).1 ▸ hy)

/-- A frame ahead of its turn is held. -/
theorem State.drainAll_ahead (h : s.heldAtSeq p e c (s.expectOf (streamOf p e c)) = none) (hx : x.seq ≠ s.expectOf (streamOf p e c)) :
    (s.keepBack x).drainAll p e c = s.keepBack x := by
  refine State.drain_none ?_ _
  refine (s.heldAtSeq_keepBack x _).trans ?_
  rw [State.expectOf_keepBack, h, if_neg fun k => hx k.2.2.2]
  rfl

theorem State.expectOf_arrived (s : State) (x : Crossing) (k : Nat) : (s.arrived x).expectOf k = s.expectOf k :=
  congrArg (sget natZero' · k) (s.expect_arrived x)

theorem State.heldAtSeq_arrived (s : State) (x : Crossing) (q : Nat) : (s.arrived x).heldAtSeq p e c q = s.heldAtSeq p e c q :=
  congrArg (List.find? _) (s.held_arrived x)

/-- A frame with the expected number, of a stream of which none is held, is released when it can be, and held else. -/
theorem State.reassemble_turn (hfl : s.inFlight p e c q = some x) (ht : q = s.expectOf (streamOf p e c)) (h : s.noneHeld p e c) :
    ((s.arrived x).canRelease x = true → s.reassemble p e c q = ((s.arrived x).release x).setExpect (streamOf p e c) (x.seq + 1)) ∧
      ((s.arrived x).canRelease x = false → s.reassemble p e c q = (s.arrived x).keepBack x) := by
  obtain ⟨hsrc, hdst, hcls, hseq⟩ := State.key_inFlight hfl
  have new : s.oldSeq p e c q = false := by
    refine State.oldSeq_new ?_ (State.heldAtSeq_none h _)
    rw [← ht, Nat.add_sub_cancel_left]
    decide
  have noneHeld : (s.arrived x).noneHeld p e c := fun y hy => h y ((s.held_arrived x) ▸ hy)
  have turn : x.seq = (s.arrived x).expectOf (streamOf p e c) := by rw [s.expectOf_arrived, hseq, ht]
  have eq : s.reassemble p e c q = ((s.arrived x).keepBack x).drainAll p e c :=
    (State.reassemble_some hfl).trans (if_neg (by rw [new]; decide))
  rw [eq]
  exact State.drainAll_alone ⟨hsrc, hdst, hcls⟩ turn noneHeld

/-- A frame ahead of the expected number, which is not held, is held. -/
theorem State.reassemble_ahead (hfl : s.inFlight p e c q = some x) (h0 : 0 < (q + 65536 - s.expectOf (streamOf p e c)) % 65536)
    (h1 : (q + 65536 - s.expectOf (streamOf p e c)) % 65536 < 32768) (hn : s.heldAtSeq p e c q = none)
    (hw : s.heldAtSeq p e c (s.expectOf (streamOf p e c)) = none) : s.reassemble p e c q = (s.arrived x).keepBack x := by
  obtain ⟨-, -, -, hseq⟩ := State.key_inFlight hfl
  refine ((State.reassemble_some hfl).trans (if_neg (by rw [State.oldSeq_new h1 hn]; decide))).trans (State.drainAll_ahead ?_ ?_)
  · rw [s.expectOf_arrived, s.heldAtSeq_arrived, hw]
  · rw [s.expectOf_arrived, hseq]
    omega

/-- An old number is discarded. -/
theorem State.reassemble_old (hfl : s.inFlight p e c q = some x)
    (h : 32768 ≤ (q + 65536 - s.expectOf (streamOf p e c)) % 65536 ∨ (s.heldAtSeq p e c q).isSome = true) :
    s.reassemble p e c q = (s.arrived x).raise (E.FAB_EVT.SEQ_OLD e) :=
  (State.reassemble_some hfl).trans (if_pos (State.oldSeq_old h))

/-! ## A missing number (R214) -/

theorem State.seqGap_skips (h : s.heldAtSeq p e c (s.expectOf (streamOf p e c)) = none)
    (hw : s.fab.held.any (fun x => x.src == p && x.dst == e && x.cls == c) = true) : s.seqGap p e c =
      ((s.setExpect (streamOf p e c) (s.expectOf (streamOf p e c) + 1)).raise (E.FAB_EVT.SEQ_SKIP e)).drainAll p e c :=
  if_pos (by rw [h, hw]; rfl)

theorem State.seqGap_waits (h : (s.heldAtSeq p e c (s.expectOf (streamOf p e c))).isSome = true ∨
    s.fab.held.any (fun x => x.src == p && x.dst == e && x.cls == c) = false) : s.seqGap p e c = s := by
  refine if_neg ?_
  rcases h with h | h
  · rw [Option.isNone_eq_false_iff.2 h, Bool.false_and]
    decide
  · rw [h, Bool.and_false]
    decide

/-- A frame that cannot be released keeps its stream waiting. -/
theorem State.drainAll_waits (h : ∀ x, s.heldAtSeq p e c (s.expectOf (streamOf p e c)) = some x → s.canRelease x = false) :
    s.drainAll p e c = s := by
  cases hx : s.heldAtSeq p e c (s.expectOf (streamOf p e c)) with
  | none => exact State.drain_none hx _
  | some x => exact State.drain_waits hx (h x hx) _

/-- The one frame that is held goes at its turn. -/
theorem State.drainAll_one (hh : s.fab.held = [x]) (hx : x.src = p ∧ x.dst = e ∧ x.cls = c)
    (ht : x.seq = s.expectOf (streamOf p e c)) (hr : s.canRelease x = true) : s.drainAll p e c =
      ((s.modFab fun b => { b with held := [] }).release x).setExpect (streamOf p e c) (x.seq + 1) := by
  have turn : s.heldAtSeq p e c (s.expectOf (streamOf p e c)) = some x := by
    unfold State.heldAtSeq
    rw [hh, List.find?_singleton, if_pos]
    simp only [Bool.and_eq_true, beq_iff_eq]
    exact ⟨⟨⟨hx.1, hx.2.1⟩, hx.2.2⟩, ht⟩
  have taken : s.modFab (fun b => { b with held := b.held.erase x }) = s.modFab fun b => { b with held := [] } := by
    show { s with fab := { s.fab with held := s.fab.held.erase x } } = { s with fab := { s.fab with held := [] } }
    rw [hh, List.erase_cons_head]
  refine (State.drain_released turn hr _).trans ?_
  rw [taken]
  refine State.drain_none (State.heldAtSeq_none ?_ _) _
  intro y hy
  have none : ((s.modFab fun b => { b with held := [] }).release x).fab.held = [] := (State.release_order ..).1
  exact absurd (none ▸ hy) List.not_mem_nil

/-! ## The replication list (R244–R246) -/

variable {n : Nat} {entry : TxEntry}

theorem State.residue_none (h : s.residueHead n = none) : s.residueAppend n = s ∧ s.residueTimeout n = s := by
  rw [State.residueAppend, State.residueTimeout, h]
  exact ⟨rfl, rfl⟩

theorem State.residueAppend_some (h : s.residueHead n = some entry) : s.residueAppend n = if s.txReady n entry.cls = true then
    (s.modFab fun b => { b with residue := b.residue.erase entry, tx := b.tx ++ [entry] }).residueFlow else s := by
  rw [State.residueAppend, h]

theorem State.residueTimeout_some (h : s.residueHead n = some entry) : s.residueTimeout n =
    if s.f (R.FAB_BUF_MC_CFG.TMO (plotOf n)) = 0 then s
    else ((s.modFab fun b => { b with residue := b.residue.erase entry }).residueDropped (plotOf n)).residueFlow := by
  rw [State.residueTimeout, h]

end

end

end Sys2Proof.Machine
end

section
/-! SUPPORT. A frame leaves (R198, R211, R262, R270, R277, R302, R303, R320): what its way out writes, and the cases of transmission. -/
namespace Sys2Proof.Machine
open Sys2Proof

/-! ## What the way out of a frame writes -/

section
variable {β : Type} {g : State → β}

/-- A frame that enters duplicate discard writes the rings' entries and their events. -/
theorem State.ringSent_keeps (hrings : ∀ (s : State) x, g { s with rings := x } = g s)
    (hraise : ∀ (s : State) k, g (s.raise (E.RING_EVT.DD_EVICT k)) = g s) (s : State) (n : Nat) (f : FabFrame) :
    g (s.ringSent n f) = g s := by
  have set (t : State) (p : Nat) (l : List DdEntry) : g (t.setDd p l) = g t := hrings ..
  have create (t : State) (e : DdEntry) : g (t.ddCreate e) = g t := by
    unfold State.ddCreate
    dsimp only
    split
    · exact keeps_ite (set ..) ((hraise ..).trans (set ..))
    · exact set ..
  unfold State.ringSent
  split
  · unfold State.ddSent
    split
    · exact set ..
    · exact create ..
  · rfl

/-- A stamp writes the plot's queue, or the event of its overflow; an identifier may be free. -/
theorem State.stampSent_keeps (htime : ∀ (s : State) x, g { s with time := { s.time with ts := x } } = g s)
    {n : Nat} (hraise : ∀ s : State, g (s.raise (E.TIME_TS_EVT.TS_OVF (plotOf n))) = g s) (hfree : ∀ s : State, g s.free.2 = g s)
    (s : State) (f : FabFrame) : g (s.stampSent n f) = g s := by
  have stamp (t : State) (id : Nat) : g (t.txStamp n id) = g t := keeps_ite (htime ..) (hraise _)
  unfold State.stampSent
  split
  · rfl
  · split
    · exact stamp ..
    · exact keeps_ite ((stamp ..).trans (hfree _)) rfl

/-- A port that has sent counts, and is busy. -/
theorem State.portSent_keeps (hport : ∀ (s : State) (lo hi : Reg) v, lo.blk = .port → hi.blk = .port → g (s.addPair lo hi v) = g s)
    (hsending : ∀ (s : State) n x, g (s.setSending n x) = g s) (s : State) (n id len : Nat) : g (s.portSent n id len) = g s :=
  keeps_ite ((hsending ..).trans ((hport _ _ _ _ rfl rfl).trans (hport _ _ _ _ rfl rfl))) rfl

end

/-- The counters of a port are no field of another block. -/
theorem State.f_addPair_port (s : State) {lo hi : Reg} (v : Nat) (hl : lo.blk = .port) (hh : hi.blk = .port) {x : Fld} (hx : x.blk ≠ .port) :
    (s.addPair lo hi v).f x = s.f x :=
  congrArg (getBits · x.lsb x.width) (s.rd_addPair_ne lo hi v (.inl (by rw [hl]; exact hx.symm)) (.inl (by rw [hh]; exact hx.symm)))

section
variable (s : State) (n : Nat) (f : FabFrame)

theorem State.f_ringSent {x : Fld} (hx : x.blk ≠ .ring) : (s.ringSent n f).f x = s.f x :=
  State.ringSent_keeps (g := (·.f x)) (fun _ _ => rfl) (fun t _ => congrArg (getBits · x.lsb x.width)
    (t.rd_raise_ne _ (.inl hx.symm) (.inl hx.symm))) s n f

/-- The stamps of a port have their overflow below the ports' words of the time block. -/
theorem State.f_stampSent {x : Fld} (hx : x.blk ≠ .time ∨ 0x20000 ≤ x.off) : (s.stampSent n f).f x = s.f x := by
  by_cases hn : 256 ≤ n
  · have none : s.stampSent n f = s := if_pos (by rw [decide_eq_true hn, Bool.true_or])
    rw [none]
  · have plot : plotOf n < 8 := by
      rw [plotOf, if_pos (by omega)]
      omega
    refine State.stampSent_keeps (g := (·.f x)) (fun _ _ => rfl) (fun t => congrArg (getBits · x.lsb x.width)
      (t.rd_raise_ne _ (hx.imp Ne.symm fun h => ?_) (hx.imp Ne.symm fun h => ?_))) (fun _ => rfl) s f
    · show 0x104 + 0x10 * plotOf n ≠ x.off
      omega
    · show 0x108 + 0x10 * plotOf n ≠ x.off
      omega

theorem State.f_portSent {x : Fld} (hx : x.blk ≠ .port) (id len : Nat) : (s.portSent n id len).f x = s.f x :=
  State.portSent_keeps (g := (·.f x)) (fun t _ _ v hl hh => t.f_addPair_port v hl hh hx) (fun _ _ _ => rfl) s n id len

end

/-- The frame that leaves looks at the port's PTP word and the time alone. -/
theorem State.frameOut_congr {s t : State} {n : Nat} (h : ∀ x : Fld, x.blk = .time → 0x20000 ≤ x.off → t.f x = s.f x) (hnow : t.time.now = s.time.now)
    (f : FabFrame) (len : Nat) (tci hsr : Option Nat) (stomped : Bool) :
    t.frameOut n f len tci hsr stomped = s.frameOut n f len tci hsr stomped := by
  have one : t.on (R.TIME_PTP_PORT.ONE_STEP n) = s.on (R.TIME_PTP_PORT.ONE_STEP n) := congrArg (· != 0) (h _ rfl (Nat.le_add_right ..))
  have asym : t.f (R.TIME_PTP_PORT.ASYM n) = s.f (R.TIME_PTP_PORT.ASYM n) := h _ rfl (Nat.le_add_right ..)
  simp only [State.frameOut, State.portStamp, State.now, one, asym, hnow]

section
variable (s : State) (n : Nat) (f : FabFrame) (len : Nat) (tci hsr : Option Nat) (stomped : Bool)

/-- The state in which a frame goes out. -/
def State.leaving (s : State) (n : Nat) (f : FabFrame) (len : Nat) (stomped : Bool) : State :=
  (((s.ringSent n f).when stomped (·.raise (E.FAB_EVT.STOMP (plotOf n)))).stampSent n f).portSent n f.fr.id len

theorem State.leave_eq : s.leave n f len tci hsr stomped =
    (s.leaving n f len stomped).send (.frame ((s.leaving n f len stomped).frameOut n f len tci hsr stomped)) := rfl

theorem State.leaving_keeps {β : Type} {g : State → β} (hring : ∀ s : State, g (s.ringSent n f) = g s)
    (hraise : ∀ s : State, g (s.raise (E.FAB_EVT.STOMP (plotOf n))) = g s) (hstamp : ∀ s : State, g (s.stampSent n f) = g s)
    (hport : ∀ s : State, g (s.portSent n f.fr.id len) = g s) : g (s.leaving n f len stomped) = g s := by
  rw [State.leaving, hport, hstamp, when_keeps g _ _ _ (hraise _), hring]

theorem State.out_leaving : (s.leaving n f len stomped).out = s.out :=
  s.leaving_keeps n f len stomped (State.ringSent_keeps (g := (·.out)) (fun _ _ => rfl) (fun s _ => s.raise_out _) · n f)
    (fun s => s.raise_out _) (State.stampSent_keeps (g := (·.out)) (fun _ _ => rfl) (fun s => s.raise_out _) (fun _ => rfl) · f)
    (State.portSent_keeps (g := (·.out)) (fun s lo hi v _ _ => s.addPair_out lo hi v) (fun _ _ _ => rfl) · n f.fr.id len)

theorem State.tx_leaving : (s.leaving n f len stomped).fab.tx = s.fab.tx :=
  s.leaving_keeps n f len stomped (g := (·.fab.tx))
    (State.ringSent_keeps (g := (·.fab.tx)) (fun _ _ => rfl) (fun s _ => congrArg Fab.tx (s.raise_fab _)) · n f)
    (fun s => congrArg Fab.tx (s.raise_fab _))
    (State.stampSent_keeps (g := (·.fab.tx)) (fun _ _ => rfl) (fun s => congrArg Fab.tx (s.raise_fab _)) (fun _ => rfl) · f)
    (State.portSent_keeps (g := (·.fab.tx)) (fun s lo hi v _ _ => congrArg Fab.tx (s.addPair_fab lo hi v)) (fun _ _ _ => rfl) · n f.fr.id len)

theorem State.now_leaving : (s.leaving n f len stomped).time.now = s.time.now :=
  s.leaving_keeps n f len stomped (g := (·.time.now))
    (State.ringSent_keeps (g := (·.time.now)) (fun _ _ => rfl) (fun s _ => congrArg TimeSt.now (s.raise_time _)) · n f)
    (fun s => congrArg TimeSt.now (s.raise_time _))
    (State.stampSent_keeps (g := (·.time.now)) (fun _ _ => rfl) (fun s => congrArg TimeSt.now (s.raise_time _)) (fun _ => rfl) · f)
    (State.portSent_keeps (g := (·.time.now)) (fun s lo hi v _ _ => congrArg TimeSt.now (s.addPair_time lo hi v)) (fun _ _ _ => rfl) · n f.fr.id len)

theorem State.frameOut_leaving : (s.leaving n f len stomped).frameOut n f len tci hsr stomped = s.frameOut n f len tci hsr stomped :=
  State.frameOut_congr (fun x hb ho => s.leaving_keeps n f len stomped (g := (·.f x)) (fun t => t.f_ringSent n f (by rw [hb]; decide))
    (fun t => congrArg (getBits · x.lsb x.width) (t.rd_raise_ne _ (.inl (by rw [hb]; exact nofun)) (.inl (by rw [hb]; exact nofun))))
    (fun t => t.f_stampSent n f (.inr ho)) fun t => t.f_portSent n (by rw [hb]; decide) ..) (s.now_leaving n f len stomped) ..

/-- A stomped frame raises STOMP, and nothing after it touches the flag. -/
theorem State.stomp_leaving : (s.leaving n f len true).flag (E.FAB_EVT.STOMP (plotOf n)) = true := by
  have raised (t : State) : (t.raise (E.FAB_EVT.STOMP (plotOf n))).flag (E.FAB_EVT.STOMP (plotOf n)) = true :=
    t.flag_raise _ (show 2 < 32 by decide) (show 0 ≤ 16 by decide) (.inl (by simp only [E.FAB_EVT.STOMP]; omega))
  have kept : (s.leaving n f len true).f ⟨.fab, 0x200 + 0x1000000 * plotOf n, 2, 1⟩ =
      ((s.ringSent n f).raise (E.FAB_EVT.STOMP (plotOf n))).f ⟨.fab, 0x200 + 0x1000000 * plotOf n, 2, 1⟩ :=
    (State.f_portSent _ _ (show Blk.fab ≠ Blk.port by decide) ..).trans (State.f_stampSent _ _ _ (.inl (show Blk.fab ≠ Blk.time by decide)))
  exact (congrArg (· != 0) kept).trans (raised _)

/-- A frame that leaves goes out as it is computed from the state before; its entry's list stays. -/
theorem State.leave_spec : (s.leave n f len tci hsr stomped).fab.tx = s.fab.tx ∧
    (s.leave n f len tci hsr stomped).out = s.out ++ [.frame (s.frameOut n f len tci hsr stomped)] ∧
    (stomped = true → (s.leave n f len tci hsr stomped).flag (E.FAB_EVT.STOMP (plotOf n)) = true) := by
  rw [State.leave_eq, s.frameOut_leaving]
  refine ⟨s.tx_leaving n f len stomped, ?_, ?_⟩
  · exact congrArg (· ++ _) (s.out_leaving n f len stomped)
  · rintro rfl
    exact s.stomp_leaving n f len

end

/-! ## The cases of transmission -/

section
variable {s : State} {e : TxEntry} {begun : Bool}

/-- A frame with an uncorrectable cell ends with a bad FCS. -/
def FabFrame.badEnd (f : FabFrame) : FabFrame := { f with fr := { f.fr with badFcs := true } }
/-- A frame as its cells leave it. -/
def FabFrame.ended (f : FabFrame) : FabFrame := if f.cellErr then f.badEnd else f

/-- The transmission of a frame once its end is known. -/
def State.transmitFrame (s : State) (n : Nat) (f : FabFrame) (begun : Bool) : State :=
  if n < 256 && !s.portUp n then s.count (R.PORT_CNT_DOWN_DROP.COUNT n)
  else if f.cellErr && !f.ct then s.count (R.FAB_CNT_FCS_ERR.COUNT (plotOf f.node))
  else if f.fr.badFcs && !begun then s
  else if (s.hsrAt n f).isSome && decide (9216 < f.lenOut (f.tciOut n) (s.hsrAt n f)) && !f.fr.badFcs then
    s.count (R.PORT_CNT_TAG_OVERSIZE.COUNT n)
  else s.leave n f (f.lenOut (f.tciOut n) (s.hsrAt n f)) (f.tciOut n) (s.hsrAt n f) f.fr.badFcs

theorem State.transmit_eq (s : State) (e : TxEntry) (begun : Bool) : s.transmit e begun =
    s.transmitFrame e.node (if e.frame.cellErr && e.frame.ct then e.frame.badEnd else e.frame) begun :=
  rfl

/-- A transmission leaves the transmit lists. -/
theorem State.tx_transmitFrame (s : State) (n : Nat) (f : FabFrame) (begun : Bool) : (s.transmitFrame n f begun).fab.tx = s.fab.tx := by
  have count (x : Fld) : (s.count x).fab.tx = s.fab.tx := congrArg Fab.tx (s.count_fab x)
  have left : (s.leave n f (f.lenOut (f.tciOut n) (s.hsrAt n f)) (f.tciOut n) (s.hsrAt n f) f.fr.badFcs).fab.tx = s.fab.tx :=
    (State.leave_spec ..).1
  exact keeps_ite (g := (·.fab.tx)) (count _) (keeps_ite (g := (·.fab.tx)) (count _) (keeps_ite (g := (·.fab.tx)) rfl
    (keeps_ite (g := (·.fab.tx)) (count _) left)))

theorem State.tx_transmit (s : State) (e : TxEntry) (begun : Bool) : (s.transmit e begun).fab.tx = s.fab.tx :=
  s.tx_transmitFrame ..

theorem State.transmit_down (hn : e.node < 256) (h : s.portUp e.node = false) :
    s.transmit e begun = s.count (R.PORT_CNT_DOWN_DROP.COUNT e.node) :=
  if_pos (by rw [decide_eq_true hn, h]; rfl)

section
variable (f : FabFrame)

theorem FabFrame.badFcs_ended : f.ended.fr.badFcs = (f.fr.badFcs || f.cellErr) := by
  cases h : f.cellErr with
  | false => rw [FabFrame.ended, if_neg (by rw [h]; decide), Bool.or_false]
  | true =>
    rw [FabFrame.ended, if_pos h, Bool.or_true]
    rfl

theorem State.hsrAt_ended (s : State) (n : Nat) : s.hsrAt n f.ended = s.hsrAt n f := by
  unfold FabFrame.ended
  split <;> rfl
theorem FabFrame.tciOut_ended (n : Nat) : f.ended.tciOut n = f.tciOut n := by
  unfold FabFrame.ended
  split <;> rfl
theorem FabFrame.lenOut_ended (tci hsr : Option Nat) : f.ended.lenOut tci hsr = f.lenOut tci hsr := by
  unfold FabFrame.ended
  split <;> rfl
theorem FabFrame.cellErr_ended : f.ended.cellErr = f.cellErr ∧ f.ended.ct = f.ct := by
  unfold FabFrame.ended
  split <;> exact ⟨rfl, rfl⟩

end

section
variable (up : 256 ≤ e.node ∨ s.portUp e.node = true)
include up

theorem TxEntry.reaches : ¬ ((decide (e.node < 256) && !s.portUp e.node) = true) := by
  rcases up with h | h
  · rw [decide_eq_false (by omega)]
    exact Bool.false_ne_true
  · rw [h, Bool.not_true, Bool.and_false]
    exact Bool.false_ne_true

theorem State.transmit_spoilt (hc : e.frame.cellErr = true) (ht : e.frame.ct = false) :
    s.transmit e begun = s.count (R.FAB_CNT_FCS_ERR.COUNT (plotOf e.frame.node)) := by
  rw [State.transmit_eq, if_neg (by rw [ht, Bool.and_false]; decide), State.transmitFrame, if_neg (TxEntry.reaches up),
    if_pos (by rw [hc, ht]; rfl)]

/-- A frame that is not dropped is withheld when it is bad and has not begun, counted when its tag makes it too long, and leaves
else. -/
theorem State.transmit_whole (ok : e.frame.cellErr = false ∨ e.frame.ct = true) :
    let hsr := s.hsrAt e.node e.frame
    let tci := e.frame.tciOut e.node
    let len := e.frame.lenOut tci hsr
    let bad := e.frame.fr.badFcs || e.frame.cellErr
    s.transmit e begun = if (bad && !begun) = true then s
      else if (hsr.isSome && decide (9216 < len) && !bad) = true then s.count (R.PORT_CNT_TAG_OVERSIZE.COUNT e.node)
      else s.leave e.node e.frame.ended len tci hsr bad := by
  intro hsr tci len bad
  have end_ : (if e.frame.cellErr && e.frame.ct then e.frame.badEnd else e.frame) =
      e.frame.ended := by
    unfold FabFrame.ended
    rcases ok with h | h
    · rw [h, Bool.false_and]
    · rw [h, Bool.and_true]
  obtain ⟨err, ct⟩ := e.frame.cellErr_ended
  have whole : ¬ ((e.frame.cellErr && !e.frame.ct) = true) := by
    rcases ok with h | h
    · rw [h, Bool.false_and]
      decide
    · rw [h, Bool.not_true, Bool.and_false]
      decide
  rw [State.transmit_eq, end_, State.transmitFrame, if_neg (TxEntry.reaches up), err, ct, if_neg whole, FabFrame.badFcs_ended,
    State.hsrAt_ended, FabFrame.tciOut_ended, FabFrame.lenOut_ended]

end

end

/-! ## The choice -/

section
variable {s : State} {n c : Nat} {d : Drr} {e : TxEntry} (begun : Bool)

/-- The lengths of the heads among which a node chooses. -/
def State.txHeads (s : State) (n c : Nat) : Option Nat := (s.txHead n c).map (fun x => x.frame.fr.len)

/-- The node's round robin has advanced, and the entry has left its list. -/
def State.txTaken (s : State) (n : Nat) (d : Drr) (e : TxEntry) : State :=
  (s.setDrr (8 + n) d).modFab fun b => { b with tx := b.tx.erase e }

theorem State.node_txHead (h : s.txHead n c = some e) : e.node = n := by
  have key := List.find?_some h
  simp only [Bool.and_eq_true, beq_iff_eq] at key
  exact key.1.1

theorem State.frameTransmit_none (h : s.pickClass (8 + n) (plotOf n) (s.txHeads n) = none) : s.frameTransmit n begun = s := by
  unfold State.txHeads at h
  unfold State.frameTransmit
  simp only [h]

theorem State.frameTransmit_chosen (hc : s.pickClass (8 + n) (plotOf n) (s.txHeads n) = some (c, d)) (he : s.txHead n c = some e) :
    s.frameTransmit n begun = if s.mayStart n (e.frame.lenOut (e.frame.tciOut n) (s.hsrAt n e.frame)) = true then
      ((s.txTaken n d e).transmit e begun).regionsFit else s := by
  unfold State.txHeads at hc
  unfold State.frameTransmit
  simp only [hc, he]
  rfl

end

end Sys2Proof.Machine
end

section
open Sys2Proof Sys2Proof.Machine

/-- Settles O39: crossing, order, release and transmission, each by its cases. -/
theorem framePassage : Obligations.FramePassage := by
  unfold Obligations.FramePassage
  refine ⟨fun s p k c d x f hk hc hx hf => ⟨fun hok hnd _ => ?_, fun he ht => ?_⟩, fun s p h => ?_, fun s p e c x hseq hfl => ?_,
    fun s x n ht => ?_, fun s e => ?_, fun s p e c q hn hold hfl => ?_, fun s p e c x hh hr hfl hturn hseq hd hm hs => ?_,
    fun s p e c q hold => ?_, fun s p e c hn hw => ⟨?_, fun s p e c h => ?_, fun s p e c h => ?_,
      fun s p e c x hh hr hp he hc hturn hs hm hd hready => ?_, fun s n h => ?_, fun s n e h => ?_, fun s n c d e begun hc he => ?_⟩,
    fun s n begun h => congrArg Host.Outcome.next (State.frameTransmit_none begun h)⟩
  · intro g
    have whole : ¬ ((f.cellErr && !f.ct) = true) := by
      rcases hok with h | h
      · rw [h, Bool.false_and]
        decide
      · rw [h, Bool.not_true, Bool.and_false]
        decide
    have eq := (State.frameCross_chosen hk hc hx hf).trans (if_neg whole)
    obtain ⟨waiting, flight, seqs, drr⟩ := (s.served p c d x).crossPart_spec (x := x) (f := g) (k := k) hnd
    have len : tokensFor g.fr.len = tokensFor f.fr.len := by
      show tokensFor (if f.cellErr = true then { f with fr := { f.fr with badFcs := true } } else f).fr.len = _
      split <;> rfl
    refine ⟨_, congrArg Host.Outcome.next eq, ?_, ?_, ?_, fun y hy => ?_⟩
    · exact (State.regionsFit_keeps (·.fab.waiting) (fun _ => rfl) _).trans waiting
    · refine (State.regionsFit_keeps (fun t => sget drrDefault t.fab.drr p) (fun _ => rfl) _).trans ?_
      rw [drr]
      exact State.drrOf_served
    · refine (State.regionsFit_keeps (·.fab.flight) (fun _ => rfl) _).trans (flight.trans ?_)
      rw [← len]
      rfl
    · exact (State.regionsFit_keeps (·.nextSeqOf _) (fun _ => rfl) _).trans (seqs y hy)
  · exact ⟨_, rfl, State.frameCross_spoilt hk hc hx hf he ht⟩
  · exact congrArg Host.Outcome.next (State.frameCross_none h)
  · intro k u run behind
    have ends {t : State} (h : s.reassemble p e c x.seq = t) : run = .next t.regionsFit := by
      show Host.Outcome.next (s.reassemble p e c (x.seq % 2 ^ 16)).regionsFit = _
      rw [Nat.mod_eq_of_lt (show x.seq < 2 ^ 16 from hseq), h]
    refine ⟨fun hturn hnone => ?_, fun h0 h1 hn hw => ends (State.reassemble_ahead hfl h0 h1 hn hw),
      fun h => ends (State.reassemble_old hfl h), State.canRelease_iff⟩
    obtain ⟨released, waits⟩ := State.reassemble_turn hfl hturn hnone
    exact ⟨fun hr => ends (released hr), fun hr => ends (waits hr)⟩
  · refine ⟨State.release_dead, fun hd hm => ?_, fun hd hm hs => ?_, fun hd hm hs hc => ?_⟩
    · rw [State.release_unicast hd hm, ht]
      rfl
    · rw [State.release_drilled hd hm hs, ht]
      rfl
    · rw [State.release_sown hd hm hs hc, ht]
      by_cases hdown : n < 256 ∧ s.portUp n = false
      · rw [if_pos hdown, List.filter_cons_of_neg (by simp [hdown.2]; omega)]
        rfl
      · rw [if_neg hdown, List.filter_cons_of_pos (by simp; by_contra hn; simp at hn; exact hdown ⟨by omega, hn.2⟩)]
        rfl
  · intro waits
    exact ⟨State.txAppend_sent, State.txAppend_waits, State.drill_sent, fun hc hw => ⟨fun hn => (State.drill_waits hc hw).trans (if_pos hn),
      fun hn => (State.drill_waits hc hw).trans (if_neg hn.not_gt)⟩⟩
  · have eq : s.reassemble p e c q.toNat = s := by rw [State.reassemble_none hfl, State.oldSeq_new hold hn]; rfl
    exact congrArg (fun t : State => Host.Outcome.next t.regionsFit) eq
  · let u := s.arrived x
    have noneHeld : s.noneHeld p e c := fun y hy => absurd (hh ▸ hy) List.not_mem_nil
    have eq : s.reassemble p e c (x.seq % 2 ^ 16) = (u.release x).setExpect (streamOf p e c) (x.seq + 1) := by
      rw [Nat.mod_eq_of_lt (show x.seq < 2 ^ 16 from hseq)]
      exact (State.reassemble_turn hfl hturn noneHeld).1 (State.canRelease_iff.2 (.inl hs))
    obtain ⟨held, flight, -⟩ := u.release_order x
    refine ⟨_, congrArg (fun t : State => Host.Outcome.next t.regionsFit) eq, ?_, ?_, ?_, ?_⟩
    · exact (State.regionsFit_keeps (·.fab.flight) (fun _ => rfl) _).trans (flight.trans (State.flight_arrived hs))
    · exact (State.regionsFit_keeps (·.fab.held) (fun _ => rfl) _).trans (held.trans ((s.held_arrived x).trans hh))
    · have sent := State.foldS_append x.targets u ((s.residue_arrived x).trans hr) (at_ := x.at)
        fun n t ht => State.txAppend_sent (.inl (State.waitsBehind_nil ht (x.at n)))
      rw [← State.release_unicast hd hm] at sent
      exact (State.regionsFit_keeps (·.fab.tx) (fun _ => rfl) _).trans (sent.trans (congrArg (· ++ _) (s.tx_arrived x)))
    · exact (State.regionsFit_keeps (·.expectOf (streamOf p e c)) (fun _ => rfl) _).trans (sget_sset_same ..)
  · have flag (t : State) : (t.raise (E.FAB_EVT.SEQ_OLD e)).flag (E.FAB_EVT.SEQ_OLD e) = true :=
      t.flag_raise _ (show 1 < 32 by decide) (show 16 ≤ 16 by decide) (.inl (by simp only [E.FAB_EVT.SEQ_OLD]; omega))
    have ended (t : State) (ht : s.reassemble p e c q.toNat = t.raise (E.FAB_EVT.SEQ_OLD e)) (htx : t.fab.tx = s.fab.tx)
        (hheld : t.fab.held = s.fab.held) : ∃ t, exec (.frameReassemble p e c q) s = .next t ∧ t.flag (E.FAB_EVT.SEQ_OLD e) = true ∧
          t.fab.tx = s.fab.tx ∧ t.fab.held = s.fab.held := by
      refine ⟨_, congrArg (fun t : State => Host.Outcome.next t.regionsFit) ht, ?_, ?_, ?_⟩
      · exact (State.regionsFit_keeps (·.flag (E.FAB_EVT.SEQ_OLD e)) (fun _ => rfl) _).trans (flag t)
      · rw [State.regionsFit_keeps (·.fab.tx) fun _ => rfl, State.raise_fab, htx]
      · rw [State.regionsFit_keeps (·.fab.held) fun _ => rfl, State.raise_fab, hheld]
    cases hfl : s.inFlight p e c q.toNat with
    | none => exact ended s ((State.reassemble_none hfl).trans (if_pos (State.oldSeq_old (.inl hold)))) rfl rfl
    | some x => exact ended (s.arrived x) (State.reassemble_old hfl (.inl hold)) (s.tx_arrived x) (s.held_arrived x)
  · exact congrArg (fun t : State => Host.Outcome.next t.regionsFit) (State.seqGap_skips hn hw)
  · exact congrArg (fun t : State => Host.Outcome.next t.regionsFit) (State.seqGap_waits h)
  · exact congrArg (fun t : State => Host.Outcome.next t.regionsFit) (State.drainAll_waits h)
  · let u := s.modFab fun b => { b with held := [] }
    have eq : s.drainAll p e c = (u.release x).setExpect (streamOf p e c) (x.seq + 1) :=
      State.drainAll_one hh ⟨hp, he, hc⟩ hturn (by rw [State.canRelease, hready, Bool.or_true])
    refine ⟨_, congrArg (fun t : State => Host.Outcome.next t.regionsFit) eq, ?_, fun hcal => ?_, fun hcal => ?_⟩
    · exact (State.regionsFit_keeps (·.fab.held) (fun _ => rfl) _).trans (u.release_order x).1
    · have sent := State.foldS_append (x.targets.filter (fun n => 256 ≤ n || u.portUp n)) u hr (at_ := x.at)
        fun n t ht => State.txAppend_sent (.inl (State.waitsBehind_nil ht (x.at n)))
      rw [← State.release_sown hd hm hs hcal] at sent
      exact (State.regionsFit_keeps (·.fab.tx) (fun _ => rfl) _).trans sent
    · have some : x.frame.cal.isSome = true := Option.isSome_iff_ne_none.2 hcal
      have sent := State.foldS_append x.targets u hr (at_ := x.at) fun n t _ => State.drill_sent (e := x.at n) (.inl some)
      rw [← State.release_drilled hd hm (.inr some)] at sent
      exact (State.regionsFit_keeps (·.fab.tx) (fun _ => rfl) _).trans sent
  · obtain ⟨append, timeout⟩ := State.residue_none h
    exact ⟨congrArg (fun t : State => Host.Outcome.next t.regionsFit) append, congrArg (fun t : State => Host.Outcome.next t.regionsFit) timeout⟩
  · refine ⟨fun hr => ?_, fun ht => ?_, fun hr => ?_, fun ht => ?_⟩
    · exact congrArg (fun t : State => Host.Outcome.next t.regionsFit) ((State.residueAppend_some h).trans (if_neg (by rw [hr]; decide)))
    · exact congrArg (fun t : State => Host.Outcome.next t.regionsFit) ((State.residueTimeout_some h).trans (if_pos ht))
    · exact congrArg (fun t : State => Host.Outcome.next t.regionsFit) ((State.residueAppend_some h).trans (if_pos hr))
    · exact congrArg (fun t : State => Host.Outcome.next t.regionsFit) ((State.residueTimeout_some h).trans (if_neg ht))
  · have node : e.node = n := State.node_txHead he
    have chosen := State.frameTransmit_chosen begun hc he
    let u := s.txTaken n d e
    intro hsr tci len bad f
    refine ⟨fun hstart => congrArg Host.Outcome.next (chosen.trans (if_neg (by rw [hstart]; decide))), fun hstart => ?_⟩
    have run : s.frameTransmit n begun = (u.transmit e begun).regionsFit := chosen.trans (if_pos hstart)
    have out : ((u.transmit e begun).regionsFit).out = (u.transmit e begun).out := State.regionsFit_keeps (·.out) (fun _ => rfl) _
    have field (x : Fld) : ((u.transmit e begun).regionsFit).f x = (u.transmit e begun).f x := State.regionsFit_keeps (·.f x) (fun _ => rfl) _
    have counted {x : Fld} (h : u.transmit e begun = u.count x) (hx : x.fits) (hw : x.width = 32) :
        ((u.transmit e begun).regionsFit).out = s.out ∧
          ((u.transmit e begun).regionsFit).f x = satInc 0xFFFFFFFF (s.f x) := by
      rw [out, field, h]
      exact ⟨u.count_out x, u.f_count_same hx hw⟩
    refine ⟨_, congrArg Host.Outcome.next run, ?_, fun hn hdown => ?_, fun hup herr hct _ => ?_, fun hup hok => ?_⟩
    · exact (State.regionsFit_keeps (·.fab.tx) (fun _ => rfl) _).trans (u.tx_transmit e begun)
    · have down := State.transmit_down (s := u) (begun := begun) (node ▸ hn) (node ▸ hdown)
      rw [node] at down
      exact counted down (show 0 + 32 ≤ 32 by decide) rfl
    · exact counted (State.transmit_spoilt (s := u) (node ▸ hup) herr hct) (show 0 + 32 ≤ 32 by decide) rfl
    · have whole := State.transmit_whole (s := u) (begun := begun) (node ▸ hup) hok
      rw [node] at whole
      have sent (h : (bad && !begun) = false) (ht : (hsr.isSome && decide (9216 < len) && !bad) = false) :
          u.transmit e begun = u.leave n f len tci hsr bad :=
        whole.trans ((if_neg (Bool.eq_false_iff.1 h)).trans (if_neg (Bool.eq_false_iff.1 ht)))
      obtain ⟨-, leaves, stomps⟩ := u.leave_spec n f len tci hsr bad
      refine ⟨fun hb hg => ?_, fun hb hg => ?_, fun hg hl => ?_, fun hb hh hl => ?_⟩
      · rw [out, show u.transmit e begun = u from whole.trans (if_pos (by rw [show (e.frame.fr.badFcs || e.frame.cellErr) = true from hb, hg]; rfl))]
        rfl
      · refine (State.regionsFit_keeps (·.flag (E.FAB_EVT.STOMP (plotOf n))) (fun _ => rfl) _).trans ?_
        rw [sent (by rw [hg, Bool.not_true, Bool.and_false]) (by rw [hb, Bool.not_true, Bool.and_false])]
        exact stomps hb
      · rw [out, sent]
        · exact leaves
        · rcases hg with h | h <;> simp [h]
        · rcases hl with h | h | h
          · simp [h]
          · simp [h.not_gt]
          · simp [h]
      · refine counted (whole.trans ((if_neg ?_).trans (if_pos ?_))) (show 0 + 32 ≤ 32 by decide) rfl
        · rw [show (e.frame.fr.badFcs || e.frame.cellErr) = false from hb]
          exact Bool.false_ne_true
        · show (hsr.isSome && decide (9216 < len) && !bad) = true
          rw [hh, decide_eq_true hl, hb]
          rfl

end

section
/-! SUPPORT. Links and their optics (R246, R261, R262, R264): what a port's rise, its fall, a receiver's report and the monitors write. -/
namespace Sys2Proof.Machine
open Sys2Proof

section
variable {s : State} {n : Nat}

/-! ## The events of a port -/

/-- The events by which a port's link and optics are reported. -/
def PortEvt (n : Nat) (e : Evt) : Prop :=
  e = E.PORT_EVT.LINK_UP n ∨ e = E.PORT_EVT.LINK_DOWN n ∨ e = E.PORT_EVT.RX_LOW n ∨ e = E.PORT_EVT.DEGRADE n

/-- Where the flag and the counter of such an event stand: in words of their own, between PORT_STATUS and PORT_DEG_CFG. -/
theorem PortEvt.place {e : Evt} (h : PortEvt n e) : e.off = 0x8 + 0x10000 * n ∧
    (e.cntOff = 0xc + 0x10000 * n ∨ e.cntOff = 0x10 + 0x10000 * n) ∧ e.bit < 32 ∧ e.cntLsb ≤ 16 := by
  rcases h with rfl | rfl | rfl | rfl
  · exact ⟨rfl, .inl rfl, show 0 < 32 by decide, show 0 ≤ 16 by decide⟩
  · exact ⟨rfl, .inl rfl, show 1 < 32 by decide, show 16 ≤ 16 by decide⟩
  · exact ⟨rfl, .inr rfl, show 3 < 32 by decide, show 16 ≤ 16 by decide⟩
  · exact ⟨rfl, .inr rfl, show 2 < 32 by decide, show 0 ≤ 16 by decide⟩

theorem State.flag_portEvt (s : State) {e : Evt} (h : PortEvt n e) : (s.raise e).flag e = true := by
  obtain ⟨hoff, hcnt, hbit, hlsb⟩ := h.place
  exact s.flag_raise e hbit hlsb (.inl (by omega))

theorem State.f_portEvt_ne (s : State) {e : Evt} (h : PortEvt n e) {x : Fld} (hx : x.off % 0x10000 < 0x8 ∨ 0x18 ≤ x.off % 0x10000) :
    (s.raise e).f x = s.f x := by
  obtain ⟨hoff, hcnt, -, -⟩ := h.place
  exact s.f_raise_off e (by omega) (by omega)

theorem State.portState_portEvt (s : State) {e : Evt} (h : PortEvt n e) (m : Nat) : (s.raise e).portState m = s.portState m :=
  s.f_portEvt_ne h (.inl (show (0x4 + 0x10000 * m) % 0x10000 < 0x8 by omega))

/-! ## The state of a port -/

theorem State.laserSet_keeps {β : Type} {g : State → β} (h : ∀ (s : State) (f : Spares → Spares), g (s.modSpares f) = g s)
    (s : State) (z : Nat) (on : Bool) : g (s.laserSet z on) = g s := by
  unfold State.laserSet
  split
  · exact h s fun y => { y with laserSince := y.laserSince ++ [(z, s.opTotal)] }
  · next e _ => exact h s fun y => { y with
      laserSince := y.laserSince.erase e
      laserOn := sset laserTicks y.laserOn z (sget laserTicks y.laserOn z + (s.opTotal - e.2)) }
  · rfl

theorem State.setPortState_fab (s : State) (n v : Nat) : (s.setPortState n v).fab = s.fab :=
  State.laserSet_keeps (g := (·.fab)) (fun _ _ => rfl) _ _ _

theorem State.portState_setPortState (s : State) (n : Nat) {v : Nat} (hv : v < 8) : (s.setPortState n v).portState n = v :=
  (State.laserSet_keeps (g := (·.portState n)) (fun _ _ => rfl) _ _ _).trans (s.f_setF_fit (show 29 + 3 ≤ 32 by decide) hv)

theorem State.portState_setPortState_ne (s : State) (v : Nat) {m : Nat} (h : m ≠ n) : (s.setPortState n v).portState m = s.portState m :=
  (State.laserSet_keeps (g := (·.portState m)) (fun _ _ => rfl) _ _ _).trans
    (s.f_setF_ne _ _ _ (show 29 + 3 ≤ 32 by decide) (.inr (.inl (by simp only [R.PORT_STATUS.STATE]; omega))))

/-! ## The view of the partner -/

theorem State.pairLinkUpdate_fab (s : State) : s.pairLinkUpdate.fab = s.fab := keeps_ite (g := (·.fab)) (State.raise_fab ..) rfl

/-- The view of the partner stands in the system's registers alone. -/
theorem State.f_pairLinkUpdate (s : State) {x : Fld} (hx : x.blk = .port) : s.pairLinkUpdate.f x = s.f x := by
  have apart : Blk.sys ≠ x.blk := by rw [hx]; decide
  have shown : ((s.setF R.SYS_PAIR_STATUS.PAIR_LINK (b2n s.pairLinkUp)).setF R.SYS_PAIR_STATUS.RING_VIEW (b2n
      (s.setF R.SYS_PAIR_STATUS.PAIR_LINK (b2n s.pairLinkUp)).ringView)).f x = s.f x :=
    (State.f_setF_blk _ _ apart).trans (State.f_setF_blk _ _ apart)
  exact keeps_ite (g := (·.f x)) ((congrArg (getBits · x.lsb x.width) (State.rd_raise_ne _ _ (.inl apart) (.inl apart))).trans shown) shown

/-! ## A receiver's report -/

/-- A condition of the receiver is written beside the other fields of PORT_STATUS. -/
theorem State.f_condition_ne (s : State) (v : Nat) {i j w : Nat} (hi : i < 32) (h : i + 1 ≤ j ∨ j + w ≤ i) :
    (s.setF ⟨.port, 0x4 + 0x10000 * n, i, 1⟩ v).f ⟨.port, 0x4 + 0x10000 * n, j, w⟩ = s.f ⟨.port, 0x4 + 0x10000 * n, j, w⟩ :=
  s.f_setF_ne _ _ v hi (.inr (.inr h))

theorem State.portRole_setReceiver (s : State) (n m : Nat) (x : Receiver) : (s.setReceiver n x).portRole m = s.portRole m := by
  have other (t : State) (y : Fld) (v : Nat) (hy : y.off = 0x4 + 0x10000 * n) : (t.setF y v).portRole m = t.portRole m :=
    congrArg (getBits · 26 2) (t.rd_setF_ne y v (o := 0x0 + 0x10000 * m) (.inr (by omega)))
  unfold State.setReceiver
  rw [other _ (R.PORT_STATUS.REMOTE_FAULT n) _ rfl, other _ (R.PORT_STATUS.LOCAL_FAULT n) _ rfl, other _ (R.PORT_STATUS.RX_LOS n) _ rfl,
    other _ (R.PORT_STATUS.ALIGNED n) _ rfl]

theorem State.setReceiver_shows (s : State) (n : Nat) (x : Receiver) : (s.setReceiver n x).on (R.PORT_STATUS.ALIGNED n) = x.aligned ∧
    (s.setReceiver n x).on (R.PORT_STATUS.RX_LOS n) = x.los ∧ (s.setReceiver n x).on (R.PORT_STATUS.LOCAL_FAULT n) = x.localFault ∧
    (s.setReceiver n x).on (R.PORT_STATUS.REMOTE_FAULT n) = x.remoteFault := by
  have put (t : State) (i : Nat) (c : Bool) (hi : i < 32) :
      (t.setF ⟨.port, 0x4 + 0x10000 * n, i, 1⟩ (b2n c)).f ⟨.port, 0x4 + 0x10000 * n, i, 1⟩ = b2n c := t.f_setF_fit hi (b2n_lt c)
  refine ⟨State.on_b2n _ _ _ ?_, State.on_b2n _ _ _ ?_, State.on_b2n _ _ _ ?_, State.on_b2n _ _ _ ?_⟩
  · exact (State.f_condition_ne _ _ (by decide) (by decide)).trans <| (State.f_condition_ne _ _ (by decide) (by decide)).trans <|
      (State.f_condition_ne _ _ (by decide) (by decide)).trans (put s 24 _ (by decide))
  · exact (State.f_condition_ne _ _ (by decide) (by decide)).trans <| (State.f_condition_ne _ _ (by decide) (by decide)).trans
      (put _ 27 _ (by decide))
  · exact (State.f_condition_ne _ _ (by decide) (by decide)).trans (put _ 26 _ (by decide))
  · exact put _ 25 _ (by decide)

/-- A receiver is good when it is aligned and reports no fault. -/
theorem State.receiverGood_setReceiver (s : State) (n : Nat) (x : Receiver) :
    (s.setReceiver n x).receiverGood n = decide (x = ⟨true, false, false, false⟩) := by
  obtain ⟨aligned, los, localFault, remoteFault⟩ := s.setReceiver_shows n x
  rw [State.receiverGood, aligned, los, localFault, remoteFault, Bool.eq_iff_iff, decide_eq_true_iff]
  cases x
  simp [and_assoc]

/-! ## A port leaves UP -/

theorem State.cutOff_keeps {β : Type} {g : State → β} (hsend : ∀ (s : State) o, g (s.send o) = g s)
    (hsending : ∀ s : State, g (s.setSending n none) = g s) (s : State) : g (s.cutOff n) = g s := by
  unfold State.cutOff
  split
  · exact (hsending _).trans (keeps_ite (hsend ..) rfl)
  · rfl

/-- What flows on was in the residue before. -/
theorem State.mem_residueFlow {x : TxEntry} (h : x ∈ s.residueFlow.fab.residue) : x ∈ s.fab.residue := by
  refine List.foldlRecOn s.fab.residue _ (motive := fun a : List TxEntry × List TxEntry => ∀ y ∈ a.1, y ∈ s.fab.residue)
    (fun y hy => absurd hy List.not_mem_nil) (fun a ih e he => ?_) x h
  split
  · exact ih
  · intro y hy
    rcases List.mem_append.1 hy with hy | hy
    · exact ih y hy
    · rwa [List.mem_singleton.1 hy]

theorem State.residueLinkDown_keeps {β : Type} {g : State → β} (hoff : ∀ u : State, g u.offCells = g u)
    (hdrop : ∀ s : State, g (s.residueDropped (plotOf n)) = g s)
    (hfab : ∀ (s : State) r x, g (s.modFab fun b => { b with residue := r, tx := x }) = g s) (s : State) :
    g (s.residueLinkDown n) = g s :=
  (State.regionsFit_keeps g hoff _).trans <| (hfab ..).trans <| (foldS_keeps g _ (fun _ t => hdrop t) _ _).trans (hfab s _ s.fab.tx)

theorem State.fdb_residueLinkDown (s : State) (n : Nat) : (s.residueLinkDown n).fab.fdb = s.fab.fdb :=
  State.residueLinkDown_keeps (g := (·.fab.fdb)) (fun _ => rfl) (fun t => congrArg Fab.fdb (t.residueDropped_fab _)) (fun _ _ _ => rfl) s

/-- A dropped entry counts in the fabric's registers. -/
theorem State.f_residueLinkDown (s : State) (n : Nat) {x : Fld} (hx : x.blk = .port) : (s.residueLinkDown n).f x = s.f x := by
  have apart : Blk.fab ≠ x.blk := by rw [hx]; decide
  refine State.residueLinkDown_keeps (g := (·.f x)) (fun _ => rfl) (fun t => ?_) (fun _ _ _ => rfl) s
  exact (State.f_setF_blk _ _ apart).trans (congrArg (getBits · x.lsb x.width) (t.rd_raise_ne _ (.inl apart) (.inl apart)))

/-- The entries of a port whose link goes down are dropped (R246, R262). -/
theorem State.residue_residueLinkDown (s : State) (n : Nat) {e : TxEntry} (h : e ∈ (s.residueLinkDown n).fab.residue) :
    ¬ (e.real = true ∧ e.node = n) := by
  have flowed := (State.regionsFit_keeps (·.fab.residue) (fun _ => rfl) _).subst (motive := fun l => e ∈ l) h
  have kept := State.mem_residueFlow flowed
  rw [foldS_keeps (·.fab.residue) _ (fun _ t => congrArg Fab.residue (t.residueDropped_fab _))] at kept
  simpa [imp_iff_not_or] using (List.mem_filter.1 kept).2

/-- No dynamic entry that leads to the port outlasts a flush of the port. -/
theorem State.static_of_fdbFlush {k : Nat} {e : FdbEntry} (h : (k, some e) ∈ (s.fdbFlush fun _ e => e.node == n).fab.fdb)
    (hn : e.node = n) : e.static = true := by
  simpa [hn] using (List.mem_filter.1 h).2

/-- The actions of R262: the new state, the port's residue entries and, unless it is a ring port, its dynamic FDB entries. -/
theorem State.leaveActs_spec (s : State) (n : Nat) {v : Nat} (hv : v < 8) : (s.leaveActs n v).portState n = v ∧
    (∀ e, e ∈ (s.leaveActs n v).fab.residue → ¬ (e.real = true ∧ e.node = n)) ∧
    (s.portRole n ≠ prRing → ∀ k e, (k, some e) ∈ (s.leaveActs n v).fab.fdb → e.node = n → e.static = true) := by
  unfold State.leaveActs
  extract_lets ring u w
  refine ⟨?_, fun e he => ?_, fun hr k e he => ?_⟩
  · have flushed : w.portState n = u.portState n := keeps_ite (g := (·.portState n)) rfl rfl
    have cut : u.portState n = (s.setPortState n v).portState n :=
      State.cutOff_keeps (g := (·.portState n)) (fun _ _ => rfl) (fun _ => rfl) _
    exact (State.f_pairLinkUpdate _ rfl).trans <| (State.f_residueLinkDown _ n rfl).trans <|
      flushed.trans (cut.trans (s.portState_setPortState n hv))
  · rw [State.pairLinkUpdate_fab] at he
    exact State.residue_residueLinkDown w n he
  · have flushed : w = u.fdbFlush fun _ e => e.node == n := if_neg (by simpa [ring] using hr)
    rw [State.pairLinkUpdate_fab, State.fdb_residueLinkDown, flushed] at he
    exact State.static_of_fdbFlush he

/-- A port leaves UP: LINK_DOWN follows the actions of R262. -/
theorem State.leaveUp_spec (s : State) (n : Nat) {v : Nat} (hv : v < 8) : (s.leaveUp n v).portState n = v ∧
    (s.leaveUp n v).flag (E.PORT_EVT.LINK_DOWN n) = true ∧
    (∀ e, e ∈ (s.leaveUp n v).fab.residue → ¬ (e.real = true ∧ e.node = n)) ∧
    (s.portRole n ≠ prRing → ∀ k e, (k, some e) ∈ (s.leaveUp n v).fab.fdb → e.node = n → e.static = true) := by
  obtain ⟨state, residue, fdb⟩ := s.leaveActs_spec n hv
  have down : PortEvt n (E.PORT_EVT.LINK_DOWN n) := .inr (.inl rfl)
  refine ⟨(State.portState_portEvt _ down n).trans state, State.flag_portEvt _ down, ?_, ?_⟩
  · rwa [State.leaveUp, State.raise_fab]
  · rwa [State.leaveUp, State.raise_fab]

/-! ## Rise and fall of the link -/

theorem State.portUp_iff : s.portUp n = true ↔ s.portState n = 2 := beq_iff_eq

theorem State.linkUp_spec (hst : s.portState n = 1) (hg : s.receiverGood n = true) : (s.linkUp n).portState n = 2 ∧
    (s.linkUp n).flag (E.PORT_EVT.LINK_UP n) = true ∧ (s.linkUp n).fab = s.fab ∧
    ∀ m, m ≠ n → (s.linkUp n).portState m = s.portState m := by
  have run : s.linkUp n = ((s.setPortState n psUp).raise (E.PORT_EVT.LINK_UP n)).pairLinkUpdate := if_pos ⟨hst, hg⟩
  have up : PortEvt n (E.PORT_EVT.LINK_UP n) := .inl rfl
  have state (m : Nat) : (s.linkUp n).portState m = (s.setPortState n psUp).portState m :=
    run ▸ (State.f_pairLinkUpdate _ rfl).trans (State.portState_portEvt _ up m)
  refine ⟨(state n).trans (s.portState_setPortState n (by decide)), ?_, ?_, fun m hm => (state m).trans (s.portState_setPortState_ne _ hm)⟩
  · rw [run, State.flag, State.on, State.f_pairLinkUpdate _ rfl]
    exact State.flag_portEvt _ up
  · rw [run, State.pairLinkUpdate_fab, State.raise_fab, State.setPortState_fab]

/-- An UP port whose receiver is not good leaves UP. -/
theorem State.linkDown_lost {x : Receiver} (h : s.portState n = 2) (hx : x ≠ ⟨true, false, false, false⟩) :
    s.linkDown n x = (s.setReceiver n x).leaveUp n psAcquire := by
  refine if_pos ?_
  rw [State.portUp_iff.2 h, State.receiverGood_setReceiver, decide_eq_false hx]
  rfl

/-! ## Monitoring -/

/-- The measurements of a refresh stand in PORT_OPT0 and PORT_OPT1. -/
def State.opticsShown (s : State) (n bias pwr temp : Nat) : State :=
  ((s.setF (R.PORT_OPT0.TX_BIAS n) bias).setF (R.PORT_OPT0.RX_PWR n) pwr).setF (R.PORT_OPT1.ENG_TEMP n) temp

/-- Whether a receive power is measured and below the port's threshold. -/
def State.rxBelow (s : State) (n v : Nat) : Bool := v != 0x8000 && decide (toSigned 16 v < toSigned 16 (s.f (R.PORT_RXLOW_THR.THR n)))

theorem State.optics_eq (s : State) (n bias pwr temp : Nat) : s.optics n bias pwr temp =
    if s.rxBelow n pwr && !s.rxBelow n (s.f (R.PORT_OPT0.RX_PWR n)) then (s.opticsShown n bias pwr temp).raise (E.PORT_EVT.RX_LOW n)
    else s.opticsShown n bias pwr temp := rfl

theorem State.opticsShown_shows {bias pwr temp : Nat} (hb : bias < 2 ^ 16) (hp : pwr < 2 ^ 16) (ht : temp < 2 ^ 16) :
    (s.opticsShown n bias pwr temp).f (R.PORT_OPT0.TX_BIAS n) = bias ∧ (s.opticsShown n bias pwr temp).f (R.PORT_OPT0.RX_PWR n) = pwr ∧
    (s.opticsShown n bias pwr temp).f (R.PORT_OPT1.ENG_TEMP n) = temp := by
  have temp_apart (t : State) (y : Fld) (hy : y.off = 0x20 + 0x10000 * n) : (t.setF (R.PORT_OPT1.ENG_TEMP n) temp).f y = t.f y :=
    t.f_setF_ne _ _ _ (show 0 + 16 ≤ 32 by decide) (.inr (.inl (by simp only [R.PORT_OPT1.ENG_TEMP]; omega)))
  have bias_apart (t : State) : (t.setF (R.PORT_OPT0.RX_PWR n) pwr).f (R.PORT_OPT0.TX_BIAS n) = t.f (R.PORT_OPT0.TX_BIAS n) :=
    t.f_setF_ne _ _ _ (show 0 + 16 ≤ 32 by decide) (.inr (.inr (.inl (show 0 + 16 ≤ 16 by decide))))
  refine ⟨?_, ?_, ?_⟩
  · exact (temp_apart _ _ rfl).trans ((bias_apart _).trans (s.f_setF_fit (show 16 + 16 ≤ 32 by decide) hb))
  · exact (temp_apart _ _ rfl).trans (State.f_setF_fit _ (show 0 + 16 ≤ 32 by decide) hp)
  · exact State.f_setF_fit _ (show 0 + 16 ≤ 32 by decide) ht

/-- An RX_LOW that rises with the measurements leaves them as they are shown. -/
theorem State.f_optics (s : State) (n bias pwr temp : Nat) {x : Fld} (hx : 0x18 ≤ x.off % 0x10000) :
    (s.optics n bias pwr temp).f x = (s.opticsShown n bias pwr temp).f x := by
  rw [State.optics_eq]
  exact keeps_ite (g := (·.f x)) (State.f_portEvt_ne _ (.inr (.inr (.inl rfl))) (.inr hx)) rfl

theorem State.flag_optics {pwr : Nat} (h : s.rxBelow n pwr = true) (h' : s.rxBelow n (s.f (R.PORT_OPT0.RX_PWR n)) = false)
    (bias temp : Nat) : (s.optics n bias pwr temp).flag (E.PORT_EVT.RX_LOW n) = true := by
  rw [State.optics_eq, h, h']
  exact State.flag_portEvt _ (.inr (.inr (.inl rfl)))

/-- The corrections of a window are counted. -/
def State.fecCounted (s : State) (n corr uncorr sym : Nat) : State :=
  ((s.addPair (R.PORT_FEC_CORR_LO.reg n) (R.PORT_FEC_CORR_HI.reg n) corr).addPair (R.PORT_FEC_UNCORR_LO.reg n)
    (R.PORT_FEC_UNCORR_HI.reg n) uncorr).addPair (R.PORT_FEC_SYM_LO.reg n) (R.PORT_FEC_SYM_HI.reg n) sym

/-- They are counted above the port's configuration and events. -/
theorem State.f_fecCounted (s : State) (n corr uncorr sym : Nat) {x : Fld} (hx : x.off < 0x60 + 0x10000 * n) :
    (s.fecCounted n corr uncorr sym).f x = s.f x := by
  have apart (t : State) (lo hi : Reg) (v : Nat) (hl : 0x60 + 0x10000 * n ≤ lo.off) (hh : 0x60 + 0x10000 * n ≤ hi.off) :
      (t.addPair lo hi v).f x = t.f x := congrArg (getBits · x.lsb x.width) (t.rd_addPair_ne lo hi v (.inr (by omega)) (.inr (by omega)))
  refine (apart _ _ _ _ ?_ ?_).trans ((apart _ _ _ _ ?_ ?_).trans (apart _ _ _ _ ?_ ?_)) <;> exact Nat.add_le_add_right (by decide) _

theorem State.degradeWindow_eq (s : State) (n corr uncorr sym : Nat) : s.degradeWindow n corr uncorr sym =
    if s.f (R.PORT_DEG_CFG.SYM_THR n) < sym then (s.fecCounted n corr uncorr sym).raise (E.PORT_EVT.DEGRADE n)
    else s.fecCounted n corr uncorr sym := by
  have thr : (s.fecCounted n corr uncorr sym).f (R.PORT_DEG_CFG.SYM_THR n) = s.f (R.PORT_DEG_CFG.SYM_THR n) :=
    s.f_fecCounted n corr uncorr sym (Nat.add_lt_add_right (show 0x18 < 0x60 by decide) _)
  rw [← thr]
  rfl

theorem State.degradeWindow_fab (s : State) (n corr uncorr sym : Nat) : (s.degradeWindow n corr uncorr sym).fab = s.fab := by
  have counted : (s.fecCounted n corr uncorr sym).fab = s.fab := by simp only [State.fecCounted, State.addPair_fab]
  rw [State.degradeWindow_eq]
  exact keeps_ite (g := (·.fab)) ((State.raise_fab ..).trans counted) counted

end

end Sys2Proof.Machine
end

section
open Sys2Proof Sys2Proof.Machine

/-- Settles O42: rise and fall of a link, a receiver's report, and the two monitors. -/
theorem linkEvents : Obligations.LinkEvents := by
  unfold Obligations.LinkEvents
  refine ⟨fun s n hst hg => ?_, fun s n x hst hx => ?_, fun s n x => ⟨fun hd => ?_, fun hu => ?_, s.receiverGood_setReceiver n x⟩,
    fun s n b pw t => ?_, fun s n c u y => ⟨_, rfl, fun h => ?_, fun h => ?_, s.degradeWindow_fab ..⟩⟩
  · obtain ⟨state, flag, fab, others⟩ := State.linkUp_spec hst hg
    exact ⟨_, rfl, state, flag, fab, fun m hm => others m (Fin.val_ne_of_ne hm)⟩
  · obtain ⟨state, flag, residue, fdb⟩ := (s.setReceiver n x).leaveUp_spec n (v := psAcquire) (by decide)
    rw [State.portRole_setReceiver] at fdb
    exact ⟨_, congrArg Host.Outcome.next (State.linkDown_lost hst hx), state, flag, residue, fdb⟩
  · exact congrArg Host.Outcome.next (if_neg (by rw [hd]; decide))
  · exact congrArg Host.Outcome.next (if_pos hu)
  · obtain ⟨bias, pwr, temp⟩ := s.opticsShown_shows (n := n) b.isLt pw.isLt t.isLt
    have shown (x : Fld) (hx : 0x18 ≤ x.off % 0x10000) := s.f_optics n b.toNat pw.toNat t.toNat hx
    refine ⟨_, rfl, (shown _ ?_).trans bias, (shown _ ?_).trans pwr, (shown _ ?_).trans temp, fun hne hlow hold => ?_⟩
    · show 0x18 ≤ (0x20 + 0x10000 * n.val) % 0x10000
      omega
    · show 0x18 ≤ (0x20 + 0x10000 * n.val) % 0x10000
      omega
    · show 0x18 ≤ (0x24 + 0x10000 * n.val) % 0x10000
      omega
    · have below : s.rxBelow n pw.toNat = true := by
        rw [State.rxBelow, toSigned_eq_toInt (by decide), decide_eq_true hlow, Bool.and_true, bne_iff_ne]
        exact fun h => hne (BitVec.eq_of_toNat_eq h)
      have above : s.rxBelow n (s.f (R.PORT_OPT0.RX_PWR n)) = false := by
        rw [State.rxBelow, decide_eq_false hold.not_gt, Bool.and_false]
      exact State.flag_optics below above _ _
  · rw [State.degradeWindow_eq, if_pos h]
    exact State.flag_portEvt _ (.inr (.inr (.inr rfl)))
  · rw [State.degradeWindow_eq, if_neg h.not_gt]
    exact congrArg (· != 0) (s.f_fecCounted n _ _ _ (Nat.add_lt_add_right (show 0x8 < 0x60 by decide) _))

end

section
/-! SUPPORT. Seamless rings (R271, R274–R281, R567, R568): frames on their ports, duplicate discard, VIA bits, supervision, and the
frames of their endpoints. -/
namespace Sys2Proof.Machine
open Sys2Proof

section
variable {s : State} {k n : Nat} {m : Mac} {f : Frame}

/-! ## Frames on ring ports -/

theorem State.portRole_ring (h : s.ringOf n = some k) : s.portRole n = prRing := by
  by_contra hr
  rw [State.ringOf, if_neg hr] at h
  cases h

/-- What the ring takes of a frame on its port, which the time service hears too. -/
theorem State.frameIn_ring (hup : s.portUp n = true) (hk : s.ringOf n = some k) (hm : f.etype ≠ etMacCtl) (hl : 64 ≤ f.len) :
    s.frameIn n f = ((s.rxCount n f).ringIn k n f).announce n f := by
  have role : (s.rxCount n f).portRole n ≠ prPair := by
    rw [State.portRole_rxCount, State.portRole_ring hk]
    decide
  rw [State.frameIn_data hup hm hl, State.frameTo_ring role ((s.ringOf_rxCount n n f).trans hk)]

theorem State.viaSeen_stranger (h : s.nodeOf k m = none) (a : Bool) : s.viaSeen k a m = s := by
  rw [State.viaSeen, h]

section
variable (hs : s.nodeOf k f.src = none)
include hs

theorem State.ringIn_untagged (h : f.hsr = none) (hp : f.etype ≠ etPtp) :
    s.ringIn k n f = s.count (R.RING_CNT_BAD_TAG.COUNT k) := by
  simp only [State.ringIn, State.viaSeen_stranger hs, h, if_neg hp]

theorem State.ringIn_badTag (h : f.hsr ≠ none) (hl : f.lsduOk = false) : s.ringIn k n f = s.count (R.RING_CNT_BAD_TAG.COUNT k) := by
  obtain ⟨q, hq⟩ := Option.ne_none_iff_exists'.1 h
  simp only [State.ringIn, State.viaSeen_stranger hs, hq, hl, Bool.not_false, if_true]

theorem State.ringIn_tagged {q : BitVec 16} (h : f.hsr = some q) (hl : f.lsduOk = true) : s.ringIn k n f =
    if (s.ddReceive k (n == s.ringA k) f.src q.toNat).1 = true then (s.ddReceive k (n == s.ringA k) f.src q.toNat).2.ringTake k n f
    else (s.ddReceive k (n == s.ringA k) f.src q.toNat).2 := by
  simp only [State.ringIn, State.viaSeen_stranger hs, h, hl, Bool.not_true, Bool.false_eq_true, if_false]

end

/-! ## Entries and source records -/

@[simp] theorem State.dd_setDd_same (s : State) (p : Nat) (l : List DdEntry) : (s.setDd p l).dd p = l := sget_sset_same ..

theorem State.dd_setDd_ne (s : State) {p i : Nat} (l : List DdEntry) (h : i ≠ p) : (s.setDd p l).dd i = s.dd i := sget_sset_ne _ _ _ _ _ h

@[simp] theorem State.srcs_setSrcs_same (s : State) (p : Nat) (l : List DdSource) : (s.setSrcs p l).srcs p = l := sget_sset_same ..

theorem State.srcs_setSrcs_ne (s : State) {p i : Nat} (l : List DdSource) (h : i ≠ p) : (s.setSrcs p l).srcs i = s.srcs i :=
  sget_sset_ne _ _ _ _ _ h

@[simp] theorem State.setGapRun_regs (s : State) (k : Nat) (m : Mac) (a b : Nat) : (s.setGapRun k m a b).regs = s.regs :=
  keeps_ite (g := (·.regs)) rfl rfl

@[simp] theorem State.dd_setGapRun (s : State) (k : Nat) (m : Mac) (a b p : Nat) : (s.setGapRun k m a b).dd p = s.dd p :=
  keeps_ite (g := (·.dd p)) rfl rfl

theorem State.setGapRun_stranger (h : s.nodeOf k m = none) (a b : Nat) : s.setGapRun k m a b = s :=
  if_neg (by rw [h]; decide)

/-- The counters of a ring are apart from its configuration. -/
theorem State.ringA_setF (s : State) {x : Fld} (v : Nat) (h : x.off ≠ 0x0 + 0x1000 * k) : (s.setF x v).ringA k = s.ringA k :=
  congrArg (getBits · 0 8) (s.rd_setF_ne x v (.inr h))

/-! ## A tagged frame arrives -/

/-- The source record of a frame takes its time. -/
def State.srcHeard (s : State) (k : Nat) (m : Mac) : State := s.srcMod k m (fun x => { x with last := s.time.now })

section
variable {a : Bool} {q : Nat}

/-- A frame that no entry knows is accepted. -/
theorem State.ddReceive_unknown (h : s.ddFind k m q = none) : s.ddReceive k a m q =
    (true, ((s.srcHeard k m).srcAccept k m q).2.ddCreate
      ⟨k, m, q, a, !a, false, s.time.now, false, ((s.srcHeard k m).srcAccept k m q).1⟩) := by
  have found : (s.srcHeard k m).ddFind k m q = none := h
  rw [State.ddReceive, ← State.srcHeard, found]
  rfl

section
variable {e : DdEntry} (h : s.ddFind k m q = some e) (hsent : e.sent = false)
include h hsent

/-- The copy from the other port is discarded and counted, and its entry goes. -/
theorem State.ddReceive_copy (hseen : (if a then e.seenA else e.seenB) = false) : s.ddReceive k a m q =
    (false, (((s.srcHeard k m).count (R.RING_CNT_DUP.COUNT k)).ddPut k m q (fun _ => none)).setGapRun k m 0 0) := by
  have found : (s.srcHeard k m).ddFind k m q = some e := h
  rw [State.ddReceive, ← State.srcHeard, found]
  simp only [hsent, hseen, Bool.false_eq_true, if_false]

/-- A second copy from one port is discarded and counted. -/
theorem State.ddReceive_again (hseen : (if a then e.seenA else e.seenB) = true) : s.ddReceive k a m q =
    (false, (s.srcHeard k m).count (R.RING_CNT_DUP.COUNT k)) := by
  have found : (s.srcHeard k m).ddFind k m q = some e := h
  rw [State.ddReceive, ← State.srcHeard, found]
  simp only [hsent, hseen, Bool.false_eq_true, if_false, if_true]

end

theorem State.ddFind_empty (h : s.dd (s.ddPlot k) = []) : s.ddFind k m q = none := by
  rw [State.ddFind, h]
  rfl

theorem State.ddFind_single {e : DdEntry} (h : s.dd (s.ddPlot k) = [e]) (hk : e.hits k m q = true) : s.ddFind k m q = some e := by
  rw [State.ddFind, h]
  exact List.find?_cons_of_pos hk

theorem State.srcAccept_first (h : s.srcs (s.ddPlot k) = []) :
    s.srcAccept k m q = (0, s.setSrcs (s.ddPlot k) [⟨k, m, q, s.time.now⟩]) := by
  simp only [State.srcAccept, h, List.find?_nil]

theorem State.dd_ddCreate_first {e : DdEntry} (h : s.dd (s.ddPlot e.ring) = []) : (s.ddCreate e).dd (s.ddPlot e.ring) = [e] := by
  simp only [State.ddCreate, h, State.dd_setDd_same]

/-- The first frame of all takes an entry, with the port that saw it. -/
theorem State.dd_ddReceive_first (hd : s.dd (s.ddPlot k) = []) (hs : s.srcs (s.ddPlot k) = []) :
    (s.ddReceive k a m q).2.dd (s.ddPlot k) = [⟨k, m, q, a, !a, false, s.time.now, false, 0⟩] := by
  have heard : (s.srcHeard k m).srcs (s.ddPlot k) = [] := by
    rw [State.srcHeard, State.srcMod, State.srcs_setSrcs_same, hs, List.map_nil]
  rw [State.ddReceive_unknown (State.ddFind_empty hd), State.srcAccept_first heard]
  exact State.dd_ddCreate_first (e := ⟨k, m, q, a, !a, false, s.time.now, false, 0⟩) hd

theorem State.ddPlot_countDup (s : State) (k : Nat) : (s.count (R.RING_CNT_DUP.COUNT k)).ddPlot k = s.ddPlot k :=
  congrArg plotOf (s.ringA_setF _ (by simp only [R.RING_CNT_DUP.COUNT]; omega))

/-- An entry alone in its table leaves it empty. -/
theorem State.dd_ddPut_single {e : DdEntry} (h : s.dd (s.ddPlot k) = [e]) (hk : e.hits k m q = true) :
    (s.ddPut k m q (fun _ => none)).dd (s.ddPlot k) = [] := by
  simp [State.ddPut, h, hk]

section
variable {e : DdEntry} (hd : s.dd (s.ddPlot k) = [e]) (he : e.hits k m q = true) (hsent : e.sent = false)
include hd he hsent

theorem State.dd_ddReceive_copy (hseen : (if a then e.seenA else e.seenB) = false) : (s.ddReceive k a m q).2.dd (s.ddPlot k) = [] := by
  have plot : ((s.srcHeard k m).count (R.RING_CNT_DUP.COUNT k)).ddPlot k = s.ddPlot k := State.ddPlot_countDup ..
  have alone : ((s.srcHeard k m).count (R.RING_CNT_DUP.COUNT k)).dd (((s.srcHeard k m).count (R.RING_CNT_DUP.COUNT k)).ddPlot k) = [e] :=
    plot ▸ hd
  rw [State.ddReceive_copy (State.ddFind_single hd he) hsent hseen, State.dd_setGapRun, ← plot]
  exact State.dd_ddPut_single alone he

theorem State.dup_ddReceive_copy (hseen : (if a then e.seenA else e.seenB) = false) :
    (s.ddReceive k a m q).2.f (R.RING_CNT_DUP.COUNT k) = satInc 0xFFFFFFFF (s.f (R.RING_CNT_DUP.COUNT k)) := by
  rw [State.ddReceive_copy (State.ddFind_single hd he) hsent hseen, State.f_eq, State.setGapRun_regs]
  exact (s.srcHeard k m).f_count_same (show 0 + 32 ≤ 32 by decide) rfl

end

/-! ## Timeouts of entries and records -/

/-- A fold over the plots does to each of them what its own step does. -/
theorem foldS_plots {β : Type} {g : Nat → State → State} {get : State → Nat → β} {F : β → β}
    (hsame : ∀ s p, get (g p s) p = F (get s p)) (hne : ∀ s p i, i ≠ p → get (g p s) i = get s i) (s : State) {p : Nat} (hp : p < 8) :
    get (foldS (List.range 8) g s) p = F (get s p) := by
  obtain ⟨u, hu⟩ := foldS_at (g := g) (List.nodup_range (n := 8)) (List.mem_range.2 hp) s
  obtain ⟨before, after⟩ := hu (get · p) fun j hj t => hne t j p hj.symm
  exact after.trans ((hsame u p).trans (congrArg F before))

theorem State.dd_ddExpire (s : State) (k : Nat) (m : Mac) (q : Nat) {p : Nat} (hp : p < 8) :
    (s.ddExpire k m q).dd p = (s.dd p).filter (fun e => !e.hits k m q) := by
  unfold State.ddExpire
  exact foldS_plots (get := State.dd) (F := List.filter fun e => !e.hits k m q) (fun t p => t.dd_setDd_same p _)
    (fun t _ _ h => t.dd_setDd_ne _ h) s hp

theorem State.ddExpire_regs (s : State) (k : Nat) (m : Mac) (q : Nat) : (s.ddExpire k m q).regs = s.regs := by
  unfold State.ddExpire
  refine foldS_keeps (·.regs) _ (fun _ _ => ?_) _ s
  rfl

theorem State.ddExpire_fab (s : State) (k : Nat) (m : Mac) (q : Nat) : (s.ddExpire k m q).fab = s.fab := by
  unfold State.ddExpire
  refine foldS_keeps (·.fab) _ (fun _ _ => ?_) _ s
  rfl

theorem State.srcExpire_regs (s : State) (k : Nat) (m : Mac) : (s.srcExpire k m).regs = s.regs := by
  unfold State.srcExpire
  refine foldS_keeps (·.regs) _ (fun _ _ => ?_) _ s
  rfl

theorem State.dd_srcExpire (s : State) (k : Nat) (m : Mac) {p : Nat} (hp : p < 8) :
    (s.srcExpire k m).dd p = (s.dd p).filter (fun e => !(e.ring == k && e.src == m)) := by
  unfold State.srcExpire
  refine foldS_plots (get := State.dd) (F := List.filter fun e => !(e.ring == k && e.src == m)) (fun t p => ?_) (fun t p i h => ?_) s hp
  · exact State.dd_setDd_same ..
  · exact State.dd_setDd_ne _ _ h

theorem State.srcs_srcExpire (s : State) (k : Nat) (m : Mac) {p : Nat} (hp : p < 8) :
    (s.srcExpire k m).srcs p = (s.srcs p).filter (fun x => !x.hits k m) := by
  unfold State.srcExpire
  refine foldS_plots (get := State.srcs) (F := List.filter fun x => !x.hits k m) (fun t p => ?_) (fun t p i h => ?_) s hp
  · exact State.srcs_setSrcs_same ..
  · exact State.srcs_setSrcs_ne _ _ h

/-! ## VIA bits -/

/-- Ring state is written below the counters of the ring. -/
theorem State.f_ringUpdate (was s : State) {x : Fld} (hx : 0x20 + 0x1000 * k ≤ x.off) : (State.ringUpdate was s k).f x = s.f x := by
  have set (t : State) (y : Fld) (v : Nat) (hy : y.off = 0xc + 0x1000 * k) : (t.setF y v).f x = t.f x :=
    congrArg (getBits · x.lsb x.width) (t.rd_setF_ne y v (.inr (by omega)))
  have raised (t : State) (e : Evt) (hf : e.off < 0x20 + 0x1000 * k) (hc : e.cntOff < 0x20 + 0x1000 * k) : (t.raise e).f x = t.f x :=
    congrArg (getBits · x.lsb x.width) (t.rd_raise_ne e (.inr (by omega)) (.inr (by omega)))
  have low {c : Nat} (h : c < 0x20) : c + 0x1000 * k < 0x20 + 0x1000 * k := Nat.add_lt_add_right h _
  unfold State.ringUpdate
  extract_lets lo hi loc s₁ split whole s₂ s₃ s₄
  have h₁ : s₁.f x = s.f x := (set _ _ _ rfl).trans ((set _ _ _ rfl).trans (set _ _ _ rfl))
  have h₂ : s₂.f x = s.f x := (raised _ _ (low (by decide)) (low (by decide))).trans ((set _ _ _ rfl).trans h₁)
  have h₃ : s₃.f x = s.f x := keeps_ite (g := (·.f x)) ((State.f_record ..).trans h₂) (keeps_ite (g := (·.f x))
    ((State.f_record ..).trans ((raised _ _ (low (by decide)) (low (by decide))).trans ((set _ _ _ rfl).trans h₁))) h₁)
  have h₄ : s₄.f x = s.f x := keeps_ite (g := (·.f x)) ((raised _ _ (low (by decide)) (low (by decide))).trans h₃) h₃
  exact keeps_ite (g := (·.f x)) ((State.f_record ..).trans h₄) h₄

theorem viaFld_off (k j : Nat) (a : Bool) : (viaFld k j a).off = 0x108 + 0x1000 * k + 0x10 * j := by cases a <;> rfl

theorem State.f_setVia_same (s : State) (k j : Nat) (a v : Bool) : (s.setVia k j a v).f (viaFld k j a) = b2n v := by
  refine (State.f_ringUpdate _ _ ?_).trans (s.f_setF_fit ?_ ?_)
  · rw [viaFld_off]
    omega
  · cases a
    · exact show 1 + 1 ≤ 32 by decide
    · exact show 0 + 1 ≤ 32 by decide
  · cases a <;> exact Nat.lt_succ_of_le (b2n_le v)

theorem State.f_setVia_other (s : State) (k j : Nat) (a v : Bool) :
    (s.setVia k j a v).f (viaFld k j (!a)) = s.f (viaFld k j (!a)) := by
  refine (State.f_ringUpdate _ _ ?_).trans (s.f_setF_ne _ _ _ ?_ (.inr (.inr ?_)))
  · rw [viaFld_off]
    omega
  · cases a
    · exact show 1 + 1 ≤ 32 by decide
    · exact show 0 + 1 ≤ 32 by decide
  · cases a
    · exact .inr (show 0 + 1 ≤ 1 by decide)
    · exact .inl (show 0 + 1 ≤ 1 by decide)

/-- The node tables of a ring lie above its counters. -/
theorem State.nodeOf_setF (s : State) {x : Fld} (v : Nat) (h : x.off < 0x100 + 0x1000 * k) (m : Mac) :
    (s.setF x v).nodeOf k m = s.nodeOf k m := by
  have field (y : Fld) (hy : 0x100 + 0x1000 * k ≤ y.off) : (s.setF x v).f y = s.f y :=
    congrArg (getBits · y.lsb y.width) (s.rd_setF_ne x v (.inr (by omega)))
  have valid (j : Nat) : (s.setF x v).nodeValid k j = s.nodeValid k j :=
    congrArg (· != 0) (field (R.RING_NODE_MAC_HI.VALID k j) (by simp only [R.RING_NODE_MAC_HI.VALID]; omega))
  have mac (j : Nat) : (s.setF x v).nodeMac k j = s.nodeMac k j := by
    rw [State.nodeMac, field _ (by simp only [R.RING_NODE_MAC_LO.MAC_LO]; omega), field _ (by simp only [R.RING_NODE_MAC_HI.MAC_HI]; omega)]
    rfl
  have nodes : (s.setF x v).nodes k = s.nodes k := List.filter_congr fun j _ => valid j
  simp only [State.nodeOf, nodes, mac]

/-- A one-sided entry of a source that is no node is marked and counted. -/
theorem State.oneSided_stranger {e : DdEntry} (h : s.ddFind k m q = some e) (hne : e.seenA ≠ e.seenB) (hc : e.counted = false)
    (hs : s.nodeOf k m = none) : s.oneSided k m q =
      (s.ddPut k m q (fun e => some { e with counted := true })).count (R.RING_CNT_ONE_SIDED.COUNT k) := by
  have stranger : ((s.ddPut k m q (fun e => some { e with counted := true })).count (R.RING_CNT_ONE_SIDED.COUNT k)).nodeOf k m = none :=
    (State.nodeOf_setF (s.ddPut k m q _) _ (by simp only [R.RING_CNT_ONE_SIDED.COUNT]; omega) m).trans hs
  have unequal : (e.seenA == e.seenB || e.counted) = false := by simp [hne, hc]
  simp only [State.oneSided, h, unequal, Bool.false_eq_true, if_false, State.setGapRun_stranger stranger, ite_self, stranger]

end

/-! ## Supervision -/

/-- The supervision frame of a ring, padded to at least 64 bytes. -/
def State.svFrame (s : State) (k len : Nat) : Frame :=
  ⟨0, max 64 len, BitVec.ofNat 48 (0x01154E000100 + s.f (R.RING_SV_CFG.ADDR k)), s.modMac, none, none, true, etHsrSv, none, 0, none,
    false, false, s.svBody k (max 64 len - 18)⟩

/-- The numbers of a ring and of its supervision frames advance. -/
def State.svNext (s : State) (k : Nat) : State :=
  { (s.ringNext k).2 with rings := { s.rings with svSeq := sset natZero' s.rings.svSeq k ((s.svSeqOf k + 1) % 65536) } }

theorem State.supervision_on (h : s.ringOn k = true) (len : Nat) : s.supervision k len =
    (s.svNext k).enqueue (256 + s.ddPlot k) (s.svFrame k len)
      ⟨7, none, [], [s.ringA k, s.ringB k], s.ownSown, [(k, s.f (R.RING_SEQ.SEQ k))], false⟩ Mark.none :=
  if_pos h

theorem State.seq_svNext (s : State) (k : Nat) : (s.svNext k).f (R.RING_SEQ.SEQ k) = (s.f (R.RING_SEQ.SEQ k) + 1) % 65536 :=
  s.f_setF_same (R.RING_SEQ.SEQ k) _ (show 0 + 16 ≤ 32 by decide)

theorem State.svSeqOf_svNext (s : State) (k : Nat) : (s.svNext k).svSeqOf k = (s.svSeqOf k + 1) % 65536 := sget_sset_same ..

/-! ## Endpoint frames -/

/-- The VID of an endpoint's frame: that of its tag, or else the port's. -/
def State.endpointVid (s : State) (n : Nat) (v : BitVec 12) : Nat :=
  if v = 0 then s.f (R.FAB_PORTCFG.PVID (n / 32) (n % 32)) else v.toNat

theorem State.endpointFrame_down (h : s.portUp n = false) (g : EndFrame) : s.endpointFrame n g = s := if_pos (by rw [h]; rfl)

section
variable {g : EndFrame} (hup : s.portUp n = true)
include hup

theorem State.endpointFrame_offRing (h : s.ringOf n = none) : s.endpointFrame n g = s.count (R.FAB_CNT_FIELD_DROP.COUNT (n / 32)) := by
  simp only [State.endpointFrame, hup, h, Bool.not_true, Bool.false_eq_true, if_false]

theorem State.endpointFrame_ring (h : s.ringOf n = some k) : s.endpointFrame n g =
    if s.f R.FAB_FIELD_VLAN.VID ≠ 0 ∧ s.endpointVid n g.vid = s.f R.FAB_FIELD_VLAN.VID then s.endpointBody n k g.src g.body
    else s.count (R.FAB_CNT_FIELD_DROP.COUNT (n / 32)) := by
  refine (if_neg (by rw [hup]; decide)).trans ?_
  rw [h]
  rfl

theorem State.endpointFrame_otherVlan (h : s.f R.FAB_FIELD_VLAN.VID = 0 ∨ s.endpointVid n g.vid ≠ s.f R.FAB_FIELD_VLAN.VID) :
    s.endpointFrame n g = s.count (R.FAB_CNT_FIELD_DROP.COUNT (n / 32)) := by
  cases hk : s.ringOf n with
  | none => exact State.endpointFrame_offRing hup hk
  | some k => exact (State.endpointFrame_ring hup hk).trans (if_neg (by tauto))

theorem State.endpointFrame_body (h : s.ringOf n = some k) (h0 : s.f R.FAB_FIELD_VLAN.VID ≠ 0)
    (hv : s.endpointVid n g.vid = s.f R.FAB_FIELD_VLAN.VID) : s.endpointFrame n g = s.endpointBody n k g.src g.body :=
  (State.endpointFrame_ring hup h).trans (if_pos ⟨h0, hv⟩)

end

section
variable {src : Mac} {b : List Byte}

theorem State.endpointBody_version (h : b.getD 0 0 ≠ 3) : s.endpointBody n k src b = s.count (R.FAB_CNT_FIELD_DROP.COUNT (n / 32)) :=
  if_pos fun e => h (BitVec.eq_of_toNat_eq e)

/-- The three types of R568; any other is reserved. -/
theorem State.endpointBody_reserved (h : b.getD 1 0 ∉ [1, 2, 3]) :
    s.endpointBody n k src b = s.count (R.FAB_CNT_FIELD_DROP.COUNT (n / 32)) := by
  have type {c : Byte} (hc : c ∈ [1, 2, 3]) : (b.getD 1 0).toNat ≠ c.toNat := fun e => h (BitVec.eq_of_toNat_eq e ▸ hc)
  have h1 : (b.getD 1 0).toNat ≠ 1 := type (c := 1) (by decide)
  have h2 : (b.getD 1 0).toNat ≠ 2 := type (c := 2) (by decide)
  have h3 : (b.getD 1 0).toNat ≠ 3 := type (c := 3) (by decide)
  unfold State.endpointBody
  extract_lets
  split
  · rfl
  · split
    case h_4 => rfl
    all_goals contradiction

end

end

end Sys2Proof.Machine
end

section
open Sys2Proof Sys2Proof.Machine

/-- Settles O43: frames on ring ports, duplicate discard, timeouts, supervision, VIA bits, and the frames of endpoints. -/
theorem ringFrames : Obligations.RingFrames := by
  unfold Obligations.RingFrames
  refine ⟨fun s n k f hup hk hm hl => ?_, fun s k n f hs => ⟨fun ht hp => State.ringIn_untagged hs ht hp,
    fun ht hl => State.ringIn_badTag hs ht hl, fun q ht hl => State.ringIn_tagged hs ht hl⟩, fun s k q a m _ _ hd hs => ?_,
    fun s k q a m e _ hd he hsent => ?_, fun s k m q => ?_, fun s k len hon => ?_, fun s k j a hv => ?_,
    fun s k m q e he hne hc hs => ?_, fun s n src v b k i hi => ?_⟩
  · have entered {g : Frame} : (if (s.ringOf n).isSome then s.frameIn n g else s) = s.frameIn n g := if_pos (by rw [hk]; rfl)
    have taken := State.frameIn_ring hup hk hm hl
    refine ⟨congrArg Host.Outcome.next (entered.trans taken), fun ht => congrArg Host.Outcome.next (entered.trans ?_)⟩
    have same : { f with etype := etHsrSv } = f := by rw [show etHsrSv = f.etype from ht.symm]
    rw [same, taken, State.announce_other (by rw [ht]; decide)]
  · exact ⟨by rw [State.ddReceive_unknown (State.ddFind_empty hd)], State.dd_ddReceive_first hd hs⟩
  · refine ⟨fun hseen => ⟨?_, State.dd_ddReceive_copy hd he hsent hseen, State.dup_ddReceive_copy hd he hsent hseen⟩,
      fun hseen => ?_⟩
    · rw [State.ddReceive_copy (State.ddFind_single hd he) hsent hseen]
    · rw [State.ddReceive_again (State.ddFind_single hd he) hsent hseen]
      exact ⟨rfl, hd⟩
  · exact ⟨⟨_, rfl, fun p hp => s.dd_ddExpire k m q.toNat hp, s.ddExpire_regs k m q.toNat, s.ddExpire_fab k m q.toNat⟩,
      ⟨_, rfl, fun p hp => ⟨s.srcs_srcExpire k m hp, s.dd_srcExpire k m hp⟩, s.srcExpire_regs k m⟩⟩
  · exact ⟨s.svFrame k len.toNat, s.svNext k, _, rfl, State.supervision_on hon len.toNat, rfl, rfl, rfl, rfl, s.seq_svNext k,
      s.svSeqOf_svNext k, rfl⟩
  · have fallen := congrArg (· != 0) (s.f_setVia_same k j a false)
    have other := congrArg (· != 0) (s.f_setVia_other k j a false)
    refine ⟨s.setVia k j a false, congrArg Host.Outcome.next (if_pos hv), ?_⟩
    cases a with
    | true => exact ⟨fallen, other⟩
    | false => exact ⟨fallen, other⟩
  · refine ⟨_, congrArg Host.Outcome.next (State.oneSided_stranger he hne hc hs), ?_, State.count_rcd ..⟩
    exact State.f_count_same _ (show 0 + 32 ≤ 32 by decide) rfl
  · intro drop vid w eui rec_ status
    have run : exec i s = .next (s.endpointFrame n ⟨src, v, b⟩) := by
      simp only [List.mem_cons, List.not_mem_nil, or_false] at hi
      rcases hi with rfl | rfl | rfl <;> rfl
    have goes {t : State} (h : s.endpointFrame n ⟨src, v, b⟩ = t) : exec i s = .next t := run.trans (congrArg Host.Outcome.next h)
    refine ⟨fun hd => goes (State.endpointFrame_down hd _), fun hup hk => goes (State.endpointFrame_offRing hup hk),
      fun hup hv => goes (State.endpointFrame_otherVlan hup hv), fun hup hk h0 hv => ?_⟩
    have body {t : State} (h : s.endpointBody n k src b = t) : exec i s = .next t :=
      goes ((State.endpointFrame_body (g := ⟨src, v, b⟩) hup hk h0 hv).trans h)
    refine ⟨fun h => body (h.elim State.endpointBody_version State.endpointBody_reserved), fun h3 =>
      ⟨fun ht => body ?_, fun ht => body ?_, fun ht => ⟨fun j hj => body ?_, fun hj => body ?_⟩⟩⟩
    · simp only [State.endpointBody, h3, ht]
      rfl
    · simp only [State.endpointBody, h3, ht]
      rfl
    · simp only [State.endpointBody, h3, ht, hj]
      rfl
    · simp only [State.endpointBody, h3, ht, hj]
      rfl

end

section
/-! SUPPORT. Module pairs (R268, R331–R333, R336, R338): the frames of a pair and the ports that they take, the CKPT data, leases and
echoes, and the checkpoint on both sides. -/
namespace Sys2Proof.Machine
open Sys2Proof

section
variable {s : State} {e q : Nat}

theorem State.when_true {c : Bool} {g : State → State} (h : c = true) : s.when c g = g s := if_pos h

theorem State.when_false {c : Bool} {g : State → State} (h : c = false) : s.when c g = s := if_neg (by rw [h]; decide)

/-- What a command does when its condition holds. -/
theorem State.next_when_true {c : Bool} {g : State → State} {t : State} (h : c = true) (ht : g s = t) :
    (Host.Outcome.next (s.when c g) : Res) = .next t :=
  congrArg Host.Outcome.next ((State.when_true h).trans ht)

theorem State.next_when_false {c : Bool} {g : State → State} (h : c = false) : (Host.Outcome.next (s.when c g) : Res) = .next s :=
  congrArg Host.Outcome.next (State.when_false h)

/-! ## The frame of a pair -/

/-- The header of R331: 32 bytes. -/
def State.pairHeader (s : State) (type seq len : Nat) : List Byte :=
  [0x80, BitVec.ofNat 8 type, 0, 0] ++ leBytes 4 s.epoch ++ leBytes 4 seq ++
  [BitVec.ofNat 8 s.role, BitVec.ofNat 8 (b2n (s.on R.SYS_PAIR_STATUS.RING_VIEW)), 0, 0] ++
  wordsBytes [stampWord s.now 0, stampWord s.now 1, stampWord s.now 2] ++ leBytes 4 len

theorem State.pairHeader_length (s : State) (type seq len : Nat) : (s.pairHeader type seq len).length = 32 := by
  simp [State.pairHeader]

theorem State.pairFrame_body (s : State) (type seq : Nat) (data : List Byte) :
    (s.pairFrame type seq data).body = s.pairHeader type seq data.length ++ data := rfl

theorem State.pairHeader_seq (s : State) (type seq len : Nat) (data : List Byte) :
    ((s.pairHeader type seq len ++ data).drop 8).take 4 = leBytes 4 seq := rfl

theorem leNat_leBytes (n v : Nat) : leNat (leBytes n v) = v % 256 ^ n := by
  induction n generalizing v with
  | zero => exact (Nat.mod_one v).symm
  | succ n ih =>
    rw [leBytes, leNat, ih, Nat.pow_succ', Nat.mod_mul]
    rfl

/-! ## The PAIR ports -/

/-- The frame that the model's statements name: class 6, to one port, from the control port's attachment to its plot. -/
theorem State.pairTo_port {n : Nat} (h : n < 256) (f : Frame) :
    s.pairTo n f = s.enqueue (256 + n / 32) f ⟨6, none, [n], [], false, [], false⟩ Mark.none := by
  rw [State.pairTo, plotOf, if_pos h]
  rfl

theorem State.pairPorts_lt {n : Nat} (h : n ∈ s.pairPorts) : n < 256 := List.mem_range.1 (List.mem_filter.1 h).1

theorem State.pairLease_eq {l : List Nat} (h : s.pairPorts = l) (type seq : Nat) :
    s.pairLease type seq = foldS l (fun n t => t.pairTo n (s.pairFrame type seq [])) s := by
  rw [State.pairLease, h]

theorem State.pairCkpt_none (h : s.pairPorts = []) (type seq : Nat) (data : List Byte) : s.pairCkpt type seq data = s := by
  rw [State.pairCkpt, h]
  rfl

theorem State.pairCkpt_lowest {n : Nat} {l : List Nat} (h : s.pairPorts = n :: l) (type seq : Nat) (data : List Byte) :
    s.pairCkpt type seq data = s.pairTo n (s.pairFrame type seq data) := by
  rw [State.pairCkpt, h]
  rfl

@[simp] theorem State.pairTo_pair (s : State) (n : Nat) (f : Frame) : (s.pairTo n f).pair = s.pair :=
  State.enqueue_keeps (g := (·.pair)) (fun _ _ => rfl) (fun _ _ _ _ => State.setF_pair ..) ..

@[simp] theorem State.pairLease_pair (s : State) (type seq : Nat) : (s.pairLease type seq).pair = s.pair :=
  foldS_keeps (·.pair) _ (fun n t => t.pairTo_pair n _) _ s

@[simp] theorem State.pairCkpt_pair (s : State) (type seq : Nat) (data : List Byte) : (s.pairCkpt type seq data).pair = s.pair := by
  unfold State.pairCkpt
  split
  · exact State.pairTo_pair ..
  · rfl

/-! ## CKPT data -/

/-- Consecutive parts of a list, joined. -/
theorem flatten_parts {α : Type} (l : List α) (r n : Nat) :
    ((List.range n).map (fun i => (l.drop (i * r)).take r)).flatten = l.take (n * r) := by
  induction n with
  | zero => simp
  | succ n ih => rw [List.range_succ, List.map_append, List.flatten_append, ih, Nat.succ_mul, List.take_add, List.map_singleton,
      List.flatten_singleton]

/-- A part goes in full. -/
theorem ckptData_flatten (x : CkptPart) : (ckptData x).flatten = Config.ckptBytes x := by
  refine (flatten_parts ..).trans (List.take_of_length_le ?_)
  simp only [ceilDiv, ckptRoom]
  omega

theorem ckptData_room (x : CkptPart) {b : List Byte} (hb : b ∈ ckptData x) : b.length ≤ 9166 := by
  obtain ⟨i, -, rfl⟩ := List.mem_map.1 hb
  exact List.length_take_le ..

theorem ckptData_ne_nil (x : CkptPart) : ckptData x ≠ [] := by
  refine List.ne_nil_of_length_pos ?_
  simp only [ckptData, List.length_map, List.length_range]
  omega

/-- Each CKPT frame has its own number. -/
theorem State.ckptSeq_foldS (l : List (List Byte)) (s : State) (h : s.pair.ckptSeq < 2 ^ 32) :
    (foldS l (fun b s => s.ckptFrame b) s).pair.ckptSeq = (s.pair.ckptSeq + l.length) % 2 ^ 32 := by
  induction l generalizing s with
  | nil => exact (Nat.mod_eq_of_lt h).symm
  | cons b l ih =>
    have next : (s.ckptFrame b).pair.ckptSeq = (s.pair.ckptSeq + 1) % 2 ^ 32 := congrArg Pair.ckptSeq (State.pairCkpt_pair ..)
    have rest := ih (s.ckptFrame b) (next ▸ Nat.mod_lt _ (by decide))
    rw [next, Nat.mod_add_mod] at rest
    rw [List.length_cons, Nat.add_comm l.length, ← Nat.add_assoc]
    exact rest

theorem State.ckptSend_quiet (h : s.role ≠ rolePairActive) (x : CkptPart) : s.ckptSend x = s := if_neg h

theorem State.ckptSeq_ckptSend (hr : s.role = rolePairActive) (h : s.pair.ckptSeq < 2 ^ 32) (x : CkptPart) :
    (s.ckptSend x).pair.ckptSeq = (s.pair.ckptSeq + (ckptData x).length) % 2 ^ 32 := by
  rw [State.ckptSend, if_pos hr]
  exact s.ckptSeq_foldS _ h

/-! ## Roles -/

theorem State.fenceable_iff (s : State) : s.fenceable = true ↔ s.role = rolePairActive ∨ s.role = roleClaiming := by
  simp only [State.fenceable, Bool.or_eq_true, beq_iff_eq]

theorem State.fenceable_other (h3 : s.role ≠ rolePairActive) (h2 : s.role ≠ roleClaiming) : s.fenceable = false :=
  Bool.eq_false_iff.2 fun h => (s.fenceable_iff.1 h).elim h3 h2

theorem State.seePartner_lower (h : e ≤ s.epoch) : s.seePartner e = s :=
  State.when_false (by rw [decide_eq_false h.not_gt, Bool.and_false])

theorem State.seePartner_unfenced (h : s.fenceable = false) (e : Nat) : s.seePartner e = s :=
  State.when_false (by rw [h, Bool.false_and])

theorem State.fenceable_standby (h : s.role = roleStandby) : s.fenceable = false :=
  State.fenceable_other (by rw [h]; decide) (by rw [h]; decide)

theorem State.seePartner_higher (h : s.fenceable = true) (he : s.epoch < e) : s.seePartner e = s.fence 1 :=
  State.when_true (by rw [h, decide_eq_true he]; rfl)

theorem State.role_congr {t : State} (h : t.regs = s.regs) : t.role = s.role := congrArg (Regs.f · R.SYS_PAIR_STATUS.ROLE) h

theorem State.role_setF (s : State) {x : Fld} (v : Nat) {b : Blk} (hx : x.blk = b) (hb : b ≠ .sys) : (s.setF x v).role = s.role :=
  s.f_setF_blk v (hx.trans_ne hb)

theorem State.role_setStage (s : State) (j : Nat) (x : Stage) : (s.setStage j x).role = s.role := rfl

theorem State.role_setMtr (s : State) (m : Mtr) : ({ s with mtr := m } : State).role = s.role := rfl

theorem State.role_standbyShow (s : State) : s.standbyShow.role = s.role :=
  (foldS_keeps (·.role) _ (fun _ t => t.role_setF (b := .can) _ rfl (by decide)) _ _).trans
    ((foldS_keeps (·.role) _ (fun _ t => t.role_setF (b := .rad) _ rfl (by decide)) _ _).trans
      (s.role_setF (b := .dio) _ rfl (by decide)))

theorem State.role_stageDark (s : State) (j : Nat) : (s.stageDark j).role = s.role :=
  keeps_ite (g := (·.role)) rfl ((State.role_congr (State.send_regs ..)).trans (s.role_setF (b := .ind) _ rfl (by decide)))

theorem State.role_stagesOff (s : State) : s.stagesOff.role = s.role := by
  unfold State.stagesOff
  refine foldS_keeps (·.role) _ (fun j t => ?_) _ s
  exact (State.role_stageDark _ j).trans (t.role_setStage j _)

/-- The role that is entered is the role that the module shows. -/
theorem State.role_setRole (s : State) {r : Nat} (hr : r < 8) : (s.setRole r).role = r := by
  unfold State.setRole
  extract_lets drv was s₁ on s₂ s₃ s₄ s₅ s₆
  have h₁ : s₁.role = r := s.f_setF_fit (show 29 + 3 ≤ 32 by decide) hr
  have h₂ : s₂.role = r := (s₁.f_setF_ne _ _ _ (show 24 + 1 ≤ 32 by decide) (by decide)).trans h₁
  have h₃ : s₃.role = r := (foldS_keeps (·.role) _ (fun _ t => t.role_setF (b := .ring) _ rfl (by decide)) _ _).trans h₂
  have h₄ : s₄.role = r := s₃.role_standbyShow.trans h₃
  have h₅ : s₅.role = r := (s₄.role_setMtr _).trans h₄
  have h₆ : s₆.role = r :=
    (State.when_keeps (·.role) s₅ _ (·.setF R.MTR_EST_STATUS.BUSY 0) (s₅.role_setF _ rfl (by decide))).trans h₅
  have h₇ : (s₆.when (on == 0) State.stagesOff).role = r := (State.when_keeps (·.role) s₆ _ _ s₆.role_stagesOff).trans h₆
  exact (State.role_congr (State.dioDrive_regs ..)).trans h₇

theorem State.role_fence (s : State) (c : Nat) : (s.fence c).role = roleFenced :=
  (State.role_congr (State.record_regs ..)).trans ((State.f_raise_off _ _ (by decide) (by decide)).trans
    (State.role_setRole _ (by decide)))

/-! ## Leases and echoes -/

/-- The next lease is remembered with its instant, and goes to the PAIR ports. -/
theorem State.leaseSend_pair (s : State) : s.leaseSend.pair.leaseSeq = (s.pair.leaseSeq + 1) % 2 ^ 32 ∧
    ((s.pair.leaseSeq + 1) % 2 ^ 32, s.opTotal) ∈ s.leaseSend.pair.leaseSent ∧
    s.leaseSend = ({ s with pair := s.leaseSend.pair } : State).pairLease 1 ((s.pair.leaseSeq + 1) % 2 ^ 32) := by
  have pair : s.leaseSend.pair = { s.pair with
      leaseSeq := (s.pair.leaseSeq + 1) % 2 ^ 32
      leaseSent := s.pair.leaseSent.filter (fun x => decide (s.opTotal < x.2 + leaseTicks)) ++
        [((s.pair.leaseSeq + 1) % 2 ^ 32, s.opTotal)] } := State.pairLease_pair ..
  rw [pair]
  exact ⟨rfl, List.mem_append_right _ List.mem_cons_self, rfl⟩

/-- A lease counts: its age restarts when it is fresh. -/
def State.leaseCounted (s : State) (e q : Nat) (w : Stamp) : State :=
  s.modPair (fun p => { p with leaseSeen := q, leaseEpoch := e, leaseAt := if s.leaseFresh w then some s.opMs else p.leaseAt })

/-- Beside BOOT and the roles that a fence ends, a lease counts in STANDBY, when its epoch is at or above the module's own. -/
theorem State.lease_eq (hf : s.fenceable = false) (hb : s.role ≠ roleBoot) (e q : Nat) (w : Stamp) :
    s.lease e q w = if s.role = roleStandby ∧ s.epoch ≤ e then s.leaseCounted e q w else s := by
  have boot : (s.role == roleBoot && s.paired && decide (s.epoch ≤ e)) = false := by rw [beq_false_of_ne hb]; rfl
  simp only [State.lease, State.seePartner_unfenced hf, State.when_false boot]
  exact if_congr (by simp) rfl rfl

theorem State.leaseCounted_eq (s : State) (e q : Nat) (w : Stamp) : s.leaseCounted e q w = { s with pair := { s.pair with
    leaseSeen := q, leaseEpoch := e,
    leaseAt := if stampUnits s.now < stampUnits w + 200000000 * 65536 then some s.opMs else s.pair.leaseAt } } := by
  simp only [State.leaseCounted, State.leaseFresh, decide_eq_true_eq]
  rfl

/-- Whether a lease with a number is still fresh. -/
def State.leaseOut (s : State) (q : Nat) : Bool := s.pair.leaseSent.any (fun x => x.1 == q && decide (s.opTotal < x.2 + leaseTicks))

theorem State.leaseOut_iff (s : State) (q : Nat) :
    s.leaseOut q = true ↔ ∃ m, (q, m) ∈ s.pair.leaseSent ∧ s.opTotal < m + leaseTicks := by
  simp only [State.leaseOut, List.any_eq_true, Bool.and_eq_true, beq_iff_eq, decide_eq_true_eq]
  constructor
  · rintro ⟨⟨_, m⟩, hm, rfl, hf⟩
    exact ⟨m, hm, hf⟩
  · rintro ⟨m, hm, hf⟩
    exact ⟨(q, m), hm, rfl, hf⟩

/-- The echo of a fresh lease acknowledges it. -/
theorem State.echo_fresh (hf : s.fenceable = true) (he : e ≤ s.epoch) (hq : s.leaseOut q = true) :
    s.echo e q = s.modPair (fun p => { p with
      leaseAcked := some s.opMs, leaseSent := (p.leaseSent.dropWhile (fun x => x.1 != q)).drop 1 }) := by
  rw [State.echo, State.seePartner_lower he]
  exact State.when_true (by rw [hf, Bool.true_and]; exact hq)

theorem State.echo_stale (he : e ≤ s.epoch) (hq : s.leaseOut q = false) : s.echo e q = s := by
  rw [State.echo, State.seePartner_lower he]
  exact State.when_false (Bool.and_eq_false_imp.2 fun _ => hq)

/-- An echo with a higher epoch fences the module. -/
theorem State.echo_higher (hf : s.fenceable = true) (he : s.epoch < e) (q : Nat) : s.echo e q = s.fence 1 := by
  have role : (s.fence 1).role = roleFenced := s.role_fence 1
  have out : (s.fence 1).fenceable = false := State.fenceable_other (by rw [role]; decide) (by rw [role]; decide)
  rw [State.echo, State.seePartner_higher hf he]
  exact State.when_false (by rw [out, Bool.false_and])

/-! ## The checkpoint -/

theorem State.keepsCkpt_iff (s : State) : s.keepsCkpt = true ↔ s.role = rolePairActive ∨ s.role = roleSolo := by
  simp only [State.keepsCkpt, Bool.or_eq_true, beq_iff_eq]

theorem State.keepsCkpt_other (h3 : s.role ≠ rolePairActive) (h5 : s.role ≠ roleSolo) : s.keepsCkpt = false :=
  Bool.eq_false_iff.2 fun h => (s.keepsCkpt_iff.1 h).elim h3 h5

/-- What the ledger's commit leaves of the module's own checkpoint. -/
theorem State.ledgerCommit_own (s : State) (g : LdgTag) (b : List Byte) :
    ((s.ledgerCommit g b).ledger.own, (s.ledgerCommit g b).ledger.ownApplied) = (s.ledger.own, s.ledger.ownApplied) := by
  refine State.ledgerCommit_keeps (fun s => (s.ledger.own, s.ledger.ownApplied)) (fun s w => ?_) (fun s => ?_) (fun _ _ => rfl) s g b
  · simp only [State.ledgerAdd, State.setF_ledger, State.setPairR_ledger]
  · unfold State.ledgerDone
    split <;> simp only [State.setF_ledger]

/-- Fewer deltas wait exactly when one at or below the number did. -/
theorem acked_iff (l : List Nat) (q : Nat) : (l.filter (fun n => decide (q < n))).length < l.length ↔ ∃ n ∈ l, n ≤ q := by
  simp [List.length_filter_lt_length_iff_exists]

section
variable {x : CkptPart}

theorem State.ownTake_stuck (h : s.flashStuck .checkpoint = true) : s.ownTake x = s.modPair (fun p => { p with dirty := [] }) := if_pos h

/-- The module's own checkpoint after a part. -/
def State.ownTaken (s : State) (x : CkptPart) : State :=
  { s.modPair (fun p => { p with dirty := [] }) with
    ledger := { s.ledger with own := { s.ledger.own.take x with complete := true }, ownApplied := s.shf.applied.length } }

theorem State.ownTake_writes (h : s.flashStuck .checkpoint = false) :
    s.ownTake x = (s.ownTaken x).ledgerCommit .checkpoint (leBytes 4 s.shf.applied.length) :=
  if_neg (Bool.eq_false_iff.1 h)

theorem State.dirty_ownTake (s : State) (x : CkptPart) : (s.ownTake x).pair.dirty = [] := by
  cases h : s.flashStuck .checkpoint with
  | true => rw [State.ownTake_stuck h, State.modPair_pair]
  | false =>
    rw [State.ownTake_writes h, State.ledgerCommit_pair]
    rfl

/-- A part reaches the pair unit alone, and not its number or its epoch. -/
theorem State.ckptStore_pair (s : State) (x : CkptPart) : s.ckptStore x = { s with pair := (s.ckptStore x).pair } ∧
    (s.ckptStore x).pair.ckptSeen = s.pair.ckptSeen ∧ (s.ckptStore x).pair.ckptEpoch = s.pair.ckptEpoch := by
  cases x with
  | journal _ => exact ⟨rfl, rfl, rfl⟩
  | delta _ _ _ _ => exact ⟨rfl, rfl, rfl⟩
  | snapshot _ last _ _ _ _ => cases last <;> exact ⟨rfl, rfl, rfl⟩

section
variable {fmt : Nat} (hr : s.role = roleStandby)
include hr

theorem State.seePartner_standby (e : Nat) : s.seePartner e = s := State.seePartner_unfenced (State.fenceable_standby hr) e

theorem State.ckptIn_taken (hf : fmt = s.runFmt) (hx : s.flashStuck x.region = false) : s.ckptIn e q fmt x =
    ((s.modPair (fun p => { p with ckptSeen := q, ckptEpoch := e })).ckptStore x).pairCkpt 4 q [] := by
  simp only [State.ckptIn, State.seePartner_standby hr]
  exact if_pos ⟨hr, hf, hx⟩

theorem State.ckptIn_discarded (h : fmt ≠ s.runFmt ∨ s.flashStuck x.region = true) : s.ckptIn e q fmt x = s := by
  simp only [State.ckptIn, State.seePartner_standby hr]
  exact if_neg fun ⟨_, hf, hx⟩ => h.elim (· hf) fun h => Bool.false_ne_true (hx.symm.trans h)

end

end

/-- An acknowledgement clears the deltas up to its number. -/
theorem State.ckptAck_active (hr : s.role = rolePairActive) (he : e ≤ s.epoch) (q : Nat) : s.ckptAck e q =
    s.modPair (fun p => { p with
      deltaSent := s.pair.deltaSent.filter (fun n => decide (q < n))
      ckptAcked := if (s.pair.deltaSent.filter (fun n => decide (q < n))).length < s.pair.deltaSent.length then some s.opMs
        else p.ckptAcked }) := by
  simp only [State.ckptAck, State.seePartner_lower he]
  exact if_pos hr

end

end Sys2Proof.Machine
end

section
open Sys2Proof Sys2Proof.Machine

/-- Settles O51: frames of the pair, CKPT data, leases and echoes, the checkpoint on both sides, and beacons. -/
theorem pairStreams : Obligations.PairStreams := by
  unfold Obligations.PairStreams
  refine ⟨fun s hf => ⟨s.leaseSend, State.next_when_true hf rfl, s.leaseSend_pair⟩,
    fun s => ⟨s.fenceable_iff, fun hf => State.next_when_false hf⟩,
    fun s => ⟨fun hr => State.next_when_true (beq_iff_eq.2 hr) rfl, fun hr => State.next_when_false (beq_false_of_ne hr)⟩,
    fun s type q data ht hq => ?_, fun x => ⟨ckptData_flatten x, fun b => ckptData_room x, ckptData_ne_nil x⟩,
    fun s x h => ⟨fun hr => State.ckptSeq_ckptSend hr h x, fun hr => State.ckptSend_quiet hr x⟩,
    fun s e q fmt x w hl => ⟨State.next_when_false hl, State.next_when_false hl, State.next_when_false hl, State.next_when_false hl⟩,
    fun s e q w hl hr => ?_, fun s e q w => ⟨fun hr => ?_, fun hl hf he => ?_⟩, fun s e q hl hf he => ⟨fun h => ?_, fun h => ?_⟩,
    fun s => ⟨fun hr => ?_, fun h3 h5 => ?_⟩, fun s x => ?_, fun s e q fmt x hl hr => ⟨fun hf hx => ?_, fun h => ?_⟩,
    fun s e q hl hr he => ?_, fun s => ⟨fun hr => ⟨if_pos hr, if_pos hr⟩, fun h1 h0 => ?_⟩, fun s => ⟨fun hr => ?_, fun h3 h1 => ?_⟩,
    fun s i => ⟨fun hr hv hg => ?_, fun h3 h5 => ?_⟩, fun s i hp => if_pos hp⟩
  · intro f go
    have port (u : State) {n : Nat} (h : n ∈ s.pairPorts) (g : Frame) : u.pairTo n g = go u n g := u.pairTo_port (State.pairPorts_lt h) g
    have header := s.pairHeader_length type q data.length
    refine ⟨rfl, rfl, rfl, rfl, ?_, ?_, rfl, ?_, ?_, fun h => ⟨State.pairLease_eq h .., State.pairCkpt_none h ..⟩, fun n h => ?_,
      fun n m h => ?_, fun n l h => ?_⟩
    · rw [State.pairFrame_body, List.length_append, header]
    · rw [State.pairFrame_body]
      exact List.drop_left' header
    · exact (BitVec.toNat_ofNat ..).trans (Nat.mod_eq_of_lt ht)
    · exact (congrArg leNat (s.pairHeader_seq type q _ data)).trans ((leNat_leBytes 4 q).trans (Nat.mod_eq_of_lt hq))
    · exact (State.pairLease_eq h ..).trans (port s (h ▸ List.mem_cons_self) _)
    · rw [← port s (h ▸ List.mem_cons_self), ← port _ (h ▸ List.mem_cons_of_mem n List.mem_cons_self)]
      exact State.pairLease_eq h ..
    · exact (State.pairCkpt_lowest h ..).trans (port s (h ▸ List.mem_cons_self) _)
  · have counted := State.lease_eq (State.fenceable_standby hr) (by rw [hr]; decide) e.toNat q.toNat w
    rw [← s.leaseCounted_eq]
    exact ⟨fun he => State.next_when_true hl (counted.trans (if_pos ⟨hr, he⟩)),
      fun he => State.next_when_true hl (counted.trans (if_neg fun h => h.2.not_gt he))⟩
  · have out : s.fenceable = false := State.fenceable_other (by rw [hr]; decide) (by rw [hr]; decide)
    have counted := State.lease_eq out (by rw [hr]; decide) e.toNat q.toNat w
    have ignored : s.lease e.toNat q.toNat w = s := counted.trans (if_neg fun h => by rw [hr] at h; exact absurd h.1 (by decide))
    exact congrArg Host.Outcome.next (State.when_keeps id s _ _ ignored)
  · exact ⟨_, State.next_when_true hl (State.echo_higher hf he _), s.role_fence 1⟩
  · exact ⟨_, State.next_when_true hl (State.echo_fresh hf he ((s.leaseOut_iff _).2 h)), rfl, rfl, rfl⟩
  · refine State.next_when_true hl (State.echo_stale he (Bool.eq_false_iff.2 fun ho => ?_))
    obtain ⟨m, hm, hlt⟩ := (s.leaseOut_iff _).1 ho
    exact (h m hm).not_gt hlt
  · have keeps : s.keepsCkpt = true := s.keepsCkpt_iff.2 hr
    exact ⟨fun h5 => State.next_when_true (Bool.and_eq_true_iff.2 ⟨keeps, beq_iff_eq.2 h5⟩) rfl,
      fun h5 => State.next_when_false (Bool.and_eq_false_imp.2 fun _ => beq_false_of_ne h5), State.next_when_true keeps rfl⟩
  · have idle : s.keepsCkpt = false := State.keepsCkpt_other h3 h5
    exact ⟨State.next_when_false (by rw [idle, Bool.false_and]), State.next_when_false idle⟩
  · refine ⟨s.dirty_ownTake x, fun h => ?_, fun h => by rw [State.ownTake_stuck h, State.modPair_ledger]⟩
    obtain ⟨own, applied⟩ := Prod.mk.inj ((s.ownTaken x).ledgerCommit_own .checkpoint (leBytes 4 s.shf.applied.length))
    rw [State.ownTake_writes h, own, applied]
    exact ⟨rfl, rfl⟩
  · obtain ⟨alone, seen, epoch⟩ := (s.modPair (fun p => { p with ckptSeen := q.toNat, ckptEpoch := e.toNat })).ckptStore_pair x
    refine ⟨_, State.next_when_true hl (State.ckptIn_taken hr hf hx), ?_⟩
    rw [State.pairCkpt_pair]
    exact ⟨seen, epoch, congrArg (·.pairCkpt 4 q.toNat []) alone⟩
  · exact State.next_when_true hl (State.ckptIn_discarded hr h)
  · refine ⟨_, State.next_when_true hl (State.ckptAck_active hr he _), fun n => ?_, rfl, fun h => if_pos ((acked_iff ..).2 h),
      fun h => if_neg fun hlt => ?_⟩
    · exact List.mem_filter.trans (and_congr_right fun _ => decide_eq_true_iff)
    · obtain ⟨n, hn, hle⟩ := (acked_iff ..).1 hlt
      exact hle.not_gt (h n hn)
  · have other : ¬ (s.role = roleStandby ∨ s.role = roleBoot) := not_or.2 ⟨h1, h0⟩
    exact ⟨if_neg other, if_neg other⟩
  · exact State.next_when_true (Bool.or_eq_true_iff.2 (hr.imp beq_iff_eq.2 beq_iff_eq.2)) rfl
  · exact State.next_when_false (Bool.or_eq_false_iff.2 ⟨beq_false_of_ne h3, beq_false_of_ne h1⟩)
  · exact State.next_when_true (Bool.and_eq_true_iff.2 ⟨Bool.and_eq_true_iff.2 ⟨s.keepsCkpt_iff.2 hr, hv⟩, hg⟩) rfl
  · have idle : (s.keepsCkpt && s.epValid i && s.engRuns (s.ep i EP.ENG)) = false := by
      rw [State.keepsCkpt_other h3 h5, Bool.false_and, Bool.false_and]
    exact State.next_when_false idle

end

section
/-! SUPPORT. What passing time and a step of the time base work on (R285–R292): the time block's registers and the time base, and with
them the parts that neither ticks nor a step touch. Whatever else ticks and steps bring about leaves all of these alone. -/
namespace Sys2Proof.Machine
open Sys2Proof

/-- The time block and the time base, and beside them the handles, the calendar and the real-time clock. -/
def State.timing (s : State) : Store Word × TimeSt × Hnd × Cal × Rtc := (s.regs.time, s.time, s.hnd, s.cal, s.rtc)

section
variable {s t : State}

theorem State.timing_iff : t.timing = s.timing ↔
    t.regs.time = s.regs.time ∧ t.time = s.time ∧ t.hnd = s.hnd ∧ t.cal = s.cal ∧ t.rtc = s.rtc := by
  simp only [State.timing, Prod.mk.injEq]

/-! ## What equal timings show -/

theorem State.time_timing (h : t.timing = s.timing) : t.time = s.time := (State.timing_iff.1 h).2.1
theorem State.hnd_timing (h : t.timing = s.timing) : t.hnd = s.hnd := (State.timing_iff.1 h).2.2.1
theorem State.now_timing (h : t.timing = s.timing) : t.now = s.now := by rw [State.now, State.time_timing h, State.now]

/-- A register of the time block. -/
theorem State.rd_timing (h : t.timing = s.timing) (o : Nat) : t.rd .time o = s.rd .time o := by
  show sget _ t.regs.time o = sget _ s.regs.time o
  rw [(State.timing_iff.1 h).1]

theorem State.f_timing (h : t.timing = s.timing) {x : Fld} (hx : x.blk = .time) : t.f x = s.f x := by
  rw [State.f, State.f, hx, State.rd_timing h]

theorem State.on_timing (h : t.timing = s.timing) {x : Fld} (hx : x.blk = .time) : t.on x = s.on x := by
  rw [State.on, State.on, State.f_timing h hx]

theorem State.flag_timing (h : t.timing = s.timing) {e : Evt} (he : e.blk = .time) : t.flag e = s.flag e := State.on_timing h he

end

/-! ## Registers of other blocks -/

section
variable (s : State)

theorem State.timing_wr {b : Blk} (hb : b ≠ .time) (o : Nat) (v : Word) : (s.wr b o v).timing = s.timing := by
  cases b with
  | time => exact absurd rfl hb
  | _ => rfl

theorem State.timing_setF {x : Fld} (hx : x.blk ≠ .time) (v : Nat) : (s.setF x v).timing = s.timing := s.timing_wr hx _ _

theorem State.timing_setR {x : Reg} (hx : x.blk ≠ .time) (v : Word) : (s.setR x v).timing = s.timing := s.timing_wr hx _ _

theorem State.timing_raise {e : Evt} (he : e.blk ≠ .time) : (s.raise e).timing = s.timing :=
  (State.timing_setF _ he _).trans (s.timing_setF he _)

theorem State.timing_setPairR {lo hi : Reg} (hl : lo.blk ≠ .time) (hh : hi.blk ≠ .time) (v : Nat) :
    (s.setPairR lo hi v).timing = s.timing := (State.timing_setR _ hh _).trans (s.timing_setR hl _)

/-! ## Ticks of operating time (R50, R362, R493) -/

theorem State.timing_showSoc : s.showSoc.timing = s.timing := by
  have free : (if s.f R.PWR_GAUGE_CAP.CAP = 0 then s.free else (100 * s.f R.PWR_GAUGE.CHARGE / s.f R.PWR_GAUGE_CAP.CAP, s)).2.timing =
      s.timing := by
    split <;> rfl
  exact (State.timing_setF _ (by decide) _).trans free

theorem State.timing_gaugeCount (q : Int) : (s.gaugeCount q).timing = s.timing := by
  have charged (t : State) (n : Nat) : (t.setF R.PWR_GAUGE.CHARGE n).showSoc.timing = t.timing :=
    (State.timing_showSoc _).trans (t.timing_setF (by decide) n)
  have rest (x : Nat) : State.timing { s with power := { s.power with cellRest := x } } = s.timing := rfl
  unfold State.gaugeCount
  dsimp only
  refine keeps_ite (g := State.timing) ((charged ..).trans (rest _)) (keeps_ite (g := State.timing) (rest _) ?_)
  exact (charged ..).trans (rest _)

theorem State.timing_countTicks (n : Nat) : (s.countTicks n).timing = s.timing := by
  have charged (t : State) : (t.chargeTicks n).timing = t.timing :=
    keeps_ite (g := State.timing) (keeps_ite (g := State.timing) (State.timing_gaugeCount ..) (t.timing_gaugeCount _)) rfl
  exact keeps_ite (g := State.timing) (charged _) rfl

theorem State.timing_setEp (i : Nat) (x : RF) (v : Nat) : (s.setEp i x v).timing = s.timing := by
  simp only [State.timing, State.setEp_regs, State.setEp_time, State.setEp_hnd, State.setEp_cal, State.setEp_rtc]

theorem State.timing_accTicks (n : Nat) : (s.accTicks n).timing = s.timing :=
by
  have set (t : State) (i k : Nat) : (t.setAcc i k).timing = t.timing := rfl
  have taken (t : State) (i : Nat) : (t.opMinTake i).timing = t.timing :=
    keeps_ite (g := State.timing) ((set ..).trans (t.timing_setEp ..)) rfl
  exact foldS_keeps State.timing _ (fun i t => (taken ..).trans (set ..)) _ s

/-! ## What follows ticks of operating time (R297, R328, R462) -/

theorem State.timing_dioSettle : s.dioSettle.timing = s.timing := by
  refine keeps_ite (g := State.timing) rfl ?_
  exact foldS_keeps State.timing _ (fun m t => t.timing_setF (by decide) _) _ s

theorem State.timing_laserSet (z : Nat) (on : Bool) : (s.laserSet z on).timing = s.timing :=
  State.laserSet_keeps (g := State.timing) (fun _ _ => rfl) s z on

theorem State.timing_setPortState (n v : Nat) : (s.setPortState n v).timing = s.timing :=
  (State.timing_laserSet ..).trans (s.timing_setF (show Blk.port ≠ .time by decide) v)

theorem State.timing_pairLinkUpdate : s.pairLinkUpdate.timing = s.timing := by
  have shown : ((s.setF R.SYS_PAIR_STATUS.PAIR_LINK (b2n s.pairLinkUp)).setF R.SYS_PAIR_STATUS.RING_VIEW (b2n
      (s.setF R.SYS_PAIR_STATUS.PAIR_LINK (b2n s.pairLinkUp)).ringView)).timing = s.timing :=
    (State.timing_setF _ (by decide) _).trans (s.timing_setF (by decide) _)
  exact keeps_ite (g := State.timing) ((State.timing_raise _ (by decide)).trans shown) shown

theorem State.timing_leaveActs (n v : Nat) : (s.leaveActs n v).timing = s.timing := by
  unfold State.leaveActs
  extract_lets ring u w
  have cut : u.timing = s.timing :=
    (State.cutOff_keeps (g := State.timing) (fun _ _ => rfl) (fun _ => rfl) _).trans (s.timing_setPortState n v)
  have flushed : w.timing = u.timing := keeps_ite (g := State.timing) rfl rfl
  have dropped : (w.residueLinkDown n).timing = w.timing :=
    State.residueLinkDown_keeps (g := State.timing) (fun _ => rfl)
      (fun t => (State.timing_setF _ (show Blk.fab ≠ .time by decide) _).trans (t.timing_raise (show Blk.fab ≠ .time by decide))) (fun _ _ _ => rfl) w
  rw [State.timing_pairLinkUpdate, dropped, flushed, cut]

theorem State.timing_portTo (n v : Nat) : (s.portTo n v).timing = s.timing :=
  keeps_ite (g := State.timing) ((State.timing_raise _ (show Blk.port ≠ .time by decide)).trans (s.timing_leaveActs n v)) (s.timing_setPortState n v)

theorem State.timing_plotsUpdate : s.plotsUpdate.timing = s.timing := by
  have shown (t : State) (p v : Nat) : (t.setPlotState p v).timing = t.timing := t.timing_setR (by decide) _
  have off (t : State) (p : Nat) : (t.plotPortsOff p).timing = t.timing :=
    foldS_keeps State.timing _ (fun n u => keeps_ite (g := State.timing) rfl (u.timing_portTo n psDark)) _ t
  have on (t : State) (p : Nat) : (t.plotPortsOn p).timing = t.timing :=
    foldS_keeps State.timing _ (fun n u => keeps_ite (g := State.timing) (u.timing_setPortState n psAcquire) rfl) _ t
  refine foldS_keeps State.timing _ (fun p t => ?_) _ s
  refine keeps_ite (keeps_ite rfl ?_) (keeps_ite rfl (keeps_ite ?_ (keeps_ite rfl (shown ..))))
  · exact (on ..).trans (shown ..)
  · exact (off ..).trans (shown ..)

theorem State.timing_ticked : s.ticked.timing = s.timing :=
  keeps_ite (g := State.timing) ((State.timing_plotsUpdate _).trans s.timing_dioSettle) s.timing_dioSettle

theorem State.timing_esmcSend : s.esmcSend.timing = s.timing := by
  have left (t : State) (f : Fab → Fab) (o : Out) : ((t.modFab f).send o).timing = t.timing := rfl
  have sent (t : State) (n id len : Nat) : (t.portSent n id len).timing = t.timing :=
    State.portSent_keeps (g := State.timing)
      (fun u lo hi v hl hh => u.timing_setPairR (by rw [hl]; decide) (by rw [hh]; decide) _) (fun _ _ _ => rfl) t n id len
  exact foldS_keeps State.timing _ (fun n t => (left ..).trans (sent t n t.fab.nextFrame esmcLen)) _ s

theorem State.timing_esmcBeats (from_ : Nat) : (s.esmcBeats from_).timing = s.timing :=
  foldS_keeps State.timing _ (fun _ t => t.timing_esmcSend) _ s

end

end Sys2Proof.Machine
end

section
/-! SUPPORT. Ticks of the time base (R285, R288): what the base is after them, and that a pass of one tick is one tick of it. -/
namespace Sys2Proof.Machine
open Sys2Proof

section
variable {s t : State}

/-! ## Writes to the time block and the time base -/

theorem State.timing_wr_congr (h : t.timing = s.timing) (o : Nat) (v : Word) : (t.wr .time o v).timing = (s.wr .time o v).timing := by
  obtain ⟨regs, rest⟩ := State.timing_iff.1 h
  exact State.timing_iff.2 ⟨congrArg (sset _ · o v) regs, rest⟩

theorem State.timing_setF_congr (h : t.timing = s.timing) {x : Fld} (hx : x.blk = .time) (v : Nat) :
    (t.setF x v).timing = (s.setF x v).timing := by
  rw [State.setF, State.setF, hx, State.rd_timing h]
  exact State.timing_wr_congr h ..

theorem State.timing_setTime (h : t.timing = s.timing) {x y : TimeSt} (hxy : x = y) :
    State.timing { t with time := x } = State.timing { s with time := y } := by
  obtain ⟨regs, -, hnd, cal, rtc⟩ := State.timing_iff.1 h
  exact State.timing_iff.2 ⟨regs, hxy, hnd, cal, rtc⟩

theorem State.timing_setNow (h : t.timing = s.timing) (n : Nat) : (t.setNow n).timing = (s.setNow n).timing :=
  State.timing_setTime h (by rw [State.time_timing h])

theorem State.timing_setSlew (h : t.timing = s.timing) (left : Int) (tick : Nat) :
    (t.setSlew left tick).timing = (s.setSlew left tick).timing :=
  State.timing_setF_congr (State.timing_setTime h (by rw [State.time_timing h])) rfl _

/-! ## Ticks -/

theorem slewAfter_zero (tick : Nat) : slewAfter 0 tick = 0 := by simp [slewAfter]

/-- No tick applies nothing of a slew. -/
theorem slewAfter_noTick (left : Int) : slewAfter left 0 = left := by
  unfold slewAfter
  split <;> split <;> omega

theorem State.timeAfter_zero (s : State) : s.timeAfter 0 = s.time.now := by
  simp [State.timeAfter, slewAfter_noTick]

theorem State.timeAfter_unslewed (h : s.time.slewLeft = 0) (k : Nat) : s.timeAfter k = s.time.now + k * s.incr := by
  rw [State.timeAfter, h, slewAfter_zero, sub_self, add_zero, Int.toNat_natCast]

theorem State.now_timeTicks (s : State) (k : Nat) : (s.timeTicks k).time.now = s.timeAfter k % tbWrap :=
  keeps_ite (g := (·.time.now)) rfl rfl

theorem State.timeTicks_unslewed (h : s.time.slewLeft = 0) (k : Nat) :
    s.timeTicks k = { s with time := { s.time with now := (s.time.now + k * s.incr) % tbWrap } } := by
  rw [← State.timeAfter_unslewed h k]
  exact if_pos h

theorem State.timing_timeTicks (h : t.timing = s.timing) (k : Nat) : (t.timeTicks k).timing = (s.timeTicks k).timing := by
  have time := State.time_timing h
  have incr : t.incr = s.incr := by rw [State.incr, State.f_timing h rfl, State.f_timing h rfl, State.incr]
  have after : t.timeAfter k = s.timeAfter k := by simp only [State.timeAfter, time, incr]
  have now := State.timing_setNow h (s.timeAfter k)
  simp only [State.timeTicks, after, time]
  split
  · exact now
  · exact State.timing_setSlew now _ _

theorem State.timing_ticks_one (s : State) : (s.ticks 1).timing = (s.timeTicks 1).timing :=
  State.timing_timeTicks ((State.timing_accTicks ..).trans (s.timing_countTicks 1)) 1

/-! ## A pass of one tick -/

theorem searchMax_none {f : Nat → Bool} (h : ∀ j, 0 < j → f j = false) (n : Nat) : searchMax f n 0 = 0 := by
  induction n with
  | zero => rfl
  | succ n ih => rw [searchMax, h _ (by positivity), if_neg Bool.false_ne_true, ih]

/-- Every whole second within one tick ends with that tick. -/
theorem State.wholeSeconds_one {k : Nat} (hk : k ∈ s.wholeSeconds 1) : k = 1 := by
  obtain ⟨x, hx, rfl⟩ := List.mem_map.1 hk
  obtain ⟨i, hi, rfl⟩ := List.mem_map.1 hx
  refine congrArg (1 - ·) (searchMax_none (fun j hj => ?_) 64)
  have wait : 1 - j = 0 := by omega
  have later : s.time.now / tbSec < s.timeAfter 1 / tbSec + 1 - min 256 (s.timeAfter 1 / tbSec - s.time.now / tbSec) + i := by
    have := List.mem_range.1 hi
    omega
  have ahead := (Nat.div_lt_iff_lt_mul (show 0 < tbSec by decide)).1 later
  rw [wait, State.timeAfter_zero, decide_eq_false (p := _ ≤ s.time.now) (by omega), Bool.and_false]

/-- The ticks up to one of the whole seconds of `pass`, and its snapshot. -/
def State.passSecond (x : State × Nat) (k : Nat) : State × Nat := ((x.1.ticks (k - x.2)).canSnapNow, k)

theorem State.timing_canSnapNow (s : State) : s.canSnapNow.timing = s.timing := rfl

/-- Whole seconds at a tick that has passed bring their snapshots alone. -/
theorem State.timing_passSecond {l : List Nat} (hl : ∀ k ∈ l, k = 1) (s : State) :
    (l.foldl State.passSecond (s, 1)).1.timing = s.timing ∧ (l.foldl State.passSecond (s, 1)).2 = 1 := by
  induction l generalizing s with
  | nil => exact ⟨rfl, rfl⟩
  | cons k l ih =>
    obtain rfl := hl k List.mem_cons_self
    exact ih (fun j hj => hl j (List.mem_cons_of_mem 1 hj)) s.canSnapNow

theorem State.timing_passSeconds {l : List Nat} (hl : ∀ k ∈ l, k = 1) (s : State) :
    ((l.foldl State.passSecond (s, 0)).1.ticks (1 - (l.foldl State.passSecond (s, 0)).2)).timing = (s.timeTicks 1).timing := by
  cases l with
  | nil => exact s.timing_ticks_one
  | cons k l =>
    obtain rfl := hl k List.mem_cons_self
    obtain ⟨timing, at_⟩ := State.timing_passSecond (fun j hj => hl j (List.mem_cons_of_mem 1 hj)) (s.ticks 1).canSnapNow
    rw [List.foldl_cons, show State.passSecond (s, 0) 1 = ((s.ticks 1).canSnapNow, 1) from rfl, at_]
    exact timing.trans s.timing_ticks_one

/-- Of the time base, a pass of one tick is one tick. -/
theorem State.timing_pass_one (s : State) : (s.pass 1).timing = (s.timeTicks 1).timing :=
  (State.timing_esmcBeats ..).trans <| (State.timing_ticked _).trans <|
    State.timing_passSeconds (fun _ hk => State.wholeSeconds_one hk) s

/-- A pass without a whole second within it. -/
theorem State.pass_noSecond {n : Nat} (h : s.wholeSeconds n = []) : s.pass n = ((s.ticks n).ticked).esmcBeats s.power.opTicks := by
  rw [State.pass, h]
  rfl

end

end Sys2Proof.Machine
end

section
/-! SUPPORT. A MODULE event in the intake (R57, R60): what an offered event reaches, and the lists of the engines while the pool has
room. -/
namespace Sys2Proof.Machine
open Sys2Proof Sys2Proof.Safety

/-! ## What an offered event reaches -/

/-- An offered event writes its list, registers of the intake and of the storm procedure, SYS_ENG_DROP, sessions and the output. -/
theorem State.offerEvent_keeps {β : Type} (g : State → β)
    (hset : ∀ s x v, x.blk = .sys ∨ x.blk = .fe ∧ 0x80200 ≤ x.off → g (State.setF s x v) = g s)
    (hlist : ∀ s l x, g (State.setIlist s l x) = g s) (hev : ∀ s cls body, g (State.event s cls body) = g s)
    (s : State) (l : Nat) (e : IEvent) : g (s.offerEvent l e) = g s := by
  have marks (u : State) : g (u.quEval .intake) = g u :=
    State.quEval_keeps g u .intake (fun _ _ _ h => hset _ _ _ (.inr
      (h.elim id fun h => ⟨h.1, le_trans (by decide) h.2⟩))) hev
  have full (u : State) : g (u.raise (quOverflow .intake)) = g u :=
    (hset _ _ _ (.inr (by decide))).trans (hset _ _ _ (.inr (by decide)))
  refine keeps_ite (hset _ _ _ (.inl rfl)) (keeps_ite ((marks _).trans (hlist ..)) ?_)
  exact (hset _ _ _ (.inr (by decide))).trans (keeps_ite (full s) rfl)

theorem State.timing_moduleEvent (s : State) (code : Nat) (p6 : Word) (t : Stamp) (step : Nat) :
    (s.moduleEvent code p6 t step).timing = s.timing := by
  have offered (u : State) (l : Nat) (e : IEvent) : (u.offerEvent l e).timing = u.timing :=
    State.offerEvent_keeps State.timing
      (fun w x v h => w.timing_setF (by rcases h with h | ⟨h, -⟩ <;> rw [h] <;> decide) v) (fun _ _ _ => rfl)
      (State.event_keeps State.timing (fun _ _ _ => rfl) fun _ _ => rfl) u l e
  exact foldS_keeps State.timing _ (fun l u => keeps_ite (g := State.timing) (offered ..) rfl) _ s

/-- Which engines are active an offered event does not change. -/
theorem State.engActive_offerEvent (s : State) (l : Nat) (e : IEvent) {k : Nat} (hk : k < 16) :
    (s.offerEvent l e).engActive k = s.engActive k := by
  have map : (s.offerEvent l e).physOf k = s.physOf k :=
    congrArg (getBits · (8 * (k % 4)) 5) <| State.offerEvent_keeps (·.r (R.FE_MAP.reg (k / 4)))
      (fun u x v h => u.rd_setF_ne x v (o := 0x80000 + 0x4 * (k / 4)) (by
        rcases h with h | ⟨-, h⟩
        · exact .inl (by rw [h]; exact (show Blk.sys ≠ .fe by decide))
        · exact .inr (by omega)))
      (fun _ _ _ => rfl) (fun u cls body => u.event_rd cls body .fe _) s l e
  have stopped : (s.offerEvent l e).fe.stopped = s.fe.stopped :=
    State.offerEvent_keeps (·.fe.stopped) (fun _ _ _ _ => rfl) (fun _ _ _ => rfl)
      (fun u cls body => congrArg Fe.stopped (u.event_fe cls body)) s l e
  rw [State.engActive, map, stopped, State.engActive]

/-- An event that finds room joins its list. -/
theorem State.offerEvent_joins {s : State} {l : Nat} (ha : s.engActive l = true) (ho : s.fe.intakeOpen = true)
    (hn : s.intakeLevel < 65536) (e : IEvent) : (s.offerEvent l e).fe = (s.setIlist l (s.ilist l ++ [e])).fe := by
  have runs : ¬ s.engStopped l = true := by
    rw [State.engStopped]
    simpa using (Bool.and_eq_true_iff.1 ha).2
  have room : s.intakeRoom = true := Bool.and_eq_true_iff.2 ⟨ho, decide_eq_true hn⟩
  rw [State.offerEvent, if_neg runs, if_pos room, State.quEval_fe]

/-! ## The pool -/

/-- The events in the lists of the intake. -/
def eventsIn (m : Store (List IEvent)) : Nat := (m.map (fun e => e.2.length)).sum

theorem State.intakeLevel_eq (s : State) : s.intakeLevel = eventsIn s.fe.lists := List.sum_eq_foldl.symm

theorem eventsIn_sput {m : Store (List IEvent)} (h : srising m = true) (k : Nat) (v : List IEvent) :
    eventsIn (sput m k v) + (sget listDefault m k).length = eventsIn m + v.length := by
  induction m with
  | nil => simp [sput, eventsIn, sget, listDefault]
  | cons e m ih =>
    obtain ⟨j, w⟩ := e
    have later := ih (srising_of_above h)
    simp only [eventsIn, sput, sget] at later ⊢
    split
    · have unlisted : sget listDefault m k = [] := sget_below listDefault k (by omega) h
      rw [if_neg (by omega), unlisted]
      simp
      omega
    · split
      · simp
        omega
      · simp only [List.map_cons, List.sum_cons]
        omega

/-- The pool holds one event more when one has joined a list. -/
theorem State.intakeLevel_setIlist {s : State} (h : canonical listDefault s.fe.lists) (l : Nat) (e : IEvent) :
    (s.setIlist l (s.ilist l ++ [e])).intakeLevel = s.intakeLevel + 1 := by
  have put : (s.setIlist l (s.ilist l ++ [e])).fe.lists = sput s.fe.lists l (s.ilist l ++ [e]) := if_neg (by simp [listDefault])
  have count := eventsIn_sput ((swf_iff ..).1 h).1 l (s.ilist l ++ [e])
  rw [State.intakeLevel_eq, State.intakeLevel_eq, put]
  simp only [State.ilist, List.length_append, List.length_singleton] at count ⊢
  omega

/-! ## One copy for every active engine -/

/-- The intake as the copies for engines below `n` leave it. -/
structure IntakeAfter (s t : State) (n : Nat) (e : IEvent) : Prop where
  isOpen : t.fe.intakeOpen = true
  level : t.intakeLevel ≤ s.intakeLevel + n
  listed : canonical listDefault t.fe.lists
  active : ∀ k, k < 16 → t.engActive k = s.engActive k
  list : ∀ k, t.ilist k = if k < n ∧ s.engActive k = true then s.ilist k ++ [e] else s.ilist k

theorem IntakeAfter.copy {s t : State} {n : Nat} {e : IEvent} (h : IntakeAfter s t n e) (hn : n < 16) (hs : s.intakeLevel + 16 ≤ 65536) :
    IntakeAfter s (if t.engActive n then t.offerEvent n e else t) (n + 1) e := by
  obtain ⟨isOpen, level, listed, active, list⟩ := h
  have other (k : Nat) (hk : k ≠ n ∨ ¬ s.engActive k = true) :
      t.ilist k = if k < n + 1 ∧ s.engActive k = true then s.ilist k ++ [e] else s.ilist k :=
    (list k).trans (if_congr ⟨fun h => ⟨by omega, h.2⟩, fun h => ⟨hk.elim (by omega) (absurd h.2), h.2⟩⟩ rfl rfl)
  by_cases ha : t.engActive n = true
  · have fe := State.offerEvent_joins ha isOpen (by omega) e
    have lists := congrArg Fe.lists fe
    rw [if_pos ha]
    refine ⟨(congrArg Fe.intakeOpen fe).trans isOpen, ?_, ?_, fun k hk => (t.engActive_offerEvent n e hk).trans (active k hk), fun k => ?_⟩
    · rw [State.intakeLevel_eq, lists, ← State.intakeLevel_eq, State.intakeLevel_setIlist listed]
      omega
    · rw [lists]
      exact swf_sset _ _ _ _ listed
    · rw [State.ilist, lists]
      refine (sget_sset ..).trans ?_
      by_cases hk : k = n
      · rw [if_pos hk, hk, list n, if_neg (by omega), if_pos ⟨Nat.lt_succ_self n, active n hn ▸ ha⟩]
      · rw [if_neg hk]
        exact other k (.inl hk)
  · have idle : s.engActive n = false := active n hn ▸ Bool.eq_false_iff.2 ha
    rw [if_neg ha]
    refine ⟨isOpen, by omega, listed, active, fun k => other k ?_⟩
    by_cases hk : k = n
    · exact .inr (by rw [hk, idle]; decide)
    · exact .inl hk

/-- While the intake is open and has room, every active engine gets its copy at the end of its list (R57). -/
theorem State.ilist_moduleEvent {s : State} (ho : s.fe.intakeOpen = true) (hn : s.intakeLevel + 16 ≤ 65536)
    (hl : canonical listDefault s.fe.lists) (code : Nat) (p6 : Word) (t : Stamp) (step : Nat) {l : Nat} (h : l < 16) :
    (s.moduleEvent code p6 t step).ilist l =
      if s.engActive l = true then s.ilist l ++ [moduleIEvent code p6 0 t step] else s.ilist l := by
  have upTo (n : Nat) (h : n ≤ 16) : IntakeAfter s (foldS (List.range n) (fun l u =>
      if u.engActive l then u.offerEvent l (moduleIEvent code p6 0 t step) else u) s) n (moduleIEvent code p6 0 t step) := by
    induction n with
    | zero => exact ⟨ho, Nat.le_refl _, hl, fun _ _ => rfl, fun k => (if_neg (by omega)).symm⟩
    | succ n ih =>
      rw [List.range_succ, foldS, List.foldl_append]
      exact (ih (by omega)).copy (by omega) hn
  rw [State.moduleEvent, (upTo 16 (Nat.le_refl _)).list l]
  simp only [h, true_and]

end Sys2Proof.Machine
end

section
/-! SUPPORT. A step of the time base (R289–R292): the base at its new value, what follows in the meter, the recorder and the intake, and
the pending sheaves that it passes. -/
namespace Sys2Proof.Machine
open Sys2Proof Sys2Proof.Safety

/-! ## The meter and the counter of the CAN channels -/

/-- A step ends a capture and moves what metering times: registers and state of the meter alone. -/
theorem State.mtrStep_keeps {β : Type} {g : State → β} (hwr : ∀ (s : State) o v, g (s.wr .mtr o v) = g s)
    (hmtr : ∀ (s : State) f, g (s.modMtr f) = g s) (s : State) (old : Stamp) : g (s.mtrStep old) = g s := by
  have written (t : State) (part : List (List Int)) : g (t.capWrite part) = g t :=
    foldS_keeps g _ (fun k u => (hwr ..).trans (foldS_keeps g _ (fun i w => hwr ..) _ u)) _ t
  have energies (t : State) : g (t.capEnergy true) = g t := by
    unfold State.capEnergy
    split
    · rfl
    · exact hmtr ..
  have ended (t : State) : g (t.capEnd 4) = g t := by
    unfold State.capEnd
    extract_lets u
    split
    · exact energies t
    · next c _ =>
      extract_lets x y z w
      have first : g x = g t := (keeps_ite rfl (written ..)).trans (energies t)
      have count : g y = g x := (hwr ..).trans ((hwr ..).trans ((hwr ..).trans (hwr ..)))
      have feeders : g z = g y := foldS_keeps g _ (fun f v => (hwr ..).trans (hwr ..)) _ y
      have result : g w = g z := (hwr ..).trans (hwr ..)
      exact (hwr ..).trans <| (hwr ..).trans <| (hmtr ..).trans <| result.trans <| feeders.trans <| count.trans first
  have crossing (t : State) (v : Nat) (z : Zc) : g (t.setZc v z) = g t := hmtr ..
  have moved (t : State) : g (t.mtrMoved old) = g t := by
    unfold State.mtrMoved
    extract_lets _ _ _ u
    exact (hmtr u _).trans (foldS_keeps g _ (fun v w => crossing ..) _ t)
  unfold State.mtrStep
  exact (State.when_keeps g _ _ _ (hmtr _ _)).trans ((moved _).trans (ended s))

/-! ## The base at its new value -/

/-- The time base at its new value, the step epoch advanced, the slew ended and STEPPED set (R289). -/
def State.stepped (s : State) (v : Nat) : State :=
  (((s.setNow v).setSlew 0 0).setF R.TIME_STATUS.STEP ((s.stepEpoch + 1) % 256)).raise E.TIME_EVT.STEPPED

section
variable {s : State} {v : Nat}

theorem State.stepped_now (hv : v < tbWrap) : (s.stepped v).time.now = v := Nat.mod_eq_of_lt hv

theorem State.stepped_hnd : (s.stepped v).hnd = s.hnd := rfl

theorem State.stepped_epoch : (s.stepped v).stepEpoch = (s.stepEpoch + 1) % 256 :=
  (State.f_raise_ne _ _ _ (by decide) (by decide) (by decide) (by decide)).trans
    (State.f_setF_fit _ (by decide) (Nat.mod_lt _ (by decide)))

theorem State.stepped_unslewed : (s.stepped v).time.slewLeft = 0 ∧ (s.stepped v).on R.TIME_STATUS.SLEWING = false :=
  ⟨rfl, State.on_b2n _ _ false <| (State.f_raise_ne _ _ _ (by decide) (by decide) (by decide) (by decide)).trans <|
    (State.f_setF_ne _ _ _ _ (by decide) (by decide)).trans (State.f_setF_fit _ (by decide) (by decide))⟩

theorem State.stepped_flag : (s.stepped v).flag E.TIME_EVT.STEPPED = true :=
  State.flag_raise _ _ (by decide) (by decide) (by decide)

end

/-! ## What follows -/

/-- The record of TIME_STEP (R495). -/
def stepRecord (old new : Stamp) (e : Nat) : List Word :=
  [stampWord old 0, stampWord old 1, stampWord old 2, stampWord new 0, stampWord new 1, stampWord new 2, w32 e]

/-- The stepped base with the meter, the CAN counter's snapshot and the record of TIME_STEP (R289, R406, R452, R495). -/
def State.stepTold (s : State) (v : Nat) : State :=
  ((s.stepped v).mtrStep s.now).canSnapNow.record 0x0201 1 0xFFFF (stepRecord s.now (s.stepped v).now ((s.stepEpoch + 1) % 256))

/-- A step goes through the stepped base, what is told of it, the events of the engines, and the pending sheaves. -/
theorem State.timeStep_eq (s : State) (v : Nat) : s.timeStep v =
    ((s.stepTold v).moduleEvent meTimeStep (w32 ((s.stepEpoch + 1) % 256)) (s.stepped v).now ((s.stepEpoch + 1) % 256)).stepSheaves s.now := by
  have epoch : ((s.setNow v).setSlew 0 0).stepEpoch = s.stepEpoch := State.f_setF_ne _ _ _ _ (by decide) (by decide)
  simp only [State.timeStep, epoch, State.stepTold, State.stepped, stepRecord]

theorem State.timing_stepTold (s : State) (v : Nat) : (s.stepTold v).timing = (s.stepped v).timing := by
  have recorded (t : State) (code sev source : Nat) (body : List Word) : (t.record code sev source body).timing = t.timing := rfl
  exact (recorded ..).trans <| (State.timing_canSnapNow _).trans <|
    State.mtrStep_keeps (g := State.timing) (fun t _ _ => t.timing_wr (by decide) _ _) (fun _ _ => rfl) (s.stepped v) s.now

/-- What neither the time block nor the meter, the CAN channels or the recorder hold stays until the step's events. -/
theorem State.stepTold_keeps {β : Type} {g : State → β} (hwr : ∀ (s : State) b o v, b = .time ∨ b = .mtr → g (s.wr b o v) = g s)
    (htime : ∀ (s : State) x, g { s with time := x } = g s) (hmtr : ∀ (s : State) f, g (s.modMtr f) = g s)
    (hcan : ∀ (s : State) x, g { s with can := x } = g s) (hrcd : ∀ (s : State) x, g { s with rcd := x } = g s)
    (s : State) (v : Nat) : g (s.stepTold v) = g s := by
  have stepped : g (s.stepped v) = g s :=
    (hwr _ _ _ _ (.inl rfl)).trans <| (hwr _ _ _ _ (.inl rfl)).trans <| (hwr _ _ _ _ (.inl rfl)).trans <|
      (hwr _ _ _ _ (.inl rfl)).trans <| (htime (s.setNow v) _).trans (htime s _)
  have meter : g ((s.stepped v).mtrStep s.now) = g (s.stepped v) :=
    State.mtrStep_keeps (fun t _ _ => hwr t _ _ _ (.inr rfl)) hmtr _ _
  have snap : g ((s.stepped v).mtrStep s.now).canSnapNow = g ((s.stepped v).mtrStep s.now) := hcan ..
  exact (hrcd ..).trans (snap.trans (meter.trans stepped))

theorem State.stepTold_fe (s : State) (v : Nat) : (s.stepTold v).fe = s.fe :=
  State.stepTold_keeps (g := (·.fe)) (fun _ _ _ _ _ => rfl) (fun _ _ => rfl) (fun _ _ => rfl) (fun _ _ => rfl) (fun _ _ => rfl) s v

theorem State.stepTold_shf (s : State) (v : Nat) : (s.stepTold v).shf = s.shf :=
  State.stepTold_keeps (g := (·.shf)) (fun _ _ _ _ _ => rfl) (fun _ _ => rfl) (fun _ _ => rfl) (fun _ _ => rfl) (fun _ _ => rfl) s v

theorem State.engActive_stepTold (s : State) (v l : Nat) : (s.stepTold v).engActive l = s.engActive l := by
  have map : (s.stepTold v).physOf l = s.physOf l :=
    congrArg (getBits · (8 * (l % 4)) 5) <| State.stepTold_keeps (g := (·.rd .fe (R.FE_MAP.reg (l / 4)).off))
      (fun t b o w h => (Regs.rd_wr ..).trans (if_neg (by rintro ⟨rfl, -⟩; exact absurd h (by decide))))
      (fun _ _ => rfl) (fun _ _ => rfl) (fun _ _ => rfl) (fun _ _ => rfl) s v
  rw [State.engActive, map, State.stepTold_fe, State.engActive]

/-! ## Pending sheaves that a step passes -/

/-- A step from `old` to `new` passes the instant of a pending sheaf (R292). -/
abbrev Ctx.passed (x : Ctx) (old new : Stamp) : Prop :=
  x.st = .pending ∧ x.loaded = true ∧ stampUnits old < stampUnits x.when_ ∧ stampUnits x.when_ < stampUnits new

/-- What a step from `old` does to context `c`. -/
def State.stepSheaf (old : Stamp) (c : Nat) (s : State) : State :=
  if (s.ctx c).passed old s.now then (s.setCtx c { s.ctx c with late := true }).raise E.FE_SHF_EVT.APPLIED_LATE else s

/-- What index `k` brings about where the others have left its part alone, and every index keeps, holds after the fold. -/
theorem foldS_reaches_from {α : Type} {g : α → State → State} {P Q : State → Prop} {k : α} {l : List α} (hk : k ∈ l)
    (hset : ∀ s, Q s → P (g k s)) (hpart : ∀ j ≠ k, ∀ s, Q s → Q (g j s)) (hkeep : ∀ j s, P s → P (g j s)) {s : State} (hs : Q s) :
    P (foldS l g s) := by
  induction l generalizing s with
  | nil => cases hk
  | cons j l ih =>
    by_cases hj : j = k
    · exact List.foldlRecOn l _ (hj ▸ hset s hs) fun t ht y _ => hkeep y t ht
    · exact ih ((List.mem_cons.1 hk).resolve_left (Ne.symm hj)) (hpart j hj s hs)

section
variable {s : State} {old : Stamp} {c : Nat}

theorem State.stepSheaf_keeps {β : Type} {g : State → β} (hctx : ∀ (s : State) c x, g (s.setCtx c x) = g s)
    (hraise : ∀ s : State, g (s.raise E.FE_SHF_EVT.APPLIED_LATE) = g s) (old : Stamp) (c : Nat) (s : State) :
    g (s.stepSheaf old c) = g s := keeps_ite ((hraise _).trans (hctx ..)) rfl

theorem State.stepSheaves_keeps {β : Type} {g : State → β} (hctx : ∀ (s : State) c x, g (s.setCtx c x) = g s)
    (hraise : ∀ s : State, g (s.raise E.FE_SHF_EVT.APPLIED_LATE) = g s) (s : State) (old : Stamp) : g (s.stepSheaves old) = g s :=
  foldS_keeps g _ (fun c t => State.stepSheaf_keeps hctx hraise old c t) _ s

theorem State.ctx_stepSheaf : (s.stepSheaf old c).ctx c =
    if (s.ctx c).passed old s.now then { s.ctx c with late := true } else s.ctx c := by
  unfold State.stepSheaf
  split
  · exact (State.ctx_raise ..).trans (State.ctx_setCtx_same ..)
  · rfl

theorem State.ctx_stepSheaf_ne {d : Nat} (h : d ≠ c) : (s.stepSheaf old c).ctx d = s.ctx d :=
  keeps_ite (g := (·.ctx d)) ((State.ctx_raise ..).trans (State.ctx_setCtx_ne _ _ h)) rfl

theorem State.now_stepSheaf : (s.stepSheaf old c).now = s.now :=
  State.stepSheaf_keeps (g := State.now) (fun _ _ _ => rfl) (fun _ => rfl) old c s

/-- Each context is judged once, by the time of the base, which stays. -/
theorem State.ctx_stepSheaves (hc : c < 8) : (s.stepSheaves old).ctx c =
    if (s.ctx c).passed old s.now then { s.ctx c with late := true } else s.ctx c := by
  obtain ⟨u, hu⟩ := foldS_at (g := State.stepSheaf old) List.nodup_range (List.mem_range.2 hc) s
  obtain ⟨ctx, last⟩ := hu (·.ctx c) fun j hj _ => State.ctx_stepSheaf_ne hj.symm
  obtain ⟨now, -⟩ := hu State.now fun _ _ _ => State.now_stepSheaf
  rw [← ctx, ← now]
  exact last.trans State.ctx_stepSheaf

/-- A passed sheaf sets APPLIED_LATE, and no other clears it. -/
theorem State.late_stepSheaves (hc : c < 8) (h : (s.ctx c).passed old s.now) : (s.stepSheaves old).flag E.FE_SHF_EVT.APPLIED_LATE = true := by
  have raised (t : State) : (t.raise E.FE_SHF_EVT.APPLIED_LATE).flag E.FE_SHF_EVT.APPLIED_LATE = true :=
    t.flag_raise _ (by decide) (by decide) (by decide)
  refine foldS_reaches_from (g := State.stepSheaf old) (P := fun t => t.flag E.FE_SHF_EVT.APPLIED_LATE = true)
    (Q := fun t => t.ctx c = s.ctx c ∧ t.now = s.now) (List.mem_range.2 hc) (fun t ht => ?_) (fun j hj t ht => ?_)
    (fun j t ht => ?_) ⟨rfl, rfl⟩
  · rw [State.stepSheaf, if_pos (by rwa [ht.1, ht.2])]
    exact raised _
  · exact ⟨(State.ctx_stepSheaf_ne hj.symm).trans ht.1, State.now_stepSheaf.trans ht.2⟩
  · unfold State.stepSheaf
    split
    · exact raised _
    · exact ht

/-- A step back passes no sheaf. -/
theorem State.stepSheaves_back (h : stampUnits s.now ≤ stampUnits old) : s.stepSheaves old = s := by
  refine foldS_fixed (g := State.stepSheaf old) fun c _ => ?_
  rw [State.stepSheaf, if_neg fun ⟨_, _, after, before⟩ => (after.trans before).not_ge h]

end

/-! ## The step as a whole -/

section
variable {s : State} {v : Nat}

/-- A step leaves the time base as it steps it, and with it handles, calendar and real-time clock. -/
theorem State.timing_timeStep : (s.timeStep v).timing = (s.stepped v).timing := by
  rw [State.timeStep_eq]
  exact (State.stepSheaves_keeps (g := State.timing) (fun _ _ _ => rfl) (fun t => t.timing_raise (by decide)) _ _).trans <|
    (State.timing_moduleEvent ..).trans (s.timing_stepTold v)

theorem State.base_timeStep (hv : v < tbWrap) : (s.timeStep v).time.now = v := by
  rw [State.time_timing State.timing_timeStep, State.stepped_now hv]

theorem State.now_timeStep : (s.timeStep v).now = (s.stepped v).now := State.now_timing State.timing_timeStep

theorem State.record_timeStep : ⟨0x0201, 1, 0xFFFF, stepRecord s.now (s.timeStep v).now ((s.stepEpoch + 1) % 256)⟩ ∈
    (s.timeStep v).rcd.offered := by
  have kept : (s.timeStep v).rcd = (s.stepTold v).rcd := by
    rw [State.timeStep_eq]
    exact (State.stepSheaves_keeps (g := (·.rcd)) (fun _ _ _ => rfl) (fun t => t.raise_rcd _) _ _).trans <|
      State.moduleEvent_keeps (·.rcd) (fun _ _ _ _ => rfl) (fun _ _ _ => rfl)
        (State.event_keeps (·.rcd) (fun _ _ _ => rfl) fun _ _ => rfl) ..
  rw [kept, State.now_timeStep]
  exact List.mem_append_right _ (List.mem_singleton.2 rfl)

/-- The pending sheaves are judged as they were before the step. -/
theorem State.timeStep_sheaves : ∃ t : State, t.shf = s.shf ∧ t.now = (s.timeStep v).now ∧ s.timeStep v = t.stepSheaves s.now := by
  refine ⟨_, ?_, ?_, s.timeStep_eq v⟩
  · exact (State.moduleEvent_keeps (·.shf) (fun _ _ _ _ => rfl) (fun _ _ _ => rfl)
      (State.event_keeps (·.shf) (fun _ _ _ => rfl) fun _ _ => rfl) ..).trans (s.stepTold_shf v)
  · rw [State.now_timeStep]
    exact State.now_timing ((State.timing_moduleEvent ..).trans (s.timing_stepTold v))

theorem State.ilist_timeStep (ho : s.fe.intakeOpen = true) (hn : s.intakeLevel + 16 ≤ 65536) (hl : canonical listDefault s.fe.lists)
    {l : Nat} (h : l < 16) : (s.timeStep v).ilist l = if s.engActive l = true then
      s.ilist l ++ [⟨0x08, false, false, (s.stepEpoch + 1) % 256, 0, 0, (s.timeStep v).now, 3, w32 ((s.stepEpoch + 1) % 256), 0⟩]
      else s.ilist l := by
  have fe := s.stepTold_fe v
  have level : (s.stepTold v).intakeLevel = s.intakeLevel := by rw [State.intakeLevel_eq, fe, State.intakeLevel_eq]
  have before : (s.stepTold v).ilist l = s.ilist l := by rw [State.ilist, fe, State.ilist]
  have after (t : State) : (t.stepSheaves s.now).ilist l = t.ilist l :=
    State.stepSheaves_keeps (g := (·.ilist l)) (fun _ _ _ => rfl) (fun _ => rfl) t s.now
  rw [State.now_timeStep, State.timeStep_eq, after, State.ilist_moduleEvent (by rwa [fe]) (by rwa [level]) (by rwa [fe]) _ _ _ _ h,
    State.engActive_stepTold, before]
  rfl

end

end Sys2Proof.Machine
end

section
open Sys2Proof Sys2Proof.Machine

/-- Settles O45: a step is the stepped base with what follows it, none of which touches the base; a pass of one tick is one tick. -/
theorem timeSteps : Obligations.TimeSteps := by
  unfold Obligations.TimeSteps
  refine ⟨fun s h => ?_, fun s v hv => ?_, fun s k => ⟨s.now_timeTicks k, fun h => State.timeTicks_unslewed h k⟩,
    fun s n h => State.pass_noSecond h, fun s h => ?_⟩
  · have set : exec .timeCmdSet s = .next (s.timeStep (nowOfStamp (s.stampR R.TIME_SET.reg))) :=
      congrArg Host.Outcome.next (State.viaWrite_reached h _)
    have step : exec .timeCmdStep s = .next (s.stepNs (toSigned 64 (s.pairR R.TIME_OFS_LO.reg R.TIME_OFS_HI.reg))) :=
      congrArg Host.Outcome.next (State.viaWrite_reached h _)
    rw [State.stepNs] at step
    have passed : (s.pass 1).hnd = s.hnd := (State.hnd_timing s.timing_pass_one).trans (keeps_ite (g := (·.hnd)) rfl rfl)
    have stepped (t : State) (v : Nat) : (t.timeStep v).flag E.TIME_EVT.STEPPED = true ∧ (t.timeStep v).time.slewLeft = 0 ∧
        (t.timeStep v).hnd = t.hnd := by
      have timing := State.timing_timeStep (s := t) (v := v)
      exact ⟨(State.flag_timing timing rfl).trans State.stepped_flag, congrArg TimeSt.slewLeft (State.time_timing timing),
        (State.hnd_timing timing).trans State.stepped_hnd⟩
    refine ⟨⟨_, set, stepped s _⟩, ⟨_, step, ?_⟩, set, step⟩
    obtain ⟨flag, slew, hnd⟩ := stepped (s.pass 1) _
    exact ⟨flag, slew, fun _ => hnd.trans passed⟩
  · have base := State.base_timeStep (s := s) hv
    have timing := State.timing_timeStep (s := s) (v := v)
    have record := State.record_timeStep (s := s) (v := v)
    have lists := fun ho hn hl l => State.ilist_timeStep (s := s) (v := v) ho hn hl (l := l)
    obtain ⟨u, shf, now, run⟩ := State.timeStep_sheaves (s := s) (v := v)
    generalize s.timeStep v = t at *
    dsimp only
    obtain ⟨-, time, hnd, cal, rtc⟩ := State.timing_iff.1 timing
    refine ⟨base, (State.f_timing timing rfl).trans State.stepped_epoch,
      congrArg TimeSt.slewLeft time, (State.on_timing timing rfl).trans State.stepped_unslewed.2,
      (State.flag_timing timing rfl).trans State.stepped_flag, hnd, cal, rtc, record, lists, fun h => ?_, fun c hc => ?_⟩
    · rw [run, State.stepSheaves_back (by rwa [now]), shf]
    · have ctx : u.ctx c = s.ctx c := State.ctx_congr shf c
      have judged : t.ctx c = if (u.ctx c).passed s.now u.now then { u.ctx c with late := true } else u.ctx c := by
        rw [run]
        exact State.ctx_stepSheaves hc
      have late (h : (u.ctx c).passed s.now u.now) : t.flag E.FE_SHF_EVT.APPLIED_LATE = true := by
        rw [run]
        exact State.late_stepSheaves hc h
      rw [ctx, now] at judged late
      exact ⟨fun h => ⟨judged.trans (if_pos h), late h⟩, fun h => judged.trans (if_neg h)⟩
  · have time := congrArg TimeSt.now (State.time_timing s.timing_pass_one)
    rw [time, s.now_timeTicks, State.timeAfter_unslewed h, one_mul]

end

section
/-! SUPPORT. The time service (R296, R300, R301): Announce messages, and what taking a source, a new state of the servo and a slew
write. -/
namespace Sys2Proof.Machine
open Sys2Proof

/-! ## Announce messages (R296) -/

section
variable {s : State} {n : Nat} {f : Frame}

theorem State.announce_ignored (h : f.isAnnounce = false ∨ s.ptpOn n = false) : s.announce n f = s := by
  refine if_neg ?_
  rcases h with h | h <;> simp [h]

/-- An Announce message stands for its sender from then on. -/
theorem State.announce_kept (h : f.isAnnounce = true) (hn : s.ptpOn n = true) :
    ∃ l b, s.announce n f = { s with time := { s.time with masters := l ++ [f.master n s.opTotal b] } } :=
  ⟨_, _, if_pos (by rw [h, hn]; rfl)⟩

end

/-! ## Sources -/

section
variable {s : State}

theorem State.admits_ptp (n : Fin 256) (telecom : Bool) (d : Byte) : s.admits (.ptp n telecom d) = true ↔
    s.f R.TIME_SRC_CFG.MODE ≠ 1 ∧ s.portUp n = true ∧ s.on (R.TIME_PTP_PORT.EN n) = true ∧ s.portRole n ∈ [1, 2, 3] ∧
    (if telecom = true then 24 ≤ d.toNat ∧ d.toNat ≤ 43 else d.toNat ≤ 127) ∧ s.isMaster telecom d.toNat n = true := by
  have domain : ptpDomain telecom d.toNat = true ↔ if telecom = true then 24 ≤ d.toNat ∧ d.toNat ≤ 43 else d.toNat ≤ 127 := by
    cases telecom <;> simp [ptpDomain]
  have role : (s.portRole n == prUplink || s.portRole n == prRing || s.portRole n == prPair) = true ↔ s.portRole n ∈ [1, 2, 3] := by
    simp [prUplink, prRing, prPair, or_assoc]
  simp only [State.admits, State.ptpOn, Bool.and_eq_true, bne_iff_ne, domain, role, and_assoc]

/-- A source that is taken is the one that TIME_SYNC names. -/
theorem State.takeSource_eq (n : Nat) : ∃ x, s.takeSource n = (s.setSource n).setOther x := by
  unfold State.takeSource
  dsimp only
  split
  · split
    · exact ⟨s.time.other, rfl⟩
    · exact ⟨_, rfl⟩
  · exact ⟨_, rfl⟩

/-! ## The UTC offset (R350, R507) -/

theorem State.timing_ledgerCommit (g : LdgTag) (b : List Byte) : (s.ledgerCommit g b).timing = s.timing := by
  refine State.ledgerCommit_keeps State.timing (fun t w => ?_) (fun t => ?_) (fun _ _ => rfl) s g b
  · exact (State.timing_setF _ (by decide) _).trans (State.timing_setPairR _ (by decide) (by decide) _)
  · unfold State.ledgerDone
    split <;> exact State.timing_setF _ (by decide) _

theorem State.utcoff_ledgerCommit (g : LdgTag) (b : List Byte) : (s.ledgerCommit g b).ledger.utcoff = s.ledger.utcoff := by
  refine State.ledgerCommit_keeps (·.ledger.utcoff) (fun t w => rfl) (fun t => ?_) (fun _ _ => rfl) s g b
  unfold State.ledgerDone
  split <;> rfl

/-- Of the time base, the UTC offset is its register. -/
theorem State.timing_setUtcoff (v : Word) : (s.setUtcoff v).timing = (s.setR R.TIME_UTCOFF.reg v).timing := by
  have put (l : Ledger) : State.timing { s with ledger := l } = s.timing := rfl
  unfold State.setUtcoff
  exact State.timing_wr_congr (keeps_ite (g := State.timing) rfl ((State.timing_ledgerCommit ..).trans (put _))) _ v

theorem State.utcoff_setUtcoff (v : Word) : (s.setUtcoff v).ledger.utcoff = v := by
  unfold State.setUtcoff
  dsimp only
  rw [State.setR_ledger]
  split
  · assumption
  · exact State.utcoff_ledgerCommit ..

theorem State.r_setUtcoff (v : Word) : (s.setUtcoff v).r R.TIME_UTCOFF.reg = v :=
  (State.rd_timing (State.timing_setUtcoff v) _).trans (s.r_setR_same _ v)

/-- A source that is taken, with its UTC offset, changes neither the state of the servo nor its counters. -/
theorem State.measured_source {n : Nat} (hn : n < 512) (utc : Word) :
    ((s.takeSource n).setUtcoff utc).f R.TIME_SYNC.SRC = (if n = 0x100 then 2 else 1) ∧
    ((s.takeSource n).setUtcoff utc).f R.TIME_SYNC.PORT = n ∧ ((s.takeSource n).setUtcoff utc).sync = s.sync ∧
    ∀ {β : Type} (g : TimeSt → β), (∀ (x : TimeSt) y, g { x with other := y } = g x) →
      g ((s.takeSource n).setUtcoff utc).time = g s.time := by
  obtain ⟨x, taken⟩ := State.takeSource_eq (s := s) n
  have timing := State.timing_setUtcoff (s := s.takeSource n) utc
  have shown (y : Fld) (hy : y.blk = .time) (ho : y.off ≠ 0x4c) : ((s.takeSource n).setUtcoff utc).f y = (s.setSource n).f y := by
    rw [State.f_timing timing hy, State.f_setR_ne _ _ _ (.inr (Ne.symm ho)), taken]
    rfl
  have src : (if n = 0x100 then 2 else 1) < 2 ^ 2 := by split <;> decide
  refine ⟨(shown _ rfl (by decide)).trans ?_, (shown _ rfl (by decide)).trans (State.f_setF_fit _ (by decide) hn),
    (shown _ rfl (by decide)).trans ?_, fun g hg => ?_⟩
  · exact (State.f_setF_ne _ _ _ _ (by decide) (by decide)).trans (s.f_setF_fit (by decide) src)
  · exact (State.f_setF_ne _ _ _ _ (by decide) (by decide)).trans (s.f_setF_ne _ _ _ (by decide) (by decide))
  · rw [State.time_timing timing, taken]
    exact hg s.time x

end

/-! ## The state of the servo -/

section
variable {s : State} {v : Nat}

theorem State.sync_setSync (hv : v < 8) : (s.setSync v).sync = v := State.f_setF_fit _ (by decide) hv

/-- Entering a state may restart the run of intervals. -/
theorem State.time_setSync {β : Type} {g : TimeSt → β} (hg : ∀ (x : TimeSt) r, g { x with run := r } = g x) :
    g (s.setSync v).time = g s.time :=
  keeps_ite (g := fun t : State => g t.time) rfl (hg s.time 0)

theorem State.rd_setSync {b : Blk} {o : Nat} (h : Blk.time ≠ b ∨ 0x48 ≠ o) : (s.setSync v).rd b o = s.rd b o := by
  refine (State.rd_setF_ne _ _ _ h).trans ?_
  split <;> rfl

end

/-! ## A slew (R288, R300) -/

section
variable {s : State}

theorem State.rd_setSlew (left : Int) (tick : Nat) {o : Nat} (h : 0x40 ≠ o) : (s.setSlew left tick).rd .time o = s.rd .time o :=
  State.rd_setF_ne _ _ _ (.inr h)

/-- One tick leaves every register of the time block but TIME_STATUS. -/
theorem State.rd_pass_one {o : Nat} (h : 0x40 ≠ o) : (s.pass 1).rd .time o = s.rd .time o :=
  (State.rd_timing s.timing_pass_one o).trans (keeps_ite (g := (·.rd .time o)) rfl (State.rd_setSlew _ _ h))

theorem State.run_pass_one : (s.pass 1).time.run = s.time.run :=
  (congrArg TimeSt.run (State.time_timing s.timing_pass_one)).trans (keeps_ite (g := (·.time.run)) rfl rfl)

theorem State.incr_setIncr {c : Nat} (hc : c < 2 ^ 40) : (s.setIncr c).incr = c := by
  have lo : (s.setIncr c).f R.TIME_INCR_LO.INCR_LO = c % 2 ^ 32 :=
    (State.f_setF_ne _ _ _ _ (by decide) (by decide)).trans (State.f_setF_same _ _ _ (by decide))
  have hi : (s.setIncr c).f R.TIME_INCR_HI.INCR_HI = c / 4294967296 :=
    State.f_setF_fit _ (by decide) (Nat.div_lt_of_lt_mul hc)
  rw [State.incr, lo, hi]
  omega

theorem State.rd_setIncr (c : Nat) {o : Nat} (h : 0x10 ≠ o) (h' : 0x14 ≠ o) : (s.setIncr c).rd .time o = s.rd .time o :=
  (State.rd_setF_ne _ _ _ (.inr h')).trans (State.rd_setF_ne _ _ _ (.inr h))

/-- The slew of an interval: TIME_ADJ, TIME_INCR within its limits, and the slew that starts; the servo stays as it is. -/
theorem State.servoSlew_spec (off : Int) : (s.servoSlew off).r R.TIME_ADJ.reg = BitVec.ofInt 32 (-off) ∧
    incrMin ≤ (s.servoSlew off).incr ∧ (s.servoSlew off).incr ≤ incrMax ∧
    (s.servoSlew off).time.slewLeft = -off * 4294967296 * 1000000 ∧ (s.servoSlew off).sync = s.sync ∧
    (s.servoSlew off).time.run = s.time.run := by
  let i := incrMin + s.free.1 % (incrMax - incrMin + 1)
  let u := s.free.2.setR R.TIME_ADJ.reg (w32 (ofSigned 32 (-off)))
  have slewed : s.servoSlew off = (u.slewStart (-off)).setIncr i := rfl
  have below : i ≤ incrMax := by
    have := Nat.mod_lt s.free.1 (show 0 < incrMax - incrMin + 1 by decide)
    simp only [i, incrMin, incrMax] at this ⊢
    omega
  have rd {o : Nat} (h : 0x10 ≠ o) (h' : 0x14 ≠ o) (hs : 0x40 ≠ o) : (s.servoSlew off).rd .time o = u.rd .time o :=
    (State.rd_setIncr _ h h').trans ((State.rd_setSlew _ _ hs).trans (State.rd_pass_one hs))
  have incr : (s.servoSlew off).incr = i := State.incr_setIncr (below.trans_lt (by decide))
  refine ⟨?_, incr ▸ Nat.le_add_right .., incr ▸ below, rfl, ?_, State.run_pass_one (s := u)⟩
  · exact (rd (by decide) (by decide) (by decide)).trans ((State.r_setR_same ..).trans (ofNat_ofSigned _))
  · exact congrArg (getBits · 29 3) ((rd (by decide) (by decide) (by decide)).trans (State.rd_setR_ne _ _ _ (.inr (by decide))))

end

end Sys2Proof.Machine
end

section
/-! SUPPORT. The servo's lines (R300): an interval by the state of the servo and by its offset, and the loss of the source. -/
namespace Sys2Proof.Machine
open Sys2Proof

/-! ## The line of an interval -/

section
variable {s : State} {off : Int}

theorem State.servoTrack_step (h : off < -100000) : s.servoTrack off = ((s.stepNs (-off)).setSync 1).setRun 0 := if_pos h

/-- An offset above 100 µs is held for confirmation, and the base free-runs. -/
def State.suspected (s : State) (off : Int) : State :=
  State.setSync ((State.freeRun { s with time := { s.time with suspect := off, confirms := 0 } }).raise E.TIME_EVT.SUSPECT) sySuspect

theorem State.servoTrack_suspect (h : 100000 < off) : s.servoTrack off = s.suspected off :=
  (if_neg (by omega)).trans (if_pos h)

theorem State.suspected_spec : (s.suspected off).sync = 4 ∧ (s.suspected off).flag E.TIME_EVT.SUSPECT = true ∧
    (s.suspected off).time.suspect = off ∧ (s.suspected off).time.now = s.time.now ∧ (s.suspected off).time.slewLeft = 0 := by
  let u := (State.freeRun { s with time := { s.time with suspect := off, confirms := 0 } }).raise E.TIME_EVT.SUSPECT
  have flag : u.flag E.TIME_EVT.SUSPECT = true := State.flag_raise _ _ (by decide) (by decide) (by decide)
  have kept : (u.setSync sySuspect).flag E.TIME_EVT.SUSPECT = u.flag E.TIME_EVT.SUSPECT :=
    congrArg (getBits · 1 1 != 0) (State.rd_setSync (b := .time) (o := 0x60) (.inr (by decide)))
  exact ⟨State.sync_setSync (by decide), kept.trans flag, State.time_setSync (g := TimeSt.suspect) fun _ _ => rfl,
    State.time_setSync (g := TimeSt.now) fun _ _ => rfl, State.time_setSync (g := TimeSt.slewLeft) fun _ _ => rfl⟩

/-- Whether an offset is small: within 1 µs. -/
def smallOffset (off : Int) : Bool := decide (-1000 ≤ off ∧ off ≤ 1000)
/-- The run of intervals with one more of them: small ones count towards LOCKED, and in LOCKED the others against it. -/
def State.runNext (s : State) (off : Int) : Nat := if (s.sync == syLocked) != smallOffset off then s.time.run + 1 else 0

/-- Any other offset slews; the sixteenth interval of a run changes between ACQUIRING and LOCKED. -/
theorem State.servoTrack_slew (h : -100000 ≤ off) (h' : off ≤ 100000) : s.servoTrack off =
    if s.runNext off < 16 then (s.servoSlew off).setRun (s.runNext off)
    else if s.sync = 2 then (s.servoSlew off).setSync 1 else (s.servoSlew off).setSync 2 := by
  obtain ⟨-, -, -, -, sync, run⟩ := State.servoSlew_spec (s := s) off
  rw [State.servoTrack, if_neg (by omega), if_neg (by omega)]
  simp only [sync, run]
  rfl

/-- Whatever becomes of the servo's state, the slew goes on. -/
theorem State.servoTrack_slewed (h : -100000 ≤ off) (h' : off ≤ 100000) : (s.servoTrack off).r R.TIME_ADJ.reg = BitVec.ofInt 32 (-off) ∧
    incrMin ≤ (s.servoTrack off).incr ∧ (s.servoTrack off).incr ≤ incrMax ∧
    (s.servoTrack off).time.slewLeft = -off * 4294967296 * 1000000 := by
  let g := fun t : State => (t.r R.TIME_ADJ.reg, t.incr, t.time.slewLeft)
  have changed (t : State) (v : Nat) : g (t.setSync v) = g t := by
    have rd {o : Nat} (ho : 0x48 ≠ o) : (t.setSync v).rd .time o = t.rd .time o := State.rd_setSync (.inr ho)
    have incr : (t.setSync v).incr = t.incr :=
      congrArg₂ (fun a b : Word => getBits a 0 32 + getBits b 0 8 * 4294967296) (rd (by decide)) (rd (by decide))
    exact Prod.ext (rd (by decide)) (Prod.ext incr (State.time_setSync (g := TimeSt.slewLeft) fun _ _ => rfl))
  have kept : g (s.servoTrack off) = g (s.servoSlew off) := by
    rw [State.servoTrack_slew h h']
    exact keeps_ite (g := g) rfl (keeps_ite (g := g) (changed ..) (changed ..))
  obtain ⟨adj, least, most, left, -⟩ := State.servoSlew_spec (s := s) off
  simp only [g, Prod.mk.injEq] at kept
  obtain ⟨hadj, hincr, hleft⟩ := kept
  exact ⟨hadj.trans adj, hincr ▸ least, hincr ▸ most, hleft.trans left⟩

/-- The third confirmation of a suspect offset steps by it. -/
theorem State.servoSuspect_confirmed (hc : s.time.confirms = 2) (h : s.time.suspect - 10000 ≤ off) (h' : off ≤ s.time.suspect + 10000) :
    s.servoSuspect off = (s.stepNs (-s.time.suspect)).setSync 1 :=
  if_pos (by rw [hc, decide_eq_true ⟨h, h'⟩]; rfl)

end

/-! ## An interval of a source -/

section
variable {s : State} {src : TimeSource} {off : Int} {utc : Word}

theorem State.syncInterval_refused (h : s.admits src = false) : s.syncInterval src off utc = s := if_pos (by rw [h]; rfl)

theorem State.syncInterval_other (h : s.admits src = true) (hs : s.selects src = false) :
    s.syncInterval src off utc = s.setOther (some src.num) :=
  (if_neg (by rw [h]; decide)).trans (if_pos (by rw [hs]; rfl))

theorem TimeSource.num_lt (src : TimeSource) : src.num < 512 := by
  cases src with
  | ptp n telecom d => exact n.isLt.trans (by decide)
  | pps => decide

/-- The servo's line for an interval, by its state. -/
def State.servoLine (s : State) (off : Int) : Nat → State
  | 0 => (s.stepNs (-off)).setSync syAcquiring
  | 3 => (s.setSync syAcquiring).servoTrack off
  | 4 => s.servoSuspect off
  | _ => s.servoTrack off

theorem State.syncInterval_selected (h : s.admits src = true) (hs : s.selects src = true) :
    s.syncInterval src off utc = ((s.takeSource src.num).setUtcoff utc).servoLine off s.sync := by
  obtain ⟨-, -, sync, -⟩ := State.measured_source (s := s) src.num_lt utc
  rw [State.syncInterval, h, hs, ← sync]
  rfl

end

/-! ## The loss of the source -/

section
variable {s : State} (h : s.sync = 1 ∨ s.sync = 2 ∨ s.sync = 4)
include h

theorem State.sourceLost_other {n : Nat} (ho : s.otherSource = some n) : s.sourceLost = (s.freeRun.setSource n).setOther none := by
  refine (if_pos h).trans ?_
  rw [ho]

theorem State.sourceLost_last (ho : s.otherSource = none) : s.sourceLost.sync = 3 ∧ s.sourceLost.flag E.TIME_EVT.HOLDOVER = true ∧
    s.sourceLost.time.now = s.time.now ∧ s.sourceLost.time.slewLeft = 0 := by
  have held : s.sourceLost =
      (((s.freeRun.setSync syHoldover).setF R.TIME_SYNC.SRC 0).setF R.TIME_SYNC.PORT 0x100).raise E.TIME_EVT.HOLDOVER := by
    refine (if_pos h).trans ?_
    rw [ho]
  rw [held]
  refine ⟨?_, State.flag_raise _ _ (by decide) (by decide) (by decide),
    State.time_setSync (g := TimeSt.now) fun _ _ => rfl, State.time_setSync (g := TimeSt.slewLeft) fun _ _ => rfl⟩
  exact (State.f_raise_ne _ _ _ (by decide) (by decide) (by decide) (by decide)).trans <|
    (State.f_setF_ne _ _ _ _ (by decide) (by decide)).trans <|
    (State.f_setF_ne _ _ _ _ (by decide) (by decide)).trans (State.sync_setSync (by decide))

end

theorem State.sourceLost_none {s : State} (h : s.sync = 0 ∨ s.sync = 3) : s.sourceLost = s :=
  if_neg (by simp only [syAcquiring, syLocked, sySuspect]; omega)

end Sys2Proof.Machine
end

section
open Sys2Proof Sys2Proof.Machine

/-- Settles O46: an interval of a selected source goes to the servo's line for its state and offset. -/
theorem timeService : Obligations.TimeService := by
  unfold Obligations.TimeService
  refine ⟨fun s n f => ⟨State.announce_ignored, fun ha hn => ?_⟩, fun s n telecom d => State.admits_ptp n telecom d,
    fun s src off utc h => congrArg Host.Outcome.next (State.syncInterval_refused h),
    fun s src off utc h hs => congrArg Host.Outcome.next (State.syncInterval_other h hs), fun s src off utc h hs => ?_,
    fun s n h ho => congrArg Host.Outcome.next (State.sourceLost_other h ho),
    fun s h ho => ⟨_, rfl, State.sourceLost_last h ho⟩, fun s h => congrArg Host.Outcome.next (State.sourceLost_none h)⟩
  · obtain ⟨l, b, kept⟩ := State.announce_kept ha hn
    rw [kept]
    exact ⟨rfl, rfl, _, List.mem_append_right l (List.mem_singleton.2 rfl), rfl, rfl, rfl, rfl⟩
  · intro u o run
    obtain ⟨shown, port, sync, time⟩ := State.measured_source (s := s) src.num_lt utc
    have line : run = .next (s.syncInterval src o utc) := rfl
    rw [State.syncInterval_selected h hs] at line
    have track (ht : s.sync = 1 ∨ s.sync = 2) : run = .next (u.servoTrack o) := by
      rcases ht with ht | ht <;> rw [line, ht] <;> rfl
    have count : u.time.run = s.time.run := time TimeSt.run fun _ _ => rfl
    refine ⟨fun hf => ?_, fun ht => ⟨fun ho => ?_, fun ho => ?_, fun ho ho' => ?_⟩, fun ht ho ho' => ⟨fun hr => ?_, fun hr => ?_⟩,
      fun ht ho hl hl' hr => ?_, fun ht hc ho ho' => ?_, shown, port, State.r_setUtcoff utc, State.utcoff_setUtcoff utc⟩
    · rw [line, hf]
      rfl
    · rw [track ht, State.servoTrack_step ho]
    · obtain ⟨state, flag, suspect, now, slew⟩ := State.suspected_spec (s := u) (off := o)
      exact ⟨_, (track ht).trans (congrArg Host.Outcome.next (State.servoTrack_suspect ho)), state, flag, suspect,
        now.trans (time TimeSt.now fun _ _ => rfl), slew⟩
    · exact ⟨_, track ht, State.servoTrack_slewed ho ho'⟩
    · have next : u.runNext o = 16 := by
        rw [State.runNext, sync, ht, count, hr, smallOffset, decide_eq_true ⟨ho, ho'⟩]
        rfl
      have locked := State.servoTrack_slew (s := u) (off := o) (by omega) (by omega)
      rw [next, if_neg (by decide), sync, if_neg (by omega)] at locked
      exact ⟨_, (track (.inl ht)).trans (congrArg Host.Outcome.next locked), State.sync_setSync (by decide)⟩
    · have next : u.runNext o = s.time.run + 1 := by
        rw [State.runNext, sync, ht, count, smallOffset, decide_eq_true ⟨ho, ho'⟩]
        rfl
      have counted := State.servoTrack_slew (s := u) (off := o) (by omega) (by omega)
      rw [next, if_pos (by omega)] at counted
      obtain ⟨-, -, -, -, state, -⟩ := State.servoSlew_spec (s := u) o
      exact ⟨_, (track (.inl ht)).trans (congrArg Host.Outcome.next counted), state.trans (sync.trans ht), rfl⟩
    · have next : u.runNext o = 16 := by
        rw [State.runNext, sync, ht, count, hr, smallOffset, decide_eq_false (by omega)]
        rfl
      have acquiring := State.servoTrack_slew (s := u) (off := o) hl hl'
      rw [next, if_neg (by decide), sync, if_pos ht] at acquiring
      exact ⟨_, (track (.inr ht)).trans (congrArg Host.Outcome.next acquiring), State.sync_setSync (by decide)⟩
    · have suspect : u.time.suspect = s.time.suspect := time TimeSt.suspect fun _ _ => rfl
      have confirms : u.time.confirms = 2 := (time TimeSt.confirms fun _ _ => rfl).trans hc
      rw [line, ht, ← suspect]
      exact congrArg Host.Outcome.next (State.servoSuspect_confirmed confirms (by rwa [suspect]) (by rwa [suspect]))

end

section
/-! SUPPORT. SyncE (R297), 1PPS and time of day (R298, R299): what an ESMC, a hold-off and a restoration write, and the ToD message. -/
namespace Sys2Proof.Machine
open Sys2Proof

/-! ## The selection -/

section
variable {s t : State} {i : Nat}

/-- The candidates go by the time block and the time base alone. -/
theorem State.synceCandidates_timing (h : t.timing = s.timing) : t.synceCandidates = s.synceCandidates := by
  have valid (i : Nat) : t.on (R.TIME_SYNCE_SRC.VALID i) = s.on (R.TIME_SYNCE_SRC.VALID i) := State.on_timing h rfl
  simp only [State.synceCandidates, valid, State.time_timing h]

theorem State.not_candidate (h : i ∈ s.time.synceDown) : i ∉ s.synceCandidates := by
  simp [State.synceCandidates, h]

/-- A choice writes TIME_SYNCE_STATUS and, at the first candidate, that one has been selected. -/
theorem State.time_synceChoose {β : Type} {g : TimeSt → β} (hg : ∀ (x : TimeSt) b, g { x with synceWas := b } = g x) :
    g s.synceChoose.time = g s.time := by
  unfold State.synceChoose
  dsimp only
  split
  · rfl
  · split
    · exact hg s.time true
    · rfl

/-- An announcement of the choice leaves the time block as chosen. -/
theorem State.timing_synceSelect : s.synceSelect.timing = s.synceChoose.timing :=
  keeps_ite (g := State.timing) rfl (State.timing_esmcSend _)

theorem State.time_synceSelect {β : Type} {g : TimeSt → β} (hg : ∀ (x : TimeSt) b, g { x with synceWas := b } = g x) :
    g s.synceSelect.time = g s.time := (congrArg g (State.time_timing State.timing_synceSelect)).trans (State.time_synceChoose hg)

/-- With no candidate left the clock holds over once one has been selected, and runs free before. -/
theorem State.synceSelect_none (he : s.on R.TIME_SYNCE_CFG.EN = true) (hc : s.synceCandidates = []) :
    s.synceSelect.f R.TIME_SYNCE_STATUS.STATE = if s.time.synceWas = true then 2 else 0 := by
  have chosen : s.synceChoose =
      (s.setF R.TIME_SYNCE_STATUS.STATE (if s.time.synceWas then 2 else 0)).setF R.TIME_SYNCE_STATUS.QL 0 := by
    rw [State.synceChoose, if_neg (by rw [he]; decide), hc]
    rfl
  have state : (if s.time.synceWas = true then 2 else 0) < 2 ^ 2 := by split <;> decide
  rw [State.f_timing State.timing_synceSelect rfl, chosen, State.f_setF_ne _ _ _ _ (by decide) (by decide)]
  exact s.f_setF_fit (by decide) state

/-! ## An ESMC -/

theorem State.synceQl_setSynceQl (q : Nat) : sget natZero' (s.setSynceQl i (some q)).time.synceQl i = q + 1 :=
  sget_sset_same natZero' s.time.synceQl i (q + 1)

theorem State.timing_esmcCount (n : Nat) : (s.esmcCount n).timing = s.timing :=
  (State.timing_setPairR _ (show Blk.port ≠ .time by decide) (show Blk.port ≠ .time by decide) _).trans
    (s.timing_setPairR (show Blk.port ≠ .time by decide) (show Blk.port ≠ .time by decide) _)

/-- The lowest candidate that is configured on a port takes its ESMC. -/
theorem State.esmc_candidate {n : Nat} (hi : i < 4) (hv : s.on (R.TIME_SYNCE_SRC.VALID i) = true)
    (hlow : ∀ j < i, s.on (R.TIME_SYNCE_SRC.VALID j) = false) (hp : s.f (R.TIME_SYNCE_SRC.PORT i) = n) (ql : Nat) : s.esmc n ql =
    if Config.qlUsable ql then (s.setSynceQl i (some ql)).synceSelect
    else if s.synceCandidates.contains i then
      { s with time := { s.time with synceHold := i :: s.time.synceHold.filter (· != i) } }
    else s.setSynceQl i (some ql) := by
  have found : (List.range 4).find? (fun i => s.on (R.TIME_SYNCE_SRC.VALID i) && s.f (R.TIME_SYNCE_SRC.PORT i) == n) = some i := by
    refine List.find?_range_eq_some.2 ⟨?_, List.mem_range.2 hi, fun j hj => ?_⟩
    · rw [hv, hp, beq_self_eq_true]
      rfl
    · rw [hlow j hj]
      rfl
  rw [State.esmc, found]

/-- A usable QL, and any QL of what could not be selected, is the candidate's; one that takes a usable candidate away starts its
hold-off. -/
theorem State.esmc_spec {n : Nat} (hi : i < 4) (hv : s.on (R.TIME_SYNCE_SRC.VALID i) = true)
    (hlow : ∀ j < i, s.on (R.TIME_SYNCE_SRC.VALID j) = false) (hp : s.f (R.TIME_SYNCE_SRC.PORT i) = n) (ql : Nat) :
    (s.esmc n ql).time.now = s.time.now ∧
    (Config.qlUsable ql = true ∨ i ∉ s.synceCandidates → sget natZero' (s.esmc n ql).time.synceQl i = ql + 1) ∧
    (Config.qlUsable ql = false → i ∈ s.synceCandidates →
      (s.esmc n ql).time.synceQl = s.time.synceQl ∧ i ∈ (s.esmc n ql).time.synceHold) := by
  rw [State.esmc_candidate hi hv hlow hp]
  by_cases hu : Config.qlUsable ql = true
  · have kept : sget natZero' (s.setSynceQl i (some ql)).synceSelect.time.synceQl i = ql + 1 :=
      (State.time_synceSelect (g := fun x => sget natZero' x.synceQl i) fun _ _ => rfl).trans (State.synceQl_setSynceQl ql)
    rw [if_pos hu, hu]
    exact ⟨State.time_synceSelect (g := TimeSt.now) fun _ _ => rfl, fun _ => kept, fun h => absurd h (by decide)⟩
  · rw [if_neg hu]
    by_cases hc : i ∈ s.synceCandidates
    · rw [if_pos (List.contains_iff_mem.2 hc)]
      exact ⟨rfl, fun h => (h.elim hu (absurd hc)).elim, fun _ _ => ⟨rfl, List.mem_cons_self⟩⟩
    · rw [if_neg (mt List.contains_iff_mem.1 hc)]
      exact ⟨rfl, fun _ => State.synceQl_setSynceQl ql, fun _ h => absurd h hc⟩

/-! ## Hold-off and restoration -/

theorem State.down_synceHoldOff : i ∈ (s.synceHoldOff i).time.synceDown := by
  unfold State.synceHoldOff
  rw [State.time_synceSelect (g := TimeSt.synceDown) fun _ _ => rfl]
  exact List.mem_cons_self

theorem State.synceRestore_spec : i ∉ (s.synceRestore i).time.synceDown ∧ (s.synceRestore i).time.synceQl = s.time.synceQl := by
  refine ⟨?_, State.time_synceSelect (g := TimeSt.synceQl) fun _ _ => rfl⟩
  unfold State.synceRestore
  rw [State.time_synceSelect (g := TimeSt.synceDown) fun _ _ => rfl]
  simp

/-! ## The 1PPS input (R298) -/

theorem State.ppsEdge_spec : s.ppsEdge.time.ppsIn = s.now ∧ s.ppsEdge.time.ppsStep = s.stepEpoch ∧ s.ppsEdge.time.ppsValid = true ∧
    s.ppsEdge.regs = s.regs := by
  unfold State.ppsEdge
  exact ⟨rfl, rfl, rfl, rfl⟩

/-- A missing edge while the input is admitted takes it away as a source. -/
theorem State.ppsMiss_admitted (h : s.f R.TIME_SRC_CFG.MODE ≠ 0) : s.ppsMiss =
    if s.f R.TIME_SYNC.SRC = 2 then (s.raise E.TIME_EVT.PPS_IN_MISS).sourceLost
    else if s.time.other = some 0x100 then (s.raise E.TIME_EVT.PPS_IN_MISS).setOther none else s.raise E.TIME_EVT.PPS_IN_MISS := by
  have src : (s.raise E.TIME_EVT.PPS_IN_MISS).f R.TIME_SYNC.SRC = s.f R.TIME_SYNC.SRC :=
    s.f_raise_ne _ _ (by decide) (by decide) (by decide) (by decide)
  refine (if_pos (bne_iff_ne.2 h)).trans ?_
  dsimp only
  rw [src, State.raise_time]

theorem State.ppsMiss_refused (h : s.f R.TIME_SRC_CFG.MODE = 0) : s.ppsMiss = s :=
  if_neg fun ha => bne_iff_ne.1 ha h

theorem State.todIn_good {l : List Byte} (hg : todGood l = true) (hs : s.f R.TIME_SYNC.SRC = 2)
    (hf : (l.getD 11 0).getLsbD 2 = true) : s.todIn l = s.setUtcoff (BitVec.ofInt 32 (toSigned 16 (leNat ((l.drop 9).take 2)))) := by
  rw [← ofNat_ofSigned]
  exact if_pos (by rw [hg, hs, hf]; rfl)

theorem State.todIn_ignored {l : List Byte} (h : todGood l = false ∨ s.f R.TIME_SYNC.SRC ≠ 2) : s.todIn l = s :=
  if_neg (by rcases h with h | h <;> simp [h])

/-! ## The ToD message that leaves -/

theorem crc16_lt (l : List Byte) : crc16 l < 65536 := by
  have bit (c : Nat) (h : c < 2 ^ 16) (n : Nat) :
      (if c / 32768 % 2 = 1 then (c * 2 % 65536) ^^^ 0x1021 else c * 2 % 65536) < 2 ^ 16 := by
    have shifted : c * 2 % 65536 < 2 ^ 16 := Nat.mod_lt _ (by decide)
    split
    · exact Nat.xor_lt_two_pow shifted (by decide)
    · exact shifted
  refine List.foldlRecOn l _ (motive := (· < 2 ^ 16)) (show 0xFFFF < 2 ^ 16 by decide) fun c hc b _ => ?_
  have mixed : c ^^^ (b.toNat * 256) < 2 ^ 16 := Nat.xor_lt_two_pow hc (by have := b.isLt; omega)
  exact List.foldlRecOn (List.range 8) _ (motive := (· < 2 ^ 16)) mixed fun c hc n _ => bit c hc n

/-- A message is a header of two bytes, a body of twelve that starts with TYPE, and the body's CRC. -/
theorem todGood_message {body : List Byte} (hl : body.length = 12) (ht : body.take 1 = [0x01]) :
    todGood ([0x5A, 0xA5] ++ body ++ leBytes 2 (crc16 body)) = true := by
  obtain ⟨b, rest, rfl⟩ := List.exists_cons_of_length_eq_add_one hl
  obtain rfl : b = 0x01 := by simpa using ht
  have length : rest.length = 11 := by simpa using hl
  have crc : leNat (leBytes 2 (crc16 (0x01 :: rest))) = crc16 (0x01 :: rest) :=
    (leNat_leBytes 2 _).trans (Nat.mod_eq_of_lt (crc16_lt _))
  simpa [todGood, length, List.take_append] using crc

theorem State.todOut_spec (sec : Nat) : (s.todOut sec).1.length = 16 ∧ todGood (s.todOut sec).1 = true ∧
    (s.todOut sec).2.regs = s.regs ∧ (s.todOut sec).2.out = s.out := by
  have good := todGood_message (body := [BitVec.ofNat 8 1] ++ leBytes 6 sec ++ leBytes 2 (s.f R.TIME_UTCOFF.UTCOFF) ++
    [BitVec.ofNat 8 (s.free.1 % 16), BitVec.ofNat 8 (s.free.1 / 16), BitVec.ofNat 8 s.stepEpoch]) (by simp) rfl
  exact ⟨by simp [State.todOut], good, rfl, rfl⟩

/-- The whole second that a pulse marks (R299). -/
def State.ppsSecond (s : State) : Nat :=
  (((s.time.now : Int) - toSigned 16 (s.f R.TIME_PPS_CFG.OFFSET) * 4294967296) / (tbSec : Nat)).toNat

theorem State.ppsOut_drives (he : s.on R.TIME_PPS_CFG.OUT_EN = true)
    (h : s.on R.TIME_PPS_CFG.FORCE = true ∨ s.sync = 2 ∨ s.sync = 3) : s.ppsOut =
    if s.on R.TIME_PPS_CFG.TOD_EN then
      (s.todOut s.ppsSecond).2.send (.pps (s.f R.TIME_PPS_CFG.WIDTH) (some (s.todOut s.ppsSecond).1))
    else s.send (.pps (s.f R.TIME_PPS_CFG.WIDTH) none) :=
  if_pos (by rw [he]; simpa [syLocked, syHoldover, or_assoc] using h)

end

end Sys2Proof.Machine
end

section
open Sys2Proof Sys2Proof.Machine

/-- Settles O47: an ESMC at the lowest candidate of its port, the ends of hold-off and wait, the input, and the output. -/
theorem syncESignals : Obligations.SyncESignals := by
  unfold Obligations.SyncESignals
  refine ⟨fun s i ql hv hlow n hp hup => ?_, fun s n ql h => ?_, fun s i => ⟨⟨_, rfl, ?_⟩, ⟨_, rfl, State.synceRestore_spec⟩⟩,
    fun s he hc => State.synceSelect_none he hc, fun s => ⟨s.ppsEdge, rfl, State.ppsEdge_spec⟩, fun s l => ⟨fun hg hs hf => ?_, fun h => ?_⟩,
    fun s => ⟨fun h => ⟨fun hs => ?_, fun hs ho => ?_, fun hs ho => ?_⟩, fun h => ?_⟩, fun s he h => ⟨fun ht => ?_, fun ht => ?_⟩,
    fun s h => ?_⟩
  · have timing : (s.esmcCount n).timing = s.timing := State.timing_esmcCount n
    have valid (j : Nat) : (s.esmcCount n).on (R.TIME_SYNCE_SRC.VALID j) = s.on (R.TIME_SYNCE_SRC.VALID j) := State.on_timing timing rfl
    obtain ⟨now, taken, held⟩ := State.esmc_spec (s := s.esmcCount n) (n := n) i.isLt ((valid i).trans hv)
      (fun j hj => (valid j).trans (hlow ⟨j, hj.trans i.isLt⟩ hj)) ((State.f_timing timing rfl).trans hp) ql.toNat
    rw [State.synceCandidates_timing timing] at taken held
    rw [State.time_timing timing] at now held
    exact ⟨_, State.next_when_true hup rfl, now, taken, held⟩
  · exact State.next_when_false h
  · exact ⟨State.down_synceHoldOff, State.not_candidate State.down_synceHoldOff⟩
  · refine ⟨_, congrArg Host.Outcome.next (State.todIn_good hg hs hf), State.r_setUtcoff _, ?_⟩
    rw [State.utcoff_setUtcoff, State.r_setUtcoff]
  · exact congrArg Host.Outcome.next (State.todIn_ignored h)
  · exact congrArg Host.Outcome.next ((State.ppsMiss_admitted h).trans (if_pos hs))
  · exact congrArg Host.Outcome.next ((State.ppsMiss_admitted h).trans ((if_neg hs).trans (if_pos ho)))
  · exact congrArg Host.Outcome.next ((State.ppsMiss_admitted h).trans ((if_neg hs).trans (if_neg ho)))
  · exact congrArg Host.Outcome.next (State.ppsMiss_refused h)
  · exact congrArg Host.Outcome.next ((State.ppsOut_drives he h).trans (if_neg (by rw [ht]; decide)))
  · obtain ⟨length, good, regs, out⟩ := State.todOut_spec (s := s) s.ppsSecond
    refine ⟨_, _, congrArg Host.Outcome.next ((State.ppsOut_drives he h).trans (if_pos ht)), ?_, length, good, regs⟩
    exact congrArg (· ++ _) out
  · exact congrArg Host.Outcome.next (if_neg (by rw [h, Bool.false_and]; decide))

end
